-- ==== Sys2Proof/Word.lean ====
section
/-!
DEFINITION. The machine's word types.
-/

namespace Sys2Proof

/-- A register, 32 bits wide (R10's conventions). -/
abbrev Word := BitVec 32

/-- A byte of memory. -/
abbrev Byte := BitVec 8

end Sys2Proof
end

