-- ==== Sys2Proof/Syntax.lean ====
section
/-!
DEFINITION. The commands the GRN-48 module takes, one constructor per row of the command table
(R-number of the row in each docstring).  A command that happens at a moment carries that moment
`t`, the module's own time in nanoseconds; a register write carries its initiator `i` (R495).
-/

namespace Sys2Proof

/-- The commands of the module: register accesses, protocol operations and events. -/
inductive Instr where
  /-- ENABLE (R14): A write of ENABLE to a function's CTRL register requests on or off and moves the function state machine. -/
  | enable (t : Nat) (i : Nat) (b : Nat) (v : Nat)
  /-- STARTUP_COMPLETE (R14): A function's start-up completes and it enters ON, or STOPPING when a stop is pending. -/
  | startupComplete (t : Nat) (b : Nat)
  /-- SHUTDOWN_COMPLETE (R14): A function's shut-down completes and it enters OFF, or STARTING from PENDING_ON. -/
  | shutdownComplete (t : Nat) (b : Nat)
  /-- FENCE (R15): A write of 1 to FENCE aborts the function's outstanding traffic with FENCED_ABORT, blocks new traffic and cancels any pending enable. -/
  | fence (t : Nat) (i : Nat) (b : Nat) (v : Nat)
  /-- FENCE_COMPLETE (R15): No traffic remains outstanding and STATE reads FENCED, at most 2 µs after the fence request. -/
  | fenceComplete (t : Nat) (b : Nat)
  /-- RESET (R16): A write of 1 to RESET starts a function reset when STATE reads FENCED, or sets RESET_REFUSED otherwise. -/
  | reset (t : Nat) (i : Nat) (b : Nat) (v : Nat)
  /-- FUNCTION_RESET_END (R94): A function reset ends within its stated duration, restores reset values and leaves the function OFF. -/
  | functionResetEnd (t : Nat) (b : Nat)
  /-- SNAP (R18): A write of 1 to SNAP latches the function's snapshot set on one clock edge and increments SNAP_SEQ. -/
  | snap (t : Nat) (i : Nat) (b : Nat) (v : Nat)
  /-- INTERNAL_FAULT (R14): An internal fault sends a function to FAULT and cancels any pending enable. -/
  | internalFault (t : Nat) (b : Nat)
  /-- REGISTER_WRITE (R591): A write to a register with no behaviour of its own updates its fields, ignoring reserved or out-of-range values field by field. -/
  | registerWrite (t : Nat) (i : Nat) (addr : Nat) (v : Nat)
  /-- RING_READ_INDEX (R592): A write to a ring's read index frees records, and is ignored if it would pass the write index. -/
  | ringReadIndex (t : Nat) (i : Nat) (addr : Nat) (v : Nat)
  /-- POWER_ON (R65): VIN12 rises above the brown-out release level with the always-on domain unpowered, causing a whole-module reset that clears the retention SRAM. -/
  | powerOn (t : Nat)
  /-- BROWN_OUT (R51): VIN12 falls below 10.8 V for longer than 10 µs and the module enters brown-out reset. -/
  | brownOut (t : Nat)
  /-- BROWN_OUT_RELEASE (R51): VIN12 rises above 11.2 V and brown-out reset is released. -/
  | brownOutRelease (t : Nat)
  /-- RST_N (R66): A low level on RST_N of 1 µs or longer causes a system-scope reset. -/
  | rstN (t : Nat)
  /-- RST_SWRESET (R72): A write with the valid key from a permitted initiator starts a software full reset within 1 µs. -/
  | rstSwreset (t : Nat) (i : Nat) (v : Nat)
  /-- CRITICAL_STATE_ERROR (R189): A parity or double-bit error in scheduler queues, page tables, firewall tables or the shard map causes a system reset with CRIT_ERR. -/
  | criticalStateError (t : Nat) (src : Nat)
  /-- THERMAL_TRIP (R63): The hottest junction reaches 115 °C and a system-scope reset with THERM begins. -/
  | thermalTrip (t : Nat)
  /-- THERMAL_TRIP_RELEASE (R68): The hottest junction reads 100 °C or less and the thermal trip reset may end. -/
  | thermalTripRelease (t : Nat)
  /-- SYSTEM_RESET_END (R67): A system-scope reset ends at least 100 µs after its source has ended, the straps are sampled where required and boot begins. -/
  | systemResetEnd (t : Nat) (straps : Nat)
  /-- BOOT_READY (R81): Regulators, oscillator and PLLs report ready, after which the option bytes are read and the boot source is chosen. -/
  | bootReady (t : Nat)
  /-- IMAGE_VERIFIED (R79): Verification of one image finishes and the image is loaded and released, or marked failed with a failure code. -/
  | imageVerified (t : Nat)
  /-- DRAM_INIT_DONE (R81): DRAM initialisation with its in-band code completes. -/
  | dramInitDone (t : Nat)
  /-- ID_MEMORY_READ_DONE (R87): The read of both identity memory copies completes and the copy in use is chosen. -/
  | idMemoryReadDone (t : Nat) (copy0 : List Nat) (copy1 : List Nat)
  /-- ID_READ_RETRY (R87): An unacknowledged identity memory read is retried after 10 ms, up to three times. -/
  | idReadRetry (t : Nat)
  /-- ID_RECORD_WRITE_DONE (R60): A full identity memory copy write completes. -/
  | idRecordWriteDone (t : Nat)
  /-- RST_HOST_BOOT (R83): A write of GO while STAGE is 0x6 makes the boot state machine check and run the image set the host placed in DRAM. -/
  | rstHostBoot (t : Nat) (i : Nat) (v : Nat)
  /-- NET_BOOT_FILE_RECEIVED (R85): The TFTP image set is received into DRAM and checked, and boot continues from it. -/
  | netBootFileReceived (t : Nat) (addr : Nat) (name : List Nat) (file : List Nat)
  /-- NET_BOOT_TIMEOUT (R85): A network boot failure or 10 s of silence restarts DHCP. -/
  | netBootTimeout (t : Nat) (failed : Bool)
  /-- PCIE_PERST (R84): A low level on PCIE_PERST_N resets the PCI Express endpoint only. -/
  | pciePerst (t : Nat)
  /-- TRIAL (R89): A keyed TRIAL write starts background verification of the other bank, or sets SWAP_REFUSED. -/
  | trial (t : Nat) (i : Nat) (v : Nat)
  /-- TRIAL_VERIFY_DONE (R89): Background verification of the other bank ends, giving TRIAL_PENDING or marking the bank bad. -/
  | trialVerifyDone (t : Nat)
  /-- CANCEL (R89): A keyed CANCEL write returns TRIAL_PENDING to STABLE, or sets SWAP_REFUSED. -/
  | cancel (t : Nat) (i : Nat) (v : Nat)
  /-- CONFIRM (R89): A keyed CONFIRM write makes the running trial bank active, or sets SWAP_REFUSED. -/
  | confirm (t : Nat) (i : Nat) (v : Nat)
  /-- SWAP_REFUSED_CLEAR (R92): A write of 1 to SWAP_REFUSED clears it with or without a valid key. -/
  | swapRefusedClear (t : Nat) (i : Nat) (v : Nat)
  /-- FLASH_PROGRAM (R91): A program or erase request to flash is refused for the active bank and cancels a pending trial for the other bank. -/
  | flashProgram (t : Nat) (i : Nat) (off : Nat) (data : List Nat)
  /-- CAMERA_DISCOVERY_RETRY (R95): The factory program repeats CoaXPress discovery on CAM0 every 1 s while no camera answers. -/
  | cameraDiscoveryRetry (t : Nat)
  /-- ENCODER_TYPE_TEST (R96): The factory program ends a 2 s listen and an SSI burst and decides the encoder type, or repeats the tests. -/
  | encoderTypeTest (t : Nat) (low : Bool) (highNs : Nat)
  /-- TEACH_IN (R99): Teach-in starts at first motion when not taught, when DI0 has been high for 3 s, or on the console command. -/
  | teachIn (t : Nat)
  /-- TEACH_IN_EDGE (R100): A PRB1 rising edge during teach-in is paired with the oldest unpaired code position to give one measurement. -/
  | teachInEdge (t : Nat)
  /-- CODE_VERDICT (R103): The factory program commits a REJECT or GOOD verdict for a graded code to a slot at C + D. -/
  | codeVerdict (t : Nat) (c : Int) (decodes : Bool) (grade : Nat)
  /-- UNMATCHED_PROBE_EDGE (R104): A PRB1 edge with no code within the matching window fires DO0 at once. -/
  | unmatchedProbeEdge (t : Nat)
  /-- STATUS (R106): The console command status reports camera, encoder, taught distance, valve delay and counters. -/
  | status (t : Nat)
  /-- VALVE (R106): The console command valve sets the valve delay in µs. -/
  | valve (t : Nat) (n : Nat)
  /-- TEACH (R106): The console command teach starts teach-in. -/
  | teach (t : Nat)
  /-- POCXP_OVERCURRENT (R44): A PoCXP feed carrying more than 0.6 A for 1 ms has its power removed. -/
  | pocxpOvercurrent (t : Nat) (p : Nat)
  /-- V24F_LOW (R52): V24F falls below 17.0 V and all field outputs switch off with UV set. -/
  | v24fLow (t : Nat)
  /-- V24F_HIGH (R52): V24F rises above 18.5 V, UV clears and software outputs take their LEVEL. -/
  | v24fHigh (t : Nat)
  /-- PMBUS_REFRESH (R53): The PMBus sideband values refresh every 10 ms and PMB_ALERT_N is asserted on plate or VIN12 limits. -/
  | pmbusRefresh (t : Nat) (vinMv : Nat) (iinMa : Nat) (plate : Int) (hot : Int) (pinMw : Nat)
  /-- CLEAR_FAULTS (R53): The PMBus command clears the status bits and releases PMB_ALERT_N once conditions have ended. -/
  | clearFaults (t : Nat)
  /-- CAPABILITY (R53): The PMBus command returns 0xB0. -/
  | capability (t : Nat)
  /-- STATUS_BYTE (R53): The PMBus command returns the standard status byte. -/
  | statusByte (t : Nat)
  /-- STATUS_WORD (R53): The PMBus command returns the standard status word. -/
  | statusWord (t : Nat)
  /-- READ_VIN (R53): The PMBus command returns the VIN12 voltage. -/
  | readVin (t : Nat)
  /-- READ_IIN (R53): The PMBus command returns the VIN12 current. -/
  | readIin (t : Nat)
  /-- READ_TEMPERATURE_1 (R53): The PMBus command returns the thermal plate temperature. -/
  | readTemperature1 (t : Nat)
  /-- READ_TEMPERATURE_2 (R53): The PMBus command returns the hottest junction temperature. -/
  | readTemperature2 (t : Nat)
  /-- READ_PIN (R53): The PMBus command returns the input power from VIN12. -/
  | readPin (t : Nat)
  /-- PMBUS_REVISION (R53): The PMBus command returns 0x33. -/
  | pmbusRevision (t : Nat)
  /-- MFR_ID (R53): The PMBus command returns SHASEN. -/
  | mfrId (t : Nat)
  /-- MFR_MODEL (R53): The PMBus command returns the part number. -/
  | mfrModel (t : Nat)
  /-- MFR_SERIAL (R53): The PMBus command returns the module serial number. -/
  | mfrSerial (t : Nat)
  /-- PMBUS_OTHER_WRITE (R54): Any PMBus write other than CLEAR_FAULTS sets the communication-fault bit and is ignored. -/
  | pmbusOtherWrite (t : Nat) (code : Nat) (data : List Nat)
  /-- CONNECTION_TEST (R111): A discovery connection test at CXP-1 runs on each lane of the port once every 1 s until a camera answers. -/
  | connectionTest (t : Nat) (p : Nat) (detect : Bool) (answered : Nat)
  /-- CONTROL_ACKNOWLEDGEMENT (R111): A camera control acknowledgement delivers bootstrap register data and discovery chooses lane count and rate. -/
  | controlAcknowledgement (t : Nat) (p : Nat) (ident : List Nat) (conns : Nat) (maxRate : Nat) (minNs : Nat) (fmt : Nat)
  /-- CONTROL_ACK_TIMEOUT (R111): No control acknowledgement within 200 ms restarts discovery at the connection test. -/
  | controlAckTimeout (t : Nat) (p : Nat)
  /-- LINK_TEST_DONE (R111): The connection test at the chosen rate ends, setting LINK_UP or lowering the rate. -/
  | linkTestDone (t : Nat) (p : Nat) (ok : Bool)
  /-- CAM_LINK_LOSS (R112): A chosen lane loses signal or lock for 10 µs, so the port clears LINK_UP, stops triggers and completes pending lines as late. -/
  | camLinkLoss (t : Nat) (p : Nat)
  /-- CAM_HEARTBEAT_TIMEOUT (R112): No heartbeat for 100 ms makes the port lose its link. -/
  | camHeartbeatTimeout (t : Nat) (p : Nat)
  /-- STREAM_DATA_PACKET (R109): A stream data packet carrying line-scan data arrives and is checked and placed in its line. -/
  | streamDataPacket (t : Nat) (p : Nat) (lane : Nat) (idx : Nat) (crcOk : Bool) (data : List Nat)
  /-- CAM_HEARTBEAT (R109): A heartbeat packet from the camera arrives. -/
  | camHeartbeat (t : Nat) (p : Nat)
  /-- EVENT_PACKET (R109): An event packet from the camera is placed in the event queue with its payload unchanged. -/
  | eventPacket (t : Nat) (p : Nat) (payload : List Nat)
  /-- OTHER_PACKET (R109): A packet of an unaccepted type is discarded and counted as corrupt. -/
  | otherPacket (t : Nat) (p : Nat)
  /-- POSITION_TRIGGER (R115): The interpolated position first passes a trigger position above the highest one fired and the port sends a trigger packet. -/
  | positionTrigger (t : Nat) (p : Nat)
  /-- TIME_TRIGGER (R464): The time base passes a time-trigger instant above the highest fired, and the owning function fires or skips it. -/
  | timeTrigger (t : Nat) (p : Nat)
  /-- DI_TRIGGER (R114): A filtered rising edge of the selected digital input triggers the port. -/
  | diTrigger (t : Nat) (p : Nat)
  /-- LINE_LATE (R124): LATE_US after the trigger instant the first pixel has not arrived and the line is concealed as late. -/
  | lineLate (t : Nat) (p : Nat)
  /-- LINE_END (R124): A line's data ends and the port judges it OK, short, long or corrupt and delivers its verdict. -/
  | lineEnd (t : Nat) (p : Nat)
  /-- STOP_WAIT_END (R128): After ENABLE 0 during a job the port's wait of LATE_US for triggered lines ends and it enters OFF. -/
  | stopWaitEnd (t : Nat) (p : Nat)
  /-- PCAM_LINE_END (R123): The parallel port sees LVAL low at a sampling edge and ends the line. -/
  | pcamLineEnd (t : Nat) (idx : Nat) (ago : Nat) (edges : List Nat)
  /-- CC0_PULSE_END (R123): The PCAM_CC0 trigger pulse ends after CC_PULSE × 10 ns. -/
  | cc0PulseEnd (t : Nat)
  /-- PCAM_SERDATA_WRITE (R132): A write of DATA queues a byte for the camera serial channel, or is discarded when TX_FULL. -/
  | pcamSerdataWrite (t : Nat) (i : Nat) (v : Nat)
  /-- PCAM_SERDATA_READ (R132): A read of DATA takes the oldest received serial byte. -/
  | pcamSerdataRead (t : Nat) (i : Nat)
  /-- SERIAL_BYTE_RECEIVED (R132): A byte arrives on PCAM_RXD and is buffered. -/
  | serialByteReceived (t : Nat) (b : Nat)
  /-- PATCH_JUDGED (R138): The colorimetry unit computes a patch's CIELAB and ΔE00 and judges it, combining patch verdicts into the colorimetry check. -/
  | patchJudged (t : Nat) (p : Nat) (part : Nat) (k : Nat)
  /-- CLM_TLOAD (R141): A write of GO starts loading a colour table from DRAM into the staging buffer, or is ignored while BUSY. -/
  | clmTload (t : Nat) (i : Nat) (v : Nat)
  /-- CLM_TLOAD_DONE (R141): A colour table load ends and copies into the shadow table or reports its failure status. -/
  | clmTloadDone (t : Nat)
  /-- INTAKE_FIRST_PIXEL (R144): A line's first pixel reaches the Tannery intake, taking buffer space or being discarded as QUEUE_FULL. -/
  | intakeFirstPixel (t : Nat) (p : Nat)
  /-- LINE_VERDICT (R143): The port's verdict for a buffered line arrives and the Tannery passes the line on or builds a concealed line. -/
  | lineVerdict (t : Nat) (p : Nat) (corr : Nat) (unc : Nat) (retry : Nat) (fail : Nat)
  /-- GROUP_COMMIT (R156): The Tannery commits a commit group to the prepared-batch ring as soon as its last output row is written. -/
  | groupCommit (t : Nat) (p : Nat) (part : Nat) (ri : Nat) (corr : Nat) (unc : List Nat) (retry : Nat) (fail : List Nat) (bad : List Nat)
  /-- TAN_RING_REL (R156): A write releases a ring entry, freeing it and its arena data once every older entry is released. -/
  | tanRingRel (t : Nat) (i : Nat) (v : Nat)
  /-- TAN_ART_DB (R159): A write of a descriptor address queues an artwork decode, or is discarded with DB_LOST when four are queued. -/
  | tanArtDb (t : Nat) (i : Nat) (v : Nat)
  /-- DECODE_DONE (R163): An artwork decode completes with its status, dimensions and damage list written to its descriptor. -/
  | decodeDone (t : Nat)
  /-- TAN_DICT_LOAD (R165): A write of GO starts loading a dictionary into a slot. -/
  | tanDictLoad (t : Nat) (i : Nat) (v : Nat)
  /-- DICT_LOAD_DONE (R165): A dictionary load ends, filling the slot or reporting INPUT_INVALID. -/
  | dictLoadDone (t : Nat)
  /-- TAN_TXTQ_WR (R168): The producer advances the text queue write offset, making records available. -/
  | tanTxtqWr (t : Nat) (i : Nat) (v : Nat)
  /-- TEXT_RECORD (R166): The tokenizer takes one text record and commits its tokens as a token batch, skips it, or follows a skip record. -/
  | textRecord (t : Nat)
  /-- DRAM_READ (R175): A DRAM line read is checked, corrected with write-back, or returned poisoned. -/
  | dramRead (t : Nat) (i : Nat) (a : Nat) (n : Nat) (kind : Nat) (bad : Nat)
  /-- DRAM_WRITE (R177): A DRAM write stores a whole line with fresh checks or performs a read-modify-write of a partial line. -/
  | dramWrite (t : Nat) (i : Nat) (a : Nat) (data : List Nat) (poisoned : Bool)
  /-- SCRUB_READ (R180): The patrol scrubber reads the next data line at its paced rate. -/
  | scrubRead (t : Nat) (bad : Nat)
  /-- DRAIN (R185): A write of DRAIN to a slice starts a drain or returns its buckets as the state allows. -/
  | drain (t : Nat) (i : Nat) (n : Nat) (v : Nat)
  /-- DRAIN_DONE (R185): A slice drain ends within 1 ms with DRAINED set. -/
  | drainDone (t : Nat) (n : Nat)
  /-- MEM4_LOG_RD (R197): A write of an index releases unread error-log records up to it, or is ignored. -/
  | mem4LogRd (t : Nat) (i : Nat) (v : Nat)
  /-- ARM (R203): A write of ARM arms error injection into the next write or tile of the named unit. -/
  | arm (t : Nat) (i : Nat) (v : Nat)
  /-- TILE_DISPATCH (R351): At a tile boundary a cluster takes the next tile of the ready command with the lowest key. -/
  | tileDispatch (t : Nat) (c : Nat) (ups : List (Nat × Nat × Nat)) (ecc : List Nat)
  /-- TILE_END (R237): A tile's stores reach memory, the residue check runs and the tile completes, reruns or substitutes. -/
  | tileEnd (t : Nat) (c : Nat)
  /-- TILE_HUNG (R238): A tile not completed 64 µs after start is handled as a residue mismatch. -/
  | tileHung (t : Nat) (c : Nat)
  /-- ADD (R223): Scalar add of two registers. -/
  | add (c : Nat) (pr : BitVec 4) (body : BitVec 48)
  /-- ADDI (R223): Scalar add of a register and an immediate. -/
  | addi (c : Nat) (pr : BitVec 4) (body : BitVec 48)
  /-- SUB (R223): Scalar subtract. -/
  | sub (c : Nat) (pr : BitVec 4) (body : BitVec 48)
  /-- MUL (R223): Low 64 bits of a scalar product. -/
  | mul (c : Nat) (pr : BitVec 4) (body : BitVec 48)
  /-- MULH (R223): High 64 bits of the signed product. -/
  | mulh (c : Nat) (pr : BitVec 4) (body : BitVec 48)
  /-- MULHU (R223): High 64 bits of the unsigned product. -/
  | mulhu (c : Nat) (pr : BitVec 4) (body : BitVec 48)
  /-- DIV (R224): Signed division rounded toward zero, without trapping. -/
  | div (c : Nat) (pr : BitVec 4) (body : BitVec 48)
  /-- DIVU (R224): Unsigned division without trapping. -/
  | divu (c : Nat) (pr : BitVec 4) (body : BitVec 48)
  /-- REM (R224): Signed remainder without trapping. -/
  | rem (c : Nat) (pr : BitVec 4) (body : BitVec 48)
  /-- REMU (R224): Unsigned remainder without trapping. -/
  | remu (c : Nat) (pr : BitVec 4) (body : BitVec 48)
  /-- AND (R223): Bitwise and of registers. -/
  | and (c : Nat) (pr : BitVec 4) (body : BitVec 48)
  /-- ANDI (R223): Bitwise and with an immediate. -/
  | andi (c : Nat) (pr : BitVec 4) (body : BitVec 48)
  /-- OR (R223): Bitwise or of registers. -/
  | or (c : Nat) (pr : BitVec 4) (body : BitVec 48)
  /-- ORI (R223): Bitwise or with an immediate. -/
  | ori (c : Nat) (pr : BitVec 4) (body : BitVec 48)
  /-- XOR (R223): Bitwise exclusive or of registers. -/
  | xor (c : Nat) (pr : BitVec 4) (body : BitVec 48)
  /-- XORI (R223): Bitwise exclusive or with an immediate. -/
  | xori (c : Nat) (pr : BitVec 4) (body : BitVec 48)
  /-- SLL (R223): Shift left by a register amount. -/
  | sll (c : Nat) (pr : BitVec 4) (body : BitVec 48)
  /-- SLLI (R223): Shift left by an immediate amount. -/
  | slli (c : Nat) (pr : BitVec 4) (body : BitVec 48)
  /-- SRL (R223): Logical shift right by a register amount. -/
  | srl (c : Nat) (pr : BitVec 4) (body : BitVec 48)
  /-- SRLI (R223): Logical shift right by an immediate amount. -/
  | srli (c : Nat) (pr : BitVec 4) (body : BitVec 48)
  /-- SRA (R223): Arithmetic shift right by a register amount. -/
  | sra (c : Nat) (pr : BitVec 4) (body : BitVec 48)
  /-- SRAI (R223): Arithmetic shift right by an immediate amount. -/
  | srai (c : Nat) (pr : BitVec 4) (body : BitVec 48)
  /-- MIN (R223): Signed minimum of registers. -/
  | min (c : Nat) (pr : BitVec 4) (body : BitVec 48)
  /-- MINI (R223): Signed minimum with an immediate. -/
  | mini (c : Nat) (pr : BitVec 4) (body : BitVec 48)
  /-- MAX (R223): Signed maximum of registers. -/
  | max (c : Nat) (pr : BitVec 4) (body : BitVec 48)
  /-- MAXI (R223): Signed maximum with an immediate. -/
  | maxi (c : Nat) (pr : BitVec 4) (body : BitVec 48)
  /-- MINU (R223): Unsigned minimum. -/
  | minu (c : Nat) (pr : BitVec 4) (body : BitVec 48)
  /-- MAXU (R223): Unsigned maximum. -/
  | maxu (c : Nat) (pr : BitVec 4) (body : BitVec 48)
  /-- SEL (R223): Selects one of two registers by a predicate. -/
  | sel (c : Nat) (pr : BitVec 4) (body : BitVec 48)
  /-- CLZ (R223): Counts leading zero bits. -/
  | clz (c : Nat) (pr : BitVec 4) (body : BitVec 48)
  /-- POPC (R223): Counts one bits. -/
  | popc (c : Nat) (pr : BitVec 4) (body : BitVec 48)
  /-- LI (R223): Loads a sign-extended immediate. -/
  | li (c : Nat) (pr : BitVec 4) (body : BitVec 48)
  /-- LIH (R223): Loads the high 32 bits of a register from an immediate. -/
  | lih (c : Nat) (pr : BitVec 4) (body : BitVec 48)
  /-- CMP_EQ (R225): Sets a predicate to register equality. -/
  | cmpEq (c : Nat) (pr : BitVec 4) (body : BitVec 48)
  /-- CMP_NE (R225): Sets a predicate to register inequality. -/
  | cmpNe (c : Nat) (pr : BitVec 4) (body : BitVec 48)
  /-- CMP_LT (R225): Sets a predicate to signed less-than. -/
  | cmpLt (c : Nat) (pr : BitVec 4) (body : BitVec 48)
  /-- CMP_LTU (R225): Sets a predicate to unsigned less-than. -/
  | cmpLtu (c : Nat) (pr : BitVec 4) (body : BitVec 48)
  /-- CMP_GE (R225): Sets a predicate to signed greater-or-equal. -/
  | cmpGe (c : Nat) (pr : BitVec 4) (body : BitVec 48)
  /-- CMP_GEU (R225): Sets a predicate to unsigned greater-or-equal. -/
  | cmpGeu (c : Nat) (pr : BitVec 4) (body : BitVec 48)
  /-- CMPI_EQ (R225): Sets a predicate to equality with an immediate. -/
  | cmpiEq (c : Nat) (pr : BitVec 4) (body : BitVec 48)
  /-- CMPI_NE (R225): Sets a predicate to inequality with an immediate. -/
  | cmpiNe (c : Nat) (pr : BitVec 4) (body : BitVec 48)
  /-- CMPI_LT (R225): Sets a predicate to signed less-than an immediate. -/
  | cmpiLt (c : Nat) (pr : BitVec 4) (body : BitVec 48)
  /-- CMPI_LTU (R225): Sets a predicate to unsigned less-than an immediate. -/
  | cmpiLtu (c : Nat) (pr : BitVec 4) (body : BitVec 48)
  /-- CMPI_GE (R225): Sets a predicate to signed greater-or-equal an immediate. -/
  | cmpiGe (c : Nat) (pr : BitVec 4) (body : BitVec 48)
  /-- CMPI_GEU (R225): Sets a predicate to unsigned greater-or-equal an immediate. -/
  | cmpiGeu (c : Nat) (pr : BitVec 4) (body : BitVec 48)
  /-- PAND (R225): Predicate and. -/
  | pand (c : Nat) (pr : BitVec 4) (body : BitVec 48)
  /-- POR (R225): Predicate or. -/
  | por (c : Nat) (pr : BitVec 4) (body : BitVec 48)
  /-- PXOR (R225): Predicate exclusive or. -/
  | pxor (c : Nat) (pr : BitVec 4) (body : BitVec 48)
  /-- PANDN (R225): Predicate and-not. -/
  | pandn (c : Nat) (pr : BitVec 4) (body : BitVec 48)
  /-- AMOV (R226): Moves a scalar into an address register. -/
  | amov (c : Nat) (pr : BitVec 4) (body : BitVec 48)
  /-- AADD (R226): Adds a scalar to an address register keeping the space bit. -/
  | aadd (c : Nat) (pr : BitVec 4) (body : BitVec 48)
  /-- AADDI (R226): Adds an immediate to an address register keeping the space bit. -/
  | aaddi (c : Nat) (pr : BitVec 4) (body : BitVec 48)
  /-- AMOVS (R226): Moves an address register into a scalar. -/
  | amovs (c : Nat) (pr : BitVec 4) (body : BitVec 48)
  /-- ALOCAL (R226): Sets an address register to a local address. -/
  | alocal (c : Nat) (pr : BitVec 4) (body : BitVec 48)
  /-- BR (R227): Branches by a relative offset. -/
  | br (c : Nat) (pr : BitVec 4) (body : BitVec 48)
  /-- JR (R227): Jumps to an absolute instruction index. -/
  | jr (c : Nat) (pr : BitVec 4) (body : BitVec 48)
  /-- CALL (R227): Pushes the return index and branches. -/
  | call (c : Nat) (pr : BitVec 4) (body : BitVec 48)
  /-- RET (R227): Pops the return stack into pc. -/
  | ret (c : Nat) (pr : BitVec 4) (body : BitVec 48)
  /-- LOOP (R228): Sets up a hardware loop or skips its body for a zero count. -/
  | loop (c : Nat) (pr : BitVec 4) (body : BitVec 48)
  /-- LD_B (R230): Loads a sign-extended byte. -/
  | ldB (c : Nat) (pr : BitVec 4) (body : BitVec 48)
  /-- LD_BU (R230): Loads a zero-extended byte. -/
  | ldBu (c : Nat) (pr : BitVec 4) (body : BitVec 48)
  /-- LD_H (R230): Loads a sign-extended halfword. -/
  | ldH (c : Nat) (pr : BitVec 4) (body : BitVec 48)
  /-- LD_HU (R230): Loads a zero-extended halfword. -/
  | ldHu (c : Nat) (pr : BitVec 4) (body : BitVec 48)
  /-- LD_W (R230): Loads a sign-extended word. -/
  | ldW (c : Nat) (pr : BitVec 4) (body : BitVec 48)
  /-- LD_WU (R230): Loads a zero-extended word. -/
  | ldWu (c : Nat) (pr : BitVec 4) (body : BitVec 48)
  /-- LD_D (R230): Loads a doubleword. -/
  | ldD (c : Nat) (pr : BitVec 4) (body : BitVec 48)
  /-- ST_B (R230): Stores a byte. -/
  | stB (c : Nat) (pr : BitVec 4) (body : BitVec 48)
  /-- ST_H (R230): Stores a halfword. -/
  | stH (c : Nat) (pr : BitVec 4) (body : BitVec 48)
  /-- ST_W (R230): Stores a word. -/
  | stW (c : Nat) (pr : BitVec 4) (body : BitVec 48)
  /-- ST_D (R230): Stores a doubleword. -/
  | stD (c : Nat) (pr : BitVec 4) (body : BitVec 48)
  /-- VLD (R230): Loads 256 local bytes into a vector register. -/
  | vld (c : Nat) (pr : BitVec 4) (body : BitVec 48)
  /-- VST (R230): Stores a vector register to 256 local bytes. -/
  | vst (c : Nat) (pr : BitVec 4) (body : BitVec 48)
  /-- XLD (R232): Bulk transfer from a global segment to local memory. -/
  | xld (c : Nat) (pr : BitVec 4) (body : BitVec 48)
  /-- XST (R232): Bulk transfer from local memory to a global write segment. -/
  | xst (c : Nat) (pr : BitVec 4) (body : BitVec 48)
  /-- XCP (R232): Bulk copy within local memory. -/
  | xcp (c : Nat) (pr : BitVec 4) (body : BitVec 48)
  /-- NOP (R234): Does nothing. -/
  | nop (c : Nat) (pr : BitVec 4) (body : BitVec 48)
  /-- END (R234): Ends the tile once every unit is idle. -/
  | endTile (c : Nat) (pr : BitVec 4) (body : BitVec 48)
  /-- TRAP (R234): Raises PROGRAM_TRAP with a cause code. -/
  | trap (c : Nat) (pr : BitVec 4) (body : BitVec 48)
  /-- WAIT (R234): Stops issue until every unit is idle. -/
  | wait (c : Nat) (pr : BitVec 4) (body : BitVec 48)
  /-- XPF (R233): Declares a weight stream to the prefetchers. -/
  | xpf (c : Nat) (pr : BitVec 4) (body : BitVec 48)
  /-- VADD (R263): Lane-wise add. -/
  | vadd (c : Nat) (pr : BitVec 4) (body : BitVec 48)
  /-- VSUB (R263): Lane-wise subtract. -/
  | vsub (c : Nat) (pr : BitVec 4) (body : BitVec 48)
  /-- VMUL (R263): Lane-wise multiply. -/
  | vmul (c : Nat) (pr : BitVec 4) (body : BitVec 48)
  /-- VFMA (R263): Lane-wise fused multiply-add. -/
  | vfma (c : Nat) (pr : BitVec 4) (body : BitVec 48)
  /-- VMIN (R263): Lane-wise minimum. -/
  | vmin (c : Nat) (pr : BitVec 4) (body : BitVec 48)
  /-- VMAX (R263): Lane-wise maximum. -/
  | vmax (c : Nat) (pr : BitVec 4) (body : BitVec 48)
  /-- VABS (R263): Lane-wise magnitude. -/
  | vabs (c : Nat) (pr : BitVec 4) (body : BitVec 48)
  /-- VNEG (R263): Lane-wise negation. -/
  | vneg (c : Nat) (pr : BitVec 4) (body : BitVec 48)
  /-- VAND (R263): Lane-wise bitwise and. -/
  | vand (c : Nat) (pr : BitVec 4) (body : BitVec 48)
  /-- VOR (R263): Lane-wise bitwise or. -/
  | vor (c : Nat) (pr : BitVec 4) (body : BitVec 48)
  /-- VXOR (R263): Lane-wise exclusive or. -/
  | vxor (c : Nat) (pr : BitVec 4) (body : BitVec 48)
  /-- VSHL (R263): Lane-wise shift left. -/
  | vshl (c : Nat) (pr : BitVec 4) (body : BitVec 48)
  /-- VSHR (R263): Lane-wise logical shift right. -/
  | vshr (c : Nat) (pr : BitVec 4) (body : BitVec 48)
  /-- VSRA (R263): Lane-wise arithmetic shift right. -/
  | vsra (c : Nat) (pr : BitVec 4) (body : BitVec 48)
  /-- VCMP_EQ (R263): Lane-wise equality mask. -/
  | vcmpEq (c : Nat) (pr : BitVec 4) (body : BitVec 48)
  /-- VCMP_LT (R263): Lane-wise less-than mask. -/
  | vcmpLt (c : Nat) (pr : BitVec 4) (body : BitVec 48)
  /-- VCMP_LE (R263): Lane-wise less-or-equal mask. -/
  | vcmpLe (c : Nat) (pr : BitVec 4) (body : BitVec 48)
  /-- VCMP_NE (R263): Lane-wise inequality mask. -/
  | vcmpNe (c : Nat) (pr : BitVec 4) (body : BitVec 48)
  /-- VSEL (R263): Lane-wise select by a mask vector. -/
  | vsel (c : Nat) (pr : BitVec 4) (body : BitVec 48)
  /-- VCVT (R265): Converts between INT32 and FP32 lanes. -/
  | vcvt (c : Nat) (pr : BitVec 4) (body : BitVec 48)
  /-- VWID (R265): Widens a part of narrow elements to 64 lanes. -/
  | vwid (c : Nat) (pr : BitVec 4) (body : BitVec 48)
  /-- VNAR (R265): Narrows 64 lanes into a part of a vector. -/
  | vnar (c : Nat) (pr : BitVec 4) (body : BitVec 48)
  /-- VQSX (R259): Quantizes FP32 lanes into SX blocks with exponents. -/
  | vqsx (c : Nat) (pr : BitVec 4) (body : BitVec 48)
  /-- VBCAST (R265): Broadcasts a scalar to every lane. -/
  | vbcast (c : Nat) (pr : BitVec 4) (body : BitVec 48)
  /-- VMOVI (R265): Broadcasts an immediate to every lane. -/
  | vmovi (c : Nat) (pr : BitVec 4) (body : BitVec 48)
  /-- VPERM (R265): Permutes 32-bit lanes by an index vector. -/
  | vperm (c : Nat) (pr : BitVec 4) (body : BitVec 48)
  /-- VGETF (R260): Writes the sticky flags to a scalar after earlier vector and matrix work completes. -/
  | vgetf (c : Nat) (pr : BitVec 4) (body : BitVec 48)
  /-- VCLRF (R260): Clears the sticky flags after earlier vector and matrix work completes. -/
  | vclrf (c : Nat) (pr : BitVec 4) (body : BitVec 48)
  /-- VREDSUM (R267): Sums 64 lanes in a fixed pairwise tree. -/
  | vredsum (c : Nat) (pr : BitVec 4) (body : BitVec 48)
  /-- VREDMAX (R267): Maximum of 64 lanes in a fixed tree. -/
  | vredmax (c : Nat) (pr : BitVec 4) (body : BitVec 48)
  /-- VREDMIN (R267): Minimum of 64 lanes in a fixed tree. -/
  | vredmin (c : Nat) (pr : BitVec 4) (body : BitVec 48)
  /-- VEXP2 (R266): Lane-wise power of two. -/
  | vexp2 (c : Nat) (pr : BitVec 4) (body : BitVec 48)
  /-- VLOG2 (R266): Lane-wise base-2 logarithm. -/
  | vlog2 (c : Nat) (pr : BitVec 4) (body : BitVec 48)
  /-- VRCP (R266): Lane-wise reciprocal. -/
  | vrcp (c : Nat) (pr : BitVec 4) (body : BitVec 48)
  /-- VRSQRT (R266): Lane-wise reciprocal square root. -/
  | vrsqrt (c : Nat) (pr : BitVec 4) (body : BitVec 48)
  /-- VSQRT (R266): Lane-wise square root. -/
  | vsqrt (c : Nat) (pr : BitVec 4) (body : BitVec 48)
  /-- VDIV (R266): Lane-wise division. -/
  | vdiv (c : Nat) (pr : BitVec 4) (body : BitVec 48)
  /-- VTANH (R266): Lane-wise hyperbolic tangent. -/
  | vtanh (c : Nat) (pr : BitVec 4) (body : BitVec 48)
  /-- VSIGM (R266): Lane-wise logistic sigmoid. -/
  | vsigm (c : Nat) (pr : BitVec 4) (body : BitVec 48)
  /-- VERF (R266): Lane-wise error function. -/
  | verf (c : Nat) (pr : BitVec 4) (body : BitVec 48)
  /-- GF_ADD (R270): Byte-wise GF(2^8) addition. -/
  | gfAdd (c : Nat) (pr : BitVec 4) (body : BitVec 48)
  /-- GF_MUL (R270): Byte-wise GF(2^8) multiplication. -/
  | gfMul (c : Nat) (pr : BitVec 4) (body : BitVec 48)
  /-- GF_MAC (R270): Byte-wise GF(2^8) multiply-accumulate. -/
  | gfMac (c : Nat) (pr : BitVec 4) (body : BitVec 48)
  /-- GF_HORNER (R270): Byte-wise GF(2^8) Horner step. -/
  | gfHorner (c : Nat) (pr : BitVec 4) (body : BitVec 48)
  /-- GF_INV (R270): Byte-wise GF(2^8) inverse. -/
  | gfInv (c : Nat) (pr : BitVec 4) (body : BitVec 48)
  /-- GF_EXP (R270): Byte-wise GF(2^8) exponential of alpha. -/
  | gfExp (c : Nat) (pr : BitVec 4) (body : BitVec 48)
  /-- GF_LOG (R270): Byte-wise GF(2^8) logarithm. -/
  | gfLog (c : Nat) (pr : BitVec 4) (body : BitVec 48)
  /-- GF_MULC (R270): Byte-wise GF(2^8) multiplication by a constant. -/
  | gfMulc (c : Nat) (pr : BitVec 4) (body : BitVec 48)
  /-- MMA (R273): Multiplies two 64×64 panels and replaces or adds into an accumulator. -/
  | mma (c : Nat) (pr : BitVec 4) (body : BitVec 48)
  /-- ACCZERO (R278): Zeroes an accumulator. -/
  | acczero (c : Nat) (pr : BitVec 4) (body : BitVec 48)
  /-- ACCST (R278): Stores an accumulator to 16 KiB of scratchpad. -/
  | accst (c : Nat) (pr : BitVec 4) (body : BitVec 48)
  /-- ACCLD (R278): Loads an accumulator from 16 KiB of scratchpad. -/
  | accld (c : Nat) (pr : BitVec 4) (body : BitVec 48)
  /-- ACC2V (R278): Copies an accumulator row to a vector. -/
  | acc2v (c : Nat) (pr : BitVec 4) (body : BitVec 48)
  /-- V2ACC (R278): Copies a vector to an accumulator row. -/
  | v2acc (c : Nat) (pr : BitVec 4) (body : BitVec 48)
  /-- CONVOLUTION (R289): The fused convolution command runs its tiles from a parameter block through the output path. -/
  | convolution (t : Nat) (x : Nat)
  /-- POOLING (R298): The fused pooling command computes windowed maxima or averages. -/
  | pooling (t : Nat) (x : Nat)
  /-- UP_SAMPLING (R300): The fused up-sampling command resizes a tensor by nearest or bilinear mapping. -/
  | upSampling (t : Nat) (x : Nat)
  /-- PARTIAL_REDUCTION (R296): The fused partial reduction command combines planes in a pairwise tree and finishes them. -/
  | partialReduction (t : Nat) (x : Nat)
  /-- STRIPE_GROUP (R306): The stripe group command runs a chain of fused layers over a region stripe by stripe. -/
  | stripeGroup (t : Nat) (x : Nat)
  /-- STRIPE_START (R303): A stripe starts once its region rows are committed and pool space of stripe k − D is released. -/
  | stripeStart (t : Nat) (x : Nat) (k : Nat)
  /-- PROJECTION (R316): The projection command computes queries, keys and values and appends keys and values to their pages. -/
  | projection (t : Nat) (x : Nat)
  /-- ATTENTION (R322): The fused attention command computes causal attention over committed key-value positions in a fixed order. -/
  | attention (t : Nat) (x : Nat)
  /-- OPEN (R326): The OPEN operation makes a free sequence open and empty. -/
  | seqOpen (t : Nat) (x : Nat)
  /-- FORK (R326): The FORK operation opens a sequence sharing the source's pages and raises their reference counts. -/
  | fork (t : Nat) (x : Nat)
  /-- CLOSE (R326): The CLOSE operation releases a sequence's pages and swap slots and frees it. -/
  | close (t : Nat) (x : Nat)
  /-- PAGE_COPY_DONE (R327): A page copy finishes and the new page, list entry and reference counts are updated atomically. -/
  | pageCopyDone (t : Nat) (q : Nat) (e : Nat)
  /-- SWAP_OUT_DONE (R332): A victim's pages have been written to swap slots, returned to the pool, and the held command may resume. -/
  | swapOutDone (t : Nat) (v : Nat)
  /-- SWAP_IN_DONE (R334): A swapped sequence's pages have been read back and CRC-checked, reopening or ending it. -/
  | swapInDone (t : Nat) (q : Nat) (ok : Bool) (data : List Nat)
  /-- EXCHANGE (R391): The exchange command sends segments to destination modules over Traif Link. -/
  | exchange (t : Nat) (x : Nat)
  /-- BARRIER (R389): The Cinch barrier command sends ARRIVE to module 0, or completes at once on a non-member. -/
  | barrier (t : Nat) (x : Nat)
  /-- SCH_Q_DB (R340): A doorbell write makes descriptors valid up to the producer index, or sets DB_OVER. -/
  | schQDb (t : Nat) (i : Nat) (q : Nat) (v : Nat)
  /-- COMMAND_FETCH (R343): The scheduler fetches a descriptor into a free in-flight slot and checks it. -/
  | commandFetch (t : Nat) (q : Nat)
  /-- COMMAND_COMPLETE (R347): A command completes, writes its completion record, reports its check and retires in order. -/
  | commandComplete (t : Nat) (x : Nat)
  /-- QEN (R345): A write of QEN starts, stops or re-enables a command queue. -/
  | qen (t : Nat) (i : Nat) (q : Nat) (v : Nat)
  /-- KEY_RECOMPUTE (R348): At least every 10 µs the scheduler recomputes the time key of every command in flight. -/
  | keyRecompute (t : Nat)
  /-- COMMAND_DEADLINE_PASSED (R350): A command's deadline passes, it starts no further tile and completes with DEADLINE_MISSED. -/
  | commandDeadlinePassed (t : Nat) (x : Nat)
  /-- CHECK_REPORT (R354): A check result reaches a part's merge entry, and the merge commits once every declared check has reported. -/
  | checkReport (t : Nat) (p : Nat) (part : Nat) (c : Nat) (verdict : Nat) (status : Nat)
  /-- VERDICT_DEADLINE (R22): The port reaches a slot's verdict deadline, missing checks count DOUBT and the merged verdict commits at once. -/
  | verdictDeadline (t : Nat) (p : Nat) (k : Nat)
  /-- LOAD (R357): A LOAD operation starts checking and hashing a context slot's model image, or is latched or refused. -/
  | ctxLoad (t : Nat) (i : Nat) (k : Nat)
  /-- UNLOAD (R357): An UNLOAD operation empties or starts unloading a context slot, or is refused. -/
  | unload (t : Nat) (i : Nat) (k : Nat)
  /-- CONTEXT_LOAD_DONE (R357): Checking and hashing of a context image ends, giving READY or EMPTY with a failure status. -/
  | contextLoadDone (t : Nat) (k : Nat)
  /-- SCH_SRQ_WR (R361): The producer advances a segment request queue write offset, making requests available to the batch former. -/
  | schSrqWr (t : Nat) (i : Nat) (k : Nat) (v : Nat)
  /-- BATCH_WAIT_EXPIRY (R362): The oldest request of an open batch has waited BATCH_WAIT µs and the batch is closed and submitted. -/
  | batchWaitExpiry (t : Nat) (k : Nat)
  /-- BATCH_SLACK_EXPIRY (R362): A batch's lowest key comes within BATCH_SLACK µs and the batch is closed and submitted. -/
  | batchSlackExpiry (t : Nat) (k : Nat)
  /-- WRITE (R392): A received exchange WRITE frame is stored within a valid receive window or refused with BUS_ERROR. -/
  | write (t : Nat) (a : Nat) (src : Nat) (addr : Nat) (tag : Nat) (poison : Bool) (data : List Nat)
  /-- WRITE_ACK (R392): A WRITE_ACK completes frames of an exchange segment with its status. -/
  | writeAck (t : Nat) (a : Nat) (src : Nat) (tag : Nat) (st : Nat)
  /-- ARRIVE (R389): Module 0 records a barrier arrival and decides the release when all in-service members have arrived. -/
  | arrive (t : Nat) (a : Nat) (src : Nat) (num : Nat) (gen : Nat) (mask : Nat)
  /-- RELEASE (R389): A member receives RELEASE and schedules barrier completion at the release time, or completes at once if late. -/
  | release (t : Nat) (a : Nat) (num : Nat) (gen : Nat) (time : Nat) (bad : Bool)
  /-- BARRIER_RELEASE_TIME (R389): The time base reaches the release time and the barrier command completes, making dependents ready. -/
  | barrierReleaseTime (t : Nat) (num : Nat)
  /-- ANNOUNCE (R393): A module receives an epoch announcement, declares weight streams and starts its vote. -/
  | announce (t : Nat) (a : Nat) (num : Nat) (port : Nat) (pos : Int) (cfg : Nat) (contract : List Nat)
  /-- VOTE (R394): Module 0 receives a vote and broadcasts COMMIT or ABORT once the vote is decided. -/
  | vote (t : Nat) (a : Nat) (src : Nat) (num : Nat) (cause : Nat) (out : Bool) (act : Nat)
  /-- VOTE_TIMEOUT (R394): Votes still missing 1 ms after the announcement count as refusals and module 0 aborts. -/
  | voteTimeout (t : Nat)
  /-- COMMIT (R395): A module receives COMMIT for an announced epoch. -/
  | commit (t : Nat) (a : Nat) (num : Nat) (out : Nat) (acts : List Nat)
  /-- ABORT (R394): A module receives ABORT and drops the announced epoch. -/
  | abort (t : Nat) (a : Nat) (num : Nat) (cause : Nat) (refuser : Nat)
  /-- EPOCH_APPLY (R597): The system position reaches the epoch position and a committed module applies the epoch before any other action there. -/
  | epochApply (t : Nat)
  /-- JOB_ENDED (R396): The last part started before a JOB_END epoch has its slot fired or discarded and JOB_RUN clears. -/
  | jobEnded (t : Nat)
  /-- LNK_EPOCH_GO (R393): Module 0 announces an epoch by broadcasting ANNOUNCE, or refuses with a cause. -/
  | lnkEpochGo (t : Nat) (i : Nat) (v : Nat)
  /-- UPGRADE_REPORT (R402): Module 0 collects upgrade reports and broadcasts success, or announces a REVERT epoch on failure. -/
  | upgradeReport (t : Nat) (a : Nat) (src : Nat) (ok : Bool)
  /-- UPGRADE_TIMEOUT (R402): Ten seconds pass after a live switch without a successful part and the upgrade counts as failed. -/
  | upgradeTimeout (t : Nat)
  /-- POSITION (R386): A POSITION frame updates a wired port's offset alignment or a follower port's position. -/
  | position (t : Nat) (a : Nat) (p : Nat) (cnt : Int) (spd : Int) (sample : Nat)
  /-- POSITION_SEND (R386): Module 0 sends a POSITION frame every 10 µs for each Stirrup port in ON. -/
  | positionSend (t : Nat)
  /-- TIME (R385): A TIME frame sets the receiving module's time base corrected by the hop delays. -/
  | timeFrame (t : Nat) (a : Nat) (value : Nat) (trips : List Nat)
  /-- TIME_SEND (R385): Module 0 sends a TIME frame every 1 ms. -/
  | timeSend (t : Nat)
  /-- MEMBERS (R384): A MEMBERS frame updates the joined and in-service sets. -/
  | members (t : Nat) (a : Nat) (joined : Nat) (serving : Nat)
  /-- SNAP_FRAME (R399): A SNAP frame sets the system snapshot position for in-service modules. -/
  | snapFrame (t : Nat) (a : Nat) (p : Nat) (pos : Int)
  /-- SYSTEM_SNAPSHOT (R399): The system position reaches the snapshot position and every function's snapshot set latches. -/
  | systemSnapshot (t : Nat)
  /-- LNK_SSNAP_GO (R399): Module 0 broadcasts SNAP with the written snapshot position. -/
  | lnkSsnapGo (t : Nat) (i : Nat) (v : Nat)
  /-- HELLO (R381): A HELLO from the neighbour is checked and the port joins or enters REJECTED with its cause. -/
  | hello (t : Nat) (a : Nat) (major : Nat) (minor : Nat) (sysid : Nat) (pos : Nat) (topo : Nat) (modules : Nat) (clk : Nat)
  /-- HELLO_RETRY (R381): A rejected port sends HELLO again every 100 ms. -/
  | helloRetry (t : Nat) (a : Nat)
  /-- HEARTBEAT (R380): Module 0 receives a module's heartbeat. -/
  | heartbeat (t : Nat) (a : Nat) (src : Nat)
  /-- HEARTBEAT_SEND (R380): Every module sends a HEARTBEAT to module 0 every 10 µs and each port sends a frame at least every 10 µs. -/
  | heartbeatSend (t : Nat)
  /-- RESET_REQ (R69): A reset request frame resets the module when LNK_REQ_EN is 1, or is discarded. -/
  | resetReq (t : Nat) (a : Nat) (src : Nat)
  /-- SUBVERDICT (R404): The owner takes a sub-verdict as a check report under R354 and R355. -/
  | subverdict (t : Nat) (a : Nat) (src : Nat) (part : Nat) (p : Nat) (c : Nat) (verdict : Nat) (degraded : Bool)
  /-- LACK (R378): A cumulative hop acknowledgement frees frames from the replay buffer. -/
  | lack (t : Nat) (a : Nat) (n : Nat)
  /-- LNAK (R378): A negative acknowledgement makes the sender replay from the named frame, or takes the port down at a ninth replay. -/
  | lnak (t : Nat) (a : Nat) (n : Nat)
  /-- FRAME_FORWARD (R379): A frame not addressed to the module is forwarded on its other port with a new hop sequence number. -/
  | frameForward (t : Nat) (a : Nat) (type : Nat) (src : Nat) (dest : Nat) (arg : Nat) (tag : Nat) (poison : Bool) (crcOk : Bool) (data : List Int)
  /-- LINK_PORT_TIMEOUT (R380): A Traif port receives no valid frame for 30 µs and goes down. -/
  | linkPortTimeout (t : Nat) (a : Nat)
  /-- MODULE_LOST (R409): Module 0 receives nothing from a module for 50 µs, removes it from both sets and absorbs its shards. -/
  | moduleLost (t : Nat) (m : Nat)
  /-- MODULE_0_LOST (R409): A module receives nothing from module 0 for 50 µs and leaves service. -/
  | module0Lost (t : Nat)
  /-- RECOVERED_CLOCK_LOCK (R383): Port 0 locks and the module's cluster, SerDes and time-base clocks switch to the recovered clock. -/
  | recoveredClockLock (t : Nat)
  /-- RECOVERED_CLOCK_LOSS (R541): The recovered-clock lane loses lock and the module moves to another lane or holds frequency and leaves service. -/
  | recoveredClockLoss (t : Nat)
  /-- LNK_ASSIGN (R412): A keyed write stores a Traif Link position and topology in the identity memory. -/
  | lnkAssign (t : Nat) (i : Nat) (v : Nat)
  /-- LNK_RESETREQ (R412): A keyed write sends a reset request frame to a target module. -/
  | lnkResetreq (t : Nat) (i : Nat) (v : Nat)
  /-- SELFTEST (R407): A write of 1 starts the known-answer self-test of a spare cluster that is ON. -/
  | selftest (t : Nat) (i : Nat) (c : Nat) (v : Nat)
  /-- SELFTEST_DONE (R407): The self-test ends, setting SCH_SUBST_OK on a pass or sending the cluster to FAULT. -/
  | selftestDone (t : Nat) (c : Nat) (pass : Bool)
  /-- ENCODER_EDGE (R415): A filtered quadrature transition changes the count, updates speed and direction, or is an illegal transition. -/
  | encoderEdge (t : Nat) (p : Nat) (a : Bool) (b : Bool) (held : Nat)
  /-- UNCERTAIN_EXPIRY (R416): 1 ms after the last illegal event UNCERTAIN clears. -/
  | uncertainExpiry (t : Nat) (p : Nat)
  /-- FAULT_NOW_EXPIRY (R417): 1 ms without illegal event or wire break clears FAULT_NOW and ends the fault episode. -/
  | faultNowExpiry (t : Nat) (p : Nat)
  /-- WIRE_BREAK (R418): A pair in use stays below 200 mV for more than 2 µs, sets its WIRE bit and forms an encoder fault. -/
  | wireBreak (t : Nat) (p : Nat) (pair : Nat)
  /-- INDEX_EDGE (R419): A rising Z edge latches the position and, when armed, zeroes the count. -/
  | indexEdge (t : Nat) (p : Nat) (held : Nat)
  /-- SSI_READ_START (R420): Every READ_US µs an SSI read starts when the data line has been 1 for 1 µs. -/
  | ssiReadStart (t : Nat) (p : Nat) (lineOne : Bool)
  /-- SSI_READ_DONE (R422): An SSI read ends and its word is accepted to change the count or fails as frame or jump. -/
  | ssiReadDone (t : Nat) (p : Nat) (startBit : Nat) (word : Nat) (idleOk : Bool)
  /-- STANDSTILL (R424): STANDSTILL_MS pass since the last edge and the speed becomes 0 with STANDSTILL set. -/
  | standstill (t : Nat) (p : Nat)
  /-- PROBE_EDGE (R430): A selected probe edge writes a record of time and both positions to the probe FIFO. -/
  | probeEdge (t : Nat) (k : Nat) (rising : Bool)
  /-- FIO_PRB_REC_READ (R453): A read of word 6 removes the oldest probe record. -/
  | fioPrbRecRead (t : Nat) (i : Nat) (k : Nat)
  /-- PART_START (R431): A grid or probe part start takes effect, opening a slot and a merge entry. -/
  | partStart (t : Nat) (p : Nat)
  /-- SLOT_FIRE (R434): The position reaches a slot's firing position and it pulses its class outputs, writes its record and frees. -/
  | slotFire (t : Nat) (p : Nat) (k : Nat)
  /-- EARLIEST_FIRING_DOUBT (R435): An uncommitted slot reaches its earliest firing position and is committed DOUBT, with OVERSPEED when early. -/
  | earliestFiringDoubt (t : Nat) (p : Nat) (k : Nat)
  /-- EJT_XOPEN (R438): A write of GO opens an explicit slot at the explicit target or reports the refusal. -/
  | ejtXopen (t : Nat) (i : Nat) (p : Nat) (v : Nat)
  /-- EJT_COMMIT (R438): A write commits a verdict to an explicit slot as an inference-pipeline commit. -/
  | ejtCommit (t : Nat) (i : Nat) (p : Nat) (v : Nat)
  /-- EJT_FIRE (R438): A write fires a class at once with no slot and no record. -/
  | ejtFire (t : Nat) (i : Nat) (p : Nat) (v : Nat)
  /-- DI_SAMPLE (R442): Every 1 µs the field side samples the digital inputs and passes filtered edges with stamps and events. -/
  | diSample (t : Nat) (levels : Nat)
  /-- OUTPUT_PULSE_END (R445): An ejection pulse on an output runs out and the output turns off. -/
  | outputPulseEnd (t : Nat) (n : Nat)
  /-- OUTPUT_OVERLOAD (R446): An output in current limit for 200 µs or in thermal shutdown is latched off with OVL or THERM. -/
  | outputOverload (t : Nat) (n : Nat) (thermal : Bool)
  /-- ENCODER_SUPPLY_LIMIT (R448): An encoder supply enters current limit, setting its fault bit and the common FAULT. -/
  | encoderSupplyLimit (t : Nat) (n : Nat)
  /-- STROBE_PULSE_END (R450): A strobe pulse ends after WIDTH × 5 ns. -/
  | strobePulseEnd (t : Nat) (b : Nat)
  /-- TIM_INC_NS (R455): A write of INC_NS applies the increment at the next tick, or is refused when out of range. -/
  | timIncNs (t : Nat) (i : Nat) (v : Nat)
  /-- SET (R460): SET loads seconds and nanoseconds at one tick, unless refused during a job or on a follower module. -/
  | timSet (t : Nat) (i : Nat) (v : Nat)
  /-- STEP (R460): STEP adds TIM_ADJ at one tick, unless refused. -/
  | timStep (t : Nat) (i : Nat) (v : Nat)
  /-- SERVO_MARK (R463): SERVO_MARK restarts the holdover timer. -/
  | servoMark (t : Nat) (i : Nat) (v : Nat)
  /-- TIM_NOW_NS (R456): A read of TIM_NOW_NS latches the fraction and seconds of the same tick for that initiator. -/
  | timNowNs (t : Nat) (i : Nat)
  /-- TICK_MONITOR_WINDOW (R459): Each 1 µs the tick count is compared with the reference and a deviation sets TICK_FAULT and reports stage 7. -/
  | tickMonitorWindow (t : Nat) (ticks : Nat)
  /-- HOLDOVER (R463): HOLD_MS pass without steering and HOLDOVER is set with TIM_HOLDOVER raised. -/
  | holdover (t : Nat)
  /-- GENERATOR_INSTANT (R466): A trigger generator instant fires its strobe, Tannery commit and event targets. -/
  | generatorInstant (t : Nat) (k : Nat)
  /-- CAPTURE_EDGE (R468): A selected input or probe edge writes a time record to the capture FIFO. -/
  | captureEdge (t : Nat) (c : Nat) (src : Nat) (rising : Bool) (ago : Nat)
  /-- TIM_CAP_REC_READ (R468): A read of word 2 removes the oldest capture record. -/
  | timCapRecRead (t : Nat) (i : Nat) (c : Nat)
  /-- TIM_PTP_REC_READ (R471): A read of word 3 removes the oldest transmit or receive stamp record. -/
  | timPtpRecRead (t : Nat) (i : Nat) (p : Nat) (rx : Bool)
  /-- STAGE_DUE (R484): The position reaches a part's S + DUE with no report and a late stage fault arises. -/
  | stageDue (t : Nat) (p : Nat) (k : Nat) (stage : Nat)
  /-- STAGE7_HEARTBEAT_MISSING (R484): A time-base or Stirrup heartbeat is missing for 20 µs and a stage 7 fault arises. -/
  | stage7HeartbeatMissing (t : Nat) (src : Nat)
  /-- STAGE7_PERSIST (R486): A stage 7 fault has stood for STAGE7_PERSIST_MS during a job and escalates to level 2. -/
  | stage7Persist (t : Nat) (k : Nat) (missing : Bool)
  /-- OUTPUT_MISMATCH (R486): An output's ON differs from the commanded pulse for more than 10 µs, giving a stage 6 fault. -/
  | outputMismatch (t : Nat) (n : Nat)
  /-- SAFE_RESET_DELAY (R489): RESET_DELAY_MS after the safe reaction Halter requests a system reset with HLT_WDT. -/
  | safeResetDelay (t : Nat)
  /-- FALLBACK_RESULT (R494): The fallback inspector's result for a part becomes ready and is committed if the port is on the fallback inspector. -/
  | fallbackResult (t : Nat) (p : Nat) (part : Nat)
  /-- FALLBACK_FAULT (R486): A fault of the fallback inspector clears FB_OK or escalates a port at level 1 to level 2. -/
  | fallbackFault (t : Nat)
  /-- RESTORE (R488): A RESTORE request returns a port to the inference pipeline from the next part start, or is refused. -/
  | restore (t : Nat) (i : Nat) (v : Nat)
  /-- TEST (R501): A keyed TEST request acts as a late report of the chosen stage on both ports. -/
  | test (t : Nat) (i : Nat) (v : Nat)
  /-- HALTER_KICK (R481): Halter firmware writes its kick, which is a self-fault if less than HWD_US ÷ 4 after the previous. -/
  | halterKick (t : Nat)
  /-- HALTER_KICK_TIMEOUT (R481): A kick missing for HWD_US is a Halter self-fault. -/
  | halterKickTimeout (t : Nat)
  /-- LOCKSTEP_MISMATCH (R480): The lockstep comparator finds a difference between the cores, a Halter self-fault. -/
  | lockstepMismatch (t : Nat)
  /-- HALTER_CLOCK_FAULT (R479): Halter's oscillator deviates more than 5% for 10 µs, a Halter self-fault. -/
  | halterClockFault (t : Nat)
  /-- HALTER_ESCALATION_RESET (R482): One millisecond after a self-fault a system reset with HLT_WDT is requested. -/
  | halterEscalationReset (t : Nat)
  /-- HLT_FB_LOAD (R494): A write of GO starts loading a fallback table into the shadow half, or is ignored while BUSY. -/
  | hltFbLoad (t : Nat) (i : Nat) (v : Nat)
  /-- FB_LOAD_DONE (R494): A fallback table load ends with OK or its failure status. -/
  | fbLoadDone (t : Nat)
  /-- HLT_FW_REQ_GO (R497): A submitted firewall rule table replaces the whole table if no job runs and no fixed rule is broken. -/
  | hltFwReqGo (t : Nat) (i : Nat) (v : Nat)
  /-- PWR_SLEEP (R511): A write of GO requests entry to a sleep state, or sets ENTRY_STATUS to STATE_REFUSED. -/
  | pwrSleep (t : Nat) (i : Nat) (v : Nat)
  /-- SLEEP_ENTERED (R512): The sleep entry sequence finishes and STATE reads the target. -/
  | sleepEntered (t : Nat)
  /-- WAKE (R514): An enabled wake source starts an exit to S0, or abandons an entry in progress. -/
  | wake (t : Nat) (src : Nat)
  /-- EXIT_STEP_READY (R516): An exit step's ready signal arrives and the next step starts. -/
  | exitStepReady (t : Nat)
  /-- EXIT_STEP_TIMEOUT (R516): An exit step's ready signal is missing after twice its time, repeating the step or stopping the exit. -/
  | exitStepTimeout (t : Nat)
  /-- PWR_DBELL (R514): A host write of the doorbell wakes the module from S1 or S2. -/
  | pwrDbell (t : Nat) (i : Nat) (v : Nat)
  /-- DOMAIN_POWER_UP (R504): A domain finishes powering up and restores its retention-list registers. -/
  | domainPowerUp (t : Nat) (n : Nat)
  /-- DOMAIN_POWER_DOWN (R506): A domain saves its retention-list registers and removes power. -/
  | domainPowerDown (t : Nat) (n : Nat)
  /-- PWR_MC_CTRL (R505): Core 0 requests power on or off for management cores 1 to 3. -/
  | pwrMcCtrl (t : Nat) (i : Nat) (v : Nat)
  /-- CORE_WAIT_FOR_INTERRUPT (R505): A core with a held power-off request enters wait-for-interrupt and is powered off. -/
  | coreWaitForInterrupt (t : Nat) (k : Nat)
  /-- PWR_RELEASE (R518): A write releases the pad hold of a domain that is on, or sets REL_REFUSED. -/
  | pwrRelease (t : Nat) (i : Nat) (hi : Bool) (v : Nat)
  /-- OP_TARGET_CHANGE (R522): A cluster's target operating point changes, switching frequency or requesting a rail voltage in order. -/
  | opTargetChange (t : Nat) (c : Nat)
  /-- AVS_ACK (R523): The regulator acknowledges a rail voltage and raised frequencies or the next request proceed. -/
  | avsAck (t : Nat) (r : Nat)
  /-- AVS_TIMEOUT (R524): A voltage request without acknowledgement for 2 ms is abandoned and AVS_FAULT is set. -/
  | avsTimeout (t : Nat) (r : Nat)
  /-- POWER_SAMPLE (R527): Every 10 µs the controller measures the power drawn from VIN12. -/
  | powerSample (t : Nat) (mw : Nat)
  /-- CAP_PERIOD (R529): Every 100 µs the controller forms P_MEAS, learns class powers and sets each cluster's OP_CAP. -/
  | capPeriod (t : Nat) (est : List Nat) (other : Nat) (temps : List Int)
  /-- SLOPE_WINDOW (R532): A new 640 ns window lets at most two clusters change between running and gated clocks. -/
  | slopeWindow (t : Nat)
  /-- DROOP_DETECT (R533): A rail falls more than DROOP_MV below its voltage and its cluster clocks stretch within 2 ns. -/
  | droopDetect (t : Nat) (r : Nat) (below : Int)
  /-- DROOP_END (R533): The rail stays above threshold plus 10 mV for 64 cycles and the stretch episode ends. -/
  | droopEnd (t : Nat) (r : Nat) (below : Int)
  /-- THROTTLE_STEP (R535): Each 1 ms with T at or above THROTTLE_C the thermal limit falls one point. -/
  | throttleStep (t : Nat) (temps : List Int)
  /-- THROTTLE_RISE_STEP (R535): Each 10 ms with T below THROTTLE_C − 5 °C the thermal limit rises one point. -/
  | throttleRiseStep (t : Nat) (temps : List Int)
  /-- HARD_THERMAL (R535): The hottest junction reaches 110 °C, cluster clocks divide by 4 and the thermal limit becomes OP0. -/
  | hardThermal (t : Nat) (temps : List Int)
  /-- CDR_LOCK (R540): A lane receiver locks its recovered clock and sets CDR_LOCK. -/
  | cdrLock (t : Nat) (m : Nat)
  /-- CDR_LOCK_LOSS (R540): A lane loses lock for 100 ns and CDR_LOCK clears, with the owner reacting under R544. -/
  | cdrLockLoss (t : Nat) (m : Nat) (sig : Bool)
  /-- RETRAIN (R543): A write of RETRAIN retrains an ON lane in place through STARTING. -/
  | retrain (t : Nat) (i : Nat) (m : Nat) (v : Nat)
  /-- LANE_TRAINED (R552): A lane finishes training and returns to use, resuming striping where applicable. -/
  | laneTrained (t : Nat) (m : Nat) (r : Nat)
  /-- SDS_TEST (R547): A write of SDSm_TEST selects generator, checker, loopback and rate on a fenced lane. -/
  | sdsTest (t : Nat) (i : Nat) (m : Nat) (v : Nat)
  /-- INJ (R551): A write of INJ inverts one generator bit or one live-traffic bit as INJ_MODE selects. -/
  | inj (t : Nat) (i : Nat) (m : Nat) (v : Nat)
  /-- ETH_FRAME_RECEIVE (R553): An Ethernet frame is received and checked, obeyed as pause, matched for wake or delivered. -/
  | ethFrameReceive (t : Nat) (p : Nat) (f : List Nat) (fcsOk : Bool)
  /-- ETH_FRAME_TRANSMIT (R553): An Ethernet frame is transmitted from a DMA channel. -/
  | ethFrameTransmit (t : Nat) (p : Nat)
  /-- PCIE_CONFIG_REQUEST (R84): The endpoint answers a PCI Express configuration request. -/
  | pcieConfigRequest (t : Nat) (wr : Bool) (off : Nat) (v : Nat)
  /-- PCIE_BAR0_REQUEST (R558): A host BAR0 request reaches the register space or completes with Unsupported Request or Completer Abort. -/
  | pcieBar0Request (t : Nat) (wr : Bool) (off : Nat) (len : Nat) (v : Nat)
  /-- PCIE_BAR2_REQUEST (R558): A host BAR2 request reaches DRAM or completes with Unsupported Request or Completer Abort. -/
  | pcieBar2Request (t : Nat) (wr : Bool) (off : Nat) (len : Nat) (data : List Nat) (poisoned : Bool)
  /-- PCIE_LINK_DOWN (R559): The PCI Express link goes down, outbound DMA fails with BUS_ERROR and swapped sequences end. -/
  | pcieLinkDown (t : Nat)
  /-- DMA_HEAD_LO (R580): A write of DMAn_HEAD_LO starts the channel at a descriptor, or sets REFUSED. -/
  | dmaHeadLo (t : Nat) (i : Nat) (n : Nat) (v : Nat)
  /-- DMA_KICK (R581): A kick makes an idle channel reread the last descriptor's next address and continue. -/
  | dmaKick (t : Nat) (i : Nat) (n : Nat) (v : Nat)
  /-- DESCRIPTOR_FETCH (R567): A channel fetches and checks a descriptor, marking PARAM_INVALID segments. -/
  | descriptorFetch (t : Nat) (n : Nat)
  /-- SEGMENT_DONE (R569): A DMA segment finishes its copy with its status. -/
  | segmentDone (t : Nat) (n : Nat) (data : List Nat) (poison : List Nat)
  /-- TRANSFER_COMPLETE (R575): All writes of a transfer are acknowledged, segment statuses are written and one record is appended. -/
  | transferComplete (t : Nat) (n : Nat)
  /-- DMA_BUS_ERROR (R578): A DMA access fails with BUS_ERROR or FENCED_ABORT, halting the channel and latching the failure. -/
  | dmaBusError (t : Nat) (n : Nat) (wr : Bool) (a : Nat) (st : Nat) (data : List Nat)
  /-- HALTED_CLEAR (R579): A write of 1 to HALTED clears it and the channel continues after the failed transfer. -/
  | haltedClear (t : Nat) (i : Nat) (n : Nat)
  /-- DMA_BUDGET_WINDOW (R574): A new 1.024 µs window renews every channel's operation budget. -/
  | dmaBudgetWindow (t : Nat)
  /-- FRAME_BAD_CRC (R378): A Traif Link frame arrives with a bad CRC or a gap in the hop sequence and the receiver answers it with LNAK. -/
  | frameBadCrc (t : Nat) (a : Nat) (gap : Bool)
  /-- WIRE_BREAK_END (R418): The differential voltage of a broken Stirrup pair returns above 200 mV and its WIRE bit clears, starting the 1 ms quiet period of R417. -/
  | wireBreakEnd (t : Nat) (p : Nat) (pair : Nat)
  /-- ENCODER_SUPPLY_LIMIT_END (R448): An encoder supply leaves current limit, clearing its fault bit and possibly the common FAULT bit. -/
  | encoderSupplyLimitEnd (t : Nat) (n : Nat)
  /-- SERIAL_BYTE_SENT (R132): A byte of the PCAM serial transmit buffer finishes leaving on PCAM_TXD at the BAUD rate, so TX_FULL can clear. -/
  | serialByteSent (t : Nat)
  /-- HALTER_DOUBLE_BIT_ERROR (R479): A double-bit error in Halter's code and data SRAM or in the fallback inspector's SRAM is a Halter self-fault. -/
  | halterDoubleBitError (t : Nat)
  /-- CHECKER_SYNC_GAIN (R549): The lane checker sees 64 consecutive bits match its pattern, sets CHK_SYNC and starts counting. -/
  | checkerSyncGain (t : Nat) (m : Nat)
  /-- CHECKER_SYNC_LOSS (R549): The lane checker sees 32 of 64 consecutive bits mismatch, clears CHK_SYNC, stops counting and seeds itself again. -/
  | checkerSyncLoss (t : Nat) (m : Nat) (errs : Nat)
  /-- PCIE_PERST_RELEASE (R84): PCIE_PERST_N is released, ending the endpoint reset and starting the 100 ms within which the endpoint must answer configuration requests. -/
  | pciePerstRelease (t : Nat)
  /-- RST_N_RELEASE (R67): RST_N returns high, ending the reset-pin source so that the at least 100 µs tail of the system reset begins. -/
  | rstNRelease (t : Nat)
  /-- VCXP_CHANGE (R50): The camera 24 V input VCXP leaves or returns to its range, which gates whether the module may apply power to cameras. -/
  | vcxpChange (t : Nat) (ok : Bool)
  /-- STP_POS_LO_READ (R428): A read of STPn_POS_LO latches STPn_POS_HI so that the two halves of the position come from one instant. -/
  | stpPosLoRead (t : Nat) (i : Nat) (p : Nat)
  /-- PCIE_BAR4_REQUEST (R557): A host request to BAR4 reaches the MSI-X table or the pending-bit array. -/
  | pcieBar4Request (t : Nat) (wr : Bool) (off : Nat) (v : Nat)
  /-- BLOCK_LOCK_LOSS (R553): An Ethernet port loses 64b/66b block lock, or enters high bit error ratio, and its link goes down. -/
  | blockLockLoss (t : Nat) (p : Nat) (hi : Bool)
deriving DecidableEq, Repr

end Sys2Proof
end

