-- ==== Sys2Proof/Decode.lean ====
section
/-!
DEFINITION. The command a table word spells.  No row of the command table gives bits (the commands come from outside the module
as accesses, protocol operations and events), so no word spells one.
-/

namespace Sys2Proof

/-- The command that the low `nbits` bits of `w` spell. -/
def decodeTableWord (_nbits _w : Nat) : Option Instr := none

end Sys2Proof
end

