-- ==== Sys2Proof/Config.lean ====
section
/-!
DEFINITION. What an implementation fixes and what the spec leaves open: constants with no body, so that
no proof can see their values.
-/

namespace Sys2Proof

/-- The kind argument of `HLT_STAGE` for a stage 6 report, which the list of R486 does not give. -/
opaque Config.stage6Kind : Nat

/-- The set of a slice that a line's address selects: R182 gives the number of ways and not the index. -/
opaque Config.cacheSet : Nat → Nat

/-- Further open values, numbered by the counter `free` of the state. -/
opaque Config.freeNat : Nat → Nat

/-- Whether a load range lies inside the region permitted for its image type (R79): type, address, length. The spec does not
state the regions. -/
opaque Config.loadRegionOk : Nat → Nat → Nat → Bool

/-- Bytes of the part number and the serial number that the PMBus sideband returns (R53). -/
opaque Config.mfrModel : List Nat

/-- The module's serial number as the PMBus sideband returns it (R53). -/
opaque Config.mfrSerial : List Nat

/-- Which of the exponents that hold a value the LINEAR11 code of a PMBus command takes, and whether its mantissa is rounded up: the command
code and the value in thousandths.  The spec states neither (R53). -/
opaque Config.linear11 : Nat → Int → Nat × Bool

/-- The luminance of a pixel from its samples, left-aligned to 16 bits: R95 does not state the weights. -/
opaque Config.luma : List Nat → BitVec 16

/-- The CIEDE2000 distance in FP32 of a measured and a target colour with the weights `KL`, `KC`, `KH`, all as FP32 codes: the unit
evaluates it "with its own fixed evaluations of the trigonometric and power functions" (R137), which the spec does not give. -/
opaque Config.deltaE : List Nat → List Nat → List Nat → BitVec 32

/-- The FP32 code that a function of group `0xA` delivers for a finite input outside the special results of R268: the function's
number and the input's code.  R266 bounds its distance from the exact value, which the model holds it to, and does not give the bits. -/
opaque Config.fpFun : Nat → Nat → BitVec 32

/-- The block exponent of a block of an SX activation that a fused convolution reads: R284 gives the exponents no place in the tensor.
The arguments are the input address, the group, the output pixel, the slice and the block. -/
opaque Config.sxActExp : List Nat → BitVec 8

/-- The quotient of a partial reduction with finish 1 and N = 0, which R296 does not state: the sum and the output format. -/
opaque Config.reduceByZero : Int → Nat → BitVec 16

/-- A byte of a released stripe buffer, undefined by R305: the number of the draw and the byte's offset in the pool. -/
opaque Config.freeByte : Nat → Nat → BitVec 8

/-- The reaction cause that `HLT_STAT` shows for a switch to the fallback inspector because the module left service (0, R395, R409) or
its system lost its capacity (1, R408): no cause of R502 names either. -/
opaque Config.linkCause : Nat → BitVec 4

/-- The voltage of operating point k of this module in mV (R519): "within ±30 mV of the nominal values", set at the factory. -/
opaque Config.opMv : Nat → BitVec 16

/-- The protocol version of Traif Link, major in bits 15:8 and minor in bits 7:0: the firmware gives it (R412). -/
opaque Config.linkVersion : BitVec 16

/-- Shasen's PCI Express vendor identifier, which the spec names and does not state (R556). -/
opaque Config.pcieVendor : BitVec 16

/-- What a register of the PCI Express configuration space reads: its offset, and the last value the host wrote to it plus 1, 0 for
none. The spec states the identifiers, the class code and the BARs alone (R556, R557). -/
opaque Config.pcieCfg : Nat → Nat → BitVec 32

/-- The power in µW that the fixed model of R528 gives a class at OP7. -/
opaque Config.capSeed : Nat → Nat

end Sys2Proof
end

