-- ==== Sys2Proof/Machine/Bytes.lean ====
section
/-!
DEFINITION. Checks over bytes: the CRC-32 of IEEE 802.3 and the SHA-2 digests.
-/

namespace Sys2Proof.Machine

/-- `k` shifts of the reflected CRC-32 register. -/
def crcShift : Nat → Nat → Nat
  | 0, c => c
  | k + 1, c => crcShift k (if c % 2 = 1 then (c / 2).xor 0xEDB88320 else c / 2)

/-- The CRC-32 register after one byte. -/
def crcByte (c b : Nat) : Nat := crcShift 8 (c.xor (b % 256))

/-- The CRC-32 of IEEE 802.3 over a list of bytes. -/
def crc32 (bs : List Nat) : Nat := (bs.foldl crcByte 0xFFFFFFFF).xor 0xFFFFFFFF

/-- A big-endian number. -/
def beNat (bs : List Nat) : Nat := bs.foldl (fun n b => n * 256 + b) 0

/-- The bytes of a number, most significant first. -/
def beBytes (n v : Nat) : List Nat := (List.range n).map (fun k => v / 256 ^ (n - 1 - k) % 256)

/-! ### SHA-2

One description serves SHA-256, which the option bytes and the images name (R73, R78), and SHA-512, which Ed25519 of RFC 8032 uses: they
differ in the word's width and in rotation amounts, and their constants are fractional bits of roots of the first primes. -/

/-- The largest number of at most `n` bits whose power `e` does not pass `x`: `rootBits e x n 0`. -/
def rootBits (e x : Nat) : Nat → Nat → Nat
  | 0, r => r
  | n + 1, r => rootBits e x n (if (r + 2 ^ n) ^ e ≤ x then r + 2 ^ n else r)

/-- The first `w` fractional bits of the root of order `e` of `q`, for `q` below 512. -/
def rootFraction (e w q : Nat) : Nat := rootBits e (q * 2 ^ (e * w)) (w + 5) 0 % 2 ^ w

/-- The first `n` primes, for `n` up to 80. -/
def firstPrimes (n : Nat) : List Nat :=
  ((List.range 410).filter (fun q => decide (2 ≤ q) && (List.range q).all (fun d => decide (d < 2) || q % d != 0))).take n

/-- A member of the SHA-2 family: the word's width, the rounds, and for each of the four mixing functions its three amounts. -/
structure ShaKind where
  width : Nat
  rounds : Nat
  big0 : List Nat
  big1 : List Nat
  small0 : List Nat
  small1 : List Nat

/-- SHA-256. -/
def shaKind256 : ShaKind := ⟨32, 64, [2, 13, 22], [6, 11, 25], [7, 18, 3], [17, 19, 10]⟩

/-- SHA-512. -/
def shaKind512 : ShaKind := ⟨64, 80, [28, 34, 39], [14, 18, 41], [1, 8, 7], [19, 61, 6]⟩

/-- A word rotated right by `r`. -/
def ShaKind.spin (k : ShaKind) (x r : Nat) : Nat := (x + x * 2 ^ k.width) / 2 ^ r % 2 ^ k.width

/-- The exclusive or of three rotations. -/
def ShaKind.mixBig (k : ShaKind) (rs : List Nat) (x : Nat) : Nat := rs.foldl (fun z r => z.xor (k.spin x r)) 0

/-- The exclusive or of two rotations and a shift, the last amount. -/
def ShaKind.mixSmall (k : ShaKind) (rs : List Nat) (x : Nat) : Nat := (k.mixBig (rs.take 2) x).xor (x / 2 ^ rs.getD 2 0)

/-- The schedule grown by `n` words: word `t` comes from the words 16, 15, 7 and 2 before it. -/
def ShaKind.grow (k : ShaKind) : Nat → List Nat → List Nat
  | 0, w => w
  | n + 1, w =>
    let ago (j : Nat) : Nat := w.getD (w.length - j) 0
    k.grow n (w ++ [(ago 16 + k.mixSmall k.small0 (ago 15) + ago 7 + k.mixSmall k.small1 (ago 2)) % 2 ^ k.width])

/-- One round: the eight working words move up by one, and words 0 and 4 take the round's sums. -/
def ShaKind.turn (k : ShaKind) (v : List Nat) (add : Nat) : List Nat :=
  let x (j : Nat) : Nat := v.getD j 0
  let pick := ((x 4).land (x 5)).lor ((2 ^ k.width - 1 - x 4).land (x 6))
  let most := ((x 0).land (x 1)).lor ((x 2).land ((x 0).lor (x 1)))
  let sum := x 7 + k.mixBig k.big1 (x 4) + pick + add
  (sum + k.mixBig k.big0 (x 0) + most) % 2 ^ k.width :: v.take 3 ++ ((x 3 + sum) % 2 ^ k.width :: (v.drop 4).take 3)

/-- The chaining words after one block of 16 words. -/
def ShaKind.block (k : ShaKind) (ks h blk : List Nat) : List Nat :=
  let adds := (ks.zip (k.grow (k.rounds - 16) blk)).map (fun p => p.1 + p.2)
  ((adds.foldl k.turn h).zip h).map (fun p => (p.1 + p.2) % 2 ^ k.width)

/-- A message followed by its padding: a one bit, zeros and its length in bits, to whole blocks of 16 words. -/
def ShaKind.padded (k : ShaKind) (m : List Nat) : List Nat :=
  let unit := 2 * k.width
  let fill := (unit - (m.length + 1 + k.width / 4) % unit) % unit
  m ++ 0x80 :: List.replicate fill 0 ++ beBytes (k.width / 4) (8 * m.length)

/-- The chaining words over the blocks of a list of words, `n` blocks. -/
def ShaKind.run (k : ShaKind) (ks : List Nat) : Nat → List Nat → List Nat → List Nat
  | 0, h, _ => h
  | n + 1, h, ws => k.run ks n (k.block ks h (ws.take 16)) (ws.drop 16)

/-- The digest of a list of bytes: the eight chaining words, most significant byte first. -/
def ShaKind.digest (k : ShaKind) (m : List Nat) : List Nat :=
  let p := k.padded m
  let bytes := k.width / 8
  let ws := (List.range (p.length / bytes)).map (fun j => beNat ((p.drop (bytes * j)).take bytes))
  let ks := (firstPrimes k.rounds).map (rootFraction 3 k.width)
  (k.run ks (ws.length / 16) ((firstPrimes 8).map (rootFraction 2 k.width)) ws).flatMap (beBytes bytes)

/-- The SHA-256 digest of a list of bytes, as 32 bytes. -/
def sha256 (m : List Nat) : List Nat := shaKind256.digest m

/-- The SHA-512 digest of a list of bytes, as 64 bytes. -/
def sha512 (m : List Nat) : List Nat := shaKind512.digest m

end Sys2Proof.Machine
end

