-- ==== Sys2Proof/Machine/Fp.lean ====
section
/-!
DEFINITION. The floating formats and their arithmetic: exact results rounded once, to nearest, ties to even (R252, R255-R260).
-/

namespace Sys2Proof.Machine

/-- A quotient rounded to nearest, ties to even. -/
def divRne (a n : Nat) : Nat :=
  let q := a / n
  let r := a % n
  if 2 * r < n then q else if 2 * r = n then q + q % 2 else q + 1

/-- An integer quotient rounded to nearest, ties to even. -/
def divRneI (a : Int) (n : Nat) : Int := if a < 0 then -(divRne a.natAbs n : Int) else (divRne a.natAbs n : Int)

/-- A floating format: exponent and mantissa widths, bias, the code of the largest finite magnitude, the code of infinity if
the format has one, and the canonical NaN (R252, R256). -/
structure FpFmt where
  eb : Nat
  mb : Nat
  bias : Nat
  maxc : Nat
  infc : Option Nat
  nanc : Nat
deriving DecidableEq, Repr

def fp32 : FpFmt := ⟨8, 23, 127, 0x7F7FFFFF, some 0x7F800000, 0x7FC00000⟩
def fp16 : FpFmt := ⟨5, 10, 15, 0x7BFF, some 0x7C00, 0x7E00⟩
def bf16 : FpFmt := ⟨8, 7, 127, 0x7F7F, some 0x7F80, 0x7FC0⟩
def e4m3 : FpFmt := ⟨4, 3, 7, 0x7E, none, 0x7F⟩
def e5m2 : FpFmt := ⟨5, 2, 15, 0x7B, some 0x7C, 0x7E⟩

/-- A floating value: NaN, an infinity, or ± m × 2^e. -/
inductive Fp where
  | nan
  | inf (neg : Bool)
  | fin (neg : Bool) (m : Nat) (e : Int)
deriving DecidableEq, Repr

/-- The weight of a format's sign bit. -/
def FpFmt.sign (f : FpFmt) : Nat := 2 ^ (f.eb + f.mb)

/-- The value a code stands for. -/
def fpDecode (f : FpFmt) (c : Nat) : Fp :=
  let neg := c / f.sign % 2 == 1
  let mag := c % f.sign
  let ex := mag / 2 ^ f.mb
  let m := mag % 2 ^ f.mb
  if f.maxc < mag then (if f.infc = some mag then .inf neg else .nan)
  else if ex = 0 then .fin neg m (1 - (f.bias : Int) - f.mb)
  else .fin neg (m + 2 ^ f.mb) ((ex : Int) - f.bias - f.mb)

/-- The sticky flags as bits: `NV` 0, `OF` 1, `UF` 2, `SAT` 3 (R260). -/
def fNV : Nat := 1
def fOF : Nat := 2
def fUF : Nat := 4
def fSAT : Nat := 8

/-- A code with a sign. -/
def FpFmt.signed (f : FpFmt) (neg : Bool) (c : Nat) : Nat := if neg then f.sign + c else c

/-- The code of an overflowing result: the largest finite value with `sat`, else infinity, or NaN where there is none
(R258). -/
def FpFmt.over (f : FpFmt) (sat neg : Bool) : Nat :=
  if sat then f.signed neg f.maxc
  else match f.infc with
    | some i => f.signed neg i
    | none => f.nanc

/-- The floor of the binary logarithm of `num ÷ den`, both above 0. -/
def log2Rat (num den : Nat) : Int :=
  let l : Int := (Nat.log2 num : Int) - Nat.log2 den
  let ge := if 0 ≤ l then decide (den * 2 ^ l.toNat ≤ num) else decide (den ≤ num * 2 ^ (-l).toNat)
  if ge then l else l - 1

/-- Round ± num ÷ den to a format, to nearest, ties to even: the code and the flags. -/
def fpRoundRat (f : FpFmt) (sat neg : Bool) (num den : Nat) : Nat × Nat :=
  if num = 0 then (f.signed neg 0, 0)
  else
    let emin : Int := 1 - (f.bias : Int)
    let lg := log2Rat num den
    let e := max lg emin
    let k := e - f.mb
    let a := if 0 ≤ k then num else num * 2 ^ (-k).toNat
    let b := if 0 ≤ k then den * 2 ^ k.toNat else den
    let q := divRne a b
    let c := (e + f.bias - 1).toNat * 2 ^ f.mb + q
    let sub := decide (0 < c) && decide (c < 2 ^ f.mb) && q * b != a
    if f.maxc < c then (f.over sat neg, fOF)
    else (f.signed neg c, if sub then fUF else 0)

/-- Round ± m × 2^e. -/
def fpRound (f : FpFmt) (sat neg : Bool) (m : Nat) (e : Int) : Nat × Nat :=
  if 0 ≤ e then fpRoundRat f sat neg (m * 2 ^ e.toNat) 1 else fpRoundRat f sat neg m (2 ^ (-e).toNat)

/-- The code of a value in a format, rounding a finite one. -/
def fpEncode (f : FpFmt) (sat : Bool) (x : Fp) : Nat × Nat :=
  match x with
  | .nan => (f.nanc, 0)
  | .inf n => (f.over sat n, 0)
  | .fin n m e => fpRound f sat n m e

/-- The exact sum of two finite values; a zero sum is -0 only when both are (R257). -/
def finAdd (n1 : Bool) (m1 : Nat) (e1 : Int) (n2 : Bool) (m2 : Nat) (e2 : Int) : Fp :=
  let e := min e1 e2
  let a : Int := (m1 : Int) * 2 ^ (e1 - e).toNat * (if n1 then -1 else 1)
  let b : Int := (m2 : Int) * 2 ^ (e2 - e).toNat * (if n2 then -1 else 1)
  let c := a + b
  if c = 0 then .fin (m1 == 0 && m2 == 0 && n1 && n2) 0 0 else .fin (decide (c < 0)) c.natAbs e

/-- The exact sum, with `NV` where infinities cancel (R257, R260). -/
def fpAddX (x y : Fp) : Fp × Nat :=
  match x, y with
  | .nan, _ => (.nan, 0)
  | _, .nan => (.nan, 0)
  | .inf a, .inf b => if a = b then (.inf a, 0) else (.nan, fNV)
  | .inf a, .fin .. => (.inf a, 0)
  | .fin .., .inf b => (.inf b, 0)
  | .fin n1 m1 e1, .fin n2 m2 e2 => (finAdd n1 m1 e1 n2 m2 e2, 0)

/-- The exact product, with `NV` for infinity times zero. -/
def fpMulX (x y : Fp) : Fp × Nat :=
  match x, y with
  | .nan, _ => (.nan, 0)
  | _, .nan => (.nan, 0)
  | .inf a, .inf b => (.inf (a != b), 0)
  | .inf a, .fin n m _ => if m = 0 then (.nan, fNV) else (.inf (a != n), 0)
  | .fin n m _, .inf b => if m = 0 then (.nan, fNV) else (.inf (n != b), 0)
  | .fin n1 m1 e1, .fin n2 m2 e2 => (.fin (n1 != n2) (m1 * m2) (e1 + e2), 0)

/-- The negative of a value. -/
def Fp.negate : Fp → Fp
  | .nan => .nan
  | .inf n => .inf (!n)
  | .fin n m e => .fin (!n) m e

/-- Round an exact result with its flags. -/
def fpFinish (f : FpFmt) (r : Fp × Nat) : Nat × Nat :=
  let c := fpEncode f false r.1
  (c.1, c.2.lor r.2)

/-- Addition, subtraction, multiplication and fused multiply-add of codes: the result and the flags. -/
def fpAdd (f : FpFmt) (a b : Nat) : Nat × Nat := fpFinish f (fpAddX (fpDecode f a) (fpDecode f b))
def fpSub (f : FpFmt) (a b : Nat) : Nat × Nat := fpFinish f (fpAddX (fpDecode f a) (fpDecode f b).negate)
def fpMul (f : FpFmt) (a b : Nat) : Nat × Nat := fpFinish f (fpMulX (fpDecode f a) (fpDecode f b))
def fpFma (f : FpFmt) (a b c : Nat) : Nat × Nat :=
  if fpDecode f c = .nan then (f.nanc, 0)
  else
    let p := fpMulX (fpDecode f a) (fpDecode f b)
    let r := fpAddX p.1 (fpDecode f c)
    fpFinish f (r.1, r.2.lor p.2)

/-- Division of codes (R257). -/
def fpDiv (f : FpFmt) (a b : Nat) : Nat × Nat :=
  match fpDecode f a, fpDecode f b with
  | .nan, _ => (f.nanc, 0)
  | _, .nan => (f.nanc, 0)
  | .inf _, .inf _ => (f.nanc, fNV)
  | .inf x, .fin n _ _ => (f.over false (x != n), 0)
  | .fin n _ _, .inf y => (f.signed (n != y) 0, 0)
  | .fin n1 m1 e1, .fin n2 m2 e2 =>
    if m2 = 0 then (if m1 = 0 then (f.nanc, fNV) else (f.over false (n1 != n2), 0))
    else
      let e := e1 - e2
      if 0 ≤ e then fpRoundRat f false (n1 != n2) (m1 * 2 ^ e.toNat) m2
      else fpRoundRat f false (n1 != n2) m1 (m2 * 2 ^ (-e).toNat)

/-- The integer square root of `n`, trying `k` bits from the highest. -/
def isqrtGo : Nat → Nat → Nat → Nat
  | 0, _, r => r
  | k + 1, n, r => isqrtGo k n (if (r + 2 ^ k) * (r + 2 ^ k) ≤ n then r + 2 ^ k else r)

/-- The integer square root. -/
def isqrt (n : Nat) : Nat := isqrtGo (Nat.log2 n / 2 + 1) n 0

/-- The square root of a code, correctly rounded. -/
def fpSqrt (f : FpFmt) (a : Nat) : Nat × Nat :=
  match fpDecode f a with
  | .nan => (f.nanc, 0)
  | .inf n => if n then (f.nanc, fNV) else (f.over false false, 0)
  | .fin n m e =>
    if m = 0 then (f.signed n 0, 0)
    else if n then (f.nanc, fNV)
    else
      let m1 := if e % 2 = 0 then m else 2 * m
      let e1 := if e % 2 = 0 then e else e - 1
      let x := m1 * 2 ^ 64
      let s := isqrt x
      fpRound f false false (2 * s + (if s * s = x then 0 else 1)) (e1 / 2 - 33)

/-- An integer as a code, rounded to nearest, ties to even. -/
def fpOfInt (f : FpFmt) (i : Int) : Nat × Nat := fpRound f false (decide (i < 0)) i.natAbs 0

/-- A finite value as an integer over a power of two: numerator and denominator. -/
def Fp.ratio : Fp → Int × Nat
  | .fin n m e =>
    let s : Int := if n then -1 else 1
    if 0 ≤ e then (s * m * 2 ^ e.toNat, 1) else (s * m, 2 ^ (-e).toNat)
  | _ => (0, 1)

/-- Whether two values compare less; NaN never does, and both zeros are equal. -/
def fpLt (x y : Fp) : Bool :=
  match x, y with
  | .nan, _ => false
  | _, .nan => false
  | .inf a, .inf b => a && !b
  | .inf a, .fin .. => a
  | .fin .., .inf b => !b
  | x, y => decide (x.ratio.1 * y.ratio.2 < y.ratio.1 * x.ratio.2)

/-- Whether two values compare equal. -/
def fpEq (x y : Fp) : Bool :=
  match x, y with
  | .nan, _ => false
  | _, .nan => false
  | .inf a, .inf b => a == b
  | .inf _, .fin .. => false
  | .fin .., .inf _ => false
  | x, y => decide (x.ratio.1 * y.ratio.2 = y.ratio.1 * x.ratio.2)

/-- A value rounded to an integer, to nearest, ties to even, or toward zero. -/
def Fp.toIntR (x : Fp) (rtz : Bool) : Int :=
  let r := x.ratio
  if rtz then Int.tdiv r.1 r.2 else divRneI r.1 r.2

/-- Clamp an integer to a signed range of `w` bits: the value and whether it was clamped. -/
def clampInt (w : Nat) (i : Int) : Int × Bool :=
  let hi : Int := 2 ^ (w - 1) - 1
  let lo : Int := -(2 ^ (w - 1))
  if hi < i then (hi, true) else if i < lo then (lo, true) else (i, false)

end Sys2Proof.Machine
end

