-- ==== Sys2Proof/Machine/DeltaE.lean ====
section
/-!
DEFINITION. The CIEDE2000 distance of R137, computed in fixed point with 64 fraction bits, and the unit's FP32 result, which lies within
0.0005 of it and whose bits the spec leaves to the unit.
-/

namespace Sys2Proof.Machine

/-! ### Fixed point -/

/-- The fixed-point number 1. -/
def fxOne : Int := 2 ^ 64

/-- The fixed-point value of a fraction. -/
def fxFrac (n : Int) (d : Nat) : Int := n * fxOne / d

/-- A product. -/
def fxMul (a b : Int) : Int := a * b / fxOne

/-- A quotient; 0 for a divisor of 0. -/
def fxDiv (a b : Int) : Int := if b = 0 then 0 else a * fxOne / b

/-- The square root of a number that is not negative. -/
def fxSqrt (a : Int) : Int := rootBits 2 (a * fxOne).toNat 100 0

/-- A power. -/
def fxPow (a : Int) : Nat → Int
  | 0 => fxOne
  | n + 1 => fxMul (fxPow a n) a

/-- The number π. -/
def fxPi : Int := 57952155664616982739

/-- An angle in degrees as radians. -/
def fxRad (deg : Int) : Int := fxDiv (fxMul deg fxPi) (180 * fxOne)

/-- The sum of `n` terms of a series in which term `k + 1` is term `k` times `x` over `den k`. -/
def fxSeries (x : Int) (den : Nat → Nat) : Nat → Nat → Int → Int
  | 0, _, _ => 0
  | n + 1, k, term => term + fxSeries x den n (k + 1) (fxMul term x / den k)

/-- The sine of an angle, brought into one turn about 0 first. -/
def fxSin (a : Int) : Int :=
  let r := a % (2 * fxPi)
  let r := if fxPi < r then r - 2 * fxPi else r
  fxSeries (-fxMul r r) (fun k => (2 * k + 2) * (2 * k + 3)) 24 0 r

/-- The cosine of an angle. -/
def fxCos (a : Int) : Int := fxSin (a + fxPi / 2)

/-- The exponential of a number that is not positive: that of its 128th part, squared seven times. -/
def fxExpNeg (a : Int) : Int :=
  (List.range 7).foldl (fun y _ => fxMul y y) (fxSeries (a / 128) (fun k => k + 1) 24 0 fxOne)

/-- The arc tangent of a number from 0 to 1: the angle halved three times, then its series in odd powers. -/
def fxAtan (t : Int) : Int :=
  let half (t : Int) : Int := fxDiv t (fxOne + fxSqrt (fxOne + fxMul t t))
  let u := half (half (half t))
  let u2 := fxMul u u
  8 * (List.range 20).foldl (fun s k => s + (if k % 2 = 0 then 1 else -1) * (fxMul u (fxPow u2 k)) / (2 * k + 1 : Nat)) 0

/-- The angle of the point (x, y) in degrees from 0 to 360; 0 for the origin. -/
def fxHue (y x : Int) : Int :=
  if x = 0 ∧ y = 0 then 0
  else
    let ax := (x.natAbs : Int)
    let ay := (y.natAbs : Int)
    let q := if ay ≤ ax then fxAtan (fxDiv ay ax) else fxPi / 2 - fxAtan (fxDiv ax ay)
    let q := if x < 0 then fxPi - q else q
    let q := if y < 0 then 2 * fxPi - q else q
    fxDiv (fxMul q (180 * fxOne)) fxPi

/-! ### CIEDE2000 -/

/-- √(c⁷ ÷ (c⁷ + 25⁷)). -/
def fxChroma7 (c : Int) : Int :=
  let p := fxPow c 7
  fxSqrt (fxDiv p (p + 25 ^ 7 * fxOne))

/-- The difference of two hues and their mean, for chromas whose product is `cc`; with a product of 0 the difference is 0 and the mean is
the sum (R137). -/
def hueTerms (cc h1 h2 : Int) : Int × Int :=
  let turn := 360 * fxOne
  let d := h2 - h1
  let m := h1 + h2
  if cc = 0 then (0, m)
  else if d.natAbs ≤ 180 * fxOne then (d, m / 2)
  else (if 0 < d then d - turn else d + turn, if m < turn then (m + turn) / 2 else (m - turn) / 2)

/-- The CIEDE2000 distance of two colours `[L, a, b]` with the weights `[KL, KC, KH]`, all in fixed point. -/
def ciede2000 (k x y : List Int) : Int :=
  let g (l : List Int) (n : Nat) : Int := l.getD n 0
  let sq (a : Int) : Int := fxMul a a
  let hyp (a b : Int) : Int := fxSqrt (sq a + sq b)
  let c7 := fxChroma7 ((hyp (g x 1) (g x 2) + hyp (g y 1) (g y 2)) / 2)
  let scale := fxOne + (fxOne - c7) / 2
  let a1 := fxMul scale (g x 1)
  let a2 := fxMul scale (g y 1)
  let c1 := hyp a1 (g x 2)
  let c2 := hyp a2 (g y 2)
  let hm := hueTerms (fxMul c1 c2) (fxHue (g x 2) a1) (fxHue (g y 2) a2)
  let dL := g y 0 - g x 0
  let dC := c2 - c1
  let dH := 2 * fxMul (fxSqrt (fxMul c1 c2)) (fxSin (fxRad (hm.1 / 2)))
  let lm := (g x 0 + g y 0) / 2 - 50 * fxOne
  let cm := (c1 + c2) / 2
  let cosDeg (n : Int) (off : Int) : Int := fxCos (fxRad (n * hm.2 + off * fxOne))
  let t := fxOne - fxMul (fxFrac 17 100) (cosDeg 1 (-30)) + fxMul (fxFrac 24 100) (cosDeg 2 0) +
    fxMul (fxFrac 32 100) (cosDeg 3 6) - fxMul (fxFrac 20 100) (cosDeg 4 (-63))
  let sL := fxOne + fxDiv (fxMul (fxFrac 15 1000) (sq lm)) (fxSqrt (20 * fxOne + sq lm))
  let sC := fxOne + fxMul (fxFrac 45 1000) cm
  let sH := fxOne + fxMul (fxMul (fxFrac 15 1000) cm) t
  let turn := 30 * fxExpNeg (-sq ((hm.2 - 275 * fxOne) / 25))
  let rT := -2 * fxMul (fxChroma7 cm) (fxSin (fxRad (2 * turn)))
  let eL := fxDiv dL (fxMul (g k 0) sL)
  let eC := fxDiv dC (fxMul (g k 1) sC)
  let eH := fxDiv dH (fxMul (g k 2) sH)
  fxSqrt (max 0 (sq eL + sq eC + sq eH + fxMul rT (fxMul eC eH)))

/-! ### The unit's result -/

/-- The fixed-point value of an FP32 code, rounded down; 0 for a code that is no finite value. -/
def fxOfFp (c : Nat) : Int :=
  match fpDecode fp32 c with
  | .fin neg m e => (if neg then -1 else 1) * (if 0 ≤ e + 64 then (m : Int) * 2 ^ (e + 64).toNat else (m : Int) / 2 ^ (-(e + 64)).toNat)
  | _ => 0

/-- Whether an FP32 code is finite. -/
def fpFinite (c : Nat) : Bool :=
  match fpDecode fp32 c with
  | .fin _ _ _ => true
  | _ => false

/-- Whether a colour lies where R137 bounds the error: L* from 0 to 100, a* and b* of at most 128 in magnitude. -/
def labBounded (l : List Nat) : Bool :=
  l.all fpFinite && decide (0 ≤ fxOfFp (l.getD 0 0)) && decide (fxOfFp (l.getD 0 0) ≤ 100 * fxOne) &&
  decide ((fxOfFp (l.getD 1 0)).natAbs ≤ 128 * fxOne) && decide ((fxOfFp (l.getD 2 0)).natAbs ≤ 128 * fxOne)

/-- The FP32 code of a fixed-point number that is not negative. -/
def fpOfFx (a : Int) : Nat := (fpRoundRat fp32 false false a.toNat (2 ^ 64)).1

/-- The distance that the unit computes in FP32 from the codes of the weights, the measured and the target colour (R137): an open code, held
to within 0.0005 of the exact distance wherever the rule bounds it. -/
def deltaE (ks lab target : List Nat) : Nat :=
  let open_ := (Config.deltaE ks lab target).toNat
  let exact := ciede2000 (ks.map fxOfFp) (lab.map fxOfFp) (target.map fxOfFp)
  let near := fpFinite open_ && decide (20000 * (fxOfFp open_ - exact).natAbs ≤ 10 * fxOne)
  if labBounded lab && labBounded target && !near then fpOfFx exact else open_

end Sys2Proof.Machine
end

