-- ==== Sys2Proof/Machine/State.lean ====
section
/-!
DEFINITION. The state of the module as plain data.  Registers are held field by field in the store
`regs` under the names of `Machine/Regs.lean`; everything the spec gives the module that is no register
is held in the structures below.
-/

namespace Sys2Proof.Machine

/-- A store: key and value pairs with strictly rising keys; a key not listed reads as the store's default. -/
abbrev Store (α : Type) := List (Nat × α)

/-- The access types of R10. -/
inductive Acc where
  | rw | ro | wo | w1c | w1s | rc
deriving DecidableEq, Repr

/-- The values a field accepts (R591): any, a range, the multiples of `m` in a range, or the listed ones. -/
inductive Lim where
  | any
  | range (lo hi : Nat)
  | step (lo hi m : Nat)
  | only (vs : List Nat)
deriving DecidableEq, Repr

/-- A register field: offset in the block, lowest bit, width, reset value, access type, accepted values,
and whether it has a shadow that takes effect at a job epoch (R20). -/
structure Fld where
  off : Nat
  lo : Nat
  w : Nat
  rst : Nat
  acc : Acc
  lim : Lim
  sh : Bool
deriving DecidableEq, Repr

/-- The reasons a step can stop with a fault.  No rule of the spec gives the module a machine stop: none is raised. -/
inductive Fault where
  /-- Never raised: an access to an absent address answers BUS_ERROR in the response instead (R171).  Safe. -/
  | absent
deriving DecidableEq, Repr

/-- The reasons a command has no meaning. -/
inductive Refusal where
  /-- Raised by the dispatch for a command whose meaning is not written yet.  Safe. -/
  | notModelled (mnemonic : String)
deriving DecidableEq, Repr

/-- The response of the last access that has one: its status code (R585) and the bytes it returned. -/
structure Resp where
  status : Nat := 0
  data : List Nat := []
  poisoned : Bool := false
deriving DecidableEq, Repr

/-- A capture record of R468: rising edge, seconds (low 32 bits) and nanoseconds. -/
structure CapRec where
  rising : Bool := false
  sec : Nat := 0
  ns : Nat := 0
deriving DecidableEq, Repr

/-- A PTP stamp record of R471. -/
structure PtpRec where
  msg : Nat := 0
  domain : Nat := 0
  seq : Nat := 0
  sec : Nat := 0
  ns : Nat := 0
deriving DecidableEq, Repr

/-- The time base (R454): `time` counts units of 2^-32 ns since second 0, `inc` is the increment per tick in
the same units, `latch` the reading each initiator latched (R456), `holdFrom` the last restart of the
holdover timer (R463), `genFired` the highest instant each generator has fired or skipped, and `jumps` the forward steps as from
and to (R464). -/
structure TimeBase where
  time : Nat := 0
  inc : Nat := 8589934592
  latch : Store Nat := []
  holdFrom : Option Nat := none
  genFired : Store Nat := []
  jumps : List (Nat × Nat) := []
  caps : Store (List CapRec) := []
  ptpTx : Store (List PtpRec) := []
  ptpRx : Store (List PtpRec) := []
deriving DecidableEq, Repr

/-- A record of the error log (R198), the repeat count and the injection mark included. -/
structure LogRec where
  at_ : Nat := 0
  sec : Nat := 0
  ns : Nat := 0
  kind : Nat := 0
  blk : Nat := 0
  sub : Nat := 0
  rep : Nat := 0
  addr : Nat := 0
  synd : Nat := 0
  status : Nat := 0
  init : Nat := 0
  inj : Bool := false
deriving DecidableEq, Repr

/-- A line that a slice of the shared cache holds (R182): the slice, 4 where none holds it, its way, and whether it is dirty. -/
structure CacheLine where
  slice : Nat := 4
  way : Nat := 0
  dirty : Bool := false
deriving DecidableEq, Repr

/-- A stream prefetcher (R183): the address of the last line read, the stride, the lines fetched ahead of it, the lines read since its last
hit, and the end of a declared stream. -/
structure Prefetch where
  last : Int := 0
  stride : Int := 64
  ahead : Nat := 0
  idle : Nat := 0
  stop : Option Nat := none
deriving DecidableEq, Repr

/-- The error log, buckets, drains and corrected-error rates (R182, R185, R186, R197, R200): `log` the unread records,
oldest first, `logIdx` the index of the oldest, `buckets` the slice of each bucket, `drain` each slice's standing (0 with its
buckets, 1 draining, 2 draining with a return asked for, 3 drained, 4 without buckets after a fence), `lines` the DRAM
lines that the slices hold, by address, `word` the bad bits of 64-bit words of those lines (32 added where no injection set them), `pf` the
prefetchers of each cluster's port, `miss` its latest misses, newest first, `found` the errors that a record's merge or a replacement
found and that are not yet reported, `ceAt` the times of the corrected errors of each unit
within the last second, `ceHigh` the units whose event is not yet rearmed, `scrubLine` the patrol scrubber's next line, `scrubDue` when it is due, in nanoseconds × the number of lines. -/
structure MemUnit where
  log : List LogRec := []
  logIdx : Nat := 0
  buckets : Store Nat := []
  drain : Store Nat := []
  lines : Store CacheLine := []
  word : Store Nat := []
  pf : Store (List Prefetch) := []
  miss : Store (List Nat) := []
  found : List LogRec := []
  ceAt : Store (List Nat) := []
  ceHigh : Store Nat := []
  scrubLine : Nat := 0
  scrubDue : Nat := 0
deriving DecidableEq, Repr


/-- The inside of one Stirrup port: the count, the running edge total, the interpolation base, the edges of the
present direction run newest first as time and total, the speed as counts over nanoseconds, the direction
of the last edge, the filtered levels, the illegal events of the last millisecond, the SSI word and read in progress,
and the follower alignment of R386. -/
structure StpPort where
  count : Int := 0
  total : Int := 0
  baseAt : Nat := 0
  lastEdge : Option Nat := none
  run : List (Nat × Int) := []
  vNum : Int := 0
  vDen : Nat := 1
  back : Bool := false
  sameRun : Nat := 0
  a : Bool := false
  b : Bool := false
  illegal : List Nat := []
  lastIllegal : Nat := 0
  lastBad : Nat := 0
  ssiPrev : Option Nat := none
  ssiStart : Option Nat := none
  ssiPeriod : Nat := 0
deriving DecidableEq, Repr

/-- How a port stands to module 0's position (R386): `diff` the last difference of a wired port, `good` and `bad`
the runs of small and large differences, `off` the wired offset in effect, `sys` and `sysAt` the last
position of a follower and its time, `spd` its speed in counts × 256 per second. -/
structure Follow where
  good : Nat := 0
  bad : Nat := 0
  off : Int := 0
  sys : Int := 0
  sysAt : Nat := 0
  spd : Int := 0
  seen : Bool := false
deriving DecidableEq, Repr

/-- A probe record of R430: edge, seconds, nanoseconds and both positions. -/
structure PrbRec where
  rising : Bool := false
  sec : Nat := 0
  ns : Nat := 0
  pos0 : Int := 0
  pos1 : Int := 0
deriving DecidableEq, Repr

/-- A verdict commit as a slot holds it (R27, R436): verdict, status, source, degraded mark, place and time. -/
structure Commit where
  verdict : Nat := 3
  missed : Bool := false
  degraded : Bool := false
  fromFb : Bool := false
  pos : Int := 0
  sec : Nat := 0
  ns : Nat := 0
deriving DecidableEq, Repr

/-- An open ejection slot (R432) with the source it takes its commit from, the stage windows that were active at
its part start (R485) and the stages that have reported or are past their due position (R484). -/
structure Slot where
  part : Nat := 0
  start : Int := 0
  target : Int := 0
  deadline : Int := 0
  explicit : Bool := false
  srcFb : Bool := false
  commit : Option Commit := none
  encAffected : Bool := false
  overspeed : Bool := false
  early : List Nat := []
  due : List Nat := []
  textChk : Nat := 0
  reported : Nat := 0
  lateSeen : Nat := 0
  fault : Bool := false
  fbGen : Nat := 0
deriving DecidableEq, Repr

/-- An event queue beside its registers (R588): the sequence number to come, and of the clock edge on which events were last offered its time
and one more, the first sequence number, and the records written, each under its block index and code. -/
structure EvQueue where
  seq : Nat := 0
  at_ : Nat := 0
  first : Nat := 0
  edge : List (Nat × List Nat) := []
deriving DecidableEq, Repr

/-- One ejection unit: its slots, whether it may open slots (R440), the next part number of probe parts, the count of explicit opens
(R438), the highest part start taken since the epoch (R431), and the last accepted probe start. -/
structure EjtUnit where
  slots : Store (Option Slot) := []
  mayOpen : Bool := true
  nextPart : Nat := 0
  opens : Nat := 0
  hiStart : Option Int := none
  lastPrb : Option Int := none
  stopStarts : Bool := false
deriving DecidableEq, Repr

/-- A running pulse of one output: the ejection unit that started it and its end. -/
structure Pulse where
  unit : Nat := 0
  until_ : Nat := 0
deriving DecidableEq, Repr

/-- The field side: pulses per output, the outputs' states held by the safe reaction, raw input levels and when they
changed, probe FIFOs, and strobe pulses as start and end. -/
structure Field where
  pulses : Store (Option Pulse) := []
  held : Nat := 0
  diRaw : Nat := 0
  diSince : Store Nat := []
  diRise : Store Nat := []
  prb : Store (List PrbRec) := []
  stb : Store (Option (Nat × Nat)) := []
  stbEnd : Store Nat := []
deriving DecidableEq, Repr

/-- A merge entry of R354: the declared checks still owed and the reports that have arrived as check number,
verdict and status, and the contexts that were ACTIVE at the part's start (R358). -/
structure Merge where
  part : Nat := 0
  declared : Nat := 0
  reports : List (Nat × Nat × Nat) := []
  dup : Nat := 0
  committed : Bool := false
  degraded : Bool := false
  ctx : Nat := 0
deriving DecidableEq, Repr

/-- A down-sampled row of the fallback inspector (R491): damage and the four channels R, G, B and luminance. -/
structure FbRow where
  damaged : Bool := false
  r : List Nat := []
  g : List Nat := []
  b : List Nat := []
  lum : List Nat := []
deriving DecidableEq, Repr

/-- The fallback inspector's picture of one part on one camera port: its area, the rows so far and the raw lines (damage
and the top 8 bits of each channel R, G, B) waiting to complete a row. -/
structure FbImage where
  port : Nat := 0
  stp : Nat := 0
  part : Nat := 0
  cols : Nat := 0
  nrows : Nat := 0
  rows : List FbRow := []
  wait : List (Bool × List (List Nat)) := []
deriving DecidableEq, Repr

/-- A window of the fallback table (R492, R494). -/
structure FbWin where
  cam : Nat := 0
  stp : Nat := 0
  r : Nat := 0
  x0 : Nat := 0
  y0 : Nat := 0
  w : Nat := 0
  h : Nat := 0
  theta : Nat := 0
  tpl : List Nat := []
deriving DecidableEq, Repr

/-- A zone of the fallback table (R493, R494). -/
structure FbZone where
  cam : Nat := 0
  stp : Nat := 0
  x0 : Nat := 0
  y0 : Nat := 0
  w : Nat := 0
  h : Nat := 0
  lo : List Nat := []
  hi : List Nat := []
deriving DecidableEq, Repr

/-- A fallback table. -/
structure FbTable where
  wins : List FbWin := []
  zones : List FbZone := []
deriving DecidableEq, Repr

/-- Halter: when a stage 7 fault of each source began (a port × 4 plus 0 heartbeat, 1 encoder,
2 not ON, 3 alignment; 8 and 9 the time base's heartbeat and tick), the safe reaction and its due reset,
the self-fault and its due reset, the last kick and the start of Halter's firmware, the `MEM_UE` times of the last second, the fallback results
held as port, part and verdict, the fallback tables by generation, the table being loaded and the rule table. -/
structure Halter where
  s7 : Store (Option Nat) := []
  resetDue : Option Nat := none
  selfAt : Option Nat := none
  lastKick : Option Nat := none
  started : Option Nat := none
  ueAt : List Nat := []
  results : List (Nat × Nat × Nat) := []
  fbGen : Nat := 0
  tables : Store FbTable := []
  shadow : FbTable := {}
  loading : Option (Nat × Nat) := none
  rules : Store (List Nat) := []
  images : List FbImage := []
deriving DecidableEq, Repr

/-- The option bytes in force (R73, R499). -/
structure Options where
  lockstep : Bool := true
  debug : Bool := false
  pcieBoot : Bool := true
  ethBoot : Bool := true
  minSec : Nat := 0
  safeOnStage6 : Bool := true
  resetOnEsc : Bool := true
  windows : Nat := 0xFF
  runPermissive : Nat := 0xFF
  hwdUs : Nat := 1000
  s7PersistMs : Nat := 10
  resetDelayMs : Nat := 100
  restoreParts : Nat := 16
  ueSwitch : Nat := 4
  safe : Nat := 0
  keyHash : List Nat := []
  seq : Nat := 0
deriving DecidableEq, Repr

/-- A sequence record and its page list (R307, R310): entry l × N + j names a page, a swap slot or 0xFFFF. -/
structure KvSeq where
  state : Nat := 0
  pool : Nat := 0
  layers : Nat := 0
  pages : Nat := 0
  part : Nat := 0
  deadline : Nat := 0
  port : Nat := 0
  ctx : Nat := 0
  endStatus : Nat := 0
  crc : Nat := 0
  lens : Store Nat := []
  list : Store Nat := []
deriving DecidableEq, Repr

/-- A page descriptor (R308): reference count, in-flight count, fill, state and pool. -/
structure KvPage where
  refs : Nat := 0
  inflight : Nat := 0
  fill : Nat := 0
  state : Nat := 0
  pool : Nat := 0
deriving DecidableEq, Repr

/-- A copy on write in progress (R327): the writing sequence, its list entry, the page copied and the new page. -/
structure KvCopy where
  seq : Nat := 0
  entry : Nat := 0
  src : Nat := 0
  dst : Nat := 0
deriving DecidableEq, Repr

/-- The key-value cache unit (R307-R337): sequences, pages, copies in progress, swap slots in use, the victims being written out with
the command that waits for each, and the sequences being read back with the pages allocated for them. -/
structure Kvc where
  seqs : Store KvSeq := []
  pages : Store KvPage := []
  copies : List KvCopy := []
  slots : Store Bool := []
  outs : List (Nat × Nat) := []
  ins : List (Nat × List Nat) := []
deriving DecidableEq, Repr

/-- A Traif Link frame (R376, R377): type, source, destination (255 for a broadcast), address or argument, the segment tag of a
`WRITE`, the poison flag, and its content as numbers (the bytes of a `WRITE`). -/
structure Frame where
  type : Nat := 0
  src : Nat := 0
  dest : Nat := 0
  arg : Nat := 0
  tag : Nat := 0
  poison : Bool := false
  data : List Int := []
deriving DecidableEq, Repr

/-- One Traif port (R378, R380-R382): the next hop sequence numbers sent and expected, the frames sent and not acknowledged as
number, replays and frame, the frames that wait for room in the replay buffer, the times of the last valid frame received, of the last
frame sent and of the last `HELLO`, and the protocol agreed with the peer. -/
structure LinkPort where
  tx : Nat := 0
  rx : Nat := 0
  replay : List (Nat × Nat × Frame) := []
  wait : List Frame := []
  rxAt : Nat := 0
  txAt : Nat := 0
  helloAt : Nat := 0
  major : Nat := 0
  minor : Nat := 0
deriving DecidableEq, Repr

/-- An exchange under way (R391, R392): its queue pointer, the segment list's address, the frames still owed as segment, destination and
count, and the standing status of each segment. -/
structure Exch where
  x : Nat := 0
  list : Nat := 0
  owed : List (Nat × Nat × Nat) := []
  sts : List Nat := []
  shown : List Bool := []
deriving DecidableEq, Repr

/-- A vote (R394): the refusal cause, 0 for accept, whether `COMPUTE_OUT` reads 1, and the mask of active clusters. -/
structure Vote where
  cause : Nat := 0
  out : Bool := false
  act : Nat := 0
deriving DecidableEq, Repr

/-- A pending epoch (R393, R394): its number, port, position and `LNK_EPOCH_CFG`, when it was announced, the modules that vote, the votes
so far, and whether it is committed, with the modules out of compute and the active clusters of each that the commit names. -/
structure Epoch where
  num : Nat := 0
  port : Nat := 0
  pos : Int := 0
  cfg : Nat := 0
  since : Nat := 0
  voters : List Nat := []
  votes : Store (Option Vote) := []
  committed : Bool := false
  out : Nat := 0
  acts : List Nat := []
deriving DecidableEq, Repr

/-- Traif Link beside its registers: the ports, `MODULES` and the system identifier in effect, when each module was last heard, the
pending epoch, the generation of each barrier, the barrier commands that wait as queue pointer, number, generation and mask, at module 0
the arrivals as number, generation, module and mask with the lowest generation not discarded, the releases to come as number,
generation, time and whether the masks differed, the exchanges under way, the system snapshot to come as port and position, the modules
out of compute and the active clusters of each (R408), the live switch under way as its time and the positions it took effect
at, with this module's report (0 none, 1 success, 2 failure) and the reports at module 0, whether a revert is due (R402), the lane of the recovered clock
(R383, R541), whether the running job is ending (R396), and the result version of the running cluster image (R400). -/
structure Link where
  ports : Store LinkPort := []
  modules : Nat := 1
  sysid : Nat := 0
  heard : Store Nat := []
  epoch : Option Epoch := none
  gens : Store Nat := []
  waits : List (Nat × Nat × Nat × Nat) := []
  arrived : List (Nat × Nat × Nat × Nat) := []
  least : Store Nat := []
  rels : List (Nat × Nat × Nat × Bool) := []
  exch : List Exch := []
  snap : Option (Nat × Int) := none
  out : Nat := 0
  acts : List Nat := []
  upg : Option (Nat × List Int) := none
  mine : Nat := 0
  reports : Store Nat := []
  revert : Bool := false
  clkLane : Option Nat := none
  ending : Bool := false
  resultVer : List Nat := []
deriving DecidableEq, Repr


/-- An entry of the patch table (R398). -/
structure Patch where
  cam : Nat := 0
  stp : Nat := 0
  modulus : Nat := 1
  residue : Nat := 0
  x0 : Nat := 0
  y0 : Nat := 0
  w : Nat := 0
  h : Nat := 0
  margin : Nat := 0
  minCount : Nat := 64
  target : List Nat := []
  reject : Nat := 0
  recheck : Nat := 0
deriving DecidableEq, Repr

/-- The job a module has taken from its descriptor (R397). -/
structure Job where
  ident : List Nat := []
  digest : List Nat := []
  declared0 : Nat := 0
  declared1 : Nat := 0
  patches : List Patch := []
  artAccept : List (Nat × Bool) := []
  calib : List (List Nat) := []
deriving DecidableEq, Repr

/-- What leaves the module for the outside: camera trigger packets, Traif Link frames (port, hop sequence number, whether their CRC is right, contents, bytes),
Ethernet frames, PCI Express writes, serial bytes, requests to a regulator, copies written to the identity memory, console reports, control commands to a camera, requests of a network boot, a burst on an encoder pair. -/
inductive Out where
  | trigger (port : Nat) (k : Int) (at_ delay : Nat)
  | frame (port seq : Nat) (good : Bool) (f : Frame) (bytes : List Nat)
  | eth (port : Nat) (bytes : List Nat) (goodFcs : Bool)
  | host (addr : Nat) (bytes : List Nat) (poisoned : Bool)
  | serial (byte : Nat)
  | avs (rail point : Nat)
  | idWrite (copy : Nat) (bytes : List Nat)
  | console (values : List Int)
  | control (port reg : Nat)
  | dhcp
  | tftp (addr : Nat) (file : List Nat) (block : Nat)
  | ssiBurst (port cycles hz : Nat)
deriving DecidableEq, Repr

/-- The factory program (R95-R106): whether it runs, the encoder type found (0 none, 1 incremental, 2 SSI), whether the first
motion has set the forward direction, the camera's maximum line rate, the taught distance and the valve delay in µs, the
teach-in under way as unpaired codes with their verdicts and measurements, the code positions not yet past the photo-eye, whether the
console has set the valve delay, when the present listening of R96 began with its run of counts in one direction and whether that reached
16, and its counters. -/
structure Factory where
  on : Bool := false
  enc : Nat := 0
  dirSet : Bool := false
  maxRate : Nat := 0
  dist : Option Int := none
  valveUs : Nat := 3000
  teach : Option (List (Int × Bool) × List Int) := none
  teachFail : Nat := 0
  codes : List Int := []
  valveSet : Bool := false
  listenAt : Nat := 0
  run : Int := 0
  run16 : Bool := false
  good : Nat := 0
  bad : Nat := 0
  unmatched : Nat := 0
deriving DecidableEq, Repr

/-- The PMBus sideband (R53, R54): the values of the last refresh, the latched status bits, whether `PMB_ALERT_N` is asserted
and whether its condition stands. -/
structure Pmbus where
  vinMv : Nat := 12000
  iinMa : Nat := 0
  plate : Int := 0
  hot : Int := 0
  pinMw : Nat := 0
  cml : Bool := false
  vinUv : Bool := false
  vinOv : Bool := false
  tempBad : Bool := false
  alert : Bool := false
deriving DecidableEq, Repr

/-- The reset controller, boot and bank swap beside their registers: whether the module is in reset, the sources still
standing (1 brown-out, 2 pin, 8 thermal) and when the last one ended (R67), whether straps are sampled at the end; the boot
phase (0 reset ended, 1 Halter image, 2 management boot image, 3 DRAM before the further images, 4 further images, 5 DRAM
first, 6 waiting for the host, 7 network, 8 complete, 9 stopped); the swap record (R88, R89) with no active bank while it is
blank and the active bank that a trial under way leaves; the address and the file name of a network boot (R85); the identity record in
use as bytes, a write of a copy under way and the changes waiting for the next write (R60); what the record gave beside its registers (R7,
R57): the installation identity, the last job reference, and of Stirrup port 1 the distance, the counts per metre and the valve delay; the
roles the factory gives the clusters of this grade (R405): 0 active, 1 spare, 2 disabled. -/
structure Sys where
  inReset : Bool := false
  sources : List Nat := []
  srcEnd : Nat := 0
  sample : Bool := false
  pinLow : Option Nat := none
  phase : Nat := 0
  dramReady : Bool := false
  fromDram : Bool := false
  bank : Nat := 0
  imgNext : Nat := 0
  released : List Nat := []
  swapState : Nat := 0
  swapActive : Option Nat := none
  verifying : Bool := false
  badA : Bool := false
  badB : Bool := false
  netStart : Nat := 0
  idReading : Bool := false
  idRetries : Nat := 0
  idDone : Bool := false
  idUse : Option (List Nat) := none
  idWriting : Option (Nat × List Nat) := none
  idStage : List (Nat × List Nat) := []
  install : List Nat := []
  lastJob : List Nat := []
  dist1 : Option (Int × Nat × Nat) := none
  swapFrom : Nat := 0
  netAddr : Nat := 0
  netFile : List Nat := []
  vcxp : Bool := false
  roles : List Nat := List.replicate 32 0 ++ [1, 1]
  factory : Factory := {}
  pmb : Pmbus := {}
  lastAt : Store Nat := []
deriving DecidableEq, Repr

/-- An exit from a sleep state: the state left, the step, when it began, whether it has been repeated, whether it has
stopped. -/
structure ExitRun where
  src : Nat := 0
  step : Nat := 1
  since : Nat := 0
  again : Bool := false
  stopped : Bool := false
deriving DecidableEq, Repr

/-- A cluster rail (R520, R522-R524): the point whose voltage was last acknowledged, and the request outstanding as its point and when it
was made. -/
structure Rail where
  ack : Nat := 0
  req : Option (Nat × Nat) := none
deriving DecidableEq, Repr

/-- Power beside its registers: a sleep entry under way, an exit under way, the functions with a saved copy (R507), the
core power-offs held until their core waits (R505), since when `PCIE_PERST_N` is low, the domains a sleep state switched off that come
back by themselves (R515), the Stirrup ports in SSI mode and the station address as the wake logic holds them in S3 and S4, the register accesses held until S0 as initiator, address and data (R514);
the cluster rails, the clusters whose clock is divided by 4 (R535), the clusters whose clock runs, the clock changes left in the
activity window, when it began and whether a start was held back in it (R532); the power samples of the period in mW, the energy in nJ
not yet counted, the class values in µW by class × 8 + point, the class of the last tile of each cluster, the periods over the cap in a
row (R527-R530); the droop episodes by rail (R533); when the thermal limit last fell in the present run and when it last rose (R535). -/
structure Power where
  entry : Option Nat := none
  exit : Option ExitRun := none
  saved : Store Bool := []
  pendOff : Nat := 0
  perstLow : Option Nat := none
  offs : List Nat := []
  ssi : Nat := 0
  mac : Option (List Nat) := none
  accs : List (Nat × Nat × Option Nat) := []
  rails : Store Rail := []
  slow : Nat := 0
  clk : Nat := 0
  left : Nat := 2
  winAt : Option Nat := none
  held : Bool := false
  samples : List Nat := []
  energy : Nat := 0
  cls : Store Nat := []
  ran : Store Nat := []
  overRun : Nat := 0
  droop : Store (Option Nat) := []
  fell : Option Nat := none
  rose : Option Nat := none
deriving DecidableEq, Repr

/-- A line under way at a camera port (R118): its number by the port's own count, trigger index, line number in its frame,
position, time and module time of the trigger instant, whether it is late or corrupt, whether it is the first since the stream started (R149), whether its first pixel has arrived, whether
the intake had no space for it (R144), its samples left-aligned to 16 bits, and its status once judged (R124). -/
structure CamLine where
  idx : Nat := 0
  k : Int := 0
  row : Nat := 0
  pos : Int := 0
  sec : Nat := 0
  ns : Nat := 0
  trigAt : Nat := 0
  late : Bool := false
  bad : Bool := false
  fresh : Bool := false
  first : Bool := false
  full : Bool := false
  pix : List Nat := []
  got : Nat := 0
  status : Nat := 0
deriving DecidableEq, Repr

/-- A camera port beside its registers: the lines in flight and the judged lines the Tannery has not taken yet, both oldest first,
the next line number, whether the next line is the first of a stream and the position where that stream starts (R149); the high-water position (R115) and instant (R464), the input edge last looked at (R114), the last trigger sent, the position of a returned link
that waits for a part boundary and whether a mismatch bars triggers (R113), when a stop began (R128); discovery (R111): its step,
when that step began, the lanes answering, the camera's identity, lanes, rate, minimum line period and first pixel format, the
link at job start, the last heartbeat, power over coax; the part whose lines are counted for R127 with its damaged lines and the
standing of the worst; the statistics window under way (R130) as sums, lines and the fields it runs under; the serial buffers and
the end of a trigger pulse of the parallel port. -/
structure CamPort where
  lines : List CamLine := []
  judged : List CamLine := []
  next : Nat := 0
  fresh : Bool := true
  from_ : Int := 0
  hw : Option Int := none
  timeHw : Nat := 0
  diSeen : Nat := 0
  lastSent : Option Nat := none
  resume : Option Int := none
  barred : Bool := false
  stopAt : Option Nat := none
  step : Nat := 0
  since : Option Nat := none
  answered : Nat := 0
  ident : List Nat := []
  lanes : Nat := 0
  rate : Nat := 0
  minNs : Nat := 0
  fmt : Nat := 0
  jobLink : List Nat := []
  hbAt : Nat := 0
  power : Bool := false
  part : Option Nat := none
  bad : Nat := 0
  worst : Nat := 0
  reported : Bool := false
  acc : Store Nat := []
  accLines : Nat := 0
  win : Option (Nat × Nat × Nat) := none
  tx : List Nat := []
  rx : List Nat := []
  cc0 : Option Nat := none
deriving DecidableEq, Repr


/-- A line inside the Tannery (R142): its trigger index, position, time, status, pixels received and samples. -/
structure TanLine where
  k : Int := 0
  pos : Int := 0
  sec : Nat := 0
  ns : Nat := 0
  status : Nat := 0
  got : Nat := 0
  pix : List Nat := []
deriving DecidableEq, Repr

/-- The Tannery's configuration a part is prepared with (R154): for each port alignment, the delays of R, G and B, the pattern
phase, `FF_EN` and the table address; and the region descriptors as bytes. -/
structure TanCfg where
  ports : List (List Nat) := []
  regions : List (List Nat) := []
deriving DecidableEq, Repr

/-- A part in preparation on one port: its Stirrup port, its start, its aligned lines, whether it has no preparation result
(R149), whether its last line has passed, whether its groups are no longer written (R158), the statuses of R146 that occurred,
whether its result was reported, the rows committed of each region, and its configuration. -/
structure TanPart where
  part : Nat := 0
  stp : Nat := 0
  start : Int := 0
  chans : Nat := 1
  rows : List TanLine := []
  skip : Bool := false
  ended : Bool := false
  off : Bool := false
  seen : List Nat := []
  reported : Bool := false
  done : Store Nat := []
  cfg : TanCfg := {}
deriving DecidableEq, Repr

/-- The Tannery's side of one port: the corrected lines kept for alignment, newest first, the lines received since the port's start
(R149), the position where that start lies, the part of the last line received, the last line and the last aligned line that qualify for
concealment as part and samples (R126, R148), and the parts in preparation. -/
structure TanPort where
  hist : List TanLine := []
  count : Nat := 0
  last : Option (Option Nat) := none
  good : Option (Nat × List Nat) := none
  goodOut : Option (Nat × List Nat) := none
  from_ : Int := 0
  parts : List TanPart := []
deriving DecidableEq, Repr

/-- A prepared-batch ring entry not yet free (R156): its index, the place, the length and the span of its data in the arena, whether it has been
released, and whether a fence made it invalid (R170). -/
structure TanEntry where
  idx : Nat := 0
  off : Nat := 0
  len : Nat := 0
  span : Nat := 0
  rel : Bool := false
  bad : Bool := false
deriving DecidableEq, Repr

/-- The Tannery beside its registers: its ports, the next sequence number, the entries not yet free with the arena's write offset,
the queued artwork descriptors and those whose decode completed OK, a running dictionary load, the dictionaries as byte strings with token numbers, the configuration
in effect, those before with the positions at which each ended, newest first (R154), and the address ranges of the data that a fence made
invalid (R170). -/
structure Tan where
  ports : Store TanPort := []
  seq : Nat := 0
  entries : List TanEntry := []
  head : Nat := 0
  art : List Nat := []
  artOk : List Nat := []
  loading : Option (Nat × Nat) := none
  dicts : Store (List (List Nat × Nat)) := []
  cfg : TanCfg := {}
  prev : List (List Int × TanCfg) := []
  fenced : List (Nat × Nat) := []
deriving DecidableEq, Repr

/-- A copy of the colorimetry unit's calibration: weights, matrices, black offsets and table entries (R139). -/
structure ClmCopy where
  ks : List Nat := []
  mat : List Nat := []
  blk : List Nat := []
  tab : Store Nat := []
deriving DecidableEq, Repr

/-- The colorimetry unit beside its registers: the shadow and the active table entries by set × 8192 + index, a table load under
way as address and set (R141), the copy before the last epoch with the positions at which it ended, and the results of the patches
judged: Stirrup port, part, patch, valid pixels, L*, a*, b*, ΔE00 and verdict (R138). -/
structure Clm where
  shadow : Store Nat := []
  tab : Store Nat := []
  load : Option (Nat × Nat) := none
  prev : List (List Int × ClmCopy) := []
  results : List (List Nat) := []
deriving DecidableEq, Repr



/-- A tile as a cluster runs it (R204-R246): the queue pointer of its command, its index, the run (0 first, 1 rerun, 2 on a
substitute), when it started, the registers of R211 (vector registers as numbers of 2048 bits, accumulators row by row as
accumulator × 64 + row), the loop stack innermost first as start, end and count, the return stack, the work count, the sticky flags
of R260, the mismatch flag with the injection it comes from (1 this run, 2 the rerun too), how far the residues that vector bytes and
accumulator lanes carry lie above those of their data (R282), the upsets of engine data still to come, the scratchpad lines written, the stores
that have not been released newest first, whether it has executed `end`, the kernel block's code object, shard and segments as
base, bytes and flags, and of a fused command's tile: that it is one, the layer of a stripe in which an upset struck it, the pages that it
reads (R329), and the values that it leaves in the command's workspace (R321). -/
structure Tile where
  q : Nat := 0
  tile : Nat := 0
  stage : Nat := 0
  since : Nat := 0
  pc : Nat := 0
  s : Store Nat := []
  p : Store Bool := []
  a : Store Nat := []
  v : Store Nat := []
  acc : Store Nat := []
  loops : List (Nat × Nat × Nat) := []
  rets : List Nat := []
  work : Nat := 0
  flags : Nat := 0
  mism : Bool := false
  inj : Nat := 0
  off : Store Nat := []
  ups : List (Nat × Nat × Nat) := []
  lines : Store Bool := []
  buf : List (Nat × List Nat) := []
  ended : Bool := false
  code : Nat := 0
  len : Nat := 0
  segs : List (List Nat) := []
  fused : Bool := false
  layer : Nat := 0
  pages : List Nat := []
  vals : List Nat := []
deriving DecidableEq, Repr

/-- A line of an instruction cache (R247): its address ÷ 64, its bytes, and the 64-bit words with two bad bits (R181). -/
structure IcLine where
  addr : Nat := 0
  bytes : List Nat := []
  bad : Nat := 0
deriving DecidableEq, Repr

/-- A cluster beside its registers: the tile it runs, the lines in its instruction cache (R247), the times of its tiles that
completed `RESIDUE_RETRY_OK` in the last second (R194), when a self-test began (R407), the role that the next epoch gives it (R405), and whether it has been suspect without a passed self-test
since (R195). -/
structure Clu where
  tile : Option Tile := none
  ic : List IcLine := []
  retryAt : List Nat := []
  test : Option Nat := none
  nextRole : Option Nat := none
  untested : Bool := false
deriving DecidableEq, Repr

/-- A command in flight (R339, R342): its descriptor, its time key (none lies above every key), the dependencies still waited for and whether one
ended badly (R352), whether it became ready (R364) and its kernel block was checked (R215), its shard count, the tiles not yet
dispatched as half-open ranges and those of them that still wait for rows, pages or earlier tiles (R303, R317, R321), the lowest tile that
ended with a terminating status with that status (R245), which in a batch command ends its segment alone, whether its deadline has been reached
(R350) and its context was active at its part's start (R358), whether a tile was rerun, whether it starts no further tile because its deadline has passed (R350) or a fence aborted it, the status and tile it ends with, whether it has
completed, its record while that waits for room (R346), what its record holds of R306 and R363, and the parameter block and the layers
(sources, then block) of a stripe group that has begun (R301); a batch command's segment entries and a sequence command's operations
stand in the latter's place, with the status of each, `0xFFFF` while it is still to run, `0xFFFE` once a tile of it was rerun (R313, R326);
and the values in the workspace of an attention command by tile (R321). -/
structure Cmd where
  q : Nat := 0
  idx : Nat := 0
  block : Nat := 0
  tiles : Nat := 0
  kind : Nat := 0
  dlKind : Nat := 3
  check : Nat := 0xFF
  flags : Nat := 0
  deadline : Nat := 0
  part : Nat := 0xFFFFFFFF
  vaddr : Nat := 0
  tag : Nat := 0
  key : Option Int := none
  waits : List Nat := []
  depBad : Bool := false
  ready : Bool := false
  begun : Bool := false
  shards : Nat := 1
  code : Nat := 0
  len : Nat := 0
  entry : Nat := 0
  segs : List (List Nat) := []
  todo : List (Nat × Nat) := []
  wait : List (Nat × Nat) := []
  ended : Option (Nat × Nat) := none
  fails : Option (Nat × Nat) := none
  late : Bool := false
  atStart : Bool := false
  retry : Bool := false
  missed : Bool := false
  aborted : Bool := false
  final : Option (Nat × Nat) := none
  done : Bool := false
  record : Option (List Nat) := none
  layer : Nat := 0
  failed : Nat := 0
  batch : Option Nat := none
  par : List Nat := []
  lays : List (List Nat) := []
  sts : List Nat := []
  ws : Store (List Nat) := []
deriving DecidableEq, Repr

/-- A tile that waits for the tile boundary of a given cluster (R192): a rerun, or a run on a substitute. -/
structure Forced where
  cl : Nat := 0
  q : Nat := 0
  tile : Nat := 0
  stage : Nat := 0
  hung : Bool := false
  inj : Nat := 0
deriving DecidableEq, Repr

/-- A resident context (R356, R357): its table entry as bytes and the logarithm of its shard count (R368). -/
structure Ctx where
  entry : List Nat := []
  log2L : Nat := 0
deriving DecidableEq, Repr

/-- A segment request the batch former has read (R361): when it was read, its fields, the Stirrup port
and the key that its sequence's record gave it when it entered a batch, and whether its deadline has been reached (R350). -/
structure SegReq where
  at_ : Nat := 0
  seq : Nat := 0
  kind : Nat := 0
  final : Bool := false
  start : Nat := 0
  count : Nat := 0
  check : Nat := 0
  part : Nat := 0
  rows : Nat := 0
  mask : Nat := 0
  port : Nat := 0
  key : Option Int := none
  late : Bool := false
deriving DecidableEq, Repr

/-- A batch buffer in use (R360, R363): its table entry as descriptor, X area, verdict array, chain address, chain length and queue;
whether it is still being filled; its segments in entry order; the index of its chain's first
command; and the standing status of its chain's commands. -/
structure Batch where
  tab : List Nat := []
  filling : Bool := true
  segs : List SegReq := []
  first : Nat := 0
  status : Nat := 0
deriving DecidableEq, Repr

/-- The scheduler beside its registers: the producer indices, when a starting queue began to start (R345), the commands in flight, the tiles bound to a cluster, the contexts, the
requests the batch formers hold, and the batch buffers in use by context × 4 + buffer. -/
structure Sched where
  prod : Store Nat := []
  starts : Store Nat := []
  cmds : List Cmd := []
  forced : List Forced := []
  ctx : Store Ctx := []
  reqs : Store (List SegReq) := []
  bufs : Store (Option Batch) := []
deriving DecidableEq, Repr

/-- A segment of a DMA transfer (R565, R566): its descriptor's address and fields, its status once it has one, and the bytes it wrote. -/
structure DmaSeg where
  addr : Nat := 0
  src : Nat := 0
  dst : Nat := 0
  len : Nat := 0
  flags : Nat := 0
  next : Nat := 0
  tag : Nat := 0
  status : Option Nat := none
  wrote : Nat := 0
deriving DecidableEq, Repr

/-- A DMA channel beside its registers (R565-R583): whether a descriptor is to be run at `DMAn_CUR`, the last descriptor run, the segments
of the transfer under way, whether its last descriptor has been fetched, whether it has failed and the failure of a descriptor fetch
as segment number and status, a record that waits for room with its event, the operations of the running segment still to be done
and those done in this window (R574), and the transmit frame so far with its poison. -/
structure Dma where
  armed : Bool := false
  last : Option Nat := none
  segs : List DmaSeg := []
  closed : Bool := false
  failed : Bool := false
  fetch : Option (Nat × Nat) := none
  record : Option (List Nat × Bool × Bool) := none
  left : Nat := 0
  used : Nat := 0
  frame : List Nat := []
  bad : Bool := false
deriving DecidableEq, Repr

/-- The DMA engine: its channels, the operations done in this window, and when it began (R574). -/
structure DmaEngine where
  ch : Store Dma := []
  total : Nat := 0
  win : Nat := 0
deriving DecidableEq, Repr

/-- A serial lane beside its registers: the rate last trained, an injection that waits for the next live block (R551), and up to when the
checker's bits have been counted (R549). -/
structure Sds where
  last : Nat := 0
  inj : Bool := false
  sync : Option Nat := none
deriving DecidableEq, Repr

/-- An Ethernet port beside its registers: the frames received that no transfer has taken yet, the frames to send with their poison, and
when a received pause ends (R553). -/
structure EthPort where
  rx : List (List Nat) := []
  tx : List (List Nat × Bool) := []
  pauseTo : Nat := 0
deriving DecidableEq, Repr

/-- The PCI Express endpoint beside its registers: what the host has written to its configuration space and the MSI-X table, by 32-bit
word (R557). -/
structure Pcie where
  cfg : Store Nat := []
  msix : Store Nat := []
deriving DecidableEq, Repr


/-- The state of the module.  `now` is the module's own time in nanoseconds since the model's start, `regs`
the register fields as software reads them, `active` the copies of shadowed fields that are in effect
(R20), `live` the running counters behind the snapshot sets (R18), `mem` the bytes of the physical address
space (R171), `poison` the poisoned lines and words (R178, R181), `errs` the latent symbol or bit errors
left by injection (R203), `free` the number of open values already taken. -/
structure State where
  now : Nat := 0
  pending : List Instr := []
  regs : Store Word := []
  active : Store Word := []
  live : Store Word := []
  mem : List Host.Cell := []
  poison : Store Bool := []
  errs : Store Nat := []
  free : Nat := 0
  resp : Resp := {}
  evqSeq : Store EvQueue := []
  tb : TimeBase := {}
  memu : MemUnit := {}
  stp : Store StpPort := []
  follow : Store Follow := []
  ejt : Store EjtUnit := []
  field : Field := {}
  merge : Store (Option Merge) := []
  hlt : Halter := {}
  opt : Options := {}
  kvc : Kvc := {}
  cam : Store CamPort := []
  tan : Tan := {}
  clm : Clm := {}
  job : Job := {}
  jobNext : Option Job := none
  out : List Out := []
  sys : Sys := {}
  pwr : Power := {}
  clu : Store Clu := []
  sch : Sched := {}
  lnk : Link := {}
  dma : DmaEngine := {}
  sds : Store Sds := []
  eth : Store EthPort := []
  pcie : Pcie := {}
deriving DecidableEq, Repr

/-- The key of the field at bit `lo` of the register at offset `off` of block `b` in the store `regs`. -/
def rkey (b off lo : Nat) : Nat := b * 33554432 + off * 32 + lo

/-- A function's state and `ENABLE` as stored. -/
def resetFsm (b st : Nat) : Store Word := [(rkey b 0 0, BitVec.ofNat 32 st), (rkey b 4 0, 1#32)]

/-- The register fields that do not stand at the reset value of their table after a power-on reset: the functions that read ON or
STARTING (R71, R201, R476, R502, R525, R526), the power domains that are on (R503), the spares that may substitute (R411), the field side's
undervoltage (R447), and the active clusters of the grade (R405). -/
def resetRegs : Store Word :=
  resetFsm 0 2 ++ [0, 1, 36, 37, 38, 39, 50, 51, 55].map (fun n => (rkey 0 (0x400 + 4 * n) 0, 2#32)) ++
  resetFsm 1 2 ++ resetFsm 2 2 ++ resetFsm 3 2 ++ resetFsm 5 2 ++
  resetFsm 8 1 ++ resetFsm 9 1 ++ resetFsm 10 1 ++ resetFsm 11 1 ++ resetFsm 12 1 ++
  [(rkey 16 0x134 0, 3#32), (rkey 27 0x100 0, 1#32), (rkey 27 0x100 2, 1#32)] ++
  (List.range 32).map (fun n => (rkey (0x40 + n) 4 1, 0#32))

/-- The module right after the end of a power-on reset, with the boot straps at 0, nothing received and no command waiting. -/
def State.reset : State := { regs := resetRegs }


end Sys2Proof.Machine
end

