-- ==== Sys2Proof/Machine/Regs.lean ====
section
/-!
DEFINITION. The register map: one constant per register field, with the offset, the bits, the reset
value, the access type (R10) and the accepted values (R591) that the register tables of the spec give,
and the fields found at an offset of a block.
-/

namespace Sys2Proof.Machine

def COM_STATE_SNAP_SEQ : Fld := ⟨0x0, 24, 8, 0, .ro, .any, false⟩
def COM_STATE_RESET_REFUSED : Fld := ⟨0x0, 8, 1, 0, .w1c, .any, false⟩
def COM_STATE_FSM : Fld := ⟨0x0, 0, 3, 0, .ro, .any, false⟩
def COM_CTRL_ENABLE : Fld := ⟨0x4, 0, 1, 0, .rw, .any, false⟩
def COM_FENCE_FENCE : Fld := ⟨0x8, 0, 1, 0, .w1s, .any, false⟩
def COM_RESET_RESET : Fld := ⟨0xC, 0, 1, 0, .w1s, .any, false⟩
def COM_SNAP_SNAP : Fld := ⟨0x10, 0, 1, 0, .wo, .any, false⟩

def TIM_INC_NS : Fld := ⟨0x100, 0, 2, 2, .rw, .any, false⟩
def TIM_INC_FRAC : Fld := ⟨0x104, 0, 32, 0, .rw, .any, false⟩
def TIM_STAT_SOURCE : Fld := ⟨0x108, 6, 2, 0, .ro, .any, false⟩
def TIM_STAT_REFUSED : Fld := ⟨0x108, 5, 1, 0, .w1c, .any, false⟩
def TIM_STAT_TICK_FAULT : Fld := ⟨0x108, 4, 1, 0, .ro, .any, false⟩
def TIM_STAT_SLEPT : Fld := ⟨0x108, 3, 1, 0, .w1c, .any, false⟩
def TIM_STAT_HOLDOVER : Fld := ⟨0x108, 2, 1, 0, .ro, .any, false⟩
def TIM_STAT_LOCKED : Fld := ⟨0x108, 1, 1, 0, .rw, .any, false⟩
def TIM_STAT_VALID : Fld := ⟨0x108, 0, 1, 0, .ro, .any, false⟩
def TIM_CFG_STEP_LIMIT : Fld := ⟨0x10C, 16, 16, 0x3E8, .rw, .any, false⟩
def TIM_CFG_HOLD_MS : Fld := ⟨0x10C, 0, 16, 0xBB8, .rw, (.range 1 65535), false⟩
def TIM_SET_SEC_LO : Fld := ⟨0x120, 0, 32, 0, .rw, .any, false⟩
def TIM_SET_SEC_HI : Fld := ⟨0x124, 0, 32, 0, .rw, .any, false⟩
def TIM_SET_NS : Fld := ⟨0x128, 0, 32, 0, .rw, (.range 0 999999999), false⟩
def TIM_CMD_SERVO_MARK : Fld := ⟨0x12C, 2, 1, 0, .wo, .any, false⟩
def TIM_CMD_STEP : Fld := ⟨0x12C, 1, 1, 0, .wo, .any, false⟩
def TIM_CMD_SET : Fld := ⟨0x12C, 0, 1, 0, .wo, .any, false⟩
def TIM_ADJ : Fld := ⟨0x130, 0, 32, 0, .rw, .any, false⟩
def TIM_GEN_CFG_EVT (k : Nat) : Fld := ⟨0x200 + 0x20 * k, 3, 1, 0, .rw, .any, true⟩
def TIM_GEN_CFG_TAN (k : Nat) : Fld := ⟨0x200 + 0x20 * k, 2, 1, 0, .rw, .any, true⟩
def TIM_GEN_CFG_STB (k : Nat) : Fld := ⟨0x200 + 0x20 * k, 1, 1, 0, .rw, .any, true⟩
def TIM_GEN_CFG_EN (k : Nat) : Fld := ⟨0x200 + 0x20 * k, 0, 1, 0, .rw, .any, true⟩
def TIM_GEN_STEP_LO (k : Nat) : Fld := ⟨0x204 + 0x20 * k, 0, 32, 0, .rw, .any, true⟩
def TIM_GEN_STEP_HI (k : Nat) : Fld := ⟨0x208 + 0x20 * k, 0, 8, 0, .rw, .any, true⟩
def TIM_GEN_PHASE_LO (k : Nat) : Fld := ⟨0x20C + 0x20 * k, 0, 32, 0, .rw, .any, true⟩
def TIM_GEN_PHASE_HI (k : Nat) : Fld := ⟨0x210 + 0x20 * k, 0, 8, 0, .rw, .any, true⟩
def TIM_CAP_CFG_EDGE (c : Nat) : Fld := ⟨0x300 + 0x20 * c, 8, 2, 0, .rw, .any, false⟩
def TIM_CAP_CFG_SRC (c : Nat) : Fld := ⟨0x300 + 0x20 * c, 0, 5, 0, .rw, (.range 0 17), false⟩
def TIM_PTP_CFG_UDP4 (p : Nat) : Fld := ⟨0x400 + 0x40 * p, 2, 1, 0, .rw, .any, false⟩
def TIM_PTP_CFG_L2 (p : Nat) : Fld := ⟨0x400 + 0x40 * p, 1, 1, 0, .rw, .any, false⟩
def TIM_PTP_CFG_PTP_EN (p : Nat) : Fld := ⟨0x400 + 0x40 * p, 0, 1, 0, .rw, .any, false⟩
def TIM_PTP_LAT_TX (p : Nat) : Fld := ⟨0x404 + 0x40 * p, 16, 16, 0, .rw, .any, false⟩
def TIM_PTP_LAT_RX (p : Nat) : Fld := ⟨0x404 + 0x40 * p, 0, 16, 0, .rw, .any, false⟩
def TIM_CNT_STEPS : Fld := ⟨0x800, 0, 32, 0, .ro, .any, false⟩
def TIM_CNT_STEP_REFUSED : Fld := ⟨0x804, 0, 32, 0, .ro, .any, false⟩
def TIM_CNT_HOLDOVER : Fld := ⟨0x808, 0, 32, 0, .ro, .any, false⟩
def TIM_CNT_TRIG_SKIP : Fld := ⟨0x80C, 0, 32, 0, .ro, .any, false⟩
def TIM_CNT_CAP_LOST : Fld := ⟨0x810, 0, 32, 0, .ro, .any, false⟩
def TIM_CNT_PTP_LOST (p : Nat) : Fld := ⟨0x814 + 0x4 * p, 0, 32, 0, .ro, .any, false⟩
def TIM_CNT_TICK_FAULT : Fld := ⟨0x81C, 0, 32, 0, .ro, .any, false⟩

def MEM_CTRL_DRAINED : Fld := ⟨0x4, 2, 1, 0, .ro, .any, false⟩
def MEM_CTRL_DRAIN : Fld := ⟨0x4, 1, 1, 0, .rw, .any, false⟩
def MEM_WAYS_PIN_WAYS : Fld := ⟨0x100, 0, 16, 0, .rw, .any, true⟩
def MEM_PF_PF_DIST : Fld := ⟨0x104, 0, 9, 0x40, .rw, (.range 4 256), false⟩

def MEM4_SCRUB_PERIOD_H : Fld := ⟨0x100, 16, 8, 0x18, .rw, (.range 1 168), false⟩
def MEM4_SCRUB_SCRUB_EN : Fld := ⟨0x100, 0, 1, 1, .rw, .any, false⟩
def MEM4_POLICY_CE_LIMIT : Fld := ⟨0x104, 16, 16, 0x40, .rw, .any, false⟩
def MEM4_POLICY_SUSPECT_RETRIES : Fld := ⟨0x104, 0, 8, 8, .rw, .any, false⟩
def MEM4_PIN_BASE_BASE (k : Nat) : Fld := ⟨0x200 + 0x8 * k, 16, 16, 0, .rw, .any, true⟩
def MEM4_PIN_BASE_VALID (k : Nat) : Fld := ⟨0x200 + 0x8 * k, 0, 1, 0, .rw, .any, true⟩
def MEM4_PIN_SIZE_SIZE (k : Nat) : Fld := ⟨0x204 + 0x8 * k, 0, 16, 0, .rw, (.range 1 48), true⟩
def MEM4_INJ_UNIT : Fld := ⟨0x400, 24, 8, 0, .rw, .any, false⟩
def MEM4_INJ_TARGET : Fld := ⟨0x400, 20, 4, 0, .rw, (.range 1 6), false⟩
def MEM4_INJ_ARM : Fld := ⟨0x400, 0, 1, 0, .w1s, .any, false⟩
def MEM4_CNT_DRAM_CE (c : Nat) : Fld := ⟨0x800 + 0x4 * c, 0, 32, 0, .ro, .any, false⟩
def MEM4_CNT_DRAM_UE (c : Nat) : Fld := ⟨0x820 + 0x4 * c, 0, 32, 0, .ro, .any, false⟩
def MEM4_CNT_SLICE_CE (n : Nat) : Fld := ⟨0x840 + 0x4 * n, 0, 32, 0, .ro, .any, false⟩
def MEM4_CNT_SLICE_UE (n : Nat) : Fld := ⟨0x850 + 0x4 * n, 0, 32, 0, .ro, .any, false⟩
def MEM4_CNT_SPAD_CE : Fld := ⟨0x860, 0, 32, 0, .ro, .any, false⟩
def MEM4_CNT_SPAD_UE : Fld := ⟨0x864, 0, 32, 0, .ro, .any, false⟩
def MEM4_CNT_RET_CE : Fld := ⟨0x868, 0, 32, 0, .ro, .any, false⟩
def MEM4_CNT_RES_RETRY (n : Nat) : Fld := ⟨0x86C + 0x4 * n, 0, 32, 0, .ro, .any, false⟩
def MEM4_CNT_RES_FAIL : Fld := ⟨0x8F4, 0, 32, 0, .ro, .any, false⟩
def MEM4_CNT_SUSPECT : Fld := ⟨0x8F8, 0, 32, 0, .ro, .any, false⟩
def MEM4_CNT_SCRUB_PASSES : Fld := ⟨0x8FC, 0, 32, 0, .ro, .any, false⟩
def MEM4_LOG_LOST : Fld := ⟨0x900, 0, 32, 0, .ro, .any, false⟩

def EVQ_Q_BASE_LO (q : Nat) : Fld := ⟨0x100 + 0x20 * q, 0, 32, 0, .rw, .any, false⟩
def EVQ_Q_BASE_HI (q : Nat) : Fld := ⟨0x104 + 0x20 * q, 0, 32, 0, .rw, .any, false⟩
def EVQ_Q_CFG_CLASSES (q : Nat) : Fld := ⟨0x108 + 0x20 * q, 16, 16, 0, .rw, .any, false⟩
def EVQ_Q_CFG_SIZE_LOG2 (q : Nat) : Fld := ⟨0x108 + 0x20 * q, 8, 5, 4, .rw, (.range 4 15), false⟩
def EVQ_Q_CFG_QEN (q : Nat) : Fld := ⟨0x108 + 0x20 * q, 0, 1, 0, .rw, .any, false⟩
def EVQ_Q_WR (q : Nat) : Fld := ⟨0x10C + 0x20 * q, 0, 16, 0, .ro, .any, false⟩
def EVQ_Q_RD (q : Nat) : Fld := ⟨0x110 + 0x20 * q, 0, 16, 0, .rw, .any, false⟩
def EVQ_CNT_EVENTS : Fld := ⟨0x800, 0, 32, 0, .ro, .any, false⟩
def EVQ_CNT_LOST (q : Nat) : Fld := ⟨0x804 + 0x4 * q, 0, 32, 0, .ro, .any, false⟩

def STP_MODE_FILT : Fld := ⟨0x100, 16, 4, 2, .rw, (.range 0 7), false⟩
def STP_MODE_TERM_Z : Fld := ⟨0x100, 14, 1, 0, .rw, .any, false⟩
def STP_MODE_TERM_B : Fld := ⟨0x100, 13, 1, 0, .rw, .any, false⟩
def STP_MODE_TERM_A : Fld := ⟨0x100, 12, 1, 0, .rw, .any, false⟩
def STP_MODE_Z_MODE : Fld := ⟨0x100, 8, 2, 0, .rw, (.range 0 2), false⟩
def STP_MODE_COMPAT : Fld := ⟨0x100, 5, 1, 0, .rw, .any, false⟩
def STP_MODE_INVERT : Fld := ⟨0x100, 4, 1, 0, .rw, .any, false⟩
def STP_MODE_DECODE : Fld := ⟨0x100, 2, 2, 0, .rw, (.range 0 2), false⟩
def STP_MODE_MODE : Fld := ⟨0x100, 0, 1, 0, .rw, .any, false⟩
def STP_SSI_READ_US : Fld := ⟨0x104, 22, 10, 100, .rw, (.range 10 1023), false⟩
def STP_SSI_DLY : Fld := ⟨0x104, 14, 8, 0, .rw, .any, false⟩
def STP_SSI_BITS : Fld := ⟨0x104, 8, 6, 25, .rw, (.range 13 32), false⟩
def STP_SSI_CODE : Fld := ⟨0x104, 7, 1, 1, .rw, .any, false⟩
def STP_SSI_CLKSEL : Fld := ⟨0x104, 4, 3, 2, .rw, (.range 0 6), false⟩
def STP_TIMING_SPEED_WIN : Fld := ⟨0x108, 16, 16, 1000, .rw, (.range 1 65535), false⟩
def STP_TIMING_STANDSTILL_MS : Fld := ⟨0x108, 0, 10, 50, .rw, (.range 1 1000), false⟩
def STP_JUMP : Fld := ⟨0x10C, 0, 32, 0x1000, .rw, .any, false⟩
def STP_STAT_ENC_FAULT : Fld := ⟨0x110, 10, 1, 0, .w1c, .any, false⟩
def STP_STAT_FAULT_NOW : Fld := ⟨0x110, 9, 1, 0, .ro, .any, false⟩
def STP_STAT_WIRE : Fld := ⟨0x110, 6, 3, 0, .ro, .any, false⟩
def STP_STAT_UNCERTAIN : Fld := ⟨0x110, 5, 1, 0, .ro, .any, false⟩
def STP_STAT_DIR : Fld := ⟨0x110, 4, 1, 0, .ro, .any, false⟩
def STP_STAT_DIR_PENDING : Fld := ⟨0x110, 3, 1, 0, .ro, .any, false⟩
def STP_STAT_SPEED_PENDING : Fld := ⟨0x110, 2, 1, 0, .ro, .any, false⟩
def STP_STAT_STANDSTILL : Fld := ⟨0x110, 1, 1, 0, .ro, .any, false⟩
def STP_STAT_Z_SEEN : Fld := ⟨0x110, 0, 1, 0, .w1c, .any, false⟩
def STP_POS_LO : Fld := ⟨0x120, 0, 32, 0, .ro, .any, false⟩
def STP_POS_HI : Fld := ⟨0x124, 0, 32, 0, .ro, .any, false⟩
def STP_SPEED : Fld := ⟨0x128, 0, 32, 0, .ro, .any, false⟩
def STP_ZPOS_LO : Fld := ⟨0x130, 0, 32, 0, .ro, .any, false⟩
def STP_ZPOS_HI : Fld := ⟨0x134, 0, 32, 0, .ro, .any, false⟩
def STP_CNT_QUAD_ILLEGAL : Fld := ⟨0x800, 0, 32, 0, .ro, .any, false⟩
def STP_CNT_ENC_FAULT : Fld := ⟨0x804, 0, 32, 0, .ro, .any, false⟩
def STP_CNT_SSI_FRAME : Fld := ⟨0x808, 0, 32, 0, .ro, .any, false⟩
def STP_CNT_SSI_JUMP : Fld := ⟨0x80C, 0, 32, 0, .ro, .any, false⟩
def STP_CNT_Z : Fld := ⟨0x810, 0, 32, 0, .ro, .any, false⟩
def STP_CNT_STANDSTILL : Fld := ⟨0x814, 0, 32, 0, .ro, .any, false⟩
def STP_CNT_REVERSAL : Fld := ⟨0x818, 0, 32, 0, .ro, .any, false⟩
def STP_CNT_WIRE : Fld := ⟨0x81C, 0, 32, 0, .ro, .any, false⟩

def EJT_PARTCFG_PS_SRC : Fld := ⟨0x100, 16, 2, 0, .rw, .any, true⟩
def EJT_PARTCFG_PRB_SEL : Fld := ⟨0x100, 8, 1, 0, .rw, .any, true⟩
def EJT_PITCH : Fld := ⟨0x104, 0, 32, 0, .rw, .any, true⟩
def EJT_PARTREF_LO : Fld := ⟨0x108, 0, 32, 0, .rw, .any, true⟩
def EJT_PARTREF_HI : Fld := ⟨0x10C, 0, 32, 0, .rw, .any, true⟩
def EJT_TARGET : Fld := ⟨0x110, 0, 32, 0, .rw, .any, true⟩
def EJT_GUARD : Fld := ⟨0x114, 0, 32, 0, .rw, .any, true⟩
def EJT_MAXSPEED : Fld := ⟨0x118, 0, 32, 0, .rw, .any, true⟩
def EJT_PSMIN : Fld := ⟨0x11C, 0, 32, 0, .rw, .any, true⟩
def EJT_CLS_CFG_PULSE (c : Nat) : Fld := ⟨0x140 + 0x10 * c, 16, 16, 0xC8, .rw, (.range 1 65535), true⟩
def EJT_CLS_CFG_MASK (c : Nat) : Fld := ⟨0x140 + 0x10 * c, 0, 8, 0, .rw, .any, true⟩
def EJT_CLS_DELAY (c : Nat) : Fld := ⟨0x144 + 0x10 * c, 0, 17, 0, .rw, (.range 0 100000), true⟩
def EJT_CLS_OFFSET (c : Nat) : Fld := ⟨0x148 + 0x10 * c, 0, 32, 0, .rw, .any, true⟩
def EJT_SRC : Fld := ⟨0x170, 0, 1, 0, .ro, .any, false⟩
def EJT_OPEN : Fld := ⟨0x174, 0, 7, 0, .ro, .any, false⟩
def EJT_XTGT_LO : Fld := ⟨0x180, 0, 32, 0, .rw, .any, false⟩
def EJT_XTGT_HI : Fld := ⟨0x184, 0, 32, 0, .rw, .any, false⟩
def EJT_XOPEN_XSTATUS : Fld := ⟨0x188, 16, 16, 0, .ro, .any, false⟩
def EJT_XOPEN_XSLOT : Fld := ⟨0x188, 8, 6, 0, .ro, .any, false⟩
def EJT_XOPEN_GO : Fld := ⟨0x188, 0, 1, 0, .wo, .any, false⟩
def EJT_COMMIT_VERDICT : Fld := ⟨0x18C, 8, 2, 0, .wo, .any, false⟩
def EJT_COMMIT_SLOT : Fld := ⟨0x18C, 0, 6, 0, .wo, .any, false⟩
def EJT_FIRE_CLASS : Fld := ⟨0x190, 0, 2, 0, .wo, .any, false⟩
def EJT_REC_BASE_LO : Fld := ⟨0x1A0, 0, 32, 0, .rw, .any, false⟩
def EJT_REC_BASE_HI : Fld := ⟨0x1A4, 0, 32, 0, .rw, .any, false⟩
def EJT_REC_SIZE : Fld := ⟨0x1A8, 0, 4, 4, .rw, (.range 4 15), false⟩
def EJT_REC_WR : Fld := ⟨0x1AC, 0, 16, 0, .ro, .any, false⟩
def EJT_REC_RD : Fld := ⟨0x1B0, 0, 16, 0, .rw, .any, false⟩
def EJT_CNT_OPENED : Fld := ⟨0x800, 0, 32, 0, .ro, .any, false⟩
def EJT_CNT_VERDICT (v : Nat) : Fld := ⟨0x804 + 0x4 * v, 0, 32, 0, .ro, .any, false⟩
def EJT_CNT_MISSED : Fld := ⟨0x814, 0, 32, 0, .ro, .any, false⟩
def EJT_CNT_FIRED : Fld := ⟨0x818, 0, 32, 0, .ro, .any, false⟩
def EJT_CNT_INHIBITED : Fld := ⟨0x81C, 0, 32, 0, .ro, .any, false⟩
def EJT_CNT_OVERSPEED : Fld := ⟨0x820, 0, 32, 0, .ro, .any, false⟩
def EJT_CNT_SRC_DISCARD : Fld := ⟨0x824, 0, 32, 0, .ro, .any, false⟩
def EJT_CNT_REC_LOST : Fld := ⟨0x828, 0, 32, 0, .ro, .any, false⟩
def EJT_CNT_PS_LOCKOUT : Fld := ⟨0x82C, 0, 32, 0, .ro, .any, false⟩
def EJT_CNT_NOSLOT : Fld := ⟨0x830, 0, 32, 0, .ro, .any, false⟩

def FIO_STAT_DO_FAULT : Fld := ⟨0x100, 8, 8, 0, .ro, .any, false⟩
def FIO_STAT_ENCV1_FAULT : Fld := ⟨0x100, 4, 1, 0, .ro, .any, false⟩
def FIO_STAT_ENCV0_FAULT : Fld := ⟨0x100, 3, 1, 0, .ro, .any, false⟩
def FIO_STAT_UV : Fld := ⟨0x100, 2, 1, 0, .ro, .any, false⟩
def FIO_STAT_SAFE : Fld := ⟨0x100, 1, 1, 0, .ro, .any, false⟩
def FIO_STAT_FAULT : Fld := ⟨0x100, 0, 1, 0, .ro, .any, false⟩
def FIO_DI : Fld := ⟨0x104, 0, 16, 0, .ro, .any, false⟩
def FIO_DI_FILT_FILT_HI : Fld := ⟨0x108, 8, 8, 0, .rw, .any, false⟩
def FIO_DI_FILT_FILT_LO : Fld := ⟨0x108, 0, 8, 0, .rw, .any, false⟩
def FIO_DI_EVT_FALL : Fld := ⟨0x10C, 16, 16, 0, .rw, .any, false⟩
def FIO_DI_EVT_RISE : Fld := ⟨0x10C, 0, 16, 0, .rw, .any, false⟩
def FIO_DO_CFG_OVL (n : Nat) : Fld := ⟨0x140 + 0x4 * n, 11, 1, 0, .w1c, .any, false⟩
def FIO_DO_CFG_THERM (n : Nat) : Fld := ⟨0x140 + 0x4 * n, 10, 1, 0, .w1c, .any, false⟩
def FIO_DO_CFG_ON (n : Nat) : Fld := ⟨0x140 + 0x4 * n, 9, 1, 0, .ro, .any, false⟩
def FIO_DO_CFG_SRC (n : Nat) : Fld := ⟨0x140 + 0x4 * n, 4, 2, 0, .rw, (.range 0 2), false⟩
def FIO_DO_CFG_LEVEL (n : Nat) : Fld := ⟨0x140 + 0x4 * n, 0, 1, 0, .rw, .any, false⟩
def FIO_PRB_CFG_EDGE (k : Nat) : Fld := ⟨0x180 + 0x4 * k, 2, 2, 0, .rw, .any, false⟩
def FIO_PRB_CFG_TERM (k : Nat) : Fld := ⟨0x180 + 0x4 * k, 1, 1, 0, .rw, .any, false⟩
def FIO_PRB_CFG_MODE_5V (k : Nat) : Fld := ⟨0x180 + 0x4 * k, 0, 1, 0, .rw, .any, false⟩
def FIO_STB_CFG_CAMSEL (b : Nat) : Fld := ⟨0x200 + 0x8 * b, 16, 4, 0, .rw, (.range 0 8), false⟩
def FIO_STB_CFG_SRC (b : Nat) : Fld := ⟨0x200 + 0x8 * b, 1, 2, 0, .rw, .any, false⟩
def FIO_STB_CFG_LEVEL (b : Nat) : Fld := ⟨0x200 + 0x8 * b, 0, 1, 0, .rw, .any, false⟩
def FIO_STB_TIME_WIDTH (b : Nat) : Fld := ⟨0x204 + 0x8 * b, 16, 16, 0, .rw, (.range 1 65535), false⟩
def FIO_STB_TIME_DELAY (b : Nat) : Fld := ⟨0x204 + 0x8 * b, 0, 16, 0, .rw, .any, false⟩
def FIO_CNT_DO_OVL : Fld := ⟨0x800, 0, 32, 0, .ro, .any, false⟩
def FIO_CNT_DO_THERM : Fld := ⟨0x804, 0, 32, 0, .ro, .any, false⟩
def FIO_CNT_UV : Fld := ⟨0x808, 0, 32, 0, .ro, .any, false⟩
def FIO_CNT_PRB_LOST (k : Nat) : Fld := ⟨0x80C + 0x4 * k, 0, 32, 0, .ro, .any, false⟩
def FIO_CNT_STB_MISS (b : Nat) : Fld := ⟨0x814 + 0x4 * b, 0, 32, 0, .ro, .any, false⟩

def HLT_STAT_STG_FAULT : Fld := ⟨0x100, 16, 8, 0, .w1c, .any, false⟩
def HLT_STAT_CAUSE : Fld := ⟨0x100, 12, 4, 0, .ro, .any, false⟩
def HLT_STAT_FB_OK : Fld := ⟨0x100, 11, 1, 1, .ro, .any, false⟩
def HLT_STAT_LOCKSTEP : Fld := ⟨0x100, 10, 1, 1, .ro, .any, false⟩
def HLT_STAT_SRC1 : Fld := ⟨0x100, 9, 1, 0, .ro, .any, false⟩
def HLT_STAT_SRC0 : Fld := ⟨0x100, 8, 1, 0, .ro, .any, false⟩
def HLT_STAT_LEVEL : Fld := ⟨0x100, 0, 2, 0, .ro, .any, false⟩
def HLT_REQ_KEY : Fld := ⟨0x104, 16, 16, 0, .wo, .any, false⟩
def HLT_REQ_TEST_STAGE : Fld := ⟨0x104, 8, 3, 0, .wo, .any, false⟩
def HLT_REQ_TEST : Fld := ⟨0x104, 2, 1, 0, .wo, .any, false⟩
def HLT_REQ_RESTORE1 : Fld := ⟨0x104, 1, 1, 0, .wo, .any, false⟩
def HLT_REQ_RESTORE0 : Fld := ⟨0x104, 0, 1, 0, .wo, .any, false⟩
def HLT_HEALTHY_P1 : Fld := ⟨0x108, 16, 16, 0, .ro, .any, false⟩
def HLT_HEALTHY_P0 : Fld := ⟨0x108, 0, 16, 0, .ro, .any, false⟩
def HLT_REQ_STAT : Fld := ⟨0x10C, 0, 16, 0, .ro, .any, false⟩
def HLT_STG_EARLY (z : Nat) (p : Nat) : Fld := ⟨0x200 + 0x10 * z + 0x8 * p, 0, 32, 0, .rw, .any, true⟩
def HLT_STG_DUE (z : Nat) (p : Nat) : Fld := ⟨0x204 + 0x10 * z + 0x8 * p, 0, 32, 0xFFFFFFFF, .rw, .any, true⟩
def HLT_TEXTCHK_LO : Fld := ⟨0x280, 0, 32, 0, .rw, .any, true⟩
def HLT_TEXTCHK_HI : Fld := ⟨0x284, 0, 32, 0, .rw, .any, true⟩
def HLT_FB_TAB_LO : Fld := ⟨0x300, 0, 32, 0, .rw, .any, false⟩
def HLT_FB_TAB_HI : Fld := ⟨0x304, 0, 32, 0, .rw, .any, false⟩
def HLT_FB_LEN : Fld := ⟨0x308, 0, 32, 0, .rw, (.range 0 524288), false⟩
def HLT_FB_LOAD_LOAD_STATUS : Fld := ⟨0x30C, 16, 16, 0, .ro, .any, false⟩
def HLT_FB_LOAD_BUSY : Fld := ⟨0x30C, 8, 1, 0, .ro, .any, false⟩
def HLT_FB_LOAD_GO : Fld := ⟨0x30C, 0, 1, 0, .wo, .any, false⟩
def HLT_FW_LAST_LO : Fld := ⟨0x400, 0, 32, 0, .ro, .any, false⟩
def HLT_FW_LAST_HI : Fld := ⟨0x404, 0, 32, 0, .ro, .any, false⟩
def HLT_FW_LAST_INFO_WR : Fld := ⟨0x408, 16, 1, 0, .ro, .any, false⟩
def HLT_FW_LAST_INFO_INIT : Fld := ⟨0x408, 0, 16, 0, .ro, .any, false⟩
def HLT_FW_REQ_LO : Fld := ⟨0x410, 0, 32, 0, .rw, .any, false⟩
def HLT_FW_REQ_HI : Fld := ⟨0x414, 0, 32, 0, .rw, .any, false⟩
def HLT_FW_REQ_GO : Fld := ⟨0x418, 0, 1, 0, .wo, .any, false⟩
def HLT_CNT_SWITCH : Fld := ⟨0x800, 0, 32, 0, .ro, .any, false⟩
def HLT_CNT_RESTORE : Fld := ⟨0x804, 0, 32, 0, .ro, .any, false⟩
def HLT_CNT_STG_LATE : Fld := ⟨0x808, 0, 32, 0, .ro, .any, false⟩
def HLT_CNT_STG_EARLY : Fld := ⟨0x80C, 0, 32, 0, .ro, .any, false⟩
def HLT_CNT_STG_UNKNOWN : Fld := ⟨0x810, 0, 32, 0, .ro, .any, false⟩
def HLT_CNT_FB_COMMIT : Fld := ⟨0x814, 0, 32, 0, .ro, .any, false⟩
def HLT_CNT_SUSPECT_SEEN : Fld := ⟨0x818, 0, 32, 0, .ro, .any, false⟩
def HLT_CNT_FW_DENY : Fld := ⟨0x81C, 0, 32, 0, .ro, .any, false⟩
def HLT_CNT_TEST : Fld := ⟨0x820, 0, 32, 0, .ro, .any, false⟩

def PWR_SLEEP_GO : Fld := ⟨0x100, 8, 1, 0, .wo, .any, false⟩
def PWR_SLEEP_TARGET : Fld := ⟨0x100, 0, 3, 1, .rw, .any, false⟩
def PWR_STAT_ENTRY_STATUS : Fld := ⟨0x104, 16, 16, 0, .ro, .any, false⟩
def PWR_STAT_STEP : Fld := ⟨0x104, 12, 4, 0, .ro, .any, false⟩
def PWR_STAT_REL_REFUSED : Fld := ⟨0x104, 11, 1, 0, .w1c, .any, false⟩
def PWR_STAT_ABANDONED : Fld := ⟨0x104, 10, 1, 0, .w1c, .any, false⟩
def PWR_STAT_LAST : Fld := ⟨0x104, 4, 3, 0, .ro, .any, false⟩
def PWR_STAT_STATE : Fld := ⟨0x104, 0, 3, 0, .ro, .any, false⟩
def PWR_WAKE_EN_HOST : Fld := ⟨0x108, 4, 1, 1, .rw, .any, false⟩
def PWR_WAKE_EN_ETH : Fld := ⟨0x108, 3, 1, 1, .rw, .any, false⟩
def PWR_WAKE_EN_DI : Fld := ⟨0x108, 2, 1, 1, .rw, .any, false⟩
def PWR_WAKE_EN_ENC1 : Fld := ⟨0x108, 1, 1, 1, .rw, .any, false⟩
def PWR_WAKE_EN_ENC0 : Fld := ⟨0x108, 0, 1, 1, .rw, .any, false⟩
def PWR_WAKE_DI_FALL : Fld := ⟨0x10C, 16, 16, 0, .rw, .any, false⟩
def PWR_WAKE_DI_RISE : Fld := ⟨0x10C, 0, 16, 0, .rw, .any, false⟩
def PWR_WAKE_CAUSE_ACCESS : Fld := ⟨0x110, 6, 1, 0, .w1c, .any, false⟩
def PWR_WAKE_CAUSE_READY : Fld := ⟨0x110, 5, 1, 0, .w1c, .any, false⟩
def PWR_WAKE_CAUSE_SRC : Fld := ⟨0x110, 0, 5, 0, .w1c, .any, false⟩
def PWR_HOLD_LO : Fld := ⟨0x120, 0, 32, 0, .ro, .any, false⟩
def PWR_HOLD_HI : Fld := ⟨0x124, 0, 32, 0, .ro, .any, false⟩
def PWR_RELEASE_LO : Fld := ⟨0x128, 0, 32, 0, .wo, .any, false⟩
def PWR_RELEASE_HI : Fld := ⟨0x12C, 0, 32, 0, .wo, .any, false⟩
def PWR_MC_CTRL_ON : Fld := ⟨0x130, 4, 3, 0, .ro, .any, false⟩
def PWR_MC_CTRL_REQ : Fld := ⟨0x130, 1, 3, 0, .rw, .any, false⟩
def PWR_DBELL : Fld := ⟨0x140, 0, 1, 0, .wo, .any, false⟩
def PWR_PD_STAT_HELD (n : Nat) : Fld := ⟨0x400 + 0x4 * n, 8, 1, 0, .ro, .any, false⟩
def PWR_PD_STAT_PSTATE (n : Nat) : Fld := ⟨0x400 + 0x4 * n, 0, 3, 0, .ro, .any, false⟩
def PWR_CNT_S (k : Nat) : Fld := ⟨0x800 + 0x4 * k, 0, 32, 0, .ro, .any, false⟩
def PWR_CNT_ABANDON : Fld := ⟨0x810, 0, 32, 0, .ro, .any, false⟩
def PWR_CNT_RESTORE_FAIL : Fld := ⟨0x814, 0, 32, 0, .ro, .any, false⟩

def CLK_OP_CFG_FREQ_MHZ (k : Nat) : Fld := ⟨0x100 + 0x4 * k, 16, 16, 0, .ro, .any, false⟩
def CLK_OP_CFG_VOLT_MV (k : Nat) : Fld := ⟨0x100 + 0x4 * k, 0, 16, 0, .ro, .any, false⟩
def CLK_CLU_OP_OP_CUR (n : Nat) : Fld := ⟨0x200 + 0x4 * n, 12, 3, 0, .ro, .any, false⟩
def CLK_CLU_OP_OP_TGT (n : Nat) : Fld := ⟨0x200 + 0x4 * n, 8, 3, 7, .ro, .any, false⟩
def CLK_CLU_OP_OP_CAP (n : Nat) : Fld := ⟨0x200 + 0x4 * n, 4, 3, 7, .ro, .any, false⟩
def CLK_CLU_OP_OP_MAX (n : Nat) : Fld := ⟨0x200 + 0x4 * n, 0, 3, 7, .rw, .any, false⟩
def CLK_RAIL_STAT_AVS_FAULT (r : Nat) : Fld := ⟨0x300 + 0x4 * r, 17, 1, 0, .w1c, .any, false⟩
def CLK_RAIL_STAT_PENDING (r : Nat) : Fld := ⟨0x300 + 0x4 * r, 16, 1, 0, .ro, .any, false⟩
def CLK_RAIL_STAT_VOLT_MV (r : Nat) : Fld := ⟨0x300 + 0x4 * r, 0, 16, 0, .ro, .any, false⟩
def CLK_CNT_OP_CHANGE : Fld := ⟨0x800, 0, 32, 0, .ro, .any, false⟩
def CLK_CNT_AVS_TIMEOUT : Fld := ⟨0x804, 0, 32, 0, .ro, .any, false⟩

def CAP_CFG_LIMIT_W : Fld := ⟨0x100, 24, 8, 0xAA, .rw, (.range 40 170), false⟩
def CAP_CFG_OP_FLOOR : Fld := ⟨0x100, 16, 3, 0, .rw, .any, false⟩
def CAP_CFG_THROTTLE_C : Fld := ⟨0x100, 8, 8, 0x64, .rw, (.range 85 110), false⟩
def CAP_CFG_DROOP_MV : Fld := ⟨0x100, 0, 8, 0x32, .rw, (.range 20 100), false⟩
def CAP_STAT_P_MEAS : Fld := ⟨0x104, 16, 16, 0, .ro, .any, false⟩
def CAP_STAT_T_HOT : Fld := ⟨0x104, 8, 8, 0, .ro, .any, false⟩
def CAP_STAT_THERM_LIMIT : Fld := ⟨0x104, 5, 3, 7, .ro, .any, false⟩
def CAP_STAT_HARD : Fld := ⟨0x104, 4, 1, 0, .w1c, .any, false⟩
def CAP_STAT_THROTTLED : Fld := ⟨0x104, 3, 1, 0, .w1c, .any, false⟩
def CAP_STAT_DROOP : Fld := ⟨0x104, 2, 1, 0, .w1c, .any, false⟩
def CAP_STAT_OVER : Fld := ⟨0x104, 1, 1, 0, .w1c, .any, false⟩
def CAP_TEMP (k : Nat) : Fld := ⟨0x200 + 0x4 * k, 0, 16, 0, .ro, .any, false⟩
def CAP_CNT_OVER : Fld := ⟨0x800, 0, 32, 0, .ro, .any, false⟩
def CAP_CNT_DROOP : Fld := ⟨0x804, 0, 32, 0, .ro, .any, false⟩
def CAP_CNT_DROOP_US : Fld := ⟨0x808, 0, 32, 0, .ro, .any, false⟩
def CAP_CNT_THROTTLE : Fld := ⟨0x80C, 0, 32, 0, .ro, .any, false⟩
def CAP_CNT_HARD : Fld := ⟨0x810, 0, 32, 0, .ro, .any, false⟩
def CAP_CNT_SLOPE_HOLD : Fld := ⟨0x814, 0, 32, 0, .ro, .any, false⟩
def CAP_ENERGY_J : Fld := ⟨0x818, 0, 32, 0, .ro, .any, false⟩

def RST_CAUSE_THERM : Fld := ⟨0x100, 8, 1, 0, .w1c, .any, false⟩
def RST_CAUSE_LNK_REQ : Fld := ⟨0x100, 7, 1, 0, .w1c, .any, false⟩
def RST_CAUSE_CRIT_ERR : Fld := ⟨0x100, 6, 1, 0, .w1c, .any, false⟩
def RST_CAUSE_FUNC : Fld := ⟨0x100, 5, 1, 0, .w1c, .any, false⟩
def RST_CAUSE_SW_FULL : Fld := ⟨0x100, 4, 1, 0, .w1c, .any, false⟩
def RST_CAUSE_HLT_WDT : Fld := ⟨0x100, 3, 1, 0, .w1c, .any, false⟩
def RST_CAUSE_PIN : Fld := ⟨0x100, 2, 1, 0, .w1c, .any, false⟩
def RST_CAUSE_BOR : Fld := ⟨0x100, 1, 1, 0, .w1c, .any, false⟩
def RST_CAUSE_POR : Fld := ⟨0x100, 0, 1, 1, .w1c, .any, false⟩
def RST_CRIT_SRC_SHARD_MAP : Fld := ⟨0x104, 3, 1, 0, .w1c, .any, false⟩
def RST_CRIT_SRC_FW_TBL : Fld := ⟨0x104, 2, 1, 0, .w1c, .any, false⟩
def RST_CRIT_SRC_PAGE_TBL : Fld := ⟨0x104, 1, 1, 0, .w1c, .any, false⟩
def RST_CRIT_SRC_SCH_Q : Fld := ⟨0x104, 0, 1, 0, .w1c, .any, false⟩
def RST_SRC_EN_LNK_REQ_EN : Fld := ⟨0x108, 0, 1, 1, .rw, .any, false⟩
def RST_SWRESET_KEY : Fld := ⟨0x10C, 16, 16, 0, .wo, .any, false⟩
def RST_SWRESET_FULL : Fld := ⟨0x10C, 0, 1, 0, .wo, .any, false⟩
def RST_BOOT_STATUS_STAGE : Fld := ⟨0x110, 28, 4, 0, .ro, .any, false⟩
def RST_BOOT_STATUS_REVERTED : Fld := ⟨0x110, 19, 1, 0, .ro, .any, false⟩
def RST_BOOT_STATUS_BANK_B_BAD : Fld := ⟨0x110, 18, 1, 0, .ro, .any, false⟩
def RST_BOOT_STATUS_BANK_A_BAD : Fld := ⟨0x110, 17, 1, 0, .ro, .any, false⟩
def RST_BOOT_STATUS_LOCKSTEP : Fld := ⟨0x110, 16, 1, 0, .ro, .any, false⟩
def RST_BOOT_STATUS_ID_COPY : Fld := ⟨0x110, 14, 2, 0, .ro, .any, false⟩
def RST_BOOT_STATUS_OPT_COPY : Fld := ⟨0x110, 12, 2, 0, .ro, .any, false⟩
def RST_BOOT_STATUS_SOURCE : Fld := ⟨0x110, 8, 2, 0, .ro, .any, false⟩
def RST_BOOT_STATUS_FAIL_CODE : Fld := ⟨0x110, 0, 8, 0, .ro, .any, false⟩
def RST_FUNC_LAST_BLOCK : Fld := ⟨0x114, 0, 8, 0, .ro, .any, false⟩
def RST_STRAPS_CLK_SEL : Fld := ⟨0x118, 2, 2, 0, .ro, .any, false⟩
def RST_STRAPS_BOOT_SEL : Fld := ⟨0x118, 0, 2, 0, .ro, .any, false⟩
def RST_SWAP_CTRL_KEY : Fld := ⟨0x11C, 16, 16, 0, .wo, .any, false⟩
def RST_SWAP_CTRL_SWAP_REFUSED : Fld := ⟨0x11C, 6, 1, 0, .w1c, .any, false⟩
def RST_SWAP_CTRL_SWAP_STATE : Fld := ⟨0x11C, 4, 2, 0, .ro, .any, false⟩
def RST_SWAP_CTRL_ACTIVE_BANK : Fld := ⟨0x11C, 3, 1, 0, .ro, .any, false⟩
def RST_SWAP_CTRL_CONFIRM : Fld := ⟨0x11C, 2, 1, 0, .wo, .any, false⟩
def RST_SWAP_CTRL_TRIAL : Fld := ⟨0x11C, 1, 1, 0, .wo, .any, false⟩
def RST_SWAP_CTRL_CANCEL : Fld := ⟨0x11C, 0, 1, 0, .wo, .any, false⟩
def RST_HOST_BOOT_GO : Fld := ⟨0x120, 0, 1, 0, .wo, .any, false⟩

def CAM_CTRL_AUTO_DISC : Fld := ⟨0x4, 3, 1, 1, .rw, .any, false⟩
def CAM_CTRL_STREAM : Fld := ⟨0x4, 2, 1, 0, .rw, .any, false⟩
def CAM_CTRL_POCXP_EN : Fld := ⟨0x4, 1, 1, 0, .rw, .any, false⟩
def CAM_LINK_MAX_LANES : Fld := ⟨0x100, 20, 4, 4, .rw, (.range 1 4), false⟩
def CAM_LINK_MAX_RATE : Fld := ⟨0x100, 16, 4, 0xC, .rw, .any, false⟩
def CAM_LINK_LANES : Fld := ⟨0x100, 12, 4, 0, .ro, .any, false⟩
def CAM_LINK_RATE : Fld := ⟨0x100, 8, 4, 0, .ro, .any, false⟩
def CAM_LINK_LANE_UP : Fld := ⟨0x100, 4, 4, 0, .ro, .any, false⟩
def CAM_LINK_MISMATCH : Fld := ⟨0x100, 3, 1, 0, .w1c, .any, false⟩
def CAM_LINK_LINK_UP : Fld := ⟨0x100, 1, 1, 0, .ro, .any, false⟩
def CAM_LINK_DISC_DONE : Fld := ⟨0x100, 0, 1, 0, .ro, .any, false⟩
def CAM_LINECFG_MODE : Fld := ⟨0x104, 30, 2, 0, .rw, (.range 0 1), true⟩
def CAM_LINECFG_FORMAT : Fld := ⟨0x104, 26, 4, 0, .rw, (.range 0 6), true⟩
def CAM_LINECFG_WIDTH : Fld := ⟨0x104, 0, 16, 0, .rw, (.range 16 65535), true⟩
def CAM_TRIG_SRC : Fld := ⟨0x108, 28, 4, 0, .rw, (.range 0 4), true⟩
def CAM_TRIG_DI_SEL : Fld := ⟨0x108, 24, 4, 0, .rw, .any, true⟩
def CAM_TRIG_FRAME_H : Fld := ⟨0x108, 0, 16, 0, .rw, (.range 1 65535), true⟩
def CAM_TRIGSTEP_STEP : Fld := ⟨0x10C, 0, 32, 0, .rw, (.range 16 4294967295), true⟩
def CAM_TRIGPH_PHASE : Fld := ⟨0x110, 0, 32, 0, .rw, .any, true⟩
def CAM_TIMING_MIN_PERIOD : Fld := ⟨0x114, 0, 24, 0, .rw, .any, true⟩
def CAM_DMG_PAD_VALUE : Fld := ⟨0x118, 16, 16, 0, .rw, .any, true⟩
def CAM_DMG_DMG_LIMIT : Fld := ⟨0x118, 8, 8, 0, .rw, .any, true⟩
def CAM_DMG_LATE_US : Fld := ⟨0x118, 0, 8, 0x32, .rw, (.range 1 255), true⟩
def CAM_STATX_X1 : Fld := ⟨0x11C, 16, 16, 0, .rw, .any, false⟩
def CAM_STATX_X0 : Fld := ⟨0x11C, 0, 16, 0, .rw, .any, false⟩
def CAM_STATCFG_WIN_LOG2 : Fld := ⟨0x120, 0, 5, 0xC, .rw, (.range 8 16), false⟩
def CAM_CNT_LINE (k : Nat) : Fld := ⟨0x200 + 0x4 * k, 0, 32, 0, .ro, .any, false⟩
def CAM_CNT_TRIGDROP : Fld := ⟨0x214, 0, 32, 0, .ro, .any, false⟩
def CAM_CNT_LINKLOSS : Fld := ⟨0x218, 0, 32, 0, .ro, .any, false⟩
def CAM_CNT_CRC (l : Nat) : Fld := ⟨0x21C + 0x4 * l, 0, 32, 0, .ro, .any, false⟩
def CAM_STAT_SEQ : Fld := ⟨0x22C, 0, 32, 0, .ro, .any, false⟩
def CAM_HIST (c : Nat) (b : Nat) : Fld := ⟨0x1000 + 0x400 * c + 0x4 * b, 0, 32, 0, .ro, .any, false⟩
def CAM_ZMEAN (c : Nat) (z : Nat) : Fld := ⟨0x2000 + 0x40 * c + 0x4 * z, 0, 24, 0, .ro, .any, false⟩

def PCAM_IFCFG_CC_PULSE : Fld := ⟨0x100, 16, 16, 100, .rw, (.range 10 65535), true⟩
def PCAM_IFCFG_CC_OUT : Fld := ⟨0x100, 13, 3, 0, .rw, .any, false⟩
def PCAM_IFCFG_BAUD : Fld := ⟨0x100, 10, 3, 4, .rw, (.range 0 4), false⟩
def PCAM_IFCFG_USE_FVAL : Fld := ⟨0x100, 6, 1, 0, .rw, .any, true⟩
def PCAM_IFCFG_USE_DVAL : Fld := ⟨0x100, 5, 1, 0, .rw, .any, true⟩
def PCAM_IFCFG_EDGE : Fld := ⟨0x100, 4, 1, 0, .rw, .any, true⟩
def PCAM_IFCFG_FORMAT_P : Fld := ⟨0x100, 0, 4, 0, .rw, (.range 0 3), true⟩
def PCAM_SERDATA_TX_FULL : Fld := ⟨0x124, 9, 1, 0, .ro, .any, false⟩
def PCAM_SERDATA_RX_VALID : Fld := ⟨0x124, 8, 1, 0, .ro, .any, false⟩
def PCAM_SERDATA_DATA : Fld := ⟨0x124, 0, 8, 0, .ro, .any, false⟩

def CLM_KW_K (k : Nat) : Fld := ⟨0x100 + 0x4 * k, 0, 32, 0x3F800000, .rw, (.range 1 0x7F7FFFFF), true⟩
def CLM_MAT_COEF (k : Nat) (i : Nat) : Fld := ⟨0x200 + 0x40 * k + 0x4 * i, 0, 32, (if i % 4 = 0 then 0x1000000 else 0), .rw, .any, true⟩
def CLM_BLK_BLACK (k : Nat) (j : Nat) : Fld := ⟨0x224 + 0x40 * k + 0x4 * j, 0, 32, 0, .rw, .any, true⟩
def CLM_TLOAD_LO : Fld := ⟨0x500, 0, 32, 0, .rw, .any, false⟩
def CLM_TLOAD_HI : Fld := ⟨0x504, 0, 32, 0, .rw, .any, false⟩
def CLM_TLOAD_LOAD_STATUS : Fld := ⟨0x508, 16, 16, 0, .ro, .any, false⟩
def CLM_TLOAD_BUSY : Fld := ⟨0x508, 8, 1, 0, .ro, .any, false⟩
def CLM_TLOAD_SET : Fld := ⟨0x508, 4, 4, 0, .rw, .any, false⟩
def CLM_TLOAD_GO : Fld := ⟨0x508, 0, 1, 0, .wo, .any, false⟩

def TAN_PORT_CFG_DLY_B (n : Nat) : Fld := ⟨0x100 + 0x4 * n, 15, 5, 0, .rw, .any, true⟩
def TAN_PORT_CFG_DLY_G (n : Nat) : Fld := ⟨0x100 + 0x4 * n, 10, 5, 0, .rw, .any, true⟩
def TAN_PORT_CFG_DLY_R (n : Nat) : Fld := ⟨0x100 + 0x4 * n, 5, 5, 0, .rw, .any, true⟩
def TAN_PORT_CFG_FF_EN (n : Nat) : Fld := ⟨0x100 + 0x4 * n, 4, 1, 0, .rw, .any, true⟩
def TAN_PORT_CFG_BAYER_PH (n : Nat) : Fld := ⟨0x100 + 0x4 * n, 2, 2, 0, .rw, .any, true⟩
def TAN_PORT_CFG_ALIGN (n : Nat) : Fld := ⟨0x100 + 0x4 * n, 0, 2, 0, .rw, (.range 0 2), true⟩
def TAN_FFADDR_LO (n : Nat) : Fld := ⟨0x140 + 0x8 * n, 0, 32, 0, .rw, .any, true⟩
def TAN_FFADDR_HI (n : Nat) : Fld := ⟨0x144 + 0x8 * n, 0, 32, 0, .rw, .any, true⟩
def TAN_REGTAB_LO : Fld := ⟨0x200, 0, 32, 0, .rw, .any, true⟩
def TAN_REGTAB_HI : Fld := ⟨0x204, 0, 32, 0, .rw, .any, true⟩
def TAN_REGCNT : Fld := ⟨0x208, 0, 32, 0, .rw, (.range 0 256), true⟩
def TAN_RING_BASE_LO : Fld := ⟨0x300, 0, 32, 0, .rw, .any, false⟩
def TAN_RING_BASE_HI : Fld := ⟨0x304, 0, 32, 0, .rw, .any, false⟩
def TAN_RING_CFG_SIZE_LOG2 : Fld := ⟨0x308, 16, 5, 6, .rw, (.range 6 16), false⟩
def TAN_RING_CFG_LOW_WATER : Fld := ⟨0x308, 0, 16, 16, .rw, .any, false⟩
def TAN_RING_WR_ALARM : Fld := ⟨0x30C, 31, 1, 0, .ro, .any, false⟩
def TAN_RING_WR_WR : Fld := ⟨0x30C, 0, 16, 0, .ro, .any, false⟩
def TAN_RING_FREE : Fld := ⟨0x310, 0, 17, 0, .ro, .any, false⟩
def TAN_RING_REL : Fld := ⟨0x314, 0, 16, 0, .wo, .any, false⟩
def TAN_ARENA_BASE_LO : Fld := ⟨0x320, 0, 32, 0, .rw, .any, false⟩
def TAN_ARENA_BASE_HI : Fld := ⟨0x324, 0, 32, 0, .rw, .any, false⟩
def TAN_ARENA_SIZE : Fld := ⟨0x328, 0, 32, 0, .rw, (.range 1 4096), false⟩
def TAN_ART_LIMIT : Fld := ⟨0x400, 0, 17, 0x10000, .rw, (.range 1 65536), false⟩
def TAN_ART_DB_LO : Fld := ⟨0x404, 0, 32, 0, .wo, .any, false⟩
def TAN_ART_DB_HI : Fld := ⟨0x408, 0, 32, 0, .wo, .any, false⟩
def TAN_ART_STAT_DB_LOST : Fld := ⟨0x40C, 3, 1, 0, .w1c, .any, false⟩
def TAN_ART_STAT_QUEUED : Fld := ⟨0x40C, 0, 3, 0, .ro, .any, false⟩
def TAN_DICT_ADDR_LO (k : Nat) : Fld := ⟨0x500 + 0x8 * k, 0, 32, 0, .rw, .any, false⟩
def TAN_DICT_ADDR_HI (k : Nat) : Fld := ⟨0x504 + 0x8 * k, 0, 32, 0, .rw, .any, false⟩
def TAN_DICT_LOAD_LOAD_STATUS : Fld := ⟨0x580, 16, 16, 0, .ro, .any, false⟩
def TAN_DICT_LOAD_BUSY : Fld := ⟨0x580, 8, 1, 0, .ro, .any, false⟩
def TAN_DICT_LOAD_GO : Fld := ⟨0x580, 4, 1, 0, .wo, .any, false⟩
def TAN_DICT_LOAD_SLOT : Fld := ⟨0x580, 0, 4, 0, .rw, .any, false⟩
def TAN_DICT_VALID : Fld := ⟨0x584, 0, 16, 0, .ro, .any, false⟩
def TAN_TXTQ_BASE_LO : Fld := ⟨0x600, 0, 32, 0, .rw, .any, false⟩
def TAN_TXTQ_BASE_HI : Fld := ⟨0x604, 0, 32, 0, .rw, .any, false⟩
def TAN_TXTQ_SIZE : Fld := ⟨0x608, 0, 32, 0, .rw, (.only [4,8,16,32,64,128,256,512,1024,2048,4096,8192,16384,32768,65536]), false⟩
def TAN_TXTQ_WR : Fld := ⟨0x60C, 0, 32, 0, .rw, .any, false⟩
def TAN_TXTQ_RD : Fld := ⟨0x610, 0, 32, 0, .ro, .any, false⟩
def TAN_CNT_PARTS : Fld := ⟨0x800, 0, 32, 0, .ro, .any, false⟩
def TAN_CNT_SEC_CORR : Fld := ⟨0x804, 0, 32, 0, .ro, .any, false⟩
def TAN_CNT_SEC_UNC : Fld := ⟨0x808, 0, 32, 0, .ro, .any, false⟩
def TAN_CNT_RES_RETRY : Fld := ⟨0x80C, 0, 32, 0, .ro, .any, false⟩
def TAN_CNT_RES_FAIL : Fld := ⟨0x810, 0, 32, 0, .ro, .any, false⟩
def TAN_CNT_RINGFULL : Fld := ⟨0x814, 0, 32, 0, .ro, .any, false⟩
def TAN_CNT_CONCEAL : Fld := ⟨0x818, 0, 32, 0, .ro, .any, false⟩
def TAN_CNT_UNK : Fld := ⟨0x81C, 0, 32, 0, .ro, .any, false⟩
def TAN_CNT_TXT_LONG : Fld := ⟨0x820, 0, 32, 0, .ro, .any, false⟩
def TAN_CNT_INTAKE_FULL : Fld := ⟨0x824, 0, 32, 0, .ro, .any, false⟩

def CLU_CTRL_SUSPECT : Fld := ⟨0x4, 7, 1, 0, .ro, .any, false⟩
def CLU_CTRL_ST_RESULT : Fld := ⟨0x4, 4, 2, 0, .ro, .any, false⟩
def CLU_CTRL_SELFTEST : Fld := ⟨0x4, 3, 1, 0, .w1s, .any, false⟩
def CLU_CTRL_ROLE : Fld := ⟨0x4, 1, 2, 1, .rw, .any, false⟩
def CLU_EXC_STATUS_STATUS : Fld := ⟨0x100, 16, 16, 0, .ro, .any, false⟩
def CLU_EXC_STATUS_CAUSE : Fld := ⟨0x100, 8, 8, 0, .ro, .any, false⟩
def CLU_EXC_STATUS_VALID : Fld := ⟨0x100, 0, 1, 0, .w1c, .any, false⟩
def CLU_EXC_PC_PC : Fld := ⟨0x104, 0, 17, 0, .ro, .any, false⟩
def CLU_EXC_TILE_TRAPHI : Fld := ⟨0x108, 24, 8, 0, .ro, .any, false⟩
def CLU_EXC_TILE_TILE : Fld := ⟨0x108, 0, 24, 0, .ro, .any, false⟩
def CLU_EXC_ADDR_LO_ADDR : Fld := ⟨0x10C, 0, 32, 0, .ro, .any, false⟩
def CLU_EXC_ADDR_HI_ADDR : Fld := ⟨0x110, 0, 32, 0, .ro, .any, false⟩
def CLU_EXC_INSTR_LO_INSTR : Fld := ⟨0x114, 0, 32, 0, .ro, .any, false⟩
def CLU_EXC_INSTR_HI_INSTR : Fld := ⟨0x118, 0, 32, 0, .ro, .any, false⟩
def CLU_EXC_CMD_QPTR : Fld := ⟨0x11C, 0, 32, 0, .ro, .any, false⟩
def CLU_CNT_TILES : Fld := ⟨0x800, 0, 32, 0, .ro, .any, false⟩
def CLU_CNT_EXC : Fld := ⟨0x804, 0, 32, 0, .ro, .any, false⟩
def CLU_CNT_RERUN : Fld := ⟨0x808, 0, 32, 0, .ro, .any, false⟩
def CLU_CNT_ABANDON : Fld := ⟨0x80C, 0, 32, 0, .ro, .any, false⟩
def CLU_CNT_WORK_HI : Fld := ⟨0x810, 0, 32, 0, .ro, .any, false⟩
def CLU_CNT_IC_MISS : Fld := ⟨0x814, 0, 32, 0, .ro, .any, false⟩

def KVC_POOL_BASE_LO (k : Nat) : Fld := ⟨0x100 + 0x20 * k, 0, 32, 0, .rw, .any, true⟩
def KVC_POOL_BASE_HI (k : Nat) : Fld := ⟨0x104 + 0x20 * k, 0, 32, 0, .rw, .any, true⟩
def KVC_POOL_CFG_VALID (k : Nat) : Fld := ⟨0x108 + 0x20 * k, 31, 1, 0, .rw, .any, true⟩
def KVC_POOL_CFG_FMT (k : Nat) : Fld := ⟨0x108 + 0x20 * k, 24, 4, 5, .rw, (.range 2 5), true⟩
def KVC_POOL_CFG_D (k : Nat) : Fld := ⟨0x108 + 0x20 * k, 0, 15, 0, .rw, (.step 8 16384 8), true⟩
def KVC_POOL_PAGES_FIRST (k : Nat) : Fld := ⟨0x10C + 0x20 * k, 16, 14, 0, .rw, .any, true⟩
def KVC_POOL_PAGES_COUNT (k : Nat) : Fld := ⟨0x10C + 0x20 * k, 0, 15, 0, .rw, (.range 0 16384), true⟩
def KVC_POOL_FREE (k : Nat) : Fld := ⟨0x110 + 0x20 * k, 0, 15, 0, .ro, .any, false⟩
def KVC_SWAP_BASE_LO : Fld := ⟨0x200, 0, 32, 0, .rw, .any, false⟩
def KVC_SWAP_BASE_HI : Fld := ⟨0x204, 0, 32, 0, .rw, .any, false⟩
def KVC_SWAP_CFG_EN : Fld := ⟨0x208, 31, 1, 0, .rw, .any, false⟩
def KVC_SWAP_CFG_DMA_CH : Fld := ⟨0x208, 16, 8, 0, .rw, .any, false⟩
def KVC_SWAP_CFG_SLOTS : Fld := ⟨0x208, 0, 16, 0, .rw, .any, false⟩
def KVC_SWAP_STAT_USED : Fld := ⟨0x20C, 16, 16, 0, .ro, .any, false⟩
def KVC_SWAP_STAT_REFUSED : Fld := ⟨0x20C, 1, 1, 0, .w1c, .any, false⟩
def KVC_SWAP_STAT_LINK : Fld := ⟨0x20C, 0, 1, 0, .ro, .any, false⟩
def KVC_CNT_ALLOC : Fld := ⟨0x800, 0, 32, 0, .ro, .any, false⟩
def KVC_CNT_FREE : Fld := ⟨0x804, 0, 32, 0, .ro, .any, false⟩
def KVC_CNT_COW : Fld := ⟨0x808, 0, 32, 0, .ro, .any, false⟩
def KVC_CNT_FORK : Fld := ⟨0x80C, 0, 32, 0, .ro, .any, false⟩
def KVC_CNT_SWAP_OUT : Fld := ⟨0x810, 0, 32, 0, .ro, .any, false⟩
def KVC_CNT_SWAP_IN : Fld := ⟨0x814, 0, 32, 0, .ro, .any, false⟩
def KVC_CNT_EXHAUSTED : Fld := ⟨0x818, 0, 32, 0, .ro, .any, false⟩
def KVC_CNT_SEG_REFUSED : Fld := ⟨0x81C, 0, 32, 0, .ro, .any, false⟩
def KVC_SEQ_OPEN : Fld := ⟨0x820, 0, 32, 0, .ro, .any, false⟩
def KVC_FREE_MIN : Fld := ⟨0x824, 0, 32, 0, .ro, .any, false⟩

def LNK_SYSCFG_MIN_CLUSTERS : Fld := ⟨0x100, 16, 10, 0, .rw, .any, false⟩
def LNK_SYSCFG_MODULES : Fld := ⟨0x100, 8, 5, 1, .rw, (.range 1 16), false⟩
def LNK_SYSCFG_TOPO : Fld := ⟨0x100, 4, 1, 0, .ro, .any, false⟩
def LNK_SYSCFG_POSITION : Fld := ⟨0x100, 0, 4, 0, .ro, .any, false⟩
def LNK_ASSIGN_KEY : Fld := ⟨0x104, 16, 16, 0, .wo, .any, false⟩
def LNK_ASSIGN_TOPO : Fld := ⟨0x104, 8, 1, 0, .wo, .any, false⟩
def LNK_ASSIGN_POSITION : Fld := ⟨0x104, 0, 4, 0, .wo, .any, false⟩
def LNK_SYSID_LO : Fld := ⟨0x108, 0, 32, 0, .rw, .any, false⟩
def LNK_SYSID_HI : Fld := ⟨0x10C, 0, 32, 0, .rw, .any, false⟩
def LNK_PORT_STAT_PEER_MAJOR (p : Nat) : Fld := ⟨0x110 + 0x4 * p, 16, 8, 0, .ro, .any, false⟩
def LNK_PORT_STAT_PEER_POS (p : Nat) : Fld := ⟨0x110 + 0x4 * p, 12, 4, 0, .ro, .any, false⟩
def LNK_PORT_STAT_LANES_UP (p : Nat) : Fld := ⟨0x110 + 0x4 * p, 8, 4, 0, .ro, .any, false⟩
def LNK_PORT_STAT_CAUSE (p : Nat) : Fld := ⟨0x110 + 0x4 * p, 4, 3, 0, .ro, .any, false⟩
def LNK_PORT_STAT_PSTATE (p : Nat) : Fld := ⟨0x110 + 0x4 * p, 0, 3, 0, .ro, .any, false⟩
def LNK_VERSION_MAJOR : Fld := ⟨0x118, 8, 8, 0, .ro, .any, false⟩
def LNK_VERSION_MINOR : Fld := ⟨0x118, 0, 8, 0, .ro, .any, false⟩
def LNK_MEMBERS_JOINED : Fld := ⟨0x11C, 16, 16, 0, .ro, .any, false⟩
def LNK_MEMBERS_IN : Fld := ⟨0x11C, 0, 16, 0, .ro, .any, false⟩
def LNK_SVC_IN_SERVICE : Fld := ⟨0x120, 1, 1, 0, .ro, .any, false⟩
def LNK_SVC_COMPUTE_OUT : Fld := ⟨0x120, 0, 1, 0, .rw, .any, false⟩
def LNK_POSCFG_ALIGNED : Fld := ⟨0x124, 4, 2, 0, .ro, .any, false⟩
def LNK_POSCFG_FOLLOW : Fld := ⟨0x124, 0, 2, 0, .rw, .any, true⟩
def LNK_POSOFF (p : Nat) : Fld := ⟨0x128 + 0x4 * p, 0, 32, 0, .ro, .any, false⟩
def LNK_SUBVCFG_GUARD_US (p : Nat) : Fld := ⟨0x130 + 0x4 * p, 24, 8, 0x14, .rw, .any, true⟩
def LNK_SUBVCFG_EN (p : Nat) : Fld := ⟨0x130 + 0x4 * p, 16, 1, 0, .rw, .any, true⟩
def LNK_SUBVCFG_OWNER (p : Nat) : Fld := ⟨0x130 + 0x4 * p, 12, 4, 0, .rw, .any, true⟩
def LNK_SUBVCFG_CHECK (p : Nat) : Fld := ⟨0x130 + 0x4 * p, 0, 6, 0, .rw, (.range 19 63), true⟩
def LNK_CINCH_DELAY : Fld := ⟨0x138, 0, 16, 0x3E8, .ro, .any, false⟩
def LNK_EPOCH_POS_LO : Fld := ⟨0x140, 0, 32, 0, .rw, .any, false⟩
def LNK_EPOCH_POS_HI : Fld := ⟨0x144, 0, 32, 0, .rw, .any, false⟩
def LNK_EPOCH_CFG_JOB_END : Fld := ⟨0x148, 7, 1, 0, .rw, .any, false⟩
def LNK_EPOCH_CFG_REVERT : Fld := ⟨0x148, 6, 1, 0, .rw, .any, false⟩
def LNK_EPOCH_CFG_BANK_SWITCH : Fld := ⟨0x148, 5, 1, 0, .rw, .any, false⟩
def LNK_EPOCH_CFG_JOB_START : Fld := ⟨0x148, 4, 1, 0, .rw, .any, false⟩
def LNK_EPOCH_CFG_PORT : Fld := ⟨0x148, 0, 1, 0, .rw, .any, false⟩
def LNK_EPOCH_GO : Fld := ⟨0x14C, 0, 1, 0, .w1s, .any, false⟩
def LNK_EPOCH_STAT_REFUSER : Fld := ⟨0x150, 16, 4, 0, .ro, .any, false⟩
def LNK_EPOCH_STAT_CAUSE : Fld := ⟨0x150, 8, 8, 0, .ro, .any, false⟩
def LNK_EPOCH_STAT_JOB_RUN : Fld := ⟨0x150, 3, 1, 0, .ro, .any, false⟩
def LNK_EPOCH_STAT_ESTATE : Fld := ⟨0x150, 0, 3, 0, .ro, .any, false⟩
def LNK_EPOCH_NUM : Fld := ⟨0x154, 0, 32, 0, .ro, .any, false⟩
def LNK_SSNAP_POS_LO : Fld := ⟨0x158, 0, 32, 0, .rw, .any, false⟩
def LNK_SSNAP_POS_HI : Fld := ⟨0x15C, 0, 32, 0, .rw, .any, false⟩
def LNK_SSNAP_GO : Fld := ⟨0x160, 0, 1, 0, .w1s, .any, false⟩
def LNK_JOB_LO : Fld := ⟨0x168, 0, 32, 0, .rw, .any, false⟩
def LNK_JOB_HI : Fld := ⟨0x16C, 0, 32, 0, .rw, .any, false⟩
def LNK_RXWIN_BASE (k : Nat) : Fld := ⟨0x180 + 0x4 * k, 16, 16, 0, .rw, .any, false⟩
def LNK_RXWIN_SIZE (k : Nat) : Fld := ⟨0x180 + 0x4 * k, 1, 15, 0, .rw, (.range 1 32767), false⟩
def LNK_RXWIN_VALID (k : Nat) : Fld := ⟨0x180 + 0x4 * k, 0, 1, 0, .rw, .any, false⟩
def LNK_CONTRACT (i : Nat) : Fld := ⟨0x1C0 + 0x4 * i, 0, 32, 0, .ro, .any, false⟩
def LNK_RESETREQ_KEY : Fld := ⟨0x1E0, 16, 16, 0, .wo, .any, false⟩
def LNK_RESETREQ_GO : Fld := ⟨0x1E0, 8, 1, 0, .wo, .any, false⟩
def LNK_RESETREQ_TARGET : Fld := ⟨0x1E0, 0, 4, 0, .wo, .any, false⟩
def LNK_CNT_CRC (p : Nat) : Fld := ⟨0x800 + 0x4 * p, 0, 32, 0, .ro, .any, false⟩
def LNK_CNT_REPLAY (p : Nat) : Fld := ⟨0x808 + 0x4 * p, 0, 32, 0, .ro, .any, false⟩
def LNK_CNT_DOWN (p : Nat) : Fld := ⟨0x810 + 0x4 * p, 0, 32, 0, .ro, .any, false⟩
def LNK_CNT_FWD : Fld := ⟨0x818, 0, 32, 0, .ro, .any, false⟩
def LNK_CNT_BARRIERS : Fld := ⟨0x81C, 0, 32, 0, .ro, .any, false⟩
def LNK_CNT_BARRIER_LATE : Fld := ⟨0x820, 0, 32, 0, .ro, .any, false⟩
def LNK_CNT_EPOCHS : Fld := ⟨0x824, 0, 32, 0, .ro, .any, false⟩
def LNK_CNT_EPOCH_ABORT : Fld := ⟨0x828, 0, 32, 0, .ro, .any, false⟩
def LNK_CNT_SUBV_RX : Fld := ⟨0x82C, 0, 32, 0, .ro, .any, false⟩
def LNK_CNT_SUBV_LATE : Fld := ⟨0x830, 0, 32, 0, .ro, .any, false⟩
def LNK_CNT_POISON_RX : Fld := ⟨0x834, 0, 32, 0, .ro, .any, false⟩
def LNK_CNT_MEMBER_LOST : Fld := ⟨0x838, 0, 32, 0, .ro, .any, false⟩

def SCH_FLOOR (p : Nat) : Fld := ⟨0x100 + 0x4 * p, 0, 32, 10000, .rw, (.range 1 4294967295), false⟩
def SCH_ACTNEXT_LO : Fld := ⟨0x110, 0, 32, 0, .rw, .any, false⟩
def SCH_ACTNEXT_HI : Fld := ⟨0x114, 0, 32, 0, .rw, .any, false⟩
def SCH_ACT_LO : Fld := ⟨0x118, 0, 32, 0, .ro, .any, false⟩
def SCH_ACT_HI : Fld := ⟨0x11C, 0, 32, 0, .ro, .any, false⟩
def SCH_CTXTAB_LO : Fld := ⟨0x120, 0, 32, 0, .rw, .any, false⟩
def SCH_CTXTAB_HI : Fld := ⟨0x124, 0, 32, 0, .rw, .any, false⟩
def SCH_CTX_CMD_OP : Fld := ⟨0x128, 8, 2, 0, .wo, .any, false⟩
def SCH_CTX_CMD_CTX : Fld := ⟨0x128, 0, 6, 0, .wo, .any, false⟩
def SCH_SUBST_OK_LO : Fld := ⟨0x130, 0, 32, 0, .ro, .any, false⟩
def SCH_SUBST_OK_HI : Fld := ⟨0x134, 0, 32, 0, .ro, .any, false⟩
def SCH_CTX_STATE_LOAD_STATUS (k : Nat) : Fld := ⟨0x200 + 0x4 * k, 16, 16, 0, .ro, .any, false⟩
def SCH_CTX_STATE_CSTATE (k : Nat) : Fld := ⟨0x200 + 0x4 * k, 0, 3, 0, .ro, .any, false⟩
def SCH_CNT_FETCHED : Fld := ⟨0x800, 0, 32, 0, .ro, .any, false⟩
def SCH_CNT_COMPLETED : Fld := ⟨0x804, 0, 32, 0, .ro, .any, false⟩
def SCH_CNT_REFUSED : Fld := ⟨0x808, 0, 32, 0, .ro, .any, false⟩
def SCH_CNT_DEPFAIL : Fld := ⟨0x80C, 0, 32, 0, .ro, .any, false⟩
def SCH_CNT_DEADLINE : Fld := ⟨0x810, 0, 32, 0, .ro, .any, false⟩
def SCH_CNT_MERGE_DUP : Fld := ⟨0x814, 0, 32, 0, .ro, .any, false⟩
def SCH_CNT_BATCHES : Fld := ⟨0x818, 0, 32, 0, .ro, .any, false⟩
def SCH_CNT_BATCH_TOKENS : Fld := ⟨0x81C, 0, 32, 0, .ro, .any, false⟩
def SCH_CNT_CHANGEOVERS : Fld := ⟨0x820, 0, 32, 0, .ro, .any, false⟩
def SCH_INFLIGHT_MAX : Fld := ⟨0x824, 0, 32, 0, .ro, .any, false⟩
def SCH_Q_BASE_LO (q : Nat) : Fld := ⟨0x1000 + 0x20 * q, 0, 32, 0, .rw, .any, false⟩
def SCH_Q_BASE_HI (q : Nat) : Fld := ⟨0x1004 + 0x20 * q, 0, 32, 0, .rw, .any, false⟩
def SCH_Q_CFG_QSTATE (q : Nat) : Fld := ⟨0x1008 + 0x20 * q, 24, 3, 0, .ro, .any, false⟩
def SCH_Q_CFG_CTX (q : Nat) : Fld := ⟨0x1008 + 0x20 * q, 16, 8, 0xFF, .rw, .any, false⟩
def SCH_Q_CFG_SIZE_LOG2 (q : Nat) : Fld := ⟨0x1008 + 0x20 * q, 8, 5, 4, .rw, (.range 4 15), false⟩
def SCH_Q_CFG_CLASS (q : Nat) : Fld := ⟨0x1008 + 0x20 * q, 6, 2, 0, .rw, .any, false⟩
def SCH_Q_CFG_CQ (q : Nat) : Fld := ⟨0x1008 + 0x20 * q, 2, 4, 0, .rw, .any, false⟩
def SCH_Q_CFG_DB_OVER (q : Nat) : Fld := ⟨0x1008 + 0x20 * q, 1, 1, 0, .w1c, .any, false⟩
def SCH_Q_CFG_QEN (q : Nat) : Fld := ⟨0x1008 + 0x20 * q, 0, 1, 0, .rw, .any, false⟩
def SCH_Q_DB (q : Nat) : Fld := ⟨0x100C + 0x20 * q, 0, 16, 0, .wo, .any, false⟩
def SCH_Q_PTR_DONE (q : Nat) : Fld := ⟨0x1010 + 0x20 * q, 16, 16, 0, .ro, .any, false⟩
def SCH_Q_PTR_FETCH (q : Nat) : Fld := ⟨0x1010 + 0x20 * q, 0, 16, 0, .ro, .any, false⟩
def SCH_CQ_BASE_LO (c : Nat) : Fld := ⟨0x1800 + 0x20 * c, 0, 32, 0, .rw, .any, false⟩
def SCH_CQ_BASE_HI (c : Nat) : Fld := ⟨0x1804 + 0x20 * c, 0, 32, 0, .rw, .any, false⟩
def SCH_CQ_CFG_FULL (c : Nat) : Fld := ⟨0x1808 + 0x20 * c, 16, 1, 0, .ro, .any, false⟩
def SCH_CQ_CFG_SIZE_LOG2 (c : Nat) : Fld := ⟨0x1808 + 0x20 * c, 8, 5, 4, .rw, (.range 4 15), false⟩
def SCH_CQ_WR (c : Nat) : Fld := ⟨0x180C + 0x20 * c, 0, 16, 0, .ro, .any, false⟩
def SCH_CQ_RD (c : Nat) : Fld := ⟨0x1810 + 0x20 * c, 0, 16, 0, .rw, .any, false⟩
def SCH_SRQ_WR (k : Nat) : Fld := ⟨0x3000 + 0x8 * k, 0, 32, 0, .rw, .any, false⟩
def SCH_SRQ_RD (k : Nat) : Fld := ⟨0x3004 + 0x8 * k, 0, 32, 0, .ro, .any, false⟩
def SCH_MAP_MODULE1 (i : Nat) : Fld := ⟨0x4000 + 0x4 * i, 28, 4, 0, .ro, .any, false⟩
def SCH_MAP_HOME1 (i : Nat) : Fld := ⟨0x4000 + 0x4 * i, 16, 6, ((2*i+1) % 34), .ro, .any, false⟩
def SCH_MAP_MODULE0 (i : Nat) : Fld := ⟨0x4000 + 0x4 * i, 12, 4, 0, .ro, .any, false⟩
def SCH_MAP_HOME0 (i : Nat) : Fld := ⟨0x4000 + 0x4 * i, 0, 6, ((2*i) % 34), .ro, .any, false⟩
def SCH_SMAP_MODULE1 (i : Nat) : Fld := ⟨0x4800 + 0x4 * i, 28, 4, 0, .rw, .any, false⟩
def SCH_SMAP_HOME1 (i : Nat) : Fld := ⟨0x4800 + 0x4 * i, 16, 6, ((2*i+1) % 34), .rw, (.range 0 33), false⟩
def SCH_SMAP_MODULE0 (i : Nat) : Fld := ⟨0x4800 + 0x4 * i, 12, 4, 0, .rw, .any, false⟩
def SCH_SMAP_HOME0 (i : Nat) : Fld := ⟨0x4800 + 0x4 * i, 0, 6, ((2*i) % 34), .rw, (.range 0 33), false⟩

def SDS_CTRL_RETRAIN : Fld := ⟨0x4, 1, 1, 0, .w1s, .any, false⟩
def SDS_STAT_RATE : Fld := ⟨0x100, 16, 4, 0, .ro, .any, false⟩
def SDS_STAT_PSTATE : Fld := ⟨0x100, 12, 2, 3, .ro, .any, false⟩
def SDS_STAT_CHK_SYNC : Fld := ⟨0x100, 3, 1, 0, .ro, .any, false⟩
def SDS_STAT_TRAINED : Fld := ⟨0x100, 2, 1, 0, .ro, .any, false⟩
def SDS_STAT_CDR_LOCK : Fld := ⟨0x100, 1, 1, 0, .ro, .any, false⟩
def SDS_STAT_SIG_DET : Fld := ⟨0x100, 0, 1, 0, .ro, .any, false⟩
def SDS_TEST_TEST_RATE : Fld := ⟨0x104, 28, 4, 0, .rw, .any, false⟩
def SDS_TEST_GEN : Fld := ⟨0x104, 20, 4, 0, .rw, .any, false⟩
def SDS_TEST_CHK : Fld := ⟨0x104, 16, 4, 0, .rw, .any, false⟩
def SDS_TEST_LOOP : Fld := ⟨0x104, 12, 2, 0, .rw, (.range 0 2), false⟩
def SDS_TEST_INJ_MODE : Fld := ⟨0x104, 4, 2, 0, .rw, .any, false⟩
def SDS_TEST_INJ : Fld := ⟨0x104, 0, 1, 0, .w1s, .any, false⟩
def SDS_USERPAT : Fld := ⟨0x108, 0, 32, 0, .rw, .any, false⟩
def SDS_CNT_CHK_BITS_LO : Fld := ⟨0x800, 0, 32, 0, .ro, .any, false⟩
def SDS_CNT_CHK_BITS_HI : Fld := ⟨0x804, 0, 32, 0, .ro, .any, false⟩
def SDS_CNT_CHK_ERR : Fld := ⟨0x808, 0, 32, 0, .ro, .any, false⟩
def SDS_CNT_CODE_ERR : Fld := ⟨0x80C, 0, 32, 0, .ro, .any, false⟩
def SDS_CNT_LOCK_LOSS : Fld := ⟨0x810, 0, 32, 0, .ro, .any, false⟩
def SDS_CNT_RETRAIN : Fld := ⟨0x814, 0, 32, 0, .ro, .any, false⟩

def ETH_CFG_MTU : Fld := ⟨0x100, 16, 16, 0x5F2, .rw, (.range 1522 9600), false⟩
def ETH_CFG_LANE : Fld := ⟨0x100, 3, 1, 0, .rw, .any, false⟩
def ETH_CFG_PAUSE : Fld := ⟨0x100, 2, 1, 0, .rw, .any, false⟩
def ETH_CFG_FEC : Fld := ⟨0x100, 1, 1, 0, .rw, .any, false⟩
def ETH_CFG_SPEED : Fld := ⟨0x100, 0, 1, 1, .rw, .any, false⟩
def ETH_STAT_FEC_LOCK : Fld := ⟨0x104, 3, 1, 0, .ro, .any, false⟩
def ETH_STAT_HI_BER : Fld := ⟨0x104, 2, 1, 0, .ro, .any, false⟩
def ETH_STAT_BLOCK_LOCK : Fld := ⟨0x104, 1, 1, 0, .ro, .any, false⟩
def ETH_STAT_LINK : Fld := ⟨0x104, 0, 1, 0, .ro, .any, false⟩
def ETH_ADDR_LO : Fld := ⟨0x108, 0, 32, 0, .rw, .any, false⟩
def ETH_ADDR_HI : Fld := ⟨0x10C, 0, 16, 0, .rw, .any, false⟩
def ETH_CNT_RX_OK : Fld := ⟨0x800, 0, 32, 0, .ro, .any, false⟩
def ETH_CNT_RX_FCS : Fld := ⟨0x804, 0, 32, 0, .ro, .any, false⟩
def ETH_CNT_RX_LONG : Fld := ⟨0x808, 0, 32, 0, .ro, .any, false⟩
def ETH_CNT_RX_DROP : Fld := ⟨0x80C, 0, 32, 0, .ro, .any, false⟩
def ETH_CNT_TX_OK : Fld := ⟨0x810, 0, 32, 0, .ro, .any, false⟩
def ETH_CNT_TX_POISON : Fld := ⟨0x814, 0, 32, 0, .ro, .any, false⟩
def ETH_CNT_FEC_CORR : Fld := ⟨0x818, 0, 32, 0, .ro, .any, false⟩
def ETH_CNT_FEC_UNCORR : Fld := ⟨0x81C, 0, 32, 0, .ro, .any, false⟩
def ETH_CNT_LINK_DOWN : Fld := ⟨0x820, 0, 32, 0, .ro, .any, false⟩

def PCIE_STAT_LTSSM : Fld := ⟨0x100, 16, 8, 0, .ro, .any, false⟩
def PCIE_STAT_WIDTH : Fld := ⟨0x100, 8, 4, 0, .ro, .any, false⟩
def PCIE_STAT_SPEED : Fld := ⟨0x100, 4, 3, 0, .ro, .any, false⟩
def PCIE_STAT_LINK_UP : Fld := ⟨0x100, 0, 1, 0, .ro, .any, false⟩
def PCIE_CFG_MAX_SPEED : Fld := ⟨0x104, 0, 3, 5, .rw, (.range 1 5), false⟩
def PCIE_ID_DEVICE : Fld := ⟨0x108, 16, 16, 0, .ro, .any, false⟩
def PCIE_ID_VENDOR : Fld := ⟨0x108, 0, 16, 0, .ro, .any, false⟩
def PCIE_CNT_RX_ERR : Fld := ⟨0x800, 0, 32, 0, .ro, .any, false⟩
def PCIE_CNT_REPLAY : Fld := ⟨0x804, 0, 32, 0, .ro, .any, false⟩
def PCIE_CNT_RECOVERY : Fld := ⟨0x808, 0, 32, 0, .ro, .any, false⟩
def PCIE_CNT_POISON_RX : Fld := ⟨0x80C, 0, 32, 0, .ro, .any, false⟩
def PCIE_CNT_UR : Fld := ⟨0x810, 0, 32, 0, .ro, .any, false⟩
def PCIE_CNT_CA : Fld := ⟨0x814, 0, 32, 0, .ro, .any, false⟩
def PCIE_CNT_LINK_DOWN : Fld := ⟨0x818, 0, 32, 0, .ro, .any, false⟩

def DMA_CFG_SHARE : Fld := ⟨0x100, 0, 8, 0, .rw, .any, false⟩
def DMA_STAT_OWNED : Fld := ⟨0x104, 4, 1, 0, .ro, .any, false⟩
def DMA_STAT_REFUSED : Fld := ⟨0x104, 3, 1, 0, .w1c, .any, false⟩
def DMA_STAT_CQ_FULL : Fld := ⟨0x104, 2, 1, 0, .ro, .any, false⟩
def DMA_STAT_HALTED : Fld := ⟨0x104, 1, 1, 0, .w1c, .any, false⟩
def DMA_STAT_IDLE : Fld := ⟨0x104, 0, 1, 0, .ro, .any, false⟩
def DMA_HEAD_LO : Fld := ⟨0x108, 0, 32, 0, .rw, .any, false⟩
def DMA_HEAD_HI : Fld := ⟨0x10C, 0, 32, 0, .rw, .any, false⟩
def DMA_KICK : Fld := ⟨0x110, 0, 1, 0, .wo, .any, false⟩
def DMA_CUR_LO : Fld := ⟨0x118, 0, 32, 0, .ro, .any, false⟩
def DMA_CUR_HI : Fld := ⟨0x11C, 0, 32, 0, .ro, .any, false⟩
def DMA_CQ_BASE_LO : Fld := ⟨0x120, 0, 32, 0, .rw, .any, false⟩
def DMA_CQ_BASE_HI : Fld := ⟨0x124, 0, 32, 0, .rw, .any, false⟩
def DMA_CQ_SIZE : Fld := ⟨0x128, 0, 4, 4, .rw, (.range 4 15), false⟩
def DMA_CQ_WR : Fld := ⟨0x12C, 0, 16, 0, .ro, .any, false⟩
def DMA_CQ_RD : Fld := ⟨0x130, 0, 16, 0, .rw, .any, false⟩
def DMA_ERR_ADDR_LO : Fld := ⟨0x140, 0, 32, 0, .ro, .any, false⟩
def DMA_ERR_ADDR_HI : Fld := ⟨0x144, 0, 32, 0, .ro, .any, false⟩
def DMA_ERR_INFO_STATUS : Fld := ⟨0x148, 16, 16, 0, .ro, .any, false⟩
def DMA_ERR_INFO_SEGMENT : Fld := ⟨0x148, 4, 6, 0, .ro, .any, false⟩
def DMA_ERR_INFO_DESC : Fld := ⟨0x148, 2, 1, 0, .ro, .any, false⟩
def DMA_ERR_INFO_HOST : Fld := ⟨0x148, 1, 1, 0, .ro, .any, false⟩
def DMA_ERR_INFO_WRITE : Fld := ⟨0x148, 0, 1, 0, .ro, .any, false⟩
def DMA_CNT_TRANSFERS : Fld := ⟨0x800, 0, 32, 0, .ro, .any, false⟩
def DMA_CNT_SEGMENTS : Fld := ⟨0x804, 0, 32, 0, .ro, .any, false⟩
def DMA_CNT_BYTES_LO : Fld := ⟨0x808, 0, 32, 0, .ro, .any, false⟩
def DMA_CNT_BYTES_HI : Fld := ⟨0x80C, 0, 32, 0, .ro, .any, false⟩
def DMA_CNT_LINE_OPS : Fld := ⟨0x810, 0, 32, 0, .ro, .any, false⟩
def DMA_CNT_BUS_ERR : Fld := ⟨0x814, 0, 32, 0, .ro, .any, false⟩
def DMA_CNT_POISON : Fld := ⟨0x818, 0, 32, 0, .ro, .any, false⟩
def DMA_CNT_PARAM : Fld := ⟨0x81C, 0, 32, 0, .ro, .any, false⟩
def DMA_CNT_CQ_FULL : Fld := ⟨0x820, 0, 32, 0, .ro, .any, false⟩
def DMA_CNT_BUDGET_WAIT : Fld := ⟨0x824, 0, 32, 0, .ro, .any, false⟩

/-- The index k < `n` with `off = base + stride * k`, if there is one. -/
def slotAt (base stride n off : Nat) : Option Nat :=
  if base ≤ off ∧ (off - base) % stride = 0 ∧ (off - base) / stride < n then some ((off - base) / stride)
  else none

/-- The fields of one member of an array of registers, or none. -/
def atSlot (o : Option Nat) (f : Nat → List Fld) : List Fld :=
  match o with
  | some k => f k
  | none => []

/-- The fields of one member of a two-dimensional array of registers, or none. -/
def atSlot2 (base s1 n1 s2 n2 off : Nat) (f : Nat → Nat → List Fld) : List Fld :=
  if base ≤ off ∧ (off - base) / s1 < n1 then
    atSlot (slotAt 0 s2 n2 ((off - base) % s1)) (f ((off - base) / s1))
  else []

/-- The fields at an offset of a `com` block. -/
def fields_com (off : Nat) : List Fld :=
  if off = 0x0 then [COM_STATE_SNAP_SEQ, COM_STATE_RESET_REFUSED, COM_STATE_FSM] else
  if off = 0x4 then [COM_CTRL_ENABLE] else
  if off = 0x8 then [COM_FENCE_FENCE] else
  if off = 0xC then [COM_RESET_RESET] else
  if off = 0x10 then [COM_SNAP_SNAP] else
  []

/-- The fields at an offset of a `tim` block. -/
def fields_tim (off : Nat) : List Fld :=
  if off = 0x100 then [TIM_INC_NS] else
  if off = 0x104 then [TIM_INC_FRAC] else
  if off = 0x108 then [TIM_STAT_SOURCE, TIM_STAT_REFUSED, TIM_STAT_TICK_FAULT, TIM_STAT_SLEPT, TIM_STAT_HOLDOVER, TIM_STAT_LOCKED, TIM_STAT_VALID] else
  if off = 0x10C then [TIM_CFG_STEP_LIMIT, TIM_CFG_HOLD_MS] else
  if off = 0x120 then [TIM_SET_SEC_LO] else
  if off = 0x124 then [TIM_SET_SEC_HI] else
  if off = 0x128 then [TIM_SET_NS] else
  if off = 0x12C then [TIM_CMD_SERVO_MARK, TIM_CMD_STEP, TIM_CMD_SET] else
  if off = 0x130 then [TIM_ADJ] else
  if off = 0x800 then [TIM_CNT_STEPS] else
  if off = 0x804 then [TIM_CNT_STEP_REFUSED] else
  if off = 0x808 then [TIM_CNT_HOLDOVER] else
  if off = 0x80C then [TIM_CNT_TRIG_SKIP] else
  if off = 0x810 then [TIM_CNT_CAP_LOST] else
  if off = 0x81C then [TIM_CNT_TICK_FAULT] else
  atSlot (slotAt 0x200 0x20 8 off) (fun k => [TIM_GEN_CFG_EVT k, TIM_GEN_CFG_TAN k, TIM_GEN_CFG_STB k, TIM_GEN_CFG_EN k]) ++
  atSlot (slotAt 0x204 0x20 8 off) (fun k => [TIM_GEN_STEP_LO k]) ++
  atSlot (slotAt 0x208 0x20 8 off) (fun k => [TIM_GEN_STEP_HI k]) ++
  atSlot (slotAt 0x20C 0x20 8 off) (fun k => [TIM_GEN_PHASE_LO k]) ++
  atSlot (slotAt 0x210 0x20 8 off) (fun k => [TIM_GEN_PHASE_HI k]) ++
  atSlot (slotAt 0x300 0x20 4 off) (fun c => [TIM_CAP_CFG_EDGE c, TIM_CAP_CFG_SRC c]) ++
  atSlot (slotAt 0x400 0x40 2 off) (fun p => [TIM_PTP_CFG_UDP4 p, TIM_PTP_CFG_L2 p, TIM_PTP_CFG_PTP_EN p]) ++
  atSlot (slotAt 0x404 0x40 2 off) (fun p => [TIM_PTP_LAT_TX p, TIM_PTP_LAT_RX p]) ++
  atSlot (slotAt 0x814 0x4 2 off) (fun p => [TIM_CNT_PTP_LOST p])

/-- The fields at an offset of a `mem` block. -/
def fields_mem (off : Nat) : List Fld :=
  if off = 0x4 then [MEM_CTRL_DRAINED, MEM_CTRL_DRAIN] else
  if off = 0x100 then [MEM_WAYS_PIN_WAYS] else
  if off = 0x104 then [MEM_PF_PF_DIST] else
  []

/-- The fields at an offset of a `mem4` block. -/
def fields_mem4 (off : Nat) : List Fld :=
  if off = 0x100 then [MEM4_SCRUB_PERIOD_H, MEM4_SCRUB_SCRUB_EN] else
  if off = 0x104 then [MEM4_POLICY_CE_LIMIT, MEM4_POLICY_SUSPECT_RETRIES] else
  if off = 0x400 then [MEM4_INJ_UNIT, MEM4_INJ_TARGET, MEM4_INJ_ARM] else
  if off = 0x860 then [MEM4_CNT_SPAD_CE] else
  if off = 0x864 then [MEM4_CNT_SPAD_UE] else
  if off = 0x868 then [MEM4_CNT_RET_CE] else
  if off = 0x8F4 then [MEM4_CNT_RES_FAIL] else
  if off = 0x8F8 then [MEM4_CNT_SUSPECT] else
  if off = 0x8FC then [MEM4_CNT_SCRUB_PASSES] else
  if off = 0x900 then [MEM4_LOG_LOST] else
  atSlot (slotAt 0x200 0x8 8 off) (fun k => [MEM4_PIN_BASE_BASE k, MEM4_PIN_BASE_VALID k]) ++
  atSlot (slotAt 0x204 0x8 8 off) (fun k => [MEM4_PIN_SIZE_SIZE k]) ++
  atSlot (slotAt 0x800 0x4 8 off) (fun c => [MEM4_CNT_DRAM_CE c]) ++
  atSlot (slotAt 0x820 0x4 8 off) (fun c => [MEM4_CNT_DRAM_UE c]) ++
  atSlot (slotAt 0x840 0x4 4 off) (fun n => [MEM4_CNT_SLICE_CE n]) ++
  atSlot (slotAt 0x850 0x4 4 off) (fun n => [MEM4_CNT_SLICE_UE n]) ++
  atSlot (slotAt 0x86C 0x4 34 off) (fun n => [MEM4_CNT_RES_RETRY n])

/-- The fields at an offset of a `evq` block. -/
def fields_evq (off : Nat) : List Fld :=
  if off = 0x800 then [EVQ_CNT_EVENTS] else
  atSlot (slotAt 0x100 0x20 4 off) (fun q => [EVQ_Q_BASE_LO q]) ++
  atSlot (slotAt 0x104 0x20 4 off) (fun q => [EVQ_Q_BASE_HI q]) ++
  atSlot (slotAt 0x108 0x20 4 off) (fun q => [EVQ_Q_CFG_CLASSES q, EVQ_Q_CFG_SIZE_LOG2 q, EVQ_Q_CFG_QEN q]) ++
  atSlot (slotAt 0x10C 0x20 4 off) (fun q => [EVQ_Q_WR q]) ++
  atSlot (slotAt 0x110 0x20 4 off) (fun q => [EVQ_Q_RD q]) ++
  atSlot (slotAt 0x804 0x4 4 off) (fun q => [EVQ_CNT_LOST q])

/-- The fields at an offset of a `stp` block. -/
def fields_stp (off : Nat) : List Fld :=
  if off = 0x100 then [STP_MODE_FILT, STP_MODE_TERM_Z, STP_MODE_TERM_B, STP_MODE_TERM_A, STP_MODE_Z_MODE, STP_MODE_COMPAT, STP_MODE_INVERT, STP_MODE_DECODE, STP_MODE_MODE] else
  if off = 0x104 then [STP_SSI_READ_US, STP_SSI_DLY, STP_SSI_BITS, STP_SSI_CODE, STP_SSI_CLKSEL] else
  if off = 0x108 then [STP_TIMING_SPEED_WIN, STP_TIMING_STANDSTILL_MS] else
  if off = 0x10C then [STP_JUMP] else
  if off = 0x110 then [STP_STAT_ENC_FAULT, STP_STAT_FAULT_NOW, STP_STAT_WIRE, STP_STAT_UNCERTAIN, STP_STAT_DIR, STP_STAT_DIR_PENDING, STP_STAT_SPEED_PENDING, STP_STAT_STANDSTILL, STP_STAT_Z_SEEN] else
  if off = 0x120 then [STP_POS_LO] else
  if off = 0x124 then [STP_POS_HI] else
  if off = 0x128 then [STP_SPEED] else
  if off = 0x130 then [STP_ZPOS_LO] else
  if off = 0x134 then [STP_ZPOS_HI] else
  if off = 0x800 then [STP_CNT_QUAD_ILLEGAL] else
  if off = 0x804 then [STP_CNT_ENC_FAULT] else
  if off = 0x808 then [STP_CNT_SSI_FRAME] else
  if off = 0x80C then [STP_CNT_SSI_JUMP] else
  if off = 0x810 then [STP_CNT_Z] else
  if off = 0x814 then [STP_CNT_STANDSTILL] else
  if off = 0x818 then [STP_CNT_REVERSAL] else
  if off = 0x81C then [STP_CNT_WIRE] else
  []

/-- The fields at an offset of a `ejt` block. -/
def fields_ejt (off : Nat) : List Fld :=
  if off = 0x100 then [EJT_PARTCFG_PS_SRC, EJT_PARTCFG_PRB_SEL] else
  if off = 0x104 then [EJT_PITCH] else
  if off = 0x108 then [EJT_PARTREF_LO] else
  if off = 0x10C then [EJT_PARTREF_HI] else
  if off = 0x110 then [EJT_TARGET] else
  if off = 0x114 then [EJT_GUARD] else
  if off = 0x118 then [EJT_MAXSPEED] else
  if off = 0x11C then [EJT_PSMIN] else
  if off = 0x170 then [EJT_SRC] else
  if off = 0x174 then [EJT_OPEN] else
  if off = 0x180 then [EJT_XTGT_LO] else
  if off = 0x184 then [EJT_XTGT_HI] else
  if off = 0x188 then [EJT_XOPEN_XSTATUS, EJT_XOPEN_XSLOT, EJT_XOPEN_GO] else
  if off = 0x18C then [EJT_COMMIT_VERDICT, EJT_COMMIT_SLOT] else
  if off = 0x190 then [EJT_FIRE_CLASS] else
  if off = 0x1A0 then [EJT_REC_BASE_LO] else
  if off = 0x1A4 then [EJT_REC_BASE_HI] else
  if off = 0x1A8 then [EJT_REC_SIZE] else
  if off = 0x1AC then [EJT_REC_WR] else
  if off = 0x1B0 then [EJT_REC_RD] else
  if off = 0x800 then [EJT_CNT_OPENED] else
  if off = 0x814 then [EJT_CNT_MISSED] else
  if off = 0x818 then [EJT_CNT_FIRED] else
  if off = 0x81C then [EJT_CNT_INHIBITED] else
  if off = 0x820 then [EJT_CNT_OVERSPEED] else
  if off = 0x824 then [EJT_CNT_SRC_DISCARD] else
  if off = 0x828 then [EJT_CNT_REC_LOST] else
  if off = 0x82C then [EJT_CNT_PS_LOCKOUT] else
  if off = 0x830 then [EJT_CNT_NOSLOT] else
  atSlot (slotAt 0x140 0x10 3 off) (fun c => [EJT_CLS_CFG_PULSE c, EJT_CLS_CFG_MASK c]) ++
  atSlot (slotAt 0x144 0x10 3 off) (fun c => [EJT_CLS_DELAY c]) ++
  atSlot (slotAt 0x148 0x10 3 off) (fun c => [EJT_CLS_OFFSET c]) ++
  atSlot (slotAt 0x804 0x4 4 off) (fun v => [EJT_CNT_VERDICT v])

/-- The fields at an offset of a `fio` block. -/
def fields_fio (off : Nat) : List Fld :=
  if off = 0x100 then [FIO_STAT_DO_FAULT, FIO_STAT_ENCV1_FAULT, FIO_STAT_ENCV0_FAULT, FIO_STAT_UV, FIO_STAT_SAFE, FIO_STAT_FAULT] else
  if off = 0x104 then [FIO_DI] else
  if off = 0x108 then [FIO_DI_FILT_FILT_HI, FIO_DI_FILT_FILT_LO] else
  if off = 0x10C then [FIO_DI_EVT_FALL, FIO_DI_EVT_RISE] else
  if off = 0x800 then [FIO_CNT_DO_OVL] else
  if off = 0x804 then [FIO_CNT_DO_THERM] else
  if off = 0x808 then [FIO_CNT_UV] else
  atSlot (slotAt 0x140 0x4 8 off) (fun n => [FIO_DO_CFG_OVL n, FIO_DO_CFG_THERM n, FIO_DO_CFG_ON n, FIO_DO_CFG_SRC n, FIO_DO_CFG_LEVEL n]) ++
  atSlot (slotAt 0x180 0x4 2 off) (fun k => [FIO_PRB_CFG_EDGE k, FIO_PRB_CFG_TERM k, FIO_PRB_CFG_MODE_5V k]) ++
  atSlot (slotAt 0x200 0x8 4 off) (fun b => [FIO_STB_CFG_CAMSEL b, FIO_STB_CFG_SRC b, FIO_STB_CFG_LEVEL b]) ++
  atSlot (slotAt 0x204 0x8 4 off) (fun b => [FIO_STB_TIME_WIDTH b, FIO_STB_TIME_DELAY b]) ++
  atSlot (slotAt 0x80C 0x4 2 off) (fun k => [FIO_CNT_PRB_LOST k]) ++
  atSlot (slotAt 0x814 0x4 4 off) (fun b => [FIO_CNT_STB_MISS b])

/-- The fields at an offset of a `hlt` block. -/
def fields_hlt (off : Nat) : List Fld :=
  if off = 0x100 then [HLT_STAT_STG_FAULT, HLT_STAT_CAUSE, HLT_STAT_FB_OK, HLT_STAT_LOCKSTEP, HLT_STAT_SRC1, HLT_STAT_SRC0, HLT_STAT_LEVEL] else
  if off = 0x104 then [HLT_REQ_KEY, HLT_REQ_TEST_STAGE, HLT_REQ_TEST, HLT_REQ_RESTORE1, HLT_REQ_RESTORE0] else
  if off = 0x108 then [HLT_HEALTHY_P1, HLT_HEALTHY_P0] else
  if off = 0x10C then [HLT_REQ_STAT] else
  if off = 0x280 then [HLT_TEXTCHK_LO] else
  if off = 0x284 then [HLT_TEXTCHK_HI] else
  if off = 0x300 then [HLT_FB_TAB_LO] else
  if off = 0x304 then [HLT_FB_TAB_HI] else
  if off = 0x308 then [HLT_FB_LEN] else
  if off = 0x30C then [HLT_FB_LOAD_LOAD_STATUS, HLT_FB_LOAD_BUSY, HLT_FB_LOAD_GO] else
  if off = 0x400 then [HLT_FW_LAST_LO] else
  if off = 0x404 then [HLT_FW_LAST_HI] else
  if off = 0x408 then [HLT_FW_LAST_INFO_WR, HLT_FW_LAST_INFO_INIT] else
  if off = 0x410 then [HLT_FW_REQ_LO] else
  if off = 0x414 then [HLT_FW_REQ_HI] else
  if off = 0x418 then [HLT_FW_REQ_GO] else
  if off = 0x800 then [HLT_CNT_SWITCH] else
  if off = 0x804 then [HLT_CNT_RESTORE] else
  if off = 0x808 then [HLT_CNT_STG_LATE] else
  if off = 0x80C then [HLT_CNT_STG_EARLY] else
  if off = 0x810 then [HLT_CNT_STG_UNKNOWN] else
  if off = 0x814 then [HLT_CNT_FB_COMMIT] else
  if off = 0x818 then [HLT_CNT_SUSPECT_SEEN] else
  if off = 0x81C then [HLT_CNT_FW_DENY] else
  if off = 0x820 then [HLT_CNT_TEST] else
  atSlot2 0x200 0x10 7 0x8 2 off (fun z p => [HLT_STG_EARLY z p]) ++
  atSlot2 0x204 0x10 7 0x8 2 off (fun z p => [HLT_STG_DUE z p])

/-- The fields at an offset of a `pwr` block. -/
def fields_pwr (off : Nat) : List Fld :=
  if off = 0x100 then [PWR_SLEEP_GO, PWR_SLEEP_TARGET] else
  if off = 0x104 then [PWR_STAT_ENTRY_STATUS, PWR_STAT_STEP, PWR_STAT_REL_REFUSED, PWR_STAT_ABANDONED, PWR_STAT_LAST, PWR_STAT_STATE] else
  if off = 0x108 then [PWR_WAKE_EN_HOST, PWR_WAKE_EN_ETH, PWR_WAKE_EN_DI, PWR_WAKE_EN_ENC1, PWR_WAKE_EN_ENC0] else
  if off = 0x10C then [PWR_WAKE_DI_FALL, PWR_WAKE_DI_RISE] else
  if off = 0x110 then [PWR_WAKE_CAUSE_ACCESS, PWR_WAKE_CAUSE_READY, PWR_WAKE_CAUSE_SRC] else
  if off = 0x120 then [PWR_HOLD_LO] else
  if off = 0x124 then [PWR_HOLD_HI] else
  if off = 0x128 then [PWR_RELEASE_LO] else
  if off = 0x12C then [PWR_RELEASE_HI] else
  if off = 0x130 then [PWR_MC_CTRL_ON, PWR_MC_CTRL_REQ] else
  if off = 0x140 then [PWR_DBELL] else
  if off = 0x810 then [PWR_CNT_ABANDON] else
  if off = 0x814 then [PWR_CNT_RESTORE_FAIL] else
  atSlot (slotAt 0x400 0x4 60 off) (fun n => [PWR_PD_STAT_HELD n, PWR_PD_STAT_PSTATE n]) ++
  atSlot (slotAt 0x800 0x4 4 off) (fun k => [PWR_CNT_S k])

/-- The fields at an offset of a `clk` block. -/
def fields_clk (off : Nat) : List Fld :=
  if off = 0x800 then [CLK_CNT_OP_CHANGE] else
  if off = 0x804 then [CLK_CNT_AVS_TIMEOUT] else
  atSlot (slotAt 0x100 0x4 8 off) (fun k => [CLK_OP_CFG_FREQ_MHZ k, CLK_OP_CFG_VOLT_MV k]) ++
  atSlot (slotAt 0x200 0x4 34 off) (fun n => [CLK_CLU_OP_OP_CUR n, CLK_CLU_OP_OP_TGT n, CLK_CLU_OP_OP_CAP n, CLK_CLU_OP_OP_MAX n]) ++
  atSlot (slotAt 0x300 0x4 4 off) (fun r => [CLK_RAIL_STAT_AVS_FAULT r, CLK_RAIL_STAT_PENDING r, CLK_RAIL_STAT_VOLT_MV r])

/-- The fields at an offset of a `cap` block. -/
def fields_cap (off : Nat) : List Fld :=
  if off = 0x100 then [CAP_CFG_LIMIT_W, CAP_CFG_OP_FLOOR, CAP_CFG_THROTTLE_C, CAP_CFG_DROOP_MV] else
  if off = 0x104 then [CAP_STAT_P_MEAS, CAP_STAT_T_HOT, CAP_STAT_THERM_LIMIT, CAP_STAT_HARD, CAP_STAT_THROTTLED, CAP_STAT_DROOP, CAP_STAT_OVER] else
  if off = 0x800 then [CAP_CNT_OVER] else
  if off = 0x804 then [CAP_CNT_DROOP] else
  if off = 0x808 then [CAP_CNT_DROOP_US] else
  if off = 0x80C then [CAP_CNT_THROTTLE] else
  if off = 0x810 then [CAP_CNT_HARD] else
  if off = 0x814 then [CAP_CNT_SLOPE_HOLD] else
  if off = 0x818 then [CAP_ENERGY_J] else
  atSlot (slotAt 0x200 0x4 42 off) (fun k => [CAP_TEMP k])

/-- The fields at an offset of a `rst` block. -/
def fields_rst (off : Nat) : List Fld :=
  if off = 0x100 then [RST_CAUSE_THERM, RST_CAUSE_LNK_REQ, RST_CAUSE_CRIT_ERR, RST_CAUSE_FUNC, RST_CAUSE_SW_FULL, RST_CAUSE_HLT_WDT, RST_CAUSE_PIN, RST_CAUSE_BOR, RST_CAUSE_POR] else
  if off = 0x104 then [RST_CRIT_SRC_SHARD_MAP, RST_CRIT_SRC_FW_TBL, RST_CRIT_SRC_PAGE_TBL, RST_CRIT_SRC_SCH_Q] else
  if off = 0x108 then [RST_SRC_EN_LNK_REQ_EN] else
  if off = 0x10C then [RST_SWRESET_KEY, RST_SWRESET_FULL] else
  if off = 0x110 then [RST_BOOT_STATUS_STAGE, RST_BOOT_STATUS_REVERTED, RST_BOOT_STATUS_BANK_B_BAD, RST_BOOT_STATUS_BANK_A_BAD, RST_BOOT_STATUS_LOCKSTEP, RST_BOOT_STATUS_ID_COPY, RST_BOOT_STATUS_OPT_COPY, RST_BOOT_STATUS_SOURCE, RST_BOOT_STATUS_FAIL_CODE] else
  if off = 0x114 then [RST_FUNC_LAST_BLOCK] else
  if off = 0x118 then [RST_STRAPS_CLK_SEL, RST_STRAPS_BOOT_SEL] else
  if off = 0x11C then [RST_SWAP_CTRL_KEY, RST_SWAP_CTRL_SWAP_REFUSED, RST_SWAP_CTRL_SWAP_STATE, RST_SWAP_CTRL_ACTIVE_BANK, RST_SWAP_CTRL_CONFIRM, RST_SWAP_CTRL_TRIAL, RST_SWAP_CTRL_CANCEL] else
  if off = 0x120 then [RST_HOST_BOOT_GO] else
  []

/-- The fields at an offset of a `cam` block. -/
def fields_cam (off : Nat) : List Fld :=
  if off = 0x4 then [CAM_CTRL_AUTO_DISC, CAM_CTRL_STREAM, CAM_CTRL_POCXP_EN] else
  if off = 0x100 then [CAM_LINK_MAX_LANES, CAM_LINK_MAX_RATE, CAM_LINK_LANES, CAM_LINK_RATE, CAM_LINK_LANE_UP, CAM_LINK_MISMATCH, CAM_LINK_LINK_UP, CAM_LINK_DISC_DONE] else
  if off = 0x104 then [CAM_LINECFG_MODE, CAM_LINECFG_FORMAT, CAM_LINECFG_WIDTH] else
  if off = 0x108 then [CAM_TRIG_SRC, CAM_TRIG_DI_SEL, CAM_TRIG_FRAME_H] else
  if off = 0x10C then [CAM_TRIGSTEP_STEP] else
  if off = 0x110 then [CAM_TRIGPH_PHASE] else
  if off = 0x114 then [CAM_TIMING_MIN_PERIOD] else
  if off = 0x118 then [CAM_DMG_PAD_VALUE, CAM_DMG_DMG_LIMIT, CAM_DMG_LATE_US] else
  if off = 0x11C then [CAM_STATX_X1, CAM_STATX_X0] else
  if off = 0x120 then [CAM_STATCFG_WIN_LOG2] else
  if off = 0x214 then [CAM_CNT_TRIGDROP] else
  if off = 0x218 then [CAM_CNT_LINKLOSS] else
  if off = 0x22C then [CAM_STAT_SEQ] else
  atSlot (slotAt 0x200 0x4 5 off) (fun k => [CAM_CNT_LINE k]) ++
  atSlot (slotAt 0x21C 0x4 4 off) (fun l => [CAM_CNT_CRC l]) ++
  atSlot2 0x1000 0x400 3 0x4 256 off (fun c b => [CAM_HIST c b]) ++
  atSlot2 0x2000 0x40 3 0x4 16 off (fun c z => [CAM_ZMEAN c z])

/-- The fields at an offset of a `pcam` block. -/
def fields_pcam (off : Nat) : List Fld :=
  if off = 0x100 then [PCAM_IFCFG_CC_PULSE, PCAM_IFCFG_CC_OUT, PCAM_IFCFG_BAUD, PCAM_IFCFG_USE_FVAL, PCAM_IFCFG_USE_DVAL, PCAM_IFCFG_EDGE, PCAM_IFCFG_FORMAT_P] else
  if off = 0x124 then [PCAM_SERDATA_TX_FULL, PCAM_SERDATA_RX_VALID, PCAM_SERDATA_DATA] else
  []

/-- The fields at an offset of a `clm` block. -/
def fields_clm (off : Nat) : List Fld :=
  if off = 0x500 then [CLM_TLOAD_LO] else
  if off = 0x504 then [CLM_TLOAD_HI] else
  if off = 0x508 then [CLM_TLOAD_LOAD_STATUS, CLM_TLOAD_BUSY, CLM_TLOAD_SET, CLM_TLOAD_GO] else
  atSlot (slotAt 0x100 0x4 3 off) (fun k => [CLM_KW_K k]) ++
  atSlot2 0x200 0x40 9 0x4 9 off (fun k i => [CLM_MAT_COEF k i]) ++
  atSlot2 0x224 0x40 9 0x4 3 off (fun k j => [CLM_BLK_BLACK k j])

/-- The fields at an offset of a `tan` block. -/
def fields_tan (off : Nat) : List Fld :=
  if off = 0x200 then [TAN_REGTAB_LO] else
  if off = 0x204 then [TAN_REGTAB_HI] else
  if off = 0x208 then [TAN_REGCNT] else
  if off = 0x300 then [TAN_RING_BASE_LO] else
  if off = 0x304 then [TAN_RING_BASE_HI] else
  if off = 0x308 then [TAN_RING_CFG_SIZE_LOG2, TAN_RING_CFG_LOW_WATER] else
  if off = 0x30C then [TAN_RING_WR_ALARM, TAN_RING_WR_WR] else
  if off = 0x310 then [TAN_RING_FREE] else
  if off = 0x314 then [TAN_RING_REL] else
  if off = 0x320 then [TAN_ARENA_BASE_LO] else
  if off = 0x324 then [TAN_ARENA_BASE_HI] else
  if off = 0x328 then [TAN_ARENA_SIZE] else
  if off = 0x400 then [TAN_ART_LIMIT] else
  if off = 0x404 then [TAN_ART_DB_LO] else
  if off = 0x408 then [TAN_ART_DB_HI] else
  if off = 0x40C then [TAN_ART_STAT_DB_LOST, TAN_ART_STAT_QUEUED] else
  if off = 0x580 then [TAN_DICT_LOAD_LOAD_STATUS, TAN_DICT_LOAD_BUSY, TAN_DICT_LOAD_GO, TAN_DICT_LOAD_SLOT] else
  if off = 0x584 then [TAN_DICT_VALID] else
  if off = 0x600 then [TAN_TXTQ_BASE_LO] else
  if off = 0x604 then [TAN_TXTQ_BASE_HI] else
  if off = 0x608 then [TAN_TXTQ_SIZE] else
  if off = 0x60C then [TAN_TXTQ_WR] else
  if off = 0x610 then [TAN_TXTQ_RD] else
  if off = 0x800 then [TAN_CNT_PARTS] else
  if off = 0x804 then [TAN_CNT_SEC_CORR] else
  if off = 0x808 then [TAN_CNT_SEC_UNC] else
  if off = 0x80C then [TAN_CNT_RES_RETRY] else
  if off = 0x810 then [TAN_CNT_RES_FAIL] else
  if off = 0x814 then [TAN_CNT_RINGFULL] else
  if off = 0x818 then [TAN_CNT_CONCEAL] else
  if off = 0x81C then [TAN_CNT_UNK] else
  if off = 0x820 then [TAN_CNT_TXT_LONG] else
  if off = 0x824 then [TAN_CNT_INTAKE_FULL] else
  atSlot (slotAt 0x100 0x4 9 off) (fun n => [TAN_PORT_CFG_DLY_B n, TAN_PORT_CFG_DLY_G n, TAN_PORT_CFG_DLY_R n, TAN_PORT_CFG_FF_EN n, TAN_PORT_CFG_BAYER_PH n, TAN_PORT_CFG_ALIGN n]) ++
  atSlot (slotAt 0x140 0x8 9 off) (fun n => [TAN_FFADDR_LO n]) ++
  atSlot (slotAt 0x144 0x8 9 off) (fun n => [TAN_FFADDR_HI n]) ++
  atSlot (slotAt 0x500 0x8 16 off) (fun k => [TAN_DICT_ADDR_LO k]) ++
  atSlot (slotAt 0x504 0x8 16 off) (fun k => [TAN_DICT_ADDR_HI k])

/-- The fields at an offset of a `clu` block. -/
def fields_clu (off : Nat) : List Fld :=
  if off = 0x4 then [CLU_CTRL_SUSPECT, CLU_CTRL_ST_RESULT, CLU_CTRL_SELFTEST, CLU_CTRL_ROLE] else
  if off = 0x100 then [CLU_EXC_STATUS_STATUS, CLU_EXC_STATUS_CAUSE, CLU_EXC_STATUS_VALID] else
  if off = 0x104 then [CLU_EXC_PC_PC] else
  if off = 0x108 then [CLU_EXC_TILE_TRAPHI, CLU_EXC_TILE_TILE] else
  if off = 0x10C then [CLU_EXC_ADDR_LO_ADDR] else
  if off = 0x110 then [CLU_EXC_ADDR_HI_ADDR] else
  if off = 0x114 then [CLU_EXC_INSTR_LO_INSTR] else
  if off = 0x118 then [CLU_EXC_INSTR_HI_INSTR] else
  if off = 0x11C then [CLU_EXC_CMD_QPTR] else
  if off = 0x800 then [CLU_CNT_TILES] else
  if off = 0x804 then [CLU_CNT_EXC] else
  if off = 0x808 then [CLU_CNT_RERUN] else
  if off = 0x80C then [CLU_CNT_ABANDON] else
  if off = 0x810 then [CLU_CNT_WORK_HI] else
  if off = 0x814 then [CLU_CNT_IC_MISS] else
  []

/-- The fields at an offset of a `kvc` block. -/
def fields_kvc (off : Nat) : List Fld :=
  if off = 0x200 then [KVC_SWAP_BASE_LO] else
  if off = 0x204 then [KVC_SWAP_BASE_HI] else
  if off = 0x208 then [KVC_SWAP_CFG_EN, KVC_SWAP_CFG_DMA_CH, KVC_SWAP_CFG_SLOTS] else
  if off = 0x20C then [KVC_SWAP_STAT_USED, KVC_SWAP_STAT_REFUSED, KVC_SWAP_STAT_LINK] else
  if off = 0x800 then [KVC_CNT_ALLOC] else
  if off = 0x804 then [KVC_CNT_FREE] else
  if off = 0x808 then [KVC_CNT_COW] else
  if off = 0x80C then [KVC_CNT_FORK] else
  if off = 0x810 then [KVC_CNT_SWAP_OUT] else
  if off = 0x814 then [KVC_CNT_SWAP_IN] else
  if off = 0x818 then [KVC_CNT_EXHAUSTED] else
  if off = 0x81C then [KVC_CNT_SEG_REFUSED] else
  if off = 0x820 then [KVC_SEQ_OPEN] else
  if off = 0x824 then [KVC_FREE_MIN] else
  atSlot (slotAt 0x100 0x20 4 off) (fun k => [KVC_POOL_BASE_LO k]) ++
  atSlot (slotAt 0x104 0x20 4 off) (fun k => [KVC_POOL_BASE_HI k]) ++
  atSlot (slotAt 0x108 0x20 4 off) (fun k => [KVC_POOL_CFG_VALID k, KVC_POOL_CFG_FMT k, KVC_POOL_CFG_D k]) ++
  atSlot (slotAt 0x10C 0x20 4 off) (fun k => [KVC_POOL_PAGES_FIRST k, KVC_POOL_PAGES_COUNT k]) ++
  atSlot (slotAt 0x110 0x20 4 off) (fun k => [KVC_POOL_FREE k])

/-- The fields at an offset of a `lnk` block. -/
def fields_lnk (off : Nat) : List Fld :=
  if off = 0x100 then [LNK_SYSCFG_MIN_CLUSTERS, LNK_SYSCFG_MODULES, LNK_SYSCFG_TOPO, LNK_SYSCFG_POSITION] else
  if off = 0x104 then [LNK_ASSIGN_KEY, LNK_ASSIGN_TOPO, LNK_ASSIGN_POSITION] else
  if off = 0x108 then [LNK_SYSID_LO] else
  if off = 0x10C then [LNK_SYSID_HI] else
  if off = 0x118 then [LNK_VERSION_MAJOR, LNK_VERSION_MINOR] else
  if off = 0x11C then [LNK_MEMBERS_JOINED, LNK_MEMBERS_IN] else
  if off = 0x120 then [LNK_SVC_IN_SERVICE, LNK_SVC_COMPUTE_OUT] else
  if off = 0x124 then [LNK_POSCFG_ALIGNED, LNK_POSCFG_FOLLOW] else
  if off = 0x138 then [LNK_CINCH_DELAY] else
  if off = 0x140 then [LNK_EPOCH_POS_LO] else
  if off = 0x144 then [LNK_EPOCH_POS_HI] else
  if off = 0x148 then [LNK_EPOCH_CFG_JOB_END, LNK_EPOCH_CFG_REVERT, LNK_EPOCH_CFG_BANK_SWITCH, LNK_EPOCH_CFG_JOB_START, LNK_EPOCH_CFG_PORT] else
  if off = 0x14C then [LNK_EPOCH_GO] else
  if off = 0x150 then [LNK_EPOCH_STAT_REFUSER, LNK_EPOCH_STAT_CAUSE, LNK_EPOCH_STAT_JOB_RUN, LNK_EPOCH_STAT_ESTATE] else
  if off = 0x154 then [LNK_EPOCH_NUM] else
  if off = 0x158 then [LNK_SSNAP_POS_LO] else
  if off = 0x15C then [LNK_SSNAP_POS_HI] else
  if off = 0x160 then [LNK_SSNAP_GO] else
  if off = 0x168 then [LNK_JOB_LO] else
  if off = 0x16C then [LNK_JOB_HI] else
  if off = 0x1E0 then [LNK_RESETREQ_KEY, LNK_RESETREQ_GO, LNK_RESETREQ_TARGET] else
  if off = 0x818 then [LNK_CNT_FWD] else
  if off = 0x81C then [LNK_CNT_BARRIERS] else
  if off = 0x820 then [LNK_CNT_BARRIER_LATE] else
  if off = 0x824 then [LNK_CNT_EPOCHS] else
  if off = 0x828 then [LNK_CNT_EPOCH_ABORT] else
  if off = 0x82C then [LNK_CNT_SUBV_RX] else
  if off = 0x830 then [LNK_CNT_SUBV_LATE] else
  if off = 0x834 then [LNK_CNT_POISON_RX] else
  if off = 0x838 then [LNK_CNT_MEMBER_LOST] else
  atSlot (slotAt 0x110 0x4 2 off) (fun p => [LNK_PORT_STAT_PEER_MAJOR p, LNK_PORT_STAT_PEER_POS p, LNK_PORT_STAT_LANES_UP p, LNK_PORT_STAT_CAUSE p, LNK_PORT_STAT_PSTATE p]) ++
  atSlot (slotAt 0x128 0x4 2 off) (fun p => [LNK_POSOFF p]) ++
  atSlot (slotAt 0x130 0x4 2 off) (fun p => [LNK_SUBVCFG_GUARD_US p, LNK_SUBVCFG_EN p, LNK_SUBVCFG_OWNER p, LNK_SUBVCFG_CHECK p]) ++
  atSlot (slotAt 0x180 0x4 8 off) (fun k => [LNK_RXWIN_BASE k, LNK_RXWIN_SIZE k, LNK_RXWIN_VALID k]) ++
  atSlot (slotAt 0x1C0 0x4 8 off) (fun i => [LNK_CONTRACT i]) ++
  atSlot (slotAt 0x800 0x4 2 off) (fun p => [LNK_CNT_CRC p]) ++
  atSlot (slotAt 0x808 0x4 2 off) (fun p => [LNK_CNT_REPLAY p]) ++
  atSlot (slotAt 0x810 0x4 2 off) (fun p => [LNK_CNT_DOWN p])

/-- The fields at an offset of a `sch` block. -/
def fields_sch (off : Nat) : List Fld :=
  if off = 0x110 then [SCH_ACTNEXT_LO] else
  if off = 0x114 then [SCH_ACTNEXT_HI] else
  if off = 0x118 then [SCH_ACT_LO] else
  if off = 0x11C then [SCH_ACT_HI] else
  if off = 0x120 then [SCH_CTXTAB_LO] else
  if off = 0x124 then [SCH_CTXTAB_HI] else
  if off = 0x128 then [SCH_CTX_CMD_OP, SCH_CTX_CMD_CTX] else
  if off = 0x130 then [SCH_SUBST_OK_LO] else
  if off = 0x134 then [SCH_SUBST_OK_HI] else
  if off = 0x800 then [SCH_CNT_FETCHED] else
  if off = 0x804 then [SCH_CNT_COMPLETED] else
  if off = 0x808 then [SCH_CNT_REFUSED] else
  if off = 0x80C then [SCH_CNT_DEPFAIL] else
  if off = 0x810 then [SCH_CNT_DEADLINE] else
  if off = 0x814 then [SCH_CNT_MERGE_DUP] else
  if off = 0x818 then [SCH_CNT_BATCHES] else
  if off = 0x81C then [SCH_CNT_BATCH_TOKENS] else
  if off = 0x820 then [SCH_CNT_CHANGEOVERS] else
  if off = 0x824 then [SCH_INFLIGHT_MAX] else
  atSlot (slotAt 0x100 0x4 2 off) (fun p => [SCH_FLOOR p]) ++
  atSlot (slotAt 0x200 0x4 64 off) (fun k => [SCH_CTX_STATE_LOAD_STATUS k, SCH_CTX_STATE_CSTATE k]) ++
  atSlot (slotAt 0x1000 0x20 64 off) (fun q => [SCH_Q_BASE_LO q]) ++
  atSlot (slotAt 0x1004 0x20 64 off) (fun q => [SCH_Q_BASE_HI q]) ++
  atSlot (slotAt 0x1008 0x20 64 off) (fun q => [SCH_Q_CFG_QSTATE q, SCH_Q_CFG_CTX q, SCH_Q_CFG_SIZE_LOG2 q, SCH_Q_CFG_CLASS q, SCH_Q_CFG_CQ q, SCH_Q_CFG_DB_OVER q, SCH_Q_CFG_QEN q]) ++
  atSlot (slotAt 0x100C 0x20 64 off) (fun q => [SCH_Q_DB q]) ++
  atSlot (slotAt 0x1010 0x20 64 off) (fun q => [SCH_Q_PTR_DONE q, SCH_Q_PTR_FETCH q]) ++
  atSlot (slotAt 0x1800 0x20 16 off) (fun c => [SCH_CQ_BASE_LO c]) ++
  atSlot (slotAt 0x1804 0x20 16 off) (fun c => [SCH_CQ_BASE_HI c]) ++
  atSlot (slotAt 0x1808 0x20 16 off) (fun c => [SCH_CQ_CFG_FULL c, SCH_CQ_CFG_SIZE_LOG2 c]) ++
  atSlot (slotAt 0x180C 0x20 16 off) (fun c => [SCH_CQ_WR c]) ++
  atSlot (slotAt 0x1810 0x20 16 off) (fun c => [SCH_CQ_RD c]) ++
  atSlot (slotAt 0x3000 0x8 64 off) (fun k => [SCH_SRQ_WR k]) ++
  atSlot (slotAt 0x3004 0x8 64 off) (fun k => [SCH_SRQ_RD k]) ++
  atSlot (slotAt 0x4000 0x4 512 off) (fun i => [SCH_MAP_MODULE1 i, SCH_MAP_HOME1 i, SCH_MAP_MODULE0 i, SCH_MAP_HOME0 i]) ++
  atSlot (slotAt 0x4800 0x4 512 off) (fun i => [SCH_SMAP_MODULE1 i, SCH_SMAP_HOME1 i, SCH_SMAP_MODULE0 i, SCH_SMAP_HOME0 i])

/-- The fields at an offset of a `sds` block. -/
def fields_sds (off : Nat) : List Fld :=
  if off = 0x4 then [SDS_CTRL_RETRAIN] else
  if off = 0x100 then [SDS_STAT_RATE, SDS_STAT_PSTATE, SDS_STAT_CHK_SYNC, SDS_STAT_TRAINED, SDS_STAT_CDR_LOCK, SDS_STAT_SIG_DET] else
  if off = 0x104 then [SDS_TEST_TEST_RATE, SDS_TEST_GEN, SDS_TEST_CHK, SDS_TEST_LOOP, SDS_TEST_INJ_MODE, SDS_TEST_INJ] else
  if off = 0x108 then [SDS_USERPAT] else
  if off = 0x800 then [SDS_CNT_CHK_BITS_LO] else
  if off = 0x804 then [SDS_CNT_CHK_BITS_HI] else
  if off = 0x808 then [SDS_CNT_CHK_ERR] else
  if off = 0x80C then [SDS_CNT_CODE_ERR] else
  if off = 0x810 then [SDS_CNT_LOCK_LOSS] else
  if off = 0x814 then [SDS_CNT_RETRAIN] else
  []

/-- The fields at an offset of a `eth` block. -/
def fields_eth (off : Nat) : List Fld :=
  if off = 0x100 then [ETH_CFG_MTU, ETH_CFG_LANE, ETH_CFG_PAUSE, ETH_CFG_FEC, ETH_CFG_SPEED] else
  if off = 0x104 then [ETH_STAT_FEC_LOCK, ETH_STAT_HI_BER, ETH_STAT_BLOCK_LOCK, ETH_STAT_LINK] else
  if off = 0x108 then [ETH_ADDR_LO] else
  if off = 0x10C then [ETH_ADDR_HI] else
  if off = 0x800 then [ETH_CNT_RX_OK] else
  if off = 0x804 then [ETH_CNT_RX_FCS] else
  if off = 0x808 then [ETH_CNT_RX_LONG] else
  if off = 0x80C then [ETH_CNT_RX_DROP] else
  if off = 0x810 then [ETH_CNT_TX_OK] else
  if off = 0x814 then [ETH_CNT_TX_POISON] else
  if off = 0x818 then [ETH_CNT_FEC_CORR] else
  if off = 0x81C then [ETH_CNT_FEC_UNCORR] else
  if off = 0x820 then [ETH_CNT_LINK_DOWN] else
  []

/-- The fields at an offset of a `pcie` block. -/
def fields_pcie (off : Nat) : List Fld :=
  if off = 0x100 then [PCIE_STAT_LTSSM, PCIE_STAT_WIDTH, PCIE_STAT_SPEED, PCIE_STAT_LINK_UP] else
  if off = 0x104 then [PCIE_CFG_MAX_SPEED] else
  if off = 0x108 then [PCIE_ID_DEVICE, PCIE_ID_VENDOR] else
  if off = 0x800 then [PCIE_CNT_RX_ERR] else
  if off = 0x804 then [PCIE_CNT_REPLAY] else
  if off = 0x808 then [PCIE_CNT_RECOVERY] else
  if off = 0x80C then [PCIE_CNT_POISON_RX] else
  if off = 0x810 then [PCIE_CNT_UR] else
  if off = 0x814 then [PCIE_CNT_CA] else
  if off = 0x818 then [PCIE_CNT_LINK_DOWN] else
  []

/-- The fields at an offset of a `dma` block. -/
def fields_dma (off : Nat) : List Fld :=
  if off = 0x100 then [DMA_CFG_SHARE] else
  if off = 0x104 then [DMA_STAT_OWNED, DMA_STAT_REFUSED, DMA_STAT_CQ_FULL, DMA_STAT_HALTED, DMA_STAT_IDLE] else
  if off = 0x108 then [DMA_HEAD_LO] else
  if off = 0x10C then [DMA_HEAD_HI] else
  if off = 0x110 then [DMA_KICK] else
  if off = 0x118 then [DMA_CUR_LO] else
  if off = 0x11C then [DMA_CUR_HI] else
  if off = 0x120 then [DMA_CQ_BASE_LO] else
  if off = 0x124 then [DMA_CQ_BASE_HI] else
  if off = 0x128 then [DMA_CQ_SIZE] else
  if off = 0x12C then [DMA_CQ_WR] else
  if off = 0x130 then [DMA_CQ_RD] else
  if off = 0x140 then [DMA_ERR_ADDR_LO] else
  if off = 0x144 then [DMA_ERR_ADDR_HI] else
  if off = 0x148 then [DMA_ERR_INFO_STATUS, DMA_ERR_INFO_SEGMENT, DMA_ERR_INFO_DESC, DMA_ERR_INFO_HOST, DMA_ERR_INFO_WRITE] else
  if off = 0x800 then [DMA_CNT_TRANSFERS] else
  if off = 0x804 then [DMA_CNT_SEGMENTS] else
  if off = 0x808 then [DMA_CNT_BYTES_LO] else
  if off = 0x80C then [DMA_CNT_BYTES_HI] else
  if off = 0x810 then [DMA_CNT_LINE_OPS] else
  if off = 0x814 then [DMA_CNT_BUS_ERR] else
  if off = 0x818 then [DMA_CNT_POISON] else
  if off = 0x81C then [DMA_CNT_PARAM] else
  if off = 0x820 then [DMA_CNT_CQ_FULL] else
  if off = 0x824 then [DMA_CNT_BUDGET_WAIT] else
  []

end Sys2Proof.Machine
end

