-- ==== Sys2Proof/Machine/Ops.lean ====
section
/-!
DEFINITION. The shared operations: the stores, register fields and counters, the module's time, memory
with poison, events, and the states of a function.
-/

namespace Sys2Proof.Machine

/-! ### Stores -/

/-- The value of a key, or the default `d`. -/
def Store.get (d : α) : Store α → Nat → α
  | [], _ => d
  | (j, v) :: r, k => if j = k then v else Store.get d r k

/-- A store without a key. -/
def Store.erase (l : Store α) (k : Nat) : Store α := l.filter (fun e => e.1 != k)

/-- Insert a pair before the first larger key. -/
def Store.ins (k : Nat) (v : α) : Store α → Store α
  | [] => [(k, v)]
  | (j, w) :: r => if k < j then (k, v) :: (j, w) :: r else (j, w) :: Store.ins k v r

/-- Set a key, keeping the keys rising and no entry equal to the default. -/
def Store.put [DecidableEq α] (d : α) (l : Store α) (k : Nat) (v : α) : Store α :=
  if v = d then Store.erase l k else Store.ins k v (Store.erase l k)

/-- The canonical form: keys strictly rising, all at or above `lo`, no entry equal to the default. -/
def Store.wfFrom [DecidableEq α] (d : α) (lo : Nat) : Store α → Bool
  | [] => true
  | (k, v) :: r => decide (lo ≤ k) && decide (v ≠ d) && Store.wfFrom d (k + 1) r

/-- The canonical form of a whole store. -/
def Store.wf [DecidableEq α] (d : α) (l : Store α) : Bool := Store.wfFrom d 0 l

/-! ### Numbers -/

/-- Field of `w` bits at `lo` of a number. -/
def bits (n lo w : Nat) : Nat := n / 2 ^ lo % 2 ^ w

/-- Bit `k` of a number, as 0 or 1. -/
def bit (n k : Nat) : Nat := n / 2 ^ k % 2

/-- A number read as two's complement of `w` bits. -/
def sext (w n : Nat) : Int := if 2 * (n % 2 ^ w) < 2 ^ w then (n % 2 ^ w : Nat) else (n % 2 ^ w : Nat) - (2 ^ w : Nat)

/-- The two's complement code of an integer in `w` bits. -/
def toCode (w : Nat) (i : Int) : Nat := (i % (2 ^ w : Nat)).toNat

/-- The number of bits set among the lowest `w`. -/
def popCount : Nat → Nat → Nat
  | 0, _ => 0
  | w + 1, n => n % 2 + popCount w (n / 2)

/-- The positions of the bits set among the lowest `w`, rising. -/
def bitList (w n : Nat) : List Nat := (List.range w).filter (fun k => bit n k == 1)

/-- Ceiling of a quotient; 0 for a divisor of 0. -/
def ceilDiv (a b : Nat) : Nat := (a + b - 1) / b

/-- The value's `n` bytes, least significant first. -/
def leBytes : Nat → Nat → List Nat
  | 0, _ => []
  | n + 1, v => v % 256 :: leBytes n (v / 256)

/-- The number a list of bytes holds, least significant first. -/
def leNat : List Nat → Nat
  | [] => 0
  | b :: r => b + 256 * leNat r

/-- Little-endian number of `n` bytes at an offset of a list of bytes. -/
def leAt (b : List Nat) (o n : Nat) : Nat := leNat ((b.drop o).take n)

/-- `a + 1`, stopping at 2^32 - 1. -/
def satInc (a n : Nat) : Nat := min (a + n) 0xFFFFFFFF

/-- A list with one position replaced. -/
def listSet (l : List α) (k : Nat) (v : α) : List α := l.set k v

/-- Whether two ranges of bytes overlap. -/
def overlap (a n b m : Nat) : Bool := decide (a < b + m) && decide (b < a + n)

/-- Element `k` of a list, or the default. -/
def nth (d : α) (l : List α) (k : Nat) : α := l.getD k d

/-- Replace the reset and boot side's inside. -/
def State.setSys (s : State) (x : Sys) : State := { s with sys := x }

/-! ### Register fields -/

/-- The store key of a field of block `b`. -/
def fkey (b : Nat) (f : Fld) : Nat := b * 33554432 + f.off * 32 + f.lo

/-- The value of a field as software reads it. -/
def State.rd (s : State) (b : Nat) (f : Fld) : Nat :=
  (Store.get (BitVec.ofNat 32 f.rst) s.regs (fkey b f)).toNat

/-- Set a field. -/
def State.wr (s : State) (b : Nat) (f : Fld) (n : Nat) : State :=
  { s with regs := Store.put (BitVec.ofNat 32 f.rst) s.regs (fkey b f) (BitVec.ofNat 32 (n % 2 ^ f.w)) }

/-- The value of a shadowed field that is in effect (R20). -/
def State.act (s : State) (b : Nat) (f : Fld) : Nat :=
  (Store.get (BitVec.ofNat 32 f.rst) s.active (fkey b f)).toNat

/-- Put a shadowed field into effect. -/
def State.wrAct (s : State) (b : Nat) (f : Fld) (n : Nat) : State :=
  { s with active := Store.put (BitVec.ofNat 32 f.rst) s.active (fkey b f) (BitVec.ofNat 32 (n % 2 ^ f.w)) }

/-- Set a field to 1. -/
def State.raiseBit (s : State) (b : Nat) (f : Fld) : State := s.wr b f 1

/-- A 64-bit value held in two fields. -/
def State.rd64 (s : State) (b : Nat) (lo hi : Fld) : Nat := s.rd b lo + 4294967296 * s.rd b hi

/-- Set a 64-bit value held in two fields. -/
def State.wr64 (s : State) (b : Nat) (lo hi : Fld) (n : Nat) : State :=
  (s.wr b lo n).wr b hi (n / 4294967296)

/-- The running value of a counter of a snapshot set (R18). -/
def State.cnt (s : State) (b : Nat) (f : Fld) : Nat := (Store.get 0#32 s.live (fkey b f)).toNat

/-- Set a counter of a snapshot set. -/
def State.setCnt (s : State) (b : Nat) (f : Fld) (n : Nat) : State :=
  { s with live := Store.put 0#32 s.live (fkey b f) (BitVec.ofNat 32 n) }

/-- Count `n` further occurrences; the counter saturates. -/
def State.inc (s : State) (b : Nat) (f : Fld) (n : Nat := 1) : State :=
  s.setCnt b f (satInc (s.cnt b f) n)

/-- Whether a store key belongs to block `b`. -/
def ofBlk (b k : Nat) : Bool := k / 33554432 == b

/-- Bring every register and counter of a block to its reset value (R17). -/
def State.clearBlk (s : State) (b : Nat) : State :=
  { s with
    regs := s.regs.filter (fun e => !ofBlk b e.1)
    active := s.active.filter (fun e => !ofBlk b e.1)
    live := s.live.filter (fun e => !ofBlk b e.1) }

/-! ### Blocks (R589) -/

def bPWR : Nat := 0x00
def bRST : Nat := 0x01
def bCLK : Nat := 0x02
def bTIM : Nat := 0x03
def bCAP : Nat := 0x04
def bHLT : Nat := 0x05
def bEVQ : Nat := 0x06
/-- Shared-cache slice n, or the DRAM function for n = 4. -/
def bMEM (n : Nat) : Nat := 0x08 + n
def bMEM4 : Nat := 0x0C
def bSCH : Nat := 0x10
def bKVC : Nat := 0x11
def bLNK : Nat := 0x12
def bPCIE : Nat := 0x13
def bETH (p : Nat) : Nat := 0x14 + p
def bTAN : Nat := 0x18
def bCLM : Nat := 0x19
def bPCAM : Nat := 0x1A
def bFIO : Nat := 0x1B
def bSTP (p : Nat) : Nat := 0x1C + p
def bEJT (p : Nat) : Nat := 0x1E + p
/-- Camera port n, 8 being the parallel port. -/
def bCAM (n : Nat) : Nat := if n = 8 then bPCAM else 0x20 + n
def bCLU (n : Nat) : Nat := 0x40 + n
def bDMA (n : Nat) : Nat := 0x80 + n
def bSDS (m : Nat) : Nat := 0xC0 + m

/-! ### The states of a function (R14) -/

def fOFF : Nat := 0
def fSTARTING : Nat := 1
def fON : Nat := 2
def fSTOPPING : Nat := 3
def fPENDING : Nat := 4
def fFENCED : Nat := 5
def fFAULT : Nat := 6

/-- The state of a function. -/
def State.fsm (s : State) (b : Nat) : Nat := s.rd b COM_STATE_FSM

/-- Put a function into a state. -/
def State.setFsm (s : State) (b : Nat) (n : Nat) : State := s.wr b COM_STATE_FSM n

/-- Whether a function reads ON. -/
def State.isOn (s : State) (b : Nat) : Bool := s.fsm b == fON

/-- Whether a fence has been requested and the function is not yet fenced (R15). -/
def State.fencing (s : State) (b : Nat) : Bool := s.rd b COM_FENCE_FENCE == 1 && s.fsm b != fFENCED

/-- A function enters FAULT by itself: not from FENCED (R14), nor while a fence is pending (R15). -/
def State.toFault (s : State) (b : Nat) : State :=
  if s.fsm b = fFENCED ∨ s.fencing b then s else s.setFsm b fFAULT

/-! ### Time (R454, R458) -/

/-- Units of the time base in a nanosecond. -/
def tbNsUnit : Nat := 4294967296

/-- Units of the time base in a second. -/
def tbSecUnit : Nat := 1000000000 * 4294967296

/-- Seconds of the time base. -/
def State.tbSec (s : State) : Nat := s.tb.time / tbSecUnit

/-- Nanoseconds of the time base within the second. -/
def State.tbNs (s : State) : Nat := s.tb.time / tbNsUnit % 1000000000

/-- Fraction of a nanosecond of the time base. -/
def State.tbFrac (s : State) : Nat := s.tb.time % tbNsUnit

/-- The 32.768 kHz cycles that have begun by module time `t` ns. -/
def slowCycles (t : Nat) : Nat := t * 32768 / 1000000000

/-- What the time base adds between two module times: the 500 MHz ticks, or in S3 and S4 the slow cycles of R458. -/
def tbAdvance (sleep inc t0 t1 : Nat) : Nat :=
  if 3 ≤ sleep then (slowCycles t1 - slowCycles t0) * (30517 * 4294967296 + 0x94000000)
  else (t1 / 2 - t0 / 2) * inc

/-- Let the module's time reach `t`; a moment already passed changes nothing. -/
def State.at (s : State) (t : Nat) : State :=
  if t ≤ s.now then s
  else { s with
    now := t
    tb := { s.tb with time := s.tb.time + tbAdvance (s.rd bPWR PWR_STAT_STATE) s.tb.inc s.now t } }

/-- Whether a periodic action of number `k` is due again `per` ns after it was last taken. -/
def State.due (s : State) (k per : Nat) : Bool :=
  match Store.get 0 s.sys.lastAt k with
  | 0 => true
  | n + 1 => decide (n + per ≤ s.now)

/-- Note that the periodic action of number `k` is taken now. -/
def State.mark (s : State) (k : Nat) : State := { s with sys := { s.sys with lastAt := Store.put 0 s.sys.lastAt k (s.now + 1) } }

/-- The numbers of the periodic actions: HEARTBEAT_SEND, TIME_SEND, POSITION_SEND, POWER_SAMPLE, CAP_PERIOD, PMBUS_REFRESH,
TICK_MONITOR_WINDOW, DI_SAMPLE and ID_READ_RETRY. -/
def perBeat : Nat := 0
def perTime : Nat := 1
def perPos : Nat := 2
def perPower : Nat := 3
def perCap : Nat := 4
def perPmb : Nat := 5
def perTick : Nat := 6
def perDi : Nat := 7
def perRetry : Nat := 8

/-- The times of a sliding window of one second that ends now (R593). -/
def lastSecond (now : Nat) (l : List Nat) : List Nat := l.filter (fun x => now < x + 1000000000)

/-! ### Memory (R171) -/

/-- One past the last address of the DRAM. -/
def dramEnd : Nat := 0xE00000000

/-- Scratchpad window of physical cluster n. -/
def spadBase (n : Nat) : Nat := 0x2000000000 + n * 0x1000000

/-- Size of a scratchpad. -/
def spadSize : Nat := 0x400000

/-- Register space. -/
def regBase : Nat := 0x3000000000

/-- Retention SRAM. -/
def retBase : Nat := 0x3800000000

/-- Flash window. -/
def flashBase : Nat := 0x3C00000000

/-- Whether a range of bytes lies in the DRAM. -/
def inDram (a n : Nat) : Bool := decide (a + n ≤ dramEnd)

/-- Whether an address lies in the retention SRAM. -/
def inRet (a : Nat) : Bool := decide (retBase ≤ a) && decide (a < retBase + 0x10000)

/-- Whether a range of bytes lies in one of the stores of R171 that hold plain data. -/
def inStore (a n : Nat) : Bool :=
  inDram a n ||
  (decide (0x2000000000 ≤ a) && decide ((a - 0x2000000000) / 0x1000000 < 34) &&
    decide ((a - 0x2000000000) % 0x1000000 + n ≤ spadSize)) ||
  (decide (retBase ≤ a) && decide (a + n ≤ retBase + 0x10000)) ||
  (decide (flashBase ≤ a) && decide (a + n ≤ flashBase + 0x10000000))

/-- What an unlisted byte of memory reads as (the model's choice). -/
def memDefault : Byte := 0#8

/-- One byte of memory. -/
def State.byte (s : State) (a : Nat) : Nat := (Store.get memDefault s.mem a).toNat

/-- Set one byte of memory. -/
def memPut (m : List Host.Cell) (a v : Nat) : List Host.Cell := Store.put memDefault m a (BitVec.ofNat 8 v)

/-- Store bytes at rising addresses. -/
def memPuts : List Host.Cell → Nat → List Nat → List Host.Cell
  | m, _, [] => m
  | m, a, v :: r => memPuts (memPut m a v) (a + 1) r

/-- Whether the memory is in its canonical form. -/
def Memory.wf (m : List Host.Cell) : Bool := Store.wf memDefault m

/-- Bytes of memory at rising addresses. -/
def State.bytes (s : State) (a n : Nat) : List Nat := (List.range n).map (fun k => s.byte (a + k))

/-- A little-endian number of `n` bytes in memory. -/
def State.readLE (s : State) (a n : Nat) : Nat := leNat (s.bytes a n)

/-- The size of the unit that carries one check: a 64-byte line of DRAM, an aligned 64-bit word elsewhere. -/
def unitSize (a : Nat) : Nat := if a < dramEnd then 64 else 8

/-- The unit that holds an address, named by its first address. -/
def unitOf (a : Nat) : Nat := a - a % unitSize a

/-- The units that a range of bytes touches. -/
def unitsOf (a n : Nat) : List Nat :=
  if n = 0 then [] else
  (List.range ((a + n - 1) / unitSize a - a / unitSize a + 1)).map (fun k => unitOf a + k * unitSize a)

/-- Whether the latent errors of a unit are past correction: two symbols or more of a DRAM line, both bits of a word (R175, R181); an
error that no injection set is marked by 32. -/
def errUncorr (e : Nat) : Bool := decide (2 ≤ e % 32) && decide (e % 32 ≠ 17)

/-- The aligned 64-bit words that a range touches. -/
def wordsOf (a n : Nat) : List Nat :=
  if n = 0 then [] else (List.range ((a + n - 1) / 8 - a / 8 + 1)).map (fun k => 8 * (a / 8 + k))

/-- Whether a read of any unit of a range returns its data marked poisoned: a poisoned unit, one with errors past correction, or a word of a
cached line with both bits bad (R175, R178, R181). -/
def State.poisoned (s : State) (a n : Nat) : Bool :=
  (unitsOf a n).any (fun u => Store.get false s.poison u || errUncorr (Store.get 0 s.errs u)) ||
  (!s.memu.word.isEmpty && (wordsOf a n).any (fun w => errUncorr (Store.get 0 s.memu.word w)))

/-- Mark a unit poisoned. -/
def State.setPoison (s : State) (u : Nat) : State := { s with poison := Store.put false s.poison u true }

/-- The poison marks after a write of a range: a unit written whole becomes sound, one written in part keeps
its mark (R177). -/
def poisonAfter (p : Store Bool) (a n : Nat) : Store Bool :=
  (unitsOf a n).foldl (fun p u =>
    if a ≤ u ∧ u + unitSize a ≤ a + n then Store.put false p u false else p) p

/-- The DRAM controller that serves an address (R174). -/
def controllerOf (a : Nat) : Nat := (bits a 9 3).xor ((bits a 18 3).xor (bits a 27 3))

/-- The bucket of an address in the shared cache (R182). -/
def bucketOf (a : Nat) : Nat := (bits a 6 8).xor (bits a 14 8)

/-- The slice that serves a bucket. -/
def State.sliceOf (s : State) (k : Nat) : Nat := Store.get (k % 4) s.memu.buckets k

/-! ### The lines of the shared cache (R182, R184) -/

/-- Whether a line lies in a pinned range in effect. -/
def State.pinned (s : State) (u : Nat) : Bool :=
  (List.range 8).any (fun k =>
    let b := s.act bMEM4 (MEM4_PIN_BASE_BASE k)
    s.act bMEM4 (MEM4_PIN_BASE_VALID k) == 1 && decide (b * 0x100000 ≤ u) &&
    decide (u < (b + s.act bMEM4 (MEM4_PIN_SIZE_SIZE k)) * 0x100000))

/-- The ways of slice `k` in which a line is allocated: those of `PIN_WAYS` for a line of a pinned range, the others for any other. -/
def State.waysFor (s : State) (k u : Nat) : List Nat :=
  let p := s.pinned u
  (List.range 16).filter (fun w => (bit (s.act (bMEM k) MEM_WAYS_PIN_WAYS) w == 1) == p)

/-- The lines that slice `k` holds in the set of line `u`. -/
def State.sameSet (s : State) (k u : Nat) : Store CacheLine :=
  s.memu.lines.filter (fun e => e.2.slice == k && Config.cacheSet e.1 % 16384 == Config.cacheSet u % 16384)

/-- The lines held after an access to line `u`, and the line that gave up its place, whose choice is open value `f`: a slice that reads ON
allocates a line that none holds. -/
def State.cacheTouch (s : State) (f u : Nat) (wr : Bool) : Store CacheLine × Option (Nat × CacheLine) :=
  let l := Store.get {} s.memu.lines u
  let k := s.sliceOf (bucketOf u)
  if l.slice < 4 then (Store.put {} s.memu.lines u { l with dirty := l.dirty || wr }, none)
  else if s.fsm (bMEM k) ≠ fON then (s.memu.lines, none)
  else
    let ws := s.waysFor k u
    let set := s.sameSet k u
    match ws.find? (fun w => set.all (fun e => e.2.way != w)) with
    | some w => (Store.put {} s.memu.lines u { slice := k, way := w, dirty := wr }, none)
    | none =>
      let vs := set.filter (fun e => ws.contains e.2.way)
      match vs[Config.freeNat f % vs.length]? with
      | some v => (Store.put {} (Store.erase s.memu.lines v.1) u { slice := k, way := v.2.way, dirty := wr }, some v)
      | none => (s.memu.lines, none)

/-- A line leaves its slice: the bad words of a dirty one are met at the write-back and reported later, two bad bits leaving the line poisoned
in DRAM; those of a clean one are dropped (R181, R187, R196). -/
def State.castOut (s : State) (v : Nat × CacheLine) : State :=
  let bad := if v.2.dirty then (wordsOf v.1 64).filter (fun w => Store.get 0 s.memu.word w ≠ 0) else []
  let recs := bad.map (fun w =>
    let e := Store.get 0 s.memu.word w
    { kind := if errUncorr e then 5 else 4, blk := bMEM v.2.slice, addr := w, status := if errUncorr e then 0x0304 else 0x0303
      inj := decide (e < 32) : LogRec })
  { s with
    memu := { s.memu with
      word := s.memu.word.filter (fun e => decide (e.1 < v.1) || decide (v.1 + 64 ≤ e.1)), found := s.memu.found ++ recs }
    poison := if bad.any (fun w => errUncorr (Store.get 0 s.memu.word w)) then Store.put false s.poison v.1 true else s.poison }

/-- A line is read or written through the shared cache. -/
def State.touch (s : State) (u : Nat) (wr : Bool) : State :=
  let c := s.cacheTouch s.free u wr
  let r := { s with free := s.free + 1, memu := { s.memu with lines := c.1 } }
  if s.memu.word.isEmpty then r
  else match c.2 with
    | some v => r.castOut v
    | none => r

/-- The lines of DRAM that a range touches. -/
def dramUnits (a n : Nat) : List Nat := if a < dramEnd then unitsOf a n else []

/-- The lines of the slices that `p` names are written back where they are dirty, and held no more. -/
def State.flushSlices (s : State) (p : Nat → Bool) : State :=
  let r := (s.memu.lines.filter (fun e => p e.2.slice)).foldl State.castOut s
  { r with memu := { r.memu with lines := r.memu.lines.filter (fun e => !p e.2.slice) } }

/-! ### Writes (R177, R203) -/

/-- The armed injection that a write of a range takes (R203): whether a word of a slice takes it, else a unit; which; and the number of bad
symbols, or 16 more than the number of bad bits. -/
def State.injectAt (s : State) (a n : Nat) : Option (Bool × Nat × Nat) :=
  let u := s.rd bMEM4 MEM4_INJ_UNIT
  let tg := s.rd bMEM4 MEM4_INJ_TARGET
  if s.rd bMEM4 MEM4_INJ_ARM ≠ 1 then none
  else if tg = 1 ∨ tg = 2 then ((dramUnits a n).find? (fun l => controllerOf l == u)).map (fun l => (false, l, tg))
  else if tg = 3 ∨ tg = 4 then
    if 0x40 ≤ u ∧ u < 0x44 then
      (if a < dramEnd then (wordsOf a n).find? (fun w => (Store.get {} s.memu.lines (unitOf w)).slice == u - 0x40) else none).map
        (fun w => (true, w, tg + 14))
    else
      ((wordsOf a n).find? (fun w => (decide (u < 34) && decide (spadBase u ≤ w) && decide (w < spadBase u + spadSize)) ||
        (u == 0x80 && inRet w))).map (fun w => (false, w, tg + 14))
  else none

/-- The larger of the errors that a unit holds and the errors injected into it. -/
def errMax (l : Store Nat) (u e : Nat) : Store Nat := if Store.get 0 l u % 32 < e then Store.put 0 l u e else l

/-- Take an armed injection into the first unit of a range written that it names. -/
def State.inject (s : State) (a n : Nat) : State :=
  match s.injectAt a n with
  | some (true, w, e) => { s.wr bMEM4 MEM4_INJ_ARM 0 with memu := { s.memu with word := errMax s.memu.word w e } }
  | some (false, u, e) => { s.wr bMEM4 MEM4_INJ_ARM 0 with errs := errMax s.errs u e }
  | none => s

/-- Write bytes to memory: the lines touched, the data, the poison marks of the units written, the latent errors that a whole write
removes, and an armed injection. -/
def State.write (s : State) (a : Nat) (bs : List Nat) : State :=
  let n := bs.length
  let r := (dramUnits a n).foldl (fun s u => s.touch u true) s
  State.inject
    { r with
      mem := memPuts s.mem a bs
      memu := { r.memu with word := r.memu.word.filter (fun e => decide (e.1 < a) || decide (a + n < e.1 + 8)) }
      poison := poisonAfter r.poison a n
      errs := (unitsOf a n).foldl (fun e u => if a ≤ u ∧ u + unitSize a ≤ a + n then Store.put 0 e u 0 else e) s.errs } a n

/-- Write a little-endian number of `n` bytes. -/
def State.writeLE (s : State) (a n v : Nat) : State := s.write a (leBytes n v)

/-! ### Open values -/

/-- Take the next open value's number. -/
def State.takeFree (s : State) : Nat × State := (s.free, { s with free := s.free + 1 })

/-! ### Responses -/

/-- Answer an access with a status and data. -/
def State.answer (s : State) (status : Nat) (data : List Nat) : State :=
  { s with resp := { status := status, data := data, poisoned := false } }

/-! ### Rings (R592) -/

/-- Records held by a ring with 16-bit free-running indices. -/
def ringHeld (wr rd : Nat) : Nat := (wr + 65536 - rd) % 65536

/-- Whether a ring of 2^`sz` records is full. -/
def ringFull (wr rd sz : Nat) : Bool := decide (2 ^ sz ≤ ringHeld wr rd)

/-- Whether a write of a read index stays at or before the write index. -/
def ringRdOk (wr rd new : Nat) : Bool := decide (ringHeld new rd ≤ ringHeld wr rd)

/-! ### Events (R586-R588) -/

/-- Argument bytes: the first in bytes 0 to 3, a third in bytes 4 to 7, the second in bytes 8 to 15. -/
def evArgs (a1 a2 : Nat) (a3 : Nat := 0) : List Nat := leBytes 4 a1 ++ leBytes 4 a3 ++ leBytes 8 a2

/-- An event record. -/
def evRecord (s : State) (code flags blk seq status : Nat) (args : List Nat) : List Nat :=
  leBytes 2 code ++ [flags, blk] ++ leBytes 2 seq ++ leBytes 2 status ++
  leBytes 4 s.tbSec ++ leBytes 4 s.tbNs ++ (args ++ List.replicate 16 0).take 16

/-- What the check of unit `u` finds at a read by initiator `i`: the record of the error log without its time and syndrome (R175, R178, R181,
R198, R199). -/
def State.finding (s : State) (i u : Nat) : Option LogRec :=
  let e := Store.get 0 s.errs u
  let bad := Store.get false s.poison u
  let dram := decide (u < dramEnd)
  let n := (u - 0x2000000000) / 0x1000000
  let r : LogRec :=
    { blk := if dram then bMEM4 else if inRet u then bPWR else bCLU n
      sub := if dram then controllerOf u else if inRet u then 0 else n
      addr := u, status := if bad || errUncorr e then 0x0304 else 0x0303, init := i, inj := !bad && decide (e < 32) }
  if bad then some { r with kind := if dram then 3 else 5 }
  else if e = 0 then none
  else if errUncorr e then some { r with kind := if dram then 2 else 5 }
  else some { r with kind := if dram then 1 else 4 }

/-- Set the latent errors of a unit. -/
def State.setErr (s : State) (u e : Nat) : State := { s with errs := Store.put 0 s.errs u e }

/-- Clear the latent errors of a unit: the corrected or the merged contents are written back (R175, R177, R179, R181). -/
def State.clearErr (s : State) (u : Nat) : State := s.setErr u 0

/-- The units of a range that a write covers only in part. -/
def partUnits (a n : Nat) : List Nat := (unitsOf a n).filter (fun u => !(decide (a ≤ u) && decide (u + unitSize a ≤ a + n)))

/-- The check of a unit before a record of the event queues is merged into it (R177); what it finds is reported with the next checked
access. -/
def State.mergeQuiet (s : State) (u : Nat) : State :=
  match s.finding 0 u with
  | none => s
  | some r =>
    let s := { s with memu := { s.memu with found := s.memu.found ++ [r] } }
    if r.kind = 1 ∨ r.kind = 4 then s.clearErr u else (s.clearErr u).setPoison u

/-- Write a record with the check of every unit written in part. -/
def State.writeQuiet (s : State) (a : Nat) (bs : List Nat) : State :=
  ((partUnits a bs.length).foldl State.mergeQuiet s).write a bs

/-- A record put among those of its clock edge: in order of block index, then code (R588). -/
def edgeInsert (k : Nat) (r : List Nat) : List (Nat × List Nat) → List (Nat × List Nat)
  | [] => [(k, r)]
  | e :: l => if e.1 ≤ k then e :: edgeInsert k r l else (k, r) :: e :: l

/-- A record with its sequence number. -/
def withSeq (seq : Nat) (r : List Nat) : List Nat := r.take 4 ++ leBytes 2 (seq % 65536) ++ r.drop 6

/-- Queue `q` with the records of its last clock edge; none while the edge is another one or the consumer has read some of them. -/
def State.evQueue (s : State) (q : Nat) : EvQueue :=
  let x := Store.get {} s.evqSeq q
  let held := (s.rd bEVQ (EVQ_Q_WR q) + 65536 - s.rd bEVQ (EVQ_Q_RD q)) % 65536
  if x.at_ = s.now + 1 ∧ x.edge.length ≤ held then x else { x with at_ := s.now + 1, first := x.seq, edge := [] }

/-- Write the records of a clock edge from index `w` on, numbered from `first`. -/
def State.writeEdge (s : State) (q w first : Nat) (l : List (Nat × List Nat)) : State :=
  l.zipIdx.foldl (fun s e =>
    s.writeQuiet (s.rd64 bEVQ (EVQ_Q_BASE_LO q) (EVQ_Q_BASE_HI q) + 32 * ((w + e.2) % 65536 % 2 ^ s.rd bEVQ (EVQ_Q_CFG_SIZE_LOG2 q)))
      (withSeq (first + e.2) e.1.2)) s

/-- Offer an event to one queue (R588): it takes its place among the events of the same clock edge; the last of them is lost where the ring
is full. -/
def State.offer (s : State) (q code flags blk status : Nat) (args : List Nat) : State :=
  if s.rd bEVQ (EVQ_Q_CFG_QEN q) = 1 ∧ code / 256 < 16 ∧ bit (s.rd bEVQ (EVQ_Q_CFG_CLASSES q)) (code / 256) = 1 then
    let x := s.evQueue q
    let w := s.rd bEVQ (EVQ_Q_WR q)
    let full := ringFull w (s.rd bEVQ (EVQ_Q_RD q)) (s.rd bEVQ (EVQ_Q_CFG_SIZE_LOG2 q))
    let l := edgeInsert (blk * 65536 + code) (evRecord s code flags blk 0 status args) x.edge
    let fenced := s.rd bEVQ COM_FENCE_FENCE == 1
    let l := if fenced then x.edge else if full then l.dropLast else l
    let s := { s with evqSeq := Store.put {} s.evqSeq q { x with seq := (x.seq + 1) % 65536, edge := l } }
    if fenced then s.inc bEVQ (EVQ_CNT_LOST q)
    else
      let s := s.writeEdge q (w + 65536 - x.edge.length) x.first l
      if full then s.inc bEVQ (EVQ_CNT_LOST q) else s.wr bEVQ (EVQ_Q_WR q) (w + 1)
  else s

/-- Raise an event with raw argument bytes and flags. -/
def State.raiseRaw (s : State) (code blk status flags : Nat) (args : List Nat) : State :=
  (List.range 4).foldl (fun s q => s.offer q code flags blk status args) (s.inc bEVQ EVQ_CNT_EVENTS)

/-- Raise a hardware event (R586). -/
def State.raise (s : State) (code blk : Nat) (a1 a2 : Nat := 0) (a3 : Nat := 0) (status : Nat := 0) : State :=
  s.raiseRaw code blk status 0 (evArgs a1 a2 a3)

/-- Set the time base. -/
def State.setTb (s : State) (x : TimeBase) : State := { s with tb := x }

/-- Raise an event stamped `ago` nanoseconds before now. -/
def State.raiseAgo (s : State) (ago code blk a1 a2 : Nat) : State :=
  let r := (s.setTb { s.tb with time := s.tb.time - ago / 2 * s.tb.inc }).raise code blk a1 a2
  r.setTb s.tb

/-! ### Initiators (R495) -/

/-- The group of an initiator. -/
def groupOf (i : Nat) : Nat :=
  if 1 ≤ i ∧ i ≤ 4 then 0
  else if i = 5 then 1
  else if 0x10 ≤ i ∧ i ≤ 0x31 then 2
  else if 0x100 ≤ i ∧ i ≤ 0x1FF then 3
  else if i = 0x40 ∨ (0x50 ≤ i ∧ i ≤ 0x58) then 4
  else if 0x60 ≤ i ∧ i ≤ 0x63 then 5
  else if 0x70 ≤ i ∧ i ≤ 0x73 then 6
  else if i = 0xA0 ∨ i = 0xA1 ∨ i = 0xFF then 7
  else if i = 0xF0 then 0
  else 8

/-- The initiator of cluster `c` (R495). -/
def iCLU (c : Nat) : Nat := 0x10 + c

/-- The initiators of the Tannery, the scheduler and the key-value cache unit (R495). -/
def iTAN : Nat := 0x40
def iSCH : Nat := 0x60
def iKVC : Nat := 0x61

/-! ### Signals of a job -/

/-- The stop of a command's effect: the next state. -/
def done (s : State) : Host.Outcome State Fault Refusal := .next s

end Sys2Proof.Machine
end

