-- ==== Sys2Proof/Machine/Position.lean ====
section
/-!
DEFINITION. The position and the speed of the two Stirrup ports (R423-R428), the follower and wired ports of a
multi-module system (R386, R387), and whether a job runs (R396).
-/

namespace Sys2Proof.Machine

/-- The inside of Stirrup port `p`. -/
def State.stpP (s : State) (p : Nat) : StpPort := Store.get {} s.stp p

/-- Replace the inside of Stirrup port `p`. -/
def State.setStp (s : State) (p : Nat) (x : StpPort) : State := { s with stp := Store.put {} s.stp p x }

/-- How port `p` stands to module 0. -/
def State.followP (s : State) (p : Nat) : Follow := Store.get {} s.follow p

/-- Replace how port `p` stands to module 0. -/
def State.setFollow (s : State) (p : Nat) (x : Follow) : State := { s with follow := Store.put {} s.follow p x }

/-- Whether a job runs on the module (R396). -/
def State.jobRun (s : State) : Bool := s.rd bLNK LNK_EPOCH_STAT_JOB_RUN == 1

/-- The module's position in a Traif Link system. -/
def State.modulePos (s : State) : Nat := s.rd bLNK LNK_SYSCFG_POSITION

/-- Whether port `p` is a follower of module 0's port (R386). -/
def State.isFollower (s : State) (p : Nat) : Bool := bit (s.act bLNK LNK_POSCFG_FOLLOW) p == 1

/-- The speed of port `p` in effect now as counts over nanoseconds: 0 at standstill and while a direction or a speed is
pending; slowed by R424 once the time since the last edge exceeds the measured period. -/
def State.speedFrac (s : State) (p : Nat) : Int × Nat :=
  let x := s.stpP p
  if s.rd (bSTP p) STP_STAT_STANDSTILL = 1 ∨ s.rd (bSTP p) STP_STAT_DIR_PENDING = 1 ∨
      s.rd (bSTP p) STP_STAT_SPEED_PENDING = 1 then (0, 1)
  else match x.lastEdge with
    | none => (0, 1)
    | some e =>
      if (x.vDen : Int) < x.vNum.natAbs * (s.now - e : Nat) then (x.vNum.sign, s.now - e)
      else (x.vNum, max 1 x.vDen)

/-- The interpolated position of the port's own encoder in counts × 256 (R428): the fraction is truncated toward the
last count and never reaches the next one. -/
def State.ownPos (s : State) (p : Nat) : Int :=
  let x := s.stpP p
  let v := s.speedFrac p
  let f : Nat := min 255 (v.1.natAbs * (s.now - x.baseAt) * 256 / v.2)
  x.count * 256 + (if v.1 < 0 then -(f : Int) else f)

/-- The position of port `p` in system position, counts × 256 (R386, R387). -/
def State.pos (s : State) (p : Nat) : Int :=
  if s.isFollower p then
    let f := s.followP p
    f.sys + f.spd * (s.now - f.sysAt : Nat) / 1000000000
  else s.ownPos p + 256 * sext 32 (s.rd bLNK (LNK_POSOFF p))

/-- The position that port `p` itself shows, counts × 256: its encoder's, or a follower's from the last frame (R386, R428). -/
def State.portPos (s : State) (p : Nat) : Int := if s.isFollower p then s.pos p else s.ownPos p

/-- The speed of port `p` in counts per second, truncated toward 0. -/
def State.speed (s : State) (p : Nat) : Int :=
  if s.isFollower p then (s.followP p).spd / 256
  else
    let v := s.speedFrac p
    let m : Nat := v.1.natAbs * 1000000000 / v.2
    if v.1 < 0 then -(m : Int) else m

/-- The deadlines of commands and segment requests that port `p`'s position has reached are passed for good (R350). -/
def State.noteReached (s : State) (p : Nat) : State :=
  { s with sch := { s.sch with
    cmds := s.sch.cmds.map (fun x => if x.dlKind = p ∧ sext 64 x.deadline ≤ s.pos p then { x with late := true } else x)
    reqs := s.sch.reqs.map (fun e => (e.1, e.2.map (fun r =>
      let q := Store.get {} s.kvc.seqs r.seq
      if q.port = p ∧ sext 64 q.deadline ≤ s.pos p then { r with late := true } else r))) } }

/-- A signed 64-bit value held in two fields, as software reads it. -/
def State.rdS64 (s : State) (b : Nat) (lo hi : Fld) : Int := sext 64 (s.rd64 b lo hi)

/-- A signed 64-bit value of two shadowed fields in effect. -/
def State.actS64 (s : State) (b : Nat) (lo hi : Fld) : Int :=
  sext 64 (s.act b lo + 4294967296 * s.act b hi)

end Sys2Proof.Machine
end

