-- ==== Sys2Proof/Machine/KvPages.lean ====
section
/-!
DEFINITION. The page tables of the key-value cache: pages and their counts, opening, forking and closing
of sequences (R307, R326-R330).
-/

namespace Sys2Proof.Machine

/-- Sequence `q`. -/
def State.seq (s : State) (q : Nat) : KvSeq := Store.get {} s.kvc.seqs q

/-- Replace sequence `q`. -/
def State.setSeq (s : State) (q : Nat) (x : KvSeq) : State :=
  { s with kvc := { s.kvc with seqs := Store.put {} s.kvc.seqs q x } }

/-- Page descriptor `i`. -/
def State.page (s : State) (i : Nat) : KvPage := Store.get {} s.kvc.pages i

/-- Replace page descriptor `i`. -/
def State.setPage (s : State) (i : Nat) (x : KvPage) : State :=
  { s with kvc := { s.kvc with pages := Store.put {} s.kvc.pages i x } }

/-- A page whose two counts are 0 returns to its pool's free list (R328). -/
def settle (g : KvPage) : KvPage := if g.refs = 0 ∧ g.inflight = 0 ∧ g.state ≠ 2 then {} else g

/-- Update a page and let it settle; a page that becomes free counts in `CNT_FREE`. -/
def State.updPage (s : State) (i : Nat) (f : KvPage → KvPage) : State :=
  let g := s.page i
  let g' := settle (f g)
  let s := s.setPage i g'
  if g.state ≠ 0 ∧ g'.state = 0 then s.inc bKVC KVC_CNT_FREE else s

/-- The list entries of a sequence that hold a page or a slot, in list order. -/
def KvSeq.entries (x : KvSeq) : List Nat :=
  ((List.range (x.layers * x.pages)).map (Store.get 0xFFFF x.list)).filter (· ≠ 0xFFFF)

/-- Release what a sequence's list holds: its pages' references, and in the swapped state its slots too; a swapped
sequence's list mixes slots and the pages that stayed resident, which are named from 65536 on. -/
def State.releaseList (s : State) (x : KvSeq) : State :=
  x.entries.foldl (fun s e =>
    if x.state = 2 ∧ e < 65536 then
      { s with kvc := { s.kvc with slots := Store.put false s.kvc.slots e false } }
    else s.updPage (e % 65536) (fun g => { g with refs := g.refs - 1 })) s

/-- Show the swap slots in use. -/
def State.showSlots (s : State) : State := s.wr bKVC KVC_SWAP_STAT_USED s.kvc.slots.length

/-- Close a sequence (R326): its pages and slots are released and it becomes free. -/
def State.closeSeq (s : State) (q : Nat) : State :=
  ((s.releaseList (s.seq q)).setSeq q {}).showSlots

/-- Close every sequence of a part on a port (R330). -/
def State.closePart (s : State) (p part : Nat) : State :=
  ((s.kvc.seqs.filter (fun e => e.2.state ≠ 0 && e.2.part == part && e.2.port == p && part != 0xFFFFFFFF)).map
    Prod.fst).foldl State.closeSeq s

/-- End a sequence with a status: its pages are released as by a close and the record stays (R332, R334). -/
def State.endSeq (s : State) (q status : Nat) : State :=
  let x := s.seq q
  ((s.releaseList x).setSeq q { x with state := 3, endStatus := status, list := [] }).showSlots

end Sys2Proof.Machine
end

