-- ==== Sys2Proof/Machine/LaneBase.lean ====
section
/-!
DEFINITION. A serial lane beside its registers, its rates, and its checker's bit count (R538, R548, R549, R551).
-/

namespace Sys2Proof.Machine

/-- The inside of lane `m`. -/
def State.sdsX (s : State) (m : Nat) : Sds := Store.get {} s.sds m

/-- Replace it. -/
def State.setSds (s : State) (m : Nat) (x : Sds) : State := { s with sds := Store.put {} s.sds m x }

/-- Take an injection that waits on one of the lanes `ms` (R551): whether there was one. -/
def State.takeInj (s : State) (ms : List Nat) : Bool × State :=
  match ms.find? (fun m => (s.sdsX m).inj) with
  | some m => (true, s.setSds m { s.sdsX m with inj := false })
  | none => (false, s)

/-- The lanes of Traif port `p` (R375). -/
def traifLanes (p : Nat) : List Nat := (List.range 4).map (fun k => 32 + 4 * p + k)

/-- Whether a rate code is listed for a lane's class (R108, R538). -/
def rateListed (m r : Nat) : Bool :=
  if m < 32 then [1, 2, 3, 5, 6, 10, 12].contains r
  else if m < 40 then r == 1
  else if m < 44 then r == 1 || r == 2
  else decide (1 ≤ r) && decide (r ≤ 5)

/-- The bits per millisecond of a rate code on a lane (R108, R538). -/
def rateBits (m r : Nat) : Nat :=
  if m < 32 then
    (if r = 1 then 1250000 else if r = 2 then 2500000 else if r = 3 then 3125000 else if r = 5 then 5000000
     else if r = 6 then 6250000 else if r = 10 then 10000000 else if r = 12 then 12500000 else 0)
  else if m < 40 then (if r = 1 then 28000000 else 0)
  else if m < 44 then (if r = 1 then 10312500 else if r = 2 then 25781250 else 0)
  else nth 0 [0, 2500000, 5000000, 8000000, 16000000, 32000000] r

/-- The rate that a lane's test runs at (R548). -/
def State.testRate (s : State) (m : Nat) : Nat :=
  if s.rd (bSDS m) SDS_TEST_TEST_RATE = 0 then (s.sdsX m).last else s.rd (bSDS m) SDS_TEST_TEST_RATE

/-- The 32 bits that a periodic pattern repeats, bit 0 first (R548): the alternating clock, the square wave and `user`. -/
def periodic (code user : Nat) : Option Nat :=
  if code = 6 then some 0x55555555 else if code = 7 then some 0x00FF00FF else if code = 8 then some user else none

/-- A word of 32 bits rotated by `k`. -/
def rot32 (w k : Nat) : Nat := w * 2 ^ k % 4294967296 + w * 2 ^ k / 4294967296

/-- Whether a checker for pattern `chk` finds its pattern in what a generator of pattern `gen` sends (R548, R549): a periodic pattern in any
phase; a PRBS in its own, or in zeros alone, which its recurrence repeats too. -/
def patternFits (gen chk user : Nat) : Bool :=
  match periodic gen user, periodic chk user with
  | some g, some c => (List.range 32).any (fun k => rot32 g k == c)
  | some g, none => chk != 0 && g == 0
  | none, _ => gen != 0 && gen == chk

/-- Whether lane `m`'s receiver takes its own generator's bits (R550), and whether its checker finds its pattern there. -/
def State.nearFits (s : State) (m : Nat) : Option Bool :=
  let b := bSDS m
  if s.rd b SDS_TEST_LOOP = 1 then some (patternFits (s.rd b SDS_TEST_GEN) (s.rd b SDS_TEST_CHK) (s.rd b SDS_USERPAT)) else none

/-- Count the bits that the checker has compared up to now (R549). -/
def State.countChk (s : State) (m : Nat) : State :=
  let x := s.sdsX m
  let b := bSDS m
  match x.sync with
  | none => s
  | some t0 =>
    let v := s.cnt b SDS_CNT_CHK_BITS_LO + 4294967296 * s.cnt b SDS_CNT_CHK_BITS_HI + (s.now - t0) * rateBits m (s.testRate m) / 1000000
    ((s.setSds m { x with sync := some s.now }).setCnt b SDS_CNT_CHK_BITS_LO (v % 4294967296)).setCnt b SDS_CNT_CHK_BITS_HI (v / 4294967296)

/-- Both counters of the checker restart at 0 (R549). -/
def State.restartChk (s : State) (m : Nat) : State :=
  let b := bSDS m
  let x := s.sdsX m
  let s := ((s.setCnt b SDS_CNT_CHK_BITS_LO 0).setCnt b SDS_CNT_CHK_BITS_HI 0).setCnt b SDS_CNT_CHK_ERR 0
  s.setSds m { x with sync := x.sync.map (fun _ => s.now) }

/-- Whether a lane is there for its owner: it starts or runs, and no fence has been requested. -/
def State.laneUsable (s : State) (m : Nat) : Bool :=
  (s.fsm (bSDS m) == fON || s.fsm (bSDS m) == fSTARTING) && s.rd (bSDS m) COM_FENCE_FENCE == 0

/-- Show the power state of a lane (R542): a fenced lane under test and one that starts or stops are powered; in P3 its clock recovery is
off. -/
def State.showLane (s : State) (m : Nat) : State :=
  let b := bSDS m
  let f := s.fsm b
  let testing := s.rd b SDS_TEST_GEN != 0 || s.rd b SDS_TEST_CHK != 0 || s.rd b SDS_TEST_LOOP != 0
  if f = fOFF ∨ f = fFAULT then (s.wr b SDS_STAT_PSTATE 3).wr b SDS_STAT_CDR_LOCK 0
  else s.wr b SDS_STAT_PSTATE (if f = fFENCED ∧ !testing then 2 else 0)

/-- A lane is no longer trained. -/
def State.untrain (s : State) (m : Nat) : State := (s.wr (bSDS m) SDS_STAT_TRAINED 0).wr (bSDS m) SDS_STAT_RATE 0

/-- A lane is trained at a rate: from STARTING it enters ON, or STOPPING when a stop is pending (R14, R543, R552). -/
def State.train (s : State) (m r : Nat) : State :=
  let b := bSDS m
  let s := (((s.wr b SDS_STAT_TRAINED 1).wr b SDS_STAT_RATE r).wr b SDS_STAT_CDR_LOCK 1).wr b SDS_STAT_SIG_DET 1
  let s := (s.setSds m { s.sdsX m with last := r }).wr b SDS_CTRL_RETRAIN 0
  let s := if s.fsm b = fSTARTING ∧ !s.fencing b then s.setFsm b (if s.rd b COM_CTRL_ENABLE = 1 then fON else fSTOPPING) else s
  s.showLane m

end Sys2Proof.Machine
end

