-- ==== Sys2Proof/Machine/LinkCore.lean ====
section
/-!
DEFINITION. Traif Link: frames, hops, routes, and ports going down (R376-R380).
-/

namespace Sys2Proof.Machine

/-- The protocol version of this module's firmware (R412). -/
def linkMajor : Nat := Config.linkVersion.toNat / 256
def linkMinor : Nat := Config.linkVersion.toNat % 256

/-- Send a message out of the module. -/
def State.send (s : State) (o : Out) : State := { s with out := o :: s.out }

/-! ### The types of R377 -/

def frWRITE : Nat := 0x01
def frWRITE_ACK : Nat := 0x02
def frARRIVE : Nat := 0x10
def frRELEASE : Nat := 0x11
def frANNOUNCE : Nat := 0x20
def frVOTE : Nat := 0x21
def frCOMMIT : Nat := 0x22
def frABORT : Nat := 0x23
def frUPGRADE_REPORT : Nat := 0x24
def frPOSITION : Nat := 0x30
def frTIME : Nat := 0x31
def frMEMBERS : Nat := 0x32
def frSNAP : Nat := 0x33
def frHELLO : Nat := 0x40
def frHEARTBEAT : Nat := 0x41
def frRESET_REQ : Nat := 0x50
def frSUBVERDICT : Nat := 0x60
def frLACK : Nat := 0x7E
def frLNAK : Nat := 0x7F

/-- The destination of a broadcast. -/
def toAll : Nat := 0xFF

/-! ### Ports -/

/-- Replace Traif Link's inside. -/
def State.setLnk (s : State) (x : Link) : State := { s with lnk := x }

/-- Traif port `p`. -/
def State.linkPort (s : State) (p : Nat) : LinkPort := Store.get {} s.lnk.ports p

/-- Replace Traif port `p`. -/
def State.setLinkPort (s : State) (p : Nat) (x : LinkPort) : State :=
  s.setLnk { s.lnk with ports := Store.put {} s.lnk.ports p x }

/-- Whether the link unit runs. -/
def State.lnkOn (s : State) : Bool := s.isOn bLNK && !s.fencing bLNK

/-- Whether port `p` has joined. -/
def State.portUp (s : State) (p : Nat) : Bool := s.lnkOn && decide (p < 2) && s.rd bLNK (LNK_PORT_STAT_PSTATE p) == 3

/-- Whether the system is a ring. -/
def State.isRing (s : State) : Bool := s.rd bLNK LNK_SYSCFG_TOPO == 1

/-- A frame of this module. -/
def State.frame (s : State) (ty dest arg : Nat) (data : List Int) : Frame :=
  { type := ty, src := s.modulePos, dest := dest, arg := arg, data := data }

/-- The bytes of each number of a frame's content by its type; numbers past the list take 8 (entry 120). -/
def frameWidths (type : Nat) : List Nat :=
  if type = frWRITE then List.replicate 256 1
  else if type = frANNOUNCE then [8, 8, 8] ++ List.replicate 32 1
  else if type = frRELEASE then [8, 16]
  else if type = frPOSITION then [8, 8, 16]
  else []

/-- The payload of a frame: a multiple of 8 bytes (R376). -/
def Frame.payload (f : Frame) : List Nat :=
  let b := f.data.zipIdx.flatMap (fun e => let n := nth 8 (frameWidths f.type) e.2; leBytes n (toCode (8 * n) e.1))
  let b := if f.type = frTIME then leBytes 16 f.arg
    else if f.type = frWRITE_ACK then leBytes 8 f.tag ++ b else b
  b ++ List.replicate ((8 - b.length % 8) % 8) 0

/-- The bytes of a frame on the wire (R376): header, payload, CRC-32, inverted where the frame ends so, and four zeros. -/
def Frame.bytes (f : Frame) (seq : Nat) (good : Bool) : List Nat :=
  let p := f.payload
  let cast := f.dest == toAll && !([frHELLO, frLACK, frLNAK].contains f.type)
  let b := [f.type, (if f.poison then 1 else 0) + (if cast then 2 else 0), f.src, f.dest] ++ leBytes 2 seq ++ leBytes 2 p.length ++
    leBytes 8 (if f.type = frTIME then 0 else f.arg) ++ p
  b ++ leBytes 4 (if good then crc32 b else (crc32 b).xor 0xFFFFFFFF) ++ [0, 0, 0, 0]

/-- A frame leaves on port `p`; an injection on one of its lanes spoils it (R551). -/
def State.putFrame (s : State) (p seq : Nat) (good : Bool) (f : Frame) : State :=
  let q := s.takeInj (traifLanes p)
  let ok := good && !q.1
  (q.2.setLinkPort p { q.2.linkPort p with txAt := s.now }).send (.frame p seq ok f (f.bytes seq ok))

/-- Send a numbered frame on port `p`: it stays in the replay buffer of 64 frames until it is acknowledged, and waits while
that is full (R378). -/
def State.queueFrame (s : State) (p : Nat) (f : Frame) : State :=
  if !s.portUp p then s
  else
    let x := s.linkPort p
    if 64 ≤ x.replay.length then s.setLinkPort p { x with wait := x.wait ++ [f] }
    else (s.setLinkPort p { x with tx := (x.tx + 1) % 65536, replay := x.replay ++ [(x.tx, 0, f)] }).putFrame p x.tx true f

/-- Frames that waited for room leave. -/
def State.flushPort (s : State) (p : Nat) : State :=
  let x := s.linkPort p
  x.wait.foldl (fun s f => s.queueFrame p f) (s.setLinkPort p { x with wait := [] })

/-! ### Routes (R379) -/

/-- The hops between two modules. -/
def hops (n : Nat) (ring : Bool) (a b : Nat) : Nat :=
  let d := max a b - min a b
  if ring then min d (n - d) else d

/-- The port that leads to a module: fewer hops, port 1 when equal, and in a ring the other way past a port that is not joined. -/
def State.routeTo (s : State) (dest : Nat) : Nat :=
  let me := s.modulePos
  let n := s.lnk.modules
  let p := if s.isRing then (if (dest + n - me) % n ≤ (me + n - dest) % n then 1 else 0) else if me < dest then 1 else 0
  if s.isRing && !s.portUp p then 1 - p else p

/-- Send a frame to its destination. -/
def State.sendFrame (s : State) (f : Frame) : State :=
  if f.dest = toAll then
    if s.isRing then s.queueFrame (if s.portUp 1 then 1 else 0) f
    else (s.queueFrame 0 f).queueFrame 1 f
  else s.queueFrame (s.routeTo f.dest) f

/-- Forward a frame received on port `a` on the other port (R379). -/
def State.forward (s : State) (a : Nat) (f : Frame) : State :=
  if s.portUp (1 - a) then (s.queueFrame (1 - a) f).inc bLNK LNK_CNT_FWD else s

/-- Whether a broadcast received on port `a` travels on: in a ring it ends at the module before its source. -/
def State.passesOn (s : State) (a : Nat) (f : Frame) : Bool :=
  let n := s.lnk.modules
  !s.isRing || (if a = 0 then (s.modulePos + 1) % n else (s.modulePos + n - 1) % n) != f.src

/-- Acknowledge everything received on port `a`. -/
def State.sendLack (s : State) (a : Nat) : State :=
  s.putFrame a 0 true { type := frLACK, src := s.modulePos, dest := toAll, arg := ((s.linkPort a).rx + 65535) % 65536 }

/-- A frame that is valid and next in the sequence arrives on port `a` (R378, R380): its source has been heard, poison is counted, it is
acknowledged, and a broadcast travels on. -/
def State.rxFrame (s : State) (a : Nat) (f : Frame) : State :=
  let x := s.linkPort a
  let s := s.setLinkPort a { x with rx := (x.rx + 1) % 65536, rxAt := s.now }
  let s := s.setLnk { s.lnk with heard := Store.put 0 s.lnk.heard f.src s.now }
  let s := if f.poison then s.inc bLNK LNK_CNT_POISON_RX else s
  let s := s.sendLack a
  if f.dest = toAll && s.passesOn a f then s.forward a f else s

/-- What a received frame does, on a port that has joined. -/
def State.onFrame (s : State) (a : Nat) (f : Frame) (k : State → State) : State :=
  if s.portUp a then k (s.rxFrame a f) else s

/-- A frame to this module does something here. -/
def State.forMe (s : State) (ty src arg : Nat) (data : List Int) : Frame :=
  { type := ty, src := src, dest := s.modulePos, arg := arg, data := data }

/-- A broadcast. -/
def bcast (ty src arg : Nat) (data : List Int) : Frame := { type := ty, src := src, dest := toAll, arg := arg, data := data }

/-! ### HELLO and ports going down (R380, R381) -/

/-- The clock source as `CLK_SEL` names it. -/
def State.clkSel (s : State) : Nat := s.rd bRST RST_STRAPS_CLK_SEL

/-- Send `HELLO` on port `p`: versions, identity and clock source (R381). -/
def State.sendHello (s : State) (p : Nat) : State :=
  let f : Frame := { type := frHELLO, src := s.modulePos, dest := toAll
                     data := [linkMajor, linkMinor, s.lnk.sysid, s.modulePos,
                              s.rd bLNK LNK_SYSCFG_TOPO, s.lnk.modules, s.clkSel] }
  let s := s.putFrame p 0 true f
  s.setLinkPort p { s.linkPort p with helloAt := s.now }

/-- Set the state of port `p`. -/
def State.setPortState (s : State) (p v : Nat) : State := s.wr bLNK (LNK_PORT_STAT_PSTATE p) v

/-- A link has come up on port `p`: it sends `HELLO`. -/
def State.linkUp (s : State) (p : Nat) : State := ((s.setLinkPort p {}).setPortState p 2).sendHello p

/-- Port `p` goes down (R380): the unacknowledged frames to other modules take the other way in a ring; live lanes start over. -/
def State.portDown (s : State) (p : Nat) : State :=
  if s.rd bLNK (LNK_PORT_STAT_PSTATE p) = 3 then
    let x := s.linkPort p
    let s := (((s.setLinkPort p {}).setPortState p 0).inc bLNK (LNK_CNT_DOWN p)).raise 0x0501 bLNK p
    let fs := (x.replay.map (fun r => r.2.2) ++ x.wait).filter (fun f => f.dest != toAll)
    let s := if s.isRing then fs.foldl State.sendFrame s else s
    if s.rd bLNK (LNK_PORT_STAT_LANES_UP p) ≠ 0 then s.linkUp p else s
  else s

/-! ### Membership (R384, R412) -/

/-- Whether this module is in service. -/
def State.inService (s : State) : Bool := s.rd bLNK LNK_SVC_IN_SERVICE == 1

/-- Whether module `m` is in service. -/
def State.serves (s : State) (m : Nat) : Bool := bit (s.rd bLNK LNK_MEMBERS_IN) m == 1

/-- Whether module `m` has joined. -/
def State.joined (s : State) (m : Nat) : Bool := bit (s.rd bLNK LNK_MEMBERS_JOINED) m == 1

/-- The modules of a mask. -/
def modulesOf (m : Nat) : List Nat := bitList 16 m

/-- `DELAY` for a joined set: 400 ns for each hop of its longest path, and 1,000 ns (R412). -/
def delayOf (n : Nat) (ring : Bool) (joined : Nat) : Nat :=
  400 * ((modulesOf joined).flatMap (fun a => (modulesOf joined).map (hops n ring a))).foldl max 0 + 1000

/-- Set the joined and the in-service set.  The time base of a module that has joined in a position other than 0 is governed by the link
(R462, R476). -/
def State.setMembers (s : State) (joined serving : Nat) : State :=
  let s := if s.modulePos ≠ 0 ∧ bit joined s.modulePos = 1 then s.wr bTIM TIM_STAT_SOURCE 3 else s
  let s := (s.wr bLNK LNK_MEMBERS_JOINED joined).wr bLNK LNK_MEMBERS_IN serving
  let s := s.wr bLNK LNK_SVC_IN_SERVICE (bit serving s.modulePos)
  s.wr bLNK LNK_CINCH_DELAY (delayOf s.lnk.modules s.isRing joined)

/-- Module 0 broadcasts the sets. -/
def State.sendMembers (s : State) : State :=
  s.sendFrame (s.frame frMEMBERS toAll 0 [s.rd bLNK LNK_MEMBERS_JOINED, s.rd bLNK LNK_MEMBERS_IN])

/-- A mask without a bit. -/
def without (m k : Nat) : Nat := if bit m k = 1 then m - 2 ^ k else m

/-- A mask with a bit. -/
def withBit (m k : Nat) : Nat := if bit m k = 1 then m else m + 2 ^ k

/-- Whether a start at position `x` of port `p` belongs to the configuration of a committed epoch (R597). -/
def State.epochBars (s : State) (p : Nat) (x : Int) : Bool :=
  match s.lnk.epoch with
  | some e => e.committed && e.port == p && decide (e.pos ≤ x)
  | none => false

/-! ### The report on a live switch (R402) -/

/-- This module's report, made once: the first of success and failure. -/
def State.upgReport (s : State) (ok : Bool) : State :=
  if s.lnk.upg.isNone ∨ s.lnk.mine ≠ 0 then s
  else
    let v := if ok then 1 else 2
    let s := s.setLnk { s.lnk with mine := v, reports := Store.put 0 s.lnk.reports s.modulePos v }
    if s.modulePos = 0 then s else s.sendFrame (s.frame frUPGRADE_REPORT 0 0 [v])

/-- The merge entry of a part that starts at `start` on port `p` has every declared check: success, if it runs under the new images. -/
def State.upgPart (s : State) (p : Nat) (start : Int) : State :=
  match s.lnk.upg with
  | some u => if nth 0 u.2 p ≤ start then s.upgReport true else s
  | none => s

end Sys2Proof.Machine
end

