-- ==== Sys2Proof/Machine/FieldOut.lean ====
section
/-!
DEFINITION. The field outputs: what each output drives, pulses, the common fault bit, strobes (R444-R450, R595).
-/

namespace Sys2Proof.Machine

/-- Replace the field side's inside. -/
def State.setField (s : State) (f : Field) : State := { s with field := f }

/-- Whether output `n` is latched off (R446). -/
def State.latched (s : State) (n : Nat) : Bool :=
  s.rd bFIO (FIO_DO_CFG_OVL n) == 1 || s.rd bFIO (FIO_DO_CFG_THERM n) == 1

/-- Whether Halter's safe reaction stands (R449). -/
def State.safe (s : State) : Bool := s.rd bFIO FIO_STAT_SAFE == 1

/-- What output `n` would be driven to with no undervoltage, latch or safe reaction (R444, R445). -/
def State.outWanted (s : State) (n : Nat) : Bool :=
  let src := s.rd bFIO (FIO_DO_CFG_SRC n)
  if src = 0 then s.rd bFIO (FIO_DO_CFG_LEVEL n) == 1
  else match Store.get none s.field.pulses n with
    | some q => q.unit + 1 == src && decide (s.now < q.until_)
    | none => false

/-- Whether output `n` is driven (R444-R449, R75): off unless `FIO` is ON and the domain's pads are released (R518); the safe state under the safe reaction; off
under undervoltage or a latch; else its owner's level or pulse. -/
def State.outOn (s : State) (n : Nat) : Bool :=
  if !s.isOn bFIO || s.rd bPWR (PWR_PD_STAT_HELD 56) == 1 || s.rd bFIO FIO_STAT_UV == 1 || s.latched n then false
  else if s.safe then
    let c := bits s.opt.safe (2 * n) 2
    if c = 1 then true else if c = 2 then bit s.field.held n == 1 else false
  else s.outWanted n

/-- The outputs driven, output k in bit k. -/
def State.outMask (s : State) : Nat := (List.range 8).foldl (fun m n => if s.outOn n then m + 2 ^ n else m) 0

/-- The latched outputs, output k in bit k. -/
def State.latchMask (s : State) : Nat := (List.range 8).foldl (fun m n => if s.latched n then m + 2 ^ n else m) 0

/-- Bring the driven bits and the fault bits of `FIO` up to date; a rise of the common fault bit raises `FIO_FAULT`
(R448). -/
def State.refreshFio (s : State) : State :=
  let s := (List.range 8).foldl (fun s n => s.wr bFIO (FIO_DO_CFG_ON n) (if s.outOn n then 1 else 0)) s
  let s := s.wr bFIO FIO_STAT_DO_FAULT s.latchMask
  let f := if s.latchMask ≠ 0 ∨ s.rd bFIO FIO_STAT_UV = 1 ∨ s.rd bFIO FIO_STAT_ENCV0_FAULT = 1 ∨
    s.rd bFIO FIO_STAT_ENCV1_FAULT = 1 then 1 else 0
  if f = 1 ∧ s.rd bFIO FIO_STAT_FAULT = 0 then
    let s := s.wr bFIO FIO_STAT_FAULT 1
    s.raise 0x0605 bFIO (s.latchMask * 256 + s.rd bFIO FIO_STAT_ENCV1_FAULT * 16 + s.rd bFIO FIO_STAT_ENCV0_FAULT * 8 +
      s.rd bFIO FIO_STAT_UV * 4 + s.rd bFIO FIO_STAT_SAFE * 2 + 1)
  else s.wr bFIO FIO_STAT_FAULT f

/-- End the pulse on output `n`. -/
def State.endPulse (s : State) (n : Nat) : State :=
  { s with field := { s.field with pulses := Store.put none s.field.pulses n none } }

/-- Start or restart a pulse of `ns` nanoseconds of ejection unit `p` on output `n` (R445). -/
def State.startPulse (s : State) (p n ns : Nat) : State :=
  { s with field := { s.field with pulses := Store.put none s.field.pulses n (some ⟨p, s.now + ns⟩) } }

/-- Whether a firing of unit `p` on output `n` is inhibited by something other than the safe reaction (R595). -/
def State.inhibitedHard (s : State) (p n : Nat) : Bool :=
  s.latched n || s.rd bFIO FIO_STAT_UV == 1 || s.rd bFIO (FIO_DO_CFG_SRC n) != p + 1 || !s.isOn bFIO

/-- The class a verdict selects (R434): GOOD 0, REJECT 1, RECHECK and DOUBT 2. -/
def classOf (verdict : Nat) : Nat := if verdict = 0 then 0 else if verdict = 1 then 1 else 2

/-- Fire a class of unit `p` (R434, R595): pulses on the outputs it can drive.  Answers the state, whether an output of the
mask was inhibited, and whether the safe reaction was the only cause. -/
def State.fireClass (s : State) (p c : Nat) : State × Bool × Bool :=
  let mask := s.act (bEJT p) (EJT_CLS_CFG_MASK c)
  let ns := s.act (bEJT p) (EJT_CLS_CFG_PULSE c) * 100000
  let outs := bitList 8 mask
  let hard := outs.any (s.inhibitedHard p)
  let inh := hard || (s.safe && !outs.isEmpty)
  let s := if s.safe then s else
    outs.foldl (fun s n => if s.inhibitedHard p n then s else s.startPulse p n ns) s
  (s.refreshFio, inh, s.safe && !hard)

/-! ### Strobes -/

/-- Replace the pulse of strobe `b`, as its start and end. -/
def State.setStb (s : State) (b : Nat) (x : Option (Nat × Nat)) : State :=
  { s with field := { s.field with stb := Store.put none s.field.stb b x } }

/-- A strobe trigger of source `src` (R450): a pulse after the delay, or ignored and counted during a pulse and 50 ns
after it.  DESIGN CHOICE (entry 115): the delay before a pulse counts as part of it. -/
def State.strobe (s : State) (b src : Nat) : State :=
  if s.isOn bFIO && s.rd bFIO (FIO_STB_CFG_SRC b) == src then
    let busy := match Store.get none s.field.stb b with
      | some (_, e) => decide (s.now < e + 50)
      | none => decide (s.now < Store.get 0 s.field.stbEnd b + 50) && Store.get 0 s.field.stbEnd b != 0
    if busy then s.inc bFIO (FIO_CNT_STB_MISS b)
    else
      s.setStb b (some (s.now + s.rd bFIO (FIO_STB_TIME_DELAY b) * 5,
        s.now + s.rd bFIO (FIO_STB_TIME_DELAY b) * 5 + s.rd bFIO (FIO_STB_TIME_WIDTH b) * 5))
  else s

/-- What strobe `b` shows (R450): none while it is off, its software level, or the pulse of its trigger. -/
def State.strobeOut (s : State) (b : Nat) : Option Bool :=
  let src := s.rd bFIO (FIO_STB_CFG_SRC b)
  if !s.isOn bFIO || s.rd bPWR (PWR_PD_STAT_HELD 56) == 1 || src == 0 then none
  else if src = 3 then some (s.rd bFIO (FIO_STB_CFG_LEVEL b) == 1)
  else match Store.get none s.field.stb b with
    | some (x, e) => some (decide (x ≤ s.now) && decide (s.now < e))
    | none => some false

/-- The strobes that follow camera port `n` take its trigger. -/
def State.camStrobes (s : State) (n : Nat) : State :=
  (List.range 4).foldl (fun s b => if s.rd bFIO (FIO_STB_CFG_CAMSEL b) = n then s.strobe b 1 else s) s

end Sys2Proof.Machine
end

