-- ==== Sys2Proof/Machine/Firewall.lean ====
section
/-!
DEFINITION. The firewall: the rule table, the fixed rules, what a refused access leaves, and the windows of the scratchpads (R172, R495-R497).
-/

namespace Sys2Proof.Machine

/-- Rule `i` of the rule table: base, limit, read mask, write mask and flags (R497). -/
def State.fwRule (s : State) (i : Nat) : List Nat := Store.get [] s.hlt.rules i

/-- Whether a valid rule lets a group access an address. -/
def ruleAllows (r : List Nat) (g : Nat) (write : Bool) (a : Nat) : Bool :=
  r.length == 5 && bit (nth 0 r 4) 0 == 1 && decide (nth 0 r 0 ≤ a / 4096) && decide (a / 4096 ≤ nth 0 r 1) &&
  bit (nth 0 r (if write then 3 else 2)) g == 1

/-- Whether an initiator is JTAG while the option bytes leave it boundary scan only (R76): it reaches nothing. -/
def State.jtagOff (s : State) (i : Nat) : Bool := i == 0xF0 && !s.opt.debug

/-- The firewall group an initiator belongs to now. -/
def State.groupNow (s : State) (i : Nat) : Nat := if s.jtagOff i then 8 else groupOf i

/-- Whether an initiator is a management core or the PCI Express host (R72). -/
def State.mgmtOrHost (s : State) (i : Nat) : Bool := s.groupNow i == 0 || s.groupNow i == 1

/-- Whether the rule table permits an access of `n` bytes: a rule for every page of 4 KiB that it touches (R497). -/
def State.tableAllows (s : State) (i : Nat) (write : Bool) (a n : Nat) : Bool :=
  (List.range ((a + n - 1) / 4096 - a / 4096 + 1)).all (fun q =>
    (List.range 64).any (fun k => ruleAllows (s.fwRule k) (s.groupNow i) write (a + 4096 * q)))

/-- The `HLT` offsets that G0 and G1 may write (R496). -/
def hltOpenOffset (o : Nat) : Bool :=
  o == 0x100 || o == 0x104 || (decide (0x200 ≤ o) && decide (o < 0x270)) || o == 0x280 || o == 0x284 ||
  o == 0x300 || o == 0x304 || o == 0x308 || o == 0x30C || o == 0x410 || o == 0x414 || o == 0x418

/-- Whether a register access passes the fixed rules of R496. -/
def State.regAllowed (s : State) (i : Nat) (write : Bool) (blk off : Nat) : Bool :=
  let g := s.groupNow i
  (g == 0 || g == 1 || g == 5 || g == 7) &&
  (if write && blk == bHLT then g == 7 || ((g == 0 || g == 1) && hltOpenOffset off) else true)

/-- Whether the host may write an image set to the first 96 MiB of the DRAM: the boot waits for it (R83). -/
def State.hostSet (s : State) (i a n : Nat) : Bool :=
  groupOf i == 1 && s.rd bRST RST_BOOT_STATUS_STAGE == 6 && decide (a + n ≤ 0x6000000)

/-- Whether an access to a store passes: the flash takes writes through the flash controller alone (R171); elsewhere G7 passes, and the
rest as the rule table says. -/
def State.memAllowed (s : State) (i : Nat) (write : Bool) (a n : Nat) : Bool :=
  if write && decide (flashBase ≤ a) then false
  else s.groupNow i == 7 || s.tableAllows i write a n || (write && s.hostSet i a n)

/-- A refused access (R496): latched, counted, raised with its status (R587).  JTAG with boundary scan only makes no access (R76). -/
def State.deny (s : State) (i : Nat) (write : Bool) (a : Nat) : State :=
  if s.jtagOff i then s.answer 0x0201 [] else
  let s := s.wr64 bHLT HLT_FW_LAST_LO HLT_FW_LAST_HI a
  let s := (s.wr bHLT HLT_FW_LAST_INFO_INIT i).wr bHLT HLT_FW_LAST_INFO_WR (if write then 1 else 0)
  ((s.inc bHLT HLT_CNT_FW_DENY).raise 0x0801 bHLT a i 0 0x0201).answer 0x0201 []

/-- Whether the window of a scratchpad answers: its cluster reads FENCED, or ON with no tile running (R172). -/
def State.spadOpen (s : State) (a : Nat) : Bool :=
  let n := (a - 0x2000000000) / 0x1000000
  if decide (0x2000000000 ≤ a) && decide (n < 34) then
    s.fsm (bCLU n) == fFENCED || (s.isOn (bCLU n) && (Store.get {} s.clu n).tile.isNone)
  else true

/-- How an access to a store ends: 0 it passes, BUS_ERROR outside the stores or at a closed window, or a refusal that has been latched. -/
def State.checkStore (s : State) (i : Nat) (write : Bool) (a n : Nat) : State × Nat :=
  if !inStore a n || !s.spadOpen a then (s, 0x0201)
  else if !s.memAllowed i write a n then (s.deny i write a, 0x0201)
  else (s, 0)

end Sys2Proof.Machine
end

