-- ==== Sys2Proof/Machine/Eject.lean ====
section
/-!
DEFINITION. The ejection slots: opening, commits, records (R431-R440), and the merge entries beside them (R354).
-/

namespace Sys2Proof.Machine

/-- Ejection unit `p`. -/
def State.ejtU (s : State) (p : Nat) : EjtUnit := Store.get {} s.ejt p

/-- Replace ejection unit `p`. -/
def State.setEjt (s : State) (p : Nat) (x : EjtUnit) : State := { s with ejt := Store.put {} s.ejt p x }

/-- Slot `k` of unit `p`, if it is open. -/
def State.slot (s : State) (p k : Nat) : Option Slot := Store.get none (s.ejtU p).slots k

/-- Replace slot `k` of unit `p` and keep the count of open slots. -/
def State.setSlot (s : State) (p k : Nat) (x : Option Slot) : State :=
  let u := s.ejtU p
  let slots := Store.put none u.slots k x
  (s.setEjt p { u with slots := slots }).wr (bEJT p) EJT_OPEN slots.length

/-- The open slots of unit `p` with their indices, lowest index first. -/
def State.openSlots (s : State) (p : Nat) : List (Nat × Slot) :=
  (s.ejtU p).slots.filterMap (fun e => e.2.map (fun x => (e.1, x)))

/-- The lowest-numbered free slot of unit `p`. -/
def State.freeSlot (s : State) (p : Nat) : Option Nat :=
  (List.range 64).find? (fun k => (s.slot p k).isNone)

/-- The open slot of a part on port `p`, explicit slots apart. -/
def State.slotOfPart (s : State) (p part : Nat) : Option (Nat × Slot) :=
  (s.openSlots p).find? (fun e => e.2.part == part && !e.2.explicit)

/-- Whether slots of port `p` may open, commit and fire (R440). -/
def State.ejtLive (s : State) (p : Nat) : Bool := s.isOn (bSTP p) && s.isOn (bEJT p)

/-- The key of the merge entry beside slot `k` of port `p`. -/
def mkey (p k : Nat) : Nat := p * 64 + k

/-- The merge entry beside a slot. -/
def State.mergeAt (s : State) (p k : Nat) : Option Merge := Store.get none s.merge (mkey p k)

/-- Replace a merge entry. -/
def State.setMerge (s : State) (p k : Nat) (m : Option Merge) : State :=
  { s with merge := Store.put none s.merge (mkey p k) m }

/-- The output classes with a mask other than 0 in effect. -/
def State.firingClasses (s : State) (p : Nat) : List Nat :=
  (List.range 3).filter (fun c => s.act (bEJT p) (EJT_CLS_CFG_MASK c) != 0)

/-- The offset of a class in effect. -/
def State.clsOffset (s : State) (p c : Nat) : Int := sext 32 (s.act (bEJT p) (EJT_CLS_OFFSET c))

/-- The smallest of a list of integers, 0 for none. -/
def minOr0 : List Int → Int
  | [] => 0
  | x :: r => r.foldl min x

/-- The largest of a list of integers, 0 for none. -/
def maxOr0 : List Int → Int
  | [] => 0
  | x :: r => r.foldl max x

/-- The lead of a delay in µs at the present speed, counts × 256: max(v, 0) × `DELAY`. -/
def State.lead (s : State) (p us : Nat) : Int :=
  max (s.speed p) 0 * us * 256 / 1000000

/-- The firing position of a slot for class `c` (R434). -/
def State.firingPos (s : State) (p c : Nat) (x : Slot) : Int :=
  x.target + s.clsOffset p c - s.lead p (s.act (bEJT p) (EJT_CLS_DELAY c))

/-- The earliest firing position of a slot (R435). -/
def State.earliestPos (s : State) (p : Nat) (x : Slot) : Int :=
  let cs := s.firingClasses p
  x.target + minOr0 (cs.map (s.clsOffset p)) -
    s.lead p (maxOr0 (cs.map (fun c => (s.act (bEJT p) (EJT_CLS_DELAY c) : Int)))).toNat

/-- The verdict a slot ends with: an encoder fault leaves REJECT and turns every other verdict into DOUBT (R437). -/
def withEncFault (aff : Bool) (v : Nat) : Nat := if aff && v != 1 then 3 else v

/-- The status of a slot's record, in the order of R439: `cause` is the status that discarded it, 0 for a firing. -/
def recordStatus (x : Slot) (cause : Nat) : Nat :=
  if cause = 0x0202 then 0x0202
  else if cause = 0x0701 ∨ x.encAffected then 0x0701
  else match x.commit with
    | some c => if c.missed then 0x0601 else if withEncFault x.encAffected c.verdict = 3 then 0x0602 else 0
    | none => 0

/-- The record of a slot (R439). `cls` is the class fired, 0xFF for none; `fired` says whether it fired.
DESIGN CHOICE (entry 115): a slot discarded before any commit records 0 as its position and time of commit. -/
def slotRecord (s : State) (p k : Nat) (x : Slot) (cls : Nat) (inhibited fired : Bool) (cause : Nat) : List Nat :=
  let v := match x.commit with
    | some c => withEncFault x.encAffected c.verdict
    | none => 3
  let c := x.commit.getD {}
  let b (y : Bool) (n : Nat) : Nat := if y then n else 0
  leBytes 4 x.part ++ [p, v, cls,
    b c.degraded 1 + b c.fromFb 2 + b x.explicit 4 + b inhibited 8 +
    b (fired && s.rd (bSTP p) STP_STAT_UNCERTAIN == 1 && x.encAffected) 16 + b x.encAffected 32 + b (!fired) 64 + b x.overspeed 128] ++
  leBytes 2 (recordStatus x cause) ++ [k] ++ List.replicate 5 0 ++
  leBytes 8 (toCode 64 x.target) ++ leBytes 8 (toCode 64 c.pos) ++ leBytes 4 c.sec ++ leBytes 4 c.ns ++
  leBytes 8 (if fired then toCode 64 (s.pos p) else 0) ++
  leBytes 4 (if fired then s.tbSec else 0) ++ leBytes 4 (if fired then s.tbNs else 0) ++
  leBytes 4 (if fired then toCode 32 (s.speed p) else 0) ++ List.replicate 4 0

/-- The initiator of the Stirrup and ejection units (R495). -/
def iEJT : Nat := 0x62

/-- Write a record to the ring of unit `p`, or drop and count it when the ring is full (R439).  A write that the firewall refuses, or that
meets no memory, is lost while the index goes on (R496). -/
def State.putRecord (s : State) (p : Nat) (r : List Nat) : State :=
  let b := bEJT p
  let w := s.rd b EJT_REC_WR
  let sz := s.rd b EJT_REC_SIZE
  if ringFull w (s.rd b EJT_REC_RD) sz then s.inc b EJT_CNT_REC_LOST
  else
    let a := s.rd64 b EJT_REC_BASE_LO EJT_REC_BASE_HI + 64 * (w % 2 ^ sz)
    let c := s.checkStore iEJT true a r.length
    (if c.2 = 0 then s.writeQuiet a r else { c.1 with resp := s.resp }).wr b EJT_REC_WR (w + 1)

/-- Replace the scheduler's inside. -/
def State.setSch (s : State) (x : Sched) : State := { s with sch := x }

/-- The context a queue is bound to, `0xFF` for none. -/
def State.qCtx (s : State) (q : Nat) : Nat := s.rd bSCH (SCH_Q_CFG_CTX q)

/-- The state of a context slot (R357): 0 EMPTY, 1 LOADING, 2 READY, 3 ACTIVE, 4 RETIRING, 5 UNLOADING, 6 LOAD_PENDING. -/
def State.ctxState (s : State) (k : Nat) : Nat := s.rd bSCH (SCH_CTX_STATE_CSTATE k)

/-! ### Contexts (R357, R358) -/

/-- Put a context slot into a state; the mask of ACTIVE slots follows (R366). -/
def State.setCtxState (s : State) (k v : Nat) : State :=
  let s := s.wr bSCH (SCH_CTX_STATE_CSTATE k) v
  let m := s.rd64 bSCH SCH_ACT_LO SCH_ACT_HI
  let m := m - (if bit m k = 1 then 2 ^ k else 0) + (if v = 3 then 2 ^ k else 0)
  s.wr64 bSCH SCH_ACT_LO SCH_ACT_HI m

/-- Empty a context slot: its batch former holds nothing any more. -/
def State.emptyCtx (s : State) (k : Nat) : State :=
  (s.setCtxState k 0).setSch { s.sch with
    ctx := Store.put {} s.sch.ctx k {}
    reqs := Store.put [] s.sch.reqs k []
    bufs := s.sch.bufs.filter (fun e => e.1 / 4 != k) }

/-- Whether an open part still waits for its commit with context `k` (R358). -/
def State.ctxHasParts (s : State) (k : Nat) : Bool :=
  (List.range 2).any (fun p => (List.range 64).any (fun j => match s.slot p j, s.mergeAt p j with
    | some x, some m => x.commit.isNone && bit m.ctx k == 1
    | _, _ => false))

/-- Whether a command in flight is bound to context `k`. -/
def State.ctxHasCmds (s : State) (k : Nat) : Bool := s.sch.cmds.any (fun x => s.qCtx x.q == k)

/-- A retiring or unloading slot whose last part is committed and that has no command in flight moves on (R357). -/
def State.settleCtx (s : State) (k : Nat) : State :=
  let st := s.ctxState k
  if st < 4 ∨ s.ctxHasParts k ∨ s.ctxHasCmds k then s
  else if st = 4 then s.setCtxState k 2
  else if st = 5 then s.emptyCtx k
  else s.setCtxState k 1

/-- Every slot that can move on does. -/
def State.settleCtxs (s : State) : State := (List.range 64).foldl State.settleCtx s

/-! ### Commits -/

/-- Commit a verdict to slot `k` of port `p` (R436): only from the source the slot names, and only the first. A commit closes
the part's sequences (R330). -/
def State.slotCommit (s : State) (p k : Nat) (c : Commit) : State :=
  match s.slot p k with
  | none => s
  | some x =>
    if !s.ejtLive p then s
    else if x.srcFb ≠ c.fromFb then s.inc (bEJT p) EJT_CNT_SRC_DISCARD
    else if x.commit.isSome then s
    else
      let s := s.setSlot p k (some { x with commit := some { c with pos := s.pos p, sec := s.tbSec % 4294967296, ns := s.tbNs } })
      let s := s.inc (bEJT p) (EJT_CNT_VERDICT (withEncFault x.encAffected c.verdict))
      let s := if c.missed then s.inc (bEJT p) EJT_CNT_MISSED else s
      (if x.explicit then s else s.closePart p x.part).settleCtxs

/-- Commit a slot DOUBT by hardware (R25, R435), whatever source it takes its commits from; its merge entry takes no later result (R26).
DESIGN CHOICE (entry 115): the record's flag bit 1 then tells the slot's source. -/
def State.hwDoubt (s : State) (p k : Nat) (overspeed : Bool) : State :=
  match s.slot p k with
  | none => s
  | some x =>
    if x.commit.isSome ∨ !s.ejtLive p then s
    else
      let s := s.setSlot p k (some { x with overspeed := overspeed })
      let s := s.setMerge p k ((s.mergeAt p k).map (fun m => { m with committed := true }))
      s.slotCommit p k { verdict := 3, missed := true, fromFb := x.srcFb }

end Sys2Proof.Machine
end

