-- ==== Sys2Proof/Machine/HalterCore.lean ====
section
/-!
DEFINITION. Halter's window unit and reactions: stage reports and faults, the switch to the fallback inspector, the
safe reaction and self-faults (R482-R489, R498).
-/

namespace Sys2Proof.Machine

/-- Replace Halter's inside. -/
def State.setHlt (s : State) (h : Halter) : State := { s with hlt := h }

/-- The field `SRC`p of `HLT_STAT`. -/
def hltSrc (p : Nat) : Fld := if p = 0 then HLT_STAT_SRC0 else HLT_STAT_SRC1

/-- The healthy count of port `p` (R488). -/
def hltHealthy (p : Nat) : Fld := if p = 0 then HLT_HEALTHY_P0 else HLT_HEALTHY_P1

/-- The escalation record of R498. -/
def escalationRecord (s : State) (level cause stage port : Nat) : List Nat :=
  [level, cause, stage, port] ++ leBytes 4 s.tbSec ++ leBytes 4 s.tbNs ++
  leBytes 8 (toCode 64 (s.pos 0)) ++ leBytes 8 (toCode 64 (s.pos 1)) ++
  [s.rd bHLT HLT_STAT_STG_FAULT] ++ List.replicate 35 0

/-- Write the escalation record into the retention SRAM. -/
def State.writeEscalation (s : State) (level cause stage port : Nat) : State :=
  s.write (retBase + 0xFFC0) (escalationRecord s level cause stage port)

/-- The safe reaction (R489): the record, the safe states, `LEVEL`, the event and the reset it may request. -/
def State.safeReaction (s : State) (cause stage port : Nat) : State :=
  if s.rd bHLT HLT_STAT_LEVEL = 2 then s
  else
    let s := s.writeEscalation 2 cause stage port
    let s := s.setField { s.field with held := s.outMask }
    let s := (s.wr bFIO FIO_STAT_SAFE 1).refreshFio
    let s := (s.wr bHLT HLT_STAT_LEVEL 2).wr bHLT HLT_STAT_CAUSE cause
    let s := if s.opt.resetOnEsc && s.opt.resetDelayMs != 0 then
        s.setHlt { s.hlt with resetDue := some (s.now + s.opt.resetDelayMs * 1000000) } else s
    s.raise 0x0803 bHLT cause

/-- The fallback result of a part, if it is ready. -/
def State.fbResult (s : State) (p part : Nat) : Option Nat :=
  (s.hlt.results.find? (fun r => r.1 == p && r.2.1 == part)).map (fun r => r.2.2)

/-- Commit a part by the fallback inspector: the commit carries the degraded mark (R28, R487). -/
def State.fbCommit (s : State) (p k verdict : Nat) : State :=
  (s.slotCommit p k { verdict := verdict, degraded := true, fromFb := true }).inc bHLT HLT_CNT_FB_COMMIT

/-- Give slot `k` to the fallback inspector, with its result if that is ready (R487). -/
def State.slotToFb (s : State) (p k : Nat) : State :=
  match s.slot p k with
  | none => s
  | some x =>
    if x.commit.isSome ∨ x.explicit then (if x.commit.isSome then s else s.setSlot p k (some { x with srcFb := true }))
    else
      let s := s.setSlot p k (some { x with srcFb := true })
      match s.fbResult p x.part with
      | some v => s.fbCommit p k v
      | none => s

/-- Level 1 for port `p` (R487): the switch to the fallback inspector, or the safe reaction when the fallback inspector is
not sound (R486).  DESIGN CHOICE (entry 115): while `LEVEL` already reads the safe reaction, a level 1 cause changes nothing. -/
def State.switchPort (s : State) (cause stage p : Nat) : State :=
  if s.rd bHLT HLT_STAT_LEVEL = 2 then s
  else if s.rd bHLT HLT_STAT_FB_OK = 0 then s.safeReaction cause stage p
  else
    let was := s.rd bHLT (hltSrc p)
    let s := ((s.wr bHLT HLT_STAT_LEVEL 1).wr bHLT HLT_STAT_CAUSE cause).wr bHLT (hltHealthy p) 0
    if was = 1 then s
    else
      let s := (s.wr bHLT (hltSrc p) 1).wr (bEJT p) EJT_SRC 1
      let s := ((s.inc bHLT HLT_CNT_SWITCH).raise 0x0802 bHLT p cause).upgReport false
      (List.range 64).foldl (fun s k => s.slotToFb p k) s

/-- The ports a port code names: 0xFF is both. -/
def portsOf (code : Nat) : List Nat := if code = 0xFF then [0, 1] else [code]

/-- The reaction cause of a stage fault as numbered in `HLT_STAT`. -/
def causeOf (stage kind : Nat) : Nat := if kind = 5 then 7 else if stage = 6 then 3 else if stage = 7 then 4 else 1

/-- Mark that a stage 7 fault of source `k` begins: port × 4 plus 0 heartbeat, 1 encoder, 2 not ON, 3 alignment, and 8 and 9 the
heartbeat and the tick of the time base.  The tick's fault, once it stands, keeps its beginning. -/
def State.markS7 (s : State) (k : Nat) : State :=
  if k = 9 ∧ (Store.get none s.hlt.s7 9).isSome then s
  else s.setHlt { s.hlt with s7 := Store.put none s.hlt.s7 k (some s.now) }

/-- A stage fault (R486): latched, raised as `HLT_STAGE`, counted, and answered by the reaction of its stage. A stage whose
window is disabled produces none (R499). -/
def State.stageFault (s : State) (stage code kind : Nat) : State :=
  if bit s.opt.windows stage = 0 then s
  else
    let s := s.wr bHLT HLT_STAT_STG_FAULT ((s.rd bHLT HLT_STAT_STG_FAULT).lor (2 ^ stage))
    let s := s.raise 0x0804 bHLT stage code (if stage = 6 ∧ kind = 4 then Config.stage6Kind else kind)
    let s := if kind = 1 then s.inc bHLT HLT_CNT_STG_EARLY else if kind = 2 then s.inc bHLT HLT_CNT_STG_LATE
      else if kind = 3 then s.inc bHLT HLT_CNT_STG_UNKNOWN else s
    if stage = 6 then
      if s.opt.safeOnStage6 then s.safeReaction (causeOf stage kind) stage code else s
    else (portsOf code).foldl (fun s p => s.switchPort (causeOf stage kind) stage p) s

/-- A report about stage 7 from source `k`, for a port or for both with code 0xFF (R484, R486). -/
def State.stage7 (s : State) (code k : Nat) : State := (s.markS7 k).stageFault 7 code 4

/-- The stage a check belongs to (R483), for a part with the text checks `text`. -/
def stageOfCheck (text c : Nat) : Nat :=
  if c ≤ 8 then 0 else if c ≤ 17 then 1 else if c = 18 then 4 else if bit text c = 1 then 3 else 2

/-- The declared checks of a stage. -/
def checksOfStage (text declared stage : Nat) : List Nat :=
  (bitList 64 declared).filter (fun c => stageOfCheck text c == stage)

/-- Whether a stage window applies to a slot: stages 5 and 6 to every slot with a merge entry, the others when the part
declares a check of the stage (R483). -/
def State.stageApplies (s : State) (p k stage : Nat) : Bool :=
  match s.slot p k, s.mergeAt p k with
  | some x, some m => !x.explicit &&
      (stage == 5 || stage == 6 || !(checksOfStage x.textChk m.declared stage).isEmpty)
  | _, _ => false

/-- A report of stage 0 to 6 for slot `k` of port `p` arrives at Halter (R484): early below S + `EARLY`, late at or beyond
S + `DUE` if that was not found before. -/
def State.stageReportAt (s : State) (p k stage : Nat) : State :=
  match s.slot p k with
  | none => s
  | some x =>
    if !s.stageApplies p k stage ∨ bit x.reported stage = 1 then s
    else
      let rel := s.pos p - x.start
      let early := decide (rel < Int.ofNat (nth 0 x.early stage))
      let late := decide (Int.ofNat (nth 0xFFFFFFFF x.due stage) ≤ rel) && bit x.lateSeen stage == 0
      let bad := (early || late || bit x.lateSeen stage == 1) && bit s.opt.windows stage == 1
      let s := s.setSlot p k (some { x with reported := x.reported + 2 ^ stage, fault := x.fault || bad })
      if early then s.stageFault stage p 1 else if late then s.stageFault stage p 2 else s

/-- A report of a stage that names a part with no open slot or merge entry (R484). -/
def State.stageUnknown (s : State) (p stage : Nat) : State := s.stageFault stage p 3

/-- Whether a watched stage that applies to slot `k` of port `p` has not reported. -/
def State.stageOwed (s : State) (p k : Nat) (x : Slot) : Bool :=
  (List.range 6).any (fun n => s.stageApplies p k n && bit s.opt.windows n == 1 && bit x.reported n == 0)

/-- A part's slot has written its record: the stage 6 report, and the healthy count of R488, which a late or a missing report ends. -/
def State.recordReport (s : State) (p k : Nat) : State :=
  match s.slot p k with
  | none => s
  | some x =>
    if x.explicit then s
    else
      let s := s.stageReportAt p k 6
      let bad := match s.slot p k with
        | some y => y.fault || s.stageOwed p k y
        | none => true
      if bad then s.wr bHLT (hltHealthy p) 0
      else s.wr bHLT (hltHealthy p) (min 65535 (s.rd bHLT (hltHealthy p) + 1))

/-- Discard every open slot of unit `p` (R440): each writes its record with the status `cause`.  Answers whether there was
one. -/
def State.discardSlots (s : State) (p cause : Nat) : State × Bool :=
  let ks := s.openSlots p
  (ks.foldl (fun s e =>
    let s := s.putRecord p (slotRecord s p e.1 e.2 0xFF false false cause)
    ((s.recordReport p e.1).setSlot p e.1 none).setMerge p e.1 none) s, !ks.isEmpty)

/-- Stirrup port `p` has left ON (R418, R440): its slots are discarded, stage 7 is reported, the unit opens no slot until the
next job epoch, and no wire break is watched. `fence` says whether a fence was the reason. -/
def State.stpLeft (s : State) (p : Nat) (fence : Bool) : State :=
  let r := s.discardSlots p (if fence then 0x0202 else 0x0701)
  let s := (r.1.setEjt p { r.1.ejtU p with mayOpen := false }).wr (bSTP p) STP_STAT_WIRE 0
  s.stage7 p (4 * p + 2)

/-- Ejection unit `p` has left ON (R440): its slots are discarded with FENCED_ABORT, and stage 6 is reported if there was one. -/
def State.ejtLeft (s : State) (p : Nat) : State :=
  let r := s.discardSlots p 0x0202
  let s := r.1.setEjt p { r.1.ejtU p with mayOpen := false }
  if r.2 then s.stageFault 6 p 4 else s

/-- A `MEM_UE` event reaches Halter: more than `UE_SWITCH` within one second is a level 1 cause for both ports (R486). -/
def State.haltUe (s : State) : State :=
  let l := s.now :: lastSecond s.now s.hlt.ueAt
  let s := s.setHlt { s.hlt with ueAt := l }
  if s.opt.ueSwitch < l.length then (s.switchPort 2 0xFF 0).switchPort 2 0xFF 1 else s

/-- A Halter self-fault (R482): every output in its safe state at once, and a reset due one millisecond later. -/
def State.selfFault (s : State) : State :=
  if s.hlt.selfAt.isSome then s
  else
    let s := s.setField { s.field with held := if s.safe then s.field.held else s.outMask }
    let s := (s.wr bFIO FIO_STAT_SAFE 1).refreshFio
    let s := (s.wr bHLT HLT_STAT_LEVEL 2).wr bHLT HLT_STAT_CAUSE 6
    let s := s.writeEscalation 3 6 0xFF 0xFF
    s.setHlt { s.hlt with selfAt := some s.now }

end Sys2Proof.Machine
end

