-- ==== Sys2Proof/Machine/Integrity.lean ====
section
/-!
DEFINITION. Error reports (R196-R200).
-/

namespace Sys2Proof.Machine

/-- Replace the memory unit's inside. -/
def State.setMem (s : State) (m : MemUnit) : State := { s with memu := m }

/-- Whether two reports merge in the error log: kind, block, sub-unit and address equal. -/
def LogRec.same (a b : LogRec) : Bool :=
  a.kind == b.kind && a.blk == b.blk && a.sub == b.sub && a.addr == b.addr

/-- Whether a report within 1 ms of the newest unread record merges into it (R197). -/
def State.mergesInto (s : State) (r : LogRec) : Bool :=
  match s.memu.log.getLast? with
  | some l => l.same r && decide (s.now ≤ l.at_ + 1000000)
  | none => false

/-- The log with a report merged into its newest record; the repeat count saturates. -/
def bumpLast : List LogRec → List LogRec
  | [] => []
  | [l] => [{ l with rep := min 255 (l.rep + 1) }]
  | x :: y :: r => x :: bumpLast (y :: r)

/-- Write a record to the error log, merge it, or drop and count it when the log is full (R197). -/
def State.logError (s : State) (r : LogRec) : State :=
  let r := { r with at_ := s.now, sec := s.tbSec % 4294967296, ns := s.tbNs }
  if s.mergesInto r then s.setMem { s.memu with log := bumpLast s.memu.log }
  else if 256 ≤ s.memu.log.length then s.inc bMEM4 MEM4_LOG_LOST
  else s.setMem { s.memu with log := s.memu.log ++ [r] }

/-- A corrected error of a unit counts towards its rate; the event is raised once while the rate stays above the limit
(R200). -/
def State.correctedRate (s : State) (unit : Nat) : State :=
  let l := s.now :: lastSecond s.now (Store.get [] s.memu.ceAt unit)
  let lim := s.rd bMEM4 MEM4_POLICY_CE_LIMIT
  let high := Store.get 0 s.memu.ceHigh unit
  let quiet := high ≠ 0 ∧ high + 1000000000 ≤ s.now
  let s1 := s.setMem { s.memu with
    ceAt := Store.put [] s.memu.ceAt unit l
    ceHigh := Store.put 0 s.memu.ceHigh unit (if lim < l.length then s.now else if quiet then 0 else high) }
  if lim < l.length ∧ (high = 0 ∨ quiet) then s1.raise 0x0301 bMEM4 unit else s1

/-- Report an uncorrectable error to the event queue, with the status of its log record, and to Halter (R199, R587). -/
def State.memUe (s : State) (blk addr status : Nat) : State := (s.raise 0x0302 blk addr 0 0 status).haltUe

/-- The sub-unit of the rate of R200 for a block and sub-unit of a report. -/
def rateUnit (blk sub : Nat) : Nat := blk * 256 + sub

/-- An error report of R196 to the log, and where R199 marks it to the event queue and Halter; the counters are counted by
the caller, who knows the unit. -/
def State.report (s : State) (r : LogRec) : State :=
  let s := s.logError r
  if r.kind = 1 ∨ r.kind = 4 then s.correctedRate (rateUnit r.blk r.sub)
  else if r.kind = 6 then s
  else if r.kind = 7 then (s.raise 0x0303 (bCLU r.sub) r.sub 0 0 r.status).inc bHLT HLT_CNT_SUSPECT_SEEN
  else s.memUe r.blk r.addr r.status

end Sys2Proof.Machine
end

