-- ==== Sys2Proof/Machine/Merge.lean ====
section
/-!
DEFINITION. The verdict merge (R21, R22, R25, R26, R354, R355), sub-verdicts (R403) and the opening of slots and merge
entries at a part start (R431, R432, R596).
-/

namespace Sys2Proof.Machine

/-- The statuses with which a check's own result stands (R21). -/
def soundStatus (st : Nat) : Bool := st == 0 || st == 0x0301 || st == 0x0303

/-- The rank of one report under R21: 1 REJECT, 2 DOUBT or an unsound status, 3 RECHECK, 4 GOOD. -/
def rankOf (verdict status : Nat) : Nat :=
  if !soundStatus status then 2 else if verdict = 1 then 1 else if verdict = 3 then 2 else if verdict = 2 then 3 else 4

/-- The verdict of a rank. -/
def verdictOfRank (r : Nat) : Nat := if r ≤ 1 then 1 else if r = 2 then 3 else if r = 3 then 2 else 0

/-- The declared checks that have not reported. -/
def Merge.missing (m : Merge) : List Nat :=
  (bitList 64 m.declared).filter (fun c => !m.reports.any (fun r => r.1 == c))

/-- The rank of a declared check: DOUBT when it is missing or was reported twice (R21, R355). -/
def Merge.rankOfCheck (m : Merge) (c : Nat) : Nat :=
  if bit m.dup c = 1 then 2 else
  match m.reports.find? (fun r => r.1 == c) with
  | some r => rankOf r.2.1 r.2.2
  | none => 2

/-- The merged verdict of R21; an undeclared report counts as DOUBT (R355). -/
def Merge.verdict (m : Merge) : Nat :=
  let ranks := (bitList 64 m.declared).map m.rankOfCheck
  let ranks := if m.dup = 0 then ranks else 2 :: ranks
  verdictOfRank (ranks.foldl min 4)

/-- Whether port `p` contributes its verdicts to another module (R403). -/
def State.contributor (s : State) (p : Nat) : Bool := s.act bLNK (LNK_SUBVCFG_EN p) == 1

/-- A contributor sends its sub-verdict to the owner (R403): DOUBT with the degraded mark for a part on the fallback inspector. -/
def State.sendSub (s : State) (p part verdict : Nat) (fb : Bool) : State :=
  if s.contributor p && s.inService then
    s.sendFrame (s.frame frSUBVERDICT (s.act bLNK (LNK_SUBVCFG_OWNER p)) part
      [p, s.act bLNK (LNK_SUBVCFG_CHECK p), if fb then 3 else verdict, if fb then 1 else 0])
  else s

/-- The scheduler commits a merge entry to its slot (R355): the stage 5 report follows. -/
def State.mergeCommit (s : State) (p k : Nat) : State :=
  match s.mergeAt p k, s.slot p k with
  | some m, some x =>
    if m.committed ∨ !s.isOn bSCH ∨ s.fencing bSCH then s
    else
      let s := s.setMerge p k (some { m with committed := true })
      let s := s.sendSub p x.part m.verdict x.srcFb
      let s := s.slotCommit p k { verdict := m.verdict, missed := !m.missing.isEmpty, degraded := m.degraded }
      s.stageReportAt p k 5
  | _, _ => s

/-- A check is reported for a part (R354, R355, R26): a part with no open entry makes an unknown report; a second or undeclared
report counts as a duplicate; the last declared check commits the entry. `degraded` is the mark of a sub-verdict (R404). -/
def State.checkReport (s : State) (p part c verdict status : Nat) (degraded : Bool := false) : State :=
  match s.slotOfPart p part with
  | none => s.stageUnknown p (stageOfCheck (s.act bHLT HLT_TEXTCHK_LO + 4294967296 * s.act bHLT HLT_TEXTCHK_HI) c)
  | some (k, x) =>
    match s.mergeAt p k with
    | none => s.stageUnknown p (stageOfCheck x.textChk c)
    | some m =>
      if !s.isOn bSCH ∨ s.fencing bSCH then s
      else
        let again := m.reports.any (fun r => r.1 == c) || bit m.declared c == 0
        let s := if again && !m.committed then s.inc bSCH SCH_CNT_MERGE_DUP else s
        let m := if again then (if m.committed then m else { m with dup := m.dup.lor (2 ^ c) })
          else { m with reports := (c, verdict, status) :: m.reports, degraded := m.degraded || (degraded && !m.committed) }
        let s := s.setMerge p k (some m)
        let st := stageOfCheck x.textChk c
        let s := if (checksOfStage x.textChk m.declared st).all (fun d => m.reports.any (fun r => r.1 == d)) then
            s.stageReportAt p k st else s
        if m.missing.isEmpty then (s.upgPart p x.start).mergeCommit p k else s

/-- The verdict deadline of a slot (R22, R25): the merge commits with what has reported, then hardware commits what is left. A
contributor's merge runs `GUARD_US` earlier by its own deadline (R403). -/
def State.deadlineAt (s : State) (p k : Nat) : State :=
  (s.mergeCommit p k).hwDoubt p k false

/-! ### Opening slots -/

/-- Where the verdict deadline of a slot lies: a contributor's comes `GUARD_US` of travel before (R403). -/
def State.deadlinePos (s : State) (p : Nat) (x : Slot) : Int :=
  if s.contributor p then x.deadline - s.speed p * 256 * s.act bLNK (LNK_SUBVCFG_GUARD_US p) / 1000000 else x.deadline

/-- The declared mask of a part on port `p`: check 18 only for a part to which a patch applies (R397, R398). -/
def State.declaredMask (s : State) (p part : Nat) : Nat :=
  let d := if p = 0 then s.job.declared0 else s.job.declared1
  let has := s.job.patches.any (fun q => q.stp == p && part % q.modulus == q.residue)
  if bit d 18 = 1 ∧ !has then d - 2 ^ 18 else d

/-- The stage windows in effect for port `p`: `EARLY` of stages 0 to 6. -/
def State.winEarly (s : State) (p : Nat) : List Nat := (List.range 7).map (fun z => s.act bHLT (HLT_STG_EARLY z p))

/-- The stage windows in effect for port `p`: `DUE` of stages 0 to 6. -/
def State.winDue (s : State) (p : Nat) : List Nat := (List.range 7).map (fun z => s.act bHLT (HLT_STG_DUE z p))

/-- A new slot of port `p` with its part, part start and target. -/
def State.newSlot (s : State) (p part : Nat) (start target : Int) (explicit : Bool) : Slot :=
  { part := part, start := start, target := target, deadline := target - s.act (bEJT p) EJT_GUARD, explicit := explicit,
    srcFb := s.rd bHLT (hltSrc p) == 1, early := s.winEarly p, due := s.winDue p,
    textChk := s.act bHLT HLT_TEXTCHK_LO + 4294967296 * s.act bHLT HLT_TEXTCHK_HI,
    encAffected := s.rd (bSTP p) STP_STAT_FAULT_NOW == 1, fbGen := s.hlt.fbGen }

/-- Whether a fallback table holds no window and no zone for Stirrup port `p` (R494). -/
def FbTable.noneFor (t : FbTable) (p : Nat) : Bool :=
  !t.wins.any (fun x => x.stp == p) && !t.zones.any (fun x => x.stp == p)

/-- The fallback inspector's result of a part becomes ready (R487, R494): it is held while the part's slot is open, and
committed at once when the slot takes its commit from the fallback inspector. -/
def State.fbReady (s : State) (p part verdict : Nat) : State :=
  match s.slotOfPart p part with
  | none => s
  | some (k, x) =>
    let old := s.hlt.results.filter (fun r => (s.slotOfPart r.1 r.2.1).isSome && !(r.1 == p && r.2.1 == part))
    let s := s.setHlt { s.hlt with results := (p, part, verdict) :: old }
    if x.srcFb && x.commit.isNone then s.fbCommit p k verdict else s

/-- A part start (R432): a slot and a merge entry, or none with all 64 slots open (R596). A part that starts while its encoder
fault stands is affected from the start (R437). -/
def State.openPart (s : State) (p part : Nat) (start : Int) : State :=
  if !s.ejtLive p ∨ !(s.ejtU p).mayOpen then s
  else match s.freeSlot p with
    | none => (((s.inc (bEJT p) EJT_CNT_NOSLOT).raise 0x0606 (bEJT p) p part)).stageFault 6 p 4
    | some k =>
      let s := s.setSlot p k (some (s.newSlot p part start (start + s.act (bEJT p) EJT_TARGET) false))
      let s := s.inc (bEJT p) EJT_CNT_OPENED
      let s := s.setMerge p k (some { part := part, declared := s.declaredMask p part, ctx := s.rd64 bSCH SCH_ACT_LO SCH_ACT_HI })
      if (Store.get {} s.hlt.tables s.hlt.fbGen).noneFor p then s.fbReady p part 0 else s

end Sys2Proof.Machine
end

