-- ==== Sys2Proof/Machine/Fallback.lean ====
section
/-!
DEFINITION. The fallback inspector: its table, its picture of a part, windows and zones (R491-R494).
-/

namespace Sys2Proof.Machine

/-- Whether `n` bytes at an offset are all 0. -/
def zeroAt (b : List Nat) (o n : Nat) : Bool := ((b.drop o).take n).all (· == 0)

/-- One window of 32 bytes, with its template from the template area; none when a limit is broken. -/
def parseWin (b tpl : List Nat) : Option FbWin :=
  let w := leAt b 8 2
  let h := leAt b 10 2
  let off := leAt b 16 4
  if leAt b 0 1 ≤ 8 ∧ leAt b 1 1 ≤ 1 ∧ leAt b 2 1 ≤ 4 ∧ leAt b 3 1 = 0 ∧ 8 ≤ w ∧ w ≤ 32 ∧ 8 ≤ h ∧ h ≤ 32 ∧
      leAt b 14 2 = 0 ∧ zeroAt b 20 12 ∧ off + w * h ≤ tpl.length then
    some { cam := leAt b 0 1, stp := leAt b 1 1, r := leAt b 2 1, x0 := leAt b 4 2, y0 := leAt b 6 2, w := w, h := h,
           theta := leAt b 12 2, tpl := (tpl.drop off).take (w * h) }
  else none

/-- One zone of 16 bytes; none when a limit is broken. -/
def parseZone (b : List Nat) : Option FbZone :=
  if leAt b 0 1 ≤ 8 ∧ leAt b 1 1 ≤ 1 ∧ 1 ≤ leAt b 6 2 ∧ 1 ≤ leAt b 8 2 then
    some { cam := leAt b 0 1, stp := leAt b 1 1, x0 := leAt b 2 2, y0 := leAt b 4 2, w := leAt b 6 2, h := leAt b 8 2,
           lo := (b.drop 10).take 3, hi := (b.drop 13).take 3 }
  else none

/-- All of a list's values, or none. -/
def allSome : List (Option α) → Option (List α)
  | [] => some []
  | none :: _ => none
  | some x :: r => (allSome r).map (x :: ·)

/-- The fallback table in a list of bytes, or none when its length, CRC-32, reserved fields or limits are broken (R494). -/
def parseFbTable (b : List Nat) : Option FbTable :=
  let nw := leAt b 6 1
  let nz := leAt b 7 1
  let tl := leAt b 8 4
  let body := 64 + 32 * nw + 16 * nz + tl
  if b.length = body + 4 ∧ leAt b 0 4 = 0x42465247 ∧ leAt b 4 2 = 1 ∧ nw ≤ 32 ∧ nz ≤ 32 ∧ zeroAt b 12 52 ∧
      crc32 (b.take body) = leAt b body 4 then
    let tpl := (b.drop (64 + 32 * nw + 16 * nz)).take tl
    match allSome ((List.range nw).map (fun k => parseWin ((b.drop (64 + 32 * k)).take 32) tpl)),
      allSome ((List.range nz).map (fun k => parseZone ((b.drop (64 + 32 * nw + 16 * k)).take 16))) with
    | some ws, some zs => some { wins := ws, zones := zs }
    | _, _ => none
  else none

/-! ### The picture of a part (R491) -/

/-- The down-sampled samples of one channel from four lines: means over 4 × 4 samples. -/
def down4 (cols : Nat) (ls : List (List Nat)) : List Nat :=
  (List.range cols).map (fun x => divRne ((ls.map (fun l => ((l.drop (4 * x)).take 4).foldl (· + ·) 0)).foldl (· + ·) 0) 16)

/-- The row that four lines complete: each line with its damage and its channels R, G, B. -/
def fbRowOf (cols : Nat) (ls : List (Bool × List (List Nat))) : FbRow :=
  let ch (k : Nat) := down4 cols (ls.map (fun l => nth [] l.2 k))
  let r := ch 0
  let g := ch 1
  let b := ch 2
  { damaged := ls.any (·.1), r := r, g := g, b := b,
    lum := (List.range cols).map (fun x => divRne (nth 0 r x + 2 * nth 0 g x + nth 0 b x) 4) }

/-- Add a line to a picture; every fourth line completes a row, up to the part's area. -/
def FbImage.addLine (m : FbImage) (l : Bool × List (List Nat)) : FbImage :=
  let w := m.wait ++ [l]
  if w.length < 4 then { m with wait := w }
  else if m.rows.length < m.nrows then { m with wait := [], rows := m.rows ++ [fbRowOf m.cols w] }
  else { m with wait := [] }

/-- Whether every row of the part's area has arrived. -/
def FbImage.full (m : FbImage) : Bool := decide (m.nrows ≤ m.rows.length)

/-! ### Windows and zones -/

/-- The sums of two lists of samples: n, Σa, Σt, Σa², Σt², Σat. -/
def corrSums (a t : List Nat) : Nat × Nat × Nat × Nat × Nat × Nat :=
  (a.zip t).foldl (fun q x =>
    (q.1 + 1, q.2.1 + x.1, q.2.2.1 + x.2, q.2.2.2.1 + x.1 * x.1, q.2.2.2.2.1 + x.2 * x.2, q.2.2.2.2.2 + x.1 * x.2))
    (0, 0, 0, 0, 0, 0)

/-- Whether an offset passes (R492). -/
def corrPass (theta : Nat) (a t : List Nat) : Bool :=
  let q := corrSums a t
  let n : Int := q.1
  let sa : Int := n * q.2.2.2.1 - (q.2.1 : Int) * q.2.1
  let st : Int := n * q.2.2.2.2.1 - (q.2.2.1 : Int) * q.2.2.1
  let c : Int := n * q.2.2.2.2.2 - (q.2.1 : Int) * q.2.2.1
  if sa = 0 ∨ st = 0 then decide (sa = 0 ∧ st = 0)
  else decide (0 < c) && decide ((theta : Int) * theta * sa * st ≤ c * c * 2 ^ 30)

/-- The samples of a rectangle of a picture, row by row. -/
def FbImage.rect (m : FbImage) (f : FbRow → List Nat) (x y w h : Nat) : List Nat :=
  ((m.rows.drop y).take h).flatMap (fun r => ((f r).drop x).take w)

/-- The offsets of a window that stay inside the part's area, as the placed corner. -/
def FbImage.corners (m : FbImage) (q : FbWin) : List (Nat × Nat) :=
  ((List.range (2 * q.r + 1)).flatMap (fun dy => (List.range (2 * q.r + 1)).map (fun dx => (q.x0 + dx, q.y0 + dy)))).filterMap
    (fun c => if q.r ≤ c.1 ∧ q.r ≤ c.2 ∧ c.1 - q.r + q.w ≤ m.cols ∧ c.2 - q.r + q.h ≤ m.nrows then
      some (c.1 - q.r, c.2 - q.r) else none)

/-- Whether a band of rows holds a damaged row. -/
def FbImage.damagedIn (m : FbImage) (y h : Nat) : Bool := ((m.rows.drop y).take h).any (·.damaged)

/-- The result of a window (R492): 0 GOOD, 1 REJECT, 3 DOUBT. -/
def FbImage.window (m : FbImage) (q : FbWin) : Nat :=
  let cs := m.corners q
  if cs.isEmpty || cs.any (fun c => m.damagedIn c.2 q.h) then 3
  else if cs.any (fun c => corrPass q.theta (m.rect (·.lum) c.1 c.2 q.w q.h) q.tpl) then 0
  else 1

/-- The mean of a channel over a rectangle, rounded to nearest, ties to even. -/
def FbImage.mean (m : FbImage) (f : FbRow → List Nat) (q : FbZone) : Nat :=
  divRne ((m.rect f q.x0 q.y0 q.w q.h).foldl (· + ·) 0) (q.w * q.h)

/-- The result of a zone (R493). -/
def FbImage.zone (m : FbImage) (q : FbZone) : Nat :=
  if q.x0 + q.w ≤ m.cols ∧ q.y0 + q.h ≤ m.nrows ∧ !m.damagedIn q.y0 q.h then
    let ok (k : Nat) (f : FbRow → List Nat) : Bool :=
      decide (nth 0 q.lo k ≤ m.mean f q) && decide (m.mean f q ≤ nth 0 q.hi k)
    if ok 0 (·.r) && ok 1 (·.g) && ok 2 (·.b) then 0 else 1
  else 3

/-- The picture of a part from camera port `cam`. -/
def State.fbImage (s : State) (p part cam : Nat) : Option FbImage :=
  s.hlt.images.find? (fun m => m.stp == p && m.part == part && m.port == cam)

/-- The camera ports that a part's windows and zones look at. -/
def FbTable.camsFor (t : FbTable) (p : Nat) : List Nat :=
  (t.wins.filter (·.stp == p)).map (·.cam) ++ (t.zones.filter (·.stp == p)).map (·.cam)

/-- The fallback result of a part, once every picture its table needs is complete: the highest of its windows and zones
under R21, or GOOD with none (R493). -/
def State.fbJudge (s : State) (t : FbTable) (p part : Nat) : Option Nat :=
  let ok (c : Nat) : Bool := match s.fbImage p part c with
    | some m => m.full
    | none => false
  if (t.camsFor p).all ok then
    let im (c : Nat) : FbImage := (s.fbImage p part c).getD {}
    let vs := (t.wins.filter (·.stp == p)).map (fun q => (im q.cam).window q) ++
      (t.zones.filter (·.stp == p)).map (fun q => (im q.cam).zone q)
    some (verdictOfRank ((vs.map (fun v => rankOf v 0)).foldl min 4))
  else none

/-- Take a line of camera port `cam` into the picture of a part (R491); `cols` and `nrows` are the part's area. Pictures of
parts that have ended are dropped when a part begins. -/
def State.fbLine (s : State) (cam p part cols nrows : Nat) (l : Bool × List (List Nat)) : State :=
  match s.fbImage p part cam with
  | some m =>
    s.setHlt { s.hlt with images := s.hlt.images.map (fun x =>
      if x.stp == p && x.part == part && x.port == cam then m.addLine l else x) }
  | none =>
    let keep := s.hlt.images.filter (fun x => (s.slotOfPart x.stp x.part).isSome)
    s.setHlt { s.hlt with images := keep ++
      [FbImage.addLine { port := cam, stp := p, part := part, cols := cols, nrows := nrows } l] }

end Sys2Proof.Machine
end

