-- ==== Sys2Proof/Machine/RegMap.lean ====
section
/-!
DEFINITION. The fields at an address of the register space, whole register words, and the writing of fields under R10 and
R591.
-/

namespace Sys2Proof.Machine

/-- Whether block index `b` exists (R589). -/
def blkExists (b : Nat) : Bool :=
  decide (b ≤ 6) || (decide (8 ≤ b) && decide (b ≤ 0xC)) || (decide (0x10 ≤ b) && decide (b ≤ 0x15)) ||
  (decide (0x18 ≤ b) && decide (b ≤ 0x27)) || (decide (0x40 ≤ b) && decide (b ≤ 0x61)) ||
  (decide (0x80 ≤ b) && decide (b ≤ 0x9F)) || (decide (0xC0 ≤ b) && decide (b ≤ 0xF3))

/-- The fields of a block's own registers at an offset. -/
def ownFields (b off : Nat) : List Fld :=
  if b = bPWR then fields_pwr off else if b = bRST then fields_rst off else if b = bCLK then fields_clk off
  else if b = bTIM then fields_tim off else if b = bCAP then fields_cap off else if b = bHLT then fields_hlt off
  else if b = bEVQ then fields_evq off
  else if 8 ≤ b ∧ b ≤ 0xB then fields_mem off
  else if b = bMEM4 then fields_mem4 off
  else if b = bSCH then fields_sch off else if b = bKVC then fields_kvc off else if b = bLNK then fields_lnk off
  else if b = bPCIE then fields_pcie off
  else if b = 0x14 ∨ b = 0x15 then fields_eth off
  else if b = bTAN then fields_tan off else if b = bCLM then fields_clm off
  else if b = bPCAM then
    (if off = 0x100 ∨ (0x21C ≤ off ∧ off < 0x22C) then [] else fields_cam off) ++ fields_pcam off
  else if b = bFIO then fields_fio off
  else if b = 0x1C ∨ b = 0x1D then fields_stp off
  else if b = 0x1E ∨ b = 0x1F then fields_ejt off
  else if 0x20 ≤ b ∧ b ≤ 0x27 then fields_cam off
  else if 0x40 ≤ b ∧ b ≤ 0x61 then fields_clu off
  else if 0x80 ≤ b ∧ b ≤ 0x9F then fields_dma off
  else if 0xC0 ≤ b ∧ b ≤ 0xF3 then fields_sds off
  else []

/-- The fields at an offset of a block, the common registers included (R12). -/
def fieldsAt (b off : Nat) : List Fld := fields_com off ++ ownFields b off

/-- The word software reads from the fields at an offset; write-only and write-1-to-set requests that are not pending read as
stored. -/
def State.regWord (s : State) (b off : Nat) : Nat :=
  (fieldsAt b off).foldl (fun n f => n + (if f.acc = .wo then 0 else s.rd b f * 2 ^ f.lo)) 0

/-- Whether a field accepts a value (R591). -/
def Fld.accepts (f : Fld) (v : Nat) : Bool :=
  match f.lim with
  | .any => true
  | .range lo hi => decide (lo ≤ v) && decide (v ≤ hi)
  | .step lo hi m => decide (lo ≤ v) && decide (v ≤ hi) && v % m == 0
  | .only vs => vs.contains v

/-- Write one field from a written word (R10, R591).  A shadowed field takes effect at the next job epoch (R20, R395); the generators' take
effect at once while no job runs (R467). -/
def State.writeField (s : State) (job : Bool) (b v : Nat) (f : Fld) : State :=
  let x := bits v f.lo f.w
  match f.acc with
  | .rw =>
    if f.accepts x then
      (if f.sh && b == bTIM && !job then (s.wr b f x).wrAct b f x else s.wr b f x)
    else s
  | .w1c =>
    if 0x40 ≤ b ∧ b < 0x62 ∧ f.off = 0x100 then s.setCnt b f (s.cnt b f - (s.cnt b f).land x)
    else s.wr b f (s.rd b f - (s.rd b f).land x)
  | .w1s => if x = 0 then s else s.wr b f ((s.rd b f).lor x)
  | _ => s

/-- Write the fields at an offset, all but those `skip` names. -/
def State.writeFields (s : State) (job : Bool) (b off v : Nat) (skip : Fld → Bool := fun _ => false) : State :=
  (fieldsAt b off).foldl (fun s f => if skip f then s else s.writeField job b v f) s

/-- Put every field at an offset to a word, whatever its access type, a shadowed field into effect as well; `ENABLE` is left
alone. -/
def State.forceWord (s : State) (b off v : Nat) : State :=
  (ownFields b off).foldl (fun s f =>
    let x := bits v f.lo f.w
    if f.sh then (s.wr b f x).wrAct b f x else s.wr b f x) s

end Sys2Proof.Machine
end

