-- ==== Sys2Proof/Machine/PowerCore.lean ====
section
/-!
DEFINITION. Power domains and retention (R503-R509, R590), and the wake from sleep (R513, R514, R516).
-/

namespace Sys2Proof.Machine

/-- The power domain of a block (R503). -/
def domOf (b : Nat) : Nat :=
  if b = bHLT then 1
  else if 0x40 ≤ b ∧ b ≤ 0x61 then b - 0x40 + 2
  else if 8 ≤ b ∧ b ≤ 0xB then b - 8 + 36
  else if 0x20 ≤ b ∧ b ≤ 0x27 then b - 0x20 + 40
  else if b = bTAN ∨ b = bCLM ∨ b = bPCAM then 48
  else if b = bSCH ∨ b = bKVC then 49
  else if b = bMEM4 then 50
  else if b = bEVQ ∨ (0x80 ≤ b ∧ b ≤ 0x9F) then 55
  else if 0x1B ≤ b ∧ b ≤ 0x1F then 56
  else if b = bLNK then 57
  else if b = 0x14 ∨ b = 0x15 then 58
  else if b = bPCIE then 59
  else if 0xC0 ≤ b ∧ b < 0xE0 then (b - 0xC0) / 4 + 40
  else if 0xE0 ≤ b ∧ b < 0xE8 then 57
  else if 0xE8 ≤ b ∧ b < 0xEC then 58
  else if 0xEC ≤ b ∧ b ≤ 0xF3 then 59
  else 0

/-- The blocks of a power domain. -/
def blocksOf (n : Nat) : List Nat := (List.range 0xF4).filter (fun b => blkExists b && domOf b == n)

/-- Whether a domain is switched with its functions (R503). -/
def switchedDom (n : Nat) : Bool := (decide (2 ≤ n) && decide (n ≤ 49)) || (decide (56 ≤ n) && decide (n ≤ 59))

/-- The state of a domain. -/
def State.pstate (s : State) (n : Nat) : Nat := s.rd bPWR (PWR_PD_STAT_PSTATE n)

/-- Set the state of a domain. -/
def State.setPstate (s : State) (n v : Nat) : State := s.wr bPWR (PWR_PD_STAT_PSTATE n) v

/-- Whether a block's domain has power. -/
def State.domOn (s : State) (b : Nat) : Bool := s.pstate (domOf b) == 2

/-- Offsets `base`, `base + step`, … of `n` registers. -/
def offs (base step n : Nat) : List Nat := (List.range n).map (fun k => base + step * k)

/-- The retention list of a block as register offsets in the order of R509. -/
def retList (b : Nat) : List Nat :=
  if 0x40 ≤ b ∧ b ≤ 0x61 then [4]
  else if 8 ≤ b ∧ b ≤ 0xB then [4, 0x100, 0x104]
  else if b = bMEM4 then [0x100, 0x104] ++ offs 0x200 8 8 ++ offs 0x204 8 8
  else if b = bSCH then
    offs 0x1008 0x20 64 ++ offs 0x1000 0x20 64 ++ offs 0x1004 0x20 64 ++
    offs 0x1808 0x20 16 ++ offs 0x1800 0x20 16 ++ offs 0x1804 0x20 16 ++ offs 0x1810 0x20 16 ++
    [0x100, 0x104, 0x110, 0x114, 0x120, 0x124] ++ offs 0x3000 8 64 ++ offs 0x200 4 64 ++
    offs 0x4000 4 512 ++ offs 0x4800 4 512 ++ [0x130, 0x134]
  else if b = bKVC then offs 0x108 0x20 4 ++ offs 0x100 0x20 4 ++ offs 0x104 0x20 4 ++ offs 0x10C 0x20 4 ++ [0x208, 0x200, 0x204]
  else if (0x20 ≤ b ∧ b ≤ 0x27) ∨ b = bPCAM then
    [4, 0x100, 0x104, 0x108, 0x10C, 0x110, 0x114, 0x118, 0x11C, 0x120]
  else if b = bTAN then
    offs 0x100 4 9 ++ offs 0x140 8 9 ++ offs 0x144 8 9 ++
    [0x200, 0x204, 0x208, 0x300, 0x304, 0x308, 0x320, 0x324, 0x328, 0x400] ++ offs 0x500 8 16 ++ offs 0x504 8 16 ++
    [0x600, 0x604, 0x608]
  else if b = bCLM then [0x100, 0x104, 0x108] ++ (offs 0x200 0x40 9).flatMap (fun o => offs o 4 12)
  else if b = 0x1C ∨ b = 0x1D then [0x100, 0x104, 0x108, 0x10C]
  else if b = 0x1E ∨ b = 0x1F then
    offs 0x100 4 8 ++ (offs 0x140 0x10 3).flatMap (fun o => offs o 4 3) ++ [0x1A0, 0x1A4, 0x1A8]
  else if b = bFIO then [0x108, 0x10C] ++ offs 0x140 4 8 ++ offs 0x180 4 2 ++ offs 0x200 8 4 ++ offs 0x204 8 4
  else if b = bLNK then [0x100, 0x124, 0x130, 0x134, 0x148] ++ offs 0x180 4 8
  else if b = bHLT then offs 0x200 4 28 ++ [0x280, 0x284]
  else []

/-- Where the saved copy of a block lies in the retention SRAM (R590). -/
def retAddr (b : Nat) : Nat :=
  retBase +
  (if 0x40 ≤ b ∧ b ≤ 0x61 then 0x100 + 4 * (b - 0x40)
  else if 8 ≤ b ∧ b ≤ 0xB then 0x200 + 12 * (b - 8)
  else if b = bMEM4 then 0x400
  else if b = bKVC then 0x500
  else if 0x20 ≤ b ∧ b ≤ 0x27 then 0x600 + 40 * (b - 0x20)
  else if b = bPCAM then 0x600 + 320
  else if b = bTAN then 0x800
  else if b = bCLM then 0xA00
  else if b = 0x1C ∨ b = 0x1D then 0xC00 + 16 * (b - 0x1C)
  else if b = 0x1E ∨ b = 0x1F then 0xD00 + 80 * (b - 0x1E)
  else if b = bFIO then 0xE00
  else if b = bLNK then 0xF00
  else if b = bHLT then 0x1000
  else if b = bSCH then 0x2000
  else 0xBFF8)

/-- The active copies of an ejection unit's registers, as a word (R509). -/
def State.actWord (s : State) (b off : Nat) : Nat :=
  (fieldsAt b off).foldl (fun n f => n + (if f.sh then s.act b f else s.rd b f) * 2 ^ f.lo) 0

/-- Save the retention-list registers of a block (R506). -/
def State.saveBlk (s : State) (b : Nat) : State :=
  if (retList b).isEmpty then s
  else
    let ej := b == 0x1E || b == 0x1F
    let s1 := s.write (retAddr b)
      ((retList b).flatMap (fun o => leBytes 4 (if ej then s.actWord b o else s.regWord b o)))
    { s1 with pwr := { s1.pwr with saved := Store.put false s1.pwr.saved b true } }

/-- Registers of the clock block that belong to a cluster's domain are saved with it (R509, R590). -/
def State.saveClk (s : State) (n : Nat) : State :=
  s.write (retBase + 4 * n) (leBytes 4 (s.regWord bCLK (0x200 + 4 * n)))

/-- Whether a saved copy holds a double-bit error or poison. -/
def State.copyBad (s : State) (a n : Nat) : Bool := s.poisoned a n

/-- Bring a block's registers to what losing power leaves: reset values, the common registers kept but for the snapshot
count (R13, R507). -/
def State.powerClear (s : State) (b : Nat) : State :=
  let kept (e : Nat × BitVec 32) : Bool := !ofBlk b e.1 || decide (e.1 % 33554432 / 32 < 0x14)
  { s with regs := s.regs.filter kept, active := s.active.filter kept, live := s.live.filter (fun e => !ofBlk b e.1) }.wr b
    COM_STATE_SNAP_SEQ 0

/-- Restore the retention-list registers of a block from its saved copy (R506). -/
def State.restoreRegs (s : State) (b : Nat) : State :=
  let a := retAddr b
  (List.range (retList b).length).foldl (fun t k => t.forceWord b (nth 0 (retList b) k) (s.readLE (a + 4 * k) 4)) s

/-! ### Wake -/

/-- The deepest part of an exit: its step times in ns (R516). -/
def exitTime (src step : Nat) : Nat :=
  if src = 2 then nth 0 [0, 100000, 50000, 50000, 100000] step
  else if src = 3 then nth 0 [0, 1000000, 1000000, 1000000, 2000000] step
  else nth 0 [0, 5000000, 5000000, 2000000, 28000000] step

/-- Whether the running job uses a Stirrup port: the port opens parts or drives a camera. -/
def State.jobUsesPort (s : State) (p : Nat) : Bool :=
  s.jobRun && (s.act (bEJT p) EJT_PARTCFG_PS_SRC != 0 ||
    (List.range 9).any (fun n => s.act (bCAM n) CAM_TRIG_SRC == p + 1))

/-- Whether a wake source acts in sleep state `st` (R514): sources 0 to 4 as in `PWR_WAKE_EN`, 5 command readiness, 6 access,
7 the release of PCIE_PERST_N (a host source). -/
def State.wakeAllowed (s : State) (src st : Nat) : Bool :=
  if src = 0 then (s.rd bPWR PWR_WAKE_EN_ENC0 == 1 || s.jobUsesPort 0) && decide (1 ≤ st)
  else if src = 1 then (s.rd bPWR PWR_WAKE_EN_ENC1 == 1 || s.jobUsesPort 1) && decide (1 ≤ st)
  else if src = 2 then s.rd bPWR PWR_WAKE_EN_DI == 1 && decide (1 ≤ st)
  else if src = 3 then s.rd bPWR PWR_WAKE_EN_ETH == 1 && decide (1 ≤ st) && decide (st ≤ 3)
  else if src = 4 then s.rd bPWR PWR_WAKE_EN_HOST == 1 && decide (1 ≤ st) && decide (st ≤ 2)
  else if src = 7 then s.rd bPWR PWR_WAKE_EN_HOST == 1 && decide (3 ≤ st)
  else decide (1 ≤ st) && (decide (st ≤ 2) || (src == 6 && decide (st ≤ 3)))

/-- Latch a wake cause. -/
def State.latchWake (s : State) (src : Nat) : State :=
  if src = 5 then s.wr bPWR PWR_WAKE_CAUSE_READY 1
  else if src = 6 then s.wr bPWR PWR_WAKE_CAUSE_ACCESS 1
  else s.wr bPWR PWR_WAKE_CAUSE_SRC ((s.rd bPWR PWR_WAKE_CAUSE_SRC).lor (2 ^ (if src = 7 then 4 else src)))

/-- Replace the power controller's inside. -/
def State.setPwr (s : State) (x : Power) : State := { s with pwr := x }

/-- A wake event (R513, R514): an entry under way is abandoned; S1 is left at once; a deeper state starts its exit. -/
def State.wake (s : State) (src : Nat) : State :=
  match s.pwr.entry with
  | some tgt =>
    if s.wakeAllowed src tgt then
      let s := (s.setPwr { s.pwr with entry := none }).latchWake src
      ((s.wr bPWR PWR_STAT_ABANDONED 1).inc bPWR PWR_CNT_ABANDON).raise 0x0902 bPWR
        (s.rd bPWR PWR_WAKE_CAUSE_ACCESS * 64 + s.rd bPWR PWR_WAKE_CAUSE_READY * 32 + s.rd bPWR PWR_WAKE_CAUSE_SRC)
    else s
  | none =>
    let st := s.rd bPWR PWR_STAT_STATE
    if st = 0 ∨ s.pwr.exit.isSome ∨ !s.wakeAllowed src st then s
    else
      let s := s.latchWake src
      if st = 1 then s.wr bPWR PWR_STAT_STATE 0
      else (s.setPwr { s.pwr with exit := some { src := st, step := 1, since := s.now } }).wr bPWR PWR_STAT_STEP 1

end Sys2Proof.Machine
end

