-- ==== Sys2Proof/Machine/Stirrup.lean ====
section
/-!
DEFINITION. The Stirrup ports and probes: encoder edges, faults, the index, SSI reads, standstill, probe records (R414-R430,
R437, R594).
-/

namespace Sys2Proof.Machine

/-! ### Shared operations -/

/-- The port enters ON (R594): speed 0 with `STANDSTILL`, direction forward, no edge yet. -/
def State.stpEnterOn (s : State) (p : Nat) : State :=
  let x := s.stpP p
  let s := s.setStp p { x with
    lastEdge := none, run := [], vNum := 0, vDen := 1, back := false, sameRun := 0,
    illegal := [], ssiPrev := none, ssiStart := none, ssiPeriod := s.now, baseAt := s.now }
  (((s.wr (bSTP p) STP_STAT_STANDSTILL 1).wr (bSTP p) STP_STAT_DIR 0).wr (bSTP p) STP_STAT_DIR_PENDING 0).wr (bSTP p)
    STP_STAT_SPEED_PENDING 0

/-- Every open slot of port `p` is affected by the encoder fault (R437). -/
def State.markAffected (s : State) (p : Nat) : State :=
  (s.openSlots p).foldl (fun s e => s.setSlot p e.1 (some { e.2 with encAffected := true })) s

/-- An encoder fault (R417): a new episode raises the event and the stage 7 report; within one it only lasts longer. -/
def State.encFault (s : State) (p : Nat) : State :=
  let s := s.setStp p { s.stpP p with lastBad := s.now }
  if s.rd (bSTP p) STP_STAT_FAULT_NOW = 1 then s
  else
    let s := (s.wr (bSTP p) STP_STAT_ENC_FAULT 1).wr (bSTP p) STP_STAT_FAULT_NOW 1
    let s := (s.inc (bSTP p) STP_CNT_ENC_FAULT).raise 0x0601 (bSTP p) p
    (s.markAffected p).stage7 p (4 * p + 1)

/-- An illegal event (R416, R417): the position is uncertain; more than 4 within one millisecond are an encoder fault. -/
def State.illegalEvent (s : State) (p : Nat) : State :=
  let x := s.stpP p
  let l := s.now :: x.illegal.filter (fun y => s.now < y + 1000000)
  let s := s.setStp p { x with illegal := l, lastIllegal := s.now, lastBad := s.now }
  let s := s.wr (bSTP p) STP_STAT_UNCERTAIN 1
  if 4 < l.length then s.encFault p else s

/-- The edges that count for the speed (R423): those of the run within `SPEED_WIN`, and at least the two newest. -/
def trimRun (now win : Nat) : List (Nat × Int) → List (Nat × Int)
  | a :: b :: r => a :: b :: r.filter (fun e => decide (now ≤ e.1 + win))
  | l => l

/-- The speed of R423 from a run, newest edge first: the oldest edge within the window, else the last two. -/
def runSpeed (now win : Nat) (l : List (Nat × Int)) : Int × Nat :=
  match l with
  | a :: b :: r =>
    let o := ((b :: r).filter (fun e => decide (now ≤ e.1 + win))).getLast?.getD b
    (a.2 - o.2, max 1 (a.1 - o.1))
  | _ => (0, 1)

/-- A change of direction of the reported `DIR` counts as a reversal (R426, R427). -/
def State.takeDir (s : State) (p : Nat) (back : Bool) : State :=
  let d := if back then 1 else 0
  if s.rd (bSTP p) STP_STAT_DIR = d then s
  else (s.wr (bSTP p) STP_STAT_DIR d).inc (bSTP p) STP_CNT_REVERSAL

/-- What an edge of `delta` counts at time `te` does to a port (R423-R427, R594). -/
def State.takeEdge (s : State) (p : Nat) (te : Nat) (delta : Int) : State :=
  let b := bSTP p
  let x := s.stpP p
  let back := decide (delta < 0)
  let win := s.rd b STP_TIMING_SPEED_WIN * 1000
  let total := x.total + delta
  let x1 := { x with count := x.count + delta, total := total, baseAt := te, lastEdge := some te, back := back }
  let first := x.lastEdge.isNone
  let still := s.rd b STP_STAT_STANDSTILL == 1
  let differs := !first && x.back != back
  let s := if still then (s.wr b STP_STAT_STANDSTILL 0).wr b STP_STAT_SPEED_PENDING 1 else s
  if first then
    (s.wr b STP_STAT_DIR (if back then 1 else 0)).setStp p { x1 with run := [(te, total)], sameRun := 1 }
  else if differs then
    let s := s.wr b STP_STAT_DIR_PENDING 1
    if s.rd b STP_MODE_COMPAT = 1 then (s.takeDir p back).setStp p { x1 with run := [], sameRun := 1, vNum := 0 }
    else s.setStp p { x1 with run := [(te, total)], sameRun := 1, vNum := 0 }
  else
    let run := trimRun te win ((te, total) :: (if still then [] else x.run))
    let v := runSpeed te win run
    let s := s.setStp p { x1 with run := run, sameRun := x.sameRun + 1, vNum := v.1, vDen := v.2 }
    let s := if still then s else s.wr b STP_STAT_SPEED_PENDING 0
    if s.rd b STP_MODE_COMPAT = 1 then
      (if 2 ≤ x.sameRun then s.wr b STP_STAT_DIR_PENDING 0 else s).takeDir p back
    else
      (s.wr b STP_STAT_DIR_PENDING 0).takeDir p back

/-- An edge of `delta` counts at time `te`: the positions before and after it may reach deadlines (R350). -/
def State.motion (s : State) (p : Nat) (te : Nat) (delta : Int) : State := ((s.noteReached p).takeEdge p te delta).noteReached p

/-- The count a quadrature transition makes (R415): 0 for one the decoding does not count. -/
def quadDelta (decode : Nat) (invert a0 b0 a1 b1 : Bool) : Int :=
  let aCh := a0 != a1
  let bCh := b0 != b1
  if (aCh && bCh) || (!aCh && !bCh) then 0
  else
    let fwd := if aCh then a1 != b1 else a1 == b1
    let counts := if decode = 0 then true else if decode = 1 then aCh else aCh && a1
    if counts then (if fwd != invert then 1 else -1) else 0

/-- Gray code to binary over `w` bits. -/
def grayToBin : Nat → Nat → Nat
  | 0, g => g
  | w + 1, g => g.xor (grayToBin w (g / 2))

/-- A failed SSI read (R421): discarded, counted, an illegal event. -/
def State.ssiFail (s : State) (p : Nat) (jump : Bool) : State :=
  (s.inc (bSTP p) (if jump then STP_CNT_SSI_JUMP else STP_CNT_SSI_FRAME)).illegalEvent p

/-! ### The commands -/

/-- Whether a change on a line of port `p` has held for `FILT` + 1 samples of 5 ns, when it was seen in `held` consecutive ones (R414). -/
def State.stpPasses (s : State) (p held : Nat) : Bool := decide (s.rd (bSTP p) STP_MODE_FILT + 1 ≤ held)

/-- A quadrature transition to the levels `a` and `b`, first sampled at `t` and seen in `held` consecutive samples (R414-R416): one that
the filter of a counting port does not pass changes no level there.  A port that is not counting only follows the levels, and every
transition wakes the module (R514). -/
def doEncoderEdge (t p : Nat) (a b : Bool) (held : Nat) (s : State) : State :=
  let s := s.at t
  let x := s.stpP p
  let counting := s.isOn (bSTP p) && s.rd (bSTP p) STP_MODE_MODE == 0
  let s1 := if counting && !s.stpPasses p held then s else s.setStp p { x with a := a, b := b }
  let ssi := if s.domOn (bSTP p) then s.rd (bSTP p) STP_MODE_MODE else bit s.pwr.ssi p
  let s1 := if ssi = 0 ∧ (x.a ≠ a ∨ x.b ≠ b) then s1.wake p else s1
  if !counting || !s.stpPasses p held then s1
  else if x.a ≠ a ∧ x.b ≠ b then (s1.inc (bSTP p) STP_CNT_QUAD_ILLEGAL).illegalEvent p
  else
    let d := quadDelta (s.rd (bSTP p) STP_MODE_DECODE) (s.rd (bSTP p) STP_MODE_INVERT == 1) x.a x.b a b
    if d = 0 then s1 else s1.motion p s1.now d

/-- UNCERTAIN_EXPIRY: one millisecond since the last illegal event (R416). -/
def execUncertainExpiry (t p : Nat) (s : State) : Host.Outcome State Fault Refusal :=
  let s := s.at t
  .next (if (s.stpP p).lastIllegal + 1000000 ≤ s.now then s.wr (bSTP p) STP_STAT_UNCERTAIN 0 else s)

/-- FAULT_NOW_EXPIRY: one millisecond with no illegal event and no wire break ends the episode (R417). -/
def execFaultNowExpiry (t p : Nat) (s : State) : Host.Outcome State Fault Refusal :=
  let s := s.at t
  .next (if (s.stpP p).lastBad + 1000000 ≤ s.now ∧ s.rd (bSTP p) STP_STAT_WIRE = 0 then
    s.wr (bSTP p) STP_STAT_FAULT_NOW 0 else s)

/-- Whether a pair (0 A, 1 B, 2 Z) is in use (R418). -/
def State.pairInUse (s : State) (p pair : Nat) : Bool :=
  if s.rd (bSTP p) STP_MODE_MODE = 1 then pair == 1
  else pair == 0 || pair == 1 || (pair == 2 && s.rd (bSTP p) STP_MODE_Z_MODE != 0)

/-- WIRE_BREAK: a pair in use has stayed below 200 mV for more than 2 µs (R418). -/
def execWireBreak (t p pair : Nat) (s : State) : Host.Outcome State Fault Refusal :=
  let s := s.at t
  .next (if s.isOn (bSTP p) && s.pairInUse p pair && bit (s.rd (bSTP p) STP_STAT_WIRE) pair == 0 then
    ((s.wr (bSTP p) STP_STAT_WIRE (s.rd (bSTP p) STP_STAT_WIRE + 2 ^ pair)).inc (bSTP p) STP_CNT_WIRE).encFault p
  else s)

/-- WIRE_BREAK_END: the pair's voltage is back; the quiet period of R417 begins. -/
def execWireBreakEnd (t p pair : Nat) (s : State) : Host.Outcome State Fault Refusal :=
  let s := s.at t
  .next (if bit (s.rd (bSTP p) STP_STAT_WIRE) pair = 1 then
    (s.wr (bSTP p) STP_STAT_WIRE (s.rd (bSTP p) STP_STAT_WIRE - 2 ^ pair)).setStp p { s.stpP p with lastBad := s.now }
  else s)

/-- INDEX_EDGE: a rising edge of Z, first sampled at `t` and seen in `held` consecutive samples (R414, R419). -/
def execIndexEdge (t p held : Nat) (s : State) : Host.Outcome State Fault Refusal :=
  let s := s.at t
  let z := s.rd (bSTP p) STP_MODE_Z_MODE
  .next (if s.isOn (bSTP p) && s.rd (bSTP p) STP_MODE_MODE == 0 && z != 0 && s.stpPasses p held then
    let s := s.wr64 (bSTP p) STP_ZPOS_LO STP_ZPOS_HI (toCode 64 (s.portPos p))
    let s := (s.wr (bSTP p) STP_STAT_Z_SEEN 1).inc (bSTP p) STP_CNT_Z
    if z = 2 then
      (((s.noteReached p).wr (bSTP p) STP_MODE_Z_MODE 1).setStp p { s.stpP p with count := 0, baseAt := s.now }).noteReached p
    else s
  else s)

/-- The period in ns of the SSI clock of port `p` (R420, R453). -/
def State.ssiClock (s : State) (p : Nat) : Nat := nth 0 [10000, 5000, 2000, 1000, 500, 200, 100] (s.rd (bSTP p) STP_SSI_CLKSEL)

/-- How long after its start the last data sample of a read lies (R420): the clock idles high and falls at the start, so its last rising
edge comes half a period before `BITS` + 1 whole ones, and the sample `DLY` × 5 ns later. -/
def State.ssiLast (s : State) (p : Nat) : Nat :=
  (2 * s.rd (bSTP p) STP_SSI_BITS + 1) * (s.ssiClock p / 2) + 5 * s.rd (bSTP p) STP_SSI_DLY

/-- SSI_READ_START: a read begins when its period has passed and the data line has been 1 for 1 µs, and its `BITS` + 1 clock cycles leave
on the `_A` pair; one that cannot begin within twice the period fails (R420, R421). -/
def execSsiReadStart (t p : Nat) (lineOne : Bool) (s : State) : Host.Outcome State Fault Refusal :=
  let s := s.at t
  let x := s.stpP p
  let per := s.rd (bSTP p) STP_SSI_READ_US * 1000
  .next (if s.isOn (bSTP p) && s.rd (bSTP p) STP_MODE_MODE == 1 && x.ssiStart.isNone && decide (x.ssiPeriod + per ≤ s.now) then
    if lineOne then
      (s.send (.ssiBurst p (s.rd (bSTP p) STP_SSI_BITS + 1) (1000000000 / s.ssiClock p))).setStp p
        { x with ssiStart := some s.now, ssiPeriod := s.now }
    else if x.ssiPeriod + 2 * per ≤ s.now then (s.setStp p { x with ssiPeriod := s.now }).ssiFail p false
    else s
  else s)

/-- An SSI word is accepted (R422): the first sets the count, a later one moves it by the wrapped difference, which `INVERT` reverses as
its field says of the direction (entry 113). -/
def State.ssiAccept (s : State) (p te w : Nat) : State :=
  let bits := s.rd (bSTP p) STP_SSI_BITS
  let x := s.stpP p
  match x.ssiPrev with
  | none => (s.setStp p { x with ssiPrev := some w, count := w, baseAt := te }).noteReached p
  | some q =>
    let d := sext bits (w + 2 ^ bits - q)
    if s.rd (bSTP p) STP_JUMP < d.natAbs then s.ssiFail p true
    else
      let s := s.setStp p { x with ssiPrev := some w }
      if d = 0 then s else s.motion p te (if s.rd (bSTP p) STP_MODE_INVERT = 1 then -d else d)

/-- A read ends with its start bit, its word and whether the data line returned to 1 within 100 µs (R420-R422), once its last bit has been
sampled; the position's sample time is the start of the read. -/
def doSsiReadDone (t p startBit word : Nat) (idleOk : Bool) (s : State) : State :=
  let s := s.at t
  let x := s.stpP p
  match x.ssiStart with
  | none => s
  | some te =>
    let s1 := s.setStp p { x with ssiStart := none }
    if !s.isOn (bSTP p) then s1
    else if s.now < te + s.ssiLast p then s
    else if startBit ≠ 0 ∨ !idleOk then s1.ssiFail p false
    else
      let n := s.rd (bSTP p) STP_SSI_BITS
      let w := word % 2 ^ n
      s1.ssiAccept p te (if s.rd (bSTP p) STP_SSI_CODE = 1 then grayToBin n w else w)

/-- STANDSTILL: the time since the last edge has reached `STANDSTILL_MS` (R424). -/
def execStandstill (t p : Nat) (s : State) : Host.Outcome State Fault Refusal :=
  let s := s.at t
  .next (match (s.stpP p).lastEdge with
  | some e =>
    if s.isOn (bSTP p) && s.rd (bSTP p) STP_STAT_STANDSTILL == 0 &&
        decide (e + s.rd (bSTP p) STP_TIMING_STANDSTILL_MS * 1000000 ≤ s.now) then
      ((s.wr (bSTP p) STP_STAT_STANDSTILL 1).inc (bSTP p) STP_CNT_STANDSTILL).setStp p { s.stpP p with vNum := 0, run := [] }
    else s
  | none => s)

/-- STP_POS_LO_READ: the low half of the position; the high half is latched (R428). -/
def execStpPosLoRead (t i p : Nat) (s : State) : Host.Outcome State Fault Refusal :=
  let s := s.at t
  .next (if !s.regAllowed i false (bSTP p) 0x120 then s.deny i false (regBase + bSTP p * 0x100000 + 0x120)
  else if !s.domOn (bSTP p) then s.answer 0 [0]
  else
    let s := s.wr64 (bSTP p) STP_POS_LO STP_POS_HI (toCode 64 (s.portPos p))
    s.answer 0 [s.rd (bSTP p) STP_POS_LO])

/-! ### Parts and probes -/

/-- The next grid start of port `p` above the highest start taken, with its part number (R431). -/
def State.nextGrid (s : State) (p : Nat) : Option (Int × Nat) :=
  let pitch := s.act (bEJT p) EJT_PITCH
  let ref := s.actS64 (bEJT p) EJT_PARTREF_LO EJT_PARTREF_HI
  match (s.ejtU p).hiStart with
  | some hi => if pitch = 0 then none else
    let k := (hi - ref) / (pitch : Int) + 1
    some (ref + k * pitch, toCode 32 k)
  | none => none

/-- Whether port `p` takes part starts from source `src`. -/
def State.startsFrom (s : State) (p src : Nat) : Bool :=
  s.act (bEJT p) EJT_PARTCFG_PS_SRC == src && !(s.ejtU p).stopStarts && s.ejtLive p

/-- Take a part start: it becomes the highest taken, and the part opens (R431, R432, R596). -/
def State.takeStart (s : State) (p part : Nat) (start : Int) : State :=
  (s.setEjt p { s.ejtU p with hiStart := some start }).openPart p part start

/-- PART_START: the next grid start has been reached (R431). -/
def execPartStart (t p : Nat) (s : State) : Host.Outcome State Fault Refusal :=
  let s := s.at t
  .next (match s.nextGrid p with
  | some (start, part) => if s.startsFrom p 1 && decide (start ≤ s.pos p) && !s.epochBars p start then s.takeStart p part start else s
  | none => s)

/-- A probe edge starts a part on port `p` when the port takes its parts from it (R431). -/
def State.probeStart (s : State) (p k : Nat) : State :=
  if s.startsFrom p 2 && s.act (bEJT p) EJT_PARTCFG_PRB_SEL == k then
    let u := s.ejtU p
    let here := s.pos p
    let locked := match u.lastPrb with
      | some q => decide (here < q + (s.act (bEJT p) EJT_PSMIN : Nat))
      | none => false
    let above := match u.hiStart with
      | some h => decide (h < here)
      | none => true
    if locked then s.inc (bEJT p) EJT_CNT_PS_LOCKOUT
    else if above && !s.epochBars p here then
      (s.setEjt p { u with lastPrb := some here, nextPart := (u.nextPart + 1) % 4294967296 }).takeStart p u.nextPart here
    else s
  else s

/-- Whether an edge selection takes an edge: bit 0 rising, bit 1 falling. -/
def edgeTaken (sel : Nat) (rising : Bool) : Bool := bit sel (if rising then 0 else 1) == 1

/-- PROBE_EDGE: a selected edge of probe `k` writes a record, or is lost, and may start parts (R430, R431). -/
def execProbeEdge (t k : Nat) (rising : Bool) (s : State) : Host.Outcome State Fault Refusal :=
  let s := s.at t
  .next (if s.isOn bFIO && edgeTaken (s.rd bFIO (FIO_PRB_CFG_EDGE k)) rising then
    let l := Store.get [] s.field.prb k
    let r : PrbRec := { rising := rising, sec := s.tbSec % 4294967296, ns := s.tbNs, pos0 := s.portPos 0, pos1 := s.portPos 1 }
    let s := if l.length < 16 then s.setField { s.field with prb := Store.put [] s.field.prb k (l ++ [r]) }
      else s.inc bFIO (FIO_CNT_PRB_LOST k)
    (s.probeStart 0 k).probeStart 1 k
  else s)

/-- The words of the oldest record of a probe FIFO (R453). -/
def prbWords (l : List PrbRec) : List Nat :=
  match l with
  | [] => [0, 0, 0, 0, 0, 0, 0]
  | r :: _ => [(if r.rising then 2 ^ 31 else 0) + l.length, r.sec, r.ns,
      toCode 64 r.pos0 % 2 ^ 32, toCode 64 r.pos0 / 2 ^ 32, toCode 64 r.pos1 % 2 ^ 32, toCode 64 r.pos1 / 2 ^ 32]

/-- FIO_PRB_REC_READ: a read of word 6 answers it and removes the oldest record (R453). -/
def execFioPrbRecRead (t i k : Nat) (s : State) : Host.Outcome State Fault Refusal :=
  let s := s.at t
  .next (if !s.regAllowed i false bFIO (0x1D8 + 0x20 * k) then s.deny i false (regBase + bFIO * 0x100000 + 0x1D8 + 0x20 * k)
  else if !s.domOn bFIO then s.answer 0 [0]
  else
    let l := Store.get [] s.field.prb k
    (s.setField { s.field with prb := Store.put [] s.field.prb k l.tail }).answer 0 [nth 0 (prbWords l) 6])

end Sys2Proof.Machine
end

