-- ==== Sys2Proof/Machine/Ejection.lean ====
section
/-!
DEFINITION. Firing, explicit slots, digital inputs, field outputs and strobes (R434-R450, R595).
-/

namespace Sys2Proof.Machine

/-- The class a slot's commit selects: a degraded commit drives class 2 (R434, R436, R437). -/
def Slot.cls (x : Slot) : Nat :=
  match x.commit with
  | some c => if c.degraded then 2 else classOf (withEncFault x.encAffected c.verdict)
  | none => 2

/-- Whether a port's slots fire nothing: a follower or a contributor (R441). -/
def State.firesNothing (s : State) (p : Nat) : Bool := s.isFollower p || s.contributor p

/-- The inhibition of a firing (R595): the event, and the stage 6 report unless the safe reaction is the only cause. -/
def State.inhibition (s : State) (p part : Nat) (onlySafe : Bool) : State :=
  let s := (s.inc (bEJT p) EJT_CNT_INHIBITED).raise 0x0603 (bEJT p) p part
  if onlySafe then s else s.stageFault 6 p 4

/-- Slot `k` of port `p` fires (R434, R439): its class's pulses, its record, and it becomes free.  A class with mask 0, and a
port that fires nothing, leave class 0xFF in the record. -/
def State.fireSlot (s : State) (p k : Nat) (x : Slot) : State :=
  let c := x.cls
  let none_ := s.firesNothing p || s.act (bEJT p) (EJT_CLS_CFG_MASK c) == 0
  let r := if none_ then (s, false, false) else s.fireClass p c
  let s := if none_ then s else r.1.inc (bEJT p) EJT_CNT_FIRED
  let s := s.putRecord p (slotRecord s p k x (if none_ then 0xFF else c) r.2.1 true 0)
  let s := s.recordReport p k
  let s := (s.setSlot p k none).setMerge p k none
  if r.2.1 then s.inhibition p x.part r.2.2 else s

/-- SLOT_FIRE: slot `k` of port `p` is committed and the position has reached its firing position (R434). -/
def execSlotFire (t p k : Nat) (s : State) : Host.Outcome State Fault Refusal :=
  let s := s.at t
  .next (match s.slot p k with
  | none => s
  | some x =>
    if s.ejtLive p && x.commit.isSome && decide (s.firingPos p x.cls x ≤ s.pos p) then s.fireSlot p k x else s)

/-! ### Writes of software -/

/-- Report the outcome of an explicit open. -/
def State.xstatus (s : State) (p st k : Nat) : State :=
  (s.wr (bEJT p) EJT_XOPEN_XSTATUS st).wr (bEJT p) EJT_XOPEN_XSLOT k

/-- An explicit open that R438 accepts: a slot at `XTGT`, numbered by the count of explicit opens, or none while 64 are open. -/
def State.xopen (s : State) (p : Nat) : State :=
  match s.freeSlot p with
  | none => s.xstatus p 0x0102 0
  | some k =>
    let u := s.ejtU p
    let tgt := s.rdS64 (bEJT p) EJT_XTGT_LO EJT_XTGT_HI
    let s := s.setEjt p { u with opens := (u.opens + 1) % 4294967296 }
    let s := s.setSlot p k (some (s.newSlot p u.opens tgt tgt true))
    (s.inc (bEJT p) EJT_CNT_OPENED).xstatus p 0 k

/-- A write of `GO` (R438): refused while the port's parts are not explicit or its unit may open no slot. -/
def State.xopenGo (s : State) (p : Nat) : State :=
  if s.act (bEJT p) EJT_PARTCFG_PS_SRC ≠ 3 ∨ !s.ejtLive p ∨ !(s.ejtU p).mayOpen then s.xstatus p 0x0101 0
  else s.xopen p

/-- EJT_XOPEN: a write of `GO` opens an explicit slot (R438). -/
def execEjtXopen (t i p v : Nat) (s : State) : Host.Outcome State Fault Refusal :=
  let s := s.at t
  .next (if !s.mgmtOrHost i then s.deny i true (regBase + bEJT p * 0x100000 + 0x188)
  else if !s.domOn (bEJT p) || bit v 0 == 0 then s
  else s.xopenGo p)

/-- EJT_COMMIT: a write commits a verdict to an explicit slot as the inference pipeline (R438). -/
def execEjtCommit (t i p v : Nat) (s : State) : Host.Outcome State Fault Refusal :=
  let s := s.at t
  .next (if !s.mgmtOrHost i then s.deny i true (regBase + bEJT p * 0x100000 + 0x18C)
  else if !s.domOn (bEJT p) then s
  else match s.slot p (bits v 0 6) with
    | some x => if x.explicit then s.slotCommit p (bits v 0 6) { verdict := bits v 8 2 } else s
    | none => s)

/-- Fire class `c` of unit `p` at once, with no slot and no record (R438, R595). -/
def State.fireNow (s : State) (p c : Nat) : State :=
  if s.isOn (bEJT p) && s.act (bEJT p) (EJT_CLS_CFG_MASK c) != 0 then
    let r := s.fireClass p c
    if r.2.1 then r.1.inhibition p 0 r.2.2 else r.1
  else s

/-- EJT_FIRE: a write fires a class at once; class 3 is ignored (R438). -/
def execEjtFire (t i p v : Nat) (s : State) : Host.Outcome State Fault Refusal :=
  let s := s.at t
  .next (if !s.mgmtOrHost i then s.deny i true (regBase + bEJT p * 0x100000 + 0x190)
  else if !s.domOn (bEJT p) || bits v 0 2 == 3 then s
  else s.fireNow p (bits v 0 2))

/-! ### Digital inputs -/

/-- The filter time of input `k` in ns (R442). -/
def State.diFilt (s : State) (k : Nat) : Nat :=
  (if k < 8 then s.rd bFIO FIO_DI_FILT_FILT_LO else s.rd bFIO FIO_DI_FILT_FILT_HI) * 1000

/-- Input `k` takes its filtered level `lv`, first sampled `ago` ns ago; an enabled edge raises its event (R443). -/
def State.diPass (s : State) (k lv ago : Nat) : State :=
  let old := s.rd bFIO FIO_DI
  let s := s.wr bFIO FIO_DI (if lv = 1 then old.lor (2 ^ k) else old - old.land (2 ^ k))
  let s := if lv = 1 then s.setField { s.field with diRise := Store.put 0 s.field.diRise k (s.now + 1) } else s
  if bit (s.rd bFIO (if lv = 1 then FIO_DI_EVT_RISE else FIO_DI_EVT_FALL)) k = 1 then
    s.raiseAgo ago 0x0604 bFIO k lv
  else s

/-- When input `k` first showed a level that has not passed the filter, as the time plus 1. -/
def State.setSince (s : State) (k v : Nat) : State :=
  s.setField { s.field with diSince := Store.put 0 s.field.diSince k v }

/-- One sample of input `k` (R442). -/
def State.diOne (s : State) (lv k : Nat) : State :=
  if bit (s.rd bFIO FIO_DI) k = lv then s.setSince k 0
  else
    let c := Store.get 0 s.field.diSince k
    let first := if c = 0 then s.now + 1 else c
    if first + s.diFilt k ≤ s.now + 1 then (s.setSince k 0).diPass k lv (s.now + 1 - first)
    else s.setSince k first

/-- Whether a change of the sampled levels is an edge that `PWR_WAKE_DI` selects (R514). -/
def State.diWakes (s : State) (old new : Nat) : Bool :=
  (List.range 16).any (fun k =>
    (bit old k == 0 && bit new k == 1 && bit (s.rd bPWR PWR_WAKE_DI_RISE) k == 1) ||
    (bit old k == 1 && bit new k == 0 && bit (s.rd bPWR PWR_WAKE_DI_FALL) k == 1))

/-- DI_SAMPLE: the field side samples the digital inputs, every 1 µs, and every 30.5 µs in S3 and S4 (R442, R443, R514). -/
def execDiSample (t levels : Nat) (s : State) : Host.Outcome State Fault Refusal :=
  let s := s.at t
  let new := levels % 65536
  if !s.due perDi (if 3 ≤ s.rd bPWR PWR_STAT_STATE then 30500 else 1000) then .next s else
  let s1 := (s.mark perDi).setField { s.field with diRaw := new }
  let s1 := if s.diWakes s.field.diRaw new then s1.wake 2 else s1
  .next (if s1.isOn bFIO then (List.range 16).foldl (fun s k => s.diOne (bit new k) k) s1 else s1)

/-! ### Outputs -/

/-- OUTPUT_PULSE_END: the pulse on an output has run out (R445). -/
def execOutputPulseEnd (t n : Nat) (s : State) : Host.Outcome State Fault Refusal :=
  let s := s.at t
  .next (match Store.get none s.field.pulses n with
  | some q => if q.until_ ≤ s.now then (s.endPulse n).refreshFio else s
  | none => s)

/-- OUTPUT_OVERLOAD: current limit for 200 µs, or thermal shutdown, latches an output off and ends its pulse (R446). -/
def execOutputOverload (t n : Nat) (thermal : Bool) (s : State) : Host.Outcome State Fault Refusal :=
  let s := s.at t
  .next (if n < 8 ∧ s.domOn bFIO = true then
    let s := if thermal then (s.wr bFIO (FIO_DO_CFG_THERM n) 1).inc bFIO FIO_CNT_DO_THERM
      else (s.wr bFIO (FIO_DO_CFG_OVL n) 1).inc bFIO FIO_CNT_DO_OVL
    (s.endPulse n).refreshFio
  else s)

/-- The fault bit of an encoder supply. -/
def encvFault (n : Nat) : Fld := if n = 0 then FIO_STAT_ENCV0_FAULT else FIO_STAT_ENCV1_FAULT

/-- ENCODER_SUPPLY_LIMIT: an encoder supply enters current limit (R448). -/
def execEncoderSupplyLimit (t n : Nat) (s : State) : Host.Outcome State Fault Refusal :=
  let s := s.at t
  .next (if s.domOn bFIO then (s.wr bFIO (encvFault n) 1).refreshFio else s)

/-- ENCODER_SUPPLY_LIMIT_END: an encoder supply leaves current limit (R448). -/
def execEncoderSupplyLimitEnd (t n : Nat) (s : State) : Host.Outcome State Fault Refusal :=
  let s := s.at t
  .next (if s.domOn bFIO then (s.wr bFIO (encvFault n) 0).refreshFio else s)

/-- STROBE_PULSE_END: the pulse of strobe `b` has run out (R450). -/
def execStrobePulseEnd (t b : Nat) (s : State) : Host.Outcome State Fault Refusal :=
  let s := s.at t
  .next (match Store.get none s.field.stb b with
  | some (_, e) =>
    if e ≤ s.now then
      (s.setStb b none).setField { (s.setStb b none).field with stbEnd := Store.put 0 s.field.stbEnd b e }
    else s
  | none => s)

end Sys2Proof.Machine
end

