-- ==== Sys2Proof/Machine/Time.lean ====
section
/-!
DEFINITION. The time base: its setting and steering, the tick monitor, holdover, captures and stamp records (R454-R476).
-/

namespace Sys2Proof.Machine

/-- Whether a function reads ON and no fence has been requested. -/
def State.runs (s : State) (b : Nat) : Bool := s.isOn b && s.rd b COM_FENCE_FENCE == 0

/-- Units of the time base in the wrap of its 64-bit seconds field. -/
def tbWrap : Nat := 2 ^ 64 * tbSecUnit

/-- Load the time base at one tick: a forward step is remembered for the instants it carries past, a backward step forgets
what lies beyond it and keeps what lies before (R464). -/
def State.moveTime (s : State) (n : Nat) : State :=
  let tb := s.tb
  s.setTb { tb with
    time := n
    jumps := if tb.time < n then (tb.time, n) :: tb.jumps
      else (tb.jumps.filter (fun j => decide (j.1 < n))).map (fun j => (j.1, min j.2 n)) }

/-- Restart the holdover timer (R463). -/
def State.restartHold (s : State) : State :=
  (s.setTb { s.tb with holdFrom := some s.now }).wr bTIM TIM_STAT_HOLDOVER 0

/-- Whether Traif Link governs the time base: the module has joined in a position other than 0 (R462). -/
def State.linkTime (s : State) : Bool :=
  s.modulePos != 0 && bit (s.rd bLNK LNK_MEMBERS_JOINED) s.modulePos == 1

/-- The gate of R462 and R475 before a write of a time base register by initiator `i`: a refusal, or `ok`. -/
def State.timGate (s : State) (i off : Nat) (ok : State → State) : State :=
  if !s.mgmtOrHost i then s.deny i true (regBase + bTIM * 0x100000 + off)
  else if s.rd bTIM COM_FENCE_FENCE = 1 then s
  else if s.linkTime then s.wr bTIM TIM_STAT_REFUSED 1
  else ok s

/-- The increment that `INC_NS` of a write and the stored `INC_FRAC` give. -/
def State.newInc (s : State) (v : Nat) : Nat := bits v 0 2 * tbNsUnit + s.rd bTIM TIM_INC_FRAC

/-- Whether an increment lies between 1.998 ns and 2.002 ns (R455). -/
def incOk (n : Nat) : Bool := decide (1998 * tbNsUnit ≤ n * 1000) && decide (n * 1000 ≤ 2002 * tbNsUnit)

/-- TIM_INC_NS: a write of `INC_NS` applies the increment (R455, R462, R463). -/
def execTimIncNs (t i v : Nat) (s : State) : Host.Outcome State Fault Refusal :=
  .next ((s.at t).timGate i 0x100 (fun s =>
    if incOk (s.newInc v) then
      (((s.setTb { s.tb with inc := s.newInc v }).wr bTIM TIM_INC_NS (bits v 0 2)).wr bTIM TIM_STAT_SOURCE 2).restartHold
    else s.wr bTIM TIM_STAT_REFUSED 1))

/-- An applied `SET` or `STEP` to `n` (R457, R460). -/
def State.applyStep (s : State) (n : Nat) : State :=
  let d : Int := ((n : Int) - s.tb.time) / tbNsUnit
  let s := (s.moveTime n).wr bTIM TIM_STAT_VALID 1
  let s := (s.wr bTIM TIM_STAT_SOURCE 1).inc bTIM TIM_CNT_STEPS
  s.raise 0x0702 bTIM (toCode 32 d)

/-- A step refused during a job (R461). -/
def State.refuseStep (s : State) : State := (s.wr bTIM TIM_STAT_REFUSED 1).inc bTIM TIM_CNT_STEP_REFUSED

/-- `SET` of `TIM_CMD` (R460, R461). -/
def State.timSetOp (s : State) : State :=
  if s.jobRun then s.refuseStep
  else s.applyStep (s.rd64 bTIM TIM_SET_SEC_LO TIM_SET_SEC_HI * tbSecUnit + s.rd bTIM TIM_SET_NS * tbNsUnit)

/-- `STEP` of `TIM_CMD` (R460, R461, R463); the seconds field is 64 bits wide. -/
def State.timStepOp (s : State) : State :=
  let adj := sext 32 (s.rd bTIM TIM_ADJ)
  if s.jobRun && decide (s.rd bTIM TIM_CFG_STEP_LIMIT < adj.natAbs) then s.refuseStep
  else (s.applyStep (((s.tb.time : Int) + adj * tbNsUnit) % tbWrap).toNat).restartHold

/-- `SERVO_MARK` of `TIM_CMD` (R463). -/
def State.servoMarkOp (s : State) : State := (s.wr bTIM TIM_STAT_SOURCE 2).restartHold

/-- A write of `TIM_CMD` (R460): more than one command at once is refused as a whole. -/
def State.timCmd (s : State) (i v : Nat) : State :=
  s.timGate i 0x12C (fun s =>
    if 1 < popCount 3 v then s.wr bTIM TIM_STAT_REFUSED 1
    else if bit v 0 = 1 then s.timSetOp
    else if bit v 1 = 1 then s.timStepOp
    else if bit v 2 = 1 then s.servoMarkOp
    else s)

/-- SET: a write `v` of `TIM_CMD` with `SET` (R460). -/
def execTimSet (t i v : Nat) (s : State) : Host.Outcome State Fault Refusal := .next ((s.at t).timCmd i v)

/-- STEP: a write `v` of `TIM_CMD` with `STEP` (R460). -/
def execTimStep (t i v : Nat) (s : State) : Host.Outcome State Fault Refusal := .next ((s.at t).timCmd i v)

/-- SERVO_MARK: a write `v` of `TIM_CMD` with `SERVO_MARK` (R463). -/
def execServoMark (t i v : Nat) (s : State) : Host.Outcome State Fault Refusal := .next ((s.at t).timCmd i v)

/-- TIM_NOW_NS: a read answers the nanoseconds and latches the same tick for its initiator (R456). -/
def execTimNowNs (t i : Nat) (s : State) : Host.Outcome State Fault Refusal :=
  let s := s.at t
  .next (if !s.regAllowed i false bTIM 0x110 then s.deny i false (regBase + bTIM * 0x100000 + 0x110)
  else (s.setTb { s.tb with latch := Store.put 0 s.tb.latch i s.tb.time }).answer 0 [s.tbNs])

/-- The words of the time latched for an initiator: fraction and both halves of the seconds (R456). -/
def State.latchedWord (s : State) (i off : Nat) : Nat :=
  let n := Store.get 0 s.tb.latch i
  if off = 0x114 then n % tbNsUnit
  else if off = 0x118 then n / tbSecUnit % 4294967296
  else n / tbSecUnit / 4294967296 % 4294967296

/-- TICK_MONITOR_WINDOW: the ticks of 1 µs are compared with the reference (R459); the tick is off in S3 and S4. -/
def execTickMonitorWindow (t ticks : Nat) (s : State) : Host.Outcome State Fault Refusal :=
  let s := s.at t
  .next (if 3 ≤ s.rd bPWR PWR_STAT_STATE ∨ !s.due perTick 1000 then s
  else
    let s := s.mark perTick
    if 499 ≤ ticks ∧ ticks ≤ 501 then s
    else (((s.wr bTIM TIM_STAT_TICK_FAULT 1).inc bTIM TIM_CNT_TICK_FAULT).raise 0x0701 bTIM).stage7 0xFF 9)

/-- HOLDOVER: `HOLD_MS` have passed without a restart of the timer (R463). -/
def execHoldover (t : Nat) (s : State) : Host.Outcome State Fault Refusal :=
  let s := s.at t
  .next (match s.tb.holdFrom with
  | some h =>
    if s.rd bTIM TIM_STAT_HOLDOVER = 0 ∧ h + s.rd bTIM TIM_CFG_HOLD_MS * 1000000 ≤ s.now then
      ((s.wr bTIM TIM_STAT_HOLDOVER 1).inc bTIM TIM_CNT_HOLDOVER).raise 0x0703 bTIM
    else s
  | none => s)

/-! ### Instants of a grid (R464, R465) -/

/-- The first instant above `after` of the grid that restarts at each whole second, all in units of the time base. -/
def nextInstant (step phase after : Nat) : Nat :=
  let sec := after / tbSecUnit
  let r := after % tbSecUnit
  let x := if r < phase then phase else phase + ((r - phase) / step + 1) * step
  if x < tbSecUnit then sec * tbSecUnit + x else (sec + 1) * tbSecUnit + phase

/-- Whether a forward step has carried the time base past an instant (R464). -/
def State.steppedOver (s : State) (x : Nat) : Bool :=
  s.tb.jumps.any (fun j => decide (j.1 < x) && decide (x < j.2))

/-- `STEP` of generator `k` in effect, ns × 256. -/
def State.genStep (s : State) (k : Nat) : Nat := s.act bTIM (TIM_GEN_STEP_LO k) + 4294967296 * s.act bTIM (TIM_GEN_STEP_HI k)

/-- `PHASE` of generator `k` in effect, ns × 256. -/
def State.genPhase (s : State) (k : Nat) : Nat :=
  s.act bTIM (TIM_GEN_PHASE_LO k) + 4294967296 * s.act bTIM (TIM_GEN_PHASE_HI k)

/-- Whether the configuration of generator `k` in effect produces instants (R465). -/
def State.genOk (s : State) (k : Nat) : Bool :=
  s.act bTIM (TIM_GEN_CFG_EN k) == 1 && decide (100 * 256 ≤ s.genStep k) && decide (s.genStep k ≤ 1000000000 * 256) &&
  decide (s.genPhase k < s.genStep k) &&
  (decide (1000 * 256 ≤ s.genStep k) || (s.act bTIM (TIM_GEN_CFG_TAN k) == 0 && s.act bTIM (TIM_GEN_CFG_EVT k) == 0))

/-- The due instant of generator `k`: the first above the highest it has fired, once the time base has reached it. -/
def State.genDue (s : State) (k : Nat) : Option Nat :=
  if s.runs bTIM && s.genOk k then
    let x := nextInstant (s.genStep k * 16777216) (s.genPhase k * 16777216) (Store.get 0 s.tb.genFired k)
    if x ≤ s.tb.time then some x else none
  else none

/-- Mark an instant of generator `k` as passed. -/
def State.setFired (s : State) (k x : Nat) : State :=
  s.setTb { s.tb with genFired := Store.put 0 s.tb.genFired k x }

/-- The instants that passed while `TIM` did not read ON produced nothing (R476): none of them is due any more. -/
def State.timOn (s : State) : State :=
  (List.range 8).foldl (fun s k => s.setFired k (max (Store.get 0 s.tb.genFired k) s.tb.time)) s

/-! ### Captures and stamps -/

/-- CAPTURE_EDGE: an edge of source `src` (0 to 15 the digital inputs, 16 and 17 the probes), first sampled `ago` ns ago: where channel `c`
selects that source and that edge, it writes a record or is lost (R468). -/
def execCaptureEdge (t c src : Nat) (rising : Bool) (ago : Nat) (s : State) : Host.Outcome State Fault Refusal :=
  let s := s.at t
  .next (if s.runs bTIM && s.rd bTIM (TIM_CAP_CFG_SRC c) == src && edgeTaken (s.rd bTIM (TIM_CAP_CFG_EDGE c)) rising then
    let l := Store.get [] s.tb.caps c
    let d := s.tb.time - ago / 2 * s.tb.inc
    if l.length < 16 then
      let r : CapRec := { rising := rising, sec := d / tbSecUnit % 4294967296, ns := d / tbNsUnit % 1000000000 }
      s.setTb { s.tb with caps := Store.put [] s.tb.caps c (l ++ [r]) }
    else s.inc bTIM TIM_CNT_CAP_LOST
  else s)

/-- The words of the oldest record of a capture FIFO (R476). -/
def capWords (l : List CapRec) : List Nat :=
  match l with
  | [] => [0, 0, 0]
  | r :: _ => [(if r.rising then 2 ^ 31 else 0) + l.length, r.sec, r.ns]

/-- TIM_CAP_REC_READ: a read of word 2 answers it and removes the oldest record (R468). -/
def execTimCapRecRead (t i c : Nat) (s : State) : Host.Outcome State Fault Refusal :=
  let s := s.at t
  let off := 0x30C + 0x20 * c
  .next (if !s.regAllowed i false bTIM off then s.deny i false (regBase + bTIM * 0x100000 + off)
  else
    let l := Store.get [] s.tb.caps c
    (s.setTb { s.tb with caps := Store.put [] s.tb.caps c l.tail }).answer 0 [nth 0 (capWords l) 2])

/-- The stamp FIFO of port `p`: receive or transmit. -/
def State.ptpFifo (s : State) (p : Nat) (rx : Bool) : List PtpRec :=
  if rx then Store.get [] s.tb.ptpRx p else Store.get [] s.tb.ptpTx p

/-- Replace a stamp FIFO. -/
def State.setPtp (s : State) (p : Nat) (rx : Bool) (l : List PtpRec) : State :=
  s.setTb (if rx then { s.tb with ptpRx := Store.put [] s.tb.ptpRx p l } else { s.tb with ptpTx := Store.put [] s.tb.ptpTx p l })

/-- Queue a stamp of the present time base, corrected by the port's latency, or lose it (R470, R471). -/
def State.ptpStamp (s : State) (p : Nat) (rx : Bool) (msg domain seq : Nat) : State :=
  let lat : Int := if rx then sext 16 (s.rd bTIM (TIM_PTP_LAT_RX p)) else -sext 16 (s.rd bTIM (TIM_PTP_LAT_TX p))
  let d := (((s.tb.time : Int) + lat * tbNsUnit) % tbWrap).toNat
  let r : PtpRec := { msg := msg, domain := domain, seq := seq, sec := d / tbSecUnit % 2 ^ 48, ns := d / tbNsUnit % 1000000000 }
  let l := s.ptpFifo p rx
  if l.length < 64 then s.setPtp p rx (l ++ [r]) else s.inc bTIM (TIM_CNT_PTP_LOST p)

/-- The words of the oldest record of a stamp FIFO (R476). -/
def ptpWords (l : List PtpRec) : List Nat :=
  match l with
  | [] => [0, 0, 0, 0]
  | r :: _ => [l.length * 2 ^ 24 + r.domain % 256 * 65536 + r.msg % 16 * 256 + 1,
      r.sec / 4294967296 % 65536 * 65536 + r.seq % 65536, r.sec % 4294967296, r.ns]

/-- TIM_PTP_REC_READ: a read of word 3 answers it and removes the oldest record (R471). -/
def execTimPtpRecRead (t i p : Nat) (rx : Bool) (s : State) : Host.Outcome State Fault Refusal :=
  let s := s.at t
  let off := (if rx then 0x42C else 0x41C) + 0x40 * p
  .next (if !s.regAllowed i false bTIM off then s.deny i false (regBase + bTIM * 0x100000 + off)
  else
    let l := s.ptpFifo p rx
    (s.setPtp p rx l.tail).answer 0 [nth 0 (ptpWords l) 3])

end Sys2Proof.Machine
end

