-- ==== Sys2Proof/Machine/CamCore.lean ====
section
/-!
DEFINITION. The inside of a camera port: its lines and their judgement, the acquisition result, the statistics (R112-R131).
-/

namespace Sys2Proof.Machine

/-- Camera port `n`. -/
def State.camP (s : State) (n : Nat) : CamPort := Store.get {} s.cam n

/-- Replace camera port `n`. -/
def State.setCam (s : State) (n : Nat) (x : CamPort) : State := { s with cam := Store.put {} s.cam n x }

/-- Whether the factory program drives port `n` (R95, R97). -/
def State.factoryCam (s : State) (n : Nat) : Bool := s.sys.factory.on && n == 0

/-- The format of port `n` in effect: bits per channel and channels (R110, R121); the factory program uses the camera's first listed one
(R95). -/
def State.camFormat (s : State) (n : Nat) : Nat × Nat :=
  if n = 8 then
    let f := s.act bPCAM PCAM_IFCFG_FORMAT_P
    if f = 0 then (8, 3) else if f = 1 then (8, 1) else if f = 2 then (12, 1) else (16, 1)
  else
    let f := if s.factoryCam n then (s.camP n).fmt else s.act (bCAM n) CAM_LINECFG_FORMAT
    if f = 0 then (8, 1) else if f = 1 then (10, 1) else if f = 2 then (12, 1) else if f = 3 then (16, 1)
    else if f = 4 then (8, 3) else if f = 5 then (10, 3) else (12, 3)

/-- Channels of port `n`. -/
def State.camChans (s : State) (n : Nat) : Nat := (s.camFormat n).2

/-- The line width of port `n` in effect. -/
def State.camWidth (s : State) (n : Nat) : Nat := s.act (bCAM n) CAM_LINECFG_WIDTH

/-- The Stirrup port whose parts the lines of port `n` belong to (R118, R127): the trigger's port, else the first that declares
the port's acquisition check. -/
def State.camStp (s : State) (n : Nat) : Nat :=
  let src := s.act (bCAM n) CAM_TRIG_SRC
  if src = 1 then 0 else if src = 2 then 1
  else if bit s.job.declared0 n = 0 ∧ bit s.job.declared1 n = 1 then 1 else 0

/-- The part of Stirrup port `p` that holds a position, with its start: the open part with the highest start at or before it; a
grid part ends one pitch after its start. -/
def State.partOf (s : State) (p : Nat) (x : Int) : Option (Nat × Int) :=
  let best := (s.openSlots p).foldl (fun (b : Option (Nat × Int)) e =>
    if e.2.explicit || decide (x < e.2.start) then b
    else match b with
      | none => some (e.2.part, e.2.start)
      | some q => if q.2 < e.2.start then some (e.2.part, e.2.start) else b) none
  match best with
  | some q => if s.act (bEJT p) EJT_PARTCFG_PS_SRC = 1 ∧ q.2 + s.act (bEJT p) EJT_PITCH ≤ x then none else some q
  | none => none

/-- Lines of a part on port `n` (R153): the frame's height, or ⌊pitch ÷ `STEP`⌋. -/
def State.partLines (s : State) (n : Nat) : Nat :=
  if s.act (bCAM n) CAM_LINECFG_MODE = 1 then s.act (bCAM n) CAM_TRIG_FRAME_H
  else s.act (bEJT (s.camStp n)) EJT_PITCH / s.act (bCAM n) CAM_TRIGSTEP_STEP

/-- Whether a line is the last of a grid part that starts at `start` on a position-triggered port. -/
def State.lastLine (s : State) (n : Nat) (start : Int) (l : CamLine) : Bool :=
  let src := s.act (bCAM n) CAM_TRIG_SRC
  (src == 1 || src == 2) && s.act (bEJT (s.camStp n)) EJT_PARTCFG_PS_SRC == 1 &&
  decide (start + s.act (bEJT (s.camStp n)) EJT_PITCH ≤ l.pos + s.act (bCAM n) CAM_TRIGSTEP_STEP) &&
  (s.act (bCAM n) CAM_LINECFG_MODE != 1 || l.row + 1 == s.act (bCAM n) CAM_TRIG_FRAME_H)

/-! ### The judgement of a line (R124, R125) -/

/-- The standing of a line status in the table of R124: a higher number stands higher. -/
def standing (st : Nat) : Nat :=
  if st = 0x0505 then 4 else if st = 0x0502 then 3 else if st = 0x0503 then 2 else if st = 0x0504 then 1 else 0

/-- The status of a standing. -/
def standingStatus (k : Nat) : Nat :=
  if k = 4 then 0x0505 else if k = 3 then 0x0502 else if k = 2 then 0x0503 else if k = 1 then 0x0504 else 0

/-- The status of a line whose data has ended (R124, R125). -/
def CamLine.judge (width chans : Nat) (l : CamLine) : Nat :=
  if l.late then 0x0505
  else if l.bad then 0x0502
  else if l.pix.length < width * chans then 0x0503
  else if width * chans < l.pix.length then 0x0504
  else 0

/-- The counter of a line status. -/
def lineCounter (st : Nat) : Fld :=
  CAM_CNT_LINE (if st = 0 then 0 else if st = 0x0503 then 1 else if st = 0x0504 then 2 else if st = 0x0505 then 3 else 4)

/-- Whether a line's data is not used (R126, R129). -/
def concealed (st : Nat) : Bool := st == 0x0505 || st == 0x0502

/-- Samples padded to the line's length with `PAD_VALUE`, or cut to it (R124). -/
def fitLine (n pad : Nat) (pix : List Nat) : List Nat := (pix ++ List.replicate (n - pix.length) pad).take n

/-- Groups of `c` values, `fuel` at most. -/
def chunks (c : Nat) : Nat → List α → List (List α)
  | 0, _ => []
  | fuel + 1, l => if l.isEmpty then [] else l.take c :: chunks c fuel (l.drop c)

/-- The pixels of a line, each a list of its channels. -/
def pixelsOf (c : Nat) (pix : List Nat) : List (List Nat) := chunks c pix.length pix

/-- One channel of a line. -/
def chanOf (c k : Nat) (pix : List Nat) : List Nat := (pixelsOf c pix).map (fun q => nth 0 q k)

/-- A line reduced to luminance (R95); a mono line is one already. -/
def lumaLine (c : Nat) (pix : List Nat) : List Nat := if c = 1 then pix else (pixelsOf c pix).map (fun q => (Config.luma q).toNat)

/-! ### Statistics (R130, R131) -/

/-- Add to a sum of the running window. -/
def accAdd (a : Store Nat) (k v : Nat) : Store Nat := Store.put 0 a k (Store.get 0 a k + v)

/-- Key of histogram bin `b` of channel `c` in the running window. -/
def histKey (c b : Nat) : Nat := c * 256 + b

/-- Key of the sum of zone `z` of channel `c` in the running window. -/
def zoneKey (c z : Nat) : Nat := 768 + c * 16 + z

/-- The first pixel of zone `z`. -/
def zoneStart (x0 x1 z : Nat) : Nat := x0 + z * (x1 - x0) / 16

/-- Add one channel of a line to the running window. -/
def accChannel (x0 x1 c : Nat) (a : Store Nat) (samples : List Nat) : Store Nat :=
  let a := ((samples.drop x0).take (x1 - x0)).foldl (fun a v => accAdd a (histKey c (v / 256)) 1) a
  (List.range 16).foldl (fun a z =>
    accAdd a (zoneKey c z)
      (((samples.drop (zoneStart x0 x1 z)).take (zoneStart x0 x1 (z + 1) - zoneStart x0 x1 z)).foldl (· + ·) 0)) a

/-- The end of a statistics window: histograms and zone means go to the buffer, `STAT_SEQ` advances (R131). -/
def State.endWindow (s : State) (n x0 x1 lines : Nat) (a : Store Nat) : State :=
  let b := bCAM n
  let s := (List.range 3).foldl (fun s c =>
    let s := (List.range 256).foldl (fun s h => s.setCnt b (CAM_HIST c h) (min (Store.get 0 a (histKey c h)) 0xFFFFFFFF)) s
    (List.range 16).foldl (fun s z =>
      s.setCnt b (CAM_ZMEAN c z)
        (divRne (Store.get 0 a (zoneKey c z) * 256) (lines * (zoneStart x0 x1 (z + 1) - zoneStart x0 x1 z)))) s) s
  s.inc b CAM_STAT_SEQ

/-- Take a line into the statistics: `X0`, `X1` and `WIN_LOG2` are taken at the start of a window (R132). -/
def State.camStats (s : State) (n : Nat) (l : CamLine) : State :=
  let b := bCAM n
  let x := s.camP n
  let w := x.win.getD (s.rd b CAM_STATX_X0, s.rd b CAM_STATX_X1, s.rd b CAM_STATCFG_WIN_LOG2)
  let width := s.camWidth n
  if w.1 + 16 ≤ w.2.1 ∧ w.2.1 ≤ width then
    let c := s.camChans n
    let a := (List.range c).foldl (fun a k => accChannel w.1 w.2.1 k a (chanOf c k l.pix)) x.acc
    if 2 ^ w.2.2 ≤ x.accLines + 1 then
      (s.setCam n { x with acc := [], accLines := 0, win := none }).endWindow n w.1 w.2.1 (x.accLines + 1) a
    else s.setCam n { x with acc := a, accLines := x.accLines + 1, win := some w }
  else s

/-! ### A judged line -/

/-- The top 8 bits of each channel, a mono line three times (R491). -/
def topBits (c : Nat) (pix : List Nat) : List (List Nat) :=
  if c = 1 then let l := pix.map (· / 256); [l, l, l]
  else (List.range 3).map (fun k => (chanOf c k pix).map (· / 256))

/-- The open part of Stirrup port `p` with the highest start. -/
def State.lastPart (s : State) (p : Nat) : Option (Nat × Int) :=
  (s.openSlots p).foldl (fun (b : Option (Nat × Int)) e =>
    if e.2.explicit then b
    else match b with
      | none => some (e.2.part, e.2.start)
      | some q => if q.2 < e.2.start then some (e.2.part, e.2.start) else b) none

/-- Once a job is ending, a camera port that has acquired the last part of its Stirrup port clears `STREAM` (R396). -/
def State.camQuits (s : State) (n : Nat) : State :=
  if s.lnk.ending then
    match s.lastPart (s.camStp n) with
    | some q => if (s.camP n).part = some q.1 ∧ (s.camP n).reported then s.wr (bCAM n) CAM_CTRL_STREAM 0 else s
    | none => s.wr (bCAM n) CAM_CTRL_STREAM 0
  else s

/-- The acquisition result of the part whose lines a port counts (R127). -/
def State.acqReport (s : State) (n : Nat) : State :=
  let x := s.camP n
  match x.part with
  | some q =>
    if x.reported then s
    else
      let st := if x.bad ≤ s.act (bCAM n) CAM_DMG_DMG_LIMIT then 0 else standingStatus x.worst
      ((s.setCam n { x with reported := true }).checkReport (s.camStp n) q n (if st = 0 then 0 else 3) st).camQuits n
  | none => s

/-- The parts of a port whose last line is not known from the grid report at their verdict deadline (R127): the part whose lines the port
counts, unless one of its lines is still due. -/
def State.acqDeadline (s : State) (p part : Nat) : State :=
  (List.range 9).foldl (fun s n =>
    let x := s.camP n
    let due := x.lines.any (fun l => (s.partOf p l.pos).map Prod.fst == some part)
    if x.part = some part ∧ s.camStp n = p ∧ !due then s.acqReport n else s) s

/-- Count a judged line to its part (R127): a line of another part ends the one before, and a grid part ends with its last line. -/
def State.acqLine (s : State) (n : Nat) (l : CamLine) : State :=
  let q := s.partOf (s.camStp n) l.pos
  let id := q.map Prod.fst
  let s := if (s.camP n).part ≠ id then
      let s := s.acqReport n
      s.setCam n { s.camP n with part := id, bad := 0, worst := 0, reported := false }
    else s
  let x := s.camP n
  let s := if l.status = 0 then s
    else s.setCam n { x with bad := x.bad + 1, worst := max x.worst (standing l.status) }
  match q with
  | some (_, start) => if s.lastLine n start l then s.acqReport n else s
  | none => s

/-- The fallback inspector takes a line (R491). -/
def State.fbTake (s : State) (n : Nat) (l : CamLine) : State :=
  let p := s.camStp n
  match s.partOf p l.pos with
  | some (part, _) =>
    s.fbLine n p part (s.camWidth n / 4) (s.partLines n / 4) (concealed l.status, topBits (s.camChans n) l.pix)
  | none => s

/-- The oldest line of a port is judged (R124, R125): its counter, the statistics, the fallback inspector's copy, the acquisition
result, and the verdict for the Tannery. -/
def State.lineDone (s : State) (n : Nat) : State :=
  let x := s.camP n
  match x.lines with
  | [] => s
  | l :: r =>
    let c := s.camChans n
    let st := l.judge (s.camWidth n) c
    let pad := s.act (bCAM n) CAM_DMG_PAD_VALUE
    let l := { l with status := st, got := l.pix.length / c, pix := if concealed st then [] else fitLine (s.camWidth n * c) pad l.pix }
    let kept := if s.factoryCam n then { l with pix := lumaLine c l.pix } else l
    let s := (s.setCam n { x with lines := r, judged := x.judged ++ [kept] }).inc (bCAM n) (lineCounter st)
    let s := if concealed st then s else s.camStats n l
    (s.fbTake n l).acqLine n l

/-- Complete every late line at the head of the port's lines, at most `fuel`. -/
def State.settleLines : Nat → State → Nat → State
  | 0, s, _ => s
  | fuel + 1, s, n =>
    match (s.camP n).lines with
    | l :: _ => if l.late then State.settleLines fuel (s.lineDone n) n else s
    | [] => s

/-- Change the lines of a port and complete those that are late and oldest. -/
def State.mapLines (s : State) (n : Nat) (f : CamLine → CamLine) : State :=
  let x := s.camP n
  State.settleLines x.lines.length (s.setCam n { x with lines := x.lines.map f }) n

/-- Add the lines of one trigger (R118, R119). -/
def State.addLines (s : State) (n : Nat) (k pos : Int) (late : Bool) : State :=
  let x := s.camP n
  let h := if s.act (bCAM n) CAM_LINECFG_MODE = 1 then s.act (bCAM n) CAM_TRIG_FRAME_H else 1
  let new := (List.range h).map (fun r : Nat => (
    { idx := x.next + r, k := k, row := r, pos := pos, sec := s.tbSec, ns := s.tbNs, trigAt := s.now, late := late, fresh := x.fresh && r == 0 } : CamLine))
  let s := s.setCam n { x with lines := x.lines ++ new, next := x.next + h, fresh := false }
  State.settleLines (x.lines.length + h) s n

end Sys2Proof.Machine
end

