-- ==== Sys2Proof/Machine/MemCore.lean ====
section
/-!
DEFINITION. Checked reads and writes of the stores by an initiator: the codes of DRAM and SRAM, poison, and the firewall
(R171, R175-R181, R196).
-/

namespace Sys2Proof.Machine

/-- The largest number of erroneous symbols (DRAM) or bits (SRAM) of a unit for which the codes state what happens (R175, R181). -/
def maxBad (u : Nat) : Nat := if u < dramEnd then 3 else 2

/-- Open contents of `n` bytes at `a`, of draw `k`. -/
def State.openBytes (s : State) (k a n : Nat) : State :=
  { s with mem := memPuts s.mem a ((List.range n).map (fun j => (Config.freeByte k j).toNat)) }

/-- Errors that the environment has caused in a unit: `bad` further erroneous symbols or bits. Past what the codes state, whether
the check finds them, corrects them wrongly or misses them is open, and so are the contents (R175, R181). The flash carries no
such code, and the marker of a poisoned unit decodes as uncorrectable at every read (R178). -/
def State.disturb (s : State) (u bad : Nat) : State :=
  let base := if u < dramEnd then 32 else 48
  let n := Store.get 0 s.errs u % 16 + bad
  if bad = 0 ∨ flashBase ≤ u ∨ Store.get false s.poison u then s
  else if n ≤ maxBad u then s.setErr u (base + n)
  else
    let f := s.takeFree
    let e := Config.freeNat f.1 % 3
    (f.2.openBytes f.1 u (unitSize u)).setErr u (if e = 0 then 0 else base + e)

/-- The counter of `MEM4` that counts a report (R196); a double-bit error of the retention SRAM and a rerun of the Tannery have none. -/
def LogRec.counter (r : LogRec) : Option Fld :=
  if r.kind = 1 then some (MEM4_CNT_DRAM_CE r.sub)
  else if r.kind = 2 ∨ r.kind = 3 then some (MEM4_CNT_DRAM_UE r.sub)
  else if r.kind = 4 then
    some (if 8 ≤ r.blk ∧ r.blk < 12 then MEM4_CNT_SLICE_CE (r.blk - 8) else if r.blk = bPWR then MEM4_CNT_RET_CE else MEM4_CNT_SPAD_CE)
  else if r.kind = 5 ∨ r.kind = 9 then
    if 8 ≤ r.blk ∧ r.blk < 12 then some (MEM4_CNT_SLICE_UE (r.blk - 8))
    else if r.blk = bPWR then none else some MEM4_CNT_SPAD_UE
  else if r.kind = 6 then if r.blk = bTAN then none else some (MEM4_CNT_RES_RETRY r.sub)
  else if r.kind = 7 then some MEM4_CNT_SUSPECT
  else if r.kind = 8 then some MEM4_CNT_RES_FAIL
  else none

/-- Count and report an error (R196). -/
def State.countRep (s : State) (r : LogRec) : State :=
  (match r.counter with
  | some f => s.inc bMEM4 f
  | none => s).report r

/-- Count and report an error of a store, whose syndrome is an open value. -/
def State.storeRep (s : State) (r : LogRec) : State :=
  let f := s.takeFree
  f.2.countRep { r with synd := Config.freeNat f.1 % 4294967296 }

/-- Report what the merges of event records and the replacement of cached lines have found (R196). -/
def State.settleFound (s : State) : State :=
  s.memu.found.foldl State.storeRep (s.setMem { s.memu with found := [] })

/-- A mismatch whose second run agreed is counted and reported (R145, R194, R196). -/
def State.residueRetry (s : State) (blk sub init tile : Nat) (inj : Bool := false) : State :=
  s.countRep { kind := 6, blk := blk, sub := sub, synd := tile, status := 0x0301, init := init, inj := inj }

/-- A mismatch that stood is counted and reported (R145, R192, R196). -/
def State.residueFail (s : State) (blk sub init tile : Nat) (inj : Bool := false) : State :=
  s.countRep { kind := 8, blk := blk, sub := sub, synd := tile, status := 0x0302, init := init, inj := inj }

/-- Read one unit with its check (R175, R178, R181): a corrected error is written back, one past correction stays for every later read,
and every one is counted and reported (R196). -/
def State.readUnit (s : State) (i u : Nat) : State :=
  match s.finding i u with
  | none => s
  | some r => (if r.kind = 1 ∨ r.kind = 4 then s.clearErr u else s).storeRep r

/-- Read one 64-bit word of a line that a slice holds (R181). -/
def State.readWord (s : State) (i w : Nat) : State :=
  let e := Store.get 0 s.memu.word w
  let k := (Store.get {} s.memu.lines (unitOf w)).slice
  let r : LogRec := { blk := bMEM k, addr := w, init := i, inj := decide (e < 32) }
  if e = 0 then s
  else if errUncorr e then s.storeRep { r with kind := 5, status := 0x0304 }
  else (s.setMem { s.memu with word := Store.put 0 s.memu.word w 0 }).storeRep { r with kind := 4, status := 0x0303 }

/-! ### Prefetchers (R183) -/

/-- Lines that prefetchers fetch: one past the DRAM or past correction is not stored, and raises nothing. -/
def State.fetchLines (s : State) (f : Nat) (ls : List Int) : Store CacheLine :=
  (ls.zipIdx.foldl (fun (s : State) e =>
    let u := e.1.toNat
    if e.1 < 0 ∨ dramEnd ≤ u ∨ s.poisoned u 64 then s
    else s.setMem { s.memu with lines := (s.cacheTouch (f * 2 ^ 64 + e.2) u false).1 }) s).memu.lines

/-- The lines that a prefetcher fetches when its stream stands at `last`: up to `n` strides ahead, not past the end of a declared stream. -/
def Prefetch.want (p : Prefetch) (n : Nat) : List Int :=
  ((List.range n).map (fun k => p.last + (k + 1) * p.stride)).filter (fun a => match p.stop with
    | some e => decide (a < e)
    | none => true)

/-- Whether a line read lies among the lines a prefetcher has fetched. -/
def Prefetch.hits (p : Prefetch) (u : Nat) : Bool :=
  (List.range p.ahead).any (fun k => p.last + (k + 1) * p.stride == (u : Int))

/-- The prefetchers of a port after a read of line `u`: the one it hits moves on, and one without a hit for 64 lines, or at the end of its
declared stream, stops. -/
def nextPf (l : List Prefetch) (u n : Nat) : List Prefetch :=
  (l.map (fun p => if p.hits u then { p with last := u, ahead := n, idle := 0 } else { p with idle := p.idle + 1 })).filter
    (fun p => decide (p.idle < 64) && match p.stop with
      | some e => decide (p.last + p.stride < e)
      | none => true)

/-- Whether three misses, the newest first, have one stride inside one 4 KiB page. -/
def trains (u a b : Nat) : Bool :=
  u / 4096 == a / 4096 && a / 4096 == b / 4096 && u != a && (u : Int) - a == (a : Int) - b

/-- A cluster's port reads line `u` on demand: its prefetchers follow, and three misses with one stride start another while one of the sixteen
is idle.  How far one runs ahead, between 1 and `PF_DIST` lines, is an open value. -/
def State.portRead (s : State) (c u : Nat) : State :=
  let miss := (Store.get {} s.memu.lines u).slice == 4
  let ms := Store.get [] s.memu.miss c
  let n := 1 + Config.freeNat s.free % max 1 (s.rd (bMEM (s.sliceOf (bucketOf u))) MEM_PF_PF_DIST)
  let l := nextPf (Store.get [] s.memu.pf c) u n
  let new := match ms with
    | a :: b :: _ => if miss && trains u a b && decide (l.length < 16) then [{ last := u, stride := (u : Int) - a, ahead := n : Prefetch }] else []
    | _ => []
  let l := l ++ new
  { s with
    free := s.free + 1
    memu := { s.memu with
      pf := Store.put [] s.memu.pf c l
      miss := if miss then Store.put [] s.memu.miss c (u :: ms.take 1) else s.memu.miss
      lines := s.fetchLines (s.free + 1) ((l.filter (fun p => p.last == (u : Int))).flatMap (·.want n)) } }

/-- `xpf` and a fused tile declare a stream of `n` bytes at `a` (R183, R233): one of the sixteen prefetchers of the port takes it, if one is
idle. -/
def State.declare (s : State) (c a n : Nat) : State :=
  let l := Store.get [] s.memu.pf c
  if 16 ≤ l.length ∨ n = 0 then s
  else
    let d := 1 + Config.freeNat s.free % max 1 (s.rd (bMEM (s.sliceOf (bucketOf a))) MEM_PF_PF_DIST)
    let p : Prefetch := { last := (a - a % 64 : Nat) - 64, ahead := d, stop := some (a + n) }
    { s with
      free := s.free + 1
      memu := { s.memu with pf := Store.put [] s.memu.pf c (l ++ [p]), lines := s.fetchLines (s.free + 1) (p.want d) } }

/-- Line `u` is read on demand by initiator `i`. -/
def State.demand (s : State) (i u : Nat) : State :=
  (if 0x10 ≤ i ∧ i ≤ 0x31 then s.portRead (i - 0x10) u else s).touch u false

/-- Read every unit that a range touches, with its check; a line of DRAM passes through the slice that serves it. -/
def State.readUnits (s : State) (i a n : Nat) : State :=
  let s := (unitsOf a n).foldl (fun s u => s.readUnit i u) s.settleFound
  let s := (dramUnits a n).foldl (fun s u => s.demand i u) s
  if s.memu.word.isEmpty ∨ dramEnd ≤ a then s else (wordsOf a n).foldl (fun s w => s.readWord i w) s

/-- An access to DRAM wakes a sleeping module (R514). -/
def State.wakeFor (s : State) (a : Nat) : State := if a < dramEnd then s.wake 6 else s

/-- Whether a range lies in an entry of a Tannery ring that a fence cut short, which its consumers may not read (R170). -/
def State.inFenced (s : State) (i a n : Nat) : Bool :=
  (decide (0x10 ≤ i && i ≤ 0x31) || i == iSCH) && s.tan.fenced.any (fun e => overlap a n e.1 e.2)

/-- A read of `n` bytes by initiator `i`: the status (0, BUS_ERROR, FENCED_ABORT or ECC_UNCORRECTABLE) and the bytes (R170, R171, R188,
R496). -/
def State.hwRead (s : State) (i a n : Nat) : State × Nat × List Nat :=
  let c := s.checkStore i false a n
  if c.2 ≠ 0 then (c.1, c.2, [])
  else if s.inFenced i a n then (c.1, 0x0202, [])
  else
    let s := (s.wakeFor a).readUnits i a n
    (s, if s.poisoned a n then 0x0304 else 0, s.bytes a n)

/-- The check of a unit before new bytes are merged into it: old contents past correction leave the merged unit poisoned (R177). -/
def State.mergeUnit (s : State) (i u : Nat) : State :=
  let t := s.readUnit i u
  if errUncorr (Store.get 0 t.errs u) then (t.clearErr u).setPoison u else t

/-- The words of a range that a write covers only in part. -/
def partWords (a n : Nat) : List Nat := (wordsOf a n).filter (fun w => decide (w < a) || decide (a + n < w + 8))

/-- Write bytes with the check of every unit, and of every word of a cached line, written in part (R177, R181). -/
def State.mergeWrite (s : State) (i a : Nat) (bs : List Nat) : State :=
  let s := (partUnits a bs.length).foldl (fun s u => s.mergeUnit i u) s.settleFound
  (if s.memu.word.isEmpty ∨ dramEnd ≤ a then s else (partWords a bs.length).foldl (fun s w => s.readWord i w) s).write a bs

/-- A write by initiator `i`: the status, 0 or BUS_ERROR (R171, R177, R496). -/
def State.hwWrite (s : State) (i a : Nat) (bs : List Nat) : State × Nat :=
  let c := s.checkStore i true a bs.length
  if c.2 ≠ 0 then (c.1, c.2) else ((s.wakeFor a).mergeWrite i a bs, 0)

/-- The parts of a range that lie in lines read poisoned: poison marks whole lines (R178, R573). -/
def State.lineParts (s : State) (a n : Nat) : List (Nat × Nat) :=
  ((unitsOf a n).filter (fun u => s.poisoned u (unitSize u))).map (fun u => (max a u - a, min (a + n) (u + unitSize u) - max a u))

/-- A write of bytes of which the parts `bad` carry poison (R178, R188): a unit that takes any of them is stored poisoned. -/
def State.hwWriteParts (s : State) (i a : Nat) (bs : List Nat) (bad : List (Nat × Nat)) : State × Nat :=
  let r := s.hwWrite i a bs
  if r.2 ≠ 0 then r else (bad.foldl (fun s e => (unitsOf (a + e.1) e.2).foldl State.setPoison s) r.1, 0)

/-- Poison travels with the data (R188, R569): whether the byte at an offset carries it. -/
def inParts (bad : List (Nat × Nat)) (o : Nat) : Bool := bad.any (fun e => decide (e.1 ≤ o) && decide (o < e.1 + e.2))

/-- The runs of bytes with and without poison, from offset `o` on: offset, bytes, poison. -/
def poisonRuns (bad : List (Nat × Nat)) : Nat → List Nat → List (Nat × List Nat × Bool)
  | _, [] => []
  | o, b :: r =>
    let p := inParts bad o
    match poisonRuns bad (o + 1) r with
    | (o', bs, p') :: l => if p == p' then (o, b :: bs, p) :: l else (o, [b], p) :: (o', bs, p') :: l
    | [] => [(o, [b], p)]

/-- A write of bytes that all carry poison. -/
def State.hwWritePoison (s : State) (i a : Nat) (bs : List Nat) : State × Nat := s.hwWriteParts i a bs [(0, bs.length)]

/-- A write whose status nothing waits for. -/
def State.putAs (s : State) (i a : Nat) (bs : List Nat) : State := (s.hwWrite i a bs).1

end Sys2Proof.Machine
end

