-- ==== Sys2Proof/Machine/Halter.lean ====
section
/-!
DEFINITION. Halter's commands: due stages, heartbeats, requests, kicks, self-faults, the fallback inspector's table and
results, and the rule table (R479-R502).
-/

namespace Sys2Proof.Machine

/-- STAGE_DUE: the position has reached S + `DUE` of a stage with no report (R484). -/
def execStageDue (t p k stage : Nat) (s : State) : Host.Outcome State Fault Refusal :=
  let s := s.at t
  .next (match s.slot p k with
  | none => s
  | some x =>
    if stage < 7 && s.stageApplies p k stage && bit x.reported stage == 0 && bit x.lateSeen stage == 0 &&
        decide (Int.ofNat (nth 0xFFFFFFFF x.due stage) ≤ s.pos p - x.start) then
      (s.setSlot p k (some { x with
        lateSeen := x.lateSeen + 2 ^ stage, fault := x.fault || bit s.opt.windows stage == 1 })).stageFault stage p 2
    else s)

/-- STAGE7_HEARTBEAT_MISSING: the heartbeat of Stirrup port 0 or 1, or of the time base (source 2), is missing for 20 µs
(R484); only a port in ON has a heartbeat. -/
def execStage7HeartbeatMissing (t src : Nat) (s : State) : Host.Outcome State Fault Refusal :=
  let s := s.at t
  .next (if src = 2 then s.stage7 0xFF 8
  else if src < 2 ∧ s.isOn (bSTP src) then s.stage7 src (4 * src)
  else s)

/-- Whether the condition of a stage 7 fault source still holds (R486). -/
def State.s7Stands (s : State) (k : Nat) (missing : Bool) : Bool :=
  if k = 8 then missing
  else if k = 9 then s.rd bTIM TIM_STAT_TICK_FAULT == 1
  else
    let p := k / 4
    if k % 4 = 0 then missing && s.isOn (bSTP p)
    else if k % 4 = 1 then s.rd (bSTP p) STP_STAT_FAULT_NOW == 1
    else if k % 4 = 2 then !s.isOn (bSTP p)
    else bit (s.rd bLNK LNK_POSCFG_ALIGNED) p == 0

/-- STAGE7_PERSIST: a stage 7 fault of source `k` (port × 4 plus 0 heartbeat, 1 encoder, 2 not ON, 3 alignment; 8 and 9 the time
base's heartbeat and tick) has stood for `STAGE7_PERSIST_MS` while a job runs (R486); `missing` says whether its heartbeat
still is. A fault whose condition has ended is forgotten. -/
def execStage7Persist (t k : Nat) (missing : Bool) (s : State) : Host.Outcome State Fault Refusal :=
  let s := s.at t
  .next (match Store.get none s.hlt.s7 k with
  | none => s
  | some t0 =>
    if !s.s7Stands k missing then s.setHlt { s.hlt with s7 := Store.put none s.hlt.s7 k none }
    else if t0 + s.opt.s7PersistMs * 1000000 ≤ s.now ∧ s.jobRun ∧ bit s.opt.windows 7 = 1 then
      s.safeReaction 4 7 (if 8 ≤ k then 0xFF else k / 4)
    else s)

/-- OUTPUT_MISMATCH: the state of an output owned by an ejection unit differs from its commanded pulse for more than 10 µs,
outside the inhibited cases (R486). -/
def execOutputMismatch (t n : Nat) (s : State) : Host.Outcome State Fault Refusal :=
  let s := s.at t
  let src := s.rd bFIO (FIO_DO_CFG_SRC n)
  .next (if src ≠ 0 ∧ !s.safe ∧ !s.inhibitedHard (src - 1) n then s.stageFault 6 (src - 1) 4 else s)

/-- FALLBACK_RESULT: the result of a part becomes ready (R493, R494), judged with the table of its part start. -/
def execFallbackResult (t p part : Nat) (s : State) : Host.Outcome State Fault Refusal :=
  let s := s.at t
  .next (match s.slotOfPart p part with
  | none => s
  | some (_, x) =>
    if s.rd bHLT HLT_STAT_FB_OK = 0 ∨ (s.fbResult p part).isSome then s
    else match s.fbJudge (Store.get {} s.hlt.tables x.fbGen) p part with
      | some v => s.fbReady p part v
      | none => s)

/-- FALLBACK_FAULT: a fault of the fallback inspector clears `FB_OK`, and is level 2 while a port is at level 1 (R486). -/
def execFallbackFault (t : Nat) (s : State) : Host.Outcome State Fault Refusal :=
  let s := s.at t
  let one := s.rd bHLT HLT_STAT_SRC0 == 1 || s.rd bHLT HLT_STAT_SRC1 == 1
  let s := s.wr bHLT HLT_STAT_FB_OK 0
  .next (if one then s.safeReaction 5 0xFF 0xFF else s)

/-! ### Requests -/

/-- Whether a `RESTORE` of port `p` is accepted (R488). -/
def State.restoreOk (s : State) (p : Nat) : Bool :=
  s.rd bHLT (hltSrc p) == 1 && s.rd bHLT HLT_STAT_LEVEL != 2 &&
  decide (s.opt.restoreParts ≤ s.rd bHLT (hltHealthy p))

/-- Return port `p` to the inference pipeline (R488): slots that open from now on take its commits. -/
def State.restorePort (s : State) (p : Nat) : State :=
  let s := ((s.wr bHLT (hltSrc p) 0).wr (bEJT p) EJT_SRC 0).inc bHLT HLT_CNT_RESTORE
  if s.rd bHLT (hltSrc (1 - p)) = 1 then s else s.wr bHLT HLT_STAT_LEVEL 0

/-- `RESTORE`p of a request: the state and whether it was refused. -/
def State.restoreReq (s : State) (v p : Nat) : State × Bool :=
  if bit v p = 0 then (s, false) else if s.restoreOk p then (s.restorePort p, false) else (s, true)

/-- `TEST` of a request (R501): stages 6 and 7 only while no job runs. -/
def State.testReq (s : State) (v : Nat) : State × Bool :=
  let st := bits v 8 3
  if bit v 2 = 0 then (s, false)
  else if 6 ≤ st ∧ s.jobRun then (s, true)
  else ((s.inc bHLT HLT_CNT_TEST).stageFault st 0xFF 5, false)

/-- A write `v` of `HLT_REQ` (R488, R501): only from G0 and G1, and only with the key. -/
def State.hltReq (s : State) (i v : Nat) : State :=
  if !s.mgmtOrHost i then s.deny i true (regBase + bHLT * 0x100000 + 0x104)
  else if bits v 16 16 ≠ 0xA5C3 then s
  else
    let a := s.restoreReq v 0
    let b := a.1.restoreReq v 1
    let c := b.1.testReq v
    c.1.wr bHLT HLT_REQ_STAT (if a.2 || b.2 || c.2 then 0x0101 else 0)

/-- RESTORE: a write `v` of `HLT_REQ` that asks for a return to the inference pipeline (R488). -/
def execRestore (t i v : Nat) (s : State) : Host.Outcome State Fault Refusal := .next ((s.at t).hltReq i v)

/-- TEST: a write `v` of `HLT_REQ` that tests a stage (R501). -/
def execTest (t i v : Nat) (s : State) : Host.Outcome State Fault Refusal := .next ((s.at t).hltReq i v)

/-! ### Self-faults -/

/-- Whether the island has power. -/
def State.hltPowered (s : State) : Bool := s.domOn bHLT

/-- HALTER_KICK: Halter firmware writes its kick; one too soon after the previous is a self-fault (R481). -/
def execHalterKick (t : Nat) (s : State) : Host.Outcome State Fault Refusal :=
  let s := s.at t
  let soon := match s.hlt.lastKick with
    | some k => decide (4 * (s.now - k) < s.opt.hwdUs * 1000)
    | none => false
  .next (if s.hltPowered then
    let s := s.setHlt { s.hlt with lastKick := some s.now }
    if soon then s.selfFault else s
  else s)

/-- HALTER_KICK_TIMEOUT: no kick for `HWD_US` since the last one, or since Halter's firmware started (R481). -/
def execHalterKickTimeout (t : Nat) (s : State) : Host.Outcome State Fault Refusal :=
  let s := s.at t
  .next (match s.hlt.lastKick.or s.hlt.started with
  | some k => if k + s.opt.hwdUs * 1000 ≤ s.now ∧ s.hltPowered then s.selfFault else s
  | none => s)

/-- LOCKSTEP_MISMATCH: the comparator finds a difference, while lockstep runs (R480). -/
def execLockstepMismatch (t : Nat) (s : State) : Host.Outcome State Fault Refusal :=
  let s := s.at t
  .next (if s.opt.lockstep && s.hltPowered then s.selfFault else s)

/-- HALTER_CLOCK_FAULT: Halter's oscillator deviates by more than 5 % for 10 µs (R479). -/
def execHalterClockFault (t : Nat) (s : State) : Host.Outcome State Fault Refusal :=
  let s := s.at t
  .next (if s.hltPowered then s.selfFault else s)

/-- HALTER_DOUBLE_BIT_ERROR: a double-bit error in the island's SRAM (R479). -/
def execHalterDoubleBitError (t : Nat) (s : State) : Host.Outcome State Fault Refusal :=
  let s := s.at t
  .next (if s.hltPowered then s.selfFault else s)

/-! ### The fallback table -/

/-- HLT_FB_LOAD: a write of `GO` starts a load, ignored while one runs (R494). -/
def execHltFbLoad (t i v : Nat) (s : State) : Host.Outcome State Fault Refusal :=
  let s := s.at t
  .next (if !s.regAllowed i true bHLT 0x30C then s.deny i true (regBase + bHLT * 0x100000 + 0x30C)
  else if bit v 0 = 0 ∨ s.rd bHLT HLT_FB_LOAD_BUSY = 1 then s
  else
    let s := s.setHlt { s.hlt with loading := some (s.rd64 bHLT HLT_FB_TAB_LO HLT_FB_TAB_HI, s.rd bHLT HLT_FB_LEN) }
    s.wr bHLT HLT_FB_LOAD_BUSY 1)

/-- How a load of a fallback table ends: its status, and the table on success (R494). -/
def State.fbLoadResult (s : State) (a n : Nat) : Nat × Option FbTable :=
  if a % 64 ≠ 0 then (0x0808, none)
  else if !inDram a n then (0x0201, none)
  else if s.poisoned a n then (0x0304, none)
  else match parseFbTable (s.bytes a n) with
    | some f => (0, some f)
    | none => (0x0506, none)

/-- FB_LOAD_DONE: the load ends (R494). -/
def execFbLoadDone (t : Nat) (s : State) : Host.Outcome State Fault Refusal :=
  let s := s.at t
  .next (match s.hlt.loading with
  | none => s
  | some (a, n) =>
    let r := s.fbLoadResult a n
    let t := if a % 64 = 0 ∧ inDram a n then (s.hwRead 0xA1 a n).1 else s
    let s := t.setHlt { t.hlt with loading := none, shadow := r.2.getD s.hlt.shadow }
    (s.wr bHLT HLT_FB_LOAD_BUSY 0).wr bHLT HLT_FB_LOAD_LOAD_STATUS r.1)

/-! ### The rule table -/

/-- Rule `k` of a table in memory: base, limit, read mask, write mask and flags (R497). -/
def State.ruleAt (s : State) (a k : Nat) : List Nat :=
  let b := a + 16 * k
  [s.readLE b 8, s.readLE (b + 8) 4, s.byte (b + 12), s.byte (b + 13), s.byte (b + 14)]

/-- Whether pages `x` to `y` overlap a rule. -/
def ruleTouches (r : List Nat) (x y : Nat) : Bool := decide (nth 0 r 0 ≤ y) && decide (x ≤ nth 0 r 1)

/-- Whether a valid rule grants what a fixed rule of R496 refuses: the register space to a group other than G0, G1, G5 and
G7, or a write of the `HLT` block or of the flash's option area to a group other than G7. -/
def ruleBreaks (r : List Nat) : Bool :=
  bit (nth 0 r 4) 0 == 1 && decide (nth 0 r 0 ≤ nth 0 r 1) &&
  ((ruleTouches r (regBase / 4096) ((regBase + 0x100 * 0x100000) / 4096 - 1) &&
      ((nth 0 r 2).lor (nth 0 r 3)).land 0x5C != 0) ||
    (ruleTouches r ((regBase + bHLT * 0x100000) / 4096) ((regBase + (bHLT + 1) * 0x100000) / 4096 - 1) &&
      (nth 0 r 3).land 0x7F != 0) ||
    (ruleTouches r ((flashBase + 0xC000000) / 4096) ((flashBase + 0xC002000) / 4096 - 1) && (nth 0 r 3).land 0x7F != 0))

/-- How a submitted table is judged (R497): refused during a job or for a broken fixed rule, and by the errors its read can
meet. -/
def State.fwReqStatus (s : State) (a : Nat) : Nat :=
  if s.jobRun then 0x0101
  else if !inDram a 1024 then 0x0201
  else if s.poisoned a 1024 then 0x0304
  else if (List.range 64).any (fun k => ruleBreaks (s.ruleAt a k)) then 0x0101
  else 0

/-- Halter reads a submitted table, unless a job runs, with the check of every unit (R497). -/
def State.fwRead (s : State) (a : Nat) : State := if s.jobRun ∨ !inDram a 1024 then s else (s.hwRead 0xA0 a 1024).1

/-- HLT_FW_REQ_GO: a write submits a rule table, which replaces the whole table (R497). -/
def execHltFwReqGo (t i v : Nat) (s : State) : Host.Outcome State Fault Refusal :=
  let s := s.at t
  .next (if !s.regAllowed i true bHLT 0x418 then s.deny i true (regBase + bHLT * 0x100000 + 0x418)
  else if bit v 0 = 0 then s
  else
    let a := s.rd64 bHLT HLT_FW_REQ_LO HLT_FW_REQ_HI
    let st := s.fwReqStatus a
    let t := s.fwRead a
    let s1 := if st = 0 then
        t.setHlt { t.hlt with
          rules := (List.range 64).foldl (fun m k => Store.put [] m k
            (if bit (nth 0 (s.ruleAt a k) 4) 0 = 1 then s.ruleAt a k else [])) [] }
      else t
    s1.wr bHLT HLT_REQ_STAT st)

end Sys2Proof.Machine
end

