-- ==== Sys2Proof/Machine/Dma.lean ====
section
/-!
DEFINITION. The DMA engine (R563-R584).
-/

namespace Sys2Proof.Machine

/-- The initiator of channel `n` (R495, R563). -/
def iDMA (n : Nat) : Nat := 0x100 + n

/-- Channel `n`. -/
def State.dmaX (s : State) (n : Nat) : Dma := Store.get {} s.dma.ch n

/-- Replace channel `n`. -/
def State.setDma (s : State) (n : Nat) (x : Dma) : State := { s with dma := { s.dma with ch := Store.put {} s.dma.ch n x } }

/-- Whether the source of a channel is a MAC (R563). -/
def dmaRx (n : Nat) : Bool := n == 29 || n == 31

/-- Whether the destination of a channel is a MAC (R563). -/
def dmaTx (n : Nat) : Bool := n == 28 || n == 30

/-- The Ethernet port of a MAC's channel. -/
def dmaPort (n : Nat) : Nat := (n - 28) / 2

def DmaSeg.srcHost (g : DmaSeg) : Bool := bit g.flags 0 == 1
def DmaSeg.dstHost (g : DmaSeg) : Bool := bit g.flags 1 == 1
def DmaSeg.isLast (g : DmaSeg) : Bool := bit g.flags 2 == 1

/-- The Ethernet port `p` beside its registers. -/
def State.ethX (s : State) (p : Nat) : EthPort := Store.get {} s.eth p

/-- Replace it. -/
def State.setEth (s : State) (p : Nat) (x : EthPort) : State := { s with eth := Store.put {} s.eth p x }

/-- How an access to host memory ends (R559): FENCED_ABORT under a fence of the endpoint, BUS_ERROR without a link. -/
def State.hostStatus (s : State) : Nat :=
  if s.rd bPCIE COM_FENCE_FENCE = 1 then 0x0202
  else if s.isOn bPCIE && s.rd bPCIE PCIE_STAT_LINK_UP == 1 then 0 else 0x0201

/-- Whether the key-value cache unit owns channel `n` (R564). -/
def State.dmaOwned (s : State) (n : Nat) : Bool :=
  decide (n < 28) && s.rd bKVC KVC_SWAP_CFG_EN == 1 && s.rd bKVC KVC_SWAP_CFG_DMA_CH == n

/-- Whether a write of a channel's start or kick by initiator `i` must be ignored (R564). -/
def State.dmaRefuses (s : State) (i n : Nat) : Bool := s.dmaOwned n && i != 0x61

/-- `DMAn_CUR`. -/
def State.dmaCur (s : State) (n : Nat) : Nat := s.rd64 (bDMA n) DMA_CUR_LO DMA_CUR_HI

/-- Set `DMAn_CUR`. -/
def State.setCur (s : State) (n a : Nat) : State := s.wr64 (bDMA n) DMA_CUR_LO DMA_CUR_HI a

/-- Whether a channel works: ON, or finishing a transfer on its way out (R582), and not fenced. -/
def State.dmaRuns (s : State) (n : Nat) : Bool :=
  let f := s.fsm (bDMA n)
  decide (n < 32) && s.rd (bDMA n) COM_FENCE_FENCE == 0 &&
  (f == fON || ((f == fSTOPPING || f == fPENDING) && !(s.dmaX n).segs.isEmpty))

/-! ### Descriptors (R565-R568) -/

/-- The segment that a descriptor's bytes give. -/
def segOf (a : Nat) (b : List Nat) : DmaSeg :=
  let f (o n : Nat) : Nat := leNat ((b.drop o).take n)
  { addr := a, src := f 0 8, dst := f 8 8, len := f 0x10 4, flags := f 0x14 2, next := f 0x18 8, tag := f 0x20 8 }

/-- Whether a descriptor passes R567. -/
def segPasses (n : Nat) (g : DmaSeg) (b : List Nat) : Bool :=
  let clash := !dmaRx n && !dmaTx n && !g.srcHost && !g.dstHost && decide (g.src < g.dst + g.len) && decide (g.dst < g.src + g.len)
  decide (1 ≤ g.len) && decide (g.len ≤ 67108864) && decide (g.flags < 64) && leNat ((b.drop 0x16).take 2) == 0 &&
  (b.drop 0x2A).all (· == 0) && (!dmaTx n || g.dst == 0) && (!dmaRx n || g.src == 0) && !clash

/-- The 64-byte lines that a range touches. -/
def dmaLines (a n : Nat) : Nat := if n = 0 then 0 else (a + n - 1) / 64 - a / 64 + 1

/-- The operations of a segment (R574). -/
def dmaOps (n : Nat) (g : DmaSeg) : Nat :=
  (if dmaRx n then 0 else if g.srcHost then ceilDiv g.len 64 else dmaLines g.src g.len) +
  (if dmaTx n then 0 else if g.dstHost then ceilDiv g.len 64 else dmaLines g.dst g.len)

/-- The first line of a module range that an access would be refused on, as a byte offset into the range. -/
def State.badLine (s : State) (i : Nat) (write : Bool) (a n : Nat) : Option (Nat × Nat) :=
  ((List.range (dmaLines a n)).map (fun k => a - a % 64 + 64 * k)).findSome? (fun l =>
    if inStore l 64 && s.spadOpen l && s.memAllowed i write l 64 then none else some (l, l - a))

/-! ### Moving along the list (R580, R581) -/

/-- The channel waits at the end of its list. -/
def State.dmaIdle (s : State) (n : Nat) : State := (s.setDma n { s.dmaX n with armed := false }).wr (bDMA n) DMA_STAT_IDLE 1

/-- Go on behind a segment: to the next descriptor, or to idle at the end of the list. -/
def State.dmaAdvance (s : State) (n : Nat) (g : DmaSeg) : State :=
  let x := s.dmaX n
  let s := s.setDma n { x with last := some g.addr, closed := x.closed || g.isLast }
  if g.next = 0 then s.dmaIdle n else s.setCur n g.next

/-- Give the first segment without a status its status. -/
def segsDone (st wrote : Nat) : List DmaSeg → List DmaSeg
  | [] => []
  | g :: r => if g.status.isNone then { g with status := some st, wrote := wrote } :: r else g :: segsDone st wrote r

/-- The segment that runs. -/
def Dma.running (x : Dma) : Option DmaSeg := x.segs.find? (fun g => g.status.isNone)

/-- Count bytes written; the two counters form one. -/
def State.dmaBytes (s : State) (n k : Nat) : State :=
  let b := bDMA n
  let v := s.cnt b DMA_CNT_BYTES_LO + 4294967296 * s.cnt b DMA_CNT_BYTES_HI + k
  (s.setCnt b DMA_CNT_BYTES_LO (v % 4294967296)).setCnt b DMA_CNT_BYTES_HI (v / 4294967296)

/-- The running segment ends with a status and the bytes it wrote (R569, R576). -/
def State.segEnd (s : State) (n st wrote : Nat) : State :=
  let x := s.dmaX n
  match x.running with
  | none => s
  | some g =>
    let b := bDMA n
    let s := (s.setDma n { x with segs := segsDone st wrote x.segs, left := 0 }).dmaBytes n wrote
    let s := if st = 0x0304 then s.inc b DMA_CNT_POISON else if st = 0x0808 then s.inc b DMA_CNT_PARAM else s
    if dmaRx n then s else s.dmaAdvance n g

/-- A failure halts the channel (R578): the first is latched. -/
def State.dmaHalt (s : State) (n k a st : Nat) (desc host write : Bool) : State :=
  let b := bDMA n
  let s := s.inc b DMA_CNT_BUS_ERR
  let x := s.dmaX n
  let s := s.setDma n { x with failed := true, frame := [], bad := false }
  if s.rd b DMA_STAT_HALTED = 1 then s
  else
    let s := s.wr64 b DMA_ERR_ADDR_LO DMA_ERR_ADDR_HI a
    let s := ((s.wr b DMA_ERR_INFO_STATUS st).wr b DMA_ERR_INFO_SEGMENT (min k 63)).wr b DMA_ERR_INFO_DESC (if desc then 1 else 0)
    let s := (s.wr b DMA_ERR_INFO_HOST (if host then 1 else 0)).wr b DMA_ERR_INFO_WRITE (if write then 1 else 0)
    (s.wr b DMA_STAT_HALTED 1).raise 0x0A03 b n a

/-- The number of the running segment. -/
def Dma.index (x : Dma) : Nat := (x.segs.takeWhile (fun g => g.status.isSome)).length

/-- The running segment fails on an access after it wrote `wrote` bytes. -/
def State.segFail (s : State) (n a st wrote : Nat) (host write : Bool) : State :=
  (s.dmaHalt n (s.dmaX n).index a st false host write).segEnd n st wrote

/-! ### The copy (R569-R573) -/

/-- Write bytes to a segment's destination from its first byte on; a range the firewall lets pass.  The parts `bad` carry poison: TLPs with
them are sent poisoned, a frame with any of them ends with a wrong FCS, and lines that take any of them are stored poisoned. -/
def State.dmaPut (s : State) (n : Nat) (g : DmaSeg) (bs : List Nat) (bad : List (Nat × Nat)) : State :=
  if bs.isEmpty then s
  else if dmaTx n then
    let x := s.dmaX n
    s.setDma n { x with frame := x.frame ++ bs, bad := x.bad || !bad.isEmpty }
  else if g.dstHost then
    { s with out := ((poisonRuns bad 0 bs).map (fun e => Out.host (g.dst + e.1) e.2.1 e.2.2)).reverse ++ s.out }
  else (s.hwWriteParts (iDMA n) g.dst bs bad).1

/-- The destination takes the bytes of a segment, or fails. -/
def State.dmaStore (s : State) (n : Nat) (g : DmaSeg) (bs : List Nat) (poison : List (Nat × Nat)) : State :=
  if g.dstHost && !dmaTx n && s.hostStatus != 0 then s.segFail n (g.dst - g.dst % 4) s.hostStatus 0 true true
  else
    let bad := if dmaTx n || g.dstHost then none else s.badLine (iDMA n) true g.dst bs.length
    match bad with
    | some e =>
      let f := s.takeFree
      let k := Config.freeNat f.1 % (e.2 + 1)
      let s := f.2.dmaPut n g (bs.take k) (poison.filter (fun e => decide (e.1 < k)))
      ((s.checkStore (iDMA n) true e.1 64).1).segFail n e.1 0x0201 k false true
    | none => (s.dmaPut n g bs poison).segEnd n (if poison.isEmpty then 0 else 0x0304) bs.length

/-- Copy a segment: `data` is what the host answers, and `poison` the numbers of its 64-byte blocks that came poisoned. -/
def State.dmaCopy (s : State) (n : Nat) (g : DmaSeg) (data : List Nat) (poison : List Nat) : State :=
  if g.srcHost && !dmaRx n then
    if s.hostStatus ≠ 0 then s.segFail n (g.src - g.src % 4) s.hostStatus 0 true false
    else s.dmaStore n g ((data ++ List.replicate g.len 0).take g.len)
      ((poison.filter (fun k => decide (64 * k < g.len))).map (fun k => (64 * k, min 64 (g.len - 64 * k))))
  else
    match s.badLine (iDMA n) false g.src g.len with
    | some e =>
      let f := s.takeFree
      let k := Config.freeNat f.1 % (e.2 + 1)
      let r := f.2.hwRead (iDMA n) g.src k
      let ok := dmaTx n || (g.dstHost && s.hostStatus == 0) || (!g.dstHost && (s.badLine (iDMA n) true g.dst k).isNone)
      let s := if ok && k != 0 then r.1.dmaPut n g r.2.2 (r.1.lineParts g.src k) else r.1
      ((s.checkStore (iDMA n) false e.1 64).1).segFail n e.1 0x0201 (if ok then k else 0) false false
    | none =>
      let r := s.hwRead (iDMA n) g.src g.len
      r.1.dmaStore n g r.2.2 (r.1.lineParts g.src g.len)

/-- Receive the next part of a frame into the running segment (R577): a frame that the transfer cannot hold is dropped. -/
def State.dmaReceive (s : State) (n : Nat) (x : Dma) (g : DmaSeg) : State :=
  let p := dmaPort n
  match (s.ethX p).rx with
  | [] => s
  | f :: rest =>
    let runs := x.segs.filter (fun h => h.status.isNone || h.wrote != 0 || h.status == some 0)
    if (runs.map DmaSeg.len).foldl (· + ·) 0 < f.length then
      (s.setEth p { s.ethX p with rx := rest }).inc (bETH p) ETH_CNT_RX_DROP
    else
      let done := (x.segs.map DmaSeg.wrote).foldl (· + ·) 0
      let bs := (f.drop done).take g.len
      let s := s.dmaStore n g bs []
      if (s.dmaX n).running.isNone then s.setEth p { s.ethX p with rx := rest } else s

/-! ### Records (R575-R577) -/

/-- The statuses of a transfer's segments, a failed descriptor fetch included. -/
def Dma.statuses (x : Dma) : List Nat :=
  x.segs.map (fun g => g.status.getD 0) ++ (match x.fetch with
    | some e => [e.2]
    | none => [])

/-- The completion record of a transfer. -/
def State.dmaRecord (s : State) (x : Dma) (at_ : Nat) : List Nat :=
  let l := x.statuses
  let g0 := (x.segs.head?).getD { addr := at_ }
  let bad := (List.range l.length).filter (fun k => nth 0 l k != 0)
  let mask := (List.range 64).foldl (fun m k =>
    if bad.any (fun b => b == k || (k == 63 && decide (63 < b))) then m + 2 ^ k else m) 0
  leBytes 8 g0.tag ++ leBytes 8 g0.addr ++ leBytes 4 ((x.segs.map DmaSeg.wrote).foldl (· + ·) 0) ++
  leBytes 2 (match bad with
    | k :: _ => nth 0 l k
    | [] => 0) ++ [x.segs.length % 256, match bad with
    | k :: _ => min k 0xFF
    | [] => 0xFF] ++ leBytes 8 mask ++ leBytes 4 s.tbSec ++ leBytes 4 s.tbNs ++ List.replicate 24 0

/-- A transfer whose record is dealt with is over: its event, and the way on. -/
def State.dmaFinish (s : State) (n : Nat) (evt : Bool) (tag : Nat) : State :=
  let x := s.dmaX n
  let s := s.inc (bDMA n) DMA_CNT_TRANSFERS
  let s := if evt then s.raise 0x0A01 (bDMA n) n tag else s
  let s := s.setDma n { armed := x.armed && x.fetch.isNone, last := x.last, used := x.used }
  if x.fetch.isSome && s.rd (bDMA n) DMA_STAT_HALTED == 0 then s.dmaIdle n else s

/-- Append a record, or hold it while the ring is full; a write that fails sends the channel to FAULT. -/
def State.dmaAppend (s : State) (n : Nat) (rec : List Nat) (evt : Bool) : State :=
  let b := bDMA n
  let x := s.dmaX n
  let w := s.rd b DMA_CQ_WR
  let sz := s.rd b DMA_CQ_SIZE
  if ringFull w (s.rd b DMA_CQ_RD) sz then
    let s := s.setDma n { x with record := some (rec, evt, true) }
    if s.rd b DMA_STAT_CQ_FULL = 1 then s
    else ((s.wr b DMA_STAT_CQ_FULL 1).inc b DMA_CNT_CQ_FULL).raise 0x0A02 b n
  else
    let r := s.hwWrite (iDMA n) (s.rd64 b DMA_CQ_BASE_LO DMA_CQ_BASE_HI + 64 * (w % 2 ^ sz)) rec
    if r.2 ≠ 0 then r.1.toFault b
    else ((r.1.wr b DMA_CQ_WR (w + 1)).wr b DMA_STAT_CQ_FULL 0).dmaFinish n evt (leNat (rec.take 8))

/-- Whether a transfer has finished: its last descriptor has been fetched and every segment has its status. -/
def Dma.finished (x : Dma) : Bool := x.closed && x.running.isNone

/-- Complete a finished transfer. -/
def State.dmaComplete (s : State) (n : Nat) : State :=
  let x := s.dmaX n
  let r := x.segs.foldl (fun (q : State × Bool) g =>
    let w := q.1.hwWrite (iDMA n) (g.addr + 0x28) (leBytes 2 (g.status.getD 0))
    (w.1, q.2 && w.2 == 0)) (s, true)
  let s := r.1
  if !r.2 then s.toFault (bDMA n)
  else
    let g0 := (x.segs.head?).getD {}
    let evt := bit g0.flags 5 == 1
    let ok := x.statuses.all (· == 0)
    let s := if dmaTx n && !x.failed && !x.frame.isEmpty then
        let e := s.ethX (dmaPort n)
        s.setEth (dmaPort n) { e with tx := e.tx ++ [(x.frame, x.bad)] }
      else s
    if ok && bit g0.flags 4 == 1 then s.dmaFinish n evt g0.tag
    else s.dmaAppend n (s.dmaRecord x (s.dmaCur n)) evt

/-- A held record is written as soon as there is room (R577). -/
def State.dmaFlush (s : State) (n : Nat) : State :=
  match (s.dmaX n).record with
  | some r => if s.dmaRuns n then s.dmaAppend n r.1 r.2.1 else s
  | none => s

/-! ### Budgets (R574) -/

/-- The operations that channel `n` may still do in this window. -/
def State.dmaRoom (s : State) (n : Nat) : Nat :=
  let k := s.rd (bDMA n) DMA_CFG_SHARE
  if k = 0 then 1024 - s.dma.total else min (1024 - s.dma.total) (4 * k - (s.dmaX n).used)

/-- Channel `n` does `k` operations of its running segment. -/
def State.dmaSpend (s : State) (n k : Nat) : State :=
  let x := s.dmaX n
  let s := (s.setDma n { x with left := x.left - k, used := x.used + k }).inc (bDMA n) DMA_CNT_LINE_OPS k
  { s with dma := { s.dma with total := s.dma.total + k } }

/-- Serve the channels in turn, one operation each, for up to `r` turns. -/
def State.dmaTurns : Nat → State → State
  | 0, s => s
  | r + 1, s =>
    let t := (List.range 32).foldl (fun (q : State × Bool) n =>
      if (q.1.dmaX n).left ≠ 0 ∧ q.1.dmaRoom n ≠ 0 then (q.1.dmaSpend n 1, true) else q) (s, false)
    if t.2 then State.dmaTurns r t.1 else t.1

/-! ### The commands -/

/-- The address of a DMA register. -/
def dmaReg (n off : Nat) : Nat := regBase + bDMA n * 0x100000 + off

/-- DMA_HEAD_LO: a write of `DMAn_HEAD_LO` by initiator `i` (R580). -/
def execDmaHeadLo (t i n v : Nat) (s : State) : Host.Outcome State Fault Refusal :=
  let s := s.at t
  let b := bDMA n
  .next (if 32 ≤ n then s
  else if !s.regAllowed i true b 0x108 then s.deny i true (dmaReg n 0x108)
  else if !s.domOn b then s
  else if s.dmaRefuses i n then s.wr b DMA_STAT_REFUSED 1
  else if s.fsm b = fOFF ∨ (s.fsm b = fON ∧ s.rd b COM_FENCE_FENCE = 0 ∧ s.rd b DMA_STAT_IDLE = 1) then
    let s := s.wr b DMA_HEAD_LO v
    ((s.setCur n (s.rd64 b DMA_HEAD_LO DMA_HEAD_HI)).setDma n { s.dmaX n with armed := true, segs := [], closed := false, failed := false, fetch := none }).wr b
      DMA_STAT_IDLE 0
  else s.wr b DMA_STAT_REFUSED 1)

/-- DMA_KICK: a write `v` of `DMAn_KICK` by initiator `i` (R581). -/
def execDmaKick (t i n v : Nat) (s : State) : Host.Outcome State Fault Refusal :=
  let s := s.at t
  let b := bDMA n
  .next (if 32 ≤ n then s
  else if !s.regAllowed i true b 0x110 then s.deny i true (dmaReg n 0x110)
  else if !s.domOn b || bit v 0 == 0 then s
  else if s.dmaRefuses i n then s.wr b DMA_STAT_REFUSED 1
  else if s.dmaRuns n && s.rd b DMA_STAT_IDLE == 1 then
    match (s.dmaX n).last with
    | none => s
    | some a =>
      let r := s.hwRead (iDMA n) (a + 0x18) 8
      let k := (s.dmaX n).segs.length
      if r.2.1 ≠ 0 then
        (r.1.setDma n { r.1.dmaX n with fetch := some (k, r.2.1), closed := true }).dmaHalt n k a r.2.1 true false false
      else if leNat r.2.2 = 0 then r.1
      else ((r.1.setCur n (leNat r.2.2)).setDma n { r.1.dmaX n with armed := true }).wr b DMA_STAT_IDLE 0
  else s)

/-- Whether a channel can fetch: a descriptor waits at `DMAn_CUR`, the transfer's last one has not been fetched, nothing runs (a
receive channel fetches the whole transfer first), no record waits, and a halt leaves it only the rest of the failed transfer. -/
def State.dmaFetches (s : State) (n : Nat) : Bool :=
  let x := s.dmaX n
  s.dmaRuns n && x.armed && !x.closed && x.record.isNone && (dmaRx n || x.running.isNone) &&
  (s.rd (bDMA n) DMA_STAT_HALTED == 0 || x.failed)

/-- DESCRIPTOR_FETCH: channel `n` fetches the descriptor at `DMAn_CUR` (R566, R567, R578). -/
def execDescriptorFetch (t n : Nat) (s : State) : Host.Outcome State Fault Refusal :=
  let s := s.at t
  .next (if !s.dmaFetches n then s
  else
    let b := bDMA n
    let a := s.dmaCur n
    let r := s.hwRead (iDMA n) a 64
    let s := r.1
    let x := s.dmaX n
    let k := x.segs.length
    if r.2.1 ≠ 0 then
      (s.setDma n { x with fetch := some (k, r.2.1), closed := true, armed := false }).dmaHalt n k (a - a % 64) r.2.1 true false false
    else
      let g := segOf a r.2.2
      let s := (s.setDma n { x with segs := x.segs ++ [g], left := dmaOps n g }).inc b DMA_CNT_SEGMENTS
      let s := if x.failed then s.segEnd n 0x0204 0
        else if 64 ≤ k ∨ !segPasses n g r.2.2 then
          (if dmaRx n then (s.setDma n { s.dmaX n with segs := x.segs ++ [{ g with status := some 0x0808 }], left := 0 }).inc b DMA_CNT_PARAM
           else s.segEnd n 0x0808 0)
        else s
      if dmaRx n then s.dmaAdvance n g else s)

/-- SEGMENT_DONE: the running segment of channel `n` is copied (R569): `data` is what the host has answered for a source in host memory, and
`poison` the numbers of its 64-byte blocks that came poisoned.  The budget of R574 must allow what is left of it. -/
def execSegmentDone (t n : Nat) (data poison : List Nat) (s : State) : Host.Outcome State Fault Refusal :=
  let s := s.at t
  let x := s.dmaX n
  .next (if !s.dmaRuns n || s.rd (bDMA n) DMA_STAT_HALTED == 1 || x.record.isSome || decide (s.dmaRoom n < x.left) then s
  else match x.running with
    | none => s
    | some g =>
      if dmaRx n then (if x.closed then s.dmaReceive n x g else s)
      else (s.dmaSpend n x.left).dmaCopy n g data poison)

/-- TRANSFER_COMPLETE: the writes of channel `n`'s finished transfer have been acknowledged (R575). -/
def execTransferComplete (t n : Nat) (s : State) : Host.Outcome State Fault Refusal :=
  let s := s.at t
  .next (if s.dmaRuns n && (s.dmaX n).finished && (s.dmaX n).record.isNone then s.dmaComplete n else s)

/-- DMA_BUS_ERROR: an access of channel `n`'s running segment to host memory at `a` fails with status `st` after the bytes `data` have been
copied (R578). -/
def execDmaBusError (t n : Nat) (wr : Bool) (a st : Nat) (data : List Nat) (s : State) : Host.Outcome State Fault Refusal :=
  let s := s.at t
  let x := s.dmaX n
  .next (if !s.dmaRuns n || s.rd (bDMA n) DMA_STAT_HALTED == 1 || x.record.isSome then s
  else match x.running with
    | none => s
    | some g =>
      if (st ≠ 0x0201 ∧ st ≠ 0x0202) ∨ !(if wr then g.dstHost && !dmaTx n else g.srcHost && !dmaRx n) then s
      else
        let k := min data.length g.len
        let bs := if g.srcHost then data.take k else s.bytes g.src k
        let ok := dmaTx n || g.dstHost || (s.badLine (iDMA n) true g.dst k).isNone
        let s := if ok then s.dmaPut n g bs (if g.srcHost then [] else s.lineParts g.src k) else s
        s.segFail n (a - a % 4) st (if ok then k else 0) true wr)

/-- HALTED_CLEAR: a write of 1 to `HALTED` by initiator `i` (R579). -/
def execHaltedClear (t i n : Nat) (s : State) : Host.Outcome State Fault Refusal :=
  let s := s.at t
  let b := bDMA n
  .next (if 32 ≤ n then s
  else if !s.regAllowed i true b 0x104 then s.deny i true (dmaReg n 0x104)
  else if !s.domOn b then s
  else
    let s := s.wr b DMA_STAT_HALTED 0
    let x := s.dmaX n
    if s.fsm b = fON ∧ !x.armed ∧ x.segs = [] ∧ x.record = none ∧ !x.closed then s.dmaIdle n else s)

/-- DMA_BUDGET_WINDOW: a new window of 1.024 µs (R574). -/
def execDmaBudgetWindow (t : Nat) (s : State) : Host.Outcome State Fault Refusal :=
  let s := s.at t
  .next (if s.now < s.dma.win + 1024 then s
  else
    let s := State.dmaTurns 1024 s
    let s := (List.range 32).foldl (fun s n =>
      let x := s.dmaX n
      let k := s.rd (bDMA n) DMA_CFG_SHARE
      let s := if x.left ≠ 0 ∧ k ≠ 0 ∧ 4 * k ≤ x.used then s.inc (bDMA n) DMA_CNT_BUDGET_WAIT else s
      s.setDma n { x with used := 0 }) s
    { s with dma := { s.dma with total := 0, win := s.now } })

/-! ### States (R580, R582, R583) -/

/-- The channel enters ON: it goes on at `DMAn_CUR`, or waits. -/
def State.dmaOn (s : State) (n : Nat) : State := if (s.dmaX n).armed then s.wr (bDMA n) DMA_STAT_IDLE 0 else s.dmaIdle n

/-- Whether a stopping channel is ready for OFF: no transfer is under way, or it waits at the end of the list. -/
def State.dmaStops (s : State) (n : Nat) : Bool :=
  let x := s.dmaX n
  x.record.isNone && (x.segs.isEmpty || s.rd (bDMA n) DMA_STAT_IDLE == 1) && x.fetch.isNone

/-- The running segment of a channel is cut short (R583): of a copy inside the module an open number of bytes has been written. -/
def State.dmaCut (s : State) (n : Nat) (g : DmaSeg) : State :=
  let f := s.takeFree
  let k := Config.freeNat f.1 % (g.len + 1)
  if k = 0 ∨ g.srcHost ∨ g.dstHost ∨ dmaRx n ∨ dmaTx n ∨ (s.badLine (iDMA n) false g.src k).isSome ∨
    (s.badLine (iDMA n) true g.dst k).isSome then f.2
  else
    let r := f.2.hwRead (iDMA n) g.src k
    r.1.dmaPut n g r.2.2 (r.1.lineParts g.src k)

/-- A fence: what was outstanding is aborted, with no status and no record; `DMAn_CUR` keeps the descriptor that ran (R583). -/
def State.dmaFence (s : State) (n : Nat) : State :=
  let p := dmaPort n
  let s := match (s.dmaX n).running with
    | some g => (s.dmaCut n g).setCur n g.addr
    | none => s
  let s := if dmaRx n then s.setEth p { s.ethX p with rx := [] } else s
  s.setDma n { last := (s.dmaX n).last }

/-- Outbound DMA in flight fails: the link is lost or the endpoint is fenced (R559). -/
def State.dmaHostFails (s : State) (st : Nat) : State :=
  (List.range 28).foldl (fun s n =>
    let x := s.dmaX n
    match x.running with
    | some g =>
      if s.dmaRuns n && (g.srcHost || g.dstHost) && s.rd (bDMA n) DMA_STAT_HALTED == 0 then
        s.segFail n (if g.srcHost then g.src - g.src % 4 else g.dst - g.dst % 4) st 0 true (!g.srcHost)
      else s
    | none => s) s

end Sys2Proof.Machine
end

