-- ==== Sys2Proof/Machine/SchedCore.lean ====
section
/-!
DEFINITION. The scheduler's commands in flight, the shard map, and the end of a command's tiles (R192, R244, R245, R369-R371,
R405-R411).
-/

namespace Sys2Proof.Machine

/-- The inside of cluster `c`. -/
def State.cluX (s : State) (c : Nat) : Clu := Store.get {} s.clu c

/-- Replace the inside of cluster `c`. -/
def State.setClu (s : State) (c : Nat) (x : Clu) : State := { s with clu := Store.put {} s.clu c x }

/-- The tile that cluster `c` runs. -/
def State.tileOf (s : State) (c : Nat) : Option Tile := (s.cluX c).tile

/-- Replace the tile of cluster `c`. -/
def State.setTile (s : State) (c : Nat) (t : Option Tile) : State := s.setClu c { s.cluX c with tile := t }

/-- Cluster `c`'s tile is over: it reads its pages no more (R329). -/
def State.dropTile (s : State) (c : Nat) : State :=
  match s.tileOf c with
  | some t => t.pages.foldl (fun s i => s.updPage i (fun g => { g with inflight := g.inflight - 1 })) (s.setTile c none)
  | none => s

/-- The queue pointer of a queue and a descriptor index (R341). -/
def qptr (q i : Nat) : Nat := q * 67108864 + i % 65536

/-- The queue of a queue pointer. -/
def qOf (x : Nat) : Nat := x / 67108864

/-- The queue pointer of a command. -/
def Cmd.ptr (x : Cmd) : Nat := qptr x.q x.idx

/-- The command in flight that a queue pointer names. -/
def State.cmd? (s : State) (x : Nat) : Option Cmd := s.sch.cmds.find? (fun c => c.ptr == x)

/-- Change the command in flight that a queue pointer names. -/
def State.modCmd (s : State) (x : Nat) (f : Cmd → Cmd) : State :=
  s.setSch { s.sch with cmds := s.sch.cmds.map (fun c => if c.ptr == x then f c else c) }

/-! ### The shard map (R370, R371, R411) -/

/-- The module that shard `j`'s active entry names. -/
def State.mapModule (s : State) (j : Nat) : Nat :=
  s.rd bSCH (if j % 2 = 0 then SCH_MAP_MODULE0 (j / 2) else SCH_MAP_MODULE1 (j / 2))

/-- The home cluster written in shard `j`'s active entry. -/
def State.mapHomeRaw (s : State) (j : Nat) : Nat :=
  s.rd bSCH (if j % 2 = 0 then SCH_MAP_HOME0 (j / 2) else SCH_MAP_HOME1 (j / 2))

/-- Set the home cluster of shard `j`'s active entry. -/
def State.setHome (s : State) (j c : Nat) : State :=
  s.wr bSCH (if j % 2 = 0 then SCH_MAP_HOME0 (j / 2) else SCH_MAP_HOME1 (j / 2)) c

/-- The role of cluster `c`: 0 active, 1 spare, 2 disabled. -/
def State.role (s : State) (c : Nat) : Nat := s.rd (bCLU c) CLU_CTRL_ROLE

/-- The active clusters, in cluster order. -/
def State.activeClusters (s : State) : List Nat := (List.range 34).filter (fun c => s.role c == 0)

/-- The home cluster of shard `j`: an entry whose cluster is not active names the lowest-numbered active cluster (R411). -/
def State.mapHome (s : State) (j : Nat) : Nat :=
  let h := s.mapHomeRaw j
  if s.role h = 0 then h else (s.activeClusters.head?).getD h

/-- Whether this module runs the tiles of shard `j` (R371): never while it is out of compute (R408). -/
def State.ownShard (s : State) (j : Nat) : Bool := s.mapModule j == s.modulePos && bit s.lnk.out s.modulePos == 0

/-- Move shard `j`'s active entry to a cluster of a module. -/
def State.setShard (s : State) (j m c : Nat) : State :=
  (s.wr bSCH (if j % 2 = 0 then SCH_MAP_MODULE0 (j / 2) else SCH_MAP_MODULE1 (j / 2)) m).setHome j c

/-- The next of this module's tiles of a command, one of each shard at most in a range. -/
def ownTiles (s : State) (x : Cmd) : List Nat :=
  x.todo.flatMap (fun r => ((List.range (min (r.2 - r.1) x.shards)).map (fun k => r.1 + k)).filter
    (fun t => s.ownShard (t % x.shards)))

/-- Take tile `t` out of the ranges not yet dispatched. -/
def todoTake (l : List (Nat × Nat)) (t : Nat) : List (Nat × Nat) :=
  l.flatMap (fun r =>
    if r.1 ≤ t ∧ t < r.2 then ((if r.1 < t then [(r.1, t)] else []) ++ (if t + 1 < r.2 then [(t + 1, r.2)] else [])) else [r])

/-- Put tile `t` back among the ranges not yet dispatched. -/
def todoPut : List (Nat × Nat) → Nat → List (Nat × Nat)
  | [], t => [(t, t + 1)]
  | r :: l, t => if t < r.1 then (t, t + 1) :: r :: l else r :: todoPut l t

/-! ### The end of a command -/

/-- Whether a cluster runs, or is bound to run, a tile of a command. -/
def State.runningOf (s : State) (x : Nat) : Bool :=
  (List.range 34).any (fun c => match s.tileOf c with
    | some t => t.q == x
    | none => false) || s.sch.forced.any (fun f => f.q == x)

/-- The status and tile a command ends with (R245, R350, R367). -/
def Cmd.outcome (x : Cmd) : Nat × Nat :=
  if x.aborted then (0x0202, 0xFFFFFFFF)
  else if x.missed then (0x0601, 0xFFFFFFFF)
  else match x.ended, x.fails with
    | some e, _ => (e.2, e.1)
    | none, some e => (e.2, e.1)
    | none, none => (if x.retry then 0x0301 else 0, 0xFFFFFFFF)

/-- Whether a command is a projection or an attention command that has begun: it works on the segments of a batch (R311). -/
def Cmd.isBatch (x : Cmd) : Bool := x.par.headD 0 == 6 || x.par.headD 0 == 7

/-- The segment of a batch command's tile: tile 1024·k + i is a tile of segment i (entry 61). -/
def tileSeg (t : Nat) : Nat := t % 1024

/-- Whether a segment's status says that it is still to run. -/
def toRun (st : Nat) : Bool := decide (0xFFFE ≤ st)

/-- How high a segment status stands (R313). -/
def segStanding (st : Nat) : Nat := if st = 0 then 0 else if st = 0x0303 then 1 else if st = 0x0301 then 2 else 3

/-- The segments of a command's batch whose status stands above `OK`, `ECC_CORRECTED` and `RESIDUE_RETRY_OK` (R347). -/
def State.segsFailed (s : State) (x : Cmd) : Nat :=
  if !x.isBatch then x.failed
  else ((List.range x.lays.length).filter (fun i => segStanding (s.readLE (leNat ((x.par.drop 0x10).take 8) + 32 * i + 0xA) 2) == 3)).length

/-- Whether a command starts no further tile. -/
def Cmd.stopped (x : Cmd) : Bool := x.aborted || x.missed || x.ended.isSome

/-- A command with no tile running and none left to run has its outcome; its completion follows (R347). -/
def State.settleCmd (s : State) (q : Nat) : State :=
  match s.cmd? q with
  | none => s
  | some x =>
    if x.final.isSome ∨ s.runningOf q then s
    else if x.stopped || (x.begun && (ownTiles s x).isEmpty && (ownTiles s { x with todo := x.wait }).isEmpty) then
      s.modCmd q (fun y => { y with final := some y.outcome, failed := s.segsFailed x })
    else s

/-- End a command with a status before any tile runs. -/
def State.refuseCmd (s : State) (q status : Nat) : State :=
  s.modCmd q (fun x => if x.final.isSome then x else { x with final := some (status, 0xFFFFFFFF) })

/-- The lower of two ended tiles. -/
def lowerEnd (e : Option (Nat × Nat)) (t status : Nat) : Option (Nat × Nat) :=
  match e with
  | some e => if e.1 ≤ t then some e else some (t, status)
  | none => some (t, status)

/-- Take the tiles of a segment out of ranges that each lie between two multiples of 1024. -/
def dropSeg (l : List (Nat × Nat)) (i : Nat) : List (Nat × Nat) :=
  l.foldl (fun m r => todoTake m (r.1 / 1024 * 1024 + i)) l

/-- A segment of a batch command ends with a status: it has no further tile (R313). -/
def Cmd.endSeg (x : Cmd) (i st : Nat) : Cmd :=
  { x with sts := x.sts.set i st, todo := dropSeg x.todo i, wait := dropSeg x.wait i }

/-- Write the status of segment `k` into a command's batch descriptor, where it stands higher (R313). -/
def State.writeSegStatus (s : State) (x : Cmd) (k st : Nat) : State :=
  let a := leNat ((x.par.drop 0x10).take 8) + 32 * k + 0xA
  if segStanding (s.readLE a 2) < segStanding st then s.putAs iKVC a (leBytes 2 st) else s

/-- The layer that the lowest-numbered ended stripe of a command ended in (R306). -/
def State.noteLayer (s : State) (q t layer : Nat) : State :=
  s.modCmd q (fun x => if layer == 0 || (match x.ended with
    | some e => decide (e.1 ≤ t)
    | none => false) then x else { x with layer := layer })

/-- Tile `t` of a command ended with a terminating status (R241, R245): the command starts no further tile, or of a batch command no tile of that
segment (R313). -/
def State.endCmdTile (s : State) (q t status : Nat) : State :=
  match s.cmd? q with
  | none => s
  | some x =>
    if !x.isBatch then (s.modCmd q (fun y => { y with ended := lowerEnd y.ended t status })).settleCmd q
    else if !toRun (nth 0 x.sts (tileSeg t)) then s.settleCmd q
    else ((s.writeSegStatus x (tileSeg t) status).modCmd q (fun y =>
      { y.endSeg (tileSeg t) status with fails := lowerEnd y.fails t status })).settleCmd q

/-- The reruns and substitute runs of a stopped command are dropped. -/
def State.dropForced (s : State) (q : Nat) : State :=
  (s.setSch { s.sch with forced := s.sch.forced.filter (fun f => f.q != q) }).settleCmd q

/-! ### Suspects and substitutes (R192, R194, R406, R407) -/

/-- The shards of this module whose home is cluster `c`. -/
def State.shardsOf (s : State) (c : Nat) : List Nat :=
  (List.range 1024).filter (fun j => s.ownShard j && s.mapHome j == c)

/-- The lowest-numbered spare that may substitute. -/
def State.substitute (s : State) : Option Nat :=
  (List.range 34).find? (fun c => s.role c == 1 && s.isOn (bCLU c) && bit (s.rd64 bSCH SCH_SUBST_OK_LO SCH_SUBST_OK_HI) c == 1)

/-- Move every shard of a suspect to its substitute: a spare, or the other active clusters in turn (R406). -/
def State.moveShards (s : State) (c : Nat) : State :=
  let js := s.shardsOf c
  match s.substitute with
  | some d => js.foldl (fun s j => s.setHome j d) (s.wr (bCLU d) CLU_CTRL_ROLE 0)
  | none =>
    let ds := s.activeClusters.filter (fun d => d != c && s.isOn (bCLU d) && !(s.cluX d).untested)
    if ds.isEmpty then s
    else (js.zipIdx).foldl (fun s e => s.setHome e.1 (nth 0 ds (e.2 % ds.length))) s

/-- Clear bit `c` of `SCH_SUBST_OK`. -/
def State.clearSubst (s : State) (c : Nat) : State :=
  let m := s.rd64 bSCH SCH_SUBST_OK_LO SCH_SUBST_OK_HI
  s.wr64 bSCH SCH_SUBST_OK_LO SCH_SUBST_OK_HI (if bit m c = 1 then m - 2 ^ c else m)

/-- Tiles that wait to run again on a cluster that has left service are abandoned (R244): they count as not run. -/
def State.rebind (s : State) (c : Nat) : State :=
  let fs := s.sch.forced.filter (fun f => f.cl == c)
  fs.foldl (fun s f =>
    ((s.inc (bCLU c) CLU_CNT_ABANDON).modCmd f.q (fun x => { x with todo := todoPut x.todo f.tile })).settleCmd f.q)
    (s.setSch { s.sch with forced := s.sch.forced.filter (fun f => f.cl != c) })

/-- Mark cluster `c` suspect (R192 step 3, R195): it enters FAULT and serves again only after a self-test, the report goes out, and its shards move. -/
def State.suspect (s : State) (c t : Nat) (inj : Bool) : State :=
  let s := (s.toFault (bCLU c)).wr (bCLU c) CLU_CTRL_SUSPECT 1
  let s := ((s.clearSubst c).setClu c { s.cluX c with untested := true }).countRep { kind := 7, blk := bCLU c, sub := c, synd := t, status := 0x0302, init := iCLU c, inj := inj }
  (s.moveShards c).rebind c

end Sys2Proof.Machine
end

