-- ==== Sys2Proof/Machine/SchedBase.lean ====
section
/-!
DEFINITION. Which command a cluster serves next: keys, inheritance, ties, and contexts (R348-R353, R358, R371).
-/

namespace Sys2Proof.Machine

/-! ### Queues (R338, R340) -/

def State.qDone (s : State) (q : Nat) : Nat := s.rd bSCH (SCH_Q_PTR_DONE q)
def State.qFetch (s : State) (q : Nat) : Nat := s.rd bSCH (SCH_Q_PTR_FETCH q)
def State.qProd (s : State) (q : Nat) : Nat := Store.get 0 s.sch.prod q
def State.qState (s : State) (q : Nat) : Nat := s.rd bSCH (SCH_Q_CFG_QSTATE q)

/-- How far index `a` lies ahead of `b` modulo 2^16. -/
def ahead (a b : Nat) : Nat := (a + 65536 - b) % 65536

/-- A doorbell (R340): descriptors up to `w` become valid, or the write is ignored and `DB_OVER` set. -/
def State.doorbell (s : State) (q w : Nat) : State :=
  if 2 ^ s.rd bSCH (SCH_Q_CFG_SIZE_LOG2 q) < ahead w (s.qDone q) then s.wr bSCH (SCH_Q_CFG_DB_OVER q) 1
  else s.setSch { s.sch with prod := Store.put 0 s.sch.prod q w }

/-! ### Keys and deadlines (R348, R350) -/

/-- The time base in nanoseconds, seconds × 10^9 + nanoseconds modulo 2^64. -/
def State.nowNs (s : State) : Nat := (s.tbSec * 1000000000 + s.tbNs) % 2 ^ 64

/-- The time key of a command (R348). -/
def State.timeKey (s : State) (x : Cmd) : Option Int :=
  if x.dlKind ≤ 1 then
    let v := max (s.speed x.dlKind).natAbs (s.rd bSCH (SCH_FLOOR x.dlKind))
    some (s.nowNs + (1000000000 * (sext 64 x.deadline - s.pos x.dlKind)) / (256 * v : Nat))
  else if x.dlKind = 2 then some x.deadline
  else none

/-- Whether a command's deadline is passed (R350): a position once reached stays so. -/
def State.dlPassed (s : State) (x : Cmd) : Bool :=
  if x.dlKind ≤ 1 then x.late || decide (sext 64 x.deadline ≤ s.pos x.dlKind)
  else if x.dlKind = 2 then decide (x.deadline ≤ s.nowNs)
  else false

/-! ### Readiness and order -/

/-- The merge entry of a part on a port. -/
def State.mergeOf (s : State) (p part : Nat) : Option Merge :=
  match s.slotOfPart p part with
  | some (k, _) => s.mergeAt p k
  | none => none

/-- Whether context `k` was active at the part start of a command's part (R358), as the part's merge entry tells while it is open. -/
def State.activeAtStart (s : State) (x : Cmd) : Bool :=
  match s.mergeOf x.dlKind x.part with
  | some m => bit m.ctx (s.qCtx x.q) == 1
  | none => false

/-- Whether a command's context is runnable for its part (R358); a command that became ready keeps what its part's start said. -/
def State.runnable (s : State) (x : Cmd) : Bool :=
  let k := s.qCtx x.q
  if 64 ≤ k then true
  else if x.part = 0xFFFFFFFF ∨ 2 ≤ x.dlKind then s.ctxState k == 3
  else (x.atStart || s.activeAtStart x) && decide (3 ≤ s.ctxState k)

/-- The lower of two keys; none lies above every key. -/
def keyMin : Option Int → Option Int → Option Int
  | none, b => b
  | a, none => a
  | some a, some b => some (min a b)

/-- Whether a key lies below another. -/
def keyLt : Option Int → Option Int → Bool
  | some a, some b => decide (a < b)
  | some _, none => true
  | none, _ => false

/-- The key of a command with what it inherits from the commands that wait for it, through chains of up to `n` (R353). -/
def Sched.keyOf (x : Sched) : Nat → Cmd → Option Int
  | 0, c => c.key
  | n + 1, c => (x.cmds.filter (fun d => d.final.isNone && d.waits.contains c.ptr)).foldl (fun k d => keyMin k (x.keyOf n d)) c.key

/-- The key a command stands at. -/
def State.effKey (s : State) (x : Cmd) : Option Int := s.sch.keyOf s.sch.cmds.length x

/-- Whether command `a` goes before command `b` at equal keys (R349). -/
def State.tieBefore (s : State) (a b : Cmd) : Bool :=
  let u := s.rd bSCH (SCH_Q_CFG_CLASS a.q)
  let v := s.rd bSCH (SCH_Q_CFG_CLASS b.q)
  decide (u < v) || (u == v && (decide (a.q < b.q) || (a.q == b.q && decide (a.idx < b.idx))))

/-- The first of a list by an order. -/
def firstBy (lt : α → α → Bool) : List α → Option α
  | [] => none
  | x :: r => match firstBy lt r with
    | some y => if lt y x then some y else some x
    | none => some x

/-- Whether a command may start a tile, or start (R350, R351): in flight, ready, runnable, its deadline not passed, and with no end. -/
def State.cmdReady (s : State) (x : Cmd) : Bool :=
  x.ready && x.final.isNone && !x.stopped && s.runnable x && !s.dlPassed x

/-- The kind of a fused command: byte 0 of its parameter block (R285). -/
def State.fusedKind (s : State) (x : Cmd) : Nat := s.byte (s.readLE (x.block + 16) 8)

/-- Whether a command runs on the clusters: every one but sequence control, exchange and barrier (R326, R388, R391). -/
def State.onClusters (s : State) (x : Cmd) : Bool := x.kind == 0 || !([8, 9, 10].contains (s.fusedKind x))

/-- The tile of a command that cluster `c` takes: one of its home shards first, then the lowest (R351, R371). -/
def State.tileFor (s : State) (c : Nat) (x : Cmd) : Option Nat :=
  let l := if x.begun then ownTiles s x else ownTiles s { x with todo := [(0, x.tiles)] }
  match l.find? (fun t => s.mapHome (t % x.shards) == c) with
  | some t => some t
  | none => l.head?

/-- Whether a command has a tile of cluster `c`'s home shards. -/
def State.homeTile (s : State) (c : Nat) (x : Cmd) : Bool :=
  match s.tileFor c x with
  | some t => s.mapHome (t % x.shards) == c
  | none => false

/-- The command that cluster `c` takes a tile of next (R349, R351, R371): one that has begun with a tile to dispatch, or one that begins; a command
held for a page gives way (R332). -/
def State.nextCmd (s : State) (c : Nat) : Option Cmd :=
  let l := s.sch.cmds.filter (fun x => s.onClusters x && s.cmdReady x && (!x.begun || (s.tileFor c x).isSome) &&
    !s.kvc.outs.any (fun o => o.2 == x.ptr))
  match firstBy (fun a b => keyLt (s.effKey a) (s.effKey b)) l with
  | none => none
  | some m =>
    let e := l.filter (fun x => s.effKey x == s.effKey m)
    let h := e.filter (fun x => s.homeTile c x)
    firstBy s.tieBefore (if h.isEmpty then e else h)

/-! ### Power classes and the activity slope (R528, R532) -/

/-- Whether the module is in S0. -/
def State.awake (s : State) : Bool := s.rd bPWR PWR_STAT_STATE == 0

/-- The power class of a command (R528): its context slot × 16 + 0 for a kernel command or its fused kind. -/
def State.powerClass (s : State) (x : Cmd) : Nat :=
  s.qCtx x.q * 16 + (if x.kind = 0 then 0 else s.fusedKind x % 16)

/-- Note that cluster `c` runs a tile of a command. -/
def State.noteRan (s : State) (c : Nat) (x : Cmd) : State :=
  s.setPwr { s.pwr with ran := Store.put 0 s.pwr.ran c (s.powerClass x + 1) }

/-- Cluster `c` wants its clock to run for a tile (R532): its clock runs, or takes a change of the window; without one the dispatch is
held back and counts. -/
def State.startClock (s : State) (c : Nat) : State × Bool :=
  if bit s.pwr.clk c = 1 then (s, true)
  else if s.pwr.left = 0 then ((s.setPwr { s.pwr with held := true }).inc bCAP CAP_CNT_SLOPE_HOLD, false)
  else (s.setPwr { s.pwr with clk := s.pwr.clk + 2 ^ c, left := s.pwr.left - 1 }, true)

/-- SLOPE_WINDOW: a new window of 640 ns begins (R532): two clusters may change between a running and a gated clock in it.  While no
start was held back in the window before, up to two clusters without a tile gate theirs, the lowest first. -/
def execSlopeWindow (t : Nat) (s : State) : Host.Outcome State Fault Refusal :=
  let s := s.at t
  .next (if (match s.pwr.winAt with
    | some a => decide (s.now < a + 640)
    | none => false) then s
  else
    let idle := if s.pwr.held then [] else
      ((List.range 34).filter (fun c => bit s.pwr.clk c == 1 && (s.tileOf c).isNone)).take 2
    s.setPwr { s.pwr with
      winAt := some s.now, left := 2 - idle.length, held := false, clk := idle.foldl (fun m c => m - 2 ^ c) s.pwr.clk })

end Sys2Proof.Machine
end

