-- ==== Sys2Proof/Machine/FpFun.lean ====
section
/-!
DEFINITION. The exact values of the functions of group `0xA`, computed with at least 60 correct bits, and the codes that the accuracy of R266
allows.
-/

namespace Sys2Proof.Machine

/-! ### Exact values -/

/-- The scale of the computation: 128 fraction bits. -/
def fnOne : Nat := 2 ^ 128

/-- 2^f for the fraction f of `n` further bits, `b` being the fraction's bits still to use and `r` the power of two of the next bit: an even
and a square root a bit. -/
def pow2Frac : Nat → Nat → Nat → Nat → Nat
  | 0, _, _, acc => acc
  | n + 1, b, r, acc =>
    pow2Frac n (2 * b % fnOne) (isqrt (r * fnOne)) (if fnOne / 2 ≤ b then acc * r / fnOne else acc)

/-- 2^(x ÷ 2^128) as a number over 2^128 and an exponent. -/
def pow2Fix (x : Int) : Nat × Int :=
  (pow2Frac 80 (x % (fnOne : Int)).toNat (isqrt (2 * fnOne * fnOne)) fnOne, x / (fnOne : Int))

/-- The first `n` bits of the binary logarithm of `x ÷ 2^192`, which lies from 1 to below 2: squaring gives one bit at a time. -/
def log2Frac : Nat → Nat → Nat → Nat
  | 0, _, acc => acc
  | n + 1, x, acc =>
    let y := x * x / 2 ^ 192
    if 2 ^ 193 ≤ y then log2Frac n (y / 2) (2 * acc + 1) else log2Frac n y (2 * acc)

/-- log₂ e and 2 ÷ √π, times 2^128. -/
def fnLog2e : Nat := 490923683258796565746369346286093237521
def fnErfScale : Nat := 383967533763538142977158567454335403656

/-- The terms x^(2n+1) ÷ (n! (2n+1)), alternating in sign, for `x` and its square `x2` times 2^128; `p` is x^(2n+1) ÷ n!. -/
def erfTerms (x2 : Nat) : Nat → Nat → Nat → Int
  | 0, _, _ => 0
  | k + 1, n, p => (if n % 2 = 0 then 1 else -1) * ((p / (2 * n + 1) : Nat) : Int) + erfTerms x2 k (n + 1) (p * x2 / fnOne / (n + 1))

/-- A magnitude as a fraction, as FP32 decodes it. -/
def magOf (a : Nat) : Nat × Nat :=
  let r := (fpDecode fp32 (a % 2 ^ 31)).ratio
  (r.1.toNat, r.2)

/-- A number over 2^128 and an exponent as a fraction; exponents below -400 stand for all below. -/
def scaled (m : Nat) (e : Int) : Nat × Nat :=
  if 0 ≤ e then (m * 2 ^ (min e 400).toNat, fnOne) else (m, fnOne * 2 ^ (min (-e) 400).toNat)

/-- 2^x for a signed fraction, with exponents held within 400. -/
def pow2Of (neg : Bool) (x : Nat × Nat) : Nat × Nat :=
  let v : Int := (x.1 * fnOne / x.2 : Nat)
  let lim : Int := 400 * (fnOne : Int)
  let p := pow2Fix (max (-lim) (min lim (if neg then -v else v)))
  scaled p.1 p.2

/-- The exact value of a function for an input outside its special results (R266, R268): the sign and the magnitude as a fraction. -/
def fnExact (func a : Nat) : Bool × Nat × Nat :=
  let neg := bit a 31 == 1
  let x := magOf a
  let xe := (x.1 * fnLog2e, x.2 * fnOne)
  if func = 0x10 then (false, pow2Of neg x)
  else if func = 0x11 then
    let k := log2Rat x.1 x.2
    let f := if 0 ≤ k then x.1 * 2 ^ 192 / (x.2 * 2 ^ k.toNat) else x.1 * 2 ^ (192 + (-k).toNat) / x.2
    let l : Int := k * (2 ^ 80 : Nat) + (log2Frac 80 f 0 : Int)
    (decide (l < 0), l.natAbs, 2 ^ 80)
  else if func = 0x12 then (neg, x.2, x.1)
  else if func = 0x13 then (false, 2 ^ 200, isqrt (x.1 * 2 ^ 400 / x.2))
  else if func = 0x16 then
    let q := pow2Of true (2 * xe.1, xe.2)
    (neg, q.2 - q.1, q.2 + q.1)
  else if func = 0x17 then
    let q := pow2Of (!neg) xe
    (false, q.2, q.2 + q.1)
  else
    let v := x.1 * fnOne / x.2
    (neg, if 6 * fnOne ≤ v then (fnOne, fnOne) else ((erfTerms (v * v / fnOne) 160 0 v).toNat * fnErfScale, fnOne * fnOne))

/-- Whether the exact value is an FP32 value below the normal range: a power of two, or the reciprocal of one. -/
def fnIsExact (func a : Nat) : Bool :=
  let x := magOf a
  if func = 0x10 then x.1 % x.2 == 0 else if func = 0x12 then a % 2 ^ 23 == 0 else false

/-! ### Accuracy (R266) -/

/-- The magnitude of a code as a fraction; an infinity stands for the power of two above the largest finite value. -/
def codeMag (c : Nat) : Nat × Nat := if c % 2 ^ 31 = 0x7F800000 then (2 ^ 128, 1) else magOf c

/-- One unit in the last place at a magnitude, as a fraction. -/
def ulpOf (y : Nat × Nat) : Nat × Nat :=
  let e : Int := (if y.1 = 0 then -126 else max (-126) (min 127 (log2Rat y.1 y.2))) - 23
  if 0 ≤ e then (2 ^ e.toNat, 1) else (1, 2 ^ (-e).toNat)

/-- Whether a code that is no NaN lies within the accuracy of a function from the exact value: 1 ulp, and for `vtanh`, `vsigm` and `verf` the
larger of 2 ulp and 2⁻²⁶. -/
def fnNear (func c : Nat) (y : Bool × Nat × Nat) : Bool :=
  let v := codeMag c
  let s (n : Bool) (m : Nat) : Int := if n then -(m : Int) else m
  let err := (s (bit c 31 == 1) (v.1 * y.2.2) - s y.1 (y.2.1 * v.2)).natAbs
  let den := v.2 * y.2.2
  let u := ulpOf y.2
  if 0x16 ≤ func then decide (err * u.2 ≤ 2 * u.1 * den) || decide (err * 2 ^ 26 ≤ den) else decide (err * u.2 ≤ u.1 * den)

/-- The code that a function delivers for an input outside the special results: the open code where it keeps the accuracy, else the exact value
rounded. -/
def fnCode (func a : Nat) : Nat :=
  let y := fnExact func a
  let v := (Config.fpFun func a).toNat
  if v % 2 ^ 31 ≤ 0x7F800000 ∧ fnNear func v y then v else (fpRoundRat fp32 false y.1 y.2.1 y.2.2).1

end Sys2Proof.Machine
end

