-- ==== Sys2Proof/Machine/Residue.lean ====
section
/-!
DEFINITION. The registers of a tile, the residues that its vector and accumulator data carry, and upsets of that data (R190, R211, R253, R261,
R282).
-/

namespace Sys2Proof.Machine

/-! ### Registers (R211) -/

/-- The value of scalar register `n`; `s0` reads 0. -/
def Tile.sreg (t : Tile) (n : Nat) : Nat := if n = 0 then 0 else Store.get 0 t.s n

/-- Write scalar register `n`; `s0` ignores writes. -/
def Tile.setS (t : Tile) (n v : Nat) : Tile := if n = 0 then t else { t with s := Store.put 0 t.s n (v % 2 ^ 64) }

/-- The value of predicate register `n`; `p0` reads 1. -/
def Tile.preg (t : Tile) (n : Nat) : Bool := n == 0 || Store.get false t.p n

/-- Write predicate register `n`; `p0` ignores writes. -/
def Tile.setP (t : Tile) (n : Nat) (v : Bool) : Tile := if n = 0 then t else { t with p := Store.put false t.p n v }

/-- The value of address register `n`. -/
def Tile.areg (t : Tile) (n : Nat) : Nat := Store.get 0 t.a n

/-- Write address register `n`. -/
def Tile.setA (t : Tile) (n v : Nat) : Tile := { t with a := Store.put 0 t.a n (v % 2 ^ 64) }

/-- The value of vector register `n`. -/
def Tile.vreg (t : Tile) (n : Nat) : Nat := Store.get 0 t.v n

/-- Write vector register `n`. -/
def Tile.setV (t : Tile) (n v : Nat) : Tile := { t with v := Store.put 0 t.v n (v % 2 ^ 2048) }

/-- Row `r` of accumulator `k`. -/
def Tile.accRow (t : Tile) (k r : Nat) : Nat := Store.get 0 t.acc (k * 64 + r)

/-- Set row `r` of accumulator `k`. -/
def Tile.setAccRow (t : Tile) (k r v : Nat) : Tile := { t with acc := Store.put 0 t.acc (k * 64 + r) (v % 2 ^ 2048) }

/-- Set the sticky flags of R260. -/
def Tile.flag (t : Tile) (f : Nat) : Tile := { t with flags := t.flags.lor f }

/-! ### Lanes (R253, R261) -/

/-- `n` elements of `w` bits of a number. -/
def lanesOf (w n v : Nat) : List Nat := (List.range n).map (fun i => bits v (w * i) w)

/-- Elements of `w` bits packed from the lowest. -/
def packLanes (w : Nat) : List Nat → Nat
  | [] => 0
  | x :: r => x % 2 ^ w + 2 ^ w * packLanes w r

/-- The 64 lanes of 32 bits of a vector register. -/
def lanes32 (v : Nat) : List Nat := lanesOf 32 64 v

/-! ### Residues (R190, R282) -/

/-- The residue of an integer, 0 to 14. -/
def residue (i : Int) : Nat := (i % 15).toNat

/-- The residue of an unsigned element of `w` bits: the sum of its byte residues. -/
def elemResidue (w v : Nat) : Nat := ((lanesOf 8 (w / 8) v).map (· % 15)).sum % 15

/-- The residue of a signed element of `w` bits: 1 less when its sign bit is set. -/
def signedResidue (w v : Nat) : Nat := (elemResidue w v + 14 * bit v (w - 1)) % 15

/-- The residue of an INT4 element: its own value. -/
def int4Residue (v : Nat) : Nat := residue (sext 4 v)

/-- The two residues of a floating element: of its signed significand, and of its exponent; 0 for an infinity or NaN. -/
def fpResidue (f : FpFmt) (c : Nat) : Nat × Nat :=
  match fpDecode f c with
  | .fin n m _ => (residue (if n then -(m : Int) else m), c % f.sign / 2 ^ f.mb % 15)
  | _ => (0, 0)

/-- Whether a code is an infinity or NaN, which shadow lanes handle (R283). -/
def fpSpecialCode (f : FpFmt) (c : Nat) : Bool := decide (f.maxc < c % f.sign)

/-- Whether the residues of two floating codes differ; special cases are compared whole. -/
def fpDiffers (f : FpFmt) (x y : Nat) : Bool :=
  if fpSpecialCode f x || fpSpecialCode f y then x != y else fpResidue f x != fpResidue f y

/-! ### Engine rows

Row `q` is vector register `q` below 32, and row `(q - 32) mod 64` of accumulator `(q - 32) ÷ 64` above. A residue cell is a byte of a vector
register or a lane of an accumulator. -/

/-- The contents of a row. -/
def Tile.row (t : Tile) (q : Nat) : Nat := if q < 32 then t.vreg q else Store.get 0 t.acc (q - 32)

/-- The rows of accumulator `k`. -/
def accRows (k : Nat) : List Nat := (List.range 64).map (fun r => 32 + k * 64 + r)

/-- The cells of a row, and the bits of one cell. -/
def rowCells (q : Nat) : Nat := if q < 32 then 256 else 64
def cellBits (q : Nat) : Nat := if q < 32 then 8 else 32

/-- The number of cell `i` of row `q`. -/
def cellOf (q i : Nat) : Nat := if q < 32 then 256 * q + i else 8192 + (q - 32) * 64 + i

/-- The data of a cell. -/
def Tile.cell (t : Tile) (q i : Nat) : Nat := bits (t.row q) (cellBits q * i) (cellBits q)

/-- How far the residue that a cell carries lies above that of its data. -/
def Tile.offAt (t : Tile) (q i : Nat) : Nat := Store.get 0 t.off (cellOf q i)

/-- The residue that a cell carries. -/
def Tile.cellRes (t : Tile) (q i : Nat) : Nat := (elemResidue (cellBits q) (t.cell q i) + t.offAt q i) % 15

/-- Lane `j` of vector register `n` with the residue it carries: the sum of those of its bytes. -/
def Tile.lane (t : Tile) (n j : Nat) : Nat × Nat :=
  (bits (t.vreg n) (32 * j) 32, ((List.range 4).map (fun k => t.cellRes n (4 * j + k))).sum % 15)

/-- How far a lane's residue lies above that of its data. -/
def Tile.laneOff (t : Tile) (n j : Nat) : Nat := ((List.range 4).map (fun k => t.offAt n (4 * j + k))).sum % 15

/-- Whether a carried residue is not that of the data, for one of `k` cells from cell `i` of a row. -/
def Tile.badCells (t : Tile) (q i k : Nat) : Bool := (List.range k).any (fun j => t.offAt q (i + j) != 0)

/-- Set the residues of cells, relative to their data. -/
def Tile.setOffs (t : Tile) (l : List (Nat × Nat)) : Tile :=
  { t with off := l.foldl (fun o e => Store.put 0 o e.1 (e.2 % 15)) t.off }

/-- A row whose cells all carry the residues of their data. -/
def freshRow (q : Nat) : List (Nat × Nat) := (List.range (rowCells q)).map (fun i => (cellOf q i, 0))

/-! ### Upsets -/

/-- Bits of a row turn over. -/
def Tile.flip (t : Tile) (q mask : Nat) : Tile :=
  let v := (t.row q).xor (mask % 2 ^ 2048)
  if q < 32 then t.setV q v else { t with acc := Store.put 0 t.acc (q - 32) v }

/-- The residues of a row of `x`, relative to its data, when they are those that the same row of `r` carries with offsets `o`. -/
def offsFrom (r x : Tile) (q : Nat) (o : Nat → Nat) : List (Nat × Nat) :=
  (List.range (rowCells q)).map (fun i =>
    (cellOf q i, o i + elemResidue (cellBits q) (r.cell q i) + 14 * elemResidue (cellBits q) (x.cell q i)))

/-- Stored bits of a row turn over under the residues it carries. -/
def Tile.strike (t : Tile) (q mask : Nat) : Tile :=
  let x := t.flip q mask
  x.setOffs (offsFrom t x q (t.offAt q))

/-- The upsets of stored rows that are due at the tile's work count strike. -/
def Tile.struck (t : Tile) : Tile :=
  let due := t.ups.filter (fun u => u.1 ≤ t.work && u.2.1 != 0)
  due.foldl (fun t u => t.strike (u.2.1 - 1) u.2.2) { t with ups := t.ups.filter (fun u => !(u.1 ≤ t.work && u.2.1 != 0)) }

end Sys2Proof.Machine
end

