-- ==== Sys2Proof/Machine/TackCore.lean ====
section
/-!
DEFINITION. The tile: its registers, how an instruction issues, and how a tile ends (R204-R246).
-/

namespace Sys2Proof.Machine

/-- The sum of two address values: bits 62:0 modulo 2^63, bit 63 kept (R226). -/
def addrAdd (a b : Nat) : Nat := a / 2 ^ 63 * 2 ^ 63 + (a + b) % 2 ^ 63

/-- The 64-bit code of a 32-bit immediate, sign-extended. -/
def imm64 (i : Nat) : Nat := toCode 64 (sext 32 i)

/-! ### Exceptions (R239) -/

/-- Why a tile ends at an instruction: a status of R239 or of an access, the cause, and the address value of the record. -/
structure Trap where
  status : Nat
  cause : Nat
  addr : Nat
deriving DecidableEq, Repr

def illegal (cause : Nat) : Trap := ⟨0x0801, cause, 0⟩
def addrFault (cause addr : Nat) : Trap := ⟨0x0802, cause, addr⟩
def alignFault (addr : Nat) : Trap := ⟨0x0803, 1, addr⟩
def controlFault (cause : Nat) : Trap := ⟨0x0804, cause, 0⟩
def workLimit : Trap := ⟨0x0805, 1, 0⟩

/-- Whether a status is a program exception (R239). -/
def Trap.program (x : Trap) : Bool := x.status / 256 == 8

/-- What an instruction does: the state and the tile after it, why the tile ends there, and the target of a control transfer. -/
structure Eff where
  s : State
  t : Tile
  trap : Option Trap := none
  jump : Option Nat := none

/-- An effect on the tile's registers alone. -/
def Eff.reg (s : State) (t : Tile) : Eff := { s := s, t := t }

/-! ### How a tile ends -/

/-- Latch the exception record of cluster `c`, unless it holds one (R246): the running copy, which a snapshot shows.  A program exception
counts in any case. -/
def State.latchExc (s : State) (c : Nat) (t : Tile) (word : Nat) (x : Trap) : State :=
  let b := bCLU c
  let s := s.inc b CLU_CNT_EXC
  if s.cnt b CLU_EXC_STATUS_VALID = 1 then s else
  let s := ((s.setCnt b CLU_EXC_STATUS_STATUS x.status).setCnt b CLU_EXC_STATUS_CAUSE (x.cause % 256)).setCnt b CLU_EXC_STATUS_VALID 1
  let s := (s.setCnt b CLU_EXC_PC_PC t.pc).setCnt b CLU_EXC_TILE_TILE t.tile
  let s := s.setCnt b CLU_EXC_TILE_TRAPHI (if x.status = 0x0806 then x.cause / 256 else 0)
  let s := (s.setCnt b CLU_EXC_ADDR_LO_ADDR (x.addr % 2 ^ 32)).setCnt b CLU_EXC_ADDR_HI_ADDR (x.addr / 2 ^ 32)
  let s := (s.setCnt b CLU_EXC_INSTR_LO_INSTR (word % 2 ^ 32)).setCnt b CLU_EXC_INSTR_HI_INSTR (word / 2 ^ 32)
  s.setCnt b CLU_EXC_CMD_QPTR t.q

/-- The address of the instruction at `pc`. -/
def Tile.wordAt (t : Tile) : Nat := t.code + 8 * t.pc

/-- The line of cluster `c`'s instruction cache that holds a tile's instruction. -/
def State.icLine (s : State) (c : Nat) (t : Tile) : Option IcLine := (s.cluX c).ic.find? (fun l => l.addr == t.wordAt / 64)

/-- The word of the instruction at `pc` as cluster `c` would fetch it: from the instruction cache, or from memory (R218, R247). -/
def State.codeWord (s : State) (c : Nat) (t : Tile) : Nat :=
  match s.icLine c t with
  | some l => leNat ((l.bytes.drop (t.wordAt % 64)).take 8)
  | none => s.readLE t.wordAt 8

/-- A tile whose run had a mismatch, or hung (R192, R238): it runs again, runs on a substitute, or ends its command. -/
def State.tileMismatch (s : State) (c : Nat) (t : Tile) (hung : Bool) : State :=
  let word := if t.fused then 0 else s.codeWord c t
  let s := s.dropTile c
  let force (s : State) (f : Forced) : State := s.setSch { s.sch with forced := f :: s.sch.forced }
  let stopped := match s.cmd? t.q with
    | some x => x.stopped
    | none => true
  if stopped then s.settleCmd t.q
  else if t.stage = 0 then
    force (s.inc (bCLU c) CLU_CNT_RERUN) { cl := c, q := t.q, tile := t.tile, stage := 1, hung := hung, inj := t.inj }
  else
    let s := if t.stage = 1 then s.suspect c t.tile (t.inj != 0) else s
    let h := match s.cmd? t.q with
      | some x => s.mapHome (t.tile % x.shards)
      | none => c
    if t.stage = 1 ∧ h ≠ c ∧ s.role h = 0 ∧ s.isOn (bCLU h) then
      force s { cl := h, q := t.q, tile := t.tile, stage := 2, hung := hung, inj := if t.inj = 0 then 0 else 1 }
    else
      let s := s.noteLayer t.q t.tile t.layer
      if hung then (s.latchExc c t word ⟨0x0807, 1, 0⟩).endCmdTile t.q t.tile 0x0807
      else (s.residueFail (bCLU c) c (iCLU c) t.tile (t.inj != 0)).endCmdTile t.q t.tile 0x0302

/-- A tile ends at an instruction (R241-R243): a program exception with the mismatch flag set is handled as a mismatch, every
other end ends the command with its status. A program exception fails a live switch (R402). -/
def State.tileTrap (s : State) (c : Nat) (t : Tile) (word : Nat) (x : Trap) : State :=
  if x.program ∧ t.mism then s.tileMismatch c t false
  else
    let s := if x.program then (s.latchExc c t word x).upgReport false else s
    (s.dropTile c).endCmdTile t.q t.tile x.status

/-! ### Issue (R218-R222, R227-R229, R235, R236) -/

/-- The highest work count of a tile (R236). -/
def workMax : Nat := 1600

/-- Whether an instruction executes: `p[PR]` XOR `PN` (R219). -/
def Tile.executes (t : Tile) (pr : Nat) : Bool := xor (t.preg (pr % 8)) (bit pr 3 == 1)

/-- Add to the work count; a tile that passes 1,280 is counted (R246). -/
def State.addWork (s : State) (c : Nat) (t : Tile) (n : Nat) : State × Tile :=
  (if t.work ≤ 1280 ∧ 1280 < t.work + n then s.inc (bCLU c) CLU_CNT_WORK_HI else s, { t with work := t.work + n })

/-- The loops that a control transfer to index `x` leaves active, innermost first (R229): a target outside the body of a loop ends
it and every loop inside it. -/
def loopsAt (l : List (Nat × Nat × Nat)) (x : Nat) : List (Nat × Nat × Nat) :=
  (l.reverse.takeWhile (fun e => decide (e.1 ≤ x) && decide (x ≤ e.2.1))).reverse

/-- The tile after the instruction at `pc` completes, with the index that follows it: the innermost loop is tested at its end
(R228). -/
def Tile.stepLoop (t : Tile) (next : Nat) : Tile :=
  match t.loops with
  | [] => { t with pc := next }
  | e :: r =>
    if e.2.1 = t.pc then
      (if e.2.2 ≤ 1 then { t with pc := next, loops := r }
       else { t with pc := e.1, loops := (e.1, e.2.1, e.2.2 - 1) :: r })
    else { t with pc := next }

/-- The functions of groups 0 to `0xD` that are listed: the rows of the instruction tables. -/
def listedFunc (g f : Nat) : Bool :=
  if g = 0 then decide (1 ≤ f) && decide (f ≤ 0x16)
  else if g = 1 then [1, 10, 11, 12, 13, 14, 15, 16, 17, 0x20, 0x21].contains f
  else if g = 2 then (decide (1 ≤ f) && decide (f ≤ 6)) || (decide (0x11 ≤ f) && decide (f ≤ 0x16)) ||
    (decide (0x20 ≤ f) && decide (f ≤ 0x23))
  else if g = 3 then decide (1 ≤ f) && decide (f ≤ 5)
  else if g = 4 then decide (1 ≤ f) && decide (f ≤ 5)
  else if g = 5 then (decide (1 ≤ f) && decide (f ≤ 7)) || (decide (9 ≤ f) && decide (f ≤ 0xC)) || f == 0x10 || f == 0x11
  else if g = 6 then decide (1 ≤ f) && decide (f ≤ 3)
  else if g = 7 then decide (f ≤ 4)
  else if g = 8 then (decide (1 ≤ f) && decide (f ≤ 0xE)) || (decide (0x10 ≤ f) && decide (f ≤ 0x14))
  else if g = 9 then decide (1 ≤ f) && decide (f ≤ 9)
  else if g = 0xA then (decide (1 ≤ f) && decide (f ≤ 3)) || (decide (0x10 ≤ f) && decide (f ≤ 0x18))
  else if g = 0xB then decide (1 ≤ f) && decide (f ≤ 8)
  else if g = 0xC then f == 1
  else if g = 0xD then decide (1 ≤ f) && decide (f ≤ 5)
  else false

/-- Whether a word is some row's instruction. -/
def listedWord (w : Nat) : Bool := listedFunc (bits w 60 4) (bits w 48 8)

/-- The cause for which a word that is no row's instruction is illegal (R222, R239). -/
def unlistedCause (w : Nat) : Nat := if w = 0 then 5 else if 0xE ≤ bits w 60 4 then 1 else 2

/-- The instruction cache takes a line (R247): the refill is counted, and a full cache gives up a line of its own choice. -/
def State.icTake (s : State) (c : Nat) (l : IcLine) : State :=
  let x := s.cluX c
  if x.ic.length < 1024 then s.setClu c { x with ic := l :: x.ic }
  else
    let f := s.takeFree
    f.2.setClu c { x with ic := l :: x.ic.eraseIdx (Config.freeNat f.1 % 1024) }

/-- Fetch the instruction at a tile's `pc` (R181, R243, R247): the status of the access and the word.  A line that the cache holds is not read
again; a word of it with two bad bits is poisoned data, and so is a line refilled from poisoned memory. -/
def State.fetchWord (s : State) (c : Nat) (t : Tile) : State × Nat × Nat :=
  match s.icLine c t with
  | some l => (s, if bit l.bad (t.wordAt % 64 / 8) = 1 then 0x0304 else 0, leNat ((l.bytes.drop (t.wordAt % 64)).take 8))
  | none =>
    let r := (s.inc (bCLU c) CLU_CNT_IC_MISS).hwRead (iCLU c) (t.wordAt - t.wordAt % 64) 64
    (if r.2.1 = 0 then r.1.icTake c { addr := t.wordAt / 64, bytes := r.2.2 } else r.1, r.2.1,
      leNat ((r.2.2.drop (t.wordAt % 64)).take 8))

/-- Bring a tile to its next instruction: running on past the code object and words of no row end it (R222, R227); a
predicate-false word of no row is passed over (R219). -/
def State.settleTile : Nat → State → Nat → Tile → State
  | 0, s, c, t => s.setTile c (some t)
  | fuel + 1, s, c, t =>
    let w := s.codeWord c t
    if listedWord w then s.setTile c (some t)
    else
      let pr := bits w 56 4
      if workMax < t.work + 1 then s.tileTrap c t w workLimit
      else
        let f := s.fetchWord c t
        let r := f.1.addWork c t 1
        if f.2.1 ≠ 0 then r.1.tileTrap c r.2 w ⟨f.2.1, 0, 0⟩
        else if r.2.executes pr then r.1.tileTrap c r.2 w (illegal (unlistedCause w))
        else
          let t' := r.2.stepLoop (r.2.pc + 1)
          if t.len ≤ t'.pc then r.1.tileTrap c r.2 w (addrFault 5 t'.pc) else State.settleTile fuel r.1 c t'

/-- The most words a tile can pass over. -/
def settleFuel : Nat := workMax + 1

/-- The instruction at `pc` has completed; execution goes on at index `next`. -/
def State.advance (s : State) (c : Nat) (t : Tile) (word next : Nat) : State :=
  let t' := t.stepLoop next
  if t.ended then s.setTile c (some t)
  else if t.len ≤ t'.pc then s.tileTrap c t word (addrFault 5 t'.pc)
  else s.settleTile settleFuel c t'

/-- How the residue unit follows an instruction (R283): the rows it writes, and, from the state and tile before it, the tile after it with the
right result and with the result as it came out, whether a check fails and the residues that cells then carry, relative to their data. -/
structure Check where
  rows : Nat → Tile → List Nat := fun _ _ => []
  run : Nat → State → Tile → Tile → Tile → Bool × List (Nat × Nat) := fun _ _ _ _ _ => (false, [])

/-- An instruction's parts: its group and function, its cost, why it is illegal, what it does, and how the residue unit follows it. -/
structure Op where
  grp : Nat
  func : Nat
  cost : Nat → Tile → Nat := fun _ _ => 1
  legal : Nat → Option Trap := fun _ => none
  eff : Nat → State → Tile → Eff
  chk : Check := {}

/-- The tile after an instruction and its residue check: `t` is the tile before it and `r` the tile with the right result, which upsets of an
engine's result turn over first.  A tile in which every residue is that of its data and no upset waits passes every check. -/
def Op.checked (o : Op) (body : Nat) (s : State) (t r : Tile) : Tile :=
  if t.off.isEmpty && r.ups.isEmpty then r
  else
    let rows := o.chk.rows body t
    let hit (u : Nat × Nat × Nat) : Bool := !rows.isEmpty && u.2.1 == 0 && decide (u.1 ≤ r.work)
    let m := (r.ups.filter hit).foldl (fun m u => m.xor u.2.2) 0
    let x := rows.zipIdx.foldl (fun x e => x.flip e.1 (m / 2 ^ (2048 * e.2))) { r with ups := r.ups.filter (fun u => !hit u) }
    let k := o.chk.run body s t r x
    ({ x with mism := x.mism || k.1 }).setOffs k.2

/-- The word of an instruction (R218). -/
def opWord (grp func pr body : Nat) : Nat := (grp * 16 + pr) * 2 ^ 56 + func * 2 ^ 48 + body

/-- The instruction at the `pc` of cluster `c`'s tile issues (R235, R236, R240): work limit, predicate, legality, effect. -/
def State.issueOp (s : State) (c : Nat) (t : Tile) (pr body : Nat) (o : Op) : State :=
  let w := opWord o.grp o.func pr body
  let run := t.executes pr
  let cost := if run then o.cost body t else 1
  let f := s.fetchWord c t
  if f.2.1 ≠ 0 then f.1.tileTrap c t w ⟨f.2.1, 0, 0⟩
  else if workMax < t.work + cost then f.1.tileTrap c t w workLimit
  else
    let r := f.1.addWork c t cost
    let x := r.2.struck
    if !run then r.1.advance c x w (t.pc + 1)
    else match o.legal body with
      | some k => r.1.tileTrap c x w k
      | none =>
        let e := o.eff body r.1 x
        match e.trap with
        | some k => e.s.tileTrap c e.t w k
        | none => e.s.advance c (o.checked body r.1 x e.t) w (e.jump.getD (t.pc + 1))

/-- Whether cluster `c` is at an instruction with this word. -/
def State.atWord (s : State) (c w : Nat) : Bool :=
  match s.tileOf c with
  | some t => !t.ended && s.codeWord c t == w
  | none => false

/-- Cluster `c` issues an instruction; a cluster whose `pc` stands at another word, or that runs no Tack code, does nothing. -/
def State.issue (s : State) (c : Nat) (pr : BitVec 4) (body : BitVec 48) (o : Op) : Host.Outcome State Fault Refusal :=
  .next (match s.tileOf c with
  | some t => if s.atWord c (opWord o.grp o.func pr.toNat body.toNat) then s.issueOp c t pr.toNat body.toNat o else s
  | none => s)

/-! ### Fields of the formats (R221) -/

def fRD (b : Nat) : Nat := bits b 43 5
def fRA (b : Nat) : Nat := bits b 38 5
def fRB (b : Nat) : Nat := bits b 33 5
def fRC (b : Nat) : Nat := bits b 28 5
def fIMM (b : Nat) : Nat := bits b 0 32

/-- Illegal when a field that must be 0 is not, then when a register number is out of range (R222). -/
def checkFields (zeros : List Nat) (regs : List (Nat × Nat)) : Option Trap :=
  if zeros.any (· != 0) then some (illegal 3)
  else if regs.any (fun r => decide (r.2 ≤ r.1)) then some (illegal 4)
  else none

end Sys2Proof.Machine
end

