-- ==== Sys2Proof/Machine/TackScalar.lean ====
section
/-!
DEFINITION. Tack's scalar, predicate, address, control and system instructions (R223-R229, R233, R234).
-/

namespace Sys2Proof.Machine

/-! ### Arithmetic (R223, R224) -/

/-- A 64-bit value as a signed integer. -/
def s64 (a : Nat) : Int := sext 64 a

/-- Low 64 bits of an integer. -/
def low64 (i : Int) : Nat := toCode 64 i

/-- The signed quotient toward zero, with the edge cases of R224. -/
def divS (a b : Nat) : Nat :=
  if b % 2 ^ 64 = 0 then 2 ^ 64 - 1 else low64 (Int.tdiv (s64 a) (s64 b))

/-- The unsigned quotient, with the edge case of R224. -/
def divU (a b : Nat) : Nat := if b % 2 ^ 64 = 0 then 2 ^ 64 - 1 else a % 2 ^ 64 / (b % 2 ^ 64)

/-- The signed remainder, with the edge cases of R224. -/
def remS (a b : Nat) : Nat := if b % 2 ^ 64 = 0 then a % 2 ^ 64 else low64 (Int.tmod (s64 a) (s64 b))

/-- The unsigned remainder, with the edge case of R224. -/
def remU (a b : Nat) : Nat := if b % 2 ^ 64 = 0 then a % 2 ^ 64 else a % 2 ^ 64 % (b % 2 ^ 64)

/-- The number of leading zero bits among 64. -/
def clz64 (a : Nat) : Nat := if a % 2 ^ 64 = 0 then 64 else 63 - Nat.log2 (a % 2 ^ 64)

/-- Signed minimum and maximum. -/
def minS (a b : Nat) : Nat := if s64 a ≤ s64 b then a else b
def maxS (a b : Nat) : Nat := if s64 a ≤ s64 b then b else a

/-- Arithmetic shift right by the low 6 bits. -/
def sraS (a b : Nat) : Nat := low64 (s64 a / 2 ^ (b % 64))

/-- A scalar function of two registers, format R. -/
def sRR (func : Nat) (f : Nat → Nat → Nat) : Op where
  grp := 0
  func := func
  legal := fun b => checkFields [fRC b, bits b 0 28] []
  eff := fun b s t => Eff.reg s (t.setS (fRD b) (f (t.sreg (fRA b)) (t.sreg (fRB b))))

/-- A scalar function of one register, format R with `RB` zero. -/
def sR1 (func : Nat) (f : Nat → Nat) : Op where
  grp := 0
  func := func
  legal := fun b => checkFields [fRB b, fRC b, bits b 0 28] []
  eff := fun b s t => Eff.reg s (t.setS (fRD b) (f (t.sreg (fRA b))))

/-- A scalar function of a register and the extended immediate, format I. -/
def sRI (func : Nat) (f : Nat → Nat → Nat) : Op where
  grp := 1
  func := func
  legal := fun b => checkFields [bits b 32 6] []
  eff := fun b s t => Eff.reg s (t.setS (fRD b) (f (t.sreg (fRA b)) (imm64 (fIMM b))))

/-- A shift by an immediate, whose bits 31:6 are zero. -/
def sShI (func : Nat) (f : Nat → Nat → Nat) : Op where
  grp := 1
  func := func
  legal := fun b => checkFields [bits b 32 6, bits b 6 26] []
  eff := fun b s t => Eff.reg s (t.setS (fRD b) (f (t.sreg (fRA b)) (fIMM b)))

/-- Wrapping subtraction. -/
def sub64 (a b : Nat) : Nat := low64 (s64 a - s64 b)

/-- High half of the signed product. -/
def mulhS (a b : Nat) : Nat := low64 (s64 a * s64 b / 2 ^ 64)

/-- Shift left and logical shift right by the low 6 bits. -/
def sll64 (a b : Nat) : Nat := a * 2 ^ (b % 64)
def srl64 (a b : Nat) : Nat := a / 2 ^ (b % 64)

/-- `sel`: the predicate named by `RC` chooses. -/
def opSel : Op where
  grp := 0
  func := 0x14
  legal := fun b => checkFields [bits b 0 28] [(fRC b, 8)]
  eff := fun b s t => Eff.reg s (t.setS (fRD b) (if t.preg (fRC b) then t.sreg (fRA b) else t.sreg (fRB b)))

/-- `li`: the extended immediate. -/
def opLi : Op where
  grp := 1
  func := 0x20
  legal := fun b => checkFields [fRA b, bits b 32 6] []
  eff := fun b s t => Eff.reg s (t.setS (fRD b) (imm64 (fIMM b)))

/-- `lih`: the immediate in the high half. -/
def opLih : Op where
  grp := 1
  func := 0x21
  legal := fun b => checkFields [fRA b, bits b 32 6] []
  eff := fun b s t => Eff.reg s (t.setS (fRD b) (fIMM b * 2 ^ 32 + t.sreg (fRD b) % 2 ^ 32))

/-! ### Predicates (R225) -/

/-- A comparison of two registers. -/
def cmpRR (func : Nat) (f : Nat → Nat → Bool) : Op where
  grp := 2
  func := func
  legal := fun b => checkFields [fRC b, bits b 0 28] [(fRD b, 8)]
  eff := fun b s t => Eff.reg s (t.setP (fRD b) (f (t.sreg (fRA b)) (t.sreg (fRB b))))

/-- A comparison with the extended immediate. -/
def cmpRI (func : Nat) (f : Nat → Nat → Bool) : Op where
  grp := 2
  func := func
  legal := fun b => checkFields [bits b 32 6] [(fRD b, 8)]
  eff := fun b s t => Eff.reg s (t.setP (fRD b) (f (t.sreg (fRA b)) (imm64 (fIMM b))))

/-- A function of two predicates. -/
def predRR (func : Nat) (f : Bool → Bool → Bool) : Op where
  grp := 2
  func := func
  legal := fun b => checkFields [fRC b, bits b 0 28] [(fRD b, 8), (fRA b, 8), (fRB b, 8)]
  eff := fun b s t => Eff.reg s (t.setP (fRD b) (f (t.preg (fRA b)) (t.preg (fRB b))))

/-- The comparisons. -/
def ltS (a b : Nat) : Bool := decide (s64 a < s64 b)
def geS (a b : Nat) : Bool := decide (s64 b ≤ s64 a)

/-! ### Addresses (R226) -/

/-- `amov`: `RA` names an address register that the operation does not use, and `RB` the scalar (entry 117). -/
def opAmov : Op where
  grp := 3
  func := 1
  legal := fun b => checkFields [fRC b, bits b 0 28] [(fRD b, 16), (fRA b, 16)]
  eff := fun b s t => Eff.reg s (t.setA (fRD b) (t.sreg (fRB b)))

def opAadd : Op where
  grp := 3
  func := 2
  legal := fun b => checkFields [fRC b, bits b 0 28] [(fRD b, 16), (fRA b, 16)]
  eff := fun b s t => Eff.reg s (t.setA (fRD b) (addrAdd (t.areg (fRA b)) (t.sreg (fRB b))))

def opAaddi : Op where
  grp := 3
  func := 3
  legal := fun b => checkFields [bits b 32 6] [(fRD b, 16), (fRA b, 16)]
  eff := fun b s t => Eff.reg s (t.setA (fRD b) (addrAdd (t.areg (fRA b)) (imm64 (fIMM b))))

def opAmovs : Op where
  grp := 3
  func := 4
  legal := fun b => checkFields [fRB b, fRC b, bits b 0 28] [(fRA b, 16)]
  eff := fun b s t => Eff.reg s (t.setS (fRD b) (t.areg (fRA b)))

def opAlocal : Op where
  grp := 3
  func := 5
  legal := fun b => checkFields [fRA b, bits b 32 6] [(fRD b, 16)]
  eff := fun b s t => Eff.reg s (t.setA (fRD b) (2 ^ 63 + fIMM b))

/-! ### Control flow (R227-R229) -/

/-- A transfer to index `x`, which must lie in the code object; the record holds the target. -/
def jumpTo (s : State) (t : Tile) (x : Int) : Eff :=
  if 0 ≤ x ∧ x < t.len then { s := s, t := { t with loops := loopsAt t.loops x.toNat }, jump := some x.toNat }
  else { s := s, t := t, trap := some (addrFault 5 (low64 x)) }

/-- The target of a relative transfer. -/
def Tile.rel (t : Tile) (b : Nat) : Int := t.pc + sext 32 (fIMM b)

def opBr : Op where
  grp := 4
  func := 1
  legal := fun b => checkFields [bits b 43 5, fRA b, bits b 32 6] []
  eff := fun b s t => jumpTo s t (t.rel b)

def opJr : Op where
  grp := 4
  func := 2
  legal := fun b => checkFields [bits b 43 5, bits b 32 6, fIMM b] []
  eff := fun b s t => jumpTo s t (s64 (t.sreg (fRA b)))

def opCall : Op where
  grp := 4
  func := 3
  legal := fun b => checkFields [bits b 43 5, fRA b, bits b 32 6] []
  eff := fun b s t =>
    if 8 ≤ t.rets.length then { s := s, t := t, trap := some (controlFault 1) }
    else
      let e := jumpTo s t (t.rel b)
      if e.trap.isSome then e else { e with t := { e.t with rets := (t.pc + 1) :: t.rets } }

def opRet : Op where
  grp := 4
  func := 4
  legal := fun b => checkFields [bits b 43 5, fRA b, bits b 32 6, fIMM b] []
  eff := fun _ s t =>
    match t.rets with
    | [] => { s := s, t := t, trap := some (controlFault 2) }
    | x :: r =>
      let e := jumpTo s t x
      if e.trap.isSome then e else { e with t := { e.t with rets := r } }

def opLoop : Op where
  grp := 4
  func := 5
  legal := fun b => checkFields [bits b 43 5, bits b 32 6] []
  eff := fun b s t =>
    let n := fIMM b
    let k := t.sreg (fRA b)
    if n = 0 ∨ 4096 < n ∨ t.len ≤ t.pc + n then { s := s, t := t, trap := some (controlFault 4) }
    else if k = 0 then { s := s, t := t, jump := some (t.pc + 1 + n) }
    else if 4 ≤ t.loops.length then { s := s, t := t, trap := some (controlFault 3) }
    else { s := s, t := { t with loops := (t.pc + 1, t.pc + n, k) :: t.loops }, jump := some (t.pc + 1) }

/-! ### System (R233, R234, R237) -/

/-- An instruction of group 7 that only occupies its place. -/
def opIdle (func : Nat) : Op where
  grp := 7
  func := func
  legal := fun b => checkFields [bits b 43 5, fRA b, bits b 32 6, fIMM b] []
  eff := fun _ s t => Eff.reg s t

def opEnd : Op where
  grp := 7
  func := 1
  legal := fun b => checkFields [bits b 43 5, fRA b, bits b 32 6, fIMM b] []
  eff := fun _ s t => Eff.reg s { t with ended := true }

def opTrap : Op where
  grp := 7
  func := 2
  legal := fun b => checkFields [bits b 43 5, fRA b, bits b 32 6, bits b 16 16] []
  eff := fun b s t => { s := s, t := t, trap := some ⟨0x0806, bits b 0 16, 0⟩ }

end Sys2Proof.Machine
end

