-- ==== Sys2Proof/Machine/TackMem.lean ====
section
/-!
DEFINITION. Tack's loads, stores and bulk transfers: local and global accesses, segments and the scratchpad (R212, R213, R216,
R217, R230-R232).
-/

namespace Sys2Proof.Machine

/-! ### The scratchpad (R213, R217) -/

/-- The lines that a range of local bytes touches. -/
def linesOf (a n : Nat) : List Nat :=
  if n = 0 then [] else (List.range ((a + n - 1) / 64 - a / 64 + 1)).map (fun k => a / 64 + k)

/-- The part of a range that lies in line `k`: its start and length. -/
def linePart (a n k : Nat) : Nat × Nat :=
  let lo := max a (64 * k)
  (lo, min (a + n) (64 * k + 64) - lo)

/-- Bytes of the scratchpad as a tile reads them: a line that it has not written reads as 0 (R213). The status is 0 or
ECC_UNCORRECTABLE. -/
def State.spadRead (s : State) (c : Nat) (t : Tile) (a n : Nat) : State × Nat × List Nat :=
  (linesOf a n).foldl (fun (r : State × Nat × List Nat) k =>
    let e := linePart a n k
    if Store.get false t.lines k then
      let p := spadBase c + e.1
      let s := r.1.readUnits (iCLU c) p e.2
      (s, if s.poisoned p e.2 then 0x0304 else r.2.1, r.2.2 ++ s.bytes p e.2)
    else (r.1, r.2.1, r.2.2 ++ List.replicate e.2 0)) (s, 0, [])

/-- Make a line of the array read as 0 before a tile's first write into it. -/
def State.zeroLine (s : State) (a : Nat) : State :=
  { s with
    mem := memPuts s.mem a (List.replicate 64 0)
    poison := (unitsOf a 64).foldl (fun p u => Store.put false p u false) s.poison
    errs := (unitsOf a 64).foldl (fun e u => Store.put 0 e u 0) s.errs }

/-- Write bytes into the scratchpad of cluster `c` for its tile. -/
def State.spadWrite (s : State) (c : Nat) (t : Tile) (a : Nat) (bs : List Nat) : State × Tile :=
  let r := (linesOf a bs.length).foldl (fun (r : State × Tile) k =>
    if Store.get false r.2.lines k then r
    else (r.1.zeroLine (spadBase c + 64 * k), { r.2 with lines := Store.put false r.2.lines k true })) (s, t)
  (r.1.mergeWrite (iCLU c) (spadBase c + a) bs, r.2)

/-! ### Addresses (R212, R216, R217) -/

/-- Whether an address value is local. -/
def isLocal (x : Nat) : Bool := x / 2 ^ 63 % 2 == 1

/-- Bits 62:0 of an address value. -/
def addrOf (x : Nat) : Nat := x % 2 ^ 63

/-- Whether a register keeps the form of R212. -/
def addrForm (x : Nat) : Bool := if isLocal x then decide (addrOf x < 2 ^ 22) else decide (addrOf x < 2 ^ 48)

/-- Whether a range lies inside a valid segment. -/
def inSeg (g : List Nat) (a n : Nat) : Bool :=
  bit (nth 0 g 2) 2 == 1 && decide (nth 0 g 0 ≤ a) && decide (a + n ≤ nth 0 g 0 + nth 0 g 1)

/-- Why a global access faults, if it does (R216): outside every segment, or not permitted by one. -/
def segCause (segs : List (List Nat)) (wr : Bool) (a n : Nat) : Option Nat :=
  let hit := segs.filter (fun g => inSeg g a n)
  if hit.any (fun g => bit (nth 0 g 2) (if wr then 1 else 0) == 1) then none
  else if hit.isEmpty then some 2 else some 3

/-- Why an access of `n` bytes at `ea` through a register of value `x` faults. -/
def accessTrap (t : Tile) (wr : Bool) (x ea n : Nat) : Option Trap :=
  if !addrForm x then some (addrFault 4 x)
  else if isLocal ea then (if spadSize < addrOf ea + n then some (addrFault 1 x) else none)
  else (segCause t.segs wr (addrOf ea) n).map (fun c => addrFault c x)

/-- `xpf`: a range of one readable segment is declared to the prefetchers of the cluster's port; any other is ignored, and no result changes
(R233). -/
def opXpf (c : Nat) : Op where
  grp := 7
  func := 4
  legal := fun b => checkFields [bits b 43 5, bits b 32 6, bits b 4 28] []
  eff := fun b s t =>
    let x := t.areg (bits b 0 4)
    let n := t.sreg (fRA b)
    Eff.reg (if addrForm x && !isLocal x && (segCause t.segs false (addrOf x) n).isNone then s.declare c (addrOf x) n else s) t

/-- Read `n` bytes at an address that has been checked. -/
def State.tileRead (s : State) (c : Nat) (t : Tile) (ea n : Nat) : State × Nat × List Nat :=
  if isLocal ea then s.spadRead c t (addrOf ea) n else s.hwRead (iCLU c) (addrOf ea) n

/-- Write bytes at an address that has been checked: a global store waits for the tile's completion (R191, R206). The status is 0 or
BUS_ERROR (R243). -/
def State.tileWrite (s : State) (c : Nat) (t : Tile) (ea : Nat) (bs : List Nat) : State × Tile × Nat :=
  if isLocal ea then
    let r := s.spadWrite c t (addrOf ea) bs
    (r.1, r.2, 0)
  else
    let k := s.checkStore (iCLU c) true (addrOf ea) bs.length
    (k.1, { t with buf := (addrOf ea, bs) :: t.buf }, k.2)

/-- The end of a tile at an access with a status (R193, R243). -/
def accessEnd (status : Nat) : Trap := ⟨status, 0, 0⟩

/-! ### Loads and stores (R230, R231) -/

/-- The address register of format M. -/
def fAR (b : Nat) : Nat := bits b 39 4

/-- The address of a load or store. -/
def Tile.memAddr (t : Tile) (b : Nat) : Nat :=
  if bit b 38 = 1 then t.areg (fAR b) else addrAdd (t.areg (fAR b)) (imm64 (fIMM b))

/-- The tile with its address register stepped after the access. -/
def Tile.postStep (t : Tile) (b : Nat) : Tile :=
  if bit b 38 = 1 then t.setA (fAR b) (addrAdd (t.areg (fAR b)) (imm64 (fIMM b))) else t

/-- Why a load or store of `n` bytes aligned to `al` faults (R231, R240). -/
def memTrap (t : Tile) (wr vec : Bool) (b n al : Nat) : Option Trap :=
  let x := t.areg (fAR b)
  let ea := t.memAddr b
  if addrOf ea % al ≠ 0 then some (alignFault x)
  else if addrForm x ∧ vec ∧ !isLocal ea then some (addrFault 8 x)
  else accessTrap t wr x ea n

/-- A load of `n` bytes whose register `f` forms from the bytes' number; a vector's bytes take their residues from the checked data (R187,
R282). -/
def opLoad (c func n al : Nat) (vec : Bool) (f : Tile → Nat → Nat → Tile) : Op where
  grp := 5
  func := func
  chk := if vec then { rows := fun b _ => [fRD b], run := fun b _ _ r x => (false, offsFrom r x (fRD b) (fun _ => 0)) } else {}
  legal := fun b => checkFields [bits b 32 6] []
  eff := fun b s t =>
    match memTrap t false vec b n al with
    | some x => { s := s, t := t, trap := some x }
    | none =>
      let r := s.tileRead c t (t.memAddr b) n
      if r.2.1 ≠ 0 then { s := r.1, t := t, trap := some (accessEnd r.2.1) }
      else Eff.reg r.1 (f (t.postStep b) (fRD b) (leNat r.2.2))

/-- A scalar load, sign- or zero-extended. -/
def opLd (c func n : Nat) (sg : Bool) : Op :=
  opLoad c func n n false (fun t rd v => t.setS rd (if sg then toCode 64 (sext (8 * n) v) else v))

/-- A store of `n` bytes of the number that `f` reads from the tile; the residues of a vector's bytes are checked (R187). -/
def opStore (c func n al : Nat) (vec : Bool) (f : Tile → Nat → Nat) : Op where
  grp := 5
  func := func
  chk := if vec then { run := fun b _ t _ _ => (t.badCells (fRD b) 0 256, []) } else {}
  legal := fun b => checkFields [bits b 32 6] []
  eff := fun b s t =>
    match memTrap t true vec b n al with
    | some x => { s := s, t := t, trap := some x }
    | none =>
      let r := s.tileWrite c t (t.memAddr b) (leBytes n (f t (fRD b)))
      if r.2.2 ≠ 0 then { s := r.1, t := t, trap := some (accessEnd r.2.2) }
      else Eff.reg r.1 (r.2.1.postStep b)

/-- A scalar store. -/
def opSt (c func n : Nat) : Op := opStore c func n n false (fun t rd => t.sreg rd)

/-! ### Bulk transfers (R232) -/

def xAD (b : Nat) : Nat := bits b 44 4
def xAS (b : Nat) : Nat := bits b 40 4
def xRS (b : Nat) : Nat := bits b 35 5

/-- The shape of a transfer: row length, row count, source and destination strides. -/
def Tile.shape (t : Tile) (b k : Nat) : Nat := t.sreg (xRS b + k)

/-- Whether a shape keeps the limits of R232. -/
def Tile.shapeOk (t : Tile) (b : Nat) : Bool :=
  decide (1 ≤ t.shape b 0) && decide (t.shape b 0 ≤ 65536) && decide (1 ≤ t.shape b 1) && decide (t.shape b 1 ≤ 4096) &&
  decide (t.shape b 0 * t.shape b 1 ≤ spadSize)

/-- The addresses of row `r`, source and destination. -/
def Tile.srcRow (t : Tile) (b r : Nat) : Nat := addrAdd (t.areg (xAS b)) (r * t.shape b 2)
def Tile.dstRow (t : Tile) (b r : Nat) : Nat := addrAdd (t.areg (xAD b)) (r * t.shape b 3)

/-- Why a transfer faults: the registers' form, the spaces, the shape, then the rows in order. -/
def xferTrap (t : Tile) (b : Nat) (srcLoc dstLoc : Bool) : Option Trap :=
  let x := t.areg (xAS b)
  let y := t.areg (xAD b)
  if !addrForm x then some (addrFault 4 x)
  else if !addrForm y then some (addrFault 4 y)
  else if isLocal x != srcLoc then some (addrFault 8 x)
  else if isLocal y != dstLoc then some (addrFault 8 y)
  else if !t.shapeOk b then some (addrFault 7 0)
  else (List.range (t.shape b 1)).findSome? (fun r =>
    match accessTrap t false x (t.srcRow b r) (t.shape b 0) with
    | some e => some e
    | none => accessTrap t true y (t.dstRow b r) (t.shape b 0))

/-- Move one row; a status already met stops the transfer. -/
def moveRow (c b : Nat) (e : Eff) (r : Nat) : Eff :=
  if e.trap.isSome then e
  else
    let rd := e.s.tileRead c e.t (e.t.srcRow b r) (e.t.shape b 0)
    if rd.2.1 ≠ 0 then { e with s := rd.1, trap := some (accessEnd rd.2.1) }
    else
      let w := rd.1.tileWrite c e.t (e.t.dstRow b r) rd.2.2
      if w.2.2 ≠ 0 then { e with s := w.1, trap := some (accessEnd w.2.2) } else { e with s := w.1, t := w.2.1 }

/-- Read every row of a transfer. -/
def readRows (c b : Nat) (s : State) (t : Tile) : State × Nat × List (List Nat) :=
  (List.range (t.shape b 1)).foldl (fun (a : State × Nat × List (List Nat)) r =>
    let rd := a.1.tileRead c t (t.srcRow b r) (t.shape b 0)
    (rd.1, if a.2.1 ≠ 0 then a.2.1 else rd.2.1, a.2.2 ++ [rd.2.2])) (s, 0, [])

/-- The work cost of a transfer (R236). -/
def xferCost (b : Nat) (t : Tile) : Nat :=
  if 1 ≤ xRS b ∧ xRS b ≤ 28 then 1 + ceilDiv (t.shape b 0 * t.shape b 1) 64 else 1

/-- A transfer instruction with the spaces of its source and destination. -/
def opXfer (c func : Nat) (srcLoc dstLoc : Bool) : Op where
  grp := 6
  func := func
  cost := xferCost
  legal := fun b => if bits b 0 35 ≠ 0 then some (illegal 3) else if xRS b = 0 ∨ 28 < xRS b then some (illegal 4) else none
  eff := fun b s t =>
    match xferTrap t b srcLoc dstLoc with
    | some x => { s := s, t := t, trap := some x }
    | none =>
      if srcLoc ∧ dstLoc then
        let a := readRows c b s t
        if a.2.1 ≠ 0 then { s := a.1, t := t, trap := some (accessEnd a.2.1) }
        else
          let w := a.2.2.zipIdx.foldl (fun (p : State × Tile) e => p.1.spadWrite c p.2 (addrOf (t.dstRow b e.2)) e.1) (a.1, t)
          Eff.reg w.1 w.2
      else (List.range (t.shape b 1)).foldl (moveRow c b) (Eff.reg s t)

end Sys2Proof.Machine
end

