-- ==== Sys2Proof/Machine/TackVector.lean ====
section
/-!
DEFINITION. Tack's vector engine: lanes, conversions, reductions, functions and GF(2^8) (R252-R270, R281).
-/

namespace Sys2Proof.Machine

/-! ### Lane operations -/

/-- The results of a lane operation with the flags they set. -/
def joinLanes (l : List (Nat × Nat)) : Nat × Nat := (packLanes 32 (l.map (·.1)), l.foldl (fun f e => f.lor e.2) 0)

/-- Apply a lane operation of up to three operands. -/
def mapLanes (f : Nat → Nat → Nat → Nat × Nat) (a b c : Nat) : Nat × Nat :=
  joinLanes ((List.range 64).map (fun i => f (bits a (32 * i) 32) (bits b (32 * i) 32) (bits c (32 * i) 32)))

/-! ### Format V (R262) -/

def vVD (b : Nat) : Nat := bits b 43 5
def vVA (b : Nat) : Nat := bits b 38 5
def vVB (b : Nat) : Nat := bits b 33 5
def vVC (b : Nat) : Nat := bits b 28 5
def vT (b : Nat) : Nat := bits b 24 4
def vPART (b : Nat) : Nat := bits b 21 3
def vSAT (b : Nat) : Nat := bit b 20
def vRTZ (b : Nat) : Nat := bit b 19
def vPOLY (b : Nat) : Nat := bit b 18
def vIMM (b : Nat) : Nat := bits b 0 16

/-- The fields of format V that an instruction uses. -/
inductive VF where
  | vd | va | vb | vc | t | part | sat | rtz | poly | imm
deriving DecidableEq, Repr

/-- The value of a field. -/
def VF.get (b : Nat) : VF → Nat
  | .vd => vVD b
  | .va => vVA b
  | .vb => vVB b
  | .vc => vVC b
  | .t => vT b
  | .part => vPART b
  | .sat => vSAT b
  | .rtz => vRTZ b
  | .poly => vPOLY b
  | .imm => vIMM b

/-- All fields of format V. -/
def vfAll : List VF := [.vd, .va, .vb, .vc, .t, .part, .sat, .rtz, .poly, .imm]

/-- Illegal when `T` is none of the listed types, or an unused field is not 0 (R262, R280). -/
def vLegal (use : List VF) (ts : List Nat) (b : Nat) : Option Trap :=
  if use.contains .t ∧ !ts.contains (vT b) then some (illegal 2)
  else if bits b 16 2 ≠ 0 ∨ (vfAll.filter (fun f => !use.contains f)).any (fun f => f.get b != 0) then some (illegal 3)
  else none

/-! ### The residue unit (R283) -/

/-- The body of a check: see `Check.run`. -/
abbrev CheckRun := Nat → State → Tile → Tile → Tile → Bool × List (Nat × Nat)

/-- Integer arithmetic, and shifts: the residue predicted from those that the operand lanes carry, given with their data, is held against the
result lane's. -/
def chkInt (bad : Nat × Nat → Nat × Nat → Nat × Nat → Nat → Bool) : CheckRun := fun b _ t _ x =>
  ((List.range 64).any (fun j =>
    bad (t.lane (vVA b) j) (t.lane (vVB b) j) (t.lane (vVC b) j) (bits (x.vreg (vVD b)) (32 * j) 32)), freshRow (vVD b))

/-- Whether a predicted residue differs from that of a result lane and of what the wrap of R264, or a shift, took from above it. -/
def wrapBad (pred result out : Nat) : Bool := pred % 15 != (elemResidue 32 result + out) % 15

/-- The predictions of integer addition, subtraction, multiplication and `vfma`. -/
def chkAdd : CheckRun := chkInt (fun a b _ r => wrapBad (a.2 + b.2) r ((a.1 + b.1) / 2 ^ 32))
def chkSub : CheckRun := chkInt (fun a b _ r => wrapBad (a.2 + 14 * b.2) r (if a.1 < b.1 then 14 else 0))
def chkMul : CheckRun := chkInt (fun a b _ r => wrapBad (a.2 * b.2) r (a.1 * b.1 / 2 ^ 32))
def chkFma : CheckRun := chkInt (fun a b c r => wrapBad (a.2 * b.2 + c.2) r ((a.1 * b.1 + c.1) / 2 ^ 32))

/-- The predictions of the shifts: left with the bits shifted out of the top, right with those shifted out of the bottom. -/
def chkShl : CheckRun := chkInt (fun a b _ r => wrapBad (a.2 * 2 ^ (b.1 % 32)) r (a.1 * 2 ^ (b.1 % 32) / 2 ^ 32))
def chkShr : CheckRun := chkInt (fun a b _ r => a.2 != (elemResidue 32 r * 2 ^ (b.1 % 32) + a.1 % 2 ^ (b.1 % 32)) % 15)
def chkSra : CheckRun := chkInt (fun a b _ r =>
  (a.2 + 14 * bit a.1 31) % 15 != (signedResidue 32 r * 2 ^ (b.1 % 32) + a.1 % 2 ^ (b.1 % 32)) % 15)

/-- Floating arithmetic: the operands' bits are checked as they are read, and the significand and exponent predicted through the exact result
and the bits that rounding discards are held against the result's (R282, R283). -/
def chkFp (ops : List (Nat → Nat)) : CheckRun := fun b _ t r x =>
  (ops.any (fun f => t.badCells (f b) 0 256) ||
    (List.range 64).any (fun j => fpDiffers fp32 (bits (r.vreg (vVD b)) (32 * j) 32) (bits (x.vreg (vVD b)) (32 * j) 32)),
    freshRow (vVD b))

/-- Bitwise operations, comparisons and `gf` functions: a shadow lane executes them again. -/
def chkShadow : CheckRun := fun b _ _ r x => (r.vreg (vVD b) != x.vreg (vVD b), freshRow (vVD b))

/-- A move: each 32-bit lane of `VD` takes the residue of the lane it comes from, given by register, lane and whether it is negated, and the
residue of its own data where it comes from none. -/
def chkMove (src : Nat → Tile → Nat → Option (Nat × Nat × Bool)) : CheckRun := fun b _ t r x =>
  (false, offsFrom r x (vVD b) (fun i =>
    match src b t (i / 4) with
    | some (n, j, neg) => if neg then (if i % 4 = 0 then 14 * t.laneOff n j else 0) else t.offAt n (4 * j + i % 4)
    | none => 0))

/-- The check of an FP32 or INT32 form, by `T`. -/
def chkByT (fp int : CheckRun) : CheckRun := fun b => if vT b = 0 then fp b else int b

/-- A check of an instruction that writes vector `VD`. -/
def vCheck (run : CheckRun) : Check := { rows := fun b _ => [vVD b], run := run }

/-- An instruction that writes vector `VD` with flags. -/
def vOp (grp func cost : Nat) (legal : Nat → Option Trap) (run : CheckRun) (f : Nat → Tile → Nat × Nat) : Op where
  chk := vCheck run
  grp := grp
  func := func
  cost := fun _ _ => cost
  legal := legal
  eff := fun b s t =>
    let r := f b t
    Eff.reg s ((t.setV (vVD b) r.1).flag r.2)

/-! ### Lane arithmetic (R257, R263, R264) -/

/-- A 32-bit lane as a signed integer. -/
def s32 (a : Nat) : Int := sext 32 a

/-- The result without flags. -/
def plain (v : Nat) : Nat × Nat := (v % 2 ^ 32, 0)

/-- Whether an FP32 code is NaN. -/
def isNan (a : Nat) : Bool := decide (0x7F800000 < a % 2 ^ 31)

/-- The canonical NaN of FP32 (R256). -/
def nan32 : Nat := 0x7FC00000

/-- Whether an FP32 code orders below another; -0 lies below +0 (R257). -/
def fpBelow (a b : Nat) : Bool :=
  fpLt (fpDecode fp32 a) (fpDecode fp32 b) || (fpEq (fpDecode fp32 a) (fpDecode fp32 b) && bit a 31 == 1)

/-- FP32 minimum and maximum. -/
def fpMin (a b : Nat) : Nat := if isNan a || isNan b then nan32 else if fpBelow a b then a else b
def fpMax (a b : Nat) : Nat := if isNan a || isNan b then nan32 else if fpBelow a b then b else a

/-- INT32 minimum and maximum. -/
def intMin (a b : Nat) : Nat := if s32 a ≤ s32 b then a else b
def intMax (a b : Nat) : Nat := if s32 a ≤ s32 b then b else a

/-- An instruction of group 8 with an FP32 and an INT32 meaning. -/
def v8 (func : Nat) (use : List VF) (run : CheckRun) (fp int : Nat → Nat → Nat → Nat × Nat) : Op :=
  vOp 8 func 1 (vLegal ([.vd, .va, .t] ++ use) [0, 1]) run
    (fun b t => mapLanes (if vT b = 0 then fp else int) (t.vreg (vVA b)) (t.vreg (vVB b)) (t.vreg (vVC b)))

/-- An instruction of group 8 on 32-bit lanes with `T` 1 only. -/
def v8i (func : Nat) (use : List VF) (run : CheckRun) (int : Nat → Nat → Nat → Nat) : Op :=
  vOp 8 func 1 (vLegal ([.vd, .va, .t] ++ use) [1]) run
    (fun b t => mapLanes (fun x y z => plain (int x y z)) (t.vreg (vVA b)) (t.vreg (vVB b)) (t.vreg (vVC b)))

/-- All ones where a comparison holds. -/
def maskOf (p : Bool) : Nat × Nat := (if p then 0xFFFFFFFF else 0, 0)

/-- The lane that the minimum or maximum of lane `j` is taken from, for the function `f` of two lanes; a NaN comes from none. -/
def pickSrc (f : Nat → Nat → Nat) (fp : Bool) (b : Nat) (t : Tile) (j : Nat) : Option (Nat × Nat × Bool) :=
  let x := (t.lane (vVA b) j).1
  let y := (t.lane (vVB b) j).1
  if fp && (isNan x || isNan y) then none else some (if f x y = x then vVA b else vVB b, j, false)

/-- The lane that a sign operation takes lane `j` from, negated where `neg` says so; a NaN comes from none. -/
def signSrc (neg : Nat → Bool) (b : Nat) (t : Tile) (j : Nat) : Option (Nat × Nat × Bool) :=
  let x := (t.lane (vVA b) j).1
  if vT b = 0 ∧ isNan x then none else some (vVA b, j, neg x)

/-- The lane that `vsel` and `vperm` take lane `j` from. -/
def selSrc (b : Nat) (t : Tile) (j : Nat) : Option (Nat × Nat × Bool) :=
  some (if (t.lane (vVC b) j).1 = 0 then vVB b else vVA b, j, false)
def permSrc (b : Nat) (t : Tile) (j : Nat) : Option (Nat × Nat × Bool) := some (vVA b, (t.lane (vVB b) j).1 % 64, false)

/-- A comparison of group 8. -/
def vCmp (func : Nat) (fp : Fp → Fp → Bool) (int : Int → Int → Bool) : Op :=
  v8 func [.vb] chkShadow (fun a b _ => maskOf (fp (fpDecode fp32 a) (fpDecode fp32 b))) (fun a b _ => maskOf (int (s32 a) (s32 b)))

/-- An FP32 sign operation: NaN gives the canonical NaN. -/
def fpSign (f : Nat → Nat) (a : Nat) : Nat × Nat := (if isNan a then nan32 else f a, 0)

/-! ### Conversions (R252, R258, R259, R265) -/

/-- The floating format of a code of R252. -/
def fmtOf (t : Nat) : FpFmt := if t = 2 then e4m3 else if t = 3 then e5m2 else if t = 4 then bf16 else fp16

/-- The width of the elements of a format's code. -/
def fmtBits (t : Nat) : Nat := if t = 0 ∨ t = 6 then 4 else if t = 4 ∨ t = 5 then 16 else 8

/-- The parts of a vector register that a format has. -/
def partsOf (t : Nat) : Nat := 32 / fmtBits t

/-- FP32 to INT32. -/
def cvtToInt (rtz : Bool) (a : Nat) : Nat × Nat :=
  match fpDecode fp32 a with
  | .nan => (0, fNV)
  | .inf n => (toCode 32 (if n then -2147483648 else 2147483647), fSAT)
  | x =>
    let r := clampInt 32 (x.toIntR rtz)
    (toCode 32 r.1, if r.2 then fSAT else 0)

/-- A narrow element to FP32 or INT32. -/
def widen (t a : Nat) : Nat := if t ≤ 1 then toCode 32 (sext (fmtBits t) a) else (fpEncode fp32 false (fpDecode (fmtOf t) a)).1

/-- A lane to a narrow format. -/
def narrow (t : Nat) (sat : Bool) (a : Nat) : Nat × Nat :=
  if t ≤ 1 then
    (if sat then
      let r := clampInt (fmtBits t) (s32 a)
      (toCode (fmtBits t) r.1, if r.2 then fSAT else 0)
    else (a % 2 ^ fmtBits t, 0))
  else
    let f := fmtOf t
    let r := fpEncode f sat (fpDecode fp32 a)
    (r.1, if r.1 = f.nanc ∧ !isNan a then r.2.lor fNV else r.2)

/-- A number with `w` bits at `lo` replaced. -/
def putBits (v lo w x : Nat) : Nat := v - bits v lo w * 2 ^ lo + x % 2 ^ w * 2 ^ lo

/-- The floor of the binary logarithm of a finite nonzero FP32 magnitude. -/
def log2Mag (a : Nat) : Int :=
  let m := a % 2 ^ 31
  if m < 2 ^ 23 then (Nat.log2 m : Int) - 149 else (m / 2 ^ 23 : Nat) - (127 : Int)

/-- Quantize a block of 32 FP32 lanes (R259): exponent, elements, flags. -/
def quantize (sx8 : Bool) (l : List Nat) : Nat × List Nat × Nat :=
  let w := if sx8 then 8 else 4
  if l.any (fun a => decide (0x7F800000 ≤ a % 2 ^ 31)) then
    (255, List.replicate 32 0, if l.any isNan then 0 else fNV)
  else
    let m := l.foldl (fun m a => max m (a % 2 ^ 31)) 0
    if m = 0 then (0, List.replicate 32 0, 0)
    else
      let e := max 0 (min 254 (log2Mag m - (if sx8 then 6 else 2) + 127))
      let lim : Int := 2 ^ (w - 1) - 1
      let el := l.map (fun a =>
        let r := (fpDecode fp32 a).ratio
        let sh := 127 - e
        let q := if 0 ≤ sh then divRneI (r.1 * 2 ^ sh.toNat) r.2 else divRneI r.1 (r.2 * 2 ^ (-sh).toNat)
        (toCode w (max (-lim) (min lim q)), if q < -lim ∨ lim < q then fSAT else 0))
      (e.toNat, el.map (·.1), el.foldl (fun f x => f.lor x.2) 0)

/-- Whether the residues of two elements of a format's code differ. -/
def elemDiffers (t x y : Nat) : Bool :=
  if t = 0 ∨ t = 6 then int4Residue x != int4Residue y
  else if t = 1 ∨ t = 7 then signedResidue 8 x != signedResidue 8 y
  else fpDiffers (fmtOf t) x y

/-- The check of `vcvt`: its operands, and the converted lanes. -/
def chkCvt : CheckRun := fun b _ t r x =>
  let bad := if vT b = 0 then (List.range 64).any (fun j => t.laneOff (vVA b) j != 0) else t.badCells (vVA b) 0 256
  let diff (j : Nat) : Bool :=
    let u := bits (r.vreg (vVD b)) (32 * j) 32
    let v := bits (x.vreg (vVD b)) (32 * j) 32
    if vT b = 0 then fpDiffers fp32 u v else elemResidue 32 u != elemResidue 32 v
  (bad || (List.range 64).any diff, freshRow (vVD b))

/-- The check of `vwid`: the bytes of the part, and the widened lanes. -/
def chkWid : CheckRun := fun b _ t r x =>
  let n := 8 * fmtBits (vT b)
  let diff (j : Nat) : Bool :=
    let u := bits (r.vreg (vVD b)) (32 * j) 32
    let v := bits (x.vreg (vVD b)) (32 * j) 32
    if vT b ≤ 1 then elemResidue 32 u != elemResidue 32 v else fpDiffers fp32 u v
  (t.badCells (vVA b) (n * vPART b) n || (List.range 64).any diff, freshRow (vVD b))

/-- The elements of the part of `VD` that an instruction writes differ in residue. -/
def partDiffers (b : Nat) (r x : Tile) : Bool :=
  let w := fmtBits (vT b)
  (List.range 64).any (fun j => elemDiffers (vT b) (bits (r.vreg (vVD b)) (w * (64 * vPART b + j)) w) (bits (x.vreg (vVD b)) (w * (64 * vPART b + j)) w))

/-- The cells of the part of `VD`, with the residues of their data. -/
def freshPart (b : Nat) : List (Nat × Nat) :=
  let n := 8 * fmtBits (vT b)
  (List.range n).map (fun i => (cellOf (vVD b) (n * vPART b + i), 0))

/-- The check of `vnar`: its operands, and the elements of the part; the other parts keep their residues. -/
def chkNar : CheckRun := fun b _ t r x =>
  let bad := if vT b ≤ 1 then (List.range 64).any (fun j => t.laneOff (vVA b) j != 0) else t.badCells (vVA b) 0 256
  (bad || partDiffers b r x, freshPart b)

/-- The check of `vqsx`: its operands, the elements of the part, and the two exponents. -/
def chkQsx : CheckRun := fun b _ t r x =>
  let e := 2 * vPART b
  (t.badCells (vVA b) 0 256 || partDiffers b r x || (List.range 2).any (fun k => r.cell (vVC b) (e + k) % 15 != x.cell (vVC b) (e + k) % 15),
    freshPart b ++ (List.range 2).map (fun k => (cellOf (vVC b) (e + k), 0)))

def opVcvt : Op :=
  vOp 9 1 1 (fun b => match vLegal [.vd, .va, .t, .rtz] [0, 1] b with
    | some x => some x
    | none => if vT b = 0 ∧ vRTZ b = 1 then some (illegal 3) else none) chkCvt
    (fun b t => mapLanes (fun a _ _ => if vT b = 0 then fpOfInt fp32 (s32 a) else cvtToInt (vRTZ b == 1) a) (t.vreg (vVA b)) 0 0)

/-- The legality of an instruction with a part (R265). -/
def partLegal (use : List VF) (ts : List Nat) (b : Nat) : Option Trap :=
  if !ts.contains (vT b) ∨ partsOf (vT b) ≤ vPART b then some (illegal 2) else vLegal use ts b

def opVwid : Op :=
  vOp 9 2 1 (partLegal [.vd, .va, .t, .part] [0, 1, 2, 3, 4, 5]) chkWid
    (fun b t =>
      let w := fmtBits (vT b)
      (packLanes 32 ((lanesOf w 64 (t.vreg (vVA b) / 2 ^ (64 * w * vPART b))).map (widen (vT b))), 0))

def opVnar : Op :=
  vOp 9 3 1 (partLegal [.vd, .va, .t, .part, .sat] [0, 1, 2, 3, 4, 5]) chkNar
    (fun b t =>
      let w := fmtBits (vT b)
      let l := (lanes32 (t.vreg (vVA b))).map (narrow (vT b) (vSAT b == 1))
      (putBits (t.vreg (vVD b)) (64 * w * vPART b) (64 * w) (packLanes w (l.map (·.1))), l.foldl (fun f e => f.lor e.2) 0))

/-- `vqsx`: elements into a part of `VD`, exponents into two bytes of `VC`, which must differ. -/
def opVqsx : Op where
  grp := 9
  func := 4
  chk := { rows := fun b _ => [vVD b, vVC b], run := chkQsx }
  legal := fun b => match partLegal [.vd, .va, .vc, .t, .part] [6, 7] b with
    | some x => some x
    | none => if vVC b = vVD b then some (illegal 4) else none
  eff := fun b s t =>
    let w := fmtBits (vT b)
    let l := lanes32 (t.vreg (vVA b))
    let q0 := quantize (vT b == 7) (l.take 32)
    let q1 := quantize (vT b == 7) (l.drop 32)
    let d := putBits (t.vreg (vVD b)) (64 * w * vPART b) (64 * w) (packLanes w (q0.2.1 ++ q1.2.1))
    let e := putBits (t.vreg (vVC b)) (16 * vPART b) 16 (q0.1 + 256 * q1.1)
    Eff.reg s (((t.setV (vVD b) d).setV (vVC b) e).flag (q0.2.2.lor q1.2.2))

def opVbcast : Op :=
  vOp 9 5 1 (vLegal [.vd, .va, .t] [0, 1]) (chkMove (fun _ _ _ => none))
    (fun b t =>
      let x := t.sreg (vVA b)
      (if vT b = 0 then packLanes 32 (List.replicate 64 x) else packLanes 8 (List.replicate 256 x), 0))

def opVmovi : Op :=
  vOp 9 6 1 (vLegal [.vd, .t, .imm] [0, 1]) (chkMove (fun _ _ _ => none))
    (fun b _ => (packLanes 32 (List.replicate 64 (if vT b = 0 then vIMM b * 65536 else toCode 32 (sext 16 (vIMM b)))), 0))

def opVperm : Op :=
  vOp 9 7 2 (vLegal [.vd, .va, .vb, .t] [0]) (chkMove permSrc)
    (fun b t => mapLanes (fun _ y _ => plain (bits (t.vreg (vVA b)) (32 * (y % 64)) 32)) 0 (t.vreg (vVB b)) 0)

def opVgetf : Op where
  grp := 9
  func := 8
  legal := vLegal [.vd] []
  eff := fun b s t => Eff.reg s (t.setS (vVD b) t.flags)

def opVclrf : Op where
  grp := 9
  func := 9
  legal := vLegal [] []
  eff := fun _ s t => Eff.reg s { t with flags := 0 }

/-! ### Reductions (R267) -/

/-- One level of a pairwise tree. -/
def treeLevel (f : Nat → Nat → Nat × Nat) : List Nat → List (Nat × Nat)
  | x :: y :: r => f x y :: treeLevel f r
  | [x] => [(x, 0)]
  | [] => []

/-- A pairwise tree of `n` levels: the value and the flags. -/
def treeOf (f : Nat → Nat → Nat × Nat) : Nat → List Nat → Nat × Nat
  | 0, l => (nth 0 l 0, 0)
  | n + 1, l =>
    let r := treeLevel f l
    let q := treeOf f n (r.map (·.1))
    (q.1, r.foldl (fun g e => g.lor e.2) q.2)

/-- The check of `vredsum` over INT32: the sums of the residues, level by level, with the carries lost. -/
def chkSum : CheckRun := fun b _ t r x =>
  ((List.range 32).any (fun i => (t.laneOff (vVA b) (2 * i) + t.laneOff (vVA b) (2 * i + 1)) % 15 != 0) ||
    elemResidue 32 (bits (r.vreg (vVD b)) 0 32) != elemResidue 32 (bits (x.vreg (vVD b)) 0 32) || bits (x.vreg (vVD b)) 32 2016 != 0,
    freshRow (vVD b))

/-- The lane that a maximum or minimum of all lanes comes from, for the function `f` of two lanes. -/
def redSrc (f : Nat → Nat → Nat) (fp : Bool) (b : Nat) (t : Tile) (j : Nat) : Option (Nat × Nat × Bool) :=
  let l := lanes32 (t.vreg (vVA b))
  if j ≠ 0 ∨ (fp && l.any isNan) then none
  else
    let pick (x y : Nat) : Nat × Nat := (if f (x % 2 ^ 32) (y % 2 ^ 32) = x % 2 ^ 32 then x else y, 0)
    some (vVA b, (treeOf pick 6 (l.zipIdx.map (fun e => e.1 + 2 ^ 32 * e.2))).1 / 2 ^ 32, false)

/-- A reduction into lane 0. -/
def vRed (func : Nat) (run : CheckRun) (fp int : Nat → Nat → Nat × Nat) : Op :=
  vOp 0xA func 6 (vLegal [.vd, .va, .t] [0, 1]) run
    (fun b t => treeOf (if vT b = 0 then fp else int) 6 (lanes32 (t.vreg (vVA b))))

/-! ### Functions (R266, R268) -/

/-- The code of 1.0 and of an infinity in FP32. -/
def one32 : Nat := 0x3F800000
def inf32 : Nat := 0x7F800000

/-- The special result of a function, with its flags (R268). -/
def fpSpecial (func a : Nat) : Option (Nat × Nat) :=
  let neg := bit a 31 == 1
  let mag := a % 2 ^ 31
  let sgn := a / 2 ^ 31 % 2 * 2 ^ 31
  if isNan a then some (nan32, 0)
  else if func = 0x10 then
    (if mag = inf32 then some (if neg then 0 else inf32, 0) else none)
  else if func = 0x11 then
    (if mag = 0 then some (0xFF800000, 0) else if neg then some (nan32, fNV) else if mag = inf32 then some (inf32, 0) else none)
  else if func = 0x12 then
    (if mag = 0 then some (sgn + inf32, 0) else if mag = inf32 then some (sgn, 0) else none)
  else if func = 0x13 then
    (if mag = 0 then some (sgn + inf32, 0) else if neg then some (nan32, fNV) else if mag = inf32 then some (0, 0) else none)
  else if func = 0x17 then
    (if mag = inf32 then some (if neg then 0 else one32, 0) else none)
  else (if mag = inf32 then some (sgn + one32, 0) else if mag = 0 then some (a, 0) else none)

/-- A function of group `0xA`: a special result, or the code it delivers, with the flags that implies. -/
def fpFunction (func a : Nat) : Nat × Nat :=
  match fpSpecial func a with
  | some r => r
  | none =>
    let v := fnCode func a
    if v % 2 ^ 31 = inf32 then (v, fOF)
    else if 0 < v % 2 ^ 31 ∧ v % 2 ^ 31 < 2 ^ 23 ∧ !fnIsExact func a then (v, fUF)
    else (v, 0)

/-- A function with an accuracy bound. -/
def vFun (func : Nat) : Op :=
  vOp 0xA func 4 (vLegal [.vd, .va, .t] [0]) (chkFp [vVA]) (fun b t => mapLanes (fun a _ _ => fpFunction func a) (t.vreg (vVA b)) 0 0)

/-! ### GF(2^8) (R269, R270) -/

/-- Multiply by x in the field. -/
def gfX (poly a : Nat) : Nat := if 128 ≤ a then (2 * a).xor (if poly = 0 then 0x11D else 0x12D) else 2 * a

/-- The product of two elements, over the low `n` bits of `b`. -/
def gfMulGo (poly : Nat) : Nat → Nat → Nat → Nat
  | 0, _, _ => 0
  | n + 1, a, b => (if b % 2 = 1 then a else 0).xor (gfMulGo poly n (gfX poly a) (b / 2))

/-- The product of two elements. -/
def gfMul (poly a b : Nat) : Nat := gfMulGo poly 8 a b

/-- A power of an element. -/
def gfPow (poly a : Nat) : Nat → Nat
  | 0 => 1
  | n + 1 => gfMul poly a (gfPow poly a n)

/-- α^k for 0 to 254, and 0 for `0xFF`. -/
def gfExp (poly k : Nat) : Nat := if k = 255 then 0 else gfPow poly 2 k

/-- The discrete logarithm, `0xFF` for 0. -/
def gfLog (poly a : Nat) : Nat := if a = 0 then 255 else ((List.range 255).find? (fun k => gfPow poly 2 k == a)).getD 255

/-- The inverse, 0 for 0. -/
def gfInv (poly a : Nat) : Nat := if a = 0 then 0 else gfPow poly a 254

/-- An instruction of group `0xB`: the polynomial, the old destination byte and the operand bytes. -/
def gfOp (func cost : Nat) (use : List VF) (f : Nat → Nat → Nat → Nat → Nat) : Op :=
  vOp 0xB func cost (fun b => if vT b ≠ 0 then some (illegal 2) else vLegal ([.vd, .va] ++ use) [] b) chkShadow
    (fun b t =>
      let g (v i : Nat) : Nat := bits v (8 * i) 8
      (packLanes 8 ((List.range 256).map (fun i =>
        f (vPOLY b) (g (t.vreg (vVD b)) i) (g (t.vreg (vVA b)) i) (g (t.vreg (vVB b)) i))), 0))

/-- `gf.mulc`: every byte times the immediate's low byte. -/
def opGfMulc : Op :=
  vOp 0xB 8 1 (fun b => if vT b ≠ 0 then some (illegal 2)
    else if 256 ≤ vIMM b then some (illegal 3) else vLegal [.vd, .va, .poly, .imm] [] b) chkShadow
    (fun b t => (packLanes 8 ((lanesOf 8 256 (t.vreg (vVA b))).map (fun x => gfMul (vPOLY b) x (vIMM b))), 0))

end Sys2Proof.Machine
end

