-- ==== Sys2Proof/Machine/TackMatrix.lean ====
section
/-!
DEFINITION. Tack's matrix engine: panels, products, the summation tree and the accumulators (R271-R280).
-/

namespace Sys2Proof.Machine

/-! ### Panels (R272, R274) -/

/-- The depth of an operand format. -/
def mmaK (fmt : Nat) : Nat := if fmt = 1 ∨ fmt = 8 then 128 else if fmt = 6 ∨ fmt = 7 then 32 else 64

/-- The work cost of an operand format (R274). -/
def mmaCost (fmt : Nat) : Nat := if fmt = 6 ∨ fmt = 7 then 128 else if fmt ≤ 9 then 64 else 1

/-- Whether a format has block exponents. -/
def mmaSx (fmt : Nat) : Bool := fmt == 8 || fmt == 9

/-- The bytes of a panel with its exponent area. -/
def panelBytes (fmt : Nat) : Nat := 4096 + if mmaSx fmt then 64 * (mmaK fmt / 32) else 0

/-- The bits of an element. -/
def mmaBits (fmt : Nat) : Nat := 512 / mmaK fmt

/-- The elements of row or column `i` of a panel. -/
def panelRow (fmt : Nat) (p : List Nat) (i : Nat) : List Nat :=
  lanesOf (mmaBits fmt) (mmaK fmt) (leNat ((p.drop (64 * i)).take 64))

/-- The block exponents of row or column `i` of a panel. -/
def panelExp (fmt : Nat) (p : List Nat) (i : Nat) : List Nat :=
  (p.drop (4096 + mmaK fmt / 32 * i)).take (mmaK fmt / 32)

/-- Why a local operand area of `n` bytes faults (R272, R278, R280). -/
def areaTrap (x n : Nat) : Option Trap :=
  if addrOf x % 64 ≠ 0 then some (alignFault x)
  else if !addrForm x then some (addrFault 4 x)
  else if !isLocal x then some (addrFault 8 x)
  else if spadSize < addrOf x + n then some (addrFault 1 x)
  else none

/-! ### Lanes (R275-R277) -/

/-- The formats of the A and the B elements of a floating format. -/
def mmaFmtA (fmt : Nat) : FpFmt := if fmt = 6 then bf16 else if fmt = 7 then fp16 else if fmt ≤ 3 then e4m3 else e5m2
def mmaFmtB (fmt : Nat) : FpFmt :=
  if fmt = 6 then bf16 else if fmt = 7 then fp16 else if fmt = 2 ∨ fmt = 4 then e4m3 else e5m2

/-- The exact sum of the products of two rows of signed elements (R275). -/
def intDot (w : Nat) (a b : List Nat) : Int := (List.zipWith (fun x y => sext w x * sext w y) a b).foldl (· + ·) 0

/-- Level 1 of the tree: sums of exact products, rounded once to FP32 (R276). -/
def fpLevel1 : List (Fp × Nat) → List (Nat × Nat)
  | x :: y :: r =>
    let q := fpAddX x.1 y.1
    let e := fpFinish fp32 (q.1, (q.2.lor x.2).lor y.2)
    e :: fpLevel1 r
  | _ => []

/-- The flags of two operands of which one is NaN are none (R260). -/
def fpProd (fa fb : FpFmt) (x y : Nat) : Fp × Nat := fpMulX (fpDecode fa x) (fpDecode fb y)

/-- The value `T` of a floating lane with its flags (R276). -/
def fpDot (fmt : Nat) (a b : List Nat) : Nat × Nat :=
  let l1 := fpLevel1 (List.zipWith (fpProd (mmaFmtA fmt) (mmaFmtB fmt)) a b)
  let q := treeOf (fpAdd fp32) 6 (l1.map (·.1))
  (q.1, l1.foldl (fun g e => g.lor e.2) q.2)

/-- The value of one block of an SX lane (R277). -/
def sxBlock (w : Nat) (a b : List Nat) (ea eb : Nat) : Nat × Nat :=
  if ea = 255 ∨ eb = 255 then (nan32, 0)
  else
    let d := intDot w a b
    fpRound fp32 false (decide (d < 0)) d.natAbs ((ea : Int) + eb - 254)

/-- The value `T` of an SX lane with its flags (R277). -/
def sxDot (fmt : Nat) (a b ea eb : List Nat) : Nat × Nat :=
  let l := (List.range (mmaK fmt / 32)).map (fun k =>
    sxBlock (mmaBits fmt) ((a.drop (32 * k)).take 32) ((b.drop (32 * k)).take 32) (nth 0 ea k) (nth 0 eb k))
  let q := treeOf (fpAdd fp32) 2 (l.map (·.1))
  (q.1, l.foldl (fun g e => g.lor e.2) q.2)

/-- A lane after an `mma`: the old lane, and the two panels' rows. -/
def mmaLane (fmt : Nat) (z : Bool) (old : Nat) (a b ea eb : List Nat) : Nat × Nat :=
  if fmt ≤ 1 then
    let d := intDot (mmaBits fmt) a b
    (toCode 32 (if z then d else s32 old + d), 0)
  else
    let r := if mmaSx fmt then sxDot fmt a b ea eb else fpDot fmt a b
    if z then r
    else
      let q := fpAdd fp32 old r.1
      (q.1, q.2.lor r.2)

/-- One row of the accumulator after an `mma`. -/
def mmaRow (fmt : Nat) (z : Bool) (old : Nat) (a ea : List Nat) (bs : List (List Nat × List Nat)) : Nat × Nat :=
  joinLanes (bs.zipIdx.map (fun e => mmaLane fmt z (bits old (32 * e.2) 32) a e.1.1 ea e.1.2))

/-- The tile after an `mma` of two panels. -/
def mmaTile (t : Tile) (k fmt : Nat) (z : Bool) (pa pb : List Nat) : Tile :=
  let bs := (List.range 64).map (fun j => (panelRow fmt pb j, panelExp fmt pb j))
  (List.range 64).foldl (fun t i =>
    let r := mmaRow fmt z (t.accRow k i) (panelRow fmt pa i) (panelExp fmt pa i) bs
    (t.setAccRow k i r.1).flag r.2) t

/-- The residue predicted for the sum of the products of two rows of signed elements of `w` bits (R283). -/
def intDotResidue (w : Nat) (a b : List Nat) : Nat :=
  (List.zipWith (fun x y => residue (sext w x) * residue (sext w y)) a b).sum % 15

def mACC (b : Nat) : Nat := bits b 45 3
def mAA (b : Nat) : Nat := bits b 40 4
def mAB (b : Nat) : Nat := bits b 36 4
def mFMT (b : Nat) : Nat := bits b 32 4

/-- The check of `mma` (R283): in an integer format the residue of each lane, predicted from those of the operands and of the lane added to, with
what the wrap takes; in a floating format the bits of the lane added to, and the residues of the result. -/
def chkMma (c : Nat) : CheckRun := fun b s t r x =>
  let fmt := mFMT b
  let z := bit b 31 == 1
  let panel (a : Nat) : List Nat := (s.spadRead c t (addrOf (t.areg a)) (panelBytes fmt)).2.2
  let pa := panel (mAA b)
  let pb := panel (mAB b)
  let lane (u : Tile) (q j : Nat) : Nat := u.cell q j
  let bad (e : Nat × Nat) (j : Nat) : Bool :=
    let old := if z then 0 else lane t e.1 j
    if fmt ≤ 1 then
      let a := panelRow fmt pa e.2
      let w := panelRow fmt pb j
      let d := s32 old + intDot (mmaBits fmt) a w
      let pred := intDotResidue (mmaBits fmt) a w + (if z then 0 else (t.cellRes e.1 j + 14 * bit old 31) % 15)
      pred % 15 != (signedResidue 32 (lane x e.1 j) + residue ((d - s32 (lane r e.1 j)) / 2 ^ 32)) % 15
    else (!z && t.offAt e.1 j != 0) || fpDiffers fp32 (lane r e.1 j) (lane x e.1 j)
  ((accRows (mACC b)).zipIdx.any (fun e => (List.range 64).any (bad e)), (accRows (mACC b)).flatMap freshRow)

/-- `mma` (R273-R277). -/
def opMma (c : Nat) : Op where
  grp := 0xC
  func := 1
  chk := { rows := fun b _ => accRows (mACC b), run := chkMma c }
  cost := fun b _ => mmaCost (mFMT b)
  legal := fun b => if 9 < mFMT b then some (illegal 2) else checkFields [bit b 44, bits b 0 31] []
  eff := fun b s t =>
    let x := t.areg (mAA b)
    let y := t.areg (mAB b)
    let n := panelBytes (mFMT b)
    if addrOf x % 64 ≠ 0 then { s := s, t := t, trap := some (alignFault x) }
    else if addrOf y % 64 ≠ 0 then { s := s, t := t, trap := some (alignFault y) }
    else match areaTrap x n, areaTrap y n with
      | some e, _ => { s := s, t := t, trap := some e }
      | none, some e => { s := s, t := t, trap := some e }
      | none, none =>
        let ra := s.spadRead c t (addrOf x) n
        let rb := ra.1.spadRead c t (addrOf y) n
        if ra.2.1 ≠ 0 ∨ rb.2.1 ≠ 0 then { s := rb.1, t := t, trap := some (accessEnd 0x0304) }
        else Eff.reg rb.1 (mmaTile t (mACC b) (mFMT b) (bit b 31 == 1) ra.2.2 rb.2.2)

/-! ### Whole accumulators (R278) -/

def dAR (b : Nat) : Nat := bits b 40 4
def dV (b : Nat) : Nat := bits b 35 5
def dRS (b : Nat) : Nat := bits b 30 5

/-- The row an instruction names. -/
def Tile.accRowIdx (t : Tile) (b : Nat) : Nat := (t.sreg (dRS b) + bits b 0 6) % 64

/-- The fields of format MA that an instruction does not use must be 0. -/
def maLegal (useAR useRow : Bool) (b : Nat) : Option Trap :=
  checkFields ([bit b 44, bits b 6 24] ++ (if useAR then [] else [dAR b]) ++
    (if useRow then [] else [dV b, dRS b, bits b 0 6])) []

/-- An accumulator whose lanes take the residues of their data. -/
def chkAccNew : Check where
  rows := fun b _ => accRows (mACC b)
  run := fun b _ _ r x => (false, (accRows (mACC b)).flatMap (fun q => offsFrom r x q (fun _ => 0)))

def opAcczero : Op where
  grp := 0xD
  func := 1
  chk := chkAccNew
  legal := maLegal false false
  eff := fun b s t => Eff.reg s ((List.range 64).foldl (fun t i => t.setAccRow (mACC b) i 0) t)

def opAccst (c : Nat) : Op where
  grp := 0xD
  func := 2
  chk := { run := fun b _ t _ _ => ((accRows (mACC b)).any (fun q => t.badCells q 0 64), []) }
  cost := fun _ _ => 64
  legal := maLegal true false
  eff := fun b s t =>
    let x := t.areg (dAR b)
    match areaTrap x 16384 with
    | some e => { s := s, t := t, trap := some e }
    | none =>
      let w := s.spadWrite c t (addrOf x) ((List.range 64).flatMap (fun i => leBytes 256 (t.accRow (mACC b) i)))
      Eff.reg w.1 w.2

def opAccld (c : Nat) : Op where
  grp := 0xD
  func := 3
  chk := chkAccNew
  cost := fun _ _ => 64
  legal := maLegal true false
  eff := fun b s t =>
    let x := t.areg (dAR b)
    match areaTrap x 16384 with
    | some e => { s := s, t := t, trap := some e }
    | none =>
      let r := s.spadRead c t (addrOf x) 16384
      if r.2.1 ≠ 0 then { s := r.1, t := t, trap := some (accessEnd r.2.1) }
      else Eff.reg r.1 ((List.range 64).foldl (fun t i =>
        t.setAccRow (mACC b) i (leNat ((r.2.2.drop (256 * i)).take 256))) t)

def opAcc2v : Op where
  grp := 0xD
  func := 4
  chk := {
    rows := fun b _ => [dV b]
    run := fun b _ t r x => (false, offsFrom r x (dV b) (fun i =>
      if i % 4 = 0 then t.offAt (32 + mACC b * 64 + t.accRowIdx b) (i / 4) else 0)) }
  legal := maLegal false true
  eff := fun b s t => Eff.reg s (t.setV (dV b) (t.accRow (mACC b) (t.accRowIdx b)))

def opV2acc : Op where
  grp := 0xD
  func := 5
  chk := {
    rows := fun b t => [32 + mACC b * 64 + t.accRowIdx b]
    run := fun b _ t r x => (false, offsFrom r x (32 + mACC b * 64 + t.accRowIdx b) (t.laneOff (dV b))) }
  legal := maLegal false true
  eff := fun b s t => Eff.reg s (t.setAccRow (mACC b) (t.accRowIdx b) (t.vreg (dV b)))

end Sys2Proof.Machine
end

