-- ==== Sys2Proof/Machine/TackTile.lean ====
section
/-!
DEFINITION. Kernel blocks, and how a tile starts on a cluster, is released and is abandoned (R191-R194, R204-R216, R237, R244).
-/

namespace Sys2Proof.Machine

/-! ### The kernel block (R214, R215) -/

/-- Segment `k` of a kernel block: base, bytes, flags. -/
def kbSeg (b : List Nat) (k : Nat) : List Nat :=
  let e := (b.drop (16 * k)).take 16
  [leNat (e.take 8), 64 * leNat ((e.drop 8).take 4), nth 0 e 12]

/-- The fifteen segments of a kernel block. -/
def kbSegs (b : List Nat) : List (List Nat) := (List.range 15).map (fun k => kbSeg b (k + 1))

/-- Whether a segment is valid, readable, writable. -/
def segValid (g : List Nat) : Bool := bit (nth 0 g 2) 2 == 1
def segRd (g : List Nat) : Bool := bit (nth 0 g 2) 0 == 1
def segWr (g : List Nat) : Bool := bit (nth 0 g 2) 1 == 1

/-- Whether a segment keeps R214 and R215 by itself. -/
def segOk (b : List Nat) (k : Nat) : Bool :=
  let g := kbSeg b k
  let e := (b.drop (16 * k)).take 16
  decide (nth 0 g 2 < 8) && (e.drop 13).all (· == 0) && decide (nth 0 g 0 < 2 ^ 48) &&
  (!segValid g || ((segRd g != segWr g) && nth 0 g 0 % 64 == 0 && decide (nth 0 g 0 + nth 0 g 1 ≤ dramEnd)))

/-- Whether no writable segment overlaps another valid segment (R215). -/
def segsApart (l : List (List Nat)) : Bool :=
  let v := l.zipIdx.filter (fun e => segValid e.1)
  v.all (fun x => !segWr x.1 || v.all (fun y => x.2 == y.2 || !overlap (nth 0 x.1 0) (nth 0 x.1 1) (nth 0 y.1 0) (nth 0 y.1 1)))

/-- The code object's address, length and entry. -/
def kbCode (b : List Nat) : Nat := leNat (b.take 8)
def kbLen (b : List Nat) : Nat := leNat ((b.drop 8).take 4)
def kbEntry (b : List Nat) : Nat := leNat ((b.drop 12).take 4)

/-- Whether a kernel block passes the check of R215. -/
def kbOk (b : List Nat) : Bool :=
  let l := kbSegs b
  (List.range 15).all (fun k => segOk b (k + 1)) && segsApart l &&
  kbCode b % 64 == 0 && decide (1 ≤ kbLen b) && decide (kbLen b ≤ 131072) && decide (kbEntry b < kbLen b) &&
  decide (kbCode b + 8 * kbLen b ≤ dramEnd) &&
  l.all (fun g => !(segValid g && segWr g && overlap (nth 0 g 0) (nth 0 g 1) (kbCode b) (8 * kbLen b)))

/-- A command is refused at its start with ADDRESS_FAULT (R215, R354); the record of the cluster that would have run its first tile holds the
cause (R239; entry 118). -/
def State.refuseStart (s : State) (c : Nat) (x : Cmd) (cause addr : Nat) : State :=
  (s.latchExc c { q := x.ptr } 0 (addrFault cause addr)).refuseCmd x.ptr 0x0802

/-- A command starts at cluster `c`'s tile boundary (R215, R354): its kernel block and its verdict address are checked before any tile
runs; a command of which this module runs no tile has its outcome at once (R371, R372). -/
def State.beginCmd (s : State) (c : Nat) (x : Cmd) : State :=
  if x.block % 64 ≠ 0 ∨ dramEnd < x.block + 256 then s.refuseStart c x 6 0
  else
    let r := s.hwRead iSCH x.block 256
    let b := r.2.2
    if r.2.1 ≠ 0 then r.1.refuseCmd x.ptr r.2.1
    else if !kbOk b then r.1.refuseStart c x 6 0
    else match (if x.vaddr = 0 then none else segCause (kbSegs b) true x.vaddr 1) with
    | some k => r.1.refuseStart c x k x.vaddr
    | none => (r.1.modCmd x.ptr (fun x => { x with
      begun := true, code := kbCode b, len := kbLen b, entry := kbEntry b, segs := kbSegs b, todo := [(0, x.tiles)] })).settleCmd x.ptr

/-! ### Starting a tile (R205, R211, R213) -/

/-- The initial state of tile `n` of a command. -/
def initTile (s : State) (x : Cmd) (n stage : Nat) : Tile :=
  let t : Tile :=
    { q := x.ptr, tile := n, stage := stage, since := s.now, pc := x.entry, code := x.code, len := x.len, segs := x.segs }
  let t := (((t.setS 1 n).setS 2 (n % x.shards)).setS 3 x.tiles).setS 4 x.shards
  let t := t.setA 0 (2 ^ 63)
  x.segs.zipIdx.foldl (fun t e => t.setA (e.2 + 1) (if segValid e.1 then nth 0 e.1 0 else 0)) t

/-- Whether an injected residue error waits for the next tile of cluster `c` (R203). -/
def State.injTile (s : State) (c : Nat) : Bool :=
  s.rd bMEM4 MEM4_INJ_ARM == 1 && s.rd bMEM4 MEM4_INJ_UNIT == c &&
  (s.rd bMEM4 MEM4_INJ_TARGET == 5 || s.rd bMEM4 MEM4_INJ_TARGET == 6)

/-- A tile starts on cluster `c`; `ups` holds the upsets that strike its engine data in this run, `inj` where an injection comes from. -/
def State.startTile (s : State) (c : Nat) (x : Cmd) (n stage inj : Nat) (ups : List (Nat × Nat × Nat)) : State :=
  let take := s.injTile c
  let inj := if take then s.rd bMEM4 MEM4_INJ_TARGET - 4 else inj
  let s := if take then s.wr bMEM4 MEM4_INJ_ARM 0 else s
  let t := initTile s x n stage
  let s := s.noteRan c x
  s.settleTile settleFuel c { t with mism := take || (stage == 1 && inj == 2), inj := inj, ups := ups }

/-- Whether cluster `c` takes tiles: ON, active, not suspect since its last self-test, without a tile, and the module awake (R14, R195, R351,
R371, R510). -/
def State.takesTiles (s : State) (c : Nat) : Bool :=
  decide (c < 34) && s.isOn (bCLU c) && s.role c == 0 && !(s.cluX c).untested && (s.tileOf c).isNone && s.isOn bSCH && !s.fencing bSCH && s.awake

/-- Two bits go bad in words of cluster `c`'s instruction cache. -/
def State.icSpoil (s : State) (c : Nat) (ws : List Nat) : State :=
  if ws.isEmpty then s
  else s.setClu c { s.cluX c with
    ic := (s.cluX c).ic.map (fun l => { l with bad := (ws.filter (fun w => w / 64 == l.addr)).foldl (fun m w => m.lor (2 ^ (w % 64 / 8))) l.bad }) }

/-! ### The end of a tile (R191-R194, R237) -/

/-- The stores of a completed tile reach memory, oldest first (R191, R237). -/
def State.release (s : State) (c : Nat) (buf : List (Nat × List Nat)) : State :=
  buf.reverse.foldl (fun s e => s.mergeWrite (iCLU c) e.1 e.2) s

/-- A tile completed `RESIDUE_RETRY_OK`, of a batch command in its segment: counted, logged, and its cluster suspect at the limit of R194. -/
def State.retryOk (s : State) (c : Nat) (t : Tile) : State :=
  let s := s.modCmd t.q (fun x => { x with
    retry := true
    sts := if x.isBatch && nth 0 x.sts (tileSeg t.tile) == 0xFFFF then x.sts.set (tileSeg t.tile) 0xFFFE else x.sts })
  let s := s.residueRetry (bCLU c) c (iCLU c) t.tile (t.inj != 0)
  let l := s.now :: lastSecond s.now (s.cluX c).retryAt
  let s := s.setClu c { s.cluX c with retryAt := l }
  let n := s.rd bMEM4 MEM4_POLICY_SUSPECT_RETRIES
  if n ≠ 0 ∧ n ≤ l.length ∧ s.fsm (bCLU c) ≠ fFAULT then s.suspect c t.tile (t.inj != 0) else s

/-- Cluster `c`'s tile is abandoned (R244): it counts as not run, and the scheduler runs it again. -/
def State.abandonTile (s : State) (c : Nat) : State :=
  match s.tileOf c with
  | none => s
  | some t =>
    let s := (s.dropTile c).inc (bCLU c) CLU_CNT_ABANDON
    (s.modCmd t.q (fun x => { x with todo := todoPut x.todo t.tile })).settleCmd t.q

end Sys2Proof.Machine
end

