-- ==== Sys2Proof/Machine/Batch.lean ====
section
/-!
DEFINITION. The batch formers: segment requests, filling and submitting a batch, and the end of its chain (R360-R363).
-/

namespace Sys2Proof.Machine

/-- The higher-standing of two statuses (R313): OK below ECC_CORRECTED below RESIDUE_RETRY_OK below every other, and of two others the
larger code. -/
def higherStatus (a b : Nat) : Nat :=
  if !soundStatus a && !soundStatus b then max a b
  else if !soundStatus a then a else if !soundStatus b then b
  else if a = 0x0301 ∨ b = 0x0301 then 0x0301 else max a b

/-- A field of a context's table entry (R356). -/
def State.ctxField (s : State) (k o n : Nat) : Nat := leNat (((Store.get {} s.sch.ctx k).entry.drop o).take n)

/-- Whether context `k` has a batch former at work: a resident context with `TEXT`, on a scheduler that is not fenced. -/
def State.batching (s : State) (k : Nat) : Bool :=
  s.isOn bSCH && !s.fencing bSCH && s.ctxField k 0x0C 1 == 1 && decide (2 ≤ s.ctxState k)

/-- The requests that context `k` holds. -/
def State.reqs (s : State) (k : Nat) : List SegReq := Store.get [] s.sch.reqs k

/-- Replace them. -/
def State.setReqs (s : State) (k : Nat) (l : List SegReq) : State := s.setSch { s.sch with reqs := Store.put [] s.sch.reqs k l }

/-- Buffer `j` of context `k`. -/
def State.batchBuf (s : State) (k j : Nat) : Option Batch := Store.get none s.sch.bufs (4 * k + j)

/-- Replace it. -/
def State.setBatchBuf (s : State) (k j : Nat) (b : Option Batch) : State :=
  s.setSch { s.sch with bufs := Store.put none s.sch.bufs (4 * k + j) b }

/-! ### Requests (R361) -/

/-- The bytes of a request. -/
def reqOf (now : Nat) (b : List Nat) : SegReq :=
  let f (o n : Nat) : Nat := leNat ((b.drop o).take n)
  { at_ := now, seq := f 0 2, kind := f 2 1, final := f 3 1 % 2 == 1, start := f 4 4, count := f 8 2, check := f 0xA 1, part := f 0xC 4
    rows := f 0x10 8, mask := f 0x18 8 }

/-- Whether a request keeps its limits. -/
def reqOk (b : List Nat) : Bool :=
  let x := reqOf 0 b
  decide (x.kind ≤ 1) && decide (nth 0 b 3 ≤ 1) && decide (1 ≤ x.count) && decide (x.count ≤ if x.kind = 0 then 128 else 1) &&
  decide (19 ≤ x.check) && decide (x.check ≤ 63) && nth 0 b 0xB == 0

/-- A request's deadline and port as a command would have them: its sequence's record supplies them. -/
def State.reqCmd (s : State) (x : SegReq) : Cmd :=
  { dlKind := min 3 (s.seq x.seq).port, deadline := (s.seq x.seq).deadline, late := x.late }

/-- The check of a request that enters no batch reports a status to the part, if the request is the last of its line. -/
def State.reqReport (s : State) (x : SegReq) (status : Nat) : State :=
  if x.final then s.checkReport (s.seq x.seq).port x.part x.check 3 status else s

/-- Read `n` requests of context `k` from its queue. -/
def State.readReqs : Nat → State → Nat → State
  | 0, s, _ => s
  | n + 1, s, k =>
    let size := s.ctxField k 0x30 4 * 1024
    let rd := s.rd bSCH (SCH_SRQ_RD k)
    let r := s.hwRead iSCH (s.ctxField k 0x28 8 + rd % size) 32
    let s := r.1.wr bSCH (SCH_SRQ_RD k) ((rd + 32) % size)
    let x := reqOf s.now r.2.2
    let s := if r.2.1 ≠ 0 then s
      else if reqOk r.2.2 then s.setReqs k (s.reqs k ++ [x])
      else s.reqReport x 0x0808
    State.readReqs n s k

/-- Read every request that the producer has written. -/
def State.drainReqs (s : State) (k : Nat) : State :=
  let size := s.ctxField k 0x30 4 * 1024
  State.readReqs ((s.rd bSCH (SCH_SRQ_WR k) % size + size - s.rd bSCH (SCH_SRQ_RD k) % size) % size / 32) s k

/-- Drop the requests whose deadline has passed (R362). -/
def State.dropReqs (s : State) (k : Nat) : State :=
  let late := (s.reqs k).filter (fun x => s.dlPassed (s.reqCmd x))
  let t := s.setReqs k ((s.reqs k).filter (fun x => !s.dlPassed (s.reqCmd x)))
  late.foldl (fun s x => s.reqReport x 0x0601) t

/-! ### Filling (R360, R362) -/

/-- Open one of the buffers `js` of context `k`: the first that is free and whose table entry keeps R360. -/
def State.openBatch : List Nat → State → Nat → State × Option Nat
  | [], s, _ => (s, none)
  | j :: js, s, k =>
    if (s.batchBuf k j).isSome then State.openBatch js s k else
    let r := s.hwRead iSCH (s.ctxField k 0x20 8 + 40 * j) 40
    let b := r.2.2
    let f (o n : Nat) : Nat := leNat ((b.drop o).take n)
    let q := f 0x22 1
    if r.2.1 ≠ 0 ∨ f 0x20 2 = 0 ∨ 64 < f 0x20 2 ∨ f 0x23 5 ≠ 0 ∨ 64 ≤ q ∨ s.qCtx q ≠ k then State.openBatch js r.1 k
    else (r.1.setBatchBuf k j (some { tab := [f 0 8, f 8 8, f 0x10 8, f 0x18 8, f 0x20 2, q] }), some j)

/-- The bytes of one row of the X area: the X pitch of the chain's first projection (R315, R361). -/
def State.xPitch (s : State) (b : Batch) : Nat :=
  ((List.range (nth 0 b.tab 4)).findSome? (fun j =>
    let block := s.readLE (nth 0 b.tab 3 + 64 * j) 8
    let par := nth 0 (kbSeg (s.bytes block 256) 1) 0
    if s.byte (nth 0 b.tab 3 + 64 * j + 12) = 1 ∧ s.byte par = 7 then some (s.readLE (par + 0x20) 4) else none)).getD 0

/-- The tokens of a batch. -/
def Batch.tokens (b : Batch) : Nat := (b.segs.map SegReq.count).foldl (· + ·) 0

/-- The sequences that lie in a batch whose chain has not retired (R362). -/
def State.busySeqs (s : State) : List Nat :=
  s.sch.bufs.flatMap (fun e => match e.2 with
    | some b => b.segs.map SegReq.seq
    | none => [])

/-- Add a request to buffer `j`: its entry in the batch descriptor (R311) and its rows in the X area. -/
def State.addReq (s : State) (k j : Nat) (b : Batch) (x : SegReq) : State :=
  let row := b.tokens
  let n := b.segs.length
  let p := s.xPitch b
  let r := s.hwRead iSCH x.rows (p * x.count)
  let s := r.1
  let s := if r.2.1 = 0x0201 then s
    else (s.hwWriteParts iSCH (nth 0 b.tab 1 + p * row) r.2.2 (s.lineParts x.rows (p * x.count))).1
  let e := leBytes 2 x.seq ++ [x.kind, 0] ++ leBytes 4 x.start ++ leBytes 2 x.count ++ [0, 0] ++ leBytes 4 row ++ leBytes 8 x.mask ++
    List.replicate 8 0
  let x' := { x with port := (s.seq x.seq).port, key := s.timeKey (s.reqCmd x) }
  (s.putAs iSCH (nth 0 b.tab 0 + 32 * n) e).setBatchBuf k j (some { b with segs := b.segs ++ [x'] })

/-- Whether request `a` comes before `b` (R362): token steps first, then the lower key. -/
def State.reqBefore (s : State) (a b : SegReq) : Bool :=
  if a.kind = b.kind then keyLt (s.timeKey (s.reqCmd a)) (s.timeKey (s.reqCmd b)) else decide (b.kind < a.kind)

/-- Remove the first request equal to `x`. -/
def dropReq (x : SegReq) : List SegReq → List SegReq
  | [] => []
  | y :: r => if y = x then r else y :: dropReq x r

/-- Fill buffer `j` with up to `n` of the requests that context `k` holds, until the tokens reach `BATCH_TARGET`. -/
def State.fillBatch : Nat → State → Nat → Nat → State
  | 0, s, _, _ => s
  | n + 1, s, k, j =>
    match s.batchBuf k j with
    | none => s
    | some b =>
      let busy := s.busySeqs
      let fit := (s.reqs k).filter (fun x => !busy.contains x.seq && decide (b.segs.length < 256) &&
        decide (b.tokens + x.count ≤ s.ctxField k 0x1C 2))
      if s.ctxField k 0x1A 2 ≤ b.tokens then s
      else match firstBy s.reqBefore fit with
        | none => s
        | some x => State.fillBatch n ((s.setReqs k (dropReq x (s.reqs k))).addReq k j b x) k j

/-- Whether a batch closes (R362). -/
def State.batchCloses (s : State) (k : Nat) (b : Batch) : Bool :=
  !b.segs.isEmpty &&
  (decide (s.ctxField k 0x1A 2 ≤ b.tokens) ||
   b.segs.any (fun x => decide (x.at_ + 1000 * s.ctxField k 0x1E 2 ≤ s.now)) ||
   (match b.segs.foldl (fun m x => keyMin m (s.timeKey (s.reqCmd x))) none with
    | some y => decide (y ≤ s.nowNs + 1000 * s.ctxField k 0x34 2)
    | none => false))

/-! ### The chain (R363) -/

/-- A chain command's copy: the batch's lowest key is its deadline. -/
def chainCopy (key : Option Int) (d : List Nat) : List Nat :=
  let dl : Nat := match key with
    | some y => toCode 64 (max 0 y)
    | none => 2 ^ 64 - 1
  d.take 13 ++ [2, 0xFF, nth 0 d 15] ++ leBytes 8 dl ++ leBytes 4 0xFFFFFFFF ++ d.drop 28

/-- Copy the chain of buffer `j` into the named queue and ring its doorbell; a queue without room for it keeps the batch back. -/
def State.submit (s : State) (k j : Nat) (b : Batch) : State :=
  let q := nth 0 b.tab 5
  let n := nth 0 b.tab 4
  let w := s.qProd q
  let size := 2 ^ s.rd bSCH (SCH_Q_CFG_SIZE_LOG2 q)
  if size < ahead w (s.qDone q) + n then s
  else
    let key := b.segs.foldl (fun m x => keyMin m (s.timeKey (s.reqCmd x))) none
    let s := (List.range n).foldl (fun s i =>
      let r := s.hwRead iSCH (nth 0 b.tab 3 + 64 * i) 64
      r.1.putAs iSCH (s.rd64 bSCH (SCH_Q_BASE_LO q) (SCH_Q_BASE_HI q) + 64 * ((w + i) % size))
        (if r.2.1 = 0 then chainCopy key r.2.2 else List.replicate 64 0xFF)) s
    let s := s.setBatchBuf k j (some { b with filling := false, first := w })
    ((s.inc bSCH SCH_CNT_BATCHES).inc bSCH SCH_CNT_BATCH_TOKENS b.tokens).doorbell q ((w + n) % 65536)

/-- One round of a batch former: the batch under filling grows and closes; up to `n` rounds while batches close. -/
def State.batchRounds : Nat → State → Nat → State
  | 0, s, _ => s
  | n + 1, s, k =>
    let cur := (List.range 4).find? (fun j => match s.batchBuf k j with
      | some b => b.filling
      | none => false)
    let busy := s.busySeqs
    let r := match cur with
      | some j => (s, some j)
      | none => if (s.reqs k).any (fun x => !busy.contains x.seq) then State.openBatch (List.range (s.ctxField k 0x0D 1)) s k else (s, none)
    match r.2 with
    | none => r.1
    | some j =>
      let s := State.fillBatch (r.1.reqs k).length r.1 k j
      match s.batchBuf k j with
      | some b =>
        if b.segs.isEmpty then s.setBatchBuf k j none
        else if s.batchCloses k b then
          let t := s.submit k j b
          match t.batchBuf k j with
          | some c => if c.filling then t else State.batchRounds n t k
          | none => t
        else s
      | none => s

/-- The batch former of context `k` does what is due. -/
def State.batchRun (s : State) (k : Nat) : State :=
  if s.batching k then State.batchRounds 5 ((s.drainReqs k).dropReqs k) k else s

/-- Whether a queue pointer names a command of a submitted batch's chain. -/
def Batch.owns (b : Batch) (x : Nat) : Bool :=
  !b.filling && qOf x == nth 0 b.tab 5 && decide (ahead (x % 65536) b.first < nth 0 b.tab 4)

/-- A command ended with a status: a terminating one stands for the batch that owns it (R363). -/
def State.chainStatus (s : State) (x status : Nat) : State :=
  if soundStatus status then s
  else s.setSch { s.sch with bufs := s.sch.bufs.map (fun e => match e.2 with
    | some b => if b.owns x then (e.1, some { b with status := higherStatus b.status status }) else e
    | none => e) }

/-- A chain's last command has retired: each final segment reports its check, and the buffer is free again (R363). -/
def State.chainRetired (s : State) (k j : Nat) (b : Batch) : State :=
  let s := b.segs.zipIdx.foldl (fun s e =>
    if !e.1.final then s
    else
      let d := s.hwRead iSCH (nth 0 b.tab 0 + 32 * e.2 + 0xA) 2
      let v := d.1.hwRead iSCH (nth 0 b.tab 2 + e.2) 1
      let st := higherStatus (if d.2.1 ≠ 0 then d.2.1 else leNat d.2.2) b.status
      let verdict := nth 3 v.2.2 0
      v.1.checkReport e.1.port e.1.part e.1.check (if soundStatus st && v.2.1 == 0 && decide (verdict ≤ 3) then verdict else 3) st) s
  (s.setBatchBuf k j none).batchRun k

/-- The command that a queue pointer names has retired: a batch whose chain it ends is over. -/
def State.chainRetire (s : State) (x : Nat) : State :=
  match s.sch.bufs.find? (fun e => match e.2 with
    | some b => b.owns x && ahead (x % 65536) b.first + 1 == nth 0 b.tab 4
    | none => false) with
  | some (n, some b) => s.chainRetired (n / 4) (n % 4) b
  | _ => s

/-! ### The commands -/

/-- SCH_SRQ_WR: a write of the producer offset of context `k`'s request queue by initiator `i` (R361). -/
def execSchSrqWr (t i k v : Nat) (s : State) : Host.Outcome State Fault Refusal :=
  let s := s.at t
  let a := regBase + bSCH * 0x100000 + 0x3000 + 8 * k
  .next (if !s.regAllowed i true bSCH (0x3000 + 8 * k) then s.deny i true a
  else if !s.domOn bSCH || decide (64 ≤ k) then s
  else (s.wr bSCH (SCH_SRQ_WR k) v).batchRun k)

/-- BATCH_WAIT_EXPIRY: the oldest request of context `k`'s batch has waited `BATCH_WAIT` (R362). -/
def execBatchWaitExpiry (t k : Nat) (s : State) : Host.Outcome State Fault Refusal := .next ((s.at t).batchRun k)

/-- BATCH_SLACK_EXPIRY: the lowest key of context `k`'s batch has come within `BATCH_SLACK` (R362). -/
def execBatchSlackExpiry (t k : Nat) (s : State) : Host.Outcome State Fault Refusal := .next ((s.at t).batchRun k)

end Sys2Proof.Machine
end

