-- ==== Sys2Proof/Machine/Clock.lean ====
section
/-!
DEFINITION. Operating points of the clusters and the voltages of their rails (R519-R524).  A voltage is known by the operating point it
belongs to.
-/

namespace Sys2Proof.Machine

/-- Replace a rail's inside. -/
def State.rail (s : State) (r : Nat) : Rail := Store.get {} s.pwr.rails r

/-- Set it, with what `CLK_RAILr_STAT` shows. -/
def State.setRail (s : State) (r : Nat) (x : Rail) : State :=
  (s.setPwr { s.pwr with rails := Store.put {} s.pwr.rails r x }).wr bCLK (CLK_RAIL_STAT_PENDING r) (if x.req.isSome then 1 else 0)

/-- The clusters on rail `r` (R520). -/
def onRail (r : Nat) : List Nat := (List.range 34).filter (fun c => c % 4 == r)

/-- The point at which cluster `c` runs, and its target (R521). -/
def State.opCur (s : State) (c : Nat) : Nat := s.rd bCLK (CLK_CLU_OP_OP_CUR c)
def State.opTgt (s : State) (c : Nat) : Nat := s.rd bCLK (CLK_CLU_OP_OP_TGT c)

/-- Bring `OP_TGT` to the lower of `OP_MAX` and `OP_CAP` (R521). -/
def State.retarget (s : State) (c : Nat) : State :=
  s.wr bCLK (CLK_CLU_OP_OP_TGT c) (min (s.rd bCLK (CLK_CLU_OP_OP_MAX c)) (s.rd bCLK (CLK_CLU_OP_OP_CAP c)))

/-- Set the cap of cluster `c`. -/
def State.setCap (s : State) (c v : Nat) : State := (s.wr bCLK (CLK_CLU_OP_OP_CAP c) v).retarget c

/-- The target that the rail allows: after a fault no point above the last acknowledged voltage (R524). -/
def State.opGoal (s : State) (c : Nat) : Nat :=
  let r := c % 4
  if s.rd bCLK (CLK_RAIL_STAT_AVS_FAULT r) = 1 then min (s.opTgt c) (s.rail r).ack else s.opTgt c

/-- What cluster `c` needs of its rail (R520): nothing while OFF, OP0 as a spare without a tile, else the higher of its present and
its target point. -/
def State.opNeed (s : State) (c : Nat) : Option Nat :=
  if s.fsm (bCLU c) = fOFF then none
  else if s.role c = 1 ∧ (s.tileOf c).isNone then some 0
  else some (max (s.opCur c) (s.opGoal c))

/-- The point whose voltage a rail surely carries: while a lower one is asked for, that one. -/
def Rail.carries (x : Rail) : Nat :=
  match x.req with
  | some e => min x.ack e.1
  | none => x.ack

/-- Switch cluster `c` to a frequency; a division by 4 ends at OP0 (R521, R535). -/
def State.switchOp (s : State) (c v : Nat) : State :=
  let s := (s.wr bCLK (CLK_CLU_OP_OP_CUR c) v).inc bCLK CLK_CNT_OP_CHANGE
  if v = 0 ∧ bit s.pwr.slow c = 1 then s.setPwr { s.pwr with slow := s.pwr.slow - 2 ^ c } else s

/-- What the clusters on rail `r` need of it, if one needs anything (R520). -/
def State.railNeed (s : State) (r : Nat) : Option Nat :=
  match (onRail r).filterMap (fun c => s.opNeed c) with
  | [] => none
  | x :: l => some (l.foldl max x)

/-- Ask for the voltage that rail `r` needs, unless a request is outstanding or it has it (R520, R522, R523). -/
def State.askRail (s : State) (r : Nat) : State :=
  let x := s.rail r
  let n := (s.railNeed r).getD x.ack
  if x.req.isSome || n == x.ack then s
  else { s.setRail r { x with req := some (n, s.now) } with out := .avs r n :: s.out }

/-- Bring cluster `c` towards its target (R522): down at once, up as far as the rail carries the voltage. -/
def State.driveOp (s : State) (c : Nat) : State :=
  let g := s.opGoal c
  if s.fsm (bCLU c) = fOFF ∨ g = s.opCur c then s
  else if g < s.opCur c ∨ g ≤ (s.rail (c % 4)).carries then s.switchOp c g
  else s

/-- OP_TARGET_CHANGE: the target of cluster `c` has changed (R522, R523). -/
def execOpTargetChange (t c : Nat) (s : State) : Host.Outcome State Fault Refusal :=
  let s := s.at t
  .next (if 34 ≤ c then s else ((s.retarget c).driveOp c).askRail (c % 4))

/-- AVS_ACK: the regulator acknowledges rail `r`'s request (R522, R523): raised frequencies follow, then the next request. -/
def execAvsAck (t r : Nat) (s : State) : Host.Outcome State Fault Refusal :=
  let s := s.at t
  .next (match (s.rail r).req with
  | none => s
  | some e => ((onRail r).foldl State.driveOp (s.setRail r { ack := e.1, req := none })).askRail r)

/-- AVS_TIMEOUT: rail `r`'s request has no acknowledgement after 2 ms (R524); a need that has changed meanwhile is acted on (R523). -/
def execAvsTimeout (t r : Nat) (s : State) : Host.Outcome State Fault Refusal :=
  let s := s.at t
  .next (match (s.rail r).req with
  | none => s
  | some e =>
    if s.now < e.2 + 2000000 then s
    else
      let s := (s.setRail r { s.rail r with req := none }).wr bCLK (CLK_RAIL_STAT_AVS_FAULT r) 1
      let s := (s.inc bCLK CLK_CNT_AVS_TIMEOUT).raise 0x0903 bCLK r
      if s.railNeed r = some e.1 then s else s.askRail r)

end Sys2Proof.Machine
end

