-- ==== Sys2Proof/Machine/Cap.lean ====
section
/-!
DEFINITION. The power cap, droop and the thermal limits (R527-R535).
-/

namespace Sys2Proof.Machine

/-- The thermal limit. -/
def State.therm (s : State) : Nat := s.rd bCAP CAP_STAT_THERM_LIMIT

/-- Every `OP_CAP` at the lower of a point and the thermal limit. -/
def State.capAll (s : State) (v : Nat) : State := (List.range 34).foldl (fun s c => s.setCap c (min v s.therm)) s

/-- A fence freezes every cap at the lower of `OP_FLOOR` and the thermal limit (R531). -/
def State.capFence (s : State) : State := s.capAll (s.rd bCAP CAP_CFG_OP_FLOOR)

/-- Whether the controller works. -/
def State.capOn (s : State) : Bool := s.isOn bCAP && !s.fencing bCAP

/-- The thermal limit has changed (R531, R535): the caps follow. -/
def State.thermCaps (s : State) : State :=
  if s.fsm bCAP = fFENCED ∨ s.fencing bCAP then s.capFence
  else if s.rd bCAP COM_CTRL_ENABLE = 0 then s.capAll 7
  else (List.range 34).foldl (fun s c => s.setCap c (min (s.rd bCLK (CLK_CLU_OP_OP_CAP c)) s.therm)) s

/-! ### Power (R527-R530) -/

/-- The classes of the context of slot `k` are forgotten (R528). -/
def State.forgetClass (s : State) (k : Nat) : State :=
  s.setPwr { s.pwr with cls := s.pwr.cls.filter (fun e => e.1 / 8 / 16 != k) }

/-- The frequency of an operating point in MHz (R519). -/
def opMhz (k : Nat) : Nat := nth 0 [400, 600, 800, 1000, 1100, 1200, 1400, 1600] k

/-- The power in µW of a class at a point: the learned value, or the fixed model's at OP7 scaled by f × V² (R528). -/
def State.classPower (s : State) (cl op : Nat) : Nat :=
  match Store.get 0 s.pwr.cls (cl * 8 + op) with
  | 0 => Config.capSeed cl * opMhz op * (Config.opMv op).toNat ^ 2 / (opMhz 7 * (Config.opMv 7).toNat ^ 2)
  | n + 1 => n

/-- The clusters that run a tile, by the key of its command, lowest first (R529). -/
def State.busyOrder (s : State) : List Nat :=
  let l := (List.range 34).filterMap (fun c => match s.tileOf c with
    | some t => (s.cmd? t.q).map (fun x => (c, x))
    | none => none)
  let before (a b : Nat × Cmd) : Bool :=
    keyLt (s.effKey a.2) (s.effKey b.2) || (s.effKey a.2 == s.effKey b.2 &&
      (s.tieBefore a.2 b.2 || (!s.tieBefore b.2 a.2 && decide (a.1 ≤ b.1))))
  (l.mergeSort before).map Prod.fst

/-- The class of the tile that cluster `c` ran last. -/
def State.ranClass (s : State) (c : Nat) : Option Nat :=
  match Store.get 0 s.pwr.ran c with
  | 0 => none
  | n + 1 => some n

/-- The predicted draw of the busy clusters at a choice of points. -/
def State.predicted (s : State) (op : List Nat) (busy : List Nat) : Nat :=
  (busy.map (fun c => match s.ranClass c with
    | some k => s.classPower k (nth 0 op c)
    | none => 0)).foldl (· + ·) 0

/-- Whether a raise of cluster `c` to point `v` needs no higher voltage of its rail. -/
def State.freeRaise (s : State) (op : List Nat) (c v : Nat) : Bool :=
  decide (v ≤ max (s.rail (c % 4)).ack (((onRail (c % 4)).map (fun d => nth 0 op d)).foldl max 0))

/-- One pass over the busy clusters (R529): each is raised one point where the budget allows, only `free` raises in the first pass. -/
def State.raisePass (s : State) (free : Bool) (budget : Int) (busy : List Nat) (op : List Nat) : List Nat :=
  busy.foldl (fun op c =>
    let v := nth 0 op c
    let op1 := op.set c (v + 1)
    if v < 7 ∧ (s.predicted op1 busy : Int) ≤ budget ∧ (!free || s.freeRaise op c (v + 1)) then op1 else op) op

/-- Passes until none raises a point. -/
def State.raiseAll (s : State) (budget : Int) (busy : List Nat) : Nat → List Nat → List Nat
  | 0, op => op
  | n + 1, op =>
    let op2 := s.raisePass false budget busy (s.raisePass true budget busy op)
    if op2 = op then op else s.raiseAll budget busy n op2

/-- The points of a period (R529): a busy cluster gets what the budget allows, one with no tile `OP_FLOOR`, a spare with none OP0. -/
def State.capChoice (s : State) (pUw : Nat) : List Nat :=
  let busy := s.busyOrder
  let floor := s.rd bCAP CAP_CFG_OP_FLOOR
  let cur := (List.range 34).map (fun c => s.opCur c)
  let budget : Int := s.rd bCAP CAP_CFG_LIMIT_W * 1000000 - ((pUw : Int) - s.predicted cur busy)
  let op0 := (List.range 34).map (fun c => if busy.contains c then floor else if s.role c = 1 then 0 else floor)
  s.raiseAll budget busy 239 op0

/-- Move one value 1/8 of the way toward a figure. -/
def State.learnOne (s : State) (cl op fig : Nat) : State :=
  s.setPwr { s.pwr with cls := Store.put 0 s.pwr.cls (cl * 8 + op) ((7 * s.classPower cl op + fig) / 8 + 1) }

/-- Learning at the end of a period (R528): `est` is each cluster's energy estimate in µW, `other` the draw measured outside the clusters
in µW, `p` that of the period. -/
def State.learn (s : State) (p other : Nat) (est : List Nat) : State :=
  let sum := est.foldl (· + ·) 0
  let runs := (List.range 34).filterMap (fun c => (s.ranClass c).map (fun k => (c, k * 8 + s.opCur c)))
  if sum = 0 then s
  else (runs.map Prod.snd).eraseDups.foldl (fun t e =>
    let cs := (runs.filter (fun r => r.2 == e)).map Prod.fst
    let tot := (cs.map (fun c => nth 0 est c)).foldl (· + ·) 0
    t.learnOne (e / 8) (e % 8) (tot * (p - other) / sum / cs.length)) s

/-- POWER_SAMPLE: the controller measures `mw` milliwatts drawn from `VIN12` over 10 µs (R527, R537). -/
def execPowerSample (t mw : Nat) (s : State) : Host.Outcome State Fault Refusal :=
  let s := s.at t
  let e := s.pwr.energy + mw * 10
  .next (if !s.due perPower 10000 then s
  else (((s.mark perPower).setPwr { s.pwr with
    samples := if s.capOn then s.pwr.samples ++ [mw] else s.pwr.samples
    energy := e % 1000000000 }).inc bCAP CAP_ENERGY_J (e / 1000000000)))

/-- Whether the draw exceeds the cap by more than 2 %. -/
def State.overCap (s : State) (pUw : Nat) : Bool := decide (s.rd bCAP CAP_CFG_LIMIT_W * 1020000 < pUw)

/-- The count of periods over the cap (R530): the tenth in a row sets `OVER`, once for each run. -/
def State.countOver (s : State) (pUw : Nat) : State :=
  let s := if s.rd bCAP CAP_CFG_LIMIT_W * 1000000 < pUw then s.inc bCAP CAP_CNT_OVER else s
  let n := if s.overCap pUw then s.pwr.overRun + 1 else 0
  let s := s.setPwr { s.pwr with overRun := n }
  if n = 10 then (s.wr bCAP CAP_STAT_OVER 1).raise 0x0904 bCAP (s.rd bCAP CAP_STAT_P_MEAS) else s

/-- The sensors' readings in units of 1/8 °C (R537). -/
def State.readTemps (s : State) (temps : List Int) : State :=
  let s := (temps.take 42).zipIdx.foldl (fun s e => s.wr bCAP (CAP_TEMP e.2) (toCode 16 e.1)) s
  match temps.take 42 with
  | [] => s
  | x :: r => s.wr bCAP CAP_STAT_T_HOT (toCode 8 ((r.foldl max x) / 8))

/-- The hottest junction in units of 1/8 °C. -/
def hottest : List Int → Int
  | [] => -32768
  | x :: r => (r.foldl max x)

/-- CAP_PERIOD: a period of 100 µs ends (R527-R530): `est` each cluster's energy estimate and `other` the draw outside the clusters, in
µW, and `temps` the sensors' readings. -/
def execCapPeriod (t : Nat) (est : List Nat) (other : Nat) (temps : List Int) (s : State) : Host.Outcome State Fault Refusal :=
  let s := (s.at t).readTemps temps
  .next (if !s.capOn ∨ s.pwr.samples = [] ∨ !s.due perCap 100000 then s
  else
    let s := s.mark perCap
    let p := s.pwr.samples.foldl (· + ·) 0 * 1000 / s.pwr.samples.length
    let s := s.wr bCAP CAP_STAT_P_MEAS (min (p * 16 / 1000000) 65535)
    let s := (s.learn p other est).countOver p
    let op := s.capChoice p
    let s := s.setPwr { s.pwr with samples := [], ran := s.pwr.ran.filter (fun e => (s.tileOf e.1).isSome) }
    (List.range 34).foldl (fun s c => s.setCap c (min (nth 0 op c) s.therm)) s)

/-! ### Droop (R533) -/

/-- DROOP_DETECT: rail `r` reads `below` mV below its last acknowledged voltage (R533): where that is more than `DROOP_MV`, the clocks of its
clusters stretch. -/
def execDroopDetect (t r : Nat) (below : Int) (s : State) : Host.Outcome State Fault Refusal :=
  let s := s.at t
  .next (if 4 ≤ r ∨ below ≤ s.rd bCAP CAP_CFG_DROOP_MV ∨ (Store.get none s.pwr.droop r).isSome then s
  else (s.setPwr { s.pwr with droop := Store.put none s.pwr.droop r (some s.now) }).inc bCAP CAP_CNT_DROOP)

/-- DROOP_END: rail `r` has read at most `below` mV below its last acknowledged voltage for 64 cycles (R533): the stretch ends where it so
stayed above the threshold plus 10 mV. -/
def execDroopEnd (t r : Nat) (below : Int) (s : State) : Host.Outcome State Fault Refusal :=
  let s := s.at t
  .next (match Store.get none s.pwr.droop r with
  | none => s
  | some a =>
    if (s.rd bCAP CAP_CFG_DROOP_MV : Int) ≤ below + 10 then s
    else
    let s := (s.setPwr { s.pwr with droop := Store.put none s.pwr.droop r none }).inc bCAP CAP_CNT_DROOP_US ((s.now - a) / 1000)
    if a + 100000 < s.now then (s.wr bCAP CAP_STAT_DROOP 1).raise 0x0905 bCAP r else s)

/-! ### Thermal limits (R535) -/

/-- Set the thermal limit; the caps follow. -/
def State.setTherm (s : State) (v : Nat) : State := (s.wr bCAP CAP_STAT_THERM_LIMIT v).thermCaps

/-- THROTTLE_STEP: a millisecond with the hottest junction at or above `THROTTLE_C` (R535): the thermal limit falls one point. -/
def execThrottleStep (t : Nat) (temps : List Int) (s : State) : Host.Outcome State Fault Refusal :=
  let s := (s.at t).readTemps temps
  let due := match s.pwr.fell with
    | some a => decide (a + 1000000 ≤ s.now)
    | none => true
  .next (if hottest temps < 8 * s.rd bCAP CAP_CFG_THROTTLE_C then s.setPwr { s.pwr with fell := none }
  else if !due ∨ s.therm = 0 then s
  else
    let first := s.pwr.fell.isNone
    let s := ((s.setPwr { s.pwr with fell := some s.now }).setTherm (s.therm - 1)).inc bCAP CAP_CNT_THROTTLE
    if first then (s.wr bCAP CAP_STAT_THROTTLED 1).raise 0x0906 bCAP (s.rd bCAP CAP_STAT_T_HOT) else s)

/-- THROTTLE_RISE_STEP: ten milliseconds with the hottest junction below `THROTTLE_C` − 5 °C (R535): the thermal limit rises one point. -/
def execThrottleRiseStep (t : Nat) (temps : List Int) (s : State) : Host.Outcome State Fault Refusal :=
  let s := (s.at t).readTemps temps
  let due := match s.pwr.rose with
    | some a => decide (a + 10000000 ≤ s.now)
    | none => true
  .next (if 8 * ((s.rd bCAP CAP_CFG_THROTTLE_C : Int) - 5) ≤ hottest temps ∨ temps = [] then s
  else
    let s := s.setPwr { s.pwr with fell := none }
    if !due ∨ 7 ≤ s.therm then s
    else (s.setPwr { s.pwr with rose := some s.now }).setTherm (s.therm + 1))

/-- HARD_THERMAL: the hottest junction has reached 110 °C (R535). -/
def execHardThermal (t : Nat) (temps : List Int) (s : State) : Host.Outcome State Fault Refusal :=
  let s := (s.at t).readTemps temps
  .next (if hottest temps < 880 then s
  else
    let m := ((List.range 34).filter (fun c => s.opCur c != 0)).foldl (fun m c => m + 2 ^ c) 0
    let s := (s.setPwr { s.pwr with slow := m }).setTherm 0
    ((s.wr bCAP CAP_STAT_HARD 1).inc bCAP CAP_CNT_HARD).raise 0x0907 bCAP (s.rd bCAP CAP_STAT_T_HOT))

end Sys2Proof.Machine
end

