-- ==== Sys2Proof/Machine/SchedCmd.lean ====
section
/-!
DEFINITION. Commands from doorbell to retirement, their keys, dependencies and refusals, and the contexts they run in (R338-R354,
R357, R358, R364, R365, R367).
-/

namespace Sys2Proof.Machine

/-! ### Queues (R345) -/

/-- A queue enters STARTING (R345). -/
def State.startQueue (s : State) (q : Nat) : State :=
  (s.setSch { s.sch with starts := Store.put 0 s.sch.starts q s.now }).wr bSCH (SCH_Q_CFG_QSTATE q) fSTARTING

/-- A queue that has been starting for 1 µs reads ON (R345). -/
def State.settleStart (s : State) (q : Nat) : State :=
  if s.qState q = fSTARTING ∧ Store.get 0 s.sch.starts q + 1000 ≤ s.now then s.wr bSCH (SCH_Q_CFG_QSTATE q) fON else s

/-- A stopping queue whose commands have all retired reads OFF, or starts again from PENDING_ON (R345). -/
def State.settleQueue (s : State) (q : Nat) : State :=
  if s.sch.cmds.any (fun x => x.q == q) then s
  else if s.qState q = fSTOPPING then s.wr bSCH (SCH_Q_CFG_QSTATE q) fOFF
  else if s.qState q = fPENDING then s.startQueue q
  else s

/-- A write of `QEN` (R345); a queue that starts reads ON within 1 µs: at its first fetch, or to a read 1 µs later (entry 8). -/
def State.qenReq (s : State) (q v : Nat) : State :=
  let st := s.qState q
  let s := s.wr bSCH (SCH_Q_CFG_QEN q) v
  if v = 1 then
    (if st = fOFF then s.startQueue q
     else if st = fSTOPPING then s.wr bSCH (SCH_Q_CFG_QSTATE q) fPENDING else s)
  else if st = fON ∨ st = fPENDING ∨ st = fSTARTING then (s.wr bSCH (SCH_Q_CFG_QSTATE q) fSTOPPING).settleQueue q
  else s

/-- A write of `SCH_Qq_CFG` (R345, R366): `CTX` and `SIZE_LOG2` only in OFF. -/
def State.qCfgWrite (s : State) (q v : Nat) : State :=
  let s := s.settleStart q
  let ctx := bits v 16 8
  let size := bits v 8 5
  let off := s.qState q == fOFF
  let s := if off && (decide (ctx < 64) || ctx == 0xFF) then s.wr bSCH (SCH_Q_CFG_CTX q) ctx else s
  let s := if off && decide (4 ≤ size) && decide (size ≤ 15) then s.wr bSCH (SCH_Q_CFG_SIZE_LOG2 q) size else s
  let s := (s.wr bSCH (SCH_Q_CFG_CLASS q) (bits v 6 2)).wr bSCH (SCH_Q_CFG_CQ q) (bits v 2 4)
  let s := if bit v 1 = 1 then s.wr bSCH (SCH_Q_CFG_DB_OVER q) 0 else s
  s.qenReq q (bit v 0)

/-- The shard count of a queue's context (R369). -/
def State.qShards (s : State) (q : Nat) : Nat :=
  if s.qCtx q < 64 then 2 ^ (Store.get {} s.sch.ctx (s.qCtx q)).log2L else 1

/-! ### Keys and deadlines (R348, R350) -/

/-- Give every command in flight its key. -/
def State.recompute (s : State) : State :=
  s.setSch { s.sch with cmds := s.sch.cmds.map (fun x => { x with key := s.timeKey x }) }

/-! ### Readiness (R352, R364) -/

/-- Whether a command would become ready in a state that refuses it (R364). -/
def State.refused (s : State) (x : Cmd) : Bool :=
  let k := s.qCtx x.q
  (decide (k < 64) && (!s.runnable x || !s.jobRun)) ||
  (decide (x.dlKind ≤ 1) && !s.isOn (bSTP x.dlKind)) ||
  (decide (x.dlKind ≤ 1) && !(x.check == 0xFF && x.part == 0xFFFFFFFF) && (match s.mergeOf x.dlKind x.part with
    | some m => x.check != 0xFF && bit m.declared x.check == 0
    | none => true))

/-- A command whose dependencies are satisfied becomes ready, which wakes the module, or is refused (R351, R352, R364, R514). -/
def State.makeReady (s : State) (q : Nat) : State :=
  match s.cmd? q with
  | none => s
  | some x =>
    if x.final.isSome ∨ x.ready then s
    else if x.depBad then (s.inc bSCH SCH_CNT_DEPFAIL).refuseCmd q 0x0103
    else if x.waits ≠ [] then s
    else if s.refused x then (s.inc bSCH SCH_CNT_REFUSED).refuseCmd q 0x0101
    else (s.modCmd q (fun y => { y with ready := true, shards := s.qShards y.q, atStart := s.activeAtStart y })).wake 5

/-- How a dependency stands at fetch (R352): 0 satisfied, 1 waited for, 2 ended badly. -/
def State.depState (s : State) (d : Nat) : Nat :=
  if d = 0xFFFFFFFF then 0
  else
    let q := qOf d
    let i := d % 65536
    let done := s.qDone q
    if ahead i done < ahead (s.qFetch q) done then
      match s.cmd? (qptr q i) with
      | some x => if x.done then (match x.final with
          | some f => if soundStatus f.1 then 0 else 2
          | none => 0) else 1
      | none => 0
    else if ahead i (s.qFetch q) < ahead (s.qProd q) (s.qFetch q) then 1
    else 0

/-- The dependencies of a descriptor that must be waited for, and whether one ended badly. -/
def State.depsOf (s : State) (any : Bool) (l : List Nat) : List Nat × Bool :=
  ((l.filter (fun d => s.depState d == 1)).map (fun d => qptr (qOf d) d), !any && l.any (fun d => s.depState d == 2))

/-- Satisfy the dependencies on a command that completes with `status` (R352). -/
def State.wakeDeps (s : State) (q status : Nat) : State :=
  let l := (s.sch.cmds.filter (fun x => x.waits.contains q)).map Cmd.ptr
  let s := s.setSch { s.sch with cmds := s.sch.cmds.map (fun x =>
    if x.waits.contains q then
      { x with waits := x.waits.filter (· != q), depBad := x.depBad || (!soundStatus status && bit x.flags 1 == 0) }
    else x) }
  l.foldl State.makeReady s

/-! ### Fetch (R339, R342, R343) -/

/-- A descriptor's bytes as a command (R339). -/
def cmdOf (q i : Nat) (b : List Nat) : Cmd :=
  { q := q, idx := i, block := leNat (b.take 8), tiles := leNat ((b.drop 8).take 4), kind := nth 0 b 12, dlKind := nth 0 b 13,
    check := nth 0 b 14, flags := nth 0 b 15, deadline := leNat ((b.drop 16).take 8), part := leNat ((b.drop 24).take 4),
    vaddr := leNat ((b.drop 40).take 8), tag := leNat ((b.drop 48).take 8) }

/-- Whether a descriptor passes R343. -/
def cmdOk (x : Cmd) (b : List Nat) : Bool :=
  decide (x.kind ≤ 1) && decide (x.dlKind ≤ 3) && decide (x.flags < 4) && leNat ((b.drop 28).take 4) == 0 &&
  leNat ((b.drop 56).take 8) == 0 &&
  (if x.kind = 0 then decide (1 ≤ x.tiles) && decide (x.tiles ≤ 16777216) else x.tiles == 0) &&
  decide (19 ≤ x.check) && (x.check == 0xFF || decide (x.dlKind ≤ 1))

/-- Put a fetched command into its slot. -/
def State.addCmd (s : State) (x : Cmd) : State :=
  let s := s.setSch { s.sch with cmds := s.sch.cmds ++ [x] }
  let s := (s.wr bSCH (SCH_Q_PTR_FETCH x.q) (x.idx + 1)).inc bSCH SCH_CNT_FETCHED
  s.setCnt bSCH SCH_INFLIGHT_MAX (max (s.cnt bSCH SCH_INFLIGHT_MAX) s.sch.cmds.length)

/-- Whether queue `q` can be fetched from: the scheduler and the queue ON, a descriptor waiting, a slot free in its set (R342). -/
def State.canFetch (s : State) (q : Nat) : Bool :=
  decide (q < 64) && s.isOn bSCH && !s.fencing bSCH && (s.qState q == fON || s.qState q == fSTARTING) && s.qFetch q != s.qProd q &&
  decide ((s.sch.cmds.filter (fun x => x.q % 32 == q % 32)).length < 128)

/-- COMMAND_FETCH: the scheduler fetches queue `q`'s next descriptor (R342, R343). -/
def execCommandFetch (t q : Nat) (s : State) : Host.Outcome State Fault Refusal :=
  let s := s.at t
  .next (if !s.canFetch q then s
  else
    let s := s.wr bSCH (SCH_Q_CFG_QSTATE q) fON
    let i := s.qFetch q
    let r := s.hwRead iSCH (s.rd64 bSCH (SCH_Q_BASE_LO q) (SCH_Q_BASE_HI q) + 64 * (i % 2 ^ s.rd bSCH (SCH_Q_CFG_SIZE_LOG2 q))) 64
    let s := r.1
    if r.2.1 ≠ 0 then s.addCmd { q := q, idx := i, final := some (r.2.1, 0xFFFFFFFF) }
    else
      let b := r.2.2
      let x := cmdOf q i b
      if !cmdOk x b then
        s.addCmd { x with dlKind := min 3 x.dlKind, check := if x.check < 19 then 0xFF else x.check, final := some (0x0808, 0xFFFFFFFF) }
      else
        let d := s.depsOf (bit x.flags 1 == 1) [leNat ((b.drop 32).take 4), leNat ((b.drop 36).take 4)]
        (s.addCmd { x with key := s.timeKey x, waits := d.1, depBad := d.2 }).makeReady x.ptr)

/-! ### Completion (R344, R346, R347, R354) -/

/-- What a completion reports: the status after R26, whether a merge entry took it, whether the verdict byte was read, the verdict. -/
structure Report where
  status : Nat
  merged : Bool
  read : Bool
  verdict : Nat

/-- Whether a command's check goes to a merge entry: one it names, and after a refusal only one that the part declares (R365). -/
def State.reports (s : State) (x : Cmd) (status : Nat) : Bool :=
  x.check != 0xFF && decide (x.dlKind ≤ 1) &&
  (match s.mergeOf x.dlKind x.part with
  | some m => status != 0x0101 || bit m.declared x.check == 1
  | none => false)

/-- The result of a command's check (R354). -/
def State.verdictOf (s : State) (x : Cmd) (status : Nat) : State × Report :=
  if !soundStatus status then (s, ⟨status, true, false, 3⟩)
  else if x.vaddr = 0 then (s, ⟨status, true, false, 0⟩)
  else
    let r := s.hwRead iSCH x.vaddr 1
    let v := nth 255 r.2.2 0
    (r.1, ⟨status, true, true, if r.2.1 = 0 ∧ v ≤ 3 then v else 3⟩)

/-- A command's check result reaches the merge (R26, R354). -/
def State.reportCmd (s : State) (x : Cmd) (status : Nat) : State × Report :=
  let never := status == 0x0101 || status == 0x0808 || status == 0x0103
  let late := x.check != 0xFF && decide (x.dlKind ≤ 1) && status != 0x0202 && (match s.mergeOf x.dlKind x.part with
    | some m => m.committed
    | none => !never)
  let status := if late then 0x0601 else status
  if !s.reports x status then (s, ⟨status, false, false, 0xFF⟩)
  else
    let r := s.verdictOf x status
    (r.1.checkReport x.dlKind x.part x.check r.2.verdict status, r.2)

/-- The completion record of a command (R347). -/
def State.cqRecord (s : State) (x : Cmd) (tile : Nat) (r : Report) : List Nat :=
  leBytes 4 x.ptr ++ leBytes 2 r.status ++ [(if r.merged then 1 else 0) + (if r.read then 2 else 0), r.verdict] ++
  leBytes 8 x.tag ++ leBytes 4 tile ++ [x.layer, 0] ++ leBytes 2 x.failed ++ leBytes 4 s.tbSec ++ leBytes 4 s.tbNs

/-- Whether completion queue `c` is full. -/
def State.cqIsFull (s : State) (c : Nat) : Bool :=
  ringFull (s.rd bSCH (SCH_CQ_WR c)) (s.rd bSCH (SCH_CQ_RD c)) (s.rd bSCH (SCH_CQ_CFG_SIZE_LOG2 c))

/-- Write a record into completion queue `c`, or mark it full once per filling (R346). The answer says whether it was written. -/
def State.cqPut (s : State) (c : Nat) (rec : List Nat) : State × Bool :=
  if s.cqIsFull c then
    (if s.rd bSCH (SCH_CQ_CFG_FULL c) = 1 then (s, false)
     else ((s.wr bSCH (SCH_CQ_CFG_FULL c) 1).raise 0x0401 bSCH c, false))
  else
    let w := s.rd bSCH (SCH_CQ_WR c)
    let a := s.rd64 bSCH (SCH_CQ_BASE_LO c) (SCH_CQ_BASE_HI c) + 32 * (w % 2 ^ s.rd bSCH (SCH_CQ_CFG_SIZE_LOG2 c))
    ((s.putAs iSCH a rec).wr bSCH (SCH_CQ_WR c) (w + 1), true)

/-- The records of completed commands that wait for room are written, in queue and index order (R346). -/
def State.cqFlush (s : State) : State :=
  (s.sch.cmds.filter (fun x => x.record.isSome)).foldl (fun s x => match x.record with
    | some b =>
      let r := s.cqPut (s.rd bSCH (SCH_Q_CFG_CQ x.q)) b
      if r.2 then r.1.modCmd x.ptr (fun y => { y with record := none }) else r.1
    | none => s) s

/-- Retire commands from the front of queue `q` (R344). -/
def State.retire : Nat → State → Nat → State
  | 0, s, _ => s
  | n + 1, s, q =>
    match s.cmd? (qptr q (s.qDone q)) with
    | some x =>
      if x.done ∧ x.record = none then
        let s := s.setSch { s.sch with cmds := s.sch.cmds.filter (fun y => y.ptr != x.ptr) }
        State.retire n ((s.wr bSCH (SCH_Q_PTR_DONE q) (x.idx + 1)).chainRetire x.ptr) q
      else s
    | none => s

/-- Retire what can retire in every queue; stopping queues and retiring contexts follow. -/
def State.retireAll (s : State) : State :=
  let s := (List.range 64).foldl (fun s q => (State.retire s.sch.cmds.length s q).settleQueue q) s
  s.settleCtxs

/-- A command completes with a status and tile (R245, R347): check report, dependents, record. -/
def State.completeCmd (s : State) (q : Nat) : State :=
  match s.cmd? q with
  | none => s
  | some x =>
    match x.final with
    | none => s
    | some f =>
      if x.done then s.cqFlush.retireAll
      else
        let r := s.reportCmd x f.1
        let s := r.1.inc bSCH SCH_CNT_COMPLETED
        let s := if x.missed && !x.aborted then s.inc bSCH SCH_CNT_DEADLINE else s
        let bytes := s.cqRecord x f.2 r.2
        let norec := bit x.flags 0 == 1 && r.2.status == 0
        let s := s.chainStatus q r.2.status
        let s := s.modCmd q (fun y => { y with done := true, final := some (r.2.status, f.2), record := if norec then none else some bytes })
        ((s.wakeDeps q r.2.status).cqFlush).retireAll

/-! ### Contexts: loading (R356, R357, R368) -/

/-- Whether a context entry keeps R356. -/
def ctxEntryOk (b : List Nat) : Bool :=
  let f (o n : Nat) : Nat := leNat ((b.drop o).take n)
  let text := f 0x0C 1 == 1
  decide (f 0x0C 1 ≤ 1) && f 0 8 % 64 == 0 && decide (f 8 4 ≤ 1073741824) && f 0x0E 2 == 0 && decide (f 0x18 2 ≤ 64) &&
  f 0x36 10 == 0 && f 0x60 32 == 0 &&
  (if text then
    decide (1 ≤ f 0x0D 1) && decide (f 0x0D 1 ≤ 4) && decide (1 ≤ f 0x1A 2) && decide (f 0x1A 2 ≤ 2048) &&
    decide (f 0x1A 2 ≤ f 0x1C 2) && decide (f 0x1C 2 ≤ 2048) && decide (1 ≤ f 0x1E 2) && f 0x28 8 % 64 == 0 &&
    [4, 8, 16, 32, 64, 128, 256, 512, 1024].contains (f 0x30 4)
  else f 0x0D 1 == 0)

/-- Whether a model image's header keeps R368. -/
def imageHeaderOk (b : List Nat) : Bool :=
  decide (64 ≤ b.length) && leNat (b.take 4) == 0x444D5247 && leNat ((b.drop 4).take 2) == 1 && decide (nth 0 b 6 ≤ 10) &&
  ((b.drop 7).take 57).all (· == 0)

/-- A read by the scheduler that must lie in DRAM (R357). -/
def State.schDram (s : State) (a n : Nat) : State × Nat × List Nat :=
  if n = 0 then (s, 0, []) else if dramEnd < a + n then (s, 0x0201, []) else s.hwRead iSCH a n

/-- The outcome of a load: the status and the context. -/
def State.loadCtx (s : State) (k : Nat) : State × Nat × Ctx :=
  let e := s.schDram (s.rd64 bSCH SCH_CTXTAB_LO SCH_CTXTAB_HI + 128 * k) 128
  if e.2.1 ≠ 0 then (e.1, e.2.1, {})
  else if !ctxEntryOk e.2.2 then (e.1, 0x0808, {})
  else
    let b := e.2.2
    let f (o n : Nat) : Nat := leNat ((b.drop o).take n)
    let w := e.1.schDram (f 0x10 8) (16 * f 0x18 2)
    let m := w.1.schDram (f 0 8) (f 8 4)
    if w.2.1 ≠ 0 then (m.1, w.2.1, {})
    else if m.2.1 ≠ 0 then (m.1, m.2.1, {})
    else if !imageHeaderOk m.2.2 then (m.1, 0x0808, {})
    else if sha256 m.2.2 ≠ (b.drop 0x40).take 32 then (m.1, 0x0506, {})
    else (m.1, 0, { entry := b, log2L := nth 0 m.2.2 6 })

/-- Set `LOAD_STATUS` of a slot. -/
def State.loadStatus (s : State) (k v : Nat) : State := s.wr bSCH (SCH_CTX_STATE_LOAD_STATUS k) v

/-- A `LOAD` of slot `k` (R357). -/
def State.ctxLoadOp (s : State) (k : Nat) : State :=
  let st := s.ctxState k
  let s := s.forgetClass k
  if st = 0 then s.setCtxState k 1 else if st = 5 then s.setCtxState k 6 else s.loadStatus k 0x0101

/-- An `UNLOAD` of slot `k` (R357). -/
def State.ctxUnloadOp (s : State) (k : Nat) : State :=
  let st := s.ctxState k
  let s := s.forgetClass k
  if st = 1 ∨ st = 3 then s.loadStatus k 0x0101
  else
    let s := s.loadStatus k 0
    if st = 2 then s.emptyCtx k
    else if st = 4 ∨ st = 6 then s.setCtxState k 5
    else s

/-- A write of `SCH_CTX_CMD`. -/
def State.ctxCmd (s : State) (v : Nat) : State :=
  let k := bits v 0 6
  let op := bits v 8 2
  (if op = 1 then s.ctxLoadOp k else if op = 2 then s.ctxUnloadOp k else s).settleCtxs

/-! ### Fence and reset (R367) -/

/-- A fence of the scheduler: every command in flight completes with FENCED_ABORT, its tiles abandoned. -/
def State.schFence (s : State) : State :=
  let s := (List.range 34).foldl (fun s c => match s.tileOf c with
    | some _ => (s.dropTile c).inc (bCLU c) CLU_CNT_ABANDON
    | none => s) s
  let s := s.setSch { s.sch with
    forced := []
    cmds := s.sch.cmds.map (fun x => if x.done then x else { x with aborted := true, final := some (0x0202, 0xFFFFFFFF) }) }
  (s.sch.cmds.map Cmd.ptr).foldl State.completeCmd s

/-- A reset of the fenced scheduler, beside its registers: no queue, entry, context or batch is left; `SCH_SUBST_OK` stays. -/
def State.schReset (s : State) : State :=
  let m := s.rd64 bSCH SCH_SUBST_OK_LO SCH_SUBST_OK_HI
  ((s.setSch {}).clearBlk bSCH).wr64 bSCH SCH_SUBST_OK_LO SCH_SUBST_OK_HI m |> fun s => { s with merge := [] }

end Sys2Proof.Machine
end

