-- ==== Sys2Proof/Machine/FusedCore.lean ====
section
/-!
DEFINITION. Fused commands: kernel block, parameter block, tensors, and what their tiles do (R284, R285).
-/

namespace Sys2Proof.Machine

/-- A fused command at its start: its command, segments and parameter block. -/
structure Fused where
  x : Cmd
  segs : List (List Nat)
  p : List Nat

/-- The kinds that a parameter block can name: R285, R315, R319, R326, R388, R391. -/
def fusedKinds : List Nat := [1, 2, 3, 4, 5, 6, 7, 8, 9, 10]

/-- A field of a parameter block. -/
def pf (p : List Nat) (o n : Nat) : Nat := leNat ((p.drop o).take n)

/-- Whether bytes of a parameter block are 0. -/
def pz (p : List Nat) (o n : Nat) : Bool := ((p.drop o).take n).all (· == 0)

/-- Whether the segments of a fused command's kernel block keep R214 and R215. -/
def fusedSegsOk (b : List Nat) : Bool := (List.range 15).all (fun k => segOk b (k + 1)) && segsApart (kbSegs b)

/-- Whether a range lies wholly inside one segment that permits its use (R285). -/
def tensorOk (segs : List (List Nat)) (wr : Bool) (a n : Nat) : Bool := (segCause segs wr a n).isNone

/-- Read the kernel block and the parameter block of a fused command: the status, and what was read. -/
def State.readFused (s : State) (x : Cmd) : State × Nat × Fused :=
  if x.block % 64 ≠ 0 ∨ dramEnd < x.block + 256 then (s, 0x0802, ⟨x, [], []⟩)
  else
    let r := s.hwRead iSCH x.block 256
    let b := r.2.2
    if r.2.1 ≠ 0 then (r.1, r.2.1, ⟨x, [], []⟩)
    else
      let g := kbSegs b
      let seg1 := nth [] g 0
      if !fusedSegsOk b || !tensorOk g false (nth 0 seg1 0) 128 || !segValid seg1 ||
          (x.vaddr != 0 && !tensorOk g true x.vaddr 1) then (r.1, 0x0802, ⟨x, g, []⟩)
      else
        let q := r.1.hwRead iSCH (nth 0 seg1 0) 128
        (q.1, q.2.1, ⟨x, g, q.2.2⟩)

/-- Whether a command that runs outside the clusters can start now: exchanges and barriers wait while the module is out of service or a barrier of
the same number is pending (R326, R389, R391, R409). -/
def State.outsideReady (s : State) (x : Cmd) : Bool :=
  x.kind == 1 && s.cmdReady x && !x.begun && !s.onClusters x &&
  (s.fusedKind x == 8 || !s.lnkOn ||
    (s.inService && !(s.fusedKind x == 10 && s.lnk.waits.any (fun w => w.2.1 == s.byte (s.readLE (x.block + 16) 8 + 1)))))

/-- Whether no other command that runs outside the clusters goes first: they start in key order (R349, R351). -/
def State.startsFirst (s : State) (x : Cmd) : Bool :=
  s.sch.cmds.all (fun y => y.ptr == x.ptr || !s.outsideReady y ||
    !(keyLt (s.effKey y) (s.effKey x) || (s.effKey y == s.effKey x && s.tieBefore y x)))

/-- Whether a fused command can start: in flight, ready and without an end (R351). -/
def State.fusedReady (s : State) (q : Nat) : Option Cmd :=
  match s.cmd? q with
  | some x => if x.kind = 1 ∧ s.cmdReady x ∧ !x.begun ∧ (s.onClusters x ∨ s.startsFirst x) ∧ s.isOn bSCH ∧ !s.fencing bSCH ∧ s.awake then some x else none
  | none => none

/-- Start the fused command that `q` points to, if its kind is `kind`: a command that breaks R285 ends, and one of no kind ends
with PARAM_INVALID.  Bytes `0x00` to `0x0F` of the kernel block, the code fields, are not checked. -/
def State.startFused (s : State) (q kind : Nat) (run : State → Fused → State) : State :=
  match s.fusedReady q with
  | none => s
  | some x =>
    let r := s.readFused x
    if r.2.1 ≠ 0 then r.1.refuseCmd q r.2.1
    else
      let k := pf r.2.2.p 0 1
      if k = kind then run r.1 r.2.2
      else if fusedKinds.contains k then s
      else r.1.refuseCmd q 0x0808

/-- What a fused tile does: the state after its reads, the status of those, its stores, what it leaves in the workspace and the
flags, and the layer of a stripe whose reads failed. -/
structure TileOut where
  s : State
  status : Nat := 0
  stores : List (Nat × List Nat) := []
  vals : List Nat := []
  flags : Nat := 0
  layer : Nat := 0

/-- A fused tile's work on the cluster it is given. -/
abbrev TileBody := State → Nat → TileOut

/-- A fused command begins: its parameter block, its layers or entries, and its tiles, dispatched as R351 says. -/
def State.beginFused (s : State) (f : Fused) (lays : List (List Nat)) (n : Nat) : State :=
  (s.modCmd f.x.ptr (fun y => { y with begun := true, segs := f.segs, par := f.p, lays := lays, todo := [(0, n)] })).settleCmd f.x.ptr

/-- End a fused command that breaks a rule of its parameter block, or start it (R285). -/
def State.fusedCheck (s : State) (f : Fused) (params tensors : Bool) (run : State) : State :=
  if !params then s.refuseCmd f.x.ptr 0x0808 else if !tensors then s.refuseCmd f.x.ptr 0x0802 else run

/-- Reads of several ranges by cluster `c`: the state and the first status that is not 0. -/
def State.readAll (s : State) (c : Nat) (l : List (Nat × Nat)) : State × Nat :=
  l.foldl (fun (r : State × Nat) e =>
    let q := r.1.hwRead (iCLU c) e.1 e.2
    (q.1, if r.2 ≠ 0 then r.2 else q.2.1)) (s, 0)

/-! ### Tensors (R253, R284) -/

/-- Element `i` of width `w` bits from the byte address `a` on. -/
def State.elem (s : State) (a i w : Nat) : Nat := bits (s.readLE (a + i * w / 8) (w / 8 + 1)) (i * w % 8) w

/-- The bytes of a row of `n` elements of width `w`. -/
def rowBytes (n w : Nat) : Nat := (n * w + 7) / 8

/-- The bytes of a tensor of `h` rows of `n` elements. -/
def tensorBytes (h n pitch w : Nat) : Nat := if h = 0 then 0 else (h - 1) * pitch + rowBytes n w

/-- Whether a pitch keeps R284. -/
def pitchOk (pitch n w : Nat) : Bool := pitch % 64 == 0 && decide (rowBytes n w ≤ pitch)

/-- The type code of R252 of an output format 0 to 3: INT8, E4M3, FP16, BF16. -/
def outType (f : Nat) : Nat := if f = 0 then 1 else if f = 1 then 2 else if f = 2 then 5 else 4

/-- The bits of an output format 0 to 5. -/
def outBits (f : Nat) : Nat := if f ≤ 1 then 8 else if f ≤ 3 then 16 else 32

/-- An element of a format 0 to 3 widened exactly to FP32. -/
def widenF (f v : Nat) : Nat := if f = 0 then (fpOfInt fp32 (sext 8 v)).1 else widen (outType f) v

/-- An FP32 value converted to a format 0 to 3: INT8 by INT32 with ties to even, saturating (R291). -/
def toFormat (f v : Nat) : Nat := if f = 0 then (narrow 1 true (cvtToInt false v).1).1 else (narrow (outType f) true v).1

/-- A pairwise tree: values 2m and 2m + 1 of each level, an odd last value passing up unchanged (R296). -/
def pairs (f : α → α → α) : List α → List α
  | x :: y :: r => f x y :: pairs f r
  | l => l

/-- The value at the top of the tree. -/
def pairTree (f : α → α → α) (d : α) : Nat → List α → α
  | 0, l => l.headD d
  | n + 1, l => match l with
    | [] => d
    | [x] => x
    | l => pairTree f d n (pairs f l)

end Sys2Proof.Machine
end

