-- ==== Sys2Proof/Machine/KvCache.lean ====
section
/-!
DEFINITION. The key-value cache unit: pools, allocation, copies on write, swap, and the sequence control command (R308, R317, R326-R335,
R337).
-/

namespace Sys2Proof.Machine

/-- Replace the key-value cache unit's inside. -/
def State.setKvc (s : State) (x : Kvc) : State := { s with kvc := x }

/-! ### Pools (R308, R331) -/

def State.poolValid (s : State) (k : Nat) : Bool := s.act bKVC (KVC_POOL_CFG_VALID k) == 1
def State.poolFmt (s : State) (k : Nat) : Nat := s.act bKVC (KVC_POOL_CFG_FMT k)
def State.poolD (s : State) (k : Nat) : Nat := s.act bKVC (KVC_POOL_CFG_D k)

/-- The row pitch of a pool of format `f` with `d` elements a row. -/
def kvPitch (f d : Nat) : Nat := (d * (fmtBits f / 8) + 63) / 64 * 64

/-- The page size. -/
def kvPageBytes (f d : Nat) : Nat := 512 * kvPitch f d

def State.poolPitch (s : State) (k : Nat) : Nat := kvPitch (s.poolFmt k) (s.poolD k)

/-- The address of page `i`. -/
def State.pageAddr (s : State) (i : Nat) : Nat :=
  let k := (s.page i).pool
  s.act bKVC (KVC_POOL_BASE_LO k) + 4294967296 * s.act bKVC (KVC_POOL_BASE_HI k) +
    (i - s.act bKVC (KVC_POOL_PAGES_FIRST k)) * kvPageBytes (s.poolFmt k) (s.poolD k)

/-- The address of row `t` of page `i`, in its K area or its V area. -/
def State.rowAddr (s : State) (i t : Nat) (v : Bool) : Nat :=
  s.pageAddr i + (t + if v then 256 else 0) * s.poolPitch (s.page i).pool

/-- The free pages of pool `k`. -/
def State.freePages (s : State) (k : Nat) : List Nat :=
  if !s.poolValid k then []
  else ((List.range (s.act bKVC (KVC_POOL_PAGES_COUNT k))).map (· + s.act bKVC (KVC_POOL_PAGES_FIRST k))).filter
    (fun i => decide (i < 16384) && s.page i == {})

/-- The free pages of all pools. -/
def State.freeTotal (s : State) : Nat := ((List.range 4).map (fun k => (s.freePages k).length)).foldl (· + ·) 0

/-- Take a free page of pool `k` with a reference count and a state; which of them is an open value. -/
def State.allocPage (s : State) (k refs st : Nat) : Option (Nat × State) :=
  let l := s.freePages k
  if l.isEmpty then none
  else
    let f := s.takeFree
    let i := nth 0 l (Config.freeNat f.1 % l.length)
    let s := (f.2.setPage i { refs := refs, inflight := 0, fill := 0, state := st, pool := k }).inc bKVC KVC_CNT_ALLOC
    some (i, s.setCnt bKVC KVC_FREE_MIN (min (s.cnt bKVC KVC_FREE_MIN) s.freeTotal))

/-- Set entry `e` of a sequence's page list. -/
def State.setEntry (s : State) (q e v : Nat) : State :=
  let x := s.seq q
  s.setSeq q { x with list := Store.put 0xFFFF x.list e v }

/-- Whether the unit serves commands. -/
def State.kvcOn (s : State) : Bool := s.isOn bKVC && !s.fencing bKVC

/-! ### Copy on write (R327) -/

/-- Copy one row of a page, each line with its poison. -/
def State.copyRow (s : State) (src dst t : Nat) (v : Bool) : State :=
  let k := (s.page src).pool
  let n := s.poolD k * (fmtBits (s.poolFmt k) / 8)
  let r := s.hwRead iKVC (s.rowAddr src t v) n
  (r.1.hwWriteParts iKVC (s.rowAddr dst t v) r.2.2 (r.1.lineParts (s.rowAddr src t v) n)).1

/-- Steps 1 and 2 of R327. -/
def State.startCopy (s : State) (q e x : Nat) : Option State :=
  match s.allocPage (s.page x).pool 0 2 with
  | some (y, s) =>
    let s := (s.updPage x (fun g => { g with inflight := g.inflight + 1 })).inc bKVC KVC_CNT_COW
    some (s.setKvc { s.kvc with copies := s.kvc.copies ++ [{ seq := q, entry := e, src := x, dst := y }] })
  | none => none

/-! ### Segments of a batch command (R311, R313) -/

def segSeq (b : List Nat) : Nat := pf b 0 2
def segKind (b : List Nat) : Nat := pf b 2 1
def segStart (b : List Nat) : Nat := pf b 4 4
def segCount (b : List Nat) : Nat := pf b 8 2
def segRow (b : List Nat) : Nat := pf b 0xC 4
def segMask (b : List Nat) : Nat := pf b 0x10 8

/-- Whether a segment entry keeps R311. -/
def segEntryOk (b : List Nat) : Bool :=
  decide (segSeq b < 1024) && decide (segKind b ≤ 1) && pf b 3 1 == 0 && decide (segStart b ≤ 4095) && within' 1 (if segKind b = 0 then 128 else 1) (segCount b) &&
  pz b 0x18 8
where
  within' (lo hi n : Nat) : Bool := decide (lo ≤ n) && decide (n ≤ hi)

/-- Whether the row ranges of a batch are apart and its tokens few enough (R312). -/
def batchOk (l : List (List Nat)) : Bool :=
  l.all segEntryOk && decide ((l.map segCount).foldl (· + ·) 0 ≤ 2048) &&
  (l.zipIdx.all (fun a => l.zipIdx.all (fun b => a.2 == b.2 || !overlap (segRow a.1) (segCount a.1) (segRow b.1) (segCount b.1))))

/-- The pages that hold positions 0 to a segment's last. -/
def segPages (b : List Nat) : Nat := (segStart b + segCount b + 255) / 256

/-- Segment `i` of a command ends with a status before its tiles do: the module that runs it writes the status, and it has no further tile
(R313, R314, R332). -/
def State.endSegment (s : State) (q i st : Nat) : State :=
  match s.cmd? q with
  | none => s
  | some x => (if s.ownShard (i % x.shards) then s.writeSegStatus x i st else s).modCmd q (fun y => y.endSeg i st)

/-- A batch command that has started and has not ended. -/
def Cmd.batchRuns (x : Cmd) : Bool := x.begun && x.final.isNone && x.isBatch

/-- Whether segment `i` of a batch command still waits for its first tile. -/
def Cmd.segWaits (x : Cmd) (i : Nat) : Bool := toRun (nth 0 x.sts i) && x.wait.any (fun r => r.1 == i)

/-! ### Swap (R332-R335) -/

/-- Whether swap is enabled (R333). -/
def State.swapOn (s : State) : Bool :=
  s.rd bKVC KVC_SWAP_CFG_EN == 1 && decide (1 ≤ s.rd bKVC KVC_SWAP_CFG_SLOTS) && s.rd bKVC KVC_SWAP_STAT_LINK == 1

/-- The free slots, lowest first. -/
def State.freeSlots (s : State) : List Nat :=
  (List.range (s.rd bKVC KVC_SWAP_CFG_SLOTS)).filter (fun k => !Store.get false s.kvc.slots k)

/-- The size of a slot: the largest page size among the valid pools. -/
def State.slotBytes (s : State) : Nat :=
  ((List.range 4).map (fun k => if s.poolValid k then kvPageBytes (s.poolFmt k) (s.poolD k) else 0)).foldl max 0

/-- The list entries of a sequence whose page no other list names. -/
def State.ownEntries (s : State) (q : Nat) : List Nat :=
  let x := s.seq q
  (List.range (x.layers * x.pages)).filter (fun e =>
    let i := Store.get 0xFFFF x.list e
    i != 0xFFFF && (s.page i).refs == 1)

/-- Whether a started, uncompleted command names a sequence: in a segment, or in an operation of a list (R326, R332). -/
def State.seqNamed (s : State) (q : Nat) : Bool :=
  s.sch.cmds.any (fun x => x.begun && !x.done &&
    ((x.isBatch && x.lays.any (fun b => segSeq b == q)) ||
     (x.par.headD 0 == 8 && x.lays.any (fun b => pf b 2 2 == q || (pf b 0 1 == 2 && pf b 4 2 == q)))))

/-- Whether sequence `v` may be swapped out for sequence `q` (R332 step 2). -/
def State.victimOk (s : State) (q v : Nat) : Bool :=
  let x := s.seq v
  let r := s.seq q
  x.state == 1 && x.pool == r.pool && decide (sext 64 r.deadline < sext 64 x.deadline) && !s.seqNamed v &&
  !s.kvc.outs.any (fun o => o.1 == v)

/-- The victim chosen: the latest deadline, then the higher number. -/
def State.victim (s : State) (q : Nat) : Option Nat :=
  ((s.kvc.seqs.map Prod.fst).filter (s.victimOk q)).foldl (fun (b : Option Nat) v => match b with
    | none => some v
    | some w => if sext 64 (s.seq v).deadline < sext 64 (s.seq w).deadline then some w else some v) none

/-- A sequence has no page and no victim (R332 step 5). -/
def State.exhaust (s : State) (x i q : Nat) : State :=
  ((s.endSeq q 0x0401).inc bKVC KVC_CNT_EXHAUSTED).endSegment x i 0x0401

/-- No page is free for sequence `q` of segment `i` of command `x` (R332): a victim goes out, or the sequence ends. -/
def State.noPage (s : State) (x i q : Nat) : State :=
  if s.kvc.outs.any (fun o => o.2 == x) then s
  else match if s.swapOn then s.victim q else none with
    | some v =>
      if (s.ownEntries v).length ≤ s.freeSlots.length ∧ !s.freeSlots.isEmpty then
        s.setKvc { s.kvc with outs := s.kvc.outs ++ [(v, x)] }
      else s.exhaust x i q
    | none => s.exhaust x i q

/-! ### Preparing the segments of a command (R317, R334) -/

/-- Allocate pages for the slots of a swapped sequence: all of them, or none. -/
def State.swapIn (s : State) (x i q : Nat) : State :=
  let r := s.seq q
  let n := (r.entries.filter (· < 65536)).length
  if s.kvc.ins.any (fun e => e.1 == q) then s
  else if (s.freePages r.pool).length < n then s.noPage x i q
  else
    let a := (List.range n).foldl (fun (a : List Nat × State) _ => match a.2.allocPage r.pool 0 2 with
      | some (p, s) => (a.1 ++ [p], s)
      | none => a) ([], s)
    a.2.setKvc { a.2.kvc with ins := a.2.kvc.ins ++ [(q, a.1)] }

/-- Make one list entry of an open sequence name a page of its own (R317). -/
def State.ownPage (s : State) (x i q e : Nat) : State :=
  let r := s.seq q
  let g := Store.get 0xFFFF r.list e
  if r.state ≠ 1 ∨ s.kvc.copies.any (fun c => c.seq == q && c.entry == e) then s
  else if g = 0xFFFF then
    match s.allocPage r.pool 1 1 with
    | some (p, s) => s.setEntry q e p
    | none => s.noPage x i q
  else if 1 < (s.page g).refs then
    match s.startCopy q e g with
    | some s => s
    | none => s.noPage x i q
  else s

/-- The list entries that a segment's positions fall into. -/
def segEntries (layer pages start count : Nat) : List Nat :=
  (List.range ((start + count - 1) / 256 - start / 256 + 1)).map (fun k => layer * pages + start / 256 + k)

/-- The entries segment `b` of a projection writes. -/
def State.segWrites (s : State) (layer : Nat) (b : List Nat) : List Nat :=
  segEntries layer (s.seq (segSeq b)).pages (segStart b) (segCount b)

/-- Prepare segment `i` of command `x`, which has no tile yet; `proj` says whether it writes. -/
def State.prepSeg (s : State) (x : Nat) (proj : Bool) (layer i : Nat) (b : List Nat) : State :=
  match s.cmd? x with
  | none => s
  | some c =>
    if !c.segWaits i then s
    else
      let q := segSeq b
      if (s.seq q).state = 0 then s.endSegment x i 0x0101
      else if (s.seq q).state = 3 then s.endSegment x i (s.seq q).endStatus
      else if (s.seq q).state = 2 then s.swapIn x i q
      else if proj then (s.segWrites layer b).foldl (fun s e => s.ownPage x i q e) s
      else s

/-- Whether a batch command appends keys and values. -/
def Cmd.isProj (x : Cmd) : Bool := x.par.headD 0 == 7

/-- The layer of a batch command. -/
def Cmd.layerNo (x : Cmd) : Nat := pf x.par (if x.isProj then 0xA else 8) 1

/-- Whether a segment has what it needs: its pages resident, and those it writes named by its own list alone (R317, R334). -/
def State.segReady (s : State) (x : Cmd) (b : List Nat) : Bool :=
  let q := segSeq b
  (s.seq q).state == 1 && !s.kvc.ins.any (fun e => e.1 == q) &&
  (!x.isProj || (s.segWrites x.layerNo b).all (fun e =>
    let g := Store.get 0xFFFF (s.seq q).list e
    g != 0xFFFF && (s.page g).refs == 1 && !s.kvc.copies.any (fun c => c.seq == q && c.entry == e)))

/-- Whether a tile of a prepared segment can go to a cluster: an attention tile that weighs a page waits for the maxima of all pages, and the
one that adds the pages up for all of those (R322; entry 61). -/
def Cmd.openTile (x : Cmd) (t : Nat) : Bool :=
  let n := segPages (nth [] x.lays (tileSeg t))
  let has (a : Nat) : Bool := (List.range n).all (fun k => Store.get [] x.ws (1024 * (a + k) + tileSeg t) != [])
  x.isProj || decide (t / 1024 < n) || (if t / 1024 < 2 * n then has 0 else has n)

/-- The tile of segment `i` in a range between two multiples of 1024. -/
def segTile (i : Nat) (r : Nat × Nat) : Option Nat :=
  let t := r.1 / 1024 * 1024 + i
  if r.1 ≤ t ∧ t < r.2 then some t else none

/-- The tiles of segment `i` that wait and can go to a cluster become dispatchable. -/
def Cmd.admitSeg (x : Cmd) (i : Nat) : Cmd :=
  ((x.wait.filterMap (segTile i)).filter x.openTile).foldl (fun y t =>
    { y with wait := todoTake y.wait t, todo := todoPut y.todo t }) x

/-- The tiles whose segments and earlier tiles are ready wait for their tile boundaries (R317, R322, R334, R351). -/
def State.readyTiles (s : State) (q : Nat) : State :=
  match s.cmd? q with
  | none => s
  | some x =>
    if x.batchRuns then
      s.modCmd q (fun y => x.lays.zipIdx.foldl (fun y e =>
        if toRun (nth 0 x.sts e.2) && (!x.segWaits e.2 || s.segReady x e.1) then y.admitSeg e.2 else y) y)
    else s

/-- Prepare the segments of a batch command in batch order, up to one that waits for a page (R317, R332). -/
def State.prepare (s : State) (x : Nat) : State :=
  match s.cmd? x with
  | none => s
  | some c =>
    if !c.batchRuns then s
    else
      ((c.lays.zipIdx.foldl (fun s e =>
        if s.kvc.outs.any (fun o => o.2 == x) then s
        else s.prepSeg x c.isProj c.layerNo e.2 e.1) s).readyTiles x).settleCmd x

/-- Prepare every batch command that has started. -/
def State.prepareAll (s : State) : State :=
  ((s.sch.cmds.filter Cmd.batchRuns).map Cmd.ptr).foldl State.prepare s

/-- PAGE_COPY_DONE: the copy for entry `e` of sequence `q` ends (R327 steps 3 to 7); a copy whose sequence no longer maps the page leaves
its new page free. -/
def execPageCopyDone (t q e : Nat) (s : State) : Host.Outcome State Fault Refusal :=
  let s := s.at t
  .next (match s.kvc.copies.find? (fun c => c.seq == q && c.entry == e) with
  | none => s
  | some c =>
    if !s.kvcOn then s
    else
      let fill := (s.page c.src).fill
      let s := (List.range fill).foldl (fun s r => (s.copyRow c.src c.dst r false).copyRow c.src c.dst r true) s
      let s := s.setKvc { s.kvc with copies := s.kvc.copies.filter (fun d => d != c) }
      let s := s.updPage c.src (fun g => { g with inflight := g.inflight - 1 })
      if (s.seq q).state = 1 ∧ Store.get 0xFFFF (s.seq q).list e = c.src then
        let s := s.setPage c.dst { s.page c.dst with refs := 1, fill := fill, state := 1 }
        ((s.setEntry q e c.dst).updPage c.src (fun g => { g with refs := g.refs - 1 })).prepareAll
      else (s.updPage c.dst (fun g => { g with state := 1 })).prepareAll)

/-- A page's bytes on their way out, each line with its poison (R188, R332). -/
def State.pageOut (s : State) (i slot : Nat) : State :=
  let a := s.pageAddr i
  let n := kvPageBytes (s.poolFmt (s.page i).pool) (s.poolD (s.page i).pool)
  let r := s.hwRead iKVC a n
  let h := s.rd64 bKVC KVC_SWAP_BASE_LO KVC_SWAP_BASE_HI + slot * s.slotBytes
  { r.1 with out := ((poisonRuns (r.1.lineParts a n) 0 (r.1.bytes a n)).map (fun e => Out.host (h + e.1) e.2.1 e.2.2)).reverse ++ r.1.out }

/-- SWAP_OUT_DONE: victim `v`'s pages have been written to swap slots (R332 step 3); the held command resumes. -/
def execSwapOutDone (t v : Nat) (s : State) : Host.Outcome State Fault Refusal :=
  let s := s.at t
  .next (match s.kvc.outs.find? (fun o => o.1 == v) with
  | none => s
  | some o =>
    if !s.kvcOn then s
    else
      let s := s.setKvc { s.kvc with outs := s.kvc.outs.filter (fun p => p != o) }
      let x := s.seq v
      if x.state ≠ 1 then s.prepare o.2
      else
        let es := s.ownEntries v
        let pairs := es.zip s.freeSlots
        let data := es.flatMap (fun e => let i := Store.get 0xFFFF x.list e
          s.bytes (s.pageAddr i) (kvPageBytes (s.poolFmt (s.page i).pool) (s.poolD (s.page i).pool)))
        let s := pairs.foldl (fun s p =>
          let i := Store.get 0xFFFF x.list p.1
          let s := (s.pageOut i p.2).updPage i (fun g => { g with refs := g.refs - 1 })
          (s.setKvc { s.kvc with slots := Store.put false s.kvc.slots p.2 true }).inc bKVC KVC_CNT_SWAP_OUT) s
        let list := x.list.map (fun e => match pairs.find? (fun p => p.1 == e.1) with
          | some p => (e.1, p.2)
          | none => (e.1, e.2 + 65536))
        let s := s.setSeq v { x with state := 2, list := list, crc := crc32 data }
        (s.showSlots.raise 0x0403 bKVC v 0 0 0x0402).prepare o.2)

/-- SWAP_IN_DONE: the slots of sequence `q` have been read back as `data`, the pages' bytes in list order, or with a DMA error (R334). -/
def execSwapInDone (t q : Nat) (ok : Bool) (data : List Nat) (s : State) : Host.Outcome State Fault Refusal :=
  let s := s.at t
  .next (match s.kvc.ins.find? (fun e => e.1 == q) with
  | none => s
  | some e =>
    if !s.kvcOn then s
    else
      let s := s.setKvc { s.kvc with ins := s.kvc.ins.filter (fun p => p.1 != q) }
      let x := s.seq q
      let free (s : State) : State := e.2.foldl (fun s i => s.updPage i (fun g => { g with state := 1 })) s
      if x.state ≠ 2 then free s
      else if !ok ∨ crc32 data ≠ x.crc then ((free s).endSeq q 0x0304).prepareAll
      else
        let es := (x.list.filter (fun l => l.2 < 65536)).map Prod.fst
        let n := kvPageBytes (s.poolFmt x.pool) (s.poolD x.pool)
        let s := (es.zip e.2).zipIdx.foldl (fun s z =>
          let i := z.1.2
          let l := min 256 (Store.get 0 x.lens (z.1.1 / max 1 x.pages) - 256 * (z.1.1 % max 1 x.pages))
          let s := s.putAs iKVC (s.pageAddr i) ((data.drop (z.2 * n)).take n)
          (s.setPage i { s.page i with refs := 1, state := 1, fill := l }).inc bKVC KVC_CNT_SWAP_IN) s
        let slots := (x.list.filter (fun l => l.2 < 65536)).map Prod.snd
        let s := s.setKvc { s.kvc with slots := slots.foldl (fun m k => Store.put false m k false) s.kvc.slots }
        let list := x.list.map (fun l => match (es.zip e.2).find? (fun z => z.1 == l.1) with
          | some z => (l.1, z.2)
          | none => (l.1, l.2 % 65536))
        let s := s.setSeq q { x with state := 1, list := list, crc := 0 }
        (s.showSlots.raise 0x0403 bKVC q 1 0 0x0402).prepareAll)

/-- The PCI Express link goes down (R334): every swapped sequence ends. -/
def State.kvcLinkDown (s : State) : State :=
  let s := s.wr bKVC KVC_SWAP_STAT_LINK 0
  let s := s.kvc.ins.foldl (fun s e => e.2.foldl (fun s i => s.updPage i (fun g => { g with state := 1 })) s) s
  let s := s.setKvc { s.kvc with ins := [], outs := [] }
  (((s.kvc.seqs.filter (fun e => e.2.state == 2)).map Prod.fst).foldl (fun s q => s.endSeq q 0x0401) s).prepareAll

/-- Whether a running command is one of the unit's own: projection, attention or sequence control. -/
def Cmd.usesKvc (x : Cmd) : Bool := x.begun && x.final.isNone && [6, 7, 8].contains (x.par.headD 0)

/-- A fence of the unit (R337): its running commands complete FENCED_ABORT, and their tiles end with nothing stored; copies and swaps stop. -/
def State.kvcFence (s : State) : State :=
  let xs := (s.sch.cmds.filter Cmd.usesKvc).map Cmd.ptr
  let s := (List.range 34).foldl (fun s c => match s.tileOf c with
    | some t => if xs.contains t.q then s.dropTile c else s
    | none => s) s
  let s := s.kvc.copies.foldl (fun s c => (s.updPage c.src (fun g => { g with inflight := g.inflight - 1 }))) s
  let s := s.setKvc { s.kvc with copies := [], outs := [], ins := [] }
  s.setSch { s.sch with
    forced := s.sch.forced.filter (fun f => !xs.contains f.q)
    cmds := s.sch.cmds.map (fun x => if xs.contains x.ptr then { x with aborted := true, final := some (0x0202, 0xFFFFFFFF) } else x) }

/-- A reset of the fenced unit (R337), beside its registers. -/
def State.kvcReset (s : State) : State := s.setKvc {}

/-! ### The sequence control command (R326) -/

def opCode (b : List Nat) : Nat := pf b 0 1
def opSeq (b : List Nat) : Nat := pf b 2 2

/-- Whether an operation keeps its layout: its fields in range, those it does not use 0. -/
def seqOpOk (b : List Nat) : Bool :=
  let c := opCode b
  let layers := pf b 7 1
  let pages := pf b 8 1
  decide (1 ≤ c) && decide (c ≤ 3) && pf b 1 1 == 0 && decide (opSeq b < 1024) && pf b 0xB 1 == 0 && pz b 0x1A 6 &&
  (c == 2 || pf b 4 2 == 0) && (c != 2 || decide (pf b 4 2 < 1024)) &&
  (if c = 1 then decide (pf b 6 1 ≤ 3) && decide (1 ≤ layers) && decide (layers ≤ 32) && decide (1 ≤ pages) && decide (pages ≤ 16) &&
      decide (layers * pages ≤ 128)
   else pz b 6 3) &&
  (if c = 3 then pz b 9 2 && pz b 0xC 12 else decide (pf b 9 1 ≤ 1) && decide (pf b 0xA 1 < 64))

/-- One operation: the state and its status. -/
def State.seqOp (s : State) (b : List Nat) : State × Nat :=
  let q := opSeq b
  let x := s.seq q
  if opCode b = 3 then (if x.state = 0 then (s, 0x0101) else (s.closeSeq q, 0))
  else if x.state ≠ 0 then (s, 0x0101)
  else if opCode b = 1 then
    let y : KvSeq := { state := 1, pool := pf b 6 1, layers := pf b 7 1, pages := pf b 8 1 }
    (s.setSeq q { y with part := pf b 0xC 4, deadline := pf b 0x10 8, port := pf b 9 1, ctx := pf b 0xA 1 }, 0)
  else
    let y := s.seq (pf b 4 2)
    if y.state ≠ 1 ∨ y.entries.any (fun i => 65535 ≤ (s.page i).refs) then (s, 0x0101)
    else
      let s := (y.entries.foldl (fun s i => s.updPage i (fun g => { g with refs := g.refs + 1 })) s).inc bKVC KVC_CNT_FORK
      (s.setSeq q { y with part := pf b 0xC 4, deadline := pf b 0x10 8, port := pf b 9 1, ctx := pf b 0xA 1 }, 0)

/-- A sequence control command starts: its list is read and checked. -/
def State.startSeqCmd (s : State) (x : Nat) : State :=
  s.startFused x 8 (fun s f =>
    if !s.kvcOn then s.refuseCmd x 0x0202
    else
      let n := pf f.p 2 2
      let a := pf f.p 8 8
      if !(pf f.p 1 1 == 0 && pz f.p 4 4 && pz f.p 0x10 112 && decide (1 ≤ n) && decide (n ≤ 64)) then s.refuseCmd x 0x0808
      else
        let r := s.hwRead iKVC a (32 * n)
        let ops := (List.range n).map (fun k => (r.2.2.drop (32 * k)).take 32)
        if dramEnd < a + 32 * n then s.refuseCmd x 0x0802
        else if r.2.1 ≠ 0 then r.1.refuseCmd x r.2.1
        else if !ops.all seqOpOk then r.1.refuseCmd x 0x0808
        else r.1.modCmd x (fun c => { c with begun := true, par := f.p, lays := ops }))

/-- The next operation of the sequence control command that `x` points to runs, if its code is `code` (R326); the last one ends the
command. -/
def State.seqStep (s : State) (x code : Nat) : State :=
  let s := s.startSeqCmd x
  match s.cmd? x with
  | none => s
  | some c =>
    let k := c.sts.length
    if !c.begun ∨ c.final.isSome ∨ c.stopped ∨ pf c.par 0 1 ≠ 8 ∨ c.lays.length ≤ k ∨ opCode (nth [] c.lays k) ≠ code then s
    else
      let r := s.seqOp (nth [] c.lays k)
      let s := r.1.putAs iKVC (pf c.par 8 8 + 32 * k + 0x18) (leBytes 2 r.2)
      let sts := c.sts ++ [r.2]
      let fin := if sts.length = c.lays.length then some (if sts.all (· == 0) then 0 else 0x0101, 0xFFFFFFFF) else none
      s.modCmd x (fun c => { c with sts := sts, final := fin })

/-- OPEN: the next operation of the sequence control command that `x` points to is `OPEN` (R326). -/
def execSeqOpen (t x : Nat) (s : State) : Host.Outcome State Fault Refusal := .next ((s.at t).seqStep x 1)

/-- FORK: the next operation is `FORK` (R326). -/
def execFork (t x : Nat) (s : State) : Host.Outcome State Fault Refusal := .next ((s.at t).seqStep x 2)

/-- CLOSE: the next operation is `CLOSE` (R326). -/
def execClose (t x : Nat) (s : State) : Host.Outcome State Fault Refusal := .next ((s.at t).seqStep x 3)

end Sys2Proof.Machine
end

