-- ==== Sys2Proof/Machine/LaneOut.lean ====
section
/-!
DEFINITION. What the owners of the serial lanes do when a lane comes and goes (R541, R544, R545, R559).
-/

namespace Sys2Proof.Machine

/-! ### Ethernet -/

/-- The Ethernet port that runs on lane `m` (R553). -/
def State.laneEth (s : State) (m : Nat) : Option Nat :=
  (List.range 2).find? (fun p => m == 40 + p + 2 * s.rd (bETH p) ETH_CFG_LANE)

/-- The link of Ethernet port `p` is down: the frames in the MAC are lost. -/
def State.ethDown (s : State) (p : Nat) : State :=
  let b := bETH p
  let s := if s.rd b ETH_STAT_LINK = 1 then s.inc b ETH_CNT_LINK_DOWN else s
  (((s.wr b ETH_STAT_LINK 0).wr b ETH_STAT_BLOCK_LOCK 0).wr b ETH_STAT_FEC_LOCK 0).setEth p {}

/-- Block lock on port `p`'s lane: the link is up (R552). -/
def State.ethUp (s : State) (p : Nat) : State :=
  let b := bETH p
  let s := ((s.wr b ETH_STAT_LINK 1).wr b ETH_STAT_BLOCK_LOCK 1).wr b ETH_STAT_HI_BER 0
  s.wr b ETH_STAT_FEC_LOCK (if s.rd b ETH_CFG_SPEED = 1 ∧ s.rd b ETH_CFG_FEC = 1 then 1 else 0)

/-! ### PCI Express -/

/-- Whether lane `m` is trained and in use. -/
def State.laneLive (s : State) (m : Nat) : Bool :=
  s.fsm (bSDS m) == fON && s.rd (bSDS m) SDS_STAT_TRAINED == 1 && s.rd (bSDS m) COM_FENCE_FENCE == 0

/-- The widest width whose lanes are all trained (R544). -/
def State.pcieLanes (s : State) : Nat :=
  let n := ((List.range 8).takeWhile (fun k => s.laneLive (44 + k))).length
  if n = 8 then 8 else if 4 ≤ n then 4 else if 2 ≤ n then 2 else n

/-- Whether the endpoint runs: ON or fenced (R559), and `PCIE_PERST_N` high. -/
def State.pcieLive (s : State) : Bool :=
  (s.isOn bPCIE || s.fsm bPCIE == fFENCED) && s.rd bPCIE COM_RESET_RESET == 0 && s.pwr.perstLow.isNone

/-- The PCI Express link goes down (R559). -/
def State.pcieDown (s : State) : State :=
  if s.rd bPCIE PCIE_STAT_LINK_UP = 1 then
    let s := (((s.wr bPCIE PCIE_STAT_LINK_UP 0).wr bPCIE PCIE_STAT_WIDTH 0).wr bPCIE PCIE_STAT_SPEED 0).wr bPCIE PCIE_STAT_LTSSM 0
    ((s.inc bPCIE PCIE_CNT_LINK_DOWN).dmaHostFails 0x0201).kvcLinkDown
  else s

/-- The link takes the width that its lanes allow: it comes up, goes through Recovery to another width, or goes down (R544, R562). -/
def State.pcieRelink (s : State) : State :=
  let w := if s.pcieLive then s.pcieLanes else 0
  if w = 0 then s.pcieDown
  else
    let up := s.rd bPCIE PCIE_STAT_LINK_UP == 1
    let s := if up && s.rd bPCIE PCIE_STAT_WIDTH != w then s.inc bPCIE PCIE_CNT_RECOVERY else s
    let s := ((s.wr bPCIE PCIE_STAT_LINK_UP 1).wr bPCIE PCIE_STAT_WIDTH w).wr bPCIE PCIE_STAT_LTSSM 4
    (s.wr bPCIE PCIE_STAT_SPEED (s.rd (bSDS 44) SDS_STAT_RATE)).wr bKVC KVC_SWAP_STAT_LINK 1

/-! ### Every owner -/

/-- The lanes that a function owns (R546). -/
def State.lanesOf (s : State) (b : Nat) : List Nat :=
  if 0x20 ≤ b ∧ b ≤ 0x27 then (List.range 4).map (fun k => 4 * (b - 0x20) + k)
  else if b = bLNK then (List.range 8).map (32 + ·)
  else if b = 0x14 ∨ b = 0x15 then [40 + (b - 0x14) + 2 * s.rd b ETH_CFG_LANE]
  else if b = bPCIE then (List.range 8).map (44 + ·)
  else []

/-- Lane `m` is out of use: its owner reacts (R544).  A camera's link is lost by CAM_LINK_LOSS after 10 µs. -/
def State.laneLost (s : State) (m : Nat) : State :=
  if m < 32 then s
  else if m < 40 then
    let p := (m - 32) / 4
    let f := LNK_PORT_STAT_LANES_UP p
    let v := s.rd bLNK f
    if bit v ((m - 32) % 4) = 0 then s
    else
      let s := s.wr bLNK f (v - 2 ^ ((m - 32) % 4))
      if s.rd bLNK f ≠ 0 ∨ !s.lnkOn then s else (s.portDown p).setPortState p 1
  else if m < 44 then (match s.laneEth m with
    | some p => s.ethDown p
    | none => s)
  else s.pcieRelink

/-- Lane `m` is back: its owner uses it again (R544, R545). -/
def State.laneBack (s : State) (m : Nat) : State :=
  if m < 32 then s
  else if m < 40 then
    let p := (m - 32) / 4
    let f := LNK_PORT_STAT_LANES_UP p
    let v := s.rd bLNK f
    if bit v ((m - 32) % 4) = 1 then s
    else
      let s := s.wr bLNK f (v + 2 ^ ((m - 32) % 4))
      if v = 0 ∧ s.lnkOn then s.linkUp p else s
  else if m < 44 then (match s.laneEth m with
    | some p => if s.isOn (bETH p) then s.ethUp p else s
    | none => s)
  else s.pcieRelink

/-- The owner leaves OFF: its lanes that are OFF start with it. -/
def State.startLanes (s : State) (b : Nat) : State :=
  (s.lanesOf b).foldl (fun s m =>
    if s.fsm (bSDS m) = fOFF ∧ !s.fencing (bSDS m) then (((s.setFsm (bSDS m) fSTARTING).wr (bSDS m) COM_CTRL_ENABLE 1).showLane m) else s) s

/-- The owner reaches OFF: its lanes go with it, but for those that are fenced or in FAULT. -/
def State.stopLanes (s : State) (b : Nat) : State :=
  (s.lanesOf b).foldl (fun s m =>
    if s.fsm (bSDS m) = fFENCED ∨ s.fsm (bSDS m) = fFAULT ∨ s.fencing (bSDS m) then s
    else ((((s.setFsm (bSDS m) fOFF).wr (bSDS m) COM_CTRL_ENABLE 0).untrain m).laneLost m).showLane m) s

/-- Lane `m` leaves use by itself: a fence, a stop, or a fault. -/
def State.laneLeft (s : State) (m : Nat) : State :=
  let x := s.sdsX m
  (((s.setSds m { last := x.last }).wr (bSDS m) SDS_CTRL_RETRAIN 0).untrain m).laneLost m

end Sys2Proof.Machine
end

