-- ==== Sys2Proof/Machine/Fsm.lean ====
section
/-!
DEFINITION. The function state machine without what each function does beside it (R14-R16, R504).
-/

namespace Sys2Proof.Machine

/-- A function enters STARTING: a switched domain that is off begins to power up (R504). -/
def State.toStarting (s : State) (b : Nat) : State :=
  let n := domOf b
  let s := (s.setFsm b fSTARTING).startLanes b
  if switchedDom n && s.pstate n == 0 then s.setPstate n 1 else s

/-- A switched domain all of whose functions are OFF begins to power down with its save (R504, R506). -/
def State.settleDom (s : State) (n : Nat) : State :=
  if switchedDom n && s.pstate n == 2 && (blocksOf n).all (fun b => s.fsm b == fOFF) then s.setPstate n 3 else s

/-- A function enters OFF. -/
def State.toOff (s : State) (b : Nat) : State := ((s.setFsm b fOFF).stopLanes b).settleDom (domOf b)

/-- A function that was enabled again while it stopped passes OFF: its domain powers down, with its save, where nothing else holds it, and
the function waits in STARTING for it to come up again (R14, R504). -/
def State.passOff (s : State) (b : Nat) : State :=
  let s := ((s.setFsm b fOFF).stopLanes b).settleDom (domOf b)
  s.toStarting b

/-- Whether a function's reset runs (R94). -/
def State.inFuncReset (s : State) (b : Nat) : Bool := s.rd b COM_RESET_RESET == 1

/-- A write of `ENABLE` (R14, R15, R94): stored, and in the states that list it a transition. -/
def State.enableReq (s : State) (b v : Nat) : State :=
  if s.inFuncReset b then s
  else
    let s1 := s.wr b COM_CTRL_ENABLE v
    if s.fencing b then s1
    else if v = 1 then
      (if s.fsm b = fOFF then s1.toStarting b
       else if s.fsm b = fSTOPPING then s1.setFsm b fPENDING
       else s1)
    else
      (if s.fsm b = fON then s1.setFsm b fSTOPPING
       else if s.fsm b = fPENDING then s1.setFsm b fSTOPPING
       else s1)

end Sys2Proof.Machine
end

