-- ==== Sys2Proof/Machine/Reset.lean ====
section
/-!
DEFINITION. Resets of system and whole-module scope: their sources, what they clear, and their end (R63-R72, R189).
-/

namespace Sys2Proof.Machine

/-- The offsets of the reset controller's block that a system-scope reset keeps (R64). -/
def rstKept (off : Nat) : Bool :=
  off == 0x100 || off == 0x104 || off == 0x108 || off == 0x114 || off == 0x118

/-- Whether an address's contents survive a reset: the flash, and the retention SRAM unless the whole module resets. -/
def survives (whole : Bool) (a : Nat) : Bool := decide (flashBase ≤ a) || (!whole && inRet a)

/-- The raw input levels a reset does not touch: the encoder lines. -/
def keepLevels (x : StpPort) : StpPort := { a := x.a, b := x.b }

/-- Everything but the always-on domain, cleared: what is left is outside the module, in the flash or in the always-on
domain (R64, R65). -/
def State.cleared (s : State) (whole : Bool) : State :=
  { now := s.now
    pending := s.pending
    regs := if whole then [] else s.regs.filter (fun e => ofBlk bRST e.1 && rstKept (e.1 % 33554432 / 32))
    mem := s.mem.filter (fun e => survives whole e.1)
    poison := s.poison.filter (fun e => survives whole e.1)
    errs := s.errs.filter (fun e => survives whole e.1)
    free := s.free
    stp := s.stp.foldl (fun l e => Store.put {} l e.1 (keepLevels e.2)) []
    field := { diRaw := s.field.diRaw }
    out := s.out
    pwr := { perstLow := s.pwr.perstLow }
    sys := { pinLow := s.sys.pinLow, swapState := s.sys.swapState, swapActive := s.sys.swapActive, swapFrom := s.sys.swapFrom, vcxp := s.sys.vcxp,
             roles := s.sys.roles } }

/-- Begin a reset of system scope, or of the whole module, from source `src` with its cause bit (R63, R67): `standing` says
whether the source lasts until its own end. -/
def State.beginReset (s : State) (src : Nat) (cause : Fld) (standing sample whole : Bool) : State :=
  let c := (s.cleared whole).wr bRST cause 1
  let old := if s.sys.inReset && !whole then s.sys.sources else []
  c.setSys { c.sys with
    inReset := true
    sources := if standing then src :: old.filter (· != src) else old
    srcEnd := s.now
    sample := sample || (s.sys.inReset && s.sys.sample) }

/-- A system-scope reset from a source that ends at once and samples no straps. -/
def State.systemReset (s : State) (cause : Fld) : State := s.beginReset 0 cause false false false

/-- A standing source ends. -/
def State.endSource (s : State) (src : Nat) : State :=
  if s.sys.inReset && s.sys.sources.contains src then
    s.setSys { s.sys with sources := s.sys.sources.filter (· != src), srcEnd := s.now }
  else s

/-- The reset requested by Halter, with its escalation record written before it (R498). -/
def State.haltReset (s : State) (level : Nat) : State :=
  let c := s.rd bHLT HLT_STAT_CAUSE
  (s.writeEscalation level c 0xFF 0xFF).systemReset RST_CAUSE_HLT_WDT

/-- SAFE_RESET_DELAY: `RESET_DELAY_MS` have passed since the safe reaction (R489). -/
def execSafeResetDelay (t : Nat) (s : State) : Host.Outcome State Fault Refusal :=
  let s := s.at t
  .next (match s.hlt.resetDue with
  | some d => if d ≤ s.now then s.haltReset 2 else s
  | none => s)

/-- HALTER_ESCALATION_RESET: one millisecond has passed since a self-fault (R482). -/
def execHalterEscalationReset (t : Nat) (s : State) : Host.Outcome State Fault Refusal :=
  let s := s.at t
  .next (match s.hlt.selfAt with
  | some a => if a + 1000000 ≤ s.now then s.haltReset 3 else s
  | none => s)

/-- The critical-state reset of R189 with its source: 0 scheduler queues, 1 page tables, 2 firewall tables, 3 shard map. -/
def State.criticalReset (s : State) (src : Nat) : State :=
  let f := if src = 0 then RST_CRIT_SRC_SCH_Q else if src = 1 then RST_CRIT_SRC_PAGE_TBL
    else if src = 2 then RST_CRIT_SRC_FW_TBL else RST_CRIT_SRC_SHARD_MAP
  (s.wr bRST f 1).systemReset RST_CAUSE_CRIT_ERR

/-! ### The commands -/

/-- POWER_ON: `VIN12` rises with the always-on domain unpowered (R63, R65): the whole module resets. -/
def execPowerOn (t : Nat) (s : State) : Host.Outcome State Fault Refusal :=
  .next ((s.at t).beginReset 0 RST_CAUSE_POR false true true)

/-- BROWN_OUT: `VIN12` has been below 10.8 V for longer than 10 µs (R51). -/
def execBrownOut (t : Nat) (s : State) : Host.Outcome State Fault Refusal :=
  .next ((s.at t).beginReset 1 RST_CAUSE_BOR true true false)

/-- BROWN_OUT_RELEASE: `VIN12` rises above 11.2 V (R51). -/
def execBrownOutRelease (t : Nat) (s : State) : Host.Outcome State Fault Refusal := .next ((s.at t).endSource 1)

/-- RST_N: the pin has been low for 1 µs (R66). -/
def execRstN (t : Nat) (s : State) : Host.Outcome State Fault Refusal :=
  .next ((s.at t).beginReset 2 RST_CAUSE_PIN true true false)

/-- RST_N_RELEASE: the pin returns high (R67). -/
def execRstNRelease (t : Nat) (s : State) : Host.Outcome State Fault Refusal := .next ((s.at t).endSource 2)

/-- RST_SWRESET: a write `v` by initiator `i` (R72): one from another initiator is refused, one with a wrong key discarded. -/
def execRstSwreset (t i v : Nat) (s : State) : Host.Outcome State Fault Refusal :=
  let s := s.at t
  .next (if !s.mgmtOrHost i then s.deny i true (regBase + bRST * 0x100000 + 0x10C)
  else if bits v 16 16 = 0xA5C3 ∧ bit v 0 = 1 then s.systemReset RST_CAUSE_SW_FULL
  else s)

/-- CRITICAL_STATE_ERROR: a parity or double-bit error in state named by `src`: 0 scheduler queues, 1 page tables, 2 firewall
tables, 3 shard map (R189). -/
def execCriticalStateError (t src : Nat) (s : State) : Host.Outcome State Fault Refusal :=
  .next ((s.at t).criticalReset src)

/-- THERMAL_TRIP: the hottest junction reaches 115 °C (R63). -/
def execThermalTrip (t : Nat) (s : State) : Host.Outcome State Fault Refusal :=
  .next ((s.at t).beginReset 8 RST_CAUSE_THERM true false false)

/-- THERMAL_TRIP_RELEASE: the hottest junction reads 100 °C or less (R68). -/
def execThermalTripRelease (t : Nat) (s : State) : Host.Outcome State Fault Refusal := .next ((s.at t).endSource 8)

/-- The functions that read ON with `ENABLE` 1 from the end of every reset: `PWR`, `RST`, `CLK`, `TIM` and `HLT` (R71, R476,
R502, R525, R526). -/
def resetOn : List Nat := [bPWR, bRST, bCLK, bTIM, bHLT]

/-- The domains that are on at the end of a reset: always on, Halter, the cache slices, DRAM, core 0 and the system domain
(R503). -/
def resetDoms : List Nat := [0, 1, 36, 37, 38, 39, 50, 51, 55]

/-- The factory role of cluster `n` (R405). -/
def State.factoryRole (s : State) (n : Nat) : Nat := nth 2 s.sys.roles n

/-- The factory assignment of the clusters, and `SCH_SUBST_OK` for every spare (R405, R411). -/
def State.resetRoles (s : State) : State :=
  let s := (List.range 34).foldl (fun s n => s.wr (bCLU n) CLU_CTRL_ROLE (s.factoryRole n)) s
  let ok := (List.range 34).foldl (fun m n => if s.factoryRole n = 1 then m + 2 ^ n else m) 0
  s.wr64 bSCH SCH_SUBST_OK_LO SCH_SUBST_OK_HI ok

/-- The state of the blocks at the end of a reset: the slices are in STARTING (R201), `MEM4` until the DRAM is
initialised, and the field side starts as if `V24F` had just fallen (R52, R447). -/
def State.resetBlocks (s : State) : State :=
  let s := resetOn.foldl (fun s b => (s.setFsm b fON).wr b COM_CTRL_ENABLE 1) s
  let s := [8, 9, 10, 11].foldl (fun s b => (s.setFsm b fSTARTING).wr b COM_CTRL_ENABLE 1) s
  let s := (s.setFsm bMEM4 fSTARTING).wr bMEM4 COM_CTRL_ENABLE 1
  let s := resetDoms.foldl (fun s n => s.setPstate n 2) s
  ((s.wr bFIO FIO_STAT_UV 1).wr bFIO FIO_STAT_FAULT 1).resetRoles

/-- The active bank (R88): the one the swap record holds; while it is blank the strapped one, or during a trial the one that was active
when the trial was asked for.  DESIGN CHOICE (entry 109): straps of 0b10 or 0b11 with a blank record name a bank by `BOOT_SEL0`. -/
def State.activeBank (s : State) : Nat :=
  s.sys.swapActive.getD (if s.sys.swapState = 0 ∧ !s.sys.verifying then s.rd bRST RST_STRAPS_BOOT_SEL % 2 else s.sys.swapFrom)

/-- What a reset of system or whole-module scope does to the swap record (R89): a pending trial runs, a running one is
reverted, wherever the boot takes its images from. -/
def State.swapAtReset (s : State) : State :=
  let act := s.activeBank
  if s.sys.swapState = 1 then s.setSys { s.sys with swapState := 2, bank := 1 - act }
  else if s.sys.swapState = 2 then
    (s.setSys { s.sys with swapState := 0, bank := act }).wr bRST RST_BOOT_STATUS_REVERTED 1
  else s.setSys { s.sys with bank := act }

/-- Show the swap record in `RST_SWAP_CTRL` (R92). -/
def State.showSwap (s : State) : State :=
  (s.wr bRST RST_SWAP_CTRL_SWAP_STATE s.sys.swapState).wr bRST RST_SWAP_CTRL_ACTIVE_BANK s.activeBank

/-- SYSTEM_RESET_END: no source stands and 100 µs have passed since the last one ended (R67); `straps` are the levels of
`CLK_SEL1:0` and `BOOT_SEL1:0`, sampled where R63 says so. -/
def execSystemResetEnd (t straps : Nat) (s : State) : Host.Outcome State Fault Refusal :=
  let s := s.at t
  .next (if s.sys.inReset ∧ s.sys.sources = [] ∧ s.sys.srcEnd + 100000 ≤ s.now then
    let s := if s.sys.sample then
        (s.wr bRST RST_STRAPS_CLK_SEL (bits straps 2 2)).wr bRST RST_STRAPS_BOOT_SEL (bits straps 0 2) else s
    let s := s.setSys { s.sys with inReset := false, sample := false }
    ((s.resetBlocks.setTb {}).swapAtReset).showSwap
  else s)

end Sys2Proof.Machine
end

