-- ==== Sys2Proof/Machine/Signature.lean ====
section
/-!
DEFINITION. The check of an Ed25519 signature of RFC 8032, which R73, R78 and R79 name.
-/

namespace Sys2Proof.Machine

/-- The prime of the curve's field. -/
def edP : Nat := 2 ^ 255 - 19

/-- The order of the base point. -/
def edL : Nat := 2 ^ 252 + 27742317777372353535851937790883648493

/-- `b` to the power whose lowest `n` bits are those of `e`, in the field. -/
def edPow (b e : Nat) : Nat → Nat
  | 0 => 1
  | n + 1 =>
    let h := edPow b (e / 2) n
    h * h * (if e % 2 = 1 then b else 1) % edP

/-- The inverse of a field element. -/
def edInv (x : Nat) : Nat := edPow x (edP - 2) 256

/-- The difference of two field elements. -/
def edSub (x y : Nat) : Nat := (x + edP - y % edP) % edP

/-- The constant `d` of the curve, -121665/121666. -/
def edD : Nat := edSub 0 (121665 * edInv 121666 % edP)

/-- A point in projective coordinates: `X/Z` and `Y/Z`. -/
structure EdPoint where
  x : Nat
  y : Nat
  z : Nat
deriving DecidableEq, Repr

/-- The neutral point. -/
def edZero : EdPoint := ⟨0, 1, 1⟩

/-- The sum of two points; `d` is passed so that it is computed once. -/
def edAdd (d : Nat) (p q : EdPoint) : EdPoint :=
  let a := p.z * q.z % edP
  let xx := p.x * q.x % edP
  let yy := p.y * q.y % edP
  let e := d * (xx * yy % edP) % edP
  let f := edSub (a * a) e
  let g := (a * a + e) % edP
  ⟨a * f % edP * edSub ((p.x + p.y) * (q.x + q.y)) (xx + yy) % edP, a * g % edP * (xx + yy) % edP, f * g % edP⟩

/-- The multiple of a point by the lowest `n` bits of `k`. -/
def edMul (d : Nat) (p : EdPoint) : Nat → Nat → EdPoint
  | 0, _ => edZero
  | n + 1, k =>
    let h := edMul d p n (k / 2)
    let h2 := edAdd d h h
    if k % 2 = 1 then edAdd d h2 p else h2

/-- Whether two points are equal. -/
def edSame (p q : EdPoint) : Bool :=
  p.x * q.z % edP == q.x * p.z % edP && p.y * q.z % edP == q.y * p.z % edP

/-- The point with a given `y` and the sign of `x`, or none. -/
def edLift (d y sign : Nat) : Option EdPoint :=
  let u := edSub (y * y) 1
  let v := (d * (y * y % edP) + 1) % edP
  let v3 := v * v % edP * v % edP
  let r := u * v3 % edP * edPow (u * (v3 * v3 % edP) % edP * v % edP) ((edP - 5) / 8) 256 % edP
  let w := v * (r * r % edP) % edP
  let x := if w = u then some r
    else if w = edSub 0 u then some (r * edPow 2 ((edP - 1) / 4) 256 % edP) else none
  match x with
  | none => none
  | some x =>
    if edP ≤ y ∨ (x = 0 ∧ sign = 1) then none
    else some ⟨if x % 2 = sign then x else edP - x, y, 1⟩

/-- The point that 32 bytes encode, or none. -/
def edDecode (d : Nat) (b : List Nat) : Option EdPoint :=
  let n := leAt b 0 32
  edLift d (n % 2 ^ 255) (n / 2 ^ 255)

/-- Whether 64 bytes are a valid signature of a message under a public key: the group equation of RFC 8032 with its factor 8. -/
def ed25519Valid (key msg sig : List Nat) : Bool :=
  let d := edD
  let k := leAt (sha512 (sig.take 32 ++ key ++ msg)) 0 64 % edL
  let m := leAt (sig.drop 32) 0 32
  match edDecode d (sig.take 32), edDecode d key, edLift d (4 * edInv 5 % edP) 0 with
  | some r, some a, some b =>
    let eight (p : EdPoint) : EdPoint := edMul d p 4 8
    decide (m < edL) && edSame (eight (edMul d b 256 m)) (edAdd d (eight r) (eight (edMul d a 256 k)))
  | _, _, _ => false

end Sys2Proof.Machine
end

