-- ==== Sys2Proof/Machine/Boot.lean ====
section
/-!
DEFINITION. Boot: option bytes, image sets and their checks, the boot sources, the identity memory, and the bank swap
(R57-R61, R73-R92).
-/

namespace Sys2Proof.Machine

/-! ### Option bytes -/

/-- The option bytes a copy holds, or none when its magic, version, CRC-32 or a value of R499 is wrong (R73, R74). -/
def parseOptions (b : List Nat) : Option Options :=
  let h := b.drop 0x14
  let fl := leAt b 0x0C 4
  if b.length = 4096 ∧ leAt b 0 4 = 0x54504F47 ∧ leAt b 4 2 = 1 ∧ crc32 (b.take 0xFFC) = leAt b 0xFFC 4 ∧
      leAt h 0 1 = 1 ∧ leAt h 1 1 ≤ 3 ∧ (leAt h 3 1 ≤ 7 ∨ leAt h 3 1 = 0xFF) ∧
      100 ≤ leAt h 4 2 ∧ leAt h 4 2 ≤ 10000 ∧ 1 ≤ leAt h 6 2 ∧ leAt h 6 2 ≤ 1000 ∧ leAt h 8 2 ≤ 60000 ∧
      1 ≤ leAt h 10 2 ∧ 1 ≤ leAt h 12 2 ∧ zeroAt h 14 18 then
    some {
      lockstep := bit fl 0 == 1, debug := bit fl 1 == 1, pcieBoot := bit fl 2 == 1, ethBoot := bit fl 3 == 1
      minSec := leAt b 0x10 4, safeOnStage6 := bit (leAt h 1 1) 0 == 1, resetOnEsc := bit (leAt h 1 1) 1 == 1
      windows := leAt h 2 1, runPermissive := leAt h 3 1, hwdUs := leAt h 4 2, s7PersistMs := leAt h 6 2
      resetDelayMs := leAt h 8 2, restoreParts := leAt h 10 2, ueSwitch := leAt h 12 2
      safe := leAt b 0x34 2, keyHash := (b.drop 0x40).take 32, seq := leAt b 8 4 }
  else none

/-- The address of option-byte copy `k`. -/
def optAddr (k : Nat) : Nat := flashBase + 0xC000000 + 0x1000 * k

/-- The option bytes in use with their copy coded 1 or 2 (R74). -/
def State.readOptions (s : State) : Option (Nat × Options) :=
  match parseOptions (s.bytes (optAddr 0) 4096), parseOptions (s.bytes (optAddr 1) 4096) with
  | some a, some b => if a.seq < b.seq then some (2, b) else some (1, a)
  | some a, none => some (1, a)
  | none, some b => some (2, b)
  | none, none => none

/-- Put options into force. -/
def State.setOptions (s : State) (copy : Nat) (o : Options) : State :=
  (({ s with opt := o }).wr bRST RST_BOOT_STATUS_OPT_COPY copy).wr bHLT HLT_STAT_LOCKSTEP (if o.lockstep then 1 else 0)

/-! ### Image sets -/

/-- Where the image set being booted lies. -/
def State.setBase (s : State) : Nat := if s.sys.fromDram then 0 else flashBase + 0x6000000 * s.sys.bank

/-- The entries of a directory as type, offset and length, or none when it is invalid (R78).  DESIGN CHOICE (entry 109): an entry's flags
and length are not used; the payload's length is the one its own signed header gives. -/
def State.directory (s : State) (base : Nat) : Option (List (Nat × Nat × Nat)) :=
  let b := s.bytes base 1024
  let n := leAt b 6 2
  if leAt b 0 4 = 0x52494447 ∧ leAt b 4 2 = 1 ∧ 1 ≤ n ∧ n ≤ 30 ∧ crc32 (b.take 0x3FC) = leAt b 0x3FC 4 then
    some ((List.range n).map (fun k =>
      (leAt b (0x20 + 32 * k) 2, leAt b (0x24 + 32 * k) 4, leAt b (0x28 + 32 * k) 4)))
  else none

/-- The first entry of a type. -/
def entryOf (d : List (Nat × Nat × Nat)) (ty : Nat) : Option (Nat × Nat × Nat) := d.find? (fun e => e.1 == ty)

/-- The failure code of an image, 0 when it passes every check of R79. -/
def State.imageCode (s : State) (base : Nat) (e : Nat × Nat × Nat) : Nat :=
  let h := s.bytes (base + e.2.1) 192
  let len := leAt h 0x0C 4
  let key := (h.drop 0x40).take 32
  if sha256 key ≠ s.opt.keyHash then 0x03
  else if !ed25519Valid key (h.take 0x60) ((h.drop 0x60).take 64) then 0x04
  else if sha256 (s.bytes (base + e.2.1 + 192) len) ≠ (h.drop 0x20).take 32 then 0x05
  else if leAt h 8 4 < s.opt.minSec then 0x06
  else if !Config.loadRegionOk e.1 (leAt h 0x10 8) len then 0x07
  else 0

/-- The failure code of a directory with its required images, 0 when it can be booted (R78). -/
def State.dirCode (s : State) (base : Nat) : Nat :=
  match s.directory base with
  | none => 0x02
  | some d => if (entryOf d 1).isSome && (entryOf d 2).isSome then 0 else 0x08

/-- The payload of an image. -/
def State.payload (s : State) (base : Nat) (e : Nat × Nat × Nat) : List Nat :=
  s.bytes (base + e.2.1 + 192) (s.readLE (base + e.2.1 + 0x0C) 4)

/-- Load an image's payload at its load address. -/
def State.loadImage (s : State) (base : Nat) (e : Nat × Nat × Nat) : State :=
  let a := s.readLE (base + e.2.1 + 0x10) 8
  let p := s.payload base e
  if inStore a p.length then s.write a p else s

/-! ### Steps of the boot -/

/-- The boot's stage and phase; the UART reports the step (R81), as the numbers 3, the stage's code and the failure's code (entry 110). -/
def State.setStage (s : State) (stage phase : Nat) : State :=
  ((s.wr bRST RST_BOOT_STATUS_STAGE stage).setSys { s.sys with phase := phase }).send
    (.console [3, stage, s.rd bRST RST_BOOT_STATUS_FAIL_CODE])

/-- The network boot begins anew with DHCP (R85). -/
def State.netStartOver (s : State) : State :=
  (s.setSys { s.sys with netStart := s.now, netAddr := 0, netFile := [] }).send .dhcp

/-- The module waits for the network (R85). -/
def State.netWait (s : State) : State := (s.setStage 7 7).netStartOver

/-- Record a failure. -/
def State.bootCode (s : State) (code : Nat) : State := s.wr bRST RST_BOOT_STATUS_FAIL_CODE code

/-- Boot has stopped (R82). -/
def State.bootStop (s : State) (code : Nat) : State := (s.bootCode code).setStage 0xF 9

/-- Mark a bank bad. -/
def State.markBad (s : State) (k : Nat) : State :=
  if k = 0 then (s.wr bRST RST_BOOT_STATUS_BANK_A_BAD 1).setSys { s.sys with badA := true }
  else (s.wr bRST RST_BOOT_STATUS_BANK_B_BAD 1).setSys { s.sys with badB := true }

/-- Whether a bank has failed a check since the last reset. -/
def State.isBad (s : State) (k : Nat) : Bool := if k = 0 then s.sys.badA else s.sys.badB

/-- Choose bank `k` as the source and wait for its Halter image. -/
def State.chooseBank (s : State) (k : Nat) : State :=
  let s := (s.wr bRST RST_BOOT_STATUS_SOURCE k).setSys { s.sys with bank := k, fromDram := false }
  s.setStage 3 1

/-- The bank being booted has failed with a code (R82): the other bank boots, or the boot stops.  DESIGN CHOICE (entry 109): a bank under
trial that fails here leaves the swap record in TRIAL_RUNNING, since R89 lists no such event and R90 leaves the record unchanged then. -/
def State.bankFail (s : State) (code : Nat) : State :=
  let k := s.sys.bank
  let s := (s.bootCode code).markBad k
  if s.isBad (1 - k) then s.bootStop code
  else
    let c := s.dirCode (flashBase + 0x6000000 * (1 - k))
    if c = 0 then s.chooseBank (1 - k) else (s.markBad (1 - k)).bootStop c

/-- Boot a flash bank from step 5 (R81, R82). -/
def State.bootBank (s : State) (k : Nat) : State :=
  let c := s.dirCode (flashBase + 0x6000000 * k)
  if c = 0 then s.chooseBank k else (s.setSys { s.sys with bank := k, fromDram := false }).bankFail c

/-- A boot from DRAM has failed with a code (R83, R85). -/
def State.dramFail (s : State) (code : Nat) : State :=
  let s := s.bootCode code
  if s.rd bRST RST_BOOT_STATUS_SOURCE = 2 then s.setStage 6 6
  else s.netWait

/-- A required image has failed. -/
def State.bootFail (s : State) (code : Nat) : State := if s.sys.fromDram then s.dramFail code else s.bankFail code

/-- The further images of the directory: all but the Halter and management boot images already run. -/
def State.further (s : State) : List (Nat × Nat × Nat) :=
  ((s.directory s.setBase).getD []).filter (fun e => e.1 != 1 && e.1 != 2)

/-- The factory program gives ejection unit 0 a setting, which holds at once: it runs with no job, so no epoch could put its settings into
effect.  DESIGN CHOICE (entry 111). -/
def State.facSet (s : State) (f : Fld) (n : Nat) : State := (s.wr (bEJT 0) f n).wrAct (bEJT 0) f n

/-- The factory program starts (R34, R95-R105): it takes Stirrup port 0, ejection unit 0, the field side and `CAM0` into use, opens its
slots by `EJT0_XOPEN` (R438), gives `DO0` to class 1 of unit 0 with a pulse of 20 ms and the valve delay as its lead, and begins to
listen for an encoder (R96). -/
def State.factoryStart (s : State) : State :=
  let v := s.sys.factory.valveUs
  let s := s.setSys { s.sys with factory := { s.sys.factory with on := true, listenAt := s.now, run := 0, run16 := false } }
  let s := [bFIO, bSTP 0, bEJT 0, bCAM 0].foldl (fun s b => s.enableReq b 1) s
  let s := (((s.facSet EJT_PARTCFG_PS_SRC 3).facSet (EJT_CLS_CFG_MASK 1) 1).facSet (EJT_CLS_CFG_PULSE 1) 200).facSet (EJT_CLS_DELAY 1) v
  (s.wr bFIO (FIO_DO_CFG_SRC 0) 1).wr (bCAM 0) CAM_CTRL_POCXP_EN 1

/-- The result version of the cluster firmware image of the set at `base` (R400). -/
def State.resultVersion (s : State) (base : Nat) : List Nat :=
  match entryOf ((s.directory base).getD []) 4 with
  | some e => (s.payload base e).take 4
  | none => []

/-- Boot completes; the factory program runs when no management application was released (R95). -/
def State.bootComplete (s : State) : State :=
  let s := s.setStage 8 8
  let s := s.setLnk { s.lnk with resultVer := s.resultVersion s.setBase }
  if s.sys.released.contains 5 && !s.sys.released.contains 3 && s.rd bRST RST_BOOT_STATUS_SOURCE != 2 then s.factoryStart else s

/-- The further images begin, or the boot completes when there is none. -/
def State.bootFurther (s : State) : State :=
  let s := (s.setStage 5 4).setSys { (s.setStage 5 4).sys with imgNext := 0 }
  if s.further.isEmpty then s.bootComplete else s

/-- The rule the Halter image installs: every group may read and write the DRAM (R497). -/
def dramRule : List Nat := [0, dramEnd / 4096 - 1, 0xFF, 0xFF, 1]

/-- Halter starts: its image installs its rule, and lockstep runs as the option bytes say. -/
def State.startHalter (s : State) : State :=
  let l := if s.opt.lockstep then 1 else 0
  let s := (s.wr bRST RST_BOOT_STATUS_LOCKSTEP l).wr bHLT HLT_STAT_LOCKSTEP l
  s.setHlt { s.hlt with started := some s.now, rules := Store.put [] s.hlt.rules 0 dramRule }

/-- Whether the Halter image of the set in use passes the checks of step 5 of the boot (R81), as an exit from S4 asks again (R490, R516). -/
def State.halterSound (s : State) : Bool :=
  match entryOf ((s.directory s.setBase).getD []) 1 with
  | some e => s.imageCode s.setBase e == 0
  | none => false

/-- Release an image. -/
def State.releaseImage (s : State) (ty : Nat) : State := s.setSys { s.sys with released := s.sys.released ++ [ty] }

/-- A verified option image with a higher sequence number goes into the copy not in use and into force (R77).  DESIGN CHOICE (entry 109):
one in an image set that the host or the network placed in DRAM counts like one in the bank being booted. -/
def State.applyOptions (s : State) (p : List Nat) : State :=
  match parseOptions p with
  | some o =>
    if s.opt.seq < o.seq then
      let k := if s.rd bRST RST_BOOT_STATUS_OPT_COPY = 1 then 1 else 0
      (s.write (optAddr k) p).setOptions (k + 1) o
    else s
  | none => s

/-- IMAGE_VERIFIED: the check of the next image finishes (R79, R81, R82). -/
def execImageVerified (t : Nat) (s : State) : Host.Outcome State Fault Refusal :=
  let s := s.at t
  let base := s.setBase
  let d := (s.directory base).getD []
  .next (if s.sys.phase = 1 then
    match entryOf d 1 with
    | none => s.bootFail 0x08
    | some e =>
      let c := s.imageCode base e
      if c = 0 then (((s.loadImage base e).startHalter).releaseImage 1).setStage 4 2 else s.bootFail c
  else if s.sys.phase = 2 then
    match entryOf d 2 with
    | none => s.bootFail 0x08
    | some e =>
      let c := s.imageCode base e
      if c = 0 then
        let s := (s.loadImage base e).releaseImage 2
        if s.sys.fromDram then s.bootFurther else s.setStage 4 3
      else s.bootFail c
  else if s.sys.phase = 4 then
    match s.further[s.sys.imgNext]? with
    | none => s.bootComplete
    | some e =>
      let c := s.imageCode base e
      let s1 := if c = 0 then
          (if e.1 = 0xF then (s.applyOptions (s.payload base e)) else (s.loadImage base e).releaseImage e.1)
        else s.bootCode c
      let s1 := s1.setSys { s1.sys with imgNext := s.sys.imgNext + 1 }
      if s.further.length ≤ s.sys.imgNext + 1 then s1.bootComplete else s1
  else s)

/-- DRAM_INIT_DONE: the DRAM and its in-band code are initialised (R81, R83, R85). -/
def execDramInitDone (t : Nat) (s : State) : Host.Outcome State Fault Refusal :=
  let s := s.at t
  .next (if s.sys.phase = 3 then
    ((s.setFsm bMEM4 fON).setSys { s.sys with dramReady := true }).bootFurther
  else if s.sys.phase = 5 then
    let s := (s.setFsm bMEM4 fON).setSys { s.sys with dramReady := true }
    if s.rd bRST RST_BOOT_STATUS_SOURCE = 2 then s.setStage 6 6 else s.netWait
  else s)

/-- A slice that starts with the reset reads ON before step 3 ends (R201). -/
def State.slicesOn (s : State) : State :=
  [8, 9, 10, 11].foldl (fun s b => if s.fsm b = fSTARTING ∧ !s.fencing b then s.setFsm b fON else s) s

/-- Choose the boot source (R81, R86, R88).  DESIGN CHOICE (entry 109): R92 lists no stage for step 8, so `STAGE` keeps what it showed when
the initialisation of the DRAM began, 1 before a boot from the host or the network and 4 in a boot from flash. -/
def State.chooseSource (s : State) : State :=
  let sel := s.rd bRST RST_STRAPS_BOOT_SEL
  if sel < 2 then s.bootBank s.sys.bank
  else
    let s := (s.wr bRST RST_BOOT_STATUS_SOURCE sel).setSys { s.sys with fromDram := true }
    if (sel = 2 ∧ !s.opt.pcieBoot) ∨ (sel = 3 ∧ !s.opt.ethBoot) then s.bootStop 0x09
    else s.setStage 1 5

/-- BOOT_READY: regulators, oscillator and PLLs are ready (R81): the option bytes are read, the read of the identity memory
starts, and the source is chosen. -/
def execBootReady (t : Nat) (s : State) : Host.Outcome State Fault Refusal :=
  let s := s.at t
  .next (if s.sys.inReset ∨ s.sys.phase ≠ 0 then s
  else
    let s := s.slicesOn.enableReq bPCIE 1
    match s.readOptions with
    | none => s.bootStop 0x01
    | some (k, o) =>
      let s := s.setOptions k o
      (s.setSys { s.sys with idReading := true }).chooseSource)

/-- Check an image set in DRAM and wait for its Halter image (R83, R85). -/
def State.bootDram (s : State) : State :=
  let c := s.dirCode 0
  if c = 0 then s.setStage 3 1 else s.dramFail c

/-- RST_HOST_BOOT: the host has placed an image set; accepted only while `STAGE` reads 0x6 (R83). -/
def execRstHostBoot (t i v : Nat) (s : State) : Host.Outcome State Fault Refusal :=
  let s := s.at t
  .next (if !s.regAllowed i true bRST 0x120 then s.deny i true (regBase + bRST * 0x100000 + 0x120)
  else if bit v 0 = 1 ∧ s.rd bRST RST_BOOT_STATUS_STAGE = 6 then s.bootDram
  else s)

/-- NET_BOOT_FILE_RECEIVED: DHCP has given an address and the file's name, TFTP fetches it with blocks of 1468 bytes, and the image set has
been received into DRAM (R85). -/
def execNetBootFileReceived (t addr : Nat) (name file : List Nat) (s : State) : Host.Outcome State Fault Refusal :=
  let s := s.at t
  .next (if s.sys.phase = 7 ∧ inDram 0 file.length then
    (((s.setSys { s.sys with netAddr := addr, netFile := name }).send (.tftp addr name 1468)).write 0 file).bootDram
  else s)

/-- NET_BOOT_TIMEOUT: a failure, or 10 s of silence since the last frame, restarts DHCP (R85). -/
def execNetBootTimeout (t : Nat) (failed : Bool) (s : State) : Host.Outcome State Fault Refusal :=
  let s := s.at t
  .next (if s.sys.phase = 7 ∧ (failed ∨ s.sys.netStart + 10000000000 ≤ s.now) then
    s.netStartOver
  else s)

/-! ### The identity memory -/

/-- Whether a copy of the record is valid (R59). -/
def idValid (b : List Nat) : Bool :=
  b.length == 32768 && leAt b 0 4 == 0x44495247 && leAt b 4 2 == 1 && crc32 (b.take 0x7FFC) == leAt b 0x7FFC 4

/-- The copy in use, coded 0 for none, 1 or 2 (R59). -/
def idChoice (b0 b1 : List Nat) : Nat :=
  if idValid b0 && idValid b1 then (if leAt b0 8 4 < leAt b1 8 4 then 2 else 1)
  else if idValid b0 then 1 else if idValid b1 then 2 else 0

/-- Take over the Traif Link position of a record (R57). -/
def State.takePosition (s : State) (b : List Nat) : State :=
  let s := (s.wr bLNK LNK_SYSID_LO (leAt b 0x140 4)).wr bLNK LNK_SYSID_HI (leAt b 0x144 4)
  (s.wr bLNK LNK_SYSCFG_POSITION (leAt b 0x148 1)).wr bLNK LNK_SYSCFG_TOPO (leAt b 0x149 1)

/-- Take over the taught distance of port 0 (R57).  A valve delay that the console has set stays until a reset (R106). -/
def State.takeDist0 (s : State) (b : List Nat) : State :=
  if leAt b 0x164 1 = 1 then
    let f := s.sys.factory
    let v := if f.valveSet then f.valveUs else leAt b 0x158 4
    let s := s.setSys { s.sys with factory := { f with dist := some (sext 32 (leAt b 0x150 4)), valveUs := v } }
    if f.on then s.facSet (EJT_CLS_DELAY 1) v else s
  else s

/-- Take over a camera's calibration record when it is valid (R58): the port's link and camera, and the colour matrix and the black offsets
of its calibration set, in force. -/
def State.takeCalib (s : State) (b : List Nat) (n : Nat) : State :=
  let r := b.drop (0x200 + 512 * n)
  if leAt r 0 1 ≠ 1 then s
  else
    let s := s.setCam n { s.camP n with lanes := leAt r 1 1, rate := leAt r 2 2, ident := (r.drop 4).take 64 }
    let put (s : State) (f : Fld) (v : Nat) : State := (s.wr bCLM f v).wrAct bCLM f v
    let s := (List.range 9).foldl (fun s j => put s (CLM_MAT_COEF n j) (leAt r (0x44 + 4 * j) 4)) s
    (List.range 3).foldl (fun s j => put s (CLM_BLK_BLACK n j) (leAt r (0x68 + 4 * j) 4)) s

/-- Take over what the record ties to the place on the press (R7, R57): the installation identity, the Traif Link position, the taught
distances, the last job reference and the camera calibrations. -/
def State.takeRecord (s : State) (b : List Nat) : State :=
  let s := (s.takePosition b).takeDist0 b
  let s := s.setSys { s.sys with
    install := (b.drop 0x40).take 256
    lastJob := (b.drop 0x180).take 128
    dist1 := if leAt b 0x17C 1 = 1 then some (sext 32 (leAt b 0x168 4), leAt b 0x16C 4, leAt b 0x170 4) else none }
  (List.range 8).foldl (fun s n => s.takeCalib b n) s

/-- ID_MEMORY_READ_DONE: both copies have been read; the copy in use is chosen (R59, R61, R87). -/
def execIdMemoryReadDone (t : Nat) (copy0 copy1 : List Nat) (s : State) : Host.Outcome State Fault Refusal :=
  let s := s.at t
  .next (if !s.sys.idReading then s
  else
    let c := idChoice copy0 copy1
    let u := if c = 1 then some copy0 else if c = 2 then some copy1 else none
    let s := (s.setSys { s.sys with idReading := false, idDone := true, idUse := u }).wr bRST RST_BOOT_STATUS_ID_COPY c
    match u with
    | some b => s.takeRecord b
    | none => s)

/-- ID_READ_RETRY: no acknowledgement; after three retries at intervals of 10 ms the memory is treated as not answering (R61, R87). -/
def execIdReadRetry (t : Nat) (s : State) : Host.Outcome State Fault Refusal :=
  let s := s.at t
  .next (if !s.sys.idReading ∨ !s.due perRetry 10000000 then s
  else
    let s := s.mark perRetry
    if s.sys.idRetries < 3 then s.setSys { s.sys with idRetries := s.sys.idRetries + 1 }
    else s.setSys { s.sys with idReading := false, idDone := true, idUse := none })

/-- Replace bytes at an offset of a record. -/
def patchBytes (b : List Nat) (p : Nat × List Nat) : List Nat := b.take p.1 ++ p.2 ++ b.drop (p.1 + p.2.length)

/-- A record with no content but its magic and version. -/
def idBlank : List Nat := leBytes 4 0x44495247 ++ leBytes 2 1 ++ List.replicate 32762 0

/-- The record to write: the changes applied, the sequence number one higher, a fresh CRC-32 (R57, R60). -/
def idNext (use : Option (List Nat)) (ps : List (Nat × List Nat)) : List Nat :=
  let b := ps.foldl patchBytes (use.getD idBlank)
  let b := patchBytes b (8, leBytes 4 (leAt b 8 4 + 1))
  b.take 0x7FFC ++ leBytes 4 (crc32 (b.take 0x7FFC))

/-- Start writing the copy not in use when changes wait and no write is under way (R60).  DESIGN CHOICE (entry 30): with no copy in use the
fresh record goes to copy 0 with the sequence number 1. -/
def State.idStart (s : State) : State :=
  if s.sys.idWriting.isSome ∨ s.sys.idStage = [] then s
  else
    let k := if s.rd bRST RST_BOOT_STATUS_ID_COPY = 1 then 1 else 0
    let b := idNext s.sys.idUse s.sys.idStage
    (s.setSys { s.sys with idWriting := some (k, b), idStage := [] }).send (.idWrite k b)

/-- An event of R60 asks for changes of the record. -/
def State.idEvent (s : State) (ps : List (Nat × List Nat)) : State :=
  (s.setSys { s.sys with idStage := s.sys.idStage ++ ps }).idStart

/-- ID_RECORD_WRITE_DONE: the copy is written and becomes the copy in use (R60). -/
def execIdRecordWriteDone (t : Nat) (s : State) : Host.Outcome State Fault Refusal :=
  let s := s.at t
  .next (match s.sys.idWriting with
  | none => s
  | some (k, b) =>
    ((s.setSys { s.sys with idWriting := none, idUse := some b }).wr bRST RST_BOOT_STATUS_ID_COPY (k + 1)).idStart)

/-! ### Bank swap -/

/-- Set the swap record's state. -/
def State.setSwap (s : State) (st : Nat) (act : Option Nat) : State :=
  (s.setSys { s.sys with swapState := st, swapActive := act }).showSwap

/-- A request that the present state does not list (R90). -/
def State.swapRefuse (s : State) : State := s.wr bRST RST_SWAP_CTRL_SWAP_REFUSED 1

/-- `CANCEL` (R89, R90). -/
def State.swapCancel (s : State) : State :=
  if s.sys.swapState = 1 then s.setSwap 0 s.sys.swapActive else s.swapRefuse

/-- `TRIAL` (R89, R90). -/
def State.swapTrial (s : State) : State :=
  if s.sys.swapState = 0 ∧ !s.sys.verifying then s.setSys { s.sys with verifying := true, swapFrom := s.activeBank } else s.swapRefuse

/-- `CONFIRM` (R89, R90). -/
def State.swapConfirm (s : State) : State :=
  if s.sys.swapState = 2 then s.setSwap 0 (some s.sys.bank) else s.swapRefuse

/-- A write `v` of `RST_SWAP_CTRL` (R89-R92): `SWAP_REFUSED` clears with or without the key. -/
def State.swapCtrl (s : State) (i v : Nat) : State :=
  if !s.regAllowed i true bRST 0x11C then s.deny i true (regBase + bRST * 0x100000 + 0x11C)
  else
    let s := if bit v 6 = 1 then s.wr bRST RST_SWAP_CTRL_SWAP_REFUSED 0 else s
    if bits v 16 16 ≠ 0xA5C3 then s
    else
      let s := if bit v 0 = 1 then s.swapCancel else s
      let s := if bit v 1 = 1 then s.swapTrial else s
      if bit v 2 = 1 then s.swapConfirm else s

/-- TRIAL: a write `v` of `RST_SWAP_CTRL` with `TRIAL` (R89). -/
def execTrial (t i v : Nat) (s : State) : Host.Outcome State Fault Refusal := .next ((s.at t).swapCtrl i v)

/-- CANCEL: a write `v` of `RST_SWAP_CTRL` with `CANCEL` (R89). -/
def execCancel (t i v : Nat) (s : State) : Host.Outcome State Fault Refusal := .next ((s.at t).swapCtrl i v)

/-- CONFIRM: a write `v` of `RST_SWAP_CTRL` with `CONFIRM` (R89). -/
def execConfirm (t i v : Nat) (s : State) : Host.Outcome State Fault Refusal := .next ((s.at t).swapCtrl i v)

/-- SWAP_REFUSED_CLEAR: a write `v` of `RST_SWAP_CTRL` that clears `SWAP_REFUSED` (R92). -/
def execSwapRefusedClear (t i v : Nat) (s : State) : Host.Outcome State Fault Refusal := .next ((s.at t).swapCtrl i v)

/-- Whether every image of a bank passes (R79, R89). -/
def State.bankPasses (s : State) (k : Nat) : Bool :=
  let base := flashBase + 0x6000000 * k
  s.dirCode base == 0 && ((s.directory base).getD []).all (fun e => s.imageCode base e == 0)

/-- TRIAL_VERIFY_DONE: the background verification of the other bank ends (R89). -/
def execTrialVerifyDone (t : Nat) (s : State) : Host.Outcome State Fault Refusal :=
  let s := s.at t
  .next (if !s.sys.verifying then s
  else
    let k := 1 - s.activeBank
    let s := s.setSys { s.sys with verifying := false }
    if s.bankPasses k then s.setSwap 1 s.sys.swapActive else s.markBad k)

/-- Whether a range of the flash window touches the copies of the option bytes, which change only through an option image (R77). -/
def touchesOptions (off n : Nat) : Bool := decide (off < 0xC002000) && decide (0xC000000 < off + n)

/-- The bank that an offset of the flash window lies in, 2 for the option area. -/
def bankOfOffset (off : Nat) : Nat := if off < 0x6000000 then 0 else if off < 0xC000000 then 1 else 2

/-- FLASH_PROGRAM: a program or erase of flash at `off` with the bytes it leaves (R89, R91, R496). -/
def execFlashProgram (t i off : Nat) (data : List Nat) (s : State) : Host.Outcome State Fault Refusal :=
  let s := s.at t
  let a := flashBase + off
  let n := data.length
  .next (if 0x10000000 < off + n then s.answer 0x0201 []
  else if touchesOptions off n then s.deny i true a
  else if bankOfOffset off = 2 ∨ bankOfOffset (off + n - 1) = 2 then
    (if s.groupNow i = 7 then (s.write a data).answer 0 [] else s.deny i true a)
  else if !(s.mgmtOrHost i || s.groupNow i == 7 || s.tableAllows i true a n) then s.deny i true a
  else if bankOfOffset off = s.activeBank ∨ bankOfOffset (off + n - 1) = s.activeBank then s.answer 0x0101 []
  else
    let s := if s.sys.swapState = 1 then s.setSwap 0 s.sys.swapActive else s
    (s.write a data).answer 0 [])

end Sys2Proof.Machine
end

