-- ==== Sys2Proof/Machine/Camera.lean ====
section
/-!
DEFINITION. The camera ports: discovery, links, triggers, lines and the parallel port (R107-R132).
-/

namespace Sys2Proof.Machine

/-! ### Discovery (R107-R113) -/

/-- The rate numbers of R108. -/
def camRates : List Nat := [1, 2, 3, 5, 6, 10, 12]

/-- The highest rate number not above a limit, 0 for none. -/
def rateUpTo (m : Nat) : Nat := (camRates.filter (· ≤ m)).foldl max 0

/-- Payload of a lane at a rate number in Mbit/s (R108). -/
def payloadMbit (r : Nat) : Nat :=
  if r = 1 then 1000 else if r = 2 then 2000 else if r = 3 then 2500 else if r = 5 then 4000 else if r = 6 then 5000
  else if r = 10 then 8000 else 10000

/-- Whether discovery runs on port `n` (R111). -/
def State.discovers (s : State) (n : Nat) : Bool :=
  decide (n < 8) && s.isOn (bCAM n) && s.rd (bCAM n) CAM_CTRL_AUTO_DISC == 1 && s.rd (bCAM n) CAM_LINK_LINK_UP == 0

/-- Go to a step of R111; step 2 may test at once. -/
def State.discStep (s : State) (n step : Nat) : State :=
  s.setCam n { s.camP n with step := step, since := if step = 2 then none else some s.now }

/-- The port asks for the bootstrap registers of its camera (R109, R111 step 3): 0 vendor, 1 model, 2 serial, 3 connection count, 4 highest
rate, 5 minimum line period, 6 pixel formats. -/
def State.askCamera (s : State) (p : Nat) : State := (List.range 7).foldl (fun s k => s.send (.control p k)) s

/-- CONNECTION_TEST: steps 1 and 2 of R111, once a second: power over coax where R50 allows it and detection succeeds, then the
test whose answering lanes are the bits of `answered`, of the lanes in use. -/
def execConnectionTest (t p : Nat) (detect : Bool) (answered : Nat) (s : State) : Host.Outcome State Fault Refusal :=
  let s := s.at t
  let x := s.camP p
  let due := match x.since with
    | some a => decide (a + 1000000000 ≤ s.now)
    | none => true
  .next (if s.discovers p && decide (x.step ≤ 2) && due then
    let power := x.power || (s.rd (bCAM p) CAM_CTRL_POCXP_EN == 1 && s.sys.vcxp && detect && s.rd bPWR (PWR_PD_STAT_HELD (domOf (bCAM p))) == 0)
    let answered := ((bitList 4 answered).filter (fun k => s.laneUsable (4 * p + k))).foldl (fun m k => m + 2 ^ k) 0
    if answered = 0 then s.setCam p { x with step := 2, since := some s.now, power := power }
    else (s.setCam p { x with step := 3, since := some s.now, power := power, answered := answered }).askCamera p
  else s)

/-- Step 4 of R111: the lane count and the rate, with which step 5 begins: the link is set by a control command (7). -/
def State.chooseLink (s : State) (p conns maxRate minNs fmt : Nat) (ident : List Nat) : State :=
  let x := s.camP p
  let lanes := min (min conns (popCount 4 x.answered)) (s.rd (bCAM p) CAM_LINK_MAX_LANES)
  let rate := rateUpTo (min maxRate (s.rd (bCAM p) CAM_LINK_MAX_RATE))
  if lanes = 0 ∨ rate = 0 then s.discStep p 2
  else (s.setCam p { x with step := 5, since := some s.now, lanes := lanes, rate := rate, ident := ident, minNs := minNs, fmt := fmt }).send
    (.control p 7)

/-- CONTROL_ACKNOWLEDGEMENT: the bootstrap registers (R111 steps 3 and 4): vendor, model and serial as `ident`, the connection
count, the highest rate, the minimum line period and the first pixel format. -/
def execControlAcknowledgement (t p : Nat) (ident : List Nat) (conns maxRate minNs fmt : Nat) (s : State) :
    Host.Outcome State Fault Refusal :=
  let s := s.at t
  .next (if s.discovers p && (s.camP p).step == 3 then s.chooseLink p conns maxRate minNs fmt ident else s)

/-- CONTROL_ACK_TIMEOUT: 200 ms without an acknowledgement restart discovery at step 2 (R111). -/
def execControlAckTimeout (t p : Nat) (s : State) : Host.Outcome State Fault Refusal :=
  let s := s.at t
  let x := s.camP p
  .next (if s.discovers p && x.step == 3 && decide (x.since.getD 0 + 200000000 ≤ s.now) then s.discStep p 2 else s)

/-- What R113 compares: vendor, model and serial, lane count and rate. -/
def CamPort.link (x : CamPort) : List Nat := x.ident ++ [x.lanes, x.rate]

/-- The return of a link during a job (R113). -/
def State.linkReturn (s : State) (p : Nat) : State :=
  let x := s.camP p
  if !s.jobRun || s.act (bCAM p) CAM_TRIG_SRC == 0 then s
  else if x.link = x.jobLink && !x.barred then s.setCam p { x with resume := some (s.pos (s.camStp p)) }
  else ((s.setCam p { x with barred := true }).wr (bCAM p) CAM_LINK_MISMATCH 1).raise 0x0102 (bCAM p) p

/-- The lowest `n` positions among the bits of a mask, as a mask. -/
def lowestBits (n mask : Nat) : Nat := ((bitList 4 mask).take n).foldl (fun m k => m + 2 ^ k) 0

/-- LINK_TEST_DONE: the test of step 5 ends (R111): the link is up, or the rate falls by one step. -/
def execLinkTestDone (t p : Nat) (ok : Bool) (s : State) : Host.Outcome State Fault Refusal :=
  let s := s.at t
  let x := s.camP p
  let b := bCAM p
  .next (if s.discovers p && x.step == 5 then
    if ok then
      let s := (((s.wr b CAM_LINK_DISC_DONE 1).wr b CAM_LINK_LINK_UP 1).wr b CAM_LINK_LANES x.lanes).wr b CAM_LINK_RATE x.rate
      let s := s.wr b CAM_LINK_LANE_UP (lowestBits x.lanes x.answered)
      let s := (bitList 4 (lowestBits x.lanes x.answered)).foldl (fun s k => s.train (4 * p + k) x.rate) s
      let s := (s.setCam p { x with step := 6, since := some s.now, hbAt := s.now }).linkReturn p
      if p = 0 && s.sys.factory.on then
        s.setSys { s.sys with factory := { s.sys.factory with maxRate := if x.minNs = 0 then 0 else 1000000000 / x.minNs } }
      else s
    else
      let r := rateUpTo (x.rate - 1)
      if r = 0 then s.discStep p 2 else (s.setCam p { x with rate := r, since := some s.now }).send (.control p 7)
  else s)

/-- The link goes away (R112): no triggers, and every line in flight is late. `event` is false when the port itself stops. -/
def State.dropLink (s : State) (p : Nat) (event : Bool) : State :=
  let b := bCAM p
  let s := (((s.wr b CAM_LINK_LINK_UP 0).wr b CAM_LINK_LANES 0).wr b CAM_LINK_RATE 0).wr b CAM_LINK_LANE_UP 0
  let s := (List.range 4).foldl (fun s k => s.untrain (4 * p + k)) s
  let s := s.setCam p { s.camP p with step := 2, since := none, resume := none }
  let s := if event then (s.inc b CAM_CNT_LINKLOSS).raise 0x0101 b p else s
  s.mapLines p (fun l => { l with late := true })

/-- CAM_LINK_LOSS: a chosen lane has lost signal or lock for 10 µs (R112). -/
def execCamLinkLoss (t p : Nat) (s : State) : Host.Outcome State Fault Refusal :=
  let s := s.at t
  .next (if p < 8 ∧ s.rd (bCAM p) CAM_LINK_LINK_UP = 1 then s.dropLink p true else s)

/-- CAM_HEARTBEAT_TIMEOUT: no heartbeat for 100 ms (R112). -/
def execCamHeartbeatTimeout (t p : Nat) (s : State) : Host.Outcome State Fault Refusal :=
  let s := s.at t
  .next (if p < 8 ∧ s.rd (bCAM p) CAM_LINK_LINK_UP = 1 ∧ (s.camP p).hbAt + 100000000 ≤ s.now then s.dropLink p true else s)

/-- CAM_HEARTBEAT: a heartbeat packet arrives (R109, R112). -/
def execCamHeartbeat (t p : Nat) (s : State) : Host.Outcome State Fault Refusal :=
  let s := s.at t
  .next (if p < 8 ∧ s.rd (bCAM p) CAM_LINK_LINK_UP = 1 then s.setCam p { s.camP p with hbAt := s.now } else s)

/-- CAMERA_DISCOVERY_RETRY: the factory program tests again, one second after the last test (R95). -/
def execCameraDiscoveryRetry (t : Nat) (s : State) : Host.Outcome State Fault Refusal :=
  let s := s.at t
  let x := s.camP 0
  .next (if s.sys.factory.on && s.discovers 0 && decide (x.step ≤ 2) && decide (x.since.getD 0 + 1000000000 ≤ s.now) then
    s.discStep 0 2 else s)

/-- POCXP_OVERCURRENT: a feed has carried more than 0.6 A for 1 ms and loses its power (R44). -/
def execPocxpOvercurrent (t p : Nat) (s : State) : Host.Outcome State Fault Refusal :=
  let s := s.at t
  .next (s.setCam p { s.camP p with power := false })

/-- VCXP_CHANGE: `VCXP` returns to its range, or leaves it, and then no camera has power (R50). -/
def execVcxpChange (t : Nat) (ok : Bool) (s : State) : Host.Outcome State Fault Refusal :=
  let s := s.at t
  let s := s.setSys { s.sys with vcxp := ok }
  .next (if ok then s else (List.range 8).foldl (fun s n => s.setCam n { s.camP n with power := false }) s)

/-! ### Triggers (R114-R120) -/

/-- The factory's line divider N (R97): the smallest with count rate ÷ N at most the camera's maximum line rate. -/
def State.factoryDiv (s : State) : Nat :=
  let r := (s.speed 0).natAbs
  if s.sys.factory.maxRate = 0 then 1 else max 1 (ceilDiv r s.sys.factory.maxRate)

/-- The trigger source of port `n` in effect. -/
def State.trigSrc (s : State) (n : Nat) : Nat := if s.factoryCam n then 1 else s.act (bCAM n) CAM_TRIG_SRC

/-- The trigger step of port `n` in effect. -/
def State.trigStep (s : State) (n : Nat) : Nat :=
  if s.factoryCam n then 256 * s.factoryDiv else s.act (bCAM n) CAM_TRIGSTEP_STEP

/-- The trigger phase of port `n` in effect. -/
def State.trigPhase (s : State) (n : Nat) : Nat := if s.factoryCam n then 0 else s.act (bCAM n) CAM_TRIGPH_PHASE

/-- Whether the trigger grid of port `n` in effect lies within its limits (R132). -/
def State.gridOk (s : State) (n : Nat) : Bool := decide (16 ≤ s.trigStep n) && decide (s.trigPhase n < s.trigStep n)

/-- Whether port `n` takes part in a trigger: it is not OFF and its stream is on. -/
def State.streams (s : State) (n : Nat) : Bool := s.factoryCam n || s.rd (bCAM n) CAM_CTRL_STREAM == 1

/-- The shortest trigger period of port `n` in ns (R116, R132). -/
def State.minPeriod (s : State) (n : Nat) : Nat := max (s.act (bCAM n) CAM_TIMING_MIN_PERIOD) (s.camP n).minNs

/-- Whether port `n` may send a trigger: ON with no fence, with its link up and not barred by R113. -/
def State.maySend (s : State) (n : Nat) : Bool :=
  s.runs (bCAM n) && (n == 8 || s.rd (bCAM n) CAM_LINK_LINK_UP == 1) && !(s.camP n).barred && (s.camP n).resume.isNone

/-- A returned link sends triggers again from the first part that starts at or after its return (R113). -/
def State.resumeAt (s : State) (n : Nat) (pos : Int) : State :=
  let x := s.camP n
  match x.resume with
  | some r =>
    match s.partOf (s.camStp n) pos with
    | some (_, start) => if r ≤ start then s.setCam n { x with resume := none, fresh := true, from_ := start } else s
    | none => s
  | none => s

/-- The trigger packet or pulse (R117, R123), with the strobes that follow it (R450); the place of the uplink's character
boundaries is open. -/
def State.sendTrigger (s : State) (n : Nat) (k : Int) : State :=
  let x := s.camP n
  let s := s.setCam n { x with lastSent := some s.now }
  let s := if n = 8 then s.setCam 8 { s.camP 8 with cc0 := some (s.now + 10 * s.act bPCAM PCAM_IFCFG_CC_PULSE) }
    else
      let f := s.takeFree
      f.2.send (.trigger n k s.now (Config.freeNat f.1 % 480))
  s.camStrobes n

/-- A trigger with index `k` whose line lies at `pos` (R112, R113, R116, R118). -/
def State.camTrigger (s : State) (n : Nat) (k pos : Int) : State :=
  if !s.streams n || s.fsm (bCAM n) == fOFF then s
  else if s.lnk.ending && !s.factoryCam n && (s.partOf (s.camStp n) pos).isNone then s.wr (bCAM n) CAM_CTRL_STREAM 0
  else
    let s := s.resumeAt n pos
    let early := match (s.camP n).lastSent with
      | some a => decide (s.now < a + s.minPeriod n)
      | none => false
    if !s.maySend n then s.addLines n k pos true
    else if early then (s.inc (bCAM n) CAM_CNT_TRIGDROP).addLines n k pos true
    else (s.sendTrigger n k).addLines n k pos false

/-- The next trigger of a position grid above a high-water position, as index and position (R114, R115). -/
def nextTrigger (step phase : Nat) (hw : Int) : Int × Int :=
  let k := (hw - phase) / (step : Int) + 1
  (k, phase + k * step)

/-- POSITION_TRIGGER: the position passes the next trigger position while it does not move backward (R115). -/
def execPositionTrigger (t p : Nat) (s : State) : Host.Outcome State Fault Refusal :=
  let s := s.at t
  let src := s.trigSrc p
  .next (if p < 9 ∧ (src = 1 ∨ src = 2) ∧ s.gridOk p then
    match (s.camP p).hw with
    | some hw =>
      let g := nextTrigger (s.trigStep p) (s.trigPhase p) hw
      if g.2 ≤ s.pos (src - 1) ∧ 0 ≤ s.speed (src - 1) ∧ !s.epochBars (src - 1) g.2 then
        (s.setCam p { s.camP p with hw := some g.2 }).camTrigger p g.1 g.2
      else s
    | none => s
  else s)

/-- TIME_TRIGGER: the time base passes the next instant of the port's grid; one stepped over makes a late line (R114, R464). -/
def execTimeTrigger (t p : Nat) (s : State) : Host.Outcome State Fault Refusal :=
  let s := s.at t
  .next (if p < 9 ∧ s.trigSrc p = 3 ∧ s.gridOk p then
    let step := s.trigStep p * 16777216
    let phase := s.trigPhase p * 16777216
    let x := nextInstant step phase (s.camP p).timeHw
    if x ≤ s.tb.time then
      let k : Int := (x % tbSecUnit - phase) / step
      let pos := s.pos (s.camStp p)
      let s1 := s.setCam p { s.camP p with timeHw := x }
      if s.steppedOver x then
        (if s1.streams p && s1.fsm (bCAM p) != fOFF then s1.addLines p k pos true else s1)
      else s1.camTrigger p k pos
    else s
  else s)

/-- DI_TRIGGER: the port takes a filtered rising edge of the selected input that it has not taken before (R114). -/
def execDiTrigger (t p : Nat) (s : State) : Host.Outcome State Fault Refusal :=
  let s := s.at t
  .next (if p < 9 ∧ s.trigSrc p = 4 ∧ (s.camP p).diSeen < Store.get 0 s.field.diRise (s.act (bCAM p) CAM_TRIG_DI_SEL) then
    (s.setCam p { s.camP p with diSeen := s.now + 1 }).camTrigger p (s.camP p).next (s.pos (s.camStp p))
  else s)

/-- The trigger source of port `n` is set: the high-water marks restart, and an input edge already past is not taken (R114, R115, R464). -/
def State.camRetrig (s : State) (n : Nat) (hw : Int) : State :=
  s.setCam n { s.camP n with hw := some hw, timeHw := s.tb.time, diSeen := s.now + 1 }

/-- Port `n` enters ON: discovery may start, and its triggers start at the present position. -/
def State.camOn (s : State) (n : Nat) : State :=
  (s.setCam n { s.camP n with step := 0, since := none, stopAt := none, lastSent := none, fresh := true, from_ := s.pos (s.camStp n) }).camRetrig n
    (s.pos (if s.trigSrc n = 2 then 1 else 0))

/-- Port `n` reaches OFF: its link, its power and its lines end. -/
def State.camOff (s : State) (n : Nat) : State :=
  let s := if n < 8 then s.dropLink n false else s.mapLines n (fun l => { l with late := true })
  let s := s.setCam n { s.camP n with power := false, stopAt := none, step := 0, part := none, acc := [], accLines := 0, win := none }
  if n < 8 then s.wr (bCAM n) CAM_LINK_DISC_DONE 0 else s

/-! ### Lines (R109, R119, R123, R124, R128) -/

/-- Whether a port takes line data: it is ON, or waits for lines already triggered (R128). -/
def State.takesData (s : State) (n : Nat) : Bool :=
  s.isOn (bCAM n) || s.fsm (bCAM n) == fSTOPPING || (s.fsm (bCAM n) == fPENDING && (s.camP n).stopAt.isSome)

/-- The intake of a line's first pixel (R144): space in the Tannery's buffer of 8 lines, or none. -/
def State.intake (s : State) (n : Nat) (l : CamLine) : CamLine :=
  if l.first then l
  else
    let x := s.camP n
    let held := ((x.lines ++ x.judged).filter (fun y => y.first && !y.full)).length
    { l with first := true, full := decide (8 ≤ held) }

/-- The lines whose first pixel has not arrived `LATE_US` after their trigger become late; a pixel that arrives at that instant is in time
(R124). -/
def State.lateLines (s : State) (n ago : Nat) : State :=
  let lim := s.act (bCAM n) CAM_DMG_LATE_US * 1000
  s.mapLines n (fun l => { l with late := l.late || (!l.first && decide (l.trigAt + lim + ago < s.now)) })

/-- Change the oldest line of a port. -/
def State.onHead (s : State) (n : Nat) (f : CamLine → CamLine) : State :=
  let x := s.camP n
  match x.lines with
  | l :: r => s.setCam n { x with lines := f l :: r }
  | [] => s

/-- A raw sample of `b` bits left-aligned to 16 bits (R142). -/
def leftAlign (b v : Nat) : Nat := v % 2 ^ b * 2 ^ (16 - b)

/-- STREAM_DATA_PACKET: a packet on lane `lane` of port `p` with line number `idx`, its CRC verdict and its samples (R109, R124).
Data of a line already late is discarded; another line number than the port's own makes the line corrupt. -/
def execStreamDataPacket (t p lane idx : Nat) (crcOk : Bool) (data : List Nat) (s : State) : Host.Outcome State Fault Refusal :=
  let s := s.at t
  .next (if p < 8 ∧ s.takesData p ∧ s.rd (bCAM p) CAM_LINK_LINK_UP = 1 then
    let q := s.takeInj [4 * p + lane % 4]
    let s := q.2
    let crcOk := crcOk && !q.1
    let s := (if crcOk then s else s.inc (bCAM p) (CAM_CNT_CRC (lane % 4))).lateLines p 0
    match (s.camP p).lines with
    | l :: _ =>
      if crcOk ∧ idx < l.idx then s
      else
        let b := (s.camFormat p).1
        s.onHead p (fun l => { s.intake p l with
          bad := l.bad || !crcOk || idx != l.idx
          pix := l.pix ++ data.map (leftAlign b) })
    | [] => s
  else s)

/-- OTHER_PACKET: a packet of an unaccepted type is discarded and makes the line corrupt (R109, R124). -/
def execOtherPacket (t p : Nat) (s : State) : Host.Outcome State Fault Refusal :=
  let s := s.at t
  .next (if p < 8 ∧ s.takesData p ∧ s.rd (bCAM p) CAM_LINK_LINK_UP = 1 then s.onHead p (fun l => { l with bad := true }) else s)

/-- EVENT_PACKET: the camera's payload goes to the event queue unchanged, cut to 16 bytes with flag bit 1 (R109, R587). -/
def execEventPacket (t p : Nat) (payload : List Nat) (s : State) : Host.Outcome State Fault Refusal :=
  let s := s.at t
  .next (if p < 8 ∧ s.isOn (bCAM p) ∧ s.rd (bCAM p) CAM_LINK_LINK_UP = 1 then
    s.raiseRaw 0x0103 (bCAM p) 0 (if 16 < payload.length then 2 else 0) (payload.map (· % 256))
  else s)

/-- LINE_LATE: lines whose first pixel has not arrived `LATE_US` after their trigger are late (R124). -/
def execLineLate (t p : Nat) (s : State) : Host.Outcome State Fault Refusal :=
  let s := s.at t
  let lim := s.act (bCAM p) CAM_DMG_LATE_US * 1000
  .next (if p < 9 then s.mapLines p (fun l => { l with late := l.late || (!l.first && decide (l.trigAt + lim ≤ s.now)) }) else s)

/-- The oldest line's data has ended: it and late lines behind it are judged. -/
def State.endLine (s : State) (n : Nat) : State :=
  let s := s.lineDone n
  State.settleLines (s.camP n).lines.length s n

/-- LINE_END: the data of the oldest line has ended (R124). -/
def execLineEnd (t p : Nat) (s : State) : Host.Outcome State Fault Refusal :=
  let s := s.at t
  .next (if p < 8 ∧ s.takesData p then
    match (s.camP p).lines with
    | l :: _ => if l.first || l.bad then s.endLine p else s
    | [] => s
  else s)

/-- STOP_WAIT_END: the wait of R128 ends: lines still missing are late and the port enters OFF. -/
def execStopWaitEnd (t p : Nat) (s : State) : Host.Outcome State Fault Refusal :=
  let s := s.at t
  .next (match (s.camP p).stopAt with
  | some a =>
    if p < 9 ∧ !s.fencing (bCAM p) ∧ (s.fsm (bCAM p) = fSTOPPING ∨ s.fsm (bCAM p) = fPENDING) ∧ a + s.act (bCAM p) CAM_DMG_LATE_US * 1000 ≤ s.now then
      let pend := s.fsm (bCAM p) == fPENDING
      let s := s.camOff p
      if pend then s.passOff (bCAM p) else s.toOff (bCAM p)
    else s
  | none => s)

/-! ### The parallel port (R121-R123) -/

/-- The samples of one sampling edge (R121), from `D23:0`, left-aligned to 16 bits. -/
def pcamSamples (fmt d : Nat) : List Nat :=
  if fmt = 0 ∨ fmt = 1 then [bits d 0 8, bits d 8 8, bits d 16 8].map (leftAlign 8)
  else if fmt = 2 then [bits d 0 12, bits d 12 12].map (leftAlign 12)
  else [bits d 0 16]

/-- PCAM_LINE_END: the line seen on the sampling edges with `LVAL` high, each as `D23:0` with `DVAL` in bit 24 and `FVAL` in bit
25, ends where `LVAL` is low (R123).  `idx` is the port's own number of the trigger it answers and `ago` how long ago its first pixel came:
one that came too late, or whose line has been judged late, is discarded (R124). -/
def execPcamLineEnd (t idx ago : Nat) (edges : List Nat) (s : State) : Host.Outcome State Fault Refusal :=
  let s := s.at t
  let s := if s.takesData 8 then s.lateLines 8 ago else s
  let dv := s.act bPCAM PCAM_IFCFG_USE_DVAL
  let fv := s.act bPCAM PCAM_IFCFG_USE_FVAL
  let taken := edges.filter (fun e => (dv != 1 || bit e 24 == 1) && (fv != 1 || bit e 25 == 1))
  let own : Bool := match (s.camP 8).lines with
    | l :: _ => decide (l.idx ≤ idx)
    | [] => false
  .next (if s.takesData 8 ∧ own ∧ !taken.isEmpty then
    let data := taken.flatMap (fun e => pcamSamples (s.act bPCAM PCAM_IFCFG_FORMAT_P) (bits e 0 24))
    (s.onHead 8 (fun l => { s.intake 8 l with pix := l.pix ++ data })).endLine 8
  else s)

/-- CC0_PULSE_END: `PCAM_CC0` has been high for its time (R123). -/
def execCc0PulseEnd (t : Nat) (s : State) : Host.Outcome State Fault Refusal :=
  let s := s.at t
  .next (match (s.camP 8).cc0 with
  | some e => if e ≤ s.now then s.setCam 8 { s.camP 8 with cc0 := none } else s
  | none => s)

/-- Bring `TX_FULL` and `RX_VALID` up to date (R132). -/
def State.serFlags (s : State) : State :=
  let x := s.camP 8
  (s.wr bPCAM PCAM_SERDATA_TX_FULL (if 16 ≤ x.tx.length then 1 else 0)).wr bPCAM PCAM_SERDATA_RX_VALID
    (if x.rx.isEmpty then 0 else 1)

/-- The address of `PCAM_SERDATA`. -/
def serAddr : Nat := regBase + bPCAM * 0x100000 + 0x124

/-- PCAM_SERDATA_WRITE: a byte for the serial channel, discarded while the buffer is full (R132). -/
def execPcamSerdataWrite (t i v : Nat) (s : State) : Host.Outcome State Fault Refusal :=
  let s := s.at t
  let x := s.camP 8
  .next (if !s.regAllowed i true bPCAM 0x124 then s.deny i true serAddr
  else if !s.domOn bPCAM ∨ 16 ≤ x.tx.length then s
  else (s.setCam 8 { x with tx := x.tx ++ [bits v 0 8] }).serFlags)

/-- PCAM_SERDATA_READ: the flags and the oldest received byte, which leaves the buffer (R132). -/
def execPcamSerdataRead (t i : Nat) (s : State) : Host.Outcome State Fault Refusal :=
  let s := s.at t
  let x := s.camP 8
  .next (if !s.regAllowed i false bPCAM 0x124 then s.deny i false serAddr
  else if !s.domOn bPCAM then s.answer 0 [0]
  else
    ((s.setCam 8 { x with rx := x.rx.tail }).serFlags).answer 0
      [(if 16 ≤ x.tx.length then 512 else 0) + (if x.rx.isEmpty then 0 else 256) + nth 0 x.rx 0])

/-- SERIAL_BYTE_RECEIVED: a byte arrives on `PCAM_RXD`; a full buffer takes no more (R132). -/
def execSerialByteReceived (t b : Nat) (s : State) : Host.Outcome State Fault Refusal :=
  let s := s.at t
  let x := s.camP 8
  .next (if s.domOn bPCAM ∧ x.rx.length < 16 then (s.setCam 8 { x with rx := x.rx ++ [b % 256] }).serFlags else s)

/-- SERIAL_BYTE_SENT: the oldest byte of the transmit buffer has left on `PCAM_TXD` (R132). -/
def execSerialByteSent (t : Nat) (s : State) : Host.Outcome State Fault Refusal :=
  let s := s.at t
  let x := s.camP 8
  .next (match x.tx with
  | b :: r => ((s.setCam 8 { x with tx := r }).send (.serial b)).serFlags
  | [] => s)

/-! ### Jobs (R110, R113, R120) -/

/-- Whether port `n` is used by a configuration with trigger source `src`. -/
def State.camUsed (s : State) (n : Nat) : Bool := s.rd (bCAM n) CAM_TRIG_SRC != 0

/-- Whether the configuration of port `n` in its shadow fields is valid (R110): the pixel rate, the payload of the present link, and
the limits of the fields that go together. -/
def State.camValid (s : State) (n : Nat) : Bool :=
  let b := bCAM n
  let w := s.rd b CAM_LINECFG_WIDTH
  let per := max (s.rd b CAM_TIMING_MIN_PERIOD) (s.camP n).minNs
  let f := s.rd b CAM_LINECFG_FORMAT
  let bpp := if n = 8 then 0 else if f = 0 then 8 else if f = 1 then 10 else if f = 2 then 12 else if f = 3 then 16
    else if f = 4 then 24 else if f = 5 then 30 else 36
  decide (w * 10 ≤ 16 * per) &&
  (n == 8 || (s.rd b CAM_LINK_LINK_UP == 1 &&
    decide (w * bpp * 1000 * 100 ≤ 96 * s.rd b CAM_LINK_LANES * payloadMbit (s.rd b CAM_LINK_RATE) * per)))

/-- A job epoch reaches port `n` (R113, R120, R132): the stream is set when a job starts and the port is used, the link becomes the
one that R113 compares with, and the high-water position restarts so that a trigger at the epoch position fires. -/
def State.camEpoch (s : State) (start : Bool) (n : Nat) (here : Int) : State :=
  let x := s.camP n
  let s := if start then
      let new := s.rd (bCAM n) CAM_CTRL_STREAM == 0
      (s.setCam n { x with jobLink := x.link, barred := false, resume := none, fresh := x.fresh || new, from_ := if new then here else x.from_ }).wr
        (bCAM n) CAM_CTRL_STREAM
        (if s.act (bCAM n) CAM_TRIG_SRC ≠ 0 then 1 else s.rd (bCAM n) CAM_CTRL_STREAM)
    else s
  s.camRetrig n (here - 1)

end Sys2Proof.Machine
end

