-- ==== Sys2Proof/Machine/Tannery.lean ====
section
/-!
DEFINITION. The Tannery: intake, correction, alignment, regions, the prepared-batch ring and the arena (R142-R158, R170).
-/

namespace Sys2Proof.Machine

/-- Replace the Tannery's inside. -/
def State.setTan (s : State) (x : Tan) : State := { s with tan := x }

/-- The Tannery's side of port `n`. -/
def State.tanP (s : State) (n : Nat) : TanPort := Store.get {} s.tan.ports n

/-- Replace the Tannery's side of port `n`. -/
def State.setTanP (s : State) (n : Nat) (x : TanPort) : State := s.setTan { s.tan with ports := Store.put {} s.tan.ports n x }

/-! ### Configuration (R153, R154) -/

/-- The region descriptors in DRAM (R153). -/
def State.readRegions (s : State) : List (List Nat) :=
  let a := s.act bTAN TAN_REGTAB_LO + 4294967296 * s.act bTAN TAN_REGTAB_HI
  (List.range (s.act bTAN TAN_REGCNT)).map (fun k => s.bytes (a + 128 * k) 128)

/-- The configuration of the ports in effect. -/
def State.portCfgs (s : State) : List (List Nat) :=
  (List.range 9).map (fun n =>
    [s.act bTAN (TAN_PORT_CFG_ALIGN n), s.act bTAN (TAN_PORT_CFG_DLY_R n), s.act bTAN (TAN_PORT_CFG_DLY_G n),
     s.act bTAN (TAN_PORT_CFG_DLY_B n), s.act bTAN (TAN_PORT_CFG_BAYER_PH n), s.act bTAN (TAN_PORT_CFG_FF_EN n),
     s.act bTAN (TAN_FFADDR_LO n) + 4294967296 * s.act bTAN (TAN_FFADDR_HI n)])

/-- What was in effect at a part start of Stirrup port `p` (R20, R139, R154): `now`, or what an epoch after that start replaced; the epochs'
positions stand with what they replaced, newest first. -/
def inEffect (now : α) (prev : List (List Int × α)) (p : Nat) (start : Int) : α :=
  prev.foldl (fun c e => if start < nth 0 e.1 p then e.2 else c) now

/-- Whether a part with an open slot started before an epoch's positions. -/
def State.partsBefore (s : State) (at_ : List Int) : Bool :=
  [0, 1].any (fun p => (s.openSlots p).any (fun e => !e.2.explicit && decide (e.2.start < nth 0 at_ p)))

/-- The configuration for a part of Stirrup port `p` that starts at `start` (R154): the one active there. -/
def State.tanCfgFor (s : State) (p : Nat) (start : Int) : TanCfg := inEffect s.tan.cfg s.tan.prev p start

/-- Field `k` of a port's configuration. -/
def TanCfg.port (c : TanCfg) (n k : Nat) : Nat := nth 0 (nth [] c.ports n) k

/-- H of R149: lines of alignment history that a port needs. -/
def TanCfg.history (c : TanCfg) (n : Nat) : Nat :=
  if c.port n 0 = 1 then max (c.port n 1) (max (c.port n 2) (c.port n 3)) else if c.port n 0 = 2 then 1 else 0

/-! ### Stages 1 and 2 (R147, R148) -/

/-- Dark and flat-field correction of one sample with its table word (R147). -/
def flatSample (v w : Nat) : Nat := min 65535 (divRne ((v - w % 65536) * (w / 65536)) 16384)

/-- Dark and flat-field correction of a line with its table's bytes. -/
def flatLine (pix table : List Nat) : List Nat :=
  (pix.zip (chunks 4 pix.length table)).map (fun q => flatSample q.1 (leNat q.2))

/-- The colour of a pattern place: 0 R, 1 G, 2 B (R148). -/
def bayerColour (phase : Nat) (x : Nat) (k : Int) : Nat :=
  let xe := (x + phase % 2) % 2
  let ke := ((k + (phase / 2 % 2 : Nat)) % 2).toNat
  if xe = 0 ∧ ke = 0 then 0 else if xe = 1 ∧ ke = 1 then 2 else 1

/-- The pixel at x of a Bayer line with the lines above and below (R148). -/
def bayerPixel (phase : Nat) (up mid dn : TanLine) (w x : Nat) : List Nat :=
  (List.range 3).map (fun c =>
    if bayerColour phase x mid.k = c then nth 0 mid.pix x
    else
      let cand := ([(up, -1), (mid, 0), (dn, 1)] : List (TanLine × Int)).flatMap (fun q =>
        (List.range 3).filterMap (fun d =>
          let y := x + d
          if y = 0 ∨ w < y ∨ (q.2 = 0 ∧ d = 1) then none
          else if bayerColour phase (y - 1) (mid.k + q.2) = c then some (nth 0 q.1.pix (y - 1)) else none))
      if cand.isEmpty then 0 else divRne (cand.foldl (· + ·) 0) cand.length)

/-- A line made of several sources carries the status and the received pixels of the worst, and a short one is padded as a unit (R148): from
the fewest pixels received on, every channel takes `pad`.  DESIGN CHOICE (entry 114): that value is `PAD_VALUE` itself, past stage 1. -/
def TanLine.unit (l : TanLine) (srcs : List TanLine) (chans pad : Nat) : TanLine :=
  let st := standingStatus (srcs.foldl (fun m x => max m (standing x.status)) 0)
  let got := srcs.foldl (fun m x => min m x.got) l.got
  { l with
    status := st, got := got
    pix := if st = 0x0503 then l.pix.take (got * chans) ++ List.replicate (l.pix.length - got * chans) pad else l.pix }

/-- The output line that the newest corrected line completes (R148), with the highest-standing status of its sources. -/
def alignLine (c : TanCfg) (n chans pad : Nat) (hist : List TanLine) : Option TanLine :=
  match hist with
  | [] => none
  | l :: _ =>
    if c.port n 0 = 1 ∧ chans = 3 then
      let src (j : Nat) : TanLine := hist.getD (c.port n (j + 1)) (hist.getLast?.getD l)
      let w := l.pix.length / 3
      let mix := (List.range w).flatMap (fun x => (List.range 3).map (fun j => nth 0 (src j).pix (3 * x + j)))
      some (TanLine.unit { l with got := (src 0).got, pix := mix } ((List.range 3).map src) 3 pad)
    else if c.port n 0 = 2 ∧ chans = 1 then
      match hist with
      | dn :: mid :: r =>
        let up := r.headD mid
        let mix := (List.range mid.pix.length).flatMap (bayerPixel (c.port n 4) up mid dn mid.pix.length)
        some (TanLine.unit { mid with pix := mix } [up, mid, dn] 3 pad)
      | _ => none
    else some l

/-- Channels after alignment. -/
def alignChans (c : TanCfg) (n chans : Nat) : Nat := if c.port n 0 = 2 then 3 else chans

/-! ### Parts -/

/-- Change the context of a part on port `n`. -/
def State.onPart (s : State) (n part : Nat) (f : TanPart → TanPart) : State :=
  let x := s.tanP n
  s.setTanP n { x with parts := x.parts.map (fun q => if q.part == part then f q else q) }

/-- The context of a part on port `n`. -/
def State.tanPart (s : State) (n part : Nat) : Option TanPart := (s.tanP n).parts.find? (fun q => q.part == part)

/-- The preparation result from the statuses that occurred (R146). -/
def prepStatus (seen : List Nat) : Nat :=
  ([0x0102, 0x0302, 0x0304, 0x0301, 0x0303].find? (fun c => seen.contains c)).getD 0

/-- A field of a region descriptor (R153). -/
def rg (b : List Nat) (o n : Nat) : Nat := leAt b o n

/-- The source of output row `r` in 16-bit fixed point (R151): `a0` the origin, `len` the source and `out` the output length. -/
def srcFixed (a0 len out r : Nat) : Int :=
  divRneI ((a0 * 65536 - 32768 : Int) * (2 * out) + (2 * r + 1) * len * 65536) (2 * out)

/-- Clamp a source index to a region's edge. -/
def clampSrc (a0 len : Nat) (i : Int) : Nat := (max (a0 : Int) (min i (a0 + len - 1 : Int))).toNat

/-- The last source line that output row `r` of a region needs. -/
def lastSrc (b : List Nat) (r : Nat) : Nat :=
  let y0 := rg b 0x0A 2
  let h := rg b 0x0E 2
  let oh := rg b 0x12 2
  let v := srcFixed y0 h oh r
  if rg b 5 1 = 2 then y0 + (r + 1) * (h / oh) - 1
  else if rg b 5 1 = 1 then clampSrc y0 h (v / 65536 + 1)
  else clampSrc y0 h ((v + 32768) / 65536)

/-- The first source line that output row `r` of a region needs. -/
def firstSrc (b : List Nat) (r : Nat) : Nat :=
  let y0 := rg b 0x0A 2
  let h := rg b 0x0E 2
  let oh := rg b 0x12 2
  let v := srcFixed y0 h oh r
  if rg b 5 1 = 2 then y0 + r * (h / oh)
  else if rg b 5 1 = 1 then clampSrc y0 h (v / 65536)
  else clampSrc y0 h ((v + 32768) / 65536)

/-- The output rows of a region that its part's lines allow. -/
def TanPart.avail (q : TanPart) (b : List Nat) : Nat :=
  ((List.range (rg b 0x12 2)).filter (fun r => decide (lastSrc b r < q.rows.length))).length

/-- The regions of a configuration whose source is port `n`, with their index. -/
def TanCfg.regionsOf (c : TanCfg) (n : Nat) : List (Nat × List Nat) :=
  ((List.range c.regions.length).zip c.regions).filter (fun e => rg e.2 4 1 == n)

/-- Whether nothing of a part is left to write: its lines have ended and every region is committed as far as they allow. -/
def TanPart.finished (q : TanPart) (n : Nat) : Bool :=
  q.ended && (q.off || (q.cfg.regionsOf n).all (fun e => decide (q.avail e.2 ≤ Store.get 0 q.done e.1)))

/-- Report the preparation result of a part on port `n` once it is finished (R146). -/
def State.prepCheck (s : State) (n part : Nat) : State :=
  match s.tanPart n part with
  | some q =>
    if q.finished n && !q.skip && !q.reported then
      let s := (s.onPart n part (fun q => { q with reported := true })).inc bTAN TAN_CNT_PARTS
      let st := prepStatus q.seen
      s.checkReport q.stp part (9 + n) (if soundStatus st then 0 else 3) st
    else s
  | none => s

/-- A port's stream starts again (R149): no alignment history, and the parts under way have no result. -/
def State.tanRestart (s : State) (n : Nat) : State :=
  let x := s.tanP n
  s.setTanP n { x with hist := [], count := 0, last := none, from_ := (s.camP n).from_, parts := x.parts.map (fun q => if q.reported then q else { q with skip := true }) }

/-- The last line of a part has passed: every context of another part ends. -/
def State.endOthers (s : State) (n : Nat) (keep : Option Nat) : State :=
  let old := (s.tanP n).parts.filter (fun q => !q.ended && some q.part != keep)
  old.foldl (fun s q => (s.onPart n q.part (fun q => { q with ended := true })).prepCheck n q.part) s

/-- Open the context of a part that a line of port `n` reaches first (R149, R154).  Contexts of parts whose slot is no longer open
are dropped. -/
def State.tanOpen (s : State) (n part p : Nat) (start : Int) (l : CamLine) : State :=
  let x := s.tanP n
  if x.parts.any (fun q => q.part == part) then s
  else
    let c := s.tanCfgFor p start
    let src := s.act (bCAM n) CAM_TRIG_SRC
    let atStart := decide (x.from_ ≤ start) || (src == 1 || src == 2) && decide (l.pos - start < (s.act (bCAM n) CAM_TRIGSTEP_STEP : Int))
    let whole := match x.last with
      | some q => q != some part
      | none => atStart
    let keep := x.parts.filter (fun q => (s.slotOfPart q.stp q.part).isSome)
    let new : TanPart :=
      { part := part, stp := p, start := start, chans := alignChans c n (s.camChans n), cfg := c
        skip := !whole || decide (x.count < c.history n) }
    s.setTanP n { x with parts := keep ++ [new] }

/-! ### A line (R143-R149) -/

/-- The samples of a concealed line (R126): those of a line of the same port and part that qualifies, else `PAD_VALUE`. -/
def State.concealFrom (s : State) (n chans : Nat) (good : Option (Nat × List Nat)) (part : Option Nat) : List Nat :=
  let pad := List.replicate (s.camWidth n * chans) (s.act (bCAM n) CAM_DMG_PAD_VALUE)
  match good, part with
  | some (q, pix), some r => if q = r then pix else pad
  | _, _ => pad

/-- Stage 1 of a line: corrected samples, or none when the table cannot be read (R147). -/
def State.stage1 (s : State) (c : TanCfg) (n : Nat) (pix : List Nat) : State × Option (List Nat) × Bool :=
  if c.port n 5 = 1 then
    let r := s.hwRead iTAN (c.port n 6) (4 * pix.length)
    if r.2.1 = 0 then (r.1, some (flatLine pix r.2.2), false) else (r.1, none, true)
  else (s, some pix, false)

/-- A status joins those of a part's preparation. -/
def State.prepSeen (s : State) (n : Nat) (part : Option Nat) (sts : List Nat) : State :=
  match part with
  | some k => s.onPart n k (fun q => { q with seen := q.seen ++ sts })
  | none => s

/-- What the Tannery's checks of a line found (R145): single-bit errors corrected, double-bit errors, residue mismatches whose second run
agreed, and those whose second run did not. -/
structure TanErr where
  corr : Nat := 0
  unc : Nat := 0
  retry : Nat := 0
  fail : Nat := 0

/-- Whether a line with these findings is concealed (R145). -/
def TanErr.hides (e : TanErr) : Bool := decide (0 < e.unc) || decide (0 < e.fail)

/-- The statuses that findings give a part (R146). -/
def TanErr.statuses (e : TanErr) : List Nat :=
  (if 0 < e.corr then [0x0303] else []) ++ (if 0 < e.unc then [0x0304] else []) ++ (if 0 < e.retry then [0x0301] else []) ++
  (if 0 < e.fail then [0x0302] else [])

/-- Add to a counter. -/
def State.addCnt (s : State) (b : Nat) (f : Fld) (n : Nat) : State := (List.range n).foldl (fun s _ => s.inc b f) s

/-- Count and report findings (R145, R196). -/
def State.tanFound (s : State) (e : TanErr) : State :=
  let s := (s.addCnt bTAN TAN_CNT_SEC_CORR e.corr).addCnt bTAN TAN_CNT_SEC_UNC e.unc
  let s := (s.addCnt bTAN TAN_CNT_RES_RETRY (e.retry + e.fail)).addCnt bTAN TAN_CNT_RES_FAIL e.fail
  let s := (List.range e.retry).foldl (fun s _ => s.residueRetry bTAN 0 iTAN 0) s
  (List.range e.fail).foldl (fun s _ => s.residueFail bTAN 0 iTAN 0) s

/-- The output line joins the part it lies in, concealed as a unit where its status says so (R126, R148). -/
def State.tanPlace (s : State) (n chans : Nat) (l : TanLine) : State :=
  match s.partOf (s.camStp n) l.pos with
  | some (part, _) =>
    let hide := concealed l.status
    let l := if hide then { l with pix := s.concealFrom n chans (s.tanP n).goodOut (some part) } else l
    let s := if hide then s else s.setTanP n { s.tanP n with goodOut := some (part, l.pix) }
    s.onPart n part (fun q => if q.skip then q else { q with rows := q.rows ++ [l] })
  | none => s

/-- A line of port `n` with its verdict passes stages 0 to 2, with what their checks found (R143-R148). -/
def State.tanLine (s : State) (n : Nat) (l : CamLine) (e : TanErr) : State :=
  let p := s.camStp n
  let q := s.partOf p l.pos
  let part := q.map Prod.fst
  let s := match q with
    | some (k, start) => s.tanOpen n k p start l
    | none => s
  let s := s.tanFound e
  let s := if l.full then s.inc bTAN TAN_CNT_INTAKE_FULL else s
  let s := s.prepSeen n part ((if l.full then [0x0102] else []) ++ e.statuses)
  let hide := concealed l.status || l.full || e.hides
  let raw := if hide then s.concealFrom n (s.camChans n) (s.tanP n).good part else l.pix
  let s := if hide then s.inc bTAN TAN_CNT_CONCEAL
    else match part with
      | some k => s.setTanP n { s.tanP n with good := some (k, l.pix) }
      | none => s
  let c := s.tanCfgFor p (match q with
    | some (_, start) => start
    | none => l.pos)
  let r := s.stage1 c n raw
  let s := if r.2.2 then r.1.prepSeen n part [0x0304] else r.1
  let line : TanLine :=
    { k := l.k, pos := l.pos, sec := l.sec, ns := l.ns, pix := r.2.1.getD raw, got := min l.got (s.camWidth n)
      status := if hide && !concealed l.status || r.2.2 then 0x0502 else l.status }
  let x := s.tanP n
  let hist := (line :: x.hist).take 33
  let s := s.setTanP n { x with hist := hist, count := x.count + 1, last := some part }
  let s := match alignLine c n (s.camChans n) (s.act (bCAM n) CAM_DMG_PAD_VALUE) hist with
    | some o => s.tanPlace n (alignChans c n (s.camChans n)) o
    | none => s
  let s := s.endOthers n part
  match q with
  | some (k, start) =>
    if s.lastLine n start l ∧ c.port n 0 ≠ 2 then (s.onPart n k (fun q => { q with ended := true })).prepCheck n k else s
  | none => s

/-- INTAKE_FIRST_PIXEL: the oldest line's first pixel reaches the intake (R144). -/
def execIntakeFirstPixel (t p : Nat) (s : State) : Host.Outcome State Fault Refusal :=
  let s := s.at t
  .next (if p < 9 ∧ s.takesData p then s.onHead p (s.intake p) else s)

/-- LINE_VERDICT: the oldest judged line of port `p` passes on, with what the checks of stages 0 to 2 found (R143, R145): single-bit errors
corrected, double-bit errors, and residue mismatches whose second run agreed or did not. -/
def execLineVerdict (t p corr unc retry fail : Nat) (s : State) : Host.Outcome State Fault Refusal :=
  let s := s.at t
  let x := s.camP p
  .next (match x.judged with
  | [] => s
  | l :: r =>
    let s := s.setCam p { x with judged := r }
    if !s.runs bTAN then s
    else (if l.fresh then s.tanRestart p else s).tanLine p l ⟨corr, unc, retry, fail⟩)

/-! ### Stages 3 to 5 (R150-R152) -/

/-- FP32 sum and product. -/
def f32add (a b : Nat) : Nat := (fpAdd fp32 a b).1
def f32mul (a b : Nat) : Nat := (fpMul fp32 a b).1

/-- Stage 3 of one pixel: the output channels of a region in FP32 (R150). -/
def colourPixel (b : List Nat) (px : List Nat) : List Nat :=
  let x (j : Nat) : Nat := (fpRoundRat fp32 false false (nth 0 px j) 65536).1
  (List.range (rg b 7 1)).map (fun i =>
    let m (j : Nat) : Nat := rg b (0x18 + 4 * (3 * i + j)) 4
    f32add (f32add (f32add (f32mul (m 0) (x 0)) (f32mul (m 1) (x 1))) (f32mul (m 2) (x 2))) (rg b (0x3C + 4 * i) 4))

/-- Pixel (x, y) of a part after stage 3. -/
def TanPart.colour (q : TanPart) (b : List Nat) (x y : Nat) : List Nat :=
  colourPixel b (((nth {} q.rows y).pix.drop (x * q.chans)).take q.chans)

/-- Apply an operation to two lists of channels. -/
def zipF (f : Nat → Nat → Nat) (a b : List Nat) : List Nat := (a.zip b).map (fun q => f q.1 q.2)

/-- Scale a list of channels by a factor. -/
def scaleF (k : Nat) (a : List Nat) : List Nat := a.map (f32mul k)

/-- A fixed-point fraction in FP32. -/
def fracF (n : Nat) : Nat := (fpRoundRat fp32 false false n 65536).1

/-- Stage 4: output pixel (i, r) of a region (R151). -/
def TanPart.scaled (q : TanPart) (b : List Nat) (i r : Nat) : List Nat :=
  let x0 := rg b 8 2
  let y0 := rg b 0x0A 2
  let w := rg b 0x0C 2
  let h := rg b 0x0E 2
  let ow := rg b 0x10 2
  let oh := rg b 0x12 2
  let u := srcFixed x0 w ow i
  let v := srcFixed y0 h oh r
  let mode := rg b 5 1
  if mode = 0 then q.colour b (clampSrc x0 w ((u + 32768) / 65536)) (clampSrc y0 h ((v + 32768) / 65536))
  else if mode = 1 then
    let p (dx dy : Int) : List Nat := q.colour b (clampSrc x0 w (u / 65536 + dx)) (clampSrc y0 h (v / 65536 + dy))
    let fx := (u % 65536).toNat
    let fy := (v % 65536).toNat
    let row (dy : Int) : List Nat := zipF f32add (scaleF (fracF (65536 - fx)) (p 0 dy)) (scaleF (fracF fx) (p 1 dy))
    zipF f32add (scaleF (fracF (65536 - fy)) (row 0)) (scaleF (fracF fy) (row 1))
  else
    let bw := w / ow
    let bh := h / oh
    let px := (List.range bh).flatMap (fun dy => (List.range bw).map (fun dx => q.colour b (x0 + i * bw + dx) (y0 + r * bh + dy)))
    let sum := match px with
      | [] => []
      | a :: rest => rest.foldl (zipF f32add) a
    sum.map (fun v => (fpDiv fp32 v (fpOfInt fp32 (bw * bh : Nat)).1).1)

/-- Stage 5: a value in a region's output format as bytes (R152); `i` is its channel. -/
def packValue (b : List Nat) (i v : Nat) : List Nat :=
  let f := rg b 6 1
  if f = 0 then
    match fpDecode fp32 v, fpDecode fp32 (rg b (0x48 + 4 * i) 4) with
    | .fin n1 m1 e1, .fin n2 m2 e2 =>
      let z : Int := sext 8 (rg b (0x54 + i) 1)
      let y := Fp.ratio (.fin (n1 != n2) (m1 * m2) (e1 + e2))
      [toCode 8 (clampInt 8 (divRneI (y.1 + z * y.2) y.2)).1]
    | a, c =>
      let p := fpMulX a c
      match p.1 with
      | .inf n => [if n then 0x80 else 0x7F]
      | _ => [0]
  else if f = 1 then leBytes 1 (fpEncode e4m3 true (fpDecode fp32 v)).1
  else if f = 2 then leBytes 2 (fpEncode fp16 true (fpDecode fp32 v)).1
  else leBytes 2 (fpEncode bf16 true (fpDecode fp32 v)).1

/-- Element bytes of a region's output format. -/
def elemBytes (b : List Nat) : Nat := if rg b 6 1 ≤ 1 then 1 else 2

/-- Round up to a multiple of 64. -/
def up64 (n : Nat) : Nat := (n + 63) / 64 * 64

/-- The row pitch of a region's tensor (R152). -/
def regionPitch (b : List Nat) : Nat := up64 (rg b 0x10 2 * rg b 7 1 * elemBytes b)

/-- Output row `r` of a region as bytes, padded to the pitch. -/
def TanPart.outRow (q : TanPart) (b : List Nat) (r : Nat) : List Nat :=
  let d := (List.range (rg b 0x10 2)).flatMap (fun i =>
    let px := q.scaled b i r
    (List.range px.length).flatMap (fun c => packValue b c (nth 0 px c)))
  d ++ List.replicate (regionPitch b - d.length) 0

/-! ### Ring and arena (R155-R158) -/

/-- Arena size in bytes. -/
def State.arenaSize (s : State) : Nat := s.rd bTAN TAN_ARENA_SIZE * 1048576

/-- Arena bytes not free. -/
def State.arenaUsed (s : State) : Nat := (s.tan.entries.map (·.span)).foldl (· + ·) 0

/-- Entries of the ring that are free. -/
def State.ringFree (s : State) : Nat := 2 ^ s.rd bTAN TAN_RING_CFG_SIZE_LOG2 - s.tan.entries.length

/-- Bring `FREE` and the alarm up to date (R157). -/
def State.ringAlarm (s : State) : State :=
  let f := s.ringFree
  let s := s.wr bTAN TAN_RING_FREE f
  let a := s.arenaSize
  let fa := a - s.arenaUsed
  let low := s.rd bTAN TAN_RING_CFG_LOW_WATER
  if s.rd bTAN TAN_RING_WR_ALARM = 0 then
    (if f ≤ low ∨ 8 * fa < a then (s.wr bTAN TAN_RING_WR_ALARM 1).raise 0x0201 bTAN f else s)
  else if low + 8 ≤ f ∧ a ≤ 4 * fa then (s.wr bTAN TAN_RING_WR_ALARM 0).raise 0x0202 bTAN f
  else s

/-- The place of `len` bytes in the arena: offset and span, the span including what is left over at the arena's end. -/
def State.arenaPlace (s : State) (len : Nat) : Option (Nat × Nat) :=
  let a := s.arenaSize
  let n := up64 len
  let h := s.tan.head
  let r := if h + n ≤ a then (h, n) else (0, a - h + n)
  if n ≤ a ∧ s.arenaUsed + r.2 ≤ a then some r else none

/-- Write one entry of the ring with its data (R155, R156): the fields between the sequence number and the arena address, and
those after the address.  The 64-byte lines `bad` of the data failed their check on the way to the arena and are stored poisoned (R187).
Answers whether it fitted. -/
def State.ringCommit (s : State) (f1 : List Nat) (f2 : List Nat) (data : List Nat) (bad : List Nat := []) : State × Bool :=
  match s.arenaPlace data.length with
  | some r =>
    if s.ringFree = 0 then (s, false)
    else
      let w := s.rd bTAN TAN_RING_WR_WR
      let a := s.rd64 bTAN TAN_ARENA_BASE_LO TAN_ARENA_BASE_HI + r.1
      let s := s.setTan { s.tan with fenced := s.tan.fenced.filter (fun r => !overlap r.1 r.2 a data.length) }
      let s := if data.isEmpty then s else s.putAs iTAN a data
      let s := (bad.filter (fun k => decide (64 * k < data.length))).foldl (fun s k => s.setPoison (unitOf (a + 64 * k))) s
      let e := leBytes 4 s.tan.seq ++ f1 ++ leBytes 8 a ++ f2
      let s := s.putAs iTAN (s.rd64 bTAN TAN_RING_BASE_LO TAN_RING_BASE_HI + 64 * (w % 2 ^ s.rd bTAN TAN_RING_CFG_SIZE_LOG2)) e
      let s := s.setTan { s.tan with
        seq := (s.tan.seq + 1) % 4294967296
        head := (r.1 + up64 data.length) % max 1 s.arenaSize
        entries := s.tan.entries ++ [{ idx := w, off := r.1, len := data.length, span := r.2 }] }
      ((s.wr bTAN TAN_RING_WR_WR (w + 1)).ringAlarm, true)
  | none => (s, false)

/-- The verdict deadline of a part (R155). -/
def State.deadlineOf (s : State) (p part : Nat) (start : Int) : Int :=
  match s.slotOfPart p part with
  | some (_, x) => x.deadline
  | none => start + s.act (bEJT p) EJT_TARGET - s.act (bEJT p) EJT_GUARD

/-- Commit output rows `r0` to `r1` - 1 of region `ri` of a part (R155, R156, R158). -/
def State.commitRows (s : State) (n : Nat) (q : TanPart) (ri : Nat) (b : List Nat) (r0 r1 : Nat) (bad : List Nat := []) : State :=
  let pitch := regionPitch b
  let data := (List.range (r1 - r0)).flatMap (fun k => q.outRow b (r0 + k))
  let src := (q.rows.drop (firstSrc b r0)).take (lastSrc b (r1 - 1) + 1 - firstSrc b r0)
  let dmg := (src.filter (fun l => l.status != 0)).length
  let first := src.headD {}
  let flags := (if r1 = rg b 0x12 2 then 1 else 0) + (if src.any (fun l => concealed l.status) then 2 else 0)
  let f1 := leBytes 4 q.part ++ leBytes 4 (rg b 0 4) ++ leBytes 2 r0 ++ leBytes 2 (r1 - r0)
  let f2 := leBytes 4 data.length ++ leBytes 4 pitch ++ leBytes 8 (toCode 64 (s.deadlineOf q.stp q.part q.start)) ++
    leBytes 2 (prepStatus q.seen) ++ [flags, q.stp, rg b 0x16 1] ++ leBytes 3 dmg ++
    leBytes 4 (first.sec % 4294967296) ++ leBytes 4 first.ns ++ List.replicate 8 0
  let r := s.ringCommit f1 f2 data bad
  if r.2 then r.1.onPart n q.part (fun q => { q with done := Store.put 0 q.done ri r1 })
  else (r.1.inc bTAN TAN_CNT_RINGFULL).onPart n q.part (fun q => { q with off := true, seen := q.seen ++ [0x0102] })

/-- The end of the commit group that begins at output row `r0` (R156, R466). -/
def groupEnd (b : List Nat) (r0 : Nat) : Nat :=
  let g := max 1 (rg b 0x14 2)
  min (rg b 0x12 2) ((r0 / g + 1) * g)

/-- Lines of a part that a check of stages 3 to 5 conceals (R126, R145): each takes the line before it in the part that qualifies. -/
def TanPart.hideRows (q : TanPart) (pad : Nat) (ks : List Nat) : TanPart :=
  let good (k : Nat) : Option TanLine :=
    (q.rows.take k).zipIdx.reverse.find? (fun e => !concealed e.1.status && !ks.contains e.2) |>.map Prod.fst
  { q with rows := q.rows.zipIdx.map (fun e =>
      if ks.contains e.2 then
        { e.1 with status := 0x0502, pix := ((good e.2).map (·.pix)).getD (List.replicate e.1.pix.length pad) }
      else e.1) }

/-- GROUP_COMMIT: the next commit group of region `ri` of a part on camera port `p` is complete (R156), with what the checks of stages 3 to 5
found (R145): single-bit errors corrected, the part's lines with a double-bit error, residue mismatches whose second run agreed, and the
lines where it did not; `bad` names the 64-byte lines of the group's data whose check fails on the way to the arena (R187). -/
def execGroupCommit (t p part ri corr : Nat) (unc : List Nat) (retry : Nat) (fail bad : List Nat) (s : State) : Host.Outcome State Fault Refusal :=
  let s := s.at t
  .next (match s.tanPart p part with
  | some q =>
    match (q.cfg.regionsOf p).find? (fun e => e.1 == ri) with
    | some (_, b) =>
      let r0 := Store.get 0 q.done ri
      let r1 := groupEnd b r0
      if s.runs bTAN ∧ !q.skip ∧ !q.off ∧ r0 < r1 ∧ r1 ≤ q.avail b then
        let e : TanErr := ⟨corr, unc.length, retry, fail.length⟩
        let s := (s.tanFound e).addCnt bTAN TAN_CNT_CONCEAL (unc ++ fail).dedup.length
        let q := { q with seen := q.seen ++ e.statuses }.hideRows (s.act (bCAM p) CAM_DMG_PAD_VALUE) (unc ++ fail)
        let s := s.onPart p part (fun _ => q)
        (s.commitRows p q ri b r0 r1 bad).prepCheck p part
      else s
    | none => s
  | none => s)

/-- A generator's forced commit (R466): every group that holds written rows but is not complete. -/
def State.forceCommits (s : State) : State :=
  (List.range 9).foldl (fun s n =>
    ((s.tanP n).parts.map (·.part)).foldl (fun s part =>
      match s.tanPart n part with
      | some q0 =>
        (q0.cfg.regionsOf n).foldl (fun s e =>
          match s.tanPart n part with
          | some q =>
            let r0 := Store.get 0 q.done e.1
            let r1 := min (groupEnd e.2 r0) (q.avail e.2)
            if s.runs bTAN ∧ !q.skip ∧ !q.off ∧ r0 < r1 then (s.commitRows n q e.1 e.2 r0 r1).prepCheck n part else s
          | none => s) s
      | none => s) s) s

/-- Drop the released entries from the oldest on. -/
def dropReleased : List TanEntry → List TanEntry
  | [] => []
  | e :: r => if e.rel then dropReleased r else e :: r

/-- TAN_RING_REL: a write `v` releases the entry with that index (R156). -/
def execTanRingRel (t i v : Nat) (s : State) : Host.Outcome State Fault Refusal :=
  let s := s.at t
  .next (if !s.regAllowed i true bTAN 0x314 then s.deny i true (regBase + bTAN * 0x100000 + 0x314)
  else if !s.domOn bTAN then s
  else
    let es := s.tan.entries.map (fun e => if e.idx == v % 65536 then { e with rel := true } else e)
    (s.setTan { s.tan with entries := dropReleased es }).ringAlarm)

/-! ### Hooks -/

/-- The Tannery enters ON (R149): every port restarts here. -/
def State.tanOn (s : State) : State :=
  ((List.range 9).foldl (fun s n =>
    let s := s.tanRestart n
    s.setTanP n { s.tanP n with from_ := max (s.tanP n).from_ (s.pos (s.camStp n)) }) s).wr bTAN TAN_RING_FREE s.ringFree

/-- A fence of the Tannery (R170): every entry not yet released is invalid, and so is its data wherever a command reads it. -/
def State.tanFence (s : State) : State :=
  let base := s.rd64 bTAN TAN_ARENA_BASE_LO TAN_ARENA_BASE_HI
  let ring := s.rd64 bTAN TAN_RING_BASE_LO TAN_RING_BASE_HI
  let live := s.tan.entries.filter (fun e => !e.rel)
  s.setTan { s.tan with
    entries := s.tan.entries.map (fun e => { e with bad := true })
    fenced := s.tan.fenced ++ live.flatMap (fun e =>
      [(base + e.off, e.len), (ring + 64 * (e.idx % 2 ^ s.rd bTAN TAN_RING_CFG_SIZE_LOG2), 64)]) }

/-- A reset of the Tannery (R170): intake, history, ring, arena, decode queue and dictionaries are cleared; data that a fence made invalid
stays so until it is written again. -/
def State.tanReset (s : State) : State :=
  (List.range 9).foldl (fun s n => s.setCam n { s.camP n with judged := [] }) (s.setTan { fenced := s.tan.fenced })

/-- A job epoch is reached at the positions `at_`: what was in effect stays for the parts before it (R154). -/
def State.tanBefore (s : State) (at_ : List Int) : State :=
  s.setTan { s.tan with prev := (at_, s.tan.cfg) :: s.tan.prev.filter (fun e => s.partsBefore e.1) }

/-- The configuration of the new job is in effect (R154). -/
def State.tanAfter (s : State) : State := s.setTan { s.tan with cfg := { ports := s.portCfgs, regions := s.readRegions } }

/-! ### Regions of a job (R153) -/

/-- Whether a region keeps the limits of R153 for the configuration in the shadow fields. -/
def State.regionOk (s : State) (b : List Nat) : Bool :=
  let n := rg b 4 1
  let w := rg b 0x0C 2
  let h := rg b 0x0E 2
  let ow := rg b 0x10 2
  let oh := rg b 0x12 2
  let g := rg b 0x14 2
  let src := s.rd (bCAM n) CAM_TRIG_SRC
  let p := if src = 2 then 1 else 0
  let step := s.rd (bCAM n) CAM_TRIGSTEP_STEP
  decide (n ≤ 8) && decide (rg b 5 1 ≤ 2) && decide (rg b 6 1 ≤ 3) && decide (1 ≤ rg b 7 1) && decide (rg b 7 1 ≤ 3) &&
  decide (1 ≤ ow) && decide (ow ≤ 16384) && decide (1 ≤ oh) && decide (oh ≤ 16384) && decide (1 ≤ w) && decide (1 ≤ h) &&
  decide (1 ≤ g) && decide (g ≤ oh) && decide (rg b 0x16 1 ≤ 63) && rg b 0x17 1 == 0 && zeroAt b 0x57 41 &&
  decide (rg b 8 2 + w ≤ s.rd (bCAM n) CAM_LINECFG_WIDTH) &&
  decide (rg b 0x0A 2 + h ≤ s.rd (bEJT p) EJT_PITCH / step) &&
  decide (w ≤ 8 * ow) && decide (ow ≤ 4 * w) && decide (h ≤ 8 * oh) && decide (oh ≤ 4 * h) &&
  (rg b 5 1 != 2 || (decide (w % ow = 0) && decide (h % oh = 0)))

/-- Whether the region table in the shadow fields keeps R153. -/
def State.regionsOk (s : State) : Bool :=
  let a := s.rd64 bTAN TAN_REGTAB_LO TAN_REGTAB_HI
  let rs := (List.range (s.rd bTAN TAN_REGCNT)).map (fun k => s.bytes (a + 128 * k) 128)
  decide (a % 128 = 0) && rs.all s.regionOk && decide ((rs.map (fun b => rg b 0 4)).Nodup) &&
  (List.range 9).all (fun n => decide ((rs.filter (fun b => rg b 4 1 == n)).length ≤ 32))

end Sys2Proof.Machine
end

