-- ==== Sys2Proof/Machine/Colour.lean ====
section
/-!
DEFINITION. The colorimetry unit: patches, calibration copies and table loads (R133-R141).
-/

namespace Sys2Proof.Machine

/-- Replace the colorimetry unit's inside. -/
def State.setClm (s : State) (x : Clm) : State := { s with clm := x }

/-- The reset value of a table entry. -/
def tabKey (set idx : Nat) : Nat := set * 8192 + idx

/-- The calibration copy in effect (R139). -/
def State.clmActive (s : State) : ClmCopy :=
  { ks := (List.range 3).map (fun k => s.act bCLM (CLM_KW_K k))
    mat := (List.range 81).map (fun k => s.act bCLM (CLM_MAT_COEF (k / 9) (k % 9)))
    blk := (List.range 27).map (fun k => s.act bCLM (CLM_BLK_BLACK (k / 3) (k % 3)))
    tab := s.clm.tab }

/-- The copy that was active at the start of a part of Stirrup port `p` (R139). -/
def State.clmFor (s : State) (p : Nat) (start : Int) : ClmCopy := inEffect s.clmActive s.clm.prev p start

/-- What was in effect before an epoch stays for the parts before it. -/
def State.clmBefore (s : State) (at_ : List Int) : State :=
  s.setClm { s.clm with prev := (at_, s.clmActive) :: s.clm.prev.filter (fun e => s.partsBefore e.1) }

/-- The tables of the shadow copy come into effect. -/
def State.clmAfter (s : State) : State := s.setClm { s.clm with tab := s.clm.shadow }

/-- One colour component after matrix, clamp and rounding to 20 fraction bits (R135); `means` have 16 fraction bits over samples of
16 bits. -/
def uValue (c : ClmCopy) (set i : Nat) (means : List Nat) : Nat :=
  let t : Int := (List.range 3).foldl (fun (a : Int) j =>
    let d : Int := max 0 ((nth 0 means j : Int) - nth 0 c.blk (3 * set + j))
    a + sext 32 (nth 0 c.mat (9 * set + 3 * i + j)) * d) 0
  (max 0 (min (2 ^ 20) (divRneI t (2 ^ 36)))).toNat

/-- A component of a table entry: L* in 1/512, a* and b* in 1/128 (R136). -/
def tabValue (c : ClmCopy) (set comp : Nat) (g : List Nat) : Int :=
  let e := Store.get 0 c.tab (tabKey set ((nth 0 g 0 * 17 + nth 0 g 1) * 17 + nth 0 g 2))
  if comp = 0 then (bits e 0 16 : Nat) else sext 16 (bits e (16 * comp) 16)

/-- The axes ordered by fraction, greatest first, ties in axis order (R136). -/
def axisOrder (f : List Nat) : List Nat :=
  let a := nth 0 f 0
  let b := nth 0 f 1
  let c := nth 0 f 2
  if b ≤ a then (if c ≤ b then [0, 1, 2] else if c ≤ a then [0, 2, 1] else [2, 0, 1])
  else (if c ≤ a then [1, 0, 2] else if c ≤ b then [1, 2, 0] else [2, 1, 0])

/-- Tetrahedral interpolation of one component, as an FP32 code (R136); fractions have 16 bits. -/
def tetra (c : ClmCopy) (set comp : Nat) (u : List Nat) : Nat :=
  let k := u.map (fun v => if v = 2 ^ 20 then 15 else v / 65536)
  let f := u.map (fun v => if v = 2 ^ 20 then 65536 else v % 65536)
  let o := axisOrder f
  let fp := nth 0 f (nth 0 o 0)
  let fq := nth 0 f (nth 0 o 1)
  let fr := nth 0 f (nth 0 o 2)
  let v0 := k
  let v1 := v0.set (nth 0 o 0) (nth 0 v0 (nth 0 o 0) + 1)
  let v2 := v1.set (nth 0 o 1) (nth 0 v1 (nth 0 o 1) + 1)
  let v3 := v2.set (nth 0 o 2) (nth 0 v2 (nth 0 o 2) + 1)
  let w (x : Nat) : Int := x
  let n := (w 65536 - fp) * tabValue c set comp v0 + (w fp - fq) * tabValue c set comp v1 +
    (w fq - fr) * tabValue c set comp v2 + w fr * tabValue c set comp v3
  (fpRoundRat fp32 false (decide (n < 0)) n.natAbs (65536 * (if comp = 0 then 512 else 128))).1

/-- The valid samples of a patch (R129, R134): the pixels of its lines that are not concealed, less the margin. -/
def TanPart.patchPixels (q : TanPart) (x : Patch) : List (List Nat) :=
  let rows := (q.rows.drop (x.y0 + x.margin)).take (x.h - 2 * x.margin)
  (rows.filter (fun l => !concealed l.status)).flatMap (fun l =>
    pixelsOf q.chans ((l.pix.drop ((x.x0 + x.margin) * q.chans)).take ((x.w - 2 * x.margin) * q.chans)))

/-- The patches that apply to a part (R398), with their index. -/
def State.patchesOf (s : State) (p part : Nat) : List (Nat × Patch) :=
  ((List.range s.job.patches.length).zip s.job.patches).filter (fun e =>
    e.2.stp == p && part % e.2.modulus == e.2.residue)

/-- Whether a patch of a part has been judged. -/
def State.patchDone (s : State) (p part k : Nat) : Bool :=
  s.clm.results.any (fun r => nth 0 r 0 == p && nth 0 r 1 == part && nth 0 r 2 == k)

/-- The colorimetry check once every patch of the part is judged (R138). -/
def State.colourCheck (s : State) (p part : Nat) : State :=
  let ks := (s.patchesOf p part).map Prod.fst
  if ks.all (fun k => s.patchDone p part k) then
    let vs := (s.clm.results.filter (fun r => nth 0 r 0 == p && nth 0 r 1 == part)).map (fun r => nth 0 r 8)
    s.checkReport p part 18 (verdictOfRank ((vs.map (fun v => rankOf v 0)).foldl min 4)) 0
  else s

/-- Judge a patch from its pixels (R134-R138): the results from the valid pixel count on. -/
def judgePatch (c : ClmCopy) (x : Patch) (px : List (List Nat)) : List Nat :=
  let n := px.length
  let mean (j : Nat) : Nat := if n = 0 then 0 else divRne ((px.map (fun q => nth 0 q j)).foldl (· + ·) 0 * 65536) n
  let m := [mean 0, mean 1, mean 2]
  let u := (List.range 3).map (fun i => uValue c x.cam i m)
  let lab := (List.range 3).map (fun k => tetra c x.cam k u)
  let de := (deltaE c.ks lab x.target)
  let d := fpDecode fp32 de
  let v := if n < x.minCount then 3 else if fpLt (fpDecode fp32 x.reject) d then 1
    else if fpLt (fpDecode fp32 x.recheck) d then 2 else 0
  [n] ++ lab ++ [de, v]

/-- PATCH_JUDGED: patch `k` of a part on Stirrup port `p` is judged once its lines have passed stage 2 (R133-R139). -/
def execPatchJudged (t p part k : Nat) (s : State) : Host.Outcome State Fault Refusal :=
  let s := s.at t
  .next (match (s.patchesOf p part).find? (fun e => e.1 == k) with
  | some (_, x) =>
    match s.tanPart x.cam part with
    | some q =>
      if s.isOn bCLM ∧ s.runs bTAN ∧ q.stp = p ∧ !q.skip ∧ x.y0 + x.h ≤ q.rows.length ∧ !s.patchDone p part k then
        let r := [p, part, k] ++ judgePatch (s.clmFor p q.start) x (q.patchPixels x)
        let old := s.clm.results.filter (fun r => (s.slotOfPart (nth 0 r 0) (nth 0 r 1)).isSome)
        (s.setClm { s.clm with results := old ++ [r] }).colourCheck p part
      else s
    | none => s
  | none => s)

/-! ### Tables (R139-R141) -/

/-- Entries of a set's table. -/
def tabEntries : Nat := 4913

/-- Set shadow entries from `idx` on; they take effect at the next job epoch (R20, R139). -/
def State.setTable (s : State) (set idx : Nat) (vs : List Nat) : State :=
  let sh := ((List.range vs.length).zip vs).foldl (fun m e =>
    Store.put 0 m (tabKey set (idx + e.1)) (e.2 % 2 ^ 48)) s.clm.shadow
  s.setClm { s.clm with shadow := sh }

/-- A word write of the table window (R140): word 0 or 1 of an entry; bits 63:48 stay 0. -/
def State.tabWrite (s : State) (set off v : Nat) : State :=
  let k := off / 8
  if tabEntries ≤ k then s
  else
    let e := Store.get 0 s.clm.shadow (tabKey set k)
    s.setTable set k [if off % 8 = 0 then e / 4294967296 * 4294967296 + v % 4294967296 else e % 4294967296 + v % 65536 * 4294967296]

/-- A word of the table window: the shadow copy (R139). -/
def State.tabRead (s : State) (set off : Nat) : Nat :=
  if tabEntries ≤ off / 8 then 0
  else bits (Store.get 0 s.clm.shadow (tabKey set (off / 8))) (32 * (off / 4 % 2)) 32

/-- CLM_TLOAD: a write `v` of `CLM_TLOAD` (R141). -/
def State.tloadWrite (s : State) (v : Nat) : State :=
  let s := s.wr bCLM CLM_TLOAD_SET (bits v 4 4)
  if bit v 0 = 0 ∨ s.rd bCLM CLM_TLOAD_BUSY = 1 ∨ !s.runs bCLM then s
  else
    let a := s.rd64 bCLM CLM_TLOAD_LO CLM_TLOAD_HI
    if 8 < bits v 4 4 ∨ a % 64 ≠ 0 then s.wr bCLM CLM_TLOAD_LOAD_STATUS 0x0808
    else (s.setClm { s.clm with load := some (a, bits v 4 4) }).wr bCLM CLM_TLOAD_BUSY 1

/-- CLM_TLOAD: a write by initiator `i` (R141). -/
def execClmTload (t i v : Nat) (s : State) : Host.Outcome State Fault Refusal :=
  let s := s.at t
  .next (if !s.regAllowed i true bCLM 0x508 then s.deny i true (regBase + bCLM * 0x100000 + 0x508)
  else if !s.domOn bCLM then s
  else s.tloadWrite v)

/-- The calibration of `CAM n` is committed: its record is written (R58, R60) with the port's link and camera, the colour matrix, the black
offsets, and the digest of the flat-field and dark table followed by the 17³ table.  DESIGN CHOICE (entry 112): R60 names no event that
commits a calibration; the completed load of the camera's table does. -/
def State.calibCommit (s : State) (n : Nat) : State :=
  let x := s.camP n
  let word (f : Fld) : List Nat := leBytes 4 (s.rd bCLM f)
  let flat := s.bytes (s.rd64 bTAN (TAN_FFADDR_LO n) (TAN_FFADDR_HI n)) (4 * s.camWidth n * s.camChans n)
  let tab := (List.range tabEntries).flatMap (fun k => leBytes 8 (Store.get 0 s.clm.shadow (tabKey n k)))
  s.idEvent [(0x200 + 512 * n, [1, x.lanes] ++ leBytes 2 x.rate ++ (x.ident ++ List.replicate 64 0).take 64 ++
    (List.range 9).flatMap (fun j => word (CLM_MAT_COEF n j)) ++ (List.range 3).flatMap (fun j => word (CLM_BLK_BLACK n j)) ++
    sha256 (flat ++ tab))]

/-- CLM_TLOAD_DONE: every entry has been read, or the load has failed (R141). -/
def execClmTloadDone (t : Nat) (s : State) : Host.Outcome State Fault Refusal :=
  let s := s.at t
  .next (match s.clm.load with
  | some (a, set) =>
    let r := s.hwRead iTAN a (8 * tabEntries)
    let s := ((r.1.setClm { r.1.clm with load := none }).wr bCLM CLM_TLOAD_BUSY 0).wr bCLM CLM_TLOAD_LOAD_STATUS r.2.1
    if r.2.1 = 0 then
      let s := s.setTable set 0 ((chunks 8 tabEntries r.2.2).map leNat)
      if set < 8 then s.calibCommit set else s
    else s
  | none => s)

/-! ### Patch tables (R133, R398) -/

/-- One entry of a patch table, or none when it breaks a limit. -/
def parsePatch (b : List Nat) : Option Patch :=
  let m := leAt b 2 1
  let rej := leAt b 0x1C 4
  let rec_ := leAt b 0x20 4
  if leAt b 0 1 ≤ 8 ∧ leAt b 1 1 ≤ 1 ∧ [1, 2, 4, 8, 16, 32, 64].contains m ∧ leAt b 3 1 < m ∧ 64 ≤ leAt b 0x0E 2 ∧
      zeroAt b 0x24 12 ∧ !fpLt (fpDecode fp32 rej) (fpDecode fp32 rec_) then
    some { cam := leAt b 0 1, stp := leAt b 1 1, modulus := m, residue := leAt b 3 1, x0 := leAt b 4 2, y0 := leAt b 6 2
           w := leAt b 8 2, h := leAt b 0x0A 2, margin := leAt b 0x0C 2, minCount := leAt b 0x0E 2
           target := [leAt b 0x10 4, leAt b 0x14 4, leAt b 0x18 4], reject := rej, recheck := rec_ }
  else none

/-- A patch table: none when an entry breaks a limit, or more than 64 patches apply to one part (R133, R398). -/
def parsePatches (n : Nat) (b : List Nat) : Option (List Patch) :=
  match allSome ((chunks 48 n b).map parsePatch) with
  | some ps =>
    if ps.length = n ∧ (List.range 2).all (fun p => (List.range 64).all (fun r =>
        decide ((ps.filter (fun q => q.stp == p && r % q.modulus == q.residue)).length ≤ 64))) then some ps
    else none
  | none => none

end Sys2Proof.Machine
end

