-- ==== Sys2Proof/Machine/Inflate.lean ====
section
/-!
DEFINITION. The inflate algorithm of RFC 1951 as the artwork decoder uses it (R160, R163): what could be decoded before the first
error or the end of the data.
-/

namespace Sys2Proof.Machine

/-- The bits of a list of bytes, each byte's lowest first. -/
def toBits (b : List Nat) : List Bool := b.flatMap (fun v => (List.range 8).map (fun k => v / 2 ^ k % 2 == 1))

/-- How inflating ended: 0 well, 2 a code error, 3 the data ended early. -/
abbrev InfEnd := Nat

/-- Take a number of `n` bits, lowest first; none when the data ends. -/
def takeBits : Nat → List Bool → Option (Nat × List Bool)
  | 0, bs => some (0, bs)
  | _ + 1, [] => none
  | n + 1, b :: r => (takeBits n r).map (fun q => ((if b then 1 else 0) + 2 * q.1, q.2))

/-- A Huffman code: the number of codes of each length from 1, and the symbols by length and value. -/
structure Huff where
  counts : List Nat := []
  syms : List Nat := []
deriving DecidableEq, Repr

/-- The code of a list of code lengths, 0 for a symbol not used. -/
def huffOf (lens : List Nat) : Huff :=
  { counts := (List.range 15).map (fun l => (lens.filter (fun x => x == l + 1)).length)
    syms := (List.range 15).flatMap (fun l => (List.range lens.length).filter (fun k => lens.getD k 0 == l + 1)) }

/-- The unused codes of length 15 that a code leaves, or none when it is over-subscribed. -/
def huffLeft : List Nat → Nat → Option Nat
  | [], left => some left
  | c :: r, left => if 2 * left < c then none else huffLeft r (2 * left - c)

/-- Whether a code may be used: complete, or with a single code of one bit. -/
def Huff.ok (h : Huff) : Bool :=
  match huffLeft h.counts 1 with
  | some l => l == 0 || (h.syms.length == 1 && h.counts.getD 0 0 == 1)
  | none => false

/-- Decode one symbol; 0 as the error of an unassigned code. -/
def huffGo (syms : List Nat) : List Nat → Nat → Nat → Nat → List Bool → Except InfEnd (Nat × List Bool)
  | [], _, _, _, _ => .error 2
  | _ :: _, _, _, _, [] => .error 3
  | c :: cs, code, first, index, b :: bs =>
    let code := code + (if b then 1 else 0)
    if code < first + c then .ok (syms.getD (index + (code - first)) 0, bs)
    else huffGo syms cs (2 * code) (2 * (first + c)) (index + c) bs

/-- Decode one symbol of a code. -/
def Huff.sym (h : Huff) (bs : List Bool) : Except InfEnd (Nat × List Bool) := huffGo h.syms h.counts 0 0 0 bs

/-- Base lengths and extra bits of the length symbols from 257. -/
def lenBase : List (Nat × Nat) :=
  [(3, 0), (4, 0), (5, 0), (6, 0), (7, 0), (8, 0), (9, 0), (10, 0), (11, 1), (13, 1), (15, 1), (17, 1), (19, 2), (23, 2),
   (27, 2), (31, 2)] ++
  [(35, 3), (43, 3), (51, 3), (59, 3), (67, 4), (83, 4), (99, 4), (115, 4), (131, 5), (163, 5), (195, 5), (227, 5), (258, 0)]

/-- Base distances and extra bits of the distance symbols. -/
def distBase : List (Nat × Nat) :=
  [(1, 0), (2, 0), (3, 0), (4, 0), (5, 1), (7, 1), (9, 2), (13, 2), (17, 3), (25, 3), (33, 4), (49, 4), (65, 5), (97, 5)] ++
  [(129, 6), (193, 6), (257, 7), (385, 7), (513, 8), (769, 8), (1025, 9), (1537, 9), (2049, 10), (3073, 10), (4097, 11),
   (6145, 11), (8193, 12), (12289, 12), (16385, 13), (24577, 13)]

/-- Repeat the byte `d` places back `n` times; the output is newest first. -/
def lzCopy : Nat → Nat → List Nat → List Nat
  | 0, _, out => out
  | n + 1, d, out => lzCopy n d (out.getD (d - 1) 0 :: out)

/-- The symbols of a block: the output, the rest of the bits and how it ended. -/
def infCodes (lit dist : Huff) : Nat → List Bool → List Nat → List Nat × List Bool × InfEnd
  | 0, bs, out => (out, bs, 3)
  | fuel + 1, bs, out =>
    match lit.sym bs with
    | .error e => (out, bs, e)
    | .ok (s, bs) =>
      if s < 256 then infCodes lit dist fuel bs (s :: out)
      else if s = 256 then (out, bs, 0)
      else match lenBase[s - 257]? with
        | none => (out, bs, 2)
        | some (lb, le) =>
          match takeBits le bs with
          | none => (out, bs, 3)
          | some (lx, bs) =>
            match dist.sym bs with
            | .error e => (out, bs, e)
            | .ok (d, bs) =>
              match distBase[d]? with
              | none => (out, bs, 2)
              | some (db, de) =>
                match takeBits de bs with
                | none => (out, bs, 3)
                | some (dx, bs) =>
                  if out.length < db + dx then (out, bs, 2)
                  else infCodes lit dist fuel bs (lzCopy (lb + lx) (db + dx) out)

/-- The fixed code of literals and lengths. -/
def fixedLit : Huff :=
  huffOf (List.replicate 144 8 ++ List.replicate 112 9 ++ List.replicate 24 7 ++ List.replicate 8 8)

/-- The fixed code of distances. -/
def fixedDist : Huff := huffOf (List.replicate 30 5)

/-- The order of the code length code lengths. -/
def clOrder : List Nat := [16, 17, 18, 0, 8, 7, 9, 6, 10, 5, 11, 4, 12, 3, 13, 2, 14, 1, 15]

/-- `n` numbers of 3 bits. -/
def take3 : Nat → List Bool → Option (List Nat × List Bool)
  | 0, bs => some ([], bs)
  | n + 1, bs =>
    match takeBits 3 bs with
    | some (v, bs) => (take3 n bs).map (fun q => (v :: q.1, q.2))
    | none => none

/-- The code lengths of a dynamic block, `want` of them. -/
def dynLens (cl : Huff) (want : Nat) : Nat → List Bool → List Nat → Except InfEnd (List Nat × List Bool)
  | 0, _, _ => .error 2
  | fuel + 1, bs, acc =>
    if want ≤ acc.length then (if acc.length = want then .ok (acc, bs) else .error 2)
    else match cl.sym bs with
      | .error e => .error e
      | .ok (s, bs) =>
        if s < 16 then dynLens cl want fuel bs (acc ++ [s])
        else
          let eb := if s = 16 then 2 else if s = 17 then 3 else 7
          match takeBits eb bs with
          | none => .error 3
          | some (x, bs) =>
            if s = 16 then
              (match acc.getLast? with
              | some l => dynLens cl want fuel bs (acc ++ List.replicate (3 + x) l)
              | none => .error 2)
            else dynLens cl want fuel bs (acc ++ List.replicate ((if s = 17 then 3 else 11) + x) 0)

/-- The two codes of a dynamic block. -/
def dynCodes (bs : List Bool) : Except InfEnd (Huff × Huff × List Bool) :=
  match takeBits 14 bs with
  | none => .error 3
  | some (v, bs) =>
    let nlen := v % 32 + 257
    let ndist := v / 32 % 32 + 1
    let ncode := v / 1024 + 4
    if 286 < nlen ∨ 30 < ndist then .error 2
    else match take3 ncode bs with
      | none => .error 3
      | some (ls, bs) =>
        let cl := huffOf ((List.range 19).map (fun k => ls.getD (clOrder.idxOf k) 0))
        if !cl.ok then .error 2
        else match dynLens cl (nlen + ndist) (nlen + ndist + 1) bs [] with
          | .error e => .error e
          | .ok (lens, bs) =>
            let lit := huffOf (lens.take nlen)
            let dist := huffOf (lens.drop nlen)
            if lens.getD 256 0 = 0 ∨ !lit.ok ∨ (!dist.ok && !dist.syms.isEmpty) then .error 2
            else .ok (lit, dist, bs)

/-- A stored block; `pos` bits before it within its byte are dropped by the caller. -/
def stored (bs : List Bool) (out : List Nat) : List Nat × List Bool × InfEnd :=
  match takeBits 32 bs with
  | none => (out, [], 3)
  | some (v, r) =>
    let n := v % 65536
    if v / 65536 ≠ 65535 - n then (out, r, 2)
    else
      let k := min n (r.length / 8)
      let bytes := (List.range k).map (fun j => match takeBits 8 (r.drop (8 * j)) with
        | some (b, _) => b
        | none => 0)
      (bytes.reverse ++ out, r.drop (8 * n), if k < n then 3 else 0)

/-- Blocks until the last one; the whole stream holds `total` bits. -/
def infBlocks (total : Nat) : Nat → List Bool → List Nat → List Nat × InfEnd
  | 0, _, out => (out, 3)
  | fuel + 1, bs, out =>
    match takeBits 3 bs with
    | none => (out, 3)
    | some (h, bs) =>
      let r : List Nat × List Bool × InfEnd :=
        if h / 2 = 0 then stored (bs.drop (bs.length % 8)) out
        else if h / 2 = 1 then infCodes fixedLit fixedDist total bs out
        else if h / 2 = 2 then
          (match dynCodes bs with
          | .error e => (out, bs, e)
          | .ok (lit, dist, bs) => infCodes lit dist total bs out)
        else (out, bs, 2)
      if r.2.2 ≠ 0 then (r.1, r.2.2)
      else if h % 2 = 1 then (r.1, 0)
      else infBlocks total fuel r.2.1 r.1

/-- Inflate a zlib stream (RFC 1950): the bytes decoded and how it ended. -/
def zlibInflate (b : List Nat) : List Nat × InfEnd :=
  match b with
  | cmf :: flg :: r =>
    if cmf % 16 ≠ 8 ∨ 7 < cmf / 16 ∨ (256 * cmf + flg) % 31 ≠ 0 ∨ flg / 32 % 2 = 1 then ([], 2)
    else
      let bs := toBits r
      let q := infBlocks (bs.length + 1) (bs.length + 1) bs []
      (q.1.reverse, q.2)
  | _ => ([], 3)

end Sys2Proof.Machine
end

