-- ==== Sys2Proof/Machine/Artwork.lean ====
section
/-!
DEFINITION. The reference artwork decoder, the dictionaries and the tokenizer (R159-R168).
-/

namespace Sys2Proof.Machine

/-- A decoded image, or why there is none: width, height, channels, bytes per channel, rows of bytes as laid out, damage records as
x0, y0, width, height and cause. -/
structure ArtImage where
  width : Nat := 0
  height : Nat := 0
  px : Nat := 1
  rows : List (List Nat) := []
  damage : List (List Nat) := []
deriving DecidableEq, Repr

/-! ### PNG (R160, R162, R163) -/

/-- A chunk: type, data, and whether its CRC holds and it is whole. -/
structure PngChunk where
  ty : Nat := 0
  data : List Nat := []
  crcOk : Bool := true
  whole : Bool := true
deriving DecidableEq, Repr

/-- The chunks up to `IEND` or the end of the file. -/
def pngChunks : Nat → List Nat → List PngChunk
  | 0, _ => []
  | fuel + 1, b =>
    if b.length < 8 then []
    else
      let n := beNat (b.take 4)
      let ty := beNat ((b.drop 4).take 4)
      let c : PngChunk :=
        { ty := ty, data := (b.drop 8).take n, whole := decide (12 + n ≤ b.length)
          crcOk := beNat ((b.drop (8 + n)).take 4) == crc32 ((b.drop 4).take (4 + n)) }
      if ty = 0x49454E44 ∨ !c.whole then [c] else c :: pngChunks fuel (b.drop (12 + n))

/-- Undo a filter on one row: `bpp` bytes per pixel, the row above, the filtered bytes (R160); the output is newest first. -/
def unfilter (ft bpp : Nat) (up : List Nat) (raw : List Nat) : List Nat :=
  let r := ((List.range raw.length).zip raw).foldl (fun (q : List Nat × List Nat × List Nat) e =>
    let a := q.1.getD (bpp - 1) 0
    let b := q.2.1.headD 0
    let c := q.2.2.getD (bpp - 1) 0
    let p := (a : Int) + b - c
    let pa := (p - a).natAbs
    let pb := (p - b).natAbs
    let pc := (p - c).natAbs
    let pred := if ft = 0 then 0 else if ft = 1 then a else if ft = 2 then b else if ft = 3 then (a + b) / 2
      else if pa ≤ pb ∧ pa ≤ pc then a else if pb ≤ pc then b else c
    (((e.2 + pred) % 256) :: q.1, q.2.1.tail, b :: q.2.2)) ([], up, [])
  r.1.reverse

/-- The rows of an inflated image, until the data ends or a filter byte is above 4. -/
def pngRows (bpp rb : Nat) : Nat → List Nat → List Nat → List (List Nat) × Bool
  | 0, _, _ => ([], false)
  | n + 1, up, b =>
    match b with
    | [] => ([], false)
    | ft :: r =>
      if 4 < ft then ([], true)
      else if r.length < rb then ([], false)
      else
        let row := unfilter ft bpp up (r.take rb)
        let q := pngRows bpp rb n row (r.drop rb)
        (row :: q.1, q.2)

/-- Big-endian 16-bit samples as they are laid out, little-endian. -/
def swap16 (l : List Nat) : List Nat := (pixelsOf 2 l).flatMap List.reverse

/-- Decode a PNG file: the status and the image. -/
def decodePng (limit cap : Nat) (b : List Nat) : Nat × ArtImage :=
  let cs := pngChunks b.length (b.drop 8)
  match cs with
  | h :: rest =>
    let w := beNat (h.data.take 4)
    let ht := beNat ((h.data.drop 4).take 4)
    let depth := nth 0 h.data 8
    let ct := nth 0 h.data 9
    let known (c : PngChunk) : Bool := c.ty == 0x504C5445 || c.ty == 0x49444154 || c.ty == 0x49454E44 || c.ty / 2 ^ 29 % 2 == 1
    if b.take 8 ≠ [0x89, 0x50, 0x4E, 0x47, 0x0D, 0x0A, 0x1A, 0x0A] ∨ h.ty ≠ 0x49484452 ∨ h.data.length ≠ 13 ∨ !h.crcOk ∨
        w = 0 ∨ ht = 0 ∨ (depth ≠ 8 ∧ depth ≠ 16) ∨ (ct ≠ 0 ∧ ct ≠ 2) ∨ (h.data.drop 10) ≠ [0, 0, 0] ∨ !rest.all known then
      (0x0506, {})
    else
      let px := (if ct = 2 then 3 else 1) * (depth / 8)
      let rb := w * px
      let idat := rest.filter (fun c => c.ty == 0x49444154)
      let sum := (idat.map (fun c => c.data.length)).foldl (· + ·) 0
      if 1032 * sum < w * ht ∨ limit < w ∨ limit < ht ∨ cap < ht * up64 rb then (0x0501, {})
      else
        let good := idat.takeWhile (fun c => c.crcOk || !c.whole)
        let crcBad := decide (good.length < idat.length)
        let z := zlibInflate (good.flatMap (·.data))
        let r := pngRows px rb ht [] z.1
        let rows := if depth = 16 then r.1.map swap16 else r.1
        let n := rows.length
        if n = ht then (0, { width := w, height := ht, px := px, rows := rows })
        else
          let cause := if r.2 then 2 else if z.2 = 2 then 2 else if crcBad then 1 else 3
          let fill := rows.getLast?.getD (List.replicate rb 0)
          (0x0502, { width := w, height := ht, px := px, rows := rows ++ List.replicate (ht - n) fill
                     damage := [[0, n, w, ht - n, cause]] })
  | [] => (0x0506, {})

/-! ### The run-length tile format (R161-R163) -/

/-- The pixels of a tile's code: at most `want`; the cause of damage, 0 for none. -/
def tilePixels (px want : Nat) : Nat → List Nat → List (List Nat) → List (List Nat) × Nat
  | 0, _, acc => (acc, 3)
  | fuel + 1, b, acc =>
    if acc.length = want then (acc, if b.isEmpty then 0 else 2)
    else match b with
      | [] => (acc, 3)
      | c :: r =>
        let n := if c < 128 then c + 1 else c - 126
        let need := if c < 128 then px * n else px
        if want < acc.length + n then (acc, 2)
        else if r.length < need then (acc, 3)
        else tilePixels px want fuel (r.drop need)
          (acc ++ (if c < 128 then chunks px n (r.take need) else List.replicate n (r.take px)))

/-- Tile `k` of a file: its pixels, or the cause of its damage. -/
def tileOf (b : List Nat) (px want k : Nat) : Except Nat (List (List Nat)) :=
  let off := leAt b (0x40 + 8 * k) 4
  let len := leAt b (0x44 + 8 * k) 4
  if b.length < 0x48 + 8 * k ∨ b.length < off + len ∨ len < 4 then .error 4
  else
    let code := (b.drop (off + 4)).take (len - 4)
    if crc32 code ≠ leAt b off 4 then .error 1
    else
      let r := tilePixels px want (code.length + 1) code []
      if r.2 = 0 then .ok r.1 else .error r.2

/-- One row of tiles: the pixel rows, given the last pixel row of the tile row above, and the damage. -/
def tileRow (b : List Nat) (w ht px across ty : Nat) (above : Option (List Nat)) : List (List Nat) × List (List Nat) :=
  let th := min 64 (ht - 64 * ty)
  let ts := (List.range across).map (fun tx =>
    let tw := min 64 (w - 64 * tx)
    match tileOf b px (tw * th) (ty * across + tx) with
    | .ok p => ((chunks tw th p).map List.flatten, ([] : List (List Nat)))
    | .error c =>
      let fill := match above with
        | some a => (a.drop (64 * tx * px)).take (tw * px)
        | none => List.replicate (tw * px) 0
      (List.replicate th fill, [[64 * tx, 64 * ty, tw, th, c]]))
  ((List.range th).map (fun y => ts.flatMap (fun t => nth [] t.1 y)), ts.flatMap Prod.snd)

/-- Decode a file in the tile format: the status and the image. -/
def decodeTiles (limit cap : Nat) (b : List Nat) : Nat × ArtImage :=
  let ch := leAt b 6 1
  let bp := leAt b 7 1
  let w := leAt b 8 4
  let ht := leAt b 0x0C 4
  if b.length < 64 ∨ leAt b 0 4 ≠ 0x544C5247 ∨ leAt b 4 2 ≠ 1 ∨ (ch ≠ 1 ∧ ch ≠ 3) ∨ (bp ≠ 8 ∧ bp ≠ 16) ∨ w = 0 ∨ ht = 0 ∨
      !zeroAt b 0x10 48 then (0x0506, {})
  else
    let px := ch * (bp / 8)
    if 65 * b.length < w * ht ∨ limit < w ∨ limit < ht ∨ cap < ht * up64 (w * px) then (0x0501, {})
    else
      let across := ceilDiv w 64
      let r := (List.range (ceilDiv ht 64)).foldl (fun (q : List (List Nat) × List (List Nat)) ty =>
        let t := tileRow b w ht px across ty (if ty = 0 then none else q.1.getLast?)
        (q.1 ++ t.1, q.2 ++ t.2)) ([], [])
      (if r.2.isEmpty then 0 else 0x0502, { width := w, height := ht, px := px, rows := r.1, damage := r.2 })

/-! ### The decoder's commands (R159, R163) -/

/-- Show the number of queued descriptors. -/
def State.artCount (s : State) : State := s.wr bTAN TAN_ART_STAT_QUEUED s.tan.art.length

/-- TAN_ART_DB: a write `v` of the low half queues the descriptor whose address's high half was written before (R159). -/
def execTanArtDb (t i v : Nat) (s : State) : Host.Outcome State Fault Refusal :=
  let s := s.at t
  .next (if !s.regAllowed i true bTAN 0x404 then s.deny i true (regBase + bTAN * 0x100000 + 0x404)
  else if !s.domOn bTAN then s
  else if 4 ≤ s.tan.art.length then s.wr bTAN TAN_ART_STAT_DB_LOST 1
  else (s.setTan { s.tan with art := s.tan.art ++ [v % 4294967296 + 4294967296 * s.rd bTAN TAN_ART_DB_HI] }).artCount)

/-- The 32 bytes of a damage record. -/
def damageBytes (d : List Nat) : List Nat :=
  (d.take 4).flatMap (leBytes 4) ++ leBytes 2 (nth 0 d 4) ++ List.replicate 14 0

/-- Complete a decode in its descriptor at `a`. -/
def State.artStatus (s : State) (a st : Nat) (im : ArtImage) : State :=
  s.putAs iTAN (a + 0x2A) (leBytes 2 st ++ leBytes 4 im.damage.length ++ leBytes 4 im.width ++ leBytes 4 im.height ++
    leBytes 4 (up64 (im.width * im.px)))

/-- Run the descriptor at `a` (R159-R163). -/
def State.artRun (s : State) (a : Nat) : State :=
  let d := s.hwRead iTAN a 64
  let s := d.1
  let b := d.2.2
  if d.2.1 ≠ 0 then s
  else if 1 < leAt b 0x0C 1 ∨ !zeroAt b 0x0D 3 ∨ leAt b 0x10 8 % 64 ≠ 0 ∨ 1024 < leAt b 0x28 2 ∨ !zeroAt b 0x3C 4 then
    s.artStatus a 0x0506 {}
  else
    let f := s.hwRead iTAN (leAt b 0 8) (leAt b 8 4)
    let s := f.1
    if f.2.1 ≠ 0 then s.artStatus a f.2.1 {}
    else
      let lim := s.rd bTAN TAN_ART_LIMIT
      let r := if leAt b 0x0C 1 = 0 then decodePng lim (leAt b 0x18 8) f.2.2 else decodeTiles lim (leAt b 0x18 8) f.2.2
      let im := r.2
      let pitch := up64 (im.width * im.px)
      let dst := leAt b 0x10 8
      let out := im.rows.flatMap (fun row => row ++ List.replicate (pitch - row.length) 0)
      let s := if out.isEmpty then s else s.putAs iTAN dst out
      let dm := (im.damage.take (leAt b 0x28 2)).flatMap damageBytes
      let s := if dm.isEmpty then s else s.putAs iTAN (leAt b 0x20 8) dm
      let s := if r.1 = 0 then s.setTan { s.tan with artOk := a :: s.tan.artOk } else s
      s.artStatus a r.1 im

/-- DECODE_DONE: the oldest queued decode completes (R163). -/
def execDecodeDone (t : Nat) (s : State) : Host.Outcome State Fault Refusal :=
  let s := s.at t
  .next (match s.tan.art with
  | a :: r =>
    if s.runs bTAN then
      ((s.setTan { s.tan with art := r, artOk := s.tan.artOk.filter (· != a) }).artRun a).artCount
    else s
  | [] => s)

/-! ### Dictionaries (R165) -/

/-- Whether one byte string stands before another in unsigned order. -/
def lexLt : List Nat → List Nat → Bool
  | [], [] => false
  | [], _ :: _ => true
  | _ :: _, [] => false
  | a :: r, b :: q => decide (a < b) || (a == b && lexLt r q)

/-- Whether a list of strings rises strictly. -/
def rising : List (List Nat) → Bool
  | a :: b :: r => lexLt a b && rising (b :: r)
  | _ => true

/-- The dictionary in a list of bytes, or none when it breaks a rule of R165. -/
def parseDict (b : List Nat) : Option (List (List Nat × Nat)) :=
  let long := leAt b 6 1
  let n := leAt b 8 4
  let area := (b.drop (0x20 + 8 * n)).take (leAt b 0x0C 4)
  let es := (List.range n).map (fun k =>
    let e := (b.drop (0x20 + 8 * k)).take 8
    (e, (area.drop (leAt e 0 4)).take (leAt e 4 1), leAt e 6 2))
  if leAt b 0 4 = 0x54445247 ∧ leAt b 4 2 = 1 ∧ 1 ≤ long ∧ long ≤ 32 ∧ leAt b 7 1 = 0 ∧ 1 ≤ n ∧ n ≤ 65532 ∧
      leAt b 0x0C 4 ≤ 1048576 ∧ zeroAt b 0x10 16 ∧ area.length = leAt b 0x0C 4 ∧
      es.all (fun e => decide (1 ≤ leAt e.1 4 1) && decide (leAt e.1 4 1 ≤ long) && leAt e.1 5 1 == 0 &&
        decide (leAt e.1 0 4 + leAt e.1 4 1 ≤ area.length) && decide (4 ≤ e.2.2)) ∧
      rising (es.map (fun e => e.2.1)) ∧ (es.map (fun e => e.2.2)).Nodup then
    some (es.map (fun e => (e.2.1, e.2.2)))
  else none

/-- TAN_DICT_LOAD: a write `v` by initiator `i` (R165). -/
def execTanDictLoad (t i v : Nat) (s : State) : Host.Outcome State Fault Refusal :=
  let s := s.at t
  .next (if !s.regAllowed i true bTAN 0x580 then s.deny i true (regBase + bTAN * 0x100000 + 0x580)
  else if !s.domOn bTAN ∨ s.rd bTAN TAN_DICT_LOAD_BUSY = 1 then s
  else
    let k := bits v 0 4
    let s := s.wr bTAN TAN_DICT_LOAD_SLOT k
    if bit v 4 = 1 ∧ s.runs bTAN then
      (s.setTan { s.tan with loading := some (s.rd64 bTAN (TAN_DICT_ADDR_LO k) (TAN_DICT_ADDR_HI k), k) }).wr bTAN
        TAN_DICT_LOAD_BUSY 1
    else s)

/-- DICT_LOAD_DONE: the load ends (R165). -/
def execDictLoadDone (t : Nat) (s : State) : Host.Outcome State Fault Refusal :=
  let s := s.at t
  .next (match s.tan.loading with
  | some (a, k) =>
    let s := (s.setTan { s.tan with loading := none }).wr bTAN TAN_DICT_LOAD_BUSY 0
    let h := s.hwRead iTAN a 0x20
    let s := h.1
    let n := leAt h.2.2 8 4
    let len := 0x20 + 8 * n + leAt h.2.2 0x0C 4
    if h.2.1 ≠ 0 then s.wr bTAN TAN_DICT_LOAD_LOAD_STATUS h.2.1
    else if 65532 < n ∨ 1048576 < leAt h.2.2 0x0C 4 then s.wr bTAN TAN_DICT_LOAD_LOAD_STATUS 0x0506
    else
      let r := s.hwRead iTAN a len
      let s := r.1
      if r.2.1 ≠ 0 then s.wr bTAN TAN_DICT_LOAD_LOAD_STATUS r.2.1
      else match parseDict r.2.2 with
        | some d =>
          let s := s.setTan { s.tan with dicts := Store.put [] s.tan.dicts k d }
          (s.wr bTAN TAN_DICT_VALID ((s.rd bTAN TAN_DICT_VALID).lor (2 ^ k))).wr bTAN TAN_DICT_LOAD_LOAD_STATUS 0
        | none => s.wr bTAN TAN_DICT_LOAD_LOAD_STATUS 0x0506
  | none => s)

/-! ### The tokenizer (R166-R168) -/

/-- The longest entry that the text begins with, as its length and token. -/
def longestMatch (d : List (List Nat × Nat)) (b : List Nat) : Option (Nat × Nat) :=
  d.foldl (fun (best : Option (Nat × Nat)) e =>
    if e.1.isPrefixOf b then
      match best with
      | some q => if q.1 < e.1.length then some (e.1.length, e.2) else best
      | none => some (e.1.length, e.2)
    else best) none

/-- The tokens between `BOS` and `EOS`. -/
def tokenGo (d : List (List Nat × Nat)) : Nat → List Nat → List Nat
  | 0, _ => []
  | fuel + 1, b =>
    if b.isEmpty then []
    else match longestMatch d b with
      | some (n, tok) => tok :: tokenGo d fuel (b.drop n)
      | none => 3 :: tokenGo d fuel b.tail

/-- The tokens of a text (R166): 1 `BOS`, the tokens with 3 for `UNK`, 2 `EOS`. -/
def tokenize (d : List (List Nat × Nat)) (b : List Nat) : List Nat := 1 :: tokenGo d b.length b ++ [2]

/-- The size of the text queue in bytes. -/
def State.txtSize (s : State) : Nat := s.rd bTAN TAN_TXTQ_SIZE * 1024

/-- TAN_TXTQ_WR: the producer's write offset (R168). -/
def execTanTxtqWr (t i v : Nat) (s : State) : Host.Outcome State Fault Refusal :=
  let s := s.at t
  .next (if !s.regAllowed i true bTAN 0x60C then s.deny i true (regBase + bTAN * 0x100000 + 0x60C)
  else if !s.domOn bTAN then s
  else s.wr bTAN TAN_TXTQ_WR v)

/-- Commit the token batch of a text record (R166, R167). -/
def State.textBatch (s : State) (part line slot : Nat) (txt : List Nat) : State :=
  let toks := tokenize (Store.get [] s.tan.dicts slot) txt
  let long := decide (1024 < toks.length)
  let s := if long then s.inc bTAN TAN_CNT_TXT_LONG
    else s.inc bTAN TAN_CNT_UNK ((toks.filter (· == 3)).length)
  let data := if long then [] else toks.flatMap (leBytes 2)
  let p := if (s.slotOfPart 0 part).isNone ∧ (s.slotOfPart 1 part).isSome then 1 else 0
  let dl := match s.slotOfPart p part with
    | some (_, x) => x.deadline
    | none => 0
  let f1 := leBytes 4 part ++ leBytes 4 line ++ leBytes 2 0 ++ leBytes 2 1
  let f2 := leBytes 4 data.length ++ leBytes 4 data.length ++ leBytes 8 (toCode 64 dl) ++
    leBytes 2 (if long then 0x0501 else 0) ++ [5, p, 0] ++ leBytes 3 0 ++
    leBytes 4 (s.tbSec % 4294967296) ++ leBytes 4 s.tbNs ++ List.replicate 8 0
  (s.ringCommit f1 f2 data).1

/-- TEXT_RECORD: the tokenizer takes the next record of the text queue (R166-R168). -/
def execTextRecord (t : Nat) (s : State) : Host.Outcome State Fault Refusal :=
  let s := s.at t
  let size := s.txtSize
  let base := s.rd64 bTAN TAN_TXTQ_BASE_LO TAN_TXTQ_BASE_HI
  .next (if !s.runs bTAN ∨ size = 0 ∨ s.rd bTAN TAN_TXTQ_RD = s.rd bTAN TAN_TXTQ_WR then s
  else
    let rd := if size < s.rd bTAN TAN_TXTQ_RD + 16 then 0 else s.rd bTAN TAN_TXTQ_RD
    let s := s.wr bTAN TAN_TXTQ_RD rd
    if rd = s.rd bTAN TAN_TXTQ_WR then s
    else
      let h := s.hwRead iTAN (base + rd) 16
      let s := h.1
      let n := leAt h.2.2 0x0A 2
      let slot := leAt h.2.2 8 1
      if n = 0xFFFF then s.wr bTAN TAN_TXTQ_RD 0
      else
        let next := (rd + 16 + (n + 7) / 8 * 8) % size
        let s := s.wr bTAN TAN_TXTQ_RD next
        if h.2.1 ≠ 0 ∨ 4096 < n ∨ 16 ≤ slot ∨ bit (s.rd bTAN TAN_DICT_VALID) slot = 0 then s
        else
          let b := s.hwRead iTAN (base + rd + 16) n
          if n ≠ 0 ∧ b.2.1 ≠ 0 then b.1
          else b.1.textBatch (leAt h.2.2 0 4) (leAt h.2.2 4 4) slot (if n = 0 then [] else b.2.2))

end Sys2Proof.Machine
end

