-- ==== Sys2Proof/Machine/Convolution.lean ====
section
/-!
DEFINITION. The fused convolution (R286-R294).
-/

namespace Sys2Proof.Machine

/-- A convolution parameter block (R286). -/
structure Conv where
  fmt : Nat
  ofmt : Nat
  rowpack : Bool
  bias : Bool
  resid : Bool
  kh : Nat
  kw : Nat
  sy : Nat
  sx : Nat
  dy : Nat
  dx : Nat
  pt : Nat
  pb : Nat
  pl : Nat
  pr : Nat
  g : Nat
  hi : Nat
  wi : Nat
  ci : Nat
  co : Nat
  inA : Nat
  inP : Nat
  pad : Nat
  act : Nat
  q : Nat
  outP : Nat
  wA : Nat
  outA : Nat
  biasA : Nat
  scaleA : Nat
  resA : Nat
  resP : Nat
  resF : Nat
  resK : Nat
  slope : Nat
  lo : Nat
  hic : Nat
  zp : Nat
deriving DecidableEq, Repr

/-- Output size of R287 along one axis. -/
def outSize (i p0 p1 d k st : Nat) : Nat := if i + p0 + p1 < d * (k - 1) + 1 then 0 else (i + p0 + p1 - d * (k - 1) - 1) / st + 1

def Conv.w (c : Conv) : Nat := mmaBits c.fmt
def Conv.k (c : Conv) : Nat := mmaK c.fmt
def Conv.isInt (c : Conv) : Bool := decide (c.fmt ≤ 1)
def Conv.raw (c : Conv) : Bool := decide (4 ≤ c.ofmt)
def Conv.ho (c : Conv) : Nat := outSize c.hi c.pt c.pb c.dy c.kh c.sy
def Conv.wo (c : Conv) : Nat := outSize c.wi c.pl c.pr c.dx c.kw c.sx
def Conv.cg (c : Conv) : Nat := c.ci / c.g
def Conv.og (c : Conv) : Nat := c.co / c.g
def Conv.nch (c : Conv) : Nat := (c.cg + c.k - 1) / c.k
/-- The slices of one output pixel and group (R288). -/
def Conv.slices (c : Conv) : Nat := if c.rowpack then c.kh else c.kh * c.kw * c.nch
/-- The slices of a chunk and the number of chunks (R289). -/
def Conv.chunk (c : Conv) : Nat := if c.q = 0 then c.slices else min c.q c.slices
def Conv.chunks (c : Conv) : Nat := if c.q = 0 then 1 else (c.slices + c.q - 1) / c.q
/-- Whether the command runs in the vector engine (R290). -/
def Conv.depthwise (c : Conv) : Bool := c.g == c.ci && c.g == c.co
def Conv.blocks (c : Conv) : Nat := (c.og + 63) / 64
/-- The work of a tile of `p` blocks (R292). -/
def Conv.work (c : Conv) (p : Nat) : Nat := 16 + p * (c.chunk * mmaCost c.fmt + 64)
/-- The blocks of a tile, or 0 when one is too much. -/
def Conv.p (c : Conv) : Nat := ((List.range 9).filter (fun p => decide (1 ≤ p) && decide (c.work p ≤ 1280))).foldl max 0
/-- The output pixels of a vector-engine tile. -/
def Conv.n (c : Conv) : Nat := 1264 / (c.kh * c.kw + 1)
/-- The bytes of the input window at one block (R292). -/
def Conv.window (c : Conv) : Nat :=
  rowBytes (((c.kh - 1) * c.dy + 1) * (63 * c.sx + (c.kw - 1) * c.dx + 1) *
    (if c.q = 0 ∨ c.rowpack then c.cg else min c.cg (c.q * c.k))) c.w

/-- The fields of a parameter block. -/
def convOf (p : List Nat) : Conv :=
  { fmt := pf p 1 1, ofmt := pf p 2 1, rowpack := bit (pf p 3 1) 0 == 1, bias := bit (pf p 3 1) 1 == 1, resid := bit (pf p 3 1) 2 == 1
    kh := pf p 4 1, kw := pf p 5 1, sy := pf p 6 1, sx := pf p 7 1, dy := pf p 8 1, dx := pf p 9 1
    pt := pf p 0xA 1, pb := pf p 0xB 1, pl := pf p 0xC 1, pr := pf p 0xD 1, g := pf p 0xE 2, hi := pf p 0x10 2, wi := pf p 0x12 2
    ci := pf p 0x14 2, co := pf p 0x16 2, inA := pf p 0x18 8, inP := pf p 0x20 4, pad := pf p 0x24 2, act := pf p 0x26 1
    q := pf p 0x27 1, outP := pf p 0x28 4, wA := pf p 0x30 8, outA := pf p 0x38 8, biasA := pf p 0x40 8, scaleA := pf p 0x48 8
    resA := pf p 0x50 8, resP := pf p 0x58 4, resF := pf p 0x5C 1, resK := pf p 0x60 4, slope := pf p 0x64 4, lo := pf p 0x68 4
    hic := pf p 0x6C 4, zp := pf p 0x70 4 }

/-- A value from `lo` to `hi`. -/
def within (lo hi n : Nat) : Bool := decide (lo ≤ n) && decide (n ≤ hi)

/-- Whether the fields of a convolution keep their limits (R286-R292). -/
def convOk (p : List Nat) : Bool :=
  let c := convOf p
  pf p 0 1 == 1 && within 0 9 c.fmt && within 0 5 c.ofmt && decide (pf p 3 1 < 8) && within 1 15 c.kh && within 1 15 c.kw &&
  within 1 15 c.sy && within 1 15 c.sx && within 1 16 c.dy && within 1 16 c.dx && within 0 15 c.pt && within 0 15 c.pb &&
  within 0 15 c.pl && within 0 15 c.pr && within 1 65535 c.hi && within 1 16384 c.wi && within 1 4096 c.ci && within 1 4096 c.co &&
  decide (1 ≤ c.g) && c.ci % c.g == 0 && c.co % c.g == 0 && within 0 3 c.act && within 0 3 c.resF &&
  pz p 0x2C 4 && pz p 0x5D 3 && pz p 0x74 12 &&
  (c.ofmt != 4 || c.isInt) && (c.ofmt != 5 || !c.isInt) && decide (1 ≤ c.ho) && decide (1 ≤ c.wo) &&
  (!c.rowpack || decide (c.cg * c.kw ≤ c.k)) && (c.q == 0 || c.raw) &&
  pitchOk c.inP (c.wi * c.ci) c.w && pitchOk c.outP (c.wo * c.co) (outBits c.ofmt) &&
  (!c.resid || pitchOk c.resP (c.wo * c.co) (outBits c.resF)) &&
  (if c.depthwise then !c.rowpack && c.q == 0 else decide (1 ≤ c.p) && decide (c.window ≤ 2097152))

/-- Whether the tensors of a convolution lie in segments; the input and the output are asked for only where they lie in memory, and a
residual likewise. -/
def Conv.tensorsOk (c : Conv) (g : List (List Nat)) (inp out res : Bool) : Bool :=
  (!inp || tensorOk g false c.inA (tensorBytes c.hi (c.wi * c.ci) c.inP c.w)) &&
  (!out || tensorOk g true c.outA (tensorBytes (c.chunks * c.ho) (c.wo * c.co) c.outP (outBits c.ofmt))) &&
  tensorOk g false c.wA (c.g * c.blocks * c.slices * panelBytes c.fmt) &&
  (c.raw || (tensorOk g false c.scaleA (4 * c.co) && (!c.bias || tensorOk g false c.biasA (4 * c.co)) &&
    (!(c.resid && res) || tensorOk g false c.resA (tensorBytes c.ho (c.wo * c.co) c.resP (outBits c.resF)))))

/-! ### One lane (R288-R290) -/

/-- The tap and channel that element `k` of slice `i` carries (R288). -/
def Conv.tap (c : Conv) (i k : Nat) : Option (Nat × Nat × Nat) :=
  if c.rowpack then (if k < c.cg * c.kw then some (i, k / c.cg, k % c.cg) else none)
  else
    let ch := i % c.nch * c.k + k
    if ch < c.cg then some (i / c.nch / c.kw, i / c.nch % c.kw, ch) else none

/-- The input element of a tap for output pixel (yo, xo), with the pad element outside (R287). -/
def Conv.input (c : Conv) (inp : Nat → Nat → Nat → Nat) (yo xo ky kx ch : Nat) : Nat :=
  let y := yo * c.sy + ky * c.dy
  let x := xo * c.sx + kx * c.dx
  if c.pt ≤ y ∧ y - c.pt < c.hi ∧ c.pl ≤ x ∧ x - c.pl < c.wi then inp (y - c.pt) (x - c.pl) ch else c.pad % 2 ^ c.w

/-- Where the B panel of group `g`, block `blk`, slice `i` lies (R294). -/
def Conv.panelAt (c : Conv) (g blk i : Nat) : Nat := c.wA + ((g * c.blocks + blk) * c.slices + i) * panelBytes c.fmt

/-- The A elements of a slice for one output pixel. -/
def Conv.sliceA (c : Conv) (inp : Nat → Nat → Nat → Nat) (g yo xo i : Nat) : List Nat :=
  (List.range c.k).map (fun k => match c.tap i k with
    | some (ky, kx, ch) => c.input inp yo xo ky kx (g * c.cg + ch)
    | none => 0)

/-- The B elements of a slice for one output channel: those that carry no channel are 0. -/
def Conv.sliceB (c : Conv) (s : State) (g blk j i : Nat) : List Nat :=
  ((panelRow c.fmt (s.bytes (c.panelAt g blk i) 4096) j).zipIdx).map (fun e => if (c.tap i e.2).isSome then e.1 else 0)

/-- The block exponents of a slice of an SX activation, which R284 gives no place: open values. -/
def Conv.expA (c : Conv) (g yo xo i : Nat) : List Nat :=
  (List.range (c.k / 32)).map (fun b => (Config.sxActExp [c.inA, g, yo, xo, i, b]).toNat)

/-- The block exponents of a B panel. -/
def Conv.expB (c : Conv) (s : State) (g blk j i : Nat) : List Nat :=
  if mmaSx c.fmt then s.bytes (c.panelAt g blk i + 4096 + c.k / 32 * j) (c.k / 32) else []

/-- The lane sum of chunk `ck` for output pixel (yo, xo) and channel `oc` (R289). -/
def Conv.lane (c : Conv) (s : State) (inp : Nat → Nat → Nat → Nat) (ck yo xo oc : Nat) : Nat :=
  let g := oc / c.og
  let blk := oc % c.og / 64
  let j := oc % c.og % 64
  let i0 := ck * c.chunk
  let n := min c.chunk (c.slices - i0)
  (List.range n).foldl (fun old m =>
    let i := i0 + m
    let ea := if mmaSx c.fmt then c.expA g yo xo i else []
    (mmaLane c.fmt (m == 0) old (c.sliceA inp g yo xo i) (c.sliceB s g blk j i) ea (c.expB s g blk j i)).1) 0

/-- An operand element in FP32: the A side of a format, or its B side. -/
def convWiden (fmt : Nat) (a : Bool) (v e : Nat) : Nat :=
  if mmaSx fmt then (if e = 255 then nan32 else
    (fpRound fp32 false (decide (sext (mmaBits fmt) v < 0)) (sext (mmaBits fmt) v).natAbs ((e : Int) - 127)).1)
  else (fpEncode fp32 false (fpDecode (if a then mmaFmtA fmt else mmaFmtB fmt) v)).1

/-- The sum of a depthwise output element (R290). -/
def Conv.vlane (c : Conv) (s : State) (inp : Nat → Nat → Nat → Nat) (yo xo oc : Nat) : Nat :=
  (List.range (c.kh * c.kw)).foldl (fun acc i =>
    let a := c.input inp yo xo (i / c.kw) (i % c.kw) oc
    let b := (c.sliceB s oc 0 0 i).headD 0
    if c.isInt then toCode 32 (sext 32 acc + sext c.w a * sext c.w b)
    else (fpFma fp32 (convWiden c.fmt true a ((c.expA oc yo xo i).headD 0)) (convWiden c.fmt false b ((c.expB s oc 0 0 i).headD 0)) acc).1) 0

/-! ### The output path (R291) -/

/-- Activations (R291 step 7). -/
def Conv.activate (c : Conv) (v : Nat) : Nat :=
  if c.act = 1 then fpMax v 0
  else if c.act = 2 then (if fpLt (fpDecode fp32 v) (.fin false 0 0) then (fpMul fp32 v c.slope).1 else v)
  else if c.act = 3 then fpMin (fpMax v c.lo) c.hic
  else v

/-- Steps 3 to 8 of the output path for a sum `v`, INT32 where `int`, of channel `oc` with its residual element, to format `f`. -/
def Conv.outPath (c : Conv) (s : State) (int : Bool) (f oc res v : Nat) : Nat :=
  let b := s.readLE (c.biasA + 4 * oc) 4
  let v := if c.bias then (if int then (v + b) % 2 ^ 32 else (fpAdd fp32 v b).1) else v
  let v := if int then (fpOfInt fp32 (sext 32 v)).1 else v
  let v := (fpMul fp32 v (s.readLE (c.scaleA + 4 * oc) 4)).1
  let v := if c.resid then (fpAdd fp32 v (fpMul fp32 (widenF c.resF res) c.resK).1).1 else v
  let v := c.activate v
  toFormat f (if f = 0 then (fpAdd fp32 v (fpOfInt fp32 (sext 32 c.zp)).1).1 else v)

/-- The output element of chunk `ck` at (yo, xo, oc), with the input and the residual read through functions. -/
def Conv.out (c : Conv) (s : State) (inp res : Nat → Nat → Nat → Nat) (ck yo xo oc : Nat) : Nat :=
  let v := if c.depthwise then c.vlane s inp yo xo oc else c.lane s inp ck yo xo oc
  if c.raw then v else c.outPath s c.isInt c.ofmt oc (if c.resid then res yo xo oc else 0) v

/-! ### Tiles (R292, R293) -/

/-- Tiles along a row. -/
def Conv.across (c : Conv) : Nat := if c.depthwise then (c.wo + c.n - 1) / c.n else ((c.wo + 63) / 64 + c.p - 1) / c.p

/-- The number of tiles. -/
def Conv.tiles (c : Conv) : Nat :=
  if c.depthwise then (c.co + 63) / 64 * c.ho * c.across else c.g * c.blocks * c.chunks * c.ho * c.across

/-- Tile `t`: its output channels from and to, chunk, row, and columns from and to (R293). -/
def Conv.tile (c : Conv) (t : Nat) : Nat × Nat × Nat × Nat × Nat × Nat :=
  let pos := t % c.across
  let yo := t / c.across % c.ho
  let r := t / c.across / c.ho
  if c.depthwise then (64 * r, min c.co (64 * r + 64), 0, yo, pos * c.n, min c.wo ((pos + 1) * c.n))
  else
    let ck := r % c.chunks
    let blk := r / c.chunks % c.blocks
    let g := r / c.chunks / c.blocks
    (g * c.og + 64 * blk, g * c.og + min c.og (64 * blk + 64), ck, yo, pos * c.p * 64, min c.wo ((pos + 1) * c.p * 64))

/-- The range of memory of `n` elements from element `i` on. -/
def elemRange (a i n w : Nat) : Nat × Nat := (a + i * w / 8, (i * w + n * w + 7) / 8 - i * w / 8)

/-- The output columns that a tile computes: whole blocks of 64, also past the edge (R292); a vector-engine tile's pixels. -/
def Conv.cols (c : Conv) (t : Nat) : Nat × Nat :=
  let e := c.tile t
  if c.depthwise then (e.2.2.2.2.1, e.2.2.2.2.2) else (e.2.2.2.2.1, min ((c.wo + 63) / 64 * 64) (e.2.2.2.2.1 + 64 * c.p))

/-- What slice `i` reads of the input for the output columns from `x0` to before `x1`: the channels of its taps (R288, R292). -/
def Conv.sliceInput (c : Conv) (c0 n yo x0 x1 i : Nat) : List (Nat × Nat) :=
  let ky := if c.rowpack then i else i / c.nch / c.kw
  let kxs := if c.rowpack then List.range c.kw else [i / c.nch % c.kw]
  let ch := if c.rowpack ∨ c.depthwise then 0 else i % c.nch * c.k
  let m := if c.rowpack ∨ c.depthwise then n else min c.k (n - ch)
  let y := yo * c.sy + ky * c.dy
  if c.pt ≤ y ∧ y - c.pt < c.hi then
    (List.range (x1 - x0)).flatMap (fun xo => kxs.filterMap (fun kx =>
      let x := (x0 + xo) * c.sx + kx * c.dx
      if c.pl ≤ x ∧ x - c.pl < c.wi then some (elemRange (c.inA + (y - c.pt) * c.inP) ((x - c.pl) * c.ci + c0 + ch) m c.w) else none))
  else []

/-- What a tile reads: the input of every slice of its chunk. -/
def Conv.tileInput (c : Conv) (t : Nat) : List (Nat × Nat) :=
  let e := c.tile t
  let x := c.cols t
  if c.depthwise then (List.range (c.kh * c.kw)).flatMap (c.sliceInput e.1 (e.2.1 - e.1) e.2.2.2.1 x.1 x.2)
  else (List.range (min c.chunk (c.slices - e.2.2.1 * c.chunk))).flatMap (fun m =>
    c.sliceInput (e.1 / c.og * c.cg) c.cg e.2.2.2.1 x.1 x.2 (e.2.2.1 * c.chunk + m))

/-- What a tile reads beside its input: panels, biases, scales. -/
def Conv.tileParams (c : Conv) (t : Nat) : List (Nat × Nat) :=
  let e := c.tile t
  let n := e.2.1 - e.1
  let pan := if c.depthwise then
      (List.range n).flatMap (fun j => (List.range c.slices).map (fun i => (c.panelAt (e.1 + j) 0 i, panelBytes c.fmt)))
    else
      let g := e.1 / c.og
      let blk := e.1 % c.og / 64
      (List.range (min c.chunk (c.slices - e.2.2.1 * c.chunk))).map (fun m =>
        (c.panelAt g blk (e.2.2.1 * c.chunk + m), panelBytes c.fmt))
  pan ++ (if c.raw then [] else (c.scaleA + 4 * e.1, 4 * n) :: (if c.bias then [(c.biasA + 4 * e.1, 4 * n)] else []))

/-- The residual elements a tile reads. -/
def Conv.tileResid (c : Conv) (t : Nat) : List (Nat × Nat) :=
  let e := c.tile t
  if c.resid && !c.raw then
    (List.range (e.2.2.2.2.2 - e.2.2.2.2.1)).map (fun x =>
      elemRange (c.resA + e.2.2.2.1 * c.resP) ((e.2.2.2.2.1 + x) * c.co + e.1) (e.2.1 - e.1) (outBits c.resF))
  else []

/-- The input of a convolution in memory. -/
def Conv.memIn (c : Conv) (s : State) (y x ch : Nat) : Nat := s.elem (c.inA + y * c.inP) (x * c.ci + ch) c.w

/-- The residual of a convolution in memory. -/
def Conv.memRes (c : Conv) (s : State) (y x ch : Nat) : Nat := s.elem (c.resA + y * c.resP) (x * c.co + ch) (outBits c.resF)

/-- The stores of a tile: each pixel's channels of its channel block. -/
def Conv.stores (c : Conv) (s : State) (t : Nat) : List (Nat × List Nat) :=
  let e := c.tile t
  let n := outBits c.ofmt / 8
  (List.range (e.2.2.2.2.2 - e.2.2.2.2.1)).map (fun dx =>
    let x := e.2.2.2.2.1 + dx
    (c.outA + (e.2.2.1 * c.ho + e.2.2.2.1) * c.outP + (x * c.co + e.1) * n,
      (List.range (e.2.1 - e.1)).flatMap (fun j =>
        leBytes n (c.out s (c.memIn s) (c.memRes s) e.2.2.1 e.2.2.2.1 x (e.1 + j)))))

/-- The panels of a tile's channel block and chunk: their address and bytes. -/
def Conv.stream (c : Conv) (t : Nat) : Nat × Nat :=
  let e := c.tile t
  if c.depthwise then (c.panelAt e.1 0 0, (e.2.1 - e.1) * c.slices * panelBytes c.fmt)
  else (c.panelAt (e.1 / c.og) (e.1 % c.og / 64) (e.2.2.1 * c.chunk), min c.chunk (c.slices - e.2.2.1 * c.chunk) * panelBytes c.fmt)

/-- Tile `t` of a convolution: it declares its panels as a weight stream and reads (R294). -/
def Conv.body (c : Conv) (t : Nat) : TileBody := fun s cl =>
  let w := c.stream t
  let r := (s.declare cl w.1 w.2).readAll cl (c.tileInput t ++ c.tileParams t ++ c.tileResid t)
  { s := r.1, status := r.2, stores := if r.2 = 0 then c.stores r.1 t else [] }

/-- The convolution that `q` points to starts (R285-R294). -/
def State.startConv (s : State) (q : Nat) : State :=
  s.startFused q 1 (fun s f =>
    let c := convOf f.p
    s.fusedCheck f (convOk f.p) (c.tensorsOk f.segs true true true) (s.beginFused f [] c.tiles))

/-- CONVOLUTION: the fused convolution command that `x` points to starts: its blocks are checked, and its tiles wait for their tile boundaries
(R285-R294, R351). -/
def execConvolution (t x : Nat) (s : State) : Host.Outcome State Fault Refusal := .next ((s.at t).startConv x)

end Sys2Proof.Machine
end

