-- ==== Sys2Proof/Machine/Attention.lean ====
section
/-!
DEFINITION. The projection and the fused attention command (R310-R325).
-/

namespace Sys2Proof.Machine

/-! ### Batch commands -/

/-- What a batch command checks of its segments at its start (R313, R314): the status of each, `0xFFFF` for one to run.  `fmt`, `d` are the
command's, `layer` its layer; `proj` says which command it is. -/
def State.segInit (s : State) (proj : Bool) (fmt d layer : Nat) (l : List (List Nat)) : List Nat :=
  l.zipIdx.map (fun e =>
    let b := e.1
    let x := s.seq (segSeq b)
    let len := Store.get 0 x.lens layer
    if segStanding (pf b 0xA 2) = 3 then pf b 0xA 2
    else if x.state = 0 ∨ (l.take e.2).any (fun c => segSeq c == segSeq b) then 0x0101
    else if x.state = 3 then x.endStatus
    else if s.poolFmt x.pool ≠ fmt ∨ s.poolD x.pool ≠ d ∨ x.pages * 256 < segStart b + segCount b then 0x0101
    else if proj && segStart b != len then 0x0101
    else if !proj && decide (len < segStart b + segCount b) then 0x0101
    else 0xFFFF)

/-- Read a batch descriptor: the status and the entries. -/
def State.readBatch (s : State) (a n : Nat) : State × Nat × List (List Nat) :=
  if dramEnd < a + 32 * n then (s, 0x0802, [])
  else
    let r := s.hwRead iKVC a (32 * n)
    (r.1, r.2.1, (List.range n).map (fun k => (r.2.2.drop (32 * k)).take 32))

/-- Column blocks and row blocks of 64 of a projection segment with `cols` columns (R316). -/
def blocks64 (n : Nat) : Nat := (n + 63) / 64

/-- The number of tiles of a segment: a projection has one for each block of 64 rows and 64 columns, an attention command two for each page
and one that adds the pages up (R316, R321; entry 61). -/
def segTiles (proj : Bool) (cols : Nat) (b : List Nat) : Nat :=
  if proj then blocks64 (segCount b) * blocks64 cols else 2 * segPages b + 1

/-- The tiles of the segments that run, by tile of the segment and then by segment. -/
def batchTiles (proj : Bool) (cols : Nat) (l : List (List Nat)) (sts : List Nat) : List (Nat × Nat) :=
  (List.range ((l.map (segTiles proj cols)).foldl max 0)).flatMap (fun k =>
    (l.zip sts).zipIdx.filterMap (fun e =>
      if e.1.2 = 0xFFFF ∧ k < segTiles proj cols e.1.1 then some (1024 * k + e.2, 1024 * k + e.2 + 1) else none))

/-- A batch command starts: its descriptor is read and checked, and its segments are prepared.  `fields` says whether the parameter block
keeps its limits, `more` what the entries must keep beside R311 and R312, `tensors` whether its tensors lie in segments. -/
def State.startBatch (s : State) (f : Fused) (proj fields : Bool) (fmt d layer n cols : Nat) (more tensors : List (List Nat) → Bool) : State :=
  let x := f.x.ptr
  if !s.kvcOn then s.refuseCmd x 0x0202
  else if !fields then s.refuseCmd x 0x0808
  else
    let r := s.readBatch (pf f.p 0x10 8) n
    let l := r.2.2
    let s := r.1
    if r.2.1 ≠ 0 then s.refuseCmd x r.2.1
    else
      let layers := l.all (fun b => let q := s.seq (segSeq b); q.state == 0 || q.state == 3 || decide (layer < q.layers))
      s.fusedCheck f (batchOk l && layers && more l) (tensors l)
        (let sts := s.segInit proj fmt d layer l
         let refused := ((l.zip sts).filter (fun e => e.2 == 0x0101 && segStanding (pf e.1 0xA 2) != 3)).length
         let s := (s.modCmd x (fun c => { c with
           begun := true, segs := f.segs, par := f.p, lays := l, sts := sts, wait := batchTiles proj cols l sts })).inc bKVC
             KVC_CNT_SEG_REFUSED refused
         (sts.zipIdx.foldl (fun s e => if e.1 = 0xFFFF then s else s.endSegment x e.2 e.1) s).prepare x)

/-! ### Projection (R315, R316, R318) -/

/-- A projection as a convolution of one row of `Din` channels per token (R316). -/
def projConv (p : List Nat) : Conv :=
  { fmt := pf p 1 1, ofmt := 3, rowpack := false, bias := bit (pf p 3 1) 0 == 1, resid := false, kh := 1, kw := 1, sy := 1, sx := 1
    dy := 1, dx := 1, pt := 0, pb := 0, pl := 0, pr := 0, g := 1, hi := 2 ^ 32, wi := 1, ci := pf p 4 2
    co := (pf p 8 1 + 2 * pf p 9 1) * pf p 6 2, inA := pf p 0x18 8, inP := pf p 0x20 4, pad := 0, act := 0, q := 0
    outP := 0, wA := pf p 0x28 8, outA := 0, biasA := pf p 0x30 8, scaleA := pf p 0x38 8, resA := 0, resP := 0, resF := 0, resK := 0
    slope := 0, lo := 0, hic := 0, zp := 0 }

def projHq (p : List Nat) : Nat := pf p 8 1
def projHkv (p : List Nat) : Nat := pf p 9 1
def projDh (p : List Nat) : Nat := pf p 6 2
def projD (p : List Nat) : Nat := projHkv p * projDh p

/-- Whether a head count and size keep their limits. -/
def headsOk (hq hkv dh : Nat) : Bool := within 1 64 hq && decide (1 ≤ hkv) && hq % hkv == 0 && within 8 256 dh && dh % 8 == 0

/-- Whether the fields of a projection keep their limits. -/
def projOk (p : List Nat) : Bool :=
  let c := projConv p
  let e := fmtBits (pf p 0xB 1)
  within 0 9 c.fmt && pz p 2 1 && decide (pf p 3 1 < 2) && within 1 4096 c.ci && headsOk (projHq p) (projHkv p) (projDh p) &&
  within 2 5 (pf p 0xB 1) && within 1 256 (pf p 0xC 2) && pz p 0xE 2 && pz p 0x48 56 && pf p 0x10 8 % 32 == 0 &&
  pitchOk c.inP c.ci c.w && pitchOk (pf p 0x24 4) (projHq p * projDh p) e && decide (c.work 1 ≤ 1280)

/-- The rows that the segments use. -/
def rowsUsed (l : List (List Nat)) : Nat := (l.map (fun b => segRow b + segCount b)).foldl max 0

/-- Whether the tensors of a projection lie in segments. -/
def projTensors (p : List Nat) (g l : List (List Nat)) : Bool :=
  let c := projConv p
  tensorOk g false c.inA (tensorBytes (rowsUsed l) c.ci c.inP c.w) &&
  tensorOk g true (pf p 0x40 8) (tensorBytes (rowsUsed l) (projHq p * projDh p) (pf p 0x24 4) (fmtBits (pf p 0xB 1))) &&
  tensorOk g false c.wA (c.blocks * c.slices * panelBytes c.fmt) && tensorOk g false c.scaleA (4 * c.co) &&
  (!c.bias || tensorOk g false c.biasA (4 * c.co))

/-- An output column of a token row, narrowed to the pool format (R316). -/
def projOut (c : Conv) (s : State) (fmt row oc : Nat) : Nat :=
  let v := c.lane s (c.memIn s) 0 row 0 oc
  let b := s.readLE (c.biasA + 4 * oc) 4
  let v := if c.bias then (if c.isInt then (v + b) % 2 ^ 32 else (fpAdd fp32 v b).1) else v
  let v := if c.isInt then (fpOfInt fp32 (sext 32 v)).1 else v
  (narrow fmt true (fpMul fp32 v (s.readLE (c.scaleA + 4 * oc) 4)).1).1

/-- The page and row of position `t` of layer `layer` of a sequence. -/
def State.posPage (s : State) (q layer t : Nat) : Nat × Nat :=
  let x := s.seq q
  (Store.get 0xFFFF x.list (layer * x.pages + t / 256), t % 256)

/-- Tile `t` of a projection: up to 64 rows and 64 columns of a segment, the rows' blocks outermost (R316). -/
def projBody (x : Cmd) (t : Nat) : TileBody := fun s cl =>
  let p := x.par
  let c := projConv p
  let b := nth [] x.lays (tileSeg t)
  let fmt := pf p 0xB 1
  let n := fmtBits fmt / 8
  let cb := t / 1024 % blocks64 c.co
  let r0 := t / 1024 / blocks64 c.co * 64
  let rows := (List.range (min 64 (segCount b - r0))).map (· + r0)
  let lo := 64 * cb
  let hi := min c.co (lo + 64)
  let r := s.readAll cl
    (rows.map (fun k => (c.inA + (segRow b + k) * c.inP, rowBytes c.ci c.w)) ++
     [(c.panelAt 0 cb 0, c.slices * panelBytes c.fmt), (c.scaleA + 4 * lo, 4 * (hi - lo))] ++
     (if c.bias then [(c.biasA + 4 * lo, 4 * (hi - lo))] else []))
  let s := r.1
  let hq := projHq p * projDh p
  let d := projD p
  let put (row a u0 v0 : Nat) : List (Nat × List Nat) :=
    let u := max lo u0
    let v := min hi v0
    if u < v then [(a + (u - u0) * n, (List.range (v - u)).flatMap (fun j => leBytes n (projOut c s fmt row (u + j))))] else []
  { s := s, status := r.2
    stores := rows.flatMap (fun k =>
      let row := segRow b + k
      let g := s.posPage (segSeq b) (pf p 0xA 1) (segStart b + k)
      put row (pf p 0x40 8 + row * pf p 0x24 4) 0 hq ++ put row (s.rowAddr g.1 g.2 false) hq (hq + d) ++
        put row (s.rowAddr g.1 g.2 true) (hq + d) (hq + 2 * d)) }

/-- A segment of a projection completes (R318): the layer's length, and the fill of the pages written. -/
def projAfter (layer : Nat) (s : State) (b : List Nat) : State :=
  let q := segSeq b
  let x := s.seq q
  let last := segStart b + segCount b
  let s := s.setSeq q { x with lens := Store.put 0 x.lens layer last }
  (s.segWrites layer b).foldl (fun s e =>
    let i := Store.get 0xFFFF x.list e
    let j := e - layer * x.pages
    s.setPage i { s.page i with fill := min 256 (last - 256 * j) }) s

/-- The projection that `q` points to starts: its tiles wait for their pages (R285, R311-R317). -/
def State.startProj (s : State) (q : Nat) : State :=
  s.startFused q 7 (fun s f =>
    s.startBatch f true (projOk f.p) (pf f.p 0xB 1) (projD f.p) (pf f.p 0xA 1) (pf f.p 0xC 2) (projConv f.p).co (fun _ => true)
      (projTensors f.p f.segs))

/-- PROJECTION: the projection command that `x` points to starts (R285, R311-R317). -/
def execProjection (t x : Nat) (s : State) : Host.Outcome State Fault Refusal := .next ((s.at t).startProj x)

/-! ### Attention (R319-R325) -/

def attHq (p : List Nat) : Nat := pf p 4 1
def attHkv (p : List Nat) : Nat := pf p 5 1
def attDh (p : List Nat) : Nat := pf p 6 2
def attFmt (p : List Nat) : Nat := pf p 1 1
def attMode (p : List Nat) : Nat := pf p 2 1
def attOut (p : List Nat) : Nat := pf p 3 1
def attRho (p : List Nat) : Nat := pf p 0x38 2

/-- Whether the fields of an attention command keep their limits (R319, R324). -/
def attOk (p : List Nat) : Bool :=
  within 2 5 (attFmt p) && within 0 2 (attMode p) && [1, 2, 3, 5].contains (attOut p) && headsOk (attHq p) (attHkv p) (attDh p) &&
  pz p 9 1 && within 1 256 (pf p 0xA 2) && within 0 4095 (attRho p) && pz p 0x3A 6 && pz p 0x4C 52 && pf p 0x10 8 % 32 == 0 &&
  (if attMode p = 2 then pf p 0x30 8 != 0 else pf p 0x30 8 == 0 && attRho p == 0) &&
  pitchOk (pf p 0x20 4) (attHq p * attDh p) (fmtBits (attFmt p)) && pitchOk (pf p 0x24 4) (attHq p * attDh p) (outBits (attOut p))

/-- The workspace an attention command needs (R321). -/
def attWork (p : List Nat) (l : List (List Nat)) : Nat :=
  (l.map (fun b => segCount b * attHq p * ((segStart b + segCount b + 255) / 256) * (attDh p + 2) * 4)).foldl (· + ·) 0

/-- The bytes of a segment's bitmap (R325). -/
def maskBytes (b : List Nat) : Nat := (segStart b + segCount b + 7) / 8

/-- Whether the tensors of an attention command lie in segments (R285, R325). -/
def attTensors (p : List Nat) (g l : List (List Nat)) : Bool :=
  tensorOk g false (pf p 0x18 8) (tensorBytes (rowsUsed l) (attHq p * attDh p) (pf p 0x20 4) (fmtBits (attFmt p))) &&
  tensorOk g true (pf p 0x28 8) (tensorBytes (rowsUsed l) (attHq p * attDh p) (pf p 0x24 4) (outBits (attOut p))) &&
  tensorOk g true (pf p 0x40 8) (pf p 0x48 4) &&
  (attMode p != 2 || tensorOk g false (pf p 0x30 8) (4 * attHq p * (attRho p + 1))) &&
  (attMode p != 1 || l.all (fun b => segMask b == 0 || tensorOk g false (segMask b) (maskBytes b)))

/-- The operand format of `mma` for a pool format. -/
def poolMma (f : Nat) : Nat := if f = 2 then 2 else if f = 3 then 5 else if f = 4 then 6 else 7

/-- A lane of `mma` over two rows of elements, padded with zeros and summed in chunks of K (R322). -/
def longLane (fmt : Nat) (a b : List Nat) : Nat :=
  let k := mmaK fmt
  let part (l : List Nat) (i : Nat) : List Nat := let c := (l.drop (k * i)).take k; c ++ List.replicate (k - c.length) 0
  (List.range ((a.length + k - 1) / k)).foldl (fun old i => (mmaLane fmt (i == 0) old (part a i) (part b i) [] []).1) 0

/-- Whether the query at position `q` sees key position `k` (R320). -/
def attSees (p : List Nat) (s : State) (b : List Nat) (len q k : Nat) : Bool :=
  decide (k ≤ q) && decide (k < len) &&
  (attMode p != 1 || segMask b == 0 || bit (s.byte (segMask b + k / 8)) (k % 8) == 1)

/-- The row of head `g` at position `k`: keys or values. -/
def attRow (p : List Nat) (s : State) (seq layer g k : Nat) (v : Bool) : List Nat :=
  let e := s.posPage seq layer k
  let dh := attDh p
  (List.range dh).map (fun i => s.elem (s.rowAddr e.1 e.2 v) (g * dh + i) (fmtBits (attFmt p)))

/-- The distance bias of head `h` for a key `d` positions back (R325). -/
def attBias (p : List Nat) (s : State) (h d : Nat) : Nat := s.readLE (pf p 0x30 8 + 4 * (h * (attRho p + 1) + min d (attRho p))) 4

/-- −∞ in FP32. -/
def negInf32 : Nat := 0xFF800000

/-- One query row and head of a segment: its position, its row in the token tensors and its head. -/
structure AttQ where
  pos : Nat
  row : Nat
  h : Nat

/-- The query rows and heads of a segment, by row and then by head. -/
def attQueries (p b : List Nat) : List AttQ :=
  (List.range (segCount b)).flatMap (fun t => (List.range (attHq p)).map (fun h => ⟨segStart b + t, segRow b + t, h⟩))

/-- The key-value head that a query head reads (R320). -/
def AttQ.kv (p : List Nat) (q : AttQ) : Nat := q.h * attHkv p / attHq p

/-- The scores of a query over the 256 slots of page `j`, none where it sees no key (R322 step 1). -/
def attScores (p : List Nat) (s : State) (b : List Nat) (j : Nat) (q : AttQ) : List (Option Nat) :=
  let seq := segSeq b
  let layer := pf p 8 1
  let len := Store.get 0 (s.seq seq).lens layer
  let v := (List.range (attDh p)).map (fun i =>
    s.elem (pf p 0x18 8 + q.row * pf p 0x20 4) (q.h * attDh p + i) (fmtBits (attFmt p)))
  (List.range 256).map (fun o =>
    let k := 256 * j + o
    if attSees p s b len q.pos k then
      let t := (fpMul fp32 (longLane (poolMma (attFmt p)) v (attRow p s seq layer (q.kv p) k false)) (pf p 0xC 4)).1
      some (if attMode p = 2 then (fpAdd fp32 t (attBias p s q.h (q.pos - k))).1 else t)
    else none)

/-- The marker of a query that sees no key. -/
def attNone : Nat := 2 ^ 32

/-- The maximum of two maxima, either of which may be missing (R257, R322 step 2). -/
def attMax (a b : Nat) : Nat := if a = attNone then b else if b = attNone then a else fpMax a b

/-- What the first tile of page `j` finds: each query's maximum over the page (R322 step 2). -/
def attMaxima (p : List Nat) (s : State) (b : List Nat) (j : Nat) : List Nat :=
  (attQueries p b).map (fun q => ((attScores p s b j q).filterMap id).foldl attMax attNone)

/-- A query's sum and its sums of values over page `j`, from the maximum `m` over all pages (R322 steps 3 and 4); a key under a bias of −∞ adds
+0 to each (R325). -/
def attPage (p : List Nat) (s : State) (b : List Nat) (j : Nat) (q : AttQ) (m : Nat) : List Nat :=
  let off (o : Nat) : Bool := attMode p == 2 && attBias p s q.h (q.pos - (256 * j + o)) == negInf32
  let ts := (attScores p s b j q).zipIdx.map (fun e => if off e.2 then none else e.1)
  let es := ts.map (fun t => match t with
    | some t => (fpFunction 0x10 (fpMul fp32 (fpSub fp32 t m).1 0x3FB8AA3B).1).1
    | none => 0)
  let vs := ts.zipIdx.map (fun e =>
    if e.1.isSome then attRow p s (segSeq b) (pf p 8 1) (q.kv p) (256 * j + e.2) true else List.replicate (attDh p) 0)
  (treeOf (fpAdd fp32) 8 es).1 ::
    (List.range (attDh p)).map (fun i => longLane (poolMma (attFmt p)) (es.map (fun e => (narrow (attFmt p) true e).1)) (vs.map (fun v => nth 0 v i)))

/-- What the tiles before have left in the workspace for tile `k` of segment `i`. -/
def Cmd.left (x : Cmd) (i k : Nat) : List Nat := Store.get [] x.ws (1024 * k + i)

/-- The output elements of query number `z`: the pages' sums, added up and divided (R322 steps 5 and 6). -/
def attOutput (x : Cmd) (i z : Nat) (q : AttQ) : List Nat :=
  let p := x.par
  let n := segPages (nth [] x.lays i)
  let part (j o : Nat) : Nat := nth 0 (x.left i (n + j)) (z * (attDh p + 1) + o)
  let sum (o : Nat) : Nat := pairTree (fun a b => (fpAdd fp32 a b).1) 0 8 ((List.range (q.pos / 256 + 1)).map (fun j => part j o))
  if (List.range n).all (fun j => nth attNone (x.left i j) z == attNone) then List.replicate (attDh p) 0
  else (List.range (attDh p)).map (fun d => (fpDiv fp32 (sum (d + 1)) (sum 0)).1)

/-- What a tile that weighs page `j` reads: the queries, the page's keys and, to sum, its values, the bias table and the bitmap. -/
def attReads (p : List Nat) (s : State) (b : List Nat) (j : Nat) (vals : Bool) : List (Nat × Nat) :=
  let n := attHkv p * attDh p * (fmtBits (attFmt p) / 8)
  (List.range (segCount b)).map (fun t => (pf p 0x18 8 + (segRow b + t) * pf p 0x20 4, rowBytes (attHq p * attDh p) (fmtBits (attFmt p)))) ++
  (List.range (min 256 (segStart b + segCount b - 256 * j))).flatMap (fun o =>
    let e := s.posPage (segSeq b) (pf p 8 1) (256 * j + o)
    (s.rowAddr e.1 e.2 false, n) :: (if vals then [(s.rowAddr e.1 e.2 true, n)] else [])) ++
  (if attMode p = 2 then [(pf p 0x30 8, 4 * attHq p * (attRho p + 1))] else []) ++
  (if attMode p = 1 ∧ segMask b ≠ 0 then [(segMask b, maskBytes b)] else [])

/-- The page that tile `t` of an attention command reads, if it reads one (R321). -/
def Cmd.attPageOf (x : Cmd) (t : Nat) : Option Nat :=
  let n := segPages (nth [] x.lays (tileSeg t))
  if t / 1024 < 2 * n then some (t / 1024 % n) else none

/-- The sticky flags of a tile that weighs page `j`: `NV` where a query sees a key under a bias that is NaN (R325). -/
def attFlags (p : List Nat) (s : State) (b : List Nat) (j : Nat) : Nat :=
  if attMode p = 2 ∧ (attQueries p b).any (fun q => (attScores p s b j q).zipIdx.any (fun e =>
    e.1.isSome && (attBias p s q.h (q.pos - (256 * j + e.2)) % 2 ^ 31 > inf32))) then fNV else 0

/-- The bytes of the output row of token `k` of a segment. -/
def attTokenOut (x : Cmd) (i k : Nat) : List Nat :=
  let p := x.par
  let f := attOut p
  let b := nth [] x.lays i
  (List.range (attHq p)).flatMap (fun h =>
    (attOutput x i (k * attHq p + h) ⟨segStart b + k, segRow b + k, h⟩).flatMap (fun v =>
      leBytes (outBits f / 8) (if f = 5 then v else (narrow (outType f) true v).1)))

/-- Tile `t` of an attention command (R321, R322): the maxima of a page, the sums over a page, or the output of a segment, which leaves open values
in the workspace. -/
def attBody (x : Cmd) (t : Nat) : TileBody := fun s cl =>
  let p := x.par
  let i := tileSeg t
  let b := nth [] x.lays i
  let n := segPages b
  match x.attPageOf t with
  | some j =>
    let second := decide (n ≤ t / 1024)
    let r := s.readAll cl (attReads p s b j second)
    { s := r.1, status := r.2, flags := attFlags p r.1 b j
      vals := if second then (attQueries p b).zipIdx.flatMap (fun e =>
          attPage p r.1 b j e.1 ((List.range n).foldl (fun m k => attMax m (nth attNone (x.left i k) e.2)) attNone))
        else attMaxima p r.1 b j }
  | none =>
    let f := s.takeFree
    { s := f.2
      stores := (pf p 0x40 8, (List.range (pf p 0x48 4)).map (fun o => (Config.freeByte f.1 o).toNat)) ::
        (List.range (segCount b)).map (fun k => (pf p 0x28 8 + (segRow b + k) * pf p 0x24 4, attTokenOut x i k)) }

/-- The attention command that `q` points to starts: its tiles wait for their pages and for each other (R285, R311-R314, R319-R325). -/
def State.startAtt (s : State) (q : Nat) : State :=
  s.startFused q 6 (fun s f =>
    s.startBatch f false (attOk f.p) (attFmt f.p) (attHkv f.p * attDh f.p) (pf f.p 8 1) (pf f.p 0xA 2) 0
      (fun l => decide (attWork f.p l ≤ pf f.p 0x48 4) && (attMode f.p != 2 || l.all (fun b => segMask b == 0)))
      (attTensors f.p f.segs))

/-- ATTENTION: the fused attention command that `x` points to starts (R285, R311-R314, R319-R325). -/
def execAttention (t x : Nat) (s : State) : Host.Outcome State Fault Refusal := .next ((s.at t).startAtt x)

end Sys2Proof.Machine
end

