-- ==== Sys2Proof/Machine/Lanes.lean ====
section
/-!
DEFINITION. The commands of the serial lanes (R540-R552, R560).
-/

namespace Sys2Proof.Machine

/-- The address of a lane's register. -/
def sdsReg (m off : Nat) : Nat := regBase + bSDS m * 0x100000 + off

/-- Whether a lane's receiver is on (R542): in every state but OFF and FAULT. -/
def State.laneHears (s : State) (m : Nat) : Bool :=
  decide (m < 52) && s.domOn (bSDS m) && s.fsm (bSDS m) != fOFF && s.fsm (bSDS m) != fFAULT

/-- CDR_LOCK: the receiver of lane `m` has locked (R540). -/
def execCdrLock (t m : Nat) (s : State) : Host.Outcome State Fault Refusal :=
  let s := s.at t
  .next (if s.laneHears m then (s.wr (bSDS m) SDS_STAT_CDR_LOCK 1).wr (bSDS m) SDS_STAT_SIG_DET 1 else s)

/-- CDR_LOCK_LOSS: lane `m` has lost lock for 100 ns (R540, R544): `sig` says whether a signal is still there. -/
def execCdrLockLoss (t m : Nat) (sig : Bool) (s : State) : Host.Outcome State Fault Refusal :=
  let s := s.at t
  let b := bSDS m
  .next (if s.laneHears m && s.rd b SDS_STAT_CDR_LOCK == 1 then
    let s := (((s.wr b SDS_STAT_CDR_LOCK 0).wr b SDS_STAT_SIG_DET (if sig then 1 else 0)).inc b SDS_CNT_LOCK_LOSS).untrain m
    s.laneLost m
  else s)

/-- A write of `SDSm_CTRL` (R543, R560): `ENABLE`, and `RETRAIN` on a lane that is ON. -/
def State.sdsCtrl (s : State) (m v : Nat) : State :=
  let b := bSDS m
  let s := (s.enableReq b (bit v 0)).showLane m
  if bit v 1 = 1 ∧ s.isOn b ∧ !s.fencing b then
    let s := (((s.setFsm b fSTARTING).wr b SDS_CTRL_RETRAIN 1).inc b SDS_CNT_RETRAIN).untrain m
    (s.laneLost m).showLane m
  else s

/-- RETRAIN: a write `v` of `SDSm_CTRL` by initiator `i` (R543). -/
def execRetrain (t i m v : Nat) (s : State) : Host.Outcome State Fault Refusal :=
  let s := s.at t
  .next (if 52 ≤ m then s
  else if !s.regAllowed i true (bSDS m) 4 then s.deny i true (sdsReg m 4)
  else s.sdsCtrl m v)

/-- LANE_TRAINED: lane `m` is trained at rate code `r` (R543-R545, R552): a PCI Express lane up to `MAX_SPEED`, and no
lane while its transmitter is held in electrical idle (R517, R518). -/
def execLaneTrained (t m r : Nat) (s : State) : Host.Outcome State Fault Refusal :=
  let s := s.at t
  let b := bSDS m
  let st := s.fsm b
  .next (if decide (m < 52) && s.domOn b && (st == fSTARTING || (st == fON && s.rd b SDS_STAT_TRAINED == 0)) && !s.fencing b &&
      rateListed m r && (decide (m < 44) || decide (r ≤ s.rd bPCIE PCIE_CFG_MAX_SPEED)) &&
      s.rd bPWR (PWR_PD_STAT_HELD (domOf b)) == 0 then
    let s := s.train m r
    if s.isOn b then s.laneBack m else s
  else s)

/-- One block of the owner's live traffic is spoilt (R551): the owner runs its own error path. -/
def State.injectLive (s : State) (m : Nat) : State :=
  if 44 ≤ m then s.inc bPCIE PCIE_CNT_REPLAY else s.setSds m { s.sdsX m with inj := true }

/-- An injection as `INJ_MODE` selects (R551). -/
def State.injectLane (s : State) (m : Nat) : State :=
  let b := bSDS m
  let mode := s.rd b SDS_TEST_INJ_MODE
  if mode = 1 ∧ s.fsm b = fFENCED then
    (if s.rd b SDS_TEST_LOOP = 1 ∧ s.rd b SDS_TEST_GEN ≠ 0 ∧ s.rd b SDS_STAT_CHK_SYNC = 1 then s.inc b SDS_CNT_CHK_ERR else s)
  else if mode = 2 ∧ s.isOn b ∧ !s.jobRun then s.injectLive m
  else s

/-- A write `v` of `SDSm_TEST` (R547-R551): every field on a fenced lane, the injection on a running one. -/
def State.sdsTest (s : State) (m v : Nat) : State :=
  let b := bSDS m
  let st := s.fsm b
  let set (s : State) (f : Fld) (ok : Bool) : State := if ok then s.wr b f (bits v f.lo f.w) else s
  if st = fFENCED ∧ s.rd b COM_RESET_RESET = 0 then
    let s := s.countChk m
    let s := set s SDS_TEST_TEST_RATE (bits v 28 4 == 0 || rateListed m (bits v 28 4))
    let s := set s SDS_TEST_GEN (decide (bits v 20 4 ≤ 8))
    let s := set s SDS_TEST_CHK (decide (bits v 16 4 ≤ 8))
    let s := set s SDS_TEST_LOOP (decide (bits v 12 2 ≤ 1) || (bits v 12 2 == 2 && decide (32 ≤ m)))
    let s := set s SDS_TEST_INJ_MODE (decide (bits v 4 2 ≤ 2))
    let s := s.restartChk m
    let s := if s.rd b SDS_TEST_CHK = 0 then (s.wr b SDS_STAT_CHK_SYNC 0).setSds m { s.sdsX m with sync := none } else s
    (if bit v 0 = 1 then s.injectLane m else s).showLane m
  else if st = fON then
    let s := (set s SDS_TEST_INJ_MODE (decide (bits v 4 2 ≤ 2))).restartChk m
    if bit v 0 = 1 then s.injectLane m else s
  else s

/-- A write `v` of `SDSm_TEST` by initiator `i`: a management core's or the host's only (R547). -/
def State.sdsTestBy (s : State) (i m v : Nat) : State :=
  if 52 ≤ m then s
  else if !s.mgmtOrHost i then s.deny i true (sdsReg m 0x104)
  else if !s.domOn (bSDS m) then s
  else s.sdsTest m v

/-- SDS_TEST: a write of `SDSm_TEST` (R547-R550). -/
def execSdsTest (t i m v : Nat) (s : State) : Host.Outcome State Fault Refusal := .next ((s.at t).sdsTestBy i m v)

/-- INJ: a write of `SDSm_TEST` with `INJ` 1 (R551). -/
def execInj (t i m v : Nat) (s : State) : Host.Outcome State Fault Refusal := .next ((s.at t).sdsTestBy i m (if bit v 0 = 1 then v else v + 1))

/-- CHECKER_SYNC_GAIN: 64 consecutive bits match the checker's pattern on a fenced lane (R549); in the near loopback they do where the
generator sends that pattern (R548, R550). -/
def execCheckerSyncGain (t m : Nat) (s : State) : Host.Outcome State Fault Refusal :=
  let s := s.at t
  let b := bSDS m
  .next (if decide (m < 52) && s.fsm b == fFENCED && s.rd b SDS_TEST_CHK != 0 && s.rd b SDS_STAT_CHK_SYNC == 0 &&
      s.nearFits m != some false then
    (s.wr b SDS_STAT_CHK_SYNC 1).setSds m { s.sdsX m with sync := some s.now }
  else s)

/-- CHECKER_SYNC_LOSS: 32 of 64 consecutive bits mismatch (R549): `errs` mismatched bits have been counted since the last sync.  In the near
loopback of the checker's own pattern none does. -/
def execCheckerSyncLoss (t m errs : Nat) (s : State) : Host.Outcome State Fault Refusal :=
  let s := s.at t
  let b := bSDS m
  .next (if decide (m < 52) && s.rd b SDS_STAT_CHK_SYNC == 1 && s.nearFits m != some true then
    let s := (s.countChk m).inc b SDS_CNT_CHK_ERR (max 32 errs)
    (s.wr b SDS_STAT_CHK_SYNC 0).setSds m { s.sdsX m with sync := none }
  else s)

/-- BLOCK_LOCK_LOSS: Ethernet port `p` loses block lock, or enters a high bit error ratio with `hi` (R553, R561). -/
def execBlockLockLoss (t p : Nat) (hi : Bool) (s : State) : Host.Outcome State Fault Refusal :=
  let s := s.at t
  .next (if p < 2 ∧ s.rd (bETH p) ETH_STAT_LINK = 1 then
    let lane := 40 + p + 2 * s.rd (bETH p) ETH_CFG_LANE
    let s := (s.ethDown p).untrain lane
    if hi then (s.wr (bETH p) ETH_STAT_HI_BER 1).wr (bETH p) ETH_STAT_BLOCK_LOCK 1 else s
  else s)

end Sys2Proof.Machine
end

