-- ==== Sys2Proof/Machine/Ethernet.lean ====
section
/-!
DEFINITION. Ethernet frames (R469, R470, R514, R553, R555).
-/

namespace Sys2Proof.Machine

/-- The 16-bit number at an offset of a frame, most significant byte first. -/
def be16 (f : List Nat) (o : Nat) : Nat := nth 0 f o * 256 + nth 0 f (o + 1)

/-- The offset of a frame's EtherType, behind one VLAN tag if it has one (R469). -/
def typeOffset (f : List Nat) : Nat := if be16 f 12 = 0x8100 then 16 else 12

/-- The offset of the IEEE 1588 message that a frame carries under port `p`'s settings, if it does (R469). -/
def State.ptpOffset (s : State) (p : Nat) (f : List Nat) : Option Nat :=
  let e := typeOffset f
  let ip := e + 2
  let ihl := nth 0 f ip % 16 * 4
  if s.rd bTIM (TIM_PTP_CFG_L2 p) = 1 ∧ be16 f e = 0x88F7 then some ip
  else if s.rd bTIM (TIM_PTP_CFG_UDP4 p) = 1 ∧ be16 f e = 0x0800 ∧ nth 0 f ip / 16 = 4 ∧ nth 0 f (ip + 9) = 17 ∧ be16 f (ip + ihl + 2) = 319 then
    some (ip + ihl + 8)
  else none

/-- Stamp a frame that qualifies (R469, R470): event messages of types Sync, Delay_Req, Pdelay_Req and Pdelay_Resp. -/
def State.ptpFrame (s : State) (p : Nat) (rx : Bool) (f : List Nat) : State :=
  if s.runs bTIM && s.rd bTIM (TIM_PTP_CFG_PTP_EN p) == 1 then
    match s.ptpOffset p f with
    | some o =>
      if nth 0 f o % 16 ≤ 3 ∧ o + 32 ≤ f.length then s.ptpStamp p rx (nth 0 f o % 16) (nth 0 f (o + 4)) (be16 f (o + 30)) else s
    | none => s
  else s

/-- The station address of port `p`. -/
def State.station (s : State) (p : Nat) : List Nat := leBytes 4 (s.rd (bETH p) ETH_ADDR_LO) ++ leBytes 2 (s.rd (bETH p) ETH_ADDR_HI)

/-- Whether a list of bytes occurs in a longer one. -/
def occurs (x : List Nat) : List Nat → Bool
  | [] => x.isEmpty
  | b :: r => x.isPrefixOf (b :: r) || occurs x r

/-- Whether a frame wakes the module (R514). -/
def State.wakes (s : State) (f : List Nat) : Bool :=
  let a := s.pwr.mac.getD (s.station 0)
  (f.take 6 == a || f.take 6 == List.replicate 6 0xFF) && occurs (List.replicate 6 0xFF ++ (List.replicate 16 a).flatten) (f.drop 14)

/-- Whether a frame is a pause frame of IEEE 802.3. -/
def isPause (f : List Nat) : Bool := f.take 6 == [0x01, 0x80, 0xC2, 0, 0, 0x01] && be16 f 12 == 0x8808 && be16 f 14 == 1

/-- The length of a pause in ns: quanta of 512 bit times. -/
def State.pauseNs (s : State) (p q : Nat) : Nat := q * 512 / (if s.rd (bETH p) ETH_CFG_SPEED = 1 then 25 else 10)

/-- A frame for the receive channel: the MAC holds it; one that meets no channel at work is dropped, and whether one that meets another
frame still waiting is held is an open value. -/
def State.ethDeliver (s : State) (p : Nat) (f : List Nat) : State :=
  let b := bETH p
  if !s.dmaRuns (29 + 2 * p) then s.inc b ETH_CNT_RX_DROP
  else
    let x := s.ethX p
    if x.rx.isEmpty then s.setEth p { x with rx := [f] }
    else
      let r := s.takeFree
      if Config.freeNat r.1 % 2 = 1 then r.2.setEth p { x with rx := x.rx ++ [f] } else r.2.inc b ETH_CNT_RX_DROP

/-- A received frame without its FCS is checked, obeyed, or delivered (R553). -/
def State.ethReceive (s : State) (p : Nat) (f : List Nat) (fcsOk : Bool) : State :=
  let b := bETH p
  if !fcsOk then s.inc b ETH_CNT_RX_FCS
  else if s.rd b ETH_CFG_MTU < f.length + 4 then s.inc b ETH_CNT_RX_LONG
  else
    let s := (s.ptpFrame p true f).inc b ETH_CNT_RX_OK
    if isPause f && s.rd b ETH_CFG_PAUSE == 1 then s.setEth p { s.ethX p with pauseTo := s.now + s.pauseNs p (be16 f 16) }
    else s.ethDeliver p f

/-- ETH_FRAME_RECEIVE: a frame arrives on port `p`, without its FCS, which `fcsOk` judges (R514, R553); one on port 0 ends the silence of a network boot (R85). -/
def execEthFrameReceive (t p : Nat) (f : List Nat) (fcsOk : Bool) (s : State) : Host.Outcome State Fault Refusal :=
  let s := s.at t
  let s := if p = 0 ∧ fcsOk ∧ s.sys.phase = 7 then s.setSys { s.sys with netStart := s.now } else s
  let sleep := s.rd bPWR PWR_STAT_STATE
  .next (if sleep = 3 then (if p = 0 ∧ fcsOk ∧ s.pwr.mac.isSome ∧ s.wakes f then s.wake 3 else s)
  else if 2 ≤ p ∨ !s.isOn (bETH p) ∨ s.fencing (bETH p) ∨ s.rd (bETH p) ETH_STAT_LINK ≠ 1 then s
  else
    let hit := p == 0 && fcsOk && decide (f.length + 4 ≤ s.rd (bETH 0) ETH_CFG_MTU) && s.wakes f
    let t := s.ethReceive p f fcsOk
    if hit then t.wake 3 else t)

/-- ETH_FRAME_TRANSMIT: port `p` sends the next frame of its transmit channel (R187, R551, R553): a poisoned frame with a wrong FCS. -/
def execEthFrameTransmit (t p : Nat) (s : State) : Host.Outcome State Fault Refusal :=
  let s := s.at t
  let b := bETH p
  let x := s.ethX p
  .next (if 2 ≤ p ∨ !s.isOn b ∨ s.fencing b ∨ s.rd b ETH_STAT_LINK ≠ 1 ∨ s.now < x.pauseTo then s
  else match x.tx with
    | [] => s
    | (f, bad) :: r =>
      let q := (s.setEth p { x with tx := r }).takeInj [40 + p + 2 * s.rd b ETH_CFG_LANE]
      let s := { q.2 with out := .eth p f (!bad && !q.1) :: q.2.out }
      (s.ptpFrame p false f).inc b (if bad then ETH_CNT_TX_POISON else ETH_CNT_TX_OK))

/-! ### PCI Express beside its requests (R84, R514, R559) -/

/-- The endpoint starts over: the link is down, its lanes must train again, and the host's settings are gone. -/
def State.pcieReset (s : State) : State :=
  (List.range 8).foldl (fun s k => s.untrain (44 + k)) { s.pcieDown with pcie := {} }

/-- PCIE_PERST: `PCIE_PERST_N` goes low (R84, R559): the endpoint alone is reset. -/
def execPciePerst (t : Nat) (s : State) : Host.Outcome State Fault Refusal :=
  let s := s.at t
  .next (if s.pwr.perstLow.isSome then s else (s.setPwr { s.pwr with perstLow := some s.now }).pcieReset)

/-- PCIE_PERST_RELEASE: `PCIE_PERST_N` goes high (R84); after at least 100 µs low it wakes the module from S3 and S4 (R514). -/
def execPciePerstRelease (t : Nat) (s : State) : Host.Outcome State Fault Refusal :=
  let s := s.at t
  .next (match s.pwr.perstLow with
  | none => s
  | some a =>
    let r := (s.setPwr { s.pwr with perstLow := none }).pcieRelink
    if a + 100000 ≤ s.now then r.wake 7 else r)

/-- PCIE_LINK_DOWN: the link is lost (R559). -/
def execPcieLinkDown (t : Nat) (s : State) : Host.Outcome State Fault Refusal :=
  let s := s.at t
  .next (if s.rd bPCIE PCIE_STAT_LINK_UP = 1 then s.pcieReset else s)

end Sys2Proof.Machine
end

