-- ==== Sys2Proof/Machine/Memory.lean ====
section
/-!
DEFINITION. The memory commands: DRAM reads and writes, the patrol scrubber, drains and fences of the cache slices, the error log
and error injection (R171-R203).
-/

namespace Sys2Proof.Machine

/-- Errors of a line that a slice holds (R181): `bad` bits of the word at `a`, or of the line's tag; past two, what the check makes of them is
open. -/
def State.disturbCached (s : State) (i a bad : Nat) (tag : Bool) : State :=
  let k := (Store.get {} s.memu.lines (unitOf a)).slice
  if bad = 0 ∨ dramEnd ≤ a ∨ 4 ≤ k then s
  else
    let w := a - a % 8
    let n := (if tag then 0 else Store.get 0 s.memu.word w % 16) + bad
    let f := s.takeFree
    let e := if n ≤ 2 then n else Config.freeNat f.1 % 3
    if tag then
      if e = 0 then f.2
      else if e = 1 then f.2.storeRep { kind := 4, blk := bMEM k, addr := unitOf a, status := 0x0303, init := i }
      else (f.2.setPoison (unitOf a)).storeRep { kind := 5, blk := bMEM k, addr := unitOf a, status := 0x0304, init := i }
    else
      let s := if n ≤ 2 then f.2 else f.2.openBytes f.1 w 8
      s.setMem { s.memu with word := Store.put 0 s.memu.word w (if e = 0 then 0 else 48 + e) }

/-- DRAM_READ: a read of 1 to 64 bytes by initiator `i` from any store of R171.  The environment has caused `bad` errors: for `kind` 0 in
the symbols of the first line or the bits of the first word touched, for 2 in the word of the slice that holds the line, for 3 in its
tag; for `kind` 1 the DRAM returns the line of another address (R171, R172, R175, R178, R181, R188). -/
def execDramRead (t i a n kind bad : Nat) (s : State) : Host.Outcome State Fault Refusal :=
  let s := s.at t
  .next (if n = 0 ∨ 64 < n then s.answer 0x0201 []
  else
    let c := s.checkStore i false a n
    if c.2 ≠ 0 then c.1.answer c.2 []
    else
      let s := s.wakeFor a
      if kind = 1 ∧ a < dramEnd then
        let f := s.takeFree
        let s := f.2.storeRep
          { kind := 2, blk := bMEM4, sub := controllerOf a, addr := unitOf a, status := 0x0304, init := i }
        { s with resp :=
          { status := 0x0304, data := (List.range n).map (fun j => (Config.freeByte f.1 j).toNat), poisoned := true } }
      else
        let s := if kind = 0 then s.disturb (unitOf a) bad
          else if kind = 2 ∨ kind = 3 then s.disturbCached i a bad (kind == 3) else s
        let s := s.readUnits i a n
        let p := s.poisoned a n
        { s with resp := { status := if p then 0x0304 else 0, data := s.bytes a n, poisoned := p } })

/-- DRAM_WRITE: a write of 1 to 64 bytes by initiator `i` to any store of R171, whose data may carry poison (R171, R172, R177, R178). -/
def execDramWrite (t i a : Nat) (data : List Nat) (poisoned : Bool) (s : State) : Host.Outcome State Fault Refusal :=
  let s := s.at t
  let data := data.map (· % 256)
  .next (if data.isEmpty ∨ 64 < data.length then s.answer 0x0201 []
  else
    let r := if poisoned then s.hwWritePoison i a data else s.hwWrite i a data
    r.1.answer r.2 [])

/-- Data lines of the DRAM. -/
def dramLines : Nat := dramEnd / 64

/-- The time between two reads of the patrol scrubber, in nanoseconds × the number of lines: every line once in `PERIOD_H` hours (R180). -/
def State.scrubGap (s : State) : Nat := s.rd bMEM4 MEM4_SCRUB_PERIOD_H * 3600000000000

/-- Whether the patrol scrubber's next line is due. -/
def State.scrubIsDue (s : State) : Bool := decide (s.memu.scrubDue ≤ s.now * dramLines)

/-- SCRUB_READ: the patrol scrubber reads its next line at its paced rate; the line carries `bad` erroneous symbols (R179, R180).  It pauses
while the DRAM is in self-refresh. -/
def execScrubRead (t bad : Nat) (s : State) : Host.Outcome State Fault Refusal :=
  let s := s.at t
  .next (if s.rd bMEM4 MEM4_SCRUB_SCRUB_EN = 1 ∧ s.isOn bMEM4 ∧ s.rd bPWR PWR_STAT_STATE < 2 ∧ s.scrubIsDue then
    let s := s.setMem { s.memu with scrubDue := max (s.memu.scrubDue + s.scrubGap) (s.now * dramLines) }
    let s := (s.disturb (64 * s.memu.scrubLine) bad).readUnit 0 (64 * s.memu.scrubLine)
    let nx := s.memu.scrubLine + 1
    if dramLines ≤ nx then (s.setMem { s.memu with scrubLine := 0 }).inc bMEM4 MEM4_CNT_SCRUB_PASSES
    else s.setMem { s.memu with scrubLine := nx }
  else s)

/-! ### Slices (R182, R185, R186) -/

/-- The standing of a slice. -/
def State.sliceSt (s : State) (n : Nat) : Nat := Store.get 0 s.memu.drain n

/-- Set the standing of a slice. -/
def State.setSliceSt (s : State) (n v : Nat) : State := s.setMem { s.memu with drain := Store.put 0 s.memu.drain n v }

/-- Map bucket `k` to slice `n`; the map of R182 is not listed. -/
def bucketPut (m : Store Nat) (k n : Nat) : Store Nat := Store.put (k % 4) m k n

/-- Move a slice's buckets to the other slices that hold buckets, in turn (R185). -/
def State.moveBuckets (s : State) (n : Nat) : State :=
  let rest := (List.range 4).filter (fun k => k != n && s.sliceSt k == 0 && s.isOn (bMEM k))
  if rest.isEmpty then s
  else
    let r := (List.range 256).foldl (fun (q : Store Nat × Nat) k =>
      if s.sliceOf k = n then (bucketPut q.1 k (nth 0 rest (q.2 % rest.length)), q.2 + 1) else q) (s.memu.buckets, 0)
    s.setMem { s.memu with buckets := r.1 }

/-- Return a slice's buckets to the map of R182. -/
def State.returnBuckets (s : State) (n : Nat) : State :=
  let m := (List.range 256).foldl (fun m k => if k % 4 = n then bucketPut m k n else m) s.memu.buckets
  ((s.setMem { s.memu with buckets := m }).setSliceSt n 0).wr (bMEM n) MEM_CTRL_DRAINED 0

/-- A write of `DRAIN` to slice `n` (R185, R186). -/
def State.drainWrite (s : State) (n v : Nat) : State :=
  let s := s.wr (bMEM n) MEM_CTRL_DRAIN v
  let st := s.sliceSt n
  if v = 1 then
    if st = 0 ∧ s.isOn (bMEM n) then (s.moveBuckets n).setSliceSt n 1
    else s
  else if st = 1 then s.setSliceSt n 2
  else if (st = 3 ∨ st = 4) ∧ s.isOn (bMEM n) then s.returnBuckets n
  else s

/-- DRAIN: a write of the `DRAIN` bit of slice `n` by initiator `i` (R185). -/
def execDrain (t i n v : Nat) (s : State) : Host.Outcome State Fault Refusal :=
  let s := s.at t
  .next (if 4 ≤ n then s
  else if !s.regAllowed i true (bMEM n) 4 then s.deny i true (regBase + bMEM n * 0x100000 + 4)
  else s.drainWrite n (v % 2))

/-- DRAIN_DONE: the drain of slice `n` ends: its dirty lines have been written back, and it holds none (R185). -/
def execDrainDone (t n : Nat) (s : State) : Host.Outcome State Fault Refusal :=
  let s := s.at t
  .next (if n < 4 ∧ (s.sliceSt n = 1 ∨ s.sliceSt n = 2) then
    let back := s.sliceSt n == 2
    let s := s.flushSlices (· == n)
    let s := (s.setSliceSt n 3).wr (bMEM n) MEM_CTRL_DRAINED 1
    if back && s.isOn (bMEM n) then s.returnBuckets n else s
  else s)

/-- The contents of slice `n` are lost. -/
def State.dropSlice (s : State) (n : Nat) : State :=
  let gone (w : Nat) : Bool := (Store.get {} s.memu.lines (unitOf w)).slice == n
  s.setMem { s.memu with lines := s.memu.lines.filter (fun e => e.2.slice != n), word := s.memu.word.filter (fun e => !gone e.1) }

/-- A fence of slice `n` (R186): a slice that is not drained loses its buckets, and its dirty lines are stored poisoned. -/
def State.sliceFence (s : State) (n : Nat) : State :=
  if s.sliceSt n = 3 ∨ s.sliceSt n = 4 then s
  else
    let s := if s.sliceSt n = 0 then s.moveBuckets n else s
    let bad := (s.memu.lines.filter (fun e => e.2.slice == n && e.2.dirty)).map Prod.fst
    let s := ((bad.foldl State.setPoison s).dropSlice n).setSliceSt n 4
    match bad with
    | u :: _ => s.storeRep { kind := 9, blk := bMEM n, addr := u, status := 0x0304 }
    | [] => s

/-- A function reset of slice `n` (R186, R201): its contents are cleared and it holds no buckets. -/
def State.sliceReset (s : State) (n : Nat) : State := (s.dropSlice n).setSliceSt n 4

/-! ### The error log (R197, R198) -/

/-- `MEM4_LOG_RD` as read. -/
def State.logRdWord (s : State) : Nat :=
  let n := s.memu.log.length
  (if n = 0 then 65536 else 0) + min n 255 * 256 + s.memu.logIdx % 256

/-- Release the unread records up to the one with index `k`. -/
def State.logRelease (s : State) (k : Nat) : State :=
  let d := (k % 256 + 256 - s.memu.logIdx % 256) % 256
  if d < s.memu.log.length then
    s.setMem { s.memu with log := s.memu.log.drop (d + 1), logIdx := (s.memu.logIdx + d + 1) % 256 }
  else s

/-- MEM4_LOG_RD: a write of an index by initiator `i` (R197). -/
def execMem4LogRd (t i v : Nat) (s : State) : Host.Outcome State Fault Refusal :=
  let s := s.at t
  .next (if !s.regAllowed i true bMEM4 0x300 then s.deny i true (regBase + bMEM4 * 0x100000 + 0x300) else s.logRelease (v % 256))

/-- The bytes of a log record (R198, R203). -/
def logBytes (r : LogRec) : List Nat :=
  leBytes 4 r.sec ++ leBytes 4 r.ns ++ [r.kind, r.blk, r.sub, r.rep] ++ leBytes 8 r.addr ++ leBytes 4 r.synd ++
  leBytes 2 r.status ++ leBytes 2 r.init ++ [if r.inj then 1 else 0, 0, 0, 0]

/-- The word at an offset of the error log's window: unread records stand at their index, other places read 0. -/
def State.logWord (s : State) (o : Nat) : Nat :=
  let d := (o / 32 + 256 - s.memu.logIdx % 256) % 256
  match s.memu.log[d]? with
  | some r => leNat (((logBytes r).drop (o % 32)).take 4)
  | none => 0

/-! ### Injection (R203) -/

/-- Whether `UNIT` is listed for a `TARGET`. -/
def injListed (target unit : Nat) : Bool :=
  if target = 1 ∨ target = 2 then decide (unit < 8)
  else if target = 3 ∨ target = 4 then decide (unit < 34) || (decide (0x40 ≤ unit) && decide (unit ≤ 0x43)) || unit == 0x80
  else if target = 5 ∨ target = 6 then decide (unit < 34)
  else false

/-- A write `v` of `MEM4_INJ` by initiator `i` (R203). -/
def State.injWrite (s : State) (i v : Nat) : State :=
  if !s.mgmtOrHost i then s.deny i true (regBase + bMEM4 * 0x100000 + 0x400)
  else if s.jobRun then s
  else
    let s := s.wr bMEM4 MEM4_INJ_UNIT (bits v 24 8)
    let s := if 1 ≤ bits v 20 4 ∧ bits v 20 4 ≤ 6 then s.wr bMEM4 MEM4_INJ_TARGET (bits v 20 4) else s
    if bit v 0 = 1 ∧ injListed (s.rd bMEM4 MEM4_INJ_TARGET) (s.rd bMEM4 MEM4_INJ_UNIT) then s.wr bMEM4 MEM4_INJ_ARM 1 else s

/-- ARM: a write `v` of `MEM4_INJ` (R203). -/
def execArm (t i v : Nat) (s : State) : Host.Outcome State Fault Refusal := .next ((s.at t).injWrite i v)

end Sys2Proof.Machine
end

