-- ==== Sys2Proof/Machine/Exchange.lean ====
section
/-!
DEFINITION. The exchange and barrier commands, their frames and what they wait for (R388-R392).
-/

namespace Sys2Proof.Machine

/-- The initiator of Traif port `p` (R495). -/
def iLNK (p : Nat) : Nat := 0x70 + p

/-- Whether exchanges and barriers go on: the link unit runs and the module is in service (R409, R413). -/
def State.linkServes (s : State) : Bool := s.lnkOn && s.inService

/-! ### Exchange (R391, R392) -/

/-- The tag of segment `k` of the exchange command `x`. -/
def segTag (x k : Nat) : Nat := x * 256 + k

/-- Whether a segment entry keeps R391. -/
def exSegOk (b : List Nat) : Bool :=
  pf b 0 8 % 64 == 0 && pf b 8 8 % 64 == 0 && pf b 16 4 % 64 == 0 && decide (64 ≤ pf b 16 4) && decide (pf b 16 4 ≤ 16777216) &&
  pz b 22 10

/-- Write the status of every segment that owes nothing more; the last one completes the command (R245, R392). -/
def State.settleExch (s : State) (e : Exch) : State :=
  let n := e.sts.length
  let done := (List.range n).map (fun k => !e.owed.any (fun o => o.1 == k))
  let s := (List.range n).foldl (fun s k =>
    if nth false done k && !nth false e.shown k then s.putAs (iLNK 0) (e.list + 32 * k + 20) (leBytes 2 (nth 0 e.sts k)) else s) s
  let rest := s.lnk.exch.filter (fun y => y.x != e.x)
  if done.all id then
    let bad := (List.range n).filter (fun k => !soundStatus (nth 0 e.sts k))
    let fin := match bad.head? with
      | some k => (nth 0 e.sts k, k)
      | none => (e.sts.foldl max 0, 0xFFFFFFFF)
    (s.setLnk { s.lnk with exch := rest }).modCmd e.x (fun c => { c with failed := bad.length, final := some fin })
  else s.setLnk { s.lnk with exch := rest ++ [{ e with shown := done }] }

/-- Cut bytes into frames of at most 256. -/
def framesOf (b : List Nat) : List (List Nat) := (List.range ((b.length + 255) / 256)).map (fun k => (b.drop (256 * k)).take 256)

/-- Send segment `k` of an exchange: to every destination in service, as frames of 256 bytes; the others are lost. -/
def State.sendSeg (s : State) (e : Exch) (dests : List Nat) (k : Nat) (b : List Nat) : State × Exch :=
  let r := s.hwRead (iLNK 0) (pf b 0 8) (pf b 16 4)
  let own := r.2.1
  if own = 0x0201 then (r.1, { e with sts := e.sts ++ [own] })
  else
    let fs := framesOf r.2.2
    let bad := r.1.lineParts (pf b 0 8) (pf b 16 4)
    dests.foldl (fun (q : State × Exch) m =>
      if q.1.serves m then
        let s := (List.range fs.length).foldl (fun s j =>
          s.sendFrame { type := frWRITE, src := s.modulePos, dest := m, arg := pf b 8 8 + 256 * j, tag := segTag e.x k
                        poison := bad.any (fun p => overlap p.1 p.2 (256 * j) 256), data := (nth [] fs j).map Int.ofNat }) q.1
        (s, { q.2 with owed := q.2.owed ++ [(k, m, fs.length)] })
      else (q.1, { q.2 with sts := q.2.sts.set k (higherStatus (nth 0 q.2.sts k) 0x0203) }))
      (r.1, { e with sts := e.sts ++ [own] })

/-- Start an exchange. -/
def State.startExch (s : State) (f : Fused) : State :=
  let x := f.x.ptr
  if !s.lnkOn then s.refuseCmd x 0x0202
  else if !s.inService then s
  else
    let n := pf f.p 4 2
    let a := pf f.p 8 8
    if !(pz f.p 1 1 && pz f.p 6 2 && pz f.p 0x10 112 && decide (1 ≤ n) && decide (n ≤ 256) && a % 64 == 0) then s.refuseCmd x 0x0808
    else if dramEnd < a + 32 * n then s.refuseCmd x 0x0802
    else
      let r := s.hwRead (iLNK 0) a (32 * n)
      let segs := (List.range n).map (fun k => (r.2.2.drop (32 * k)).take 32)
      if r.2.1 ≠ 0 then r.1.refuseCmd x r.2.1
      else if !segs.all exSegOk then r.1.refuseCmd x 0x0808
      else if !segs.all (fun b => tensorOk f.segs false (pf b 0 8) (pf b 16 4)) then r.1.refuseCmd x 0x0802
      else
        let s := r.1.modCmd x (fun c => { c with begun := true, todo := [], par := f.p })
        let dests := (modulesOf (pf f.p 2 2)).filter (· != s.modulePos)
        let q := (List.range n).foldl (fun (q : State × Exch) k => q.1.sendSeg q.2 dests k (nth [] segs k)) (s, { x := x, list := a })
        q.1.settleExch q.2

/-- EXCHANGE: the exchange command that `x` points to starts (R391). -/
def execExchange (t x : Nat) (s : State) : Host.Outcome State Fault Refusal := .next ((s.at t).startFused x 9 State.startExch)

/-- Whether a range lies wholly inside one valid receive window (R392). -/
def State.inWindow (s : State) (a n : Nat) : Bool :=
  (List.range 8).any (fun k => s.rd bLNK (LNK_RXWIN_VALID k) == 1 && decide (s.rd bLNK (LNK_RXWIN_BASE k) * 1048576 ≤ a) &&
    decide (a + n ≤ (s.rd bLNK (LNK_RXWIN_BASE k) + s.rd bLNK (LNK_RXWIN_SIZE k)) * 1048576))

/-- WRITE: exchange data from module `src` arrives on port `a` for address `addr` (R392). -/
def execWrite (t a src addr tag : Nat) (poison : Bool) (data : List Nat) (s : State) : Host.Outcome State Fault Refusal :=
  let s := s.at t
  let f : Frame := { s.forMe frWRITE src addr (data.map Int.ofNat) with tag := tag, poison := poison }
  .next (s.onFrame a f (fun s =>
    let r := if !s.inWindow addr data.length then (s, 0x0201)
      else if poison then s.hwWritePoison (iLNK a) addr data else s.hwWrite (iLNK a) addr data
    r.1.sendFrame { r.1.frame frWRITE_ACK src 0 [r.2] with tag := tag }))

/-- One frame of segment `k` for module `m` is acknowledged. -/
def Exch.ack (e : Exch) (k m st : Nat) : Exch :=
  if e.owed.any (fun o => o.1 == k && o.2.1 == m) then
    { e with
      owed := (e.owed.map (fun o => if o.1 == k && o.2.1 == m then (k, m, o.2.2 - 1) else o)).filter (fun o => o.2.2 != 0)
      sts := e.sts.set k (higherStatus (nth 0 e.sts k) st) }
  else e

/-- WRITE_ACK: module `src` acknowledges one frame of the segment with `tag` with status `st` (R392). -/
def execWriteAck (t a src tag st : Nat) (s : State) : Host.Outcome State Fault Refusal :=
  let s := s.at t
  let f : Frame := { s.forMe frWRITE_ACK src 0 [st] with tag := tag }
  .next (s.onFrame a f (fun s => match s.lnk.exch.find? (fun e => e.x == tag / 256) with
    | some e => if s.inService then s.settleExch (e.ack (tag % 256) src st) else s
    | none => s))

/-- A module leaves service: what it owes exchanges is lost (R392). -/
def State.loseDest (s : State) (m : Nat) : State :=
  s.lnk.exch.foldl (fun s e =>
    let ks := (e.owed.filter (fun o => o.2.1 == m)).map Prod.fst
    if ks.isEmpty then s
    else s.settleExch { e with
      owed := e.owed.filter (fun o => o.2.1 != m)
      sts := ks.foldl (fun l k => l.set k (higherStatus (nth 0 l k) 0x0203)) e.sts }) s

/-! ### The Cinch barrier (R388-R390) -/

/-- The generation of a barrier on this module. -/
def State.gen (s : State) (num : Nat) : Nat := Store.get 0 s.lnk.gens num

/-- The completion of a barrier advances its generation. -/
def State.nextGen (s : State) (num : Nat) : State := s.setLnk { s.lnk with gens := Store.put 0 s.lnk.gens num (s.gen num + 1) }

/-- A barrier command completes on this module. -/
def State.endBarrier (s : State) (num gen status : Nat) : State :=
  match s.lnk.waits.find? (fun w => w.2.1 == num && w.2.2.1 == gen) with
  | some w =>
    let s := s.setLnk { s.lnk with
      waits := s.lnk.waits.filter (fun w => !(w.2.1 == num && w.2.2.1 == gen))
      rels := s.lnk.rels.filter (fun r => !(r.1 == num && r.2.1 == gen)) }
    ((s.nextGen num).modCmd w.1 (fun c => if c.final.isSome then c else { c with final := some (status, 0xFFFFFFFF) })).inc bLNK LNK_CNT_BARRIERS
  | none => s

/-- The status of a release. -/
def relStatus (bad : Bool) : Nat := if bad then 0x0808 else 0

/-- A release reaches a member (R389, R390): it is kept until its time, or completes the barrier at once when it is late. -/
def State.takeRelease (s : State) (num gen time : Nat) (bad : Bool) : State :=
  if s.lnk.waits.any (fun w => w.2.1 == num && w.2.2.1 == gen) then
    if time < s.tb.time then (s.endBarrier num gen (relStatus bad)).inc bLNK LNK_CNT_BARRIER_LATE
    else s.setLnk { s.lnk with rels := s.lnk.rels.filter (fun r => !(r.1 == num && r.2.1 == gen)) ++ [(num, gen, time, bad)] }
  else s

/-- Module 0 takes its decision on a barrier when every in-service member has arrived (R389, R390). -/
def State.decideBarrier (s : State) (num : Nat) : State :=
  let l := s.lnk.arrived.filter (fun w => w.1 == num)
  match l with
  | [] => s
  | w :: _ =>
    let mask := l.foldl (fun m v => m.lor v.2.2.2) 0
    if (modulesOf mask).all (fun m => !s.serves m || l.any (fun v => v.2.2.1 == m)) then
      let bad := l.any (fun v => v.2.2.2 != w.2.2.2)
      let time := s.tb.time + s.rd bLNK LNK_CINCH_DELAY * tbNsUnit
      let s := s.setLnk { s.lnk with
        arrived := s.lnk.arrived.filter (fun v => v.1 != num)
        least := Store.put 0 s.lnk.least num (w.2.1 + 1) }
      (s.sendFrame (s.frame frRELEASE toAll num [w.2.1, time, if bad then 1 else 0])).takeRelease num w.2.1 time bad
    else s

/-- Every barrier that waits for a decision (R389). -/
def State.decideAll (s : State) : State := (List.range 64).foldl State.decideBarrier s

/-- Module `m` arrives at a barrier (R389, R390). -/
def State.arrive (s : State) (num gen m mask : Nat) : State :=
  if gen < Store.get 0 s.lnk.least num then s
  else
    let keep := s.lnk.arrived.filter (fun w => w.1 != num || (w.2.1 == gen && w.2.2.1 != m))
    (s.setLnk { s.lnk with arrived := keep ++ [(num, gen, m, mask)], least := Store.put 0 s.lnk.least num gen }).decideBarrier num

/-- Start a barrier command. -/
def State.startBarrier (s : State) (f : Fused) : State :=
  let x := f.x.ptr
  let num := pf f.p 1 1
  let mask := pf f.p 2 2
  if !s.lnkOn then s.refuseCmd x 0x0202
  else if !(decide (num < 64) && pz f.p 4 124) then s.refuseCmd x 0x0808
  else if bit mask s.modulePos = 0 then s.modCmd x (fun c => { c with begun := true, todo := [], final := some (0, 0xFFFFFFFF) })
  else if !s.inService ∨ s.lnk.waits.any (fun w => w.2.1 == num) then s
  else
    let gen := s.gen num
    let s := s.modCmd x (fun c => { c with begun := true, todo := [], par := f.p })
    let s := s.setLnk { s.lnk with waits := s.lnk.waits ++ [(x, num, gen, mask)] }
    if s.modulePos = 0 then s.arrive num gen 0 mask else s.sendFrame (s.frame frARRIVE 0 num [gen, mask])

/-- BARRIER: the barrier command that `x` points to starts (R388, R389). -/
def execBarrier (t x : Nat) (s : State) : Host.Outcome State Fault Refusal := .next ((s.at t).startFused x 10 State.startBarrier)

/-- ARRIVE: module `src` has arrived at barrier `num` (R389). -/
def execArrive (t a src num gen mask : Nat) (s : State) : Host.Outcome State Fault Refusal :=
  let s := s.at t
  .next (s.onFrame a (s.forMe frARRIVE src num [gen, mask]) (fun s => if s.modulePos = 0 then s.arrive num gen src mask else s))

/-- RELEASE: module 0 releases barrier `num` at time base value `time` (R389, R390). -/
def execRelease (t a num gen time : Nat) (bad : Bool) (s : State) : Host.Outcome State Fault Refusal :=
  let s := s.at t
  .next (s.onFrame a (bcast frRELEASE 0 num [gen, time, if bad then 1 else 0]) (fun s =>
    if s.inService then s.takeRelease num gen time bad else s))

/-- BARRIER_RELEASE_TIME: the time base has reached the release time of barrier `num` (R389). -/
def execBarrierReleaseTime (t num : Nat) (s : State) : Host.Outcome State Fault Refusal :=
  let s := s.at t
  .next (match s.lnk.rels.find? (fun r => r.1 == num) with
  | some r => if r.2.2.1 ≤ s.tb.time then s.endBarrier num r.2.1 (relStatus r.2.2.2) else s
  | none => s)

/-! ### Commands that end while they wait -/

/-- The barrier number of a barrier command that has not started, read from its parameter block. -/
def State.barrierOf (s : State) (x : Cmd) : Option Nat :=
  if x.kind = 1 ∧ !x.begun then
    let r := s.readFused x
    if r.2.1 = 0 ∧ pf r.2.2.p 0 1 = 10 then some (pf r.2.2.p 1 1) else none
  else none

/-- A barrier whose deadline passes advances its generation here; module 0 then discards that generation (R390). -/
def State.missBarrier (s : State) (num : Nat) : State :=
  let s := (s.nextGen num).setLnk { (s.nextGen num).lnk with
    waits := s.lnk.waits.filter (fun w => w.2.1 != num)
    rels := s.lnk.rels.filter (fun r => r.1 != num) }
  if s.modulePos = 0 then
    s.setLnk { s.lnk with
      least := Store.put 0 s.lnk.least num (max (Store.get 0 s.lnk.least num) (s.gen num))
      arrived := s.lnk.arrived.filter (fun w => w.1 != num || decide (s.gen num ≤ w.2.1)) }
  else s

/-- The command that `x` points to has missed its deadline while it waited for other modules (R350, R390, R392). -/
def State.linkMissed (s : State) (x : Nat) (before : Option Cmd) : State :=
  let s := s.setLnk { s.lnk with exch := s.lnk.exch.filter (fun e => e.x != x) }
  match s.lnk.waits.find? (fun w => w.1 == x) with
  | some w => s.missBarrier w.2.1
  | none => match before.bind s.barrierOf with
    | some num => s.missBarrier num
    | none => s

/-- A fence ends exchanges and barriers with FENCED_ABORT (R413). -/
def State.abortLink (s : State) : State :=
  let xs := s.lnk.exch.map Exch.x ++ s.lnk.waits.map Prod.fst
  let s := s.setLnk { s.lnk with exch := [], waits := [], rels := [] }
  xs.foldl (fun s x => s.modCmd x (fun c => if c.final.isSome then c else { c with final := some (0x0202, 0xFFFFFFFF) })) s

end Sys2Proof.Machine
end

