-- ==== Sys2Proof/Machine/Shards.lean ====
section
/-!
DEFINITION. Clusters and modules out of service: roles, self-tests, absorption, membership (R384, R405-R409).
-/

namespace Sys2Proof.Machine

/-! ### Absorption (R408, R409) -/

/-- The modules in service that still compute. -/
def State.computing (s : State) : List Nat := (modulesOf (s.rd bLNK LNK_MEMBERS_IN)).filter (fun m => bit s.lnk.out m == 0)

/-- The active clusters of module `m`, as far as this module knows them. -/
def State.activeOf (s : State) (m : Nat) : List Nat :=
  if m = s.modulePos then s.activeClusters else bitList 34 (nth 0 s.lnk.acts m)

/-- Absorb the shards of module `m`: in shard order they go to the other modules that compute, in turn, and on each to its active
clusters in turn. -/
def State.absorb (s : State) (m : Nat) : State :=
  let rs := s.computing.filter (· != m)
  if rs.isEmpty then s
  else
    let js := (List.range 1024).filter (fun j => s.mapModule j == m)
    js.zipIdx.foldl (fun s e =>
      let r := nth 0 rs (e.2 % rs.length)
      let cs := s.activeOf r
      s.setShard e.1 r (if cs.isEmpty then s.mapHomeRaw e.1 else nth 0 cs (e.2 / rs.length % cs.length))) s

/-- The clusters of the modules that still compute. -/
def State.capacity (s : State) : Nat := (s.computing.map (fun m => (s.activeOf m).length)).foldl (· + ·) 0

/-- Both ports of this module go to the fallback inspector (R408, R409). -/
def State.portsToFallback (s : State) (why : Nat) : State :=
  [0, 1].foldl (fun s p => s.switchPort (Config.linkCause why).toNat 0xFF p) s

/-- Every module out of compute is absorbed; one with too little capacity left gives up its own parts (R408). -/
def State.absorbOut (s : State) : State :=
  let s := ((modulesOf s.lnk.out).filter (fun m => s.serves m)).foldl State.absorb s
  if bit s.lnk.out s.modulePos = 1 ∧ s.capacity < s.rd bLNK LNK_SYSCFG_MIN_CLUSTERS then s.portsToFallback 1 else s

/-! ### Membership -/

/-- The commands that wait for modules that have left service go on (R389, R392), and their shards are absorbed (R409). -/
def State.dropModules (s : State) (ms : List Nat) : State :=
  let s := ms.foldl (fun s m => (s.loseDest m).absorb m) s
  if s.modulePos = 0 then s.decideAll else s

/-- This module leaves service (R395, R409). -/
def State.leaveService (s : State) : State :=
  let me := s.modulePos
  let s := s.setMembers (without (s.rd bLNK LNK_MEMBERS_JOINED) me) (without (s.rd bLNK LNK_MEMBERS_IN) me)
  s.portsToFallback 0

/-- Module 0 learns that module `m` has joined ports (R384). -/
def State.takeIn (s : State) (m : Nat) : State :=
  if s.joined m then s
  else (s.setMembers (withBit (s.rd bLNK LNK_MEMBERS_JOINED) m) (s.rd bLNK LNK_MEMBERS_IN)).sendMembers

/-- HEARTBEAT: module 0 hears from module `src`, whose ports have joined (R380, R384). -/
def execHeartbeat (t a src : Nat) (s : State) : Host.Outcome State Fault Refusal :=
  let s := s.at t
  .next (s.onFrame a (s.forMe frHEARTBEAT src src []) (fun s => if s.modulePos = 0 then s.takeIn src else s))

/-- MEMBERS: module 0 announces the joined and the in-service set (R384, R409). -/
def execMembers (t a joined serving : Nat) (s : State) : Host.Outcome State Fault Refusal :=
  let s := s.at t
  .next (s.onFrame a (bcast frMEMBERS 0 0 [joined, serving]) (fun s =>
    if s.modulePos = 0 then s
    else
      let gone := (modulesOf (s.rd bLNK LNK_MEMBERS_IN)).filter (fun m => bit serving m == 0 && m != s.modulePos)
      (s.setMembers joined serving).dropModules gone))

/-- MODULE_LOST: module 0 has heard nothing from module `m` for 50 µs (R409). -/
def execModuleLost (t m : Nat) (s : State) : Host.Outcome State Fault Refusal :=
  let s := s.at t
  .next (if s.lnkOn && s.modulePos == 0 && m != 0 && s.joined m && decide (Store.get 0 s.lnk.heard m + 50000 ≤ s.now) then
    let s := (s.setMembers (without (s.rd bLNK LNK_MEMBERS_JOINED) m) (without (s.rd bLNK LNK_MEMBERS_IN) m)).sendMembers
    let s := s.inc bLNK LNK_CNT_MEMBER_LOST
    let s := if s.lnk.upg.isSome && Store.get 0 s.lnk.reports m == 0 then
        s.setLnk { s.lnk with reports := Store.put 0 s.lnk.reports m 2 } else s
    s.dropModules [m]
  else s)

/-- MODULE_0_LOST: this module has heard nothing from module 0 for 50 µs and leaves service (R409). -/
def execModule0Lost (t : Nat) (s : State) : Host.Outcome State Fault Refusal :=
  let s := s.at t
  .next (if s.lnkOn && s.modulePos != 0 && s.joined s.modulePos && decide (Store.get 0 s.lnk.heard 0 + 50000 ≤ s.now) then
    s.leaveService
  else s)

/-! ### The recovered clock (R383, R541) -/

/-- RECOVERED_CLOCK_LOCK: Traif port 0 locks, and a module strapped to the recovered clock takes it from the lowest lane (R383, R541). -/
def execRecoveredClockLock (t : Nat) (s : State) : Host.Outcome State Fault Refusal :=
  let s := s.at t
  .next (if s.clkSel = 2 ∧ s.lnk.clkLane = none then
    s.setLnk { s.lnk with clkLane := (bitList 4 (s.rd bLNK (LNK_PORT_STAT_LANES_UP 0))).head? }
  else s)

/-- RECOVERED_CLOCK_LOSS: the lane of the recovered clock has lost lock: the next lane takes over, or the module holds the last frequency
and leaves service (R383, R541). -/
def execRecoveredClockLoss (t : Nat) (s : State) : Host.Outcome State Fault Refusal :=
  let s := s.at t
  .next (match s.lnk.clkLane with
  | some k =>
    match ((bitList 4 (s.rd bLNK (LNK_PORT_STAT_LANES_UP 0))).filter (· != k)).head? with
    | some j => s.setLnk { s.lnk with clkLane := some j }
    | none => (s.setLnk { s.lnk with clkLane := none }).leaveService
  | none => s)

/-! ### Roles and self-tests (R405, R407, R410) -/

/-- The role that cluster `c` has from the next epoch on. -/
def State.roleNext (s : State) (c : Nat) : Nat := (s.cluX c).nextRole.getD (s.role c)

/-- The active clusters that the grade allows. -/
def State.gradeActive (s : State) : Nat := (s.sys.roles.filter (· == 0)).length

/-- A write of `ROLE`: a disabled cluster keeps its role, and no write makes more clusters active than the grade allows. -/
def State.roleWrite (s : State) (c r : Nat) : State :=
  let others := ((List.range 34).filter (fun d => d != c && s.roleNext d == 0)).length
  if s.role c = 2 ∨ 2 ≤ r ∨ (r = 0 ∧ s.gradeActive ≤ others) then s
  else s.setClu c { s.cluX c with nextRole := if r = s.role c then none else some r }

/-- The role writes that wait take effect at an epoch. -/
def State.applyRoles (s : State) : State :=
  (List.range 34).foldl (fun s c => match (s.cluX c).nextRole with
    | some r => (s.setClu c { s.cluX c with nextRole := none }).wr (bCLU c) CLU_CTRL_ROLE r
    | none => s) s

/-- Start the self-test of cluster `c`: a spare that is ON. -/
def State.startTest (s : State) (c : Nat) : State :=
  if s.isOn (bCLU c) && !s.fencing (bCLU c) && s.role c == 1 && (s.cluX c).test.isNone then
    ((s.setClu c { s.cluX c with test := some s.now }).wr (bCLU c) CLU_CTRL_SELFTEST 1).wr (bCLU c) CLU_CTRL_ST_RESULT 1
  else s

/-- A write of `CLUn_CTRL`: `ENABLE`, `ROLE` and `SELFTEST` (R14, R405, R407, R410). -/
def State.cluCtrl (s : State) (c v : Nat) : State :=
  let s := s.enableReq (bCLU c) (bit v 0)
  let s := s.roleWrite c (bits v 1 2)
  if bit v 3 = 1 then s.startTest c else s

/-- SELFTEST: a write `v` of `CLUn_CTRL` of cluster `c` with `SELFTEST` (R407). -/
def execSelftest (t i c v : Nat) (s : State) : Host.Outcome State Fault Refusal :=
  let s := s.at t
  .next (if 34 ≤ c then s
  else if !s.regAllowed i true (bCLU c) 4 then s.deny i true (regBase + bCLU c * 0x100000 + 4)
  else s.cluCtrl c v)

/-- SELFTEST_DONE: the self-test of cluster `c` ends (R195, R407). -/
def execSelftestDone (t c : Nat) (pass : Bool) (s : State) : Host.Outcome State Fault Refusal :=
  let s := s.at t
  .next (if c < 34 ∧ (s.cluX c).test.isSome then
    let s := (s.setClu c { s.cluX c with test := none }).wr (bCLU c) CLU_CTRL_SELFTEST 0
    let m := s.rd64 bSCH SCH_SUBST_OK_LO SCH_SUBST_OK_HI
    if pass then ((s.setClu c { s.cluX c with untested := false }).wr (bCLU c) CLU_CTRL_ST_RESULT 2).wr64 bSCH SCH_SUBST_OK_LO SCH_SUBST_OK_HI (withBit m c)
    else (s.wr (bCLU c) CLU_CTRL_ST_RESULT 3).toFault (bCLU c)
  else s)

end Sys2Proof.Machine
end

