-- ==== Sys2Proof/Machine/Snap.lean ====
section
/-!
DEFINITION. Snapshot sets (R18, R399).
-/

namespace Sys2Proof.Machine

/-- Whether an offset of block `b` belongs to its snapshot set; a cluster's holds its exception record too (R246). -/
def inSnap (b off : Nat) : Bool :=
  if (0x20 ≤ b ∧ b ≤ 0x27) ∨ b = bPCAM then
    (decide (0x200 ≤ off) && decide (off ≤ 0x22C)) || (decide (0x1000 ≤ off) && decide (off < 0x20C0))
  else if 0x40 ≤ b ∧ b < 0x62 ∧ 0x100 ≤ off ∧ off < 0x120 then true
  else decide (0x800 ≤ off) && decide (off < 0x1000)

/-- Whether a store key belongs to the snapshot set of block `b`. -/
def snapKey (b k : Nat) : Bool := ofBlk b k && inSnap b (k % 33554432 / 32)

/-- What a function counts at the latch itself: the open and swapped sequences (R336), and the bits a lane's checker has compared. -/
def State.beforeSnap (s : State) (b : Nat) : State :=
  if b = bKVC then s.setCnt bKVC KVC_SEQ_OPEN (s.kvc.seqs.filter (fun e => e.2.state == 1 || e.2.state == 2)).length
  else if 0xC0 ≤ b ∧ b ≤ 0xF3 then s.countChk (b - 0xC0)
  else s

/-- The extremes that start over at a latch: the lowest free pages (R336) and the highest commands in flight (R366). -/
def State.afterSnap (s : State) (b : Nat) : State :=
  if b = bKVC then s.setCnt bKVC KVC_FREE_MIN s.freeTotal
  else if b = bSCH then s.setCnt bSCH SCH_INFLIGHT_MAX s.sch.cmds.length
  else s

/-- Latch the snapshot set of block `b` (R18). -/
def State.snapBlk (s : State) (b : Nat) : State :=
  let s := s.beforeSnap b
  let kept : Store (BitVec 32) := s.regs.filter (fun e => !snapKey b e.1)
  let now : Store (BitVec 32) := s.live.filter (fun e => snapKey b e.1)
  let s := { s with regs := List.foldl (fun (l : Store (BitVec 32)) (e : Nat × BitVec 32) => Store.put 0#32 l e.1 e.2) kept now }
  (s.wr b COM_STATE_SNAP_SEQ (s.rd b COM_STATE_SNAP_SEQ + 1)).afterSnap b

/-- Every function latches its snapshot set (R399). -/
def State.snapAll (s : State) : State :=
  ((List.range 0xF4).filter (fun b => blkExists b && s.domOn b)).foldl State.snapBlk s

end Sys2Proof.Machine
end

