-- ==== Sys2Proof/Machine/Traif.lean ====
section
/-!
DEFINITION. Traif Link: joining, hops, system position and time, snapshots, resets, sub-verdicts (R69, R378-R387, R399, R403, R404,
R412, R413).
-/

namespace Sys2Proof.Machine

/-! ### Joining (R381-R383) -/

/-- Whether a clock source suits a module's position (R383). -/
def clockOk (pos clk : Nat) : Bool := if pos = 0 then decide (clk ≤ 1) else clk == 2

/-- Whether a peer at `pos` may stand at port `p`. -/
def State.peerOk (s : State) (p pos : Nat) : Bool :=
  let me := s.modulePos
  let n := s.lnk.modules
  if p = 1 then pos == (if s.isRing then (me + 1) % n else me + 1)
  else if me = 0 then s.isRing && pos + 1 == n
  else pos + 1 == me

/-- The cause for which a peer is rejected, 0 when it joins (R381, R383). -/
def State.peerCause (s : State) (p major sysid pos topo modules clk : Nat) : Nat :=
  let m := linkMajor
  if sysid ≠ s.lnk.sysid then 1
  else if topo ≠ s.rd bLNK LNK_SYSCFG_TOPO ∨ modules ≠ s.lnk.modules then 4
  else if 1 < max major m - min major m then 2
  else if !s.peerOk p pos then 3
  else if !clockOk pos clk || !clockOk s.modulePos s.clkSel then 5
  else 0

/-- HELLO: the peer of port `a` introduces itself (R381, R382): the port joins, or is rejected with its cause. A port that had joined
answers, so that the peer can join again. -/
def execHello (t a major minor sysid pos topo modules clk : Nat) (s : State) : Host.Outcome State Fault Refusal :=
  let s := s.at t
  .next (if s.lnkOn && decide (a < 2) && s.rd bLNK (LNK_PORT_STAT_LANES_UP a) != 0 then
    let was := s.rd bLNK (LNK_PORT_STAT_PSTATE a)
    let s := if was = 3 then s.sendHello a else s
    let s := (s.wr bLNK (LNK_PORT_STAT_PEER_MAJOR a) major).wr bLNK (LNK_PORT_STAT_PEER_POS a) pos
    let c := s.peerCause a major sysid pos topo modules clk
    let s := s.wr bLNK (LNK_PORT_STAT_CAUSE a) c
    if c ≠ 0 then s.setPortState a 4
    else
      let m := linkMajor
      let n := linkMinor
      let low := if major < m then (major, minor) else if m < major then (m, n) else (m, min n minor)
      let s := s.setLinkPort a { rxAt := s.now, txAt := (s.linkPort a).txAt, helloAt := (s.linkPort a).helloAt, major := low.1, minor := low.2 }
      let s := s.setPortState a 3
      if s.joined s.modulePos then s else s.setLnk { s.lnk with heard := Store.put 0 s.lnk.heard 0 s.now }
  else s)

/-- HELLO_RETRY: a rejected port, or one that still waits for its peer, sends `HELLO` again every 100 ms (R381). -/
def execHelloRetry (t a : Nat) (s : State) : Host.Outcome State Fault Refusal :=
  let s := s.at t
  let st := s.rd bLNK (LNK_PORT_STAT_PSTATE a)
  .next (if s.lnkOn && decide (a < 2) && (st == 4 || st == 2) && decide ((s.linkPort a).helloAt + 100000000 ≤ s.now) then s.sendHello a else s)

/-! ### Hops (R378-R380) -/

/-- HEARTBEAT_SEND: the heartbeat to module 0 every 10 µs, and a frame on every port that has sent none for 10 µs (R380). -/
def execHeartbeatSend (t : Nat) (s : State) : Host.Outcome State Fault Refusal :=
  let s := s.at t
  .next (if s.lnkOn then
    let s := if s.modulePos = 0 ∨ !s.due perBeat 10000 then s
      else (s.mark perBeat).sendFrame (s.frame frHEARTBEAT 0 s.modulePos [])
    [0, 1].foldl (fun s p => if s.portUp p && decide ((s.linkPort p).txAt + 10000 ≤ s.now) then s.sendLack p else s) s
  else s)

/-- A port hears a valid frame of its neighbour that carries no number. -/
def State.hears (s : State) (a : Nat) : State := s.setLinkPort a { s.linkPort a with rxAt := s.now }

/-- The frames of a replay buffer after those up to number `n` have been acknowledged. -/
def acked (n : Nat) (l : List (Nat × Nat × Frame)) : List (Nat × Nat × Frame) :=
  if l.any (fun r => r.1 == n) then (l.dropWhile (fun r => r.1 != n)).drop 1 else l

/-- LACK: the neighbour has everything up to number `n` (R378). -/
def execLack (t a n : Nat) (s : State) : Host.Outcome State Fault Refusal :=
  let s := s.at t
  .next (if s.portUp a then
    let s := s.hears a
    let x := s.linkPort a
    (s.setLinkPort a { x with replay := acked n x.replay }).flushPort a
  else s)

/-- LNAK: the sender replays from number `n` on; a frame that needs a ninth replay takes the port down (R378). -/
def execLnak (t a n : Nat) (s : State) : Host.Outcome State Fault Refusal :=
  let s := s.at t
  .next (if s.portUp a then
    let s := s.hears a
    let x := s.linkPort a
    let before := x.replay.takeWhile (fun r => r.1 != n)
    let again := x.replay.dropWhile (fun r => r.1 != n)
    if again.any (fun r => decide (8 ≤ r.2.1)) then s.portDown a
    else
      let s := s.setLinkPort a { x with replay := before ++ again.map (fun r => (r.1, r.2.1 + 1, r.2.2)) }
      (again.foldl (fun s r => s.putFrame a r.1 true r.2.2) s).inc bLNK (LNK_CNT_REPLAY a) again.length
  else s)

/-- Answer a bad frame or a gap on port `a` with `LNAK`. -/
def State.sendLnak (s : State) (a : Nat) : State :=
  s.putFrame a 0 true { type := frLNAK, src := s.modulePos, dest := toAll, arg := (s.linkPort a).rx }

/-- FRAME_BAD_CRC: a frame with a bad CRC, or one after a gap in the sequence, arrives on port `a` (R378). -/
def execFrameBadCrc (t a : Nat) (gap : Bool) (s : State) : Host.Outcome State Fault Refusal :=
  let s := s.at t
  .next (if s.portUp a then (if gap then s else s.inc bLNK (LNK_CNT_CRC a)).sendLnak a else s)

/-- FRAME_FORWARD: a frame for another module arrives on port `a` and leaves on the other (R379); one whose old CRC fails, a broadcast that
travels on too, ends with an inverted CRC and is asked for again. -/
def execFrameForward (t a type src dest arg tag : Nat) (poison crcOk : Bool) (data : List Int) (s : State) :
    Host.Outcome State Fault Refusal :=
  let s := s.at t
  let f : Frame := { type := type, src := src, dest := dest, arg := arg, tag := tag, poison := poison, data := data }
  .next (if s.portUp a ∧ dest ≠ s.modulePos ∧ (dest ≠ toAll ∨ (!crcOk ∧ s.passesOn a f)) then
    if crcOk then (s.rxFrame a f).forward a f
    else
      let s := if s.portUp (1 - a) then s.putFrame (1 - a) (s.linkPort (1 - a)).tx false f else s
      (s.inc bLNK (LNK_CNT_CRC a)).sendLnak a
  else s)

/-- LINK_PORT_TIMEOUT: port `a` has received no valid frame for 30 µs (R380). -/
def execLinkPortTimeout (t a : Nat) (s : State) : Host.Outcome State Fault Refusal :=
  let s := s.at t
  .next (if s.portUp a && decide ((s.linkPort a).rxAt + 30000 ≤ s.now) then s.portDown a else s)

/-! ### Resets and assignment (R69, R412) -/

/-- RESET_REQ: module `src` asks this module to reset (R69). -/
def execResetReq (t a src : Nat) (s : State) : Host.Outcome State Fault Refusal :=
  let s := s.at t
  .next (s.onFrame a (s.forMe frRESET_REQ src 0 []) (fun s =>
    if s.rd bRST RST_SRC_EN_LNK_REQ_EN = 1 then s.systemReset RST_CAUSE_LNK_REQ else s))

/-- A keyed write of one of the link unit's registers for management cores and the host only (R412). -/
def State.lnkKeyed (s : State) (i off v : Nat) (k : State → State) : State :=
  if !s.mgmtOrHost i then s.deny i true (regBase + bLNK * 0x100000 + off)
  else if !s.domOn bLNK ∨ bits v 16 16 ≠ 0xA5C3 then s
  else k s

/-- LNK_RESETREQ: a write `v` of `LNK_RESETREQ` sends a reset request (R412). -/
def execLnkResetreq (t i v : Nat) (s : State) : Host.Outcome State Fault Refusal :=
  .next ((s.at t).lnkKeyed i 0x1E0 v (fun s =>
    if bit v 8 = 1 ∧ s.lnkOn ∧ bits v 0 4 ≠ s.modulePos then s.sendFrame (s.frame frRESET_REQ (bits v 0 4) 0 []) else s))

/-- LNK_ASSIGN: a write `v` of `LNK_ASSIGN` stores a position, a topology and the system identifier in the identity memory (R60, R412). -/
def execLnkAssign (t i v : Nat) (s : State) : Host.Outcome State Fault Refusal :=
  .next ((s.at t).lnkKeyed i 0x104 v (fun s =>
    s.idEvent [(0x140, leBytes 8 (s.rd64 bLNK LNK_SYSID_LO LNK_SYSID_HI)), (0x148, [bits v 0 4, bit v 8])]))

/-! ### Time and position (R385-R387) -/

/-- TIME: module 0's time base at departure arrives after the hops whose `LACK` round trips are `trips`, all in units of 2^-32 ns (R385,
R462, R463). -/
def execTimeFrame (t a value : Nat) (trips : List Nat) (s : State) : Host.Outcome State Fault Refusal :=
  let s := s.at t
  .next (s.onFrame a (bcast frTIME 0 value []) (fun s =>
    if s.modulePos = 0 ∨ !s.joined s.modulePos then s
    else
      let s := s.moveTime ((value + (trips.map (· / 2)).foldl (· + ·) 0) % tbWrap)
      ((s.wr bTIM TIM_STAT_SOURCE 3).wr bTIM TIM_STAT_VALID 1).restartHold))

/-- TIME_SEND: module 0 sends its time base every 1 ms (R385). -/
def execTimeSend (t : Nat) (s : State) : Host.Outcome State Fault Refusal :=
  let s := s.at t
  .next (if s.lnkOn ∧ s.modulePos = 0 ∧ s.due perTime 1000000 then (s.mark perTime).sendFrame (s.frame frTIME toAll s.tb.time []) else s)

/-- POSITION_SEND: module 0 sends the position of each Stirrup port in ON every 10 µs (R386). -/
def execPositionSend (t : Nat) (s : State) : Host.Outcome State Fault Refusal :=
  let s := s.at t
  .next (if s.lnkOn ∧ s.modulePos = 0 ∧ s.due perPos 10000 then
    [0, 1].foldl (fun s p => if s.isOn (bSTP p) then
      s.sendFrame (s.frame frPOSITION toAll p [s.pos p, s.speed p * 256, s.tb.time]) else s) (s.mark perPos)
  else s)

/-- The nanoseconds since a time base value. -/
def State.sinceTb (s : State) (x : Nat) : Nat := (s.tb.time - x) / tbNsUnit

/-- A wired port compares module 0's count with its own at the time of the sample (R386). -/
def State.wiredFrame (s : State) (p : Nat) (cnt : Int) (sample : Nat) : State :=
  let v := s.speedFrac p
  let own := s.ownPos p - v.1 * s.sinceTb sample * 256 / (v.2 : Int)
  let d := (cnt - own + 128) / 256
  let x := s.followP p
  let good := if x.seen && d == x.off then x.good + 1 else 1
  let al := s.rd bLNK LNK_POSCFG_ALIGNED
  let set := sext 32 (s.rd bLNK (LNK_POSOFF p))
  if bit al p = 0 then
    if 16 ≤ good then
      ((s.setFollow p { x with off := d, seen := true, good := good, bad := 0 }).wr bLNK (LNK_POSOFF p) (toCode 32 d)).wr bLNK LNK_POSCFG_ALIGNED
        (withBit al p)
    else s.setFollow p { x with off := d, seen := true, good := good, bad := 0 }
  else
    let bad := if 2 < (d - set).natAbs then x.bad + 1 else 0
    if 64 ≤ bad then
      let s := (s.setFollow p { x with off := d, seen := true, good := 1, bad := 0 }).wr bLNK LNK_POSCFG_ALIGNED (without al p)
      (s.raise 0x0502 bLNK p).stage7 p (4 * p + 3)
    else s.setFollow p { x with off := d, seen := true, good := good, bad := bad }

/-- POSITION: the count of module 0's port `p`, its speed in counts × 256 per second and the time base value of the sample (R386). -/
def execPosition (t a p : Nat) (cnt spd : Int) (sample : Nat) (s : State) : Host.Outcome State Fault Refusal :=
  let s := s.at t
  .next (s.onFrame a (bcast frPOSITION 0 p [cnt, spd, sample]) (fun s =>
    if s.modulePos = 0 ∨ 2 ≤ p then s
    else if s.isFollower p then
      ((s.noteReached p).setFollow p { s.followP p with sys := cnt, spd := spd, sysAt := s.now - s.sinceTb sample, seen := true }).noteReached p
    else s.wiredFrame p cnt sample))

/-! ### System snapshots (R399) -/

/-- LNK_SSNAP_GO: a write `v` of `LNK_SSNAP_GO` broadcasts the written position; it is one of the port that `LNK_EPOCH_CFG` names. -/
def execLnkSsnapGo (t i v : Nat) (s : State) : Host.Outcome State Fault Refusal :=
  let s := s.at t
  .next (if !s.regAllowed i true bLNK 0x160 then s.deny i true (regBase + bLNK * 0x100000 + 0x160)
  else if bit v 0 = 1 ∧ s.lnkOn ∧ s.modulePos = 0 then
    let p := s.rd bLNK LNK_EPOCH_CFG_PORT
    let x := s.rdS64 bLNK LNK_SSNAP_POS_LO LNK_SSNAP_POS_HI
    (s.setLnk { s.lnk with snap := some (p, x) }).sendFrame (s.frame frSNAP toAll p [x])
  else s)

/-- SNAP_FRAME: module 0 names the position of a system snapshot. -/
def execSnapFrame (t a p : Nat) (pos : Int) (s : State) : Host.Outcome State Fault Refusal :=
  let s := s.at t
  .next (s.onFrame a (bcast frSNAP 0 p [pos]) (fun s => if s.inService then s.setLnk { s.lnk with snap := some (p, pos) } else s))

/-- SYSTEM_SNAPSHOT: the system position has reached the snapshot position, and every function latches its snapshot set. -/
def execSystemSnapshot (t : Nat) (s : State) : Host.Outcome State Fault Refusal :=
  let s := s.at t
  .next (match s.lnk.snap with
  | some (p, x) => if x ≤ s.pos p ∧ s.inService then (s.setLnk { s.lnk with snap := none }).snapAll else s
  | none => s)

/-! ### Sub-verdicts (R404) -/

/-- SUBVERDICT: a contributor reports check `c` of a part on port `p` (R404); one that comes too late is discarded (R26). -/
def execSubverdict (t a src part p c verdict : Nat) (degraded : Bool) (s : State) : Host.Outcome State Fault Refusal :=
  let s := s.at t
  .next (s.onFrame a (s.forMe frSUBVERDICT src part [p, c, verdict, if degraded then 1 else 0]) (fun s =>
    let s := s.inc bLNK LNK_CNT_SUBV_RX
    let late := match s.slotOfPart p part with
      | some (k, _) => match s.mergeAt p k with
        | some m => m.committed
        | none => true
      | none => true
    if late then s.inc bLNK LNK_CNT_SUBV_LATE else (s.checkReport p part c verdict 0 degraded).settleCtxs))

/-! ### The function (R384, R412, R413) -/

/-- The link unit enters ON: `MODULES` and the identity record take effect, and its ports begin to train or say hello. -/
def State.lnkStart (s : State) : State :=
  let b := s.sys.idUse.getD []
  let s := ((s.setLnk { s.lnk with sysid := leAt b 0x140 8 }).wr bLNK LNK_SYSCFG_POSITION (leAt b 0x148 1)).wr bLNK LNK_SYSCFG_TOPO (leAt b 0x149 1)
  let s := s.setLnk { s.lnk with modules := s.rd bLNK LNK_SYSCFG_MODULES }
  let s := [0, 1].foldl (fun s p => if s.rd bLNK (LNK_PORT_STAT_LANES_UP p) = 0 then s.setPortState p 1 else s.linkUp p) s
  if s.modulePos = 0 then s.setMembers 1 1 else s

/-- The link unit stops: both ports, and what waits for other modules (R413). -/
def State.lnkStop (s : State) : State :=
  let s := [0, 1].foldl (fun s p => (s.setLinkPort p {}).setPortState p 0) s.abortLink
  if s.modulePos = 0 then s else if s.joined s.modulePos then s.leaveService else s

/-- A reset of the fenced link unit, beside its registers (R413): the job, and the epochs counted with it, stay with the module. -/
def State.lnkReset (s : State) : State :=
  s.setLnk { modules := s.lnk.modules, sysid := s.lnk.sysid, upg := s.lnk.upg, mine := s.lnk.mine, clkLane := s.lnk.clkLane
             ending := s.lnk.ending, resultVer := s.lnk.resultVer, out := s.lnk.out, acts := s.lnk.acts }

end Sys2Proof.Machine
end

