-- ==== Sys2Proof/Machine/Functions.lean ====
section
/-!
DEFINITION. What each function does as it enters ON, leaves it, is fenced, stops and is reset (R14-R17, R94 and the functions' own
chapters).
-/

namespace Sys2Proof.Machine

/-- Whether a block has a function that can be fenced and reset alone (R93, and `MEM4`). -/
def fences (b : Nat) : Bool :=
  blkExists b && b != bPWR && b != bRST && b != bCLK && b != bHLT && b != bMEM4

/-- Whether a block is a cluster, a camera port, a lane, a DMA channel, a slice. -/
def isClu (b : Nat) : Bool := decide (0x40 ≤ b) && decide (b ≤ 0x61)
def isCam (b : Nat) : Bool := (decide (0x20 ≤ b) && decide (b ≤ 0x27)) || b == bPCAM
def isSds (b : Nat) : Bool := decide (0xC0 ≤ b) && decide (b ≤ 0xF3)
def isDma (b : Nat) : Bool := decide (0x80 ≤ b) && decide (b ≤ 0x9F)
def isSlice (b : Nat) : Bool := decide (8 ≤ b) && decide (b ≤ 0xB)

/-- The camera port of a block. -/
def camOf (b : Nat) : Nat := if b = bPCAM then 8 else b - 0x20

/-! ### Entering ON -/

/-- A function has entered ON. -/
def State.onEnter (s : State) (b : Nat) : State :=
  if b = 0x1C ∨ b = 0x1D then s.stpEnterOn (b - 0x1C)
  else if isCam b then s.camOn (camOf b)
  else if isClu b then (s.driveOp (b - 0x40)).askRail ((b - 0x40) % 4)
  else if b = bTAN then s.tanOn
  else if b = bLNK then s.lnkStart
  else if isDma b then s.dmaOn (b - 0x80)
  else if b = 0x14 ∨ b = 0x15 then
    (if s.laneLive (40 + (b - 0x14) + 2 * s.rd b ETH_CFG_LANE) then s.ethUp (b - 0x14) else s)
  else if b = bPCIE then s.pcieRelink
  else if b = bFIO then s.refreshFio
  else if b = bTIM then s.timOn
  else s

/-! ### Leaving ON -/

/-- Cluster `c` is out of service at once: its tile counts as not run, and tiles bound to it go elsewhere (R244). -/
def State.cluOut (s : State) (c : Nat) : State := (s.abandonTile c).rebind c

/-- A function leaves ON for a state in which it does nothing more: `fence` says whether a fence was the reason. -/
def State.onLeave (s : State) (b : Nat) (fence : Bool) : State :=
  if b = 0x1C ∨ b = 0x1D then s.stpLeft (b - 0x1C) fence
  else if b = 0x1E ∨ b = 0x1F then s.ejtLeft (b - 0x1E)
  else if b = bLNK then (if fence then s else s.lnkStop)
  else if isSds b then (s.laneLeft (b - 0xC0)).showLane (b - 0xC0)
  else if b = bFIO then s.refreshFio
  else s

/-- `ENABLE` has been written 0 in ON: beside what every way out of ON does, a camera port of a running job waits for its lines (R128). -/
def State.onStop (s : State) (b : Nat) : State :=
  let s := s.onLeave b false
  if isCam b && s.jobRun && s.act b CAM_TRIG_SRC != 0 then s.setCam (camOf b) { s.camP (camOf b) with stopAt := some s.now } else s

/-- A function stops working for good: a fence has been completed, or it has entered FAULT. -/
def State.onHalt (s : State) (b : Nat) : State :=
  if isClu b then s.cluOut (b - 0x40)
  else if isCam b then s.camOff (camOf b)
  else if b = 0x14 ∨ b = 0x15 then s.ethDown (b - 0x14)
  else if b = bPCIE then s.pcieRelink
  else s

/-- A fence has been requested: outstanding traffic completes with FENCED_ABORT (R15, R170, R186, R337, R367, R531, R559, R583). -/
def State.onFence (s : State) (b : Nat) : State :=
  if b = bTAN then s.tanFence
  else if b = bSCH then s.schFence
  else if b = bKVC then s.kvcFence
  else if b = bCAP then s.capFence
  else if b = bLNK then s.lnkStop
  else if isSlice b then s.sliceFence (b - 8)
  else if isDma b then s.dmaFence (b - 0x80)
  else if b = bPCIE then s.dmaHostFails 0x0202
  else if isSds b && s.rd b SDS_CTRL_RETRAIN == 1 then s.wr b SDS_CTRL_RETRAIN 0
  else s

/-! ### Reaching OFF -/

/-- Whether a stopping function may reach OFF: a camera port's wait is over (R128), a channel's transfer (R582), a cluster's tile and
the scheduler's commands are finished. -/
def State.stopReady (s : State) (b : Nat) : Bool :=
  if isCam b then (s.camP (camOf b)).stopAt.isNone
  else if isDma b then s.dmaStops (b - 0x80)
  else if isClu b then (s.tileOf (b - 0x40)).isNone
  else if b = bSCH then s.sch.cmds.isEmpty
  else true

/-- A slice that stops empties itself: its buckets move and its dirty lines are written back. -/
def State.sliceStop (s : State) (n : Nat) : State :=
  if s.sliceSt n = 4 then s
  else
    let s := if s.sliceSt n = 0 then s.moveBuckets n else s
    (s.flushSlices (· == n)).setSliceSt n 4

/-- A function has shut down. -/
def State.onOff (s : State) (b : Nat) : State :=
  if isCam b then s.camOff (camOf b)
  else if isClu b then s.rebind (b - 0x40)
  else if isSlice b then s.sliceStop (b - 8)
  else if isDma b then s.wr b DMA_STAT_IDLE 0
  else if b = 0x14 ∨ b = 0x15 then s.ethDown (b - 0x14)
  else if b = bPCIE then s.pcieReset
  else if b = bCAP then s.capAll 7
  else s

/-! ### Reset -/

/-- The scratchpad of cluster `c` is cleared (R94). -/
def State.clearSpad (s : State) (c : Nat) : State :=
  let a := spadBase c
  let out (k : Nat) : Bool := decide (k < a) || decide (a + spadSize ≤ k)
  { s with
    mem := s.mem.filter (fun e => out e.1)
    poison := s.poison.filter (fun e => out e.1)
    errs := s.errs.filter (fun e => out e.1) }

/-- What a function holds beside its registers goes to its state after a reset. -/
def State.clearInner (s : State) (b : Nat) : State :=
  if b = 0x1C ∨ b = 0x1D then (s.setStp (b - 0x1C) (keepLevels (s.stpP (b - 0x1C)))).setFollow (b - 0x1C) {}
  else if b = 0x1E ∨ b = 0x1F then s.setEjt (b - 0x1E) { mayOpen := false }
  else if isCam b then s.setCam (camOf b) {}
  else if b = bTAN then s.tanReset
  else if b = bCLM then { s with clm := {} }
  else if isClu b then (s.setClu (b - 0x40) { untested := (s.cluX (b - 0x40)).untested }).clearSpad (b - 0x40)
  else if isSlice b then s.sliceReset (b - 8)
  else if b = bSCH then { s.setSch {} with merge := [] }
  else if b = bKVC then s.kvcReset
  else if b = bLNK then s.lnkReset
  else if b = bEVQ then { s with evqSeq := [] }
  else if b = 0x14 ∨ b = 0x15 then s.setEth (b - 0x14) {}
  else if b = bPCIE then s.pcieReset
  else if isDma b then s.setDma (b - 0x80) {}
  else if isSds b then s.setSds (b - 0xC0) {}
  else if b = bFIO then s.setField { diRaw := s.field.diRaw, diSince := s.field.diSince, held := s.field.held }
  else if b = bTIM then
    s.setTb { time := s.tb.time, inc := s.tb.inc, holdFrom := s.tb.holdFrom, jumps := s.tb.jumps }
  else if b = bCAP then s.setPwr { s.pwr with cls := [], overRun := 0, samples := [], ran := [] }
  else s

/-- The shadowed settings of the key-value cache pools. -/
def poolFields : List Fld :=
  (List.range 4).flatMap (fun k => [KVC_POOL_BASE_LO k, KVC_POOL_BASE_HI k, KVC_POOL_CFG_VALID k, KVC_POOL_CFG_FMT k, KVC_POOL_CFG_D k,
    KVC_POOL_PAGES_FIRST k, KVC_POOL_PAGES_COUNT k])

/-- The fields of a block that its function reset leaves as they are: the time base's (R475), the readings that show what lasts outside
the function, the job at Traif Link, `SCH_SUBST_OK` (R195), and the settings of the pools, which the reset puts into effect (R337). -/
def keptFields (b : Nat) : List Fld :=
  if b = bTIM then [TIM_INC_NS, TIM_INC_FRAC, TIM_STAT_VALID, TIM_STAT_SOURCE, TIM_STAT_HOLDOVER]
  else if b = bFIO then [FIO_STAT_SAFE, FIO_DI]
  else if b = bCAP then [CAP_STAT_THERM_LIMIT, CAP_STAT_T_HOT] ++ (List.range 42).map CAP_TEMP
  else if b = bLNK then [LNK_EPOCH_STAT_JOB_RUN, LNK_SYSCFG_POSITION, LNK_SYSCFG_TOPO]
  else if b = bSCH then [SCH_SUBST_OK_LO, SCH_SUBST_OK_HI]
  else if b = bKVC then KVC_SWAP_STAT_LINK :: poolFields
  else []

/-- Bring a block's registers and what it holds to their reset values (R17); the field side starts as if `V24F` had just fallen (R52,
R447). -/
def State.wipe (s : State) (b : Nat) : State :=
  let keep := (keptFields b).map (fun f => (f, s.rd b f))
  let t := keep.foldl (fun t e => t.wr b e.1 e.2) ((s.clearInner b).clearBlk b)
  if b = bFIO then (t.wr bFIO FIO_STAT_UV 1).wr bFIO FIO_STAT_FAULT (s.rd bFIO FIO_STAT_FAULT)
  else if b = bKVC then poolFields.foldl (fun t f => t.wrAct bKVC f (s.rd bKVC f)) t
  else if isClu b then t.wr b CLU_CTRL_ROLE (if s.rd b CLU_CTRL_ROLE = 2 then 2 else 1) else t

end Sys2Proof.Machine
end

