-- ==== Sys2Proof/Machine/Power.lean ====
section
/-!
DEFINITION. Power domains as they go off and come up, sleep states, and what the power controller's registers do (R503-R518).
-/

namespace Sys2Proof.Machine

/-! ### Domains (R504-R509) -/

/-- Save what the retention list names of the functions of domain `n` (R506, R509, R590). -/
def State.saveDom (s : State) (n : Nat) : State :=
  let s := (blocksOf n).foldl State.saveBlk s
  if 2 ≤ n ∧ n ≤ 35 then s.saveClk (n - 2)
  else if 36 ≤ n ∧ n ≤ 39 then s.write (retBase + 0x230) ((List.range 256).map (fun k => s.sliceOf k))
  else if n = 50 then s.write (retBase + 0x448) (leBytes 8 s.memu.scrubLine)
  else s

/-- What a function holds beside its registers is lost with its power; the buckets of a slice and the contexts behind the saved slot
states are not. -/
def State.powerInner (s : State) (b : Nat) : State :=
  if isSlice b then s.flushSlices (· == b - 8)
  else if b = bMEM4 then
    let s := s.flushSlices (fun _ => true)
    s.setMem { s.memu with log := [], logIdx := 0, ceAt := [], ceHigh := [], lines := [], word := [], pf := [], miss := [], found := [] }
  else if b = bHLT then { s with hlt := { fbGen := s.hlt.fbGen } }
  else if b = bSCH then { s.setSch { ctx := s.sch.ctx } with merge := [] }
  else s.clearInner b

/-- Domain `n` loses its power: `off` says that its functions read OFF with `ENABLE` 0 from then on (R515). -/
def State.cutDom (off : Bool) (s : State) (n : Nat) : State :=
  let p := s.pstate n
  let s := if p = 2 ∨ p = 3 then s.saveDom n else s
  let s := (blocksOf n).foldl (fun s b =>
    let s := (s.powerClear b).powerInner b
    if off then (s.setFsm b fOFF).wr b COM_CTRL_ENABLE 0 else s) s
  let s := if 52 ≤ n ∧ n ≤ 54 then s.wr bPWR PWR_MC_CTRL_ON (s.rd bPWR PWR_MC_CTRL_ON - bit (s.rd bPWR PWR_MC_CTRL_ON) (n - 52) * 2 ^ (n - 52)) else s
  s.setPstate n 0

/-- The parts of a saved copy: where they begin, their bytes, and the critical source they belong to (R508). -/
def copyParts (b : Nat) : List (Nat × Nat × Option Nat) :=
  if b = bSCH then [(0, 1024, some 0), (1560, 4096, some 3), (1024, 536, none), (5656, 8, none)]
  else [(0, 4 * (retList b).length, none)]

/-- A saved copy is spoilt (R508): its function keeps its reset values and enters FAULT, which a function that is fenced or waits for its
fence does not (R14, R15). -/
def State.restoreFail (s : State) (b : Nat) : State :=
  let s := ((retList b).flatMap (ownFields b)).foldl (fun s f => s.wr b f f.rst) s
  ((s.toFault b).inc bPWR PWR_CNT_RESTORE_FAIL).raise 0x0901 bPWR b

/-- A context slot saved as ACTIVE comes back as READY (R509). -/
def State.restoreCtxs (s : State) : State :=
  (List.range 64).foldl (fun s k => if s.ctxState k = 3 then s.setCtxState k 2 else s) s

/-- Restore a function's registers from its saved copy, if it has one (R506-R508). -/
def State.restoreBlk (s : State) (b : Nat) : State :=
  if !Store.get false s.pwr.saved b then s
  else
    let a := retAddr b
    let s := s.setPwr { s.pwr with saved := Store.put false s.pwr.saved b false }
    let s := (copyParts b).foldl (fun s e => s.readUnits 0 (a + e.1) e.2.1) s
    match (copyParts b).find? (fun e => s.poisoned (a + e.1) e.2.1) with
    | some e => (match e.2.2 with
      | some c => s.criticalReset c
      | none => s.restoreFail b)
    | none =>
      let s := s.restoreRegs b
      if b = bSCH then s.restoreCtxs
      else if b = bMEM4 then s.setMem { s.memu with scrubLine := s.readLE (retBase + 0x448) 8 }
      else s

/-- Domain `n` has power again: its functions' registers are restored (R504, R506), and the field side starts as if `V24F` had just
fallen (R52, R447), with the safe reaction that stands (R449); a copy of critical state that is spoilt resets the module instead (R508). -/
def State.upDom (s : State) (n : Nat) : State :=
  if s.sys.inReset then s else
  let s := s.setPstate n 2
  let s := (blocksOf n).foldl State.restoreBlk s
  if s.sys.inReset then s
  else if n = 56 then
    ((s.wr bFIO FIO_STAT_UV 1).wr bFIO FIO_STAT_SAFE (if s.rd bHLT HLT_STAT_LEVEL = 2 then 1 else 0)).refreshFio
  else if 52 ≤ n ∧ n ≤ 54 then s.wr bPWR PWR_MC_CTRL_ON ((s.rd bPWR PWR_MC_CTRL_ON).lor (2 ^ (n - 52)))
  else s

/-- DOMAIN_POWER_UP: domain `n` finishes powering up (R504, R506). -/
def execDomainPowerUp (t n : Nat) (s : State) : Host.Outcome State Fault Refusal :=
  let s := s.at t
  .next (if n < 60 ∧ s.pstate n = 1 then s.upDom n else s)

/-- DOMAIN_POWER_DOWN: domain `n` saves and loses its power (R504, R506); a function that has been enabled meanwhile makes it power up
again. -/
def execDomainPowerDown (t n : Nat) (s : State) : Host.Outcome State Fault Refusal :=
  let s := s.at t
  .next (if n < 60 ∧ s.pstate n = 3 then
    let s := s.cutDom false n
    if (blocksOf n).any (fun b => s.fsm b == fSTARTING) then s.setPstate n 1 else s
  else s)

/-! ### Management cores (R505) -/

/-- Management core `k` is powered off. -/
def State.coreOff (s : State) (k : Nat) : State :=
  let s := s.setPwr { s.pwr with pendOff := s.pwr.pendOff - (if bit s.pwr.pendOff k = 1 then 2 ^ k else 0) }
  (s.setPstate (51 + k) 0).wr bPWR PWR_MC_CTRL_ON
    (s.rd bPWR PWR_MC_CTRL_ON - (if bit (s.rd bPWR PWR_MC_CTRL_ON) (k - 1) = 1 then 2 ^ (k - 1) else 0))

/-- The power request `v` for core `k` (R505): off is held until the core waits. -/
def State.coreReq (s : State) (k v : Nat) : State :=
  let p := s.pwr.pendOff
  let clear := s.setPwr { s.pwr with pendOff := p - (if bit p k = 1 then 2 ^ k else 0) }
  if v = 1 then (if s.pstate (51 + k) = 0 then clear.setPstate (51 + k) 1 else clear)
  else if s.pstate (51 + k) = 2 ∧ bit p k = 0 then s.setPwr { s.pwr with pendOff := p + 2 ^ k }
  else if s.pstate (51 + k) = 1 then s.setPstate (51 + k) 0
  else s

/-- PWR_MC_CTRL: a write `v` by initiator `i` (R505): only management core 0's is accepted. -/
def execPwrMcCtrl (t i v : Nat) (s : State) : Host.Outcome State Fault Refusal :=
  let s := s.at t
  .next (if i ≠ 1 then s.deny i true (regBase + 0x130)
  else [1, 2, 3].foldl (fun s k => s.coreReq k (bit v k)) (s.wr bPWR PWR_MC_CTRL_REQ (bits v 1 3)))

/-- CORE_WAIT_FOR_INTERRUPT: core `k` enters the wait-for-interrupt state, and a held request powers it off (R505). -/
def execCoreWaitForInterrupt (t k : Nat) (s : State) : Host.Outcome State Fault Refusal :=
  let s := s.at t
  .next (if 1 ≤ k ∧ k ≤ 3 ∧ bit s.pwr.pendOff k = 1 then s.coreOff k else s)

/-! ### Entry (R510-R513, R517) -/

/-- Whether no tile is ready or running. -/
def State.quiet (s : State) : Bool :=
  (List.range 34).all (fun c => (s.tileOf c).isNone) && s.sch.forced.isEmpty && s.sch.cmds.all (fun x => !s.cmdReady x)

/-- Whether no ejection slot is open. -/
def State.noSlots (s : State) : Bool := (s.openSlots 0).isEmpty && (s.openSlots 1).isEmpty

/-- Whether sleep state `tgt` may be entered (R490, R510). -/
def State.mayEnter (s : State) (tgt : Nat) : Bool :=
  if tgt = 1 then s.quiet
  else if tgt = 2 then
    s.quiet && s.noSlots && [0, 1].all (fun p => !s.jobUsesPort p || s.rd (bSTP p) STP_STAT_STANDSTILL == 1)
  else !s.jobRun && s.noSlots && s.outMask == 0

/-- Sleep state `tgt` is entered: `STATE`, `LAST` and its counter. -/
def State.entered (s : State) (tgt : Nat) : State :=
  ((s.wr bPWR PWR_STAT_STATE tgt).wr bPWR PWR_STAT_LAST tgt).inc bPWR (PWR_CNT_S (tgt - 1))

/-- A request for sleep state `tgt` by initiator `i` (R511); the cluster clocks gate as the activity windows let them (R49, R532). -/
def State.sleepReq (s : State) (i tgt : Nat) : State :=
  if tgt = 0 ∨ 4 < tgt then s
  else if s.rd bPWR PWR_STAT_STATE ≠ 0 ∨ s.pwr.entry.isSome ∨ s.pwr.exit.isSome ∨ (3 ≤ tgt ∧ s.groupNow i ≠ 0) ∨ !s.mayEnter tgt then
    s.wr bPWR PWR_STAT_ENTRY_STATUS 0x0101
  else
    let s := s.wr bPWR PWR_STAT_ENTRY_STATUS 0
    if tgt = 1 then s.entered 1 else s.setPwr { s.pwr with entry := some tgt }

/-- PWR_SLEEP: a write `v` by initiator `i` (R511, R525). -/
def execPwrSleep (t i v : Nat) (s : State) : Host.Outcome State Fault Refusal :=
  let s := s.at t
  .next (if !s.mgmtOrHost i then s.deny i true (regBase + 0x100)
  else
    let s := s.wr bPWR PWR_SLEEP_TARGET (bits v 0 3)
    if bit v 8 = 1 then s.sleepReq i (bits v 0 3) else s)

/-- Whether sleep state `tgt` takes the power of domain `n` (R503, R510). -/
def sleepCuts (tgt n : Nat) : Bool :=
  if tgt = 2 then decide (2 ≤ n) && decide (n ≤ 39) else if tgt = 3 then n != 0 && n != 1 && n != 51 else n != 0

/-- The domains whose pads S3 and S4 hold (R517). -/
def paddedDom (n : Nat) : Bool := (decide (40 ≤ n) && decide (n ≤ 48)) || (decide (56 ≤ n) && decide (n ≤ 59))

/-- Set whether the pads of domain `n` are held. -/
def State.setHeld (s : State) (n v : Nat) : State :=
  let f := if n < 32 then PWR_HOLD_LO else PWR_HOLD_HI
  let w := s.rd bPWR f
  let old := bit w (n % 32)
  (s.wr bPWR (PWR_PD_STAT_HELD n) v).wr bPWR f (w + v * 2 ^ (n % 32) - old * 2 ^ (n % 32))

/-- The Stirrup ports in SSI mode. -/
def State.ssiPorts (s : State) : Nat := s.rd (bSTP 0) STP_MODE_MODE + 2 * s.rd (bSTP 1) STP_MODE_MODE

/-- The steps of an entry (R512). -/
def State.enterSleep (s : State) (tgt : Nat) : State :=
  let s := s.flushSlices (fun _ => true)
  let deep := decide (3 ≤ tgt)
  let cut := (List.range 60).filter (fun n => sleepCuts tgt n && s.pstate n != 0)
  let back := cut.filter (fun n => s.pstate n != 3 && (!deep || !switchedDom n))
  let s := if deep then (cut.filter paddedDom).foldl (fun s n => s.setHeld n 1) s else s
  let s := s.setPwr { s.pwr with
    entry := none, offs := back
    ssi := if deep then (if s.pstate 56 = 2 then s.ssiPorts else s.pwr.ssi) else s.pwr.ssi
    mac := if tgt = 3 ∧ s.isOn (bETH 0) ∧ s.rd (bETH 0) ETH_STAT_LINK = 1 then some (s.station 0) else none }
  (cut.foldl (State.cutDom deep) s).entered tgt

/-- SLEEP_ENTERED: the entry sequence has taken its last step (R512), which waits until the last cluster clock is gated (R532). -/
def execSleepEntered (t : Nat) (s : State) : Host.Outcome State Fault Refusal :=
  let s := s.at t
  .next (match s.pwr.entry with
  | some tgt => if s.pwr.clk = 0 then s.enterSleep tgt else s
  | none => s)

/-! ### Exit (R513-R516) -/

/-- WAKE: a wake source acts: 0 to 4 as in `PWR_WAKE_EN`, 5 command readiness, 6 an access (R513, R514). -/
def execWake (t src : Nat) (s : State) : Host.Outcome State Fault Refusal :=
  .next (if src ≤ 6 then (s.at t).wake src else s.at t)

/-- PWR_DBELL: a write `v` by initiator `i`: the host's wakes the module (R514). -/
def execPwrDbell (t i v : Nat) (s : State) : Host.Outcome State Fault Refusal :=
  .next (if i = 5 ∧ bit v 0 = 1 then (s.at t).wake 4 else s.at t)

/-- A function that is enabled by none reads ON again, unless it is in FAULT (R14). -/
def State.onAgain (s : State) (b : Nat) : State :=
  if s.fsm b = fFAULT then s else (s.setFsm b fON).wr b COM_CTRL_ENABLE 1

/-- The functions that read ON again after S3 and S4 without being enabled: the DRAM function, and Halter, which starts anew from the image
that step 4 of R516 has checked. -/
def State.exitOn (s : State) (src : Nat) : State :=
  let s := s.onAgain bMEM4
  let s := if src = 4 then
      (s.onAgain bHLT).startHalter
    else s
  s.wr bTIM TIM_STAT_SLEPT 1

/-- The module is in S0 again (R515, R458), unless a restore has reset it (R508). -/
def State.exitDone (s : State) (src : Nat) : State :=
  let s := s.pwr.offs.foldl State.upDom (s.setPwr { s.pwr with exit := none, offs := [], mac := none })
  if s.sys.inReset then s else
  let s := if 3 ≤ src then s.exitOn src else s
  (s.wr bPWR PWR_STAT_STATE 0).wr bPWR PWR_STAT_STEP 0

/-- EXIT_STEP_TIMEOUT: the ready signal has not arrived within twice the step's time (R516): the step is repeated once, then the exit stops. -/
def execExitStepTimeout (t : Nat) (s : State) : Host.Outcome State Fault Refusal :=
  let s := s.at t
  .next (match s.pwr.exit with
  | none => s
  | some x =>
    if x.stopped ∨ s.now < x.since + 2 * exitTime x.src x.step then s
    else if x.again then s.setPwr { s.pwr with exit := some { x with stopped := true } }
    else s.setPwr { s.pwr with exit := some { x with again := true, since := s.now } })

/-! ### Release (R518) -/

/-- A release of domain `n`. -/
def State.release1 (s : State) (n : Nat) : State :=
  if s.pstate n ≠ 2 then s.wr bPWR PWR_STAT_REL_REFUSED 1
  else if s.rd bPWR (PWR_PD_STAT_HELD n) = 1 then
    let s := s.setHeld n 0
    if n = 56 then s.refreshFio else s
  else s

/-- PWR_RELEASE: a write `v` of `PWR_RELEASE_LO`, or of `_HI` with `hi`, by initiator `i` (R518). -/
def execPwrRelease (t i : Nat) (hi : Bool) (v : Nat) (s : State) : Host.Outcome State Fault Refusal :=
  let s := s.at t
  .next (if !s.mgmtOrHost i then s.deny i true (regBase + (if hi then 0x12C else 0x128))
  else ((bitList 32 v).map (fun k => if hi then k + 32 else k)).foldl (fun s n => if n < 60 then s.release1 n else s) s)

end Sys2Proof.Machine
end

