-- ==== Sys2Proof/Machine/Common.lean ====
section
/-!
DEFINITION. The five common registers and the commands of the function state machine (R12-R18, R93, R94).
-/

namespace Sys2Proof.Machine

/-! ### Writes of the common registers -/

/-- A write of a camera port's control word; a stream that starts is a new one (R149). -/
def State.camCtrl (s : State) (b v : Nat) : State :=
  let s := s.enableReq b (bit v 0)
  let n := camOf b
  let s := if bit v 2 = 1 ∧ s.rd b CAM_CTRL_STREAM = 0 then
      s.setCam n { s.camP n with fresh := true, from_ := s.pos (s.camStp n) } else s
  let s := [CAM_CTRL_AUTO_DISC, CAM_CTRL_STREAM, CAM_CTRL_POCXP_EN].foldl (fun s f => s.writeField s.jobRun b v f) s
  if bit v 1 = 0 ∧ isCam b then s.setCam (camOf b) { s.camP (camOf b) with power := false } else s

/-- What a write of a control word does by the kind of function; the controls of `PWR`, `RST`, `CLK`, `HLT` and `MEM4` read 1 and take no
write (R201, R502, R525, R526). -/
def State.ctrlKind (s : State) (b v : Nat) : State :=
  if b = bPWR ∨ b = bRST ∨ b = bCLK ∨ b = bHLT ∨ b = bMEM4 then s
  else if isClu b then (if s.role (b - 0x40) = 2 then (if s.inFuncReset b then s else s.wr b COM_CTRL_ENABLE (bit v 0)) else s.cluCtrl (b - 0x40) v)
  else if isSds b then s.sdsCtrl (b - 0xC0) v
  else if isCam b then s.camCtrl b v
  else if isSlice b then (s.enableReq b (bit v 0)).drainWrite (b - 8) (bit v 1)
  else s.enableReq b (bit v 0)

/-- A write of a control word (R14): a function that stops does what its stop asks; the power cap's own choice is OP7 while its `ENABLE`
is 0 (R531). -/
def State.ctrlWrite (s : State) (b v : Nat) : State :=
  let t := s.ctrlKind b v
  let t := if s.fsm b = fON ∧ t.fsm b = fSTOPPING then t.onStop b else t
  if b = bCAP ∧ bit v 0 = 0 ∧ t.fsm b ≠ fFENCED ∧ t.rd b COM_FENCE_FENCE = 0 then t.capAll 7 else t

/-- A write of 1 to `FENCE` (R15, R93). -/
def State.fenceWrite (s : State) (b v : Nat) : State :=
  if bit v 0 = 1 ∧ fences b ∧ s.rd b COM_FENCE_FENCE = 0 then (s.wr b COM_FENCE_FENCE 1).onFence b else s

/-- A write of 1 to `RESET` (R16, R94). -/
def State.resetWrite (s : State) (b v : Nat) : State :=
  if bit v 0 = 0 ∨ !fences b then s
  else if s.fsm b = fFENCED then
    if s.inFuncReset b then s
    else ((s.wr b COM_RESET_RESET 1).wr bRST RST_CAUSE_FUNC 1).wr bRST RST_FUNC_LAST_BLOCK b
  else s.wr b COM_STATE_RESET_REFUSED 1

/-- A write of 1 to `SNAP` (R18). -/
def State.snapWrite (s : State) (b v : Nat) : State := if bit v 0 = 1 then s.snapBlk b else s

/-- A write of a common register (R12, R13). -/
def State.commonWrite (s : State) (b off v : Nat) : State :=
  if off = 4 then s.ctrlWrite b v
  else if off = 8 then s.fenceWrite b v
  else if off = 0xC then s.resetWrite b v
  else if off = 0x10 then s.snapWrite b v
  else s.writeFields s.jobRun b off v

/-! ### The state machine's own events -/

/-- STARTUP_COMPLETE: the start-up of block `b`'s function completes (R14): its domain has power (R504); a lane completes by its training
and the DRAM function by the boot. -/
def execStartupComplete (t b : Nat) (s : State) : Host.Outcome State Fault Refusal :=
  let s := s.at t
  .next (if blkExists b ∧ s.fsm b = fSTARTING ∧ !s.fencing b ∧ s.domOn b ∧ !isSds b ∧ b ≠ bMEM4 then
    if s.rd b COM_CTRL_ENABLE = 1 then (s.setFsm b fON).onEnter b else s.setFsm b fSTOPPING
  else s)

/-- A cluster that is OFF needs nothing of its rail any more (R520, R522): the rail is asked for what the others need. -/
def State.easeRail (t : State) (b : Nat) : State := if isClu b then t.askRail ((b - 0x40) % 4) else t

/-- SHUTDOWN_COMPLETE: the shut-down of block `b`'s function completes (R14, R504). -/
def execShutdownComplete (t b : Nat) (s : State) : Host.Outcome State Fault Refusal :=
  let s := s.at t
  .next (if blkExists b ∧ (s.fsm b = fSTOPPING ∨ s.fsm b = fPENDING) ∧ !s.fencing b ∧ s.stopReady b then
    let again := s.fsm b = fPENDING
    let s := s.onOff b
    let s := (if again then s.passOff b else s.toOff b).easeRail b
    if isSds b then s.showLane (b - 0xC0) else s
  else s)

/-- FENCE_COMPLETE: no traffic of block `b`'s function is outstanding (R15). -/
def execFenceComplete (t b : Nat) (s : State) : Host.Outcome State Fault Refusal :=
  let s := s.at t
  .next (if blkExists b ∧ s.fencing b then
    let s := if s.fsm b = fON then s.onLeave b true else s
    let s := s.setFsm b fFENCED
    let s := s.onHalt b
    if isSds b then s.showLane (b - 0xC0) else s
  else s)

/-- FUNCTION_RESET_END: the reset of block `b`'s function ends (R17, R94, R507). -/
def execFunctionResetEnd (t b : Nat) (s : State) : Host.Outcome State Fault Refusal :=
  let s := s.at t
  .next (if blkExists b ∧ s.fsm b = fFENCED ∧ s.inFuncReset b then
    let s := s.wipe b
    let s := s.setPwr { s.pwr with saved := Store.put false s.pwr.saved b false }
    let s := (s.toOff b).easeRail b
    if isSds b then s.showLane (b - 0xC0)
    else if b = bCAP then s.capAll 7
    else if b = bFIO then s.refreshFio
    else s
  else s)

/-- INTERNAL_FAULT: an internal fault of block `b`'s function (R14). -/
def execInternalFault (t b : Nat) (s : State) : Host.Outcome State Fault Refusal :=
  let s := s.at t
  .next (if blkExists b ∧ s.fsm b ≠ fFENCED ∧ s.fsm b ≠ fFAULT ∧ !s.fencing b then
    let s := if s.fsm b = fON then s.onLeave b false else s
    let s := s.setFsm b fFAULT
    let s := s.onHalt b
    if isSds b then s.showLane (b - 0xC0) else s
  else s)

end Sys2Proof.Machine
end

