-- ==== Sys2Proof/Machine/Pooling.lean ====
section
/-!
DEFINITION. Pooling, up-sampling and partial reduction (R295-R300).  A tile of these commands is one output row, or one row of a
global pool; the spec numbers the tiles of a convolution only.
-/

namespace Sys2Proof.Machine

/-- A sum or a maximum divided and converted: finish 1 of R296 for an exact integer sum. -/
def finishInt (f : Nat) (v : Int) (n : Nat) : Nat :=
  if n = 0 then (Config.reduceByZero v f).toNat % 2 ^ outBits f
  else if f = 0 then toCode 8 (clampInt 8 (divRneI v n)).1
  else (fpRoundRat (fmtOf (outType f)) true (decide (v < 0)) v.natAbs n).1

/-- Finish 1 of R296 for an FP32 sum: divided as `vdiv` does. -/
def finishFp (f v n : Nat) : Nat := toFormat f (fpDiv fp32 v (fpOfInt fp32 n).1).1

/-- An FP32 sum in the given order, rounded at each addition. -/
def sumFp : List Nat → Nat
  | [] => 0
  | x :: r => r.foldl (fun a b => (fpAdd fp32 a b).1) x

/-- The FP32 maximum of a list. -/
def maxFp : List Nat → Nat
  | [] => 0
  | x :: r => r.foldl fpMax x

/-- A maximum in a format: one of the elements, so that an infinity stays one where the format has it (R298). -/
def maxFormat (f v : Nat) : Nat := if 2 ≤ f ∧ v % 2 ^ 31 = inf32 then (narrow (outType f) false v).1 else toFormat f v

/-- The largest of a list of integers. -/
def maxI : List Int → Int
  | [] => 0
  | x :: r => r.foldl max x

/-! ### Pooling (R297, R298) -/

/-- A pooling parameter block. -/
structure Pool where
  mode : Nat
  fmt : Nat
  kh : Nat
  kw : Nat
  sy : Nat
  sx : Nat
  pt : Nat
  pb : Nat
  pl : Nat
  pr : Nat
  hi : Nat
  wi : Nat
  c : Nat
  inA : Nat
  inP : Nat
  outP : Nat
  outA : Nat
deriving DecidableEq, Repr

def poolOf (p : List Nat) : Pool :=
  { mode := pf p 1 1, fmt := pf p 2 1, kh := pf p 4 1, kw := pf p 5 1, sy := pf p 6 1, sx := pf p 7 1
    pt := pf p 0xA 1, pb := pf p 0xB 1, pl := pf p 0xC 1, pr := pf p 0xD 1, hi := pf p 0x10 2, wi := pf p 0x12 2, c := pf p 0x14 2
    inA := pf p 0x18 8, inP := pf p 0x20 4, outP := pf p 0x28 4, outA := pf p 0x38 8 }

def Pool.global (c : Pool) : Bool := decide (3 ≤ c.mode)
def Pool.w (c : Pool) : Nat := outBits c.fmt
def Pool.ow (c : Pool) : Nat := if c.global then 32 else c.w
def Pool.ho (c : Pool) : Nat := if c.global then c.hi else outSize c.hi c.pt c.pb 1 c.kh c.sy
def Pool.wo (c : Pool) : Nat := if c.global then 1 else outSize c.wi c.pl c.pr 1 c.kw c.sx

/-- Whether the fields of a pooling keep their limits. -/
def poolOk (p : List Nat) : Bool :=
  let c := poolOf p
  pf p 0 1 == 2 && within 0 4 c.mode && within 0 3 c.fmt && within 1 15 c.kh && within 1 15 c.kw && within 1 15 c.sy && within 1 15 c.sx &&
  decide (c.pt < c.kh) && decide (c.pb < c.kh) && decide (c.pl < c.kw) && decide (c.pr < c.kw) &&
  within 1 65535 c.hi && within 1 16384 c.wi && within 1 4096 c.c &&
  pz p 3 1 && pz p 8 2 && pz p 0xE 2 && pz p 0x16 2 && pz p 0x24 4 && pz p 0x2C 12 && pz p 0x40 64 &&
  decide (1 ≤ c.ho) && decide (1 ≤ c.wo) && pitchOk c.inP (c.wi * c.c) c.w && pitchOk c.outP (c.wo * c.c) c.ow

/-- The elements of a window in raster order: none for a position outside the input (R298). -/
def Pool.taps (c : Pool) (inp : Nat → Nat → Nat → Nat) (yo xo ch : Nat) : List (Option Nat) :=
  if c.global then (List.range c.wi).map (fun x => some (inp yo x ch))
  else (List.range (c.kh * c.kw)).map (fun i =>
    let y := yo * c.sy + i / c.kw
    let x := xo * c.sx + i % c.kw
    if c.pt ≤ y ∧ y - c.pt < c.hi ∧ c.pl ≤ x ∧ x - c.pl < c.wi then some (inp (y - c.pt) (x - c.pl) ch) else none)

/-- The output element of a pooling (R298). -/
def Pool.out (c : Pool) (inp : Nat → Nat → Nat → Nat) (yo xo ch : Nat) : Nat :=
  let l := c.taps inp yo xo ch
  let here := l.filterMap id
  let int := c.fmt == 0
  let iv (v : Nat) : Int := sext 8 v
  if c.mode = 0 then
    (if int then toCode 8 (maxI (here.map iv)) else maxFormat c.fmt (maxFp (here.map (widenF c.fmt))))
  else if c.mode = 3 then (if int then toCode 32 (maxI (here.map iv)) else maxFp (here.map (widenF c.fmt)))
  else if c.mode = 4 then
    (if int then toCode 32 ((here.map iv).foldl (· + ·) 0) else sumFp (here.map (widenF c.fmt)))
  else
    let n := if c.mode = 1 then c.kh * c.kw else here.length
    if int then finishInt 0 ((here.map iv).foldl (· + ·) 0) n
    else finishFp c.fmt (sumFp (if c.mode = 1 then l.map (fun e => match e with
      | some v => widenF c.fmt v
      | none => 0) else here.map (widenF c.fmt))) n

/-- The input rows of a tile. -/
def Pool.rowsIn (c : Pool) (yo : Nat) : List Nat :=
  if c.global then [yo] else (List.range c.kh).filterMap (fun k =>
    if c.pt ≤ yo * c.sy + k ∧ yo * c.sy + k - c.pt < c.hi then some (yo * c.sy + k - c.pt) else none)

/-- The bytes of an output row. -/
def rowOut (n w : Nat) (f : Nat → Nat) : List Nat := (List.range n).flatMap (fun i => leBytes (w / 8) (f i))

/-- Tile `yo` of a pooling. -/
def Pool.body (c : Pool) (yo : Nat) : TileBody := fun s cl =>
  let r := s.readAll cl ((c.rowsIn yo).map (fun y => (c.inA + y * c.inP, rowBytes (c.wi * c.c) c.w)))
  let inp (y x ch : Nat) : Nat := r.1.elem (c.inA + y * c.inP) (x * c.c + ch) c.w
  { s := r.1, status := r.2, stores := [(c.outA + yo * c.outP, rowOut (c.wo * c.c) c.ow (fun i => c.out inp yo (i / c.c) (i % c.c)))] }

/-- Whether the tensors of a pooling lie in segments. -/
def Pool.tensorsOk (c : Pool) (g : List (List Nat)) (inp out : Bool) : Bool :=
  (!inp || tensorOk g false c.inA (tensorBytes c.hi (c.wi * c.c) c.inP c.w)) &&
  (!out || tensorOk g true c.outA (tensorBytes c.ho (c.wo * c.c) c.outP c.ow))

/-- The pooling that `q` points to starts (R285, R297, R298). -/
def State.startPool (s : State) (q : Nat) : State :=
  s.startFused q 2 (fun s f =>
    let c := poolOf f.p
    s.fusedCheck f (poolOk f.p) (c.tensorsOk f.segs true true) (s.beginFused f [] c.ho))

/-- POOLING: the fused pooling command that `x` points to starts (R285, R297, R298). -/
def execPooling (t x : Nat) (s : State) : Host.Outcome State Fault Refusal := .next ((s.at t).startPool x)

/-! ### Up-sampling (R299, R300) -/

/-- An up-sampling parameter block. -/
structure Up where
  bilinear : Bool
  rule : Nat
  fmt : Nat
  sy : Nat
  sx : Nat
  hi : Nat
  wi : Nat
  c : Nat
  inA : Nat
  inP : Nat
  outP : Nat
  outA : Nat
deriving DecidableEq, Repr

def upOf (p : List Nat) : Up :=
  { bilinear := pf p 1 1 == 1, rule := pf p 2 1, fmt := pf p 3 1, sy := pf p 4 1, sx := pf p 5 1
    hi := pf p 0x10 2, wi := pf p 0x12 2, c := pf p 0x14 2
    inA := pf p 0x18 8, inP := pf p 0x20 4, outP := pf p 0x28 4, outA := pf p 0x38 8 }

def Up.w (c : Up) : Nat := outBits c.fmt
def Up.ho (c : Up) : Nat := c.sy * c.hi
def Up.wo (c : Up) : Nat := c.sx * c.wi

/-- Whether the fields of an up-sampling keep their limits. -/
def upOk (p : List Nat) : Bool :=
  let c := upOf p
  pf p 0 1 == 3 && within 0 1 (pf p 1 1) && within 0 2 c.rule && within 0 3 c.fmt && within 2 8 c.sy && within 2 8 c.sx &&
  within 1 65535 c.hi && within 1 16384 c.wi && within 1 4096 c.c &&
  pz p 6 10 && pz p 0x16 2 && pz p 0x24 4 && pz p 0x2C 12 && pz p 0x40 64 &&
  pitchOk c.inP (c.wi * c.c) c.w && pitchOk c.outP (c.wo * c.c) c.w

/-- The source coordinate of output index `o` with 16 fraction bits, `n` input positions and scale `k` (R300). -/
def upCoord (rule n k o : Nat) : Int :=
  if rule = 0 then divRneI ((2 * o + 1 - k : Int) * 65536) (2 * k)
  else if rule = 1 then divRneI (o * 65536 : Nat) k
  else divRneI (o * (n - 1) * 65536 : Nat) (k * n - 1)

/-- An index clamped to the input. -/
def clampIdx (n : Nat) (i : Int) : Nat := (max 0 (min i (n - 1 : Int))).toNat

/-- The index nearest mode reads: ⌈u - 0.5⌉ (R300). -/
def nearIdx (u : Int) : Int := -((32768 - u) / 65536)

/-- The output element of an up-sampling (R300). -/
def Up.out (c : Up) (inp : Nat → Nat → Nat → Nat) (yo xo ch : Nat) : Nat :=
  let u := upCoord c.rule c.wi c.sx xo
  let v := upCoord c.rule c.hi c.sy yo
  if !c.bilinear then inp (clampIdx c.hi (nearIdx v)) (clampIdx c.wi (nearIdx u)) ch
  else
    let p (dx dy : Int) : Nat := widenF c.fmt (inp (clampIdx c.hi (v / 65536 + dy)) (clampIdx c.wi (u / 65536 + dx)) ch)
    let fx := (u % 65536).toNat
    let fy := (v % 65536).toNat
    let mix (k a b : Nat) : Nat := f32add' (f32mul' (frac (65536 - k)) a) (f32mul' (frac k) b)
    toFormat c.fmt (mix fy (mix fx (p 0 0) (p 1 0)) (mix fx (p 0 1) (p 1 1)))
where
  f32add' (a b : Nat) : Nat := (fpAdd fp32 a b).1
  f32mul' (a b : Nat) : Nat := (fpMul fp32 a b).1
  frac (n : Nat) : Nat := (fpRoundRat fp32 false false n 65536).1

/-- The input rows of an output row. -/
def Up.rowsIn (c : Up) (yo : Nat) : List Nat :=
  let v := upCoord c.rule c.hi c.sy yo
  if c.bilinear then [clampIdx c.hi (v / 65536), clampIdx c.hi (v / 65536 + 1)] else [clampIdx c.hi (nearIdx v)]

/-- Tile `yo` of an up-sampling. -/
def Up.body (c : Up) (yo : Nat) : TileBody := fun s cl =>
  let r := s.readAll cl ((c.rowsIn yo).map (fun y => (c.inA + y * c.inP, rowBytes (c.wi * c.c) c.w)))
  let inp (y x ch : Nat) : Nat := r.1.elem (c.inA + y * c.inP) (x * c.c + ch) c.w
  { s := r.1, status := r.2, stores := [(c.outA + yo * c.outP, rowOut (c.wo * c.c) c.w (fun i => c.out inp yo (i / c.c) (i % c.c)))] }

/-- Whether the tensors of an up-sampling lie in segments. -/
def Up.tensorsOk (c : Up) (g : List (List Nat)) (inp out : Bool) : Bool :=
  (!inp || tensorOk g false c.inA (tensorBytes c.hi (c.wi * c.c) c.inP c.w)) &&
  (!out || tensorOk g true c.outA (tensorBytes c.ho (c.wo * c.c) c.outP c.w))

/-- The up-sampling that `q` points to starts (R285, R299, R300). -/
def State.startUp (s : State) (q : Nat) : State :=
  s.startFused q 3 (fun s f =>
    let c := upOf f.p
    s.fusedCheck f (upOk f.p) (c.tensorsOk f.segs true true) (s.beginFused f [] c.ho))

/-- UP_SAMPLING: the fused up-sampling command that `x` points to starts (R285, R299, R300). -/
def execUpSampling (t x : Nat) (s : State) : Host.Outcome State Fault Refusal := .next ((s.at t).startUp x)

/-! ### Partial reduction (R295, R296) -/

/-- A partial reduction parameter block. -/
structure Reduce where
  fp : Bool
  finish : Nat
  ofmt : Nat
  j : Nat
  hp : Nat
  ep : Nat
  src : Nat
  srcP : Nat
  n : Nat
  outA : Nat
  outP : Nat
  conv : Nat
deriving DecidableEq, Repr

def reduceOf (p : List Nat) : Reduce :=
  { fp := pf p 1 1 == 1, finish := pf p 2 1, ofmt := pf p 3 1, j := pf p 4 4, hp := pf p 8 2, ep := pf p 0xC 4
    src := pf p 0x10 8, srcP := pf p 0x18 4, n := pf p 0x1C 4, outA := pf p 0x20 8, outP := pf p 0x28 4, conv := pf p 0x30 8 }

/-- Whether the fields of a partial reduction keep their limits. -/
def reduceOk (p : List Nat) : Bool :=
  let c := reduceOf p
  pf p 0 1 == 4 && within 0 1 (pf p 1 1) && within 0 2 c.finish && within 0 3 c.ofmt && within 1 65535 c.j &&
  pz p 0xA 2 && pz p 0x2C 4 && pz p 0x38 72 && pitchOk c.srcP c.ep 32 && pitchOk c.outP c.ep (outBits c.ofmt)

/-- Element `e` of row `y` of the result (R296); `cv` is the named convolution block. -/
def Reduce.out (c : Reduce) (cv : Conv) (s : State) (y e : Nat) : Nat :=
  let l := (List.range c.j).map (fun j => s.readLE (c.src + (j * c.hp + y) * c.srcP + 4 * e) 4)
  let i := l.map (sext 32)
  if c.finish = 2 then
    (if c.fp then maxFormat c.ofmt (pairTree fpMax 0 32 l) else finishInt c.ofmt (pairTree max 0 32 i) 1)
  else
    let fs := pairTree (fun a b => (fpAdd fp32 a b).1) 0 32 l
    let is := pairTree (· + ·) (0 : Int) 32 i
    if c.finish = 1 then (if c.fp then finishFp c.ofmt fs c.n else finishInt c.ofmt is c.n)
    else cv.outPath s (!c.fp) c.ofmt (e % cv.co) (if cv.resid then cv.memRes s y (e / cv.co) (e % cv.co) else 0)
      (if c.fp then fs else toCode 32 is)

/-- What row `y` reads. -/
def Reduce.reads (c : Reduce) (cv : Conv) (y : Nat) : List (Nat × Nat) :=
  (List.range c.j).map (fun j => (c.src + (j * c.hp + y) * c.srcP, 4 * c.ep)) ++
  (if c.finish = 0 then
    [(cv.scaleA, 4 * cv.co)] ++ (if cv.bias then [(cv.biasA, 4 * cv.co)] else []) ++
    (if cv.resid then [(cv.resA + y * cv.resP, rowBytes c.ep (outBits cv.resF))] else [])
  else [])

/-- Tile `y` of a partial reduction. -/
def Reduce.body (c : Reduce) (cv : Conv) (y : Nat) : TileBody := fun s cl =>
  let r := s.readAll cl (c.reads cv y)
  { s := r.1, status := r.2, stores := [(c.outA + y * c.outP, rowOut c.ep (outBits c.ofmt) (fun e => c.out cv r.1 y e))] }

/-- Whether the tensors of a partial reduction lie in segments. -/
def Reduce.tensorsOk (c : Reduce) (cv : Conv) (g : List (List Nat)) : Bool :=
  tensorOk g false c.src (tensorBytes (c.j * c.hp) c.ep c.srcP 32) && tensorOk g true c.outA (tensorBytes c.hp c.ep c.outP (outBits c.ofmt)) &&
  (c.finish != 0 || (tensorOk g false c.conv 128 && tensorOk g false cv.scaleA (4 * cv.co) &&
    (!cv.bias || tensorOk g false cv.biasA (4 * cv.co)) &&
    (!cv.resid || tensorOk g false cv.resA (tensorBytes c.hp c.ep cv.resP (outBits cv.resF)))))

/-- The partial reduction that `q` points to starts (R285, R295, R296); the convolution block that it names goes with it. -/
def State.startReduce (s : State) (q : Nat) : State :=
  s.startFused q 4 (fun s f =>
    let c := reduceOf f.p
    let named := c.finish == 0 && tensorOk f.segs false c.conv 128
    let r := if named then s.hwRead iSCH c.conv 128 else (s, 0, [])
    if r.2.1 ≠ 0 then r.1.refuseCmd q r.2.1
    else r.1.fusedCheck f (reduceOk f.p && (!named || convOk r.2.2)) (c.tensorsOk (convOf r.2.2) f.segs)
      (r.1.beginFused f [r.2.2] c.hp))

/-- PARTIAL_REDUCTION: the fused partial reduction command that `x` points to starts (R285, R295, R296). -/
def execPartialReduction (t x : Nat) (s : State) : Host.Outcome State Fault Refusal := .next ((s.at t).startReduce x)

end Sys2Proof.Machine
end

