-- ==== Sys2Proof/Machine/Stripe.lean ====
section
/-!
DEFINITION. The Skiver: stripe groups and their stripes (R301-R306).
-/

namespace Sys2Proof.Machine

/-! ### Layers -/

/-- A layer of a stripe group: its input source, its residual source and its parameter block. -/
structure SLayer where
  src : Nat
  res : Nat
  p : List Nat

/-- A layer as a command holds it. -/
def slayer (l : List Nat) : SLayer := ⟨nth 0 l 0, nth 0 l 1, l.drop 2⟩

def SLayer.kind (l : SLayer) : Nat := pf l.p 0 1

/-- A convolution layer without a residual source has no residual (R301). -/
def SLayer.conv (l : SLayer) : Conv := let c := convOf l.p; if l.res = 0 then { c with resid := false } else c

def SLayer.ho (l : SLayer) : Nat := if l.kind = 1 then l.conv.ho else if l.kind = 2 then (poolOf l.p).ho else (upOf l.p).ho
def SLayer.wo (l : SLayer) : Nat := if l.kind = 1 then l.conv.wo else if l.kind = 2 then (poolOf l.p).wo else (upOf l.p).wo
def SLayer.co (l : SLayer) : Nat := if l.kind = 1 then l.conv.co else if l.kind = 2 then (poolOf l.p).c else (upOf l.p).c
def SLayer.ow (l : SLayer) : Nat := if l.kind = 1 then outBits l.conv.ofmt else if l.kind = 2 then (poolOf l.p).w else (upOf l.p).w
def SLayer.hi (l : SLayer) : Nat := pf l.p 0x10 2
def SLayer.wi (l : SLayer) : Nat := pf l.p 0x12 2
def SLayer.ci (l : SLayer) : Nat := pf l.p 0x14 2
def SLayer.iw (l : SLayer) : Nat := if l.kind = 1 then l.conv.w else l.ow
def SLayer.outP (l : SLayer) : Nat := pf l.p 0x28 4
def SLayer.outA (l : SLayer) : Nat := pf l.p 0x38 8

/-- Whether a layer's block keeps its limits and the limits of R301. -/
def SLayer.ok (l : SLayer) : Bool :=
  (l.kind == 1 && convOk l.p && l.conv.q == 0) || (l.kind == 2 && poolOk l.p && !(poolOf l.p).global) || (l.kind == 3 && upOk l.p)

/-- Whether two layers fit each other as source and reader. -/
def SLayer.fits (a b : SLayer) : Bool := a.ho == b.hi && a.wo == b.wi && a.co == b.ci && a.ow == b.iw

/-- Whether the tensors of a layer that lie in memory of their own are in segments. -/
def SLayer.tensorsOk (l : SLayer) (g : List (List Nat)) (last : Bool) : Bool :=
  if l.kind = 1 then l.conv.tensorsOk g false last false
  else if l.kind = 2 then (poolOf l.p).tensorsOk g false last
  else (upOf l.p).tensorsOk g false last

/-- The output element of a layer. -/
def SLayer.out (l : SLayer) (s : State) (inp res : Nat → Nat → Nat → Nat) (y x c : Nat) : Nat :=
  if l.kind = 1 then l.conv.out s inp res 0 y x c
  else if l.kind = 2 then (poolOf l.p).out inp y x c
  else (upOf l.p).out inp y x c

/-! ### Rows (R302) -/

/-- Rows from `lo` to `hi`, none when there are none. -/
abbrev Rows := Option (Nat × Nat)

/-- The union of two intervals. -/
def joinRows : Rows → Rows → Rows
  | none, b => b
  | a, none => a
  | some a, some b => some (min a.1 b.1, max a.2 b.2)

/-- An interval clipped to the rows that exist. -/
def clipRows (n : Nat) (a b : Int) : Rows :=
  let lo := max 0 a
  let hi := min b (n - 1 : Int)
  if lo ≤ hi then some (lo.toNat, hi.toNat) else none

/-- The input rows that a layer needs for its output rows [a, b]. -/
def SLayer.need (l : SLayer) (a b : Nat) : Rows :=
  if l.kind = 3 then
    let c := upOf l.p
    let u (y : Nat) : Int := upCoord c.rule c.hi c.sy y
    if c.bilinear then clipRows l.hi (u a / 65536) (u b / 65536 + 1)
    else some (clampIdx c.hi (nearIdx (u a)), clampIdx c.hi (nearIdx (u b)))
  else
    let sy := pf l.p 6 1
    let kh := pf l.p 4 1
    let pt := pf l.p 0xA 1
    let dy := if l.kind = 1 then l.conv.dy else 1
    clipRows l.hi (a * sy - pt) (b * sy - pt + dy * (kh - 1 : Nat))

/-- Give source `k` further needed rows; source 0 is the region. -/
def addNeed (need : List Rows) (k : Nat) (r : Rows) : List Rows := need.set k (joinRows (nth none need k) r)

/-- The rows needed of the region (index 0) and of every layer for rows [a, b] of the last, working backward. -/
def needsGo : List (Nat × SLayer) → List Rows → List Rows
  | [], need => need
  | (i, l) :: r, need =>
    match nth none need i with
    | none => needsGo r need
    | some (a, b) =>
      let need := addNeed need l.src (l.need a b)
      needsGo r (if l.kind = 1 ∧ l.conv.resid then addNeed need l.res (some (a, b)) else need)

/-- The layers with their numbers from 1. -/
def numbered (ls : List SLayer) : List (Nat × SLayer) := ls.zipIdx.map (fun e => (e.2 + 1, e.1))

def stripeNeeds (ls : List SLayer) (a b : Nat) : List Rows :=
  needsGo (numbered ls).reverse ((List.replicate ls.length none) ++ [some (a, b)])

/-! ### The command (R301) -/

/-- The layers of a begun stripe group. -/
def Cmd.layers (x : Cmd) : List SLayer := x.lays.map slayer

def stripeHs (p : List Nat) : Nat := pf p 2 2
def stripeD (p : List Nat) : Nat := pf p 4 1

/-- Output rows of the last layer. -/
def lastHo (ls : List SLayer) : Nat := (ls.getLast?.map SLayer.ho).getD 0

/-- Whether the fields of a stripe group keep their limits. -/
def stripeOk (p : List Nat) : Bool :=
  pf p 0 1 == 5 && within 1 32 (pf p 1 1) && within 1 256 (stripeHs p) && within 1 4 (stripeD p) && pz p 5 3 && pz p 0xC 4 &&
  pz p 0x1C 4 && pz p 0x28 88

/-- Whether the layers of a stripe group keep R301: earlier sources that fit. -/
def layersOk (ls : List SLayer) : Bool :=
  (numbered ls).all (fun e =>
    e.2.ok && decide (e.2.src < e.1) && decide (e.2.res < e.1) &&
    (e.2.src == 0 || (match ls[e.2.src - 1]? with
      | some a => a.fits e.2
      | none => false)) &&
    (e.2.res == 0 || (match ls[e.2.res - 1]? with
      | some a => a.ho == e.2.ho && a.wo == e.2.wo && a.co == e.2.co
      | none => false)))

/-- Read the layer list and the layers' blocks: the status, 0, and the layers as a command holds them with their reserved bytes checked. -/
def State.readLayers (s : State) (f : Fused) : State × Nat × List (List Nat) :=
  (List.range (pf f.p 1 1)).foldl (fun (r : State × Nat × List (List Nat)) k =>
    if r.2.1 ≠ 0 then r
    else
      let a := pf f.p 0x20 8 + 16 * k
      if !tensorOk f.segs false a 16 then (r.1, 0x0802, [])
      else
        let e := r.1.hwRead iSCH a 16
        if e.2.1 ≠ 0 then (e.1, e.2.1, [])
        else if !pz e.2.2 10 6 then (e.1, 0x0808, [])
        else if !tensorOk f.segs false (pf e.2.2 0 8) 128 then (e.1, 0x0802, [])
        else
          let b := e.1.hwRead iSCH (pf e.2.2 0 8) 128
          if b.2.1 ≠ 0 then (b.1, b.2.1, []) else (b.1, 0, r.2.2 ++ [[pf e.2.2 8 1, pf e.2.2 9 1] ++ b.2.2])) (s, 0, [])

/-- The stripe group that `q` points to starts (R285, R301): its stripes wait for their rows. -/
def State.startStripes (s : State) (q : Nat) : State :=
  s.startFused q 5 (fun s f =>
    let r := if stripeOk f.p then s.readLayers f else (s, 0x0808, [])
    let ls := r.2.2.map slayer
    if r.2.1 ≠ 0 then r.1.refuseCmd q r.2.1
    else r.1.fusedCheck f (layersOk ls)
      (tensorOk f.segs true (pf f.p 0x10 8) (pf f.p 0x18 4) &&
        (numbered ls).all (fun e => e.2.tensorsOk f.segs (e.1 == ls.length)))
      ((r.1.modCmd q (fun y => { y with
        begun := true, segs := f.segs, par := f.p, lays := r.2.2
        wait := [(0, (lastHo ls + stripeHs f.p - 1) / stripeHs f.p)] })).settleCmd q))

/-- STRIPE_GROUP: the stripe group command that `x` points to starts (R285, R301). -/
def execStripeGroup (t x : Nat) (s : State) : Host.Outcome State Fault Refusal := .next ((s.at t).startStripes x)

/-! ### A stripe (R303-R306) -/

/-- The output rows of stripe `k`. -/
def stripeRows (x : Cmd) (k : Nat) : Nat × Nat :=
  let hs := stripeHs x.par
  (k * hs, min ((k + 1) * hs) (lastHo x.layers) - 1)

/-- Where row `y` of a region of a part lies in the arena, if it is committed (R155, R303). -/
def State.regionRow (s : State) (port part region y : Nat) : Option Nat :=
  s.tan.entries.findSome? (fun e =>
    let b := s.bytes (s.rd64 bTAN TAN_RING_BASE_LO TAN_RING_BASE_HI + 64 * (e.idx % 2 ^ s.rd bTAN TAN_RING_CFG_SIZE_LOG2)) 64
    let r0 := pf b 0xC 2
    if pf b 4 4 == part && pf b 8 4 == region && bit (pf b 0x2A 1) 2 == 0 && pf b 0x2B 1 == port &&
        decide (r0 ≤ y) && decide (y < r0 + pf b 0xE 2) then some (pf b 0x10 8 + (y - r0) * pf b 0x1C 4) else none)

/-- The rows of an interval. -/
def rowsOf : Rows → List Nat
  | none => []
  | some (a, b) => (List.range (b + 1 - a)).map (· + a)

/-- Whether every region row of stripe `k` is committed. -/
def State.stripeReady (s : State) (x : Cmd) (k : Nat) : Bool :=
  let r := stripeRows x k
  (rowsOf (nth none (stripeNeeds x.layers r.1 r.2) 0)).all (fun y => (s.regionRow x.dlKind x.part (pf x.par 8 4) y).isSome)

/-- An element of a row kept as a list. -/
def rowElem (rows : Store (List Nat)) (co y x c : Nat) : Nat := nth 0 (Store.get [] rows y) (x * co + c)

/-- One layer of a stripe: its needed rows from those of the region and the layers before it. -/
def SLayer.run (l : SLayer) (s : State) (region : Nat → Nat → Nat → Nat) (before : List (Nat × Store (List Nat))) (need : Rows) :
    Store (List Nat) :=
  let at_ (k : Nat) : Nat → Nat → Nat → Nat :=
    if k = 0 then region else (let b := nth (1, []) before (k - 1); rowElem b.2 b.1)
  (rowsOf need).foldl (fun st y =>
    Store.put [] st y ((List.range (l.wo * l.co)).map (fun i => l.out s (at_ l.src) (at_ l.res) y (i / l.co) (i % l.co)))) []

/-- What a layer reads from memory: region rows, panels, biases and scales. -/
def SLayer.reads (l : SLayer) (rowAt : Nat → Nat) (need : Rows) : List (Nat × Nat) :=
  (if l.src = 0 then (match need with
    | some (a, b) => (rowsOf (l.need a b)).map (fun y => (rowAt y, rowBytes (l.wi * l.ci) l.iw))
    | none => []) else []) ++
  (if l.kind = 1 then
    let c := l.conv
    (c.wA, c.g * c.blocks * c.slices * panelBytes c.fmt) ::
      (if c.raw then [] else (c.scaleA, 4 * c.co) :: (if c.bias then [(c.biasA, 4 * c.co)] else []))
  else [])

/-- The weight stream that a layer declares (R294). -/
def SLayer.declare (l : SLayer) (s : State) (cl : Nat) : State :=
  if l.kind = 1 then s.declare cl l.conv.wA (l.conv.g * l.conv.blocks * l.conv.slices * panelBytes l.conv.fmt) else s

/-- Stripe `k` of a command as a tile: every layer in turn, up to one whose reads fail. -/
def stripeBody (x : Cmd) (k : Nat) : TileBody := fun s cl =>
  let ls := x.layers
  let r := stripeRows x k
  let need := stripeNeeds ls r.1 r.2
  let rowAt (y : Nat) : Nat := (s.regionRow x.dlKind x.part (pf x.par 8 4) y).getD 0
  let z := (numbered ls).foldl (fun (z : State × (Nat × Nat) × List (Nat × Store (List Nat))) e =>
    if z.2.1.1 ≠ 0 then z
    else
      let q := (e.2.declare z.1 cl).readAll cl (e.2.reads rowAt (nth none need e.1))
      if q.2 ≠ 0 then (q.1, (q.2, e.1), z.2.2)
      else
        let region (y c0 ch : Nat) : Nat := q.1.elem (rowAt y) (c0 * e.2.ci + ch) e.2.iw
        (q.1, (0, 0), z.2.2 ++ [(e.2.co, e.2.run q.1 region z.2.2 (nth none need e.1))])) (s, (0, 0), [])
  let last := nth ⟨0, 0, []⟩ ls (ls.length - 1)
  let rows := (nth (1, []) z.2.2 (ls.length - 1)).2
  { s := z.1, status := z.2.1.1, layer := z.2.1.2
    stores := rows.map (fun e => (last.outA + e.1 * last.outP, e.2.flatMap (fun v => leBytes (last.ow / 8) v))) }

/-- The buffers of a stripe are released (R305): the lines of its pool leave the shared cache without a write-back, and what memory then holds
there is open; a group of one layer has no buffer.  The spec gives a buffer no place in the pool. -/
def State.releasePool (s : State) (x : Cmd) : State :=
  let a := pf x.par 0x10 8
  let n := pf x.par 0x18 4
  if x.lays.length ≤ 1 ∨ n = 0 then s
  else
    let f := s.takeFree
    { f.2.openBytes f.1 a n with memu := { f.2.memu with lines := f.2.memu.lines.filter (fun l => !overlap l.1 64 a n) } }

/-- Whether a tile has not been taken yet. -/
def inTodo (l : List (Nat × Nat)) (k : Nat) : Bool := l.any (fun r => decide (r.1 ≤ k) && decide (k < r.2))

/-- Whether a cluster runs, or is bound to run, tile `k` of a command. -/
def State.tileRuns (s : State) (q k : Nat) : Bool :=
  (List.range 34).any (fun c => match s.tileOf c with
    | some t => t.q == q && t.tile == k
    | none => false) || s.sch.forced.any (fun f => f.q == q && f.tile == k)

/-- Whether stripe `k` of a command still holds pool space here (R303). -/
def State.holdsPool (s : State) (c : Cmd) (k : Nat) : Bool :=
  s.ownShard (k % c.shards) && (inTodo c.wait k || inTodo c.todo k || s.tileRuns c.ptr k)

/-- A stripe group whose rows are missing at its part's verdict deadline ends with DEADLINE_MISSED, at its lowest stripe that waits (R306). -/
def State.stripesLate (s : State) (p part : Nat) : State :=
  (s.sch.cmds.filter (fun c => c.begun && c.final.isNone && c.par.headD 0 == 5 && c.dlKind == p && c.part == part)).foldl (fun s c =>
    match ((ownTiles s { c with todo := c.wait }).filter (fun k => !s.stripeReady c k)).head? with
    | some k => (s.noteLayer c.ptr k 1).endCmdTile c.ptr k 0x0601
    | none => s) s

/-- Stripes of a command whose part's verdict deadline the port has reached end if their rows are missing (R306). -/
def State.stripesDue (s : State) (q : Nat) : State :=
  match s.cmd? q with
  | some c => (match s.slotOfPart c.dlKind c.part with
    | some (_, x) => if s.deadlinePos c.dlKind x ≤ s.pos c.dlKind then s.stripesLate c.dlKind c.part else s
    | none => s)
  | none => s

/-- STRIPE_START: stripe `k` of the stripe group that `x` points to can start (R303): its region rows are committed and stripe k − D has released
its pool space; it then waits for a tile boundary (R351).  A stripe whose rows are not committed does not run. -/
def execStripeStart (t x k : Nat) (s : State) : Host.Outcome State Fault Refusal :=
  let s := (s.at t).stripesDue x
  .next (match s.cmd? x with
  | none => s
  | some c =>
    if c.begun && !c.lays.isEmpty && c.par.headD 0 == 5 && s.cmdReady c && inTodo c.wait k && s.ownShard (k % c.shards) &&
        !(decide (stripeD c.par ≤ k) && s.holdsPool c (k - stripeD c.par)) && s.isOn bSCH && !s.fencing bSCH && s.stripeReady c k then
      s.modCmd x (fun y => { y with wait := todoTake y.wait k, todo := todoPut y.todo k })
    else s)

/-! ### The reserve (R305) -/

/-- The last layer that reads layer `m`. -/
def lastReader (ls : List SLayer) (m : Nat) : Nat :=
  (numbered ls).foldl (fun a e => if e.2.src = m ∨ (e.2.kind = 1 ∧ e.2.conv.resid ∧ e.2.res = m) then e.1 else a) m

/-- The bytes of the buffers of one stripe that are live while layer `l` runs. -/
def liveBytes (ls : List SLayer) (need : List Rows) (l : Nat) : Nat :=
  ((numbered ls).map (fun e =>
    if e.1 < ls.length ∧ e.1 ≤ l ∧ l ≤ lastReader ls e.1 then (rowsOf (nth none need e.1)).length * e.2.outP else 0)).foldl (· + ·) 0

/-- The reserve of a stripe group: the largest total over its stripes. -/
def reserveOf (ls : List SLayer) (hs : Nat) : Nat :=
  (List.range ((lastHo ls + hs - 1) / hs)).foldl (fun m k =>
    let need := stripeNeeds ls (k * hs) (min ((k + 1) * hs) (lastHo ls) - 1)
    (List.range (ls.length + 1)).foldl (fun m l => max m (liveBytes ls need l)) m) 0

/-- Whether every stripe group in flight has its pool (R305). -/
def State.stripesFit (s : State) : Bool :=
  s.sch.cmds.all (fun x =>
    let r := if x.lays.isEmpty then
        (if x.kind = 1 ∧ x.final.isNone then
          let f := s.readFused x
          if f.2.1 = 0 ∧ pf f.2.2.p 0 1 = 5 ∧ stripeOk f.2.2.p then
            (f.2.2.p, (f.1.readLayers f.2.2).2.2)
          else ([], [])
        else ([], []))
      else (x.par, x.lays)
    r.2.isEmpty || decide (stripeD r.1 * reserveOf (r.2.map slayer) (stripeHs r.1) ≤ pf r.1 0x18 4))

end Sys2Proof.Machine
end

