-- ==== Sys2Proof/Machine/Vote.lean ====
section
/-!
DEFINITION. The vote on an epoch: the job descriptor, the result contract, and every condition under which a module refuses a job
start, a job end or a bank switch (R61, R87, R110, R133, R153, R164, R305, R331, R383, R387, R394, R397, R398, R400, R401, R433, R485,
R494).  The values judged are those that the epoch would put into effect.
-/

namespace Sys2Proof.Machine

/-! ### Ports in use -/

/-- How parts start on port `p`: 0 none, 1 grid, 2 probe, 3 explicit. -/
def State.psNext (s : State) (p : Nat) : Nat := s.rd (bEJT p) EJT_PARTCFG_PS_SRC

/-- `P` of R433: the pitch in grid mode, `PSMIN` in probe mode. -/
def State.pitchNext (s : State) (p : Nat) : Nat := s.rd (bEJT p) (if s.psNext p = 1 then EJT_PITCH else EJT_PSMIN)

/-- Whether the job uses Stirrup port `p`: parts start on it, or a camera is triggered from it. -/
def State.portNext (s : State) (p : Nat) : Bool :=
  s.psNext p != 0 || (List.range 9).any (fun n => s.rd (bCAM n) CAM_TRIG_SRC == p + 1)

/-! ### Conditions -/

/-- The classes of port `p` that would fire. -/
def State.firingNext (s : State) (p : Nat) : List Nat := (List.range 3).filter (fun c => s.rd (bEJT p) (EJT_CLS_CFG_MASK c) != 0)

/-- Their offsets. -/
def State.offsetsNext (s : State) (p : Nat) : List Int := (s.firingNext p).map (fun c => sext 32 (s.rd (bEJT p) (EJT_CLS_OFFSET c)))

/-- The first case of R433: more than 64 slots could be open at once. -/
def State.tooManySlots (s : State) (p : Nat) : Bool :=
  let reach : Int := s.rd (bEJT p) EJT_TARGET + max 0 (maxOr0 (s.offsetsNext p))
  s.pitchNext p == 0 || decide (63 * (s.pitchNext p : Int) < reach)

/-- The second case of R433: the verdict deadline lies beyond the earliest firing position at `MAXSPEED`. -/
def State.deadlineBeyond (s : State) (p : Nat) : Bool :=
  let delay := ((s.firingNext p).map (fun c => s.rd (bEJT p) (EJT_CLS_DELAY c))).foldl max 0
  decide ((minOr0 (s.offsetsNext p) + (s.rd (bEJT p) EJT_GUARD : Int)) * 1000000 < (s.rd (bEJT p) EJT_MAXSPEED * 256 * delay : Nat))

/-- Whether port `p` keeps R433. -/
def State.slotsOk (s : State) (p : Nat) : Bool :=
  s.psNext p == 0 || ((s.psNext p == 3 || !s.tooManySlots p) && !s.deadlineBeyond p)

/-- Whether port `p` keeps R485. -/
def State.windowsOk (s : State) (p : Nat) : Bool :=
  s.psNext p == 0 || (List.range 6).all (fun z =>
    decide ((s.rd bHLT (HLT_STG_DUE z p) : Int) < (s.rd (bEJT p) EJT_TARGET : Int) - s.rd (bEJT p) EJT_GUARD))

/-- The cost of a part on port `p` in pixel-offsets (R494). -/
def State.fbCost (s : State) (p : Nat) : Nat :=
  ((s.hlt.shadow.wins.filter (fun x => x.stp == p)).map (fun x => x.w * x.h * (2 * x.r + 1) ^ 2)).foldl (· + ·) 0

/-- The load of port `p` as a fraction, and whether parts of its kind are judged by the fallback inspector. -/
def State.fbLoad (s : State) (p : Nat) : Nat × Nat :=
  if s.psNext p = 1 ∨ s.psNext p = 2 then (s.fbCost p * s.rd (bEJT p) EJT_MAXSPEED * 256, max 1 (s.pitchNext p)) else (0, 1)

/-- Whether the fallback inspector carries the load of both ports (R494). -/
def State.fallbackFits (s : State) : Bool :=
  let a := s.fbLoad 0
  let b := s.fbLoad 1
  decide (a.1 * b.2 + b.1 * a.2 ≤ 2560000000 * a.2 * b.2)

/-- The words of pool `k` that R331 judges: base, format, D, first page, count. -/
def State.poolNext (s : State) (k : Nat) : List Nat :=
  [s.rd64 bKVC (KVC_POOL_BASE_LO k) (KVC_POOL_BASE_HI k), s.rd bKVC (KVC_POOL_CFG_FMT k), s.rd bKVC (KVC_POOL_CFG_D k),
   s.rd bKVC (KVC_POOL_PAGES_FIRST k), s.rd bKVC (KVC_POOL_PAGES_COUNT k), s.rd bKVC (KVC_POOL_CFG_VALID k)]

/-- The same of the pool in effect. -/
def State.poolNow (s : State) (k : Nat) : List Nat :=
  [s.act bKVC (KVC_POOL_BASE_LO k) + 4294967296 * s.act bKVC (KVC_POOL_BASE_HI k), s.act bKVC (KVC_POOL_CFG_FMT k),
   s.act bKVC (KVC_POOL_CFG_D k), s.act bKVC (KVC_POOL_PAGES_FIRST k), s.act bKVC (KVC_POOL_PAGES_COUNT k), s.act bKVC (KVC_POOL_CFG_VALID k)]

/-- Whether a valid pool keeps the limits of R331. -/
def poolLimits (w : List Nat) : Bool :=
  let d := nth 0 w 2
  nth 0 w 0 % 1048576 == 0 && decide (2 ≤ nth 0 w 1) && decide (nth 0 w 1 ≤ 5) && decide (8 ≤ d) && decide (d ≤ 16384) && d % 8 == 0 &&
  decide (nth 0 w 3 + nth 0 w 4 ≤ 16384) && decide (nth 0 w 0 + nth 0 w 4 * kvPageBytes (nth 0 w 1) d ≤ dramEnd)

/-- Whether two pools' page ranges are apart. -/
def poolsApart (a b : List Nat) : Bool :=
  decide (nth 0 a 3 + nth 0 a 4 ≤ nth 0 b 3) || decide (nth 0 b 3 + nth 0 b 4 ≤ nth 0 a 3) || nth 0 a 4 == 0 || nth 0 b 4 == 0

/-- Whether the pool settings keep R331. -/
def State.poolsOk (s : State) : Bool :=
  let v := (List.range 4).filter (fun k => nth 0 (s.poolNext k) 5 == 1)
  v.all (fun k => poolLimits (s.poolNext k) && v.all (fun j => j == k || poolsApart (s.poolNext k) (s.poolNext j))) &&
  (List.range 4).all (fun k => s.poolNext k == s.poolNow k || !s.kvc.pages.any (fun e => e.2.pool == k && e.2.state != 0))

/-- Whether the wired and the follower ports keep R387; module 0's own ports are the reference. -/
def State.alignedOk (s : State) : Bool :=
  s.modulePos == 0 || [0, 1].all (fun p =>
    if bit (s.rd bLNK LNK_POSCFG_FOLLOW) p = 1 then s.rd bLNK (LNK_SUBVCFG_EN p) == 1
    else !s.portNext p || bit (s.rd bLNK LNK_POSCFG_ALIGNED) p == 1)

/-- Whether every camera port in use keeps R110. -/
def State.camerasOk (s : State) : Bool := (List.range 9).all (fun n => !s.camUsed n || s.camValid n)

/-- Whether the clock source allows a job (R383). -/
def State.clockReady (s : State) : Bool := s.clkSel != 2 || s.lnk.clkLane.isSome

/-- Whether no rule but those about the job descriptor refuses a job start. -/
def State.jobOk (s : State) : Bool :=
  s.sys.idDone && s.clockReady && s.alignedOk && s.camerasOk && s.regionsOk && s.poolsOk && s.stripesFit && s.fallbackFits &&
  [0, 1].all (fun p => s.slotsOk p && s.windowsOk p)

/-! ### The job descriptor (R61, R164, R397, R398) -/

/-- A read of a list that must lie in DRAM. -/
def State.lnkRead (s : State) (a n : Nat) : State × Option (List Nat) :=
  if n = 0 then (s, some [])
  else if dramEnd < a + n then (s, none)
  else
    let r := s.hwRead (iLNK 0) a n
    (r.1, if r.2.1 = 0 then some r.2.2 else none)

/-- The calibration digest that the identity record holds for `CAM`n, if its record is valid (R58). -/
def State.calibOf (s : State) (n : Nat) : Option (List Nat) :=
  match s.sys.idUse with
  | some b => if leAt b (0x200 + 512 * n) 1 = 1 then some ((b.drop (0x274 + 512 * n)).take 32) else none
  | none => none

/-- The calibration digest that a descriptor names for `CAM`n. -/
def calibNamed (b : List Nat) (n : Nat) : List Nat := (b.drop (0x60 + 32 * n)).take 32

/-- Whether every camera the job uses has its calibration (R61). -/
def State.calibOk (s : State) (b : List Nat) : Bool :=
  (List.range 8).all (fun n => (!s.camUsed n && (calibNamed b n).all (· == 0)) || s.calibOf n == some (calibNamed b n))

/-- Whether the fixed part of a job descriptor keeps R397. -/
def jobHeadOk (b : List Nat) : Bool :=
  let pc := leAt b 0x50 2
  let tab := leAt b 0x48 8
  leAt b 0 4 == 0x424A5247 && leAt b 4 2 == 1 && zeroAt b 6 2 && zeroAt b 0x54 4 && zeroAt b 0x160 160 &&
  decide (pc ≤ 4096) && decide (leAt b 0x52 2 ≤ 256) && (if pc = 0 then tab == 0 else tab % 64 == 0)

/-- The artwork list of a job as descriptor addresses and acceptance of damage, none when a reserved field is not 0. -/
def artList (b : List Nat) : Option (List (Nat × Bool)) :=
  allSome ((List.range (b.length / 16)).map (fun k =>
    if leAt b (16 * k + 8) 1 ≤ 1 ∧ zeroAt b (16 * k + 9) 7 then some (leAt b (16 * k) 8, leAt b (16 * k + 8) 1 == 1) else none))

/-- Read and check the job descriptor (R397): the job, or none when the vote is refused. -/
def State.readJob (s : State) : State × Option Job :=
  let a := s.rd64 bLNK LNK_JOB_LO LNK_JOB_HI
  let r := s.lnkRead a 512
  match r.2 with
  | none => (r.1, none)
  | some b =>
    let pc := leAt b 0x50 2
    let p := r.1.lnkRead (leAt b 0x48 8) (if jobHeadOk b then 48 * pc else 0)
    let q := p.1.lnkRead (leAt b 0x58 8) (if jobHeadOk b then 16 * leAt b 0x52 2 else 0)
    let ps := p.2.bind (parsePatches pc)
    let as := q.2.bind artList
    match ps, as with
    | some ps, some as =>
      if a % 64 = 0 ∧ jobHeadOk b ∧ s.calibOk b ∧ as.all (fun e => e.2 || s.tan.artOk.contains e.1) then
        (q.1, some { ident := (b.drop 8).take 16, digest := (b.drop 0x18).take 32, declared0 := leAt b 0x38 8, declared1 := leAt b 0x40 8
                     patches := ps, artAccept := as, calib := (List.range 8).map (calibNamed b) })
      else (q.1, none)
    | _, _ => (q.1, none)

/-! ### The result contract (R400) -/

/-- The result contract: the result version and the image digests of the slots in `SCH_ACTNEXT`. -/
def State.contract (s : State) : List Nat :=
  let m := s.rd64 bSCH SCH_ACTNEXT_LO SCH_ACTNEXT_HI
  sha256 (s.lnk.resultVer ++ (bitList 64 m).flatMap (fun k => ((Store.get {} s.sch.ctx k).entry.drop 0x40).take 32))

/-! ### The live switch (R401) -/

/-- The digest of an image of a bank. -/
def State.imageDigest (s : State) (bank ty : Nat) : Option (List Nat) :=
  let base := flashBase + 0x6000000 * bank
  match entryOf ((s.directory base).getD []) ty with
  | some e => some ((s.bytes (base + e.2.1) 192).drop 0x20 |>.take 32)
  | none => none

/-- Whether a bank switch is possible: a trial is pending, and the Halter and management boot images of both banks are equal. -/
def State.switchOk (s : State) : Bool :=
  let k := s.sys.bank
  s.sys.swapState == 1 && [1, 2].all (fun ty => s.imageDigest k ty != none && s.imageDigest k ty == s.imageDigest (1 - k) ty)

/-! ### The vote -/

/-- Whether every slot named in `SCH_ACTNEXT` is READY or ACTIVE. -/
def State.slotsReady (s : State) : Bool :=
  (bitList 64 (s.rd64 bSCH SCH_ACTNEXT_LO SCH_ACTNEXT_HI)).all (fun k => s.ctxState k == 2 || s.ctxState k == 3)

/-- The module that shard `j`'s shadow entry names. -/
def State.shadowModule (s : State) (j : Nat) : Nat := s.rd bSCH (if j % 2 = 0 then SCH_SMAP_MODULE0 (j / 2) else SCH_SMAP_MODULE1 (j / 2))

/-- The home cluster of shard `j`'s shadow entry. -/
def State.shadowHome (s : State) (j : Nat) : Nat := s.rd bSCH (if j % 2 = 0 then SCH_SMAP_HOME0 (j / 2) else SCH_SMAP_HOME1 (j / 2))

/-- Whether every shadow entry names a joined module. -/
def State.shadowOk (s : State) : Bool := (List.range 1024).all (fun j => s.joined (s.shadowModule j))

/-- The flags of an epoch: whether it starts a job, ends one, switches the bank, reverts (R396, R412). -/
def cfgStart (cfg : Nat) : Bool := bit cfg 4 == 1
def cfgEnd (cfg : Nat) : Bool := bit cfg 7 == 1 && bit cfg 4 == 0
def cfgSwitch (cfg : Nat) : Bool := bit cfg 5 == 1
def cfgRevert (cfg : Nat) : Bool := bit cfg 6 == 1

/-- This module's vote on an epoch, given module 0's contract (R394): the checked job is kept for the epoch. -/
def State.vote (s : State) (cfg : Nat) (contract : List Nat) : State × Bool :=
  let r := if cfgStart cfg then s.readJob else (s, none)
  let job := !cfgStart cfg || (r.2.isSome && s.jobOk && contract == s.contract)
  let rest := s.slotsReady && s.shadowOk && (!cfgEnd cfg || s.jobRun) && (!cfgSwitch cfg || s.switchOk)
  ({ r.1 with jobNext := r.2 }, job && rest)

end Sys2Proof.Machine
end

