-- ==== Sys2Proof/Machine/Epoch.lean ====
section
/-!
DEFINITION. Job epochs: announcement, vote, commit, application, the end of a job, and the live switch of banks (R393-R396, R401, R402,
R597).
-/

namespace Sys2Proof.Machine

/-- Set the pending epoch. -/
def State.setEpoch (s : State) (e : Option Epoch) : State := s.setLnk { s.lnk with epoch := e }

/-- Set `ESTATE`. -/
def State.setEstate (s : State) (v : Nat) : State := s.wr bLNK LNK_EPOCH_STAT_ESTATE v

/-- Set `CAUSE`. -/
def State.setCause (s : State) (v : Nat) : State := s.wr bLNK LNK_EPOCH_STAT_CAUSE v

/-- Whether a position lies at least `ms` ahead on port `p` at its present speed; a port at standstill always passes (R393, R394). -/
def State.leadOk (s : State) (p ms : Nat) (pos : Int) : Bool :=
  decide (((s.speed p).natAbs * 256 * ms : Nat) ≤ (pos - s.pos p) * 1000) || s.speed p == 0

/-! ### Votes at module 0 (R394) -/

/-- An epoch is aborted on this module. -/
def State.dropEpoch (s : State) (cause refuser : Nat) : State :=
  let rev := match s.lnk.epoch with
    | some e => cfgRevert e.cfg && s.modulePos == 0
    | none => false
  let s := s.setLnk { s.lnk with epoch := none, revert := s.lnk.revert || rev }
  let s := ((s.setEstate 4).setCause cause).wr bLNK LNK_EPOCH_STAT_REFUSER refuser
  { (s.inc bLNK LNK_CNT_EPOCH_ABORT) with jobNext := none }

/-- Module 0 aborts the pending epoch. -/
def State.abortEpoch (s : State) (e : Epoch) (cause refuser : Nat) : State :=
  (s.sendFrame (s.frame frABORT toAll e.num [cause, refuser])).dropEpoch cause refuser

/-- A commit of the pending epoch reaches this module. -/
def State.takeCommit (s : State) (out : Nat) (acts : List Nat) : State :=
  match s.lnk.epoch with
  | some e => (s.setEpoch (some { e with committed := true, out := out, acts := acts })).setEstate 2
  | none => s

/-- The vote of a module, if it has voted. -/
def Epoch.voteOf (e : Epoch) (m : Nat) : Option Vote := Store.get none e.votes m

/-- Module 0 decides once a module has refused or every module has accepted. -/
def State.decideEpoch (s : State) : State :=
  match s.lnk.epoch with
  | none => s
  | some e =>
    if e.committed then s
    else
      match e.voters.find? (fun m => match e.voteOf m with
        | some v => v.cause != 0
        | none => false) with
      | some m => s.abortEpoch e 3 m
      | none =>
        if e.voters.all (fun m => (e.voteOf m).isSome) then
          if s.leadOk e.port 1 e.pos then
            let vs := (List.range 16).map (fun m => (e.voteOf m).getD {})
            let out : Nat := vs.zipIdx.foldl (fun n x => if x.1.out then n + 2 ^ x.2 else n) 0
            let acts := vs.map Vote.act
            (s.sendFrame (s.frame frCOMMIT toAll e.num ((out : Int) :: acts.map Int.ofNat))).takeCommit out acts
          else s.abortEpoch e 5 0
        else s

/-- A vote reaches module 0. -/
def State.takeVote (s : State) (num m : Nat) (v : Vote) : State :=
  match s.lnk.epoch with
  | some e =>
    if e.num = num ∧ !e.committed ∧ e.voters.contains m then
      (s.setEpoch (some { e with votes := Store.put none e.votes m (some v) })).decideEpoch
    else s
  | none => s

/-- The weight streams of a context, as address and bytes (R356). -/
def State.ctxStreams (s : State) (k : Nat) : List (Nat × Nat) :=
  let f (o n : Nat) : Nat := leNat (((Store.get {} s.sch.ctx k).entry.drop o).take n)
  (List.range (f 0x18 2)).map (fun j => (s.readLE (f 0x10 8 + 16 * j) 8, s.readLE (f 0x10 8 + 16 * j + 8) 4))

/-- The weight streams of every context that would enter the active set are declared to the prefetchers, each to a port in turn (R359). -/
def State.declareStreams (s : State) : State :=
  let next := bitList 64 (s.rd64 bSCH SCH_ACTNEXT_LO SCH_ACTNEXT_HI)
  ((next.filter (fun k => s.ctxState k == 2)).flatMap s.ctxStreams).zipIdx.foldl (fun s e => s.declare (e.2 % 34) e.1.1 e.1.2) s

/-- This module declares its weight streams, votes on the pending epoch, and sends its vote to module 0 (R359, R393, R394, R408). -/
def State.castVote (s : State) (e : Epoch) (contract : List Nat) : State :=
  let r := s.declareStreams.vote e.cfg contract
  let act := (List.range 34).foldl (fun n c => if r.1.roleNext c = 0 then n + 2 ^ c else n) 0
  let v : Vote := { cause := if r.2 then 0 else 0x0101, out := s.rd bLNK LNK_SVC_COMPUTE_OUT == 1, act := act }
  if s.modulePos = 0 then r.1.takeVote e.num 0 v
  else r.1.sendFrame (s.frame frVOTE 0 e.num [v.cause, if v.out then 1 else 0, act])

/-- Module 0 announces an epoch (R393): `ANNOUNCE` carries its contract, and its own vote starts. -/
def State.announce (s : State) (port : Nat) (pos : Int) (cfg : Nat) : State :=
  let e : Epoch := { num := s.rd bLNK LNK_EPOCH_NUM + 1, port := port, pos := pos, cfg := cfg, since := s.now
                     voters := modulesOf (s.rd bLNK LNK_MEMBERS_JOINED) }
  let s := (((s.setEpoch (some e)).setEstate 1).setCause 0).wr bLNK LNK_EPOCH_STAT_REFUSER 0
  let c := s.contract
  (s.sendFrame (s.frame frANNOUNCE toAll e.num ([(port : Int), pos, (cfg : Int)] ++ c.map Int.ofNat))).castVote e c

/-- `LNK_EPOCH_CFG` as one number. -/
def State.epochCfg (s : State) : Nat := s.regWord bLNK 0x148

/-- The cause that refuses an announcement, 0 for none (R393, R396). -/
def State.announceCause (s : State) : Nat :=
  let p := s.rd bLNK LNK_EPOCH_CFG_PORT
  if s.modulePos ≠ 0 then 7
  else if s.lnk.epoch.isSome then 2
  else if cfgEnd s.epochCfg && !s.jobRun then 8
  else if !s.leadOk p 2 (s.rdS64 bLNK LNK_EPOCH_POS_LO LNK_EPOCH_POS_HI) then 1
  else 0

/-- LNK_EPOCH_GO: a write `v` of `LNK_EPOCH_GO` (R393): a refused announcement changes only `CAUSE`. -/
def execLnkEpochGo (t i v : Nat) (s : State) : Host.Outcome State Fault Refusal :=
  let s := s.at t
  .next (if !s.regAllowed i true bLNK 0x14C then s.deny i true (regBase + bLNK * 0x100000 + 0x14C)
  else if bit v 0 = 1 ∧ s.lnkOn then
    let c := s.announceCause
    if c ≠ 0 then s.setCause c
    else s.announce (s.rd bLNK LNK_EPOCH_CFG_PORT) (s.rdS64 bLNK LNK_EPOCH_POS_LO LNK_EPOCH_POS_HI) s.epochCfg
  else s)

/-! ### The live switch at module 0 (R402) -/

/-- Module 0 announces the revert that is due, at the earliest position R393 allows, once no epoch is pending. -/
def State.tryRevert (s : State) : State :=
  if s.lnk.revert && s.modulePos == 0 && s.lnk.epoch.isNone && s.lnkOn then
    let p := s.rd bLNK LNK_EPOCH_CFG_PORT
    let lead : Int := ((s.speed p).natAbs * 512 + 999) / 1000
    (s.setLnk { s.lnk with revert := false }).announce p (s.pos p + lead) 64
  else s

/-- The live switch is over on this module. -/
def State.endUpgrade (s : State) : State := s.setLnk { s.lnk with upg := none, mine := 0, reports := [] }

/-- Module 0 looks at the reports: a failure calls for a revert, success of every module in service is broadcast and confirmed. -/
def State.judgeUpgrade (s : State) : State :=
  if s.modulePos ≠ 0 ∨ s.lnk.upg.isNone then s
  else if s.lnk.reports.any (fun e => e.2 == 2) then (s.endUpgrade.setLnk { s.endUpgrade.lnk with revert := true }).tryRevert
  else if (modulesOf (s.rd bLNK LNK_MEMBERS_IN)).all (fun m => Store.get 0 s.lnk.reports m == 1) then
    (s.sendFrame (s.frame frUPGRADE_REPORT toAll 0 [1])).swapConfirm.endUpgrade
  else s

/-- UPGRADE_REPORT: a report on a live switch (R402).  Module 0 takes the report of module `src`, its own included; from module 0 the
success of all reaches the others, and each writes `CONFIRM`. -/
def execUpgradeReport (t a src : Nat) (ok : Bool) (s : State) : Host.Outcome State Fault Refusal :=
  let s := s.at t
  .next (if s.modulePos = 0 then
    if src = 0 then s.judgeUpgrade
    else s.onFrame a (s.forMe frUPGRADE_REPORT src 0 [if ok then 1 else 2]) (fun s =>
      if s.lnk.upg.isSome ∧ Store.get 0 s.lnk.reports src = 0 then
        (s.setLnk { s.lnk with reports := Store.put 0 s.lnk.reports src (if ok then 1 else 2) }).judgeUpgrade
      else s)
  else s.onFrame a (bcast frUPGRADE_REPORT 0 0 [if ok then 1 else 2]) (fun s =>
    if ok ∧ s.lnk.upg.isSome then s.swapConfirm.endUpgrade else s))

/-- UPGRADE_TIMEOUT: 10 s after a live switch a module without a successful part reports failure; at module 0 a report still missing counts
as one (R402). -/
def execUpgradeTimeout (t : Nat) (s : State) : Host.Outcome State Fault Refusal :=
  let s := s.at t
  .next (match s.lnk.upg with
  | some u =>
    if u.1 + 10000000000 ≤ s.now then
      let s := s.upgReport false
      if s.modulePos = 0 then
        let miss := (modulesOf (s.rd bLNK LNK_MEMBERS_IN)).filter (fun m => Store.get 0 s.lnk.reports m == 0)
        (s.setLnk { s.lnk with reports := miss.foldl (fun l m => Store.put 0 l m 2) s.lnk.reports }).judgeUpgrade
      else s
    else s
  | none => s)

/-! ### Frames of an epoch -/

/-- ANNOUNCE: module 0 announces an epoch with its contract, and this module votes (R393, R394). -/
def execAnnounce (t a num port : Nat) (pos : Int) (cfg : Nat) (contract : List Nat) (s : State) : Host.Outcome State Fault Refusal :=
  let s := s.at t
  .next (s.onFrame a (bcast frANNOUNCE 0 num ([(port : Int), pos, (cfg : Int)] ++ contract.map Int.ofNat)) (fun s =>
    if s.modulePos = 0 ∨ !s.joined s.modulePos then s
    else
      let e : Epoch := { num := num, port := port % 2, pos := pos, cfg := cfg, since := s.now
                         voters := modulesOf (s.rd bLNK LNK_MEMBERS_JOINED) }
      let s := (((s.setEpoch (some e)).setEstate 1).setCause 0).wr bLNK LNK_EPOCH_STAT_REFUSER 0
      s.castVote e contract))

/-- VOTE: module `src` votes on epoch `num` (R394). -/
def execVote (t a src num cause : Nat) (out : Bool) (act : Nat) (s : State) : Host.Outcome State Fault Refusal :=
  let s := s.at t
  .next (s.onFrame a (s.forMe frVOTE src num [cause, if out then 1 else 0, act]) (fun s =>
    if s.modulePos = 0 then (s.takeVote num src { cause := cause, out := out, act := act }).tryRevert else s))

/-- VOTE_TIMEOUT: 1 ms after the announcement the votes still missing count as refusals (R394). -/
def execVoteTimeout (t : Nat) (s : State) : Host.Outcome State Fault Refusal :=
  let s := s.at t
  .next (match s.lnk.epoch with
  | some e =>
    if s.modulePos = 0 ∧ !e.committed ∧ e.since + 1000000 ≤ s.now then
      match e.voters.find? (fun m => (e.voteOf m).isNone) with
      | some m => (s.abortEpoch e 4 m).tryRevert
      | none => s
    else s
  | none => s)

/-- COMMIT: module 0 commits epoch `num` (R394, R395, R408). -/
def execCommit (t a num out : Nat) (acts : List Nat) (s : State) : Host.Outcome State Fault Refusal :=
  let s := s.at t
  .next (s.onFrame a (bcast frCOMMIT 0 num ((out : Int) :: acts.map Int.ofNat)) (fun s => match s.lnk.epoch with
    | some e => if s.modulePos ≠ 0 ∧ e.num = num then s.takeCommit out acts else s
    | none => s))

/-- ABORT: module 0 aborts epoch `num` (R394). -/
def execAbort (t a num cause refuser : Nat) (s : State) : Host.Outcome State Fault Refusal :=
  let s := s.at t
  .next (s.onFrame a (bcast frABORT 0 num [cause, refuser]) (fun s => match s.lnk.epoch with
    | some e => if s.modulePos ≠ 0 ∧ e.num = num then s.dropEpoch cause refuser else s
    | none => s))

/-! ### Application (R395, R597) -/

/-- The grid starts of the old configuration below the epoch position are taken first (R597). -/
def State.takeBelow : Nat → State → Nat → Int → State
  | 0, s, _, _ => s
  | n + 1, s, p, x =>
    match s.nextGrid p with
    | some (start, part) => if s.startsFrom p 1 && decide (start < x) then State.takeBelow n (s.takeStart p part start) p x else s
    | none => s

/-- The active set changes (R358): the slots of the mask become ACTIVE, the others retire. -/
def State.applyContexts (s : State) (mask : Nat) : State :=
  let was := s.rd64 bSCH SCH_ACT_LO SCH_ACT_HI
  let s := (List.range 64).foldl (fun s k =>
    let st := s.ctxState k
    if bit mask k = 1 then (if st = 2 then s.setCtxState k 3 else if st = 3 then s else s.raise 0x0402 bSCH k)
    else if st = 3 then s.setCtxState k 4 else s) s
  let s := if s.rd64 bSCH SCH_ACT_LO SCH_ACT_HI = was then s else s.inc bSCH SCH_CNT_CHANGEOVERS
  s.settleCtxs

/-- The shadow shard map takes effect (R370). -/
def State.applyMap (s : State) : State := (List.range 1024).foldl (fun s j => s.setShard j (s.shadowModule j) (s.shadowHome j)) s

/-- Every instruction cache is invalidated (R247). -/
def State.dropCaches (s : State) : State := (List.range 34).foldl (fun s c => s.setClu c { s.cluX c with ic := [] }) s

/-- The fallback table loaded last takes effect; those that open parts need stay (R494). -/
def State.applyFallback (s : State) : State :=
  let used := [0, 1].flatMap (fun p => (s.openSlots p).map (fun e => e.2.fbGen))
  let g := s.hlt.fbGen + 1
  s.setHlt { s.hlt with
    fbGen := g
    tables := Store.put {} (s.hlt.tables.filter (fun e => used.contains e.1)) g s.hlt.shadow }

/-- The generators start over on their new grids (R467). -/
def State.applyGenerators (s : State) : State := (List.range 8).foldl (fun s k => s.setFired k s.tb.time) s

/-- Stirrup port `p` and its ejection unit at an epoch reached at position `x` (R431, R440): at a job start part numbers start over and
parts start again; at a job end none starts. -/
def State.applyPort (s : State) (e : Epoch) (p : Nat) : State :=
  let u := s.ejtU p
  s.setEjt p { u with
    hiStart := some (if p = e.port then e.pos - 1 else s.pos p)
    mayOpen := u.mayOpen || s.ejtLive p
    nextPart := if cfgStart e.cfg then 0 else u.nextPart
    opens := if cfgStart e.cfg then 0 else u.opens
    stopStarts := if cfgStart e.cfg then false else u.stopStarts || cfgEnd e.cfg }

/-- The job of an epoch (R60, R396): a start takes the checked descriptor and stores its reference, an end waits for the last parts. -/
def State.applyJob (s : State) (e : Epoch) : State :=
  if cfgStart e.cfg then
    let j := s.jobNext.getD {}
    let s := ({ s with job := j, jobNext := none }.setLnk { s.lnk with ending := false }).wr bLNK LNK_EPOCH_STAT_JOB_RUN 1
    let r := j.ident ++ j.digest ++ leBytes 8 (toCode 64 (e.pos / 256)) ++ s.contract
    (s.setSys { s.sys with lastJob := r ++ List.replicate 40 0 }).idEvent [(0x180, r)]
  else if cfgEnd e.cfg then s.setLnk { s.lnk with ending := true }
  else s

/-- The images of a bank that run under no reset take over: all but the Halter and management boot images (R401). -/
def State.takeImages (s : State) (bank : Nat) : State :=
  let base := flashBase + 0x6000000 * bank
  let es := ((s.directory base).getD []).filter (fun e => e.1 != 1 && e.1 != 2)
  let s := es.foldl (fun s e => s.loadImage base e) s
  let s := s.setSys { s.sys with bank := bank, released := (s.sys.released.filter (· ≤ 2)) ++ es.map Prod.fst }
  s.setLnk { s.lnk with resultVer := s.resultVersion base }

/-- The bank switch or the revert of an epoch (R401, R402). -/
def State.applyBank (s : State) (e : Epoch) (at_ : List Int) : State :=
  if cfgSwitch e.cfg ∧ s.sys.swapState = 1 then
    let s := (s.takeImages (1 - s.activeBank)).setSwap 2 s.sys.swapActive
    s.setLnk { s.lnk with upg := some (s.now, at_), mine := 0, reports := [] }
  else if cfgRevert e.cfg ∧ s.sys.swapState = 2 then
    (((s.takeImages s.activeBank).setSwap 0 s.sys.swapActive).wr bRST RST_BOOT_STATUS_REVERTED 1).endUpgrade
  else s

/-- This module applies a committed epoch (R395, R597). -/
def State.applyEpoch (s : State) (e : Epoch) : State :=
  let s := s.takeBelow 64 e.port e.pos
  let at_ : List Int := [0, 1].map (fun p => if p = e.port then e.pos else s.pos p)
  let s := (s.tanBefore at_).clmBefore at_
  let s := { s with active := s.regs }
  let s := ((s.applyJob e).tanAfter).clmAfter
  let s := [0, 1].foldl (fun s p => s.applyPort e p) s
  let s := (List.range 9).foldl (fun (s : State) n =>
    let p := s.camStp n
    s.camEpoch (cfgStart e.cfg) n (nth 0 at_ p + (if p = e.port then 0 else 1))) s
  let s := s.applyContexts (if cfgEnd e.cfg then 0 else s.rd64 bSCH SCH_ACTNEXT_LO SCH_ACTNEXT_HI)
  let s := ((s.applyFallback.applyGenerators).dropCaches).applyRoles
  let s := s.setLnk { s.lnk with epoch := none, out := e.out, acts := e.acts }
  let m := s.rd bLNK LNK_MEMBERS_JOINED
  let s := (s.applyMap.setMembers m (m.land (e.voters.foldl withBit 0))).absorbOut
  let s := s.applyBank e at_
  let s := ((s.wr bLNK LNK_EPOCH_NUM (s.rd bLNK LNK_EPOCH_NUM + 1)).inc bLNK LNK_CNT_EPOCHS).setEstate 3
  let s := (List.range 9).foldl State.camQuits s
  if s.modulePos = 0 then s.sendMembers.tryRevert else s

/-- EPOCH_APPLY: the system position has reached the position of the pending epoch (R395): it is applied; a module without `COMMIT` or
`ABORT` has lost it and leaves service, while module 0 itself aborts. -/
def execEpochApply (t : Nat) (s : State) : Host.Outcome State Fault Refusal :=
  let s := s.at t
  .next (match s.lnk.epoch with
  | some e =>
    if e.pos ≤ s.pos e.port then
      if e.committed then s.applyEpoch e
      else if s.modulePos = 0 then (s.abortEpoch e 5 0).tryRevert
      else
        let s := ((s.setEpoch none).setCause 6).raise 0x0503 bLNK e.num
        { s with jobNext := none }.leaveService
    else s
  | none => s)

/-- Generator `k` takes the configuration of its shadow, if that differs from the one in effect, once no job runs (R467). -/
def State.genTakes (s : State) (k : Nat) : State :=
  let fs := [TIM_GEN_CFG_EVT k, TIM_GEN_CFG_TAN k, TIM_GEN_CFG_STB k, TIM_GEN_CFG_EN k, TIM_GEN_STEP_LO k, TIM_GEN_STEP_HI k,
    TIM_GEN_PHASE_LO k, TIM_GEN_PHASE_HI k]
  if fs.all (fun f => s.act bTIM f == s.rd bTIM f) then s
  else (fs.foldl (fun t f => t.wrAct bTIM f (t.rd bTIM f)) s).setFired k s.tb.time

/-- JOB_ENDED: the last part of a job that is ending has its slot fired or discarded (R396, R467): the job has ended. -/
def execJobEnded (t : Nat) (s : State) : Host.Outcome State Fault Refusal :=
  let s := s.at t
  .next (if s.lnk.ending ∧ (s.openSlots 0).isEmpty ∧ (s.openSlots 1).isEmpty then
    let s := (s.setLnk { s.lnk with ending := false }).wr bLNK LNK_EPOCH_STAT_JOB_RUN 0
    let s := (List.range 9).foldl (fun s n => s.wr (bCAM n) CAM_CTRL_STREAM 0) s
    (List.range 8).foldl State.genTakes s
  else s)

end Sys2Proof.Machine
end

