-- ==== Sys2Proof/Machine/Scheduler.lean ====
section
/-!
DEFINITION. The scheduler's commands: doorbells, keys, deadlines, completions, check reports, verdict deadlines and context loads
(R22, R25, R340, R345, R347, R348, R350, R354, R357).
-/

namespace Sys2Proof.Machine

/-- The address of a register for a refused access. -/
def regAddr (b off : Nat) : Nat := regBase + b * 0x100000 + off

/-- SCH_Q_DB: a write of `SCH_Qq_DB` by initiator `i` (R340). -/
def execSchQDb (t i q v : Nat) (s : State) : Host.Outcome State Fault Refusal :=
  let s := s.at t
  .next (if !s.regAllowed i true bSCH (0x100C + 0x20 * q) then s.deny i true (regAddr bSCH (0x100C + 0x20 * q))
  else if !s.domOn bSCH || decide (64 ≤ q) then s
  else s.doorbell q (bits v 0 16))

/-- QEN: a write of `SCH_Qq_CFG` by initiator `i` (R345). -/
def execQen (t i q v : Nat) (s : State) : Host.Outcome State Fault Refusal :=
  let s := s.at t
  .next (if !s.regAllowed i true bSCH (0x1008 + 0x20 * q) then s.deny i true (regAddr bSCH (0x1008 + 0x20 * q))
  else if !s.domOn bSCH || decide (64 ≤ q) then s
  else s.qCfgWrite q v)

/-- COMMAND_COMPLETE: the command that `x` points to has its outcome and completes, or writes a record that waited (R346, R347). -/
def execCommandComplete (t x : Nat) (s : State) : Host.Outcome State Fault Refusal := .next ((s.at t).completeCmd x)

/-- KEY_RECOMPUTE: the scheduler recomputes every key (R348). -/
def execKeyRecompute (t : Nat) (s : State) : Host.Outcome State Fault Refusal :=
  let s := s.at t
  .next (if s.isOn bSCH && !s.fencing bSCH then s.recompute else s)

/-- COMMAND_DEADLINE_PASSED: the deadline of the command that `x` points to is passed (R350): it starts no further tile. -/
def execCommandDeadlinePassed (t x : Nat) (s : State) : Host.Outcome State Fault Refusal :=
  let s := s.at t
  .next (match s.cmd? x with
  | none => s
  | some c =>
    if c.final.isSome || c.stopped || !s.dlPassed c then s
    else ((s.modCmd x (fun c => { c with missed := true })).dropForced x).linkMissed x (some c))

/-- CHECK_REPORT: a check result reaches the merge entry of a part (R354, R355). -/
def execCheckReport (t p part c verdict status : Nat) (s : State) : Host.Outcome State Fault Refusal :=
  .next (((s.at t).checkReport p part c verdict status).settleCtxs)

/-- The verdict deadline of slot `k` (R22, R25, R127, R306): stripes without their rows end, acquisition reports the parts whose end it does not know from the grid, then the
merge commits with what has reported, then hardware commits what is left. -/
def State.verdictDue (s : State) (p k : Nat) : State :=
  match s.slot p k with
  | none => s
  | some x =>
    let s := s.stripesLate p x.part
    ((if x.explicit then s else s.acqDeadline p x.part).deadlineAt p k).settleCtxs

/-- EARLIEST_FIRING_DOUBT: an uncommitted slot has reached its earliest firing position (R435); before its deadline this is an
overspeed, and at its deadline or past it the deadline's own rules come first (R22). -/
def execEarliestFiringDoubt (t p k : Nat) (s : State) : Host.Outcome State Fault Refusal :=
  let s := s.at t
  .next (match s.slot p k with
  | none => s
  | some x =>
    if s.ejtLive p && x.commit.isNone && decide (s.earliestPos p x ≤ s.pos p) then
      if s.pos p < x.deadline then
        ((s.hwDoubt p k true).inc (bEJT p) EJT_CNT_OVERSPEED).raise 0x0602 (bEJT p) p x.part
      else s.verdictDue p k
    else s)

/-- VERDICT_DEADLINE: port `p` has reached the verdict deadline of slot `k` (R22, R25). -/
def execVerdictDeadline (t p k : Nat) (s : State) : Host.Outcome State Fault Refusal :=
  let s := s.at t
  .next (match s.slot p k with
  | none => s
  | some x => if s.deadlinePos p x ≤ s.pos p then s.verdictDue p k else s)

/-- LOAD: a `LOAD` of context slot `k` by initiator `i` (R357). -/
def execCtxLoad (t i k : Nat) (s : State) : Host.Outcome State Fault Refusal :=
  let s := s.at t
  .next (if !s.regAllowed i true bSCH 0x128 then s.deny i true (regAddr bSCH 0x128)
  else if !s.domOn bSCH then s
  else s.ctxCmd (0x100 + k % 64))

/-- UNLOAD: an `UNLOAD` of context slot `k` by initiator `i` (R357). -/
def execUnload (t i k : Nat) (s : State) : Host.Outcome State Fault Refusal :=
  let s := s.at t
  .next (if !s.regAllowed i true bSCH 0x128 then s.deny i true (regAddr bSCH 0x128)
  else if !s.domOn bSCH then s
  else s.ctxCmd (0x200 + k % 64))

/-- CONTEXT_LOAD_DONE: the check and the hash of slot `k`'s image end (R357). -/
def execContextLoadDone (t k : Nat) (s : State) : Host.Outcome State Fault Refusal :=
  let s := s.at t
  .next (if 64 ≤ k ∨ s.ctxState k ≠ 1 then s
  else
    let r := s.loadCtx k
    let s := r.1.loadStatus k r.2.1
    (if r.2.1 = 0 then (s.setCtxState k 2).setSch { s.sch with ctx := Store.put {} s.sch.ctx k r.2.2 }
     else s.setCtxState k 0).settleCtxs)

end Sys2Proof.Machine
end

