-- ==== Sys2Proof/Machine/TileRun.lean ====
section
/-!
DEFINITION. Tile boundaries: which command a cluster takes a tile of, the tiles of fused commands, and how tiles end: TILE_DISPATCH,
TILE_END, TILE_HUNG (R191-R194, R237, R238, R285, R305, R318, R329, R351).
-/

namespace Sys2Proof.Machine

/-! ### Tiles of fused commands -/

/-- The work of tile `n` of a fused command, by its kind (R285). -/
def fusedBody (x : Cmd) (n : Nat) : TileBody :=
  match x.par.headD 0 with
  | 1 => (convOf x.par).body n
  | 2 => (poolOf x.par).body n
  | 3 => (upOf x.par).body n
  | 4 => (reduceOf x.par).body (convOf (nth [] x.lays 0)) n
  | 5 => stripeBody x n
  | 6 => attBody x n
  | _ => projBody x n

/-- The pages that a tile reads (R329): one at most (R321). -/
def State.tilePages (s : State) (x : Cmd) (n : Nat) : List Nat :=
  if x.par.headD 0 = 6 then
    match x.attPageOf n with
    | some j => [(s.posPage (segSeq (nth [] x.lays (tileSeg n))) x.layerNo (256 * j)).1]
    | none => []
  else []

/-- The positions of a batch command's segment that its tile `n` reads or writes. -/
def Cmd.tilePositions (x : Cmd) (n : Nat) : List Nat :=
  let b := nth [] x.lays (tileSeg n)
  if x.isProj then
    let r0 := n / 1024 / blocks64 (projConv x.par).co * 64
    (List.range (min 64 (segCount b - r0))).map (fun k => segStart b + r0 + k)
  else match x.attPageOf n with
    | some j => [256 * j]
    | none => []

/-- The status with which a segment ends whose sequence has gone since it was prepared (R314; entry 61): none while it stands. -/
def State.segGone (s : State) (x : Cmd) (n : Nat) : Option Nat :=
  let q := segSeq (nth [] x.lays (tileSeg n))
  if !x.isBatch ∨ (x.tilePositions n).all (fun k => (s.posPage q x.layerNo k).1 != 0xFFFF && (s.seq q).state == 1) then none
  else some (if (s.seq q).state = 3 then (s.seq q).endStatus else 0x0101)

/-- Tile `n` of a fused command starts on cluster `c` (R191, R203, R285): it reads and computes, and holds its stores until it completes; a read
that fails ends it. An upset of its engine data sets its mismatch flag (entry 59). -/
def State.startFusedTile (s : State) (c : Nat) (x : Cmd) (n stage inj : Nat) (ups : List (Nat × Nat × Nat)) : State :=
  let take := s.injTile c
  let inj := if take then s.rd bMEM4 MEM4_INJ_TARGET - 4 else inj
  let s := (if take then s.wr bMEM4 MEM4_INJ_ARM 0 else s).noteRan c x
  match s.segGone x n with
  | some st => (s.endSegment x.ptr (tileSeg n) st).settleCmd x.ptr
  | none =>
    let pages := s.tilePages x n
    let s := pages.foldl (fun s i => s.updPage i (fun g => { g with inflight := g.inflight + 1 })) s
    let o := fusedBody x n s c
    let hit := ups.filter (fun u => u.2.2 != 0)
    let mism := take || (stage == 1 && inj == 2) || !hit.isEmpty
    let layer := if x.par.headD 0 = 5 ∧ mism then max 1 (min x.lays.length ((hit.map Prod.fst).headD 1)) else 0
    let s := o.s.setTile c (some {
      q := x.ptr, tile := n, stage := stage, since := s.now, segs := x.segs, fused := true, ended := true, mism := mism, inj := inj
      flags := o.flags, buf := o.stores.reverse, layer := layer, pages := pages, vals := o.vals })
    if o.status = 0 then s else ((s.dropTile c).noteLayer x.ptr n o.layer).endCmdTile x.ptr n o.status

/-- Tile `n` of a command starts on cluster `c`. -/
def State.startAny (s : State) (c : Nat) (x : Cmd) (n stage inj : Nat) (ups : List (Nat × Nat × Nat)) : State :=
  if x.kind = 0 then s.startTile c x n stage inj ups else s.startFusedTile c x n stage inj ups

/-! ### Dispatch (R351) -/

/-- A command starts when a cluster takes its first tile: its blocks are checked (R215, R285). -/
def State.beginAny (s : State) (c : Nat) (x : Cmd) : State :=
  if x.kind = 0 then s.beginCmd c x
  else match s.fusedKind x with
    | 1 => s.startConv x.ptr
    | 2 => s.startPool x.ptr
    | 3 => s.startUp x.ptr
    | 4 => s.startReduce x.ptr
    | 5 => s.startStripes x.ptr
    | 6 => s.startAtt x.ptr
    | 7 => s.startProj x.ptr
    | _ => s.startFused x.ptr 256 (fun s _ => s)

/-- The next tile of the ready command with the lowest key goes to cluster `c`; a command that starts with no tile to give makes way for the
next. -/
def State.dispatch : Nat → State → Nat → List (Nat × Nat × Nat) → State
  | 0, s, _, _ => s
  | k + 1, s, c, ups =>
    match s.nextCmd c with
    | none => s
    | some x =>
      if !x.begun then State.dispatch k (s.beginAny c x) c ups
      else match s.tileFor c x with
        | none => s
        | some n =>
          let u := s.startClock c
          if !u.2 then u.1 else (u.1.modCmd x.ptr (fun y => { y with todo := todoTake y.todo n })).startAny c x n 0 0 ups

/-- A tile bound to cluster `c` runs there: a rerun, or a run on a substitute (R192). -/
def State.runForced (s : State) (c : Nat) (f : Forced) (ups : List (Nat × Nat × Nat)) : State :=
  let u := s.startClock c
  if !u.2 then u.1
  else
    let s := u.1.setSch { u.1.sch with forced := s.sch.forced.filter (fun g => !(g.q == f.q && g.tile == f.tile)) }
    match s.cmd? f.q with
    | some x => if x.stopped then s.settleCmd f.q else s.startAny c x f.tile f.stage f.inj ups
    | none => s

/-- TILE_DISPATCH: at a tile boundary of cluster `c` (R351): a rerun or substitute run bound to it, else the next tile of the ready
command with the lowest key, once the activity window lets the cluster's clock run (R532); `ups` gives the upsets of engine data in this run (the work
count from which each strikes, or the layer of a stripe; 0 for an engine's next result or 1 plus the row whose stored bits it strikes; and the bits
that turn over), and `ecc` names the addresses of words of the cluster's instruction cache in which two bits have gone bad (R181, R247). -/
def execTileDispatch (t c : Nat) (ups : List (Nat × Nat × Nat)) (ecc : List Nat) (s : State) : Host.Outcome State Fault Refusal :=
  let s := (s.at t).icSpoil c ecc
  .next (if !s.takesTiles c then s
  else match s.sch.forced.find? (fun f => f.cl == c) with
    | some f => s.runForced c f ups
    | none => s.dispatch (s.sch.cmds.length + 1) c ups)

/-! ### The end of a tile (R191-R194, R237, R238) -/

/-- Whether a segment of a batch command has a tile left: waiting, to dispatch, running or bound to a cluster. -/
def State.segBusy (s : State) (x : Cmd) (i : Nat) : Bool :=
  (x.wait ++ x.todo).any (fun r => (segTile i r).isSome) || s.sch.forced.any (fun f => f.q == x.ptr && tileSeg f.tile == i) ||
  (List.range 34).any (fun c => match s.tileOf c with
    | some t => t.q == x.ptr && tileSeg t.tile == i
    | none => false)

/-- A tile of a batch command has completed: what it leaves in the workspace opens further tiles, and the last one completes its segment (R313,
R318, R322). -/
def State.segTileDone (s : State) (q : Nat) (t : Tile) : State :=
  let i := tileSeg t.tile
  let s := (s.modCmd q (fun x => { x with ws := Store.put [] x.ws t.tile t.vals })).readyTiles q
  match s.cmd? q with
  | none => s
  | some x =>
    let st := nth 0 x.sts i
    if !toRun st ∨ s.segBusy x i then s
    else
      let st := if st = 0xFFFE then 0x0301 else 0
      let b := nth [] x.lays i
      let s := if x.isProj ∧ (s.seq (segSeq b)).state = 1 then projAfter x.layerNo s b else s
      (s.writeSegStatus x i st).modCmd q (fun y => { y with sts := y.sts.set i st })

/-- What follows the completion of a fused command's tile (R305, R318). -/
def State.fusedTileDone (s : State) (t : Tile) : State :=
  match s.cmd? t.q with
  | none => s
  | some x =>
    if x.par.headD 0 = 5 then s.releasePool x
    else if x.isBatch then s.segTileDone t.q t
    else s

/-- A tile completes (R191, R192): its stores are released, and it counts. -/
def State.completeTile (s : State) (c : Nat) (t : Tile) : State :=
  let s := ((s.dropTile c).release c t.buf).inc (bCLU c) CLU_CNT_TILES
  let s := if t.stage = 0 then s else s.retryOk c t
  (if t.fused then s.fusedTileDone t else s).settleCmd t.q

/-- TILE_END: every unit of cluster `c` is idle after `end` (R237): the cluster reads the mismatch flag, and the tile completes or is handled
under R192. -/
def execTileEnd (t c : Nat) (s : State) : Host.Outcome State Fault Refusal :=
  let s := s.at t
  .next (match s.tileOf c with
  | some x =>
    if !x.ended then s
    else if x.mism then s.tileMismatch c x false
    else s.completeTile c x
  | none => s)

/-- TILE_HUNG: the tile of cluster `c` has not completed 64 µs after it started (R238). -/
def execTileHung (t c : Nat) (s : State) : Host.Outcome State Fault Refusal :=
  let s := s.at t
  .next (match s.tileOf c with
  | some x => if x.since + 64000 ≤ s.now then s.tileMismatch c x true else s
  | none => s)

end Sys2Proof.Machine
end

