-- ==== Sys2Proof/Machine/Bus.lean ====
section
/-!
DEFINITION. Accesses to the register space: which register a write or a read reaches, and what the ones with a behaviour of their own do
(R10-R13, R171, R496, R591, R592, and the register sections).
-/

namespace Sys2Proof.Machine

/-- The state a command leaves. -/
def after (s : State) (o : Host.Outcome State Fault Refusal) : State :=
  match o with
  | .next t => t
  | _ => s

/-- Whether a register takes writes from management cores and the PCI Express host only (R525, R140). -/
def restricted (b off : Nat) : Bool :=
  (b == bPWR && (off == 0x100 || off == 0x108 || off == 0x10C || off == 0x110 || off == 0x128 || off == 0x12C)) ||
  (b == bCLM && decide (0x40000 ≤ off))

/-- A write of a ring's read index (R592). -/
def State.ringRead (s : State) (b : Nat) (wr rd : Fld) (v : Nat) : State :=
  if ringRdOk (s.rd b wr) (s.rd b rd) (v % 65536) then s.wr b rd v else s

/-! ### Writes with a behaviour of their own, by block: none where the write has none -/

/-- Writes of `PWR` (R505, R511, R514, R518). -/
def State.writePwr (s : State) (i off v : Nat) : Option State :=
  if off = 0x100 then some (after s (execPwrSleep s.now i v s))
  else if off = 0x128 then some (after s (execPwrRelease s.now i false v s))
  else if off = 0x12C then some (after s (execPwrRelease s.now i true v s))
  else if off = 0x130 then some (after s (execPwrMcCtrl s.now i v s))
  else if off = 0x140 then some (after s (execPwrDbell s.now i v s))
  else none

/-- Writes of `RST` (R72, R83, R89). -/
def State.writeRst (s : State) (i off v : Nat) : Option State :=
  if off = 0x10C then some (after s (execRstSwreset s.now i v s))
  else if off = 0x11C then some (s.swapCtrl i v)
  else if off = 0x120 then some (after s (execRstHostBoot s.now i v s))
  else none

/-- Writes of `CLK`: a new ceiling moves the target (R521), and a rail whose fault is cleared is asked again (R524). -/
def State.writeClk (s : State) (off v : Nat) : Option State :=
  let t := s.writeFields s.jobRun bCLK off v
  if 0x200 ≤ off ∧ off < 0x288 then some (t.retarget ((off - 0x200) / 4))
  else if 0x300 ≤ off ∧ off < 0x310 then
    let r := (off - 0x300) / 4
    some (if s.rd bCLK (CLK_RAIL_STAT_AVS_FAULT r) = t.rd bCLK (CLK_RAIL_STAT_AVS_FAULT r) then t
      else ((onRail r).foldl State.driveOp t).askRail r)
  else none

/-- A write of a generator's registers (R464, R466): its instants restart at the present one outside a job; generators 4 to 7 have no
`STB`. -/
def State.writeGen (s : State) (off v : Nat) : State :=
  let k := (off - 0x200) / 0x20
  let v := if (off - 0x200) % 0x20 = 0 ∧ 4 ≤ k ∧ bit v 1 = 1 then v - 2 else v
  let s := s.writeFields s.jobRun bTIM off v
  if s.jobRun then s else s.setFired k s.tb.time

/-- Writes of `TIM` (R455, R460, R462, R475): a fence blocks them all. -/
def State.writeTim (s : State) (i off v : Nat) : Option State :=
  if s.rd bTIM COM_FENCE_FENCE = 1 then some s
  else if off = 0x100 then some (after s (execTimIncNs s.now i v s))
  else if off = 0x12C then some (s.timCmd i v)
  else if off = 0x104 ∨ off = 0x120 ∨ off = 0x124 ∨ off = 0x130 then
    some (s.timGate i off (fun s => s.writeFields s.jobRun bTIM off v))
  else if off = 0x128 then
    some (s.timGate i off (fun s =>
      if 1000000000 ≤ v % 4294967296 then s.wr bTIM TIM_STAT_REFUSED 1 else s.writeFields s.jobRun bTIM off v))
  else if 0x200 ≤ off ∧ off < 0x300 then some (s.writeGen off v)
  else none

/-- Writes of `HLT` (R488, R494, R497, R501). -/
def State.writeHlt (s : State) (i off v : Nat) : Option State :=
  if off = 0x104 then some (s.hltReq i v)
  else if off = 0x30C then some (after s (execHltFbLoad s.now i v s))
  else if off = 0x418 then some (after s (execHltFwReqGo s.now i v s))
  else none

/-- Writes of `EVQ` (R588): ring address and size only while the queue is disabled. -/
def State.writeEvq (s : State) (off v : Nat) : Option State :=
  let q := (off - 0x100) / 0x20
  let r := (off - 0x100) % 0x20
  if off < 0x100 ∨ 4 ≤ q then none
  else if r = 0x10 then some (s.ringRead bEVQ (EVQ_Q_WR q) (EVQ_Q_RD q) v)
  else if s.rd bEVQ (EVQ_Q_CFG_QEN q) = 0 then none
  else if r = 0 ∨ r = 4 then some s
  else if r = 8 then some (s.writeFields s.jobRun bEVQ off v (fun f => f == EVQ_Q_CFG_SIZE_LOG2 q))
  else none

/-- Writes of a cache slice (R184): at most 12 ways. -/
def State.writeMem (s : State) (off v : Nat) : Option State :=
  if off = 0x100 ∧ 12 < popCount 16 v then some s else none

/-- Writes of `MEM4` (R197, R203). -/
def State.writeMem4 (s : State) (i off v : Nat) : Option State :=
  if off = 0x300 then some (s.logRelease (v % 256))
  else if off = 0x400 then some (s.injWrite i v)
  else none

/-- Writes of a completion queue's registers (R346, R592). -/
def State.writeCq (s : State) (c r off v : Nat) : Option State :=
  if r = 8 then
    some (if s.rd bSCH (SCH_CQ_WR c) = s.rd bSCH (SCH_CQ_RD c) then s.writeFields s.jobRun bSCH off v else s)
  else if r = 0x10 then
    let t := s.ringRead bSCH (SCH_CQ_WR c) (SCH_CQ_RD c) v
    let t := if t.cqIsFull c then t else t.wr bSCH (SCH_CQ_CFG_FULL c) 0
    some t.cqFlush.retireAll
  else none

/-- Writes of `SCH` (R340, R345, R346, R357, R361, R366). -/
def State.writeSch (s : State) (i off v : Nat) : Option State :=
  if 0x1000 ≤ off ∧ off < 0x1800 then
    let q := (off - 0x1000) / 0x20
    let r := (off - 0x1000) % 0x20
    if r = 8 then some (s.qCfgWrite q v)
    else if r = 0xC then some (s.doorbell q (bits v 0 16))
    else if (r = 0 ∨ r = 4) ∧ s.qState q ≠ fOFF then some s
    else none
  else if 0x1800 ≤ off ∧ off < 0x1A00 then s.writeCq ((off - 0x1800) / 0x20) ((off - 0x1800) % 0x20) off v
  else if off = 0x128 then some (s.ctxCmd v)
  else if 0x3000 ≤ off ∧ off < 0x3200 ∧ off % 8 = 0 then some (after s (execSchSrqWr s.now i ((off - 0x3000) / 8) v s))
  else none

/-- Writes of `KVC` (R333, R564): the swap registers keep while a sequence is swapped, and `DMA_CH` names no Ethernet channel. -/
def State.writeKvc (s : State) (off v : Nat) : Option State :=
  if 0x200 ≤ off ∧ off ≤ 0x208 then
    if s.kvc.seqs.any (fun e => e.2.state == 2) then some (s.wr bKVC KVC_SWAP_STAT_REFUSED 1)
    else if off = 0x208 ∧ 28 ≤ bits v 16 8 then
      let t := s.writeFields s.jobRun bKVC off v (fun f => f == KVC_SWAP_CFG_DMA_CH)
      some (if bits v 16 8 < 32 then t.wr bKVC KVC_SWAP_STAT_REFUSED 1 else t)
    else none
  else none

/-- Writes of `LNK` (R393, R399, R412). -/
def State.writeLnk (s : State) (i off v : Nat) : Option State :=
  if off = 0x104 then some (after s (execLnkAssign s.now i v s))
  else if off = 0x14C then some (after s (execLnkEpochGo s.now i v s))
  else if off = 0x160 then some (after s (execLnkSsnapGo s.now i v s))
  else if off = 0x1E0 then some (after s (execLnkResetreq s.now i v s))
  else none

/-- Writes of `TAN` (R156, R159, R165, R168, R169): ring, arena and text queue only in OFF. -/
def State.writeTan (s : State) (i off v : Nat) : Option State :=
  if off = 0x314 then some (after s (execTanRingRel s.now i v s))
  else if off = 0x404 then some (after s (execTanArtDb s.now i v s))
  else if off = 0x408 then some (s.wr bTAN TAN_ART_DB_HI v)
  else if off = 0x580 then some (after s (execTanDictLoad s.now i v s))
  else if off = 0x60C then some (after s (execTanTxtqWr s.now i v s))
  else if [0x300, 0x304, 0x308, 0x320, 0x324, 0x328, 0x600, 0x604, 0x608].contains off ∧ s.fsm bTAN ≠ fOFF then some s
  else none

/-- Writes of `CLM` (R139-R141): weights are positive and finite. -/
def State.writeClm (s : State) (off v : Nat) : Option State :=
  if off = 0x508 then some (s.tloadWrite v)
  else if (off = 0x100 ∨ off = 0x104 ∨ off = 0x108) ∧ (v = 0 ∨ 0x7F7FFFFF < v) then some s
  else if 0x40000 ≤ off ∧ off < 0xD0000 then some (s.tabWrite ((off - 0x40000) / 0x10000) ((off - 0x40000) % 0x10000) v)
  else none

/-- Writes of a camera port (R132): the serial line of the parallel port. -/
def State.writeCam (s : State) (i b off v : Nat) : Option State :=
  if b = bPCAM ∧ off = 0x124 then some (after s (execPcamSerdataWrite s.now i v s)) else none

/-- Writes of an ejection unit (R438, R592): its record ring is set up only in OFF. -/
def State.writeEjt (s : State) (i p off v : Nat) : Option State :=
  if off = 0x188 then some (after s (execEjtXopen s.now i p v s))
  else if off = 0x18C then some (after s (execEjtCommit s.now i p v s))
  else if off = 0x190 then some (after s (execEjtFire s.now i p v s))
  else if (off = 0x1A0 ∨ off = 0x1A4 ∨ off = 0x1A8) ∧ s.fsm (bEJT p) ≠ fOFF then some s
  else if off = 0x1B0 then some (s.ringRead (bEJT p) EJT_REC_WR EJT_REC_RD v)
  else none

/-- Writes of a DMA channel (R564, R579-R581, R592): its completion ring is set up only in OFF. -/
def State.writeDma (s : State) (i n off v : Nat) : Option State :=
  let b := bDMA n
  if off = 0x104 then
    let t := s.writeFields s.jobRun b off v (fun f => f == DMA_STAT_HALTED)
    some (if bit v 1 = 1 then after t (execHaltedClear t.now i n t) else t)
  else if off = 0x108 then some (after s (execDmaHeadLo s.now i n v s))
  else if off = 0x10C ∧ s.dmaRefuses i n then some (s.wr b DMA_STAT_REFUSED 1)
  else if off = 0x110 then some (after s (execDmaKick s.now i n v s))
  else if (off = 0x120 ∨ off = 0x124 ∨ off = 0x128) ∧ s.fsm b ≠ fOFF then some s
  else if off = 0x130 then some ((s.ringRead b DMA_CQ_WR DMA_CQ_RD v).dmaFlush n)
  else none

/-- The write with a behaviour of its own that a register takes, if it has one. -/
def State.specialWrite (s : State) (i b off v : Nat) : Option State :=
  if b = bPWR then s.writePwr i off v
  else if b = bRST then s.writeRst i off v
  else if b = bCLK then s.writeClk off v
  else if b = bTIM then s.writeTim i off v
  else if b = bHLT then s.writeHlt i off v
  else if b = bEVQ then s.writeEvq off v
  else if isSlice b then s.writeMem off v
  else if b = bMEM4 then s.writeMem4 i off v
  else if b = bSCH then s.writeSch i off v
  else if b = bKVC then s.writeKvc off v
  else if b = bLNK then s.writeLnk i off v
  else if b = 0x14 ∨ b = 0x15 then (if off = 0x100 ∧ s.fsm b ≠ fOFF then some s else none)
  else if b = bTAN then s.writeTan i off v
  else if b = bCLM then s.writeClm off v
  else if isCam b then s.writeCam i b off v
  else if b = bFIO then some (s.writeFields s.jobRun b off v).refreshFio
  else if b = 0x1C ∨ b = 0x1D then (if (off = 0x100 ∨ off = 0x104) ∧ s.fsm b ≠ fOFF then some s else none)
  else if b = 0x1E ∨ b = 0x1F then s.writeEjt i (b - 0x1E) off v
  else if isDma b then s.writeDma i (b - 0x80) off v
  else if isSds b then (if off = 0x104 then some (s.sdsTestBy i (b - 0xC0) v) else none)
  else none

/-! ### Reads with a behaviour of their own -/

/-- A byte-packed word of a list. -/
def wordAt (l : List Nat) (o : Nat) : Nat := leNat ((l.drop o).take 4)

/-- The words of a sequence record (R310). -/
def seqBytes (x : KvSeq) : List Nat :=
  [x.state, x.pool, x.layers, x.pages] ++ leBytes 4 x.part ++ leBytes 8 x.deadline ++ [x.port, x.ctx] ++ leBytes 2 x.endStatus ++
  leBytes 4 x.crc ++ List.replicate 8 0 ++ (List.range 32).flatMap (fun l => leBytes 2 (Store.get 0 x.lens l)) ++ List.replicate 32 0

/-- The bytes of a page descriptor (R308). -/
def pageBytes (g : KvPage) : List Nat := leBytes 2 g.refs ++ leBytes 2 g.inflight ++ leBytes 2 g.fill ++ [g.state, g.pool]

/-- A read of the key-value cache unit's windows (R336). -/
def State.kvcWindow (s : State) (off : Nat) : Nat :=
  if 0x80000 ≤ off then wordAt (pageBytes (s.page ((off - 0x80000) / 8))) (off % 8)
  else if 0x40000 ≤ off then
    let x := s.seq ((off - 0x40000) / 0x100)
    let e := off % 0x100 / 2
    Store.get 0xFFFF x.list e % 65536 + Store.get 0xFFFF x.list (e + 1) % 65536 * 65536
  else wordAt (seqBytes (s.seq ((off - 0x10000) / 0x80))) (off % 0x80)

/-- The active pool's base and free pages, the windows. -/
def State.readKvc (s : State) (off : Nat) : Option Nat :=
  if 0x10000 ≤ off then some (s.kvcWindow off)
  else if 0x100 ≤ off ∧ off < 0x180 ∧ off % 0x20 = 0x10 then some (s.freePages ((off - 0x100) / 0x20)).length
  else none

/-- The device identifier of the grade (R556). -/
def State.pcieDevice (s : State) : Nat :=
  if s.gradeActive = 32 then 0x4832 else if s.gradeActive = 24 then 0x4824 else 0x4816

/-- Reads of `TIM` (R456, R468, R471). -/
def State.readTim (s : State) (i off : Nat) : Option (State × Nat) :=
  if off = 0x110 then
    let t := after s (execTimNowNs s.now i s)
    some (t, nth 0 t.resp.data 0)
  else if off = 0x114 ∨ off = 0x118 ∨ off = 0x11C then some (s, s.latchedWord i off)
  else if 0x300 ≤ off ∧ off < 0x380 ∧ off % 0x20 ≠ 0 then
    let c := (off - 0x300) / 0x20
    let w := (off % 0x20 - 4) / 4
    if 2 < w then none
    else some (if w = 2 then after s (execTimCapRecRead s.now i c s) else s, nth 0 (capWords (Store.get [] s.tb.caps c)) w)
  else if 0x400 ≤ off ∧ off < 0x480 ∧ 0x10 ≤ off % 0x40 ∧ off % 0x40 < 0x30 then
    let p := (off - 0x400) / 0x40
    let rx := decide (0x20 ≤ off % 0x40)
    let w := off % 0x10 / 4
    some (if w = 3 then after s (execTimPtpRecRead s.now i p rx s) else s, nth 0 (ptpWords (s.ptpFifo p rx)) w)
  else none

/-- A word of rule `k` as the rule window shows it (R497, R502). -/
def State.ruleWord (s : State) (k j : Nat) : Nat :=
  let r := s.fwRule k
  let m := nth 0 r 2 + nth 0 r 3 * 256 + nth 0 r 4 % 256 * 65536
  if j = 0 then nth 0 r 0 % 4294967296 else if j = 1 then nth 0 r 0 / 4294967296 else if j = 2 then nth 0 r 1 else m

/-- The reads whose word is not what the fields hold. -/
def State.specialRead (s : State) (i b off : Nat) : Option (State × Nat) :=
  let w (n : Nat) : Option (State × Nat) := some (s, n)
  if b = bTIM then s.readTim i off
  else if b = bHLT then
    (if 0x1000 ≤ off ∧ off < 0x1400 then w (s.ruleWord ((off - 0x1000) / 16) (off % 16 / 4)) else none)
  else if b = bSCH then
    (if 0x1000 ≤ off ∧ off < 0x1800 ∧ off % 0x20 = 8 then
      let t := s.settleStart ((off - 0x1000) / 0x20)
      some (t, t.regWord b off)
    else none)
  else if b = bCLK then
    (if 0x100 ≤ off ∧ off < 0x120 then
      w (opMhz ((off - 0x100) / 4) * 65536 + (Config.opMv ((off - 0x100) / 4)).toNat)
    else if 0x300 ≤ off ∧ off < 0x310 then
      w (s.regWord b off / 65536 * 65536 + (Config.opMv (s.rail ((off - 0x300) / 4)).ack).toNat)
    else none)
  else if b = bMEM4 then
    (if off = 0x300 then w s.logRdWord
    else if 0x4000 ≤ off ∧ off < 0x6000 then w (s.logWord (off - 0x4000)) else none)
  else if b = bKVC then (s.readKvc off).map (fun n => (s, n))
  else if b = bLNK then
    (if off = 0x118 then w Config.linkVersion.toNat
    else if 0x1C0 ≤ off ∧ off < 0x1E0 then w (wordAt s.contract (off - 0x1C0)) else none)
  else if b = bPCIE then
    (if off = 0x108 then w (s.pcieDevice * 65536 + Config.pcieVendor.toNat) else none)
  else if b = bCLM then
    (if 0x40000 ≤ off ∧ off < 0xD0000 then w (s.tabRead ((off - 0x40000) / 0x10000) ((off - 0x40000) % 0x10000)) else none)
  else if b = bPCAM then
    (if off = 0x124 then
      let t := after s (execPcamSerdataRead s.now i s)
      some (t, nth 0 t.resp.data 0)
    else none)
  else if b = bFIO then
    (if 0x1C0 ≤ off ∧ off < 0x200 ∧ off % 0x20 < 0x1C then
      let k := (off - 0x1C0) / 0x20
      let j := off % 0x20 / 4
      some (if j = 6 then after s (execFioPrbRecRead s.now i k s) else s, nth 0 (prbWords (Store.get [] s.field.prb k)) j)
    else none)
  else if b = 0x1C ∨ b = 0x1D then
    (if off = 0x120 then
      let t := after s (execStpPosLoRead s.now i (b - 0x1C) s)
      some (t, nth 0 t.resp.data 0)
    else if off = 0x128 then w (toCode 32 (s.speed (b - 0x1C)))
    else none)
  else if isDma b then
    (if off = 0x104 then
      w (s.regWord b off + (if s.dmaOwned (b - 0x80) ∧ s.rd b DMA_STAT_OWNED = 0 then 16 else 0)) else none)
  else none

/-! ### Accesses -/

/-- The address of a register. -/
def regAt (b off : Nat) : Nat := regBase + b * 0x100000 + off

/-- A write whose register has power. -/
def State.writeReg (s : State) (i b off v : Nat) : State :=
  if off < 0x14 then s.commonWrite b off v
  else match s.specialWrite i b off v with
    | some t => t
    | none => s.writeFields s.jobRun b off v

/-- A read whose register has power. -/
def State.readReg (s : State) (i b off : Nat) : State :=
  let r := (s.specialRead i b off).getD (s, s.regWord b off)
  r.1.answer 0 [r.2 % 4294967296]

/-- Whether an address of the register space is a word of a block. -/
def regMapped (a : Nat) : Bool :=
  decide (regBase ≤ a) && decide (a < regBase + 0x10000000) && a % 4 == 0 && blkExists ((a - regBase) / 0x100000)

/-- A write `v` of the register at `a` by initiator `i`, or a read of it (R13, R171, R496, R514): an access to a register without power wakes
a module in S1 or S2 and is held until it is in S0. -/
def State.busAccess (s : State) (i a : Nat) (data : Option Nat) : State :=
  let b := (a - regBase) / 0x100000
  let off := a % 0x100000
  if !regMapped a then s.answer 0x0201 []
  else if !s.regAllowed i data.isSome b off || (data.isSome && restricted b off && !s.mgmtOrHost i) then s.deny i data.isSome a
  else
    let s := s.answer 0 []
    let s := if 0x14 ≤ off ∧ !s.domOn b then s.wake 6 else s
    if 0x14 ≤ off ∧ !s.domOn b then
      (if s.pwr.exit.isSome then s.setPwr { s.pwr with accs := s.pwr.accs ++ [(i, a, data)] }
      else if data.isNone then s.answer 0 [0] else s)
    else match data with
      | some v => s.writeReg i b off (v % 4294967296)
      | none => s.readReg i b off

/-- A write of a register. -/
def State.busWrite (s : State) (i a v : Nat) : State := s.busAccess i a (some v)

/-- A read of a register. -/
def State.busRead (s : State) (i a : Nat) : State := s.busAccess i a none

/-! ### The commands -/

/-- REGISTER_WRITE: a write `v` of the register at `addr` by initiator `i` (R10, R591). -/
def execRegisterWrite (t i addr v : Nat) (s : State) : Host.Outcome State Fault Refusal := .next ((s.at t).busWrite i addr v)

/-- RING_READ_INDEX: a write `v` of the read index at `addr` by initiator `i` (R592). -/
def execRingReadIndex (t i addr v : Nat) (s : State) : Host.Outcome State Fault Refusal := .next ((s.at t).busWrite i addr v)

/-- ENABLE: a write `v` of the control word of block `b` by initiator `i` (R14). -/
def execEnable (t i b v : Nat) (s : State) : Host.Outcome State Fault Refusal := .next ((s.at t).busWrite i (regAt b 4) v)

/-- FENCE: a write `v` of the fence register of block `b` by initiator `i` (R15, R93). -/
def execFence (t i b v : Nat) (s : State) : Host.Outcome State Fault Refusal := .next ((s.at t).busWrite i (regAt b 8) v)

/-- RESET: a write `v` of the reset register of block `b` by initiator `i` (R16, R93, R94). -/
def execReset (t i b v : Nat) (s : State) : Host.Outcome State Fault Refusal := .next ((s.at t).busWrite i (regAt b 0xC) v)

/-- SNAP: a write `v` of the snapshot register of block `b` by initiator `i` (R18). -/
def execSnap (t i b v : Nat) (s : State) : Host.Outcome State Fault Refusal := .next ((s.at t).busWrite i (regAt b 0x10) v)

/-- The exit is over: the accesses held are done in order (R514). -/
def State.exitEnd (s : State) (src : Nat) : State :=
  let t := s.exitDone src
  t.pwr.accs.foldl (fun t e => t.busAccess e.1 e.2.1 e.2.2) (t.setPwr { t.pwr with accs := [] })

/-- EXIT_STEP_READY: the ready signal of an exit's present step has arrived (R516); the last step of an exit from S4 has none while the
Halter image does not pass its checks (R8, R81). -/
def execExitStepReady (t : Nat) (s : State) : Host.Outcome State Fault Refusal :=
  let s := s.at t
  .next (match s.pwr.exit with
  | none => s
  | some x =>
    if x.stopped then s
    else if x.step < 4 then
      (s.setPwr { s.pwr with exit := some { src := x.src, step := x.step + 1, since := s.now } }).wr bPWR PWR_STAT_STEP (x.step + 1)
    else if x.src = 4 ∧ !s.halterSound then s
    else s.exitEnd x.src)

end Sys2Proof.Machine
end

