-- ==== Sys2Proof/Machine/Factory.lean ====
section
/-!
DEFINITION. The factory program (R34, R35, R95-R106).
-/

namespace Sys2Proof.Machine

/-- Replace the factory program's state. -/
def State.setFac (s : State) (f : Factory) : State := s.setSys { s.sys with factory := f }

/-- A report on the console. -/
def State.say (s : State) (vs : List Int) : State := s.send (.console vs)

/-- Teach-in fails with a cause: 1 an unpaired edge, 2 a deviating measurement, 3 a reversal (R101). -/
def State.teachFail (s : State) (cause : Nat) : State :=
  (s.setFac { s.sys.factory with teach := none, teachFail := cause }).say [1, cause]

/-- Teach-in starts (R99). -/
def State.teachStart (s : State) : State := s.setFac { s.sys.factory with teach := some ([], []), teachFail := 0 }

/-! ### The encoder (R96, R97) -/

/-- While the factory program listens for an encoder, the run of counts in one direction grows or starts over (R96). -/
def State.listenCount (s : State) (d : Int) : State :=
  let f := s.sys.factory
  if f.enc ≠ 0 ∨ f.listenAt + 2000000000 < s.now then s
  else
    let run := if decide (d < 0) = decide (f.run < 0) then f.run + d else d
    s.setFac { f with run := run, run16 := f.run16 || decide (16 ≤ run.natAbs) }

/-- The direction of the first motion becomes forward (R97): a port that counted down is inverted. -/
def State.makeForward (s : State) (d : Int) : State :=
  if 0 < d then s
  else
    let x := s.stpP 0
    ((s.wr (bSTP 0) STP_MODE_INVERT (1 - s.rd (bSTP 0) STP_MODE_INVERT)).setStp 0
      { x with count := -x.count, back := false, total := -x.total, run := x.run.map (fun e => (e.1, -e.2)), vNum := -x.vNum }).wr
      (bSTP 0) STP_STAT_DIR 0

/-- What the factory program does with a motion that has just been taken: the first sets the forward direction and, on a port that is
not taught, starts teach-in; a reversal during teach-in fails it (R97, R99, R101). -/
def State.factoryEdge (s0 s : State) : State :=
  let d := (s.stpP 0).total - (s0.stpP 0).total
  if !s.sys.factory.on ∨ d = 0 then s
  else
    let s := s.listenCount d
    let f := s.sys.factory
    if !f.dirSet then
      let s := s.makeForward d
      let s := s.setFac { s.sys.factory with dirSet := true }
      if f.dist.isNone then s.teachStart else s
    else if f.teach.isSome ∧ (decide (d < 0) ≠ (s0.stpP 0).back) ∧ (s0.stpP 0).lastEdge.isSome then s.teachFail 3
    else s

/-- ENCODER_EDGE: a quadrature transition of port `p` to the levels `a` and `b`, first sampled at `t` and seen in `held` consecutive samples
(R414-R416, R514), with what the factory program does on port 0. -/
def execEncoderEdge (t p : Nat) (a b : Bool) (held : Nat) (s : State) : Host.Outcome State Fault Refusal :=
  let s1 := doEncoderEdge t p a b held s
  .next (if p = 0 then State.factoryEdge s s1 else s1)

/-- SSI_READ_DONE: a read of port `p` ends with its start bit, its word and whether the data line returned to 1 within 100 µs (R420-R422),
with what the factory program does on port 0. -/
def execSsiReadDone (t p startBit word : Nat) (idleOk : Bool) (s : State) : Host.Outcome State Fault Refusal :=
  let s1 := doSsiReadDone t p startBit word idleOk s
  .next (if p = 0 then State.factoryEdge s s1 else s1)

/-- The encoder is SSI (R96): words of 25 bits, Gray-coded, at 500 kHz. -/
def State.takeSsi (s : State) : State :=
  let b := bSTP 0
  let s := (s.setFac { s.sys.factory with enc := 2 }).wr b STP_MODE_MODE 1
  ((s.wr b STP_SSI_BITS 25).wr b STP_SSI_CODE 1).wr b STP_SSI_CLKSEL 2

/-- ENCODER_TYPE_TEST: the listening of 2 s ends (R96).  A run of 16 counts makes the encoder incremental; else a burst of 26 cycles at
100 kHz leaves on the `_A` pair, and `low` says whether the `_B` pair went low after its first clock, `highNs` when it went high again after
the last; with neither, both tests begin again. -/
def execEncoderTypeTest (t : Nat) (low : Bool) (highNs : Nat) (s : State) : Host.Outcome State Fault Refusal :=
  let s := s.at t
  let f := s.sys.factory
  .next (if f.on ∧ f.enc = 0 ∧ f.listenAt + 2000000000 ≤ s.now then
    if f.run16 then s.setFac { f with enc := 1 }
    else
      let s := s.send (.ssiBurst 0 26 100000)
      if low ∧ 15000 ≤ highNs ∧ highNs ≤ 60000 then s.takeSsi
      else s.setFac { f with listenAt := s.now, run := 0 }
  else s)

/-! ### Teach-in (R99-R102) -/

/-- Whether `DI0` has been high for 3 s (R99). -/
def State.di0Held (s : State) : Bool :=
  bit (s.rd bFIO FIO_DI) 0 == 1 && decide (Store.get 0 s.field.diRise 0 + 3000000000 ≤ s.now + 1)

/-- TEACH_IN: teach-in starts because `DI0` has been high for 3 s, or at the first motion of a port that is not taught (R99). -/
def execTeachIn (t : Nat) (s : State) : Host.Outcome State Fault Refusal :=
  let s := s.at t
  let f := s.sys.factory
  .next (if f.on ∧ f.teach.isNone ∧ (s.di0Held ∨ (f.dist.isNone ∧ f.teachFail = 0 ∧ (s.stpP 0).lastEdge.isSome)) then
    s.teachStart else s)

/-- TEACH: the console command (R99, R106). -/
def execTeach (t : Nat) (s : State) : Host.Outcome State Fault Refusal :=
  let s := s.at t
  .next (if s.sys.factory.on then s.teachStart else s)

/-- The bytes of the identity record's entry for Stirrup port 0 (R57, R102): the distance, counts per metre 0, the valve delay, the
seconds of the time base and status 1. -/
def distEntry (d : Int) (valve sec : Nat) : List Nat :=
  leBytes 4 (toCode 32 d) ++ leBytes 4 0 ++ leBytes 4 valve ++ leBytes 8 sec ++ [1, 0, 0, 0]

/-- Sum of a list of integers. -/
def sumI (l : List Int) : Int := l.foldl (· + ·) 0

/-- The slot of a code (R103, R438): opened explicitly at C + D, and committed with the code's verdict. -/
def State.factorySlot (s : State) (d : Int) (e : Int × Bool) : State :=
  let tgt := toCode 64 ((e.1 + d) * 256)
  let s := (s.wr64 (bEJT 0) EJT_XTGT_LO EJT_XTGT_HI tgt).xopenGo 0
  if s.rd (bEJT 0) EJT_XOPEN_XSTATUS = 0 then
    s.slotCommit 0 (s.rd (bEJT 0) EJT_XOPEN_XSLOT) { verdict := if e.2 then 0 else 1 }
  else s

/-- Teach-in succeeds with a distance (R102): it is stored with the valve delay, and the codes not yet paired get their slots (R103). -/
def State.teachDone (s : State) (codes : List (Int × Bool)) (d : Int) : State :=
  let f := s.sys.factory
  let s := s.setFac { f with teach := none, dist := some d, teachFail := 0, valveSet := false }
  let s := (s.idEvent [(0x150, distEntry d f.valveUs s.tbSec)]).say [2, d]
  codes.foldl (fun s e => s.factorySlot d e) s

/-- Teach-in has its next measurement, with the codes not yet paired and all measurements so far (R100-R102): the last 16 end it when
their spread is at most 1 % of their mean.  DESIGN CHOICE (entry 113): a mean half-way between two counts goes to the even one. -/
def State.teachMeasure (s : State) (codes : List (Int × Bool)) (ms : List Int) : State :=
  let f := s.sys.factory
  let first := ms.headD 0
  let m := ms.getLast?.getD 0
  if first.natAbs < 100 * (m - first).natAbs then s.teachFail 2
  else
    let last := ms.drop (ms.length - 16)
    let spread := maxOr0 last - minOr0 last
    if ms.length < 16 ∨ (sumI last).natAbs < 1600 * spread.natAbs then s.setFac { f with teach := some (codes, ms) }
    else s.teachDone codes (divRneI (sumI last) 16)

/-- TEACH_IN_EDGE: a rising edge on `PRB1` during teach-in (R100-R102). -/
def execTeachInEdge (t : Nat) (s : State) : Host.Outcome State Fault Refusal :=
  let s := s.at t
  .next (match s.sys.factory.on, s.sys.factory.teach with
  | true, some (codes, ms) =>
    (match codes with
    | c :: r => s.teachMeasure r (ms ++ [(s.stpP 0).count - c.1])
    | [] => s.teachFail 1)
  | _, _ => s)

/-! ### Running (R103-R106) -/

/-- CODE_VERDICT: the code whose centre lies on the camera line at count `c` has been read and graded: `grade` 0 to 4 for A to F (R98,
R100, R103).  DESIGN CHOICE (entry 113): while a teach-in runs, a code waits for its pair, no slot opens and nothing fires, also where an
earlier distance is kept; with no distance it is read and graded alone (R101). -/
def execCodeVerdict (t : Nat) (c : Int) (decodes : Bool) (grade : Nat) (s : State) : Host.Outcome State Fault Refusal :=
  let s := s.at t
  let f := s.sys.factory
  let pass := decodes && decide (grade ≤ 2)
  .next (if !f.on then s
  else
    let f1 := if pass then { f with good := f.good + 1 } else { f with bad := f.bad + 1 }
    match f.teach, f.dist with
    | some (codes, ms), _ => s.setFac { f1 with teach := some (codes ++ [(c, pass)], ms), codes := f1.codes ++ [c] }
    | none, some d => (s.setFac { f1 with codes := f1.codes ++ [c] }).factorySlot d (c, pass)
    | none, none => s.setFac f1)

/-- Whether a photo-eye count lies within C + D ± 1 % of D of a code position (R104). -/
def nearCode (d p c : Int) : Bool := decide (100 * (p - (c + d)).natAbs ≤ d.natAbs)

/-- UNMATCHED_PROBE_EDGE: a rising edge on `PRB1` at a count with no code position within C + D ± 1 % of D fires `DO0` at once, as a write
of `EJT0_FIRE` does (R104, R105, R438); code positions that no later edge can match are dropped. -/
def execUnmatchedProbeEdge (t : Nat) (s : State) : Host.Outcome State Fault Refusal :=
  let s := s.at t
  let f := s.sys.factory
  let p := (s.stpP 0).count
  .next (match f.on, f.teach, f.dist with
  | true, none, some d =>
    let live := f.codes.filter (fun c => decide (100 * (p - (c + d)) ≤ d.natAbs))
    if live.any (nearCode d p) then s.setFac { f with codes := live }
    else (s.setFac { f with codes := live, unmatched := f.unmatched + 1 }).fireNow 0 1
  | _, _, _ => s)

/-- STATUS: the console reports camera, encoder, taught distance, valve delay and counters (R106). -/
def execStatus (t : Nat) (s : State) : Host.Outcome State Fault Refusal :=
  let s := s.at t
  let f := s.sys.factory
  .next (if f.on then
    s.say [0, s.rd (bCAM 0) CAM_LINK_LINK_UP, f.enc, (if f.dist.isSome then 1 else 0), f.dist.getD 0, f.valveUs, f.good, f.bad, f.unmatched]
  else s)

/-- VALVE: the console sets the valve delay, from 0 to 100,000 µs; it is the lead of R24 (R103, R106). -/
def execValve (t n : Nat) (s : State) : Host.Outcome State Fault Refusal :=
  let s := s.at t
  .next (if s.sys.factory.on ∧ n ≤ 100000 then
    (s.setFac { s.sys.factory with valveUs := n, valveSet := true }).facSet (EJT_CLS_DELAY 1) n
  else s)

end Sys2Proof.Machine
end

