-- ==== Sys2Proof/Machine/Generator.lean ====
section
/-!
DEFINITION. The time base's trigger generators (R465-R467).
-/

namespace Sys2Proof.Machine

/-- Raise `TIM_GEN` for generator `k`, stamped with the instant (R466). -/
def State.genEvent (s : State) (k x : Nat) : State :=
  ((s.setTb { s.tb with time := x }).raise 0x0704 bTIM k).setTb s.tb

/-- GENERATOR_INSTANT: the time base has reached the next instant of generator `k` (R464-R466): it is skipped and counted when a
step carried past it, else it acts on its targets. -/
def execGeneratorInstant (t k : Nat) (s : State) : Host.Outcome State Fault Refusal :=
  let s := s.at t
  .next (if k < 8 then
    match s.genDue k with
    | some x =>
      let s := s.setFired k x
      if s.steppedOver x then s.inc bTIM TIM_CNT_TRIG_SKIP
      else
        let s := if k < 4 ∧ s.act bTIM (TIM_GEN_CFG_STB k) = 1 then s.strobe k 2 else s
        let s := if s.act bTIM (TIM_GEN_CFG_TAN k) = 1 then s.forceCommits else s
        if s.act bTIM (TIM_GEN_CFG_EVT k) = 1 then s.genEvent k x else s
    | none => s
  else s)

end Sys2Proof.Machine
end

