-- ==== Sys2Proof/Machine/HostPort.lean ====
section
/-!
DEFINITION. The PCI Express endpoint's requests: configuration space and BARs (R84, R188, R556-R559).  A completion with Unsupported Request
or Completer Abort answers with a status of the model's own, above every status code of the spec.
-/

namespace Sys2Proof.Machine

/-- The initiator of the PCI Express host (R558). -/
def iHOST : Nat := 5

/-- The answer Unsupported Request. -/
def stUR : Nat := 0x10001

/-- The answer Completer Abort. -/
def stCA : Nat := 0x10002

/-- Replace the endpoint's inside. -/
def State.setPcie (s : State) (x : Pcie) : State := { s with pcie := x }

/-- Complete a request with Unsupported Request. -/
def State.hostUR (s : State) : State := (s.inc bPCIE PCIE_CNT_UR).answer stUR []

/-- Complete a request with Completer Abort. -/
def State.hostCA (s : State) : State := (s.inc bPCIE PCIE_CNT_CA).answer stCA []

/-- A host request reaches the endpoint while the link is up; a fenced one answers Completer Abort (R559). -/
def State.hostGate (s : State) (k : State → State) : State :=
  if !s.pcieLive || s.rd bPCIE PCIE_STAT_LINK_UP != 1 then s
  else if s.rd bPCIE COM_FENCE_FENCE = 1 then s.hostCA
  else k s

/-! ### Configuration space (R84, R556, R557) -/

/-- The writable bits of the BAR registers: 256 MiB, 64 GiB and 64 KiB, each of 64 bits. -/
def barMask (off : Nat) : Nat :=
  if off = 0x10 then 0xF0000000 else if off = 0x14 then 0xFFFFFFFF
  else if off = 0x18 then 0 else if off = 0x1C then 0xFFFFFFF0
  else if off = 0x20 then 0xFFFF0000 else 0xFFFFFFFF

/-- The fixed low bits of the BAR registers: 64-bit, BAR2 prefetchable. -/
def barType (off : Nat) : Nat := if off = 0x10 ∨ off = 0x20 then 4 else if off = 0x18 then 0xC else 0

/-- What a configuration register reads. -/
def State.cfgRead (s : State) (off : Nat) : Nat :=
  let last := Store.get 0 s.pcie.cfg (off / 4)
  if off = 0 then s.pcieDevice * 65536 + Config.pcieVendor.toNat
  else if off = 8 then 0x120000 * 256 + (Config.pcieCfg off last).toNat % 256
  else if 0x10 ≤ off ∧ off < 0x28 then (last - 1).land (barMask off) + barType off
  else (Config.pcieCfg off last).toNat

/-- PCIE_CONFIG_REQUEST: a configuration write of `v`, or a read, at `off` (R84). -/
def execPcieConfigRequest (t : Nat) (wr : Bool) (off v : Nat) (s : State) : Host.Outcome State Fault Refusal :=
  .next ((s.at t).hostGate (fun s =>
    if 4096 ≤ off ∨ off % 4 ≠ 0 then s.hostUR
    else if wr then (s.setPcie { s.pcie with cfg := Store.put 0 s.pcie.cfg (off / 4) (v % 4294967296 + 1) }).answer 0 []
    else s.answer 0 [s.cfgRead off]))

/-! ### BARs (R557, R558) -/

/-- PCIE_BAR0_REQUEST: a request of `len` bytes at `off` of BAR0 (R83, R558). -/
def execPcieBar0Request (t : Nat) (wr : Bool) (off len v : Nat) (s : State) : Host.Outcome State Fault Refusal :=
  .next ((s.at t).hostGate (fun s =>
    if len ≠ 4 ∨ off % 4 ≠ 0 ∨ 0x10000000 ≤ off ∨ (s.rd bRST RST_BOOT_STATUS_STAGE = 6 ∧ off / 0x100000 ≠ bRST) then s.hostUR
    else
      let r := if wr then s.busWrite iHOST (regBase + off) v else s.busRead iHOST (regBase + off)
      if r.resp.status = 0x0201 then r.hostCA else r))

/-- PCIE_BAR2_REQUEST: a request at `off` of BAR2: a write of `data`, or a read of `len` bytes (R188, R558). -/
def execPcieBar2Request (t : Nat) (wr : Bool) (off len : Nat) (data : List Nat) (poisoned : Bool) (s : State) :
    Host.Outcome State Fault Refusal :=
  let data := data.map (· % 256)
  let n := if wr then data.length else len
  .next ((s.at t).hostGate (fun s =>
    if n = 0 ∨ dramEnd < off + n then s.hostUR
    else if wr then
      let s := if poisoned then s.inc bPCIE PCIE_CNT_POISON_RX else s
      let r := if poisoned then s.hwWritePoison iHOST off data else s.hwWrite iHOST off data
      if r.2 ≠ 0 then r.1.hostCA else r.1.answer 0 []
    else
      let r := s.hwRead iHOST off n
      if r.2.1 = 0x0201 then r.1.hostCA
      else { r.1 with resp := { status := 0, data := r.2.2, poisoned := r.2.1 == 0x0304 } }))

/-- The word that an MSI-X table entry resets to: its vector control masks it. -/
def msixReset (k : Nat) : Nat := if k % 4 = 3 then 1 else 0

/-- PCIE_BAR4_REQUEST: a write of `v`, or a read, of the word at `off` of BAR4: the MSI-X table of 32 vectors, or the pending-bit array at
0x8000 (R556, R557). -/
def execPcieBar4Request (t : Nat) (wr : Bool) (off v : Nat) (s : State) : Host.Outcome State Fault Refusal :=
  .next ((s.at t).hostGate (fun s =>
    if off % 4 ≠ 0 ∨ 0x10000 ≤ off then s.hostUR
    else
      let k := off / 4
      if wr then
        (if k < 128 then (s.setPcie { s.pcie with msix := Store.put 0 s.pcie.msix k (v % 4294967296 + 1) }).answer 0 [] else s.answer 0 [])
      else
        let x := Store.get 0 s.pcie.msix k
        s.answer 0 [if k < 128 then (if x = 0 then msixReset k else x - 1) else 0]))

end Sys2Proof.Machine
end

