-- ==== Sys2Proof/Machine/Sideband.lean ====
section
/-!
DEFINITION. The field supply (R52, R447) and the PMBus sideband (R53, R54).
-/

namespace Sys2Proof.Machine

/-- V24F_LOW: `V24F` falls below its lower level: every output off, and pulses end (R52, R447). -/
def execV24fLow (t : Nat) (s : State) : Host.Outcome State Fault Refusal :=
  let s := s.at t
  .next (if s.rd bFIO FIO_STAT_UV = 1 ∨ !s.domOn bFIO then s
  else
    let s := s.setField { s.field with pulses := [] }
    ((s.wr bFIO FIO_STAT_UV 1).inc bFIO FIO_CNT_UV).refreshFio)

/-- V24F_HIGH: `V24F` is seen above its upper level: `UV` clears and software outputs take their `LEVEL` (R52, R447). -/
def execV24fHigh (t : Nat) (s : State) : Host.Outcome State Fault Refusal :=
  let s := s.at t
  .next (if !s.domOn bFIO then s else (s.wr bFIO FIO_STAT_UV 0).refreshFio)

/-- Replace the sideband's inside. -/
def State.setPmb (s : State) (x : Pmbus) : State := s.setSys { s.sys with pmb := x }

/-- Whether a condition of R54 stands: the plate above 85 °C, or `VIN12` outside the range of R48. -/
def Pmbus.bad (x : Pmbus) : Bool := decide (85000 < x.plate) || decide (x.vinMv < 11400) || decide (12600 < x.vinMv)

/-- The status bits with those of the present conditions set. -/
def Pmbus.latch (x : Pmbus) : Pmbus :=
  { x with
    tempBad := x.tempBad || decide (85000 < x.plate)
    vinUv := x.vinUv || decide (x.vinMv < 11400)
    vinOv := x.vinOv || decide (12600 < x.vinMv)
    alert := x.alert || x.bad }

/-- PMBUS_REFRESH: the values of the last 10 ms, in mV, mA, thousandths of a °C and mW (R53); the alert is asserted on the
limits of R54. -/
def execPmbusRefresh (t vinMv iinMa : Nat) (plate hot : Int) (pinMw : Nat) (s : State) : Host.Outcome State Fault Refusal :=
  let s := s.at t
  .next (if !s.due perPmb 10000000 then s
  else (s.mark perPmb).setPmb (Pmbus.latch { s.sys.pmb with
    vinMv := vinMv, iinMa := iinMa, plate := plate, hot := hot, pinMw := pinMw }))

/-- CLEAR_FAULTS: the status bits clear, and the alert once its condition has ended (R53, R54). -/
def execClearFaults (t : Nat) (s : State) : Host.Outcome State Fault Refusal :=
  let s := s.at t
  let x := s.sys.pmb
  .next ((s.setPmb (Pmbus.latch { x with
    cml := false, tempBad := false, vinUv := false, vinOv := false, alert := x.alert && x.bad })).answer 0 [])

/-- A flag as a bit. -/
def flagBit (b : Bool) (k : Nat) : Nat := if b then 2 ^ k else 0

/-- The status byte: undervoltage in bit 3, temperature in bit 2, communication in bit 1, anything else in bit 0. -/
def Pmbus.statusByte (x : Pmbus) : Nat :=
  flagBit x.vinUv 3 + flagBit x.tempBad 2 + flagBit x.cml 1 + flagBit (x.vinOv && !x.vinUv) 0

/-- The status word: input faults in bit 13 above the status byte. -/
def Pmbus.statusWord (x : Pmbus) : Nat := flagBit (x.vinUv || x.vinOv) 13 + x.statusByte

/-- CAPABILITY (R53). -/
def execCapability (t : Nat) (s : State) : Host.Outcome State Fault Refusal := .next ((s.at t).answer 0 [0xB0])

/-- STATUS_BYTE (R53, R54). -/
def execStatusByte (t : Nat) (s : State) : Host.Outcome State Fault Refusal :=
  .next ((s.at t).answer 0 [(s.at t).sys.pmb.statusByte])

/-- STATUS_WORD (R53). -/
def execStatusWord (t : Nat) (s : State) : Host.Outcome State Fault Refusal :=
  .next ((s.at t).answer 0 (leBytes 2 (s.at t).sys.pmb.statusWord))

/-- The mantissa that a value in thousandths has at the exponent `k - 16`, rounded down. -/
def linearMant (v : Int) (k : Nat) : Int := v * 65536 / (1000 * 2 ^ k)

/-- The exponents, coded from 0 for -16 to 31 for 15, at which a value's mantissa fits LINEAR11 rounded down and up. -/
def linearFits (v : Int) : List Nat :=
  (List.range 32).filter (fun k => decide (-1024 ≤ linearMant v k) && decide (linearMant v k + 1 ≤ 1023))

/-- The LINEAR11 code of a value in thousandths: a signed exponent in bits 15:11 and a signed mantissa in bits 10:0, whose product with the
power of two is the value; `pick` chooses the exponent and the rounding among those that fit. -/
def linear11 (pick : Nat × Bool) (v : Int) : Nat :=
  let fits := linearFits v
  let k := nth 31 fits (pick.1 % fits.length)
  let m := linearMant v k + (if pick.2 && linearMant v k * 2 ^ k * 1000 != v * 65536 then 1 else 0)
  (k + 16) % 32 * 2048 + toCode 11 m

/-- Answer a LINEAR11 value in thousandths for a command code (R53). -/
def State.answerLinear (s : State) (code : Nat) (v : Int) : State :=
  s.answer 0 (leBytes 2 (linear11 (Config.linear11 code v) v))

/-- READ_VIN (R53). -/
def execReadVin (t : Nat) (s : State) : Host.Outcome State Fault Refusal :=
  .next ((s.at t).answerLinear 0x88 (s.at t).sys.pmb.vinMv)

/-- READ_IIN (R53). -/
def execReadIin (t : Nat) (s : State) : Host.Outcome State Fault Refusal :=
  .next ((s.at t).answerLinear 0x89 (s.at t).sys.pmb.iinMa)

/-- READ_TEMPERATURE_1: the thermal plate (R53). -/
def execReadTemperature1 (t : Nat) (s : State) : Host.Outcome State Fault Refusal :=
  .next ((s.at t).answerLinear 0x8D (s.at t).sys.pmb.plate)

/-- READ_TEMPERATURE_2: the hottest junction (R53). -/
def execReadTemperature2 (t : Nat) (s : State) : Host.Outcome State Fault Refusal :=
  .next ((s.at t).answerLinear 0x8E (s.at t).sys.pmb.hot)

/-- READ_PIN: the input power from `VIN12` (R53). -/
def execReadPin (t : Nat) (s : State) : Host.Outcome State Fault Refusal :=
  .next ((s.at t).answerLinear 0x97 (s.at t).sys.pmb.pinMw)

/-- PMBUS_REVISION (R53). -/
def execPmbusRevision (t : Nat) (s : State) : Host.Outcome State Fault Refusal := .next ((s.at t).answer 0 [0x33])

/-- MFR_ID: SHASEN (R53). -/
def execMfrId (t : Nat) (s : State) : Host.Outcome State Fault Refusal :=
  .next ((s.at t).answer 0 [0x53, 0x48, 0x41, 0x53, 0x45, 0x4E])

/-- MFR_MODEL: the part number (R53). -/
def execMfrModel (t : Nat) (s : State) : Host.Outcome State Fault Refusal := .next ((s.at t).answer 0 Config.mfrModel)

/-- MFR_SERIAL: the module serial number (R53). -/
def execMfrSerial (t : Nat) (s : State) : Host.Outcome State Fault Refusal := .next ((s.at t).answer 0 Config.mfrSerial)

/-- PMBUS_OTHER_WRITE: any other write sets the communication-fault bit and is ignored (R54). -/
def execPmbusOtherWrite (t _code : Nat) (_data : List Nat) (s : State) : Host.Outcome State Fault Refusal :=
  .next ((s.at t).setPmb { (s.at t).sys.pmb with cml := true })

end Sys2Proof.Machine
end

