-- ==== Sys2Proof/Machine/TackMatrixRows.lean ====
section
/-!
DEFINITION. The commands by which a cluster issues Tack's matrix instructions.
-/

namespace Sys2Proof.Machine

/-- MMA: Multiplies two 64×64 panels and replaces or adds into an accumulator. (R273) -/
def execMma (c : Nat) (pr : BitVec 4) (body : BitVec 48) (s : State) : Host.Outcome State Fault Refusal :=
  s.issue c pr body (opMma c)

/-- ACCZERO: Zeroes an accumulator. (R278) -/
def execAcczero (c : Nat) (pr : BitVec 4) (body : BitVec 48) (s : State) : Host.Outcome State Fault Refusal :=
  s.issue c pr body opAcczero

/-- ACCST: Stores an accumulator to 16 KiB of scratchpad. (R278) -/
def execAccst (c : Nat) (pr : BitVec 4) (body : BitVec 48) (s : State) : Host.Outcome State Fault Refusal :=
  s.issue c pr body (opAccst c)

/-- ACCLD: Loads an accumulator from 16 KiB of scratchpad. (R278) -/
def execAccld (c : Nat) (pr : BitVec 4) (body : BitVec 48) (s : State) : Host.Outcome State Fault Refusal :=
  s.issue c pr body (opAccld c)

/-- ACC2V: Copies an accumulator row to a vector. (R278) -/
def execAcc2v (c : Nat) (pr : BitVec 4) (body : BitVec 48) (s : State) : Host.Outcome State Fault Refusal :=
  s.issue c pr body opAcc2v

/-- V2ACC: Copies a vector to an accumulator row. (R278) -/
def execV2acc (c : Nat) (pr : BitVec 4) (body : BitVec 48) (s : State) : Host.Outcome State Fault Refusal :=
  s.issue c pr body opV2acc

end Sys2Proof.Machine
end

