-- ==== Sys2Proof/Machine/TackMemRows.lean ====
section
/-!
DEFINITION. The commands by which a cluster issues Tack's loads, stores and bulk transfers.
-/

namespace Sys2Proof.Machine

/-- LD_B: Loads a sign-extended byte. (R230) -/
def execLdB (c : Nat) (pr : BitVec 4) (body : BitVec 48) (s : State) : Host.Outcome State Fault Refusal :=
  s.issue c pr body (opLd c 0x01 1 true)

/-- LD_BU: Loads a zero-extended byte. (R230) -/
def execLdBu (c : Nat) (pr : BitVec 4) (body : BitVec 48) (s : State) : Host.Outcome State Fault Refusal :=
  s.issue c pr body (opLd c 0x02 1 false)

/-- LD_H: Loads a sign-extended halfword. (R230) -/
def execLdH (c : Nat) (pr : BitVec 4) (body : BitVec 48) (s : State) : Host.Outcome State Fault Refusal :=
  s.issue c pr body (opLd c 0x03 2 true)

/-- LD_HU: Loads a zero-extended halfword. (R230) -/
def execLdHu (c : Nat) (pr : BitVec 4) (body : BitVec 48) (s : State) : Host.Outcome State Fault Refusal :=
  s.issue c pr body (opLd c 0x04 2 false)

/-- LD_W: Loads a sign-extended word. (R230) -/
def execLdW (c : Nat) (pr : BitVec 4) (body : BitVec 48) (s : State) : Host.Outcome State Fault Refusal :=
  s.issue c pr body (opLd c 0x05 4 true)

/-- LD_WU: Loads a zero-extended word. (R230) -/
def execLdWu (c : Nat) (pr : BitVec 4) (body : BitVec 48) (s : State) : Host.Outcome State Fault Refusal :=
  s.issue c pr body (opLd c 0x06 4 false)

/-- LD_D: Loads a doubleword. (R230) -/
def execLdD (c : Nat) (pr : BitVec 4) (body : BitVec 48) (s : State) : Host.Outcome State Fault Refusal :=
  s.issue c pr body (opLd c 0x07 8 false)

/-- ST_B: Stores a byte. (R230) -/
def execStB (c : Nat) (pr : BitVec 4) (body : BitVec 48) (s : State) : Host.Outcome State Fault Refusal :=
  s.issue c pr body (opSt c 0x09 1)

/-- ST_H: Stores a halfword. (R230) -/
def execStH (c : Nat) (pr : BitVec 4) (body : BitVec 48) (s : State) : Host.Outcome State Fault Refusal :=
  s.issue c pr body (opSt c 0x0A 2)

/-- ST_W: Stores a word. (R230) -/
def execStW (c : Nat) (pr : BitVec 4) (body : BitVec 48) (s : State) : Host.Outcome State Fault Refusal :=
  s.issue c pr body (opSt c 0x0B 4)

/-- ST_D: Stores a doubleword. (R230) -/
def execStD (c : Nat) (pr : BitVec 4) (body : BitVec 48) (s : State) : Host.Outcome State Fault Refusal :=
  s.issue c pr body (opSt c 0x0C 8)

/-- VLD: Loads 256 local bytes into a vector register. (R230) -/
def execVld (c : Nat) (pr : BitVec 4) (body : BitVec 48) (s : State) : Host.Outcome State Fault Refusal :=
  s.issue c pr body (opLoad c 0x10 256 64 true Tile.setV)

/-- VST: Stores a vector register to 256 local bytes. (R230) -/
def execVst (c : Nat) (pr : BitVec 4) (body : BitVec 48) (s : State) : Host.Outcome State Fault Refusal :=
  s.issue c pr body (opStore c 0x11 256 64 true Tile.vreg)

/-- XLD: Bulk transfer from a global segment to local memory. (R232) -/
def execXld (c : Nat) (pr : BitVec 4) (body : BitVec 48) (s : State) : Host.Outcome State Fault Refusal :=
  s.issue c pr body (opXfer c 0x01 false true)

/-- XST: Bulk transfer from local memory to a global write segment. (R232) -/
def execXst (c : Nat) (pr : BitVec 4) (body : BitVec 48) (s : State) : Host.Outcome State Fault Refusal :=
  s.issue c pr body (opXfer c 0x02 true false)

/-- XCP: Bulk copy within local memory. (R232) -/
def execXcp (c : Nat) (pr : BitVec 4) (body : BitVec 48) (s : State) : Host.Outcome State Fault Refusal :=
  s.issue c pr body (opXfer c 0x03 true true)

/-- XPF: Declares a weight stream to the prefetchers. (R233) -/
def execXpf (c : Nat) (pr : BitVec 4) (body : BitVec 48) (s : State) : Host.Outcome State Fault Refusal :=
  s.issue c pr body (opXpf c)

end Sys2Proof.Machine
end

