-- ==== Sys2Proof/Machine/TackScalarRows.lean ====
section
/-!
DEFINITION. The commands by which a cluster issues Tack's scalar, predicate, address, control and system instructions.
-/

namespace Sys2Proof.Machine

/-- ADD: Scalar add of two registers. (R223) -/
def execAdd (c : Nat) (pr : BitVec 4) (body : BitVec 48) (s : State) : Host.Outcome State Fault Refusal :=
  s.issue c pr body (sRR 0x01 (· + ·))

/-- ADDI: Scalar add of a register and an immediate. (R223) -/
def execAddi (c : Nat) (pr : BitVec 4) (body : BitVec 48) (s : State) : Host.Outcome State Fault Refusal :=
  s.issue c pr body (sRI 0x01 (· + ·))

/-- SUB: Scalar subtract. (R223) -/
def execSub (c : Nat) (pr : BitVec 4) (body : BitVec 48) (s : State) : Host.Outcome State Fault Refusal :=
  s.issue c pr body (sRR 0x02 sub64)

/-- MUL: Low 64 bits of a scalar product. (R223) -/
def execMul (c : Nat) (pr : BitVec 4) (body : BitVec 48) (s : State) : Host.Outcome State Fault Refusal :=
  s.issue c pr body (sRR 0x03 (· * ·))

/-- MULH: High 64 bits of the signed product. (R223) -/
def execMulh (c : Nat) (pr : BitVec 4) (body : BitVec 48) (s : State) : Host.Outcome State Fault Refusal :=
  s.issue c pr body (sRR 0x04 mulhS)

/-- MULHU: High 64 bits of the unsigned product. (R223) -/
def execMulhu (c : Nat) (pr : BitVec 4) (body : BitVec 48) (s : State) : Host.Outcome State Fault Refusal :=
  s.issue c pr body (sRR 0x05 (fun a b => a * b / 2 ^ 64))

/-- DIV: Signed division rounded toward zero, without trapping. (R224) -/
def execDiv (c : Nat) (pr : BitVec 4) (body : BitVec 48) (s : State) : Host.Outcome State Fault Refusal :=
  s.issue c pr body (sRR 0x06 divS)

/-- DIVU: Unsigned division without trapping. (R224) -/
def execDivu (c : Nat) (pr : BitVec 4) (body : BitVec 48) (s : State) : Host.Outcome State Fault Refusal :=
  s.issue c pr body (sRR 0x07 divU)

/-- REM: Signed remainder without trapping. (R224) -/
def execRem (c : Nat) (pr : BitVec 4) (body : BitVec 48) (s : State) : Host.Outcome State Fault Refusal :=
  s.issue c pr body (sRR 0x08 remS)

/-- REMU: Unsigned remainder without trapping. (R224) -/
def execRemu (c : Nat) (pr : BitVec 4) (body : BitVec 48) (s : State) : Host.Outcome State Fault Refusal :=
  s.issue c pr body (sRR 0x09 remU)

/-- AND: Bitwise and of registers. (R223) -/
def execAnd (c : Nat) (pr : BitVec 4) (body : BitVec 48) (s : State) : Host.Outcome State Fault Refusal :=
  s.issue c pr body (sRR 0x0A Nat.land)

/-- ANDI: Bitwise and with an immediate. (R223) -/
def execAndi (c : Nat) (pr : BitVec 4) (body : BitVec 48) (s : State) : Host.Outcome State Fault Refusal :=
  s.issue c pr body (sRI 0x0A Nat.land)

/-- OR: Bitwise or of registers. (R223) -/
def execOr (c : Nat) (pr : BitVec 4) (body : BitVec 48) (s : State) : Host.Outcome State Fault Refusal :=
  s.issue c pr body (sRR 0x0B Nat.lor)

/-- ORI: Bitwise or with an immediate. (R223) -/
def execOri (c : Nat) (pr : BitVec 4) (body : BitVec 48) (s : State) : Host.Outcome State Fault Refusal :=
  s.issue c pr body (sRI 0x0B Nat.lor)

/-- XOR: Bitwise exclusive or of registers. (R223) -/
def execXor (c : Nat) (pr : BitVec 4) (body : BitVec 48) (s : State) : Host.Outcome State Fault Refusal :=
  s.issue c pr body (sRR 0x0C Nat.xor)

/-- XORI: Bitwise exclusive or with an immediate. (R223) -/
def execXori (c : Nat) (pr : BitVec 4) (body : BitVec 48) (s : State) : Host.Outcome State Fault Refusal :=
  s.issue c pr body (sRI 0x0C Nat.xor)

/-- SLL: Shift left by a register amount. (R223) -/
def execSll (c : Nat) (pr : BitVec 4) (body : BitVec 48) (s : State) : Host.Outcome State Fault Refusal :=
  s.issue c pr body (sRR 0x0D sll64)

/-- SLLI: Shift left by an immediate amount. (R223) -/
def execSlli (c : Nat) (pr : BitVec 4) (body : BitVec 48) (s : State) : Host.Outcome State Fault Refusal :=
  s.issue c pr body (sShI 0x0D sll64)

/-- SRL: Logical shift right by a register amount. (R223) -/
def execSrl (c : Nat) (pr : BitVec 4) (body : BitVec 48) (s : State) : Host.Outcome State Fault Refusal :=
  s.issue c pr body (sRR 0x0E srl64)

/-- SRLI: Logical shift right by an immediate amount. (R223) -/
def execSrli (c : Nat) (pr : BitVec 4) (body : BitVec 48) (s : State) : Host.Outcome State Fault Refusal :=
  s.issue c pr body (sShI 0x0E srl64)

/-- SRA: Arithmetic shift right by a register amount. (R223) -/
def execSra (c : Nat) (pr : BitVec 4) (body : BitVec 48) (s : State) : Host.Outcome State Fault Refusal :=
  s.issue c pr body (sRR 0x0F sraS)

/-- SRAI: Arithmetic shift right by an immediate amount. (R223) -/
def execSrai (c : Nat) (pr : BitVec 4) (body : BitVec 48) (s : State) : Host.Outcome State Fault Refusal :=
  s.issue c pr body (sShI 0x0F sraS)

/-- MIN: Signed minimum of registers. (R223) -/
def execMin (c : Nat) (pr : BitVec 4) (body : BitVec 48) (s : State) : Host.Outcome State Fault Refusal :=
  s.issue c pr body (sRR 0x10 minS)

/-- MINI: Signed minimum with an immediate. (R223) -/
def execMini (c : Nat) (pr : BitVec 4) (body : BitVec 48) (s : State) : Host.Outcome State Fault Refusal :=
  s.issue c pr body (sRI 0x10 minS)

/-- MAX: Signed maximum of registers. (R223) -/
def execMax (c : Nat) (pr : BitVec 4) (body : BitVec 48) (s : State) : Host.Outcome State Fault Refusal :=
  s.issue c pr body (sRR 0x11 maxS)

/-- MAXI: Signed maximum with an immediate. (R223) -/
def execMaxi (c : Nat) (pr : BitVec 4) (body : BitVec 48) (s : State) : Host.Outcome State Fault Refusal :=
  s.issue c pr body (sRI 0x11 maxS)

/-- MINU: Unsigned minimum. (R223) -/
def execMinu (c : Nat) (pr : BitVec 4) (body : BitVec 48) (s : State) : Host.Outcome State Fault Refusal :=
  s.issue c pr body (sRR 0x12 min)

/-- MAXU: Unsigned maximum. (R223) -/
def execMaxu (c : Nat) (pr : BitVec 4) (body : BitVec 48) (s : State) : Host.Outcome State Fault Refusal :=
  s.issue c pr body (sRR 0x13 max)

/-- SEL: Selects one of two registers by a predicate. (R223) -/
def execSel (c : Nat) (pr : BitVec 4) (body : BitVec 48) (s : State) : Host.Outcome State Fault Refusal :=
  s.issue c pr body opSel

/-- CLZ: Counts leading zero bits. (R223) -/
def execClz (c : Nat) (pr : BitVec 4) (body : BitVec 48) (s : State) : Host.Outcome State Fault Refusal :=
  s.issue c pr body (sR1 0x15 clz64)

/-- POPC: Counts one bits. (R223) -/
def execPopc (c : Nat) (pr : BitVec 4) (body : BitVec 48) (s : State) : Host.Outcome State Fault Refusal :=
  s.issue c pr body (sR1 0x16 (popCount 64))

/-- LI: Loads a sign-extended immediate. (R223) -/
def execLi (c : Nat) (pr : BitVec 4) (body : BitVec 48) (s : State) : Host.Outcome State Fault Refusal :=
  s.issue c pr body opLi

/-- LIH: Loads the high 32 bits of a register from an immediate. (R223) -/
def execLih (c : Nat) (pr : BitVec 4) (body : BitVec 48) (s : State) : Host.Outcome State Fault Refusal :=
  s.issue c pr body opLih

/-- CMP_EQ: Sets a predicate to register equality. (R225) -/
def execCmpEq (c : Nat) (pr : BitVec 4) (body : BitVec 48) (s : State) : Host.Outcome State Fault Refusal :=
  s.issue c pr body (cmpRR 0x1 (· == ·))

/-- CMP_NE: Sets a predicate to register inequality. (R225) -/
def execCmpNe (c : Nat) (pr : BitVec 4) (body : BitVec 48) (s : State) : Host.Outcome State Fault Refusal :=
  s.issue c pr body (cmpRR 0x2 (· != ·))

/-- CMP_LT: Sets a predicate to signed less-than. (R225) -/
def execCmpLt (c : Nat) (pr : BitVec 4) (body : BitVec 48) (s : State) : Host.Outcome State Fault Refusal :=
  s.issue c pr body (cmpRR 0x3 ltS)

/-- CMP_LTU: Sets a predicate to unsigned less-than. (R225) -/
def execCmpLtu (c : Nat) (pr : BitVec 4) (body : BitVec 48) (s : State) : Host.Outcome State Fault Refusal :=
  s.issue c pr body (cmpRR 0x4 (fun a b => decide (a < b)))

/-- CMP_GE: Sets a predicate to signed greater-or-equal. (R225) -/
def execCmpGe (c : Nat) (pr : BitVec 4) (body : BitVec 48) (s : State) : Host.Outcome State Fault Refusal :=
  s.issue c pr body (cmpRR 0x5 geS)

/-- CMP_GEU: Sets a predicate to unsigned greater-or-equal. (R225) -/
def execCmpGeu (c : Nat) (pr : BitVec 4) (body : BitVec 48) (s : State) : Host.Outcome State Fault Refusal :=
  s.issue c pr body (cmpRR 0x6 (fun a b => decide (b ≤ a)))

/-- CMPI_EQ: Sets a predicate to equality with an immediate. (R225) -/
def execCmpiEq (c : Nat) (pr : BitVec 4) (body : BitVec 48) (s : State) : Host.Outcome State Fault Refusal :=
  s.issue c pr body (cmpRI 0x11 (· == ·))

/-- CMPI_NE: Sets a predicate to inequality with an immediate. (R225) -/
def execCmpiNe (c : Nat) (pr : BitVec 4) (body : BitVec 48) (s : State) : Host.Outcome State Fault Refusal :=
  s.issue c pr body (cmpRI 0x12 (· != ·))

/-- CMPI_LT: Sets a predicate to signed less-than an immediate. (R225) -/
def execCmpiLt (c : Nat) (pr : BitVec 4) (body : BitVec 48) (s : State) : Host.Outcome State Fault Refusal :=
  s.issue c pr body (cmpRI 0x13 ltS)

/-- CMPI_LTU: Sets a predicate to unsigned less-than an immediate. (R225) -/
def execCmpiLtu (c : Nat) (pr : BitVec 4) (body : BitVec 48) (s : State) : Host.Outcome State Fault Refusal :=
  s.issue c pr body (cmpRI 0x14 (fun a b => decide (a < b)))

/-- CMPI_GE: Sets a predicate to signed greater-or-equal an immediate. (R225) -/
def execCmpiGe (c : Nat) (pr : BitVec 4) (body : BitVec 48) (s : State) : Host.Outcome State Fault Refusal :=
  s.issue c pr body (cmpRI 0x15 geS)

/-- CMPI_GEU: Sets a predicate to unsigned greater-or-equal an immediate. (R225) -/
def execCmpiGeu (c : Nat) (pr : BitVec 4) (body : BitVec 48) (s : State) : Host.Outcome State Fault Refusal :=
  s.issue c pr body (cmpRI 0x16 (fun a b => decide (b ≤ a)))

/-- PAND: Predicate and. (R225) -/
def execPand (c : Nat) (pr : BitVec 4) (body : BitVec 48) (s : State) : Host.Outcome State Fault Refusal :=
  s.issue c pr body (predRR 0x20 (· && ·))

/-- POR: Predicate or. (R225) -/
def execPor (c : Nat) (pr : BitVec 4) (body : BitVec 48) (s : State) : Host.Outcome State Fault Refusal :=
  s.issue c pr body (predRR 0x21 (· || ·))

/-- PXOR: Predicate exclusive or. (R225) -/
def execPxor (c : Nat) (pr : BitVec 4) (body : BitVec 48) (s : State) : Host.Outcome State Fault Refusal :=
  s.issue c pr body (predRR 0x22 xor)

/-- PANDN: Predicate and-not. (R225) -/
def execPandn (c : Nat) (pr : BitVec 4) (body : BitVec 48) (s : State) : Host.Outcome State Fault Refusal :=
  s.issue c pr body (predRR 0x23 (fun a b => a && !b))

/-- AMOV: Moves a scalar into an address register. (R226) -/
def execAmov (c : Nat) (pr : BitVec 4) (body : BitVec 48) (s : State) : Host.Outcome State Fault Refusal :=
  s.issue c pr body opAmov

/-- AADD: Adds a scalar to an address register keeping the space bit. (R226) -/
def execAadd (c : Nat) (pr : BitVec 4) (body : BitVec 48) (s : State) : Host.Outcome State Fault Refusal :=
  s.issue c pr body opAadd

/-- AADDI: Adds an immediate to an address register keeping the space bit. (R226) -/
def execAaddi (c : Nat) (pr : BitVec 4) (body : BitVec 48) (s : State) : Host.Outcome State Fault Refusal :=
  s.issue c pr body opAaddi

/-- AMOVS: Moves an address register into a scalar. (R226) -/
def execAmovs (c : Nat) (pr : BitVec 4) (body : BitVec 48) (s : State) : Host.Outcome State Fault Refusal :=
  s.issue c pr body opAmovs

/-- ALOCAL: Sets an address register to a local address. (R226) -/
def execAlocal (c : Nat) (pr : BitVec 4) (body : BitVec 48) (s : State) : Host.Outcome State Fault Refusal :=
  s.issue c pr body opAlocal

/-- BR: Branches by a relative offset. (R227) -/
def execBr (c : Nat) (pr : BitVec 4) (body : BitVec 48) (s : State) : Host.Outcome State Fault Refusal :=
  s.issue c pr body opBr

/-- JR: Jumps to an absolute instruction index. (R227) -/
def execJr (c : Nat) (pr : BitVec 4) (body : BitVec 48) (s : State) : Host.Outcome State Fault Refusal :=
  s.issue c pr body opJr

/-- CALL: Pushes the return index and branches. (R227) -/
def execCall (c : Nat) (pr : BitVec 4) (body : BitVec 48) (s : State) : Host.Outcome State Fault Refusal :=
  s.issue c pr body opCall

/-- RET: Pops the return stack into pc. (R227) -/
def execRet (c : Nat) (pr : BitVec 4) (body : BitVec 48) (s : State) : Host.Outcome State Fault Refusal :=
  s.issue c pr body opRet

/-- LOOP: Sets up a hardware loop or skips its body for a zero count. (R228) -/
def execLoop (c : Nat) (pr : BitVec 4) (body : BitVec 48) (s : State) : Host.Outcome State Fault Refusal :=
  s.issue c pr body opLoop

/-- NOP: Does nothing. (R234) -/
def execNop (c : Nat) (pr : BitVec 4) (body : BitVec 48) (s : State) : Host.Outcome State Fault Refusal :=
  s.issue c pr body (opIdle 0x00)

/-- END: Ends the tile once every unit is idle. (R234) -/
def execEndTile (c : Nat) (pr : BitVec 4) (body : BitVec 48) (s : State) : Host.Outcome State Fault Refusal :=
  s.issue c pr body opEnd

/-- TRAP: Raises PROGRAM_TRAP with a cause code. (R234) -/
def execTrap (c : Nat) (pr : BitVec 4) (body : BitVec 48) (s : State) : Host.Outcome State Fault Refusal :=
  s.issue c pr body opTrap

/-- WAIT: Stops issue until every unit is idle. (R234) -/
def execWait (c : Nat) (pr : BitVec 4) (body : BitVec 48) (s : State) : Host.Outcome State Fault Refusal :=
  s.issue c pr body (opIdle 0x03)

end Sys2Proof.Machine
end

