-- ==== Sys2Proof/Machine/TackVectorRows.lean ====
section
/-!
DEFINITION. The commands by which a cluster issues Tack's vector and GF(2^8) instructions.
-/

namespace Sys2Proof.Machine

/-- VADD: Lane-wise add. (R263) -/
def execVadd (c : Nat) (pr : BitVec 4) (body : BitVec 48) (s : State) : Host.Outcome State Fault Refusal :=
  s.issue c pr body (v8 0x01 [.vb] (chkByT (chkFp [vVA, vVB]) chkAdd) (fun a b _ => fpAdd fp32 a b) (fun a b _ => plain (a + b)))

/-- VSUB: Lane-wise subtract. (R263) -/
def execVsub (c : Nat) (pr : BitVec 4) (body : BitVec 48) (s : State) : Host.Outcome State Fault Refusal :=
  s.issue c pr body (v8 0x02 [.vb] (chkByT (chkFp [vVA, vVB]) chkSub) (fun a b _ => fpSub fp32 a b) (fun a b _ => plain (a + 2 ^ 32 - b)))

/-- VMUL: Lane-wise multiply. (R263) -/
def execVmul (c : Nat) (pr : BitVec 4) (body : BitVec 48) (s : State) : Host.Outcome State Fault Refusal :=
  s.issue c pr body (v8 0x03 [.vb] (chkByT (chkFp [vVA, vVB]) chkMul) (fun a b _ => fpMul fp32 a b) (fun a b _ => plain (a * b)))

/-- VFMA: Lane-wise fused multiply-add. (R263) -/
def execVfma (c : Nat) (pr : BitVec 4) (body : BitVec 48) (s : State) : Host.Outcome State Fault Refusal :=
  s.issue c pr body (v8 0x04 [.vb, .vc] (chkByT (chkFp [vVA, vVB, vVC]) chkFma) (fun a b x => fpFma fp32 a b x) (fun a b x => plain (a * b + x)))

/-- VMIN: Lane-wise minimum. (R263) -/
def execVmin (c : Nat) (pr : BitVec 4) (body : BitVec 48) (s : State) : Host.Outcome State Fault Refusal :=
  s.issue c pr body (v8 0x05 [.vb] (chkByT (chkMove (pickSrc fpMin true)) (chkMove (pickSrc intMin false)))
    (fun a b _ => (fpMin a b, 0)) (fun a b _ => plain (intMin a b)))

/-- VMAX: Lane-wise maximum. (R263) -/
def execVmax (c : Nat) (pr : BitVec 4) (body : BitVec 48) (s : State) : Host.Outcome State Fault Refusal :=
  s.issue c pr body (v8 0x06 [.vb] (chkByT (chkMove (pickSrc fpMax true)) (chkMove (pickSrc intMax false)))
    (fun a b _ => (fpMax a b, 0)) (fun a b _ => plain (intMax a b)))

/-- VABS: Lane-wise magnitude. (R263) -/
def execVabs (c : Nat) (pr : BitVec 4) (body : BitVec 48) (s : State) : Host.Outcome State Fault Refusal :=
  s.issue c pr body (v8 0x07 [] (chkMove (signSrc (fun x => bit x 31 == 1))) (fun a _ _ => fpSign (· % 2 ^ 31) a) (fun a _ _ => plain (s32 a).natAbs))

/-- VNEG: Lane-wise negation. (R263) -/
def execVneg (c : Nat) (pr : BitVec 4) (body : BitVec 48) (s : State) : Host.Outcome State Fault Refusal :=
  s.issue c pr body (v8 0x08 [] (chkMove (signSrc (fun _ => true))) (fun a _ _ => fpSign (fun x => x.xor (2 ^ 31)) a) (fun a _ _ => plain (2 ^ 32 - a)))

/-- VAND: Lane-wise bitwise and. (R263) -/
def execVand (c : Nat) (pr : BitVec 4) (body : BitVec 48) (s : State) : Host.Outcome State Fault Refusal :=
  s.issue c pr body (v8i 0x09 [.vb] chkShadow (fun a b _ => a.land b))

/-- VOR: Lane-wise bitwise or. (R263) -/
def execVor (c : Nat) (pr : BitVec 4) (body : BitVec 48) (s : State) : Host.Outcome State Fault Refusal :=
  s.issue c pr body (v8i 0x0A [.vb] chkShadow (fun a b _ => a.lor b))

/-- VXOR: Lane-wise exclusive or. (R263) -/
def execVxor (c : Nat) (pr : BitVec 4) (body : BitVec 48) (s : State) : Host.Outcome State Fault Refusal :=
  s.issue c pr body (v8i 0x0B [.vb] chkShadow (fun a b _ => a.xor b))

/-- VSHL: Lane-wise shift left. (R263) -/
def execVshl (c : Nat) (pr : BitVec 4) (body : BitVec 48) (s : State) : Host.Outcome State Fault Refusal :=
  s.issue c pr body (v8i 0x0C [.vb] chkShl (fun a b _ => a * 2 ^ (b % 32)))

/-- VSHR: Lane-wise logical shift right. (R263) -/
def execVshr (c : Nat) (pr : BitVec 4) (body : BitVec 48) (s : State) : Host.Outcome State Fault Refusal :=
  s.issue c pr body (v8i 0x0D [.vb] chkShr (fun a b _ => a / 2 ^ (b % 32)))

/-- VSRA: Lane-wise arithmetic shift right. (R263) -/
def execVsra (c : Nat) (pr : BitVec 4) (body : BitVec 48) (s : State) : Host.Outcome State Fault Refusal :=
  s.issue c pr body (v8i 0x0E [.vb] chkSra (fun a b _ => toCode 32 (s32 a / 2 ^ (b % 32))))

/-- VCMP_EQ: Lane-wise equality mask. (R263) -/
def execVcmpEq (c : Nat) (pr : BitVec 4) (body : BitVec 48) (s : State) : Host.Outcome State Fault Refusal :=
  s.issue c pr body (vCmp 0x10 fpEq (fun a b => a == b))

/-- VCMP_LT: Lane-wise less-than mask. (R263) -/
def execVcmpLt (c : Nat) (pr : BitVec 4) (body : BitVec 48) (s : State) : Host.Outcome State Fault Refusal :=
  s.issue c pr body (vCmp 0x11 fpLt (fun a b => decide (a < b)))

/-- VCMP_LE: Lane-wise less-or-equal mask. (R263) -/
def execVcmpLe (c : Nat) (pr : BitVec 4) (body : BitVec 48) (s : State) : Host.Outcome State Fault Refusal :=
  s.issue c pr body (vCmp 0x12 (fun a b => fpLt a b || fpEq a b) (fun a b => decide (a ≤ b)))

/-- VCMP_NE: Lane-wise inequality mask. (R263) -/
def execVcmpNe (c : Nat) (pr : BitVec 4) (body : BitVec 48) (s : State) : Host.Outcome State Fault Refusal :=
  s.issue c pr body (vCmp 0x13 (fun a b => !fpEq a b) (fun a b => a != b))

/-- VSEL: Lane-wise select by a mask vector. (R263) -/
def execVsel (c : Nat) (pr : BitVec 4) (body : BitVec 48) (s : State) : Host.Outcome State Fault Refusal :=
  s.issue c pr body (v8i 0x14 [.vb, .vc] (chkMove selSrc) (fun a b x => if x = 0 then b else a))

/-- VCVT: Converts between INT32 and FP32 lanes. (R265) -/
def execVcvt (c : Nat) (pr : BitVec 4) (body : BitVec 48) (s : State) : Host.Outcome State Fault Refusal :=
  s.issue c pr body opVcvt

/-- VWID: Widens a part of narrow elements to 64 lanes. (R265) -/
def execVwid (c : Nat) (pr : BitVec 4) (body : BitVec 48) (s : State) : Host.Outcome State Fault Refusal :=
  s.issue c pr body opVwid

/-- VNAR: Narrows 64 lanes into a part of a vector. (R265) -/
def execVnar (c : Nat) (pr : BitVec 4) (body : BitVec 48) (s : State) : Host.Outcome State Fault Refusal :=
  s.issue c pr body opVnar

/-- VQSX: Quantizes FP32 lanes into SX blocks with exponents. (R259) -/
def execVqsx (c : Nat) (pr : BitVec 4) (body : BitVec 48) (s : State) : Host.Outcome State Fault Refusal :=
  s.issue c pr body opVqsx

/-- VBCAST: Broadcasts a scalar to every lane. (R265) -/
def execVbcast (c : Nat) (pr : BitVec 4) (body : BitVec 48) (s : State) : Host.Outcome State Fault Refusal :=
  s.issue c pr body opVbcast

/-- VMOVI: Broadcasts an immediate to every lane. (R265) -/
def execVmovi (c : Nat) (pr : BitVec 4) (body : BitVec 48) (s : State) : Host.Outcome State Fault Refusal :=
  s.issue c pr body opVmovi

/-- VPERM: Permutes 32-bit lanes by an index vector. (R265) -/
def execVperm (c : Nat) (pr : BitVec 4) (body : BitVec 48) (s : State) : Host.Outcome State Fault Refusal :=
  s.issue c pr body opVperm

/-- VGETF: Writes the sticky flags to a scalar after earlier vector and matrix work completes. (R260) -/
def execVgetf (c : Nat) (pr : BitVec 4) (body : BitVec 48) (s : State) : Host.Outcome State Fault Refusal :=
  s.issue c pr body opVgetf

/-- VCLRF: Clears the sticky flags after earlier vector and matrix work completes. (R260) -/
def execVclrf (c : Nat) (pr : BitVec 4) (body : BitVec 48) (s : State) : Host.Outcome State Fault Refusal :=
  s.issue c pr body opVclrf

/-- VREDSUM: Sums 64 lanes in a fixed pairwise tree. (R267) -/
def execVredsum (c : Nat) (pr : BitVec 4) (body : BitVec 48) (s : State) : Host.Outcome State Fault Refusal :=
  s.issue c pr body (vRed 0x01 (chkByT (chkFp [vVA]) chkSum) (fpAdd fp32) (fun a b => plain (a + b)))

/-- VREDMAX: Maximum of 64 lanes in a fixed tree. (R267) -/
def execVredmax (c : Nat) (pr : BitVec 4) (body : BitVec 48) (s : State) : Host.Outcome State Fault Refusal :=
  s.issue c pr body (vRed 0x02 (chkByT (chkMove (redSrc fpMax true)) (chkMove (redSrc intMax false)))
    (fun a b => (fpMax a b, 0)) (fun a b => plain (intMax a b)))

/-- VREDMIN: Minimum of 64 lanes in a fixed tree. (R267) -/
def execVredmin (c : Nat) (pr : BitVec 4) (body : BitVec 48) (s : State) : Host.Outcome State Fault Refusal :=
  s.issue c pr body (vRed 0x03 (chkByT (chkMove (redSrc fpMin true)) (chkMove (redSrc intMin false)))
    (fun a b => (fpMin a b, 0)) (fun a b => plain (intMin a b)))

/-- VEXP2: Lane-wise power of two. (R266) -/
def execVexp2 (c : Nat) (pr : BitVec 4) (body : BitVec 48) (s : State) : Host.Outcome State Fault Refusal :=
  s.issue c pr body (vFun 0x10)

/-- VLOG2: Lane-wise base-2 logarithm. (R266) -/
def execVlog2 (c : Nat) (pr : BitVec 4) (body : BitVec 48) (s : State) : Host.Outcome State Fault Refusal :=
  s.issue c pr body (vFun 0x11)

/-- VRCP: Lane-wise reciprocal. (R266) -/
def execVrcp (c : Nat) (pr : BitVec 4) (body : BitVec 48) (s : State) : Host.Outcome State Fault Refusal :=
  s.issue c pr body (vFun 0x12)

/-- VRSQRT: Lane-wise reciprocal square root. (R266) -/
def execVrsqrt (c : Nat) (pr : BitVec 4) (body : BitVec 48) (s : State) : Host.Outcome State Fault Refusal :=
  s.issue c pr body (vFun 0x13)

/-- VSQRT: Lane-wise square root. (R266) -/
def execVsqrt (c : Nat) (pr : BitVec 4) (body : BitVec 48) (s : State) : Host.Outcome State Fault Refusal :=
  s.issue c pr body (vOp 0xA 0x14 8 (vLegal [.vd, .va, .t] [0]) (chkFp [vVA]) (fun b t => mapLanes (fun a _ _ => fpSqrt fp32 a) (t.vreg (vVA b)) 0 0))

/-- VDIV: Lane-wise division. (R266) -/
def execVdiv (c : Nat) (pr : BitVec 4) (body : BitVec 48) (s : State) : Host.Outcome State Fault Refusal :=
  s.issue c pr body (vOp 0xA 0x15 8 (vLegal [.vd, .va, .vb, .t] [0]) (chkFp [vVA, vVB]) (fun b t => mapLanes (fun a d _ => fpDiv fp32 a d) (t.vreg (vVA b)) (t.vreg (vVB b)) 0))

/-- VTANH: Lane-wise hyperbolic tangent. (R266) -/
def execVtanh (c : Nat) (pr : BitVec 4) (body : BitVec 48) (s : State) : Host.Outcome State Fault Refusal :=
  s.issue c pr body (vFun 0x16)

/-- VSIGM: Lane-wise logistic sigmoid. (R266) -/
def execVsigm (c : Nat) (pr : BitVec 4) (body : BitVec 48) (s : State) : Host.Outcome State Fault Refusal :=
  s.issue c pr body (vFun 0x17)

/-- VERF: Lane-wise error function. (R266) -/
def execVerf (c : Nat) (pr : BitVec 4) (body : BitVec 48) (s : State) : Host.Outcome State Fault Refusal :=
  s.issue c pr body (vFun 0x18)

/-- GF_ADD: Byte-wise GF(2^8) addition. (R270) -/
def execGfAdd (c : Nat) (pr : BitVec 4) (body : BitVec 48) (s : State) : Host.Outcome State Fault Refusal :=
  s.issue c pr body (gfOp 1 1 [.vb] (fun _ _ a b => a.xor b))

/-- GF_MUL: Byte-wise GF(2^8) multiplication. (R270) -/
def execGfMul (c : Nat) (pr : BitVec 4) (body : BitVec 48) (s : State) : Host.Outcome State Fault Refusal :=
  s.issue c pr body (gfOp 2 1 [.vb, .poly] (fun p _ a b => gfMul p a b))

/-- GF_MAC: Byte-wise GF(2^8) multiply-accumulate. (R270) -/
def execGfMac (c : Nat) (pr : BitVec 4) (body : BitVec 48) (s : State) : Host.Outcome State Fault Refusal :=
  s.issue c pr body (gfOp 3 1 [.vb, .poly] (fun p d a b => d.xor (gfMul p a b)))

/-- GF_HORNER: Byte-wise GF(2^8) Horner step. (R270) -/
def execGfHorner (c : Nat) (pr : BitVec 4) (body : BitVec 48) (s : State) : Host.Outcome State Fault Refusal :=
  s.issue c pr body (gfOp 4 1 [.vb, .poly] (fun p d a b => (gfMul p d a).xor b))

/-- GF_INV: Byte-wise GF(2^8) inverse. (R270) -/
def execGfInv (c : Nat) (pr : BitVec 4) (body : BitVec 48) (s : State) : Host.Outcome State Fault Refusal :=
  s.issue c pr body (gfOp 5 2 [.poly] (fun p _ a _ => gfInv p a))

/-- GF_EXP: Byte-wise GF(2^8) exponential of alpha. (R270) -/
def execGfExp (c : Nat) (pr : BitVec 4) (body : BitVec 48) (s : State) : Host.Outcome State Fault Refusal :=
  s.issue c pr body (gfOp 6 1 [.poly] (fun p _ a _ => gfExp p a))

/-- GF_LOG: Byte-wise GF(2^8) logarithm. (R270) -/
def execGfLog (c : Nat) (pr : BitVec 4) (body : BitVec 48) (s : State) : Host.Outcome State Fault Refusal :=
  s.issue c pr body (gfOp 7 1 [.poly] (fun p _ a _ => gfLog p a))

/-- GF_MULC: Byte-wise GF(2^8) multiplication by a constant. (R270) -/
def execGfMulc (c : Nat) (pr : BitVec 4) (body : BitVec 48) (s : State) : Host.Outcome State Fault Refusal :=
  s.issue c pr body opGfMulc

end Sys2Proof.Machine
end

