-- ==== Sys2Proof/Machine/Dispatch.lean ====
section
/-!
DEFINITION. The dispatch: one arm per command, each a direct call of that command's meaning.
-/

namespace Sys2Proof.Machine

/-- The effect of one command on everything but the queue of waiting commands. -/
def exec (i : Instr) (s : State) : Host.Outcome State Fault Refusal :=
  match i with
  | .enable t ini b v => Sys2Proof.Machine.execEnable t ini b v s
  | .startupComplete t b => Sys2Proof.Machine.execStartupComplete t b s
  | .shutdownComplete t b => Sys2Proof.Machine.execShutdownComplete t b s
  | .fence t ini b v => Sys2Proof.Machine.execFence t ini b v s
  | .fenceComplete t b => Sys2Proof.Machine.execFenceComplete t b s
  | .reset t ini b v => Sys2Proof.Machine.execReset t ini b v s
  | .functionResetEnd t b => Sys2Proof.Machine.execFunctionResetEnd t b s
  | .snap t ini b v => Sys2Proof.Machine.execSnap t ini b v s
  | .internalFault t b => Sys2Proof.Machine.execInternalFault t b s
  | .registerWrite t ini addr v => Sys2Proof.Machine.execRegisterWrite t ini addr v s
  | .ringReadIndex t ini addr v => Sys2Proof.Machine.execRingReadIndex t ini addr v s
  | .powerOn t => Sys2Proof.Machine.execPowerOn t s
  | .brownOut t => Sys2Proof.Machine.execBrownOut t s
  | .brownOutRelease t => Sys2Proof.Machine.execBrownOutRelease t s
  | .rstN t => Sys2Proof.Machine.execRstN t s
  | .rstSwreset t ini v => Sys2Proof.Machine.execRstSwreset t ini v s
  | .criticalStateError t src => Sys2Proof.Machine.execCriticalStateError t src s
  | .thermalTrip t => Sys2Proof.Machine.execThermalTrip t s
  | .thermalTripRelease t => Sys2Proof.Machine.execThermalTripRelease t s
  | .systemResetEnd t straps => Sys2Proof.Machine.execSystemResetEnd t straps s
  | .bootReady t => Sys2Proof.Machine.execBootReady t s
  | .imageVerified t => Sys2Proof.Machine.execImageVerified t s
  | .dramInitDone t => Sys2Proof.Machine.execDramInitDone t s
  | .idMemoryReadDone t copy0 copy1 => Sys2Proof.Machine.execIdMemoryReadDone t copy0 copy1 s
  | .idReadRetry t => Sys2Proof.Machine.execIdReadRetry t s
  | .idRecordWriteDone t => Sys2Proof.Machine.execIdRecordWriteDone t s
  | .rstHostBoot t ini v => Sys2Proof.Machine.execRstHostBoot t ini v s
  | .netBootFileReceived t addr name file => Sys2Proof.Machine.execNetBootFileReceived t addr name file s
  | .netBootTimeout t failed => Sys2Proof.Machine.execNetBootTimeout t failed s
  | .pciePerst t => Sys2Proof.Machine.execPciePerst t s
  | .trial t ini v => Sys2Proof.Machine.execTrial t ini v s
  | .trialVerifyDone t => Sys2Proof.Machine.execTrialVerifyDone t s
  | .cancel t ini v => Sys2Proof.Machine.execCancel t ini v s
  | .confirm t ini v => Sys2Proof.Machine.execConfirm t ini v s
  | .swapRefusedClear t ini v => Sys2Proof.Machine.execSwapRefusedClear t ini v s
  | .flashProgram t ini off data => Sys2Proof.Machine.execFlashProgram t ini off data s
  | .cameraDiscoveryRetry t => Sys2Proof.Machine.execCameraDiscoveryRetry t s
  | .encoderTypeTest t low highNs => Sys2Proof.Machine.execEncoderTypeTest t low highNs s
  | .teachIn t => Sys2Proof.Machine.execTeachIn t s
  | .teachInEdge t => Sys2Proof.Machine.execTeachInEdge t s
  | .codeVerdict t c decodes grade => Sys2Proof.Machine.execCodeVerdict t c decodes grade s
  | .unmatchedProbeEdge t => Sys2Proof.Machine.execUnmatchedProbeEdge t s
  | .status t => Sys2Proof.Machine.execStatus t s
  | .valve t n => Sys2Proof.Machine.execValve t n s
  | .teach t => Sys2Proof.Machine.execTeach t s
  | .pocxpOvercurrent t p => Sys2Proof.Machine.execPocxpOvercurrent t p s
  | .v24fLow t => Sys2Proof.Machine.execV24fLow t s
  | .v24fHigh t => Sys2Proof.Machine.execV24fHigh t s
  | .pmbusRefresh t vinMv iinMa plate hot pinMw => Sys2Proof.Machine.execPmbusRefresh t vinMv iinMa plate hot pinMw s
  | .clearFaults t => Sys2Proof.Machine.execClearFaults t s
  | .capability t => Sys2Proof.Machine.execCapability t s
  | .statusByte t => Sys2Proof.Machine.execStatusByte t s
  | .statusWord t => Sys2Proof.Machine.execStatusWord t s
  | .readVin t => Sys2Proof.Machine.execReadVin t s
  | .readIin t => Sys2Proof.Machine.execReadIin t s
  | .readTemperature1 t => Sys2Proof.Machine.execReadTemperature1 t s
  | .readTemperature2 t => Sys2Proof.Machine.execReadTemperature2 t s
  | .readPin t => Sys2Proof.Machine.execReadPin t s
  | .pmbusRevision t => Sys2Proof.Machine.execPmbusRevision t s
  | .mfrId t => Sys2Proof.Machine.execMfrId t s
  | .mfrModel t => Sys2Proof.Machine.execMfrModel t s
  | .mfrSerial t => Sys2Proof.Machine.execMfrSerial t s
  | .pmbusOtherWrite t code data => Sys2Proof.Machine.execPmbusOtherWrite t code data s
  | .connectionTest t p detect answered => Sys2Proof.Machine.execConnectionTest t p detect answered s
  | .controlAcknowledgement t p ident conns maxRate minNs fmt => Sys2Proof.Machine.execControlAcknowledgement t p ident conns maxRate minNs fmt s
  | .controlAckTimeout t p => Sys2Proof.Machine.execControlAckTimeout t p s
  | .linkTestDone t p ok => Sys2Proof.Machine.execLinkTestDone t p ok s
  | .camLinkLoss t p => Sys2Proof.Machine.execCamLinkLoss t p s
  | .camHeartbeatTimeout t p => Sys2Proof.Machine.execCamHeartbeatTimeout t p s
  | .streamDataPacket t p lane idx crcOk data => Sys2Proof.Machine.execStreamDataPacket t p lane idx crcOk data s
  | .camHeartbeat t p => Sys2Proof.Machine.execCamHeartbeat t p s
  | .eventPacket t p payload => Sys2Proof.Machine.execEventPacket t p payload s
  | .otherPacket t p => Sys2Proof.Machine.execOtherPacket t p s
  | .positionTrigger t p => Sys2Proof.Machine.execPositionTrigger t p s
  | .timeTrigger t p => Sys2Proof.Machine.execTimeTrigger t p s
  | .diTrigger t p => Sys2Proof.Machine.execDiTrigger t p s
  | .lineLate t p => Sys2Proof.Machine.execLineLate t p s
  | .lineEnd t p => Sys2Proof.Machine.execLineEnd t p s
  | .stopWaitEnd t p => Sys2Proof.Machine.execStopWaitEnd t p s
  | .pcamLineEnd t idx ago edges => Sys2Proof.Machine.execPcamLineEnd t idx ago edges s
  | .cc0PulseEnd t => Sys2Proof.Machine.execCc0PulseEnd t s
  | .pcamSerdataWrite t ini v => Sys2Proof.Machine.execPcamSerdataWrite t ini v s
  | .pcamSerdataRead t ini => Sys2Proof.Machine.execPcamSerdataRead t ini s
  | .serialByteReceived t b => Sys2Proof.Machine.execSerialByteReceived t b s
  | .patchJudged t p part k => Sys2Proof.Machine.execPatchJudged t p part k s
  | .clmTload t ini v => Sys2Proof.Machine.execClmTload t ini v s
  | .clmTloadDone t => Sys2Proof.Machine.execClmTloadDone t s
  | .intakeFirstPixel t p => Sys2Proof.Machine.execIntakeFirstPixel t p s
  | .lineVerdict t p corr unc retry fail => Sys2Proof.Machine.execLineVerdict t p corr unc retry fail s
  | .groupCommit t p part ri corr unc retry fail bad => Sys2Proof.Machine.execGroupCommit t p part ri corr unc retry fail bad s
  | .tanRingRel t ini v => Sys2Proof.Machine.execTanRingRel t ini v s
  | .tanArtDb t ini v => Sys2Proof.Machine.execTanArtDb t ini v s
  | .decodeDone t => Sys2Proof.Machine.execDecodeDone t s
  | .tanDictLoad t ini v => Sys2Proof.Machine.execTanDictLoad t ini v s
  | .dictLoadDone t => Sys2Proof.Machine.execDictLoadDone t s
  | .tanTxtqWr t ini v => Sys2Proof.Machine.execTanTxtqWr t ini v s
  | .textRecord t => Sys2Proof.Machine.execTextRecord t s
  | .dramRead t ini a n kind bad => Sys2Proof.Machine.execDramRead t ini a n kind bad s
  | .dramWrite t ini a data poisoned => Sys2Proof.Machine.execDramWrite t ini a data poisoned s
  | .scrubRead t bad => Sys2Proof.Machine.execScrubRead t bad s
  | .drain t ini n v => Sys2Proof.Machine.execDrain t ini n v s
  | .drainDone t n => Sys2Proof.Machine.execDrainDone t n s
  | .mem4LogRd t ini v => Sys2Proof.Machine.execMem4LogRd t ini v s
  | .arm t ini v => Sys2Proof.Machine.execArm t ini v s
  | .tileDispatch t c ups ecc => Sys2Proof.Machine.execTileDispatch t c ups ecc s
  | .tileEnd t c => Sys2Proof.Machine.execTileEnd t c s
  | .tileHung t c => Sys2Proof.Machine.execTileHung t c s
  | .add c pr body => Sys2Proof.Machine.execAdd c pr body s
  | .addi c pr body => Sys2Proof.Machine.execAddi c pr body s
  | .sub c pr body => Sys2Proof.Machine.execSub c pr body s
  | .mul c pr body => Sys2Proof.Machine.execMul c pr body s
  | .mulh c pr body => Sys2Proof.Machine.execMulh c pr body s
  | .mulhu c pr body => Sys2Proof.Machine.execMulhu c pr body s
  | .div c pr body => Sys2Proof.Machine.execDiv c pr body s
  | .divu c pr body => Sys2Proof.Machine.execDivu c pr body s
  | .rem c pr body => Sys2Proof.Machine.execRem c pr body s
  | .remu c pr body => Sys2Proof.Machine.execRemu c pr body s
  | .and c pr body => Sys2Proof.Machine.execAnd c pr body s
  | .andi c pr body => Sys2Proof.Machine.execAndi c pr body s
  | .or c pr body => Sys2Proof.Machine.execOr c pr body s
  | .ori c pr body => Sys2Proof.Machine.execOri c pr body s
  | .xor c pr body => Sys2Proof.Machine.execXor c pr body s
  | .xori c pr body => Sys2Proof.Machine.execXori c pr body s
  | .sll c pr body => Sys2Proof.Machine.execSll c pr body s
  | .slli c pr body => Sys2Proof.Machine.execSlli c pr body s
  | .srl c pr body => Sys2Proof.Machine.execSrl c pr body s
  | .srli c pr body => Sys2Proof.Machine.execSrli c pr body s
  | .sra c pr body => Sys2Proof.Machine.execSra c pr body s
  | .srai c pr body => Sys2Proof.Machine.execSrai c pr body s
  | .min c pr body => Sys2Proof.Machine.execMin c pr body s
  | .mini c pr body => Sys2Proof.Machine.execMini c pr body s
  | .max c pr body => Sys2Proof.Machine.execMax c pr body s
  | .maxi c pr body => Sys2Proof.Machine.execMaxi c pr body s
  | .minu c pr body => Sys2Proof.Machine.execMinu c pr body s
  | .maxu c pr body => Sys2Proof.Machine.execMaxu c pr body s
  | .sel c pr body => Sys2Proof.Machine.execSel c pr body s
  | .clz c pr body => Sys2Proof.Machine.execClz c pr body s
  | .popc c pr body => Sys2Proof.Machine.execPopc c pr body s
  | .li c pr body => Sys2Proof.Machine.execLi c pr body s
  | .lih c pr body => Sys2Proof.Machine.execLih c pr body s
  | .cmpEq c pr body => Sys2Proof.Machine.execCmpEq c pr body s
  | .cmpNe c pr body => Sys2Proof.Machine.execCmpNe c pr body s
  | .cmpLt c pr body => Sys2Proof.Machine.execCmpLt c pr body s
  | .cmpLtu c pr body => Sys2Proof.Machine.execCmpLtu c pr body s
  | .cmpGe c pr body => Sys2Proof.Machine.execCmpGe c pr body s
  | .cmpGeu c pr body => Sys2Proof.Machine.execCmpGeu c pr body s
  | .cmpiEq c pr body => Sys2Proof.Machine.execCmpiEq c pr body s
  | .cmpiNe c pr body => Sys2Proof.Machine.execCmpiNe c pr body s
  | .cmpiLt c pr body => Sys2Proof.Machine.execCmpiLt c pr body s
  | .cmpiLtu c pr body => Sys2Proof.Machine.execCmpiLtu c pr body s
  | .cmpiGe c pr body => Sys2Proof.Machine.execCmpiGe c pr body s
  | .cmpiGeu c pr body => Sys2Proof.Machine.execCmpiGeu c pr body s
  | .pand c pr body => Sys2Proof.Machine.execPand c pr body s
  | .por c pr body => Sys2Proof.Machine.execPor c pr body s
  | .pxor c pr body => Sys2Proof.Machine.execPxor c pr body s
  | .pandn c pr body => Sys2Proof.Machine.execPandn c pr body s
  | .amov c pr body => Sys2Proof.Machine.execAmov c pr body s
  | .aadd c pr body => Sys2Proof.Machine.execAadd c pr body s
  | .aaddi c pr body => Sys2Proof.Machine.execAaddi c pr body s
  | .amovs c pr body => Sys2Proof.Machine.execAmovs c pr body s
  | .alocal c pr body => Sys2Proof.Machine.execAlocal c pr body s
  | .br c pr body => Sys2Proof.Machine.execBr c pr body s
  | .jr c pr body => Sys2Proof.Machine.execJr c pr body s
  | .call c pr body => Sys2Proof.Machine.execCall c pr body s
  | .ret c pr body => Sys2Proof.Machine.execRet c pr body s
  | .loop c pr body => Sys2Proof.Machine.execLoop c pr body s
  | .ldB c pr body => Sys2Proof.Machine.execLdB c pr body s
  | .ldBu c pr body => Sys2Proof.Machine.execLdBu c pr body s
  | .ldH c pr body => Sys2Proof.Machine.execLdH c pr body s
  | .ldHu c pr body => Sys2Proof.Machine.execLdHu c pr body s
  | .ldW c pr body => Sys2Proof.Machine.execLdW c pr body s
  | .ldWu c pr body => Sys2Proof.Machine.execLdWu c pr body s
  | .ldD c pr body => Sys2Proof.Machine.execLdD c pr body s
  | .stB c pr body => Sys2Proof.Machine.execStB c pr body s
  | .stH c pr body => Sys2Proof.Machine.execStH c pr body s
  | .stW c pr body => Sys2Proof.Machine.execStW c pr body s
  | .stD c pr body => Sys2Proof.Machine.execStD c pr body s
  | .vld c pr body => Sys2Proof.Machine.execVld c pr body s
  | .vst c pr body => Sys2Proof.Machine.execVst c pr body s
  | .xld c pr body => Sys2Proof.Machine.execXld c pr body s
  | .xst c pr body => Sys2Proof.Machine.execXst c pr body s
  | .xcp c pr body => Sys2Proof.Machine.execXcp c pr body s
  | .nop c pr body => Sys2Proof.Machine.execNop c pr body s
  | .endTile c pr body => Sys2Proof.Machine.execEndTile c pr body s
  | .trap c pr body => Sys2Proof.Machine.execTrap c pr body s
  | .wait c pr body => Sys2Proof.Machine.execWait c pr body s
  | .xpf c pr body => Sys2Proof.Machine.execXpf c pr body s
  | .vadd c pr body => Sys2Proof.Machine.execVadd c pr body s
  | .vsub c pr body => Sys2Proof.Machine.execVsub c pr body s
  | .vmul c pr body => Sys2Proof.Machine.execVmul c pr body s
  | .vfma c pr body => Sys2Proof.Machine.execVfma c pr body s
  | .vmin c pr body => Sys2Proof.Machine.execVmin c pr body s
  | .vmax c pr body => Sys2Proof.Machine.execVmax c pr body s
  | .vabs c pr body => Sys2Proof.Machine.execVabs c pr body s
  | .vneg c pr body => Sys2Proof.Machine.execVneg c pr body s
  | .vand c pr body => Sys2Proof.Machine.execVand c pr body s
  | .vor c pr body => Sys2Proof.Machine.execVor c pr body s
  | .vxor c pr body => Sys2Proof.Machine.execVxor c pr body s
  | .vshl c pr body => Sys2Proof.Machine.execVshl c pr body s
  | .vshr c pr body => Sys2Proof.Machine.execVshr c pr body s
  | .vsra c pr body => Sys2Proof.Machine.execVsra c pr body s
  | .vcmpEq c pr body => Sys2Proof.Machine.execVcmpEq c pr body s
  | .vcmpLt c pr body => Sys2Proof.Machine.execVcmpLt c pr body s
  | .vcmpLe c pr body => Sys2Proof.Machine.execVcmpLe c pr body s
  | .vcmpNe c pr body => Sys2Proof.Machine.execVcmpNe c pr body s
  | .vsel c pr body => Sys2Proof.Machine.execVsel c pr body s
  | .vcvt c pr body => Sys2Proof.Machine.execVcvt c pr body s
  | .vwid c pr body => Sys2Proof.Machine.execVwid c pr body s
  | .vnar c pr body => Sys2Proof.Machine.execVnar c pr body s
  | .vqsx c pr body => Sys2Proof.Machine.execVqsx c pr body s
  | .vbcast c pr body => Sys2Proof.Machine.execVbcast c pr body s
  | .vmovi c pr body => Sys2Proof.Machine.execVmovi c pr body s
  | .vperm c pr body => Sys2Proof.Machine.execVperm c pr body s
  | .vgetf c pr body => Sys2Proof.Machine.execVgetf c pr body s
  | .vclrf c pr body => Sys2Proof.Machine.execVclrf c pr body s
  | .vredsum c pr body => Sys2Proof.Machine.execVredsum c pr body s
  | .vredmax c pr body => Sys2Proof.Machine.execVredmax c pr body s
  | .vredmin c pr body => Sys2Proof.Machine.execVredmin c pr body s
  | .vexp2 c pr body => Sys2Proof.Machine.execVexp2 c pr body s
  | .vlog2 c pr body => Sys2Proof.Machine.execVlog2 c pr body s
  | .vrcp c pr body => Sys2Proof.Machine.execVrcp c pr body s
  | .vrsqrt c pr body => Sys2Proof.Machine.execVrsqrt c pr body s
  | .vsqrt c pr body => Sys2Proof.Machine.execVsqrt c pr body s
  | .vdiv c pr body => Sys2Proof.Machine.execVdiv c pr body s
  | .vtanh c pr body => Sys2Proof.Machine.execVtanh c pr body s
  | .vsigm c pr body => Sys2Proof.Machine.execVsigm c pr body s
  | .verf c pr body => Sys2Proof.Machine.execVerf c pr body s
  | .gfAdd c pr body => Sys2Proof.Machine.execGfAdd c pr body s
  | .gfMul c pr body => Sys2Proof.Machine.execGfMul c pr body s
  | .gfMac c pr body => Sys2Proof.Machine.execGfMac c pr body s
  | .gfHorner c pr body => Sys2Proof.Machine.execGfHorner c pr body s
  | .gfInv c pr body => Sys2Proof.Machine.execGfInv c pr body s
  | .gfExp c pr body => Sys2Proof.Machine.execGfExp c pr body s
  | .gfLog c pr body => Sys2Proof.Machine.execGfLog c pr body s
  | .gfMulc c pr body => Sys2Proof.Machine.execGfMulc c pr body s
  | .mma c pr body => Sys2Proof.Machine.execMma c pr body s
  | .acczero c pr body => Sys2Proof.Machine.execAcczero c pr body s
  | .accst c pr body => Sys2Proof.Machine.execAccst c pr body s
  | .accld c pr body => Sys2Proof.Machine.execAccld c pr body s
  | .acc2v c pr body => Sys2Proof.Machine.execAcc2v c pr body s
  | .v2acc c pr body => Sys2Proof.Machine.execV2acc c pr body s
  | .convolution t x => Sys2Proof.Machine.execConvolution t x s
  | .pooling t x => Sys2Proof.Machine.execPooling t x s
  | .upSampling t x => Sys2Proof.Machine.execUpSampling t x s
  | .partialReduction t x => Sys2Proof.Machine.execPartialReduction t x s
  | .stripeGroup t x => Sys2Proof.Machine.execStripeGroup t x s
  | .stripeStart t x k => Sys2Proof.Machine.execStripeStart t x k s
  | .projection t x => Sys2Proof.Machine.execProjection t x s
  | .attention t x => Sys2Proof.Machine.execAttention t x s
  | .seqOpen t x => Sys2Proof.Machine.execSeqOpen t x s
  | .fork t x => Sys2Proof.Machine.execFork t x s
  | .close t x => Sys2Proof.Machine.execClose t x s
  | .pageCopyDone t q e => Sys2Proof.Machine.execPageCopyDone t q e s
  | .swapOutDone t v => Sys2Proof.Machine.execSwapOutDone t v s
  | .swapInDone t q ok data => Sys2Proof.Machine.execSwapInDone t q ok data s
  | .exchange t x => Sys2Proof.Machine.execExchange t x s
  | .barrier t x => Sys2Proof.Machine.execBarrier t x s
  | .schQDb t ini q v => Sys2Proof.Machine.execSchQDb t ini q v s
  | .commandFetch t q => Sys2Proof.Machine.execCommandFetch t q s
  | .commandComplete t x => Sys2Proof.Machine.execCommandComplete t x s
  | .qen t ini q v => Sys2Proof.Machine.execQen t ini q v s
  | .keyRecompute t => Sys2Proof.Machine.execKeyRecompute t s
  | .commandDeadlinePassed t x => Sys2Proof.Machine.execCommandDeadlinePassed t x s
  | .checkReport t p part c verdict status => Sys2Proof.Machine.execCheckReport t p part c verdict status s
  | .verdictDeadline t p k => Sys2Proof.Machine.execVerdictDeadline t p k s
  | .ctxLoad t ini k => Sys2Proof.Machine.execCtxLoad t ini k s
  | .unload t ini k => Sys2Proof.Machine.execUnload t ini k s
  | .contextLoadDone t k => Sys2Proof.Machine.execContextLoadDone t k s
  | .schSrqWr t ini k v => Sys2Proof.Machine.execSchSrqWr t ini k v s
  | .batchWaitExpiry t k => Sys2Proof.Machine.execBatchWaitExpiry t k s
  | .batchSlackExpiry t k => Sys2Proof.Machine.execBatchSlackExpiry t k s
  | .write t a src addr tag poison data => Sys2Proof.Machine.execWrite t a src addr tag poison data s
  | .writeAck t a src tag st => Sys2Proof.Machine.execWriteAck t a src tag st s
  | .arrive t a src num gen mask => Sys2Proof.Machine.execArrive t a src num gen mask s
  | .release t a num gen time bad => Sys2Proof.Machine.execRelease t a num gen time bad s
  | .barrierReleaseTime t num => Sys2Proof.Machine.execBarrierReleaseTime t num s
  | .announce t a num port pos cfg contract => Sys2Proof.Machine.execAnnounce t a num port pos cfg contract s
  | .vote t a src num cause out act => Sys2Proof.Machine.execVote t a src num cause out act s
  | .voteTimeout t => Sys2Proof.Machine.execVoteTimeout t s
  | .commit t a num out acts => Sys2Proof.Machine.execCommit t a num out acts s
  | .abort t a num cause refuser => Sys2Proof.Machine.execAbort t a num cause refuser s
  | .epochApply t => Sys2Proof.Machine.execEpochApply t s
  | .jobEnded t => Sys2Proof.Machine.execJobEnded t s
  | .lnkEpochGo t ini v => Sys2Proof.Machine.execLnkEpochGo t ini v s
  | .upgradeReport t a src ok => Sys2Proof.Machine.execUpgradeReport t a src ok s
  | .upgradeTimeout t => Sys2Proof.Machine.execUpgradeTimeout t s
  | .position t a p cnt spd sample => Sys2Proof.Machine.execPosition t a p cnt spd sample s
  | .positionSend t => Sys2Proof.Machine.execPositionSend t s
  | .timeFrame t a value trips => Sys2Proof.Machine.execTimeFrame t a value trips s
  | .timeSend t => Sys2Proof.Machine.execTimeSend t s
  | .members t a joined serving => Sys2Proof.Machine.execMembers t a joined serving s
  | .snapFrame t a p pos => Sys2Proof.Machine.execSnapFrame t a p pos s
  | .systemSnapshot t => Sys2Proof.Machine.execSystemSnapshot t s
  | .lnkSsnapGo t ini v => Sys2Proof.Machine.execLnkSsnapGo t ini v s
  | .hello t a major minor sysid pos topo modules clk => Sys2Proof.Machine.execHello t a major minor sysid pos topo modules clk s
  | .helloRetry t a => Sys2Proof.Machine.execHelloRetry t a s
  | .heartbeat t a src => Sys2Proof.Machine.execHeartbeat t a src s
  | .heartbeatSend t => Sys2Proof.Machine.execHeartbeatSend t s
  | .resetReq t a src => Sys2Proof.Machine.execResetReq t a src s
  | .subverdict t a src part p c verdict degraded => Sys2Proof.Machine.execSubverdict t a src part p c verdict degraded s
  | .lack t a n => Sys2Proof.Machine.execLack t a n s
  | .lnak t a n => Sys2Proof.Machine.execLnak t a n s
  | .frameForward t a type src dest arg tag poison crcOk data => Sys2Proof.Machine.execFrameForward t a type src dest arg tag poison crcOk data s
  | .linkPortTimeout t a => Sys2Proof.Machine.execLinkPortTimeout t a s
  | .moduleLost t m => Sys2Proof.Machine.execModuleLost t m s
  | .module0Lost t => Sys2Proof.Machine.execModule0Lost t s
  | .recoveredClockLock t => Sys2Proof.Machine.execRecoveredClockLock t s
  | .recoveredClockLoss t => Sys2Proof.Machine.execRecoveredClockLoss t s
  | .lnkAssign t ini v => Sys2Proof.Machine.execLnkAssign t ini v s
  | .lnkResetreq t ini v => Sys2Proof.Machine.execLnkResetreq t ini v s
  | .selftest t ini c v => Sys2Proof.Machine.execSelftest t ini c v s
  | .selftestDone t c pass => Sys2Proof.Machine.execSelftestDone t c pass s
  | .encoderEdge t p a b held => Sys2Proof.Machine.execEncoderEdge t p a b held s
  | .uncertainExpiry t p => Sys2Proof.Machine.execUncertainExpiry t p s
  | .faultNowExpiry t p => Sys2Proof.Machine.execFaultNowExpiry t p s
  | .wireBreak t p pair => Sys2Proof.Machine.execWireBreak t p pair s
  | .indexEdge t p held => Sys2Proof.Machine.execIndexEdge t p held s
  | .ssiReadStart t p lineOne => Sys2Proof.Machine.execSsiReadStart t p lineOne s
  | .ssiReadDone t p startBit word idleOk => Sys2Proof.Machine.execSsiReadDone t p startBit word idleOk s
  | .standstill t p => Sys2Proof.Machine.execStandstill t p s
  | .probeEdge t k rising => Sys2Proof.Machine.execProbeEdge t k rising s
  | .fioPrbRecRead t ini k => Sys2Proof.Machine.execFioPrbRecRead t ini k s
  | .partStart t p => Sys2Proof.Machine.execPartStart t p s
  | .slotFire t p k => Sys2Proof.Machine.execSlotFire t p k s
  | .earliestFiringDoubt t p k => Sys2Proof.Machine.execEarliestFiringDoubt t p k s
  | .ejtXopen t ini p v => Sys2Proof.Machine.execEjtXopen t ini p v s
  | .ejtCommit t ini p v => Sys2Proof.Machine.execEjtCommit t ini p v s
  | .ejtFire t ini p v => Sys2Proof.Machine.execEjtFire t ini p v s
  | .diSample t levels => Sys2Proof.Machine.execDiSample t levels s
  | .outputPulseEnd t n => Sys2Proof.Machine.execOutputPulseEnd t n s
  | .outputOverload t n thermal => Sys2Proof.Machine.execOutputOverload t n thermal s
  | .encoderSupplyLimit t n => Sys2Proof.Machine.execEncoderSupplyLimit t n s
  | .strobePulseEnd t b => Sys2Proof.Machine.execStrobePulseEnd t b s
  | .timIncNs t ini v => Sys2Proof.Machine.execTimIncNs t ini v s
  | .timSet t ini v => Sys2Proof.Machine.execTimSet t ini v s
  | .timStep t ini v => Sys2Proof.Machine.execTimStep t ini v s
  | .servoMark t ini v => Sys2Proof.Machine.execServoMark t ini v s
  | .timNowNs t ini => Sys2Proof.Machine.execTimNowNs t ini s
  | .tickMonitorWindow t ticks => Sys2Proof.Machine.execTickMonitorWindow t ticks s
  | .holdover t => Sys2Proof.Machine.execHoldover t s
  | .generatorInstant t k => Sys2Proof.Machine.execGeneratorInstant t k s
  | .captureEdge t c src rising ago => Sys2Proof.Machine.execCaptureEdge t c src rising ago s
  | .timCapRecRead t ini c => Sys2Proof.Machine.execTimCapRecRead t ini c s
  | .timPtpRecRead t ini p rx => Sys2Proof.Machine.execTimPtpRecRead t ini p rx s
  | .stageDue t p k stage => Sys2Proof.Machine.execStageDue t p k stage s
  | .stage7HeartbeatMissing t src => Sys2Proof.Machine.execStage7HeartbeatMissing t src s
  | .stage7Persist t k missing => Sys2Proof.Machine.execStage7Persist t k missing s
  | .outputMismatch t n => Sys2Proof.Machine.execOutputMismatch t n s
  | .safeResetDelay t => Sys2Proof.Machine.execSafeResetDelay t s
  | .fallbackResult t p part => Sys2Proof.Machine.execFallbackResult t p part s
  | .fallbackFault t => Sys2Proof.Machine.execFallbackFault t s
  | .restore t ini v => Sys2Proof.Machine.execRestore t ini v s
  | .test t ini v => Sys2Proof.Machine.execTest t ini v s
  | .halterKick t => Sys2Proof.Machine.execHalterKick t s
  | .halterKickTimeout t => Sys2Proof.Machine.execHalterKickTimeout t s
  | .lockstepMismatch t => Sys2Proof.Machine.execLockstepMismatch t s
  | .halterClockFault t => Sys2Proof.Machine.execHalterClockFault t s
  | .halterEscalationReset t => Sys2Proof.Machine.execHalterEscalationReset t s
  | .hltFbLoad t ini v => Sys2Proof.Machine.execHltFbLoad t ini v s
  | .fbLoadDone t => Sys2Proof.Machine.execFbLoadDone t s
  | .hltFwReqGo t ini v => Sys2Proof.Machine.execHltFwReqGo t ini v s
  | .pwrSleep t ini v => Sys2Proof.Machine.execPwrSleep t ini v s
  | .sleepEntered t => Sys2Proof.Machine.execSleepEntered t s
  | .wake t src => Sys2Proof.Machine.execWake t src s
  | .exitStepReady t => Sys2Proof.Machine.execExitStepReady t s
  | .exitStepTimeout t => Sys2Proof.Machine.execExitStepTimeout t s
  | .pwrDbell t ini v => Sys2Proof.Machine.execPwrDbell t ini v s
  | .domainPowerUp t n => Sys2Proof.Machine.execDomainPowerUp t n s
  | .domainPowerDown t n => Sys2Proof.Machine.execDomainPowerDown t n s
  | .pwrMcCtrl t ini v => Sys2Proof.Machine.execPwrMcCtrl t ini v s
  | .coreWaitForInterrupt t k => Sys2Proof.Machine.execCoreWaitForInterrupt t k s
  | .pwrRelease t ini hi v => Sys2Proof.Machine.execPwrRelease t ini hi v s
  | .opTargetChange t c => Sys2Proof.Machine.execOpTargetChange t c s
  | .avsAck t r => Sys2Proof.Machine.execAvsAck t r s
  | .avsTimeout t r => Sys2Proof.Machine.execAvsTimeout t r s
  | .powerSample t mw => Sys2Proof.Machine.execPowerSample t mw s
  | .capPeriod t est other temps => Sys2Proof.Machine.execCapPeriod t est other temps s
  | .slopeWindow t => Sys2Proof.Machine.execSlopeWindow t s
  | .droopDetect t r below => Sys2Proof.Machine.execDroopDetect t r below s
  | .droopEnd t r below => Sys2Proof.Machine.execDroopEnd t r below s
  | .throttleStep t temps => Sys2Proof.Machine.execThrottleStep t temps s
  | .throttleRiseStep t temps => Sys2Proof.Machine.execThrottleRiseStep t temps s
  | .hardThermal t temps => Sys2Proof.Machine.execHardThermal t temps s
  | .cdrLock t m => Sys2Proof.Machine.execCdrLock t m s
  | .cdrLockLoss t m sig => Sys2Proof.Machine.execCdrLockLoss t m sig s
  | .retrain t ini m v => Sys2Proof.Machine.execRetrain t ini m v s
  | .laneTrained t m r => Sys2Proof.Machine.execLaneTrained t m r s
  | .sdsTest t ini m v => Sys2Proof.Machine.execSdsTest t ini m v s
  | .inj t ini m v => Sys2Proof.Machine.execInj t ini m v s
  | .ethFrameReceive t p f fcsOk => Sys2Proof.Machine.execEthFrameReceive t p f fcsOk s
  | .ethFrameTransmit t p => Sys2Proof.Machine.execEthFrameTransmit t p s
  | .pcieConfigRequest t wr off v => Sys2Proof.Machine.execPcieConfigRequest t wr off v s
  | .pcieBar0Request t wr off len v => Sys2Proof.Machine.execPcieBar0Request t wr off len v s
  | .pcieBar2Request t wr off len data poisoned => Sys2Proof.Machine.execPcieBar2Request t wr off len data poisoned s
  | .pcieLinkDown t => Sys2Proof.Machine.execPcieLinkDown t s
  | .dmaHeadLo t ini n v => Sys2Proof.Machine.execDmaHeadLo t ini n v s
  | .dmaKick t ini n v => Sys2Proof.Machine.execDmaKick t ini n v s
  | .descriptorFetch t n => Sys2Proof.Machine.execDescriptorFetch t n s
  | .segmentDone t n data poison => Sys2Proof.Machine.execSegmentDone t n data poison s
  | .transferComplete t n => Sys2Proof.Machine.execTransferComplete t n s
  | .dmaBusError t n wr a st data => Sys2Proof.Machine.execDmaBusError t n wr a st data s
  | .haltedClear t ini n => Sys2Proof.Machine.execHaltedClear t ini n s
  | .dmaBudgetWindow t => Sys2Proof.Machine.execDmaBudgetWindow t s
  | .frameBadCrc t a gap => Sys2Proof.Machine.execFrameBadCrc t a gap s
  | .wireBreakEnd t p pair => Sys2Proof.Machine.execWireBreakEnd t p pair s
  | .encoderSupplyLimitEnd t n => Sys2Proof.Machine.execEncoderSupplyLimitEnd t n s
  | .serialByteSent t => Sys2Proof.Machine.execSerialByteSent t s
  | .halterDoubleBitError t => Sys2Proof.Machine.execHalterDoubleBitError t s
  | .checkerSyncGain t m => Sys2Proof.Machine.execCheckerSyncGain t m s
  | .checkerSyncLoss t m errs => Sys2Proof.Machine.execCheckerSyncLoss t m errs s
  | .pciePerstRelease t => Sys2Proof.Machine.execPciePerstRelease t s
  | .rstNRelease t => Sys2Proof.Machine.execRstNRelease t s
  | .vcxpChange t ok => Sys2Proof.Machine.execVcxpChange t ok s
  | .stpPosLoRead t ini p => Sys2Proof.Machine.execStpPosLoRead t ini p s
  | .pcieBar4Request t wr off v => Sys2Proof.Machine.execPcieBar4Request t wr off v s
  | .blockLockLoss t p hi => Sys2Proof.Machine.execBlockLockLoss t p hi s

end Sys2Proof.Machine
end

