-- ==== Sys2Proof/Machine/Step.lean ====
section
/-!
DEFINITION. One step of the module: the command at the front of the queue, or one tick of 2 ns while none waits.
-/

namespace Sys2Proof.Machine

/-- The effect of the command at the front of the queue on the state with the queue's rest; an empty queue lets one tick of the
500 MHz clock pass. -/
def step (s : State) : Host.Outcome State Fault Refusal :=
  match s.pending with
  | [] => .next (s.at (s.now + 2))
  | c :: r => exec c { s with pending := r }

/-- The state with the command that a table word spells put at the front of its queue; no row of the table gives bits, so no word
spells a command. -/
def State.withFetchWord (s : State) (nbits w : Nat) : State :=
  match Sys2Proof.decodeTableWord nbits w with
  | some c => { s with pending := c :: s.pending }
  | none => s

end Sys2Proof.Machine
end

