-- ==== Sys2Proof/Safety.lean ====
section
/-!
DEFINITION. The terms claims use: a command that completes, the canonical form of the stores, and the next state of a Tack
instruction that issues without incident.
-/

namespace Sys2Proof.Machine

/-- The command completes: it answers a next state, of which `P` holds. -/
def Completes (c : Instr) (s : State) (P : State → Prop) : Prop := ∃ t, exec c s = .next t ∧ P t

/-- No event queue is enabled: an event then writes no record (R588). -/
abbrev State.Quiet (s : State) : Prop := ∀ q < 4, s.rd bEVQ (EVQ_Q_CFG_QEN q) = 0

/-- The stores of bytes, counters, poison marks and latent errors are in canonical form: keys strictly rising, no entry equal to what an
unlisted key reads as. -/
def State.Canonical (s : State) : Prop :=
  Memory.wf s.mem = true ∧ Store.wf 0#32 s.live = true ∧ Store.wf false s.poison = true ∧ Store.wf 0 s.errs = true

/-- What a reset that latches the bits `cause` leaves (R63-R65): the module is in reset, every register outside the reset controller reads
its reset value, the flash keeps its contents, the DRAM and the scratchpads do not, and the waiting commands wait on.  A reset of the
whole module clears the retention SRAM too; one of system scope keeps it, and the reset controller's own record. -/
def ResetTaken (cause : List Fld) (whole : Bool) (s t : State) : Prop :=
  t.sys.inReset = true ∧ (∀ f ∈ cause, t.rd bRST f = 1) ∧ t.pending = s.pending ∧
  (∀ (b : Nat) (f : Fld), b ≠ bRST → f.off < 1048576 → f.lo < 32 → f.rst < 2 ^ 32 → t.rd b f = f.rst) ∧
  (∀ a, flashBase ≤ a → t.byte a = s.byte a) ∧
  (∀ a, a < flashBase → inRet a = false → t.byte a = 0) ∧
  (∀ a, inRet a = true → t.byte a = if whole then 0 else s.byte a) ∧
  (whole = false → ∀ f : Fld, rstKept f.off = true → f.off < 1048576 → f.lo < 32 → (∀ g ∈ cause, fkey bRST f ≠ fkey bRST g) →
    t.rd bRST f = s.rd bRST f)

/-! ### Tack -/

/-- Every scalar and address register of a tile fits its 64 bits. -/
abbrev Tile.InRange (t : Tile) : Prop := (∀ e ∈ t.s, e.2 < 2 ^ 64) ∧ (∀ e ∈ t.a, e.2 < 2 ^ 64)

/-- Nothing has upset the tile's data: every residue is that of its data (R282), and no upset waits. -/
abbrev Tile.Sound (t : Tile) : Prop := t.off = [] ∧ t.ups = []

/-- Every tile of the module has its registers in range. -/
def State.TilesInRange (s : State) : Prop := ∀ e ∈ s.clu, ∀ t, e.2.tile = some t → t.InRange

/-- Scalar and address registers as 64-bit values, and the extended immediate. -/
def Tile.x (t : Tile) (n : Nat) : BitVec 64 := BitVec.ofNat 64 (t.sreg n)
def Tile.y (t : Tile) (n : Nat) : BitVec 64 := BitVec.ofNat 64 (t.areg n)
def immX (body : BitVec 48) : BitVec 64 := (BitVec.ofNat 32 (fIMM body.toNat)).signExtend 64

/-- The state and the tile once an instruction is fetched, its cost added to the work count, and upsets of stored rows that are due have
struck. -/
def State.issued (s : State) (c : Nat) (t : Tile) (cost : Nat) : State × Tile :=
  let r := (s.fetchWord c t).1.addWork c t cost
  (r.1, r.2.struck)

/-- Cluster `c`'s tile `t` stands at an instruction with this word, which is fetched without error, whose predicate is true (R219), and
whose cost keeps the work limit (R236). -/
def Issues (s : State) (c : Nat) (t : Tile) (grp func cost : Nat) (pr : BitVec 4) (body : BitVec 48) : Bool :=
  decide (s.tileOf c = some t) && !t.ended && s.codeWord c t == opWord grp func pr.toNat body.toNat &&
  (s.fetchWord c t).2.1 == 0 && t.executes pr.toNat && decide (t.work + cost ≤ 1600)

/-- After an instruction that leaves tile `t`, execution goes on at index `next`, or at the start of a loop's body: the index lies in the
code object and holds an instruction of a listed function. -/
def Lands (s : State) (c : Nat) (t : Tile) (next : Nat) : Bool :=
  decide ((t.stepLoop next).pc < t.len) && listedWord (s.codeWord c (t.stepLoop next))

/-- The state in which cluster `c` goes on at index `next` with tile `t`. -/
def State.placed (s : State) (c : Nat) (t : Tile) (next : Nat) : State := s.setTile c (some (t.stepLoop next))

/-- An instruction issues and execution goes on at the next index. -/
def Runs (s : State) (c : Nat) (t : Tile) (grp func cost : Nat) (pr : BitVec 4) (body : BitVec 48) : Bool :=
  Issues s c t grp func cost pr body && Lands (s.issued c t cost).1 c t (t.pc + 1)

/-- The state after an instruction that changes the tile by `g` and nothing else. -/
def State.after (s : State) (c : Nat) (t : Tile) (cost : Nat) (g : Tile → Tile) : State :=
  (s.issued c t cost).1.placed c (g (s.issued c t cost).2) (t.pc + 1)

/-- An instruction's command. -/
abbrev TackCmd := Nat → BitVec 4 → BitVec 48 → Instr

/-- The high half of a product of two values widened to 128 bits. -/
def hiHalf (a b : BitVec 128) : BitVec 64 := ((a * b) >>> 64).setWidth 64

/-- The number of ones. -/
def onesOf (a : BitVec 64) : BitVec 64 := BitVec.ofNat 64 ((List.range 64).filter (fun k => a.getLsbD k)).length

/-- The scalar operations of two registers: command, function, operation (R223, R224). -/
def scalarRows : List (TackCmd × Nat × (BitVec 64 → BitVec 64 → BitVec 64)) := [
  (.add, 0x01, fun a b => a + b), (.sub, 0x02, fun a b => a - b), (.mul, 0x03, fun a b => a * b),
  (.mulh, 0x04, fun a b => hiHalf (a.signExtend 128) (b.signExtend 128)), (.mulhu, 0x05, fun a b => hiHalf (a.setWidth 128) (b.setWidth 128)),
  (.div, 0x06, fun a b => if b = 0 then BitVec.allOnes 64 else a.sdiv b),
  (.divu, 0x07, fun a b => if b = 0 then BitVec.allOnes 64 else a / b),
  (.rem, 0x08, fun a b => if b = 0 then a else a.srem b), (.remu, 0x09, fun a b => if b = 0 then a else a % b),
  (.and, 0x0A, fun a b => a &&& b), (.or, 0x0B, fun a b => a ||| b), (.xor, 0x0C, fun a b => a ^^^ b),
  (.sll, 0x0D, fun a b => a <<< (b.toNat % 64)), (.srl, 0x0E, fun a b => a >>> (b.toNat % 64)),
  (.sra, 0x0F, fun a b => a.sshiftRight (b.toNat % 64)),
  (.min, 0x10, fun a b => if a.sle b then a else b), (.max, 0x11, fun a b => if a.sle b then b else a),
  (.minu, 0x12, fun a b => if a ≤ b then a else b), (.maxu, 0x13, fun a b => if a ≤ b then b else a)]

/-- The scalar operations of one register (R223). -/
def scalarRows1 : List (TackCmd × Nat × (BitVec 64 → BitVec 64)) := [
  (.clz, 0x15, fun a => a.clz), (.popc, 0x16, onesOf)]

/-- The scalar operations of a register and the immediate (R223). -/
def immRows : List (TackCmd × Nat × (BitVec 64 → BitVec 64 → BitVec 64)) := [
  (.addi, 0x01, fun a b => a + b), (.andi, 0x0A, fun a b => a &&& b), (.ori, 0x0B, fun a b => a ||| b), (.xori, 0x0C, fun a b => a ^^^ b),
  (.mini, 0x10, fun a b => if a.sle b then a else b), (.maxi, 0x11, fun a b => if a.sle b then b else a)]

/-- The shifts by an immediate below 64 (R223). -/
def shiftRows : List (TackCmd × Nat × (BitVec 64 → Nat → BitVec 64)) := [
  (.slli, 0x0D, fun a n => a <<< n), (.srli, 0x0E, fun a n => a >>> n), (.srai, 0x0F, fun a n => a.sshiftRight n)]

/-- The comparisons of two registers, and of a register and the immediate (R225). -/
def cmpRows : List (TackCmd × TackCmd × Nat × (BitVec 64 → BitVec 64 → Bool)) := [
  (.cmpEq, .cmpiEq, 1, fun a b => decide (a = b)), (.cmpNe, .cmpiNe, 2, fun a b => decide (a ≠ b)),
  (.cmpLt, .cmpiLt, 3, fun a b => a.slt b), (.cmpLtu, .cmpiLtu, 4, fun a b => a.ult b),
  (.cmpGe, .cmpiGe, 5, fun a b => b.sle a), (.cmpGeu, .cmpiGeu, 6, fun a b => b.ule a)]

/-- The operations of two predicates (R225). -/
def predRows : List (TackCmd × Nat × (Bool → Bool → Bool)) := [
  (.pand, 0x20, fun a b => a && b), (.por, 0x21, fun a b => a || b), (.pxor, 0x22, fun a b => a != b), (.pandn, 0x23, fun a b => a && !b)]

/-- The scalar loads: command, function, bytes, whether the value is sign-extended (R230). -/
def loadRows : List (TackCmd × Nat × Nat × Bool) := [
  (.ldB, 1, 1, true), (.ldBu, 2, 1, false), (.ldH, 3, 2, true), (.ldHu, 4, 2, false), (.ldW, 5, 4, true), (.ldWu, 6, 4, false), (.ldD, 7, 8, false)]

/-- The scalar stores: command, function, bytes (R230). -/
def storeRows : List (TackCmd × Nat × Nat) := [(.stB, 9, 1), (.stH, 10, 2), (.stW, 11, 4), (.stD, 12, 8)]

/-- Lane `i` of 32 bits of a vector register. -/
def Tile.laneBV (t : Tile) (n i : Nat) : BitVec 32 := BitVec.ofNat 32 (bits (t.vreg n) (32 * i) 32)

/-- A vector of 64 lanes. -/
def ofLanes (f : Nat → BitVec 32) : Nat := packLanes 32 ((List.range 64).map (fun i => (f i).toNat))

/-- The fields of format V that are not in use, and the reserved ones, are zero (R262). -/
def vClean (use : List VF) (body : BitVec 48) : Bool :=
  bits body.toNat 16 2 == 0 && (vfAll.filter (fun f => !use.contains f)).all (fun f => f.get body.toNat == 0)

/-- The mask a comparison gives. -/
def maskBV (p : Bool) : BitVec 32 := if p then BitVec.allOnes 32 else 0

/-- The lane operations with an FP32 and an INT32 meaning: command, function, operand fields, FP32 on codes with the flags, INT32 (R257,
R263, R264). -/
def laneRows : List (TackCmd × Nat × List VF × (Nat → Nat → Nat → Nat × Nat) × (BitVec 32 → BitVec 32 → BitVec 32 → BitVec 32)) := [
  (.vadd, 0x01, [.vb], fun a b _ => fpAdd fp32 a b, fun a b _ => a + b), (.vsub, 0x02, [.vb], fun a b _ => fpSub fp32 a b, fun a b _ => a - b),
  (.vmul, 0x03, [.vb], fun a b _ => fpMul fp32 a b, fun a b _ => a * b), (.vfma, 0x04, [.vb, .vc], fun a b d => fpFma fp32 a b d, fun a b d => a * b + d),
  (.vmin, 0x05, [.vb], fun a b _ => (fpMin a b, 0), fun a b _ => if a.sle b then a else b),
  (.vmax, 0x06, [.vb], fun a b _ => (fpMax a b, 0), fun a b _ => if a.sle b then b else a),
  (.vabs, 0x07, [], fun a _ _ => (if isNan a then nan32 else a % 2 ^ 31, 0), fun a _ _ => if a.msb then -a else a),
  (.vneg, 0x08, [], fun a _ _ => (if isNan a then nan32 else (BitVec.ofNat 32 a ^^^ 0x80000000#32).toNat, 0), fun a _ _ => -a),
  (.vcmpEq, 0x10, [.vb], fun a b _ => ((maskBV (fpEq (fpDecode fp32 a) (fpDecode fp32 b))).toNat, 0), fun a b _ => maskBV (a == b)),
  (.vcmpLt, 0x11, [.vb], fun a b _ => ((maskBV (fpLt (fpDecode fp32 a) (fpDecode fp32 b))).toNat, 0), fun a b _ => maskBV (a.slt b)),
  (.vcmpLe, 0x12, [.vb], fun a b _ => ((maskBV (fpLt (fpDecode fp32 a) (fpDecode fp32 b) || fpEq (fpDecode fp32 a) (fpDecode fp32 b))).toNat, 0),
    fun a b _ => maskBV (a.sle b)),
  (.vcmpNe, 0x13, [.vb], fun a b _ => ((maskBV (!fpEq (fpDecode fp32 a) (fpDecode fp32 b))).toNat, 0), fun a b _ => maskBV (a != b))]

/-- The lane operations on 32-bit lanes alone (R263). -/
def bitLaneRows : List (TackCmd × Nat × List VF × (BitVec 32 → BitVec 32 → BitVec 32 → BitVec 32)) := [
  (.vand, 0x09, [.vb], fun a b _ => a &&& b), (.vor, 0x0A, [.vb], fun a b _ => a ||| b), (.vxor, 0x0B, [.vb], fun a b _ => a ^^^ b),
  (.vshl, 0x0C, [.vb], fun a b _ => a <<< (b.toNat % 32)), (.vshr, 0x0D, [.vb], fun a b _ => a >>> (b.toNat % 32)),
  (.vsra, 0x0E, [.vb], fun a b _ => a.sshiftRight (b.toNat % 32)), (.vsel, 0x14, [.vb, .vc], fun a b d => if d = 0 then b else a)]

/-- The functions with an accuracy bound, and what each gives for a special input (R266, R268). -/
def funRows : List (TackCmd × Nat) := [
  (.vexp2, 0x10), (.vlog2, 0x11), (.vrcp, 0x12), (.vrsqrt, 0x13), (.vtanh, 0x16), (.vsigm, 0x17), (.verf, 0x18)]

/-- The byte-lane operations of GF(2^8): command, function, cost, operand fields, operation on the polynomial, the old byte and the operands
(R270). -/
def gfRows : List (TackCmd × Nat × Nat × List VF × (Nat → Nat → Nat → Nat → Nat)) := [
  (.gfAdd, 1, 1, [.vb], fun _ _ a b => (BitVec.ofNat 8 a ^^^ BitVec.ofNat 8 b).toNat), (.gfMul, 2, 1, [.vb, .poly], fun p _ a b => gfMul p a b),
  (.gfMac, 3, 1, [.vb, .poly], fun p d a b => (BitVec.ofNat 8 d ^^^ BitVec.ofNat 8 (gfMul p a b)).toNat),
  (.gfHorner, 4, 1, [.vb, .poly], fun p d a b => (BitVec.ofNat 8 (gfMul p d a) ^^^ BitVec.ofNat 8 b).toNat),
  (.gfInv, 5, 2, [.poly], fun p _ a _ => gfInv p a), (.gfExp, 6, 1, [.poly], fun p _ a _ => gfExp p a), (.gfLog, 7, 1, [.poly], fun p _ a _ => gfLog p a)]

/-- Every listed Tack instruction: command, group and function (R220). -/
def tackRows : List (TackCmd × Nat × Nat) :=
  scalarRows.map (fun e => (e.1, 0, e.2.1)) ++ scalarRows1.map (fun e => (e.1, 0, e.2.1)) ++ [(.sel, 0, 0x14)] ++
  immRows.map (fun e => (e.1, 1, e.2.1)) ++ shiftRows.map (fun e => (e.1, 1, e.2.1)) ++ [(.li, 1, 0x20), (.lih, 1, 0x21)] ++
  cmpRows.map (fun e => (e.1, 2, e.2.2.1)) ++ cmpRows.map (fun e => (e.2.1, 2, 0x10 + e.2.2.1)) ++ predRows.map (fun e => (e.1, 2, e.2.1)) ++
  [(.amov, 3, 1), (.aadd, 3, 2), (.aaddi, 3, 3), (.amovs, 3, 4), (.alocal, 3, 5), (.br, 4, 1), (.jr, 4, 2), (.call, 4, 3), (.ret, 4, 4), (.loop, 4, 5)] ++
  loadRows.map (fun e => (e.1, 5, e.2.1)) ++ storeRows.map (fun e => (e.1, 5, e.2.1)) ++
  [(.vld, 5, 0x10), (.vst, 5, 0x11), (.xld, 6, 1), (.xst, 6, 2), (.xcp, 6, 3), (.nop, 7, 0), (.endTile, 7, 1), (.trap, 7, 2), (.wait, 7, 3), (.xpf, 7, 4)] ++
  laneRows.map (fun e => (e.1, 8, e.2.1)) ++ bitLaneRows.map (fun e => (e.1, 8, e.2.1)) ++
  [(.vcvt, 9, 1), (.vwid, 9, 2), (.vnar, 9, 3), (.vqsx, 9, 4), (.vbcast, 9, 5), (.vmovi, 9, 6), (.vperm, 9, 7), (.vgetf, 9, 8), (.vclrf, 9, 9)] ++
  [(.vredsum, 0xA, 1), (.vredmax, 0xA, 2), (.vredmin, 0xA, 3), (.vsqrt, 0xA, 0x14), (.vdiv, 0xA, 0x15)] ++ funRows.map (fun e => (e.1, 0xA, e.2)) ++
  gfRows.map (fun e => (e.1, 0xB, e.2.1)) ++
  [(.gfMulc, 0xB, 8), (.mma, 0xC, 1), (.acczero, 0xD, 1), (.accst, 0xD, 2), (.accld, 0xD, 3), (.acc2v, 0xD, 4), (.v2acc, 0xD, 5)]

end Sys2Proof.Machine
end

