-- ==== Sys2Proof/Certificates/Slice0/Obligations.lean ====
section
/-!
DEFINITION. The statements about the module that the provers settle.
-/

open Sys2Proof Sys2Proof.Machine

/-- For every command c, every queue rest r and every state s, a step of s with c in front of r is exec of c on s with the queue r; a step on an empty queue lets 2 ns pass (the model's choice, log entry 1) and changes nothing else but the time base. -/
def Obligations.StepRunsTheFrontCommand : Prop :=
  (∀ (c : Instr) (r : List Instr) (s : State), step { s with pending := c :: r } = exec c { s with pending := r })
  ∧
  (∀ s : State, s.pending = [] → step s = .next (s.at (s.now + 2)))
  ∧
  (∀ s : State, (s.at (s.now + 2)).now = s.now + 2 ∧
    s.at (s.now + 2) = { s with now := s.now + 2, tb := { s.tb with time := (s.at (s.now + 2)).tb.time } })

/-- With no fence outstanding, a start-up that completes while the function reads STARTING and its domain is on puts it into ON when ENABLE reads 1 and into STOPPING otherwise (a lane starts by its training and MEM4 by the boot); a shut-down of a function that is ready to stop puts it from STOPPING into OFF and from PENDING_ON into STARTING, and an internal fault of a function that reads neither FENCED nor FAULT reads FAULT. A completed fence reads FENCED, and the end of a function reset reads OFF. Each of these commands answers that next state. -/
def Obligations.FunctionEventsMoveTheStateMachine : Prop :=
  (∀ (s : State) (τ : Nat) (b : Nat),
      blkExists b = true →
      isSds b = false →
      b ≠ bMEM4 →
      s.fsm b = fSTARTING →
      s.fencing b = false →
      s.domOn b = true →
      s.rd b COM_CTRL_ENABLE = 1 →
      Completes (.startupComplete τ b) s (fun t =>
        t.fsm b = fON))
  ∧
  (∀ (s : State) (τ : Nat) (b : Nat),
      blkExists b = true →
      isSds b = false →
      b ≠ bMEM4 →
      s.fsm b = fSTARTING →
      s.fencing b = false →
      s.domOn b = true →
      s.rd b COM_CTRL_ENABLE ≠ 1 →
      Completes (.startupComplete τ b) s (fun t =>
        t.fsm b = fSTOPPING))
  ∧
  (∀ (s : State) (τ : Nat) (b : Nat),
      blkExists b = true →
      s.fsm b = fSTOPPING →
      s.fencing b = false →
      s.stopReady b = true →
      Completes (.shutdownComplete τ b) s (fun t =>
        t.fsm b = fOFF))
  ∧
  (∀ (s : State) (τ : Nat) (b : Nat),
      blkExists b = true →
      s.fsm b = fPENDING →
      s.fencing b = false →
      s.stopReady b = true →
      Completes (.shutdownComplete τ b) s (fun t =>
        t.fsm b = fSTARTING))
  ∧
  (∀ (s : State) (τ : Nat) (b : Nat),
      blkExists b = true →
      s.fencing b = true →
      Completes (.fenceComplete τ b) s (fun t =>
        t.fsm b = fFENCED))
  ∧
  (∀ (s : State) (τ : Nat) (b : Nat),
      blkExists b = true →
      s.fsm b = fFENCED →
      s.inFuncReset b = true →
      Completes (.functionResetEnd τ b) s (fun t =>
        t.fsm b = fOFF))
  ∧
  (∀ (s : State) (τ : Nat) (b : Nat),
      blkExists b = true →
      s.fsm b ≠ fFENCED →
      s.fsm b ≠ fFAULT →
      s.fencing b = false →
      Completes (.internalFault τ b) s (fun t =>
        t.fsm b = fFAULT))

/-- A permitted write of ENABLE 1 to a function that reads OFF leads to STARTING, and of ENABLE 0 to one that reads ON to STOPPING, with ENABLE as written, while no fence and no reset of the function runs; the controls of PWR, RST, CLK, HLT and MEM4 and of clusters without a place in the grade are not meant. A permitted write of FENCE 1 to a function that can be fenced sets FENCE. A permitted write of RESET 1 starts the reset of such a function in FENCED, latches FUNC and records its block, and in any other state sets RESET_REFUSED; neither changes anything else but the time and the response. -/
def Obligations.CommonRegisterWritesMoveTheStateMachine : Prop :=
  (∀ (s : State) (τ : Nat) (i b : Nat),
      regMapped (regAt b 4) = true →
      s.regAllowed i true b 4 = true →
      b ≠ bPWR →
      b ≠ bRST →
      b ≠ bCLK →
      b ≠ bHLT →
      b ≠ bMEM4 →
      (isClu b = true → s.role (b - 0x40) ≠ 2) →
      s.inFuncReset b = false →
      s.fencing b = false →
      s.fsm b = fOFF →
      Completes (.enable τ i b 1) s (fun t =>
        t.fsm b = fSTARTING ∧ t.rd b COM_CTRL_ENABLE = 1))
  ∧
  (∀ (s : State) (τ : Nat) (i b : Nat),
      regMapped (regAt b 4) = true →
      s.regAllowed i true b 4 = true →
      b ≠ bPWR →
      b ≠ bRST →
      b ≠ bCLK →
      b ≠ bHLT →
      b ≠ bMEM4 →
      (isClu b = true → s.role (b - 0x40) ≠ 2) →
      s.inFuncReset b = false →
      s.fencing b = false →
      s.fsm b = fON →
      Completes (.enable τ i b 0) s (fun t =>
        t.fsm b = fSTOPPING ∧ t.rd b COM_CTRL_ENABLE = 0))
  ∧
  (∀ (s : State) (τ : Nat) (i b v : Nat),
      regMapped (regAt b 8) = true →
      s.regAllowed i true b 8 = true →
      fences b = true →
      bit v 0 = 1 →
      s.rd b COM_FENCE_FENCE = 0 →
      Completes (.fence τ i b v) s (fun t =>
        t.rd b COM_FENCE_FENCE = 1))
  ∧
  (∀ (s : State) (τ : Nat) (i b v : Nat),
      regMapped (regAt b 0xC) = true →
      s.regAllowed i true b 0xC = true →
      fences b = true →
      bit v 0 = 1 →
      v < 4294967296 →
      s.fsm b = fFENCED →
      s.inFuncReset b = false →
      exec (.reset τ i b v) s = .next ((((((s.at τ).answer 0 []).wr b COM_RESET_RESET 1).wr bRST RST_CAUSE_FUNC 1).wr bRST RST_FUNC_LAST_BLOCK b)))
  ∧
  (∀ (s : State) (τ : Nat) (i b v : Nat),
      regMapped (regAt b 0xC) = true →
      s.regAllowed i true b 0xC = true →
      fences b = true →
      bit v 0 = 1 →
      v < 4294967296 →
      s.fsm b ≠ fFENCED →
      exec (.reset τ i b v) s = .next (((s.at τ).answer 0 []).wr b COM_STATE_RESET_REFUSED 1))

/-- A permitted write of SNAP 1 increments SNAP_SEQ, gives every register of the block's snapshot set the value of its running counter as it stands once the block has counted what it counts at the latch itself, and leaves every other register as it was. The running counters are in canonical form (ResetIsAsTheSpecSays and StepKeepsStoresQueueAndTime). -/
def Obligations.SnapLatchesTheSnapshotSet : Prop :=
  (∀ (s : State) (τ : Nat) (i b v : Nat),
      regMapped (regAt b 0x10) = true →
      s.regAllowed i true b 0x10 = true →
      v < 4294967296 →
      bit v 0 = 1 →
      Completes (.snap τ i b v) s (fun t =>
        t.rd b COM_STATE_SNAP_SEQ = (s.rd b COM_STATE_SNAP_SEQ + 1) % 2 ^ COM_STATE_SNAP_SEQ.w))
  ∧
  (∀ (s : State) (τ : Nat) (i b v : Nat) (f : Fld),
      regMapped (regAt b 0x10) = true →
      s.regAllowed i true b 0x10 = true →
      v < 4294967296 →
      bit v 0 = 1 →
      inSnap b f.off = true →
      f.off < 1048576 →
      f.lo < 32 →
      f.rst = 0 →
      Store.wf 0#32 s.live = true →
      Completes (.snap τ i b v) s (fun t =>
        t.rd b f = ((s.at τ).beforeSnap b).cnt b f))
  ∧
  (∀ (s : State) (τ : Nat) (i b v c : Nat) (g : Fld),
      regMapped (regAt b 0x10) = true →
      s.regAllowed i true b 0x10 = true →
      v < 4294967296 →
      bit v 0 = 1 →
      g.off < 1048576 →
      g.lo < 32 →
      (c = b → inSnap b g.off = false) →
      fkey c g ≠ fkey b COM_STATE_SNAP_SEQ →
      Completes (.snap τ i b v) s (fun t =>
        t.rd c g = s.rd c g))

/-- A permitted write to such a register of a powered block writes the fields at its offset one after the other and nothing else. A read-write field takes its bits of the word when it accepts them and keeps its value otherwise; a field shadowed against job epochs keeps its value in effect, but for those of the time base while no job runs; a write-1-to-clear field loses the bits written 1 (of a cluster's exception record, in its running copy); a write-1-to-set field gains them; a read-only field keeps its value; other fields are untouched. -/
def Obligations.RegisterWritesGoFieldByField : Prop :=
  (∀ (s : State) (τ i b off v : Nat),
      regMapped (regAt b off) = true → off < 1048576 → 0x14 ≤ off → s.regAllowed i true b off = true →
      (restricted b off = true → s.mgmtOrHost i = true) → s.domOn b = true → v < 4294967296 →
      ((s.at τ).answer 0 []).specialWrite i b off v = none →
      exec (.registerWrite τ i (regAt b off) v) s = .next (((s.at τ).answer 0 []).writeFields s.jobRun b off v))
  ∧
  (∀ (s : State) (job : Bool) (b v : Nat) (f : Fld), f.w ≤ 32 → f.rst < 2 ^ 32 →
      let x := bits v f.lo f.w
      let exc := 0x40 ≤ b ∧ b < 0x62 ∧ f.off = 0x100
      (f.acc = .rw → f.accepts x = true → (s.writeField job b v f).rd b f = x) ∧
      (f.acc = .rw → f.accepts x = true → (f.sh = true ∧ b = bTIM ∧ job = false) → (s.writeField job b v f).act b f = x) ∧
      (¬ (f.sh = true ∧ b = bTIM ∧ job = false) → (s.writeField job b v f).active = s.active) ∧
      (f.acc = .rw → f.accepts x = false → s.writeField job b v f = s) ∧
      (f.acc = .w1c → ¬ exc → (s.writeField job b v f).rd b f = (s.rd b f - (s.rd b f).land x) % 2 ^ f.w) ∧
      (f.acc = .w1c → exc → (s.writeField job b v f).cnt b f = (s.cnt b f - (s.cnt b f).land x) % 2 ^ 32 ∧
        (s.writeField job b v f).regs = s.regs) ∧
      (f.acc = .w1s → x ≠ 0 → (s.writeField job b v f).rd b f = (s.rd b f).lor x % 2 ^ f.w) ∧
      (f.acc = .w1s → x = 0 → s.writeField job b v f = s) ∧
      (f.acc = .ro → s.writeField job b v f = s) ∧
      (∀ (c : Nat) (g : Fld), fkey c g ≠ fkey b f → (s.writeField job b v f).rd c g = s.rd c g ∧ (s.writeField job b v f).cnt c g = s.cnt c g))

/-- Power-on, brown-out, the reset pin, a thermal trip, the software full reset with its key from a management core or the host, and a critical-state error each begin a reset: the cause bit reads 1 (of a critical-state error also its source, one of the four), every register outside the reset controller reads its reset value, every byte below the flash reads 0 but for the retention SRAM, the flash is kept, and the waiting commands wait on. Power-on also clears the retention SRAM; the others keep it and those registers of the reset controller that R64 names. -/
def Obligations.ResetsClearAllButTheAlwaysOnDomain : Prop :=
  (∀ (s : State) (τ : Nat),
      Completes (.powerOn τ) s (fun t =>
        ResetTaken [RST_CAUSE_POR] true s t))
  ∧
  (∀ (s : State) (τ : Nat),
      Completes (.brownOut τ) s (fun t =>
        ResetTaken [RST_CAUSE_BOR] false s t))
  ∧
  (∀ (s : State) (τ : Nat),
      Completes (.rstN τ) s (fun t =>
        ResetTaken [RST_CAUSE_PIN] false s t))
  ∧
  (∀ (s : State) (τ : Nat),
      Completes (.thermalTrip τ) s (fun t =>
        ResetTaken [RST_CAUSE_THERM] false s t))
  ∧
  (∀ (s : State) (τ : Nat) (i v : Nat),
      s.mgmtOrHost i = true →
      bits v 16 16 = 0xA5C3 →
      bit v 0 = 1 →
      Completes (.rstSwreset τ i v) s (fun t =>
        ResetTaken [RST_CAUSE_SW_FULL] false s t))
  ∧
  (∀ (s : State) (τ : Nat),
      Completes (.criticalStateError τ 0) s (fun t =>
        ResetTaken [RST_CAUSE_CRIT_ERR, RST_CRIT_SRC_SCH_Q] false s t))
  ∧
  (∀ (s : State) (τ : Nat),
      Completes (.criticalStateError τ 1) s (fun t =>
        ResetTaken [RST_CAUSE_CRIT_ERR, RST_CRIT_SRC_PAGE_TBL] false s t))
  ∧
  (∀ (s : State) (τ : Nat),
      Completes (.criticalStateError τ 2) s (fun t =>
        ResetTaken [RST_CAUSE_CRIT_ERR, RST_CRIT_SRC_FW_TBL] false s t))
  ∧
  (∀ (s : State) (τ : Nat),
      Completes (.criticalStateError τ 3) s (fun t =>
        ResetTaken [RST_CAUSE_CRIT_ERR, RST_CRIT_SRC_SHARD_MAP] false s t))

/-- The end of brown-out, of the reset pin and of a thermal trip removes the source and dates the tail; with no source left and 100 µs passed the reset ends: the time base restarts at 0, the straps are sampled when a source since the last end of a reset samples them and read as before otherwise, PWR, RST, CLK, TIM and HLT read ON, and the four cache slices and MEM4 read STARTING. -/
def Obligations.ResetEndsAfterItsSources : Prop :=
  (∀ (s : State) (τ : Nat),
      s.sys.inReset = true →
      s.sys.sources.contains 1 = true →
      exec (.brownOutRelease τ) s = .next ((s.at τ).setSys { s.sys with sources := s.sys.sources.filter (· != 1), srcEnd := (s.at τ).now }))
  ∧
  (∀ (s : State) (τ : Nat),
      s.sys.inReset = true →
      s.sys.sources.contains 2 = true →
      exec (.rstNRelease τ) s = .next ((s.at τ).setSys { s.sys with sources := s.sys.sources.filter (· != 2), srcEnd := (s.at τ).now }))
  ∧
  (∀ (s : State) (τ : Nat),
      s.sys.inReset = true →
      s.sys.sources.contains 8 = true →
      exec (.thermalTripRelease τ) s = .next ((s.at τ).setSys { s.sys with sources := s.sys.sources.filter (· != 8), srcEnd := (s.at τ).now }))
  ∧
  (∀ (s : State) (τ : Nat) (straps : Nat),
      s.sys.inReset = true →
      s.sys.sources = [] →
      s.sys.srcEnd + 100000 ≤ (s.at τ).now →
      Completes (.systemResetEnd τ straps) s (fun t =>
        t.sys.inReset = false ∧ t.tb = {} ∧
        t.fsm bPWR = fON ∧ t.fsm bRST = fON ∧ t.fsm bCLK = fON ∧ t.fsm bTIM = fON ∧ t.fsm bHLT = fON ∧
        t.fsm 8 = fSTARTING ∧ t.fsm 9 = fSTARTING ∧ t.fsm 0xA = fSTARTING ∧ t.fsm 0xB = fSTARTING ∧ t.fsm bMEM4 = fSTARTING ∧
        t.rd bRST RST_STRAPS_BOOT_SEL = (if s.sys.sample then bits straps 0 2 else s.rd bRST RST_STRAPS_BOOT_SEL) ∧
        t.rd bRST RST_STRAPS_CLK_SEL = (if s.sys.sample then bits straps 2 2 else s.rd bRST RST_STRAPS_CLK_SEL)))

/-- Outside reset, before the boot has begun, rails that are ready stop the boot with code 0x01 when no copy of the option bytes is valid; otherwise they put the valid copy in use into force and start the read of the identity memory. A Halter image of a flash bank whose checks give no failure code leads to STAGE 0x4 and is released; a failure code marks the bank bad. The end of the DRAM initialisation turns MEM4 ON; before an image set from the host or the network it shows STAGE 0x6 or 0x7. A write of GO by a permitted initiator while STAGE reads 0x6, and a file received from the network, go on to STAGE 0x3 when the directory in DRAM passes and wait again otherwise; the file's bytes stand in DRAM from address 0. A failure or 10 s of silence starts the fetch over with DHCP. -/
def Obligations.BootStepsFollowTheChecks : Prop :=
  (∀ (s : State) (τ : Nat),
      s.sys.inReset = false →
      s.sys.phase = 0 →
      s.readOptions = none →
      Completes (.bootReady τ) s (fun t =>
        t.rd bRST RST_BOOT_STATUS_STAGE = 0xF ∧ t.rd bRST RST_BOOT_STATUS_FAIL_CODE = 1))
  ∧
  (∀ (s : State) (τ : Nat) (k : Nat) (o : Options),
      s.sys.inReset = false →
      s.sys.phase = 0 →
      s.readOptions = some (k, o) →
      Completes (.bootReady τ) s (fun t =>
        t.opt = o ∧ t.rd bRST RST_BOOT_STATUS_OPT_COPY = k % 4 ∧ t.sys.idReading = true))
  ∧
  (∀ (s : State) (τ : Nat) (e : Nat × Nat × Nat),
      s.sys.phase = 1 →
      s.sys.fromDram = false →
      s.sys.bank < 2 →
      entryOf ((s.directory s.setBase).getD []) 1 = some e →
      Completes (.imageVerified τ) s (fun t =>
        (s.imageCode s.setBase e = 0 → t.rd bRST RST_BOOT_STATUS_STAGE = 4 ∧ 1 ∈ t.sys.released) ∧
        (s.imageCode s.setBase e ≠ 0 → t.isBad s.sys.bank = true)))
  ∧
  (∀ (s : State) (τ : Nat),
      s.sys.phase = 3 →
      Completes (.dramInitDone τ) s (fun t =>
        t.fsm bMEM4 = fON ∧ t.sys.dramReady = true))
  ∧
  (∀ (s : State) (τ : Nat),
      s.sys.phase = 5 →
      Completes (.dramInitDone τ) s (fun t =>
        t.fsm bMEM4 = fON ∧ t.sys.dramReady = true ∧ t.rd bRST RST_BOOT_STATUS_STAGE = (if s.rd bRST RST_BOOT_STATUS_SOURCE = 2 then 6 else 7)))
  ∧
  (∀ (s : State) (τ : Nat) (i v : Nat),
      s.regAllowed i true bRST 0x120 = true →
      bit v 0 = 1 →
      s.rd bRST RST_BOOT_STATUS_STAGE = 6 →
      Completes (.rstHostBoot τ i v) s (fun t =>
        t.rd bRST RST_BOOT_STATUS_STAGE = (if s.dirCode 0 = 0 then 3 else if s.rd bRST RST_BOOT_STATUS_SOURCE = 2 then 6 else 7)))
  ∧
  (∀ (s : State) (τ : Nat) (addr : Nat) (name file : List Nat),
      s.sys.phase = 7 →
      s.rd bRST RST_BOOT_STATUS_SOURCE = 3 →
      inDram 0 file.length = true →
      Completes (.netBootFileReceived τ addr name file) s (fun t =>
        t.mem = memPuts s.mem 0 file ∧ t.rd bRST RST_BOOT_STATUS_STAGE =
          (if ({ s with mem := memPuts s.mem 0 file } : State).dirCode 0 = 0 then 3 else 7)))
  ∧
  (∀ (s : State) (τ : Nat) (failed : Bool),
      s.sys.phase = 7 →
      (failed = true ∨ s.sys.netStart + 10000000000 ≤ (s.at τ).now) →
      exec (.netBootTimeout τ failed) s = .next (((s.at τ).setSys { s.sys with netStart := (s.at τ).now, netAddr := 0, netFile := [] }).send .dhcp))

/-- While the identity memory is read: the end of the read puts the copy that R59 chooses into use, or none; a missing acknowledgement is counted and retried, and after three retries the memory counts as read with no copy in use. The end of a write puts the copy written into use. With the key: TRIAL in the idle state, with no verification under way, starts the verification and does nothing else; CANCEL in the pending state makes the record idle with the active bank as it was; CONFIRM in the trial state makes it idle with the bank booted active; and TRIAL, CANCEL or CONFIRM in any other state sets SWAP_REFUSED and does nothing else. A write of 1 to SWAP_REFUSED clears it with the wrong key, and with the key and no other request. A finished verification makes the trial pending when every image of the other bank passes, and marks that bank bad otherwise. A flash program by a management core or the host of a range of the other bank leaves exactly its bytes changed, answers OK and withdraws a pending trial. -/
def Obligations.IdentityAndSwapRecords : Prop :=
  (∀ (s : State) (τ : Nat) (c0 c1 : List Nat),
      s.sys.idReading = true →
      Completes (.idMemoryReadDone τ c0 c1) s (fun t =>
        t.sys.idReading = false ∧ t.sys.idDone = true ∧ t.rd bRST RST_BOOT_STATUS_ID_COPY = idChoice c0 c1 ∧
        t.sys.idUse = (if idChoice c0 c1 = 1 then some c0 else if idChoice c0 c1 = 2 then some c1 else none)))
  ∧
  (∀ (s : State) (τ : Nat),
      s.sys.idReading = true →
      (s.at τ).due perRetry 10000000 = true →
      s.sys.idRetries < 3 →
      exec (.idReadRetry τ) s = .next ((let u := (s.at τ).mark perRetry; u.setSys { u.sys with idRetries := s.sys.idRetries + 1 })))
  ∧
  (∀ (s : State) (τ : Nat),
      s.sys.idReading = true →
      (s.at τ).due perRetry 10000000 = true →
      3 ≤ s.sys.idRetries →
      exec (.idReadRetry τ) s = .next ((let u := (s.at τ).mark perRetry; u.setSys { u.sys with idReading := false, idDone := true, idUse := none })))
  ∧
  (∀ (s : State) (τ : Nat),
      (s.at τ).due perRetry 10000000 = false →
      exec (.idReadRetry τ) s = .next (s.at τ))
  ∧
  (∀ (s : State) (τ : Nat) (k : Nat) (b : List Nat),
      s.sys.idWriting = some (k, b) →
      k < 2 →
      Completes (.idRecordWriteDone τ) s (fun t =>
        t.rd bRST RST_BOOT_STATUS_ID_COPY = k + 1 ∧ t.sys.idUse = some b))
  ∧
  (∀ (s : State) (τ : Nat) (i v : Nat),
      s.regAllowed i true bRST 0x11C = true →
      bits v 16 16 = 0xA5C3 →
      bit v 6 = 0 →
      bit v 0 = 0 →
      bit v 1 = 1 →
      bit v 2 = 0 →
      s.sys.swapState = 0 →
      s.sys.verifying = false →
      exec (.trial τ i v) s = .next ((s.at τ).setSys { s.sys with verifying := true, swapFrom := s.activeBank }))
  ∧
  (∀ (s : State) (τ : Nat) (i v : Nat),
      s.regAllowed i true bRST 0x11C = true →
      bits v 16 16 = 0xA5C3 →
      bit v 6 = 0 →
      bit v 0 = 0 →
      bit v 1 = 1 →
      bit v 2 = 0 →
      (s.sys.swapState ≠ 0 ∨ s.sys.verifying = true) →
      exec (.trial τ i v) s = .next ((s.at τ).wr bRST RST_SWAP_CTRL_SWAP_REFUSED 1))
  ∧
  (∀ (s : State) (τ : Nat) (i v : Nat),
      s.regAllowed i true bRST 0x11C = true →
      bits v 16 16 = 0xA5C3 →
      bit v 6 = 0 →
      bit v 0 = 1 →
      bit v 1 = 0 →
      bit v 2 = 0 →
      s.sys.swapState = 1 →
      Completes (.cancel τ i v) s (fun t =>
        t.sys = { s.sys with swapState := 0 } ∧ t.rd bRST RST_SWAP_CTRL_SWAP_STATE = 0))
  ∧
  (∀ (s : State) (τ : Nat) (i v : Nat),
      s.regAllowed i true bRST 0x11C = true →
      bits v 16 16 = 0xA5C3 →
      bit v 6 = 0 →
      bit v 0 = 1 →
      bit v 1 = 0 →
      bit v 2 = 0 →
      s.sys.swapState ≠ 1 →
      exec (.cancel τ i v) s = .next ((s.at τ).wr bRST RST_SWAP_CTRL_SWAP_REFUSED 1))
  ∧
  (∀ (s : State) (τ : Nat) (i v : Nat),
      s.regAllowed i true bRST 0x11C = true →
      bits v 16 16 = 0xA5C3 →
      bit v 6 = 0 →
      bit v 0 = 0 →
      bit v 1 = 0 →
      bit v 2 = 1 →
      s.sys.swapState = 2 →
      s.sys.bank < 2 →
      Completes (.confirm τ i v) s (fun t =>
        t.sys = { s.sys with swapState := 0, swapActive := some s.sys.bank } ∧ t.rd bRST RST_SWAP_CTRL_SWAP_STATE = 0 ∧ t.rd bRST RST_SWAP_CTRL_ACTIVE_BANK = s.sys.bank))
  ∧
  (∀ (s : State) (τ : Nat) (i v : Nat),
      s.regAllowed i true bRST 0x11C = true →
      bits v 16 16 = 0xA5C3 →
      bit v 6 = 0 →
      bit v 0 = 0 →
      bit v 1 = 0 →
      bit v 2 = 1 →
      s.sys.swapState ≠ 2 →
      exec (.confirm τ i v) s = .next ((s.at τ).wr bRST RST_SWAP_CTRL_SWAP_REFUSED 1))
  ∧
  (∀ (s : State) (τ : Nat) (i v : Nat),
      s.regAllowed i true bRST 0x11C = true →
      bit v 6 = 1 →
      (bits v 16 16 ≠ 0xA5C3 ∨ bits v 0 3 = 0) →
      exec (.swapRefusedClear τ i v) s = .next ((s.at τ).wr bRST RST_SWAP_CTRL_SWAP_REFUSED 0))
  ∧
  (∀ (s : State) (τ : Nat),
      s.sys.verifying = true →
      s.activeBank < 2 →
      Completes (.trialVerifyDone τ) s (fun t =>
        t.sys.verifying = false ∧ (s.bankPasses (1 - s.activeBank) = true → t.sys.swapState = 1) ∧
        (s.bankPasses (1 - s.activeBank) = false → t.isBad (1 - s.activeBank) = true ∧ t.sys.swapState = s.sys.swapState)))
  ∧
  (∀ (s : State) (τ : Nat) (i off : Nat) (data : List Nat),
      s.mgmtOrHost i = true →
      1 ≤ data.length →
      off + data.length ≤ 0xC000000 →
      bankOfOffset off ≠ s.activeBank →
      bankOfOffset (off + data.length - 1) ≠ s.activeBank →
      Completes (.flashProgram τ i off data) s (fun t =>
        t.mem = memPuts s.mem (flashBase + off) data ∧ t.resp.status = 0 ∧ t.sys.swapState = (if s.sys.swapState = 1 then 0 else s.sys.swapState)))

/-- While the factory program runs: a second after the last test of a camera port that may discover and stands before step 3, discovery puts it back to step 2. Two seconds after listening began, a run of 16 counts makes an untested encoder incremental; otherwise 26 clocks at 100 kHz leave on port 0, and a line that went low after the first and high 15 to 60 microseconds after the last sets SSI with 25 bits, Gray code and 500 kHz, any other answer begins both tests again. Teach-in starts, with no teach-in running, when DI0 has been high for 3 s or at first motion of a port that is not taught and has not failed, and at the console at any time. In a teach-in the first edge takes the oldest code into a first measurement, an edge without a code fails it with cause 1 and reports that. A code that decodes with grade A to C counts good, any other bad; its position and verdict join the codes of a running teach-in. Outside teach-in an edge within 1 % of the distance of no code position is counted and does what a write of FIRE 1 to port 0 does. The console reports the status, and sets the valve delay up to 100,000. -/
def Obligations.FactoryProgramTeachesAndCounts : Prop :=
  (∀ (s : State) (τ : Nat),
      s.sys.factory.on = true →
      s.discovers 0 = true →
      (s.camP 0).step ≤ 2 →
      (s.camP 0).since.getD 0 + 1000000000 ≤ (s.at τ).now →
      exec (.cameraDiscoveryRetry τ) s = .next ((s.at τ).setCam 0 { s.camP 0 with step := 2, since := none }))
  ∧
  (∀ (s : State) (τ : Nat) (low : Bool) (high : Nat),
      s.sys.factory.on = true →
      s.sys.factory.enc = 0 →
      s.sys.factory.listenAt + 2000000000 ≤ (s.at τ).now →
      s.sys.factory.run16 = true →
      exec (.encoderTypeTest τ low high) s = .next ((s.at τ).setFac { s.sys.factory with enc := 1 }))
  ∧
  (∀ (s : State) (τ : Nat) (high : Nat),
      s.sys.factory.on = true →
      s.sys.factory.enc = 0 →
      s.sys.factory.listenAt + 2000000000 ≤ (s.at τ).now →
      s.sys.factory.run16 = false →
      15000 ≤ high →
      high ≤ 60000 →
      Completes (.encoderTypeTest τ true high) s (fun t =>
        t.sys.factory.enc = 2 ∧ t.rd (bSTP 0) STP_MODE_MODE = 1 ∧ t.rd (bSTP 0) STP_SSI_BITS = 25 ∧ t.rd (bSTP 0) STP_SSI_CODE = 1 ∧ t.rd (bSTP 0) STP_SSI_CLKSEL = 2 ∧ t.out = .ssiBurst 0 26 100000 :: s.out))
  ∧
  (∀ (s : State) (τ : Nat) (low : Bool) (high : Nat),
      s.sys.factory.on = true →
      s.sys.factory.enc = 0 →
      s.sys.factory.listenAt + 2000000000 ≤ (s.at τ).now →
      s.sys.factory.run16 = false →
      (low = false ∨ high < 15000 ∨ 60000 < high) →
      exec (.encoderTypeTest τ low high) s = .next (((s.at τ).send (.ssiBurst 0 26 100000)).setFac { s.sys.factory with listenAt := (s.at τ).now, run := 0 }))
  ∧
  (∀ (s : State) (τ : Nat),
      s.sys.factory.on = true →
      s.sys.factory.teach = none →
      (bit (s.rd bFIO FIO_DI) 0 = 1 ∧ Store.get 0 s.field.diRise 0 + 3000000000 ≤ (s.at τ).now) ∨ (s.sys.factory.dist = none ∧ s.sys.factory.teachFail = 0 ∧ (s.stpP 0).lastEdge.isSome = true) →
      exec (.teachIn τ) s = .next ((s.at τ).setFac { s.sys.factory with teach := some ([], []), teachFail := 0 }))
  ∧
  (∀ (s : State) (τ : Nat),
      s.sys.factory.on = true →
      exec (.teach τ) s = .next ((s.at τ).setFac { s.sys.factory with teach := some ([], []), teachFail := 0 }))
  ∧
  (∀ (s : State) (τ : Nat) (c : Int × Bool) (r : List (Int × Bool)),
      s.sys.factory.on = true →
      s.sys.factory.teach = some (c :: r, []) →
      exec (.teachInEdge τ) s = .next ((s.at τ).setFac { s.sys.factory with teach := some (r, [(s.stpP 0).count - c.1]) }))
  ∧
  (∀ (s : State) (τ : Nat) (ms : List Int),
      s.sys.factory.on = true →
      s.sys.factory.teach = some ([], ms) →
      exec (.teachInEdge τ) s = .next (((s.at τ).setFac { s.sys.factory with teach := none, teachFail := 1 }).send (.console [1, 1])))
  ∧
  (∀ (s : State) (τ : Nat) (c : Int) (decodes : Bool) (grade : Nat) (codes : List (Int × Bool)) (ms : List Int),
      s.sys.factory.on = true →
      s.sys.factory.teach = some (codes, ms) →
      exec (.codeVerdict τ c decodes grade) s = .next ((s.at τ).setFac { s.sys.factory with
        good := s.sys.factory.good + (if decodes && decide (grade ≤ 2) then 1 else 0),
        bad := s.sys.factory.bad + (if decodes && decide (grade ≤ 2) then 0 else 1),
        teach := some (codes ++ [(c, decodes && decide (grade ≤ 2))], ms),
        codes := s.sys.factory.codes ++ [c] }))
  ∧
  (∀ (s : State) (τ : Nat) (c : Int) (decodes : Bool) (grade : Nat),
      s.sys.factory.on = true →
      s.sys.factory.teach = none →
      s.sys.factory.dist = none →
      exec (.codeVerdict τ c decodes grade) s = .next ((s.at τ).setFac { s.sys.factory with
        good := s.sys.factory.good + (if decodes && decide (grade ≤ 2) then 1 else 0),
        bad := s.sys.factory.bad + (if decodes && decide (grade ≤ 2) then 0 else 1) }))
  ∧
  (∀ (s : State) (τ : Nat) (c : Int) (decodes : Bool) (grade : Nat) (d : Int),
      s.sys.factory.on = true →
      s.sys.factory.teach = none →
      s.sys.factory.dist = some d →
      exec (.codeVerdict τ c decodes grade) s = .next (((s.at τ).setFac { s.sys.factory with
        good := s.sys.factory.good + (if decodes && decide (grade ≤ 2) then 1 else 0),
        bad := s.sys.factory.bad + (if decodes && decide (grade ≤ 2) then 0 else 1),
        codes := s.sys.factory.codes ++ [c] }).factorySlot d (c, decodes && decide (grade ≤ 2))))
  ∧
  (∀ (s : State) (τ : Nat) (d : Int),
      s.sys.factory.on = true →
      s.sys.factory.teach = none →
      s.sys.factory.dist = some d →
      (∀ c ∈ s.sys.factory.codes, ¬ 100 * ((s.stpP 0).count - (c + d)).natAbs ≤ d.natAbs) →
      exec (.unmatchedProbeEdge τ) s = .next (((s.at τ).setFac { s.sys.factory with unmatched := s.sys.factory.unmatched + 1, codes := s.sys.factory.codes.filter (fun c => decide (100 * ((s.stpP 0).count - (c + d)) ≤ d.natAbs)) }).fireNow 0 1))
  ∧
  (∀ (s : State) (τ : Nat),
      s.sys.factory.on = true →
      exec (.status τ) s = .next ((s.at τ).send (.console [0, s.rd (bCAM 0) CAM_LINK_LINK_UP, s.sys.factory.enc, (if s.sys.factory.dist.isSome then 1 else 0),
        s.sys.factory.dist.getD 0, s.sys.factory.valveUs, s.sys.factory.good, s.sys.factory.bad, s.sys.factory.unmatched])))
  ∧
  (∀ (s : State) (τ : Nat) (n : Nat),
      s.sys.factory.on = true →
      n ≤ 100000 →
      Completes (.valve τ n) s (fun t =>
        t.sys.factory.valveUs = n ∧ t.sys.factory.valveSet = true ∧ t.act (bEJT 0) (EJT_CLS_DELAY 1) = n))

/-- CAPABILITY, PMBUS_REVISION, MFR_ID, MFR_MODEL and MFR_SERIAL answer their constants; the four readings and the input power answer the last refreshed value in LINEAR11 (which exponent and which rounding is an open value, log entry 7); the status commands answer the latched bits; a refresh latches undervoltage, overvoltage, temperature and the alert; CLEAR_FAULTS clears the bits and the alert where the condition has ended; any other write sets the communication bit only. -/
def Obligations.SidebandAnswersTheListedCommands : Prop :=
  (∀ (s : State) (τ : Nat),
      exec (.capability τ) s = .next ((s.at τ).answer 0 [0xB0]))
  ∧
  (∀ (s : State) (τ : Nat),
      exec (.pmbusRevision τ) s = .next ((s.at τ).answer 0 [0x33]))
  ∧
  (∀ (s : State) (τ : Nat),
      exec (.mfrId τ) s = .next ((s.at τ).answer 0 [0x53, 0x48, 0x41, 0x53, 0x45, 0x4E]))
  ∧
  (∀ (s : State) (τ : Nat),
      exec (.mfrModel τ) s = .next ((s.at τ).answer 0 Config.mfrModel))
  ∧
  (∀ (s : State) (τ : Nat),
      exec (.mfrSerial τ) s = .next ((s.at τ).answer 0 Config.mfrSerial))
  ∧
  (∀ (s : State) (τ : Nat),
      exec (.readVin τ) s = .next ((s.at τ).answer 0 (leBytes 2 (linear11 (Config.linear11 0x88 s.sys.pmb.vinMv) s.sys.pmb.vinMv))))
  ∧
  (∀ (s : State) (τ : Nat),
      exec (.readIin τ) s = .next ((s.at τ).answer 0 (leBytes 2 (linear11 (Config.linear11 0x89 s.sys.pmb.iinMa) s.sys.pmb.iinMa))))
  ∧
  (∀ (s : State) (τ : Nat),
      exec (.readTemperature1 τ) s = .next ((s.at τ).answer 0 (leBytes 2 (linear11 (Config.linear11 0x8D s.sys.pmb.plate) s.sys.pmb.plate))))
  ∧
  (∀ (s : State) (τ : Nat),
      exec (.readTemperature2 τ) s = .next ((s.at τ).answer 0 (leBytes 2 (linear11 (Config.linear11 0x8E s.sys.pmb.hot) s.sys.pmb.hot))))
  ∧
  (∀ (s : State) (τ : Nat),
      exec (.readPin τ) s = .next ((s.at τ).answer 0 (leBytes 2 (linear11 (Config.linear11 0x97 s.sys.pmb.pinMw) s.sys.pmb.pinMw))))
  ∧
  (∀ (s : State) (τ : Nat),
      exec (.statusByte τ) s = .next ((s.at τ).answer 0 [(if s.sys.pmb.vinUv then 8 else 0) + (if s.sys.pmb.tempBad then 4 else 0) + (if s.sys.pmb.cml then 2 else 0) +
        (if s.sys.pmb.vinOv ∧ s.sys.pmb.vinUv = false then 1 else 0)]))
  ∧
  (∀ (s : State) (τ : Nat),
      Completes (.statusWord τ) s (fun t =>
        t.resp.data.length = 2 ∧ leNat t.resp.data = s.sys.pmb.statusByte + (if s.sys.pmb.vinUv ∨ s.sys.pmb.vinOv then 0x2000 else 0)))
  ∧
  (∀ (s : State) (τ : Nat) (vin iin : Nat) (plate hot : Int) (pin : Nat),
      (s.at τ).due perPmb 10000000 = true →
      Completes (.pmbusRefresh τ vin iin plate hot pin) s (fun t =>
        t.sys.pmb.vinMv = vin ∧ t.sys.pmb.iinMa = iin ∧ t.sys.pmb.plate = plate ∧ t.sys.pmb.hot = hot ∧ t.sys.pmb.pinMw = pin ∧
        t.sys.pmb.tempBad = (s.sys.pmb.tempBad || decide (85000 < plate)) ∧
        t.sys.pmb.vinUv = (s.sys.pmb.vinUv || decide (vin < 11400)) ∧ t.sys.pmb.vinOv = (s.sys.pmb.vinOv || decide (12600 < vin)) ∧
        t.sys.pmb.alert = (s.sys.pmb.alert || decide (85000 < plate ∨ vin < 11400 ∨ 12600 < vin))))
  ∧
  (∀ (s : State) (τ : Nat) (vin iin : Nat) (plate hot : Int) (pin : Nat),
      (s.at τ).due perPmb 10000000 = false →
      exec (.pmbusRefresh τ vin iin plate hot pin) s = .next (s.at τ))
  ∧
  (∀ (s : State) (τ : Nat),
      Completes (.clearFaults τ) s (fun t =>
        t.sys.pmb.cml = false ∧ t.sys.pmb.tempBad = decide (85000 < s.sys.pmb.plate) ∧
        t.sys.pmb.vinUv = decide (s.sys.pmb.vinMv < 11400) ∧ t.sys.pmb.vinOv = decide (12600 < s.sys.pmb.vinMv) ∧
        (s.sys.pmb.alert = true → s.sys.pmb.bad = false → t.sys.pmb.alert = false)))
  ∧
  (∀ (s : State) (τ : Nat) (code : Nat) (data : List Nat),
      exec (.pmbusOtherWrite τ code data) s = .next ((s.at τ).setPmb { s.sys.pmb with cml := true }))

/-- While the field domain is on, the fall of V24F with UV clear ends every pulse, sets UV and counts, its return clears UV, and the start and end of an encoder supply's current limit set and clear its fault bit (the start sets STAT_FAULT too). A power-over-coax overcurrent takes the power of its port, and the loss of VCXP that of all eight. -/
def Obligations.FieldAndCameraSupplies : Prop :=
  (∀ (s : State) (τ : Nat),
      s.rd bFIO FIO_STAT_UV = 0 →
      s.domOn bFIO = true →
      Completes (.v24fLow τ) s (fun t =>
        t.rd bFIO FIO_STAT_UV = 1 ∧ t.field.pulses = [] ∧ t.cnt bFIO FIO_CNT_UV = satInc (s.cnt bFIO FIO_CNT_UV) 1))
  ∧
  (∀ (s : State) (τ : Nat),
      s.domOn bFIO = true →
      Completes (.v24fHigh τ) s (fun t =>
        t.rd bFIO FIO_STAT_UV = 0))
  ∧
  (∀ (s : State) (τ : Nat) (p : Nat),
      exec (.pocxpOvercurrent τ p) s = .next ((s.at τ).setCam p { s.camP p with power := false }))
  ∧
  (∀ (s : State) (τ : Nat),
      exec (.vcxpChange τ true) s = .next ((s.at τ).setSys { s.sys with vcxp := true }))
  ∧
  (∀ (s : State) (τ : Nat),
      Completes (.vcxpChange τ false) s (fun t =>
        t.sys.vcxp = false ∧ ∀ n ∈ List.range 8, (t.camP n).power = false))
  ∧
  (∀ (s : State) (τ : Nat) (n : Nat),
      s.domOn bFIO = true →
      n < 2 →
      Completes (.encoderSupplyLimit τ n) s (fun t =>
        t.rd bFIO (encvFault n) = 1 ∧ t.rd bFIO FIO_STAT_FAULT = 1))
  ∧
  (∀ (s : State) (τ : Nat) (n : Nat),
      s.domOn bFIO = true →
      n < 2 →
      Completes (.encoderSupplyLimitEnd τ n) s (fun t =>
        t.rd bFIO (encvFault n) = 0))

/-- A connection test that is due (none made yet, or a second after the last) goes on to step 3, with the answering lanes among those in use and seven control commands on the uplink, or to step 2 when none answers. The acknowledgement of a camera that leaves a lane and a rate chooses both, keeps the identity, the line period and the format, and sends the control command that sets the link; its absence for 200 ms puts the port back to step 2. A passed link test brings LINK_UP and DISC_DONE, the lane count and the rate, step 6 and a fresh heartbeat; a failed one with a lower rate left tries that rate with a new control command. On a port whose link is up, the loss of a lane and 100 ms without a heartbeat clear LINK_UP and count CNT_LINKLOSS; a heartbeat is dated; an event packet at a port that reads ON is put as event 0x0103 with its payload, with flag bit 1 over 16 bytes; another packet makes the oldest line corrupt. -/
def Obligations.CameraLinksComeAndGo : Prop :=
  (∀ (s : State) (τ : Nat) (p : Nat) (detect : Bool) (a : Nat),
      s.discovers p = true →
      (s.camP p).step ≤ 2 →
      ((s.camP p).since = none ∨ (s.camP p).since.getD 0 + 1000000000 ≤ (s.at τ).now) →
      ((bitList 4 a).filter (fun k => s.laneUsable (4 * p + k))).foldl (fun m k => m + 2 ^ k) 0 = 0 →
      Completes (.connectionTest τ p detect a) s (fun t =>
        (t.camP p).since = some (s.at τ).now ∧ (t.camP p).step = 2 ∧ t.out = s.out))
  ∧
  (∀ (s : State) (τ : Nat) (p : Nat) (detect : Bool) (a : Nat),
      s.discovers p = true →
      (s.camP p).step ≤ 2 →
      ((s.camP p).since = none ∨ (s.camP p).since.getD 0 + 1000000000 ≤ (s.at τ).now) →
      ((bitList 4 a).filter (fun k => s.laneUsable (4 * p + k))).foldl (fun m k => m + 2 ^ k) 0 ≠ 0 →
      Completes (.connectionTest τ p detect a) s (fun t =>
        (t.camP p).since = some (s.at τ).now ∧ (t.camP p).step = 3 ∧ (t.camP p).answered = ((bitList 4 a).filter (fun k => s.laneUsable (4 * p + k))).foldl (fun m k => m + 2 ^ k) 0 ∧
        t.out = [.control p 6, .control p 5, .control p 4, .control p 3, .control p 2, .control p 1, .control p 0] ++ s.out))
  ∧
  (∀ (s : State) (τ : Nat) (p : Nat) (ident : List Nat) (conns maxRate minNs fmt : Nat),
      s.discovers p = true →
      (s.camP p).step = 3 →
      min (min conns (popCount 4 (s.camP p).answered)) (s.rd (bCAM p) CAM_LINK_MAX_LANES) ≠ 0 →
      rateUpTo (min maxRate (s.rd (bCAM p) CAM_LINK_MAX_RATE)) ≠ 0 →
      exec (.controlAcknowledgement τ p ident conns maxRate minNs fmt) s = .next (((s.at τ).setCam p { s.camP p with step := 5, since := some (s.at τ).now, ident := ident, minNs := minNs, fmt := fmt, lanes := min (min conns (popCount 4 (s.camP p).answered)) (s.rd (bCAM p) CAM_LINK_MAX_LANES), rate := rateUpTo (min maxRate (s.rd (bCAM p) CAM_LINK_MAX_RATE)) }).send (.control p 7)))
  ∧
  (∀ (s : State) (τ : Nat) (p : Nat),
      s.discovers p = true →
      (s.camP p).step = 3 →
      (s.camP p).since.getD 0 + 200000000 ≤ (s.at τ).now →
      exec (.controlAckTimeout τ p) s = .next ((s.at τ).setCam p { s.camP p with step := 2, since := none }))
  ∧
  (∀ (s : State) (τ : Nat) (p : Nat),
      s.discovers p = true →
      (s.camP p).step = 5 →
      Completes (.linkTestDone τ p true) s (fun t =>
        t.rd (bCAM p) CAM_LINK_LINK_UP = 1 ∧ t.rd (bCAM p) CAM_LINK_DISC_DONE = 1 ∧ t.rd (bCAM p) CAM_LINK_LANES = (s.camP p).lanes % 16 ∧ t.rd (bCAM p) CAM_LINK_RATE = (s.camP p).rate % 16 ∧ (t.camP p).step = 6 ∧ (t.camP p).hbAt = (s.at τ).now))
  ∧
  (∀ (s : State) (τ : Nat) (p : Nat),
      s.discovers p = true →
      (s.camP p).step = 5 →
      rateUpTo ((s.camP p).rate - 1) ≠ 0 →
      exec (.linkTestDone τ p false) s = .next (((s.at τ).setCam p { s.camP p with rate := rateUpTo ((s.camP p).rate - 1), since := some (s.at τ).now }).send (.control p 7)))
  ∧
  (∀ (s : State) (τ : Nat) (p : Nat),
      p < 8 →
      s.rd (bCAM p) CAM_LINK_LINK_UP = 1 →
      Completes (.camLinkLoss τ p) s (fun t =>
        t.rd (bCAM p) CAM_LINK_LINK_UP = 0 ∧ t.cnt (bCAM p) CAM_CNT_LINKLOSS = satInc (s.cnt (bCAM p) CAM_CNT_LINKLOSS) 1))
  ∧
  (∀ (s : State) (τ : Nat) (p : Nat),
      p < 8 →
      s.rd (bCAM p) CAM_LINK_LINK_UP = 1 →
      (s.camP p).hbAt + 100000000 ≤ (s.at τ).now →
      Completes (.camHeartbeatTimeout τ p) s (fun t =>
        t.rd (bCAM p) CAM_LINK_LINK_UP = 0 ∧ t.cnt (bCAM p) CAM_CNT_LINKLOSS = satInc (s.cnt (bCAM p) CAM_CNT_LINKLOSS) 1))
  ∧
  (∀ (s : State) (τ : Nat) (p : Nat),
      p < 8 →
      s.rd (bCAM p) CAM_LINK_LINK_UP = 1 →
      exec (.camHeartbeat τ p) s = .next ((s.at τ).setCam p { s.camP p with hbAt := (s.at τ).now }))
  ∧
  (∀ (s : State) (τ : Nat) (p : Nat) (payload : List Nat),
      p < 8 →
      s.rd (bCAM p) CAM_LINK_LINK_UP = 1 →
      s.isOn (bCAM p) = true →
      exec (.eventPacket τ p payload) s = .next ((s.at τ).raiseRaw 0x0103 (bCAM p) 0 (if 16 < payload.length then 2 else 0) (payload.map (· % 256))))
  ∧
  (∀ (s : State) (τ : Nat) (p : Nat) (l : CamLine) (r : List CamLine),
      p < 8 →
      s.rd (bCAM p) CAM_LINK_LINK_UP = 1 →
      s.takesData p = true →
      (s.camP p).lines = l :: r →
      exec (.otherPacket τ p) s = .next ((s.at τ).setCam p { s.camP p with lines := { l with bad := true } :: r }))

/-- When the position of the chosen encoder reaches the next grid position above the high-water mark, not moving backward and not held by a job epoch, or the time base the next grid instant, the mark moves there; a rising edge of the selected input that the port has not taken is taken. Each such trigger of a port that streams and does not read OFF, outside the end of a job, adds its line numbers: one, or FRAME_H in frame mode. -/
def Obligations.TriggersMakeLines : Prop :=
  (∀ (s : State) (τ : Nat) (p src : Nat) (h : Int),
      p < 9 →
      (s.at τ).trigSrc p = src + 1 →
      src < 2 →
      (s.at τ).trigStep p = s.trigStep p →
      (s.at τ).trigPhase p = s.trigPhase p →
      (s.at τ).gridOk p = true →
      (s.camP p).hw = some h →
      (nextTrigger (s.trigStep p) (s.trigPhase p) h).2 ≤ (s.at τ).pos src →
      0 ≤ (s.at τ).speed src →
      (s.at τ).epochBars src (nextTrigger (s.trigStep p) (s.trigPhase p) h).2 = false →
      s.streams p = true →
      s.fsm (bCAM p) ≠ fOFF →
      s.lnk.ending = false →
      Completes (.positionTrigger τ p) s (fun t =>
        (t.camP p).hw = some (nextTrigger (s.trigStep p) (s.trigPhase p) h).2 ∧ (t.camP p).next = (s.camP p).next + (if s.act (bCAM p) CAM_LINECFG_MODE = 1 then s.act (bCAM p) CAM_TRIG_FRAME_H else 1)))
  ∧
  (∀ (s : State) (τ : Nat) (p : Nat),
      p < 9 →
      s.trigSrc p = 3 →
      s.gridOk p = true →
      nextInstant (s.trigStep p * 16777216) (s.trigPhase p * 16777216) (s.camP p).timeHw ≤ (s.at τ).tb.time →
      s.streams p = true →
      s.fsm (bCAM p) ≠ fOFF →
      s.lnk.ending = false →
      Completes (.timeTrigger τ p) s (fun t =>
        (t.camP p).timeHw = nextInstant (s.trigStep p * 16777216) (s.trigPhase p * 16777216) (s.camP p).timeHw ∧ (t.camP p).next = (s.camP p).next + (if s.act (bCAM p) CAM_LINECFG_MODE = 1 then s.act (bCAM p) CAM_TRIG_FRAME_H else 1)))
  ∧
  (∀ (s : State) (τ : Nat) (p : Nat),
      p < 9 →
      s.trigSrc p = 4 →
      (s.camP p).diSeen < Store.get 0 s.field.diRise (s.act (bCAM p) CAM_TRIG_DI_SEL) →
      s.streams p = true →
      s.fsm (bCAM p) ≠ fOFF →
      s.lnk.ending = false →
      Completes (.diTrigger τ p) s (fun t =>
        (t.camP p).diSeen = (s.at τ).now + 1 ∧ (t.camP p).next = (s.camP p).next + (if s.act (bCAM p) CAM_LINECFG_MODE = 1 then s.act (bCAM p) CAM_TRIG_FRAME_H else 1)))

/-- With the link up and the oldest line in time, a packet with the line's own number and a good CRC appends its left-aligned samples to the oldest line, and one with a bad CRC is counted on its lane and makes that line corrupt; the lines behind it keep their numbers. The end of the oldest line, with data or corrupt and no line behind it late, judges it by R124, counts its status and adds it to the judged lines. A line without a first pixel LATE_US after its trigger is late or gone when LINE_LATE comes. LATE_US after its stop began a stopping port with no fence outstanding enters OFF. -/
def Obligations.LinesAreReceivedAndJudged : Prop :=
  (∀ (s : State) (τ : Nat) (p lane : Nat) (data : List Nat) (l : CamLine) (r : List CamLine),
      p < 8 →
      s.rd (bCAM p) CAM_LINK_LINK_UP = 1 →
      s.takesData p = true →
      (s.takeInj [4 * p + lane % 4]).1 = false →
      (s.camP p).lines = l :: r →
      l.late = false →
      (l.first = true ∨ (s.at τ).now ≤ l.trigAt + s.act (bCAM p) CAM_DMG_LATE_US * 1000) →
      Completes (.streamDataPacket τ p lane l.idx true data) s (fun t =>
        ∃ m q, (t.camP p).lines = m :: q ∧ q.map CamLine.idx = r.map CamLine.idx ∧ m.idx = l.idx ∧
        m.pix = l.pix ++ data.map (leftAlign (s.camFormat p).1) ∧ m.bad = l.bad ∧ m.first = true))
  ∧
  (∀ (s : State) (τ : Nat) (p lane idx : Nat) (data : List Nat) (l : CamLine) (r : List CamLine),
      p < 8 →
      s.rd (bCAM p) CAM_LINK_LINK_UP = 1 →
      s.takesData p = true →
      (s.camP p).lines = l :: r →
      l.late = false →
      (l.first = true ∨ (s.at τ).now ≤ l.trigAt + s.act (bCAM p) CAM_DMG_LATE_US * 1000) →
      Completes (.streamDataPacket τ p lane idx false data) s (fun t =>
        (∃ m q, (t.camP p).lines = m :: q ∧ q.map CamLine.idx = r.map CamLine.idx ∧ m.idx = l.idx ∧ m.bad = true) ∧ t.cnt (bCAM p) (CAM_CNT_CRC (lane % 4)) = satInc (s.cnt (bCAM p) (CAM_CNT_CRC (lane % 4))) 1))
  ∧
  (∀ (s : State) (τ : Nat) (p : Nat) (l : CamLine) (r : List CamLine),
      p < 8 →
      s.takesData p = true →
      (s.camP p).lines = l :: r →
      (l.first = true ∨ l.bad = true) →
      (∀ x ∈ r, x.late = false) →
      Completes (.lineEnd τ p) s (fun t =>
        (t.camP p).lines = r ∧
        (t.camP p).judged.map CamLine.status = (s.camP p).judged.map CamLine.status ++ [l.judge (s.camWidth p) (s.camChans p)] ∧
        t.cnt (bCAM p) (lineCounter (l.judge (s.camWidth p) (s.camChans p))) = satInc (s.cnt (bCAM p) (lineCounter (l.judge (s.camWidth p) (s.camChans p)))) 1))
  ∧
  (∀ (s : State) (τ : Nat) (p : Nat),
      p < 9 →
      Completes (.lineLate τ p) s (fun t =>
        ∀ l ∈ (t.camP p).lines, l.first = false → l.trigAt + s.act (bCAM p) CAM_DMG_LATE_US * 1000 ≤ (s.at τ).now → l.late = true))
  ∧
  (∀ (s : State) (τ : Nat) (p a : Nat),
      p < 9 →
      (s.camP p).stopAt = some a →
      s.fencing (bCAM p) = false →
      s.fsm (bCAM p) = fSTOPPING →
      a + s.act (bCAM p) CAM_DMG_LATE_US * 1000 ≤ (s.at τ).now →
      Completes (.stopWaitEnd τ p) s (fun t =>
        t.fsm (bCAM p) = fOFF))

/-- At a port that takes data, a line seen on the sampling edges that the valid signals in use let through, with all lines in time, is judged by R124 when it ends and joins the judged lines; the trigger pulse ends after its time. In a powered port a permitted write of SERDATA with less than 16 bytes waiting adds its byte to the transmit buffer and shows TX_FULL with the sixteenth; bytes leave in order; a received byte is kept while less than 16 wait and shows RX_VALID; a permitted read takes the oldest, and shows the flags as they were. -/
def Obligations.ParallelPortAndSerialChannel : Prop :=
  (∀ (s : State) (τ : Nat) (idx ago : Nat) (edges : List Nat) (l : CamLine) (r : List CamLine),
      s.takesData 8 = true →
      (s.camP 8).lines = l :: r →
      l.idx ≤ idx →
      l.late = false →
      (l.first = true ∨ (s.at τ).now ≤ l.trigAt + s.act (bCAM 8) CAM_DMG_LATE_US * 1000 + ago) →
      (∀ x ∈ r, x.late = false ∧ (x.first = true ∨ (s.at τ).now ≤ x.trigAt + s.act (bCAM 8) CAM_DMG_LATE_US * 1000 + ago)) →
      edges.any (fun e => (s.act bPCAM PCAM_IFCFG_USE_DVAL != 1 || bit e 24 == 1) && (s.act bPCAM PCAM_IFCFG_USE_FVAL != 1 || bit e 25 == 1)) = true →
      Completes (.pcamLineEnd τ idx ago edges) s (fun t =>
        (t.camP 8).lines = r ∧
        (t.camP 8).judged.map CamLine.status = (s.camP 8).judged.map CamLine.status ++ [{ l with first := true, pix := l.pix ++ ((edges.filter (fun e => (s.act bPCAM PCAM_IFCFG_USE_DVAL != 1 || bit e 24 == 1) && (s.act bPCAM PCAM_IFCFG_USE_FVAL != 1 || bit e 25 == 1))).flatMap
          (fun e => pcamSamples (s.act bPCAM PCAM_IFCFG_FORMAT_P) (bits e 0 24))) : CamLine }.judge (s.camWidth 8) (s.camChans 8)]))
  ∧
  (∀ (s : State) (τ : Nat) (e : Nat),
      (s.camP 8).cc0 = some e →
      e ≤ (s.at τ).now →
      exec (.cc0PulseEnd τ) s = .next ((s.at τ).setCam 8 { s.camP 8 with cc0 := none }))
  ∧
  (∀ (s : State) (τ : Nat) (i v : Nat),
      s.regAllowed i true bPCAM 0x124 = true →
      s.domOn bPCAM = true →
      (s.camP 8).tx.length < 16 →
      Completes (.pcamSerdataWrite τ i v) s (fun t =>
        (t.camP 8).tx = (s.camP 8).tx ++ [v % 256] ∧ t.rd bPCAM PCAM_SERDATA_TX_FULL = (if (s.camP 8).tx.length = 15 then 1 else 0)))
  ∧
  (∀ (s : State) (τ : Nat) (i : Nat),
      s.regAllowed i false bPCAM 0x124 = true →
      s.domOn bPCAM = true →
      Completes (.pcamSerdataRead τ i) s (fun t =>
        (t.camP 8).rx = (s.camP 8).rx.tail ∧
        t.resp.data = [(if 16 ≤ (s.camP 8).tx.length then 512 else 0) + (if (s.camP 8).rx = [] then 0 else 256) + (s.camP 8).rx.headD 0]))
  ∧
  (∀ (s : State) (τ : Nat) (x : Nat),
      s.domOn bPCAM = true →
      (s.camP 8).rx.length < 16 →
      Completes (.serialByteReceived τ x) s (fun t =>
        (t.camP 8).rx = (s.camP 8).rx ++ [x % 256] ∧ t.rd bPCAM PCAM_SERDATA_RX_VALID = 1))
  ∧
  (∀ (s : State) (τ : Nat) (x : Nat) (r : List Nat),
      (s.camP 8).tx = x :: r →
      Completes (.serialByteSent τ) s (fun t =>
        (t.camP 8).tx = r ∧ t.out = .serial x :: s.out))

/-- While colourimetry reads ON and the Tannery runs, a patch that applies to a part, whose lines have passed stage 2 and which has not been judged is judged with the colour configuration of the part's start, and its result ends the list of results; a patch already judged is not judged again. A permitted TLOAD with GO, no load running, of a listed set from an aligned address shows BUSY and the set and keeps the load; one that breaks a limit shows PARAM_INVALID and starts none. The end of a load clears BUSY, ends the load and shows the status of reading its table. -/
def Obligations.ColourimetryJudgesAndLoads : Prop :=
  (∀ (s : State) (τ : Nat) (p part k : Nat) (x : Patch) (q : TanPart),
      (s.patchesOf p part).find? (fun e => e.1 == k) = some (k, x) →
      s.tanPart x.cam part = some q →
      s.isOn bCLM = true →
      s.runs bTAN = true →
      q.stp = p →
      q.skip = false →
      x.y0 + x.h ≤ q.rows.length →
      s.patchDone p part k = false →
      Completes (.patchJudged τ p part k) s (fun t =>
        t.clm.results.getLast? = some ([p, part, k] ++ judgePatch ((s.at τ).clmFor p q.start) x (q.patchPixels x)) ∧ t.patchDone p part k = true))
  ∧
  (∀ (s : State) (τ : Nat) (p part k : Nat),
      s.patchDone p part k = true →
      exec (.patchJudged τ p part k) s = .next (s.at τ))
  ∧
  (∀ (s : State) (τ : Nat) (i v : Nat),
      s.regAllowed i true bCLM 0x508 = true →
      s.domOn bCLM = true →
      s.runs bCLM = true →
      bit v 0 = 1 →
      s.rd bCLM CLM_TLOAD_BUSY = 0 →
      bits v 4 4 ≤ 8 →
      s.rd64 bCLM CLM_TLOAD_LO CLM_TLOAD_HI % 64 = 0 →
      Completes (.clmTload τ i v) s (fun t =>
        t.rd bCLM CLM_TLOAD_BUSY = 1 ∧ t.rd bCLM CLM_TLOAD_SET = bits v 4 4 ∧ t.clm.load = some (s.rd64 bCLM CLM_TLOAD_LO CLM_TLOAD_HI, bits v 4 4)))
  ∧
  (∀ (s : State) (τ : Nat) (i v : Nat),
      s.regAllowed i true bCLM 0x508 = true →
      s.domOn bCLM = true →
      s.runs bCLM = true →
      bit v 0 = 1 →
      s.rd bCLM CLM_TLOAD_BUSY = 0 →
      (8 < bits v 4 4 ∨ s.rd64 bCLM CLM_TLOAD_LO CLM_TLOAD_HI % 64 ≠ 0) →
      Completes (.clmTload τ i v) s (fun t =>
        t.rd bCLM CLM_TLOAD_LOAD_STATUS = 0x0808 ∧ t.rd bCLM CLM_TLOAD_BUSY = 0 ∧ t.clm = s.clm))
  ∧
  (∀ (s : State) (τ : Nat) (a set : Nat),
      s.clm.load = some (a, set) →
      Completes (.clmTloadDone τ) s (fun t =>
        t.rd bCLM CLM_TLOAD_BUSY = 0 ∧ t.clm.load = none ∧ t.rd bCLM CLM_TLOAD_LOAD_STATUS = ((s.at τ).hwRead iTAN a (8 * tabEntries)).2.1))

/-- At a port that takes data the first pixel of the oldest line marks it taken in, and, when it is its first, without space when eight lines with space are held. While the Tannery runs, a line verdict takes the oldest judged line and advances the port's count of lines, which a restarted stream begins at 1. The commit of a complete group of a region of a part that is written adds one entry and advances the ring's write index when an entry is free and the arena has room, and counts the loss and leaves the index when no entry is free. A permitted release marks the entry with its index and frees the released entries from the oldest on. -/
def Obligations.TanneryTakesLinesAndCommitsGroups : Prop :=
  (∀ (s : State) (τ : Nat) (p : Nat) (l : CamLine) (r : List CamLine),
      p < 9 →
      s.takesData p = true →
      (s.camP p).lines = l :: r →
      Completes (.intakeFirstPixel τ p) s (fun t =>
        ∃ m, (t.camP p).lines = m :: r ∧ m.first = true ∧
        (l.first = false → m.full = decide (8 ≤ (((s.camP p).lines ++ (s.camP p).judged).filter (fun y => y.first && !y.full)).length))))
  ∧
  (∀ (s : State) (τ : Nat) (p corr unc retry fail : Nat) (l : CamLine) (r : List CamLine),
      (s.camP p).judged = l :: r →
      s.runs bTAN = true →
      Completes (.lineVerdict τ p corr unc retry fail) s (fun t =>
        (t.camP p).judged = r ∧ (t.tanP p).count = (if l.fresh then 0 else (s.tanP p).count) + 1))
  ∧
  (∀ (s : State) (τ : Nat) (p part ri corr retry : Nat) (unc fail bad : List Nat) (q : TanPart) (b : List Nat),
      s.tanPart p part = some q →
      (q.cfg.regionsOf p).find? (fun e => e.1 == ri) = some (ri, b) →
      s.runs bTAN = true →
      q.skip = false →
      q.off = false →
      Store.get 0 q.done ri < groupEnd b (Store.get 0 q.done ri) →
      groupEnd b (Store.get 0 q.done ri) ≤ q.avail b →
      s.ringFree ≠ 0 →
      ((s.arenaPlace ((List.range (groupEnd b (Store.get 0 q.done ri) - Store.get 0 q.done ri)).flatMap (fun k => (q.hideRows (s.act (bCAM p) CAM_DMG_PAD_VALUE) (unc ++ fail)).outRow b (Store.get 0 q.done ri + k))).length).isSome = true) →
      Completes (.groupCommit τ p part ri corr unc retry fail bad) s (fun t =>
        t.rd bTAN TAN_RING_WR_WR = (s.rd bTAN TAN_RING_WR_WR + 1) % 2 ^ TAN_RING_WR_WR.w ∧ t.tan.entries.length = s.tan.entries.length + 1))
  ∧
  (∀ (s : State) (τ : Nat) (p part ri corr retry : Nat) (unc fail bad : List Nat) (q : TanPart) (b : List Nat),
      s.tanPart p part = some q →
      (q.cfg.regionsOf p).find? (fun e => e.1 == ri) = some (ri, b) →
      s.runs bTAN = true →
      q.skip = false →
      q.off = false →
      Store.get 0 q.done ri < groupEnd b (Store.get 0 q.done ri) →
      groupEnd b (Store.get 0 q.done ri) ≤ q.avail b →
      s.ringFree = 0 →
      Completes (.groupCommit τ p part ri corr unc retry fail bad) s (fun t =>
        t.rd bTAN TAN_RING_WR_WR = s.rd bTAN TAN_RING_WR_WR ∧ t.cnt bTAN TAN_CNT_RINGFULL = satInc (s.cnt bTAN TAN_CNT_RINGFULL) 1))
  ∧
  (∀ (s : State) (τ : Nat) (i v : Nat),
      s.regAllowed i true bTAN 0x314 = true →
      s.domOn bTAN = true →
      Completes (.tanRingRel τ i v) s (fun t =>
        t.tan.entries = dropReleased (s.tan.entries.map (fun e => if e.idx == v % 65536 then { e with rel := true } else e))))

/-- A permitted doorbell queues the descriptor address that ART_DB_HI and the word give, or sets DB_LOST when four wait; while the Tannery runs the oldest decode leaves the queue. A permitted DICT_LOAD with GO and no load running shows BUSY and its slot and keeps the load, whose end clears BUSY. A permitted TXTQ_WR sets the write offset and nothing else. The tokenizer moves the read offset past the record it takes: 16 bytes of header and the text rounded up to 8, modulo the queue's size (for a record that lies in the queue, reads without error and is no end mark). -/
def Obligations.ArtworkDictionariesAndText : Prop :=
  (∀ (s : State) (τ : Nat) (i v : Nat),
      s.regAllowed i true bTAN 0x404 = true →
      s.domOn bTAN = true →
      s.tan.art.length < 4 →
      Completes (.tanArtDb τ i v) s (fun t =>
        t.tan.art = s.tan.art ++ [v % 4294967296 + 4294967296 * s.rd bTAN TAN_ART_DB_HI] ∧ t.rd bTAN TAN_ART_STAT_QUEUED = s.tan.art.length + 1))
  ∧
  (∀ (s : State) (τ : Nat) (i v : Nat),
      s.regAllowed i true bTAN 0x404 = true →
      s.domOn bTAN = true →
      4 ≤ s.tan.art.length →
      exec (.tanArtDb τ i v) s = .next ((s.at τ).wr bTAN TAN_ART_STAT_DB_LOST 1))
  ∧
  (∀ (s : State) (τ : Nat) (a : Nat) (r : List Nat),
      s.tan.art = a :: r →
      s.runs bTAN = true →
      r.length < 8 →
      Completes (.decodeDone τ) s (fun t =>
        t.tan.art = r ∧ t.rd bTAN TAN_ART_STAT_QUEUED = r.length))
  ∧
  (∀ (s : State) (τ : Nat) (i v : Nat),
      s.regAllowed i true bTAN 0x580 = true →
      s.domOn bTAN = true →
      s.rd bTAN TAN_DICT_LOAD_BUSY ≠ 1 →
      bit v 4 = 1 →
      s.runs bTAN = true →
      Completes (.tanDictLoad τ i v) s (fun t =>
        t.rd bTAN TAN_DICT_LOAD_BUSY = 1 ∧ t.rd bTAN TAN_DICT_LOAD_SLOT = bits v 0 4 ∧
        t.tan.loading = some (s.rd64 bTAN (TAN_DICT_ADDR_LO (bits v 0 4)) (TAN_DICT_ADDR_HI (bits v 0 4)), bits v 0 4)))
  ∧
  (∀ (s : State) (τ : Nat) (a k : Nat),
      s.tan.loading = some (a, k) →
      Completes (.dictLoadDone τ) s (fun t =>
        t.rd bTAN TAN_DICT_LOAD_BUSY = 0 ∧ t.tan.loading = none))
  ∧
  (∀ (s : State) (τ : Nat) (i v : Nat),
      s.regAllowed i true bTAN 0x60C = true →
      s.domOn bTAN = true →
      exec (.tanTxtqWr τ i v) s = .next ((s.at τ).wr bTAN TAN_TXTQ_WR v))
  ∧
  (∀ (s : State) (τ : Nat),
      s.runs bTAN = true →
      s.rd bTAN TAN_TXTQ_RD + 16 ≤ s.txtSize →
      s.rd bTAN TAN_TXTQ_RD ≠ s.rd bTAN TAN_TXTQ_WR →
      (s.hwRead iTAN (s.rd64 bTAN TAN_TXTQ_BASE_LO TAN_TXTQ_BASE_HI + s.rd bTAN TAN_TXTQ_RD) 16).2.1 = 0 →
      s.pwr.entry = none →
      (s.hwRead iTAN (s.rd64 bTAN TAN_TXTQ_BASE_LO TAN_TXTQ_BASE_HI + s.rd bTAN TAN_TXTQ_RD) 16).1.mem = s.mem →
      s.readLE (s.rd64 bTAN TAN_TXTQ_BASE_LO TAN_TXTQ_BASE_HI + s.rd bTAN TAN_TXTQ_RD + 10) 2 ≠ 0xFFFF →
      Completes (.textRecord τ) s (fun t =>
        t.rd bTAN TAN_TXTQ_RD =
          ((s.rd bTAN TAN_TXTQ_RD + 16 + (s.readLE (s.rd64 bTAN TAN_TXTQ_BASE_LO TAN_TXTQ_BASE_HI + s.rd bTAN TAN_TXTQ_RD + 10) 2 + 7) / 8 * 8) % s.txtSize) % 2 ^ TAN_TXTQ_RD.w))

/-- A permitted write of 1 to 64 bytes to the DRAM answers success and the bytes written read back; with no errors in the lines written in part nor in words of cached lines, no report waiting and no sleep entry under way nothing else in memory changes; poisoned data poisons every line. Under those conditions on the lines read, a permitted read without a new error returns the bytes and changes no byte, and, with no injection armed, one new erroneous symbol still succeeds and is counted as corrected by the line's controller. Two or three symbols in a sound line answer ECC_UNCORRECTABLE with poisoned data and leave the line so; a line of another address answers ECC_UNCORRECTABLE too and is counted as uncorrectable. -/
def Obligations.DramReadsAndWrites : Prop :=
  (∀ (s : State) (τ : Nat) (i a : Nat) (data : List Nat) (poisoned : Bool),
      1 ≤ data.length →
      data.length ≤ 64 →
      inDram a data.length = true →
      s.memAllowed i true a data.length = true →
      Completes (.dramWrite τ i a data poisoned) s (fun t =>
        t.resp.status = 0 ∧ t.bytes a data.length = data.map (· % 256)))
  ∧
  (∀ (s : State) (τ : Nat) (i a : Nat) (data : List Nat) (poisoned : Bool),
      1 ≤ data.length →
      data.length ≤ 64 →
      inDram a data.length = true →
      s.memAllowed i true a data.length = true →
      (∀ u ∈ partUnits a data.length, Store.get 0 s.errs u = 0 ∧ Store.get false s.poison u = false) →
      s.pwr.entry = none →
      s.memu.word = [] →
      s.memu.found = [] →
      Completes (.dramWrite τ i a data poisoned) s (fun t =>
        t.mem = memPuts s.mem a (data.map (· % 256))))
  ∧
  (∀ (s : State) (τ : Nat) (i a : Nat) (data : List Nat),
      1 ≤ data.length →
      data.length ≤ 64 →
      inDram a data.length = true →
      s.memAllowed i true a data.length = true →
      Completes (.dramWrite τ i a data true) s (fun t =>
        ∀ u ∈ unitsOf a data.length, Store.get false t.poison u = true))
  ∧
  (∀ (s : State) (τ : Nat) (i a n kind : Nat),
      1 ≤ n →
      n ≤ 64 →
      inDram a n = true →
      s.memAllowed i false a n = true →
      kind ≠ 1 →
      (∀ u ∈ unitsOf a n, Store.get 0 s.errs u = 0 ∧ Store.get false s.poison u = false) →
      s.pwr.entry = none →
      s.memu.word = [] →
      s.memu.found = [] →
      Completes (.dramRead τ i a n kind 0) s (fun t =>
        t.resp = { status := 0, data := s.bytes a n, poisoned := false } ∧ t.mem = s.mem))
  ∧
  (∀ (s : State) (τ : Nat) (i a n : Nat),
      1 ≤ n →
      n ≤ 64 →
      inDram a n = true →
      s.memAllowed i false a n = true →
      (∀ u ∈ unitsOf a n, Store.get 0 s.errs u = 0 ∧ Store.get false s.poison u = false) →
      s.pwr.entry = none →
      s.memu.word = [] →
      s.memu.found = [] →
      s.rd bMEM4 MEM4_INJ_ARM = 0 →
      Completes (.dramRead τ i a n 0 1) s (fun t =>
        t.resp.status = 0 ∧ t.cnt bMEM4 (MEM4_CNT_DRAM_CE (controllerOf (unitOf a))) = satInc (s.cnt bMEM4 (MEM4_CNT_DRAM_CE (controllerOf (unitOf a)))) 1))
  ∧
  (∀ (s : State) (τ : Nat) (i a n bad : Nat),
      1 ≤ n →
      n ≤ 64 →
      inDram a n = true →
      s.memAllowed i false a n = true →
      (∀ u ∈ unitsOf a n, Store.get 0 s.errs u = 0 ∧ Store.get false s.poison u = false) →
      2 ≤ bad →
      bad ≤ 3 →
      s.rd bMEM4 MEM4_INJ_ARM = 0 →
      Completes (.dramRead τ i a n 0 bad) s (fun t =>
        t.resp.status = 0x0304 ∧ t.resp.poisoned = true ∧ t.poisoned a n = true))
  ∧
  (∀ (s : State) (τ : Nat) (i a n bad : Nat),
      1 ≤ n →
      n ≤ 64 →
      inDram a n = true →
      s.memAllowed i false a n = true →
      Completes (.dramRead τ i a n 1 bad) s (fun t =>
        t.resp.status = 0x0304 ∧ t.resp.poisoned = true ∧ t.cnt bMEM4 (MEM4_CNT_DRAM_UE (controllerOf a)) = satInc (s.cnt bMEM4 (MEM4_CNT_DRAM_UE (controllerOf a))) 1))

/-- Reading a memory after bytes are put at rising addresses gives the byte put there, modulo 256, and elsewhere what it gave before; putting bytes keeps the canonical form. -/
def Obligations.BytesReadBackAndKeepTheCanonicalForm : Prop :=
  (∀ (m : List Host.Cell) (l : List Nat) (a x : Nat), a ≤ x → x < a + l.length →
      Store.get memDefault (memPuts m a l) x = BitVec.ofNat 8 (l.getD (x - a) 0))
  ∧
  (∀ (m : List Host.Cell) (l : List Nat) (a x : Nat), (x < a ∨ a + l.length ≤ x) →
      Store.get memDefault (memPuts m a l) x = Store.get memDefault m x)
  ∧
  (∀ (m : List Host.Cell) (l : List Nat) (a : Nat), Memory.wf m = true → Memory.wf (memPuts m a l) = true)

/-- With SCRUB_EN set, MEM4 in ON and the module above S2, a scrub read that is due takes the next line, counts a pass after the last, and sets the next one due SCRUB_PERIOD_H hours divided by the number of lines later, or now if that has passed. A permitted DRAIN of a slice in ON that holds buckets shows DRAIN and leaves it no bucket when another slice can take them; the end of a drain shows DRAINED and the slice holds no line. A permitted write of the index of an unread log record releases the records up to it and changes nothing else. A write of INJ with ARM by a management core or the host outside a job arms a listed target and unit. -/
def Obligations.SlicesScrubLogAndInjection : Prop :=
  (∀ (s : State) (τ : Nat) (bad : Nat),
      s.rd bMEM4 MEM4_SCRUB_SCRUB_EN = 1 →
      s.isOn bMEM4 = true →
      s.rd bPWR PWR_STAT_STATE < 2 →
      s.memu.scrubDue ≤ (s.at τ).now * dramLines →
      Completes (.scrubRead τ bad) s (fun t =>
        t.memu.scrubLine = (if dramLines ≤ s.memu.scrubLine + 1 then 0 else s.memu.scrubLine + 1) ∧
        t.memu.scrubDue = max (s.memu.scrubDue + s.rd bMEM4 MEM4_SCRUB_PERIOD_H * 3600000000000) ((s.at τ).now * dramLines) ∧
        t.cnt bMEM4 MEM4_CNT_SCRUB_PASSES = (if dramLines ≤ s.memu.scrubLine + 1 then satInc (s.cnt bMEM4 MEM4_CNT_SCRUB_PASSES) 1 else s.cnt bMEM4 MEM4_CNT_SCRUB_PASSES)))
  ∧
  (∀ (s : State) (τ : Nat) (i n v : Nat),
      n < 4 →
      s.regAllowed i true (bMEM n) 4 = true →
      v % 2 = 1 →
      s.sliceSt n = 0 →
      s.isOn (bMEM n) = true →
      Completes (.drain τ i n v) s (fun t =>
        t.sliceSt n = 1 ∧ t.rd (bMEM n) MEM_CTRL_DRAIN = 1 ∧
        ((List.range 4).any (fun k => k != n && s.sliceSt k == 0 && s.isOn (bMEM k)) = true → ∀ k ∈ List.range 256, t.sliceOf k ≠ n)))
  ∧
  (∀ (s : State) (τ : Nat) (n : Nat),
      n < 4 →
      s.sliceSt n = 1 →
      Completes (.drainDone τ n) s (fun t =>
        t.sliceSt n = 3 ∧ t.rd (bMEM n) MEM_CTRL_DRAINED = 1 ∧ ∀ e ∈ t.memu.lines, e.2.slice ≠ n))
  ∧
  (∀ (s : State) (τ : Nat) (i v d : Nat),
      s.regAllowed i true bMEM4 0x300 = true →
      v % 256 = (s.memu.logIdx + d) % 256 →
      d < s.memu.log.length →
      d < 256 →
      exec (.mem4LogRd τ i v) s = .next ((s.at τ).setMem { s.memu with log := s.memu.log.drop (d + 1), logIdx := (s.memu.logIdx + d + 1) % 256 }))
  ∧
  (∀ (s : State) (τ : Nat) (i v : Nat),
      s.mgmtOrHost i = true →
      s.jobRun = false →
      bit v 0 = 1 →
      injListed (bits v 20 4) (bits v 24 8) = true →
      Completes (.arm τ i v) s (fun t =>
        t.rd bMEM4 MEM4_INJ_ARM = 1 ∧ t.rd bMEM4 MEM4_INJ_TARGET = bits v 20 4 ∧ t.rd bMEM4 MEM4_INJ_UNIT = bits v 24 8))

/-- A cluster that takes tiles and has no tile bound to it starts the chosen tile of the chosen kernel command that has begun, when the activity window lets its clock run and the entry holds a listed word: at the entry, with the tile index in s1, the number of tiles in s3, no store held, and the upsets of the run. A tile whose end has come without a mismatch completes: the cluster is free and the tile is counted. A first run with a mismatch, or one that has not completed in 64 microseconds, leaves the cluster, which is free, and waits for its rerun there, unless its command has stopped. -/
def Obligations.TilesStartAndEnd : Prop :=
  (∀ (s : State) (τ : Nat) (c n : Nat) (ups : List (Nat × Nat × Nat)) (ecc : List Nat) (x : Cmd),
      ((s.at τ).icSpoil c ecc).takesTiles c = true →
      s.sch.forced.find? (fun f => f.cl == c) = none →
      ((s.at τ).icSpoil c ecc).nextCmd c = some x →
      s.cmd? x.ptr = some x →
      x.kind = 0 →
      x.begun = true →
      ((s.at τ).icSpoil c ecc).tileFor c x = some n →
      (((s.at τ).icSpoil c ecc).startClock c).2 = true →
      listedWord (((s.at τ).icSpoil c ecc).codeWord c { code := x.code, pc := x.entry }) = true →
      n < 2 ^ 64 →
      x.tiles < 2 ^ 64 →
      Completes (.tileDispatch τ c ups ecc) s (fun t =>
        ∃ T, t.tileOf c = some T ∧ T.q = x.ptr ∧ T.tile = n ∧ T.stage = 0 ∧ T.pc = x.entry ∧ T.sreg 1 = n ∧ T.sreg 3 = x.tiles ∧ T.buf = [] ∧ T.ups = ups))
  ∧
  (∀ (s : State) (τ : Nat) (c : Nat) (T : Tile),
      s.tileOf c = some T →
      T.ended = true →
      T.mism = false →
      Completes (.tileEnd τ c) s (fun t =>
        t.tileOf c = none ∧ t.cnt (bCLU c) CLU_CNT_TILES = satInc (s.cnt (bCLU c) CLU_CNT_TILES) 1))
  ∧
  (∀ (s : State) (τ : Nat) (c : Nat) (T : Tile) (x : Cmd),
      s.tileOf c = some T →
      T.ended = true →
      T.mism = true →
      T.stage = 0 →
      s.cmd? T.q = some x →
      x.stopped = false →
      Completes (.tileEnd τ c) s (fun t =>
        t.tileOf c = none ∧ (∃ f ∈ t.sch.forced, f.cl = c ∧ f.q = T.q ∧ f.tile = T.tile ∧ f.stage = 1) ∧ t.cnt (bCLU c) CLU_CNT_RERUN = satInc (s.cnt (bCLU c) CLU_CNT_RERUN) 1))
  ∧
  (∀ (s : State) (τ : Nat) (c : Nat) (T : Tile) (x : Cmd),
      s.tileOf c = some T →
      T.since + 64000 ≤ (s.at τ).now →
      T.stage = 0 →
      s.cmd? T.q = some x →
      x.stopped = false →
      Completes (.tileHung τ c) s (fun t =>
        t.tileOf c = none ∧ (∃ f ∈ t.sch.forced, f.cl = c ∧ f.q = T.q ∧ f.tile = T.tile ∧ f.stage = 1 ∧ f.hung = true)))

/-- Each scalar instruction of two registers, of one register, and sel, when it issues with its zero fields 0 and the next instruction is listed, writes RD with its operation on the 64-bit values of RA and RB (s0 ignores the write), adds 1 to the work count, goes on at the next index or the start of the loop body, and changes nothing else but what issuing changes (the fetch, and upsets of the tile's stored data that are due). -/
def Obligations.ScalarRegisterOperations : Prop :=
  (∀ e ∈ scalarRows, ∀ (s : State) (c : Nat) (t : Tile) (pr : BitVec 4) (body : BitVec 48), t.InRange → fRC body.toNat = 0 → bits body.toNat 0 28 = 0 →
      Runs s c t 0 e.2.1 1 pr body = true →
      exec (e.1 c pr body) s = .next (s.after c t 1 (fun x =>
        x.setS (fRD body.toNat) (e.2.2 (t.x (fRA body.toNat)) (t.x (fRB body.toNat))).toNat)))
  ∧
  (∀ e ∈ scalarRows1, ∀ (s : State) (c : Nat) (t : Tile) (pr : BitVec 4) (body : BitVec 48), t.InRange → fRB body.toNat = 0 → fRC body.toNat = 0 → bits body.toNat 0 28 = 0 →
      Runs s c t 0 e.2.1 1 pr body = true →
      exec (e.1 c pr body) s = .next (s.after c t 1 (fun x => x.setS (fRD body.toNat) (e.2.2 (t.x (fRA body.toNat))).toNat)))
  ∧
  (∀ (s : State) (c : Nat) (t : Tile) (pr : BitVec 4) (body : BitVec 48), fRC body.toNat < 8 → bits body.toNat 0 28 = 0 →
      Runs s c t 0 0x14 1 pr body = true →
      exec (.sel c pr body) s = .next (s.after c t 1 (fun x =>
        x.setS (fRD body.toNat) (if t.preg (fRC body.toNat) then t.sreg (fRA body.toNat) else t.sreg (fRB body.toNat)))))

/-- div and divu by zero write all ones, rem and remu by zero write the dividend; the most negative value divided by -1 gives itself with remainder 0. Each of them completes: exec answers the next state. -/
def Obligations.DivisionNeverTraps : Prop :=
  (∀ (s : State) (c : Nat) (t : Tile) (pr : BitVec 4) (body : BitVec 48), t.InRange → fRC body.toNat = 0 → bits body.toNat 0 28 = 0 → t.x (fRB body.toNat) = 0 →
      (Runs s c t 0 0x06 1 pr body = true →
        exec (.div c pr body) s = .next (s.after c t 1 (fun x => x.setS (fRD body.toNat) 0xFFFFFFFFFFFFFFFF))) ∧
      (Runs s c t 0 0x07 1 pr body = true →
        exec (.divu c pr body) s = .next (s.after c t 1 (fun x => x.setS (fRD body.toNat) 0xFFFFFFFFFFFFFFFF))) ∧
      (Runs s c t 0 0x08 1 pr body = true →
        exec (.rem c pr body) s = .next (s.after c t 1 (fun x => x.setS (fRD body.toNat) (t.sreg (fRA body.toNat))))) ∧
      (Runs s c t 0 0x09 1 pr body = true →
        exec (.remu c pr body) s = .next (s.after c t 1 (fun x => x.setS (fRD body.toNat) (t.sreg (fRA body.toNat))))))
  ∧
  (∀ (s : State) (c : Nat) (t : Tile) (pr : BitVec 4) (body : BitVec 48), t.InRange → fRC body.toNat = 0 → bits body.toNat 0 28 = 0 →
      t.x (fRA body.toNat) = BitVec.intMin 64 → t.x (fRB body.toNat) = BitVec.allOnes 64 →
      (Runs s c t 0 0x06 1 pr body = true →
        exec (.div c pr body) s = .next (s.after c t 1 (fun x => x.setS (fRD body.toNat) 0x8000000000000000))) ∧
      (Runs s c t 0 0x08 1 pr body = true →
        exec (.rem c pr body) s = .next (s.after c t 1 (fun x => x.setS (fRD body.toNat) 0))))

/-- Each operation of a register and the sign-extended immediate, each shift by an immediate below 64, li and lih, when it issues with its zero fields 0 and the next instruction is listed, writes RD with the 64-bit result and changes nothing else but the program counter and what issuing changes (the fetch, the work count, upsets of stored data that are due). -/
def Obligations.ScalarImmediateOperations : Prop :=
  (∀ e ∈ immRows, ∀ (s : State) (c : Nat) (t : Tile) (pr : BitVec 4) (body : BitVec 48), t.InRange → bits body.toNat 32 6 = 0 →
      Runs s c t 1 e.2.1 1 pr body = true →
      exec (e.1 c pr body) s = .next (s.after c t 1 (fun x => x.setS (fRD body.toNat) (e.2.2 (t.x (fRA body.toNat)) (immX body)).toNat)))
  ∧
  (∀ e ∈ shiftRows, ∀ (s : State) (c : Nat) (t : Tile) (pr : BitVec 4) (body : BitVec 48), t.InRange → bits body.toNat 32 6 = 0 → fIMM body.toNat < 64 →
      Runs s c t 1 e.2.1 1 pr body = true →
      exec (e.1 c pr body) s = .next (s.after c t 1 (fun x =>
        x.setS (fRD body.toNat) (e.2.2 (t.x (fRA body.toNat)) (fIMM body.toNat)).toNat)))
  ∧
  (∀ (s : State) (c : Nat) (t : Tile) (pr : BitVec 4) (body : BitVec 48), bits body.toNat 32 6 = 0 → fRA body.toNat = 0 →
      (Runs s c t 1 0x20 1 pr body = true →
        exec (.li c pr body) s = .next (s.after c t 1 (fun x => x.setS (fRD body.toNat) (immX body).toNat))) ∧
      (t.InRange → Runs s c t 1 0x21 1 pr body = true →
        exec (.lih c pr body) s = .next (s.after c t 1 (fun x =>
          x.setS (fRD body.toNat) (BitVec.ofNat 32 (fIMM body.toNat) ++ (t.x (fRD body.toNat)).setWidth 32).toNat))))

/-- Each comparison of two registers or of a register and the sign-extended immediate, and each operation of two predicates, when it issues with its zero fields 0, predicates below 8 and the next instruction listed, writes the predicate RD; p0 keeps reading 1; nothing else changes but the program counter and what issuing changes (the fetch, the work count, upsets of stored data that are due). -/
def Obligations.PredicateOperations : Prop :=
  (∀ e ∈ cmpRows, ∀ (s : State) (c : Nat) (t : Tile) (pr : BitVec 4) (body : BitVec 48), t.InRange → fRD body.toNat < 8 →
      (fRC body.toNat = 0 → bits body.toNat 0 28 = 0 → Runs s c t 2 e.2.2.1 1 pr body = true →
        exec (e.1 c pr body) s = .next (s.after c t 1 (fun x =>
          x.setP (fRD body.toNat) (e.2.2.2 (t.x (fRA body.toNat)) (t.x (fRB body.toNat)))))) ∧
      (bits body.toNat 32 6 = 0 → Runs s c t 2 (0x10 + e.2.2.1) 1 pr body = true →
        exec (e.2.1 c pr body) s = .next (s.after c t 1 (fun x => x.setP (fRD body.toNat) (e.2.2.2 (t.x (fRA body.toNat)) (immX body))))))
  ∧
  (∀ e ∈ predRows, ∀ (s : State) (c : Nat) (t : Tile) (pr : BitVec 4) (body : BitVec 48), fRD body.toNat < 8 → fRA body.toNat < 8 →
      fRB body.toNat < 8 → fRC body.toNat = 0 → bits body.toNat 0 28 = 0 → Runs s c t 2 e.2.1 1 pr body = true →
      exec (e.1 c pr body) s = .next (s.after c t 1 (fun x =>
        x.setP (fRD body.toNat) (e.2.2 (t.preg (fRA body.toNat)) (t.preg (fRB body.toNat))))))
  ∧
  (∀ (t : Tile) (b : Bool), t.setP 0 b = t ∧ t.preg 0 = true ∧ ∀ n, n ≠ 0 → (t.setP n b).preg n = b)

/-- amov, aadd, aaddi, amovs and alocal, when they issue with their zero fields 0, address registers below 16 and the next instruction listed, write RD: sums are taken in bits 62:0 and keep bit 63 of RA; alocal sets bit 63 with the unsigned immediate; amov takes the scalar RB (log entry 117) and amovs the address register RA. Nothing else changes but the program counter and what issuing changes. -/
def Obligations.AddressOperations : Prop :=
  (∀ (s : State) (c : Nat) (t : Tile) (pr : BitVec 4) (body : BitVec 48), t.InRange → fRD body.toNat < 16 →
      (fRA body.toNat < 16 → fRC body.toNat = 0 → bits body.toNat 0 28 = 0 → Runs s c t 3 1 1 pr body = true →
        exec (.amov c pr body) s = .next (s.after c t 1 (fun x => x.setA (fRD body.toNat) (t.sreg (fRB body.toNat))))) ∧
      (fRA body.toNat < 16 → fRC body.toNat = 0 → bits body.toNat 0 28 = 0 → Runs s c t 3 2 1 pr body = true →
        exec (.aadd c pr body) s = .next (s.after c t 1 (fun x => x.setA (fRD body.toNat)
          (((t.y (fRA body.toNat)).extractLsb' 63 1 ++ ((t.y (fRA body.toNat)).setWidth 63 + (t.x (fRB body.toNat)).setWidth 63))).toNat))) ∧
      (fRA body.toNat < 16 → bits body.toNat 32 6 = 0 → Runs s c t 3 3 1 pr body = true →
        exec (.aaddi c pr body) s = .next (s.after c t 1 (fun x => x.setA (fRD body.toNat)
          (((t.y (fRA body.toNat)).extractLsb' 63 1 ++ ((t.y (fRA body.toNat)).setWidth 63 + (immX body).setWidth 63))).toNat))) ∧
      (fRA body.toNat = 0 → bits body.toNat 32 6 = 0 → Runs s c t 3 5 1 pr body = true →
        exec (.alocal c pr body) s = .next (s.after c t 1 (fun x => x.setA (fRD body.toNat) (2 ^ 63 + fIMM body.toNat)))))
  ∧
  (∀ (s : State) (c : Nat) (t : Tile) (pr : BitVec 4) (body : BitVec 48), t.InRange → fRA body.toNat < 16 → fRB body.toNat = 0 → fRC body.toNat = 0 → bits body.toNat 0 28 = 0 →
      Runs s c t 3 4 1 pr body = true →
      exec (.amovs c pr body) s = .next (s.after c t 1 (fun x => x.setS (fRD body.toNat) (t.y (fRA body.toNat)).toNat)))

/-- br, jr, call and ret to a target inside the code object, with room on or content of the return stack, and loop with a body inside the code object, go on at the target, and leave the loops the transfer leaves; loop with count 0 skips its body, otherwise it pushes the body and its count. The end of the innermost loop goes back to its start while passes remain. -/
def Obligations.ControlTransfers : Prop :=
  (∀ (s : State) (c : Nat) (t : Tile) (pr : BitVec 4) (body : BitVec 48), bits body.toNat 43 5 = 0 → bits body.toNat 32 6 = 0 →
      (∀ n : Nat, fRA body.toNat = 0 → (t.pc : Int) + (BitVec.ofNat 32 (fIMM body.toNat)).toInt = n → n < t.len →
        (Issues s c t 4 1 1 pr body = true → Lands (s.issued c t 1).1 c { t with loops := loopsAt t.loops n } n = true →
          exec (.br c pr body) s = .next ((s.issued c t 1).1.placed c { (s.issued c t 1).2 with loops := loopsAt t.loops n } n)) ∧
        (Issues s c t 4 3 1 pr body = true → t.rets.length < 8 → Lands (s.issued c t 1).1 c { t with loops := loopsAt t.loops n } n = true →
          exec (.call c pr body) s = .next ((s.issued c t 1).1.placed c
            { (s.issued c t 1).2 with loops := loopsAt t.loops n, rets := (t.pc + 1) :: t.rets } n))) ∧
      (∀ n : Nat, fIMM body.toNat = 0 → n < t.len →
        (Issues s c t 4 2 1 pr body = true → (t.x (fRA body.toNat)).toNat = n → t.len < 2 ^ 63 →
          Lands (s.issued c t 1).1 c { t with loops := loopsAt t.loops n } n = true →
          exec (.jr c pr body) s = .next ((s.issued c t 1).1.placed c { (s.issued c t 1).2 with loops := loopsAt t.loops n } n)) ∧
        (∀ r, Issues s c t 4 4 1 pr body = true → fRA body.toNat = 0 → t.rets = n :: r →
          Lands (s.issued c t 1).1 c { t with loops := loopsAt t.loops n } n = true →
          exec (.ret c pr body) s = .next ((s.issued c t 1).1.placed c
            { (s.issued c t 1).2 with loops := loopsAt t.loops n, rets := r } n))))
  ∧
  (∀ (s : State) (c : Nat) (t : Tile) (pr : BitVec 4) (body : BitVec 48), bits body.toNat 43 5 = 0 → bits body.toNat 32 6 = 0 →
      Issues s c t 4 5 1 pr body = true → 1 ≤ fIMM body.toNat → fIMM body.toNat ≤ 4096 → t.pc + fIMM body.toNat < t.len →
      (t.sreg (fRA body.toNat) = 0 → Lands (s.issued c t 1).1 c t (t.pc + 1 + fIMM body.toNat) = true →
        exec (.loop c pr body) s = .next ((s.issued c t 1).1.placed c (s.issued c t 1).2 (t.pc + 1 + fIMM body.toNat))) ∧
      (t.sreg (fRA body.toNat) ≠ 0 → t.loops.length < 4 →
        Lands (s.issued c t 1).1 c { t with loops := (t.pc + 1, t.pc + fIMM body.toNat, t.sreg (fRA body.toNat)) :: t.loops } (t.pc + 1) = true →
        exec (.loop c pr body) s = .next ((s.issued c t 1).1.placed c { (s.issued c t 1).2 with
          loops := (t.pc + 1, t.pc + fIMM body.toNat, t.sreg (fRA body.toNat)) :: t.loops } (t.pc + 1))))
  ∧
  (∀ (t : Tile) (a b k next : Nat) (r : List (Nat × Nat × Nat)), t.loops = (a, b, k) :: r →
      (t.pc = b → 2 ≤ k → t.stepLoop next = { t with pc := a, loops := (a, b, k - 1) :: r }) ∧
      (t.pc = b → k = 1 → t.stepLoop next = { t with pc := next, loops := r }) ∧
      (t.pc ≠ b → t.stepLoop next = { t with pc := next }))

/-- nop and wait, when they issue and the next instruction is listed, change nothing but what issuing changes and the program counter; xpf also declares its stream to the cluster's prefetchers where its address lies in a segment that the tile may read, and nothing otherwise; end marks the tile ended; trap ends the tile with PROGRAM_TRAP and its code. -/
def Obligations.SystemInstructions : Prop :=
  (∀ (s : State) (c : Nat) (t : Tile) (pr : BitVec 4) (body : BitVec 48), bits body.toNat 43 5 = 0 → bits body.toNat 32 6 = 0 →
      (fRA body.toNat = 0 → fIMM body.toNat = 0 →
        (Runs s c t 7 0 1 pr body = true → exec (.nop c pr body) s = .next (s.after c t 1 (fun x => x))) ∧
        (Runs s c t 7 3 1 pr body = true → exec (.wait c pr body) s = .next (s.after c t 1 (fun x => x))) ∧
        (Issues s c t 7 1 1 pr body = true →
          exec (.endTile c pr body) s = .next ((s.issued c t 1).1.setTile c (some { (s.issued c t 1).2 with ended := true })))) ∧
      (bits body.toNat 4 28 = 0 → Runs s c t 7 4 1 pr body = true →
        let ea := t.areg (bits body.toNat 0 4)
        let n := t.sreg (fRA body.toNat)
        let open_ := addrForm ea && !isLocal ea && (segCause t.segs false (addrOf ea) n).isNone
        (open_ = false → exec (.xpf c pr body) s = .next (s.after c t 1 (fun x => x))) ∧
        (open_ = true → exec (.xpf c pr body) s =
          .next (((s.issued c t 1).1.declare c (addrOf ea) n).placed c (s.issued c t 1).2 (t.pc + 1)))) ∧
      (fRA body.toNat = 0 → fIMM body.toNat < 65536 → Issues s c t 7 2 1 pr body = true →
        exec (.trap c pr body) s = .next ((s.issued c t 1).1.tileTrap c (s.issued c t 1).2 (opWord 7 2 pr.toNat body.toNat)
          { status := 0x0806, cause := fIMM body.toNat, addr := 0 })))

/-- A scalar or vector load or store, aligned, through an address register of the right form, whose bytes lie inside the scratchpad or a segment that permits it, completes when its access succeeds and the next instruction is listed: a load writes RD with the bytes read, extended as named; a store leaves RD and writes its low bytes; with POST 1 the register steps after the access (for vld and vst, which are local, in a tile whose data nothing has upset). From sound units, with no report waiting, the tile reads its own lines and 0 elsewhere in the scratchpad, and a global read (with no word of a cached line bad and no sleep entry under way) returns memory. -/
def Obligations.LoadsAndStores : Prop :=
  (∀ e ∈ loadRows, ∀ (s : State) (c : Nat) (t : Tile) (pr : BitVec 4) (body : BitVec 48), bits body.toNat 32 6 = 0 → Runs s c t 5 e.2.1 1 pr body = true → addrOf (t.memAddr body.toNat) % e.2.2.1 = 0 →
      accessTrap t false (t.areg (fAR body.toNat)) (t.memAddr body.toNat) e.2.2.1 = none →
      ((s.issued c t 1).1.tileRead c (s.issued c t 1).2 (t.memAddr body.toNat) e.2.2.1).2.1 = 0 →
      Lands ((s.issued c t 1).1.tileRead c (s.issued c t 1).2 (t.memAddr body.toNat) e.2.2.1).1 c t (t.pc + 1) = true →
      exec (e.1 c pr body) s = .next (((s.issued c t 1).1.tileRead c (s.issued c t 1).2 (t.memAddr body.toNat) e.2.2.1).1.placed c
        (((s.issued c t 1).2.postStep body.toNat).setS (fRD body.toNat)
          (let v := leNat ((s.issued c t 1).1.tileRead c (s.issued c t 1).2 (t.memAddr body.toNat) e.2.2.1).2.2
           if e.2.2.2 then ((BitVec.ofNat (8 * e.2.2.1) v).signExtend 64).toNat else v)) (t.pc + 1)))
  ∧
  (∀ e ∈ storeRows, ∀ (s : State) (c : Nat) (t : Tile) (pr : BitVec 4) (body : BitVec 48), bits body.toNat 32 6 = 0 → Runs s c t 5 e.2.1 1 pr body = true → addrOf (t.memAddr body.toNat) % e.2.2 = 0 →
      accessTrap t true (t.areg (fAR body.toNat)) (t.memAddr body.toNat) e.2.2 = none →
      (let w := (s.issued c t 1).1.tileWrite c (s.issued c t 1).2 (t.memAddr body.toNat) (leBytes e.2.2 (t.sreg (fRD body.toNat)))
       w.2.2 = 0 → Lands w.1 c t (t.pc + 1) = true →
       exec (e.1 c pr body) s = .next (w.1.placed c (w.2.1.postStep body.toNat) (t.pc + 1))))
  ∧
  (∀ (s : State) (c : Nat) (t : Tile) (pr : BitVec 4) (body : BitVec 48), t.Sound → bits body.toNat 32 6 = 0 → addrOf (t.memAddr body.toNat) % 64 = 0 → isLocal (t.memAddr body.toNat) = true →
      addrForm (t.areg (fAR body.toNat)) = true → addrOf (t.memAddr body.toNat) + 256 ≤ spadSize →
      (Runs s c t 5 0x10 1 pr body = true →
        (let r := (s.issued c t 1).1.spadRead c (s.issued c t 1).2 (addrOf (t.memAddr body.toNat)) 256
         r.2.1 = 0 → Lands r.1 c t (t.pc + 1) = true →
         exec (.vld c pr body) s =
           .next (r.1.placed c (((s.issued c t 1).2.postStep body.toNat).setV (fRD body.toNat) (leNat r.2.2)) (t.pc + 1)))) ∧
      (Runs s c t 5 0x11 1 pr body = true →
        (let w := (s.issued c t 1).1.spadWrite c (s.issued c t 1).2 (addrOf (t.memAddr body.toNat)) (leBytes 256 (t.vreg (fRD body.toNat)))
         Lands w.1 c t (t.pc + 1) = true →
         exec (.vst c pr body) s = .next (w.1.placed c (w.2.postStep body.toNat) (t.pc + 1)))))
  ∧
  (∀ (s : State) (c a n : Nat), (∀ u ∈ unitsOf a n, Store.get 0 s.errs u = 0 ∧ Store.get false s.poison u = false) → s.memu.found = [] → s.memu.word = [] → s.pwr.entry = none →
      (s.hwRead (iCLU c) a n).2.1 = 0 → (s.hwRead (iCLU c) a n).2.2 = s.bytes a n)
  ∧
  (∀ (s : State) (c : Nat) (t : Tile) (a n k : Nat), k < n → (∀ u ∈ unitsOf (spadBase c + a) n, Store.get 0 s.errs u = 0 ∧ Store.get false s.poison u = false) → s.memu.found = [] →
      (s.spadRead c t a n).2.2.getD k 0 =
        if Store.get false t.lines ((a + k) / 64) then s.byte (spadBase c + (a + k)) else 0)

/-- A permitted global store changes no byte of memory and joins the tile's waiting stores; a local store marks its lines written, its bytes read back modulo 256, and, where no unit written in part has an error and no report waits, the rest of a line first written reads 0 and every other byte of memory is unchanged; on the completion of a first run whose one store waits and whose command is gone, under the same conditions, that store reaches memory and no other byte changes. -/
def Obligations.WhereStoresGo : Prop :=
  (∀ (s : State) (c : Nat) (t : Tile) (ea : Nat) (bs : List Nat), isLocal ea = false → inStore (addrOf ea) bs.length = true →
      s.spadOpen (addrOf ea) = true → s.memAllowed (iCLU c) true (addrOf ea) bs.length = true →
      s.tileWrite c t ea bs = (s, { t with buf := (addrOf ea, bs) :: t.buf }, 0))
  ∧
  (∀ (s : State) (c : Nat) (t : Tile) (a k : Nat) (bs : List Nat), k < bs.length →
      (s.spadWrite c t a bs).1.byte (spadBase c + a + k) = bs.getD k 0 % 256 ∧
      Store.get false (s.spadWrite c t a bs).2.lines ((a + k) / 64) = true)
  ∧
  (∀ (s : State) (c : Nat) (t : Tile) (a x : Nat) (bs : List Nat),
      (∀ u ∈ partUnits (spadBase c + a) bs.length, Store.get 0 s.errs u = 0 ∧ Store.get false s.poison u = false) → s.memu.found = [] → (x < spadBase c + a ∨ spadBase c + a + bs.length ≤ x) →
      (s.spadWrite c t a bs).1.byte x =
        if bs ≠ [] ∧ spadBase c + a / 64 * 64 ≤ x ∧ x < spadBase c + (a + bs.length + 63) / 64 * 64 ∧
          Store.get false t.lines ((x - spadBase c) / 64) = false then 0 else s.byte x)
  ∧
  (∀ (s : State) (c n : Nat) (t : Tile) (bs : List Nat), s.tileOf c = some t → t.ended = true → t.mism = false → t.stage = 0 →
      t.buf = [(n, bs)] → (s.cmd? t.q).isNone = true → s.memu.found = [] → s.memu.word = [] →
      (∀ u ∈ partUnits n bs.length, Store.get 0 s.errs u = 0 ∧ Store.get false s.poison u = false) →
      Completes (.tileEnd s.now c) s (fun u => u.bytes n bs.length = bs.map (· % 256) ∧
        ∀ x, (x < n ∨ n + bs.length ≤ x) → u.byte x = s.byte x))

/-- xld, xst and xcp with a shape in its limits, spaces that match and rows that the segments or the scratchpad permit cost 1 + bytes/64 rounded up, and, when every access succeeds and the next instruction is listed, move the rows in order; xcp reads every row before it writes one. A first row read from sound units of memory, with no report waiting, no bad word of a cached line and no sleep entry under way, stands in the scratchpad afterwards. -/
def Obligations.BulkTransfers : Prop :=
  (∀ (s : State) (c : Nat) (t : Tile) (pr : BitVec 4) (body : BitVec 48), bits body.toNat 0 35 = 0 → 1 ≤ xRS body.toNat → xRS body.toNat ≤ 28 →
      (Issues s c t 6 1 (1 + ceilDiv (t.shape body.toNat 0 * t.shape body.toNat 1) 64) pr body = true →
        xferTrap t body.toNat false true = none →
        (let u := s.issued c t (1 + ceilDiv (t.shape body.toNat 0 * t.shape body.toNat 1) 64)
         let e := (List.range (t.shape body.toNat 1)).foldl (moveRow c body.toNat) (Eff.reg u.1 u.2)
         e.trap = none → Lands e.s c t (t.pc + 1) = true → exec (.xld c pr body) s = .next (e.s.placed c e.t (t.pc + 1)))) ∧
      (Issues s c t 6 2 (1 + ceilDiv (t.shape body.toNat 0 * t.shape body.toNat 1) 64) pr body = true →
        xferTrap t body.toNat true false = none →
        (let u := s.issued c t (1 + ceilDiv (t.shape body.toNat 0 * t.shape body.toNat 1) 64)
         let e := (List.range (t.shape body.toNat 1)).foldl (moveRow c body.toNat) (Eff.reg u.1 u.2)
         e.trap = none → Lands e.s c t (t.pc + 1) = true → exec (.xst c pr body) s = .next (e.s.placed c e.t (t.pc + 1)))) ∧
      (Issues s c t 6 3 (1 + ceilDiv (t.shape body.toNat 0 * t.shape body.toNat 1) 64) pr body = true →
        xferTrap t body.toNat true true = none →
        (let u := s.issued c t (1 + ceilDiv (t.shape body.toNat 0 * t.shape body.toNat 1) 64)
         let r := readRows c body.toNat u.1 u.2
         let w := r.2.2.zipIdx.foldl (fun (p : State × Tile) e => p.1.spadWrite c p.2 (addrOf (t.dstRow body.toNat e.2)) e.1) (r.1, u.2)
         r.2.1 = 0 → Lands w.1 c t (t.pc + 1) = true → exec (.xcp c pr body) s = .next (w.1.placed c w.2 (t.pc + 1)))))
  ∧
  (∀ (s : State) (c b : Nat) (t : Tile), (∀ u ∈ unitsOf (addrOf (t.areg (xAS b))) (t.shape b 0), Store.get 0 s.errs u = 0 ∧ Store.get false s.poison u = false) → s.memu.found = [] → s.memu.word = [] → s.pwr.entry = none →
      isLocal (t.areg (xAS b)) = false → isLocal (t.areg (xAD b)) = true →
      t.InRange → xferTrap t b false true = none → (s.hwRead (iCLU c) (addrOf (t.areg (xAS b))) (t.shape b 0)).2.1 = 0 →
      (moveRow c b (Eff.reg s t) 0).trap = none ∧
      ∀ k, k < t.shape b 0 → (moveRow c b (Eff.reg s t) 0).s.byte (spadBase c + addrOf (t.areg (xAD b)) + k) =
        s.byte (addrOf (t.areg (xAS b)) + k))

/-- Each instruction of group 8, when it issues with its unused fields 0 and a type it lists, writes every lane of VD: INT32 lanes with the 32-bit operation, which sets no flag; FP32 lanes with the rounded operation and the sticky flags it sets. In a tile whose data nothing has upset it changes nothing else but the fetch, the work count and the program counter. -/
def Obligations.VectorLaneOperations : Prop :=
  (∀ e ∈ laneRows, ∀ (s : State) (c : Nat) (t : Tile) (pr : BitVec 4) (body : BitVec 48), t.Sound → vClean ([.vd, .va, .t] ++ e.2.2.1) body = true → Runs s c t 8 e.2.1 1 pr body = true →
      (vT body.toNat = 0 → exec (e.1 c pr body) s = .next (s.after c t 1 (fun x =>
        (x.setV (vVD body.toNat) (mapLanes e.2.2.2.1 (t.vreg (vVA body.toNat)) (t.vreg (vVB body.toNat)) (t.vreg (vVC body.toNat))).1).flag (mapLanes e.2.2.2.1 (t.vreg (vVA body.toNat)) (t.vreg (vVB body.toNat)) (t.vreg (vVC body.toNat))).2))) ∧
      (vT body.toNat = 1 → exec (e.1 c pr body) s = .next (s.after c t 1 (fun x =>
        x.setV (vVD body.toNat) (ofLanes (fun i => e.2.2.2.2 (t.laneBV (vVA body.toNat) i) (t.laneBV (vVB body.toNat) i) (t.laneBV (vVC body.toNat) i)))))))
  ∧
  (∀ e ∈ bitLaneRows, ∀ (s : State) (c : Nat) (t : Tile) (pr : BitVec 4) (body : BitVec 48), t.Sound → vClean ([.vd, .va, .t] ++ e.2.2.1) body = true → Runs s c t 8 e.2.1 1 pr body = true → vT body.toNat = 1 →
      exec (e.1 c pr body) s = .next (s.after c t 1 (fun x =>
        x.setV (vVD body.toNat) (ofLanes (fun i => e.2.2.2 (t.laneBV (vVA body.toNat) i) (t.laneBV (vVB body.toNat) i) (t.laneBV (vVC body.toNat) i))))))

/-- In a tile whose data nothing has upset (for vgetf and vclrf, in any), vcvt, vwid, vnar, vqsx, vbcast, vmovi, vperm, vgetf and vclrf, when they issue with their unused fields 0, a type they list and a part the format has, write the lanes, the part or the scalar named, with the flags of the conversion, and leave the other parts and registers. -/
def Obligations.ConversionsAndMovement : Prop :=
  (∀ (s : State) (c : Nat) (t : Tile) (pr : BitVec 4) (body : BitVec 48), t.Sound → vClean [.vd, .va, .t, .rtz] body = true → Runs s c t 9 1 1 pr body = true →
      (vT body.toNat = 0 → vRTZ body.toNat = 0 → exec (.vcvt c pr body) s = .next (s.after c t 1 (fun x =>
        (x.setV (vVD body.toNat) (mapLanes (fun a _ _ => fpOfInt fp32 (BitVec.ofNat 32 a).toInt) (t.vreg (vVA body.toNat)) 0 0).1).flag
          (mapLanes (fun a _ _ => fpOfInt fp32 (BitVec.ofNat 32 a).toInt) (t.vreg (vVA body.toNat)) 0 0).2))) ∧
      (vT body.toNat = 1 → exec (.vcvt c pr body) s = .next (s.after c t 1 (fun x =>
        (x.setV (vVD body.toNat) (mapLanes (fun a _ _ => cvtToInt (vRTZ body.toNat == 1) a) (t.vreg (vVA body.toNat)) 0 0).1).flag
          (mapLanes (fun a _ _ => cvtToInt (vRTZ body.toNat == 1) a) (t.vreg (vVA body.toNat)) 0 0).2))))
  ∧
  (∀ (s : State) (c : Nat) (t : Tile) (pr : BitVec 4) (body : BitVec 48), t.Sound → vClean [.vd, .va, .t, .part] body = true → Runs s c t 9 2 1 pr body = true → vT body.toNat ≤ 5 → vPART body.toNat < partsOf (vT body.toNat) →
      exec (.vwid c pr body) s = .next (s.after c t 1 (fun x => x.setV (vVD body.toNat) (ofLanes (fun i =>
        let w := fmtBits (vT body.toNat)
        let a := bits (t.vreg (vVA body.toNat)) (w * (64 * vPART body.toNat + i)) w
        if vT body.toNat ≤ 1 then (BitVec.ofNat w a).signExtend 32 else BitVec.ofNat 32 (fpEncode fp32 false (fpDecode (fmtOf (vT body.toNat)) a)).1)))))
  ∧
  (∀ (s : State) (c : Nat) (t : Tile) (pr : BitVec 4) (body : BitVec 48), t.Sound → vClean [.vd, .va, .t, .part, .sat] body = true → Runs s c t 9 3 1 pr body = true → vT body.toNat ≤ 5 → vPART body.toNat < partsOf (vT body.toNat) →
      ∃ v f, exec (.vnar c pr body) s = .next (s.after c t 1 (fun x => (x.setV (vVD body.toNat) v).flag f)) ∧
        (∀ i, i < 64 → bits v (fmtBits (vT body.toNat) * (64 * vPART body.toNat + i)) (fmtBits (vT body.toNat)) =
          (narrow (vT body.toNat) (vSAT body.toNat == 1) (bits (t.vreg (vVA body.toNat)) (32 * i) 32)).1) ∧
        (∀ j, j < 32 * partsOf (vT body.toNat) * 2 → j / 64 ≠ vPART body.toNat →
          bits v (fmtBits (vT body.toNat) * j) (fmtBits (vT body.toNat)) = bits (t.vreg (vVD body.toNat)) (fmtBits (vT body.toNat) * j) (fmtBits (vT body.toNat))) ∧
        f = ((List.range 64).map (fun i => (narrow (vT body.toNat) (vSAT body.toNat == 1) (bits (t.vreg (vVA body.toNat)) (32 * i) 32)).2)).foldl Nat.lor 0)
  ∧
  (∀ (s : State) (c : Nat) (t : Tile) (pr : BitVec 4) (body : BitVec 48), t.Sound → vClean [.vd, .va, .vc, .t, .part] body = true → Runs s c t 9 4 1 pr body = true → (vT body.toNat = 6 ∨ vT body.toNat = 7) → vPART body.toNat < partsOf (vT body.toNat) →
      vVC body.toNat ≠ vVD body.toNat →
      let w := fmtBits (vT body.toNat)
      let q0 := quantize (vT body.toNat == 7) ((lanes32 (t.vreg (vVA body.toNat))).take 32)
      let q1 := quantize (vT body.toNat == 7) ((lanes32 (t.vreg (vVA body.toNat))).drop 32)
      exec (.vqsx c pr body) s = .next (s.after c t 1 (fun x =>
        ((x.setV (vVD body.toNat) (putBits (t.vreg (vVD body.toNat)) (64 * w * vPART body.toNat) (64 * w) (packLanes w (q0.2.1 ++ q1.2.1)))).setV (vVC body.toNat)
          (putBits (t.vreg (vVC body.toNat)) (16 * vPART body.toNat) 16 (q0.1 + 256 * q1.1))).flag (q0.2.2.lor q1.2.2))))
  ∧
  (∀ (s : State) (c : Nat) (t : Tile) (pr : BitVec 4) (body : BitVec 48), t.Sound → vClean [.vd, .va, .t] body = true → Runs s c t 9 5 1 pr body = true →
      (vT body.toNat = 0 → exec (.vbcast c pr body) s = .next (s.after c t 1 (fun x => x.setV (vVD body.toNat) (ofLanes (fun _ => BitVec.ofNat 32 (t.sreg (vVA body.toNat))))))) ∧
      (vT body.toNat = 1 → exec (.vbcast c pr body) s = .next (s.after c t 1 (fun x =>
        x.setV (vVD body.toNat) (packLanes 8 (List.replicate 256 (t.sreg (vVA body.toNat) % 256)))))))
  ∧
  (∀ (s : State) (c : Nat) (t : Tile) (pr : BitVec 4) (body : BitVec 48), t.Sound → vClean [.vd, .t, .imm] body = true → Runs s c t 9 6 1 pr body = true →
      (vT body.toNat = 0 → exec (.vmovi c pr body) s = .next (s.after c t 1 (fun x =>
        x.setV (vVD body.toNat) (ofLanes (fun _ => BitVec.ofNat 16 (vIMM body.toNat) ++ 0#16))))) ∧
      (vT body.toNat = 1 → exec (.vmovi c pr body) s = .next (s.after c t 1 (fun x =>
        x.setV (vVD body.toNat) (ofLanes (fun _ => (BitVec.ofNat 16 (vIMM body.toNat)).signExtend 32))))))
  ∧
  (∀ (s : State) (c : Nat) (t : Tile) (pr : BitVec 4) (body : BitVec 48), t.Sound → vClean [.vd, .va, .vb, .t] body = true → Runs s c t 9 7 2 pr body = true → vT body.toNat = 0 →
      exec (.vperm c pr body) s = .next (s.after c t 2 (fun x =>
        x.setV (vVD body.toNat) (ofLanes (fun i => t.laneBV (vVA body.toNat) ((t.laneBV (vVB body.toNat) i).toNat % 64))))))
  ∧
  (∀ (s : State) (c : Nat) (t : Tile) (pr : BitVec 4) (body : BitVec 48), (vClean [.vd] body = true → Runs s c t 9 8 1 pr body = true →
        exec (.vgetf c pr body) s = .next (s.after c t 1 (fun x => x.setS (vVD body.toNat) t.flags))) ∧
      (vClean [] body = true → Runs s c t 9 9 1 pr body = true →
        exec (.vclrf c pr body) s = .next (s.after c t 1 (fun x => { x with flags := 0 }))))

/-- In a tile whose data nothing has upset, reductions take the fixed pairwise tree in FP32 and the wrapping sum, the signed maximum or minimum in INT32, into lane 0 with the other lanes 0; square root and division round correctly; each function gives its special results with their flags, and for any other input an open code that keeps the accuracy of R266 or the exact value rounded, no NaN; every cost is the stated one. -/
def Obligations.ReductionsAndFunctions : Prop :=
  (∀ (s : State) (c : Nat) (t : Tile) (pr : BitVec 4) (body : BitVec 48), t.Sound → vClean [.vd, .va, .t] body = true → Runs s c t 10 1 6 pr body = true →
      (vT body.toNat = 0 → exec (.vredsum c pr body) s = .next (s.after c t 6 (fun x =>
        (x.setV (vVD body.toNat) (treeOf (fpAdd fp32) 6 (lanes32 (t.vreg (vVA body.toNat)))).1).flag (treeOf (fpAdd fp32) 6 (lanes32 (t.vreg (vVA body.toNat)))).2))) ∧
      (vT body.toNat = 1 → exec (.vredsum c pr body) s = .next (s.after c t 6 (fun x =>
        x.setV (vVD body.toNat) ((List.range 64).foldl (fun a i => a + t.laneBV (vVA body.toNat) i) 0#32).toNat))))
  ∧
  (∀ (s : State) (c : Nat) (t : Tile) (pr : BitVec 4) (body : BitVec 48), t.Sound → vClean [.vd, .va, .t] body = true → Runs s c t 10 2 6 pr body = true →
      (vT body.toNat = 0 → exec (.vredmax c pr body) s = .next (s.after c t 6 (fun x =>
        (x.setV (vVD body.toNat) (treeOf (fun a b => (fpMax a b, 0)) 6 (lanes32 (t.vreg (vVA body.toNat)))).1).flag (treeOf (fun a b => (fpMax a b, 0)) 6 (lanes32 (t.vreg (vVA body.toNat)))).2))) ∧
      (vT body.toNat = 1 → ∃ m : BitVec 32, (∃ i, i < 64 ∧ m = t.laneBV (vVA body.toNat) i) ∧ (∀ i, i < 64 → (t.laneBV (vVA body.toNat) i).sle m = true) ∧
        exec (.vredmax c pr body) s = .next (s.after c t 6 (fun x => x.setV (vVD body.toNat) m.toNat))))
  ∧
  (∀ (s : State) (c : Nat) (t : Tile) (pr : BitVec 4) (body : BitVec 48), t.Sound → vClean [.vd, .va, .t] body = true → Runs s c t 10 3 6 pr body = true →
      (vT body.toNat = 0 → exec (.vredmin c pr body) s = .next (s.after c t 6 (fun x =>
        (x.setV (vVD body.toNat) (treeOf (fun a b => (fpMin a b, 0)) 6 (lanes32 (t.vreg (vVA body.toNat)))).1).flag (treeOf (fun a b => (fpMin a b, 0)) 6 (lanes32 (t.vreg (vVA body.toNat)))).2))) ∧
      (vT body.toNat = 1 → ∃ m : BitVec 32, (∃ i, i < 64 ∧ m = t.laneBV (vVA body.toNat) i) ∧ (∀ i, i < 64 → m.sle (t.laneBV (vVA body.toNat) i) = true) ∧
        exec (.vredmin c pr body) s = .next (s.after c t 6 (fun x => x.setV (vVD body.toNat) m.toNat))))
  ∧
  (∀ (s : State) (c : Nat) (t : Tile) (pr : BitVec 4) (body : BitVec 48), t.Sound → vT body.toNat = 0 →
      (vClean [.vd, .va] body = true → Runs s c t 10 0x14 8 pr body = true → exec (.vsqrt c pr body) s = .next (s.after c t 8 (fun x =>
        (x.setV (vVD body.toNat) (mapLanes (fun a _ _ => fpSqrt fp32 a) (t.vreg (vVA body.toNat)) 0 0).1).flag
          (mapLanes (fun a _ _ => fpSqrt fp32 a) (t.vreg (vVA body.toNat)) 0 0).2))) ∧
      (vClean [.vd, .va, .vb] body = true → Runs s c t 10 0x15 8 pr body = true → exec (.vdiv c pr body) s = .next (s.after c t 8 (fun x =>
        (x.setV (vVD body.toNat) (mapLanes (fun a d _ => fpDiv fp32 a d) (t.vreg (vVA body.toNat)) (t.vreg (vVB body.toNat)) 0).1).flag
          (mapLanes (fun a d _ => fpDiv fp32 a d) (t.vreg (vVA body.toNat)) (t.vreg (vVB body.toNat)) 0).2))) ∧
      (∀ e ∈ funRows, vClean [.vd, .va] body = true → Runs s c t 10 e.2 4 pr body = true →
        exec (e.1 c pr body) s = .next (s.after c t 4 (fun x =>
          (x.setV (vVD body.toNat) (mapLanes (fun a _ _ => fpFunction e.2 a) (t.vreg (vVA body.toNat)) 0 0).1).flag
            (mapLanes (fun a _ _ => fpFunction e.2 a) (t.vreg (vVA body.toNat)) 0 0).2))))
  ∧
  (∀ e ∈ funRows, ∀ a : Nat, a < 2 ^ 32 → (isNan a = true → fpFunction e.2 a = (nan32, 0)) ∧
      (isNan (fpFunction e.2 a).1 = true → isNan a = true ∨ ((e.2 = 0x11 ∨ e.2 = 0x13) ∧ 2 ^ 31 < a)) ∧
      (fpSpecial e.2 a = none → fnNear e.2 (fpFunction e.2 a).1 (fnExact e.2 a) = true ∨
        (fpFunction e.2 a).1 = (fpRoundRat fp32 false (fnExact e.2 a).1 (fnExact e.2 a).2.1 (fnExact e.2 a).2.2).1))
  ∧
  (fpFunction 0x10 0x7F800000 = (0x7F800000, 0) ∧ fpFunction 0x10 0xFF800000 = (0, 0) ∧ fpFunction 0x11 0x80000000 = (0xFF800000, 0) ∧
      fpFunction 0x11 0x7F800000 = (0x7F800000, 0) ∧ fpFunction 0x11 0xBF800000 = (nan32, 1) ∧ fpFunction 0x12 0x80000000 = (0xFF800000, 0) ∧
      fpFunction 0x12 0xFF800000 = (0x80000000, 0) ∧ fpFunction 0x13 0 = (0x7F800000, 0) ∧ fpFunction 0x13 0x80000000 = (0xFF800000, 0) ∧
      fpFunction 0x13 0x7F800000 = (0, 0) ∧ fpFunction 0x13 0xBF800000 = (nan32, 1) ∧ fpSqrt fp32 0x80000000 = (0x80000000, 0) ∧
      fpSqrt fp32 0x7F800000 = (0x7F800000, 0) ∧ fpSqrt fp32 0xBF800000 = (nan32, 1) ∧ fpFunction 0x16 0xFF800000 = (0xBF800000, 0) ∧
      fpFunction 0x18 0x80000000 = (0x80000000, 0) ∧ fpFunction 0x17 0x7F800000 = (0x3F800000, 0) ∧ fpFunction 0x17 0xFF800000 = (0, 0))

/-- In a tile whose data nothing has upset, each GF(2^8) instruction, when it issues with T 0 and its unused fields 0, writes every byte of VD with its operation on the old byte and the operand bytes. In both fields the product of a non-zero byte and its inverse is 1, the inverse of 0 is 0, exponential and logarithm are inverse to each other for every byte, and products distribute over sums. -/
def Obligations.GaloisFieldOperations : Prop :=
  (∀ e ∈ gfRows, ∀ (s : State) (c : Nat) (t : Tile) (pr : BitVec 4) (body : BitVec 48), t.Sound → vClean ([.vd, .va] ++ e.2.2.2.1) body = true → Runs s c t 11 e.2.1 e.2.2.1 pr body = true →
      exec (e.1 c pr body) s = .next (s.after c t e.2.2.1 (fun x => x.setV (vVD body.toNat) (packLanes 8 ((List.range 256).map (fun i =>
        e.2.2.2.2 (vPOLY body.toNat) (bits (t.vreg (vVD body.toNat)) (8 * i) 8) (bits (t.vreg (vVA body.toNat)) (8 * i) 8) (bits (t.vreg (vVB body.toNat)) (8 * i) 8)))))))
  ∧
  (∀ (s : State) (c : Nat) (t : Tile) (pr : BitVec 4) (body : BitVec 48), t.Sound → vClean [.vd, .va, .poly, .imm] body = true → vIMM body.toNat < 256 → Runs s c t 11 8 1 pr body = true →
      exec (.gfMulc c pr body) s = .next (s.after c t 1 (fun x => x.setV (vVD body.toNat) (packLanes 8 ((List.range 256).map (fun i =>
        gfMul (vPOLY body.toNat) (bits (t.vreg (vVA body.toNat)) (8 * i) 8) (vIMM body.toNat)))))))
  ∧
  (∀ p a b d : Nat, p < 2 → a < 256 → b < 256 → d < 256 →
      gfMul p a b < 256 ∧ gfMul p a b = gfMul p b a ∧ gfMul p a (b.xor d) = (gfMul p a b).xor (gfMul p a d) ∧ gfMul p a 1 = a ∧
      gfMul p 0x80 2 = (if p = 0 then 0x1D else 0x2D) ∧ (b < 128 → gfMul p 2 b = 2 * b) ∧ (a ≠ 0 → gfMul p a (gfInv p a) = 1) ∧ gfInv p 0 = 0 ∧
      gfExp p (gfLog p a) = a ∧ gfLog p (gfExp p a) = a ∧ gfLog p 0 = 0xFF)

/-- In a tile whose data nothing has upset, mma with a listed format and panels that are local, aligned and inside the scratchpad reads both panels and replaces or adds every lane; an integer lane is the exact sum of products, with the old lane modulo 2^32 unless Z; acczero, accst, accld, acc2v and v2acc clear, store, load and move rows, the row being (s[RS] + ROW) mod 64, when the accesses succeed and the next instruction is listed. Costs are as stated. The worked examples hold: the SX8 block of Example 1 has exponent 122 and elements 127, 96, 3, -54; 0x57 times 0x83 is 0x31 in the one field and 0x72 in the other; a BF16 lane with the operands of Example 3 is 1.0. -/
def Obligations.MatrixOperations : Prop :=
  (∀ (s : State) (c : Nat) (t : Tile) (pr : BitVec 4) (body : BitVec 48), t.Sound → mFMT body.toNat ≤ 9 → bit body.toNat 44 = 0 → bits body.toNat 0 31 = 0 →
      Runs s c t 12 1 (if mFMT body.toNat = 6 ∨ mFMT body.toNat = 7 then 128 else 64) pr body = true →
      areaTrap (t.areg (mAA body.toNat)) (panelBytes (mFMT body.toNat)) = none → areaTrap (t.areg (mAB body.toNat)) (panelBytes (mFMT body.toNat)) = none →
      let u := s.issued c t (if mFMT body.toNat = 6 ∨ mFMT body.toNat = 7 then 128 else 64)
      let ra := u.1.spadRead c u.2 (addrOf (t.areg (mAA body.toNat))) (panelBytes (mFMT body.toNat))
      let rb := ra.1.spadRead c u.2 (addrOf (t.areg (mAB body.toNat))) (panelBytes (mFMT body.toNat))
      ra.2.1 = 0 → rb.2.1 = 0 → Lands rb.1 c t (t.pc + 1) = true →
      exec (.mma c pr body) s = .next (rb.1.placed c (mmaTile u.2 (mACC body.toNat) (mFMT body.toNat) (bit body.toNat 31 == 1) ra.2.2 rb.2.2) (t.pc + 1)))
  ∧
  (∀ (t : Tile) (k fmt i j : Nat) (z : Bool) (pa pb : List Nat), k < 8 → fmt ≤ 1 → i < 64 → j < 64 →
      BitVec.ofNat 32 (bits ((mmaTile t k fmt z pa pb).accRow k i) (32 * j) 32) =
        (if z then 0#32 else BitVec.ofNat 32 (bits (t.accRow k i) (32 * j) 32)) +
        BitVec.ofInt 32 (((List.range (mmaK fmt)).map (fun e =>
          sext (mmaBits fmt) ((panelRow fmt pa i).getD e 0) * sext (mmaBits fmt) ((panelRow fmt pb j).getD e 0))).sum))
  ∧
  (∀ (t : Tile) (k fmt : Nat) (z : Bool) (pa pb : List Nat), k < 8 → fmt ≤ 9 →
      (∀ i j, i < 64 → j < 64 → bits ((mmaTile t k fmt z pa pb).accRow k i) (32 * j) 32 =
        (mmaLane fmt z (bits (t.accRow k i) (32 * j) 32) (panelRow fmt pa i) (panelRow fmt pb j) (panelExp fmt pa i) (panelExp fmt pb j)).1 % 2 ^ 32) ∧
      (∀ m i, m ≠ k → m < 8 → i < 64 → (mmaTile t k fmt z pa pb).accRow m i = t.accRow m i) ∧
      (mmaTile t k fmt z pa pb).v = t.v ∧ (mmaTile t k fmt z pa pb).s = t.s ∧ (mmaTile t k fmt z pa pb).a = t.a ∧
      (mmaTile t k fmt z pa pb).p = t.p ∧ (fmt ≤ 1 → (mmaTile t k fmt z pa pb).flags = t.flags))
  ∧
  (∀ (s : State) (c : Nat) (t : Tile) (pr : BitVec 4) (body : BitVec 48), t.Sound → bit body.toNat 44 = 0 → bits body.toNat 6 24 = 0 →
      (dAR body.toNat = 0 → dV body.toNat = 0 → dRS body.toNat = 0 → bits body.toNat 0 6 = 0 → Runs s c t 13 1 1 pr body = true →
        exec (.acczero c pr body) s = .next (s.after c t 1 (fun x =>
          (List.range 64).foldl (fun y i => y.setAccRow (mACC body.toNat) i 0) x))) ∧
      (dAR body.toNat = 0 → Runs s c t 13 4 1 pr body = true →
        exec (.acc2v c pr body) s = .next (s.after c t 1 (fun x =>
          x.setV (dV body.toNat) (t.accRow (mACC body.toNat) ((t.sreg (dRS body.toNat) + bits body.toNat 0 6) % 64))))) ∧
      (dAR body.toNat = 0 → Runs s c t 13 5 1 pr body = true →
        exec (.v2acc c pr body) s = .next (s.after c t 1 (fun x =>
          x.setAccRow (mACC body.toNat) ((t.sreg (dRS body.toNat) + bits body.toNat 0 6) % 64) (t.vreg (dV body.toNat))))) ∧
      (dV body.toNat = 0 → dRS body.toNat = 0 → bits body.toNat 0 6 = 0 → areaTrap (t.areg (dAR body.toNat)) 16384 = none →
        (Runs s c t 13 2 64 pr body = true →
          let u := s.issued c t 64
          let w := u.1.spadWrite c u.2 (addrOf (t.areg (dAR body.toNat))) ((List.range 64).flatMap (fun i => leBytes 256 (t.accRow (mACC body.toNat) i)))
          Lands w.1 c t (t.pc + 1) = true → exec (.accst c pr body) s = .next (w.1.placed c w.2 (t.pc + 1))) ∧
        (Runs s c t 13 3 64 pr body = true →
          let u := s.issued c t 64
          let r := u.1.spadRead c u.2 (addrOf (t.areg (dAR body.toNat))) 16384
          r.2.1 = 0 → Lands r.1 c t (t.pc + 1) = true →
          exec (.accld c pr body) s = .next (r.1.placed c ((List.range 64).foldl (fun y i =>
            y.setAccRow (mACC body.toNat) i (leNat ((r.2.2.drop (256 * i)).take 256))) u.2) (t.pc + 1)))))
  ∧
  quantize true ([0x407F5C29, 0x40400000, 0x3DCCCCCD, 0xBFD9999A] ++ List.replicate 28 0) = (122, [127, 96, 3, 0xCA] ++ List.replicate 28 0, 8) ∧
  gfMul 0 0x57 0x83 = 0x31 ∧ gfMul 1 0x57 0x83 = 0x72 ∧
  (mmaLane 6 true 0 ([0x4580, 0x3F80, 0x3F80, 0xC580] ++ List.replicate 28 0) ([0x4580, 0x3F80, 0x3F80, 0x4580] ++ List.replicate 28 0) [] []).1 = 0x3F800000

/-- Every Tack instruction whose predicate is false, whatever its fields, has no effect: cost 1, the next index, no exception. Every instruction that would bring the work count above 1,600 raises WORK_LIMIT. Fetching an instruction without error and adding its cost change no other cluster's tile, no waiting command and no time, no byte of memory where the cache holds the line or its memory is sound with no report waiting, and of a tile that nothing has upset the work count alone. Putting the tile back changes no register, no memory and no other cluster. A cluster at another word does nothing. The residue of an element of 8, 16 or 32 bits is its value modulo 15, for a signed one the signed value's. A tile with every residue that of its data and no upset waiting passes every check, no check clears the mismatch flag, and an upset of one bit of the result of an INT32 vadd, or of any bits of that of vand, vor or vxor, sets it. -/
def Obligations.FetchPredicateAndWorkLimit : Prop :=
  (∀ e ∈ tackRows, ∀ (s : State) (c : Nat) (t : Tile) (pr : BitVec 4) (body : BitVec 48), s.tileOf c = some t → t.ended = false →
      s.codeWord c t = opWord e.2.1 e.2.2 pr.toNat body.toNat → (s.fetchWord c t).2.1 = 0 → t.executes pr.toNat = false →
      (t.work + 1 ≤ 1600 → Lands (s.issued c t 1).1 c t (t.pc + 1) = true →
        exec (e.1 c pr body) s = .next (s.after c t 1 (fun x => x))) ∧
      (t.work = 1600 → exec (e.1 c pr body) s =
        .next ((s.fetchWord c t).1.tileTrap c t (opWord e.2.1 e.2.2 pr.toNat body.toNat) { status := 0x0805, cause := 1, addr := 0 })))
  ∧
  (∀ e ∈ tackRows, ∀ (s : State) (c : Nat) (t : Tile) (pr : BitVec 4) (body : BitVec 48), s.tileOf c = some t → t.ended = false →
      s.codeWord c t = opWord e.2.1 e.2.2 pr.toNat body.toNat → (s.fetchWord c t).2.1 = 0 → t.executes pr.toNat = true → t.work = 1600 →
      exec (e.1 c pr body) s =
        .next ((s.fetchWord c t).1.tileTrap c t (opWord e.2.1 e.2.2 pr.toNat body.toNat) { status := 0x0805, cause := 1, addr := 0 }))
  ∧
  (∀ (s : State) (c cost : Nat) (t : Tile), (s.fetchWord c t).2.1 = 0 →
      (t.Sound → (s.issued c t cost).2 = { t with work := t.work + cost }) ∧
      ((s.icLine c t).isSome = true → (s.issued c t cost).1.mem = s.mem) ∧
      ((∀ u ∈ unitsOf (t.wordAt - t.wordAt % 64) 64, Store.get 0 s.errs u = 0 ∧ Store.get false s.poison u = false) → s.memu.found = [] →
        s.memu.word = [] → s.pwr.entry = none → (s.issued c t cost).1.mem = s.mem) ∧
      (s.issued c t cost).1.pending = s.pending ∧ (s.issued c t cost).1.now = s.now ∧
      ∀ d, d ≠ c → (s.issued c t cost).1.tileOf d = s.tileOf d)
  ∧
  (∀ (s : State) (c n : Nat) (t : Tile), (s.placed c t n).tileOf c = some (t.stepLoop n) ∧ (s.placed c t n).mem = s.mem ∧
      (s.placed c t n).regs = s.regs ∧ (s.placed c t n).live = s.live ∧ (s.placed c t n).pending = s.pending ∧
      ∀ d, d ≠ c → (s.placed c t n).cluX d = s.cluX d)
  ∧
  (∀ (s : State) (c : Nat) (pr : BitVec 4) (body : BitVec 48), ∀ e ∈ tackRows,
      s.atWord c (opWord e.2.1 e.2.2 pr.toNat body.toNat) = false → exec (e.1 c pr body) s = .next s)
  ∧
  ((∀ v, v < 2 ^ 8 → elemResidue 8 v = v % 15 ∧ signedResidue 8 v = residue (sext 8 v)) ∧
      (∀ v, v < 2 ^ 16 → elemResidue 16 v = v % 15 ∧ signedResidue 16 v = residue (sext 16 v)) ∧
      (∀ v, v < 2 ^ 32 → elemResidue 32 v = v % 15 ∧ signedResidue 32 v = residue (sext 32 v)))
  ∧
  (∀ (o : Op) (body : Nat) (s : State) (t r : Tile), (t.off = [] → r.ups = [] → o.checked body s t r = r) ∧
      (r.mism = true → (o.checked body s t r).mism = true))
  ∧
  (∀ (s : State) (c w k : Nat) (t : Tile) (pr : BitVec 4) (body : BitVec 48), t.off = [] → t.ups = [(w, 0, 2 ^ k)] → w ≤ t.work + 1 → k < 2048 →
      vClean [.vd, .va, .t, .vb] body = true → vT body.toNat = 1 → Runs s c t 8 0x01 1 pr body = true →
      Completes (.vadd c pr body) s (fun u => ∃ x, u.tileOf c = some x ∧ x.mism = true))
  ∧
  (∀ e ∈ bitLaneRows.take 3, ∀ (s : State) (c w m : Nat) (t : Tile) (pr : BitVec 4) (body : BitVec 48), t.off = [] → t.ups = [(w, 0, m)] →
      w ≤ t.work + 1 → m % 2 ^ 2048 ≠ 0 → vClean [.vd, .va, .t, .vb] body = true → vT body.toNat = 1 → Runs s c t 8 e.2.1 1 pr body = true →
      Completes (e.1 c pr body) s (fun u => ∃ x, u.tileOf c = some x ∧ x.mism = true))

/-- A tile that ends at an instruction with a program exception and no mismatch leaves its cluster, is counted, and latches status, cause, index, tile, address, word and command in the running record unless a record is held; a first run whose mismatch flag is set leaves its cluster, is not counted and latches nothing. A scalar instruction of two registers with a zero field set, a comparison whose destination is no predicate, an address operation whose destination is no address register, and a vector lane operation with an unlisted type end the tile with ILLEGAL_INSTRUCTION and the cause named, before any effect. -/
def Obligations.ProgramExceptionsEndTheTile : Prop :=
  (∀ (s : State) (c w : Nat) (t : Tile) (x : Trap), c < 34 → x.status / 256 = 8 → t.mism = false → t.pc < 131072 → t.tile < 16777216 →
      w < 2 ^ 64 → x.addr < 2 ^ 64 → x.cause < 65536 → t.q < 2 ^ 32 → (s.cmd? t.q).isNone = true →
      (s.tileTrap c t w x).tileOf c = none ∧
      (s.tileTrap c t w x).cnt (bCLU c) CLU_CNT_EXC = satInc (s.cnt (bCLU c) CLU_CNT_EXC) 1 ∧
      (s.cnt (bCLU c) CLU_EXC_STATUS_VALID ≠ 1 →
        (s.tileTrap c t w x).cnt (bCLU c) CLU_EXC_STATUS_VALID = 1 ∧ (s.tileTrap c t w x).cnt (bCLU c) CLU_EXC_STATUS_STATUS = x.status ∧
        (s.tileTrap c t w x).cnt (bCLU c) CLU_EXC_STATUS_CAUSE = x.cause % 256 ∧ (s.tileTrap c t w x).cnt (bCLU c) CLU_EXC_PC_PC = t.pc ∧
        (s.tileTrap c t w x).cnt (bCLU c) CLU_EXC_TILE_TILE = t.tile ∧
        (s.tileTrap c t w x).cnt (bCLU c) CLU_EXC_ADDR_LO_ADDR + 2 ^ 32 * (s.tileTrap c t w x).cnt (bCLU c) CLU_EXC_ADDR_HI_ADDR = x.addr ∧
        (s.tileTrap c t w x).cnt (bCLU c) CLU_EXC_INSTR_LO_INSTR + 2 ^ 32 * (s.tileTrap c t w x).cnt (bCLU c) CLU_EXC_INSTR_HI_INSTR = w ∧
        (s.tileTrap c t w x).cnt (bCLU c) CLU_EXC_CMD_QPTR = t.q) ∧
      (s.cnt (bCLU c) CLU_EXC_STATUS_VALID = 1 →
        (s.tileTrap c t w x).cnt (bCLU c) CLU_EXC_STATUS_STATUS = s.cnt (bCLU c) CLU_EXC_STATUS_STATUS ∧
        (s.tileTrap c t w x).cnt (bCLU c) CLU_EXC_PC_PC = s.cnt (bCLU c) CLU_EXC_PC_PC))
  ∧
  (∀ (s : State) (c w : Nat) (t : Tile) (x : Trap), x.status / 256 = 8 → t.mism = true → t.stage = 0 →
      (s.tileTrap c t w x).tileOf c = none ∧
      ∀ f ∈ [CLU_EXC_STATUS_VALID, CLU_EXC_STATUS_STATUS, CLU_EXC_STATUS_CAUSE, CLU_EXC_PC_PC, CLU_EXC_TILE_TILE, CLU_EXC_CMD_QPTR, CLU_CNT_EXC],
        (s.tileTrap c t w x).cnt (bCLU c) f = s.cnt (bCLU c) f)
  ∧
  (∀ e ∈ scalarRows, ∀ (s : State) (c : Nat) (t : Tile) (pr : BitVec 4) (body : BitVec 48), Issues s c t 0 e.2.1 1 pr body = true →
      (fRC body.toNat ≠ 0 ∨ bits body.toNat 0 28 ≠ 0) →
      exec (e.1 c pr body) s = .next ((s.issued c t 1).1.tileTrap c (s.issued c t 1).2 (opWord 0 e.2.1 pr.toNat body.toNat) ⟨0x0801, 3, 0⟩))
  ∧
  (∀ e ∈ cmpRows, ∀ (s : State) (c : Nat) (t : Tile) (pr : BitVec 4) (body : BitVec 48), Issues s c t 2 e.2.2.1 1 pr body = true →
      fRC body.toNat = 0 → bits body.toNat 0 28 = 0 → 8 ≤ fRD body.toNat →
      exec (e.1 c pr body) s = .next ((s.issued c t 1).1.tileTrap c (s.issued c t 1).2 (opWord 2 e.2.2.1 pr.toNat body.toNat) ⟨0x0801, 4, 0⟩))
  ∧
  (∀ (s : State) (c : Nat) (t : Tile) (pr : BitVec 4) (body : BitVec 48), Issues s c t 3 1 1 pr body = true →
      fRC body.toNat = 0 → bits body.toNat 0 28 = 0 → 16 ≤ fRD body.toNat →
      exec (.amov c pr body) s = .next ((s.issued c t 1).1.tileTrap c (s.issued c t 1).2 (opWord 3 1 pr.toNat body.toNat) ⟨0x0801, 4, 0⟩))
  ∧
  (∀ e ∈ laneRows, ∀ (s : State) (c : Nat) (t : Tile) (pr : BitVec 4) (body : BitVec 48), Issues s c t 8 e.2.1 1 pr body = true →
      2 ≤ vT body.toNat →
      exec (e.1 c pr body) s = .next ((s.issued c t 1).1.tileTrap c (s.issued c t 1).2 (opWord 8 e.2.1 pr.toNat body.toNat) ⟨0x0801, 2, 0⟩))

/-- A fused command that can start and whose kernel and parameter blocks are read without error begins, with as many tiles to dispatch as its parameters give, when those keep their limits and its tensors lie in segments; a convolution, pooling, up-sampling or partial reduction whose parameters do not ends with PARAM_INVALID, and one of the first three whose tensors do not with ADDRESS_FAULT; a stripe group begins with its stripes waiting, or ends with PARAM_INVALID when its own fields break a limit; a stripe that waits, whose rows are committed and whose predecessor by the depth holds no pool, is given to dispatch; output sizes are those of R287. -/
def Obligations.FusedCommandsRun : Prop :=
  (∀ (s u : State) (τ q : Nat) (x : Cmd) (f : Fused), (s.at τ).fusedReady q = some x → (s.at τ).readFused x = (u, 0, f) → pf f.p 0 1 = 1 →
      (convOk f.p = true → (convOf f.p).tensorsOk f.segs true true true = true → exec (.convolution τ q) s = .next (u.beginFused f [] (convOf f.p).tiles)) ∧
      (convOk f.p = false → exec (.convolution τ q) s = .next (u.refuseCmd q 0x0808)) ∧
      (convOk f.p = true → (convOf f.p).tensorsOk f.segs true true true = false → exec (.convolution τ q) s = .next (u.refuseCmd q 0x0802)))
  ∧
  (∀ (s u : State) (τ q : Nat) (x : Cmd) (f : Fused), (s.at τ).fusedReady q = some x → (s.at τ).readFused x = (u, 0, f) → pf f.p 0 1 = 2 →
      (poolOk f.p = true → (poolOf f.p).tensorsOk f.segs true true = true → exec (.pooling τ q) s = .next (u.beginFused f [] (poolOf f.p).ho)) ∧
      (poolOk f.p = false → exec (.pooling τ q) s = .next (u.refuseCmd q 0x0808)) ∧
      (poolOk f.p = true → (poolOf f.p).tensorsOk f.segs true true = false → exec (.pooling τ q) s = .next (u.refuseCmd q 0x0802)))
  ∧
  (∀ (s u : State) (τ q : Nat) (x : Cmd) (f : Fused), (s.at τ).fusedReady q = some x → (s.at τ).readFused x = (u, 0, f) → pf f.p 0 1 = 3 →
      (upOk f.p = true → (upOf f.p).tensorsOk f.segs true true = true → exec (.upSampling τ q) s = .next (u.beginFused f [] (upOf f.p).ho)) ∧
      (upOk f.p = false → exec (.upSampling τ q) s = .next (u.refuseCmd q 0x0808)) ∧
      (upOk f.p = true → (upOf f.p).tensorsOk f.segs true true = false → exec (.upSampling τ q) s = .next (u.refuseCmd q 0x0802)))
  ∧
  (∀ (s u : State) (τ q : Nat) (x : Cmd) (f : Fused), (s.at τ).fusedReady q = some x → (s.at τ).readFused x = (u, 0, f) → pf f.p 0 1 = 4 → (reduceOf f.p).finish ≠ 0 →
      (reduceOk f.p = true → (reduceOf f.p).tensorsOk (convOf []) f.segs = true →
        exec (.partialReduction τ q) s = .next (u.beginFused f [[]] (reduceOf f.p).hp)) ∧
      (reduceOk f.p = false → exec (.partialReduction τ q) s = .next (u.refuseCmd q 0x0808)))
  ∧
  (∀ (s u : State) (τ q : Nat) (x : Cmd) (f : Fused), (s.at τ).fusedReady q = some x → (s.at τ).readFused x = (u, 0, f) → pf f.p 0 1 = 4 → (reduceOf f.p).finish = 0 → tensorOk f.segs false (reduceOf f.p).conv 128 = true →
      ∀ (v : State) (b : List Nat), u.hwRead iSCH (reduceOf f.p).conv 128 = (v, 0, b) → reduceOk f.p = true → convOk b = true →
      (reduceOf f.p).tensorsOk (convOf b) f.segs = true →
      exec (.partialReduction τ q) s = .next (v.beginFused f [b] (reduceOf f.p).hp))
  ∧
  (∀ (s u : State) (τ q : Nat) (x : Cmd) (f : Fused), (s.at τ).fusedReady q = some x → (s.at τ).readFused x = (u, 0, f) → pf f.p 0 1 = 5 →
      (stripeOk f.p = false → exec (.stripeGroup τ q) s = .next (u.refuseCmd q 0x0808)) ∧
      ∀ (v : State) (ls : List (List Nat)), stripeOk f.p = true → u.readLayers f = (v, 0, ls) → layersOk (ls.map slayer) = true →
        tensorOk f.segs true (pf f.p 0x10 8) (pf f.p 0x18 4) = true →
        (numbered (ls.map slayer)).all (fun e => e.2.tensorsOk f.segs (e.1 == ls.length)) = true →
        exec (.stripeGroup τ q) s = .next ((v.modCmd q (fun y =>
          { y with begun := true, segs := f.segs, par := f.p, lays := ls, wait := [(0, (lastHo (ls.map slayer) + stripeHs f.p - 1) / stripeHs f.p)] })).settleCmd q))
  ∧
  (∀ (s : State) (τ q k : Nat) (x : Cmd), let v := (s.at τ).stripesDue q
      v.cmd? q = some x → x.begun = true → x.lays ≠ [] → x.par.headD 0 = 5 → v.cmdReady x = true → inTodo x.wait k = true →
      v.ownShard (k % x.shards) = true → (stripeD x.par ≤ k → v.holdsPool x (k - stripeD x.par) = false) → v.isOn bSCH = true →
      v.fencing bSCH = false → v.stripeReady x k = true →
      exec (.stripeStart τ q k) s = .next (v.modCmd q (fun y => { y with wait := todoTake y.wait k, todo := todoPut y.todo k })))
  ∧
  (∀ i p0 p1 d k st : Nat, 1 ≤ st → d * (k - 1) + 1 ≤ i + p0 + p1 →
      st * (outSize i p0 p1 d k st - 1) + d * (k - 1) + 1 ≤ i + p0 + p1 ∧ i + p0 + p1 < st * outSize i p0 p1 d k st + d * (k - 1) + 1)

/-- The next operation of a sequence control command opens a free sequence, forks an open one by sharing its pages, or closes one, and its status is kept; a sequence that is not free is refused STATE_REFUSED and unchanged; a finished page copy gives the sequence its own page; a swapped-out sequence is in state 2, a swap-in with a wrong check ends it, a sound one reopens it; a projection or attention command whose blocks and descriptor keep their rules begins with its parameters and its segments. -/
def Obligations.KeyValueCacheCommands : Prop :=
  (∀ (s : State) (τ : Nat) (q : Nat) (x : Cmd) (b : List Nat),
      (s.at τ).cmd? q = some x →
      x.begun = true →
      x.final = none →
      x.stopped = false →
      pf x.par 0 1 = 8 →
      x.lays[x.sts.length]? = some b →
      opCode b = 1 →
      (s.seq (opSeq b)).state = 0 →
      Completes (.seqOpen τ q) s (fun t =>
        t.seq (opSeq b) = { state := 1, pool := pf b 6 1, layers := pf b 7 1, pages := pf b 8 1, part := pf b 0xC 4, deadline := pf b 0x10 8, port := pf b 9 1, ctx := pf b 0xA 1 } ∧
        (t.cmd? q).map (fun y => y.sts) = some (x.sts ++ [0])))
  ∧
  (∀ (s : State) (τ : Nat) (q : Nat) (x : Cmd) (b : List Nat),
      (s.at τ).cmd? q = some x →
      x.begun = true →
      x.final = none →
      x.stopped = false →
      pf x.par 0 1 = 8 →
      x.lays[x.sts.length]? = some b →
      opCode b = 1 →
      (s.seq (opSeq b)).state ≠ 0 →
      Completes (.seqOpen τ q) s (fun t =>
        (t.cmd? q).map (fun y => y.sts) = some (x.sts ++ [0x0101]) ∧ t.kvc = s.kvc))
  ∧
  (∀ (s : State) (τ : Nat) (q : Nat) (x : Cmd) (b : List Nat),
      (s.at τ).cmd? q = some x →
      x.begun = true →
      x.final = none →
      x.stopped = false →
      pf x.par 0 1 = 8 →
      x.lays[x.sts.length]? = some b →
      opCode b = 2 →
      (s.seq (opSeq b)).state = 0 →
      (s.seq (pf b 4 2)).state = 1 →
      (s.seq (pf b 4 2)).entries.Nodup →
      (∀ i ∈ (s.seq (pf b 4 2)).entries, (s.page i).refs < 65535) →
      Completes (.fork τ q) s (fun t =>
        t.seq (opSeq b) = { s.seq (pf b 4 2) with part := pf b 0xC 4, deadline := pf b 0x10 8, port := pf b 9 1, ctx := pf b 0xA 1 } ∧
        (∀ i ∈ (s.seq (pf b 4 2)).entries, (t.page i).refs = (s.page i).refs + 1) ∧ t.cnt bKVC KVC_CNT_FORK = satInc (s.cnt bKVC KVC_CNT_FORK) 1 ∧
        (t.cmd? q).map (fun y => y.sts) = some (x.sts ++ [0])))
  ∧
  (∀ (s : State) (τ : Nat) (q : Nat) (x : Cmd) (b : List Nat),
      (s.at τ).cmd? q = some x →
      x.begun = true →
      x.final = none →
      x.stopped = false →
      pf x.par 0 1 = 8 →
      x.lays[x.sts.length]? = some b →
      opCode b = 3 →
      (s.seq (opSeq b)).state ≠ 0 →
      Completes (.close τ q) s (fun t =>
        t.seq (opSeq b) = {} ∧ (t.cmd? q).map (fun y => y.sts) = some (x.sts ++ [0])))
  ∧
  (∀ (s : State) (τ : Nat) (q e : Nat) (c : KvCopy),
      (s.at τ).kvcOn = true →
      s.kvc.copies.find? (fun d => d.seq == q && d.entry == e) = some c →
      c.src ≠ c.dst →
      (s.seq q).state = 1 →
      Store.get 0xFFFF (s.seq q).list e = c.src →
      Completes (.pageCopyDone τ q e) s (fun t =>
        ∃ u : State, t = u.prepareAll ∧ Store.get 0xFFFF (u.seq q).list e = c.dst ∧ (u.page c.dst).refs = 1 ∧ (u.page c.dst).state = 1 ∧
        (u.page c.dst).fill = (s.page c.src).fill ∧ u.kvc.copies = s.kvc.copies.filter (fun d => d != c)))
  ∧
  (∀ (s : State) (τ : Nat) (v : Nat) (o : Nat × Nat),
      (s.at τ).kvcOn = true →
      s.kvc.outs.find? (fun p => p.1 == v) = some o →
      (s.seq v).state = 1 →
      Completes (.swapOutDone τ v) s (fun t =>
        ∃ u : State, t = u.prepare o.2 ∧ (u.seq v).state = 2 ∧ u.kvc.outs = s.kvc.outs.filter (fun p => p != o)))
  ∧
  (∀ (s : State) (τ : Nat) (q : Nat) (ok : Bool) (data : List Nat) (e : Nat × List Nat),
      (s.at τ).kvcOn = true →
      s.kvc.ins.find? (fun p => p.1 == q) = some e →
      (s.seq q).state = 2 →
      ok = false ∨ crc32 data ≠ (s.seq q).crc →
      Completes (.swapInDone τ q ok data) s (fun t =>
        ∃ u : State, t = u.prepareAll ∧ (u.seq q).state = 3 ∧ (u.seq q).endStatus = 0x0304 ∧ (u.seq q).list = []))
  ∧
  (∀ (s : State) (τ : Nat) (q : Nat) (data : List Nat) (e : Nat × List Nat),
      (s.at τ).kvcOn = true →
      s.kvc.ins.find? (fun p => p.1 == q) = some e →
      (s.seq q).state = 2 →
      crc32 data = (s.seq q).crc →
      Completes (.swapInDone τ q true data) s (fun t =>
        ∃ u : State, t = u.prepareAll ∧ (u.seq q).state = 1 ∧ (u.seq q).crc = 0 ∧ u.kvc.ins = s.kvc.ins.filter (fun p => p.1 != q)))
  ∧
  (∀ (s : State) (τ : Nat) (q : Nat) (x : Cmd) (f : Fused) (u v : State) (l : List (List Nat)),
      (s.at τ).fusedReady q = some x →
      (s.at τ).readFused x = (u, 0, f) →
      pf f.p 0 1 = 7 →
      u.kvcOn = true →
      projOk f.p = true →
      u.readBatch (pf f.p 0x10 8) (pf f.p 0xC 2) = (v, 0, l) →
      batchOk l = true →
      l.all (fun b => (v.seq (segSeq b)).state == 0 || (v.seq (segSeq b)).state == 3 || decide (pf f.p 0xA 1 < (v.seq (segSeq b)).layers)) = true →
      projTensors f.p f.segs l = true →
      Completes (.projection τ q) s (fun t =>
        ∃ w : State, t = w.prepare q ∧ (w.cmd? q).map (fun y => (y.begun, y.par, y.lays)) = some (true, f.p, l)))
  ∧
  (∀ (s : State) (τ : Nat) (q : Nat) (x : Cmd) (f : Fused) (u v : State) (l : List (List Nat)),
      (s.at τ).fusedReady q = some x →
      (s.at τ).readFused x = (u, 0, f) →
      pf f.p 0 1 = 6 →
      u.kvcOn = true →
      attOk f.p = true →
      u.readBatch (pf f.p 0x10 8) (pf f.p 0xA 2) = (v, 0, l) →
      batchOk l = true →
      l.all (fun b => (v.seq (segSeq b)).state == 0 || (v.seq (segSeq b)).state == 3 || decide (pf f.p 8 1 < (v.seq (segSeq b)).layers)) = true →
      attWork f.p l ≤ pf f.p 0x48 4 →
      (attMode f.p = 2 → l.all (fun b => segMask b == 0) = true) →
      attTensors f.p f.segs l = true →
      Completes (.attention τ q) s (fun t =>
        ∃ w : State, t = w.prepare q ∧ (w.cmd? q).map (fun y => (y.begun, y.par, y.lays)) = some (true, f.p, l)))

/-- A doorbell within the ring size sets the producer index, one beyond it sets DB_OVER; QEN moves a queue that is OFF to STARTING, a STOPPING one to PENDING_ON, and an ON or waiting one to STOPPING or OFF; a fetched descriptor enters flight with its fields or completes PARAM_INVALID; a completed front command with no record retires; the read index of an event queue moves only up to the write index; a passed deadline marks the command missed. -/
def Obligations.QueuesFetchCompleteAndRetire : Prop :=
  (∀ (s : State) (τ : Nat) (i q v : Nat),
      s.regAllowed i true bSCH (0x100C + 0x20 * q) = true →
      s.domOn bSCH = true →
      q < 64 →
      ahead (v % 65536) (s.qDone q) ≤ 2 ^ s.rd bSCH (SCH_Q_CFG_SIZE_LOG2 q) →
      Completes (.schQDb τ i q v) s (fun t =>
        t.qProd q = v % 65536))
  ∧
  (∀ (s : State) (τ : Nat) (i q v : Nat),
      s.regAllowed i true bSCH (0x100C + 0x20 * q) = true →
      s.domOn bSCH = true →
      q < 64 →
      2 ^ s.rd bSCH (SCH_Q_CFG_SIZE_LOG2 q) < ahead (v % 65536) (s.qDone q) →
      Completes (.schQDb τ i q v) s (fun t =>
        t.rd bSCH (SCH_Q_CFG_DB_OVER q) = 1 ∧ t.qProd q = s.qProd q))
  ∧
  (∀ (s : State) (τ : Nat) (i q v : Nat),
      s.regAllowed i true bSCH (0x1008 + 0x20 * q) = true →
      s.domOn bSCH = true →
      q < 64 →
      v % 2 = 1 →
      s.qState q ≠ fSTARTING →
      Completes (.qen τ i q v) s (fun t =>
        t.qState q = (if s.qState q = fOFF then fSTARTING else if s.qState q = fSTOPPING then fPENDING else s.qState q)))
  ∧
  (∀ (s : State) (τ : Nat) (i q v : Nat),
      s.regAllowed i true bSCH (0x1008 + 0x20 * q) = true →
      s.domOn bSCH = true →
      q < 64 →
      v % 2 = 0 →
      s.qState q = fON ∨ s.qState q = fPENDING →
      Completes (.qen τ i q v) s (fun t =>
        t.qState q = (if s.sch.cmds.any (fun x => x.q == q) then fSTOPPING else fOFF)))
  ∧
  (∀ (s : State) (τ : Nat) (q : Nat) (b : List Nat),
      (s.at τ).canFetch q = true →
      (s.at τ).cmd? (qptr q (s.qFetch q)) = none →
      q < 64 →
      s.qFetch q < 65536 →
      (((s.at τ).wr bSCH (SCH_Q_CFG_QSTATE q) fON).hwRead iSCH (s.rd64 bSCH (SCH_Q_BASE_LO q) (SCH_Q_BASE_HI q) + 64 * (s.qFetch q % 2 ^ s.rd bSCH (SCH_Q_CFG_SIZE_LOG2 q))) 64).2 = (0, b) →
      cmdOk (cmdOf q (s.qFetch q) b) b = false →
      Completes (.commandFetch τ q) s (fun t =>
        (t.cmd? (qptr q (s.qFetch q))).map (fun y => y.final) = some (some (0x0808, 0xFFFFFFFF)) ∧ t.qFetch q = (s.qFetch q + 1) % 65536))
  ∧
  (∀ (s : State) (τ : Nat) (q : Nat) (b : List Nat),
      (s.at τ).canFetch q = true →
      (s.at τ).cmd? (qptr q (s.qFetch q)) = none →
      q < 64 →
      s.qFetch q < 65536 →
      (((s.at τ).wr bSCH (SCH_Q_CFG_QSTATE q) fON).hwRead iSCH (s.rd64 bSCH (SCH_Q_BASE_LO q) (SCH_Q_BASE_HI q) + 64 * (s.qFetch q % 2 ^ s.rd bSCH (SCH_Q_CFG_SIZE_LOG2 q))) 64).2 = (0, b) →
      cmdOk (cmdOf q (s.qFetch q) b) b = true →
      Completes (.commandFetch τ q) s (fun t =>
        (t.cmd? (qptr q (s.qFetch q))).map (fun y => [y.block, y.tiles, y.kind, y.deadline, y.part, y.vaddr, y.tag]) =
          some [leNat (b.take 8), leNat ((b.drop 8).take 4), b.getD 12 0, leNat ((b.drop 16).take 8), leNat ((b.drop 24).take 4), leNat ((b.drop 40).take 8), leNat ((b.drop 48).take 8)] ∧
        t.qFetch q = (s.qFetch q + 1) % 65536))
  ∧
  (∀ (s : State) (τ : Nat) (q n : Nat) (x : Cmd),
      s.sch.cmds = [x] →
      s.sch.bufs = [] →
      x.ptr = q →
      x.q < 64 →
      x.final = some (0, n) →
      x.done = false →
      x.check = 0xFF →
      bit x.flags 0 = 1 →
      qptr x.q (s.qDone x.q) = q →
      Completes (.commandComplete τ q) s (fun t =>
        t.cmd? q = none ∧ t.cnt bSCH SCH_CNT_COMPLETED = satInc (s.cnt bSCH SCH_CNT_COMPLETED) 1))
  ∧
  (∀ (s : State) (τ : Nat) (q a : Nat) (x : Cmd) (f : Nat × Nat),
      s.sch.cmds = [x] →
      s.sch.bufs = [] →
      x.ptr = q →
      x.q < 64 →
      x.final = some f →
      x.done = false →
      x.check = 0xFF →
      bit x.flags 0 = 0 →
      s.cqIsFull (s.rd bSCH (SCH_Q_CFG_CQ x.q)) = false →
      a = s.rd64 bSCH (SCH_CQ_BASE_LO (s.rd bSCH (SCH_Q_CFG_CQ x.q))) (SCH_CQ_BASE_HI (s.rd bSCH (SCH_Q_CFG_CQ x.q))) + 32 * (s.rd bSCH (SCH_CQ_WR (s.rd bSCH (SCH_Q_CFG_CQ x.q))) % 2 ^ s.rd bSCH (SCH_CQ_CFG_SIZE_LOG2 (s.rd bSCH (SCH_Q_CFG_CQ x.q)))) →
      inDram a 32 = true →
      (∀ u ∈ partUnits a 32, Store.get 0 s.errs u = 0 ∧ Store.get false s.poison u = false) →
      s.pwr.entry = none →
      s.memu.word = [] →
      s.memu.found = [] →
      (s.at τ).memAllowed iSCH true a 32 = true →
      Completes (.commandComplete τ q) s (fun t =>
        t.bytes a 24 = leBytes 4 q ++ leBytes 2 f.1 ++ [0, 0xFF] ++ leBytes 8 x.tag ++ leBytes 4 f.2 ++ [x.layer % 256, 0] ++ leBytes 2 x.failed ∧
        t.rd bSCH (SCH_CQ_WR (s.rd bSCH (SCH_Q_CFG_CQ x.q))) = (s.rd bSCH (SCH_CQ_WR (s.rd bSCH (SCH_Q_CFG_CQ x.q))) + 1) % 65536))
  ∧
  (∀ (s : State) (τ : Nat),
      s.isOn bSCH = true →
      s.fencing bSCH = false →
      Completes (.keyRecompute τ) s (fun t =>
        t.sch.cmds = s.sch.cmds.map (fun x => { x with key := (s.at τ).timeKey x })))
  ∧
  (∀ (s : State) (τ : Nat) (q : Nat) (x : Cmd),
      s.cmd? q = some x →
      x.final = none →
      x.stopped = false →
      (s.at τ).dlPassed x = true →
      Completes (.commandDeadlinePassed τ q) s (fun t =>
        (t.cmd? q).map (fun y => y.missed) = some true))
  ∧
  (∀ (s : State) (τ : Nat) (i q v : Nat),
      q < 4 →
      s.regAllowed i true bEVQ (0x110 + 0x20 * q) = true →
      s.domOn bEVQ = true →
      s.rd bEVQ (EVQ_Q_RD q) < 65536 →
      s.rd bEVQ (EVQ_Q_WR q) < 65536 →
      Completes (.ringReadIndex τ i (regAt bEVQ (0x110 + 0x20 * q)) v) s (fun t =>
        t.rd bEVQ (EVQ_Q_RD q) = (if ((v % 65536) + 65536 - s.rd bEVQ (EVQ_Q_RD q)) % 65536 ≤ (s.rd bEVQ (EVQ_Q_WR q) + 65536 - s.rd bEVQ (EVQ_Q_RD q)) % 65536 then v % 65536 else s.rd bEVQ (EVQ_Q_RD q))))

/-- A first report of a declared check joins the open merge entry while others are missing; a rejecting sound report makes the merged verdict REJECT and a missing check makes it DOUBT unless one rejects; at its verdict deadline a live slot holds a commit; LOAD starts from EMPTY, UNLOAD empties READY, both refuse while loading or active; the end of a load shows its status; a request write and the two expiries run the batch former. -/
def Obligations.VerdictsContextsAndBatches : Prop :=
  (∀ (m : Merge) (c sv : Nat) (r : List (Nat × Nat × Nat)), c < 64 → bit m.declared c = 1 → bit m.dup c = 0 → m.reports = (c, 1, sv) :: r →
      soundStatus sv = true → m.verdict = 1)
  ∧
  (∀ m : Merge, (∃ c, c < 64 ∧ bit m.declared c = 1 ∧ ∀ r ∈ m.reports, r.1 ≠ c) → (∀ r ∈ m.reports, r.2.1 ≠ 1) → m.verdict = 3)
  ∧
  (∀ (s : State) (k : Nat), s.batching k = false → s.batchRun k = s)
  ∧
  (∀ (s : State) (τ : Nat) (p n c vd sv k : Nat) (x : Slot) (m : Merge),
      s.slotOfPart p n = some (k, x) →
      s.mergeAt p k = some m →
      s.isOn bSCH = true →
      s.fencing bSCH = false →
      bit m.declared c = 1 →
      m.reports.any (fun r => r.1 == c) = false →
      m.missing.any (fun d => d != c) = true →
      Completes (.checkReport τ p n c vd sv) s (fun t =>
        (t.mergeAt p k).map (fun y => y.reports) = some ((c, vd, sv) :: m.reports)))
  ∧
  (∀ (s : State) (τ : Nat) (p k : Nat) (x : Slot),
      p < 2 →
      s.slot p k = some x →
      s.deadlinePos p x ≤ (s.at τ).pos p →
      s.ejtLive p = true →
      Completes (.verdictDeadline τ p k) s (fun t =>
        ∃ y, t.slot p k = some y ∧ y.commit.isSome = true))
  ∧
  (∀ (s : State) (τ : Nat) (i k : Nat),
      s.regAllowed i true bSCH 0x128 = true →
      s.domOn bSCH = true →
      k < 64 →
      s.ctxState k = 0 →
      Completes (.ctxLoad τ i k) s (fun t =>
        t.ctxState k = 1))
  ∧
  (∀ (s : State) (τ : Nat) (i k : Nat),
      s.regAllowed i true bSCH 0x128 = true →
      s.domOn bSCH = true →
      k < 64 →
      s.ctxState k = 1 ∨ s.ctxState k = 2 ∨ s.ctxState k = 3 →
      Completes (.ctxLoad τ i k) s (fun t =>
        t.ctxState k = s.ctxState k ∧ t.rd bSCH (SCH_CTX_STATE_LOAD_STATUS k) = 0x0101))
  ∧
  (∀ (s : State) (τ : Nat) (i k : Nat),
      s.regAllowed i true bSCH 0x128 = true →
      s.domOn bSCH = true →
      k < 64 →
      s.ctxState k = 2 →
      Completes (.unload τ i k) s (fun t =>
        t.ctxState k = 0 ∧ t.rd bSCH (SCH_CTX_STATE_LOAD_STATUS k) = 0))
  ∧
  (∀ (s : State) (τ : Nat) (i k : Nat),
      s.regAllowed i true bSCH 0x128 = true →
      s.domOn bSCH = true →
      k < 64 →
      s.ctxState k = 1 ∨ s.ctxState k = 3 →
      Completes (.unload τ i k) s (fun t =>
        t.ctxState k = s.ctxState k ∧ t.rd bSCH (SCH_CTX_STATE_LOAD_STATUS k) = 0x0101))
  ∧
  (∀ (s : State) (τ : Nat) (k st : Nat) (u : State) (cx : Ctx),
      k < 64 →
      s.ctxState k = 1 →
      (s.at τ).loadCtx k = (u, st, cx) →
      st < 65536 →
      Completes (.contextLoadDone τ k) s (fun t =>
        t.ctxState k = (if st = 0 then 2 else 0) ∧ t.rd bSCH (SCH_CTX_STATE_LOAD_STATUS k) = st ∧ (st = 0 → Store.get {} t.sch.ctx k = cx)))
  ∧
  (∀ (s : State) (τ : Nat) (i k v : Nat),
      s.regAllowed i true bSCH (0x3000 + 8 * k) = true →
      s.domOn bSCH = true →
      k < 64 →
      exec (.schSrqWr τ i k v) s = .next (((s.at τ).wr bSCH (SCH_SRQ_WR k) v).batchRun k))
  ∧
  (∀ (s : State) (τ : Nat) (k : Nat),
      exec (.batchWaitExpiry τ k) s = .next ((s.at τ).batchRun k))
  ∧
  (∀ (s : State) (τ : Nat) (k : Nat),
      exec (.batchSlackExpiry τ k) s = .next ((s.at τ).batchRun k))

/-- An exchange whose blocks are sound sends its segments in order; with nothing owed it completes with the highest status of its segments. A WRITE outside every valid receive window writes nothing and is acknowledged BUS_ERROR; inside one it is written and acknowledged with what the write answers. An acknowledgement settles its segment. A barrier completes OK at once outside its mask, otherwise it waits at its generation. Module 0 keeps an arrival while a member in service has not arrived and discards one of an earlier generation. A release completes the barrier at its time, or on arrival when it is late, and the generation advances. -/
def Obligations.ExchangesAndBarriers : Prop :=
  (∀ (s : State) (τ : Nat) (q : Nat) (x : Cmd) (u : State) (g : List (List Nat)) (p : List Nat) (v : State) (d : List Nat) (y : State × Exch),
      (s.at τ).fusedReady q = some x →
      ((s.at τ).readFused x).1 = u →
      ((s.at τ).readFused x).2.1 = 0 →
      ((s.at τ).readFused x).2.2.segs = g →
      ((s.at τ).readFused x).2.2.p = p →
      u.cmd? x.ptr = some x →
      x.final = none →
      pf p 0 1 = 9 →
      u.lnkOn = true →
      u.inService = true →
      pz p 1 1 = true →
      pz p 6 2 = true →
      pz p 0x10 112 = true →
      1 ≤ pf p 4 2 ∧ pf p 4 2 ≤ 256 →
      pf p 8 8 % 64 = 0 →
      pf p 8 8 + 32 * pf p 4 2 ≤ dramEnd →
      u.hwRead (iLNK 0) (pf p 8 8) (32 * pf p 4 2) = (v, 0, d) →
      ((List.range (pf p 4 2)).map (fun k => (d.drop (32 * k)).take 32)).all (fun b => exSegOk b && tensorOk g false (pf b 0 8) (pf b 16 4)) = true →
      (List.range (pf p 4 2)).foldl (fun (y : State × Exch) k => y.1.sendSeg y.2 ((modulesOf (pf p 2 2)).filter (· != v.modulePos)) k ((d.drop (32 * k)).take 32))
        (v.modCmd x.ptr (fun c => { c with begun := true, todo := [], par := p }), { x := x.ptr, list := pf p 8 8 }) = y →
      exec (.exchange τ q) s = .next (y.1.settleExch y.2))
  ∧
  (∀ (s : State) (τ : Nat) (a src addr tag : Nat) (poison : Bool) (data : List Nat),
      s.portUp a = true →
      s.modulePos < 16 →
      src < 16 →
      s.inWindow addr data.length = false →
      s.portUp (s.routeTo src) = true →
      (s.linkPort (s.routeTo src)).replay.length < 64 →
      Completes (.write τ a src addr tag poison data) s (fun t =>
        t.mem = s.mem ∧ (t.linkPort (s.routeTo src)).replay = (s.linkPort (s.routeTo src)).replay ++
          [((s.linkPort (s.routeTo src)).tx, 0, { type := 0x02, src := s.modulePos, dest := src, data := [0x0201], tag := tag })]))
  ∧
  (∀ (s : State) (τ : Nat) (a src addr tag st : Nat) (data : List Nat) (v : State),
      s.portUp a = true →
      s.inWindow addr data.length = true →
      ((s.at τ).rxFrame a { type := 0x01, src := src, dest := s.modulePos, arg := addr, tag := tag, data := data.map Int.ofNat }).hwWrite (0x70 + a) addr data = (v, st) →
      exec (.write τ a src addr tag false data) s = .next (v.sendFrame { type := 0x02, src := v.modulePos, dest := src, data := [st], tag := tag }))
  ∧
  (∀ (s : State) (τ : Nat) (a src tag st : Nat) (u : State) (e : Exch),
      s.portUp a = true →
      u = (s.at τ).rxFrame a { type := 0x02, src := src, dest := s.modulePos, tag := tag, data := [(st : Int)] } →
      s.lnk.exch.find? (fun e => e.x == tag / 256) = some e →
      s.inService = true →
      exec (.writeAck τ a src tag st) s = .next (u.settleExch (e.ack (tag % 256) src st)))
  ∧
  (∀ (s : State) (τ : Nat) (q : Nat) (x : Cmd) (u : State) (g : List (List Nat)) (p : List Nat),
      (s.at τ).fusedReady q = some x →
      ((s.at τ).readFused x).1 = u →
      ((s.at τ).readFused x).2.1 = 0 →
      ((s.at τ).readFused x).2.2.segs = g →
      ((s.at τ).readFused x).2.2.p = p →
      u.cmd? x.ptr = some x →
      x.final = none →
      pf p 0 1 = 10 →
      u.lnkOn = true →
      pf p 1 1 < 64 →
      pz p 4 124 = true →
      bit (pf p 2 2) u.modulePos = 0 →
      Completes (.barrier τ q) s (fun t =>
        (t.cmd? x.ptr).map (fun y => y.final) = some (some (0, 0xFFFFFFFF))))
  ∧
  (∀ (s : State) (τ : Nat) (q : Nat) (x : Cmd) (u : State) (g : List (List Nat)) (p : List Nat),
      (s.at τ).fusedReady q = some x →
      ((s.at τ).readFused x).1 = u →
      ((s.at τ).readFused x).2.1 = 0 →
      ((s.at τ).readFused x).2.2.segs = g →
      ((s.at τ).readFused x).2.2.p = p →
      u.cmd? x.ptr = some x →
      x.final = none →
      pf p 0 1 = 10 →
      u.lnkOn = true →
      pf p 1 1 < 64 →
      pz p 4 124 = true →
      bit (pf p 2 2) u.modulePos = 1 →
      u.modulePos ≠ 0 →
      u.inService = true →
      u.lnk.waits.any (fun w => w.2.1 == pf p 1 1) = false →
      Completes (.barrier τ q) s (fun t =>
        t.lnk.waits = u.lnk.waits ++ [(x.ptr, pf p 1 1, u.gen (pf p 1 1), pf p 2 2)] ∧ (t.cmd? x.ptr).map (fun y => y.begun && y.final.isNone) = some true))
  ∧
  (∀ (s : State) (τ : Nat) (a src num gen mask m : Nat),
      s.portUp a = true →
      s.modulePos = 0 →
      num < 64 →
      Store.get 0 s.lnk.least num ≤ gen →
      m < 16 →
      bit mask m = 1 →
      s.serves m = true →
      m ≠ src →
      s.lnk.arrived.any (fun w => w.1 == num && w.2.2.1 == m) = false →
      Completes (.arrive τ a src num gen mask) s (fun t =>
        (num, gen, src, mask) ∈ t.lnk.arrived))
  ∧
  (∀ (s : State) (τ : Nat) (a src num gen mask : Nat),
      s.portUp a = true →
      s.modulePos = 0 →
      gen < Store.get 0 s.lnk.least num →
      Completes (.arrive τ a src num gen mask) s (fun t =>
        t.lnk.arrived = s.lnk.arrived ∧ t.lnk.least = s.lnk.least))
  ∧
  (∀ (s : State) (τ : Nat) (a num gen time : Nat) (bad : Bool),
      s.portUp a = true →
      s.inService = true →
      s.lnk.waits.any (fun w => w.2.1 == num && w.2.2.1 == gen) = true →
      (s.at τ).tb.time ≤ time →
      Completes (.release τ a num gen time bad) s (fun t =>
        (num, gen, time, bad) ∈ t.lnk.rels ∧ t.lnk.waits = s.lnk.waits ∧ t.gen num = s.gen num))
  ∧
  (∀ (s : State) (τ : Nat) (a num gen time : Nat) (bad : Bool) (w : Nat × Nat × Nat × Nat) (x : Cmd),
      s.portUp a = true →
      s.inService = true →
      s.lnk.waits.find? (fun v => v.2.1 == num && v.2.2.1 == gen) = some w →
      s.cmd? w.1 = some x →
      x.final = none →
      time < (s.at τ).tb.time →
      Completes (.release τ a num gen time bad) s (fun t =>
        t.gen num = s.gen num + 1 ∧ t.cnt bLNK LNK_CNT_BARRIER_LATE = satInc (s.cnt bLNK LNK_CNT_BARRIER_LATE) 1 ∧
        (t.cmd? w.1).map (fun y => y.final) = some (some ((if bad then 0x0808 else 0), 0xFFFFFFFF)) ∧ t.lnk.waits.any (fun v => v.2.1 == num && v.2.2.1 == gen) = false))
  ∧
  (∀ (s : State) (τ : Nat) (num : Nat) (r : Nat × Nat × Nat × Bool) (w : Nat × Nat × Nat × Nat) (x : Cmd),
      s.lnk.rels.find? (fun r => r.1 == num) = some r →
      r.2.2.1 ≤ (s.at τ).tb.time →
      s.lnk.waits.find? (fun v => v.2.1 == num && v.2.2.1 == r.2.1) = some w →
      s.cmd? w.1 = some x →
      x.final = none →
      Completes (.barrierReleaseTime τ num) s (fun t =>
        t.gen num = s.gen num + 1 ∧ (t.cmd? w.1).map (fun y => y.final) = some (some ((if r.2.2.2 then 0x0808 else 0), 0xFFFFFFFF)) ∧
        t.cnt bLNK LNK_CNT_BARRIERS = satInc (s.cnt bLNK LNK_CNT_BARRIERS) 1))
  ∧
  (∀ (s : State) (τ : Nat) (num : Nat) (r : Nat × Nat × Nat × Bool),
      s.lnk.rels.find? (fun r => r.1 == num) = some r →
      (s.at τ).tb.time < r.2.2.1 →
      exec (.barrierReleaseTime τ num) s = .next (s.at τ))
  ∧
  -- an exchange that owes nothing more and has no failed segment completes with the highest status
  (∀ (s : State) (e : Exch) (x : Cmd), e.owed = [] → e.sts.all soundStatus = true → s.cmd? e.x = some x →
      ((s.settleExch e).cmd? e.x).map (fun y => (y.failed, y.final)) = some (0, some (e.sts.foldl max 0, 0xFFFFFFFF)))

/-- HELLO joins a port when nothing speaks against it and agrees the lower protocol, otherwise rejects it with its cause; it is retried after 100 ms. LACK removes the acknowledged frames; LNAK replays from its number on and counts the frames, and a frame that needs a ninth replay takes the port down. A bad CRC is counted and answered with LNAK, a gap answered alone. A frame for another module leaves on the other port and is counted; a frame on its way whose CRC fails leaves with an inverted CRC, is counted and asked for again. 30 µs of silence take the port down.  Keyed writes of other initiators are denied and with a wrong key ignored. -/
def Obligations.PortsJoinHopAndGoDown : Prop :=
  (∀ (s : State) (τ : Nat) (a major minor sysid pos topo modules clk : Nat),
      s.lnkOn = true →
      a < 2 →
      s.rd bLNK (LNK_PORT_STAT_LANES_UP a) ≠ 0 →
      s.peerCause a major sysid pos topo modules clk = 0 →
      Completes (.hello τ a major minor sysid pos topo modules clk) s (fun t =>
        t.rd bLNK (LNK_PORT_STAT_PSTATE a) = 3 ∧ t.rd bLNK (LNK_PORT_STAT_CAUSE a) = 0 ∧ t.rd bLNK (LNK_PORT_STAT_PEER_POS a) = pos % 16 ∧
        (t.linkPort a).major = min major linkMajor ∧ (t.linkPort a).replay = [] ∧ (t.linkPort a).rxAt = t.now))
  ∧
  (∀ (s : State) (τ : Nat) (a major minor sysid pos topo modules clk : Nat),
      s.lnkOn = true →
      a < 2 →
      s.rd bLNK (LNK_PORT_STAT_LANES_UP a) ≠ 0 →
      s.peerCause a major sysid pos topo modules clk ≠ 0 →
      Completes (.hello τ a major minor sysid pos topo modules clk) s (fun t =>
        t.rd bLNK (LNK_PORT_STAT_PSTATE a) = 4 ∧ t.rd bLNK (LNK_PORT_STAT_CAUSE a) = s.peerCause a major sysid pos topo modules clk))
  ∧
  (∀ (s : State) (τ : Nat) (a : Nat),
      s.lnkOn = true →
      a < 2 →
      s.rd bLNK (LNK_PORT_STAT_PSTATE a) = 4 ∨ s.rd bLNK (LNK_PORT_STAT_PSTATE a) = 2 →
      (s.linkPort a).helloAt + 100000000 ≤ (s.at τ).now →
      Completes (.helloRetry τ a) s (fun t =>
        (t.linkPort a).helloAt = t.now ∧ ∃ g f, t.out = .frame a 0 g f (f.bytes 0 g) :: s.out ∧ f.type = 0x40))
  ∧
  (∀ (s : State) (τ : Nat),
      s.lnkOn = true →
      s.modulePos ≠ 0 →
      (s.at τ).due perBeat 10000 = true →
      s.portUp (s.routeTo 0) = true →
      (s.linkPort (s.routeTo 0)).replay.length < 64 →
      Completes (.heartbeatSend τ) s (fun t =>
        (t.linkPort (s.routeTo 0)).replay = (s.linkPort (s.routeTo 0)).replay ++
          [((s.linkPort (s.routeTo 0)).tx, 0, { type := 0x41, src := s.modulePos, arg := s.modulePos })]))
  ∧
  (∀ (s : State) (τ : Nat) (a n : Nat),
      s.portUp a = true →
      (s.linkPort a).wait = [] →
      Completes (.lack τ a n) s (fun t =>
        (t.linkPort a).replay = acked n (s.linkPort a).replay ∧ (t.linkPort a).tx = (s.linkPort a).tx ∧ t.out = s.out))
  ∧
  (∀ (s : State) (τ : Nat) (a n : Nat),
      s.portUp a = true →
      ((s.linkPort a).replay.dropWhile (fun r => r.1 != n)).any (fun r => decide (8 ≤ r.2.1)) = false →
      Completes (.lnak τ a n) s (fun t =>
        (t.linkPort a).replay = (s.linkPort a).replay.takeWhile (fun r => r.1 != n) ++ ((s.linkPort a).replay.dropWhile (fun r => r.1 != n)).map (fun r => (r.1, r.2.1 + 1, r.2.2)) ∧
        t.cnt bLNK (LNK_CNT_REPLAY a) = satInc (s.cnt bLNK (LNK_CNT_REPLAY a)) ((s.linkPort a).replay.dropWhile (fun r => r.1 != n)).length))
  ∧
  (∀ (s : State) (τ : Nat) (a n : Nat),
      s.portUp a = true →
      ((s.linkPort a).replay.dropWhile (fun r => r.1 != n)).any (fun r => decide (8 ≤ r.2.1)) = true →
      Completes (.lnak τ a n) s (fun t =>
        t.rd bLNK (LNK_PORT_STAT_PSTATE a) = (if s.rd bLNK (LNK_PORT_STAT_LANES_UP a) = 0 then 0 else 2) ∧
        t.cnt bLNK (LNK_CNT_DOWN a) = satInc (s.cnt bLNK (LNK_CNT_DOWN a)) 1))
  ∧
  (∀ (s : State) (τ : Nat) (a : Nat) (gap : Bool),
      s.portUp a = true →
      Completes (.frameBadCrc τ a gap) s (fun t =>
        t.cnt bLNK (LNK_CNT_CRC a) = (if gap then s.cnt bLNK (LNK_CNT_CRC a) else satInc (s.cnt bLNK (LNK_CNT_CRC a)) 1) ∧
        (t.linkPort a).rx = (s.linkPort a).rx ∧ ∃ (g : Bool) (f : Frame), f = { type := 0x7F, src := s.modulePos, dest := 0xFF, arg := (s.linkPort a).rx } ∧ t.out = .frame a 0 g f (f.bytes 0 g) :: s.out))
  ∧
  (∀ (s : State) (τ : Nat) (a type src dest arg tag : Nat) (poison : Bool) (data : List Int),
      s.portUp a = true →
      dest ≠ s.modulePos →
      dest ≠ 0xFF →
      s.portUp (1 - a) = true →
      (s.linkPort (1 - a)).replay.length < 64 →
      Completes (.frameForward τ a type src dest arg tag poison true data) s (fun t =>
        (t.linkPort (1 - a)).replay = (s.linkPort (1 - a)).replay ++ [((s.linkPort (1 - a)).tx, 0, { type := type, src := src, dest := dest, arg := arg, tag := tag, poison := poison, data := data })] ∧
        t.cnt bLNK LNK_CNT_FWD = satInc (s.cnt bLNK LNK_CNT_FWD) 1 ∧ (t.linkPort a).rx = ((s.linkPort a).rx + 1) % 65536))
  ∧
  (∀ (s : State) (τ : Nat) (a type src dest arg tag : Nat) (poison : Bool) (data : List Int) (h : Frame),
      s.portUp a = true →
      dest ≠ s.modulePos →
      h = { type := type, src := src, dest := dest, arg := arg, tag := tag, poison := poison, data := data } →
      (dest = 0xFF → s.passesOn a h = true) →
      s.portUp (1 - a) = true →
      Completes (.frameForward τ a type src dest arg tag poison false data) s (fun t =>
        t.cnt bLNK (LNK_CNT_CRC a) = satInc (s.cnt bLNK (LNK_CNT_CRC a)) 1 ∧ (t.linkPort a).rx = (s.linkPort a).rx ∧
        ∃ (g : Bool) (f : Frame), f = { type := 0x7F, src := s.modulePos, dest := 0xFF, arg := (s.linkPort a).rx } ∧ t.out = .frame a 0 g f (f.bytes 0 g) :: .frame (1 - a) (s.linkPort (1 - a)).tx false h (h.bytes (s.linkPort (1 - a)).tx false) :: s.out))
  ∧
  (∀ (s : State) (τ : Nat) (a : Nat),
      s.portUp a = true →
      (s.linkPort a).rxAt + 30000 ≤ (s.at τ).now →
      Completes (.linkPortTimeout τ a) s (fun t =>
        t.rd bLNK (LNK_PORT_STAT_PSTATE a) = (if s.rd bLNK (LNK_PORT_STAT_LANES_UP a) = 0 then 0 else 2) ∧
        t.cnt bLNK (LNK_CNT_DOWN a) = satInc (s.cnt bLNK (LNK_CNT_DOWN a)) 1))
  ∧
  (∀ (s : State) (τ : Nat) (a : Nat),
      (s.at τ).now < (s.linkPort a).rxAt + 30000 →
      exec (.linkPortTimeout τ a) s = .next (s.at τ))
  ∧
  (∀ (s : State) (τ : Nat) (i v : Nat),
      s.mgmtOrHost i = true →
      s.domOn bLNK = true →
      bits v 16 16 = 0xA5C3 →
      bit v 8 = 1 →
      s.lnkOn = true →
      bits v 0 4 ≠ s.modulePos →
      exec (.lnkResetreq τ i v) s = .next ((s.at τ).sendFrame { type := 0x50, src := s.modulePos, dest := bits v 0 4 }))
  ∧
  (∀ (s : State) (τ : Nat) (i v : Nat),
      s.mgmtOrHost i = false →
      exec (.lnkResetreq τ i v) s = .next ((s.at τ).deny i true 0x30012001E0))
  ∧
  (∀ (s : State) (τ : Nat) (i v : Nat),
      s.mgmtOrHost i = true →
      s.domOn bLNK = true →
      bits v 16 16 = 0xA5C3 →
      exec (.lnkAssign τ i v) s = .next ((s.at τ).idEvent [(0x140, leBytes 8 (s.rd64 bLNK LNK_SYSID_LO LNK_SYSID_HI)), (0x148, [bits v 0 4, bit v 8])]))
  ∧
  (∀ (s : State) (τ : Nat) (i v : Nat),
      s.mgmtOrHost i = true →
      bits v 16 16 ≠ 0xA5C3 →
      exec (.lnkAssign τ i v) s = .next (s.at τ))

/-- Module 0 takes a heartbeat of a module it has not joined into the joined set. MEMBERS sets both sets, IN_SERVICE and DELAY. A module unheard for 50 µs leaves both sets and is counted; a module that has not heard module 0 leaves service. The recovered clock moves to the next lane up or the module leaves service. TIME sets the time base to its value and half of every round trip, source 3, valid. A follower takes the position and speed; a wired port aligns at the 16th equal difference and loses alignment at the 64th that differs by more than 2. A snapshot position is kept and reached. A late sub-verdict is counted. -/
def Obligations.MembershipClockTimeAndPosition : Prop :=
  (∀ (s : State) (τ : Nat) (a src : Nat),
      s.portUp a = true →
      s.modulePos = 0 →
      src < 16 →
      s.joined src = false →
      Completes (.heartbeat τ a src) s (fun t =>
        t.joined src = true ∧ t.serves src = s.serves src))
  ∧
  (∀ (s : State) (τ : Nat) (a src : Nat),
      s.portUp a = true →
      (s.modulePos = 0 → s.joined src = true) →
      exec (.heartbeat τ a src) s = .next ((s.at τ).rxFrame a { type := 0x41, src := src, dest := s.modulePos, arg := src }))
  ∧
  (∀ (s : State) (τ : Nat) (a joined serving : Nat),
      s.portUp a = true →
      s.modulePos ≠ 0 →
      ((modulesOf (s.rd bLNK LNK_MEMBERS_IN)).filter (fun m => bit serving m == 0 && m != s.modulePos)) = [] →
      Completes (.members τ a joined serving) s (fun t =>
        t.rd bLNK LNK_MEMBERS_JOINED = joined % 65536 ∧ t.rd bLNK LNK_MEMBERS_IN = serving % 65536 ∧ t.rd bLNK LNK_SVC_IN_SERVICE = bit serving s.modulePos ∧
        t.rd bLNK LNK_CINCH_DELAY = delayOf s.lnk.modules s.isRing joined % 65536))
  ∧
  (∀ (s : State) (τ : Nat) (m : Nat),
      s.lnkOn = true →
      s.modulePos = 0 →
      m ≠ 0 →
      m < 16 →
      s.joined m = true →
      Store.get 0 s.lnk.heard m + 50000 ≤ (s.at τ).now →
      s.lnk.exch = [] →
      Completes (.moduleLost τ m) s (fun t =>
        t.joined m = false ∧ t.serves m = false ∧ t.cnt bLNK LNK_CNT_MEMBER_LOST = satInc (s.cnt bLNK LNK_CNT_MEMBER_LOST) 1))
  ∧
  (∀ (s : State) (τ : Nat) (m : Nat),
      (s.at τ).now < Store.get 0 s.lnk.heard m + 50000 →
      exec (.moduleLost τ m) s = .next (s.at τ))
  ∧
  (∀ (s : State) (τ : Nat),
      s.lnkOn = true →
      s.modulePos ≠ 0 →
      s.joined s.modulePos = true →
      Store.get 0 s.lnk.heard 0 + 50000 ≤ (s.at τ).now →
      Completes (.module0Lost τ) s (fun t =>
        t.inService = false ∧ t.joined s.modulePos = false ∧ t.serves s.modulePos = false))
  ∧
  (∀ (s : State) (τ : Nat),
      s.clkSel = 2 →
      s.lnk.clkLane = none →
      Completes (.recoveredClockLock τ) s (fun t =>
        t.lnk.clkLane = (bitList 4 (s.rd bLNK (LNK_PORT_STAT_LANES_UP 0))).head?))
  ∧
  (∀ (s : State) (τ : Nat) (k j : Nat),
      s.lnk.clkLane = some k →
      ((bitList 4 (s.rd bLNK (LNK_PORT_STAT_LANES_UP 0))).filter (· != k)).head? = some j →
      Completes (.recoveredClockLoss τ) s (fun t =>
        t.lnk.clkLane = some j ∧ t.inService = s.inService))
  ∧
  (∀ (s : State) (τ : Nat) (k : Nat),
      s.lnk.clkLane = some k →
      (bitList 4 (s.rd bLNK (LNK_PORT_STAT_LANES_UP 0))).filter (· != k) = [] →
      Completes (.recoveredClockLoss τ) s (fun t =>
        t.lnk.clkLane = none ∧ t.inService = false))
  ∧
  (∀ (s : State) (τ : Nat) (a value : Nat) (trips : List Nat),
      s.portUp a = true →
      s.modulePos ≠ 0 →
      s.joined s.modulePos = true →
      Completes (.timeFrame τ a value trips) s (fun t =>
        t.tb.time = (value + (trips.map (· / 2)).foldl (· + ·) 0) % (2 ^ 64 * (1000000000 * 4294967296)) ∧ t.tb.holdFrom = some t.now ∧
        t.rd bTIM TIM_STAT_SOURCE = 3 ∧ t.rd bTIM TIM_STAT_VALID = 1 ∧ t.rd bTIM TIM_STAT_HOLDOVER = 0))
  ∧
  (∀ (s : State) (τ : Nat),
      s.lnkOn = true →
      s.modulePos = 0 →
      (s.at τ).due perTime 1000000 = true →
      exec (.timeSend τ) s = .next (((s.at τ).mark perTime).sendFrame { type := 0x31, dest := 0xFF, arg := (s.at τ).tb.time }))
  ∧
  (∀ (s : State) (τ : Nat),
      (s.at τ).due perTime 1000000 = false →
      exec (.timeSend τ) s = .next (s.at τ))
  ∧
  (∀ (s : State) (τ : Nat),
      (s.at τ).due perPos 10000 = false →
      exec (.positionSend τ) s = .next (s.at τ))
  ∧
  (∀ (s : State) (τ : Nat) (v u : State),
      s.lnkOn = true →
      s.modulePos = 0 →
      (s.at τ).due perPos 10000 = true →
      (s.at τ).mark perPos = v →
      (if s.isOn (bSTP 0) then v.sendFrame { type := 0x30, dest := 0xFF, arg := 0, data := [v.pos 0, v.speed 0 * 256, (v.tb.time : Int)] } else v) = u →
      exec (.positionSend τ) s = .next (if s.isOn (bSTP 1) then u.sendFrame { type := 0x30, dest := 0xFF, arg := 1, data := [u.pos 1, u.speed 1 * 256, (u.tb.time : Int)] } else u))
  ∧
  (∀ (s : State) (τ : Nat) (a p : Nat) (cnt spd : Int) (sample : Nat),
      s.portUp a = true →
      s.modulePos ≠ 0 →
      p < 2 →
      s.isFollower p = true →
      Completes (.position τ a p cnt spd sample) s (fun t =>
        (t.followP p).sys = cnt ∧ (t.followP p).spd = spd ∧ (t.followP p).seen = true))
  ∧
  (∀ (s : State) (τ : Nat) (a p : Nat) (cnt spd : Int) (sample : Nat),
      s.portUp a = true →
      s.modulePos ≠ 0 →
      p < 2 →
      s.isFollower p = false →
      bit (s.rd bLNK LNK_POSCFG_ALIGNED) p = 0 →
      (s.followP p).seen = true →
      15 ≤ (s.followP p).good →
      (cnt - ((s.at τ).ownPos p - ((s.at τ).speedFrac p).1 * (s.at τ).sinceTb sample * 256 / (((s.at τ).speedFrac p).2 : Int)) + 128) / 256 = (s.followP p).off →
      Completes (.position τ a p cnt spd sample) s (fun t =>
        bit (t.rd bLNK LNK_POSCFG_ALIGNED) p = 1 ∧ t.rd bLNK (LNK_POSOFF p) = toCode 32 (s.followP p).off))
  ∧
  (∀ (s : State) (τ : Nat) (a p : Nat) (cnt spd : Int) (sample : Nat),
      s.portUp a = true →
      s.modulePos ≠ 0 →
      p < 2 →
      s.isFollower p = false →
      bit (s.rd bLNK LNK_POSCFG_ALIGNED) p = 1 →
      63 ≤ (s.followP p).bad →
      2 < ((cnt - ((s.at τ).ownPos p - ((s.at τ).speedFrac p).1 * (s.at τ).sinceTb sample * 256 / (((s.at τ).speedFrac p).2 : Int)) + 128) / 256 - sext 32 (s.rd bLNK (LNK_POSOFF p))).natAbs →
      Completes (.position τ a p cnt spd sample) s (fun t =>
        bit (t.rd bLNK LNK_POSCFG_ALIGNED) p = 0))
  ∧
  (∀ (s : State) (τ : Nat) (i v : Nat),
      s.regAllowed i true bLNK 0x160 = true →
      bit v 0 = 1 →
      s.lnkOn = true →
      s.modulePos = 0 →
      Completes (.lnkSsnapGo τ i v) s (fun t =>
        t.lnk.snap = some (s.rd bLNK LNK_EPOCH_CFG_PORT, s.rdS64 bLNK LNK_SSNAP_POS_LO LNK_SSNAP_POS_HI)))
  ∧
  (∀ (s : State) (τ : Nat) (a p : Nat) (pos : Int),
      s.portUp a = true →
      Completes (.snapFrame τ a p pos) s (fun t =>
        t.lnk.snap = (if s.inService then some (p, pos) else s.lnk.snap)))
  ∧
  (∀ (s : State) (τ : Nat) (p : Nat) (x : Int),
      s.lnk.snap = some (p, x) →
      x ≤ (s.at τ).pos p →
      s.inService = true →
      exec (.systemSnapshot τ) s = .next (({ s.at τ with lnk := { s.lnk with snap := none } } : State).snapAll))
  ∧
  (∀ (s : State) (τ : Nat) (a src part p c verdict : Nat) (degraded : Bool),
      s.portUp a = true →
      s.slotOfPart p part = none →
      Completes (.subverdict τ a src part p c verdict degraded) s (fun t =>
        t.cnt bLNK LNK_CNT_SUBV_RX = satInc (s.cnt bLNK LNK_CNT_SUBV_RX) 1 ∧ t.cnt bLNK LNK_CNT_SUBV_LATE = satInc (s.cnt bLNK LNK_CNT_SUBV_LATE) 1 ∧ t.merge = s.merge))
  ∧
  (∀ (s : State) (τ : Nat) (a src part p c verdict k : Nat) (degraded : Bool) (x : Slot) (m : Merge),
      s.portUp a = true →
      s.slotOfPart p part = some (k, x) →
      s.mergeAt p k = some m →
      m.committed = false →
      exec (.subverdict τ a src part p c verdict degraded) s = .next (((((s.at τ).rxFrame a { type := 0x60, src := src, dest := s.modulePos, arg := part, data := [(p : Int), (c : Int), (verdict : Int), if degraded then 1 else 0] }).inc bLNK LNK_CNT_SUBV_RX).checkReport
        p part c verdict 0 degraded).settleCtxs))

/-- LNK_EPOCH_GO is refused with a cause and changes nothing else, or announces the epoch of the registers. A joined module holds the announced epoch as pending. At module 0 one refusing vote, or one missing after 1 ms, aborts the epoch; with every vote in and the lead kept it commits. COMMIT marks it, ABORT drops it with cause and refuser. An epoch reached is applied when committed; otherwise module 0 aborts it and another module loses it and leaves service. The shadow map takes effect shard by shard. A job ends when its last part is gone. Reports on a live switch end it. -/
def Obligations.EpochsAreAnnouncedVotedAndApplied : Prop :=
  (∀ s : State, (s.modulePos ≠ 0 → s.announceCause = 7) ∧ (s.modulePos = 0 → s.lnk.epoch.isSome = true → s.announceCause = 2))
  ∧
  (∀ (s : State) (j : Nat), j < 1024 → s.shadowModule j < 16 → s.applyMap.mapModule j = s.shadowModule j)
  ∧
  (∀ (s : State) (τ : Nat) (i v : Nat),
      s.regAllowed i true bLNK 0x14C = true →
      bit v 0 = 1 →
      s.lnkOn = true →
      (s.at τ).announceCause ≠ 0 →
      exec (.lnkEpochGo τ i v) s = .next ((s.at τ).wr bLNK LNK_EPOCH_STAT_CAUSE (s.at τ).announceCause))
  ∧
  (∀ (s : State) (τ : Nat) (i v : Nat),
      s.regAllowed i true bLNK 0x14C = true →
      bit v 0 = 1 →
      s.lnkOn = true →
      (s.at τ).announceCause = 0 →
      exec (.lnkEpochGo τ i v) s = .next ((s.at τ).announce (s.rd bLNK LNK_EPOCH_CFG_PORT) (s.rdS64 bLNK LNK_EPOCH_POS_LO LNK_EPOCH_POS_HI) s.epochCfg))
  ∧
  (∀ (s : State) (τ : Nat) (a num port cfg : Nat) (pos : Int) (contract : List Nat),
      s.portUp a = true →
      s.modulePos ≠ 0 →
      s.joined s.modulePos = true →
      Completes (.announce τ a num port pos cfg contract) s (fun t =>
        t.lnk.epoch = some { num := num, port := port % 2, pos := pos, cfg := cfg, since := t.now, voters := modulesOf (s.rd bLNK LNK_MEMBERS_JOINED) } ∧ t.rd bLNK LNK_EPOCH_STAT_ESTATE = 1 ∧
        t.rd bLNK LNK_EPOCH_STAT_CAUSE = 0))
  ∧
  (∀ (s : State) (τ : Nat) (a src num cause act : Nat) (out : Bool) (e : Epoch),
      s.portUp a = true →
      s.lnk.epoch = some e →
      s.modulePos = 0 →
      e.num = num →
      e.committed = false →
      src ∈ e.voters →
      cause ≠ 0 →
      s.lnk.revert = false →
      cfgRevert e.cfg = false →
      Completes (.vote τ a src num cause out act) s (fun t =>
        t.lnk.epoch = none ∧ t.rd bLNK LNK_EPOCH_STAT_ESTATE = 4 ∧ t.cnt bLNK LNK_CNT_EPOCH_ABORT = satInc (s.cnt bLNK LNK_CNT_EPOCH_ABORT) 1 ∧ t.jobNext = none ∧ t.rd bLNK LNK_EPOCH_STAT_CAUSE = 3))
  ∧
  (∀ (s : State) (τ : Nat) (a src num cause act m : Nat) (out : Bool) (e : Epoch),
      s.portUp a = true →
      s.lnk.epoch = some e →
      s.modulePos = 0 →
      e.num = num →
      e.committed = false →
      src ∈ e.voters →
      cause = 0 →
      m ∈ e.voters →
      m ≠ src →
      e.voteOf m = none →
      (∀ k ∈ e.voters, ∀ v, e.voteOf k = some v → v.cause = 0) →
      Completes (.vote τ a src num cause out act) s (fun t =>
        t.lnk.epoch = some { e with votes := Store.put none e.votes src (some { cause := cause, out := out, act := act }) }))
  ∧
  (∀ (s : State) (τ : Nat) (a src num act : Nat) (out : Bool) (e : Epoch),
      s.portUp a = true →
      s.lnk.epoch = some e →
      s.modulePos = 0 →
      e.num = num →
      e.committed = false →
      src ∈ e.voters →
      e.voters.all (fun k => k == src || decide ((e.voteOf k).map Vote.cause = some 0)) = true →
      (s.at τ).leadOk e.port 1 e.pos = true →
      Completes (.vote τ a src num 0 out act) s (fun t =>
        t.lnk.epoch.map (fun y => y.committed) = some true ∧ t.rd bLNK LNK_EPOCH_STAT_ESTATE = 2))
  ∧
  (∀ (s : State) (τ : Nat) (e : Epoch),
      s.lnk.epoch = some e →
      s.modulePos = 0 →
      e.committed = false →
      e.since + 1000000 ≤ (s.at τ).now →
      e.voters.any (fun m => (e.voteOf m).isNone) = true →
      s.lnk.revert = false →
      cfgRevert e.cfg = false →
      Completes (.voteTimeout τ) s (fun t =>
        t.lnk.epoch = none ∧ t.rd bLNK LNK_EPOCH_STAT_ESTATE = 4 ∧ t.cnt bLNK LNK_CNT_EPOCH_ABORT = satInc (s.cnt bLNK LNK_CNT_EPOCH_ABORT) 1 ∧ t.jobNext = none ∧ t.rd bLNK LNK_EPOCH_STAT_CAUSE = 4))
  ∧
  (∀ (s : State) (τ : Nat) (e : Epoch),
      s.lnk.epoch = some e →
      (s.at τ).now < e.since + 1000000 →
      exec (.voteTimeout τ) s = .next (s.at τ))
  ∧
  (∀ (s : State) (τ : Nat) (a num out : Nat) (acts : List Nat) (e : Epoch),
      s.portUp a = true →
      s.lnk.epoch = some e →
      s.modulePos ≠ 0 →
      e.num = num →
      Completes (.commit τ a num out acts) s (fun t =>
        t.lnk.epoch = some { e with committed := true, out := out, acts := acts } ∧ t.rd bLNK LNK_EPOCH_STAT_ESTATE = 2))
  ∧
  (∀ (s : State) (τ : Nat) (a num cause refuser : Nat) (e : Epoch),
      s.portUp a = true →
      s.lnk.epoch = some e →
      s.modulePos ≠ 0 →
      e.num = num →
      Completes (.abort τ a num cause refuser) s (fun t =>
        t.lnk.epoch = none ∧ t.rd bLNK LNK_EPOCH_STAT_ESTATE = 4 ∧ t.cnt bLNK LNK_CNT_EPOCH_ABORT = satInc (s.cnt bLNK LNK_CNT_EPOCH_ABORT) 1 ∧ t.jobNext = none ∧ t.rd bLNK LNK_EPOCH_STAT_CAUSE = cause % 256 ∧ t.rd bLNK LNK_EPOCH_STAT_REFUSER = refuser % 16))
  ∧
  (∀ (s : State) (τ : Nat) (e : Epoch),
      s.lnk.epoch = some e →
      e.pos ≤ (s.at τ).pos e.port →
      e.committed = true →
      exec (.epochApply τ) s = .next ((s.at τ).applyEpoch e))
  ∧
  (∀ (s : State) (τ : Nat) (e : Epoch),
      s.lnk.epoch = some e →
      e.pos ≤ (s.at τ).pos e.port →
      e.committed = false →
      s.modulePos ≠ 0 →
      Completes (.epochApply τ) s (fun t =>
        t.lnk.epoch = none ∧ t.rd bLNK LNK_EPOCH_STAT_CAUSE = 6 ∧ t.jobNext = none ∧ t.inService = false))
  ∧
  (∀ (s : State) (τ : Nat) (e : Epoch),
      s.lnk.epoch = some e →
      e.pos ≤ (s.at τ).pos e.port →
      e.committed = false →
      s.modulePos = 0 →
      s.lnk.revert = false →
      cfgRevert e.cfg = false →
      Completes (.epochApply τ) s (fun t =>
        t.lnk.epoch = none ∧ t.rd bLNK LNK_EPOCH_STAT_ESTATE = 4 ∧ t.cnt bLNK LNK_CNT_EPOCH_ABORT = satInc (s.cnt bLNK LNK_CNT_EPOCH_ABORT) 1 ∧ t.jobNext = none ∧ t.rd bLNK LNK_EPOCH_STAT_CAUSE = 5))
  ∧
  (∀ (s : State) (τ : Nat) (e : Epoch),
      s.lnk.epoch = some e →
      (s.at τ).pos e.port < e.pos →
      exec (.epochApply τ) s = .next (s.at τ))
  ∧
  (∀ (s : State) (τ : Nat),
      s.lnk.ending = true →
      s.openSlots 0 = [] →
      s.openSlots 1 = [] →
      Completes (.jobEnded τ) s (fun t =>
        t.jobRun = false ∧ t.lnk.ending = false ∧ (∀ n, n < 9 → t.rd (bCAM n) CAM_CTRL_STREAM = 0)))
  ∧
  (∀ (s : State) (τ : Nat) (a src : Nat) (u : Nat × List Int),
      s.portUp a = true →
      s.modulePos ≠ 0 →
      s.lnk.upg = some u →
      Completes (.upgradeReport τ a src true) s (fun t =>
        t.lnk.upg = none ∧ t.lnk.mine = 0 ∧ t.lnk.reports = []))
  ∧
  (∀ (s : State) (τ : Nat) (a src : Nat) (u : Nat × List Int),
      s.portUp a = true →
      s.modulePos = 0 →
      src ≠ 0 →
      s.lnk.upg = some u →
      Store.get 0 s.lnk.reports src = 0 →
      s.lnk.epoch.isSome = true →
      Completes (.upgradeReport τ a src false) s (fun t =>
        t.lnk.upg = none ∧ t.lnk.revert = true ∧ t.lnk.epoch = s.lnk.epoch))
  ∧
  (∀ (s : State) (τ : Nat) (u : Nat × List Int),
      s.lnk.upg = some u →
      u.1 + 10000000000 ≤ (s.at τ).now →
      s.lnk.mine = 0 →
      s.modulePos ≠ 0 →
      Completes (.upgradeTimeout τ) s (fun t =>
        t.lnk.mine = 2))
  ∧
  (∀ (s : State) (τ : Nat) (i c v : Nat),
      s.regAllowed i true (bCLU c) 4 = true →
      c < 34 →
      bit v 3 = 1 →
      bits v 1 2 = 1 →
      bit v 0 = 1 →
      s.isOn (bCLU c) = true →
      s.fencing (bCLU c) = false →
      s.role c = 1 →
      (s.cluX c).test = none →
      Completes (.selftest τ i c v) s (fun t =>
        (t.cluX c).test = some t.now ∧ t.rd (bCLU c) CLU_CTRL_SELFTEST = 1 ∧ t.rd (bCLU c) CLU_CTRL_ST_RESULT = 1 ∧ t.role c = 1))
  ∧
  (∀ (s : State) (τ : Nat) (c k : Nat),
      c < 34 →
      (s.cluX c).test = some k →
      Completes (.selftestDone τ c true) s (fun t =>
        t.rd (bCLU c) CLU_CTRL_ST_RESULT = 2 ∧ t.rd (bCLU c) CLU_CTRL_SELFTEST = 0 ∧ bit (t.rd64 bSCH SCH_SUBST_OK_LO SCH_SUBST_OK_HI) c = 1 ∧ t.fsm (bCLU c) = s.fsm (bCLU c)))
  ∧
  (∀ (s : State) (τ : Nat) (c k : Nat),
      c < 34 →
      (s.cluX c).test = some k →
      Completes (.selftestDone τ c false) s (fun t =>
        t.rd (bCLU c) CLU_CTRL_ST_RESULT = 3 ∧ t.fsm (bCLU c) = 6))

/-- A legal quadrature transition of a counting port moves its count by what the decoding says, and an illegal one is counted and makes the position uncertain; both expiries clear their bits after 1 ms; a wire break sets its bit, is counted and is an encoder fault while its end clears it; the index latches the position and zeroes the count in mode 2; an SSI read starts when its time has come and its word sets or moves the count, a failed one is counted; standstill is counted; a selected probe edge writes a record or is lost; the reads of FIFO and position answer and latch. -/
def Obligations.EncodersProbesAndPositions : Prop :=
  (∀ (s : State) (τ : Nat) (p held : Nat) (a b : Bool),
      p < 2 →
      (p = 0 → s.sys.factory.on = false) →
      s.isOn (bSTP p) = true →
      s.rd (bSTP p) STP_MODE_MODE = 0 →
      s.rd (bSTP p) STP_MODE_FILT + 1 ≤ held →
      a = (s.stpP p).a ∨ b = (s.stpP p).b →
      Completes (.encoderEdge τ p a b held) s (fun t =>
        (t.stpP p).count = (s.stpP p).count + quadDelta (s.rd (bSTP p) STP_MODE_DECODE) (s.rd (bSTP p) STP_MODE_INVERT == 1) (s.stpP p).a (s.stpP p).b a b ∧ (t.stpP p).a = a ∧ (t.stpP p).b = b))
  ∧
  (∀ (s : State) (τ : Nat) (p held : Nat) (a b : Bool),
      p < 2 →
      (p = 0 → s.sys.factory.on = false) →
      s.isOn (bSTP p) = true →
      s.rd (bSTP p) STP_MODE_MODE = 0 →
      s.rd (bSTP p) STP_MODE_FILT + 1 ≤ held →
      a ≠ (s.stpP p).a →
      b ≠ (s.stpP p).b →
      Completes (.encoderEdge τ p a b held) s (fun t =>
        (t.stpP p).count = (s.stpP p).count ∧ (t.stpP p).a = a ∧ (t.stpP p).b = b ∧ t.rd (bSTP p) STP_STAT_UNCERTAIN = 1 ∧
        t.cnt (bSTP p) STP_CNT_QUAD_ILLEGAL = satInc (s.cnt (bSTP p) STP_CNT_QUAD_ILLEGAL) 1))
  ∧
  (∀ (s : State) (τ : Nat) (p held : Nat) (a b : Bool),
      p < 2 →
      (p = 0 → s.sys.factory.on = false) →
      s.isOn (bSTP p) = true →
      s.rd (bSTP p) STP_MODE_MODE = 0 →
      held ≤ s.rd (bSTP p) STP_MODE_FILT →
      Completes (.encoderEdge τ p a b held) s (fun t =>
        t.stpP p = s.stpP p ∧ t.cnt (bSTP p) STP_CNT_QUAD_ILLEGAL = s.cnt (bSTP p) STP_CNT_QUAD_ILLEGAL))
  ∧
  (∀ (s : State) (τ : Nat) (p : Nat),
      exec (.uncertainExpiry τ p) s = .next (if (s.stpP p).lastIllegal + 1000000 ≤ (s.at τ).now then (s.at τ).wr (bSTP p) STP_STAT_UNCERTAIN 0 else s.at τ))
  ∧
  (∀ (s : State) (τ : Nat) (p : Nat),
      exec (.faultNowExpiry τ p) s = .next (if (s.stpP p).lastBad + 1000000 ≤ (s.at τ).now ∧ s.rd (bSTP p) STP_STAT_WIRE = 0 then (s.at τ).wr (bSTP p) STP_STAT_FAULT_NOW 0 else s.at τ))
  ∧
  (∀ (s : State) (τ : Nat) (p pair : Nat),
      p < 2 →
      s.isOn (bSTP p) = true →
      s.pairInUse p pair = true →
      bit (s.rd (bSTP p) STP_STAT_WIRE) pair = 0 →
      s.rd (bSTP p) STP_STAT_WIRE < 8 →
      Completes (.wireBreak τ p pair) s (fun t =>
        t.rd (bSTP p) STP_STAT_WIRE = s.rd (bSTP p) STP_STAT_WIRE + 2 ^ pair ∧ t.rd (bSTP p) STP_STAT_FAULT_NOW = 1 ∧
        t.cnt (bSTP p) STP_CNT_WIRE = satInc (s.cnt (bSTP p) STP_CNT_WIRE) 1))
  ∧
  (∀ (s : State) (τ : Nat) (p pair : Nat),
      p < 2 →
      bit (s.rd (bSTP p) STP_STAT_WIRE) pair = 1 →
      s.rd (bSTP p) STP_STAT_WIRE < 8 →
      Completes (.wireBreakEnd τ p pair) s (fun t =>
        t.rd (bSTP p) STP_STAT_WIRE = s.rd (bSTP p) STP_STAT_WIRE - 2 ^ pair ∧ (t.stpP p).lastBad = t.now))
  ∧
  (∀ (s : State) (τ : Nat) (p held : Nat),
      p < 2 →
      s.isOn (bSTP p) = true →
      s.rd (bSTP p) STP_MODE_MODE = 0 →
      s.rd (bSTP p) STP_MODE_FILT + 1 ≤ held →
      s.rd (bSTP p) STP_MODE_Z_MODE ≠ 0 →
      Completes (.indexEdge τ p held) s (fun t =>
        t.rd64 (bSTP p) STP_ZPOS_LO STP_ZPOS_HI = toCode 64 ((s.at τ).portPos p) ∧ t.rd (bSTP p) STP_STAT_Z_SEEN = 1 ∧
        t.cnt (bSTP p) STP_CNT_Z = satInc (s.cnt (bSTP p) STP_CNT_Z) 1 ∧ (t.stpP p).count = (if s.rd (bSTP p) STP_MODE_Z_MODE = 2 then 0 else (s.stpP p).count)))
  ∧
  (∀ (s : State) (τ : Nat) (p : Nat) (lineOne : Bool),
      p < 2 →
      s.isOn (bSTP p) = true →
      s.rd (bSTP p) STP_MODE_MODE = 1 →
      (s.stpP p).ssiStart = none →
      (s.stpP p).ssiPeriod + s.rd (bSTP p) STP_SSI_READ_US * 1000 ≤ (s.at τ).now →
      (s.at τ).now < (s.stpP p).ssiPeriod + 2 * (s.rd (bSTP p) STP_SSI_READ_US * 1000) →
      Completes (.ssiReadStart τ p lineOne) s (fun t =>
        (t.stpP p).ssiStart = (if lineOne then some t.now else none) ∧ (t.stpP p).ssiPeriod = (if lineOne then t.now else (s.stpP p).ssiPeriod) ∧
        t.out = (if lineOne then [Out.ssiBurst p (s.rd (bSTP p) STP_SSI_BITS + 1) (1000000000 / s.ssiClock p)] else []) ++ s.out))
  ∧
  (∀ (s : State) (τ : Nat) (p : Nat),
      p < 2 →
      s.isOn (bSTP p) = true →
      s.rd (bSTP p) STP_MODE_MODE = 1 →
      (s.stpP p).ssiStart = none →
      (s.stpP p).ssiPeriod + 2 * (s.rd (bSTP p) STP_SSI_READ_US * 1000) ≤ (s.at τ).now →
      Completes (.ssiReadStart τ p false) s (fun t =>
        t.cnt (bSTP p) STP_CNT_SSI_FRAME = satInc (s.cnt (bSTP p) STP_CNT_SSI_FRAME) 1 ∧ t.rd (bSTP p) STP_STAT_UNCERTAIN = 1))
  ∧
  (∀ (s : State) (τ : Nat) (p startBit word k : Nat) (idleOk : Bool),
      p < 2 →
      (p = 0 → s.sys.factory.on = false) →
      s.isOn (bSTP p) = true →
      (s.stpP p).ssiStart = some k →
      k + s.ssiLast p ≤ (s.at τ).now →
      startBit ≠ 0 ∨ idleOk = false →
      Completes (.ssiReadDone τ p startBit word idleOk) s (fun t =>
        t.cnt (bSTP p) STP_CNT_SSI_FRAME = satInc (s.cnt (bSTP p) STP_CNT_SSI_FRAME) 1 ∧ t.rd (bSTP p) STP_STAT_UNCERTAIN = 1 ∧
        (t.stpP p).count = (s.stpP p).count ∧ (t.stpP p).ssiStart = none))
  ∧
  (∀ (s : State) (τ : Nat) (p word k : Nat),
      p < 2 →
      (p = 0 → s.sys.factory.on = false) →
      s.isOn (bSTP p) = true →
      (s.stpP p).ssiStart = some k →
      k + s.ssiLast p ≤ (s.at τ).now →
      (s.stpP p).ssiPrev = none →
      Completes (.ssiReadDone τ p 0 word true) s (fun t =>
        (t.stpP p).count = (((if s.rd (bSTP p) STP_SSI_CODE = 1 then grayToBin (s.rd (bSTP p) STP_SSI_BITS) (word % 2 ^ s.rd (bSTP p) STP_SSI_BITS) else word % 2 ^ s.rd (bSTP p) STP_SSI_BITS) : Nat) : Int) ∧
        (t.stpP p).baseAt = k))
  ∧
  (∀ (s : State) (τ : Nat) (p word k q : Nat),
      p < 2 →
      (p = 0 → s.sys.factory.on = false) →
      s.isOn (bSTP p) = true →
      s.rd (bSTP p) STP_SSI_CODE = 0 →
      (s.stpP p).ssiStart = some k →
      k + s.ssiLast p ≤ (s.at τ).now →
      (s.stpP p).ssiPrev = some q →
      (sext (s.rd (bSTP p) STP_SSI_BITS) (word % 2 ^ s.rd (bSTP p) STP_SSI_BITS + 2 ^ s.rd (bSTP p) STP_SSI_BITS - q)).natAbs ≤ s.rd (bSTP p) STP_JUMP →
      Completes (.ssiReadDone τ p 0 word true) s (fun t =>
        (t.stpP p).count = (s.stpP p).count + (if s.rd (bSTP p) STP_MODE_INVERT = 1 then -1 else 1) *
          sext (s.rd (bSTP p) STP_SSI_BITS) (word % 2 ^ s.rd (bSTP p) STP_SSI_BITS + 2 ^ s.rd (bSTP p) STP_SSI_BITS - q) ∧
        (t.stpP p).ssiPrev = some (word % 2 ^ s.rd (bSTP p) STP_SSI_BITS)))
  ∧
  (∀ (s : State) (τ : Nat) (p word k q : Nat),
      p < 2 →
      (p = 0 → s.sys.factory.on = false) →
      s.isOn (bSTP p) = true →
      s.rd (bSTP p) STP_SSI_CODE = 0 →
      (s.stpP p).ssiStart = some k →
      k + s.ssiLast p ≤ (s.at τ).now →
      (s.stpP p).ssiPrev = some q →
      s.rd (bSTP p) STP_JUMP < (sext (s.rd (bSTP p) STP_SSI_BITS) (word % 2 ^ s.rd (bSTP p) STP_SSI_BITS + 2 ^ s.rd (bSTP p) STP_SSI_BITS - q)).natAbs →
      Completes (.ssiReadDone τ p 0 word true) s (fun t =>
        t.cnt (bSTP p) STP_CNT_SSI_JUMP = satInc (s.cnt (bSTP p) STP_CNT_SSI_JUMP) 1 ∧ (t.stpP p).count = (s.stpP p).count ∧ (t.stpP p).ssiPrev = some q))
  ∧
  (∀ (s : State) (τ : Nat) (p e : Nat),
      p < 2 →
      (s.stpP p).lastEdge = some e →
      s.isOn (bSTP p) = true →
      s.rd (bSTP p) STP_STAT_STANDSTILL = 0 →
      e + s.rd (bSTP p) STP_TIMING_STANDSTILL_MS * 1000000 ≤ (s.at τ).now →
      Completes (.standstill τ p) s (fun t =>
        t.rd (bSTP p) STP_STAT_STANDSTILL = 1 ∧ t.cnt (bSTP p) STP_CNT_STANDSTILL = satInc (s.cnt (bSTP p) STP_CNT_STANDSTILL) 1 ∧ t.speedFrac p = (0, 1)))
  ∧
  (∀ (s : State) (τ : Nat) (k : Nat) (rising : Bool),
      k < 4 →
      s.isOn bFIO = true →
      edgeTaken (s.rd bFIO (FIO_PRB_CFG_EDGE k)) rising = true →
      (Store.get [] s.field.prb k).length < 16 →
      Completes (.probeEdge τ k rising) s (fun t =>
        Store.get [] t.field.prb k = Store.get [] s.field.prb k ++
          [{ rising := rising, sec := (s.at τ).tbSec % 4294967296, ns := (s.at τ).tbNs, pos0 := (s.at τ).portPos 0, pos1 := (s.at τ).portPos 1 }]))
  ∧
  (∀ (s : State) (τ : Nat) (k : Nat) (rising : Bool),
      k < 4 →
      s.isOn bFIO = true →
      edgeTaken (s.rd bFIO (FIO_PRB_CFG_EDGE k)) rising = true →
      16 ≤ (Store.get [] s.field.prb k).length →
      Completes (.probeEdge τ k rising) s (fun t =>
        Store.get [] t.field.prb k = Store.get [] s.field.prb k ∧ t.cnt bFIO (FIO_CNT_PRB_LOST k) = satInc (s.cnt bFIO (FIO_CNT_PRB_LOST k)) 1))
  ∧
  (∀ (s : State) (τ : Nat) (k : Nat) (rising : Bool),
      edgeTaken (s.rd bFIO (FIO_PRB_CFG_EDGE k)) rising = false →
      exec (.probeEdge τ k rising) s = .next (s.at τ))
  ∧
  (∀ (s : State) (τ : Nat) (i k : Nat),
      s.regAllowed i false bFIO (0x1D8 + 0x20 * k) = true →
      s.domOn bFIO = true →
      Completes (.fioPrbRecRead τ i k) s (fun t =>
        Store.get [] t.field.prb k = (Store.get [] s.field.prb k).tail ∧ t.resp.data = [nth 0 (prbWords (Store.get [] s.field.prb k)) 6] ∧ t.resp.status = 0))
  ∧
  (∀ (s : State) (τ : Nat) (i p : Nat),
      s.regAllowed i false (bSTP p) 0x120 = true →
      s.domOn (bSTP p) = true →
      p < 2 →
      Completes (.stpPosLoRead τ i p) s (fun t =>
        t.rd64 (bSTP p) STP_POS_LO STP_POS_HI = toCode 64 ((s.at τ).portPos p) ∧ t.resp.data = [toCode 64 ((s.at τ).portPos p) % 4294967296] ∧ t.resp.status = 0))

/-- A grid start that is reached becomes the highest taken and opens a part; a committed slot whose firing position is reached fires and becomes free; an uncommitted slot at its earliest firing position is committed DOUBT as missed and an overspeed before its deadline, and at the deadline or past it the rules of the verdict deadline run. An explicit slot opens only in explicit mode, takes one software verdict, and a class fires at once, each output of its mask that nothing inhibits getting its pulse. An input passes after its filter time. A pulse ends at its time, an overloaded output is latched off, a strobe pulse ends. -/
def Obligations.PartsOpenFireAndOutputsFollow : Prop :=
  (∀ (s : State) (τ : Nat) (p part k : Nat) (start : Int),
      p < 2 →
      s.nextGrid p = some (start, part) →
      s.startsFrom p 1 = true →
      start ≤ (s.at τ).pos p →
      s.epochBars p start = false →
      (s.ejtU p).mayOpen = true →
      s.freeSlot p = some k →
      Completes (.partStart τ p) s (fun t =>
        (t.ejtU p).hiStart = some start ∧ ∃ y, t.slot p k = some y ∧ y.part = part ∧ y.start = start))
  ∧
  (∀ (s : State) (τ : Nat) (p part : Nat) (start : Int),
      s.nextGrid p = some (start, part) →
      (s.at τ).pos p < start →
      exec (.partStart τ p) s = .next (s.at τ))
  ∧
  (∀ (s : State) (τ : Nat) (p k : Nat) (x : Slot),
      p < 2 →
      k < 64 →
      s.slot p k = some x →
      x.commit.isSome = true →
      s.ejtLive p = true →
      (s.at τ).firingPos p x.cls x ≤ (s.at τ).pos p →
      Completes (.slotFire τ p k) s (fun t =>
        t.slot p k = none ∧ t.mergeAt p k = none))
  ∧
  (∀ (s : State) (τ : Nat) (p k : Nat) (x : Slot),
      s.slot p k = some x →
      x.commit = none ∨ (s.at τ).pos p < (s.at τ).firingPos p x.cls x →
      exec (.slotFire τ p k) s = .next (s.at τ))
  ∧
  (∀ (s : State) (τ : Nat) (p k : Nat) (x : Slot),
      p < 2 →
      k < 64 →
      s.slot p k = some x →
      x.commit = none →
      s.ejtLive p = true →
      (s.at τ).earliestPos p x ≤ (s.at τ).pos p →
      (s.at τ).pos p < x.deadline →
      Completes (.earliestFiringDoubt τ p k) s (fun t =>
        ∃ y c, t.slot p k = some y ∧ y.commit = some c ∧ c.verdict = 3 ∧ c.missed = true ∧ y.overspeed = true))
  ∧
  (∀ (s : State) (τ : Nat) (p k : Nat) (x : Slot),
      s.slot p k = some x →
      x.commit = none →
      s.ejtLive p = true →
      (s.at τ).earliestPos p x ≤ (s.at τ).pos p →
      x.deadline ≤ (s.at τ).pos p →
      exec (.earliestFiringDoubt τ p k) s = .next ((s.at τ).verdictDue p k))
  ∧
  (∀ (s : State) (τ : Nat) (i p v k : Nat),
      s.mgmtOrHost i = true →
      p < 2 →
      s.domOn (bEJT p) = true →
      bit v 0 = 1 →
      s.act (bEJT p) EJT_PARTCFG_PS_SRC = 3 →
      s.ejtLive p = true →
      (s.ejtU p).mayOpen = true →
      s.freeSlot p = some k →
      Completes (.ejtXopen τ i p v) s (fun t =>
        t.rd (bEJT p) EJT_XOPEN_XSTATUS = 0 ∧ t.rd (bEJT p) EJT_XOPEN_XSLOT = k ∧ t.slot p k = some ((s.at τ).newSlot p (s.ejtU p).opens (s.rdS64 (bEJT p) EJT_XTGT_LO EJT_XTGT_HI) (s.rdS64 (bEJT p) EJT_XTGT_LO EJT_XTGT_HI) true)))
  ∧
  (∀ (s : State) (τ : Nat) (i p v : Nat),
      s.mgmtOrHost i = true →
      s.domOn (bEJT p) = true →
      bit v 0 = 1 →
      s.act (bEJT p) EJT_PARTCFG_PS_SRC ≠ 3 →
      Completes (.ejtXopen τ i p v) s (fun t =>
        t.rd (bEJT p) EJT_XOPEN_XSTATUS = 0x0101 ∧ t.ejt = s.ejt))
  ∧
  (∀ (s : State) (τ : Nat) (i p v : Nat) (x : Slot),
      s.mgmtOrHost i = true →
      p < 2 →
      s.domOn (bEJT p) = true →
      s.slot p (bits v 0 6) = some x →
      x.explicit = true →
      x.commit = none →
      x.srcFb = false →
      s.ejtLive p = true →
      Completes (.ejtCommit τ i p v) s (fun t =>
        ∃ y c, t.slot p (bits v 0 6) = some y ∧ y.commit = some c ∧ c.verdict = bits v 8 2 ∧ c.missed = false))
  ∧
  (∀ (s : State) (τ : Nat) (i p v n : Nat),
      s.mgmtOrHost i = true →
      p < 2 →
      s.domOn (bEJT p) = true →
      bits v 0 2 < 3 →
      s.isOn (bEJT p) = true →
      s.firesNothing p = false →
      s.safe = false →
      (bitList 8 (s.act (bEJT p) (EJT_CLS_CFG_MASK (bits v 0 2)))).any (s.inhibitedHard p) = false →
      n < 8 →
      bit (s.act (bEJT p) (EJT_CLS_CFG_MASK (bits v 0 2))) n = 1 →
      Completes (.ejtFire τ i p v) s (fun t =>
        Store.get none t.field.pulses n = some ⟨p, t.now + s.act (bEJT p) (EJT_CLS_CFG_PULSE (bits v 0 2)) * 100000⟩))
  ∧
  (∀ (s : State) (τ : Nat) (i p v : Nat),
      s.mgmtOrHost i = true →
      bits v 0 2 = 3 →
      exec (.ejtFire τ i p v) s = .next (s.at τ))
  ∧
  (∀ (s : State) (τ : Nat) (levels k : Nat),
      k < 16 →
      s.isOn bFIO = true →
      (s.at τ).due perDi (if 3 ≤ s.rd bPWR PWR_STAT_STATE then 30500 else 1000) = true →
      bit (s.rd bFIO FIO_DI) k ≠ bit levels k →
      Store.get 0 s.field.diSince k ≠ 0 →
      Store.get 0 s.field.diSince k + s.diFilt k ≤ (s.at τ).now + 1 →
      Completes (.diSample τ levels) s (fun t =>
        bit (t.rd bFIO FIO_DI) k = bit levels k ∧ Store.get 0 t.field.diSince k = 0 ∧ t.field.diRaw = levels % 65536))
  ∧
  (∀ (s : State) (τ : Nat) (levels k : Nat),
      k < 16 →
      s.isOn bFIO = true →
      (s.at τ).due perDi (if 3 ≤ s.rd bPWR PWR_STAT_STATE then 30500 else 1000) = true →
      s.rd bFIO FIO_DI < 65536 →
      bit (s.rd bFIO FIO_DI) k ≠ bit levels k →
      (s.at τ).now + 1 < (if Store.get 0 s.field.diSince k = 0 then (s.at τ).now + 1 else Store.get 0 s.field.diSince k) + s.diFilt k →
      Completes (.diSample τ levels) s (fun t =>
        bit (t.rd bFIO FIO_DI) k = bit (s.rd bFIO FIO_DI) k ∧ Store.get 0 t.field.diSince k = (if Store.get 0 s.field.diSince k = 0 then (s.at τ).now + 1 else Store.get 0 s.field.diSince k)))
  ∧
  (∀ (s : State) (τ : Nat) (levels : Nat),
      (s.at τ).due perDi (if 3 ≤ s.rd bPWR PWR_STAT_STATE then 30500 else 1000) = false →
      exec (.diSample τ levels) s = .next (s.at τ))
  ∧
  (∀ (s : State) (τ : Nat) (n : Nat) (q : Pulse),
      n < 8 →
      Store.get none s.field.pulses n = some q →
      q.until_ ≤ (s.at τ).now →
      s.rd bFIO (FIO_DO_CFG_SRC n) ≠ 0 →
      s.safe = false →
      Completes (.outputPulseEnd τ n) s (fun t =>
        Store.get none t.field.pulses n = none ∧ t.rd bFIO (FIO_DO_CFG_ON n) = 0))
  ∧
  (∀ (s : State) (τ : Nat) (n : Nat) (q : Pulse),
      Store.get none s.field.pulses n = some q →
      (s.at τ).now < q.until_ →
      exec (.outputPulseEnd τ n) s = .next (s.at τ))
  ∧
  (∀ (s : State) (τ : Nat) (n : Nat) (thermal : Bool),
      n < 8 →
      s.domOn bFIO = true →
      Completes (.outputOverload τ n thermal) s (fun t =>
        t.rd bFIO (if thermal then FIO_DO_CFG_THERM n else FIO_DO_CFG_OVL n) = 1 ∧ t.rd bFIO (FIO_DO_CFG_ON n) = 0 ∧ Store.get none t.field.pulses n = none ∧
        t.cnt bFIO (if thermal then FIO_CNT_DO_THERM else FIO_CNT_DO_OVL) = satInc (s.cnt bFIO (if thermal then FIO_CNT_DO_THERM else FIO_CNT_DO_OVL)) 1))
  ∧
  (∀ (s : State) (τ : Nat) (b : Nat) (x : Nat × Nat),
      Store.get none s.field.stb b = some x →
      x.2 ≤ (s.at τ).now →
      Completes (.strobePulseEnd τ b) s (fun t =>
        Store.get none t.field.stb b = none ∧ Store.get 0 t.field.stbEnd b = x.2))

/-- An increment within 1.998 to 2.002 ns takes effect, any other is refused; SET and STEP load the time base outside a job, SET is refused in a job and STEP beyond its limit in one; more than one command, and any while Traif Link governs the time, is refused whole; SERVO_MARK names the source and restarts holdover. A read of NOW latches the same tick. A tick count outside 499 to 501 is a tick fault. Holdover begins HOLD_MS after the last restart. A generator instant carried past by a step is skipped and counted. A selected capture edge writes a record or is lost; reads of the two FIFOs take their oldest record. -/
def Obligations.TimeIsSetSteeredAndRead : Prop :=
  (∀ (s : State) (τ : Nat) (i v : Nat),
      s.mgmtOrHost i = true →
      s.rd bTIM COM_FENCE_FENCE ≠ 1 →
      s.linkTime = false →
      1998 * 4294967296 ≤ s.newInc v * 1000 →
      s.newInc v * 1000 ≤ 2002 * 4294967296 →
      Completes (.timIncNs τ i v) s (fun t =>
        t.tb.inc = s.newInc v ∧ t.rd bTIM TIM_STAT_SOURCE = 2 ∧ t.rd bTIM TIM_INC_NS = bits v 0 2 ∧ t.tb.time = (s.at τ).tb.time ∧ t.tb.holdFrom = some t.now))
  ∧
  (∀ (s : State) (τ : Nat) (i v : Nat),
      s.mgmtOrHost i = true →
      s.rd bTIM COM_FENCE_FENCE ≠ 1 →
      s.linkTime = false →
      2002 * 4294967296 < s.newInc v * 1000 ∨ s.newInc v * 1000 < 1998 * 4294967296 →
      Completes (.timIncNs τ i v) s (fun t =>
        t.rd bTIM TIM_STAT_REFUSED = 1 ∧ t.tb = (s.at τ).tb))
  ∧
  (∀ (s : State) (τ : Nat) (i v : Nat),
      s.mgmtOrHost i = true →
      s.rd bTIM COM_FENCE_FENCE ≠ 1 →
      s.linkTime = true →
      Completes (.timIncNs τ i v) s (fun t =>
        t.rd bTIM TIM_STAT_REFUSED = 1 ∧ t.tb = (s.at τ).tb))
  ∧
  (∀ (s : State) (τ : Nat) (i v : Nat),
      s.mgmtOrHost i = true →
      s.rd bTIM COM_FENCE_FENCE ≠ 1 →
      s.linkTime = false →
      popCount 3 v ≤ 1 →
      bit v 0 = 1 →
      s.jobRun = false →
      Completes (.timSet τ i v) s (fun t =>
        t.tb.time = s.rd64 bTIM TIM_SET_SEC_LO TIM_SET_SEC_HI * (1000000000 * 4294967296) + s.rd bTIM TIM_SET_NS * 4294967296 ∧ t.rd bTIM TIM_STAT_SOURCE = 1 ∧ t.rd bTIM TIM_STAT_VALID = 1 ∧ t.cnt bTIM TIM_CNT_STEPS = satInc (s.cnt bTIM TIM_CNT_STEPS) 1))
  ∧
  (∀ (s : State) (τ : Nat) (i v : Nat),
      s.mgmtOrHost i = true →
      s.rd bTIM COM_FENCE_FENCE ≠ 1 →
      s.linkTime = false →
      popCount 3 v ≤ 1 →
      bit v 0 = 1 →
      s.jobRun = true →
      Completes (.timSet τ i v) s (fun t =>
        t.rd bTIM TIM_STAT_REFUSED = 1 ∧ t.tb = (s.at τ).tb ∧ t.cnt bTIM TIM_CNT_STEP_REFUSED = satInc (s.cnt bTIM TIM_CNT_STEP_REFUSED) 1))
  ∧
  (∀ (s : State) (τ : Nat) (i v : Nat),
      s.mgmtOrHost i = true →
      s.rd bTIM COM_FENCE_FENCE ≠ 1 →
      s.linkTime = false →
      1 < popCount 3 v →
      Completes (.timSet τ i v) s (fun t =>
        t.rd bTIM TIM_STAT_REFUSED = 1 ∧ t.tb = (s.at τ).tb))
  ∧
  (∀ (s : State) (τ : Nat) (i v : Nat),
      s.mgmtOrHost i = true →
      s.rd bTIM COM_FENCE_FENCE ≠ 1 →
      s.linkTime = false →
      popCount 3 v ≤ 1 →
      bit v 1 = 1 →
      s.jobRun = false ∨ (sext 32 (s.rd bTIM TIM_ADJ)).natAbs ≤ s.rd bTIM TIM_CFG_STEP_LIMIT →
      Completes (.timStep τ i v) s (fun t =>
        t.tb.time = (((s.at τ).tb.time + sext 32 (s.rd bTIM TIM_ADJ) * 4294967296) % (2 ^ 64 * (1000000000 * 4294967296) : Nat)).toNat ∧ t.tb.holdFrom = some t.now ∧ t.rd bTIM TIM_STAT_VALID = 1 ∧ t.rd bTIM TIM_STAT_HOLDOVER = 0))
  ∧
  (∀ (s : State) (τ : Nat) (i v : Nat),
      s.mgmtOrHost i = true →
      s.rd bTIM COM_FENCE_FENCE ≠ 1 →
      s.linkTime = false →
      popCount 3 v ≤ 1 →
      bit v 1 = 1 →
      s.jobRun = true →
      s.rd bTIM TIM_CFG_STEP_LIMIT < (sext 32 (s.rd bTIM TIM_ADJ)).natAbs →
      Completes (.timStep τ i v) s (fun t =>
        t.rd bTIM TIM_STAT_REFUSED = 1 ∧ t.tb = (s.at τ).tb ∧ t.cnt bTIM TIM_CNT_STEP_REFUSED = satInc (s.cnt bTIM TIM_CNT_STEP_REFUSED) 1))
  ∧
  (∀ (s : State) (τ : Nat) (i v : Nat),
      s.mgmtOrHost i = true →
      s.rd bTIM COM_FENCE_FENCE ≠ 1 →
      s.linkTime = false →
      popCount 3 v ≤ 1 →
      bit v 2 = 1 →
      Completes (.servoMark τ i v) s (fun t =>
        t.rd bTIM TIM_STAT_SOURCE = 2 ∧ t.tb.holdFrom = some t.now ∧ t.tb.time = (s.at τ).tb.time))
  ∧
  (∀ (s : State) (τ : Nat) (i : Nat),
      s.regAllowed i false bTIM 0x110 = true →
      Completes (.timNowNs τ i) s (fun t =>
        t.resp.status = 0 ∧ t.resp.data = [(s.at τ).tb.time / 4294967296 % 1000000000] ∧ Store.get 0 t.tb.latch i = (s.at τ).tb.time ∧ t.tb.time = (s.at τ).tb.time))
  ∧
  (∀ (s : State) (τ : Nat) (ticks : Nat),
      s.rd bPWR PWR_STAT_STATE < 3 →
      (s.at τ).due perTick 1000 = true →
      ticks < 499 ∨ 501 < ticks →
      Completes (.tickMonitorWindow τ ticks) s (fun t =>
        t.rd bTIM TIM_STAT_TICK_FAULT = 1 ∧ t.cnt bTIM TIM_CNT_TICK_FAULT = satInc (s.cnt bTIM TIM_CNT_TICK_FAULT) 1))
  ∧
  (∀ (s : State) (τ : Nat) (ticks : Nat),
      s.rd bPWR PWR_STAT_STATE < 3 →
      (s.at τ).due perTick 1000 = true →
      499 ≤ ticks →
      ticks ≤ 501 →
      exec (.tickMonitorWindow τ ticks) s = .next ((s.at τ).mark perTick))
  ∧
  (∀ (s : State) (τ : Nat) (ticks : Nat),
      3 ≤ s.rd bPWR PWR_STAT_STATE ∨ (s.at τ).due perTick 1000 = false →
      exec (.tickMonitorWindow τ ticks) s = .next (s.at τ))
  ∧
  (∀ (s : State) (τ : Nat) (h : Nat),
      s.tb.holdFrom = some h →
      s.rd bTIM TIM_STAT_HOLDOVER = 0 →
      h + s.rd bTIM TIM_CFG_HOLD_MS * 1000000 ≤ (s.at τ).now →
      Completes (.holdover τ) s (fun t =>
        t.rd bTIM TIM_STAT_HOLDOVER = 1 ∧ t.cnt bTIM TIM_CNT_HOLDOVER = satInc (s.cnt bTIM TIM_CNT_HOLDOVER) 1))
  ∧
  (∀ (s : State) (τ : Nat) (k x : Nat),
      k < 8 →
      (s.at τ).genDue k = some x →
      (s.at τ).steppedOver x = true →
      Completes (.generatorInstant τ k) s (fun t =>
        t.cnt bTIM TIM_CNT_TRIG_SKIP = satInc (s.cnt bTIM TIM_CNT_TRIG_SKIP) 1 ∧ Store.get 0 t.tb.genFired k = x ∧ t.field = s.field))
  ∧
  (∀ (s : State) (τ : Nat) (k x : Nat),
      k < 8 →
      (s.at τ).genDue k = some x →
      (s.at τ).steppedOver x = false →
      s.act bTIM (TIM_GEN_CFG_TAN k) = 0 →
      Completes (.generatorInstant τ k) s (fun t =>
        t.tb.time = (s.at τ).tb.time ∧ Store.get 0 t.tb.genFired k = x ∧ t.cnt bTIM TIM_CNT_TRIG_SKIP = s.cnt bTIM TIM_CNT_TRIG_SKIP))
  ∧
  (∀ (s : State) (τ : Nat) (k : Nat),
      (s.at τ).genDue k = none →
      exec (.generatorInstant τ k) s = .next (s.at τ))
  ∧
  (∀ (s : State) (τ : Nat) (c src : Nat) (rising : Bool) (ago : Nat),
      s.runs bTIM = true →
      s.rd bTIM (TIM_CAP_CFG_SRC c) = src →
      edgeTaken (s.rd bTIM (TIM_CAP_CFG_EDGE c)) rising = true →
      (Store.get [] s.tb.caps c).length < 16 →
      Completes (.captureEdge τ c src rising ago) s (fun t =>
        Store.get [] t.tb.caps c = Store.get [] s.tb.caps c ++
          [{ rising := rising, sec := ((s.at τ).tb.time - ago / 2 * s.tb.inc) / (1000000000 * 4294967296) % 4294967296, ns := ((s.at τ).tb.time - ago / 2 * s.tb.inc) / 4294967296 % 1000000000 }]))
  ∧
  (∀ (s : State) (τ : Nat) (c src : Nat) (rising : Bool) (ago : Nat),
      s.runs bTIM = true →
      s.rd bTIM (TIM_CAP_CFG_SRC c) = src →
      edgeTaken (s.rd bTIM (TIM_CAP_CFG_EDGE c)) rising = true →
      16 ≤ (Store.get [] s.tb.caps c).length →
      Completes (.captureEdge τ c src rising ago) s (fun t =>
        t.cnt bTIM TIM_CNT_CAP_LOST = satInc (s.cnt bTIM TIM_CNT_CAP_LOST) 1 ∧ t.tb = (s.at τ).tb))
  ∧
  (∀ (s : State) (τ : Nat) (c src : Nat) (rising : Bool) (ago : Nat),
      s.rd bTIM (TIM_CAP_CFG_SRC c) ≠ src ∨ edgeTaken (s.rd bTIM (TIM_CAP_CFG_EDGE c)) rising = false →
      exec (.captureEdge τ c src rising ago) s = .next (s.at τ))
  ∧
  (∀ (s : State) (τ : Nat) (i c : Nat),
      s.regAllowed i false bTIM (0x30C + 0x20 * c) = true →
      Completes (.timCapRecRead τ i c) s (fun t =>
        Store.get [] t.tb.caps c = (Store.get [] s.tb.caps c).tail ∧ t.resp.status = 0 ∧ t.resp.data = [((Store.get [] s.tb.caps c).head?.map (fun r => r.ns)).getD 0]))
  ∧
  (∀ (s : State) (τ : Nat) (i p : Nat) (rx : Bool),
      s.regAllowed i false bTIM ((if rx then 0x42C else 0x41C) + 0x40 * p) = true →
      Completes (.timPtpRecRead τ i p rx) s (fun t =>
        t.ptpFifo p rx = (s.ptpFifo p rx).tail ∧ t.ptpFifo p (!rx) = s.ptpFifo p (!rx) ∧ t.resp.status = 0 ∧ t.resp.data = [((s.ptpFifo p rx).head?.map (fun r => r.ns)).getD 0]))

/-- A due stage with no report is late; a missing heartbeat begins a stage 7 fault, which ends when its condition has ended and is the safe reaction when it persists in a job with its window enabled; the delays of the safe reaction and of a self-fault end in a reset; a self-fault is level 2, cause 6, outputs safe; a fault of the fallback inspector clears FB_OK and is level 2 while a port is at level 1; RESTORE and TEST act or answer STATE_REFUSED; a fallback table loads with its status; a rule table replaces the old one or is refused. -/
def Obligations.HalterWatchesReactsAndResets : Prop :=
  (∀ (s : State) (τ : Nat) (p k stage : Nat) (x : Slot),
      p < 2 →
      k < 64 →
      stage < 7 →
      s.slot p k = some x →
      s.stageApplies p k stage = true →
      bit x.reported stage = 0 →
      bit x.lateSeen stage = 0 →
      bit s.opt.windows stage = 1 →
      ((nth 0xFFFFFFFF x.due stage : Nat) : Int) ≤ (s.at τ).pos p - x.start →
      Completes (.stageDue τ p k stage) s (fun t =>
        (∃ y, t.slot p k = some y ∧ bit y.lateSeen stage = 1) ∧ bit (t.rd bHLT HLT_STAT_STG_FAULT) stage = 1 ∧ t.cnt bHLT HLT_CNT_STG_LATE = satInc (s.cnt bHLT HLT_CNT_STG_LATE) 1))
  ∧
  (∀ (s : State) (τ : Nat) (p k stage : Nat) (x : Slot),
      s.slot p k = some x →
      (s.at τ).pos p - x.start < ((nth 0xFFFFFFFF x.due stage : Nat) : Int) →
      exec (.stageDue τ p k stage) s = .next (s.at τ))
  ∧
  (∀ (s : State) (τ : Nat) (src : Nat),
      src ≤ 2 →
      (src < 2 → s.isOn (bSTP src) = true) →
      Completes (.stage7HeartbeatMissing τ src) s (fun t =>
        Store.get none t.hlt.s7 (4 * src) = some t.now ∧ (bit s.opt.windows 7 = 1 → bit (t.rd bHLT HLT_STAT_STG_FAULT) 7 = 1)))
  ∧
  (∀ (s : State) (τ : Nat) (k : Nat) (missing : Bool),
      (s.at τ).s7Stands k missing = false →
      Completes (.stage7Persist τ k missing) s (fun t =>
        Store.get none t.hlt.s7 k = none ∧ t.rd bHLT HLT_STAT_LEVEL = s.rd bHLT HLT_STAT_LEVEL))
  ∧
  (∀ (s : State) (τ : Nat) (k a : Nat) (missing : Bool),
      Store.get none s.hlt.s7 k = some a →
      (s.at τ).s7Stands k missing = true →
      a + s.opt.s7PersistMs * 1000000 ≤ (s.at τ).now →
      s.jobRun = true →
      bit s.opt.windows 7 = 1 →
      s.rd bHLT HLT_STAT_LEVEL ≠ 2 →
      Completes (.stage7Persist τ k missing) s (fun t =>
        t.rd bHLT HLT_STAT_LEVEL = 2 ∧ t.rd bHLT HLT_STAT_CAUSE = 4 ∧ t.rd bFIO FIO_STAT_SAFE = 1))
  ∧
  (∀ (s : State) (τ : Nat) (n : Nat),
      s.rd bFIO (FIO_DO_CFG_SRC n) ≠ 0 →
      s.safe = false →
      s.inhibitedHard (s.rd bFIO (FIO_DO_CFG_SRC n) - 1) n = false →
      exec (.outputMismatch τ n) s = .next ((s.at τ).stageFault 6 (s.rd bFIO (FIO_DO_CFG_SRC n) - 1) 4))
  ∧
  (∀ (s : State) (τ : Nat) (d : Nat),
      s.hlt.resetDue = some d →
      exec (.safeResetDelay τ) s = .next (if d ≤ (s.at τ).now then ((s.at τ).writeEscalation 2 (s.rd bHLT HLT_STAT_CAUSE) 0xFF 0xFF).systemReset RST_CAUSE_HLT_WDT else s.at τ))
  ∧
  (∀ (s : State) (τ : Nat) (a : Nat),
      s.hlt.selfAt = some a →
      exec (.halterEscalationReset τ) s = .next (if a + 1000000 ≤ (s.at τ).now then ((s.at τ).writeEscalation 3 (s.rd bHLT HLT_STAT_CAUSE) 0xFF 0xFF).systemReset RST_CAUSE_HLT_WDT else s.at τ))
  ∧
  (∀ (s : State) (τ : Nat) (p part k v : Nat) (x : Slot),
      s.slotOfPart p part = some (k, x) →
      s.rd bHLT HLT_STAT_FB_OK ≠ 0 →
      s.fbResult p part = none →
      s.fbJudge (Store.get {} s.hlt.tables x.fbGen) p part = some v →
      Completes (.fallbackResult τ p part) s (fun t =>
        t.fbResult p part = some v))
  ∧
  (∀ (s : State) (τ : Nat),
      Completes (.fallbackFault τ) s (fun t =>
        t.rd bHLT HLT_STAT_FB_OK = 0 ∧ (s.rd bHLT HLT_STAT_LEVEL ≠ 2 → s.rd bHLT HLT_STAT_SRC0 = 1 ∨ s.rd bHLT HLT_STAT_SRC1 = 1 → t.rd bHLT HLT_STAT_LEVEL = 2 ∧ t.rd bHLT HLT_STAT_CAUSE = 5)))
  ∧
  (∀ (s : State) (τ : Nat) (i v p : Nat),
      s.mgmtOrHost i = true →
      bits v 16 16 = 0xA5C3 →
      p < 2 →
      bit v p = 1 →
      bit v (1 - p) = 0 →
      bit v 2 = 0 →
      s.restoreOk p = true →
      Completes (.restore τ i v) s (fun t =>
        t.rd bHLT (hltSrc p) = 0 ∧ t.rd (bEJT p) EJT_SRC = 0 ∧ t.rd bHLT HLT_REQ_STAT = 0 ∧ t.cnt bHLT HLT_CNT_RESTORE = satInc (s.cnt bHLT HLT_CNT_RESTORE) 1))
  ∧
  (∀ (s : State) (τ : Nat) (i v p : Nat),
      s.mgmtOrHost i = true →
      bits v 16 16 = 0xA5C3 →
      p < 2 →
      bit v p = 1 →
      bit v (1 - p) = 0 →
      bit v 2 = 0 →
      s.restoreOk p = false →
      Completes (.restore τ i v) s (fun t =>
        t.rd bHLT (hltSrc p) = s.rd bHLT (hltSrc p) ∧ t.rd bHLT HLT_REQ_STAT = 0x0101 ∧ t.cnt bHLT HLT_CNT_RESTORE = s.cnt bHLT HLT_CNT_RESTORE))
  ∧
  (∀ (s : State) (τ : Nat) (i v : Nat),
      s.mgmtOrHost i = true →
      bits v 16 16 ≠ 0xA5C3 →
      exec (.restore τ i v) s = .next (s.at τ))
  ∧
  (∀ (s : State) (τ : Nat) (i v : Nat),
      s.mgmtOrHost i = true →
      bits v 16 16 = 0xA5C3 →
      bits v 0 3 = 4 →
      bits v 8 3 < 6 ∨ s.jobRun = false →
      Completes (.test τ i v) s (fun t =>
        t.rd bHLT HLT_REQ_STAT = 0 ∧ t.cnt bHLT HLT_CNT_TEST = satInc (s.cnt bHLT HLT_CNT_TEST) 1 ∧ (bit s.opt.windows (bits v 8 3) = 1 → bit (t.rd bHLT HLT_STAT_STG_FAULT) (bits v 8 3) = 1)))
  ∧
  (∀ (s : State) (τ : Nat) (i v : Nat),
      s.mgmtOrHost i = true →
      bits v 16 16 = 0xA5C3 →
      bits v 0 3 = 4 →
      6 ≤ bits v 8 3 →
      s.jobRun = true →
      exec (.test τ i v) s = .next ((s.at τ).wr bHLT HLT_REQ_STAT 0x0101))
  ∧
  (∀ (s : State) (τ : Nat) (k : Nat),
      s.hlt.selfAt = none →
      s.domOn bHLT = true →
      s.hlt.lastKick = some k →
      4 * ((s.at τ).now - k) < s.opt.hwdUs * 1000 →
      Completes (.halterKick τ) s (fun t =>
        t.hlt.lastKick = some t.now ∧ t.hlt.selfAt = some t.now ∧ t.rd bHLT HLT_STAT_LEVEL = 2 ∧ t.rd bHLT HLT_STAT_CAUSE = 6 ∧ t.rd bFIO FIO_STAT_SAFE = 1))
  ∧
  (∀ (s : State) (τ : Nat),
      s.domOn bHLT = true →
      (∀ k, s.hlt.lastKick = some k → s.opt.hwdUs * 1000 ≤ 4 * ((s.at τ).now - k)) →
      Completes (.halterKick τ) s (fun t =>
        t.hlt.lastKick = some t.now ∧ t.hlt.selfAt = s.hlt.selfAt ∧ t.rd bHLT HLT_STAT_LEVEL = s.rd bHLT HLT_STAT_LEVEL))
  ∧
  (∀ (s : State) (τ : Nat) (k : Nat),
      s.hlt.selfAt = none →
      s.domOn bHLT = true →
      s.hlt.lastKick.or s.hlt.started = some k →
      k + s.opt.hwdUs * 1000 ≤ (s.at τ).now →
      Completes (.halterKickTimeout τ) s (fun t =>
        t.hlt.selfAt = some t.now ∧ t.rd bHLT HLT_STAT_LEVEL = 2 ∧ t.rd bHLT HLT_STAT_CAUSE = 6 ∧ t.rd bFIO FIO_STAT_SAFE = 1))
  ∧
  (∀ (s : State) (τ : Nat),
      s.hlt.selfAt = none →
      s.opt.lockstep = true →
      s.domOn bHLT = true →
      Completes (.lockstepMismatch τ) s (fun t =>
        t.hlt.selfAt = some t.now ∧ t.rd bHLT HLT_STAT_LEVEL = 2 ∧ t.rd bHLT HLT_STAT_CAUSE = 6 ∧ t.rd bFIO FIO_STAT_SAFE = 1))
  ∧
  (∀ (s : State) (τ : Nat),
      s.hlt.selfAt = none →
      s.domOn bHLT = true →
      Completes (.halterClockFault τ) s (fun t =>
        t.hlt.selfAt = some t.now ∧ t.rd bHLT HLT_STAT_LEVEL = 2 ∧ t.rd bHLT HLT_STAT_CAUSE = 6 ∧ t.rd bFIO FIO_STAT_SAFE = 1))
  ∧
  (∀ (s : State) (τ : Nat),
      s.hlt.selfAt = none →
      s.domOn bHLT = true →
      Completes (.halterDoubleBitError τ) s (fun t =>
        t.hlt.selfAt = some t.now ∧ t.rd bHLT HLT_STAT_LEVEL = 2 ∧ t.rd bHLT HLT_STAT_CAUSE = 6 ∧ t.rd bFIO FIO_STAT_SAFE = 1))
  ∧
  (∀ (s : State) (τ : Nat) (i v : Nat),
      s.regAllowed i true bHLT 0x30C = true →
      bit v 0 = 1 →
      s.rd bHLT HLT_FB_LOAD_BUSY = 0 →
      Completes (.hltFbLoad τ i v) s (fun t =>
        t.rd bHLT HLT_FB_LOAD_BUSY = 1 ∧ t.hlt.loading = some (s.rd64 bHLT HLT_FB_TAB_LO HLT_FB_TAB_HI, s.rd bHLT HLT_FB_LEN)))
  ∧
  (∀ (s : State) (τ : Nat) (a : Nat × Nat),
      s.hlt.loading = some a →
      Completes (.fbLoadDone τ) s (fun t =>
        t.rd bHLT HLT_FB_LOAD_BUSY = 0 ∧ t.rd bHLT HLT_FB_LOAD_LOAD_STATUS = (s.fbLoadResult a.1 a.2).1 ∧ t.hlt.loading = none ∧ t.hlt.shadow = ((s.fbLoadResult a.1 a.2).2).getD s.hlt.shadow))
  ∧
  (∀ (s : State) (τ : Nat) (i v a : Nat),
      s.regAllowed i true bHLT 0x418 = true →
      bit v 0 = 1 →
      a = s.rd64 bHLT HLT_FW_REQ_LO HLT_FW_REQ_HI →
      s.fwReqStatus a = 0 →
      Completes (.hltFwReqGo τ i v) s (fun t =>
        t.rd bHLT HLT_REQ_STAT = 0 ∧ (∀ k, k < 64 → Store.get [] t.hlt.rules k = (if bit (nth 0 (s.ruleAt a k) 4) 0 = 1 then s.ruleAt a k else []))))
  ∧
  (∀ (s : State) (τ : Nat) (i v a : Nat),
      s.regAllowed i true bHLT 0x418 = true →
      bit v 0 = 1 →
      a = s.rd64 bHLT HLT_FW_REQ_LO HLT_FW_REQ_HI →
      s.fwReqStatus a ≠ 0 →
      exec (.hltFwReqGo τ i v) s = .next (((s.at τ).fwRead a).wr bHLT HLT_REQ_STAT (s.fwReqStatus a)))

/-- A request for S1 that may be entered is entered at once and counted, one for S2 to S4 starts its entry, any other sleep state is refused STATE_REFUSED; SLEEP_ENTERED cuts the domains of the state and shows it once every cluster clock is gated; a wake event that the state allows ends S1, abandons an entry or starts the exit, whose steps follow each ready signal; a step without one is repeated once, then the exit stops. A domain comes up or goes down; a core goes off when it waits; a release frees held pads or is refused. -/
def Obligations.SleepWakeAndPowerDomains : Prop :=
  (∀ (s : State) (τ : Nat) (i v : Nat),
      s.mgmtOrHost i = true →
      bit v 8 = 1 →
      bits v 0 3 = 1 →
      s.rd bPWR PWR_STAT_STATE = 0 →
      s.pwr.entry = none →
      s.pwr.exit = none →
      (s.at τ).quiet = true →
      Completes (.pwrSleep τ i v) s (fun t =>
        t.rd bPWR PWR_STAT_STATE = 1 ∧ t.rd bPWR PWR_STAT_LAST = 1 ∧ t.rd bPWR PWR_STAT_ENTRY_STATUS = 0 ∧ t.cnt bPWR (PWR_CNT_S 0) = satInc (s.cnt bPWR (PWR_CNT_S 0)) 1))
  ∧
  (∀ (s : State) (τ : Nat) (i v : Nat),
      s.mgmtOrHost i = true →
      bit v 8 = 1 →
      2 ≤ bits v 0 3 ∧ bits v 0 3 ≤ 4 →
      s.rd bPWR PWR_STAT_STATE = 0 →
      s.pwr.entry = none →
      s.pwr.exit = none →
      (3 ≤ bits v 0 3 → s.groupNow i = 0) →
      (s.at τ).mayEnter (bits v 0 3) = true →
      Completes (.pwrSleep τ i v) s (fun t =>
        t.pwr.entry = some (bits v 0 3) ∧ t.rd bPWR PWR_STAT_ENTRY_STATUS = 0 ∧ t.rd bPWR PWR_STAT_STATE = 0))
  ∧
  (∀ (s : State) (τ : Nat) (i v : Nat),
      s.mgmtOrHost i = true →
      bit v 8 = 1 →
      1 ≤ bits v 0 3 ∧ bits v 0 3 ≤ 4 →
      s.rd bPWR PWR_STAT_STATE ≠ 0 ∨ s.pwr.entry.isSome = true ∨ s.pwr.exit.isSome = true ∨ (3 ≤ bits v 0 3 ∧ s.groupNow i ≠ 0) ∨ (s.at τ).mayEnter (bits v 0 3) = false →
      Completes (.pwrSleep τ i v) s (fun t =>
        t.rd bPWR PWR_STAT_ENTRY_STATUS = 0x0101 ∧ t.pwr = s.pwr ∧ t.rd bPWR PWR_STAT_STATE = s.rd bPWR PWR_STAT_STATE))
  ∧
  (∀ (s : State) (τ : Nat) (tgt : Nat),
      s.pwr.entry = some tgt →
      tgt < 8 →
      s.pwr.clk = 0 →
      Completes (.sleepEntered τ) s (fun t =>
        t.rd bPWR PWR_STAT_STATE = tgt ∧ t.rd bPWR PWR_STAT_LAST = tgt ∧ t.pwr.entry = none ∧ (∀ n, n < 60 → sleepCuts tgt n = true → t.pstate n = 0)))
  ∧
  (∀ (s : State) (τ : Nat) (src : Nat),
      src ≤ 6 →
      s.pwr.entry = none →
      s.pwr.exit = none →
      2 ≤ s.rd bPWR PWR_STAT_STATE →
      s.wakeAllowed src (s.rd bPWR PWR_STAT_STATE) = true →
      Completes (.wake τ src) s (fun t =>
        t.pwr.exit = some { src := s.rd bPWR PWR_STAT_STATE, step := 1, since := t.now } ∧ t.rd bPWR PWR_STAT_STEP = 1))
  ∧
  (∀ (s : State) (τ : Nat) (src : Nat),
      src ≤ 6 →
      s.pwr.entry = none →
      s.pwr.exit = none →
      s.rd bPWR PWR_STAT_STATE = 1 →
      s.wakeAllowed src 1 = true →
      Completes (.wake τ src) s (fun t =>
        t.rd bPWR PWR_STAT_STATE = 0 ∧ t.pwr.exit = none))
  ∧
  (∀ (s : State) (τ : Nat) (src tgt : Nat),
      src ≤ 6 →
      s.pwr.entry = some tgt →
      s.wakeAllowed src tgt = true →
      Completes (.wake τ src) s (fun t =>
        t.rd bPWR PWR_STAT_ABANDONED = 1 ∧ t.pwr.entry = none ∧ t.cnt bPWR PWR_CNT_ABANDON = satInc (s.cnt bPWR PWR_CNT_ABANDON) 1))
  ∧
  (∀ (s : State) (τ : Nat) (src : Nat),
      src ≤ 6 →
      s.pwr.entry = none →
      s.wakeAllowed src (s.rd bPWR PWR_STAT_STATE) = false →
      exec (.wake τ src) s = .next (s.at τ))
  ∧
  (∀ (s : State) (τ : Nat) (i v : Nat),
      exec (.pwrDbell τ i v) s = .next (if i = 5 ∧ bit v 0 = 1 then (s.at τ).wake 4 else s.at τ))
  ∧
  (∀ (s : State) (τ : Nat) (x : ExitRun),
      s.pwr.exit = some x →
      x.stopped = false →
      x.step < 4 →
      Completes (.exitStepReady τ) s (fun t =>
        t.pwr.exit = some { src := x.src, step := x.step + 1, since := t.now } ∧ t.rd bPWR PWR_STAT_STEP = x.step + 1))
  ∧
  (∀ (s : State) (τ : Nat) (x : ExitRun),
      s.pwr.exit = some x →
      x.stopped = false →
      4 ≤ x.step →
      (x.src = 4 → s.halterSound = true) →
      exec (.exitStepReady τ) s = .next ((s.at τ).exitEnd x.src))
  ∧
  (∀ (s : State) (τ : Nat) (x : ExitRun),
      s.pwr.exit = some x →
      x.stopped = false →
      x.since + 2 * exitTime x.src x.step ≤ (s.at τ).now →
      Completes (.exitStepTimeout τ) s (fun t =>
        t.pwr.exit = some (if x.again then { x with stopped := true } else { x with again := true, since := t.now })))
  ∧
  (∀ (s : State) (τ : Nat) (n : Nat),
      n < 60 →
      s.pstate n = 1 →
      s.sys.inReset = false →
      (∀ b ∈ blocksOf n, Store.get false s.pwr.saved b = false) →
      Completes (.domainPowerUp τ n) s (fun t =>
        t.pstate n = 2 ∧ (∀ b ∈ blocksOf n, t.fsm b = s.fsm b)))
  ∧
  (∀ (s : State) (τ : Nat) (n : Nat),
      n < 60 →
      s.pstate n = 1 →
      exec (.domainPowerUp τ n) s = .next ((s.at τ).upDom n))
  ∧
  (∀ (s : State) (τ : Nat) (n : Nat),
      n < 60 →
      s.pstate n = 3 →
      Completes (.domainPowerDown τ n) s (fun t =>
        t.pstate n = (if (blocksOf n).any (fun b => s.fsm b == fSTARTING) then 1 else 0)))
  ∧
  (∀ (s : State) (τ : Nat) (i v k : Nat),
      i = 1 →
      1 ≤ k ∧ k ≤ 3 →
      Completes (.pwrMcCtrl τ i v) s (fun t =>
        if bit v k = 1 then (s.pstate (51 + k) = 0 → t.pstate (51 + k) = 1) else (s.pstate (51 + k) = 2 → bit t.pwr.pendOff k = 1 ∧ t.pstate (51 + k) = 2)))
  ∧
  (∀ (s : State) (τ : Nat) (i v : Nat),
      i ≠ 1 →
      exec (.pwrMcCtrl τ i v) s = .next ((s.at τ).deny i true 0x3000000130))
  ∧
  (∀ (s : State) (τ : Nat) (k : Nat),
      1 ≤ k ∧ k ≤ 3 →
      bit s.pwr.pendOff k = 1 →
      Completes (.coreWaitForInterrupt τ k) s (fun t =>
        t.pstate (51 + k) = 0 ∧ bit (t.rd bPWR PWR_MC_CTRL_ON) (k - 1) = 0 ∧ bit t.pwr.pendOff k = 0))
  ∧
  (∀ (s : State) (τ : Nat) (i : Nat) (hi : Bool) (v n : Nat),
      s.mgmtOrHost i = true →
      n < 60 →
      if hi then 32 ≤ n ∧ bit v (n - 32) = 1 else n < 32 ∧ bit v n = 1 →
      Completes (.pwrRelease τ i hi v) s (fun t =>
        if s.pstate n = 2 then t.rd bPWR (PWR_PD_STAT_HELD n) = 0 ∨ 1 < s.rd bPWR (PWR_PD_STAT_HELD n) else t.rd bPWR PWR_STAT_REL_REFUSED = 1))

/-- A target change brings the target to the lower of OP_MAX and OP_CAP and a lower point takes effect at once; an acknowledgement makes its point the rail voltage, a request unanswered for 2 ms is a fault. A sample adds its energy; a period with samples shows their mean power and keeps every cap at or below the thermal limit, one without changes only the readings. A slope window opens once per 640 ns. A droop is counted and, when longer than 100 µs, shown. The thermal limit falls one point at a time, rises after its time, and goes to 0 at 110 °C. -/
def Obligations.ClocksCapDroopAndThermalLimits : Prop :=
  (∀ (s : State) (τ : Nat) (c : Nat),
      c < 34 →
      s.rd bCLK (CLK_CLU_OP_OP_MAX c) < 8 →
      Completes (.opTargetChange τ c) s (fun t =>
        t.opTgt c = min (s.rd bCLK (CLK_CLU_OP_OP_MAX c)) (s.rd bCLK (CLK_CLU_OP_OP_CAP c))))
  ∧
  (∀ (s : State) (τ : Nat) (c : Nat),
      c < 34 →
      s.fsm (bCLU c) ≠ fOFF →
      s.rd bCLK (CLK_RAIL_STAT_AVS_FAULT (c % 4)) = 0 →
      s.opCur c < 8 →
      min (s.rd bCLK (CLK_CLU_OP_OP_MAX c)) (s.rd bCLK (CLK_CLU_OP_OP_CAP c)) < s.opCur c →
      Completes (.opTargetChange τ c) s (fun t =>
        t.opCur c = min (s.rd bCLK (CLK_CLU_OP_OP_MAX c)) (s.rd bCLK (CLK_CLU_OP_OP_CAP c))))
  ∧
  (∀ (s : State) (τ : Nat) (r : Nat) (e : Nat × Nat),
      r < 4 →
      (s.rail r).req = some e →
      Completes (.avsAck τ r) s (fun t =>
        (t.rail r).ack = e.1))
  ∧
  (∀ (s : State) (τ : Nat) (r : Nat) (e : Nat × Nat),
      r < 4 →
      (s.rail r).req = some e →
      e.2 + 2000000 ≤ (s.at τ).now →
      Completes (.avsTimeout τ r) s (fun t =>
        t.rd bCLK (CLK_RAIL_STAT_AVS_FAULT r) = 1 ∧ (t.rail r).req = none ∧ t.cnt bCLK CLK_CNT_AVS_TIMEOUT = satInc (s.cnt bCLK CLK_CNT_AVS_TIMEOUT) 1))
  ∧
  (∀ (s : State) (τ : Nat) (mw : Nat),
      (s.at τ).due perPower 10000 = true →
      Completes (.powerSample τ mw) s (fun t =>
        t.pwr.energy = (s.pwr.energy + mw * 10) % 1000000000 ∧ t.cnt bCAP CAP_ENERGY_J = satInc (s.cnt bCAP CAP_ENERGY_J) ((s.pwr.energy + mw * 10) / 1000000000) ∧ t.pwr.samples = (if s.capOn then s.pwr.samples ++ [mw] else s.pwr.samples)))
  ∧
  (∀ (s : State) (τ : Nat) (mw : Nat),
      (s.at τ).due perPower 10000 = false →
      exec (.powerSample τ mw) s = .next (s.at τ))
  ∧
  (∀ (s : State) (τ : Nat) (est : List Nat) (other : Nat) (temps : List Int),
      s.capOn = false ∨ s.pwr.samples = [] ∨ (s.at τ).due perCap 100000 = false →
      exec (.capPeriod τ est other temps) s = .next ((s.at τ).readTemps temps))
  ∧
  (∀ (s : State) (τ : Nat) (est : List Nat) (other : Nat) (temps : List Int),
      s.capOn = true →
      s.pwr.samples ≠ [] →
      (s.at τ).due perCap 100000 = true →
      Completes (.capPeriod τ est other temps) s (fun t =>
        t.pwr.samples = [] ∧ t.rd bCAP CAP_STAT_P_MEAS = min (s.pwr.samples.foldl (· + ·) 0 * 1000 / s.pwr.samples.length * 16 / 1000000) 65535 ∧
        (∀ c, c < 34 → t.rd bCLK (CLK_CLU_OP_OP_CAP c) ≤ s.therm)))
  ∧
  (∀ (s : State) (τ : Nat),
      (∀ a, s.pwr.winAt = some a → a + 640 ≤ (s.at τ).now) →
      Completes (.slopeWindow τ) s (fun t =>
        t.pwr.winAt = some t.now ∧ t.pwr.held = false ∧ t.pwr.left ≤ 2 ∧ (s.pwr.held = true → t.pwr.left = 2 ∧ t.pwr.clk = s.pwr.clk)))
  ∧
  (∀ (s : State) (τ : Nat) (r : Nat) (below : Int),
      r < 4 →
      (s.rd bCAP CAP_CFG_DROOP_MV : Int) < below →
      Store.get none s.pwr.droop r = none →
      Completes (.droopDetect τ r below) s (fun t =>
        Store.get none t.pwr.droop r = some t.now ∧ t.cnt bCAP CAP_CNT_DROOP = satInc (s.cnt bCAP CAP_CNT_DROOP) 1))
  ∧
  (∀ (s : State) (τ : Nat) (r a : Nat) (below : Int),
      Store.get none s.pwr.droop r = some a →
      below + 10 < (s.rd bCAP CAP_CFG_DROOP_MV : Int) →
      Completes (.droopEnd τ r below) s (fun t =>
        Store.get none t.pwr.droop r = none ∧ t.cnt bCAP CAP_CNT_DROOP_US = satInc (s.cnt bCAP CAP_CNT_DROOP_US) (((s.at τ).now - a) / 1000) ∧ (a + 100000 < (s.at τ).now → t.rd bCAP CAP_STAT_DROOP = 1)))
  ∧
  (∀ (s : State) (τ : Nat) (temps : List Int),
      8 * (s.rd bCAP CAP_CFG_THROTTLE_C : Int) ≤ hottest temps →
      s.pwr.fell = none →
      1 ≤ s.therm ∧ s.therm < 8 →
      Completes (.throttleStep τ temps) s (fun t =>
        t.therm = s.therm - 1 ∧ t.cnt bCAP CAP_CNT_THROTTLE = satInc (s.cnt bCAP CAP_CNT_THROTTLE) 1 ∧ t.pwr.fell = some t.now ∧ t.rd bCAP CAP_STAT_THROTTLED = 1))
  ∧
  (∀ (s : State) (τ : Nat) (temps : List Int),
      hottest temps < 8 * (s.rd bCAP CAP_CFG_THROTTLE_C : Int) →
      exec (.throttleStep τ temps) s = .next ((({ (s.at τ).readTemps temps with pwr := { s.pwr with fell := none } }) : State)))
  ∧
  (∀ (s : State) (τ : Nat) (temps : List Int),
      hottest temps < 8 * ((s.rd bCAP CAP_CFG_THROTTLE_C : Int) - 5) →
      temps ≠ [] →
      s.therm < 7 →
      (∀ a, s.pwr.rose = some a → a + 10000000 ≤ (s.at τ).now) →
      Completes (.throttleRiseStep τ temps) s (fun t =>
        t.therm = s.therm + 1 ∧ t.pwr.fell = none ∧ t.pwr.rose = some t.now))
  ∧
  (∀ (s : State) (τ : Nat) (temps : List Int),
      880 ≤ hottest temps →
      Completes (.hardThermal τ temps) s (fun t =>
        t.therm = 0 ∧ t.rd bCAP CAP_STAT_HARD = 1 ∧ t.cnt bCAP CAP_CNT_HARD = satInc (s.cnt bCAP CAP_CNT_HARD) 1 ∧ (∀ c, c < 34 → (s.opCur c ≠ 0 ↔ bit t.pwr.slow c = 1))))
  ∧
  (∀ (s : State) (τ : Nat) (temps : List Int),
      hottest temps < 880 →
      exec (.hardThermal τ temps) s = .next ((s.at τ).readTemps temps))

/-- A lane that hears shows its lock and loses its training with it, counted; RETRAIN takes an ON lane to STARTING and training takes it to ON at its rate; a test write on a fenced lane stores legal fields and restarts its counters; an injection waits on the lane or is counted; checker sync is kept with its mismatches. Losing block lock takes the link down. A received frame is counted and delivered, or dropped; a sent one leaves the queue, a poisoned one with a wrong FCS. PERST and a lost link reset the endpoint; requests answer from configuration, registers, memory and the MSI-X table, or UR (status codes of the model, log entry 9). -/
def Obligations.LanesFramesAndHostRequests : Prop :=
  (∀ (s : State) (τ : Nat) (m : Nat),
      s.laneHears m = true →
      Completes (.cdrLock τ m) s (fun t =>
        t.rd (bSDS m) SDS_STAT_CDR_LOCK = 1 ∧ t.rd (bSDS m) SDS_STAT_SIG_DET = 1 ∧ t.fsm (bSDS m) = s.fsm (bSDS m)))
  ∧
  (∀ (s : State) (τ : Nat) (m : Nat) (sig : Bool),
      s.laneHears m = true →
      s.rd (bSDS m) SDS_STAT_CDR_LOCK = 1 →
      Completes (.cdrLockLoss τ m sig) s (fun t =>
        t.rd (bSDS m) SDS_STAT_CDR_LOCK = 0 ∧ t.rd (bSDS m) SDS_STAT_TRAINED = 0 ∧ t.rd (bSDS m) SDS_STAT_SIG_DET = (if sig then 1 else 0) ∧ t.cnt (bSDS m) SDS_CNT_LOCK_LOSS = satInc (s.cnt (bSDS m) SDS_CNT_LOCK_LOSS) 1))
  ∧
  (∀ (s : State) (τ : Nat) (i m v : Nat),
      m < 52 →
      s.regAllowed i true (bSDS m) 4 = true →
      s.isOn (bSDS m) = true →
      s.fencing (bSDS m) = false →
      bit v 0 = 1 →
      bit v 1 = 1 →
      Completes (.retrain τ i m v) s (fun t =>
        t.fsm (bSDS m) = 1 ∧ t.rd (bSDS m) SDS_CTRL_RETRAIN = 1 ∧ t.rd (bSDS m) SDS_STAT_TRAINED = 0 ∧ t.cnt (bSDS m) SDS_CNT_RETRAIN = satInc (s.cnt (bSDS m) SDS_CNT_RETRAIN) 1))
  ∧
  (∀ (s : State) (τ : Nat) (m r : Nat),
      m < 52 →
      s.domOn (bSDS m) = true →
      s.fsm (bSDS m) = 1 →
      s.fencing (bSDS m) = false →
      rateListed m r = true →
      m < 44 ∨ r ≤ s.rd bPCIE PCIE_CFG_MAX_SPEED →
      s.rd bPWR (PWR_PD_STAT_HELD (domOf (bSDS m))) = 0 →
      s.rd (bSDS m) COM_CTRL_ENABLE = 1 →
      Completes (.laneTrained τ m r) s (fun t =>
        t.fsm (bSDS m) = 2 ∧ t.rd (bSDS m) SDS_STAT_TRAINED = 1 ∧ t.rd (bSDS m) SDS_STAT_RATE = r ∧ t.rd (bSDS m) SDS_CTRL_RETRAIN = 0))
  ∧
  (∀ (s : State) (τ : Nat) (i m v : Nat),
      m < 52 →
      s.mgmtOrHost i = true →
      s.domOn (bSDS m) = true →
      s.fsm (bSDS m) = 5 →
      s.rd (bSDS m) COM_RESET_RESET = 0 →
      bit v 0 = 0 →
      Completes (.sdsTest τ i m v) s (fun t =>
        t.rd (bSDS m) SDS_TEST_GEN = (if bits v 20 4 ≤ 8 then bits v 20 4 else s.rd (bSDS m) SDS_TEST_GEN) ∧ t.cnt (bSDS m) SDS_CNT_CHK_ERR = 0 ∧ t.cnt (bSDS m) SDS_CNT_CHK_BITS_LO = 0 ∧ t.fsm (bSDS m) = 5))
  ∧
  (∀ (s : State) (τ : Nat) (i m v : Nat),
      m < 52 →
      s.mgmtOrHost i = true →
      s.domOn (bSDS m) = true →
      s.isOn (bSDS m) = true →
      s.jobRun = false →
      bit v 0 = 1 →
      bits v SDS_TEST_INJ_MODE.lo SDS_TEST_INJ_MODE.w = 2 →
      Completes (.inj τ i m v) s (fun t =>
        if m < 44 then (t.sdsX m).inj = true else t.cnt bPCIE PCIE_CNT_REPLAY = satInc (s.cnt bPCIE PCIE_CNT_REPLAY) 1))
  ∧
  (∀ (s : State) (τ : Nat) (m : Nat),
      m < 52 →
      s.fsm (bSDS m) = 5 →
      s.rd (bSDS m) SDS_TEST_CHK ≠ 0 →
      s.rd (bSDS m) SDS_STAT_CHK_SYNC = 0 →
      (s.rd (bSDS m) SDS_TEST_LOOP = 1 → patternFits (s.rd (bSDS m) SDS_TEST_GEN) (s.rd (bSDS m) SDS_TEST_CHK) (s.rd (bSDS m) SDS_USERPAT) = true) →
      Completes (.checkerSyncGain τ m) s (fun t =>
        t.rd (bSDS m) SDS_STAT_CHK_SYNC = 1 ∧ (t.sdsX m).sync = some t.now))
  ∧
  (∀ (s : State) (τ : Nat) (m errs : Nat),
      m < 52 →
      s.rd (bSDS m) SDS_STAT_CHK_SYNC = 1 →
      (s.rd (bSDS m) SDS_TEST_LOOP = 1 → patternFits (s.rd (bSDS m) SDS_TEST_GEN) (s.rd (bSDS m) SDS_TEST_CHK) (s.rd (bSDS m) SDS_USERPAT) = false) →
      Completes (.checkerSyncLoss τ m errs) s (fun t =>
        t.rd (bSDS m) SDS_STAT_CHK_SYNC = 0 ∧ (t.sdsX m).sync = none ∧ t.cnt (bSDS m) SDS_CNT_CHK_ERR = satInc (s.cnt (bSDS m) SDS_CNT_CHK_ERR) (max 32 errs)))
  ∧
  (∀ (s : State) (τ : Nat) (p : Nat) (hi : Bool),
      p < 2 →
      s.rd (bETH p) ETH_STAT_LINK = 1 →
      Completes (.blockLockLoss τ p hi) s (fun t =>
        t.rd (bETH p) ETH_STAT_LINK = 0 ∧ t.rd (bETH p) ETH_STAT_BLOCK_LOCK = (if hi then 1 else 0) ∧ t.cnt (bETH p) ETH_CNT_LINK_DOWN = satInc (s.cnt (bETH p) ETH_CNT_LINK_DOWN) 1 ∧ t.ethX p = {}))
  ∧
  (∀ (s : State) (τ : Nat) (p : Nat) (f : List Nat),
      p < 2 →
      s.rd bPWR PWR_STAT_STATE ≠ 3 →
      s.isOn (bETH p) = true →
      s.fencing (bETH p) = false →
      s.rd (bETH p) ETH_STAT_LINK = 1 →
      exec (.ethFrameReceive τ p f false) s = .next ((s.at τ).inc (bETH p) ETH_CNT_RX_FCS))
  ∧
  (∀ (s : State) (τ : Nat) (p : Nat) (f : List Nat),
      p < 2 →
      s.rd bPWR PWR_STAT_STATE ≠ 3 →
      s.isOn (bETH p) = true →
      s.fencing (bETH p) = false →
      s.rd (bETH p) ETH_STAT_LINK = 1 →
      s.rd (bETH p) ETH_CFG_MTU < f.length + 4 →
      Completes (.ethFrameReceive τ p f true) s (fun t =>
        t.cnt (bETH p) ETH_CNT_RX_LONG = satInc (s.cnt (bETH p) ETH_CNT_RX_LONG) 1 ∧ t.ethX p = s.ethX p))
  ∧
  (∀ (s : State) (τ : Nat) (p : Nat) (f : List Nat),
      p < 2 →
      s.rd bPWR PWR_STAT_STATE ≠ 3 →
      s.isOn (bETH p) = true →
      s.fencing (bETH p) = false →
      s.rd (bETH p) ETH_STAT_LINK = 1 →
      f.length + 4 ≤ s.rd (bETH p) ETH_CFG_MTU →
      isPause f = false →
      s.dmaRuns (29 + 2 * p) = true →
      (s.ethX p).rx = [] →
      Completes (.ethFrameReceive τ p f true) s (fun t =>
        (t.ethX p).rx = [f] ∧ t.cnt (bETH p) ETH_CNT_RX_OK = satInc (s.cnt (bETH p) ETH_CNT_RX_OK) 1 ∧ t.cnt (bETH p) ETH_CNT_RX_DROP = s.cnt (bETH p) ETH_CNT_RX_DROP))
  ∧
  (∀ (s : State) (τ : Nat) (p : Nat) (f : List Nat),
      p < 2 →
      s.rd bPWR PWR_STAT_STATE ≠ 3 →
      s.isOn (bETH p) = true →
      s.fencing (bETH p) = false →
      s.rd (bETH p) ETH_STAT_LINK = 1 →
      f.length + 4 ≤ s.rd (bETH p) ETH_CFG_MTU →
      isPause f = false →
      s.dmaRuns (29 + 2 * p) = false →
      Completes (.ethFrameReceive τ p f true) s (fun t =>
        t.ethX p = s.ethX p ∧ t.cnt (bETH p) ETH_CNT_RX_DROP = satInc (s.cnt (bETH p) ETH_CNT_RX_DROP) 1))
  ∧
  (∀ (s : State) (τ : Nat) (p : Nat) (f : List Nat) (bad : Bool) (r : List (List Nat × Bool)),
      p < 2 →
      s.isOn (bETH p) = true →
      s.fencing (bETH p) = false →
      s.rd (bETH p) ETH_STAT_LINK = 1 →
      (s.ethX p).pauseTo ≤ (s.at τ).now →
      (s.ethX p).tx = (f, bad) :: r →
      Completes (.ethFrameTransmit τ p) s (fun t =>
        (t.ethX p).tx = r ∧ t.cnt (bETH p) (if bad then ETH_CNT_TX_POISON else ETH_CNT_TX_OK) = satInc (s.cnt (bETH p) (if bad then ETH_CNT_TX_POISON else ETH_CNT_TX_OK)) 1 ∧ ∃ g, t.out = .eth p f g :: s.out ∧ (bad = true → g = false)))
  ∧
  (∀ (s : State) (τ : Nat),
      s.pwr.perstLow = none →
      Completes (.pciePerst τ) s (fun t =>
        t.pwr.perstLow = some t.now ∧ t.pcie = {} ∧ t.rd bPCIE PCIE_STAT_LINK_UP ≠ 1 ∧ (∀ k, k < 8 → t.rd (bSDS (44 + k)) SDS_STAT_TRAINED = 0)))
  ∧
  (∀ (s : State) (τ : Nat) (a : Nat),
      s.pwr.perstLow = some a →
      Completes (.pciePerstRelease τ) s (fun t =>
        t.pwr.perstLow = none))
  ∧
  (∀ (s : State) (τ : Nat),
      s.rd bPCIE PCIE_STAT_LINK_UP = 1 →
      Completes (.pcieLinkDown τ) s (fun t =>
        t.rd bPCIE PCIE_STAT_LINK_UP = 0 ∧ t.pcie = {} ∧ t.cnt bPCIE PCIE_CNT_LINK_DOWN = satInc (s.cnt bPCIE PCIE_CNT_LINK_DOWN) 1))
  ∧
  (∀ (s : State) (τ : Nat) (wr : Bool) (off v : Nat),
      s.pcieLive = true →
      s.rd bPCIE PCIE_STAT_LINK_UP = 1 →
      s.rd bPCIE COM_FENCE_FENCE ≠ 1 →
      off < 4096 →
      off % 4 = 0 →
      Completes (.pcieConfigRequest τ wr off v) s (fun t =>
        if wr then Store.get 0 t.pcie.cfg (off / 4) = v % 4294967296 + 1 ∧ t.resp.status = 0 else t.resp.data = [s.cfgRead off] ∧ t.pcie = s.pcie))
  ∧
  (∀ (s : State) (τ : Nat) (wr : Bool) (off v : Nat),
      s.pcieLive = true →
      s.rd bPCIE PCIE_STAT_LINK_UP = 1 →
      s.rd bPCIE COM_FENCE_FENCE ≠ 1 →
      4096 ≤ off ∨ off % 4 ≠ 0 →
      Completes (.pcieConfigRequest τ wr off v) s (fun t =>
        t.resp.status = 0x10001 ∧ t.cnt bPCIE PCIE_CNT_UR = satInc (s.cnt bPCIE PCIE_CNT_UR) 1))
  ∧
  (∀ (s : State) (τ : Nat) (wr : Bool) (off v : Nat),
      s.pcieLive = true →
      s.rd bPCIE PCIE_STAT_LINK_UP = 1 →
      s.rd bPCIE COM_FENCE_FENCE = 1 →
      Completes (.pcieConfigRequest τ wr off v) s (fun t =>
        t.resp.status = 0x10002 ∧ t.cnt bPCIE PCIE_CNT_CA = satInc (s.cnt bPCIE PCIE_CNT_CA) 1 ∧ t.pcie = s.pcie))
  ∧
  (∀ (s : State) (τ : Nat) (wr : Bool) (off len v : Nat),
      s.pcieLive = true →
      s.rd bPCIE PCIE_STAT_LINK_UP = 1 →
      s.rd bPCIE COM_FENCE_FENCE ≠ 1 →
      len ≠ 4 ∨ off % 4 ≠ 0 ∨ 0x10000000 ≤ off →
      Completes (.pcieBar0Request τ wr off len v) s (fun t =>
        t.resp.status = 0x10001 ∧ t.cnt bPCIE PCIE_CNT_UR = satInc (s.cnt bPCIE PCIE_CNT_UR) 1))
  ∧
  (∀ (s : State) (τ : Nat) (wr : Bool) (off v : Nat),
      s.pcieLive = true →
      s.rd bPCIE PCIE_STAT_LINK_UP = 1 →
      s.rd bPCIE COM_FENCE_FENCE ≠ 1 →
      off % 4 = 0 →
      off < 0x10000000 →
      s.rd bRST RST_BOOT_STATUS_STAGE ≠ 6 →
      (if wr then (s.at τ).busWrite 5 (0x3000000000 + off) v else (s.at τ).busRead 5 (0x3000000000 + off)).resp.status ≠ 0x0201 →
      exec (.pcieBar0Request τ wr off 4 v) s = .next (if wr then (s.at τ).busWrite 5 (0x3000000000 + off) v else (s.at τ).busRead 5 (0x3000000000 + off)))
  ∧
  (∀ (s : State) (τ : Nat) (off len : Nat) (data : List Nat),
      s.pcieLive = true →
      s.rd bPCIE PCIE_STAT_LINK_UP = 1 →
      s.rd bPCIE COM_FENCE_FENCE ≠ 1 →
      0 < data.length →
      off + data.length ≤ dramEnd →
      ((s.at τ).hwWrite 5 off (data.map (· % 256))).2 = 0 →
      exec (.pcieBar2Request τ true off len data false) s = .next (((s.at τ).hwWrite 5 off (data.map (· % 256))).1.answer 0 []))
  ∧
  (∀ (s : State) (τ : Nat) (off len : Nat) (data : List Nat) (poisoned : Bool),
      s.pcieLive = true →
      s.rd bPCIE PCIE_STAT_LINK_UP = 1 →
      s.rd bPCIE COM_FENCE_FENCE ≠ 1 →
      0 < len →
      off + len ≤ dramEnd →
      ((s.at τ).hwRead 5 off len).2.1 ≠ 0x0201 →
      Completes (.pcieBar2Request τ false off len data poisoned) s (fun t =>
        t.resp.data = ((s.at τ).hwRead 5 off len).2.2 ∧ t.resp.status = 0 ∧ t.resp.poisoned = (((s.at τ).hwRead 5 off len).2.1 == 0x0304)))
  ∧
  (∀ (s : State) (τ : Nat) (wr : Bool) (off len : Nat) (data : List Nat) (poisoned : Bool),
      s.pcieLive = true →
      s.rd bPCIE PCIE_STAT_LINK_UP = 1 →
      s.rd bPCIE COM_FENCE_FENCE ≠ 1 →
      dramEnd < off →
      Completes (.pcieBar2Request τ wr off len data poisoned) s (fun t =>
        t.resp.status = 0x10001 ∧ t.cnt bPCIE PCIE_CNT_UR = satInc (s.cnt bPCIE PCIE_CNT_UR) 1))
  ∧
  (∀ (s : State) (τ : Nat) (wr : Bool) (off v : Nat),
      s.pcieLive = true →
      s.rd bPCIE PCIE_STAT_LINK_UP = 1 →
      s.rd bPCIE COM_FENCE_FENCE ≠ 1 →
      off % 4 = 0 →
      off < 512 →
      Completes (.pcieBar4Request τ wr off v) s (fun t =>
        if wr then Store.get 0 t.pcie.msix (off / 4) = v % 4294967296 + 1 ∧ t.resp.status = 0 else t.resp.data = [if Store.get 0 s.pcie.msix (off / 4) = 0 then (if off / 4 % 4 = 3 then 1 else 0) else Store.get 0 s.pcie.msix (off / 4) - 1]))
  ∧
  (∀ (s : State) (τ : Nat) (wr : Bool) (off v : Nat),
      s.pcieLive = true →
      s.rd bPCIE PCIE_STAT_LINK_UP = 1 →
      s.rd bPCIE COM_FENCE_FENCE ≠ 1 →
      off % 4 ≠ 0 ∨ 0x10000 ≤ off →
      Completes (.pcieBar4Request τ wr off v) s (fun t =>
        t.resp.status = 0x10001 ∧ t.cnt bPCIE PCIE_CNT_UR = satInc (s.cnt bPCIE PCIE_CNT_UR) 1))

/-- A head write starts an idle or OFF channel at the new address, any other is refused; a kick goes on at the stored link of the last descriptor, or stays idle on 0. A fetched descriptor that keeps the rules becomes the next segment and is counted, one that breaks them gets PARAM_INVALID, a failed fetch halts the channel. A running segment within its budget is copied byte for byte; a finished transfer completes; a failing host access halts the channel and latches the first failure. Clearing HALTED lets the channel go on or wait; a new window gives every channel its share again. -/
def Obligations.DmaFetchesCopiesAndCompletes : Prop :=
  (∀ (s : State) (τ : Nat) (i n v : Nat),
      n < 32 →
      s.regAllowed i true (bDMA n) 0x108 = true →
      s.domOn (bDMA n) = true →
      s.dmaRefuses i n = false →
      s.fsm (bDMA n) = 0 ∨ (s.fsm (bDMA n) = 2 ∧ s.rd (bDMA n) COM_FENCE_FENCE = 0 ∧ s.rd (bDMA n) DMA_STAT_IDLE = 1) →
      Completes (.dmaHeadLo τ i n v) s (fun t =>
        t.dmaCur n = t.rd64 (bDMA n) DMA_HEAD_LO DMA_HEAD_HI ∧ t.rd (bDMA n) DMA_HEAD_LO = v % 4294967296 ∧ (t.dmaX n).armed = true ∧ t.rd (bDMA n) DMA_STAT_IDLE = 0))
  ∧
  (∀ (s : State) (τ : Nat) (i n v : Nat),
      n < 32 →
      s.regAllowed i true (bDMA n) 0x108 = true →
      s.domOn (bDMA n) = true →
      s.dmaRefuses i n = true ∨ (s.fsm (bDMA n) = 2 ∧ s.rd (bDMA n) DMA_STAT_IDLE = 0) →
      exec (.dmaHeadLo τ i n v) s = .next ((s.at τ).wr (bDMA n) DMA_STAT_REFUSED 1))
  ∧
  (∀ (s : State) (τ : Nat) (i n v a : Nat) (b : List Nat),
      n < 32 →
      s.dmaRuns n = true →
      s.regAllowed i true (bDMA n) 0x110 = true →
      s.domOn (bDMA n) = true →
      bit v 0 = 1 →
      s.dmaRefuses i n = false →
      s.rd (bDMA n) DMA_STAT_IDLE = 1 →
      (s.dmaX n).last = some a →
      ((s.at τ).hwRead (0x100 + n) (a + 0x18) 8).2 = (0, b) →
      leNat b ≠ 0 →
      Completes (.dmaKick τ i n v) s (fun t =>
        t.dmaCur n = leNat b ∧ (t.dmaX n).armed = true ∧ t.rd (bDMA n) DMA_STAT_IDLE = 0))
  ∧
  (∀ (s : State) (τ : Nat) (i n v a : Nat) (b : List Nat),
      n < 32 →
      s.dmaRuns n = true →
      s.regAllowed i true (bDMA n) 0x110 = true →
      s.domOn (bDMA n) = true →
      bit v 0 = 1 →
      s.dmaRefuses i n = false →
      s.rd (bDMA n) DMA_STAT_IDLE = 1 →
      (s.dmaX n).last = some a →
      ((s.at τ).hwRead (0x100 + n) (a + 0x18) 8).2 = (0, b) →
      leNat b = 0 →
      Completes (.dmaKick τ i n v) s (fun t =>
        t.rd (bDMA n) DMA_STAT_IDLE = 1 ∧ t.dmaCur n = s.dmaCur n ∧ t.dmaX n = s.dmaX n))
  ∧
  (∀ (s : State) (τ : Nat) (n : Nat) (b : List Nat),
      n < 29 ∨ n = 30 →
      s.dmaFetches n = true →
      ((s.at τ).hwRead (0x100 + n) (s.dmaCur n) 64).2 = (0, b) →
      (s.dmaX n).segs.length < 64 →
      (s.dmaX n).failed = false →
      segPasses n (segOf (s.dmaCur n) b) b = true →
      Completes (.descriptorFetch τ n) s (fun t =>
        (t.dmaX n).segs = (s.dmaX n).segs ++ [segOf (s.dmaCur n) b] ∧ t.cnt (bDMA n) DMA_CNT_SEGMENTS = satInc (s.cnt (bDMA n) DMA_CNT_SEGMENTS) 1))
  ∧
  (∀ (s : State) (τ : Nat) (n : Nat) (b : List Nat),
      n < 29 ∨ n = 30 →
      s.dmaFetches n = true →
      ((s.at τ).hwRead (0x100 + n) (s.dmaCur n) 64).2 = (0, b) →
      (s.dmaX n).failed = false →
      segPasses n (segOf (s.dmaCur n) b) b = false ∨ 64 ≤ (s.dmaX n).segs.length →
      Completes (.descriptorFetch τ n) s (fun t =>
        t.cnt (bDMA n) DMA_CNT_PARAM = satInc (s.cnt (bDMA n) DMA_CNT_PARAM) 1 ∧ (t.dmaX n).segs.length = (s.dmaX n).segs.length + 1 ∧ (t.dmaX n).running = none))
  ∧
  (∀ (s : State) (τ : Nat) (n st : Nat),
      n < 32 →
      s.dmaFetches n = true →
      s.rd (bDMA n) DMA_STAT_HALTED = 0 →
      ((s.at τ).hwRead (0x100 + n) (s.dmaCur n) 64).2.1 = st →
      st ≠ 0 →
      Completes (.descriptorFetch τ n) s (fun t =>
        t.rd (bDMA n) DMA_STAT_HALTED = 1 ∧ t.rd (bDMA n) DMA_ERR_INFO_STATUS = st ∧ t.rd (bDMA n) DMA_ERR_INFO_DESC = 1 ∧ (t.dmaX n).fetch = some ((s.dmaX n).segs.length, st)))
  ∧
  (∀ (s : State) (τ : Nat) (n : Nat) (data : List Nat) (poison : List Nat) (g : DmaSeg),
      n < 29 ∨ n = 30 →
      s.dmaRuns n = true →
      s.rd (bDMA n) DMA_STAT_HALTED ≠ 1 →
      (s.dmaX n).record = none →
      (s.dmaX n).left ≤ s.dmaRoom n →
      (s.dmaX n).running = some g →
      exec (.segmentDone τ n data poison) s = .next (((s.at τ).dmaSpend n (s.dmaX n).left).dmaCopy n g data poison))
  ∧
  (∀ (s : State) (τ : Nat) (n : Nat),
      s.dmaRuns n = true →
      (s.dmaX n).closed = true →
      (s.dmaX n).running = none →
      (s.dmaX n).record = none →
      exec (.transferComplete τ n) s = .next ((s.at τ).dmaComplete n))
  ∧
  (∀ (s : State) (τ : Nat) (n : Nat) (wr : Bool) (a st : Nat) (data : List Nat) (g : DmaSeg),
      s.dmaRuns n = true →
      s.rd (bDMA n) DMA_STAT_HALTED = 0 →
      (s.dmaX n).record = none →
      (s.dmaX n).running = some g →
      st = 0x0201 ∨ st = 0x0202 →
      if wr then g.dstHost = true ∧ dmaTx n = false else g.srcHost = true ∧ dmaRx n = false →
      a < 2 ^ 64 →
      Completes (.dmaBusError τ n wr a st data) s (fun t =>
        t.rd (bDMA n) DMA_STAT_HALTED = 1 ∧ t.rd (bDMA n) DMA_ERR_INFO_STATUS = st ∧ t.rd (bDMA n) DMA_ERR_INFO_WRITE = (if wr then 1 else 0) ∧ t.rd64 (bDMA n) DMA_ERR_ADDR_LO DMA_ERR_ADDR_HI = a - a % 4 ∧ t.cnt (bDMA n) DMA_CNT_BUS_ERR = satInc (s.cnt (bDMA n) DMA_CNT_BUS_ERR) 1))
  ∧
  (∀ (s : State) (τ : Nat) (i n : Nat),
      n < 32 →
      s.regAllowed i true (bDMA n) 0x104 = true →
      s.domOn (bDMA n) = true →
      Completes (.haltedClear τ i n) s (fun t =>
        t.rd (bDMA n) DMA_STAT_HALTED = 0 ∧ (s.fsm (bDMA n) = 2 → (s.dmaX n).armed = false → (s.dmaX n).segs = [] → (s.dmaX n).record = none → (s.dmaX n).closed = false → t.rd (bDMA n) DMA_STAT_IDLE = 1)))
  ∧
  (∀ (s : State) (τ : Nat),
      s.dma.win + 1024 ≤ (s.at τ).now →
      Completes (.dmaBudgetWindow τ) s (fun t =>
        t.dma.total = 0 ∧ t.dma.win = t.now ∧ (∀ n, n < 32 → (t.dmaX n).used = 0)))
  ∧
  (∀ (s : State) (τ : Nat),
      (s.at τ).now < s.dma.win + 1024 →
      exec (.dmaBudgetWindow τ) s = .next (s.at τ))

/-- A reset request frame to this module on a joined port resets the module, with the cause LNK_REQ, when LNK_REQ_EN is 1: registers outside the reset controller read their reset values, DRAM and scratchpads are lost, flash and retention SRAM stay. When it is 0 the module takes the frame (its acknowledgement and sequence number) and does nothing else. -/
def Obligations.LinkResetRequestsNeedTheEnable : Prop :=
  (∀ (s : State) (τ : Nat) (a src : Nat),
      s.portUp a = true →
      s.rd bRST RST_SRC_EN_LNK_REQ_EN = 1 →
      Completes (.resetReq τ a src) s (fun t =>
        ResetTaken [RST_CAUSE_LNK_REQ] false s t))
  ∧
  (∀ (s : State) (τ : Nat) (a src : Nat),
      s.portUp a = true →
      s.rd bRST RST_SRC_EN_LNK_REQ_EN ≠ 1 →
      exec (.resetReq τ a src) s = .next ((s.at τ).rxFrame a { type := 0x50, src := src, dest := s.modulePos }))

/-- From every state, whatever command is in front: if a step answers a next state, memory, running counters, poison marks and latent errors are in canonical form after it when they were before, the queue is the rest of the queue, and the time is not earlier. -/
def Obligations.StepKeepsStoresQueueAndTime : Prop :=
  ∀ s t : State, step s = .next t →
    (s.Canonical → t.Canonical) ∧ t.pending = s.pending.tail ∧ s.now ≤ t.now

/-- From every state in which each tile's scalar and address registers are below 2^64, a step that answers a next state leads to such a state: every start of a tile, every instruction and every rerun writes 64-bit values. -/
def Obligations.StepKeepsTilesInRange : Prop :=
  ∀ s t : State, s.TilesInRange → step s = .next t → t.TilesInRange

/-- State.reset has canonical stores, tiles in range and an empty queue; PWR, RST, CLK, TIM and HLT read ON, MEM0 to MEM4 STARTING and every other function OFF; RST_CAUSE holds POR only; every bucket b of the cache maps to slice b mod 4; no job is active. -/
def Obligations.ResetIsAsTheSpecSays : Prop :=
  State.reset.Canonical ∧ State.reset.TilesInRange ∧ State.reset.pending = [] ∧ State.reset.jobRun = false ∧
  (∀ b ∈ [bPWR, bRST, bCLK, bTIM, bHLT], State.reset.fsm b = 2) ∧
  (∀ b ∈ [8, 9, 10, 11, 12], State.reset.fsm b = 1) ∧
  (∀ b ∈ List.range 256, ¬ b ∈ [bPWR, bRST, bCLK, bTIM, bHLT, 8, 9, 10, 11, 12] → State.reset.fsm b = 0) ∧
  State.reset.rd bRST RST_CAUSE_POR = 1 ∧
  (∀ f ∈ [RST_CAUSE_BOR, RST_CAUSE_PIN, RST_CAUSE_THERM, RST_CAUSE_SW_FULL, RST_CAUSE_CRIT_ERR, RST_CAUSE_LNK_REQ, RST_CAUSE_HLT_WDT], State.reset.rd bRST f = 0) ∧
  State.reset.rd bRST RST_SRC_EN_LNK_REQ_EN = 1 ∧
  (∀ k ∈ List.range 256, State.reset.sliceOf k = k % 4)
end

