-- ==== Sys2Proof/Laws/Stores.lean ====
section
/-!
SUPPORT. What the stores do: a read after a write, and the canonical form that every store operation keeps.
-/

namespace Sys2Proof.Machine

variable {α : Type} {d v : α} {l : Store α} {k j lo : Nat}

/-! ### Reads -/

@[simp] theorem Store.get_nil : Store.get d [] k = d := rfl

theorem Store.get_cons : Store.get d ((j, v) :: l) k = if j = k then v else Store.get d l k := rfl

@[simp] theorem Store.get_erase_same : Store.get d (Store.erase l k) k = d := by
  induction l with
  | nil => rfl
  | cons e r ih =>
    simp only [Store.erase, List.filter_cons] at ih ⊢
    by_cases h : e.1 = k
    · simpa [h] using ih
    · simpa [h, Store.get] using ih

theorem Store.get_erase_ne (h : j ≠ k) : Store.get d (Store.erase l j) k = Store.get d l k := by
  induction l with
  | nil => rfl
  | cons e r ih =>
    simp only [Store.erase, List.filter_cons] at ih ⊢
    by_cases h1 : e.1 = j
    · have h2 : e.1 ≠ k := fun x => h (h1.symm.trans x)
      simp [h1, Store.get, h, ih]
    · simp only [bne_iff_ne, ne_eq, h1, not_false_eq_true, ite_true, Store.get]
      split <;> simp_all

theorem Store.get_ins_same (h : Store.get d l k = d) (hl : ∀ e ∈ l, e.1 ≠ k) : Store.get d (Store.ins k v l) k = v := by
  induction l with
  | nil => simp [Store.ins, Store.get]
  | cons e r ih =>
    simp only [List.mem_cons, forall_eq_or_imp] at hl
    simp only [Store.ins]
    split
    · simp [Store.get]
    · have h0 := hl.1
      simp only [Store.get, h0, ite_false] at h ⊢
      exact ih h hl.2

theorem Store.get_ins_ne (h : j ≠ k) : Store.get d (Store.ins j v l) k = Store.get d l k := by
  induction l with
  | nil => simp [Store.ins, Store.get, h]
  | cons e r ih =>
    simp only [Store.ins]
    split
    · simp [Store.get, h]
    · simp [Store.get, ih]

theorem Store.mem_erase {e : Nat × α} : e ∈ Store.erase l k ↔ e ∈ l ∧ e.1 ≠ k := by
  simp [Store.erase]

/-- A key that a filter drops reads the default. -/
theorem Store.get_filter_drop {p : Nat → Bool} (h : p k = false) : Store.get d (l.filter (fun e => p e.1)) k = d := by
  induction l with
  | nil => rfl
  | cons e r ih =>
    simp only [List.filter_cons]
    split
    · next h1 =>
      have : e.1 ≠ k := fun x => by simp [x, h] at h1
      simpa [Store.get, this] using ih
    · exact ih

/-- A key that a filter keeps reads as before. -/
theorem Store.get_filter_keep {p : Nat → Bool} (h : p k = true) : Store.get d (l.filter (fun e => p e.1)) k = Store.get d l k := by
  induction l with
  | nil => rfl
  | cons e r ih =>
    simp only [List.filter_cons]
    split
    · simp [Store.get, ih]
    · next h1 =>
      have : e.1 ≠ k := fun x => by simp [x, h] at h1
      simpa [Store.get, this] using ih

/-- What a read gives is the default or a listed value. -/
theorem Store.get_mem : Store.get d l k = d ∨ (k, Store.get d l k) ∈ l := by
  induction l with
  | nil => exact .inl rfl
  | cons e r ih =>
    obtain ⟨j, w⟩ := e
    simp only [Store.get]
    split
    · subst_vars; exact .inr (by simp)
    · rcases ih with h | h
      · exact .inl h
      · exact .inr (List.mem_cons_of_mem _ h)

variable [DecidableEq α]

/-- A read of the key written gives the value written. -/
@[simp] theorem Store.get_put_same : Store.get d (Store.put d l k v) k = v := by
  unfold Store.put
  split
  · simp_all
  · exact Store.get_ins_same Store.get_erase_same (fun e he => (Store.mem_erase.1 he).2)

/-- A write leaves every other key alone. -/
@[simp] theorem Store.get_put_ne {d' : α} (h : j ≠ k) : Store.get d (Store.put d' l j v) k = Store.get d l k := by
  unfold Store.put
  split
  · exact Store.get_erase_ne h
  · rw [Store.get_ins_ne h, Store.get_erase_ne h]

theorem Store.get_put : Store.get d (Store.put d l j v) k = if j = k then v else Store.get d l k := by
  split
  · subst_vars; exact Store.get_put_same
  · exact Store.get_put_ne ‹_›

/-- What a store lists after a write was listed before, or is the pair written. -/
theorem Store.mem_put {e : Nat × α} (h : e ∈ Store.put d l k v) : e ∈ l ∨ e = (k, v) := by
  have ins : ∀ r : Store α, e ∈ Store.ins k v r → e ∈ r ∨ e = (k, v) := by
    intro r
    induction r with
    | nil => simp [Store.ins]
    | cons f r ih =>
      simp only [Store.ins]
      split
      · simp only [List.mem_cons]; tauto
      · simp only [List.mem_cons]
        rintro (h | h)
        · exact .inl (.inl h)
        · rcases ih h with h | h
          · exact .inl (.inr h)
          · exact .inr h
  unfold Store.put at h
  split at h
  · exact .inl (Store.mem_erase.1 h).1
  · rcases ins _ h with h | h
    · exact .inl (Store.mem_erase.1 h).1
    · exact .inr h

/-! ### The canonical form -/

theorem Store.wfFrom_mono (h : Store.wfFrom d lo l = true) (hj : j ≤ lo) : Store.wfFrom d j l = true := by
  cases l with
  | nil => rfl
  | cons e r =>
    obtain ⟨k, v⟩ := e
    simp only [Store.wfFrom, Bool.and_eq_true, decide_eq_true_eq] at h ⊢
    exact ⟨⟨by omega, h.1.2⟩, h.2⟩

theorem Store.wfFrom_filter (p : Nat × α → Bool) (h : Store.wfFrom d lo l = true) : Store.wfFrom d lo (l.filter p) = true := by
  induction l generalizing lo with
  | nil => rfl
  | cons e r ih =>
    obtain ⟨k, v⟩ := e
    simp only [Store.wfFrom, Bool.and_eq_true, decide_eq_true_eq] at h
    simp only [List.filter_cons]
    split
    · simp only [Store.wfFrom, Bool.and_eq_true, decide_eq_true_eq]
      exact ⟨h.1, ih h.2⟩
    · exact Store.wfFrom_mono (ih h.2) (by omega)

theorem Store.wfFrom_ins (h : Store.wfFrom d lo l = true) (hk : lo ≤ k) (hv : v ≠ d) (hl : ∀ e ∈ l, e.1 ≠ k) :
    Store.wfFrom d lo (Store.ins k v l) = true := by
  induction l generalizing lo with
  | nil => simp [Store.ins, Store.wfFrom, hk, hv]
  | cons e r ih =>
    obtain ⟨j, w⟩ := e
    simp only [Store.wfFrom, Bool.and_eq_true, decide_eq_true_eq] at h
    simp only [List.mem_cons, forall_eq_or_imp] at hl
    simp only [Store.ins]
    split
    · next hkj =>
      simp only [Store.wfFrom, Bool.and_eq_true, decide_eq_true_eq]
      exact ⟨⟨hk, hv⟩, ⟨by omega, h.1.2⟩, h.2⟩
    · next hkj =>
      simp only [Store.wfFrom, Bool.and_eq_true, decide_eq_true_eq]
      exact ⟨h.1, ih h.2 (by have := hl.1; omega) hl.2⟩

/-- A write keeps the canonical form. -/
theorem Store.wf_put (h : Store.wf d l = true) : Store.wf d (Store.put d l k v) = true := by
  unfold Store.put
  split
  · exact Store.wfFrom_filter _ h
  · exact Store.wfFrom_ins (Store.wfFrom_filter _ h) (Nat.zero_le _) ‹_› (fun e he => (Store.mem_erase.1 he).2)

/-- A filter keeps the canonical form. -/
theorem Store.wf_filter (p : Nat × α → Bool) (h : Store.wf d l = true) : Store.wf d (l.filter p) = true :=
  Store.wfFrom_filter p h

/-- A fold of writes keeps the canonical form. -/
theorem Store.wf_foldl {β : Type} (f : Store α → β → Store α) (hf : ∀ m b, Store.wf d m = true → Store.wf d (f m b) = true)
    (bs : List β) (h : Store.wf d l = true) : Store.wf d (bs.foldl f l) = true := by
  induction bs generalizing l with
  | nil => exact h
  | cons b r ih => exact ih (hf _ _ h)

/-! ### Bytes of memory (R171) -/

/-- A byte read after one is written: the byte written, modulo 256, at its address and the old byte elsewhere. -/
theorem memPut_get {m : List Host.Cell} {a x n : Nat} :
    Store.get memDefault (memPut m a n) x = if a = x then BitVec.ofNat 8 n else Store.get memDefault m x := Store.get_put

/-- Writing one byte keeps the memory canonical. -/
theorem memPut_wf {m : List Host.Cell} {a n : Nat} (h : Memory.wf m = true) : Memory.wf (memPut m a n) = true := Store.wf_put h

/-- The memory of reset state is canonical. -/
theorem reset_memory_wf : Memory.wf State.reset.mem = true := rfl

end Sys2Proof.Machine
end

