-- ==== Sys2Proof/Laws/State.lean ====
section
/-!
SUPPORT. Each update of the state beside each field: an update changes its field and leaves every other one.
-/

namespace Sys2Proof.Machine

/-! ### `State.setCam` -/

@[simp] theorem State.setCam_now (s : State) (n : Nat) (x : CamPort) : (s.setCam n x).now = s.now := rfl
@[simp] theorem State.setCam_pending (s : State) (n : Nat) (x : CamPort) : (s.setCam n x).pending = s.pending := rfl
@[simp] theorem State.setCam_regs (s : State) (n : Nat) (x : CamPort) : (s.setCam n x).regs = s.regs := rfl
@[simp] theorem State.setCam_active (s : State) (n : Nat) (x : CamPort) : (s.setCam n x).active = s.active := rfl
@[simp] theorem State.setCam_live (s : State) (n : Nat) (x : CamPort) : (s.setCam n x).live = s.live := rfl
@[simp] theorem State.setCam_mem (s : State) (n : Nat) (x : CamPort) : (s.setCam n x).mem = s.mem := rfl
@[simp] theorem State.setCam_poison (s : State) (n : Nat) (x : CamPort) : (s.setCam n x).poison = s.poison := rfl
@[simp] theorem State.setCam_errs (s : State) (n : Nat) (x : CamPort) : (s.setCam n x).errs = s.errs := rfl
@[simp] theorem State.setCam_free (s : State) (n : Nat) (x : CamPort) : (s.setCam n x).free = s.free := rfl
@[simp] theorem State.setCam_resp (s : State) (n : Nat) (x : CamPort) : (s.setCam n x).resp = s.resp := rfl
@[simp] theorem State.setCam_evqSeq (s : State) (n : Nat) (x : CamPort) : (s.setCam n x).evqSeq = s.evqSeq := rfl
@[simp] theorem State.setCam_tb (s : State) (n : Nat) (x : CamPort) : (s.setCam n x).tb = s.tb := rfl
@[simp] theorem State.setCam_memu (s : State) (n : Nat) (x : CamPort) : (s.setCam n x).memu = s.memu := rfl
@[simp] theorem State.setCam_stp (s : State) (n : Nat) (x : CamPort) : (s.setCam n x).stp = s.stp := rfl
@[simp] theorem State.setCam_follow (s : State) (n : Nat) (x : CamPort) : (s.setCam n x).follow = s.follow := rfl
@[simp] theorem State.setCam_ejt (s : State) (n : Nat) (x : CamPort) : (s.setCam n x).ejt = s.ejt := rfl
@[simp] theorem State.setCam_field (s : State) (n : Nat) (x : CamPort) : (s.setCam n x).field = s.field := rfl
@[simp] theorem State.setCam_merge (s : State) (n : Nat) (x : CamPort) : (s.setCam n x).merge = s.merge := rfl
@[simp] theorem State.setCam_hlt (s : State) (n : Nat) (x : CamPort) : (s.setCam n x).hlt = s.hlt := rfl
@[simp] theorem State.setCam_opt (s : State) (n : Nat) (x : CamPort) : (s.setCam n x).opt = s.opt := rfl
@[simp] theorem State.setCam_kvc (s : State) (n : Nat) (x : CamPort) : (s.setCam n x).kvc = s.kvc := rfl
@[simp] theorem State.setCam_cam (s : State) (n : Nat) (x : CamPort) : (s.setCam n x).cam = Store.put {} s.cam n x := rfl
@[simp] theorem State.setCam_tan (s : State) (n : Nat) (x : CamPort) : (s.setCam n x).tan = s.tan := rfl
@[simp] theorem State.setCam_clm (s : State) (n : Nat) (x : CamPort) : (s.setCam n x).clm = s.clm := rfl
@[simp] theorem State.setCam_job (s : State) (n : Nat) (x : CamPort) : (s.setCam n x).job = s.job := rfl
@[simp] theorem State.setCam_jobNext (s : State) (n : Nat) (x : CamPort) : (s.setCam n x).jobNext = s.jobNext := rfl
@[simp] theorem State.setCam_out (s : State) (n : Nat) (x : CamPort) : (s.setCam n x).out = s.out := rfl
@[simp] theorem State.setCam_sys (s : State) (n : Nat) (x : CamPort) : (s.setCam n x).sys = s.sys := rfl
@[simp] theorem State.setCam_pwr (s : State) (n : Nat) (x : CamPort) : (s.setCam n x).pwr = s.pwr := rfl
@[simp] theorem State.setCam_clu (s : State) (n : Nat) (x : CamPort) : (s.setCam n x).clu = s.clu := rfl
@[simp] theorem State.setCam_sch (s : State) (n : Nat) (x : CamPort) : (s.setCam n x).sch = s.sch := rfl
@[simp] theorem State.setCam_lnk (s : State) (n : Nat) (x : CamPort) : (s.setCam n x).lnk = s.lnk := rfl
@[simp] theorem State.setCam_dma (s : State) (n : Nat) (x : CamPort) : (s.setCam n x).dma = s.dma := rfl
@[simp] theorem State.setCam_sds (s : State) (n : Nat) (x : CamPort) : (s.setCam n x).sds = s.sds := rfl
@[simp] theorem State.setCam_eth (s : State) (n : Nat) (x : CamPort) : (s.setCam n x).eth = s.eth := rfl
@[simp] theorem State.setCam_pcie (s : State) (n : Nat) (x : CamPort) : (s.setCam n x).pcie = s.pcie := rfl

/-! ### `State.setClm` -/

@[simp] theorem State.setClm_now (s : State) (x : Clm) : (s.setClm x).now = s.now := rfl
@[simp] theorem State.setClm_pending (s : State) (x : Clm) : (s.setClm x).pending = s.pending := rfl
@[simp] theorem State.setClm_regs (s : State) (x : Clm) : (s.setClm x).regs = s.regs := rfl
@[simp] theorem State.setClm_active (s : State) (x : Clm) : (s.setClm x).active = s.active := rfl
@[simp] theorem State.setClm_live (s : State) (x : Clm) : (s.setClm x).live = s.live := rfl
@[simp] theorem State.setClm_mem (s : State) (x : Clm) : (s.setClm x).mem = s.mem := rfl
@[simp] theorem State.setClm_poison (s : State) (x : Clm) : (s.setClm x).poison = s.poison := rfl
@[simp] theorem State.setClm_errs (s : State) (x : Clm) : (s.setClm x).errs = s.errs := rfl
@[simp] theorem State.setClm_free (s : State) (x : Clm) : (s.setClm x).free = s.free := rfl
@[simp] theorem State.setClm_resp (s : State) (x : Clm) : (s.setClm x).resp = s.resp := rfl
@[simp] theorem State.setClm_evqSeq (s : State) (x : Clm) : (s.setClm x).evqSeq = s.evqSeq := rfl
@[simp] theorem State.setClm_tb (s : State) (x : Clm) : (s.setClm x).tb = s.tb := rfl
@[simp] theorem State.setClm_memu (s : State) (x : Clm) : (s.setClm x).memu = s.memu := rfl
@[simp] theorem State.setClm_stp (s : State) (x : Clm) : (s.setClm x).stp = s.stp := rfl
@[simp] theorem State.setClm_follow (s : State) (x : Clm) : (s.setClm x).follow = s.follow := rfl
@[simp] theorem State.setClm_ejt (s : State) (x : Clm) : (s.setClm x).ejt = s.ejt := rfl
@[simp] theorem State.setClm_field (s : State) (x : Clm) : (s.setClm x).field = s.field := rfl
@[simp] theorem State.setClm_merge (s : State) (x : Clm) : (s.setClm x).merge = s.merge := rfl
@[simp] theorem State.setClm_hlt (s : State) (x : Clm) : (s.setClm x).hlt = s.hlt := rfl
@[simp] theorem State.setClm_opt (s : State) (x : Clm) : (s.setClm x).opt = s.opt := rfl
@[simp] theorem State.setClm_kvc (s : State) (x : Clm) : (s.setClm x).kvc = s.kvc := rfl
@[simp] theorem State.setClm_cam (s : State) (x : Clm) : (s.setClm x).cam = s.cam := rfl
@[simp] theorem State.setClm_tan (s : State) (x : Clm) : (s.setClm x).tan = s.tan := rfl
@[simp] theorem State.setClm_clm (s : State) (x : Clm) : (s.setClm x).clm = x := rfl
@[simp] theorem State.setClm_job (s : State) (x : Clm) : (s.setClm x).job = s.job := rfl
@[simp] theorem State.setClm_jobNext (s : State) (x : Clm) : (s.setClm x).jobNext = s.jobNext := rfl
@[simp] theorem State.setClm_out (s : State) (x : Clm) : (s.setClm x).out = s.out := rfl
@[simp] theorem State.setClm_sys (s : State) (x : Clm) : (s.setClm x).sys = s.sys := rfl
@[simp] theorem State.setClm_pwr (s : State) (x : Clm) : (s.setClm x).pwr = s.pwr := rfl
@[simp] theorem State.setClm_clu (s : State) (x : Clm) : (s.setClm x).clu = s.clu := rfl
@[simp] theorem State.setClm_sch (s : State) (x : Clm) : (s.setClm x).sch = s.sch := rfl
@[simp] theorem State.setClm_lnk (s : State) (x : Clm) : (s.setClm x).lnk = s.lnk := rfl
@[simp] theorem State.setClm_dma (s : State) (x : Clm) : (s.setClm x).dma = s.dma := rfl
@[simp] theorem State.setClm_sds (s : State) (x : Clm) : (s.setClm x).sds = s.sds := rfl
@[simp] theorem State.setClm_eth (s : State) (x : Clm) : (s.setClm x).eth = s.eth := rfl
@[simp] theorem State.setClm_pcie (s : State) (x : Clm) : (s.setClm x).pcie = s.pcie := rfl

/-! ### `State.setDma` -/

@[simp] theorem State.setDma_now (s : State) (n : Nat) (x : Dma) : (s.setDma n x).now = s.now := rfl
@[simp] theorem State.setDma_pending (s : State) (n : Nat) (x : Dma) : (s.setDma n x).pending = s.pending := rfl
@[simp] theorem State.setDma_regs (s : State) (n : Nat) (x : Dma) : (s.setDma n x).regs = s.regs := rfl
@[simp] theorem State.setDma_active (s : State) (n : Nat) (x : Dma) : (s.setDma n x).active = s.active := rfl
@[simp] theorem State.setDma_live (s : State) (n : Nat) (x : Dma) : (s.setDma n x).live = s.live := rfl
@[simp] theorem State.setDma_mem (s : State) (n : Nat) (x : Dma) : (s.setDma n x).mem = s.mem := rfl
@[simp] theorem State.setDma_poison (s : State) (n : Nat) (x : Dma) : (s.setDma n x).poison = s.poison := rfl
@[simp] theorem State.setDma_errs (s : State) (n : Nat) (x : Dma) : (s.setDma n x).errs = s.errs := rfl
@[simp] theorem State.setDma_free (s : State) (n : Nat) (x : Dma) : (s.setDma n x).free = s.free := rfl
@[simp] theorem State.setDma_resp (s : State) (n : Nat) (x : Dma) : (s.setDma n x).resp = s.resp := rfl
@[simp] theorem State.setDma_evqSeq (s : State) (n : Nat) (x : Dma) : (s.setDma n x).evqSeq = s.evqSeq := rfl
@[simp] theorem State.setDma_tb (s : State) (n : Nat) (x : Dma) : (s.setDma n x).tb = s.tb := rfl
@[simp] theorem State.setDma_memu (s : State) (n : Nat) (x : Dma) : (s.setDma n x).memu = s.memu := rfl
@[simp] theorem State.setDma_stp (s : State) (n : Nat) (x : Dma) : (s.setDma n x).stp = s.stp := rfl
@[simp] theorem State.setDma_follow (s : State) (n : Nat) (x : Dma) : (s.setDma n x).follow = s.follow := rfl
@[simp] theorem State.setDma_ejt (s : State) (n : Nat) (x : Dma) : (s.setDma n x).ejt = s.ejt := rfl
@[simp] theorem State.setDma_field (s : State) (n : Nat) (x : Dma) : (s.setDma n x).field = s.field := rfl
@[simp] theorem State.setDma_merge (s : State) (n : Nat) (x : Dma) : (s.setDma n x).merge = s.merge := rfl
@[simp] theorem State.setDma_hlt (s : State) (n : Nat) (x : Dma) : (s.setDma n x).hlt = s.hlt := rfl
@[simp] theorem State.setDma_opt (s : State) (n : Nat) (x : Dma) : (s.setDma n x).opt = s.opt := rfl
@[simp] theorem State.setDma_kvc (s : State) (n : Nat) (x : Dma) : (s.setDma n x).kvc = s.kvc := rfl
@[simp] theorem State.setDma_cam (s : State) (n : Nat) (x : Dma) : (s.setDma n x).cam = s.cam := rfl
@[simp] theorem State.setDma_tan (s : State) (n : Nat) (x : Dma) : (s.setDma n x).tan = s.tan := rfl
@[simp] theorem State.setDma_clm (s : State) (n : Nat) (x : Dma) : (s.setDma n x).clm = s.clm := rfl
@[simp] theorem State.setDma_job (s : State) (n : Nat) (x : Dma) : (s.setDma n x).job = s.job := rfl
@[simp] theorem State.setDma_jobNext (s : State) (n : Nat) (x : Dma) : (s.setDma n x).jobNext = s.jobNext := rfl
@[simp] theorem State.setDma_out (s : State) (n : Nat) (x : Dma) : (s.setDma n x).out = s.out := rfl
@[simp] theorem State.setDma_sys (s : State) (n : Nat) (x : Dma) : (s.setDma n x).sys = s.sys := rfl
@[simp] theorem State.setDma_pwr (s : State) (n : Nat) (x : Dma) : (s.setDma n x).pwr = s.pwr := rfl
@[simp] theorem State.setDma_clu (s : State) (n : Nat) (x : Dma) : (s.setDma n x).clu = s.clu := rfl
@[simp] theorem State.setDma_sch (s : State) (n : Nat) (x : Dma) : (s.setDma n x).sch = s.sch := rfl
@[simp] theorem State.setDma_lnk (s : State) (n : Nat) (x : Dma) : (s.setDma n x).lnk = s.lnk := rfl
@[simp] theorem State.setDma_dma (s : State) (n : Nat) (x : Dma) : (s.setDma n x).dma = { s.dma with ch := Store.put {} s.dma.ch n x } := rfl
@[simp] theorem State.setDma_sds (s : State) (n : Nat) (x : Dma) : (s.setDma n x).sds = s.sds := rfl
@[simp] theorem State.setDma_eth (s : State) (n : Nat) (x : Dma) : (s.setDma n x).eth = s.eth := rfl
@[simp] theorem State.setDma_pcie (s : State) (n : Nat) (x : Dma) : (s.setDma n x).pcie = s.pcie := rfl

/-! ### `State.setEth` -/

@[simp] theorem State.setEth_now (s : State) (p : Nat) (x : EthPort) : (s.setEth p x).now = s.now := rfl
@[simp] theorem State.setEth_pending (s : State) (p : Nat) (x : EthPort) : (s.setEth p x).pending = s.pending := rfl
@[simp] theorem State.setEth_regs (s : State) (p : Nat) (x : EthPort) : (s.setEth p x).regs = s.regs := rfl
@[simp] theorem State.setEth_active (s : State) (p : Nat) (x : EthPort) : (s.setEth p x).active = s.active := rfl
@[simp] theorem State.setEth_live (s : State) (p : Nat) (x : EthPort) : (s.setEth p x).live = s.live := rfl
@[simp] theorem State.setEth_mem (s : State) (p : Nat) (x : EthPort) : (s.setEth p x).mem = s.mem := rfl
@[simp] theorem State.setEth_poison (s : State) (p : Nat) (x : EthPort) : (s.setEth p x).poison = s.poison := rfl
@[simp] theorem State.setEth_errs (s : State) (p : Nat) (x : EthPort) : (s.setEth p x).errs = s.errs := rfl
@[simp] theorem State.setEth_free (s : State) (p : Nat) (x : EthPort) : (s.setEth p x).free = s.free := rfl
@[simp] theorem State.setEth_resp (s : State) (p : Nat) (x : EthPort) : (s.setEth p x).resp = s.resp := rfl
@[simp] theorem State.setEth_evqSeq (s : State) (p : Nat) (x : EthPort) : (s.setEth p x).evqSeq = s.evqSeq := rfl
@[simp] theorem State.setEth_tb (s : State) (p : Nat) (x : EthPort) : (s.setEth p x).tb = s.tb := rfl
@[simp] theorem State.setEth_memu (s : State) (p : Nat) (x : EthPort) : (s.setEth p x).memu = s.memu := rfl
@[simp] theorem State.setEth_stp (s : State) (p : Nat) (x : EthPort) : (s.setEth p x).stp = s.stp := rfl
@[simp] theorem State.setEth_follow (s : State) (p : Nat) (x : EthPort) : (s.setEth p x).follow = s.follow := rfl
@[simp] theorem State.setEth_ejt (s : State) (p : Nat) (x : EthPort) : (s.setEth p x).ejt = s.ejt := rfl
@[simp] theorem State.setEth_field (s : State) (p : Nat) (x : EthPort) : (s.setEth p x).field = s.field := rfl
@[simp] theorem State.setEth_merge (s : State) (p : Nat) (x : EthPort) : (s.setEth p x).merge = s.merge := rfl
@[simp] theorem State.setEth_hlt (s : State) (p : Nat) (x : EthPort) : (s.setEth p x).hlt = s.hlt := rfl
@[simp] theorem State.setEth_opt (s : State) (p : Nat) (x : EthPort) : (s.setEth p x).opt = s.opt := rfl
@[simp] theorem State.setEth_kvc (s : State) (p : Nat) (x : EthPort) : (s.setEth p x).kvc = s.kvc := rfl
@[simp] theorem State.setEth_cam (s : State) (p : Nat) (x : EthPort) : (s.setEth p x).cam = s.cam := rfl
@[simp] theorem State.setEth_tan (s : State) (p : Nat) (x : EthPort) : (s.setEth p x).tan = s.tan := rfl
@[simp] theorem State.setEth_clm (s : State) (p : Nat) (x : EthPort) : (s.setEth p x).clm = s.clm := rfl
@[simp] theorem State.setEth_job (s : State) (p : Nat) (x : EthPort) : (s.setEth p x).job = s.job := rfl
@[simp] theorem State.setEth_jobNext (s : State) (p : Nat) (x : EthPort) : (s.setEth p x).jobNext = s.jobNext := rfl
@[simp] theorem State.setEth_out (s : State) (p : Nat) (x : EthPort) : (s.setEth p x).out = s.out := rfl
@[simp] theorem State.setEth_sys (s : State) (p : Nat) (x : EthPort) : (s.setEth p x).sys = s.sys := rfl
@[simp] theorem State.setEth_pwr (s : State) (p : Nat) (x : EthPort) : (s.setEth p x).pwr = s.pwr := rfl
@[simp] theorem State.setEth_clu (s : State) (p : Nat) (x : EthPort) : (s.setEth p x).clu = s.clu := rfl
@[simp] theorem State.setEth_sch (s : State) (p : Nat) (x : EthPort) : (s.setEth p x).sch = s.sch := rfl
@[simp] theorem State.setEth_lnk (s : State) (p : Nat) (x : EthPort) : (s.setEth p x).lnk = s.lnk := rfl
@[simp] theorem State.setEth_dma (s : State) (p : Nat) (x : EthPort) : (s.setEth p x).dma = s.dma := rfl
@[simp] theorem State.setEth_sds (s : State) (p : Nat) (x : EthPort) : (s.setEth p x).sds = s.sds := rfl
@[simp] theorem State.setEth_eth (s : State) (p : Nat) (x : EthPort) : (s.setEth p x).eth = Store.put {} s.eth p x := rfl
@[simp] theorem State.setEth_pcie (s : State) (p : Nat) (x : EthPort) : (s.setEth p x).pcie = s.pcie := rfl

/-! ### `State.setEjt` -/

@[simp] theorem State.setEjt_now (s : State) (p : Nat) (x : EjtUnit) : (s.setEjt p x).now = s.now := rfl
@[simp] theorem State.setEjt_pending (s : State) (p : Nat) (x : EjtUnit) : (s.setEjt p x).pending = s.pending := rfl
@[simp] theorem State.setEjt_regs (s : State) (p : Nat) (x : EjtUnit) : (s.setEjt p x).regs = s.regs := rfl
@[simp] theorem State.setEjt_active (s : State) (p : Nat) (x : EjtUnit) : (s.setEjt p x).active = s.active := rfl
@[simp] theorem State.setEjt_live (s : State) (p : Nat) (x : EjtUnit) : (s.setEjt p x).live = s.live := rfl
@[simp] theorem State.setEjt_mem (s : State) (p : Nat) (x : EjtUnit) : (s.setEjt p x).mem = s.mem := rfl
@[simp] theorem State.setEjt_poison (s : State) (p : Nat) (x : EjtUnit) : (s.setEjt p x).poison = s.poison := rfl
@[simp] theorem State.setEjt_errs (s : State) (p : Nat) (x : EjtUnit) : (s.setEjt p x).errs = s.errs := rfl
@[simp] theorem State.setEjt_free (s : State) (p : Nat) (x : EjtUnit) : (s.setEjt p x).free = s.free := rfl
@[simp] theorem State.setEjt_resp (s : State) (p : Nat) (x : EjtUnit) : (s.setEjt p x).resp = s.resp := rfl
@[simp] theorem State.setEjt_evqSeq (s : State) (p : Nat) (x : EjtUnit) : (s.setEjt p x).evqSeq = s.evqSeq := rfl
@[simp] theorem State.setEjt_tb (s : State) (p : Nat) (x : EjtUnit) : (s.setEjt p x).tb = s.tb := rfl
@[simp] theorem State.setEjt_memu (s : State) (p : Nat) (x : EjtUnit) : (s.setEjt p x).memu = s.memu := rfl
@[simp] theorem State.setEjt_stp (s : State) (p : Nat) (x : EjtUnit) : (s.setEjt p x).stp = s.stp := rfl
@[simp] theorem State.setEjt_follow (s : State) (p : Nat) (x : EjtUnit) : (s.setEjt p x).follow = s.follow := rfl
@[simp] theorem State.setEjt_ejt (s : State) (p : Nat) (x : EjtUnit) : (s.setEjt p x).ejt = Store.put {} s.ejt p x := rfl
@[simp] theorem State.setEjt_field (s : State) (p : Nat) (x : EjtUnit) : (s.setEjt p x).field = s.field := rfl
@[simp] theorem State.setEjt_merge (s : State) (p : Nat) (x : EjtUnit) : (s.setEjt p x).merge = s.merge := rfl
@[simp] theorem State.setEjt_hlt (s : State) (p : Nat) (x : EjtUnit) : (s.setEjt p x).hlt = s.hlt := rfl
@[simp] theorem State.setEjt_opt (s : State) (p : Nat) (x : EjtUnit) : (s.setEjt p x).opt = s.opt := rfl
@[simp] theorem State.setEjt_kvc (s : State) (p : Nat) (x : EjtUnit) : (s.setEjt p x).kvc = s.kvc := rfl
@[simp] theorem State.setEjt_cam (s : State) (p : Nat) (x : EjtUnit) : (s.setEjt p x).cam = s.cam := rfl
@[simp] theorem State.setEjt_tan (s : State) (p : Nat) (x : EjtUnit) : (s.setEjt p x).tan = s.tan := rfl
@[simp] theorem State.setEjt_clm (s : State) (p : Nat) (x : EjtUnit) : (s.setEjt p x).clm = s.clm := rfl
@[simp] theorem State.setEjt_job (s : State) (p : Nat) (x : EjtUnit) : (s.setEjt p x).job = s.job := rfl
@[simp] theorem State.setEjt_jobNext (s : State) (p : Nat) (x : EjtUnit) : (s.setEjt p x).jobNext = s.jobNext := rfl
@[simp] theorem State.setEjt_out (s : State) (p : Nat) (x : EjtUnit) : (s.setEjt p x).out = s.out := rfl
@[simp] theorem State.setEjt_sys (s : State) (p : Nat) (x : EjtUnit) : (s.setEjt p x).sys = s.sys := rfl
@[simp] theorem State.setEjt_pwr (s : State) (p : Nat) (x : EjtUnit) : (s.setEjt p x).pwr = s.pwr := rfl
@[simp] theorem State.setEjt_clu (s : State) (p : Nat) (x : EjtUnit) : (s.setEjt p x).clu = s.clu := rfl
@[simp] theorem State.setEjt_sch (s : State) (p : Nat) (x : EjtUnit) : (s.setEjt p x).sch = s.sch := rfl
@[simp] theorem State.setEjt_lnk (s : State) (p : Nat) (x : EjtUnit) : (s.setEjt p x).lnk = s.lnk := rfl
@[simp] theorem State.setEjt_dma (s : State) (p : Nat) (x : EjtUnit) : (s.setEjt p x).dma = s.dma := rfl
@[simp] theorem State.setEjt_sds (s : State) (p : Nat) (x : EjtUnit) : (s.setEjt p x).sds = s.sds := rfl
@[simp] theorem State.setEjt_eth (s : State) (p : Nat) (x : EjtUnit) : (s.setEjt p x).eth = s.eth := rfl
@[simp] theorem State.setEjt_pcie (s : State) (p : Nat) (x : EjtUnit) : (s.setEjt p x).pcie = s.pcie := rfl

/-! ### `State.setMerge` -/

@[simp] theorem State.setMerge_now (s : State) (p k : Nat) (m : Option Merge) : (s.setMerge p k m).now = s.now := rfl
@[simp] theorem State.setMerge_pending (s : State) (p k : Nat) (m : Option Merge) : (s.setMerge p k m).pending = s.pending := rfl
@[simp] theorem State.setMerge_regs (s : State) (p k : Nat) (m : Option Merge) : (s.setMerge p k m).regs = s.regs := rfl
@[simp] theorem State.setMerge_active (s : State) (p k : Nat) (m : Option Merge) : (s.setMerge p k m).active = s.active := rfl
@[simp] theorem State.setMerge_live (s : State) (p k : Nat) (m : Option Merge) : (s.setMerge p k m).live = s.live := rfl
@[simp] theorem State.setMerge_mem (s : State) (p k : Nat) (m : Option Merge) : (s.setMerge p k m).mem = s.mem := rfl
@[simp] theorem State.setMerge_poison (s : State) (p k : Nat) (m : Option Merge) : (s.setMerge p k m).poison = s.poison := rfl
@[simp] theorem State.setMerge_errs (s : State) (p k : Nat) (m : Option Merge) : (s.setMerge p k m).errs = s.errs := rfl
@[simp] theorem State.setMerge_free (s : State) (p k : Nat) (m : Option Merge) : (s.setMerge p k m).free = s.free := rfl
@[simp] theorem State.setMerge_resp (s : State) (p k : Nat) (m : Option Merge) : (s.setMerge p k m).resp = s.resp := rfl
@[simp] theorem State.setMerge_evqSeq (s : State) (p k : Nat) (m : Option Merge) : (s.setMerge p k m).evqSeq = s.evqSeq := rfl
@[simp] theorem State.setMerge_tb (s : State) (p k : Nat) (m : Option Merge) : (s.setMerge p k m).tb = s.tb := rfl
@[simp] theorem State.setMerge_memu (s : State) (p k : Nat) (m : Option Merge) : (s.setMerge p k m).memu = s.memu := rfl
@[simp] theorem State.setMerge_stp (s : State) (p k : Nat) (m : Option Merge) : (s.setMerge p k m).stp = s.stp := rfl
@[simp] theorem State.setMerge_follow (s : State) (p k : Nat) (m : Option Merge) : (s.setMerge p k m).follow = s.follow := rfl
@[simp] theorem State.setMerge_ejt (s : State) (p k : Nat) (m : Option Merge) : (s.setMerge p k m).ejt = s.ejt := rfl
@[simp] theorem State.setMerge_field (s : State) (p k : Nat) (m : Option Merge) : (s.setMerge p k m).field = s.field := rfl
@[simp] theorem State.setMerge_merge (s : State) (p k : Nat) (m : Option Merge) : (s.setMerge p k m).merge = Store.put none s.merge (mkey p k) m := rfl
@[simp] theorem State.setMerge_hlt (s : State) (p k : Nat) (m : Option Merge) : (s.setMerge p k m).hlt = s.hlt := rfl
@[simp] theorem State.setMerge_opt (s : State) (p k : Nat) (m : Option Merge) : (s.setMerge p k m).opt = s.opt := rfl
@[simp] theorem State.setMerge_kvc (s : State) (p k : Nat) (m : Option Merge) : (s.setMerge p k m).kvc = s.kvc := rfl
@[simp] theorem State.setMerge_cam (s : State) (p k : Nat) (m : Option Merge) : (s.setMerge p k m).cam = s.cam := rfl
@[simp] theorem State.setMerge_tan (s : State) (p k : Nat) (m : Option Merge) : (s.setMerge p k m).tan = s.tan := rfl
@[simp] theorem State.setMerge_clm (s : State) (p k : Nat) (m : Option Merge) : (s.setMerge p k m).clm = s.clm := rfl
@[simp] theorem State.setMerge_job (s : State) (p k : Nat) (m : Option Merge) : (s.setMerge p k m).job = s.job := rfl
@[simp] theorem State.setMerge_jobNext (s : State) (p k : Nat) (m : Option Merge) : (s.setMerge p k m).jobNext = s.jobNext := rfl
@[simp] theorem State.setMerge_out (s : State) (p k : Nat) (m : Option Merge) : (s.setMerge p k m).out = s.out := rfl
@[simp] theorem State.setMerge_sys (s : State) (p k : Nat) (m : Option Merge) : (s.setMerge p k m).sys = s.sys := rfl
@[simp] theorem State.setMerge_pwr (s : State) (p k : Nat) (m : Option Merge) : (s.setMerge p k m).pwr = s.pwr := rfl
@[simp] theorem State.setMerge_clu (s : State) (p k : Nat) (m : Option Merge) : (s.setMerge p k m).clu = s.clu := rfl
@[simp] theorem State.setMerge_sch (s : State) (p k : Nat) (m : Option Merge) : (s.setMerge p k m).sch = s.sch := rfl
@[simp] theorem State.setMerge_lnk (s : State) (p k : Nat) (m : Option Merge) : (s.setMerge p k m).lnk = s.lnk := rfl
@[simp] theorem State.setMerge_dma (s : State) (p k : Nat) (m : Option Merge) : (s.setMerge p k m).dma = s.dma := rfl
@[simp] theorem State.setMerge_sds (s : State) (p k : Nat) (m : Option Merge) : (s.setMerge p k m).sds = s.sds := rfl
@[simp] theorem State.setMerge_eth (s : State) (p k : Nat) (m : Option Merge) : (s.setMerge p k m).eth = s.eth := rfl
@[simp] theorem State.setMerge_pcie (s : State) (p k : Nat) (m : Option Merge) : (s.setMerge p k m).pcie = s.pcie := rfl

/-! ### `State.setSch` -/

@[simp] theorem State.setSch_now (s : State) (x : Sched) : (s.setSch x).now = s.now := rfl
@[simp] theorem State.setSch_pending (s : State) (x : Sched) : (s.setSch x).pending = s.pending := rfl
@[simp] theorem State.setSch_regs (s : State) (x : Sched) : (s.setSch x).regs = s.regs := rfl
@[simp] theorem State.setSch_active (s : State) (x : Sched) : (s.setSch x).active = s.active := rfl
@[simp] theorem State.setSch_live (s : State) (x : Sched) : (s.setSch x).live = s.live := rfl
@[simp] theorem State.setSch_mem (s : State) (x : Sched) : (s.setSch x).mem = s.mem := rfl
@[simp] theorem State.setSch_poison (s : State) (x : Sched) : (s.setSch x).poison = s.poison := rfl
@[simp] theorem State.setSch_errs (s : State) (x : Sched) : (s.setSch x).errs = s.errs := rfl
@[simp] theorem State.setSch_free (s : State) (x : Sched) : (s.setSch x).free = s.free := rfl
@[simp] theorem State.setSch_resp (s : State) (x : Sched) : (s.setSch x).resp = s.resp := rfl
@[simp] theorem State.setSch_evqSeq (s : State) (x : Sched) : (s.setSch x).evqSeq = s.evqSeq := rfl
@[simp] theorem State.setSch_tb (s : State) (x : Sched) : (s.setSch x).tb = s.tb := rfl
@[simp] theorem State.setSch_memu (s : State) (x : Sched) : (s.setSch x).memu = s.memu := rfl
@[simp] theorem State.setSch_stp (s : State) (x : Sched) : (s.setSch x).stp = s.stp := rfl
@[simp] theorem State.setSch_follow (s : State) (x : Sched) : (s.setSch x).follow = s.follow := rfl
@[simp] theorem State.setSch_ejt (s : State) (x : Sched) : (s.setSch x).ejt = s.ejt := rfl
@[simp] theorem State.setSch_field (s : State) (x : Sched) : (s.setSch x).field = s.field := rfl
@[simp] theorem State.setSch_merge (s : State) (x : Sched) : (s.setSch x).merge = s.merge := rfl
@[simp] theorem State.setSch_hlt (s : State) (x : Sched) : (s.setSch x).hlt = s.hlt := rfl
@[simp] theorem State.setSch_opt (s : State) (x : Sched) : (s.setSch x).opt = s.opt := rfl
@[simp] theorem State.setSch_kvc (s : State) (x : Sched) : (s.setSch x).kvc = s.kvc := rfl
@[simp] theorem State.setSch_cam (s : State) (x : Sched) : (s.setSch x).cam = s.cam := rfl
@[simp] theorem State.setSch_tan (s : State) (x : Sched) : (s.setSch x).tan = s.tan := rfl
@[simp] theorem State.setSch_clm (s : State) (x : Sched) : (s.setSch x).clm = s.clm := rfl
@[simp] theorem State.setSch_job (s : State) (x : Sched) : (s.setSch x).job = s.job := rfl
@[simp] theorem State.setSch_jobNext (s : State) (x : Sched) : (s.setSch x).jobNext = s.jobNext := rfl
@[simp] theorem State.setSch_out (s : State) (x : Sched) : (s.setSch x).out = s.out := rfl
@[simp] theorem State.setSch_sys (s : State) (x : Sched) : (s.setSch x).sys = s.sys := rfl
@[simp] theorem State.setSch_pwr (s : State) (x : Sched) : (s.setSch x).pwr = s.pwr := rfl
@[simp] theorem State.setSch_clu (s : State) (x : Sched) : (s.setSch x).clu = s.clu := rfl
@[simp] theorem State.setSch_sch (s : State) (x : Sched) : (s.setSch x).sch = x := rfl
@[simp] theorem State.setSch_lnk (s : State) (x : Sched) : (s.setSch x).lnk = s.lnk := rfl
@[simp] theorem State.setSch_dma (s : State) (x : Sched) : (s.setSch x).dma = s.dma := rfl
@[simp] theorem State.setSch_sds (s : State) (x : Sched) : (s.setSch x).sds = s.sds := rfl
@[simp] theorem State.setSch_eth (s : State) (x : Sched) : (s.setSch x).eth = s.eth := rfl
@[simp] theorem State.setSch_pcie (s : State) (x : Sched) : (s.setSch x).pcie = s.pcie := rfl

/-! ### `State.setField` -/

@[simp] theorem State.setField_now (s : State) (f : Field) : (s.setField f).now = s.now := rfl
@[simp] theorem State.setField_pending (s : State) (f : Field) : (s.setField f).pending = s.pending := rfl
@[simp] theorem State.setField_regs (s : State) (f : Field) : (s.setField f).regs = s.regs := rfl
@[simp] theorem State.setField_active (s : State) (f : Field) : (s.setField f).active = s.active := rfl
@[simp] theorem State.setField_live (s : State) (f : Field) : (s.setField f).live = s.live := rfl
@[simp] theorem State.setField_mem (s : State) (f : Field) : (s.setField f).mem = s.mem := rfl
@[simp] theorem State.setField_poison (s : State) (f : Field) : (s.setField f).poison = s.poison := rfl
@[simp] theorem State.setField_errs (s : State) (f : Field) : (s.setField f).errs = s.errs := rfl
@[simp] theorem State.setField_free (s : State) (f : Field) : (s.setField f).free = s.free := rfl
@[simp] theorem State.setField_resp (s : State) (f : Field) : (s.setField f).resp = s.resp := rfl
@[simp] theorem State.setField_evqSeq (s : State) (f : Field) : (s.setField f).evqSeq = s.evqSeq := rfl
@[simp] theorem State.setField_tb (s : State) (f : Field) : (s.setField f).tb = s.tb := rfl
@[simp] theorem State.setField_memu (s : State) (f : Field) : (s.setField f).memu = s.memu := rfl
@[simp] theorem State.setField_stp (s : State) (f : Field) : (s.setField f).stp = s.stp := rfl
@[simp] theorem State.setField_follow (s : State) (f : Field) : (s.setField f).follow = s.follow := rfl
@[simp] theorem State.setField_ejt (s : State) (f : Field) : (s.setField f).ejt = s.ejt := rfl
@[simp] theorem State.setField_field (s : State) (f : Field) : (s.setField f).field = f := rfl
@[simp] theorem State.setField_merge (s : State) (f : Field) : (s.setField f).merge = s.merge := rfl
@[simp] theorem State.setField_hlt (s : State) (f : Field) : (s.setField f).hlt = s.hlt := rfl
@[simp] theorem State.setField_opt (s : State) (f : Field) : (s.setField f).opt = s.opt := rfl
@[simp] theorem State.setField_kvc (s : State) (f : Field) : (s.setField f).kvc = s.kvc := rfl
@[simp] theorem State.setField_cam (s : State) (f : Field) : (s.setField f).cam = s.cam := rfl
@[simp] theorem State.setField_tan (s : State) (f : Field) : (s.setField f).tan = s.tan := rfl
@[simp] theorem State.setField_clm (s : State) (f : Field) : (s.setField f).clm = s.clm := rfl
@[simp] theorem State.setField_job (s : State) (f : Field) : (s.setField f).job = s.job := rfl
@[simp] theorem State.setField_jobNext (s : State) (f : Field) : (s.setField f).jobNext = s.jobNext := rfl
@[simp] theorem State.setField_out (s : State) (f : Field) : (s.setField f).out = s.out := rfl
@[simp] theorem State.setField_sys (s : State) (f : Field) : (s.setField f).sys = s.sys := rfl
@[simp] theorem State.setField_pwr (s : State) (f : Field) : (s.setField f).pwr = s.pwr := rfl
@[simp] theorem State.setField_clu (s : State) (f : Field) : (s.setField f).clu = s.clu := rfl
@[simp] theorem State.setField_sch (s : State) (f : Field) : (s.setField f).sch = s.sch := rfl
@[simp] theorem State.setField_lnk (s : State) (f : Field) : (s.setField f).lnk = s.lnk := rfl
@[simp] theorem State.setField_dma (s : State) (f : Field) : (s.setField f).dma = s.dma := rfl
@[simp] theorem State.setField_sds (s : State) (f : Field) : (s.setField f).sds = s.sds := rfl
@[simp] theorem State.setField_eth (s : State) (f : Field) : (s.setField f).eth = s.eth := rfl
@[simp] theorem State.setField_pcie (s : State) (f : Field) : (s.setField f).pcie = s.pcie := rfl

/-! ### `State.endPulse` -/

@[simp] theorem State.endPulse_now (s : State) (n : Nat) : (s.endPulse n).now = s.now := rfl
@[simp] theorem State.endPulse_pending (s : State) (n : Nat) : (s.endPulse n).pending = s.pending := rfl
@[simp] theorem State.endPulse_regs (s : State) (n : Nat) : (s.endPulse n).regs = s.regs := rfl
@[simp] theorem State.endPulse_active (s : State) (n : Nat) : (s.endPulse n).active = s.active := rfl
@[simp] theorem State.endPulse_live (s : State) (n : Nat) : (s.endPulse n).live = s.live := rfl
@[simp] theorem State.endPulse_mem (s : State) (n : Nat) : (s.endPulse n).mem = s.mem := rfl
@[simp] theorem State.endPulse_poison (s : State) (n : Nat) : (s.endPulse n).poison = s.poison := rfl
@[simp] theorem State.endPulse_errs (s : State) (n : Nat) : (s.endPulse n).errs = s.errs := rfl
@[simp] theorem State.endPulse_free (s : State) (n : Nat) : (s.endPulse n).free = s.free := rfl
@[simp] theorem State.endPulse_resp (s : State) (n : Nat) : (s.endPulse n).resp = s.resp := rfl
@[simp] theorem State.endPulse_evqSeq (s : State) (n : Nat) : (s.endPulse n).evqSeq = s.evqSeq := rfl
@[simp] theorem State.endPulse_tb (s : State) (n : Nat) : (s.endPulse n).tb = s.tb := rfl
@[simp] theorem State.endPulse_memu (s : State) (n : Nat) : (s.endPulse n).memu = s.memu := rfl
@[simp] theorem State.endPulse_stp (s : State) (n : Nat) : (s.endPulse n).stp = s.stp := rfl
@[simp] theorem State.endPulse_follow (s : State) (n : Nat) : (s.endPulse n).follow = s.follow := rfl
@[simp] theorem State.endPulse_ejt (s : State) (n : Nat) : (s.endPulse n).ejt = s.ejt := rfl
@[simp] theorem State.endPulse_field (s : State) (n : Nat) : (s.endPulse n).field = { s.field with pulses := Store.put none s.field.pulses n none } := rfl
@[simp] theorem State.endPulse_merge (s : State) (n : Nat) : (s.endPulse n).merge = s.merge := rfl
@[simp] theorem State.endPulse_hlt (s : State) (n : Nat) : (s.endPulse n).hlt = s.hlt := rfl
@[simp] theorem State.endPulse_opt (s : State) (n : Nat) : (s.endPulse n).opt = s.opt := rfl
@[simp] theorem State.endPulse_kvc (s : State) (n : Nat) : (s.endPulse n).kvc = s.kvc := rfl
@[simp] theorem State.endPulse_cam (s : State) (n : Nat) : (s.endPulse n).cam = s.cam := rfl
@[simp] theorem State.endPulse_tan (s : State) (n : Nat) : (s.endPulse n).tan = s.tan := rfl
@[simp] theorem State.endPulse_clm (s : State) (n : Nat) : (s.endPulse n).clm = s.clm := rfl
@[simp] theorem State.endPulse_job (s : State) (n : Nat) : (s.endPulse n).job = s.job := rfl
@[simp] theorem State.endPulse_jobNext (s : State) (n : Nat) : (s.endPulse n).jobNext = s.jobNext := rfl
@[simp] theorem State.endPulse_out (s : State) (n : Nat) : (s.endPulse n).out = s.out := rfl
@[simp] theorem State.endPulse_sys (s : State) (n : Nat) : (s.endPulse n).sys = s.sys := rfl
@[simp] theorem State.endPulse_pwr (s : State) (n : Nat) : (s.endPulse n).pwr = s.pwr := rfl
@[simp] theorem State.endPulse_clu (s : State) (n : Nat) : (s.endPulse n).clu = s.clu := rfl
@[simp] theorem State.endPulse_sch (s : State) (n : Nat) : (s.endPulse n).sch = s.sch := rfl
@[simp] theorem State.endPulse_lnk (s : State) (n : Nat) : (s.endPulse n).lnk = s.lnk := rfl
@[simp] theorem State.endPulse_dma (s : State) (n : Nat) : (s.endPulse n).dma = s.dma := rfl
@[simp] theorem State.endPulse_sds (s : State) (n : Nat) : (s.endPulse n).sds = s.sds := rfl
@[simp] theorem State.endPulse_eth (s : State) (n : Nat) : (s.endPulse n).eth = s.eth := rfl
@[simp] theorem State.endPulse_pcie (s : State) (n : Nat) : (s.endPulse n).pcie = s.pcie := rfl

/-! ### `State.startPulse` -/

@[simp] theorem State.startPulse_now (s : State) (p n ns : Nat) : (s.startPulse p n ns).now = s.now := rfl
@[simp] theorem State.startPulse_pending (s : State) (p n ns : Nat) : (s.startPulse p n ns).pending = s.pending := rfl
@[simp] theorem State.startPulse_regs (s : State) (p n ns : Nat) : (s.startPulse p n ns).regs = s.regs := rfl
@[simp] theorem State.startPulse_active (s : State) (p n ns : Nat) : (s.startPulse p n ns).active = s.active := rfl
@[simp] theorem State.startPulse_live (s : State) (p n ns : Nat) : (s.startPulse p n ns).live = s.live := rfl
@[simp] theorem State.startPulse_mem (s : State) (p n ns : Nat) : (s.startPulse p n ns).mem = s.mem := rfl
@[simp] theorem State.startPulse_poison (s : State) (p n ns : Nat) : (s.startPulse p n ns).poison = s.poison := rfl
@[simp] theorem State.startPulse_errs (s : State) (p n ns : Nat) : (s.startPulse p n ns).errs = s.errs := rfl
@[simp] theorem State.startPulse_free (s : State) (p n ns : Nat) : (s.startPulse p n ns).free = s.free := rfl
@[simp] theorem State.startPulse_resp (s : State) (p n ns : Nat) : (s.startPulse p n ns).resp = s.resp := rfl
@[simp] theorem State.startPulse_evqSeq (s : State) (p n ns : Nat) : (s.startPulse p n ns).evqSeq = s.evqSeq := rfl
@[simp] theorem State.startPulse_tb (s : State) (p n ns : Nat) : (s.startPulse p n ns).tb = s.tb := rfl
@[simp] theorem State.startPulse_memu (s : State) (p n ns : Nat) : (s.startPulse p n ns).memu = s.memu := rfl
@[simp] theorem State.startPulse_stp (s : State) (p n ns : Nat) : (s.startPulse p n ns).stp = s.stp := rfl
@[simp] theorem State.startPulse_follow (s : State) (p n ns : Nat) : (s.startPulse p n ns).follow = s.follow := rfl
@[simp] theorem State.startPulse_ejt (s : State) (p n ns : Nat) : (s.startPulse p n ns).ejt = s.ejt := rfl
@[simp] theorem State.startPulse_field (s : State) (p n ns : Nat) : (s.startPulse p n ns).field = { s.field with pulses := Store.put none s.field.pulses n (some ⟨p, s.now + ns⟩) } := rfl
@[simp] theorem State.startPulse_merge (s : State) (p n ns : Nat) : (s.startPulse p n ns).merge = s.merge := rfl
@[simp] theorem State.startPulse_hlt (s : State) (p n ns : Nat) : (s.startPulse p n ns).hlt = s.hlt := rfl
@[simp] theorem State.startPulse_opt (s : State) (p n ns : Nat) : (s.startPulse p n ns).opt = s.opt := rfl
@[simp] theorem State.startPulse_kvc (s : State) (p n ns : Nat) : (s.startPulse p n ns).kvc = s.kvc := rfl
@[simp] theorem State.startPulse_cam (s : State) (p n ns : Nat) : (s.startPulse p n ns).cam = s.cam := rfl
@[simp] theorem State.startPulse_tan (s : State) (p n ns : Nat) : (s.startPulse p n ns).tan = s.tan := rfl
@[simp] theorem State.startPulse_clm (s : State) (p n ns : Nat) : (s.startPulse p n ns).clm = s.clm := rfl
@[simp] theorem State.startPulse_job (s : State) (p n ns : Nat) : (s.startPulse p n ns).job = s.job := rfl
@[simp] theorem State.startPulse_jobNext (s : State) (p n ns : Nat) : (s.startPulse p n ns).jobNext = s.jobNext := rfl
@[simp] theorem State.startPulse_out (s : State) (p n ns : Nat) : (s.startPulse p n ns).out = s.out := rfl
@[simp] theorem State.startPulse_sys (s : State) (p n ns : Nat) : (s.startPulse p n ns).sys = s.sys := rfl
@[simp] theorem State.startPulse_pwr (s : State) (p n ns : Nat) : (s.startPulse p n ns).pwr = s.pwr := rfl
@[simp] theorem State.startPulse_clu (s : State) (p n ns : Nat) : (s.startPulse p n ns).clu = s.clu := rfl
@[simp] theorem State.startPulse_sch (s : State) (p n ns : Nat) : (s.startPulse p n ns).sch = s.sch := rfl
@[simp] theorem State.startPulse_lnk (s : State) (p n ns : Nat) : (s.startPulse p n ns).lnk = s.lnk := rfl
@[simp] theorem State.startPulse_dma (s : State) (p n ns : Nat) : (s.startPulse p n ns).dma = s.dma := rfl
@[simp] theorem State.startPulse_sds (s : State) (p n ns : Nat) : (s.startPulse p n ns).sds = s.sds := rfl
@[simp] theorem State.startPulse_eth (s : State) (p n ns : Nat) : (s.startPulse p n ns).eth = s.eth := rfl
@[simp] theorem State.startPulse_pcie (s : State) (p n ns : Nat) : (s.startPulse p n ns).pcie = s.pcie := rfl

/-! ### `State.setHlt` -/

@[simp] theorem State.setHlt_now (s : State) (h : Halter) : (s.setHlt h).now = s.now := rfl
@[simp] theorem State.setHlt_pending (s : State) (h : Halter) : (s.setHlt h).pending = s.pending := rfl
@[simp] theorem State.setHlt_regs (s : State) (h : Halter) : (s.setHlt h).regs = s.regs := rfl
@[simp] theorem State.setHlt_active (s : State) (h : Halter) : (s.setHlt h).active = s.active := rfl
@[simp] theorem State.setHlt_live (s : State) (h : Halter) : (s.setHlt h).live = s.live := rfl
@[simp] theorem State.setHlt_mem (s : State) (h : Halter) : (s.setHlt h).mem = s.mem := rfl
@[simp] theorem State.setHlt_poison (s : State) (h : Halter) : (s.setHlt h).poison = s.poison := rfl
@[simp] theorem State.setHlt_errs (s : State) (h : Halter) : (s.setHlt h).errs = s.errs := rfl
@[simp] theorem State.setHlt_free (s : State) (h : Halter) : (s.setHlt h).free = s.free := rfl
@[simp] theorem State.setHlt_resp (s : State) (h : Halter) : (s.setHlt h).resp = s.resp := rfl
@[simp] theorem State.setHlt_evqSeq (s : State) (h : Halter) : (s.setHlt h).evqSeq = s.evqSeq := rfl
@[simp] theorem State.setHlt_tb (s : State) (h : Halter) : (s.setHlt h).tb = s.tb := rfl
@[simp] theorem State.setHlt_memu (s : State) (h : Halter) : (s.setHlt h).memu = s.memu := rfl
@[simp] theorem State.setHlt_stp (s : State) (h : Halter) : (s.setHlt h).stp = s.stp := rfl
@[simp] theorem State.setHlt_follow (s : State) (h : Halter) : (s.setHlt h).follow = s.follow := rfl
@[simp] theorem State.setHlt_ejt (s : State) (h : Halter) : (s.setHlt h).ejt = s.ejt := rfl
@[simp] theorem State.setHlt_field (s : State) (h : Halter) : (s.setHlt h).field = s.field := rfl
@[simp] theorem State.setHlt_merge (s : State) (h : Halter) : (s.setHlt h).merge = s.merge := rfl
@[simp] theorem State.setHlt_hlt (s : State) (h : Halter) : (s.setHlt h).hlt = h := rfl
@[simp] theorem State.setHlt_opt (s : State) (h : Halter) : (s.setHlt h).opt = s.opt := rfl
@[simp] theorem State.setHlt_kvc (s : State) (h : Halter) : (s.setHlt h).kvc = s.kvc := rfl
@[simp] theorem State.setHlt_cam (s : State) (h : Halter) : (s.setHlt h).cam = s.cam := rfl
@[simp] theorem State.setHlt_tan (s : State) (h : Halter) : (s.setHlt h).tan = s.tan := rfl
@[simp] theorem State.setHlt_clm (s : State) (h : Halter) : (s.setHlt h).clm = s.clm := rfl
@[simp] theorem State.setHlt_job (s : State) (h : Halter) : (s.setHlt h).job = s.job := rfl
@[simp] theorem State.setHlt_jobNext (s : State) (h : Halter) : (s.setHlt h).jobNext = s.jobNext := rfl
@[simp] theorem State.setHlt_out (s : State) (h : Halter) : (s.setHlt h).out = s.out := rfl
@[simp] theorem State.setHlt_sys (s : State) (h : Halter) : (s.setHlt h).sys = s.sys := rfl
@[simp] theorem State.setHlt_pwr (s : State) (h : Halter) : (s.setHlt h).pwr = s.pwr := rfl
@[simp] theorem State.setHlt_clu (s : State) (h : Halter) : (s.setHlt h).clu = s.clu := rfl
@[simp] theorem State.setHlt_sch (s : State) (h : Halter) : (s.setHlt h).sch = s.sch := rfl
@[simp] theorem State.setHlt_lnk (s : State) (h : Halter) : (s.setHlt h).lnk = s.lnk := rfl
@[simp] theorem State.setHlt_dma (s : State) (h : Halter) : (s.setHlt h).dma = s.dma := rfl
@[simp] theorem State.setHlt_sds (s : State) (h : Halter) : (s.setHlt h).sds = s.sds := rfl
@[simp] theorem State.setHlt_eth (s : State) (h : Halter) : (s.setHlt h).eth = s.eth := rfl
@[simp] theorem State.setHlt_pcie (s : State) (h : Halter) : (s.setHlt h).pcie = s.pcie := rfl

/-! ### `State.setPcie` -/

@[simp] theorem State.setPcie_now (s : State) (x : Pcie) : (s.setPcie x).now = s.now := rfl
@[simp] theorem State.setPcie_pending (s : State) (x : Pcie) : (s.setPcie x).pending = s.pending := rfl
@[simp] theorem State.setPcie_regs (s : State) (x : Pcie) : (s.setPcie x).regs = s.regs := rfl
@[simp] theorem State.setPcie_active (s : State) (x : Pcie) : (s.setPcie x).active = s.active := rfl
@[simp] theorem State.setPcie_live (s : State) (x : Pcie) : (s.setPcie x).live = s.live := rfl
@[simp] theorem State.setPcie_mem (s : State) (x : Pcie) : (s.setPcie x).mem = s.mem := rfl
@[simp] theorem State.setPcie_poison (s : State) (x : Pcie) : (s.setPcie x).poison = s.poison := rfl
@[simp] theorem State.setPcie_errs (s : State) (x : Pcie) : (s.setPcie x).errs = s.errs := rfl
@[simp] theorem State.setPcie_free (s : State) (x : Pcie) : (s.setPcie x).free = s.free := rfl
@[simp] theorem State.setPcie_resp (s : State) (x : Pcie) : (s.setPcie x).resp = s.resp := rfl
@[simp] theorem State.setPcie_evqSeq (s : State) (x : Pcie) : (s.setPcie x).evqSeq = s.evqSeq := rfl
@[simp] theorem State.setPcie_tb (s : State) (x : Pcie) : (s.setPcie x).tb = s.tb := rfl
@[simp] theorem State.setPcie_memu (s : State) (x : Pcie) : (s.setPcie x).memu = s.memu := rfl
@[simp] theorem State.setPcie_stp (s : State) (x : Pcie) : (s.setPcie x).stp = s.stp := rfl
@[simp] theorem State.setPcie_follow (s : State) (x : Pcie) : (s.setPcie x).follow = s.follow := rfl
@[simp] theorem State.setPcie_ejt (s : State) (x : Pcie) : (s.setPcie x).ejt = s.ejt := rfl
@[simp] theorem State.setPcie_field (s : State) (x : Pcie) : (s.setPcie x).field = s.field := rfl
@[simp] theorem State.setPcie_merge (s : State) (x : Pcie) : (s.setPcie x).merge = s.merge := rfl
@[simp] theorem State.setPcie_hlt (s : State) (x : Pcie) : (s.setPcie x).hlt = s.hlt := rfl
@[simp] theorem State.setPcie_opt (s : State) (x : Pcie) : (s.setPcie x).opt = s.opt := rfl
@[simp] theorem State.setPcie_kvc (s : State) (x : Pcie) : (s.setPcie x).kvc = s.kvc := rfl
@[simp] theorem State.setPcie_cam (s : State) (x : Pcie) : (s.setPcie x).cam = s.cam := rfl
@[simp] theorem State.setPcie_tan (s : State) (x : Pcie) : (s.setPcie x).tan = s.tan := rfl
@[simp] theorem State.setPcie_clm (s : State) (x : Pcie) : (s.setPcie x).clm = s.clm := rfl
@[simp] theorem State.setPcie_job (s : State) (x : Pcie) : (s.setPcie x).job = s.job := rfl
@[simp] theorem State.setPcie_jobNext (s : State) (x : Pcie) : (s.setPcie x).jobNext = s.jobNext := rfl
@[simp] theorem State.setPcie_out (s : State) (x : Pcie) : (s.setPcie x).out = s.out := rfl
@[simp] theorem State.setPcie_sys (s : State) (x : Pcie) : (s.setPcie x).sys = s.sys := rfl
@[simp] theorem State.setPcie_pwr (s : State) (x : Pcie) : (s.setPcie x).pwr = s.pwr := rfl
@[simp] theorem State.setPcie_clu (s : State) (x : Pcie) : (s.setPcie x).clu = s.clu := rfl
@[simp] theorem State.setPcie_sch (s : State) (x : Pcie) : (s.setPcie x).sch = s.sch := rfl
@[simp] theorem State.setPcie_lnk (s : State) (x : Pcie) : (s.setPcie x).lnk = s.lnk := rfl
@[simp] theorem State.setPcie_dma (s : State) (x : Pcie) : (s.setPcie x).dma = s.dma := rfl
@[simp] theorem State.setPcie_sds (s : State) (x : Pcie) : (s.setPcie x).sds = s.sds := rfl
@[simp] theorem State.setPcie_eth (s : State) (x : Pcie) : (s.setPcie x).eth = s.eth := rfl
@[simp] theorem State.setPcie_pcie (s : State) (x : Pcie) : (s.setPcie x).pcie = x := rfl

/-! ### `State.setMem` -/

@[simp] theorem State.setMem_now (s : State) (m : MemUnit) : (s.setMem m).now = s.now := rfl
@[simp] theorem State.setMem_pending (s : State) (m : MemUnit) : (s.setMem m).pending = s.pending := rfl
@[simp] theorem State.setMem_regs (s : State) (m : MemUnit) : (s.setMem m).regs = s.regs := rfl
@[simp] theorem State.setMem_active (s : State) (m : MemUnit) : (s.setMem m).active = s.active := rfl
@[simp] theorem State.setMem_live (s : State) (m : MemUnit) : (s.setMem m).live = s.live := rfl
@[simp] theorem State.setMem_mem (s : State) (m : MemUnit) : (s.setMem m).mem = s.mem := rfl
@[simp] theorem State.setMem_poison (s : State) (m : MemUnit) : (s.setMem m).poison = s.poison := rfl
@[simp] theorem State.setMem_errs (s : State) (m : MemUnit) : (s.setMem m).errs = s.errs := rfl
@[simp] theorem State.setMem_free (s : State) (m : MemUnit) : (s.setMem m).free = s.free := rfl
@[simp] theorem State.setMem_resp (s : State) (m : MemUnit) : (s.setMem m).resp = s.resp := rfl
@[simp] theorem State.setMem_evqSeq (s : State) (m : MemUnit) : (s.setMem m).evqSeq = s.evqSeq := rfl
@[simp] theorem State.setMem_tb (s : State) (m : MemUnit) : (s.setMem m).tb = s.tb := rfl
@[simp] theorem State.setMem_memu (s : State) (m : MemUnit) : (s.setMem m).memu = m := rfl
@[simp] theorem State.setMem_stp (s : State) (m : MemUnit) : (s.setMem m).stp = s.stp := rfl
@[simp] theorem State.setMem_follow (s : State) (m : MemUnit) : (s.setMem m).follow = s.follow := rfl
@[simp] theorem State.setMem_ejt (s : State) (m : MemUnit) : (s.setMem m).ejt = s.ejt := rfl
@[simp] theorem State.setMem_field (s : State) (m : MemUnit) : (s.setMem m).field = s.field := rfl
@[simp] theorem State.setMem_merge (s : State) (m : MemUnit) : (s.setMem m).merge = s.merge := rfl
@[simp] theorem State.setMem_hlt (s : State) (m : MemUnit) : (s.setMem m).hlt = s.hlt := rfl
@[simp] theorem State.setMem_opt (s : State) (m : MemUnit) : (s.setMem m).opt = s.opt := rfl
@[simp] theorem State.setMem_kvc (s : State) (m : MemUnit) : (s.setMem m).kvc = s.kvc := rfl
@[simp] theorem State.setMem_cam (s : State) (m : MemUnit) : (s.setMem m).cam = s.cam := rfl
@[simp] theorem State.setMem_tan (s : State) (m : MemUnit) : (s.setMem m).tan = s.tan := rfl
@[simp] theorem State.setMem_clm (s : State) (m : MemUnit) : (s.setMem m).clm = s.clm := rfl
@[simp] theorem State.setMem_job (s : State) (m : MemUnit) : (s.setMem m).job = s.job := rfl
@[simp] theorem State.setMem_jobNext (s : State) (m : MemUnit) : (s.setMem m).jobNext = s.jobNext := rfl
@[simp] theorem State.setMem_out (s : State) (m : MemUnit) : (s.setMem m).out = s.out := rfl
@[simp] theorem State.setMem_sys (s : State) (m : MemUnit) : (s.setMem m).sys = s.sys := rfl
@[simp] theorem State.setMem_pwr (s : State) (m : MemUnit) : (s.setMem m).pwr = s.pwr := rfl
@[simp] theorem State.setMem_clu (s : State) (m : MemUnit) : (s.setMem m).clu = s.clu := rfl
@[simp] theorem State.setMem_sch (s : State) (m : MemUnit) : (s.setMem m).sch = s.sch := rfl
@[simp] theorem State.setMem_lnk (s : State) (m : MemUnit) : (s.setMem m).lnk = s.lnk := rfl
@[simp] theorem State.setMem_dma (s : State) (m : MemUnit) : (s.setMem m).dma = s.dma := rfl
@[simp] theorem State.setMem_sds (s : State) (m : MemUnit) : (s.setMem m).sds = s.sds := rfl
@[simp] theorem State.setMem_eth (s : State) (m : MemUnit) : (s.setMem m).eth = s.eth := rfl
@[simp] theorem State.setMem_pcie (s : State) (m : MemUnit) : (s.setMem m).pcie = s.pcie := rfl

/-! ### `State.setKvc` -/

@[simp] theorem State.setKvc_now (s : State) (x : Kvc) : (s.setKvc x).now = s.now := rfl
@[simp] theorem State.setKvc_pending (s : State) (x : Kvc) : (s.setKvc x).pending = s.pending := rfl
@[simp] theorem State.setKvc_regs (s : State) (x : Kvc) : (s.setKvc x).regs = s.regs := rfl
@[simp] theorem State.setKvc_active (s : State) (x : Kvc) : (s.setKvc x).active = s.active := rfl
@[simp] theorem State.setKvc_live (s : State) (x : Kvc) : (s.setKvc x).live = s.live := rfl
@[simp] theorem State.setKvc_mem (s : State) (x : Kvc) : (s.setKvc x).mem = s.mem := rfl
@[simp] theorem State.setKvc_poison (s : State) (x : Kvc) : (s.setKvc x).poison = s.poison := rfl
@[simp] theorem State.setKvc_errs (s : State) (x : Kvc) : (s.setKvc x).errs = s.errs := rfl
@[simp] theorem State.setKvc_free (s : State) (x : Kvc) : (s.setKvc x).free = s.free := rfl
@[simp] theorem State.setKvc_resp (s : State) (x : Kvc) : (s.setKvc x).resp = s.resp := rfl
@[simp] theorem State.setKvc_evqSeq (s : State) (x : Kvc) : (s.setKvc x).evqSeq = s.evqSeq := rfl
@[simp] theorem State.setKvc_tb (s : State) (x : Kvc) : (s.setKvc x).tb = s.tb := rfl
@[simp] theorem State.setKvc_memu (s : State) (x : Kvc) : (s.setKvc x).memu = s.memu := rfl
@[simp] theorem State.setKvc_stp (s : State) (x : Kvc) : (s.setKvc x).stp = s.stp := rfl
@[simp] theorem State.setKvc_follow (s : State) (x : Kvc) : (s.setKvc x).follow = s.follow := rfl
@[simp] theorem State.setKvc_ejt (s : State) (x : Kvc) : (s.setKvc x).ejt = s.ejt := rfl
@[simp] theorem State.setKvc_field (s : State) (x : Kvc) : (s.setKvc x).field = s.field := rfl
@[simp] theorem State.setKvc_merge (s : State) (x : Kvc) : (s.setKvc x).merge = s.merge := rfl
@[simp] theorem State.setKvc_hlt (s : State) (x : Kvc) : (s.setKvc x).hlt = s.hlt := rfl
@[simp] theorem State.setKvc_opt (s : State) (x : Kvc) : (s.setKvc x).opt = s.opt := rfl
@[simp] theorem State.setKvc_kvc (s : State) (x : Kvc) : (s.setKvc x).kvc = x := rfl
@[simp] theorem State.setKvc_cam (s : State) (x : Kvc) : (s.setKvc x).cam = s.cam := rfl
@[simp] theorem State.setKvc_tan (s : State) (x : Kvc) : (s.setKvc x).tan = s.tan := rfl
@[simp] theorem State.setKvc_clm (s : State) (x : Kvc) : (s.setKvc x).clm = s.clm := rfl
@[simp] theorem State.setKvc_job (s : State) (x : Kvc) : (s.setKvc x).job = s.job := rfl
@[simp] theorem State.setKvc_jobNext (s : State) (x : Kvc) : (s.setKvc x).jobNext = s.jobNext := rfl
@[simp] theorem State.setKvc_out (s : State) (x : Kvc) : (s.setKvc x).out = s.out := rfl
@[simp] theorem State.setKvc_sys (s : State) (x : Kvc) : (s.setKvc x).sys = s.sys := rfl
@[simp] theorem State.setKvc_pwr (s : State) (x : Kvc) : (s.setKvc x).pwr = s.pwr := rfl
@[simp] theorem State.setKvc_clu (s : State) (x : Kvc) : (s.setKvc x).clu = s.clu := rfl
@[simp] theorem State.setKvc_sch (s : State) (x : Kvc) : (s.setKvc x).sch = s.sch := rfl
@[simp] theorem State.setKvc_lnk (s : State) (x : Kvc) : (s.setKvc x).lnk = s.lnk := rfl
@[simp] theorem State.setKvc_dma (s : State) (x : Kvc) : (s.setKvc x).dma = s.dma := rfl
@[simp] theorem State.setKvc_sds (s : State) (x : Kvc) : (s.setKvc x).sds = s.sds := rfl
@[simp] theorem State.setKvc_eth (s : State) (x : Kvc) : (s.setKvc x).eth = s.eth := rfl
@[simp] theorem State.setKvc_pcie (s : State) (x : Kvc) : (s.setKvc x).pcie = s.pcie := rfl

/-! ### `State.setSeq` -/

@[simp] theorem State.setSeq_now (s : State) (q : Nat) (x : KvSeq) : (s.setSeq q x).now = s.now := rfl
@[simp] theorem State.setSeq_pending (s : State) (q : Nat) (x : KvSeq) : (s.setSeq q x).pending = s.pending := rfl
@[simp] theorem State.setSeq_regs (s : State) (q : Nat) (x : KvSeq) : (s.setSeq q x).regs = s.regs := rfl
@[simp] theorem State.setSeq_active (s : State) (q : Nat) (x : KvSeq) : (s.setSeq q x).active = s.active := rfl
@[simp] theorem State.setSeq_live (s : State) (q : Nat) (x : KvSeq) : (s.setSeq q x).live = s.live := rfl
@[simp] theorem State.setSeq_mem (s : State) (q : Nat) (x : KvSeq) : (s.setSeq q x).mem = s.mem := rfl
@[simp] theorem State.setSeq_poison (s : State) (q : Nat) (x : KvSeq) : (s.setSeq q x).poison = s.poison := rfl
@[simp] theorem State.setSeq_errs (s : State) (q : Nat) (x : KvSeq) : (s.setSeq q x).errs = s.errs := rfl
@[simp] theorem State.setSeq_free (s : State) (q : Nat) (x : KvSeq) : (s.setSeq q x).free = s.free := rfl
@[simp] theorem State.setSeq_resp (s : State) (q : Nat) (x : KvSeq) : (s.setSeq q x).resp = s.resp := rfl
@[simp] theorem State.setSeq_evqSeq (s : State) (q : Nat) (x : KvSeq) : (s.setSeq q x).evqSeq = s.evqSeq := rfl
@[simp] theorem State.setSeq_tb (s : State) (q : Nat) (x : KvSeq) : (s.setSeq q x).tb = s.tb := rfl
@[simp] theorem State.setSeq_memu (s : State) (q : Nat) (x : KvSeq) : (s.setSeq q x).memu = s.memu := rfl
@[simp] theorem State.setSeq_stp (s : State) (q : Nat) (x : KvSeq) : (s.setSeq q x).stp = s.stp := rfl
@[simp] theorem State.setSeq_follow (s : State) (q : Nat) (x : KvSeq) : (s.setSeq q x).follow = s.follow := rfl
@[simp] theorem State.setSeq_ejt (s : State) (q : Nat) (x : KvSeq) : (s.setSeq q x).ejt = s.ejt := rfl
@[simp] theorem State.setSeq_field (s : State) (q : Nat) (x : KvSeq) : (s.setSeq q x).field = s.field := rfl
@[simp] theorem State.setSeq_merge (s : State) (q : Nat) (x : KvSeq) : (s.setSeq q x).merge = s.merge := rfl
@[simp] theorem State.setSeq_hlt (s : State) (q : Nat) (x : KvSeq) : (s.setSeq q x).hlt = s.hlt := rfl
@[simp] theorem State.setSeq_opt (s : State) (q : Nat) (x : KvSeq) : (s.setSeq q x).opt = s.opt := rfl
@[simp] theorem State.setSeq_kvc (s : State) (q : Nat) (x : KvSeq) : (s.setSeq q x).kvc = { s.kvc with seqs := Store.put {} s.kvc.seqs q x } := rfl
@[simp] theorem State.setSeq_cam (s : State) (q : Nat) (x : KvSeq) : (s.setSeq q x).cam = s.cam := rfl
@[simp] theorem State.setSeq_tan (s : State) (q : Nat) (x : KvSeq) : (s.setSeq q x).tan = s.tan := rfl
@[simp] theorem State.setSeq_clm (s : State) (q : Nat) (x : KvSeq) : (s.setSeq q x).clm = s.clm := rfl
@[simp] theorem State.setSeq_job (s : State) (q : Nat) (x : KvSeq) : (s.setSeq q x).job = s.job := rfl
@[simp] theorem State.setSeq_jobNext (s : State) (q : Nat) (x : KvSeq) : (s.setSeq q x).jobNext = s.jobNext := rfl
@[simp] theorem State.setSeq_out (s : State) (q : Nat) (x : KvSeq) : (s.setSeq q x).out = s.out := rfl
@[simp] theorem State.setSeq_sys (s : State) (q : Nat) (x : KvSeq) : (s.setSeq q x).sys = s.sys := rfl
@[simp] theorem State.setSeq_pwr (s : State) (q : Nat) (x : KvSeq) : (s.setSeq q x).pwr = s.pwr := rfl
@[simp] theorem State.setSeq_clu (s : State) (q : Nat) (x : KvSeq) : (s.setSeq q x).clu = s.clu := rfl
@[simp] theorem State.setSeq_sch (s : State) (q : Nat) (x : KvSeq) : (s.setSeq q x).sch = s.sch := rfl
@[simp] theorem State.setSeq_lnk (s : State) (q : Nat) (x : KvSeq) : (s.setSeq q x).lnk = s.lnk := rfl
@[simp] theorem State.setSeq_dma (s : State) (q : Nat) (x : KvSeq) : (s.setSeq q x).dma = s.dma := rfl
@[simp] theorem State.setSeq_sds (s : State) (q : Nat) (x : KvSeq) : (s.setSeq q x).sds = s.sds := rfl
@[simp] theorem State.setSeq_eth (s : State) (q : Nat) (x : KvSeq) : (s.setSeq q x).eth = s.eth := rfl
@[simp] theorem State.setSeq_pcie (s : State) (q : Nat) (x : KvSeq) : (s.setSeq q x).pcie = s.pcie := rfl

/-! ### `State.setPage` -/

@[simp] theorem State.setPage_now (s : State) (i : Nat) (x : KvPage) : (s.setPage i x).now = s.now := rfl
@[simp] theorem State.setPage_pending (s : State) (i : Nat) (x : KvPage) : (s.setPage i x).pending = s.pending := rfl
@[simp] theorem State.setPage_regs (s : State) (i : Nat) (x : KvPage) : (s.setPage i x).regs = s.regs := rfl
@[simp] theorem State.setPage_active (s : State) (i : Nat) (x : KvPage) : (s.setPage i x).active = s.active := rfl
@[simp] theorem State.setPage_live (s : State) (i : Nat) (x : KvPage) : (s.setPage i x).live = s.live := rfl
@[simp] theorem State.setPage_mem (s : State) (i : Nat) (x : KvPage) : (s.setPage i x).mem = s.mem := rfl
@[simp] theorem State.setPage_poison (s : State) (i : Nat) (x : KvPage) : (s.setPage i x).poison = s.poison := rfl
@[simp] theorem State.setPage_errs (s : State) (i : Nat) (x : KvPage) : (s.setPage i x).errs = s.errs := rfl
@[simp] theorem State.setPage_free (s : State) (i : Nat) (x : KvPage) : (s.setPage i x).free = s.free := rfl
@[simp] theorem State.setPage_resp (s : State) (i : Nat) (x : KvPage) : (s.setPage i x).resp = s.resp := rfl
@[simp] theorem State.setPage_evqSeq (s : State) (i : Nat) (x : KvPage) : (s.setPage i x).evqSeq = s.evqSeq := rfl
@[simp] theorem State.setPage_tb (s : State) (i : Nat) (x : KvPage) : (s.setPage i x).tb = s.tb := rfl
@[simp] theorem State.setPage_memu (s : State) (i : Nat) (x : KvPage) : (s.setPage i x).memu = s.memu := rfl
@[simp] theorem State.setPage_stp (s : State) (i : Nat) (x : KvPage) : (s.setPage i x).stp = s.stp := rfl
@[simp] theorem State.setPage_follow (s : State) (i : Nat) (x : KvPage) : (s.setPage i x).follow = s.follow := rfl
@[simp] theorem State.setPage_ejt (s : State) (i : Nat) (x : KvPage) : (s.setPage i x).ejt = s.ejt := rfl
@[simp] theorem State.setPage_field (s : State) (i : Nat) (x : KvPage) : (s.setPage i x).field = s.field := rfl
@[simp] theorem State.setPage_merge (s : State) (i : Nat) (x : KvPage) : (s.setPage i x).merge = s.merge := rfl
@[simp] theorem State.setPage_hlt (s : State) (i : Nat) (x : KvPage) : (s.setPage i x).hlt = s.hlt := rfl
@[simp] theorem State.setPage_opt (s : State) (i : Nat) (x : KvPage) : (s.setPage i x).opt = s.opt := rfl
@[simp] theorem State.setPage_kvc (s : State) (i : Nat) (x : KvPage) : (s.setPage i x).kvc = { s.kvc with pages := Store.put {} s.kvc.pages i x } := rfl
@[simp] theorem State.setPage_cam (s : State) (i : Nat) (x : KvPage) : (s.setPage i x).cam = s.cam := rfl
@[simp] theorem State.setPage_tan (s : State) (i : Nat) (x : KvPage) : (s.setPage i x).tan = s.tan := rfl
@[simp] theorem State.setPage_clm (s : State) (i : Nat) (x : KvPage) : (s.setPage i x).clm = s.clm := rfl
@[simp] theorem State.setPage_job (s : State) (i : Nat) (x : KvPage) : (s.setPage i x).job = s.job := rfl
@[simp] theorem State.setPage_jobNext (s : State) (i : Nat) (x : KvPage) : (s.setPage i x).jobNext = s.jobNext := rfl
@[simp] theorem State.setPage_out (s : State) (i : Nat) (x : KvPage) : (s.setPage i x).out = s.out := rfl
@[simp] theorem State.setPage_sys (s : State) (i : Nat) (x : KvPage) : (s.setPage i x).sys = s.sys := rfl
@[simp] theorem State.setPage_pwr (s : State) (i : Nat) (x : KvPage) : (s.setPage i x).pwr = s.pwr := rfl
@[simp] theorem State.setPage_clu (s : State) (i : Nat) (x : KvPage) : (s.setPage i x).clu = s.clu := rfl
@[simp] theorem State.setPage_sch (s : State) (i : Nat) (x : KvPage) : (s.setPage i x).sch = s.sch := rfl
@[simp] theorem State.setPage_lnk (s : State) (i : Nat) (x : KvPage) : (s.setPage i x).lnk = s.lnk := rfl
@[simp] theorem State.setPage_dma (s : State) (i : Nat) (x : KvPage) : (s.setPage i x).dma = s.dma := rfl
@[simp] theorem State.setPage_sds (s : State) (i : Nat) (x : KvPage) : (s.setPage i x).sds = s.sds := rfl
@[simp] theorem State.setPage_eth (s : State) (i : Nat) (x : KvPage) : (s.setPage i x).eth = s.eth := rfl
@[simp] theorem State.setPage_pcie (s : State) (i : Nat) (x : KvPage) : (s.setPage i x).pcie = s.pcie := rfl

/-! ### `State.setSds` -/

@[simp] theorem State.setSds_now (s : State) (m : Nat) (x : Sds) : (s.setSds m x).now = s.now := rfl
@[simp] theorem State.setSds_pending (s : State) (m : Nat) (x : Sds) : (s.setSds m x).pending = s.pending := rfl
@[simp] theorem State.setSds_regs (s : State) (m : Nat) (x : Sds) : (s.setSds m x).regs = s.regs := rfl
@[simp] theorem State.setSds_active (s : State) (m : Nat) (x : Sds) : (s.setSds m x).active = s.active := rfl
@[simp] theorem State.setSds_live (s : State) (m : Nat) (x : Sds) : (s.setSds m x).live = s.live := rfl
@[simp] theorem State.setSds_mem (s : State) (m : Nat) (x : Sds) : (s.setSds m x).mem = s.mem := rfl
@[simp] theorem State.setSds_poison (s : State) (m : Nat) (x : Sds) : (s.setSds m x).poison = s.poison := rfl
@[simp] theorem State.setSds_errs (s : State) (m : Nat) (x : Sds) : (s.setSds m x).errs = s.errs := rfl
@[simp] theorem State.setSds_free (s : State) (m : Nat) (x : Sds) : (s.setSds m x).free = s.free := rfl
@[simp] theorem State.setSds_resp (s : State) (m : Nat) (x : Sds) : (s.setSds m x).resp = s.resp := rfl
@[simp] theorem State.setSds_evqSeq (s : State) (m : Nat) (x : Sds) : (s.setSds m x).evqSeq = s.evqSeq := rfl
@[simp] theorem State.setSds_tb (s : State) (m : Nat) (x : Sds) : (s.setSds m x).tb = s.tb := rfl
@[simp] theorem State.setSds_memu (s : State) (m : Nat) (x : Sds) : (s.setSds m x).memu = s.memu := rfl
@[simp] theorem State.setSds_stp (s : State) (m : Nat) (x : Sds) : (s.setSds m x).stp = s.stp := rfl
@[simp] theorem State.setSds_follow (s : State) (m : Nat) (x : Sds) : (s.setSds m x).follow = s.follow := rfl
@[simp] theorem State.setSds_ejt (s : State) (m : Nat) (x : Sds) : (s.setSds m x).ejt = s.ejt := rfl
@[simp] theorem State.setSds_field (s : State) (m : Nat) (x : Sds) : (s.setSds m x).field = s.field := rfl
@[simp] theorem State.setSds_merge (s : State) (m : Nat) (x : Sds) : (s.setSds m x).merge = s.merge := rfl
@[simp] theorem State.setSds_hlt (s : State) (m : Nat) (x : Sds) : (s.setSds m x).hlt = s.hlt := rfl
@[simp] theorem State.setSds_opt (s : State) (m : Nat) (x : Sds) : (s.setSds m x).opt = s.opt := rfl
@[simp] theorem State.setSds_kvc (s : State) (m : Nat) (x : Sds) : (s.setSds m x).kvc = s.kvc := rfl
@[simp] theorem State.setSds_cam (s : State) (m : Nat) (x : Sds) : (s.setSds m x).cam = s.cam := rfl
@[simp] theorem State.setSds_tan (s : State) (m : Nat) (x : Sds) : (s.setSds m x).tan = s.tan := rfl
@[simp] theorem State.setSds_clm (s : State) (m : Nat) (x : Sds) : (s.setSds m x).clm = s.clm := rfl
@[simp] theorem State.setSds_job (s : State) (m : Nat) (x : Sds) : (s.setSds m x).job = s.job := rfl
@[simp] theorem State.setSds_jobNext (s : State) (m : Nat) (x : Sds) : (s.setSds m x).jobNext = s.jobNext := rfl
@[simp] theorem State.setSds_out (s : State) (m : Nat) (x : Sds) : (s.setSds m x).out = s.out := rfl
@[simp] theorem State.setSds_sys (s : State) (m : Nat) (x : Sds) : (s.setSds m x).sys = s.sys := rfl
@[simp] theorem State.setSds_pwr (s : State) (m : Nat) (x : Sds) : (s.setSds m x).pwr = s.pwr := rfl
@[simp] theorem State.setSds_clu (s : State) (m : Nat) (x : Sds) : (s.setSds m x).clu = s.clu := rfl
@[simp] theorem State.setSds_sch (s : State) (m : Nat) (x : Sds) : (s.setSds m x).sch = s.sch := rfl
@[simp] theorem State.setSds_lnk (s : State) (m : Nat) (x : Sds) : (s.setSds m x).lnk = s.lnk := rfl
@[simp] theorem State.setSds_dma (s : State) (m : Nat) (x : Sds) : (s.setSds m x).dma = s.dma := rfl
@[simp] theorem State.setSds_sds (s : State) (m : Nat) (x : Sds) : (s.setSds m x).sds = Store.put {} s.sds m x := rfl
@[simp] theorem State.setSds_eth (s : State) (m : Nat) (x : Sds) : (s.setSds m x).eth = s.eth := rfl
@[simp] theorem State.setSds_pcie (s : State) (m : Nat) (x : Sds) : (s.setSds m x).pcie = s.pcie := rfl

/-! ### `State.send` -/

@[simp] theorem State.send_now (s : State) (o : Out) : (s.send o).now = s.now := rfl
@[simp] theorem State.send_pending (s : State) (o : Out) : (s.send o).pending = s.pending := rfl
@[simp] theorem State.send_regs (s : State) (o : Out) : (s.send o).regs = s.regs := rfl
@[simp] theorem State.send_active (s : State) (o : Out) : (s.send o).active = s.active := rfl
@[simp] theorem State.send_live (s : State) (o : Out) : (s.send o).live = s.live := rfl
@[simp] theorem State.send_mem (s : State) (o : Out) : (s.send o).mem = s.mem := rfl
@[simp] theorem State.send_poison (s : State) (o : Out) : (s.send o).poison = s.poison := rfl
@[simp] theorem State.send_errs (s : State) (o : Out) : (s.send o).errs = s.errs := rfl
@[simp] theorem State.send_free (s : State) (o : Out) : (s.send o).free = s.free := rfl
@[simp] theorem State.send_resp (s : State) (o : Out) : (s.send o).resp = s.resp := rfl
@[simp] theorem State.send_evqSeq (s : State) (o : Out) : (s.send o).evqSeq = s.evqSeq := rfl
@[simp] theorem State.send_tb (s : State) (o : Out) : (s.send o).tb = s.tb := rfl
@[simp] theorem State.send_memu (s : State) (o : Out) : (s.send o).memu = s.memu := rfl
@[simp] theorem State.send_stp (s : State) (o : Out) : (s.send o).stp = s.stp := rfl
@[simp] theorem State.send_follow (s : State) (o : Out) : (s.send o).follow = s.follow := rfl
@[simp] theorem State.send_ejt (s : State) (o : Out) : (s.send o).ejt = s.ejt := rfl
@[simp] theorem State.send_field (s : State) (o : Out) : (s.send o).field = s.field := rfl
@[simp] theorem State.send_merge (s : State) (o : Out) : (s.send o).merge = s.merge := rfl
@[simp] theorem State.send_hlt (s : State) (o : Out) : (s.send o).hlt = s.hlt := rfl
@[simp] theorem State.send_opt (s : State) (o : Out) : (s.send o).opt = s.opt := rfl
@[simp] theorem State.send_kvc (s : State) (o : Out) : (s.send o).kvc = s.kvc := rfl
@[simp] theorem State.send_cam (s : State) (o : Out) : (s.send o).cam = s.cam := rfl
@[simp] theorem State.send_tan (s : State) (o : Out) : (s.send o).tan = s.tan := rfl
@[simp] theorem State.send_clm (s : State) (o : Out) : (s.send o).clm = s.clm := rfl
@[simp] theorem State.send_job (s : State) (o : Out) : (s.send o).job = s.job := rfl
@[simp] theorem State.send_jobNext (s : State) (o : Out) : (s.send o).jobNext = s.jobNext := rfl
@[simp] theorem State.send_out (s : State) (o : Out) : (s.send o).out = o :: s.out := rfl
@[simp] theorem State.send_sys (s : State) (o : Out) : (s.send o).sys = s.sys := rfl
@[simp] theorem State.send_pwr (s : State) (o : Out) : (s.send o).pwr = s.pwr := rfl
@[simp] theorem State.send_clu (s : State) (o : Out) : (s.send o).clu = s.clu := rfl
@[simp] theorem State.send_sch (s : State) (o : Out) : (s.send o).sch = s.sch := rfl
@[simp] theorem State.send_lnk (s : State) (o : Out) : (s.send o).lnk = s.lnk := rfl
@[simp] theorem State.send_dma (s : State) (o : Out) : (s.send o).dma = s.dma := rfl
@[simp] theorem State.send_sds (s : State) (o : Out) : (s.send o).sds = s.sds := rfl
@[simp] theorem State.send_eth (s : State) (o : Out) : (s.send o).eth = s.eth := rfl
@[simp] theorem State.send_pcie (s : State) (o : Out) : (s.send o).pcie = s.pcie := rfl

/-! ### `State.setLnk` -/

@[simp] theorem State.setLnk_now (s : State) (x : Link) : (s.setLnk x).now = s.now := rfl
@[simp] theorem State.setLnk_pending (s : State) (x : Link) : (s.setLnk x).pending = s.pending := rfl
@[simp] theorem State.setLnk_regs (s : State) (x : Link) : (s.setLnk x).regs = s.regs := rfl
@[simp] theorem State.setLnk_active (s : State) (x : Link) : (s.setLnk x).active = s.active := rfl
@[simp] theorem State.setLnk_live (s : State) (x : Link) : (s.setLnk x).live = s.live := rfl
@[simp] theorem State.setLnk_mem (s : State) (x : Link) : (s.setLnk x).mem = s.mem := rfl
@[simp] theorem State.setLnk_poison (s : State) (x : Link) : (s.setLnk x).poison = s.poison := rfl
@[simp] theorem State.setLnk_errs (s : State) (x : Link) : (s.setLnk x).errs = s.errs := rfl
@[simp] theorem State.setLnk_free (s : State) (x : Link) : (s.setLnk x).free = s.free := rfl
@[simp] theorem State.setLnk_resp (s : State) (x : Link) : (s.setLnk x).resp = s.resp := rfl
@[simp] theorem State.setLnk_evqSeq (s : State) (x : Link) : (s.setLnk x).evqSeq = s.evqSeq := rfl
@[simp] theorem State.setLnk_tb (s : State) (x : Link) : (s.setLnk x).tb = s.tb := rfl
@[simp] theorem State.setLnk_memu (s : State) (x : Link) : (s.setLnk x).memu = s.memu := rfl
@[simp] theorem State.setLnk_stp (s : State) (x : Link) : (s.setLnk x).stp = s.stp := rfl
@[simp] theorem State.setLnk_follow (s : State) (x : Link) : (s.setLnk x).follow = s.follow := rfl
@[simp] theorem State.setLnk_ejt (s : State) (x : Link) : (s.setLnk x).ejt = s.ejt := rfl
@[simp] theorem State.setLnk_field (s : State) (x : Link) : (s.setLnk x).field = s.field := rfl
@[simp] theorem State.setLnk_merge (s : State) (x : Link) : (s.setLnk x).merge = s.merge := rfl
@[simp] theorem State.setLnk_hlt (s : State) (x : Link) : (s.setLnk x).hlt = s.hlt := rfl
@[simp] theorem State.setLnk_opt (s : State) (x : Link) : (s.setLnk x).opt = s.opt := rfl
@[simp] theorem State.setLnk_kvc (s : State) (x : Link) : (s.setLnk x).kvc = s.kvc := rfl
@[simp] theorem State.setLnk_cam (s : State) (x : Link) : (s.setLnk x).cam = s.cam := rfl
@[simp] theorem State.setLnk_tan (s : State) (x : Link) : (s.setLnk x).tan = s.tan := rfl
@[simp] theorem State.setLnk_clm (s : State) (x : Link) : (s.setLnk x).clm = s.clm := rfl
@[simp] theorem State.setLnk_job (s : State) (x : Link) : (s.setLnk x).job = s.job := rfl
@[simp] theorem State.setLnk_jobNext (s : State) (x : Link) : (s.setLnk x).jobNext = s.jobNext := rfl
@[simp] theorem State.setLnk_out (s : State) (x : Link) : (s.setLnk x).out = s.out := rfl
@[simp] theorem State.setLnk_sys (s : State) (x : Link) : (s.setLnk x).sys = s.sys := rfl
@[simp] theorem State.setLnk_pwr (s : State) (x : Link) : (s.setLnk x).pwr = s.pwr := rfl
@[simp] theorem State.setLnk_clu (s : State) (x : Link) : (s.setLnk x).clu = s.clu := rfl
@[simp] theorem State.setLnk_sch (s : State) (x : Link) : (s.setLnk x).sch = s.sch := rfl
@[simp] theorem State.setLnk_lnk (s : State) (x : Link) : (s.setLnk x).lnk = x := rfl
@[simp] theorem State.setLnk_dma (s : State) (x : Link) : (s.setLnk x).dma = s.dma := rfl
@[simp] theorem State.setLnk_sds (s : State) (x : Link) : (s.setLnk x).sds = s.sds := rfl
@[simp] theorem State.setLnk_eth (s : State) (x : Link) : (s.setLnk x).eth = s.eth := rfl
@[simp] theorem State.setLnk_pcie (s : State) (x : Link) : (s.setLnk x).pcie = s.pcie := rfl

/-! ### `State.openBytes` -/

@[simp] theorem State.openBytes_now (s : State) (k a n : Nat) : (s.openBytes k a n).now = s.now := rfl
@[simp] theorem State.openBytes_pending (s : State) (k a n : Nat) : (s.openBytes k a n).pending = s.pending := rfl
@[simp] theorem State.openBytes_regs (s : State) (k a n : Nat) : (s.openBytes k a n).regs = s.regs := rfl
@[simp] theorem State.openBytes_active (s : State) (k a n : Nat) : (s.openBytes k a n).active = s.active := rfl
@[simp] theorem State.openBytes_live (s : State) (k a n : Nat) : (s.openBytes k a n).live = s.live := rfl
@[simp] theorem State.openBytes_mem (s : State) (k a n : Nat) : (s.openBytes k a n).mem = memPuts s.mem a ((List.range n).map (fun j => (Config.freeByte k j).toNat)) := rfl
@[simp] theorem State.openBytes_poison (s : State) (k a n : Nat) : (s.openBytes k a n).poison = s.poison := rfl
@[simp] theorem State.openBytes_errs (s : State) (k a n : Nat) : (s.openBytes k a n).errs = s.errs := rfl
@[simp] theorem State.openBytes_free (s : State) (k a n : Nat) : (s.openBytes k a n).free = s.free := rfl
@[simp] theorem State.openBytes_resp (s : State) (k a n : Nat) : (s.openBytes k a n).resp = s.resp := rfl
@[simp] theorem State.openBytes_evqSeq (s : State) (k a n : Nat) : (s.openBytes k a n).evqSeq = s.evqSeq := rfl
@[simp] theorem State.openBytes_tb (s : State) (k a n : Nat) : (s.openBytes k a n).tb = s.tb := rfl
@[simp] theorem State.openBytes_memu (s : State) (k a n : Nat) : (s.openBytes k a n).memu = s.memu := rfl
@[simp] theorem State.openBytes_stp (s : State) (k a n : Nat) : (s.openBytes k a n).stp = s.stp := rfl
@[simp] theorem State.openBytes_follow (s : State) (k a n : Nat) : (s.openBytes k a n).follow = s.follow := rfl
@[simp] theorem State.openBytes_ejt (s : State) (k a n : Nat) : (s.openBytes k a n).ejt = s.ejt := rfl
@[simp] theorem State.openBytes_field (s : State) (k a n : Nat) : (s.openBytes k a n).field = s.field := rfl
@[simp] theorem State.openBytes_merge (s : State) (k a n : Nat) : (s.openBytes k a n).merge = s.merge := rfl
@[simp] theorem State.openBytes_hlt (s : State) (k a n : Nat) : (s.openBytes k a n).hlt = s.hlt := rfl
@[simp] theorem State.openBytes_opt (s : State) (k a n : Nat) : (s.openBytes k a n).opt = s.opt := rfl
@[simp] theorem State.openBytes_kvc (s : State) (k a n : Nat) : (s.openBytes k a n).kvc = s.kvc := rfl
@[simp] theorem State.openBytes_cam (s : State) (k a n : Nat) : (s.openBytes k a n).cam = s.cam := rfl
@[simp] theorem State.openBytes_tan (s : State) (k a n : Nat) : (s.openBytes k a n).tan = s.tan := rfl
@[simp] theorem State.openBytes_clm (s : State) (k a n : Nat) : (s.openBytes k a n).clm = s.clm := rfl
@[simp] theorem State.openBytes_job (s : State) (k a n : Nat) : (s.openBytes k a n).job = s.job := rfl
@[simp] theorem State.openBytes_jobNext (s : State) (k a n : Nat) : (s.openBytes k a n).jobNext = s.jobNext := rfl
@[simp] theorem State.openBytes_out (s : State) (k a n : Nat) : (s.openBytes k a n).out = s.out := rfl
@[simp] theorem State.openBytes_sys (s : State) (k a n : Nat) : (s.openBytes k a n).sys = s.sys := rfl
@[simp] theorem State.openBytes_pwr (s : State) (k a n : Nat) : (s.openBytes k a n).pwr = s.pwr := rfl
@[simp] theorem State.openBytes_clu (s : State) (k a n : Nat) : (s.openBytes k a n).clu = s.clu := rfl
@[simp] theorem State.openBytes_sch (s : State) (k a n : Nat) : (s.openBytes k a n).sch = s.sch := rfl
@[simp] theorem State.openBytes_lnk (s : State) (k a n : Nat) : (s.openBytes k a n).lnk = s.lnk := rfl
@[simp] theorem State.openBytes_dma (s : State) (k a n : Nat) : (s.openBytes k a n).dma = s.dma := rfl
@[simp] theorem State.openBytes_sds (s : State) (k a n : Nat) : (s.openBytes k a n).sds = s.sds := rfl
@[simp] theorem State.openBytes_eth (s : State) (k a n : Nat) : (s.openBytes k a n).eth = s.eth := rfl
@[simp] theorem State.openBytes_pcie (s : State) (k a n : Nat) : (s.openBytes k a n).pcie = s.pcie := rfl

/-! ### `State.setSys` -/

@[simp] theorem State.setSys_now (s : State) (x : Sys) : (s.setSys x).now = s.now := rfl
@[simp] theorem State.setSys_pending (s : State) (x : Sys) : (s.setSys x).pending = s.pending := rfl
@[simp] theorem State.setSys_regs (s : State) (x : Sys) : (s.setSys x).regs = s.regs := rfl
@[simp] theorem State.setSys_active (s : State) (x : Sys) : (s.setSys x).active = s.active := rfl
@[simp] theorem State.setSys_live (s : State) (x : Sys) : (s.setSys x).live = s.live := rfl
@[simp] theorem State.setSys_mem (s : State) (x : Sys) : (s.setSys x).mem = s.mem := rfl
@[simp] theorem State.setSys_poison (s : State) (x : Sys) : (s.setSys x).poison = s.poison := rfl
@[simp] theorem State.setSys_errs (s : State) (x : Sys) : (s.setSys x).errs = s.errs := rfl
@[simp] theorem State.setSys_free (s : State) (x : Sys) : (s.setSys x).free = s.free := rfl
@[simp] theorem State.setSys_resp (s : State) (x : Sys) : (s.setSys x).resp = s.resp := rfl
@[simp] theorem State.setSys_evqSeq (s : State) (x : Sys) : (s.setSys x).evqSeq = s.evqSeq := rfl
@[simp] theorem State.setSys_tb (s : State) (x : Sys) : (s.setSys x).tb = s.tb := rfl
@[simp] theorem State.setSys_memu (s : State) (x : Sys) : (s.setSys x).memu = s.memu := rfl
@[simp] theorem State.setSys_stp (s : State) (x : Sys) : (s.setSys x).stp = s.stp := rfl
@[simp] theorem State.setSys_follow (s : State) (x : Sys) : (s.setSys x).follow = s.follow := rfl
@[simp] theorem State.setSys_ejt (s : State) (x : Sys) : (s.setSys x).ejt = s.ejt := rfl
@[simp] theorem State.setSys_field (s : State) (x : Sys) : (s.setSys x).field = s.field := rfl
@[simp] theorem State.setSys_merge (s : State) (x : Sys) : (s.setSys x).merge = s.merge := rfl
@[simp] theorem State.setSys_hlt (s : State) (x : Sys) : (s.setSys x).hlt = s.hlt := rfl
@[simp] theorem State.setSys_opt (s : State) (x : Sys) : (s.setSys x).opt = s.opt := rfl
@[simp] theorem State.setSys_kvc (s : State) (x : Sys) : (s.setSys x).kvc = s.kvc := rfl
@[simp] theorem State.setSys_cam (s : State) (x : Sys) : (s.setSys x).cam = s.cam := rfl
@[simp] theorem State.setSys_tan (s : State) (x : Sys) : (s.setSys x).tan = s.tan := rfl
@[simp] theorem State.setSys_clm (s : State) (x : Sys) : (s.setSys x).clm = s.clm := rfl
@[simp] theorem State.setSys_job (s : State) (x : Sys) : (s.setSys x).job = s.job := rfl
@[simp] theorem State.setSys_jobNext (s : State) (x : Sys) : (s.setSys x).jobNext = s.jobNext := rfl
@[simp] theorem State.setSys_out (s : State) (x : Sys) : (s.setSys x).out = s.out := rfl
@[simp] theorem State.setSys_sys (s : State) (x : Sys) : (s.setSys x).sys = x := rfl
@[simp] theorem State.setSys_pwr (s : State) (x : Sys) : (s.setSys x).pwr = s.pwr := rfl
@[simp] theorem State.setSys_clu (s : State) (x : Sys) : (s.setSys x).clu = s.clu := rfl
@[simp] theorem State.setSys_sch (s : State) (x : Sys) : (s.setSys x).sch = s.sch := rfl
@[simp] theorem State.setSys_lnk (s : State) (x : Sys) : (s.setSys x).lnk = s.lnk := rfl
@[simp] theorem State.setSys_dma (s : State) (x : Sys) : (s.setSys x).dma = s.dma := rfl
@[simp] theorem State.setSys_sds (s : State) (x : Sys) : (s.setSys x).sds = s.sds := rfl
@[simp] theorem State.setSys_eth (s : State) (x : Sys) : (s.setSys x).eth = s.eth := rfl
@[simp] theorem State.setSys_pcie (s : State) (x : Sys) : (s.setSys x).pcie = s.pcie := rfl

/-! ### `State.wr` -/

@[simp] theorem State.wr_now (s : State) (b : Nat) (f : Fld) (n : Nat) : (s.wr b f n).now = s.now := rfl
@[simp] theorem State.wr_pending (s : State) (b : Nat) (f : Fld) (n : Nat) : (s.wr b f n).pending = s.pending := rfl
@[simp] theorem State.wr_regs (s : State) (b : Nat) (f : Fld) (n : Nat) : (s.wr b f n).regs = Store.put (BitVec.ofNat 32 f.rst) s.regs (fkey b f) (BitVec.ofNat 32 (n % 2 ^ f.w)) := rfl
@[simp] theorem State.wr_active (s : State) (b : Nat) (f : Fld) (n : Nat) : (s.wr b f n).active = s.active := rfl
@[simp] theorem State.wr_live (s : State) (b : Nat) (f : Fld) (n : Nat) : (s.wr b f n).live = s.live := rfl
@[simp] theorem State.wr_mem (s : State) (b : Nat) (f : Fld) (n : Nat) : (s.wr b f n).mem = s.mem := rfl
@[simp] theorem State.wr_poison (s : State) (b : Nat) (f : Fld) (n : Nat) : (s.wr b f n).poison = s.poison := rfl
@[simp] theorem State.wr_errs (s : State) (b : Nat) (f : Fld) (n : Nat) : (s.wr b f n).errs = s.errs := rfl
@[simp] theorem State.wr_free (s : State) (b : Nat) (f : Fld) (n : Nat) : (s.wr b f n).free = s.free := rfl
@[simp] theorem State.wr_resp (s : State) (b : Nat) (f : Fld) (n : Nat) : (s.wr b f n).resp = s.resp := rfl
@[simp] theorem State.wr_evqSeq (s : State) (b : Nat) (f : Fld) (n : Nat) : (s.wr b f n).evqSeq = s.evqSeq := rfl
@[simp] theorem State.wr_tb (s : State) (b : Nat) (f : Fld) (n : Nat) : (s.wr b f n).tb = s.tb := rfl
@[simp] theorem State.wr_memu (s : State) (b : Nat) (f : Fld) (n : Nat) : (s.wr b f n).memu = s.memu := rfl
@[simp] theorem State.wr_stp (s : State) (b : Nat) (f : Fld) (n : Nat) : (s.wr b f n).stp = s.stp := rfl
@[simp] theorem State.wr_follow (s : State) (b : Nat) (f : Fld) (n : Nat) : (s.wr b f n).follow = s.follow := rfl
@[simp] theorem State.wr_ejt (s : State) (b : Nat) (f : Fld) (n : Nat) : (s.wr b f n).ejt = s.ejt := rfl
@[simp] theorem State.wr_field (s : State) (b : Nat) (f : Fld) (n : Nat) : (s.wr b f n).field = s.field := rfl
@[simp] theorem State.wr_merge (s : State) (b : Nat) (f : Fld) (n : Nat) : (s.wr b f n).merge = s.merge := rfl
@[simp] theorem State.wr_hlt (s : State) (b : Nat) (f : Fld) (n : Nat) : (s.wr b f n).hlt = s.hlt := rfl
@[simp] theorem State.wr_opt (s : State) (b : Nat) (f : Fld) (n : Nat) : (s.wr b f n).opt = s.opt := rfl
@[simp] theorem State.wr_kvc (s : State) (b : Nat) (f : Fld) (n : Nat) : (s.wr b f n).kvc = s.kvc := rfl
@[simp] theorem State.wr_cam (s : State) (b : Nat) (f : Fld) (n : Nat) : (s.wr b f n).cam = s.cam := rfl
@[simp] theorem State.wr_tan (s : State) (b : Nat) (f : Fld) (n : Nat) : (s.wr b f n).tan = s.tan := rfl
@[simp] theorem State.wr_clm (s : State) (b : Nat) (f : Fld) (n : Nat) : (s.wr b f n).clm = s.clm := rfl
@[simp] theorem State.wr_job (s : State) (b : Nat) (f : Fld) (n : Nat) : (s.wr b f n).job = s.job := rfl
@[simp] theorem State.wr_jobNext (s : State) (b : Nat) (f : Fld) (n : Nat) : (s.wr b f n).jobNext = s.jobNext := rfl
@[simp] theorem State.wr_out (s : State) (b : Nat) (f : Fld) (n : Nat) : (s.wr b f n).out = s.out := rfl
@[simp] theorem State.wr_sys (s : State) (b : Nat) (f : Fld) (n : Nat) : (s.wr b f n).sys = s.sys := rfl
@[simp] theorem State.wr_pwr (s : State) (b : Nat) (f : Fld) (n : Nat) : (s.wr b f n).pwr = s.pwr := rfl
@[simp] theorem State.wr_clu (s : State) (b : Nat) (f : Fld) (n : Nat) : (s.wr b f n).clu = s.clu := rfl
@[simp] theorem State.wr_sch (s : State) (b : Nat) (f : Fld) (n : Nat) : (s.wr b f n).sch = s.sch := rfl
@[simp] theorem State.wr_lnk (s : State) (b : Nat) (f : Fld) (n : Nat) : (s.wr b f n).lnk = s.lnk := rfl
@[simp] theorem State.wr_dma (s : State) (b : Nat) (f : Fld) (n : Nat) : (s.wr b f n).dma = s.dma := rfl
@[simp] theorem State.wr_sds (s : State) (b : Nat) (f : Fld) (n : Nat) : (s.wr b f n).sds = s.sds := rfl
@[simp] theorem State.wr_eth (s : State) (b : Nat) (f : Fld) (n : Nat) : (s.wr b f n).eth = s.eth := rfl
@[simp] theorem State.wr_pcie (s : State) (b : Nat) (f : Fld) (n : Nat) : (s.wr b f n).pcie = s.pcie := rfl

/-! ### `State.wrAct` -/

@[simp] theorem State.wrAct_now (s : State) (b : Nat) (f : Fld) (n : Nat) : (s.wrAct b f n).now = s.now := rfl
@[simp] theorem State.wrAct_pending (s : State) (b : Nat) (f : Fld) (n : Nat) : (s.wrAct b f n).pending = s.pending := rfl
@[simp] theorem State.wrAct_regs (s : State) (b : Nat) (f : Fld) (n : Nat) : (s.wrAct b f n).regs = s.regs := rfl
@[simp] theorem State.wrAct_active (s : State) (b : Nat) (f : Fld) (n : Nat) : (s.wrAct b f n).active = Store.put (BitVec.ofNat 32 f.rst) s.active (fkey b f) (BitVec.ofNat 32 (n % 2 ^ f.w)) := rfl
@[simp] theorem State.wrAct_live (s : State) (b : Nat) (f : Fld) (n : Nat) : (s.wrAct b f n).live = s.live := rfl
@[simp] theorem State.wrAct_mem (s : State) (b : Nat) (f : Fld) (n : Nat) : (s.wrAct b f n).mem = s.mem := rfl
@[simp] theorem State.wrAct_poison (s : State) (b : Nat) (f : Fld) (n : Nat) : (s.wrAct b f n).poison = s.poison := rfl
@[simp] theorem State.wrAct_errs (s : State) (b : Nat) (f : Fld) (n : Nat) : (s.wrAct b f n).errs = s.errs := rfl
@[simp] theorem State.wrAct_free (s : State) (b : Nat) (f : Fld) (n : Nat) : (s.wrAct b f n).free = s.free := rfl
@[simp] theorem State.wrAct_resp (s : State) (b : Nat) (f : Fld) (n : Nat) : (s.wrAct b f n).resp = s.resp := rfl
@[simp] theorem State.wrAct_evqSeq (s : State) (b : Nat) (f : Fld) (n : Nat) : (s.wrAct b f n).evqSeq = s.evqSeq := rfl
@[simp] theorem State.wrAct_tb (s : State) (b : Nat) (f : Fld) (n : Nat) : (s.wrAct b f n).tb = s.tb := rfl
@[simp] theorem State.wrAct_memu (s : State) (b : Nat) (f : Fld) (n : Nat) : (s.wrAct b f n).memu = s.memu := rfl
@[simp] theorem State.wrAct_stp (s : State) (b : Nat) (f : Fld) (n : Nat) : (s.wrAct b f n).stp = s.stp := rfl
@[simp] theorem State.wrAct_follow (s : State) (b : Nat) (f : Fld) (n : Nat) : (s.wrAct b f n).follow = s.follow := rfl
@[simp] theorem State.wrAct_ejt (s : State) (b : Nat) (f : Fld) (n : Nat) : (s.wrAct b f n).ejt = s.ejt := rfl
@[simp] theorem State.wrAct_field (s : State) (b : Nat) (f : Fld) (n : Nat) : (s.wrAct b f n).field = s.field := rfl
@[simp] theorem State.wrAct_merge (s : State) (b : Nat) (f : Fld) (n : Nat) : (s.wrAct b f n).merge = s.merge := rfl
@[simp] theorem State.wrAct_hlt (s : State) (b : Nat) (f : Fld) (n : Nat) : (s.wrAct b f n).hlt = s.hlt := rfl
@[simp] theorem State.wrAct_opt (s : State) (b : Nat) (f : Fld) (n : Nat) : (s.wrAct b f n).opt = s.opt := rfl
@[simp] theorem State.wrAct_kvc (s : State) (b : Nat) (f : Fld) (n : Nat) : (s.wrAct b f n).kvc = s.kvc := rfl
@[simp] theorem State.wrAct_cam (s : State) (b : Nat) (f : Fld) (n : Nat) : (s.wrAct b f n).cam = s.cam := rfl
@[simp] theorem State.wrAct_tan (s : State) (b : Nat) (f : Fld) (n : Nat) : (s.wrAct b f n).tan = s.tan := rfl
@[simp] theorem State.wrAct_clm (s : State) (b : Nat) (f : Fld) (n : Nat) : (s.wrAct b f n).clm = s.clm := rfl
@[simp] theorem State.wrAct_job (s : State) (b : Nat) (f : Fld) (n : Nat) : (s.wrAct b f n).job = s.job := rfl
@[simp] theorem State.wrAct_jobNext (s : State) (b : Nat) (f : Fld) (n : Nat) : (s.wrAct b f n).jobNext = s.jobNext := rfl
@[simp] theorem State.wrAct_out (s : State) (b : Nat) (f : Fld) (n : Nat) : (s.wrAct b f n).out = s.out := rfl
@[simp] theorem State.wrAct_sys (s : State) (b : Nat) (f : Fld) (n : Nat) : (s.wrAct b f n).sys = s.sys := rfl
@[simp] theorem State.wrAct_pwr (s : State) (b : Nat) (f : Fld) (n : Nat) : (s.wrAct b f n).pwr = s.pwr := rfl
@[simp] theorem State.wrAct_clu (s : State) (b : Nat) (f : Fld) (n : Nat) : (s.wrAct b f n).clu = s.clu := rfl
@[simp] theorem State.wrAct_sch (s : State) (b : Nat) (f : Fld) (n : Nat) : (s.wrAct b f n).sch = s.sch := rfl
@[simp] theorem State.wrAct_lnk (s : State) (b : Nat) (f : Fld) (n : Nat) : (s.wrAct b f n).lnk = s.lnk := rfl
@[simp] theorem State.wrAct_dma (s : State) (b : Nat) (f : Fld) (n : Nat) : (s.wrAct b f n).dma = s.dma := rfl
@[simp] theorem State.wrAct_sds (s : State) (b : Nat) (f : Fld) (n : Nat) : (s.wrAct b f n).sds = s.sds := rfl
@[simp] theorem State.wrAct_eth (s : State) (b : Nat) (f : Fld) (n : Nat) : (s.wrAct b f n).eth = s.eth := rfl
@[simp] theorem State.wrAct_pcie (s : State) (b : Nat) (f : Fld) (n : Nat) : (s.wrAct b f n).pcie = s.pcie := rfl

/-! ### `State.setCnt` -/

@[simp] theorem State.setCnt_now (s : State) (b : Nat) (f : Fld) (n : Nat) : (s.setCnt b f n).now = s.now := rfl
@[simp] theorem State.setCnt_pending (s : State) (b : Nat) (f : Fld) (n : Nat) : (s.setCnt b f n).pending = s.pending := rfl
@[simp] theorem State.setCnt_regs (s : State) (b : Nat) (f : Fld) (n : Nat) : (s.setCnt b f n).regs = s.regs := rfl
@[simp] theorem State.setCnt_active (s : State) (b : Nat) (f : Fld) (n : Nat) : (s.setCnt b f n).active = s.active := rfl
@[simp] theorem State.setCnt_live (s : State) (b : Nat) (f : Fld) (n : Nat) : (s.setCnt b f n).live = Store.put 0#32 s.live (fkey b f) (BitVec.ofNat 32 n) := rfl
@[simp] theorem State.setCnt_mem (s : State) (b : Nat) (f : Fld) (n : Nat) : (s.setCnt b f n).mem = s.mem := rfl
@[simp] theorem State.setCnt_poison (s : State) (b : Nat) (f : Fld) (n : Nat) : (s.setCnt b f n).poison = s.poison := rfl
@[simp] theorem State.setCnt_errs (s : State) (b : Nat) (f : Fld) (n : Nat) : (s.setCnt b f n).errs = s.errs := rfl
@[simp] theorem State.setCnt_free (s : State) (b : Nat) (f : Fld) (n : Nat) : (s.setCnt b f n).free = s.free := rfl
@[simp] theorem State.setCnt_resp (s : State) (b : Nat) (f : Fld) (n : Nat) : (s.setCnt b f n).resp = s.resp := rfl
@[simp] theorem State.setCnt_evqSeq (s : State) (b : Nat) (f : Fld) (n : Nat) : (s.setCnt b f n).evqSeq = s.evqSeq := rfl
@[simp] theorem State.setCnt_tb (s : State) (b : Nat) (f : Fld) (n : Nat) : (s.setCnt b f n).tb = s.tb := rfl
@[simp] theorem State.setCnt_memu (s : State) (b : Nat) (f : Fld) (n : Nat) : (s.setCnt b f n).memu = s.memu := rfl
@[simp] theorem State.setCnt_stp (s : State) (b : Nat) (f : Fld) (n : Nat) : (s.setCnt b f n).stp = s.stp := rfl
@[simp] theorem State.setCnt_follow (s : State) (b : Nat) (f : Fld) (n : Nat) : (s.setCnt b f n).follow = s.follow := rfl
@[simp] theorem State.setCnt_ejt (s : State) (b : Nat) (f : Fld) (n : Nat) : (s.setCnt b f n).ejt = s.ejt := rfl
@[simp] theorem State.setCnt_field (s : State) (b : Nat) (f : Fld) (n : Nat) : (s.setCnt b f n).field = s.field := rfl
@[simp] theorem State.setCnt_merge (s : State) (b : Nat) (f : Fld) (n : Nat) : (s.setCnt b f n).merge = s.merge := rfl
@[simp] theorem State.setCnt_hlt (s : State) (b : Nat) (f : Fld) (n : Nat) : (s.setCnt b f n).hlt = s.hlt := rfl
@[simp] theorem State.setCnt_opt (s : State) (b : Nat) (f : Fld) (n : Nat) : (s.setCnt b f n).opt = s.opt := rfl
@[simp] theorem State.setCnt_kvc (s : State) (b : Nat) (f : Fld) (n : Nat) : (s.setCnt b f n).kvc = s.kvc := rfl
@[simp] theorem State.setCnt_cam (s : State) (b : Nat) (f : Fld) (n : Nat) : (s.setCnt b f n).cam = s.cam := rfl
@[simp] theorem State.setCnt_tan (s : State) (b : Nat) (f : Fld) (n : Nat) : (s.setCnt b f n).tan = s.tan := rfl
@[simp] theorem State.setCnt_clm (s : State) (b : Nat) (f : Fld) (n : Nat) : (s.setCnt b f n).clm = s.clm := rfl
@[simp] theorem State.setCnt_job (s : State) (b : Nat) (f : Fld) (n : Nat) : (s.setCnt b f n).job = s.job := rfl
@[simp] theorem State.setCnt_jobNext (s : State) (b : Nat) (f : Fld) (n : Nat) : (s.setCnt b f n).jobNext = s.jobNext := rfl
@[simp] theorem State.setCnt_out (s : State) (b : Nat) (f : Fld) (n : Nat) : (s.setCnt b f n).out = s.out := rfl
@[simp] theorem State.setCnt_sys (s : State) (b : Nat) (f : Fld) (n : Nat) : (s.setCnt b f n).sys = s.sys := rfl
@[simp] theorem State.setCnt_pwr (s : State) (b : Nat) (f : Fld) (n : Nat) : (s.setCnt b f n).pwr = s.pwr := rfl
@[simp] theorem State.setCnt_clu (s : State) (b : Nat) (f : Fld) (n : Nat) : (s.setCnt b f n).clu = s.clu := rfl
@[simp] theorem State.setCnt_sch (s : State) (b : Nat) (f : Fld) (n : Nat) : (s.setCnt b f n).sch = s.sch := rfl
@[simp] theorem State.setCnt_lnk (s : State) (b : Nat) (f : Fld) (n : Nat) : (s.setCnt b f n).lnk = s.lnk := rfl
@[simp] theorem State.setCnt_dma (s : State) (b : Nat) (f : Fld) (n : Nat) : (s.setCnt b f n).dma = s.dma := rfl
@[simp] theorem State.setCnt_sds (s : State) (b : Nat) (f : Fld) (n : Nat) : (s.setCnt b f n).sds = s.sds := rfl
@[simp] theorem State.setCnt_eth (s : State) (b : Nat) (f : Fld) (n : Nat) : (s.setCnt b f n).eth = s.eth := rfl
@[simp] theorem State.setCnt_pcie (s : State) (b : Nat) (f : Fld) (n : Nat) : (s.setCnt b f n).pcie = s.pcie := rfl

/-! ### `State.mark` -/

@[simp] theorem State.mark_now (s : State) (k : Nat) : (s.mark k).now = s.now := rfl
@[simp] theorem State.mark_pending (s : State) (k : Nat) : (s.mark k).pending = s.pending := rfl
@[simp] theorem State.mark_regs (s : State) (k : Nat) : (s.mark k).regs = s.regs := rfl
@[simp] theorem State.mark_active (s : State) (k : Nat) : (s.mark k).active = s.active := rfl
@[simp] theorem State.mark_live (s : State) (k : Nat) : (s.mark k).live = s.live := rfl
@[simp] theorem State.mark_mem (s : State) (k : Nat) : (s.mark k).mem = s.mem := rfl
@[simp] theorem State.mark_poison (s : State) (k : Nat) : (s.mark k).poison = s.poison := rfl
@[simp] theorem State.mark_errs (s : State) (k : Nat) : (s.mark k).errs = s.errs := rfl
@[simp] theorem State.mark_free (s : State) (k : Nat) : (s.mark k).free = s.free := rfl
@[simp] theorem State.mark_resp (s : State) (k : Nat) : (s.mark k).resp = s.resp := rfl
@[simp] theorem State.mark_evqSeq (s : State) (k : Nat) : (s.mark k).evqSeq = s.evqSeq := rfl
@[simp] theorem State.mark_tb (s : State) (k : Nat) : (s.mark k).tb = s.tb := rfl
@[simp] theorem State.mark_memu (s : State) (k : Nat) : (s.mark k).memu = s.memu := rfl
@[simp] theorem State.mark_stp (s : State) (k : Nat) : (s.mark k).stp = s.stp := rfl
@[simp] theorem State.mark_follow (s : State) (k : Nat) : (s.mark k).follow = s.follow := rfl
@[simp] theorem State.mark_ejt (s : State) (k : Nat) : (s.mark k).ejt = s.ejt := rfl
@[simp] theorem State.mark_field (s : State) (k : Nat) : (s.mark k).field = s.field := rfl
@[simp] theorem State.mark_merge (s : State) (k : Nat) : (s.mark k).merge = s.merge := rfl
@[simp] theorem State.mark_hlt (s : State) (k : Nat) : (s.mark k).hlt = s.hlt := rfl
@[simp] theorem State.mark_opt (s : State) (k : Nat) : (s.mark k).opt = s.opt := rfl
@[simp] theorem State.mark_kvc (s : State) (k : Nat) : (s.mark k).kvc = s.kvc := rfl
@[simp] theorem State.mark_cam (s : State) (k : Nat) : (s.mark k).cam = s.cam := rfl
@[simp] theorem State.mark_tan (s : State) (k : Nat) : (s.mark k).tan = s.tan := rfl
@[simp] theorem State.mark_clm (s : State) (k : Nat) : (s.mark k).clm = s.clm := rfl
@[simp] theorem State.mark_job (s : State) (k : Nat) : (s.mark k).job = s.job := rfl
@[simp] theorem State.mark_jobNext (s : State) (k : Nat) : (s.mark k).jobNext = s.jobNext := rfl
@[simp] theorem State.mark_out (s : State) (k : Nat) : (s.mark k).out = s.out := rfl
@[simp] theorem State.mark_sys (s : State) (k : Nat) : (s.mark k).sys = { s.sys with lastAt := Store.put 0 s.sys.lastAt k (s.now + 1) } := rfl
@[simp] theorem State.mark_pwr (s : State) (k : Nat) : (s.mark k).pwr = s.pwr := rfl
@[simp] theorem State.mark_clu (s : State) (k : Nat) : (s.mark k).clu = s.clu := rfl
@[simp] theorem State.mark_sch (s : State) (k : Nat) : (s.mark k).sch = s.sch := rfl
@[simp] theorem State.mark_lnk (s : State) (k : Nat) : (s.mark k).lnk = s.lnk := rfl
@[simp] theorem State.mark_dma (s : State) (k : Nat) : (s.mark k).dma = s.dma := rfl
@[simp] theorem State.mark_sds (s : State) (k : Nat) : (s.mark k).sds = s.sds := rfl
@[simp] theorem State.mark_eth (s : State) (k : Nat) : (s.mark k).eth = s.eth := rfl
@[simp] theorem State.mark_pcie (s : State) (k : Nat) : (s.mark k).pcie = s.pcie := rfl

/-! ### `State.setPoison` -/

@[simp] theorem State.setPoison_now (s : State) (u : Nat) : (s.setPoison u).now = s.now := rfl
@[simp] theorem State.setPoison_pending (s : State) (u : Nat) : (s.setPoison u).pending = s.pending := rfl
@[simp] theorem State.setPoison_regs (s : State) (u : Nat) : (s.setPoison u).regs = s.regs := rfl
@[simp] theorem State.setPoison_active (s : State) (u : Nat) : (s.setPoison u).active = s.active := rfl
@[simp] theorem State.setPoison_live (s : State) (u : Nat) : (s.setPoison u).live = s.live := rfl
@[simp] theorem State.setPoison_mem (s : State) (u : Nat) : (s.setPoison u).mem = s.mem := rfl
@[simp] theorem State.setPoison_poison (s : State) (u : Nat) : (s.setPoison u).poison = Store.put false s.poison u true := rfl
@[simp] theorem State.setPoison_errs (s : State) (u : Nat) : (s.setPoison u).errs = s.errs := rfl
@[simp] theorem State.setPoison_free (s : State) (u : Nat) : (s.setPoison u).free = s.free := rfl
@[simp] theorem State.setPoison_resp (s : State) (u : Nat) : (s.setPoison u).resp = s.resp := rfl
@[simp] theorem State.setPoison_evqSeq (s : State) (u : Nat) : (s.setPoison u).evqSeq = s.evqSeq := rfl
@[simp] theorem State.setPoison_tb (s : State) (u : Nat) : (s.setPoison u).tb = s.tb := rfl
@[simp] theorem State.setPoison_memu (s : State) (u : Nat) : (s.setPoison u).memu = s.memu := rfl
@[simp] theorem State.setPoison_stp (s : State) (u : Nat) : (s.setPoison u).stp = s.stp := rfl
@[simp] theorem State.setPoison_follow (s : State) (u : Nat) : (s.setPoison u).follow = s.follow := rfl
@[simp] theorem State.setPoison_ejt (s : State) (u : Nat) : (s.setPoison u).ejt = s.ejt := rfl
@[simp] theorem State.setPoison_field (s : State) (u : Nat) : (s.setPoison u).field = s.field := rfl
@[simp] theorem State.setPoison_merge (s : State) (u : Nat) : (s.setPoison u).merge = s.merge := rfl
@[simp] theorem State.setPoison_hlt (s : State) (u : Nat) : (s.setPoison u).hlt = s.hlt := rfl
@[simp] theorem State.setPoison_opt (s : State) (u : Nat) : (s.setPoison u).opt = s.opt := rfl
@[simp] theorem State.setPoison_kvc (s : State) (u : Nat) : (s.setPoison u).kvc = s.kvc := rfl
@[simp] theorem State.setPoison_cam (s : State) (u : Nat) : (s.setPoison u).cam = s.cam := rfl
@[simp] theorem State.setPoison_tan (s : State) (u : Nat) : (s.setPoison u).tan = s.tan := rfl
@[simp] theorem State.setPoison_clm (s : State) (u : Nat) : (s.setPoison u).clm = s.clm := rfl
@[simp] theorem State.setPoison_job (s : State) (u : Nat) : (s.setPoison u).job = s.job := rfl
@[simp] theorem State.setPoison_jobNext (s : State) (u : Nat) : (s.setPoison u).jobNext = s.jobNext := rfl
@[simp] theorem State.setPoison_out (s : State) (u : Nat) : (s.setPoison u).out = s.out := rfl
@[simp] theorem State.setPoison_sys (s : State) (u : Nat) : (s.setPoison u).sys = s.sys := rfl
@[simp] theorem State.setPoison_pwr (s : State) (u : Nat) : (s.setPoison u).pwr = s.pwr := rfl
@[simp] theorem State.setPoison_clu (s : State) (u : Nat) : (s.setPoison u).clu = s.clu := rfl
@[simp] theorem State.setPoison_sch (s : State) (u : Nat) : (s.setPoison u).sch = s.sch := rfl
@[simp] theorem State.setPoison_lnk (s : State) (u : Nat) : (s.setPoison u).lnk = s.lnk := rfl
@[simp] theorem State.setPoison_dma (s : State) (u : Nat) : (s.setPoison u).dma = s.dma := rfl
@[simp] theorem State.setPoison_sds (s : State) (u : Nat) : (s.setPoison u).sds = s.sds := rfl
@[simp] theorem State.setPoison_eth (s : State) (u : Nat) : (s.setPoison u).eth = s.eth := rfl
@[simp] theorem State.setPoison_pcie (s : State) (u : Nat) : (s.setPoison u).pcie = s.pcie := rfl

/-! ### `State.answer` -/

@[simp] theorem State.answer_now (s : State) (status : Nat) (data : List Nat) : (s.answer status data).now = s.now := rfl
@[simp] theorem State.answer_pending (s : State) (status : Nat) (data : List Nat) : (s.answer status data).pending = s.pending := rfl
@[simp] theorem State.answer_regs (s : State) (status : Nat) (data : List Nat) : (s.answer status data).regs = s.regs := rfl
@[simp] theorem State.answer_active (s : State) (status : Nat) (data : List Nat) : (s.answer status data).active = s.active := rfl
@[simp] theorem State.answer_live (s : State) (status : Nat) (data : List Nat) : (s.answer status data).live = s.live := rfl
@[simp] theorem State.answer_mem (s : State) (status : Nat) (data : List Nat) : (s.answer status data).mem = s.mem := rfl
@[simp] theorem State.answer_poison (s : State) (status : Nat) (data : List Nat) : (s.answer status data).poison = s.poison := rfl
@[simp] theorem State.answer_errs (s : State) (status : Nat) (data : List Nat) : (s.answer status data).errs = s.errs := rfl
@[simp] theorem State.answer_free (s : State) (status : Nat) (data : List Nat) : (s.answer status data).free = s.free := rfl
@[simp] theorem State.answer_resp (s : State) (status : Nat) (data : List Nat) : (s.answer status data).resp = { status := status, data := data, poisoned := false } := rfl
@[simp] theorem State.answer_evqSeq (s : State) (status : Nat) (data : List Nat) : (s.answer status data).evqSeq = s.evqSeq := rfl
@[simp] theorem State.answer_tb (s : State) (status : Nat) (data : List Nat) : (s.answer status data).tb = s.tb := rfl
@[simp] theorem State.answer_memu (s : State) (status : Nat) (data : List Nat) : (s.answer status data).memu = s.memu := rfl
@[simp] theorem State.answer_stp (s : State) (status : Nat) (data : List Nat) : (s.answer status data).stp = s.stp := rfl
@[simp] theorem State.answer_follow (s : State) (status : Nat) (data : List Nat) : (s.answer status data).follow = s.follow := rfl
@[simp] theorem State.answer_ejt (s : State) (status : Nat) (data : List Nat) : (s.answer status data).ejt = s.ejt := rfl
@[simp] theorem State.answer_field (s : State) (status : Nat) (data : List Nat) : (s.answer status data).field = s.field := rfl
@[simp] theorem State.answer_merge (s : State) (status : Nat) (data : List Nat) : (s.answer status data).merge = s.merge := rfl
@[simp] theorem State.answer_hlt (s : State) (status : Nat) (data : List Nat) : (s.answer status data).hlt = s.hlt := rfl
@[simp] theorem State.answer_opt (s : State) (status : Nat) (data : List Nat) : (s.answer status data).opt = s.opt := rfl
@[simp] theorem State.answer_kvc (s : State) (status : Nat) (data : List Nat) : (s.answer status data).kvc = s.kvc := rfl
@[simp] theorem State.answer_cam (s : State) (status : Nat) (data : List Nat) : (s.answer status data).cam = s.cam := rfl
@[simp] theorem State.answer_tan (s : State) (status : Nat) (data : List Nat) : (s.answer status data).tan = s.tan := rfl
@[simp] theorem State.answer_clm (s : State) (status : Nat) (data : List Nat) : (s.answer status data).clm = s.clm := rfl
@[simp] theorem State.answer_job (s : State) (status : Nat) (data : List Nat) : (s.answer status data).job = s.job := rfl
@[simp] theorem State.answer_jobNext (s : State) (status : Nat) (data : List Nat) : (s.answer status data).jobNext = s.jobNext := rfl
@[simp] theorem State.answer_out (s : State) (status : Nat) (data : List Nat) : (s.answer status data).out = s.out := rfl
@[simp] theorem State.answer_sys (s : State) (status : Nat) (data : List Nat) : (s.answer status data).sys = s.sys := rfl
@[simp] theorem State.answer_pwr (s : State) (status : Nat) (data : List Nat) : (s.answer status data).pwr = s.pwr := rfl
@[simp] theorem State.answer_clu (s : State) (status : Nat) (data : List Nat) : (s.answer status data).clu = s.clu := rfl
@[simp] theorem State.answer_sch (s : State) (status : Nat) (data : List Nat) : (s.answer status data).sch = s.sch := rfl
@[simp] theorem State.answer_lnk (s : State) (status : Nat) (data : List Nat) : (s.answer status data).lnk = s.lnk := rfl
@[simp] theorem State.answer_dma (s : State) (status : Nat) (data : List Nat) : (s.answer status data).dma = s.dma := rfl
@[simp] theorem State.answer_sds (s : State) (status : Nat) (data : List Nat) : (s.answer status data).sds = s.sds := rfl
@[simp] theorem State.answer_eth (s : State) (status : Nat) (data : List Nat) : (s.answer status data).eth = s.eth := rfl
@[simp] theorem State.answer_pcie (s : State) (status : Nat) (data : List Nat) : (s.answer status data).pcie = s.pcie := rfl

/-! ### `State.setErr` -/

@[simp] theorem State.setErr_now (s : State) (u e : Nat) : (s.setErr u e).now = s.now := rfl
@[simp] theorem State.setErr_pending (s : State) (u e : Nat) : (s.setErr u e).pending = s.pending := rfl
@[simp] theorem State.setErr_regs (s : State) (u e : Nat) : (s.setErr u e).regs = s.regs := rfl
@[simp] theorem State.setErr_active (s : State) (u e : Nat) : (s.setErr u e).active = s.active := rfl
@[simp] theorem State.setErr_live (s : State) (u e : Nat) : (s.setErr u e).live = s.live := rfl
@[simp] theorem State.setErr_mem (s : State) (u e : Nat) : (s.setErr u e).mem = s.mem := rfl
@[simp] theorem State.setErr_poison (s : State) (u e : Nat) : (s.setErr u e).poison = s.poison := rfl
@[simp] theorem State.setErr_errs (s : State) (u e : Nat) : (s.setErr u e).errs = Store.put 0 s.errs u e := rfl
@[simp] theorem State.setErr_free (s : State) (u e : Nat) : (s.setErr u e).free = s.free := rfl
@[simp] theorem State.setErr_resp (s : State) (u e : Nat) : (s.setErr u e).resp = s.resp := rfl
@[simp] theorem State.setErr_evqSeq (s : State) (u e : Nat) : (s.setErr u e).evqSeq = s.evqSeq := rfl
@[simp] theorem State.setErr_tb (s : State) (u e : Nat) : (s.setErr u e).tb = s.tb := rfl
@[simp] theorem State.setErr_memu (s : State) (u e : Nat) : (s.setErr u e).memu = s.memu := rfl
@[simp] theorem State.setErr_stp (s : State) (u e : Nat) : (s.setErr u e).stp = s.stp := rfl
@[simp] theorem State.setErr_follow (s : State) (u e : Nat) : (s.setErr u e).follow = s.follow := rfl
@[simp] theorem State.setErr_ejt (s : State) (u e : Nat) : (s.setErr u e).ejt = s.ejt := rfl
@[simp] theorem State.setErr_field (s : State) (u e : Nat) : (s.setErr u e).field = s.field := rfl
@[simp] theorem State.setErr_merge (s : State) (u e : Nat) : (s.setErr u e).merge = s.merge := rfl
@[simp] theorem State.setErr_hlt (s : State) (u e : Nat) : (s.setErr u e).hlt = s.hlt := rfl
@[simp] theorem State.setErr_opt (s : State) (u e : Nat) : (s.setErr u e).opt = s.opt := rfl
@[simp] theorem State.setErr_kvc (s : State) (u e : Nat) : (s.setErr u e).kvc = s.kvc := rfl
@[simp] theorem State.setErr_cam (s : State) (u e : Nat) : (s.setErr u e).cam = s.cam := rfl
@[simp] theorem State.setErr_tan (s : State) (u e : Nat) : (s.setErr u e).tan = s.tan := rfl
@[simp] theorem State.setErr_clm (s : State) (u e : Nat) : (s.setErr u e).clm = s.clm := rfl
@[simp] theorem State.setErr_job (s : State) (u e : Nat) : (s.setErr u e).job = s.job := rfl
@[simp] theorem State.setErr_jobNext (s : State) (u e : Nat) : (s.setErr u e).jobNext = s.jobNext := rfl
@[simp] theorem State.setErr_out (s : State) (u e : Nat) : (s.setErr u e).out = s.out := rfl
@[simp] theorem State.setErr_sys (s : State) (u e : Nat) : (s.setErr u e).sys = s.sys := rfl
@[simp] theorem State.setErr_pwr (s : State) (u e : Nat) : (s.setErr u e).pwr = s.pwr := rfl
@[simp] theorem State.setErr_clu (s : State) (u e : Nat) : (s.setErr u e).clu = s.clu := rfl
@[simp] theorem State.setErr_sch (s : State) (u e : Nat) : (s.setErr u e).sch = s.sch := rfl
@[simp] theorem State.setErr_lnk (s : State) (u e : Nat) : (s.setErr u e).lnk = s.lnk := rfl
@[simp] theorem State.setErr_dma (s : State) (u e : Nat) : (s.setErr u e).dma = s.dma := rfl
@[simp] theorem State.setErr_sds (s : State) (u e : Nat) : (s.setErr u e).sds = s.sds := rfl
@[simp] theorem State.setErr_eth (s : State) (u e : Nat) : (s.setErr u e).eth = s.eth := rfl
@[simp] theorem State.setErr_pcie (s : State) (u e : Nat) : (s.setErr u e).pcie = s.pcie := rfl

/-! ### `State.setTb` -/

@[simp] theorem State.setTb_now (s : State) (x : TimeBase) : (s.setTb x).now = s.now := rfl
@[simp] theorem State.setTb_pending (s : State) (x : TimeBase) : (s.setTb x).pending = s.pending := rfl
@[simp] theorem State.setTb_regs (s : State) (x : TimeBase) : (s.setTb x).regs = s.regs := rfl
@[simp] theorem State.setTb_active (s : State) (x : TimeBase) : (s.setTb x).active = s.active := rfl
@[simp] theorem State.setTb_live (s : State) (x : TimeBase) : (s.setTb x).live = s.live := rfl
@[simp] theorem State.setTb_mem (s : State) (x : TimeBase) : (s.setTb x).mem = s.mem := rfl
@[simp] theorem State.setTb_poison (s : State) (x : TimeBase) : (s.setTb x).poison = s.poison := rfl
@[simp] theorem State.setTb_errs (s : State) (x : TimeBase) : (s.setTb x).errs = s.errs := rfl
@[simp] theorem State.setTb_free (s : State) (x : TimeBase) : (s.setTb x).free = s.free := rfl
@[simp] theorem State.setTb_resp (s : State) (x : TimeBase) : (s.setTb x).resp = s.resp := rfl
@[simp] theorem State.setTb_evqSeq (s : State) (x : TimeBase) : (s.setTb x).evqSeq = s.evqSeq := rfl
@[simp] theorem State.setTb_tb (s : State) (x : TimeBase) : (s.setTb x).tb = x := rfl
@[simp] theorem State.setTb_memu (s : State) (x : TimeBase) : (s.setTb x).memu = s.memu := rfl
@[simp] theorem State.setTb_stp (s : State) (x : TimeBase) : (s.setTb x).stp = s.stp := rfl
@[simp] theorem State.setTb_follow (s : State) (x : TimeBase) : (s.setTb x).follow = s.follow := rfl
@[simp] theorem State.setTb_ejt (s : State) (x : TimeBase) : (s.setTb x).ejt = s.ejt := rfl
@[simp] theorem State.setTb_field (s : State) (x : TimeBase) : (s.setTb x).field = s.field := rfl
@[simp] theorem State.setTb_merge (s : State) (x : TimeBase) : (s.setTb x).merge = s.merge := rfl
@[simp] theorem State.setTb_hlt (s : State) (x : TimeBase) : (s.setTb x).hlt = s.hlt := rfl
@[simp] theorem State.setTb_opt (s : State) (x : TimeBase) : (s.setTb x).opt = s.opt := rfl
@[simp] theorem State.setTb_kvc (s : State) (x : TimeBase) : (s.setTb x).kvc = s.kvc := rfl
@[simp] theorem State.setTb_cam (s : State) (x : TimeBase) : (s.setTb x).cam = s.cam := rfl
@[simp] theorem State.setTb_tan (s : State) (x : TimeBase) : (s.setTb x).tan = s.tan := rfl
@[simp] theorem State.setTb_clm (s : State) (x : TimeBase) : (s.setTb x).clm = s.clm := rfl
@[simp] theorem State.setTb_job (s : State) (x : TimeBase) : (s.setTb x).job = s.job := rfl
@[simp] theorem State.setTb_jobNext (s : State) (x : TimeBase) : (s.setTb x).jobNext = s.jobNext := rfl
@[simp] theorem State.setTb_out (s : State) (x : TimeBase) : (s.setTb x).out = s.out := rfl
@[simp] theorem State.setTb_sys (s : State) (x : TimeBase) : (s.setTb x).sys = s.sys := rfl
@[simp] theorem State.setTb_pwr (s : State) (x : TimeBase) : (s.setTb x).pwr = s.pwr := rfl
@[simp] theorem State.setTb_clu (s : State) (x : TimeBase) : (s.setTb x).clu = s.clu := rfl
@[simp] theorem State.setTb_sch (s : State) (x : TimeBase) : (s.setTb x).sch = s.sch := rfl
@[simp] theorem State.setTb_lnk (s : State) (x : TimeBase) : (s.setTb x).lnk = s.lnk := rfl
@[simp] theorem State.setTb_dma (s : State) (x : TimeBase) : (s.setTb x).dma = s.dma := rfl
@[simp] theorem State.setTb_sds (s : State) (x : TimeBase) : (s.setTb x).sds = s.sds := rfl
@[simp] theorem State.setTb_eth (s : State) (x : TimeBase) : (s.setTb x).eth = s.eth := rfl
@[simp] theorem State.setTb_pcie (s : State) (x : TimeBase) : (s.setTb x).pcie = s.pcie := rfl

/-! ### `State.setStp` -/

@[simp] theorem State.setStp_now (s : State) (p : Nat) (x : StpPort) : (s.setStp p x).now = s.now := rfl
@[simp] theorem State.setStp_pending (s : State) (p : Nat) (x : StpPort) : (s.setStp p x).pending = s.pending := rfl
@[simp] theorem State.setStp_regs (s : State) (p : Nat) (x : StpPort) : (s.setStp p x).regs = s.regs := rfl
@[simp] theorem State.setStp_active (s : State) (p : Nat) (x : StpPort) : (s.setStp p x).active = s.active := rfl
@[simp] theorem State.setStp_live (s : State) (p : Nat) (x : StpPort) : (s.setStp p x).live = s.live := rfl
@[simp] theorem State.setStp_mem (s : State) (p : Nat) (x : StpPort) : (s.setStp p x).mem = s.mem := rfl
@[simp] theorem State.setStp_poison (s : State) (p : Nat) (x : StpPort) : (s.setStp p x).poison = s.poison := rfl
@[simp] theorem State.setStp_errs (s : State) (p : Nat) (x : StpPort) : (s.setStp p x).errs = s.errs := rfl
@[simp] theorem State.setStp_free (s : State) (p : Nat) (x : StpPort) : (s.setStp p x).free = s.free := rfl
@[simp] theorem State.setStp_resp (s : State) (p : Nat) (x : StpPort) : (s.setStp p x).resp = s.resp := rfl
@[simp] theorem State.setStp_evqSeq (s : State) (p : Nat) (x : StpPort) : (s.setStp p x).evqSeq = s.evqSeq := rfl
@[simp] theorem State.setStp_tb (s : State) (p : Nat) (x : StpPort) : (s.setStp p x).tb = s.tb := rfl
@[simp] theorem State.setStp_memu (s : State) (p : Nat) (x : StpPort) : (s.setStp p x).memu = s.memu := rfl
@[simp] theorem State.setStp_stp (s : State) (p : Nat) (x : StpPort) : (s.setStp p x).stp = Store.put {} s.stp p x := rfl
@[simp] theorem State.setStp_follow (s : State) (p : Nat) (x : StpPort) : (s.setStp p x).follow = s.follow := rfl
@[simp] theorem State.setStp_ejt (s : State) (p : Nat) (x : StpPort) : (s.setStp p x).ejt = s.ejt := rfl
@[simp] theorem State.setStp_field (s : State) (p : Nat) (x : StpPort) : (s.setStp p x).field = s.field := rfl
@[simp] theorem State.setStp_merge (s : State) (p : Nat) (x : StpPort) : (s.setStp p x).merge = s.merge := rfl
@[simp] theorem State.setStp_hlt (s : State) (p : Nat) (x : StpPort) : (s.setStp p x).hlt = s.hlt := rfl
@[simp] theorem State.setStp_opt (s : State) (p : Nat) (x : StpPort) : (s.setStp p x).opt = s.opt := rfl
@[simp] theorem State.setStp_kvc (s : State) (p : Nat) (x : StpPort) : (s.setStp p x).kvc = s.kvc := rfl
@[simp] theorem State.setStp_cam (s : State) (p : Nat) (x : StpPort) : (s.setStp p x).cam = s.cam := rfl
@[simp] theorem State.setStp_tan (s : State) (p : Nat) (x : StpPort) : (s.setStp p x).tan = s.tan := rfl
@[simp] theorem State.setStp_clm (s : State) (p : Nat) (x : StpPort) : (s.setStp p x).clm = s.clm := rfl
@[simp] theorem State.setStp_job (s : State) (p : Nat) (x : StpPort) : (s.setStp p x).job = s.job := rfl
@[simp] theorem State.setStp_jobNext (s : State) (p : Nat) (x : StpPort) : (s.setStp p x).jobNext = s.jobNext := rfl
@[simp] theorem State.setStp_out (s : State) (p : Nat) (x : StpPort) : (s.setStp p x).out = s.out := rfl
@[simp] theorem State.setStp_sys (s : State) (p : Nat) (x : StpPort) : (s.setStp p x).sys = s.sys := rfl
@[simp] theorem State.setStp_pwr (s : State) (p : Nat) (x : StpPort) : (s.setStp p x).pwr = s.pwr := rfl
@[simp] theorem State.setStp_clu (s : State) (p : Nat) (x : StpPort) : (s.setStp p x).clu = s.clu := rfl
@[simp] theorem State.setStp_sch (s : State) (p : Nat) (x : StpPort) : (s.setStp p x).sch = s.sch := rfl
@[simp] theorem State.setStp_lnk (s : State) (p : Nat) (x : StpPort) : (s.setStp p x).lnk = s.lnk := rfl
@[simp] theorem State.setStp_dma (s : State) (p : Nat) (x : StpPort) : (s.setStp p x).dma = s.dma := rfl
@[simp] theorem State.setStp_sds (s : State) (p : Nat) (x : StpPort) : (s.setStp p x).sds = s.sds := rfl
@[simp] theorem State.setStp_eth (s : State) (p : Nat) (x : StpPort) : (s.setStp p x).eth = s.eth := rfl
@[simp] theorem State.setStp_pcie (s : State) (p : Nat) (x : StpPort) : (s.setStp p x).pcie = s.pcie := rfl

/-! ### `State.setFollow` -/

@[simp] theorem State.setFollow_now (s : State) (p : Nat) (x : Follow) : (s.setFollow p x).now = s.now := rfl
@[simp] theorem State.setFollow_pending (s : State) (p : Nat) (x : Follow) : (s.setFollow p x).pending = s.pending := rfl
@[simp] theorem State.setFollow_regs (s : State) (p : Nat) (x : Follow) : (s.setFollow p x).regs = s.regs := rfl
@[simp] theorem State.setFollow_active (s : State) (p : Nat) (x : Follow) : (s.setFollow p x).active = s.active := rfl
@[simp] theorem State.setFollow_live (s : State) (p : Nat) (x : Follow) : (s.setFollow p x).live = s.live := rfl
@[simp] theorem State.setFollow_mem (s : State) (p : Nat) (x : Follow) : (s.setFollow p x).mem = s.mem := rfl
@[simp] theorem State.setFollow_poison (s : State) (p : Nat) (x : Follow) : (s.setFollow p x).poison = s.poison := rfl
@[simp] theorem State.setFollow_errs (s : State) (p : Nat) (x : Follow) : (s.setFollow p x).errs = s.errs := rfl
@[simp] theorem State.setFollow_free (s : State) (p : Nat) (x : Follow) : (s.setFollow p x).free = s.free := rfl
@[simp] theorem State.setFollow_resp (s : State) (p : Nat) (x : Follow) : (s.setFollow p x).resp = s.resp := rfl
@[simp] theorem State.setFollow_evqSeq (s : State) (p : Nat) (x : Follow) : (s.setFollow p x).evqSeq = s.evqSeq := rfl
@[simp] theorem State.setFollow_tb (s : State) (p : Nat) (x : Follow) : (s.setFollow p x).tb = s.tb := rfl
@[simp] theorem State.setFollow_memu (s : State) (p : Nat) (x : Follow) : (s.setFollow p x).memu = s.memu := rfl
@[simp] theorem State.setFollow_stp (s : State) (p : Nat) (x : Follow) : (s.setFollow p x).stp = s.stp := rfl
@[simp] theorem State.setFollow_follow (s : State) (p : Nat) (x : Follow) : (s.setFollow p x).follow = Store.put {} s.follow p x := rfl
@[simp] theorem State.setFollow_ejt (s : State) (p : Nat) (x : Follow) : (s.setFollow p x).ejt = s.ejt := rfl
@[simp] theorem State.setFollow_field (s : State) (p : Nat) (x : Follow) : (s.setFollow p x).field = s.field := rfl
@[simp] theorem State.setFollow_merge (s : State) (p : Nat) (x : Follow) : (s.setFollow p x).merge = s.merge := rfl
@[simp] theorem State.setFollow_hlt (s : State) (p : Nat) (x : Follow) : (s.setFollow p x).hlt = s.hlt := rfl
@[simp] theorem State.setFollow_opt (s : State) (p : Nat) (x : Follow) : (s.setFollow p x).opt = s.opt := rfl
@[simp] theorem State.setFollow_kvc (s : State) (p : Nat) (x : Follow) : (s.setFollow p x).kvc = s.kvc := rfl
@[simp] theorem State.setFollow_cam (s : State) (p : Nat) (x : Follow) : (s.setFollow p x).cam = s.cam := rfl
@[simp] theorem State.setFollow_tan (s : State) (p : Nat) (x : Follow) : (s.setFollow p x).tan = s.tan := rfl
@[simp] theorem State.setFollow_clm (s : State) (p : Nat) (x : Follow) : (s.setFollow p x).clm = s.clm := rfl
@[simp] theorem State.setFollow_job (s : State) (p : Nat) (x : Follow) : (s.setFollow p x).job = s.job := rfl
@[simp] theorem State.setFollow_jobNext (s : State) (p : Nat) (x : Follow) : (s.setFollow p x).jobNext = s.jobNext := rfl
@[simp] theorem State.setFollow_out (s : State) (p : Nat) (x : Follow) : (s.setFollow p x).out = s.out := rfl
@[simp] theorem State.setFollow_sys (s : State) (p : Nat) (x : Follow) : (s.setFollow p x).sys = s.sys := rfl
@[simp] theorem State.setFollow_pwr (s : State) (p : Nat) (x : Follow) : (s.setFollow p x).pwr = s.pwr := rfl
@[simp] theorem State.setFollow_clu (s : State) (p : Nat) (x : Follow) : (s.setFollow p x).clu = s.clu := rfl
@[simp] theorem State.setFollow_sch (s : State) (p : Nat) (x : Follow) : (s.setFollow p x).sch = s.sch := rfl
@[simp] theorem State.setFollow_lnk (s : State) (p : Nat) (x : Follow) : (s.setFollow p x).lnk = s.lnk := rfl
@[simp] theorem State.setFollow_dma (s : State) (p : Nat) (x : Follow) : (s.setFollow p x).dma = s.dma := rfl
@[simp] theorem State.setFollow_sds (s : State) (p : Nat) (x : Follow) : (s.setFollow p x).sds = s.sds := rfl
@[simp] theorem State.setFollow_eth (s : State) (p : Nat) (x : Follow) : (s.setFollow p x).eth = s.eth := rfl
@[simp] theorem State.setFollow_pcie (s : State) (p : Nat) (x : Follow) : (s.setFollow p x).pcie = s.pcie := rfl

/-! ### `State.setPwr` -/

@[simp] theorem State.setPwr_now (s : State) (x : Power) : (s.setPwr x).now = s.now := rfl
@[simp] theorem State.setPwr_pending (s : State) (x : Power) : (s.setPwr x).pending = s.pending := rfl
@[simp] theorem State.setPwr_regs (s : State) (x : Power) : (s.setPwr x).regs = s.regs := rfl
@[simp] theorem State.setPwr_active (s : State) (x : Power) : (s.setPwr x).active = s.active := rfl
@[simp] theorem State.setPwr_live (s : State) (x : Power) : (s.setPwr x).live = s.live := rfl
@[simp] theorem State.setPwr_mem (s : State) (x : Power) : (s.setPwr x).mem = s.mem := rfl
@[simp] theorem State.setPwr_poison (s : State) (x : Power) : (s.setPwr x).poison = s.poison := rfl
@[simp] theorem State.setPwr_errs (s : State) (x : Power) : (s.setPwr x).errs = s.errs := rfl
@[simp] theorem State.setPwr_free (s : State) (x : Power) : (s.setPwr x).free = s.free := rfl
@[simp] theorem State.setPwr_resp (s : State) (x : Power) : (s.setPwr x).resp = s.resp := rfl
@[simp] theorem State.setPwr_evqSeq (s : State) (x : Power) : (s.setPwr x).evqSeq = s.evqSeq := rfl
@[simp] theorem State.setPwr_tb (s : State) (x : Power) : (s.setPwr x).tb = s.tb := rfl
@[simp] theorem State.setPwr_memu (s : State) (x : Power) : (s.setPwr x).memu = s.memu := rfl
@[simp] theorem State.setPwr_stp (s : State) (x : Power) : (s.setPwr x).stp = s.stp := rfl
@[simp] theorem State.setPwr_follow (s : State) (x : Power) : (s.setPwr x).follow = s.follow := rfl
@[simp] theorem State.setPwr_ejt (s : State) (x : Power) : (s.setPwr x).ejt = s.ejt := rfl
@[simp] theorem State.setPwr_field (s : State) (x : Power) : (s.setPwr x).field = s.field := rfl
@[simp] theorem State.setPwr_merge (s : State) (x : Power) : (s.setPwr x).merge = s.merge := rfl
@[simp] theorem State.setPwr_hlt (s : State) (x : Power) : (s.setPwr x).hlt = s.hlt := rfl
@[simp] theorem State.setPwr_opt (s : State) (x : Power) : (s.setPwr x).opt = s.opt := rfl
@[simp] theorem State.setPwr_kvc (s : State) (x : Power) : (s.setPwr x).kvc = s.kvc := rfl
@[simp] theorem State.setPwr_cam (s : State) (x : Power) : (s.setPwr x).cam = s.cam := rfl
@[simp] theorem State.setPwr_tan (s : State) (x : Power) : (s.setPwr x).tan = s.tan := rfl
@[simp] theorem State.setPwr_clm (s : State) (x : Power) : (s.setPwr x).clm = s.clm := rfl
@[simp] theorem State.setPwr_job (s : State) (x : Power) : (s.setPwr x).job = s.job := rfl
@[simp] theorem State.setPwr_jobNext (s : State) (x : Power) : (s.setPwr x).jobNext = s.jobNext := rfl
@[simp] theorem State.setPwr_out (s : State) (x : Power) : (s.setPwr x).out = s.out := rfl
@[simp] theorem State.setPwr_sys (s : State) (x : Power) : (s.setPwr x).sys = s.sys := rfl
@[simp] theorem State.setPwr_pwr (s : State) (x : Power) : (s.setPwr x).pwr = x := rfl
@[simp] theorem State.setPwr_clu (s : State) (x : Power) : (s.setPwr x).clu = s.clu := rfl
@[simp] theorem State.setPwr_sch (s : State) (x : Power) : (s.setPwr x).sch = s.sch := rfl
@[simp] theorem State.setPwr_lnk (s : State) (x : Power) : (s.setPwr x).lnk = s.lnk := rfl
@[simp] theorem State.setPwr_dma (s : State) (x : Power) : (s.setPwr x).dma = s.dma := rfl
@[simp] theorem State.setPwr_sds (s : State) (x : Power) : (s.setPwr x).sds = s.sds := rfl
@[simp] theorem State.setPwr_eth (s : State) (x : Power) : (s.setPwr x).eth = s.eth := rfl
@[simp] theorem State.setPwr_pcie (s : State) (x : Power) : (s.setPwr x).pcie = s.pcie := rfl

/-! ### `State.setClu` -/

@[simp] theorem State.setClu_now (s : State) (c : Nat) (x : Clu) : (s.setClu c x).now = s.now := rfl
@[simp] theorem State.setClu_pending (s : State) (c : Nat) (x : Clu) : (s.setClu c x).pending = s.pending := rfl
@[simp] theorem State.setClu_regs (s : State) (c : Nat) (x : Clu) : (s.setClu c x).regs = s.regs := rfl
@[simp] theorem State.setClu_active (s : State) (c : Nat) (x : Clu) : (s.setClu c x).active = s.active := rfl
@[simp] theorem State.setClu_live (s : State) (c : Nat) (x : Clu) : (s.setClu c x).live = s.live := rfl
@[simp] theorem State.setClu_mem (s : State) (c : Nat) (x : Clu) : (s.setClu c x).mem = s.mem := rfl
@[simp] theorem State.setClu_poison (s : State) (c : Nat) (x : Clu) : (s.setClu c x).poison = s.poison := rfl
@[simp] theorem State.setClu_errs (s : State) (c : Nat) (x : Clu) : (s.setClu c x).errs = s.errs := rfl
@[simp] theorem State.setClu_free (s : State) (c : Nat) (x : Clu) : (s.setClu c x).free = s.free := rfl
@[simp] theorem State.setClu_resp (s : State) (c : Nat) (x : Clu) : (s.setClu c x).resp = s.resp := rfl
@[simp] theorem State.setClu_evqSeq (s : State) (c : Nat) (x : Clu) : (s.setClu c x).evqSeq = s.evqSeq := rfl
@[simp] theorem State.setClu_tb (s : State) (c : Nat) (x : Clu) : (s.setClu c x).tb = s.tb := rfl
@[simp] theorem State.setClu_memu (s : State) (c : Nat) (x : Clu) : (s.setClu c x).memu = s.memu := rfl
@[simp] theorem State.setClu_stp (s : State) (c : Nat) (x : Clu) : (s.setClu c x).stp = s.stp := rfl
@[simp] theorem State.setClu_follow (s : State) (c : Nat) (x : Clu) : (s.setClu c x).follow = s.follow := rfl
@[simp] theorem State.setClu_ejt (s : State) (c : Nat) (x : Clu) : (s.setClu c x).ejt = s.ejt := rfl
@[simp] theorem State.setClu_field (s : State) (c : Nat) (x : Clu) : (s.setClu c x).field = s.field := rfl
@[simp] theorem State.setClu_merge (s : State) (c : Nat) (x : Clu) : (s.setClu c x).merge = s.merge := rfl
@[simp] theorem State.setClu_hlt (s : State) (c : Nat) (x : Clu) : (s.setClu c x).hlt = s.hlt := rfl
@[simp] theorem State.setClu_opt (s : State) (c : Nat) (x : Clu) : (s.setClu c x).opt = s.opt := rfl
@[simp] theorem State.setClu_kvc (s : State) (c : Nat) (x : Clu) : (s.setClu c x).kvc = s.kvc := rfl
@[simp] theorem State.setClu_cam (s : State) (c : Nat) (x : Clu) : (s.setClu c x).cam = s.cam := rfl
@[simp] theorem State.setClu_tan (s : State) (c : Nat) (x : Clu) : (s.setClu c x).tan = s.tan := rfl
@[simp] theorem State.setClu_clm (s : State) (c : Nat) (x : Clu) : (s.setClu c x).clm = s.clm := rfl
@[simp] theorem State.setClu_job (s : State) (c : Nat) (x : Clu) : (s.setClu c x).job = s.job := rfl
@[simp] theorem State.setClu_jobNext (s : State) (c : Nat) (x : Clu) : (s.setClu c x).jobNext = s.jobNext := rfl
@[simp] theorem State.setClu_out (s : State) (c : Nat) (x : Clu) : (s.setClu c x).out = s.out := rfl
@[simp] theorem State.setClu_sys (s : State) (c : Nat) (x : Clu) : (s.setClu c x).sys = s.sys := rfl
@[simp] theorem State.setClu_pwr (s : State) (c : Nat) (x : Clu) : (s.setClu c x).pwr = s.pwr := rfl
@[simp] theorem State.setClu_clu (s : State) (c : Nat) (x : Clu) : (s.setClu c x).clu = Store.put {} s.clu c x := rfl
@[simp] theorem State.setClu_sch (s : State) (c : Nat) (x : Clu) : (s.setClu c x).sch = s.sch := rfl
@[simp] theorem State.setClu_lnk (s : State) (c : Nat) (x : Clu) : (s.setClu c x).lnk = s.lnk := rfl
@[simp] theorem State.setClu_dma (s : State) (c : Nat) (x : Clu) : (s.setClu c x).dma = s.dma := rfl
@[simp] theorem State.setClu_sds (s : State) (c : Nat) (x : Clu) : (s.setClu c x).sds = s.sds := rfl
@[simp] theorem State.setClu_eth (s : State) (c : Nat) (x : Clu) : (s.setClu c x).eth = s.eth := rfl
@[simp] theorem State.setClu_pcie (s : State) (c : Nat) (x : Clu) : (s.setClu c x).pcie = s.pcie := rfl

/-! ### `State.setTan` -/

@[simp] theorem State.setTan_now (s : State) (x : Tan) : (s.setTan x).now = s.now := rfl
@[simp] theorem State.setTan_pending (s : State) (x : Tan) : (s.setTan x).pending = s.pending := rfl
@[simp] theorem State.setTan_regs (s : State) (x : Tan) : (s.setTan x).regs = s.regs := rfl
@[simp] theorem State.setTan_active (s : State) (x : Tan) : (s.setTan x).active = s.active := rfl
@[simp] theorem State.setTan_live (s : State) (x : Tan) : (s.setTan x).live = s.live := rfl
@[simp] theorem State.setTan_mem (s : State) (x : Tan) : (s.setTan x).mem = s.mem := rfl
@[simp] theorem State.setTan_poison (s : State) (x : Tan) : (s.setTan x).poison = s.poison := rfl
@[simp] theorem State.setTan_errs (s : State) (x : Tan) : (s.setTan x).errs = s.errs := rfl
@[simp] theorem State.setTan_free (s : State) (x : Tan) : (s.setTan x).free = s.free := rfl
@[simp] theorem State.setTan_resp (s : State) (x : Tan) : (s.setTan x).resp = s.resp := rfl
@[simp] theorem State.setTan_evqSeq (s : State) (x : Tan) : (s.setTan x).evqSeq = s.evqSeq := rfl
@[simp] theorem State.setTan_tb (s : State) (x : Tan) : (s.setTan x).tb = s.tb := rfl
@[simp] theorem State.setTan_memu (s : State) (x : Tan) : (s.setTan x).memu = s.memu := rfl
@[simp] theorem State.setTan_stp (s : State) (x : Tan) : (s.setTan x).stp = s.stp := rfl
@[simp] theorem State.setTan_follow (s : State) (x : Tan) : (s.setTan x).follow = s.follow := rfl
@[simp] theorem State.setTan_ejt (s : State) (x : Tan) : (s.setTan x).ejt = s.ejt := rfl
@[simp] theorem State.setTan_field (s : State) (x : Tan) : (s.setTan x).field = s.field := rfl
@[simp] theorem State.setTan_merge (s : State) (x : Tan) : (s.setTan x).merge = s.merge := rfl
@[simp] theorem State.setTan_hlt (s : State) (x : Tan) : (s.setTan x).hlt = s.hlt := rfl
@[simp] theorem State.setTan_opt (s : State) (x : Tan) : (s.setTan x).opt = s.opt := rfl
@[simp] theorem State.setTan_kvc (s : State) (x : Tan) : (s.setTan x).kvc = s.kvc := rfl
@[simp] theorem State.setTan_cam (s : State) (x : Tan) : (s.setTan x).cam = s.cam := rfl
@[simp] theorem State.setTan_tan (s : State) (x : Tan) : (s.setTan x).tan = x := rfl
@[simp] theorem State.setTan_clm (s : State) (x : Tan) : (s.setTan x).clm = s.clm := rfl
@[simp] theorem State.setTan_job (s : State) (x : Tan) : (s.setTan x).job = s.job := rfl
@[simp] theorem State.setTan_jobNext (s : State) (x : Tan) : (s.setTan x).jobNext = s.jobNext := rfl
@[simp] theorem State.setTan_out (s : State) (x : Tan) : (s.setTan x).out = s.out := rfl
@[simp] theorem State.setTan_sys (s : State) (x : Tan) : (s.setTan x).sys = s.sys := rfl
@[simp] theorem State.setTan_pwr (s : State) (x : Tan) : (s.setTan x).pwr = s.pwr := rfl
@[simp] theorem State.setTan_clu (s : State) (x : Tan) : (s.setTan x).clu = s.clu := rfl
@[simp] theorem State.setTan_sch (s : State) (x : Tan) : (s.setTan x).sch = s.sch := rfl
@[simp] theorem State.setTan_lnk (s : State) (x : Tan) : (s.setTan x).lnk = s.lnk := rfl
@[simp] theorem State.setTan_dma (s : State) (x : Tan) : (s.setTan x).dma = s.dma := rfl
@[simp] theorem State.setTan_sds (s : State) (x : Tan) : (s.setTan x).sds = s.sds := rfl
@[simp] theorem State.setTan_eth (s : State) (x : Tan) : (s.setTan x).eth = s.eth := rfl
@[simp] theorem State.setTan_pcie (s : State) (x : Tan) : (s.setTan x).pcie = s.pcie := rfl

/-! ### Register fields and counters -/

/-- A field read after it is written: the value, cut to the field's width. -/
@[simp] theorem State.rd_wr_same (s : State) (b : Nat) (f : Fld) (n : Nat) (h : f.w ≤ 32) : (s.wr b f n).rd b f = n % 2 ^ f.w := by
  have h1 : n % 2 ^ f.w < 2 ^ 32 := lt_of_lt_of_le (Nat.mod_lt _ (by positivity)) (Nat.pow_le_pow_right (by omega) h)
  simp only [State.rd, State.wr, Store.get_put_same, BitVec.toNat_ofNat, Nat.mod_eq_of_lt h1]

/-- Another field reads as before. -/
@[simp] theorem State.rd_wr_ne (s : State) (b c : Nat) (f g : Fld) (n : Nat) (h : fkey b f ≠ fkey c g) : (s.wr b f n).rd c g = s.rd c g := by
  simp only [State.rd, State.wr, Store.get_put_ne h]

/-- A counter read after it is set. -/
@[simp] theorem State.cnt_setCnt_same (s : State) (b : Nat) (f : Fld) (n : Nat) : (s.setCnt b f n).cnt b f = n % 2 ^ 32 := by
  simp only [State.cnt, State.setCnt, Store.get_put_same, BitVec.toNat_ofNat]

/-- Another counter reads as before. -/
@[simp] theorem State.cnt_setCnt_ne (s : State) (b c : Nat) (f g : Fld) (n : Nat) (h : fkey b f ≠ fkey c g) :
    (s.setCnt b f n).cnt c g = s.cnt c g := by
  simp only [State.cnt, State.setCnt, Store.get_put_ne h]

/-- A counter is below 2^32. -/
theorem State.cnt_lt (s : State) (b : Nat) (f : Fld) : s.cnt b f < 2 ^ 32 := BitVec.isLt _

/-- A field is below 2^32. -/
theorem State.rd_lt (s : State) (b : Nat) (f : Fld) : s.rd b f < 2 ^ 32 := BitVec.isLt _

/-- A counter counts up to its largest value. -/
theorem State.cnt_inc (s : State) (b : Nat) (f : Fld) (n : Nat) : (s.inc b f n).cnt b f = satInc (s.cnt b f) n := by
  simp only [State.inc, State.cnt_setCnt_same, satInc]
  omega

/-- The module's time reaches the time given, or stays. -/
theorem State.at_now (s : State) (t : Nat) : (s.at t).now = max s.now t := by
  unfold State.at
  split <;> simp <;> omega

theorem State.at_of_le (s : State) (t : Nat) (h : t ≤ s.now) : s.at t = s := if_pos h

@[simp] theorem State.at_pending (s : State) (t : Nat) : (s.at t).pending = s.pending := by unfold State.at; split <;> rfl
@[simp] theorem State.at_regs (s : State) (t : Nat) : (s.at t).regs = s.regs := by unfold State.at; split <;> rfl
@[simp] theorem State.at_active (s : State) (t : Nat) : (s.at t).active = s.active := by unfold State.at; split <;> rfl
@[simp] theorem State.at_live (s : State) (t : Nat) : (s.at t).live = s.live := by unfold State.at; split <;> rfl
@[simp] theorem State.at_mem (s : State) (t : Nat) : (s.at t).mem = s.mem := by unfold State.at; split <;> rfl
@[simp] theorem State.at_poison (s : State) (t : Nat) : (s.at t).poison = s.poison := by unfold State.at; split <;> rfl
@[simp] theorem State.at_errs (s : State) (t : Nat) : (s.at t).errs = s.errs := by unfold State.at; split <;> rfl
@[simp] theorem State.at_free (s : State) (t : Nat) : (s.at t).free = s.free := by unfold State.at; split <;> rfl
@[simp] theorem State.at_resp (s : State) (t : Nat) : (s.at t).resp = s.resp := by unfold State.at; split <;> rfl
@[simp] theorem State.at_evqSeq (s : State) (t : Nat) : (s.at t).evqSeq = s.evqSeq := by unfold State.at; split <;> rfl
@[simp] theorem State.at_memu (s : State) (t : Nat) : (s.at t).memu = s.memu := by unfold State.at; split <;> rfl
@[simp] theorem State.at_stp (s : State) (t : Nat) : (s.at t).stp = s.stp := by unfold State.at; split <;> rfl
@[simp] theorem State.at_follow (s : State) (t : Nat) : (s.at t).follow = s.follow := by unfold State.at; split <;> rfl
@[simp] theorem State.at_ejt (s : State) (t : Nat) : (s.at t).ejt = s.ejt := by unfold State.at; split <;> rfl
@[simp] theorem State.at_field (s : State) (t : Nat) : (s.at t).field = s.field := by unfold State.at; split <;> rfl
@[simp] theorem State.at_merge (s : State) (t : Nat) : (s.at t).merge = s.merge := by unfold State.at; split <;> rfl
@[simp] theorem State.at_hlt (s : State) (t : Nat) : (s.at t).hlt = s.hlt := by unfold State.at; split <;> rfl
@[simp] theorem State.at_opt (s : State) (t : Nat) : (s.at t).opt = s.opt := by unfold State.at; split <;> rfl
@[simp] theorem State.at_kvc (s : State) (t : Nat) : (s.at t).kvc = s.kvc := by unfold State.at; split <;> rfl
@[simp] theorem State.at_cam (s : State) (t : Nat) : (s.at t).cam = s.cam := by unfold State.at; split <;> rfl
@[simp] theorem State.at_tan (s : State) (t : Nat) : (s.at t).tan = s.tan := by unfold State.at; split <;> rfl
@[simp] theorem State.at_clm (s : State) (t : Nat) : (s.at t).clm = s.clm := by unfold State.at; split <;> rfl
@[simp] theorem State.at_job (s : State) (t : Nat) : (s.at t).job = s.job := by unfold State.at; split <;> rfl
@[simp] theorem State.at_jobNext (s : State) (t : Nat) : (s.at t).jobNext = s.jobNext := by unfold State.at; split <;> rfl
@[simp] theorem State.at_out (s : State) (t : Nat) : (s.at t).out = s.out := by unfold State.at; split <;> rfl
@[simp] theorem State.at_sys (s : State) (t : Nat) : (s.at t).sys = s.sys := by unfold State.at; split <;> rfl
@[simp] theorem State.at_pwr (s : State) (t : Nat) : (s.at t).pwr = s.pwr := by unfold State.at; split <;> rfl
@[simp] theorem State.at_clu (s : State) (t : Nat) : (s.at t).clu = s.clu := by unfold State.at; split <;> rfl
@[simp] theorem State.at_sch (s : State) (t : Nat) : (s.at t).sch = s.sch := by unfold State.at; split <;> rfl
@[simp] theorem State.at_lnk (s : State) (t : Nat) : (s.at t).lnk = s.lnk := by unfold State.at; split <;> rfl
@[simp] theorem State.at_dma (s : State) (t : Nat) : (s.at t).dma = s.dma := by unfold State.at; split <;> rfl
@[simp] theorem State.at_sds (s : State) (t : Nat) : (s.at t).sds = s.sds := by unfold State.at; split <;> rfl
@[simp] theorem State.at_eth (s : State) (t : Nat) : (s.at t).eth = s.eth := by unfold State.at; split <;> rfl
@[simp] theorem State.at_pcie (s : State) (t : Nat) : (s.at t).pcie = s.pcie := by unfold State.at; split <;> rfl
@[simp] theorem State.inc_now (s : State) (b : Nat) (f : Fld) (n : Nat) : (s.inc b f n).now = s.now := rfl
@[simp] theorem State.inc_pending (s : State) (b : Nat) (f : Fld) (n : Nat) : (s.inc b f n).pending = s.pending := rfl
@[simp] theorem State.inc_regs (s : State) (b : Nat) (f : Fld) (n : Nat) : (s.inc b f n).regs = s.regs := rfl
@[simp] theorem State.inc_active (s : State) (b : Nat) (f : Fld) (n : Nat) : (s.inc b f n).active = s.active := rfl
@[simp] theorem State.inc_mem (s : State) (b : Nat) (f : Fld) (n : Nat) : (s.inc b f n).mem = s.mem := rfl
@[simp] theorem State.inc_poison (s : State) (b : Nat) (f : Fld) (n : Nat) : (s.inc b f n).poison = s.poison := rfl
@[simp] theorem State.inc_errs (s : State) (b : Nat) (f : Fld) (n : Nat) : (s.inc b f n).errs = s.errs := rfl
@[simp] theorem State.inc_free (s : State) (b : Nat) (f : Fld) (n : Nat) : (s.inc b f n).free = s.free := rfl
@[simp] theorem State.inc_resp (s : State) (b : Nat) (f : Fld) (n : Nat) : (s.inc b f n).resp = s.resp := rfl
@[simp] theorem State.inc_evqSeq (s : State) (b : Nat) (f : Fld) (n : Nat) : (s.inc b f n).evqSeq = s.evqSeq := rfl
@[simp] theorem State.inc_tb (s : State) (b : Nat) (f : Fld) (n : Nat) : (s.inc b f n).tb = s.tb := rfl
@[simp] theorem State.inc_memu (s : State) (b : Nat) (f : Fld) (n : Nat) : (s.inc b f n).memu = s.memu := rfl
@[simp] theorem State.inc_stp (s : State) (b : Nat) (f : Fld) (n : Nat) : (s.inc b f n).stp = s.stp := rfl
@[simp] theorem State.inc_follow (s : State) (b : Nat) (f : Fld) (n : Nat) : (s.inc b f n).follow = s.follow := rfl
@[simp] theorem State.inc_ejt (s : State) (b : Nat) (f : Fld) (n : Nat) : (s.inc b f n).ejt = s.ejt := rfl
@[simp] theorem State.inc_field (s : State) (b : Nat) (f : Fld) (n : Nat) : (s.inc b f n).field = s.field := rfl
@[simp] theorem State.inc_merge (s : State) (b : Nat) (f : Fld) (n : Nat) : (s.inc b f n).merge = s.merge := rfl
@[simp] theorem State.inc_hlt (s : State) (b : Nat) (f : Fld) (n : Nat) : (s.inc b f n).hlt = s.hlt := rfl
@[simp] theorem State.inc_opt (s : State) (b : Nat) (f : Fld) (n : Nat) : (s.inc b f n).opt = s.opt := rfl
@[simp] theorem State.inc_kvc (s : State) (b : Nat) (f : Fld) (n : Nat) : (s.inc b f n).kvc = s.kvc := rfl
@[simp] theorem State.inc_cam (s : State) (b : Nat) (f : Fld) (n : Nat) : (s.inc b f n).cam = s.cam := rfl
@[simp] theorem State.inc_tan (s : State) (b : Nat) (f : Fld) (n : Nat) : (s.inc b f n).tan = s.tan := rfl
@[simp] theorem State.inc_clm (s : State) (b : Nat) (f : Fld) (n : Nat) : (s.inc b f n).clm = s.clm := rfl
@[simp] theorem State.inc_job (s : State) (b : Nat) (f : Fld) (n : Nat) : (s.inc b f n).job = s.job := rfl
@[simp] theorem State.inc_jobNext (s : State) (b : Nat) (f : Fld) (n : Nat) : (s.inc b f n).jobNext = s.jobNext := rfl
@[simp] theorem State.inc_out (s : State) (b : Nat) (f : Fld) (n : Nat) : (s.inc b f n).out = s.out := rfl
@[simp] theorem State.inc_sys (s : State) (b : Nat) (f : Fld) (n : Nat) : (s.inc b f n).sys = s.sys := rfl
@[simp] theorem State.inc_pwr (s : State) (b : Nat) (f : Fld) (n : Nat) : (s.inc b f n).pwr = s.pwr := rfl
@[simp] theorem State.inc_clu (s : State) (b : Nat) (f : Fld) (n : Nat) : (s.inc b f n).clu = s.clu := rfl
@[simp] theorem State.inc_sch (s : State) (b : Nat) (f : Fld) (n : Nat) : (s.inc b f n).sch = s.sch := rfl
@[simp] theorem State.inc_lnk (s : State) (b : Nat) (f : Fld) (n : Nat) : (s.inc b f n).lnk = s.lnk := rfl
@[simp] theorem State.inc_dma (s : State) (b : Nat) (f : Fld) (n : Nat) : (s.inc b f n).dma = s.dma := rfl
@[simp] theorem State.inc_sds (s : State) (b : Nat) (f : Fld) (n : Nat) : (s.inc b f n).sds = s.sds := rfl
@[simp] theorem State.inc_eth (s : State) (b : Nat) (f : Fld) (n : Nat) : (s.inc b f n).eth = s.eth := rfl
@[simp] theorem State.inc_pcie (s : State) (b : Nat) (f : Fld) (n : Nat) : (s.inc b f n).pcie = s.pcie := rfl
@[simp] theorem State.setCam_rd (s : State) (n : Nat) (x : CamPort) (b : Nat) (f : Fld) : (s.setCam n x).rd b f = s.rd b f := rfl
@[simp] theorem State.setClm_rd (s : State) (x : Clm) (b : Nat) (f : Fld) : (s.setClm x).rd b f = s.rd b f := rfl
@[simp] theorem State.setDma_rd (s : State) (n : Nat) (x : Dma) (b : Nat) (f : Fld) : (s.setDma n x).rd b f = s.rd b f := rfl
@[simp] theorem State.setEth_rd (s : State) (p : Nat) (x : EthPort) (b : Nat) (f : Fld) : (s.setEth p x).rd b f = s.rd b f := rfl
@[simp] theorem State.setEjt_rd (s : State) (p : Nat) (x : EjtUnit) (b : Nat) (f : Fld) : (s.setEjt p x).rd b f = s.rd b f := rfl
@[simp] theorem State.setMerge_rd (s : State) (p k : Nat) (m : Option Merge) (b : Nat) (f : Fld) : (s.setMerge p k m).rd b f = s.rd b f := rfl
@[simp] theorem State.setSch_rd (s : State) (x : Sched) (b : Nat) (f : Fld) : (s.setSch x).rd b f = s.rd b f := rfl
@[simp] theorem State.setField_rd (s : State) (g : Field) (b : Nat) (f : Fld) : (s.setField g).rd b f = s.rd b f := rfl
@[simp] theorem State.endPulse_rd (s : State) (n : Nat) (b : Nat) (f : Fld) : (s.endPulse n).rd b f = s.rd b f := rfl
@[simp] theorem State.startPulse_rd (s : State) (p n ns : Nat) (b : Nat) (f : Fld) : (s.startPulse p n ns).rd b f = s.rd b f := rfl
@[simp] theorem State.setHlt_rd (s : State) (h : Halter) (b : Nat) (f : Fld) : (s.setHlt h).rd b f = s.rd b f := rfl
@[simp] theorem State.setPcie_rd (s : State) (x : Pcie) (b : Nat) (f : Fld) : (s.setPcie x).rd b f = s.rd b f := rfl
@[simp] theorem State.setMem_rd (s : State) (m : MemUnit) (b : Nat) (f : Fld) : (s.setMem m).rd b f = s.rd b f := rfl
@[simp] theorem State.setKvc_rd (s : State) (x : Kvc) (b : Nat) (f : Fld) : (s.setKvc x).rd b f = s.rd b f := rfl
@[simp] theorem State.setSeq_rd (s : State) (q : Nat) (x : KvSeq) (b : Nat) (f : Fld) : (s.setSeq q x).rd b f = s.rd b f := rfl
@[simp] theorem State.setPage_rd (s : State) (i : Nat) (x : KvPage) (b : Nat) (f : Fld) : (s.setPage i x).rd b f = s.rd b f := rfl
@[simp] theorem State.setSds_rd (s : State) (m : Nat) (x : Sds) (b : Nat) (f : Fld) : (s.setSds m x).rd b f = s.rd b f := rfl
@[simp] theorem State.send_rd (s : State) (o : Out) (b : Nat) (f : Fld) : (s.send o).rd b f = s.rd b f := rfl
@[simp] theorem State.setLnk_rd (s : State) (x : Link) (b : Nat) (f : Fld) : (s.setLnk x).rd b f = s.rd b f := rfl
@[simp] theorem State.openBytes_rd (s : State) (k a n : Nat) (b : Nat) (f : Fld) : (s.openBytes k a n).rd b f = s.rd b f := rfl
@[simp] theorem State.setSys_rd (s : State) (x : Sys) (b : Nat) (f : Fld) : (s.setSys x).rd b f = s.rd b f := rfl
@[simp] theorem State.wrAct_rd (s : State) (c : Nat) (g : Fld) (n : Nat) (b : Nat) (f : Fld) : (s.wrAct c g n).rd b f = s.rd b f := rfl
@[simp] theorem State.setCnt_rd (s : State) (c : Nat) (g : Fld) (n : Nat) (b : Nat) (f : Fld) : (s.setCnt c g n).rd b f = s.rd b f := rfl
@[simp] theorem State.mark_rd (s : State) (k : Nat) (b : Nat) (f : Fld) : (s.mark k).rd b f = s.rd b f := rfl
@[simp] theorem State.setPoison_rd (s : State) (u : Nat) (b : Nat) (f : Fld) : (s.setPoison u).rd b f = s.rd b f := rfl
@[simp] theorem State.answer_rd (s : State) (status : Nat) (data : List Nat) (b : Nat) (f : Fld) : (s.answer status data).rd b f = s.rd b f := rfl
@[simp] theorem State.setErr_rd (s : State) (u e : Nat) (b : Nat) (f : Fld) : (s.setErr u e).rd b f = s.rd b f := rfl
@[simp] theorem State.setTb_rd (s : State) (x : TimeBase) (b : Nat) (f : Fld) : (s.setTb x).rd b f = s.rd b f := rfl
@[simp] theorem State.setStp_rd (s : State) (p : Nat) (x : StpPort) (b : Nat) (f : Fld) : (s.setStp p x).rd b f = s.rd b f := rfl
@[simp] theorem State.setFollow_rd (s : State) (p : Nat) (x : Follow) (b : Nat) (f : Fld) : (s.setFollow p x).rd b f = s.rd b f := rfl
@[simp] theorem State.setPwr_rd (s : State) (x : Power) (b : Nat) (f : Fld) : (s.setPwr x).rd b f = s.rd b f := rfl
@[simp] theorem State.setClu_rd (s : State) (c : Nat) (x : Clu) (b : Nat) (f : Fld) : (s.setClu c x).rd b f = s.rd b f := rfl
@[simp] theorem State.setTan_rd (s : State) (x : Tan) (b : Nat) (f : Fld) : (s.setTan x).rd b f = s.rd b f := rfl
@[simp] theorem State.setCam_act (s : State) (n : Nat) (x : CamPort) (b : Nat) (f : Fld) : (s.setCam n x).act b f = s.act b f := rfl
@[simp] theorem State.setClm_act (s : State) (x : Clm) (b : Nat) (f : Fld) : (s.setClm x).act b f = s.act b f := rfl
@[simp] theorem State.setDma_act (s : State) (n : Nat) (x : Dma) (b : Nat) (f : Fld) : (s.setDma n x).act b f = s.act b f := rfl
@[simp] theorem State.setEth_act (s : State) (p : Nat) (x : EthPort) (b : Nat) (f : Fld) : (s.setEth p x).act b f = s.act b f := rfl
@[simp] theorem State.setEjt_act (s : State) (p : Nat) (x : EjtUnit) (b : Nat) (f : Fld) : (s.setEjt p x).act b f = s.act b f := rfl
@[simp] theorem State.setMerge_act (s : State) (p k : Nat) (m : Option Merge) (b : Nat) (f : Fld) : (s.setMerge p k m).act b f = s.act b f := rfl
@[simp] theorem State.setSch_act (s : State) (x : Sched) (b : Nat) (f : Fld) : (s.setSch x).act b f = s.act b f := rfl
@[simp] theorem State.setField_act (s : State) (g : Field) (b : Nat) (f : Fld) : (s.setField g).act b f = s.act b f := rfl
@[simp] theorem State.endPulse_act (s : State) (n : Nat) (b : Nat) (f : Fld) : (s.endPulse n).act b f = s.act b f := rfl
@[simp] theorem State.startPulse_act (s : State) (p n ns : Nat) (b : Nat) (f : Fld) : (s.startPulse p n ns).act b f = s.act b f := rfl
@[simp] theorem State.setHlt_act (s : State) (h : Halter) (b : Nat) (f : Fld) : (s.setHlt h).act b f = s.act b f := rfl
@[simp] theorem State.setPcie_act (s : State) (x : Pcie) (b : Nat) (f : Fld) : (s.setPcie x).act b f = s.act b f := rfl
@[simp] theorem State.setMem_act (s : State) (m : MemUnit) (b : Nat) (f : Fld) : (s.setMem m).act b f = s.act b f := rfl
@[simp] theorem State.setKvc_act (s : State) (x : Kvc) (b : Nat) (f : Fld) : (s.setKvc x).act b f = s.act b f := rfl
@[simp] theorem State.setSeq_act (s : State) (q : Nat) (x : KvSeq) (b : Nat) (f : Fld) : (s.setSeq q x).act b f = s.act b f := rfl
@[simp] theorem State.setPage_act (s : State) (i : Nat) (x : KvPage) (b : Nat) (f : Fld) : (s.setPage i x).act b f = s.act b f := rfl
@[simp] theorem State.setSds_act (s : State) (m : Nat) (x : Sds) (b : Nat) (f : Fld) : (s.setSds m x).act b f = s.act b f := rfl
@[simp] theorem State.send_act (s : State) (o : Out) (b : Nat) (f : Fld) : (s.send o).act b f = s.act b f := rfl
@[simp] theorem State.setLnk_act (s : State) (x : Link) (b : Nat) (f : Fld) : (s.setLnk x).act b f = s.act b f := rfl
@[simp] theorem State.openBytes_act (s : State) (k a n : Nat) (b : Nat) (f : Fld) : (s.openBytes k a n).act b f = s.act b f := rfl
@[simp] theorem State.setSys_act (s : State) (x : Sys) (b : Nat) (f : Fld) : (s.setSys x).act b f = s.act b f := rfl
@[simp] theorem State.wr_act (s : State) (c : Nat) (g : Fld) (n : Nat) (b : Nat) (f : Fld) : (s.wr c g n).act b f = s.act b f := rfl
@[simp] theorem State.setCnt_act (s : State) (c : Nat) (g : Fld) (n : Nat) (b : Nat) (f : Fld) : (s.setCnt c g n).act b f = s.act b f := rfl
@[simp] theorem State.mark_act (s : State) (k : Nat) (b : Nat) (f : Fld) : (s.mark k).act b f = s.act b f := rfl
@[simp] theorem State.setPoison_act (s : State) (u : Nat) (b : Nat) (f : Fld) : (s.setPoison u).act b f = s.act b f := rfl
@[simp] theorem State.answer_act (s : State) (status : Nat) (data : List Nat) (b : Nat) (f : Fld) : (s.answer status data).act b f = s.act b f := rfl
@[simp] theorem State.setErr_act (s : State) (u e : Nat) (b : Nat) (f : Fld) : (s.setErr u e).act b f = s.act b f := rfl
@[simp] theorem State.setTb_act (s : State) (x : TimeBase) (b : Nat) (f : Fld) : (s.setTb x).act b f = s.act b f := rfl
@[simp] theorem State.setStp_act (s : State) (p : Nat) (x : StpPort) (b : Nat) (f : Fld) : (s.setStp p x).act b f = s.act b f := rfl
@[simp] theorem State.setFollow_act (s : State) (p : Nat) (x : Follow) (b : Nat) (f : Fld) : (s.setFollow p x).act b f = s.act b f := rfl
@[simp] theorem State.setPwr_act (s : State) (x : Power) (b : Nat) (f : Fld) : (s.setPwr x).act b f = s.act b f := rfl
@[simp] theorem State.setClu_act (s : State) (c : Nat) (x : Clu) (b : Nat) (f : Fld) : (s.setClu c x).act b f = s.act b f := rfl
@[simp] theorem State.setTan_act (s : State) (x : Tan) (b : Nat) (f : Fld) : (s.setTan x).act b f = s.act b f := rfl
@[simp] theorem State.at_rd (s : State) (t b : Nat) (f : Fld) : (s.at t).rd b f = s.rd b f := by simp [State.rd]
@[simp] theorem State.at_act (s : State) (t b : Nat) (f : Fld) : (s.at t).act b f = s.act b f := by simp [State.act]
@[simp] theorem State.at_cnt (s : State) (t b : Nat) (f : Fld) : (s.at t).cnt b f = s.cnt b f := by simp [State.cnt]
@[simp] theorem State.at_fsm (s : State) (t b : Nat) : (s.at t).fsm b = s.fsm b := by simp [State.fsm]
@[simp] theorem State.at_byte (s : State) (t a : Nat) : (s.at t).byte a = s.byte a := by simp [State.byte]


end Sys2Proof.Machine
end

