-- ==== Sys2Proof/Laws/Keeps.lean ====
section
/-!
SUPPORT. What every operation on the state keeps, whatever it does besides: the stores stay canonical, the tiles' registers stay in range,
no waiting command is taken, and time does not run back.
-/

namespace Sys2Proof.Machine

/-- From `s` to `t`, the stores stay canonical, the tiles in range, the queue as it is, and time does not run back. -/
structure Keeps (s t : State) : Prop where
  canonical : s.Canonical → t.Canonical
  tiles : s.TilesInRange → t.TilesInRange
  pending : t.pending = s.pending
  now : s.now ≤ t.now

theorem Keeps.refl (s : State) : Keeps s s := ⟨id, id, rfl, Nat.le_refl _⟩

theorem Keeps.trans {r s t : State} (h : Keeps r s) (k : Keeps s t) : Keeps r t :=
  ⟨fun x => k.canonical (h.canonical x), fun x => k.tiles (h.tiles x), k.pending.trans h.pending, Nat.le_trans h.now k.now⟩

/-- An update of other fields keeps everything. -/
theorem Keeps.upd {r s t : State} (h : Keeps r s) (hm : t.mem = s.mem) (hl : t.live = s.live) (hp : t.poison = s.poison) (he : t.errs = s.errs)
    (hc : t.clu = s.clu) (hq : t.pending = s.pending) (hn : t.now = s.now) : Keeps r t := by
  refine h.trans ⟨?_, ?_, hq, hn.ge⟩
  · unfold State.Canonical; rw [hm, hl, hp, he]; exact id
  · unfold State.TilesInRange; rw [hc]; exact id

/-- The same where the new state is written out. -/
theorem Keeps.mk' {r s : State} {now pending regs active live mem poison errs free resp evqSeq tb memu stp follow ejt field merge hlt opt kvc
    cam tan clm job jobNext out sys pwr clu sch lnk dma sds eth pcie} (h : Keeps r s) (hm : mem = s.mem) (hl : live = s.live)
    (hp : poison = s.poison) (he : errs = s.errs) (hc : clu = s.clu) (hq : pending = s.pending) (hn : now = s.now) :
    Keeps r (State.mk now pending regs active live mem poison errs free resp evqSeq tb memu stp follow ejt field merge hlt opt kvc cam tan clm
      job jobNext out sys pwr clu sch lnk dma sds eth pcie) := h.upd hm hl hp he hc hq hn

/-- A choice keeps what both sides keep. -/
theorem Keeps.ite {r a b : State} {c : Prop} [Decidable c] (h : Keeps r a) (k : Keeps r b) : Keeps r (if c then a else b) := by
  split <;> assumption

theorem Keeps.ite1 {γ : Type} {r : State} {a b : State × γ} {c : Prop} [Decidable c] (h : Keeps r a.1) (k : Keeps r b.1) :
    Keeps r (if c then a else b).1 := by
  split <;> assumption

/-- A fold keeps what each step keeps. -/
theorem Keeps.foldl {β : Type} {r s : State} {f : State → β → State} {l : List β} (h : Keeps r s)
    (hf : ∀ s b, Keeps r s → Keeps r (f s b)) : Keeps r (l.foldl f s) := by
  induction l generalizing s with
  | nil => exact h
  | cons b l ih => exact ih (hf _ _ h)

/-- A fold over a pair whose first component is the state. -/
theorem Keeps.foldl1 {β γ : Type} {r : State} {x : State × γ} {f : State × γ → β → State × γ} {l : List β} (h : Keeps r x.1)
    (hf : ∀ x b, Keeps r x.1 → Keeps r (f x b).1) : Keeps r (l.foldl f x).1 := by
  induction l generalizing x with
  | nil => exact h
  | cons b l ih => exact ih (hf _ _ h)

/-- A fold over a pair whose second component is the state. -/
theorem Keeps.foldl2 {β γ : Type} {r : State} {x : γ × State} {f : γ × State → β → γ × State} {l : List β} (h : Keeps r x.2)
    (hf : ∀ x b, Keeps r x.2 → Keeps r (f x b).2) : Keeps r (l.foldl f x).2 := by
  induction l generalizing x with
  | nil => exact h
  | cons b l ih => exact ih (hf _ _ h)

/-- A pair with other things beside the state. -/
theorem Keeps.beside {γ δ : Type} {r : State} {q : State × γ} {f : State × γ → δ} (h : Keeps r q.1) : Keeps r (let p := q; (p.1, f p)).1 := h

/-- What a command's outcome keeps when it is a next state. -/
structure OKeeps (r : State) (o : Host.Outcome State Fault Refusal) : Prop where
  out : ∀ t, o = .next t → Keeps r t

theorem OKeeps.next {r t : State} (h : Keeps r t) : OKeeps r (.next t) := ⟨fun _ e => by cases e; exact h⟩

theorem OKeeps.ite {r : State} {a b : Host.Outcome State Fault Refusal} {c : Prop} [Decidable c] (h : OKeeps r a) (k : OKeeps r b) :
    OKeeps r (if c then a else b) := by
  split <;> assumption

/-- What an operation that may have none keeps when it has one; `f` finds the state in what it gives. -/
structure SKeeps {γ : Type} (r : State) (f : γ → State) (o : Option γ) : Prop where
  out : ∀ t, o = some t → Keeps r (f t)

theorem SKeeps.some {γ : Type} {r : State} {f : γ → State} {t : γ} (h : Keeps r (f t)) : SKeeps r f (some t) := ⟨fun _ e => by cases e; exact h⟩
theorem SKeeps.state {r t : State} (h : Keeps r t) : SKeeps r id (Option.some t) := SKeeps.some h
theorem SKeeps.none {γ : Type} {r : State} {f : γ → State} : SKeeps r f none := ⟨fun _ e => nomatch e⟩
theorem SKeeps.ite {γ : Type} {r : State} {f : γ → State} {a b : Option γ} {c : Prop} [Decidable c] (h : SKeeps r f a) (k : SKeeps r f b) :
    SKeeps r f (if c then a else b) := by
  split <;> assumption
theorem SKeeps.map {γ δ : Type} {r s : State} {o : Option γ} {g : γ → State × δ} (h : Keeps r s) (hg : ∀ x, (g x).1 = s) :
    SKeeps r Prod.fst (o.map g) := by
  refine ⟨fun t e => ?_⟩
  cases o with
  | none => cases e
  | some x => cases e; rw [hg]; exact h
theorem SKeeps.getD {γ : Type} {r : State} {o : Option (State × γ)} {t : State × γ} (h : SKeeps r Prod.fst o) (k : Keeps r t.1) :
    Keeps r (o.getD t).1 := by
  cases o with
  | none => exact k
  | some x => exact h.out x rfl

/-! ### The operations on the stores themselves -/

theorem State.setCnt_keeps {r s : State} {b : Nat} {f : Fld} {n : Nat} (h : Keeps r s) : Keeps r (s.setCnt b f n) :=
  h.trans ⟨fun c => ⟨c.1, Store.wf_put c.2.1, c.2.2⟩, id, rfl, Nat.le_refl _⟩

theorem State.clearBlk_keeps {r s : State} {b : Nat} (h : Keeps r s) : Keeps r (s.clearBlk b) :=
  h.trans ⟨fun c => ⟨c.1, Store.wf_filter _ c.2.1, c.2.2⟩, id, rfl, Nat.le_refl _⟩

theorem State.at_keeps {r s : State} {t : Nat} (h : Keeps r s) : Keeps r (s.at t) :=
  h.trans ⟨by simp [State.Canonical], by simp [State.TilesInRange], by simp, by rw [State.at_now]; omega⟩

theorem State.setPoison_keeps {r s : State} {u : Nat} (h : Keeps r s) : Keeps r (s.setPoison u) :=
  h.trans ⟨fun c => ⟨c.1, c.2.1, (Store.wf_put c.2.2.1 : Store.wf false (Store.put false s.poison u true) = true), c.2.2.2⟩, id, rfl, Nat.le_refl _⟩

theorem State.setErr_keeps {r s : State} {u e : Nat} (h : Keeps r s) : Keeps r (s.setErr u e) :=
  h.trans ⟨fun c => ⟨c.1, c.2.1, c.2.2.1, (Store.wf_put c.2.2.2 : Store.wf 0 (Store.put 0 s.errs u e) = true)⟩, id, rfl, Nat.le_refl _⟩

theorem State.clearErr_keeps {r s : State} {u : Nat} (h : Keeps r s) : Keeps r (s.clearErr u) := State.setErr_keeps h

/-- Every byte of a run is put by one `memPut`. -/
theorem memPuts_foldl (m : List Host.Cell) (a : Nat) (l : List Nat) :
    memPuts m a l = (l.zipIdx a).foldl (fun m e => memPut m e.2 e.1) m := by
  induction l generalizing m a with
  | nil => rfl
  | cons b r ih => simpa [memPuts, List.zipIdx_cons] using ih _ _

theorem State.openBytes_keeps {r s : State} {k a n : Nat} (h : Keeps r s) : Keeps r (s.openBytes k a n) := by
  refine h.trans ⟨fun c => ⟨?_, c.2.1, c.2.2⟩, id, rfl, Nat.le_refl _⟩
  unfold State.openBytes
  rw [memPuts_foldl]
  exact Store.wf_foldl _ (fun _ _ => memPut_wf) _ c.1

/-- A line that leaves its slice. -/
theorem State.castOut_keeps {r s : State} {v : Nat × CacheLine} (h : Keeps r s) : Keeps r (s.castOut v) := by
  refine h.trans ⟨fun c => ⟨c.1, c.2.1, ?_, c.2.2.2⟩, id, rfl, Nat.le_refl _⟩
  unfold State.castOut
  dsimp only
  repeat' split
  all_goals first
    | exact Store.wf_put c.2.2.1
    | exact c.2.2.1

/-- A line touched. -/
theorem State.touch_keeps {r s : State} {u : Nat} {wr : Bool} (h : Keeps r s) : Keeps r (s.touch u wr) := by
  have k : Keeps r { s with free := s.free + 1, memu := { s.memu with lines := (s.cacheTouch s.free u wr).1 } } :=
    h.upd rfl rfl rfl rfl rfl rfl rfl
  unfold State.touch
  dsimp only
  split
  · exact k
  · split
    · exact State.castOut_keeps k
    · exact k

theorem State.inject_keeps {r s : State} {a n : Nat} (h : Keeps r s) : Keeps r (s.inject a n) := by
  unfold State.inject
  split
  · exact h.upd rfl rfl rfl rfl rfl rfl rfl
  · refine h.trans ⟨fun c => ⟨c.1, c.2.1, c.2.2.1, ?_⟩, id, rfl, Nat.le_refl _⟩
    dsimp only [errMax]
    split
    · exact Store.wf_put c.2.2.2
    · exact c.2.2.2
  · exact h

/-- Touching lines changes no byte and no latent error. -/
theorem State.touches_stores (l : List Nat) (s : State) :
    (l.foldl (fun s u => s.touch u true) s).mem = s.mem ∧ (l.foldl (fun s u => s.touch u true) s).errs = s.errs := by
  induction l generalizing s with
  | nil => exact ⟨rfl, rfl⟩
  | cons u l ih =>
    refine ⟨(ih _).1.trans ?_, (ih _).2.trans ?_⟩ <;>
    · unfold State.touch
      dsimp only
      repeat' first
        | rfl
        | split

theorem State.write_keeps {r s : State} {a : Nat} {bs : List Nat} (h : Keeps r s) : Keeps r (s.write a bs) := by
  unfold State.write
  dsimp only
  have k : Keeps r ((dramUnits a bs.length).foldl (fun s u => s.touch u true) s) := Keeps.foldl h (fun _ _ => State.touch_keeps)
  have e := State.touches_stores (dramUnits a bs.length) s
  rw [← e.1, ← e.2]
  refine State.inject_keeps (k.trans ⟨fun c => ⟨?_, c.2.1, ?_, ?_⟩, id, rfl, Nat.le_refl _⟩)
  · rw [memPuts_foldl]
    exact Store.wf_foldl _ (fun _ _ => memPut_wf) _ c.1
  · refine Store.wf_foldl _ (fun m u hm => ?_) _ c.2.2.1
    split
    · exact Store.wf_put hm
    · exact hm
  · refine Store.wf_foldl _ (fun m u hm => ?_) _ c.2.2.2
    split
    · exact Store.wf_put hm
    · exact hm

/-- A cluster whose tile, if it has one, has its registers in range. -/
theorem State.setClu_keeps' {r s : State} {c : Nat} {x : Clu} (h : Keeps r s)
    (hx : s.TilesInRange → ∀ t, x.tile = some t → t.InRange) : Keeps r (s.setClu c x) := by
  refine h.trans ⟨id, fun k => ?_, rfl, Nat.le_refl _⟩
  intro e he t ht
  rcases Store.mem_put he with he | rfl
  · exact k e he t ht
  · exact hx k t ht

/-- A tile that a cluster has is one of the state's tiles. -/
theorem State.tileOf_inRange {s : State} (k : s.TilesInRange) {c : Nat} {t : Tile} (ht : (s.cluX c).tile = some t) : t.InRange := by
  rcases (Store.get_mem : Store.get _ s.clu c = _ ∨ _) with e | e
  · unfold State.cluX at ht; rw [e] at ht; cases ht
  · exact k _ e t ht

/-- An update of a cluster that leaves its tile. -/
theorem State.setClu_keeps {r s : State} {c : Nat} {x : Clu} (h : Keeps r s) (hx : x.tile = (s.cluX c).tile) : Keeps r (s.setClu c x) :=
  State.setClu_keeps' h (fun k t ht => State.tileOf_inRange k (c := c) (by rw [← hx]; exact ht))

/-- A cluster given a tile whose registers are in range, or none. -/
theorem State.setTile_keeps {r s : State} {c : Nat} {x : Option Tile} (h : Keeps r s)
    (hx : r.TilesInRange → ∀ t, x = some t → t.InRange) : Keeps r (s.setTile c x) := by
  refine ⟨fun k => (State.setClu_keeps' (x := { s.cluX c with tile := none }) (c := c) h (fun _ _ y => nomatch y)).canonical k, fun k => ?_,
    h.pending, h.now⟩
  exact (State.setClu_keeps' (Keeps.refl s) (fun _ => hx k)).tiles (h.tiles k)

theorem State.setTile_some_keeps {r s : State} {c : Nat} {t : Tile} (h : Keeps r s) (ht : r.TilesInRange → t.InRange) :
    Keeps r (s.setTile c (some t)) := State.setTile_keeps h (fun k u e => by cases e; exact ht k)

theorem State.setTile_none_keeps {r s : State} {c : Nat} (h : Keeps r s) : Keeps r (s.setTile c none) :=
  State.setTile_keeps h (fun _ _ x => nomatch x)

/-- Going on at another index leaves the registers. -/
theorem Tile.stepLoop_inRange {t : Tile} {n : Nat} (h : t.InRange) : (t.stepLoop n).InRange := by
  unfold Tile.stepLoop
  repeat' first
    | exact h
    | split

theorem Tile.setS_inRange {t : Tile} {n v : Nat} (h : t.InRange) : (t.setS n v).InRange := by
  unfold Tile.setS
  split
  · exact h
  · refine ⟨fun e he => ?_, h.2⟩
    rcases Store.mem_put he with he | rfl
    · exact h.1 e he
    · exact Nat.mod_lt _ (by decide)

theorem Tile.setA_inRange {t : Tile} {n v : Nat} (h : t.InRange) : (t.setA n v).InRange := by
  refine ⟨h.1, fun e he => ?_⟩
  rcases Store.mem_put he with he | rfl
  · exact h.2 e he
  · exact Nat.mod_lt _ (by decide)

theorem Tile.setP_inRange {t : Tile} {n : Nat} {v : Bool} (h : t.InRange) : (t.setP n v).InRange := by
  unfold Tile.setP
  split <;> exact h

theorem Tile.setV_inRange {t : Tile} {n v : Nat} (h : t.InRange) : (t.setV n v).InRange := h
theorem Tile.setAccRow_inRange {t : Tile} {k n v : Nat} (h : t.InRange) : (t.setAccRow k n v).InRange := h
theorem Tile.flag_inRange {t : Tile} {f : Nat} (h : t.InRange) : (t.flag f).InRange := h

/-- A fold over tiles keeps their registers in range. -/
theorem Tile.foldl_inRange {β : Type} {f : Tile → β → Tile} (hf : ∀ t b, t.InRange → (f t b).InRange) (l : List β) {t : Tile} (h : t.InRange) :
    (l.foldl f t).InRange := by
  induction l generalizing t with
  | nil => exact h
  | cons b l ih => exact ih (hf _ _ h)

/-- A tile that has written no scalar and no address register. -/
theorem Tile.blank_inRange {t : Tile} (h : t.s = []) (k : t.a = []) : t.InRange := by
  constructor
  · intro e he
    rw [h] at he
    cases he
  · intro e he
    rw [k] at he
    cases he

theorem Tile.setOffs_inRange {t : Tile} {l : List (Nat × Nat)} (h : t.InRange) : (t.setOffs l).InRange := h
theorem Tile.flip_inRange {t : Tile} {q m : Nat} (h : t.InRange) : (t.flip q m).InRange := by
  unfold Tile.flip
  dsimp only
  split <;> exact h
theorem Tile.strike_inRange {t : Tile} {q m : Nat} (h : t.InRange) : (t.strike q m).InRange := Tile.flip_inRange (t := t) h

/-- Upsets that are due leave the registers that claims bound. -/
theorem Tile.struck_inRange {t : Tile} (h : t.InRange) : t.struck.InRange :=
  Tile.foldl_inRange (fun _ _ => Tile.strike_inRange) _ h

/-- A residue check leaves them too. -/
theorem Op.checked_inRange {o : Op} {b : Nat} {s : State} {t r : Tile} (h : r.InRange) : (o.checked b s t r).InRange := by
  unfold Op.checked
  split
  · exact h
  · refine Tile.setOffs_inRange ?_
    exact Tile.foldl_inRange (f := fun x (e : Nat × Nat) => x.flip e.1 _) (fun _ _ => Tile.flip_inRange) _ h

/-- A tile starts with its registers in range (R211). -/
theorem initTile_inRange (s : State) (x : Cmd) (n stage : Nat) : (initTile s x n stage).InRange := by
  unfold initTile
  refine Tile.foldl_inRange (fun t e h => Tile.setA_inRange h) _ (Tile.setA_inRange (Tile.setS_inRange (Tile.setS_inRange (Tile.setS_inRange
    (Tile.setS_inRange ⟨?_, ?_⟩)))))
  · intro e he; cases he
  · intro e he; cases he

end Sys2Proof.Machine
end

