-- ==== Sys2Proof/Laws/KeepsBase.lean ====
section
/-!
SUPPORT. What is kept (Keeps) by the shared operations, the register map and the cores of the units.
-/

namespace Sys2Proof.Machine

set_option linter.unreachableTactic false
set_option linter.unusedTactic false
set_option maxRecDepth 100000
set_option linter.unusedVariables false

theorem State.setSys_keeps {z0 s : State} {x : Sys} (hs : Keeps z0 s) : Keeps z0 (State.setSys s x) := by
  unfold State.setSys
  try dsimp only
  repeat' first
    | with_reducible assumption | (fail_if_no_progress with_reducible refine Keeps.mk' ?_ rfl rfl rfl rfl rfl rfl rfl)

theorem State.wr_keeps {z0 s : State} {b : Nat} {f : Fld} {n : Nat} (hs : Keeps z0 s) : Keeps z0 (State.wr s b f n) := by
  unfold State.wr
  try dsimp only
  repeat' first
    | with_reducible assumption | (fail_if_no_progress with_reducible refine Keeps.mk' ?_ rfl rfl rfl rfl rfl rfl rfl)

theorem State.wrAct_keeps {z0 s : State} {b : Nat} {f : Fld} {n : Nat} (hs : Keeps z0 s) : Keeps z0 (State.wrAct s b f n) := by
  unfold State.wrAct
  try dsimp only
  repeat' first
    | with_reducible assumption | (fail_if_no_progress with_reducible refine Keeps.mk' ?_ rfl rfl rfl rfl rfl rfl rfl)

theorem State.raiseBit_keeps {z0 s : State} {b : Nat} {f : Fld} (hs : Keeps z0 s) : Keeps z0 (State.raiseBit s b f) := by
  unfold State.raiseBit
  try dsimp only
  repeat' first
    | with_reducible assumption | with_reducible apply State.wr_keeps

theorem State.wr64_keeps {z0 s : State} {b : Nat} {lo hi : Fld} {n : Nat} (hs : Keeps z0 s) : Keeps z0 (State.wr64 s b lo hi n) := by
  unfold State.wr64
  try dsimp only
  repeat' first
    | with_reducible assumption | with_reducible apply State.wr_keeps

theorem State.inc_keeps {z0 s : State} {b : Nat} {f : Fld} {n : Nat} (hs : Keeps z0 s) : Keeps z0 (State.inc s b f n) := by
  unfold State.inc
  try dsimp only
  repeat' first
    | with_reducible assumption | with_reducible apply State.setCnt_keeps

theorem State.setFsm_keeps {z0 s : State} {b n : Nat} (hs : Keeps z0 s) : Keeps z0 (State.setFsm s b n) := by
  unfold State.setFsm
  try dsimp only
  repeat' first
    | with_reducible assumption | with_reducible apply State.wr_keeps

theorem State.toFault_keeps {z0 s : State} {b : Nat} (hs : Keeps z0 s) : Keeps z0 (State.toFault s b) := by
  unfold State.toFault
  try dsimp only
  repeat' first
    | with_reducible assumption | with_reducible apply State.setFsm_keeps | with_reducible apply Keeps.ite | split

theorem State.mark_keeps {z0 s : State} {k : Nat} (hs : Keeps z0 s) : Keeps z0 (State.mark s k) := by
  unfold State.mark
  try dsimp only
  repeat' first
    | with_reducible assumption | (fail_if_no_progress with_reducible refine Keeps.mk' ?_ rfl rfl rfl rfl rfl rfl rfl)

theorem State.flushSlices_keeps {z0 s : State} {p : Nat → Bool} (hs : Keeps z0 s) : Keeps z0 (State.flushSlices s p) := by
  unfold State.flushSlices
  try dsimp only
  repeat' first
    | with_reducible assumption | with_reducible apply State.castOut_keeps | with_reducible apply Keeps.foldl
    | with_reducible apply Keeps.foldl1 | with_reducible apply Keeps.foldl2 | intro _ _ _ | intro _ _
    | (fail_if_no_progress with_reducible refine Keeps.mk' ?_ rfl rfl rfl rfl rfl rfl rfl) | split

theorem State.writeLE_keeps {z0 s : State} {a n v : Nat} (hs : Keeps z0 s) : Keeps z0 (State.writeLE s a n v) := by
  unfold State.writeLE
  try dsimp only
  repeat' first
    | with_reducible assumption | with_reducible apply State.write_keeps

theorem State.takeFree_keeps {z0 s : State} (hs : Keeps z0 s) : Keeps z0 (State.takeFree s).2 := by
  unfold State.takeFree
  try dsimp only
  repeat' first
    | with_reducible assumption | (fail_if_no_progress with_reducible refine Keeps.mk' ?_ rfl rfl rfl rfl rfl rfl rfl)

theorem State.answer_keeps {z0 s : State} {status : Nat} {data : List Nat} (hs : Keeps z0 s) : Keeps z0 (State.answer s status data) := by
  unfold State.answer
  try dsimp only
  repeat' first
    | with_reducible assumption | (fail_if_no_progress with_reducible refine Keeps.mk' ?_ rfl rfl rfl rfl rfl rfl rfl)

theorem State.mergeQuiet_keeps {z0 s : State} {u : Nat} (hs : Keeps z0 s) : Keeps z0 (State.mergeQuiet s u) := by
  unfold State.mergeQuiet
  try dsimp only
  repeat' first
    | with_reducible assumption | with_reducible apply State.clearErr_keeps | with_reducible apply State.setPoison_keeps
    | with_reducible apply Keeps.ite | with_reducible apply Keeps.ite1
    | (fail_if_no_progress with_reducible refine Keeps.mk' ?_ rfl rfl rfl rfl rfl rfl rfl) | split

theorem State.writeQuiet_keeps {z0 s : State} {a : Nat} {bs : List Nat} (hs : Keeps z0 s) : Keeps z0 (State.writeQuiet s a bs) := by
  unfold State.writeQuiet
  try dsimp only
  repeat' first
    | with_reducible assumption | with_reducible apply State.write_keeps | with_reducible apply State.mergeQuiet_keeps
    | with_reducible apply Keeps.foldl | with_reducible apply Keeps.foldl1 | with_reducible apply Keeps.foldl2 | intro _ _ _
    | intro _ _ | split

theorem State.writeEdge_keeps {z0 s : State} {q w first : Nat} {l : List (Nat × List Nat)} (hs : Keeps z0 s) :
    Keeps z0 (State.writeEdge s q w first l) := by
  unfold State.writeEdge
  try dsimp only
  repeat' first
    | with_reducible assumption | with_reducible apply State.writeQuiet_keeps | with_reducible apply Keeps.foldl
    | with_reducible apply Keeps.foldl1 | with_reducible apply Keeps.foldl2 | intro _ _ _ | intro _ _ | split

theorem State.offer_keeps {z0 s : State} {q code flags blk status : Nat} {args : List Nat} (hs : Keeps z0 s) :
    Keeps z0 (State.offer s q code flags blk status args) := by
  unfold State.offer
  try dsimp only
  repeat' first
    | with_reducible assumption | with_reducible apply State.inc_keeps | with_reducible apply State.writeEdge_keeps
    | with_reducible apply State.wr_keeps | with_reducible apply Keeps.ite
    | (fail_if_no_progress with_reducible refine Keeps.mk' ?_ rfl rfl rfl rfl rfl rfl rfl) | split

theorem State.raiseRaw_keeps {z0 s : State} {code blk status flags : Nat} {args : List Nat} (hs : Keeps z0 s) :
    Keeps z0 (State.raiseRaw s code blk status flags args) := by
  unfold State.raiseRaw
  try dsimp only
  repeat' first
    | with_reducible assumption | with_reducible apply State.offer_keeps | with_reducible apply State.inc_keeps
    | with_reducible apply Keeps.foldl | with_reducible apply Keeps.foldl1 | with_reducible apply Keeps.foldl2 | intro _ _ _
    | intro _ _ | split

theorem State.raise_keeps {z0 s : State} {code blk a1 a2 a3 status : Nat} (hs : Keeps z0 s) : Keeps z0 (State.raise s code blk a1 a2 a3 status) := by
  unfold State.raise
  try dsimp only
  repeat' first
    | with_reducible assumption | with_reducible apply State.raiseRaw_keeps

theorem State.setTb_keeps {z0 s : State} {x : TimeBase} (hs : Keeps z0 s) : Keeps z0 (State.setTb s x) := by
  unfold State.setTb
  try dsimp only
  repeat' first
    | with_reducible assumption | (fail_if_no_progress with_reducible refine Keeps.mk' ?_ rfl rfl rfl rfl rfl rfl rfl)

theorem State.raiseAgo_keeps {z0 s : State} {ago code blk a1 a2 : Nat} (hs : Keeps z0 s) : Keeps z0 (State.raiseAgo s ago code blk a1 a2) := by
  unfold State.raiseAgo
  try dsimp only
  repeat' first
    | with_reducible assumption | with_reducible apply State.raise_keeps | with_reducible apply State.setTb_keeps

theorem done_keeps {z0 s : State} (hs : Keeps z0 s) : OKeeps z0 (done s) := by
  unfold done
  try dsimp only
  repeat' first
    | with_reducible assumption | with_reducible apply OKeeps.next

theorem State.setStp_keeps {z0 s : State} {p : Nat} {x : StpPort} (hs : Keeps z0 s) : Keeps z0 (State.setStp s p x) := by
  unfold State.setStp
  try dsimp only
  repeat' first
    | with_reducible assumption | (fail_if_no_progress with_reducible refine Keeps.mk' ?_ rfl rfl rfl rfl rfl rfl rfl)

theorem State.setFollow_keeps {z0 s : State} {p : Nat} {x : Follow} (hs : Keeps z0 s) : Keeps z0 (State.setFollow s p x) := by
  unfold State.setFollow
  try dsimp only
  repeat' first
    | with_reducible assumption | (fail_if_no_progress with_reducible refine Keeps.mk' ?_ rfl rfl rfl rfl rfl rfl rfl)

theorem State.noteReached_keeps {z0 s : State} {p : Nat} (hs : Keeps z0 s) : Keeps z0 (State.noteReached s p) := by
  unfold State.noteReached
  try dsimp only
  repeat' first
    | with_reducible assumption | with_reducible apply Keeps.ite
    | (fail_if_no_progress with_reducible refine Keeps.mk' ?_ rfl rfl rfl rfl rfl rfl rfl) | split

theorem State.setSeq_keeps {z0 s : State} {q : Nat} {x : KvSeq} (hs : Keeps z0 s) : Keeps z0 (State.setSeq s q x) := by
  unfold State.setSeq
  try dsimp only
  repeat' first
    | with_reducible assumption | (fail_if_no_progress with_reducible refine Keeps.mk' ?_ rfl rfl rfl rfl rfl rfl rfl)

theorem State.setPage_keeps {z0 s : State} {i : Nat} {x : KvPage} (hs : Keeps z0 s) : Keeps z0 (State.setPage s i x) := by
  unfold State.setPage
  try dsimp only
  repeat' first
    | with_reducible assumption | (fail_if_no_progress with_reducible refine Keeps.mk' ?_ rfl rfl rfl rfl rfl rfl rfl)

theorem State.updPage_keeps {z0 s : State} {i : Nat} {f : KvPage → KvPage} (hs : Keeps z0 s) : Keeps z0 (State.updPage s i f) := by
  unfold State.updPage
  try dsimp only
  repeat' first
    | with_reducible assumption | with_reducible apply State.setPage_keeps | with_reducible apply State.inc_keeps
    | with_reducible apply Keeps.ite | split

theorem State.releaseList_keeps {z0 s : State} {x : KvSeq} (hs : Keeps z0 s) : Keeps z0 (State.releaseList s x) := by
  unfold State.releaseList
  try dsimp only
  repeat' first
    | with_reducible assumption | with_reducible apply State.updPage_keeps | with_reducible apply Keeps.ite
    | with_reducible apply Keeps.ite1 | with_reducible apply Keeps.foldl | with_reducible apply Keeps.foldl1
    | with_reducible apply Keeps.foldl2 | intro _ _ _ | intro _ _
    | (fail_if_no_progress with_reducible refine Keeps.mk' ?_ rfl rfl rfl rfl rfl rfl rfl) | split

theorem State.showSlots_keeps {z0 s : State} (hs : Keeps z0 s) : Keeps z0 (State.showSlots s) := by
  unfold State.showSlots
  try dsimp only
  repeat' first
    | with_reducible assumption | with_reducible apply State.wr_keeps

theorem State.closeSeq_keeps {z0 s : State} {q : Nat} (hs : Keeps z0 s) : Keeps z0 (State.closeSeq s q) := by
  unfold State.closeSeq
  try dsimp only
  repeat' first
    | with_reducible assumption | with_reducible apply State.showSlots_keeps | with_reducible apply State.setSeq_keeps
    | with_reducible apply State.releaseList_keeps

theorem State.closePart_keeps {z0 s : State} {p part : Nat} (hs : Keeps z0 s) : Keeps z0 (State.closePart s p part) := by
  unfold State.closePart
  try dsimp only
  repeat' first
    | with_reducible assumption | with_reducible apply State.closeSeq_keeps | with_reducible apply Keeps.foldl
    | with_reducible apply Keeps.foldl1 | with_reducible apply Keeps.foldl2 | intro _ _ _ | intro _ _ | split

theorem State.endSeq_keeps {z0 s : State} {q status : Nat} (hs : Keeps z0 s) : Keeps z0 (State.endSeq s q status) := by
  unfold State.endSeq
  try dsimp only
  repeat' first
    | with_reducible assumption | with_reducible apply State.showSlots_keeps | with_reducible apply State.setSeq_keeps
    | with_reducible apply State.releaseList_keeps

theorem State.setSds_keeps {z0 s : State} {m : Nat} {x : Sds} (hs : Keeps z0 s) : Keeps z0 (State.setSds s m x) := by
  unfold State.setSds
  try dsimp only
  repeat' first
    | with_reducible assumption | (fail_if_no_progress with_reducible refine Keeps.mk' ?_ rfl rfl rfl rfl rfl rfl rfl)

theorem State.takeInj_keeps {z0 s : State} {ms : List Nat} (hs : Keeps z0 s) : Keeps z0 (State.takeInj s ms).2 := by
  unfold State.takeInj
  try dsimp only
  repeat' first
    | with_reducible assumption | with_reducible apply State.setSds_keeps | split

theorem State.countChk_keeps {z0 s : State} {m : Nat} (hs : Keeps z0 s) : Keeps z0 (State.countChk s m) := by
  unfold State.countChk
  try dsimp only
  repeat' first
    | with_reducible assumption | with_reducible apply State.setCnt_keeps | with_reducible apply State.setSds_keeps | split

theorem State.restartChk_keeps {z0 s : State} {m : Nat} (hs : Keeps z0 s) : Keeps z0 (State.restartChk s m) := by
  unfold State.restartChk
  try dsimp only
  repeat' first
    | with_reducible assumption | with_reducible apply State.setCnt_keeps | with_reducible apply State.setSds_keeps

theorem State.showLane_keeps {z0 s : State} {m : Nat} (hs : Keeps z0 s) : Keeps z0 (State.showLane s m) := by
  unfold State.showLane
  try dsimp only
  repeat' first
    | with_reducible assumption | with_reducible apply State.wr_keeps | with_reducible apply Keeps.ite | split

theorem State.untrain_keeps {z0 s : State} {m : Nat} (hs : Keeps z0 s) : Keeps z0 (State.untrain s m) := by
  unfold State.untrain
  try dsimp only
  repeat' first
    | with_reducible assumption | with_reducible apply State.wr_keeps

theorem State.train_keeps {z0 s : State} {m r : Nat} (hs : Keeps z0 s) : Keeps z0 (State.train s m r) := by
  unfold State.train
  try dsimp only
  repeat' first
    | with_reducible assumption | with_reducible apply State.wr_keeps | with_reducible apply State.setSds_keeps
    | with_reducible apply State.setFsm_keeps | with_reducible apply State.showLane_keeps | with_reducible apply Keeps.ite | split

theorem State.send_keeps {z0 s : State} {o : Out} (hs : Keeps z0 s) : Keeps z0 (State.send s o) := by
  unfold State.send
  try dsimp only
  repeat' first
    | with_reducible assumption | (fail_if_no_progress with_reducible refine Keeps.mk' ?_ rfl rfl rfl rfl rfl rfl rfl)

theorem State.setLnk_keeps {z0 s : State} {x : Link} (hs : Keeps z0 s) : Keeps z0 (State.setLnk s x) := by
  unfold State.setLnk
  try dsimp only
  repeat' first
    | with_reducible assumption | (fail_if_no_progress with_reducible refine Keeps.mk' ?_ rfl rfl rfl rfl rfl rfl rfl)

theorem State.setLinkPort_keeps {z0 s : State} {p : Nat} {x : LinkPort} (hs : Keeps z0 s) : Keeps z0 (State.setLinkPort s p x) := by
  unfold State.setLinkPort
  try dsimp only
  repeat' first
    | with_reducible assumption | with_reducible apply State.setLnk_keeps

theorem State.putFrame_keeps {z0 s : State} {p seq : Nat} {good : Bool} {f : Frame} (hs : Keeps z0 s) : Keeps z0 (State.putFrame s p seq good f) := by
  unfold State.putFrame
  try dsimp only
  repeat' first
    | with_reducible assumption | with_reducible apply State.takeInj_keeps | with_reducible apply State.send_keeps
    | with_reducible apply State.setLinkPort_keeps

theorem State.queueFrame_keeps {z0 s : State} {p : Nat} {f : Frame} (hs : Keeps z0 s) : Keeps z0 (State.queueFrame s p f) := by
  unfold State.queueFrame
  try dsimp only
  repeat' first
    | with_reducible assumption | with_reducible apply State.setLinkPort_keeps | with_reducible apply State.putFrame_keeps
    | with_reducible apply Keeps.ite | split

theorem State.flushPort_keeps {z0 s : State} {p : Nat} (hs : Keeps z0 s) : Keeps z0 (State.flushPort s p) := by
  unfold State.flushPort
  try dsimp only
  repeat' first
    | with_reducible assumption | with_reducible apply State.queueFrame_keeps | with_reducible apply State.setLinkPort_keeps
    | with_reducible apply Keeps.foldl | with_reducible apply Keeps.foldl1 | with_reducible apply Keeps.foldl2 | intro _ _ _
    | intro _ _ | split

theorem State.sendFrame_keeps {z0 s : State} {f : Frame} (hs : Keeps z0 s) : Keeps z0 (State.sendFrame s f) := by
  unfold State.sendFrame
  try dsimp only
  repeat' first
    | with_reducible assumption | with_reducible apply State.queueFrame_keeps | with_reducible apply Keeps.ite | split

theorem State.forward_keeps {z0 s : State} {a : Nat} {f : Frame} (hs : Keeps z0 s) : Keeps z0 (State.forward s a f) := by
  unfold State.forward
  try dsimp only
  repeat' first
    | with_reducible assumption | with_reducible apply State.inc_keeps | with_reducible apply State.queueFrame_keeps
    | with_reducible apply Keeps.ite | split

theorem State.sendLack_keeps {z0 s : State} {a : Nat} (hs : Keeps z0 s) : Keeps z0 (State.sendLack s a) := by
  unfold State.sendLack
  try dsimp only
  repeat' first
    | with_reducible assumption | with_reducible apply State.putFrame_keeps

theorem State.rxFrame_keeps {z0 s : State} {a : Nat} {f : Frame} (hs : Keeps z0 s) : Keeps z0 (State.rxFrame s a f) := by
  unfold State.rxFrame
  try dsimp only
  repeat' first
    | with_reducible assumption | with_reducible apply State.setLinkPort_keeps | with_reducible apply State.setLnk_keeps
    | with_reducible apply State.inc_keeps | with_reducible apply State.sendLack_keeps | with_reducible apply State.forward_keeps
    | with_reducible apply Keeps.ite | split

theorem State.onFrame_keeps {z0 s : State} {a : Nat} {f : Frame} {k : State → State} (hs : Keeps z0 s) (hk : ∀ x, Keeps z0 x → Keeps z0 (k x)) :
    Keeps z0 (State.onFrame s a f k) := by
  unfold State.onFrame
  try dsimp only
  repeat' first
    | with_reducible assumption | with_reducible apply State.rxFrame_keeps | with_reducible apply Keeps.ite | apply hk | intro _ _ _
    | intro _ _ | split

theorem State.sendHello_keeps {z0 s : State} {p : Nat} (hs : Keeps z0 s) : Keeps z0 (State.sendHello s p) := by
  unfold State.sendHello
  try dsimp only
  repeat' first
    | with_reducible assumption | with_reducible apply State.putFrame_keeps | with_reducible apply State.setLinkPort_keeps

theorem State.setPortState_keeps {z0 s : State} {p v : Nat} (hs : Keeps z0 s) : Keeps z0 (State.setPortState s p v) := by
  unfold State.setPortState
  try dsimp only
  repeat' first
    | with_reducible assumption | with_reducible apply State.wr_keeps

theorem State.linkUp_keeps {z0 s : State} {p : Nat} (hs : Keeps z0 s) : Keeps z0 (State.linkUp s p) := by
  unfold State.linkUp
  try dsimp only
  repeat' first
    | with_reducible assumption | with_reducible apply State.sendHello_keeps | with_reducible apply State.setPortState_keeps
    | with_reducible apply State.setLinkPort_keeps

theorem State.portDown_keeps {z0 s : State} {p : Nat} (hs : Keeps z0 s) : Keeps z0 (State.portDown s p) := by
  unfold State.portDown
  try dsimp only
  repeat' first
    | with_reducible assumption | with_reducible apply State.raise_keeps | with_reducible apply State.inc_keeps
    | with_reducible apply State.setPortState_keeps | with_reducible apply State.setLinkPort_keeps
    | with_reducible apply State.sendFrame_keeps | with_reducible apply State.linkUp_keeps | with_reducible apply Keeps.ite
    | with_reducible apply Keeps.ite1 | with_reducible apply Keeps.foldl | with_reducible apply Keeps.foldl1
    | with_reducible apply Keeps.foldl2 | intro _ _ _ | intro _ _ | split

theorem State.setMembers_keeps {z0 s : State} {joined serving : Nat} (hs : Keeps z0 s) : Keeps z0 (State.setMembers s joined serving) := by
  unfold State.setMembers
  try dsimp only
  repeat' first
    | with_reducible assumption | with_reducible apply State.wr_keeps | with_reducible apply Keeps.ite | split

theorem State.sendMembers_keeps {z0 s : State} (hs : Keeps z0 s) : Keeps z0 (State.sendMembers s) := by
  unfold State.sendMembers
  try dsimp only
  repeat' first
    | with_reducible assumption | with_reducible apply State.sendFrame_keeps

theorem State.upgReport_keeps {z0 s : State} {ok : Bool} (hs : Keeps z0 s) : Keeps z0 (State.upgReport s ok) := by
  unfold State.upgReport
  try dsimp only
  repeat' first
    | with_reducible assumption | with_reducible apply State.setLnk_keeps | with_reducible apply State.sendFrame_keeps
    | with_reducible apply Keeps.ite | split

theorem State.upgPart_keeps {z0 s : State} {p : Nat} {start : Int} (hs : Keeps z0 s) : Keeps z0 (State.upgPart s p start) := by
  unfold State.upgPart
  try dsimp only
  repeat' first
    | with_reducible assumption | with_reducible apply State.upgReport_keeps | with_reducible apply Keeps.ite
    | with_reducible apply Keeps.ite1 | split

theorem State.setField_keeps {z0 s : State} {f : Field} (hs : Keeps z0 s) : Keeps z0 (State.setField s f) := by
  unfold State.setField
  try dsimp only
  repeat' first
    | with_reducible assumption | (fail_if_no_progress with_reducible refine Keeps.mk' ?_ rfl rfl rfl rfl rfl rfl rfl)

theorem State.refreshFio_keeps {z0 s : State} (hs : Keeps z0 s) : Keeps z0 (State.refreshFio s) := by
  unfold State.refreshFio
  try dsimp only
  repeat' first
    | with_reducible assumption | with_reducible apply State.wr_keeps | with_reducible apply State.raise_keeps
    | with_reducible apply Keeps.ite | with_reducible apply Keeps.ite1 | with_reducible apply Keeps.foldl
    | with_reducible apply Keeps.foldl1 | with_reducible apply Keeps.foldl2 | intro _ _ _ | intro _ _ | split

theorem State.endPulse_keeps {z0 s : State} {n : Nat} (hs : Keeps z0 s) : Keeps z0 (State.endPulse s n) := by
  unfold State.endPulse
  try dsimp only
  repeat' first
    | with_reducible assumption | (fail_if_no_progress with_reducible refine Keeps.mk' ?_ rfl rfl rfl rfl rfl rfl rfl)

theorem State.startPulse_keeps {z0 s : State} {p n ns : Nat} (hs : Keeps z0 s) : Keeps z0 (State.startPulse s p n ns) := by
  unfold State.startPulse
  try dsimp only
  repeat' first
    | with_reducible assumption | (fail_if_no_progress with_reducible refine Keeps.mk' ?_ rfl rfl rfl rfl rfl rfl rfl)

theorem State.fireClass_keeps {z0 s : State} {p c : Nat} (hs : Keeps z0 s) : Keeps z0 (State.fireClass s p c).1 := by
  unfold State.fireClass
  try dsimp only
  repeat' first
    | with_reducible assumption | with_reducible apply State.startPulse_keeps | with_reducible apply State.refreshFio_keeps
    | with_reducible apply Keeps.ite | with_reducible apply Keeps.ite1 | with_reducible apply Keeps.foldl
    | with_reducible apply Keeps.foldl1 | with_reducible apply Keeps.foldl2 | intro _ _ _ | intro _ _ | split

theorem State.setStb_keeps {z0 s : State} {b : Nat} {x : Option (Nat × Nat)} (hs : Keeps z0 s) : Keeps z0 (State.setStb s b x) := by
  unfold State.setStb
  try dsimp only
  repeat' first
    | with_reducible assumption | (fail_if_no_progress with_reducible refine Keeps.mk' ?_ rfl rfl rfl rfl rfl rfl rfl)

theorem State.strobe_keeps {z0 s : State} {b src : Nat} (hs : Keeps z0 s) : Keeps z0 (State.strobe s b src) := by
  unfold State.strobe
  try dsimp only
  repeat' first
    | with_reducible assumption | with_reducible apply State.inc_keeps | with_reducible apply State.setStb_keeps
    | with_reducible apply Keeps.ite | with_reducible apply Keeps.ite1 | split

theorem State.camStrobes_keeps {z0 s : State} {n : Nat} (hs : Keeps z0 s) : Keeps z0 (State.camStrobes s n) := by
  unfold State.camStrobes
  try dsimp only
  repeat' first
    | with_reducible assumption | with_reducible apply State.strobe_keeps | with_reducible apply Keeps.ite
    | with_reducible apply Keeps.ite1 | with_reducible apply Keeps.foldl | with_reducible apply Keeps.foldl1
    | with_reducible apply Keeps.foldl2 | intro _ _ _ | intro _ _ | split

theorem State.deny_keeps {z0 s : State} {i : Nat} {write : Bool} {a : Nat} (hs : Keeps z0 s) : Keeps z0 (State.deny s i write a) := by
  unfold State.deny
  try dsimp only
  repeat' first
    | with_reducible assumption | with_reducible apply State.answer_keeps | with_reducible apply State.wr64_keeps
    | with_reducible apply State.wr_keeps | with_reducible apply State.raise_keeps | with_reducible apply State.inc_keeps
    | with_reducible apply Keeps.ite | split

theorem State.checkStore_keeps {z0 s : State} {i : Nat} {write : Bool} {a n : Nat} (hs : Keeps z0 s) :
    Keeps z0 (State.checkStore s i write a n).1 := by
  unfold State.checkStore
  try dsimp only
  repeat' first
    | with_reducible assumption | with_reducible apply State.deny_keeps | with_reducible apply Keeps.ite
    | with_reducible apply Keeps.ite1 | split

theorem State.setEjt_keeps {z0 s : State} {p : Nat} {x : EjtUnit} (hs : Keeps z0 s) : Keeps z0 (State.setEjt s p x) := by
  unfold State.setEjt
  try dsimp only
  repeat' first
    | with_reducible assumption | (fail_if_no_progress with_reducible refine Keeps.mk' ?_ rfl rfl rfl rfl rfl rfl rfl)

theorem State.setSlot_keeps {z0 s : State} {p k : Nat} {x : Option Slot} (hs : Keeps z0 s) : Keeps z0 (State.setSlot s p k x) := by
  unfold State.setSlot
  try dsimp only
  repeat' first
    | with_reducible assumption | with_reducible apply State.wr_keeps | with_reducible apply State.setEjt_keeps

theorem State.setMerge_keeps {z0 s : State} {p k : Nat} {m : Option Merge} (hs : Keeps z0 s) : Keeps z0 (State.setMerge s p k m) := by
  unfold State.setMerge
  try dsimp only
  repeat' first
    | with_reducible assumption | (fail_if_no_progress with_reducible refine Keeps.mk' ?_ rfl rfl rfl rfl rfl rfl rfl)

theorem State.putRecord_keeps {z0 s : State} {p : Nat} {r : List Nat} (hs : Keeps z0 s) : Keeps z0 (State.putRecord s p r) := by
  unfold State.putRecord
  try dsimp only
  repeat' first
    | with_reducible assumption | with_reducible apply State.inc_keeps | with_reducible apply State.checkStore_keeps
    | with_reducible apply State.wr_keeps | with_reducible apply State.writeQuiet_keeps | with_reducible apply Keeps.ite
    | with_reducible apply Keeps.ite1 | (fail_if_no_progress with_reducible refine Keeps.mk' ?_ rfl rfl rfl rfl rfl rfl rfl) | split

theorem State.setSch_keeps {z0 s : State} {x : Sched} (hs : Keeps z0 s) : Keeps z0 (State.setSch s x) := by
  unfold State.setSch
  try dsimp only
  repeat' first
    | with_reducible assumption | (fail_if_no_progress with_reducible refine Keeps.mk' ?_ rfl rfl rfl rfl rfl rfl rfl)

theorem State.setCtxState_keeps {z0 s : State} {k v : Nat} (hs : Keeps z0 s) : Keeps z0 (State.setCtxState s k v) := by
  unfold State.setCtxState
  try dsimp only
  repeat' first
    | with_reducible assumption | with_reducible apply State.wr_keeps | with_reducible apply State.wr64_keeps
    | with_reducible apply Keeps.ite | split

theorem State.emptyCtx_keeps {z0 s : State} {k : Nat} (hs : Keeps z0 s) : Keeps z0 (State.emptyCtx s k) := by
  unfold State.emptyCtx
  try dsimp only
  repeat' first
    | with_reducible assumption | with_reducible apply State.setSch_keeps | with_reducible apply State.setCtxState_keeps

theorem State.settleCtx_keeps {z0 s : State} {k : Nat} (hs : Keeps z0 s) : Keeps z0 (State.settleCtx s k) := by
  unfold State.settleCtx
  try dsimp only
  repeat' first
    | with_reducible assumption | with_reducible apply State.setCtxState_keeps | with_reducible apply State.emptyCtx_keeps
    | with_reducible apply Keeps.ite | split

theorem State.settleCtxs_keeps {z0 s : State} (hs : Keeps z0 s) : Keeps z0 (State.settleCtxs s) := by
  unfold State.settleCtxs
  try dsimp only
  repeat' first
    | with_reducible assumption | with_reducible apply State.settleCtx_keeps | with_reducible apply Keeps.foldl
    | with_reducible apply Keeps.foldl1 | with_reducible apply Keeps.foldl2 | intro _ _ _ | intro _ _ | split

theorem State.slotCommit_keeps {z0 s : State} {p k : Nat} {c : Commit} (hs : Keeps z0 s) : Keeps z0 (State.slotCommit s p k c) := by
  unfold State.slotCommit
  try dsimp only
  repeat' first
    | with_reducible assumption | with_reducible apply State.inc_keeps | with_reducible apply State.setSlot_keeps
    | with_reducible apply State.settleCtxs_keeps | with_reducible apply State.closePart_keeps | with_reducible apply Keeps.ite
    | with_reducible apply Keeps.ite1 | split

theorem State.hwDoubt_keeps {z0 s : State} {p k : Nat} {overspeed : Bool} (hs : Keeps z0 s) : Keeps z0 (State.hwDoubt s p k overspeed) := by
  unfold State.hwDoubt
  try dsimp only
  repeat' first
    | with_reducible assumption | with_reducible apply State.setSlot_keeps | with_reducible apply State.setMerge_keeps
    | with_reducible apply State.slotCommit_keeps | with_reducible apply Keeps.ite | with_reducible apply Keeps.ite1 | split

theorem State.setHlt_keeps {z0 s : State} {h : Halter} (hs : Keeps z0 s) : Keeps z0 (State.setHlt s h) := by
  unfold State.setHlt
  try dsimp only
  repeat' first
    | with_reducible assumption | (fail_if_no_progress with_reducible refine Keeps.mk' ?_ rfl rfl rfl rfl rfl rfl rfl)

theorem State.writeEscalation_keeps {z0 s : State} {level cause stage port : Nat} (hs : Keeps z0 s) :
    Keeps z0 (State.writeEscalation s level cause stage port) := by
  unfold State.writeEscalation
  try dsimp only
  repeat' first
    | with_reducible assumption | with_reducible apply State.write_keeps

theorem State.safeReaction_keeps {z0 s : State} {cause stage port : Nat} (hs : Keeps z0 s) : Keeps z0 (State.safeReaction s cause stage port) := by
  unfold State.safeReaction
  try dsimp only
  repeat' first
    | with_reducible assumption | with_reducible apply State.writeEscalation_keeps | with_reducible apply State.setField_keeps
    | with_reducible apply State.refreshFio_keeps | with_reducible apply State.wr_keeps | with_reducible apply State.setHlt_keeps
    | with_reducible apply State.raise_keeps | with_reducible apply Keeps.ite | split

theorem State.fbCommit_keeps {z0 s : State} {p k verdict : Nat} (hs : Keeps z0 s) : Keeps z0 (State.fbCommit s p k verdict) := by
  unfold State.fbCommit
  try dsimp only
  repeat' first
    | with_reducible assumption | with_reducible apply State.inc_keeps | with_reducible apply State.slotCommit_keeps

theorem State.slotToFb_keeps {z0 s : State} {p k : Nat} (hs : Keeps z0 s) : Keeps z0 (State.slotToFb s p k) := by
  unfold State.slotToFb
  try dsimp only
  repeat' first
    | with_reducible assumption | with_reducible apply State.setSlot_keeps | with_reducible apply State.fbCommit_keeps
    | with_reducible apply Keeps.ite | with_reducible apply Keeps.ite1 | split

theorem State.switchPort_keeps {z0 s : State} {cause stage p : Nat} (hs : Keeps z0 s) : Keeps z0 (State.switchPort s cause stage p) := by
  unfold State.switchPort
  try dsimp only
  repeat' first
    | with_reducible assumption | with_reducible apply State.safeReaction_keeps | with_reducible apply State.wr_keeps
    | with_reducible apply State.upgReport_keeps | with_reducible apply State.raise_keeps | with_reducible apply State.inc_keeps
    | with_reducible apply State.slotToFb_keeps | with_reducible apply Keeps.ite | with_reducible apply Keeps.ite1
    | with_reducible apply Keeps.foldl | with_reducible apply Keeps.foldl1 | with_reducible apply Keeps.foldl2 | intro _ _ _
    | intro _ _ | split

theorem State.markS7_keeps {z0 s : State} {k : Nat} (hs : Keeps z0 s) : Keeps z0 (State.markS7 s k) := by
  unfold State.markS7
  try dsimp only
  repeat' first
    | with_reducible assumption | with_reducible apply State.setHlt_keeps | with_reducible apply Keeps.ite | split

theorem State.stageFault_keeps {z0 s : State} {stage code kind : Nat} (hs : Keeps z0 s) : Keeps z0 (State.stageFault s stage code kind) := by
  unfold State.stageFault
  try dsimp only
  repeat' first
    | with_reducible assumption | with_reducible apply State.wr_keeps | with_reducible apply State.raise_keeps
    | with_reducible apply State.inc_keeps | with_reducible apply State.safeReaction_keeps
    | with_reducible apply State.switchPort_keeps | with_reducible apply Keeps.ite | with_reducible apply Keeps.ite1
    | with_reducible apply Keeps.foldl | with_reducible apply Keeps.foldl1 | with_reducible apply Keeps.foldl2 | intro _ _ _
    | intro _ _ | split

theorem State.stage7_keeps {z0 s : State} {code k : Nat} (hs : Keeps z0 s) : Keeps z0 (State.stage7 s code k) := by
  unfold State.stage7
  try dsimp only
  repeat' first
    | with_reducible assumption | with_reducible apply State.stageFault_keeps | with_reducible apply State.markS7_keeps

theorem State.stageReportAt_keeps {z0 s : State} {p k stage : Nat} (hs : Keeps z0 s) : Keeps z0 (State.stageReportAt s p k stage) := by
  unfold State.stageReportAt
  try dsimp only
  repeat' first
    | with_reducible assumption | with_reducible apply State.setSlot_keeps | with_reducible apply State.stageFault_keeps
    | with_reducible apply Keeps.ite | with_reducible apply Keeps.ite1 | split

theorem State.stageUnknown_keeps {z0 s : State} {p stage : Nat} (hs : Keeps z0 s) : Keeps z0 (State.stageUnknown s p stage) := by
  unfold State.stageUnknown
  try dsimp only
  repeat' first
    | with_reducible assumption | with_reducible apply State.stageFault_keeps

theorem State.recordReport_keeps {z0 s : State} {p k : Nat} (hs : Keeps z0 s) : Keeps z0 (State.recordReport s p k) := by
  unfold State.recordReport
  try dsimp only
  repeat' first
    | with_reducible assumption | with_reducible apply State.stageReportAt_keeps | with_reducible apply State.wr_keeps
    | with_reducible apply Keeps.ite | with_reducible apply Keeps.ite1 | split

theorem State.discardSlots_keeps {z0 s : State} {p cause : Nat} (hs : Keeps z0 s) : Keeps z0 (State.discardSlots s p cause).1 := by
  unfold State.discardSlots
  try dsimp only
  repeat' first
    | with_reducible assumption | with_reducible apply State.putRecord_keeps | with_reducible apply State.setMerge_keeps
    | with_reducible apply State.setSlot_keeps | with_reducible apply State.recordReport_keeps | with_reducible apply Keeps.foldl
    | with_reducible apply Keeps.foldl1 | with_reducible apply Keeps.foldl2 | intro _ _ _ | intro _ _ | split

theorem State.stpLeft_keeps {z0 s : State} {p : Nat} {fence : Bool} (hs : Keeps z0 s) : Keeps z0 (State.stpLeft s p fence) := by
  unfold State.stpLeft
  try dsimp only
  repeat' first
    | with_reducible assumption | with_reducible apply State.discardSlots_keeps | with_reducible apply State.wr_keeps
    | with_reducible apply State.setEjt_keeps | with_reducible apply State.stage7_keeps | with_reducible apply Keeps.ite
    | with_reducible apply Keeps.ite1 | split

theorem State.ejtLeft_keeps {z0 s : State} {p : Nat} (hs : Keeps z0 s) : Keeps z0 (State.ejtLeft s p) := by
  unfold State.ejtLeft
  try dsimp only
  repeat' first
    | with_reducible assumption | with_reducible apply State.discardSlots_keeps | with_reducible apply State.setEjt_keeps
    | with_reducible apply State.stageFault_keeps | with_reducible apply Keeps.ite | with_reducible apply Keeps.ite1 | split

theorem State.haltUe_keeps {z0 s : State} (hs : Keeps z0 s) : Keeps z0 (State.haltUe s) := by
  unfold State.haltUe
  try dsimp only
  repeat' first
    | with_reducible assumption | with_reducible apply State.setHlt_keeps | with_reducible apply State.switchPort_keeps
    | with_reducible apply Keeps.ite | split

theorem State.selfFault_keeps {z0 s : State} (hs : Keeps z0 s) : Keeps z0 (State.selfFault s) := by
  unfold State.selfFault
  try dsimp only
  repeat' first
    | with_reducible assumption | with_reducible apply State.setField_keeps | with_reducible apply State.refreshFio_keeps
    | with_reducible apply State.wr_keeps | with_reducible apply State.writeEscalation_keeps
    | with_reducible apply State.setHlt_keeps | with_reducible apply Keeps.ite | split

theorem State.setMem_keeps {z0 s : State} {m : MemUnit} (hs : Keeps z0 s) : Keeps z0 (State.setMem s m) := by
  unfold State.setMem
  try dsimp only
  repeat' first
    | with_reducible assumption | (fail_if_no_progress with_reducible refine Keeps.mk' ?_ rfl rfl rfl rfl rfl rfl rfl)

theorem State.logError_keeps {z0 s : State} {r : LogRec} (hs : Keeps z0 s) : Keeps z0 (State.logError s r) := by
  unfold State.logError
  try dsimp only
  repeat' first
    | with_reducible assumption | with_reducible apply State.setMem_keeps | with_reducible apply State.inc_keeps
    | with_reducible apply Keeps.ite | split

theorem State.correctedRate_keeps {z0 s : State} {unit : Nat} (hs : Keeps z0 s) : Keeps z0 (State.correctedRate s unit) := by
  unfold State.correctedRate
  try dsimp only
  repeat' first
    | with_reducible assumption | with_reducible apply State.setMem_keeps | with_reducible apply State.raise_keeps
    | with_reducible apply Keeps.ite | split

theorem State.memUe_keeps {z0 s : State} {blk addr status : Nat} (hs : Keeps z0 s) : Keeps z0 (State.memUe s blk addr status) := by
  unfold State.memUe
  try dsimp only
  repeat' first
    | with_reducible assumption | with_reducible apply State.haltUe_keeps | with_reducible apply State.raise_keeps

theorem State.report_keeps {z0 s : State} {r : LogRec} (hs : Keeps z0 s) : Keeps z0 (State.report s r) := by
  unfold State.report
  try dsimp only
  repeat' first
    | with_reducible assumption | with_reducible apply State.logError_keeps | with_reducible apply State.correctedRate_keeps
    | with_reducible apply State.inc_keeps | with_reducible apply State.raise_keeps | with_reducible apply State.memUe_keeps
    | with_reducible apply Keeps.ite | split

theorem State.sendSub_keeps {z0 s : State} {p part verdict : Nat} {fb : Bool} (hs : Keeps z0 s) : Keeps z0 (State.sendSub s p part verdict fb) := by
  unfold State.sendSub
  try dsimp only
  repeat' first
    | with_reducible assumption | with_reducible apply State.sendFrame_keeps | with_reducible apply Keeps.ite | split

theorem State.mergeCommit_keeps {z0 s : State} {p k : Nat} (hs : Keeps z0 s) : Keeps z0 (State.mergeCommit s p k) := by
  unfold State.mergeCommit
  try dsimp only
  repeat' first
    | with_reducible assumption | with_reducible apply State.setMerge_keeps | with_reducible apply State.sendSub_keeps
    | with_reducible apply State.slotCommit_keeps | with_reducible apply State.stageReportAt_keeps | with_reducible apply Keeps.ite
    | with_reducible apply Keeps.ite1 | split

theorem State.checkReport_keeps {z0 s : State} {p part c verdict status : Nat} {degraded : Bool} (hs : Keeps z0 s) :
    Keeps z0 (State.checkReport s p part c verdict status degraded) := by
  unfold State.checkReport
  try dsimp only
  repeat' first
    | with_reducible assumption | with_reducible apply State.stageUnknown_keeps | with_reducible apply State.inc_keeps
    | with_reducible apply State.setMerge_keeps | with_reducible apply State.stageReportAt_keeps
    | with_reducible apply State.mergeCommit_keeps | with_reducible apply State.upgPart_keeps | with_reducible apply Keeps.ite
    | with_reducible apply Keeps.ite1 | split

theorem State.deadlineAt_keeps {z0 s : State} {p k : Nat} (hs : Keeps z0 s) : Keeps z0 (State.deadlineAt s p k) := by
  unfold State.deadlineAt
  try dsimp only
  repeat' first
    | with_reducible assumption | with_reducible apply State.hwDoubt_keeps | with_reducible apply State.mergeCommit_keeps

theorem State.fbReady_keeps {z0 s : State} {p part verdict : Nat} (hs : Keeps z0 s) : Keeps z0 (State.fbReady s p part verdict) := by
  unfold State.fbReady
  try dsimp only
  repeat' first
    | with_reducible assumption | with_reducible apply State.setHlt_keeps | with_reducible apply State.fbCommit_keeps
    | with_reducible apply Keeps.ite | with_reducible apply Keeps.ite1 | split

theorem State.openPart_keeps {z0 s : State} {p part : Nat} {start : Int} (hs : Keeps z0 s) : Keeps z0 (State.openPart s p part start) := by
  unfold State.openPart
  try dsimp only
  repeat' first
    | with_reducible assumption | with_reducible apply State.stageFault_keeps | with_reducible apply State.raise_keeps
    | with_reducible apply State.inc_keeps | with_reducible apply State.setSlot_keeps | with_reducible apply State.setMerge_keeps
    | with_reducible apply State.fbReady_keeps | with_reducible apply Keeps.ite | with_reducible apply Keeps.ite1 | split

theorem State.fbLine_keeps {z0 s : State} {cam p part cols nrows : Nat} {l : Bool × List (List Nat)} (hs : Keeps z0 s) :
    Keeps z0 (State.fbLine s cam p part cols nrows l) := by
  unfold State.fbLine
  try dsimp only
  repeat' first
    | with_reducible assumption | with_reducible apply State.setHlt_keeps | with_reducible apply Keeps.ite
    | with_reducible apply Keeps.ite1 | split

theorem State.writeField_keeps {z0 s : State} {job : Bool} {b v : Nat} {f : Fld} (hs : Keeps z0 s) : Keeps z0 (State.writeField s job b v f) := by
  unfold State.writeField
  try dsimp only
  repeat' first
    | with_reducible assumption | with_reducible apply State.wrAct_keeps | with_reducible apply State.wr_keeps
    | with_reducible apply State.setCnt_keeps | with_reducible apply Keeps.ite | with_reducible apply Keeps.ite1 | split

theorem State.writeFields_keeps {z0 s : State} {job : Bool} {b off v : Nat} {skip : optParam (Fld → Bool) fun x => false} (hs : Keeps z0 s) :
    Keeps z0 (State.writeFields s job b off v skip) := by
  unfold State.writeFields
  try dsimp only
  repeat' first
    | with_reducible assumption | with_reducible apply State.writeField_keeps | with_reducible apply Keeps.ite
    | with_reducible apply Keeps.ite1 | with_reducible apply Keeps.foldl | with_reducible apply Keeps.foldl1
    | with_reducible apply Keeps.foldl2 | intro _ _ _ | intro _ _ | split

theorem State.forceWord_keeps {z0 s : State} {b off v : Nat} (hs : Keeps z0 s) : Keeps z0 (State.forceWord s b off v) := by
  unfold State.forceWord
  try dsimp only
  repeat' first
    | with_reducible assumption | with_reducible apply State.wrAct_keeps | with_reducible apply State.wr_keeps
    | with_reducible apply Keeps.ite | with_reducible apply Keeps.ite1 | with_reducible apply Keeps.foldl
    | with_reducible apply Keeps.foldl1 | with_reducible apply Keeps.foldl2 | intro _ _ _ | intro _ _ | split

theorem State.setPstate_keeps {z0 s : State} {n v : Nat} (hs : Keeps z0 s) : Keeps z0 (State.setPstate s n v) := by
  unfold State.setPstate
  try dsimp only
  repeat' first
    | with_reducible assumption | with_reducible apply State.wr_keeps

theorem State.saveBlk_keeps {z0 s : State} {b : Nat} (hs : Keeps z0 s) : Keeps z0 (State.saveBlk s b) := by
  unfold State.saveBlk
  try dsimp only
  repeat' first
    | with_reducible assumption | with_reducible apply State.write_keeps | with_reducible apply Keeps.ite
    | (fail_if_no_progress with_reducible refine Keeps.mk' ?_ rfl rfl rfl rfl rfl rfl rfl) | split

theorem State.saveClk_keeps {z0 s : State} {n : Nat} (hs : Keeps z0 s) : Keeps z0 (State.saveClk s n) := by
  unfold State.saveClk
  try dsimp only
  repeat' first
    | with_reducible assumption | with_reducible apply State.write_keeps

theorem State.powerClear_keeps {z0 s : State} {b : Nat} (hs : Keeps z0 s) : Keeps z0 (State.powerClear s b) := by
  exact State.wr_keeps (hs.trans ⟨fun c => ⟨c.1, Store.wf_filter _ c.2.1, c.2.2⟩, id, rfl, Nat.le_refl _⟩)

theorem State.restoreRegs_keeps {z0 s : State} {b : Nat} (hs : Keeps z0 s) : Keeps z0 (State.restoreRegs s b) := by
  unfold State.restoreRegs
  try dsimp only
  repeat' first
    | with_reducible assumption | with_reducible apply State.forceWord_keeps | with_reducible apply Keeps.foldl
    | with_reducible apply Keeps.foldl1 | with_reducible apply Keeps.foldl2 | intro _ _ _ | intro _ _ | split

theorem State.latchWake_keeps {z0 s : State} {src : Nat} (hs : Keeps z0 s) : Keeps z0 (State.latchWake s src) := by
  unfold State.latchWake
  try dsimp only
  repeat' first
    | with_reducible assumption | with_reducible apply State.wr_keeps | with_reducible apply Keeps.ite | split

theorem State.setPwr_keeps {z0 s : State} {x : Power} (hs : Keeps z0 s) : Keeps z0 (State.setPwr s x) := by
  unfold State.setPwr
  try dsimp only
  repeat' first
    | with_reducible assumption | (fail_if_no_progress with_reducible refine Keeps.mk' ?_ rfl rfl rfl rfl rfl rfl rfl)

theorem State.wake_keeps {z0 s : State} {src : Nat} (hs : Keeps z0 s) : Keeps z0 (State.wake s src) := by
  unfold State.wake
  try dsimp only
  repeat' first
    | with_reducible assumption | with_reducible apply State.latchWake_keeps | with_reducible apply State.setPwr_keeps
    | with_reducible apply State.raise_keeps | with_reducible apply State.inc_keeps | with_reducible apply State.wr_keeps
    | with_reducible apply Keeps.ite | with_reducible apply Keeps.ite1 | split

end Sys2Proof.Machine
end

