-- ==== Sys2Proof/Laws/KeepsField.lean ====
section
/-!
SUPPORT. What is kept (Keeps) by positions, slots, time, Halter, memory reads and DMA transfers.
-/

namespace Sys2Proof.Machine

set_option linter.unreachableTactic false
set_option linter.unusedTactic false
set_option maxRecDepth 100000
set_option linter.unusedVariables false

theorem State.stpEnterOn_keeps {z0 s : State} {p : Nat} (hs : Keeps z0 s) : Keeps z0 (State.stpEnterOn s p) := by
  unfold State.stpEnterOn
  try dsimp only
  repeat' first
    | with_reducible assumption | with_reducible apply State.setStp_keeps | with_reducible apply State.wr_keeps

theorem State.markAffected_keeps {z0 s : State} {p : Nat} (hs : Keeps z0 s) : Keeps z0 (State.markAffected s p) := by
  unfold State.markAffected
  try dsimp only
  repeat' first
    | with_reducible assumption | with_reducible apply State.setSlot_keeps | with_reducible apply Keeps.foldl
    | with_reducible apply Keeps.foldl1 | with_reducible apply Keeps.foldl2 | intro _ _ _ | intro _ _ | split

theorem State.encFault_keeps {z0 s : State} {p : Nat} (hs : Keeps z0 s) : Keeps z0 (State.encFault s p) := by
  unfold State.encFault
  try dsimp only
  repeat' first
    | with_reducible assumption | with_reducible apply State.setStp_keeps | with_reducible apply State.wr_keeps
    | with_reducible apply State.raise_keeps | with_reducible apply State.inc_keeps | with_reducible apply State.stage7_keeps
    | with_reducible apply State.markAffected_keeps | with_reducible apply Keeps.ite | split

theorem State.illegalEvent_keeps {z0 s : State} {p : Nat} (hs : Keeps z0 s) : Keeps z0 (State.illegalEvent s p) := by
  unfold State.illegalEvent
  try dsimp only
  repeat' first
    | with_reducible assumption | with_reducible apply State.setStp_keeps | with_reducible apply State.wr_keeps
    | with_reducible apply State.encFault_keeps | with_reducible apply Keeps.ite | split

theorem State.takeDir_keeps {z0 s : State} {p : Nat} {back : Bool} (hs : Keeps z0 s) : Keeps z0 (State.takeDir s p back) := by
  unfold State.takeDir
  try dsimp only
  repeat' first
    | with_reducible assumption | with_reducible apply State.inc_keeps | with_reducible apply State.wr_keeps
    | with_reducible apply Keeps.ite | split

theorem State.takeEdge_keeps {z0 s : State} {p te : Nat} {delta : Int} (hs : Keeps z0 s) : Keeps z0 (State.takeEdge s p te delta) := by
  unfold State.takeEdge
  try dsimp only
  repeat' first
    | with_reducible assumption | with_reducible apply State.wr_keeps | with_reducible apply State.setStp_keeps
    | with_reducible apply State.takeDir_keeps | with_reducible apply Keeps.ite | split

theorem State.motion_keeps {z0 s : State} {p te : Nat} {delta : Int} (hs : Keeps z0 s) : Keeps z0 (State.motion s p te delta) := by
  unfold State.motion
  try dsimp only
  repeat' first
    | with_reducible assumption | with_reducible apply State.noteReached_keeps | with_reducible apply State.takeEdge_keeps

theorem State.ssiFail_keeps {z0 s : State} {p : Nat} {jump : Bool} (hs : Keeps z0 s) : Keeps z0 (State.ssiFail s p jump) := by
  unfold State.ssiFail
  try dsimp only
  repeat' first
    | with_reducible assumption | with_reducible apply State.illegalEvent_keeps | with_reducible apply State.inc_keeps
    | with_reducible apply Keeps.ite | split

theorem doEncoderEdge_keeps {z0 : State} {t p : Nat} {a b : Bool} {held : Nat} {s : State} (hs : Keeps z0 s) :
    Keeps z0 (doEncoderEdge t p a b held s) := by
  unfold doEncoderEdge
  try dsimp only
  repeat' first
    | with_reducible assumption | with_reducible apply State.at_keeps | with_reducible apply State.setStp_keeps
    | with_reducible apply State.wake_keeps | with_reducible apply State.illegalEvent_keeps | with_reducible apply State.inc_keeps
    | with_reducible apply State.motion_keeps | with_reducible apply Keeps.ite | split

theorem execUncertainExpiry_keeps {z0 : State} {t p : Nat} {s : State} (hs : Keeps z0 s) : OKeeps z0 (execUncertainExpiry t p s) := by
  unfold execUncertainExpiry
  try dsimp only
  repeat' first
    | with_reducible assumption | with_reducible apply State.at_keeps | with_reducible apply State.wr_keeps
    | with_reducible apply OKeeps.next | with_reducible apply OKeeps.ite | with_reducible apply Keeps.ite | split

theorem execFaultNowExpiry_keeps {z0 : State} {t p : Nat} {s : State} (hs : Keeps z0 s) : OKeeps z0 (execFaultNowExpiry t p s) := by
  unfold execFaultNowExpiry
  try dsimp only
  repeat' first
    | with_reducible assumption | with_reducible apply State.at_keeps | with_reducible apply State.wr_keeps
    | with_reducible apply OKeeps.next | with_reducible apply OKeeps.ite | with_reducible apply Keeps.ite | split

theorem execWireBreak_keeps {z0 : State} {t p pair : Nat} {s : State} (hs : Keeps z0 s) : OKeeps z0 (execWireBreak t p pair s) := by
  unfold execWireBreak
  try dsimp only
  repeat' first
    | with_reducible assumption | with_reducible apply State.at_keeps | with_reducible apply State.encFault_keeps
    | with_reducible apply State.inc_keeps | with_reducible apply State.wr_keeps | with_reducible apply OKeeps.next
    | with_reducible apply OKeeps.ite | with_reducible apply Keeps.ite | split

theorem execWireBreakEnd_keeps {z0 : State} {t p pair : Nat} {s : State} (hs : Keeps z0 s) : OKeeps z0 (execWireBreakEnd t p pair s) := by
  unfold execWireBreakEnd
  try dsimp only
  repeat' first
    | with_reducible assumption | with_reducible apply State.at_keeps | with_reducible apply State.setStp_keeps
    | with_reducible apply State.wr_keeps | with_reducible apply OKeeps.next | with_reducible apply OKeeps.ite
    | with_reducible apply Keeps.ite | split

theorem execIndexEdge_keeps {z0 : State} {t p held : Nat} {s : State} (hs : Keeps z0 s) : OKeeps z0 (execIndexEdge t p held s) := by
  unfold execIndexEdge
  try dsimp only
  repeat' first
    | with_reducible assumption | with_reducible apply State.at_keeps | with_reducible apply State.wr64_keeps
    | with_reducible apply State.inc_keeps | with_reducible apply State.wr_keeps | with_reducible apply State.noteReached_keeps
    | with_reducible apply State.setStp_keeps | with_reducible apply OKeeps.next | with_reducible apply OKeeps.ite
    | with_reducible apply Keeps.ite | split

theorem execSsiReadStart_keeps {z0 : State} {t p : Nat} {lineOne : Bool} {s : State} (hs : Keeps z0 s) :
    OKeeps z0 (execSsiReadStart t p lineOne s) := by
  unfold execSsiReadStart
  try dsimp only
  repeat' first
    | with_reducible assumption | with_reducible apply State.at_keeps | with_reducible apply State.setStp_keeps
    | with_reducible apply State.send_keeps | with_reducible apply State.ssiFail_keeps | with_reducible apply OKeeps.next
    | with_reducible apply OKeeps.ite | with_reducible apply Keeps.ite | split

theorem State.ssiAccept_keeps {z0 s : State} {p te w : Nat} (hs : Keeps z0 s) : Keeps z0 (State.ssiAccept s p te w) := by
  unfold State.ssiAccept
  try dsimp only
  repeat' first
    | with_reducible assumption | with_reducible apply State.noteReached_keeps | with_reducible apply State.setStp_keeps
    | with_reducible apply State.ssiFail_keeps | with_reducible apply State.motion_keeps | with_reducible apply Keeps.ite
    | with_reducible apply Keeps.ite1 | split

theorem doSsiReadDone_keeps {z0 : State} {t p startBit word : Nat} {idleOk : Bool} {s : State} (hs : Keeps z0 s) :
    Keeps z0 (doSsiReadDone t p startBit word idleOk s) := by
  unfold doSsiReadDone
  try dsimp only
  repeat' first
    | with_reducible assumption | with_reducible apply State.at_keeps | with_reducible apply State.setStp_keeps
    | with_reducible apply State.ssiFail_keeps | with_reducible apply State.ssiAccept_keeps | with_reducible apply Keeps.ite
    | with_reducible apply Keeps.ite1 | split

theorem execStandstill_keeps {z0 : State} {t p : Nat} {s : State} (hs : Keeps z0 s) : OKeeps z0 (execStandstill t p s) := by
  unfold execStandstill
  try dsimp only
  repeat' first
    | with_reducible assumption | with_reducible apply State.at_keeps | with_reducible apply State.setStp_keeps
    | with_reducible apply State.inc_keeps | with_reducible apply State.wr_keeps | with_reducible apply OKeeps.next
    | with_reducible apply OKeeps.ite | with_reducible apply Keeps.ite | with_reducible apply Keeps.ite1 | split

theorem execStpPosLoRead_keeps {z0 : State} {t i p : Nat} {s : State} (hs : Keeps z0 s) : OKeeps z0 (execStpPosLoRead t i p s) := by
  unfold execStpPosLoRead
  try dsimp only
  repeat' first
    | with_reducible assumption | with_reducible apply State.at_keeps | with_reducible apply State.deny_keeps
    | with_reducible apply State.answer_keeps | with_reducible apply State.wr64_keeps | with_reducible apply OKeeps.next
    | with_reducible apply OKeeps.ite | with_reducible apply Keeps.ite | split

theorem State.takeStart_keeps {z0 s : State} {p part : Nat} {start : Int} (hs : Keeps z0 s) : Keeps z0 (State.takeStart s p part start) := by
  unfold State.takeStart
  try dsimp only
  repeat' first
    | with_reducible assumption | with_reducible apply State.openPart_keeps | with_reducible apply State.setEjt_keeps

theorem execPartStart_keeps {z0 : State} {t p : Nat} {s : State} (hs : Keeps z0 s) : OKeeps z0 (execPartStart t p s) := by
  unfold execPartStart
  try dsimp only
  repeat' first
    | with_reducible assumption | with_reducible apply State.at_keeps | with_reducible apply State.takeStart_keeps
    | with_reducible apply OKeeps.next | with_reducible apply OKeeps.ite | with_reducible apply Keeps.ite
    | with_reducible apply Keeps.ite1 | split

theorem State.probeStart_keeps {z0 s : State} {p k : Nat} (hs : Keeps z0 s) : Keeps z0 (State.probeStart s p k) := by
  unfold State.probeStart
  try dsimp only
  repeat' first
    | with_reducible assumption | with_reducible apply State.inc_keeps | with_reducible apply State.takeStart_keeps
    | with_reducible apply State.setEjt_keeps | with_reducible apply Keeps.ite | with_reducible apply Keeps.ite1 | split

theorem execProbeEdge_keeps {z0 : State} {t k : Nat} {rising : Bool} {s : State} (hs : Keeps z0 s) : OKeeps z0 (execProbeEdge t k rising s) := by
  unfold execProbeEdge
  try dsimp only
  repeat' first
    | with_reducible assumption | with_reducible apply State.at_keeps | with_reducible apply State.setField_keeps
    | with_reducible apply State.inc_keeps | with_reducible apply State.probeStart_keeps | with_reducible apply OKeeps.next
    | with_reducible apply OKeeps.ite | with_reducible apply Keeps.ite | split

theorem execFioPrbRecRead_keeps {z0 : State} {t i k : Nat} {s : State} (hs : Keeps z0 s) : OKeeps z0 (execFioPrbRecRead t i k s) := by
  unfold execFioPrbRecRead
  try dsimp only
  repeat' first
    | with_reducible assumption | with_reducible apply State.at_keeps | with_reducible apply State.deny_keeps
    | with_reducible apply State.answer_keeps | with_reducible apply State.setField_keeps | with_reducible apply OKeeps.next
    | with_reducible apply OKeeps.ite | with_reducible apply Keeps.ite | split

theorem State.inhibition_keeps {z0 s : State} {p part : Nat} {onlySafe : Bool} (hs : Keeps z0 s) : Keeps z0 (State.inhibition s p part onlySafe) := by
  unfold State.inhibition
  try dsimp only
  repeat' first
    | with_reducible assumption | with_reducible apply State.raise_keeps | with_reducible apply State.inc_keeps
    | with_reducible apply State.stageFault_keeps | with_reducible apply Keeps.ite | split

theorem State.fireSlot_keeps {z0 s : State} {p k : Nat} {x : Slot} (hs : Keeps z0 s) : Keeps z0 (State.fireSlot s p k x) := by
  unfold State.fireSlot
  try dsimp only
  repeat' first
    | with_reducible assumption | with_reducible apply State.fireClass_keeps | with_reducible apply State.inc_keeps
    | with_reducible apply State.putRecord_keeps | with_reducible apply State.recordReport_keeps
    | with_reducible apply State.setMerge_keeps | with_reducible apply State.setSlot_keeps
    | with_reducible apply State.inhibition_keeps | with_reducible apply Keeps.ite | with_reducible apply Keeps.ite1 | split

theorem execSlotFire_keeps {z0 : State} {t p k : Nat} {s : State} (hs : Keeps z0 s) : OKeeps z0 (execSlotFire t p k s) := by
  unfold execSlotFire
  try dsimp only
  repeat' first
    | with_reducible assumption | with_reducible apply State.at_keeps | with_reducible apply State.fireSlot_keeps
    | with_reducible apply OKeeps.next | with_reducible apply OKeeps.ite | with_reducible apply Keeps.ite
    | with_reducible apply Keeps.ite1 | split

theorem State.xstatus_keeps {z0 s : State} {p st k : Nat} (hs : Keeps z0 s) : Keeps z0 (State.xstatus s p st k) := by
  unfold State.xstatus
  try dsimp only
  repeat' first
    | with_reducible assumption | with_reducible apply State.wr_keeps

theorem State.xopen_keeps {z0 s : State} {p : Nat} (hs : Keeps z0 s) : Keeps z0 (State.xopen s p) := by
  unfold State.xopen
  try dsimp only
  repeat' first
    | with_reducible assumption | with_reducible apply State.xstatus_keeps | with_reducible apply State.setEjt_keeps
    | with_reducible apply State.setSlot_keeps | with_reducible apply State.inc_keeps | split

theorem State.xopenGo_keeps {z0 s : State} {p : Nat} (hs : Keeps z0 s) : Keeps z0 (State.xopenGo s p) := by
  unfold State.xopenGo
  try dsimp only
  repeat' first
    | with_reducible assumption | with_reducible apply State.xstatus_keeps | with_reducible apply State.xopen_keeps
    | with_reducible apply Keeps.ite | split

theorem execEjtXopen_keeps {z0 : State} {t i p v : Nat} {s : State} (hs : Keeps z0 s) : OKeeps z0 (execEjtXopen t i p v s) := by
  unfold execEjtXopen
  try dsimp only
  repeat' first
    | with_reducible assumption | with_reducible apply State.at_keeps | with_reducible apply State.deny_keeps
    | with_reducible apply State.xopenGo_keeps | with_reducible apply OKeeps.next | with_reducible apply OKeeps.ite
    | with_reducible apply Keeps.ite | split

theorem execEjtCommit_keeps {z0 : State} {t i p v : Nat} {s : State} (hs : Keeps z0 s) : OKeeps z0 (execEjtCommit t i p v s) := by
  unfold execEjtCommit
  try dsimp only
  repeat' first
    | with_reducible assumption | with_reducible apply State.at_keeps | with_reducible apply State.deny_keeps
    | with_reducible apply State.slotCommit_keeps | with_reducible apply OKeeps.next | with_reducible apply OKeeps.ite
    | with_reducible apply Keeps.ite | with_reducible apply Keeps.ite1 | split

theorem State.fireNow_keeps {z0 s : State} {p c : Nat} (hs : Keeps z0 s) : Keeps z0 (State.fireNow s p c) := by
  unfold State.fireNow
  try dsimp only
  repeat' first
    | with_reducible assumption | with_reducible apply State.fireClass_keeps | with_reducible apply State.inhibition_keeps
    | with_reducible apply Keeps.ite | with_reducible apply Keeps.ite1 | split

theorem execEjtFire_keeps {z0 : State} {t i p v : Nat} {s : State} (hs : Keeps z0 s) : OKeeps z0 (execEjtFire t i p v s) := by
  unfold execEjtFire
  try dsimp only
  repeat' first
    | with_reducible assumption | with_reducible apply State.at_keeps | with_reducible apply State.deny_keeps
    | with_reducible apply State.fireNow_keeps | with_reducible apply OKeeps.next | with_reducible apply OKeeps.ite
    | with_reducible apply Keeps.ite | split

theorem State.diPass_keeps {z0 s : State} {k lv ago : Nat} (hs : Keeps z0 s) : Keeps z0 (State.diPass s k lv ago) := by
  unfold State.diPass
  try dsimp only
  repeat' first
    | with_reducible assumption | with_reducible apply State.wr_keeps | with_reducible apply State.setField_keeps
    | with_reducible apply State.raiseAgo_keeps | with_reducible apply Keeps.ite | split

theorem State.setSince_keeps {z0 s : State} {k v : Nat} (hs : Keeps z0 s) : Keeps z0 (State.setSince s k v) := by
  unfold State.setSince
  try dsimp only
  repeat' first
    | with_reducible assumption | with_reducible apply State.setField_keeps

theorem State.diOne_keeps {z0 s : State} {lv k : Nat} (hs : Keeps z0 s) : Keeps z0 (State.diOne s lv k) := by
  unfold State.diOne
  try dsimp only
  repeat' first
    | with_reducible assumption | with_reducible apply State.setSince_keeps | with_reducible apply State.diPass_keeps
    | with_reducible apply Keeps.ite | split

theorem execDiSample_keeps {z0 : State} {t levels : Nat} {s : State} (hs : Keeps z0 s) : OKeeps z0 (execDiSample t levels s) := by
  unfold execDiSample
  try dsimp only
  repeat' first
    | with_reducible assumption | with_reducible apply State.at_keeps | with_reducible apply State.setField_keeps
    | with_reducible apply State.mark_keeps | with_reducible apply State.wake_keeps | with_reducible apply State.diOne_keeps
    | with_reducible apply OKeeps.next | with_reducible apply OKeeps.ite | with_reducible apply Keeps.ite
    | with_reducible apply Keeps.ite1 | with_reducible apply Keeps.foldl | with_reducible apply Keeps.foldl1
    | with_reducible apply Keeps.foldl2 | intro _ _ _ | intro _ _ | split

theorem execOutputPulseEnd_keeps {z0 : State} {t n : Nat} {s : State} (hs : Keeps z0 s) : OKeeps z0 (execOutputPulseEnd t n s) := by
  unfold execOutputPulseEnd
  try dsimp only
  repeat' first
    | with_reducible assumption | with_reducible apply State.at_keeps | with_reducible apply State.refreshFio_keeps
    | with_reducible apply State.endPulse_keeps | with_reducible apply OKeeps.next | with_reducible apply OKeeps.ite
    | with_reducible apply Keeps.ite | with_reducible apply Keeps.ite1 | split

theorem execOutputOverload_keeps {z0 : State} {t n : Nat} {thermal : Bool} {s : State} (hs : Keeps z0 s) :
    OKeeps z0 (execOutputOverload t n thermal s) := by
  unfold execOutputOverload
  try dsimp only
  repeat' first
    | with_reducible assumption | with_reducible apply State.at_keeps | with_reducible apply State.inc_keeps
    | with_reducible apply State.wr_keeps | with_reducible apply State.refreshFio_keeps | with_reducible apply State.endPulse_keeps
    | with_reducible apply OKeeps.next | with_reducible apply OKeeps.ite | with_reducible apply Keeps.ite | split

theorem execEncoderSupplyLimit_keeps {z0 : State} {t n : Nat} {s : State} (hs : Keeps z0 s) : OKeeps z0 (execEncoderSupplyLimit t n s) := by
  unfold execEncoderSupplyLimit
  try dsimp only
  repeat' first
    | with_reducible assumption | with_reducible apply State.at_keeps | with_reducible apply State.refreshFio_keeps
    | with_reducible apply State.wr_keeps | with_reducible apply OKeeps.next | with_reducible apply OKeeps.ite
    | with_reducible apply Keeps.ite | split

theorem execEncoderSupplyLimitEnd_keeps {z0 : State} {t n : Nat} {s : State} (hs : Keeps z0 s) : OKeeps z0 (execEncoderSupplyLimitEnd t n s) := by
  unfold execEncoderSupplyLimitEnd
  try dsimp only
  repeat' first
    | with_reducible assumption | with_reducible apply State.at_keeps | with_reducible apply State.refreshFio_keeps
    | with_reducible apply State.wr_keeps | with_reducible apply OKeeps.next | with_reducible apply OKeeps.ite
    | with_reducible apply Keeps.ite | split

theorem execStrobePulseEnd_keeps {z0 : State} {t b : Nat} {s : State} (hs : Keeps z0 s) : OKeeps z0 (execStrobePulseEnd t b s) := by
  unfold execStrobePulseEnd
  try dsimp only
  repeat' first
    | with_reducible assumption | with_reducible apply State.at_keeps | with_reducible apply State.setField_keeps
    | with_reducible apply State.setStb_keeps | with_reducible apply OKeeps.next | with_reducible apply OKeeps.ite
    | with_reducible apply Keeps.ite | with_reducible apply Keeps.ite1 | split

theorem State.moveTime_keeps {z0 s : State} {n : Nat} (hs : Keeps z0 s) : Keeps z0 (State.moveTime s n) := by
  unfold State.moveTime
  try dsimp only
  repeat' first
    | with_reducible assumption | with_reducible apply State.setTb_keeps | with_reducible apply Keeps.ite | split

theorem State.restartHold_keeps {z0 s : State} (hs : Keeps z0 s) : Keeps z0 (State.restartHold s) := by
  unfold State.restartHold
  try dsimp only
  repeat' first
    | with_reducible assumption | with_reducible apply State.wr_keeps | with_reducible apply State.setTb_keeps

theorem State.timGate_keeps {z0 s : State} {i off : Nat} {ok : State → State} (hs : Keeps z0 s) (hok : ∀ x, Keeps z0 x → Keeps z0 (ok x)) :
    Keeps z0 (State.timGate s i off ok) := by
  unfold State.timGate
  try dsimp only
  repeat' first
    | with_reducible assumption | with_reducible apply State.deny_keeps | with_reducible apply State.wr_keeps
    | with_reducible apply Keeps.ite | apply hok | intro _ _ _ | intro _ _ | split

theorem execTimIncNs_keeps {z0 : State} {t i v : Nat} {s : State} (hs : Keeps z0 s) : OKeeps z0 (execTimIncNs t i v s) := by
  unfold execTimIncNs
  try dsimp only
  repeat' first
    | with_reducible assumption | with_reducible apply State.timGate_keeps | with_reducible apply State.at_keeps
    | with_reducible apply State.restartHold_keeps | with_reducible apply State.wr_keeps | with_reducible apply State.setTb_keeps
    | with_reducible apply OKeeps.next | with_reducible apply OKeeps.ite | with_reducible apply Keeps.ite | intro _ _ _ | intro _ _
    | split

theorem State.applyStep_keeps {z0 s : State} {n : Nat} (hs : Keeps z0 s) : Keeps z0 (State.applyStep s n) := by
  unfold State.applyStep
  try dsimp only
  repeat' first
    | with_reducible assumption | with_reducible apply State.wr_keeps | with_reducible apply State.moveTime_keeps
    | with_reducible apply State.inc_keeps | with_reducible apply State.raise_keeps

theorem State.refuseStep_keeps {z0 s : State} (hs : Keeps z0 s) : Keeps z0 (State.refuseStep s) := by
  unfold State.refuseStep
  try dsimp only
  repeat' first
    | with_reducible assumption | with_reducible apply State.inc_keeps | with_reducible apply State.wr_keeps

theorem State.timSetOp_keeps {z0 s : State} (hs : Keeps z0 s) : Keeps z0 (State.timSetOp s) := by
  unfold State.timSetOp
  try dsimp only
  repeat' first
    | with_reducible assumption | with_reducible apply State.refuseStep_keeps | with_reducible apply State.applyStep_keeps
    | with_reducible apply Keeps.ite | split

theorem State.timStepOp_keeps {z0 s : State} (hs : Keeps z0 s) : Keeps z0 (State.timStepOp s) := by
  unfold State.timStepOp
  try dsimp only
  repeat' first
    | with_reducible assumption | with_reducible apply State.refuseStep_keeps | with_reducible apply State.restartHold_keeps
    | with_reducible apply State.applyStep_keeps | with_reducible apply Keeps.ite | split

theorem State.servoMarkOp_keeps {z0 s : State} (hs : Keeps z0 s) : Keeps z0 (State.servoMarkOp s) := by
  unfold State.servoMarkOp
  try dsimp only
  repeat' first
    | with_reducible assumption | with_reducible apply State.restartHold_keeps | with_reducible apply State.wr_keeps

theorem State.timCmd_keeps {z0 s : State} {i v : Nat} (hs : Keeps z0 s) : Keeps z0 (State.timCmd s i v) := by
  unfold State.timCmd
  try dsimp only
  repeat' first
    | with_reducible assumption | with_reducible apply State.timGate_keeps | with_reducible apply State.wr_keeps
    | with_reducible apply State.timSetOp_keeps | with_reducible apply State.timStepOp_keeps
    | with_reducible apply State.servoMarkOp_keeps | with_reducible apply Keeps.ite | intro _ _ _ | intro _ _ | split

theorem execTimSet_keeps {z0 : State} {t i v : Nat} {s : State} (hs : Keeps z0 s) : OKeeps z0 (execTimSet t i v s) := by
  unfold execTimSet
  try dsimp only
  repeat' first
    | with_reducible assumption | with_reducible apply State.timCmd_keeps | with_reducible apply State.at_keeps
    | with_reducible apply OKeeps.next

theorem execTimStep_keeps {z0 : State} {t i v : Nat} {s : State} (hs : Keeps z0 s) : OKeeps z0 (execTimStep t i v s) := by
  unfold execTimStep
  try dsimp only
  repeat' first
    | with_reducible assumption | with_reducible apply State.timCmd_keeps | with_reducible apply State.at_keeps
    | with_reducible apply OKeeps.next

theorem execServoMark_keeps {z0 : State} {t i v : Nat} {s : State} (hs : Keeps z0 s) : OKeeps z0 (execServoMark t i v s) := by
  unfold execServoMark
  try dsimp only
  repeat' first
    | with_reducible assumption | with_reducible apply State.timCmd_keeps | with_reducible apply State.at_keeps
    | with_reducible apply OKeeps.next

theorem execTimNowNs_keeps {z0 : State} {t i : Nat} {s : State} (hs : Keeps z0 s) : OKeeps z0 (execTimNowNs t i s) := by
  unfold execTimNowNs
  try dsimp only
  repeat' first
    | with_reducible assumption | with_reducible apply State.at_keeps | with_reducible apply State.deny_keeps
    | with_reducible apply State.answer_keeps | with_reducible apply State.setTb_keeps | with_reducible apply OKeeps.next
    | with_reducible apply OKeeps.ite | with_reducible apply Keeps.ite | split

theorem execTickMonitorWindow_keeps {z0 : State} {t ticks : Nat} {s : State} (hs : Keeps z0 s) : OKeeps z0 (execTickMonitorWindow t ticks s) := by
  unfold execTickMonitorWindow
  try dsimp only
  repeat' first
    | with_reducible assumption | with_reducible apply State.at_keeps | with_reducible apply State.mark_keeps
    | with_reducible apply State.stage7_keeps | with_reducible apply State.raise_keeps | with_reducible apply State.inc_keeps
    | with_reducible apply State.wr_keeps | with_reducible apply OKeeps.next | with_reducible apply OKeeps.ite
    | with_reducible apply Keeps.ite | split

theorem execHoldover_keeps {z0 : State} {t : Nat} {s : State} (hs : Keeps z0 s) : OKeeps z0 (execHoldover t s) := by
  unfold execHoldover
  try dsimp only
  repeat' first
    | with_reducible assumption | with_reducible apply State.at_keeps | with_reducible apply State.raise_keeps
    | with_reducible apply State.inc_keeps | with_reducible apply State.wr_keeps | with_reducible apply OKeeps.next
    | with_reducible apply OKeeps.ite | with_reducible apply Keeps.ite | with_reducible apply Keeps.ite1 | split

theorem State.setFired_keeps {z0 s : State} {k x : Nat} (hs : Keeps z0 s) : Keeps z0 (State.setFired s k x) := by
  unfold State.setFired
  try dsimp only
  repeat' first
    | with_reducible assumption | with_reducible apply State.setTb_keeps

theorem State.timOn_keeps {z0 s : State} (hs : Keeps z0 s) : Keeps z0 (State.timOn s) := by
  unfold State.timOn
  try dsimp only
  repeat' first
    | with_reducible assumption | with_reducible apply State.setFired_keeps | with_reducible apply Keeps.foldl
    | with_reducible apply Keeps.foldl1 | with_reducible apply Keeps.foldl2 | intro _ _ _ | intro _ _ | split

theorem execCaptureEdge_keeps {z0 : State} {t c src : Nat} {rising : Bool} {ago : Nat} {s : State} (hs : Keeps z0 s) :
    OKeeps z0 (execCaptureEdge t c src rising ago s) := by
  unfold execCaptureEdge
  try dsimp only
  repeat' first
    | with_reducible assumption | with_reducible apply State.at_keeps | with_reducible apply State.setTb_keeps
    | with_reducible apply State.inc_keeps | with_reducible apply OKeeps.next | with_reducible apply OKeeps.ite
    | with_reducible apply Keeps.ite | split

theorem execTimCapRecRead_keeps {z0 : State} {t i c : Nat} {s : State} (hs : Keeps z0 s) : OKeeps z0 (execTimCapRecRead t i c s) := by
  unfold execTimCapRecRead
  try dsimp only
  repeat' first
    | with_reducible assumption | with_reducible apply State.at_keeps | with_reducible apply State.deny_keeps
    | with_reducible apply State.answer_keeps | with_reducible apply State.setTb_keeps | with_reducible apply OKeeps.next
    | with_reducible apply OKeeps.ite | with_reducible apply Keeps.ite | split

theorem State.setPtp_keeps {z0 s : State} {p : Nat} {rx : Bool} {l : List PtpRec} (hs : Keeps z0 s) : Keeps z0 (State.setPtp s p rx l) := by
  unfold State.setPtp
  try dsimp only
  repeat' first
    | with_reducible assumption | with_reducible apply State.setTb_keeps | with_reducible apply Keeps.ite | split

theorem State.ptpStamp_keeps {z0 s : State} {p : Nat} {rx : Bool} {msg domain seq : Nat} (hs : Keeps z0 s) :
    Keeps z0 (State.ptpStamp s p rx msg domain seq) := by
  unfold State.ptpStamp
  try dsimp only
  repeat' first
    | with_reducible assumption | with_reducible apply State.setPtp_keeps | with_reducible apply State.inc_keeps
    | with_reducible apply Keeps.ite | split

theorem execTimPtpRecRead_keeps {z0 : State} {t i p : Nat} {rx : Bool} {s : State} (hs : Keeps z0 s) : OKeeps z0 (execTimPtpRecRead t i p rx s) := by
  unfold execTimPtpRecRead
  try dsimp only
  repeat' first
    | with_reducible assumption | with_reducible apply State.at_keeps | with_reducible apply State.deny_keeps
    | with_reducible apply State.answer_keeps | with_reducible apply State.setPtp_keeps | with_reducible apply OKeeps.next
    | with_reducible apply OKeeps.ite | with_reducible apply Keeps.ite | split

theorem State.setCam_keeps {z0 s : State} {n : Nat} {x : CamPort} (hs : Keeps z0 s) : Keeps z0 (State.setCam s n x) := by
  unfold State.setCam
  try dsimp only
  repeat' first
    | with_reducible assumption | (fail_if_no_progress with_reducible refine Keeps.mk' ?_ rfl rfl rfl rfl rfl rfl rfl)

theorem State.endWindow_keeps {z0 s : State} {n x0 x1 lines : Nat} {a : Store Nat} (hs : Keeps z0 s) :
    Keeps z0 (State.endWindow s n x0 x1 lines a) := by
  unfold State.endWindow
  try dsimp only
  repeat' first
    | with_reducible assumption | with_reducible apply State.setCnt_keeps | with_reducible apply State.inc_keeps
    | with_reducible apply Keeps.foldl | with_reducible apply Keeps.foldl1 | with_reducible apply Keeps.foldl2 | intro _ _ _
    | intro _ _ | split

theorem State.camStats_keeps {z0 s : State} {n : Nat} {l : CamLine} (hs : Keeps z0 s) : Keeps z0 (State.camStats s n l) := by
  unfold State.camStats
  try dsimp only
  repeat' first
    | with_reducible assumption | with_reducible apply State.endWindow_keeps | with_reducible apply State.setCam_keeps
    | with_reducible apply Keeps.ite | with_reducible apply Keeps.ite1 | with_reducible apply Keeps.foldl
    | with_reducible apply Keeps.foldl1 | with_reducible apply Keeps.foldl2 | intro _ _ _ | intro _ _ | split

theorem State.camQuits_keeps {z0 s : State} {n : Nat} (hs : Keeps z0 s) : Keeps z0 (State.camQuits s n) := by
  unfold State.camQuits
  try dsimp only
  repeat' first
    | with_reducible assumption | with_reducible apply State.wr_keeps | with_reducible apply Keeps.ite
    | with_reducible apply Keeps.ite1 | split

theorem State.acqReport_keeps {z0 s : State} {n : Nat} (hs : Keeps z0 s) : Keeps z0 (State.acqReport s n) := by
  unfold State.acqReport
  try dsimp only
  repeat' first
    | with_reducible assumption | with_reducible apply State.camQuits_keeps | with_reducible apply State.checkReport_keeps
    | with_reducible apply State.setCam_keeps | with_reducible apply Keeps.ite | with_reducible apply Keeps.ite1 | split

theorem State.acqDeadline_keeps {z0 s : State} {p part : Nat} (hs : Keeps z0 s) : Keeps z0 (State.acqDeadline s p part) := by
  unfold State.acqDeadline
  try dsimp only
  repeat' first
    | with_reducible assumption | with_reducible apply State.acqReport_keeps | with_reducible apply Keeps.ite
    | with_reducible apply Keeps.ite1 | with_reducible apply Keeps.foldl | with_reducible apply Keeps.foldl1
    | with_reducible apply Keeps.foldl2 | intro _ _ _ | intro _ _ | split

theorem State.acqLine_keeps {z0 s : State} {n : Nat} {l : CamLine} (hs : Keeps z0 s) : Keeps z0 (State.acqLine s n l) := by
  unfold State.acqLine
  try dsimp only
  repeat' first
    | with_reducible assumption | with_reducible apply State.acqReport_keeps | with_reducible apply State.setCam_keeps
    | with_reducible apply Keeps.ite | with_reducible apply Keeps.ite1 | split

theorem State.fbTake_keeps {z0 s : State} {n : Nat} {l : CamLine} (hs : Keeps z0 s) : Keeps z0 (State.fbTake s n l) := by
  unfold State.fbTake
  try dsimp only
  repeat' first
    | with_reducible assumption | with_reducible apply State.fbLine_keeps | split

theorem State.lineDone_keeps {z0 s : State} {n : Nat} (hs : Keeps z0 s) : Keeps z0 (State.lineDone s n) := by
  unfold State.lineDone
  try dsimp only
  repeat' first
    | with_reducible assumption | with_reducible apply State.inc_keeps | with_reducible apply State.setCam_keeps
    | with_reducible apply State.camStats_keeps | with_reducible apply State.acqLine_keeps | with_reducible apply State.fbTake_keeps
    | with_reducible apply Keeps.ite | with_reducible apply Keeps.ite1 | split

theorem State.settleLines_keeps {z0 : State} {x0 : Nat} {x1 : State} {x2 : Nat} (hx1 : Keeps z0 x1) : Keeps z0 (State.settleLines x0 x1 x2) := by
  induction x0 generalizing x1 with
  | zero => exact hx1
  | succ _ ih =>
    unfold State.settleLines
    try dsimp only
    repeat' first
      | with_reducible assumption | with_reducible apply ih | with_reducible apply State.lineDone_keeps | with_reducible apply Keeps.ite
      | with_reducible apply Keeps.ite1 | split

theorem State.mapLines_keeps {z0 s : State} {n : Nat} {f : CamLine → CamLine} (hs : Keeps z0 s) : Keeps z0 (State.mapLines s n f) := by
  unfold State.mapLines
  try dsimp only
  repeat' first
    | with_reducible assumption | with_reducible apply State.settleLines_keeps | with_reducible apply State.setCam_keeps

theorem State.addLines_keeps {z0 s : State} {n : Nat} {k pos : Int} {late : Bool} (hs : Keeps z0 s) : Keeps z0 (State.addLines s n k pos late) := by
  unfold State.addLines
  try dsimp only
  repeat' first
    | with_reducible assumption | with_reducible apply State.setCam_keeps | with_reducible apply State.settleLines_keeps
    | with_reducible apply Keeps.ite | split

theorem State.disturb_keeps {z0 s : State} {u bad : Nat} (hs : Keeps z0 s) : Keeps z0 (State.disturb s u bad) := by
  unfold State.disturb
  try dsimp only
  repeat' first
    | with_reducible assumption | with_reducible apply State.setErr_keeps | with_reducible apply State.takeFree_keeps
    | with_reducible apply State.openBytes_keeps | with_reducible apply Keeps.ite | split

theorem State.countRep_keeps {z0 s : State} {r : LogRec} (hs : Keeps z0 s) : Keeps z0 (State.countRep s r) := by
  unfold State.countRep
  try dsimp only
  repeat' first
    | with_reducible assumption | with_reducible apply State.report_keeps | with_reducible apply State.inc_keeps | split

theorem State.storeRep_keeps {z0 s : State} {r : LogRec} (hs : Keeps z0 s) : Keeps z0 (State.storeRep s r) := by
  unfold State.storeRep
  try dsimp only
  repeat' first
    | with_reducible assumption | with_reducible apply State.takeFree_keeps | with_reducible apply State.countRep_keeps

theorem State.settleFound_keeps {z0 s : State} (hs : Keeps z0 s) : Keeps z0 (State.settleFound s) := by
  unfold State.settleFound
  try dsimp only
  repeat' first
    | with_reducible assumption | with_reducible apply State.storeRep_keeps | with_reducible apply State.setMem_keeps
    | with_reducible apply Keeps.foldl | with_reducible apply Keeps.foldl1 | with_reducible apply Keeps.foldl2 | intro _ _ _
    | intro _ _ | split

theorem State.residueRetry_keeps {z0 s : State} {blk sub init tile : Nat} {inj : Bool} (hs : Keeps z0 s) :
    Keeps z0 (State.residueRetry s blk sub init tile inj) := by
  unfold State.residueRetry
  try dsimp only
  repeat' first
    | with_reducible assumption | with_reducible apply State.countRep_keeps

theorem State.residueFail_keeps {z0 s : State} {blk sub init tile : Nat} {inj : Bool} (hs : Keeps z0 s) :
    Keeps z0 (State.residueFail s blk sub init tile inj) := by
  unfold State.residueFail
  try dsimp only
  repeat' first
    | with_reducible assumption | with_reducible apply State.countRep_keeps

theorem State.readUnit_keeps {z0 s : State} {i u : Nat} (hs : Keeps z0 s) : Keeps z0 (State.readUnit s i u) := by
  unfold State.readUnit
  try dsimp only
  repeat' first
    | with_reducible assumption | with_reducible apply State.storeRep_keeps | with_reducible apply State.clearErr_keeps
    | with_reducible apply Keeps.ite | with_reducible apply Keeps.ite1 | split

theorem State.readWord_keeps {z0 s : State} {i w : Nat} (hs : Keeps z0 s) : Keeps z0 (State.readWord s i w) := by
  unfold State.readWord
  try dsimp only
  repeat' first
    | with_reducible assumption | with_reducible apply State.storeRep_keeps | with_reducible apply State.setMem_keeps
    | with_reducible apply Keeps.ite | split

theorem State.portRead_keeps {z0 s : State} {c u : Nat} (hs : Keeps z0 s) : Keeps z0 (State.portRead s c u) := by
  unfold State.portRead
  try dsimp only
  repeat' first
    | with_reducible assumption | with_reducible apply Keeps.ite | with_reducible apply Keeps.ite1
    | (fail_if_no_progress with_reducible refine Keeps.mk' ?_ rfl rfl rfl rfl rfl rfl rfl) | split

theorem State.declare_keeps {z0 s : State} {c a n : Nat} (hs : Keeps z0 s) : Keeps z0 (State.declare s c a n) := by
  unfold State.declare
  try dsimp only
  repeat' first
    | with_reducible assumption | with_reducible apply Keeps.ite
    | (fail_if_no_progress with_reducible refine Keeps.mk' ?_ rfl rfl rfl rfl rfl rfl rfl) | split

theorem State.demand_keeps {z0 s : State} {i u : Nat} (hs : Keeps z0 s) : Keeps z0 (State.demand s i u) := by
  unfold State.demand
  try dsimp only
  repeat' first
    | with_reducible assumption | with_reducible apply State.touch_keeps | with_reducible apply State.portRead_keeps
    | with_reducible apply Keeps.ite | split

theorem State.readUnits_keeps {z0 s : State} {i a n : Nat} (hs : Keeps z0 s) : Keeps z0 (State.readUnits s i a n) := by
  unfold State.readUnits
  try dsimp only
  repeat' first
    | with_reducible assumption | with_reducible apply State.readUnit_keeps | with_reducible apply State.settleFound_keeps
    | with_reducible apply State.demand_keeps | with_reducible apply State.readWord_keeps | with_reducible apply Keeps.ite
    | with_reducible apply Keeps.ite1 | with_reducible apply Keeps.foldl | with_reducible apply Keeps.foldl1
    | with_reducible apply Keeps.foldl2 | intro _ _ _ | intro _ _ | split

theorem State.wakeFor_keeps {z0 s : State} {a : Nat} (hs : Keeps z0 s) : Keeps z0 (State.wakeFor s a) := by
  unfold State.wakeFor
  try dsimp only
  repeat' first
    | with_reducible assumption | with_reducible apply State.wake_keeps | with_reducible apply Keeps.ite | split

theorem State.hwRead_keeps {z0 s : State} {i a n : Nat} (hs : Keeps z0 s) : Keeps z0 (State.hwRead s i a n).1 := by
  unfold State.hwRead
  try dsimp only
  repeat' first
    | with_reducible assumption | with_reducible apply State.checkStore_keeps | with_reducible apply State.readUnits_keeps
    | with_reducible apply State.wakeFor_keeps | with_reducible apply Keeps.ite | with_reducible apply Keeps.ite1 | split

theorem State.mergeUnit_keeps {z0 s : State} {i u : Nat} (hs : Keeps z0 s) : Keeps z0 (State.mergeUnit s i u) := by
  unfold State.mergeUnit
  try dsimp only
  repeat' first
    | with_reducible assumption | with_reducible apply State.readUnit_keeps | with_reducible apply State.setPoison_keeps
    | with_reducible apply State.clearErr_keeps | with_reducible apply Keeps.ite | split

theorem State.mergeWrite_keeps {z0 s : State} {i a : Nat} {bs : List Nat} (hs : Keeps z0 s) : Keeps z0 (State.mergeWrite s i a bs) := by
  unfold State.mergeWrite
  try dsimp only
  repeat' first
    | with_reducible assumption | with_reducible apply State.mergeUnit_keeps | with_reducible apply State.settleFound_keeps
    | with_reducible apply State.write_keeps | with_reducible apply State.readWord_keeps | with_reducible apply Keeps.ite
    | with_reducible apply Keeps.ite1 | with_reducible apply Keeps.foldl | with_reducible apply Keeps.foldl1
    | with_reducible apply Keeps.foldl2 | intro _ _ _ | intro _ _ | split

theorem State.hwWrite_keeps {z0 s : State} {i a : Nat} {bs : List Nat} (hs : Keeps z0 s) : Keeps z0 (State.hwWrite s i a bs).1 := by
  unfold State.hwWrite
  try dsimp only
  repeat' first
    | with_reducible assumption | with_reducible apply State.checkStore_keeps | with_reducible apply State.mergeWrite_keeps
    | with_reducible apply State.wakeFor_keeps | with_reducible apply Keeps.ite | with_reducible apply Keeps.ite1 | split

theorem State.hwWriteParts_keeps {z0 s : State} {i a : Nat} {bs : List Nat} {bad : List (Nat × Nat)} (hs : Keeps z0 s) :
    Keeps z0 (State.hwWriteParts s i a bs bad).1 := by
  unfold State.hwWriteParts
  try dsimp only
  repeat' first
    | with_reducible assumption | with_reducible apply State.hwWrite_keeps | with_reducible apply State.setPoison_keeps
    | with_reducible apply Keeps.ite | with_reducible apply Keeps.ite1 | with_reducible apply Keeps.foldl
    | with_reducible apply Keeps.foldl1 | with_reducible apply Keeps.foldl2 | intro _ _ _ | intro _ _ | split

theorem State.hwWritePoison_keeps {z0 s : State} {i a : Nat} {bs : List Nat} (hs : Keeps z0 s) : Keeps z0 (State.hwWritePoison s i a bs).1 := by
  unfold State.hwWritePoison
  try dsimp only
  repeat' first
    | with_reducible assumption | with_reducible apply State.hwWriteParts_keeps

theorem State.putAs_keeps {z0 s : State} {i a : Nat} {bs : List Nat} (hs : Keeps z0 s) : Keeps z0 (State.putAs s i a bs) := by
  unfold State.putAs
  try dsimp only
  repeat' first
    | with_reducible assumption | with_reducible apply State.hwWrite_keeps

theorem execStageDue_keeps {z0 : State} {t p k stage : Nat} {s : State} (hs : Keeps z0 s) : OKeeps z0 (execStageDue t p k stage s) := by
  unfold execStageDue
  try dsimp only
  repeat' first
    | with_reducible assumption | with_reducible apply State.at_keeps | with_reducible apply State.stageFault_keeps
    | with_reducible apply State.setSlot_keeps | with_reducible apply OKeeps.next | with_reducible apply OKeeps.ite
    | with_reducible apply Keeps.ite | with_reducible apply Keeps.ite1 | split

theorem execStage7HeartbeatMissing_keeps {z0 : State} {t src : Nat} {s : State} (hs : Keeps z0 s) :
    OKeeps z0 (execStage7HeartbeatMissing t src s) := by
  unfold execStage7HeartbeatMissing
  try dsimp only
  repeat' first
    | with_reducible assumption | with_reducible apply State.at_keeps | with_reducible apply State.stage7_keeps
    | with_reducible apply OKeeps.next | with_reducible apply OKeeps.ite | with_reducible apply Keeps.ite | split

theorem execStage7Persist_keeps {z0 : State} {t k : Nat} {missing : Bool} {s : State} (hs : Keeps z0 s) :
    OKeeps z0 (execStage7Persist t k missing s) := by
  unfold execStage7Persist
  try dsimp only
  repeat' first
    | with_reducible assumption | with_reducible apply State.at_keeps | with_reducible apply State.setHlt_keeps
    | with_reducible apply State.safeReaction_keeps | with_reducible apply OKeeps.next | with_reducible apply OKeeps.ite
    | with_reducible apply Keeps.ite | with_reducible apply Keeps.ite1 | split

theorem execOutputMismatch_keeps {z0 : State} {t n : Nat} {s : State} (hs : Keeps z0 s) : OKeeps z0 (execOutputMismatch t n s) := by
  unfold execOutputMismatch
  try dsimp only
  repeat' first
    | with_reducible assumption | with_reducible apply State.at_keeps | with_reducible apply State.stageFault_keeps
    | with_reducible apply OKeeps.next | with_reducible apply OKeeps.ite | with_reducible apply Keeps.ite | split

theorem execFallbackResult_keeps {z0 : State} {t p part : Nat} {s : State} (hs : Keeps z0 s) : OKeeps z0 (execFallbackResult t p part s) := by
  unfold execFallbackResult
  try dsimp only
  repeat' first
    | with_reducible assumption | with_reducible apply State.at_keeps | with_reducible apply State.fbReady_keeps
    | with_reducible apply OKeeps.next | with_reducible apply OKeeps.ite | with_reducible apply Keeps.ite
    | with_reducible apply Keeps.ite1 | split

theorem execFallbackFault_keeps {z0 : State} {t : Nat} {s : State} (hs : Keeps z0 s) : OKeeps z0 (execFallbackFault t s) := by
  unfold execFallbackFault
  try dsimp only
  repeat' first
    | with_reducible assumption | with_reducible apply State.at_keeps | with_reducible apply State.wr_keeps
    | with_reducible apply State.safeReaction_keeps | with_reducible apply OKeeps.next | with_reducible apply OKeeps.ite
    | with_reducible apply Keeps.ite | split

theorem State.restorePort_keeps {z0 s : State} {p : Nat} (hs : Keeps z0 s) : Keeps z0 (State.restorePort s p) := by
  unfold State.restorePort
  try dsimp only
  repeat' first
    | with_reducible assumption | with_reducible apply State.inc_keeps | with_reducible apply State.wr_keeps
    | with_reducible apply Keeps.ite | split

theorem State.restoreReq_keeps {z0 s : State} {v p : Nat} (hs : Keeps z0 s) : Keeps z0 (State.restoreReq s v p).1 := by
  unfold State.restoreReq
  try dsimp only
  repeat' first
    | with_reducible assumption | with_reducible apply State.restorePort_keeps | with_reducible apply Keeps.ite
    | with_reducible apply Keeps.ite1 | split

theorem State.testReq_keeps {z0 s : State} {v : Nat} (hs : Keeps z0 s) : Keeps z0 (State.testReq s v).1 := by
  unfold State.testReq
  try dsimp only
  repeat' first
    | with_reducible assumption | with_reducible apply State.stageFault_keeps | with_reducible apply State.inc_keeps
    | with_reducible apply Keeps.ite | with_reducible apply Keeps.ite1 | split

theorem State.hltReq_keeps {z0 s : State} {i v : Nat} (hs : Keeps z0 s) : Keeps z0 (State.hltReq s i v) := by
  unfold State.hltReq
  try dsimp only
  repeat' first
    | with_reducible assumption | with_reducible apply State.deny_keeps | with_reducible apply State.restoreReq_keeps
    | with_reducible apply State.testReq_keeps | with_reducible apply State.wr_keeps | with_reducible apply Keeps.ite
    | with_reducible apply Keeps.ite1 | split

theorem execRestore_keeps {z0 : State} {t i v : Nat} {s : State} (hs : Keeps z0 s) : OKeeps z0 (execRestore t i v s) := by
  unfold execRestore
  try dsimp only
  repeat' first
    | with_reducible assumption | with_reducible apply State.hltReq_keeps | with_reducible apply State.at_keeps
    | with_reducible apply OKeeps.next

theorem execTest_keeps {z0 : State} {t i v : Nat} {s : State} (hs : Keeps z0 s) : OKeeps z0 (execTest t i v s) := by
  unfold execTest
  try dsimp only
  repeat' first
    | with_reducible assumption | with_reducible apply State.hltReq_keeps | with_reducible apply State.at_keeps
    | with_reducible apply OKeeps.next

theorem execHalterKick_keeps {z0 : State} {t : Nat} {s : State} (hs : Keeps z0 s) : OKeeps z0 (execHalterKick t s) := by
  unfold execHalterKick
  try dsimp only
  repeat' first
    | with_reducible assumption | with_reducible apply State.at_keeps | with_reducible apply State.setHlt_keeps
    | with_reducible apply State.selfFault_keeps | with_reducible apply OKeeps.next | with_reducible apply OKeeps.ite
    | with_reducible apply Keeps.ite | with_reducible apply Keeps.ite1 | split

theorem execHalterKickTimeout_keeps {z0 : State} {t : Nat} {s : State} (hs : Keeps z0 s) : OKeeps z0 (execHalterKickTimeout t s) := by
  unfold execHalterKickTimeout
  try dsimp only
  repeat' first
    | with_reducible assumption | with_reducible apply State.at_keeps | with_reducible apply State.selfFault_keeps
    | with_reducible apply OKeeps.next | with_reducible apply OKeeps.ite | with_reducible apply Keeps.ite
    | with_reducible apply Keeps.ite1 | split

theorem execLockstepMismatch_keeps {z0 : State} {t : Nat} {s : State} (hs : Keeps z0 s) : OKeeps z0 (execLockstepMismatch t s) := by
  unfold execLockstepMismatch
  try dsimp only
  repeat' first
    | with_reducible assumption | with_reducible apply State.at_keeps | with_reducible apply State.selfFault_keeps
    | with_reducible apply OKeeps.next | with_reducible apply OKeeps.ite | with_reducible apply Keeps.ite | split

theorem execHalterClockFault_keeps {z0 : State} {t : Nat} {s : State} (hs : Keeps z0 s) : OKeeps z0 (execHalterClockFault t s) := by
  unfold execHalterClockFault
  try dsimp only
  repeat' first
    | with_reducible assumption | with_reducible apply State.at_keeps | with_reducible apply State.selfFault_keeps
    | with_reducible apply OKeeps.next | with_reducible apply OKeeps.ite | with_reducible apply Keeps.ite | split

theorem execHalterDoubleBitError_keeps {z0 : State} {t : Nat} {s : State} (hs : Keeps z0 s) : OKeeps z0 (execHalterDoubleBitError t s) := by
  unfold execHalterDoubleBitError
  try dsimp only
  repeat' first
    | with_reducible assumption | with_reducible apply State.at_keeps | with_reducible apply State.selfFault_keeps
    | with_reducible apply OKeeps.next | with_reducible apply OKeeps.ite | with_reducible apply Keeps.ite | split

theorem execHltFbLoad_keeps {z0 : State} {t i v : Nat} {s : State} (hs : Keeps z0 s) : OKeeps z0 (execHltFbLoad t i v s) := by
  unfold execHltFbLoad
  try dsimp only
  repeat' first
    | with_reducible assumption | with_reducible apply State.at_keeps | with_reducible apply State.deny_keeps
    | with_reducible apply State.setHlt_keeps | with_reducible apply State.wr_keeps | with_reducible apply OKeeps.next
    | with_reducible apply OKeeps.ite | with_reducible apply Keeps.ite | split

theorem execFbLoadDone_keeps {z0 : State} {t : Nat} {s : State} (hs : Keeps z0 s) : OKeeps z0 (execFbLoadDone t s) := by
  unfold execFbLoadDone
  try dsimp only
  repeat' first
    | with_reducible assumption | with_reducible apply State.at_keeps | with_reducible apply State.hwRead_keeps
    | with_reducible apply State.setHlt_keeps | with_reducible apply State.wr_keeps | with_reducible apply OKeeps.next
    | with_reducible apply OKeeps.ite | with_reducible apply Keeps.ite | with_reducible apply Keeps.ite1 | split

theorem State.fwRead_keeps {z0 s : State} {a : Nat} (hs : Keeps z0 s) : Keeps z0 (State.fwRead s a) := by
  unfold State.fwRead
  try dsimp only
  repeat' first
    | with_reducible assumption | with_reducible apply State.hwRead_keeps | with_reducible apply Keeps.ite
    | with_reducible apply Keeps.ite1 | split

theorem execHltFwReqGo_keeps {z0 : State} {t i v : Nat} {s : State} (hs : Keeps z0 s) : OKeeps z0 (execHltFwReqGo t i v s) := by
  unfold execHltFwReqGo
  try dsimp only
  repeat' first
    | with_reducible assumption | with_reducible apply State.at_keeps | with_reducible apply State.deny_keeps
    | with_reducible apply State.fwRead_keeps | with_reducible apply State.setHlt_keeps | with_reducible apply State.wr_keeps
    | with_reducible apply OKeeps.next | with_reducible apply OKeeps.ite | with_reducible apply Keeps.ite
    | with_reducible apply Keeps.ite1 | with_reducible apply Keeps.foldl | with_reducible apply Keeps.foldl1
    | with_reducible apply Keeps.foldl2 | intro _ _ _ | intro _ _ | split

theorem State.setDma_keeps {z0 s : State} {n : Nat} {x : Dma} (hs : Keeps z0 s) : Keeps z0 (State.setDma s n x) := by
  unfold State.setDma
  try dsimp only
  repeat' first
    | with_reducible assumption | (fail_if_no_progress with_reducible refine Keeps.mk' ?_ rfl rfl rfl rfl rfl rfl rfl)

theorem State.setEth_keeps {z0 s : State} {p : Nat} {x : EthPort} (hs : Keeps z0 s) : Keeps z0 (State.setEth s p x) := by
  unfold State.setEth
  try dsimp only
  repeat' first
    | with_reducible assumption | (fail_if_no_progress with_reducible refine Keeps.mk' ?_ rfl rfl rfl rfl rfl rfl rfl)

theorem State.setCur_keeps {z0 s : State} {n a : Nat} (hs : Keeps z0 s) : Keeps z0 (State.setCur s n a) := by
  unfold State.setCur
  try dsimp only
  repeat' first
    | with_reducible assumption | with_reducible apply State.wr64_keeps

theorem State.dmaIdle_keeps {z0 s : State} {n : Nat} (hs : Keeps z0 s) : Keeps z0 (State.dmaIdle s n) := by
  unfold State.dmaIdle
  try dsimp only
  repeat' first
    | with_reducible assumption | with_reducible apply State.wr_keeps | with_reducible apply State.setDma_keeps

theorem State.dmaAdvance_keeps {z0 s : State} {n : Nat} {g : DmaSeg} (hs : Keeps z0 s) : Keeps z0 (State.dmaAdvance s n g) := by
  unfold State.dmaAdvance
  try dsimp only
  repeat' first
    | with_reducible assumption | with_reducible apply State.setDma_keeps | with_reducible apply State.dmaIdle_keeps
    | with_reducible apply State.setCur_keeps | with_reducible apply Keeps.ite | split

theorem State.dmaBytes_keeps {z0 s : State} {n k : Nat} (hs : Keeps z0 s) : Keeps z0 (State.dmaBytes s n k) := by
  unfold State.dmaBytes
  try dsimp only
  repeat' first
    | with_reducible assumption | with_reducible apply State.setCnt_keeps

theorem State.segEnd_keeps {z0 s : State} {n st wrote : Nat} (hs : Keeps z0 s) : Keeps z0 (State.segEnd s n st wrote) := by
  unfold State.segEnd
  try dsimp only
  repeat' first
    | with_reducible assumption | with_reducible apply State.dmaBytes_keeps | with_reducible apply State.setDma_keeps
    | with_reducible apply State.inc_keeps | with_reducible apply State.dmaAdvance_keeps | with_reducible apply Keeps.ite
    | with_reducible apply Keeps.ite1 | split

theorem State.dmaHalt_keeps {z0 s : State} {n k a st : Nat} {desc host write : Bool} (hs : Keeps z0 s) :
    Keeps z0 (State.dmaHalt s n k a st desc host write) := by
  unfold State.dmaHalt
  try dsimp only
  repeat' first
    | with_reducible assumption | with_reducible apply State.inc_keeps | with_reducible apply State.setDma_keeps
    | with_reducible apply State.wr64_keeps | with_reducible apply State.wr_keeps | with_reducible apply State.raise_keeps
    | with_reducible apply Keeps.ite | split

theorem State.segFail_keeps {z0 s : State} {n a st wrote : Nat} {host write : Bool} (hs : Keeps z0 s) :
    Keeps z0 (State.segFail s n a st wrote host write) := by
  unfold State.segFail
  try dsimp only
  repeat' first
    | with_reducible assumption | with_reducible apply State.segEnd_keeps | with_reducible apply State.dmaHalt_keeps

theorem State.dmaPut_keeps {z0 s : State} {n : Nat} {g : DmaSeg} {bs : List Nat} {bad : List (Nat × Nat)} (hs : Keeps z0 s) :
    Keeps z0 (State.dmaPut s n g bs bad) := by
  unfold State.dmaPut
  try dsimp only
  repeat' first
    | with_reducible assumption | with_reducible apply State.setDma_keeps | with_reducible apply State.hwWriteParts_keeps
    | with_reducible apply Keeps.ite | with_reducible apply Keeps.ite1
    | (fail_if_no_progress with_reducible refine Keeps.mk' ?_ rfl rfl rfl rfl rfl rfl rfl) | split

theorem State.dmaStore_keeps {z0 s : State} {n : Nat} {g : DmaSeg} {bs : List Nat} {poison : List (Nat × Nat)} (hs : Keeps z0 s) :
    Keeps z0 (State.dmaStore s n g bs poison) := by
  unfold State.dmaStore
  try dsimp only
  repeat' first
    | with_reducible assumption | with_reducible apply State.segFail_keeps | with_reducible apply State.takeFree_keeps
    | with_reducible apply State.dmaPut_keeps | with_reducible apply State.checkStore_keeps | with_reducible apply State.segEnd_keeps
    | with_reducible apply Keeps.ite | with_reducible apply Keeps.ite1 | split

theorem State.dmaCopy_keeps {z0 s : State} {n : Nat} {g : DmaSeg} {data poison : List Nat} (hs : Keeps z0 s) :
    Keeps z0 (State.dmaCopy s n g data poison) := by
  unfold State.dmaCopy
  try dsimp only
  repeat' first
    | with_reducible assumption | with_reducible apply State.segFail_keeps | with_reducible apply State.dmaStore_keeps
    | with_reducible apply State.takeFree_keeps | with_reducible apply State.hwRead_keeps | with_reducible apply State.dmaPut_keeps
    | with_reducible apply State.checkStore_keeps | with_reducible apply Keeps.ite | with_reducible apply Keeps.ite1 | split

theorem State.dmaReceive_keeps {z0 s : State} {n : Nat} {x : Dma} {g : DmaSeg} (hs : Keeps z0 s) : Keeps z0 (State.dmaReceive s n x g) := by
  unfold State.dmaReceive
  try dsimp only
  repeat' first
    | with_reducible assumption | with_reducible apply State.inc_keeps | with_reducible apply State.setEth_keeps
    | with_reducible apply State.dmaStore_keeps | with_reducible apply Keeps.ite | with_reducible apply Keeps.ite1
    | with_reducible apply Keeps.foldl | with_reducible apply Keeps.foldl1 | with_reducible apply Keeps.foldl2 | intro _ _ _
    | intro _ _ | split

theorem State.dmaFinish_keeps {z0 s : State} {n : Nat} {evt : Bool} {tag : Nat} (hs : Keeps z0 s) : Keeps z0 (State.dmaFinish s n evt tag) := by
  unfold State.dmaFinish
  try dsimp only
  repeat' first
    | with_reducible assumption | with_reducible apply State.inc_keeps | with_reducible apply State.raise_keeps
    | with_reducible apply State.setDma_keeps | with_reducible apply State.dmaIdle_keeps | with_reducible apply Keeps.ite | split

theorem State.dmaAppend_keeps {z0 s : State} {n : Nat} {rec : List Nat} {evt : Bool} (hs : Keeps z0 s) : Keeps z0 (State.dmaAppend s n rec evt) := by
  unfold State.dmaAppend
  try dsimp only
  repeat' first
    | with_reducible assumption | with_reducible apply State.setDma_keeps | with_reducible apply State.raise_keeps
    | with_reducible apply State.inc_keeps | with_reducible apply State.wr_keeps | with_reducible apply State.hwWrite_keeps
    | with_reducible apply State.toFault_keeps | with_reducible apply State.dmaFinish_keeps | with_reducible apply Keeps.ite
    | with_reducible apply Keeps.ite1 | split

theorem State.dmaComplete_keeps {z0 s : State} {n : Nat} (hs : Keeps z0 s) : Keeps z0 (State.dmaComplete s n) := by
  unfold State.dmaComplete
  try dsimp only
  repeat' first
    | with_reducible assumption | with_reducible apply State.hwWrite_keeps | with_reducible apply State.toFault_keeps
    | with_reducible apply State.setEth_keeps | with_reducible apply State.dmaFinish_keeps
    | with_reducible apply State.dmaAppend_keeps | with_reducible apply Keeps.ite | with_reducible apply Keeps.ite1
    | with_reducible apply Keeps.foldl | with_reducible apply Keeps.foldl1 | with_reducible apply Keeps.foldl2 | intro _ _ _
    | intro _ _ | split

theorem State.dmaFlush_keeps {z0 s : State} {n : Nat} (hs : Keeps z0 s) : Keeps z0 (State.dmaFlush s n) := by
  unfold State.dmaFlush
  try dsimp only
  repeat' first
    | with_reducible assumption | with_reducible apply State.dmaAppend_keeps | with_reducible apply Keeps.ite
    | with_reducible apply Keeps.ite1 | split

theorem State.dmaSpend_keeps {z0 s : State} {n k : Nat} (hs : Keeps z0 s) : Keeps z0 (State.dmaSpend s n k) := by
  unfold State.dmaSpend
  try dsimp only
  repeat' first
    | with_reducible assumption | with_reducible apply State.inc_keeps | with_reducible apply State.setDma_keeps
    | (fail_if_no_progress with_reducible refine Keeps.mk' ?_ rfl rfl rfl rfl rfl rfl rfl)

theorem State.dmaTurns_keeps {z0 : State} {x0 : Nat} {x1 : State} (hx1 : Keeps z0 x1) : Keeps z0 (State.dmaTurns x0 x1) := by
  induction x0 generalizing x1 with
  | zero => exact hx1
  | succ _ ih =>
    unfold State.dmaTurns
    try dsimp only
    repeat' first
      | with_reducible assumption | with_reducible apply ih | with_reducible apply State.dmaSpend_keeps | with_reducible apply Keeps.ite
      | with_reducible apply Keeps.ite1 | with_reducible apply Keeps.foldl | with_reducible apply Keeps.foldl1
      | with_reducible apply Keeps.foldl2 | intro _ _ _ | intro _ _ | split

theorem execDmaHeadLo_keeps {z0 : State} {t i n v : Nat} {s : State} (hs : Keeps z0 s) : OKeeps z0 (execDmaHeadLo t i n v s) := by
  unfold execDmaHeadLo
  try dsimp only
  repeat' first
    | with_reducible assumption | with_reducible apply State.at_keeps | with_reducible apply State.deny_keeps
    | with_reducible apply State.wr_keeps | with_reducible apply State.setDma_keeps | with_reducible apply State.setCur_keeps
    | with_reducible apply OKeeps.next | with_reducible apply OKeeps.ite | with_reducible apply Keeps.ite | split

theorem execDmaKick_keeps {z0 : State} {t i n v : Nat} {s : State} (hs : Keeps z0 s) : OKeeps z0 (execDmaKick t i n v s) := by
  unfold execDmaKick
  try dsimp only
  repeat' first
    | with_reducible assumption | with_reducible apply State.at_keeps | with_reducible apply State.deny_keeps
    | with_reducible apply State.wr_keeps | with_reducible apply State.hwRead_keeps | with_reducible apply State.dmaHalt_keeps
    | with_reducible apply State.setDma_keeps | with_reducible apply State.setCur_keeps | with_reducible apply OKeeps.next
    | with_reducible apply OKeeps.ite | with_reducible apply Keeps.ite | with_reducible apply Keeps.ite1 | split

theorem execDescriptorFetch_keeps {z0 : State} {t n : Nat} {s : State} (hs : Keeps z0 s) : OKeeps z0 (execDescriptorFetch t n s) := by
  unfold execDescriptorFetch
  try dsimp only
  repeat' first
    | with_reducible assumption | with_reducible apply State.at_keeps | with_reducible apply State.hwRead_keeps
    | with_reducible apply State.dmaHalt_keeps | with_reducible apply State.setDma_keeps | with_reducible apply State.inc_keeps
    | with_reducible apply State.segEnd_keeps | with_reducible apply State.dmaAdvance_keeps | with_reducible apply OKeeps.next
    | with_reducible apply OKeeps.ite | with_reducible apply Keeps.ite | with_reducible apply Keeps.ite1 | split

theorem execSegmentDone_keeps {z0 : State} {t n : Nat} {data poison : List Nat} {s : State} (hs : Keeps z0 s) :
    OKeeps z0 (execSegmentDone t n data poison s) := by
  unfold execSegmentDone
  try dsimp only
  repeat' first
    | with_reducible assumption | with_reducible apply State.at_keeps | with_reducible apply State.dmaReceive_keeps
    | with_reducible apply State.dmaCopy_keeps | with_reducible apply State.dmaSpend_keeps | with_reducible apply OKeeps.next
    | with_reducible apply OKeeps.ite | with_reducible apply Keeps.ite | with_reducible apply Keeps.ite1 | split

theorem execTransferComplete_keeps {z0 : State} {t n : Nat} {s : State} (hs : Keeps z0 s) : OKeeps z0 (execTransferComplete t n s) := by
  unfold execTransferComplete
  try dsimp only
  repeat' first
    | with_reducible assumption | with_reducible apply State.at_keeps | with_reducible apply State.dmaComplete_keeps
    | with_reducible apply OKeeps.next | with_reducible apply OKeeps.ite | with_reducible apply Keeps.ite | split

theorem execDmaBusError_keeps {z0 : State} {t n : Nat} {wr : Bool} {a st : Nat} {data : List Nat} {s : State} (hs : Keeps z0 s) :
    OKeeps z0 (execDmaBusError t n wr a st data s) := by
  unfold execDmaBusError
  try dsimp only
  repeat' first
    | with_reducible assumption | with_reducible apply State.at_keeps | with_reducible apply State.dmaPut_keeps
    | with_reducible apply State.segFail_keeps | with_reducible apply OKeeps.next | with_reducible apply OKeeps.ite
    | with_reducible apply Keeps.ite | with_reducible apply Keeps.ite1 | split

theorem execHaltedClear_keeps {z0 : State} {t i n : Nat} {s : State} (hs : Keeps z0 s) : OKeeps z0 (execHaltedClear t i n s) := by
  unfold execHaltedClear
  try dsimp only
  repeat' first
    | with_reducible assumption | with_reducible apply State.at_keeps | with_reducible apply State.deny_keeps
    | with_reducible apply State.wr_keeps | with_reducible apply State.dmaIdle_keeps | with_reducible apply OKeeps.next
    | with_reducible apply OKeeps.ite | with_reducible apply Keeps.ite | split

theorem execDmaBudgetWindow_keeps {z0 : State} {t : Nat} {s : State} (hs : Keeps z0 s) : OKeeps z0 (execDmaBudgetWindow t s) := by
  unfold execDmaBudgetWindow
  try dsimp only
  repeat' first
    | with_reducible assumption | with_reducible apply State.at_keeps | with_reducible apply State.dmaTurns_keeps
    | with_reducible apply State.inc_keeps | with_reducible apply State.setDma_keeps | with_reducible apply OKeeps.next
    | with_reducible apply OKeeps.ite | with_reducible apply Keeps.ite | with_reducible apply Keeps.ite1
    | with_reducible apply Keeps.foldl | with_reducible apply Keeps.foldl1 | with_reducible apply Keeps.foldl2 | intro _ _ _
    | intro _ _ | (fail_if_no_progress with_reducible refine Keeps.mk' ?_ rfl rfl rfl rfl rfl rfl rfl) | split

theorem State.dmaOn_keeps {z0 s : State} {n : Nat} (hs : Keeps z0 s) : Keeps z0 (State.dmaOn s n) := by
  unfold State.dmaOn
  try dsimp only
  repeat' first
    | with_reducible assumption | with_reducible apply State.wr_keeps | with_reducible apply State.dmaIdle_keeps
    | with_reducible apply Keeps.ite | split

theorem State.dmaCut_keeps {z0 s : State} {n : Nat} {g : DmaSeg} (hs : Keeps z0 s) : Keeps z0 (State.dmaCut s n g) := by
  unfold State.dmaCut
  try dsimp only
  repeat' first
    | with_reducible assumption | with_reducible apply State.takeFree_keeps | with_reducible apply State.hwRead_keeps
    | with_reducible apply State.dmaPut_keeps | with_reducible apply Keeps.ite | with_reducible apply Keeps.ite1 | split

theorem State.dmaFence_keeps {z0 s : State} {n : Nat} (hs : Keeps z0 s) : Keeps z0 (State.dmaFence s n) := by
  unfold State.dmaFence
  try dsimp only
  repeat' first
    | with_reducible assumption | with_reducible apply State.setCur_keeps | with_reducible apply State.dmaCut_keeps
    | with_reducible apply State.setEth_keeps | with_reducible apply State.setDma_keeps | with_reducible apply Keeps.ite
    | with_reducible apply Keeps.ite1 | split

theorem State.dmaHostFails_keeps {z0 s : State} {st : Nat} (hs : Keeps z0 s) : Keeps z0 (State.dmaHostFails s st) := by
  unfold State.dmaHostFails
  try dsimp only
  repeat' first
    | with_reducible assumption | with_reducible apply State.segFail_keeps | with_reducible apply Keeps.ite
    | with_reducible apply Keeps.ite1 | with_reducible apply Keeps.foldl | with_reducible apply Keeps.foldl1
    | with_reducible apply Keeps.foldl2 | intro _ _ _ | intro _ _ | split

end Sys2Proof.Machine
end

