-- ==== Sys2Proof/Laws/KeepsTiles.lean ====
section
/-!
SUPPORT. What is kept (Keeps) by tiles, the scheduler, batches, clocks, the cap and the key-value cache.
-/

namespace Sys2Proof.Machine

set_option linter.unreachableTactic false
set_option linter.unusedTactic false
set_option maxRecDepth 100000
set_option linter.unusedVariables false

theorem State.dropTile_keeps {z0 s : State} {c : Nat} (hs : Keeps z0 s) : Keeps z0 (State.dropTile s c) := by
  unfold State.dropTile
  try dsimp only
  repeat' first
    | with_reducible assumption | with_reducible apply State.updPage_keeps | with_reducible apply State.setTile_none_keeps
    | with_reducible apply Keeps.foldl | with_reducible apply Keeps.foldl1 | with_reducible apply Keeps.foldl2 | intro _ _ _
    | intro _ _ | split

theorem State.modCmd_keeps {z0 s : State} {x : Nat} {f : Cmd → Cmd} (hs : Keeps z0 s) : Keeps z0 (State.modCmd s x f) := by
  unfold State.modCmd
  try dsimp only
  repeat' first
    | with_reducible assumption | with_reducible apply State.setSch_keeps | with_reducible apply Keeps.ite | split

theorem State.setHome_keeps {z0 s : State} {j c : Nat} (hs : Keeps z0 s) : Keeps z0 (State.setHome s j c) := by
  unfold State.setHome
  try dsimp only
  repeat' first
    | with_reducible assumption | with_reducible apply State.wr_keeps | with_reducible apply Keeps.ite | split

theorem State.setShard_keeps {z0 s : State} {j m c : Nat} (hs : Keeps z0 s) : Keeps z0 (State.setShard s j m c) := by
  unfold State.setShard
  try dsimp only
  repeat' first
    | with_reducible assumption | with_reducible apply State.setHome_keeps | with_reducible apply State.wr_keeps
    | with_reducible apply Keeps.ite | split

theorem State.settleCmd_keeps {z0 s : State} {q : Nat} (hs : Keeps z0 s) : Keeps z0 (State.settleCmd s q) := by
  unfold State.settleCmd
  try dsimp only
  repeat' first
    | with_reducible assumption | with_reducible apply State.modCmd_keeps | with_reducible apply Keeps.ite
    | with_reducible apply Keeps.ite1 | split

theorem State.refuseCmd_keeps {z0 s : State} {q status : Nat} (hs : Keeps z0 s) : Keeps z0 (State.refuseCmd s q status) := by
  unfold State.refuseCmd
  try dsimp only
  repeat' first
    | with_reducible assumption | with_reducible apply State.modCmd_keeps | with_reducible apply Keeps.ite | split

theorem State.writeSegStatus_keeps {z0 s : State} {x : Cmd} {k st : Nat} (hs : Keeps z0 s) : Keeps z0 (State.writeSegStatus s x k st) := by
  unfold State.writeSegStatus
  try dsimp only
  repeat' first
    | with_reducible assumption | with_reducible apply State.putAs_keeps | with_reducible apply Keeps.ite | split

theorem State.noteLayer_keeps {z0 s : State} {q t layer : Nat} (hs : Keeps z0 s) : Keeps z0 (State.noteLayer s q t layer) := by
  unfold State.noteLayer
  try dsimp only
  repeat' first
    | with_reducible assumption | with_reducible apply State.modCmd_keeps | with_reducible apply Keeps.ite
    | with_reducible apply Keeps.ite1 | split

theorem State.endCmdTile_keeps {z0 s : State} {q t status : Nat} (hs : Keeps z0 s) : Keeps z0 (State.endCmdTile s q t status) := by
  unfold State.endCmdTile
  try dsimp only
  repeat' first
    | with_reducible assumption | with_reducible apply State.settleCmd_keeps | with_reducible apply State.modCmd_keeps
    | with_reducible apply State.writeSegStatus_keeps | with_reducible apply Keeps.ite | with_reducible apply Keeps.ite1 | split

theorem State.dropForced_keeps {z0 s : State} {q : Nat} (hs : Keeps z0 s) : Keeps z0 (State.dropForced s q) := by
  unfold State.dropForced
  try dsimp only
  repeat' first
    | with_reducible assumption | with_reducible apply State.settleCmd_keeps | with_reducible apply State.setSch_keeps

theorem State.moveShards_keeps {z0 s : State} {c : Nat} (hs : Keeps z0 s) : Keeps z0 (State.moveShards s c) := by
  unfold State.moveShards
  try dsimp only
  repeat' first
    | with_reducible assumption | with_reducible apply State.setHome_keeps | with_reducible apply State.wr_keeps
    | with_reducible apply Keeps.ite | with_reducible apply Keeps.ite1 | with_reducible apply Keeps.foldl
    | with_reducible apply Keeps.foldl1 | with_reducible apply Keeps.foldl2 | intro _ _ _ | intro _ _ | split

theorem State.clearSubst_keeps {z0 s : State} {c : Nat} (hs : Keeps z0 s) : Keeps z0 (State.clearSubst s c) := by
  unfold State.clearSubst
  try dsimp only
  repeat' first
    | with_reducible assumption | with_reducible apply State.wr64_keeps | with_reducible apply Keeps.ite | split

theorem State.rebind_keeps {z0 s : State} {c : Nat} (hs : Keeps z0 s) : Keeps z0 (State.rebind s c) := by
  unfold State.rebind
  try dsimp only
  repeat' first
    | with_reducible assumption | with_reducible apply State.settleCmd_keeps | with_reducible apply State.modCmd_keeps
    | with_reducible apply State.inc_keeps | with_reducible apply State.setSch_keeps | with_reducible apply Keeps.foldl
    | with_reducible apply Keeps.foldl1 | with_reducible apply Keeps.foldl2 | intro _ _ _ | intro _ _ | split

theorem State.suspect_keeps {z0 s : State} {c t : Nat} {inj : Bool} (hs : Keeps z0 s) : Keeps z0 (State.suspect s c t inj) := by
  unfold State.suspect
  try dsimp only
  repeat' first
    | with_reducible assumption | with_reducible apply State.wr_keeps | with_reducible apply State.toFault_keeps
    | with_reducible apply State.countRep_keeps | (with_reducible refine State.setClu_keeps ?_ rfl)
    | with_reducible apply State.clearSubst_keeps | with_reducible apply State.rebind_keeps
    | with_reducible apply State.moveShards_keeps

theorem State.latchExc_keeps {z0 s : State} {c : Nat} {t : Tile} {word : Nat} {x : Trap} (hs : Keeps z0 s) :
    Keeps z0 (State.latchExc s c t word x) := by
  unfold State.latchExc
  try dsimp only
  repeat' first
    | with_reducible assumption | with_reducible apply State.inc_keeps | with_reducible apply State.setCnt_keeps
    | with_reducible apply Keeps.ite | split

theorem State.tileMismatch_keeps {z0 s : State} {c : Nat} {t : Tile} {hung : Bool} (hs : Keeps z0 s) : Keeps z0 (State.tileMismatch s c t hung) := by
  unfold State.tileMismatch
  try dsimp only
  repeat' first
    | with_reducible assumption | with_reducible apply State.dropTile_keeps | with_reducible apply State.setSch_keeps
    | with_reducible apply State.settleCmd_keeps | with_reducible apply State.inc_keeps | with_reducible apply State.suspect_keeps
    | with_reducible apply State.noteLayer_keeps | with_reducible apply State.endCmdTile_keeps
    | with_reducible apply State.latchExc_keeps | with_reducible apply State.residueFail_keeps | with_reducible apply Keeps.ite
    | with_reducible apply Keeps.ite1 | split

theorem State.tileTrap_keeps {z0 s : State} {c : Nat} {t : Tile} {word : Nat} {x : Trap} (hs : Keeps z0 s) :
    Keeps z0 (State.tileTrap s c t word x) := by
  unfold State.tileTrap
  try dsimp only
  repeat' first
    | with_reducible assumption | with_reducible apply State.tileMismatch_keeps | with_reducible apply State.upgReport_keeps
    | with_reducible apply State.latchExc_keeps | with_reducible apply State.endCmdTile_keeps
    | with_reducible apply State.dropTile_keeps | with_reducible apply Keeps.ite | with_reducible apply Keeps.ite1 | split

theorem State.addWork_keeps {z0 s : State} {c : Nat} {t : Tile} {n : Nat} (hs : Keeps z0 s) : Keeps z0 (State.addWork s c t n).1 := by
  unfold State.addWork
  try dsimp only
  repeat' first
    | with_reducible assumption | with_reducible apply State.inc_keeps | with_reducible apply Keeps.ite
    | with_reducible apply Keeps.ite1 | split

theorem State.icTake_keeps {z0 s : State} {c : Nat} {l : IcLine} (hs : Keeps z0 s) : Keeps z0 (State.icTake s c l) := by
  unfold State.icTake
  try dsimp only
  repeat' first
    | with_reducible assumption | (with_reducible refine State.setClu_keeps ?_ rfl) | with_reducible apply State.takeFree_keeps
    | with_reducible apply Keeps.ite | split

theorem State.fetchWord_keeps {z0 s : State} {c : Nat} {t : Tile} (hs : Keeps z0 s) : Keeps z0 (State.fetchWord s c t).1 := by
  unfold State.fetchWord
  try dsimp only
  repeat' first
    | with_reducible assumption | with_reducible apply State.hwRead_keeps | with_reducible apply State.inc_keeps
    | with_reducible apply State.icTake_keeps | with_reducible apply Keeps.ite | with_reducible apply Keeps.ite1 | split

theorem State.settleTile_keeps {z0 : State} {x0 : Nat} {x1 : State} {x2 : Nat} {x3 : Tile} (hx1 : Keeps z0 x1) (hx3 : z0.TilesInRange → x3.InRange) :
    Keeps z0 (State.settleTile x0 x1 x2 x3) := by
  induction x0 generalizing x1 x3 with
  | zero => exact State.setTile_some_keeps hx1 hx3
  | succ _ ih =>
    unfold State.settleTile
    try dsimp only
    repeat' first
      | with_reducible assumption | with_reducible apply ih | exact fun k => Tile.stepLoop_inRange (hx3 k) | with_reducible apply State.setTile_none_keeps | with_reducible apply State.setTile_some_keeps
      | with_reducible apply State.tileTrap_keeps | with_reducible apply State.fetchWord_keeps
      | with_reducible apply State.addWork_keeps | with_reducible apply Keeps.ite | with_reducible apply Keeps.ite1 | split

theorem State.advance_keeps {z0 s : State} {c : Nat} {t : Tile} {word next : Nat} (hs : Keeps z0 s) (ht : z0.TilesInRange → t.InRange) :
    Keeps z0 (State.advance s c t word next) := by
  unfold State.advance
  try dsimp only
  repeat' first
    | with_reducible assumption
    | exact ht
    | exact fun k => Tile.stepLoop_inRange (ht k) | with_reducible apply State.setTile_none_keeps | with_reducible apply State.setTile_some_keeps
    | with_reducible apply State.tileTrap_keeps | with_reducible apply State.settleTile_keeps | with_reducible apply Keeps.ite
    | split

theorem State.spadRead_keeps {z0 s : State} {c : Nat} {t : Tile} {a n : Nat} (hs : Keeps z0 s) : Keeps z0 (State.spadRead s c t a n).1 := by
  unfold State.spadRead
  try dsimp only
  repeat' first
    | with_reducible assumption | with_reducible apply State.readUnits_keeps | with_reducible apply Keeps.ite
    | with_reducible apply Keeps.ite1 | with_reducible apply Keeps.foldl | with_reducible apply Keeps.foldl1
    | with_reducible apply Keeps.foldl2 | intro _ _ _ | intro _ _ | split

theorem State.zeroLine_keeps {z0 s : State} {a : Nat} (hs : Keeps z0 s) : Keeps z0 (State.zeroLine s a) := by
  unfold State.zeroLine
  generalize List.replicate 64 0 = l
  generalize unitsOf a 64 = u
  refine hs.trans ⟨fun k => ⟨?_, k.2.1, ?_, ?_⟩, id, rfl, Nat.le_refl _⟩
  · rw [memPuts_foldl]
    exact Store.wf_foldl _ (fun _ _ => memPut_wf) _ k.1
  · exact Store.wf_foldl _ (fun _ _ h => Store.wf_put h) _ k.2.2.1
  · exact Store.wf_foldl _ (fun _ _ h => Store.wf_put h) _ k.2.2.2

theorem State.spadWrite_keeps {z0 s : State} {c : Nat} {t : Tile} {a : Nat} {bs : List Nat} (hs : Keeps z0 s) :
    Keeps z0 (State.spadWrite s c t a bs).1 := by
  unfold State.spadWrite
  try dsimp only
  repeat' first
    | with_reducible assumption | with_reducible apply State.zeroLine_keeps | with_reducible apply State.mergeWrite_keeps
    | with_reducible apply Keeps.ite | with_reducible apply Keeps.ite1 | with_reducible apply Keeps.foldl
    | with_reducible apply Keeps.foldl1 | with_reducible apply Keeps.foldl2 | intro _ _ _ | intro _ _ | split

theorem State.tileRead_keeps {z0 s : State} {c : Nat} {t : Tile} {ea n : Nat} (hs : Keeps z0 s) : Keeps z0 (State.tileRead s c t ea n).1 := by
  unfold State.tileRead
  try dsimp only
  repeat' first
    | with_reducible assumption | with_reducible apply State.spadRead_keeps | with_reducible apply State.hwRead_keeps
    | with_reducible apply Keeps.ite | with_reducible apply Keeps.ite1 | split

theorem State.tileWrite_keeps {z0 s : State} {c : Nat} {t : Tile} {ea : Nat} {bs : List Nat} (hs : Keeps z0 s) :
    Keeps z0 (State.tileWrite s c t ea bs).1 := by
  unfold State.tileWrite
  try dsimp only
  repeat' first
    | with_reducible assumption | with_reducible apply State.spadWrite_keeps | with_reducible apply State.checkStore_keeps
    | with_reducible apply Keeps.ite | with_reducible apply Keeps.ite1 | split

theorem readRows_keeps {z0 : State} {c b : Nat} {s : State} {t : Tile} (hs : Keeps z0 s) : Keeps z0 (readRows c b s t).1 := by
  unfold readRows
  refine Keeps.foldl1 hs (fun x r h => ?_)
  exact Keeps.beside (f := fun rd => (if x.2.1 ≠ 0 then x.2.1 else rd.2.1, x.2.2 ++ [rd.2.2])) (State.tileRead_keeps h)

theorem State.doorbell_keeps {z0 s : State} {q w : Nat} (hs : Keeps z0 s) : Keeps z0 (State.doorbell s q w) := by
  unfold State.doorbell
  try dsimp only
  repeat' first
    | with_reducible assumption | with_reducible apply State.wr_keeps | with_reducible apply State.setSch_keeps
    | with_reducible apply Keeps.ite | split

theorem State.noteRan_keeps {z0 s : State} {c : Nat} {x : Cmd} (hs : Keeps z0 s) : Keeps z0 (State.noteRan s c x) := by
  unfold State.noteRan
  try dsimp only
  repeat' first
    | with_reducible assumption | with_reducible apply State.setPwr_keeps

theorem State.startClock_keeps {z0 s : State} {c : Nat} (hs : Keeps z0 s) : Keeps z0 (State.startClock s c).1 := by
  unfold State.startClock
  try dsimp only
  repeat' first
    | with_reducible assumption | with_reducible apply State.inc_keeps | with_reducible apply State.setPwr_keeps
    | with_reducible apply Keeps.ite | with_reducible apply Keeps.ite1 | split

theorem execSlopeWindow_keeps {z0 : State} {t : Nat} {s : State} (hs : Keeps z0 s) : OKeeps z0 (execSlopeWindow t s) := by
  unfold execSlopeWindow
  try dsimp only
  repeat' first
    | with_reducible assumption | with_reducible apply State.at_keeps | with_reducible apply State.setPwr_keeps
    | with_reducible apply OKeeps.next | with_reducible apply OKeeps.ite | with_reducible apply Keeps.ite
    | with_reducible apply Keeps.ite1 | with_reducible apply Keeps.foldl | with_reducible apply Keeps.foldl1
    | with_reducible apply Keeps.foldl2 | intro _ _ _ | intro _ _ | split

theorem State.refuseStart_keeps {z0 s : State} {c : Nat} {x : Cmd} {cause addr : Nat} (hs : Keeps z0 s) :
    Keeps z0 (State.refuseStart s c x cause addr) := by
  unfold State.refuseStart
  try dsimp only
  repeat' first
    | with_reducible assumption | with_reducible apply State.refuseCmd_keeps | with_reducible apply State.latchExc_keeps

theorem State.beginCmd_keeps {z0 s : State} {c : Nat} {x : Cmd} (hs : Keeps z0 s) : Keeps z0 (State.beginCmd s c x) := by
  unfold State.beginCmd
  try dsimp only
  repeat' first
    | with_reducible assumption | with_reducible apply State.refuseStart_keeps | with_reducible apply State.hwRead_keeps
    | with_reducible apply State.refuseCmd_keeps | with_reducible apply State.settleCmd_keeps
    | with_reducible apply State.modCmd_keeps | with_reducible apply Keeps.ite | with_reducible apply Keeps.ite1 | split

theorem State.startTile_keeps {z0 s : State} {c : Nat} {x : Cmd} {n stage inj : Nat} {ups : List (Nat × Nat × Nat)} (hs : Keeps z0 s) :
    Keeps z0 (State.startTile s c x n stage inj ups) := by
  unfold State.startTile
  try dsimp only
  repeat' first
    | with_reducible assumption
    | exact fun _ => initTile_inRange _ _ _ _ | with_reducible apply State.wr_keeps | with_reducible apply State.noteRan_keeps
    | with_reducible apply State.settleTile_keeps | with_reducible apply State.settleTile_keeps | with_reducible apply Keeps.ite
    | split

theorem State.icSpoil_keeps {z0 s : State} {c : Nat} {ws : List Nat} (hs : Keeps z0 s) : Keeps z0 (State.icSpoil s c ws) := by
  unfold State.icSpoil
  try dsimp only
  repeat' first
    | with_reducible assumption | (with_reducible refine State.setClu_keeps ?_ rfl) | with_reducible apply Keeps.ite
    | with_reducible apply Keeps.ite1 | with_reducible apply Keeps.foldl | with_reducible apply Keeps.foldl1
    | with_reducible apply Keeps.foldl2 | intro _ _ _ | intro _ _ | split

theorem State.release_keeps {z0 s : State} {c : Nat} {buf : List (Nat × List Nat)} (hs : Keeps z0 s) : Keeps z0 (State.release s c buf) := by
  unfold State.release
  try dsimp only
  repeat' first
    | with_reducible assumption | with_reducible apply State.mergeWrite_keeps | with_reducible apply Keeps.foldl
    | with_reducible apply Keeps.foldl1 | with_reducible apply Keeps.foldl2 | intro _ _ _ | intro _ _ | split

theorem State.retryOk_keeps {z0 s : State} {c : Nat} {t : Tile} (hs : Keeps z0 s) : Keeps z0 (State.retryOk s c t) := by
  unfold State.retryOk
  try dsimp only
  repeat' first
    | with_reducible assumption | with_reducible apply State.modCmd_keeps | with_reducible apply State.residueRetry_keeps
    | (with_reducible refine State.setClu_keeps ?_ rfl) | with_reducible apply State.suspect_keeps | with_reducible apply Keeps.ite
    | split

theorem State.abandonTile_keeps {z0 s : State} {c : Nat} (hs : Keeps z0 s) : Keeps z0 (State.abandonTile s c) := by
  unfold State.abandonTile
  try dsimp only
  repeat' first
    | with_reducible assumption | with_reducible apply State.inc_keeps | with_reducible apply State.dropTile_keeps
    | with_reducible apply State.settleCmd_keeps | with_reducible apply State.modCmd_keeps | split

theorem State.setReqs_keeps {z0 s : State} {k : Nat} {l : List SegReq} (hs : Keeps z0 s) : Keeps z0 (State.setReqs s k l) := by
  unfold State.setReqs
  try dsimp only
  repeat' first
    | with_reducible assumption | with_reducible apply State.setSch_keeps

theorem State.setBatchBuf_keeps {z0 s : State} {k j : Nat} {b : Option Batch} (hs : Keeps z0 s) : Keeps z0 (State.setBatchBuf s k j b) := by
  unfold State.setBatchBuf
  try dsimp only
  repeat' first
    | with_reducible assumption | with_reducible apply State.setSch_keeps

theorem State.reqReport_keeps {z0 s : State} {x : SegReq} {status : Nat} (hs : Keeps z0 s) : Keeps z0 (State.reqReport s x status) := by
  unfold State.reqReport
  try dsimp only
  repeat' first
    | with_reducible assumption | with_reducible apply State.checkReport_keeps | with_reducible apply Keeps.ite | split

theorem State.readReqs_keeps {z0 : State} {x0 : Nat} {x1 : State} {x2 : Nat} (hx1 : Keeps z0 x1) : Keeps z0 (State.readReqs x0 x1 x2) := by
  induction x0 generalizing x1 with
  | zero => exact hx1
  | succ _ ih =>
    unfold State.readReqs
    try dsimp only
    repeat' first
      | with_reducible assumption | with_reducible apply ih | with_reducible apply State.hwRead_keeps | with_reducible apply State.wr_keeps
      | with_reducible apply State.setReqs_keeps | with_reducible apply State.reqReport_keeps | with_reducible apply Keeps.ite
      | with_reducible apply Keeps.ite1 | split

theorem State.drainReqs_keeps {z0 s : State} {k : Nat} (hs : Keeps z0 s) : Keeps z0 (State.drainReqs s k) := by
  unfold State.drainReqs
  try dsimp only
  repeat' first
    | with_reducible assumption | with_reducible apply State.readReqs_keeps

theorem State.dropReqs_keeps {z0 s : State} {k : Nat} (hs : Keeps z0 s) : Keeps z0 (State.dropReqs s k) := by
  unfold State.dropReqs
  try dsimp only
  repeat' first
    | with_reducible assumption | with_reducible apply State.setReqs_keeps | with_reducible apply State.reqReport_keeps
    | with_reducible apply Keeps.foldl | with_reducible apply Keeps.foldl1 | with_reducible apply Keeps.foldl2 | intro _ _ _
    | intro _ _ | split

theorem State.openBatch_keeps {z0 : State} {x0 : List Nat} {x1 : State} {x2 : Nat} (hx1 : Keeps z0 x1) : Keeps z0 (State.openBatch x0 x1 x2).1 := by
  induction x0 generalizing x1 with
  | nil => exact hx1
  | cons _ _ ih =>
    unfold State.openBatch
    try dsimp only
    repeat' first
      | with_reducible assumption | with_reducible apply ih | with_reducible apply State.hwRead_keeps | with_reducible apply State.setBatchBuf_keeps
      | with_reducible apply Keeps.ite | with_reducible apply Keeps.ite1 | split

theorem State.addReq_keeps {z0 s : State} {k j : Nat} {b : Batch} {x : SegReq} (hs : Keeps z0 s) : Keeps z0 (State.addReq s k j b x) := by
  unfold State.addReq
  try dsimp only
  repeat' first
    | with_reducible assumption | with_reducible apply State.hwRead_keeps | with_reducible apply State.hwWriteParts_keeps
    | with_reducible apply State.setBatchBuf_keeps | with_reducible apply State.putAs_keeps | with_reducible apply Keeps.ite
    | with_reducible apply Keeps.ite1 | split

theorem State.fillBatch_keeps {z0 : State} {x0 : Nat} {x1 : State} {x2 x3 : Nat} (hx1 : Keeps z0 x1) : Keeps z0 (State.fillBatch x0 x1 x2 x3) := by
  induction x0 generalizing x1 with
  | zero => exact hx1
  | succ _ ih =>
    unfold State.fillBatch
    try dsimp only
    repeat' first
      | with_reducible assumption | with_reducible apply ih | with_reducible apply State.setReqs_keeps | with_reducible apply State.addReq_keeps
      | with_reducible apply Keeps.ite | with_reducible apply Keeps.ite1 | split

theorem State.submit_keeps {z0 s : State} {k j : Nat} {b : Batch} (hs : Keeps z0 s) : Keeps z0 (State.submit s k j b) := by
  unfold State.submit
  try dsimp only
  repeat' first
    | with_reducible assumption | with_reducible apply State.hwRead_keeps | with_reducible apply State.putAs_keeps
    | with_reducible apply State.setBatchBuf_keeps | with_reducible apply State.doorbell_keeps | with_reducible apply State.inc_keeps
    | with_reducible apply Keeps.ite | with_reducible apply Keeps.ite1 | with_reducible apply Keeps.foldl
    | with_reducible apply Keeps.foldl1 | with_reducible apply Keeps.foldl2 | intro _ _ _ | intro _ _ | split

theorem State.batchRounds_keeps {z0 : State} {x0 : Nat} {x1 : State} {x2 : Nat} (hx1 : Keeps z0 x1) : Keeps z0 (State.batchRounds x0 x1 x2) := by
  induction x0 generalizing x1 with
  | zero => exact hx1
  | succ _ ih =>
    unfold State.batchRounds
    try dsimp only
    repeat' first
      | with_reducible assumption | with_reducible apply ih | with_reducible apply State.fillBatch_keeps | with_reducible apply State.openBatch_keeps
      | with_reducible apply State.setBatchBuf_keeps | with_reducible apply State.submit_keeps | with_reducible apply Keeps.ite
      | with_reducible apply Keeps.ite1 | split

theorem State.batchRun_keeps {z0 s : State} {k : Nat} (hs : Keeps z0 s) : Keeps z0 (State.batchRun s k) := by
  unfold State.batchRun
  try dsimp only
  repeat' first
    | with_reducible assumption | with_reducible apply State.batchRounds_keeps | with_reducible apply State.dropReqs_keeps
    | with_reducible apply State.drainReqs_keeps | with_reducible apply Keeps.ite | split

theorem State.chainStatus_keeps {z0 s : State} {x status : Nat} (hs : Keeps z0 s) : Keeps z0 (State.chainStatus s x status) := by
  unfold State.chainStatus
  try dsimp only
  repeat' first
    | with_reducible assumption | with_reducible apply State.setSch_keeps | with_reducible apply Keeps.ite
    | with_reducible apply Keeps.ite1 | split

theorem State.chainRetired_keeps {z0 s : State} {k j : Nat} {b : Batch} (hs : Keeps z0 s) : Keeps z0 (State.chainRetired s k j b) := by
  unfold State.chainRetired
  try dsimp only
  repeat' first
    | with_reducible assumption | with_reducible apply State.hwRead_keeps | with_reducible apply State.checkReport_keeps
    | with_reducible apply State.batchRun_keeps | with_reducible apply State.setBatchBuf_keeps | with_reducible apply Keeps.ite
    | with_reducible apply Keeps.ite1 | with_reducible apply Keeps.foldl | with_reducible apply Keeps.foldl1
    | with_reducible apply Keeps.foldl2 | intro _ _ _ | intro _ _ | split

theorem State.chainRetire_keeps {z0 s : State} {x : Nat} (hs : Keeps z0 s) : Keeps z0 (State.chainRetire s x) := by
  unfold State.chainRetire
  try dsimp only
  repeat' first
    | with_reducible assumption | with_reducible apply State.chainRetired_keeps | split

theorem execSchSrqWr_keeps {z0 : State} {t i k v : Nat} {s : State} (hs : Keeps z0 s) : OKeeps z0 (execSchSrqWr t i k v s) := by
  unfold execSchSrqWr
  try dsimp only
  repeat' first
    | with_reducible assumption | with_reducible apply State.at_keeps | with_reducible apply State.deny_keeps
    | with_reducible apply State.batchRun_keeps | with_reducible apply State.wr_keeps | with_reducible apply OKeeps.next
    | with_reducible apply OKeeps.ite | with_reducible apply Keeps.ite | split

theorem execBatchWaitExpiry_keeps {z0 : State} {t k : Nat} {s : State} (hs : Keeps z0 s) : OKeeps z0 (execBatchWaitExpiry t k s) := by
  unfold execBatchWaitExpiry
  try dsimp only
  repeat' first
    | with_reducible assumption | with_reducible apply State.batchRun_keeps | with_reducible apply State.at_keeps
    | with_reducible apply OKeeps.next

theorem execBatchSlackExpiry_keeps {z0 : State} {t k : Nat} {s : State} (hs : Keeps z0 s) : OKeeps z0 (execBatchSlackExpiry t k s) := by
  unfold execBatchSlackExpiry
  try dsimp only
  repeat' first
    | with_reducible assumption | with_reducible apply State.batchRun_keeps | with_reducible apply State.at_keeps
    | with_reducible apply OKeeps.next

theorem State.setRail_keeps {z0 s : State} {r : Nat} {x : Rail} (hs : Keeps z0 s) : Keeps z0 (State.setRail s r x) := by
  unfold State.setRail
  try dsimp only
  repeat' first
    | with_reducible assumption | with_reducible apply State.wr_keeps | with_reducible apply State.setPwr_keeps
    | with_reducible apply Keeps.ite | split

theorem State.retarget_keeps {z0 s : State} {c : Nat} (hs : Keeps z0 s) : Keeps z0 (State.retarget s c) := by
  unfold State.retarget
  try dsimp only
  repeat' first
    | with_reducible assumption | with_reducible apply State.wr_keeps

theorem State.setCap_keeps {z0 s : State} {c v : Nat} (hs : Keeps z0 s) : Keeps z0 (State.setCap s c v) := by
  unfold State.setCap
  try dsimp only
  repeat' first
    | with_reducible assumption | with_reducible apply State.retarget_keeps | with_reducible apply State.wr_keeps

theorem State.switchOp_keeps {z0 s : State} {c v : Nat} (hs : Keeps z0 s) : Keeps z0 (State.switchOp s c v) := by
  unfold State.switchOp
  try dsimp only
  repeat' first
    | with_reducible assumption | with_reducible apply State.inc_keeps | with_reducible apply State.wr_keeps
    | with_reducible apply State.setPwr_keeps | with_reducible apply Keeps.ite | split

theorem State.askRail_keeps {z0 s : State} {r : Nat} (hs : Keeps z0 s) : Keeps z0 (State.askRail s r) := by
  unfold State.askRail
  try dsimp only
  repeat' first
    | with_reducible assumption | with_reducible apply State.setRail_keeps | with_reducible apply Keeps.ite
    | (fail_if_no_progress with_reducible refine Keeps.mk' ?_ rfl rfl rfl rfl rfl rfl rfl) | split

theorem State.driveOp_keeps {z0 s : State} {c : Nat} (hs : Keeps z0 s) : Keeps z0 (State.driveOp s c) := by
  unfold State.driveOp
  try dsimp only
  repeat' first
    | with_reducible assumption | with_reducible apply State.switchOp_keeps | with_reducible apply Keeps.ite | split

theorem execOpTargetChange_keeps {z0 : State} {t c : Nat} {s : State} (hs : Keeps z0 s) : OKeeps z0 (execOpTargetChange t c s) := by
  unfold execOpTargetChange
  try dsimp only
  repeat' first
    | with_reducible assumption | with_reducible apply State.at_keeps | with_reducible apply State.askRail_keeps
    | with_reducible apply State.driveOp_keeps | with_reducible apply State.retarget_keeps | with_reducible apply OKeeps.next
    | with_reducible apply OKeeps.ite | with_reducible apply Keeps.ite | split

theorem execAvsAck_keeps {z0 : State} {t r : Nat} {s : State} (hs : Keeps z0 s) : OKeeps z0 (execAvsAck t r s) := by
  unfold execAvsAck
  try dsimp only
  repeat' first
    | with_reducible assumption | with_reducible apply State.at_keeps | with_reducible apply State.askRail_keeps
    | with_reducible apply State.driveOp_keeps | with_reducible apply State.setRail_keeps | with_reducible apply OKeeps.next
    | with_reducible apply Keeps.foldl | with_reducible apply Keeps.foldl1 | with_reducible apply Keeps.foldl2 | intro _ _ _
    | intro _ _ | split

theorem execAvsTimeout_keeps {z0 : State} {t r : Nat} {s : State} (hs : Keeps z0 s) : OKeeps z0 (execAvsTimeout t r s) := by
  unfold execAvsTimeout
  try dsimp only
  repeat' first
    | with_reducible assumption | with_reducible apply State.at_keeps | with_reducible apply State.wr_keeps
    | with_reducible apply State.setRail_keeps | with_reducible apply State.raise_keeps | with_reducible apply State.inc_keeps
    | with_reducible apply State.askRail_keeps | with_reducible apply OKeeps.next | with_reducible apply OKeeps.ite
    | with_reducible apply Keeps.ite | with_reducible apply Keeps.ite1 | split

theorem State.capAll_keeps {z0 s : State} {v : Nat} (hs : Keeps z0 s) : Keeps z0 (State.capAll s v) := by
  unfold State.capAll
  try dsimp only
  repeat' first
    | with_reducible assumption | with_reducible apply State.setCap_keeps | with_reducible apply Keeps.foldl
    | with_reducible apply Keeps.foldl1 | with_reducible apply Keeps.foldl2 | intro _ _ _ | intro _ _ | split

theorem State.capFence_keeps {z0 s : State} (hs : Keeps z0 s) : Keeps z0 (State.capFence s) := by
  unfold State.capFence
  try dsimp only
  repeat' first
    | with_reducible assumption | with_reducible apply State.capAll_keeps

theorem State.thermCaps_keeps {z0 s : State} (hs : Keeps z0 s) : Keeps z0 (State.thermCaps s) := by
  unfold State.thermCaps
  try dsimp only
  repeat' first
    | with_reducible assumption | with_reducible apply State.capFence_keeps | with_reducible apply State.capAll_keeps
    | with_reducible apply State.setCap_keeps | with_reducible apply Keeps.ite | with_reducible apply Keeps.ite1
    | with_reducible apply Keeps.foldl | with_reducible apply Keeps.foldl1 | with_reducible apply Keeps.foldl2 | intro _ _ _
    | intro _ _ | split

theorem State.forgetClass_keeps {z0 s : State} {k : Nat} (hs : Keeps z0 s) : Keeps z0 (State.forgetClass s k) := by
  unfold State.forgetClass
  try dsimp only
  repeat' first
    | with_reducible assumption | with_reducible apply State.setPwr_keeps

theorem State.learnOne_keeps {z0 s : State} {cl op fig : Nat} (hs : Keeps z0 s) : Keeps z0 (State.learnOne s cl op fig) := by
  unfold State.learnOne
  try dsimp only
  repeat' first
    | with_reducible assumption | with_reducible apply State.setPwr_keeps

theorem State.learn_keeps {z0 s : State} {p other : Nat} {est : List Nat} (hs : Keeps z0 s) : Keeps z0 (State.learn s p other est) := by
  unfold State.learn
  try dsimp only
  repeat' first
    | with_reducible assumption | with_reducible apply State.learnOne_keeps | with_reducible apply Keeps.ite
    | with_reducible apply Keeps.ite1 | with_reducible apply Keeps.foldl | with_reducible apply Keeps.foldl1
    | with_reducible apply Keeps.foldl2 | intro _ _ _ | intro _ _ | split

theorem execPowerSample_keeps {z0 : State} {t mw : Nat} {s : State} (hs : Keeps z0 s) : OKeeps z0 (execPowerSample t mw s) := by
  unfold execPowerSample
  try dsimp only
  repeat' first
    | with_reducible assumption | with_reducible apply State.at_keeps | with_reducible apply State.inc_keeps
    | with_reducible apply State.setPwr_keeps | with_reducible apply State.mark_keeps | with_reducible apply OKeeps.next
    | with_reducible apply OKeeps.ite | with_reducible apply Keeps.ite | split

theorem State.countOver_keeps {z0 s : State} {pUw : Nat} (hs : Keeps z0 s) : Keeps z0 (State.countOver s pUw) := by
  unfold State.countOver
  try dsimp only
  repeat' first
    | with_reducible assumption | with_reducible apply State.inc_keeps | with_reducible apply State.setPwr_keeps
    | with_reducible apply State.raise_keeps | with_reducible apply State.wr_keeps | with_reducible apply Keeps.ite | split

theorem State.readTemps_keeps {z0 s : State} {temps : List Int} (hs : Keeps z0 s) : Keeps z0 (State.readTemps s temps) := by
  unfold State.readTemps
  try dsimp only
  repeat' first
    | with_reducible assumption | with_reducible apply State.wr_keeps | with_reducible apply Keeps.foldl
    | with_reducible apply Keeps.foldl1 | with_reducible apply Keeps.foldl2 | intro _ _ _ | intro _ _ | split

theorem execCapPeriod_keeps {z0 : State} {t : Nat} {est : List Nat} {other : Nat} {temps : List Int} {s : State} (hs : Keeps z0 s) :
    OKeeps z0 (execCapPeriod t est other temps s) := by
  unfold execCapPeriod
  try dsimp only
  repeat' first
    | with_reducible assumption | with_reducible apply State.readTemps_keeps | with_reducible apply State.at_keeps
    | with_reducible apply State.mark_keeps | with_reducible apply State.wr_keeps | with_reducible apply State.countOver_keeps
    | with_reducible apply State.learn_keeps | with_reducible apply State.setPwr_keeps | with_reducible apply State.setCap_keeps
    | with_reducible apply OKeeps.next | with_reducible apply OKeeps.ite | with_reducible apply Keeps.ite
    | with_reducible apply Keeps.ite1 | with_reducible apply Keeps.foldl | with_reducible apply Keeps.foldl1
    | with_reducible apply Keeps.foldl2 | intro _ _ _ | intro _ _ | split

theorem execDroopDetect_keeps {z0 : State} {t r : Nat} {below : Int} {s : State} (hs : Keeps z0 s) : OKeeps z0 (execDroopDetect t r below s) := by
  unfold execDroopDetect
  try dsimp only
  repeat' first
    | with_reducible assumption | with_reducible apply State.at_keeps | with_reducible apply State.inc_keeps
    | with_reducible apply State.setPwr_keeps | with_reducible apply OKeeps.next | with_reducible apply OKeeps.ite
    | with_reducible apply Keeps.ite | split

theorem execDroopEnd_keeps {z0 : State} {t r : Nat} {below : Int} {s : State} (hs : Keeps z0 s) : OKeeps z0 (execDroopEnd t r below s) := by
  unfold execDroopEnd
  try dsimp only
  repeat' first
    | with_reducible assumption | with_reducible apply State.at_keeps | with_reducible apply State.inc_keeps
    | with_reducible apply State.setPwr_keeps | with_reducible apply State.raise_keeps | with_reducible apply State.wr_keeps
    | with_reducible apply OKeeps.next | with_reducible apply OKeeps.ite | with_reducible apply Keeps.ite
    | with_reducible apply Keeps.ite1 | split

theorem State.setTherm_keeps {z0 s : State} {v : Nat} (hs : Keeps z0 s) : Keeps z0 (State.setTherm s v) := by
  unfold State.setTherm
  try dsimp only
  repeat' first
    | with_reducible assumption | with_reducible apply State.thermCaps_keeps | with_reducible apply State.wr_keeps

theorem execThrottleStep_keeps {z0 : State} {t : Nat} {temps : List Int} {s : State} (hs : Keeps z0 s) : OKeeps z0 (execThrottleStep t temps s) := by
  unfold execThrottleStep
  try dsimp only
  repeat' first
    | with_reducible assumption | with_reducible apply State.readTemps_keeps | with_reducible apply State.at_keeps
    | with_reducible apply State.setPwr_keeps | with_reducible apply State.inc_keeps | with_reducible apply State.setTherm_keeps
    | with_reducible apply State.raise_keeps | with_reducible apply State.wr_keeps | with_reducible apply OKeeps.next
    | with_reducible apply OKeeps.ite | with_reducible apply Keeps.ite | with_reducible apply Keeps.ite1 | split

theorem execThrottleRiseStep_keeps {z0 : State} {t : Nat} {temps : List Int} {s : State} (hs : Keeps z0 s) :
    OKeeps z0 (execThrottleRiseStep t temps s) := by
  unfold execThrottleRiseStep
  try dsimp only
  repeat' first
    | with_reducible assumption | with_reducible apply State.readTemps_keeps | with_reducible apply State.at_keeps
    | with_reducible apply State.setPwr_keeps | with_reducible apply State.setTherm_keeps | with_reducible apply OKeeps.next
    | with_reducible apply OKeeps.ite | with_reducible apply Keeps.ite | with_reducible apply Keeps.ite1 | split

theorem execHardThermal_keeps {z0 : State} {t : Nat} {temps : List Int} {s : State} (hs : Keeps z0 s) : OKeeps z0 (execHardThermal t temps s) := by
  unfold execHardThermal
  try dsimp only
  repeat' first
    | with_reducible assumption | with_reducible apply State.readTemps_keeps | with_reducible apply State.at_keeps
    | with_reducible apply State.setTherm_keeps | with_reducible apply State.setPwr_keeps | with_reducible apply State.raise_keeps
    | with_reducible apply State.inc_keeps | with_reducible apply State.wr_keeps | with_reducible apply OKeeps.next
    | with_reducible apply OKeeps.ite | with_reducible apply Keeps.ite | with_reducible apply Keeps.ite1
    | with_reducible apply Keeps.foldl | with_reducible apply Keeps.foldl1 | with_reducible apply Keeps.foldl2 | intro _ _ _
    | intro _ _ | split

theorem State.startQueue_keeps {z0 s : State} {q : Nat} (hs : Keeps z0 s) : Keeps z0 (State.startQueue s q) := by
  unfold State.startQueue
  try dsimp only
  repeat' first
    | with_reducible assumption | with_reducible apply State.wr_keeps | with_reducible apply State.setSch_keeps

theorem State.settleStart_keeps {z0 s : State} {q : Nat} (hs : Keeps z0 s) : Keeps z0 (State.settleStart s q) := by
  unfold State.settleStart
  try dsimp only
  repeat' first
    | with_reducible assumption | with_reducible apply State.wr_keeps | with_reducible apply Keeps.ite | split

theorem State.settleQueue_keeps {z0 s : State} {q : Nat} (hs : Keeps z0 s) : Keeps z0 (State.settleQueue s q) := by
  unfold State.settleQueue
  try dsimp only
  repeat' first
    | with_reducible assumption | with_reducible apply State.wr_keeps | with_reducible apply State.startQueue_keeps
    | with_reducible apply Keeps.ite | split

theorem State.qenReq_keeps {z0 s : State} {q v : Nat} (hs : Keeps z0 s) : Keeps z0 (State.qenReq s q v) := by
  unfold State.qenReq
  try dsimp only
  repeat' first
    | with_reducible assumption | with_reducible apply State.wr_keeps | with_reducible apply State.startQueue_keeps
    | with_reducible apply State.settleQueue_keeps | with_reducible apply Keeps.ite | split

theorem State.qCfgWrite_keeps {z0 s : State} {q v : Nat} (hs : Keeps z0 s) : Keeps z0 (State.qCfgWrite s q v) := by
  unfold State.qCfgWrite
  try dsimp only
  repeat' first
    | with_reducible assumption | with_reducible apply State.settleStart_keeps | with_reducible apply State.wr_keeps
    | with_reducible apply State.qenReq_keeps | with_reducible apply Keeps.ite | split

theorem State.recompute_keeps {z0 s : State} (hs : Keeps z0 s) : Keeps z0 (State.recompute s) := by
  unfold State.recompute
  try dsimp only
  repeat' first
    | with_reducible assumption | with_reducible apply State.setSch_keeps

theorem State.makeReady_keeps {z0 s : State} {q : Nat} (hs : Keeps z0 s) : Keeps z0 (State.makeReady s q) := by
  unfold State.makeReady
  try dsimp only
  repeat' first
    | with_reducible assumption | with_reducible apply State.refuseCmd_keeps | with_reducible apply State.inc_keeps
    | with_reducible apply State.wake_keeps | with_reducible apply State.modCmd_keeps | with_reducible apply Keeps.ite
    | with_reducible apply Keeps.ite1 | split

theorem State.wakeDeps_keeps {z0 s : State} {q status : Nat} (hs : Keeps z0 s) : Keeps z0 (State.wakeDeps s q status) := by
  unfold State.wakeDeps
  try dsimp only
  repeat' first
    | with_reducible assumption | with_reducible apply State.setSch_keeps | with_reducible apply State.makeReady_keeps
    | with_reducible apply Keeps.ite | with_reducible apply Keeps.ite1 | with_reducible apply Keeps.foldl
    | with_reducible apply Keeps.foldl1 | with_reducible apply Keeps.foldl2 | intro _ _ _ | intro _ _ | split

theorem State.addCmd_keeps {z0 s : State} {x : Cmd} (hs : Keeps z0 s) : Keeps z0 (State.addCmd s x) := by
  unfold State.addCmd
  try dsimp only
  repeat' first
    | with_reducible assumption | with_reducible apply State.setSch_keeps | with_reducible apply State.inc_keeps
    | with_reducible apply State.wr_keeps | with_reducible apply State.setCnt_keeps

theorem execCommandFetch_keeps {z0 : State} {t q : Nat} {s : State} (hs : Keeps z0 s) : OKeeps z0 (execCommandFetch t q s) := by
  unfold execCommandFetch
  try dsimp only
  repeat' first
    | with_reducible assumption | with_reducible apply State.at_keeps | with_reducible apply State.wr_keeps
    | with_reducible apply State.hwRead_keeps | with_reducible apply State.addCmd_keeps | with_reducible apply State.makeReady_keeps
    | with_reducible apply OKeeps.next | with_reducible apply OKeeps.ite | with_reducible apply Keeps.ite
    | with_reducible apply Keeps.ite1 | split

theorem State.verdictOf_keeps {z0 s : State} {x : Cmd} {status : Nat} (hs : Keeps z0 s) : Keeps z0 (State.verdictOf s x status).1 := by
  unfold State.verdictOf
  try dsimp only
  repeat' first
    | with_reducible assumption | with_reducible apply State.hwRead_keeps | with_reducible apply Keeps.ite
    | with_reducible apply Keeps.ite1 | split

theorem State.reportCmd_keeps {z0 s : State} {x : Cmd} {status : Nat} (hs : Keeps z0 s) : Keeps z0 (State.reportCmd s x status).1 := by
  unfold State.reportCmd
  try dsimp only
  repeat' first
    | with_reducible assumption | with_reducible apply State.verdictOf_keeps | with_reducible apply State.checkReport_keeps
    | with_reducible apply Keeps.ite | with_reducible apply Keeps.ite1 | split

theorem State.cqPut_keeps {z0 s : State} {c : Nat} {rec : List Nat} (hs : Keeps z0 s) : Keeps z0 (State.cqPut s c rec).1 := by
  unfold State.cqPut
  try dsimp only
  repeat' first
    | with_reducible assumption | with_reducible apply State.raise_keeps | with_reducible apply State.wr_keeps
    | with_reducible apply State.putAs_keeps | with_reducible apply Keeps.ite | with_reducible apply Keeps.ite1 | split

theorem State.cqFlush_keeps {z0 s : State} (hs : Keeps z0 s) : Keeps z0 (State.cqFlush s) := by
  unfold State.cqFlush
  try dsimp only
  repeat' first
    | with_reducible assumption | with_reducible apply State.cqPut_keeps | with_reducible apply State.modCmd_keeps
    | with_reducible apply Keeps.ite | with_reducible apply Keeps.ite1 | with_reducible apply Keeps.foldl
    | with_reducible apply Keeps.foldl1 | with_reducible apply Keeps.foldl2 | intro _ _ _ | intro _ _ | split

theorem State.retire_keeps {z0 : State} {x0 : Nat} {x1 : State} {x2 : Nat} (hx1 : Keeps z0 x1) : Keeps z0 (State.retire x0 x1 x2) := by
  induction x0 generalizing x1 with
  | zero => exact hx1
  | succ _ ih =>
    unfold State.retire
    try dsimp only
    repeat' first
      | with_reducible assumption | with_reducible apply ih | with_reducible apply State.chainRetire_keeps | with_reducible apply State.setSch_keeps
      | with_reducible apply State.wr_keeps | with_reducible apply Keeps.ite | with_reducible apply Keeps.ite1 | split

theorem State.retireAll_keeps {z0 s : State} (hs : Keeps z0 s) : Keeps z0 (State.retireAll s) := by
  unfold State.retireAll
  try dsimp only
  repeat' first
    | with_reducible assumption | with_reducible apply State.settleQueue_keeps | with_reducible apply State.retire_keeps
    | with_reducible apply State.settleCtxs_keeps | with_reducible apply Keeps.foldl | with_reducible apply Keeps.foldl1
    | with_reducible apply Keeps.foldl2 | intro _ _ _ | intro _ _ | split

theorem State.completeCmd_keeps {z0 s : State} {q : Nat} (hs : Keeps z0 s) : Keeps z0 (State.completeCmd s q) := by
  unfold State.completeCmd
  try dsimp only
  repeat' first
    | with_reducible assumption | with_reducible apply State.retireAll_keeps | with_reducible apply State.cqFlush_keeps
    | with_reducible apply State.reportCmd_keeps | with_reducible apply State.inc_keeps
    | with_reducible apply State.chainStatus_keeps | with_reducible apply State.modCmd_keeps
    | with_reducible apply State.wakeDeps_keeps | with_reducible apply Keeps.ite | with_reducible apply Keeps.ite1 | split

theorem State.schDram_keeps {z0 s : State} {a n : Nat} (hs : Keeps z0 s) : Keeps z0 (State.schDram s a n).1 := by
  unfold State.schDram
  try dsimp only
  repeat' first
    | with_reducible assumption | with_reducible apply State.hwRead_keeps | with_reducible apply Keeps.ite
    | with_reducible apply Keeps.ite1 | split

theorem State.loadCtx_keeps {z0 s : State} {k : Nat} (hs : Keeps z0 s) : Keeps z0 (State.loadCtx s k).1 := by
  unfold State.loadCtx
  try dsimp only
  repeat' first
    | with_reducible assumption | with_reducible apply State.schDram_keeps | with_reducible apply Keeps.ite
    | with_reducible apply Keeps.ite1 | split

theorem State.loadStatus_keeps {z0 s : State} {k v : Nat} (hs : Keeps z0 s) : Keeps z0 (State.loadStatus s k v) := by
  unfold State.loadStatus
  try dsimp only
  repeat' first
    | with_reducible assumption | with_reducible apply State.wr_keeps

theorem State.ctxLoadOp_keeps {z0 s : State} {k : Nat} (hs : Keeps z0 s) : Keeps z0 (State.ctxLoadOp s k) := by
  unfold State.ctxLoadOp
  try dsimp only
  repeat' first
    | with_reducible assumption | with_reducible apply State.forgetClass_keeps | with_reducible apply State.setCtxState_keeps
    | with_reducible apply State.loadStatus_keeps | with_reducible apply Keeps.ite | split

theorem State.ctxUnloadOp_keeps {z0 s : State} {k : Nat} (hs : Keeps z0 s) : Keeps z0 (State.ctxUnloadOp s k) := by
  unfold State.ctxUnloadOp
  try dsimp only
  repeat' first
    | with_reducible assumption | with_reducible apply State.forgetClass_keeps | with_reducible apply State.loadStatus_keeps
    | with_reducible apply State.emptyCtx_keeps | with_reducible apply State.setCtxState_keeps | with_reducible apply Keeps.ite
    | split

theorem State.ctxCmd_keeps {z0 s : State} {v : Nat} (hs : Keeps z0 s) : Keeps z0 (State.ctxCmd s v) := by
  unfold State.ctxCmd
  try dsimp only
  repeat' first
    | with_reducible assumption | with_reducible apply State.settleCtxs_keeps | with_reducible apply State.ctxLoadOp_keeps
    | with_reducible apply State.ctxUnloadOp_keeps | with_reducible apply Keeps.ite | split

theorem State.schFence_keeps {z0 s : State} (hs : Keeps z0 s) : Keeps z0 (State.schFence s) := by
  unfold State.schFence
  try dsimp only
  repeat' first
    | with_reducible assumption | with_reducible apply State.inc_keeps | with_reducible apply State.dropTile_keeps
    | with_reducible apply State.setSch_keeps | with_reducible apply State.completeCmd_keeps | with_reducible apply Keeps.ite
    | with_reducible apply Keeps.ite1 | with_reducible apply Keeps.foldl | with_reducible apply Keeps.foldl1
    | with_reducible apply Keeps.foldl2 | intro _ _ _ | intro _ _ | split

theorem State.schReset_keeps {z0 s : State} (hs : Keeps z0 s) : Keeps z0 (State.schReset s) := by
  unfold State.schReset
  try dsimp only
  repeat' first
    | with_reducible assumption | with_reducible apply State.wr64_keeps | with_reducible apply State.clearBlk_keeps
    | with_reducible apply State.setSch_keeps | (fail_if_no_progress with_reducible refine Keeps.mk' ?_ rfl rfl rfl rfl rfl rfl rfl)

theorem State.readFused_keeps {z0 s : State} {x : Cmd} (hs : Keeps z0 s) : Keeps z0 (State.readFused s x).1 := by
  unfold State.readFused
  try dsimp only
  repeat' first
    | with_reducible assumption | with_reducible apply State.hwRead_keeps | with_reducible apply Keeps.ite
    | with_reducible apply Keeps.ite1 | split

theorem State.startFused_keeps {z0 s : State} {q kind : Nat} {run : State → Fused → State} (hs : Keeps z0 s) (hrun : ∀ x y0, Keeps z0 x →
    Keeps z0 (run x y0)) :
    Keeps z0 (State.startFused s q kind run) := by
  unfold State.startFused
  try dsimp only
  repeat' first
    | with_reducible assumption | with_reducible apply State.readFused_keeps | with_reducible apply State.refuseCmd_keeps
    | with_reducible apply Keeps.ite | with_reducible apply Keeps.ite1 | apply hrun | intro _ _ _ | intro _ _ | split

theorem State.beginFused_keeps {z0 s : State} {f : Fused} {lays : List (List Nat)} {n : Nat} (hs : Keeps z0 s) :
    Keeps z0 (State.beginFused s f lays n) := by
  unfold State.beginFused
  try dsimp only
  repeat' first
    | with_reducible assumption | with_reducible apply State.settleCmd_keeps | with_reducible apply State.modCmd_keeps

theorem State.fusedCheck_keeps {z0 s : State} {f : Fused} {params tensors : Bool} {run : State} (hs : Keeps z0 s) (hrun : Keeps z0 run) :
    Keeps z0 (State.fusedCheck s f params tensors run) := by
  unfold State.fusedCheck
  try dsimp only
  repeat' first
    | with_reducible assumption | with_reducible apply State.refuseCmd_keeps | with_reducible apply Keeps.ite | split

theorem State.readAll_keeps {z0 s : State} {c : Nat} {l : List (Nat × Nat)} (hs : Keeps z0 s) : Keeps z0 (State.readAll s c l).1 := by
  unfold State.readAll
  try dsimp only
  repeat' first
    | with_reducible assumption | with_reducible apply State.hwRead_keeps | with_reducible apply Keeps.ite
    | with_reducible apply Keeps.ite1 | with_reducible apply Keeps.foldl | with_reducible apply Keeps.foldl1
    | with_reducible apply Keeps.foldl2 | intro _ _ _ | intro _ _ | split

theorem State.setKvc_keeps {z0 s : State} {x : Kvc} (hs : Keeps z0 s) : Keeps z0 (State.setKvc s x) := by
  unfold State.setKvc
  try dsimp only
  repeat' first
    | with_reducible assumption | (fail_if_no_progress with_reducible refine Keeps.mk' ?_ rfl rfl rfl rfl rfl rfl rfl)

theorem State.allocPage_keeps {z0 s : State} {k refs st : Nat} (hs : Keeps z0 s) : SKeeps z0 Prod.snd (State.allocPage s k refs st) := by
  unfold State.allocPage
  try dsimp only
  repeat' first
    | with_reducible assumption | with_reducible apply State.takeFree_keeps | with_reducible apply State.inc_keeps
    | with_reducible apply State.setPage_keeps | with_reducible apply State.setCnt_keeps | with_reducible apply Keeps.ite
    | with_reducible apply SKeeps.none | with_reducible apply SKeeps.some | with_reducible apply SKeeps.ite | split

theorem State.setEntry_keeps {z0 s : State} {q e v : Nat} (hs : Keeps z0 s) : Keeps z0 (State.setEntry s q e v) := by
  unfold State.setEntry
  try dsimp only
  repeat' first
    | with_reducible assumption | with_reducible apply State.setSeq_keeps

theorem State.copyRow_keeps {z0 s : State} {src dst t : Nat} {v : Bool} (hs : Keeps z0 s) : Keeps z0 (State.copyRow s src dst t v) := by
  unfold State.copyRow
  try dsimp only
  repeat' first
    | with_reducible assumption | with_reducible apply State.hwRead_keeps | with_reducible apply State.hwWriteParts_keeps

theorem State.startCopy_keeps {z0 s : State} {q e x : Nat} (hs : Keeps z0 s) : SKeeps z0 id (State.startCopy s q e x) := by
  unfold State.startCopy
  try dsimp only
  repeat' first
    | with_reducible assumption | with_reducible apply State.inc_keeps | with_reducible apply State.updPage_keeps
    | with_reducible apply State.setKvc_keeps | with_reducible apply State.allocPage_keeps
    | exact (State.allocPage_keeps (by with_reducible assumption)).out (_, _) (by assumption) | with_reducible apply SKeeps.none
    | with_reducible apply SKeeps.state | split

theorem State.endSegment_keeps {z0 s : State} {q i st : Nat} (hs : Keeps z0 s) : Keeps z0 (State.endSegment s q i st) := by
  unfold State.endSegment
  try dsimp only
  repeat' first
    | with_reducible assumption | with_reducible apply State.modCmd_keeps | with_reducible apply State.writeSegStatus_keeps
    | with_reducible apply Keeps.ite | with_reducible apply Keeps.ite1 | split

theorem State.exhaust_keeps {z0 s : State} {x i q : Nat} (hs : Keeps z0 s) : Keeps z0 (State.exhaust s x i q) := by
  unfold State.exhaust
  try dsimp only
  repeat' first
    | with_reducible assumption | with_reducible apply State.endSegment_keeps | with_reducible apply State.inc_keeps
    | with_reducible apply State.endSeq_keeps

theorem State.noPage_keeps {z0 s : State} {x i q : Nat} (hs : Keeps z0 s) : Keeps z0 (State.noPage s x i q) := by
  unfold State.noPage
  try dsimp only
  repeat' first
    | with_reducible assumption | with_reducible apply State.setKvc_keeps | with_reducible apply State.exhaust_keeps
    | with_reducible apply Keeps.ite | with_reducible apply Keeps.ite1 | split

theorem State.swapIn_keeps {z0 s : State} {x i q : Nat} (hs : Keeps z0 s) : Keeps z0 (State.swapIn s x i q) := by
  unfold State.swapIn
  try dsimp only
  repeat' first
    | with_reducible assumption | with_reducible apply State.noPage_keeps | with_reducible apply State.setKvc_keeps
    | with_reducible apply Keeps.ite | with_reducible apply Keeps.ite1 | with_reducible apply State.allocPage_keeps
    | exact (State.allocPage_keeps (by with_reducible assumption)).out (_, _) (by assumption) | with_reducible apply Keeps.foldl
    | with_reducible apply Keeps.foldl1 | with_reducible apply Keeps.foldl2 | intro _ _ _ | intro _ _ | split

theorem State.ownPage_keeps {z0 s : State} {x i q e : Nat} (hs : Keeps z0 s) : Keeps z0 (State.ownPage s x i q e) := by
  unfold State.ownPage
  try dsimp only
  repeat' first
    | with_reducible assumption | with_reducible apply State.setEntry_keeps | with_reducible apply State.noPage_keeps
    | with_reducible apply Keeps.ite | with_reducible apply Keeps.ite1 | with_reducible apply State.allocPage_keeps
    | exact (State.allocPage_keeps (by with_reducible assumption)).out (_, _) (by assumption)
    | with_reducible apply State.startCopy_keeps | exact (State.startCopy_keeps (by with_reducible assumption)).out _ (by assumption)
    | split

theorem State.prepSeg_keeps {z0 s : State} {x : Nat} {proj : Bool} {layer i : Nat} {b : List Nat} (hs : Keeps z0 s) :
    Keeps z0 (State.prepSeg s x proj layer i b) := by
  unfold State.prepSeg
  try dsimp only
  repeat' first
    | with_reducible assumption | with_reducible apply State.endSegment_keeps | with_reducible apply State.swapIn_keeps
    | with_reducible apply State.ownPage_keeps | with_reducible apply Keeps.ite | with_reducible apply Keeps.ite1
    | with_reducible apply Keeps.foldl | with_reducible apply Keeps.foldl1 | with_reducible apply Keeps.foldl2 | intro _ _ _
    | intro _ _ | split

theorem State.readyTiles_keeps {z0 s : State} {q : Nat} (hs : Keeps z0 s) : Keeps z0 (State.readyTiles s q) := by
  unfold State.readyTiles
  try dsimp only
  repeat' first
    | with_reducible assumption | with_reducible apply State.modCmd_keeps | with_reducible apply Keeps.ite
    | with_reducible apply Keeps.ite1 | with_reducible apply Keeps.foldl | with_reducible apply Keeps.foldl1
    | with_reducible apply Keeps.foldl2 | intro _ _ _ | intro _ _ | split

theorem State.prepare_keeps {z0 s : State} {x : Nat} (hs : Keeps z0 s) : Keeps z0 (State.prepare s x) := by
  unfold State.prepare
  try dsimp only
  repeat' first
    | with_reducible assumption | with_reducible apply State.settleCmd_keeps | with_reducible apply State.readyTiles_keeps
    | with_reducible apply State.prepSeg_keeps | with_reducible apply Keeps.ite | with_reducible apply Keeps.ite1
    | with_reducible apply Keeps.foldl | with_reducible apply Keeps.foldl1 | with_reducible apply Keeps.foldl2 | intro _ _ _
    | intro _ _ | split

theorem State.prepareAll_keeps {z0 s : State} (hs : Keeps z0 s) : Keeps z0 (State.prepareAll s) := by
  unfold State.prepareAll
  try dsimp only
  repeat' first
    | with_reducible assumption | with_reducible apply State.prepare_keeps | with_reducible apply Keeps.foldl
    | with_reducible apply Keeps.foldl1 | with_reducible apply Keeps.foldl2 | intro _ _ _ | intro _ _ | split

theorem execPageCopyDone_keeps {z0 : State} {t q e : Nat} {s : State} (hs : Keeps z0 s) : OKeeps z0 (execPageCopyDone t q e s) := by
  unfold execPageCopyDone
  try dsimp only
  repeat' first
    | with_reducible assumption | with_reducible apply State.at_keeps | with_reducible apply State.copyRow_keeps
    | with_reducible apply State.setKvc_keeps | with_reducible apply State.updPage_keeps | with_reducible apply State.setPage_keeps
    | with_reducible apply State.prepareAll_keeps | with_reducible apply State.setEntry_keeps | with_reducible apply OKeeps.next
    | with_reducible apply OKeeps.ite | with_reducible apply Keeps.ite | with_reducible apply Keeps.ite1
    | with_reducible apply Keeps.foldl | with_reducible apply Keeps.foldl1 | with_reducible apply Keeps.foldl2 | intro _ _ _
    | intro _ _ | split

theorem State.pageOut_keeps {z0 s : State} {i slot : Nat} (hs : Keeps z0 s) : Keeps z0 (State.pageOut s i slot) := by
  unfold State.pageOut
  try dsimp only
  repeat' first
    | with_reducible assumption | with_reducible apply State.hwRead_keeps
    | (fail_if_no_progress with_reducible refine Keeps.mk' ?_ rfl rfl rfl rfl rfl rfl rfl)

theorem execSwapOutDone_keeps {z0 : State} {t v : Nat} {s : State} (hs : Keeps z0 s) : OKeeps z0 (execSwapOutDone t v s) := by
  unfold execSwapOutDone
  try dsimp only
  repeat' first
    | with_reducible assumption | with_reducible apply State.at_keeps | with_reducible apply State.setKvc_keeps
    | with_reducible apply State.prepare_keeps | with_reducible apply State.updPage_keeps | with_reducible apply State.pageOut_keeps
    | with_reducible apply State.inc_keeps | with_reducible apply State.setSeq_keeps | with_reducible apply State.raise_keeps
    | with_reducible apply State.showSlots_keeps | with_reducible apply OKeeps.next | with_reducible apply OKeeps.ite
    | with_reducible apply Keeps.ite | with_reducible apply Keeps.ite1 | with_reducible apply Keeps.foldl
    | with_reducible apply Keeps.foldl1 | with_reducible apply Keeps.foldl2 | intro _ _ _ | intro _ _ | split

theorem execSwapInDone_keeps {z0 : State} {t q : Nat} {ok : Bool} {data : List Nat} {s : State} (hs : Keeps z0 s) :
    OKeeps z0 (execSwapInDone t q ok data s) := by
  unfold execSwapInDone
  try dsimp only
  repeat' first
    | with_reducible assumption | with_reducible apply State.at_keeps | with_reducible apply State.setKvc_keeps
    | with_reducible apply State.updPage_keeps | with_reducible apply State.prepareAll_keeps
    | with_reducible apply State.endSeq_keeps | with_reducible apply State.putAs_keeps | with_reducible apply State.inc_keeps
    | with_reducible apply State.setPage_keeps | with_reducible apply State.setSeq_keeps | with_reducible apply State.raise_keeps
    | with_reducible apply State.showSlots_keeps | with_reducible apply OKeeps.next | with_reducible apply OKeeps.ite
    | with_reducible apply Keeps.ite | with_reducible apply Keeps.ite1 | with_reducible apply Keeps.foldl
    | with_reducible apply Keeps.foldl1 | with_reducible apply Keeps.foldl2 | intro _ _ _ | intro _ _ | split

theorem State.kvcLinkDown_keeps {z0 s : State} (hs : Keeps z0 s) : Keeps z0 (State.kvcLinkDown s) := by
  unfold State.kvcLinkDown
  try dsimp only
  repeat' first
    | with_reducible assumption | with_reducible apply State.wr_keeps | with_reducible apply State.updPage_keeps
    | with_reducible apply State.setKvc_keeps | with_reducible apply State.prepareAll_keeps | with_reducible apply State.endSeq_keeps
    | with_reducible apply Keeps.foldl | with_reducible apply Keeps.foldl1 | with_reducible apply Keeps.foldl2 | intro _ _ _
    | intro _ _ | split

theorem State.kvcFence_keeps {z0 s : State} (hs : Keeps z0 s) : Keeps z0 (State.kvcFence s) := by
  unfold State.kvcFence
  try dsimp only
  repeat' first
    | with_reducible assumption | with_reducible apply State.dropTile_keeps | with_reducible apply State.updPage_keeps
    | with_reducible apply State.setKvc_keeps | with_reducible apply State.setSch_keeps | with_reducible apply Keeps.ite
    | with_reducible apply Keeps.ite1 | with_reducible apply Keeps.foldl | with_reducible apply Keeps.foldl1
    | with_reducible apply Keeps.foldl2 | intro _ _ _ | intro _ _ | split

theorem State.kvcReset_keeps {z0 s : State} (hs : Keeps z0 s) : Keeps z0 (State.kvcReset s) := by
  unfold State.kvcReset
  try dsimp only
  repeat' first
    | with_reducible assumption | with_reducible apply State.setKvc_keeps

theorem State.seqOp_keeps {z0 s : State} {b : List Nat} (hs : Keeps z0 s) : Keeps z0 (State.seqOp s b).1 := by
  unfold State.seqOp
  try dsimp only
  repeat' first
    | with_reducible assumption | with_reducible apply State.closeSeq_keeps | with_reducible apply State.setSeq_keeps
    | with_reducible apply State.inc_keeps | with_reducible apply State.updPage_keeps | with_reducible apply Keeps.ite
    | with_reducible apply Keeps.ite1 | with_reducible apply Keeps.foldl | with_reducible apply Keeps.foldl1
    | with_reducible apply Keeps.foldl2 | intro _ _ _ | intro _ _ | split

theorem State.startSeqCmd_keeps {z0 s : State} {x : Nat} (hs : Keeps z0 s) : Keeps z0 (State.startSeqCmd s x) := by
  unfold State.startSeqCmd
  try dsimp only
  repeat' first
    | with_reducible assumption | with_reducible apply State.startFused_keeps | with_reducible apply State.refuseCmd_keeps
    | with_reducible apply State.hwRead_keeps | with_reducible apply State.modCmd_keeps | with_reducible apply Keeps.ite
    | with_reducible apply Keeps.ite1 | intro _ _ _ | intro _ _ | split

theorem State.seqStep_keeps {z0 s : State} {x code : Nat} (hs : Keeps z0 s) : Keeps z0 (State.seqStep s x code) := by
  unfold State.seqStep
  try dsimp only
  repeat' first
    | with_reducible assumption | with_reducible apply State.startSeqCmd_keeps | with_reducible apply State.seqOp_keeps
    | with_reducible apply State.putAs_keeps | with_reducible apply State.modCmd_keeps | with_reducible apply Keeps.ite
    | with_reducible apply Keeps.ite1 | split

theorem execSeqOpen_keeps {z0 : State} {t x : Nat} {s : State} (hs : Keeps z0 s) : OKeeps z0 (execSeqOpen t x s) := by
  unfold execSeqOpen
  try dsimp only
  repeat' first
    | with_reducible assumption | with_reducible apply State.seqStep_keeps | with_reducible apply State.at_keeps
    | with_reducible apply OKeeps.next

theorem execFork_keeps {z0 : State} {t x : Nat} {s : State} (hs : Keeps z0 s) : OKeeps z0 (execFork t x s) := by
  unfold execFork
  try dsimp only
  repeat' first
    | with_reducible assumption | with_reducible apply State.seqStep_keeps | with_reducible apply State.at_keeps
    | with_reducible apply OKeeps.next

theorem execClose_keeps {z0 : State} {t x : Nat} {s : State} (hs : Keeps z0 s) : OKeeps z0 (execClose t x s) := by
  unfold execClose
  try dsimp only
  repeat' first
    | with_reducible assumption | with_reducible apply State.seqStep_keeps | with_reducible apply State.at_keeps
    | with_reducible apply OKeeps.next

end Sys2Proof.Machine
end

