-- ==== Sys2Proof/Laws/KeepsUnits.lean ====
section
/-!
SUPPORT. What is kept (Keeps) by lanes out, resets, boot, cameras, the Tannery and the artwork decoder.
-/

namespace Sys2Proof.Machine

set_option linter.unreachableTactic false
set_option linter.unusedTactic false
set_option maxRecDepth 100000
set_option linter.unusedVariables false

theorem State.ethDown_keeps {z0 s : State} {p : Nat} (hs : Keeps z0 s) : Keeps z0 (State.ethDown s p) := by
  unfold State.ethDown
  try dsimp only
  repeat' first
    | with_reducible assumption | with_reducible apply State.inc_keeps | with_reducible apply State.setEth_keeps
    | with_reducible apply State.wr_keeps | with_reducible apply Keeps.ite | split

theorem State.ethUp_keeps {z0 s : State} {p : Nat} (hs : Keeps z0 s) : Keeps z0 (State.ethUp s p) := by
  unfold State.ethUp
  try dsimp only
  repeat' first
    | with_reducible assumption | with_reducible apply State.wr_keeps | with_reducible apply Keeps.ite | split

theorem State.pcieDown_keeps {z0 s : State} (hs : Keeps z0 s) : Keeps z0 (State.pcieDown s) := by
  unfold State.pcieDown
  try dsimp only
  repeat' first
    | with_reducible assumption | with_reducible apply State.wr_keeps | with_reducible apply State.kvcLinkDown_keeps
    | with_reducible apply State.dmaHostFails_keeps | with_reducible apply State.inc_keeps | with_reducible apply Keeps.ite | split

theorem State.pcieRelink_keeps {z0 s : State} (hs : Keeps z0 s) : Keeps z0 (State.pcieRelink s) := by
  unfold State.pcieRelink
  try dsimp only
  repeat' first
    | with_reducible assumption | with_reducible apply State.pcieDown_keeps | with_reducible apply State.inc_keeps
    | with_reducible apply State.wr_keeps | with_reducible apply Keeps.ite | split

theorem State.laneLost_keeps {z0 s : State} {m : Nat} (hs : Keeps z0 s) : Keeps z0 (State.laneLost s m) := by
  unfold State.laneLost
  try dsimp only
  repeat' first
    | with_reducible assumption | with_reducible apply State.wr_keeps | with_reducible apply State.setPortState_keeps
    | with_reducible apply State.portDown_keeps | with_reducible apply State.ethDown_keeps
    | with_reducible apply State.pcieRelink_keeps | with_reducible apply Keeps.ite | with_reducible apply Keeps.ite1 | split

theorem State.laneBack_keeps {z0 s : State} {m : Nat} (hs : Keeps z0 s) : Keeps z0 (State.laneBack s m) := by
  unfold State.laneBack
  try dsimp only
  repeat' first
    | with_reducible assumption | with_reducible apply State.wr_keeps | with_reducible apply State.linkUp_keeps
    | with_reducible apply State.ethUp_keeps | with_reducible apply State.pcieRelink_keeps | with_reducible apply Keeps.ite
    | with_reducible apply Keeps.ite1 | split

theorem State.startLanes_keeps {z0 s : State} {b : Nat} (hs : Keeps z0 s) : Keeps z0 (State.startLanes s b) := by
  unfold State.startLanes
  try dsimp only
  repeat' first
    | with_reducible assumption | with_reducible apply State.showLane_keeps | with_reducible apply State.wr_keeps
    | with_reducible apply State.setFsm_keeps | with_reducible apply Keeps.ite | with_reducible apply Keeps.ite1
    | with_reducible apply Keeps.foldl | with_reducible apply Keeps.foldl1 | with_reducible apply Keeps.foldl2 | intro _ _ _
    | intro _ _ | split

theorem State.stopLanes_keeps {z0 s : State} {b : Nat} (hs : Keeps z0 s) : Keeps z0 (State.stopLanes s b) := by
  unfold State.stopLanes
  try dsimp only
  repeat' first
    | with_reducible assumption | with_reducible apply State.showLane_keeps | with_reducible apply State.laneLost_keeps
    | with_reducible apply State.untrain_keeps | with_reducible apply State.wr_keeps | with_reducible apply State.setFsm_keeps
    | with_reducible apply Keeps.ite | with_reducible apply Keeps.ite1 | with_reducible apply Keeps.foldl
    | with_reducible apply Keeps.foldl1 | with_reducible apply Keeps.foldl2 | intro _ _ _ | intro _ _ | split

theorem State.laneLeft_keeps {z0 s : State} {m : Nat} (hs : Keeps z0 s) : Keeps z0 (State.laneLeft s m) := by
  unfold State.laneLeft
  try dsimp only
  repeat' first
    | with_reducible assumption | with_reducible apply State.laneLost_keeps | with_reducible apply State.untrain_keeps
    | with_reducible apply State.wr_keeps | with_reducible apply State.setSds_keeps

theorem State.toStarting_keeps {z0 s : State} {b : Nat} (hs : Keeps z0 s) : Keeps z0 (State.toStarting s b) := by
  unfold State.toStarting
  try dsimp only
  repeat' first
    | with_reducible assumption | with_reducible apply State.startLanes_keeps | with_reducible apply State.setFsm_keeps
    | with_reducible apply State.setPstate_keeps | with_reducible apply Keeps.ite | split

theorem State.settleDom_keeps {z0 s : State} {n : Nat} (hs : Keeps z0 s) : Keeps z0 (State.settleDom s n) := by
  unfold State.settleDom
  try dsimp only
  repeat' first
    | with_reducible assumption | with_reducible apply State.setPstate_keeps | with_reducible apply Keeps.ite | split

theorem State.toOff_keeps {z0 s : State} {b : Nat} (hs : Keeps z0 s) : Keeps z0 (State.toOff s b) := by
  unfold State.toOff
  try dsimp only
  repeat' first
    | with_reducible assumption | with_reducible apply State.settleDom_keeps | with_reducible apply State.stopLanes_keeps
    | with_reducible apply State.setFsm_keeps

theorem State.passOff_keeps {z0 s : State} {b : Nat} (hs : Keeps z0 s) : Keeps z0 (State.passOff s b) := by
  unfold State.passOff
  try dsimp only
  repeat' first
    | with_reducible assumption | with_reducible apply State.settleDom_keeps | with_reducible apply State.stopLanes_keeps
    | with_reducible apply State.setFsm_keeps | with_reducible apply State.toStarting_keeps

theorem State.enableReq_keeps {z0 s : State} {b v : Nat} (hs : Keeps z0 s) : Keeps z0 (State.enableReq s b v) := by
  unfold State.enableReq
  try dsimp only
  repeat' first
    | with_reducible assumption | with_reducible apply State.wr_keeps | with_reducible apply State.toStarting_keeps
    | with_reducible apply State.setFsm_keeps | with_reducible apply Keeps.ite | split

theorem State.cleared_keeps {z0 s : State} {whole : Bool} (hs : Keeps z0 s) : Keeps z0 (State.cleared s whole) := by
  refine hs.trans ⟨fun c => ⟨Store.wf_filter _ c.1, rfl, Store.wf_filter _ c.2.2.1, Store.wf_filter _ c.2.2.2⟩, fun _ => ?_, rfl, Nat.le_refl _⟩
  intro e he
  cases he

theorem State.beginReset_keeps {z0 s : State} {src : Nat} {cause : Fld} {standing sample whole : Bool} (hs : Keeps z0 s) :
    Keeps z0 (State.beginReset s src cause standing sample whole) := by
  unfold State.beginReset
  try dsimp only
  repeat' first
    | with_reducible assumption | with_reducible apply State.wr_keeps | with_reducible apply State.cleared_keeps
    | with_reducible apply State.setSys_keeps | with_reducible apply Keeps.ite | split

theorem State.systemReset_keeps {z0 s : State} {cause : Fld} (hs : Keeps z0 s) : Keeps z0 (State.systemReset s cause) := by
  unfold State.systemReset
  try dsimp only
  repeat' first
    | with_reducible assumption | with_reducible apply State.beginReset_keeps

theorem State.endSource_keeps {z0 s : State} {src : Nat} (hs : Keeps z0 s) : Keeps z0 (State.endSource s src) := by
  unfold State.endSource
  try dsimp only
  repeat' first
    | with_reducible assumption | with_reducible apply State.setSys_keeps | with_reducible apply Keeps.ite | split

theorem State.haltReset_keeps {z0 s : State} {level : Nat} (hs : Keeps z0 s) : Keeps z0 (State.haltReset s level) := by
  unfold State.haltReset
  try dsimp only
  repeat' first
    | with_reducible assumption | with_reducible apply State.systemReset_keeps | with_reducible apply State.writeEscalation_keeps

theorem execSafeResetDelay_keeps {z0 : State} {t : Nat} {s : State} (hs : Keeps z0 s) : OKeeps z0 (execSafeResetDelay t s) := by
  unfold execSafeResetDelay
  try dsimp only
  repeat' first
    | with_reducible assumption | with_reducible apply State.at_keeps | with_reducible apply State.haltReset_keeps
    | with_reducible apply OKeeps.next | with_reducible apply OKeeps.ite | with_reducible apply Keeps.ite
    | with_reducible apply Keeps.ite1 | split

theorem execHalterEscalationReset_keeps {z0 : State} {t : Nat} {s : State} (hs : Keeps z0 s) : OKeeps z0 (execHalterEscalationReset t s) := by
  unfold execHalterEscalationReset
  try dsimp only
  repeat' first
    | with_reducible assumption | with_reducible apply State.at_keeps | with_reducible apply State.haltReset_keeps
    | with_reducible apply OKeeps.next | with_reducible apply OKeeps.ite | with_reducible apply Keeps.ite
    | with_reducible apply Keeps.ite1 | split

theorem State.criticalReset_keeps {z0 s : State} {src : Nat} (hs : Keeps z0 s) : Keeps z0 (State.criticalReset s src) := by
  unfold State.criticalReset
  try dsimp only
  repeat' first
    | with_reducible assumption | with_reducible apply State.systemReset_keeps | with_reducible apply State.wr_keeps
    | with_reducible apply Keeps.ite | split

theorem execPowerOn_keeps {z0 : State} {t : Nat} {s : State} (hs : Keeps z0 s) : OKeeps z0 (execPowerOn t s) := by
  unfold execPowerOn
  try dsimp only
  repeat' first
    | with_reducible assumption | with_reducible apply State.beginReset_keeps | with_reducible apply State.at_keeps
    | with_reducible apply OKeeps.next

theorem execBrownOut_keeps {z0 : State} {t : Nat} {s : State} (hs : Keeps z0 s) : OKeeps z0 (execBrownOut t s) := by
  unfold execBrownOut
  try dsimp only
  repeat' first
    | with_reducible assumption | with_reducible apply State.beginReset_keeps | with_reducible apply State.at_keeps
    | with_reducible apply OKeeps.next

theorem execBrownOutRelease_keeps {z0 : State} {t : Nat} {s : State} (hs : Keeps z0 s) : OKeeps z0 (execBrownOutRelease t s) := by
  unfold execBrownOutRelease
  try dsimp only
  repeat' first
    | with_reducible assumption | with_reducible apply State.endSource_keeps | with_reducible apply State.at_keeps
    | with_reducible apply OKeeps.next

theorem execRstN_keeps {z0 : State} {t : Nat} {s : State} (hs : Keeps z0 s) : OKeeps z0 (execRstN t s) := by
  unfold execRstN
  try dsimp only
  repeat' first
    | with_reducible assumption | with_reducible apply State.beginReset_keeps | with_reducible apply State.at_keeps
    | with_reducible apply OKeeps.next

theorem execRstNRelease_keeps {z0 : State} {t : Nat} {s : State} (hs : Keeps z0 s) : OKeeps z0 (execRstNRelease t s) := by
  unfold execRstNRelease
  try dsimp only
  repeat' first
    | with_reducible assumption | with_reducible apply State.endSource_keeps | with_reducible apply State.at_keeps
    | with_reducible apply OKeeps.next

theorem execRstSwreset_keeps {z0 : State} {t i v : Nat} {s : State} (hs : Keeps z0 s) : OKeeps z0 (execRstSwreset t i v s) := by
  unfold execRstSwreset
  try dsimp only
  repeat' first
    | with_reducible assumption | with_reducible apply State.at_keeps | with_reducible apply State.deny_keeps
    | with_reducible apply State.systemReset_keeps | with_reducible apply OKeeps.next | with_reducible apply OKeeps.ite
    | with_reducible apply Keeps.ite | split

theorem execCriticalStateError_keeps {z0 : State} {t src : Nat} {s : State} (hs : Keeps z0 s) : OKeeps z0 (execCriticalStateError t src s) := by
  unfold execCriticalStateError
  try dsimp only
  repeat' first
    | with_reducible assumption | with_reducible apply State.criticalReset_keeps | with_reducible apply State.at_keeps
    | with_reducible apply OKeeps.next

theorem execThermalTrip_keeps {z0 : State} {t : Nat} {s : State} (hs : Keeps z0 s) : OKeeps z0 (execThermalTrip t s) := by
  unfold execThermalTrip
  try dsimp only
  repeat' first
    | with_reducible assumption | with_reducible apply State.beginReset_keeps | with_reducible apply State.at_keeps
    | with_reducible apply OKeeps.next

theorem execThermalTripRelease_keeps {z0 : State} {t : Nat} {s : State} (hs : Keeps z0 s) : OKeeps z0 (execThermalTripRelease t s) := by
  unfold execThermalTripRelease
  try dsimp only
  repeat' first
    | with_reducible assumption | with_reducible apply State.endSource_keeps | with_reducible apply State.at_keeps
    | with_reducible apply OKeeps.next

theorem State.resetRoles_keeps {z0 s : State} (hs : Keeps z0 s) : Keeps z0 (State.resetRoles s) := by
  unfold State.resetRoles
  try dsimp only
  repeat' first
    | with_reducible assumption | with_reducible apply State.wr_keeps | with_reducible apply State.wr64_keeps
    | with_reducible apply Keeps.ite | with_reducible apply Keeps.ite1 | with_reducible apply Keeps.foldl
    | with_reducible apply Keeps.foldl1 | with_reducible apply Keeps.foldl2 | intro _ _ _ | intro _ _ | split

theorem State.resetBlocks_keeps {z0 s : State} (hs : Keeps z0 s) : Keeps z0 (State.resetBlocks s) := by
  unfold State.resetBlocks
  try dsimp only
  repeat' first
    | with_reducible assumption | with_reducible apply State.wr_keeps | with_reducible apply State.setFsm_keeps
    | with_reducible apply State.setPstate_keeps | with_reducible apply State.resetRoles_keeps | with_reducible apply Keeps.foldl
    | with_reducible apply Keeps.foldl1 | with_reducible apply Keeps.foldl2 | intro _ _ _ | intro _ _ | split

theorem State.swapAtReset_keeps {z0 s : State} (hs : Keeps z0 s) : Keeps z0 (State.swapAtReset s) := by
  unfold State.swapAtReset
  try dsimp only
  repeat' first
    | with_reducible assumption | with_reducible apply State.setSys_keeps | with_reducible apply State.wr_keeps
    | with_reducible apply Keeps.ite | split

theorem State.showSwap_keeps {z0 s : State} (hs : Keeps z0 s) : Keeps z0 (State.showSwap s) := by
  unfold State.showSwap
  try dsimp only
  repeat' first
    | with_reducible assumption | with_reducible apply State.wr_keeps

theorem execSystemResetEnd_keeps {z0 : State} {t straps : Nat} {s : State} (hs : Keeps z0 s) : OKeeps z0 (execSystemResetEnd t straps s) := by
  unfold execSystemResetEnd
  try dsimp only
  repeat' first
    | with_reducible assumption | with_reducible apply State.at_keeps | with_reducible apply State.wr_keeps
    | with_reducible apply State.setSys_keeps | with_reducible apply State.showSwap_keeps
    | with_reducible apply State.swapAtReset_keeps | with_reducible apply State.setTb_keeps
    | with_reducible apply State.resetBlocks_keeps | with_reducible apply OKeeps.next | with_reducible apply OKeeps.ite
    | with_reducible apply Keeps.ite | split

theorem State.setOptions_keeps {z0 s : State} {copy : Nat} {o : Options} (hs : Keeps z0 s) : Keeps z0 (State.setOptions s copy o) := by
  unfold State.setOptions
  try dsimp only
  repeat' first
    | with_reducible assumption | with_reducible apply State.wr_keeps | with_reducible apply Keeps.ite
    | (fail_if_no_progress with_reducible refine Keeps.mk' ?_ rfl rfl rfl rfl rfl rfl rfl) | split

theorem State.loadImage_keeps {z0 s : State} {base : Nat} {e : Nat × Nat × Nat} (hs : Keeps z0 s) : Keeps z0 (State.loadImage s base e) := by
  unfold State.loadImage
  try dsimp only
  repeat' first
    | with_reducible assumption | with_reducible apply State.write_keeps | with_reducible apply Keeps.ite | split

theorem State.setStage_keeps {z0 s : State} {stage phase : Nat} (hs : Keeps z0 s) : Keeps z0 (State.setStage s stage phase) := by
  unfold State.setStage
  try dsimp only
  repeat' first
    | with_reducible assumption | with_reducible apply State.send_keeps | with_reducible apply State.setSys_keeps
    | with_reducible apply State.wr_keeps

theorem State.netStartOver_keeps {z0 s : State} (hs : Keeps z0 s) : Keeps z0 (State.netStartOver s) := by
  unfold State.netStartOver
  try dsimp only
  repeat' first
    | with_reducible assumption | with_reducible apply State.send_keeps | with_reducible apply State.setSys_keeps

theorem State.netWait_keeps {z0 s : State} (hs : Keeps z0 s) : Keeps z0 (State.netWait s) := by
  unfold State.netWait
  try dsimp only
  repeat' first
    | with_reducible assumption | with_reducible apply State.netStartOver_keeps | with_reducible apply State.setStage_keeps

theorem State.bootCode_keeps {z0 s : State} {code : Nat} (hs : Keeps z0 s) : Keeps z0 (State.bootCode s code) := by
  unfold State.bootCode
  try dsimp only
  repeat' first
    | with_reducible assumption | with_reducible apply State.wr_keeps

theorem State.bootStop_keeps {z0 s : State} {code : Nat} (hs : Keeps z0 s) : Keeps z0 (State.bootStop s code) := by
  unfold State.bootStop
  try dsimp only
  repeat' first
    | with_reducible assumption | with_reducible apply State.setStage_keeps | with_reducible apply State.bootCode_keeps

theorem State.markBad_keeps {z0 s : State} {k : Nat} (hs : Keeps z0 s) : Keeps z0 (State.markBad s k) := by
  unfold State.markBad
  try dsimp only
  repeat' first
    | with_reducible assumption | with_reducible apply State.setSys_keeps | with_reducible apply State.wr_keeps
    | with_reducible apply Keeps.ite | split

theorem State.chooseBank_keeps {z0 s : State} {k : Nat} (hs : Keeps z0 s) : Keeps z0 (State.chooseBank s k) := by
  unfold State.chooseBank
  try dsimp only
  repeat' first
    | with_reducible assumption | with_reducible apply State.setSys_keeps | with_reducible apply State.wr_keeps
    | with_reducible apply State.setStage_keeps

theorem State.bankFail_keeps {z0 s : State} {code : Nat} (hs : Keeps z0 s) : Keeps z0 (State.bankFail s code) := by
  unfold State.bankFail
  try dsimp only
  repeat' first
    | with_reducible assumption | with_reducible apply State.markBad_keeps | with_reducible apply State.bootCode_keeps
    | with_reducible apply State.bootStop_keeps | with_reducible apply State.chooseBank_keeps | with_reducible apply Keeps.ite
    | split

theorem State.bootBank_keeps {z0 s : State} {k : Nat} (hs : Keeps z0 s) : Keeps z0 (State.bootBank s k) := by
  unfold State.bootBank
  try dsimp only
  repeat' first
    | with_reducible assumption | with_reducible apply State.chooseBank_keeps | with_reducible apply State.bankFail_keeps
    | with_reducible apply State.setSys_keeps | with_reducible apply Keeps.ite | split

theorem State.dramFail_keeps {z0 s : State} {code : Nat} (hs : Keeps z0 s) : Keeps z0 (State.dramFail s code) := by
  unfold State.dramFail
  try dsimp only
  repeat' first
    | with_reducible assumption | with_reducible apply State.bootCode_keeps | with_reducible apply State.setStage_keeps
    | with_reducible apply State.netWait_keeps | with_reducible apply Keeps.ite | split

theorem State.bootFail_keeps {z0 s : State} {code : Nat} (hs : Keeps z0 s) : Keeps z0 (State.bootFail s code) := by
  unfold State.bootFail
  try dsimp only
  repeat' first
    | with_reducible assumption | with_reducible apply State.dramFail_keeps | with_reducible apply State.bankFail_keeps
    | with_reducible apply Keeps.ite | split

theorem State.facSet_keeps {z0 s : State} {f : Fld} {n : Nat} (hs : Keeps z0 s) : Keeps z0 (State.facSet s f n) := by
  unfold State.facSet
  try dsimp only
  repeat' first
    | with_reducible assumption | with_reducible apply State.wrAct_keeps | with_reducible apply State.wr_keeps

theorem State.factoryStart_keeps {z0 s : State} (hs : Keeps z0 s) : Keeps z0 (State.factoryStart s) := by
  unfold State.factoryStart
  try dsimp only
  repeat' first
    | with_reducible assumption | with_reducible apply State.setSys_keeps | with_reducible apply State.enableReq_keeps
    | with_reducible apply State.facSet_keeps | with_reducible apply State.wr_keeps | with_reducible apply Keeps.foldl
    | with_reducible apply Keeps.foldl1 | with_reducible apply Keeps.foldl2 | intro _ _ _ | intro _ _ | split

theorem State.bootComplete_keeps {z0 s : State} (hs : Keeps z0 s) : Keeps z0 (State.bootComplete s) := by
  unfold State.bootComplete
  try dsimp only
  repeat' first
    | with_reducible assumption | with_reducible apply State.setStage_keeps | with_reducible apply State.setLnk_keeps
    | with_reducible apply State.factoryStart_keeps | with_reducible apply Keeps.ite | split

theorem State.bootFurther_keeps {z0 s : State} (hs : Keeps z0 s) : Keeps z0 (State.bootFurther s) := by
  unfold State.bootFurther
  try dsimp only
  repeat' first
    | with_reducible assumption | with_reducible apply State.setSys_keeps | with_reducible apply State.setStage_keeps
    | with_reducible apply State.bootComplete_keeps | with_reducible apply Keeps.ite | split

theorem State.startHalter_keeps {z0 s : State} (hs : Keeps z0 s) : Keeps z0 (State.startHalter s) := by
  unfold State.startHalter
  try dsimp only
  repeat' first
    | with_reducible assumption | with_reducible apply State.wr_keeps | with_reducible apply State.setHlt_keeps
    | with_reducible apply Keeps.ite | split

theorem State.releaseImage_keeps {z0 s : State} {ty : Nat} (hs : Keeps z0 s) : Keeps z0 (State.releaseImage s ty) := by
  unfold State.releaseImage
  try dsimp only
  repeat' first
    | with_reducible assumption | with_reducible apply State.setSys_keeps

theorem State.applyOptions_keeps {z0 s : State} {p : List Nat} (hs : Keeps z0 s) : Keeps z0 (State.applyOptions s p) := by
  unfold State.applyOptions
  try dsimp only
  repeat' first
    | with_reducible assumption | with_reducible apply State.setOptions_keeps | with_reducible apply State.write_keeps
    | with_reducible apply Keeps.ite | with_reducible apply Keeps.ite1 | split

theorem execImageVerified_keeps {z0 : State} {t : Nat} {s : State} (hs : Keeps z0 s) : OKeeps z0 (execImageVerified t s) := by
  unfold execImageVerified
  try dsimp only
  repeat' first
    | with_reducible assumption | with_reducible apply State.at_keeps | with_reducible apply State.bootFail_keeps
    | with_reducible apply State.setStage_keeps | with_reducible apply State.releaseImage_keeps
    | with_reducible apply State.startHalter_keeps | with_reducible apply State.loadImage_keeps
    | with_reducible apply State.bootFurther_keeps | with_reducible apply State.bootComplete_keeps
    | with_reducible apply State.applyOptions_keeps | with_reducible apply State.bootCode_keeps
    | with_reducible apply State.setSys_keeps | with_reducible apply OKeeps.next | with_reducible apply OKeeps.ite
    | with_reducible apply Keeps.ite | with_reducible apply Keeps.ite1 | split

theorem execDramInitDone_keeps {z0 : State} {t : Nat} {s : State} (hs : Keeps z0 s) : OKeeps z0 (execDramInitDone t s) := by
  unfold execDramInitDone
  try dsimp only
  repeat' first
    | with_reducible assumption | with_reducible apply State.at_keeps | with_reducible apply State.bootFurther_keeps
    | with_reducible apply State.setSys_keeps | with_reducible apply State.setFsm_keeps | with_reducible apply State.setStage_keeps
    | with_reducible apply State.netWait_keeps | with_reducible apply OKeeps.next | with_reducible apply OKeeps.ite
    | with_reducible apply Keeps.ite | split

theorem State.slicesOn_keeps {z0 s : State} (hs : Keeps z0 s) : Keeps z0 (State.slicesOn s) := by
  unfold State.slicesOn
  try dsimp only
  repeat' first
    | with_reducible assumption | with_reducible apply State.setFsm_keeps | with_reducible apply Keeps.ite
    | with_reducible apply Keeps.ite1 | with_reducible apply Keeps.foldl | with_reducible apply Keeps.foldl1
    | with_reducible apply Keeps.foldl2 | intro _ _ _ | intro _ _ | split

theorem State.chooseSource_keeps {z0 s : State} (hs : Keeps z0 s) : Keeps z0 (State.chooseSource s) := by
  unfold State.chooseSource
  try dsimp only
  repeat' first
    | with_reducible assumption | with_reducible apply State.bootBank_keeps | with_reducible apply State.setSys_keeps
    | with_reducible apply State.wr_keeps | with_reducible apply State.bootStop_keeps | with_reducible apply State.setStage_keeps
    | with_reducible apply Keeps.ite | split

theorem execBootReady_keeps {z0 : State} {t : Nat} {s : State} (hs : Keeps z0 s) : OKeeps z0 (execBootReady t s) := by
  unfold execBootReady
  try dsimp only
  repeat' first
    | with_reducible assumption | with_reducible apply State.at_keeps | with_reducible apply State.enableReq_keeps
    | with_reducible apply State.slicesOn_keeps | with_reducible apply State.bootStop_keeps
    | with_reducible apply State.setOptions_keeps | with_reducible apply State.chooseSource_keeps
    | with_reducible apply State.setSys_keeps | with_reducible apply OKeeps.next | with_reducible apply OKeeps.ite
    | with_reducible apply Keeps.ite | with_reducible apply Keeps.ite1 | split

theorem State.bootDram_keeps {z0 s : State} (hs : Keeps z0 s) : Keeps z0 (State.bootDram s) := by
  unfold State.bootDram
  try dsimp only
  repeat' first
    | with_reducible assumption | with_reducible apply State.setStage_keeps | with_reducible apply State.dramFail_keeps
    | with_reducible apply Keeps.ite | split

theorem execRstHostBoot_keeps {z0 : State} {t i v : Nat} {s : State} (hs : Keeps z0 s) : OKeeps z0 (execRstHostBoot t i v s) := by
  unfold execRstHostBoot
  try dsimp only
  repeat' first
    | with_reducible assumption | with_reducible apply State.at_keeps | with_reducible apply State.deny_keeps
    | with_reducible apply State.bootDram_keeps | with_reducible apply OKeeps.next | with_reducible apply OKeeps.ite
    | with_reducible apply Keeps.ite | split

theorem execNetBootFileReceived_keeps {z0 : State} {t addr : Nat} {name file : List Nat} {s : State} (hs : Keeps z0 s) :
    OKeeps z0 (execNetBootFileReceived t addr name file s) := by
  unfold execNetBootFileReceived
  try dsimp only
  repeat' first
    | with_reducible assumption | with_reducible apply State.at_keeps | with_reducible apply State.bootDram_keeps
    | with_reducible apply State.write_keeps | with_reducible apply State.send_keeps | with_reducible apply State.setSys_keeps
    | with_reducible apply OKeeps.next | with_reducible apply OKeeps.ite | with_reducible apply Keeps.ite | split

theorem execNetBootTimeout_keeps {z0 : State} {t : Nat} {failed : Bool} {s : State} (hs : Keeps z0 s) :
    OKeeps z0 (execNetBootTimeout t failed s) := by
  unfold execNetBootTimeout
  try dsimp only
  repeat' first
    | with_reducible assumption | with_reducible apply State.at_keeps | with_reducible apply State.netStartOver_keeps
    | with_reducible apply OKeeps.next | with_reducible apply OKeeps.ite | with_reducible apply Keeps.ite | split

theorem State.takePosition_keeps {z0 s : State} {b : List Nat} (hs : Keeps z0 s) : Keeps z0 (State.takePosition s b) := by
  unfold State.takePosition
  try dsimp only
  repeat' first
    | with_reducible assumption | with_reducible apply State.wr_keeps

theorem State.takeDist0_keeps {z0 s : State} {b : List Nat} (hs : Keeps z0 s) : Keeps z0 (State.takeDist0 s b) := by
  unfold State.takeDist0
  try dsimp only
  repeat' first
    | with_reducible assumption | with_reducible apply State.setSys_keeps | with_reducible apply State.facSet_keeps
    | with_reducible apply Keeps.ite | split

theorem State.takeCalib_keeps {z0 s : State} {b : List Nat} {n : Nat} (hs : Keeps z0 s) : Keeps z0 (State.takeCalib s b n) := by
  unfold State.takeCalib
  try dsimp only
  repeat' first
    | with_reducible assumption | with_reducible apply State.setCam_keeps | with_reducible apply State.wrAct_keeps
    | with_reducible apply State.wr_keeps | with_reducible apply Keeps.ite | with_reducible apply Keeps.ite1
    | with_reducible apply Keeps.foldl | with_reducible apply Keeps.foldl1 | with_reducible apply Keeps.foldl2 | intro _ _ _
    | intro _ _ | split

theorem State.takeRecord_keeps {z0 s : State} {b : List Nat} (hs : Keeps z0 s) : Keeps z0 (State.takeRecord s b) := by
  unfold State.takeRecord
  try dsimp only
  repeat' first
    | with_reducible assumption | with_reducible apply State.takeDist0_keeps | with_reducible apply State.takePosition_keeps
    | with_reducible apply State.setSys_keeps | with_reducible apply State.takeCalib_keeps | with_reducible apply Keeps.ite
    | with_reducible apply Keeps.ite1 | with_reducible apply Keeps.foldl | with_reducible apply Keeps.foldl1
    | with_reducible apply Keeps.foldl2 | intro _ _ _ | intro _ _ | split

theorem execIdMemoryReadDone_keeps {z0 : State} {t : Nat} {copy0 copy1 : List Nat} {s : State} (hs : Keeps z0 s) :
    OKeeps z0 (execIdMemoryReadDone t copy0 copy1 s) := by
  unfold execIdMemoryReadDone
  try dsimp only
  repeat' first
    | with_reducible assumption | with_reducible apply State.at_keeps | with_reducible apply State.wr_keeps
    | with_reducible apply State.setSys_keeps | with_reducible apply State.takeRecord_keeps | with_reducible apply OKeeps.next
    | with_reducible apply OKeeps.ite | with_reducible apply Keeps.ite | with_reducible apply Keeps.ite1 | split

theorem execIdReadRetry_keeps {z0 : State} {t : Nat} {s : State} (hs : Keeps z0 s) : OKeeps z0 (execIdReadRetry t s) := by
  unfold execIdReadRetry
  try dsimp only
  repeat' first
    | with_reducible assumption | with_reducible apply State.at_keeps | with_reducible apply State.mark_keeps
    | with_reducible apply State.setSys_keeps | with_reducible apply OKeeps.next | with_reducible apply OKeeps.ite
    | with_reducible apply Keeps.ite | split

theorem State.idStart_keeps {z0 s : State} (hs : Keeps z0 s) : Keeps z0 (State.idStart s) := by
  unfold State.idStart
  try dsimp only
  repeat' first
    | with_reducible assumption | with_reducible apply State.send_keeps | with_reducible apply State.setSys_keeps
    | with_reducible apply Keeps.ite | split

theorem State.idEvent_keeps {z0 s : State} {ps : List (Nat × List Nat)} (hs : Keeps z0 s) : Keeps z0 (State.idEvent s ps) := by
  unfold State.idEvent
  try dsimp only
  repeat' first
    | with_reducible assumption | with_reducible apply State.idStart_keeps | with_reducible apply State.setSys_keeps

theorem execIdRecordWriteDone_keeps {z0 : State} {t : Nat} {s : State} (hs : Keeps z0 s) : OKeeps z0 (execIdRecordWriteDone t s) := by
  unfold execIdRecordWriteDone
  try dsimp only
  repeat' first
    | with_reducible assumption | with_reducible apply State.at_keeps | with_reducible apply State.idStart_keeps
    | with_reducible apply State.wr_keeps | with_reducible apply State.setSys_keeps | with_reducible apply OKeeps.next | split

theorem State.setSwap_keeps {z0 s : State} {st : Nat} {act : Option Nat} (hs : Keeps z0 s) : Keeps z0 (State.setSwap s st act) := by
  unfold State.setSwap
  try dsimp only
  repeat' first
    | with_reducible assumption | with_reducible apply State.showSwap_keeps | with_reducible apply State.setSys_keeps

theorem State.swapRefuse_keeps {z0 s : State} (hs : Keeps z0 s) : Keeps z0 (State.swapRefuse s) := by
  unfold State.swapRefuse
  try dsimp only
  repeat' first
    | with_reducible assumption | with_reducible apply State.wr_keeps

theorem State.swapCancel_keeps {z0 s : State} (hs : Keeps z0 s) : Keeps z0 (State.swapCancel s) := by
  unfold State.swapCancel
  try dsimp only
  repeat' first
    | with_reducible assumption | with_reducible apply State.setSwap_keeps | with_reducible apply State.swapRefuse_keeps
    | with_reducible apply Keeps.ite | split

theorem State.swapTrial_keeps {z0 s : State} (hs : Keeps z0 s) : Keeps z0 (State.swapTrial s) := by
  unfold State.swapTrial
  try dsimp only
  repeat' first
    | with_reducible assumption | with_reducible apply State.setSys_keeps | with_reducible apply State.swapRefuse_keeps
    | with_reducible apply Keeps.ite | split

theorem State.swapConfirm_keeps {z0 s : State} (hs : Keeps z0 s) : Keeps z0 (State.swapConfirm s) := by
  unfold State.swapConfirm
  try dsimp only
  repeat' first
    | with_reducible assumption | with_reducible apply State.setSwap_keeps | with_reducible apply State.swapRefuse_keeps
    | with_reducible apply Keeps.ite | split

theorem State.swapCtrl_keeps {z0 s : State} {i v : Nat} (hs : Keeps z0 s) : Keeps z0 (State.swapCtrl s i v) := by
  unfold State.swapCtrl
  try dsimp only
  repeat' first
    | with_reducible assumption | with_reducible apply State.deny_keeps | with_reducible apply State.wr_keeps
    | with_reducible apply State.swapCancel_keeps | with_reducible apply State.swapTrial_keeps
    | with_reducible apply State.swapConfirm_keeps | with_reducible apply Keeps.ite | split

theorem execTrial_keeps {z0 : State} {t i v : Nat} {s : State} (hs : Keeps z0 s) : OKeeps z0 (execTrial t i v s) := by
  unfold execTrial
  try dsimp only
  repeat' first
    | with_reducible assumption | with_reducible apply State.swapCtrl_keeps | with_reducible apply State.at_keeps
    | with_reducible apply OKeeps.next

theorem execCancel_keeps {z0 : State} {t i v : Nat} {s : State} (hs : Keeps z0 s) : OKeeps z0 (execCancel t i v s) := by
  unfold execCancel
  try dsimp only
  repeat' first
    | with_reducible assumption | with_reducible apply State.swapCtrl_keeps | with_reducible apply State.at_keeps
    | with_reducible apply OKeeps.next

theorem execConfirm_keeps {z0 : State} {t i v : Nat} {s : State} (hs : Keeps z0 s) : OKeeps z0 (execConfirm t i v s) := by
  unfold execConfirm
  try dsimp only
  repeat' first
    | with_reducible assumption | with_reducible apply State.swapCtrl_keeps | with_reducible apply State.at_keeps
    | with_reducible apply OKeeps.next

theorem execSwapRefusedClear_keeps {z0 : State} {t i v : Nat} {s : State} (hs : Keeps z0 s) : OKeeps z0 (execSwapRefusedClear t i v s) := by
  unfold execSwapRefusedClear
  try dsimp only
  repeat' first
    | with_reducible assumption | with_reducible apply State.swapCtrl_keeps | with_reducible apply State.at_keeps
    | with_reducible apply OKeeps.next

theorem execTrialVerifyDone_keeps {z0 : State} {t : Nat} {s : State} (hs : Keeps z0 s) : OKeeps z0 (execTrialVerifyDone t s) := by
  unfold execTrialVerifyDone
  try dsimp only
  repeat' first
    | with_reducible assumption | with_reducible apply State.at_keeps | with_reducible apply State.setSys_keeps
    | with_reducible apply State.setSwap_keeps | with_reducible apply State.markBad_keeps | with_reducible apply OKeeps.next
    | with_reducible apply OKeeps.ite | with_reducible apply Keeps.ite | split

theorem execFlashProgram_keeps {z0 : State} {t i off : Nat} {data : List Nat} {s : State} (hs : Keeps z0 s) :
    OKeeps z0 (execFlashProgram t i off data s) := by
  unfold execFlashProgram
  try dsimp only
  repeat' first
    | with_reducible assumption | with_reducible apply State.at_keeps | with_reducible apply State.answer_keeps
    | with_reducible apply State.deny_keeps | with_reducible apply State.write_keeps | with_reducible apply State.setSwap_keeps
    | with_reducible apply OKeeps.next | with_reducible apply OKeeps.ite | with_reducible apply Keeps.ite | split

theorem State.discStep_keeps {z0 s : State} {n step : Nat} (hs : Keeps z0 s) : Keeps z0 (State.discStep s n step) := by
  unfold State.discStep
  try dsimp only
  repeat' first
    | with_reducible assumption | with_reducible apply State.setCam_keeps | with_reducible apply Keeps.ite | split

theorem State.askCamera_keeps {z0 s : State} {p : Nat} (hs : Keeps z0 s) : Keeps z0 (State.askCamera s p) := by
  unfold State.askCamera
  try dsimp only
  repeat' first
    | with_reducible assumption | with_reducible apply State.send_keeps | with_reducible apply Keeps.foldl
    | with_reducible apply Keeps.foldl1 | with_reducible apply Keeps.foldl2 | intro _ _ _ | intro _ _ | split

theorem execConnectionTest_keeps {z0 : State} {t p : Nat} {detect : Bool} {answered : Nat} {s : State} (hs : Keeps z0 s) :
    OKeeps z0 (execConnectionTest t p detect answered s) := by
  unfold execConnectionTest
  try dsimp only
  repeat' first
    | with_reducible assumption | with_reducible apply State.at_keeps | with_reducible apply State.setCam_keeps
    | with_reducible apply State.askCamera_keeps | with_reducible apply OKeeps.next | with_reducible apply OKeeps.ite
    | with_reducible apply Keeps.ite | with_reducible apply Keeps.ite1 | with_reducible apply Keeps.foldl
    | with_reducible apply Keeps.foldl1 | with_reducible apply Keeps.foldl2 | intro _ _ _ | intro _ _ | split

theorem State.chooseLink_keeps {z0 s : State} {p conns maxRate minNs fmt : Nat} {ident : List Nat} (hs : Keeps z0 s) :
    Keeps z0 (State.chooseLink s p conns maxRate minNs fmt ident) := by
  unfold State.chooseLink
  try dsimp only
  repeat' first
    | with_reducible assumption | with_reducible apply State.discStep_keeps | with_reducible apply State.send_keeps
    | with_reducible apply State.setCam_keeps | with_reducible apply Keeps.ite | split

theorem execControlAcknowledgement_keeps {z0 : State} {t p : Nat} {ident : List Nat} {conns maxRate minNs fmt : Nat} {s : State} (hs : Keeps z0 s) :
    OKeeps z0 (execControlAcknowledgement t p ident conns maxRate minNs fmt s) := by
  unfold execControlAcknowledgement
  try dsimp only
  repeat' first
    | with_reducible assumption | with_reducible apply State.at_keeps | with_reducible apply State.chooseLink_keeps
    | with_reducible apply OKeeps.next | with_reducible apply OKeeps.ite | with_reducible apply Keeps.ite | split

theorem execControlAckTimeout_keeps {z0 : State} {t p : Nat} {s : State} (hs : Keeps z0 s) : OKeeps z0 (execControlAckTimeout t p s) := by
  unfold execControlAckTimeout
  try dsimp only
  repeat' first
    | with_reducible assumption | with_reducible apply State.at_keeps | with_reducible apply State.discStep_keeps
    | with_reducible apply OKeeps.next | with_reducible apply OKeeps.ite | with_reducible apply Keeps.ite | split

theorem State.linkReturn_keeps {z0 s : State} {p : Nat} (hs : Keeps z0 s) : Keeps z0 (State.linkReturn s p) := by
  unfold State.linkReturn
  try dsimp only
  repeat' first
    | with_reducible assumption | with_reducible apply State.setCam_keeps | with_reducible apply State.raise_keeps
    | with_reducible apply State.wr_keeps | with_reducible apply Keeps.ite | split

theorem execLinkTestDone_keeps {z0 : State} {t p : Nat} {ok : Bool} {s : State} (hs : Keeps z0 s) : OKeeps z0 (execLinkTestDone t p ok s) := by
  unfold execLinkTestDone
  try dsimp only
  repeat' first
    | with_reducible assumption | with_reducible apply State.at_keeps | with_reducible apply State.wr_keeps
    | with_reducible apply State.train_keeps | with_reducible apply State.linkReturn_keeps | with_reducible apply State.setCam_keeps
    | with_reducible apply State.setSys_keeps | with_reducible apply State.discStep_keeps | with_reducible apply State.send_keeps
    | with_reducible apply OKeeps.next | with_reducible apply OKeeps.ite | with_reducible apply Keeps.ite
    | with_reducible apply Keeps.ite1 | with_reducible apply Keeps.foldl | with_reducible apply Keeps.foldl1
    | with_reducible apply Keeps.foldl2 | intro _ _ _ | intro _ _ | split

theorem State.dropLink_keeps {z0 s : State} {p : Nat} {event : Bool} (hs : Keeps z0 s) : Keeps z0 (State.dropLink s p event) := by
  unfold State.dropLink
  try dsimp only
  repeat' first
    | with_reducible assumption | with_reducible apply State.wr_keeps | with_reducible apply State.untrain_keeps
    | with_reducible apply State.setCam_keeps | with_reducible apply State.raise_keeps | with_reducible apply State.inc_keeps
    | with_reducible apply State.mapLines_keeps | with_reducible apply Keeps.ite | with_reducible apply Keeps.ite1
    | with_reducible apply Keeps.foldl | with_reducible apply Keeps.foldl1 | with_reducible apply Keeps.foldl2 | intro _ _ _
    | intro _ _ | split

theorem execCamLinkLoss_keeps {z0 : State} {t p : Nat} {s : State} (hs : Keeps z0 s) : OKeeps z0 (execCamLinkLoss t p s) := by
  unfold execCamLinkLoss
  try dsimp only
  repeat' first
    | with_reducible assumption | with_reducible apply State.at_keeps | with_reducible apply State.dropLink_keeps
    | with_reducible apply OKeeps.next | with_reducible apply OKeeps.ite | with_reducible apply Keeps.ite | split

theorem execCamHeartbeatTimeout_keeps {z0 : State} {t p : Nat} {s : State} (hs : Keeps z0 s) : OKeeps z0 (execCamHeartbeatTimeout t p s) := by
  unfold execCamHeartbeatTimeout
  try dsimp only
  repeat' first
    | with_reducible assumption | with_reducible apply State.at_keeps | with_reducible apply State.dropLink_keeps
    | with_reducible apply OKeeps.next | with_reducible apply OKeeps.ite | with_reducible apply Keeps.ite | split

theorem execCamHeartbeat_keeps {z0 : State} {t p : Nat} {s : State} (hs : Keeps z0 s) : OKeeps z0 (execCamHeartbeat t p s) := by
  unfold execCamHeartbeat
  try dsimp only
  repeat' first
    | with_reducible assumption | with_reducible apply State.at_keeps | with_reducible apply State.setCam_keeps
    | with_reducible apply OKeeps.next | with_reducible apply OKeeps.ite | with_reducible apply Keeps.ite | split

theorem execCameraDiscoveryRetry_keeps {z0 : State} {t : Nat} {s : State} (hs : Keeps z0 s) : OKeeps z0 (execCameraDiscoveryRetry t s) := by
  unfold execCameraDiscoveryRetry
  try dsimp only
  repeat' first
    | with_reducible assumption | with_reducible apply State.at_keeps | with_reducible apply State.discStep_keeps
    | with_reducible apply OKeeps.next | with_reducible apply OKeeps.ite | with_reducible apply Keeps.ite | split

theorem execPocxpOvercurrent_keeps {z0 : State} {t p : Nat} {s : State} (hs : Keeps z0 s) : OKeeps z0 (execPocxpOvercurrent t p s) := by
  unfold execPocxpOvercurrent
  try dsimp only
  repeat' first
    | with_reducible assumption | with_reducible apply State.at_keeps | with_reducible apply State.setCam_keeps
    | with_reducible apply OKeeps.next

theorem execVcxpChange_keeps {z0 : State} {t : Nat} {ok : Bool} {s : State} (hs : Keeps z0 s) : OKeeps z0 (execVcxpChange t ok s) := by
  unfold execVcxpChange
  try dsimp only
  repeat' first
    | with_reducible assumption | with_reducible apply State.at_keeps | with_reducible apply State.setSys_keeps
    | with_reducible apply State.setCam_keeps | with_reducible apply OKeeps.next | with_reducible apply OKeeps.ite
    | with_reducible apply Keeps.ite | with_reducible apply Keeps.ite1 | with_reducible apply Keeps.foldl
    | with_reducible apply Keeps.foldl1 | with_reducible apply Keeps.foldl2 | intro _ _ _ | intro _ _ | split

theorem State.resumeAt_keeps {z0 s : State} {n : Nat} {pos : Int} (hs : Keeps z0 s) : Keeps z0 (State.resumeAt s n pos) := by
  unfold State.resumeAt
  try dsimp only
  repeat' first
    | with_reducible assumption | with_reducible apply State.setCam_keeps | with_reducible apply Keeps.ite
    | with_reducible apply Keeps.ite1 | split

theorem State.sendTrigger_keeps {z0 s : State} {n : Nat} {k : Int} (hs : Keeps z0 s) : Keeps z0 (State.sendTrigger s n k) := by
  unfold State.sendTrigger
  try dsimp only
  repeat' first
    | with_reducible assumption | with_reducible apply State.setCam_keeps | with_reducible apply State.takeFree_keeps
    | with_reducible apply State.send_keeps | with_reducible apply State.camStrobes_keeps | with_reducible apply Keeps.ite | split

theorem State.camTrigger_keeps {z0 s : State} {n : Nat} {k pos : Int} (hs : Keeps z0 s) : Keeps z0 (State.camTrigger s n k pos) := by
  unfold State.camTrigger
  try dsimp only
  repeat' first
    | with_reducible assumption | with_reducible apply State.wr_keeps | with_reducible apply State.resumeAt_keeps
    | with_reducible apply State.addLines_keeps | with_reducible apply State.inc_keeps | with_reducible apply State.sendTrigger_keeps
    | with_reducible apply Keeps.ite | with_reducible apply Keeps.ite1 | split

theorem execPositionTrigger_keeps {z0 : State} {t p : Nat} {s : State} (hs : Keeps z0 s) : OKeeps z0 (execPositionTrigger t p s) := by
  unfold execPositionTrigger
  try dsimp only
  repeat' first
    | with_reducible assumption | with_reducible apply State.at_keeps | with_reducible apply State.camTrigger_keeps
    | with_reducible apply State.setCam_keeps | with_reducible apply OKeeps.next | with_reducible apply OKeeps.ite
    | with_reducible apply Keeps.ite | with_reducible apply Keeps.ite1 | split

theorem execTimeTrigger_keeps {z0 : State} {t p : Nat} {s : State} (hs : Keeps z0 s) : OKeeps z0 (execTimeTrigger t p s) := by
  unfold execTimeTrigger
  try dsimp only
  repeat' first
    | with_reducible assumption | with_reducible apply State.at_keeps | with_reducible apply State.setCam_keeps
    | with_reducible apply State.addLines_keeps | with_reducible apply State.camTrigger_keeps | with_reducible apply OKeeps.next
    | with_reducible apply OKeeps.ite | with_reducible apply Keeps.ite | split

theorem execDiTrigger_keeps {z0 : State} {t p : Nat} {s : State} (hs : Keeps z0 s) : OKeeps z0 (execDiTrigger t p s) := by
  unfold execDiTrigger
  try dsimp only
  repeat' first
    | with_reducible assumption | with_reducible apply State.at_keeps | with_reducible apply State.camTrigger_keeps
    | with_reducible apply State.setCam_keeps | with_reducible apply OKeeps.next | with_reducible apply OKeeps.ite
    | with_reducible apply Keeps.ite | split

theorem State.camRetrig_keeps {z0 s : State} {n : Nat} {hw : Int} (hs : Keeps z0 s) : Keeps z0 (State.camRetrig s n hw) := by
  unfold State.camRetrig
  try dsimp only
  repeat' first
    | with_reducible assumption | with_reducible apply State.setCam_keeps

theorem State.camOn_keeps {z0 s : State} {n : Nat} (hs : Keeps z0 s) : Keeps z0 (State.camOn s n) := by
  unfold State.camOn
  try dsimp only
  repeat' first
    | with_reducible assumption | with_reducible apply State.camRetrig_keeps | with_reducible apply State.setCam_keeps
    | with_reducible apply Keeps.ite | split

theorem State.camOff_keeps {z0 s : State} {n : Nat} (hs : Keeps z0 s) : Keeps z0 (State.camOff s n) := by
  unfold State.camOff
  try dsimp only
  repeat' first
    | with_reducible assumption | with_reducible apply State.dropLink_keeps | with_reducible apply State.mapLines_keeps
    | with_reducible apply State.setCam_keeps | with_reducible apply State.wr_keeps | with_reducible apply Keeps.ite | split

theorem State.lateLines_keeps {z0 s : State} {n ago : Nat} (hs : Keeps z0 s) : Keeps z0 (State.lateLines s n ago) := by
  unfold State.lateLines
  try dsimp only
  repeat' first
    | with_reducible assumption | with_reducible apply State.mapLines_keeps

theorem State.onHead_keeps {z0 s : State} {n : Nat} {f : CamLine → CamLine} (hs : Keeps z0 s) : Keeps z0 (State.onHead s n f) := by
  unfold State.onHead
  try dsimp only
  repeat' first
    | with_reducible assumption | with_reducible apply State.setCam_keeps | split

theorem execStreamDataPacket_keeps {z0 : State} {t p lane idx : Nat} {crcOk : Bool} {data : List Nat} {s : State} (hs : Keeps z0 s) :
    OKeeps z0 (execStreamDataPacket t p lane idx crcOk data s) := by
  unfold execStreamDataPacket
  try dsimp only
  repeat' first
    | with_reducible assumption | with_reducible apply State.at_keeps | with_reducible apply State.takeInj_keeps
    | with_reducible apply State.lateLines_keeps | with_reducible apply State.inc_keeps | with_reducible apply State.onHead_keeps
    | with_reducible apply OKeeps.next | with_reducible apply OKeeps.ite | with_reducible apply Keeps.ite
    | with_reducible apply Keeps.ite1 | split

theorem execOtherPacket_keeps {z0 : State} {t p : Nat} {s : State} (hs : Keeps z0 s) : OKeeps z0 (execOtherPacket t p s) := by
  unfold execOtherPacket
  try dsimp only
  repeat' first
    | with_reducible assumption | with_reducible apply State.at_keeps | with_reducible apply State.onHead_keeps
    | with_reducible apply OKeeps.next | with_reducible apply OKeeps.ite | with_reducible apply Keeps.ite | split

theorem execEventPacket_keeps {z0 : State} {t p : Nat} {payload : List Nat} {s : State} (hs : Keeps z0 s) :
    OKeeps z0 (execEventPacket t p payload s) := by
  unfold execEventPacket
  try dsimp only
  repeat' first
    | with_reducible assumption | with_reducible apply State.at_keeps | with_reducible apply State.raiseRaw_keeps
    | with_reducible apply OKeeps.next | with_reducible apply OKeeps.ite | with_reducible apply Keeps.ite | split

theorem execLineLate_keeps {z0 : State} {t p : Nat} {s : State} (hs : Keeps z0 s) : OKeeps z0 (execLineLate t p s) := by
  unfold execLineLate
  try dsimp only
  repeat' first
    | with_reducible assumption | with_reducible apply State.at_keeps | with_reducible apply State.mapLines_keeps
    | with_reducible apply OKeeps.next | with_reducible apply OKeeps.ite | with_reducible apply Keeps.ite | split

theorem State.endLine_keeps {z0 s : State} {n : Nat} (hs : Keeps z0 s) : Keeps z0 (State.endLine s n) := by
  unfold State.endLine
  try dsimp only
  repeat' first
    | with_reducible assumption | with_reducible apply State.lineDone_keeps | with_reducible apply State.settleLines_keeps

theorem execLineEnd_keeps {z0 : State} {t p : Nat} {s : State} (hs : Keeps z0 s) : OKeeps z0 (execLineEnd t p s) := by
  unfold execLineEnd
  try dsimp only
  repeat' first
    | with_reducible assumption | with_reducible apply State.at_keeps | with_reducible apply State.endLine_keeps
    | with_reducible apply OKeeps.next | with_reducible apply OKeeps.ite | with_reducible apply Keeps.ite
    | with_reducible apply Keeps.ite1 | split

theorem execStopWaitEnd_keeps {z0 : State} {t p : Nat} {s : State} (hs : Keeps z0 s) : OKeeps z0 (execStopWaitEnd t p s) := by
  unfold execStopWaitEnd
  try dsimp only
  repeat' first
    | with_reducible assumption | with_reducible apply State.at_keeps | with_reducible apply State.camOff_keeps
    | with_reducible apply State.passOff_keeps | with_reducible apply State.toOff_keeps | with_reducible apply OKeeps.next
    | with_reducible apply OKeeps.ite | with_reducible apply Keeps.ite | with_reducible apply Keeps.ite1 | split

theorem execPcamLineEnd_keeps {z0 : State} {t idx ago : Nat} {edges : List Nat} {s : State} (hs : Keeps z0 s) :
    OKeeps z0 (execPcamLineEnd t idx ago edges s) := by
  unfold execPcamLineEnd
  try dsimp only
  repeat' first
    | with_reducible assumption | with_reducible apply State.at_keeps | with_reducible apply State.lateLines_keeps
    | with_reducible apply State.endLine_keeps | with_reducible apply State.onHead_keeps | with_reducible apply OKeeps.next
    | with_reducible apply OKeeps.ite | with_reducible apply Keeps.ite | with_reducible apply Keeps.ite1 | split

theorem execCc0PulseEnd_keeps {z0 : State} {t : Nat} {s : State} (hs : Keeps z0 s) : OKeeps z0 (execCc0PulseEnd t s) := by
  unfold execCc0PulseEnd
  try dsimp only
  repeat' first
    | with_reducible assumption | with_reducible apply State.at_keeps | with_reducible apply State.setCam_keeps
    | with_reducible apply OKeeps.next | with_reducible apply OKeeps.ite | with_reducible apply Keeps.ite
    | with_reducible apply Keeps.ite1 | split

theorem State.serFlags_keeps {z0 s : State} (hs : Keeps z0 s) : Keeps z0 (State.serFlags s) := by
  unfold State.serFlags
  try dsimp only
  repeat' first
    | with_reducible assumption | with_reducible apply State.wr_keeps | with_reducible apply Keeps.ite | split

theorem execPcamSerdataWrite_keeps {z0 : State} {t i v : Nat} {s : State} (hs : Keeps z0 s) : OKeeps z0 (execPcamSerdataWrite t i v s) := by
  unfold execPcamSerdataWrite
  try dsimp only
  repeat' first
    | with_reducible assumption | with_reducible apply State.at_keeps | with_reducible apply State.deny_keeps
    | with_reducible apply State.serFlags_keeps | with_reducible apply State.setCam_keeps | with_reducible apply OKeeps.next
    | with_reducible apply OKeeps.ite | with_reducible apply Keeps.ite | split

theorem execPcamSerdataRead_keeps {z0 : State} {t i : Nat} {s : State} (hs : Keeps z0 s) : OKeeps z0 (execPcamSerdataRead t i s) := by
  unfold execPcamSerdataRead
  try dsimp only
  repeat' first
    | with_reducible assumption | with_reducible apply State.at_keeps | with_reducible apply State.deny_keeps
    | with_reducible apply State.answer_keeps | with_reducible apply State.serFlags_keeps | with_reducible apply State.setCam_keeps
    | with_reducible apply OKeeps.next | with_reducible apply OKeeps.ite | with_reducible apply Keeps.ite | split

theorem execSerialByteReceived_keeps {z0 : State} {t b : Nat} {s : State} (hs : Keeps z0 s) : OKeeps z0 (execSerialByteReceived t b s) := by
  unfold execSerialByteReceived
  try dsimp only
  repeat' first
    | with_reducible assumption | with_reducible apply State.at_keeps | with_reducible apply State.serFlags_keeps
    | with_reducible apply State.setCam_keeps | with_reducible apply OKeeps.next | with_reducible apply OKeeps.ite
    | with_reducible apply Keeps.ite | split

theorem execSerialByteSent_keeps {z0 : State} {t : Nat} {s : State} (hs : Keeps z0 s) : OKeeps z0 (execSerialByteSent t s) := by
  unfold execSerialByteSent
  try dsimp only
  repeat' first
    | with_reducible assumption | with_reducible apply State.at_keeps | with_reducible apply State.serFlags_keeps
    | with_reducible apply State.send_keeps | with_reducible apply State.setCam_keeps | with_reducible apply OKeeps.next | split

theorem State.camEpoch_keeps {z0 s : State} {start : Bool} {n : Nat} {here : Int} (hs : Keeps z0 s) : Keeps z0 (State.camEpoch s start n here) := by
  unfold State.camEpoch
  try dsimp only
  repeat' first
    | with_reducible assumption | with_reducible apply State.wr_keeps | with_reducible apply State.setCam_keeps
    | with_reducible apply State.camRetrig_keeps | with_reducible apply Keeps.ite | split

theorem State.setTan_keeps {z0 s : State} {x : Tan} (hs : Keeps z0 s) : Keeps z0 (State.setTan s x) := by
  unfold State.setTan
  try dsimp only
  repeat' first
    | with_reducible assumption | (fail_if_no_progress with_reducible refine Keeps.mk' ?_ rfl rfl rfl rfl rfl rfl rfl)

theorem State.setTanP_keeps {z0 s : State} {n : Nat} {x : TanPort} (hs : Keeps z0 s) : Keeps z0 (State.setTanP s n x) := by
  unfold State.setTanP
  try dsimp only
  repeat' first
    | with_reducible assumption | with_reducible apply State.setTan_keeps

theorem State.onPart_keeps {z0 s : State} {n part : Nat} {f : TanPart → TanPart} (hs : Keeps z0 s) : Keeps z0 (State.onPart s n part f) := by
  unfold State.onPart
  try dsimp only
  repeat' first
    | with_reducible assumption | with_reducible apply State.setTanP_keeps | with_reducible apply Keeps.ite | split

theorem State.prepCheck_keeps {z0 s : State} {n part : Nat} (hs : Keeps z0 s) : Keeps z0 (State.prepCheck s n part) := by
  unfold State.prepCheck
  try dsimp only
  repeat' first
    | with_reducible assumption | with_reducible apply State.inc_keeps | with_reducible apply State.onPart_keeps
    | with_reducible apply State.checkReport_keeps | with_reducible apply Keeps.ite | with_reducible apply Keeps.ite1 | split

theorem State.tanRestart_keeps {z0 s : State} {n : Nat} (hs : Keeps z0 s) : Keeps z0 (State.tanRestart s n) := by
  unfold State.tanRestart
  try dsimp only
  repeat' first
    | with_reducible assumption | with_reducible apply State.setTanP_keeps | with_reducible apply Keeps.ite | split

theorem State.endOthers_keeps {z0 s : State} {n : Nat} {keep : Option Nat} (hs : Keeps z0 s) : Keeps z0 (State.endOthers s n keep) := by
  unfold State.endOthers
  try dsimp only
  repeat' first
    | with_reducible assumption | with_reducible apply State.prepCheck_keeps | with_reducible apply State.onPart_keeps
    | with_reducible apply Keeps.foldl | with_reducible apply Keeps.foldl1 | with_reducible apply Keeps.foldl2 | intro _ _ _
    | intro _ _ | split

theorem State.tanOpen_keeps {z0 s : State} {n part p : Nat} {start : Int} {l : CamLine} (hs : Keeps z0 s) :
    Keeps z0 (State.tanOpen s n part p start l) := by
  unfold State.tanOpen
  try dsimp only
  repeat' first
    | with_reducible assumption | with_reducible apply State.setTanP_keeps | with_reducible apply Keeps.ite
    | with_reducible apply Keeps.ite1 | split

theorem State.stage1_keeps {z0 s : State} {c : TanCfg} {n : Nat} {pix : List Nat} (hs : Keeps z0 s) : Keeps z0 (State.stage1 s c n pix).1 := by
  unfold State.stage1
  try dsimp only
  repeat' first
    | with_reducible assumption | with_reducible apply State.hwRead_keeps | with_reducible apply Keeps.ite
    | with_reducible apply Keeps.ite1 | split

theorem State.prepSeen_keeps {z0 s : State} {n : Nat} {part : Option Nat} {sts : List Nat} (hs : Keeps z0 s) :
    Keeps z0 (State.prepSeen s n part sts) := by
  unfold State.prepSeen
  try dsimp only
  repeat' first
    | with_reducible assumption | with_reducible apply State.onPart_keeps | split

theorem State.addCnt_keeps {z0 s : State} {b : Nat} {f : Fld} {n : Nat} (hs : Keeps z0 s) : Keeps z0 (State.addCnt s b f n) := by
  unfold State.addCnt
  try dsimp only
  repeat' first
    | with_reducible assumption | with_reducible apply State.inc_keeps | with_reducible apply Keeps.foldl
    | with_reducible apply Keeps.foldl1 | with_reducible apply Keeps.foldl2 | intro _ _ _ | intro _ _ | split

theorem State.tanFound_keeps {z0 s : State} {e : TanErr} (hs : Keeps z0 s) : Keeps z0 (State.tanFound s e) := by
  unfold State.tanFound
  try dsimp only
  repeat' first
    | with_reducible assumption | with_reducible apply State.addCnt_keeps | with_reducible apply State.residueRetry_keeps
    | with_reducible apply State.residueFail_keeps | with_reducible apply Keeps.foldl | with_reducible apply Keeps.foldl1
    | with_reducible apply Keeps.foldl2 | intro _ _ _ | intro _ _ | split

theorem State.tanPlace_keeps {z0 s : State} {n chans : Nat} {l : TanLine} (hs : Keeps z0 s) : Keeps z0 (State.tanPlace s n chans l) := by
  unfold State.tanPlace
  try dsimp only
  repeat' first
    | with_reducible assumption | with_reducible apply State.setTanP_keeps | with_reducible apply State.onPart_keeps
    | with_reducible apply Keeps.ite | with_reducible apply Keeps.ite1 | split

theorem State.tanLine_keeps {z0 s : State} {n : Nat} {l : CamLine} {e : TanErr} (hs : Keeps z0 s) : Keeps z0 (State.tanLine s n l e) := by
  unfold State.tanLine
  try dsimp only
  repeat' first
    | with_reducible assumption | with_reducible apply State.tanOpen_keeps | with_reducible apply State.tanFound_keeps
    | with_reducible apply State.inc_keeps | with_reducible apply State.prepSeen_keeps | with_reducible apply State.setTanP_keeps
    | with_reducible apply State.stage1_keeps | with_reducible apply State.tanPlace_keeps
    | with_reducible apply State.endOthers_keeps | with_reducible apply State.prepCheck_keeps
    | with_reducible apply State.onPart_keeps | with_reducible apply Keeps.ite | with_reducible apply Keeps.ite1 | split

theorem execIntakeFirstPixel_keeps {z0 : State} {t p : Nat} {s : State} (hs : Keeps z0 s) : OKeeps z0 (execIntakeFirstPixel t p s) := by
  unfold execIntakeFirstPixel
  try dsimp only
  repeat' first
    | with_reducible assumption | with_reducible apply State.at_keeps | with_reducible apply State.onHead_keeps
    | with_reducible apply OKeeps.next | with_reducible apply OKeeps.ite | with_reducible apply Keeps.ite | split

theorem execLineVerdict_keeps {z0 : State} {t p corr unc retry fail : Nat} {s : State} (hs : Keeps z0 s) :
    OKeeps z0 (execLineVerdict t p corr unc retry fail s) := by
  unfold execLineVerdict
  try dsimp only
  repeat' first
    | with_reducible assumption | with_reducible apply State.at_keeps | with_reducible apply State.setCam_keeps
    | with_reducible apply State.tanLine_keeps | with_reducible apply State.tanRestart_keeps | with_reducible apply OKeeps.next
    | with_reducible apply OKeeps.ite | with_reducible apply Keeps.ite | with_reducible apply Keeps.ite1 | split

theorem State.ringAlarm_keeps {z0 s : State} (hs : Keeps z0 s) : Keeps z0 (State.ringAlarm s) := by
  unfold State.ringAlarm
  try dsimp only
  repeat' first
    | with_reducible assumption | with_reducible apply State.wr_keeps | with_reducible apply State.raise_keeps
    | with_reducible apply Keeps.ite | split

theorem State.ringCommit_keeps {z0 s : State} {f1 f2 data : List Nat} {bad : optParam (List Nat) []} (hs : Keeps z0 s) :
    Keeps z0 (State.ringCommit s f1 f2 data bad).1 := by
  unfold State.ringCommit
  try dsimp only
  repeat' first
    | with_reducible assumption | with_reducible apply State.setTan_keeps | with_reducible apply State.putAs_keeps
    | with_reducible apply State.setPoison_keeps | with_reducible apply State.ringAlarm_keeps | with_reducible apply State.wr_keeps
    | with_reducible apply Keeps.ite | with_reducible apply Keeps.ite1 | with_reducible apply Keeps.foldl
    | with_reducible apply Keeps.foldl1 | with_reducible apply Keeps.foldl2 | intro _ _ _ | intro _ _ | split

theorem State.commitRows_keeps {z0 s : State} {n : Nat} {q : TanPart} {ri : Nat} {b : List Nat} {r0 r1 : Nat} {bad : optParam (List Nat)
    []} (hs : Keeps z0 s) :
    Keeps z0 (State.commitRows s n q ri b r0 r1 bad) := by
  unfold State.commitRows
  try dsimp only
  repeat' first
    | with_reducible assumption | with_reducible apply State.ringCommit_keeps | with_reducible apply State.onPart_keeps
    | with_reducible apply State.inc_keeps | with_reducible apply Keeps.ite | with_reducible apply Keeps.ite1 | split

theorem execGroupCommit_keeps {z0 : State} {t p part ri corr : Nat} {unc : List Nat} {retry : Nat} {fail bad : List Nat} {s : State} (hs : Keeps z0 s) :
    OKeeps z0 (execGroupCommit t p part ri corr unc retry fail bad s) := by
  unfold execGroupCommit
  try dsimp only
  repeat' first
    | with_reducible assumption | with_reducible apply State.at_keeps | with_reducible apply State.addCnt_keeps
    | with_reducible apply State.tanFound_keeps | with_reducible apply State.onPart_keeps
    | with_reducible apply State.prepCheck_keeps | with_reducible apply State.commitRows_keeps | with_reducible apply OKeeps.next
    | with_reducible apply OKeeps.ite | with_reducible apply Keeps.ite | with_reducible apply Keeps.ite1 | split

theorem State.forceCommits_keeps {z0 s : State} (hs : Keeps z0 s) : Keeps z0 (State.forceCommits s) := by
  unfold State.forceCommits
  try dsimp only
  repeat' first
    | with_reducible assumption | with_reducible apply State.prepCheck_keeps | with_reducible apply State.commitRows_keeps
    | with_reducible apply Keeps.ite | with_reducible apply Keeps.ite1 | with_reducible apply Keeps.foldl
    | with_reducible apply Keeps.foldl1 | with_reducible apply Keeps.foldl2 | intro _ _ _ | intro _ _ | split

theorem execTanRingRel_keeps {z0 : State} {t i v : Nat} {s : State} (hs : Keeps z0 s) : OKeeps z0 (execTanRingRel t i v s) := by
  unfold execTanRingRel
  try dsimp only
  repeat' first
    | with_reducible assumption | with_reducible apply State.at_keeps | with_reducible apply State.deny_keeps
    | with_reducible apply State.ringAlarm_keeps | with_reducible apply State.setTan_keeps | with_reducible apply OKeeps.next
    | with_reducible apply OKeeps.ite | with_reducible apply Keeps.ite | split

theorem State.tanOn_keeps {z0 s : State} (hs : Keeps z0 s) : Keeps z0 (State.tanOn s) := by
  unfold State.tanOn
  try dsimp only
  repeat' first
    | with_reducible assumption | with_reducible apply State.wr_keeps | with_reducible apply State.tanRestart_keeps
    | with_reducible apply State.setTanP_keeps | with_reducible apply Keeps.foldl | with_reducible apply Keeps.foldl1
    | with_reducible apply Keeps.foldl2 | intro _ _ _ | intro _ _ | split

theorem State.tanFence_keeps {z0 s : State} (hs : Keeps z0 s) : Keeps z0 (State.tanFence s) := by
  unfold State.tanFence
  try dsimp only
  repeat' first
    | with_reducible assumption | with_reducible apply State.setTan_keeps

theorem State.tanReset_keeps {z0 s : State} (hs : Keeps z0 s) : Keeps z0 (State.tanReset s) := by
  unfold State.tanReset
  try dsimp only
  repeat' first
    | with_reducible assumption | with_reducible apply State.setCam_keeps | with_reducible apply State.setTan_keeps
    | with_reducible apply Keeps.foldl | with_reducible apply Keeps.foldl1 | with_reducible apply Keeps.foldl2 | intro _ _ _
    | intro _ _ | split

theorem State.tanBefore_keeps {z0 s : State} {at_ : List Int} (hs : Keeps z0 s) : Keeps z0 (State.tanBefore s at_) := by
  unfold State.tanBefore
  try dsimp only
  repeat' first
    | with_reducible assumption | with_reducible apply State.setTan_keeps

theorem State.tanAfter_keeps {z0 s : State} (hs : Keeps z0 s) : Keeps z0 (State.tanAfter s) := by
  unfold State.tanAfter
  try dsimp only
  repeat' first
    | with_reducible assumption | with_reducible apply State.setTan_keeps

theorem State.setClm_keeps {z0 s : State} {x : Clm} (hs : Keeps z0 s) : Keeps z0 (State.setClm s x) := by
  unfold State.setClm
  try dsimp only
  repeat' first
    | with_reducible assumption | (fail_if_no_progress with_reducible refine Keeps.mk' ?_ rfl rfl rfl rfl rfl rfl rfl)

theorem State.clmBefore_keeps {z0 s : State} {at_ : List Int} (hs : Keeps z0 s) : Keeps z0 (State.clmBefore s at_) := by
  unfold State.clmBefore
  try dsimp only
  repeat' first
    | with_reducible assumption | with_reducible apply State.setClm_keeps

theorem State.clmAfter_keeps {z0 s : State} (hs : Keeps z0 s) : Keeps z0 (State.clmAfter s) := by
  unfold State.clmAfter
  try dsimp only
  repeat' first
    | with_reducible assumption | with_reducible apply State.setClm_keeps

theorem State.colourCheck_keeps {z0 s : State} {p part : Nat} (hs : Keeps z0 s) : Keeps z0 (State.colourCheck s p part) := by
  unfold State.colourCheck
  try dsimp only
  repeat' first
    | with_reducible assumption | with_reducible apply State.checkReport_keeps | with_reducible apply Keeps.ite
    | with_reducible apply Keeps.ite1 | with_reducible apply Keeps.foldl | with_reducible apply Keeps.foldl1
    | with_reducible apply Keeps.foldl2 | intro _ _ _ | intro _ _ | split

theorem execPatchJudged_keeps {z0 : State} {t p part k : Nat} {s : State} (hs : Keeps z0 s) : OKeeps z0 (execPatchJudged t p part k s) := by
  unfold execPatchJudged
  try dsimp only
  repeat' first
    | with_reducible assumption | with_reducible apply State.at_keeps | with_reducible apply State.colourCheck_keeps
    | with_reducible apply State.setClm_keeps | with_reducible apply OKeeps.next | with_reducible apply OKeeps.ite
    | with_reducible apply Keeps.ite | with_reducible apply Keeps.ite1 | split

theorem State.setTable_keeps {z0 s : State} {set idx : Nat} {vs : List Nat} (hs : Keeps z0 s) : Keeps z0 (State.setTable s set idx vs) := by
  unfold State.setTable
  try dsimp only
  repeat' first
    | with_reducible assumption | with_reducible apply State.setClm_keeps | with_reducible apply Keeps.foldl
    | with_reducible apply Keeps.foldl1 | with_reducible apply Keeps.foldl2 | intro _ _ _ | intro _ _ | split

theorem State.tabWrite_keeps {z0 s : State} {set off v : Nat} (hs : Keeps z0 s) : Keeps z0 (State.tabWrite s set off v) := by
  unfold State.tabWrite
  try dsimp only
  repeat' first
    | with_reducible assumption | with_reducible apply State.setTable_keeps | with_reducible apply Keeps.ite | split

theorem State.tloadWrite_keeps {z0 s : State} {v : Nat} (hs : Keeps z0 s) : Keeps z0 (State.tloadWrite s v) := by
  unfold State.tloadWrite
  try dsimp only
  repeat' first
    | with_reducible assumption | with_reducible apply State.wr_keeps | with_reducible apply State.setClm_keeps
    | with_reducible apply Keeps.ite | split

theorem execClmTload_keeps {z0 : State} {t i v : Nat} {s : State} (hs : Keeps z0 s) : OKeeps z0 (execClmTload t i v s) := by
  unfold execClmTload
  try dsimp only
  repeat' first
    | with_reducible assumption | with_reducible apply State.at_keeps | with_reducible apply State.deny_keeps
    | with_reducible apply State.tloadWrite_keeps | with_reducible apply OKeeps.next | with_reducible apply OKeeps.ite
    | with_reducible apply Keeps.ite | split

theorem State.calibCommit_keeps {z0 s : State} {n : Nat} (hs : Keeps z0 s) : Keeps z0 (State.calibCommit s n) := by
  unfold State.calibCommit
  try dsimp only
  repeat' first
    | with_reducible assumption | with_reducible apply State.idEvent_keeps

theorem execClmTloadDone_keeps {z0 : State} {t : Nat} {s : State} (hs : Keeps z0 s) : OKeeps z0 (execClmTloadDone t s) := by
  unfold execClmTloadDone
  try dsimp only
  repeat' first
    | with_reducible assumption | with_reducible apply State.at_keeps | with_reducible apply State.hwRead_keeps
    | with_reducible apply State.wr_keeps | with_reducible apply State.setClm_keeps | with_reducible apply State.setTable_keeps
    | with_reducible apply State.calibCommit_keeps | with_reducible apply OKeeps.next | with_reducible apply OKeeps.ite
    | with_reducible apply Keeps.ite | with_reducible apply Keeps.ite1 | split

theorem State.artCount_keeps {z0 s : State} (hs : Keeps z0 s) : Keeps z0 (State.artCount s) := by
  unfold State.artCount
  try dsimp only
  repeat' first
    | with_reducible assumption | with_reducible apply State.wr_keeps

theorem execTanArtDb_keeps {z0 : State} {t i v : Nat} {s : State} (hs : Keeps z0 s) : OKeeps z0 (execTanArtDb t i v s) := by
  unfold execTanArtDb
  try dsimp only
  repeat' first
    | with_reducible assumption | with_reducible apply State.at_keeps | with_reducible apply State.deny_keeps
    | with_reducible apply State.wr_keeps | with_reducible apply State.artCount_keeps | with_reducible apply State.setTan_keeps
    | with_reducible apply OKeeps.next | with_reducible apply OKeeps.ite | with_reducible apply Keeps.ite | split

theorem State.artStatus_keeps {z0 s : State} {a st : Nat} {im : ArtImage} (hs : Keeps z0 s) : Keeps z0 (State.artStatus s a st im) := by
  unfold State.artStatus
  try dsimp only
  repeat' first
    | with_reducible assumption | with_reducible apply State.putAs_keeps

theorem State.artRun_keeps {z0 s : State} {a : Nat} (hs : Keeps z0 s) : Keeps z0 (State.artRun s a) := by
  unfold State.artRun
  try dsimp only
  repeat' first
    | with_reducible assumption | with_reducible apply State.hwRead_keeps | with_reducible apply State.artStatus_keeps
    | with_reducible apply State.putAs_keeps | with_reducible apply State.setTan_keeps | with_reducible apply Keeps.ite
    | with_reducible apply Keeps.ite1 | split

theorem execDecodeDone_keeps {z0 : State} {t : Nat} {s : State} (hs : Keeps z0 s) : OKeeps z0 (execDecodeDone t s) := by
  unfold execDecodeDone
  try dsimp only
  repeat' first
    | with_reducible assumption | with_reducible apply State.at_keeps | with_reducible apply State.artCount_keeps
    | with_reducible apply State.artRun_keeps | with_reducible apply State.setTan_keeps | with_reducible apply OKeeps.next
    | with_reducible apply OKeeps.ite | with_reducible apply Keeps.ite | with_reducible apply Keeps.ite1 | split

theorem execTanDictLoad_keeps {z0 : State} {t i v : Nat} {s : State} (hs : Keeps z0 s) : OKeeps z0 (execTanDictLoad t i v s) := by
  unfold execTanDictLoad
  try dsimp only
  repeat' first
    | with_reducible assumption | with_reducible apply State.at_keeps | with_reducible apply State.deny_keeps
    | with_reducible apply State.wr_keeps | with_reducible apply State.setTan_keeps | with_reducible apply OKeeps.next
    | with_reducible apply OKeeps.ite | with_reducible apply Keeps.ite | split

theorem execDictLoadDone_keeps {z0 : State} {t : Nat} {s : State} (hs : Keeps z0 s) : OKeeps z0 (execDictLoadDone t s) := by
  unfold execDictLoadDone
  try dsimp only
  repeat' first
    | with_reducible assumption | with_reducible apply State.at_keeps | with_reducible apply State.wr_keeps
    | with_reducible apply State.setTan_keeps | with_reducible apply State.hwRead_keeps | with_reducible apply OKeeps.next
    | with_reducible apply OKeeps.ite | with_reducible apply Keeps.ite | with_reducible apply Keeps.ite1 | split

theorem execTanTxtqWr_keeps {z0 : State} {t i v : Nat} {s : State} (hs : Keeps z0 s) : OKeeps z0 (execTanTxtqWr t i v s) := by
  unfold execTanTxtqWr
  try dsimp only
  repeat' first
    | with_reducible assumption | with_reducible apply State.at_keeps | with_reducible apply State.deny_keeps
    | with_reducible apply State.wr_keeps | with_reducible apply OKeeps.next | with_reducible apply OKeeps.ite
    | with_reducible apply Keeps.ite | split

theorem State.textBatch_keeps {z0 s : State} {part line slot : Nat} {txt : List Nat} (hs : Keeps z0 s) :
    Keeps z0 (State.textBatch s part line slot txt) := by
  unfold State.textBatch
  try dsimp only
  repeat' first
    | with_reducible assumption | with_reducible apply State.inc_keeps | with_reducible apply State.ringCommit_keeps
    | with_reducible apply Keeps.ite | with_reducible apply Keeps.ite1 | split

theorem execTextRecord_keeps {z0 : State} {t : Nat} {s : State} (hs : Keeps z0 s) : OKeeps z0 (execTextRecord t s) := by
  unfold execTextRecord
  try dsimp only
  repeat' first
    | with_reducible assumption | with_reducible apply State.at_keeps | with_reducible apply State.wr_keeps
    | with_reducible apply State.hwRead_keeps | with_reducible apply State.textBatch_keeps | with_reducible apply OKeeps.next
    | with_reducible apply OKeeps.ite | with_reducible apply Keeps.ite | with_reducible apply Keeps.ite1 | split

end Sys2Proof.Machine
end

