-- ==== Sys2Proof/Laws/KeepsLink.lean ====
section
/-!
SUPPORT. What is kept (Keeps) by fused tiles, exchanges, shards, the link, memory commands, lanes and power.
-/

namespace Sys2Proof.Machine

set_option linter.unreachableTactic false
set_option linter.unusedTactic false
set_option maxRecDepth 100000
set_option linter.unusedVariables false

theorem Conv.body_keeps {z0 s : State} {c : Conv} {t cl : Nat} (hs : Keeps z0 s) : Keeps z0 (Conv.body c t s cl).s :=
  State.readAll_keeps (State.declare_keeps hs)

theorem State.startConv_keeps {z0 s : State} {q : Nat} (hs : Keeps z0 s) : Keeps z0 (State.startConv s q) := by
  unfold State.startConv
  try dsimp only
  repeat' first
    | with_reducible assumption | with_reducible apply State.startFused_keeps | with_reducible apply State.fusedCheck_keeps
    | with_reducible apply State.beginFused_keeps | intro _ _ _ | intro _ _

theorem execConvolution_keeps {z0 : State} {t x : Nat} {s : State} (hs : Keeps z0 s) : OKeeps z0 (execConvolution t x s) := by
  unfold execConvolution
  try dsimp only
  repeat' first
    | with_reducible assumption | with_reducible apply State.startConv_keeps | with_reducible apply State.at_keeps
    | with_reducible apply OKeeps.next

theorem State.readBatch_keeps {z0 s : State} {a n : Nat} (hs : Keeps z0 s) : Keeps z0 (State.readBatch s a n).1 := by
  unfold State.readBatch
  try dsimp only
  repeat' first
    | with_reducible assumption | with_reducible apply State.hwRead_keeps | with_reducible apply Keeps.ite
    | with_reducible apply Keeps.ite1 | split

theorem State.startBatch_keeps {z0 s : State} {f : Fused} {proj fields : Bool} {fmt d layer n cols : Nat} {more tensors : List (List Nat) →
    Bool} (hs : Keeps z0 s) :
    Keeps z0 (State.startBatch s f proj fields fmt d layer n cols more tensors) := by
  unfold State.startBatch
  try dsimp only
  repeat' first
    | with_reducible assumption | with_reducible apply State.refuseCmd_keeps | with_reducible apply State.readBatch_keeps
    | with_reducible apply State.fusedCheck_keeps | with_reducible apply State.inc_keeps | with_reducible apply State.modCmd_keeps
    | with_reducible apply State.prepare_keeps | with_reducible apply State.endSegment_keeps | with_reducible apply Keeps.ite
    | with_reducible apply Keeps.ite1 | with_reducible apply Keeps.foldl | with_reducible apply Keeps.foldl1
    | with_reducible apply Keeps.foldl2 | intro _ _ _ | intro _ _ | split

theorem projBody_keeps {z0 s : State} {x : Cmd} {t cl : Nat} (hs : Keeps z0 s) : Keeps z0 (projBody x t s cl).s :=
  State.readAll_keeps hs

theorem projAfter_keeps {z0 : State} {layer : Nat} {s : State} {b : List Nat} (hs : Keeps z0 s) : Keeps z0 (projAfter layer s b) := by
  unfold projAfter
  try dsimp only
  repeat' first
    | with_reducible assumption | with_reducible apply State.setSeq_keeps | with_reducible apply State.setPage_keeps
    | with_reducible apply Keeps.foldl | with_reducible apply Keeps.foldl1 | with_reducible apply Keeps.foldl2 | intro _ _ _
    | intro _ _ | split

theorem State.startProj_keeps {z0 s : State} {q : Nat} (hs : Keeps z0 s) : Keeps z0 (State.startProj s q) := by
  unfold State.startProj
  try dsimp only
  repeat' first
    | with_reducible assumption | with_reducible apply State.startFused_keeps | with_reducible apply State.startBatch_keeps
    | intro _ _ _ | intro _ _

theorem execProjection_keeps {z0 : State} {t x : Nat} {s : State} (hs : Keeps z0 s) : OKeeps z0 (execProjection t x s) := by
  unfold execProjection
  try dsimp only
  repeat' first
    | with_reducible assumption | with_reducible apply State.startProj_keeps | with_reducible apply State.at_keeps
    | with_reducible apply OKeeps.next

theorem attBody_keeps {z0 s : State} {x : Cmd} {t cl : Nat} (hs : Keeps z0 s) : Keeps z0 (attBody x t s cl).s := by
  unfold attBody
  dsimp only
  split
  · exact State.readAll_keeps hs
  · exact State.takeFree_keeps hs

theorem State.startAtt_keeps {z0 s : State} {q : Nat} (hs : Keeps z0 s) : Keeps z0 (State.startAtt s q) := by
  unfold State.startAtt
  try dsimp only
  repeat' first
    | with_reducible assumption | with_reducible apply State.startFused_keeps | with_reducible apply State.startBatch_keeps
    | intro _ _ _ | intro _ _

theorem execAttention_keeps {z0 : State} {t x : Nat} {s : State} (hs : Keeps z0 s) : OKeeps z0 (execAttention t x s) := by
  unfold execAttention
  try dsimp only
  repeat' first
    | with_reducible assumption | with_reducible apply State.startAtt_keeps | with_reducible apply State.at_keeps
    | with_reducible apply OKeeps.next

theorem State.settleExch_keeps {z0 s : State} {e : Exch} (hs : Keeps z0 s) : Keeps z0 (State.settleExch s e) := by
  unfold State.settleExch
  try dsimp only
  repeat' first
    | with_reducible assumption | with_reducible apply State.putAs_keeps | with_reducible apply State.modCmd_keeps
    | with_reducible apply State.setLnk_keeps | with_reducible apply Keeps.ite | with_reducible apply Keeps.ite1
    | with_reducible apply Keeps.foldl | with_reducible apply Keeps.foldl1 | with_reducible apply Keeps.foldl2 | intro _ _ _
    | intro _ _ | split

theorem State.sendSeg_keeps {z0 s : State} {e : Exch} {dests : List Nat} {k : Nat} {b : List Nat} (hs : Keeps z0 s) :
    Keeps z0 (State.sendSeg s e dests k b).1 := by
  unfold State.sendSeg
  try dsimp only
  repeat' first
    | with_reducible assumption | with_reducible apply State.hwRead_keeps | with_reducible apply State.sendFrame_keeps
    | with_reducible apply Keeps.ite | with_reducible apply Keeps.ite1 | with_reducible apply Keeps.foldl
    | with_reducible apply Keeps.foldl1 | with_reducible apply Keeps.foldl2 | intro _ _ _ | intro _ _ | split

theorem State.startExch_keeps {z0 s : State} {f : Fused} (hs : Keeps z0 s) : Keeps z0 (State.startExch s f) := by
  unfold State.startExch
  try dsimp only
  repeat' first
    | with_reducible assumption | with_reducible apply State.refuseCmd_keeps | with_reducible apply State.hwRead_keeps
    | with_reducible apply State.modCmd_keeps | with_reducible apply State.sendSeg_keeps
    | with_reducible apply State.settleExch_keeps | with_reducible apply Keeps.ite | with_reducible apply Keeps.ite1
    | with_reducible apply Keeps.foldl | with_reducible apply Keeps.foldl1 | with_reducible apply Keeps.foldl2 | intro _ _ _
    | intro _ _ | split

theorem execExchange_keeps {z0 : State} {t x : Nat} {s : State} (hs : Keeps z0 s) : OKeeps z0 (execExchange t x s) := by
  unfold execExchange
  try dsimp only
  repeat' first
    | with_reducible assumption | with_reducible apply State.startFused_keeps | with_reducible apply State.at_keeps
    | with_reducible apply State.startExch_keeps | with_reducible apply OKeeps.next | intro _ _ _ | intro _ _

theorem execWrite_keeps {z0 : State} {t a src addr tag : Nat} {poison : Bool} {data : List Nat} {s : State} (hs : Keeps z0 s) :
    OKeeps z0 (execWrite t a src addr tag poison data s) := by
  unfold execWrite
  try dsimp only
  repeat' first
    | with_reducible assumption | with_reducible apply State.at_keeps | with_reducible apply State.onFrame_keeps
    | with_reducible apply State.hwWritePoison_keeps | with_reducible apply State.hwWrite_keeps
    | with_reducible apply State.sendFrame_keeps | with_reducible apply OKeeps.next | with_reducible apply OKeeps.ite
    | with_reducible apply Keeps.ite | with_reducible apply Keeps.ite1 | intro _ _ _ | intro _ _ | split

theorem execWriteAck_keeps {z0 : State} {t a src tag st : Nat} {s : State} (hs : Keeps z0 s) : OKeeps z0 (execWriteAck t a src tag st s) := by
  unfold execWriteAck
  try dsimp only
  repeat' first
    | with_reducible assumption | with_reducible apply State.at_keeps | with_reducible apply State.onFrame_keeps
    | with_reducible apply State.settleExch_keeps | with_reducible apply OKeeps.next | with_reducible apply OKeeps.ite
    | with_reducible apply Keeps.ite | with_reducible apply Keeps.ite1 | intro _ _ _ | intro _ _ | split

theorem State.loseDest_keeps {z0 s : State} {m : Nat} (hs : Keeps z0 s) : Keeps z0 (State.loseDest s m) := by
  unfold State.loseDest
  try dsimp only
  repeat' first
    | with_reducible assumption | with_reducible apply State.settleExch_keeps | with_reducible apply Keeps.ite
    | with_reducible apply Keeps.ite1 | with_reducible apply Keeps.foldl | with_reducible apply Keeps.foldl1
    | with_reducible apply Keeps.foldl2 | intro _ _ _ | intro _ _ | split

theorem State.nextGen_keeps {z0 s : State} {num : Nat} (hs : Keeps z0 s) : Keeps z0 (State.nextGen s num) := by
  unfold State.nextGen
  try dsimp only
  repeat' first
    | with_reducible assumption | with_reducible apply State.setLnk_keeps

theorem State.endBarrier_keeps {z0 s : State} {num gen status : Nat} (hs : Keeps z0 s) : Keeps z0 (State.endBarrier s num gen status) := by
  unfold State.endBarrier
  try dsimp only
  repeat' first
    | with_reducible assumption | with_reducible apply State.setLnk_keeps | with_reducible apply State.inc_keeps
    | with_reducible apply State.modCmd_keeps | with_reducible apply State.nextGen_keeps | with_reducible apply Keeps.ite
    | with_reducible apply Keeps.ite1 | split

theorem State.takeRelease_keeps {z0 s : State} {num gen time : Nat} {bad : Bool} (hs : Keeps z0 s) :
    Keeps z0 (State.takeRelease s num gen time bad) := by
  unfold State.takeRelease
  try dsimp only
  repeat' first
    | with_reducible assumption | with_reducible apply State.inc_keeps | with_reducible apply State.endBarrier_keeps
    | with_reducible apply State.setLnk_keeps | with_reducible apply Keeps.ite | split

theorem State.decideBarrier_keeps {z0 s : State} {num : Nat} (hs : Keeps z0 s) : Keeps z0 (State.decideBarrier s num) := by
  unfold State.decideBarrier
  try dsimp only
  repeat' first
    | with_reducible assumption | with_reducible apply State.setLnk_keeps | with_reducible apply State.takeRelease_keeps
    | with_reducible apply State.sendFrame_keeps | with_reducible apply Keeps.ite | with_reducible apply Keeps.ite1
    | with_reducible apply Keeps.foldl | with_reducible apply Keeps.foldl1 | with_reducible apply Keeps.foldl2 | intro _ _ _
    | intro _ _ | split

theorem State.decideAll_keeps {z0 s : State} (hs : Keeps z0 s) : Keeps z0 (State.decideAll s) := by
  unfold State.decideAll
  try dsimp only
  repeat' first
    | with_reducible assumption | with_reducible apply State.decideBarrier_keeps | with_reducible apply Keeps.foldl
    | with_reducible apply Keeps.foldl1 | with_reducible apply Keeps.foldl2 | intro _ _ _ | intro _ _ | split

theorem State.arrive_keeps {z0 s : State} {num gen m mask : Nat} (hs : Keeps z0 s) : Keeps z0 (State.arrive s num gen m mask) := by
  unfold State.arrive
  try dsimp only
  repeat' first
    | with_reducible assumption | with_reducible apply State.decideBarrier_keeps | with_reducible apply State.setLnk_keeps
    | with_reducible apply Keeps.ite | split

theorem State.startBarrier_keeps {z0 s : State} {f : Fused} (hs : Keeps z0 s) : Keeps z0 (State.startBarrier s f) := by
  unfold State.startBarrier
  try dsimp only
  repeat' first
    | with_reducible assumption | with_reducible apply State.refuseCmd_keeps | with_reducible apply State.modCmd_keeps
    | with_reducible apply State.setLnk_keeps | with_reducible apply State.arrive_keeps | with_reducible apply State.sendFrame_keeps
    | with_reducible apply Keeps.ite | split

theorem execBarrier_keeps {z0 : State} {t x : Nat} {s : State} (hs : Keeps z0 s) : OKeeps z0 (execBarrier t x s) := by
  unfold execBarrier
  try dsimp only
  repeat' first
    | with_reducible assumption | with_reducible apply State.startFused_keeps | with_reducible apply State.at_keeps
    | with_reducible apply State.startBarrier_keeps | with_reducible apply OKeeps.next | intro _ _ _ | intro _ _

theorem execArrive_keeps {z0 : State} {t a src num gen mask : Nat} {s : State} (hs : Keeps z0 s) : OKeeps z0 (execArrive t a src num gen mask s) := by
  unfold execArrive
  try dsimp only
  repeat' first
    | with_reducible assumption | with_reducible apply State.at_keeps | with_reducible apply State.onFrame_keeps
    | with_reducible apply State.arrive_keeps | with_reducible apply OKeeps.next | with_reducible apply OKeeps.ite
    | with_reducible apply Keeps.ite | intro _ _ _ | intro _ _ | split

theorem execRelease_keeps {z0 : State} {t a num gen time : Nat} {bad : Bool} {s : State} (hs : Keeps z0 s) :
    OKeeps z0 (execRelease t a num gen time bad s) := by
  unfold execRelease
  try dsimp only
  repeat' first
    | with_reducible assumption | with_reducible apply State.at_keeps | with_reducible apply State.onFrame_keeps
    | with_reducible apply State.takeRelease_keeps | with_reducible apply OKeeps.next | with_reducible apply OKeeps.ite
    | with_reducible apply Keeps.ite | intro _ _ _ | intro _ _ | split

theorem execBarrierReleaseTime_keeps {z0 : State} {t num : Nat} {s : State} (hs : Keeps z0 s) : OKeeps z0 (execBarrierReleaseTime t num s) := by
  unfold execBarrierReleaseTime
  try dsimp only
  repeat' first
    | with_reducible assumption | with_reducible apply State.at_keeps | with_reducible apply State.endBarrier_keeps
    | with_reducible apply OKeeps.next | with_reducible apply OKeeps.ite | with_reducible apply Keeps.ite
    | with_reducible apply Keeps.ite1 | split

theorem State.missBarrier_keeps {z0 s : State} {num : Nat} (hs : Keeps z0 s) : Keeps z0 (State.missBarrier s num) := by
  unfold State.missBarrier
  try dsimp only
  repeat' first
    | with_reducible assumption | with_reducible apply State.setLnk_keeps | with_reducible apply State.nextGen_keeps
    | with_reducible apply Keeps.ite | split

theorem State.linkMissed_keeps {z0 s : State} {x : Nat} {before : Option Cmd} (hs : Keeps z0 s) : Keeps z0 (State.linkMissed s x before) := by
  unfold State.linkMissed
  try dsimp only
  repeat' first
    | with_reducible assumption | with_reducible apply State.setLnk_keeps | with_reducible apply State.missBarrier_keeps | split

theorem State.abortLink_keeps {z0 s : State} (hs : Keeps z0 s) : Keeps z0 (State.abortLink s) := by
  unfold State.abortLink
  try dsimp only
  repeat' first
    | with_reducible assumption | with_reducible apply State.setLnk_keeps | with_reducible apply State.modCmd_keeps
    | with_reducible apply Keeps.ite | with_reducible apply Keeps.ite1 | with_reducible apply Keeps.foldl
    | with_reducible apply Keeps.foldl1 | with_reducible apply Keeps.foldl2 | intro _ _ _ | intro _ _ | split

theorem State.absorb_keeps {z0 s : State} {m : Nat} (hs : Keeps z0 s) : Keeps z0 (State.absorb s m) := by
  unfold State.absorb
  try dsimp only
  repeat' first
    | with_reducible assumption | with_reducible apply State.setShard_keeps | with_reducible apply Keeps.ite
    | with_reducible apply Keeps.ite1 | with_reducible apply Keeps.foldl | with_reducible apply Keeps.foldl1
    | with_reducible apply Keeps.foldl2 | intro _ _ _ | intro _ _ | split

theorem State.portsToFallback_keeps {z0 s : State} {why : Nat} (hs : Keeps z0 s) : Keeps z0 (State.portsToFallback s why) := by
  unfold State.portsToFallback
  try dsimp only
  repeat' first
    | with_reducible assumption | with_reducible apply State.switchPort_keeps | with_reducible apply Keeps.foldl
    | with_reducible apply Keeps.foldl1 | with_reducible apply Keeps.foldl2 | intro _ _ _ | intro _ _ | split

theorem State.absorbOut_keeps {z0 s : State} (hs : Keeps z0 s) : Keeps z0 (State.absorbOut s) := by
  unfold State.absorbOut
  try dsimp only
  repeat' first
    | with_reducible assumption | with_reducible apply State.absorb_keeps | with_reducible apply State.portsToFallback_keeps
    | with_reducible apply Keeps.ite | with_reducible apply Keeps.ite1 | with_reducible apply Keeps.foldl
    | with_reducible apply Keeps.foldl1 | with_reducible apply Keeps.foldl2 | intro _ _ _ | intro _ _ | split

theorem State.dropModules_keeps {z0 s : State} {ms : List Nat} (hs : Keeps z0 s) : Keeps z0 (State.dropModules s ms) := by
  unfold State.dropModules
  try dsimp only
  repeat' first
    | with_reducible assumption | with_reducible apply State.absorb_keeps | with_reducible apply State.loseDest_keeps
    | with_reducible apply State.decideAll_keeps | with_reducible apply Keeps.ite | with_reducible apply Keeps.ite1
    | with_reducible apply Keeps.foldl | with_reducible apply Keeps.foldl1 | with_reducible apply Keeps.foldl2 | intro _ _ _
    | intro _ _ | split

theorem State.leaveService_keeps {z0 s : State} (hs : Keeps z0 s) : Keeps z0 (State.leaveService s) := by
  unfold State.leaveService
  try dsimp only
  repeat' first
    | with_reducible assumption | with_reducible apply State.setMembers_keeps | with_reducible apply State.portsToFallback_keeps

theorem State.takeIn_keeps {z0 s : State} {m : Nat} (hs : Keeps z0 s) : Keeps z0 (State.takeIn s m) := by
  unfold State.takeIn
  try dsimp only
  repeat' first
    | with_reducible assumption | with_reducible apply State.sendMembers_keeps | with_reducible apply State.setMembers_keeps
    | with_reducible apply Keeps.ite | split

theorem execHeartbeat_keeps {z0 : State} {t a src : Nat} {s : State} (hs : Keeps z0 s) : OKeeps z0 (execHeartbeat t a src s) := by
  unfold execHeartbeat
  try dsimp only
  repeat' first
    | with_reducible assumption | with_reducible apply State.at_keeps | with_reducible apply State.onFrame_keeps
    | with_reducible apply State.takeIn_keeps | with_reducible apply OKeeps.next | with_reducible apply OKeeps.ite
    | with_reducible apply Keeps.ite | intro _ _ _ | intro _ _ | split

theorem execMembers_keeps {z0 : State} {t a joined serving : Nat} {s : State} (hs : Keeps z0 s) : OKeeps z0 (execMembers t a joined serving s) := by
  unfold execMembers
  try dsimp only
  repeat' first
    | with_reducible assumption | with_reducible apply State.at_keeps | with_reducible apply State.onFrame_keeps
    | with_reducible apply State.dropModules_keeps | with_reducible apply State.setMembers_keeps | with_reducible apply OKeeps.next
    | with_reducible apply OKeeps.ite | with_reducible apply Keeps.ite | intro _ _ _ | intro _ _ | split

theorem execModuleLost_keeps {z0 : State} {t m : Nat} {s : State} (hs : Keeps z0 s) : OKeeps z0 (execModuleLost t m s) := by
  unfold execModuleLost
  try dsimp only
  repeat' first
    | with_reducible assumption | with_reducible apply State.at_keeps | with_reducible apply State.sendMembers_keeps
    | with_reducible apply State.setMembers_keeps | with_reducible apply State.inc_keeps | with_reducible apply State.setLnk_keeps
    | with_reducible apply State.dropModules_keeps | with_reducible apply OKeeps.next | with_reducible apply OKeeps.ite
    | with_reducible apply Keeps.ite | split

theorem execModule0Lost_keeps {z0 : State} {t : Nat} {s : State} (hs : Keeps z0 s) : OKeeps z0 (execModule0Lost t s) := by
  unfold execModule0Lost
  try dsimp only
  repeat' first
    | with_reducible assumption | with_reducible apply State.at_keeps | with_reducible apply State.leaveService_keeps
    | with_reducible apply OKeeps.next | with_reducible apply OKeeps.ite | with_reducible apply Keeps.ite | split

theorem execRecoveredClockLock_keeps {z0 : State} {t : Nat} {s : State} (hs : Keeps z0 s) : OKeeps z0 (execRecoveredClockLock t s) := by
  unfold execRecoveredClockLock
  try dsimp only
  repeat' first
    | with_reducible assumption | with_reducible apply State.at_keeps | with_reducible apply State.setLnk_keeps
    | with_reducible apply OKeeps.next | with_reducible apply OKeeps.ite | with_reducible apply Keeps.ite | split

theorem execRecoveredClockLoss_keeps {z0 : State} {t : Nat} {s : State} (hs : Keeps z0 s) : OKeeps z0 (execRecoveredClockLoss t s) := by
  unfold execRecoveredClockLoss
  try dsimp only
  repeat' first
    | with_reducible assumption | with_reducible apply State.at_keeps | with_reducible apply State.setLnk_keeps
    | with_reducible apply State.leaveService_keeps | with_reducible apply OKeeps.next | split

theorem State.roleWrite_keeps {z0 s : State} {c r : Nat} (hs : Keeps z0 s) : Keeps z0 (State.roleWrite s c r) := by
  unfold State.roleWrite
  try dsimp only
  repeat' first
    | with_reducible assumption | (with_reducible refine State.setClu_keeps ?_ rfl) | with_reducible apply Keeps.ite | split

theorem State.applyRoles_keeps {z0 s : State} (hs : Keeps z0 s) : Keeps z0 (State.applyRoles s) := by
  unfold State.applyRoles
  try dsimp only
  repeat' first
    | with_reducible assumption | with_reducible apply State.wr_keeps | (with_reducible refine State.setClu_keeps ?_ rfl)
    | with_reducible apply Keeps.foldl | with_reducible apply Keeps.foldl1 | with_reducible apply Keeps.foldl2 | intro _ _ _
    | intro _ _ | split

theorem State.startTest_keeps {z0 s : State} {c : Nat} (hs : Keeps z0 s) : Keeps z0 (State.startTest s c) := by
  unfold State.startTest
  try dsimp only
  repeat' first
    | with_reducible assumption | with_reducible apply State.wr_keeps | (with_reducible refine State.setClu_keeps ?_ rfl)
    | with_reducible apply Keeps.ite | split

theorem State.cluCtrl_keeps {z0 s : State} {c v : Nat} (hs : Keeps z0 s) : Keeps z0 (State.cluCtrl s c v) := by
  unfold State.cluCtrl
  try dsimp only
  repeat' first
    | with_reducible assumption | with_reducible apply State.enableReq_keeps | with_reducible apply State.roleWrite_keeps
    | with_reducible apply State.startTest_keeps | with_reducible apply Keeps.ite | split

theorem execSelftest_keeps {z0 : State} {t i c v : Nat} {s : State} (hs : Keeps z0 s) : OKeeps z0 (execSelftest t i c v s) := by
  unfold execSelftest
  try dsimp only
  repeat' first
    | with_reducible assumption | with_reducible apply State.at_keeps | with_reducible apply State.deny_keeps
    | with_reducible apply State.cluCtrl_keeps | with_reducible apply OKeeps.next | with_reducible apply OKeeps.ite
    | with_reducible apply Keeps.ite | split

theorem execSelftestDone_keeps {z0 : State} {t c : Nat} {pass : Bool} {s : State} (hs : Keeps z0 s) : OKeeps z0 (execSelftestDone t c pass s) := by
  unfold execSelftestDone
  try dsimp only
  repeat' first
    | with_reducible assumption | with_reducible apply State.at_keeps | with_reducible apply State.wr_keeps
    | (with_reducible refine State.setClu_keeps ?_ rfl) | with_reducible apply State.wr64_keeps
    | with_reducible apply State.toFault_keeps | with_reducible apply OKeeps.next | with_reducible apply OKeeps.ite
    | with_reducible apply Keeps.ite | split

theorem State.beforeSnap_keeps {z0 s : State} {b : Nat} (hs : Keeps z0 s) : Keeps z0 (State.beforeSnap s b) := by
  unfold State.beforeSnap
  try dsimp only
  repeat' first
    | with_reducible assumption | with_reducible apply State.setCnt_keeps | with_reducible apply State.countChk_keeps
    | with_reducible apply Keeps.ite | split

theorem State.afterSnap_keeps {z0 s : State} {b : Nat} (hs : Keeps z0 s) : Keeps z0 (State.afterSnap s b) := by
  unfold State.afterSnap
  try dsimp only
  repeat' first
    | with_reducible assumption | with_reducible apply State.setCnt_keeps | with_reducible apply Keeps.ite | split

theorem State.snapBlk_keeps {z0 s : State} {b : Nat} (hs : Keeps z0 s) : Keeps z0 (State.snapBlk s b) := by
  unfold State.snapBlk
  try dsimp only
  repeat' first
    | with_reducible assumption | with_reducible apply State.beforeSnap_keeps | with_reducible apply State.afterSnap_keeps
    | with_reducible apply State.wr_keeps | with_reducible apply Keeps.foldl | with_reducible apply Keeps.foldl1
    | with_reducible apply Keeps.foldl2 | intro _ _ _ | intro _ _
    | (fail_if_no_progress with_reducible refine Keeps.mk' ?_ rfl rfl rfl rfl rfl rfl rfl) | split

theorem State.snapAll_keeps {z0 s : State} (hs : Keeps z0 s) : Keeps z0 (State.snapAll s) := by
  unfold State.snapAll
  try dsimp only
  repeat' first
    | with_reducible assumption | with_reducible apply State.snapBlk_keeps | with_reducible apply Keeps.foldl
    | with_reducible apply Keeps.foldl1 | with_reducible apply Keeps.foldl2 | intro _ _ _ | intro _ _ | split

theorem execHello_keeps {z0 : State} {t a major minor sysid pos topo modules clk : Nat} {s : State} (hs : Keeps z0 s) :
    OKeeps z0 (execHello t a major minor sysid pos topo modules clk s) := by
  unfold execHello
  try dsimp only
  repeat' first
    | with_reducible assumption | with_reducible apply State.at_keeps | with_reducible apply State.sendHello_keeps
    | with_reducible apply State.wr_keeps | with_reducible apply State.setPortState_keeps
    | with_reducible apply State.setLinkPort_keeps | with_reducible apply State.setLnk_keeps | with_reducible apply OKeeps.next
    | with_reducible apply OKeeps.ite | with_reducible apply Keeps.ite | split

theorem execHelloRetry_keeps {z0 : State} {t a : Nat} {s : State} (hs : Keeps z0 s) : OKeeps z0 (execHelloRetry t a s) := by
  unfold execHelloRetry
  try dsimp only
  repeat' first
    | with_reducible assumption | with_reducible apply State.at_keeps | with_reducible apply State.sendHello_keeps
    | with_reducible apply OKeeps.next | with_reducible apply OKeeps.ite | with_reducible apply Keeps.ite | split

theorem execHeartbeatSend_keeps {z0 : State} {t : Nat} {s : State} (hs : Keeps z0 s) : OKeeps z0 (execHeartbeatSend t s) := by
  unfold execHeartbeatSend
  try dsimp only
  repeat' first
    | with_reducible assumption | with_reducible apply State.at_keeps | with_reducible apply State.sendFrame_keeps
    | with_reducible apply State.mark_keeps | with_reducible apply State.sendLack_keeps | with_reducible apply OKeeps.next
    | with_reducible apply OKeeps.ite | with_reducible apply Keeps.ite | with_reducible apply Keeps.ite1
    | with_reducible apply Keeps.foldl | with_reducible apply Keeps.foldl1 | with_reducible apply Keeps.foldl2 | intro _ _ _
    | intro _ _ | split

theorem State.hears_keeps {z0 s : State} {a : Nat} (hs : Keeps z0 s) : Keeps z0 (State.hears s a) := by
  unfold State.hears
  try dsimp only
  repeat' first
    | with_reducible assumption | with_reducible apply State.setLinkPort_keeps

theorem execLack_keeps {z0 : State} {t a n : Nat} {s : State} (hs : Keeps z0 s) : OKeeps z0 (execLack t a n s) := by
  unfold execLack
  try dsimp only
  repeat' first
    | with_reducible assumption | with_reducible apply State.at_keeps | with_reducible apply State.hears_keeps
    | with_reducible apply State.flushPort_keeps | with_reducible apply State.setLinkPort_keeps | with_reducible apply OKeeps.next
    | with_reducible apply OKeeps.ite | with_reducible apply Keeps.ite | split

theorem execLnak_keeps {z0 : State} {t a n : Nat} {s : State} (hs : Keeps z0 s) : OKeeps z0 (execLnak t a n s) := by
  unfold execLnak
  try dsimp only
  repeat' first
    | with_reducible assumption | with_reducible apply State.at_keeps | with_reducible apply State.hears_keeps
    | with_reducible apply State.portDown_keeps | with_reducible apply State.setLinkPort_keeps | with_reducible apply State.inc_keeps
    | with_reducible apply State.putFrame_keeps | with_reducible apply OKeeps.next | with_reducible apply OKeeps.ite
    | with_reducible apply Keeps.ite | with_reducible apply Keeps.ite1 | with_reducible apply Keeps.foldl
    | with_reducible apply Keeps.foldl1 | with_reducible apply Keeps.foldl2 | intro _ _ _ | intro _ _ | split

theorem State.sendLnak_keeps {z0 s : State} {a : Nat} (hs : Keeps z0 s) : Keeps z0 (State.sendLnak s a) := by
  unfold State.sendLnak
  try dsimp only
  repeat' first
    | with_reducible assumption | with_reducible apply State.putFrame_keeps

theorem execFrameBadCrc_keeps {z0 : State} {t a : Nat} {gap : Bool} {s : State} (hs : Keeps z0 s) : OKeeps z0 (execFrameBadCrc t a gap s) := by
  unfold execFrameBadCrc
  try dsimp only
  repeat' first
    | with_reducible assumption | with_reducible apply State.at_keeps | with_reducible apply State.sendLnak_keeps
    | with_reducible apply State.inc_keeps | with_reducible apply OKeeps.next | with_reducible apply OKeeps.ite
    | with_reducible apply Keeps.ite | split

theorem execFrameForward_keeps {z0 : State} {t a type src dest arg tag : Nat} {poison crcOk : Bool} {data : List Int} {s : State} (hs : Keeps z0 s) :
    OKeeps z0 (execFrameForward t a type src dest arg tag poison crcOk data s) := by
  unfold execFrameForward
  try dsimp only
  repeat' first
    | with_reducible assumption | with_reducible apply State.at_keeps | with_reducible apply State.forward_keeps
    | with_reducible apply State.rxFrame_keeps | with_reducible apply State.putFrame_keeps
    | with_reducible apply State.sendLnak_keeps | with_reducible apply State.inc_keeps | with_reducible apply OKeeps.next
    | with_reducible apply OKeeps.ite | with_reducible apply Keeps.ite | split

theorem execLinkPortTimeout_keeps {z0 : State} {t a : Nat} {s : State} (hs : Keeps z0 s) : OKeeps z0 (execLinkPortTimeout t a s) := by
  unfold execLinkPortTimeout
  try dsimp only
  repeat' first
    | with_reducible assumption | with_reducible apply State.at_keeps | with_reducible apply State.portDown_keeps
    | with_reducible apply OKeeps.next | with_reducible apply OKeeps.ite | with_reducible apply Keeps.ite | split

theorem execResetReq_keeps {z0 : State} {t a src : Nat} {s : State} (hs : Keeps z0 s) : OKeeps z0 (execResetReq t a src s) := by
  unfold execResetReq
  try dsimp only
  repeat' first
    | with_reducible assumption | with_reducible apply State.at_keeps | with_reducible apply State.onFrame_keeps
    | with_reducible apply State.systemReset_keeps | with_reducible apply OKeeps.next | with_reducible apply OKeeps.ite
    | with_reducible apply Keeps.ite | intro _ _ _ | intro _ _ | split

theorem State.lnkKeyed_keeps {z0 s : State} {i off v : Nat} {k : State → State} (hs : Keeps z0 s) (hk : ∀ x, Keeps z0 x → Keeps z0 (k x)) :
    Keeps z0 (State.lnkKeyed s i off v k) := by
  unfold State.lnkKeyed
  try dsimp only
  repeat' first
    | with_reducible assumption | with_reducible apply State.deny_keeps | with_reducible apply Keeps.ite | apply hk | intro _ _ _
    | intro _ _ | split

theorem execLnkResetreq_keeps {z0 : State} {t i v : Nat} {s : State} (hs : Keeps z0 s) : OKeeps z0 (execLnkResetreq t i v s) := by
  unfold execLnkResetreq
  try dsimp only
  repeat' first
    | with_reducible assumption | with_reducible apply State.lnkKeyed_keeps | with_reducible apply State.at_keeps
    | with_reducible apply State.sendFrame_keeps | with_reducible apply OKeeps.next | with_reducible apply OKeeps.ite
    | with_reducible apply Keeps.ite | intro _ _ _ | intro _ _ | split

theorem execLnkAssign_keeps {z0 : State} {t i v : Nat} {s : State} (hs : Keeps z0 s) : OKeeps z0 (execLnkAssign t i v s) := by
  unfold execLnkAssign
  try dsimp only
  repeat' first
    | with_reducible assumption | with_reducible apply State.lnkKeyed_keeps | with_reducible apply State.at_keeps
    | with_reducible apply State.idEvent_keeps | with_reducible apply OKeeps.next | intro _ _ _ | intro _ _

theorem execTimeFrame_keeps {z0 : State} {t a value : Nat} {trips : List Nat} {s : State} (hs : Keeps z0 s) :
    OKeeps z0 (execTimeFrame t a value trips s) := by
  unfold execTimeFrame
  try dsimp only
  repeat' first
    | with_reducible assumption | with_reducible apply State.at_keeps | with_reducible apply State.onFrame_keeps
    | with_reducible apply State.moveTime_keeps | with_reducible apply State.restartHold_keeps | with_reducible apply State.wr_keeps
    | with_reducible apply OKeeps.next | with_reducible apply OKeeps.ite | with_reducible apply Keeps.ite
    | with_reducible apply Keeps.ite1 | with_reducible apply Keeps.foldl | with_reducible apply Keeps.foldl1
    | with_reducible apply Keeps.foldl2 | intro _ _ _ | intro _ _ | split

theorem execTimeSend_keeps {z0 : State} {t : Nat} {s : State} (hs : Keeps z0 s) : OKeeps z0 (execTimeSend t s) := by
  unfold execTimeSend
  try dsimp only
  repeat' first
    | with_reducible assumption | with_reducible apply State.at_keeps | with_reducible apply State.sendFrame_keeps
    | with_reducible apply State.mark_keeps | with_reducible apply OKeeps.next | with_reducible apply OKeeps.ite
    | with_reducible apply Keeps.ite | split

theorem execPositionSend_keeps {z0 : State} {t : Nat} {s : State} (hs : Keeps z0 s) : OKeeps z0 (execPositionSend t s) := by
  unfold execPositionSend
  try dsimp only
  repeat' first
    | with_reducible assumption | with_reducible apply State.at_keeps | with_reducible apply State.sendFrame_keeps
    | with_reducible apply State.mark_keeps | with_reducible apply OKeeps.next | with_reducible apply OKeeps.ite
    | with_reducible apply Keeps.ite | with_reducible apply Keeps.ite1 | with_reducible apply Keeps.foldl
    | with_reducible apply Keeps.foldl1 | with_reducible apply Keeps.foldl2 | intro _ _ _ | intro _ _ | split

theorem State.wiredFrame_keeps {z0 s : State} {p : Nat} {cnt : Int} {sample : Nat} (hs : Keeps z0 s) :
    Keeps z0 (State.wiredFrame s p cnt sample) := by
  unfold State.wiredFrame
  try dsimp only
  repeat' first
    | with_reducible assumption | with_reducible apply State.wr_keeps | with_reducible apply State.setFollow_keeps
    | with_reducible apply State.stage7_keeps | with_reducible apply State.raise_keeps | with_reducible apply Keeps.ite | split

theorem execPosition_keeps {z0 : State} {t a p : Nat} {cnt spd : Int} {sample : Nat} {s : State} (hs : Keeps z0 s) :
    OKeeps z0 (execPosition t a p cnt spd sample s) := by
  unfold execPosition
  try dsimp only
  repeat' first
    | with_reducible assumption | with_reducible apply State.at_keeps | with_reducible apply State.onFrame_keeps
    | with_reducible apply State.noteReached_keeps | with_reducible apply State.setFollow_keeps
    | with_reducible apply State.wiredFrame_keeps | with_reducible apply OKeeps.next | with_reducible apply OKeeps.ite
    | with_reducible apply Keeps.ite | intro _ _ _ | intro _ _ | split

theorem execLnkSsnapGo_keeps {z0 : State} {t i v : Nat} {s : State} (hs : Keeps z0 s) : OKeeps z0 (execLnkSsnapGo t i v s) := by
  unfold execLnkSsnapGo
  try dsimp only
  repeat' first
    | with_reducible assumption | with_reducible apply State.at_keeps | with_reducible apply State.deny_keeps
    | with_reducible apply State.sendFrame_keeps | with_reducible apply State.setLnk_keeps | with_reducible apply OKeeps.next
    | with_reducible apply OKeeps.ite | with_reducible apply Keeps.ite | split

theorem execSnapFrame_keeps {z0 : State} {t a p : Nat} {pos : Int} {s : State} (hs : Keeps z0 s) : OKeeps z0 (execSnapFrame t a p pos s) := by
  unfold execSnapFrame
  try dsimp only
  repeat' first
    | with_reducible assumption | with_reducible apply State.at_keeps | with_reducible apply State.onFrame_keeps
    | with_reducible apply State.setLnk_keeps | with_reducible apply OKeeps.next | with_reducible apply OKeeps.ite
    | with_reducible apply Keeps.ite | intro _ _ _ | intro _ _ | split

theorem execSystemSnapshot_keeps {z0 : State} {t : Nat} {s : State} (hs : Keeps z0 s) : OKeeps z0 (execSystemSnapshot t s) := by
  unfold execSystemSnapshot
  try dsimp only
  repeat' first
    | with_reducible assumption | with_reducible apply State.at_keeps | with_reducible apply State.snapAll_keeps
    | with_reducible apply State.setLnk_keeps | with_reducible apply OKeeps.next | with_reducible apply OKeeps.ite
    | with_reducible apply Keeps.ite | with_reducible apply Keeps.ite1 | split

theorem execSubverdict_keeps {z0 : State} {t a src part p c verdict : Nat} {degraded : Bool} {s : State} (hs : Keeps z0 s) :
    OKeeps z0 (execSubverdict t a src part p c verdict degraded s) := by
  unfold execSubverdict
  try dsimp only
  repeat' first
    | with_reducible assumption | with_reducible apply State.at_keeps | with_reducible apply State.onFrame_keeps
    | with_reducible apply State.inc_keeps | with_reducible apply State.settleCtxs_keeps
    | with_reducible apply State.checkReport_keeps | with_reducible apply OKeeps.next | with_reducible apply OKeeps.ite
    | with_reducible apply Keeps.ite | with_reducible apply Keeps.ite1 | intro _ _ _ | intro _ _ | split

theorem State.lnkStart_keeps {z0 s : State} (hs : Keeps z0 s) : Keeps z0 (State.lnkStart s) := by
  unfold State.lnkStart
  try dsimp only
  repeat' first
    | with_reducible assumption | with_reducible apply State.wr_keeps | with_reducible apply State.setLnk_keeps
    | with_reducible apply State.setPortState_keeps | with_reducible apply State.linkUp_keeps
    | with_reducible apply State.setMembers_keeps | with_reducible apply Keeps.ite | with_reducible apply Keeps.ite1
    | with_reducible apply Keeps.foldl | with_reducible apply Keeps.foldl1 | with_reducible apply Keeps.foldl2 | intro _ _ _
    | intro _ _ | split

theorem State.lnkStop_keeps {z0 s : State} (hs : Keeps z0 s) : Keeps z0 (State.lnkStop s) := by
  unfold State.lnkStop
  try dsimp only
  repeat' first
    | with_reducible assumption | with_reducible apply State.setPortState_keeps | with_reducible apply State.setLinkPort_keeps
    | with_reducible apply State.abortLink_keeps | with_reducible apply State.leaveService_keeps | with_reducible apply Keeps.ite
    | with_reducible apply Keeps.ite1 | with_reducible apply Keeps.foldl | with_reducible apply Keeps.foldl1
    | with_reducible apply Keeps.foldl2 | intro _ _ _ | intro _ _ | split

theorem State.lnkReset_keeps {z0 s : State} (hs : Keeps z0 s) : Keeps z0 (State.lnkReset s) := by
  unfold State.lnkReset
  try dsimp only
  repeat' first
    | with_reducible assumption | with_reducible apply State.setLnk_keeps

theorem State.disturbCached_keeps {z0 s : State} {i a bad : Nat} {tag : Bool} (hs : Keeps z0 s) : Keeps z0 (State.disturbCached s i a bad tag) := by
  unfold State.disturbCached
  try dsimp only
  repeat' first
    | with_reducible assumption | with_reducible apply State.takeFree_keeps | with_reducible apply State.storeRep_keeps
    | with_reducible apply State.setPoison_keeps | with_reducible apply State.openBytes_keeps
    | with_reducible apply State.setMem_keeps | with_reducible apply Keeps.ite | split

theorem execDramRead_keeps {z0 : State} {t i a n kind bad : Nat} {s : State} (hs : Keeps z0 s) : OKeeps z0 (execDramRead t i a n kind bad s) := by
  unfold execDramRead
  try dsimp only
  repeat' first
    | with_reducible assumption | with_reducible apply State.at_keeps | with_reducible apply State.answer_keeps
    | with_reducible apply State.checkStore_keeps | with_reducible apply State.wakeFor_keeps
    | with_reducible apply State.takeFree_keeps | with_reducible apply State.storeRep_keeps
    | with_reducible apply State.disturb_keeps | with_reducible apply State.disturbCached_keeps
    | with_reducible apply State.readUnits_keeps | with_reducible apply OKeeps.next | with_reducible apply OKeeps.ite
    | with_reducible apply Keeps.ite | with_reducible apply Keeps.ite1
    | (fail_if_no_progress with_reducible refine Keeps.mk' ?_ rfl rfl rfl rfl rfl rfl rfl) | split

theorem execDramWrite_keeps {z0 : State} {t i a : Nat} {data : List Nat} {poisoned : Bool} {s : State} (hs : Keeps z0 s) :
    OKeeps z0 (execDramWrite t i a data poisoned s) := by
  unfold execDramWrite
  try dsimp only
  repeat' first
    | with_reducible assumption | with_reducible apply State.at_keeps | with_reducible apply State.answer_keeps
    | with_reducible apply State.hwWritePoison_keeps | with_reducible apply State.hwWrite_keeps | with_reducible apply OKeeps.next
    | with_reducible apply OKeeps.ite | with_reducible apply Keeps.ite | with_reducible apply Keeps.ite1 | split

theorem execScrubRead_keeps {z0 : State} {t bad : Nat} {s : State} (hs : Keeps z0 s) : OKeeps z0 (execScrubRead t bad s) := by
  unfold execScrubRead
  try dsimp only
  repeat' first
    | with_reducible assumption | with_reducible apply State.at_keeps | with_reducible apply State.setMem_keeps
    | with_reducible apply State.readUnit_keeps | with_reducible apply State.disturb_keeps | with_reducible apply State.inc_keeps
    | with_reducible apply OKeeps.next | with_reducible apply OKeeps.ite | with_reducible apply Keeps.ite | split

theorem State.setSliceSt_keeps {z0 s : State} {n v : Nat} (hs : Keeps z0 s) : Keeps z0 (State.setSliceSt s n v) := by
  unfold State.setSliceSt
  try dsimp only
  repeat' first
    | with_reducible assumption | with_reducible apply State.setMem_keeps

theorem State.moveBuckets_keeps {z0 s : State} {n : Nat} (hs : Keeps z0 s) : Keeps z0 (State.moveBuckets s n) := by
  unfold State.moveBuckets
  try dsimp only
  repeat' first
    | with_reducible assumption | with_reducible apply State.setMem_keeps | with_reducible apply Keeps.ite
    | with_reducible apply Keeps.ite1 | with_reducible apply Keeps.foldl | with_reducible apply Keeps.foldl1
    | with_reducible apply Keeps.foldl2 | intro _ _ _ | intro _ _ | split

theorem State.returnBuckets_keeps {z0 s : State} {n : Nat} (hs : Keeps z0 s) : Keeps z0 (State.returnBuckets s n) := by
  unfold State.returnBuckets
  try dsimp only
  repeat' first
    | with_reducible assumption | with_reducible apply State.wr_keeps | with_reducible apply State.setSliceSt_keeps
    | with_reducible apply State.setMem_keeps | with_reducible apply Keeps.ite | with_reducible apply Keeps.ite1
    | with_reducible apply Keeps.foldl | with_reducible apply Keeps.foldl1 | with_reducible apply Keeps.foldl2 | intro _ _ _
    | intro _ _ | split

theorem State.drainWrite_keeps {z0 s : State} {n v : Nat} (hs : Keeps z0 s) : Keeps z0 (State.drainWrite s n v) := by
  unfold State.drainWrite
  try dsimp only
  repeat' first
    | with_reducible assumption | with_reducible apply State.wr_keeps | with_reducible apply State.setSliceSt_keeps
    | with_reducible apply State.moveBuckets_keeps | with_reducible apply State.returnBuckets_keeps | with_reducible apply Keeps.ite
    | split

theorem execDrain_keeps {z0 : State} {t i n v : Nat} {s : State} (hs : Keeps z0 s) : OKeeps z0 (execDrain t i n v s) := by
  unfold execDrain
  try dsimp only
  repeat' first
    | with_reducible assumption | with_reducible apply State.at_keeps | with_reducible apply State.deny_keeps
    | with_reducible apply State.drainWrite_keeps | with_reducible apply OKeeps.next | with_reducible apply OKeeps.ite
    | with_reducible apply Keeps.ite | split

theorem execDrainDone_keeps {z0 : State} {t n : Nat} {s : State} (hs : Keeps z0 s) : OKeeps z0 (execDrainDone t n s) := by
  unfold execDrainDone
  try dsimp only
  repeat' first
    | with_reducible assumption | with_reducible apply State.at_keeps | with_reducible apply State.flushSlices_keeps
    | with_reducible apply State.wr_keeps | with_reducible apply State.setSliceSt_keeps
    | with_reducible apply State.returnBuckets_keeps | with_reducible apply OKeeps.next | with_reducible apply OKeeps.ite
    | with_reducible apply Keeps.ite | split

theorem State.dropSlice_keeps {z0 s : State} {n : Nat} (hs : Keeps z0 s) : Keeps z0 (State.dropSlice s n) := by
  unfold State.dropSlice
  try dsimp only
  repeat' first
    | with_reducible assumption | with_reducible apply State.setMem_keeps

theorem State.sliceFence_keeps {z0 s : State} {n : Nat} (hs : Keeps z0 s) : Keeps z0 (State.sliceFence s n) := by
  unfold State.sliceFence
  try dsimp only
  repeat' first
    | with_reducible assumption | with_reducible apply State.moveBuckets_keeps | with_reducible apply State.setSliceSt_keeps
    | with_reducible apply State.dropSlice_keeps | with_reducible apply State.setPoison_keeps
    | with_reducible apply State.storeRep_keeps | with_reducible apply Keeps.ite | with_reducible apply Keeps.ite1
    | with_reducible apply Keeps.foldl | with_reducible apply Keeps.foldl1 | with_reducible apply Keeps.foldl2 | intro _ _ _
    | intro _ _ | split

theorem State.sliceReset_keeps {z0 s : State} {n : Nat} (hs : Keeps z0 s) : Keeps z0 (State.sliceReset s n) := by
  unfold State.sliceReset
  try dsimp only
  repeat' first
    | with_reducible assumption | with_reducible apply State.setSliceSt_keeps | with_reducible apply State.dropSlice_keeps

theorem State.logRelease_keeps {z0 s : State} {k : Nat} (hs : Keeps z0 s) : Keeps z0 (State.logRelease s k) := by
  unfold State.logRelease
  try dsimp only
  repeat' first
    | with_reducible assumption | with_reducible apply State.setMem_keeps | with_reducible apply Keeps.ite | split

theorem execMem4LogRd_keeps {z0 : State} {t i v : Nat} {s : State} (hs : Keeps z0 s) : OKeeps z0 (execMem4LogRd t i v s) := by
  unfold execMem4LogRd
  try dsimp only
  repeat' first
    | with_reducible assumption | with_reducible apply State.at_keeps | with_reducible apply State.deny_keeps
    | with_reducible apply State.logRelease_keeps | with_reducible apply OKeeps.next | with_reducible apply OKeeps.ite
    | with_reducible apply Keeps.ite | split

theorem State.injWrite_keeps {z0 s : State} {i v : Nat} (hs : Keeps z0 s) : Keeps z0 (State.injWrite s i v) := by
  unfold State.injWrite
  try dsimp only
  repeat' first
    | with_reducible assumption | with_reducible apply State.deny_keeps | with_reducible apply State.wr_keeps
    | with_reducible apply Keeps.ite | split

theorem execArm_keeps {z0 : State} {t i v : Nat} {s : State} (hs : Keeps z0 s) : OKeeps z0 (execArm t i v s) := by
  unfold execArm
  try dsimp only
  repeat' first
    | with_reducible assumption | with_reducible apply State.injWrite_keeps | with_reducible apply State.at_keeps
    | with_reducible apply OKeeps.next

theorem execCdrLock_keeps {z0 : State} {t m : Nat} {s : State} (hs : Keeps z0 s) : OKeeps z0 (execCdrLock t m s) := by
  unfold execCdrLock
  try dsimp only
  repeat' first
    | with_reducible assumption | with_reducible apply State.at_keeps | with_reducible apply State.wr_keeps
    | with_reducible apply OKeeps.next | with_reducible apply OKeeps.ite | with_reducible apply Keeps.ite | split

theorem execCdrLockLoss_keeps {z0 : State} {t m : Nat} {sig : Bool} {s : State} (hs : Keeps z0 s) : OKeeps z0 (execCdrLockLoss t m sig s) := by
  unfold execCdrLockLoss
  try dsimp only
  repeat' first
    | with_reducible assumption | with_reducible apply State.at_keeps | with_reducible apply State.untrain_keeps
    | with_reducible apply State.inc_keeps | with_reducible apply State.wr_keeps | with_reducible apply State.laneLost_keeps
    | with_reducible apply OKeeps.next | with_reducible apply OKeeps.ite | with_reducible apply Keeps.ite | split

theorem State.sdsCtrl_keeps {z0 s : State} {m v : Nat} (hs : Keeps z0 s) : Keeps z0 (State.sdsCtrl s m v) := by
  unfold State.sdsCtrl
  try dsimp only
  repeat' first
    | with_reducible assumption | with_reducible apply State.showLane_keeps | with_reducible apply State.enableReq_keeps
    | with_reducible apply State.untrain_keeps | with_reducible apply State.inc_keeps | with_reducible apply State.wr_keeps
    | with_reducible apply State.setFsm_keeps | with_reducible apply State.laneLost_keeps | with_reducible apply Keeps.ite | split

theorem execRetrain_keeps {z0 : State} {t i m v : Nat} {s : State} (hs : Keeps z0 s) : OKeeps z0 (execRetrain t i m v s) := by
  unfold execRetrain
  try dsimp only
  repeat' first
    | with_reducible assumption | with_reducible apply State.at_keeps | with_reducible apply State.deny_keeps
    | with_reducible apply State.sdsCtrl_keeps | with_reducible apply OKeeps.next | with_reducible apply OKeeps.ite
    | with_reducible apply Keeps.ite | split

theorem execLaneTrained_keeps {z0 : State} {t m r : Nat} {s : State} (hs : Keeps z0 s) : OKeeps z0 (execLaneTrained t m r s) := by
  unfold execLaneTrained
  try dsimp only
  repeat' first
    | with_reducible assumption | with_reducible apply State.at_keeps | with_reducible apply State.train_keeps
    | with_reducible apply State.laneBack_keeps | with_reducible apply OKeeps.next | with_reducible apply OKeeps.ite
    | with_reducible apply Keeps.ite | split

theorem State.injectLive_keeps {z0 s : State} {m : Nat} (hs : Keeps z0 s) : Keeps z0 (State.injectLive s m) := by
  unfold State.injectLive
  try dsimp only
  repeat' first
    | with_reducible assumption | with_reducible apply State.inc_keeps | with_reducible apply State.setSds_keeps
    | with_reducible apply Keeps.ite | split

theorem State.injectLane_keeps {z0 s : State} {m : Nat} (hs : Keeps z0 s) : Keeps z0 (State.injectLane s m) := by
  unfold State.injectLane
  try dsimp only
  repeat' first
    | with_reducible assumption | with_reducible apply State.inc_keeps | with_reducible apply State.injectLive_keeps
    | with_reducible apply Keeps.ite | split

theorem State.sdsTest_keeps {z0 s : State} {m v : Nat} (hs : Keeps z0 s) : Keeps z0 (State.sdsTest s m v) := by
  unfold State.sdsTest
  try dsimp only
  repeat' first
    | with_reducible assumption | with_reducible apply State.wr_keeps | with_reducible apply State.countChk_keeps
    | with_reducible apply State.restartChk_keeps | with_reducible apply State.setSds_keeps
    | with_reducible apply State.showLane_keeps | with_reducible apply State.injectLane_keeps | with_reducible apply Keeps.ite
    | split

theorem State.sdsTestBy_keeps {z0 s : State} {i m v : Nat} (hs : Keeps z0 s) : Keeps z0 (State.sdsTestBy s i m v) := by
  unfold State.sdsTestBy
  try dsimp only
  repeat' first
    | with_reducible assumption | with_reducible apply State.deny_keeps | with_reducible apply State.sdsTest_keeps
    | with_reducible apply Keeps.ite | split

theorem execSdsTest_keeps {z0 : State} {t i m v : Nat} {s : State} (hs : Keeps z0 s) : OKeeps z0 (execSdsTest t i m v s) := by
  unfold execSdsTest
  try dsimp only
  repeat' first
    | with_reducible assumption | with_reducible apply State.sdsTestBy_keeps | with_reducible apply State.at_keeps
    | with_reducible apply OKeeps.next

theorem execInj_keeps {z0 : State} {t i m v : Nat} {s : State} (hs : Keeps z0 s) : OKeeps z0 (execInj t i m v s) := by
  unfold execInj
  try dsimp only
  repeat' first
    | with_reducible assumption | with_reducible apply State.sdsTestBy_keeps | with_reducible apply State.at_keeps
    | with_reducible apply OKeeps.next | with_reducible apply OKeeps.ite | with_reducible apply Keeps.ite | split

theorem execCheckerSyncGain_keeps {z0 : State} {t m : Nat} {s : State} (hs : Keeps z0 s) : OKeeps z0 (execCheckerSyncGain t m s) := by
  unfold execCheckerSyncGain
  try dsimp only
  repeat' first
    | with_reducible assumption | with_reducible apply State.at_keeps | with_reducible apply State.setSds_keeps
    | with_reducible apply State.wr_keeps | with_reducible apply OKeeps.next | with_reducible apply OKeeps.ite
    | with_reducible apply Keeps.ite | split

theorem execCheckerSyncLoss_keeps {z0 : State} {t m errs : Nat} {s : State} (hs : Keeps z0 s) : OKeeps z0 (execCheckerSyncLoss t m errs s) := by
  unfold execCheckerSyncLoss
  try dsimp only
  repeat' first
    | with_reducible assumption | with_reducible apply State.at_keeps | with_reducible apply State.inc_keeps
    | with_reducible apply State.countChk_keeps | with_reducible apply State.setSds_keeps | with_reducible apply State.wr_keeps
    | with_reducible apply OKeeps.next | with_reducible apply OKeeps.ite | with_reducible apply Keeps.ite | split

theorem execBlockLockLoss_keeps {z0 : State} {t p : Nat} {hi : Bool} {s : State} (hs : Keeps z0 s) : OKeeps z0 (execBlockLockLoss t p hi s) := by
  unfold execBlockLockLoss
  try dsimp only
  repeat' first
    | with_reducible assumption | with_reducible apply State.at_keeps | with_reducible apply State.untrain_keeps
    | with_reducible apply State.ethDown_keeps | with_reducible apply State.wr_keeps | with_reducible apply OKeeps.next
    | with_reducible apply OKeeps.ite | with_reducible apply Keeps.ite | split

theorem State.ptpFrame_keeps {z0 s : State} {p : Nat} {rx : Bool} {f : List Nat} (hs : Keeps z0 s) : Keeps z0 (State.ptpFrame s p rx f) := by
  unfold State.ptpFrame
  try dsimp only
  repeat' first
    | with_reducible assumption | with_reducible apply State.ptpStamp_keeps | with_reducible apply Keeps.ite
    | with_reducible apply Keeps.ite1 | split

theorem State.ethDeliver_keeps {z0 s : State} {p : Nat} {f : List Nat} (hs : Keeps z0 s) : Keeps z0 (State.ethDeliver s p f) := by
  unfold State.ethDeliver
  try dsimp only
  repeat' first
    | with_reducible assumption | with_reducible apply State.inc_keeps | with_reducible apply State.setEth_keeps
    | with_reducible apply State.takeFree_keeps | with_reducible apply Keeps.ite | split

theorem State.ethReceive_keeps {z0 s : State} {p : Nat} {f : List Nat} {fcsOk : Bool} (hs : Keeps z0 s) :
    Keeps z0 (State.ethReceive s p f fcsOk) := by
  unfold State.ethReceive
  try dsimp only
  repeat' first
    | with_reducible assumption | with_reducible apply State.inc_keeps | with_reducible apply State.ptpFrame_keeps
    | with_reducible apply State.setEth_keeps | with_reducible apply State.ethDeliver_keeps | with_reducible apply Keeps.ite | split

theorem execEthFrameReceive_keeps {z0 : State} {t p : Nat} {f : List Nat} {fcsOk : Bool} {s : State} (hs : Keeps z0 s) :
    OKeeps z0 (execEthFrameReceive t p f fcsOk s) := by
  unfold execEthFrameReceive
  try dsimp only
  repeat' first
    | with_reducible assumption | with_reducible apply State.at_keeps | with_reducible apply State.setSys_keeps
    | with_reducible apply State.wake_keeps | with_reducible apply State.ethReceive_keeps | with_reducible apply OKeeps.next
    | with_reducible apply OKeeps.ite | with_reducible apply Keeps.ite | split

theorem execEthFrameTransmit_keeps {z0 : State} {t p : Nat} {s : State} (hs : Keeps z0 s) : OKeeps z0 (execEthFrameTransmit t p s) := by
  unfold execEthFrameTransmit
  try dsimp only
  repeat' first
    | with_reducible assumption | with_reducible apply State.at_keeps | with_reducible apply State.takeInj_keeps
    | with_reducible apply State.setEth_keeps | with_reducible apply State.inc_keeps | with_reducible apply State.ptpFrame_keeps
    | with_reducible apply OKeeps.next | with_reducible apply OKeeps.ite | with_reducible apply Keeps.ite
    | with_reducible apply Keeps.ite1 | (fail_if_no_progress with_reducible refine Keeps.mk' ?_ rfl rfl rfl rfl rfl rfl rfl) | split

theorem State.pcieReset_keeps {z0 s : State} (hs : Keeps z0 s) : Keeps z0 (State.pcieReset s) := by
  unfold State.pcieReset
  try dsimp only
  repeat' first
    | with_reducible assumption | with_reducible apply State.untrain_keeps | with_reducible apply State.pcieDown_keeps
    | with_reducible apply Keeps.foldl | with_reducible apply Keeps.foldl1 | with_reducible apply Keeps.foldl2 | intro _ _ _
    | intro _ _ | (fail_if_no_progress with_reducible refine Keeps.mk' ?_ rfl rfl rfl rfl rfl rfl rfl) | split

theorem execPciePerst_keeps {z0 : State} {t : Nat} {s : State} (hs : Keeps z0 s) : OKeeps z0 (execPciePerst t s) := by
  unfold execPciePerst
  try dsimp only
  repeat' first
    | with_reducible assumption | with_reducible apply State.at_keeps | with_reducible apply State.pcieReset_keeps
    | with_reducible apply State.setPwr_keeps | with_reducible apply OKeeps.next | with_reducible apply OKeeps.ite
    | with_reducible apply Keeps.ite | split

theorem execPciePerstRelease_keeps {z0 : State} {t : Nat} {s : State} (hs : Keeps z0 s) : OKeeps z0 (execPciePerstRelease t s) := by
  unfold execPciePerstRelease
  try dsimp only
  repeat' first
    | with_reducible assumption | with_reducible apply State.at_keeps | with_reducible apply State.pcieRelink_keeps
    | with_reducible apply State.setPwr_keeps | with_reducible apply State.wake_keeps | with_reducible apply OKeeps.next
    | with_reducible apply OKeeps.ite | with_reducible apply Keeps.ite | with_reducible apply Keeps.ite1 | split

theorem execPcieLinkDown_keeps {z0 : State} {t : Nat} {s : State} (hs : Keeps z0 s) : OKeeps z0 (execPcieLinkDown t s) := by
  unfold execPcieLinkDown
  try dsimp only
  repeat' first
    | with_reducible assumption | with_reducible apply State.at_keeps | with_reducible apply State.pcieReset_keeps
    | with_reducible apply OKeeps.next | with_reducible apply OKeeps.ite | with_reducible apply Keeps.ite | split

theorem State.onEnter_keeps {z0 s : State} {b : Nat} (hs : Keeps z0 s) : Keeps z0 (State.onEnter s b) := by
  unfold State.onEnter
  try dsimp only
  repeat' first
    | with_reducible assumption | with_reducible apply State.stpEnterOn_keeps | with_reducible apply State.camOn_keeps
    | with_reducible apply State.askRail_keeps | with_reducible apply State.driveOp_keeps | with_reducible apply State.tanOn_keeps
    | with_reducible apply State.lnkStart_keeps | with_reducible apply State.dmaOn_keeps | with_reducible apply State.ethUp_keeps
    | with_reducible apply State.pcieRelink_keeps | with_reducible apply State.refreshFio_keeps
    | with_reducible apply State.timOn_keeps | with_reducible apply Keeps.ite | split

theorem State.cluOut_keeps {z0 s : State} {c : Nat} (hs : Keeps z0 s) : Keeps z0 (State.cluOut s c) := by
  unfold State.cluOut
  try dsimp only
  repeat' first
    | with_reducible assumption | with_reducible apply State.rebind_keeps | with_reducible apply State.abandonTile_keeps

theorem State.onLeave_keeps {z0 s : State} {b : Nat} {fence : Bool} (hs : Keeps z0 s) : Keeps z0 (State.onLeave s b fence) := by
  unfold State.onLeave
  try dsimp only
  repeat' first
    | with_reducible assumption | with_reducible apply State.stpLeft_keeps | with_reducible apply State.ejtLeft_keeps
    | with_reducible apply State.lnkStop_keeps | with_reducible apply State.showLane_keeps
    | with_reducible apply State.laneLeft_keeps | with_reducible apply State.refreshFio_keeps | with_reducible apply Keeps.ite
    | split

theorem State.onStop_keeps {z0 s : State} {b : Nat} (hs : Keeps z0 s) : Keeps z0 (State.onStop s b) := by
  unfold State.onStop
  try dsimp only
  repeat' first
    | with_reducible assumption | with_reducible apply State.onLeave_keeps | with_reducible apply State.setCam_keeps
    | with_reducible apply Keeps.ite | split

theorem State.onHalt_keeps {z0 s : State} {b : Nat} (hs : Keeps z0 s) : Keeps z0 (State.onHalt s b) := by
  unfold State.onHalt
  try dsimp only
  repeat' first
    | with_reducible assumption | with_reducible apply State.cluOut_keeps | with_reducible apply State.camOff_keeps
    | with_reducible apply State.ethDown_keeps | with_reducible apply State.pcieRelink_keeps | with_reducible apply Keeps.ite | split

theorem State.onFence_keeps {z0 s : State} {b : Nat} (hs : Keeps z0 s) : Keeps z0 (State.onFence s b) := by
  unfold State.onFence
  try dsimp only
  repeat' first
    | with_reducible assumption | with_reducible apply State.tanFence_keeps | with_reducible apply State.schFence_keeps
    | with_reducible apply State.kvcFence_keeps | with_reducible apply State.capFence_keeps
    | with_reducible apply State.lnkStop_keeps | with_reducible apply State.sliceFence_keeps
    | with_reducible apply State.dmaFence_keeps | with_reducible apply State.dmaHostFails_keeps | with_reducible apply State.wr_keeps
    | with_reducible apply Keeps.ite | split

theorem State.sliceStop_keeps {z0 s : State} {n : Nat} (hs : Keeps z0 s) : Keeps z0 (State.sliceStop s n) := by
  unfold State.sliceStop
  try dsimp only
  repeat' first
    | with_reducible assumption | with_reducible apply State.moveBuckets_keeps | with_reducible apply State.setSliceSt_keeps
    | with_reducible apply State.flushSlices_keeps | with_reducible apply Keeps.ite | split

theorem State.onOff_keeps {z0 s : State} {b : Nat} (hs : Keeps z0 s) : Keeps z0 (State.onOff s b) := by
  unfold State.onOff
  try dsimp only
  repeat' first
    | with_reducible assumption | with_reducible apply State.camOff_keeps | with_reducible apply State.rebind_keeps
    | with_reducible apply State.sliceStop_keeps | with_reducible apply State.wr_keeps | with_reducible apply State.ethDown_keeps
    | with_reducible apply State.pcieReset_keeps | with_reducible apply State.capAll_keeps | with_reducible apply Keeps.ite | split

theorem State.clearSpad_keeps {z0 s : State} {c : Nat} (hs : Keeps z0 s) : Keeps z0 (State.clearSpad s c) := by
  refine hs.trans ⟨fun c => ⟨Store.wf_filter _ c.1, c.2.1, Store.wf_filter _ c.2.2.1, Store.wf_filter _ c.2.2.2⟩, id, rfl, Nat.le_refl _⟩

theorem State.clearInner_keeps {z0 s : State} {b : Nat} (hs : Keeps z0 s) : Keeps z0 (State.clearInner s b) := by
  unfold State.clearInner
  try dsimp only
  repeat' first
    | with_reducible assumption | (with_reducible refine State.setClu_keeps' ?_ (fun _ _ y => nomatch y)) | with_reducible apply State.setFollow_keeps | with_reducible apply State.setStp_keeps
    | with_reducible apply State.setEjt_keeps | with_reducible apply State.setCam_keeps | with_reducible apply State.tanReset_keeps
    | with_reducible apply State.clearSpad_keeps | (with_reducible refine State.setClu_keeps ?_ rfl)
    | with_reducible apply State.sliceReset_keeps | with_reducible apply State.setSch_keeps
    | with_reducible apply State.kvcReset_keeps | with_reducible apply State.lnkReset_keeps | with_reducible apply State.setEth_keeps
    | with_reducible apply State.pcieReset_keeps | with_reducible apply State.setDma_keeps | with_reducible apply State.setSds_keeps
    | with_reducible apply State.setField_keeps | with_reducible apply State.setTb_keeps | with_reducible apply State.setPwr_keeps
    | with_reducible apply Keeps.ite | (fail_if_no_progress with_reducible refine Keeps.mk' ?_ rfl rfl rfl rfl rfl rfl rfl) | split

theorem State.wipe_keeps {z0 s : State} {b : Nat} (hs : Keeps z0 s) : Keeps z0 (State.wipe s b) := by
  unfold State.wipe
  try dsimp only
  repeat' first
    | with_reducible assumption | with_reducible apply State.wr_keeps | with_reducible apply State.clearBlk_keeps
    | with_reducible apply State.clearInner_keeps | with_reducible apply State.wrAct_keeps | with_reducible apply Keeps.ite
    | with_reducible apply Keeps.ite1 | with_reducible apply Keeps.foldl | with_reducible apply Keeps.foldl1
    | with_reducible apply Keeps.foldl2 | intro _ _ _ | intro _ _ | split

theorem State.saveDom_keeps {z0 s : State} {n : Nat} (hs : Keeps z0 s) : Keeps z0 (State.saveDom s n) := by
  unfold State.saveDom
  try dsimp only
  repeat' first
    | with_reducible assumption | with_reducible apply State.saveBlk_keeps | with_reducible apply State.saveClk_keeps
    | with_reducible apply State.write_keeps | with_reducible apply Keeps.ite | with_reducible apply Keeps.ite1
    | with_reducible apply Keeps.foldl | with_reducible apply Keeps.foldl1 | with_reducible apply Keeps.foldl2 | intro _ _ _
    | intro _ _ | split

theorem State.powerInner_keeps {z0 s : State} {b : Nat} (hs : Keeps z0 s) : Keeps z0 (State.powerInner s b) := by
  unfold State.powerInner
  try dsimp only
  repeat' first
    | with_reducible assumption | with_reducible apply State.flushSlices_keeps | with_reducible apply State.setMem_keeps
    | with_reducible apply State.setSch_keeps | with_reducible apply State.clearInner_keeps | with_reducible apply Keeps.ite
    | (fail_if_no_progress with_reducible refine Keeps.mk' ?_ rfl rfl rfl rfl rfl rfl rfl) | split

theorem State.cutDom_keeps {z0 : State} {off : Bool} {s : State} {n : Nat} (hs : Keeps z0 s) : Keeps z0 (State.cutDom off s n) := by
  unfold State.cutDom
  try dsimp only
  repeat' first
    | with_reducible assumption | with_reducible apply State.saveDom_keeps | with_reducible apply State.powerInner_keeps
    | with_reducible apply State.powerClear_keeps | with_reducible apply State.wr_keeps | with_reducible apply State.setFsm_keeps
    | with_reducible apply State.setPstate_keeps | with_reducible apply Keeps.ite | with_reducible apply Keeps.ite1
    | with_reducible apply Keeps.foldl | with_reducible apply Keeps.foldl1 | with_reducible apply Keeps.foldl2 | intro _ _ _
    | intro _ _ | split

theorem State.restoreFail_keeps {z0 s : State} {b : Nat} (hs : Keeps z0 s) : Keeps z0 (State.restoreFail s b) := by
  unfold State.restoreFail
  try dsimp only
  repeat' first
    | with_reducible assumption | with_reducible apply State.wr_keeps | with_reducible apply State.raise_keeps
    | with_reducible apply State.inc_keeps | with_reducible apply State.toFault_keeps | with_reducible apply Keeps.foldl
    | with_reducible apply Keeps.foldl1 | with_reducible apply Keeps.foldl2 | intro _ _ _ | intro _ _ | split

theorem State.restoreCtxs_keeps {z0 s : State} (hs : Keeps z0 s) : Keeps z0 (State.restoreCtxs s) := by
  unfold State.restoreCtxs
  try dsimp only
  repeat' first
    | with_reducible assumption | with_reducible apply State.setCtxState_keeps | with_reducible apply Keeps.ite
    | with_reducible apply Keeps.ite1 | with_reducible apply Keeps.foldl | with_reducible apply Keeps.foldl1
    | with_reducible apply Keeps.foldl2 | intro _ _ _ | intro _ _ | split

theorem State.restoreBlk_keeps {z0 s : State} {b : Nat} (hs : Keeps z0 s) : Keeps z0 (State.restoreBlk s b) := by
  unfold State.restoreBlk
  try dsimp only
  repeat' first
    | with_reducible assumption | with_reducible apply State.setPwr_keeps | with_reducible apply State.readUnits_keeps
    | with_reducible apply State.criticalReset_keeps | with_reducible apply State.restoreFail_keeps
    | with_reducible apply State.restoreRegs_keeps | with_reducible apply State.restoreCtxs_keeps
    | with_reducible apply State.setMem_keeps | with_reducible apply Keeps.ite | with_reducible apply Keeps.ite1
    | with_reducible apply Keeps.foldl | with_reducible apply Keeps.foldl1 | with_reducible apply Keeps.foldl2 | intro _ _ _
    | intro _ _ | split

theorem State.upDom_keeps {z0 s : State} {n : Nat} (hs : Keeps z0 s) : Keeps z0 (State.upDom s n) := by
  unfold State.upDom
  try dsimp only
  repeat' first
    | with_reducible assumption | with_reducible apply State.setPstate_keeps | with_reducible apply State.restoreBlk_keeps
    | with_reducible apply State.refreshFio_keeps | with_reducible apply State.wr_keeps | with_reducible apply Keeps.ite
    | with_reducible apply Keeps.ite1 | with_reducible apply Keeps.foldl | with_reducible apply Keeps.foldl1
    | with_reducible apply Keeps.foldl2 | intro _ _ _ | intro _ _ | split

theorem execDomainPowerUp_keeps {z0 : State} {t n : Nat} {s : State} (hs : Keeps z0 s) : OKeeps z0 (execDomainPowerUp t n s) := by
  unfold execDomainPowerUp
  try dsimp only
  repeat' first
    | with_reducible assumption | with_reducible apply State.at_keeps | with_reducible apply State.upDom_keeps
    | with_reducible apply OKeeps.next | with_reducible apply OKeeps.ite | with_reducible apply Keeps.ite | split

theorem execDomainPowerDown_keeps {z0 : State} {t n : Nat} {s : State} (hs : Keeps z0 s) : OKeeps z0 (execDomainPowerDown t n s) := by
  unfold execDomainPowerDown
  try dsimp only
  repeat' first
    | with_reducible assumption | with_reducible apply State.at_keeps | with_reducible apply State.cutDom_keeps
    | with_reducible apply State.setPstate_keeps | with_reducible apply OKeeps.next | with_reducible apply OKeeps.ite
    | with_reducible apply Keeps.ite | split

theorem State.coreOff_keeps {z0 s : State} {k : Nat} (hs : Keeps z0 s) : Keeps z0 (State.coreOff s k) := by
  unfold State.coreOff
  try dsimp only
  repeat' first
    | with_reducible assumption | with_reducible apply State.setPwr_keeps | with_reducible apply State.wr_keeps
    | with_reducible apply State.setPstate_keeps | with_reducible apply Keeps.ite | split

theorem State.coreReq_keeps {z0 s : State} {k v : Nat} (hs : Keeps z0 s) : Keeps z0 (State.coreReq s k v) := by
  unfold State.coreReq
  try dsimp only
  repeat' first
    | with_reducible assumption | with_reducible apply State.setPwr_keeps | with_reducible apply State.setPstate_keeps
    | with_reducible apply Keeps.ite | split

theorem execPwrMcCtrl_keeps {z0 : State} {t i v : Nat} {s : State} (hs : Keeps z0 s) : OKeeps z0 (execPwrMcCtrl t i v s) := by
  unfold execPwrMcCtrl
  try dsimp only
  repeat' first
    | with_reducible assumption | with_reducible apply State.at_keeps | with_reducible apply State.deny_keeps
    | with_reducible apply State.coreReq_keeps | with_reducible apply State.wr_keeps | with_reducible apply OKeeps.next
    | with_reducible apply OKeeps.ite | with_reducible apply Keeps.ite | with_reducible apply Keeps.ite1
    | with_reducible apply Keeps.foldl | with_reducible apply Keeps.foldl1 | with_reducible apply Keeps.foldl2 | intro _ _ _
    | intro _ _ | split

theorem execCoreWaitForInterrupt_keeps {z0 : State} {t k : Nat} {s : State} (hs : Keeps z0 s) : OKeeps z0 (execCoreWaitForInterrupt t k s) := by
  unfold execCoreWaitForInterrupt
  try dsimp only
  repeat' first
    | with_reducible assumption | with_reducible apply State.at_keeps | with_reducible apply State.coreOff_keeps
    | with_reducible apply OKeeps.next | with_reducible apply OKeeps.ite | with_reducible apply Keeps.ite | split

theorem State.entered_keeps {z0 s : State} {tgt : Nat} (hs : Keeps z0 s) : Keeps z0 (State.entered s tgt) := by
  unfold State.entered
  try dsimp only
  repeat' first
    | with_reducible assumption | with_reducible apply State.inc_keeps | with_reducible apply State.wr_keeps

theorem State.sleepReq_keeps {z0 s : State} {i tgt : Nat} (hs : Keeps z0 s) : Keeps z0 (State.sleepReq s i tgt) := by
  unfold State.sleepReq
  try dsimp only
  repeat' first
    | with_reducible assumption | with_reducible apply State.wr_keeps | with_reducible apply State.entered_keeps
    | with_reducible apply State.setPwr_keeps | with_reducible apply Keeps.ite | split

theorem execPwrSleep_keeps {z0 : State} {t i v : Nat} {s : State} (hs : Keeps z0 s) : OKeeps z0 (execPwrSleep t i v s) := by
  unfold execPwrSleep
  try dsimp only
  repeat' first
    | with_reducible assumption | with_reducible apply State.at_keeps | with_reducible apply State.deny_keeps
    | with_reducible apply State.wr_keeps | with_reducible apply State.sleepReq_keeps | with_reducible apply OKeeps.next
    | with_reducible apply OKeeps.ite | with_reducible apply Keeps.ite | split

theorem State.setHeld_keeps {z0 s : State} {n v : Nat} (hs : Keeps z0 s) : Keeps z0 (State.setHeld s n v) := by
  unfold State.setHeld
  try dsimp only
  repeat' first
    | with_reducible assumption | with_reducible apply State.wr_keeps | with_reducible apply Keeps.ite | split

theorem State.enterSleep_keeps {z0 s : State} {tgt : Nat} (hs : Keeps z0 s) : Keeps z0 (State.enterSleep s tgt) := by
  unfold State.enterSleep
  try dsimp only
  repeat' first
    | with_reducible assumption | with_reducible apply State.flushSlices_keeps | with_reducible apply State.setHeld_keeps
    | with_reducible apply State.setPwr_keeps | with_reducible apply State.entered_keeps | with_reducible apply State.cutDom_keeps
    | with_reducible apply Keeps.ite | with_reducible apply Keeps.ite1 | with_reducible apply Keeps.foldl
    | with_reducible apply Keeps.foldl1 | with_reducible apply Keeps.foldl2 | intro _ _ _ | intro _ _ | split

theorem execSleepEntered_keeps {z0 : State} {t : Nat} {s : State} (hs : Keeps z0 s) : OKeeps z0 (execSleepEntered t s) := by
  unfold execSleepEntered
  try dsimp only
  repeat' first
    | with_reducible assumption | with_reducible apply State.at_keeps | with_reducible apply State.enterSleep_keeps
    | with_reducible apply OKeeps.next | with_reducible apply OKeeps.ite | with_reducible apply Keeps.ite
    | with_reducible apply Keeps.ite1 | split

theorem execWake_keeps {z0 : State} {t src : Nat} {s : State} (hs : Keeps z0 s) : OKeeps z0 (execWake t src s) := by
  unfold execWake
  try dsimp only
  repeat' first
    | with_reducible assumption | with_reducible apply State.wake_keeps | with_reducible apply State.at_keeps
    | with_reducible apply OKeeps.next | with_reducible apply OKeeps.ite | with_reducible apply Keeps.ite | split

theorem execPwrDbell_keeps {z0 : State} {t i v : Nat} {s : State} (hs : Keeps z0 s) : OKeeps z0 (execPwrDbell t i v s) := by
  unfold execPwrDbell
  try dsimp only
  repeat' first
    | with_reducible assumption | with_reducible apply State.wake_keeps | with_reducible apply State.at_keeps
    | with_reducible apply OKeeps.next | with_reducible apply OKeeps.ite | with_reducible apply Keeps.ite | split

theorem State.onAgain_keeps {z0 s : State} {b : Nat} (hs : Keeps z0 s) : Keeps z0 (State.onAgain s b) := by
  unfold State.onAgain
  try dsimp only
  repeat' first
    | with_reducible assumption | with_reducible apply State.wr_keeps | with_reducible apply State.setFsm_keeps
    | with_reducible apply Keeps.ite | split

theorem State.exitOn_keeps {z0 s : State} {src : Nat} (hs : Keeps z0 s) : Keeps z0 (State.exitOn s src) := by
  unfold State.exitOn
  try dsimp only
  repeat' first
    | with_reducible assumption | with_reducible apply State.onAgain_keeps | with_reducible apply State.startHalter_keeps
    | with_reducible apply State.wr_keeps | with_reducible apply Keeps.ite | split

theorem State.exitDone_keeps {z0 s : State} {src : Nat} (hs : Keeps z0 s) : Keeps z0 (State.exitDone s src) := by
  unfold State.exitDone
  try dsimp only
  repeat' first
    | with_reducible assumption | with_reducible apply State.upDom_keeps | with_reducible apply State.setPwr_keeps
    | with_reducible apply State.exitOn_keeps | with_reducible apply State.wr_keeps | with_reducible apply Keeps.ite
    | with_reducible apply Keeps.ite1 | with_reducible apply Keeps.foldl | with_reducible apply Keeps.foldl1
    | with_reducible apply Keeps.foldl2 | intro _ _ _ | intro _ _ | split

theorem execExitStepTimeout_keeps {z0 : State} {t : Nat} {s : State} (hs : Keeps z0 s) : OKeeps z0 (execExitStepTimeout t s) := by
  unfold execExitStepTimeout
  try dsimp only
  repeat' first
    | with_reducible assumption | with_reducible apply State.at_keeps | with_reducible apply State.setPwr_keeps
    | with_reducible apply OKeeps.next | with_reducible apply OKeeps.ite | with_reducible apply Keeps.ite
    | with_reducible apply Keeps.ite1 | split

theorem State.release1_keeps {z0 s : State} {n : Nat} (hs : Keeps z0 s) : Keeps z0 (State.release1 s n) := by
  unfold State.release1
  try dsimp only
  repeat' first
    | with_reducible assumption | with_reducible apply State.wr_keeps | with_reducible apply State.setHeld_keeps
    | with_reducible apply State.refreshFio_keeps | with_reducible apply Keeps.ite | split

theorem execPwrRelease_keeps {z0 : State} {t i : Nat} {hi : Bool} {v : Nat} {s : State} (hs : Keeps z0 s) :
    OKeeps z0 (execPwrRelease t i hi v s) := by
  unfold execPwrRelease
  try dsimp only
  repeat' first
    | with_reducible assumption | with_reducible apply State.at_keeps | with_reducible apply State.deny_keeps
    | with_reducible apply State.release1_keeps | with_reducible apply OKeeps.next | with_reducible apply OKeeps.ite
    | with_reducible apply Keeps.ite | with_reducible apply Keeps.ite1 | with_reducible apply Keeps.foldl
    | with_reducible apply Keeps.foldl1 | with_reducible apply Keeps.foldl2 | intro _ _ _ | intro _ _ | split

theorem State.camCtrl_keeps {z0 s : State} {b v : Nat} (hs : Keeps z0 s) : Keeps z0 (State.camCtrl s b v) := by
  unfold State.camCtrl
  try dsimp only
  repeat' first
    | with_reducible assumption | with_reducible apply State.enableReq_keeps | with_reducible apply State.setCam_keeps
    | with_reducible apply State.writeField_keeps | with_reducible apply Keeps.ite | with_reducible apply Keeps.ite1
    | with_reducible apply Keeps.foldl | with_reducible apply Keeps.foldl1 | with_reducible apply Keeps.foldl2 | intro _ _ _
    | intro _ _ | split

theorem State.ctrlKind_keeps {z0 s : State} {b v : Nat} (hs : Keeps z0 s) : Keeps z0 (State.ctrlKind s b v) := by
  unfold State.ctrlKind
  try dsimp only
  repeat' first
    | with_reducible assumption | with_reducible apply State.wr_keeps | with_reducible apply State.cluCtrl_keeps
    | with_reducible apply State.sdsCtrl_keeps | with_reducible apply State.camCtrl_keeps
    | with_reducible apply State.drainWrite_keeps | with_reducible apply State.enableReq_keeps | with_reducible apply Keeps.ite
    | split

theorem State.ctrlWrite_keeps {z0 s : State} {b v : Nat} (hs : Keeps z0 s) : Keeps z0 (State.ctrlWrite s b v) := by
  unfold State.ctrlWrite
  try dsimp only
  repeat' first
    | with_reducible assumption | with_reducible apply State.ctrlKind_keeps | with_reducible apply State.onStop_keeps
    | with_reducible apply State.capAll_keeps | with_reducible apply Keeps.ite | split

theorem State.fenceWrite_keeps {z0 s : State} {b v : Nat} (hs : Keeps z0 s) : Keeps z0 (State.fenceWrite s b v) := by
  unfold State.fenceWrite
  try dsimp only
  repeat' first
    | with_reducible assumption | with_reducible apply State.onFence_keeps | with_reducible apply State.wr_keeps
    | with_reducible apply Keeps.ite | split

theorem State.resetWrite_keeps {z0 s : State} {b v : Nat} (hs : Keeps z0 s) : Keeps z0 (State.resetWrite s b v) := by
  unfold State.resetWrite
  try dsimp only
  repeat' first
    | with_reducible assumption | with_reducible apply State.wr_keeps | with_reducible apply Keeps.ite | split

theorem State.snapWrite_keeps {z0 s : State} {b v : Nat} (hs : Keeps z0 s) : Keeps z0 (State.snapWrite s b v) := by
  unfold State.snapWrite
  try dsimp only
  repeat' first
    | with_reducible assumption | with_reducible apply State.snapBlk_keeps | with_reducible apply Keeps.ite | split

theorem State.commonWrite_keeps {z0 s : State} {b off v : Nat} (hs : Keeps z0 s) : Keeps z0 (State.commonWrite s b off v) := by
  unfold State.commonWrite
  try dsimp only
  repeat' first
    | with_reducible assumption | with_reducible apply State.ctrlWrite_keeps | with_reducible apply State.fenceWrite_keeps
    | with_reducible apply State.resetWrite_keeps | with_reducible apply State.snapWrite_keeps
    | with_reducible apply State.writeFields_keeps | with_reducible apply Keeps.ite | split

theorem execStartupComplete_keeps {z0 : State} {t b : Nat} {s : State} (hs : Keeps z0 s) : OKeeps z0 (execStartupComplete t b s) := by
  unfold execStartupComplete
  try dsimp only
  repeat' first
    | with_reducible assumption | with_reducible apply State.at_keeps | with_reducible apply State.onEnter_keeps
    | with_reducible apply State.setFsm_keeps | with_reducible apply OKeeps.next | with_reducible apply OKeeps.ite
    | with_reducible apply Keeps.ite | split

theorem State.easeRail_keeps {z0 t : State} {b : Nat} (ht : Keeps z0 t) : Keeps z0 (State.easeRail t b) := by
  unfold State.easeRail
  try dsimp only
  repeat' first
    | with_reducible assumption | with_reducible apply State.askRail_keeps | with_reducible apply Keeps.ite | split

theorem execShutdownComplete_keeps {z0 : State} {t b : Nat} {s : State} (hs : Keeps z0 s) : OKeeps z0 (execShutdownComplete t b s) := by
  unfold execShutdownComplete
  try dsimp only
  repeat' first
    | with_reducible assumption | with_reducible apply State.at_keeps | with_reducible apply State.onOff_keeps
    | with_reducible apply State.easeRail_keeps | with_reducible apply State.passOff_keeps | with_reducible apply State.toOff_keeps
    | with_reducible apply State.showLane_keeps | with_reducible apply OKeeps.next | with_reducible apply OKeeps.ite
    | with_reducible apply Keeps.ite | split

theorem execFenceComplete_keeps {z0 : State} {t b : Nat} {s : State} (hs : Keeps z0 s) : OKeeps z0 (execFenceComplete t b s) := by
  unfold execFenceComplete
  try dsimp only
  repeat' first
    | with_reducible assumption | with_reducible apply State.at_keeps | with_reducible apply State.onLeave_keeps
    | with_reducible apply State.setFsm_keeps | with_reducible apply State.onHalt_keeps | with_reducible apply State.showLane_keeps
    | with_reducible apply OKeeps.next | with_reducible apply OKeeps.ite | with_reducible apply Keeps.ite | split

theorem execFunctionResetEnd_keeps {z0 : State} {t b : Nat} {s : State} (hs : Keeps z0 s) : OKeeps z0 (execFunctionResetEnd t b s) := by
  unfold execFunctionResetEnd
  try dsimp only
  repeat' first
    | with_reducible assumption | with_reducible apply State.at_keeps | with_reducible apply State.wipe_keeps
    | with_reducible apply State.setPwr_keeps | with_reducible apply State.easeRail_keeps | with_reducible apply State.toOff_keeps
    | with_reducible apply State.showLane_keeps | with_reducible apply State.capAll_keeps
    | with_reducible apply State.refreshFio_keeps | with_reducible apply OKeeps.next | with_reducible apply OKeeps.ite
    | with_reducible apply Keeps.ite | split

theorem execInternalFault_keeps {z0 : State} {t b : Nat} {s : State} (hs : Keeps z0 s) : OKeeps z0 (execInternalFault t b s) := by
  unfold execInternalFault
  try dsimp only
  repeat' first
    | with_reducible assumption | with_reducible apply State.at_keeps | with_reducible apply State.onLeave_keeps
    | with_reducible apply State.setFsm_keeps | with_reducible apply State.onHalt_keeps | with_reducible apply State.showLane_keeps
    | with_reducible apply OKeeps.next | with_reducible apply OKeeps.ite | with_reducible apply Keeps.ite | split

end Sys2Proof.Machine
end

