-- ==== Sys2Proof/Laws/KeepsCommands.lean ====
section
/-!
SUPPORT. What is kept (Keeps) by the remaining fused commands, the scheduler's commands, epochs, register writes, the factory program, host and sideband.
-/

namespace Sys2Proof.Machine

set_option linter.unreachableTactic false
set_option linter.unusedTactic false
set_option maxRecDepth 100000
set_option linter.unusedVariables false

theorem Pool.body_keeps {z0 s : State} {c : Pool} {t cl : Nat} (hs : Keeps z0 s) : Keeps z0 (Pool.body c t s cl).s :=
  State.readAll_keeps hs

theorem State.startPool_keeps {z0 s : State} {q : Nat} (hs : Keeps z0 s) : Keeps z0 (State.startPool s q) := by
  unfold State.startPool
  try dsimp only
  repeat' first
    | with_reducible assumption | with_reducible apply State.startFused_keeps | with_reducible apply State.fusedCheck_keeps
    | with_reducible apply State.beginFused_keeps | intro _ _ _ | intro _ _

theorem execPooling_keeps {z0 : State} {t x : Nat} {s : State} (hs : Keeps z0 s) : OKeeps z0 (execPooling t x s) := by
  unfold execPooling
  try dsimp only
  repeat' first
    | with_reducible assumption | with_reducible apply State.startPool_keeps | with_reducible apply State.at_keeps
    | with_reducible apply OKeeps.next

theorem Up.body_keeps {z0 s : State} {c : Up} {t cl : Nat} (hs : Keeps z0 s) : Keeps z0 (Up.body c t s cl).s :=
  State.readAll_keeps hs

theorem State.startUp_keeps {z0 s : State} {q : Nat} (hs : Keeps z0 s) : Keeps z0 (State.startUp s q) := by
  unfold State.startUp
  try dsimp only
  repeat' first
    | with_reducible assumption | with_reducible apply State.startFused_keeps | with_reducible apply State.fusedCheck_keeps
    | with_reducible apply State.beginFused_keeps | intro _ _ _ | intro _ _

theorem execUpSampling_keeps {z0 : State} {t x : Nat} {s : State} (hs : Keeps z0 s) : OKeeps z0 (execUpSampling t x s) := by
  unfold execUpSampling
  try dsimp only
  repeat' first
    | with_reducible assumption | with_reducible apply State.startUp_keeps | with_reducible apply State.at_keeps
    | with_reducible apply OKeeps.next

theorem Reduce.body_keeps {z0 s : State} {c : Reduce} {cv : Conv} {t cl : Nat} (hs : Keeps z0 s) : Keeps z0 (Reduce.body c cv t s cl).s :=
  State.readAll_keeps hs

theorem State.startReduce_keeps {z0 s : State} {q : Nat} (hs : Keeps z0 s) : Keeps z0 (State.startReduce s q) := by
  unfold State.startReduce
  try dsimp only
  repeat' first
    | with_reducible assumption | with_reducible apply State.startFused_keeps | with_reducible apply State.hwRead_keeps
    | with_reducible apply State.refuseCmd_keeps | with_reducible apply State.fusedCheck_keeps
    | with_reducible apply State.beginFused_keeps | with_reducible apply Keeps.ite | with_reducible apply Keeps.ite1 | intro _ _ _
    | intro _ _ | split

theorem execPartialReduction_keeps {z0 : State} {t x : Nat} {s : State} (hs : Keeps z0 s) : OKeeps z0 (execPartialReduction t x s) := by
  unfold execPartialReduction
  try dsimp only
  repeat' first
    | with_reducible assumption | with_reducible apply State.startReduce_keeps | with_reducible apply State.at_keeps
    | with_reducible apply OKeeps.next

theorem State.readLayers_keeps {z0 s : State} {f : Fused} (hs : Keeps z0 s) : Keeps z0 (State.readLayers s f).1 := by
  unfold State.readLayers
  try dsimp only
  repeat' first
    | with_reducible assumption | with_reducible apply State.hwRead_keeps | with_reducible apply Keeps.ite
    | with_reducible apply Keeps.ite1 | with_reducible apply Keeps.foldl | with_reducible apply Keeps.foldl1
    | with_reducible apply Keeps.foldl2 | intro _ _ _ | intro _ _ | split

theorem State.startStripes_keeps {z0 s : State} {q : Nat} (hs : Keeps z0 s) : Keeps z0 (State.startStripes s q) := by
  unfold State.startStripes
  try dsimp only
  repeat' first
    | with_reducible assumption | with_reducible apply State.startFused_keeps | with_reducible apply State.readLayers_keeps
    | with_reducible apply State.refuseCmd_keeps | with_reducible apply State.fusedCheck_keeps
    | with_reducible apply State.settleCmd_keeps | with_reducible apply State.modCmd_keeps | with_reducible apply Keeps.ite
    | with_reducible apply Keeps.ite1 | intro _ _ _ | intro _ _ | split

theorem execStripeGroup_keeps {z0 : State} {t x : Nat} {s : State} (hs : Keeps z0 s) : OKeeps z0 (execStripeGroup t x s) := by
  unfold execStripeGroup
  try dsimp only
  repeat' first
    | with_reducible assumption | with_reducible apply State.startStripes_keeps | with_reducible apply State.at_keeps
    | with_reducible apply OKeeps.next

theorem SLayer.declare_keeps {z0 : State} {l : SLayer} {s : State} {cl : Nat} (hs : Keeps z0 s) : Keeps z0 (SLayer.declare l s cl) := by
  unfold SLayer.declare
  try dsimp only
  repeat' first
    | with_reducible assumption | with_reducible apply State.declare_keeps | with_reducible apply Keeps.ite | split

theorem stripeBody_keeps {z0 s : State} {x : Cmd} {t cl : Nat} (hs : Keeps z0 s) : Keeps z0 (stripeBody x t s cl).s := by
  unfold stripeBody
  dsimp only
  refine Keeps.foldl1 hs (fun z e h => ?_)
  exact Keeps.ite1 h (Keeps.ite1 (State.readAll_keeps (SLayer.declare_keeps h)) (State.readAll_keeps (SLayer.declare_keeps h)))

theorem State.releasePool_keeps {z0 s : State} {x : Cmd} (hs : Keeps z0 s) : Keeps z0 (State.releasePool s x) := by
  unfold State.releasePool
  try dsimp only
  repeat' first
    | with_reducible assumption | with_reducible apply State.takeFree_keeps | with_reducible apply State.openBytes_keeps
    | with_reducible apply Keeps.ite | (fail_if_no_progress with_reducible refine Keeps.mk' ?_ rfl rfl rfl rfl rfl rfl rfl) | split

theorem State.stripesLate_keeps {z0 s : State} {p part : Nat} (hs : Keeps z0 s) : Keeps z0 (State.stripesLate s p part) := by
  unfold State.stripesLate
  try dsimp only
  repeat' first
    | with_reducible assumption | with_reducible apply State.endCmdTile_keeps | with_reducible apply State.noteLayer_keeps
    | with_reducible apply Keeps.foldl | with_reducible apply Keeps.foldl1 | with_reducible apply Keeps.foldl2 | intro _ _ _
    | intro _ _ | split

theorem State.stripesDue_keeps {z0 s : State} {q : Nat} (hs : Keeps z0 s) : Keeps z0 (State.stripesDue s q) := by
  unfold State.stripesDue
  try dsimp only
  repeat' first
    | with_reducible assumption | with_reducible apply State.stripesLate_keeps | with_reducible apply Keeps.ite
    | with_reducible apply Keeps.ite1 | split

theorem execStripeStart_keeps {z0 : State} {t x k : Nat} {s : State} (hs : Keeps z0 s) : OKeeps z0 (execStripeStart t x k s) := by
  unfold execStripeStart
  try dsimp only
  repeat' first
    | with_reducible assumption | with_reducible apply State.stripesDue_keeps | with_reducible apply State.at_keeps
    | with_reducible apply State.modCmd_keeps | with_reducible apply OKeeps.next | with_reducible apply OKeeps.ite
    | with_reducible apply Keeps.ite | with_reducible apply Keeps.ite1 | split

theorem fusedBody_keeps {z0 s : State} {x : Cmd} {t cl : Nat} (hs : Keeps z0 s) : Keeps z0 (fusedBody x t s cl).s := by
  unfold fusedBody
  generalize x.par.headD 0 = k
  match k with
  | 1 => exact Conv.body_keeps hs
  | 2 => exact Pool.body_keeps hs
  | 3 => exact Up.body_keeps hs
  | 4 => exact Reduce.body_keeps hs
  | 5 => exact stripeBody_keeps hs
  | 6 => exact attBody_keeps hs
  | 0 => exact projBody_keeps hs
  | _ + 7 => exact projBody_keeps hs

theorem State.startFusedTile_keeps {z0 s : State} {c : Nat} {x : Cmd} {n stage inj : Nat} {ups : List (Nat × Nat × Nat)} (hs : Keeps z0 s) :
    Keeps z0 (State.startFusedTile s c x n stage inj ups) := by
  unfold State.startFusedTile
  try dsimp only
  repeat' first
    | with_reducible assumption | with_reducible apply fusedBody_keeps | with_reducible apply State.setTile_some_keeps
    | exact fun _ => Tile.blank_inRange rfl rfl | with_reducible apply State.noteRan_keeps | with_reducible apply State.wr_keeps
    | with_reducible apply State.settleCmd_keeps | with_reducible apply State.endSegment_keeps
    | with_reducible apply State.updPage_keeps | with_reducible apply fusedBody_keeps | with_reducible apply State.setTile_none_keeps
    | with_reducible apply TileOut.s_keeps | with_reducible apply State.endCmdTile_keeps | with_reducible apply State.noteLayer_keeps
    | with_reducible apply State.dropTile_keeps | with_reducible apply fusedBody_keeps | with_reducible apply Keeps.ite
    | with_reducible apply Keeps.ite1 | with_reducible apply Keeps.foldl | with_reducible apply Keeps.foldl1
    | with_reducible apply Keeps.foldl2 | intro _ _ _ | intro _ _ | split

theorem State.startAny_keeps {z0 s : State} {c : Nat} {x : Cmd} {n stage inj : Nat} {ups : List (Nat × Nat × Nat)} (hs : Keeps z0 s) :
    Keeps z0 (State.startAny s c x n stage inj ups) := by
  unfold State.startAny
  try dsimp only
  repeat' first
    | with_reducible assumption | with_reducible apply State.startTile_keeps | with_reducible apply State.startFusedTile_keeps
    | with_reducible apply Keeps.ite | split

theorem State.beginAny_keeps {z0 s : State} {c : Nat} {x : Cmd} (hs : Keeps z0 s) : Keeps z0 (State.beginAny s c x) := by
  unfold State.beginAny
  try dsimp only
  repeat' first
    | with_reducible assumption | with_reducible apply State.beginCmd_keeps | with_reducible apply State.startConv_keeps
    | with_reducible apply State.startPool_keeps | with_reducible apply State.startUp_keeps
    | with_reducible apply State.startReduce_keeps | with_reducible apply State.startStripes_keeps
    | with_reducible apply State.startAtt_keeps | with_reducible apply State.startProj_keeps
    | with_reducible apply State.startFused_keeps | with_reducible apply Keeps.ite | with_reducible apply Keeps.ite1 | intro _ _ _
    | intro _ _ | split

theorem State.dispatch_keeps {z0 : State} {x0 : Nat} {x1 : State} {x2 : Nat} {x3 : List (Nat × Nat × Nat)} (hx1 : Keeps z0 x1) :
    Keeps z0 (State.dispatch x0 x1 x2 x3) := by
  induction x0 generalizing x1 with
  | zero => exact hx1
  | succ _ ih =>
    unfold State.dispatch
    try dsimp only
    repeat' first
      | with_reducible assumption | with_reducible apply ih | with_reducible apply State.beginAny_keeps | with_reducible apply State.startAny_keeps
      | with_reducible apply State.modCmd_keeps | with_reducible apply State.startClock_keeps | with_reducible apply Keeps.ite
      | with_reducible apply Keeps.ite1 | split

theorem State.runForced_keeps {z0 s : State} {c : Nat} {f : Forced} {ups : List (Nat × Nat × Nat)} (hs : Keeps z0 s) :
    Keeps z0 (State.runForced s c f ups) := by
  unfold State.runForced
  try dsimp only
  repeat' first
    | with_reducible assumption | with_reducible apply State.startClock_keeps | with_reducible apply State.setSch_keeps
    | with_reducible apply State.settleCmd_keeps | with_reducible apply State.startAny_keeps | with_reducible apply Keeps.ite
    | with_reducible apply Keeps.ite1 | split

theorem execTileDispatch_keeps {z0 : State} {t c : Nat} {ups : List (Nat × Nat × Nat)} {ecc : List Nat} {s : State} (hs : Keeps z0 s) :
    OKeeps z0 (execTileDispatch t c ups ecc s) := by
  unfold execTileDispatch
  try dsimp only
  repeat' first
    | with_reducible assumption | with_reducible apply State.icSpoil_keeps | with_reducible apply State.at_keeps
    | with_reducible apply State.runForced_keeps | with_reducible apply State.dispatch_keeps | with_reducible apply OKeeps.next
    | with_reducible apply OKeeps.ite | with_reducible apply Keeps.ite | with_reducible apply Keeps.ite1 | split

theorem State.segTileDone_keeps {z0 s : State} {q : Nat} {t : Tile} (hs : Keeps z0 s) : Keeps z0 (State.segTileDone s q t) := by
  unfold State.segTileDone
  try dsimp only
  repeat' first
    | with_reducible assumption | with_reducible apply State.readyTiles_keeps | with_reducible apply State.modCmd_keeps
    | with_reducible apply projAfter_keeps | with_reducible apply State.writeSegStatus_keeps | with_reducible apply Keeps.ite
    | with_reducible apply Keeps.ite1 | split

theorem State.fusedTileDone_keeps {z0 s : State} {t : Tile} (hs : Keeps z0 s) : Keeps z0 (State.fusedTileDone s t) := by
  unfold State.fusedTileDone
  try dsimp only
  repeat' first
    | with_reducible assumption | with_reducible apply State.releasePool_keeps | with_reducible apply State.segTileDone_keeps
    | with_reducible apply Keeps.ite | with_reducible apply Keeps.ite1 | split

theorem State.completeTile_keeps {z0 s : State} {c : Nat} {t : Tile} (hs : Keeps z0 s) : Keeps z0 (State.completeTile s c t) := by
  unfold State.completeTile
  try dsimp only
  repeat' first
    | with_reducible assumption | with_reducible apply State.inc_keeps | with_reducible apply State.release_keeps
    | with_reducible apply State.dropTile_keeps | with_reducible apply State.retryOk_keeps
    | with_reducible apply State.settleCmd_keeps | with_reducible apply State.fusedTileDone_keeps | with_reducible apply Keeps.ite
    | split

theorem execTileEnd_keeps {z0 : State} {t c : Nat} {s : State} (hs : Keeps z0 s) : OKeeps z0 (execTileEnd t c s) := by
  unfold execTileEnd
  try dsimp only
  repeat' first
    | with_reducible assumption | with_reducible apply State.at_keeps | with_reducible apply State.tileMismatch_keeps
    | with_reducible apply State.completeTile_keeps | with_reducible apply OKeeps.next | with_reducible apply OKeeps.ite
    | with_reducible apply Keeps.ite | with_reducible apply Keeps.ite1 | split

theorem execTileHung_keeps {z0 : State} {t c : Nat} {s : State} (hs : Keeps z0 s) : OKeeps z0 (execTileHung t c s) := by
  unfold execTileHung
  try dsimp only
  repeat' first
    | with_reducible assumption | with_reducible apply State.at_keeps | with_reducible apply State.tileMismatch_keeps
    | with_reducible apply OKeeps.next | with_reducible apply OKeeps.ite | with_reducible apply Keeps.ite
    | with_reducible apply Keeps.ite1 | split

theorem execSchQDb_keeps {z0 : State} {t i q v : Nat} {s : State} (hs : Keeps z0 s) : OKeeps z0 (execSchQDb t i q v s) := by
  unfold execSchQDb
  try dsimp only
  repeat' first
    | with_reducible assumption | with_reducible apply State.at_keeps | with_reducible apply State.deny_keeps
    | with_reducible apply State.doorbell_keeps | with_reducible apply OKeeps.next | with_reducible apply OKeeps.ite
    | with_reducible apply Keeps.ite | split

theorem execQen_keeps {z0 : State} {t i q v : Nat} {s : State} (hs : Keeps z0 s) : OKeeps z0 (execQen t i q v s) := by
  unfold execQen
  try dsimp only
  repeat' first
    | with_reducible assumption | with_reducible apply State.at_keeps | with_reducible apply State.deny_keeps
    | with_reducible apply State.qCfgWrite_keeps | with_reducible apply OKeeps.next | with_reducible apply OKeeps.ite
    | with_reducible apply Keeps.ite | split

theorem execCommandComplete_keeps {z0 : State} {t x : Nat} {s : State} (hs : Keeps z0 s) : OKeeps z0 (execCommandComplete t x s) := by
  unfold execCommandComplete
  try dsimp only
  repeat' first
    | with_reducible assumption | with_reducible apply State.completeCmd_keeps | with_reducible apply State.at_keeps
    | with_reducible apply OKeeps.next

theorem execKeyRecompute_keeps {z0 : State} {t : Nat} {s : State} (hs : Keeps z0 s) : OKeeps z0 (execKeyRecompute t s) := by
  unfold execKeyRecompute
  try dsimp only
  repeat' first
    | with_reducible assumption | with_reducible apply State.at_keeps | with_reducible apply State.recompute_keeps
    | with_reducible apply OKeeps.next | with_reducible apply OKeeps.ite | with_reducible apply Keeps.ite | split

theorem execCommandDeadlinePassed_keeps {z0 : State} {t x : Nat} {s : State} (hs : Keeps z0 s) : OKeeps z0 (execCommandDeadlinePassed t x s) := by
  unfold execCommandDeadlinePassed
  try dsimp only
  repeat' first
    | with_reducible assumption | with_reducible apply State.at_keeps | with_reducible apply State.linkMissed_keeps
    | with_reducible apply State.dropForced_keeps | with_reducible apply State.modCmd_keeps | with_reducible apply OKeeps.next
    | with_reducible apply OKeeps.ite | with_reducible apply Keeps.ite | with_reducible apply Keeps.ite1 | split

theorem execCheckReport_keeps {z0 : State} {t p part c verdict status : Nat} {s : State} (hs : Keeps z0 s) :
    OKeeps z0 (execCheckReport t p part c verdict status s) := by
  unfold execCheckReport
  try dsimp only
  repeat' first
    | with_reducible assumption | with_reducible apply State.settleCtxs_keeps | with_reducible apply State.checkReport_keeps
    | with_reducible apply State.at_keeps | with_reducible apply OKeeps.next

theorem State.verdictDue_keeps {z0 s : State} {p k : Nat} (hs : Keeps z0 s) : Keeps z0 (State.verdictDue s p k) := by
  unfold State.verdictDue
  try dsimp only
  repeat' first
    | with_reducible assumption | with_reducible apply State.stripesLate_keeps | with_reducible apply State.settleCtxs_keeps
    | with_reducible apply State.deadlineAt_keeps | with_reducible apply State.acqDeadline_keeps | with_reducible apply Keeps.ite
    | with_reducible apply Keeps.ite1 | split

theorem execEarliestFiringDoubt_keeps {z0 : State} {t p k : Nat} {s : State} (hs : Keeps z0 s) : OKeeps z0 (execEarliestFiringDoubt t p k s) := by
  unfold execEarliestFiringDoubt
  try dsimp only
  repeat' first
    | with_reducible assumption | with_reducible apply State.at_keeps | with_reducible apply State.raise_keeps
    | with_reducible apply State.inc_keeps | with_reducible apply State.hwDoubt_keeps | with_reducible apply State.verdictDue_keeps
    | with_reducible apply OKeeps.next | with_reducible apply OKeeps.ite | with_reducible apply Keeps.ite
    | with_reducible apply Keeps.ite1 | split

theorem execVerdictDeadline_keeps {z0 : State} {t p k : Nat} {s : State} (hs : Keeps z0 s) : OKeeps z0 (execVerdictDeadline t p k s) := by
  unfold execVerdictDeadline
  try dsimp only
  repeat' first
    | with_reducible assumption | with_reducible apply State.at_keeps | with_reducible apply State.verdictDue_keeps
    | with_reducible apply OKeeps.next | with_reducible apply OKeeps.ite | with_reducible apply Keeps.ite
    | with_reducible apply Keeps.ite1 | split

theorem execCtxLoad_keeps {z0 : State} {t i k : Nat} {s : State} (hs : Keeps z0 s) : OKeeps z0 (execCtxLoad t i k s) := by
  unfold execCtxLoad
  try dsimp only
  repeat' first
    | with_reducible assumption | with_reducible apply State.at_keeps | with_reducible apply State.deny_keeps
    | with_reducible apply State.ctxCmd_keeps | with_reducible apply OKeeps.next | with_reducible apply OKeeps.ite
    | with_reducible apply Keeps.ite | split

theorem execUnload_keeps {z0 : State} {t i k : Nat} {s : State} (hs : Keeps z0 s) : OKeeps z0 (execUnload t i k s) := by
  unfold execUnload
  try dsimp only
  repeat' first
    | with_reducible assumption | with_reducible apply State.at_keeps | with_reducible apply State.deny_keeps
    | with_reducible apply State.ctxCmd_keeps | with_reducible apply OKeeps.next | with_reducible apply OKeeps.ite
    | with_reducible apply Keeps.ite | split

theorem execContextLoadDone_keeps {z0 : State} {t k : Nat} {s : State} (hs : Keeps z0 s) : OKeeps z0 (execContextLoadDone t k s) := by
  unfold execContextLoadDone
  try dsimp only
  repeat' first
    | with_reducible assumption | with_reducible apply State.at_keeps | with_reducible apply State.loadCtx_keeps
    | with_reducible apply State.loadStatus_keeps | with_reducible apply State.settleCtxs_keeps
    | with_reducible apply State.setSch_keeps | with_reducible apply State.setCtxState_keeps | with_reducible apply OKeeps.next
    | with_reducible apply OKeeps.ite | with_reducible apply Keeps.ite | with_reducible apply Keeps.ite1 | split

theorem State.lnkRead_keeps {z0 s : State} {a n : Nat} (hs : Keeps z0 s) : Keeps z0 (State.lnkRead s a n).1 := by
  unfold State.lnkRead
  try dsimp only
  repeat' first
    | with_reducible assumption | with_reducible apply State.hwRead_keeps | with_reducible apply Keeps.ite
    | with_reducible apply Keeps.ite1 | split

theorem State.readJob_keeps {z0 s : State} (hs : Keeps z0 s) : Keeps z0 (State.readJob s).1 := by
  unfold State.readJob
  try dsimp only
  repeat' first
    | with_reducible assumption | with_reducible apply State.lnkRead_keeps | with_reducible apply Keeps.ite
    | with_reducible apply Keeps.ite1 | split

theorem State.vote_keeps {z0 s : State} {cfg : Nat} {contract : List Nat} (hs : Keeps z0 s) : Keeps z0 (State.vote s cfg contract).1 := by
  unfold State.vote
  try dsimp only
  repeat' first
    | with_reducible assumption | with_reducible apply State.readJob_keeps | with_reducible apply Keeps.ite
    | with_reducible apply Keeps.ite1 | (fail_if_no_progress with_reducible refine Keeps.mk' ?_ rfl rfl rfl rfl rfl rfl rfl) | split

theorem State.setEpoch_keeps {z0 s : State} {e : Option Epoch} (hs : Keeps z0 s) : Keeps z0 (State.setEpoch s e) := by
  unfold State.setEpoch
  try dsimp only
  repeat' first
    | with_reducible assumption | with_reducible apply State.setLnk_keeps

theorem State.setEstate_keeps {z0 s : State} {v : Nat} (hs : Keeps z0 s) : Keeps z0 (State.setEstate s v) := by
  unfold State.setEstate
  try dsimp only
  repeat' first
    | with_reducible assumption | with_reducible apply State.wr_keeps

theorem State.setCause_keeps {z0 s : State} {v : Nat} (hs : Keeps z0 s) : Keeps z0 (State.setCause s v) := by
  unfold State.setCause
  try dsimp only
  repeat' first
    | with_reducible assumption | with_reducible apply State.wr_keeps

theorem State.dropEpoch_keeps {z0 s : State} {cause refuser : Nat} (hs : Keeps z0 s) : Keeps z0 (State.dropEpoch s cause refuser) := by
  unfold State.dropEpoch
  try dsimp only
  repeat' first
    | with_reducible assumption | with_reducible apply State.setLnk_keeps | with_reducible apply State.wr_keeps
    | with_reducible apply State.setCause_keeps | with_reducible apply State.setEstate_keeps | with_reducible apply State.inc_keeps
    | (fail_if_no_progress with_reducible refine Keeps.mk' ?_ rfl rfl rfl rfl rfl rfl rfl) | split

theorem State.abortEpoch_keeps {z0 s : State} {e : Epoch} {cause refuser : Nat} (hs : Keeps z0 s) :
    Keeps z0 (State.abortEpoch s e cause refuser) := by
  unfold State.abortEpoch
  try dsimp only
  repeat' first
    | with_reducible assumption | with_reducible apply State.dropEpoch_keeps | with_reducible apply State.sendFrame_keeps

theorem State.takeCommit_keeps {z0 s : State} {out : Nat} {acts : List Nat} (hs : Keeps z0 s) : Keeps z0 (State.takeCommit s out acts) := by
  unfold State.takeCommit
  try dsimp only
  repeat' first
    | with_reducible assumption | with_reducible apply State.setEstate_keeps | with_reducible apply State.setEpoch_keeps | split

theorem State.decideEpoch_keeps {z0 s : State} (hs : Keeps z0 s) : Keeps z0 (State.decideEpoch s) := by
  unfold State.decideEpoch
  try dsimp only
  repeat' first
    | with_reducible assumption | with_reducible apply State.abortEpoch_keeps | with_reducible apply State.takeCommit_keeps
    | with_reducible apply State.sendFrame_keeps | with_reducible apply Keeps.ite | with_reducible apply Keeps.ite1
    | with_reducible apply Keeps.foldl | with_reducible apply Keeps.foldl1 | with_reducible apply Keeps.foldl2 | intro _ _ _
    | intro _ _ | split

theorem State.takeVote_keeps {z0 s : State} {num m : Nat} {v : Vote} (hs : Keeps z0 s) : Keeps z0 (State.takeVote s num m v) := by
  unfold State.takeVote
  try dsimp only
  repeat' first
    | with_reducible assumption | with_reducible apply State.decideEpoch_keeps | with_reducible apply State.setEpoch_keeps
    | with_reducible apply Keeps.ite | with_reducible apply Keeps.ite1 | split

theorem State.declareStreams_keeps {z0 s : State} (hs : Keeps z0 s) : Keeps z0 (State.declareStreams s) := by
  unfold State.declareStreams
  try dsimp only
  repeat' first
    | with_reducible assumption | with_reducible apply State.declare_keeps | with_reducible apply Keeps.foldl
    | with_reducible apply Keeps.foldl1 | with_reducible apply Keeps.foldl2 | intro _ _ _ | intro _ _ | split

theorem State.castVote_keeps {z0 s : State} {e : Epoch} {contract : List Nat} (hs : Keeps z0 s) : Keeps z0 (State.castVote s e contract) := by
  unfold State.castVote
  try dsimp only
  repeat' first
    | with_reducible assumption | with_reducible apply State.vote_keeps | with_reducible apply State.declareStreams_keeps
    | with_reducible apply State.takeVote_keeps | with_reducible apply State.sendFrame_keeps | with_reducible apply Keeps.ite
    | with_reducible apply Keeps.ite1 | with_reducible apply Keeps.foldl | with_reducible apply Keeps.foldl1
    | with_reducible apply Keeps.foldl2 | intro _ _ _ | intro _ _ | split

theorem State.announce_keeps {z0 s : State} {port : Nat} {pos : Int} {cfg : Nat} (hs : Keeps z0 s) : Keeps z0 (State.announce s port pos cfg) := by
  unfold State.announce
  try dsimp only
  repeat' first
    | with_reducible assumption | with_reducible apply State.wr_keeps | with_reducible apply State.setCause_keeps
    | with_reducible apply State.setEstate_keeps | with_reducible apply State.setEpoch_keeps
    | with_reducible apply State.castVote_keeps | with_reducible apply State.sendFrame_keeps

theorem execLnkEpochGo_keeps {z0 : State} {t i v : Nat} {s : State} (hs : Keeps z0 s) : OKeeps z0 (execLnkEpochGo t i v s) := by
  unfold execLnkEpochGo
  try dsimp only
  repeat' first
    | with_reducible assumption | with_reducible apply State.at_keeps | with_reducible apply State.deny_keeps
    | with_reducible apply State.setCause_keeps | with_reducible apply State.announce_keeps | with_reducible apply OKeeps.next
    | with_reducible apply OKeeps.ite | with_reducible apply Keeps.ite | split

theorem State.tryRevert_keeps {z0 s : State} (hs : Keeps z0 s) : Keeps z0 (State.tryRevert s) := by
  unfold State.tryRevert
  try dsimp only
  repeat' first
    | with_reducible assumption | with_reducible apply State.announce_keeps | with_reducible apply State.setLnk_keeps
    | with_reducible apply Keeps.ite | split

theorem State.endUpgrade_keeps {z0 s : State} (hs : Keeps z0 s) : Keeps z0 (State.endUpgrade s) := by
  unfold State.endUpgrade
  try dsimp only
  repeat' first
    | with_reducible assumption | with_reducible apply State.setLnk_keeps

theorem State.judgeUpgrade_keeps {z0 s : State} (hs : Keeps z0 s) : Keeps z0 (State.judgeUpgrade s) := by
  unfold State.judgeUpgrade
  try dsimp only
  repeat' first
    | with_reducible assumption | with_reducible apply State.tryRevert_keeps | with_reducible apply State.setLnk_keeps
    | with_reducible apply State.endUpgrade_keeps | with_reducible apply State.swapConfirm_keeps
    | with_reducible apply State.sendFrame_keeps | with_reducible apply Keeps.ite | split

theorem execUpgradeReport_keeps {z0 : State} {t a src : Nat} {ok : Bool} {s : State} (hs : Keeps z0 s) :
    OKeeps z0 (execUpgradeReport t a src ok s) := by
  unfold execUpgradeReport
  try dsimp only
  repeat' first
    | with_reducible assumption | with_reducible apply State.at_keeps | with_reducible apply State.judgeUpgrade_keeps
    | with_reducible apply State.onFrame_keeps | with_reducible apply State.setLnk_keeps
    | with_reducible apply State.endUpgrade_keeps | with_reducible apply State.swapConfirm_keeps | with_reducible apply OKeeps.next
    | with_reducible apply OKeeps.ite | with_reducible apply Keeps.ite | intro _ _ _ | intro _ _ | split

theorem execUpgradeTimeout_keeps {z0 : State} {t : Nat} {s : State} (hs : Keeps z0 s) : OKeeps z0 (execUpgradeTimeout t s) := by
  unfold execUpgradeTimeout
  try dsimp only
  repeat' first
    | with_reducible assumption | with_reducible apply State.at_keeps | with_reducible apply State.upgReport_keeps
    | with_reducible apply State.judgeUpgrade_keeps | with_reducible apply State.setLnk_keeps | with_reducible apply OKeeps.next
    | with_reducible apply OKeeps.ite | with_reducible apply Keeps.ite | with_reducible apply Keeps.ite1
    | with_reducible apply Keeps.foldl | with_reducible apply Keeps.foldl1 | with_reducible apply Keeps.foldl2 | intro _ _ _
    | intro _ _ | split

theorem execAnnounce_keeps {z0 : State} {t a num port : Nat} {pos : Int} {cfg : Nat} {contract : List Nat} {s : State} (hs : Keeps z0 s) :
    OKeeps z0 (execAnnounce t a num port pos cfg contract s) := by
  unfold execAnnounce
  try dsimp only
  repeat' first
    | with_reducible assumption | with_reducible apply State.at_keeps | with_reducible apply State.onFrame_keeps
    | with_reducible apply State.wr_keeps | with_reducible apply State.setCause_keeps | with_reducible apply State.setEstate_keeps
    | with_reducible apply State.setEpoch_keeps | with_reducible apply State.castVote_keeps | with_reducible apply OKeeps.next
    | with_reducible apply OKeeps.ite | with_reducible apply Keeps.ite | intro _ _ _ | intro _ _ | split

theorem execVote_keeps {z0 : State} {t a src num cause : Nat} {out : Bool} {act : Nat} {s : State} (hs : Keeps z0 s) :
    OKeeps z0 (execVote t a src num cause out act s) := by
  unfold execVote
  try dsimp only
  repeat' first
    | with_reducible assumption | with_reducible apply State.at_keeps | with_reducible apply State.onFrame_keeps
    | with_reducible apply State.tryRevert_keeps | with_reducible apply State.takeVote_keeps | with_reducible apply OKeeps.next
    | with_reducible apply OKeeps.ite | with_reducible apply Keeps.ite | intro _ _ _ | intro _ _ | split

theorem execVoteTimeout_keeps {z0 : State} {t : Nat} {s : State} (hs : Keeps z0 s) : OKeeps z0 (execVoteTimeout t s) := by
  unfold execVoteTimeout
  try dsimp only
  repeat' first
    | with_reducible assumption | with_reducible apply State.at_keeps | with_reducible apply State.tryRevert_keeps
    | with_reducible apply State.abortEpoch_keeps | with_reducible apply OKeeps.next | with_reducible apply OKeeps.ite
    | with_reducible apply Keeps.ite | with_reducible apply Keeps.ite1 | split

theorem execCommit_keeps {z0 : State} {t a num out : Nat} {acts : List Nat} {s : State} (hs : Keeps z0 s) :
    OKeeps z0 (execCommit t a num out acts s) := by
  unfold execCommit
  try dsimp only
  repeat' first
    | with_reducible assumption | with_reducible apply State.at_keeps | with_reducible apply State.onFrame_keeps
    | with_reducible apply State.takeCommit_keeps | with_reducible apply OKeeps.next | with_reducible apply OKeeps.ite
    | with_reducible apply Keeps.ite | with_reducible apply Keeps.ite1 | intro _ _ _ | intro _ _ | split

theorem execAbort_keeps {z0 : State} {t a num cause refuser : Nat} {s : State} (hs : Keeps z0 s) : OKeeps z0 (execAbort t a num cause refuser s) := by
  unfold execAbort
  try dsimp only
  repeat' first
    | with_reducible assumption | with_reducible apply State.at_keeps | with_reducible apply State.onFrame_keeps
    | with_reducible apply State.dropEpoch_keeps | with_reducible apply OKeeps.next | with_reducible apply OKeeps.ite
    | with_reducible apply Keeps.ite | with_reducible apply Keeps.ite1 | intro _ _ _ | intro _ _ | split

theorem State.takeBelow_keeps {z0 : State} {x0 : Nat} {x1 : State} {x2 : Nat} {x3 : Int} (hx1 : Keeps z0 x1) :
    Keeps z0 (State.takeBelow x0 x1 x2 x3) := by
  induction x0 generalizing x1 with
  | zero => exact hx1
  | succ _ ih =>
    unfold State.takeBelow
    try dsimp only
    repeat' first
      | with_reducible assumption | with_reducible apply ih | with_reducible apply State.takeStart_keeps | with_reducible apply Keeps.ite
      | with_reducible apply Keeps.ite1 | split

theorem State.applyContexts_keeps {z0 s : State} {mask : Nat} (hs : Keeps z0 s) : Keeps z0 (State.applyContexts s mask) := by
  unfold State.applyContexts
  try dsimp only
  repeat' first
    | with_reducible assumption | with_reducible apply State.setCtxState_keeps | with_reducible apply State.raise_keeps
    | with_reducible apply State.inc_keeps | with_reducible apply State.settleCtxs_keeps | with_reducible apply Keeps.ite
    | with_reducible apply Keeps.ite1 | with_reducible apply Keeps.foldl | with_reducible apply Keeps.foldl1
    | with_reducible apply Keeps.foldl2 | intro _ _ _ | intro _ _ | split

theorem State.applyMap_keeps {z0 s : State} (hs : Keeps z0 s) : Keeps z0 (State.applyMap s) := by
  unfold State.applyMap
  try dsimp only
  repeat' first
    | with_reducible assumption | with_reducible apply State.setShard_keeps | with_reducible apply Keeps.foldl
    | with_reducible apply Keeps.foldl1 | with_reducible apply Keeps.foldl2 | intro _ _ _ | intro _ _ | split

theorem State.dropCaches_keeps {z0 s : State} (hs : Keeps z0 s) : Keeps z0 (State.dropCaches s) := by
  unfold State.dropCaches
  try dsimp only
  repeat' first
    | with_reducible assumption | (with_reducible refine State.setClu_keeps ?_ rfl) | with_reducible apply Keeps.foldl
    | with_reducible apply Keeps.foldl1 | with_reducible apply Keeps.foldl2 | intro _ _ _ | intro _ _ | split

theorem State.applyFallback_keeps {z0 s : State} (hs : Keeps z0 s) : Keeps z0 (State.applyFallback s) := by
  unfold State.applyFallback
  try dsimp only
  repeat' first
    | with_reducible assumption | with_reducible apply State.setHlt_keeps

theorem State.applyGenerators_keeps {z0 s : State} (hs : Keeps z0 s) : Keeps z0 (State.applyGenerators s) := by
  unfold State.applyGenerators
  try dsimp only
  repeat' first
    | with_reducible assumption | with_reducible apply State.setFired_keeps | with_reducible apply Keeps.foldl
    | with_reducible apply Keeps.foldl1 | with_reducible apply Keeps.foldl2 | intro _ _ _ | intro _ _ | split

theorem State.applyPort_keeps {z0 s : State} {e : Epoch} {p : Nat} (hs : Keeps z0 s) : Keeps z0 (State.applyPort s e p) := by
  unfold State.applyPort
  try dsimp only
  repeat' first
    | with_reducible assumption | with_reducible apply State.setEjt_keeps | with_reducible apply Keeps.ite | split

theorem State.applyJob_keeps {z0 s : State} {e : Epoch} (hs : Keeps z0 s) : Keeps z0 (State.applyJob s e) := by
  unfold State.applyJob
  try dsimp only
  repeat' first
    | with_reducible assumption | with_reducible apply State.wr_keeps | with_reducible apply State.setLnk_keeps
    | with_reducible apply State.idEvent_keeps | with_reducible apply State.setSys_keeps | with_reducible apply Keeps.ite
    | (fail_if_no_progress with_reducible refine Keeps.mk' ?_ rfl rfl rfl rfl rfl rfl rfl) | split

theorem State.takeImages_keeps {z0 s : State} {bank : Nat} (hs : Keeps z0 s) : Keeps z0 (State.takeImages s bank) := by
  unfold State.takeImages
  try dsimp only
  repeat' first
    | with_reducible assumption | with_reducible apply State.loadImage_keeps | with_reducible apply State.setSys_keeps
    | with_reducible apply State.setLnk_keeps | with_reducible apply Keeps.foldl | with_reducible apply Keeps.foldl1
    | with_reducible apply Keeps.foldl2 | intro _ _ _ | intro _ _ | split

theorem State.applyBank_keeps {z0 s : State} {e : Epoch} {at_ : List Int} (hs : Keeps z0 s) : Keeps z0 (State.applyBank s e at_) := by
  unfold State.applyBank
  try dsimp only
  repeat' first
    | with_reducible assumption | with_reducible apply State.setSwap_keeps | with_reducible apply State.takeImages_keeps
    | with_reducible apply State.setLnk_keeps | with_reducible apply State.endUpgrade_keeps | with_reducible apply State.wr_keeps
    | with_reducible apply Keeps.ite | split

theorem State.applyEpoch_keeps {z0 s : State} {e : Epoch} (hs : Keeps z0 s) : Keeps z0 (State.applyEpoch s e) := by
  unfold State.applyEpoch
  try dsimp only
  repeat' first
    | with_reducible assumption | with_reducible apply State.takeBelow_keeps | with_reducible apply State.clmBefore_keeps
    | with_reducible apply State.tanBefore_keeps | with_reducible apply State.clmAfter_keeps
    | with_reducible apply State.tanAfter_keeps | with_reducible apply State.applyJob_keeps
    | with_reducible apply State.applyPort_keeps | with_reducible apply State.camEpoch_keeps
    | with_reducible apply State.applyContexts_keeps | with_reducible apply State.applyRoles_keeps
    | with_reducible apply State.dropCaches_keeps | with_reducible apply State.applyGenerators_keeps
    | with_reducible apply State.applyFallback_keeps | with_reducible apply State.setLnk_keeps
    | with_reducible apply State.absorbOut_keeps | with_reducible apply State.setMembers_keeps
    | with_reducible apply State.applyMap_keeps | with_reducible apply State.applyBank_keeps
    | with_reducible apply State.setEstate_keeps | with_reducible apply State.inc_keeps | with_reducible apply State.wr_keeps
    | with_reducible apply State.camQuits_keeps | with_reducible apply State.tryRevert_keeps
    | with_reducible apply State.sendMembers_keeps | with_reducible apply Keeps.ite | with_reducible apply Keeps.ite1
    | with_reducible apply Keeps.foldl | with_reducible apply Keeps.foldl1 | with_reducible apply Keeps.foldl2 | intro _ _ _
    | intro _ _ | (fail_if_no_progress with_reducible refine Keeps.mk' ?_ rfl rfl rfl rfl rfl rfl rfl) | split

theorem execEpochApply_keeps {z0 : State} {t : Nat} {s : State} (hs : Keeps z0 s) : OKeeps z0 (execEpochApply t s) := by
  unfold execEpochApply
  try dsimp only
  repeat' first
    | with_reducible assumption | with_reducible apply State.at_keeps | with_reducible apply State.applyEpoch_keeps
    | with_reducible apply State.tryRevert_keeps | with_reducible apply State.abortEpoch_keeps
    | with_reducible apply State.raise_keeps | with_reducible apply State.setCause_keeps | with_reducible apply State.setEpoch_keeps
    | with_reducible apply State.leaveService_keeps | with_reducible apply OKeeps.next | with_reducible apply OKeeps.ite
    | with_reducible apply Keeps.ite | with_reducible apply Keeps.ite1
    | (fail_if_no_progress with_reducible refine Keeps.mk' ?_ rfl rfl rfl rfl rfl rfl rfl) | split

theorem State.genTakes_keeps {z0 s : State} {k : Nat} (hs : Keeps z0 s) : Keeps z0 (State.genTakes s k) := by
  unfold State.genTakes
  try dsimp only
  repeat' first
    | with_reducible assumption | with_reducible apply State.setFired_keeps | with_reducible apply State.wrAct_keeps
    | with_reducible apply Keeps.ite | with_reducible apply Keeps.ite1 | with_reducible apply Keeps.foldl
    | with_reducible apply Keeps.foldl1 | with_reducible apply Keeps.foldl2 | intro _ _ _ | intro _ _ | split

theorem execJobEnded_keeps {z0 : State} {t : Nat} {s : State} (hs : Keeps z0 s) : OKeeps z0 (execJobEnded t s) := by
  unfold execJobEnded
  try dsimp only
  repeat' first
    | with_reducible assumption | with_reducible apply State.at_keeps | with_reducible apply State.wr_keeps
    | with_reducible apply State.setLnk_keeps | with_reducible apply State.genTakes_keeps | with_reducible apply OKeeps.next
    | with_reducible apply OKeeps.ite | with_reducible apply Keeps.ite | with_reducible apply Keeps.ite1
    | with_reducible apply Keeps.foldl | with_reducible apply Keeps.foldl1 | with_reducible apply Keeps.foldl2 | intro _ _ _
    | intro _ _ | split

theorem after_keeps {z0 s : State} {o : Host.Outcome State Fault Refusal} (hs : Keeps z0 s) (ho : OKeeps z0 o) : Keeps z0 (after s o) := by
  unfold after
  split
  · exact ho.out _ rfl
  · exact hs

theorem State.ringRead_keeps {z0 s : State} {b : Nat} {wr rd : Fld} {v : Nat} (hs : Keeps z0 s) : Keeps z0 (State.ringRead s b wr rd v) := by
  unfold State.ringRead
  try dsimp only
  repeat' first
    | with_reducible assumption | with_reducible apply State.wr_keeps | with_reducible apply Keeps.ite | split

theorem State.writePwr_keeps {z0 s : State} {i off v : Nat} (hs : Keeps z0 s) : SKeeps z0 id (State.writePwr s i off v) := by
  unfold State.writePwr
  try dsimp only
  repeat' first
    | with_reducible assumption | with_reducible apply after_keeps | with_reducible apply execPwrSleep_keeps
    | with_reducible apply execPwrRelease_keeps | with_reducible apply execPwrMcCtrl_keeps | with_reducible apply execPwrDbell_keeps
    | with_reducible apply Keeps.ite | with_reducible apply SKeeps.none | with_reducible apply SKeeps.state
    | with_reducible apply SKeeps.ite | split

theorem State.writeRst_keeps {z0 s : State} {i off v : Nat} (hs : Keeps z0 s) : SKeeps z0 id (State.writeRst s i off v) := by
  unfold State.writeRst
  try dsimp only
  repeat' first
    | with_reducible assumption | with_reducible apply after_keeps | with_reducible apply execRstSwreset_keeps
    | with_reducible apply State.swapCtrl_keeps | with_reducible apply execRstHostBoot_keeps | with_reducible apply Keeps.ite
    | with_reducible apply SKeeps.none | with_reducible apply SKeeps.state | with_reducible apply SKeeps.ite | split

theorem State.writeClk_keeps {z0 s : State} {off v : Nat} (hs : Keeps z0 s) : SKeeps z0 id (State.writeClk s off v) := by
  unfold State.writeClk
  try dsimp only
  repeat' first
    | with_reducible assumption | with_reducible apply State.writeFields_keeps | with_reducible apply State.retarget_keeps
    | with_reducible apply State.askRail_keeps | with_reducible apply State.driveOp_keeps | with_reducible apply Keeps.ite
    | with_reducible apply Keeps.ite1 | with_reducible apply SKeeps.none | with_reducible apply SKeeps.state
    | with_reducible apply SKeeps.ite | with_reducible apply Keeps.foldl | with_reducible apply Keeps.foldl1
    | with_reducible apply Keeps.foldl2 | intro _ _ _ | intro _ _ | split

theorem State.writeGen_keeps {z0 s : State} {off v : Nat} (hs : Keeps z0 s) : Keeps z0 (State.writeGen s off v) := by
  unfold State.writeGen
  try dsimp only
  repeat' first
    | with_reducible assumption | with_reducible apply State.writeFields_keeps | with_reducible apply State.setFired_keeps
    | with_reducible apply Keeps.ite | split

theorem State.writeTim_keeps {z0 s : State} {i off v : Nat} (hs : Keeps z0 s) : SKeeps z0 id (State.writeTim s i off v) := by
  unfold State.writeTim
  try dsimp only
  repeat' first
    | with_reducible assumption | with_reducible apply after_keeps | with_reducible apply execTimIncNs_keeps
    | with_reducible apply State.timCmd_keeps | with_reducible apply State.timGate_keeps
    | with_reducible apply State.writeFields_keeps | with_reducible apply State.wr_keeps | with_reducible apply State.writeGen_keeps
    | with_reducible apply Keeps.ite | with_reducible apply SKeeps.none | with_reducible apply SKeeps.state
    | with_reducible apply SKeeps.ite | intro _ _ _ | intro _ _ | split

theorem State.writeHlt_keeps {z0 s : State} {i off v : Nat} (hs : Keeps z0 s) : SKeeps z0 id (State.writeHlt s i off v) := by
  unfold State.writeHlt
  try dsimp only
  repeat' first
    | with_reducible assumption | with_reducible apply State.hltReq_keeps | with_reducible apply after_keeps
    | with_reducible apply execHltFbLoad_keeps | with_reducible apply execHltFwReqGo_keeps | with_reducible apply Keeps.ite
    | with_reducible apply SKeeps.none | with_reducible apply SKeeps.state | with_reducible apply SKeeps.ite | split

theorem State.writeEvq_keeps {z0 s : State} {off v : Nat} (hs : Keeps z0 s) : SKeeps z0 id (State.writeEvq s off v) := by
  unfold State.writeEvq
  try dsimp only
  repeat' first
    | with_reducible assumption | with_reducible apply State.ringRead_keeps | with_reducible apply State.writeFields_keeps
    | with_reducible apply Keeps.ite | with_reducible apply SKeeps.none | with_reducible apply SKeeps.state
    | with_reducible apply SKeeps.ite | split

theorem State.writeMem_keeps {z0 s : State} {off v : Nat} (hs : Keeps z0 s) : SKeeps z0 id (State.writeMem s off v) := by
  unfold State.writeMem
  try dsimp only
  repeat' first
    | with_reducible assumption | with_reducible apply Keeps.ite | with_reducible apply SKeeps.none
    | with_reducible apply SKeeps.state | with_reducible apply SKeeps.ite | split

theorem State.writeMem4_keeps {z0 s : State} {i off v : Nat} (hs : Keeps z0 s) : SKeeps z0 id (State.writeMem4 s i off v) := by
  unfold State.writeMem4
  try dsimp only
  repeat' first
    | with_reducible assumption | with_reducible apply State.logRelease_keeps | with_reducible apply State.injWrite_keeps
    | with_reducible apply Keeps.ite | with_reducible apply SKeeps.none | with_reducible apply SKeeps.state
    | with_reducible apply SKeeps.ite | split

theorem State.writeCq_keeps {z0 s : State} {c r off v : Nat} (hs : Keeps z0 s) : SKeeps z0 id (State.writeCq s c r off v) := by
  unfold State.writeCq
  try dsimp only
  repeat' first
    | with_reducible assumption | with_reducible apply State.writeFields_keeps | with_reducible apply State.ringRead_keeps
    | with_reducible apply State.wr_keeps | with_reducible apply State.retireAll_keeps | with_reducible apply State.cqFlush_keeps
    | with_reducible apply Keeps.ite | with_reducible apply SKeeps.none | with_reducible apply SKeeps.state
    | with_reducible apply SKeeps.ite | split

theorem State.writeSch_keeps {z0 s : State} {i off v : Nat} (hs : Keeps z0 s) : SKeeps z0 id (State.writeSch s i off v) := by
  unfold State.writeSch
  try dsimp only
  repeat' first
    | with_reducible assumption | with_reducible apply State.qCfgWrite_keeps | with_reducible apply State.doorbell_keeps
    | with_reducible apply State.ctxCmd_keeps | with_reducible apply after_keeps | with_reducible apply execSchSrqWr_keeps
    | with_reducible apply Keeps.ite | with_reducible apply State.writeCq_keeps
    | exact (State.writeCq_keeps (by with_reducible assumption)).out _ (by assumption) | with_reducible apply SKeeps.none
    | with_reducible apply SKeeps.state | with_reducible apply SKeeps.ite | split

theorem State.writeKvc_keeps {z0 s : State} {off v : Nat} (hs : Keeps z0 s) : SKeeps z0 id (State.writeKvc s off v) := by
  unfold State.writeKvc
  try dsimp only
  repeat' first
    | with_reducible assumption | with_reducible apply State.wr_keeps | with_reducible apply State.writeFields_keeps
    | with_reducible apply Keeps.ite | with_reducible apply SKeeps.none | with_reducible apply SKeeps.state
    | with_reducible apply SKeeps.ite | split

theorem State.writeLnk_keeps {z0 s : State} {i off v : Nat} (hs : Keeps z0 s) : SKeeps z0 id (State.writeLnk s i off v) := by
  unfold State.writeLnk
  try dsimp only
  repeat' first
    | with_reducible assumption | with_reducible apply after_keeps | with_reducible apply execLnkAssign_keeps
    | with_reducible apply execLnkEpochGo_keeps | with_reducible apply execLnkSsnapGo_keeps
    | with_reducible apply execLnkResetreq_keeps | with_reducible apply Keeps.ite | with_reducible apply SKeeps.none
    | with_reducible apply SKeeps.state | with_reducible apply SKeeps.ite | split

theorem State.writeTan_keeps {z0 s : State} {i off v : Nat} (hs : Keeps z0 s) : SKeeps z0 id (State.writeTan s i off v) := by
  unfold State.writeTan
  try dsimp only
  repeat' first
    | with_reducible assumption | with_reducible apply after_keeps | with_reducible apply execTanRingRel_keeps
    | with_reducible apply execTanArtDb_keeps | with_reducible apply State.wr_keeps | with_reducible apply execTanDictLoad_keeps
    | with_reducible apply execTanTxtqWr_keeps | with_reducible apply Keeps.ite | with_reducible apply SKeeps.none
    | with_reducible apply SKeeps.state | with_reducible apply SKeeps.ite | split

theorem State.writeClm_keeps {z0 s : State} {off v : Nat} (hs : Keeps z0 s) : SKeeps z0 id (State.writeClm s off v) := by
  unfold State.writeClm
  try dsimp only
  repeat' first
    | with_reducible assumption | with_reducible apply State.tloadWrite_keeps | with_reducible apply State.tabWrite_keeps
    | with_reducible apply Keeps.ite | with_reducible apply SKeeps.none | with_reducible apply SKeeps.state
    | with_reducible apply SKeeps.ite | split

theorem State.writeCam_keeps {z0 s : State} {i b off v : Nat} (hs : Keeps z0 s) : SKeeps z0 id (State.writeCam s i b off v) := by
  unfold State.writeCam
  try dsimp only
  repeat' first
    | with_reducible assumption | with_reducible apply after_keeps | with_reducible apply execPcamSerdataWrite_keeps
    | with_reducible apply Keeps.ite | with_reducible apply SKeeps.none | with_reducible apply SKeeps.state
    | with_reducible apply SKeeps.ite | split

theorem State.writeEjt_keeps {z0 s : State} {i p off v : Nat} (hs : Keeps z0 s) : SKeeps z0 id (State.writeEjt s i p off v) := by
  unfold State.writeEjt
  try dsimp only
  repeat' first
    | with_reducible assumption | with_reducible apply after_keeps | with_reducible apply execEjtXopen_keeps
    | with_reducible apply execEjtCommit_keeps | with_reducible apply execEjtFire_keeps | with_reducible apply State.ringRead_keeps
    | with_reducible apply Keeps.ite | with_reducible apply SKeeps.none | with_reducible apply SKeeps.state
    | with_reducible apply SKeeps.ite | split

theorem State.writeDma_keeps {z0 s : State} {i n off v : Nat} (hs : Keeps z0 s) : SKeeps z0 id (State.writeDma s i n off v) := by
  unfold State.writeDma
  try dsimp only
  repeat' first
    | with_reducible assumption | with_reducible apply State.writeFields_keeps | with_reducible apply after_keeps
    | with_reducible apply execHaltedClear_keeps | with_reducible apply execDmaHeadLo_keeps | with_reducible apply State.wr_keeps
    | with_reducible apply execDmaKick_keeps | with_reducible apply State.dmaFlush_keeps | with_reducible apply State.ringRead_keeps
    | with_reducible apply Keeps.ite | with_reducible apply SKeeps.none | with_reducible apply SKeeps.state
    | with_reducible apply SKeeps.ite | split

theorem State.specialWrite_keeps {z0 s : State} {i b off v : Nat} (hs : Keeps z0 s) : SKeeps z0 id (State.specialWrite s i b off v) := by
  unfold State.specialWrite
  try dsimp only
  repeat' first
    | with_reducible assumption | with_reducible apply State.refreshFio_keeps | with_reducible apply State.writeFields_keeps
    | with_reducible apply State.sdsTestBy_keeps | with_reducible apply Keeps.ite | with_reducible apply State.writePwr_keeps
    | exact (State.writePwr_keeps (by with_reducible assumption)).out _ (by assumption) | with_reducible apply State.writeRst_keeps
    | exact (State.writeRst_keeps (by with_reducible assumption)).out _ (by assumption) | with_reducible apply State.writeClk_keeps
    | exact (State.writeClk_keeps (by with_reducible assumption)).out _ (by assumption) | with_reducible apply State.writeTim_keeps
    | exact (State.writeTim_keeps (by with_reducible assumption)).out _ (by assumption) | with_reducible apply State.writeHlt_keeps
    | exact (State.writeHlt_keeps (by with_reducible assumption)).out _ (by assumption) | with_reducible apply State.writeEvq_keeps
    | exact (State.writeEvq_keeps (by with_reducible assumption)).out _ (by assumption) | with_reducible apply State.writeMem_keeps
    | exact (State.writeMem_keeps (by with_reducible assumption)).out _ (by assumption) | with_reducible apply State.writeMem4_keeps
    | exact (State.writeMem4_keeps (by with_reducible assumption)).out _ (by assumption) | with_reducible apply State.writeSch_keeps
    | exact (State.writeSch_keeps (by with_reducible assumption)).out _ (by assumption) | with_reducible apply State.writeKvc_keeps
    | exact (State.writeKvc_keeps (by with_reducible assumption)).out _ (by assumption) | with_reducible apply State.writeLnk_keeps
    | exact (State.writeLnk_keeps (by with_reducible assumption)).out _ (by assumption) | with_reducible apply State.writeTan_keeps
    | exact (State.writeTan_keeps (by with_reducible assumption)).out _ (by assumption) | with_reducible apply State.writeClm_keeps
    | exact (State.writeClm_keeps (by with_reducible assumption)).out _ (by assumption) | with_reducible apply State.writeCam_keeps
    | exact (State.writeCam_keeps (by with_reducible assumption)).out _ (by assumption) | with_reducible apply State.writeEjt_keeps
    | exact (State.writeEjt_keeps (by with_reducible assumption)).out _ (by assumption) | with_reducible apply State.writeDma_keeps
    | exact (State.writeDma_keeps (by with_reducible assumption)).out _ (by assumption) | with_reducible apply SKeeps.none
    | with_reducible apply SKeeps.state | with_reducible apply SKeeps.ite | split

theorem State.readTim_keeps {z0 s : State} {i off : Nat} (hs : Keeps z0 s) : SKeeps z0 Prod.fst (State.readTim s i off) := by
  unfold State.readTim
  try dsimp only
  repeat' first
    | with_reducible assumption | with_reducible apply after_keeps | with_reducible apply execTimNowNs_keeps
    | with_reducible apply execTimCapRecRead_keeps | with_reducible apply execTimPtpRecRead_keeps | with_reducible apply Keeps.ite
    | with_reducible apply SKeeps.none | with_reducible apply SKeeps.some | with_reducible apply SKeeps.ite
    | exact SKeeps.map (by with_reducible assumption) (fun _ => rfl) | split

theorem State.specialRead_keeps {z0 s : State} {i b off : Nat} (hs : Keeps z0 s) : SKeeps z0 Prod.fst (State.specialRead s i b off) := by
  unfold State.specialRead
  try dsimp only
  repeat' first
    | with_reducible assumption | with_reducible apply State.settleStart_keeps | with_reducible apply after_keeps
    | with_reducible apply execPcamSerdataRead_keeps | with_reducible apply execFioPrbRecRead_keeps
    | with_reducible apply execStpPosLoRead_keeps | with_reducible apply Keeps.ite | with_reducible apply State.readTim_keeps
    | exact (State.readTim_keeps (by with_reducible assumption)).out (_, _) (by assumption) | with_reducible apply SKeeps.getD
    | with_reducible apply SKeeps.none | with_reducible apply SKeeps.some | with_reducible apply SKeeps.ite
    | exact SKeeps.map (by with_reducible assumption) (fun _ => rfl) | split

theorem State.writeReg_keeps {z0 s : State} {i b off v : Nat} (hs : Keeps z0 s) : Keeps z0 (State.writeReg s i b off v) := by
  unfold State.writeReg
  try dsimp only
  repeat' first
    | with_reducible assumption | with_reducible apply State.commonWrite_keeps | with_reducible apply State.writeFields_keeps
    | with_reducible apply Keeps.ite | with_reducible apply Keeps.ite1 | with_reducible apply State.specialWrite_keeps
    | exact (State.specialWrite_keeps (by with_reducible assumption)).out _ (by assumption) | split

theorem State.readReg_keeps {z0 s : State} {i b off : Nat} (hs : Keeps z0 s) : Keeps z0 (State.readReg s i b off) := by
  unfold State.readReg
  try dsimp only
  repeat' first
    | with_reducible assumption | with_reducible apply State.answer_keeps | with_reducible apply State.specialRead_keeps
    | exact (State.specialRead_keeps (by with_reducible assumption)).out (_, _) (by assumption) | with_reducible apply SKeeps.getD

theorem State.busAccess_keeps {z0 s : State} {i a : Nat} {data : Option Nat} (hs : Keeps z0 s) : Keeps z0 (State.busAccess s i a data) := by
  unfold State.busAccess
  try dsimp only
  repeat' first
    | with_reducible assumption | with_reducible apply State.answer_keeps | with_reducible apply State.deny_keeps
    | with_reducible apply State.wake_keeps | with_reducible apply State.setPwr_keeps | with_reducible apply State.writeReg_keeps
    | with_reducible apply State.readReg_keeps | with_reducible apply Keeps.ite | with_reducible apply Keeps.ite1 | split

theorem State.busWrite_keeps {z0 s : State} {i a v : Nat} (hs : Keeps z0 s) : Keeps z0 (State.busWrite s i a v) := by
  unfold State.busWrite
  try dsimp only
  repeat' first
    | with_reducible assumption | with_reducible apply State.busAccess_keeps

theorem State.busRead_keeps {z0 s : State} {i a : Nat} (hs : Keeps z0 s) : Keeps z0 (State.busRead s i a) := by
  unfold State.busRead
  try dsimp only
  repeat' first
    | with_reducible assumption | with_reducible apply State.busAccess_keeps

theorem execRegisterWrite_keeps {z0 : State} {t i addr v : Nat} {s : State} (hs : Keeps z0 s) : OKeeps z0 (execRegisterWrite t i addr v s) := by
  unfold execRegisterWrite
  try dsimp only
  repeat' first
    | with_reducible assumption | with_reducible apply State.busWrite_keeps | with_reducible apply State.at_keeps
    | with_reducible apply OKeeps.next

theorem execRingReadIndex_keeps {z0 : State} {t i addr v : Nat} {s : State} (hs : Keeps z0 s) : OKeeps z0 (execRingReadIndex t i addr v s) := by
  unfold execRingReadIndex
  try dsimp only
  repeat' first
    | with_reducible assumption | with_reducible apply State.busWrite_keeps | with_reducible apply State.at_keeps
    | with_reducible apply OKeeps.next

theorem execEnable_keeps {z0 : State} {t i b v : Nat} {s : State} (hs : Keeps z0 s) : OKeeps z0 (execEnable t i b v s) := by
  unfold execEnable
  try dsimp only
  repeat' first
    | with_reducible assumption | with_reducible apply State.busWrite_keeps | with_reducible apply State.at_keeps
    | with_reducible apply OKeeps.next

theorem execFence_keeps {z0 : State} {t i b v : Nat} {s : State} (hs : Keeps z0 s) : OKeeps z0 (execFence t i b v s) := by
  unfold execFence
  try dsimp only
  repeat' first
    | with_reducible assumption | with_reducible apply State.busWrite_keeps | with_reducible apply State.at_keeps
    | with_reducible apply OKeeps.next

theorem execReset_keeps {z0 : State} {t i b v : Nat} {s : State} (hs : Keeps z0 s) : OKeeps z0 (execReset t i b v s) := by
  unfold execReset
  try dsimp only
  repeat' first
    | with_reducible assumption | with_reducible apply State.busWrite_keeps | with_reducible apply State.at_keeps
    | with_reducible apply OKeeps.next

theorem execSnap_keeps {z0 : State} {t i b v : Nat} {s : State} (hs : Keeps z0 s) : OKeeps z0 (execSnap t i b v s) := by
  unfold execSnap
  try dsimp only
  repeat' first
    | with_reducible assumption | with_reducible apply State.busWrite_keeps | with_reducible apply State.at_keeps
    | with_reducible apply OKeeps.next

theorem State.exitEnd_keeps {z0 s : State} {src : Nat} (hs : Keeps z0 s) : Keeps z0 (State.exitEnd s src) := by
  unfold State.exitEnd
  try dsimp only
  repeat' first
    | with_reducible assumption | with_reducible apply State.exitDone_keeps | with_reducible apply State.busAccess_keeps
    | with_reducible apply State.setPwr_keeps | with_reducible apply Keeps.foldl | with_reducible apply Keeps.foldl1
    | with_reducible apply Keeps.foldl2 | intro _ _ _ | intro _ _ | split

theorem execExitStepReady_keeps {z0 : State} {t : Nat} {s : State} (hs : Keeps z0 s) : OKeeps z0 (execExitStepReady t s) := by
  unfold execExitStepReady
  try dsimp only
  repeat' first
    | with_reducible assumption | with_reducible apply State.at_keeps | with_reducible apply State.wr_keeps
    | with_reducible apply State.setPwr_keeps | with_reducible apply State.exitEnd_keeps | with_reducible apply OKeeps.next
    | with_reducible apply OKeeps.ite | with_reducible apply Keeps.ite | with_reducible apply Keeps.ite1 | split

theorem State.setFac_keeps {z0 s : State} {f : Factory} (hs : Keeps z0 s) : Keeps z0 (State.setFac s f) := by
  unfold State.setFac
  try dsimp only
  repeat' first
    | with_reducible assumption | with_reducible apply State.setSys_keeps

theorem State.say_keeps {z0 s : State} {vs : List Int} (hs : Keeps z0 s) : Keeps z0 (State.say s vs) := by
  unfold State.say
  try dsimp only
  repeat' first
    | with_reducible assumption | with_reducible apply State.send_keeps

theorem State.teachFail_keeps {z0 s : State} {cause : Nat} (hs : Keeps z0 s) : Keeps z0 (State.teachFail s cause) := by
  unfold State.teachFail
  try dsimp only
  repeat' first
    | with_reducible assumption | with_reducible apply State.say_keeps | with_reducible apply State.setFac_keeps

theorem State.teachStart_keeps {z0 s : State} (hs : Keeps z0 s) : Keeps z0 (State.teachStart s) := by
  unfold State.teachStart
  try dsimp only
  repeat' first
    | with_reducible assumption | with_reducible apply State.setFac_keeps

theorem State.listenCount_keeps {z0 s : State} {d : Int} (hs : Keeps z0 s) : Keeps z0 (State.listenCount s d) := by
  unfold State.listenCount
  try dsimp only
  repeat' first
    | with_reducible assumption | with_reducible apply State.setFac_keeps | with_reducible apply Keeps.ite | split

theorem State.makeForward_keeps {z0 s : State} {d : Int} (hs : Keeps z0 s) : Keeps z0 (State.makeForward s d) := by
  unfold State.makeForward
  try dsimp only
  repeat' first
    | with_reducible assumption | with_reducible apply State.wr_keeps | with_reducible apply State.setStp_keeps
    | with_reducible apply Keeps.ite | split

theorem State.factoryEdge_keeps {z0 s0 s : State} (hs0 : Keeps z0 s0) (hs : Keeps z0 s) : Keeps z0 (State.factoryEdge s0 s) := by
  unfold State.factoryEdge
  try dsimp only
  repeat' first
    | with_reducible assumption | with_reducible apply State.listenCount_keeps | with_reducible apply State.makeForward_keeps
    | with_reducible apply State.setFac_keeps | with_reducible apply State.teachStart_keeps
    | with_reducible apply State.teachFail_keeps | with_reducible apply Keeps.ite | split

theorem execEncoderEdge_keeps {z0 : State} {t p : Nat} {a b : Bool} {held : Nat} {s : State} (hs : Keeps z0 s) :
    OKeeps z0 (execEncoderEdge t p a b held s) := by
  unfold execEncoderEdge
  try dsimp only
  repeat' first
    | with_reducible assumption | with_reducible apply doEncoderEdge_keeps | with_reducible apply State.factoryEdge_keeps
    | with_reducible apply OKeeps.next | with_reducible apply OKeeps.ite | with_reducible apply Keeps.ite | split

theorem execSsiReadDone_keeps {z0 : State} {t p startBit word : Nat} {idleOk : Bool} {s : State} (hs : Keeps z0 s) :
    OKeeps z0 (execSsiReadDone t p startBit word idleOk s) := by
  unfold execSsiReadDone
  try dsimp only
  repeat' first
    | with_reducible assumption | with_reducible apply doSsiReadDone_keeps | with_reducible apply State.factoryEdge_keeps
    | with_reducible apply OKeeps.next | with_reducible apply OKeeps.ite | with_reducible apply Keeps.ite | split

theorem State.takeSsi_keeps {z0 s : State} (hs : Keeps z0 s) : Keeps z0 (State.takeSsi s) := by
  unfold State.takeSsi
  try dsimp only
  repeat' first
    | with_reducible assumption | with_reducible apply State.wr_keeps | with_reducible apply State.setFac_keeps

theorem execEncoderTypeTest_keeps {z0 : State} {t : Nat} {low : Bool} {highNs : Nat} {s : State} (hs : Keeps z0 s) :
    OKeeps z0 (execEncoderTypeTest t low highNs s) := by
  unfold execEncoderTypeTest
  try dsimp only
  repeat' first
    | with_reducible assumption | with_reducible apply State.at_keeps | with_reducible apply State.setFac_keeps
    | with_reducible apply State.send_keeps | with_reducible apply State.takeSsi_keeps | with_reducible apply OKeeps.next
    | with_reducible apply OKeeps.ite | with_reducible apply Keeps.ite | split

theorem execTeachIn_keeps {z0 : State} {t : Nat} {s : State} (hs : Keeps z0 s) : OKeeps z0 (execTeachIn t s) := by
  unfold execTeachIn
  try dsimp only
  repeat' first
    | with_reducible assumption | with_reducible apply State.at_keeps | with_reducible apply State.teachStart_keeps
    | with_reducible apply OKeeps.next | with_reducible apply OKeeps.ite | with_reducible apply Keeps.ite | split

theorem execTeach_keeps {z0 : State} {t : Nat} {s : State} (hs : Keeps z0 s) : OKeeps z0 (execTeach t s) := by
  unfold execTeach
  try dsimp only
  repeat' first
    | with_reducible assumption | with_reducible apply State.at_keeps | with_reducible apply State.teachStart_keeps
    | with_reducible apply OKeeps.next | with_reducible apply OKeeps.ite | with_reducible apply Keeps.ite | split

theorem State.factorySlot_keeps {z0 s : State} {d : Int} {e : Int × Bool} (hs : Keeps z0 s) : Keeps z0 (State.factorySlot s d e) := by
  unfold State.factorySlot
  try dsimp only
  repeat' first
    | with_reducible assumption | with_reducible apply State.xopenGo_keeps | with_reducible apply State.wr64_keeps
    | with_reducible apply State.slotCommit_keeps | with_reducible apply Keeps.ite | split

theorem State.teachDone_keeps {z0 s : State} {codes : List (Int × Bool)} {d : Int} (hs : Keeps z0 s) : Keeps z0 (State.teachDone s codes d) := by
  unfold State.teachDone
  try dsimp only
  repeat' first
    | with_reducible assumption | with_reducible apply State.setFac_keeps | with_reducible apply State.say_keeps
    | with_reducible apply State.idEvent_keeps | with_reducible apply State.factorySlot_keeps | with_reducible apply Keeps.foldl
    | with_reducible apply Keeps.foldl1 | with_reducible apply Keeps.foldl2 | intro _ _ _ | intro _ _ | split

theorem State.teachMeasure_keeps {z0 s : State} {codes : List (Int × Bool)} {ms : List Int} (hs : Keeps z0 s) :
    Keeps z0 (State.teachMeasure s codes ms) := by
  unfold State.teachMeasure
  try dsimp only
  repeat' first
    | with_reducible assumption | with_reducible apply State.teachFail_keeps | with_reducible apply State.setFac_keeps
    | with_reducible apply State.teachDone_keeps | with_reducible apply Keeps.ite | split

theorem execTeachInEdge_keeps {z0 : State} {t : Nat} {s : State} (hs : Keeps z0 s) : OKeeps z0 (execTeachInEdge t s) := by
  unfold execTeachInEdge
  try dsimp only
  repeat' first
    | with_reducible assumption | with_reducible apply State.at_keeps | with_reducible apply State.teachMeasure_keeps
    | with_reducible apply State.teachFail_keeps | with_reducible apply OKeeps.next | split

theorem execCodeVerdict_keeps {z0 : State} {t : Nat} {c : Int} {decodes : Bool} {grade : Nat} {s : State} (hs : Keeps z0 s) :
    OKeeps z0 (execCodeVerdict t c decodes grade s) := by
  unfold execCodeVerdict
  try dsimp only
  repeat' first
    | with_reducible assumption | with_reducible apply State.at_keeps | with_reducible apply State.setFac_keeps
    | with_reducible apply State.factorySlot_keeps | with_reducible apply OKeeps.next | with_reducible apply OKeeps.ite
    | with_reducible apply Keeps.ite | with_reducible apply Keeps.ite1 | split

theorem execUnmatchedProbeEdge_keeps {z0 : State} {t : Nat} {s : State} (hs : Keeps z0 s) : OKeeps z0 (execUnmatchedProbeEdge t s) := by
  unfold execUnmatchedProbeEdge
  try dsimp only
  repeat' first
    | with_reducible assumption | with_reducible apply State.at_keeps | with_reducible apply State.setFac_keeps
    | with_reducible apply State.fireNow_keeps | with_reducible apply OKeeps.next | with_reducible apply OKeeps.ite
    | with_reducible apply Keeps.ite | with_reducible apply Keeps.ite1 | split

theorem execStatus_keeps {z0 : State} {t : Nat} {s : State} (hs : Keeps z0 s) : OKeeps z0 (execStatus t s) := by
  unfold execStatus
  try dsimp only
  repeat' first
    | with_reducible assumption | with_reducible apply State.at_keeps | with_reducible apply State.say_keeps
    | with_reducible apply OKeeps.next | with_reducible apply OKeeps.ite | with_reducible apply Keeps.ite | split

theorem execValve_keeps {z0 : State} {t n : Nat} {s : State} (hs : Keeps z0 s) : OKeeps z0 (execValve t n s) := by
  unfold execValve
  try dsimp only
  repeat' first
    | with_reducible assumption | with_reducible apply State.at_keeps | with_reducible apply State.facSet_keeps
    | with_reducible apply State.setFac_keeps | with_reducible apply OKeeps.next | with_reducible apply OKeeps.ite
    | with_reducible apply Keeps.ite | split

theorem State.genEvent_keeps {z0 s : State} {k x : Nat} (hs : Keeps z0 s) : Keeps z0 (State.genEvent s k x) := by
  unfold State.genEvent
  try dsimp only
  repeat' first
    | with_reducible assumption | with_reducible apply State.setTb_keeps | with_reducible apply State.raise_keeps

theorem execGeneratorInstant_keeps {z0 : State} {t k : Nat} {s : State} (hs : Keeps z0 s) : OKeeps z0 (execGeneratorInstant t k s) := by
  unfold execGeneratorInstant
  try dsimp only
  repeat' first
    | with_reducible assumption | with_reducible apply State.at_keeps | with_reducible apply State.setFired_keeps
    | with_reducible apply State.inc_keeps | with_reducible apply State.strobe_keeps | with_reducible apply State.forceCommits_keeps
    | with_reducible apply State.genEvent_keeps | with_reducible apply OKeeps.next | with_reducible apply OKeeps.ite
    | with_reducible apply Keeps.ite | with_reducible apply Keeps.ite1 | split

theorem State.setPcie_keeps {z0 s : State} {x : Pcie} (hs : Keeps z0 s) : Keeps z0 (State.setPcie s x) := by
  unfold State.setPcie
  try dsimp only
  repeat' first
    | with_reducible assumption | (fail_if_no_progress with_reducible refine Keeps.mk' ?_ rfl rfl rfl rfl rfl rfl rfl)

theorem State.hostUR_keeps {z0 s : State} (hs : Keeps z0 s) : Keeps z0 (State.hostUR s) := by
  unfold State.hostUR
  try dsimp only
  repeat' first
    | with_reducible assumption | with_reducible apply State.answer_keeps | with_reducible apply State.inc_keeps

theorem State.hostCA_keeps {z0 s : State} (hs : Keeps z0 s) : Keeps z0 (State.hostCA s) := by
  unfold State.hostCA
  try dsimp only
  repeat' first
    | with_reducible assumption | with_reducible apply State.answer_keeps | with_reducible apply State.inc_keeps

theorem State.hostGate_keeps {z0 s : State} {k : State → State} (hs : Keeps z0 s) (hk : ∀ x, Keeps z0 x → Keeps z0 (k x)) :
    Keeps z0 (State.hostGate s k) := by
  unfold State.hostGate
  try dsimp only
  repeat' first
    | with_reducible assumption | with_reducible apply State.hostCA_keeps | with_reducible apply Keeps.ite | apply hk | intro _ _ _
    | intro _ _ | split

theorem execPcieConfigRequest_keeps {z0 : State} {t : Nat} {wr : Bool} {off v : Nat} {s : State} (hs : Keeps z0 s) :
    OKeeps z0 (execPcieConfigRequest t wr off v s) := by
  unfold execPcieConfigRequest
  try dsimp only
  repeat' first
    | with_reducible assumption | with_reducible apply State.hostGate_keeps | with_reducible apply State.at_keeps
    | with_reducible apply State.hostUR_keeps | with_reducible apply State.answer_keeps | with_reducible apply State.setPcie_keeps
    | with_reducible apply OKeeps.next | with_reducible apply OKeeps.ite | with_reducible apply Keeps.ite | intro _ _ _ | intro _ _
    | split

theorem execPcieBar0Request_keeps {z0 : State} {t : Nat} {wr : Bool} {off len v : Nat} {s : State} (hs : Keeps z0 s) :
    OKeeps z0 (execPcieBar0Request t wr off len v s) := by
  unfold execPcieBar0Request
  try dsimp only
  repeat' first
    | with_reducible assumption | with_reducible apply State.hostGate_keeps | with_reducible apply State.at_keeps
    | with_reducible apply State.hostUR_keeps | with_reducible apply State.busWrite_keeps | with_reducible apply State.busRead_keeps
    | with_reducible apply State.hostCA_keeps | with_reducible apply OKeeps.next | with_reducible apply OKeeps.ite
    | with_reducible apply Keeps.ite | intro _ _ _ | intro _ _ | split

theorem execPcieBar2Request_keeps {z0 : State} {t : Nat} {wr : Bool} {off len : Nat} {data : List Nat} {poisoned : Bool} {s : State} (hs : Keeps z0 s) :
    OKeeps z0 (execPcieBar2Request t wr off len data poisoned s) := by
  unfold execPcieBar2Request
  try dsimp only
  repeat' first
    | with_reducible assumption | with_reducible apply State.hostGate_keeps | with_reducible apply State.at_keeps
    | with_reducible apply State.hostUR_keeps | with_reducible apply State.inc_keeps | with_reducible apply State.hwWritePoison_keeps
    | with_reducible apply State.hwWrite_keeps | with_reducible apply State.hostCA_keeps | with_reducible apply State.answer_keeps
    | with_reducible apply State.hwRead_keeps | with_reducible apply OKeeps.next | with_reducible apply OKeeps.ite
    | with_reducible apply Keeps.ite | with_reducible apply Keeps.ite1 | intro _ _ _ | intro _ _
    | (fail_if_no_progress with_reducible refine Keeps.mk' ?_ rfl rfl rfl rfl rfl rfl rfl) | split

theorem execPcieBar4Request_keeps {z0 : State} {t : Nat} {wr : Bool} {off v : Nat} {s : State} (hs : Keeps z0 s) :
    OKeeps z0 (execPcieBar4Request t wr off v s) := by
  unfold execPcieBar4Request
  try dsimp only
  repeat' first
    | with_reducible assumption | with_reducible apply State.hostGate_keeps | with_reducible apply State.at_keeps
    | with_reducible apply State.hostUR_keeps | with_reducible apply State.answer_keeps | with_reducible apply State.setPcie_keeps
    | with_reducible apply OKeeps.next | with_reducible apply OKeeps.ite | with_reducible apply Keeps.ite | intro _ _ _ | intro _ _
    | split

theorem execV24fLow_keeps {z0 : State} {t : Nat} {s : State} (hs : Keeps z0 s) : OKeeps z0 (execV24fLow t s) := by
  unfold execV24fLow
  try dsimp only
  repeat' first
    | with_reducible assumption | with_reducible apply State.at_keeps | with_reducible apply State.setField_keeps
    | with_reducible apply State.refreshFio_keeps | with_reducible apply State.inc_keeps | with_reducible apply State.wr_keeps
    | with_reducible apply OKeeps.next | with_reducible apply OKeeps.ite | with_reducible apply Keeps.ite | split

theorem execV24fHigh_keeps {z0 : State} {t : Nat} {s : State} (hs : Keeps z0 s) : OKeeps z0 (execV24fHigh t s) := by
  unfold execV24fHigh
  try dsimp only
  repeat' first
    | with_reducible assumption | with_reducible apply State.at_keeps | with_reducible apply State.refreshFio_keeps
    | with_reducible apply State.wr_keeps | with_reducible apply OKeeps.next | with_reducible apply OKeeps.ite
    | with_reducible apply Keeps.ite | split

theorem State.setPmb_keeps {z0 s : State} {x : Pmbus} (hs : Keeps z0 s) : Keeps z0 (State.setPmb s x) := by
  unfold State.setPmb
  try dsimp only
  repeat' first
    | with_reducible assumption | with_reducible apply State.setSys_keeps

theorem execPmbusRefresh_keeps {z0 : State} {t vinMv iinMa : Nat} {plate hot : Int} {pinMw : Nat} {s : State} (hs : Keeps z0 s) :
    OKeeps z0 (execPmbusRefresh t vinMv iinMa plate hot pinMw s) := by
  unfold execPmbusRefresh
  try dsimp only
  repeat' first
    | with_reducible assumption | with_reducible apply State.at_keeps | with_reducible apply State.setPmb_keeps
    | with_reducible apply State.mark_keeps | with_reducible apply OKeeps.next | with_reducible apply OKeeps.ite
    | with_reducible apply Keeps.ite | split

theorem execClearFaults_keeps {z0 : State} {t : Nat} {s : State} (hs : Keeps z0 s) : OKeeps z0 (execClearFaults t s) := by
  unfold execClearFaults
  try dsimp only
  repeat' first
    | with_reducible assumption | with_reducible apply State.at_keeps | with_reducible apply State.answer_keeps
    | with_reducible apply State.setPmb_keeps | with_reducible apply OKeeps.next

theorem execCapability_keeps {z0 : State} {t : Nat} {s : State} (hs : Keeps z0 s) : OKeeps z0 (execCapability t s) := by
  unfold execCapability
  try dsimp only
  repeat' first
    | with_reducible assumption | with_reducible apply State.answer_keeps | with_reducible apply State.at_keeps
    | with_reducible apply OKeeps.next

theorem execStatusByte_keeps {z0 : State} {t : Nat} {s : State} (hs : Keeps z0 s) : OKeeps z0 (execStatusByte t s) := by
  unfold execStatusByte
  try dsimp only
  repeat' first
    | with_reducible assumption | with_reducible apply State.answer_keeps | with_reducible apply State.at_keeps
    | with_reducible apply OKeeps.next

theorem execStatusWord_keeps {z0 : State} {t : Nat} {s : State} (hs : Keeps z0 s) : OKeeps z0 (execStatusWord t s) := by
  unfold execStatusWord
  try dsimp only
  repeat' first
    | with_reducible assumption | with_reducible apply State.answer_keeps | with_reducible apply State.at_keeps
    | with_reducible apply OKeeps.next

theorem State.answerLinear_keeps {z0 s : State} {code : Nat} {v : Int} (hs : Keeps z0 s) : Keeps z0 (State.answerLinear s code v) := by
  unfold State.answerLinear
  try dsimp only
  repeat' first
    | with_reducible assumption | with_reducible apply State.answer_keeps

theorem execReadVin_keeps {z0 : State} {t : Nat} {s : State} (hs : Keeps z0 s) : OKeeps z0 (execReadVin t s) := by
  unfold execReadVin
  try dsimp only
  repeat' first
    | with_reducible assumption | with_reducible apply State.answerLinear_keeps | with_reducible apply State.at_keeps
    | with_reducible apply OKeeps.next

theorem execReadIin_keeps {z0 : State} {t : Nat} {s : State} (hs : Keeps z0 s) : OKeeps z0 (execReadIin t s) := by
  unfold execReadIin
  try dsimp only
  repeat' first
    | with_reducible assumption | with_reducible apply State.answerLinear_keeps | with_reducible apply State.at_keeps
    | with_reducible apply OKeeps.next

theorem execReadTemperature1_keeps {z0 : State} {t : Nat} {s : State} (hs : Keeps z0 s) : OKeeps z0 (execReadTemperature1 t s) := by
  unfold execReadTemperature1
  try dsimp only
  repeat' first
    | with_reducible assumption | with_reducible apply State.answerLinear_keeps | with_reducible apply State.at_keeps
    | with_reducible apply OKeeps.next

theorem execReadTemperature2_keeps {z0 : State} {t : Nat} {s : State} (hs : Keeps z0 s) : OKeeps z0 (execReadTemperature2 t s) := by
  unfold execReadTemperature2
  try dsimp only
  repeat' first
    | with_reducible assumption | with_reducible apply State.answerLinear_keeps | with_reducible apply State.at_keeps
    | with_reducible apply OKeeps.next

theorem execReadPin_keeps {z0 : State} {t : Nat} {s : State} (hs : Keeps z0 s) : OKeeps z0 (execReadPin t s) := by
  unfold execReadPin
  try dsimp only
  repeat' first
    | with_reducible assumption | with_reducible apply State.answerLinear_keeps | with_reducible apply State.at_keeps
    | with_reducible apply OKeeps.next

theorem execPmbusRevision_keeps {z0 : State} {t : Nat} {s : State} (hs : Keeps z0 s) : OKeeps z0 (execPmbusRevision t s) := by
  unfold execPmbusRevision
  try dsimp only
  repeat' first
    | with_reducible assumption | with_reducible apply State.answer_keeps | with_reducible apply State.at_keeps
    | with_reducible apply OKeeps.next

theorem execMfrId_keeps {z0 : State} {t : Nat} {s : State} (hs : Keeps z0 s) : OKeeps z0 (execMfrId t s) := by
  unfold execMfrId
  try dsimp only
  repeat' first
    | with_reducible assumption | with_reducible apply State.answer_keeps | with_reducible apply State.at_keeps
    | with_reducible apply OKeeps.next

theorem execMfrModel_keeps {z0 : State} {t : Nat} {s : State} (hs : Keeps z0 s) : OKeeps z0 (execMfrModel t s) := by
  unfold execMfrModel
  try dsimp only
  repeat' first
    | with_reducible assumption | with_reducible apply State.answer_keeps | with_reducible apply State.at_keeps
    | with_reducible apply OKeeps.next

theorem execMfrSerial_keeps {z0 : State} {t : Nat} {s : State} (hs : Keeps z0 s) : OKeeps z0 (execMfrSerial t s) := by
  unfold execMfrSerial
  try dsimp only
  repeat' first
    | with_reducible assumption | with_reducible apply State.answer_keeps | with_reducible apply State.at_keeps
    | with_reducible apply OKeeps.next

theorem execPmbusOtherWrite_keeps {z0 : State} {t _code : Nat} {_data : List Nat} {s : State} (hs : Keeps z0 s) :
    OKeeps z0 (execPmbusOtherWrite t _code _data s) := by
  unfold execPmbusOtherWrite
  try dsimp only
  repeat' first
    | with_reducible assumption | with_reducible apply State.setPmb_keeps | with_reducible apply State.at_keeps
    | with_reducible apply OKeeps.next

theorem State.placed_keeps {z0 s : State} {c : Nat} {t : Tile} {next : Nat} (hs : Keeps z0 s) (ht : z0.TilesInRange → t.InRange) :
    Keeps z0 (State.placed s c t next) := by
  exact State.setTile_some_keeps hs (fun k => Tile.stepLoop_inRange (ht k))

theorem State.issued_keeps {z0 s : State} {c : Nat} {t : Tile} {cost : Nat} (hs : Keeps z0 s) : Keeps z0 (State.issued s c t cost).1 := by
  unfold State.issued
  try dsimp only
  repeat' first
    | with_reducible assumption | with_reducible apply State.addWork_keeps | with_reducible apply State.fetchWord_keeps

end Sys2Proof.Machine
end

