-- ==== Sys2Proof/Laws/KeepsTack.lean ====
section
/-!
SUPPORT. What is kept (Keeps) by every Tack instruction, and that its tile's scalar and address registers stay in range.
-/

namespace Sys2Proof.Machine

set_option maxRecDepth 100000

/-- The effect of an instruction keeps the state, and its tile's registers stay in range. -/
structure EffOk (r : State) (e : Eff) : Prop where
  state : Keeps r e.s
  tile : r.TilesInRange → e.t.InRange

theorem EffOk.make {r s : State} {t : Tile} {x : Option Trap} {j : Option Nat} (hs : Keeps r s) (ht : r.TilesInRange → t.InRange) :
    EffOk r { s := s, t := t, trap := x, jump := j } := ⟨hs, ht⟩

theorem EffOk.reg {r s : State} {t : Tile} (hs : Keeps r s) (ht : r.TilesInRange → t.InRange) : EffOk r (Eff.reg s t) := ⟨hs, ht⟩

theorem EffOk.ite {r : State} {a b : Eff} {c : Prop} [Decidable c] (h : EffOk r a) (k : EffOk r b) : EffOk r (if c then a else b) := by
  split <;> assumption

/-- An instruction whose effect is so on every state and tile. -/
structure OpOk (o : Op) : Prop where
  eff : ∀ {r s : State} {b : Nat} {t : Tile}, Keeps r s → (r.TilesInRange → t.InRange) → EffOk r (o.eff b s t)

/-- An instruction that changes the tile alone. -/
theorem OpOk.regs {grp func : Nat} {cost : Nat → Tile → Nat} {legal : Nat → Option Trap} {chk : Check}
    {g : Nat → Tile → Tile}
    (hg : ∀ b t, t.InRange → (g b t).InRange) : OpOk ⟨grp, func, cost, legal, fun b s t => Eff.reg s (g b t), chk⟩ :=
  ⟨fun hs ht => EffOk.reg hs (fun k => hg _ _ (ht k))⟩

theorem State.issueOp_keeps {z0 s : State} {c pr body : Nat} {t : Tile} {o : Op} (hs : Keeps z0 s) (ht : z0.TilesInRange → t.InRange)
    (ho : OpOk o) : Keeps z0 (s.issueOp c t pr body o) := by
  unfold State.issueOp
  dsimp only
  refine Keeps.ite (State.tileTrap_keeps (State.fetchWord_keeps hs)) (Keeps.ite (State.tileTrap_keeps (State.fetchWord_keeps hs)) ?_)
  have h1 : Keeps z0 ((s.fetchWord c t).1.addWork c t (if t.executes pr = true then o.cost body t else 1)).1 :=
    State.addWork_keeps (State.fetchWord_keeps hs)
  have h2 : z0.TilesInRange → ((s.fetchWord c t).1.addWork c t (if t.executes pr = true then o.cost body t else 1)).2.struck.InRange :=
    fun k => Tile.struck_inRange (ht k)
  refine Keeps.ite (State.advance_keeps h1 h2) ?_
  split
  · exact State.tileTrap_keeps h1
  · have e := ho.eff (b := body) h1 h2
    split
    · exact State.tileTrap_keeps e.state
    · exact State.advance_keeps e.state (fun k => Op.checked_inRange (e.tile k))

/-- An instruction that issues keeps what its effect keeps. -/
theorem State.issue_keeps {z0 s : State} {c : Nat} {pr : BitVec 4} {body : BitVec 48} {o : Op} (hs : Keeps z0 s) (ho : OpOk o) :
    OKeeps z0 (s.issue c pr body o) := by
  refine OKeeps.next ?_
  split
  · next t ht => exact Keeps.ite (State.issueOp_keeps hs (fun k => State.tileOf_inRange (hs.tiles k) ht) ho) hs
  · exact hs

/-! ### Memory accesses of a tile -/

/-- A fold over a state and a tile keeps the tile's registers in range when each step does. -/
theorem Tile.foldl2_inRange {β : Type} {f : State × Tile → β → State × Tile} (hf : ∀ x b, x.2.InRange → (f x b).2.InRange) (l : List β)
    {x : State × Tile} (h : x.2.InRange) : (l.foldl f x).2.InRange := by
  induction l generalizing x with
  | nil => exact h
  | cons b l ih => exact ih (hf _ _ h)

theorem State.spadWrite_tile {s : State} {c a : Nat} {t : Tile} {bs : List Nat} (h : t.InRange) : (s.spadWrite c t a bs).2.InRange := by
  unfold State.spadWrite
  dsimp only
  refine Tile.foldl2_inRange (fun x k h => ?_) _ h
  generalize x.1.zeroLine (spadBase c + 64 * k) = z
  split
  · exact h
  · exact h

theorem State.tileWrite_tile {s : State} {c a : Nat} {t : Tile} {bs : List Nat} (h : t.InRange) : (s.tileWrite c t a bs).2.1.InRange := by
  unfold State.tileWrite
  split
  · exact State.spadWrite_tile h
  · exact h

theorem Tile.postStep_inRange {t : Tile} {b : Nat} (h : t.InRange) : (t.postStep b).InRange := by
  unfold Tile.postStep
  split
  · exact Tile.setA_inRange h
  · exact h

theorem mmaTile_inRange {t : Tile} {k fmt : Nat} {z : Bool} {pa pb : List Nat} (h : t.InRange) : (mmaTile t k fmt z pa pb).InRange := by
  unfold mmaTile
  exact Tile.foldl_inRange (fun _ _ h => Tile.flag_inRange (Tile.setAccRow_inRange h)) _ h

theorem jumpTo_ok {r s : State} {t : Tile} {x : Int} (hs : Keeps r s) (ht : r.TilesInRange → t.InRange) : EffOk r (jumpTo s t x) := by
  unfold jumpTo
  exact EffOk.ite (EffOk.make hs ht) (EffOk.make hs ht)

/-! ### The instructions' effects -/

theorem sRR_ok {func : Nat} {f : Nat → Nat → Nat} : OpOk (sRR func f) := OpOk.regs (fun _ _ h => Tile.setS_inRange h)

theorem sR1_ok {func : Nat} {f : Nat → Nat} : OpOk (sR1 func f) := OpOk.regs (fun _ _ h => Tile.setS_inRange h)

theorem sRI_ok {func : Nat} {f : Nat → Nat → Nat} : OpOk (sRI func f) := OpOk.regs (fun _ _ h => Tile.setS_inRange h)

theorem sShI_ok {func : Nat} {f : Nat → Nat → Nat} : OpOk (sShI func f) := OpOk.regs (fun _ _ h => Tile.setS_inRange h)

theorem opSel_ok : OpOk opSel := OpOk.regs (fun _ _ h => Tile.setS_inRange h)

theorem opLi_ok : OpOk opLi := OpOk.regs (fun _ _ h => Tile.setS_inRange h)

theorem opLih_ok : OpOk opLih := OpOk.regs (fun _ _ h => Tile.setS_inRange h)

theorem opAmovs_ok : OpOk opAmovs := OpOk.regs (fun _ _ h => Tile.setS_inRange h)

theorem cmpRR_ok {func : Nat} {f : Nat → Nat → Bool} : OpOk (cmpRR func f) := OpOk.regs (fun _ _ h => Tile.setP_inRange h)

theorem cmpRI_ok {func : Nat} {f : Nat → Nat → Bool} : OpOk (cmpRI func f) := OpOk.regs (fun _ _ h => Tile.setP_inRange h)

theorem predRR_ok {func : Nat} {f : Bool → Bool → Bool} : OpOk (predRR func f) := OpOk.regs (fun _ _ h => Tile.setP_inRange h)

theorem opAmov_ok : OpOk opAmov := OpOk.regs (fun _ _ h => Tile.setA_inRange h)

theorem opAadd_ok : OpOk opAadd := OpOk.regs (fun _ _ h => Tile.setA_inRange h)

theorem opAaddi_ok : OpOk opAaddi := OpOk.regs (fun _ _ h => Tile.setA_inRange h)

theorem opAlocal_ok : OpOk opAlocal := OpOk.regs (fun _ _ h => Tile.setA_inRange h)

theorem opBr_ok : OpOk opBr := ⟨fun hs ht => jumpTo_ok hs ht⟩

theorem opJr_ok : OpOk opJr := ⟨fun hs ht => jumpTo_ok hs ht⟩

theorem opCall_ok : OpOk opCall := ⟨fun hs ht => EffOk.ite (EffOk.make hs ht) (EffOk.ite (jumpTo_ok hs ht) ⟨(jumpTo_ok hs ht).state, (jumpTo_ok hs ht).tile⟩)⟩

theorem opRet_ok : OpOk opRet := by
  refine ⟨fun {r s b t} hs ht => ?_⟩
  unfold opRet
  dsimp only
  split
  · exact EffOk.make hs ht
  · exact EffOk.ite (jumpTo_ok hs ht) ⟨(jumpTo_ok hs ht).state, (jumpTo_ok hs ht).tile⟩

theorem opLoop_ok : OpOk opLoop := ⟨fun hs ht => EffOk.ite (EffOk.make hs ht) (EffOk.ite (EffOk.make hs ht) (EffOk.ite (EffOk.make hs ht) (EffOk.make hs ht)))⟩

theorem opXpf_ok {c : Nat} : OpOk (opXpf c) := ⟨fun hs ht => EffOk.reg (Keeps.ite (State.declare_keeps hs) hs) ht⟩

theorem opIdle_ok {func : Nat} : OpOk (opIdle func) := ⟨fun hs ht => EffOk.reg hs ht⟩

theorem opEnd_ok : OpOk opEnd := ⟨fun hs ht => EffOk.reg hs ht⟩

theorem opTrap_ok : OpOk opTrap := ⟨fun hs ht => EffOk.make hs ht⟩

theorem vOp_ok {grp : Nat} {func : Nat} {cost : Nat} {legal : Nat → Option Trap} {run : CheckRun} {f : Nat → Tile → Nat × Nat} : OpOk (vOp grp func cost legal run f) := ⟨fun hs ht => EffOk.reg hs ht⟩

theorem v8_ok {func : Nat} {use : List VF} {run : CheckRun} {fp : Nat → Nat → Nat → Nat × Nat} {int : Nat → Nat → Nat → Nat × Nat} : OpOk (v8 func use run fp int) := vOp_ok

theorem v8i_ok {func : Nat} {use : List VF} {run : CheckRun} {int : Nat → Nat → Nat → Nat} : OpOk (v8i func use run int) := vOp_ok

theorem vRed_ok {func : Nat} {run : CheckRun} {fp : Nat → Nat → Nat × Nat} {int : Nat → Nat → Nat × Nat} : OpOk (vRed func run fp int) := vOp_ok

theorem vFun_ok {func : Nat} : OpOk (vFun func) := vOp_ok

theorem gfOp_ok {func : Nat} {cost : Nat} {use : List VF} {f : Nat → Nat → Nat → Nat → Nat} : OpOk (gfOp func cost use f) := vOp_ok

theorem opVcvt_ok : OpOk opVcvt := vOp_ok

theorem opVwid_ok : OpOk opVwid := vOp_ok

theorem opVnar_ok : OpOk opVnar := vOp_ok

theorem opVbcast_ok : OpOk opVbcast := vOp_ok

theorem opVmovi_ok : OpOk opVmovi := vOp_ok

theorem opVperm_ok : OpOk opVperm := vOp_ok

theorem opGfMulc_ok : OpOk opGfMulc := vOp_ok

theorem vCmp_ok {func : Nat} {fp : Fp → Fp → Bool} {int : Int → Int → Bool} : OpOk (vCmp func fp int) := v8_ok

theorem opVqsx_ok : OpOk opVqsx := ⟨fun hs ht => EffOk.reg hs ht⟩

theorem opVgetf_ok : OpOk opVgetf := OpOk.regs (fun _ _ h => Tile.setS_inRange h)

theorem opVclrf_ok : OpOk opVclrf := ⟨fun hs ht => EffOk.reg hs ht⟩

theorem opLoad_ok {c : Nat} {func : Nat} {n : Nat} {al : Nat} {vec : Bool} {f : Tile → Nat → Nat → Tile} (hf : ∀ t a v, t.InRange → (f t a v).InRange) : OpOk (opLoad c func n al vec f) := by
  refine ⟨fun {r s b t} hs ht => ?_⟩
  unfold opLoad
  dsimp only
  split
  · exact EffOk.make hs ht
  · have h := State.tileRead_keeps (c := c) (t := t) (ea := t.memAddr b) (n := n) hs
    generalize s.tileRead c t (t.memAddr b) n = q at h ⊢
    exact EffOk.ite (EffOk.make h ht) (EffOk.reg h (fun k => hf _ _ _ (Tile.postStep_inRange (ht k))))

theorem opLd_ok {c : Nat} {func : Nat} {n : Nat} {sg : Bool} : OpOk (opLd c func n sg) := opLoad_ok (fun _ _ _ h => Tile.setS_inRange h)

theorem opStore_ok {c : Nat} {func : Nat} {n : Nat} {al : Nat} {vec : Bool} {f : Tile → Nat → Nat} : OpOk (opStore c func n al vec f) := by
  refine ⟨fun {r s b t} hs ht => ?_⟩
  unfold opStore
  dsimp only
  split
  · exact EffOk.make hs ht
  · have h := State.tileWrite_keeps (c := c) (t := t) (ea := t.memAddr b) (bs := leBytes n (f t (fRD b))) hs
    have h2 : r.TilesInRange → (s.tileWrite c t (t.memAddr b) (leBytes n (f t (fRD b)))).2.1.InRange := fun k => State.tileWrite_tile (ht k)
    generalize s.tileWrite c t (t.memAddr b) (leBytes n (f t (fRD b))) = q at h h2 ⊢
    exact EffOk.ite (EffOk.make h ht) (EffOk.reg h (fun k => Tile.postStep_inRange (h2 k)))

theorem opSt_ok {c : Nat} {func : Nat} {n : Nat} : OpOk (opSt c func n) := opStore_ok

theorem moveRow_ok {r : State} {c b k : Nat} {e : Eff} (h : EffOk r e) : EffOk r (moveRow c b e k) := by
  unfold moveRow
  refine EffOk.ite h ?_
  have h1 := State.tileRead_keeps (c := c) (t := e.t) (ea := e.t.srcRow b k) (n := e.t.shape b 0) h.state
  generalize e.s.tileRead c e.t (e.t.srcRow b k) (e.t.shape b 0) = q at h1 ⊢
  refine EffOk.ite (EffOk.make h1 h.tile) ?_
  have h2 := State.tileWrite_keeps (c := c) (t := e.t) (ea := e.t.dstRow b k) (bs := q.2.2) h1
  have h3 : r.TilesInRange → (q.1.tileWrite c e.t (e.t.dstRow b k) q.2.2).2.1.InRange := fun k => State.tileWrite_tile (h.tile k)
  generalize q.1.tileWrite c e.t (e.t.dstRow b k) q.2.2 = w at h2 h3 ⊢
  exact EffOk.ite (EffOk.make h2 h.tile) (EffOk.make h2 h3)

theorem moveRows_ok {r : State} {c b : Nat} (l : List Nat) {e : Eff} (h : EffOk r e) : EffOk r (l.foldl (moveRow c b) e) := by
  induction l generalizing e with
  | nil => exact h
  | cons k l ih => exact ih (moveRow_ok h)

theorem spadWrites_ok {r : State} {c : Nat} {f : List Nat × Nat → Nat} (l : List (List Nat × Nat)) {p : State × Tile} (h : Keeps r p.1)
    (k : r.TilesInRange → p.2.InRange) : Keeps r (l.foldl (fun (p : State × Tile) e => p.1.spadWrite c p.2 (f e) e.1) p).1 ∧
    (r.TilesInRange → (l.foldl (fun (p : State × Tile) e => p.1.spadWrite c p.2 (f e) e.1) p).2.InRange) := by
  induction l generalizing p with
  | nil => exact ⟨h, k⟩
  | cons e l ih => exact ih (State.spadWrite_keeps h) (fun x => State.spadWrite_tile (k x))

theorem opXfer_ok {c : Nat} {func : Nat} {srcLoc : Bool} {dstLoc : Bool} : OpOk (opXfer c func srcLoc dstLoc) := by
  refine ⟨fun {r s b t} hs ht => ?_⟩
  unfold opXfer
  dsimp only
  split
  · exact EffOk.make hs ht
  · refine EffOk.ite ?_ (moveRows_ok _ (EffOk.reg hs ht))
    have h := readRows_keeps (c := c) (b := b) (t := t) hs
    generalize readRows c b s t = q at h ⊢
    refine EffOk.ite (EffOk.make h ht) ?_
    have w := spadWrites_ok (c := c) (f := fun e => addrOf (t.dstRow b e.2)) q.2.2.zipIdx (p := (q.1, t)) h ht
    exact EffOk.reg w.1 w.2

theorem opMma_ok {c : Nat} : OpOk (opMma c) := by
  refine ⟨fun {r s b t} hs ht => ?_⟩
  unfold opMma
  dsimp only
  refine EffOk.ite (EffOk.make hs ht) (EffOk.ite (EffOk.make hs ht) ?_)
  split
  · exact EffOk.make hs ht
  · exact EffOk.make hs ht
  · have h := State.spadRead_keeps (c := c) (t := t) (a := addrOf (t.areg (mAA b))) (n := panelBytes (mFMT b)) hs
    generalize s.spadRead c t (addrOf (t.areg (mAA b))) (panelBytes (mFMT b)) = q at h ⊢
    have h2 := State.spadRead_keeps (c := c) (t := t) (a := addrOf (t.areg (mAB b))) (n := panelBytes (mFMT b)) h
    generalize q.1.spadRead c t (addrOf (t.areg (mAB b))) (panelBytes (mFMT b)) = p at h2 ⊢
    exact EffOk.ite (EffOk.make h2 ht) (EffOk.reg h2 (fun k => mmaTile_inRange (ht k)))

theorem opAcczero_ok : OpOk opAcczero := OpOk.regs (fun _ _ h => Tile.foldl_inRange (fun _ _ h => Tile.setAccRow_inRange h) _ h)

theorem opAccst_ok {c : Nat} : OpOk (opAccst c) := by
  refine ⟨fun {r s b t} hs ht => ?_⟩
  unfold opAccst
  dsimp only
  split
  · exact EffOk.make hs ht
  · exact EffOk.reg (State.spadWrite_keeps hs) (fun k => State.spadWrite_tile (ht k))

theorem opAccld_ok {c : Nat} : OpOk (opAccld c) := by
  refine ⟨fun {r s b t} hs ht => ?_⟩
  unfold opAccld
  dsimp only
  split
  · exact EffOk.make hs ht
  · have h := State.spadRead_keeps (c := c) (t := t) (a := addrOf (t.areg (dAR b))) (n := 16384) hs
    generalize s.spadRead c t (addrOf (t.areg (dAR b))) 16384 = q at h ⊢
    exact EffOk.ite (EffOk.make h ht) (EffOk.reg h (fun k => Tile.foldl_inRange (fun _ _ h => Tile.setAccRow_inRange h) _ (ht k)))

theorem opAcc2v_ok : OpOk opAcc2v := ⟨fun hs ht => EffOk.reg hs ht⟩

theorem opV2acc_ok : OpOk opV2acc := ⟨fun hs ht => EffOk.reg hs ht⟩

/-! ### The instructions -/

theorem execAdd_keeps {z0 s : State} {c : Nat} {pr : BitVec 4} {body : BitVec 48} (hs : Keeps z0 s) :
    OKeeps z0 (execAdd c pr body s) := State.issue_keeps hs sRR_ok

theorem execAddi_keeps {z0 s : State} {c : Nat} {pr : BitVec 4} {body : BitVec 48} (hs : Keeps z0 s) :
    OKeeps z0 (execAddi c pr body s) := State.issue_keeps hs sRI_ok

theorem execSub_keeps {z0 s : State} {c : Nat} {pr : BitVec 4} {body : BitVec 48} (hs : Keeps z0 s) :
    OKeeps z0 (execSub c pr body s) := State.issue_keeps hs sRR_ok

theorem execMul_keeps {z0 s : State} {c : Nat} {pr : BitVec 4} {body : BitVec 48} (hs : Keeps z0 s) :
    OKeeps z0 (execMul c pr body s) := State.issue_keeps hs sRR_ok

theorem execMulh_keeps {z0 s : State} {c : Nat} {pr : BitVec 4} {body : BitVec 48} (hs : Keeps z0 s) :
    OKeeps z0 (execMulh c pr body s) := State.issue_keeps hs sRR_ok

theorem execMulhu_keeps {z0 s : State} {c : Nat} {pr : BitVec 4} {body : BitVec 48} (hs : Keeps z0 s) :
    OKeeps z0 (execMulhu c pr body s) := State.issue_keeps hs sRR_ok

theorem execDiv_keeps {z0 s : State} {c : Nat} {pr : BitVec 4} {body : BitVec 48} (hs : Keeps z0 s) :
    OKeeps z0 (execDiv c pr body s) := State.issue_keeps hs sRR_ok

theorem execDivu_keeps {z0 s : State} {c : Nat} {pr : BitVec 4} {body : BitVec 48} (hs : Keeps z0 s) :
    OKeeps z0 (execDivu c pr body s) := State.issue_keeps hs sRR_ok

theorem execRem_keeps {z0 s : State} {c : Nat} {pr : BitVec 4} {body : BitVec 48} (hs : Keeps z0 s) :
    OKeeps z0 (execRem c pr body s) := State.issue_keeps hs sRR_ok

theorem execRemu_keeps {z0 s : State} {c : Nat} {pr : BitVec 4} {body : BitVec 48} (hs : Keeps z0 s) :
    OKeeps z0 (execRemu c pr body s) := State.issue_keeps hs sRR_ok

theorem execAnd_keeps {z0 s : State} {c : Nat} {pr : BitVec 4} {body : BitVec 48} (hs : Keeps z0 s) :
    OKeeps z0 (execAnd c pr body s) := State.issue_keeps hs sRR_ok

theorem execAndi_keeps {z0 s : State} {c : Nat} {pr : BitVec 4} {body : BitVec 48} (hs : Keeps z0 s) :
    OKeeps z0 (execAndi c pr body s) := State.issue_keeps hs sRI_ok

theorem execOr_keeps {z0 s : State} {c : Nat} {pr : BitVec 4} {body : BitVec 48} (hs : Keeps z0 s) :
    OKeeps z0 (execOr c pr body s) := State.issue_keeps hs sRR_ok

theorem execOri_keeps {z0 s : State} {c : Nat} {pr : BitVec 4} {body : BitVec 48} (hs : Keeps z0 s) :
    OKeeps z0 (execOri c pr body s) := State.issue_keeps hs sRI_ok

theorem execXor_keeps {z0 s : State} {c : Nat} {pr : BitVec 4} {body : BitVec 48} (hs : Keeps z0 s) :
    OKeeps z0 (execXor c pr body s) := State.issue_keeps hs sRR_ok

theorem execXori_keeps {z0 s : State} {c : Nat} {pr : BitVec 4} {body : BitVec 48} (hs : Keeps z0 s) :
    OKeeps z0 (execXori c pr body s) := State.issue_keeps hs sRI_ok

theorem execSll_keeps {z0 s : State} {c : Nat} {pr : BitVec 4} {body : BitVec 48} (hs : Keeps z0 s) :
    OKeeps z0 (execSll c pr body s) := State.issue_keeps hs sRR_ok

theorem execSlli_keeps {z0 s : State} {c : Nat} {pr : BitVec 4} {body : BitVec 48} (hs : Keeps z0 s) :
    OKeeps z0 (execSlli c pr body s) := State.issue_keeps hs sShI_ok

theorem execSrl_keeps {z0 s : State} {c : Nat} {pr : BitVec 4} {body : BitVec 48} (hs : Keeps z0 s) :
    OKeeps z0 (execSrl c pr body s) := State.issue_keeps hs sRR_ok

theorem execSrli_keeps {z0 s : State} {c : Nat} {pr : BitVec 4} {body : BitVec 48} (hs : Keeps z0 s) :
    OKeeps z0 (execSrli c pr body s) := State.issue_keeps hs sShI_ok

theorem execSra_keeps {z0 s : State} {c : Nat} {pr : BitVec 4} {body : BitVec 48} (hs : Keeps z0 s) :
    OKeeps z0 (execSra c pr body s) := State.issue_keeps hs sRR_ok

theorem execSrai_keeps {z0 s : State} {c : Nat} {pr : BitVec 4} {body : BitVec 48} (hs : Keeps z0 s) :
    OKeeps z0 (execSrai c pr body s) := State.issue_keeps hs sShI_ok

theorem execMin_keeps {z0 s : State} {c : Nat} {pr : BitVec 4} {body : BitVec 48} (hs : Keeps z0 s) :
    OKeeps z0 (execMin c pr body s) := State.issue_keeps hs sRR_ok

theorem execMini_keeps {z0 s : State} {c : Nat} {pr : BitVec 4} {body : BitVec 48} (hs : Keeps z0 s) :
    OKeeps z0 (execMini c pr body s) := State.issue_keeps hs sRI_ok

theorem execMax_keeps {z0 s : State} {c : Nat} {pr : BitVec 4} {body : BitVec 48} (hs : Keeps z0 s) :
    OKeeps z0 (execMax c pr body s) := State.issue_keeps hs sRR_ok

theorem execMaxi_keeps {z0 s : State} {c : Nat} {pr : BitVec 4} {body : BitVec 48} (hs : Keeps z0 s) :
    OKeeps z0 (execMaxi c pr body s) := State.issue_keeps hs sRI_ok

theorem execMinu_keeps {z0 s : State} {c : Nat} {pr : BitVec 4} {body : BitVec 48} (hs : Keeps z0 s) :
    OKeeps z0 (execMinu c pr body s) := State.issue_keeps hs sRR_ok

theorem execMaxu_keeps {z0 s : State} {c : Nat} {pr : BitVec 4} {body : BitVec 48} (hs : Keeps z0 s) :
    OKeeps z0 (execMaxu c pr body s) := State.issue_keeps hs sRR_ok

theorem execSel_keeps {z0 s : State} {c : Nat} {pr : BitVec 4} {body : BitVec 48} (hs : Keeps z0 s) :
    OKeeps z0 (execSel c pr body s) := State.issue_keeps hs opSel_ok

theorem execClz_keeps {z0 s : State} {c : Nat} {pr : BitVec 4} {body : BitVec 48} (hs : Keeps z0 s) :
    OKeeps z0 (execClz c pr body s) := State.issue_keeps hs sR1_ok

theorem execPopc_keeps {z0 s : State} {c : Nat} {pr : BitVec 4} {body : BitVec 48} (hs : Keeps z0 s) :
    OKeeps z0 (execPopc c pr body s) := State.issue_keeps hs sR1_ok

theorem execLi_keeps {z0 s : State} {c : Nat} {pr : BitVec 4} {body : BitVec 48} (hs : Keeps z0 s) :
    OKeeps z0 (execLi c pr body s) := State.issue_keeps hs opLi_ok

theorem execLih_keeps {z0 s : State} {c : Nat} {pr : BitVec 4} {body : BitVec 48} (hs : Keeps z0 s) :
    OKeeps z0 (execLih c pr body s) := State.issue_keeps hs opLih_ok

theorem execCmpEq_keeps {z0 s : State} {c : Nat} {pr : BitVec 4} {body : BitVec 48} (hs : Keeps z0 s) :
    OKeeps z0 (execCmpEq c pr body s) := State.issue_keeps hs cmpRR_ok

theorem execCmpNe_keeps {z0 s : State} {c : Nat} {pr : BitVec 4} {body : BitVec 48} (hs : Keeps z0 s) :
    OKeeps z0 (execCmpNe c pr body s) := State.issue_keeps hs cmpRR_ok

theorem execCmpLt_keeps {z0 s : State} {c : Nat} {pr : BitVec 4} {body : BitVec 48} (hs : Keeps z0 s) :
    OKeeps z0 (execCmpLt c pr body s) := State.issue_keeps hs cmpRR_ok

theorem execCmpLtu_keeps {z0 s : State} {c : Nat} {pr : BitVec 4} {body : BitVec 48} (hs : Keeps z0 s) :
    OKeeps z0 (execCmpLtu c pr body s) := State.issue_keeps hs cmpRR_ok

theorem execCmpGe_keeps {z0 s : State} {c : Nat} {pr : BitVec 4} {body : BitVec 48} (hs : Keeps z0 s) :
    OKeeps z0 (execCmpGe c pr body s) := State.issue_keeps hs cmpRR_ok

theorem execCmpGeu_keeps {z0 s : State} {c : Nat} {pr : BitVec 4} {body : BitVec 48} (hs : Keeps z0 s) :
    OKeeps z0 (execCmpGeu c pr body s) := State.issue_keeps hs cmpRR_ok

theorem execCmpiEq_keeps {z0 s : State} {c : Nat} {pr : BitVec 4} {body : BitVec 48} (hs : Keeps z0 s) :
    OKeeps z0 (execCmpiEq c pr body s) := State.issue_keeps hs cmpRI_ok

theorem execCmpiNe_keeps {z0 s : State} {c : Nat} {pr : BitVec 4} {body : BitVec 48} (hs : Keeps z0 s) :
    OKeeps z0 (execCmpiNe c pr body s) := State.issue_keeps hs cmpRI_ok

theorem execCmpiLt_keeps {z0 s : State} {c : Nat} {pr : BitVec 4} {body : BitVec 48} (hs : Keeps z0 s) :
    OKeeps z0 (execCmpiLt c pr body s) := State.issue_keeps hs cmpRI_ok

theorem execCmpiLtu_keeps {z0 s : State} {c : Nat} {pr : BitVec 4} {body : BitVec 48} (hs : Keeps z0 s) :
    OKeeps z0 (execCmpiLtu c pr body s) := State.issue_keeps hs cmpRI_ok

theorem execCmpiGe_keeps {z0 s : State} {c : Nat} {pr : BitVec 4} {body : BitVec 48} (hs : Keeps z0 s) :
    OKeeps z0 (execCmpiGe c pr body s) := State.issue_keeps hs cmpRI_ok

theorem execCmpiGeu_keeps {z0 s : State} {c : Nat} {pr : BitVec 4} {body : BitVec 48} (hs : Keeps z0 s) :
    OKeeps z0 (execCmpiGeu c pr body s) := State.issue_keeps hs cmpRI_ok

theorem execPand_keeps {z0 s : State} {c : Nat} {pr : BitVec 4} {body : BitVec 48} (hs : Keeps z0 s) :
    OKeeps z0 (execPand c pr body s) := State.issue_keeps hs predRR_ok

theorem execPor_keeps {z0 s : State} {c : Nat} {pr : BitVec 4} {body : BitVec 48} (hs : Keeps z0 s) :
    OKeeps z0 (execPor c pr body s) := State.issue_keeps hs predRR_ok

theorem execPxor_keeps {z0 s : State} {c : Nat} {pr : BitVec 4} {body : BitVec 48} (hs : Keeps z0 s) :
    OKeeps z0 (execPxor c pr body s) := State.issue_keeps hs predRR_ok

theorem execPandn_keeps {z0 s : State} {c : Nat} {pr : BitVec 4} {body : BitVec 48} (hs : Keeps z0 s) :
    OKeeps z0 (execPandn c pr body s) := State.issue_keeps hs predRR_ok

theorem execAmov_keeps {z0 s : State} {c : Nat} {pr : BitVec 4} {body : BitVec 48} (hs : Keeps z0 s) :
    OKeeps z0 (execAmov c pr body s) := State.issue_keeps hs opAmov_ok

theorem execAadd_keeps {z0 s : State} {c : Nat} {pr : BitVec 4} {body : BitVec 48} (hs : Keeps z0 s) :
    OKeeps z0 (execAadd c pr body s) := State.issue_keeps hs opAadd_ok

theorem execAaddi_keeps {z0 s : State} {c : Nat} {pr : BitVec 4} {body : BitVec 48} (hs : Keeps z0 s) :
    OKeeps z0 (execAaddi c pr body s) := State.issue_keeps hs opAaddi_ok

theorem execAmovs_keeps {z0 s : State} {c : Nat} {pr : BitVec 4} {body : BitVec 48} (hs : Keeps z0 s) :
    OKeeps z0 (execAmovs c pr body s) := State.issue_keeps hs opAmovs_ok

theorem execAlocal_keeps {z0 s : State} {c : Nat} {pr : BitVec 4} {body : BitVec 48} (hs : Keeps z0 s) :
    OKeeps z0 (execAlocal c pr body s) := State.issue_keeps hs opAlocal_ok

theorem execBr_keeps {z0 s : State} {c : Nat} {pr : BitVec 4} {body : BitVec 48} (hs : Keeps z0 s) :
    OKeeps z0 (execBr c pr body s) := State.issue_keeps hs opBr_ok

theorem execJr_keeps {z0 s : State} {c : Nat} {pr : BitVec 4} {body : BitVec 48} (hs : Keeps z0 s) :
    OKeeps z0 (execJr c pr body s) := State.issue_keeps hs opJr_ok

theorem execCall_keeps {z0 s : State} {c : Nat} {pr : BitVec 4} {body : BitVec 48} (hs : Keeps z0 s) :
    OKeeps z0 (execCall c pr body s) := State.issue_keeps hs opCall_ok

theorem execRet_keeps {z0 s : State} {c : Nat} {pr : BitVec 4} {body : BitVec 48} (hs : Keeps z0 s) :
    OKeeps z0 (execRet c pr body s) := State.issue_keeps hs opRet_ok

theorem execLoop_keeps {z0 s : State} {c : Nat} {pr : BitVec 4} {body : BitVec 48} (hs : Keeps z0 s) :
    OKeeps z0 (execLoop c pr body s) := State.issue_keeps hs opLoop_ok

theorem execNop_keeps {z0 s : State} {c : Nat} {pr : BitVec 4} {body : BitVec 48} (hs : Keeps z0 s) :
    OKeeps z0 (execNop c pr body s) := State.issue_keeps hs opIdle_ok

theorem execEndTile_keeps {z0 s : State} {c : Nat} {pr : BitVec 4} {body : BitVec 48} (hs : Keeps z0 s) :
    OKeeps z0 (execEndTile c pr body s) := State.issue_keeps hs opEnd_ok

theorem execTrap_keeps {z0 s : State} {c : Nat} {pr : BitVec 4} {body : BitVec 48} (hs : Keeps z0 s) :
    OKeeps z0 (execTrap c pr body s) := State.issue_keeps hs opTrap_ok

theorem execWait_keeps {z0 s : State} {c : Nat} {pr : BitVec 4} {body : BitVec 48} (hs : Keeps z0 s) :
    OKeeps z0 (execWait c pr body s) := State.issue_keeps hs opIdle_ok

theorem execLdB_keeps {z0 s : State} {c : Nat} {pr : BitVec 4} {body : BitVec 48} (hs : Keeps z0 s) :
    OKeeps z0 (execLdB c pr body s) := State.issue_keeps hs opLd_ok

theorem execLdBu_keeps {z0 s : State} {c : Nat} {pr : BitVec 4} {body : BitVec 48} (hs : Keeps z0 s) :
    OKeeps z0 (execLdBu c pr body s) := State.issue_keeps hs opLd_ok

theorem execLdH_keeps {z0 s : State} {c : Nat} {pr : BitVec 4} {body : BitVec 48} (hs : Keeps z0 s) :
    OKeeps z0 (execLdH c pr body s) := State.issue_keeps hs opLd_ok

theorem execLdHu_keeps {z0 s : State} {c : Nat} {pr : BitVec 4} {body : BitVec 48} (hs : Keeps z0 s) :
    OKeeps z0 (execLdHu c pr body s) := State.issue_keeps hs opLd_ok

theorem execLdW_keeps {z0 s : State} {c : Nat} {pr : BitVec 4} {body : BitVec 48} (hs : Keeps z0 s) :
    OKeeps z0 (execLdW c pr body s) := State.issue_keeps hs opLd_ok

theorem execLdWu_keeps {z0 s : State} {c : Nat} {pr : BitVec 4} {body : BitVec 48} (hs : Keeps z0 s) :
    OKeeps z0 (execLdWu c pr body s) := State.issue_keeps hs opLd_ok

theorem execLdD_keeps {z0 s : State} {c : Nat} {pr : BitVec 4} {body : BitVec 48} (hs : Keeps z0 s) :
    OKeeps z0 (execLdD c pr body s) := State.issue_keeps hs opLd_ok

theorem execStB_keeps {z0 s : State} {c : Nat} {pr : BitVec 4} {body : BitVec 48} (hs : Keeps z0 s) :
    OKeeps z0 (execStB c pr body s) := State.issue_keeps hs opSt_ok

theorem execStH_keeps {z0 s : State} {c : Nat} {pr : BitVec 4} {body : BitVec 48} (hs : Keeps z0 s) :
    OKeeps z0 (execStH c pr body s) := State.issue_keeps hs opSt_ok

theorem execStW_keeps {z0 s : State} {c : Nat} {pr : BitVec 4} {body : BitVec 48} (hs : Keeps z0 s) :
    OKeeps z0 (execStW c pr body s) := State.issue_keeps hs opSt_ok

theorem execStD_keeps {z0 s : State} {c : Nat} {pr : BitVec 4} {body : BitVec 48} (hs : Keeps z0 s) :
    OKeeps z0 (execStD c pr body s) := State.issue_keeps hs opSt_ok

theorem execVld_keeps {z0 s : State} {c : Nat} {pr : BitVec 4} {body : BitVec 48} (hs : Keeps z0 s) :
    OKeeps z0 (execVld c pr body s) := State.issue_keeps hs (opLoad_ok (fun _ _ _ h => h))

theorem execVst_keeps {z0 s : State} {c : Nat} {pr : BitVec 4} {body : BitVec 48} (hs : Keeps z0 s) :
    OKeeps z0 (execVst c pr body s) := State.issue_keeps hs opStore_ok

theorem execXld_keeps {z0 s : State} {c : Nat} {pr : BitVec 4} {body : BitVec 48} (hs : Keeps z0 s) :
    OKeeps z0 (execXld c pr body s) := State.issue_keeps hs opXfer_ok

theorem execXst_keeps {z0 s : State} {c : Nat} {pr : BitVec 4} {body : BitVec 48} (hs : Keeps z0 s) :
    OKeeps z0 (execXst c pr body s) := State.issue_keeps hs opXfer_ok

theorem execXcp_keeps {z0 s : State} {c : Nat} {pr : BitVec 4} {body : BitVec 48} (hs : Keeps z0 s) :
    OKeeps z0 (execXcp c pr body s) := State.issue_keeps hs opXfer_ok

theorem execXpf_keeps {z0 s : State} {c : Nat} {pr : BitVec 4} {body : BitVec 48} (hs : Keeps z0 s) :
    OKeeps z0 (execXpf c pr body s) := State.issue_keeps hs opXpf_ok

theorem execVadd_keeps {z0 s : State} {c : Nat} {pr : BitVec 4} {body : BitVec 48} (hs : Keeps z0 s) :
    OKeeps z0 (execVadd c pr body s) := State.issue_keeps hs v8_ok

theorem execVsub_keeps {z0 s : State} {c : Nat} {pr : BitVec 4} {body : BitVec 48} (hs : Keeps z0 s) :
    OKeeps z0 (execVsub c pr body s) := State.issue_keeps hs v8_ok

theorem execVmul_keeps {z0 s : State} {c : Nat} {pr : BitVec 4} {body : BitVec 48} (hs : Keeps z0 s) :
    OKeeps z0 (execVmul c pr body s) := State.issue_keeps hs v8_ok

theorem execVfma_keeps {z0 s : State} {c : Nat} {pr : BitVec 4} {body : BitVec 48} (hs : Keeps z0 s) :
    OKeeps z0 (execVfma c pr body s) := State.issue_keeps hs v8_ok

theorem execVmin_keeps {z0 s : State} {c : Nat} {pr : BitVec 4} {body : BitVec 48} (hs : Keeps z0 s) :
    OKeeps z0 (execVmin c pr body s) := State.issue_keeps hs v8_ok

theorem execVmax_keeps {z0 s : State} {c : Nat} {pr : BitVec 4} {body : BitVec 48} (hs : Keeps z0 s) :
    OKeeps z0 (execVmax c pr body s) := State.issue_keeps hs v8_ok

theorem execVabs_keeps {z0 s : State} {c : Nat} {pr : BitVec 4} {body : BitVec 48} (hs : Keeps z0 s) :
    OKeeps z0 (execVabs c pr body s) := State.issue_keeps hs v8_ok

theorem execVneg_keeps {z0 s : State} {c : Nat} {pr : BitVec 4} {body : BitVec 48} (hs : Keeps z0 s) :
    OKeeps z0 (execVneg c pr body s) := State.issue_keeps hs v8_ok

theorem execVand_keeps {z0 s : State} {c : Nat} {pr : BitVec 4} {body : BitVec 48} (hs : Keeps z0 s) :
    OKeeps z0 (execVand c pr body s) := State.issue_keeps hs v8i_ok

theorem execVor_keeps {z0 s : State} {c : Nat} {pr : BitVec 4} {body : BitVec 48} (hs : Keeps z0 s) :
    OKeeps z0 (execVor c pr body s) := State.issue_keeps hs v8i_ok

theorem execVxor_keeps {z0 s : State} {c : Nat} {pr : BitVec 4} {body : BitVec 48} (hs : Keeps z0 s) :
    OKeeps z0 (execVxor c pr body s) := State.issue_keeps hs v8i_ok

theorem execVshl_keeps {z0 s : State} {c : Nat} {pr : BitVec 4} {body : BitVec 48} (hs : Keeps z0 s) :
    OKeeps z0 (execVshl c pr body s) := State.issue_keeps hs v8i_ok

theorem execVshr_keeps {z0 s : State} {c : Nat} {pr : BitVec 4} {body : BitVec 48} (hs : Keeps z0 s) :
    OKeeps z0 (execVshr c pr body s) := State.issue_keeps hs v8i_ok

theorem execVsra_keeps {z0 s : State} {c : Nat} {pr : BitVec 4} {body : BitVec 48} (hs : Keeps z0 s) :
    OKeeps z0 (execVsra c pr body s) := State.issue_keeps hs v8i_ok

theorem execVcmpEq_keeps {z0 s : State} {c : Nat} {pr : BitVec 4} {body : BitVec 48} (hs : Keeps z0 s) :
    OKeeps z0 (execVcmpEq c pr body s) := State.issue_keeps hs vCmp_ok

theorem execVcmpLt_keeps {z0 s : State} {c : Nat} {pr : BitVec 4} {body : BitVec 48} (hs : Keeps z0 s) :
    OKeeps z0 (execVcmpLt c pr body s) := State.issue_keeps hs vCmp_ok

theorem execVcmpLe_keeps {z0 s : State} {c : Nat} {pr : BitVec 4} {body : BitVec 48} (hs : Keeps z0 s) :
    OKeeps z0 (execVcmpLe c pr body s) := State.issue_keeps hs vCmp_ok

theorem execVcmpNe_keeps {z0 s : State} {c : Nat} {pr : BitVec 4} {body : BitVec 48} (hs : Keeps z0 s) :
    OKeeps z0 (execVcmpNe c pr body s) := State.issue_keeps hs vCmp_ok

theorem execVsel_keeps {z0 s : State} {c : Nat} {pr : BitVec 4} {body : BitVec 48} (hs : Keeps z0 s) :
    OKeeps z0 (execVsel c pr body s) := State.issue_keeps hs v8i_ok

theorem execVcvt_keeps {z0 s : State} {c : Nat} {pr : BitVec 4} {body : BitVec 48} (hs : Keeps z0 s) :
    OKeeps z0 (execVcvt c pr body s) := State.issue_keeps hs opVcvt_ok

theorem execVwid_keeps {z0 s : State} {c : Nat} {pr : BitVec 4} {body : BitVec 48} (hs : Keeps z0 s) :
    OKeeps z0 (execVwid c pr body s) := State.issue_keeps hs opVwid_ok

theorem execVnar_keeps {z0 s : State} {c : Nat} {pr : BitVec 4} {body : BitVec 48} (hs : Keeps z0 s) :
    OKeeps z0 (execVnar c pr body s) := State.issue_keeps hs opVnar_ok

theorem execVqsx_keeps {z0 s : State} {c : Nat} {pr : BitVec 4} {body : BitVec 48} (hs : Keeps z0 s) :
    OKeeps z0 (execVqsx c pr body s) := State.issue_keeps hs opVqsx_ok

theorem execVbcast_keeps {z0 s : State} {c : Nat} {pr : BitVec 4} {body : BitVec 48} (hs : Keeps z0 s) :
    OKeeps z0 (execVbcast c pr body s) := State.issue_keeps hs opVbcast_ok

theorem execVmovi_keeps {z0 s : State} {c : Nat} {pr : BitVec 4} {body : BitVec 48} (hs : Keeps z0 s) :
    OKeeps z0 (execVmovi c pr body s) := State.issue_keeps hs opVmovi_ok

theorem execVperm_keeps {z0 s : State} {c : Nat} {pr : BitVec 4} {body : BitVec 48} (hs : Keeps z0 s) :
    OKeeps z0 (execVperm c pr body s) := State.issue_keeps hs opVperm_ok

theorem execVgetf_keeps {z0 s : State} {c : Nat} {pr : BitVec 4} {body : BitVec 48} (hs : Keeps z0 s) :
    OKeeps z0 (execVgetf c pr body s) := State.issue_keeps hs opVgetf_ok

theorem execVclrf_keeps {z0 s : State} {c : Nat} {pr : BitVec 4} {body : BitVec 48} (hs : Keeps z0 s) :
    OKeeps z0 (execVclrf c pr body s) := State.issue_keeps hs opVclrf_ok

theorem execVredsum_keeps {z0 s : State} {c : Nat} {pr : BitVec 4} {body : BitVec 48} (hs : Keeps z0 s) :
    OKeeps z0 (execVredsum c pr body s) := State.issue_keeps hs vRed_ok

theorem execVredmax_keeps {z0 s : State} {c : Nat} {pr : BitVec 4} {body : BitVec 48} (hs : Keeps z0 s) :
    OKeeps z0 (execVredmax c pr body s) := State.issue_keeps hs vRed_ok

theorem execVredmin_keeps {z0 s : State} {c : Nat} {pr : BitVec 4} {body : BitVec 48} (hs : Keeps z0 s) :
    OKeeps z0 (execVredmin c pr body s) := State.issue_keeps hs vRed_ok

theorem execVexp2_keeps {z0 s : State} {c : Nat} {pr : BitVec 4} {body : BitVec 48} (hs : Keeps z0 s) :
    OKeeps z0 (execVexp2 c pr body s) := State.issue_keeps hs vFun_ok

theorem execVlog2_keeps {z0 s : State} {c : Nat} {pr : BitVec 4} {body : BitVec 48} (hs : Keeps z0 s) :
    OKeeps z0 (execVlog2 c pr body s) := State.issue_keeps hs vFun_ok

theorem execVrcp_keeps {z0 s : State} {c : Nat} {pr : BitVec 4} {body : BitVec 48} (hs : Keeps z0 s) :
    OKeeps z0 (execVrcp c pr body s) := State.issue_keeps hs vFun_ok

theorem execVrsqrt_keeps {z0 s : State} {c : Nat} {pr : BitVec 4} {body : BitVec 48} (hs : Keeps z0 s) :
    OKeeps z0 (execVrsqrt c pr body s) := State.issue_keeps hs vFun_ok

theorem execVsqrt_keeps {z0 s : State} {c : Nat} {pr : BitVec 4} {body : BitVec 48} (hs : Keeps z0 s) :
    OKeeps z0 (execVsqrt c pr body s) := State.issue_keeps hs vOp_ok

theorem execVdiv_keeps {z0 s : State} {c : Nat} {pr : BitVec 4} {body : BitVec 48} (hs : Keeps z0 s) :
    OKeeps z0 (execVdiv c pr body s) := State.issue_keeps hs vOp_ok

theorem execVtanh_keeps {z0 s : State} {c : Nat} {pr : BitVec 4} {body : BitVec 48} (hs : Keeps z0 s) :
    OKeeps z0 (execVtanh c pr body s) := State.issue_keeps hs vFun_ok

theorem execVsigm_keeps {z0 s : State} {c : Nat} {pr : BitVec 4} {body : BitVec 48} (hs : Keeps z0 s) :
    OKeeps z0 (execVsigm c pr body s) := State.issue_keeps hs vFun_ok

theorem execVerf_keeps {z0 s : State} {c : Nat} {pr : BitVec 4} {body : BitVec 48} (hs : Keeps z0 s) :
    OKeeps z0 (execVerf c pr body s) := State.issue_keeps hs vFun_ok

theorem execGfAdd_keeps {z0 s : State} {c : Nat} {pr : BitVec 4} {body : BitVec 48} (hs : Keeps z0 s) :
    OKeeps z0 (execGfAdd c pr body s) := State.issue_keeps hs gfOp_ok

theorem execGfMul_keeps {z0 s : State} {c : Nat} {pr : BitVec 4} {body : BitVec 48} (hs : Keeps z0 s) :
    OKeeps z0 (execGfMul c pr body s) := State.issue_keeps hs gfOp_ok

theorem execGfMac_keeps {z0 s : State} {c : Nat} {pr : BitVec 4} {body : BitVec 48} (hs : Keeps z0 s) :
    OKeeps z0 (execGfMac c pr body s) := State.issue_keeps hs gfOp_ok

theorem execGfHorner_keeps {z0 s : State} {c : Nat} {pr : BitVec 4} {body : BitVec 48} (hs : Keeps z0 s) :
    OKeeps z0 (execGfHorner c pr body s) := State.issue_keeps hs gfOp_ok

theorem execGfInv_keeps {z0 s : State} {c : Nat} {pr : BitVec 4} {body : BitVec 48} (hs : Keeps z0 s) :
    OKeeps z0 (execGfInv c pr body s) := State.issue_keeps hs gfOp_ok

theorem execGfExp_keeps {z0 s : State} {c : Nat} {pr : BitVec 4} {body : BitVec 48} (hs : Keeps z0 s) :
    OKeeps z0 (execGfExp c pr body s) := State.issue_keeps hs gfOp_ok

theorem execGfLog_keeps {z0 s : State} {c : Nat} {pr : BitVec 4} {body : BitVec 48} (hs : Keeps z0 s) :
    OKeeps z0 (execGfLog c pr body s) := State.issue_keeps hs gfOp_ok

theorem execGfMulc_keeps {z0 s : State} {c : Nat} {pr : BitVec 4} {body : BitVec 48} (hs : Keeps z0 s) :
    OKeeps z0 (execGfMulc c pr body s) := State.issue_keeps hs opGfMulc_ok

theorem execMma_keeps {z0 s : State} {c : Nat} {pr : BitVec 4} {body : BitVec 48} (hs : Keeps z0 s) :
    OKeeps z0 (execMma c pr body s) := State.issue_keeps hs opMma_ok

theorem execAcczero_keeps {z0 s : State} {c : Nat} {pr : BitVec 4} {body : BitVec 48} (hs : Keeps z0 s) :
    OKeeps z0 (execAcczero c pr body s) := State.issue_keeps hs opAcczero_ok

theorem execAccst_keeps {z0 s : State} {c : Nat} {pr : BitVec 4} {body : BitVec 48} (hs : Keeps z0 s) :
    OKeeps z0 (execAccst c pr body s) := State.issue_keeps hs opAccst_ok

theorem execAccld_keeps {z0 s : State} {c : Nat} {pr : BitVec 4} {body : BitVec 48} (hs : Keeps z0 s) :
    OKeeps z0 (execAccld c pr body s) := State.issue_keeps hs opAccld_ok

theorem execAcc2v_keeps {z0 s : State} {c : Nat} {pr : BitVec 4} {body : BitVec 48} (hs : Keeps z0 s) :
    OKeeps z0 (execAcc2v c pr body s) := State.issue_keeps hs opAcc2v_ok

theorem execV2acc_keeps {z0 s : State} {c : Nat} {pr : BitVec 4} {body : BitVec 48} (hs : Keeps z0 s) :
    OKeeps z0 (execV2acc c pr body s) := State.issue_keeps hs opV2acc_ok

end Sys2Proof.Machine
end

