-- ==== Sys2Proof/Laws/Tack.lean ====
section
/-!
SUPPORT. What issuing a Tack instruction answers, for each of the ways it can end: it runs, its predicate is false, it is illegal, or its
cost passes the work limit.
-/

namespace Sys2Proof.Machine

variable {s : State} {c : Nat} {t : Tile} {grp func cost : Nat} {pr : BitVec 4} {body : BitVec 48} {o : Op}

/-- A command that answers exactly a state completes. -/
theorem Completes.of_next {i : Instr} {s t : State} {P : State → Prop} (h : exec i s = .next t) (hp : P t) : Completes i s P := ⟨t, h, hp⟩

/-- A next instruction that is listed is where the tile stands next. -/
theorem State.settleTile_listed {n : Nat} {u : Tile} (h : listedWord (s.codeWord c u) = true) : s.settleTile n c u = s.setTile c (some u) := by
  cases n with
  | zero => rfl
  | succ n => simp [State.settleTile, h]

/-- After an instruction that lands, the tile is put back at the next index. -/
theorem State.advance_lands {u : Tile} {w next : Nat} (he : u.ended = false) (h : Lands s c u next = true) :
    s.advance c u w next = s.placed c u next := by
  unfold Lands at h
  simp only [Bool.and_eq_true, decide_eq_true_eq] at h
  unfold State.advance
  simp only [he, Bool.false_eq_true, if_false]
  have h1 : ¬ u.len ≤ (u.stepLoop next).pc := by omega
  rw [if_neg h1, State.settleTile_listed h.2, State.placed]

/-- The parts of `Issues`. -/
theorem Issues.parts (h : Issues s c t grp func cost pr body = true) :
    s.tileOf c = some t ∧ t.ended = false ∧ s.codeWord c t = opWord grp func pr.toNat body.toNat ∧ (s.fetchWord c t).2.1 = 0 ∧
    t.executes pr.toNat = true ∧ t.work + cost ≤ 1600 := by
  unfold Issues at h
  simp only [Bool.and_eq_true, decide_eq_true_eq, Bool.not_eq_true', beq_iff_eq] at h
  exact ⟨h.1.1.1.1.1, h.1.1.1.1.2, h.1.1.1.2, h.1.1.2, h.1.2, h.2⟩

/-- The command of an instruction whose tile stands at its word issues it. -/
theorem State.issue_at (ht : s.tileOf c = some t) (he : t.ended = false) (hw : s.codeWord c t = opWord o.grp o.func pr.toNat body.toNat) :
    s.issue c pr body o = .next (s.issueOp c t pr.toNat body.toNat o) := by
  simp [State.issue, State.atWord, ht, he, hw]

/-- Upsets strike the data and the residues of rows alone. -/
theorem Tile.flip_parts (t : Tile) (q m : Nat) : (t.flip q m) = { t with v := (t.flip q m).v, acc := (t.flip q m).acc } := by
  unfold Tile.flip
  dsimp only
  split <;> rfl

theorem Tile.setOffs_parts (t : Tile) (l : List (Nat × Nat)) : (t.setOffs l) = { t with off := (t.setOffs l).off } := rfl

theorem Tile.strike_parts (t : Tile) (q m : Nat) :
    (t.strike q m) = { t with v := (t.strike q m).v, acc := (t.strike q m).acc, off := (t.strike q m).off } := by
  unfold Tile.strike
  dsimp only
  rw [Tile.flip_parts, Tile.setOffs_parts]

/-- What the upsets that are due leave: everything but the vector registers, the accumulators, their residues and the upsets that wait. -/
theorem Tile.struck_parts (t : Tile) : t.struck =
    { t with v := t.struck.v, acc := t.struck.acc, off := t.struck.off, ups := t.struck.ups } := by
  have h : ∀ (l : List (Nat × Nat × Nat)) (x : Tile), x = { t with v := x.v, acc := x.acc, off := x.off, ups := x.ups } →
      l.foldl (fun t u => t.strike (u.2.1 - 1) u.2.2) x = { t with
        v := (l.foldl (fun t u => t.strike (u.2.1 - 1) u.2.2) x).v, acc := (l.foldl (fun t u => t.strike (u.2.1 - 1) u.2.2) x).acc,
        off := (l.foldl (fun t u => t.strike (u.2.1 - 1) u.2.2) x).off, ups := (l.foldl (fun t u => t.strike (u.2.1 - 1) u.2.2) x).ups } := by
    intro l
    induction l with
    | nil => exact fun x hx => hx
    | cons e l ih =>
      intro x hx
      refine ih (x.strike (e.2.1 - 1) e.2.2) ?_
      rw [Tile.strike_parts, hx]
  exact h _ _ rfl

/-- A tile that nothing has upset stays as it is. -/
theorem Tile.struck_sound {t : Tile} (h : t.Sound) : t.struck = t := by
  cases t
  obtain ⟨h1, h2⟩ := h
  simp only at h1 h2
  subst h1 h2
  rfl

/-- An instruction whose results carry no residue passes its check. -/
theorem Op.checked_default {s : State} {u r : Tile} {b : Nat} (h : o.chk = {}) : o.checked b s u r = r := by
  unfold Op.checked
  split
  · rfl
  · rw [h]
    simp [Tile.setOffs]

/-- A tile that nothing has upset passes every check. -/
theorem Op.checked_sound {s : State} {u r : Tile} {b : Nat} (h : u.off = []) (k : r.ups = []) : o.checked b s u r = r := by
  simp [Op.checked, h, k]

/-- An instruction that issues with nothing against it goes on as its effect says. -/
theorem State.issue_effect (h : Issues s c t o.grp o.func (o.cost body.toNat t) pr body = true) (hl : o.legal body.toNat = none) :
    s.issue c pr body o = .next (
      let u := s.issued c t (o.cost body.toNat t)
      let e := o.eff body.toNat u.1 u.2
      match e.trap with
      | some x => e.s.tileTrap c e.t (opWord o.grp o.func pr.toNat body.toNat) x
      | none => e.s.advance c (o.checked body.toNat u.1 u.2 e.t) (opWord o.grp o.func pr.toNat body.toNat) (e.jump.getD (t.pc + 1))) := by
  obtain ⟨h1, h2, h3, h4, h5, h6⟩ := Issues.parts h
  rw [State.issue_at h1 h2 h3]
  have h7 : ¬ workMax < t.work + o.cost body.toNat t := by unfold workMax; omega
  simp only [State.issueOp, State.issued, h5, if_true, h4, ne_eq, not_true, if_false, h7, Bool.not_true, Bool.false_eq_true, hl]
  all_goals
    generalize (((s.fetchWord c t).1.addWork c t (o.cost body.toNat t)).2).struck = x
    generalize o.eff body.toNat ((s.fetchWord c t).1.addWork c t (o.cost body.toNat t)).1 x = e
    cases e.trap <;> rfl

/-- What an instruction that issues leaves of the tile's control state. -/
theorem State.issued_control (s : State) (c n : Nat) (t : Tile) : (s.issued c t n).2.pc = t.pc ∧ (s.issued c t n).2.code = t.code ∧
    (s.issued c t n).2.len = t.len ∧ (s.issued c t n).2.loops = t.loops ∧ (s.issued c t n).2.ended = t.ended ∧ (s.issued c t n).2.s = t.s ∧
    (s.issued c t n).2.a = t.a ∧ (s.issued c t n).2.p = t.p := by
  unfold State.issued
  dsimp only
  rw [Tile.struck_parts]
  exact ⟨rfl, rfl, rfl, rfl, rfl, rfl, rfl, rfl⟩

/-- Where a tile goes on depends on its control state alone. -/
theorem Lands.congr {u v : Tile} {n : Nat} (h : Lands s c v n = true) (h1 : u.pc = v.pc) (h2 : u.loops = v.loops) (h3 : u.code = v.code)
    (h4 : u.len = v.len) : Lands s c u n = true := by
  have e : (u.stepLoop n).pc = (v.stepLoop n).pc ∧ (u.stepLoop n).code = (v.stepLoop n).code := by
    unfold Tile.stepLoop
    rw [h1, h2]
    repeat' first
      | exact ⟨rfl, h3⟩
      | split
  simp only [Lands, Tile.wordAt, State.codeWord, State.icLine] at h ⊢
  rw [e.1, e.2, h4]
  exact h

/-- An instruction that changes the tile alone, on its way to the next index: `g` gives the right result, and the residue check follows. -/
theorem State.issue_runs {g : Tile → Tile} (h : Runs s c t o.grp o.func (o.cost body.toNat t) pr body = true) (hl : o.legal body.toNat = none)
    (he : ∀ u : State × Tile, o.eff body.toNat u.1 u.2 = Eff.reg u.1 (g u.2)) (hg : ∀ u : Tile, (g u).ended = u.ended ∧ (g u).len = u.len ∧
      (g u).pc = u.pc ∧ (g u).code = u.code ∧ (g u).loops = u.loops)
    (hc : ∀ (s : State) (u : Tile), u = (s.issued c t (o.cost body.toNat t)).2 → o.checked body.toNat (s.issued c t (o.cost body.toNat t)).1 u (g u) = g u) :
    s.issue c pr body o = .next (s.after c t (o.cost body.toNat t) g) := by
  unfold Runs at h
  rw [Bool.and_eq_true] at h
  have p := Issues.parts h.1
  have q := State.issued_control s c (o.cost body.toNat t) t
  have w := hg (s.issued c t (o.cost body.toNat t)).2
  rw [State.issue_effect h.1 hl]
  simp only [he, Eff.reg, State.after, Option.getD_none]
  rw [hc s _ rfl, State.advance_lands]
  · rw [w.1, q.2.2.2.2.1]; exact p.2.1
  · exact Lands.congr h.2 (w.2.2.1.trans q.1) (w.2.2.2.2.trans q.2.2.2.1) (w.2.2.2.1.trans q.2.1) (w.2.1.trans q.2.2.1)

/-- The same for an instruction whose results carry no residue, in any tile. -/
theorem State.issue_plain {g : Tile → Tile} (h : Runs s c t o.grp o.func (o.cost body.toNat t) pr body = true) (hl : o.legal body.toNat = none)
    (he : ∀ u : State × Tile, o.eff body.toNat u.1 u.2 = Eff.reg u.1 (g u.2)) (hg : ∀ u : Tile, (g u).ended = u.ended ∧ (g u).len = u.len ∧
      (g u).pc = u.pc ∧ (g u).code = u.code ∧ (g u).loops = u.loops) (hc : o.chk = {}) :
    s.issue c pr body o = .next (s.after c t (o.cost body.toNat t) g) :=
  State.issue_runs h hl he hg (fun _ _ _ => Op.checked_default hc)

/-- The same for every instruction, in a tile that nothing has upset. -/
theorem State.issue_sound {g : Tile → Tile} (h : Runs s c t o.grp o.func (o.cost body.toNat t) pr body = true) (hl : o.legal body.toNat = none)
    (he : ∀ u : State × Tile, o.eff body.toNat u.1 u.2 = Eff.reg u.1 (g u.2)) (hg : ∀ u : Tile, (g u).ended = u.ended ∧ (g u).len = u.len ∧
      (g u).pc = u.pc ∧ (g u).code = u.code ∧ (g u).loops = u.loops ∧ (g u).ups = u.ups) (ht : t.Sound) :
    s.issue c pr body o = .next (s.after c t (o.cost body.toNat t) g) := by
  refine State.issue_runs h hl he (fun u => ⟨(hg u).1, (hg u).2.1, (hg u).2.2.1, (hg u).2.2.2.1, (hg u).2.2.2.2.1⟩) (fun s u hu => ?_)
  have e : u = { t with work := t.work + o.cost body.toNat t } := by
    rw [hu]
    exact Tile.struck_sound (t := { t with work := t.work + o.cost body.toNat t }) ht
  refine Op.checked_sound ?_ ?_
  · rw [e]; exact ht.1
  · rw [(hg u).2.2.2.2.2, e]; exact ht.2

/-- An illegal instruction ends the tile before any effect. -/
theorem State.issue_illegal {x : Trap} (h : Issues s c t o.grp o.func (o.cost body.toNat t) pr body = true) (hl : o.legal body.toNat = some x) :
    s.issue c pr body o = .next ((s.issued c t (o.cost body.toNat t)).1.tileTrap c (s.issued c t (o.cost body.toNat t)).2
      (opWord o.grp o.func pr.toNat body.toNat) x) := by
  obtain ⟨h1, h2, h3, h4, h5, h6⟩ := Issues.parts h
  rw [State.issue_at h1 h2 h3]
  have h7 : ¬ workMax < t.work + o.cost body.toNat t := by unfold workMax; omega
  simp only [State.issueOp, State.issued, h5, if_true, h4, ne_eq, not_true, if_false, h7, Bool.not_true, Bool.false_eq_true, hl]

/-- A cluster at another word, or without a tile, does nothing. -/
theorem State.issue_elsewhere (h : s.atWord c (opWord o.grp o.func pr.toNat body.toNat) = false) : s.issue c pr body o = .next s := by
  unfold State.issue
  split <;> simp [h]

end Sys2Proof.Machine
end

