-- ==== Sys2Proof/WellFormed.lean ====
section
/-!
DEFINITION. Which commands a sender can form: the ranges of their operands, as the block map, the ports and the numbers of the
spec bound them.  The meanings do not rest on it: a command outside these ranges names nothing and has the effect of one that
names nothing.
-/

namespace Sys2Proof

/-- An initiator code (R495). -/
def isInit (i : Nat) : Bool := decide (i < 512)

/-- A 32-bit register value (R9). -/
def isWord (v : Nat) : Bool := decide (v < 4294967296)

/-- A number of 8 bits: a block of the register space (R589), a slot, a serial byte. -/
def isByte (b : Nat) : Bool := decide (b < 256)

/-- A number of 6 bits: a queue of the scheduler (R338) or a context slot (R357). -/
def isByte6 (k : Nat) : Bool := decide (k < 64)

/-- The raw levels of the 16 digital inputs (R443). -/
def isHalf (n : Nat) : Bool := decide (n < 65536)

/-- Bytes. -/
def isBytes (l : List Nat) : Bool := l.all isByte

/-- A physical address of 48 bits (R171). -/
def isAddr (a : Nat) : Bool := decide (a < 281474976710656)

/-- A camera port, 8 being the parallel port (R107, R132). -/
def isCameraPort (p : Nat) : Bool := decide (p < 9)

/-- An Ethernet port (R553). -/
def isEth (p : Nat) : Bool := decide (p < 2)

/-- A Stirrup port (R414), its ejection unit (R431), or a Traif port (R376). -/
def isStp (p : Nat) : Bool := decide (p < 2)

/-- A module of a multi-module system (R376). -/
def isModule (m : Nat) : Bool := decide (m < 16)

/-- A physical cluster (R405). -/
def isCluster (c : Nat) : Bool := decide (c < 34)

/-- A serial lane (R538). -/
def isLane (m : Nat) : Bool := decide (m < 52)

/-- A power domain (R503, R590). -/
def isDomain (n : Nat) : Bool := decide (n < 60)

/-- A DMA channel (R563). -/
def isChannel (n : Nat) : Bool := decide (n < 32)

/-- A field output (R444). -/
def isOutput (n : Nat) : Bool := decide (n < 8)

/-- The ranges of a command's operands. -/
def Instr.wf : Instr → Bool
  | .enable _ i b v | .fence _ i b v | .reset _ i b v | .snap _ i b v =>
    isInit i && isByte b && isWord v
  | .startupComplete _ b | .shutdownComplete _ b | .fenceComplete _ b | .functionResetEnd _ b | .internalFault _ b
  | .serialByteReceived _ b =>
    isByte b
  | .registerWrite _ i addr v | .ringReadIndex _ i addr v =>
    isInit i && isAddr addr && isWord v
  | .powerOn _ | .brownOut _ | .brownOutRelease _ | .rstN _ | .criticalStateError _ _ | .thermalTrip _
  | .thermalTripRelease _ | .systemResetEnd _ _ | .bootReady _ | .imageVerified _ | .dramInitDone _ | .idReadRetry _
  | .idRecordWriteDone _ | .netBootTimeout _ _ | .pciePerst _ | .trialVerifyDone _ | .cameraDiscoveryRetry _
  | .encoderTypeTest _ _ _ | .teachIn _ | .teachInEdge _ | .codeVerdict _ _ _ _ | .unmatchedProbeEdge _ | .status _
  | .valve _ _ | .teach _ | .v24fLow _ | .v24fHigh _ | .pmbusRefresh _ _ _ _ _ _ | .clearFaults _ | .capability _
  | .statusByte _ | .statusWord _ | .readVin _ | .readIin _ | .readTemperature1 _ | .readTemperature2 _ | .readPin _
  | .pmbusRevision _ | .mfrId _ | .mfrModel _ | .mfrSerial _ | .pcamLineEnd _ _ _ _ | .cc0PulseEnd _ | .clmTloadDone _
  | .decodeDone _ | .dictLoadDone _ | .textRecord _ | .scrubRead _ _ | .drainDone _ _ | .convolution _ _ | .pooling _ _
  | .upSampling _ _ | .partialReduction _ _ | .stripeGroup _ _ | .stripeStart _ _ _ | .projection _ _ | .attention _ _
  | .seqOpen _ _ | .fork _ _ | .close _ _ | .pageCopyDone _ _ _ | .swapOutDone _ _ | .exchange _ _ | .barrier _ _
  | .commandComplete _ _ | .keyRecompute _ | .commandDeadlinePassed _ _ | .barrierReleaseTime _ _ | .voteTimeout _
  | .epochApply _ | .jobEnded _ | .upgradeTimeout _ | .positionSend _ | .timeSend _ | .systemSnapshot _
  | .heartbeatSend _ | .module0Lost _ | .recoveredClockLock _ | .recoveredClockLoss _ | .probeEdge _ _ _
  | .encoderSupplyLimit _ _ | .strobePulseEnd _ _ | .tickMonitorWindow _ _ | .holdover _ | .generatorInstant _ _
  | .captureEdge _ _ _ _ _ | .stage7HeartbeatMissing _ _ | .stage7Persist _ _ _ | .safeResetDelay _ | .fallbackFault _
  | .halterKick _ | .halterKickTimeout _ | .lockstepMismatch _ | .halterClockFault _ | .halterEscalationReset _
  | .fbLoadDone _ | .sleepEntered _ | .wake _ _ | .exitStepReady _ | .exitStepTimeout _ | .coreWaitForInterrupt _ _
  | .avsAck _ _ | .avsTimeout _ _ | .powerSample _ _ | .capPeriod _ _ _ _ | .slopeWindow _ | .droopDetect _ _ _
  | .droopEnd _ _ _ | .throttleStep _ _ | .throttleRiseStep _ _ | .hardThermal _ _ | .pcieLinkDown _ | .dmaBudgetWindow _
  | .encoderSupplyLimitEnd _ _ | .serialByteSent _ | .halterDoubleBitError _ | .pciePerstRelease _ | .rstNRelease _
  | .vcxpChange _ _ =>
    true
  | .rstSwreset _ i v | .rstHostBoot _ i v | .trial _ i v | .cancel _ i v | .confirm _ i v | .swapRefusedClear _ i v
  | .pcamSerdataWrite _ i v | .clmTload _ i v | .tanRingRel _ i v | .tanArtDb _ i v | .tanDictLoad _ i v
  | .tanTxtqWr _ i v | .drain _ i _ v | .mem4LogRd _ i v | .arm _ i v | .lnkEpochGo _ i v | .lnkSsnapGo _ i v
  | .lnkAssign _ i v | .lnkResetreq _ i v | .timIncNs _ i v | .timSet _ i v | .timStep _ i v | .servoMark _ i v
  | .restore _ i v | .test _ i v | .hltFbLoad _ i v | .hltFwReqGo _ i v | .pwrSleep _ i v | .pwrDbell _ i v
  | .pwrMcCtrl _ i v | .pwrRelease _ i _ v =>
    isInit i && isWord v
  | .idMemoryReadDone _ copy0 copy1 =>
    isBytes copy0 && isBytes copy1
  | .netBootFileReceived _ addr _ file =>
    isAddr addr && isBytes file
  | .flashProgram _ i _ data =>
    isInit i && isBytes data
  | .pocxpOvercurrent _ p | .connectionTest _ p _ _ | .controlAckTimeout _ p | .linkTestDone _ p _ | .camLinkLoss _ p
  | .camHeartbeatTimeout _ p | .streamDataPacket _ p _ _ _ _ | .camHeartbeat _ p | .otherPacket _ p
  | .positionTrigger _ p | .timeTrigger _ p | .diTrigger _ p | .lineLate _ p | .lineEnd _ p | .stopWaitEnd _ p
  | .intakeFirstPixel _ p | .lineVerdict _ p _ _ _ _ | .groupCommit _ p _ _ _ _ _ _ _ =>
    isCameraPort p
  | .pmbusOtherWrite _ _ data | .swapInDone _ _ _ data | .pcieBar2Request _ _ _ _ data _ =>
    isBytes data
  | .controlAcknowledgement _ p ident _ _ _ _ =>
    isCameraPort p && isBytes ident
  | .eventPacket _ p payload =>
    isCameraPort p && isBytes payload
  | .pcamSerdataRead _ i | .fioPrbRecRead _ i _ | .timNowNs _ i | .timCapRecRead _ i _ =>
    isInit i
  | .patchJudged _ p _ _ | .checkReport _ p _ _ _ _ | .encoderEdge _ p _ _ _ | .uncertainExpiry _ p | .faultNowExpiry _ p
  | .wireBreak _ p _ | .indexEdge _ p _ | .ssiReadStart _ p _ | .ssiReadDone _ p _ _ _ | .standstill _ p | .partStart _ p
  | .fallbackResult _ p _ | .wireBreakEnd _ p _ =>
    isStp p
  | .dramRead _ i a _ _ _ =>
    isInit i && isAddr a
  | .dramWrite _ i a data _ =>
    isInit i && isAddr a && isBytes data
  | .tileDispatch _ c _ _ | .tileEnd _ c | .tileHung _ c | .add c _ _ | .addi c _ _ | .sub c _ _ | .mul c _ _
  | .mulh c _ _ | .mulhu c _ _ | .div c _ _ | .divu c _ _ | .rem c _ _ | .remu c _ _ | .and c _ _ | .andi c _ _
  | .or c _ _ | .ori c _ _ | .xor c _ _ | .xori c _ _ | .sll c _ _ | .slli c _ _ | .srl c _ _ | .srli c _ _ | .sra c _ _
  | .srai c _ _ | .min c _ _ | .mini c _ _ | .max c _ _ | .maxi c _ _ | .minu c _ _ | .maxu c _ _ | .sel c _ _
  | .clz c _ _ | .popc c _ _ | .li c _ _ | .lih c _ _ | .cmpEq c _ _ | .cmpNe c _ _ | .cmpLt c _ _ | .cmpLtu c _ _
  | .cmpGe c _ _ | .cmpGeu c _ _ | .cmpiEq c _ _ | .cmpiNe c _ _ | .cmpiLt c _ _ | .cmpiLtu c _ _ | .cmpiGe c _ _
  | .cmpiGeu c _ _ | .pand c _ _ | .por c _ _ | .pxor c _ _ | .pandn c _ _ | .amov c _ _ | .aadd c _ _ | .aaddi c _ _
  | .amovs c _ _ | .alocal c _ _ | .br c _ _ | .jr c _ _ | .call c _ _ | .ret c _ _ | .loop c _ _ | .ldB c _ _
  | .ldBu c _ _ | .ldH c _ _ | .ldHu c _ _ | .ldW c _ _ | .ldWu c _ _ | .ldD c _ _ | .stB c _ _ | .stH c _ _ | .stW c _ _
  | .stD c _ _ | .vld c _ _ | .vst c _ _ | .xld c _ _ | .xst c _ _ | .xcp c _ _ | .nop c _ _ | .endTile c _ _
  | .trap c _ _ | .wait c _ _ | .xpf c _ _ | .vadd c _ _ | .vsub c _ _ | .vmul c _ _ | .vfma c _ _ | .vmin c _ _
  | .vmax c _ _ | .vabs c _ _ | .vneg c _ _ | .vand c _ _ | .vor c _ _ | .vxor c _ _ | .vshl c _ _ | .vshr c _ _
  | .vsra c _ _ | .vcmpEq c _ _ | .vcmpLt c _ _ | .vcmpLe c _ _ | .vcmpNe c _ _ | .vsel c _ _ | .vcvt c _ _ | .vwid c _ _
  | .vnar c _ _ | .vqsx c _ _ | .vbcast c _ _ | .vmovi c _ _ | .vperm c _ _ | .vgetf c _ _ | .vclrf c _ _
  | .vredsum c _ _ | .vredmax c _ _ | .vredmin c _ _ | .vexp2 c _ _ | .vlog2 c _ _ | .vrcp c _ _ | .vrsqrt c _ _
  | .vsqrt c _ _ | .vdiv c _ _ | .vtanh c _ _ | .vsigm c _ _ | .verf c _ _ | .gfAdd c _ _ | .gfMul c _ _ | .gfMac c _ _
  | .gfHorner c _ _ | .gfInv c _ _ | .gfExp c _ _ | .gfLog c _ _ | .gfMulc c _ _ | .mma c _ _ | .acczero c _ _
  | .accst c _ _ | .accld c _ _ | .acc2v c _ _ | .v2acc c _ _ | .selftestDone _ c _ | .opTargetChange _ c =>
    isCluster c
  | .schQDb _ i q v | .qen _ i q v =>
    isInit i && isByte6 q && isWord v
  | .commandFetch _ q =>
    isByte6 q
  | .verdictDeadline _ p k | .slotFire _ p k | .earliestFiringDoubt _ p k | .stageDue _ p k _ =>
    isStp p && isByte6 k
  | .ctxLoad _ i k | .unload _ i k =>
    isInit i && isByte6 k
  | .contextLoadDone _ k | .batchWaitExpiry _ k | .batchSlackExpiry _ k =>
    isByte6 k
  | .schSrqWr _ i k v =>
    isInit i && isByte6 k && isWord v
  | .write _ a src addr _ _ data =>
    isStp a && isModule src && isAddr addr && isBytes data
  | .writeAck _ a src _ _ | .arrive _ a src _ _ _ | .vote _ a src _ _ _ _ | .upgradeReport _ a src _ | .heartbeat _ a src
  | .resetReq _ a src | .frameForward _ a _ src _ _ _ _ _ _ =>
    isStp a && isModule src
  | .release _ a _ _ _ _ | .commit _ a _ _ _ | .abort _ a _ _ _ | .timeFrame _ a _ _ | .members _ a _ _
  | .hello _ a _ _ _ _ _ _ _ | .helloRetry _ a | .lack _ a _ | .lnak _ a _ | .linkPortTimeout _ a | .frameBadCrc _ a _ =>
    isStp a
  | .announce _ a _ _ _ _ contract =>
    isStp a && isBytes contract
  | .position _ a p _ _ _ | .snapFrame _ a p _ =>
    isStp a && isStp p
  | .subverdict _ a src _ p _ _ _ =>
    isStp a && isModule src && isStp p
  | .moduleLost _ m =>
    isModule m
  | .selftest _ i c v =>
    isInit i && isCluster c && isWord v
  | .ejtXopen _ i p v | .ejtCommit _ i p v | .ejtFire _ i p v =>
    isInit i && isStp p && isWord v
  | .diSample _ levels =>
    isHalf levels
  | .outputPulseEnd _ n | .outputOverload _ n _ | .outputMismatch _ n =>
    isOutput n
  | .timPtpRecRead _ i p _ =>
    isInit i && isEth p
  | .domainPowerUp _ n | .domainPowerDown _ n =>
    isDomain n
  | .cdrLock _ m | .cdrLockLoss _ m _ | .laneTrained _ m _ | .checkerSyncGain _ m | .checkerSyncLoss _ m _ =>
    isLane m
  | .retrain _ i m v | .sdsTest _ i m v | .inj _ i m v =>
    isInit i && isLane m && isWord v
  | .ethFrameReceive _ p f _ =>
    isEth p && isBytes f
  | .ethFrameTransmit _ p | .blockLockLoss _ p _ =>
    isEth p
  | .pcieConfigRequest _ _ _ v | .pcieBar0Request _ _ _ _ v | .pcieBar4Request _ _ _ v =>
    isWord v
  | .dmaHeadLo _ i n v | .dmaKick _ i n v =>
    isInit i && isChannel n && isWord v
  | .descriptorFetch _ n | .transferComplete _ n =>
    isChannel n
  | .segmentDone _ n data _ | .dmaBusError _ n _ _ _ data =>
    isChannel n && isBytes data
  | .haltedClear _ i n =>
    isInit i && isChannel n
  | .stpPosLoRead _ i p =>
    isInit i && isStp p

end Sys2Proof
end

