-- ==== Sys2Proof/Tests/Slice0.lean ====
section
/-!
SUPPORT. The model's own tests: ill-formed commands, the state after reset, and for every statement with hypotheses a state and operands
that meet them all, on which what the statement concludes is evaluated.
-/

namespace Sys2Proof.Tests

set_option maxRecDepth 100000
set_option Elab.async false

open Sys2Proof.Machine

/-- A state in which the listed register fields have the listed values and every other one its reset value. -/
def st (l : List (Nat × Fld × Nat)) : State := l.foldl (fun s e => (s.wr e.1 e.2.1 e.2.2).wrAct e.1 e.2.1 e.2.2) {}

/-- Whether a command answers a next state that passes a check. -/
def ran (c : Instr) (s : State) (p : State → Bool) : Bool :=
  match exec c s with
  | .next t => p t
  | _ => false

/-- Whether a command answers exactly the given next state. -/
def ranTo (c : Instr) (s t : State) : Bool := ran c s (fun u => decide (u = t))

/-- A body of format R. -/
def fR (rd ra rb : Nat) : Nat := rd * 2 ^ 43 + ra * 2 ^ 38 + rb * 2 ^ 33

/-- Tiles at index 0 or 1 of code at `0x1000`. -/
def tk0 : Tile := { code := 0x1000, len := 2, s := [(6, 5), (7, 0xFFFFFFFFFFFFFFFF)], a := [(2, 0xFFFFFFFFFFFFFFFF), (3, 0x8000000000000040)], p := [(7, true)] }
def tk1 : Tile := { tk0 with s := [(6, 0x8000000000000000), (7, 0xFFFFFFFFFFFFFFFF)] }
def tk2 : Tile := { tk0 with pc := 1, len := 4, s := [(9, 2)], loops := [(1, 2, 3)], rets := [2] }
def tk3 : Tile := { tk0 with pc := 1, len := 4, s := [(9, 2)] }

/-- Tiles with a readable segment over the code and a writable one; the shape of `tk5` is two rows of 16 bytes. -/
def tk4 : Tile := { tk0 with a := [(3, 0x8000000000000040), (4, 0x1000), (5, 0x2000)], v := [(5, 0x11)], segs := [[0x1000, 64, 5], [0x2000, 64, 6]] }
def tk5 : Tile := { tk4 with s := [(10, 16), (11, 2), (12, 16), (13, 16)] }

/-- Tiles with vectors: ordinary, extreme and special lanes; `v8` holds a NaN in every lane and is its own result. -/
def tv0 : Tile := { tk0 with flags := 9, v := [
  (6, packLanes 32 ([0x3F800000, 0x7F7F7F7F, 0x80000001, 0xBF800000, 0xFF800000, 5] ++ List.replicate 58 0x40490FDB)),
  (7, packLanes 32 ([0x40000000, 0x7F7FFFFF, 0x80000000, 0, 0x7F800000, 0x7FC00001] ++ List.replicate 58 0x3F000000)),
  (8, packLanes 32 (List.replicate 64 0x7FC00000))] }
def tv1 : Tile := { tk0 with v := [(5, 0x0304), (6, 0x57FF01), (7, 0x83FF80)] }

/-- A tile with accumulator rows. -/
def ta0 : Tile := { tk4 with s := [(6, 5)], v := [(8, 9)], acc := [(7 * 64 + 4, 3)] }

/-- A state in which cluster 0's tile stands at a word, with `nop` on both sides of it. -/
def tkS (w : Nat) (t : Tile) : State :=
  let nop := 0x7000000000000000
  { mem := memPuts [] 0x1000 ([nop, nop, nop, nop].zipIdx.flatMap (fun e => leBytes 8 (if e.2 = t.pc then w else e.1))),
    clu := [(0, { tile := some t })], hlt := { rules := [(0, dramRule)] } }

/-- Whether an instruction meets the conditions of running and leaves exactly what is stated. -/
def rowRuns (cmd : TackCmd) (grp func cost body : Nat) (t : Tile) (g : Tile → Tile) : Bool :=
  let s := tkS (opWord grp func 0 body) t
  Runs s 0 t grp func cost 0 (BitVec.ofNat 48 body) && ranTo (cmd 0 0 (BitVec.ofNat 48 body)) s (s.after 0 t cost g)

/-- Whether an instruction ends the tile as illegal with a cause. -/
def illegalRow (cmd : TackCmd) (grp func body cause : Nat) : Bool :=
  let s := tkS (opWord grp func 0 body) tk0
  Issues s 0 tk0 grp func 1 0 (BitVec.ofNat 48 body) && ranTo (cmd 0 0 (BitVec.ofNat 48 body)) s
    ((s.issued 0 tk0 1).1.tileTrap 0 (s.issued 0 tk0 1).2 (opWord grp func 0 body) ⟨0x0801, cause, 0⟩)

/-- A fused command at queue pointer 0 with its kernel block at `0x2000`. -/
def fuCmd : Cmd := { kind := 1, block := 0x2000, ready := true }

/-- A segment of a kernel block: base, 64-byte lines, flags. -/
def fuSeg (base lines flags : Nat) : List Nat := leBytes 8 base ++ leBytes 4 lines ++ [flags, 0, 0, 0]

/-- Parameter blocks of a 1 by 1 convolution, pooling and up-sampling of one element, a reduction of one, and a stripe group of one layer. -/
def fuConv : List Nat := [1, 0, 4, 0, 1, 1, 1, 1, 1, 1, 0, 0, 0, 0, 1, 0, 1, 0, 1, 0, 1, 0, 1, 0] ++ leBytes 8 0x4000 ++ leBytes 8 64 ++ leBytes 8 64 ++
  leBytes 8 0x6000 ++ leBytes 8 0x5000 ++ leBytes 8 0x4000 ++ leBytes 8 0x4000 ++ List.replicate 48 0
def fuPool : List Nat := [2, 0, 0, 0, 1, 1, 1, 1, 0, 0, 0, 0, 0, 0, 0, 0, 1, 0, 1, 0, 1, 0, 0, 0] ++ leBytes 8 0x4000 ++ leBytes 8 64 ++ leBytes 8 64 ++
  List.replicate 8 0 ++ leBytes 8 0x5000 ++ List.replicate 64 0
def fuUp : List Nat := [3, 0, 0, 0, 2, 2, 0, 0, 0, 0, 0, 0, 0, 0, 0, 0, 1, 0, 1, 0, 1, 0, 0, 0] ++ leBytes 8 0x4000 ++ leBytes 8 64 ++ leBytes 8 64 ++
  List.replicate 8 0 ++ leBytes 8 0x5000 ++ List.replicate 64 0
def fuRed : List Nat := [4, 0, 1, 0, 1, 0, 0, 0, 1, 0, 0, 0, 1, 0, 0, 0] ++ leBytes 8 0x4000 ++ leBytes 4 64 ++ leBytes 4 1 ++ leBytes 8 0x5000 ++ leBytes 8 64 ++
  List.replicate 80 0
def fuStripe : List Nat := [5, 1, 1, 0, 1, 0, 0, 0] ++ leBytes 8 0 ++ leBytes 8 0x5080 ++ leBytes 8 64 ++ leBytes 8 0x3100 ++ List.replicate 88 0

/-- A state with a fused command, its parameter block at `0x3000` and a second one at `0x3080`, an input byte at `0x4000`, output at `0x5000`
and panels at `0x6000`. -/
def fuS (p q : List Nat) : State :=
  { st [(0x40, COM_STATE_FSM, 2), (0x40, CLU_CTRL_ROLE, 0), (0x10, COM_STATE_FSM, 2)] with
    mem := memPuts (memPuts (memPuts (memPuts (memPuts [] 0x2000 (List.replicate 16 0 ++ fuSeg 0x3000 8 5 ++ fuSeg 0x4000 1 5 ++ fuSeg 0x5000 3 6 ++ fuSeg 0x6000 64 5)) 0x3000 p) 0x3080 q) 0x3100 (leBytes 16 0x3080)) 0x4000 [0xFB]
    hlt := { rules := [(0, dramRule)] }
    sch := { cmds := [fuCmd] } }

/-- A begun stripe group of one layer, and a state in which the region's one row is committed. -/
def fuStripeCmd : Cmd := { fuCmd with begun := true, wait := [(0, 1)], lays := [[0, 0] ++ fuPool], par := fuStripe, part := 7, dlKind := 0, deadline := 100 }
def fuStripeS : State :=
  { fuS fuStripe fuPool with
    mem := memPuts (fuS fuStripe fuPool).mem 0 (leBytes 4 0 ++ leBytes 4 7 ++ leBytes 4 0 ++ leBytes 2 0 ++ leBytes 2 1 ++ leBytes 8 0x4000 ++ leBytes 4 0 ++ leBytes 4 64)
    sch := { cmds := [fuStripeCmd] }
    tan := { entries := [{}] } }

/-- Parameter blocks of an attention command and a projection of one segment, and a state with one of them and the descriptor of that segment. -/
def fuAtt : List Nat := [6, 2, 0, 3, 1, 1, 8, 0, 0, 0, 1, 0] ++ List.replicate 4 0 ++ leBytes 8 0x3100 ++ leBytes 8 0x4000 ++ leBytes 4 64 ++ leBytes 4 64 ++
  leBytes 8 0x5000 ++ List.replicate 16 0 ++ leBytes 8 0x5040 ++ leBytes 4 64 ++ List.replicate 52 0
def fuProj : List Nat := [7, 2, 0, 0, 8, 0, 8, 0, 1, 1, 0, 2, 1, 0, 0, 0] ++ leBytes 8 0x3100 ++ leBytes 8 0x4000 ++ leBytes 4 64 ++ leBytes 4 64 ++
  leBytes 8 0x6000 ++ List.replicate 8 0 ++ leBytes 8 0x6000 ++ leBytes 8 0x5000 ++ List.replicate 56 0
def kvS (p : List Nat) (len : Nat) : State :=
  { st [(0x40, COM_STATE_FSM, 2), (0x10, COM_STATE_FSM, 2), (0x11, COM_STATE_FSM, 2), (0x11, KVC_POOL_CFG_VALID 0, 1), (0x11, KVC_POOL_CFG_FMT 0, 2), (0x11, KVC_POOL_CFG_D 0, 8), (0x11, KVC_POOL_PAGES_COUNT 0, 4)] with
    mem := memPuts (fuS p []).mem 0x3100 ([4, 0, 0, 0, 0, 0, 0, 0, 1] ++ List.replicate 23 0)
    hlt := { rules := [(0, dramRule)] }
    sch := { cmds := [fuCmd] }
    kvc := { seqs := [(4, { state := 1, layers := 1, pages := 1, lens := [(0, len)] })] } }

/-- A state in which the exchange of one segment at queue pointer 0 can start. -/
def exS : State := ({ st [(0x40, COM_STATE_FSM, 2), (0x40, CLU_CTRL_ROLE, 0), (0x10, COM_STATE_FSM, 2), (0x12, COM_STATE_FSM, 2), (0x12, LNK_PORT_STAT_PSTATE 0, 3), (0x12, LNK_PORT_STAT_PSTATE 1, 3), (0x12, LNK_PORT_STAT_LANES_UP 0, 15), (0x12, LNK_PORT_STAT_LANES_UP 1, 15), (0x12, LNK_SVC_IN_SERVICE, 1)] with mem := memPuts (fuS ([9, 0] ++ leBytes 2 3 ++ leBytes 2 1 ++ [0, 0] ++ leBytes 8 0x4000 ++ List.replicate 112 0) []).mem 0x4000 (leBytes 8 0x4000 ++ leBytes 8 0x8000 ++ leBytes 4 64), hlt := { rules := [(0, dramRule)] }, sch := { cmds := [fuCmd] }, free := 0 } : State)

theorem test_wf_accepts : ([
    .enable 0 511 255 4294967295, .startupComplete 0 255, .registerWrite 0 511 281474976710655 4294967295, .rstSwreset 0 511 4294967295,
    .idMemoryReadDone 0 [255] [255], .netBootFileReceived 0 281474976710655 [] [255], .flashProgram 0 511 0 [255], .pocxpOvercurrent 0 8,
    .pmbusOtherWrite 0 0 [255], .controlAcknowledgement 0 8 [255] 0 0 0 0, .eventPacket 0 8 [255], .pcamSerdataRead 0 511,
    .patchJudged 0 1 0 0, .dramRead 0 511 281474976710655 0 0 0, .dramWrite 0 511 281474976710655 [255] false, .tileDispatch 0 33 [] [],
    .schQDb 0 511 63 4294967295, .commandFetch 0 63, .verdictDeadline 0 1 63, .ctxLoad 0 511 63, .contextLoadDone 0 63,
    .schSrqWr 0 511 63 4294967295, .write 0 1 15 281474976710655 0 false [255], .writeAck 0 1 15 0 0, .release 0 1 0 0 0 false,
    .announce 0 1 0 0 0 0 [255], .position 0 1 1 0 0 0, .subverdict 0 1 15 0 1 0 0 false, .moduleLost 0 15, .selftest 0 511 33 4294967295,
    .ejtXopen 0 511 1 4294967295, .diSample 0 65535, .outputPulseEnd 0 7, .timPtpRecRead 0 511 1 false, .domainPowerUp 0 59, .cdrLock 0 51,
    .retrain 0 511 51 4294967295, .ethFrameReceive 0 1 [255] false, .ethFrameTransmit 0 1, .pcieConfigRequest 0 false 0 4294967295,
    .dmaHeadLo 0 511 31 4294967295, .descriptorFetch 0 31, .segmentDone 0 31 [255] [], .haltedClear 0 511 31, .stpPosLoRead 0 511 1] : List Instr).all Instr.wf = true := by decide +kernel

theorem test_wf_refuses : ([
    .enable 0 512 255 4294967295, .enable 0 511 256 4294967295, .enable 0 511 255 4294967296, .startupComplete 0 256,
    .registerWrite 0 512 281474976710655 4294967295, .registerWrite 0 511 281474976710656 4294967295,
    .registerWrite 0 511 281474976710655 4294967296, .rstSwreset 0 512 4294967295, .rstSwreset 0 511 4294967296,
    .idMemoryReadDone 0 [255, 256] [255], .idMemoryReadDone 0 [255] [255, 256], .netBootFileReceived 0 281474976710655 [] [255, 256], .netBootFileReceived 0 281474976710656 [] [255],
    .flashProgram 0 512 0 [255], .flashProgram 0 511 0 [255, 256], .pocxpOvercurrent 0 9, .pmbusOtherWrite 0 0 [255, 256],
    .controlAcknowledgement 0 9 [255] 0 0 0 0, .controlAcknowledgement 0 8 [255, 256] 0 0 0 0, .eventPacket 0 9 [255],
    .eventPacket 0 8 [255, 256], .pcamSerdataRead 0 512, .patchJudged 0 2 0 0, .dramRead 0 512 281474976710655 0 0 0,
    .dramRead 0 511 281474976710656 0 0 0, .dramWrite 0 512 281474976710655 [255] false, .dramWrite 0 511 281474976710656 [255] false,
    .dramWrite 0 511 281474976710655 [255, 256] false, .tileDispatch 0 34 [] [], .schQDb 0 512 63 4294967295, .schQDb 0 511 64 4294967295,
    .schQDb 0 511 63 4294967296, .commandFetch 0 64, .verdictDeadline 0 2 63, .verdictDeadline 0 1 64, .ctxLoad 0 512 63,
    .ctxLoad 0 511 64, .contextLoadDone 0 64, .schSrqWr 0 512 63 4294967295, .schSrqWr 0 511 64 4294967295, .schSrqWr 0 511 63 4294967296,
    .write 0 2 15 281474976710655 0 false [255], .write 0 1 16 281474976710655 0 false [255], .write 0 1 15 281474976710656 0 false [255],
    .write 0 1 15 281474976710655 0 false [255, 256], .writeAck 0 2 15 0 0, .writeAck 0 1 16 0 0, .release 0 2 0 0 0 false,
    .announce 0 2 0 0 0 0 [255], .announce 0 1 0 0 0 0 [255, 256], .position 0 2 1 0 0 0, .position 0 1 2 0 0 0,
    .subverdict 0 2 15 0 1 0 0 false, .subverdict 0 1 16 0 1 0 0 false, .subverdict 0 1 15 0 2 0 0 false, .moduleLost 0 16,
    .selftest 0 512 33 4294967295, .selftest 0 511 34 4294967295, .selftest 0 511 33 4294967296, .ejtXopen 0 512 1 4294967295,
    .ejtXopen 0 511 2 4294967295, .ejtXopen 0 511 1 4294967296, .diSample 0 65536, .outputPulseEnd 0 8, .timPtpRecRead 0 512 1 false,
    .timPtpRecRead 0 511 2 false, .domainPowerUp 0 60, .cdrLock 0 52, .retrain 0 512 51 4294967295, .retrain 0 511 52 4294967295,
    .retrain 0 511 51 4294967296, .ethFrameReceive 0 2 [255] false, .ethFrameReceive 0 1 [255, 256] false, .ethFrameTransmit 0 2,
    .pcieConfigRequest 0 false 0 4294967296, .dmaHeadLo 0 512 31 4294967295, .dmaHeadLo 0 511 32 4294967295,
    .dmaHeadLo 0 511 31 4294967296, .descriptorFetch 0 32, .segmentDone 0 32 [255] [], .segmentDone 0 31 [255, 256] [],
    .haltedClear 0 512 31, .haltedClear 0 511 32, .stpPosLoRead 0 512 1, .stpPosLoRead 0 511 2] : List Instr).all (fun c => !c.wf) = true := by decide +kernel

theorem witness_FunctionEventsMoveTheStateMachine_1 : (fun (s : State) (τ : Nat) (b : Nat) => decide ((blkExists b = true) ∧ (isSds b = false) ∧ (b ≠ bMEM4) ∧ (s.fsm b = fSTARTING) ∧ (s.fencing b = false) ∧ (s.domOn b = true) ∧ (s.rd b COM_CTRL_ENABLE = 1)) &&
    ran (.startupComplete τ b) s (fun t => decide (
    t.fsm b = fON)))
    (st [(0x03, COM_STATE_FSM, 1), (0, PWR_PD_STAT_PSTATE 0, 2), (3, COM_CTRL_ENABLE, 1)]) 0 3 = true := by
  decide +kernel

theorem witness_FunctionEventsMoveTheStateMachine_2 : (fun (s : State) (τ : Nat) (b : Nat) => decide ((blkExists b = true) ∧ (isSds b = false) ∧ (b ≠ bMEM4) ∧ (s.fsm b = fSTARTING) ∧ (s.fencing b = false) ∧ (s.domOn b = true) ∧ (s.rd b COM_CTRL_ENABLE ≠ 1)) &&
    ran (.startupComplete τ b) s (fun t => decide (
    t.fsm b = fSTOPPING)))
    (st [(0x40, COM_STATE_FSM, 1), (0, PWR_PD_STAT_PSTATE 2, 2)]) 0 0x40 = true := by
  decide +kernel

theorem witness_FunctionEventsMoveTheStateMachine_3 : (fun (s : State) (τ : Nat) (b : Nat) => decide ((blkExists b = true) ∧ (s.fsm b = fSTOPPING) ∧ (s.fencing b = false) ∧ (s.stopReady b = true)) &&
    ran (.shutdownComplete τ b) s (fun t => decide (
    t.fsm b = fOFF)))
    (st [(0x28, COM_STATE_FSM, 3), (0x27, COM_STATE_FSM, 3), (0, PWR_PD_STAT_PSTATE 47, 2)]) 0 0x27 = true := by
  decide +kernel

theorem witness_FunctionEventsMoveTheStateMachine_4 : (fun (s : State) (τ : Nat) (b : Nat) => decide ((blkExists b = true) ∧ (s.fsm b = fPENDING) ∧ (s.fencing b = false) ∧ (s.stopReady b = true)) &&
    ran (.shutdownComplete τ b) s (fun t => decide (
    t.fsm b = fSTARTING)))
    (st [(0x10, COM_STATE_FSM, 4), (0, PWR_PD_STAT_PSTATE 49, 2)]) 0 0x10 = true := by
  decide +kernel

theorem witness_FunctionEventsMoveTheStateMachine_5 : (fun (s : State) (τ : Nat) (b : Nat) => decide ((blkExists b = true) ∧ (s.fencing b = true)) &&
    ran (.fenceComplete τ b) s (fun t => decide (
    t.fsm b = fFENCED)))
    (st [(0x61, COM_STATE_FSM, 2), (0x61, COM_FENCE_FENCE, 1)]) 0 0x61 = true := by
  decide +kernel

theorem witness_FunctionEventsMoveTheStateMachine_6 : (fun (s : State) (τ : Nat) (b : Nat) => decide ((blkExists b = true) ∧ (s.fsm b = fFENCED) ∧ (s.inFuncReset b = true)) &&
    ran (.functionResetEnd τ b) s (fun t => decide (
    t.fsm b = fOFF)))
    (st [(0x1C, COM_STATE_FSM, 5), (0x1C, COM_RESET_RESET, 1)]) 0 0x1C = true := by
  decide +kernel

theorem witness_FunctionEventsMoveTheStateMachine_7 : (fun (s : State) (τ : Nat) (b : Nat) => decide ((blkExists b = true) ∧ (s.fsm b ≠ fFENCED) ∧ (s.fsm b ≠ fFAULT) ∧ (s.fencing b = false)) &&
    ran (.internalFault τ b) s (fun t => decide (
    t.fsm b = fFAULT)))
    (st [(0x18, COM_STATE_FSM, 2)]) 0 0x18 = true := by
  decide +kernel

theorem witness_CommonRegisterWritesMoveTheStateMachine_1 : (fun (s : State) (τ : Nat) (i b : Nat) => decide ((regMapped (regAt b 4) = true) ∧ (s.regAllowed i true b 4 = true) ∧ (b ≠ bPWR) ∧ (b ≠ bRST) ∧ (b ≠ bCLK) ∧ (b ≠ bHLT) ∧ (b ≠ bMEM4) ∧ ((isClu b = true → s.role (b - 0x40) ≠ 2)) ∧ (s.inFuncReset b = false) ∧ (s.fencing b = false) ∧ (s.fsm b = fOFF)) &&
    ran (.enable τ i b 1) s (fun t => decide (
    t.fsm b = fSTARTING ∧ t.rd b COM_CTRL_ENABLE = 1)))
    ({}) 0 1 0x20 = true := by
  decide +kernel

theorem witness_CommonRegisterWritesMoveTheStateMachine_2 : (fun (s : State) (τ : Nat) (i b : Nat) => decide ((regMapped (regAt b 4) = true) ∧ (s.regAllowed i true b 4 = true) ∧ (b ≠ bPWR) ∧ (b ≠ bRST) ∧ (b ≠ bCLK) ∧ (b ≠ bHLT) ∧ (b ≠ bMEM4) ∧ ((isClu b = true → s.role (b - 0x40) ≠ 2)) ∧ (s.inFuncReset b = false) ∧ (s.fencing b = false) ∧ (s.fsm b = fON)) &&
    ran (.enable τ i b 0) s (fun t => decide (
    t.fsm b = fSTOPPING ∧ t.rd b COM_CTRL_ENABLE = 0)))
    (st [(0x18, COM_STATE_FSM, 2), (0x18, COM_CTRL_ENABLE, 1)]) 0 5 0x18 = true := by
  decide +kernel

theorem witness_CommonRegisterWritesMoveTheStateMachine_3 : (fun (s : State) (τ : Nat) (i b v : Nat) => decide ((regMapped (regAt b 8) = true) ∧ (s.regAllowed i true b 8 = true) ∧ (fences b = true) ∧ (bit v 0 = 1) ∧ (s.rd b COM_FENCE_FENCE = 0)) &&
    ran (.fence τ i b v) s (fun t => decide (
    t.rd b COM_FENCE_FENCE = 1)))
    (st [(0x08, COM_STATE_FSM, 2)]) 0 2 8 1 = true := by
  decide +kernel

theorem witness_CommonRegisterWritesMoveTheStateMachine_4 : (fun (s : State) (τ : Nat) (i b v : Nat) => decide ((regMapped (regAt b 0xC) = true) ∧ (s.regAllowed i true b 0xC = true) ∧ (fences b = true) ∧ (bit v 0 = 1) ∧ (v < 4294967296) ∧ (s.fsm b = fFENCED) ∧ (s.inFuncReset b = false)) &&
    ranTo (.reset τ i b v) s ((((((s.at τ).answer 0 []).wr b COM_RESET_RESET 1).wr bRST RST_CAUSE_FUNC 1).wr bRST RST_FUNC_LAST_BLOCK b)))
    (st [(0x90, COM_STATE_FSM, 5)]) 0 3 0x90 1 = true := by
  decide +kernel

theorem witness_CommonRegisterWritesMoveTheStateMachine_5 : (fun (s : State) (τ : Nat) (i b v : Nat) => decide ((regMapped (regAt b 0xC) = true) ∧ (s.regAllowed i true b 0xC = true) ∧ (fences b = true) ∧ (bit v 0 = 1) ∧ (v < 4294967296) ∧ (s.fsm b ≠ fFENCED)) &&
    ranTo (.reset τ i b v) s (((s.at τ).answer 0 []).wr b COM_STATE_RESET_REFUSED 1))
    (st [(0x90, COM_STATE_FSM, 2)]) 0 3 0x90 1 = true := by
  decide +kernel

theorem witness_SnapLatchesTheSnapshotSet_1 : (fun (s : State) (τ : Nat) (i b v : Nat) => decide ((regMapped (regAt b 0x10) = true) ∧ (s.regAllowed i true b 0x10 = true) ∧ (v < 4294967296) ∧ (bit v 0 = 1)) &&
    ran (.snap τ i b v) s (fun t => decide (
    t.rd b COM_STATE_SNAP_SEQ = (s.rd b COM_STATE_SNAP_SEQ + 1) % 2 ^ COM_STATE_SNAP_SEQ.w)))
    (st [(0x06, COM_STATE_SNAP_SEQ, 255)]) 0 1 6 1 = true := by
  decide +kernel

theorem witness_SnapLatchesTheSnapshotSet_2 : (fun (s : State) (τ : Nat) (i b v : Nat) (f : Fld) => decide ((regMapped (regAt b 0x10) = true) ∧ (s.regAllowed i true b 0x10 = true) ∧ (v < 4294967296) ∧ (bit v 0 = 1) ∧ (inSnap b f.off = true) ∧ (f.off < 1048576) ∧ (f.lo < 32) ∧ (f.rst = 0) ∧ (Store.wf 0#32 s.live = true)) &&
    ran (.snap τ i b v) s (fun t => decide (
    t.rd b f = ((s.at τ).beforeSnap b).cnt b f)))
    ((st [(0x06, EVQ_CNT_EVENTS, 7)]).setCnt 6 EVQ_CNT_EVENTS 99) 0 1 6 1 EVQ_CNT_EVENTS = true := by
  decide +kernel

theorem witness_SnapLatchesTheSnapshotSet_3 : (fun (s : State) (τ : Nat) (i b v c : Nat) (g : Fld) => decide ((regMapped (regAt b 0x10) = true) ∧ (s.regAllowed i true b 0x10 = true) ∧ (v < 4294967296) ∧ (bit v 0 = 1) ∧ (g.off < 1048576) ∧ (g.lo < 32) ∧ ((c = b → inSnap b g.off = false)) ∧ (fkey c g ≠ fkey b COM_STATE_SNAP_SEQ)) &&
    ran (.snap τ i b v) s (fun t => decide (
    t.rd c g = s.rd c g)))
    ((st [(0x06, EVQ_Q_WR 1, 7)]).setCnt 6 EVQ_CNT_EVENTS 99) 0 1 6 1 6 (EVQ_Q_WR 1) = true := by
  decide +kernel

theorem witness_RegisterWritesGoFieldByField_1 : (fun (s : State) (τ i b off v : Nat) =>
    decide (regMapped (regAt b off) = true ∧ off < 1048576 ∧ 0x14 ≤ off ∧ s.regAllowed i true b off = true ∧
      (restricted b off = true → s.mgmtOrHost i = true) ∧ s.domOn b = true ∧ v < 4294967296 ∧
      ((s.at τ).answer 0 []).specialWrite i b off v = none) &&
    ranTo (.registerWrite τ i (regAt b off) v) s (((s.at τ).answer 0 []).writeFields s.jobRun b off v))
    (st [(0, PWR_PD_STAT_PSTATE 55, 2)]) 0 1 0x80 0x100 3 = true := by
  decide +kernel

theorem witness_ResetsClearAllButTheAlwaysOnDomain_1 : (fun (s : State) (τ : Nat) => decide (True) &&
    ran (.powerOn τ) s (fun t => decide (
    t.sys.inReset = true ∧ t.rd bRST RST_CAUSE_POR = 1 ∧ t.fsm 3 = 0 ∧ t.byte 0x10 = 0 ∧ t.byte 0x3C00000005 = 9 ∧ t.byte 0x3800000004 = 0)))
    ({ st [(3, COM_STATE_FSM, 2), (1, RST_CAUSE_PIN, 1)] with mem := [(0x10, 5#8), (0x3800000004, 7#8), (0x3C00000005, 9#8)] }) 0  = true := by
  decide +kernel

theorem witness_ResetsClearAllButTheAlwaysOnDomain_2 : (fun (s : State) (τ : Nat) => decide (True) &&
    ran (.brownOut τ) s (fun t => decide (
    t.sys.inReset = true ∧ t.rd bRST RST_CAUSE_BOR = 1 ∧ t.fsm 3 = 0 ∧ t.byte 0x10 = 0 ∧ t.byte 0x3C00000005 = 9 ∧ t.byte 0x3800000004 = 7)))
    ({ st [(3, COM_STATE_FSM, 2), (1, RST_CAUSE_PIN, 1)] with mem := [(0x10, 5#8), (0x3800000004, 7#8), (0x3C00000005, 9#8)] }) 0  = true := by
  decide +kernel

theorem witness_ResetsClearAllButTheAlwaysOnDomain_3 : (fun (s : State) (τ : Nat) => decide (True) &&
    ran (.rstN τ) s (fun t => decide (
    t.sys.inReset = true ∧ t.rd bRST RST_CAUSE_PIN = 1 ∧ t.fsm 3 = 0 ∧ t.byte 0x10 = 0 ∧ t.byte 0x3C00000005 = 9 ∧ t.byte 0x3800000004 = 7)))
    ({ st [(3, COM_STATE_FSM, 2), (1, RST_CAUSE_PIN, 1)] with mem := [(0x10, 5#8), (0x3800000004, 7#8), (0x3C00000005, 9#8)] }) 0  = true := by
  decide +kernel

theorem witness_ResetsClearAllButTheAlwaysOnDomain_4 : (fun (s : State) (τ : Nat) => decide (True) &&
    ran (.thermalTrip τ) s (fun t => decide (
    t.sys.inReset = true ∧ t.rd bRST RST_CAUSE_THERM = 1 ∧ t.fsm 3 = 0 ∧ t.byte 0x10 = 0 ∧ t.byte 0x3C00000005 = 9 ∧ t.byte 0x3800000004 = 7)))
    ({ st [(3, COM_STATE_FSM, 2), (1, RST_CAUSE_PIN, 1)] with mem := [(0x10, 5#8), (0x3800000004, 7#8), (0x3C00000005, 9#8)] }) 0  = true := by
  decide +kernel

theorem witness_ResetsClearAllButTheAlwaysOnDomain_5 : (fun (s : State) (τ : Nat) (i v : Nat) => decide ((s.mgmtOrHost i = true) ∧ (bits v 16 16 = 0xA5C3) ∧ (bit v 0 = 1)) &&
    ran (.rstSwreset τ i v) s (fun t => decide (
    t.sys.inReset = true ∧ t.rd bRST RST_CAUSE_SW_FULL = 1 ∧ t.fsm 3 = 0 ∧ t.byte 0x10 = 0 ∧ t.byte 0x3C00000005 = 9 ∧ t.byte 0x3800000004 = 7)))
    ({ st [(3, COM_STATE_FSM, 2), (1, RST_CAUSE_PIN, 1)] with mem := [(0x10, 5#8), (0x3800000004, 7#8), (0x3C00000005, 9#8)] }) 0 1 0xA5C30001 = true := by
  decide +kernel

theorem witness_ResetsClearAllButTheAlwaysOnDomain_6 : (fun (s : State) (τ : Nat) => decide (True) &&
    ran (.criticalStateError τ 0) s (fun t => decide (
    t.sys.inReset = true ∧ t.rd bRST RST_CAUSE_CRIT_ERR = 1 ∧ t.fsm 3 = 0 ∧ t.byte 0x10 = 0 ∧ t.byte 0x3C00000005 = 9 ∧ t.byte 0x3800000004 = 7 ∧ t.rd bRST RST_CRIT_SRC_SCH_Q = 1)))
    ({ st [(3, COM_STATE_FSM, 2), (1, RST_CAUSE_PIN, 1)] with mem := [(0x10, 5#8), (0x3800000004, 7#8), (0x3C00000005, 9#8)] }) 0  = true := by
  decide +kernel

theorem witness_ResetsClearAllButTheAlwaysOnDomain_7 : (fun (s : State) (τ : Nat) => decide (True) &&
    ran (.criticalStateError τ 1) s (fun t => decide (
    t.sys.inReset = true ∧ t.rd bRST RST_CAUSE_CRIT_ERR = 1 ∧ t.fsm 3 = 0 ∧ t.byte 0x10 = 0 ∧ t.byte 0x3C00000005 = 9 ∧ t.byte 0x3800000004 = 7 ∧ t.rd bRST RST_CRIT_SRC_PAGE_TBL = 1)))
    ({ st [(3, COM_STATE_FSM, 2), (1, RST_CAUSE_PIN, 1)] with mem := [(0x10, 5#8), (0x3800000004, 7#8), (0x3C00000005, 9#8)] }) 0  = true := by
  decide +kernel

theorem witness_ResetsClearAllButTheAlwaysOnDomain_8 : (fun (s : State) (τ : Nat) => decide (True) &&
    ran (.criticalStateError τ 2) s (fun t => decide (
    t.sys.inReset = true ∧ t.rd bRST RST_CAUSE_CRIT_ERR = 1 ∧ t.fsm 3 = 0 ∧ t.byte 0x10 = 0 ∧ t.byte 0x3C00000005 = 9 ∧ t.byte 0x3800000004 = 7 ∧ t.rd bRST RST_CRIT_SRC_FW_TBL = 1)))
    ({ st [(3, COM_STATE_FSM, 2), (1, RST_CAUSE_PIN, 1)] with mem := [(0x10, 5#8), (0x3800000004, 7#8), (0x3C00000005, 9#8)] }) 0  = true := by
  decide +kernel

theorem witness_ResetsClearAllButTheAlwaysOnDomain_9 : (fun (s : State) (τ : Nat) => decide (True) &&
    ran (.criticalStateError τ 3) s (fun t => decide (
    t.sys.inReset = true ∧ t.rd bRST RST_CAUSE_CRIT_ERR = 1 ∧ t.fsm 3 = 0 ∧ t.byte 0x10 = 0 ∧ t.byte 0x3C00000005 = 9 ∧ t.byte 0x3800000004 = 7 ∧ t.rd bRST RST_CRIT_SRC_SHARD_MAP = 1)))
    ({ st [(3, COM_STATE_FSM, 2), (1, RST_CAUSE_PIN, 1)] with mem := [(0x10, 5#8), (0x3800000004, 7#8), (0x3C00000005, 9#8)] }) 0  = true := by
  decide +kernel

theorem witness_ResetEndsAfterItsSources_1 : (fun (s : State) (τ : Nat) => decide ((s.sys.inReset = true) ∧ (s.sys.sources.contains 1 = true)) &&
    ranTo (.brownOutRelease τ) s ((s.at τ).setSys { s.sys with sources := s.sys.sources.filter (· != 1), srcEnd := (s.at τ).now }))
    ({ sys := { inReset := true, sources := [1, 1] } }) 0  = true := by
  decide +kernel

theorem witness_ResetEndsAfterItsSources_2 : (fun (s : State) (τ : Nat) => decide ((s.sys.inReset = true) ∧ (s.sys.sources.contains 2 = true)) &&
    ranTo (.rstNRelease τ) s ((s.at τ).setSys { s.sys with sources := s.sys.sources.filter (· != 2), srcEnd := (s.at τ).now }))
    ({ sys := { inReset := true, sources := [1, 2] } }) 0  = true := by
  decide +kernel

theorem witness_ResetEndsAfterItsSources_3 : (fun (s : State) (τ : Nat) => decide ((s.sys.inReset = true) ∧ (s.sys.sources.contains 8 = true)) &&
    ranTo (.thermalTripRelease τ) s ((s.at τ).setSys { s.sys with sources := s.sys.sources.filter (· != 8), srcEnd := (s.at τ).now }))
    ({ sys := { inReset := true, sources := [1, 8] } }) 0  = true := by
  decide +kernel

theorem witness_ResetEndsAfterItsSources_4 : (fun (s : State) (τ : Nat) (straps : Nat) => decide ((s.sys.inReset = true) ∧ (s.sys.sources = []) ∧ (s.sys.srcEnd + 100000 ≤ (s.at τ).now)) &&
    ran (.systemResetEnd τ straps) s (fun t => decide (
    t.sys.inReset = false ∧ t.tb = {} ∧
        t.fsm bPWR = fON ∧ t.fsm bRST = fON ∧ t.fsm bCLK = fON ∧ t.fsm bTIM = fON ∧ t.fsm bHLT = fON ∧
        t.fsm 8 = fSTARTING ∧ t.fsm 9 = fSTARTING ∧ t.fsm 0xA = fSTARTING ∧ t.fsm 0xB = fSTARTING ∧ t.fsm bMEM4 = fSTARTING ∧
        t.rd bRST RST_STRAPS_BOOT_SEL = (if s.sys.sample then bits straps 0 2 else s.rd bRST RST_STRAPS_BOOT_SEL) ∧
        t.rd bRST RST_STRAPS_CLK_SEL = (if s.sys.sample then bits straps 2 2 else s.rd bRST RST_STRAPS_CLK_SEL))))
    ({ now := 200000, sys := { inReset := true, sample := true } }) 0 6 = true := by
  decide +kernel

theorem witness_BootStepsFollowTheChecks_1 : (fun (s : State) (τ : Nat) => decide ((s.sys.inReset = false) ∧ (s.sys.phase = 0) ∧ (s.readOptions = none)) &&
    ran (.bootReady τ) s (fun t => decide (
    t.rd bRST RST_BOOT_STATUS_STAGE = 0xF ∧ t.rd bRST RST_BOOT_STATUS_FAIL_CODE = 1)))
    ({}) 0  = true := by
  decide +kernel

theorem witness_BootStepsFollowTheChecks_2 : (fun (s : State) (τ : Nat) (e : Nat × Nat × Nat) => decide ((s.sys.phase = 1) ∧ (s.sys.fromDram = false) ∧ (s.sys.bank < 2) ∧ (entryOf ((s.directory s.setBase).getD []) 1 = some e)) &&
    ran (.imageVerified τ) s (fun t => decide (
    t.isBad 0 = true ∧ s.imageCode s.setBase e = 3)))
    ({ mem := [(0x3C00000000, 0x47#8), (0x3C00000001, 0x44#8), (0x3C00000002, 0x49#8), (0x3C00000003, 0x52#8), (0x3C00000004, 0x01#8), (0x3C00000006, 0x01#8), (0x3C00000020, 0x01#8), (0x3C00000025, 0x04#8), (0x3C00000028, 0x10#8), (0x3C000003FC, 0xF2#8), (0x3C000003FD, 0x74#8), (0x3C000003FE, 0xA3#8), (0x3C000003FF, 0x09#8)], sys := { phase := 1 } }) 0 (1, 0x400, 16) = true := by
  decide +kernel

theorem witness_BootStepsFollowTheChecks_3 : (fun (s : State) (τ : Nat) => decide ((s.sys.phase = 3)) &&
    ran (.dramInitDone τ) s (fun t => decide (
    t.fsm bMEM4 = fON ∧ t.sys.dramReady = true)))
    ({ sys := { phase := 3, imgNext := 4 } }) 0  = true := by
  decide +kernel

theorem witness_BootStepsFollowTheChecks_4 : (fun (s : State) (τ : Nat) => decide ((s.sys.phase = 5)) &&
    ran (.dramInitDone τ) s (fun t => decide (
    t.fsm bMEM4 = fON ∧ t.sys.dramReady = true ∧ t.rd bRST RST_BOOT_STATUS_STAGE = (if s.rd bRST RST_BOOT_STATUS_SOURCE = 2 then 6 else 7))))
    ({ st [(1, RST_BOOT_STATUS_SOURCE, 3)] with sys := { phase := 5 } }) 0  = true := by
  decide +kernel

theorem witness_BootStepsFollowTheChecks_5 : (fun (s : State) (τ : Nat) (i v : Nat) => decide ((s.regAllowed i true bRST 0x120 = true) ∧ (bit v 0 = 1) ∧ (s.rd bRST RST_BOOT_STATUS_STAGE = 6)) &&
    ran (.rstHostBoot τ i v) s (fun t => decide (
    t.rd bRST RST_BOOT_STATUS_STAGE = (if s.dirCode 0 = 0 then 3 else if s.rd bRST RST_BOOT_STATUS_SOURCE = 2 then 6 else 7))))
    (st [(1, RST_BOOT_STATUS_STAGE, 6), (1, RST_BOOT_STATUS_SOURCE, 2)]) 0 5 1 = true := by
  decide +kernel

theorem witness_BootStepsFollowTheChecks_6 : (fun (s : State) (τ : Nat) (addr : Nat) (name file : List Nat) => decide ((s.sys.phase = 7) ∧ (s.rd bRST RST_BOOT_STATUS_SOURCE = 3) ∧ (inDram 0 file.length = true)) &&
    ran (.netBootFileReceived τ addr name file) s (fun t => decide (
    t.mem = memPuts s.mem 0 file ∧ t.rd bRST RST_BOOT_STATUS_STAGE =
          (if ({ s with mem := memPuts s.mem 0 file } : State).dirCode 0 = 0 then 3 else 7))))
    ({ st [(1, RST_BOOT_STATUS_SOURCE, 3)] with sys := { phase := 7 } }) 0 3 [65] [1, 2, 3] = true := by
  decide +kernel

theorem witness_BootStepsFollowTheChecks_7 : (fun (s : State) (τ : Nat) (failed : Bool) => decide ((s.sys.phase = 7) ∧ ((failed = true ∨ s.sys.netStart + 10000000000 ≤ (s.at τ).now))) &&
    ranTo (.netBootTimeout τ failed) s (((s.at τ).setSys { s.sys with netStart := (s.at τ).now, netAddr := 0, netFile := [] }).send .dhcp))
    ({ now := 5, sys := { phase := 7 } }) 0 true = true := by
  decide +kernel

theorem witness_BootStepsFollowTheChecks_options : parseOptions (State.bytes { mem := [] } (optAddr 0) 4096) = none := by
  decide +kernel

theorem witness_IdentityAndSwapRecords_1 : (fun (s : State) (τ : Nat) (c0 c1 : List Nat) => decide ((s.sys.idReading = true)) &&
    ran (.idMemoryReadDone τ c0 c1) s (fun t => decide (
    t.sys.idReading = false ∧ t.sys.idDone = true ∧ t.rd bRST RST_BOOT_STATUS_ID_COPY = idChoice c0 c1 ∧
        t.sys.idUse = (if idChoice c0 c1 = 1 then some c0 else if idChoice c0 c1 = 2 then some c1 else none))))
    ({ sys := { idReading := true } }) 0 [1] [2] = true := by
  decide +kernel

theorem witness_IdentityAndSwapRecords_2 : (fun (s : State) (τ : Nat) => decide ((s.sys.idReading = true) ∧ ((s.at τ).due perRetry 10000000 = true) ∧ (s.sys.idRetries < 3)) &&
    ranTo (.idReadRetry τ) s ((let u := (s.at τ).mark perRetry; u.setSys { u.sys with idRetries := s.sys.idRetries + 1 })))
    ({ sys := { idReading := true, idRetries := 2 } }) 0  = true := by
  decide +kernel

theorem witness_IdentityAndSwapRecords_3 : (fun (s : State) (τ : Nat) => decide ((s.sys.idReading = true) ∧ ((s.at τ).due perRetry 10000000 = true) ∧ (3 ≤ s.sys.idRetries)) &&
    ranTo (.idReadRetry τ) s ((let u := (s.at τ).mark perRetry; u.setSys { u.sys with idReading := false, idDone := true, idUse := none })))
    ({ now := 10000000, sys := { idReading := true, idRetries := 3, lastAt := [(8, 1)] } }) 0  = true := by
  decide +kernel

theorem witness_IdentityAndSwapRecords_4 : (fun (s : State) (τ : Nat) => decide (((s.at τ).due perRetry 10000000 = false)) &&
    ranTo (.idReadRetry τ) s (s.at τ))
    ({ now := 9999999, sys := { idReading := true, lastAt := [(8, 1)] } }) 0  = true := by
  decide +kernel

theorem witness_IdentityAndSwapRecords_5 : (fun (s : State) (τ : Nat) (k : Nat) (b : List Nat) => decide ((s.sys.idWriting = some (k, b)) ∧ (k < 2)) &&
    ran (.idRecordWriteDone τ) s (fun t => decide (
    t.rd bRST RST_BOOT_STATUS_ID_COPY = k + 1 ∧ t.sys.idUse = some b)))
    ({ sys := { idWriting := some (1, [5]) } }) 0 1 [5] = true := by
  decide +kernel

theorem witness_IdentityAndSwapRecords_6 : (fun (s : State) (τ : Nat) (i v : Nat) => decide ((s.regAllowed i true bRST 0x11C = true) ∧ (bits v 16 16 = 0xA5C3) ∧ (bit v 6 = 0) ∧ (bit v 0 = 0) ∧ (bit v 1 = 1) ∧ (bit v 2 = 0) ∧ (s.sys.swapState = 0) ∧ (s.sys.verifying = false)) &&
    ranTo (.trial τ i v) s ((s.at τ).setSys { s.sys with verifying := true, swapFrom := s.activeBank }))
    ({}) 0 1 0xA5C30002 = true := by
  decide +kernel

theorem witness_IdentityAndSwapRecords_7 : (fun (s : State) (τ : Nat) (i v : Nat) => decide ((s.regAllowed i true bRST 0x11C = true) ∧ (bits v 16 16 = 0xA5C3) ∧ (bit v 6 = 0) ∧ (bit v 0 = 0) ∧ (bit v 1 = 1) ∧ (bit v 2 = 0) ∧ ((s.sys.swapState ≠ 0 ∨ s.sys.verifying = true))) &&
    ranTo (.trial τ i v) s ((s.at τ).wr bRST RST_SWAP_CTRL_SWAP_REFUSED 1))
    ({ sys := { swapState := 2 } }) 0 1 0xA5C30002 = true := by
  decide +kernel

theorem witness_IdentityAndSwapRecords_8 : (fun (s : State) (τ : Nat) (i v : Nat) => decide ((s.regAllowed i true bRST 0x11C = true) ∧ (bits v 16 16 = 0xA5C3) ∧ (bit v 6 = 0) ∧ (bit v 0 = 1) ∧ (bit v 1 = 0) ∧ (bit v 2 = 0) ∧ (s.sys.swapState = 1)) &&
    ran (.cancel τ i v) s (fun t => decide (
    t.sys = { s.sys with swapState := 0 } ∧ t.rd bRST RST_SWAP_CTRL_SWAP_STATE = 0)))
    ({ sys := { swapState := 1 } }) 0 1 0xA5C30001 = true := by
  decide +kernel

theorem witness_IdentityAndSwapRecords_9 : (fun (s : State) (τ : Nat) (i v : Nat) => decide ((s.regAllowed i true bRST 0x11C = true) ∧ (bits v 16 16 = 0xA5C3) ∧ (bit v 6 = 0) ∧ (bit v 0 = 1) ∧ (bit v 1 = 0) ∧ (bit v 2 = 0) ∧ (s.sys.swapState ≠ 1)) &&
    ranTo (.cancel τ i v) s ((s.at τ).wr bRST RST_SWAP_CTRL_SWAP_REFUSED 1))
    ({ sys := { swapState := 2 } }) 0 1 0xA5C30001 = true := by
  decide +kernel

theorem witness_IdentityAndSwapRecords_10 : (fun (s : State) (τ : Nat) (i v : Nat) => decide ((s.regAllowed i true bRST 0x11C = true) ∧ (bits v 16 16 = 0xA5C3) ∧ (bit v 6 = 0) ∧ (bit v 0 = 0) ∧ (bit v 1 = 0) ∧ (bit v 2 = 1) ∧ (s.sys.swapState = 2) ∧ (s.sys.bank < 2)) &&
    ran (.confirm τ i v) s (fun t => decide (
    t.sys = { s.sys with swapState := 0, swapActive := some s.sys.bank } ∧ t.rd bRST RST_SWAP_CTRL_SWAP_STATE = 0 ∧ t.rd bRST RST_SWAP_CTRL_ACTIVE_BANK = s.sys.bank)))
    ({ sys := { swapState := 2, bank := 1 } }) 0 1 0xA5C30004 = true := by
  decide +kernel

theorem witness_IdentityAndSwapRecords_11 : (fun (s : State) (τ : Nat) (i v : Nat) => decide ((s.regAllowed i true bRST 0x11C = true) ∧ (bits v 16 16 = 0xA5C3) ∧ (bit v 6 = 0) ∧ (bit v 0 = 0) ∧ (bit v 1 = 0) ∧ (bit v 2 = 1) ∧ (s.sys.swapState ≠ 2)) &&
    ranTo (.confirm τ i v) s ((s.at τ).wr bRST RST_SWAP_CTRL_SWAP_REFUSED 1))
    ({ sys := { swapState := 1 } }) 0 1 0xA5C30004 = true := by
  decide +kernel

theorem witness_IdentityAndSwapRecords_12 : (fun (s : State) (τ : Nat) (i v : Nat) => decide ((s.regAllowed i true bRST 0x11C = true) ∧ (bit v 6 = 1) ∧ ((bits v 16 16 ≠ 0xA5C3 ∨ bits v 0 3 = 0))) &&
    ranTo (.swapRefusedClear τ i v) s ((s.at τ).wr bRST RST_SWAP_CTRL_SWAP_REFUSED 0))
    (st [(1, RST_SWAP_CTRL_SWAP_REFUSED, 1)]) 0 1 0xA5C30040 = true := by
  decide +kernel

theorem witness_IdentityAndSwapRecords_13 : (fun (s : State) (τ : Nat) => decide ((s.sys.verifying = true) ∧ (s.activeBank < 2)) &&
    ran (.trialVerifyDone τ) s (fun t => decide (
    t.sys.verifying = false ∧ (s.bankPasses (1 - s.activeBank) = true → t.sys.swapState = 1) ∧
        (s.bankPasses (1 - s.activeBank) = false → t.isBad (1 - s.activeBank) = true ∧ t.sys.swapState = s.sys.swapState))))
    ({ sys := { verifying := true } }) 0  = true := by
  decide +kernel

theorem witness_IdentityAndSwapRecords_14 : (fun (s : State) (τ : Nat) (i off : Nat) (data : List Nat) => decide ((s.mgmtOrHost i = true) ∧ (1 ≤ data.length) ∧ (off + data.length ≤ 0xC000000) ∧ (bankOfOffset off ≠ s.activeBank) ∧ (bankOfOffset (off + data.length - 1) ≠ s.activeBank)) &&
    ran (.flashProgram τ i off data) s (fun t => decide (
    t.mem = memPuts s.mem (flashBase + off) data ∧ t.resp.status = 0 ∧ t.sys.swapState = (if s.sys.swapState = 1 then 0 else s.sys.swapState))))
    ({ sys := { swapState := 1 } }) 0 1 0x6000000 [1, 2] = true := by
  decide +kernel

theorem witness_FactoryProgramTeachesAndCounts_1 : (fun (s : State) (τ : Nat) => decide ((s.sys.factory.on = true) ∧ (s.discovers 0 = true) ∧ ((s.camP 0).step ≤ 2) ∧ ((s.camP 0).since.getD 0 + 1000000000 ≤ (s.at τ).now)) &&
    ranTo (.cameraDiscoveryRetry τ) s ((s.at τ).setCam 0 { s.camP 0 with step := 2, since := none }))
    ({ st [(0x20, COM_STATE_FSM, 2), (0x20, CAM_CTRL_AUTO_DISC, 1)] with now := 1000000000, sys := { factory := { on := true } } }) 0  = true := by
  decide +kernel

theorem witness_FactoryProgramTeachesAndCounts_2 : (fun (s : State) (τ : Nat) (low : Bool) (high : Nat) => decide ((s.sys.factory.on = true) ∧ (s.sys.factory.enc = 0) ∧ (s.sys.factory.listenAt + 2000000000 ≤ (s.at τ).now) ∧ (s.sys.factory.run16 = true)) &&
    ranTo (.encoderTypeTest τ low high) s ((s.at τ).setFac { s.sys.factory with enc := 1 }))
    ({ sys := { factory := { on := true, run16 := true } }, now := 2000000000 }) 0 false 7 = true := by
  decide +kernel

theorem witness_FactoryProgramTeachesAndCounts_3 : (fun (s : State) (τ : Nat) (high : Nat) => decide ((s.sys.factory.on = true) ∧ (s.sys.factory.enc = 0) ∧ (s.sys.factory.listenAt + 2000000000 ≤ (s.at τ).now) ∧ (s.sys.factory.run16 = false) ∧ (15000 ≤ high) ∧ (high ≤ 60000)) &&
    ran (.encoderTypeTest τ true high) s (fun t => decide (
    t.sys.factory.enc = 2 ∧ t.rd (bSTP 0) STP_MODE_MODE = 1 ∧ t.rd (bSTP 0) STP_SSI_BITS = 25 ∧ t.rd (bSTP 0) STP_SSI_CODE = 1 ∧ t.rd (bSTP 0) STP_SSI_CLKSEL = 2 ∧ t.out = .ssiBurst 0 26 100000 :: s.out)))
    ({ sys := { factory := { on := true } }, now := 2000000000 }) 0 15000 = true := by
  decide +kernel

theorem witness_FactoryProgramTeachesAndCounts_4 : (fun (s : State) (τ : Nat) (low : Bool) (high : Nat) => decide ((s.sys.factory.on = true) ∧ (s.sys.factory.enc = 0) ∧ (s.sys.factory.listenAt + 2000000000 ≤ (s.at τ).now) ∧ (s.sys.factory.run16 = false) ∧ ((low = false ∨ high < 15000 ∨ 60000 < high))) &&
    ranTo (.encoderTypeTest τ low high) s (((s.at τ).send (.ssiBurst 0 26 100000)).setFac { s.sys.factory with listenAt := (s.at τ).now, run := 0 }))
    ({ sys := { factory := { on := true } }, now := 2000000000 }) 0 true 60001 = true := by
  decide +kernel

theorem witness_FactoryProgramTeachesAndCounts_5 : (fun (s : State) (τ : Nat) => decide ((s.sys.factory.on = true) ∧ (s.sys.factory.teach = none) ∧ ((bit (s.rd bFIO FIO_DI) 0 = 1 ∧ Store.get 0 s.field.diRise 0 + 3000000000 ≤ (s.at τ).now) ∨ (s.sys.factory.dist = none ∧ s.sys.factory.teachFail = 0 ∧ (s.stpP 0).lastEdge.isSome = true))) &&
    ranTo (.teachIn τ) s ((s.at τ).setFac { s.sys.factory with teach := some ([], []), teachFail := 0 }))
    ({ st [(0x1B, FIO_DI, 1)] with now := 3000000000, sys := { factory := { on := true } } }) 0  = true := by
  decide +kernel

theorem witness_FactoryProgramTeachesAndCounts_6 : (fun (s : State) (τ : Nat) => decide ((s.sys.factory.on = true)) &&
    ranTo (.teach τ) s ((s.at τ).setFac { s.sys.factory with teach := some ([], []), teachFail := 0 }))
    ({ sys := { factory := { on := true } } }) 0  = true := by
  decide +kernel

theorem witness_FactoryProgramTeachesAndCounts_7 : (fun (s : State) (τ : Nat) (c : Int × Bool) (r : List (Int × Bool)) => decide ((s.sys.factory.on = true) ∧ (s.sys.factory.teach = some (c :: r, []))) &&
    ranTo (.teachInEdge τ) s ((s.at τ).setFac { s.sys.factory with teach := some (r, [(s.stpP 0).count - c.1]) }))
    ({ sys := { factory := { on := true, teach := some ([(5, true), (9, false)], []) } } }) 0 (5, true) [(9, false)] = true := by
  decide +kernel

theorem witness_FactoryProgramTeachesAndCounts_8 : (fun (s : State) (τ : Nat) (ms : List Int) => decide ((s.sys.factory.on = true) ∧ (s.sys.factory.teach = some ([], ms))) &&
    ranTo (.teachInEdge τ) s (((s.at τ).setFac { s.sys.factory with teach := none, teachFail := 1 }).send (.console [1, 1])))
    ({ sys := { factory := { on := true, teach := some ([], [7]) } } }) 0 [7] = true := by
  decide +kernel

theorem witness_FactoryProgramTeachesAndCounts_9 : (fun (s : State) (τ : Nat) (c : Int) (decodes : Bool) (grade : Nat) (codes : List (Int × Bool)) (ms : List Int) => decide ((s.sys.factory.on = true) ∧ (s.sys.factory.teach = some (codes, ms))) &&
    ranTo (.codeVerdict τ c decodes grade) s ((s.at τ).setFac { s.sys.factory with
        good := s.sys.factory.good + (if decodes && decide (grade ≤ 2) then 1 else 0),
        bad := s.sys.factory.bad + (if decodes && decide (grade ≤ 2) then 0 else 1),
        teach := some (codes ++ [(c, decodes && decide (grade ≤ 2))], ms),
        codes := s.sys.factory.codes ++ [c] }))
    ({ sys := { factory := { on := true, teach := some ([(1, true)], [3]) } } }) 0 7 true 3 [(1, true)] [3] = true := by
  decide +kernel

theorem witness_FactoryProgramTeachesAndCounts_10 : (fun (s : State) (τ : Nat) (c : Int) (decodes : Bool) (grade : Nat) => decide ((s.sys.factory.on = true) ∧ (s.sys.factory.teach = none) ∧ (s.sys.factory.dist = none)) &&
    ranTo (.codeVerdict τ c decodes grade) s ((s.at τ).setFac { s.sys.factory with
        good := s.sys.factory.good + (if decodes && decide (grade ≤ 2) then 1 else 0),
        bad := s.sys.factory.bad + (if decodes && decide (grade ≤ 2) then 0 else 1) }))
    ({ sys := { factory := { on := true } } }) 0 7 true 2 = true := by
  decide +kernel

theorem witness_FactoryProgramTeachesAndCounts_11 : (fun (s : State) (τ : Nat) (c : Int) (decodes : Bool) (grade : Nat) (d : Int) => decide ((s.sys.factory.on = true) ∧ (s.sys.factory.teach = none) ∧ (s.sys.factory.dist = some d)) &&
    ranTo (.codeVerdict τ c decodes grade) s (((s.at τ).setFac { s.sys.factory with
        good := s.sys.factory.good + (if decodes && decide (grade ≤ 2) then 1 else 0),
        bad := s.sys.factory.bad + (if decodes && decide (grade ≤ 2) then 0 else 1),
        codes := s.sys.factory.codes ++ [c] }).factorySlot d (c, decodes && decide (grade ≤ 2))))
    ({ sys := { factory := { on := true, dist := some 100 } } }) 0 7 true 2 100 = true := by
  decide +kernel

theorem witness_FactoryProgramTeachesAndCounts_12 : (fun (s : State) (τ : Nat) (d : Int) => decide ((s.sys.factory.on = true) ∧ (s.sys.factory.teach = none) ∧ (s.sys.factory.dist = some d) ∧ (∀ c ∈ s.sys.factory.codes, ¬ 100 * ((s.stpP 0).count - (c + d)).natAbs ≤ d.natAbs)) &&
    ranTo (.unmatchedProbeEdge τ) s (((s.at τ).setFac { s.sys.factory with unmatched := s.sys.factory.unmatched + 1, codes := s.sys.factory.codes.filter (fun c => decide (100 * ((s.stpP 0).count - (c + d)) ≤ d.natAbs)) }).fireNow 0 1))
    ({ sys := { factory := { on := true, dist := some 100, codes := [50] } } }) 0 100 = true := by
  decide +kernel

theorem witness_FactoryProgramTeachesAndCounts_13 : (fun (s : State) (τ : Nat) => decide ((s.sys.factory.on = true)) &&
    ranTo (.status τ) s ((s.at τ).send (.console [0, s.rd (bCAM 0) CAM_LINK_LINK_UP, s.sys.factory.enc, (if s.sys.factory.dist.isSome then 1 else 0),
        s.sys.factory.dist.getD 0, s.sys.factory.valveUs, s.sys.factory.good, s.sys.factory.bad, s.sys.factory.unmatched])))
    ({ sys := { factory := { on := true, good := 3 } } }) 0  = true := by
  decide +kernel

theorem witness_FactoryProgramTeachesAndCounts_14 : (fun (s : State) (τ : Nat) (n : Nat) => decide ((s.sys.factory.on = true) ∧ (n ≤ 100000)) &&
    ran (.valve τ n) s (fun t => decide (
    t.sys.factory.valveUs = n ∧ t.sys.factory.valveSet = true ∧ t.act (bEJT 0) (EJT_CLS_DELAY 1) = n)))
    ({ sys := { factory := { on := true } } }) 0 100000 = true := by
  decide +kernel

theorem witness_SidebandAnswersTheListedCommands_1 : (fun (s : State) (τ : Nat) => decide (True) &&
    ranTo (.capability τ) s ((s.at τ).answer 0 [0xB0]))
    ({}) 0  = true := by
  decide +kernel

theorem witness_SidebandAnswersTheListedCommands_2 : (fun (s : State) (τ : Nat) => decide (True) &&
    ranTo (.pmbusRevision τ) s ((s.at τ).answer 0 [0x33]))
    ({}) 0  = true := by
  decide +kernel

theorem witness_SidebandAnswersTheListedCommands_3 : (fun (s : State) (τ : Nat) => decide (True) &&
    ranTo (.mfrId τ) s ((s.at τ).answer 0 [0x53, 0x48, 0x41, 0x53, 0x45, 0x4E]))
    ({}) 0  = true := by
  decide +kernel

theorem witness_SidebandAnswersTheListedCommands_4 : (fun (s : State) (τ : Nat) => decide (True) &&
    ranTo (.statusByte τ) s ((s.at τ).answer 0 [(if s.sys.pmb.vinUv then 8 else 0) + (if s.sys.pmb.tempBad then 4 else 0) + (if s.sys.pmb.cml then 2 else 0) +
        (if s.sys.pmb.vinOv ∧ s.sys.pmb.vinUv = false then 1 else 0)]))
    ({ sys := { pmb := { vinUv := true, cml := true } } }) 0  = true := by
  decide +kernel

theorem witness_SidebandAnswersTheListedCommands_5 : (fun (s : State) (τ : Nat) => decide (True) &&
    ran (.statusWord τ) s (fun t => decide (
    t.resp.data.length = 2 ∧ leNat t.resp.data = s.sys.pmb.statusByte + (if s.sys.pmb.vinUv ∨ s.sys.pmb.vinOv then 0x2000 else 0))))
    ({ sys := { pmb := { vinOv := true } } }) 0  = true := by
  decide +kernel

theorem witness_SidebandAnswersTheListedCommands_6 : (fun (s : State) (τ : Nat) (vin iin : Nat) (plate hot : Int) (pin : Nat) => decide (((s.at τ).due perPmb 10000000 = true)) &&
    ran (.pmbusRefresh τ vin iin plate hot pin) s (fun t => decide (
    t.sys.pmb.vinMv = vin ∧ t.sys.pmb.iinMa = iin ∧ t.sys.pmb.plate = plate ∧ t.sys.pmb.hot = hot ∧ t.sys.pmb.pinMw = pin ∧
        t.sys.pmb.tempBad = (s.sys.pmb.tempBad || decide (85000 < plate)) ∧
        t.sys.pmb.vinUv = (s.sys.pmb.vinUv || decide (vin < 11400)) ∧ t.sys.pmb.vinOv = (s.sys.pmb.vinOv || decide (12600 < vin)) ∧
        t.sys.pmb.alert = (s.sys.pmb.alert || decide (85000 < plate ∨ vin < 11400 ∨ 12600 < vin)))))
    ({ now := 10000000, sys := { lastAt := [(5, 1)] } }) 0 11399 3 85001 4 5 = true := by
  decide +kernel

theorem witness_SidebandAnswersTheListedCommands_7 : (fun (s : State) (τ : Nat) (vin iin : Nat) (plate hot : Int) (pin : Nat) => decide (((s.at τ).due perPmb 10000000 = false)) &&
    ranTo (.pmbusRefresh τ vin iin plate hot pin) s (s.at τ))
    ({ now := 9999999, sys := { lastAt := [(5, 1)] } }) 0 1 3 5 4 5 = true := by
  decide +kernel

theorem witness_SidebandAnswersTheListedCommands_8 : (fun (s : State) (τ : Nat) => decide (True) &&
    ran (.clearFaults τ) s (fun t => decide (
    t.sys.pmb.cml = false ∧ t.sys.pmb.tempBad = decide (85000 < s.sys.pmb.plate) ∧
        t.sys.pmb.vinUv = decide (s.sys.pmb.vinMv < 11400) ∧ t.sys.pmb.vinOv = decide (12600 < s.sys.pmb.vinMv) ∧
        (s.sys.pmb.alert = true → s.sys.pmb.bad = false → t.sys.pmb.alert = false))))
    ({ sys := { pmb := { vinMv := 12000, alert := true, cml := true, vinUv := true } } }) 0  = true := by
  decide +kernel

theorem witness_SidebandAnswersTheListedCommands_9 : (fun (s : State) (τ : Nat) (code : Nat) (data : List Nat) => decide (True) &&
    ranTo (.pmbusOtherWrite τ code data) s ((s.at τ).setPmb { s.sys.pmb with cml := true }))
    ({}) 0 1 [2] = true := by
  decide +kernel

theorem witness_FieldAndCameraSupplies_1 : (fun (s : State) (τ : Nat) => decide ((s.rd bFIO FIO_STAT_UV = 0) ∧ (s.domOn bFIO = true)) &&
    ran (.v24fLow τ) s (fun t => decide (
    t.rd bFIO FIO_STAT_UV = 1 ∧ t.field.pulses = [] ∧ t.cnt bFIO FIO_CNT_UV = satInc (s.cnt bFIO FIO_CNT_UV) 1)))
    ({ st [(0, PWR_PD_STAT_PSTATE 56, 2)] with field := { pulses := [(1, some ⟨0, 5⟩)] } }) 0  = true := by
  decide +kernel

theorem witness_FieldAndCameraSupplies_2 : (fun (s : State) (τ : Nat) => decide ((s.domOn bFIO = true)) &&
    ran (.v24fHigh τ) s (fun t => decide (
    t.rd bFIO FIO_STAT_UV = 0)))
    (st [(0, PWR_PD_STAT_PSTATE 56, 2), (0x1B, FIO_STAT_UV, 1)]) 0  = true := by
  decide +kernel

theorem witness_FieldAndCameraSupplies_3 : (fun (s : State) (τ : Nat) (p : Nat) => decide (True) &&
    ranTo (.pocxpOvercurrent τ p) s ((s.at τ).setCam p { s.camP p with power := false }))
    ({}) 0 3 = true := by
  decide +kernel

theorem witness_FieldAndCameraSupplies_4 : (fun (s : State) (τ : Nat) => decide (True) &&
    ranTo (.vcxpChange τ true) s ((s.at τ).setSys { s.sys with vcxp := true }))
    ({}) 0  = true := by
  decide +kernel

theorem witness_FieldAndCameraSupplies_5 : (fun (s : State) (τ : Nat) => decide (True) &&
    ran (.vcxpChange τ false) s (fun t => decide (
    t.sys.vcxp = false ∧ ∀ n ∈ List.range 8, (t.camP n).power = false)))
    ({ cam := [(2, { power := true })] }) 0  = true := by
  decide +kernel

theorem witness_FieldAndCameraSupplies_6 : (fun (s : State) (τ : Nat) (n : Nat) => decide ((s.domOn bFIO = true) ∧ (n < 2)) &&
    ran (.encoderSupplyLimit τ n) s (fun t => decide (
    t.rd bFIO (encvFault n) = 1 ∧ t.rd bFIO FIO_STAT_FAULT = 1)))
    (st [(0, PWR_PD_STAT_PSTATE 56, 2)]) 0 1 = true := by
  decide +kernel

theorem witness_FieldAndCameraSupplies_7 : (fun (s : State) (τ : Nat) (n : Nat) => decide ((s.domOn bFIO = true) ∧ (n < 2)) &&
    ran (.encoderSupplyLimitEnd τ n) s (fun t => decide (
    t.rd bFIO (encvFault n) = 0)))
    (st [(0x1B, encvFault 1, 1), (0, PWR_PD_STAT_PSTATE 56, 2)]) 0 1 = true := by
  decide +kernel

theorem witness_CameraLinksComeAndGo_1 : (fun (s : State) (τ : Nat) (p : Nat) (detect : Bool) (a : Nat) => decide ((s.discovers p = true) ∧ ((s.camP p).step ≤ 2) ∧ (((s.camP p).since = none ∨ (s.camP p).since.getD 0 + 1000000000 ≤ (s.at τ).now)) ∧ (((bitList 4 a).filter (fun k => s.laneUsable (4 * p + k))).foldl (fun m k => m + 2 ^ k) 0 = 0)) &&
    ran (.connectionTest τ p detect a) s (fun t => decide (
    (t.camP p).since = some (s.at τ).now ∧ (t.camP p).step = 2 ∧ t.out = s.out)))
    (st [(0x22, COM_STATE_FSM, 2), (0x22, CAM_CTRL_AUTO_DISC, 1), (0xC9, COM_STATE_FSM, 2)]) 0 2 true 0 = true := by
  decide +kernel

theorem witness_CameraLinksComeAndGo_2 : (fun (s : State) (τ : Nat) (p : Nat) (detect : Bool) (a : Nat) => decide ((s.discovers p = true) ∧ ((s.camP p).step ≤ 2) ∧ (((s.camP p).since = none ∨ (s.camP p).since.getD 0 + 1000000000 ≤ (s.at τ).now)) ∧ (((bitList 4 a).filter (fun k => s.laneUsable (4 * p + k))).foldl (fun m k => m + 2 ^ k) 0 ≠ 0)) &&
    ran (.connectionTest τ p detect a) s (fun t => decide (
    (t.camP p).since = some (s.at τ).now ∧ (t.camP p).step = 3 ∧ (t.camP p).answered = ((bitList 4 a).filter (fun k => s.laneUsable (4 * p + k))).foldl (fun m k => m + 2 ^ k) 0 ∧
        t.out = [.control p 6, .control p 5, .control p 4, .control p 3, .control p 2, .control p 1, .control p 0] ++ s.out)))
    (st [(0x22, COM_STATE_FSM, 2), (0x22, CAM_CTRL_AUTO_DISC, 1), (0xC9, COM_STATE_FSM, 2)]) 0 2 true 6 = true := by
  decide +kernel

theorem witness_CameraLinksComeAndGo_3 : (fun (s : State) (τ : Nat) (p : Nat) (ident : List Nat) (conns maxRate minNs fmt : Nat) => decide ((s.discovers p = true) ∧ ((s.camP p).step = 3) ∧ (min (min conns (popCount 4 (s.camP p).answered)) (s.rd (bCAM p) CAM_LINK_MAX_LANES) ≠ 0) ∧ (rateUpTo (min maxRate (s.rd (bCAM p) CAM_LINK_MAX_RATE)) ≠ 0)) &&
    ranTo (.controlAcknowledgement τ p ident conns maxRate minNs fmt) s (((s.at τ).setCam p { s.camP p with step := 5, since := some (s.at τ).now, ident := ident, minNs := minNs, fmt := fmt, lanes := min (min conns (popCount 4 (s.camP p).answered)) (s.rd (bCAM p) CAM_LINK_MAX_LANES), rate := rateUpTo (min maxRate (s.rd (bCAM p) CAM_LINK_MAX_RATE)) }).send (.control p 7)))
    ({ st [(0x22, COM_STATE_FSM, 2), (0x22, CAM_CTRL_AUTO_DISC, 1), (0x22, CAM_LINK_MAX_RATE, 12), (0x22, CAM_LINK_MAX_LANES, 4)] with cam := [(2, { step := 3, answered := 3 })] }) 0 2 [1] 4 7 100 0 = true := by
  decide +kernel

theorem witness_CameraLinksComeAndGo_4 : (fun (s : State) (τ : Nat) (p : Nat) => decide ((s.discovers p = true) ∧ ((s.camP p).step = 3) ∧ ((s.camP p).since.getD 0 + 200000000 ≤ (s.at τ).now)) &&
    ranTo (.controlAckTimeout τ p) s ((s.at τ).setCam p { s.camP p with step := 2, since := none }))
    ({ st [(0x22, COM_STATE_FSM, 2), (0x22, CAM_CTRL_AUTO_DISC, 1)] with now := 200000000, cam := [(2, { step := 3 })] }) 0 2 = true := by
  decide +kernel

theorem witness_CameraLinksComeAndGo_5 : (fun (s : State) (τ : Nat) (p : Nat) => decide ((s.discovers p = true) ∧ ((s.camP p).step = 5)) &&
    ran (.linkTestDone τ p true) s (fun t => decide (
    t.rd (bCAM p) CAM_LINK_LINK_UP = 1 ∧ t.rd (bCAM p) CAM_LINK_DISC_DONE = 1 ∧ t.rd (bCAM p) CAM_LINK_LANES = (s.camP p).lanes % 16 ∧ t.rd (bCAM p) CAM_LINK_RATE = (s.camP p).rate % 16 ∧ (t.camP p).step = 6 ∧ (t.camP p).hbAt = (s.at τ).now)))
    ({ st [(0x22, COM_STATE_FSM, 2), (0x22, CAM_CTRL_AUTO_DISC, 1)] with cam := [(2, { step := 5, lanes := 1, answered := 1, rate := 3 })] }) 0 2 = true := by
  decide +kernel

theorem witness_CameraLinksComeAndGo_6 : (fun (s : State) (τ : Nat) (p : Nat) => decide ((s.discovers p = true) ∧ ((s.camP p).step = 5) ∧ (rateUpTo ((s.camP p).rate - 1) ≠ 0)) &&
    ranTo (.linkTestDone τ p false) s (((s.at τ).setCam p { s.camP p with rate := rateUpTo ((s.camP p).rate - 1), since := some (s.at τ).now }).send (.control p 7)))
    ({ st [(0x22, COM_STATE_FSM, 2), (0x22, CAM_CTRL_AUTO_DISC, 1)] with cam := [(2, { step := 5, lanes := 1, answered := 1, rate := 3 })] }) 0 2 = true := by
  decide +kernel

theorem witness_CameraLinksComeAndGo_7 : (fun (s : State) (τ : Nat) (p : Nat) => decide ((p < 8) ∧ (s.rd (bCAM p) CAM_LINK_LINK_UP = 1)) &&
    ran (.camLinkLoss τ p) s (fun t => decide (
    t.rd (bCAM p) CAM_LINK_LINK_UP = 0 ∧ t.cnt (bCAM p) CAM_CNT_LINKLOSS = satInc (s.cnt (bCAM p) CAM_CNT_LINKLOSS) 1)))
    (st [(0x22, COM_STATE_FSM, 2), (0x22, CAM_CTRL_AUTO_DISC, 1), (0x22, CAM_LINK_LINK_UP, 1)]) 0 2 = true := by
  decide +kernel

theorem witness_CameraLinksComeAndGo_8 : (fun (s : State) (τ : Nat) (p : Nat) => decide ((p < 8) ∧ (s.rd (bCAM p) CAM_LINK_LINK_UP = 1) ∧ ((s.camP p).hbAt + 100000000 ≤ (s.at τ).now)) &&
    ran (.camHeartbeatTimeout τ p) s (fun t => decide (
    t.rd (bCAM p) CAM_LINK_LINK_UP = 0 ∧ t.cnt (bCAM p) CAM_CNT_LINKLOSS = satInc (s.cnt (bCAM p) CAM_CNT_LINKLOSS) 1)))
    ({ st [(0x22, COM_STATE_FSM, 2), (0x22, CAM_CTRL_AUTO_DISC, 1), (0x22, CAM_LINK_LINK_UP, 1)] with now := 100000000 }) 0 2 = true := by
  decide +kernel

theorem witness_CameraLinksComeAndGo_9 : (fun (s : State) (τ : Nat) (p : Nat) => decide ((p < 8) ∧ (s.rd (bCAM p) CAM_LINK_LINK_UP = 1)) &&
    ranTo (.camHeartbeat τ p) s ((s.at τ).setCam p { s.camP p with hbAt := (s.at τ).now }))
    (st [(0x22, COM_STATE_FSM, 2), (0x22, CAM_CTRL_AUTO_DISC, 1), (0x22, CAM_LINK_LINK_UP, 1)]) 0 2 = true := by
  decide +kernel

theorem witness_CameraLinksComeAndGo_10 : (fun (s : State) (τ : Nat) (p : Nat) (payload : List Nat) => decide ((p < 8) ∧ (s.rd (bCAM p) CAM_LINK_LINK_UP = 1) ∧ (s.isOn (bCAM p) = true)) &&
    ranTo (.eventPacket τ p payload) s ((s.at τ).raiseRaw 0x0103 (bCAM p) 0 (if 16 < payload.length then 2 else 0) (payload.map (· % 256))))
    (st [(0x22, COM_STATE_FSM, 2), (0x22, CAM_CTRL_AUTO_DISC, 1), (0x22, CAM_LINK_LINK_UP, 1)]) 0 2 [1, 2] = true := by
  decide +kernel

theorem witness_CameraLinksComeAndGo_11 : (fun (s : State) (τ : Nat) (p : Nat) (l : CamLine) (r : List CamLine) => decide ((p < 8) ∧ (s.rd (bCAM p) CAM_LINK_LINK_UP = 1) ∧ (s.takesData p = true) ∧ ((s.camP p).lines = l :: r)) &&
    ranTo (.otherPacket τ p) s ((s.at τ).setCam p { s.camP p with lines := { l with bad := true } :: r }))
    ({ st [(0x22, COM_STATE_FSM, 2), (0x22, CAM_CTRL_AUTO_DISC, 1), (0x22, CAM_LINK_LINK_UP, 1)] with cam := [(2, { lines := [{}] })] }) 0 2 {} [] = true := by
  decide +kernel

theorem witness_TriggersMakeLines_1 : (fun (s : State) (τ : Nat) (p src : Nat) (h : Int) => decide ((p < 9) ∧ ((s.at τ).trigSrc p = src + 1) ∧ (src < 2) ∧ ((s.at τ).trigStep p = s.trigStep p) ∧ ((s.at τ).trigPhase p = s.trigPhase p) ∧ ((s.at τ).gridOk p = true) ∧ ((s.camP p).hw = some h) ∧ ((nextTrigger (s.trigStep p) (s.trigPhase p) h).2 ≤ (s.at τ).pos src) ∧ (0 ≤ (s.at τ).speed src) ∧ ((s.at τ).epochBars src (nextTrigger (s.trigStep p) (s.trigPhase p) h).2 = false) ∧ (s.streams p = true) ∧ (s.fsm (bCAM p) ≠ fOFF) ∧ (s.lnk.ending = false)) &&
    ran (.positionTrigger τ p) s (fun t => decide (
    (t.camP p).hw = some (nextTrigger (s.trigStep p) (s.trigPhase p) h).2 ∧ (t.camP p).next = (s.camP p).next + (if s.act (bCAM p) CAM_LINECFG_MODE = 1 then s.act (bCAM p) CAM_TRIG_FRAME_H else 1))))
    ({ st [(0x22, COM_STATE_FSM, 2), (0x22, CAM_CTRL_STREAM, 1), (0x22, CAM_TRIG_SRC, 1), (0x22, CAM_TRIGSTEP_STEP, 256)] with cam := [(2, { hw := some (-500) })] }) 0 2 0 (-500) = true := by
  decide +kernel

theorem witness_TriggersMakeLines_2 : (fun (s : State) (τ : Nat) (p : Nat) => decide ((p < 9) ∧ (s.trigSrc p = 3) ∧ (s.gridOk p = true) ∧ (nextInstant (s.trigStep p * 16777216) (s.trigPhase p * 16777216) (s.camP p).timeHw ≤ (s.at τ).tb.time) ∧ (s.streams p = true) ∧ (s.fsm (bCAM p) ≠ fOFF) ∧ (s.lnk.ending = false)) &&
    ran (.timeTrigger τ p) s (fun t => decide (
    (t.camP p).timeHw = nextInstant (s.trigStep p * 16777216) (s.trigPhase p * 16777216) (s.camP p).timeHw ∧ (t.camP p).next = (s.camP p).next + (if s.act (bCAM p) CAM_LINECFG_MODE = 1 then s.act (bCAM p) CAM_TRIG_FRAME_H else 1))))
    ({ st [(0x22, COM_STATE_FSM, 2), (0x22, CAM_CTRL_STREAM, 1), (0x22, CAM_TRIG_SRC, 3), (0x22, CAM_TRIGSTEP_STEP, 256)] with tb := { time := 4294967296 } }) 0 2 = true := by
  decide +kernel

theorem witness_TriggersMakeLines_3 : (fun (s : State) (τ : Nat) (p : Nat) => decide ((p < 9) ∧ (s.trigSrc p = 4) ∧ ((s.camP p).diSeen < Store.get 0 s.field.diRise (s.act (bCAM p) CAM_TRIG_DI_SEL)) ∧ (s.streams p = true) ∧ (s.fsm (bCAM p) ≠ fOFF) ∧ (s.lnk.ending = false)) &&
    ran (.diTrigger τ p) s (fun t => decide (
    (t.camP p).diSeen = (s.at τ).now + 1 ∧ (t.camP p).next = (s.camP p).next + (if s.act (bCAM p) CAM_LINECFG_MODE = 1 then s.act (bCAM p) CAM_TRIG_FRAME_H else 1))))
    ({ st [(0x22, COM_STATE_FSM, 2), (0x22, CAM_CTRL_STREAM, 1), (0x22, CAM_TRIG_SRC, 4), (0x22, CAM_TRIGSTEP_STEP, 256)] with field := { diRise := [(0, 4)] } }) 0 2 = true := by
  decide +kernel

theorem witness_LinesAreReceivedAndJudged_1 : (fun (s : State) (τ : Nat) (p lane : Nat) (data : List Nat) (l : CamLine) (r : List CamLine) => decide ((p < 8) ∧ (s.rd (bCAM p) CAM_LINK_LINK_UP = 1) ∧ (s.takesData p = true) ∧ ((s.takeInj [4 * p + lane % 4]).1 = false) ∧ ((s.camP p).lines = l :: r) ∧ (l.late = false) ∧ ((l.first = true ∨ (s.at τ).now ≤ l.trigAt + s.act (bCAM p) CAM_DMG_LATE_US * 1000))) &&
    ran (.streamDataPacket τ p lane l.idx true data) s (fun t => decide (
    (t.camP p).lines.map CamLine.pix = [[7 * 256, 8 * 256]])))
    ({ st [(0x22, COM_STATE_FSM, 2), (0x22, CAM_LINK_LINK_UP, 1), (0x22, CAM_LINECFG_WIDTH, 2)] with cam := [(2, { lines := [{ first := true, pix := [] }] })] }) 0 2 0 [7, 8] { first := true } [] = true := by
  decide +kernel

theorem witness_LinesAreReceivedAndJudged_2 : (fun (s : State) (τ : Nat) (p lane idx : Nat) (data : List Nat) (l : CamLine) (r : List CamLine) => decide ((p < 8) ∧ (s.rd (bCAM p) CAM_LINK_LINK_UP = 1) ∧ (s.takesData p = true) ∧ ((s.camP p).lines = l :: r) ∧ (l.late = false) ∧ ((l.first = true ∨ (s.at τ).now ≤ l.trigAt + s.act (bCAM p) CAM_DMG_LATE_US * 1000))) &&
    ran (.streamDataPacket τ p lane idx false data) s (fun t => decide (
    (t.camP p).lines.map CamLine.bad = [true] ∧ t.cnt (bCAM p) (CAM_CNT_CRC 1) = 1)))
    ({ st [(0x22, COM_STATE_FSM, 2), (0x22, CAM_LINK_LINK_UP, 1), (0x22, CAM_LINECFG_WIDTH, 2)] with cam := [(2, { lines := [{ first := true, pix := [] }] })] }) 0 2 1 5 [7, 8] { first := true } [] = true := by
  decide +kernel

theorem witness_LinesAreReceivedAndJudged_3 : (fun (s : State) (τ : Nat) (p : Nat) (l : CamLine) (r : List CamLine) => decide ((p < 8) ∧ (s.takesData p = true) ∧ ((s.camP p).lines = l :: r) ∧ ((l.first = true ∨ l.bad = true)) ∧ (∀ x ∈ r, x.late = false)) &&
    ran (.lineEnd τ p) s (fun t => decide (
    (t.camP p).lines = r ∧
        (t.camP p).judged.map CamLine.status = (s.camP p).judged.map CamLine.status ++ [l.judge (s.camWidth p) (s.camChans p)] ∧
        t.cnt (bCAM p) (lineCounter (l.judge (s.camWidth p) (s.camChans p))) = satInc (s.cnt (bCAM p) (lineCounter (l.judge (s.camWidth p) (s.camChans p)))) 1)))
    ({ st [(0x22, COM_STATE_FSM, 2), (0x22, CAM_LINK_LINK_UP, 1), (0x22, CAM_LINECFG_WIDTH, 2)] with cam := [(2, { lines := [{ first := true, pix := [7, 8] }] })] }) 0 2 { first := true, pix := [7, 8] } [] = true := by
  decide +kernel

theorem witness_LinesAreReceivedAndJudged_4 : (fun (s : State) (τ : Nat) (p : Nat) => decide ((p < 9)) &&
    ran (.lineLate τ p) s (fun t => decide (
    ∀ l ∈ (t.camP p).lines, l.first = false → l.trigAt + s.act (bCAM p) CAM_DMG_LATE_US * 1000 ≤ (s.at τ).now → l.late = true)))
    ({ now := 9000000, cam := [(2, { lines := [{ first := true }, { idx := 1 }] })] }) 0 2 = true := by
  decide +kernel

theorem witness_LinesAreReceivedAndJudged_5 : (fun (s : State) (τ : Nat) (p a : Nat) => decide ((p < 9) ∧ ((s.camP p).stopAt = some a) ∧ (s.fencing (bCAM p) = false) ∧ (s.fsm (bCAM p) = fSTOPPING) ∧ (a + s.act (bCAM p) CAM_DMG_LATE_US * 1000 ≤ (s.at τ).now)) &&
    ran (.stopWaitEnd τ p) s (fun t => decide (
    t.fsm (bCAM p) = fOFF)))
    ({ st [(0x22, COM_STATE_FSM, 3)] with now := 90000000, cam := [(2, { stopAt := some 5 })] }) 0 2 5 = true := by
  decide +kernel

theorem witness_ParallelPortAndSerialChannel_1 : (fun (s : State) (τ : Nat) (idx ago : Nat) (edges : List Nat) (l : CamLine) (r : List CamLine) => decide ((s.takesData 8 = true) ∧ ((s.camP 8).lines = l :: r) ∧ (l.idx ≤ idx) ∧ (l.late = false) ∧ ((l.first = true ∨ (s.at τ).now ≤ l.trigAt + s.act (bCAM 8) CAM_DMG_LATE_US * 1000 + ago)) ∧ (∀ x ∈ r, x.late = false ∧ (x.first = true ∨ (s.at τ).now ≤ x.trigAt + s.act (bCAM 8) CAM_DMG_LATE_US * 1000 + ago)) ∧ (edges.any (fun e => (s.act bPCAM PCAM_IFCFG_USE_DVAL != 1 || bit e 24 == 1) && (s.act bPCAM PCAM_IFCFG_USE_FVAL != 1 || bit e 25 == 1)) = true)) &&
    ran (.pcamLineEnd τ idx ago edges) s (fun t => decide (
    (t.camP 8).lines = r ∧
        (t.camP 8).judged.map CamLine.status = (s.camP 8).judged.map CamLine.status ++ [{ l with first := true, pix := l.pix ++ ((edges.filter (fun e => (s.act bPCAM PCAM_IFCFG_USE_DVAL != 1 || bit e 24 == 1) && (s.act bPCAM PCAM_IFCFG_USE_FVAL != 1 || bit e 25 == 1))).flatMap
          (fun e => pcamSamples (s.act bPCAM PCAM_IFCFG_FORMAT_P) (bits e 0 24))) : CamLine }.judge (s.camWidth 8) (s.camChans 8)])))
    ({ st [(0, PWR_PD_STAT_PSTATE 48, 2), (0x1A, COM_STATE_FSM, 2)] with cam := [(8, { lines := [{}] })] }) 0 0 0 [5, 6] {} [] = true := by
  decide +kernel

theorem witness_ParallelPortAndSerialChannel_2 : (fun (s : State) (τ : Nat) (e : Nat) => decide (((s.camP 8).cc0 = some e) ∧ (e ≤ (s.at τ).now)) &&
    ranTo (.cc0PulseEnd τ) s ((s.at τ).setCam 8 { s.camP 8 with cc0 := none }))
    ({ st [(0, PWR_PD_STAT_PSTATE 48, 2)] with cam := [(8, { cc0 := some 0 })] }) 0 0 = true := by
  decide +kernel

theorem witness_ParallelPortAndSerialChannel_3 : (fun (s : State) (τ : Nat) (i v : Nat) => decide ((s.regAllowed i true bPCAM 0x124 = true) ∧ (s.domOn bPCAM = true) ∧ ((s.camP 8).tx.length < 16)) &&
    ran (.pcamSerdataWrite τ i v) s (fun t => decide (
    (t.camP 8).tx = (s.camP 8).tx ++ [v % 256] ∧ t.rd bPCAM PCAM_SERDATA_TX_FULL = (if (s.camP 8).tx.length = 15 then 1 else 0))))
    ({ st [(0, PWR_PD_STAT_PSTATE 48, 2)] with cam := [(8, { tx := [1] })] }) 0 1 0x155 = true := by
  decide +kernel

theorem witness_ParallelPortAndSerialChannel_4 : (fun (s : State) (τ : Nat) (i : Nat) => decide ((s.regAllowed i false bPCAM 0x124 = true) ∧ (s.domOn bPCAM = true)) &&
    ran (.pcamSerdataRead τ i) s (fun t => decide (
    (t.camP 8).rx = (s.camP 8).rx.tail ∧
        t.resp.data = [(if 16 ≤ (s.camP 8).tx.length then 512 else 0) + (if (s.camP 8).rx = [] then 0 else 256) + (s.camP 8).rx.headD 0])))
    ({ st [(0, PWR_PD_STAT_PSTATE 48, 2)] with cam := [(8, { rx := [7, 8] })] }) 0 5 = true := by
  decide +kernel

theorem witness_ParallelPortAndSerialChannel_5 : (fun (s : State) (τ : Nat) (x : Nat) => decide ((s.domOn bPCAM = true) ∧ ((s.camP 8).rx.length < 16)) &&
    ran (.serialByteReceived τ x) s (fun t => decide (
    (t.camP 8).rx = (s.camP 8).rx ++ [x % 256] ∧ t.rd bPCAM PCAM_SERDATA_RX_VALID = 1)))
    ({ st [(0, PWR_PD_STAT_PSTATE 48, 2)] with cam := [(8, { rx := [7, 8] })] }) 0 5 = true := by
  decide +kernel

theorem witness_ParallelPortAndSerialChannel_6 : (fun (s : State) (τ : Nat) (x : Nat) (r : List Nat) => decide (((s.camP 8).tx = x :: r)) &&
    ran (.serialByteSent τ) s (fun t => decide (
    (t.camP 8).tx = r ∧ t.out = .serial x :: s.out)))
    ({ st [(0, PWR_PD_STAT_PSTATE 48, 2)] with cam := [(8, { tx := [7, 8] })] }) 0 7 [8] = true := by
  decide +kernel

theorem witness_ColourimetryJudgesAndLoads_1 : (fun (s : State) (τ : Nat) (p part k : Nat) (x : Patch) (q : TanPart) => decide (((s.patchesOf p part).find? (fun e => e.1 == k) = some (k, x)) ∧ (s.tanPart x.cam part = some q) ∧ (s.isOn bCLM = true) ∧ (s.runs bTAN = true) ∧ (q.stp = p) ∧ (q.skip = false) ∧ (x.y0 + x.h ≤ q.rows.length) ∧ (s.patchDone p part k = false)) &&
    ran (.patchJudged τ p part k) s (fun t => decide (
    t.clm.results.length = 1 ∧ t.patchDone 0 5 0 = true)))
    ({ st [(0x19, COM_STATE_FSM, 2), (0x18, COM_STATE_FSM, 2)] with job := { patches := [{}] }, tan := { ports := [(0, { parts := [{ part := 5 }] })] } }) 0 0 5 0 {} { part := 5 } = true := by
  decide +kernel

theorem witness_ColourimetryJudgesAndLoads_2 : (fun (s : State) (τ : Nat) (p part k : Nat) => decide ((s.patchDone p part k = true)) &&
    ranTo (.patchJudged τ p part k) s (s.at τ))
    ({ clm := { results := [[0, 5, 0]] } }) 0 0 5 0 = true := by
  decide +kernel

theorem witness_ColourimetryJudgesAndLoads_3 : (fun (s : State) (τ : Nat) (i v : Nat) => decide ((s.regAllowed i true bCLM 0x508 = true) ∧ (s.domOn bCLM = true) ∧ (s.runs bCLM = true) ∧ (bit v 0 = 1) ∧ (s.rd bCLM CLM_TLOAD_BUSY = 0) ∧ (bits v 4 4 ≤ 8) ∧ (s.rd64 bCLM CLM_TLOAD_LO CLM_TLOAD_HI % 64 = 0)) &&
    ran (.clmTload τ i v) s (fun t => decide (
    t.rd bCLM CLM_TLOAD_BUSY = 1 ∧ t.rd bCLM CLM_TLOAD_SET = bits v 4 4 ∧ t.clm.load = some (s.rd64 bCLM CLM_TLOAD_LO CLM_TLOAD_HI, bits v 4 4))))
    (st [(0x19, COM_STATE_FSM, 2), (0, PWR_PD_STAT_PSTATE 48, 2), (0x19, CLM_TLOAD_LO, 0x1000)]) 0 1 0x31 = true := by
  decide +kernel

theorem witness_ColourimetryJudgesAndLoads_4 : (fun (s : State) (τ : Nat) (i v : Nat) => decide ((s.regAllowed i true bCLM 0x508 = true) ∧ (s.domOn bCLM = true) ∧ (s.runs bCLM = true) ∧ (bit v 0 = 1) ∧ (s.rd bCLM CLM_TLOAD_BUSY = 0) ∧ ((8 < bits v 4 4 ∨ s.rd64 bCLM CLM_TLOAD_LO CLM_TLOAD_HI % 64 ≠ 0))) &&
    ran (.clmTload τ i v) s (fun t => decide (
    t.rd bCLM CLM_TLOAD_LOAD_STATUS = 0x0808 ∧ t.rd bCLM CLM_TLOAD_BUSY = 0 ∧ t.clm = s.clm)))
    (st [(0x19, COM_STATE_FSM, 2), (0, PWR_PD_STAT_PSTATE 48, 2), (0x19, CLM_TLOAD_LO, 0x1000)]) 0 1 0x91 = true := by
  decide +kernel

theorem witness_ColourimetryJudgesAndLoads_5 : (fun (s : State) (τ : Nat) (a set : Nat) => decide ((s.clm.load = some (a, set))) &&
    ran (.clmTloadDone τ) s (fun t => decide (
    t.rd bCLM CLM_TLOAD_BUSY = 0 ∧ t.clm.load = none ∧ t.rd bCLM CLM_TLOAD_LOAD_STATUS = ((s.at τ).hwRead iTAN a (8 * tabEntries)).2.1)))
    ({ clm := { load := some (0xF00000000, 3) } }) 0 0xF00000000 3 = true := by
  decide +kernel

theorem witness_TanneryTakesLinesAndCommitsGroups_1 : (fun (s : State) (τ : Nat) (p : Nat) (l : CamLine) (r : List CamLine) => decide ((p < 9) ∧ (s.takesData p = true) ∧ ((s.camP p).lines = l :: r)) &&
    ran (.intakeFirstPixel τ p) s (fun t => decide (
    (t.camP p).lines.map CamLine.first = [true] ∧ (t.camP p).lines.map CamLine.full = [true])))
    ({ st [(0x22, COM_STATE_FSM, 2)] with cam := [(2, { lines := [{}], judged := List.replicate 8 { first := true } })] }) 0 2 {} [] = true := by
  decide +kernel

theorem witness_TanneryTakesLinesAndCommitsGroups_2 : (fun (s : State) (τ : Nat) (p corr unc retry fail : Nat) (l : CamLine) (r : List CamLine) => decide (((s.camP p).judged = l :: r) ∧ (s.runs bTAN = true)) &&
    ran (.lineVerdict τ p corr unc retry fail) s (fun t => decide (
    (t.camP p).judged = r ∧ (t.tanP p).count = (if l.fresh then 0 else (s.tanP p).count) + 1)))
    ({ st [(0x18, COM_STATE_FSM, 2)] with cam := [(2, { judged := [{ fresh := true, pix := [5] }] })] }) 0 2 1 0 1 0 { fresh := true, pix := [5] } [] = true := by
  decide +kernel

theorem witness_TanneryTakesLinesAndCommitsGroups_3 : (fun (s : State) (τ : Nat) (p part ri corr retry : Nat) (unc fail bad : List Nat) (q : TanPart) (b : List Nat) => decide ((s.tanPart p part = some q) ∧ ((q.cfg.regionsOf p).find? (fun e => e.1 == ri) = some (ri, b)) ∧ (s.runs bTAN = true) ∧ (q.skip = false) ∧ (q.off = false) ∧ (Store.get 0 q.done ri < groupEnd b (Store.get 0 q.done ri)) ∧ (groupEnd b (Store.get 0 q.done ri) ≤ q.avail b) ∧ (s.ringFree ≠ 0) ∧ (((s.arenaPlace ((List.range (groupEnd b (Store.get 0 q.done ri) - Store.get 0 q.done ri)).flatMap (fun k => (q.hideRows (s.act (bCAM p) CAM_DMG_PAD_VALUE) (unc ++ fail)).outRow b (Store.get 0 q.done ri + k))).length).isSome = true))) &&
    ran (.groupCommit τ p part ri corr unc retry fail bad) s (fun t => decide (
    t.rd bTAN TAN_RING_WR_WR = (s.rd bTAN TAN_RING_WR_WR + 1) % 2 ^ TAN_RING_WR_WR.w ∧ t.tan.entries.length = s.tan.entries.length + 1)))
    ({ st [(0x18, COM_STATE_FSM, 2), (0x18, TAN_ARENA_SIZE, 1), (0x18, TAN_RING_CFG_SIZE_LOG2, 4)] with tan := { ports := [(2, { parts := [{ part := 5, rows := [{ pix := [9] }], cfg := { regions := [[0, 0, 0, 0, 2, 0, 1, 1, 0, 0, 0, 0, 1, 0, 1, 0, 1, 0, 1, 0, 1] ++ List.replicate 107 0] } }] })] } }) 0 2 5 0 1 0 [0] [] [0] { part := 5, rows := [{ pix := [9] }], cfg := { regions := [[0, 0, 0, 0, 2, 0, 1, 1, 0, 0, 0, 0, 1, 0, 1, 0, 1, 0, 1, 0, 1] ++ List.replicate 107 0] } } ([0, 0, 0, 0, 2, 0, 1, 1, 0, 0, 0, 0, 1, 0, 1, 0, 1, 0, 1, 0, 1] ++ List.replicate 107 0) = true := by
  decide +kernel

theorem witness_TanneryTakesLinesAndCommitsGroups_4 : (fun (s : State) (τ : Nat) (p part ri corr retry : Nat) (unc fail bad : List Nat) (q : TanPart) (b : List Nat) => decide ((s.tanPart p part = some q) ∧ ((q.cfg.regionsOf p).find? (fun e => e.1 == ri) = some (ri, b)) ∧ (s.runs bTAN = true) ∧ (q.skip = false) ∧ (q.off = false) ∧ (Store.get 0 q.done ri < groupEnd b (Store.get 0 q.done ri)) ∧ (groupEnd b (Store.get 0 q.done ri) ≤ q.avail b) ∧ (s.ringFree = 0)) &&
    ran (.groupCommit τ p part ri corr unc retry fail bad) s (fun t => decide (
    t.rd bTAN TAN_RING_WR_WR = s.rd bTAN TAN_RING_WR_WR ∧ t.cnt bTAN TAN_CNT_RINGFULL = satInc (s.cnt bTAN TAN_CNT_RINGFULL) 1)))
    ({ st [(0x18, COM_STATE_FSM, 2), (0x18, TAN_ARENA_SIZE, 1), (0x18, TAN_RING_CFG_SIZE_LOG2, 0)] with tan := { entries := [{ idx := 7 }], ports := [(2, { parts := [{ part := 5, rows := [{ pix := [9] }], cfg := { regions := [[0, 0, 0, 0, 2, 0, 1, 1, 0, 0, 0, 0, 1, 0, 1, 0, 1, 0, 1, 0, 1] ++ List.replicate 107 0] } }] })] } }) 0 2 5 0 1 0 [0] [] [0] { part := 5, rows := [{ pix := [9] }], cfg := { regions := [[0, 0, 0, 0, 2, 0, 1, 1, 0, 0, 0, 0, 1, 0, 1, 0, 1, 0, 1, 0, 1] ++ List.replicate 107 0] } } ([0, 0, 0, 0, 2, 0, 1, 1, 0, 0, 0, 0, 1, 0, 1, 0, 1, 0, 1, 0, 1] ++ List.replicate 107 0) = true := by
  decide +kernel

theorem witness_TanneryTakesLinesAndCommitsGroups_5 : (fun (s : State) (τ : Nat) (i v : Nat) => decide ((s.regAllowed i true bTAN 0x314 = true) ∧ (s.domOn bTAN = true)) &&
    ran (.tanRingRel τ i v) s (fun t => decide (
    t.tan.entries = dropReleased (s.tan.entries.map (fun e => if e.idx == v % 65536 then { e with rel := true } else e)))))
    ({ st [(0, PWR_PD_STAT_PSTATE 48, 2)] with tan := { entries := [{ idx := 7 }, { idx := 8, rel := true }, { idx := 9 }] } }) 0 1 7 = true := by
  decide +kernel

theorem witness_ArtworkDictionariesAndText_1 : (fun (s : State) (τ : Nat) (i v : Nat) => decide ((s.regAllowed i true bTAN 0x404 = true) ∧ (s.domOn bTAN = true) ∧ (s.tan.art.length < 4)) &&
    ran (.tanArtDb τ i v) s (fun t => decide (
    t.tan.art = s.tan.art ++ [v % 4294967296 + 4294967296 * s.rd bTAN TAN_ART_DB_HI] ∧ t.rd bTAN TAN_ART_STAT_QUEUED = s.tan.art.length + 1)))
    ({ st [(0, PWR_PD_STAT_PSTATE 48, 2), (0x18, TAN_ART_DB_HI, 2)] with tan := { art := [64] } }) 0 1 128 = true := by
  decide +kernel

theorem witness_ArtworkDictionariesAndText_2 : (fun (s : State) (τ : Nat) (i v : Nat) => decide ((s.regAllowed i true bTAN 0x404 = true) ∧ (s.domOn bTAN = true) ∧ (4 ≤ s.tan.art.length)) &&
    ranTo (.tanArtDb τ i v) s ((s.at τ).wr bTAN TAN_ART_STAT_DB_LOST 1))
    ({ st [(0, PWR_PD_STAT_PSTATE 48, 2)] with tan := { art := [64, 1, 2, 3] } }) 0 1 128 = true := by
  decide +kernel

theorem witness_ArtworkDictionariesAndText_3 : (fun (s : State) (τ : Nat) (a : Nat) (r : List Nat) => decide ((s.tan.art = a :: r) ∧ (s.runs bTAN = true) ∧ (r.length < 8)) &&
    ran (.decodeDone τ) s (fun t => decide (
    t.tan.art = r ∧ t.rd bTAN TAN_ART_STAT_QUEUED = r.length)))
    ({ st [(0x18, COM_STATE_FSM, 2), (0x18, TAN_ART_STAT_QUEUED, 2)] with tan := { art := [64, 1] } }) 0 64 [1] = true := by
  decide +kernel

theorem witness_ArtworkDictionariesAndText_4 : (fun (s : State) (τ : Nat) (i v : Nat) => decide ((s.regAllowed i true bTAN 0x580 = true) ∧ (s.domOn bTAN = true) ∧ (s.rd bTAN TAN_DICT_LOAD_BUSY ≠ 1) ∧ (bit v 4 = 1) ∧ (s.runs bTAN = true)) &&
    ran (.tanDictLoad τ i v) s (fun t => decide (
    t.rd bTAN TAN_DICT_LOAD_BUSY = 1 ∧ t.rd bTAN TAN_DICT_LOAD_SLOT = bits v 0 4 ∧
        t.tan.loading = some (s.rd64 bTAN (TAN_DICT_ADDR_LO (bits v 0 4)) (TAN_DICT_ADDR_HI (bits v 0 4)), bits v 0 4))))
    (st [(0x18, COM_STATE_FSM, 2), (0, PWR_PD_STAT_PSTATE 48, 2), (0x18, TAN_DICT_ADDR_LO 3, 640)]) 0 1 0x13 = true := by
  decide +kernel

theorem witness_ArtworkDictionariesAndText_5 : (fun (s : State) (τ : Nat) (a k : Nat) => decide ((s.tan.loading = some (a, k))) &&
    ran (.dictLoadDone τ) s (fun t => decide (
    t.rd bTAN TAN_DICT_LOAD_BUSY = 0 ∧ t.tan.loading = none)))
    ({ tan := { loading := some (128, 3) } }) 0 128 3 = true := by
  decide +kernel

theorem witness_ArtworkDictionariesAndText_6 : (fun (s : State) (τ : Nat) (i v : Nat) => decide ((s.regAllowed i true bTAN 0x60C = true) ∧ (s.domOn bTAN = true)) &&
    ranTo (.tanTxtqWr τ i v) s ((s.at τ).wr bTAN TAN_TXTQ_WR v))
    (st [(0, PWR_PD_STAT_PSTATE 48, 2)]) 0 1 64 = true := by
  decide +kernel

theorem witness_ArtworkDictionariesAndText_7 : (fun (s : State) (τ : Nat) => decide ((s.runs bTAN = true) ∧ (s.rd bTAN TAN_TXTQ_RD + 16 ≤ s.txtSize) ∧ (s.rd bTAN TAN_TXTQ_RD ≠ s.rd bTAN TAN_TXTQ_WR) ∧ ((s.hwRead iTAN (s.rd64 bTAN TAN_TXTQ_BASE_LO TAN_TXTQ_BASE_HI + s.rd bTAN TAN_TXTQ_RD) 16).2.1 = 0) ∧ (s.pwr.entry = none) ∧ ((s.hwRead iTAN (s.rd64 bTAN TAN_TXTQ_BASE_LO TAN_TXTQ_BASE_HI + s.rd bTAN TAN_TXTQ_RD) 16).1.mem = s.mem) ∧ (s.readLE (s.rd64 bTAN TAN_TXTQ_BASE_LO TAN_TXTQ_BASE_HI + s.rd bTAN TAN_TXTQ_RD + 10) 2 ≠ 0xFFFF)) &&
    ran (.textRecord τ) s (fun t => decide (
    t.rd bTAN TAN_TXTQ_RD =
          ((s.rd bTAN TAN_TXTQ_RD + 16 + (s.readLE (s.rd64 bTAN TAN_TXTQ_BASE_LO TAN_TXTQ_BASE_HI + s.rd bTAN TAN_TXTQ_RD + 10) 2 + 7) / 8 * 8) % s.txtSize) % 2 ^ TAN_TXTQ_RD.w)))
    ({ st [(0x18, COM_STATE_FSM, 2), (0x18, TAN_TXTQ_SIZE, 4), (0x18, TAN_TXTQ_WR, 64), (0x18, TAN_TXTQ_BASE_LO, 0x1000)] with mem := [(0x100A, 3#8)], hlt := { rules := [(0, dramRule)] } }) 0  = true := by
  decide +kernel

theorem witness_DramReadsAndWrites_1 : (fun (s : State) (τ : Nat) (i a : Nat) (data : List Nat) (poisoned : Bool) => decide ((1 ≤ data.length) ∧ (data.length ≤ 64) ∧ (inDram a data.length = true) ∧ (s.memAllowed i true a data.length = true)) &&
    ran (.dramWrite τ i a data poisoned) s (fun t => decide (
    t.resp.status = 0 ∧ t.bytes a data.length = data.map (· % 256))))
    ({ hlt := { rules := [(0, dramRule)] } }) 0 0x40 0x30 [1, 0, 300] false = true := by
  decide +kernel

theorem witness_DramReadsAndWrites_2 : (fun (s : State) (τ : Nat) (i a : Nat) (data : List Nat) (poisoned : Bool) => decide ((1 ≤ data.length) ∧ (data.length ≤ 64) ∧ (inDram a data.length = true) ∧ (s.memAllowed i true a data.length = true) ∧ (∀ u ∈ partUnits a data.length, Store.get 0 s.errs u = 0 ∧ Store.get false s.poison u = false) ∧ (s.pwr.entry = none) ∧ (s.memu.word = []) ∧ (s.memu.found = [])) &&
    ran (.dramWrite τ i a data poisoned) s (fun t => decide (
    t.mem = memPuts s.mem a (data.map (· % 256)))))
    ({ mem := [(0x31, 9#8)], hlt := { rules := [(0, dramRule)] } }) 0 0x40 0x30 [1, 0, 300] false = true := by
  decide +kernel

theorem witness_DramReadsAndWrites_3 : (fun (s : State) (τ : Nat) (i a : Nat) (data : List Nat) => decide ((1 ≤ data.length) ∧ (data.length ≤ 64) ∧ (inDram a data.length = true) ∧ (s.memAllowed i true a data.length = true)) &&
    ran (.dramWrite τ i a data true) s (fun t => decide (
    ∀ u ∈ unitsOf a data.length, Store.get false t.poison u = true)))
    ({ hlt := { rules := [(0, dramRule)] } }) 0 0x40 0x3F [1, 0, 300] = true := by
  decide +kernel

theorem witness_DramReadsAndWrites_4 : (fun (s : State) (τ : Nat) (i a n kind : Nat) => decide ((1 ≤ n) ∧ (n ≤ 64) ∧ (inDram a n = true) ∧ (s.memAllowed i false a n = true) ∧ (kind ≠ 1) ∧ (∀ u ∈ unitsOf a n, Store.get 0 s.errs u = 0 ∧ Store.get false s.poison u = false) ∧ (s.pwr.entry = none) ∧ (s.memu.word = []) ∧ (s.memu.found = [])) &&
    ran (.dramRead τ i a n kind 0) s (fun t => decide (
    t.resp = { status := 0, data := s.bytes a n, poisoned := false } ∧ t.mem = s.mem)))
    ({ mem := [(0x31, 9#8)], hlt := { rules := [(0, dramRule)] } }) 0 0x40 0x30 4 3 = true := by
  decide +kernel

theorem witness_DramReadsAndWrites_5 : (fun (s : State) (τ : Nat) (i a n : Nat) => decide ((1 ≤ n) ∧ (n ≤ 64) ∧ (inDram a n = true) ∧ (s.memAllowed i false a n = true) ∧ (∀ u ∈ unitsOf a n, Store.get 0 s.errs u = 0 ∧ Store.get false s.poison u = false) ∧ (s.pwr.entry = none) ∧ (s.memu.word = []) ∧ (s.memu.found = []) ∧ (s.rd bMEM4 MEM4_INJ_ARM = 0)) &&
    ran (.dramRead τ i a n 0 1) s (fun t => decide (
    t.resp.status = 0 ∧ t.cnt bMEM4 (MEM4_CNT_DRAM_CE (controllerOf (unitOf a))) = satInc (s.cnt bMEM4 (MEM4_CNT_DRAM_CE (controllerOf (unitOf a)))) 1)))
    ({ mem := [(0x31, 9#8)], hlt := { rules := [(0, dramRule)] } }) 0 0x40 0x30 4 = true := by
  decide +kernel

theorem witness_DramReadsAndWrites_6 : (fun (s : State) (τ : Nat) (i a n bad : Nat) => decide ((1 ≤ n) ∧ (n ≤ 64) ∧ (inDram a n = true) ∧ (s.memAllowed i false a n = true) ∧ (∀ u ∈ unitsOf a n, Store.get 0 s.errs u = 0 ∧ Store.get false s.poison u = false) ∧ (2 ≤ bad) ∧ (bad ≤ 3) ∧ (s.rd bMEM4 MEM4_INJ_ARM = 0)) &&
    ran (.dramRead τ i a n 0 bad) s (fun t => decide (
    t.resp.status = 0x0304 ∧ t.resp.poisoned = true ∧ t.poisoned a n = true)))
    ({ mem := [(0x31, 9#8)], hlt := { rules := [(0, dramRule)] } }) 0 0x40 0x30 4 2 = true := by
  decide +kernel

theorem witness_DramReadsAndWrites_7 : (fun (s : State) (τ : Nat) (i a n bad : Nat) => decide ((1 ≤ n) ∧ (n ≤ 64) ∧ (inDram a n = true) ∧ (s.memAllowed i false a n = true)) &&
    ran (.dramRead τ i a n 1 bad) s (fun t => decide (
    t.resp.status = 0x0304 ∧ t.resp.poisoned = true ∧ t.cnt bMEM4 (MEM4_CNT_DRAM_UE (controllerOf a)) = satInc (s.cnt bMEM4 (MEM4_CNT_DRAM_UE (controllerOf a))) 1)))
    ({ mem := [(0x31, 9#8)], hlt := { rules := [(0, dramRule)] } }) 0 0x40 0x30 4 2 = true := by
  decide +kernel

theorem witness_SlicesScrubLogAndInjection_1 : (fun (s : State) (τ : Nat) (bad : Nat) => decide ((s.rd bMEM4 MEM4_SCRUB_SCRUB_EN = 1) ∧ (s.isOn bMEM4 = true) ∧ (s.rd bPWR PWR_STAT_STATE < 2) ∧ (s.memu.scrubDue ≤ (s.at τ).now * dramLines)) &&
    ran (.scrubRead τ bad) s (fun t => decide (
    t.memu.scrubLine = (if dramLines ≤ s.memu.scrubLine + 1 then 0 else s.memu.scrubLine + 1) ∧
        t.memu.scrubDue = max (s.memu.scrubDue + s.rd bMEM4 MEM4_SCRUB_PERIOD_H * 3600000000000) ((s.at τ).now * dramLines) ∧
        t.cnt bMEM4 MEM4_CNT_SCRUB_PASSES = (if dramLines ≤ s.memu.scrubLine + 1 then satInc (s.cnt bMEM4 MEM4_CNT_SCRUB_PASSES) 1 else s.cnt bMEM4 MEM4_CNT_SCRUB_PASSES))))
    ({ st [(0xC, COM_STATE_FSM, 2), (0xC, MEM4_SCRUB_SCRUB_EN, 1)] with memu := { scrubLine := 939524095 } }) 0 0 = true := by
  decide +kernel

theorem witness_SlicesScrubLogAndInjection_2 : (fun (s : State) (τ : Nat) (i n v : Nat) => decide ((n < 4) ∧ (s.regAllowed i true (bMEM n) 4 = true) ∧ (v % 2 = 1) ∧ (s.sliceSt n = 0) ∧ (s.isOn (bMEM n) = true)) &&
    ran (.drain τ i n v) s (fun t => decide (
    t.sliceSt n = 1 ∧ t.rd (bMEM n) MEM_CTRL_DRAIN = 1 ∧
        ((List.range 4).any (fun k => k != n && s.sliceSt k == 0 && s.isOn (bMEM k)) = true → ∀ k ∈ List.range 256, t.sliceOf k ≠ n))))
    (st [(0, PWR_PD_STAT_PSTATE 37, 2), (9, COM_STATE_FSM, 2), (8, COM_STATE_FSM, 2)]) 0 1 1 3 = true := by
  decide +kernel

theorem witness_SlicesScrubLogAndInjection_3 : (fun (s : State) (τ : Nat) (n : Nat) => decide ((n < 4) ∧ (s.sliceSt n = 1)) &&
    ran (.drainDone τ n) s (fun t => decide (
    t.sliceSt n = 3 ∧ t.rd (bMEM n) MEM_CTRL_DRAINED = 1 ∧ ∀ e ∈ t.memu.lines, e.2.slice ≠ n)))
    ({ memu := { drain := [(2, 1)], lines := [(64, { slice := 2, way := 0, dirty := true }), (128, { slice := 0, way := 1, dirty := false })] } }) 0 2 = true := by
  decide +kernel

theorem witness_SlicesScrubLogAndInjection_4 : (fun (s : State) (τ : Nat) (i v d : Nat) => decide ((s.regAllowed i true bMEM4 0x300 = true) ∧ (v % 256 = (s.memu.logIdx + d) % 256) ∧ (d < s.memu.log.length) ∧ (d < 256)) &&
    ranTo (.mem4LogRd τ i v) s ((s.at τ).setMem { s.memu with log := s.memu.log.drop (d + 1), logIdx := (s.memu.logIdx + d + 1) % 256 }))
    ({ memu := { log := [{}, {}, {}], logIdx := 255 } }) 0 1 0 1 = true := by
  decide +kernel

theorem witness_SlicesScrubLogAndInjection_5 : (fun (s : State) (τ : Nat) (i v : Nat) => decide ((s.mgmtOrHost i = true) ∧ (s.jobRun = false) ∧ (bit v 0 = 1) ∧ (injListed (bits v 20 4) (bits v 24 8) = true)) &&
    ran (.arm τ i v) s (fun t => decide (
    t.rd bMEM4 MEM4_INJ_ARM = 1 ∧ t.rd bMEM4 MEM4_INJ_TARGET = bits v 20 4 ∧ t.rd bMEM4 MEM4_INJ_UNIT = bits v 24 8)))
    ({}) 0 1 0x07100001 = true := by
  decide +kernel

theorem witness_TilesStartAndEnd_1 : (fun (s : State) (τ : Nat) (c n : Nat) (ups : List (Nat × Nat × Nat)) (ecc : List Nat) (x : Cmd) => decide ((((s.at τ).icSpoil c ecc).takesTiles c = true) ∧ (s.sch.forced.find? (fun f => f.cl == c) = none) ∧ (((s.at τ).icSpoil c ecc).nextCmd c = some x) ∧ (s.cmd? x.ptr = some x) ∧ (x.kind = 0) ∧ (x.begun = true) ∧ (((s.at τ).icSpoil c ecc).tileFor c x = some n) ∧ ((((s.at τ).icSpoil c ecc).startClock c).2 = true) ∧ (listedWord (((s.at τ).icSpoil c ecc).codeWord c { code := x.code, pc := x.entry }) = true) ∧ (n < 2 ^ 64) ∧ (x.tiles < 2 ^ 64)) &&
    ran (.tileDispatch τ c ups ecc) s (fun t => decide (
    (t.tileOf 0).map (fun T => (T.q, T.tile, T.pc, T.sreg 3)) = some (0, 0, 0, 2))))
    ({ st [(0x40, COM_STATE_FSM, 2), (0x40, CLU_CTRL_ROLE, 0), (0x10, COM_STATE_FSM, 2)] with mem := [(0x1006, 1#8)], sch := { cmds := [{ begun := true, ready := true, code := 0x1000, len := 1, tiles := 2, todo := [(0, 2)] }] } }) 0 0 0 [(3, 0, 1)] [0x1000] { begun := true, ready := true, code := 0x1000, len := 1, tiles := 2, todo := [(0, 2)] } = true := by
  decide +kernel

theorem witness_TilesStartAndEnd_2 : (fun (s : State) (τ : Nat) (c : Nat) (T : Tile) => decide ((s.tileOf c = some T) ∧ (T.ended = true) ∧ (T.mism = false)) &&
    ran (.tileEnd τ c) s (fun t => decide (
    t.tileOf c = none ∧ t.cnt (bCLU c) CLU_CNT_TILES = satInc (s.cnt (bCLU c) CLU_CNT_TILES) 1)))
    ({ clu := [(3, { tile := some { q := 4, tile := 2, ended := true } })] }) 0 3 { q := 4, tile := 2, ended := true } = true := by
  decide +kernel

theorem witness_TilesStartAndEnd_3 : (fun (s : State) (τ : Nat) (c : Nat) (T : Tile) (x : Cmd) => decide ((s.tileOf c = some T) ∧ (T.ended = true) ∧ (T.mism = true) ∧ (T.stage = 0) ∧ (s.cmd? T.q = some x) ∧ (x.stopped = false)) &&
    ran (.tileEnd τ c) s (fun t => decide (
    t.tileOf c = none ∧ t.sch.forced.map (fun f => (f.cl, f.stage)) = [(3, 1)])))
    ({ clu := [(3, { tile := some { ended := true, mism := true } })], sch := { cmds := [{}] } }) 0 3 { ended := true, mism := true } {} = true := by
  decide +kernel

theorem witness_TilesStartAndEnd_4 : (fun (s : State) (τ : Nat) (c : Nat) (T : Tile) (x : Cmd) => decide ((s.tileOf c = some T) ∧ (T.since + 64000 ≤ (s.at τ).now) ∧ (T.stage = 0) ∧ (s.cmd? T.q = some x) ∧ (x.stopped = false)) &&
    ran (.tileHung τ c) s (fun t => decide (
    t.tileOf c = none ∧ t.sch.forced.map (fun f => (f.cl, f.stage, f.hung)) = [(3, 1, true)])))
    ({ now := 64000, clu := [(3, { tile := some {} })], sch := { cmds := [{}] } }) 0 3 {} {} = true := by
  decide +kernel

theorem witness_ScalarRegisterOperations_1 : (scalarRows.all (fun e => rowRuns e.1 0 e.2.1 1 (fR 5 6 7) tk0 (fun x =>
    x.setS 5 (e.2.2 (tk0.x 6) (tk0.x 7)).toNat))) = true := by
  decide +kernel

theorem witness_ScalarRegisterOperations_2 : (scalarRows1.all (fun e => rowRuns e.1 0 e.2.1 1 (fR 5 6 0) tk0 (fun x =>
    x.setS 5 (e.2.2 (tk0.x 6)).toNat))) = true := by
  decide +kernel

theorem witness_ScalarRegisterOperations_3 : rowRuns .sel 0 0x14 1 (fR 5 6 7 + 7 * 2 ^ 28) tk0 (fun x => x.setS 5 (tk0.sreg 6)) = true := by
  decide +kernel

theorem witness_DivisionNeverTraps_1 : rowRuns .div 0 6 1 (fR 5 6 0) tk0 (fun x => x.setS 5 0xFFFFFFFFFFFFFFFF) = true ∧
    rowRuns .divu 0 7 1 (fR 5 6 0) tk0 (fun x => x.setS 5 0xFFFFFFFFFFFFFFFF) = true ∧
    rowRuns .rem 0 8 1 (fR 5 6 0) tk0 (fun x => x.setS 5 (tk0.sreg 6)) = true ∧
    rowRuns .remu 0 9 1 (fR 5 6 0) tk0 (fun x => x.setS 5 (tk0.sreg 6)) = true := by
  decide +kernel

theorem witness_DivisionNeverTraps_2 : rowRuns .div 0 6 1 (fR 5 6 7) tk1 (fun x => x.setS 5 0x8000000000000000) = true ∧
    rowRuns .rem 0 8 1 (fR 5 6 7) tk1 (fun x => x.setS 5 0) = true := by
  decide +kernel

theorem witness_ScalarImmediateOperations_1 : (immRows.all (fun e => rowRuns e.1 1 e.2.1 1 (fR 5 6 0 + 0x80000001) tk0 (fun x =>
    x.setS 5 (e.2.2 (tk0.x 6) (immX (BitVec.ofNat 48 (fR 5 6 0 + 0x80000001)))).toNat))) = true := by
  decide +kernel

theorem witness_ScalarImmediateOperations_2 : (shiftRows.all (fun e => rowRuns e.1 1 e.2.1 1 (fR 5 6 0 + 63) tk0 (fun x =>
    x.setS 5 (e.2.2 (tk0.x 6) 63).toNat))) = true := by
  decide +kernel

theorem witness_ScalarImmediateOperations_3 : rowRuns .li 1 0x20 1 (fR 5 0 0 + 0xFFFFFFFE) tk0 (fun x => x.setS 5 0xFFFFFFFFFFFFFFFE) = true ∧
    rowRuns .lih 1 0x21 1 (fR 6 0 0 + 0x12345678) tk0 (fun x => x.setS 6 0x1234567800000005) = true := by
  decide +kernel

theorem witness_PredicateOperations_1 : (cmpRows.all (fun e => rowRuns e.1 2 e.2.2.1 1 (fR 7 6 7) tk0 (fun x =>
    x.setP 7 (e.2.2.2 (tk0.x 6) (tk0.x 7))) && rowRuns e.2.1 2 (0x10 + e.2.2.1) 1 (fR 0 6 0 + 5) tk0 (fun x => x))) = true := by
  decide +kernel

theorem witness_PredicateOperations_2 : (predRows.all (fun e => rowRuns e.1 2 e.2.1 1 (fR 3 7 0) tk0 (fun x =>
    x.setP 3 (e.2.2 (tk0.preg 7) true)))) = true := by
  decide +kernel

theorem witness_AddressOperations_1 : rowRuns .amov 3 1 1 (fR 15 2 6) tk0 (fun x => x.setA 15 5) = true ∧
    rowRuns .aadd 3 2 1 (fR 15 2 6) tk0 (fun x => x.setA 15 (2 ^ 63 + 4)) = true ∧
    rowRuns .aaddi 3 3 1 (fR 15 2 0 + 0xFFFFFFFF) tk0 (fun x => x.setA 15 (2 ^ 64 - 2)) = true ∧
    rowRuns .alocal 3 5 1 (fR 15 0 0 + 0xFFFFFFFF) tk0 (fun x => x.setA 15 (2 ^ 63 + 0xFFFFFFFF)) = true ∧
    rowRuns .amovs 3 4 1 (fR 31 2 0) tk0 (fun x => x.setS 31 (2 ^ 64 - 1)) = true := by
  decide +kernel

theorem witness_ControlTransfers_1 : (let s := tkS (opWord 4 1 0 0xFFFFFFFF) tk2
    Issues s 0 tk2 4 1 1 0 0xFFFFFFFF && Lands (s.issued 0 tk2 1).1 0 { tk2 with loops := loopsAt tk2.loops 0 } 0 &&
    decide ((tk2.pc : Int) + (BitVec.ofNat 32 0xFFFFFFFF).toInt = 0) &&
    ranTo (.br 0 0 0xFFFFFFFF) s ((s.issued 0 tk2 1).1.placed 0 { (s.issued 0 tk2 1).2 with loops := [] } 0)) = true := by
  decide +kernel

theorem witness_ControlTransfers_2 : (let s := tkS (opWord 4 3 0 1) tk2
    Issues s 0 tk2 4 3 1 0 1 && Lands (s.issued 0 tk2 1).1 0 { tk2 with loops := loopsAt tk2.loops 2 } 2 &&
    ranTo (.call 0 0 1) s ((s.issued 0 tk2 1).1.placed 0 { (s.issued 0 tk2 1).2 with loops := [(1, 2, 3)], rets := [2, 2] } 2)) = true := by
  decide +kernel

theorem witness_ControlTransfers_3 : (let s := tkS (opWord 4 2 0 (9 * 2 ^ 38)) tk2
    Issues s 0 tk2 4 2 1 0 (BitVec.ofNat 48 (9 * 2 ^ 38)) && Lands (s.issued 0 tk2 1).1 0 { tk2 with loops := loopsAt tk2.loops 2 } 2 &&
    ranTo (.jr 0 0 (BitVec.ofNat 48 (9 * 2 ^ 38))) s ((s.issued 0 tk2 1).1.placed 0 { (s.issued 0 tk2 1).2 with loops := [(1, 2, 3)] } 2)) = true := by
  decide +kernel

theorem witness_ControlTransfers_4 : (let s := tkS (opWord 4 4 0 0) tk2
    Issues s 0 tk2 4 4 1 0 0 && Lands (s.issued 0 tk2 1).1 0 { tk2 with loops := loopsAt tk2.loops 2 } 2 &&
    ranTo (.ret 0 0 0) s ((s.issued 0 tk2 1).1.placed 0 { (s.issued 0 tk2 1).2 with loops := [(1, 2, 3)], rets := [] } 2)) = true := by
  decide +kernel

theorem witness_ControlTransfers_5 : (let s := tkS (opWord 4 5 0 1) tk3
    Issues s 0 tk3 4 5 1 0 1 && Lands (s.issued 0 tk3 1).1 0 tk3 3 &&
    ranTo (.loop 0 0 1) s ((s.issued 0 tk3 1).1.placed 0 (s.issued 0 tk3 1).2 3)) = true := by
  decide +kernel

theorem witness_ControlTransfers_6 : (let s := tkS (opWord 4 5 0 (9 * 2 ^ 38 + 1)) tk3
    Issues s 0 tk3 4 5 1 0 (BitVec.ofNat 48 (9 * 2 ^ 38 + 1)) &&
    ranTo (.loop 0 0 (BitVec.ofNat 48 (9 * 2 ^ 38 + 1))) s
      ((s.issued 0 tk3 1).1.placed 0 { (s.issued 0 tk3 1).2 with loops := [(2, 2, 2)] } 2)) = true := by
  decide +kernel

theorem witness_SystemInstructions_1 : rowRuns .nop 7 0 1 0 tk0 (fun x => x) = true ∧ rowRuns .wait 7 3 1 0 tk0 (fun x => x) = true ∧
    rowRuns .xpf 7 4 1 (fR 0 6 0 + 15) tk0 (fun x => x) = true := by
  decide +kernel

theorem witness_SystemInstructions_2 : (let s := tkS (opWord 7 1 0 0) tk0
    Issues s 0 tk0 7 1 1 0 0 &&
    ranTo (.endTile 0 0 0) s ((s.issued 0 tk0 1).1.setTile 0 (some { (s.issued 0 tk0 1).2 with ended := true }))) = true := by
  decide +kernel

theorem witness_SystemInstructions_3 : (let s := tkS (opWord 7 2 0 0x1234) tk0
    Issues s 0 tk0 7 2 1 0 0x1234 && ran (.trap 0 0 0x1234) s (fun u => u.cnt (bCLU 0) CLU_EXC_STATUS_STATUS == 0x0806 &&
      u.cnt (bCLU 0) CLU_EXC_STATUS_CAUSE == 0x34 && u.cnt (bCLU 0) CLU_EXC_TILE_TRAPHI == 0x12 && (u.tileOf 0).isNone)) = true := by
  decide +kernel

theorem witness_LoadsAndStores_1 : (loadRows.all (fun e => (let b := fR 5 0 0 + 4 * 2 ^ 39 + 0x18
    let s := tkS (opWord 5 e.2.1 0 b) tk4
    let r := (s.issued 0 tk4 1).1.tileRead 0 (s.issued 0 tk4 1).2 (tk4.memAddr b) e.2.2.1
    Runs s 0 tk4 5 e.2.1 1 0 (BitVec.ofNat 48 b) && (accessTrap tk4 false (tk4.areg 4) (tk4.memAddr b) e.2.2.1).isNone && r.2.1 == 0 &&
    Lands r.1 0 tk4 1 && ranTo (e.1 0 0 (BitVec.ofNat 48 b)) s (r.1.placed 0 ((s.issued 0 tk4 1).2.setS 5 (leNat r.2.2)) 1)))) = true := by
  decide +kernel

theorem witness_LoadsAndStores_2 : (storeRows.all (fun e => (let b := fR 7 0 0 + 3 * 2 ^ 39 + 2 ^ 38 + 0xFFFFFFFF
    let s := tkS (opWord 5 e.2.1 0 b) tk4
    let w := (s.issued 0 tk4 1).1.tileWrite 0 (s.issued 0 tk4 1).2 (tk4.memAddr b) (List.replicate e.2.2 255)
    Runs s 0 tk4 5 e.2.1 1 0 (BitVec.ofNat 48 b) && (accessTrap tk4 true (tk4.areg 3) (tk4.memAddr b) e.2.2).isNone && w.2.2 == 0 &&
    Lands w.1 0 tk4 1 && ranTo (e.1 0 0 (BitVec.ofNat 48 b)) s (w.1.placed 0 (w.2.1.setA 3 0x800000000000003F) 1)))) = true := by
  decide +kernel

theorem witness_LoadsAndStores_3 : (let b := fR 5 0 0 + 3 * 2 ^ 39
    let s := tkS (opWord 5 0x10 0 b) tk4
    let r := (s.issued 0 tk4 1).1.spadRead 0 (s.issued 0 tk4 1).2 64 256
    Runs s 0 tk4 5 0x10 1 0 (BitVec.ofNat 48 b) && r.2.1 == 0 && Lands r.1 0 tk4 1 &&
    ranTo (.vld 0 0 (BitVec.ofNat 48 b)) s (r.1.placed 0 ((s.issued 0 tk4 1).2.setV 5 0) 1)) = true := by
  decide +kernel

theorem witness_LoadsAndStores_4 : (let b := fR 5 0 0 + 3 * 2 ^ 39
    let s := tkS (opWord 5 0x11 0 b) tk4
    let w := (s.issued 0 tk4 1).1.spadWrite 0 (s.issued 0 tk4 1).2 64 (leBytes 256 0x11)
    Runs s 0 tk4 5 0x11 1 0 (BitVec.ofNat 48 b) && Lands w.1 0 tk4 1 &&
    ranTo (.vst 0 0 (BitVec.ofNat 48 b)) s (w.1.placed 0 w.2 1)) = true := by
  decide +kernel

theorem witness_WhereStoresGo_1 : (let s := tkS 0 tk4
    inStore 0x2000 2 && s.spadOpen 0x2000 && s.memAllowed (iCLU 0) true 0x2000 2 &&
    decide (s.tileWrite 0 tk4 0x2000 [1, 2] = (s, { tk4 with buf := [(0x2000, [1, 2])] }, 0))) = true := by
  decide +kernel

theorem witness_WhereStoresGo_2 : (let s := { tkS 0 tk4 with mem := [(spadBase 0 + 5, 7#8), (spadBase 0 + 70, 7#8)] }
    let w := s.spadWrite 0 tk4 62 [1, 300, 3]
    (w.1.bytes (spadBase 0 + 62) 3 == [1, 44, 3]) && (w.1.byte (spadBase 0 + 5) == 0) && (w.1.byte (spadBase 0 + 70) == 0)) = true := by
  decide +kernel

theorem witness_WhereStoresGo_3 : (let t := { tk4 with ended := true, q := 4, buf := [(0x2000, [1, 300])] }
    let s := tkS 0 t
    ran (.tileEnd 0 0) s (fun u => u.bytes 0x1FFF 4 == [0, 1, 44, 0] && (s.cmd? 4).isNone)) = true := by
  decide +kernel

theorem witness_BulkTransfers_1 : (let b := 3 * 2 ^ 44 + 4 * 2 ^ 40 + 10 * 2 ^ 35
    let s := tkS (opWord 6 1 0 b) tk5
    let u := s.issued 0 tk5 2
    let e := (List.range 2).foldl (moveRow 0 b) (Eff.reg u.1 u.2)
    Issues s 0 tk5 6 1 2 0 (BitVec.ofNat 48 b) && (xferTrap tk5 b false true).isNone && e.trap.isNone && Lands e.s 0 tk5 1 &&
    ranTo (.xld 0 0 (BitVec.ofNat 48 b)) s (e.s.placed 0 e.t 1) && e.s.byte (spadBase 0 + 64 + 15) == 0x70) = true := by
  decide +kernel

theorem witness_BulkTransfers_2 : (let b := 5 * 2 ^ 44 + 3 * 2 ^ 40 + 10 * 2 ^ 35
    let s := tkS (opWord 6 2 0 b) tk5
    let u := s.issued 0 tk5 2
    let e := (List.range 2).foldl (moveRow 0 b) (Eff.reg u.1 u.2)
    Issues s 0 tk5 6 2 2 0 (BitVec.ofNat 48 b) && (xferTrap tk5 b true false).isNone && e.trap.isNone && Lands e.s 0 tk5 1 &&
    ranTo (.xst 0 0 (BitVec.ofNat 48 b)) s (e.s.placed 0 e.t 1)) = true := by
  decide +kernel

theorem witness_BulkTransfers_3 : (let b := 3 * 2 ^ 44 + 3 * 2 ^ 40 + 10 * 2 ^ 35
    let s := tkS (opWord 6 3 0 b) tk5
    let u := s.issued 0 tk5 2
    let r := readRows 0 b u.1 u.2
    let w := r.2.2.zipIdx.foldl (fun (p : State × Tile) e => p.1.spadWrite 0 p.2 (addrOf (tk5.dstRow b e.2)) e.1) (r.1, u.2)
    Issues s 0 tk5 6 3 2 0 (BitVec.ofNat 48 b) && (xferTrap tk5 b true true).isNone && r.2.1 == 0 && Lands w.1 0 tk5 1 &&
    ranTo (.xcp 0 0 (BitVec.ofNat 48 b)) s (w.1.placed 0 w.2 1)) = true := by
  decide +kernel

theorem witness_VectorLaneOperations_1 : (laneRows.all (fun e => (let b := fR 5 6 (if e.2.2.1.contains .vb then 7 else 0) + if e.2.2.1.contains .vc then 2 ^ 28 else 0
    vClean ([.vd, .va, .t] ++ e.2.2.1) (BitVec.ofNat 48 b) &&
    rowRuns e.1 8 e.2.1 1 b tv0 (fun x =>
      (x.setV 5 (mapLanes e.2.2.2.1 (tv0.vreg 6) (tv0.vreg (vVB b)) (tv0.vreg (vVC b))).1).flag
        (mapLanes e.2.2.2.1 (tv0.vreg 6) (tv0.vreg (vVB b)) (tv0.vreg (vVC b))).2)))) = true := by
  decide +kernel

theorem witness_VectorLaneOperations_2 : (laneRows.all (fun e => (let b := fR 5 6 (if e.2.2.1.contains .vb then 7 else 0) + (if e.2.2.1.contains .vc then 2 ^ 28 else 0) + 2 ^ 24
    vClean ([.vd, .va, .t] ++ e.2.2.1) (BitVec.ofNat 48 b) &&
    rowRuns e.1 8 e.2.1 1 b tv0 (fun x =>
      x.setV 5 (ofLanes (fun i => e.2.2.2.2 (tv0.laneBV 6 i) (tv0.laneBV (vVB b) i) (tv0.laneBV (vVC b) i))))))) = true := by
  decide +kernel

theorem witness_VectorLaneOperations_3 : (bitLaneRows.all (fun e => (let b := fR 5 6 7 + (if e.2.2.1.contains .vc then 2 ^ 28 else 0) + 2 ^ 24
    vClean ([.vd, .va, .t] ++ e.2.2.1) (BitVec.ofNat 48 b) &&
    rowRuns e.1 8 e.2.1 1 b tv0 (fun x =>
      x.setV 5 (ofLanes (fun i => e.2.2.2 (tv0.laneBV 6 i) (tv0.laneBV 7 i) (tv0.laneBV (vVC b) i))))))) = true := by
  decide +kernel

theorem witness_ConversionsAndMovement_1 : (let b := fR 5 6 0
    let s := tkS (opWord 9 1 0 b) tv1
    Runs s 0 tv1 9 1 1 0 (BitVec.ofNat 48 b) && ran (.vcvt 0 0 (BitVec.ofNat 48 b)) s (fun u => match u.tileOf 0 with
      | some x => x.laneBV 5 0 == 0x4AAFFE02#32
      | none => false)) = true ∧
    rowRuns .vcvt 9 1 1 (fR 5 6 0 + 2 ^ 24 + 2 ^ 19) tv0 (fun x =>
      (x.setV 5 (mapLanes (fun a _ _ => cvtToInt true a) (tv0.vreg 6) 0 0).1).flag (mapLanes (fun a _ _ => cvtToInt true a) (tv0.vreg 6) 0 0).2) = true := by
  decide +kernel

theorem witness_ConversionsAndMovement_2 : (let b := fR 5 6 0 + 2 ^ 24 + 3 * 2 ^ 21
    rowRuns .vwid 9 2 1 b tv0 (fun x => x.setV 5 (ofLanes (fun i => (BitVec.ofNat 8 (bits (tv0.vreg 6) (8 * (192 + i)) 8)).signExtend 32)))) = true := by
  decide +kernel

theorem witness_ConversionsAndMovement_3 : (let b := fR 6 7 0 + 5 * 2 ^ 24 + 2 ^ 21 + 2 ^ 20
    let s := tkS (opWord 9 3 0 b) tv0
    Runs s 0 tv0 9 3 1 0 (BitVec.ofNat 48 b) && vClean [.vd, .va, .t, .part, .sat] (BitVec.ofNat 48 b) &&
    ran (.vnar 0 0 (BitVec.ofNat 48 b)) s (fun u => match u.tileOf 0 with
      | some x => bits (x.vreg 6) 0 1024 == bits (tv0.vreg 6) 0 1024 && bits (x.vreg 6) 1024 16 == (narrow 5 true (bits (tv0.vreg 7) 0 32)).1
      | none => false)) = true := by
  decide +kernel

theorem witness_ConversionsAndMovement_4 : (let b := fR 5 6 0 + 7 * 2 ^ 28 + 7 * 2 ^ 24 + 3 * 2 ^ 21
    let q0 := quantize true ((lanes32 (tv0.vreg 6)).take 32)
    let q1 := quantize true ((lanes32 (tv0.vreg 6)).drop 32)
    rowRuns .vqsx 9 4 1 b tv0 (fun x => ((x.setV 5 (putBits 0 1536 512 (packLanes 8 (q0.2.1 ++ q1.2.1)))).setV 7
      (putBits (tv0.vreg 7) 48 16 (q0.1 + 256 * q1.1))).flag (q0.2.2.lor q1.2.2))) = true := by
  decide +kernel

theorem witness_ConversionsAndMovement_5 : rowRuns .vbcast 9 5 1 (fR 5 7 0) tv0 (fun x => x.setV 5 (ofLanes (fun _ => BitVec.ofNat 32 (tv0.sreg 7)))) = true ∧
    rowRuns .vbcast 9 5 1 (fR 5 7 0 + 2 ^ 24) tv0 (fun x => x.setV 5 (packLanes 8 (List.replicate 256 255))) = true := by
  decide +kernel

theorem witness_ConversionsAndMovement_6 : rowRuns .vmovi 9 6 1 (fR 5 0 0 + 0x8001) tv0 (fun x => x.setV 5 (ofLanes (fun _ => 0x80010000#32))) = true ∧
    rowRuns .vmovi 9 6 1 (fR 5 0 0 + 2 ^ 24 + 0x8001) tv0 (fun x => x.setV 5 (ofLanes (fun _ => 0xFFFF8001#32))) = true := by
  decide +kernel

theorem witness_ConversionsAndMovement_7 : rowRuns .vperm 9 7 2 (fR 5 6 7) tv0 (fun x =>
      x.setV 5 (ofLanes (fun i => tv0.laneBV 6 ((tv0.laneBV 7 i).toNat % 64)))) = true ∧
    rowRuns .vgetf 9 8 1 (fR 5 0 0) tv0 (fun x => x.setS 5 9) = true ∧ rowRuns .vclrf 9 9 1 0 tv0 (fun x => { x with flags := 0 }) = true := by
  decide +kernel

theorem witness_ReductionsAndFunctions_1 : rowRuns .vredsum 10 1 6 (fR 5 6 0) tv0 (fun x =>
      (x.setV 5 (treeOf (fpAdd fp32) 6 (lanes32 (tv0.vreg 6))).1).flag (treeOf (fpAdd fp32) 6 (lanes32 (tv0.vreg 6))).2) = true ∧
    rowRuns .vredsum 10 1 6 (fR 5 6 0 + 2 ^ 24) tv0 (fun x => x.setV 5 ((List.range 64).foldl (fun a i => a + tv0.laneBV 6 i) 0#32).toNat) = true := by
  decide +kernel

theorem witness_ReductionsAndFunctions_2 : rowRuns .vredmax 10 2 6 (fR 5 6 0 + 2 ^ 24) tv0 (fun x => x.setV 5 0x7F7F7F7F) = true ∧
    rowRuns .vredmin 10 3 6 (fR 5 6 0 + 2 ^ 24) tv0 (fun x => x.setV 5 0x80000001) = true ∧
    rowRuns .vredmin 10 3 6 (fR 5 6 0) tv0 (fun x => x.setV 5 (treeOf (fun a b => (fpMin a b, 0)) 6 (lanes32 (tv0.vreg 6))).1) = true := by
  decide +kernel

theorem witness_ReductionsAndFunctions_3 : rowRuns .vsqrt 10 0x14 8 (fR 5 6 0) tv0 (fun x =>
      (x.setV 5 (mapLanes (fun a _ _ => fpSqrt fp32 a) (tv0.vreg 6) 0 0).1).flag (mapLanes (fun a _ _ => fpSqrt fp32 a) (tv0.vreg 6) 0 0).2) = true ∧
    rowRuns .vdiv 10 0x15 8 (fR 5 6 7) tv0 (fun x =>
      (x.setV 5 (mapLanes (fun a d _ => fpDiv fp32 a d) (tv0.vreg 6) (tv0.vreg 7) 0).1).flag
        (mapLanes (fun a d _ => fpDiv fp32 a d) (tv0.vreg 6) (tv0.vreg 7) 0).2) = true := by
  decide +kernel

theorem witness_ReductionsAndFunctions_4 : (funRows.all (fun e => rowRuns e.1 10 e.2 4 (fR 5 8 0) tv0 (fun x => x.setV 5 (tv0.vreg 8)))) = true := by
  decide +kernel

theorem witness_GaloisFieldOperations_1 : (gfRows.all (fun e => (let b := fR 5 6 (if e.2.2.2.1.contains .vb then 7 else 0) +
      (if e.2.2.2.1.contains .poly then 2 ^ 18 else 0)
    vClean ([.vd, .va] ++ e.2.2.2.1) (BitVec.ofNat 48 b) &&
    rowRuns e.1 11 e.2.1 e.2.2.1 b tv1 (fun x => x.setV 5 (packLanes 8 ((List.range 256).map (fun i =>
      e.2.2.2.2 (vPOLY b) (bits (tv1.vreg 5) (8 * i) 8) (bits (tv1.vreg 6) (8 * i) 8) (bits (tv1.vreg (vVB b)) (8 * i) 8)))))))) = true := by
  decide +kernel

theorem witness_GaloisFieldOperations_2 : rowRuns .gfMulc 11 8 1 (fR 5 6 0 + 255) tv1 (fun x => x.setV 5 (packLanes 8 ((List.range 256).map (fun i =>
      gfMul 0 (bits (tv1.vreg 6) (8 * i) 8) 255)))) = true := by
  decide +kernel

theorem witness_MatrixOperations_1 : rowRuns .acczero 13 1 1 (7 * 2 ^ 45) ta0 (fun x => (List.range 64).foldl (fun y i => y.setAccRow 7 i 0) x) = true ∧
    rowRuns .acc2v 13 4 1 (7 * 2 ^ 45 + 5 * 2 ^ 35 + 6 * 2 ^ 30 + 63) ta0 (fun x => x.setV 5 3) = true ∧
    rowRuns .v2acc 13 5 1 (7 * 2 ^ 45 + 8 * 2 ^ 35) ta0 (fun x => x.setAccRow 7 0 9) = true := by
  decide +kernel

theorem witness_MatrixOperations_2 : (let b := 7 * 2 ^ 45 + 3 * 2 ^ 40
    let s := tkS (opWord 13 2 0 b) ta0
    let u := s.issued 0 ta0 64
    Runs s 0 ta0 13 2 64 0 (BitVec.ofNat 48 b) && (areaTrap (ta0.areg 3) 16384).isNone && Lands u.1 0 ta0 1) = true := by
  decide +kernel

theorem witness_MatrixOperations_3 : (let b := 7 * 2 ^ 45 + 3 * 2 ^ 40
    let s := tkS (opWord 13 3 0 b) ta0
    let u := s.issued 0 ta0 64
    let r := u.1.spadRead 0 u.2 64 16384
    Runs s 0 ta0 13 3 64 0 (BitVec.ofNat 48 b) && r.2.1 == 0 && Lands r.1 0 ta0 1) = true := by
  decide +kernel

theorem witness_MatrixOperations_4 : (let b := 7 * 2 ^ 45 + 3 * 2 ^ 40 + 3 * 2 ^ 36 + 0 * 2 ^ 32
    let s := tkS (opWord 12 1 0 b) ta0
    let u := s.issued 0 ta0 64
    let r := u.1.spadRead 0 u.2 64 4096
    Runs s 0 ta0 12 1 64 0 (BitVec.ofNat 48 b) && (areaTrap (ta0.areg 3) 4096).isNone && r.2.1 == 0 && Lands r.1 0 ta0 1 &&
    ran (.mma 0 0 (BitVec.ofNat 48 b)) s (fun w => (w.tileOf 0).isSome)) = true := by
  decide +kernel

theorem witness_FetchPredicateAndWorkLimit_1 : (({} : State).atWord 0 (opWord 0 1 0 0) = false) ∧ ((tkS 0 tk0).fetchWord 0 tk0).2.1 = 0 := by
  decide +kernel

theorem witness_FetchPredicateAndWorkLimit_r : (([(.vadd, 1), (.vand, 9), (.vor, 10), (.vxor, 11)] : List (TackCmd × Nat)).all (fun e =>
    (let t : Tile := { tv0 with ups := [(1, 0, 2 ^ 2047)] }
    let b := fR 5 6 7 + 2 ^ 24
    let s := tkS (opWord 8 e.2 0 b) t
    vClean [.vd, .va, .t, .vb] (BitVec.ofNat 48 b) && Runs s 0 t 8 e.2 1 0 (BitVec.ofNat 48 b) &&
    ran (e.1 0 0 (BitVec.ofNat 48 b)) s (fun u => match u.tileOf 0 with
      | some x => x.mism
      | none => false)))) = true := by
  decide +kernel

theorem witness_FetchPredicateAndWorkLimit_p_1 : (((tackRows.drop 0).take 40).all (fun e => (let t : Tile := { tk0 with p := [] }
    let s := tkS (opWord e.2.1 e.2.2 7 0xFFFFFFFFFFFF) t
    s.codeWord 0 t == opWord e.2.1 e.2.2 7 0xFFFFFFFFFFFF && (s.fetchWord 0 t).2.1 == 0 && !t.executes 7 && Lands (s.issued 0 t 1).1 0 t 1 &&
    ran (e.1 0 7 (BitVec.ofNat 48 0xFFFFFFFFFFFF)) s (fun u => match u.tileOf 0 with
      | some x => x.pc == 1 && x.work == 1
      | none => false)))) = true := by
  decide +kernel

theorem witness_FetchPredicateAndWorkLimit_p_2 : (((tackRows.drop 40).take 35).all (fun e => (let t : Tile := { tk0 with p := [] }
    let s := tkS (opWord e.2.1 e.2.2 7 0xFFFFFFFFFFFF) t
    s.codeWord 0 t == opWord e.2.1 e.2.2 7 0xFFFFFFFFFFFF && (s.fetchWord 0 t).2.1 == 0 && !t.executes 7 && Lands (s.issued 0 t 1).1 0 t 1 &&
    ran (e.1 0 7 (BitVec.ofNat 48 0xFFFFFFFFFFFF)) s (fun u => match u.tileOf 0 with
      | some x => x.pc == 1 && x.work == 1
      | none => false)))) = true := by
  decide +kernel

theorem witness_FetchPredicateAndWorkLimit_p_3 : (((tackRows.drop 75).take 35).all (fun e => (let t : Tile := { tk0 with p := [] }
    let s := tkS (opWord e.2.1 e.2.2 7 0xFFFFFFFFFFFF) t
    s.codeWord 0 t == opWord e.2.1 e.2.2 7 0xFFFFFFFFFFFF && (s.fetchWord 0 t).2.1 == 0 && !t.executes 7 && Lands (s.issued 0 t 1).1 0 t 1 &&
    ran (e.1 0 7 (BitVec.ofNat 48 0xFFFFFFFFFFFF)) s (fun u => match u.tileOf 0 with
      | some x => x.pc == 1 && x.work == 1
      | none => false)))) = true := by
  decide +kernel

theorem witness_FetchPredicateAndWorkLimit_p_4 : (((tackRows.drop 110).take 30).all (fun e => (let t : Tile := { tk0 with p := [] }
    let s := tkS (opWord e.2.1 e.2.2 7 0xFFFFFFFFFFFF) t
    s.codeWord 0 t == opWord e.2.1 e.2.2 7 0xFFFFFFFFFFFF && (s.fetchWord 0 t).2.1 == 0 && !t.executes 7 && Lands (s.issued 0 t 1).1 0 t 1 &&
    ran (e.1 0 7 (BitVec.ofNat 48 0xFFFFFFFFFFFF)) s (fun u => match u.tileOf 0 with
      | some x => x.pc == 1 && x.work == 1
      | none => false)))) = true := by
  decide +kernel

theorem witness_FetchPredicateAndWorkLimit_p_5 : (tackRows.all (fun e => (let t : Tile := { tk0 with work := 1600 }
    let s := tkS (opWord e.2.1 e.2.2 0 0) t
    s.codeWord 0 t == opWord e.2.1 e.2.2 0 0 && (s.fetchWord 0 t).2.1 == 0 && t.executes 0 &&
    ran (e.1 0 0 0) s (fun u => (u.tileOf 0).isNone && u.cnt (bCLU 0) CLU_EXC_STATUS_STATUS == 0x0805)))) = true := by
  decide +kernel

theorem witness_ProgramExceptionsEndTheTile_1 : (let u := ({} : State).tileTrap 33 tk0 (2 ^ 64 - 1) { status := 0x0802, cause := 5, addr := 2 ^ 64 - 1 }
    (u.tileOf 33).isNone && u.cnt (bCLU 33) CLU_EXC_STATUS_STATUS == 0x0802 && u.cnt (bCLU 33) CLU_EXC_STATUS_CAUSE == 5 &&
    u.cnt (bCLU 33) CLU_EXC_STATUS_VALID == 1 && (({} : State).cmd? 0).isNone &&
    u.cnt (bCLU 33) CLU_EXC_ADDR_LO_ADDR + 2 ^ 32 * u.cnt (bCLU 33) CLU_EXC_ADDR_HI_ADDR == 2 ^ 64 - 1) = true := by
  decide +kernel

theorem witness_ProgramExceptionsEndTheTile_2 : (let u := ({} : State).tileTrap 33 { tk0 with mism := true } 0 { status := 0x0801, cause := 5, addr := 0 }
    (u.tileOf 33).isNone && u.cnt (bCLU 33) CLU_EXC_STATUS_VALID == 0) = true := by
  decide +kernel

theorem witness_ProgramExceptionsEndTheTile_3 : (scalarRows.all (fun e => illegalRow e.1 0 e.2.1 (fR 5 6 7 + 1) 3)) = true ∧
    (cmpRows.all (fun e => illegalRow e.1 2 e.2.2.1 (fR 8 6 7) 4)) = true ∧ illegalRow .amov 3 1 (fR 16 6 0) 4 = true ∧
    (laneRows.all (fun e => illegalRow e.1 8 e.2.1 (fR 5 6 7 + 2 * 2 ^ 24) 2)) = true := by
  decide +kernel

theorem witness_FusedCommandsRun_1 : (let s := fuS fuConv fuConv
    let r := s.readFused fuCmd
    decide (s.fusedReady 0 = some fuCmd) && r.2.1 == 0 && pf r.2.2.p 0 1 == 1 && convOk r.2.2.p &&
    (convOf r.2.2.p).tensorsOk r.2.2.segs true true true) = true := by
  decide +kernel

theorem witness_FusedCommandsRun_2 : (let s := fuS fuPool fuConv
    let r := s.readFused fuCmd
    decide (s.fusedReady 0 = some fuCmd) && r.2.1 == 0 && pf r.2.2.p 0 1 == 2 && poolOk r.2.2.p &&
    (poolOf r.2.2.p).tensorsOk r.2.2.segs true true &&
    ran (.pooling 0 0) s (fun t => (t.cmd? 0).map (fun y => (y.begun, y.todo)) == some (true, [(0, 1)]))) = true := by
  decide +kernel

theorem witness_FusedCommandsRun_3 : (let s := fuS fuUp fuConv
    let r := s.readFused fuCmd
    r.2.1 == 0 && pf r.2.2.p 0 1 == 3 && upOk r.2.2.p && (upOf r.2.2.p).tensorsOk r.2.2.segs true true &&
    ran (.upSampling 0 0) s (fun t => (t.cmd? 0).map (fun y => (y.begun, y.todo)) == some (true, [(0, 2)]))) = true := by
  decide +kernel

theorem witness_FusedCommandsRun_4 : (let s := fuS fuRed fuConv
    let r := s.readFused fuCmd
    r.2.1 == 0 && pf r.2.2.p 0 1 == 4 && reduceOk r.2.2.p && (reduceOf r.2.2.p).finish == 1 &&
    (reduceOf r.2.2.p).tensorsOk (convOf []) r.2.2.segs &&
    ran (.partialReduction 0 0) s (fun t => (t.cmd? 0).map (fun y => (y.begun, y.todo)) == some (true, [(0, 1)]))) = true := by
  decide +kernel

theorem witness_FusedCommandsRun_5 : (let s := fuS (((fuRed.set 2 0).set 0x30 0x80).set 0x31 0x30) fuConv
    let r := s.readFused fuCmd
    let v := r.1.hwRead iSCH 0x3080 128
    r.2.1 == 0 && tensorOk r.2.2.segs false 0x3080 128 && v.2.1 == 0 && convOk v.2.2 && reduceOk r.2.2.p &&
    (reduceOf r.2.2.p).tensorsOk (convOf v.2.2) r.2.2.segs) = true := by
  decide +kernel

theorem witness_FusedCommandsRun_6 : (let s := fuS fuStripe fuPool
    let r := s.readFused fuCmd
    let v := r.1.readLayers r.2.2
    r.2.1 == 0 && pf r.2.2.p 0 1 == 5 && stripeOk r.2.2.p && v.2.1 == 0 && layersOk (v.2.2.map slayer) &&
    tensorOk r.2.2.segs true (pf r.2.2.p 0x10 8) (pf r.2.2.p 0x18 4) &&
    (numbered (v.2.2.map slayer)).all (fun e => e.2.tensorsOk r.2.2.segs (e.1 == v.2.2.length)) &&
    ran (.stripeGroup 0 0) s (fun t => (t.cmd? 0).map (fun y => (y.begun, y.wait)) == some (true, [(0, 1)]))) = true := by
  decide +kernel

theorem witness_FusedCommandsRun_7 : (let x := fuStripeCmd
    let s := fuStripeS
    let v := (s.at 0).stripesDue 0
    decide (v.cmd? 0 = some x) && x.begun && !x.lays.isEmpty && x.par.headD 0 == 5 && v.cmdReady x && inTodo x.wait 0 && v.ownShard (0 % x.shards) &&
    !decide (stripeD x.par ≤ 0) && v.isOn bSCH && !v.fencing bSCH && v.stripeReady x 0 &&
    ran (.stripeStart 0 0 0) s (fun t => (t.cmd? 0).map (fun y => (y.wait, y.todo)) == some ([], [(0, 1)]))) = true := by
  decide +kernel

theorem witness_KeyValueCacheCommands_1 : (fun (s : State) (τ : Nat) (q : Nat) (x : Cmd) (b : List Nat) => decide (((s.at τ).cmd? q = some x) ∧ (x.begun = true) ∧ (x.final = none) ∧ (x.stopped = false) ∧ (pf x.par 0 1 = 8) ∧ (x.lays[x.sts.length]? = some b) ∧ (opCode b = 1) ∧ ((s.seq (opSeq b)).state = 0)) &&
    ran (.seqOpen τ q) s (fun t => decide (
    t.seq (opSeq b) = { state := 1, pool := pf b 6 1, layers := pf b 7 1, pages := pf b 8 1, part := pf b 0xC 4, deadline := pf b 0x10 8, port := pf b 9 1, ctx := pf b 0xA 1 } ∧
        (t.cmd? q).map (fun y => y.sts) = some (x.sts ++ [0]))))
    ({ sch := { cmds := [{ kind := 1, begun := true, par := [8], lays := [[1, 0, 5, 0, 0, 0, 2, 3, 4, 1, 6, 0, 9, 0, 0, 0, 7] ++ List.replicate 15 0] }] } }) 0 0 { kind := 1, begun := true, par := [8], lays := [[1, 0, 5, 0, 0, 0, 2, 3, 4, 1, 6, 0, 9, 0, 0, 0, 7] ++ List.replicate 15 0] } ([1, 0, 5, 0, 0, 0, 2, 3, 4, 1, 6, 0, 9, 0, 0, 0, 7] ++ List.replicate 15 0) = true := by
  decide +kernel

theorem witness_KeyValueCacheCommands_2 : (fun (s : State) (τ : Nat) (q : Nat) (x : Cmd) (b : List Nat) => decide (((s.at τ).cmd? q = some x) ∧ (x.begun = true) ∧ (x.final = none) ∧ (x.stopped = false) ∧ (pf x.par 0 1 = 8) ∧ (x.lays[x.sts.length]? = some b) ∧ (opCode b = 1) ∧ ((s.seq (opSeq b)).state ≠ 0)) &&
    ran (.seqOpen τ q) s (fun t => decide (
    (t.cmd? q).map (fun y => y.sts) = some (x.sts ++ [0x0101]) ∧ t.kvc = s.kvc)))
    ({ sch := { cmds := [{ kind := 1, begun := true, par := [8], lays := [[1, 0, 5, 0, 0, 0, 2, 3, 4, 1, 6, 0, 9, 0, 0, 0, 7] ++ List.replicate 15 0] }] }, kvc := { seqs := [(5, { state := 3 })] } }) 0 0 { kind := 1, begun := true, par := [8], lays := [[1, 0, 5, 0, 0, 0, 2, 3, 4, 1, 6, 0, 9, 0, 0, 0, 7] ++ List.replicate 15 0] } ([1, 0, 5, 0, 0, 0, 2, 3, 4, 1, 6, 0, 9, 0, 0, 0, 7] ++ List.replicate 15 0) = true := by
  decide +kernel

theorem witness_KeyValueCacheCommands_3 : (fun (s : State) (τ : Nat) (q : Nat) (x : Cmd) (b : List Nat) => decide (((s.at τ).cmd? q = some x) ∧ (x.begun = true) ∧ (x.final = none) ∧ (x.stopped = false) ∧ (pf x.par 0 1 = 8) ∧ (x.lays[x.sts.length]? = some b) ∧ (opCode b = 2) ∧ ((s.seq (opSeq b)).state = 0) ∧ ((s.seq (pf b 4 2)).state = 1) ∧ ((s.seq (pf b 4 2)).entries.Nodup) ∧ (∀ i ∈ (s.seq (pf b 4 2)).entries, (s.page i).refs < 65535)) &&
    ran (.fork τ q) s (fun t => decide (
    t.seq (opSeq b) = { s.seq (pf b 4 2) with part := pf b 0xC 4, deadline := pf b 0x10 8, port := pf b 9 1, ctx := pf b 0xA 1 } ∧
        (∀ i ∈ (s.seq (pf b 4 2)).entries, (t.page i).refs = (s.page i).refs + 1) ∧ t.cnt bKVC KVC_CNT_FORK = satInc (s.cnt bKVC KVC_CNT_FORK) 1 ∧
        (t.cmd? q).map (fun y => y.sts) = some (x.sts ++ [0]))))
    ({ sch := { cmds := [{ kind := 1, begun := true, par := [8], lays := [[2, 0, 5, 0, 4, 0, 0, 0, 0, 1, 6, 0, 9, 0, 0, 0, 7] ++ List.replicate 15 0] }] }, kvc := { seqs := [(4, { state := 1, layers := 1, pages := 2, list := [(0, 11)] })], pages := [(11, { refs := 1, state := 1 })] } }) 0 0 { kind := 1, begun := true, par := [8], lays := [[2, 0, 5, 0, 4, 0, 0, 0, 0, 1, 6, 0, 9, 0, 0, 0, 7] ++ List.replicate 15 0] } ([2, 0, 5, 0, 4, 0, 0, 0, 0, 1, 6, 0, 9, 0, 0, 0, 7] ++ List.replicate 15 0) = true := by
  decide +kernel

theorem witness_KeyValueCacheCommands_4 : (fun (s : State) (τ : Nat) (q : Nat) (x : Cmd) (b : List Nat) => decide (((s.at τ).cmd? q = some x) ∧ (x.begun = true) ∧ (x.final = none) ∧ (x.stopped = false) ∧ (pf x.par 0 1 = 8) ∧ (x.lays[x.sts.length]? = some b) ∧ (opCode b = 3) ∧ ((s.seq (opSeq b)).state ≠ 0)) &&
    ran (.close τ q) s (fun t => decide (
    t.seq (opSeq b) = {} ∧ (t.cmd? q).map (fun y => y.sts) = some (x.sts ++ [0]))))
    ({ sch := { cmds := [{ kind := 1, begun := true, par := [8], lays := [[3, 0, 4, 0] ++ List.replicate 28 0] }] }, kvc := { seqs := [(4, { state := 1, layers := 1, pages := 2, list := [(0, 11)] })], pages := [(11, { refs := 1, state := 1 })] } }) 0 0 { kind := 1, begun := true, par := [8], lays := [[3, 0, 4, 0] ++ List.replicate 28 0] } ([3, 0, 4, 0] ++ List.replicate 28 0) = true := by
  decide +kernel

theorem witness_KeyValueCacheCommands_5 : (fun (s : State) (τ : Nat) (q e : Nat) (c : KvCopy) => decide (((s.at τ).kvcOn = true) ∧ (s.kvc.copies.find? (fun d => d.seq == q && d.entry == e) = some c) ∧ (c.src ≠ c.dst) ∧ ((s.seq q).state = 1) ∧ (Store.get 0xFFFF (s.seq q).list e = c.src)) &&
    ran (.pageCopyDone τ q e) s (fun t => decide (
    Store.get 0xFFFF (t.seq 4).list 0 = 12 ∧ (t.page 12).refs = 1 ∧ t.kvc.copies = [])))
    ({ st [(0x11, COM_STATE_FSM, 2), (0x10, COM_STATE_FSM, 2), (0x40, COM_STATE_FSM, 2), (0x40, CLU_CTRL_ROLE, 0)] with kvc := { copies := [{ seq := 4, entry := 0, src := 11, dst := 12 }], seqs := [(4, { state := 1, layers := 1, pages := 2, list := [(0, 11)] })], pages := [(11, { refs := 2, inflight := 1, fill := 0, state := 1 }), (12, { state := 2 })] } }) 0 4 0 { seq := 4, entry := 0, src := 11, dst := 12 } = true := by
  decide +kernel

theorem witness_KeyValueCacheCommands_6 : (fun (s : State) (τ : Nat) (v : Nat) (o : Nat × Nat) => decide (((s.at τ).kvcOn = true) ∧ (s.kvc.outs.find? (fun p => p.1 == v) = some o) ∧ ((s.seq v).state = 1)) &&
    ran (.swapOutDone τ v) s (fun t => decide (
    (t.seq 4).state = 2 ∧ t.kvc.outs = [])))
    ({ st [(0x11, COM_STATE_FSM, 2), (0x10, COM_STATE_FSM, 2), (0x40, COM_STATE_FSM, 2), (0x40, CLU_CTRL_ROLE, 0)] with kvc := { outs := [(4, 99)], seqs := [(4, { state := 1 })] } }) 0 4 (4, 99) = true := by
  decide +kernel

theorem witness_KeyValueCacheCommands_7 : (fun (s : State) (τ : Nat) (q : Nat) (ok : Bool) (data : List Nat) (e : Nat × List Nat) => decide (((s.at τ).kvcOn = true) ∧ (s.kvc.ins.find? (fun p => p.1 == q) = some e) ∧ ((s.seq q).state = 2) ∧ (ok = false ∨ crc32 data ≠ (s.seq q).crc)) &&
    ran (.swapInDone τ q ok data) s (fun t => decide (
    (t.seq 4).state = 3 ∧ (t.seq 4).endStatus = 0x0304)))
    ({ st [(0x11, COM_STATE_FSM, 2), (0x10, COM_STATE_FSM, 2), (0x40, COM_STATE_FSM, 2), (0x40, CLU_CTRL_ROLE, 0)] with kvc := { ins := [(4, [])], seqs := [(4, { state := 2, crc := 5 })] } }) 0 4 true [1] (4, []) = true := by
  decide +kernel

theorem witness_KeyValueCacheCommands_8 : (fun (s : State) (τ : Nat) (q : Nat) (data : List Nat) (e : Nat × List Nat) => decide (((s.at τ).kvcOn = true) ∧ (s.kvc.ins.find? (fun p => p.1 == q) = some e) ∧ ((s.seq q).state = 2) ∧ (crc32 data = (s.seq q).crc)) &&
    ran (.swapInDone τ q true data) s (fun t => decide (
    (t.seq 4).state = 1 ∧ t.kvc.ins = [])))
    ({ st [(0x11, COM_STATE_FSM, 2), (0x10, COM_STATE_FSM, 2), (0x40, COM_STATE_FSM, 2), (0x40, CLU_CTRL_ROLE, 0)] with kvc := { ins := [(4, [])], seqs := [(4, { state := 2, crc := crc32 [] })] } }) 0 4 [] (4, []) = true := by
  decide +kernel

theorem witness_KeyValueCacheCommands_read : (let s := kvS fuAtt 1
    let r := s.readFused fuCmd
    let d := r.1.readBatch (pf r.2.2.p 0x10 8) (pf r.2.2.p 0xA 2)
    decide (s.fusedReady 0 = some fuCmd) && r.2.1 == 0 && pf r.2.2.p 0 1 == 6 && r.1.kvcOn && attOk r.2.2.p && d.2.1 == 0 && batchOk d.2.2 &&
    d.2.2.all (fun b => (d.1.seq (segSeq b)).state == 0 || (d.1.seq (segSeq b)).state == 3 || decide (pf r.2.2.p 8 1 < (d.1.seq (segSeq b)).layers)) &&
    decide (attWork r.2.2.p d.2.2 ≤ pf r.2.2.p 0x48 4) && attTensors r.2.2.p r.2.2.segs d.2.2 &&
    ran (.attention 0 0) s (fun t => (t.cmd? 0).map (fun y => (y.begun, y.par, y.lays, y.sts, y.todo)) ==
      some (true, r.2.2.p, d.2.2, [0xFFFF], [(0, 1)]))) = true := by
  decide +kernel

theorem witness_KeyValueCacheCommands_9 : (let s := kvS fuProj 5
    let r := s.readFused fuCmd
    let d := r.1.readBatch (pf r.2.2.p 0x10 8) (pf r.2.2.p 0xC 2)
    decide (s.fusedReady 0 = some fuCmd) && r.2.1 == 0 && pf r.2.2.p 0 1 == 7 && r.1.kvcOn && projOk r.2.2.p && d.2.1 == 0 && batchOk d.2.2 &&
    d.2.2.all (fun b => (d.1.seq (segSeq b)).state == 0 || (d.1.seq (segSeq b)).state == 3 || decide (pf r.2.2.p 0xA 1 < (d.1.seq (segSeq b)).layers)) &&
    projTensors r.2.2.p r.2.2.segs d.2.2 &&
    ran (.projection 0 0) s (fun t => (t.cmd? 0).map (fun y => (y.begun, y.par, y.lays, y.sts)) ==
      some (true, r.2.2.p, d.2.2, [0x0101]))) = true := by
  decide +kernel

theorem witness_QueuesFetchCompleteAndRetire_1 : (fun (s : State) (τ : Nat) (i q v : Nat) => decide ((s.regAllowed i true bSCH (0x100C + 0x20 * q) = true) ∧ (s.domOn bSCH = true) ∧ (q < 64) ∧ (ahead (v % 65536) (s.qDone q) ≤ 2 ^ s.rd bSCH (SCH_Q_CFG_SIZE_LOG2 q))) &&
    ran (.schQDb τ i q v) s (fun t => decide (
    t.qProd q = v % 65536)))
    (st [(0, PWR_PD_STAT_PSTATE (domOf bSCH), 2), (0x10, SCH_Q_CFG_SIZE_LOG2 63, 4)]) 0 5 63 16 = true := by
  decide +kernel

theorem witness_QueuesFetchCompleteAndRetire_2 : (fun (s : State) (τ : Nat) (i q v : Nat) => decide ((s.regAllowed i true bSCH (0x100C + 0x20 * q) = true) ∧ (s.domOn bSCH = true) ∧ (q < 64) ∧ (2 ^ s.rd bSCH (SCH_Q_CFG_SIZE_LOG2 q) < ahead (v % 65536) (s.qDone q))) &&
    ran (.schQDb τ i q v) s (fun t => decide (
    t.rd bSCH (SCH_Q_CFG_DB_OVER q) = 1 ∧ t.qProd q = s.qProd q)))
    (st [(0, PWR_PD_STAT_PSTATE (domOf bSCH), 2), (0x10, SCH_Q_CFG_SIZE_LOG2 63, 4)]) 0 5 63 17 = true := by
  decide +kernel

theorem witness_QueuesFetchCompleteAndRetire_3 : (fun (s : State) (τ : Nat) (i q v : Nat) => decide ((s.regAllowed i true bSCH (0x1008 + 0x20 * q) = true) ∧ (s.domOn bSCH = true) ∧ (q < 64) ∧ (v % 2 = 1) ∧ (s.qState q ≠ fSTARTING)) &&
    ran (.qen τ i q v) s (fun t => decide (
    t.qState q = (if s.qState q = fOFF then fSTARTING else if s.qState q = fSTOPPING then fPENDING else s.qState q))))
    (st [(0, PWR_PD_STAT_PSTATE (domOf bSCH), 2), (0x10, SCH_Q_CFG_QSTATE 63, fSTOPPING)]) 0 1 63 1 = true := by
  decide +kernel

theorem witness_QueuesFetchCompleteAndRetire_4 : (fun (s : State) (τ : Nat) (i q v : Nat) => decide ((s.regAllowed i true bSCH (0x1008 + 0x20 * q) = true) ∧ (s.domOn bSCH = true) ∧ (q < 64) ∧ (v % 2 = 0) ∧ (s.qState q = fON ∨ s.qState q = fPENDING)) &&
    ran (.qen τ i q v) s (fun t => decide (
    t.qState q = (if s.sch.cmds.any (fun x => x.q == q) then fSTOPPING else fOFF))))
    ({ st [(0, PWR_PD_STAT_PSTATE (domOf bSCH), 2), (0x10, SCH_Q_CFG_QSTATE 3, fON)] with sch := { cmds := [{ q := 3 }] } }) 0 1 3 0 = true := by
  decide +kernel

theorem witness_QueuesFetchCompleteAndRetire_5 : (fun (s : State) (τ : Nat) (q : Nat) (b : List Nat) => decide (((s.at τ).canFetch q = true) ∧ ((s.at τ).cmd? (qptr q (s.qFetch q)) = none) ∧ (q < 64) ∧ (s.qFetch q < 65536) ∧ ((((s.at τ).wr bSCH (SCH_Q_CFG_QSTATE q) fON).hwRead iSCH (s.rd64 bSCH (SCH_Q_BASE_LO q) (SCH_Q_BASE_HI q) + 64 * (s.qFetch q % 2 ^ s.rd bSCH (SCH_Q_CFG_SIZE_LOG2 q))) 64).2 = (0, b)) ∧ (cmdOk (cmdOf q (s.qFetch q) b) b = false)) &&
    ran (.commandFetch τ q) s (fun t => decide (
    (t.cmd? (qptr q (s.qFetch q))).map (fun y => y.final) = some (some (0x0808, 0xFFFFFFFF)) ∧ t.qFetch q = (s.qFetch q + 1) % 65536)))
    ({ st [(0x10, COM_STATE_FSM, 2), (0x10, SCH_Q_CFG_SIZE_LOG2 3, 4), (0x10, SCH_Q_CFG_CTX 3, 0xFF), (0x10, SCH_Q_CFG_QSTATE 3, 2)] with mem := memPuts [] 0 (leBytes 8 0 ++ leBytes 4 1 ++ [0, 3, 0xFF, 4] ++ List.replicate 48 0), hlt := { rules := [(0, dramRule)] }, sch := { prod := [(3, 1)] } }) 0 3 (leBytes 8 0 ++ leBytes 4 1 ++ [0, 3, 0xFF, 4] ++ List.replicate 48 0) = true := by
  decide +kernel

theorem witness_QueuesFetchCompleteAndRetire_6 : (fun (s : State) (τ : Nat) (q : Nat) (b : List Nat) => decide (((s.at τ).canFetch q = true) ∧ ((s.at τ).cmd? (qptr q (s.qFetch q)) = none) ∧ (q < 64) ∧ (s.qFetch q < 65536) ∧ ((((s.at τ).wr bSCH (SCH_Q_CFG_QSTATE q) fON).hwRead iSCH (s.rd64 bSCH (SCH_Q_BASE_LO q) (SCH_Q_BASE_HI q) + 64 * (s.qFetch q % 2 ^ s.rd bSCH (SCH_Q_CFG_SIZE_LOG2 q))) 64).2 = (0, b)) ∧ (cmdOk (cmdOf q (s.qFetch q) b) b = true)) &&
    ran (.commandFetch τ q) s (fun t => decide (
    (t.cmd? (qptr q (s.qFetch q))).map (fun y => [y.block, y.tiles, y.kind, y.deadline, y.part, y.vaddr, y.tag]) =
          some [leNat (b.take 8), leNat ((b.drop 8).take 4), b.getD 12 0, leNat ((b.drop 16).take 8), leNat ((b.drop 24).take 4), leNat ((b.drop 40).take 8), leNat ((b.drop 48).take 8)] ∧
        t.qFetch q = (s.qFetch q + 1) % 65536)))
    ({ st [(0x10, COM_STATE_FSM, 2), (0x10, SCH_Q_CFG_SIZE_LOG2 3, 4), (0x10, SCH_Q_CFG_CTX 3, 0xFF), (0x10, SCH_Q_CFG_QSTATE 3, 2)] with mem := memPuts [] 0 (leBytes 8 0x2000 ++ leBytes 4 7 ++ [0, 3, 0xFF, 2] ++ leBytes 8 0 ++ leBytes 4 0xFFFFFFFF ++ leBytes 4 0 ++ leBytes 4 0xFFFFFFFF ++ leBytes 4 0xFFFFFFFF ++ leBytes 8 0 ++ leBytes 8 0x55 ++ List.replicate 8 0), hlt := { rules := [(0, dramRule)] }, sch := { prod := [(3, 1)] } }) 0 3 (leBytes 8 0x2000 ++ leBytes 4 7 ++ [0, 3, 0xFF, 2] ++ leBytes 8 0 ++ leBytes 4 0xFFFFFFFF ++ leBytes 4 0 ++ leBytes 4 0xFFFFFFFF ++ leBytes 4 0xFFFFFFFF ++ leBytes 8 0 ++ leBytes 8 0x55 ++ List.replicate 8 0) = true := by
  decide +kernel

theorem witness_QueuesFetchCompleteAndRetire_7 : (fun (s : State) (τ : Nat) (q n : Nat) (x : Cmd) => decide ((s.sch.cmds = [x]) ∧ (s.sch.bufs = []) ∧ (x.ptr = q) ∧ (x.q < 64) ∧ (x.final = some (0, n)) ∧ (x.done = false) ∧ (x.check = 0xFF) ∧ (bit x.flags 0 = 1) ∧ (qptr x.q (s.qDone x.q) = q)) &&
    ran (.commandComplete τ q) s (fun t => decide (
    t.cmd? q = none ∧ t.cnt bSCH SCH_CNT_COMPLETED = satInc (s.cnt bSCH SCH_CNT_COMPLETED) 1)))
    ({ sch := { cmds := [{ q := 3, idx := 0, flags := 1, final := some (0, 0xFFFFFFFF) }] } }) 0 201326592 0xFFFFFFFF { q := 3, idx := 0, flags := 1, final := some (0, 0xFFFFFFFF) } = true := by
  decide +kernel

theorem witness_QueuesFetchCompleteAndRetire_8 : (fun (s : State) (τ : Nat) (q a : Nat) (x : Cmd) (f : Nat × Nat) => decide ((s.sch.cmds = [x]) ∧ (s.sch.bufs = []) ∧ (x.ptr = q) ∧ (x.q < 64) ∧ (x.final = some f) ∧ (x.done = false) ∧ (x.check = 0xFF) ∧ (bit x.flags 0 = 0) ∧ (s.cqIsFull (s.rd bSCH (SCH_Q_CFG_CQ x.q)) = false) ∧ (a = s.rd64 bSCH (SCH_CQ_BASE_LO (s.rd bSCH (SCH_Q_CFG_CQ x.q))) (SCH_CQ_BASE_HI (s.rd bSCH (SCH_Q_CFG_CQ x.q))) + 32 * (s.rd bSCH (SCH_CQ_WR (s.rd bSCH (SCH_Q_CFG_CQ x.q))) % 2 ^ s.rd bSCH (SCH_CQ_CFG_SIZE_LOG2 (s.rd bSCH (SCH_Q_CFG_CQ x.q))))) ∧ (inDram a 32 = true) ∧ (∀ u ∈ partUnits a 32, Store.get 0 s.errs u = 0 ∧ Store.get false s.poison u = false) ∧ (s.pwr.entry = none) ∧ (s.memu.word = []) ∧ (s.memu.found = []) ∧ ((s.at τ).memAllowed iSCH true a 32 = true)) &&
    ran (.commandComplete τ q) s (fun t => decide (
    t.bytes a 24 = leBytes 4 q ++ leBytes 2 f.1 ++ [0, 0xFF] ++ leBytes 8 x.tag ++ leBytes 4 f.2 ++ [x.layer % 256, 0] ++ leBytes 2 x.failed ∧
        t.rd bSCH (SCH_CQ_WR (s.rd bSCH (SCH_Q_CFG_CQ x.q))) = (s.rd bSCH (SCH_CQ_WR (s.rd bSCH (SCH_Q_CFG_CQ x.q))) + 1) % 65536)))
    ({ st [(0x10, SCH_CQ_BASE_LO 0, 0x1000)] with hlt := { rules := [(0, dramRule)] }, sch := { cmds := [{ q := 3, tag := 0x1234, final := some (0x0804, 9) }] } }) 0 201326592 0x1000 { q := 3, tag := 0x1234, final := some (0x0804, 9) } (0x0804, 9) = true := by
  decide +kernel

theorem witness_QueuesFetchCompleteAndRetire_9 : (fun (s : State) (τ : Nat) => decide ((s.isOn bSCH = true) ∧ (s.fencing bSCH = false)) &&
    ran (.keyRecompute τ) s (fun t => decide (
    t.sch.cmds = s.sch.cmds.map (fun x => { x with key := (s.at τ).timeKey x }))))
    ({ st [(0x10, COM_STATE_FSM, 2), (0x10, SCH_Q_CFG_SIZE_LOG2 3, 4), (0x10, SCH_Q_CFG_CTX 3, 0xFF), (0x10, SCH_Q_CFG_QSTATE 3, 2)] with sch := { cmds := [{ dlKind := 2, deadline := 99 }] } }) 0  = true := by
  decide +kernel

theorem witness_QueuesFetchCompleteAndRetire_10 : (fun (s : State) (τ : Nat) (q : Nat) (x : Cmd) => decide ((s.cmd? q = some x) ∧ (x.final = none) ∧ (x.stopped = false) ∧ ((s.at τ).dlPassed x = true)) &&
    ran (.commandDeadlinePassed τ q) s (fun t => decide (
    (t.cmd? q).map (fun y => y.missed) = some true)))
    ({ sch := { cmds := [{ dlKind := 2 }] } }) 0 0 { dlKind := 2 } = true := by
  decide +kernel

theorem witness_QueuesFetchCompleteAndRetire_11 : (fun (s : State) (τ : Nat) (i q v : Nat) => decide ((q < 4) ∧ (s.regAllowed i true bEVQ (0x110 + 0x20 * q) = true) ∧ (s.domOn bEVQ = true) ∧ (s.rd bEVQ (EVQ_Q_RD q) < 65536) ∧ (s.rd bEVQ (EVQ_Q_WR q) < 65536)) &&
    ran (.ringReadIndex τ i (regAt bEVQ (0x110 + 0x20 * q)) v) s (fun t => decide (
    t.rd bEVQ (EVQ_Q_RD q) = (if ((v % 65536) + 65536 - s.rd bEVQ (EVQ_Q_RD q)) % 65536 ≤ (s.rd bEVQ (EVQ_Q_WR q) + 65536 - s.rd bEVQ (EVQ_Q_RD q)) % 65536 then v % 65536 else s.rd bEVQ (EVQ_Q_RD q)))))
    (st [(0, PWR_PD_STAT_PSTATE (domOf bEVQ), 2), (6, EVQ_Q_WR 3, 2), (6, EVQ_Q_RD 3, 65535)]) 0 1 3 1 = true := by
  decide +kernel

theorem witness_VerdictsContextsAndBatches_1 : (fun (s : State) (τ : Nat) (p n c vd sv k : Nat) (x : Slot) (m : Merge) => decide ((s.slotOfPart p n = some (k, x)) ∧ (s.mergeAt p k = some m) ∧ (s.isOn bSCH = true) ∧ (s.fencing bSCH = false) ∧ (bit m.declared c = 1) ∧ (m.reports.any (fun r => r.1 == c) = false) ∧ (m.missing.any (fun d => d != c) = true)) &&
    ran (.checkReport τ p n c vd sv) s (fun t => decide (
    (t.mergeAt p k).map (fun y => y.reports) = some ((c, vd, sv) :: m.reports))))
    ({ st [(0x1E, COM_STATE_FSM, 2), (0x1C, COM_STATE_FSM, 2), (0x10, COM_STATE_FSM, 2)] with ejt := [(0, { slots := [(5, some { part := 7, start := 0, deadline := 0 })] })], merge := [(5, some { part := 7, declared := 0x300000 })] }) 0 0 7 20 1 0 5 { part := 7, start := 0, deadline := 0 } { part := 7, declared := 0x300000 } = true := by
  decide +kernel

theorem witness_VerdictsContextsAndBatches_2 : (fun (s : State) (τ : Nat) (p k : Nat) (x : Slot) => decide ((p < 2) ∧ (s.slot p k = some x) ∧ (s.deadlinePos p x ≤ (s.at τ).pos p) ∧ (s.ejtLive p = true)) &&
    ran (.verdictDeadline τ p k) s (fun t => decide (
    ((t.slot 0 5).map (fun y => (y.commit.map (fun z => z.verdict)))) = some (some 3))))
    ({ st [(0x1E, COM_STATE_FSM, 2), (0x1C, COM_STATE_FSM, 2), (0x10, COM_STATE_FSM, 2)] with ejt := [(0, { slots := [(5, some { part := 7, start := 0, deadline := 0 })] })], merge := [(5, some { part := 7, declared := 0x300000 })] }) 0 0 5 { part := 7, start := 0, deadline := 0 } = true := by
  decide +kernel

theorem witness_VerdictsContextsAndBatches_3 : (fun (s : State) (τ : Nat) (i k : Nat) => decide ((s.regAllowed i true bSCH 0x128 = true) ∧ (s.domOn bSCH = true) ∧ (k < 64) ∧ (s.ctxState k = 0)) &&
    ran (.ctxLoad τ i k) s (fun t => decide (
    t.ctxState k = 1)))
    (st [(0, PWR_PD_STAT_PSTATE (domOf bSCH), 2), (0x10, SCH_CTX_STATE_CSTATE 1, 0)]) 0 1 63 = true := by
  decide +kernel

theorem witness_VerdictsContextsAndBatches_4 : (fun (s : State) (τ : Nat) (i k : Nat) => decide ((s.regAllowed i true bSCH 0x128 = true) ∧ (s.domOn bSCH = true) ∧ (k < 64) ∧ (s.ctxState k = 1 ∨ s.ctxState k = 2 ∨ s.ctxState k = 3)) &&
    ran (.ctxLoad τ i k) s (fun t => decide (
    t.ctxState k = s.ctxState k ∧ t.rd bSCH (SCH_CTX_STATE_LOAD_STATUS k) = 0x0101)))
    (st [(0, PWR_PD_STAT_PSTATE (domOf bSCH), 2), (0x10, SCH_CTX_STATE_CSTATE 63, 2)]) 0 1 63 = true := by
  decide +kernel

theorem witness_VerdictsContextsAndBatches_5 : (fun (s : State) (τ : Nat) (i k : Nat) => decide ((s.regAllowed i true bSCH 0x128 = true) ∧ (s.domOn bSCH = true) ∧ (k < 64) ∧ (s.ctxState k = 2)) &&
    ran (.unload τ i k) s (fun t => decide (
    t.ctxState k = 0 ∧ t.rd bSCH (SCH_CTX_STATE_LOAD_STATUS k) = 0)))
    (st [(0, PWR_PD_STAT_PSTATE (domOf bSCH), 2), (0x10, SCH_CTX_STATE_CSTATE 63, 2)]) 0 1 63 = true := by
  decide +kernel

theorem witness_VerdictsContextsAndBatches_6 : (fun (s : State) (τ : Nat) (i k : Nat) => decide ((s.regAllowed i true bSCH 0x128 = true) ∧ (s.domOn bSCH = true) ∧ (k < 64) ∧ (s.ctxState k = 1 ∨ s.ctxState k = 3)) &&
    ran (.unload τ i k) s (fun t => decide (
    t.ctxState k = s.ctxState k ∧ t.rd bSCH (SCH_CTX_STATE_LOAD_STATUS k) = 0x0101)))
    (st [(0, PWR_PD_STAT_PSTATE (domOf bSCH), 2), (0x10, SCH_CTX_STATE_CSTATE 63, 3)]) 0 1 63 = true := by
  decide +kernel

theorem witness_VerdictsContextsAndBatches_7 : (fun (s : State) (τ : Nat) (k st : Nat) (u : State) (cx : Ctx) => decide ((k < 64) ∧ (s.ctxState k = 1) ∧ ((s.at τ).loadCtx k = (u, st, cx)) ∧ (st < 65536)) &&
    ran (.contextLoadDone τ k) s (fun t => decide (
    t.ctxState k = (if st = 0 then 2 else 0) ∧ t.rd bSCH (SCH_CTX_STATE_LOAD_STATUS k) = st ∧ (st = 0 → Store.get {} t.sch.ctx k = cx))))
    (st [(0, PWR_PD_STAT_PSTATE (domOf bSCH), 2), (0x10, SCH_CTX_STATE_CSTATE 63, 1)]) 0 63 (State.loadCtx (st [(0, PWR_PD_STAT_PSTATE (domOf bSCH), 2), (0x10, SCH_CTX_STATE_CSTATE 63, 1)]) 63).2.1 (State.loadCtx (st [(0, PWR_PD_STAT_PSTATE (domOf bSCH), 2), (0x10, SCH_CTX_STATE_CSTATE 63, 1)]) 63).1 {} = true := by
  decide +kernel

theorem witness_VerdictsContextsAndBatches_8 : (fun (s : State) (τ : Nat) (i k v : Nat) => decide ((s.regAllowed i true bSCH (0x3000 + 8 * k) = true) ∧ (s.domOn bSCH = true) ∧ (k < 64)) &&
    ranTo (.schSrqWr τ i k v) s (((s.at τ).wr bSCH (SCH_SRQ_WR k) v).batchRun k))
    (st [(0, PWR_PD_STAT_PSTATE (domOf bSCH), 2), (0x10, COM_STATE_FSM, 2)]) 0 5 63 32 = true := by
  decide +kernel

theorem witness_VerdictsContextsAndBatches_9 : (fun (s : State) (τ : Nat) (k : Nat) => decide (True) &&
    ranTo (.batchWaitExpiry τ k) s ((s.at τ).batchRun k))
    ({}) 0 3 = true := by
  decide +kernel

theorem witness_VerdictsContextsAndBatches_10 : (fun (s : State) (τ : Nat) (k : Nat) => decide (True) &&
    ranTo (.batchSlackExpiry τ k) s ((s.at τ).batchRun k))
    ({}) 0 3 = true := by
  decide +kernel

theorem witness_VerdictsContextsAndBatches_verdicts : Merge.verdict { declared := 0x300000, reports := [(20, 1, 0x0301)] } = 1 ∧
    Merge.verdict { declared := 0x300000, reports := [(20, 0, 0)] } = 3 ∧ ({} : State).batching 0 = false := by
  decide +kernel

theorem witness_ExchangesAndBarriers_1 : (fun (s : State) (τ : Nat) (a src addr tag : Nat) (poison : Bool) (data : List Nat) => decide ((s.portUp a = true) ∧ (s.modulePos < 16) ∧ (src < 16) ∧ (s.inWindow addr data.length = false) ∧ (s.portUp (s.routeTo src) = true) ∧ ((s.linkPort (s.routeTo src)).replay.length < 64)) &&
    ran (.write τ a src addr tag poison data) s (fun t => decide (
    t.mem = s.mem ∧ (t.linkPort (s.routeTo src)).replay = (s.linkPort (s.routeTo src)).replay ++
          [((s.linkPort (s.routeTo src)).tx, 0, { type := 0x02, src := s.modulePos, dest := src, data := [0x0201], tag := tag })])))
    ({ st [(0x12, COM_STATE_FSM, 2), (0x12, LNK_PORT_STAT_PSTATE 0, 3), (0x12, LNK_PORT_STAT_PSTATE 1, 3), (0x12, LNK_PORT_STAT_LANES_UP 0, 15), (0x12, LNK_PORT_STAT_LANES_UP 1, 15), (0x12, LNK_RXWIN_VALID 0, 1), (0x12, LNK_RXWIN_BASE 0, 2), (0x12, LNK_RXWIN_SIZE 0, 1)] with lnk := { modules := 2 } }) 0 1 1 0x2FFFC1 77 false (List.replicate 64 9) = true := by
  decide +kernel

theorem witness_ExchangesAndBarriers_2 : (fun (s : State) (τ : Nat) (a src addr tag st : Nat) (data : List Nat) (v : State) => decide ((s.portUp a = true) ∧ (s.inWindow addr data.length = true) ∧ (((s.at τ).rxFrame a { type := 0x01, src := src, dest := s.modulePos, arg := addr, tag := tag, data := data.map Int.ofNat }).hwWrite (0x70 + a) addr data = (v, st))) &&
    ranTo (.write τ a src addr tag false data) s (v.sendFrame { type := 0x02, src := v.modulePos, dest := src, data := [st], tag := tag }))
    ({ st [(0x12, COM_STATE_FSM, 2), (0x12, LNK_PORT_STAT_PSTATE 0, 3), (0x12, LNK_PORT_STAT_PSTATE 1, 3), (0x12, LNK_PORT_STAT_LANES_UP 0, 15), (0x12, LNK_PORT_STAT_LANES_UP 1, 15), (0x12, LNK_RXWIN_VALID 7, 1), (0x12, LNK_RXWIN_BASE 7, 2), (0x12, LNK_RXWIN_SIZE 7, 1)] with lnk := { modules := 2 }, hlt := { rules := [(0, dramRule)] } }) 0 1 1 0x2FFFC0 77 0 (List.replicate 64 9) ((({ st [(0x12, COM_STATE_FSM, 2), (0x12, LNK_PORT_STAT_PSTATE 0, 3), (0x12, LNK_PORT_STAT_PSTATE 1, 3), (0x12, LNK_PORT_STAT_LANES_UP 0, 15), (0x12, LNK_PORT_STAT_LANES_UP 1, 15), (0x12, LNK_RXWIN_VALID 7, 1), (0x12, LNK_RXWIN_BASE 7, 2), (0x12, LNK_RXWIN_SIZE 7, 1)] with lnk := { modules := 2 }, hlt := { rules := [(0, dramRule)] } } : State).rxFrame 1 { type := 1, src := 1, arg := 0x2FFFC0, tag := 77, data := (List.replicate 64 9).map Int.ofNat }).hwWrite 0x71 0x2FFFC0 (List.replicate 64 9)).1 = true := by
  decide +kernel

theorem witness_ExchangesAndBarriers_3 : (fun (s : State) (τ : Nat) (a src tag st : Nat) (u : State) (e : Exch) => decide ((s.portUp a = true) ∧ (u = (s.at τ).rxFrame a { type := 0x02, src := src, dest := s.modulePos, tag := tag, data := [(st : Int)] }) ∧ (s.lnk.exch.find? (fun e => e.x == tag / 256) = some e) ∧ (s.inService = true)) &&
    ranTo (.writeAck τ a src tag st) s (u.settleExch (e.ack (tag % 256) src st)))
    ({ st [(0x12, COM_STATE_FSM, 2), (0x12, LNK_PORT_STAT_PSTATE 0, 3), (0x12, LNK_PORT_STAT_PSTATE 1, 3), (0x12, LNK_PORT_STAT_LANES_UP 0, 15), (0x12, LNK_PORT_STAT_LANES_UP 1, 15), (0x12, LNK_SVC_IN_SERVICE, 1)] with lnk := { exch := [{ x := 1, list := 0x8000, owed := [(0, 1, 2)], sts := [0] }], modules := 2 } }) 0 1 1 256 0 (({ st [(0x12, COM_STATE_FSM, 2), (0x12, LNK_PORT_STAT_PSTATE 0, 3), (0x12, LNK_PORT_STAT_PSTATE 1, 3), (0x12, LNK_PORT_STAT_LANES_UP 0, 15), (0x12, LNK_PORT_STAT_LANES_UP 1, 15), (0x12, LNK_SVC_IN_SERVICE, 1)] with lnk := { exch := [{ x := 1, list := 0x8000, owed := [(0, 1, 2)], sts := [0] }], modules := 2 } } : State).rxFrame 1 { type := 2, src := 1, tag := 256, data := [0] }) { x := 1, list := 0x8000, owed := [(0, 1, 2)], sts := [0] } = true := by
  decide +kernel

theorem witness_ExchangesAndBarriers_4 : (fun (s : State) (τ : Nat) (q : Nat) (x : Cmd) (u : State) (g : List (List Nat)) (p : List Nat) => decide (((s.at τ).fusedReady q = some x) ∧ (((s.at τ).readFused x).1 = u) ∧ (((s.at τ).readFused x).2.1 = 0) ∧ (((s.at τ).readFused x).2.2.segs = g) ∧ (((s.at τ).readFused x).2.2.p = p) ∧ (u.cmd? x.ptr = some x) ∧ (x.final = none) ∧ (pf p 0 1 = 10) ∧ (u.lnkOn = true) ∧ (pf p 1 1 < 64) ∧ (pz p 4 124 = true) ∧ (bit (pf p 2 2) u.modulePos = 0)) &&
    ran (.barrier τ q) s (fun t => decide (
    (t.cmd? x.ptr).map (fun y => y.final) = some (some (0, 0xFFFFFFFF)))))
    ({ st [(0x40, COM_STATE_FSM, 2), (0x40, CLU_CTRL_ROLE, 0), (0x10, COM_STATE_FSM, 2), (0x12, COM_STATE_FSM, 2), (0x12, LNK_PORT_STAT_PSTATE 0, 3), (0x12, LNK_PORT_STAT_PSTATE 1, 3), (0x12, LNK_PORT_STAT_LANES_UP 0, 15), (0x12, LNK_PORT_STAT_LANES_UP 1, 15)] with mem := (fuS ([10, 5] ++ leBytes 2 6 ++ List.replicate 124 0) []).mem, hlt := { rules := [(0, dramRule)] }, sch := { cmds := [fuCmd] }, free := 0 }) 0 0 fuCmd (State.readFused ({ st [(0x40, COM_STATE_FSM, 2), (0x40, CLU_CTRL_ROLE, 0), (0x10, COM_STATE_FSM, 2), (0x12, COM_STATE_FSM, 2), (0x12, LNK_PORT_STAT_PSTATE 0, 3), (0x12, LNK_PORT_STAT_PSTATE 1, 3), (0x12, LNK_PORT_STAT_LANES_UP 0, 15), (0x12, LNK_PORT_STAT_LANES_UP 1, 15)] with mem := (fuS ([10, 5] ++ leBytes 2 6 ++ List.replicate 124 0) []).mem, hlt := { rules := [(0, dramRule)] }, sch := { cmds := [fuCmd] }, free := 0 }) fuCmd).1 ((State.readFused ({ st [(0x40, COM_STATE_FSM, 2), (0x40, CLU_CTRL_ROLE, 0), (0x10, COM_STATE_FSM, 2), (0x12, COM_STATE_FSM, 2), (0x12, LNK_PORT_STAT_PSTATE 0, 3), (0x12, LNK_PORT_STAT_PSTATE 1, 3), (0x12, LNK_PORT_STAT_LANES_UP 0, 15), (0x12, LNK_PORT_STAT_LANES_UP 1, 15)] with mem := (fuS ([10, 5] ++ leBytes 2 6 ++ List.replicate 124 0) []).mem, hlt := { rules := [(0, dramRule)] }, sch := { cmds := [fuCmd] }, free := 0 }) fuCmd).2.2.segs) ([10, 5] ++ leBytes 2 6 ++ List.replicate 124 0) = true := by
  decide +kernel

theorem witness_ExchangesAndBarriers_5 : (fun (s : State) (τ : Nat) (q : Nat) (x : Cmd) (u : State) (g : List (List Nat)) (p : List Nat) => decide (((s.at τ).fusedReady q = some x) ∧ (((s.at τ).readFused x).1 = u) ∧ (((s.at τ).readFused x).2.1 = 0) ∧ (((s.at τ).readFused x).2.2.segs = g) ∧ (((s.at τ).readFused x).2.2.p = p) ∧ (u.cmd? x.ptr = some x) ∧ (x.final = none) ∧ (pf p 0 1 = 10) ∧ (u.lnkOn = true) ∧ (pf p 1 1 < 64) ∧ (pz p 4 124 = true) ∧ (bit (pf p 2 2) u.modulePos = 1) ∧ (u.modulePos ≠ 0) ∧ (u.inService = true) ∧ (u.lnk.waits.any (fun w => w.2.1 == pf p 1 1) = false)) &&
    ran (.barrier τ q) s (fun t => decide (
    t.lnk.waits = u.lnk.waits ++ [(x.ptr, pf p 1 1, u.gen (pf p 1 1), pf p 2 2)] ∧ (t.cmd? x.ptr).map (fun y => y.begun && y.final.isNone) = some true)))
    ({ st [(0x40, COM_STATE_FSM, 2), (0x40, CLU_CTRL_ROLE, 0), (0x10, COM_STATE_FSM, 2), (0x12, COM_STATE_FSM, 2), (0x12, LNK_PORT_STAT_PSTATE 0, 3), (0x12, LNK_PORT_STAT_PSTATE 1, 3), (0x12, LNK_PORT_STAT_LANES_UP 0, 15), (0x12, LNK_PORT_STAT_LANES_UP 1, 15), (0x12, LNK_SVC_IN_SERVICE, 1), (0x12, LNK_SYSCFG_POSITION, 1)] with mem := (fuS ([10, 5] ++ leBytes 2 3 ++ List.replicate 124 0) []).mem, hlt := { rules := [(0, dramRule)] }, sch := { cmds := [fuCmd] }, free := 0 }) 0 0 fuCmd (State.readFused ({ st [(0x40, COM_STATE_FSM, 2), (0x40, CLU_CTRL_ROLE, 0), (0x10, COM_STATE_FSM, 2), (0x12, COM_STATE_FSM, 2), (0x12, LNK_PORT_STAT_PSTATE 0, 3), (0x12, LNK_PORT_STAT_PSTATE 1, 3), (0x12, LNK_PORT_STAT_LANES_UP 0, 15), (0x12, LNK_PORT_STAT_LANES_UP 1, 15), (0x12, LNK_SVC_IN_SERVICE, 1), (0x12, LNK_SYSCFG_POSITION, 1)] with mem := (fuS ([10, 5] ++ leBytes 2 3 ++ List.replicate 124 0) []).mem, hlt := { rules := [(0, dramRule)] }, sch := { cmds := [fuCmd] }, free := 0 }) fuCmd).1 ((State.readFused ({ st [(0x40, COM_STATE_FSM, 2), (0x40, CLU_CTRL_ROLE, 0), (0x10, COM_STATE_FSM, 2), (0x12, COM_STATE_FSM, 2), (0x12, LNK_PORT_STAT_PSTATE 0, 3), (0x12, LNK_PORT_STAT_PSTATE 1, 3), (0x12, LNK_PORT_STAT_LANES_UP 0, 15), (0x12, LNK_PORT_STAT_LANES_UP 1, 15), (0x12, LNK_SVC_IN_SERVICE, 1), (0x12, LNK_SYSCFG_POSITION, 1)] with mem := (fuS ([10, 5] ++ leBytes 2 3 ++ List.replicate 124 0) []).mem, hlt := { rules := [(0, dramRule)] }, sch := { cmds := [fuCmd] }, free := 0 }) fuCmd).2.2.segs) ([10, 5] ++ leBytes 2 3 ++ List.replicate 124 0) = true := by
  decide +kernel

theorem witness_ExchangesAndBarriers_6 : (fun (s : State) (τ : Nat) (a src num gen mask m : Nat) => decide ((s.portUp a = true) ∧ (s.modulePos = 0) ∧ (num < 64) ∧ (Store.get 0 s.lnk.least num ≤ gen) ∧ (m < 16) ∧ (bit mask m = 1) ∧ (s.serves m = true) ∧ (m ≠ src) ∧ (s.lnk.arrived.any (fun w => w.1 == num && w.2.2.1 == m) = false)) &&
    ran (.arrive τ a src num gen mask) s (fun t => decide (
    (num, gen, src, mask) ∈ t.lnk.arrived)))
    ({ st [(0x12, COM_STATE_FSM, 2), (0x12, LNK_PORT_STAT_PSTATE 0, 3), (0x12, LNK_PORT_STAT_PSTATE 1, 3), (0x12, LNK_PORT_STAT_LANES_UP 0, 15), (0x12, LNK_PORT_STAT_LANES_UP 1, 15), (0x12, LNK_MEMBERS_IN, 3)] with lnk := { modules := 2 } }) 0 1 1 5 0 3 0 = true := by
  decide +kernel

theorem witness_ExchangesAndBarriers_7 : (fun (s : State) (τ : Nat) (a src num gen mask : Nat) => decide ((s.portUp a = true) ∧ (s.modulePos = 0) ∧ (gen < Store.get 0 s.lnk.least num)) &&
    ran (.arrive τ a src num gen mask) s (fun t => decide (
    t.lnk.arrived = s.lnk.arrived ∧ t.lnk.least = s.lnk.least)))
    ({ st [(0x12, COM_STATE_FSM, 2), (0x12, LNK_PORT_STAT_PSTATE 0, 3), (0x12, LNK_PORT_STAT_PSTATE 1, 3), (0x12, LNK_PORT_STAT_LANES_UP 0, 15), (0x12, LNK_PORT_STAT_LANES_UP 1, 15)] with lnk := { modules := 2, least := [(5, 8)] } }) 0 1 1 5 7 3 = true := by
  decide +kernel

theorem witness_ExchangesAndBarriers_8 : (fun (s : State) (τ : Nat) (a num gen time : Nat) (bad : Bool) => decide ((s.portUp a = true) ∧ (s.inService = true) ∧ (s.lnk.waits.any (fun w => w.2.1 == num && w.2.2.1 == gen) = true) ∧ ((s.at τ).tb.time ≤ time)) &&
    ran (.release τ a num gen time bad) s (fun t => decide (
    (num, gen, time, bad) ∈ t.lnk.rels ∧ t.lnk.waits = s.lnk.waits ∧ t.gen num = s.gen num)))
    ({ st [(0x12, COM_STATE_FSM, 2), (0x12, LNK_PORT_STAT_PSTATE 0, 3), (0x12, LNK_PORT_STAT_PSTATE 1, 3), (0x12, LNK_PORT_STAT_LANES_UP 0, 15), (0x12, LNK_PORT_STAT_LANES_UP 1, 15), (0x12, LNK_SVC_IN_SERVICE, 1)] with sch := { cmds := [{ kind := 1, begun := true, par := [10] }] }, lnk := { waits := [(0, 5, 7, 3)], gens := [(5, 7)], modules := 2 } }) 0 0 5 7 0 false = true := by
  decide +kernel

theorem witness_ExchangesAndBarriers_9 : (fun (s : State) (τ : Nat) (a num gen time : Nat) (bad : Bool) (w : Nat × Nat × Nat × Nat) (x : Cmd) => decide ((s.portUp a = true) ∧ (s.inService = true) ∧ (s.lnk.waits.find? (fun v => v.2.1 == num && v.2.2.1 == gen) = some w) ∧ (s.cmd? w.1 = some x) ∧ (x.final = none) ∧ (time < (s.at τ).tb.time)) &&
    ran (.release τ a num gen time bad) s (fun t => decide (
    t.gen num = s.gen num + 1 ∧ t.cnt bLNK LNK_CNT_BARRIER_LATE = satInc (s.cnt bLNK LNK_CNT_BARRIER_LATE) 1 ∧
        (t.cmd? w.1).map (fun y => y.final) = some (some ((if bad then 0x0808 else 0), 0xFFFFFFFF)) ∧ t.lnk.waits.any (fun v => v.2.1 == num && v.2.2.1 == gen) = false)))
    ({ st [(0x12, COM_STATE_FSM, 2), (0x12, LNK_PORT_STAT_PSTATE 0, 3), (0x12, LNK_PORT_STAT_PSTATE 1, 3), (0x12, LNK_PORT_STAT_LANES_UP 0, 15), (0x12, LNK_PORT_STAT_LANES_UP 1, 15), (0x12, LNK_SVC_IN_SERVICE, 1)] with sch := { cmds := [{ kind := 1, begun := true, par := [10] }] }, lnk := { waits := [(0, 5, 7, 3)], gens := [(5, 7)], modules := 2 }, tb := { time := 1 } }) 0 0 5 7 0 true (0, 5, 7, 3) { kind := 1, begun := true, par := [10] } = true := by
  decide +kernel

theorem witness_ExchangesAndBarriers_10 : (fun (s : State) (τ : Nat) (num : Nat) (r : Nat × Nat × Nat × Bool) (w : Nat × Nat × Nat × Nat) (x : Cmd) => decide ((s.lnk.rels.find? (fun r => r.1 == num) = some r) ∧ (r.2.2.1 ≤ (s.at τ).tb.time) ∧ (s.lnk.waits.find? (fun v => v.2.1 == num && v.2.2.1 == r.2.1) = some w) ∧ (s.cmd? w.1 = some x) ∧ (x.final = none)) &&
    ran (.barrierReleaseTime τ num) s (fun t => decide (
    t.gen num = s.gen num + 1 ∧ (t.cmd? w.1).map (fun y => y.final) = some (some ((if r.2.2.2 then 0x0808 else 0), 0xFFFFFFFF)) ∧
        t.cnt bLNK LNK_CNT_BARRIERS = satInc (s.cnt bLNK LNK_CNT_BARRIERS) 1)))
    ({ st [(0x12, COM_STATE_FSM, 2), (0x12, LNK_PORT_STAT_PSTATE 0, 3), (0x12, LNK_PORT_STAT_PSTATE 1, 3), (0x12, LNK_PORT_STAT_LANES_UP 0, 15), (0x12, LNK_PORT_STAT_LANES_UP 1, 15), (0x12, LNK_SVC_IN_SERVICE, 1)] with sch := { cmds := [{ kind := 1, begun := true, par := [10] }] }, lnk := { waits := [(0, 5, 7, 3)], gens := [(5, 7)], modules := 2, rels := [(5, 7, 0, false)] } }) 0 5 (5, 7, 0, false) (0, 5, 7, 3) { kind := 1, begun := true, par := [10] } = true := by
  decide +kernel

theorem witness_ExchangesAndBarriers_11 : (fun (s : State) (τ : Nat) (num : Nat) (r : Nat × Nat × Nat × Bool) => decide ((s.lnk.rels.find? (fun r => r.1 == num) = some r) ∧ ((s.at τ).tb.time < r.2.2.1)) &&
    ranTo (.barrierReleaseTime τ num) s (s.at τ))
    ({ st [(0x12, COM_STATE_FSM, 2), (0x12, LNK_PORT_STAT_PSTATE 0, 3), (0x12, LNK_PORT_STAT_PSTATE 1, 3), (0x12, LNK_PORT_STAT_LANES_UP 0, 15), (0x12, LNK_PORT_STAT_LANES_UP 1, 15), (0x12, LNK_SVC_IN_SERVICE, 1)] with sch := { cmds := [{ kind := 1, begun := true, par := [10] }] }, lnk := { waits := [(0, 5, 7, 3)], gens := [(5, 7)], modules := 2, rels := [(5, 7, 1, false)] } }) 0 5 (5, 7, 1, false) = true := by
  decide +kernel

theorem witness_ExchangesAndBarriers_0 :
    (match exS.readFused fuCmd with
     | (u, c, f) => c == 0 && exS.fusedReady 0 == some fuCmd && u.lnkOn && u.inService && pz f.p 1 1 && pz f.p 6 2 && pz f.p 0x10 112 && pf f.p 0 1 == 9 && pf f.p 4 2 == 1 &&
        pf f.p 8 8 == 0x4000 && (match u.hwRead (iLNK 0) 0x4000 32 with
          | (_, c, d) => c == 0 && exSegOk d && tensorOk f.segs false (pf d 0 8) (pf d 16 4))) = true := by
  decide +kernel

theorem witness_ExchangesAndBarriers_end : (fun (s : State) (e : Exch) (x : Cmd) => decide (e.owed = []) && e.sts.all soundStatus && decide (s.cmd? e.x = some x) &&
    decide (((s.settleExch e).cmd? e.x).map (fun y => (y.failed, y.final)) = some (0, some (0x0301, 0xFFFFFFFF))))
    { sch := { cmds := [{ kind := 1, begun := true }] } } { x := 0, list := 0x8000, sts := [0, 0x0301], shown := [true, true] } { kind := 1, begun := true } = true := by
  decide +kernel

theorem witness_PortsJoinHopAndGoDown_1 : (fun (s : State) (τ : Nat) (a major minor sysid pos topo modules clk : Nat) => decide ((s.lnkOn = true) ∧ (a < 2) ∧ (s.rd bLNK (LNK_PORT_STAT_LANES_UP a) ≠ 0) ∧ (s.peerCause a major sysid pos topo modules clk ≠ 0)) &&
    ran (.hello τ a major minor sysid pos topo modules clk) s (fun t => decide (
    t.rd bLNK (LNK_PORT_STAT_PSTATE a) = 4 ∧ t.rd bLNK (LNK_PORT_STAT_CAUSE a) = s.peerCause a major sysid pos topo modules clk)))
    ({ st [(0x12, COM_STATE_FSM, 2), (0x12, LNK_PORT_STAT_PSTATE 0, 3), (0x12, LNK_PORT_STAT_PSTATE 1, 3), (0x12, LNK_PORT_STAT_LANES_UP 0, 15), (0x12, LNK_PORT_STAT_LANES_UP 1, 15), (0x12, LNK_PORT_STAT_PSTATE 1, 2)] with lnk := { modules := 2 } }) 0 1 0 0 9 1 0 2 2 = true := by
  decide +kernel

theorem witness_PortsJoinHopAndGoDown_2 : (fun (s : State) (τ : Nat) => decide ((s.lnkOn = true) ∧ (s.modulePos ≠ 0) ∧ ((s.at τ).due perBeat 10000 = true) ∧ (s.portUp (s.routeTo 0) = true) ∧ ((s.linkPort (s.routeTo 0)).replay.length < 64)) &&
    ran (.heartbeatSend τ) s (fun t => decide (
    (t.linkPort (s.routeTo 0)).replay = (s.linkPort (s.routeTo 0)).replay ++
          [((s.linkPort (s.routeTo 0)).tx, 0, { type := 0x41, src := s.modulePos, arg := s.modulePos })])))
    ({ st [(0x12, COM_STATE_FSM, 2), (0x12, LNK_PORT_STAT_PSTATE 0, 3), (0x12, LNK_PORT_STAT_PSTATE 1, 3), (0x12, LNK_PORT_STAT_LANES_UP 0, 15), (0x12, LNK_PORT_STAT_LANES_UP 1, 15), (0x12, LNK_SYSCFG_POSITION, 1)] with lnk := { modules := 2 } }) 0  = true := by
  decide +kernel

theorem witness_PortsJoinHopAndGoDown_3 : (fun (s : State) (τ : Nat) (a n : Nat) => decide ((s.portUp a = true) ∧ ((s.linkPort a).wait = [])) &&
    ran (.lack τ a n) s (fun t => decide (
    (t.linkPort a).replay = acked n (s.linkPort a).replay ∧ (t.linkPort a).tx = (s.linkPort a).tx ∧ t.out = s.out)))
    ({ st [(0x12, COM_STATE_FSM, 2), (0x12, LNK_PORT_STAT_PSTATE 0, 3), (0x12, LNK_PORT_STAT_PSTATE 1, 3), (0x12, LNK_PORT_STAT_LANES_UP 0, 15), (0x12, LNK_PORT_STAT_LANES_UP 1, 15)] with lnk := { ports := [(1, { tx := 9, replay := [(7, 0, { type := 1 }), (8, 0, { type := 1 })] })] } }) 0 1 7 = true := by
  decide +kernel

theorem witness_PortsJoinHopAndGoDown_4 : (fun (s : State) (τ : Nat) (a n : Nat) => decide ((s.portUp a = true) ∧ (((s.linkPort a).replay.dropWhile (fun r => r.1 != n)).any (fun r => decide (8 ≤ r.2.1)) = false)) &&
    ran (.lnak τ a n) s (fun t => decide (
    (t.linkPort a).replay = (s.linkPort a).replay.takeWhile (fun r => r.1 != n) ++ ((s.linkPort a).replay.dropWhile (fun r => r.1 != n)).map (fun r => (r.1, r.2.1 + 1, r.2.2)) ∧
        t.cnt bLNK (LNK_CNT_REPLAY a) = satInc (s.cnt bLNK (LNK_CNT_REPLAY a)) ((s.linkPort a).replay.dropWhile (fun r => r.1 != n)).length)))
    ({ st [(0x12, COM_STATE_FSM, 2), (0x12, LNK_PORT_STAT_PSTATE 0, 3), (0x12, LNK_PORT_STAT_PSTATE 1, 3), (0x12, LNK_PORT_STAT_LANES_UP 0, 15), (0x12, LNK_PORT_STAT_LANES_UP 1, 15)] with lnk := { ports := [(1, { tx := 9, replay := [(7, 8, { type := 1 }), (8, 7, { type := 1 })] })] } }) 0 1 8 = true := by
  decide +kernel

theorem witness_PortsJoinHopAndGoDown_5 : (fun (s : State) (τ : Nat) (a n : Nat) => decide ((s.portUp a = true) ∧ (((s.linkPort a).replay.dropWhile (fun r => r.1 != n)).any (fun r => decide (8 ≤ r.2.1)) = true)) &&
    ran (.lnak τ a n) s (fun t => decide (
    t.rd bLNK (LNK_PORT_STAT_PSTATE a) = (if s.rd bLNK (LNK_PORT_STAT_LANES_UP a) = 0 then 0 else 2) ∧
        t.cnt bLNK (LNK_CNT_DOWN a) = satInc (s.cnt bLNK (LNK_CNT_DOWN a)) 1)))
    ({ st [(0x12, COM_STATE_FSM, 2), (0x12, LNK_PORT_STAT_PSTATE 0, 3), (0x12, LNK_PORT_STAT_PSTATE 1, 3), (0x12, LNK_PORT_STAT_LANES_UP 0, 15), (0x12, LNK_PORT_STAT_LANES_UP 1, 15)] with lnk := { ports := [(1, { tx := 9, replay := [(7, 8, { type := 1 }), (8, 7, { type := 1 })] })] } }) 0 1 7 = true := by
  decide +kernel

theorem witness_PortsJoinHopAndGoDown_6 : (fun (s : State) (τ : Nat) (a : Nat) (gap : Bool) => decide ((s.portUp a = true)) &&
    ran (.frameBadCrc τ a gap) s (fun t => decide (
    t.out = [.frame a 0 true { type := 0x7F, src := s.modulePos, dest := 0xFF, arg := 0 } (Frame.bytes { type := 0x7F, src := s.modulePos, dest := 0xFF, arg := 0 } 0 true)] ∧ t.cnt bLNK (LNK_CNT_CRC a) = 1)))
    ({ st [(0x12, COM_STATE_FSM, 2), (0x12, LNK_PORT_STAT_PSTATE 0, 3), (0x12, LNK_PORT_STAT_PSTATE 1, 3), (0x12, LNK_PORT_STAT_LANES_UP 0, 15), (0x12, LNK_PORT_STAT_LANES_UP 1, 15)] with free := 0 }) 0 1 false = true := by
  decide +kernel

theorem witness_PortsJoinHopAndGoDown_7 : (fun (s : State) (τ : Nat) (a type src dest arg tag : Nat) (poison : Bool) (data : List Int) => decide ((s.portUp a = true) ∧ (dest ≠ s.modulePos) ∧ (dest ≠ 0xFF) ∧ (s.portUp (1 - a) = true) ∧ ((s.linkPort (1 - a)).replay.length < 64)) &&
    ran (.frameForward τ a type src dest arg tag poison true data) s (fun t => decide (
    (t.linkPort (1 - a)).replay = (s.linkPort (1 - a)).replay ++ [((s.linkPort (1 - a)).tx, 0, { type := type, src := src, dest := dest, arg := arg, tag := tag, poison := poison, data := data })] ∧
        t.cnt bLNK LNK_CNT_FWD = satInc (s.cnt bLNK LNK_CNT_FWD) 1 ∧ (t.linkPort a).rx = ((s.linkPort a).rx + 1) % 65536)))
    ({ st [(0x12, COM_STATE_FSM, 2), (0x12, LNK_PORT_STAT_PSTATE 0, 3), (0x12, LNK_PORT_STAT_PSTATE 1, 3), (0x12, LNK_PORT_STAT_LANES_UP 0, 15), (0x12, LNK_PORT_STAT_LANES_UP 1, 15)] with free := 0 }) 0 1 1 2 3 4 5 true [6] = true := by
  decide +kernel

theorem witness_PortsJoinHopAndGoDown_8 : (fun (s : State) (τ : Nat) (a type src dest arg tag : Nat) (poison : Bool) (data : List Int) (h : Frame) => decide ((s.portUp a = true) ∧ (dest ≠ s.modulePos) ∧ (h = { type := type, src := src, dest := dest, arg := arg, tag := tag, poison := poison, data := data }) ∧ (dest = 0xFF → s.passesOn a h = true) ∧ (s.portUp (1 - a) = true)) &&
    ran (.frameForward τ a type src dest arg tag poison false data) s (fun t => decide (
    t.cnt bLNK (LNK_CNT_CRC a) = 1 ∧ t.out.length = 2 ∧ (t.linkPort a).rx = 0)))
    ({ st [(0x12, COM_STATE_FSM, 2), (0x12, LNK_PORT_STAT_PSTATE 0, 3), (0x12, LNK_PORT_STAT_PSTATE 1, 3), (0x12, LNK_PORT_STAT_LANES_UP 0, 15), (0x12, LNK_PORT_STAT_LANES_UP 1, 15)] with free := 0 }) 0 1 1 2 0xFF 4 5 true [6] { type := 1, src := 2, dest := 0xFF, arg := 4, tag := 5, poison := true, data := [6] } = true := by
  decide +kernel

theorem witness_PortsJoinHopAndGoDown_9 : (fun (s : State) (τ : Nat) (a : Nat) => decide ((s.portUp a = true) ∧ ((s.linkPort a).rxAt + 30000 ≤ (s.at τ).now)) &&
    ran (.linkPortTimeout τ a) s (fun t => decide (
    t.rd bLNK (LNK_PORT_STAT_PSTATE a) = (if s.rd bLNK (LNK_PORT_STAT_LANES_UP a) = 0 then 0 else 2) ∧
        t.cnt bLNK (LNK_CNT_DOWN a) = satInc (s.cnt bLNK (LNK_CNT_DOWN a)) 1)))
    ({ st [(0x12, COM_STATE_FSM, 2), (0x12, LNK_PORT_STAT_PSTATE 0, 3), (0x12, LNK_PORT_STAT_PSTATE 1, 3), (0x12, LNK_PORT_STAT_LANES_UP 0, 15), (0x12, LNK_PORT_STAT_LANES_UP 1, 15)] with now := 30000 }) 0 1 = true := by
  decide +kernel

theorem witness_PortsJoinHopAndGoDown_10 : (fun (s : State) (τ : Nat) (a : Nat) => decide (((s.at τ).now < (s.linkPort a).rxAt + 30000)) &&
    ranTo (.linkPortTimeout τ a) s (s.at τ))
    ({ st [(0x12, COM_STATE_FSM, 2), (0x12, LNK_PORT_STAT_PSTATE 0, 3), (0x12, LNK_PORT_STAT_PSTATE 1, 3), (0x12, LNK_PORT_STAT_LANES_UP 0, 15), (0x12, LNK_PORT_STAT_LANES_UP 1, 15)] with now := 29999 }) 0 1 = true := by
  decide +kernel

theorem witness_PortsJoinHopAndGoDown_11 : (fun (s : State) (τ : Nat) (i v : Nat) => decide ((s.mgmtOrHost i = true) ∧ (s.domOn bLNK = true) ∧ (bits v 16 16 = 0xA5C3) ∧ (bit v 8 = 1) ∧ (s.lnkOn = true) ∧ (bits v 0 4 ≠ s.modulePos)) &&
    ranTo (.lnkResetreq τ i v) s ((s.at τ).sendFrame { type := 0x50, src := s.modulePos, dest := bits v 0 4 }))
    ({ st [(0x12, COM_STATE_FSM, 2), (0x12, LNK_PORT_STAT_PSTATE 0, 3), (0x12, LNK_PORT_STAT_PSTATE 1, 3), (0x12, LNK_PORT_STAT_LANES_UP 0, 15), (0x12, LNK_PORT_STAT_LANES_UP 1, 15), (0, PWR_PD_STAT_PSTATE (domOf bLNK), 2)] with free := 0 }) 0 1 0xA5C30101 = true := by
  decide +kernel

theorem witness_PortsJoinHopAndGoDown_12 : (fun (s : State) (τ : Nat) (i v : Nat) => decide ((s.mgmtOrHost i = false)) &&
    ranTo (.lnkResetreq τ i v) s ((s.at τ).deny i true 0x30012001E0))
    ({}) 0 0xA0 0xA5C30101 = true := by
  decide +kernel

theorem witness_PortsJoinHopAndGoDown_13 : (fun (s : State) (τ : Nat) (i v : Nat) => decide ((s.mgmtOrHost i = true) ∧ (s.domOn bLNK = true) ∧ (bits v 16 16 = 0xA5C3)) &&
    ranTo (.lnkAssign τ i v) s ((s.at τ).idEvent [(0x140, leBytes 8 (s.rd64 bLNK LNK_SYSID_LO LNK_SYSID_HI)), (0x148, [bits v 0 4, bit v 8])]))
    ({ st [(0x12, COM_STATE_FSM, 2), (0x12, LNK_PORT_STAT_PSTATE 0, 3), (0x12, LNK_PORT_STAT_PSTATE 1, 3), (0x12, LNK_PORT_STAT_LANES_UP 0, 15), (0x12, LNK_PORT_STAT_LANES_UP 1, 15), (0, PWR_PD_STAT_PSTATE (domOf bLNK), 2)] with sys := { idWriting := some (0, []) } }) 0 1 0xA5C30101 = true := by
  decide +kernel

theorem witness_PortsJoinHopAndGoDown_14 : (fun (s : State) (τ : Nat) (i v : Nat) => decide ((s.mgmtOrHost i = true) ∧ (bits v 16 16 ≠ 0xA5C3)) &&
    ranTo (.lnkAssign τ i v) s (s.at τ))
    ({}) 0 5 0 = true := by
  decide +kernel

/-- The peer's protocol is a constant without a value here, so the two meetings that read it are shown up to the join. -/
theorem witness_PortsJoinHopAndGoDown_join : (fun (s : State) => s.lnkOn && decide (s.rd bLNK (LNK_PORT_STAT_LANES_UP 1) ≠ 0))
    { st [(0x12, COM_STATE_FSM, 2), (0x12, LNK_PORT_STAT_PSTATE 0, 3), (0x12, LNK_PORT_STAT_PSTATE 1, 3), (0x12, LNK_PORT_STAT_LANES_UP 0, 15), (0x12, LNK_PORT_STAT_LANES_UP 1, 15), (0x12, LNK_PORT_STAT_PSTATE 1, 2)] with lnk := { modules := 2 } } = true := by
  decide +kernel

theorem witness_PortsJoinHopAndGoDown_cause : State.peerCause { st [(0x12, COM_STATE_FSM, 2), (0x12, LNK_PORT_STAT_PSTATE 0, 3), (0x12, LNK_PORT_STAT_PSTATE 1, 3), (0x12, LNK_PORT_STAT_LANES_UP 0, 15), (0x12, LNK_PORT_STAT_LANES_UP 1, 15), (0x12, LNK_PORT_STAT_PSTATE 1, 2)] with lnk := { modules := 2 } } 1 linkMajor 0 1 0 2 2 = 0 := by
  simp only [State.peerCause, Nat.max_self, Nat.min_self, Nat.sub_self]
  decide +kernel

theorem witness_PortsJoinHopAndGoDown_retry : (fun (s : State) => s.lnkOn && s.rd bLNK (LNK_PORT_STAT_PSTATE 1) == 4 && decide ((s.linkPort 1).helloAt + 100000000 ≤ s.now))
    { st [(0x12, COM_STATE_FSM, 2), (0x12, LNK_PORT_STAT_PSTATE 0, 3), (0x12, LNK_PORT_STAT_PSTATE 1, 3), (0x12, LNK_PORT_STAT_LANES_UP 0, 15), (0x12, LNK_PORT_STAT_LANES_UP 1, 15), (0x12, LNK_PORT_STAT_PSTATE 1, 4)] with now := 100000000 } = true := by
  decide +kernel

theorem witness_MembershipClockTimeAndPosition_1 : (fun (s : State) (τ : Nat) (a src : Nat) => decide ((s.portUp a = true) ∧ (s.modulePos = 0) ∧ (src < 16) ∧ (s.joined src = false)) &&
    ran (.heartbeat τ a src) s (fun t => decide (
    t.joined src = true ∧ t.serves src = s.serves src)))
    ({ st [(0x12, COM_STATE_FSM, 2), (0x12, LNK_PORT_STAT_PSTATE 0, 3), (0x12, LNK_PORT_STAT_PSTATE 1, 3), (0x12, LNK_PORT_STAT_LANES_UP 0, 15), (0x12, LNK_PORT_STAT_LANES_UP 1, 15), (0x12, LNK_MEMBERS_JOINED, 1)] with lnk := { modules := 2 } }) 0 1 15 = true := by
  decide +kernel

theorem witness_MembershipClockTimeAndPosition_2 : (fun (s : State) (τ : Nat) (a src : Nat) => decide ((s.portUp a = true) ∧ (s.modulePos = 0 → s.joined src = true)) &&
    ranTo (.heartbeat τ a src) s ((s.at τ).rxFrame a { type := 0x41, src := src, dest := s.modulePos, arg := src }))
    ({ st [(0x12, COM_STATE_FSM, 2), (0x12, LNK_PORT_STAT_PSTATE 0, 3), (0x12, LNK_PORT_STAT_PSTATE 1, 3), (0x12, LNK_PORT_STAT_LANES_UP 0, 15), (0x12, LNK_PORT_STAT_LANES_UP 1, 15), (0x12, LNK_MEMBERS_JOINED, 3)] with lnk := { modules := 2 } }) 0 1 1 = true := by
  decide +kernel

theorem witness_MembershipClockTimeAndPosition_3 : (fun (s : State) (τ : Nat) (a joined serving : Nat) => decide ((s.portUp a = true) ∧ (s.modulePos ≠ 0) ∧ (((modulesOf (s.rd bLNK LNK_MEMBERS_IN)).filter (fun m => bit serving m == 0 && m != s.modulePos)) = [])) &&
    ran (.members τ a joined serving) s (fun t => decide (
    t.rd bLNK LNK_MEMBERS_JOINED = joined % 65536 ∧ t.rd bLNK LNK_MEMBERS_IN = serving % 65536 ∧ t.rd bLNK LNK_SVC_IN_SERVICE = bit serving s.modulePos ∧
        t.rd bLNK LNK_CINCH_DELAY = delayOf s.lnk.modules s.isRing joined % 65536)))
    ({ st [(0x12, COM_STATE_FSM, 2), (0x12, LNK_PORT_STAT_PSTATE 0, 3), (0x12, LNK_PORT_STAT_PSTATE 1, 3), (0x12, LNK_PORT_STAT_LANES_UP 0, 15), (0x12, LNK_PORT_STAT_LANES_UP 1, 15), (0x12, LNK_SYSCFG_POSITION, 1), (0x12, LNK_MEMBERS_IN, 1)] with lnk := { modules := 2 } }) 0 0 3 3 = true := by
  decide +kernel

theorem witness_MembershipClockTimeAndPosition_4 : (fun (s : State) (τ : Nat) (m : Nat) => decide (((s.at τ).now < Store.get 0 s.lnk.heard m + 50000)) &&
    ranTo (.moduleLost τ m) s (s.at τ))
    ({ st [(0x12, COM_STATE_FSM, 2), (0x12, LNK_PORT_STAT_PSTATE 0, 3), (0x12, LNK_PORT_STAT_PSTATE 1, 3), (0x12, LNK_PORT_STAT_LANES_UP 0, 15), (0x12, LNK_PORT_STAT_LANES_UP 1, 15), (0x12, LNK_MEMBERS_JOINED, 3), (0x12, LNK_MEMBERS_IN, 3)] with now := 49999, lnk := { modules := 2 } }) 0 1 = true := by
  decide +kernel

theorem witness_MembershipClockTimeAndPosition_5 : (fun (s : State) (τ : Nat) => decide ((s.clkSel = 2) ∧ (s.lnk.clkLane = none)) &&
    ran (.recoveredClockLock τ) s (fun t => decide (
    t.lnk.clkLane = (bitList 4 (s.rd bLNK (LNK_PORT_STAT_LANES_UP 0))).head?)))
    (st [(1, RST_STRAPS_CLK_SEL, 2), (0x12, LNK_PORT_STAT_LANES_UP 0, 12)]) 0  = true := by
  decide +kernel

theorem witness_MembershipClockTimeAndPosition_6 : (fun (s : State) (τ : Nat) (k j : Nat) => decide ((s.lnk.clkLane = some k) ∧ (((bitList 4 (s.rd bLNK (LNK_PORT_STAT_LANES_UP 0))).filter (· != k)).head? = some j)) &&
    ran (.recoveredClockLoss τ) s (fun t => decide (
    t.lnk.clkLane = some j ∧ t.inService = s.inService)))
    ({ st [(0x12, LNK_PORT_STAT_LANES_UP 0, 12)] with lnk := { clkLane := some 2 } }) 0 2 3 = true := by
  decide +kernel

theorem witness_MembershipClockTimeAndPosition_7 : (fun (s : State) (τ : Nat) (a value : Nat) (trips : List Nat) => decide ((s.portUp a = true) ∧ (s.modulePos ≠ 0) ∧ (s.joined s.modulePos = true)) &&
    ran (.timeFrame τ a value trips) s (fun t => decide (
    t.tb.time = (value + (trips.map (· / 2)).foldl (· + ·) 0) % (2 ^ 64 * (1000000000 * 4294967296)) ∧ t.tb.holdFrom = some t.now ∧
        t.rd bTIM TIM_STAT_SOURCE = 3 ∧ t.rd bTIM TIM_STAT_VALID = 1 ∧ t.rd bTIM TIM_STAT_HOLDOVER = 0)))
    ({ st [(0x12, COM_STATE_FSM, 2), (0x12, LNK_PORT_STAT_PSTATE 0, 3), (0x12, LNK_PORT_STAT_PSTATE 1, 3), (0x12, LNK_PORT_STAT_LANES_UP 0, 15), (0x12, LNK_PORT_STAT_LANES_UP 1, 15), (0x12, LNK_SYSCFG_POSITION, 1), (0x12, LNK_MEMBERS_JOINED, 3)] with lnk := { modules := 2 } }) 0 0 1000 [5, 4] = true := by
  decide +kernel

theorem witness_MembershipClockTimeAndPosition_8 : (fun (s : State) (τ : Nat) => decide ((s.lnkOn = true) ∧ (s.modulePos = 0) ∧ ((s.at τ).due perTime 1000000 = true)) &&
    ranTo (.timeSend τ) s (((s.at τ).mark perTime).sendFrame { type := 0x31, dest := 0xFF, arg := (s.at τ).tb.time }))
    ({ st [(0x12, COM_STATE_FSM, 2), (0x12, LNK_PORT_STAT_PSTATE 0, 3), (0x12, LNK_PORT_STAT_PSTATE 1, 3), (0x12, LNK_PORT_STAT_LANES_UP 0, 15), (0x12, LNK_PORT_STAT_LANES_UP 1, 15)] with free := 0 }) 0  = true := by
  decide +kernel

theorem witness_MembershipClockTimeAndPosition_9 : (fun (s : State) (τ : Nat) => decide (((s.at τ).due perTime 1000000 = false)) &&
    ranTo (.timeSend τ) s (s.at τ))
    ({ now := 999999, sys := { lastAt := [(1, 1)] } }) 0  = true := by
  decide +kernel

theorem witness_MembershipClockTimeAndPosition_10 : (fun (s : State) (τ : Nat) => decide (((s.at τ).due perPos 10000 = false)) &&
    ranTo (.positionSend τ) s (s.at τ))
    ({ now := 9999, sys := { lastAt := [(2, 1)] } }) 0  = true := by
  decide +kernel

theorem witness_MembershipClockTimeAndPosition_11 : (fun (s : State) (τ : Nat) (v u : State) => decide ((s.lnkOn = true) ∧ (s.modulePos = 0) ∧ ((s.at τ).due perPos 10000 = true) ∧ ((s.at τ).mark perPos = v) ∧ ((if s.isOn (bSTP 0) then v.sendFrame { type := 0x30, dest := 0xFF, arg := 0, data := [v.pos 0, v.speed 0 * 256, (v.tb.time : Int)] } else v) = u)) &&
    ranTo (.positionSend τ) s (if s.isOn (bSTP 1) then u.sendFrame { type := 0x30, dest := 0xFF, arg := 1, data := [u.pos 1, u.speed 1 * 256, (u.tb.time : Int)] } else u))
    ({ st [(0x12, COM_STATE_FSM, 2), (0x12, LNK_PORT_STAT_PSTATE 0, 3), (0x12, LNK_PORT_STAT_PSTATE 1, 3), (0x12, LNK_PORT_STAT_LANES_UP 0, 15), (0x12, LNK_PORT_STAT_LANES_UP 1, 15), (0x1D, COM_STATE_FSM, 2)] with free := 0 }) 0 (State.mark ({ st [(0x12, COM_STATE_FSM, 2), (0x12, LNK_PORT_STAT_PSTATE 0, 3), (0x12, LNK_PORT_STAT_PSTATE 1, 3), (0x12, LNK_PORT_STAT_LANES_UP 0, 15), (0x12, LNK_PORT_STAT_LANES_UP 1, 15), (0x1D, COM_STATE_FSM, 2)] with free := 0 }) perPos) (State.mark ({ st [(0x12, COM_STATE_FSM, 2), (0x12, LNK_PORT_STAT_PSTATE 0, 3), (0x12, LNK_PORT_STAT_PSTATE 1, 3), (0x12, LNK_PORT_STAT_LANES_UP 0, 15), (0x12, LNK_PORT_STAT_LANES_UP 1, 15), (0x1D, COM_STATE_FSM, 2)] with free := 0 }) perPos) = true := by
  decide +kernel

theorem witness_MembershipClockTimeAndPosition_12 : (fun (s : State) (τ : Nat) (a p : Nat) (cnt spd : Int) (sample : Nat) => decide ((s.portUp a = true) ∧ (s.modulePos ≠ 0) ∧ (p < 2) ∧ (s.isFollower p = true)) &&
    ran (.position τ a p cnt spd sample) s (fun t => decide (
    (t.followP p).sys = cnt ∧ (t.followP p).spd = spd ∧ (t.followP p).seen = true)))
    ({ st [(0x12, COM_STATE_FSM, 2), (0x12, LNK_PORT_STAT_PSTATE 0, 3), (0x12, LNK_PORT_STAT_PSTATE 1, 3), (0x12, LNK_PORT_STAT_LANES_UP 0, 15), (0x12, LNK_PORT_STAT_LANES_UP 1, 15), (0x12, LNK_SYSCFG_POSITION, 1), (0x12, LNK_POSCFG_FOLLOW, 2)] with free := 0 }) 0 0 1 (-256) 512 0 = true := by
  decide +kernel

theorem witness_MembershipClockTimeAndPosition_13 : (fun (s : State) (τ : Nat) (a p : Nat) (cnt spd : Int) (sample : Nat) => decide ((s.portUp a = true) ∧ (s.modulePos ≠ 0) ∧ (p < 2) ∧ (s.isFollower p = false) ∧ (bit (s.rd bLNK LNK_POSCFG_ALIGNED) p = 0) ∧ ((s.followP p).seen = true) ∧ (15 ≤ (s.followP p).good) ∧ ((cnt - ((s.at τ).ownPos p - ((s.at τ).speedFrac p).1 * (s.at τ).sinceTb sample * 256 / (((s.at τ).speedFrac p).2 : Int)) + 128) / 256 = (s.followP p).off)) &&
    ran (.position τ a p cnt spd sample) s (fun t => decide (
    bit (t.rd bLNK LNK_POSCFG_ALIGNED) p = 1 ∧ t.rd bLNK (LNK_POSOFF p) = toCode 32 (s.followP p).off)))
    ({ st [(0x12, COM_STATE_FSM, 2), (0x12, LNK_PORT_STAT_PSTATE 0, 3), (0x12, LNK_PORT_STAT_PSTATE 1, 3), (0x12, LNK_PORT_STAT_LANES_UP 0, 15), (0x12, LNK_PORT_STAT_LANES_UP 1, 15), (0x12, LNK_SYSCFG_POSITION, 1)] with follow := [(1, { off := -3, seen := true, good := 15 })] }) 0 0 1 (-768) 0 0 = true := by
  decide +kernel

theorem witness_MembershipClockTimeAndPosition_14 : (fun (s : State) (τ : Nat) (a p : Nat) (cnt spd : Int) (sample : Nat) => decide ((s.portUp a = true) ∧ (s.modulePos ≠ 0) ∧ (p < 2) ∧ (s.isFollower p = false) ∧ (bit (s.rd bLNK LNK_POSCFG_ALIGNED) p = 1) ∧ (63 ≤ (s.followP p).bad) ∧ (2 < ((cnt - ((s.at τ).ownPos p - ((s.at τ).speedFrac p).1 * (s.at τ).sinceTb sample * 256 / (((s.at τ).speedFrac p).2 : Int)) + 128) / 256 - sext 32 (s.rd bLNK (LNK_POSOFF p))).natAbs)) &&
    ran (.position τ a p cnt spd sample) s (fun t => decide (
    bit (t.rd bLNK LNK_POSCFG_ALIGNED) p = 0)))
    ({ st [(0x12, COM_STATE_FSM, 2), (0x12, LNK_PORT_STAT_PSTATE 0, 3), (0x12, LNK_PORT_STAT_PSTATE 1, 3), (0x12, LNK_PORT_STAT_LANES_UP 0, 15), (0x12, LNK_PORT_STAT_LANES_UP 1, 15), (0x12, LNK_SYSCFG_POSITION, 1), (0x12, LNK_POSCFG_ALIGNED, 3)] with follow := [(1, { off := -3, seen := true, bad := 63 })] }) 0 0 1 (-768) 0 0 = true := by
  decide +kernel

theorem witness_MembershipClockTimeAndPosition_15 : (fun (s : State) (τ : Nat) (i v : Nat) => decide ((s.regAllowed i true bLNK 0x160 = true) ∧ (bit v 0 = 1) ∧ (s.lnkOn = true) ∧ (s.modulePos = 0)) &&
    ran (.lnkSsnapGo τ i v) s (fun t => decide (
    t.lnk.snap = some (s.rd bLNK LNK_EPOCH_CFG_PORT, s.rdS64 bLNK LNK_SSNAP_POS_LO LNK_SSNAP_POS_HI))))
    ({ st [(0x12, COM_STATE_FSM, 2), (0x12, LNK_PORT_STAT_PSTATE 0, 3), (0x12, LNK_PORT_STAT_PSTATE 1, 3), (0x12, LNK_PORT_STAT_LANES_UP 0, 15), (0x12, LNK_PORT_STAT_LANES_UP 1, 15), (0x12, LNK_SSNAP_POS_HI, 0xFFFFFFFF), (0x12, LNK_EPOCH_CFG_PORT, 1)] with free := 0 }) 0 1 1 = true := by
  decide +kernel

theorem witness_MembershipClockTimeAndPosition_16 : (fun (s : State) (τ : Nat) (a p : Nat) (pos : Int) => decide ((s.portUp a = true)) &&
    ran (.snapFrame τ a p pos) s (fun t => decide (
    t.lnk.snap = (if s.inService then some (p, pos) else s.lnk.snap))))
    ({ st [(0x12, COM_STATE_FSM, 2), (0x12, LNK_PORT_STAT_PSTATE 0, 3), (0x12, LNK_PORT_STAT_PSTATE 1, 3), (0x12, LNK_PORT_STAT_LANES_UP 0, 15), (0x12, LNK_PORT_STAT_LANES_UP 1, 15), (0x12, LNK_SVC_IN_SERVICE, 1)] with free := 0 }) 0 0 1 (-5) = true := by
  decide +kernel

theorem witness_MembershipClockTimeAndPosition_17 : (fun (s : State) (τ : Nat) (p : Nat) (x : Int) => decide ((s.lnk.snap = some (p, x)) ∧ (x ≤ (s.at τ).pos p) ∧ (s.inService = true)) &&
    ranTo (.systemSnapshot τ) s (({ s.at τ with lnk := { s.lnk with snap := none } } : State).snapAll))
    ({ st [(0x12, COM_STATE_FSM, 2), (0x12, LNK_PORT_STAT_PSTATE 0, 3), (0x12, LNK_PORT_STAT_PSTATE 1, 3), (0x12, LNK_PORT_STAT_LANES_UP 0, 15), (0x12, LNK_PORT_STAT_LANES_UP 1, 15), (0x12, LNK_SVC_IN_SERVICE, 1)] with lnk := { snap := some (1, -5) } }) 0 1 (-5) = true := by
  decide +kernel

theorem witness_MembershipClockTimeAndPosition_18 : (fun (s : State) (τ : Nat) (a src part p c verdict : Nat) (degraded : Bool) => decide ((s.portUp a = true) ∧ (s.slotOfPart p part = none)) &&
    ran (.subverdict τ a src part p c verdict degraded) s (fun t => decide (
    t.cnt bLNK LNK_CNT_SUBV_RX = satInc (s.cnt bLNK LNK_CNT_SUBV_RX) 1 ∧ t.cnt bLNK LNK_CNT_SUBV_LATE = satInc (s.cnt bLNK LNK_CNT_SUBV_LATE) 1 ∧ t.merge = s.merge)))
    ({ st [(0x12, COM_STATE_FSM, 2), (0x12, LNK_PORT_STAT_PSTATE 0, 3), (0x12, LNK_PORT_STAT_PSTATE 1, 3), (0x12, LNK_PORT_STAT_LANES_UP 0, 15), (0x12, LNK_PORT_STAT_LANES_UP 1, 15)] with free := 0 }) 0 0 1 7 1 3 1 true = true := by
  decide +kernel

theorem witness_MembershipClockTimeAndPosition_19 : (fun (s : State) (τ : Nat) (a src part p c verdict k : Nat) (degraded : Bool) (x : Slot) (m : Merge) => decide ((s.portUp a = true) ∧ (s.slotOfPart p part = some (k, x)) ∧ (s.mergeAt p k = some m) ∧ (m.committed = false)) &&
    ranTo (.subverdict τ a src part p c verdict degraded) s (((((s.at τ).rxFrame a { type := 0x60, src := src, dest := s.modulePos, arg := part, data := [(p : Int), (c : Int), (verdict : Int), if degraded then 1 else 0] }).inc bLNK LNK_CNT_SUBV_RX).checkReport
        p part c verdict 0 degraded).settleCtxs))
    ({ st [(0x12, COM_STATE_FSM, 2), (0x12, LNK_PORT_STAT_PSTATE 0, 3), (0x12, LNK_PORT_STAT_PSTATE 1, 3), (0x12, LNK_PORT_STAT_LANES_UP 0, 15), (0x12, LNK_PORT_STAT_LANES_UP 1, 15), (0x1F, COM_STATE_FSM, 2)] with ejt := [(1, { slots := [(5, some { part := 7, start := 0, deadline := 0 })] })], merge := [(64 + 5, some { part := 7, declared := 8 })] }) 0 0 1 7 1 3 1 5 false { part := 7, start := 0, deadline := 0 } { part := 7, declared := 8 } = true := by
  decide +kernel

theorem witness_MembershipClockTimeAndPosition_lost : (fun (s : State) => s.lnkOn && s.modulePos == 0 && s.joined 1 && decide (s.now = 50000) && s.lnk.exch.isEmpty)
    { st [(0x12, COM_STATE_FSM, 2), (0x12, LNK_PORT_STAT_PSTATE 0, 3), (0x12, LNK_PORT_STAT_PSTATE 1, 3), (0x12, LNK_PORT_STAT_LANES_UP 0, 15), (0x12, LNK_PORT_STAT_LANES_UP 1, 15), (0x12, LNK_MEMBERS_JOINED, 3), (0x12, LNK_MEMBERS_IN, 3)] with now := 50000, lnk := { modules := 2 } } = true := by
  decide +kernel

theorem witness_MembershipClockTimeAndPosition_alone : (fun (s : State) => s.lnkOn && s.modulePos == 1 && s.joined 1 && decide (s.now = 50000))
    { st [(0x12, COM_STATE_FSM, 2), (0x12, LNK_PORT_STAT_PSTATE 0, 3), (0x12, LNK_PORT_STAT_PSTATE 1, 3), (0x12, LNK_PORT_STAT_LANES_UP 0, 15), (0x12, LNK_PORT_STAT_LANES_UP 1, 15), (0x12, LNK_SYSCFG_POSITION, 1), (0x12, LNK_MEMBERS_JOINED, 3), (0x12, LNK_MEMBERS_IN, 3)] with now := 50000, lnk := { modules := 2 } } = true := by
  decide +kernel

theorem witness_MembershipClockTimeAndPosition_last : (fun (s : State) => decide (s.lnk.clkLane = some 2) && ((bitList 4 (s.rd bLNK (LNK_PORT_STAT_LANES_UP 0))).filter (· != 2)).isEmpty)
    ({ st [(0x12, LNK_PORT_STAT_LANES_UP 0, 4), (0x12, LNK_SVC_IN_SERVICE, 1)] with lnk := { clkLane := some 2 } } : State) = true := by
  decide +kernel

theorem witness_EpochsAreAnnouncedVotedAndApplied_1 : (fun (s : State) (τ : Nat) (i v : Nat) => decide ((s.regAllowed i true bLNK 0x14C = true) ∧ (bit v 0 = 1) ∧ (s.lnkOn = true) ∧ ((s.at τ).announceCause ≠ 0)) &&
    ranTo (.lnkEpochGo τ i v) s ((s.at τ).wr bLNK LNK_EPOCH_STAT_CAUSE (s.at τ).announceCause))
    ({ st [(0x12, COM_STATE_FSM, 2), (0x12, LNK_PORT_STAT_PSTATE 0, 3), (0x12, LNK_PORT_STAT_PSTATE 1, 3), (0x12, LNK_PORT_STAT_LANES_UP 0, 15), (0x12, LNK_PORT_STAT_LANES_UP 1, 15)] with lnk := { modules := 3, epoch := some { num := 5, port := 1, pos := 0, voters := [0, 1, 2] } } }) 0 1 1 = true := by
  decide +kernel

theorem witness_EpochsAreAnnouncedVotedAndApplied_2 : (fun (s : State) (τ : Nat) (a src num cause act : Nat) (out : Bool) (e : Epoch) => decide ((s.portUp a = true) ∧ (s.lnk.epoch = some e) ∧ (s.modulePos = 0) ∧ (e.num = num) ∧ (e.committed = false) ∧ (src ∈ e.voters) ∧ (cause ≠ 0) ∧ (s.lnk.revert = false) ∧ (cfgRevert e.cfg = false)) &&
    ran (.vote τ a src num cause out act) s (fun t => decide (
    t.lnk.epoch = none ∧ t.rd bLNK LNK_EPOCH_STAT_ESTATE = 4 ∧ t.cnt bLNK LNK_CNT_EPOCH_ABORT = satInc (s.cnt bLNK LNK_CNT_EPOCH_ABORT) 1 ∧ t.jobNext = none ∧ t.rd bLNK LNK_EPOCH_STAT_CAUSE = 3)))
    ({ st [(0x12, COM_STATE_FSM, 2), (0x12, LNK_PORT_STAT_PSTATE 0, 3), (0x12, LNK_PORT_STAT_PSTATE 1, 3), (0x12, LNK_PORT_STAT_LANES_UP 0, 15), (0x12, LNK_PORT_STAT_LANES_UP 1, 15)] with lnk := { modules := 3, epoch := some { num := 5, port := 1, pos := 0, voters := [0, 1, 2] } } }) 0 1 1 5 0x0101 0 false { num := 5, port := 1, pos := 0, voters := [0, 1, 2] } = true := by
  decide +kernel

theorem witness_EpochsAreAnnouncedVotedAndApplied_3 : (fun (s : State) (τ : Nat) (a src num act : Nat) (out : Bool) (e : Epoch) => decide ((s.portUp a = true) ∧ (s.lnk.epoch = some e) ∧ (s.modulePos = 0) ∧ (e.num = num) ∧ (e.committed = false) ∧ (src ∈ e.voters) ∧ (e.voters.all (fun k => k == src || decide ((e.voteOf k).map Vote.cause = some 0)) = true) ∧ ((s.at τ).leadOk e.port 1 e.pos = true)) &&
    ran (.vote τ a src num 0 out act) s (fun t => decide (
    t.lnk.epoch.map (fun y => y.committed) = some true ∧ t.rd bLNK LNK_EPOCH_STAT_ESTATE = 2)))
    ({ st [(0x12, COM_STATE_FSM, 2), (0x12, LNK_PORT_STAT_PSTATE 0, 3), (0x12, LNK_PORT_STAT_PSTATE 1, 3), (0x12, LNK_PORT_STAT_LANES_UP 0, 15), (0x12, LNK_PORT_STAT_LANES_UP 1, 15)] with lnk := { modules := 3, epoch := some { num := 5, port := 1, pos := 256, voters := [0, 1, 2], votes := [(0, some {}), (2, some {})] } } }) 0 1 1 5 7 true { num := 5, port := 1, pos := 256, voters := [0, 1, 2], votes := [(0, some {}), (2, some {})] } = true := by
  decide +kernel

theorem witness_EpochsAreAnnouncedVotedAndApplied_4 : (fun (s : State) (τ : Nat) (e : Epoch) => decide ((s.lnk.epoch = some e) ∧ (s.modulePos = 0) ∧ (e.committed = false) ∧ (e.since + 1000000 ≤ (s.at τ).now) ∧ (e.voters.any (fun m => (e.voteOf m).isNone) = true) ∧ (s.lnk.revert = false) ∧ (cfgRevert e.cfg = false)) &&
    ran (.voteTimeout τ) s (fun t => decide (
    t.lnk.epoch = none ∧ t.rd bLNK LNK_EPOCH_STAT_ESTATE = 4 ∧ t.cnt bLNK LNK_CNT_EPOCH_ABORT = satInc (s.cnt bLNK LNK_CNT_EPOCH_ABORT) 1 ∧ t.jobNext = none ∧ t.rd bLNK LNK_EPOCH_STAT_CAUSE = 4)))
    ({ { st [(0x12, COM_STATE_FSM, 2), (0x12, LNK_PORT_STAT_PSTATE 0, 3), (0x12, LNK_PORT_STAT_PSTATE 1, 3), (0x12, LNK_PORT_STAT_LANES_UP 0, 15), (0x12, LNK_PORT_STAT_LANES_UP 1, 15)] with lnk := { modules := 3, epoch := some { num := 5, port := 1, pos := 0, voters := [0, 1, 2] } } } with now := 1000000 }) 0 { num := 5, port := 1, pos := 0, voters := [0, 1, 2] } = true := by
  decide +kernel

theorem witness_EpochsAreAnnouncedVotedAndApplied_5 : (fun (s : State) (τ : Nat) (e : Epoch) => decide ((s.lnk.epoch = some e) ∧ ((s.at τ).now < e.since + 1000000)) &&
    ranTo (.voteTimeout τ) s (s.at τ))
    ({ { st [(0x12, COM_STATE_FSM, 2), (0x12, LNK_PORT_STAT_PSTATE 0, 3), (0x12, LNK_PORT_STAT_PSTATE 1, 3), (0x12, LNK_PORT_STAT_LANES_UP 0, 15), (0x12, LNK_PORT_STAT_LANES_UP 1, 15)] with lnk := { modules := 3, epoch := some { num := 5, port := 1, pos := 0, voters := [0, 1, 2] } } } with now := 999999 }) 0 { num := 5, port := 1, pos := 0, voters := [0, 1, 2] } = true := by
  decide +kernel

theorem witness_EpochsAreAnnouncedVotedAndApplied_6 : (fun (s : State) (τ : Nat) (a num out : Nat) (acts : List Nat) (e : Epoch) => decide ((s.portUp a = true) ∧ (s.lnk.epoch = some e) ∧ (s.modulePos ≠ 0) ∧ (e.num = num)) &&
    ran (.commit τ a num out acts) s (fun t => decide (
    t.lnk.epoch = some { e with committed := true, out := out, acts := acts } ∧ t.rd bLNK LNK_EPOCH_STAT_ESTATE = 2)))
    ({ st [(0x12, COM_STATE_FSM, 2), (0x12, LNK_PORT_STAT_PSTATE 0, 3), (0x12, LNK_PORT_STAT_PSTATE 1, 3), (0x12, LNK_PORT_STAT_LANES_UP 0, 15), (0x12, LNK_PORT_STAT_LANES_UP 1, 15), (0x12, LNK_SYSCFG_POSITION, 1)] with lnk := { modules := 3, epoch := some { num := 5, port := 1, pos := 0, voters := [0, 1, 2] } } }) 0 0 5 4 [1, 2] { num := 5, port := 1, pos := 0, voters := [0, 1, 2] } = true := by
  decide +kernel

theorem witness_EpochsAreAnnouncedVotedAndApplied_7 : (fun (s : State) (τ : Nat) (a num cause refuser : Nat) (e : Epoch) => decide ((s.portUp a = true) ∧ (s.lnk.epoch = some e) ∧ (s.modulePos ≠ 0) ∧ (e.num = num)) &&
    ran (.abort τ a num cause refuser) s (fun t => decide (
    t.lnk.epoch = none ∧ t.rd bLNK LNK_EPOCH_STAT_ESTATE = 4 ∧ t.cnt bLNK LNK_CNT_EPOCH_ABORT = satInc (s.cnt bLNK LNK_CNT_EPOCH_ABORT) 1 ∧ t.jobNext = none ∧ t.rd bLNK LNK_EPOCH_STAT_CAUSE = cause % 256 ∧ t.rd bLNK LNK_EPOCH_STAT_REFUSER = refuser % 16)))
    ({ st [(0x12, COM_STATE_FSM, 2), (0x12, LNK_PORT_STAT_PSTATE 0, 3), (0x12, LNK_PORT_STAT_PSTATE 1, 3), (0x12, LNK_PORT_STAT_LANES_UP 0, 15), (0x12, LNK_PORT_STAT_LANES_UP 1, 15), (0x12, LNK_SYSCFG_POSITION, 1)] with lnk := { modules := 3, epoch := some { num := 5, port := 1, pos := 0, voters := [0, 1, 2] } } }) 0 0 5 3 2 { num := 5, port := 1, pos := 0, voters := [0, 1, 2] } = true := by
  decide +kernel

theorem witness_EpochsAreAnnouncedVotedAndApplied_8 : (fun (s : State) (τ : Nat) (e : Epoch) => decide ((s.lnk.epoch = some e) ∧ (e.pos ≤ (s.at τ).pos e.port) ∧ (e.committed = false) ∧ (s.modulePos = 0) ∧ (s.lnk.revert = false) ∧ (cfgRevert e.cfg = false)) &&
    ran (.epochApply τ) s (fun t => decide (
    t.lnk.epoch = none ∧ t.rd bLNK LNK_EPOCH_STAT_ESTATE = 4 ∧ t.cnt bLNK LNK_CNT_EPOCH_ABORT = satInc (s.cnt bLNK LNK_CNT_EPOCH_ABORT) 1 ∧ t.jobNext = none ∧ t.rd bLNK LNK_EPOCH_STAT_CAUSE = 5)))
    ({ st [(0x12, COM_STATE_FSM, 2), (0x12, LNK_PORT_STAT_PSTATE 0, 3), (0x12, LNK_PORT_STAT_PSTATE 1, 3), (0x12, LNK_PORT_STAT_LANES_UP 0, 15), (0x12, LNK_PORT_STAT_LANES_UP 1, 15)] with lnk := { modules := 3, epoch := some { num := 5, port := 1, pos := 0, voters := [0, 1, 2] } } }) 0 { num := 5, port := 1, pos := 0, voters := [0, 1, 2] } = true := by
  decide +kernel

theorem witness_EpochsAreAnnouncedVotedAndApplied_9 : (fun (s : State) (τ : Nat) (e : Epoch) => decide ((s.lnk.epoch = some e) ∧ ((s.at τ).pos e.port < e.pos)) &&
    ranTo (.epochApply τ) s (s.at τ))
    ({ st [(0x12, COM_STATE_FSM, 2), (0x12, LNK_PORT_STAT_PSTATE 0, 3), (0x12, LNK_PORT_STAT_PSTATE 1, 3), (0x12, LNK_PORT_STAT_LANES_UP 0, 15), (0x12, LNK_PORT_STAT_LANES_UP 1, 15)] with lnk := { modules := 3, epoch := some { num := 5, pos := 1 } } }) 0 { num := 5, pos := 1 } = true := by
  decide +kernel

theorem witness_EpochsAreAnnouncedVotedAndApplied_10 : (fun (s : State) (τ : Nat) => decide ((s.lnk.ending = true) ∧ (s.openSlots 0 = []) ∧ (s.openSlots 1 = [])) &&
    ran (.jobEnded τ) s (fun t => decide (
    t.jobRun = false ∧ t.lnk.ending = false ∧ t.rd 0x27 CAM_CTRL_STREAM = 0)))
    ({ st [(0x12, COM_STATE_FSM, 2), (0x12, LNK_PORT_STAT_PSTATE 0, 3), (0x12, LNK_PORT_STAT_PSTATE 1, 3), (0x12, LNK_PORT_STAT_LANES_UP 0, 15), (0x12, LNK_PORT_STAT_LANES_UP 1, 15), (0x12, LNK_EPOCH_STAT_JOB_RUN, 1), (0x27, CAM_CTRL_STREAM, 1)] with lnk := { ending := true } }) 0  = true := by
  decide +kernel

theorem witness_EpochsAreAnnouncedVotedAndApplied_11 : (fun (s : State) (τ : Nat) (a src : Nat) (u : Nat × List Int) => decide ((s.portUp a = true) ∧ (s.modulePos = 0) ∧ (src ≠ 0) ∧ (s.lnk.upg = some u) ∧ (Store.get 0 s.lnk.reports src = 0) ∧ (s.lnk.epoch.isSome = true)) &&
    ran (.upgradeReport τ a src false) s (fun t => decide (
    t.lnk.upg = none ∧ t.lnk.revert = true ∧ t.lnk.epoch = s.lnk.epoch)))
    ({ st [(0x12, COM_STATE_FSM, 2), (0x12, LNK_PORT_STAT_PSTATE 0, 3), (0x12, LNK_PORT_STAT_PSTATE 1, 3), (0x12, LNK_PORT_STAT_LANES_UP 0, 15), (0x12, LNK_PORT_STAT_LANES_UP 1, 15)] with lnk := { modules := 3, epoch := some { num := 5, port := 1, pos := 0, voters := [0, 1, 2] }, upg := some (0, []) } }) 0 1 1 (0, []) = true := by
  decide +kernel

theorem witness_EpochsAreAnnouncedVotedAndApplied_12 : (fun (s : State) (τ : Nat) (u : Nat × List Int) => decide ((s.lnk.upg = some u) ∧ (u.1 + 10000000000 ≤ (s.at τ).now) ∧ (s.lnk.mine = 0) ∧ (s.modulePos ≠ 0)) &&
    ran (.upgradeTimeout τ) s (fun t => decide (
    t.lnk.mine = 2)))
    ({ { st [(0x12, COM_STATE_FSM, 2), (0x12, LNK_PORT_STAT_PSTATE 0, 3), (0x12, LNK_PORT_STAT_PSTATE 1, 3), (0x12, LNK_PORT_STAT_LANES_UP 0, 15), (0x12, LNK_PORT_STAT_LANES_UP 1, 15), (0x12, LNK_SYSCFG_POSITION, 1)] with lnk := { modules := 2, upg := some (0, []) } } with now := 10000000000 }) 0 (0, []) = true := by
  decide +kernel

theorem witness_EpochsAreAnnouncedVotedAndApplied_13 : (fun (s : State) (τ : Nat) (i c v : Nat) => decide ((s.regAllowed i true (bCLU c) 4 = true) ∧ (c < 34) ∧ (bit v 3 = 1) ∧ (bits v 1 2 = 1) ∧ (bit v 0 = 1) ∧ (s.isOn (bCLU c) = true) ∧ (s.fencing (bCLU c) = false) ∧ (s.role c = 1) ∧ ((s.cluX c).test = none)) &&
    ran (.selftest τ i c v) s (fun t => decide (
    (t.cluX c).test = some t.now ∧ t.rd (bCLU c) CLU_CTRL_SELFTEST = 1 ∧ t.rd (bCLU c) CLU_CTRL_ST_RESULT = 1 ∧ t.role c = 1)))
    (st [(0x61, COM_STATE_FSM, 2), (0x61, CLU_CTRL_ROLE, 1)]) 0 1 33 11 = true := by
  decide +kernel

theorem witness_EpochsAreAnnouncedVotedAndApplied_14 : (fun (s : State) (τ : Nat) (c k : Nat) => decide ((c < 34) ∧ ((s.cluX c).test = some k)) &&
    ran (.selftestDone τ c true) s (fun t => decide (
    t.rd (bCLU c) CLU_CTRL_ST_RESULT = 2 ∧ t.rd (bCLU c) CLU_CTRL_SELFTEST = 0 ∧ bit (t.rd64 bSCH SCH_SUBST_OK_LO SCH_SUBST_OK_HI) c = 1 ∧ t.fsm (bCLU c) = s.fsm (bCLU c))))
    ({ st [(0x61, COM_STATE_FSM, 2)] with clu := [(33, { test := some 0 })] }) 0 33 0 = true := by
  decide +kernel

theorem witness_EpochsAreAnnouncedVotedAndApplied_15 : (fun (s : State) (τ : Nat) (c k : Nat) => decide ((c < 34) ∧ ((s.cluX c).test = some k)) &&
    ran (.selftestDone τ c false) s (fun t => decide (
    t.rd (bCLU c) CLU_CTRL_ST_RESULT = 3 ∧ t.fsm (bCLU c) = 6)))
    ({ st [(0x61, COM_STATE_FSM, 2)] with clu := [(33, { test := some 0 })] }) 0 33 0 = true := by
  decide +kernel

theorem witness_EpochsAreAnnouncedVotedAndApplied_ok : (fun (s : State) => s.regAllowed 5 true bLNK 0x14C && s.lnkOn && s.announceCause == 0)
    { st [(0x12, COM_STATE_FSM, 2), (0x12, LNK_PORT_STAT_PSTATE 0, 3), (0x12, LNK_PORT_STAT_PSTATE 1, 3), (0x12, LNK_PORT_STAT_LANES_UP 0, 15), (0x12, LNK_PORT_STAT_LANES_UP 1, 15), (0x12, LNK_MEMBERS_JOINED, 3)] with lnk := { modules := 2 } } = true ∧
    (fun (s : State) => s.portUp 0 && s.modulePos == 1 && s.joined 1) { st [(0x12, COM_STATE_FSM, 2), (0x12, LNK_PORT_STAT_PSTATE 0, 3), (0x12, LNK_PORT_STAT_PSTATE 1, 3), (0x12, LNK_PORT_STAT_LANES_UP 0, 15), (0x12, LNK_PORT_STAT_LANES_UP 1, 15), (0x12, LNK_SYSCFG_POSITION, 1), (0x12, LNK_MEMBERS_JOINED, 2)] with lnk := { modules := 2 } } = true := by
  decide +kernel

theorem witness_EpochsAreAnnouncedVotedAndApplied_lost : (fun (s : State) (e : Epoch) => s.modulePos == 1 && decide (s.lnk.epoch = some e) && decide (e.pos ≤ s.pos e.port) && !e.committed)
    { st [(0x12, COM_STATE_FSM, 2), (0x12, LNK_PORT_STAT_PSTATE 0, 3), (0x12, LNK_PORT_STAT_PSTATE 1, 3), (0x12, LNK_PORT_STAT_LANES_UP 0, 15), (0x12, LNK_PORT_STAT_LANES_UP 1, 15), (0x12, LNK_SYSCFG_POSITION, 1)] with lnk := { modules := 3, epoch := some { num := 5, port := 1, pos := 0, voters := [0, 1, 2] } } } { num := 5, port := 1, pos := 0, voters := [0, 1, 2] } = true ∧
    (fun (s : State) (e : Epoch) => decide (s.lnk.epoch = some e) && decide (e.pos ≤ s.pos e.port) && e.committed) { st [(0x12, COM_STATE_FSM, 2), (0x12, LNK_PORT_STAT_PSTATE 0, 3), (0x12, LNK_PORT_STAT_PSTATE 1, 3), (0x12, LNK_PORT_STAT_LANES_UP 0, 15), (0x12, LNK_PORT_STAT_LANES_UP 1, 15)] with lnk := { modules := 3, epoch := some { num := 5, committed := true } } } { num := 5, committed := true } = true ∧
    (fun (s : State) => s.portUp 0 && s.modulePos == 1 && s.lnk.upg.isSome) { st [(0x12, COM_STATE_FSM, 2), (0x12, LNK_PORT_STAT_PSTATE 0, 3), (0x12, LNK_PORT_STAT_PSTATE 1, 3), (0x12, LNK_PORT_STAT_LANES_UP 0, 15), (0x12, LNK_PORT_STAT_LANES_UP 1, 15), (0x12, LNK_SYSCFG_POSITION, 1)] with lnk := { modules := 2, upg := some (0, []) } } = true := by
  decide +kernel

theorem witness_EpochsAreAnnouncedVotedAndApplied_wait : (fun (s : State) (e : Epoch) => s.portUp 1 && s.modulePos == 0 && decide (s.lnk.epoch = some e) && e.votes.isEmpty && e.voters == [0, 1, 2] &&
    ran (.vote 0 1 1 5 0 true 7) s (fun t => (t.lnk.epoch.map (fun y => y.votes.length)) == some 1))
    { st [(0x12, COM_STATE_FSM, 2), (0x12, LNK_PORT_STAT_PSTATE 0, 3), (0x12, LNK_PORT_STAT_PSTATE 1, 3), (0x12, LNK_PORT_STAT_LANES_UP 0, 15), (0x12, LNK_PORT_STAT_LANES_UP 1, 15)] with lnk := { modules := 3, epoch := some { num := 5, port := 1, pos := 0, voters := [0, 1, 2] } } } { num := 5, port := 1, pos := 0, voters := [0, 1, 2] } = true := by
  decide +kernel

theorem witness_EpochsAreAnnouncedVotedAndApplied_map : (fun (s : State) => s.shadowModule 1023 == 3) (st [(0x10, SCH_SMAP_MODULE1 511, 3)]) = true := by
  decide +kernel

theorem witness_EncodersProbesAndPositions_1 : (fun (s : State) (τ : Nat) (p held : Nat) (a b : Bool) => decide ((p < 2) ∧ (p = 0 → s.sys.factory.on = false) ∧ (s.isOn (bSTP p) = true) ∧ (s.rd (bSTP p) STP_MODE_MODE = 0) ∧ (s.rd (bSTP p) STP_MODE_FILT + 1 ≤ held) ∧ (a = (s.stpP p).a ∨ b = (s.stpP p).b)) &&
    ran (.encoderEdge τ p a b held) s (fun t => decide (
    (t.stpP p).count = (s.stpP p).count + quadDelta (s.rd (bSTP p) STP_MODE_DECODE) (s.rd (bSTP p) STP_MODE_INVERT == 1) (s.stpP p).a (s.stpP p).b a b ∧ (t.stpP p).a = a ∧ (t.stpP p).b = b)))
    ({ st [(0x1D, COM_STATE_FSM, 2), (0, PWR_PD_STAT_PSTATE (domOf 0x1D), 2), (0x1D, STP_MODE_FILT, 2)] with stp := [(1, {  })] }) 0 1 3 true false = true := by
  decide +kernel

theorem witness_EncodersProbesAndPositions_2 : (fun (s : State) (τ : Nat) (p held : Nat) (a b : Bool) => decide ((p < 2) ∧ (p = 0 → s.sys.factory.on = false) ∧ (s.isOn (bSTP p) = true) ∧ (s.rd (bSTP p) STP_MODE_MODE = 0) ∧ (s.rd (bSTP p) STP_MODE_FILT + 1 ≤ held) ∧ (a ≠ (s.stpP p).a) ∧ (b ≠ (s.stpP p).b)) &&
    ran (.encoderEdge τ p a b held) s (fun t => decide (
    (t.stpP p).count = (s.stpP p).count ∧ (t.stpP p).a = a ∧ (t.stpP p).b = b ∧ t.rd (bSTP p) STP_STAT_UNCERTAIN = 1 ∧
        t.cnt (bSTP p) STP_CNT_QUAD_ILLEGAL = satInc (s.cnt (bSTP p) STP_CNT_QUAD_ILLEGAL) 1)))
    ({ st [(0x1D, COM_STATE_FSM, 2), (0, PWR_PD_STAT_PSTATE (domOf 0x1D), 2)] with stp := [(1, {  })] }) 0 1 3 true true = true := by
  decide +kernel

theorem witness_EncodersProbesAndPositions_3 : (fun (s : State) (τ : Nat) (p held : Nat) (a b : Bool) => decide ((p < 2) ∧ (p = 0 → s.sys.factory.on = false) ∧ (s.isOn (bSTP p) = true) ∧ (s.rd (bSTP p) STP_MODE_MODE = 0) ∧ (held ≤ s.rd (bSTP p) STP_MODE_FILT)) &&
    ran (.encoderEdge τ p a b held) s (fun t => decide (
    t.stpP p = s.stpP p ∧ t.cnt (bSTP p) STP_CNT_QUAD_ILLEGAL = s.cnt (bSTP p) STP_CNT_QUAD_ILLEGAL)))
    ({ st [(0x1D, COM_STATE_FSM, 2), (0, PWR_PD_STAT_PSTATE (domOf 0x1D), 2), (0x1D, STP_MODE_FILT, 2)] with stp := [(1, {  })] }) 0 1 2 true true = true := by
  decide +kernel

theorem witness_EncodersProbesAndPositions_4 : (fun (s : State) (τ : Nat) (p : Nat) => decide (True) &&
    ranTo (.uncertainExpiry τ p) s (if (s.stpP p).lastIllegal + 1000000 ≤ (s.at τ).now then (s.at τ).wr (bSTP p) STP_STAT_UNCERTAIN 0 else s.at τ))
    ({ st [(0x1D, COM_STATE_FSM, 2)] with stp := [(1, { lastIllegal := 0 })], now := 1000000 }) 0 1 = true := by
  decide +kernel

theorem witness_EncodersProbesAndPositions_5 : (fun (s : State) (τ : Nat) (p : Nat) => decide (True) &&
    ranTo (.faultNowExpiry τ p) s (if (s.stpP p).lastBad + 1000000 ≤ (s.at τ).now ∧ s.rd (bSTP p) STP_STAT_WIRE = 0 then (s.at τ).wr (bSTP p) STP_STAT_FAULT_NOW 0 else s.at τ))
    ({ st [(0x1D, COM_STATE_FSM, 2)] with stp := [(1, {  })], now := 1000000 }) 0 1 = true := by
  decide +kernel

theorem witness_EncodersProbesAndPositions_6 : (fun (s : State) (τ : Nat) (p pair : Nat) => decide ((p < 2) ∧ (s.isOn (bSTP p) = true) ∧ (s.pairInUse p pair = true) ∧ (bit (s.rd (bSTP p) STP_STAT_WIRE) pair = 0) ∧ (s.rd (bSTP p) STP_STAT_WIRE < 8)) &&
    ran (.wireBreak τ p pair) s (fun t => decide (
    t.rd (bSTP p) STP_STAT_WIRE = s.rd (bSTP p) STP_STAT_WIRE + 2 ^ pair ∧ t.rd (bSTP p) STP_STAT_FAULT_NOW = 1 ∧
        t.cnt (bSTP p) STP_CNT_WIRE = satInc (s.cnt (bSTP p) STP_CNT_WIRE) 1)))
    ({ st [(0x1D, COM_STATE_FSM, 2), (0x1D, STP_STAT_WIRE, 1)] with stp := [(1, {  })] }) 0 1 1 = true := by
  decide +kernel

theorem witness_EncodersProbesAndPositions_7 : (fun (s : State) (τ : Nat) (p pair : Nat) => decide ((p < 2) ∧ (bit (s.rd (bSTP p) STP_STAT_WIRE) pair = 1) ∧ (s.rd (bSTP p) STP_STAT_WIRE < 8)) &&
    ran (.wireBreakEnd τ p pair) s (fun t => decide (
    t.rd (bSTP p) STP_STAT_WIRE = s.rd (bSTP p) STP_STAT_WIRE - 2 ^ pair ∧ (t.stpP p).lastBad = t.now)))
    ({ st [(0x1D, COM_STATE_FSM, 2), (0x1D, STP_STAT_WIRE, 6)] with stp := [(1, {  })], now := 77 }) 0 1 2 = true := by
  decide +kernel

theorem witness_EncodersProbesAndPositions_8 : (fun (s : State) (τ : Nat) (p held : Nat) => decide ((p < 2) ∧ (s.isOn (bSTP p) = true) ∧ (s.rd (bSTP p) STP_MODE_MODE = 0) ∧ (s.rd (bSTP p) STP_MODE_FILT + 1 ≤ held) ∧ (s.rd (bSTP p) STP_MODE_Z_MODE ≠ 0)) &&
    ran (.indexEdge τ p held) s (fun t => decide (
    t.rd64 (bSTP p) STP_ZPOS_LO STP_ZPOS_HI = toCode 64 ((s.at τ).portPos p) ∧ t.rd (bSTP p) STP_STAT_Z_SEEN = 1 ∧
        t.cnt (bSTP p) STP_CNT_Z = satInc (s.cnt (bSTP p) STP_CNT_Z) 1 ∧ (t.stpP p).count = (if s.rd (bSTP p) STP_MODE_Z_MODE = 2 then 0 else (s.stpP p).count))))
    ({ st [(0x1D, COM_STATE_FSM, 2), (0x1D, STP_MODE_Z_MODE, 2)] with stp := [(1, { count := -3 })] }) 0 1 3 = true := by
  decide +kernel

theorem witness_EncodersProbesAndPositions_9 : (fun (s : State) (τ : Nat) (p : Nat) (lineOne : Bool) => decide ((p < 2) ∧ (s.isOn (bSTP p) = true) ∧ (s.rd (bSTP p) STP_MODE_MODE = 1) ∧ ((s.stpP p).ssiStart = none) ∧ ((s.stpP p).ssiPeriod + s.rd (bSTP p) STP_SSI_READ_US * 1000 ≤ (s.at τ).now) ∧ ((s.at τ).now < (s.stpP p).ssiPeriod + 2 * (s.rd (bSTP p) STP_SSI_READ_US * 1000))) &&
    ran (.ssiReadStart τ p lineOne) s (fun t => decide (
    (t.stpP p).ssiStart = (if lineOne then some t.now else none) ∧ (t.stpP p).ssiPeriod = (if lineOne then t.now else (s.stpP p).ssiPeriod) ∧
        t.out = (if lineOne then [Out.ssiBurst p (s.rd (bSTP p) STP_SSI_BITS + 1) (1000000000 / s.ssiClock p)] else []) ++ s.out)))
    ({ st [(0x1D, COM_STATE_FSM, 2), (0x1D, STP_MODE_MODE, 1), (0x1D, STP_SSI_READ_US, 50)] with stp := [(1, {  })], now := 50000 }) 0 1 true = true := by
  decide +kernel

theorem witness_EncodersProbesAndPositions_10 : (fun (s : State) (τ : Nat) (p : Nat) => decide ((p < 2) ∧ (s.isOn (bSTP p) = true) ∧ (s.rd (bSTP p) STP_MODE_MODE = 1) ∧ ((s.stpP p).ssiStart = none) ∧ ((s.stpP p).ssiPeriod + 2 * (s.rd (bSTP p) STP_SSI_READ_US * 1000) ≤ (s.at τ).now)) &&
    ran (.ssiReadStart τ p false) s (fun t => decide (
    t.cnt (bSTP p) STP_CNT_SSI_FRAME = satInc (s.cnt (bSTP p) STP_CNT_SSI_FRAME) 1 ∧ t.rd (bSTP p) STP_STAT_UNCERTAIN = 1)))
    ({ st [(0x1D, COM_STATE_FSM, 2), (0x1D, STP_MODE_MODE, 1), (0x1D, STP_SSI_READ_US, 50)] with stp := [(1, {  })], now := 100000 }) 0 1 = true := by
  decide +kernel

theorem witness_EncodersProbesAndPositions_11 : (fun (s : State) (τ : Nat) (p startBit word k : Nat) (idleOk : Bool) => decide ((p < 2) ∧ (p = 0 → s.sys.factory.on = false) ∧ (s.isOn (bSTP p) = true) ∧ ((s.stpP p).ssiStart = some k) ∧ (k + s.ssiLast p ≤ (s.at τ).now) ∧ (startBit ≠ 0 ∨ idleOk = false)) &&
    ran (.ssiReadDone τ p startBit word idleOk) s (fun t => decide (
    t.cnt (bSTP p) STP_CNT_SSI_FRAME = satInc (s.cnt (bSTP p) STP_CNT_SSI_FRAME) 1 ∧ t.rd (bSTP p) STP_STAT_UNCERTAIN = 1 ∧
        (t.stpP p).count = (s.stpP p).count ∧ (t.stpP p).ssiStart = none)))
    ({ st [(0x1D, COM_STATE_FSM, 2), (0x1D, STP_MODE_MODE, 1)] with stp := [(1, { ssiStart := some 0, count := 4 })], now := 100000 }) 0 1 0 5 0 false = true := by
  decide +kernel

theorem witness_EncodersProbesAndPositions_12 : (fun (s : State) (τ : Nat) (p word k : Nat) => decide ((p < 2) ∧ (p = 0 → s.sys.factory.on = false) ∧ (s.isOn (bSTP p) = true) ∧ ((s.stpP p).ssiStart = some k) ∧ (k + s.ssiLast p ≤ (s.at τ).now) ∧ ((s.stpP p).ssiPrev = none)) &&
    ran (.ssiReadDone τ p 0 word true) s (fun t => decide (
    (t.stpP p).count = (((if s.rd (bSTP p) STP_SSI_CODE = 1 then grayToBin (s.rd (bSTP p) STP_SSI_BITS) (word % 2 ^ s.rd (bSTP p) STP_SSI_BITS) else word % 2 ^ s.rd (bSTP p) STP_SSI_BITS) : Nat) : Int) ∧
        (t.stpP p).baseAt = k)))
    ({ st [(0x1D, COM_STATE_FSM, 2), (0x1D, STP_MODE_MODE, 1), (0x1D, STP_SSI_BITS, 10), (0x1D, STP_SSI_CODE, 1)] with stp := [(1, { ssiStart := some 3 })], now := 300000 }) 0 1 0x7FF 3 = true := by
  decide +kernel

theorem witness_EncodersProbesAndPositions_13 : (fun (s : State) (τ : Nat) (p word k q : Nat) => decide ((p < 2) ∧ (p = 0 → s.sys.factory.on = false) ∧ (s.isOn (bSTP p) = true) ∧ (s.rd (bSTP p) STP_SSI_CODE = 0) ∧ ((s.stpP p).ssiStart = some k) ∧ (k + s.ssiLast p ≤ (s.at τ).now) ∧ ((s.stpP p).ssiPrev = some q) ∧ ((sext (s.rd (bSTP p) STP_SSI_BITS) (word % 2 ^ s.rd (bSTP p) STP_SSI_BITS + 2 ^ s.rd (bSTP p) STP_SSI_BITS - q)).natAbs ≤ s.rd (bSTP p) STP_JUMP)) &&
    ran (.ssiReadDone τ p 0 word true) s (fun t => decide (
    (t.stpP p).count = (s.stpP p).count + (if s.rd (bSTP p) STP_MODE_INVERT = 1 then -1 else 1) *
          sext (s.rd (bSTP p) STP_SSI_BITS) (word % 2 ^ s.rd (bSTP p) STP_SSI_BITS + 2 ^ s.rd (bSTP p) STP_SSI_BITS - q) ∧
        (t.stpP p).ssiPrev = some (word % 2 ^ s.rd (bSTP p) STP_SSI_BITS))))
    ({ st [(0x1D, COM_STATE_FSM, 2), (0x1D, STP_MODE_MODE, 1), (0x1D, STP_SSI_BITS, 10), (0x1D, STP_SSI_CODE, 0), (0x1D, STP_JUMP, 9)] with stp := [(1, { ssiStart := some 3, ssiPrev := some 1020, count := 1020 })], now := 300000 }) 0 1 5 3 1020 = true := by
  decide +kernel

theorem witness_EncodersProbesAndPositions_14 : (fun (s : State) (τ : Nat) (p word k q : Nat) => decide ((p < 2) ∧ (p = 0 → s.sys.factory.on = false) ∧ (s.isOn (bSTP p) = true) ∧ (s.rd (bSTP p) STP_SSI_CODE = 0) ∧ ((s.stpP p).ssiStart = some k) ∧ (k + s.ssiLast p ≤ (s.at τ).now) ∧ ((s.stpP p).ssiPrev = some q) ∧ (s.rd (bSTP p) STP_JUMP < (sext (s.rd (bSTP p) STP_SSI_BITS) (word % 2 ^ s.rd (bSTP p) STP_SSI_BITS + 2 ^ s.rd (bSTP p) STP_SSI_BITS - q)).natAbs)) &&
    ran (.ssiReadDone τ p 0 word true) s (fun t => decide (
    t.cnt (bSTP p) STP_CNT_SSI_JUMP = satInc (s.cnt (bSTP p) STP_CNT_SSI_JUMP) 1 ∧ (t.stpP p).count = (s.stpP p).count ∧ (t.stpP p).ssiPrev = some q)))
    ({ st [(0x1D, COM_STATE_FSM, 2), (0x1D, STP_MODE_MODE, 1), (0x1D, STP_SSI_BITS, 10), (0x1D, STP_SSI_CODE, 0), (0x1D, STP_JUMP, 8)] with stp := [(1, { ssiStart := some 3, ssiPrev := some 1020, count := 1020 })], now := 300000 }) 0 1 5 3 1020 = true := by
  decide +kernel

theorem witness_EncodersProbesAndPositions_15 : (fun (s : State) (τ : Nat) (p e : Nat) => decide ((p < 2) ∧ ((s.stpP p).lastEdge = some e) ∧ (s.isOn (bSTP p) = true) ∧ (s.rd (bSTP p) STP_STAT_STANDSTILL = 0) ∧ (e + s.rd (bSTP p) STP_TIMING_STANDSTILL_MS * 1000000 ≤ (s.at τ).now)) &&
    ran (.standstill τ p) s (fun t => decide (
    t.rd (bSTP p) STP_STAT_STANDSTILL = 1 ∧ t.cnt (bSTP p) STP_CNT_STANDSTILL = satInc (s.cnt (bSTP p) STP_CNT_STANDSTILL) 1 ∧ t.speedFrac p = (0, 1))))
    ({ st [(0x1D, COM_STATE_FSM, 2), (0x1D, STP_STAT_STANDSTILL, 0), (0x1D, STP_TIMING_STANDSTILL_MS, 5)] with stp := [(1, { lastEdge := some 0 })], now := 5000000 }) 0 1 0 = true := by
  decide +kernel

theorem witness_EncodersProbesAndPositions_16 : (fun (s : State) (τ : Nat) (k : Nat) (rising : Bool) => decide ((k < 4) ∧ (s.isOn bFIO = true) ∧ (edgeTaken (s.rd bFIO (FIO_PRB_CFG_EDGE k)) rising = true) ∧ ((Store.get [] s.field.prb k).length < 16)) &&
    ran (.probeEdge τ k rising) s (fun t => decide (
    Store.get [] t.field.prb k = Store.get [] s.field.prb k ++
          [{ rising := rising, sec := (s.at τ).tbSec % 4294967296, ns := (s.at τ).tbNs, pos0 := (s.at τ).portPos 0, pos1 := (s.at τ).portPos 1 }])))
    ({ st [(0x1B, COM_STATE_FSM, 2), (0x1B, FIO_PRB_CFG_EDGE 3, 2)] with now := 5 }) 0 3 false = true := by
  decide +kernel

theorem witness_EncodersProbesAndPositions_17 : (fun (s : State) (τ : Nat) (k : Nat) (rising : Bool) => decide ((k < 4) ∧ (s.isOn bFIO = true) ∧ (edgeTaken (s.rd bFIO (FIO_PRB_CFG_EDGE k)) rising = true) ∧ (16 ≤ (Store.get [] s.field.prb k).length)) &&
    ran (.probeEdge τ k rising) s (fun t => decide (
    Store.get [] t.field.prb k = Store.get [] s.field.prb k ∧ t.cnt bFIO (FIO_CNT_PRB_LOST k) = satInc (s.cnt bFIO (FIO_CNT_PRB_LOST k)) 1)))
    ({ st [(0x1B, COM_STATE_FSM, 2), (0x1B, FIO_PRB_CFG_EDGE 3, 1)] with field := { prb := [(3, List.replicate 16 { rising := true })] } }) 0 3 true = true := by
  decide +kernel

theorem witness_EncodersProbesAndPositions_18 : (fun (s : State) (τ : Nat) (k : Nat) (rising : Bool) => decide ((edgeTaken (s.rd bFIO (FIO_PRB_CFG_EDGE k)) rising = false)) &&
    ranTo (.probeEdge τ k rising) s (s.at τ))
    ({ st [(0x1B, COM_STATE_FSM, 2), (0x1B, FIO_PRB_CFG_EDGE 3, 1)] with now := 5 }) 0 3 false = true := by
  decide +kernel

theorem witness_EncodersProbesAndPositions_19 : (fun (s : State) (τ : Nat) (i k : Nat) => decide ((s.regAllowed i false bFIO (0x1D8 + 0x20 * k) = true) ∧ (s.domOn bFIO = true)) &&
    ran (.fioPrbRecRead τ i k) s (fun t => decide (
    Store.get [] t.field.prb k = (Store.get [] s.field.prb k).tail ∧ t.resp.data = [nth 0 (prbWords (Store.get [] s.field.prb k)) 6] ∧ t.resp.status = 0)))
    ({ st [(0, PWR_PD_STAT_PSTATE (domOf bFIO), 2)] with field := { prb := [(3, [{ rising := true, pos1 := -5 }])] } }) 0 1 3 = true := by
  decide +kernel

theorem witness_EncodersProbesAndPositions_20 : (fun (s : State) (τ : Nat) (i p : Nat) => decide ((s.regAllowed i false (bSTP p) 0x120 = true) ∧ (s.domOn (bSTP p) = true) ∧ (p < 2)) &&
    ran (.stpPosLoRead τ i p) s (fun t => decide (
    t.rd64 (bSTP p) STP_POS_LO STP_POS_HI = toCode 64 ((s.at τ).portPos p) ∧ t.resp.data = [toCode 64 ((s.at τ).portPos p) % 4294967296] ∧ t.resp.status = 0)))
    ({ st [(0x1D, COM_STATE_FSM, 2), (0, PWR_PD_STAT_PSTATE (domOf 0x1D), 2)] with stp := [(1, { count := -3 })] }) 0 1 1 = true := by
  decide +kernel

theorem witness_PartsOpenFireAndOutputsFollow_1 : (fun (s : State) (τ : Nat) (p part k : Nat) (start : Int) => decide ((p < 2) ∧ (s.nextGrid p = some (start, part)) ∧ (s.startsFrom p 1 = true) ∧ (start ≤ (s.at τ).pos p) ∧ (s.epochBars p start = false) ∧ ((s.ejtU p).mayOpen = true) ∧ (s.freeSlot p = some k)) &&
    ran (.partStart τ p) s (fun t => decide (
    (t.ejtU p).hiStart = some start ∧ (t.slot p k).map (fun y => (y.part, y.start)) = some (part, start))))
    ({ st [(0x1D, COM_STATE_FSM, 2), (0x1F, COM_STATE_FSM, 2), (0x1F, EJT_PARTCFG_PS_SRC, 1), (0x1F, EJT_PITCH, 2560)] with ejt := [(1, { hiStart := some (-1), mayOpen := true })] }) 0 1 0 0 0 = true := by
  decide +kernel

theorem witness_PartsOpenFireAndOutputsFollow_2 : (fun (s : State) (τ : Nat) (p part : Nat) (start : Int) => decide ((s.nextGrid p = some (start, part)) ∧ ((s.at τ).pos p < start)) &&
    ranTo (.partStart τ p) s (s.at τ))
    ({ st [(0x1D, COM_STATE_FSM, 2), (0x1F, COM_STATE_FSM, 2), (0x1F, EJT_PARTCFG_PS_SRC, 1), (0x1F, EJT_PITCH, 2560)] with ejt := [(1, { hiStart := some 0 })] }) 0 1 1 2560 = true := by
  decide +kernel

theorem witness_PartsOpenFireAndOutputsFollow_3 : (fun (s : State) (τ : Nat) (p k : Nat) (x : Slot) => decide ((p < 2) ∧ (k < 64) ∧ (s.slot p k = some x) ∧ (x.commit.isSome = true) ∧ (s.ejtLive p = true) ∧ ((s.at τ).firingPos p x.cls x ≤ (s.at τ).pos p)) &&
    ran (.slotFire τ p k) s (fun t => decide (
    t.slot p k = none ∧ t.mergeAt p k = none)))
    ({ st [(0x1D, COM_STATE_FSM, 2), (0x1F, COM_STATE_FSM, 2)] with ejt := [(1, { slots := [(63, some { part := 7, start := 0, target := 0, deadline := 1, commit := some { verdict := 1 } })] })], merge := [(127, some { part := 7 })] }) 0 1 63 { part := 7, start := 0, target := 0, deadline := 1, commit := some { verdict := 1 } } = true := by
  decide +kernel

theorem witness_PartsOpenFireAndOutputsFollow_4 : (fun (s : State) (τ : Nat) (p k : Nat) (x : Slot) => decide ((s.slot p k = some x) ∧ (x.commit = none ∨ (s.at τ).pos p < (s.at τ).firingPos p x.cls x)) &&
    ranTo (.slotFire τ p k) s (s.at τ))
    ({ st [(0x1D, COM_STATE_FSM, 2), (0x1F, COM_STATE_FSM, 2)] with ejt := [(1, { slots := [(63, some { part := 7, start := 0, target := 0, deadline := 1 })] })] }) 0 1 63 { part := 7, start := 0, target := 0, deadline := 1 } = true := by
  decide +kernel

theorem witness_PartsOpenFireAndOutputsFollow_5 : (fun (s : State) (τ : Nat) (p k : Nat) (x : Slot) => decide ((p < 2) ∧ (k < 64) ∧ (s.slot p k = some x) ∧ (x.commit = none) ∧ (s.ejtLive p = true) ∧ ((s.at τ).earliestPos p x ≤ (s.at τ).pos p) ∧ ((s.at τ).pos p < x.deadline)) &&
    ran (.earliestFiringDoubt τ p k) s (fun t => decide (
    (t.slot p k).map (fun y => (y.overspeed, y.commit.map (fun c => (c.verdict, c.missed)))) = some (true, some (3, true)))))
    ({ st [(0x1D, COM_STATE_FSM, 2), (0x1F, COM_STATE_FSM, 2)] with ejt := [(1, { slots := [(63, some { part := 7, start := 0, target := 0, deadline := 1 })] })] }) 0 1 63 { part := 7, start := 0, target := 0, deadline := 1 } = true := by
  decide +kernel

theorem witness_PartsOpenFireAndOutputsFollow_6 : (fun (s : State) (τ : Nat) (p k : Nat) (x : Slot) => decide ((s.slot p k = some x) ∧ (x.commit = none) ∧ (s.ejtLive p = true) ∧ ((s.at τ).earliestPos p x ≤ (s.at τ).pos p) ∧ (x.deadline ≤ (s.at τ).pos p)) &&
    ranTo (.earliestFiringDoubt τ p k) s ((s.at τ).verdictDue p k))
    ({ st [(0x1D, COM_STATE_FSM, 2), (0x1F, COM_STATE_FSM, 2)] with ejt := [(1, { slots := [(63, some {  part := 7, start := 0, target := 0, deadline := 0  })] })] }) 0 1 63 {  part := 7, start := 0, target := 0, deadline := 0  } = true := by
  decide +kernel

theorem witness_PartsOpenFireAndOutputsFollow_7 : (fun (s : State) (τ : Nat) (i p v k : Nat) => decide ((s.mgmtOrHost i = true) ∧ (p < 2) ∧ (s.domOn (bEJT p) = true) ∧ (bit v 0 = 1) ∧ (s.act (bEJT p) EJT_PARTCFG_PS_SRC = 3) ∧ (s.ejtLive p = true) ∧ ((s.ejtU p).mayOpen = true) ∧ (s.freeSlot p = some k)) &&
    ran (.ejtXopen τ i p v) s (fun t => decide (
    t.rd (bEJT p) EJT_XOPEN_XSTATUS = 0 ∧ t.rd (bEJT p) EJT_XOPEN_XSLOT = k ∧ t.slot p k = some ((s.at τ).newSlot p (s.ejtU p).opens (s.rdS64 (bEJT p) EJT_XTGT_LO EJT_XTGT_HI) (s.rdS64 (bEJT p) EJT_XTGT_LO EJT_XTGT_HI) true))))
    ({ st [(0x1D, COM_STATE_FSM, 2), (0x1F, COM_STATE_FSM, 2), (0, PWR_PD_STAT_PSTATE (domOf 0x1F), 2), (0x1F, EJT_PARTCFG_PS_SRC, 3), (0x1F, EJT_XTGT_LO, 99)] with ejt := [(1, { mayOpen := true, slots := [(0, some { part := 7, start := 0, target := 0, deadline := 1 })] })] }) 0 1 1 1 1 = true := by
  decide +kernel

theorem witness_PartsOpenFireAndOutputsFollow_8 : (fun (s : State) (τ : Nat) (i p v : Nat) => decide ((s.mgmtOrHost i = true) ∧ (s.domOn (bEJT p) = true) ∧ (bit v 0 = 1) ∧ (s.act (bEJT p) EJT_PARTCFG_PS_SRC ≠ 3)) &&
    ran (.ejtXopen τ i p v) s (fun t => decide (
    t.rd (bEJT p) EJT_XOPEN_XSTATUS = 0x0101 ∧ t.ejt = s.ejt)))
    ({ st [(0x1D, COM_STATE_FSM, 2), (0x1F, COM_STATE_FSM, 2), (0, PWR_PD_STAT_PSTATE (domOf 0x1F), 2)] with ejt := [(1, { slots := [] })] }) 0 1 1 1 = true := by
  decide +kernel

theorem witness_PartsOpenFireAndOutputsFollow_9 : (fun (s : State) (τ : Nat) (i p v : Nat) (x : Slot) => decide ((s.mgmtOrHost i = true) ∧ (p < 2) ∧ (s.domOn (bEJT p) = true) ∧ (s.slot p (bits v 0 6) = some x) ∧ (x.explicit = true) ∧ (x.commit = none) ∧ (x.srcFb = false) ∧ (s.ejtLive p = true)) &&
    ran (.ejtCommit τ i p v) s (fun t => decide (
    (t.slot p 63).map (fun y => (y.commit.map (fun c => (c.verdict, c.missed)))) = some (some (1, false)))))
    ({ st [(0x1D, COM_STATE_FSM, 2), (0x1F, COM_STATE_FSM, 2), (0, PWR_PD_STAT_PSTATE (domOf 0x1F), 2)] with ejt := [(1, { slots := [(63, some {  part := 7, start := 0, target := 0, deadline := 1 , explicit := true })] })] }) 0 1 1 0x13F {  part := 7, start := 0, target := 0, deadline := 1 , explicit := true } = true := by
  decide +kernel

theorem witness_PartsOpenFireAndOutputsFollow_10 : (fun (s : State) (τ : Nat) (i p v n : Nat) => decide ((s.mgmtOrHost i = true) ∧ (p < 2) ∧ (s.domOn (bEJT p) = true) ∧ (bits v 0 2 < 3) ∧ (s.isOn (bEJT p) = true) ∧ (s.firesNothing p = false) ∧ (s.safe = false) ∧ ((bitList 8 (s.act (bEJT p) (EJT_CLS_CFG_MASK (bits v 0 2)))).any (s.inhibitedHard p) = false) ∧ (n < 8) ∧ (bit (s.act (bEJT p) (EJT_CLS_CFG_MASK (bits v 0 2))) n = 1)) &&
    ran (.ejtFire τ i p v) s (fun t => decide (
    Store.get none t.field.pulses n = some ⟨p, t.now + s.act (bEJT p) (EJT_CLS_CFG_PULSE (bits v 0 2)) * 100000⟩)))
    (st [(0x1D, COM_STATE_FSM, 2), (0x1F, COM_STATE_FSM, 2), (0, PWR_PD_STAT_PSTATE (domOf 0x1F), 2), (0x1B, COM_STATE_FSM, 2), (0x1F, EJT_CLS_CFG_MASK 2, 0x81), (0x1B, FIO_DO_CFG_SRC 7, 2), (0x1B, FIO_DO_CFG_SRC 0, 2), (0x1B, FIO_STAT_UV, 0)]) 0 1 1 2 7 = true := by
  decide +kernel

theorem witness_PartsOpenFireAndOutputsFollow_11 : (fun (s : State) (τ : Nat) (i p v : Nat) => decide ((s.mgmtOrHost i = true) ∧ (bits v 0 2 = 3)) &&
    ranTo (.ejtFire τ i p v) s (s.at τ))
    ({}) 0 1 1 3 = true := by
  decide +kernel

theorem witness_PartsOpenFireAndOutputsFollow_12 : (fun (s : State) (τ : Nat) (levels k : Nat) => decide ((k < 16) ∧ (s.isOn bFIO = true) ∧ ((s.at τ).due perDi (if 3 ≤ s.rd bPWR PWR_STAT_STATE then 30500 else 1000) = true) ∧ (bit (s.rd bFIO FIO_DI) k ≠ bit levels k) ∧ (Store.get 0 s.field.diSince k ≠ 0) ∧ (Store.get 0 s.field.diSince k + s.diFilt k ≤ (s.at τ).now + 1)) &&
    ran (.diSample τ levels) s (fun t => decide (
    bit (t.rd bFIO FIO_DI) k = bit levels k ∧ Store.get 0 t.field.diSince k = 0 ∧ t.field.diRaw = levels % 65536)))
    ({ st [(0x1B, COM_STATE_FSM, 2), (0x1B, FIO_DI, 1), (0x1B, FIO_DI_FILT_FILT_HI, 3)] with field := { diSince := [(15, 1)] }, now := 3000 }) 0 0x8001 15 = true := by
  decide +kernel

theorem witness_PartsOpenFireAndOutputsFollow_13 : (fun (s : State) (τ : Nat) (levels k : Nat) => decide ((k < 16) ∧ (s.isOn bFIO = true) ∧ ((s.at τ).due perDi (if 3 ≤ s.rd bPWR PWR_STAT_STATE then 30500 else 1000) = true) ∧ (s.rd bFIO FIO_DI < 65536) ∧ (bit (s.rd bFIO FIO_DI) k ≠ bit levels k) ∧ ((s.at τ).now + 1 < (if Store.get 0 s.field.diSince k = 0 then (s.at τ).now + 1 else Store.get 0 s.field.diSince k) + s.diFilt k)) &&
    ran (.diSample τ levels) s (fun t => decide (
    bit (t.rd bFIO FIO_DI) k = bit (s.rd bFIO FIO_DI) k ∧ Store.get 0 t.field.diSince k = (if Store.get 0 s.field.diSince k = 0 then (s.at τ).now + 1 else Store.get 0 s.field.diSince k))))
    ({ st [(0x1B, COM_STATE_FSM, 2), (0x1B, FIO_DI, 1), (0x1B, FIO_DI_FILT_FILT_HI, 3)] with field := { diSince := [(15, 1)] }, now := 2999 }) 0 0x8001 15 = true := by
  decide +kernel

theorem witness_PartsOpenFireAndOutputsFollow_14 : (fun (s : State) (τ : Nat) (levels : Nat) => decide (((s.at τ).due perDi (if 3 ≤ s.rd bPWR PWR_STAT_STATE then 30500 else 1000) = false)) &&
    ranTo (.diSample τ levels) s (s.at τ))
    ({ now := 999, sys := { lastAt := [(7, 1)] } }) 0 5 = true := by
  decide +kernel

theorem witness_PartsOpenFireAndOutputsFollow_15 : (fun (s : State) (τ : Nat) (n : Nat) (q : Pulse) => decide ((n < 8) ∧ (Store.get none s.field.pulses n = some q) ∧ (q.until_ ≤ (s.at τ).now) ∧ (s.rd bFIO (FIO_DO_CFG_SRC n) ≠ 0) ∧ (s.safe = false)) &&
    ran (.outputPulseEnd τ n) s (fun t => decide (
    Store.get none t.field.pulses n = none ∧ t.rd bFIO (FIO_DO_CFG_ON n) = 0)))
    ({ st [(0x1B, COM_STATE_FSM, 2), (0x1B, FIO_DO_CFG_SRC 7, 2), (0x1B, FIO_STAT_UV, 0), (0x1B, FIO_DO_CFG_ON 7, 1)] with field := { pulses := [(7, some ⟨1, 5⟩)] }, now := 5 }) 0 7 ⟨1, 5⟩ = true := by
  decide +kernel

theorem witness_PartsOpenFireAndOutputsFollow_16 : (fun (s : State) (τ : Nat) (n : Nat) (q : Pulse) => decide ((Store.get none s.field.pulses n = some q) ∧ ((s.at τ).now < q.until_)) &&
    ranTo (.outputPulseEnd τ n) s (s.at τ))
    ({ st [(0x1B, COM_STATE_FSM, 2)] with field := { pulses := [(7, some ⟨1, 5⟩)] }, now := 4 }) 0 7 ⟨1, 5⟩ = true := by
  decide +kernel

theorem witness_PartsOpenFireAndOutputsFollow_17 : (fun (s : State) (τ : Nat) (n : Nat) (thermal : Bool) => decide ((n < 8) ∧ (s.domOn bFIO = true)) &&
    ran (.outputOverload τ n thermal) s (fun t => decide (
    t.rd bFIO (if thermal then FIO_DO_CFG_THERM n else FIO_DO_CFG_OVL n) = 1 ∧ t.rd bFIO (FIO_DO_CFG_ON n) = 0 ∧ Store.get none t.field.pulses n = none ∧
        t.cnt bFIO (if thermal then FIO_CNT_DO_THERM else FIO_CNT_DO_OVL) = satInc (s.cnt bFIO (if thermal then FIO_CNT_DO_THERM else FIO_CNT_DO_OVL)) 1)))
    ({ st [(0x1B, COM_STATE_FSM, 2), (0, PWR_PD_STAT_PSTATE (domOf 0x1B), 2), (0x1B, FIO_DO_CFG_LEVEL 7, 1), (0x1B, FIO_STAT_UV, 0)] with field := { pulses := [(7, some ⟨1, 5⟩)] } }) 0 7 true = true := by
  decide +kernel

theorem witness_PartsOpenFireAndOutputsFollow_18 : (fun (s : State) (τ : Nat) (b : Nat) (x : Nat × Nat) => decide ((Store.get none s.field.stb b = some x) ∧ (x.2 ≤ (s.at τ).now)) &&
    ran (.strobePulseEnd τ b) s (fun t => decide (
    Store.get none t.field.stb b = none ∧ Store.get 0 t.field.stbEnd b = x.2)))
    ({ st [(0x1B, COM_STATE_FSM, 2)] with field := { stb := [(3, some (1, 5))] }, now := 5 }) 0 3 (1, 5) = true := by
  decide +kernel

theorem witness_TimeIsSetSteeredAndRead_1 : (fun (s : State) (τ : Nat) (i v : Nat) => decide ((s.mgmtOrHost i = true) ∧ (s.rd bTIM COM_FENCE_FENCE ≠ 1) ∧ (s.linkTime = false) ∧ (1998 * 4294967296 ≤ s.newInc v * 1000) ∧ (s.newInc v * 1000 ≤ 2002 * 4294967296)) &&
    ran (.timIncNs τ i v) s (fun t => decide (
    t.tb.inc = s.newInc v ∧ t.rd bTIM TIM_STAT_SOURCE = 2 ∧ t.rd bTIM TIM_INC_NS = bits v 0 2 ∧ t.tb.time = (s.at τ).tb.time ∧ t.tb.holdFrom = some t.now)))
    ({ st [(3, COM_STATE_FSM, 2), (3, TIM_INC_FRAC, 8589934)] with tb := {  } }) 0 1 2 = true := by
  decide +kernel

theorem witness_TimeIsSetSteeredAndRead_2 : (fun (s : State) (τ : Nat) (i v : Nat) => decide ((s.mgmtOrHost i = true) ∧ (s.rd bTIM COM_FENCE_FENCE ≠ 1) ∧ (s.linkTime = false) ∧ (2002 * 4294967296 < s.newInc v * 1000 ∨ s.newInc v * 1000 < 1998 * 4294967296)) &&
    ran (.timIncNs τ i v) s (fun t => decide (
    t.rd bTIM TIM_STAT_REFUSED = 1 ∧ t.tb = (s.at τ).tb)))
    ({ st [(3, COM_STATE_FSM, 2), (3, TIM_INC_FRAC, 8589935)] with tb := {  } }) 0 1 2 = true := by
  decide +kernel

theorem witness_TimeIsSetSteeredAndRead_3 : (fun (s : State) (τ : Nat) (i v : Nat) => decide ((s.mgmtOrHost i = true) ∧ (s.rd bTIM COM_FENCE_FENCE ≠ 1) ∧ (s.linkTime = true)) &&
    ran (.timIncNs τ i v) s (fun t => decide (
    t.rd bTIM TIM_STAT_REFUSED = 1 ∧ t.tb = (s.at τ).tb)))
    ({ st [(3, COM_STATE_FSM, 2), (0x12, LNK_SYSCFG_POSITION, 1), (0x12, LNK_MEMBERS_JOINED, 2)] with tb := {  } }) 0 5 2 = true := by
  decide +kernel

theorem witness_TimeIsSetSteeredAndRead_4 : (fun (s : State) (τ : Nat) (i v : Nat) => decide ((s.mgmtOrHost i = true) ∧ (s.rd bTIM COM_FENCE_FENCE ≠ 1) ∧ (s.linkTime = false) ∧ (popCount 3 v ≤ 1) ∧ (bit v 0 = 1) ∧ (s.jobRun = false)) &&
    ran (.timSet τ i v) s (fun t => decide (
    t.tb.time = s.rd64 bTIM TIM_SET_SEC_LO TIM_SET_SEC_HI * (1000000000 * 4294967296) + s.rd bTIM TIM_SET_NS * 4294967296 ∧ t.rd bTIM TIM_STAT_SOURCE = 1 ∧ t.rd bTIM TIM_STAT_VALID = 1 ∧ t.cnt bTIM TIM_CNT_STEPS = satInc (s.cnt bTIM TIM_CNT_STEPS) 1)))
    ({ st [(3, COM_STATE_FSM, 2), (3, TIM_SET_SEC_HI, 1), (3, TIM_SET_NS, 999999999)] with tb := { time := 5 } }) 0 1 1 = true := by
  decide +kernel

theorem witness_TimeIsSetSteeredAndRead_5 : (fun (s : State) (τ : Nat) (i v : Nat) => decide ((s.mgmtOrHost i = true) ∧ (s.rd bTIM COM_FENCE_FENCE ≠ 1) ∧ (s.linkTime = false) ∧ (popCount 3 v ≤ 1) ∧ (bit v 0 = 1) ∧ (s.jobRun = true)) &&
    ran (.timSet τ i v) s (fun t => decide (
    t.rd bTIM TIM_STAT_REFUSED = 1 ∧ t.tb = (s.at τ).tb ∧ t.cnt bTIM TIM_CNT_STEP_REFUSED = satInc (s.cnt bTIM TIM_CNT_STEP_REFUSED) 1)))
    ({ st [(3, COM_STATE_FSM, 2), (0x12, LNK_EPOCH_STAT_JOB_RUN, 1)] with tb := { time := 5 } }) 0 1 1 = true := by
  decide +kernel

theorem witness_TimeIsSetSteeredAndRead_6 : (fun (s : State) (τ : Nat) (i v : Nat) => decide ((s.mgmtOrHost i = true) ∧ (s.rd bTIM COM_FENCE_FENCE ≠ 1) ∧ (s.linkTime = false) ∧ (1 < popCount 3 v)) &&
    ran (.timSet τ i v) s (fun t => decide (
    t.rd bTIM TIM_STAT_REFUSED = 1 ∧ t.tb = (s.at τ).tb)))
    ({ st [(3, COM_STATE_FSM, 2)] with tb := { time := 5 } }) 0 1 3 = true := by
  decide +kernel

theorem witness_TimeIsSetSteeredAndRead_7 : (fun (s : State) (τ : Nat) (i v : Nat) => decide ((s.mgmtOrHost i = true) ∧ (s.rd bTIM COM_FENCE_FENCE ≠ 1) ∧ (s.linkTime = false) ∧ (popCount 3 v ≤ 1) ∧ (bit v 1 = 1) ∧ (s.jobRun = false ∨ (sext 32 (s.rd bTIM TIM_ADJ)).natAbs ≤ s.rd bTIM TIM_CFG_STEP_LIMIT)) &&
    ran (.timStep τ i v) s (fun t => decide (
    t.tb.time = (((s.at τ).tb.time + sext 32 (s.rd bTIM TIM_ADJ) * 4294967296) % (2 ^ 64 * (1000000000 * 4294967296) : Nat)).toNat ∧ t.tb.holdFrom = some t.now ∧ t.rd bTIM TIM_STAT_VALID = 1 ∧ t.rd bTIM TIM_STAT_HOLDOVER = 0)))
    ({ st [(3, COM_STATE_FSM, 2), (3, TIM_ADJ, 0xFFFFFFFF), (0x12, LNK_EPOCH_STAT_JOB_RUN, 1)] with tb := { time := 5 } }) 0 1 2 = true := by
  decide +kernel

theorem witness_TimeIsSetSteeredAndRead_8 : (fun (s : State) (τ : Nat) (i v : Nat) => decide ((s.mgmtOrHost i = true) ∧ (s.rd bTIM COM_FENCE_FENCE ≠ 1) ∧ (s.linkTime = false) ∧ (popCount 3 v ≤ 1) ∧ (bit v 1 = 1) ∧ (s.jobRun = true) ∧ (s.rd bTIM TIM_CFG_STEP_LIMIT < (sext 32 (s.rd bTIM TIM_ADJ)).natAbs)) &&
    ran (.timStep τ i v) s (fun t => decide (
    t.rd bTIM TIM_STAT_REFUSED = 1 ∧ t.tb = (s.at τ).tb ∧ t.cnt bTIM TIM_CNT_STEP_REFUSED = satInc (s.cnt bTIM TIM_CNT_STEP_REFUSED) 1)))
    ({ st [(3, COM_STATE_FSM, 2), (3, TIM_ADJ, 0xFFFFFC17), (0x12, LNK_EPOCH_STAT_JOB_RUN, 1)] with tb := { time := 5 } }) 0 1 2 = true := by
  decide +kernel

theorem witness_TimeIsSetSteeredAndRead_9 : (fun (s : State) (τ : Nat) (i v : Nat) => decide ((s.mgmtOrHost i = true) ∧ (s.rd bTIM COM_FENCE_FENCE ≠ 1) ∧ (s.linkTime = false) ∧ (popCount 3 v ≤ 1) ∧ (bit v 2 = 1)) &&
    ran (.servoMark τ i v) s (fun t => decide (
    t.rd bTIM TIM_STAT_SOURCE = 2 ∧ t.tb.holdFrom = some t.now ∧ t.tb.time = (s.at τ).tb.time)))
    ({ st [(3, COM_STATE_FSM, 2)] with tb := { time := 5 } }) 0 1 4 = true := by
  decide +kernel

theorem witness_TimeIsSetSteeredAndRead_10 : (fun (s : State) (τ : Nat) (i : Nat) => decide ((s.regAllowed i false bTIM 0x110 = true)) &&
    ran (.timNowNs τ i) s (fun t => decide (
    t.resp.status = 0 ∧ t.resp.data = [(s.at τ).tb.time / 4294967296 % 1000000000] ∧ Store.get 0 t.tb.latch i = (s.at τ).tb.time ∧ t.tb.time = (s.at τ).tb.time)))
    ({ st [(3, COM_STATE_FSM, 2)] with tb := { time := 1000000000 * 4294967296 + 77 * 4294967296 + 5 } }) 0 1 = true := by
  decide +kernel

theorem witness_TimeIsSetSteeredAndRead_11 : (fun (s : State) (τ : Nat) (ticks : Nat) => decide ((s.rd bPWR PWR_STAT_STATE < 3) ∧ ((s.at τ).due perTick 1000 = true) ∧ (ticks < 499 ∨ 501 < ticks)) &&
    ran (.tickMonitorWindow τ ticks) s (fun t => decide (
    t.rd bTIM TIM_STAT_TICK_FAULT = 1 ∧ t.cnt bTIM TIM_CNT_TICK_FAULT = satInc (s.cnt bTIM TIM_CNT_TICK_FAULT) 1)))
    ({ st [(3, COM_STATE_FSM, 2)] with tb := {  } }) 0 502 = true := by
  decide +kernel

theorem witness_TimeIsSetSteeredAndRead_12 : (fun (s : State) (τ : Nat) (ticks : Nat) => decide ((s.rd bPWR PWR_STAT_STATE < 3) ∧ ((s.at τ).due perTick 1000 = true) ∧ (499 ≤ ticks) ∧ (ticks ≤ 501)) &&
    ranTo (.tickMonitorWindow τ ticks) s ((s.at τ).mark perTick))
    ({ st [(3, COM_STATE_FSM, 2)] with tb := {  } }) 0 501 = true := by
  decide +kernel

theorem witness_TimeIsSetSteeredAndRead_13 : (fun (s : State) (τ : Nat) (ticks : Nat) => decide ((3 ≤ s.rd bPWR PWR_STAT_STATE ∨ (s.at τ).due perTick 1000 = false)) &&
    ranTo (.tickMonitorWindow τ ticks) s (s.at τ))
    ({ now := 999, sys := { lastAt := [(6, 1)] } }) 0 1 = true := by
  decide +kernel

theorem witness_TimeIsSetSteeredAndRead_14 : (fun (s : State) (τ : Nat) (h : Nat) => decide ((s.tb.holdFrom = some h) ∧ (s.rd bTIM TIM_STAT_HOLDOVER = 0) ∧ (h + s.rd bTIM TIM_CFG_HOLD_MS * 1000000 ≤ (s.at τ).now)) &&
    ran (.holdover τ) s (fun t => decide (
    t.rd bTIM TIM_STAT_HOLDOVER = 1 ∧ t.cnt bTIM TIM_CNT_HOLDOVER = satInc (s.cnt bTIM TIM_CNT_HOLDOVER) 1)))
    ({ st [(3, COM_STATE_FSM, 2), (3, TIM_CFG_HOLD_MS, 1)] with tb := { holdFrom := some 4 }, now := 1000004 }) 0 4 = true := by
  decide +kernel

theorem witness_TimeIsSetSteeredAndRead_15 : (fun (s : State) (τ : Nat) (k x : Nat) => decide ((k < 8) ∧ ((s.at τ).genDue k = some x) ∧ ((s.at τ).steppedOver x = true)) &&
    ran (.generatorInstant τ k) s (fun t => decide (
    t.cnt bTIM TIM_CNT_TRIG_SKIP = satInc (s.cnt bTIM TIM_CNT_TRIG_SKIP) 1 ∧ Store.get 0 t.tb.genFired k = x ∧ t.field = s.field)))
    ({ st [(3, COM_STATE_FSM, 2), (3, TIM_GEN_CFG_EN 7, 1), (3, TIM_GEN_CFG_STB 7, 1), (3, TIM_GEN_STEP_LO 7, 25600)] with tb := { time := 100 * 4294967296, jumps := [(0, 200 * 4294967296)] } }) 0 7 (100 * 4294967296) = true := by
  decide +kernel

theorem witness_TimeIsSetSteeredAndRead_16 : (fun (s : State) (τ : Nat) (k x : Nat) => decide ((k < 8) ∧ ((s.at τ).genDue k = some x) ∧ ((s.at τ).steppedOver x = false) ∧ (s.act bTIM (TIM_GEN_CFG_TAN k) = 0)) &&
    ran (.generatorInstant τ k) s (fun t => decide (
    t.tb.time = (s.at τ).tb.time ∧ Store.get 0 t.tb.genFired k = x ∧ t.cnt bTIM TIM_CNT_TRIG_SKIP = s.cnt bTIM TIM_CNT_TRIG_SKIP)))
    ({ st [(3, COM_STATE_FSM, 2), (3, TIM_GEN_CFG_EN 7, 1), (3, TIM_GEN_CFG_STB 7, 1), (3, TIM_GEN_STEP_LO 7, 25600)] with tb := { time := 100 * 4294967296 } }) 0 7 (100 * 4294967296) = true := by
  decide +kernel

theorem witness_TimeIsSetSteeredAndRead_17 : (fun (s : State) (τ : Nat) (k : Nat) => decide (((s.at τ).genDue k = none)) &&
    ranTo (.generatorInstant τ k) s (s.at τ))
    ({ st [(3, COM_STATE_FSM, 2)] with tb := {  } }) 0 7 = true := by
  decide +kernel

theorem witness_TimeIsSetSteeredAndRead_18 : (fun (s : State) (τ : Nat) (c src : Nat) (rising : Bool) (ago : Nat) => decide ((s.runs bTIM = true) ∧ (s.rd bTIM (TIM_CAP_CFG_SRC c) = src) ∧ (edgeTaken (s.rd bTIM (TIM_CAP_CFG_EDGE c)) rising = true) ∧ ((Store.get [] s.tb.caps c).length < 16)) &&
    ran (.captureEdge τ c src rising ago) s (fun t => decide (
    Store.get [] t.tb.caps c = Store.get [] s.tb.caps c ++
          [{ rising := rising, sec := ((s.at τ).tb.time - ago / 2 * s.tb.inc) / (1000000000 * 4294967296) % 4294967296, ns := ((s.at τ).tb.time - ago / 2 * s.tb.inc) / 4294967296 % 1000000000 }])))
    ({ st [(3, COM_STATE_FSM, 2), (3, TIM_CAP_CFG_EDGE 3, 2), (3, TIM_CAP_CFG_SRC 3, 17)] with tb := { time := 900 * 4294967296 } }) 0 3 17 false 7 = true := by
  decide +kernel

theorem witness_TimeIsSetSteeredAndRead_19 : (fun (s : State) (τ : Nat) (c src : Nat) (rising : Bool) (ago : Nat) => decide ((s.runs bTIM = true) ∧ (s.rd bTIM (TIM_CAP_CFG_SRC c) = src) ∧ (edgeTaken (s.rd bTIM (TIM_CAP_CFG_EDGE c)) rising = true) ∧ (16 ≤ (Store.get [] s.tb.caps c).length)) &&
    ran (.captureEdge τ c src rising ago) s (fun t => decide (
    t.cnt bTIM TIM_CNT_CAP_LOST = satInc (s.cnt bTIM TIM_CNT_CAP_LOST) 1 ∧ t.tb = (s.at τ).tb)))
    ({ st [(3, COM_STATE_FSM, 2), (3, TIM_CAP_CFG_EDGE 3, 1)] with tb := { caps := [(3, List.replicate 16 { rising := true })] } }) 0 3 0 true 0 = true := by
  decide +kernel

theorem witness_TimeIsSetSteeredAndRead_20 : (fun (s : State) (τ : Nat) (c src : Nat) (rising : Bool) (ago : Nat) => decide ((s.rd bTIM (TIM_CAP_CFG_SRC c) ≠ src ∨ edgeTaken (s.rd bTIM (TIM_CAP_CFG_EDGE c)) rising = false)) &&
    ranTo (.captureEdge τ c src rising ago) s (s.at τ))
    ({ st [(3, COM_STATE_FSM, 2), (3, TIM_CAP_CFG_EDGE 3, 1)] with tb := {  } }) 0 3 1 true 0 = true := by
  decide +kernel

theorem witness_TimeIsSetSteeredAndRead_21 : (fun (s : State) (τ : Nat) (i c : Nat) => decide ((s.regAllowed i false bTIM (0x30C + 0x20 * c) = true)) &&
    ran (.timCapRecRead τ i c) s (fun t => decide (
    Store.get [] t.tb.caps c = (Store.get [] s.tb.caps c).tail ∧ t.resp.status = 0 ∧ t.resp.data = [((Store.get [] s.tb.caps c).head?.map (fun r => r.ns)).getD 0])))
    ({ st [(3, COM_STATE_FSM, 2)] with tb := { caps := [(3, [{ ns := 44 }])] } }) 0 1 3 = true := by
  decide +kernel

theorem witness_TimeIsSetSteeredAndRead_22 : (fun (s : State) (τ : Nat) (i p : Nat) (rx : Bool) => decide ((s.regAllowed i false bTIM ((if rx then 0x42C else 0x41C) + 0x40 * p) = true)) &&
    ran (.timPtpRecRead τ i p rx) s (fun t => decide (
    t.ptpFifo p rx = (s.ptpFifo p rx).tail ∧ t.ptpFifo p (!rx) = s.ptpFifo p (!rx) ∧ t.resp.status = 0 ∧ t.resp.data = [((s.ptpFifo p rx).head?.map (fun r => r.ns)).getD 0])))
    ({ st [(3, COM_STATE_FSM, 2)] with tb := { ptpRx := [(1, [{ ns := 44 }])] } }) 0 1 1 true = true := by
  decide +kernel

theorem witness_HalterWatchesReactsAndResets_1 : (fun (s : State) (τ : Nat) (p k stage : Nat) (x : Slot) => decide ((p < 2) ∧ (k < 64) ∧ (stage < 7) ∧ (s.slot p k = some x) ∧ (s.stageApplies p k stage = true) ∧ (bit x.reported stage = 0) ∧ (bit x.lateSeen stage = 0) ∧ (bit s.opt.windows stage = 1) ∧ (((nth 0xFFFFFFFF x.due stage : Nat) : Int) ≤ (s.at τ).pos p - x.start)) &&
    ran (.stageDue τ p k stage) s (fun t => decide (
    (t.slot p k).map (fun y => y.lateSeen) = some 32 ∧ bit (t.rd bHLT HLT_STAT_STG_FAULT) stage = 1)))
    ({ st [] with ejt := [(1, { slots := [(63, some { part := 7, start := 0, deadline := 1, due := [0xFFFFFFFF, 0xFFFFFFFF, 0xFFFFFFFF, 0xFFFFFFFF, 0xFFFFFFFF, 0] })] })], merge := [(127, some { part := 7 })], opt := { windows := 0xFF } }) 0 1 63 5 { part := 7, start := 0, deadline := 1, due := [0xFFFFFFFF, 0xFFFFFFFF, 0xFFFFFFFF, 0xFFFFFFFF, 0xFFFFFFFF, 0] } = true := by
  decide +kernel

theorem witness_HalterWatchesReactsAndResets_2 : (fun (s : State) (τ : Nat) (p k stage : Nat) (x : Slot) => decide ((s.slot p k = some x) ∧ ((s.at τ).pos p - x.start < ((nth 0xFFFFFFFF x.due stage : Nat) : Int))) &&
    ranTo (.stageDue τ p k stage) s (s.at τ))
    ({ ejt := [(1, { slots := [(63, some { part := 7, start := 0, deadline := 1, due := [0xFFFFFFFF, 0xFFFFFFFF, 0xFFFFFFFF, 0xFFFFFFFF, 0xFFFFFFFF, 0] })] })], merge := [(127, some { part := 7 })] }) 0 1 63 4 { part := 7, start := 0, deadline := 1, due := [0xFFFFFFFF, 0xFFFFFFFF, 0xFFFFFFFF, 0xFFFFFFFF, 0xFFFFFFFF, 0] } = true := by
  decide +kernel

theorem witness_HalterWatchesReactsAndResets_3 : (fun (s : State) (τ : Nat) (src : Nat) => decide ((src ≤ 2) ∧ (src < 2 → s.isOn (bSTP src) = true)) &&
    ran (.stage7HeartbeatMissing τ src) s (fun t => decide (
    Store.get none t.hlt.s7 (4 * src) = some t.now ∧ (bit s.opt.windows 7 = 1 → bit (t.rd bHLT HLT_STAT_STG_FAULT) 7 = 1))))
    ({ st [(0x1D, COM_STATE_FSM, 2)] with opt := { windows := 0x80 }, now := 6 }) 0 1 = true := by
  decide +kernel

theorem witness_HalterWatchesReactsAndResets_4 : (fun (s : State) (τ : Nat) (k : Nat) (missing : Bool) => decide (((s.at τ).s7Stands k missing = false)) &&
    ran (.stage7Persist τ k missing) s (fun t => decide (
    Store.get none t.hlt.s7 k = none ∧ t.rd bHLT HLT_STAT_LEVEL = s.rd bHLT HLT_STAT_LEVEL)))
    ({ hlt := { s7 := [(8, some 0)] } }) 0 8 false = true := by
  decide +kernel

theorem witness_HalterWatchesReactsAndResets_5 : (fun (s : State) (τ : Nat) (k a : Nat) (missing : Bool) => decide ((Store.get none s.hlt.s7 k = some a) ∧ ((s.at τ).s7Stands k missing = true) ∧ (a + s.opt.s7PersistMs * 1000000 ≤ (s.at τ).now) ∧ (s.jobRun = true) ∧ (bit s.opt.windows 7 = 1) ∧ (s.rd bHLT HLT_STAT_LEVEL ≠ 2)) &&
    ran (.stage7Persist τ k missing) s (fun t => decide (
    t.rd bHLT HLT_STAT_LEVEL = 2 ∧ t.rd bHLT HLT_STAT_CAUSE = 4 ∧ t.rd bFIO FIO_STAT_SAFE = 1)))
    ({ st [(0x12, LNK_EPOCH_STAT_JOB_RUN, 1)] with hlt := { s7 := [(8, some 0)] }, now := 10000000000, opt := { windows := 0x80 } }) 0 8 0 true = true := by
  decide +kernel

theorem witness_HalterWatchesReactsAndResets_6 : (fun (s : State) (τ : Nat) (d : Nat) => decide ((s.hlt.resetDue = some d)) &&
    ranTo (.safeResetDelay τ) s (if d ≤ (s.at τ).now then ((s.at τ).writeEscalation 2 (s.rd bHLT HLT_STAT_CAUSE) 0xFF 0xFF).systemReset RST_CAUSE_HLT_WDT else s.at τ))
    ({ now := 5, hlt := { resetDue := some 5 } }) 0 5 = true := by
  decide +kernel

theorem witness_HalterWatchesReactsAndResets_7 : (fun (s : State) (τ : Nat) (a : Nat) => decide ((s.hlt.selfAt = some a)) &&
    ranTo (.halterEscalationReset τ) s (if a + 1000000 ≤ (s.at τ).now then ((s.at τ).writeEscalation 3 (s.rd bHLT HLT_STAT_CAUSE) 0xFF 0xFF).systemReset RST_CAUSE_HLT_WDT else s.at τ))
    ({ now := 1000000, hlt := { selfAt := some 0 } }) 0 0 = true := by
  decide +kernel

theorem witness_HalterWatchesReactsAndResets_8 : (fun (s : State) (τ : Nat) (p part k v : Nat) (x : Slot) => decide ((s.slotOfPart p part = some (k, x)) ∧ (s.rd bHLT HLT_STAT_FB_OK ≠ 0) ∧ (s.fbResult p part = none) ∧ (s.fbJudge (Store.get {} s.hlt.tables x.fbGen) p part = some v)) &&
    ran (.fallbackResult τ p part) s (fun t => decide (
    t.fbResult p part = some v)))
    ({ ejt := [(1, { slots := [(63, some { part := 7, start := 0, deadline := 1, due := [0xFFFFFFFF, 0xFFFFFFFF, 0xFFFFFFFF, 0xFFFFFFFF, 0xFFFFFFFF, 0] })] })] }) 0 1 7 63 0 { part := 7, start := 0, deadline := 1, due := [0xFFFFFFFF, 0xFFFFFFFF, 0xFFFFFFFF, 0xFFFFFFFF, 0xFFFFFFFF, 0] } = true := by
  decide +kernel

theorem witness_HalterWatchesReactsAndResets_9 : (fun (s : State) (τ : Nat) => decide (True) &&
    ran (.fallbackFault τ) s (fun t => decide (
    t.rd bHLT HLT_STAT_FB_OK = 0 ∧ (s.rd bHLT HLT_STAT_LEVEL ≠ 2 → s.rd bHLT HLT_STAT_SRC0 = 1 ∨ s.rd bHLT HLT_STAT_SRC1 = 1 → t.rd bHLT HLT_STAT_LEVEL = 2 ∧ t.rd bHLT HLT_STAT_CAUSE = 5))))
    (st [(5, HLT_STAT_SRC1, 1), (5, HLT_STAT_LEVEL, 1)]) 0  = true := by
  decide +kernel

theorem witness_HalterWatchesReactsAndResets_10 : (fun (s : State) (τ : Nat) (i v p : Nat) => decide ((s.mgmtOrHost i = true) ∧ (bits v 16 16 = 0xA5C3) ∧ (p < 2) ∧ (bit v p = 1) ∧ (bit v (1 - p) = 0) ∧ (bit v 2 = 0) ∧ (s.restoreOk p = true)) &&
    ran (.restore τ i v) s (fun t => decide (
    t.rd bHLT (hltSrc p) = 0 ∧ t.rd (bEJT p) EJT_SRC = 0 ∧ t.rd bHLT HLT_REQ_STAT = 0 ∧ t.cnt bHLT HLT_CNT_RESTORE = satInc (s.cnt bHLT HLT_CNT_RESTORE) 1)))
    ({ st [(5, HLT_STAT_SRC1, 1), (5, HLT_STAT_LEVEL, 1), (5, HLT_HEALTHY_P1, 65535)] with opt := { restoreParts := 5 } }) 0 1 0xA5C30002 1 = true := by
  decide +kernel

theorem witness_HalterWatchesReactsAndResets_11 : (fun (s : State) (τ : Nat) (i v p : Nat) => decide ((s.mgmtOrHost i = true) ∧ (bits v 16 16 = 0xA5C3) ∧ (p < 2) ∧ (bit v p = 1) ∧ (bit v (1 - p) = 0) ∧ (bit v 2 = 0) ∧ (s.restoreOk p = false)) &&
    ran (.restore τ i v) s (fun t => decide (
    t.rd bHLT (hltSrc p) = s.rd bHLT (hltSrc p) ∧ t.rd bHLT HLT_REQ_STAT = 0x0101 ∧ t.cnt bHLT HLT_CNT_RESTORE = s.cnt bHLT HLT_CNT_RESTORE)))
    (st [(5, HLT_STAT_SRC1, 1), (5, HLT_STAT_LEVEL, 2)]) 0 1 0xA5C30002 1 = true := by
  decide +kernel

theorem witness_HalterWatchesReactsAndResets_12 : (fun (s : State) (τ : Nat) (i v : Nat) => decide ((s.mgmtOrHost i = true) ∧ (bits v 16 16 ≠ 0xA5C3)) &&
    ranTo (.restore τ i v) s (s.at τ))
    ({}) 0 1 2 = true := by
  decide +kernel

theorem witness_HalterWatchesReactsAndResets_13 : (fun (s : State) (τ : Nat) (i v : Nat) => decide ((s.mgmtOrHost i = true) ∧ (bits v 16 16 = 0xA5C3) ∧ (bits v 0 3 = 4) ∧ (bits v 8 3 < 6 ∨ s.jobRun = false)) &&
    ran (.test τ i v) s (fun t => decide (
    t.rd bHLT HLT_REQ_STAT = 0 ∧ t.cnt bHLT HLT_CNT_TEST = satInc (s.cnt bHLT HLT_CNT_TEST) 1 ∧ (bit s.opt.windows (bits v 8 3) = 1 → bit (t.rd bHLT HLT_STAT_STG_FAULT) (bits v 8 3) = 1))))
    ({ st [] with opt := { windows := 0x80 } }) 0 1 0xA5C30704 = true := by
  decide +kernel

theorem witness_HalterWatchesReactsAndResets_14 : (fun (s : State) (τ : Nat) (i v : Nat) => decide ((s.mgmtOrHost i = true) ∧ (bits v 16 16 = 0xA5C3) ∧ (bits v 0 3 = 4) ∧ (6 ≤ bits v 8 3) ∧ (s.jobRun = true)) &&
    ranTo (.test τ i v) s ((s.at τ).wr bHLT HLT_REQ_STAT 0x0101))
    (st [(0x12, LNK_EPOCH_STAT_JOB_RUN, 1)]) 0 1 0xA5C30704 = true := by
  decide +kernel

theorem witness_HalterWatchesReactsAndResets_15 : (fun (s : State) (τ : Nat) (k : Nat) => decide ((s.hlt.selfAt = none) ∧ (s.domOn bHLT = true) ∧ (s.hlt.lastKick = some k) ∧ (4 * ((s.at τ).now - k) < s.opt.hwdUs * 1000)) &&
    ran (.halterKick τ) s (fun t => decide (
    t.hlt.lastKick = some t.now ∧ t.hlt.selfAt = some t.now ∧ t.rd bHLT HLT_STAT_LEVEL = 2 ∧ t.rd bHLT HLT_STAT_CAUSE = 6 ∧ t.rd bFIO FIO_STAT_SAFE = 1)))
    ({ st [(0, PWR_PD_STAT_PSTATE 1, 2)] with hlt := { lastKick := some 0 }, now := 100, opt := { hwdUs := 1000 } }) 0 0 = true := by
  decide +kernel

theorem witness_HalterWatchesReactsAndResets_16 : (fun (s : State) (τ : Nat) (k : Nat) => decide ((s.hlt.selfAt = none) ∧ (s.domOn bHLT = true) ∧ (s.hlt.lastKick.or s.hlt.started = some k) ∧ (k + s.opt.hwdUs * 1000 ≤ (s.at τ).now)) &&
    ran (.halterKickTimeout τ) s (fun t => decide (
    t.hlt.selfAt = some t.now ∧ t.rd bHLT HLT_STAT_LEVEL = 2 ∧ t.rd bHLT HLT_STAT_CAUSE = 6 ∧ t.rd bFIO FIO_STAT_SAFE = 1)))
    ({ st [(0, PWR_PD_STAT_PSTATE 1, 2)] with now := 10000000, hlt := { lastKick := some 0 } }) 0 0 = true := by
  decide +kernel

theorem witness_HalterWatchesReactsAndResets_17 : (fun (s : State) (τ : Nat) => decide ((s.hlt.selfAt = none) ∧ (s.opt.lockstep = true) ∧ (s.domOn bHLT = true)) &&
    ran (.lockstepMismatch τ) s (fun t => decide (
    t.hlt.selfAt = some t.now ∧ t.rd bHLT HLT_STAT_LEVEL = 2 ∧ t.rd bHLT HLT_STAT_CAUSE = 6 ∧ t.rd bFIO FIO_STAT_SAFE = 1)))
    ({ st [(0, PWR_PD_STAT_PSTATE 1, 2)] with opt := { lockstep := true } }) 0  = true := by
  decide +kernel

theorem witness_HalterWatchesReactsAndResets_18 : (fun (s : State) (τ : Nat) => decide ((s.hlt.selfAt = none) ∧ (s.domOn bHLT = true)) &&
    ran (.halterClockFault τ) s (fun t => decide (
    t.hlt.selfAt = some t.now ∧ t.rd bHLT HLT_STAT_LEVEL = 2 ∧ t.rd bHLT HLT_STAT_CAUSE = 6 ∧ t.rd bFIO FIO_STAT_SAFE = 1)))
    (st [(0, PWR_PD_STAT_PSTATE 1, 2)]) 0  = true := by
  decide +kernel

theorem witness_HalterWatchesReactsAndResets_19 : (fun (s : State) (τ : Nat) => decide ((s.hlt.selfAt = none) ∧ (s.domOn bHLT = true)) &&
    ran (.halterDoubleBitError τ) s (fun t => decide (
    t.hlt.selfAt = some t.now ∧ t.rd bHLT HLT_STAT_LEVEL = 2 ∧ t.rd bHLT HLT_STAT_CAUSE = 6 ∧ t.rd bFIO FIO_STAT_SAFE = 1)))
    (st [(0, PWR_PD_STAT_PSTATE 1, 2)]) 0  = true := by
  decide +kernel

theorem witness_HalterWatchesReactsAndResets_20 : (fun (s : State) (τ : Nat) (i v : Nat) => decide ((s.regAllowed i true bHLT 0x30C = true) ∧ (bit v 0 = 1) ∧ (s.rd bHLT HLT_FB_LOAD_BUSY = 0)) &&
    ran (.hltFbLoad τ i v) s (fun t => decide (
    t.rd bHLT HLT_FB_LOAD_BUSY = 1 ∧ t.hlt.loading = some (s.rd64 bHLT HLT_FB_TAB_LO HLT_FB_TAB_HI, s.rd bHLT HLT_FB_LEN))))
    (st [(5, HLT_FB_TAB_LO, 0x1000)]) 0 1 1 = true := by
  decide +kernel

theorem witness_HalterWatchesReactsAndResets_21 : (fun (s : State) (τ : Nat) (a : Nat × Nat) => decide ((s.hlt.loading = some a)) &&
    ran (.fbLoadDone τ) s (fun t => decide (
    t.rd bHLT HLT_FB_LOAD_BUSY = 0 ∧ t.rd bHLT HLT_FB_LOAD_LOAD_STATUS = (s.fbLoadResult a.1 a.2).1 ∧ t.hlt.loading = none ∧ t.hlt.shadow = ((s.fbLoadResult a.1 a.2).2).getD s.hlt.shadow)))
    ({ hlt := { loading := some (0x1000, 68) }, mem := memPuts [] 0x1000 (leBytes 4 0x42465247 ++ leBytes 2 1 ++ List.replicate 58 0 ++ leBytes 4 (crc32 (leBytes 4 0x42465247 ++ leBytes 2 1 ++ List.replicate 58 0))) }) 0 (0x1000, 68) = true := by
  decide +kernel

theorem witness_HalterWatchesReactsAndResets_22 : (fun (s : State) (τ : Nat) (i v a : Nat) => decide ((s.regAllowed i true bHLT 0x418 = true) ∧ (bit v 0 = 1) ∧ (a = s.rd64 bHLT HLT_FW_REQ_LO HLT_FW_REQ_HI) ∧ (s.fwReqStatus a = 0)) &&
    ran (.hltFwReqGo τ i v) s (fun t => decide (
    t.rd bHLT HLT_REQ_STAT = 0 ∧ t.hlt.rules = [(0, [0, 9, 255, 255, 1])])))
    ({ st [(5, HLT_FW_REQ_LO, 0x1000)] with hlt := { rules := [(9, [0, 5, 255, 255, 1])] }, mem := memPuts [] 0x1000 (leBytes 8 0 ++ leBytes 4 9 ++ [255, 255, 1, 0]) }) 0 1 1 0x1000 = true := by
  decide +kernel

theorem witness_HalterWatchesReactsAndResets_23 : (fun (s : State) (τ : Nat) (i v a : Nat) => decide ((s.regAllowed i true bHLT 0x418 = true) ∧ (bit v 0 = 1) ∧ (a = s.rd64 bHLT HLT_FW_REQ_LO HLT_FW_REQ_HI) ∧ (s.fwReqStatus a ≠ 0)) &&
    ranTo (.hltFwReqGo τ i v) s (((s.at τ).fwRead a).wr bHLT HLT_REQ_STAT (s.fwReqStatus a)))
    (st [(5, HLT_FW_REQ_LO, 0x1000), (0x12, LNK_EPOCH_STAT_JOB_RUN, 1)]) 0 1 1 0x1000 = true := by
  decide +kernel

theorem witness_HalterWatchesReactsAndResets_mismatch : (fun (s : State) => s.rd bFIO (FIO_DO_CFG_SRC 7) == 2 && !s.safe && !s.inhibitedHard 1 7)
    (st [(0x1B, COM_STATE_FSM, 2), (0x1B, FIO_DO_CFG_SRC 7, 2), (0x1B, FIO_STAT_UV, 0)]) = true ∧
    (fun (s : State) => match s.hlt.lastKick with | some k => decide (s.opt.hwdUs * 1000 ≤ 4 * (s.now - k)) | none => false)
    { now := 2500000000, hlt := { lastKick := some 0 }, opt := { hwdUs := 1000 } } = true := by
  decide +kernel

theorem witness_SleepWakeAndPowerDomains_1 : (fun (s : State) (τ : Nat) (i v : Nat) => decide ((s.mgmtOrHost i = true) ∧ (bit v 8 = 1) ∧ (bits v 0 3 = 1) ∧ (s.rd bPWR PWR_STAT_STATE = 0) ∧ (s.pwr.entry = none) ∧ (s.pwr.exit = none) ∧ ((s.at τ).quiet = true)) &&
    ran (.pwrSleep τ i v) s (fun t => decide (
    t.rd bPWR PWR_STAT_STATE = 1 ∧ t.rd bPWR PWR_STAT_LAST = 1 ∧ t.rd bPWR PWR_STAT_ENTRY_STATUS = 0 ∧ t.cnt bPWR (PWR_CNT_S 0) = satInc (s.cnt bPWR (PWR_CNT_S 0)) 1)))
    ({}) 0 5 0x101 = true := by
  decide +kernel

theorem witness_SleepWakeAndPowerDomains_2 : (fun (s : State) (τ : Nat) (i v : Nat) => decide ((s.mgmtOrHost i = true) ∧ (bit v 8 = 1) ∧ (2 ≤ bits v 0 3 ∧ bits v 0 3 ≤ 4) ∧ (s.rd bPWR PWR_STAT_STATE = 0) ∧ (s.pwr.entry = none) ∧ (s.pwr.exit = none) ∧ (3 ≤ bits v 0 3 → s.groupNow i = 0) ∧ ((s.at τ).mayEnter (bits v 0 3) = true)) &&
    ran (.pwrSleep τ i v) s (fun t => decide (
    t.pwr.entry = some (bits v 0 3) ∧ t.rd bPWR PWR_STAT_ENTRY_STATUS = 0 ∧ t.rd bPWR PWR_STAT_STATE = 0)))
    ({}) 0 1 0x104 = true := by
  decide +kernel

theorem witness_SleepWakeAndPowerDomains_3 : (fun (s : State) (τ : Nat) (i v : Nat) => decide ((s.mgmtOrHost i = true) ∧ (bit v 8 = 1) ∧ (1 ≤ bits v 0 3 ∧ bits v 0 3 ≤ 4) ∧ (s.rd bPWR PWR_STAT_STATE ≠ 0 ∨ s.pwr.entry.isSome = true ∨ s.pwr.exit.isSome = true ∨ (3 ≤ bits v 0 3 ∧ s.groupNow i ≠ 0) ∨ (s.at τ).mayEnter (bits v 0 3) = false)) &&
    ran (.pwrSleep τ i v) s (fun t => decide (
    t.rd bPWR PWR_STAT_ENTRY_STATUS = 0x0101 ∧ t.pwr = s.pwr ∧ t.rd bPWR PWR_STAT_STATE = s.rd bPWR PWR_STAT_STATE)))
    ({}) 0 5 0x103 = true := by
  decide +kernel

theorem witness_SleepWakeAndPowerDomains_4 : (fun (s : State) (τ : Nat) (tgt : Nat) => decide ((s.pwr.entry = some tgt) ∧ (tgt < 8) ∧ (s.pwr.clk = 0)) &&
    ran (.sleepEntered τ) s (fun t => decide (
    t.rd bPWR PWR_STAT_STATE = tgt ∧ t.pwr.entry = none ∧ t.pstate 35 = 0)))
    ({ st [(0, PWR_PD_STAT_PSTATE 35, 2)] with pwr := { entry := some 2 } }) 0 2 = true := by
  decide +kernel

theorem witness_SleepWakeAndPowerDomains_5 : (fun (s : State) (τ : Nat) (src : Nat) => decide ((src ≤ 6) ∧ (s.pwr.entry = none) ∧ (s.pwr.exit = none) ∧ (2 ≤ s.rd bPWR PWR_STAT_STATE) ∧ (s.wakeAllowed src (s.rd bPWR PWR_STAT_STATE) = true)) &&
    ran (.wake τ src) s (fun t => decide (
    t.pwr.exit = some { src := s.rd bPWR PWR_STAT_STATE, step := 1, since := t.now } ∧ t.rd bPWR PWR_STAT_STEP = 1)))
    (st [(0, PWR_STAT_STATE, 4), (0, PWR_WAKE_EN_DI, 1)]) 0 2 = true := by
  decide +kernel

theorem witness_SleepWakeAndPowerDomains_6 : (fun (s : State) (τ : Nat) (src : Nat) => decide ((src ≤ 6) ∧ (s.pwr.entry = none) ∧ (s.pwr.exit = none) ∧ (s.rd bPWR PWR_STAT_STATE = 1) ∧ (s.wakeAllowed src 1 = true)) &&
    ran (.wake τ src) s (fun t => decide (
    t.rd bPWR PWR_STAT_STATE = 0 ∧ t.pwr.exit = none)))
    (st [(0, PWR_STAT_STATE, 1)]) 0 6 = true := by
  decide +kernel

theorem witness_SleepWakeAndPowerDomains_7 : (fun (s : State) (τ : Nat) (src tgt : Nat) => decide ((src ≤ 6) ∧ (s.pwr.entry = some tgt) ∧ (s.wakeAllowed src tgt = true)) &&
    ran (.wake τ src) s (fun t => decide (
    t.rd bPWR PWR_STAT_ABANDONED = 1 ∧ t.pwr.entry = none ∧ t.cnt bPWR PWR_CNT_ABANDON = satInc (s.cnt bPWR PWR_CNT_ABANDON) 1)))
    ({ st [(0, PWR_WAKE_EN_DI, 1)] with pwr := { entry := some 4 } }) 0 2 4 = true := by
  decide +kernel

theorem witness_SleepWakeAndPowerDomains_8 : (fun (s : State) (τ : Nat) (src : Nat) => decide ((src ≤ 6) ∧ (s.pwr.entry = none) ∧ (s.wakeAllowed src (s.rd bPWR PWR_STAT_STATE) = false)) &&
    ranTo (.wake τ src) s (s.at τ))
    (st [(0, PWR_STAT_STATE, 4)]) 0 4 = true := by
  decide +kernel

theorem witness_SleepWakeAndPowerDomains_9 : (fun (s : State) (τ : Nat) (i v : Nat) => decide (True) &&
    ranTo (.pwrDbell τ i v) s (if i = 5 ∧ bit v 0 = 1 then (s.at τ).wake 4 else s.at τ))
    (st [(0, PWR_STAT_STATE, 2)]) 0 5 1 = true := by
  decide +kernel

theorem witness_SleepWakeAndPowerDomains_10 : (fun (s : State) (τ : Nat) (x : ExitRun) => decide ((s.pwr.exit = some x) ∧ (x.stopped = false) ∧ (x.step < 4)) &&
    ran (.exitStepReady τ) s (fun t => decide (
    t.pwr.exit = some { src := x.src, step := x.step + 1, since := t.now } ∧ t.rd bPWR PWR_STAT_STEP = x.step + 1)))
    ({ pwr := { exit := some { src := 2, step := 3 } } }) 0 { src := 2, step := 3 } = true := by
  decide +kernel

theorem witness_SleepWakeAndPowerDomains_11 : (fun (s : State) (τ : Nat) (x : ExitRun) => decide ((s.pwr.exit = some x) ∧ (x.stopped = false) ∧ (4 ≤ x.step) ∧ (x.src = 4 → s.halterSound = true)) &&
    ranTo (.exitStepReady τ) s ((s.at τ).exitEnd x.src))
    ({ st [(0, PWR_STAT_STATE, 2), (0, PWR_STAT_STEP, 4)] with pwr := { exit := some { src := 2, step := 4 } } }) 0 { src := 2, step := 4 } = true := by
  decide +kernel

theorem witness_SleepWakeAndPowerDomains_12 : (fun (s : State) (τ : Nat) (x : ExitRun) => decide ((s.pwr.exit = some x) ∧ (x.stopped = false) ∧ (x.since + 2 * exitTime x.src x.step ≤ (s.at τ).now)) &&
    ran (.exitStepTimeout τ) s (fun t => decide (
    t.pwr.exit = some (if x.again then { x with stopped := true } else { x with again := true, since := t.now }))))
    ({ now := 200000, pwr := { exit := some { src := 2, step := 4, again := true } } }) 0 { src := 2, step := 4, again := true } = true := by
  decide +kernel

theorem witness_SleepWakeAndPowerDomains_13 : (fun (s : State) (τ : Nat) (n : Nat) => decide ((n < 60) ∧ (s.pstate n = 1) ∧ (s.sys.inReset = false) ∧ (∀ b ∈ blocksOf n, Store.get false s.pwr.saved b = false)) &&
    ran (.domainPowerUp τ n) s (fun t => decide (
    t.pstate n = 2)))
    (st [(0, PWR_PD_STAT_PSTATE 59, 1)]) 0 59 = true := by
  decide +kernel

theorem witness_SleepWakeAndPowerDomains_14 : (fun (s : State) (τ : Nat) (n : Nat) => decide ((n < 60) ∧ (s.pstate n = 1)) &&
    ranTo (.domainPowerUp τ n) s ((s.at τ).upDom n))
    (st [(0, PWR_PD_STAT_PSTATE 53, 1)]) 0 53 = true := by
  decide +kernel

theorem witness_SleepWakeAndPowerDomains_15 : (fun (s : State) (τ : Nat) (n : Nat) => decide ((n < 60) ∧ (s.pstate n = 3)) &&
    ran (.domainPowerDown τ n) s (fun t => decide (
    t.pstate n = (if (blocksOf n).any (fun b => s.fsm b == fSTARTING) then 1 else 0))))
    (st [(0, PWR_PD_STAT_PSTATE 35, 3), (0x61, COM_STATE_FSM, 1)]) 0 35 = true := by
  decide +kernel

theorem witness_SleepWakeAndPowerDomains_16 : (fun (s : State) (τ : Nat) (i v k : Nat) => decide ((i = 1) ∧ (1 ≤ k ∧ k ≤ 3)) &&
    ran (.pwrMcCtrl τ i v) s (fun t => decide (
    if bit v k = 1 then (s.pstate (51 + k) = 0 → t.pstate (51 + k) = 1) else (s.pstate (51 + k) = 2 → bit t.pwr.pendOff k = 1 ∧ t.pstate (51 + k) = 2))))
    (st [(0, PWR_PD_STAT_PSTATE 54, 2)]) 0 1 6 3 = true := by
  decide +kernel

theorem witness_SleepWakeAndPowerDomains_17 : (fun (s : State) (τ : Nat) (i v : Nat) => decide ((i ≠ 1)) &&
    ranTo (.pwrMcCtrl τ i v) s ((s.at τ).deny i true 0x3000000130))
    ({}) 0 2 6 = true := by
  decide +kernel

theorem witness_SleepWakeAndPowerDomains_18 : (fun (s : State) (τ : Nat) (k : Nat) => decide ((1 ≤ k ∧ k ≤ 3) ∧ (bit s.pwr.pendOff k = 1)) &&
    ran (.coreWaitForInterrupt τ k) s (fun t => decide (
    t.pstate (51 + k) = 0 ∧ bit (t.rd bPWR PWR_MC_CTRL_ON) (k - 1) = 0 ∧ bit t.pwr.pendOff k = 0)))
    ({ st [(0, PWR_PD_STAT_PSTATE 54, 2), (0, PWR_MC_CTRL_ON, 7)] with pwr := { pendOff := 8 } }) 0 3 = true := by
  decide +kernel

theorem witness_SleepWakeAndPowerDomains_19 : (fun (s : State) (τ : Nat) (i : Nat) (hi : Bool) (v n : Nat) => decide ((s.mgmtOrHost i = true) ∧ (n < 60) ∧ (if hi then 32 ≤ n ∧ bit v (n - 32) = 1 else n < 32 ∧ bit v n = 1)) &&
    ran (.pwrRelease τ i hi v) s (fun t => decide (
    if s.pstate n = 2 then t.rd bPWR (PWR_PD_STAT_HELD n) = 0 ∨ 1 < s.rd bPWR (PWR_PD_STAT_HELD n) else t.rd bPWR PWR_STAT_REL_REFUSED = 1)))
    (st [(0, PWR_PD_STAT_PSTATE 59, 2), (0, PWR_PD_STAT_HELD 59, 1)]) 0 1 true 0x08000000 59 = true := by
  decide +kernel

theorem witness_ClocksCapDroopAndThermalLimits_1 : (fun (s : State) (τ : Nat) (c : Nat) => decide ((c < 34) ∧ (s.rd bCLK (CLK_CLU_OP_OP_MAX c) < 8)) &&
    ran (.opTargetChange τ c) s (fun t => decide (
    t.opTgt c = min (s.rd bCLK (CLK_CLU_OP_OP_MAX c)) (s.rd bCLK (CLK_CLU_OP_OP_CAP c)))))
    (st [(2, CLK_CLU_OP_OP_CAP 33, 3)]) 0 33 = true := by
  decide +kernel

theorem witness_ClocksCapDroopAndThermalLimits_2 : (fun (s : State) (τ : Nat) (c : Nat) => decide ((c < 34) ∧ (s.fsm (bCLU c) ≠ fOFF) ∧ (s.rd bCLK (CLK_RAIL_STAT_AVS_FAULT (c % 4)) = 0) ∧ (s.opCur c < 8) ∧ (min (s.rd bCLK (CLK_CLU_OP_OP_MAX c)) (s.rd bCLK (CLK_CLU_OP_OP_CAP c)) < s.opCur c)) &&
    ran (.opTargetChange τ c) s (fun t => decide (
    t.opCur c = min (s.rd bCLK (CLK_CLU_OP_OP_MAX c)) (s.rd bCLK (CLK_CLU_OP_OP_CAP c)))))
    (st [(2, CLK_CLU_OP_OP_CAP 33, 3), (2, CLK_CLU_OP_OP_CUR 33, 7), (0x61, COM_STATE_FSM, 2)]) 0 33 = true := by
  decide +kernel

theorem witness_ClocksCapDroopAndThermalLimits_3 : (fun (s : State) (τ : Nat) (r : Nat) (e : Nat × Nat) => decide ((r < 4) ∧ ((s.rail r).req = some e)) &&
    ran (.avsAck τ r) s (fun t => decide (
    (t.rail r).ack = e.1)))
    ({ st [(0x61, COM_STATE_FSM, 2), (0x61, CLU_CTRL_ROLE, 0), (2, CLK_CLU_OP_OP_TGT 33, 5)] with pwr := { rails := [(1, { ack := 0, req := some (5, 0) })] } }) 0 1 (5, 0) = true := by
  decide +kernel

theorem witness_ClocksCapDroopAndThermalLimits_4 : (fun (s : State) (τ : Nat) (r : Nat) (e : Nat × Nat) => decide ((r < 4) ∧ ((s.rail r).req = some e) ∧ (e.2 + 2000000 ≤ (s.at τ).now)) &&
    ran (.avsTimeout τ r) s (fun t => decide (
    t.rd bCLK (CLK_RAIL_STAT_AVS_FAULT r) = 1 ∧ (t.rail r).req = none ∧ t.cnt bCLK CLK_CNT_AVS_TIMEOUT = satInc (s.cnt bCLK CLK_CNT_AVS_TIMEOUT) 1)))
    ({ now := 2000000, pwr := { rails := [(1, { ack := 0, req := some (5, 0) })] } }) 0 1 (5, 0) = true := by
  decide +kernel

theorem witness_ClocksCapDroopAndThermalLimits_5 : (fun (s : State) (τ : Nat) (mw : Nat) => decide (((s.at τ).due perPower 10000 = true)) &&
    ran (.powerSample τ mw) s (fun t => decide (
    t.pwr.energy = (s.pwr.energy + mw * 10) % 1000000000 ∧ t.cnt bCAP CAP_ENERGY_J = satInc (s.cnt bCAP CAP_ENERGY_J) ((s.pwr.energy + mw * 10) / 1000000000) ∧ t.pwr.samples = (if s.capOn then s.pwr.samples ++ [mw] else s.pwr.samples))))
    ({ now := 10000, sys := { lastAt := [(3, 1)] }, pwr := { energy := 999999990 } }) 0 1 = true := by
  decide +kernel

theorem witness_ClocksCapDroopAndThermalLimits_6 : (fun (s : State) (τ : Nat) (mw : Nat) => decide (((s.at τ).due perPower 10000 = false)) &&
    ranTo (.powerSample τ mw) s (s.at τ))
    ({ now := 9999, sys := { lastAt := [(3, 1)] } }) 0 1 = true := by
  decide +kernel

theorem witness_ClocksCapDroopAndThermalLimits_7 : (fun (s : State) (τ : Nat) (est : List Nat) (other : Nat) (temps : List Int) => decide ((s.capOn = false ∨ s.pwr.samples = [] ∨ (s.at τ).due perCap 100000 = false)) &&
    ranTo (.capPeriod τ est other temps) s ((s.at τ).readTemps temps))
    ({}) 0 [] 0 [400, 560] = true := by
  decide +kernel

theorem witness_ClocksCapDroopAndThermalLimits_8 : (fun (s : State) (τ : Nat) (r : Nat) (below : Int) => decide ((r < 4) ∧ ((s.rd bCAP CAP_CFG_DROOP_MV : Int) < below) ∧ (Store.get none s.pwr.droop r = none)) &&
    ran (.droopDetect τ r below) s (fun t => decide (
    Store.get none t.pwr.droop r = some t.now ∧ t.cnt bCAP CAP_CNT_DROOP = satInc (s.cnt bCAP CAP_CNT_DROOP) 1)))
    ({ st [(4, CAP_CFG_DROOP_MV, 50)] with now := 7 }) 0 3 51 = true := by
  decide +kernel

theorem witness_ClocksCapDroopAndThermalLimits_9 : (fun (s : State) (τ : Nat) (r a : Nat) (below : Int) => decide ((Store.get none s.pwr.droop r = some a) ∧ (below + 10 < (s.rd bCAP CAP_CFG_DROOP_MV : Int))) &&
    ran (.droopEnd τ r below) s (fun t => decide (
    Store.get none t.pwr.droop r = none ∧ t.cnt bCAP CAP_CNT_DROOP_US = satInc (s.cnt bCAP CAP_CNT_DROOP_US) (((s.at τ).now - a) / 1000) ∧ (a + 100000 < (s.at τ).now → t.rd bCAP CAP_STAT_DROOP = 1))))
    ({ st [(4, CAP_CFG_DROOP_MV, 50)] with now := 100001, pwr := { droop := [(3, some 0)] } }) 0 3 0 39 = true := by
  decide +kernel

theorem witness_ClocksCapDroopAndThermalLimits_10 : (fun (s : State) (τ : Nat) (temps : List Int) => decide ((8 * (s.rd bCAP CAP_CFG_THROTTLE_C : Int) ≤ hottest temps) ∧ (s.pwr.fell = none) ∧ (1 ≤ s.therm ∧ s.therm < 8)) &&
    ran (.throttleStep τ temps) s (fun t => decide (
    t.therm = s.therm - 1 ∧ t.cnt bCAP CAP_CNT_THROTTLE = satInc (s.cnt bCAP CAP_CNT_THROTTLE) 1 ∧ t.pwr.fell = some t.now ∧ t.rd bCAP CAP_STAT_THROTTLED = 1)))
    (st [(4, CAP_CFG_THROTTLE_C, 100)]) 0 [799, 800] = true := by
  decide +kernel

theorem witness_ClocksCapDroopAndThermalLimits_11 : (fun (s : State) (τ : Nat) (temps : List Int) => decide ((hottest temps < 8 * (s.rd bCAP CAP_CFG_THROTTLE_C : Int))) &&
    ranTo (.throttleStep τ temps) s ((({ (s.at τ).readTemps temps with pwr := { s.pwr with fell := none } }) : State)))
    ({ st [(4, CAP_CFG_THROTTLE_C, 100)] with pwr := { fell := some 0 } }) 0 [799] = true := by
  decide +kernel

theorem witness_ClocksCapDroopAndThermalLimits_12 : (fun (s : State) (τ : Nat) (temps : List Int) => decide ((880 ≤ hottest temps)) &&
    ran (.hardThermal τ temps) s (fun t => decide (
    t.therm = 0 ∧ t.pwr.slow = 2 ^ 33)))
    (st [(2, CLK_CLU_OP_OP_CUR 33, 7)]) 0 [880] = true := by
  decide +kernel

theorem witness_ClocksCapDroopAndThermalLimits_13 : (fun (s : State) (τ : Nat) (temps : List Int) => decide ((hottest temps < 880)) &&
    ranTo (.hardThermal τ temps) s ((s.at τ).readTemps temps))
    ({}) 0 [879] = true := by
  decide +kernel

theorem witness_ClocksCapDroopAndThermalLimits_more : (fun (s : State) => s.capOn && !s.pwr.samples.isEmpty) { st [(4, COM_STATE_FSM, 2)] with pwr := { samples := [5, 6] } } = true ∧
    ran (.slopeWindow 0) { now := 640, pwr := { winAt := some 0, clk := 7 } } (fun t => t.pwr.winAt == some 640 && t.pwr.left == 0 && t.pwr.clk == 4) = true ∧
    ran (.throttleRiseStep 0 [759]) (st [(4, CAP_CFG_THROTTLE_C, 100), (4, CAP_STAT_THERM_LIMIT, 6)]) (fun t => t.therm == 7) = true := by
  decide +kernel

theorem witness_LanesFramesAndHostRequests_1 : (fun (s : State) (τ : Nat) (m : Nat) => decide ((s.laneHears m = true)) &&
    ran (.cdrLock τ m) s (fun t => decide (
    t.rd (bSDS m) SDS_STAT_CDR_LOCK = 1 ∧ t.rd (bSDS m) SDS_STAT_SIG_DET = 1 ∧ t.fsm (bSDS m) = s.fsm (bSDS m))))
    (st [(0, PWR_PD_STAT_PSTATE 57, 2), (0xE7, COM_STATE_FSM, 1)]) 0 39 = true := by
  decide +kernel

theorem witness_LanesFramesAndHostRequests_2 : (fun (s : State) (τ : Nat) (m : Nat) (sig : Bool) => decide ((s.laneHears m = true) ∧ (s.rd (bSDS m) SDS_STAT_CDR_LOCK = 1)) &&
    ran (.cdrLockLoss τ m sig) s (fun t => decide (
    t.rd (bSDS m) SDS_STAT_CDR_LOCK = 0 ∧ t.rd (bSDS m) SDS_STAT_TRAINED = 0 ∧ t.rd (bSDS m) SDS_STAT_SIG_DET = (if sig then 1 else 0) ∧ t.cnt (bSDS m) SDS_CNT_LOCK_LOSS = satInc (s.cnt (bSDS m) SDS_CNT_LOCK_LOSS) 1)))
    (st [(0, PWR_PD_STAT_PSTATE 57, 2), (0xE7, COM_STATE_FSM, 2), (0xE7, SDS_STAT_CDR_LOCK, 1), (0xE7, SDS_STAT_TRAINED, 1), (0x12, LNK_PORT_STAT_LANES_UP 1, 8)]) 0 39 true = true := by
  decide +kernel

theorem witness_LanesFramesAndHostRequests_3 : (fun (s : State) (τ : Nat) (i m v : Nat) => decide ((m < 52) ∧ (s.regAllowed i true (bSDS m) 4 = true) ∧ (s.isOn (bSDS m) = true) ∧ (s.fencing (bSDS m) = false) ∧ (bit v 0 = 1) ∧ (bit v 1 = 1)) &&
    ran (.retrain τ i m v) s (fun t => decide (
    t.fsm (bSDS m) = 1 ∧ t.rd (bSDS m) SDS_CTRL_RETRAIN = 1 ∧ t.rd (bSDS m) SDS_STAT_TRAINED = 0 ∧ t.cnt (bSDS m) SDS_CNT_RETRAIN = satInc (s.cnt (bSDS m) SDS_CNT_RETRAIN) 1)))
    (st [(0xF3, COM_STATE_FSM, 2), (0xF3, SDS_STAT_TRAINED, 1)]) 0 1 51 3 = true := by
  decide +kernel

theorem witness_LanesFramesAndHostRequests_4 : (fun (s : State) (τ : Nat) (m r : Nat) => decide ((m < 52) ∧ (s.domOn (bSDS m) = true) ∧ (s.fsm (bSDS m) = 1) ∧ (s.fencing (bSDS m) = false) ∧ (rateListed m r = true) ∧ (m < 44 ∨ r ≤ s.rd bPCIE PCIE_CFG_MAX_SPEED) ∧ (s.rd bPWR (PWR_PD_STAT_HELD (domOf (bSDS m))) = 0) ∧ (s.rd (bSDS m) COM_CTRL_ENABLE = 1)) &&
    ran (.laneTrained τ m r) s (fun t => decide (
    t.fsm (bSDS m) = 2 ∧ t.rd (bSDS m) SDS_STAT_TRAINED = 1 ∧ t.rd (bSDS m) SDS_STAT_RATE = r ∧ t.rd (bSDS m) SDS_CTRL_RETRAIN = 0)))
    (st [(0, PWR_PD_STAT_PSTATE 59, 2), (0xF3, COM_STATE_FSM, 1), (0xF3, COM_CTRL_ENABLE, 1), (0x13, PCIE_CFG_MAX_SPEED, 5)]) 0 51 5 = true := by
  decide +kernel

theorem witness_LanesFramesAndHostRequests_5 : (fun (s : State) (τ : Nat) (i m v : Nat) => decide ((m < 52) ∧ (s.mgmtOrHost i = true) ∧ (s.domOn (bSDS m) = true) ∧ (s.fsm (bSDS m) = 5) ∧ (s.rd (bSDS m) COM_RESET_RESET = 0) ∧ (bit v 0 = 0)) &&
    ran (.sdsTest τ i m v) s (fun t => decide (
    t.rd (bSDS m) SDS_TEST_GEN = (if bits v 20 4 ≤ 8 then bits v 20 4 else s.rd (bSDS m) SDS_TEST_GEN) ∧ t.cnt (bSDS m) SDS_CNT_CHK_ERR = 0 ∧ t.cnt (bSDS m) SDS_CNT_CHK_BITS_LO = 0 ∧ t.fsm (bSDS m) = 5)))
    (st [(0, PWR_PD_STAT_PSTATE 57, 2), (0xE7, COM_STATE_FSM, 5)]) 0 1 39 0x00800000 = true := by
  decide +kernel

theorem witness_LanesFramesAndHostRequests_6 : (fun (s : State) (τ : Nat) (i m v : Nat) => decide ((m < 52) ∧ (s.mgmtOrHost i = true) ∧ (s.domOn (bSDS m) = true) ∧ (s.isOn (bSDS m) = true) ∧ (s.jobRun = false) ∧ (bit v 0 = 1) ∧ (bits v SDS_TEST_INJ_MODE.lo SDS_TEST_INJ_MODE.w = 2)) &&
    ran (.inj τ i m v) s (fun t => decide (
    if m < 44 then (t.sdsX m).inj = true else t.cnt bPCIE PCIE_CNT_REPLAY = satInc (s.cnt bPCIE PCIE_CNT_REPLAY) 1)))
    (st [(0, PWR_PD_STAT_PSTATE 57, 2), (0xE7, COM_STATE_FSM, 2)]) 0 1 39 (2 * 2 ^ SDS_TEST_INJ_MODE.lo + 1) = true := by
  decide +kernel

theorem witness_LanesFramesAndHostRequests_7 : (fun (s : State) (τ : Nat) (m : Nat) => decide ((m < 52) ∧ (s.fsm (bSDS m) = 5) ∧ (s.rd (bSDS m) SDS_TEST_CHK ≠ 0) ∧ (s.rd (bSDS m) SDS_STAT_CHK_SYNC = 0) ∧ (s.rd (bSDS m) SDS_TEST_LOOP = 1 → patternFits (s.rd (bSDS m) SDS_TEST_GEN) (s.rd (bSDS m) SDS_TEST_CHK) (s.rd (bSDS m) SDS_USERPAT) = true)) &&
    ran (.checkerSyncGain τ m) s (fun t => decide (
    t.rd (bSDS m) SDS_STAT_CHK_SYNC = 1 ∧ (t.sdsX m).sync = some t.now)))
    (st [(0xF3, COM_STATE_FSM, 5), (0xF3, SDS_TEST_CHK, 6), (0xF3, SDS_TEST_GEN, 8), (0xF3, SDS_TEST_LOOP, 1), (0xF3, SDS_USERPAT, 0xAAAAAAAA)]) 0 51 = true := by
  decide +kernel

theorem witness_LanesFramesAndHostRequests_8 : (fun (s : State) (τ : Nat) (m errs : Nat) => decide ((m < 52) ∧ (s.rd (bSDS m) SDS_STAT_CHK_SYNC = 1) ∧ (s.rd (bSDS m) SDS_TEST_LOOP = 1 → patternFits (s.rd (bSDS m) SDS_TEST_GEN) (s.rd (bSDS m) SDS_TEST_CHK) (s.rd (bSDS m) SDS_USERPAT) = false)) &&
    ran (.checkerSyncLoss τ m errs) s (fun t => decide (
    t.rd (bSDS m) SDS_STAT_CHK_SYNC = 0 ∧ (t.sdsX m).sync = none ∧ t.cnt (bSDS m) SDS_CNT_CHK_ERR = satInc (s.cnt (bSDS m) SDS_CNT_CHK_ERR) (max 32 errs))))
    ({ st [(0xF3, SDS_STAT_CHK_SYNC, 1)] with sds := [(51, { sync := some 0 })], now := 1000 }) 0 51 31 = true := by
  decide +kernel

theorem witness_LanesFramesAndHostRequests_9 : (fun (s : State) (τ : Nat) (p : Nat) (hi : Bool) => decide ((p < 2) ∧ (s.rd (bETH p) ETH_STAT_LINK = 1)) &&
    ran (.blockLockLoss τ p hi) s (fun t => decide (
    t.rd (bETH p) ETH_STAT_LINK = 0 ∧ t.rd (bETH p) ETH_STAT_BLOCK_LOCK = (if hi then 1 else 0) ∧ t.cnt (bETH p) ETH_CNT_LINK_DOWN = satInc (s.cnt (bETH p) ETH_CNT_LINK_DOWN) 1 ∧ t.ethX p = {})))
    ({ st [(0x15, COM_STATE_FSM, 2), (0x15, ETH_STAT_LINK, 1)] with free := 0 }) 0 1 true = true := by
  decide +kernel

theorem witness_LanesFramesAndHostRequests_10 : (fun (s : State) (τ : Nat) (p : Nat) (f : List Nat) => decide ((p < 2) ∧ (s.rd bPWR PWR_STAT_STATE ≠ 3) ∧ (s.isOn (bETH p) = true) ∧ (s.fencing (bETH p) = false) ∧ (s.rd (bETH p) ETH_STAT_LINK = 1)) &&
    ranTo (.ethFrameReceive τ p f false) s ((s.at τ).inc (bETH p) ETH_CNT_RX_FCS))
    ({ st [(0x15, COM_STATE_FSM, 2), (0x15, ETH_STAT_LINK, 1)] with free := 0 }) 0 1 [1] = true := by
  decide +kernel

theorem witness_LanesFramesAndHostRequests_11 : (fun (s : State) (τ : Nat) (p : Nat) (f : List Nat) => decide ((p < 2) ∧ (s.rd bPWR PWR_STAT_STATE ≠ 3) ∧ (s.isOn (bETH p) = true) ∧ (s.fencing (bETH p) = false) ∧ (s.rd (bETH p) ETH_STAT_LINK = 1) ∧ (f.length + 4 ≤ s.rd (bETH p) ETH_CFG_MTU) ∧ (isPause f = false) ∧ (s.dmaRuns (29 + 2 * p) = true) ∧ ((s.ethX p).rx = [])) &&
    ran (.ethFrameReceive τ p f true) s (fun t => decide (
    (t.ethX p).rx = [f] ∧ t.cnt (bETH p) ETH_CNT_RX_OK = satInc (s.cnt (bETH p) ETH_CNT_RX_OK) 1 ∧ t.cnt (bETH p) ETH_CNT_RX_DROP = s.cnt (bETH p) ETH_CNT_RX_DROP)))
    ({ st [(0x15, COM_STATE_FSM, 2), (0x15, ETH_STAT_LINK, 1), (0x9F, COM_STATE_FSM, 2), (0x15, ETH_CFG_MTU, 1518)] with free := 0 }) 0 1 (List.replicate 60 7) = true := by
  decide +kernel

theorem witness_LanesFramesAndHostRequests_12 : (fun (s : State) (τ : Nat) (p : Nat) (f : List Nat) => decide ((p < 2) ∧ (s.rd bPWR PWR_STAT_STATE ≠ 3) ∧ (s.isOn (bETH p) = true) ∧ (s.fencing (bETH p) = false) ∧ (s.rd (bETH p) ETH_STAT_LINK = 1) ∧ (f.length + 4 ≤ s.rd (bETH p) ETH_CFG_MTU) ∧ (isPause f = false) ∧ (s.dmaRuns (29 + 2 * p) = false)) &&
    ran (.ethFrameReceive τ p f true) s (fun t => decide (
    t.ethX p = s.ethX p ∧ t.cnt (bETH p) ETH_CNT_RX_DROP = satInc (s.cnt (bETH p) ETH_CNT_RX_DROP) 1)))
    ({ st [(0x15, COM_STATE_FSM, 2), (0x15, ETH_STAT_LINK, 1), (0x15, ETH_CFG_MTU, 1518)] with free := 0 }) 0 1 (List.replicate 60 7) = true := by
  decide +kernel

theorem witness_LanesFramesAndHostRequests_13 : (fun (s : State) (τ : Nat) (p : Nat) (f : List Nat) (bad : Bool) (r : List (List Nat × Bool)) => decide ((p < 2) ∧ (s.isOn (bETH p) = true) ∧ (s.fencing (bETH p) = false) ∧ (s.rd (bETH p) ETH_STAT_LINK = 1) ∧ ((s.ethX p).pauseTo ≤ (s.at τ).now) ∧ ((s.ethX p).tx = (f, bad) :: r)) &&
    ran (.ethFrameTransmit τ p) s (fun t => decide (
    (t.ethX p).tx = r ∧ t.out = [.eth 1 [1, 2] false])))
    ({ st [(0x15, COM_STATE_FSM, 2), (0x15, ETH_STAT_LINK, 1)] with eth := [(1, { tx := [([1, 2], true)] })] }) 0 1 [1, 2] true [] = true := by
  decide +kernel

theorem witness_LanesFramesAndHostRequests_14 : (fun (s : State) (τ : Nat) => decide ((s.pwr.perstLow = none)) &&
    ran (.pciePerst τ) s (fun t => decide (
    t.pwr.perstLow = some t.now ∧ t.pcie = {} ∧ t.rd bPCIE PCIE_STAT_LINK_UP = 0 ∧ t.rd 0xF3 SDS_STAT_TRAINED = 0)))
    ({ st [(0x13, COM_STATE_FSM, 2), (0x13, PCIE_STAT_LINK_UP, 1), (0xF3, SDS_STAT_TRAINED, 1)] with pcie := { cfg := [(1, 5)] } }) 0  = true := by
  decide +kernel

theorem witness_LanesFramesAndHostRequests_15 : (fun (s : State) (τ : Nat) (a : Nat) => decide ((s.pwr.perstLow = some a)) &&
    ran (.pciePerstRelease τ) s (fun t => decide (
    t.pwr.perstLow = none)))
    ({ pwr := { perstLow := some 0 } }) 0 0 = true := by
  decide +kernel

theorem witness_LanesFramesAndHostRequests_16 : (fun (s : State) (τ : Nat) => decide ((s.rd bPCIE PCIE_STAT_LINK_UP = 1)) &&
    ran (.pcieLinkDown τ) s (fun t => decide (
    t.rd bPCIE PCIE_STAT_LINK_UP = 0 ∧ t.pcie = {} ∧ t.cnt bPCIE PCIE_CNT_LINK_DOWN = satInc (s.cnt bPCIE PCIE_CNT_LINK_DOWN) 1)))
    ({ st [(0x13, COM_STATE_FSM, 2), (0x13, PCIE_STAT_LINK_UP, 1)] with pcie := { cfg := [(1, 5)] } }) 0  = true := by
  decide +kernel

theorem witness_LanesFramesAndHostRequests_17 : (fun (s : State) (τ : Nat) (wr : Bool) (off v : Nat) => decide ((s.pcieLive = true) ∧ (s.rd bPCIE PCIE_STAT_LINK_UP = 1) ∧ (s.rd bPCIE COM_FENCE_FENCE ≠ 1) ∧ (off < 4096) ∧ (off % 4 = 0)) &&
    ran (.pcieConfigRequest τ wr off v) s (fun t => decide (
    if wr then Store.get 0 t.pcie.cfg (off / 4) = v % 4294967296 + 1 ∧ t.resp.status = 0 else t.resp.data = [s.cfgRead off] ∧ t.pcie = s.pcie)))
    ({ st [(0x13, COM_STATE_FSM, 2), (0x13, PCIE_STAT_LINK_UP, 1)] with free := 0 }) 0 true 16 0xFFFFFFFF = true := by
  decide +kernel

theorem witness_LanesFramesAndHostRequests_18 : (fun (s : State) (τ : Nat) (wr : Bool) (off v : Nat) => decide ((s.pcieLive = true) ∧ (s.rd bPCIE PCIE_STAT_LINK_UP = 1) ∧ (s.rd bPCIE COM_FENCE_FENCE ≠ 1) ∧ (4096 ≤ off ∨ off % 4 ≠ 0)) &&
    ran (.pcieConfigRequest τ wr off v) s (fun t => decide (
    t.resp.status = 0x10001 ∧ t.cnt bPCIE PCIE_CNT_UR = satInc (s.cnt bPCIE PCIE_CNT_UR) 1)))
    ({ st [(0x13, COM_STATE_FSM, 2), (0x13, PCIE_STAT_LINK_UP, 1)] with free := 0 }) 0 true 4096 0 = true := by
  decide +kernel

theorem witness_LanesFramesAndHostRequests_19 : (fun (s : State) (τ : Nat) (wr : Bool) (off v : Nat) => decide ((s.pcieLive = true) ∧ (s.rd bPCIE PCIE_STAT_LINK_UP = 1) ∧ (s.rd bPCIE COM_FENCE_FENCE = 1)) &&
    ran (.pcieConfigRequest τ wr off v) s (fun t => decide (
    t.resp.status = 0x10002 ∧ t.cnt bPCIE PCIE_CNT_CA = satInc (s.cnt bPCIE PCIE_CNT_CA) 1 ∧ t.pcie = s.pcie)))
    ({ st [(0x13, COM_STATE_FSM, 2), (0x13, PCIE_STAT_LINK_UP, 1), (0x13, COM_FENCE_FENCE, 1)] with free := 0 }) 0 true 16 0 = true := by
  decide +kernel

theorem witness_LanesFramesAndHostRequests_20 : (fun (s : State) (τ : Nat) (wr : Bool) (off len v : Nat) => decide ((s.pcieLive = true) ∧ (s.rd bPCIE PCIE_STAT_LINK_UP = 1) ∧ (s.rd bPCIE COM_FENCE_FENCE ≠ 1) ∧ (len ≠ 4 ∨ off % 4 ≠ 0 ∨ 0x10000000 ≤ off)) &&
    ran (.pcieBar0Request τ wr off len v) s (fun t => decide (
    t.resp.status = 0x10001 ∧ t.cnt bPCIE PCIE_CNT_UR = satInc (s.cnt bPCIE PCIE_CNT_UR) 1)))
    ({ st [(0x13, COM_STATE_FSM, 2), (0x13, PCIE_STAT_LINK_UP, 1)] with free := 0 }) 0 true 0 8 0 = true := by
  decide +kernel

theorem witness_LanesFramesAndHostRequests_21 : (fun (s : State) (τ : Nat) (wr : Bool) (off v : Nat) => decide ((s.pcieLive = true) ∧ (s.rd bPCIE PCIE_STAT_LINK_UP = 1) ∧ (s.rd bPCIE COM_FENCE_FENCE ≠ 1) ∧ (off % 4 = 0) ∧ (off < 0x10000000) ∧ (s.rd bRST RST_BOOT_STATUS_STAGE ≠ 6) ∧ ((if wr then (s.at τ).busWrite 5 (0x3000000000 + off) v else (s.at τ).busRead 5 (0x3000000000 + off)).resp.status ≠ 0x0201)) &&
    ranTo (.pcieBar0Request τ wr off 4 v) s (if wr then (s.at τ).busWrite 5 (0x3000000000 + off) v else (s.at τ).busRead 5 (0x3000000000 + off)))
    ({ st [(0x13, COM_STATE_FSM, 2), (0x13, PCIE_STAT_LINK_UP, 1), (0, PWR_PD_STAT_PSTATE 56, 2)] with free := 0 }) 0 false 0x1C00000 0 = true := by
  decide +kernel

theorem witness_LanesFramesAndHostRequests_22 : (fun (s : State) (τ : Nat) (off len : Nat) (data : List Nat) => decide ((s.pcieLive = true) ∧ (s.rd bPCIE PCIE_STAT_LINK_UP = 1) ∧ (s.rd bPCIE COM_FENCE_FENCE ≠ 1) ∧ (0 < data.length) ∧ (off + data.length ≤ dramEnd) ∧ (((s.at τ).hwWrite 5 off (data.map (· % 256))).2 = 0)) &&
    ranTo (.pcieBar2Request τ true off len data false) s (((s.at τ).hwWrite 5 off (data.map (· % 256))).1.answer 0 []))
    ({ st [(0x13, COM_STATE_FSM, 2), (0x13, PCIE_STAT_LINK_UP, 1)] with hlt := { rules := [(0, dramRule)] } }) 0 0x1000 0 [7, 300] = true := by
  decide +kernel

theorem witness_LanesFramesAndHostRequests_23 : (fun (s : State) (τ : Nat) (off len : Nat) (data : List Nat) (poisoned : Bool) => decide ((s.pcieLive = true) ∧ (s.rd bPCIE PCIE_STAT_LINK_UP = 1) ∧ (s.rd bPCIE COM_FENCE_FENCE ≠ 1) ∧ (0 < len) ∧ (off + len ≤ dramEnd) ∧ (((s.at τ).hwRead 5 off len).2.1 ≠ 0x0201)) &&
    ran (.pcieBar2Request τ false off len data poisoned) s (fun t => decide (
    t.resp.data = ((s.at τ).hwRead 5 off len).2.2 ∧ t.resp.status = 0 ∧ t.resp.poisoned = (((s.at τ).hwRead 5 off len).2.1 == 0x0304))))
    ({ st [(0x13, COM_STATE_FSM, 2), (0x13, PCIE_STAT_LINK_UP, 1)] with hlt := { rules := [(0, dramRule)] }, mem := [(0x1000, 9)] }) 0 0x1000 2 [] false = true := by
  decide +kernel

theorem witness_LanesFramesAndHostRequests_24 : (fun (s : State) (τ : Nat) (wr : Bool) (off len : Nat) (data : List Nat) (poisoned : Bool) => decide ((s.pcieLive = true) ∧ (s.rd bPCIE PCIE_STAT_LINK_UP = 1) ∧ (s.rd bPCIE COM_FENCE_FENCE ≠ 1) ∧ (dramEnd < off)) &&
    ran (.pcieBar2Request τ wr off len data poisoned) s (fun t => decide (
    t.resp.status = 0x10001 ∧ t.cnt bPCIE PCIE_CNT_UR = satInc (s.cnt bPCIE PCIE_CNT_UR) 1)))
    ({ st [(0x13, COM_STATE_FSM, 2), (0x13, PCIE_STAT_LINK_UP, 1)] with free := 0 }) 0 true 0xE00000001 1 [1] false = true := by
  decide +kernel

theorem witness_LanesFramesAndHostRequests_25 : (fun (s : State) (τ : Nat) (wr : Bool) (off v : Nat) => decide ((s.pcieLive = true) ∧ (s.rd bPCIE PCIE_STAT_LINK_UP = 1) ∧ (s.rd bPCIE COM_FENCE_FENCE ≠ 1) ∧ (off % 4 = 0) ∧ (off < 512)) &&
    ran (.pcieBar4Request τ wr off v) s (fun t => decide (
    if wr then Store.get 0 t.pcie.msix (off / 4) = v % 4294967296 + 1 ∧ t.resp.status = 0 else t.resp.data = [if Store.get 0 s.pcie.msix (off / 4) = 0 then (if off / 4 % 4 = 3 then 1 else 0) else Store.get 0 s.pcie.msix (off / 4) - 1])))
    ({ st [(0x13, COM_STATE_FSM, 2), (0x13, PCIE_STAT_LINK_UP, 1)] with pcie := { msix := [(127, 6)] } }) 0 false 508 0 = true := by
  decide +kernel

theorem witness_LanesFramesAndHostRequests_26 : (fun (s : State) (τ : Nat) (wr : Bool) (off v : Nat) => decide ((s.pcieLive = true) ∧ (s.rd bPCIE PCIE_STAT_LINK_UP = 1) ∧ (s.rd bPCIE COM_FENCE_FENCE ≠ 1) ∧ (off % 4 ≠ 0 ∨ 0x10000 ≤ off)) &&
    ran (.pcieBar4Request τ wr off v) s (fun t => decide (
    t.resp.status = 0x10001 ∧ t.cnt bPCIE PCIE_CNT_UR = satInc (s.cnt bPCIE PCIE_CNT_UR) 1)))
    ({ st [(0x13, COM_STATE_FSM, 2), (0x13, PCIE_STAT_LINK_UP, 1)] with free := 0 }) 0 false 2 0 = true := by
  decide +kernel

theorem witness_LanesFramesAndHostRequests_long : (fun (s : State) => s.isOn (bETH 1) && s.rd (bETH 1) ETH_STAT_LINK == 1 && decide (s.rd (bETH 1) ETH_CFG_MTU < 9996 + 4))
    (st [(0x15, COM_STATE_FSM, 2), (0x15, ETH_STAT_LINK, 1), (0x15, ETH_CFG_MTU, 1518)]) = true := by
  decide +kernel

theorem witness_DmaFetchesCopiesAndCompletes_1 : (fun (s : State) (τ : Nat) (i n v : Nat) => decide ((n < 32) ∧ (s.regAllowed i true (bDMA n) 0x108 = true) ∧ (s.domOn (bDMA n) = true) ∧ (s.dmaRefuses i n = false) ∧ (s.fsm (bDMA n) = 0 ∨ (s.fsm (bDMA n) = 2 ∧ s.rd (bDMA n) COM_FENCE_FENCE = 0 ∧ s.rd (bDMA n) DMA_STAT_IDLE = 1))) &&
    ran (.dmaHeadLo τ i n v) s (fun t => decide (
    t.dmaCur n = t.rd64 (bDMA n) DMA_HEAD_LO DMA_HEAD_HI ∧ t.rd (bDMA n) DMA_HEAD_LO = v % 4294967296 ∧ (t.dmaX n).armed = true ∧ t.rd (bDMA n) DMA_STAT_IDLE = 0)))
    ({ st [(0x9B, COM_STATE_FSM, 2), (0, PWR_PD_STAT_PSTATE 55, 2), (0x9B, DMA_HEAD_HI, 1), (0x9B, DMA_STAT_IDLE, 1)] with dma := { ch := [(27, {  })] }, hlt := { rules := [(0, dramRule)] } }) 0 1 27 0x1040 = true := by
  decide +kernel

theorem witness_DmaFetchesCopiesAndCompletes_2 : (fun (s : State) (τ : Nat) (i n v : Nat) => decide ((n < 32) ∧ (s.regAllowed i true (bDMA n) 0x108 = true) ∧ (s.domOn (bDMA n) = true) ∧ (s.dmaRefuses i n = true ∨ (s.fsm (bDMA n) = 2 ∧ s.rd (bDMA n) DMA_STAT_IDLE = 0))) &&
    ranTo (.dmaHeadLo τ i n v) s ((s.at τ).wr (bDMA n) DMA_STAT_REFUSED 1))
    ({ st [(0x9B, COM_STATE_FSM, 2), (0, PWR_PD_STAT_PSTATE 55, 2)] with dma := { ch := [(27, {  })] }, hlt := { rules := [(0, dramRule)] } }) 0 1 27 0x1040 = true := by
  decide +kernel

theorem witness_DmaFetchesCopiesAndCompletes_3 : (fun (s : State) (τ : Nat) (i n v a : Nat) (b : List Nat) => decide ((n < 32) ∧ (s.dmaRuns n = true) ∧ (s.regAllowed i true (bDMA n) 0x110 = true) ∧ (s.domOn (bDMA n) = true) ∧ (bit v 0 = 1) ∧ (s.dmaRefuses i n = false) ∧ (s.rd (bDMA n) DMA_STAT_IDLE = 1) ∧ ((s.dmaX n).last = some a) ∧ (((s.at τ).hwRead (0x100 + n) (a + 0x18) 8).2 = (0, b)) ∧ (leNat b ≠ 0)) &&
    ran (.dmaKick τ i n v) s (fun t => decide (
    t.dmaCur n = leNat b ∧ (t.dmaX n).armed = true ∧ t.rd (bDMA n) DMA_STAT_IDLE = 0)))
    ({ st [(0x9B, COM_STATE_FSM, 2), (0, PWR_PD_STAT_PSTATE 55, 2), (0x9B, DMA_STAT_IDLE, 1)] with dma := { ch := [(27, { last := some 0x1000 })] }, hlt := { rules := [(0, dramRule)] }, mem := memPuts [] 0x1018 (leBytes 8 0x5000) }) 0 1 27 1 0x1000 (leBytes 8 0x5000) = true := by
  decide +kernel

theorem witness_DmaFetchesCopiesAndCompletes_4 : (fun (s : State) (τ : Nat) (i n v a : Nat) (b : List Nat) => decide ((n < 32) ∧ (s.dmaRuns n = true) ∧ (s.regAllowed i true (bDMA n) 0x110 = true) ∧ (s.domOn (bDMA n) = true) ∧ (bit v 0 = 1) ∧ (s.dmaRefuses i n = false) ∧ (s.rd (bDMA n) DMA_STAT_IDLE = 1) ∧ ((s.dmaX n).last = some a) ∧ (((s.at τ).hwRead (0x100 + n) (a + 0x18) 8).2 = (0, b)) ∧ (leNat b = 0)) &&
    ran (.dmaKick τ i n v) s (fun t => decide (
    t.rd (bDMA n) DMA_STAT_IDLE = 1 ∧ t.dmaCur n = s.dmaCur n ∧ t.dmaX n = s.dmaX n)))
    ({ st [(0x9B, COM_STATE_FSM, 2), (0, PWR_PD_STAT_PSTATE 55, 2), (0x9B, DMA_STAT_IDLE, 1)] with dma := { ch := [(27, { last := some 0x1000 })] }, hlt := { rules := [(0, dramRule)] } }) 0 1 27 1 0x1000 (List.replicate 8 0) = true := by
  decide +kernel

theorem witness_DmaFetchesCopiesAndCompletes_5 : (fun (s : State) (τ : Nat) (n : Nat) (b : List Nat) => decide ((n < 29 ∨ n = 30) ∧ (s.dmaFetches n = true) ∧ (((s.at τ).hwRead (0x100 + n) (s.dmaCur n) 64).2 = (0, b)) ∧ ((s.dmaX n).segs.length < 64) ∧ ((s.dmaX n).failed = false) ∧ (segPasses n (segOf (s.dmaCur n) b) b = true)) &&
    ran (.descriptorFetch τ n) s (fun t => decide (
    (t.dmaX n).segs = (s.dmaX n).segs ++ [segOf (s.dmaCur n) b] ∧ t.cnt (bDMA n) DMA_CNT_SEGMENTS = satInc (s.cnt (bDMA n) DMA_CNT_SEGMENTS) 1)))
    ({ st [(0x9B, COM_STATE_FSM, 2), (0, PWR_PD_STAT_PSTATE 55, 2), (0x9B, DMA_CUR_LO, 0x1000)] with dma := { ch := [(27, { armed := true })] }, hlt := { rules := [(0, dramRule)] }, mem := memPuts [] 0x1000 (leBytes 8 0x2000 ++ leBytes 8 0x3000 ++ leBytes 4 2 ++ leBytes 2 4 ++ leBytes 2 0 ++ leBytes 8 0 ++ leBytes 8 77 ++ leBytes 2 0 ++ List.replicate 22 0) }) 0 27 (leBytes 8 0x2000 ++ leBytes 8 0x3000 ++ leBytes 4 2 ++ leBytes 2 4 ++ leBytes 2 0 ++ leBytes 8 0 ++ leBytes 8 77 ++ leBytes 2 0 ++ List.replicate 22 0) = true := by
  decide +kernel

theorem witness_DmaFetchesCopiesAndCompletes_6 : (fun (s : State) (τ : Nat) (n : Nat) (b : List Nat) => decide ((n < 29 ∨ n = 30) ∧ (s.dmaFetches n = true) ∧ (((s.at τ).hwRead (0x100 + n) (s.dmaCur n) 64).2 = (0, b)) ∧ ((s.dmaX n).failed = false) ∧ (segPasses n (segOf (s.dmaCur n) b) b = false ∨ 64 ≤ (s.dmaX n).segs.length)) &&
    ran (.descriptorFetch τ n) s (fun t => decide (
    t.cnt (bDMA n) DMA_CNT_PARAM = satInc (s.cnt (bDMA n) DMA_CNT_PARAM) 1 ∧ (t.dmaX n).segs.length = (s.dmaX n).segs.length + 1 ∧ (t.dmaX n).running = none)))
    ({ st [(0x9B, COM_STATE_FSM, 2), (0, PWR_PD_STAT_PSTATE 55, 2), (0x9B, DMA_CUR_LO, 0x1000)] with dma := { ch := [(27, { armed := true })] }, hlt := { rules := [(0, dramRule)] } }) 0 27 (List.replicate 64 0) = true := by
  decide +kernel

theorem witness_DmaFetchesCopiesAndCompletes_7 : (fun (s : State) (τ : Nat) (n st : Nat) => decide ((n < 32) ∧ (s.dmaFetches n = true) ∧ (s.rd (bDMA n) DMA_STAT_HALTED = 0) ∧ (((s.at τ).hwRead (0x100 + n) (s.dmaCur n) 64).2.1 = st) ∧ (st ≠ 0)) &&
    ran (.descriptorFetch τ n) s (fun t => decide (
    t.rd (bDMA n) DMA_STAT_HALTED = 1 ∧ t.rd (bDMA n) DMA_ERR_INFO_STATUS = st ∧ t.rd (bDMA n) DMA_ERR_INFO_DESC = 1 ∧ (t.dmaX n).fetch = some ((s.dmaX n).segs.length, st))))
    ({ st [(0x9B, COM_STATE_FSM, 2)] with dma := { ch := [(27, { armed := true })] } }) 0 27 0x0201 = true := by
  decide +kernel

theorem witness_DmaFetchesCopiesAndCompletes_8 : (fun (s : State) (τ : Nat) (n : Nat) (data : List Nat) (poison : List Nat) (g : DmaSeg) => decide ((n < 29 ∨ n = 30) ∧ (s.dmaRuns n = true) ∧ (s.rd (bDMA n) DMA_STAT_HALTED ≠ 1) ∧ ((s.dmaX n).record = none) ∧ ((s.dmaX n).left ≤ s.dmaRoom n) ∧ ((s.dmaX n).running = some g)) &&
    ranTo (.segmentDone τ n data poison) s (((s.at τ).dmaSpend n (s.dmaX n).left).dmaCopy n g data poison))
    ({ st [(0x9B, COM_STATE_FSM, 2), (0, PWR_PD_STAT_PSTATE 55, 2)] with dma := { ch := [(27, { armed := true, segs := [{ addr := 0x1000, src := 0x2000, dst := 0x3000, len := 2, flags := 4 }], left := 2 })] }, hlt := { rules := [(0, dramRule)] }, mem := memPuts [] 0x2000 [5, 6] }) 0 27 [] [] { addr := 0x1000, src := 0x2000, dst := 0x3000, len := 2, flags := 4 } = true := by
  decide +kernel

theorem witness_DmaFetchesCopiesAndCompletes_9 : (fun (s : State) (τ : Nat) (n : Nat) => decide ((s.dmaRuns n = true) ∧ ((s.dmaX n).closed = true) ∧ ((s.dmaX n).running = none) ∧ ((s.dmaX n).record = none)) &&
    ranTo (.transferComplete τ n) s ((s.at τ).dmaComplete n))
    ({ st [(0x9B, COM_STATE_FSM, 2), (0, PWR_PD_STAT_PSTATE 55, 2)] with dma := { ch := [(27, { closed := true, segs := [{  addr := 0x1000, src := 0x2000, dst := 0x3000, len := 2, flags := 4 , status := some 0, wrote := 2 }] })] }, hlt := { rules := [(0, dramRule)] } }) 0 27 = true := by
  decide +kernel

theorem witness_DmaFetchesCopiesAndCompletes_10 : (fun (s : State) (τ : Nat) (n : Nat) (wr : Bool) (a st : Nat) (data : List Nat) (g : DmaSeg) => decide ((s.dmaRuns n = true) ∧ (s.rd (bDMA n) DMA_STAT_HALTED = 0) ∧ ((s.dmaX n).record = none) ∧ ((s.dmaX n).running = some g) ∧ (st = 0x0201 ∨ st = 0x0202) ∧ (if wr then g.dstHost = true ∧ dmaTx n = false else g.srcHost = true ∧ dmaRx n = false) ∧ (a < 2 ^ 64)) &&
    ran (.dmaBusError τ n wr a st data) s (fun t => decide (
    t.rd (bDMA n) DMA_STAT_HALTED = 1 ∧ t.rd (bDMA n) DMA_ERR_INFO_STATUS = st ∧ t.rd (bDMA n) DMA_ERR_INFO_WRITE = (if wr then 1 else 0) ∧ t.rd64 (bDMA n) DMA_ERR_ADDR_LO DMA_ERR_ADDR_HI = a - a % 4 ∧ t.cnt (bDMA n) DMA_CNT_BUS_ERR = satInc (s.cnt (bDMA n) DMA_CNT_BUS_ERR) 1)))
    ({ st [(0x9B, COM_STATE_FSM, 2), (0, PWR_PD_STAT_PSTATE 55, 2)] with dma := { ch := [(27, { armed := true, segs := [{  addr := 0x1000, src := 0x2000, dst := 0x3000, len := 2, flags := 6  }] })] }, hlt := { rules := [(0, dramRule)] } }) 0 27 true 0x3002 0x0201 [] {  addr := 0x1000, src := 0x2000, dst := 0x3000, len := 2, flags := 6  } = true := by
  decide +kernel

theorem witness_DmaFetchesCopiesAndCompletes_11 : (fun (s : State) (τ : Nat) (i n : Nat) => decide ((n < 32) ∧ (s.regAllowed i true (bDMA n) 0x104 = true) ∧ (s.domOn (bDMA n) = true)) &&
    ran (.haltedClear τ i n) s (fun t => decide (
    t.rd (bDMA n) DMA_STAT_HALTED = 0 ∧ t.rd (bDMA n) DMA_STAT_IDLE = 1)))
    ({ st [(0x9B, COM_STATE_FSM, 2), (0, PWR_PD_STAT_PSTATE 55, 2), (0x9B, DMA_STAT_HALTED, 1)] with dma := { ch := [(27, {  })] }, hlt := { rules := [(0, dramRule)] } }) 0 1 27 = true := by
  decide +kernel

theorem witness_DmaFetchesCopiesAndCompletes_12 : (fun (s : State) (τ : Nat) => decide ((s.dma.win + 1024 ≤ (s.at τ).now)) &&
    ran (.dmaBudgetWindow τ) s (fun t => decide (
    t.dma.total = 0 ∧ t.dma.win = t.now ∧ (t.dmaX 27).used = 0)))
    ({ now := 1024, dma := { total := 9, ch := [(27, { used := 5 })] } }) 0  = true := by
  decide +kernel

theorem witness_DmaFetchesCopiesAndCompletes_13 : (fun (s : State) (τ : Nat) => decide (((s.at τ).now < s.dma.win + 1024)) &&
    ranTo (.dmaBudgetWindow τ) s (s.at τ))
    ({ now := 1023, dma := { total := 9 } }) 0  = true := by
  decide +kernel

theorem witness_LinkResetRequestsNeedTheEnable_1 : (fun (s : State) (τ : Nat) (a src : Nat) => decide ((s.portUp a = true) ∧ (s.rd bRST RST_SRC_EN_LNK_REQ_EN = 1)) &&
    ran (.resetReq τ a src) s (fun t => decide (
    t.sys.inReset = true ∧ t.rd bRST RST_CAUSE_LNK_REQ = 1 ∧ t.rd bLNK (LNK_PORT_STAT_PSTATE 1) = 0)))
    ({ st [(0x12, COM_STATE_FSM, 2), (0x12, LNK_PORT_STAT_PSTATE 0, 3), (0x12, LNK_PORT_STAT_PSTATE 1, 3), (0x12, LNK_PORT_STAT_LANES_UP 0, 15), (0x12, LNK_PORT_STAT_LANES_UP 1, 15)] with free := 0 }) 0 1 1 = true := by
  decide +kernel

theorem witness_LinkResetRequestsNeedTheEnable_2 : (fun (s : State) (τ : Nat) (a src : Nat) => decide ((s.portUp a = true) ∧ (s.rd bRST RST_SRC_EN_LNK_REQ_EN ≠ 1)) &&
    ranTo (.resetReq τ a src) s ((s.at τ).rxFrame a { type := 0x50, src := src, dest := s.modulePos }))
    ({ st [(0x12, COM_STATE_FSM, 2), (0x12, LNK_PORT_STAT_PSTATE 0, 3), (0x12, LNK_PORT_STAT_PSTATE 1, 3), (0x12, LNK_PORT_STAT_LANES_UP 0, 15), (0x12, LNK_PORT_STAT_LANES_UP 1, 15), (1, RST_SRC_EN_LNK_REQ_EN, 0)] with free := 0 }) 0 1 1 = true := by
  decide +kernel

theorem witness_StepKeepsStoresQueueAndTime_1 : (let s : State := { mem := [(3, 1#8)], live := [(4, 1#32)], pending := [.dramWrite 5 1 0x20 [7] false], hlt := { rules := [(0, dramRule)] } }
    Memory.wf s.mem && Store.wf 0#32 s.live && Store.wf false s.poison && Store.wf 0 s.errs &&
    (match step s with
     | .next t => Memory.wf t.mem && decide (t.mem.length = 2) && t.pending.isEmpty && t.now == 5
     | _ => false)) = true := by
  decide +kernel

theorem witness_StepKeepsTilesInRange_1 : (let s : State := { tkS (opWord 0 1 0 (fR 5 7 7)) tk0 with pending := [.add 0 0 (BitVec.ofNat 48 (fR 5 7 7))] }
    s.clu.all (fun e => e.2.tile.all (fun t => t.s.all (fun x => decide (x.2 < 2 ^ 64)) && t.a.all (fun x => decide (x.2 < 2 ^ 64)))) &&
    (match step s with
     | .next u => (u.tileOf 0).any (fun t => t.sreg 5 == 2 ^ 64 - 2)
     | _ => false)) = true := by
  decide +kernel

theorem test_reset : ([0, 1, 2, 3, 5].all (fun b => State.reset.fsm b == 2) && [8, 9, 10, 11, 12].all (fun b => State.reset.fsm b == 1) &&
    (List.range 256).all (fun b => [0, 1, 2, 3, 5, 8, 9, 10, 11, 12].contains b || State.reset.fsm b == 0) &&
    [RST_CAUSE_BOR, RST_CAUSE_PIN, RST_CAUSE_THERM, RST_CAUSE_SW_FULL, RST_CAUSE_CRIT_ERR, RST_CAUSE_LNK_REQ, RST_CAUSE_HLT_WDT].all (fun f => State.reset.rd bRST f == 0) &&
    State.reset.rd bRST RST_CAUSE_POR == 1 && [bPWR, bRST, bCLK, bTIM, bHLT] == [0, 1, 2, 3, 5] && !State.reset.jobRun) = true := by
  decide +kernel

end Sys2Proof.Tests
end

section
/-!
PROOFS. The module as a whole: what every step keeps, the state after reset, accesses to the registers, snapshots, and the function state
machine.
-/

namespace Sys2Proof.Machine

/-! ### The invariant of every step -/

/-- Every command keeps what `Keeps` says, by the lemma about its own meaning. -/
theorem exec_keeps {r s : State} (h : Keeps r s) (i : Instr) : OKeeps r (exec i s) := by
  unfold exec
  cases i with
  | enable => exact execEnable_keeps h | startupComplete => exact execStartupComplete_keeps h | shutdownComplete => exact execShutdownComplete_keeps h
  | fence => exact execFence_keeps h | fenceComplete => exact execFenceComplete_keeps h | reset => exact execReset_keeps h
  | functionResetEnd => exact execFunctionResetEnd_keeps h | snap => exact execSnap_keeps h | internalFault => exact execInternalFault_keeps h
  | registerWrite => exact execRegisterWrite_keeps h | ringReadIndex => exact execRingReadIndex_keeps h | powerOn => exact execPowerOn_keeps h
  | brownOut => exact execBrownOut_keeps h | brownOutRelease => exact execBrownOutRelease_keeps h | rstN => exact execRstN_keeps h
  | rstSwreset => exact execRstSwreset_keeps h | criticalStateError => exact execCriticalStateError_keeps h
  | thermalTrip => exact execThermalTrip_keeps h | thermalTripRelease => exact execThermalTripRelease_keeps h
  | systemResetEnd => exact execSystemResetEnd_keeps h | bootReady => exact execBootReady_keeps h | imageVerified => exact execImageVerified_keeps h
  | dramInitDone => exact execDramInitDone_keeps h | idMemoryReadDone => exact execIdMemoryReadDone_keeps h
  | idReadRetry => exact execIdReadRetry_keeps h | idRecordWriteDone => exact execIdRecordWriteDone_keeps h
  | rstHostBoot => exact execRstHostBoot_keeps h | netBootFileReceived => exact execNetBootFileReceived_keeps h
  | netBootTimeout => exact execNetBootTimeout_keeps h | pciePerst => exact execPciePerst_keeps h | trial => exact execTrial_keeps h
  | trialVerifyDone => exact execTrialVerifyDone_keeps h | cancel => exact execCancel_keeps h | confirm => exact execConfirm_keeps h
  | swapRefusedClear => exact execSwapRefusedClear_keeps h | flashProgram => exact execFlashProgram_keeps h
  | cameraDiscoveryRetry => exact execCameraDiscoveryRetry_keeps h | encoderTypeTest => exact execEncoderTypeTest_keeps h
  | teachIn => exact execTeachIn_keeps h | teachInEdge => exact execTeachInEdge_keeps h | codeVerdict => exact execCodeVerdict_keeps h
  | unmatchedProbeEdge => exact execUnmatchedProbeEdge_keeps h | status => exact execStatus_keeps h | valve => exact execValve_keeps h
  | teach => exact execTeach_keeps h | pocxpOvercurrent => exact execPocxpOvercurrent_keeps h | v24fLow => exact execV24fLow_keeps h
  | v24fHigh => exact execV24fHigh_keeps h | pmbusRefresh => exact execPmbusRefresh_keeps h | clearFaults => exact execClearFaults_keeps h
  | capability => exact execCapability_keeps h | statusByte => exact execStatusByte_keeps h | statusWord => exact execStatusWord_keeps h
  | readVin => exact execReadVin_keeps h | readIin => exact execReadIin_keeps h | readTemperature1 => exact execReadTemperature1_keeps h
  | readTemperature2 => exact execReadTemperature2_keeps h | readPin => exact execReadPin_keeps h | pmbusRevision => exact execPmbusRevision_keeps h
  | mfrId => exact execMfrId_keeps h | mfrModel => exact execMfrModel_keeps h | mfrSerial => exact execMfrSerial_keeps h
  | pmbusOtherWrite => exact execPmbusOtherWrite_keeps h | connectionTest => exact execConnectionTest_keeps h
  | controlAcknowledgement => exact execControlAcknowledgement_keeps h | controlAckTimeout => exact execControlAckTimeout_keeps h
  | linkTestDone => exact execLinkTestDone_keeps h | camLinkLoss => exact execCamLinkLoss_keeps h
  | camHeartbeatTimeout => exact execCamHeartbeatTimeout_keeps h | streamDataPacket => exact execStreamDataPacket_keeps h
  | camHeartbeat => exact execCamHeartbeat_keeps h | eventPacket => exact execEventPacket_keeps h | otherPacket => exact execOtherPacket_keeps h
  | positionTrigger => exact execPositionTrigger_keeps h | timeTrigger => exact execTimeTrigger_keeps h | diTrigger => exact execDiTrigger_keeps h
  | lineLate => exact execLineLate_keeps h | lineEnd => exact execLineEnd_keeps h | stopWaitEnd => exact execStopWaitEnd_keeps h
  | pcamLineEnd => exact execPcamLineEnd_keeps h | cc0PulseEnd => exact execCc0PulseEnd_keeps h
  | pcamSerdataWrite => exact execPcamSerdataWrite_keeps h | pcamSerdataRead => exact execPcamSerdataRead_keeps h
  | serialByteReceived => exact execSerialByteReceived_keeps h | patchJudged => exact execPatchJudged_keeps h | clmTload => exact execClmTload_keeps h
  | clmTloadDone => exact execClmTloadDone_keeps h | intakeFirstPixel => exact execIntakeFirstPixel_keeps h
  | lineVerdict => exact execLineVerdict_keeps h | groupCommit => exact execGroupCommit_keeps h | tanRingRel => exact execTanRingRel_keeps h
  | tanArtDb => exact execTanArtDb_keeps h | decodeDone => exact execDecodeDone_keeps h | tanDictLoad => exact execTanDictLoad_keeps h
  | dictLoadDone => exact execDictLoadDone_keeps h | tanTxtqWr => exact execTanTxtqWr_keeps h | textRecord => exact execTextRecord_keeps h
  | dramRead => exact execDramRead_keeps h | dramWrite => exact execDramWrite_keeps h | scrubRead => exact execScrubRead_keeps h
  | drain => exact execDrain_keeps h | drainDone => exact execDrainDone_keeps h | mem4LogRd => exact execMem4LogRd_keeps h | arm => exact execArm_keeps h
  | tileDispatch => exact execTileDispatch_keeps h | tileEnd => exact execTileEnd_keeps h | tileHung => exact execTileHung_keeps h
  | add => exact execAdd_keeps h | addi => exact execAddi_keeps h | sub => exact execSub_keeps h | mul => exact execMul_keeps h
  | mulh => exact execMulh_keeps h | mulhu => exact execMulhu_keeps h | div => exact execDiv_keeps h | divu => exact execDivu_keeps h
  | rem => exact execRem_keeps h | remu => exact execRemu_keeps h | and => exact execAnd_keeps h | andi => exact execAndi_keeps h
  | or => exact execOr_keeps h | ori => exact execOri_keeps h | xor => exact execXor_keeps h | xori => exact execXori_keeps h
  | sll => exact execSll_keeps h | slli => exact execSlli_keeps h | srl => exact execSrl_keeps h | srli => exact execSrli_keeps h
  | sra => exact execSra_keeps h | srai => exact execSrai_keeps h | min => exact execMin_keeps h | mini => exact execMini_keeps h
  | max => exact execMax_keeps h | maxi => exact execMaxi_keeps h | minu => exact execMinu_keeps h | maxu => exact execMaxu_keeps h
  | sel => exact execSel_keeps h | clz => exact execClz_keeps h | popc => exact execPopc_keeps h | li => exact execLi_keeps h
  | lih => exact execLih_keeps h | cmpEq => exact execCmpEq_keeps h | cmpNe => exact execCmpNe_keeps h | cmpLt => exact execCmpLt_keeps h
  | cmpLtu => exact execCmpLtu_keeps h | cmpGe => exact execCmpGe_keeps h | cmpGeu => exact execCmpGeu_keeps h | cmpiEq => exact execCmpiEq_keeps h
  | cmpiNe => exact execCmpiNe_keeps h | cmpiLt => exact execCmpiLt_keeps h | cmpiLtu => exact execCmpiLtu_keeps h | cmpiGe => exact execCmpiGe_keeps h
  | cmpiGeu => exact execCmpiGeu_keeps h | pand => exact execPand_keeps h | por => exact execPor_keeps h | pxor => exact execPxor_keeps h
  | pandn => exact execPandn_keeps h | amov => exact execAmov_keeps h | aadd => exact execAadd_keeps h | aaddi => exact execAaddi_keeps h
  | amovs => exact execAmovs_keeps h | alocal => exact execAlocal_keeps h | br => exact execBr_keeps h | jr => exact execJr_keeps h
  | call => exact execCall_keeps h | ret => exact execRet_keeps h | loop => exact execLoop_keeps h | ldB => exact execLdB_keeps h
  | ldBu => exact execLdBu_keeps h | ldH => exact execLdH_keeps h | ldHu => exact execLdHu_keeps h | ldW => exact execLdW_keeps h
  | ldWu => exact execLdWu_keeps h | ldD => exact execLdD_keeps h | stB => exact execStB_keeps h | stH => exact execStH_keeps h
  | stW => exact execStW_keeps h | stD => exact execStD_keeps h | vld => exact execVld_keeps h | vst => exact execVst_keeps h
  | xld => exact execXld_keeps h | xst => exact execXst_keeps h | xcp => exact execXcp_keeps h | nop => exact execNop_keeps h
  | endTile => exact execEndTile_keeps h | trap => exact execTrap_keeps h | wait => exact execWait_keeps h | xpf => exact execXpf_keeps h
  | vadd => exact execVadd_keeps h | vsub => exact execVsub_keeps h | vmul => exact execVmul_keeps h | vfma => exact execVfma_keeps h
  | vmin => exact execVmin_keeps h | vmax => exact execVmax_keeps h | vabs => exact execVabs_keeps h | vneg => exact execVneg_keeps h
  | vand => exact execVand_keeps h | vor => exact execVor_keeps h | vxor => exact execVxor_keeps h | vshl => exact execVshl_keeps h
  | vshr => exact execVshr_keeps h | vsra => exact execVsra_keeps h | vcmpEq => exact execVcmpEq_keeps h | vcmpLt => exact execVcmpLt_keeps h
  | vcmpLe => exact execVcmpLe_keeps h | vcmpNe => exact execVcmpNe_keeps h | vsel => exact execVsel_keeps h | vcvt => exact execVcvt_keeps h
  | vwid => exact execVwid_keeps h | vnar => exact execVnar_keeps h | vqsx => exact execVqsx_keeps h | vbcast => exact execVbcast_keeps h
  | vmovi => exact execVmovi_keeps h | vperm => exact execVperm_keeps h | vgetf => exact execVgetf_keeps h | vclrf => exact execVclrf_keeps h
  | vredsum => exact execVredsum_keeps h | vredmax => exact execVredmax_keeps h | vredmin => exact execVredmin_keeps h | vexp2 => exact execVexp2_keeps h
  | vlog2 => exact execVlog2_keeps h | vrcp => exact execVrcp_keeps h | vrsqrt => exact execVrsqrt_keeps h | vsqrt => exact execVsqrt_keeps h
  | vdiv => exact execVdiv_keeps h | vtanh => exact execVtanh_keeps h | vsigm => exact execVsigm_keeps h | verf => exact execVerf_keeps h
  | gfAdd => exact execGfAdd_keeps h | gfMul => exact execGfMul_keeps h | gfMac => exact execGfMac_keeps h | gfHorner => exact execGfHorner_keeps h
  | gfInv => exact execGfInv_keeps h | gfExp => exact execGfExp_keeps h | gfLog => exact execGfLog_keeps h | gfMulc => exact execGfMulc_keeps h
  | mma => exact execMma_keeps h | acczero => exact execAcczero_keeps h | accst => exact execAccst_keeps h | accld => exact execAccld_keeps h
  | acc2v => exact execAcc2v_keeps h | v2acc => exact execV2acc_keeps h | convolution => exact execConvolution_keeps h
  | pooling => exact execPooling_keeps h | upSampling => exact execUpSampling_keeps h | partialReduction => exact execPartialReduction_keeps h
  | stripeGroup => exact execStripeGroup_keeps h | stripeStart => exact execStripeStart_keeps h | projection => exact execProjection_keeps h
  | attention => exact execAttention_keeps h | seqOpen => exact execSeqOpen_keeps h | fork => exact execFork_keeps h | close => exact execClose_keeps h
  | pageCopyDone => exact execPageCopyDone_keeps h | swapOutDone => exact execSwapOutDone_keeps h | swapInDone => exact execSwapInDone_keeps h
  | exchange => exact execExchange_keeps h | barrier => exact execBarrier_keeps h | schQDb => exact execSchQDb_keeps h
  | commandFetch => exact execCommandFetch_keeps h | commandComplete => exact execCommandComplete_keeps h | qen => exact execQen_keeps h
  | keyRecompute => exact execKeyRecompute_keeps h | commandDeadlinePassed => exact execCommandDeadlinePassed_keeps h
  | checkReport => exact execCheckReport_keeps h | verdictDeadline => exact execVerdictDeadline_keeps h | ctxLoad => exact execCtxLoad_keeps h
  | unload => exact execUnload_keeps h | contextLoadDone => exact execContextLoadDone_keeps h | schSrqWr => exact execSchSrqWr_keeps h
  | batchWaitExpiry => exact execBatchWaitExpiry_keeps h | batchSlackExpiry => exact execBatchSlackExpiry_keeps h | write => exact execWrite_keeps h
  | writeAck => exact execWriteAck_keeps h | arrive => exact execArrive_keeps h | release => exact execRelease_keeps h
  | barrierReleaseTime => exact execBarrierReleaseTime_keeps h | announce => exact execAnnounce_keeps h | vote => exact execVote_keeps h
  | voteTimeout => exact execVoteTimeout_keeps h | commit => exact execCommit_keeps h | abort => exact execAbort_keeps h
  | epochApply => exact execEpochApply_keeps h | jobEnded => exact execJobEnded_keeps h | lnkEpochGo => exact execLnkEpochGo_keeps h
  | upgradeReport => exact execUpgradeReport_keeps h | upgradeTimeout => exact execUpgradeTimeout_keeps h | position => exact execPosition_keeps h
  | positionSend => exact execPositionSend_keeps h | timeFrame => exact execTimeFrame_keeps h | timeSend => exact execTimeSend_keeps h
  | members => exact execMembers_keeps h | snapFrame => exact execSnapFrame_keeps h | systemSnapshot => exact execSystemSnapshot_keeps h
  | lnkSsnapGo => exact execLnkSsnapGo_keeps h | hello => exact execHello_keeps h | helloRetry => exact execHelloRetry_keeps h
  | heartbeat => exact execHeartbeat_keeps h | heartbeatSend => exact execHeartbeatSend_keeps h | resetReq => exact execResetReq_keeps h
  | subverdict => exact execSubverdict_keeps h | lack => exact execLack_keeps h | lnak => exact execLnak_keeps h
  | frameForward => exact execFrameForward_keeps h | linkPortTimeout => exact execLinkPortTimeout_keeps h | moduleLost => exact execModuleLost_keeps h
  | module0Lost => exact execModule0Lost_keeps h | recoveredClockLock => exact execRecoveredClockLock_keeps h
  | recoveredClockLoss => exact execRecoveredClockLoss_keeps h | lnkAssign => exact execLnkAssign_keeps h
  | lnkResetreq => exact execLnkResetreq_keeps h | selftest => exact execSelftest_keeps h | selftestDone => exact execSelftestDone_keeps h
  | encoderEdge => exact execEncoderEdge_keeps h | uncertainExpiry => exact execUncertainExpiry_keeps h
  | faultNowExpiry => exact execFaultNowExpiry_keeps h | wireBreak => exact execWireBreak_keeps h | indexEdge => exact execIndexEdge_keeps h
  | ssiReadStart => exact execSsiReadStart_keeps h | ssiReadDone => exact execSsiReadDone_keeps h | standstill => exact execStandstill_keeps h
  | probeEdge => exact execProbeEdge_keeps h | fioPrbRecRead => exact execFioPrbRecRead_keeps h | partStart => exact execPartStart_keeps h
  | slotFire => exact execSlotFire_keeps h | earliestFiringDoubt => exact execEarliestFiringDoubt_keeps h | ejtXopen => exact execEjtXopen_keeps h
  | ejtCommit => exact execEjtCommit_keeps h | ejtFire => exact execEjtFire_keeps h | diSample => exact execDiSample_keeps h
  | outputPulseEnd => exact execOutputPulseEnd_keeps h | outputOverload => exact execOutputOverload_keeps h
  | encoderSupplyLimit => exact execEncoderSupplyLimit_keeps h | strobePulseEnd => exact execStrobePulseEnd_keeps h
  | timIncNs => exact execTimIncNs_keeps h | timSet => exact execTimSet_keeps h | timStep => exact execTimStep_keeps h
  | servoMark => exact execServoMark_keeps h | timNowNs => exact execTimNowNs_keeps h | tickMonitorWindow => exact execTickMonitorWindow_keeps h
  | holdover => exact execHoldover_keeps h | generatorInstant => exact execGeneratorInstant_keeps h | captureEdge => exact execCaptureEdge_keeps h
  | timCapRecRead => exact execTimCapRecRead_keeps h | timPtpRecRead => exact execTimPtpRecRead_keeps h | stageDue => exact execStageDue_keeps h
  | stage7HeartbeatMissing => exact execStage7HeartbeatMissing_keeps h | stage7Persist => exact execStage7Persist_keeps h
  | outputMismatch => exact execOutputMismatch_keeps h | safeResetDelay => exact execSafeResetDelay_keeps h
  | fallbackResult => exact execFallbackResult_keeps h | fallbackFault => exact execFallbackFault_keeps h | restore => exact execRestore_keeps h
  | test => exact execTest_keeps h | halterKick => exact execHalterKick_keeps h | halterKickTimeout => exact execHalterKickTimeout_keeps h
  | lockstepMismatch => exact execLockstepMismatch_keeps h | halterClockFault => exact execHalterClockFault_keeps h
  | halterEscalationReset => exact execHalterEscalationReset_keeps h | hltFbLoad => exact execHltFbLoad_keeps h
  | fbLoadDone => exact execFbLoadDone_keeps h | hltFwReqGo => exact execHltFwReqGo_keeps h | pwrSleep => exact execPwrSleep_keeps h
  | sleepEntered => exact execSleepEntered_keeps h | wake => exact execWake_keeps h | exitStepReady => exact execExitStepReady_keeps h
  | exitStepTimeout => exact execExitStepTimeout_keeps h | pwrDbell => exact execPwrDbell_keeps h | domainPowerUp => exact execDomainPowerUp_keeps h
  | domainPowerDown => exact execDomainPowerDown_keeps h | pwrMcCtrl => exact execPwrMcCtrl_keeps h
  | coreWaitForInterrupt => exact execCoreWaitForInterrupt_keeps h | pwrRelease => exact execPwrRelease_keeps h
  | opTargetChange => exact execOpTargetChange_keeps h | avsAck => exact execAvsAck_keeps h | avsTimeout => exact execAvsTimeout_keeps h
  | powerSample => exact execPowerSample_keeps h | capPeriod => exact execCapPeriod_keeps h | slopeWindow => exact execSlopeWindow_keeps h
  | droopDetect => exact execDroopDetect_keeps h | droopEnd => exact execDroopEnd_keeps h | throttleStep => exact execThrottleStep_keeps h
  | throttleRiseStep => exact execThrottleRiseStep_keeps h | hardThermal => exact execHardThermal_keeps h | cdrLock => exact execCdrLock_keeps h
  | cdrLockLoss => exact execCdrLockLoss_keeps h | retrain => exact execRetrain_keeps h | laneTrained => exact execLaneTrained_keeps h
  | sdsTest => exact execSdsTest_keeps h | inj => exact execInj_keeps h | ethFrameReceive => exact execEthFrameReceive_keeps h
  | ethFrameTransmit => exact execEthFrameTransmit_keeps h | pcieConfigRequest => exact execPcieConfigRequest_keeps h
  | pcieBar0Request => exact execPcieBar0Request_keeps h | pcieBar2Request => exact execPcieBar2Request_keeps h
  | pcieLinkDown => exact execPcieLinkDown_keeps h | dmaHeadLo => exact execDmaHeadLo_keeps h | dmaKick => exact execDmaKick_keeps h
  | descriptorFetch => exact execDescriptorFetch_keeps h | segmentDone => exact execSegmentDone_keeps h
  | transferComplete => exact execTransferComplete_keeps h | dmaBusError => exact execDmaBusError_keeps h
  | haltedClear => exact execHaltedClear_keeps h | dmaBudgetWindow => exact execDmaBudgetWindow_keeps h | frameBadCrc => exact execFrameBadCrc_keeps h
  | wireBreakEnd => exact execWireBreakEnd_keeps h | encoderSupplyLimitEnd => exact execEncoderSupplyLimitEnd_keeps h
  | serialByteSent => exact execSerialByteSent_keeps h | halterDoubleBitError => exact execHalterDoubleBitError_keeps h
  | checkerSyncGain => exact execCheckerSyncGain_keeps h | checkerSyncLoss => exact execCheckerSyncLoss_keeps h
  | pciePerstRelease => exact execPciePerstRelease_keeps h | rstNRelease => exact execRstNRelease_keeps h | vcxpChange => exact execVcxpChange_keeps h
  | stpPosLoRead => exact execStpPosLoRead_keeps h | pcieBar4Request => exact execPcieBar4Request_keeps h
  | blockLockLoss => exact execBlockLockLoss_keeps h

/-- A step takes the front command, if one waits, and from there on keeps what `Keeps` says: an empty queue lets time pass. -/
theorem step_keeps {s t : State} (h : step s = .next t) : Keeps { s with pending := s.pending.tail } t := by
  unfold step at h
  split at h
  next hq =>
    cases h
    have hs : { s with pending := s.pending.tail } = s := by rw [hq, List.tail_nil, ← hq]
    rw [hs]
    exact State.at_keeps (Keeps.refl s)
  next c r hq =>
    rw [hq, List.tail_cons]
    exact (exec_keeps (Keeps.refl _) c).out t h

/-- Settles O58: taking the front command touches neither the stores nor the time, and what follows keeps both (`step_keeps`). -/
theorem stepKeepsStoresQueueAndTime : Obligations.StepKeepsStoresQueueAndTime := by
  intro s t h
  obtain ⟨canonical, _, pending, now⟩ := step_keeps h
  exact ⟨canonical, pending, now⟩

/-! ### The state after reset -/

/-- The stores of the state after reset are canonical: all four are empty. -/
theorem reset_canonical : State.reset.Canonical := ⟨rfl, rfl, rfl, rfl⟩

/-- No cluster of the state after reset has a tile. -/
theorem reset_tilesInRange : State.reset.TilesInRange := fun _ h => nomatch h

/-- Settles O60: the state after reset is a constant; its stores and clusters are empty, and its register values are computed. -/
theorem resetIsAsTheSpecSays : Obligations.ResetIsAsTheSpecSays := by
  refine ⟨reset_canonical, reset_tilesInRange, rfl, rfl, ?on, ?starting, ?off, rfl, ?cause, rfl, ?buckets⟩
  case on => decide
  case starting => decide
  case off => decide +kernel
  case cause => decide
  case buckets => exact fun _ _ => rfl

/-! ### Accesses to a mapped register -/

@[simp] theorem State.at_mgmtOrHost (s : State) (t i : Nat) : (s.at t).mgmtOrHost i = s.mgmtOrHost i := by
  simp [State.mgmtOrHost, State.groupNow, State.jtagOff]

@[simp] theorem State.at_regAllowed (s : State) (t i : Nat) (w : Bool) (b off : Nat) : (s.at t).regAllowed i w b off = s.regAllowed i w b off := by
  simp [State.regAllowed, State.groupNow, State.jtagOff]

@[simp] theorem State.at_domOn (s : State) (t b : Nat) : (s.at t).domOn b = s.domOn b := by
  simp [State.domOn, State.pstate]

@[simp] theorem State.at_jobRun (s : State) (t : Nat) : (s.at t).jobRun = s.jobRun := by
  simp [State.jobRun]

/-- The block that a register's address names. -/
theorem regAt_block {b off : Nat} (h : off < 1048576) : (regAt b off - regBase) / 0x100000 = b := by
  unfold regAt regBase
  omega

/-- The offset that a register's address names. -/
theorem regAt_offset {b off : Nat} (h : off < 1048576) : regAt b off % 0x100000 = off := by
  unfold regAt regBase
  omega

/-- A permitted write of a mapped register that needs no power, or has it, reaches the register (R13, R171, R496). -/
theorem State.busWrite_permitted {s : State} {i b off v : Nat} (hm : regMapped (regAt b off) = true) (ho : off < 1048576)
    (ha : s.regAllowed i true b off = true) (hr : restricted b off = true → s.mgmtOrHost i = true) (hd : 0x14 ≤ off → s.domOn b = true) :
    s.busWrite i (regAt b off) v = (s.answer 0 []).writeReg i b off (v % 4294967296) := by
  have hp : ¬ (0x14 ≤ off ∧ (!s.domOn b) = true) := fun h => by simp [hd h.1] at h
  have hq : (restricted b off && !s.mgmtOrHost i) = false := by
    cases hc : restricted b off
    · rfl
    · simp [hr hc]
  have hdom : (s.answer 0 []).domOn b = s.domOn b := rfl
  simp only [State.busWrite, State.busAccess, regAt_block ho, regAt_offset ho, hm, ha, hq, hp, hdom, Option.isSome_some, Bool.not_true,
    Bool.true_and, Bool.or_self, Bool.false_eq_true, if_false]

/-- A common register is not among those that take writes from management cores and the host only. -/
theorem restricted_common {b off : Nat} (h : off < 0x14) : restricted b off = false := by
  unfold restricted
  simp only [Bool.or_eq_false_iff, Bool.and_eq_false_iff, beq_eq_false_iff_ne, decide_eq_false_iff_not]
  omega

/-- A permitted write of a common register (R12, R13), which needs no power. -/
theorem State.busWrite_common {s : State} {i b off v : Nat} (hm : regMapped (regAt b off) = true) (ho : off < 0x14)
    (ha : s.regAllowed i true b off = true) : s.busWrite i (regAt b off) v = (s.answer 0 []).commonWrite b off (v % 4294967296) := by
  rw [State.busWrite_permitted hm (by omega) ha (by simp [restricted_common ho]) (by omega), State.writeReg, if_pos ho]

/-- A permitted write of a common register, as the command states it. -/
theorem exec_common {s : State} {b v : Nat} {c : Instr} {τ i off : Nat} (hc : exec c s = .next ((s.at τ).busWrite i (regAt b off) v))
    (hm : regMapped (regAt b off) = true) (ha : s.regAllowed i true b off = true) (ho : off < 0x14) :
    exec c s = .next (((s.at τ).answer 0 []).commonWrite b off (v % 4294967296)) := by
  rw [hc, State.busWrite_common hm ho (by simpa using ha)]

/-! ### One field -/

/-- A field's key in a block, and the block and offset that it names. -/
theorem fkey_block {b : Nat} {f : Fld} (ho : f.off < 1048576) (hl : f.lo < 32) : fkey b f / 33554432 = b := by
  unfold fkey
  omega

theorem fkey_offset {b : Nat} {f : Fld} (ho : f.off < 1048576) (hl : f.lo < 32) : fkey b f % 33554432 / 32 = f.off := by
  unfold fkey
  omega

theorem bits_lt (n lo w : Nat) : bits n lo w < 2 ^ w := Nat.mod_lt _ (Nat.two_pow_pos w)

/-- A shadowed field read in effect after it is put into effect. -/
theorem State.act_wrAct_same (s : State) (b : Nat) (f : Fld) (n : Nat) (h : f.w ≤ 32) : (s.wrAct b f n).act b f = n % 2 ^ f.w := by
  have h1 : n % 2 ^ f.w < 2 ^ 32 := lt_of_lt_of_le (Nat.mod_lt _ (by positivity)) (Nat.pow_le_pow_right (by omega) h)
  simp only [State.act, State.wrAct, Store.get_put_same, BitVec.toNat_ofNat, Nat.mod_eq_of_lt h1]

section Field
variable {s : State} {job : Bool} {b v : Nat} {f : Fld}

/-- Whether a field's shadow follows it at once: those of the time base while no job runs (R467). -/
def Fld.atOnce (f : Fld) (job : Bool) (b : Nat) : Bool := f.sh && b == bTIM && !job

/-- Whether a field is a bit of a cluster's exception record, which is cleared in its running copy (R246). -/
def Fld.inExc (f : Fld) (b : Nat) : Prop := 0x40 ≤ b ∧ b < 0x62 ∧ f.off = 0x100

theorem State.writeField_rw (h : f.acc = .rw) : s.writeField job b v f =
    if f.accepts (bits v f.lo f.w) then
      if f.atOnce job b then (s.wr b f (bits v f.lo f.w)).wrAct b f (bits v f.lo f.w) else s.wr b f (bits v f.lo f.w)
    else s := by
  simp [State.writeField, h, Fld.atOnce]

theorem State.writeField_w1c (h : f.acc = .w1c) (he : ¬ f.inExc b) :
    s.writeField job b v f = s.wr b f (s.rd b f - (s.rd b f).land (bits v f.lo f.w)) := by
  unfold Fld.inExc at he
  simp [State.writeField, h, he]

theorem State.writeField_w1c_exc (h : f.acc = .w1c) (he : f.inExc b) :
    s.writeField job b v f = s.setCnt b f (s.cnt b f - (s.cnt b f).land (bits v f.lo f.w)) := by
  unfold Fld.inExc at he
  simp [State.writeField, h, he]

theorem State.writeField_w1s (h : f.acc = .w1s) :
    s.writeField job b v f = if bits v f.lo f.w = 0 then s else s.wr b f ((s.rd b f).lor (bits v f.lo f.w)) := by
  simp [State.writeField, h]

/-- Fields that software does not write this way. -/
theorem State.writeField_ro (h : f.acc = .ro) : s.writeField job b v f = s := by
  simp [State.writeField, h]

/-- What a write of one field can do: write its value, with its shadow or not, write its running copy, or nothing. -/
theorem State.writeField_cases (s : State) (job : Bool) (b v : Nat) (f : Fld) :
    (∃ n, s.writeField job b v f = s.wr b f n) ∨
    (f.atOnce job b = true ∧ ∃ n, s.writeField job b v f = (s.wr b f n).wrAct b f n) ∨
    (∃ n, s.writeField job b v f = s.setCnt b f n) ∨ s.writeField job b v f = s := by
  cases h : f.acc
  case rw =>
    rw [State.writeField_rw h]
    split
    · split
      next hs => exact .inr (.inl ⟨hs, _, rfl⟩)
      · exact .inl ⟨_, rfl⟩
    · exact .inr (.inr (.inr rfl))
  case w1c =>
    by_cases he : f.inExc b
    · exact .inr (.inr (.inl ⟨_, State.writeField_w1c_exc h he⟩))
    · exact .inl ⟨_, State.writeField_w1c h he⟩
  case w1s =>
    rw [State.writeField_w1s h]
    split
    · exact .inr (.inr (.inr rfl))
    · exact .inl ⟨_, rfl⟩
  all_goals exact .inr (.inr (.inr (by simp [State.writeField, h])))

/-- A write of one field leaves every other field and counter. -/
theorem State.writeField_frame {c : Nat} {g : Fld} (h : fkey c g ≠ fkey b f) :
    (s.writeField job b v f).rd c g = s.rd c g ∧ (s.writeField job b v f).cnt c g = s.cnt c g := by
  obtain ⟨n, e⟩ | ⟨_, n, e⟩ | ⟨n, e⟩ | e := State.writeField_cases s job b v f <;> rw [e]
  · exact ⟨State.rd_wr_ne _ _ _ _ _ _ h.symm, rfl⟩
  · exact ⟨State.rd_wr_ne _ _ _ _ _ _ h.symm, rfl⟩
  · exact ⟨rfl, State.cnt_setCnt_ne _ _ _ _ _ _ h.symm⟩
  · exact ⟨rfl, rfl⟩

/-- A field whose shadow waits for an epoch keeps its value in effect (R20). -/
theorem State.writeField_active (h : f.atOnce job b = false) : (s.writeField job b v f).active = s.active := by
  obtain ⟨n, e⟩ | ⟨hs, _⟩ | ⟨n, e⟩ | e := State.writeField_cases s job b v f
  · rw [e]; rfl
  · rw [h] at hs; cases hs
  · rw [e]; rfl
  · rw [e]

/-- A read-write field holds the value written when it accepts it, and so does its shadow where that follows at once. -/
theorem State.writeField_accepted (hw : f.w ≤ 32) (h : f.acc = .rw) (ha : f.accepts (bits v f.lo f.w) = true) :
    (s.writeField job b v f).rd b f = bits v f.lo f.w ∧
    (f.atOnce job b = true → (s.writeField job b v f).act b f = bits v f.lo f.w) := by
  have hx : bits v f.lo f.w % 2 ^ f.w = bits v f.lo f.w := Nat.mod_eq_of_lt (bits_lt _ _ _)
  rw [State.writeField_rw h, if_pos ha]
  refine ⟨?_, fun hs => ?_⟩
  · split <;> simp [hw, hx]
  · rw [if_pos hs, State.act_wrAct_same _ _ _ _ hw, hx]

end Field

/-- Settles O5: the write reaches `writeFields`, whose one step has an equation for each access type and a frame. -/
theorem registerWritesGoFieldByField : Obligations.RegisterWritesGoFieldByField := by
  refine ⟨?write, ?field⟩
  case write =>
    intro s τ i b off v hm ho h14 ha hr hd hv hs
    have hb := State.busWrite_permitted (s := s.at τ) (i := i) hm ho (by simpa using ha) (by simpa using hr) (v := v) (fun _ => by simpa using hd)
    show Host.Outcome.next ((s.at τ).busWrite i (regAt b off) v) = _
    have hj : ((s.at τ).answer 0 []).jobRun = s.jobRun := State.at_jobRun s τ
    rw [hb, Nat.mod_eq_of_lt hv, State.writeReg, if_neg (by omega), hs, hj]
  case field =>
    intro s job b v f hw _ x exc
    have hsh : f.atOnce job b = true ↔ f.sh = true ∧ b = bTIM ∧ job = false := by simp [Fld.atOnce, and_assoc]
    refine ⟨fun h ha => (State.writeField_accepted hw h ha).1, fun h ha hs => (State.writeField_accepted hw h ha).2 (hsh.2 hs),
      fun hs => State.writeField_active (by simpa using mt hsh.1 hs), fun h ha => ?rejected, fun h he => ?w1c, fun h he => ?exception,
      fun h hx => ?w1s, fun h hx => ?w1sZero, State.writeField_ro, fun c g => State.writeField_frame⟩
    case rejected => rw [State.writeField_rw h, if_neg (by simpa using ha)]
    case w1c => rw [State.writeField_w1c h he, State.rd_wr_same _ _ _ _ hw]
    case exception => rw [State.writeField_w1c_exc h he]; exact ⟨State.cnt_setCnt_same _ _ _ _, rfl⟩
    case w1s => rw [State.writeField_w1s h, if_neg hx, State.rd_wr_same _ _ _ _ hw]
    case w1sZero => rw [State.writeField_w1s h, if_pos hx]

/-! ### Snapshots (R18) -/

section Put
variable {α : Type} [DecidableEq α] {d d' : α} {l m : Store α} {k : Nat}

/-- Below the lowest key of a canonical store every key reads the default. -/
theorem Store.get_wfFrom_lt {lo : Nat} (h : Store.wfFrom d lo l = true) (hk : k < lo) : Store.get d l k = d := by
  induction l generalizing lo with
  | nil => rfl
  | cons e r ih =>
    simp only [Store.wfFrom, Bool.and_eq_true, decide_eq_true_eq] at h
    obtain ⟨⟨hlo, _⟩, hr⟩ := h
    rw [Store.get_cons, if_neg (by omega)]
    exact ih hr (by omega)

/-- Putting the entries of a canonical store one by one into another overrides exactly the keys it lists. -/
theorem Store.get_foldl_put {lo : Nat} (h : Store.wfFrom d lo l = true) :
    Store.get d (l.foldl (fun m e => Store.put d m e.1 e.2) m) k = if Store.get d l k = d then Store.get d m k else Store.get d l k := by
  induction l generalizing lo m with
  | nil => simp
  | cons e r ih =>
    simp only [Store.wfFrom, Bool.and_eq_true, decide_eq_true_eq] at h
    obtain ⟨⟨_, hv⟩, hr⟩ := h
    rw [List.foldl_cons, ih hr, Store.get_cons, Store.get_put]
    by_cases hk : e.1 = k
    · rw [if_pos (Store.get_wfFrom_lt hr (by omega)), if_pos hk, if_pos hk, if_neg hv]
    · rw [if_neg hk, if_neg hk]

/-- A key that none of the entries has reads as before. -/
theorem Store.get_foldl_put_ne (h : ∀ e ∈ l, e.1 ≠ k) :
    Store.get d' (l.foldl (fun m e => Store.put d m e.1 e.2) m) k = Store.get d' m k := by
  induction l generalizing m with
  | nil => rfl
  | cons e r ih =>
    simp only [List.mem_cons, forall_eq_or_imp] at h
    rw [List.foldl_cons, ih h.2, Store.get_put_ne h.1]

end Put

section Latch
variable {s : State} {b : Nat}

/-- The registers once the running counters of block `b`'s set are copied into them. -/
def State.latchRegs (s : State) (b : Nat) : Store Word :=
  (s.live.filter (fun e => snapKey b e.1)).foldl (fun l e => Store.put 0#32 l e.1 e.2) (s.regs.filter (fun e => !snapKey b e.1))

/-- A register outside the set keeps its value. -/
theorem State.latchRegs_other {d : Word} {k : Nat} (h : snapKey b k = false) : Store.get d (s.latchRegs b) k = Store.get d s.regs k := by
  have hne : ∀ e ∈ s.live.filter (fun e => snapKey b e.1), e.1 ≠ k := fun e he hk => by
    rw [List.mem_filter, hk, h] at he
    exact absurd he.2 Bool.false_ne_true
  rw [State.latchRegs, Store.get_foldl_put_ne hne]
  exact Store.get_filter_keep (p := fun j => !snapKey b j) (by simp [h])

/-- A register of the set takes the value of its running counter. -/
theorem State.latchRegs_counter {k : Nat} (h : snapKey b k = true) (hw : Store.wf 0#32 s.live = true) :
    Store.get 0#32 (s.latchRegs b) k = Store.get 0#32 s.live k := by
  have hdrop : Store.get 0#32 (s.regs.filter (fun e => !snapKey b e.1)) k = 0#32 :=
    Store.get_filter_drop (p := fun j => !snapKey b j) (by simp [h])
  have hkeep : Store.get 0#32 (s.live.filter (fun e => snapKey b e.1)) k = Store.get 0#32 s.live k := Store.get_filter_keep h
  rw [State.latchRegs, Store.get_foldl_put (Store.wfFrom_filter _ hw), hdrop, hkeep]
  split
  next h0 => exact h0.symm
  · rfl

/-- What a lane's checker adds at a latch: nothing, or both halves of its bit count. -/
theorem State.countChk_cases (s : State) (m : Nat) : s.countChk m = s ∨ ∃ x n k,
    s.countChk m = ((s.setSds m x).setCnt (bSDS m) SDS_CNT_CHK_BITS_LO n).setCnt (bSDS m) SDS_CNT_CHK_BITS_HI k := by
  unfold State.countChk
  dsimp only
  split
  · exact .inl rfl
  · exact .inr ⟨_, _, _, rfl⟩

/-- What a block counts at the latch itself changes no register. -/
@[simp] theorem State.beforeSnap_regs (s : State) (b : Nat) : (s.beforeSnap b).regs = s.regs := by
  unfold State.beforeSnap
  split
  · rfl
  · split
    · obtain e | ⟨x, n, k, e⟩ := State.countChk_cases s (b - 0xC0)
      · rw [e]
      · rw [e]; rfl
    · rfl

/-- Counting at the latch keeps the running counters canonical. -/
theorem State.beforeSnap_live_wf (h : Store.wf 0#32 s.live = true) : Store.wf 0#32 (s.beforeSnap b).live = true := by
  unfold State.beforeSnap
  split
  · exact Store.wf_put h
  · split
    · obtain e | ⟨x, n, k, e⟩ := State.countChk_cases s (b - 0xC0) <;> rw [e]
      · exact h
      · exact Store.wf_put (Store.wf_put h)
    · exact h

/-- The response of the write is no part of what is counted. -/
theorem State.beforeSnap_answer (s : State) (b st : Nat) (l : List Nat) : ((s.answer st l).beforeSnap b).live = (s.beforeSnap b).live := by
  unfold State.beforeSnap
  split
  · rfl
  · split
    · unfold State.countChk
      dsimp only
      cases hx : (s.sdsX (b - 0xC0)).sync with
      | none => rw [show ((s.answer st l).sdsX (b - 0xC0)).sync = none from hx]; rfl
      | some t0 => rw [show ((s.answer st l).sdsX (b - 0xC0)).sync = some t0 from hx]; rfl
    · rfl

@[simp] theorem State.afterSnap_regs (s : State) (b : Nat) : (s.afterSnap b).regs = s.regs := by
  unfold State.afterSnap
  repeat' split
  all_goals rfl

/-- The registers after a latch. -/
theorem State.snapBlk_rd (s : State) (b c : Nat) (g : Fld) : (s.snapBlk b).rd c g =
    (({ s.beforeSnap b with regs := (s.beforeSnap b).latchRegs b } : State).wr b COM_STATE_SNAP_SEQ
      (({ s.beforeSnap b with regs := (s.beforeSnap b).latchRegs b } : State).rd b COM_STATE_SNAP_SEQ + 1)).rd c g :=
  congrArg (fun l => (Store.get (BitVec.ofNat 32 g.rst) l (fkey c g)).toNat) (State.afterSnap_regs _ b)

/-- The latch counter is not in its own set. -/
theorem snapKey_snapSeq : snapKey b (fkey b COM_STATE_SNAP_SEQ) = false := by
  have ho : fkey b COM_STATE_SNAP_SEQ % 33554432 / 32 = 0 := fkey_offset (by decide) (by decide)
  unfold snapKey inSnap
  rw [ho]
  simp

/-- A field's key belongs to a block's set when the field is one of that block, at an offset of the set. -/
theorem snapKey_fkey {c : Nat} {g : Fld} (ho : g.off < 1048576) (hl : g.lo < 32) :
    snapKey b (fkey c g) = (c == b && inSnap b g.off) := by
  rw [snapKey, ofBlk, fkey_block ho hl, fkey_offset ho hl]

theorem State.snapBlk_seq (s : State) (b : Nat) :
    (s.snapBlk b).rd b COM_STATE_SNAP_SEQ = (s.rd b COM_STATE_SNAP_SEQ + 1) % 2 ^ COM_STATE_SNAP_SEQ.w := by
  rw [State.snapBlk_rd, State.rd_wr_same _ _ _ _ (by decide)]
  simp only [State.rd, State.latchRegs_other snapKey_snapSeq, State.beforeSnap_regs]

theorem State.snapBlk_frame {c : Nat} {g : Fld} (ho : g.off < 1048576) (hl : g.lo < 32) (hc : c = b → inSnap b g.off = false)
    (hq : fkey c g ≠ fkey b COM_STATE_SNAP_SEQ) : (s.snapBlk b).rd c g = s.rd c g := by
  have hk : snapKey b (fkey c g) = false := by
    rw [snapKey_fkey ho hl]
    by_cases e : c = b
    · rw [hc e, Bool.and_false]
    · simp [e]
  rw [State.snapBlk_rd, State.rd_wr_ne _ _ _ _ _ _ hq.symm]
  simp only [State.rd, State.latchRegs_other hk, State.beforeSnap_regs]

theorem State.snapBlk_counter {f : Fld} (hi : inSnap b f.off = true) (ho : f.off < 1048576) (hl : f.lo < 32) (hr : f.rst = 0)
    (hw : Store.wf 0#32 (s.beforeSnap b).live = true) : (s.snapBlk b).rd b f = (s.beforeSnap b).cnt b f := by
  have hk : snapKey b (fkey b f) = true := by simp [snapKey_fkey ho hl, hi]
  have hq : fkey b f ≠ fkey b COM_STATE_SNAP_SEQ := fun e => by
    rw [e, snapKey_snapSeq] at hk
    cases hk
  rw [State.snapBlk_rd, State.rd_wr_ne _ _ _ _ _ _ hq.symm]
  simp only [State.rd, State.cnt, hr]
  exact congrArg BitVec.toNat (State.latchRegs_counter hk hw)

end Latch

/-- A permitted write of SNAP 1 latches the block. -/
theorem exec_snap {s : State} {τ i b v : Nat} (hm : regMapped (regAt b 0x10) = true) (ha : s.regAllowed i true b 0x10 = true)
    (hv : v < 4294967296) (h1 : bit v 0 = 1) : exec (.snap τ i b v) s = .next (((s.at τ).answer 0 []).snapBlk b) := by
  rw [exec_common rfl hm ha (by decide), Nat.mod_eq_of_lt hv]
  simp [State.commonWrite, State.snapWrite, h1]

/-- Settles O4: the command is `snapBlk`, which copies the canonical running counters and then counts the latch. -/
theorem snapLatchesTheSnapshotSet : Obligations.SnapLatchesTheSnapshotSet := by
  refine ⟨?seq, ?counter, ?frame⟩
  case seq =>
    intro s τ i b v hm ha hv h1
    refine ⟨_, exec_snap hm ha hv h1, ?_⟩
    simp [State.snapBlk_seq]
  case counter =>
    intro s τ i b v f hm ha hv h1 hi ho hl hr hw
    have hlive : (((s.at τ).answer 0 []).beforeSnap b).live = ((s.at τ).beforeSnap b).live := State.beforeSnap_answer _ _ _ _
    refine ⟨_, exec_snap hm ha hv h1, ?_⟩
    calc _ = (((s.at τ).answer 0 []).beforeSnap b).cnt b f :=
          State.snapBlk_counter hi ho hl hr (State.beforeSnap_live_wf (by simpa using hw))
      _ = ((s.at τ).beforeSnap b).cnt b f := by rw [State.cnt, hlive, State.cnt]
  case frame =>
    intro s τ i b v c g hm ha hv h1 ho hl hc hq
    refine ⟨_, exec_snap hm ha hv h1, ?_⟩
    simp [State.snapBlk_frame ho hl hc hq]

/-! ### The control words of the functions

`STATE`, `FENCE` and `ENABLE` of every function stay as they are under everything that functions do beside the state machine: one lemma
`…_ctl` for each operation. The batch formers, which name a read index by a queue number without a bound, are said to keep `STATE` and
`FENCE` only. -/

/-- The state, the fence and, where `e` asks for it, the `ENABLE` of every function. -/
def ctl (e : Bool) (l : Store Word) (b : Nat) : Word × Word × Word :=
  (Store.get 0#32 l (fkey b COM_STATE_FSM), Store.get 0#32 l (fkey b COM_FENCE_FENCE),
    if e then Store.get 0#32 l (fkey b COM_CTRL_ENABLE) else 0#32)

/-- Whether a field's key is none of those of `STATE`, `FENCE` and, where `e` asks for it, `ENABLE`, whatever block it is taken in. -/
def Fld.apart (e : Bool) (f : Fld) : Bool :=
  f.lo % 32 != 0 ||
  ((f.off + f.lo / 32) % 1048576 != 0 && (f.off + f.lo / 32) % 1048576 != 8 && ((f.off + f.lo / 32) % 1048576 != 4 || !e))

theorem Fld.apart_ne {e : Bool} {f : Fld} (h : f.apart e = true) (b c : Nat) :
    fkey b f ≠ fkey c COM_STATE_FSM ∧ fkey b f ≠ fkey c COM_FENCE_FENCE ∧ (e = true → fkey b f ≠ fkey c COM_CTRL_ENABLE) := by
  simp only [Fld.apart, Bool.or_eq_true, Bool.and_eq_true, bne_iff_ne, Bool.not_eq_true'] at h
  simp only [fkey, COM_STATE_FSM, COM_FENCE_FENCE, COM_CTRL_ENABLE]
  refine ⟨by omega, by omega, fun he => ?_⟩
  simp only [he, Bool.true_eq_false, or_false] at h
  omega

section Ctl
variable {e : Bool} {s : State}

/-- A write of a field that is apart leaves the control words. -/
@[simp] theorem put_ctl {d v : Word} {l : Store Word} {b : Nat} {f : Fld} (h : f.apart e = true) :
    ctl e (Store.put d l (fkey b f) v) = ctl e l := by
  funext c
  obtain ⟨h1, h2, h3⟩ := Fld.apart_ne h b c
  simp only [ctl, Store.get_put_ne h1, Store.get_put_ne h2]
  cases e
  · rfl
  · simp only [if_true, Store.get_put_ne (h3 rfl)]

@[simp] theorem ctl_ite {c : Prop} [Decidable c] {a b : State} :
    ctl e (if c then a else b).regs = if c then ctl e a.regs else ctl e b.regs := apply_ite (fun s : State => ctl e s.regs) _ _ _

@[simp] theorem ctl_ite_fst {α : Type} {c : Prop} [Decidable c] {a b : State × α} :
    ctl e (if c then a else b).1.regs = if c then ctl e a.1.regs else ctl e b.1.regs := apply_ite (fun s : State × α => ctl e s.1.regs) _ _ _

/-- What every step of a fold keeps, the fold keeps. -/
theorem foldl_keeps {σ α β : Type} (g : σ → β) {f : σ → α → σ} {l : List α} {x : σ} (h : ∀ x, ∀ y ∈ l, g (f x y) = g x) :
    g (l.foldl f x) = g x :=
  List.foldlRecOn l f (motive := fun y => g y = g x) rfl fun y hy a ha => (h y a ha).trans hy

theorem ctl_foldl_mem {α : Type} {f : State → α → State} {l : List α} (h : ∀ s, ∀ x ∈ l, ctl e (f s x).regs = ctl e s.regs) :
    ctl e (l.foldl f s).regs = ctl e s.regs :=
  foldl_keeps (fun s : State => ctl e s.regs) h

@[simp] theorem ctl_foldl {α : Type} {f : State → α → State} (h : ∀ s x, ctl e (f s x).regs = ctl e s.regs) (l : List α) :
    ctl e (l.foldl f s).regs = ctl e s.regs :=
  ctl_foldl_mem fun s x _ => h s x

@[simp] theorem ctl_foldl_snd {α β : Type} {f : β × State → α → β × State} {x : β × State}
    (h : ∀ s y, ctl e (f s y).2.regs = ctl e s.2.regs) (l : List α) : ctl e (l.foldl f x).2.regs = ctl e x.2.regs :=
  foldl_keeps (fun p : β × State => ctl e p.2.regs) fun s y _ => h s y

/-- The fields that the functions' own operations write are apart from the control words. -/
@[simp] theorem fields_apart :
    CAM_CTRL_STREAM.apart e = true ∧ CAM_LINK_DISC_DONE.apart e = true ∧ CAM_LINK_LANES.apart e = true ∧ CAM_LINK_LANE_UP.apart e = true ∧
    CAM_LINK_LINK_UP.apart e = true ∧ CAM_LINK_RATE.apart e = true ∧ CLU_CTRL_SELFTEST.apart e = true ∧ CLU_CTRL_ST_RESULT.apart e = true ∧
    DMA_CUR_HI.apart e = true ∧ DMA_CUR_LO.apart e = true ∧ DMA_ERR_ADDR_HI.apart e = true ∧ DMA_ERR_ADDR_LO.apart e = true ∧
    DMA_ERR_INFO_DESC.apart e = true ∧ DMA_ERR_INFO_HOST.apart e = true ∧ DMA_ERR_INFO_SEGMENT.apart e = true ∧
    DMA_ERR_INFO_STATUS.apart e = true ∧ DMA_ERR_INFO_WRITE.apart e = true ∧ DMA_STAT_HALTED.apart e = true ∧
    DMA_STAT_IDLE.apart e = true ∧ EJT_OPEN.apart e = true ∧ EJT_REC_WR.apart e = true ∧ EJT_SRC.apart e = true ∧
    ETH_STAT_BLOCK_LOCK.apart e = true ∧ ETH_STAT_FEC_LOCK.apart e = true ∧ ETH_STAT_HI_BER.apart e = true ∧ ETH_STAT_LINK.apart e = true ∧
    FIO_STAT_DO_FAULT.apart e = true ∧ FIO_STAT_FAULT.apart e = true ∧ FIO_STAT_SAFE.apart e = true ∧ HLT_FW_LAST_HI.apart e = true ∧
    HLT_FW_LAST_INFO_INIT.apart e = true ∧ HLT_FW_LAST_INFO_WR.apart e = true ∧ HLT_FW_LAST_LO.apart e = true ∧
    HLT_STAT_CAUSE.apart e = true ∧ HLT_STAT_LEVEL.apart e = true ∧ HLT_STAT_STG_FAULT.apart e = true ∧ KVC_SWAP_STAT_LINK.apart e = true ∧
    KVC_SWAP_STAT_USED.apart e = true ∧ LNK_CINCH_DELAY.apart e = true ∧ LNK_MEMBERS_IN.apart e = true ∧
    LNK_MEMBERS_JOINED.apart e = true ∧ LNK_SVC_IN_SERVICE.apart e = true ∧ LNK_SYSCFG_POSITION.apart e = true ∧
    LNK_SYSCFG_TOPO.apart e = true ∧ MEM4_INJ_ARM.apart e = true ∧ MEM_CTRL_DRAIN.apart e = true ∧ MEM_CTRL_DRAINED.apart e = true ∧
    PCIE_STAT_LINK_UP.apart e = true ∧ PCIE_STAT_LTSSM.apart e = true ∧ PCIE_STAT_SPEED.apart e = true ∧ PCIE_STAT_WIDTH.apart e = true ∧
    PWR_STAT_ABANDONED.apart e = true ∧ PWR_STAT_STATE.apart e = true ∧ PWR_STAT_STEP.apart e = true ∧
    PWR_WAKE_CAUSE_ACCESS.apart e = true ∧ PWR_WAKE_CAUSE_READY.apart e = true ∧ PWR_WAKE_CAUSE_SRC.apart e = true ∧
    SCH_ACT_HI.apart e = true ∧ SCH_ACT_LO.apart e = true ∧ SDS_CTRL_RETRAIN.apart e = true ∧ SDS_STAT_CDR_LOCK.apart e = true ∧
    SDS_STAT_PSTATE.apart e = true ∧ SDS_STAT_RATE.apart e = true ∧ SDS_STAT_TRAINED.apart e = true ∧ STP_STAT_DIR.apart e = true ∧
    STP_STAT_DIR_PENDING.apart e = true ∧ STP_STAT_SPEED_PENDING.apart e = true ∧ STP_STAT_STANDSTILL.apart e = true ∧
    STP_STAT_WIRE.apart e = true ∧
    TAN_RING_FREE.apart e = true ∧ TIM_STAT_SOURCE.apart e = true :=
  ⟨rfl, rfl, rfl, rfl, rfl, rfl, rfl, rfl, rfl, rfl, rfl, rfl, rfl, rfl, rfl, rfl, rfl, rfl, rfl, rfl, rfl, rfl, rfl, rfl, rfl, rfl,
    rfl, rfl, rfl, rfl, rfl, rfl, rfl, rfl, rfl, rfl, rfl, rfl, rfl, rfl, rfl, rfl, rfl, rfl, rfl, rfl, rfl, rfl, rfl, rfl, rfl, rfl,
    rfl, rfl, rfl, rfl, rfl, rfl, rfl, rfl, rfl, rfl, rfl, rfl, rfl, rfl, rfl, rfl, rfl, rfl, rfl⟩

/-- Fields with a number that are apart from the control words whatever the number is. -/
@[simp] theorem fields_apart_all (n : Nat) : (CLK_CLU_OP_OP_CAP n).apart e = true ∧ (CLK_CLU_OP_OP_CUR n).apart e = true ∧
    (CLK_CLU_OP_OP_TGT n).apart e = true ∧ (CLK_RAIL_STAT_PENDING n).apart e = true ∧ (FIO_DO_CFG_ON n).apart e = true ∧
    (LNK_PORT_STAT_LANES_UP n).apart e = true ∧ (SCH_CQ_CFG_FULL n).apart e = true ∧ (SCH_Q_CFG_DB_OVER n).apart e = true ∧
    (SCH_Q_CFG_QSTATE n).apart e = true ∧ (SCH_Q_PTR_DONE n).apart e = true :=
  ⟨rfl, rfl, rfl, rfl, rfl, rfl, rfl, rfl, rfl, rfl⟩

@[simp] theorem EVQ_Q_WR_apart (q : Nat) : (EVQ_Q_WR q).apart e = true := by
  simp [Fld.apart, EVQ_Q_WR]; omega

@[simp] theorem SCH_CQ_WR_apart (c : Nat) : (SCH_CQ_WR c).apart e = true := by
  simp [Fld.apart, SCH_CQ_WR]; omega

@[simp] theorem SCH_SRQ_RD_apart (k : Nat) : (SCH_SRQ_RD k).apart false = true := by
  simp [Fld.apart, SCH_SRQ_RD]; omega

@[simp] theorem LNK_PORT_STAT_PSTATE_apart {p : Nat} (h : p < 2) : (LNK_PORT_STAT_PSTATE p).apart e = true := by
  simp [Fld.apart, LNK_PORT_STAT_PSTATE]; omega

@[simp] theorem PWR_PD_STAT_PSTATE_apart {n : Nat} (h : n < 60) : (PWR_PD_STAT_PSTATE n).apart e = true := by
  simp [Fld.apart, PWR_PD_STAT_PSTATE]; omega

@[simp] theorem SCH_CTX_STATE_CSTATE_apart {k : Nat} (h : k < 64) : (SCH_CTX_STATE_CSTATE k).apart e = true := by
  simp [Fld.apart, SCH_CTX_STATE_CSTATE]; omega

@[simp] theorem hltSrc_apart (p : Nat) : (hltSrc p).apart e = true := by
  unfold hltSrc; split <;> rfl

@[simp] theorem hltHealthy_apart (p : Nat) : (hltHealthy p).apart e = true := by
  unfold hltHealthy; split <;> rfl

@[simp] theorem State.wr64_ctl {b n : Nat} {lo hi : Fld} (hl : lo.apart e = true) (hh : hi.apart e = true) :
    ctl e (s.wr64 b lo hi n).regs = ctl e s.regs :=
  (put_ctl hh).trans (put_ctl hl)

theorem foldl_setPoison_regs (l : List Nat) : (l.foldl State.setPoison s).regs = s.regs :=
  foldl_keeps State.regs fun s u _ => State.setPoison_regs s u

@[simp] theorem State.clearErr_ctl (u : Nat) : ctl e (s.clearErr u).regs = ctl e s.regs := by simp [State.clearErr]

@[simp] theorem State.castOut_ctl (v : Nat × CacheLine) : ctl e (s.castOut v).regs = ctl e s.regs := by simp [State.castOut]

@[simp] theorem State.touch_ctl (u : Nat) (wr : Bool) : ctl e (s.touch u wr).regs = ctl e s.regs := by
  unfold State.touch
  dsimp only
  split
  · rfl
  · split <;> simp

@[simp] theorem State.inject_ctl (a n : Nat) : ctl e (s.inject a n).regs = ctl e s.regs := by
  unfold State.inject
  split <;> simp

@[simp] theorem State.write_ctl (a : Nat) (bs : List Nat) : ctl e (s.write a bs).regs = ctl e s.regs := by simp [State.write]

@[simp] theorem State.setTile_ctl (c : Nat) (x : Option Tile) : ctl e (s.setTile c x).regs = ctl e s.regs := by simp [State.setTile]

@[simp] theorem State.takeFree_ctl : ctl e (s.takeFree).2.regs = ctl e s.regs := by simp [State.takeFree]

@[simp] theorem State.mergeQuiet_ctl (u : Nat) : ctl e (s.mergeQuiet u).regs = ctl e s.regs := by
  unfold State.mergeQuiet
  split <;> simp

@[simp] theorem State.writeQuiet_ctl (a : Nat) (bs : List Nat) : ctl e (s.writeQuiet a bs).regs = ctl e s.regs := by simp [State.writeQuiet]

@[simp] theorem State.writeEdge_ctl (q w first : Nat) (l : List (Nat × List Nat)) :
    ctl e (s.writeEdge q w first l).regs = ctl e s.regs := by
  simp [State.writeEdge]

@[simp] theorem State.offer_ctl (q code flags blk status : Nat) (args : List Nat) :
    ctl e (s.offer q code flags blk status args).regs = ctl e s.regs := by
  simp [State.offer]

@[simp] theorem State.raiseRaw_ctl (code blk status flags : Nat) (args : List Nat) :
    ctl e (s.raiseRaw code blk status flags args).regs = ctl e s.regs := by
  simp [State.raiseRaw]

@[simp] theorem State.raise_ctl (code blk a1 a2 a3 status : Nat) : ctl e (s.raise code blk a1 a2 a3 status).regs = ctl e s.regs := by
  simp [State.raise]

@[simp] theorem State.updPage_ctl (i : Nat) (f : KvPage → KvPage) : ctl e (s.updPage i f).regs = ctl e s.regs := by simp [State.updPage]

@[simp] theorem State.releaseList_ctl (x : KvSeq) : ctl e (s.releaseList x).regs = ctl e s.regs := by simp [State.releaseList]

@[simp] theorem State.showSlots_ctl : ctl e s.showSlots.regs = ctl e s.regs := by simp [State.showSlots]

@[simp] theorem State.closeSeq_ctl (q : Nat) : ctl e (s.closeSeq q).regs = ctl e s.regs := by simp [State.closeSeq]

@[simp] theorem State.closePart_ctl (p part : Nat) : ctl e (s.closePart p part).regs = ctl e s.regs := by simp [State.closePart]

@[simp] theorem State.endSeq_ctl (q status : Nat) : ctl e (s.endSeq q status).regs = ctl e s.regs := by simp [State.endSeq]

@[simp] theorem State.takeInj_ctl (ms : List Nat) : ctl e (s.takeInj ms).2.regs = ctl e s.regs := by
  unfold State.takeInj
  split <;> simp

@[simp] theorem State.showLane_ctl (m : Nat) : ctl e (s.showLane m).regs = ctl e s.regs := by simp [State.showLane]

@[simp] theorem State.untrain_ctl (m : Nat) : ctl e (s.untrain m).regs = ctl e s.regs := by simp [State.untrain]

@[simp] theorem State.setLinkPort_ctl (p : Nat) (x : LinkPort) : ctl e (s.setLinkPort p x).regs = ctl e s.regs := by
  simp [State.setLinkPort]

@[simp] theorem State.putFrame_ctl (p seq : Nat) (good : Bool) (f : Frame) : ctl e (s.putFrame p seq good f).regs = ctl e s.regs := by
  simp [State.putFrame]

@[simp] theorem State.queueFrame_ctl (p : Nat) (f : Frame) : ctl e (s.queueFrame p f).regs = ctl e s.regs := by simp [State.queueFrame]

@[simp] theorem State.sendFrame_ctl (f : Frame) : ctl e (s.sendFrame f).regs = ctl e s.regs := by simp [State.sendFrame]

@[simp] theorem State.sendHello_ctl (p : Nat) : ctl e (s.sendHello p).regs = ctl e s.regs := by simp [State.sendHello]

@[simp] theorem State.setPortState_ctl {p v : Nat} (h : p < 2) : ctl e (s.setPortState p v).regs = ctl e s.regs := by
  simp [State.setPortState, h]

@[simp] theorem State.linkUp_ctl {p : Nat} (h : p < 2) : ctl e (s.linkUp p).regs = ctl e s.regs := by
  simp [State.linkUp, h]

@[simp] theorem State.portDown_ctl {p : Nat} (h : p < 2) : ctl e (s.portDown p).regs = ctl e s.regs := by
  simp [State.portDown, h]

@[simp] theorem State.setMembers_ctl (joined serving : Nat) : ctl e (s.setMembers joined serving).regs = ctl e s.regs := by
  simp [State.setMembers]

@[simp] theorem State.upgReport_ctl (ok : Bool) : ctl e (s.upgReport ok).regs = ctl e s.regs := by simp [State.upgReport]

@[simp] theorem State.upgPart_ctl (p : Nat) (start : Int) : ctl e (s.upgPart p start).regs = ctl e s.regs := by
  unfold State.upgPart
  split <;> simp

@[simp] theorem State.refreshFio_ctl : ctl e s.refreshFio.regs = ctl e s.regs := by simp [State.refreshFio]

@[simp] theorem State.deny_ctl (i : Nat) (write : Bool) (a : Nat) : ctl e (s.deny i write a).regs = ctl e s.regs := by simp [State.deny]

@[simp] theorem State.checkStore_ctl (i : Nat) (write : Bool) (a n : Nat) : ctl e (s.checkStore i write a n).1.regs = ctl e s.regs := by
  simp [State.checkStore]

@[simp] theorem State.setSlot_ctl (p k : Nat) (x : Option Slot) : ctl e (s.setSlot p k x).regs = ctl e s.regs := by simp [State.setSlot]

@[simp] theorem State.putRecord_ctl (p : Nat) (r : List Nat) : ctl e (s.putRecord p r).regs = ctl e s.regs := by simp [State.putRecord]

@[simp] theorem State.setCtxState_ctl {k v : Nat} (h : k < 64) : ctl e (s.setCtxState k v).regs = ctl e s.regs := by
  simp [State.setCtxState, h]

@[simp] theorem State.emptyCtx_ctl {k : Nat} (h : k < 64) : ctl e (s.emptyCtx k).regs = ctl e s.regs := by
  simp [State.emptyCtx, h]

@[simp] theorem State.settleCtx_ctl {k : Nat} (h : k < 64) : ctl e (s.settleCtx k).regs = ctl e s.regs := by
  simp [State.settleCtx, h]

@[simp] theorem State.settleCtxs_ctl : ctl e s.settleCtxs.regs = ctl e s.regs := by
  exact ctl_foldl_mem fun s k hk => State.settleCtx_ctl (List.mem_range.1 hk)

@[simp] theorem State.slotCommit_ctl (p k : Nat) (c : Commit) : ctl e (s.slotCommit p k c).regs = ctl e s.regs := by
  unfold State.slotCommit
  split <;> simp

@[simp] theorem State.writeEscalation_ctl (level cause stage port : Nat) :
    ctl e (s.writeEscalation level cause stage port).regs = ctl e s.regs := by
  simp [State.writeEscalation]

@[simp] theorem State.safeReaction_ctl (cause stage port : Nat) : ctl e (s.safeReaction cause stage port).regs = ctl e s.regs := by
  simp [State.safeReaction]

@[simp] theorem State.fbCommit_ctl (p k verdict : Nat) : ctl e (s.fbCommit p k verdict).regs = ctl e s.regs := by simp [State.fbCommit]

@[simp] theorem State.slotToFb_ctl (p k : Nat) : ctl e (s.slotToFb p k).regs = ctl e s.regs := by
  unfold State.slotToFb
  dsimp only
  repeat' split
  all_goals simp

@[simp] theorem State.switchPort_ctl (cause stage p : Nat) : ctl e (s.switchPort cause stage p).regs = ctl e s.regs := by
  simp [State.switchPort]

@[simp] theorem State.markS7_ctl (k : Nat) : ctl e (s.markS7 k).regs = ctl e s.regs := by simp [State.markS7]

@[simp] theorem State.stageFault_ctl (stage code kind : Nat) : ctl e (s.stageFault stage code kind).regs = ctl e s.regs := by
  simp [State.stageFault]

@[simp] theorem State.stage7_ctl (code k : Nat) : ctl e (s.stage7 code k).regs = ctl e s.regs := by simp [State.stage7]

@[simp] theorem State.stageReportAt_ctl (p k stage : Nat) : ctl e (s.stageReportAt p k stage).regs = ctl e s.regs := by
  unfold State.stageReportAt
  split <;> simp

@[simp] theorem State.stageUnknown_ctl (p stage : Nat) : ctl e (s.stageUnknown p stage).regs = ctl e s.regs := by simp [State.stageUnknown]

@[simp] theorem State.recordReport_ctl (p k : Nat) : ctl e (s.recordReport p k).regs = ctl e s.regs := by
  unfold State.recordReport
  split <;> simp

@[simp] theorem State.discardSlots_ctl (p cause : Nat) : ctl e (s.discardSlots p cause).1.regs = ctl e s.regs := by
  simp [State.discardSlots]

@[simp] theorem State.stpLeft_ctl (p : Nat) (fence : Bool) : ctl e (s.stpLeft p fence).regs = ctl e s.regs := by simp [State.stpLeft]

@[simp] theorem State.ejtLeft_ctl (p : Nat) : ctl e (s.ejtLeft p).regs = ctl e s.regs := by simp [State.ejtLeft]

@[simp] theorem State.haltUe_ctl : ctl e s.haltUe.regs = ctl e s.regs := by simp [State.haltUe]

@[simp] theorem State.logError_ctl (r : LogRec) : ctl e (s.logError r).regs = ctl e s.regs := by simp [State.logError]

@[simp] theorem State.correctedRate_ctl (unit : Nat) : ctl e (s.correctedRate unit).regs = ctl e s.regs := by simp [State.correctedRate]

@[simp] theorem State.memUe_ctl (blk addr status : Nat) : ctl e (s.memUe blk addr status).regs = ctl e s.regs := by simp [State.memUe]

@[simp] theorem State.report_ctl (r : LogRec) : ctl e (s.report r).regs = ctl e s.regs := by simp [State.report]

@[simp] theorem State.sendSub_ctl (p part verdict : Nat) (fb : Bool) : ctl e (s.sendSub p part verdict fb).regs = ctl e s.regs := by
  simp [State.sendSub]

@[simp] theorem State.mergeCommit_ctl (p k : Nat) : ctl e (s.mergeCommit p k).regs = ctl e s.regs := by
  unfold State.mergeCommit
  split <;> simp

@[simp] theorem State.checkReport_ctl (p part c verdict status : Nat) (degraded : Bool) :
    ctl e (s.checkReport p part c verdict status degraded).regs = ctl e s.regs := by
  unfold State.checkReport
  dsimp only
  repeat' split
  all_goals simp

@[simp] theorem State.fbLine_ctl (cam p part cols nrows : Nat) (l : Bool × List (List Nat)) :
    ctl e (s.fbLine cam p part cols nrows l).regs = ctl e s.regs := by
  unfold State.fbLine
  split <;> simp

@[simp] theorem State.setPstate_ctl {n v : Nat} (h : n < 60) : ctl e (s.setPstate n v).regs = ctl e s.regs := by
  simp [State.setPstate, h]

@[simp] theorem State.latchWake_ctl (src : Nat) : ctl e (s.latchWake src).regs = ctl e s.regs := by simp [State.latchWake]

@[simp] theorem State.wake_ctl (src : Nat) : ctl e (s.wake src).regs = ctl e s.regs := by
  unfold State.wake
  split <;> simp

@[simp] theorem State.stpEnterOn_ctl (p : Nat) : ctl e (s.stpEnterOn p).regs = ctl e s.regs := by
  simp [State.stpEnterOn]

@[simp] theorem State.setFired_ctl (k x : Nat) : ctl e (s.setFired k x).regs = ctl e s.regs := by simp [State.setFired]

@[simp] theorem State.timOn_ctl : ctl e s.timOn.regs = ctl e s.regs := by simp [State.timOn]

@[simp] theorem State.endWindow_ctl (n x0 x1 lines : Nat) (a : Store Nat) : ctl e (s.endWindow n x0 x1 lines a).regs = ctl e s.regs := by
  unfold State.endWindow
  dsimp only
  rw [State.inc_regs]
  refine ctl_foldl (fun s c => ?_) _
  refine (ctl_foldl (fun s z => ?_) _).trans (ctl_foldl (fun s h => ?_) _) <;> rw [State.setCnt_regs]

@[simp] theorem State.camStats_ctl (n : Nat) (l : CamLine) : ctl e (s.camStats n l).regs = ctl e s.regs := by simp [State.camStats]

@[simp] theorem State.camQuits_ctl (n : Nat) : ctl e (s.camQuits n).regs = ctl e s.regs := by
  unfold State.camQuits
  split
  · split
    · split <;> simp
    · simp
  · rfl

@[simp] theorem State.acqReport_ctl (n : Nat) : ctl e (s.acqReport n).regs = ctl e s.regs := by
  unfold State.acqReport
  dsimp only
  split <;> simp

@[simp] theorem State.acqLine_ctl (n : Nat) (l : CamLine) : ctl e (s.acqLine n l).regs = ctl e s.regs := by
  unfold State.acqLine
  dsimp only
  split <;> simp

@[simp] theorem State.fbTake_ctl (n : Nat) (l : CamLine) : ctl e (s.fbTake n l).regs = ctl e s.regs := by
  unfold State.fbTake
  dsimp only
  split <;> simp

@[simp] theorem State.lineDone_ctl (n : Nat) : ctl e (s.lineDone n).regs = ctl e s.regs := by
  unfold State.lineDone
  dsimp only
  split <;> simp

@[simp] theorem State.settleLines_ctl (n : Nat) (fuel : Nat) : ctl e (State.settleLines fuel s n).regs = ctl e s.regs := by
  induction fuel generalizing s with
  | zero => rfl
  | succ fuel ih =>
    unfold State.settleLines
    split
    · split
      · rw [ih, State.lineDone_ctl]
      · rfl
    · rfl

@[simp] theorem State.mapLines_ctl (n : Nat) (f : CamLine → CamLine) : ctl e (s.mapLines n f).regs = ctl e s.regs := by
  simp [State.mapLines]

@[simp] theorem State.countRep_ctl (r : LogRec) : ctl e (s.countRep r).regs = ctl e s.regs := by
  unfold State.countRep
  split <;> simp

@[simp] theorem State.storeRep_ctl (r : LogRec) : ctl e (s.storeRep r).regs = ctl e s.regs := by simp [State.storeRep]

@[simp] theorem State.settleFound_ctl : ctl e s.settleFound.regs = ctl e s.regs := by simp [State.settleFound]

@[simp] theorem State.readUnit_ctl (i u : Nat) : ctl e (s.readUnit i u).regs = ctl e s.regs := by
  unfold State.readUnit
  split <;> simp

@[simp] theorem State.readWord_ctl (i w : Nat) : ctl e (s.readWord i w).regs = ctl e s.regs := by simp [State.readWord]

@[simp] theorem State.portRead_ctl (c u : Nat) : ctl e (s.portRead c u).regs = ctl e s.regs := by simp [State.portRead]

@[simp] theorem State.demand_ctl (i u : Nat) : ctl e (s.demand i u).regs = ctl e s.regs := by simp [State.demand]

@[simp] theorem State.readUnits_ctl (i a n : Nat) : ctl e (s.readUnits i a n).regs = ctl e s.regs := by simp [State.readUnits]

@[simp] theorem State.wakeFor_ctl (a : Nat) : ctl e (s.wakeFor a).regs = ctl e s.regs := by simp [State.wakeFor]

@[simp] theorem State.hwRead_ctl (i a n : Nat) : ctl e (s.hwRead i a n).1.regs = ctl e s.regs := by simp [State.hwRead]

@[simp] theorem State.mergeUnit_ctl (i u : Nat) : ctl e (s.mergeUnit i u).regs = ctl e s.regs := by simp [State.mergeUnit]

@[simp] theorem State.mergeWrite_ctl (i a : Nat) (bs : List Nat) : ctl e (s.mergeWrite i a bs).regs = ctl e s.regs := by
  simp [State.mergeWrite]

@[simp] theorem State.hwWrite_ctl (i a : Nat) (bs : List Nat) : ctl e (s.hwWrite i a bs).1.regs = ctl e s.regs := by simp [State.hwWrite]

@[simp] theorem State.hwWriteParts_ctl (i a : Nat) (bs : List Nat) (bad : List (Nat × Nat)) :
    ctl e (s.hwWriteParts i a bs bad).1.regs = ctl e s.regs := by
  have h (l : List (Nat × Nat)) (t : State) : ctl e (l.foldl (fun s x => (unitsOf (a + x.1) x.2).foldl State.setPoison s) t).regs = ctl e t.regs :=
    ctl_foldl (fun s x => by rw [foldl_setPoison_regs]) l
  unfold State.hwWriteParts
  dsimp only
  split
  · exact State.hwWrite_ctl ..
  · exact (h ..).trans (State.hwWrite_ctl ..)

@[simp] theorem State.putAs_ctl (i a : Nat) (bs : List Nat) : ctl e (s.putAs i a bs).regs = ctl e s.regs := by simp [State.putAs]

@[simp] theorem State.setCur_ctl (n a : Nat) : ctl e (s.setCur n a).regs = ctl e s.regs := by simp [State.setCur]

@[simp] theorem State.dmaIdle_ctl (n : Nat) : ctl e (s.dmaIdle n).regs = ctl e s.regs := by simp [State.dmaIdle]

@[simp] theorem State.dmaAdvance_ctl (n : Nat) (g : DmaSeg) : ctl e (s.dmaAdvance n g).regs = ctl e s.regs := by simp [State.dmaAdvance]

@[simp] theorem State.dmaBytes_ctl (n k : Nat) : ctl e (s.dmaBytes n k).regs = ctl e s.regs := by simp [State.dmaBytes]

@[simp] theorem State.segEnd_ctl (n st wrote : Nat) : ctl e (s.segEnd n st wrote).regs = ctl e s.regs := by
  unfold State.segEnd
  dsimp only
  split <;> simp

@[simp] theorem State.dmaHalt_ctl (n k a st : Nat) (desc host write : Bool) :
    ctl e (s.dmaHalt n k a st desc host write).regs = ctl e s.regs := by
  unfold State.dmaHalt
  dsimp only
  split <;> simp

@[simp] theorem State.segFail_ctl (n a st wrote : Nat) (host write : Bool) :
    ctl e (s.segFail n a st wrote host write).regs = ctl e s.regs := by
  simp [State.segFail]

@[simp] theorem State.dmaPut_ctl (n : Nat) (g : DmaSeg) (bs : List Nat) (bad : List (Nat × Nat)) :
    ctl e (s.dmaPut n g bs bad).regs = ctl e s.regs := by
  simp [State.dmaPut]

@[simp] theorem State.dmaOn_ctl (n : Nat) : ctl e (s.dmaOn n).regs = ctl e s.regs := by simp [State.dmaOn]

@[simp] theorem State.dmaCut_ctl (n : Nat) (g : DmaSeg) : ctl e (s.dmaCut n g).regs = ctl e s.regs := by simp [State.dmaCut]

@[simp] theorem State.dmaFence_ctl (n : Nat) : ctl e (s.dmaFence n).regs = ctl e s.regs := by
  unfold State.dmaFence
  split <;> simp

@[simp] theorem State.dmaHostFails_ctl (st : Nat) : ctl e (s.dmaHostFails st).regs = ctl e s.regs := by
  refine ctl_foldl (fun s n => ?_) _
  dsimp only
  split
  · split <;> simp
  · rfl

@[simp] theorem State.dropTile_ctl (c : Nat) : ctl e (s.dropTile c).regs = ctl e s.regs := by
  unfold State.dropTile
  split <;> simp

@[simp] theorem State.modCmd_ctl (x : Nat) (f : Cmd → Cmd) : ctl e (s.modCmd x f).regs = ctl e s.regs := by simp [State.modCmd]

@[simp] theorem State.settleCmd_ctl (q : Nat) : ctl e (s.settleCmd q).regs = ctl e s.regs := by
  unfold State.settleCmd
  split <;> simp

@[simp] theorem State.refuseCmd_ctl (q status : Nat) : ctl e (s.refuseCmd q status).regs = ctl e s.regs := by simp [State.refuseCmd]

@[simp] theorem State.writeSegStatus_ctl (x : Cmd) (k st : Nat) : ctl e (s.writeSegStatus x k st).regs = ctl e s.regs := by
  simp [State.writeSegStatus]

@[simp] theorem State.rebind_ctl (c : Nat) : ctl e (s.rebind c).regs = ctl e s.regs := by simp [State.rebind]

@[simp] theorem State.doorbell_ctl (q w : Nat) : ctl e (s.doorbell q w).regs = ctl e s.regs := by simp [State.doorbell]

@[simp] theorem State.abandonTile_ctl (c : Nat) : ctl e (s.abandonTile c).regs = ctl e s.regs := by
  unfold State.abandonTile
  split <;> simp

@[simp] theorem State.setReqs_ctl (k : Nat) (l : List SegReq) : ctl e (s.setReqs k l).regs = ctl e s.regs := by simp [State.setReqs]

@[simp] theorem State.setBatchBuf_ctl (k j : Nat) (b : Option Batch) : ctl e (s.setBatchBuf k j b).regs = ctl e s.regs := by
  simp [State.setBatchBuf]

@[simp] theorem State.reqReport_ctl (x : SegReq) (status : Nat) : ctl e (s.reqReport x status).regs = ctl e s.regs := by
  simp [State.reqReport]

@[simp] theorem State.readReqs_ctl (k n : Nat) : ctl false (State.readReqs n s k).regs = ctl false s.regs := by
  induction n generalizing s with
  | zero => rfl
  | succ n ih =>
    unfold State.readReqs
    dsimp only
    rw [ih]
    split
    · simp
    · split <;> simp

@[simp] theorem State.drainReqs_ctl (k : Nat) : ctl false (s.drainReqs k).regs = ctl false s.regs := by simp [State.drainReqs]

@[simp] theorem State.dropReqs_ctl (k : Nat) : ctl e (s.dropReqs k).regs = ctl e s.regs := by simp [State.dropReqs]

@[simp] theorem State.openBatch_ctl (k : Nat) (l : List Nat) : ctl e (State.openBatch l s k).1.regs = ctl e s.regs := by
  induction l generalizing s with
  | nil => rfl
  | cons j js ih =>
    unfold State.openBatch
    dsimp only
    split
    · exact ih
    · split
      · rw [ih, State.hwRead_ctl]
      · simp

@[simp] theorem State.addReq_ctl (k j : Nat) (b : Batch) (x : SegReq) : ctl e (s.addReq k j b x).regs = ctl e s.regs := by
  simp [State.addReq]

@[simp] theorem State.fillBatch_ctl (k j n : Nat) : ctl e (State.fillBatch n s k j).regs = ctl e s.regs := by
  induction n generalizing s with
  | zero => rfl
  | succ n ih =>
    unfold State.fillBatch
    split
    · rfl
    · dsimp only
      split
      · rfl
      · split
        · rfl
        · rw [ih]; simp

@[simp] theorem State.submit_ctl (k j : Nat) (b : Batch) : ctl e (s.submit k j b).regs = ctl e s.regs := by simp [State.submit]

@[simp] theorem State.batchRounds_ctl (k n : Nat) : ctl false (State.batchRounds n s k).regs = ctl false s.regs := by
  induction n generalizing s with
  | zero => rfl
  | succ n ih =>
    unfold State.batchRounds
    lift_lets
    intro cur busy r
    have h : ctl false r.1.regs = ctl false s.regs := by
      unfold r
      clear r
      clear_value cur
      split
      · rfl
      · split <;> simp
    clear_value r
    dsimp only
    split
    · exact h
    · split
      · split
        · simp [h]
        · split
          · split
            · split
              · simp [h]
              · rw [ih]; simp [h]
            · simp [h]
          · simp [h]
      · simp [h]

@[simp] theorem State.batchRun_ctl (k : Nat) : ctl false (s.batchRun k).regs = ctl false s.regs := by simp [State.batchRun]

@[simp] theorem State.chainStatus_ctl (x status : Nat) : ctl e (s.chainStatus x status).regs = ctl e s.regs := by simp [State.chainStatus]

@[simp] theorem State.chainRetired_ctl (k j : Nat) (b : Batch) : ctl false (s.chainRetired k j b).regs = ctl false s.regs := by
  simp [State.chainRetired]

@[simp] theorem State.chainRetire_ctl (x : Nat) : ctl false (s.chainRetire x).regs = ctl false s.regs := by
  unfold State.chainRetire
  split <;> simp

@[simp] theorem State.setRail_ctl (r : Nat) (x : Rail) : ctl e (s.setRail r x).regs = ctl e s.regs := by simp [State.setRail]

@[simp] theorem State.retarget_ctl (c : Nat) : ctl e (s.retarget c).regs = ctl e s.regs := by simp [State.retarget]

@[simp] theorem State.setCap_ctl (c v : Nat) : ctl e (s.setCap c v).regs = ctl e s.regs := by simp [State.setCap]

@[simp] theorem State.switchOp_ctl (c v : Nat) : ctl e (s.switchOp c v).regs = ctl e s.regs := by
  unfold State.switchOp
  dsimp only
  split <;> simp

@[simp] theorem State.askRail_ctl (r : Nat) : ctl e (s.askRail r).regs = ctl e s.regs := by simp [State.askRail]

@[simp] theorem State.driveOp_ctl (c : Nat) : ctl e (s.driveOp c).regs = ctl e s.regs := by simp [State.driveOp]

@[simp] theorem State.capAll_ctl (v : Nat) : ctl e (s.capAll v).regs = ctl e s.regs := by simp [State.capAll]

@[simp] theorem State.capFence_ctl : ctl e s.capFence.regs = ctl e s.regs := by simp [State.capFence]

@[simp] theorem State.startQueue_ctl (q : Nat) : ctl e (s.startQueue q).regs = ctl e s.regs := by simp [State.startQueue]

@[simp] theorem State.settleQueue_ctl (q : Nat) : ctl e (s.settleQueue q).regs = ctl e s.regs := by simp [State.settleQueue]

@[simp] theorem State.makeReady_ctl (q : Nat) : ctl e (s.makeReady q).regs = ctl e s.regs := by
  unfold State.makeReady
  split <;> simp

@[simp] theorem State.wakeDeps_ctl (q status : Nat) : ctl e (s.wakeDeps q status).regs = ctl e s.regs := by simp [State.wakeDeps]

@[simp] theorem State.verdictOf_ctl (x : Cmd) (status : Nat) : ctl e (s.verdictOf x status).1.regs = ctl e s.regs := by
  simp [State.verdictOf]

@[simp] theorem State.reportCmd_ctl (x : Cmd) (status : Nat) : ctl e (s.reportCmd x status).1.regs = ctl e s.regs := by
  simp [State.reportCmd]

@[simp] theorem State.cqPut_ctl (c : Nat) (rec : List Nat) : ctl e (s.cqPut c rec).1.regs = ctl e s.regs := by simp [State.cqPut]

@[simp] theorem State.cqFlush_ctl : ctl e s.cqFlush.regs = ctl e s.regs := by
  refine ctl_foldl (fun s x => ?_) _
  dsimp only
  split
  · split <;> simp
  · rfl

@[simp] theorem State.retire_ctl (q n : Nat) : ctl false (State.retire n s q).regs = ctl false s.regs := by
  induction n generalizing s with
  | zero => rfl
  | succ n ih =>
    unfold State.retire
    split
    · split
      · rw [ih]; simp
      · rfl
    · rfl

@[simp] theorem State.retireAll_ctl : ctl false s.retireAll.regs = ctl false s.regs := by simp [State.retireAll]

@[simp] theorem State.completeCmd_ctl (q : Nat) : ctl false (s.completeCmd q).regs = ctl false s.regs := by
  unfold State.completeCmd
  dsimp only
  repeat' split
  all_goals simp

@[simp] theorem State.schFence_ctl : ctl false s.schFence.regs = ctl false s.regs := by
  unfold State.schFence
  dsimp only
  rw [ctl_foldl fun _ _ => State.completeCmd_ctl _, State.setSch_regs]
  refine ctl_foldl (fun s c => ?_) _
  split <;> simp

@[simp] theorem State.setEntry_ctl (q k v : Nat) : ctl e (s.setEntry q k v).regs = ctl e s.regs := by
  simp [State.setEntry]

@[simp] theorem State.endSegment_ctl (q i st : Nat) : ctl e (s.endSegment q i st).regs = ctl e s.regs := by
  unfold State.endSegment
  split <;> simp

@[simp] theorem State.exhaust_ctl (x i q : Nat) : ctl e (s.exhaust x i q).regs = ctl e s.regs := by simp [State.exhaust]

@[simp] theorem State.noPage_ctl (x i q : Nat) : ctl e (s.noPage x i q).regs = ctl e s.regs := by
  unfold State.noPage
  dsimp only
  repeat' split
  all_goals simp

/-- What taking a page leaves. -/
theorem State.allocPage_ctl {k refs st p : Nat} {t : State} (h : s.allocPage k refs st = some (p, t)) : ctl e t.regs = ctl e s.regs := by
  unfold State.allocPage at h
  dsimp only at h
  split at h
  · cases h
  · cases h
    simp

/-- What the start of a copy leaves. -/
theorem State.startCopy_ctl {q i x : Nat} {t : State} (h : s.startCopy q i x = some t) : ctl e t.regs = ctl e s.regs := by
  unfold State.startCopy at h
  split at h
  next p u hu =>
    cases h
    rw [← State.allocPage_ctl hu]
    simp
  · cases h

@[simp] theorem State.swapIn_ctl (x i q : Nat) : ctl e (s.swapIn x i q).regs = ctl e s.regs := by
  unfold State.swapIn
  dsimp only
  split
  · rfl
  · split
    · exact State.noPage_ctl ..
    · rw [State.setKvc_regs]
      refine ctl_foldl_snd (x := ([], s)) (fun t y => ?_) _
      split
      next h => exact State.allocPage_ctl h
      · rfl

@[simp] theorem State.ownPage_ctl (x i q k : Nat) : ctl e (s.ownPage x i q k).regs = ctl e s.regs := by
  unfold State.ownPage
  dsimp only
  split
  · rfl
  · split
    · split
      next h => rw [State.setEntry_ctl, State.allocPage_ctl h]
      · simp
    · split
      · split
        next h => exact State.startCopy_ctl h
        · simp
      · rfl

@[simp] theorem State.prepSeg_ctl (x : Nat) (proj : Bool) (layer i : Nat) (b : List Nat) :
    ctl e (s.prepSeg x proj layer i b).regs = ctl e s.regs := by
  unfold State.prepSeg
  split
  · rfl
  · split
    · rfl
    · dsimp only
      simp

@[simp] theorem State.readyTiles_ctl (q : Nat) : ctl e (s.readyTiles q).regs = ctl e s.regs := by
  unfold State.readyTiles
  split <;> simp

@[simp] theorem State.prepare_ctl (x : Nat) : ctl e (s.prepare x).regs = ctl e s.regs := by
  unfold State.prepare
  split <;> simp

@[simp] theorem State.prepareAll_ctl : ctl e s.prepareAll.regs = ctl e s.regs := by simp [State.prepareAll]

@[simp] theorem State.kvcLinkDown_ctl : ctl e s.kvcLinkDown.regs = ctl e s.regs := by simp [State.kvcLinkDown]

@[simp] theorem State.kvcFence_ctl : ctl e s.kvcFence.regs = ctl e s.regs := by
  unfold State.kvcFence
  dsimp only
  rw [State.setSch_regs, State.setKvc_regs, ctl_foldl fun _ _ => State.updPage_ctl _ _]
  refine ctl_foldl (fun s c => ?_) _
  split
  · split <;> simp
  · rfl

@[simp] theorem State.ethDown_ctl (p : Nat) : ctl e (s.ethDown p).regs = ctl e s.regs := by simp [State.ethDown]

@[simp] theorem State.ethUp_ctl (p : Nat) : ctl e (s.ethUp p).regs = ctl e s.regs := by simp [State.ethUp]

@[simp] theorem State.pcieDown_ctl : ctl e s.pcieDown.regs = ctl e s.regs := by simp [State.pcieDown]

@[simp] theorem State.pcieRelink_ctl : ctl e s.pcieRelink.regs = ctl e s.regs := by simp [State.pcieRelink]

@[simp] theorem State.laneLost_ctl (m : Nat) : ctl e (s.laneLost m).regs = ctl e s.regs := by
  have hp : m < 40 → (m - 32) / 4 < 2 := by omega
  unfold State.laneLost
  split
  · rfl
  · split
    next h => simp [hp h]
    · split
      · split <;> simp
      · simp

@[simp] theorem State.laneLeft_ctl (m : Nat) : ctl e (s.laneLeft m).regs = ctl e s.regs := by simp [State.laneLeft]

@[simp] theorem State.dropLink_ctl (p : Nat) (event : Bool) : ctl e (s.dropLink p event).regs = ctl e s.regs := by
  have h (t : State) : ctl e ((List.range 4).foldl (fun s k => s.untrain (4 * p + k)) t).regs = ctl e t.regs :=
    ctl_foldl (fun _ _ => State.untrain_ctl _) _
  unfold State.dropLink
  dsimp only
  rw [State.mapLines_ctl]
  split
  · rw [State.raise_ctl, State.inc_regs, State.setCam_regs, h]
    simp
  · rw [State.setCam_regs, h]
    simp

@[simp] theorem State.camRetrig_ctl (n : Nat) (hw : Int) : ctl e (s.camRetrig n hw).regs = ctl e s.regs := by simp [State.camRetrig]

@[simp] theorem State.camOn_ctl (n : Nat) : ctl e (s.camOn n).regs = ctl e s.regs := by simp [State.camOn]

@[simp] theorem State.camOff_ctl (n : Nat) : ctl e (s.camOff n).regs = ctl e s.regs := by simp [State.camOff]

@[simp] theorem State.setTanP_ctl (n : Nat) (x : TanPort) : ctl e (s.setTanP n x).regs = ctl e s.regs := by simp [State.setTanP]

@[simp] theorem State.tanRestart_ctl (n : Nat) : ctl e (s.tanRestart n).regs = ctl e s.regs := by simp [State.tanRestart]

@[simp] theorem State.tanOn_ctl : ctl e s.tanOn.regs = ctl e s.regs := by simp [State.tanOn]

@[simp] theorem State.tanFence_ctl : ctl e s.tanFence.regs = ctl e s.regs := by simp [State.tanFence]

@[simp] theorem State.abortLink_ctl : ctl e s.abortLink.regs = ctl e s.regs := by simp [State.abortLink]

@[simp] theorem State.portsToFallback_ctl (why : Nat) : ctl e (s.portsToFallback why).regs = ctl e s.regs := by simp [State.portsToFallback]

@[simp] theorem State.leaveService_ctl : ctl e s.leaveService.regs = ctl e s.regs := by simp [State.leaveService]

@[simp] theorem State.roleWrite_ctl (c r : Nat) : ctl e (s.roleWrite c r).regs = ctl e s.regs := by simp [State.roleWrite]

@[simp] theorem State.startTest_ctl (c : Nat) : ctl e (s.startTest c).regs = ctl e s.regs := by simp [State.startTest]

@[simp] theorem State.lnkStart_ctl : ctl e s.lnkStart.regs = ctl e s.regs := by
  have h (t : State) :
      ctl e ([0, 1].foldl (fun s p => if s.rd bLNK (LNK_PORT_STAT_LANES_UP p) = 0 then s.setPortState p 1 else s.linkUp p) t).regs =
        ctl e t.regs := by
    refine ctl_foldl_mem fun s p hp => ?_
    have hp : p < 2 := by simp at hp; omega
    split <;> simp [hp]
  unfold State.lnkStart
  dsimp only
  split
  · rw [State.setMembers_ctl, h]
    simp
  · rw [h]
    simp

@[simp] theorem State.lnkStop_ctl : ctl e s.lnkStop.regs = ctl e s.regs := by
  have h (t : State) : ctl e ([0, 1].foldl (fun s p => (s.setLinkPort p {}).setPortState p 0) t).regs = ctl e t.regs := by
    simp
  unfold State.lnkStop
  dsimp only
  split
  · rw [h, State.abortLink_ctl]
  · split
    · rw [State.leaveService_ctl, h, State.abortLink_ctl]
    · rw [h, State.abortLink_ctl]

@[simp] theorem State.setSliceSt_ctl (n v : Nat) : ctl e (s.setSliceSt n v).regs = ctl e s.regs := by simp [State.setSliceSt]

@[simp] theorem State.moveBuckets_ctl (n : Nat) : ctl e (s.moveBuckets n).regs = ctl e s.regs := by simp [State.moveBuckets]

@[simp] theorem State.returnBuckets_ctl (n : Nat) : ctl e (s.returnBuckets n).regs = ctl e s.regs := by simp [State.returnBuckets]

@[simp] theorem State.drainWrite_ctl (n v : Nat) : ctl e (s.drainWrite n v).regs = ctl e s.regs := by simp [State.drainWrite]

@[simp] theorem State.dropSlice_ctl (n : Nat) : ctl e (s.dropSlice n).regs = ctl e s.regs := by simp [State.dropSlice]

@[simp] theorem State.sliceFence_ctl (n : Nat) : ctl e (s.sliceFence n).regs = ctl e s.regs := by
  unfold State.sliceFence
  split
  · rfl
  · dsimp only
    split <;> simp [foldl_setPoison_regs]

@[simp] theorem State.onEnter_ctl (b : Nat) : ctl e (s.onEnter b).regs = ctl e s.regs := by simp [State.onEnter]

@[simp] theorem State.cluOut_ctl (c : Nat) : ctl e (s.cluOut c).regs = ctl e s.regs := by simp [State.cluOut]

@[simp] theorem State.onLeave_ctl (b : Nat) (fence : Bool) : ctl e (s.onLeave b fence).regs = ctl e s.regs := by simp [State.onLeave]

@[simp] theorem State.onStop_ctl (b : Nat) : ctl e (s.onStop b).regs = ctl e s.regs := by simp [State.onStop]

@[simp] theorem State.onHalt_ctl (b : Nat) : ctl e (s.onHalt b).regs = ctl e s.regs := by simp [State.onHalt]

@[simp] theorem State.onFence_ctl (b : Nat) : ctl false (s.onFence b).regs = ctl false s.regs := by simp [State.onFence]

@[simp] theorem State.easeRail_ctl (b : Nat) : ctl e (s.easeRail b).regs = ctl e s.regs := by simp [State.easeRail]

end Ctl

/-! ### The state machine's own writes -/

section Fsm
variable {e : Bool} {s t : State} {b c : Nat}

theorem State.fsm_of_ctl (h : ctl e t.regs b = ctl e s.regs b) : t.fsm b = s.fsm b :=
  congrArg (fun x => x.1.toNat) h

theorem State.fence_of_ctl (h : ctl e t.regs b = ctl e s.regs b) : t.rd b COM_FENCE_FENCE = s.rd b COM_FENCE_FENCE :=
  congrArg (fun x => x.2.1.toNat) h

theorem State.enable_of_ctl (h : ctl true t.regs b = ctl true s.regs b) : t.rd b COM_CTRL_ENABLE = s.rd b COM_CTRL_ENABLE :=
  congrArg (fun x => x.2.2.toNat) h

@[simp] theorem State.fsm_setFsm (n : Nat) : (s.setFsm b n).fsm b = n % 8 :=
  State.rd_wr_same _ _ _ _ (by decide)

/-- A write in one block leaves the control words of every other. -/
theorem put_ctl_other {d v : Word} {l : Store Word} {f : Fld} (ho : f.off < 1048576) (hl : f.lo < 32) (h : b ≠ c) :
    ctl e (Store.put d l (fkey b f) v) c = ctl e l c := by
  have hk : ∀ g : Fld, g.off < 1048576 → g.lo < 32 → fkey b f ≠ fkey c g := fun g hg hgl he => h <| by
    rw [← fkey_block (b := b) ho hl, he, fkey_block hg hgl]
  simp only [ctl, Store.get_put_ne (hk COM_STATE_FSM (by decide) (by decide)),
    Store.get_put_ne (hk COM_FENCE_FENCE (by decide) (by decide)), Store.get_put_ne (hk COM_CTRL_ENABLE (by decide) (by decide))]

/-- A change of state leaves the control words of every other block. -/
theorem State.setFsm_ctl_other {n : Nat} (h : b ≠ c) : ctl e (s.setFsm b n).regs c = ctl e s.regs c :=
  put_ctl_other (by decide) (by decide) h

/-- A write of `ENABLE` leaves the control words of every other block. -/
theorem State.wr_enable_ctl_other {n : Nat} (h : b ≠ c) : ctl e (s.wr b COM_CTRL_ENABLE n).regs c = ctl e s.regs c :=
  put_ctl_other (by decide) (by decide) h

/-- A block that has lanes is none of them. -/
theorem State.lanesOf_ne {m : Nat} (h : m ∈ s.lanesOf b) : bSDS m ≠ b := by
  have hb : b < 0xC0 := by
    by_contra hge
    simp [State.lanesOf, bLNK, bPCIE, show ¬ b ≤ 0x27 by omega, show b ≠ 0x12 by omega, show b ≠ 0x13 by omega,
      show b ≠ 0x14 by omega, show b ≠ 0x15 by omega] at h
  unfold bSDS
  omega

/-- Lanes that start with their block leave its control words. -/
theorem State.startLanes_ctl : ctl e (s.startLanes b).regs b = ctl e s.regs b := by
  refine foldl_keeps (fun s : State => ctl e s.regs b) fun s m hm => ?_
  have hne := State.lanesOf_ne hm
  split
  · rw [State.showLane_ctl, State.wr_enable_ctl_other hne, State.setFsm_ctl_other hne]
  · rfl

/-- Lanes that stop with their block leave its control words. -/
theorem State.stopLanes_ctl : ctl e (s.stopLanes b).regs b = ctl e s.regs b := by
  refine foldl_keeps (fun s : State => ctl e s.regs b) fun s m hm => ?_
  have hne := State.lanesOf_ne hm
  split
  · rfl
  · rw [State.showLane_ctl, State.laneLost_ctl, State.untrain_ctl, State.wr_enable_ctl_other hne, State.setFsm_ctl_other hne]

theorem ite_lt_of_lt {p : Prop} [Decidable p] {x y n : Nat} (hx : p → x < n) (hy : y < n) : (if p then x else y) < n := by
  split
  next h => exact hx h
  · exact hy

theorem domOf_lt (b : Nat) : domOf b < 60 := by
  unfold domOf
  repeat refine ite_lt_of_lt (by omega) ?_
  decide

theorem State.settleDom_ctl : ctl e (s.settleDom (domOf b)).regs = ctl e s.regs := by
  unfold State.settleDom
  split
  · exact State.setPstate_ctl (domOf_lt b)
  · rfl

/-- A function on its way to `STARTING` has its state and keeps the rest of its control words. -/
theorem State.toStarting_ctl : ctl e (s.toStarting b).regs b = ctl e (s.setFsm b fSTARTING).regs b := by
  unfold State.toStarting
  dsimp only
  split
  · rw [State.setPstate_ctl (domOf_lt b), State.startLanes_ctl]
  · exact State.startLanes_ctl

theorem State.toOff_ctl : ctl e (s.toOff b).regs b = ctl e (s.setFsm b fOFF).regs b := by
  rw [State.toOff, State.settleDom_ctl, State.stopLanes_ctl]

@[simp] theorem State.fsm_toStarting : (s.toStarting b).fsm b = fSTARTING :=
  (State.fsm_of_ctl (e := false) State.toStarting_ctl).trans (State.fsm_setFsm _)

@[simp] theorem State.fsm_toOff : (s.toOff b).fsm b = fOFF :=
  (State.fsm_of_ctl (e := false) State.toOff_ctl).trans (State.fsm_setFsm _)

@[simp] theorem State.fsm_passOff : (s.passOff b).fsm b = fSTARTING := State.fsm_toStarting

end Fsm

/-! ### Events of a function -/

section Events
variable {s : State} {b : Nat}

@[simp] theorem State.at_fencing (s : State) (τ b : Nat) : (s.at τ).fencing b = s.fencing b := by
  simp [State.fencing]

@[simp] theorem State.at_stopReady (s : State) (τ b : Nat) : (s.at τ).stopReady b = s.stopReady b := by
  simp [State.stopReady, State.camP, State.dmaStops, State.dmaX, State.tileOf, State.cluX]

@[simp] theorem State.at_inFuncReset (s : State) (τ b : Nat) : (s.at τ).inFuncReset b = s.inFuncReset b := by
  simp [State.inFuncReset]

theorem State.fsm_onEnter : (s.onEnter b).fsm b = s.fsm b :=
  State.fsm_of_ctl (congrFun (State.onEnter_ctl (e := true) b) b)

theorem State.fsm_easeRail : (s.easeRail b).fsm b = s.fsm b :=
  State.fsm_of_ctl (congrFun (State.easeRail_ctl (e := true) b) b)

theorem State.fsm_onHalt : (s.onHalt b).fsm b = s.fsm b :=
  State.fsm_of_ctl (congrFun (State.onHalt_ctl (e := true) b) b)

/-- What a lane shows does not move its state. -/
theorem State.fsm_showLane (s : State) (m b : Nat) : (s.showLane m).fsm b = s.fsm b :=
  State.fsm_of_ctl (congrFun (State.showLane_ctl (e := true) m) b)

theorem State.fsm_capAll (s : State) (v b : Nat) : (s.capAll v).fsm b = s.fsm b :=
  State.fsm_of_ctl (congrFun (State.capAll_ctl (e := true) v) b)

theorem State.fsm_refreshFio (s : State) (b : Nat) : s.refreshFio.fsm b = s.fsm b :=
  State.fsm_of_ctl (congrFun (State.refreshFio_ctl (e := true)) b)

/-- A state that holds after an `if` when it holds of both branches. -/
theorem State.fsm_ite {c : Prop} [Decidable c] {x y : State} {n : Nat} (hx : x.fsm b = n) (hy : y.fsm b = n) :
    (if c then x else y).fsm b = n := by
  split
  · exact hx
  · exact hy

end Events

/-- Settles O2: each event writes `STATE` itself, and everything the function does beside it leaves the control words. -/
theorem functionEventsMoveTheStateMachine : Obligations.FunctionEventsMoveTheStateMachine := by
  refine ⟨?started, ?stopping, ?off, ?again, ?fenced, ?reset, ?fault⟩
  case started =>
    intro s τ b hb hs hm hf hn hd he
    refine ⟨_, rfl, ?_⟩
    dsimp only
    rw [if_pos (by simp [hb, hs, hm, hf, hn, hd]), if_pos (by simp [he])]
    exact State.fsm_onEnter.trans (State.fsm_setFsm _)
  case stopping =>
    intro s τ b hb hs hm hf hn hd he
    refine ⟨_, rfl, ?_⟩
    dsimp only
    rw [if_pos (by simp [hb, hs, hm, hf, hn, hd]), if_neg (by simp [he])]
    exact State.fsm_setFsm _
  case off =>
    intro s τ b hb hf hn hr
    refine ⟨_, rfl, ?_⟩
    dsimp only
    rw [if_pos (by simp [hb, hf, hn, hr])]
    have again : ¬ (s.at τ).fsm b = fPENDING := by simp [hf, fSTOPPING, fPENDING]
    have h : ∀ t : State, ((t.toOff b).easeRail b).fsm b = fOFF := fun t => State.fsm_easeRail.trans State.fsm_toOff
    rw [if_neg again]
    exact State.fsm_ite ((State.fsm_showLane ..).trans (h _)) (h _)
  case again =>
    intro s τ b hb hf hn hr
    refine ⟨_, rfl, ?_⟩
    dsimp only
    rw [if_pos (by simp [hb, hf, hn, hr])]
    have again : (s.at τ).fsm b = fPENDING := by simp [hf]
    have h : ∀ t : State, ((t.passOff b).easeRail b).fsm b = fSTARTING := fun t => State.fsm_easeRail.trans State.fsm_passOff
    rw [if_pos again]
    exact State.fsm_ite ((State.fsm_showLane ..).trans (h _)) (h _)
  case fenced =>
    intro s τ b hb hn
    refine ⟨_, rfl, ?_⟩
    dsimp only
    rw [if_pos (by simp [hb, hn])]
    have h : ∀ t : State, ((t.setFsm b fFENCED).onHalt b).fsm b = fFENCED := fun t => State.fsm_onHalt.trans (State.fsm_setFsm _)
    exact State.fsm_ite ((State.fsm_showLane ..).trans (h _)) (h _)
  case reset =>
    intro s τ b hb hf hr
    refine ⟨_, rfl, ?_⟩
    dsimp only
    rw [if_pos (by simp [hb, hf, hr])]
    have h : ∀ t : State, ((t.toOff b).easeRail b).fsm b = fOFF := fun t => State.fsm_easeRail.trans State.fsm_toOff
    exact State.fsm_ite ((State.fsm_showLane ..).trans (h _))
      (State.fsm_ite ((State.fsm_capAll ..).trans (h _)) (State.fsm_ite ((State.fsm_refreshFio ..).trans (h _)) (h _)))
  case fault =>
    intro s τ b hb hf hg hn
    refine ⟨_, rfl, ?_⟩
    dsimp only
    rw [if_pos (by simp [hb, hf, hg, hn])]
    have h : ∀ t : State, ((t.setFsm b fFAULT).onHalt b).fsm b = fFAULT := fun t => State.fsm_onHalt.trans (State.fsm_setFsm _)
    exact State.fsm_ite ((State.fsm_showLane ..).trans (h _)) (h _)

/-! ### `ENABLE`, `FENCE` and `RESET` -/

section Control
variable {e : Bool} {s : State} {b v : Nat}

/-- A write of a field that is apart leaves the control words. -/
theorem State.writeField_ctl {job : Bool} {f : Fld} (h : f.apart e = true) : ctl e (s.writeField job b v f).regs = ctl e s.regs := by
  obtain ⟨n, he⟩ | ⟨_, n, he⟩ | ⟨n, he⟩ | he := State.writeField_cases s job b v f <;> rw [he]
  · exact put_ctl h
  · exact put_ctl h
  · rfl

theorem State.cluCtrl_ctl {c : Nat} : ctl e (s.cluCtrl c v).regs = ctl e (s.enableReq (bCLU c) (bit v 0)).regs := by
  unfold State.cluCtrl
  dsimp only
  split
  · rw [State.startTest_ctl, State.roleWrite_ctl]
  · rw [State.roleWrite_ctl]

/-- A lane's control register when no retraining is asked for. -/
theorem State.sdsCtrl_ctl {m : Nat} (hv : bit v 1 = 0) : ctl e (s.sdsCtrl m v).regs = ctl e (s.enableReq (bSDS m) (bit v 0)).regs := by
  unfold State.sdsCtrl
  dsimp only
  rw [if_neg (by simp [hv]), State.showLane_ctl]

theorem State.camCtrl_ctl : ctl e (s.camCtrl b v).regs = ctl e (s.enableReq b (bit v 0)).regs := by
  have hw : ∀ t : State, ctl e ([CAM_CTRL_AUTO_DISC, CAM_CTRL_STREAM, CAM_CTRL_POCXP_EN].foldl (fun s f => s.writeField s.jobRun b v f) t).regs =
      ctl e t.regs := by
    intro t
    simp only [List.foldl_cons, List.foldl_nil]
    rw [State.writeField_ctl rfl, State.writeField_ctl rfl, State.writeField_ctl rfl]
  have hp : ∀ t : State, ctl e (if bit v 1 = 0 ∧ isCam b then t.setCam (camOf b) { t.camP (camOf b) with power := false } else t).regs =
      ctl e t.regs := by
    intro t
    split <;> rfl
  have hf : ∀ t : State, ctl e (if bit v 2 = 1 ∧ t.rd b CAM_CTRL_STREAM = 0 then
      t.setCam (camOf b) { t.camP (camOf b) with fresh := true, from_ := t.pos (t.camStp (camOf b)) } else t).regs = ctl e t.regs := by
    intro t
    split <;> rfl
  exact (hp _).trans ((hw _).trans (hf _))

/-- Writing `ENABLE` moves the control words as `enableReq` does, whatever kind of function it is. -/
theorem State.ctrlKind_ctl (hb : ¬ (b = bPWR ∨ b = bRST ∨ b = bCLK ∨ b = bHLT ∨ b = bMEM4)) (hr : isClu b = true → s.role (b - 0x40) ≠ 2)
    (hv : bit v 1 = 0) : ctl e (s.ctrlKind b v).regs = ctl e (s.enableReq b (bit v 0)).regs := by
  unfold State.ctrlKind
  rw [if_neg hb]
  split
  next h =>
    have hc : bCLU (b - 0x40) = b := by simp [isClu] at h; unfold bCLU; omega
    rw [if_neg (hr h), State.cluCtrl_ctl, hc]
  · split
    next h =>
      have hc : bSDS (b - 0xC0) = b := by simp [isSds] at h; unfold bSDS; omega
      rw [State.sdsCtrl_ctl hv, hc]
    · split
      · exact State.camCtrl_ctl
      · split
        · exact State.drainWrite_ctl ..
        · rfl

theorem State.ctrlWrite_ctl (hb : ¬ (b = bPWR ∨ b = bRST ∨ b = bCLK ∨ b = bHLT ∨ b = bMEM4)) (hr : isClu b = true → s.role (b - 0x40) ≠ 2)
    (hv : bit v 1 = 0) : ctl e (s.ctrlWrite b v).regs = ctl e (s.enableReq b (bit v 0)).regs := by
  rw [← State.ctrlKind_ctl hb hr hv]
  simp only [State.ctrlWrite, ctl_ite, State.capAll_ctl, State.onStop_ctl, ite_self]

/-- `ENABLE` 1 in `OFF` (R14). -/
theorem State.enableReq_off (hr : s.inFuncReset b = false) (hn : s.fencing b = false) (hf : s.fsm b = fOFF) :
    s.enableReq b 1 = (s.wr b COM_CTRL_ENABLE 1).toStarting b := by
  simp [State.enableReq, hr, hn, hf]

/-- `ENABLE` 0 in `ON` (R14). -/
theorem State.enableReq_on (hr : s.inFuncReset b = false) (hn : s.fencing b = false) (hf : s.fsm b = fON) :
    s.enableReq b 0 = (s.wr b COM_CTRL_ENABLE 0).setFsm b fSTOPPING := by
  simp [State.enableReq, hr, hn, hf]

theorem State.enable_setFsm {n m : Nat} : ((s.wr b COM_CTRL_ENABLE n).setFsm b m).rd b COM_CTRL_ENABLE = n % 2 :=
  (State.rd_wr_ne _ _ _ _ _ _ (by simp [fkey, COM_STATE_FSM, COM_CTRL_ENABLE])).trans
    (State.rd_wr_same _ _ _ _ (by decide))

/-- A fence that is taken reads 1. -/
theorem State.fenceWrite_taken (hb : fences b = true) (hv : bit v 0 = 1) (hf : s.rd b COM_FENCE_FENCE = 0) :
    (s.fenceWrite b v).rd b COM_FENCE_FENCE = 1 := by
  rw [State.fenceWrite, if_pos ⟨hv, hb, hf⟩, State.fence_of_ctl (congrFun (State.onFence_ctl b) b)]
  exact State.rd_wr_same _ _ _ _ (by decide)

/-- Where a permitted write of `ENABLE` leads, read off `enableReq`. -/
theorem enable_completes {τ i f : Nat} (hm : regMapped (regAt b 4) = true) (ha : s.regAllowed i true b 4 = true)
    (hb : ¬ (b = bPWR ∨ b = bRST ∨ b = bCLK ∨ b = bHLT ∨ b = bMEM4)) (hr : isClu b = true → s.role (b - 0x40) ≠ 2) (hv : v < 2)
    (hq : ctl true (((s.at τ).answer 0 []).enableReq b v).regs b =
      ctl true ((((s.at τ).answer 0 []).wr b COM_CTRL_ENABLE v).setFsm b f).regs b) :
    Completes (.enable τ i b v) s (fun t => t.fsm b = f % 8 ∧ t.rd b COM_CTRL_ENABLE = v) := by
  have h1 : bit v 1 = 0 := by unfold bit; omega
  have h0 : bit v 0 = v := by unfold bit; omega
  have hr' : isClu b = true → ((s.at τ).answer 0 []).role (b - 0x40) ≠ 2 := fun h => by
    have hw : ((s.at τ).answer 0 []).role (b - 0x40) = s.role (b - 0x40) := State.at_rd s τ (bCLU (b - 0x40)) CLU_CTRL_ROLE
    exact hw ▸ hr h
  have hx : exec (.enable τ i b v) s = .next (((s.at τ).answer 0 []).ctrlWrite b v) := by
    rw [exec_common rfl hm ha (by decide), Nat.mod_eq_of_lt (by omega)]
    rfl
  refine ⟨_, hx, ?_⟩
  have h : ctl true (((s.at τ).answer 0 []).ctrlWrite b v).regs b =
      ctl true ((((s.at τ).answer 0 []).wr b COM_CTRL_ENABLE v).setFsm b f).regs b := by
    rw [State.ctrlWrite_ctl hb hr' h1, h0, hq]
  exact ⟨(State.fsm_of_ctl h).trans (State.fsm_setFsm f), (State.enable_of_ctl h).trans (State.enable_setFsm.trans (Nat.mod_eq_of_lt hv))⟩

end Control

/-- Settles O3: the access reaches the common register; what a function does beside its own step leaves the control words. -/
theorem commonRegisterWritesMoveTheStateMachine : Obligations.CommonRegisterWritesMoveTheStateMachine := by
  refine ⟨?on, ?off, ?fence, ?reset, ?refused⟩
  case on =>
    intro s τ i b hm ha h0 h1 h2 h3 h4 hr hi hn hf
    refine enable_completes (f := fSTARTING) hm ha (by simp [h0, h1, h2, h3, h4]) hr (by decide) ?_
    have h := State.enableReq_off (s := (s.at τ).answer 0 []) ((State.at_inFuncReset s τ b).trans hi) ((State.at_fencing s τ b).trans hn)
      ((State.at_fsm s τ b).trans hf)
    rw [h]
    exact State.toStarting_ctl
  case off =>
    intro s τ i b hm ha h0 h1 h2 h3 h4 hr hi hn hf
    refine enable_completes (f := fSTOPPING) hm ha (by simp [h0, h1, h2, h3, h4]) hr (by decide) ?_
    have h := State.enableReq_on (s := (s.at τ).answer 0 []) ((State.at_inFuncReset s τ b).trans hi) ((State.at_fencing s τ b).trans hn)
      ((State.at_fsm s τ b).trans hf)
    rw [h]
  case fence =>
    intro s τ i b v hm ha hb hv hf
    refine ⟨_, exec_common rfl hm ha (by decide), ?_⟩
    exact State.fenceWrite_taken hb (by unfold bit at *; omega) ((State.at_rd s τ b COM_FENCE_FENCE).trans hf)
  case reset =>
    intro s τ i b v hm ha hb hv hlt hf hi
    have hf' : ((s.at τ).answer 0 []).fsm b = fFENCED := (State.at_fsm s τ b).trans hf
    have hi' : ((s.at τ).answer 0 []).inFuncReset b = false := (State.at_inFuncReset s τ b).trans hi
    rw [exec_common rfl hm ha (by decide), Nat.mod_eq_of_lt hlt]
    simp [State.commonWrite, State.resetWrite, hv, hb, hf', hi']
  case refused =>
    intro s τ i b v hm ha hb hv hlt hf
    have hf' : ((s.at τ).answer 0 []).fsm b ≠ fFENCED := fun h => hf ((State.at_fsm s τ b).symm.trans h)
    rw [exec_common rfl hm ha (by decide), Nat.mod_eq_of_lt hlt]
    simp [State.commonWrite, State.resetWrite, hv, hb, hf']

end Sys2Proof.Machine
end

section
/-!
PROOFS. From the verdicts of the parts to the members, clocks and positions of the system.
-/

namespace Sys2Proof.Machine

/-! ### The verdict deadline of a contributor's slot

A contributor's verdict deadline lies `GUARD_US` of travel at the present speed ahead of the slot's own (R403), and R424 slows the speed of an
encoder without edges as time passes: a deadline that the position has reached by the speed of one moment may lie ahead of it again at the
next. -/

@[simp] theorem State.at_slot (s : State) (τ p k : Nat) : (s.at τ).slot p k = s.slot p k := by
  simp [State.slot, State.ejtU]

/-- Before the deadline by the speed of its own moment the command does nothing. -/
theorem exec_verdictDeadline_early {s : State} {τ p k : Nat} {x : Slot} (hx : s.slot p k = some x)
    (hd : (s.at τ).pos p < (s.at τ).deadlinePos p x) : exec (.verdictDeadline τ p k) s = .next (s.at τ) := by
  show Host.Outcome.next _ = _
  simp only [State.at_slot, hx, if_neg (not_le.2 hd)]

/-- A slot whose own deadline lies 400/256 counts ahead of position 0. -/
def dueSlot : Slot := { deadline := 400 }

/-- A contributor's port, live, with that slot open, whose encoder gives its last edge at time 0 at 100,000 counts per second. -/
def slowingPort : State :=
  ((({ stp := [(0, { lastEdge := some 0, vNum := 1, vDen := 10000 })],
       ejt := [(0, { slots := [(0, some dueSlot)] })] } : State).wr (bSTP 0) COM_STATE_FSM fON).wr (bEJT 0) COM_STATE_FSM fON).wrAct
    bLNK (LNK_SUBVCFG_EN 0) 1

theorem slowingPort_slot : slowingPort.slot 0 0 = some dueSlot := by decide

theorem slowingPort_live : slowingPort.ejtLive 0 = true := by decide +kernel

/-- One millisecond without an edge brings the port to 255/256 counts; the deadline by the speed at time 0 lay at -112/256. -/
theorem slowingPort_reached_by_old_speed : slowingPort.deadlinePos 0 dueSlot ≤ (slowingPort.at 1000000).pos 0 := by decide +kernel

/-- By the speed of 1,000 counts per second that is left, the deadline lies at 395/256. -/
theorem slowingPort_early_by_new_speed : (slowingPort.at 1000000).pos 0 < (slowingPort.at 1000000).deadlinePos 0 dueSlot := by
  decide +kernel

/-- Refutes O44: its clause on verdict deadlines takes a contributor's deadline by the speed before the command's moment. On `slowingPort`, by then
slower, the deadline lies ahead again, and the slot stays without a commit. -/
theorem not_verdictsContextsAndBatches : ¬ Obligations.VerdictsContextsAndBatches := by
  intro h
  obtain ⟨-, -, -, -, deadline, -⟩ := h
  obtain ⟨t, ht, y, hy, hc⟩ :=
    deadline slowingPort 1000000 0 0 dueSlot (by decide) slowingPort_slot slowingPort_reached_by_old_speed slowingPort_live
  rw [exec_verdictDeadline_early slowingPort_slot slowingPort_early_by_new_speed] at ht
  cases ht
  rw [State.at_slot, slowingPort_slot] at hy
  cases hy
  exact Bool.false_ne_true hc

/-! ### The registers of Traif Link, beside the other units -/

/-- The registers of Traif Link, by reset value and place in the block. -/
def lnkRegs (l : Store Word) (d : Word) (r : Nat) : Word := Store.get d l (bLNK * 33554432 + r % 33554432)

/-- The registers of Traif Link and the lane of the recovered clock. -/
def State.lnkView (s : State) : (Word → Nat → Word) × Option Nat := (lnkRegs s.regs, s.lnk.clkLane)

/-- Whether a field of block `b` is none of Traif Link's: the block lies above it, or the field stays inside a block below. -/
def Fld.offLnk (f : Fld) (b : Nat) : Bool := decide (bLNK < b) || (decide (b < bLNK) && decide (f.off < 1048576) && decide (f.lo < 32))

section LnkView
variable {s t : State}

/-- A register of Traif Link reads by the view alone. -/
theorem State.rd_of_lnkView {f : Fld} (ho : f.off < 1048576) (hl : f.lo < 32) (h : t.lnkView = s.lnkView) : t.rd bLNK f = s.rd bLNK f := by
  have hk : fkey bLNK f = bLNK * 33554432 + (f.off * 32 + f.lo) % 33554432 := by unfold fkey; omega
  have hr : lnkRegs t.regs = lnkRegs s.regs := congrArg Prod.fst h
  simp only [State.rd, hk]
  exact congrArg BitVec.toNat (congrFun (congrFun hr _) (f.off * 32 + f.lo))

theorem State.clkLane_of_lnkView (h : t.lnkView = s.lnkView) : t.lnk.clkLane = s.lnk.clkLane := congrArg Prod.snd h

theorem lnkRegs_put {d v : Word} {l : Store Word} {b : Nat} {f : Fld} (h : f.offLnk b = true) :
    lnkRegs (Store.put d l (fkey b f) v) = lnkRegs l := by
  funext d' r
  simp only [Fld.offLnk, Bool.or_eq_true, Bool.and_eq_true, decide_eq_true_eq] at h
  refine Store.get_put_ne ?_
  simp only [fkey, bLNK] at h ⊢
  omega

@[simp] theorem State.wr_lnkView {b n : Nat} {f : Fld} (h : f.offLnk b = true) : (s.wr b f n).lnkView = s.lnkView := by
  rw [State.lnkView, State.wr_regs, lnkRegs_put h]
  rfl

@[simp] theorem State.wr64_lnkView {b n : Nat} {lo hi : Fld} (hl : lo.offLnk b = true) (hh : hi.offLnk b = true) :
    (s.wr64 b lo hi n).lnkView = s.lnkView :=
  (State.wr_lnkView hh).trans (State.wr_lnkView hl)

@[simp] theorem State.inc_lnkView (b : Nat) (f : Fld) (n : Nat) : (s.inc b f n).lnkView = s.lnkView := rfl
@[simp] theorem State.setHlt_lnkView (x : Halter) : (s.setHlt x).lnkView = s.lnkView := rfl
@[simp] theorem State.setField_lnkView (x : Field) : (s.setField x).lnkView = s.lnkView := rfl
@[simp] theorem State.setEjt_lnkView (p : Nat) (x : EjtUnit) : (s.setEjt p x).lnkView = s.lnkView := rfl
@[simp] theorem State.setSch_lnkView (x : Sched) : (s.setSch x).lnkView = s.lnkView := rfl
@[simp] theorem State.setPage_lnkView (i : Nat) (x : KvPage) : (s.setPage i x).lnkView = s.lnkView := rfl
@[simp] theorem State.setSeq_lnkView (q : Nat) (x : KvSeq) : (s.setSeq q x).lnkView = s.lnkView := rfl

@[simp] theorem lnkView_ite {c : Prop} [Decidable c] {a b : State} :
    (if c then a else b).lnkView = if c then a.lnkView else b.lnkView := apply_ite State.lnkView _ _ _

theorem lnkView_foldl_mem {α : Type} {f : State → α → State} {l : List α} (h : ∀ s, ∀ x ∈ l, (f s x).lnkView = s.lnkView) :
    (l.foldl f s).lnkView = s.lnkView := foldl_keeps State.lnkView h

@[simp] theorem lnkView_foldl {α : Type} {f : State → α → State} (h : ∀ s x, (f s x).lnkView = s.lnkView) (l : List α) :
    (l.foldl f s).lnkView = s.lnkView := lnkView_foldl_mem fun s x _ => h s x

/-- The fields that a switch to the fallback inspector writes in the blocks below Traif Link. -/
@[simp] theorem fields_offLnk : HLT_STAT_LEVEL.offLnk bHLT = true ∧ HLT_STAT_CAUSE.offLnk bHLT = true ∧ HLT_STAT_STG_FAULT.offLnk bHLT = true ∧
    SCH_ACT_LO.offLnk bSCH = true ∧ SCH_ACT_HI.offLnk bSCH = true ∧ KVC_SWAP_STAT_USED.offLnk bKVC = true ∧
    MEM4_INJ_ARM.offLnk bMEM4 = true ∧ TIM_STAT_SOURCE.offLnk bTIM = true := by decide

theorem Fld.offLnk_above {f : Fld} {b : Nat} (h : bLNK < b) : f.offLnk b = true := by simp [Fld.offLnk, h]

theorem Fld.offLnk_below {f : Fld} {b : Nat} (h : b < bLNK) (ho : f.off < 1048576) (hl : f.lo < 32) : f.offLnk b = true := by
  simp [Fld.offLnk, h, ho, hl]

@[simp] theorem offLnk_bFIO (f : Fld) : f.offLnk bFIO = true := Fld.offLnk_above (by decide)

@[simp] theorem offLnk_bEJT (f : Fld) (p : Nat) : f.offLnk (bEJT p) = true := Fld.offLnk_above (by unfold bEJT bLNK; omega)

@[simp] theorem hltSrc_offLnk (p : Nat) : (hltSrc p).offLnk bHLT = true := by
  unfold hltSrc; split <;> rfl

@[simp] theorem hltHealthy_offLnk (p : Nat) : (hltHealthy p).offLnk bHLT = true := by
  unfold hltHealthy; split <;> rfl

@[simp] theorem EVQ_Q_WR_offLnk {q : Nat} (h : q < 4) : (EVQ_Q_WR q).offLnk bEVQ = true :=
  Fld.offLnk_below (by decide) (by dsimp only [EVQ_Q_WR]; omega) (show 0 < 32 by decide)

@[simp] theorem SCH_CTX_STATE_CSTATE_offLnk {k : Nat} (h : k < 64) : (SCH_CTX_STATE_CSTATE k).offLnk bSCH = true :=
  Fld.offLnk_below (by decide) (by dsimp only [SCH_CTX_STATE_CSTATE]; omega) (show 0 < 32 by decide)

@[simp] theorem State.touch_lnkView (u : Nat) (wr : Bool) : (s.touch u wr).lnkView = s.lnkView := by
  unfold State.touch
  dsimp only
  split
  · rfl
  · split <;> rfl

@[simp] theorem State.inject_lnkView (a n : Nat) : (s.inject a n).lnkView = s.lnkView := by
  have h : (s.wr bMEM4 MEM4_INJ_ARM 0).lnkView = s.lnkView := by simp
  unfold State.inject
  split
  · exact h
  · exact h
  · rfl

@[simp] theorem State.write_lnkView (a : Nat) (bs : List Nat) : (s.write a bs).lnkView = s.lnkView :=
  (State.inject_lnkView _ _).trans (lnkView_foldl (fun _ _ => State.touch_lnkView _ _) (dramUnits a bs.length))

@[simp] theorem State.mergeQuiet_lnkView (u : Nat) : (s.mergeQuiet u).lnkView = s.lnkView := by
  unfold State.mergeQuiet
  split
  · rfl
  · dsimp only
    split <;> rfl

@[simp] theorem State.writeQuiet_lnkView (a : Nat) (bs : List Nat) : (s.writeQuiet a bs).lnkView = s.lnkView := by simp [State.writeQuiet]

@[simp] theorem State.writeEdge_lnkView (q w first : Nat) (l : List (Nat × List Nat)) : (s.writeEdge q w first l).lnkView = s.lnkView := by
  simp [State.writeEdge]

theorem State.offer_lnkView {q : Nat} (h : q < 4) (code flags blk status : Nat) (args : List Nat) :
    (s.offer q code flags blk status args).lnkView = s.lnkView := by
  have hq (x : Store EvQueue) : ({ s with evqSeq := x } : State).lnkView = s.lnkView := rfl
  simp [State.offer, h, hq]

@[simp] theorem State.raiseRaw_lnkView (code blk status flags : Nat) (args : List Nat) :
    (s.raiseRaw code blk status flags args).lnkView = s.lnkView :=
  lnkView_foldl_mem fun _ _ hq => State.offer_lnkView (List.mem_range.1 hq) ..

@[simp] theorem State.raise_lnkView (code blk a1 a2 a3 status : Nat) : (s.raise code blk a1 a2 a3 status).lnkView = s.lnkView := by
  simp [State.raise]

@[simp] theorem State.updPage_lnkView (i : Nat) (f : KvPage → KvPage) : (s.updPage i f).lnkView = s.lnkView := by simp [State.updPage]

@[simp] theorem State.releaseList_lnkView (x : KvSeq) : (s.releaseList x).lnkView = s.lnkView := by
  refine lnkView_foldl (fun s e => ?_) _
  split
  · rfl
  · exact State.updPage_lnkView ..

@[simp] theorem State.closeSeq_lnkView (q : Nat) : (s.closeSeq q).lnkView = s.lnkView := by simp [State.closeSeq, State.showSlots]

@[simp] theorem State.closePart_lnkView (p part : Nat) : (s.closePart p part).lnkView = s.lnkView := by simp [State.closePart]

@[simp] theorem State.setSlot_lnkView (p k : Nat) (x : Option Slot) : (s.setSlot p k x).lnkView = s.lnkView := by simp [State.setSlot]

@[simp] theorem State.setCtxState_lnkView {k : Nat} (v : Nat) (h : k < 64) : (s.setCtxState k v).lnkView = s.lnkView := by
  simp [State.setCtxState, h]

@[simp] theorem State.settleCtx_lnkView {k : Nat} (h : k < 64) : (s.settleCtx k).lnkView = s.lnkView := by
  simp [State.settleCtx, State.emptyCtx, h]

@[simp] theorem State.settleCtxs_lnkView : s.settleCtxs.lnkView = s.lnkView :=
  lnkView_foldl_mem fun _ _ hk => State.settleCtx_lnkView (List.mem_range.1 hk)

@[simp] theorem State.slotCommit_lnkView (p k : Nat) (c : Commit) : (s.slotCommit p k c).lnkView = s.lnkView := by
  unfold State.slotCommit
  split <;> simp

@[simp] theorem State.slotToFb_lnkView (p k : Nat) : (s.slotToFb p k).lnkView = s.lnkView := by
  unfold State.slotToFb
  dsimp only
  repeat' split
  all_goals simp [State.fbCommit]

@[simp] theorem State.refreshFio_lnkView : s.refreshFio.lnkView = s.lnkView := by simp [State.refreshFio]

@[simp] theorem State.safeReaction_lnkView (cause stage port : Nat) : (s.safeReaction cause stage port).lnkView = s.lnkView := by
  simp [State.safeReaction, State.writeEscalation]

end LnkView

/-! ### Frames of Traif Link -/

section Frames
variable {s : State}

/-- What sending changes: the lanes' injections, the outputs and the ports. -/
def State.sent (s : State) (sds : Store Sds) (out : List Out) (ports : Store LinkPort) : State :=
  { s with sds := sds, out := out, lnk := { s.lnk with ports := ports } }

theorem State.putFrame_sent (s : State) (p seq : Nat) (good : Bool) (f : Frame) : ∃ a o l, s.putFrame p seq good f = s.sent a o l := by
  unfold State.putFrame State.takeInj
  split <;> exact ⟨_, _, _, rfl⟩

theorem State.queueFrame_sent (s : State) (p : Nat) (f : Frame) : ∃ a o l, s.queueFrame p f = s.sent a o l := by
  unfold State.queueFrame
  split
  · exact ⟨_, _, _, rfl⟩
  · dsimp only
    split
    · exact ⟨_, _, _, rfl⟩
    · obtain ⟨a, o, l, h⟩ := State.putFrame_sent (s.setLinkPort p { s.linkPort p with
        tx := ((s.linkPort p).tx + 1) % 65536, replay := (s.linkPort p).replay ++ [((s.linkPort p).tx, 0, f)] }) p (s.linkPort p).tx true f
      exact ⟨a, o, l, h⟩

theorem State.sendFrame_sent (s : State) (f : Frame) : ∃ a o l, s.sendFrame f = s.sent a o l := by
  unfold State.sendFrame
  split
  · split
    · exact State.queueFrame_sent ..
    · obtain ⟨a, o, l, h⟩ := State.queueFrame_sent s 0 f
      rw [h]
      obtain ⟨a', o', l', h'⟩ := State.queueFrame_sent (s.sent a o l) 1 f
      exact ⟨a', o', l', h'⟩
  · exact State.queueFrame_sent ..

/-- What sending leaves. -/
@[simp] theorem State.sendFrame_frame (s : State) (f : Frame) : (s.sendFrame f).regs = s.regs ∧ (s.sendFrame f).live = s.live ∧
    (s.sendFrame f).lnk.exch = s.lnk.exch ∧ (s.sendFrame f).lnk.snap = s.lnk.snap ∧ (s.sendFrame f).lnkView = s.lnkView := by
  obtain ⟨_, _, _, h⟩ := s.sendFrame_sent f
  rw [h]
  exact ⟨rfl, rfl, rfl, rfl, rfl⟩

@[simp] theorem State.sendFrame_rd (f : Frame) (b : Nat) (g : Fld) : (s.sendFrame f).rd b g = s.rd b g := by simp [State.rd]

/-- What receiving a frame changes: what sending does, when the modules were heard, and the counters. -/
def State.received (s : State) (sds : Store Sds) (out : List Out) (ports : Store LinkPort) (heard : Store Nat) (live : Store Word) : State :=
  { s with sds := sds, out := out, live := live, lnk := { s.lnk with ports := ports, heard := heard } }

/-- A frame that travels on is sent and counted. -/
theorem State.forward_received (s : State) (a : Nat) (f : Frame) : ∃ b o l v, s.forward a f = s.received b o l s.lnk.heard v ∧
    ∀ k, k ≠ fkey bLNK LNK_CNT_FWD → Store.get 0#32 v k = Store.get 0#32 s.live k := by
  unfold State.forward
  split
  · obtain ⟨b, o, l, h⟩ := s.queueFrame_sent (1 - a) f
    rw [h]
    exact ⟨b, o, l, _, rfl, fun k hk => Store.get_put_ne hk.symm⟩
  · exact ⟨_, _, _, _, rfl, fun _ _ => rfl⟩

theorem State.rxFrame_received (s : State) (a : Nat) (f : Frame) : ∃ b o l h v, s.rxFrame a f = s.received b o l h v ∧
    (f.poison = false → ∀ k, k ≠ fkey bLNK LNK_CNT_FWD → Store.get 0#32 v k = Store.get 0#32 s.live k) := by
  unfold State.rxFrame
  lift_lets
  intro x noted link heard counted acked
  have hcounted : ∃ l h v, counted = s.received s.sds s.out l h v ∧ (f.poison = false → v = s.live) := by
    unfold counted
    split
    next hp => exact ⟨_, _, _, rfl, fun h => absurd (hp.symm.trans h) (by decide)⟩
    · exact ⟨_, _, _, rfl, fun _ => rfl⟩
  obtain ⟨l, h, v, ec, hv⟩ := hcounted
  have hacked : ∃ b o l, acked = s.received b o l h v := by
    obtain ⟨b, o, l, e⟩ := counted.putFrame_sent a 0 true
      { type := frLACK, src := counted.modulePos, dest := toAll, arg := ((counted.linkPort a).rx + 65535) % 65536 }
    exact ⟨b, o, l, e.trans (by rw [ec]; rfl)⟩
  obtain ⟨b, o, l, ea⟩ := hacked
  split
  · obtain ⟨b, o, l, w, e, hw⟩ := acked.forward_received a f
    rw [ea] at e hw ⊢
    exact ⟨b, o, l, h, w, e, fun hp k hk => (hw k hk).trans (by rw [← hv hp]; rfl)⟩
  · exact ⟨b, o, l, h, v, ea, fun hp _ _ => by rw [hv hp]⟩

/-- What receiving a frame leaves. -/
@[simp] theorem State.rxFrame_frame (s : State) (a : Nat) (f : Frame) : (s.rxFrame a f).regs = s.regs ∧ (s.rxFrame a f).active = s.active ∧
    (s.rxFrame a f).now = s.now ∧ (s.rxFrame a f).tb = s.tb ∧ (s.rxFrame a f).stp = s.stp ∧ (s.rxFrame a f).follow = s.follow ∧
    (s.rxFrame a f).ejt = s.ejt ∧ (s.rxFrame a f).merge = s.merge ∧ (s.rxFrame a f).lnk.snap = s.lnk.snap ∧
    (s.rxFrame a f).lnk.modules = s.lnk.modules := by
  obtain ⟨_, _, _, _, _, h, _⟩ := s.rxFrame_received a f
  rw [h]
  exact ⟨rfl, rfl, rfl, rfl, rfl, rfl, rfl, rfl, rfl, rfl⟩

@[simp] theorem State.rxFrame_rd (a : Nat) (f : Frame) (b : Nat) (g : Fld) : (s.rxFrame a f).rd b g = s.rd b g := by simp [State.rd]
@[simp] theorem State.rxFrame_act (a : Nat) (f : Frame) (b : Nat) (g : Fld) : (s.rxFrame a f).act b g = s.act b g := by simp [State.act]

/-- A frame that is not poisoned leaves every counter but that of the frames passed on. -/
theorem State.rxFrame_cnt {a b : Nat} {f : Frame} {g : Fld} (hp : f.poison = false) (hk : fkey b g ≠ fkey bLNK LNK_CNT_FWD) :
    (s.rxFrame a f).cnt b g = s.cnt b g := by
  obtain ⟨_, _, _, _, _, h, hv⟩ := s.rxFrame_received a f
  rw [h]
  exact congrArg BitVec.toNat (hv hp _ hk)

end Frames

/-! ### The switch to the fallback inspector -/

section Switch
variable {s : State}

@[simp] theorem State.upgReport_lnkView (ok : Bool) : (s.upgReport ok).lnkView = s.lnkView := by
  have h (x : Link) (hx : x.clkLane = s.lnk.clkLane) : (s.setLnk x).lnkView = s.lnkView := congrArg (Prod.mk _) hx
  simp [State.upgReport, h]

@[simp] theorem State.switchPort_lnkView (cause stage p : Nat) : (s.switchPort cause stage p).lnkView = s.lnkView := by
  simp [State.switchPort]

@[simp] theorem State.portsToFallback_lnkView (why : Nat) : (s.portsToFallback why).lnkView = s.lnkView :=
  lnkView_foldl (fun _ _ => State.switchPort_lnkView ..) _

@[simp] theorem State.stage7_lnkView (code k : Nat) : (s.stage7 code k).lnkView = s.lnkView := by
  simp [State.stage7, State.stageFault, State.markS7]

end Switch

/-! ### The sets of members -/

theorem bit_mod_two_pow (n k w : Nat) : bit (n % 2 ^ w) k = if k < w then bit n k else 0 := by
  have h (n : Nat) : bit n k = (n.testBit k).toNat := by rw [Nat.toNat_testBit]; rfl
  rw [h, h, Nat.testBit_mod_two_pow]
  split <;> simp [*]

theorem bit_without (m k : Nat) : bit (without m k) k = 0 := by
  unfold without
  split
  · next h =>
    unfold bit at *
    have hd := Nat.sub_mul_div m (2 ^ k) 1
    rw [Nat.mul_one] at hd
    omega
  · next h => unfold bit at *; omega

theorem bit_withBit (m k : Nat) : bit (withBit m k) k = 1 := by
  unfold withBit
  split
  · assumption
  · next h =>
    unfold bit at *
    rw [Nat.add_div_right _ (Nat.two_pow_pos k)]
    omega

section Members
variable {s : State} {joined serving : Nat}

/-- The four fields that the sets are shown in, written over a state that differs by the time base's source. -/
theorem State.setMembers_eq (s : State) (joined serving : Nat) : ∃ r : State, r.lnkView = s.lnkView ∧ r.lnk = s.lnk ∧ r.live = s.live ∧
    s.setMembers joined serving = (((r.wr bLNK LNK_MEMBERS_JOINED joined).wr bLNK LNK_MEMBERS_IN serving).wr bLNK LNK_SVC_IN_SERVICE
      (bit serving s.modulePos)).wr bLNK LNK_CINCH_DELAY (delayOf s.lnk.modules s.isRing joined) := by
  have hp (r : State) (hv : r.lnkView = s.lnkView) :
      ((r.wr bLNK LNK_MEMBERS_JOINED joined).wr bLNK LNK_MEMBERS_IN serving).modulePos = s.modulePos := by
    unfold State.modulePos
    rw [State.rd_wr_ne _ _ _ _ _ _ (by decide), State.rd_wr_ne _ _ _ _ _ _ (by decide), State.rd_of_lnkView (by decide) (by decide) hv]
  have hr (r : State) (hv : r.lnkView = s.lnkView) : (((r.wr bLNK LNK_MEMBERS_JOINED joined).wr bLNK LNK_MEMBERS_IN serving).wr bLNK
      LNK_SVC_IN_SERVICE (bit serving s.modulePos)).isRing = s.isRing := by
    unfold State.isRing
    rw [State.rd_wr_ne _ _ _ _ _ _ (by decide), State.rd_wr_ne _ _ _ _ _ _ (by decide), State.rd_wr_ne _ _ _ _ _ _ (by decide),
      State.rd_of_lnkView (by decide) (by decide) hv]
  unfold State.setMembers
  split
  · have hv : (s.wr bTIM TIM_STAT_SOURCE 3).lnkView = s.lnkView := by simp
    refine ⟨s.wr bTIM TIM_STAT_SOURCE 3, hv, rfl, rfl, ?_⟩
    dsimp only
    rw [hp _ hv, hr _ hv]
    rfl
  · refine ⟨s, rfl, rfl, rfl, ?_⟩
    dsimp only
    rw [hp _ rfl, hr _ rfl]
    rfl

@[simp] theorem State.setMembers_lnk : (s.setMembers joined serving).lnk = s.lnk := by
  obtain ⟨r, -, hl, -, h⟩ := s.setMembers_eq joined serving
  simpa only [h, State.wr_lnk] using hl

@[simp] theorem State.setMembers_live : (s.setMembers joined serving).live = s.live := by
  obtain ⟨r, -, -, hl, h⟩ := s.setMembers_eq joined serving
  simpa only [h, State.wr_live] using hl

@[simp] theorem State.setMembers_joined : (s.setMembers joined serving).rd bLNK LNK_MEMBERS_JOINED = joined % 2 ^ 16 := by
  obtain ⟨r, -, -, -, h⟩ := s.setMembers_eq joined serving
  rw [h, State.rd_wr_ne _ _ _ _ _ _ (by decide), State.rd_wr_ne _ _ _ _ _ _ (by decide), State.rd_wr_ne _ _ _ _ _ _ (by decide),
    State.rd_wr_same _ _ _ _ (by decide), show LNK_MEMBERS_JOINED.w = 16 from rfl]

@[simp] theorem State.setMembers_in : (s.setMembers joined serving).rd bLNK LNK_MEMBERS_IN = serving % 2 ^ 16 := by
  obtain ⟨r, -, -, -, h⟩ := s.setMembers_eq joined serving
  rw [h, State.rd_wr_ne _ _ _ _ _ _ (by decide), State.rd_wr_ne _ _ _ _ _ _ (by decide),
    State.rd_wr_same _ _ _ _ (by decide), show LNK_MEMBERS_IN.w = 16 from rfl]

@[simp] theorem State.setMembers_service : (s.setMembers joined serving).rd bLNK LNK_SVC_IN_SERVICE = bit serving s.modulePos := by
  obtain ⟨r, -, -, -, h⟩ := s.setMembers_eq joined serving
  rw [h, State.rd_wr_ne _ _ _ _ _ _ (by decide)]
  exact (State.rd_wr_same _ _ _ _ (by decide)).trans (Nat.mod_mod _ 2)

@[simp] theorem State.setMembers_delay :
    (s.setMembers joined serving).rd bLNK LNK_CINCH_DELAY = delayOf s.lnk.modules s.isRing joined % 2 ^ 16 := by
  obtain ⟨r, -, -, -, h⟩ := s.setMembers_eq joined serving
  rw [h]
  exact State.rd_wr_same _ _ _ _ (by decide)

@[simp] theorem State.setMembers_modulePos : (s.setMembers joined serving).modulePos = s.modulePos := by
  obtain ⟨r, hv, -, -, h⟩ := s.setMembers_eq joined serving
  unfold State.modulePos
  rw [h, State.rd_wr_ne _ _ _ _ _ _ (by decide), State.rd_wr_ne _ _ _ _ _ _ (by decide), State.rd_wr_ne _ _ _ _ _ _ (by decide),
    State.rd_wr_ne _ _ _ _ _ _ (by decide)]
  exact State.rd_of_lnkView (by decide) (by decide) hv

theorem State.joined_of_without {m n : Nat} (h : s.rd bLNK LNK_MEMBERS_JOINED = without n m % 2 ^ 16) : s.joined m = false := by
  rw [State.joined, h, bit_mod_two_pow, bit_without, ite_self]
  rfl

theorem State.serves_of_without {m n : Nat} (h : s.rd bLNK LNK_MEMBERS_IN = without n m % 2 ^ 16) : s.serves m = false := by
  rw [State.serves, h, bit_mod_two_pow, bit_without, ite_self]
  rfl

/-- Module 0 takes a module into the joined set and leaves the other set. -/
theorem State.takeIn_joins {m : Nat} (hm : m < 16) (hj : s.joined m = false) :
    (s.takeIn m).joined m = true ∧ (s.takeIn m).serves m = s.serves m := by
  unfold State.takeIn
  rw [if_neg (by simp [hj])]
  constructor
  · rw [State.joined, State.sendMembers, State.sendFrame_rd, State.setMembers_joined, bit_mod_two_pow, if_pos hm, bit_withBit]
    rfl
  · rw [State.serves, State.sendMembers, State.sendFrame_rd, State.setMembers_in, bit_mod_two_pow, if_pos hm]
    rfl

/-- Leaving service takes this module out of both sets. -/
theorem State.leaveService_out (s : State) : s.leaveService.inService = false ∧ s.leaveService.joined s.modulePos = false ∧
    s.leaveService.serves s.modulePos = false ∧ s.leaveService.lnk.clkLane = s.lnk.clkLane := by
  have hv : s.leaveService.lnkView = (s.setMembers (without (s.rd bLNK LNK_MEMBERS_JOINED) s.modulePos)
      (without (s.rd bLNK LNK_MEMBERS_IN) s.modulePos)).lnkView := State.portsToFallback_lnkView 0
  refine ⟨?_, State.joined_of_without ((State.rd_of_lnkView (by decide) (by decide) hv).trans State.setMembers_joined),
    State.serves_of_without ((State.rd_of_lnkView (by decide) (by decide) hv).trans State.setMembers_in), ?_⟩
  · rw [State.inService, State.rd_of_lnkView (by decide) (by decide) hv, State.setMembers_service, bit_without]
    rfl
  · rw [State.clkLane_of_lnkView hv, State.setMembers_lnk]

end Members

/-! ### Modules that have left -/

section Drop
variable {s : State}

/-- The end of a barrier shows in two counters of its own. -/
theorem State.endBarrier_frame (s : State) (num gen status : Nat) : (s.endBarrier num gen status).regs = s.regs ∧
    ∀ k, k ≠ fkey bLNK LNK_CNT_BARRIERS → Store.get 0#32 (s.endBarrier num gen status).live k = Store.get 0#32 s.live k := by
  unfold State.endBarrier
  split
  · exact ⟨rfl, fun k hk => Store.get_put_ne hk.symm⟩
  · exact ⟨rfl, fun _ _ => rfl⟩

@[simp] theorem State.takeRelease_regs (num gen time : Nat) (bad : Bool) : (s.takeRelease num gen time bad).regs = s.regs := by
  have h (t : State) : (t.endBarrier num gen (relStatus bad)).regs = t.regs := (t.endBarrier_frame ..).1
  unfold State.takeRelease
  split
  · split
    · exact h s
    · rfl
  · rfl

theorem State.takeRelease_memberLost (num gen time : Nat) (bad : Bool) :
    (s.takeRelease num gen time bad).cnt bLNK LNK_CNT_MEMBER_LOST = s.cnt bLNK LNK_CNT_MEMBER_LOST := by
  unfold State.takeRelease
  split
  · split
    · refine (State.cnt_setCnt_ne _ _ _ _ _ _ (by decide)).trans ?_
      exact congrArg BitVec.toNat ((s.endBarrier_frame ..).2 _ (by decide))
    · rfl
  · rfl

@[simp] theorem State.decideAll_regs : s.decideAll.regs = s.regs := by
  refine foldl_keeps State.regs fun s num _ => ?_
  unfold State.decideBarrier
  dsimp only
  split
  · rfl
  · split
    · simp
    · rfl

theorem State.decideAll_memberLost : s.decideAll.cnt bLNK LNK_CNT_MEMBER_LOST = s.cnt bLNK LNK_CNT_MEMBER_LOST := by
  refine foldl_keeps (fun s => State.cnt s bLNK LNK_CNT_MEMBER_LOST) fun s num _ => ?_
  unfold State.decideBarrier
  dsimp only
  split
  · rfl
  · split
    · rw [State.takeRelease_memberLost]
      simp [State.cnt]
    · rfl

/-- Shards that move leave the unit of Traif Link. -/
theorem State.setShard_lnkView {j m c : Nat} (h : j < 1024) : (s.setShard j m c).lnkView = s.lnkView := by
  have hoff (f : Fld) (ho : f.off < 1048576) (hl : f.lo < 32) : f.offLnk bSCH = true := Fld.offLnk_below (by decide) ho hl
  have hm : (if j % 2 = 0 then SCH_MAP_MODULE0 (j / 2) else SCH_MAP_MODULE1 (j / 2)).offLnk bSCH = true := by
    split <;> exact hoff _ (by dsimp only [SCH_MAP_MODULE0, SCH_MAP_MODULE1]; omega) (by simp [SCH_MAP_MODULE0, SCH_MAP_MODULE1])
  have hh : (if j % 2 = 0 then SCH_MAP_HOME0 (j / 2) else SCH_MAP_HOME1 (j / 2)).offLnk bSCH = true := by
    split <;> exact hoff _ (by dsimp only [SCH_MAP_HOME0, SCH_MAP_HOME1]; omega) (by simp [SCH_MAP_HOME0, SCH_MAP_HOME1])
  rw [State.setShard, State.setHome, State.wr_lnkView hh, State.wr_lnkView hm]

@[simp] theorem State.absorb_lnkView (m : Nat) : (s.absorb m).lnkView = s.lnkView := by
  unfold State.absorb
  dsimp only
  split
  · rfl
  · refine lnkView_foldl_mem fun s e he => State.setShard_lnkView ?_
    exact List.mem_range.1 (List.mem_filter.1 (List.fst_mem_of_mem_zipIdx he)).1

@[simp] theorem State.absorb_live (m : Nat) : (s.absorb m).live = s.live := by
  unfold State.absorb
  dsimp only
  split
  · rfl
  · exact foldl_keeps State.live fun _ _ _ => rfl

/-- With no exchange under way, dropping a module leaves the registers of Traif Link. -/
theorem State.dropModules_rd {m : Nat} {f : Fld} (he : s.lnk.exch = []) (ho : f.off < 1048576) (hl : f.lo < 32) :
    (s.dropModules [m]).rd bLNK f = s.rd bLNK f := by
  have h : ((s.loseDest m).absorb m).rd bLNK f = s.rd bLNK f := by
    rw [State.loseDest, he]
    exact State.rd_of_lnkView ho hl (State.absorb_lnkView m)
  unfold State.dropModules
  dsimp only [List.foldl_cons, List.foldl_nil]
  split
  · rw [← h, State.rd, State.decideAll_regs, State.rd]
  · exact h

theorem State.dropModules_memberLost {m : Nat} (he : s.lnk.exch = []) :
    (s.dropModules [m]).cnt bLNK LNK_CNT_MEMBER_LOST = s.cnt bLNK LNK_CNT_MEMBER_LOST := by
  have h : ((s.loseDest m).absorb m).cnt bLNK LNK_CNT_MEMBER_LOST = s.cnt bLNK LNK_CNT_MEMBER_LOST := by
    rw [State.loseDest, he, State.cnt, State.absorb_live]
    rfl
  unfold State.dropModules
  dsimp only [List.foldl_cons, List.foldl_nil]
  split
  · rw [State.decideAll_memberLost, h]
  · exact h

/-- No module dropped, none does anything away from module 0. -/
theorem State.dropModules_nil (h : s.modulePos ≠ 0) : s.dropModules [] = s := if_neg h

end Drop

/-! ### Commands of Traif Link -/

section Commands
variable {s : State} {τ : Nat}

@[simp] theorem State.at_modulePos (s : State) (τ : Nat) : (s.at τ).modulePos = s.modulePos := by simp [State.modulePos]
@[simp] theorem State.at_isRing (s : State) (τ : Nat) : (s.at τ).isRing = s.isRing := by simp [State.isRing]
@[simp] theorem State.at_joined (s : State) (τ m : Nat) : (s.at τ).joined m = s.joined m := by simp [State.joined]
@[simp] theorem State.at_serves (s : State) (τ m : Nat) : (s.at τ).serves m = s.serves m := by simp [State.serves]
@[simp] theorem State.at_inService (s : State) (τ : Nat) : (s.at τ).inService = s.inService := by simp [State.inService]
@[simp] theorem State.at_isFollower (s : State) (τ p : Nat) : (s.at τ).isFollower p = s.isFollower p := by simp [State.isFollower]
@[simp] theorem State.at_lnkOn (s : State) (τ : Nat) : (s.at τ).lnkOn = s.lnkOn := by simp [State.lnkOn, State.isOn]
@[simp] theorem State.at_portUp (s : State) (τ p : Nat) : (s.at τ).portUp p = s.portUp p := by simp [State.portUp]
@[simp] theorem State.at_followP (s : State) (τ p : Nat) : (s.at τ).followP p = s.followP p := by simp [State.followP]
@[simp] theorem State.at_clkSel (s : State) (τ : Nat) : (s.at τ).clkSel = s.clkSel := by simp [State.clkSel]
@[simp] theorem State.at_mergeAt (s : State) (τ p k : Nat) : (s.at τ).mergeAt p k = s.mergeAt p k := by simp [State.mergeAt]
@[simp] theorem State.at_slotOfPart (s : State) (τ p n : Nat) : (s.at τ).slotOfPart p n = s.slotOfPart p n := by
  simp [State.slotOfPart, State.openSlots, State.ejtU]

@[simp] theorem State.inc_rd (b c n : Nat) (f g : Fld) : (s.inc b f n).rd c g = s.rd c g := rfl
@[simp] theorem State.inc_slotOfPart (b p part n : Nat) (f : Fld) : (s.inc b f n).slotOfPart p part = s.slotOfPart p part := rfl
@[simp] theorem State.inc_mergeAt (b p k n : Nat) (f : Fld) : (s.inc b f n).mergeAt p k = s.mergeAt p k := rfl
theorem State.cnt_inc_ne {b c n : Nat} {f g : Fld} (h : fkey b f ≠ fkey c g) : (s.inc b f n).cnt c g = s.cnt c g :=
  State.cnt_setCnt_ne _ _ _ _ _ _ h
@[simp] theorem State.mark_fsm (k b : Nat) : (s.mark k).fsm b = s.fsm b := rfl
@[simp] theorem State.mark_modulePos (k : Nat) : (s.mark k).modulePos = s.modulePos := rfl
@[simp] theorem State.sendFrame_modulePos (f : Frame) : (s.sendFrame f).modulePos = s.modulePos := by simp [State.modulePos]
@[simp] theorem State.setLnk_cnt (x : Link) (b : Nat) (f : Fld) : (s.setLnk x).cnt b f = s.cnt b f := rfl

@[simp] theorem State.rxFrame_modulePos (a : Nat) (f : Frame) : (s.rxFrame a f).modulePos = s.modulePos := by simp [State.modulePos]
@[simp] theorem State.rxFrame_joined (a m : Nat) (f : Frame) : (s.rxFrame a f).joined m = s.joined m := by simp [State.joined]
@[simp] theorem State.rxFrame_serves (a m : Nat) (f : Frame) : (s.rxFrame a f).serves m = s.serves m := by simp [State.serves]
@[simp] theorem State.rxFrame_inService (a : Nat) (f : Frame) : (s.rxFrame a f).inService = s.inService := by simp [State.inService]
@[simp] theorem State.rxFrame_isRing (a : Nat) (f : Frame) : (s.rxFrame a f).isRing = s.isRing := by simp [State.isRing]
@[simp] theorem State.rxFrame_isFollower (a p : Nat) (f : Frame) : (s.rxFrame a f).isFollower p = s.isFollower p := by
  simp [State.isFollower]
@[simp] theorem State.rxFrame_followP (a p : Nat) (f : Frame) : (s.rxFrame a f).followP p = s.followP p := by simp [State.followP]
@[simp] theorem State.rxFrame_speedFrac (a p : Nat) (f : Frame) : (s.rxFrame a f).speedFrac p = s.speedFrac p := by
  simp [State.speedFrac, State.stpP]
@[simp] theorem State.rxFrame_ownPos (a p : Nat) (f : Frame) : (s.rxFrame a f).ownPos p = s.ownPos p := by
  unfold State.ownPos State.stpP
  simp only [State.rxFrame_speedFrac, State.rxFrame_frame]
@[simp] theorem State.rxFrame_sinceTb (a n : Nat) (f : Frame) : (s.rxFrame a f).sinceTb n = s.sinceTb n := by simp [State.sinceTb]
@[simp] theorem State.rxFrame_mergeAt (a p k : Nat) (f : Frame) : (s.rxFrame a f).mergeAt p k = s.mergeAt p k := by simp [State.mergeAt]
@[simp] theorem State.rxFrame_slotOfPart (a p n : Nat) (f : Frame) : (s.rxFrame a f).slotOfPart p n = s.slotOfPart p n := by
  simp [State.slotOfPart, State.openSlots, State.ejtU]

/-- On a port that has joined, a frame is received and then does what it says. -/
theorem State.onFrame_up {a : Nat} {f : Frame} {k : State → State} (h : s.portUp a = true) :
    (s.at τ).onFrame a f k = k ((s.at τ).rxFrame a f) := if_pos ((s.at_portUp τ a).trans h)

/-- Module 0 takes a module out of both sets, announces them and counts it. -/
def State.expel (s : State) (m : Nat) : State :=
  ((s.setMembers (without (s.rd bLNK LNK_MEMBERS_JOINED) m) (without (s.rd bLNK LNK_MEMBERS_IN) m)).sendMembers).inc bLNK LNK_CNT_MEMBER_LOST

theorem State.expel_joined (s : State) (m : Nat) :
    (s.expel m).rd bLNK LNK_MEMBERS_JOINED = without (s.rd bLNK LNK_MEMBERS_JOINED) m % 2 ^ 16 := by
  rw [State.expel, State.inc_rd, State.sendMembers, State.sendFrame_rd, State.setMembers_joined]

theorem State.expel_in (s : State) (m : Nat) : (s.expel m).rd bLNK LNK_MEMBERS_IN = without (s.rd bLNK LNK_MEMBERS_IN) m % 2 ^ 16 := by
  rw [State.expel, State.inc_rd, State.sendMembers, State.sendFrame_rd, State.setMembers_in]

theorem State.expel_memberLost (s : State) (m : Nat) :
    (s.expel m).cnt bLNK LNK_CNT_MEMBER_LOST = satInc (s.cnt bLNK LNK_CNT_MEMBER_LOST) 1 := by
  rw [State.expel, State.cnt_inc]
  simp [State.cnt, State.sendMembers]

theorem State.expel_exch (s : State) (m : Nat) : (s.expel m).lnk.exch = s.lnk.exch := by
  simp [State.expel, State.sendMembers]

/-- A module lost is expelled, and what waits for it goes on; a live switch may take note of it. -/
theorem exec_moduleLost {m : Nat} (hl : s.lnkOn = true) (h0 : s.modulePos = 0) (hm : m ≠ 0) (hj : s.joined m = true)
    (hh : Store.get 0 s.lnk.heard m + 50000 ≤ (s.at τ).now) : ∃ x : Link, x.exch = s.lnk.exch ∧
      exec (.moduleLost τ m) s = .next ((((s.at τ).expel m).setLnk x).dropModules [m]) := by
  have he : ((s.at τ).expel m).lnk.exch = s.lnk.exch := by rw [State.expel_exch, State.at_lnk]
  have hx : exec (.moduleLost τ m) s = execModuleLost τ m s := rfl
  rw [hx, execModuleLost]
  dsimp only
  rw [if_pos (by simp [hl, h0, hm, hj, hh]), ← State.expel]
  generalize (s.at τ).expel m = u at he ⊢
  split
  · exact ⟨{ u.lnk with reports := Store.put 0 u.lnk.reports m 2 }, he, rfl⟩
  · exact ⟨u.lnk, he, rfl⟩

/-- A frame that module 0 makes. -/
theorem State.frame_of_module0 {ty dest arg : Nat} {data : List Int} (h : s.modulePos = 0) :
    s.frame ty dest arg data = { type := ty, dest := dest, arg := arg, data := data } := by
  rw [State.frame, h]

/-- The difference of a wired port that aligns or unaligns it (R386). -/
def State.wiredDiff (s : State) (p : Nat) (cnt : Int) (sample : Nat) : Int :=
  (cnt - (s.ownPos p - (s.speedFrac p).1 * s.sinceTb sample * 256 / ((s.speedFrac p).2 : Int)) + 128) / 256

@[simp] theorem State.rxFrame_wiredDiff (a p sample : Nat) (cnt : Int) (f : Frame) :
    (s.rxFrame a f).wiredDiff p cnt sample = s.wiredDiff p cnt sample := by
  rw [State.wiredDiff, State.rxFrame_ownPos, State.rxFrame_speedFrac, State.rxFrame_sinceTb, State.wiredDiff]

theorem aligned_ne_posoff (p : Nat) : fkey bLNK LNK_POSCFG_ALIGNED ≠ fkey bLNK (LNK_POSOFF p) := by
  simp only [fkey, LNK_POSCFG_ALIGNED, LNK_POSOFF]
  omega

theorem toCode_lt (w : Nat) (i : Int) : toCode w i < 2 ^ w := by
  have h : (0 : Int) < (2 ^ w : Nat) := by exact_mod_cast Nat.two_pow_pos w
  have := Int.emod_lt_of_pos i h
  have := Int.emod_nonneg i h.ne'
  unfold toCode
  omega

/-- At the 16th equal difference a wired port aligns and keeps the offset. -/
theorem State.wiredFrame_aligns {p sample : Nat} {cnt : Int} (hp : p < 2) (hal : bit (s.rd bLNK LNK_POSCFG_ALIGNED) p = 0)
    (hseen : (s.followP p).seen = true) (hgood : 15 ≤ (s.followP p).good) (hd : s.wiredDiff p cnt sample = (s.followP p).off) :
    bit ((s.wiredFrame p cnt sample).rd bLNK LNK_POSCFG_ALIGNED) p = 1 ∧
      (s.wiredFrame p cnt sample).rd bLNK (LNK_POSOFF p) = toCode 32 (s.followP p).off := by
  have hg : 16 ≤ if (s.followP p).seen && s.wiredDiff p cnt sample == (s.followP p).off then (s.followP p).good + 1 else 1 := by
    simp [hseen, hd]
    omega
  have h : ∃ x, s.wiredFrame p cnt sample = ((s.setFollow p x).wr bLNK (LNK_POSOFF p) (toCode 32 (s.wiredDiff p cnt sample))).wr bLNK
      LNK_POSCFG_ALIGNED (withBit (s.rd bLNK LNK_POSCFG_ALIGNED) p) := ⟨_, (if_pos hal).trans (if_pos hg)⟩
  obtain ⟨x, h⟩ := h
  rw [h]
  constructor
  · rw [State.rd_wr_same _ _ _ _ (by decide), bit_mod_two_pow, if_pos (by exact hp), bit_withBit]
  · rw [State.rd_wr_ne _ _ _ _ _ _ (aligned_ne_posoff p), State.rd_wr_same _ _ _ _ (Nat.le_refl 32), hd]
    exact Nat.mod_eq_of_lt (toCode_lt ..)

/-- At the 64th difference too large in a row it loses its alignment, and what Halter does about it leaves that. -/
theorem State.wiredFrame_unaligns {p sample : Nat} {cnt : Int} (hal : bit (s.rd bLNK LNK_POSCFG_ALIGNED) p = 1)
    (hbad : 63 ≤ (s.followP p).bad) (hd : 2 < (s.wiredDiff p cnt sample - sext 32 (s.rd bLNK (LNK_POSOFF p))).natAbs) :
    bit ((s.wiredFrame p cnt sample).rd bLNK LNK_POSCFG_ALIGNED) p = 0 := by
  have hb : 64 ≤ if 2 < (s.wiredDiff p cnt sample - sext 32 (s.rd bLNK (LNK_POSOFF p))).natAbs then (s.followP p).bad + 1 else 0 := by
    rw [if_pos hd]
    omega
  have h : ∃ x, s.wiredFrame p cnt sample = ((((s.setFollow p x).wr bLNK LNK_POSCFG_ALIGNED
      (without (s.rd bLNK LNK_POSCFG_ALIGNED) p)).raise 0x0502 bLNK p).stage7 p (4 * p + 3)) :=
    ⟨_, (if_neg (by simp [hal])).trans (if_pos hb)⟩
  obtain ⟨x, h⟩ := h
  rw [h, State.rd_of_lnkView (by decide) (by decide) ((State.stage7_lnkView ..).trans (State.raise_lnkView ..)),
    State.rd_wr_same _ _ _ _ (by decide), bit_mod_two_pow, bit_without, ite_self]

end Commands

/-- Settles O47: each command is read at a received frame or at its moment, and what it does beside its own step leaves the unit of Traif Link. -/
theorem membershipClockTimeAndPosition : Obligations.MembershipClockTimeAndPosition := by
  refine ⟨?heard, ?heardAgain, ?members, ?lost, ?notLost, ?lost0, ?lock, ?nextLane, ?noLane, ?time, ?timeSend, ?timeNotDue, ?posNotDue, ?posSend,
    ?follow, ?align, ?unalign, ?snapGo, ?snapFrame, ?snapshot, ?late, ?subverdict⟩
  case heard =>
    intro s τ a src hp h0 hs hj
    refine ⟨_, congrArg Host.Outcome.next (State.onFrame_up hp), ?_⟩
    dsimp only
    rw [if_pos (by simpa using h0)]
    have h := State.takeIn_joins (s := (s.at τ).rxFrame a ((s.at τ).forMe frHEARTBEAT src src [])) hs (by simpa using hj)
    simpa using h
  case heardAgain =>
    intro s τ a src hp hj
    refine congrArg Host.Outcome.next ((State.onFrame_up hp).trans ?_)
    simp only [State.forMe, State.at_modulePos, State.rxFrame_modulePos]
    split
    next h => exact if_pos (by simpa using hj h)
    · rfl
  case members =>
    intro s τ a j v hp h0 hg
    refine ⟨_, congrArg Host.Outcome.next (State.onFrame_up hp), ?_⟩
    dsimp only
    rw [if_neg (by simpa using h0)]
    simp [hg, State.dropModules_nil, h0]
  case lost =>
    intro s τ m hl h0 hm _ hj hh he
    obtain ⟨x, hx, hc⟩ := exec_moduleLost hl h0 hm hj hh
    replace hx : x.exch = [] := hx.trans he
    refine ⟨_, hc, State.joined_of_without (n := (s.at τ).rd bLNK LNK_MEMBERS_JOINED) ?_,
      State.serves_of_without (n := (s.at τ).rd bLNK LNK_MEMBERS_IN) ?_, ?_⟩
    · rw [State.dropModules_rd hx (by decide) (by decide), State.setLnk_rd, State.expel_joined]
    · rw [State.dropModules_rd hx (by decide) (by decide), State.setLnk_rd, State.expel_in]
    · rw [State.dropModules_memberLost hx, State.setLnk_cnt, State.expel_memberLost, State.at_cnt]
  case notLost =>
    intro s τ m hh
    exact congrArg Host.Outcome.next (if_neg (by simp [hh]))
  case lost0 =>
    intro s τ hl h0 hj hh
    refine ⟨_, congrArg Host.Outcome.next (if_pos (by simp [hl, h0, hj, hh])), ?_⟩
    obtain ⟨hs, hj, hv, -⟩ := (s.at τ).leaveService_out
    exact ⟨hs, by simpa using hj, by simpa using hv⟩
  case lock =>
    intro s τ hc hn
    refine ⟨_, congrArg Host.Outcome.next (if_pos (by simp [hc, hn])), ?_⟩
    simp
  case nextLane =>
    intro s τ k j hk hj
    refine ⟨(s.at τ).setLnk { (s.at τ).lnk with clkLane := some j }, ?_, rfl, by simp [State.inService]⟩
    show Host.Outcome.next _ = _
    simp [hk, hj]
  case noLane =>
    intro s τ k hk hj
    refine ⟨((s.at τ).setLnk { (s.at τ).lnk with clkLane := none }).leaveService, ?_, ?_⟩
    · show Host.Outcome.next _ = _
      simp [hk, hj]
    · obtain ⟨hs, -, -, hc⟩ := ((s.at τ).setLnk { (s.at τ).lnk with clkLane := none }).leaveService_out
      exact ⟨hc, hs⟩
  case time =>
    intro s τ a value trips hp h0 hj
    refine ⟨_, congrArg Host.Outcome.next (State.onFrame_up hp), ?_⟩
    dsimp only
    rw [if_neg (by simp [h0, hj])]
    simp only [State.restartHold, State.moveTime, State.wr_tb, State.setTb_tb, State.wr_now, State.setTb_now]
    refine ⟨by rw [tbWrap, tbSecUnit], trivial, ?_, ?_, State.rd_wr_same _ _ _ _ (by decide)⟩
    · rw [State.rd_wr_ne _ _ _ _ _ _ (by decide), State.setTb_rd, State.rd_wr_ne _ _ _ _ _ _ (by decide)]
      exact State.rd_wr_same _ _ _ _ (by decide)
    · rw [State.rd_wr_ne _ _ _ _ _ _ (by decide), State.setTb_rd]
      exact State.rd_wr_same _ _ _ _ (by decide)
  case timeSend =>
    intro s τ hl h0 hd
    refine congrArg Host.Outcome.next ((if_pos (by simp [hl, h0, hd])).trans ?_)
    rw [State.frame_of_module0 (by simpa using h0)]
    rfl
  case timeNotDue =>
    intro s τ hd
    exact congrArg Host.Outcome.next (if_neg (by simp [hd]))
  case posNotDue =>
    intro s τ hd
    exact congrArg Host.Outcome.next (if_neg (by simp [hd]))
  case posSend =>
    intro s τ v u hl h0 hd hv hu
    refine congrArg Host.Outcome.next ((if_pos (by simp [hl, h0, hd])).trans ?_)
    obtain ⟨hv0, hvOn⟩ : v.modulePos = 0 ∧ ∀ b, v.isOn b = s.isOn b := by
      rw [← hv]
      simpa [State.isOn] using h0
    obtain ⟨hu0, huOn⟩ : u.modulePos = 0 ∧ ∀ b, u.isOn b = s.isOn b := by
      rw [← hu]
      split
      · simpa [State.isOn, State.fsm] using And.intro hv0 hvOn
      · exact ⟨hv0, hvOn⟩
    simp only [List.foldl_cons, List.foldl_nil, hv, hvOn, State.frame_of_module0 hv0]
    rw [show frPOSITION = 0x30 from rfl, show toAll = 0xFF from rfl, hu, huOn, State.frame_of_module0 hu0]
  case follow =>
    intro s τ a p cnt spd sample hp h0 hp2 hf
    refine ⟨_, congrArg Host.Outcome.next (State.onFrame_up hp), ?_⟩
    have hf' (r : State) (x : Follow) : (((r.noteReached p).setFollow p x).noteReached p).followP p = x := Store.get_put_same
    dsimp only
    rw [if_neg (by simp [h0]; omega), if_pos (by simpa using hf), hf']
    exact ⟨rfl, rfl, rfl⟩
  case align =>
    intro s τ a p cnt spd sample hp h0 hp2 hf hal hseen hgood hd
    refine ⟨_, congrArg Host.Outcome.next (State.onFrame_up hp), ?_⟩
    dsimp only
    rw [if_neg (by simp [h0]; omega), if_neg (by simp [hf])]
    have h := State.wiredFrame_aligns (s := (s.at τ).rxFrame a (bcast frPOSITION 0 p [cnt, spd, sample])) hp2 (by simpa using hal)
      (by simpa using hseen) (by simpa using hgood) ((State.rxFrame_wiredDiff ..).trans (hd.trans (by simp)))
    simpa using h
  case unalign =>
    intro s τ a p cnt spd sample hp h0 hp2 hf hal hbad hd
    refine ⟨_, congrArg Host.Outcome.next (State.onFrame_up hp), ?_⟩
    dsimp only
    rw [if_neg (by simp [h0]; omega), if_neg (by simp [hf])]
    refine State.wiredFrame_unaligns (by simpa using hal) (by simpa using hbad) ?_
    rw [State.rxFrame_wiredDiff, State.rxFrame_rd, State.at_rd]
    exact hd
  case snapGo =>
    intro s τ i v ha hv hl h0
    refine ⟨_, congrArg Host.Outcome.next ((if_neg (by simp [ha])).trans (if_pos (by simp [hv, hl, h0]))), ?_⟩
    simp [State.rdS64, State.rd64]
  case snapFrame =>
    intro s τ a p pos hp
    refine ⟨_, congrArg Host.Outcome.next (State.onFrame_up hp), ?_⟩
    cases hi : s.inService <;> simp [hi]
  case snapshot =>
    intro s τ p x hs hx hi
    show Host.Outcome.next _ = _
    simp [hs, hx, hi, State.setLnk]
  case late =>
    intro s τ a src part p c verdict degraded hp hs
    refine ⟨_, congrArg Host.Outcome.next (State.onFrame_up hp), ?_⟩
    simp only [State.inc_slotOfPart, State.rxFrame_slotOfPart, State.at_slotOfPart, hs, if_true]
    refine ⟨?_, ?_, by simp⟩
    · rw [State.cnt_inc_ne (by decide), State.cnt_inc, State.rxFrame_cnt rfl (by decide), State.at_cnt]
    · rw [State.cnt_inc, State.cnt_inc_ne (by decide), State.rxFrame_cnt rfl (by decide), State.at_cnt]
  case subverdict =>
    intro s τ a src part p c verdict k degraded x m hp hs hm hc
    refine congrArg Host.Outcome.next ((State.onFrame_up hp).trans ?_)
    simp only [State.forMe, State.at_modulePos, State.inc_slotOfPart, State.inc_mergeAt, State.rxFrame_slotOfPart, State.at_slotOfPart, hs,
      State.rxFrame_mergeAt, State.at_mergeAt, hm, hc]
    rfl

end Sys2Proof.Machine
end

section
/-!
PROOFS. The module's connectors: the end of a reset, the identity memory and the swap record, the PMBus sideband, and the supplies of the field
side and of the cameras.
-/

namespace Sys2Proof.Machine

/-! ### Writes in other blocks and registers -/

section Registers
variable {s : State} {b c n : Nat} {f g : Fld}

/-- A write in one block leaves the fields of every other. -/
theorem State.rd_wr_block (h : b ≠ c) (hf : f.off < 1048576 ∧ f.lo < 32) (hg : g.off < 1048576 ∧ g.lo < 32) :
    (s.wr b f n).rd c g = s.rd c g :=
  State.rd_wr_ne _ _ _ _ _ _ fun he => h <| by rw [← fkey_block (b := b) hf.1 hf.2, he, fkey_block hg.1 hg.2]

/-- A write in a register leaves the others of its block. -/
theorem State.rd_wr_off (h : f.off ≠ g.off) (hf : f.lo < 32) (hg : g.lo < 32) : (s.wr b f n).rd b g = s.rd b g :=
  State.rd_wr_ne _ _ _ _ _ _ (by unfold fkey; omega)

/-- A change of state leaves what lies past a block's common registers. -/
theorem State.setFsm_rd (h : 0x14 ≤ g.off ∧ g.off < 1048576 ∧ g.lo < 32) : (s.setFsm b n).rd c g = s.rd c g :=
  State.rd_wr_ne _ _ _ _ _ _ (by simp only [fkey, COM_STATE_FSM]; omega)

/-- A write of `ENABLE` leaves what lies past a block's common registers. -/
theorem State.wr_enable_rd (h : 0x14 ≤ g.off ∧ g.off < 1048576 ∧ g.lo < 32) : (s.wr b COM_CTRL_ENABLE n).rd c g = s.rd c g :=
  State.rd_wr_ne _ _ _ _ _ _ (by simp only [fkey, COM_CTRL_ENABLE]; omega)

/-- A write of a field that is apart leaves the states of the functions. -/
theorem State.wr_fsm (h : f.apart false = true) : (s.wr b f n).fsm c = s.fsm c := State.fsm_of_ctl (congrFun (put_ctl h) c)

end Registers

/-! ### What an event leaves -/

/-- The registers and counters of the blocks past the DRAM's, and the insides of the field side and of the reset and boot side: no write to
memory and no event reaches them. -/
def State.beside (s : State) : (Word → Nat → Word) × (Nat → Word) × Field × Sys :=
  (fun d k => Store.get d s.regs (bSCH * 33554432 + k), fun k => Store.get 0#32 s.live (bSCH * 33554432 + k), s.field, s.sys)

section Beside
variable {s t : State} {b n : Nat} {f : Fld}

theorem fkey_beside (hb : bSCH ≤ b) (f : Fld) : fkey b f = bSCH * 33554432 + (fkey b f - bSCH * 33554432) := by
  unfold fkey
  omega

theorem State.rd_of_beside (hb : bSCH ≤ b) (h : t.beside = s.beside) : t.rd b f = s.rd b f := by
  have hr := congrFun (congrFun (congrArg Prod.fst h) (BitVec.ofNat 32 f.rst)) (fkey b f - bSCH * 33554432)
  unfold State.rd
  rw [fkey_beside hb f]
  exact congrArg BitVec.toNat hr

theorem State.cnt_of_beside (hb : bSCH ≤ b) (h : t.beside = s.beside) : t.cnt b f = s.cnt b f := by
  have hl := congrFun (congrArg (fun x => x.2.1) h) (fkey b f - bSCH * 33554432)
  unfold State.cnt
  rw [fkey_beside hb f]
  exact congrArg BitVec.toNat hl

theorem State.field_of_beside (h : t.beside = s.beside) : t.field = s.field := congrArg (fun x => x.2.2.1) h

theorem State.sys_of_beside (h : t.beside = s.beside) : t.sys = s.sys := congrArg (fun x => x.2.2.2) h

theorem State.wr_beside (h : fkey b f < bSCH * 33554432) : (s.wr b f n).beside = s.beside := by
  have hk (k : Nat) : fkey b f ≠ bSCH * 33554432 + k := by omega
  unfold State.beside
  simp only [State.wr_regs, Store.get_put_ne (hk _)]
  rfl

theorem State.inc_beside (h : fkey b f < bSCH * 33554432) : (s.inc b f n).beside = s.beside := by
  have hk (k : Nat) : fkey b f ≠ bSCH * 33554432 + k := by omega
  unfold State.beside State.inc State.setCnt
  simp only [Store.get_put_ne (hk _)]

theorem beside_foldl_mem {α : Type} {g : State → α → State} {l : List α} (h : ∀ s, ∀ x ∈ l, (g s x).beside = s.beside) :
    (l.foldl g s).beside = s.beside := foldl_keeps State.beside h

theorem State.touch_beside (u : Nat) (wr : Bool) : (s.touch u wr).beside = s.beside := by
  unfold State.touch
  dsimp only
  split
  · rfl
  · split <;> rfl

theorem State.inject_beside (a n : Nat) : (s.inject a n).beside = s.beside := by
  have h : (s.wr bMEM4 MEM4_INJ_ARM 0).beside = s.beside := State.wr_beside (by decide)
  unfold State.inject
  split
  · exact h
  · exact h
  · rfl

theorem State.write_beside (a : Nat) (bs : List Nat) : (s.write a bs).beside = s.beside :=
  (State.inject_beside _ _).trans (beside_foldl_mem fun _ _ _ => State.touch_beside _ _)

theorem State.mergeQuiet_beside (u : Nat) : (s.mergeQuiet u).beside = s.beside := by
  unfold State.mergeQuiet
  split
  · rfl
  · dsimp only
    split <;> rfl

theorem State.writeQuiet_beside (a : Nat) (bs : List Nat) : (s.writeQuiet a bs).beside = s.beside :=
  (State.write_beside _ _).trans (beside_foldl_mem fun _ _ _ => State.mergeQuiet_beside _)

theorem State.writeEdge_beside (q w first : Nat) (l : List (Nat × List Nat)) : (s.writeEdge q w first l).beside = s.beside :=
  beside_foldl_mem fun _ _ _ => State.writeQuiet_beside _ _

theorem State.offer_beside {q : Nat} (h : q < 4) (code flags blk status : Nat) (args : List Nat) :
    (s.offer q code flags blk status args).beside = s.beside := by
  have lost (t : State) : (t.inc bEVQ (EVQ_CNT_LOST q)).beside = t.beside :=
    State.inc_beside (by simp only [fkey, bEVQ, bSCH, EVQ_CNT_LOST]; omega)
  have moved (t : State) (n : Nat) : (t.wr bEVQ (EVQ_Q_WR q) n).beside = t.beside :=
    State.wr_beside (by simp only [fkey, bEVQ, bSCH, EVQ_Q_WR]; omega)
  have queued (x : Store EvQueue) : ({ s with evqSeq := x } : State).beside = s.beside := rfl
  unfold State.offer
  split
  · dsimp only
    split
    · rw [lost, queued]
    · split
      · rw [lost, State.writeEdge_beside, queued]
      · rw [moved, State.writeEdge_beside, queued]
  · rfl

theorem State.raise_beside (code blk a1 a2 a3 status : Nat) : (s.raise code blk a1 a2 a3 status).beside = s.beside := by
  unfold State.raise State.raiseRaw
  rw [beside_foldl_mem fun _ _ hq => State.offer_beside (List.mem_range.1 hq) .., State.inc_beside (by decide)]

end Beside

/-! ### The end of a reset (R67-R71, R201) -/

section ResetEnd
variable {s : State}

/-- The functions that a list names enter a state with `ENABLE` 1, as they do at the end of a reset. -/
def State.enterAll (s : State) (v : Nat) (l : List Nat) : State := l.foldl (fun s b => (s.setFsm b v).wr b COM_CTRL_ENABLE 1) s

theorem State.enterAll_fsm (v : Nat) (l : List Nat) (b : Nat) : (s.enterAll v l).fsm b = if b ∈ l then v % 8 else s.fsm b := by
  induction l generalizing s with
  | nil => rfl
  | cons c l ih =>
    have hc : ((s.setFsm c v).wr c COM_CTRL_ENABLE 1).fsm b = if b = c then v % 8 else s.fsm b := by
      rw [State.wr_fsm rfl]
      split
      next h => rw [h, State.fsm_setFsm]
      next h => exact State.fsm_of_ctl (State.setFsm_ctl_other (e := false) (Ne.symm h))
    refine (ih (s := (s.setFsm c v).wr c COM_CTRL_ENABLE 1)).trans ?_
    rw [hc]
    by_cases h : b ∈ l <;> simp [h]

theorem State.enterAll_sys (v : Nat) (l : List Nat) : (s.enterAll v l).sys = s.sys := foldl_keeps State.sys fun _ _ _ => rfl

theorem State.enterAll_rd {g : Fld} (v : Nat) (l : List Nat) (c : Nat) (hg : 0x14 ≤ g.off ∧ g.off < 1048576 ∧ g.lo < 32) :
    (s.enterAll v l).rd c g = s.rd c g :=
  foldl_keeps (fun s : State => s.rd c g) fun _ _ _ => (State.wr_enable_rd hg).trans (State.setFsm_rd hg)

/-- The domains that a list names come on. -/
def State.powerAll (s : State) (l : List Nat) : State := l.foldl (fun s n => s.setPstate n 2) s

theorem State.powerAll_fsm (b : Nat) : (s.powerAll resetDoms).fsm b = s.fsm b :=
  State.fsm_of_ctl (e := false) (congrFun (ctl_foldl_mem fun _ n hn => State.setPstate_ctl (by revert n; decide)) b)

theorem State.powerAll_sys (l : List Nat) : (s.powerAll l).sys = s.sys := foldl_keeps State.sys fun _ _ _ => rfl

theorem State.powerAll_rd {g : Fld} (hg : g.off < 1048576 ∧ g.lo < 32) : (s.powerAll resetDoms).rd bRST g = s.rd bRST g :=
  foldl_keeps (fun s : State => s.rd bRST g) fun _ n hn => State.rd_wr_block (by decide) (by revert n; decide) hg

theorem State.resetRoles_ctl : ctl false s.resetRoles.regs = ctl false s.regs := by
  simp [State.resetRoles, show CLU_CTRL_ROLE.apart false = true from rfl, show SCH_SUBST_OK_LO.apart false = true from rfl,
    show SCH_SUBST_OK_HI.apart false = true from rfl]

theorem State.resetRoles_sys : s.resetRoles.sys = s.sys := by
  simp only [State.resetRoles, State.wr64, State.wr_sys]
  exact foldl_keeps State.sys fun _ _ _ => rfl

/-- The factory assignment leaves the blocks that are neither clusters nor the scheduler. -/
theorem State.resetRoles_rd {b : Nat} {g : Fld} (hb : b < bSCH) (hg : g.off < 1048576 ∧ g.lo < 32) : s.resetRoles.rd b g = s.rd b g := by
  have hs : bSCH ≠ b := by omega
  unfold State.resetRoles State.wr64
  dsimp only
  rw [State.rd_wr_block hs (by decide) hg, State.rd_wr_block hs (by decide) hg]
  refine foldl_keeps (fun s : State => s.rd b g) fun s k _ => State.rd_wr_block ?_ (by decide) hg
  simp only [bCLU, bSCH] at *
  omega

/-- The end of a reset in its steps. -/
theorem State.resetBlocks_eq (s : State) : s.resetBlocks =
    ((((((s.enterAll fON resetOn).enterAll fSTARTING [8, 9, 10, 11]).enterAll fSTARTING [bMEM4]).powerAll resetDoms).wr bFIO FIO_STAT_UV 1).wr
      bFIO FIO_STAT_FAULT 1).resetRoles := rfl

/-- The states of the functions at the end of a reset (R71, R201; `MEM4` by log entry 11). -/
theorem State.resetBlocks_fsm (b : Nat) : s.resetBlocks.fsm b =
    if b ∈ [bMEM4] then fSTARTING else if b ∈ [8, 9, 10, 11] then fSTARTING else if b ∈ resetOn then fON else s.fsm b := by
  rw [State.resetBlocks_eq, State.fsm_of_ctl (congrFun State.resetRoles_ctl b), State.wr_fsm rfl, State.wr_fsm rfl, State.powerAll_fsm,
    State.enterAll_fsm, State.enterAll_fsm, State.enterAll_fsm]
  rfl

theorem State.resetBlocks_sys : s.resetBlocks.sys = s.sys := by
  rw [State.resetBlocks_eq, State.resetRoles_sys, State.wr_sys, State.wr_sys, State.powerAll_sys, State.enterAll_sys, State.enterAll_sys,
    State.enterAll_sys]

/-- The end of a reset leaves the reset controller's own registers. -/
theorem State.resetBlocks_rd {g : Fld} (hg : 0x14 ≤ g.off ∧ g.off < 1048576 ∧ g.lo < 32) : s.resetBlocks.rd bRST g = s.rd bRST g := by
  rw [State.resetBlocks_eq, State.resetRoles_rd (by decide) hg.2, State.rd_wr_block (by decide) (by decide) hg.2,
    State.rd_wr_block (by decide) (by decide) hg.2, State.powerAll_rd hg.2, State.enterAll_rd _ _ _ hg, State.enterAll_rd _ _ _ hg,
    State.enterAll_rd _ _ _ hg]

/-- The swap record's step at a reset writes the record and one flag (R89). -/
theorem State.swapAtReset_cases (s : State) : ∃ st bank, (s.swapAtReset = s.setSys { s.sys with swapState := st, bank := bank } ∨
    s.swapAtReset = (s.setSys { s.sys with swapState := st, bank := bank }).wr bRST RST_BOOT_STATUS_REVERTED 1) := by
  unfold State.swapAtReset
  dsimp only
  split
  · exact ⟨_, _, .inl rfl⟩
  · split
    · exact ⟨_, _, .inr rfl⟩
    · exact ⟨s.sys.swapState, _, .inl rfl⟩

/-- The swap record, shown, leaves the states and the registers at other offsets. -/
theorem State.showSwap_frame (s : State) : (∀ b, s.showSwap.fsm b = s.fsm b) ∧
    ∀ g : Fld, g.off ≠ 0x11C → g.lo < 32 → s.showSwap.rd bRST g = s.rd bRST g :=
  ⟨fun _ => (State.wr_fsm rfl).trans (State.wr_fsm rfl),
    fun _ ho hl => (State.rd_wr_off ho.symm (by decide) hl).trans (State.rd_wr_off ho.symm (by decide) hl)⟩

theorem State.showSwap_sys (s : State) : s.showSwap.sys = s.sys := rfl

/-- The swap record's step at a reset leaves the time base, the states and the registers beside `RST_BOOT_STATUS`. -/
theorem State.swapAtReset_frame (s : State) : s.swapAtReset.sys.inReset = s.sys.inReset ∧ s.swapAtReset.tb = s.tb ∧
    (∀ b, s.swapAtReset.fsm b = s.fsm b) ∧ ∀ g : Fld, g.off ≠ 0x110 → g.lo < 32 → s.swapAtReset.rd bRST g = s.rd bRST g := by
  obtain ⟨st, bank, h | h⟩ := s.swapAtReset_cases <;> rw [h]
  · exact ⟨rfl, rfl, fun _ => rfl, fun _ _ _ => rfl⟩
  · exact ⟨rfl, rfl, fun _ => State.wr_fsm rfl,
      fun _ ho hl => State.rd_wr_off ho.symm (by decide) hl⟩

/-- The straps as the end of a reset samples them, where a source asks for it (R63). -/
def State.sampled (s : State) (straps : Nat) : State :=
  if s.sys.sample then (s.wr bRST RST_STRAPS_CLK_SEL (bits straps 2 2)).wr bRST RST_STRAPS_BOOT_SEL (bits straps 0 2) else s

theorem State.sampled_boot (s : State) (straps : Nat) : (s.sampled straps).rd bRST RST_STRAPS_BOOT_SEL =
    if s.sys.sample then bits straps 0 2 else s.rd bRST RST_STRAPS_BOOT_SEL := by
  unfold State.sampled
  split
  · rw [State.rd_wr_same _ _ _ _ (by decide)]
    exact Nat.mod_eq_of_lt (bits_lt ..)
  · rfl

theorem State.sampled_clk (s : State) (straps : Nat) : (s.sampled straps).rd bRST RST_STRAPS_CLK_SEL =
    if s.sys.sample then bits straps 2 2 else s.rd bRST RST_STRAPS_CLK_SEL := by
  unfold State.sampled
  split
  · rw [State.rd_wr_ne _ _ _ _ _ _ (by decide), State.rd_wr_same _ _ _ _ (by decide)]
    exact Nat.mod_eq_of_lt (bits_lt ..)
  · rfl

/-- The state at the end of a reset (R67): the body of `execSystemResetEnd`. -/
def State.resetEnd (s : State) (straps : Nat) : State :=
  ((((s.sampled straps).setSys { (s.sampled straps).sys with inReset := false, sample := false }).resetBlocks.setTb {}).swapAtReset).showSwap

theorem exec_systemResetEnd {τ straps : Nat} (hr : s.sys.inReset = true) (hs : s.sys.sources = [])
    (hd : s.sys.srcEnd + 100000 ≤ (s.at τ).now) : exec (.systemResetEnd τ straps) s = .next ((s.at τ).resetEnd straps) :=
  congrArg Host.Outcome.next (if_pos (by simp [hr, hs, hd]))

theorem State.sampled_fsm (s : State) (straps b : Nat) : (s.sampled straps).fsm b = s.fsm b := by
  unfold State.sampled
  split
  · exact (State.wr_fsm rfl).trans (State.wr_fsm rfl)
  · rfl

/-- What the end of a reset leaves: the time base restarts, and beside the states given by `resetBlocks` the straps are those sampled. -/
theorem State.resetEnd_spec (s : State) (straps : Nat) : (s.resetEnd straps).sys.inReset = false ∧ (s.resetEnd straps).tb = {} ∧
    (∀ b, (s.resetEnd straps).fsm b =
      if b ∈ [bMEM4] then fSTARTING else if b ∈ [8, 9, 10, 11] then fSTARTING else if b ∈ resetOn then fON else s.fsm b) ∧
    ∀ g : Fld, g.off = 0x118 → g.lo < 32 → (s.resetEnd straps).rd bRST g = (s.sampled straps).rd bRST g := by
  unfold State.resetEnd
  generalize hu : (s.sampled straps).setSys { (s.sampled straps).sys with inReset := false, sample := false } = u
  obtain ⟨shownFsm, shownRd⟩ := (u.resetBlocks.setTb {}).swapAtReset.showSwap_frame
  obtain ⟨swapIn, swapTb, swapFsm, swapRd⟩ := (u.resetBlocks.setTb {}).swapAtReset_frame
  refine ⟨?_, swapTb.trans (State.setTb_tb ..), fun b => ?_, fun g ho hl => ?_⟩
  · rw [State.showSwap_sys, swapIn, State.setTb_sys, State.resetBlocks_sys, ← hu]
    rfl
  · rw [shownFsm, swapFsm, ← State.sampled_fsm s straps, State.fsm, State.setTb_rd]
    refine (State.resetBlocks_fsm b).trans ?_
    rw [← hu]
    rfl
  · rw [shownRd g (by omega) hl, swapRd g (by omega) hl, State.setTb_rd, State.resetBlocks_rd (by omega), ← hu]
    rfl

/-- A standing source that ends is removed, and the tail of the reset begins (R67). -/
theorem State.endSource_standing {src : Nat} (hr : s.sys.inReset = true) (hs : s.sys.sources.contains src = true) (τ : Nat) :
    (s.at τ).endSource src = (s.at τ).setSys { s.sys with sources := s.sys.sources.filter (· != src), srcEnd := (s.at τ).now } := by
  rw [State.endSource, State.at_sys, if_pos (by rw [hr, hs]; rfl)]

end ResetEnd

/-- Settles O7: a standing source ends by `endSource`; with none left, `resetEnd_spec` says what the end of the reset leaves. -/
theorem resetEndsAfterItsSources : Obligations.ResetEndsAfterItsSources := by
  refine ⟨?brownOut, ?pin, ?thermal, ?ends⟩
  case brownOut => exact fun s τ hr hs => congrArg Host.Outcome.next (State.endSource_standing hr hs τ)
  case pin => exact fun s τ hr hs => congrArg Host.Outcome.next (State.endSource_standing hr hs τ)
  case thermal => exact fun s τ hr hs => congrArg Host.Outcome.next (State.endSource_standing hr hs τ)
  case ends =>
    intro s τ straps hr hs hd
    obtain ⟨hin, htb, hfsm, hrd⟩ := (s.at τ).resetEnd_spec straps
    refine ⟨_, exec_systemResetEnd hr hs hd, hin, htb, hfsm _, hfsm _, hfsm _, hfsm _, hfsm _, hfsm _, hfsm _, hfsm _, hfsm _, hfsm _, ?_, ?_⟩
    · rw [hrd _ rfl (by decide), State.sampled_boot, State.at_sys, State.at_rd]
    · rw [hrd _ rfl (by decide), State.sampled_clk, State.at_sys, State.at_rd]

/-! ### The identity memory (R59-R61) -/

section Identity
variable {s t : State}

/-- Where the read of the identity memory stands, and the copy in use. -/
def State.idView (s : State) : Bool × Bool × Option (List Nat) × Nat :=
  (s.sys.idReading, s.sys.idDone, s.sys.idUse, s.rd bRST RST_BOOT_STATUS_ID_COPY)

theorem State.idView_eq (hs : t.sys.idReading = s.sys.idReading ∧ t.sys.idDone = s.sys.idDone ∧ t.sys.idUse = s.sys.idUse)
    (hr : t.rd bRST RST_BOOT_STATUS_ID_COPY = s.rd bRST RST_BOOT_STATUS_ID_COPY) : t.idView = s.idView := by
  obtain ⟨h1, h2, h3⟩ := hs
  rw [State.idView, h1, h2, h3, hr, State.idView]

/-- A register outside the reset controller is none of the view's. -/
theorem State.wr_idView {b n : Nat} {f : Fld} (hb : b ≠ bRST) (hf : f.off < 1048576 ∧ f.lo < 32) : (s.wr b f n).idView = s.idView :=
  State.idView_eq ⟨rfl, rfl, rfl⟩ (State.rd_wr_block hb hf (by decide))

theorem State.takePosition_idView (b : List Nat) : (s.takePosition b).idView = s.idView := by
  have lnk (t : State) (f : Fld) (n : Nat) (hf : f.off < 1048576 ∧ f.lo < 32) : (t.wr bLNK f n).idView = t.idView :=
    State.wr_idView (by decide) hf
  rw [State.takePosition, lnk _ _ _ (by decide), lnk _ _ _ (by decide), lnk _ _ _ (by decide), lnk _ _ _ (by decide)]

theorem State.takeDist0_idView (b : List Nat) : (s.takeDist0 b).idView = s.idView := by
  have delay (t : State) (v : Nat) : (t.facSet (EJT_CLS_DELAY 1) v).idView = t.idView := by
    have h : (t.wr (bEJT 0) (EJT_CLS_DELAY 1) v).idView = t.idView := State.wr_idView (by decide) (by decide)
    exact h
  unfold State.takeDist0
  split
  · dsimp only
    split
    · rw [delay]
      rfl
    · rfl
  · rfl

theorem State.takeCalib_idView (b : List Nat) {n : Nat} (hn : n < 8) : (s.takeCalib b n).idView = s.idView := by
  have put (t : State) (f : Fld) (v : Nat) (hf : f.off < 1048576 ∧ f.lo < 32) : ((t.wr bCLM f v).wrAct bCLM f v).idView = t.idView := by
    have h : (t.wr bCLM f v).idView = t.idView := State.wr_idView (by decide) hf
    exact h
  unfold State.takeCalib
  dsimp only
  split
  · rfl
  · refine (foldl_keeps State.idView fun t j hj => put t _ _ ?_).trans (foldl_keeps State.idView fun t j hj => put t _ _ ?_)
    · have := List.mem_range.1 hj
      simp only [CLM_BLK_BLACK]
      omega
    · have := List.mem_range.1 hj
      simp only [CLM_MAT_COEF]
      omega

theorem State.takeRecord_idView (b : List Nat) : (s.takeRecord b).idView = s.idView :=
  (foldl_keeps State.idView fun _ _ hn => State.takeCalib_idView b (List.mem_range.1 hn)).trans
    ((State.takeDist0_idView b).trans (State.takePosition_idView b))

/-- The end of the read: the copy that R59 chooses comes into use, and its record is taken over. -/
def State.takeCopies (s : State) (c0 c1 : List Nat) : State :=
  let c := idChoice c0 c1
  let u := if c = 1 then some c0 else if c = 2 then some c1 else none
  let s := (s.setSys { s.sys with idReading := false, idDone := true, idUse := u }).wr bRST RST_BOOT_STATUS_ID_COPY c
  match u with
  | some b => s.takeRecord b
  | none => s

theorem idChoice_lt (c0 c1 : List Nat) : idChoice c0 c1 < 4 := by
  unfold idChoice
  repeat' split
  all_goals decide

theorem State.takeCopies_idView (c0 c1 : List Nat) : (s.takeCopies c0 c1).idView =
    (false, true, if idChoice c0 c1 = 1 then some c0 else if idChoice c0 c1 = 2 then some c1 else none, idChoice c0 c1) := by
  have copy (t : State) : (t.wr bRST RST_BOOT_STATUS_ID_COPY (idChoice c0 c1)).rd bRST RST_BOOT_STATUS_ID_COPY = idChoice c0 c1 :=
    (State.rd_wr_same _ _ _ _ (by decide)).trans (Nat.mod_eq_of_lt (idChoice_lt c0 c1))
  have base (u : Option (List Nat)) :
      ((s.setSys { s.sys with idReading := false, idDone := true, idUse := u }).wr bRST RST_BOOT_STATUS_ID_COPY (idChoice c0 c1)).idView =
        (false, true, u, idChoice c0 c1) := by
    rw [State.idView, copy]
    rfl
  unfold State.takeCopies
  dsimp only
  split
  · rw [State.takeRecord_idView, base]
  · rw [base]

theorem exec_idMemoryReadDone {τ : Nat} {c0 c1 : List Nat} (h : s.sys.idReading = true) :
    exec (.idMemoryReadDone τ c0 c1) s = .next ((s.at τ).takeCopies c0 c1) :=
  congrArg Host.Outcome.next (if_neg (by simp [h]))

theorem State.mark_idRetries (s : State) (τ : Nat) : ((s.at τ).mark perRetry).sys.idRetries = s.sys.idRetries := by
  have h : (s.at τ).sys.idRetries = s.sys.idRetries := congrArg Sys.idRetries (State.at_sys s τ)
  exact h

/-- The start of a further write leaves the copy in use. -/
theorem State.idStart_frame (s : State) : s.idStart.sys.idUse = s.sys.idUse ∧ ∀ b f, s.idStart.rd b f = s.rd b f := by
  unfold State.idStart
  split
  · exact ⟨rfl, fun _ _ => rfl⟩
  · exact ⟨rfl, fun _ _ => rfl⟩

theorem exec_idRecordWriteDone {τ k : Nat} {b : List Nat} (h : s.sys.idWriting = some (k, b)) : exec (.idRecordWriteDone τ) s =
    .next (((s.at τ).setSys { s.sys with idWriting := none, idUse := some b }).wr bRST RST_BOOT_STATUS_ID_COPY (k + 1)).idStart := by
  show Host.Outcome.next _ = _
  simp only [State.at_sys, h]

end Identity

/-! ### The swap record (R88-R92) -/

section Swap
variable {s t : State} {i v : Nat}

@[simp] theorem State.at_activeBank (s : State) (τ : Nat) : (s.at τ).activeBank = s.activeBank := by simp [State.activeBank]

theorem State.setSwap_state (s : State) (st : Nat) (act : Option Nat) : (s.setSwap st act).rd bRST RST_SWAP_CTRL_SWAP_STATE = st % 4 :=
  (State.rd_wr_ne _ _ _ _ _ _ (by decide)).trans (State.rd_wr_same _ _ _ _ (by decide))

/-- The bank that the record names is shown as the active one. -/
theorem State.setSwap_active (s : State) (st bank : Nat) :
    (s.setSwap st (some bank)).rd bRST RST_SWAP_CTRL_ACTIVE_BANK = bank % 2 :=
  State.rd_wr_same _ _ _ _ (by decide)

section Request
variable (ha : s.regAllowed i true bRST 0x11C = true) (hk : bits v 16 16 = 0xA5C3) (h6 : bit v 6 = 0)
include ha hk h6

/-- A permitted request with the key makes its steps in the order of entry 29. -/
theorem State.swapCtrl_keyed (τ : Nat) : (s.at τ).swapCtrl i v =
    let s1 := if bit v 0 = 1 then (s.at τ).swapCancel else s.at τ
    let s2 := if bit v 1 = 1 then s1.swapTrial else s1
    if bit v 2 = 1 then s2.swapConfirm else s2 := by
  unfold State.swapCtrl
  simp [ha, hk, h6]

theorem exec_trial (τ : Nat) (h0 : bit v 0 = 0) (h1 : bit v 1 = 1) (h2 : bit v 2 = 0) :
    exec (.trial τ i v) s = .next (s.at τ).swapTrial :=
  congrArg Host.Outcome.next ((State.swapCtrl_keyed ha hk h6 τ).trans (by simp [h0, h1, h2]))

theorem exec_cancel (τ : Nat) (h0 : bit v 0 = 1) (h1 : bit v 1 = 0) (h2 : bit v 2 = 0) :
    exec (.cancel τ i v) s = .next (s.at τ).swapCancel :=
  congrArg Host.Outcome.next ((State.swapCtrl_keyed ha hk h6 τ).trans (by simp [h0, h1, h2]))

theorem exec_confirm (τ : Nat) (h0 : bit v 0 = 0) (h1 : bit v 1 = 0) (h2 : bit v 2 = 1) :
    exec (.confirm τ i v) s = .next (s.at τ).swapConfirm :=
  congrArg Host.Outcome.next ((State.swapCtrl_keyed ha hk h6 τ).trans (by simp [h0, h1, h2]))

end Request

/-- Three bits that read 0 together read 0 each. -/
theorem bit_of_bits_zero (h : bits v 0 3 = 0) : bit v 0 = 0 ∧ bit v 1 = 0 ∧ bit v 2 = 0 := by
  unfold bits at h
  unfold bit
  omega

/-- A write of 1 to `SWAP_REFUSED` with the wrong key or without a request clears it and does nothing else (R92). -/
theorem State.swapCtrl_clears (τ : Nat) (ha : s.regAllowed i true bRST 0x11C = true) (h6 : bit v 6 = 1)
    (h : bits v 16 16 ≠ 0xA5C3 ∨ bits v 0 3 = 0) : (s.at τ).swapCtrl i v = (s.at τ).wr bRST RST_SWAP_CTRL_SWAP_REFUSED 0 := by
  unfold State.swapCtrl
  rcases h with hk | h0
  · simp [ha, h6, hk]
  · obtain ⟨h0, h1, h2⟩ := bit_of_bits_zero h0
    simp [ha, h6, h0, h1, h2]

/-- The checks of a bank read the memory and the options alone. -/
theorem State.bankPasses_congr (hm : t.mem = s.mem) (ho : t.opt = s.opt) (k : Nat) : t.bankPasses k = s.bankPasses k := by
  have hb : t.bytes = s.bytes := by
    funext a n
    simp only [State.bytes, State.byte, hm]
  have hd : t.directory = s.directory := by
    funext base
    rw [State.directory, hb, State.directory]
  have hi : t.imageCode = s.imageCode := by
    funext base e
    rw [State.imageCode, hb, ho, State.imageCode]
  have hc : t.dirCode = s.dirCode := by
    unfold State.dirCode
    rw [hd]
  unfold State.bankPasses
  rw [hd, hi, hc]

theorem State.markBad_isBad (s : State) (k : Nat) : (s.markBad k).isBad k = true := by
  unfold State.markBad State.isBad
  split <;> rfl

theorem State.markBad_frame (s : State) (k : Nat) : (s.markBad k).sys.verifying = s.sys.verifying ∧
    (s.markBad k).sys.swapState = s.sys.swapState := by
  unfold State.markBad
  split <;> exact ⟨rfl, rfl⟩

theorem exec_trialVerifyDone (τ : Nat) (h : s.sys.verifying = true) : exec (.trialVerifyDone τ) s = .next
    (if s.bankPasses (1 - s.activeBank) then ((s.at τ).setSys { s.sys with verifying := false }).setSwap 1 s.sys.swapActive
     else ((s.at τ).setSys { s.sys with verifying := false }).markBad (1 - s.activeBank)) := by
  have hp := State.bankPasses_congr (s := s) (t := (s.at τ).setSys { s.sys with verifying := false }) (State.at_mem s τ) (State.at_opt s τ)
  refine congrArg Host.Outcome.next ((if_neg (by simp [h])).trans ?_)
  rw [State.at_activeBank, State.at_sys]
  dsimp only
  rw [hp]
  rfl

/-! ### Programming the flash (R89, R91, R496) -/

theorem State.inject_mem (a n : Nat) : (s.inject a n).mem = s.mem := by
  unfold State.inject
  split <;> rfl

/-- A write leaves exactly its bytes changed. -/
theorem State.write_mem (a : Nat) (bs : List Nat) : (s.write a bs).mem = memPuts s.mem a bs := State.inject_mem ..

theorem State.write_sys (a : Nat) (bs : List Nat) : (s.write a bs).sys = s.sys := State.sys_of_beside (State.write_beside a bs)

/-- A pending trial is withdrawn, any other record left (R89). -/
def State.withdrawTrial (s : State) : State := if s.sys.swapState = 1 then s.setSwap 0 s.sys.swapActive else s

theorem State.withdrawTrial_frame (s : State) : s.withdrawTrial.mem = s.mem ∧
    s.withdrawTrial.sys.swapState = if s.sys.swapState = 1 then 0 else s.sys.swapState := by
  unfold State.withdrawTrial
  split <;> exact ⟨rfl, rfl⟩

theorem bankOfOffset_lt {off : Nat} (h : off < 0xC000000) : bankOfOffset off ≠ 2 := by
  unfold bankOfOffset
  rw [if_pos h]
  split <;> decide

theorem exec_flashProgram {τ off : Nat} {data : List Nat} (hi : s.mgmtOrHost i = true) (hn : 1 ≤ data.length)
    (ho : off + data.length ≤ 0xC000000) (hf : bankOfOffset off ≠ s.activeBank) (hl : bankOfOffset (off + data.length - 1) ≠ s.activeBank) :
    exec (.flashProgram τ i off data) s = .next (((s.at τ).withdrawTrial.write (flashBase + off) data).answer 0 []) := by
  have h0 : ¬ 0x10000000 < off + data.length := by omega
  have h1 : ¬ touchesOptions off data.length = true := by
    simp only [touchesOptions, Bool.and_eq_true, decide_eq_true_eq]
    omega
  have h2 : ¬ (bankOfOffset off = 2 ∨ bankOfOffset (off + data.length - 1) = 2) :=
    not_or.2 ⟨bankOfOffset_lt (by omega), bankOfOffset_lt (by omega)⟩
  refine congrArg Host.Outcome.next <| (if_neg h0).trans <| (if_neg h1).trans <| (if_neg h2).trans <| (if_neg ?_).trans <| (if_neg ?_)
  · simp [hi]
  · simp [hf, hl]

end Swap

/-- Settles O9: the records taken over leave the copy in use; a request with one bit set is one of the three steps of R90; and a write to the flash
leaves the swap record. -/
theorem identityAndSwapRecords : Obligations.IdentityAndSwapRecords := by
  refine ⟨?read, ?retry, ?noAnswer, ?early, ?written, ?trial, ?trialRefused, ?cancel, ?cancelRefused, ?confirm, ?confirmRefused, ?clear,
    ?verified, ?program⟩
  case read =>
    intro s τ c0 c1 hr
    have hv : ((s.at τ).takeCopies c0 c1).idView = _ := State.takeCopies_idView c0 c1
    simp only [State.idView, Prod.mk.injEq] at hv
    obtain ⟨hreading, hdone, huse, hcopy⟩ := hv
    exact ⟨_, exec_idMemoryReadDone hr, hreading, hdone, hcopy, huse⟩
  case retry =>
    intro s τ hr hd hn
    have h := s.mark_idRetries τ
    refine congrArg Host.Outcome.next ((if_neg (by simp [hr, hd])).trans ((if_pos (h ▸ hn)).trans ?_))
    rw [h]
  case noAnswer =>
    intro s τ hr hd hn
    have h := s.mark_idRetries τ
    exact congrArg Host.Outcome.next ((if_neg (by simp [hr, hd])).trans (if_neg (by omega)))
  case early => exact fun s τ hd => congrArg Host.Outcome.next (if_pos (by simp [hd]))
  case written =>
    intro s τ k b hw hk
    refine ⟨_, exec_idRecordWriteDone hw, ?_⟩
    obtain ⟨huse, hrd⟩ := State.idStart_frame (((s.at τ).setSys { s.sys with idWriting := none, idUse := some b }).wr bRST
      RST_BOOT_STATUS_ID_COPY (k + 1))
    rw [huse, hrd, State.rd_wr_same _ _ _ _ (by decide)]
    exact ⟨Nat.mod_eq_of_lt (show k + 1 < 4 by omega), rfl⟩
  case trial =>
    intro s τ i v ha hk h6 h0 h1 h2 hs hv
    rw [exec_trial ha hk h6 τ h0 h1 h2, State.swapTrial, State.at_sys, if_pos (by simp [hs, hv]), State.at_activeBank]
  case trialRefused =>
    intro s τ i v ha hk h6 h0 h1 h2 hs
    rw [exec_trial ha hk h6 τ h0 h1 h2, State.swapTrial, State.at_sys, if_neg (by simpa [imp_iff_not_or] using hs), State.swapRefuse]
  case cancel =>
    intro s τ i v ha hk h6 h0 h1 h2 hs
    refine ⟨_, (exec_cancel ha hk h6 τ h0 h1 h2).trans (congrArg Host.Outcome.next (if_pos (by simpa using hs))), ?_, State.setSwap_state ..⟩
    rw [← State.at_sys s τ]
    rfl
  case cancelRefused =>
    intro s τ i v ha hk h6 h0 h1 h2 hs
    rw [exec_cancel ha hk h6 τ h0 h1 h2, State.swapCancel, State.at_sys, if_neg hs, State.swapRefuse]
  case confirm =>
    intro s τ i v ha hk h6 h0 h1 h2 hs hb
    refine ⟨_, (exec_confirm ha hk h6 τ h0 h1 h2).trans (congrArg Host.Outcome.next (if_pos (by simpa using hs))), ?_,
      State.setSwap_state .., ?_⟩
    · rw [← State.at_sys s τ]
      rfl
    · rw [State.setSwap_active, State.at_sys, Nat.mod_eq_of_lt hb]
  case confirmRefused =>
    intro s τ i v ha hk h6 h0 h1 h2 hs
    rw [exec_confirm ha hk h6 τ h0 h1 h2, State.swapConfirm, State.at_sys, if_neg hs, State.swapRefuse]
  case clear => exact fun s τ i v ha h6 h => congrArg Host.Outcome.next (State.swapCtrl_clears τ ha h6 h)
  case verified =>
    intro s τ hv _
    refine ⟨_, exec_trialVerifyDone τ hv, ?_⟩
    cases hp : s.bankPasses (1 - s.activeBank)
    · obtain ⟨hver, hstate⟩ := ((s.at τ).setSys { s.sys with verifying := false }).markBad_frame (1 - s.activeBank)
      exact ⟨hver, nofun, fun _ => ⟨State.markBad_isBad .., hstate⟩⟩
    · exact ⟨rfl, fun _ => rfl, nofun⟩
  case program =>
    intro s τ i off data hi hn ho hf hl
    obtain ⟨hmem, hstate⟩ := (s.at τ).withdrawTrial_frame
    refine ⟨_, exec_flashProgram hi hn ho hf hl, ?_, rfl, ?_⟩
    · exact (State.write_mem ..).trans (by rw [hmem, State.at_mem])
    · exact (congrArg Sys.swapState (State.write_sys ..)).trans (by rw [hstate, State.at_sys])

/-! ### The PMBus sideband (R53, R54) -/

theorem State.at_pmb (s : State) (τ : Nat) : (s.at τ).sys.pmb = s.sys.pmb := by rw [State.at_sys]

theorem leBytes_length (n v : Nat) : (leBytes n v).length = n := by
  induction n generalizing v with
  | zero => rfl
  | succ n ih => rw [leBytes, List.length_cons, ih]

theorem leNat_leBytes (n v : Nat) : leNat (leBytes n v) = v % 256 ^ n := by
  induction n generalizing v with
  | zero => simp [leBytes, leNat, Nat.mod_one]
  | succ n ih => rw [leBytes, leNat, ih, pow_succ', Nat.mod_mul]

theorem flagBit_le (b : Bool) (k : Nat) : flagBit b k ≤ 2 ^ k := by
  cases b
  · exact Nat.zero_le _
  · exact Nat.le_refl _

/-- The status word fits its two bytes. -/
theorem Pmbus.statusWord_lt (x : Pmbus) : x.statusWord < 65536 := by
  have h13 := flagBit_le (x.vinUv || x.vinOv) 13
  have h3 := flagBit_le x.vinUv 3
  have h2 := flagBit_le x.tempBad 2
  have h1 := flagBit_le x.cml 1
  have h0 := flagBit_le (x.vinOv && !x.vinUv) 0
  unfold Pmbus.statusWord Pmbus.statusByte
  omega

/-- The bits of the status byte, at the places of log entry 31. -/
theorem Pmbus.statusByte_eq (x : Pmbus) : x.statusByte = (if x.vinUv then 8 else 0) + (if x.tempBad then 4 else 0) + (if x.cml then 2 else 0) +
    (if x.vinOv ∧ x.vinUv = false then 1 else 0) := by
  simp [Pmbus.statusByte, flagBit]

/-- Settles O11: each command answers or sets the latched values, which its moment leaves; the status word reads back from its two bytes. -/
theorem sidebandAnswersTheListedCommands : Obligations.SidebandAnswersTheListedCommands := by
  refine ⟨fun _ _ => rfl, fun _ _ => rfl, fun _ _ => rfl, fun _ _ => rfl, fun _ _ => rfl, ?vin, ?iin, ?plate, ?hot, ?pin, ?byte, ?word,
    ?refresh, ?early, ?clear, ?other⟩
  case vin => exact fun s τ => congrArg (fun x : Pmbus => Host.Outcome.next ((s.at τ).answerLinear 0x88 x.vinMv)) (State.at_pmb s τ)
  case iin => exact fun s τ => congrArg (fun x : Pmbus => Host.Outcome.next ((s.at τ).answerLinear 0x89 x.iinMa)) (State.at_pmb s τ)
  case plate => exact fun s τ => congrArg (fun x : Pmbus => Host.Outcome.next ((s.at τ).answerLinear 0x8D x.plate)) (State.at_pmb s τ)
  case hot => exact fun s τ => congrArg (fun x : Pmbus => Host.Outcome.next ((s.at τ).answerLinear 0x8E x.hot)) (State.at_pmb s τ)
  case pin => exact fun s τ => congrArg (fun x : Pmbus => Host.Outcome.next ((s.at τ).answerLinear 0x97 x.pinMw)) (State.at_pmb s τ)
  case byte =>
    intro s τ
    rw [← Pmbus.statusByte_eq, ← State.at_pmb s τ]
    rfl
  case word =>
    intro s τ
    refine ⟨_, rfl, leBytes_length .., (leNat_leBytes ..).trans ((Nat.mod_eq_of_lt (Pmbus.statusWord_lt _)).trans ?_)⟩
    rw [State.at_sys, Pmbus.statusWord, Nat.add_comm]
    simp [flagBit]
  case refresh =>
    intro s τ vin iin plate hot pin hd
    refine ⟨_, congrArg Host.Outcome.next (if_neg (by simp [hd])), rfl, rfl, rfl, rfl, rfl, ?_⟩
    simp [State.setPmb, Pmbus.latch, Pmbus.bad, State.mark, Bool.or_assoc]
  case early =>
    intro s τ vin iin plate hot pin hd
    exact congrArg Host.Outcome.next (if_pos (by simp [hd]))
  case clear =>
    intro s τ
    refine ⟨_, rfl, rfl, ?_⟩
    simp +contextual [State.setPmb, Pmbus.latch, Pmbus.bad, State.answer]
  case other => exact fun s τ _ _ => congrArg (fun x : Pmbus => Host.Outcome.next ((s.at τ).setPmb { x with cml := true })) (State.at_pmb s τ)

/-! ### The field side's driven bits and fault bits (R448) -/

section Supplies
variable {s : State}

/-- The driven bits of the outputs that a list names, shown: the first part of `refreshFio`, over any list. -/
def State.showDriven (s : State) (l : List Nat) : State := l.foldl (fun s n => s.wr bFIO (FIO_DO_CFG_ON n) (if s.outOn n then 1 else 0)) s

theorem State.showDriven_frame (s : State) (l : List Nat) : (s.showDriven l).field = s.field ∧ (s.showDriven l).live = s.live ∧
    ∀ g : Fld, g.off = 0x100 → g.lo < 32 → (s.showDriven l).rd bFIO g = s.rd bFIO g :=
  ⟨foldl_keeps State.field fun _ _ _ => rfl, foldl_keeps State.live fun _ _ _ => rfl, fun g ho hl =>
    foldl_keeps (fun s : State => s.rd bFIO g) fun s n _ => State.rd_wr_ne _ _ _ _ _ _ (by simp only [fkey, FIO_DO_CFG_ON]; omega)⟩

/-- The driven bits and the latched outputs, shown: what `refreshFio` does before it forms the common fault bit. -/
def State.showOutputs (s : State) : State :=
  (s.showDriven (List.range 8)).wr bFIO FIO_STAT_DO_FAULT (s.showDriven (List.range 8)).latchMask

/-- Below the latched outputs, `FIO_STAT` stays as it is. -/
theorem State.showOutputs_rd {g : Fld} (ho : g.off = 0x100) (hl : g.lo < 8) : s.showOutputs.rd bFIO g = s.rd bFIO g := by
  obtain ⟨-, -, h⟩ := s.showDriven_frame (List.range 8)
  rw [State.showOutputs, State.rd_wr_ne _ _ _ _ _ _ (by simp only [fkey, FIO_STAT_DO_FAULT]; omega), h g ho (by omega)]

theorem State.showOutputs_field : s.showOutputs.field = s.field := by
  obtain ⟨h, -, -⟩ := s.showDriven_frame (List.range 8)
  rw [State.showOutputs, State.wr_field, h]

theorem State.showOutputs_live : s.showOutputs.live = s.live := by
  obtain ⟨-, h, -⟩ := s.showDriven_frame (List.range 8)
  rw [State.showOutputs, State.wr_live, h]

/-- The common fault bit: a latched output, undervoltage or an encoder supply in limit. -/
def State.faultBit (s : State) : Nat := if s.latchMask ≠ 0 ∨ s.rd bFIO FIO_STAT_UV = 1 ∨ s.rd bFIO FIO_STAT_ENCV0_FAULT = 1 ∨
  s.rd bFIO FIO_STAT_ENCV1_FAULT = 1 then 1 else 0

/-- The outputs are shown, and the common fault bit follows the faults, with an event or without. -/
theorem State.refreshFio_beside (s : State) : s.refreshFio.beside = (s.showOutputs.wr bFIO FIO_STAT_FAULT s.showOutputs.faultBit).beside := by
  unfold State.refreshFio
  extract_lets driven shown f
  change _ = (shown.wr bFIO FIO_STAT_FAULT f).beside
  split
  next h => rw [State.raise_beside, h.1]
  next h => rfl

/-- Beside the driven bits and the fault bits, what is refreshed keeps `FIO_STAT`. -/
theorem State.refreshFio_rd {g : Fld} (ho : g.off = 0x100) (hl : g.lo < 8) (h0 : g.lo ≠ 0) : s.refreshFio.rd bFIO g = s.rd bFIO g := by
  rw [State.rd_of_beside (by decide) s.refreshFio_beside, State.rd_wr_ne _ _ _ _ _ _ (by simp only [fkey, FIO_STAT_FAULT]; omega),
    State.showOutputs_rd ho hl]

/-- A standing fault sets the common fault bit. -/
theorem State.refreshFio_fault (h : s.rd bFIO FIO_STAT_UV = 1 ∨ s.rd bFIO FIO_STAT_ENCV0_FAULT = 1 ∨ s.rd bFIO FIO_STAT_ENCV1_FAULT = 1) :
    s.refreshFio.rd bFIO FIO_STAT_FAULT = 1 := by
  have hs : s.showOutputs.faultBit = 1 := if_pos <| .inr <| by
    rwa [State.showOutputs_rd rfl (by decide), State.showOutputs_rd rfl (by decide), State.showOutputs_rd rfl (by decide)]
  rw [State.rd_of_beside (by decide) s.refreshFio_beside, hs]
  exact State.rd_wr_same _ _ _ _ (by decide)

theorem State.refreshFio_field : s.refreshFio.field = s.field := by
  rw [State.field_of_beside s.refreshFio_beside, State.wr_field, State.showOutputs_field]

theorem State.refreshFio_cnt (f : Fld) : s.refreshFio.cnt bFIO f = s.cnt bFIO f := by
  rw [State.cnt_of_beside (by decide) s.refreshFio_beside, State.cnt, State.wr_live, State.showOutputs_live, State.cnt]

/-! ### Supplies (R44, R50, R52, R447, R448) -/

/-- The fault bit of an encoder supply is a bit of `FIO_STAT`, and not the common one. -/
theorem encvFault_place (n : Nat) : (encvFault n).off = 0x100 ∧ (encvFault n).lo < 8 ∧ (encvFault n).lo ≠ 0 := by
  unfold encvFault
  split <;> decide

theorem encvFault_cases (n : Nat) : encvFault n = FIO_STAT_ENCV0_FAULT ∨ encvFault n = FIO_STAT_ENCV1_FAULT := ite_eq_or_eq ..

theorem State.encvFault_wr (s : State) (n v : Nat) : (s.wr bFIO (encvFault n) v).rd bFIO (encvFault n) = v % 2 := by
  have hw : (encvFault n).w = 1 := by
    unfold encvFault
    split <;> rfl
  rw [State.rd_wr_same _ _ _ _ (by omega), hw, pow_one]

/-- Power over coax, taken from the ports that a list names, as the loss of `VCXP` takes it (R50). -/
def State.portsOff (s : State) (l : List Nat) : State := l.foldl (fun s n => s.setCam n { s.camP n with power := false }) s

theorem State.portsOff_sys (s : State) (l : List Nat) : (s.portsOff l).sys = s.sys := foldl_keeps State.sys fun _ _ _ => rfl

/-- A port whose power is taken stays so while the power of others is. -/
theorem State.portsOff_power {p : Nat} (l : List Nat) (h : p ∈ l ∨ (s.camP p).power = false) : ((s.portsOff l).camP p).power = false := by
  induction l generalizing s with
  | nil => exact h.resolve_left List.not_mem_nil
  | cons n l ih =>
    refine ih ?_
    by_cases hn : n = p
    · subst hn
      exact .inr (congrArg CamPort.power Store.get_put_same)
    · refine h.imp (fun h => (List.mem_cons.1 h).resolve_left (Ne.symm hn)) fun h => ?_
      exact (congrArg CamPort.power (Store.get_put_ne hn)).trans h

theorem exec_vcxpLost (τ : Nat) : exec (.vcxpChange τ false) s =
    .next (((s.at τ).setSys { (s.at τ).sys with vcxp := false }).portsOff (List.range 8)) :=
  congrArg Host.Outcome.next (if_neg Bool.false_ne_true)

end Supplies

/-- Settles O12: each command writes its own bits, and `refreshFio` leaves them, the pulses and the counters and shows the common fault. -/
theorem fieldAndCameraSupplies : Obligations.FieldAndCameraSupplies := by
  refine ⟨?low, ?high, ?overcurrent, ?vcxpOn, ?vcxpOff, ?limit, ?limitEnd⟩
  case low =>
    intro s τ hu hd
    refine ⟨_, congrArg Host.Outcome.next (if_neg (by simp [hu, hd])), ?_, ?_, ?_⟩
    · rw [State.refreshFio_rd rfl (by decide) (by decide), State.inc_rd]
      exact State.rd_wr_same _ _ _ _ (by decide)
    · rw [State.refreshFio_field]
      rfl
    · rw [State.refreshFio_cnt, State.cnt_inc]
      exact congrArg (satInc · 1) (State.at_cnt ..)
  case high =>
    intro s τ hd
    exact ⟨_, congrArg Host.Outcome.next (if_neg (by simp [hd])),
      (State.refreshFio_rd rfl (by decide) (by decide)).trans (State.rd_wr_same _ _ _ _ (by decide))⟩
  case overcurrent =>
    intro s τ p
    show Host.Outcome.next _ = _
    rw [State.camP, State.at_cam, State.camP]
  case vcxpOn =>
    intro s τ
    show Host.Outcome.next _ = _
    rw [State.at_sys]
    rfl
  case vcxpOff =>
    intro s τ
    exact ⟨_, exec_vcxpLost τ, congrArg Sys.vcxp (State.portsOff_sys ..), fun p hp => State.portsOff_power _ (.inl hp)⟩
  case limit =>
    intro s τ n hd hn
    obtain ⟨ho, hl, h0⟩ := encvFault_place n
    refine ⟨_, congrArg Host.Outcome.next (if_pos (by simp [hd])), (State.refreshFio_rd ho hl h0).trans (State.encvFault_wr ..),
      State.refreshFio_fault (.inr ?_)⟩
    obtain h | h := encvFault_cases n
    · exact .inl (h ▸ State.encvFault_wr ..)
    · exact .inr (h ▸ State.encvFault_wr ..)
  case limitEnd =>
    intro s τ n hd hn
    obtain ⟨ho, hl, h0⟩ := encvFault_place n
    exact ⟨_, congrArg Host.Outcome.next (if_pos (by simp [hd])), (State.refreshFio_rd ho hl h0).trans (State.encvFault_wr ..)⟩

end Sys2Proof.Machine
end

section
/-!
PROOFS. Resets and what they leave, the boot, and the factory program.
-/

namespace Sys2Proof.Machine

/-! ### What a reset leaves (R63-R65, R189) -/

section Taken
variable {s t u : State} {whole : Bool}

theorem inRet_below {a : Nat} (h : inRet a = true) : a < flashBase := by
  simp only [inRet, Bool.and_eq_true, decide_eq_true_eq] at h
  exact h.2.trans (by decide)

theorem survives_flash {a : Nat} (h : flashBase ≤ a) : survives whole a = true := by simp [survives, h]

theorem survives_below {a : Nat} (h : a < flashBase) : survives whole a = (!whole && inRet a) := by simp [survives, h]

/-- A bit that is set reads 1. -/
theorem State.rd_wr_bit {b : Nat} {f : Fld} (h : f.w = 1) : (s.wr b f 1).rd b f = 1 := by
  rw [State.rd_wr_same _ _ _ _ (by omega), h]
  rfl

/-- A byte after the clearing: kept where it survives, 0 elsewhere (log entry 5). -/
theorem State.cleared_byte (s : State) (whole : Bool) (a : Nat) :
    (s.cleared whole).byte a = if survives whole a then s.byte a else 0 := by
  cases h : survives whole a with
  | true => exact congrArg BitVec.toNat (Store.get_filter_keep h)
  | false => exact congrArg BitVec.toNat (Store.get_filter_drop h)

/-- A register outside the reset controller reads its reset value after the clearing. -/
theorem State.cleared_rd_other {b : Nat} {f : Fld} (hb : b ≠ bRST) (ho : f.off < 1048576) (hl : f.lo < 32) (hr : f.rst < 2 ^ 32) :
    (s.cleared whole).rd b f = f.rst := by
  have hreset : (BitVec.ofNat 32 f.rst).toNat = f.rst := (BitVec.toNat_ofNat ..).trans (Nat.mod_eq_of_lt hr)
  cases whole with
  | true => exact hreset
  | false =>
    refine (congrArg BitVec.toNat (Store.get_filter_drop (p := fun k => ofBlk bRST k && rstKept (k % 33554432 / 32)) ?_)).trans hreset
    simp [ofBlk, fkey_block ho hl, hb]

/-- A reset of system scope keeps the record of the reset controller that R64 names. -/
theorem State.cleared_rd_kept {f : Fld} (hk : rstKept f.off = true) (ho : f.off < 1048576) (hl : f.lo < 32) :
    (s.cleared false).rd bRST f = s.rd bRST f :=
  congrArg BitVec.toNat <| Store.get_filter_keep (p := fun k => ofBlk bRST k && rstKept (k % 33554432 / 32)) <| by
    simp [ofBlk, fkey_block ho hl, fkey_offset ho hl, hk]

/-- A reset begun where the memory, the registers and the queue are those of `s` is a reset taken from `s`. -/
theorem resetTaken_beginReset {src : Nat} {cause : Fld} {standing sample : Bool} (hc : cause.off < 1048576 ∧ cause.lo < 32 ∧ cause.w = 1)
    (hp : u.pending = s.pending) (hr : u.regs = s.regs) (hm : u.mem = s.mem) :
    ResetTaken [cause] whole s (u.beginReset src cause standing sample whole) := by
  obtain ⟨ho, hl, hw⟩ := hc
  have byte (a : Nat) : (u.beginReset src cause standing sample whole).byte a = if survives whole a then s.byte a else 0 := by
    rw [State.byte.eq_def s, ← hm]
    exact u.cleared_byte whole a
  have rd (b : Nat) (f : Fld) :
      (u.beginReset src cause standing sample whole).rd b f = ((u.cleared whole).wr bRST cause 1).rd b f := rfl
  refine ⟨rfl, List.forall_mem_singleton.2 (State.rd_wr_bit hw), hp, ?registers, ?flash, ?lost, ?retention, ?kept⟩
  case registers =>
    intro b f hb hfo hfl hfr
    rw [rd, State.rd_wr_block hb.symm ⟨ho, hl⟩ ⟨hfo, hfl⟩, State.cleared_rd_other hb hfo hfl hfr]
  case flash =>
    intro a ha
    rw [byte, survives_flash ha, if_pos rfl]
  case lost =>
    intro a ha hret
    rw [byte, survives_below ha, hret, Bool.and_false, if_neg Bool.false_ne_true]
  case retention =>
    intro a hret
    rw [byte, survives_below (inRet_below hret), hret]
    cases whole <;> rfl
  case kept =>
    rintro rfl f hk hfo hfl hne
    rw [rd, State.rd_wr_ne _ _ _ _ _ _ (hne cause (List.mem_singleton_self _)).symm, State.cleared_rd_kept hk hfo hfl, State.rd, hr, State.rd]

theorem resetTaken_at {src τ : Nat} {cause : Fld} {standing sample : Bool} (hc : cause.off < 1048576 ∧ cause.lo < 32 ∧ cause.w = 1) :
    ResetTaken [cause] whole s ((s.at τ).beginReset src cause standing sample whole) :=
  resetTaken_beginReset hc (State.at_pending ..) (State.at_regs ..) (State.at_mem ..)

/-- A bit of the kept record that is set before the reset is taken reads 1 after it too. -/
theorem ResetTaken.of_latched {cause f : Fld} (hf : rstKept f.off = true ∧ f.off < 1048576 ∧ f.lo < 32 ∧ f.w = 1)
    (hne : fkey bRST f ≠ fkey bRST cause) (h : ResetTaken [cause] false (s.wr bRST f 1) t) : ResetTaken [cause, f] false s t := by
  obtain ⟨inReset, latched, pending, registers, flash, lost, retention, kept⟩ := h
  obtain ⟨hk, ho, hl, hw⟩ := hf
  refine ⟨inReset, ?latched, pending, registers, flash, lost, retention, ?kept⟩
  case latched =>
    have hbit : t.rd bRST f = 1 := (kept rfl f hk ho hl (List.forall_mem_singleton.2 hne)).trans (State.rd_wr_bit hw)
    exact List.forall_mem_cons.2 ⟨latched _ (List.mem_singleton_self _), List.forall_mem_singleton.2 hbit⟩
  case kept =>
    intro _ g hgk hgo hgl hg
    obtain ⟨hcause, hlatched⟩ := List.forall_mem_cons.1 hg
    rw [kept rfl g hgk hgo hgl (List.forall_mem_singleton.2 hcause),
      State.rd_wr_ne _ _ _ _ _ _ (List.forall_mem_singleton.1 hlatched).symm]

/-- A critical-state error latches its source and resets the module (R189). -/
theorem resetTaken_critical {f : Fld} (hf : rstKept f.off = true ∧ f.off < 1048576 ∧ f.lo < 32 ∧ f.w = 1)
    (hne : fkey bRST f ≠ fkey bRST RST_CAUSE_CRIT_ERR) (τ : Nat) :
    ResetTaken [RST_CAUSE_CRIT_ERR, f] false s (((s.at τ).wr bRST f 1).systemReset RST_CAUSE_CRIT_ERR) :=
  .of_latched hf hne <| resetTaken_beginReset (by decide) (State.at_pending ..)
    (by rw [State.wr_regs, State.at_regs, State.wr_regs]) (State.at_mem ..)

/-- With the key, a management core or the host resets the module (R72). -/
theorem exec_rstSwreset {τ i v : Nat} (hi : s.mgmtOrHost i = true) (hk : bits v 16 16 = 0xA5C3) (h0 : bit v 0 = 1) :
    exec (.rstSwreset τ i v) s = .next ((s.at τ).systemReset RST_CAUSE_SW_FULL) :=
  congrArg Host.Outcome.next ((if_neg (by simp [hi])).trans (if_pos ⟨hk, h0⟩))

/-- A reset request received on a joined port takes effect by `LNK_REQ_EN` (R69). -/
theorem exec_resetReq {τ a src : Nat} (hp : s.portUp a = true) : exec (.resetReq τ a src) s = .next
    (let u := (s.at τ).rxFrame a { type := 0x50, src := src, dest := s.modulePos }
     if s.rd bRST RST_SRC_EN_LNK_REQ_EN = 1 then u.systemReset RST_CAUSE_LNK_REQ else u) := by
  refine congrArg Host.Outcome.next ((State.onFrame_up hp).trans ?_)
  dsimp only
  rw [State.rxFrame_rd, State.at_rd, State.forMe, State.at_modulePos]
  rfl

/-- Receiving a frame leaves the memory and the queue. -/
theorem State.rxFrame_stores (s : State) (a : Nat) (f : Frame) : (s.rxFrame a f).mem = s.mem ∧ (s.rxFrame a f).pending = s.pending := by
  obtain ⟨_, _, _, _, _, h, _⟩ := s.rxFrame_received a f
  rw [h]
  exact ⟨rfl, rfl⟩

end Taken

/-- Settles O6: each cause begins a reset by `beginReset` (`resetTaken_beginReset`). That memory reads 0 after a reset and that the queue waits
on are log entries 5 and 25. -/
theorem resetsClearAllButTheAlwaysOnDomain : Obligations.ResetsClearAllButTheAlwaysOnDomain := by
  refine ⟨?powerOn, ?brownOut, ?pin, ?thermal, ?software, ?queues, ?pageTables, ?firewall, ?shardMap⟩
  case powerOn => exact fun s τ => ⟨_, rfl, resetTaken_at (by decide)⟩
  case brownOut => exact fun s τ => ⟨_, rfl, resetTaken_at (by decide)⟩
  case pin => exact fun s τ => ⟨_, rfl, resetTaken_at (by decide)⟩
  case thermal => exact fun s τ => ⟨_, rfl, resetTaken_at (by decide)⟩
  case software => exact fun s τ i v hi hk h0 => ⟨_, exec_rstSwreset hi hk h0, resetTaken_at (by decide)⟩
  case queues => exact fun s τ => ⟨_, rfl, resetTaken_critical (by decide) (by decide) τ⟩
  case pageTables => exact fun s τ => ⟨_, rfl, resetTaken_critical (by decide) (by decide) τ⟩
  case firewall => exact fun s τ => ⟨_, rfl, resetTaken_critical (by decide) (by decide) τ⟩
  case shardMap => exact fun s τ => ⟨_, rfl, resetTaken_critical (by decide) (by decide) τ⟩

/-- Settles O57: receiving the request leaves memory, registers and queue, so the reset is one taken from the state before it. R69 gives the
enable; what the reset keeps and loses is R64's, with log entry 5 for the bytes that read 0. -/
theorem linkResetRequestsNeedTheEnable : Obligations.LinkResetRequestsNeedTheEnable := by
  refine ⟨?enabled, ?discarded⟩
  case enabled =>
    intro s τ a src hp he
    obtain ⟨hmem, hpending⟩ := (s.at τ).rxFrame_stores a { type := 0x50, src := src, dest := s.modulePos }
    refine ⟨_, (exec_resetReq hp).trans (congrArg Host.Outcome.next (if_pos he)), resetTaken_beginReset (by decide) ?_ ?_ ?_⟩
    · rw [hpending, State.at_pending]
    · rw [(State.rxFrame_frame ..).1, State.at_regs]
    · rw [hmem, State.at_mem]
  case discarded => exact fun s τ a src hp he => (exec_resetReq hp).trans (congrArg Host.Outcome.next (if_neg he))

/-! ### What an enable leaves

A write of `ENABLE` and the powering up that follows write registers of the block, of its lanes and of the power function: a register of any
other block reads as before, and nothing beside the registers changes. -/

section Enable
variable {c : Nat} {s t u : State}

/-- State `t` is `s` but for registers, none of them block `c`'s. -/
def RegsApart (c : Nat) (s t : State) : Prop :=
  (∃ l, t = { s with regs := l }) ∧ ∀ g : Fld, g.off < 1048576 → g.lo < 32 → t.rd c g = s.rd c g

theorem RegsApart.refl (c : Nat) (s : State) : RegsApart c s s := ⟨⟨_, rfl⟩, fun _ _ _ => rfl⟩

theorem RegsApart.trans (h : RegsApart c s t) (k : RegsApart c t u) : RegsApart c s u := by
  obtain ⟨⟨l, hl⟩, hr⟩ := h
  obtain ⟨⟨m, hm⟩, kr⟩ := k
  exact ⟨⟨m, by rw [hm, hl]⟩, fun g ho hg => (kr g ho hg).trans (hr g ho hg)⟩

theorem RegsApart.ite {p : Prop} [Decidable p] (h : RegsApart c s t) (k : RegsApart c s u) :
    RegsApart c s (if p then t else u) := by
  split
  · exact h
  · exact k

theorem RegsApart.foldl {α : Type} {f : State → α → State} {l : List α} (h : ∀ s, ∀ x ∈ l, RegsApart c s (f s x)) (s : State) :
    RegsApart c s (l.foldl f s) := by
  induction l generalizing s with
  | nil => exact .refl c s
  | cons x l ih => exact (h s x List.mem_cons_self).trans (ih (fun s y hy => h s y (List.mem_cons_of_mem _ hy)) _)

theorem State.wr_regsApart {b n : Nat} {f : Fld} (hb : b ≠ c) (hf : f.off < 1048576 ∧ f.lo < 32) : RegsApart c s (s.wr b f n) :=
  ⟨⟨_, rfl⟩, fun _ ho hl => State.rd_wr_block hb hf ⟨ho, hl⟩⟩

theorem State.setFsm_regsApart {b n : Nat} (hb : b ≠ c) : RegsApart c s (s.setFsm b n) := State.wr_regsApart hb (by decide)

theorem State.showLane_regsApart {m : Nat} (hm : bSDS m ≠ c) : RegsApart c s (s.showLane m) := by
  unfold State.showLane
  exact .ite ((State.wr_regsApart hm (by decide)).trans (State.wr_regsApart hm (by decide))) (State.wr_regsApart hm (by decide))

theorem State.startLanes_regsApart (hc : c < 0xC0) (s : State) (b : Nat) : RegsApart c s (s.startLanes b) := by
  refine .foldl (fun s m _ => ?_) s
  have hm : bSDS m ≠ c := by
    unfold bSDS
    omega
  exact .ite (((State.setFsm_regsApart hm).trans (State.wr_regsApart hm (by decide))).trans (State.showLane_regsApart hm)) (.refl c s)

theorem State.toStarting_regsApart {b : Nat} (hb : b ≠ c) (hp : bPWR ≠ c) (hc : c < 0xC0) (s : State) :
    RegsApart c s (s.toStarting b) := by
  have hdom : (PWR_PD_STAT_PSTATE (domOf b)).off < 1048576 ∧ (PWR_PD_STAT_PSTATE (domOf b)).lo < 32 := by
    have := domOf_lt b
    simp only [PWR_PD_STAT_PSTATE]
    omega
  have hstart : RegsApart c s ((s.setFsm b fSTARTING).startLanes b) :=
    (State.setFsm_regsApart hb).trans (State.startLanes_regsApart hc _ b)
  unfold State.toStarting
  exact .ite (hstart.trans (State.wr_regsApart hp hdom)) hstart

/-- A write of `ENABLE` 1 leaves all but registers, and those of every other block that is not `PWR` or a lane. -/
theorem State.enableReq_regsApart {b : Nat} (hb : b ≠ c) (hp : bPWR ≠ c) (hc : c < 0xC0) (s : State) :
    RegsApart c s (s.enableReq b 1) := by
  have hw : RegsApart c s (s.wr b COM_CTRL_ENABLE 1) := State.wr_regsApart hb (by decide)
  unfold State.enableReq
  dsimp only
  rw [if_pos rfl]
  exact .ite (.refl c s) <| .ite hw <| .ite (hw.trans (State.toStarting_regsApart hb hp hc _)) <|
    .ite (hw.trans (State.setFsm_regsApart hb)) hw

end Enable

/-! ### The steps of the boot (R73-R88) -/

section Boot
variable {s t : State}

theorem State.bytes_congr (h : t.mem = s.mem) : t.bytes = s.bytes := by
  funext a n
  simp only [State.bytes, State.byte, h]

theorem State.readOptions_congr (h : t.mem = s.mem) : t.readOptions = s.readOptions := by
  unfold State.readOptions
  rw [State.bytes_congr h]

theorem State.directory_congr (h : t.mem = s.mem) : t.directory = s.directory := by
  funext base
  rw [State.directory, State.bytes_congr h, State.directory]

theorem State.dirCode_congr (h : t.mem = s.mem) : t.dirCode = s.dirCode := by
  unfold State.dirCode
  rw [State.directory_congr h]

/-- The check of an image reads the memory and the options alone. -/
theorem State.imageCode_congr (hm : t.mem = s.mem) (ho : t.opt = s.opt) : t.imageCode = s.imageCode := by
  funext base e
  rw [State.imageCode, State.bytes_congr hm, ho, State.imageCode]

@[simp] theorem State.at_setBase (s : State) (τ : Nat) : (s.at τ).setBase = s.setBase := by simp [State.setBase]

/-! #### `STAGE` -/

theorem State.setStage_stage {stage : Nat} (phase : Nat) (h : stage < 16) : (s.setStage stage phase).rd bRST RST_BOOT_STATUS_STAGE = stage :=
  (State.rd_wr_same _ _ _ _ (by decide)).trans (Nat.mod_eq_of_lt h)

/-- A step of the boot leaves the other fields of the reset controller. -/
theorem State.setStage_rd {g : Fld} (stage phase : Nat) (h : fkey bRST RST_BOOT_STATUS_STAGE ≠ fkey bRST g) :
    (s.setStage stage phase).rd bRST g = s.rd bRST g := State.rd_wr_ne _ _ _ _ _ _ h

theorem State.bootStop_spec (s : State) {code : Nat} (h : code < 256) :
    (s.bootStop code).rd bRST RST_BOOT_STATUS_STAGE = 0xF ∧ (s.bootStop code).rd bRST RST_BOOT_STATUS_FAIL_CODE = code :=
  ⟨State.setStage_stage 9 (by decide), (State.setStage_rd _ _ (by decide)).trans <|
    (State.rd_wr_same _ _ _ _ (by decide)).trans (Nat.mod_eq_of_lt h)⟩

theorem State.netWait_stage (s : State) : s.netWait.rd bRST RST_BOOT_STATUS_STAGE = 7 := s.setStage_stage 7 (stage := 7) (by decide)

/-- A failed boot from DRAM waits for the host or for the network again (R83, R85). -/
theorem State.dramFail_stage (s : State) (code : Nat) :
    (s.dramFail code).rd bRST RST_BOOT_STATUS_STAGE = if s.rd bRST RST_BOOT_STATUS_SOURCE = 2 then 6 else 7 := by
  have hsource : (s.bootCode code).rd bRST RST_BOOT_STATUS_SOURCE = s.rd bRST RST_BOOT_STATUS_SOURCE :=
    State.rd_wr_ne _ _ _ _ _ _ (by decide)
  unfold State.dramFail
  dsimp only
  rw [hsource]
  split
  · exact State.setStage_stage 6 (by decide)
  · exact State.netWait_stage _

theorem State.bootDram_stage (s : State) : s.bootDram.rd bRST RST_BOOT_STATUS_STAGE =
    if s.dirCode 0 = 0 then 3 else if s.rd bRST RST_BOOT_STATUS_SOURCE = 2 then 6 else 7 := by
  unfold State.bootDram
  dsimp only
  split
  · exact State.setStage_stage 1 (by decide)
  · exact State.dramFail_stage _ _

theorem State.dramFail_mem (s : State) (code : Nat) : (s.dramFail code).mem = s.mem := by
  unfold State.dramFail
  dsimp only
  split <;> rfl

theorem State.bootDram_mem (s : State) : s.bootDram.mem = s.mem := by
  unfold State.bootDram
  dsimp only
  split
  · rfl
  · exact State.dramFail_mem _ _

/-! #### A write to memory -/

theorem State.touch_regs (u : Nat) (wr : Bool) : (s.touch u wr).regs = s.regs := by
  unfold State.touch
  dsimp only
  split
  · rfl
  · split <;> rfl

/-- A write to memory leaves the registers of every block but the DRAM's. -/
theorem State.write_rd {b : Nat} {g : Fld} (hb : bMEM4 ≠ b) (hg : g.off < 1048576 ∧ g.lo < 32) (a : Nat) (bs : List Nat) :
    (s.write a bs).rd b g = s.rd b g := by
  have armed (t : State) : (t.wr bMEM4 MEM4_INJ_ARM 0).rd b g = t.rd b g := State.rd_wr_block hb (by decide) hg
  have injected (t : State) (a n : Nat) : (t.inject a n).rd b g = t.rd b g := by
    unfold State.inject
    split
    · exact armed t
    · exact armed t
    · rfl
  refine (injected _ _ _).trans (foldl_keeps (fun t : State => t.rd b g) fun t u _ => ?_)
  rw [State.rd, State.touch_regs, State.rd]

/-! #### The banks of the flash (R81, R82) -/

/-- A bank that is marked bad stays so when a bank is marked. -/
theorem State.isBad_markBad {k : Nat} (j : Nat) (h : s.isBad k = true) : (s.markBad j).isBad k = true := by
  unfold State.isBad at *
  by_cases hk : k = 0
  · rw [if_pos hk] at h ⊢
    unfold State.markBad
    split
    · rfl
    · exact h
  · rw [if_neg hk] at h ⊢
    unfold State.markBad
    split
    · exact h
    · rfl

theorem State.bootStop_isBad (code k : Nat) : (s.bootStop code).isBad k = s.isBad k := rfl

theorem State.chooseBank_isBad (j k : Nat) : (s.chooseBank j).isBad k = s.isBad k := rfl

/-- The bank that fails is marked bad, whatever boots then (R82). -/
theorem State.bankFail_isBad (s : State) (code : Nat) : (s.bankFail code).isBad s.sys.bank = true := by
  have hbad : ((s.bootCode code).markBad s.sys.bank).isBad s.sys.bank = true := State.markBad_isBad ..
  unfold State.bankFail
  dsimp only
  split
  · rw [State.bootStop_isBad, hbad]
  · split
    · rw [State.chooseBank_isBad, hbad]
    · rw [State.bootStop_isBad, State.isBad_markBad _ hbad]

/-- The options in force, the copy shown as theirs, and whether the identity memory is being read: what the choice of a boot source leaves. -/
def State.bootView (s : State) : Options × Nat × Bool := (s.opt, s.rd bRST RST_BOOT_STATUS_OPT_COPY, s.sys.idReading)

theorem State.wr_bootView {f : Fld} (n : Nat) (h : fkey bRST f ≠ fkey bRST RST_BOOT_STATUS_OPT_COPY) : (s.wr bRST f n).bootView = s.bootView := by
  rw [State.bootView, State.rd_wr_ne _ _ _ _ _ _ h]
  rfl

theorem State.setSys_bootView {x : Sys} (h : x.idReading = s.sys.idReading) : (s.setSys x).bootView = s.bootView := by
  rw [State.bootView, State.setSys_sys, h]
  rfl

theorem State.send_bootView (o : Out) : (s.send o).bootView = s.bootView := rfl

theorem State.setStage_bootView (stage phase : Nat) : (s.setStage stage phase).bootView = s.bootView := by
  rw [State.setStage, State.send_bootView, State.setSys_bootView (by rfl), State.wr_bootView _ (by decide)]

theorem State.bootStop_bootView (code : Nat) : (s.bootStop code).bootView = s.bootView :=
  (State.setStage_bootView _ _).trans (State.wr_bootView _ (by decide))

theorem State.markBad_bootView (k : Nat) : (s.markBad k).bootView = s.bootView := by
  unfold State.markBad
  split
  · rw [State.setSys_bootView (by rfl), State.wr_bootView _ (by decide)]
  · rw [State.setSys_bootView (by rfl), State.wr_bootView _ (by decide)]

theorem State.chooseBank_bootView (k : Nat) : (s.chooseBank k).bootView = s.bootView := by
  rw [State.chooseBank, State.setStage_bootView, State.setSys_bootView (by rfl), State.wr_bootView _ (by decide)]

theorem State.bankFail_bootView (code : Nat) : (s.bankFail code).bootView = s.bootView := by
  have hbad (k : Nat) : ((s.bootCode code).markBad k).bootView = s.bootView :=
    (State.markBad_bootView k).trans (State.wr_bootView code (by decide))
  unfold State.bankFail
  dsimp only
  split
  · rw [State.bootStop_bootView, hbad]
  · split
    · rw [State.chooseBank_bootView, hbad]
    · rw [State.bootStop_bootView, State.markBad_bootView, hbad]

theorem State.chooseSource_bootView (s : State) : s.chooseSource.bootView = s.bootView := by
  unfold State.chooseSource State.bootBank
  dsimp only
  split
  · split
    · exact State.chooseBank_bootView _
    · rw [State.bankFail_bootView, State.setSys_bootView (by rfl)]
  · split
    · rw [State.bootStop_bootView, State.setSys_bootView (by rfl), State.wr_bootView _ (by decide)]
    · rw [State.setStage_bootView, State.setSys_bootView (by rfl), State.wr_bootView _ (by decide)]

/-! #### The end of the DRAM initialisation -/

/-- The state of the DRAM function, and whether its memory is initialised. -/
def State.dramView (s : State) : Nat × Bool := (s.fsm bMEM4, s.sys.dramReady)

theorem RegsApart.dramView (h : RegsApart bMEM4 s t) : t.dramView = s.dramView := by
  obtain ⟨⟨l, hl⟩, hr⟩ := h
  rw [State.dramView, State.fsm, hr _ (by decide) (by decide), hl]
  rfl

theorem State.wr_dramView {b n : Nat} {f : Fld} (hb : b ≠ bMEM4) (hf : f.off < 1048576 ∧ f.lo < 32) : (s.wr b f n).dramView = s.dramView :=
  (State.wr_regsApart hb hf).dramView

theorem State.setLnk_dramView (x : Link) : (s.setLnk x).dramView = s.dramView := rfl

theorem State.setSys_dramView {x : Sys} (h : x.dramReady = s.sys.dramReady) : (s.setSys x).dramView = s.dramView := by
  rw [State.dramView, State.setSys_sys, h]
  rfl

theorem State.send_dramView (o : Out) : (s.send o).dramView = s.dramView := rfl

theorem State.setStage_dramView (stage phase : Nat) : (s.setStage stage phase).dramView = s.dramView := by
  rw [State.setStage, State.send_dramView, State.setSys_dramView (by rfl), State.wr_dramView (by decide) (by decide)]

theorem State.netWait_dramView (s : State) : s.netWait.dramView = s.dramView := by
  rw [State.netWait, State.netStartOver, State.send_dramView, State.setSys_dramView (by rfl), State.setStage_dramView]

theorem State.facSet_dramView {f : Fld} (n : Nat) (hf : f.off < 1048576 ∧ f.lo < 32) : (s.facSet f n).dramView = s.dramView :=
  State.wr_dramView (b := bEJT 0) (by decide) hf

/-- The factory program starts beside the DRAM. -/
theorem State.factoryStart_dramView (s : State) : s.factoryStart.dramView = s.dramView := by
  have enabled (t : State) : ([bFIO, bSTP 0, bEJT 0, bCAM 0].foldl (fun s b => s.enableReq b 1) t).dramView = t.dramView :=
    foldl_keeps State.dramView fun t b hb =>
      (State.enableReq_regsApart (c := bMEM4) (by revert b; decide) (by decide) (by decide) t).dramView
  unfold State.factoryStart
  dsimp only
  rw [State.wr_dramView (by decide) (by decide), State.wr_dramView (by decide) (by decide), State.facSet_dramView _ (by decide),
    State.facSet_dramView _ (by decide), State.facSet_dramView _ (by decide), State.facSet_dramView _ (by decide), enabled,
    State.setSys_dramView (by rfl)]

theorem State.bootComplete_dramView (s : State) : s.bootComplete.dramView = s.dramView := by
  unfold State.bootComplete
  dsimp only
  split
  · rw [State.factoryStart_dramView, State.setLnk_dramView, State.setStage_dramView]
  · rw [State.setLnk_dramView, State.setStage_dramView]

theorem State.bootFurther_dramView (s : State) : s.bootFurther.dramView = s.dramView := by
  unfold State.bootFurther
  dsimp only
  split
  · rw [State.bootComplete_dramView, State.setSys_dramView (by rfl), State.setStage_dramView]
  · rw [State.setSys_dramView (by rfl), State.setStage_dramView]

/-- The DRAM is initialised: `MEM4` turns ON (log entry 11). -/
def State.dramOn (s : State) : State := (s.setFsm bMEM4 fON).setSys { s.sys with dramReady := true }

theorem State.dramOn_dramView (s : State) : s.dramOn.dramView = (fON, true) := by
  have hfsm : s.dramOn.fsm bMEM4 = fON := (State.setSys_rd ..).trans (State.fsm_setFsm (b := bMEM4) fON)
  rw [State.dramView, hfsm]
  rfl

theorem State.ready_of_dramView (h : s.dramView = (fON, true)) : s.fsm bMEM4 = fON ∧ s.sys.dramReady = true := Prod.mk.inj h

theorem State.dramOn_source (s : State) : s.dramOn.rd bRST RST_BOOT_STATUS_SOURCE = s.rd bRST RST_BOOT_STATUS_SOURCE :=
  (State.setSys_rd ..).trans (State.setFsm_rd (by decide))

/-! #### Commands of the boot -/

section Commands
variable {τ : Nat}

/-- The read of the identity memory begins. -/
def State.readIdentity (s : State) : State := s.setSys { s.sys with idReading := true }

/-- The options put into force, with the read of the identity memory begun. -/
theorem State.setOptions_bootView (k : Nat) (o : Options) : (s.setOptions k o).readIdentity.bootView = (o, k % 4, true) := by
  have hcopy : (s.setOptions k o).rd bRST RST_BOOT_STATUS_OPT_COPY = k % 4 :=
    (State.rd_wr_block (by decide) (by decide) (by decide)).trans (State.rd_wr_same _ _ _ _ (by decide))
  rw [State.bootView, State.readIdentity, State.setSys_rd, hcopy]
  rfl

/-- Rails that are ready let the slices come on and the host's port start, and then the option bytes decide (R74, R81). -/
def State.railsReady (s : State) : State := s.slicesOn.enableReq bPCIE 1

theorem State.railsReady_mem (s : State) : s.railsReady.mem = s.mem := by
  have hslices : RegsApart bRST s s.slicesOn := .foldl (fun t b hb =>
    .ite (State.setFsm_regsApart (by revert b; decide)) (.refl _ t)) s
  obtain ⟨⟨l, hl⟩, -⟩ := hslices.trans (State.enableReq_regsApart (b := bPCIE) (by decide) (by decide) (by decide) _)
  rw [State.railsReady, hl]

theorem State.railsReady_readOptions (s : State) : s.railsReady.readOptions = s.readOptions :=
  State.readOptions_congr s.railsReady_mem

theorem exec_bootReady_none (hr : s.sys.inReset = false) (hp : s.sys.phase = 0) (ho : s.readOptions = none) :
    exec (.bootReady τ) s = .next ((s.at τ).railsReady.bootStop 1) := by
  have hopt : (s.at τ).railsReady.readOptions = none := (State.railsReady_readOptions _).trans ((State.readOptions_congr (State.at_mem ..)).trans ho)
  show Host.Outcome.next _ = _
  rw [if_neg (by simp [hr, hp])]
  unfold State.railsReady at *
  simp only [hopt]

theorem exec_bootReady_some {k : Nat} {o : Options} (hr : s.sys.inReset = false) (hp : s.sys.phase = 0) (ho : s.readOptions = some (k, o)) :
    exec (.bootReady τ) s = .next ((s.at τ).railsReady.setOptions k o).readIdentity.chooseSource := by
  have hopt : (s.at τ).railsReady.readOptions = some (k, o) :=
    (State.railsReady_readOptions _).trans ((State.readOptions_congr (State.at_mem ..)).trans ho)
  show Host.Outcome.next _ = _
  rw [if_neg (by simp [hr, hp])]
  unfold State.railsReady State.readIdentity at *
  simp only [hopt]

theorem exec_dramInitDone (hp : s.sys.phase = 3) : exec (.dramInitDone τ) s = .next (s.at τ).dramOn.bootFurther := by
  show Host.Outcome.next _ = _
  rw [if_pos (by simp [hp]), State.dramOn]

/-- The Halter image's check leads on or fails the set (R79, R81). -/
theorem exec_imageVerified {e : Nat × Nat × Nat} (hp : s.sys.phase = 1) (he : entryOf ((s.directory s.setBase).getD []) 1 = some e) :
    exec (.imageVerified τ) s = .next (if s.imageCode s.setBase e = 0
      then ((((s.at τ).loadImage s.setBase e).startHalter).releaseImage 1).setStage 4 2
      else (s.at τ).bootFail (s.imageCode s.setBase e)) := by
  refine congrArg Host.Outcome.next ((if_pos (by rw [State.at_sys, hp])).trans ?_)
  rw [State.directory_congr (State.at_mem s τ), State.imageCode_congr (State.at_mem s τ) (State.at_opt s τ), State.at_setBase, he]

/-- The start of Halter leaves the reset controller's other fields. -/
theorem State.releaseHalter_stage (s : State) : ((s.startHalter.releaseImage 1).setStage 4 2).rd bRST RST_BOOT_STATUS_STAGE = 4 ∧
    1 ∈ ((s.startHalter.releaseImage 1).setStage 4 2).sys.released :=
  ⟨State.setStage_stage 2 (by decide), List.mem_append_right _ (List.mem_singleton_self _)⟩

theorem exec_rstHostBoot {i v : Nat} (ha : s.regAllowed i true bRST 0x120 = true) (h0 : bit v 0 = 1) (hs : s.rd bRST RST_BOOT_STATUS_STAGE = 6) :
    exec (.rstHostBoot τ i v) s = .next (s.at τ).bootDram :=
  congrArg Host.Outcome.next ((if_neg (by simp [ha])).trans (if_pos (by simp [h0, hs])))

theorem exec_netBootFileReceived {addr : Nat} {name file : List Nat} (hp : s.sys.phase = 7) (hd : inDram 0 file.length = true) :
    exec (.netBootFileReceived τ addr name file) s = .next
      ((((s.at τ).setSys { s.sys with netAddr := addr, netFile := name }).send (.tftp addr name 1468)).write 0 file).bootDram := by
  refine congrArg Host.Outcome.next ((if_pos (by simp [hp, hd])).trans ?_)
  rw [State.at_sys]

end Commands

end Boot

/-- Settles O8: each command takes the step that its checks name; the options put into force, a bank marked bad and a DRAM that is ready are
left by every step that follows. That `MEM4` turns ON at the end of the initialisation is log entry 11. -/
theorem bootStepsFollowTheChecks : Obligations.BootStepsFollowTheChecks := by
  refine ⟨?noOptions, ?options, ?halter, ?dramFlash, ?dramWaits, ?host, ?network, ?timeout⟩
  case noOptions =>
    intro s τ hr hp ho
    obtain ⟨hstage, hcode⟩ := (s.at τ).railsReady.bootStop_spec (code := 1) (by decide)
    exact ⟨_, exec_bootReady_none hr hp ho, hstage, hcode⟩
  case options =>
    intro s τ k o hr hp ho
    refine ⟨_, exec_bootReady_some hr hp ho, ?_⟩
    have hview := (State.chooseSource_bootView _).trans ((s.at τ).railsReady.setOptions_bootView k o)
    simpa only [State.bootView, Prod.mk.injEq] using hview
  case halter =>
    intro s τ e hp hd _ he
    refine ⟨_, exec_imageVerified hp he, fun h => ?_, fun h => ?_⟩
    · rw [if_pos h]
      exact State.releaseHalter_stage _
    · rw [if_neg h, State.bootFail, State.at_sys, if_neg (by simp [hd]), ← State.at_sys s τ]
      exact State.bankFail_isBad _ _
  case dramFlash =>
    intro s τ hp
    exact ⟨_, exec_dramInitDone hp, State.ready_of_dramView ((s.at τ).dramOn.bootFurther_dramView.trans (s.at τ).dramOn_dramView)⟩
  case dramWaits =>
    intro s τ hp
    have hexec : exec (.dramInitDone τ) s = .next (if s.rd bRST RST_BOOT_STATUS_SOURCE = 2 then (s.at τ).dramOn.setStage 6 6
        else (s.at τ).dramOn.netWait) := by
      rw [← State.at_rd s τ, ← State.dramOn_source]
      exact congrArg Host.Outcome.next ((if_neg (by simp [hp])).trans (if_pos (by simp [hp])))
    refine ⟨_, hexec, ?_⟩
    split
    · obtain ⟨hfsm, hready⟩ := State.ready_of_dramView ((State.setStage_dramView 6 6).trans (s.at τ).dramOn_dramView)
      exact ⟨hfsm, hready, State.setStage_stage 6 (by decide)⟩
    · obtain ⟨hfsm, hready⟩ := State.ready_of_dramView ((State.netWait_dramView _).trans (s.at τ).dramOn_dramView)
      exact ⟨hfsm, hready, State.netWait_stage _⟩
  case host =>
    intro s τ i v ha h0 hs
    refine ⟨_, exec_rstHostBoot ha h0 hs, (State.bootDram_stage _).trans ?_⟩
    rw [State.dirCode_congr (State.at_mem s τ), State.at_rd]
  case network =>
    intro s τ addr name file hp hs hd
    have hmem : ((((s.at τ).setSys { s.sys with netAddr := addr, netFile := name }).send (.tftp addr name 1468)).write 0 file).mem =
        memPuts s.mem 0 file := (State.write_mem ..).trans (congrArg (memPuts · 0 file) (State.at_mem s τ))
    have hsource : ((((s.at τ).setSys { s.sys with netAddr := addr, netFile := name }).send (.tftp addr name 1468)).write 0 file).rd bRST
        RST_BOOT_STATUS_SOURCE = 3 := (State.write_rd (by decide) (by decide) _ _).trans ((State.at_rd ..).trans hs)
    refine ⟨_, exec_netBootFileReceived hp hd, (State.bootDram_mem _).trans hmem, (State.bootDram_stage _).trans ?_⟩
    rw [hsource, State.dirCode_congr (s := { s with mem := memPuts s.mem 0 file }) hmem]
    rfl
  case timeout =>
    intro s τ failed hp hf
    refine congrArg Host.Outcome.next ((if_pos ⟨by simp [hp], by simpa using hf⟩).trans ?_)
    rw [State.netStartOver, State.at_sys]

/-! ### The factory program (R95-R106) -/

section Factory
variable {s : State} {τ : Nat}

@[simp] theorem State.at_discovers (s : State) (τ n : Nat) : (s.at τ).discovers n = s.discovers n := by
  simp [State.discovers, State.isOn]

@[simp] theorem State.at_camP (s : State) (τ n : Nat) : (s.at τ).camP n = s.camP n := by simp [State.camP]

@[simp] theorem State.at_stpP (s : State) (τ n : Nat) : (s.at τ).stpP n = s.stpP n := by simp [State.stpP]

/-- `DI0` that rose 3 s ago and reads 1 has been held. -/
theorem State.di0Held_of (h : bit (s.rd bFIO FIO_DI) 0 = 1) (hd : Store.get 0 s.field.diRise 0 + 3000000000 ≤ s.now) : s.di0Held = true := by
  simp only [State.di0Held, h, beq_self_eq_true, Bool.true_and, decide_eq_true_eq]
  omega

/-- The end of the listening (R96): a run of 16 counts, or the answer to the burst, settles the encoder's type. -/
theorem exec_encoderTypeTest {low : Bool} {high : Nat} (hon : s.sys.factory.on = true) (he : s.sys.factory.enc = 0)
    (hl : s.sys.factory.listenAt + 2000000000 ≤ (s.at τ).now) : exec (.encoderTypeTest τ low high) s = .next
      (if s.sys.factory.run16 then (s.at τ).setFac { s.sys.factory with enc := 1 }
       else if low ∧ 15000 ≤ high ∧ high ≤ 60000 then ((s.at τ).send (.ssiBurst 0 26 100000)).takeSsi
       else ((s.at τ).send (.ssiBurst 0 26 100000)).setFac { s.sys.factory with listenAt := (s.at τ).now, run := 0 }) := by
  refine congrArg Host.Outcome.next ((if_pos (by simp [hon, he, hl])).trans ?_)
  rw [State.at_sys]
  rfl

/-- What taking the encoder for SSI leaves (R96). -/
theorem State.takeSsi_spec (s : State) : s.takeSsi.sys.factory.enc = 2 ∧ s.takeSsi.rd (bSTP 0) STP_MODE_MODE = 1 ∧
    s.takeSsi.rd (bSTP 0) STP_SSI_BITS = 25 ∧ s.takeSsi.rd (bSTP 0) STP_SSI_CODE = 1 ∧ s.takeSsi.rd (bSTP 0) STP_SSI_CLKSEL = 2 ∧
    s.takeSsi.out = s.out := by
  refine ⟨rfl, ?_, ?_, ?_, ?_, rfl⟩ <;> dsimp only [State.takeSsi]
  · rw [State.rd_wr_ne _ _ _ _ _ _ (by decide), State.rd_wr_ne _ _ _ _ _ _ (by decide), State.rd_wr_ne _ _ _ _ _ _ (by decide)]
    exact State.rd_wr_same _ _ _ _ (by decide)
  · rw [State.rd_wr_ne _ _ _ _ _ _ (by decide), State.rd_wr_ne _ _ _ _ _ _ (by decide)]
    exact State.rd_wr_same _ _ _ _ (by decide)
  · rw [State.rd_wr_ne _ _ _ _ _ _ (by decide)]
    exact State.rd_wr_same _ _ _ _ (by decide)
  · exact State.rd_wr_same _ _ _ _ (by decide)

theorem State.at_teachStart (s : State) (τ : Nat) :
    (s.at τ).teachStart = (s.at τ).setFac { s.sys.factory with teach := some ([], []), teachFail := 0 } := by
  rw [State.teachStart, State.at_sys]

/-- The first measurement of a teach-in deviates from none and waits for 15 more (R100). -/
theorem State.teachMeasure_first (s : State) (codes : List (Int × Bool)) (m : Int) :
    s.teachMeasure codes [m] = s.setFac { s.sys.factory with teach := some (codes, [m]) } :=
  (if_neg (by simp)).trans (if_pos (.inl (by simp)))

/-- A code is counted by its verdict: with grade A to C good, otherwise bad (R98). -/
theorem Factory.counted (f : Factory) (pass : Bool) : (if pass then { f with good := f.good + 1 } else { f with bad := f.bad + 1 }) =
    { f with good := f.good + (if pass then 1 else 0), bad := f.bad + (if pass then 0 else 1) } := by
  cases pass <;> rfl

/-- While the factory program runs, a code is counted and goes where the teach-in and the distance say (R98, R103; log entry 113). -/
theorem exec_codeVerdict {c : Int} {decodes : Bool} {grade : Nat} (hon : s.sys.factory.on = true) :
    exec (.codeVerdict τ c decodes grade) s = .next
      (let f := s.sys.factory
       let pass := decodes && decide (grade ≤ 2)
       let f1 := { f with good := f.good + (if pass then 1 else 0), bad := f.bad + (if pass then 0 else 1) }
       match f.teach, f.dist with
       | some (codes, ms), _ => (s.at τ).setFac { f1 with teach := some (codes ++ [(c, pass)], ms), codes := f1.codes ++ [c] }
       | none, some d => ((s.at τ).setFac { f1 with codes := f1.codes ++ [c] }).factorySlot d (c, pass)
       | none, none => (s.at τ).setFac f1) := by
  refine congrArg Host.Outcome.next ((if_neg (by simp [hon])).trans ?_)
  dsimp only
  rw [Factory.counted, State.at_sys] <;> rfl

/-- A photo-eye count near no position of the list is near none of those that stay (R104). -/
theorem nearCode_none {d p : Int} {codes : List Int} {keep : Int → Bool} (h : ∀ c ∈ codes, ¬ 100 * (p - (c + d)).natAbs ≤ d.natAbs) :
    ¬ (codes.filter keep).any (nearCode d p) = true := by
  simp only [List.any_eq_true, not_exists, not_and]
  intro c hc
  simpa [nearCode] using h c (List.mem_of_mem_filter hc)

end Factory

/-- Settles O10: each command takes the branch that its conditions name. Codes that open no slot during a teach-in and the tests that begin
again are log entry 113, the console's numbers entry 32, the valve delay in force at once entry 111. -/
theorem factoryProgramTeachesAndCounts : Obligations.FactoryProgramTeachesAndCounts := by
  refine ⟨?discovery, ?incremental, ?ssi, ?again, ?teachIn, ?teach, ?firstEdge, ?unpaired, ?waiting, ?alone, ?slot, ?unmatched, ?status, ?valve⟩
  case discovery =>
    intro s τ hon hdisc hstep hsince
    refine congrArg Host.Outcome.next ((if_pos (by simp [hon, hdisc, hstep, hsince])).trans ?_)
    rw [State.discStep, State.at_camP, if_pos rfl]
  case incremental =>
    intro s τ low high hon he hl hrun
    rw [exec_encoderTypeTest hon he hl, if_pos hrun]
  case ssi =>
    intro s τ high hon he hl hrun hlo hhi
    obtain ⟨henc, hmode, hbits, hcode, hclk, hout⟩ := ((s.at τ).send (.ssiBurst 0 26 100000)).takeSsi_spec
    refine ⟨_, (exec_encoderTypeTest hon he hl).trans (congrArg Host.Outcome.next ((if_neg (by simp [hrun])).trans
      (if_pos ⟨rfl, hlo, hhi⟩))), henc, hmode, hbits, hcode, hclk, hout.trans ?_⟩
    rw [State.send, State.at_out]
  case again =>
    intro s τ low high hon he hl hrun hno
    rw [exec_encoderTypeTest hon he hl, if_neg (by simp [hrun]), if_neg]
    rintro ⟨hlow, hlo, hhi⟩
    rcases hno with h | h | h
    · exact absurd (h.symm.trans hlow) Bool.false_ne_true
    · omega
    · omega
  case teachIn =>
    intro s τ hon ht hcause
    refine congrArg Host.Outcome.next ((if_pos ?_).trans (State.at_teachStart s τ))
    refine ⟨by simp [hon], by simp [ht], hcause.imp (fun ⟨hdi, hheld⟩ => ?_) (fun ⟨hdist, hfail, hmoved⟩ => by simp [hdist, hfail, hmoved])⟩
    exact State.di0Held_of ((congrArg (bit · 0) (State.at_rd ..)).trans hdi) (by rwa [State.at_field])
  case teach =>
    intro s τ hon
    exact congrArg Host.Outcome.next ((if_pos (by simp [hon])).trans (State.at_teachStart s τ))
  case firstEdge =>
    intro s τ c r hon ht
    show Host.Outcome.next _ = _
    simp only [State.at_sys, hon, ht, List.nil_append, State.teachMeasure_first, State.at_stpP]
  case unpaired =>
    intro s τ ms hon ht
    show Host.Outcome.next _ = _
    simp only [State.at_sys, hon, ht, State.teachFail]
    rfl
  case waiting =>
    intro s τ c decodes grade codes ms hon ht
    rw [exec_codeVerdict hon]
    simp only [ht]
  case alone =>
    intro s τ c decodes grade hon ht hd
    rw [exec_codeVerdict hon]
    simp only [ht, hd]
  case slot =>
    intro s τ c decodes grade d hon ht hd
    rw [exec_codeVerdict hon]
    simp only [ht, hd]
  case unmatched =>
    intro s τ d hon ht hd hfar
    show Host.Outcome.next _ = _
    simp only [State.at_sys, hon, ht, hd, State.at_stpP]
    rw [if_neg (nearCode_none hfar)]
  case status =>
    intro s τ hon
    refine congrArg Host.Outcome.next ((if_pos (by simp [hon])).trans ?_)
    rw [State.say, State.at_rd, State.at_sys]
  case valve =>
    intro s τ n hon hn
    refine ⟨_, congrArg Host.Outcome.next (if_pos (by simp [hon, hn])), rfl, rfl, ?_⟩
    rw [State.facSet, State.act_wrAct_same _ _ _ _ (by decide)]
    exact Nat.mod_eq_of_lt (show n < 2 ^ 17 by omega)

end Sys2Proof.Machine
end

section
/-!
PROOFS. The cameras and the colorimetry unit: triggers, lines, the serial channel, patches and table loads; and two statements that a verdict
outside its range breaks.
-/

namespace Sys2Proof.Machine

/-! ### The acquisition side, beside verdicts, commits and events

What a judged line or patch sets off (the report of its check, the commits that follow, the switch to the fallback inspector, events and frames)
leaves the camera ports, the colorimetry unit and the fields in effect as they are: one lemma `…_acq` for each operation. -/

/-- The camera ports, the colorimetry unit and the fields in effect. -/
def State.acq (s : State) : Store CamPort × Clm × Store Word := (s.cam, s.clm, s.active)

section Acq
variable {s t : State}

theorem State.camP_of_acq (h : t.acq = s.acq) (n : Nat) : t.camP n = s.camP n := by
  rw [State.camP, show t.cam = s.cam from congrArg Prod.fst h, State.camP]

theorem State.clm_of_acq (h : t.acq = s.acq) : t.clm = s.clm := congrArg (fun x => x.2.1) h

theorem State.active_of_acq (h : t.acq = s.acq) : t.active = s.active := congrArg (fun x => x.2.2) h

theorem State.act_of_active (h : t.active = s.active) (b : Nat) (f : Fld) : t.act b f = s.act b f := by rw [State.act, h, State.act]

@[simp] theorem State.wr_acq (b : Nat) (f : Fld) (n : Nat) : (s.wr b f n).acq = s.acq := rfl
@[simp] theorem State.inc_acq (b : Nat) (f : Fld) (n : Nat) : (s.inc b f n).acq = s.acq := rfl
@[simp] theorem State.setHlt_acq (x : Halter) : (s.setHlt x).acq = s.acq := rfl
@[simp] theorem State.setField_acq (x : Field) : (s.setField x).acq = s.acq := rfl
@[simp] theorem State.setLnk_acq (x : Link) : (s.setLnk x).acq = s.acq := rfl
@[simp] theorem State.setMerge_acq (p k : Nat) (m : Option Merge) : (s.setMerge p k m).acq = s.acq := rfl
@[simp] theorem State.setSlot_acq (p k : Nat) (x : Option Slot) : (s.setSlot p k x).acq = s.acq := rfl
@[simp] theorem State.setSeq_acq (q : Nat) (x : KvSeq) : (s.setSeq q x).acq = s.acq := rfl
@[simp] theorem State.setStb_acq (b : Nat) (x : Option (Nat × Nat)) : (s.setStb b x).acq = s.acq := rfl

@[simp] theorem acq_ite {c : Prop} [Decidable c] {a b : State} : (if c then a else b).acq = if c then a.acq else b.acq :=
  apply_ite State.acq _ _ _

@[simp] theorem acq_foldl {α : Type} {f : State → α → State} (h : ∀ s x, (f s x).acq = s.acq) (l : List α) :
    (l.foldl f s).acq = s.acq := foldl_keeps State.acq fun s x _ => h s x

@[simp] theorem State.touch_acq (u : Nat) (wr : Bool) : (s.touch u wr).acq = s.acq := by
  unfold State.touch
  dsimp only
  split
  · rfl
  · split <;> rfl

@[simp] theorem State.inject_acq (a n : Nat) : (s.inject a n).acq = s.acq := by
  unfold State.inject
  split <;> rfl

@[simp] theorem State.write_acq (a : Nat) (bs : List Nat) : (s.write a bs).acq = s.acq :=
  (State.inject_acq _ _).trans (acq_foldl (fun _ _ => State.touch_acq _ _) (dramUnits a bs.length))

@[simp] theorem State.mergeQuiet_acq (u : Nat) : (s.mergeQuiet u).acq = s.acq := by
  unfold State.mergeQuiet
  split
  · rfl
  · dsimp only
    split <;> rfl

@[simp] theorem State.writeEdge_acq (q w first : Nat) (l : List (Nat × List Nat)) : (s.writeEdge q w first l).acq = s.acq := by
  simp [State.writeEdge, State.writeQuiet]

@[simp] theorem State.offer_acq (q code flags blk status : Nat) (args : List Nat) :
    (s.offer q code flags blk status args).acq = s.acq := by
  have queued (x : Store EvQueue) : ({ s with evqSeq := x } : State).acq = s.acq := rfl
  simp [State.offer, queued]

@[simp] theorem State.raise_acq (code blk a1 a2 a3 status : Nat) : (s.raise code blk a1 a2 a3 status).acq = s.acq := by
  simp [State.raise, State.raiseRaw]

@[simp] theorem State.sendFrame_acq (f : Frame) : (s.sendFrame f).acq = s.acq := by
  obtain ⟨_, _, _, h⟩ := s.sendFrame_sent f
  rw [h]
  rfl

@[simp] theorem State.updPage_acq (i : Nat) (f : KvPage → KvPage) : (s.updPage i f).acq = s.acq := by
  unfold State.updPage
  dsimp only
  split <;> rfl

theorem State.releaseList_acq (x : KvSeq) : (s.releaseList x).acq = s.acq := by
  refine acq_foldl (fun s e => ?_) _
  split
  · rfl
  · exact State.updPage_acq ..

@[simp] theorem State.closeSeq_acq (q : Nat) : (s.closeSeq q).acq = s.acq := by
  rw [State.closeSeq, State.showSlots, State.wr_acq, State.setSeq_acq, State.releaseList_acq]

@[simp] theorem State.settleCtx_acq (k : Nat) : (s.settleCtx k).acq = s.acq := by
  unfold State.settleCtx
  dsimp only
  split
  · rfl
  · split
    · rfl
    · split <;> rfl

@[simp] theorem State.slotCommit_acq (p k : Nat) (c : Commit) : (s.slotCommit p k c).acq = s.acq := by
  unfold State.slotCommit
  split
  · rfl
  · simp [State.closePart, State.settleCtxs]

@[simp] theorem State.slotToFb_acq (p k : Nat) : (s.slotToFb p k).acq = s.acq := by
  unfold State.slotToFb
  dsimp only
  repeat' split
  all_goals simp [State.fbCommit]

@[simp] theorem State.refreshFio_acq : s.refreshFio.acq = s.acq := by
  unfold State.refreshFio
  extract_lets driven shown f
  have hdriven : driven.acq = s.acq := foldl_keeps State.acq fun _ _ _ => rfl
  have hshown : shown.acq = s.acq := (State.wr_acq ..).trans hdriven
  split
  · rw [State.raise_acq, State.wr_acq, hshown]
  · rw [State.wr_acq, hshown]

@[simp] theorem State.safeReaction_acq (cause stage port : Nat) : (s.safeReaction cause stage port).acq = s.acq := by
  simp [State.safeReaction, State.writeEscalation]

@[simp] theorem State.upgReport_acq (ok : Bool) : (s.upgReport ok).acq = s.acq := by simp [State.upgReport]

@[simp] theorem State.switchPort_acq (cause stage p : Nat) : (s.switchPort cause stage p).acq = s.acq := by simp [State.switchPort]

@[simp] theorem State.stageFault_acq (stage code kind : Nat) : (s.stageFault stage code kind).acq = s.acq := by simp [State.stageFault]

@[simp] theorem State.stageReportAt_acq (p k stage : Nat) : (s.stageReportAt p k stage).acq = s.acq := by
  unfold State.stageReportAt
  split
  · rfl
  · simp

@[simp] theorem State.upgPart_acq (p : Nat) (start : Int) : (s.upgPart p start).acq = s.acq := by
  unfold State.upgPart
  split
  · simp
  · rfl

@[simp] theorem State.mergeCommit_acq (p k : Nat) : (s.mergeCommit p k).acq = s.acq := by
  unfold State.mergeCommit
  split
  · simp [State.sendSub]
  · rfl

/-- The report of a check, with all that follows from it. -/
@[simp] theorem State.checkReport_acq (p part c verdict status : Nat) (degraded : Bool) :
    (s.checkReport p part c verdict status degraded).acq = s.acq := by
  unfold State.checkReport
  split
  · exact State.stageFault_acq ..
  · split
    · exact State.stageFault_acq ..
    · simp

end Acq
/-! ### A camera port -/

@[simp] theorem State.setCam_camP (s : State) (n : Nat) (x : CamPort) : (s.setCam n x).camP n = x := Store.get_put_same

/-- What the triggers of a port have reached: the number of the next line, and the marks of position, time and input. -/
def CamPort.trig (x : CamPort) : Nat × Option Int × Nat × Nat := (x.next, x.hw, x.timeHw, x.diSeen)

/-- The lines of a port: those in flight, those judged, and what its triggers have reached. -/
def CamPort.queue (x : CamPort) : List CamLine × List CamLine × Nat × Option Int × Nat × Nat := (x.lines, x.judged, x.trig)

section Lines
variable {s : State} {n : Nat}

/-! ### A judged line (R124-R127) -/

@[simp] theorem State.camQuits_acq (n : Nat) : (s.camQuits n).acq = s.acq := by
  unfold State.camQuits
  split
  · split
    · exact acq_ite.trans (ite_self _)
    · rfl
  · rfl

theorem State.acqReport_queue : ((s.acqReport n).camP n).queue = (s.camP n).queue := by
  unfold State.acqReport
  dsimp only
  split
  · split
    · rfl
    · rw [State.camP_of_acq (State.camQuits_acq n), State.camP_of_acq (State.checkReport_acq ..), State.setCam_camP]
      rfl
  · rfl

/-- The last line of a part changes what the part's result counts, and no line. -/
theorem State.acqLine_queue (l : CamLine) : ((s.acqLine n l).camP n).queue = (s.camP n).queue := by
  unfold State.acqLine
  extract_lets q id report was begun x counted
  have hbegun : (begun.camP n).queue = (s.camP n).queue := by
    unfold begun
    split
    · rw [State.setCam_camP]
      exact State.acqReport_queue
    · rfl
  have hcounted : (counted.camP n).queue = (s.camP n).queue := by
    unfold counted
    split
    · exact hbegun
    · rw [State.setCam_camP]
      exact hbegun
  clear_value counted q
  split
  · split
    · exact State.acqReport_queue.trans hcounted
    · exact hcounted
  · exact hcounted

@[simp] theorem State.setCnt_acq (b : Nat) (f : Fld) (k : Nat) : (s.setCnt b f k).acq = s.acq := rfl

theorem State.endWindow_acq (x0 x1 lines : Nat) (a : Store Nat) : (s.endWindow n x0 x1 lines a).acq = s.acq := by
  unfold State.endWindow
  dsimp only
  rw [State.inc_acq]
  refine acq_foldl (fun s c => ?_) _
  rw [acq_foldl (fun s z => State.setCnt_acq ..), acq_foldl (fun s h => State.setCnt_acq ..)]

theorem State.camStats_queue (l : CamLine) : ((s.camStats n l).camP n).queue = (s.camP n).queue := by
  unfold State.camStats
  dsimp only
  split
  · split
    · rw [State.camP_of_acq (State.endWindow_acq ..), State.setCam_camP]
      rfl
    · rw [State.setCam_camP]
      rfl
  · rfl

theorem State.fbTake_acq (l : CamLine) : (s.fbTake n l).acq = s.acq := by
  unfold State.fbTake State.fbLine
  dsimp only
  split
  · split <;> rfl
  · rfl

/-- The oldest line leaves the port and joins the judged lines with the status of R124. -/
theorem State.lineDone_queue {l : CamLine} {r : List CamLine} (h : (s.camP n).lines = l :: r) :
    ∃ y, y.status = l.judge (s.camWidth n) (s.camChans n) ∧
      ((s.lineDone n).camP n).queue = (r, (s.camP n).judged ++ [y], (s.camP n).trig) := by
  unfold State.lineDone
  extract_lets x chans pad
  split
  next e => exact absurd (e.symm.trans h) (List.cons_ne_nil _ _).symm
  next l' r' e =>
  obtain ⟨rfl, rfl⟩ := List.cons.inj (e.symm.trans h)
  extract_lets st judged kept counted taken
  have hcounted : (counted.camP n).queue = (r', (s.camP n).judged ++ [kept], (s.camP n).trig) := by
    unfold counted
    rw [State.camP_of_acq (State.inc_acq ..), State.setCam_camP]
    rfl
  have htaken : (taken.camP n).queue = (counted.camP n).queue := by
    unfold taken
    split
    · rfl
    · exact State.camStats_queue _
  refine ⟨kept, ?_, ?_⟩
  · unfold kept
    split <;> rfl
  · rw [State.acqLine_queue, State.camP_of_acq (State.fbTake_acq _), htaken, hcounted]

theorem State.lineDone_trig : ((s.lineDone n).camP n).trig = (s.camP n).trig := by
  cases h : (s.camP n).lines with
  | nil => rw [State.lineDone, h]
  | cons l r =>
    obtain ⟨y, -, hq⟩ := State.lineDone_queue h
    exact congrArg (fun x => x.2.2) hq

/-- Late lines that are judged leave what the triggers have reached. -/
theorem State.settleLines_trig (fuel : Nat) : ((State.settleLines fuel s n).camP n).trig = (s.camP n).trig := by
  induction fuel generalizing s with
  | zero => rfl
  | succ fuel ih =>
    rw [State.settleLines]
    split
    · split
      · exact ih.trans State.lineDone_trig
      · rfl
    · rfl

/-- With no line late there is none to judge. -/
theorem State.settleLines_inTime (fuel : Nat) (h : ∀ l ∈ (s.camP n).lines, l.late = false) : State.settleLines fuel s n = s := by
  cases fuel with
  | zero => rfl
  | succ fuel =>
    rw [State.settleLines]
    split
    next l r hl => rw [if_neg (by simp [h l (hl ▸ List.mem_cons_self)])]
    · rfl

end Lines

/-! ### Triggers (R114-R119) -/

section Triggers
variable {s : State} {n τ : Nat}

/-- The lines that one trigger of a port makes (R119). -/
def State.linesPerTrigger (s : State) (n : Nat) : Nat :=
  if s.act (bCAM n) CAM_LINECFG_MODE = 1 then s.act (bCAM n) CAM_TRIG_FRAME_H else 1

/-- The triggers of a port have made `h` further lines. -/
def CamPort.trigPlus (x : CamPort) (h : Nat) : Nat × Option Int × Nat × Nat := (x.next + h, x.hw, x.timeHw, x.diSeen)

theorem CamPort.trigPlus_of_trig {x y : CamPort} (h : x.trig = y.trig) (k : Nat) : x.trigPlus k = y.trigPlus k := by
  simp only [CamPort.trig, Prod.mk.injEq] at h
  obtain ⟨hnext, hhw, htime, hdi⟩ := h
  rw [CamPort.trigPlus, hnext, hhw, htime, hdi, CamPort.trigPlus]

theorem State.addLines_trig (k pos : Int) (late : Bool) :
    ((s.addLines n k pos late).camP n).trig = (s.camP n).trigPlus (s.linesPerTrigger n) := by
  unfold State.addLines
  rw [State.settleLines_trig, State.setCam_camP]
  rfl

/-- What the triggers of a port have reached, and the fields in effect. -/
def State.reached (s : State) (n : Nat) : (Nat × Option Int × Nat × Nat) × Store Word := ((s.camP n).trig, s.active)

theorem State.reached_of_acq {t : State} (h : t.acq = s.acq) : t.reached n = s.reached n := by
  rw [State.reached, State.camP_of_acq h, State.active_of_acq h, State.reached]

theorem State.setCam_reached {x : CamPort} (h : x.trig = (s.camP n).trig) : (s.setCam n x).reached n = s.reached n := by
  rw [State.reached, State.setCam_camP, h]
  rfl

theorem State.linesPerTrigger_of_reached {t : State} (h : t.reached n = s.reached n) : t.linesPerTrigger n = s.linesPerTrigger n := by
  have hactive : t.active = s.active := congrArg Prod.snd h
  rw [State.linesPerTrigger, State.act_of_active hactive, State.act_of_active hactive, State.linesPerTrigger]

/-- A link that returned may send triggers again. -/
theorem State.resumeAt_reached (pos : Int) : (s.resumeAt n pos).reached n = s.reached n := by
  unfold State.resumeAt
  dsimp only
  split
  · split
    · split
      · exact State.setCam_reached rfl
      · rfl
    · rfl
  · rfl

theorem State.strobe_acq (b src : Nat) : (s.strobe b src).acq = s.acq := by
  unfold State.strobe
  split
  · rw [acq_ite, State.inc_acq, State.setStb_acq, ite_self]
  · rfl

theorem State.camStrobes_acq : (s.camStrobes n).acq = s.acq :=
  acq_foldl (fun s b => by
    split
    · exact State.strobe_acq ..
    · rfl) _

/-- The trigger goes out with its strobes. -/
theorem State.sendTrigger_reached (k : Int) : (s.sendTrigger n k).reached n = s.reached n := by
  unfold State.sendTrigger
  extract_lets x sent pcam value out
  have hsent : sent.reached n = s.reached n := State.setCam_reached rfl
  have hout : out.reached n = sent.reached n := by
    unfold out
    split
    next h =>
      subst h
      exact State.setCam_reached rfl
    · rfl
  rw [State.reached_of_acq State.camStrobes_acq, hout, hsent]

/-- Outside the end of a job, a trigger of a port that streams and is not `OFF` makes its lines, whether it is sent or not. -/
theorem State.camTrigger_trig (hs : s.streams n = true) (hf : s.fsm (bCAM n) ≠ fOFF) (he : s.lnk.ending = false) (k pos : Int) :
    ((s.camTrigger n k pos).camP n).trig = (s.camP n).trigPlus (s.linesPerTrigger n) := by
  have made {t : State} (ht : t.reached n = s.reached n) (late : Bool) :
      ((t.addLines n k pos late).camP n).trig = (s.camP n).trigPlus (s.linesPerTrigger n) := by
    have hx : (t.camP n).trig = (s.camP n).trig := congrArg Prod.fst ht
    rw [State.addLines_trig, State.linesPerTrigger_of_reached ht, CamPort.trigPlus_of_trig hx]
  unfold State.camTrigger
  rw [if_neg (by simp [hs, hf]), if_neg (by simp [he])]
  extract_lets resumed early
  have hresumed : resumed.reached n = s.reached n := State.resumeAt_reached pos
  split
  · exact made hresumed true
  · split
    · exact made ((State.reached_of_acq (State.inc_acq ..)).trans hresumed) true
    · exact made ((State.sendTrigger_reached k).trans hresumed) false

@[simp] theorem State.at_takesData (s : State) (τ n : Nat) : (s.at τ).takesData n = s.takesData n := by simp [State.takesData, State.isOn]

@[simp] theorem State.at_factoryCam (s : State) (τ n : Nat) : (s.at τ).factoryCam n = s.factoryCam n := by simp [State.factoryCam]

@[simp] theorem State.at_streams (s : State) (τ n : Nat) : (s.at τ).streams n = s.streams n := by simp [State.streams]

@[simp] theorem State.setCam_streams (s : State) (m n : Nat) (x : CamPort) : (s.setCam m x).streams n = s.streams n := rfl

@[simp] theorem State.setCam_fsm (s : State) (m b : Nat) (x : CamPort) : (s.setCam m x).fsm b = s.fsm b := rfl

@[simp] theorem State.at_trigSrc (s : State) (τ n : Nat) : (s.at τ).trigSrc n = s.trigSrc n := by simp [State.trigSrc]

/-- A trigger that sets its mark at a later moment adds its lines to the port's count. -/
theorem State.marked_camTrigger_trig (hs : s.streams n = true) (hf : s.fsm (bCAM n) ≠ fOFF) (he : s.lnk.ending = false) (x : CamPort)
    (k pos : Int) :
    ((((s.at τ).setCam n x).camTrigger n k pos).camP n).trig = x.trigPlus (s.linesPerTrigger n) := by
  have hlines : ((s.at τ).setCam n x).linesPerTrigger n = s.linesPerTrigger n := by simp [State.linesPerTrigger]
  rw [State.camTrigger_trig (by simpa using hs) (by simpa using hf) (by simpa using he), State.setCam_camP, hlines]

/-- A trigger that a jump of the time base has stepped over makes the same lines, late (R464). -/
theorem State.marked_addLines_trig (x : CamPort) (k pos : Int) :
    ((((s.at τ).setCam n x).addLines n k pos true).camP n).trig = x.trigPlus (s.linesPerTrigger n) := by
  have hlines : ((s.at τ).setCam n x).linesPerTrigger n = s.linesPerTrigger n := by simp [State.linesPerTrigger]
  rw [State.addLines_trig, State.setCam_camP, hlines]

/-- A position trigger that is reached, not moving backward and not held by an epoch, is taken (R115). -/
theorem exec_positionTrigger {src : Nat} {h : Int} {g : Int × Int} (hg : nextTrigger ((s.at τ).trigStep n) ((s.at τ).trigPhase n) h = g)
    (hp : n < 9) (hsrc : (s.at τ).trigSrc n = src + 1) (hlt : src < 2) (hgrid : (s.at τ).gridOk n = true) (hh : (s.camP n).hw = some h)
    (hpos : g.2 ≤ (s.at τ).pos src) (hspeed : 0 ≤ (s.at τ).speed src) (hbar : (s.at τ).epochBars src g.2 = false) :
    exec (.positionTrigger τ n) s = .next (((s.at τ).setCam n { s.camP n with hw := some g.2 }).camTrigger n g.1 g.2) := by
  refine congrArg Host.Outcome.next ((if_pos ⟨hp, by omega, hgrid⟩).trans ?_)
  simp only [State.at_camP, hh, hsrc, Nat.add_sub_cancel, hg]
  rw [if_pos ⟨hpos, hspeed, by simp [hbar]⟩]

/-- The trigger grid of a port that the factory program does not drive does not change with time. -/
theorem State.at_grid (h : s.trigSrc n = 3) : (s.at τ).trigStep n = s.trigStep n ∧ (s.at τ).trigPhase n = s.trigPhase n ∧
    (s.at τ).gridOk n = s.gridOk n := by
  have hfac : s.factoryCam n = false := by
    rw [State.trigSrc] at h
    by_contra hon
    rw [if_pos (by simpa using hon)] at h
    omega
  have hstep : (s.at τ).trigStep n = s.trigStep n := by simp [State.trigStep, hfac]
  have hphase : (s.at τ).trigPhase n = s.trigPhase n := by simp [State.trigPhase]
  exact ⟨hstep, hphase, by rw [State.gridOk, hstep, hphase, State.gridOk]⟩

/-- A time trigger that is due makes lines: late ones when a jump of the time base has stepped over it (R114, R464). -/
theorem exec_timeTrigger {x : Nat} (hx : nextInstant (s.trigStep n * 16777216) (s.trigPhase n * 16777216) (s.camP n).timeHw = x)
    (hp : n < 9) (hsrc : s.trigSrc n = 3) (hgrid : s.gridOk n = true) (hdue : x ≤ (s.at τ).tb.time) (hs : s.streams n = true)
    (hf : s.fsm (bCAM n) ≠ fOFF) : ∃ k pos, exec (.timeTrigger τ n) s = .next
      (if (s.at τ).steppedOver x then ((s.at τ).setCam n { s.camP n with timeHw := x }).addLines n k pos true
       else ((s.at τ).setCam n { s.camP n with timeHw := x }).camTrigger n k pos) := by
  obtain ⟨hstep, hphase, hok⟩ := State.at_grid (τ := τ) hsrc
  refine ⟨((x : Int) % tbSecUnit - (s.trigPhase n * 16777216 : Nat)) / (s.trigStep n * 16777216 : Nat), (s.at τ).pos ((s.at τ).camStp n),
    congrArg Host.Outcome.next ((if_pos ⟨hp, by simpa using hsrc, hok.trans hgrid⟩).trans ?_)⟩
  simp only [hstep, hphase, State.at_camP, hx]
  rw [if_pos hdue]
  simp [hs, hf]

/-- An edge of the selected input that the port has not taken is taken (R114). -/
theorem exec_diTrigger (hp : n < 9) (hsrc : s.trigSrc n = 4)
    (hnew : (s.camP n).diSeen < Store.get 0 s.field.diRise (s.act (bCAM n) CAM_TRIG_DI_SEL)) :
    exec (.diTrigger τ n) s = .next (((s.at τ).setCam n { s.camP n with diSeen := (s.at τ).now + 1 }).camTrigger n (s.camP n).next
      ((s.at τ).pos ((s.at τ).camStp n))) := by
  refine congrArg Host.Outcome.next ((if_pos ⟨hp, by simpa using hsrc, by simpa using hnew⟩).trans ?_)
  rw [State.at_camP]

end Triggers

/-- Settles O14: each command sets the mark of its kind, and the trigger then adds its lines (`marked_camTrigger_trig`). -/
theorem triggersMakeLines : Obligations.TriggersMakeLines := by
  refine ⟨?position, ?time, ?input⟩
  case position =>
    intro s τ p src h hp hsrc hlt hstep hphase hgrid hh hpos hspeed hbar hs hf he
    rw [← hstep, ← hphase] at hpos hbar ⊢
    have htrig := State.marked_camTrigger_trig (τ := τ) hs hf he
      { s.camP p with hw := some (nextTrigger ((s.at τ).trigStep p) ((s.at τ).trigPhase p) h).2 }
    exact ⟨_, exec_positionTrigger rfl hp hsrc hlt hgrid hh hpos hspeed hbar, congrArg (fun y => y.2.1) (htrig ..),
      congrArg (fun y => y.1) (htrig ..)⟩
  case time =>
    intro s τ p hp hsrc hgrid hdue hs hf he
    obtain ⟨k, pos, hx⟩ := exec_timeTrigger rfl hp hsrc hgrid hdue hs hf
    refine ⟨_, hx, ?_⟩
    split
    · have htrig := s.marked_addLines_trig (τ := τ) (n := p)
        { s.camP p with timeHw := nextInstant (s.trigStep p * 16777216) (s.trigPhase p * 16777216) (s.camP p).timeHw }
      exact ⟨congrArg (fun y => y.2.2.1) (htrig k pos), congrArg (fun y => y.1) (htrig k pos)⟩
    · have htrig := State.marked_camTrigger_trig (τ := τ) hs hf he
        { s.camP p with timeHw := nextInstant (s.trigStep p * 16777216) (s.trigPhase p * 16777216) (s.camP p).timeHw }
      exact ⟨congrArg (fun y => y.2.2.1) (htrig k pos), congrArg (fun y => y.1) (htrig k pos)⟩
  case input =>
    intro s τ p hp hsrc hnew hs hf he
    have htrig := State.marked_camTrigger_trig (τ := τ) hs hf he { s.camP p with diSeen := (s.at τ).now + 1 }
    exact ⟨_, exec_diTrigger hp hsrc hnew, congrArg (fun y => y.2.2.2) (htrig ..), congrArg (fun y => y.1) (htrig ..)⟩

/-! ### The parallel port and its serial channel (R121, R123, R132) -/

section Parallel
variable {s : State} {n τ : Nat}

/-- Whether a first pixel that came `ago` ns before now finds its line in time (R124). -/
def State.lineInTime (s : State) (n ago : Nat) (l : CamLine) : Prop :=
  l.late = false ∧ (l.first = true ∨ s.now ≤ l.trigAt + s.act (bCAM n) CAM_DMG_LATE_US * 1000 + ago)

theorem State.lineInTime_stays {ago : Nat} {l : CamLine} (h : s.lineInTime n ago l) :
    (l.late || (!l.first && decide (l.trigAt + s.act (bCAM n) CAM_DMG_LATE_US * 1000 + ago < s.now))) = l.late := by
  obtain ⟨-, hfirst | hnow⟩ := h
  · simp [hfirst]
  · simp [Nat.not_lt.2 hnow]

/-- Where every line is in time, none becomes late. -/
theorem State.lateLines_inTime {ago : Nat} (h : ∀ l ∈ (s.camP n).lines, s.lineInTime n ago l) :
    s.lateLines n ago = s.setCam n (s.camP n) := by
  unfold State.lateLines State.mapLines
  dsimp only
  rw [List.map_congr_left (g := id), List.map_id]
  · refine State.settleLines_inTime _ fun l hl => ?_
    rw [State.setCam_camP] at hl
    exact (h l hl).1
  · exact fun l hl => congrArg (fun late => { l with late := late }) (State.lineInTime_stays (h l hl))

/-- The oldest line ends with no late line behind it: it alone is judged. -/
theorem State.endLine_queue {l : CamLine} {r : List CamLine} (h : (s.camP n).lines = l :: r) (hr : ∀ x ∈ r, x.late = false) :
    ∃ y, y.status = l.judge (s.camWidth n) (s.camChans n) ∧
      ((s.endLine n).camP n).queue = (r, (s.camP n).judged ++ [y], (s.camP n).trig) := by
  obtain ⟨y, hy, hq⟩ := State.lineDone_queue h
  have hlines : ((s.lineDone n).camP n).lines = r := congrArg Prod.fst hq
  refine ⟨y, hy, ?_⟩
  unfold State.endLine
  dsimp only
  rw [State.settleLines_inTime _ (by rwa [hlines]), hq]

/-- The first pixel leaves what a line is judged by. -/
theorem State.intake_judge (l : CamLine) (pix : List Nat) (w c : Nat) :
    { s.intake n l with pix := pix : CamLine }.judge w c = { l with first := true, pix := pix : CamLine }.judge w c := by
  unfold State.intake
  split <;> rfl

/-- Whether the valid signals in use let a sampling edge of the parallel port through (R121). -/
def State.takesEdge (s : State) (e : Nat) : Bool :=
  (s.act bPCAM PCAM_IFCFG_USE_DVAL != 1 || bit e 24 == 1) && (s.act bPCAM PCAM_IFCFG_USE_FVAL != 1 || bit e 25 == 1)

/-- The samples of the sampling edges that are let through. -/
def State.edgeSamples (s : State) (edges : List Nat) : List Nat :=
  (edges.filter s.takesEdge).flatMap (fun e => pcamSamples (s.act bPCAM PCAM_IFCFG_FORMAT_P) (bits e 0 24))

@[simp] theorem State.at_takesEdge (s : State) (τ : Nat) : (s.at τ).takesEdge = s.takesEdge := by
  funext e
  simp [State.takesEdge]

@[simp] theorem State.at_edgeSamples (s : State) (τ : Nat) : (s.at τ).edgeSamples = s.edgeSamples := by
  funext edges
  simp [State.edgeSamples]

/-- The parallel port once the samples of its oldest line are in. -/
def State.pcamFilled (s : State) (edges : List Nat) : State :=
  (s.setCam 8 (s.camP 8)).onHead 8 (fun l => { (s.setCam 8 (s.camP 8)).intake 8 l with pix := l.pix ++ s.edgeSamples edges })

theorem exec_pcamLineEnd {idx ago : Nat} {edges : List Nat} {l : CamLine} {r : List CamLine} (hd : s.takesData 8 = true)
    (hl : (s.camP 8).lines = l :: r) (hi : l.idx ≤ idx) (ht : ∀ x ∈ (s.camP 8).lines, (s.at τ).lineInTime 8 ago x)
    (he : edges.any s.takesEdge = true) : exec (.pcamLineEnd τ idx ago edges) s = .next (((s.at τ).pcamFilled edges).endLine 8) := by
  have hd' : (s.at τ).takesData 8 = true := (State.at_takesData ..).trans hd
  have hport : ((s.at τ).camP 8).lines = l :: r := by rw [State.at_camP, hl]
  have htime : (s.at τ).lateLines 8 ago = (s.at τ).setCam 8 ((s.at τ).camP 8) := State.lateLines_inTime (by rwa [State.at_camP])
  have hdata : ((s.at τ).setCam 8 ((s.at τ).camP 8)).takesData 8 = true := by
    rw [State.takesData, State.setCam_camP]
    exact hd'
  have hany : (!(edges.filter (s.at τ).takesEdge).isEmpty) = true := by
    simpa [List.filter_eq_nil_iff] using he
  refine congrArg Host.Outcome.next ?_
  dsimp only
  rw [if_pos hd', htime]
  refine if_pos ⟨hdata, ?_, hany⟩
  rw [State.setCam_camP, hport]
  exact decide_eq_true hi

/-- The width and the channels of the parallel port are fields in effect. -/
theorem State.pcamFormat_of_active {t : State} (h : t.active = s.active) : t.camWidth 8 = s.camWidth 8 ∧ t.camChans 8 = s.camChans 8 := by
  simp [State.camWidth, State.camChans, State.camFormat, State.act_of_active h]

/-- Filling the oldest line changes that line alone. -/
theorem State.pcamFilled_spec (edges : List Nat) {l : CamLine} {r : List CamLine} (h : (s.camP 8).lines = l :: r) :
    ∃ m, (∀ w c, m.judge w c = { l with first := true, pix := l.pix ++ s.edgeSamples edges : CamLine }.judge w c) ∧
      (s.pcamFilled edges).camP 8 = { s.camP 8 with lines := m :: r } ∧ (s.pcamFilled edges).active = s.active := by
  refine ⟨_, State.intake_judge (s := s.setCam 8 (s.camP 8)) (n := 8) l _, ?_⟩
  unfold State.pcamFilled State.onHead
  simp only [State.setCam_camP, h, State.setCam_active, and_self]

theorem State.answer_acq (status : Nat) (data : List Nat) : (s.answer status data).acq = s.acq := rfl

theorem State.answer_data (status : Nat) (data : List Nat) : (s.answer status data).resp.data = data := rfl

theorem State.serFlags_acq : s.serFlags.acq = s.acq := rfl

theorem State.serFlags_txFull : s.serFlags.rd bPCAM PCAM_SERDATA_TX_FULL = if 16 ≤ (s.camP 8).tx.length then 1 else 0 := by
  refine (State.rd_wr_ne _ _ _ _ _ _ (by decide)).trans ((State.rd_wr_same _ _ _ _ (by decide)).trans ?_)
  split <;> rfl

theorem State.serFlags_rxValid : s.serFlags.rd bPCAM PCAM_SERDATA_RX_VALID = if (s.camP 8).rx.isEmpty then 0 else 1 := by
  refine (State.rd_wr_same _ _ _ _ (by decide)).trans ?_
  split <;> rfl

theorem exec_pcamSerdataWrite {i v : Nat} (ha : s.regAllowed i true bPCAM 0x124 = true) (hd : s.domOn bPCAM = true)
    (ht : (s.camP 8).tx.length < 16) : exec (.pcamSerdataWrite τ i v) s = .next
      ((s.at τ).setCam 8 { s.camP 8 with tx := (s.camP 8).tx ++ [bits v 0 8] }).serFlags := by
  rw [← State.at_camP s τ]
  exact congrArg Host.Outcome.next ((if_neg (by simp [ha])).trans (if_neg (by simpa [hd] using ht)))

theorem exec_pcamSerdataRead {i : Nat} (ha : s.regAllowed i false bPCAM 0x124 = true) (hd : s.domOn bPCAM = true) :
    exec (.pcamSerdataRead τ i) s = .next ((((s.at τ).setCam 8 { s.camP 8 with rx := (s.camP 8).rx.tail }).serFlags).answer 0
      [(if 16 ≤ (s.camP 8).tx.length then 512 else 0) + (if (s.camP 8).rx.isEmpty then 0 else 256) + nth 0 (s.camP 8).rx 0]) := by
  rw [← State.at_camP s τ]
  exact congrArg Host.Outcome.next ((if_neg (by simp [ha])).trans (if_neg (by simp [hd])))

theorem exec_serialByteReceived {x : Nat} (hd : s.domOn bPCAM = true) (hr : (s.camP 8).rx.length < 16) :
    exec (.serialByteReceived τ x) s = .next ((s.at τ).setCam 8 { s.camP 8 with rx := (s.camP 8).rx ++ [x % 256] }).serFlags := by
  rw [← State.at_camP s τ]
  exact congrArg Host.Outcome.next (if_pos (by simpa [hd] using hr))

theorem exec_serialByteSent {x : Nat} {r : List Nat} (hx : (s.camP 8).tx = x :: r) :
    exec (.serialByteSent τ) s = .next (((s.at τ).setCam 8 { s.camP 8 with tx := r }).send (.serial x)).serFlags := by
  show Host.Outcome.next _ = _
  simp only [State.at_camP, hx]

theorem exec_cc0PulseEnd {e : Nat} (hc : (s.camP 8).cc0 = some e) (he : e ≤ (s.at τ).now) :
    exec (.cc0PulseEnd τ) s = .next ((s.at τ).setCam 8 { s.camP 8 with cc0 := none }) := by
  show Host.Outcome.next _ = _
  simp only [State.at_camP, hc]
  rw [if_pos he]

end Parallel

/-- Settles O16: the line is filled and alone judged (`pcamFilled_spec`, `endLine_queue`); the serial commands change one buffer each, and
`serFlags` shows the flags that follow. -/
theorem parallelPortAndSerialChannel : Obligations.ParallelPortAndSerialChannel := by
  refine ⟨?line, ?pulse, ?write, ?read, ?received, ?sent⟩
  case line =>
    intro s τ idx ago edges l r hd hl hi hlate hfirst hr he
    have ht : ∀ x ∈ (s.camP 8).lines, (s.at τ).lineInTime 8 ago x := by
      rw [hl]
      simpa [State.lineInTime, hlate] using ⟨hfirst, hr⟩
    obtain ⟨m, hjudge, hport, hactive⟩ := State.pcamFilled_spec (s := s.at τ) edges (by rwa [State.at_camP])
    obtain ⟨y, hy, hq⟩ := State.endLine_queue (s := (s.at τ).pcamFilled edges) (n := 8) (by rw [hport]) fun x hx => (hr x hx).1
    refine ⟨_, exec_pcamLineEnd hd hl hi ht he, congrArg Prod.fst hq, ?_⟩
    have hjudged : (((s.at τ).pcamFilled edges).endLine 8 |>.camP 8).judged = (s.camP 8).judged ++ [y] := by
      rw [← State.at_camP s τ]
      exact (congrArg (fun x => x.2.1) hq).trans (by rw [hport])
    rw [hjudged, List.map_append, List.map_singleton, hy, hjudge]
    obtain ⟨hwidth, hchans⟩ := State.pcamFormat_of_active (hactive.trans (State.at_active s τ))
    rw [hwidth, hchans, State.at_edgeSamples]
    rfl
  case pulse => exact fun s τ e hc he => exec_cc0PulseEnd hc he
  case write =>
    intro s τ i v ha hd ht
    refine ⟨_, exec_pcamSerdataWrite ha hd ht, ?_, ?_⟩
    · rw [State.camP_of_acq State.serFlags_acq, State.setCam_camP]
      simp [bits]
    · rw [State.serFlags_txFull, State.setCam_camP, List.length_append, List.length_singleton]
      exact if_congr (by omega) rfl rfl
  case read =>
    intro s τ i ha hd
    refine ⟨_, exec_pcamSerdataRead ha hd, ?_, ?_⟩
    · rw [State.camP_of_acq (State.answer_acq ..), State.camP_of_acq State.serFlags_acq, State.setCam_camP]
    · rw [State.answer_data]
      cases (s.camP 8).rx <;> rfl
  case received =>
    intro s τ x hd hr
    refine ⟨_, exec_serialByteReceived hd hr, ?_, ?_⟩
    · rw [State.camP_of_acq State.serFlags_acq, State.setCam_camP]
    · rw [State.serFlags_rxValid, State.setCam_camP]
      simp
  case sent =>
    intro s τ x r hx
    refine ⟨_, exec_serialByteSent hx, ?_, ?_⟩
    · rw [State.camP_of_acq State.serFlags_acq]
      exact congrArg CamPort.tx (State.setCam_camP ..)
    · exact congrArg (Out.serial x :: ·) (State.at_out s τ)

/-! ### Patches (R134-R139) -/

section Colour
variable {s : State} {τ p part k : Nat}

@[simp] theorem State.at_isOn (s : State) (τ b : Nat) : (s.at τ).isOn b = s.isOn b := by simp [State.isOn]

@[simp] theorem State.at_runs (s : State) (τ b : Nat) : (s.at τ).runs b = s.runs b := by simp [State.runs]

@[simp] theorem State.at_patchesOf (s : State) (τ p part : Nat) : (s.at τ).patchesOf p part = s.patchesOf p part := by
  simp [State.patchesOf]

@[simp] theorem State.at_patchDone (s : State) (τ p part k : Nat) : (s.at τ).patchDone p part k = s.patchDone p part k := by
  simp [State.patchDone]

@[simp] theorem State.at_tanPart (s : State) (τ n part : Nat) : (s.at τ).tanPart n part = s.tanPart n part := by
  simp [State.tanPart, State.tanP]

/-- A result joins those of the parts that still have slots. -/
def State.keepResult (s : State) (r : List Nat) : State :=
  s.setClm { s.clm with results := s.clm.results.filter (fun r => (s.slotOfPart (nth 0 r 0) (nth 0 r 1)).isSome) ++ [r] }

theorem State.patchDone_keepResult (v : List Nat) : (s.keepResult ([p, part, k] ++ v)).patchDone p part k = true := by
  simp [State.keepResult, State.patchDone, nth]

theorem State.colourCheck_acq : (s.colourCheck p part).acq = s.acq := by
  unfold State.colourCheck
  dsimp only
  split
  · exact State.checkReport_acq ..
  · rfl

/-- A patch whose lines have passed stage 2 and that has no result is judged. -/
theorem exec_patchJudged {x : Patch} {q : TanPart} (hx : (s.patchesOf p part).find? (fun e => e.1 == k) = some (k, x))
    (hq : s.tanPart x.cam part = some q) (hclm : s.isOn bCLM = true) (htan : s.runs bTAN = true) (hp : q.stp = p) (hskip : q.skip = false)
    (hrows : x.y0 + x.h ≤ q.rows.length) (hnew : s.patchDone p part k = false) : exec (.patchJudged τ p part k) s = .next
      (((s.at τ).keepResult ([p, part, k] ++ judgePatch ((s.at τ).clmFor p q.start) x (q.patchPixels x))).colourCheck p part) := by
  show Host.Outcome.next _ = _
  simp only [State.at_patchesOf, hx, State.at_tanPart, hq]
  rw [if_pos (by simp [hclm, htan, hp, hskip, hrows, hnew])]
  rfl

theorem exec_patchJudged_again (h : s.patchDone p part k = true) : exec (.patchJudged τ p part k) s = .next (s.at τ) := by
  refine congrArg Host.Outcome.next ?_
  dsimp only
  split
  · split
    · exact if_neg (by simp [h])
    · rfl
  · rfl

/-! ### Table loads (R141) -/

/-- The write of `CLM_TLOAD` sets `SET` before it does anything else. -/
def State.tloadSet (s : State) (v : Nat) : State := s.wr bCLM CLM_TLOAD_SET (bits v 4 4)

theorem State.tloadSet_rd {f : Fld} (v : Nat) (h : fkey bCLM CLM_TLOAD_SET ≠ fkey bCLM f) : (s.tloadSet v).rd bCLM f = s.rd bCLM f :=
  State.rd_wr_ne _ _ _ _ _ _ h

/-- With `GO` and no load running, a write starts a load or is refused. -/
theorem State.tloadWrite_go {v : Nat} (hrun : s.runs bCLM = true) (hgo : bit v 0 = 1) (hidle : s.rd bCLM CLM_TLOAD_BUSY = 0) :
    s.tloadWrite v = if 8 < bits v 4 4 ∨ s.rd64 bCLM CLM_TLOAD_LO CLM_TLOAD_HI % 64 ≠ 0 then
        (s.tloadSet v).wr bCLM CLM_TLOAD_LOAD_STATUS 0x0808
      else ((s.tloadSet v).setClm { s.clm with load := some (s.rd64 bCLM CLM_TLOAD_LO CLM_TLOAD_HI, bits v 4 4) }).wr bCLM CLM_TLOAD_BUSY 1 := by
  have hbusy : (s.tloadSet v).rd bCLM CLM_TLOAD_BUSY = 0 := (State.tloadSet_rd v (by decide)).trans hidle
  have hruns : (s.tloadSet v).runs bCLM = true := by
    rw [← hrun, State.runs, State.isOn, State.fsm, State.tloadSet_rd v (by decide), State.tloadSet_rd v (by decide), State.runs, State.isOn,
      State.fsm]
  have haddr : (s.tloadSet v).rd64 bCLM CLM_TLOAD_LO CLM_TLOAD_HI = s.rd64 bCLM CLM_TLOAD_LO CLM_TLOAD_HI := by
    rw [State.rd64, State.tloadSet_rd v (by decide), State.tloadSet_rd v (by decide), State.rd64]
  unfold State.tloadWrite
  rw [← State.tloadSet]
  dsimp only
  rw [if_neg (by simp [hgo, hbusy, hruns]), haddr]
  rfl

theorem exec_clmTload {i v : Nat} (ha : s.regAllowed i true bCLM 0x508 = true) (hd : s.domOn bCLM = true) :
    exec (.clmTload τ i v) s = .next ((s.at τ).tloadWrite v) :=
  congrArg Host.Outcome.next ((if_neg (by simp [ha])).trans (if_neg (by simp [hd])))

@[simp] theorem State.at_rd64 (s : State) (τ b : Nat) (lo hi : Fld) : (s.at τ).rd64 b lo hi = s.rd64 b lo hi := by simp [State.rd64]

theorem exec_clmTload_go {i v : Nat} (ha : s.regAllowed i true bCLM 0x508 = true) (hd : s.domOn bCLM = true) (hrun : s.runs bCLM = true)
    (hgo : bit v 0 = 1) (hidle : s.rd bCLM CLM_TLOAD_BUSY = 0) : exec (.clmTload τ i v) s = .next
      (if 8 < bits v 4 4 ∨ s.rd64 bCLM CLM_TLOAD_LO CLM_TLOAD_HI % 64 ≠ 0 then
        ((s.at τ).tloadSet v).wr bCLM CLM_TLOAD_LOAD_STATUS 0x0808
      else (((s.at τ).tloadSet v).setClm { s.clm with load := some (s.rd64 bCLM CLM_TLOAD_LO CLM_TLOAD_HI, bits v 4 4) }).wr
        bCLM CLM_TLOAD_BUSY 1) := by
  rw [exec_clmTload ha hd, State.tloadWrite_go (by simpa using hrun) hgo (by simpa using hidle), State.at_rd64, State.at_clm]

/-- The statuses of a read fit their field. -/
theorem State.hwRead_status_lt (i a n : Nat) : (s.hwRead i a n).2.1 < 65536 := by
  have hstore : (s.checkStore i false a n).2 < 65536 := by
    unfold State.checkStore
    split
    · exact show 0x0201 < 65536 by decide
    · split
      · exact show 0x0201 < 65536 by decide
      · exact show 0 < 65536 by decide
  unfold State.hwRead
  dsimp only
  split
  · exact hstore
  · split
    · exact show 0x0202 < 65536 by decide
    · dsimp only
      split <;> decide

/-- What shows of the colorimetry unit's load: whether it runs, its status, and what it loads. -/
def State.loadView (s : State) : Nat × Nat × Option (Nat × Nat) :=
  (s.rd bCLM CLM_TLOAD_BUSY, s.rd bCLM CLM_TLOAD_LOAD_STATUS, s.clm.load)

theorem State.setTable_loadView (set idx : Nat) (vs : List Nat) : (s.setTable set idx vs).loadView = s.loadView := rfl

theorem State.calibCommit_loadView (n : Nat) : (s.calibCommit n).loadView = s.loadView := by
  unfold State.calibCommit State.idEvent State.idStart
  dsimp only
  split <;> rfl

/-- A load that ends shows its status, whether its table is taken over or not. -/
theorem State.loadEnd_loadView {status : Nat} (h : status < 65536) :
    (((s.setClm { s.clm with load := none }).wr bCLM CLM_TLOAD_BUSY 0).wr bCLM CLM_TLOAD_LOAD_STATUS status).loadView = (0, status, none) := by
  have hbusy : (((s.setClm { s.clm with load := none }).wr bCLM CLM_TLOAD_BUSY 0).wr bCLM CLM_TLOAD_LOAD_STATUS status).rd bCLM
      CLM_TLOAD_BUSY = 0 := (State.rd_wr_ne _ _ _ _ _ _ (by decide)).trans (State.rd_wr_same _ _ _ _ (by decide))
  rw [State.loadView, hbusy, State.rd_wr_same _ _ _ _ (by decide)]
  exact congrArg (fun x => (0, x, none)) (Nat.mod_eq_of_lt h)

theorem clmTloadDone_completes {a set : Nat} (h : s.clm.load = some (a, set)) : Completes (.clmTloadDone τ) s (fun t =>
    t.loadView = (0, ((s.at τ).hwRead iTAN a (8 * tabEntries)).2.1, none)) := by
  refine ⟨_, rfl, ?_⟩
  simp only [State.at_clm, h]
  have hend := State.loadEnd_loadView (s := ((s.at τ).hwRead iTAN a (8 * tabEntries)).1) ((s.at τ).hwRead_status_lt iTAN a (8 * tabEntries))
  split
  · split
    · rw [State.calibCommit_loadView, State.setTable_loadView, hend]
    · rw [State.setTable_loadView, hend]
  · exact hend

end Colour

/-- Settles O17: a result ends the list and is found there; a load goes through `tloadWrite_go` and ends with the status of its read. -/
theorem colourimetryJudgesAndLoads : Obligations.ColourimetryJudgesAndLoads := by
  refine ⟨?judged, ?again, ?load, ?refused, ?done⟩
  case judged =>
    intro s τ p part k x q hx hq hclm htan hp hskip hrows hnew
    refine ⟨_, exec_patchJudged hx hq hclm htan hp hskip hrows hnew, ?_, ?_⟩
    · rw [State.clm_of_acq State.colourCheck_acq]
      exact List.getLast?_concat
    · rw [State.patchDone, State.clm_of_acq State.colourCheck_acq]
      exact State.patchDone_keepResult _
  case again => exact fun s τ p part k h => exec_patchJudged_again h
  case load =>
    intro s τ i v ha hd hrun hgo hidle hset haddr
    refine ⟨_, (exec_clmTload_go ha hd hrun hgo hidle).trans (congrArg Host.Outcome.next (if_neg (by omega))), ?_, ?_, rfl⟩
    · exact State.rd_wr_same _ _ _ _ (by decide)
    · refine (State.rd_wr_ne _ _ _ _ _ _ (by decide)).trans ((State.rd_wr_same _ _ _ _ (by decide)).trans ?_)
      exact Nat.mod_eq_of_lt (bits_lt ..)
  case refused =>
    intro s τ i v ha hd hrun hgo hidle hbad
    refine ⟨_, (exec_clmTload_go ha hd hrun hgo hidle).trans (congrArg Host.Outcome.next (if_pos hbad)), ?_, ?_, State.at_clm s τ⟩
    · exact State.rd_wr_same _ _ _ _ (by decide)
    · exact (State.rd_wr_ne _ _ _ _ _ _ (by decide)).trans ((State.tloadSet_rd v (by decide)).trans ((State.at_rd ..).trans hidle))
  case done =>
    intro s τ a set h
    obtain ⟨t, ht, hview⟩ := clmTloadDone_completes (τ := τ) h
    obtain ⟨hbusy, hstatus, hload⟩ : _ ∧ _ ∧ _ := by simpa only [State.loadView, Prod.mk.injEq] using hview
    exact ⟨t, ht, hbusy, hload, hstatus⟩

/-! ### Counters that a verdict out of range reaches

A commit counts at the place that its verdict has among the counters of the ejection unit, and a state may hold a result of the fallback inspector
with any number for a verdict.  When the report on a part without a slot switches its port to the fallback inspector (R484, R487), such a result is
committed, and the counter it names can be one of a camera port: the counters of the verdicts of ejection unit 0, 4 bytes each from offset 0x804,
reach offset 0x218 of camera port 0, two blocks on, with verdict 523,909 and offset 0x210 with verdict 523,907. -/

/-- A line whose data is corrupt. -/
def corruptLine : CamLine := { bad := true }

/-- Camera port 0, up and with a corrupt line in flight, counts lines of part 7, which has no slot; part 5 has one, and the fallback inspector
holds the verdict `v` for it. -/
def strayVerdict (v : Nat) : State :=
  ((((({ cam := [(0, { lines := [corruptLine], part := some 7 })],
         ejt := [(0, { slots := [(0, some { part := 5, start := 1000 })] })],
         hlt := { results := [(0, 5, v)] } } : State).wr (bCAM 0) COM_STATE_FSM fON).wr (bCAM 0) CAM_LINK_LINK_UP 1).wr
    (bSTP 0) COM_STATE_FSM fON).wr (bEJT 0) COM_STATE_FSM fON).wr bHLT HLT_STAT_FB_OK 1

/-- The late line of a lost link ends part 7, and the commit of part 5 counts a second loss. -/
theorem strayVerdict_linkLoss : ((strayVerdict 523909).dropLink 0 true).cnt (bCAM 0) CAM_CNT_LINKLOSS = 2 := by decide +kernel

/-- The corrupt line ends part 7, and the commit of part 5 counts a second corrupt line. -/
theorem strayVerdict_corruptLine : ((strayVerdict 523907).endLine 0).cnt (bCAM 0) (CAM_CNT_LINE 4) = 2 := by decide +kernel

theorem exec_camLinkLoss {s : State} {p : Nat} (hp : p < 8) (hl : s.rd (bCAM p) CAM_LINK_LINK_UP = 1) (τ : Nat) :
    exec (.camLinkLoss τ p) s = .next ((s.at τ).dropLink p true) :=
  congrArg Host.Outcome.next (if_pos ⟨hp, (State.at_rd ..).trans hl⟩)

/-- Refutes O13: its clauses on a lost link count one loss. On `strayVerdict 523909` the judgement of the line in flight leads to a commit that
counts at the same place, so that two are counted. -/
theorem not_cameraLinksComeAndGo : ¬ Obligations.CameraLinksComeAndGo := by
  intro h
  obtain ⟨-, -, -, -, -, -, loss, -⟩ := h
  have hup : (strayVerdict 523909).rd (bCAM 0) CAM_LINK_LINK_UP = 1 := by decide
  obtain ⟨t, ht, -, hcnt⟩ := loss (strayVerdict 523909) 0 0 (by decide) hup
  rw [exec_camLinkLoss (by decide) hup, State.at_of_le _ _ (by decide)] at ht
  rw [← Host.Outcome.next.inj ht, strayVerdict_linkLoss] at hcnt
  exact absurd hcnt (by decide)

theorem exec_lineEnd {s : State} {p : Nat} {l : CamLine} {r : List CamLine} (hp : p < 8) (hd : s.takesData p = true)
    (hl : (s.camP p).lines = l :: r) (he : l.first = true ∨ l.bad = true) (τ : Nat) :
    exec (.lineEnd τ p) s = .next ((s.at τ).endLine p) := by
  refine congrArg Host.Outcome.next ((if_pos ⟨hp, (State.at_takesData ..).trans hd⟩).trans ?_)
  simp only [State.at_camP, hl]
  exact if_pos (by simpa using he)

/-- Refutes O15: its clause on the end of a line counts one line of its status. On `strayVerdict 523907` the judgement of the line leads to a commit
that counts at the same place, so that two are counted. -/
theorem not_linesAreReceivedAndJudged : ¬ Obligations.LinesAreReceivedAndJudged := by
  intro h
  obtain ⟨-, -, lineEnd, -⟩ := h
  have hdata : (strayVerdict 523907).takesData 0 = true := by decide
  have hlines : ((strayVerdict 523907).camP 0).lines = [corruptLine] := by decide
  obtain ⟨t, ht, -, -, hcnt⟩ := lineEnd (strayVerdict 523907) 0 0 corruptLine [] (by decide) hdata hlines (.inr rfl) (by simp)
  rw [exec_lineEnd (by decide) hdata hlines (.inr rfl), State.at_of_le _ _ (by decide)] at ht
  have hjudge : corruptLine.judge ((strayVerdict 523907).camWidth 0) ((strayVerdict 523907).camChans 0) = 0x0502 := rfl
  rw [← Host.Outcome.next.inj ht, hjudge, show lineCounter 0x0502 = CAM_CNT_LINE 4 from rfl, strayVerdict_corruptLine] at hcnt
  exact absurd hcnt (by decide)

end Sys2Proof.Machine
end

section
/-!
PROOFS. The Tannery: its lines, its ring, and a statement on the text queue that an event record written over a header breaks.
-/

namespace Sys2Proof.Machine

/-! ### The Tannery, beside verdicts, commits and events

What the report of a preparation result sets off leaves the Tannery, its registers and its count of groups lost: one lemma `…_tanView` for each
operation, as `…_lnkView` and `…_acq` have it for Traif Link and the acquisition side. -/

/-- The registers of the Tannery, by their place in its block. -/
def tanRegs (l : Store Word) (d : Word) (r : Nat) : Word := Store.get d l (bTAN * 33554432 + r % 33554432)

/-- The Tannery, its registers and its count of groups lost to a full ring. -/
def State.tanView (s : State) : Tan × (Word → Nat → Word) × Nat := (s.tan, tanRegs s.regs, s.cnt bTAN TAN_CNT_RINGFULL)

/-- Whether a block lies below Traif Link's or above the Tannery's. -/
def besideTan (b : Nat) : Bool := decide (b < bLNK ∨ bTAN < b)

section TanView
variable {s t : State} {b n : Nat} {f : Fld}

/-- The blocks that a report writes in. -/
@[simp] theorem blocks_besideTan : besideTan bHLT = true ∧ besideTan bEVQ = true ∧ besideTan bMEM4 = true ∧
    besideTan bSCH = true ∧ besideTan bKVC = true ∧ besideTan bFIO = true := by decide

@[simp] theorem bEJT_besideTan (p : Nat) : besideTan (bEJT p) = true := decide_eq_true (.inr (by unfold bEJT bTAN; omega))

/-- A field of another block lies at no place of the Tannery's. -/
theorem fkey_besideTan (hf : f.offLnk b = true) (hb : besideTan b = true) (r : Nat) : fkey b f ≠ bTAN * 33554432 + r % 33554432 := by
  simp only [Fld.offLnk, besideTan, Bool.or_eq_true, Bool.and_eq_true, decide_eq_true_eq] at hf hb
  simp only [fkey, bTAN, bLNK] at hf hb ⊢
  omega

/-- A field of the Tannery reads by its registers alone. -/
theorem State.rd_of_tanRegs (h : tanRegs t.regs = tanRegs s.regs) (ho : f.off < 1048576) (hl : f.lo < 32) : t.rd bTAN f = s.rd bTAN f := by
  have hk : fkey bTAN f = bTAN * 33554432 + (f.off * 32 + f.lo) % 33554432 := by unfold fkey; omega
  simp only [State.rd, hk]
  exact congrArg BitVec.toNat (congrFun (congrFun h _) (f.off * 32 + f.lo))

theorem State.tan_of_tanView (h : t.tanView = s.tanView) : t.tan = s.tan := congrArg Prod.fst h

theorem State.tanRegs_of_tanView (h : t.tanView = s.tanView) : tanRegs t.regs = tanRegs s.regs := congrArg (fun x => x.2.1) h

theorem State.tanRegs_wr (hf : f.offLnk b = true) (hb : besideTan b = true) : tanRegs (s.wr b f n).regs = tanRegs s.regs := by
  funext d r
  exact Store.get_put_ne (fkey_besideTan hf hb r)

@[simp] theorem State.wr_tanView (hf : f.offLnk b = true) (hb : besideTan b = true) : (s.wr b f n).tanView = s.tanView := by
  rw [State.tanView, State.tanRegs_wr hf hb]
  rfl

@[simp] theorem State.wr64_tanView {lo hi : Fld} (hl : lo.offLnk b = true) (hh : hi.offLnk b = true) (hb : besideTan b = true) :
    (s.wr64 b lo hi n).tanView = s.tanView :=
  (State.wr_tanView hh hb).trans (State.wr_tanView hl hb)

@[simp] theorem State.inc_tanView (hf : f.offLnk b = true) (hb : besideTan b = true) : (s.inc b f n).tanView = s.tanView := by
  have hk : fkey bTAN TAN_CNT_RINGFULL = bTAN * 33554432 + fkey bTAN TAN_CNT_RINGFULL % 33554432 := by
    simp only [fkey, bTAN, TAN_CNT_RINGFULL]
  have hne : fkey b f ≠ fkey bTAN TAN_CNT_RINGFULL := fun h => fkey_besideTan hf hb _ (h.trans hk)
  rw [State.tanView, State.cnt_inc_ne hne]
  rfl

@[simp] theorem State.setHlt_tanView (x : Halter) : (s.setHlt x).tanView = s.tanView := rfl
@[simp] theorem State.setField_tanView (x : Field) : (s.setField x).tanView = s.tanView := rfl
@[simp] theorem State.setLnk_tanView (x : Link) : (s.setLnk x).tanView = s.tanView := rfl
@[simp] theorem State.setSch_tanView (x : Sched) : (s.setSch x).tanView = s.tanView := rfl
@[simp] theorem State.setMem_tanView (x : MemUnit) : (s.setMem x).tanView = s.tanView := rfl
@[simp] theorem State.setEjt_tanView (p : Nat) (x : EjtUnit) : (s.setEjt p x).tanView = s.tanView := rfl
@[simp] theorem State.setMerge_tanView (p k : Nat) (m : Option Merge) : (s.setMerge p k m).tanView = s.tanView := rfl
@[simp] theorem State.setSeq_tanView (q : Nat) (x : KvSeq) : (s.setSeq q x).tanView = s.tanView := rfl
@[simp] theorem State.setPage_tanView (i : Nat) (x : KvPage) : (s.setPage i x).tanView = s.tanView := rfl

@[simp] theorem tanView_ite {c : Prop} [Decidable c] {a b : State} :
    (if c then a else b).tanView = if c then a.tanView else b.tanView := apply_ite State.tanView _ _ _

theorem tanView_foldl_mem {α : Type} {g : State → α → State} {l : List α} (h : ∀ s, ∀ x ∈ l, (g s x).tanView = s.tanView) :
    (l.foldl g s).tanView = s.tanView := foldl_keeps State.tanView h

@[simp] theorem tanView_foldl {α : Type} {g : State → α → State} (h : ∀ s x, (g s x).tanView = s.tanView) (l : List α) :
    (l.foldl g s).tanView = s.tanView := tanView_foldl_mem fun s x _ => h s x

/-- The counters that a report raises in the blocks below Traif Link. -/
@[simp] theorem counts_offLnk : EVQ_CNT_EVENTS.offLnk bEVQ = true ∧ HLT_CNT_FB_COMMIT.offLnk bHLT = true ∧ HLT_CNT_SWITCH.offLnk bHLT = true ∧
    HLT_CNT_STG_EARLY.offLnk bHLT = true ∧ HLT_CNT_STG_LATE.offLnk bHLT = true ∧ HLT_CNT_STG_UNKNOWN.offLnk bHLT = true ∧
    HLT_CNT_SUSPECT_SEEN.offLnk bHLT = true ∧ SCH_CNT_MERGE_DUP.offLnk bSCH = true ∧ KVC_CNT_FREE.offLnk bKVC = true ∧
    MEM4_LOG_LOST.offLnk bMEM4 = true ∧ MEM4_CNT_RES_FAIL.offLnk bMEM4 = true := by decide

@[simp] theorem EVQ_CNT_LOST_offLnk {q : Nat} (h : q < 4) : (EVQ_CNT_LOST q).offLnk bEVQ = true :=
  Fld.offLnk_below (by decide) (by dsimp only [EVQ_CNT_LOST]; omega) (show 0 < 32 by decide)

@[simp] theorem State.touch_tanView (u : Nat) (wr : Bool) : (s.touch u wr).tanView = s.tanView := by
  unfold State.touch
  dsimp only
  split
  · rfl
  · split <;> rfl

@[simp] theorem State.inject_tanView (a n : Nat) : (s.inject a n).tanView = s.tanView := by
  have h : (s.wr bMEM4 MEM4_INJ_ARM 0).tanView = s.tanView := by simp
  unfold State.inject
  split
  · exact h
  · exact h
  · rfl

@[simp] theorem State.write_tanView (a : Nat) (bs : List Nat) : (s.write a bs).tanView = s.tanView :=
  (State.inject_tanView _ _).trans (tanView_foldl (fun _ _ => State.touch_tanView _ _) (dramUnits a bs.length))

@[simp] theorem State.mergeQuiet_tanView (u : Nat) : (s.mergeQuiet u).tanView = s.tanView := by
  unfold State.mergeQuiet
  split
  · rfl
  · dsimp only
    split <;> rfl

@[simp] theorem State.writeEdge_tanView (q w first : Nat) (l : List (Nat × List Nat)) : (s.writeEdge q w first l).tanView = s.tanView := by
  simp [State.writeEdge, State.writeQuiet]

theorem State.offer_tanView {q : Nat} (h : q < 4) (code flags blk status : Nat) (args : List Nat) :
    (s.offer q code flags blk status args).tanView = s.tanView := by
  have queued (x : Store EvQueue) : ({ s with evqSeq := x } : State).tanView = s.tanView := rfl
  simp [State.offer, h, queued]

@[simp] theorem State.raise_tanView (code blk a1 a2 a3 status : Nat) : (s.raise code blk a1 a2 a3 status).tanView = s.tanView := by
  unfold State.raise State.raiseRaw
  rw [tanView_foldl_mem fun _ _ hq => State.offer_tanView (List.mem_range.1 hq) ..]
  simp

@[simp] theorem State.sendFrame_tanView (f : Frame) : (s.sendFrame f).tanView = s.tanView := by
  obtain ⟨_, _, _, h⟩ := s.sendFrame_sent f
  rw [h]
  rfl

@[simp] theorem State.updPage_tanView (i : Nat) (f : KvPage → KvPage) : (s.updPage i f).tanView = s.tanView := by simp [State.updPage]

@[simp] theorem State.releaseList_tanView (x : KvSeq) : (s.releaseList x).tanView = s.tanView := by
  refine tanView_foldl (fun s e => ?_) _
  split
  · rfl
  · exact State.updPage_tanView ..

@[simp] theorem State.closePart_tanView (p part : Nat) : (s.closePart p part).tanView = s.tanView := by
  simp [State.closePart, State.closeSeq, State.showSlots]

@[simp] theorem State.setSlot_tanView (p k : Nat) (x : Option Slot) : (s.setSlot p k x).tanView = s.tanView := by simp [State.setSlot]

theorem State.settleCtx_tanView {k : Nat} (h : k < 64) : (s.settleCtx k).tanView = s.tanView := by
  simp [State.settleCtx, State.emptyCtx, State.setCtxState, h]

@[simp] theorem State.settleCtxs_tanView : s.settleCtxs.tanView = s.tanView :=
  tanView_foldl_mem fun _ _ hk => State.settleCtx_tanView (List.mem_range.1 hk)

@[simp] theorem State.slotCommit_tanView (p k : Nat) (c : Commit) : (s.slotCommit p k c).tanView = s.tanView := by
  unfold State.slotCommit
  split <;> simp

@[simp] theorem State.slotToFb_tanView (p k : Nat) : (s.slotToFb p k).tanView = s.tanView := by
  unfold State.slotToFb
  dsimp only
  repeat' split
  all_goals simp [State.fbCommit]

@[simp] theorem State.refreshFio_tanView : s.refreshFio.tanView = s.tanView := by simp [State.refreshFio]

@[simp] theorem State.safeReaction_tanView (cause stage port : Nat) : (s.safeReaction cause stage port).tanView = s.tanView := by
  simp [State.safeReaction, State.writeEscalation]

@[simp] theorem State.upgReport_tanView (ok : Bool) : (s.upgReport ok).tanView = s.tanView := by simp [State.upgReport]

@[simp] theorem State.switchPort_tanView (cause stage p : Nat) : (s.switchPort cause stage p).tanView = s.tanView := by
  simp [State.switchPort]

@[simp] theorem State.stageFault_tanView (stage code kind : Nat) : (s.stageFault stage code kind).tanView = s.tanView := by
  simp [State.stageFault]

@[simp] theorem State.stageReportAt_tanView (p k stage : Nat) : (s.stageReportAt p k stage).tanView = s.tanView := by
  unfold State.stageReportAt
  split <;> simp

@[simp] theorem State.upgPart_tanView (p : Nat) (start : Int) : (s.upgPart p start).tanView = s.tanView := by
  unfold State.upgPart
  split <;> simp

@[simp] theorem State.mergeCommit_tanView (p k : Nat) : (s.mergeCommit p k).tanView = s.tanView := by
  unfold State.mergeCommit
  split <;> simp [State.sendSub]

/-- The report of a check, with all that follows from it. -/
@[simp] theorem State.checkReport_tanView (p part c verdict status : Nat) (degraded : Bool) :
    (s.checkReport p part c verdict status degraded).tanView = s.tanView := by
  unfold State.checkReport
  split
  · exact State.stageFault_tanView ..
  · split
    · exact State.stageFault_tanView ..
    · simp

@[simp] theorem State.setMem_acq (x : MemUnit) : (s.setMem x).acq = s.acq := rfl

@[simp] theorem State.logError_tanView (r : LogRec) : (s.logError r).tanView = s.tanView := by simp [State.logError]

@[simp] theorem State.logError_acq (r : LogRec) : (s.logError r).acq = s.acq := by simp [State.logError]

@[simp] theorem State.correctedRate_tanView (unit : Nat) : (s.correctedRate unit).tanView = s.tanView := by simp [State.correctedRate]

@[simp] theorem State.correctedRate_acq (unit : Nat) : (s.correctedRate unit).acq = s.acq := by simp [State.correctedRate]

@[simp] theorem State.memUe_tanView (blk addr status : Nat) : (s.memUe blk addr status).tanView = s.tanView := by
  simp [State.memUe, State.haltUe]

@[simp] theorem State.memUe_acq (blk addr status : Nat) : (s.memUe blk addr status).acq = s.acq := by simp [State.memUe, State.haltUe]

/-- The report of an error, with all that follows from it. -/
@[simp] theorem State.report_tanView (r : LogRec) : (s.report r).tanView = s.tanView := by simp [State.report]

@[simp] theorem State.report_acq (r : LogRec) : (s.report r).acq = s.acq := by simp [State.report]

end TanView

/-! ### The Tannery, beside accesses to memory

An access may count an error of any unit, so nothing is said of registers and counters: the acquisition side and the Tannery's inside stay. -/

/-- The acquisition side and the Tannery's inside. -/
def State.tanSide (s : State) : (Store CamPort × Clm × Store Word) × Tan := (s.acq, s.tan)

section TanSide
variable {s t : State}

theorem State.tanSide_of_views (ha : t.acq = s.acq) (hv : t.tanView = s.tanView) : t.tanSide = s.tanSide := by
  rw [State.tanSide, ha, State.tan_of_tanView hv, State.tanSide]

theorem State.tan_of_tanSide (h : t.tanSide = s.tanSide) : t.tan = s.tan := congrArg Prod.snd h

theorem State.acq_of_tanSide (h : t.tanSide = s.tanSide) : t.acq = s.acq := congrArg Prod.fst h

@[simp] theorem State.wr_tanSide (b : Nat) (f : Fld) (n : Nat) : (s.wr b f n).tanSide = s.tanSide := rfl
@[simp] theorem State.inc_tanSide (b : Nat) (f : Fld) (n : Nat) : (s.inc b f n).tanSide = s.tanSide := rfl
@[simp] theorem State.setMem_tanSide (x : MemUnit) : (s.setMem x).tanSide = s.tanSide := rfl
@[simp] theorem State.setPwr_tanSide (x : Power) : (s.setPwr x).tanSide = s.tanSide := rfl
@[simp] theorem State.clearErr_tanSide (u : Nat) : (s.clearErr u).tanSide = s.tanSide := rfl
@[simp] theorem State.setPoison_tanSide (u : Nat) : (s.setPoison u).tanSide = s.tanSide := rfl
@[simp] theorem State.answer_tanSide (status : Nat) (data : List Nat) : (s.answer status data).tanSide = s.tanSide := rfl

@[simp] theorem State.raise_tanSide (code blk a1 a2 a3 status : Nat) : (s.raise code blk a1 a2 a3 status).tanSide = s.tanSide :=
  State.tanSide_of_views (State.raise_acq ..) (State.raise_tanView ..)

@[simp] theorem State.report_tanSide (r : LogRec) : (s.report r).tanSide = s.tanSide :=
  State.tanSide_of_views (State.report_acq r) (State.report_tanView r)

@[simp] theorem State.touch_tanSide (u : Nat) (wr : Bool) : (s.touch u wr).tanSide = s.tanSide :=
  State.tanSide_of_views (State.touch_acq u wr) (State.touch_tanView u wr)

@[simp] theorem State.write_tanSide (a : Nat) (bs : List Nat) : (s.write a bs).tanSide = s.tanSide :=
  State.tanSide_of_views (State.write_acq a bs) (State.write_tanView a bs)

@[simp] theorem tanSide_ite {c : Prop} [Decidable c] {a b : State} :
    (if c then a else b).tanSide = if c then a.tanSide else b.tanSide := apply_ite State.tanSide _ _ _

@[simp] theorem tanSide_ite_fst {α : Type} {c : Prop} [Decidable c] {a b : State × α} :
    (if c then a else b).1.tanSide = if c then a.1.tanSide else b.1.tanSide := apply_ite (fun x : State × α => x.1.tanSide) _ _ _

@[simp] theorem tanSide_foldl {α : Type} {g : State → α → State} (h : ∀ s x, (g s x).tanSide = s.tanSide) (l : List α) :
    (l.foldl g s).tanSide = s.tanSide := foldl_keeps State.tanSide fun s x _ => h s x

@[simp] theorem State.storeRep_tanSide (r : LogRec) : (s.storeRep r).tanSide = s.tanSide := by
  have drawn : s.takeFree.2.tanSide = s.tanSide := rfl
  unfold State.storeRep State.countRep
  dsimp only
  split <;> simp [drawn]

@[simp] theorem State.settleFound_tanSide : s.settleFound.tanSide = s.tanSide := by simp [State.settleFound]

@[simp] theorem State.readUnit_tanSide (i u : Nat) : (s.readUnit i u).tanSide = s.tanSide := by
  unfold State.readUnit
  split <;> simp

@[simp] theorem State.readWord_tanSide (i w : Nat) : (s.readWord i w).tanSide = s.tanSide := by simp [State.readWord]

@[simp] theorem State.demand_tanSide (i u : Nat) : (s.demand i u).tanSide = s.tanSide := by
  have prefetched (c : Nat) : (s.portRead c u).tanSide = s.tanSide := rfl
  simp [State.demand, prefetched]

@[simp] theorem State.readUnits_tanSide (i a n : Nat) : (s.readUnits i a n).tanSide = s.tanSide := by simp [State.readUnits]

@[simp] theorem State.latchWake_tanSide (src : Nat) : (s.latchWake src).tanSide = s.tanSide := by simp [State.latchWake]

@[simp] theorem State.wakeFor_tanSide (a : Nat) : (s.wakeFor a).tanSide = s.tanSide := by
  have woken : (s.wake 6).tanSide = s.tanSide := by
    unfold State.wake
    split <;> simp
  simp [State.wakeFor, woken]

@[simp] theorem State.checkStore_tanSide (i : Nat) (wr : Bool) (a n : Nat) : (s.checkStore i wr a n).1.tanSide = s.tanSide := by
  simp [State.checkStore, State.deny, State.wr64]

@[simp] theorem State.hwRead_tanSide (i a n : Nat) : (s.hwRead i a n).1.tanSide = s.tanSide := by simp [State.hwRead]

@[simp] theorem State.mergeWrite_tanSide (i a : Nat) (bs : List Nat) : (s.mergeWrite i a bs).tanSide = s.tanSide := by
  simp [State.mergeWrite, State.mergeUnit]

@[simp] theorem State.putAs_tanSide (i a : Nat) (bs : List Nat) : (s.putAs i a bs).tanSide = s.tanSide := by simp [State.putAs, State.hwWrite]

end TanSide

/-! ### The judged lines and the ring, beside a part's preparation -/

/-- The judged lines of a port and the lines that the Tannery has counted there. -/
def State.lineView (s : State) (n : Nat) : List CamLine × Nat := ((s.camP n).judged, (s.tanP n).count)

/-- What the ring and the arena are read by, and the count of groups lost. -/
def State.ringView (s : State) : List TanEntry × Nat × (Word → Nat → Word) × Nat :=
  (s.tan.entries, s.tan.head, tanRegs s.regs, s.cnt bTAN TAN_CNT_RINGFULL)

/-- Both, and the fields in effect: what the preparation of a part of port `n` leaves until its rows are committed. -/
def State.flowView (s : State) (n : Nat) : (List CamLine × Nat) × (List TanEntry × Nat × (Word → Nat → Word) × Nat) × Store Word :=
  (s.lineView n, s.ringView, s.active)

section Flow
variable {s t : State} {b n k : Nat} {f : Fld}

theorem State.lineView_of_tanSide (h : t.tanSide = s.tanSide) : t.lineView n = s.lineView n := by
  rw [State.lineView, State.camP_of_acq (State.acq_of_tanSide h), State.tanP, State.tan_of_tanSide h]
  rfl

theorem State.ringView_of_tanView (h : t.tanView = s.tanView) : t.ringView = s.ringView :=
  congrArg (fun x : Tan × (Word → Nat → Word) × Nat => (x.1.entries, x.1.head, x.2)) h

theorem State.flowView_of_views (ha : t.acq = s.acq) (hv : t.tanView = s.tanView) : t.flowView n = s.flowView n := by
  rw [State.flowView, State.lineView_of_tanSide (State.tanSide_of_views ha hv), State.ringView_of_tanView hv, State.active_of_acq ha]
  rfl

theorem State.lineView_of_flowView (h : t.flowView n = s.flowView n) : t.lineView n = s.lineView n := congrArg Prod.fst h

theorem State.ringView_of_flowView (h : t.flowView n = s.flowView n) : t.ringView = s.ringView := congrArg (fun x => x.2.1) h

theorem State.active_of_flowView (h : t.flowView n = s.flowView n) : t.active = s.active := congrArg (fun x => x.2.2) h

@[simp] theorem flowView_ite {c : Prop} [Decidable c] {a b : State} :
    (if c then a else b).flowView n = if c then a.flowView n else b.flowView n := apply_ite (State.flowView · n) _ _ _

@[simp] theorem flowView_foldl {α : Type} {g : State → α → State} (h : ∀ s x, (g s x).flowView n = s.flowView n) (l : List α) :
    (l.foldl g s).flowView n = s.flowView n := foldl_keeps (State.flowView · n) fun s x _ => h s x

@[simp] theorem State.setTanP_tanP (x : TanPort) : (s.setTanP n x).tanP n = x := Store.get_put_same

theorem State.setTanP_flowView {x : TanPort} (h : x.count = (s.tanP n).count) : (s.setTanP n x).flowView n = s.flowView n := by
  rw [State.flowView, State.lineView, State.setTanP_tanP, h]
  rfl

@[simp] theorem State.onPart_flowView (part : Nat) (g : TanPart → TanPart) : (s.onPart n part g).flowView n = s.flowView n :=
  State.setTanP_flowView rfl

/-- Every counter but that of the groups lost. -/
@[simp] theorem State.inc_flowView (h : fkey b f ≠ fkey bTAN TAN_CNT_RINGFULL) : (s.inc b f k).flowView n = s.flowView n := by
  rw [State.flowView, State.ringView, State.cnt_inc_ne h]
  rfl

/-- The counters of a part's preparation. -/
@[simp] theorem counts_not_ringFull : fkey bTAN TAN_CNT_PARTS ≠ fkey bTAN TAN_CNT_RINGFULL ∧
    fkey bTAN TAN_CNT_SEC_CORR ≠ fkey bTAN TAN_CNT_RINGFULL ∧ fkey bTAN TAN_CNT_SEC_UNC ≠ fkey bTAN TAN_CNT_RINGFULL ∧
    fkey bTAN TAN_CNT_RES_RETRY ≠ fkey bTAN TAN_CNT_RINGFULL ∧ fkey bTAN TAN_CNT_RES_FAIL ≠ fkey bTAN TAN_CNT_RINGFULL ∧
    fkey bTAN TAN_CNT_CONCEAL ≠ fkey bTAN TAN_CNT_RINGFULL ∧ fkey bTAN TAN_CNT_INTAKE_FULL ≠ fkey bTAN TAN_CNT_RINGFULL := by decide

@[simp] theorem State.addCnt_flowView (h : fkey b f ≠ fkey bTAN TAN_CNT_RINGFULL) : (s.addCnt b f k).flowView n = s.flowView n :=
  flowView_foldl (fun _ _ => State.inc_flowView h) _

@[simp] theorem State.residueRetry_flowView : (s.residueRetry bTAN 0 iTAN 0).flowView n = s.flowView n := by
  have uncounted (r : LogRec) (h : r.counter = none) : s.countRep r = s.report r := by rw [State.countRep, h]
  rw [State.residueRetry, uncounted _ rfl, State.flowView_of_views (State.report_acq _) (State.report_tanView _)]

@[simp] theorem State.residueFail_flowView : (s.residueFail bTAN 0 iTAN 0).flowView n = s.flowView n := by
  have counted (r : LogRec) (h : r.counter = some MEM4_CNT_RES_FAIL) : s.countRep r = (s.inc bMEM4 MEM4_CNT_RES_FAIL).report r := by
    rw [State.countRep, h]
  rw [State.residueFail, counted _ rfl, State.flowView_of_views (State.report_acq _) (State.report_tanView _),
    State.flowView_of_views (State.inc_acq ..) (State.inc_tanView (by simp) (by simp))]

/-- What the checks of a line or a group found is counted and reported. -/
@[simp] theorem State.tanFound_flowView (e : TanErr) : (s.tanFound e).flowView n = s.flowView n := by simp [State.tanFound]

@[simp] theorem State.prepCheck_flowView (part : Nat) : (s.prepCheck n part).flowView n = s.flowView n := by
  have reported (p c v st : Nat) : (((s.onPart n part fun q => { q with reported := true }).inc bTAN TAN_CNT_PARTS).checkReport p part c v
      st).flowView n = s.flowView n := by
    rw [State.flowView_of_views (State.checkReport_acq ..) (State.checkReport_tanView ..)]
    simp
  unfold State.prepCheck
  split
  · dsimp only
    split
    · exact reported ..
    · rfl
  · rfl

end Flow

/-! ### A line (R143-R149) -/

section Line
variable {s : State} {n : Nat}

theorem State.setTanP_lineView (x : TanPort) : (s.setTanP n x).lineView n = ((s.camP n).judged, x.count) := by
  rw [State.lineView, State.setTanP_tanP]
  rfl

theorem State.onPart_lineView (part : Nat) (g : TanPart → TanPart) : (s.onPart n part g).lineView n = s.lineView n :=
  State.lineView_of_flowView (State.onPart_flowView part g)

theorem State.prepCheck_lineView (part : Nat) : (s.prepCheck n part).lineView n = s.lineView n :=
  State.lineView_of_flowView (State.prepCheck_flowView part)

theorem State.prepSeen_lineView (part : Option Nat) (sts : List Nat) : (s.prepSeen n part sts).lineView n = s.lineView n := by
  unfold State.prepSeen
  split
  · exact State.onPart_lineView ..
  · rfl

theorem State.tanOpen_lineView (part p : Nat) (start : Int) (l : CamLine) : (s.tanOpen n part p start l).lineView n = s.lineView n := by
  unfold State.tanOpen
  dsimp only
  split
  · rfl
  · exact State.setTanP_lineView _

theorem State.endOthers_lineView (keep : Option Nat) : (s.endOthers n keep).lineView n = s.lineView n :=
  foldl_keeps (State.lineView · n) fun _ _ _ => (State.prepCheck_lineView _).trans (State.onPart_lineView ..)

theorem State.tanPlace_lineView (chans : Nat) (l : TanLine) : (s.tanPlace n chans l).lineView n = s.lineView n := by
  unfold State.tanPlace
  split
  · dsimp only
    rw [State.onPart_lineView]
    split
    · rfl
    · exact State.setTanP_lineView _
  · rfl

/-- The flat-field table is read from memory. -/
theorem State.stage1_lineView (c : TanCfg) (pix : List Nat) : (s.stage1 c n pix).1.lineView n = s.lineView n := by
  unfold State.stage1
  split
  · dsimp only
    split <;> exact State.lineView_of_tanSide (State.hwRead_tanSide ..)
  · rfl

/-- A line that passes stages 0 to 2 is counted at its port, and takes no judged line from it. -/
theorem State.tanLine_lineView (l : CamLine) (e : TanErr) : (s.tanLine n l e).lineView n = ((s.camP n).judged, (s.tanP n).count + 1) := by
  unfold State.tanLine
  extract_lets p q part opened found full seen hide raw port kept c r corrected line x hist counted placed ended
  clear_value part q
  have hopened : opened.lineView n = s.lineView n := by
    unfold opened
    split
    · exact State.tanOpen_lineView ..
    · rfl
  have hfull : full.lineView n = s.lineView n := by
    have hfound : found.lineView n = s.lineView n := (State.lineView_of_flowView (State.tanFound_flowView e)).trans hopened
    unfold full
    split <;> exact hfound
  have hseen : seen.lineView n = s.lineView n := (State.prepSeen_lineView ..).trans hfull
  have hkept : kept.lineView n = s.lineView n := by
    unfold kept
    split
    · exact hseen
    · split
      · exact (State.setTanP_lineView _).trans hseen
      · exact hseen
  have hcorrected : corrected.lineView n = s.lineView n := by
    have hr : r.1.lineView n = s.lineView n := (State.stage1_lineView ..).trans hkept
    unfold corrected
    split
    · exact (State.prepSeen_lineView ..).trans hr
    · exact hr
  have hcounted : counted.lineView n = ((s.camP n).judged, (s.tanP n).count + 1) :=
    (State.setTanP_lineView _).trans (congrArg (fun v : List CamLine × Nat => (v.1, v.2 + 1)) hcorrected)
  have hplaced : placed.lineView n = counted.lineView n := by
    unfold placed
    split
    · exact State.tanPlace_lineView ..
    · rfl
  have hended : ended.lineView n = ((s.camP n).judged, (s.tanP n).count + 1) := (State.endOthers_lineView _).trans (hplaced.trans hcounted)
  split
  · split
    · exact (State.prepCheck_lineView _).trans ((State.onPart_lineView ..).trans hended)
    · exact hended
  · exact hended

theorem State.tanRestart_lineView : (s.tanRestart n).lineView n = ((s.camP n).judged, 0) := State.setTanP_lineView _

/-- The oldest line is taken in; one whose first pixel came before stays as it is (R144). -/
theorem exec_intakeFirstPixel {l : CamLine} {r : List CamLine} (hp : n < 9) (hd : s.takesData n = true) (hl : (s.camP n).lines = l :: r) (τ : Nat) :
    exec (.intakeFirstPixel τ n) s = .next ((s.at τ).setCam n { s.camP n with lines := (s.at τ).intake n l :: r }) := by
  refine congrArg Host.Outcome.next ((if_pos ⟨hp, (State.at_takesData ..).trans hd⟩).trans ?_)
  simp only [State.onHead, State.at_camP, hl]

theorem State.intake_first (l : CamLine) : (s.intake n l).first = true := by
  unfold State.intake
  split
  · assumption
  · rfl

theorem State.intake_full {l : CamLine} (h : l.first = false) : (s.intake n l).full =
    decide (8 ≤ (((s.camP n).lines ++ (s.camP n).judged).filter (fun y => y.first && !y.full)).length) := by
  unfold State.intake
  rw [if_neg (by simp [h])]

/-- The oldest judged line passes on, from a restarted stream where it is its first (R143, R149). -/
theorem exec_lineVerdict {l : CamLine} {r : List CamLine} (hl : (s.camP n).judged = l :: r) (hrun : s.runs bTAN = true)
    (τ corr unc retry fail : Nat) : exec (.lineVerdict τ n corr unc retry fail) s = .next
      ((if l.fresh then ((s.at τ).setCam n { s.camP n with judged := r }).tanRestart n
        else (s.at τ).setCam n { s.camP n with judged := r }).tanLine n l ⟨corr, unc, retry, fail⟩) := by
  have hrun' : ((s.at τ).setCam n { s.camP n with judged := r }).runs bTAN = true := (State.at_runs ..).trans hrun
  refine congrArg Host.Outcome.next ?_
  simp only [State.at_camP, hl]
  exact if_neg (by simp [hrun'])

end Line

/-! ### The ring (R155-R158) -/

section Ring
variable {s t : State} {n : Nat}

@[simp] theorem State.at_ringView (τ : Nat) : (s.at τ).ringView = s.ringView := by simp [State.ringView]

theorem State.entries_of_ringView (h : t.ringView = s.ringView) : t.tan.entries = s.tan.entries := congrArg Prod.fst h

theorem State.lost_of_ringView (h : t.ringView = s.ringView) : t.cnt bTAN TAN_CNT_RINGFULL = s.cnt bTAN TAN_CNT_RINGFULL :=
  congrArg (fun x => x.2.2.2) h

theorem State.rd_of_ringView {f : Fld} (h : t.ringView = s.ringView) (ho : f.off < 1048576) (hl : f.lo < 32) : t.rd bTAN f = s.rd bTAN f :=
  State.rd_of_tanRegs (congrArg (fun x => x.2.2.1) h) ho hl

theorem State.writeIndex_of_ringView (h : t.ringView = s.ringView) : t.rd bTAN TAN_RING_WR_WR = s.rd bTAN TAN_RING_WR_WR :=
  State.rd_of_ringView h (by decide) (by decide)

theorem State.ringFree_of_ringView (h : t.ringView = s.ringView) : t.ringFree = s.ringFree := by
  have hsize : t.rd bTAN TAN_RING_CFG_SIZE_LOG2 = s.rd bTAN TAN_RING_CFG_SIZE_LOG2 := State.rd_of_ringView h (by decide) (by decide)
  rw [State.ringFree, hsize, State.entries_of_ringView h, State.ringFree]

theorem State.arenaPlace_of_ringView (h : t.ringView = s.ringView) (len : Nat) : t.arenaPlace len = s.arenaPlace len := by
  have hsize : t.rd bTAN TAN_ARENA_SIZE = s.rd bTAN TAN_ARENA_SIZE := State.rd_of_ringView h (by decide) (by decide)
  have hhead : t.tan.head = s.tan.head := congrArg (fun x => x.2.1) h
  have harena : t.arenaSize = s.arenaSize := by rw [State.arenaSize, hsize, State.arenaSize]
  have hused : t.arenaUsed = s.arenaUsed := by rw [State.arenaUsed, State.entries_of_ringView h, State.arenaUsed]
  rw [State.arenaPlace, harena, hused, hhead, State.arenaPlace]

/-- An event leaves the ring and its index, and so does the alarm. -/
theorem State.ringAlarm_ring : s.ringAlarm.tan = s.tan ∧ s.ringAlarm.rd bTAN TAN_RING_WR_WR = s.rd bTAN TAN_RING_WR_WR := by
  have alarmed (v code f : Nat) : (((s.wr bTAN TAN_RING_FREE f).wr bTAN TAN_RING_WR_ALARM v).raise code bTAN f).tan = s.tan ∧
      (((s.wr bTAN TAN_RING_FREE f).wr bTAN TAN_RING_WR_ALARM v).raise code bTAN f).rd bTAN TAN_RING_WR_WR = s.rd bTAN TAN_RING_WR_WR := by
    have hraise := ((s.wr bTAN TAN_RING_FREE f).wr bTAN TAN_RING_WR_ALARM v).raise_tanView code bTAN f 0 0 0
    refine ⟨(State.tan_of_tanView hraise :), (State.rd_of_tanRegs (State.tanRegs_of_tanView hraise) (by decide) (by decide)).trans ?_⟩
    rw [State.rd_wr_ne _ _ _ _ _ _ (by decide), State.rd_wr_ne _ _ _ _ _ _ (by decide)]
  have still (f : Nat) : (s.wr bTAN TAN_RING_FREE f).tan = s.tan ∧
      (s.wr bTAN TAN_RING_FREE f).rd bTAN TAN_RING_WR_WR = s.rd bTAN TAN_RING_WR_WR :=
    ⟨rfl, State.rd_wr_ne _ _ _ _ _ _ (by decide)⟩
  unfold State.ringAlarm
  dsimp only
  split
  · split
    · exact alarmed ..
    · exact still _
  · split
    · exact alarmed ..
    · exact still _

theorem State.ringCommit_full (h : s.ringFree = 0) (f1 f2 data bad : List Nat) : s.ringCommit f1 f2 data bad = (s, false) := by
  unfold State.ringCommit
  split
  · exact if_pos h
  · rfl

/-- An entry that is free and data that has room in the arena: the commit adds the entry and advances the write index (R155, R156). -/
theorem State.ringCommit_fits {data : List Nat} (hplace : (s.arenaPlace data.length).isSome = true) (hfree : s.ringFree ≠ 0)
    (f1 f2 bad : List Nat) : ∃ t, s.ringCommit f1 f2 data bad = (t, true) ∧
      t.rd bTAN TAN_RING_WR_WR = (s.rd bTAN TAN_RING_WR_WR + 1) % 2 ^ TAN_RING_WR_WR.w ∧ t.tan.entries.length = s.tan.entries.length + 1 := by
  generalize hx : s.ringCommit f1 f2 data bad = x
  unfold State.ringCommit at hx
  split at hx
  case h_2 hr => simp [hr] at hplace
  next r hr =>
  rw [if_neg hfree] at hx
  extract_lets w a base cleared stored marked record written rest entered at hx
  have hstored : stored.tanSide = cleared.tanSide := by
    unfold stored
    split
    · rfl
    · exact State.putAs_tanSide ..
  have hwritten : written.tan = cleared.tan := State.tan_of_tanSide <|
    (State.putAs_tanSide ..).trans ((tanSide_foldl (fun _ _ => State.setPoison_tanSide _) _).trans hstored)
  obtain ⟨halarm, hindex⟩ := (entered.wr bTAN TAN_RING_WR_WR (w + 1)).ringAlarm_ring
  refine ⟨_, hx.symm, hindex.trans (State.rd_wr_same _ _ _ _ (by decide)), ?_⟩
  rw [halarm]
  show (written.tan.entries ++ [_]).length = _
  rw [hwritten, List.length_append, List.length_singleton]
  rfl

@[simp] theorem State.onPart_rd (n part b : Nat) (g : TanPart → TanPart) (f : Fld) : (s.onPart n part g).rd b f = s.rd b f := rfl
@[simp] theorem State.onPart_cnt (n part b : Nat) (g : TanPart → TanPart) (f : Fld) : (s.onPart n part g).cnt b f = s.cnt b f := rfl
@[simp] theorem State.onPart_entries (n part : Nat) (g : TanPart → TanPart) : (s.onPart n part g).tan.entries = s.tan.entries := rfl

/-- The data of a commit group: the output rows from `r0` to before `r1`. -/
def TanPart.groupBytes (q : TanPart) (b : List Nat) (r0 r1 : Nat) : List Nat := (List.range (r1 - r0)).flatMap (fun k => q.outRow b (r0 + k))

theorem State.commitRows_fits {q : TanPart} {b : List Nat} {r0 r1 : Nat}
    (hplace : (s.arenaPlace (q.groupBytes b r0 r1).length).isSome = true) (hfree : s.ringFree ≠ 0) (ri : Nat) (bad : List Nat) :
    (s.commitRows n q ri b r0 r1 bad).rd bTAN TAN_RING_WR_WR = (s.rd bTAN TAN_RING_WR_WR + 1) % 2 ^ TAN_RING_WR_WR.w ∧
      (s.commitRows n q ri b r0 r1 bad).tan.entries.length = s.tan.entries.length + 1 := by
  unfold State.commitRows
  extract_lets pitch data src dmg first flags f1 f2 r
  obtain ⟨t, ht, hindex, hentries⟩ := State.ringCommit_fits hplace hfree f1 f2 bad
  have hr : r = (t, true) := ht
  rw [hr, if_pos rfl, State.onPart_rd, State.onPart_entries]
  exact ⟨hindex, hentries⟩

/-- With no entry free the group is lost, and counted (R158). -/
theorem State.commitRows_full (hfree : s.ringFree = 0) (q : TanPart) (ri r0 r1 : Nat) (b bad : List Nat) :
    (s.commitRows n q ri b r0 r1 bad).rd bTAN TAN_RING_WR_WR = s.rd bTAN TAN_RING_WR_WR ∧
      (s.commitRows n q ri b r0 r1 bad).cnt bTAN TAN_CNT_RINGFULL = satInc (s.cnt bTAN TAN_CNT_RINGFULL) 1 := by
  unfold State.commitRows
  extract_lets pitch data src dmg first flags f1 f2 r
  have hr : r = (s, false) := State.ringCommit_full hfree ..
  rw [hr, if_neg Bool.false_ne_true, State.onPart_rd, State.onPart_cnt, State.inc_rd, State.cnt_inc]
  exact ⟨rfl, rfl⟩

/-- A part whose lines `ks` the checks of stages 3 to 5 conceal, with what they found. -/
def TanPart.checked (q : TanPart) (e : TanErr) (pad : Nat) (ks : List Nat) : TanPart := { q with seen := q.seen ++ e.statuses }.hideRows pad ks

/-- What the checks found does not enter the data. -/
theorem TanPart.checked_groupBytes (q : TanPart) (e : TanErr) (pad : Nat) (ks b : List Nat) (r0 r1 : Nat) :
    (q.checked e pad ks).groupBytes b r0 r1 = (q.hideRows pad ks).groupBytes b r0 r1 := rfl

/-- The state in which a group is committed: its findings are counted, and its part holds the concealed lines. -/
def State.groupReady (s : State) (p part : Nat) (q : TanPart) (e : TanErr) (ks : List Nat) : State :=
  ((s.tanFound e).addCnt bTAN TAN_CNT_CONCEAL ks.dedup.length).onPart p part fun _ => q.checked e (s.act (bCAM p) CAM_DMG_PAD_VALUE) ks

theorem State.groupReady_ringView (p part : Nat) (q : TanPart) (e : TanErr) (ks : List Nat) :
    (s.groupReady p part q e ks).ringView = s.ringView :=
  State.ringView_of_flowView (n := p) (by simp [State.groupReady])

theorem State.prepCheck_ringView (part : Nat) : (s.prepCheck n part).ringView = s.ringView :=
  State.ringView_of_flowView (State.prepCheck_flowView part)

/-- The next commit group of region `ri` of a part is committed, and the part's result is reported where that was its last. -/
def State.groupCommitted (s : State) (p part ri : Nat) (q : TanPart) (e : TanErr) (ks b bad : List Nat) : State :=
  ((s.groupReady p part q e ks).commitRows p (q.checked e (s.act (bCAM p) CAM_DMG_PAD_VALUE) ks) ri b (Store.get 0 q.done ri)
    (groupEnd b (Store.get 0 q.done ri)) bad).prepCheck p part

theorem State.groupCommitted_fits {p ri : Nat} {q : TanPart} {ks b : List Nat} (hfree : s.ringFree ≠ 0)
    (hplace : (s.arenaPlace ((q.hideRows (s.act (bCAM p) CAM_DMG_PAD_VALUE) ks).groupBytes b (Store.get 0 q.done ri)
      (groupEnd b (Store.get 0 q.done ri))).length).isSome = true) (part : Nat) (e : TanErr) (bad : List Nat) :
    (s.groupCommitted p part ri q e ks b bad).rd bTAN TAN_RING_WR_WR = (s.rd bTAN TAN_RING_WR_WR + 1) % 2 ^ TAN_RING_WR_WR.w ∧
      (s.groupCommitted p part ri q e ks b bad).tan.entries.length = s.tan.entries.length + 1 := by
  have hready := s.groupReady_ringView p part q e ks
  rw [← q.checked_groupBytes e, ← State.arenaPlace_of_ringView hready] at hplace
  rw [← State.ringFree_of_ringView hready] at hfree
  obtain ⟨hindex, hentries⟩ := State.commitRows_fits (n := p) hplace hfree ri bad
  constructor
  · rw [State.groupCommitted, State.writeIndex_of_ringView (State.prepCheck_ringView part), hindex, State.writeIndex_of_ringView hready]
  · rw [State.groupCommitted, State.entries_of_ringView (State.prepCheck_ringView part), hentries, State.entries_of_ringView hready]

theorem State.groupCommitted_full (hfree : s.ringFree = 0) (p part ri : Nat) (q : TanPart) (e : TanErr) (ks b bad : List Nat) :
    (s.groupCommitted p part ri q e ks b bad).rd bTAN TAN_RING_WR_WR = s.rd bTAN TAN_RING_WR_WR ∧
      (s.groupCommitted p part ri q e ks b bad).cnt bTAN TAN_CNT_RINGFULL = satInc (s.cnt bTAN TAN_CNT_RINGFULL) 1 := by
  have hready := s.groupReady_ringView p part q e ks
  rw [← State.ringFree_of_ringView hready] at hfree
  obtain ⟨hindex, hlost⟩ := State.commitRows_full (n := p) hfree (q.checked e (s.act (bCAM p) CAM_DMG_PAD_VALUE) ks) ri (Store.get 0 q.done ri)
    (groupEnd b (Store.get 0 q.done ri)) b bad
  constructor
  · rw [State.groupCommitted, State.writeIndex_of_ringView (State.prepCheck_ringView part), hindex, State.writeIndex_of_ringView hready]
  · rw [State.groupCommitted, State.lost_of_ringView (State.prepCheck_ringView part), hlost, State.lost_of_ringView hready]

/-- A complete group of a region of a part that is written is committed (R156). -/
theorem exec_groupCommit {p part ri : Nat} {q : TanPart} {b : List Nat} (hq : s.tanPart p part = some q)
    (hb : (q.cfg.regionsOf p).find? (fun e => e.1 == ri) = some (ri, b)) (hrun : s.runs bTAN = true) (hskip : q.skip = false)
    (hoff : q.off = false) (hlt : Store.get 0 q.done ri < groupEnd b (Store.get 0 q.done ri))
    (havail : groupEnd b (Store.get 0 q.done ri) ≤ q.avail b) (τ corr retry : Nat) (unc fail bad : List Nat) :
    exec (.groupCommit τ p part ri corr unc retry fail bad) s = .next
      ((s.at τ).groupCommitted p part ri q ⟨corr, unc.length, retry, fail.length⟩ (unc ++ fail) b bad) := by
  have hpad : (((s.at τ).tanFound ⟨corr, unc.length, retry, fail.length⟩).addCnt bTAN TAN_CNT_CONCEAL (unc ++ fail).dedup.length).act (bCAM p)
      CAM_DMG_PAD_VALUE = (s.at τ).act (bCAM p) CAM_DMG_PAD_VALUE :=
    State.act_of_active (State.active_of_flowView (n := p) (by simp)) ..
  refine congrArg Host.Outcome.next ?_
  simp only [State.at_tanPart, hq, hb]
  rw [if_pos (by simp [hrun, hskip, hoff, hlt, havail]), hpad]
  rfl

/-- A permitted release marks the entry and frees the released ones from the oldest on (R156). -/
theorem exec_tanRingRel {i : Nat} (ha : s.regAllowed i true bTAN 0x314 = true) (hd : s.domOn bTAN = true) (τ v : Nat) :
    exec (.tanRingRel τ i v) s = .next (((s.at τ).setTan { s.tan with
      entries := dropReleased (s.tan.entries.map (fun e => if e.idx == v % 65536 then { e with rel := true } else e)) }).ringAlarm) := by
  refine congrArg Host.Outcome.next ((if_neg (by simp [ha])).trans ((if_neg (by simp [hd])).trans ?_))
  simp only [State.at_tan]

end Ring

/-- Settles O18: a line goes through `tanLine_lineView`; a group is committed (`groupCommitted_fits`) or lost (`groupCommitted_full`), and a release
and its alarm through `ringAlarm_ring`. -/
theorem tanneryTakesLinesAndCommitsGroups : Obligations.TanneryTakesLinesAndCommitsGroups := by
  refine ⟨?intake, ?verdict, ?commit, ?lost, ?release⟩
  case intake =>
    intro s τ p l r hp hd hl
    refine ⟨_, exec_intakeFirstPixel hp hd hl τ, (s.at τ).intake p l, congrArg CamPort.lines (State.setCam_camP ..), State.intake_first l, ?_⟩
    intro hfirst
    rw [State.intake_full hfirst, State.at_camP]
  case verdict =>
    intro s τ p corr unc retry fail l r hl hrun
    refine ⟨_, exec_lineVerdict hl hrun τ corr unc retry fail, Prod.mk.inj ((State.tanLine_lineView l _).trans ?_)⟩
    have htaken : ((s.at τ).setCam p { s.camP p with judged := r }).lineView p = (r, (s.tanP p).count) := by
      rw [State.lineView, State.setCam_camP, State.tanP, State.setCam_tan, State.at_tan, State.tanP]
    cases l.fresh with
    | false => exact congrArg (fun v : List CamLine × Nat => (v.1, v.2 + 1)) htaken
    | true =>
      have hrestart := State.tanRestart_lineView.trans (congrArg (fun v : List CamLine × Nat => (v.1, 0)) htaken)
      exact congrArg (fun v : List CamLine × Nat => (v.1, v.2 + 1)) hrestart
  case commit =>
    intro s τ p part ri corr retry unc fail bad q b hq hb hrun hskip hoff hlt havail hfree hplace
    rw [← State.ringFree_of_ringView (s.at_ringView τ)] at hfree
    rw [← State.arenaPlace_of_ringView (s.at_ringView τ), ← s.at_act τ] at hplace
    obtain ⟨hindex, hentries⟩ := State.groupCommitted_fits hfree hplace part ⟨corr, unc.length, retry, fail.length⟩ bad
    exact ⟨_, exec_groupCommit hq hb hrun hskip hoff hlt havail τ corr retry unc fail bad, by rw [hindex, State.at_rd],
      by rw [hentries, State.at_tan]⟩
  case lost =>
    intro s τ p part ri corr retry unc fail bad q b hq hb hrun hskip hoff hlt havail hfree
    rw [← State.ringFree_of_ringView (s.at_ringView τ)] at hfree
    obtain ⟨hindex, hlost⟩ := State.groupCommitted_full hfree p part ri q ⟨corr, unc.length, retry, fail.length⟩ (unc ++ fail) b bad
    exact ⟨_, exec_groupCommit hq hb hrun hskip hoff hlt havail τ corr retry unc fail bad, by rw [hindex, State.at_rd],
      by rw [hlost, State.at_cnt]⟩
  case release =>
    intro s τ i v ha hd
    exact ⟨_, exec_tanRingRel ha hd τ v, congrArg Tan.entries State.ringAlarm_ring.1⟩

/-! ### A text record under an event queue

The tokenizer's read of a header corrects a single-symbol error of its line, the correction may raise `MEM_CE_RATE`, and an event queue whose ring
lies over the text queue then puts the event's record over the header before the bytes are returned (R200, R588).  The record is stamped with the
time base.  A memory that already holds the record of one moment is left as it is by a read at that moment, and not by a read at a later one. -/

/-- The moment 65,536 s. -/
def recordLater : Nat := 65536000000000

/-- Event queue 0 takes memory events into the ring at address 0, where the text queue lies too; the line at address 0 has one bad symbol, the first
of which exceeds the limit of corrected errors; and memory holds there the event record of that error, stamped 0 s. -/
def recordOverHeader : State :=
  { (((((({ hlt := { rules := [(0, dramRule)] } } : State).wr bTAN COM_STATE_FSM fON).wr bTAN TAN_TXTQ_SIZE 4).wr bTAN TAN_TXTQ_WR 64).wr
      bEVQ (EVQ_Q_CFG_QEN 0) 1).wr bEVQ (EVQ_Q_CFG_CLASSES 0) 8).wr bMEM4 MEM4_POLICY_CE_LIMIT 0 with
    mem := [(0, 0x01#8), (1, 0x03#8), (3, 0x0C#8), (17, 0x0C#8)], errs := [(0, 33)] }

/-- At 0 s the tokenizer's read answers well and leaves memory as it is: the record written is the one that stands there. -/
theorem recordOverHeader_read : (recordOverHeader.hwRead iTAN 0 16).2.1 = 0 ∧
    (recordOverHeader.hwRead iTAN 0 16).1.mem = recordOverHeader.mem := by decide +kernel

/-- At 65,536 s the record's seconds put 1 into the header's length, so that the tokenizer moves on by 16 and 8 bytes. -/
theorem recordOverHeader_textRecord : ∃ t, exec (.textRecord recordLater) recordOverHeader = .next t ∧ t.rd bTAN TAN_TXTQ_RD = 24 :=
  ⟨_, rfl, by decide +kernel⟩

/-- Refutes O19: its last clause takes the length from memory before the read, on the ground that a read at the state's own time changes no byte.
On `recordOverHeader` the command comes later, its read writes a later record over the header, and the length read is 1, not 0. -/
theorem not_artworkDictionariesAndText : ¬ Obligations.ArtworkDictionariesAndText := by
  intro h
  obtain ⟨-, -, -, -, -, -, text⟩ := h
  obtain ⟨hread, hmem⟩ := recordOverHeader_read
  obtain ⟨t, ht, hrd⟩ := text recordOverHeader recordLater (by decide) (by decide) (by decide) hread rfl hmem (by decide)
  obtain ⟨u, hu, hlater⟩ := recordOverHeader_textRecord
  rw [Host.Outcome.next.inj (ht.symm.trans hu), hlater] at hrd
  exact absurd hrd (by decide)

end Sys2Proof.Machine
end

section
/-!
PROOFS. Memory: bytes put and read, and units without errors.
-/

namespace Sys2Proof.Machine

/-! ### Bytes (R171) -/

/-- A byte read after bytes are put: the one put there, else the one before. -/
theorem memPuts_get (m : List Host.Cell) (l : List Nat) (a x : Nat) : Store.get memDefault (memPuts m a l) x =
    if a ≤ x ∧ x < a + l.length then BitVec.ofNat 8 (l.getD (x - a) 0) else Store.get memDefault m x := by
  induction l generalizing m a with
  | nil =>
    have : ¬ (a ≤ x ∧ x < a + ([] : List Nat).length) := by simp
    rw [if_neg this, memPuts]
  | cons b r ih =>
    rw [memPuts, ih, memPut_get, List.length_cons]
    rcases Nat.lt_trichotomy a x with h | h | h
    · have hx : x - a = (x - (a + 1)) + 1 := by omega
      have hi : a + 1 ≤ x ∧ x < a + 1 + r.length ↔ a ≤ x ∧ x < a + (r.length + 1) := by omega
      simp only [hi, hx, List.getD_cons_succ, if_neg h.ne]
    · subst h
      simp
    · have hi : ¬ (a + 1 ≤ x ∧ x < a + 1 + r.length) := by omega
      have hj : ¬ (a ≤ x ∧ x < a + (r.length + 1)) := by omega
      rw [if_neg hi, if_neg hj, if_neg h.ne']

/-- Putting bytes keeps the canonical form: each byte is one write of the store. -/
theorem memPuts_wf {m : List Host.Cell} (l : List Nat) (a : Nat) (h : Memory.wf m = true) : Memory.wf (memPuts m a l) = true := by
  rw [memPuts_foldl]
  exact Store.wf_foldl _ (fun _ _ => memPut_wf) _ h

/-- Settles O21: by induction on the bytes put (`memPuts_get`, `memPuts_wf`). -/
theorem bytesReadBackAndKeepTheCanonicalForm : Obligations.BytesReadBackAndKeepTheCanonicalForm := by
  refine ⟨fun m l a x hl hr => ?inside, fun m l a x h => ?outside, fun m l a h => memPuts_wf l a h⟩
  case inside => rw [memPuts_get, if_pos ⟨hl, hr⟩]
  case outside =>
    have : ¬ (a ≤ x ∧ x < a + l.length) := by omega
    rw [memPuts_get, if_neg this]

section Bytes
variable {s t : State} {i a x : Nat} {bs : List Nat}

/-- A byte after a write: of the bytes written modulo 256, else as it was. -/
theorem State.write_byte (s : State) (a : Nat) (bs : List Nat) (x : Nat) : (s.write a bs).byte x =
    if a ≤ x ∧ x < a + bs.length then bs.getD (x - a) 0 % 256 else s.byte x := by
  rw [State.byte, State.write_mem, memPuts_get]
  split
  · rw [BitVec.toNat_ofNat]
  · rfl

theorem State.write_bytes (s : State) (a : Nat) (bs : List Nat) : (s.write a bs).bytes a bs.length = bs.map (· % 256) := by
  refine List.ext_getElem (by simp [State.bytes]) fun k hk _ => ?_
  have hlt : k < bs.length := by simpa [State.bytes] using hk
  simp [State.bytes, State.write_byte, hlt]

/-- Whatever the checks before it found, a merged write ends by writing its bytes. -/
theorem State.mergeWrite_write (s : State) (i a : Nat) (bs : List Nat) : ∃ u : State, s.mergeWrite i a bs = u.write a bs := ⟨_, rfl⟩

theorem State.mergeWrite_byte {k : Nat} (hk : k < bs.length) : (s.mergeWrite i a bs).byte (a + k) = bs.getD k 0 % 256 := by
  obtain ⟨u, hu⟩ := s.mergeWrite_write i a bs
  rw [hu, State.write_byte, if_pos ⟨by omega, by omega⟩, Nat.add_sub_cancel_left]

end Bytes

/-! ### Units without errors (R175, R177, R178) -/

/-- No unit of a list is poisoned or has a latent error. -/
abbrev State.UnitsSound (s : State) (l : List Nat) : Prop := ∀ u ∈ l, Store.get 0 s.errs u = 0 ∧ Store.get false s.poison u = false

section Sound
variable {s t : State} {i u a : Nat} {l : List Nat} {bs : List Nat}

theorem State.finding_sound (he : Store.get 0 s.errs u = 0) (hp : Store.get false s.poison u = false) : s.finding i u = none := by
  simp [State.finding, he, hp]

theorem State.readUnit_sound (he : Store.get 0 s.errs u = 0) (hp : Store.get false s.poison u = false) : s.readUnit i u = s := by
  rw [State.readUnit, State.finding_sound he hp]

theorem State.mergeUnit_sound (he : Store.get 0 s.errs u = 0) (hp : Store.get false s.poison u = false) : s.mergeUnit i u = s := by
  rw [State.mergeUnit, State.readUnit_sound he hp]
  simp [he, errUncorr]

/-- A fold of an operation that leaves the state alone at every element. -/
theorem foldl_fixed {σ α : Type} {f : σ → α → σ} {x : σ} {l : List α} (h : ∀ y ∈ l, f x y = x) : l.foldl f x = x := by
  induction l with
  | nil => rfl
  | cons y r ih => rw [List.foldl_cons, h y (by simp), ih fun z hz => h z (by simp [hz])]

theorem State.settleFound_nil (h : s.memu.found = []) : s.settleFound = s := by
  have hm : { s.memu with found := [] } = s.memu := by rw [← h]
  rw [State.settleFound, h, hm]
  rfl

/-- With no report waiting, no error in the units written in part, and no bad word of a cached line in the way, a merged write is a write. -/
theorem State.mergeWrite_sound (hs : s.UnitsSound (partUnits a bs.length)) (hf : s.memu.found = []) (hw : s.memu.word = [] ∨ dramEnd ≤ a) :
    s.mergeWrite i a bs = s.write a bs := by
  have hm : (partUnits a bs.length).foldl (fun s u => s.mergeUnit i u) s = s :=
    foldl_fixed fun u hu => State.mergeUnit_sound (hs u hu).1 (hs u hu).2
  have hc : s.memu.word.isEmpty = true ∨ dramEnd ≤ a := hw.imp_left fun h => by rw [h]; rfl
  rw [State.mergeWrite, State.settleFound_nil hf]
  simp only [hm, if_pos hc]

end Sound

end Sys2Proof.Machine
end

section
/-!
PROOFS. The scratchpad of a tile, and where a tile's stores go.
-/

namespace Sys2Proof.Machine

/-! ### The scratchpad of a tile (R213, R217) -/

section Scratchpad
variable {s : State} {c k x u : Nat} {t : Tile} {ls : List Nat}

theorem mem_linesOf {a n : Nat} : k ∈ linesOf a n ↔ n ≠ 0 ∧ a / 64 ≤ k ∧ k ≤ (a + n - 1) / 64 := by
  unfold linesOf
  split
  · simp_all
  · simp only [List.mem_map, List.mem_range]
    constructor
    · rintro ⟨j, hj, rfl⟩
      omega
    · rintro ⟨-, hl, hr⟩
      exact ⟨k - a / 64, by omega, by omega⟩

/-- The state and the tile once every line of a list has been written: the lines first written read 0. -/
def State.openLines (s : State) (c : Nat) (t : Tile) (ls : List Nat) : State × Tile :=
  ls.foldl (fun (r : State × Tile) k =>
    if Store.get false r.2.lines k then r
    else (r.1.zeroLine (spadBase c + 64 * k), { r.2 with lines := Store.put false r.2.lines k true })) (s, t)

theorem State.spadWrite_eq (s : State) (c : Nat) (t : Tile) (a : Nat) (bs : List Nat) : s.spadWrite c t a bs =
    ((s.openLines c t (linesOf a bs.length)).1.mergeWrite (iCLU c) (spadBase c + a) bs, (s.openLines c t (linesOf a bs.length)).2) := rfl

/-- A first line of a list is left alone if the tile has written it, and else zeroed and marked. -/
theorem State.openLines_cons (s : State) (c : Nat) (t : Tile) (k : Nat) (ls : List Nat) : s.openLines c t (k :: ls) =
    if Store.get false t.lines k then s.openLines c t ls
    else (s.zeroLine (spadBase c + 64 * k)).openLines c { t with lines := Store.put false t.lines k true } ls := by
  simp only [State.openLines, List.foldl_cons]
  split <;> rfl

theorem State.openLines_lines (s : State) (c : Nat) (t : Tile) (ls : List Nat) (k : Nat) :
    Store.get false (s.openLines c t ls).2.lines k = (decide (k ∈ ls) || Store.get false t.lines k) := by
  induction ls generalizing s t with
  | nil => simp [State.openLines]
  | cons j r ih =>
    rw [State.openLines_cons]
    split
    case isTrue h =>
      rw [ih]
      rcases eq_or_ne k j with rfl | hk
      · simp [h]
      · simp [hk]
    case isFalse h =>
      rw [ih, Store.get_put]
      rcases eq_or_ne k j with rfl | hk
      · simp
      · simp [hk, hk.symm]

/-- Line `k` from a base on reads 0 once it is zeroed. -/
theorem State.zeroLine_byte (s : State) (b k x : Nat) : (s.zeroLine (b + 64 * k)).byte x =
    if b ≤ x ∧ (x - b) / 64 = k then 0 else s.byte x := by
  have hm : (s.zeroLine (b + 64 * k)).mem = memPuts s.mem (b + 64 * k) (List.replicate 64 0) := by rw [State.zeroLine]
  have hi : (b + 64 * k ≤ x ∧ x < b + 64 * k + 64) ↔ (b ≤ x ∧ (x - b) / 64 = k) := by omega
  rw [State.byte, hm, memPuts_get, List.length_replicate]
  simp only [hi]
  split
  · rw [List.getD_eq_getElem?_getD, List.getElem?_getD_replicate_default_eq, BitVec.toNat_ofNat, Nat.zero_mod]
  · rfl

/-- A byte of a line first written reads 0, every other one as before. -/
theorem State.openLines_byte (s : State) (c : Nat) (t : Tile) (ls : List Nat) (x : Nat) : (s.openLines c t ls).1.byte x =
    if spadBase c ≤ x ∧ (x - spadBase c) / 64 ∈ ls ∧ Store.get false t.lines ((x - spadBase c) / 64) = false then 0 else s.byte x := by
  induction ls generalizing s t with
  | nil => simp [State.openLines]
  | cons j r ih =>
    rw [State.openLines_cons]
    generalize hk : (x - spadBase c) / 64 = k at *
    split
    case isTrue h =>
      rw [ih]
      rcases eq_or_ne k j with rfl | hj
      · simp [h]
      · simp [hj]
    case isFalse h =>
      rw [ih, State.zeroLine_byte, hk, Store.get_put]
      rcases eq_or_ne k j with rfl | hj
      · simp [h]
      · simp [hj, hj.symm]

@[simp] theorem State.openLines_memu (s : State) (c : Nat) (t : Tile) (ls : List Nat) : (s.openLines c t ls).1.memu = s.memu := by
  induction ls generalizing s t with
  | nil => rfl
  | cons j r ih =>
    rw [State.openLines_cons]
    split
    · exact ih ..
    · rw [ih, State.zeroLine]

/-- Folding resets of keys over a store leaves a key that reads the default as it is. -/
theorem Store.get_foldl_reset {α : Type} [DecidableEq α] {d : α} (l : List Nat) {m : Store α} (h : Store.get d m u = d) :
    Store.get d (l.foldl (fun m k => Store.put d m k d) m) u = d := by
  induction l generalizing m with
  | nil => exact h
  | cons k r ih => exact ih (by rw [Store.get_put, h, ite_self])

/-- Zeroing lines brings no unit an error. -/
theorem State.openLines_sound (ls us : List Nat) (h : s.UnitsSound us) : (s.openLines c t ls).1.UnitsSound us := by
  induction ls generalizing s t with
  | nil => exact h
  | cons j r ih =>
    rw [State.openLines_cons]
    split
    · exact ih h
    · exact ih fun u hu => ⟨Store.get_foldl_reset _ (h u hu).1, Store.get_foldl_reset _ (h u hu).2⟩

/-- The windows of the scratchpads lie above the DRAM. -/
theorem dramEnd_le_spad (c a : Nat) : dramEnd ≤ spadBase c + a := by
  simp only [dramEnd, spadBase]
  omega

end Scratchpad

/-! ### The end of a tile (R191, R237) -/

section End
variable {s : State} {τ c n : Nat} {t : Tile} {bs : List Nat}

@[simp] theorem State.at_tileOf (s : State) (τ c : Nat) : (s.at τ).tileOf c = s.tileOf c := by simp [State.tileOf, State.cluX]

theorem exec_tileEnd_completes (ht : s.tileOf c = some t) (he : t.ended = true) (hm : t.mism = false) :
    exec (.tileEnd τ c) s = .next ((s.at τ).completeTile c t) := by
  change execTileEnd τ c s = _
  simp [execTileEnd, ht, he, hm]

/-- What a dropped tile leaves: its pages' counts are the key-value cache's. -/
theorem State.dropTile_stores (s : State) (c : Nat) : (s.dropTile c).mem = s.mem ∧ (s.dropTile c).errs = s.errs ∧
    (s.dropTile c).poison = s.poison ∧ (s.dropTile c).memu = s.memu ∧ (s.dropTile c).sch = s.sch := by
  unfold State.dropTile
  split
  case h_1 t ht =>
    have h := foldl_keeps (fun s : State => (s.mem, s.errs, s.poison, s.memu, s.sch)) (l := t.pages) (x := s.setTile c none)
      (f := fun s i => s.updPage i (fun g => { g with inflight := g.inflight - 1 })) fun s i _ => by
        unfold State.updPage
        dsimp only
        split <;> rfl
    simp only [Prod.mk.injEq] at h
    exact h
  case h_2 => exact ⟨rfl, rfl, rfl, rfl, rfl⟩

theorem State.touch_sch (s : State) (u : Nat) (wr : Bool) : (s.touch u wr).sch = s.sch := by
  unfold State.touch
  dsimp only
  split
  · rfl
  · split <;> rfl

theorem State.inject_sch (s : State) (a n : Nat) : (s.inject a n).sch = s.sch := by
  unfold State.inject
  split <;> rfl

theorem State.write_sch (s : State) (a : Nat) (bs : List Nat) : (s.write a bs).sch = s.sch :=
  (State.inject_sch ..).trans (foldl_keeps State.sch fun _ _ _ => State.touch_sch ..)

theorem State.cmd?_of_sch {s u : State} (h : u.sch = s.sch) (q : Nat) : u.cmd? q = s.cmd? q := by rw [State.cmd?, h, State.cmd?]

theorem State.settleCmd_none {q : Nat} (h : s.cmd? q = none) : s.settleCmd q = s := by rw [State.settleCmd, h]

theorem State.fusedTileDone_none (h : s.cmd? t.q = none) : s.fusedTileDone t = s := by rw [State.fusedTileDone, h]

/-- A first run whose command is gone leaves its stores and its count. -/
theorem State.completeTile_orphan (hs : t.stage = 0) (hq : (((s.dropTile c).release c t.buf).inc (bCLU c) CLU_CNT_TILES).cmd? t.q = none) :
    s.completeTile c t = ((s.dropTile c).release c t.buf).inc (bCLU c) CLU_CNT_TILES := by
  rw [State.completeTile]
  simp only [hs, if_true]
  rw [State.fusedTileDone_none hq, ite_self, State.settleCmd_none hq]

end End

/-! ### Where stores go -/

/-- Settles O32: a local store opens its lines (`State.openLines`) and ends with a write; a store that waited reaches memory by a write too. -/
theorem whereStoresGo : Obligations.WhereStoresGo := by
  refine ⟨fun s c t ea bs hl hi ho hm => ?waits, fun s c t a k bs hk => ⟨?readsBack, ?marked⟩, fun s c t a x bs hs hf hx => ?others,
    fun s c n t bs ht he hm hst hb hq hf hw hs => ?completion⟩
  case waits => simp [State.tileWrite, State.checkStore, hl, hi, ho, hm]
  case readsBack =>
    rw [State.spadWrite_eq, Nat.add_assoc, ← Nat.add_assoc]
    exact State.mergeWrite_byte hk
  case marked =>
    have hmem : (a + k) / 64 ∈ linesOf a bs.length := mem_linesOf.2 ⟨by omega, by omega, by omega⟩
    rw [State.spadWrite_eq]
    simp only [State.openLines_lines, hmem, decide_true, Bool.true_or]
  case others =>
    rw [State.spadWrite_eq]
    have hsound := State.openLines_sound (c := c) (t := t) (linesOf a bs.length) _ hs
    have hout : ¬ (spadBase c + a ≤ x ∧ x < spadBase c + a + bs.length) := by omega
    simp only [State.mergeWrite_sound hsound (by simpa using hf) (.inr (dramEnd_le_spad c a)), State.write_byte, if_neg hout,
      State.openLines_byte, mem_linesOf]
    have hlen : bs.length ≠ 0 ↔ bs ≠ [] := by simp
    congr 1
    simp only [eq_iff_iff, ← hlen]
    constructor
    · rintro ⟨h0, ⟨hn, h1, h2⟩, h3⟩
      exact ⟨hn, by omega, by omega, h3⟩
    · rintro ⟨hn, h1, h2, h3⟩
      exact ⟨by omega, ⟨hn, by omega, by omega⟩, h3⟩
  case completion =>
    obtain ⟨hmem, herrs, hpoison, hmemu, hsch⟩ := s.dropTile_stores c
    have hrel : (s.dropTile c).release c t.buf = (s.dropTile c).write n bs := by
      rw [hb]
      refine State.mergeWrite_sound ?_ (by rw [hmemu, hf]) (.inl (by rw [hmemu, hw]))
      intro u hu
      rw [herrs, hpoison]
      exact hs u hu
    have hgone : (((s.dropTile c).release c t.buf).inc (bCLU c) CLU_CNT_TILES).cmd? t.q = none := by
      refine (State.cmd?_of_sch ?_ _).trans (Option.isNone_iff_eq_none.1 hq)
      rw [hrel]
      exact (State.write_sch ..).trans hsch
    refine ⟨_, exec_tileEnd_completes ht he hm, ?_⟩
    rw [State.at_of_le _ _ (Nat.le_refl _), State.completeTile_orphan hst hgone, hrel]
    refine ⟨State.write_bytes .., fun x hx => ?_⟩
    have hout : ¬ (n ≤ x ∧ x < n + bs.length) := by omega
    exact (State.write_byte ..).trans (by rw [if_neg hout, State.byte, hmem, State.byte])

end Sys2Proof.Machine
end

section
/-!
PROOFS. Two statements about memory and tiles that break on states whose event records or fallback results no hardware forms.
-/

namespace Sys2Proof.Machine

/-! ### A record as long as a line -/

/-- Event queue 0 takes memory events into the ring at address 0, and the present clock edge holds one record of 64 bytes, twice the length of
a record (R588). -/
def longRecord : State :=
  { ((({} : State).wr bEVQ (EVQ_Q_CFG_QEN 0) 1).wr bEVQ (EVQ_Q_CFG_CLASSES 0) 8).wr bEVQ (EVQ_Q_WR 0) 1 with
    evqSeq := [(0, { at_ := 1, edge := [(0, List.replicate 64 0)] })] }

/-- The event of the uncorrectable error writes the long record anew, over the whole line that had the error. -/
theorem longRecord_read : ∃ t, exec (.dramRead 0 0xFF 0 1 0 2) longRecord = .next t ∧ t.resp.status = 0 := ⟨_, rfl, by decide +kernel⟩

/-- Refutes O20: its clause on two or three bad symbols takes every state. On `longRecord` the event that the read raises writes a record of 64
bytes over line 0, a whole line then counts as sound again, and the read answers success. -/
theorem not_dramReadsAndWrites : ¬ Obligations.DramReadsAndWrites := by
  intro h
  obtain ⟨-, -, -, -, -, uncorrectable, -⟩ := h
  obtain ⟨t, ht, hstatus, -⟩ := uncorrectable longRecord 0 0xFF 0 1 2 (by decide) (by decide) (by decide) (by decide +kernel)
    (by decide +kernel) (by decide) (by decide) (by decide +kernel)
  obtain ⟨u, hu, hok⟩ := longRecord_read
  rw [Host.Outcome.next.inj (ht.symm.trans hu), hok] at hstatus
  exact absurd hstatus (by decide)

/-! ### A verdict of no kind -/

/-- A verdict so large that its counter in ejection unit 0 (R439) is the counter of tiles of cluster 0. -/
def verdictOfTiles : Nat := 8912895

theorem verdictOfTiles_key : fkey (bEJT 0) (EJT_CNT_VERDICT verdictOfTiles) = fkey (bCLU 0) CLU_CNT_TILES := by decide

/-- The tile of cluster 0 has ended with one store waiting, to a line past correction; Halter switches both ports at the first such error, and
holds the result `verdictOfTiles` for the part of an open slot. -/
def strayTileVerdict : State :=
  { (({} : State).setFsm (bSTP 0) fON).setFsm (bEJT 0) fON with
    clu := [(0, { tile := some { ended := true, buf := [(0, [0])] } })], errs := [(0, 34)], opt := { ueSwitch := 0 }
    ejt := [(0, { slots := [(0, some { part := 1 })] })], hlt := { results := [(0, 1, verdictOfTiles)] } }

/-- The store reports the error, the switch commits the part, and the tile is counted twice. -/
theorem strayTileVerdict_tileEnd : ∃ t, exec (.tileEnd 0 0) strayTileVerdict = .next t ∧ t.cnt (bCLU 0) CLU_CNT_TILES = 2 :=
  ⟨_, rfl, by decide +kernel⟩

/-- Refutes O23: its clause on a tile that completes takes every state. On `strayTileVerdict` the commit of a fallback result that is no verdict
counts in the same place, so that the counter of tiles moves by 2. -/
theorem not_tilesStartAndEnd : ¬ Obligations.TilesStartAndEnd := by
  intro h
  obtain ⟨-, completes, -⟩ := h
  obtain ⟨t, ht, -, hcount⟩ := completes strayTileVerdict 0 0 { ended := true, buf := [(0, [0])] } (by decide) rfl rfl
  obtain ⟨u, hu, htwo⟩ := strayTileVerdict_tileEnd
  have hnone : strayTileVerdict.cnt (bCLU 0) CLU_CNT_TILES = 0 := by decide
  rw [Host.Outcome.next.inj (ht.symm.trans hu), htwo, hnone] at hcount
  exact absurd hcount (by decide)

end Sys2Proof.Machine
end

section
/-!
PROOFS. What an error report leaves alone.
-/

namespace Sys2Proof.Machine

/-! ### Beside a report

A report to the error log may raise events, write their records and switch ports to the fallback inspector. One lemma `…_reportView` for each
operation on that way says what stays: the time, the waiting commands, the clusters, where the patrol scrubber stands, and its count of passes. -/

/-- The time, the waiting commands, the clusters, and the line and due time of the patrol scrubber. -/
def State.bystanders (s : State) : Nat × List Instr × Store Clu × Nat × Nat := (s.now, s.pending, s.clu, s.memu.scrubLine, s.memu.scrubDue)

/-- The bystanders with the scrubber's count of passes. -/
def State.reportView (s : State) : (Nat × List Instr × Store Clu × Nat × Nat) × Nat := (s.bystanders, s.cnt bMEM4 MEM4_CNT_SCRUB_PASSES)

/-- Whether a counter is another one than the scrubber's passes. -/
def notPasses (b : Nat) (f : Fld) : Bool := decide (fkey b f ≠ fkey bMEM4 MEM4_CNT_SCRUB_PASSES)

section ReportView
variable {s t : State} {b n : Nat} {f : Fld}

theorem State.bystanders_of_reportView (h : t.reportView = s.reportView) : t.bystanders = s.bystanders := congrArg Prod.fst h

@[simp] theorem State.inc_reportView (h : notPasses b f = true) : (s.inc b f n).reportView = s.reportView := by
  rw [State.reportView, State.cnt_inc_ne (of_decide_eq_true h)]
  rfl

/-- The counters that a report raises. -/
@[simp] theorem counts_notPasses : notPasses bEVQ EVQ_CNT_EVENTS = true ∧ notPasses bHLT HLT_CNT_FB_COMMIT = true ∧
    notPasses bHLT HLT_CNT_SWITCH = true ∧ notPasses bHLT HLT_CNT_SUSPECT_SEEN = true ∧ notPasses bHLT HLT_CNT_FW_DENY = true ∧
    notPasses bKVC KVC_CNT_FREE = true ∧ notPasses bMEM4 MEM4_LOG_LOST = true ∧ notPasses bPWR PWR_CNT_ABANDON = true := by decide

@[simp] theorem bEJT_notPasses (p : Nat) (f : Fld) : notPasses (bEJT p) f = true := by
  refine decide_eq_true ?_
  simp only [fkey, bEJT, bMEM4, MEM4_CNT_SCRUB_PASSES]
  omega

@[simp] theorem EVQ_CNT_LOST_notPasses {q : Nat} (h : q < 4) : notPasses bEVQ (EVQ_CNT_LOST q) = true := by
  refine decide_eq_true ?_
  simp only [fkey, bEVQ, bMEM4, EVQ_CNT_LOST, MEM4_CNT_SCRUB_PASSES]
  omega

@[simp] theorem State.wr_reportView (b : Nat) (f : Fld) (n : Nat) : (s.wr b f n).reportView = s.reportView := by rfl
@[simp] theorem State.wr64_reportView (b n : Nat) (lo hi : Fld) : (s.wr64 b lo hi n).reportView = s.reportView := by rfl
@[simp] theorem State.setHlt_reportView (x : Halter) : (s.setHlt x).reportView = s.reportView := by rfl
@[simp] theorem State.setField_reportView (x : Field) : (s.setField x).reportView = s.reportView := by rfl
@[simp] theorem State.setLnk_reportView (x : Link) : (s.setLnk x).reportView = s.reportView := by rfl
@[simp] theorem State.setSch_reportView (x : Sched) : (s.setSch x).reportView = s.reportView := by rfl
@[simp] theorem State.setPwr_reportView (x : Power) : (s.setPwr x).reportView = s.reportView := by rfl
@[simp] theorem State.setEjt_reportView (p : Nat) (x : EjtUnit) : (s.setEjt p x).reportView = s.reportView := by rfl
@[simp] theorem State.setSeq_reportView (q : Nat) (x : KvSeq) : (s.setSeq q x).reportView = s.reportView := by rfl
@[simp] theorem State.setPage_reportView (i : Nat) (x : KvPage) : (s.setPage i x).reportView = s.reportView := by rfl
@[simp] theorem State.setErr_reportView (u e : Nat) : (s.setErr u e).reportView = s.reportView := by rfl
@[simp] theorem State.setPoison_reportView (u : Nat) : (s.setPoison u).reportView = s.reportView := by rfl
@[simp] theorem State.answer_reportView (status : Nat) (data : List Nat) : (s.answer status data).reportView = s.reportView := by rfl
@[simp] theorem State.takeFree_reportView : (s.takeFree).2.reportView = s.reportView := by rfl

@[simp] theorem reportView_ite {c : Prop} [Decidable c] {a b : State} :
    (if c then a else b).reportView = if c then a.reportView else b.reportView := apply_ite State.reportView _ _ _

theorem reportView_foldl_mem {α : Type} {g : State → α → State} {l : List α} (h : ∀ s, ∀ x ∈ l, (g s x).reportView = s.reportView) :
    (l.foldl g s).reportView = s.reportView := foldl_keeps State.reportView h

@[simp] theorem reportView_foldl {α : Type} {g : State → α → State} (h : ∀ s x, (g s x).reportView = s.reportView) (l : List α) :
    (l.foldl g s).reportView = s.reportView := reportView_foldl_mem fun s x _ => h s x

@[simp] theorem State.touch_reportView (u : Nat) (wr : Bool) : (s.touch u wr).reportView = s.reportView := by
  unfold State.touch
  dsimp only
  split
  · rfl
  · split <;> rfl

@[simp] theorem State.inject_reportView (a n : Nat) : (s.inject a n).reportView = s.reportView := by
  unfold State.inject
  split <;> rfl

@[simp] theorem State.write_reportView (a : Nat) (bs : List Nat) : (s.write a bs).reportView = s.reportView :=
  (State.inject_reportView ..).trans (reportView_foldl (fun _ _ => State.touch_reportView ..) (dramUnits a bs.length))

@[simp] theorem State.mergeQuiet_reportView (u : Nat) : (s.mergeQuiet u).reportView = s.reportView := by
  unfold State.mergeQuiet
  split
  · rfl
  · dsimp only
    split <;> rfl

@[simp] theorem State.writeEdge_reportView (q w first : Nat) (l : List (Nat × List Nat)) :
    (s.writeEdge q w first l).reportView = s.reportView := by
  simp [State.writeEdge, State.writeQuiet]

theorem State.offer_reportView {q : Nat} (h : q < 4) (code flags blk status : Nat) (args : List Nat) :
    (s.offer q code flags blk status args).reportView = s.reportView := by
  have queued (x : Store EvQueue) : ({ s with evqSeq := x } : State).reportView = s.reportView := rfl
  simp [State.offer, h, queued]

@[simp] theorem State.raise_reportView (code blk a1 a2 a3 status : Nat) : (s.raise code blk a1 a2 a3 status).reportView = s.reportView := by
  unfold State.raise State.raiseRaw
  rw [reportView_foldl_mem fun _ _ hq => State.offer_reportView (List.mem_range.1 hq) ..]
  simp

@[simp] theorem State.sendFrame_reportView (f : Frame) : (s.sendFrame f).reportView = s.reportView := by
  obtain ⟨_, _, _, h⟩ := s.sendFrame_sent f
  rw [h]
  rfl

@[simp] theorem State.updPage_reportView (i : Nat) (f : KvPage → KvPage) : (s.updPage i f).reportView = s.reportView := by
  simp [State.updPage]

@[simp] theorem State.releaseList_reportView (x : KvSeq) : (s.releaseList x).reportView = s.reportView := by
  refine reportView_foldl (fun s e => ?_) _
  split
  · rfl
  · exact State.updPage_reportView ..

@[simp] theorem State.closePart_reportView (p part : Nat) : (s.closePart p part).reportView = s.reportView := by
  simp [State.closePart, State.closeSeq, State.showSlots]

@[simp] theorem State.setSlot_reportView (p k : Nat) (x : Option Slot) : (s.setSlot p k x).reportView = s.reportView := by
  simp [State.setSlot]

@[simp] theorem State.settleCtx_reportView (k : Nat) : (s.settleCtx k).reportView = s.reportView := by
  simp [State.settleCtx, State.emptyCtx, State.setCtxState]

@[simp] theorem State.settleCtxs_reportView : s.settleCtxs.reportView = s.reportView := by simp [State.settleCtxs]

@[simp] theorem State.slotCommit_reportView (p k : Nat) (c : Commit) : (s.slotCommit p k c).reportView = s.reportView := by
  unfold State.slotCommit
  split <;> simp

@[simp] theorem State.slotToFb_reportView (p k : Nat) : (s.slotToFb p k).reportView = s.reportView := by
  unfold State.slotToFb
  dsimp only
  repeat' split
  all_goals simp [State.fbCommit]

@[simp] theorem State.refreshFio_reportView : s.refreshFio.reportView = s.reportView := by simp [State.refreshFio]

@[simp] theorem State.switchPort_reportView (cause stage p : Nat) : (s.switchPort cause stage p).reportView = s.reportView := by
  simp [State.switchPort, State.safeReaction, State.writeEscalation, State.upgReport]

@[simp] theorem State.logError_reportView (r : LogRec) : (s.logError r).reportView = s.reportView := by
  have logged (l : List LogRec) : (s.setMem { s.memu with log := l }).reportView = s.reportView := rfl
  simp [State.logError, logged]

@[simp] theorem State.correctedRate_reportView (unit : Nat) : (s.correctedRate unit).reportView = s.reportView := by
  have rated (x : Store (List Nat)) (y : Store Nat) : (s.setMem { s.memu with ceAt := x, ceHigh := y }).reportView = s.reportView := rfl
  simp [State.correctedRate, rated]

@[simp] theorem State.memUe_reportView (blk addr status : Nat) : (s.memUe blk addr status).reportView = s.reportView := by
  simp [State.memUe, State.haltUe]

/-- The report of an error, with all that follows from it. -/
@[simp] theorem State.report_reportView (r : LogRec) : (s.report r).reportView = s.reportView := by simp [State.report]

/-- An error counted at another place than the passes. -/
theorem State.storeRep_reportView {r : LogRec} (h : ∀ f, r.counter = some f → notPasses bMEM4 f = true) :
    (s.storeRep r).reportView = s.reportView := by
  refine (State.report_reportView _).trans ?_
  cases hc : r.counter with
  | none =>
    have hs (n : Nat) : LogRec.counter { r with synd := n } = none := hc
    simp only [hs, State.takeFree_reportView]
  | some f =>
    have hs (n : Nat) : LogRec.counter { r with synd := n } = some f := hc
    simp only [hs, State.inc_reportView (h f hc), State.takeFree_reportView]

end ReportView

/-! ### Errors found in a unit -/

section Units
variable {s : State} {i u a bad : Nat}

theorem controllerOf_lt (a : Nat) : controllerOf a < 8 :=
  Nat.xor_lt_two_pow (n := 3) (bits_lt ..) (Nat.xor_lt_two_pow (bits_lt ..) (bits_lt ..))

/-- What a unit's check finds: an error of a DRAM controller, or one of a store that is no slice. -/
theorem State.finding_kind {r : LogRec} (h : s.finding i u = some r) :
    ((r.kind = 1 ∨ r.kind = 2 ∨ r.kind = 3) ∧ r.sub < 8) ∨ ((r.kind = 4 ∨ r.kind = 5) ∧ ¬ (8 ≤ r.blk ∧ r.blk < 12)) := by
  have hblk : ¬ (8 ≤ (if inRet u then bPWR else bCLU ((u - 0x2000000000) / 0x1000000)) ∧
      (if inRet u then bPWR else bCLU ((u - 0x2000000000) / 0x1000000)) < 12) := by
    unfold bPWR bCLU
    split <;> omega
  by_cases hd : u < dramEnd
  all_goals
    simp only [State.finding, hd, decide_true, decide_false, if_true, if_false, Bool.false_eq_true] at h
    split at h
    case' isFalse => split at h
    case' isFalse.isFalse => split at h
    all_goals cases h
  all_goals simp [controllerOf_lt, hblk]

/-- Such an error is counted at another place than the scrubber's passes. -/
theorem State.finding_notPasses {r : LogRec} {f : Fld} (h : s.finding i u = some r) (hf : r.counter = some f) : notPasses bMEM4 f = true := by
  have dram (n : Nat) (hn : n < 8) : notPasses bMEM4 (MEM4_CNT_DRAM_CE n) = true ∧ notPasses bMEM4 (MEM4_CNT_DRAM_UE n) = true := by
    interval_cases n <;> decide
  rcases State.finding_kind h with ⟨hk | hk | hk, hs⟩ | ⟨hk | hk, hb⟩
  all_goals simp only [LogRec.counter, hk] at hf
  · cases hf; exact (dram _ hs).1
  · cases hf; exact (dram _ hs).2
  · cases hf; exact (dram _ hs).2
  · simp [hb] at hf
    split at hf <;> subst hf <;> decide
  · simp [hb] at hf
    obtain ⟨-, rfl⟩ := hf
    decide

theorem State.readUnit_reportView : (s.readUnit i u).reportView = s.reportView := by
  unfold State.readUnit
  split
  · rfl
  case h_2 r h =>
    rw [State.storeRep_reportView fun f hf => State.finding_notPasses h hf]
    simp [State.clearErr]

theorem State.openBytes_reportView (k n : Nat) : (s.openBytes k a n).reportView = s.reportView := rfl

theorem State.disturb_reportView : (s.disturb u bad).reportView = s.reportView := by
  simp [State.disturb, State.openBytes_reportView]

end Units

end Sys2Proof.Machine
end

section
/-!
PROOFS. The memory commands beside accesses: the patrol scrubber, drains, the error log and injection.
-/

namespace Sys2Proof.Machine

/-! ### The patrol scrubber (R179, R180) -/

section Scrub
variable {s : State} {τ bad d : Nat}

/-- The state once the scrubber has set its next due time to `d` and read its line. -/
def State.scrubbed (s : State) (d bad : Nat) : State :=
  let s := s.setMem { s.memu with scrubDue := d }
  (s.disturb (64 * s.memu.scrubLine) bad).readUnit 0 (64 * s.memu.scrubLine)

/-- The state once the scrubber stands at its next line, with a pass counted after the last. -/
def State.scrubNext (s : State) : State :=
  if dramLines ≤ s.memu.scrubLine + 1 then (s.setMem { s.memu with scrubLine := 0 }).inc bMEM4 MEM4_CNT_SCRUB_PASSES
  else s.setMem { s.memu with scrubLine := s.memu.scrubLine + 1 }

theorem execScrubRead_eq (s : State) (τ bad : Nat) : execScrubRead τ bad s =
    .next (if (s.at τ).rd bMEM4 MEM4_SCRUB_SCRUB_EN = 1 ∧ (s.at τ).isOn bMEM4 ∧ (s.at τ).rd bPWR PWR_STAT_STATE < 2 ∧
      (s.at τ).scrubIsDue then
      ((s.at τ).scrubbed (max ((s.at τ).memu.scrubDue + (s.at τ).scrubGap) ((s.at τ).now * dramLines)) bad).scrubNext
    else s.at τ) := by rfl

theorem exec_scrubRead (he : s.rd bMEM4 MEM4_SCRUB_SCRUB_EN = 1) (ho : s.isOn bMEM4 = true) (hp : s.rd bPWR PWR_STAT_STATE < 2)
    (hd : s.memu.scrubDue ≤ (s.at τ).now * dramLines) : exec (.scrubRead τ bad) s =
      .next ((s.at τ).scrubbed (max (s.memu.scrubDue + s.rd bMEM4 MEM4_SCRUB_PERIOD_H * 3600000000000)
        ((s.at τ).now * dramLines)) bad).scrubNext := by
  change execScrubRead τ bad s = _
  rw [execScrubRead_eq, if_pos (by simp [he, ho, hp, hd, State.scrubIsDue])]
  simp only [State.at_memu, State.scrubGap, State.at_rd]

/-- The read of a line moves neither the scrubber's line nor its count of passes. -/
theorem State.scrubbed_spec (s : State) (d bad : Nat) : (s.scrubbed d bad).memu.scrubLine = s.memu.scrubLine ∧
    (s.scrubbed d bad).memu.scrubDue = d ∧
    (s.scrubbed d bad).cnt bMEM4 MEM4_CNT_SCRUB_PASSES = s.cnt bMEM4 MEM4_CNT_SCRUB_PASSES := by
  have h : (s.scrubbed d bad).reportView = (s.setMem { s.memu with scrubDue := d }).reportView :=
    State.readUnit_reportView.trans State.disturb_reportView
  simp only [State.reportView, State.bystanders, Prod.mk.injEq] at h
  obtain ⟨⟨-, -, -, hline, hdue⟩, hpasses⟩ := h
  exact ⟨hline, hdue, hpasses⟩

theorem State.scrubNext_spec (s : State) :
    s.scrubNext.memu.scrubLine = (if dramLines ≤ s.memu.scrubLine + 1 then 0 else s.memu.scrubLine + 1) ∧
    s.scrubNext.memu.scrubDue = s.memu.scrubDue ∧ s.scrubNext.cnt bMEM4 MEM4_CNT_SCRUB_PASSES =
      (if dramLines ≤ s.memu.scrubLine + 1 then satInc (s.cnt bMEM4 MEM4_CNT_SCRUB_PASSES) 1 else s.cnt bMEM4 MEM4_CNT_SCRUB_PASSES) := by
  unfold State.scrubNext
  split
  · exact ⟨rfl, rfl, State.cnt_inc ..⟩
  · exact ⟨rfl, rfl, rfl⟩

end Scrub

/-! ### Drains (R185) -/

section Drain
variable {s : State} {τ i n v k : Nat}

@[simp] theorem State.at_sliceSt (s : State) (τ n : Nat) : (s.at τ).sliceSt n = s.sliceSt n := by simp [State.sliceSt]

@[simp] theorem State.setSliceSt_sliceSt (s : State) (n v : Nat) : (s.setSliceSt n v).sliceSt n = v := Store.get_put_same

/-- The slices that can take the buckets of slice `n`. -/
def State.takers (s : State) (n : Nat) : List Nat := (List.range 4).filter (fun k => k != n && s.sliceSt k == 0 && s.isOn (bMEM k))

/-- One bucket of slice `n` moves to the next of the slices `rest`. -/
def State.moveBucket (s : State) (n : Nat) (rest : List Nat) (q : Store Nat × Nat) (k : Nat) : Store Nat × Nat :=
  if s.sliceOf k = n then (bucketPut q.1 k (nth 0 rest (q.2 % rest.length)), q.2 + 1) else q

theorem State.moveBuckets_eq (s : State) (n : Nat) : s.moveBuckets n = if (s.takers n).isEmpty then s else
    s.setMem { s.memu with buckets := ((List.range 256).foldl (s.moveBucket n (s.takers n)) (s.memu.buckets, 0)).1 } := rfl

theorem State.moveBuckets_regs (s : State) (n : Nat) : (s.moveBuckets n).regs = s.regs := by
  rw [State.moveBuckets_eq]
  split <;> rfl

/-- The next slice in turn is one of the list. -/
theorem nth_turn_mem {rest : List Nat} (h : rest ≠ []) (j : Nat) : nth 0 rest (j % rest.length) ∈ rest := by
  have hlt : j % rest.length < rest.length := Nat.mod_lt _ (List.length_pos_of_ne_nil h)
  rw [nth, List.getD_eq_getElem _ _ hlt]
  exact List.getElem_mem hlt

/-- After some buckets have moved, each names one of the slices that took them, or is as it was and none of the buckets moved. -/
theorem State.moveBucket_foldl {rest : List Nat} (h : rest ≠ []) (l : List Nat) (q : Store Nat × Nat) (k : Nat) :
    Store.get (k % 4) (l.foldl (s.moveBucket n rest) q).1 k ∈ rest ∨
    (Store.get (k % 4) (l.foldl (s.moveBucket n rest) q).1 k = Store.get (k % 4) q.1 k ∧ (k ∈ l → s.sliceOf k ≠ n)) := by
  induction l generalizing q with
  | nil => exact .inr ⟨rfl, nofun⟩
  | cons j r ih =>
    rw [List.foldl_cons]
    rcases ih (s.moveBucket n rest q j) with hin | ⟨hget, hr⟩
    · exact .inl hin
    · rw [hget]
      by_cases hj : s.sliceOf j = n
      · rw [State.moveBucket, if_pos hj, bucketPut]
        by_cases hk : k = j
        · subst hk
          exact .inl (by rw [Store.get_put_same]; exact nth_turn_mem h _)
        · exact .inr ⟨Store.get_put_ne fun e => hk e.symm, fun hm => hr (List.mem_of_ne_of_mem hk hm)⟩
      · rw [State.moveBucket, if_neg hj]
        exact .inr ⟨rfl, fun hk => (List.mem_cons.1 hk).elim (fun e => e ▸ hj) hr⟩

/-- The buckets of a slice that others can take name it no more. -/
theorem State.moveBuckets_sliceOf (h : s.takers n ≠ []) (hk : k ∈ List.range 256) : (s.moveBuckets n).sliceOf k ≠ n := by
  rw [State.moveBuckets_eq, if_neg (by rwa [List.isEmpty_iff]), State.sliceOf]
  rcases State.moveBucket_foldl (s := s) (n := n) h (List.range 256) (s.memu.buckets, 0) k with hin | ⟨hget, hr⟩
  · have hne := (List.mem_filter.1 hin).2
    simp only [Bool.and_eq_true, bne_iff_ne] at hne
    exact hne.1.1
  · exact fun e => hr hk (hget.symm.trans e)

theorem MEM_CTRL_apart : MEM_CTRL_DRAIN.apart false = true ∧ MEM_CTRL_DRAINED.apart false = true := by decide

/-- A slice in `ON` that holds buckets begins its drain. -/
theorem State.drainWrite_begins (h0 : s.sliceSt n = 0) (ho : s.isOn (bMEM n) = true) :
    s.drainWrite n 1 = ((s.wr (bMEM n) MEM_CTRL_DRAIN 1).moveBuckets n).setSliceSt n 1 := by
  have hon (k : Nat) : (s.wr (bMEM n) MEM_CTRL_DRAIN 1).isOn k = s.isOn k := by
    rw [State.isOn, State.wr_fsm MEM_CTRL_apart.1]
    rfl
  have hst : (s.wr (bMEM n) MEM_CTRL_DRAIN 1).sliceSt n = 0 := h0
  simp only [State.drainWrite, hst, hon, ho, and_self, if_true]

theorem State.wr_drain_takers (s : State) (n v : Nat) : (s.wr (bMEM n) MEM_CTRL_DRAIN v).takers n = s.takers n := by
  refine List.filter_congr fun k _ => ?_
  rw [State.isOn, State.wr_fsm MEM_CTRL_apart.1]
  rfl

theorem exec_drain (hn : n < 4) (ha : s.regAllowed i true (bMEM n) 4 = true) :
    exec (.drain τ i n v) s = .next ((s.at τ).drainWrite n (v % 2)) := by
  refine congrArg Host.Outcome.next ((if_neg (by omega)).trans (if_neg ?_))
  simp [ha]

theorem State.flushSlices_lines {p : Nat → Bool} : ∀ e ∈ (s.flushSlices p).memu.lines, p e.2.slice = false := by
  intro e h
  simpa using (List.mem_filter.1 h).2

theorem exec_drainDone (hn : n < 4) (h1 : s.sliceSt n = 1) :
    exec (.drainDone τ n) s = .next ((((s.at τ).flushSlices (· == n)).setSliceSt n 3).wr (bMEM n) MEM_CTRL_DRAINED 1) := by
  have hst : (s.at τ).sliceSt n = 1 := by rw [State.at_sliceSt, h1]
  refine congrArg Host.Outcome.next ((if_pos ⟨hn, .inl hst⟩).trans ?_)
  simp [hst]

end Drain

/-! ### The error log and error injection (R197, R203) -/

section LogAndInjection
variable {s : State} {τ i v d : Nat}

theorem exec_mem4LogRd (ha : s.regAllowed i true bMEM4 0x300 = true) :
    exec (.mem4LogRd τ i v) s = .next ((s.at τ).logRelease (v % 256)) := by
  refine congrArg Host.Outcome.next (if_neg ?_)
  simp [ha]

/-- The index of the `d`-th unread record releases it and those before it. -/
theorem State.logRelease_unread (hv : v % 256 = (s.memu.logIdx + d) % 256) (hd : d < s.memu.log.length) (h256 : d < 256) :
    s.logRelease (v % 256) = s.setMem { s.memu with log := s.memu.log.drop (d + 1), logIdx := (s.memu.logIdx + d + 1) % 256 } := by
  have hk : (v % 256 % 256 + 256 - s.memu.logIdx % 256) % 256 = d := by omega
  simp only [State.logRelease, hk, hd, if_true]

theorem injListed_target {target unit : Nat} (h : injListed target unit = true) : 1 ≤ target ∧ target ≤ 6 := by
  by_contra hc
  have h0 : ¬ (target = 1 ∨ target = 2) ∧ ¬ (target = 3 ∨ target = 4) ∧ ¬ (target = 5 ∨ target = 6) := by omega
  simp [injListed, h0] at h

theorem MEM4_INJ_keys : fkey bMEM4 MEM4_INJ_UNIT ≠ fkey bMEM4 MEM4_INJ_TARGET ∧ fkey bMEM4 MEM4_INJ_TARGET ≠ fkey bMEM4 MEM4_INJ_UNIT ∧
    fkey bMEM4 MEM4_INJ_ARM ≠ fkey bMEM4 MEM4_INJ_TARGET ∧ fkey bMEM4 MEM4_INJ_ARM ≠ fkey bMEM4 MEM4_INJ_UNIT := by decide

/-- A write with `ARM` of a listed target and unit, where the initiator may, arms them. -/
theorem State.injWrite_arms (hi : s.mgmtOrHost i = true) (hj : s.jobRun = false) (hv : bit v 0 = 1)
    (hl : injListed (bits v 20 4) (bits v 24 8) = true) : s.injWrite i v =
      ((s.wr bMEM4 MEM4_INJ_UNIT (bits v 24 8)).wr bMEM4 MEM4_INJ_TARGET (bits v 20 4)).wr bMEM4 MEM4_INJ_ARM 1 := by
  obtain ⟨hut, htu, -, -⟩ := MEM4_INJ_keys
  have ht : bits v 20 4 % 2 ^ MEM4_INJ_TARGET.w = bits v 20 4 := Nat.mod_eq_of_lt (bits_lt ..)
  have hu : bits v 24 8 % 2 ^ MEM4_INJ_UNIT.w = bits v 24 8 := Nat.mod_eq_of_lt (bits_lt ..)
  have hw : MEM4_INJ_TARGET.w ≤ 32 ∧ MEM4_INJ_UNIT.w ≤ 32 := by decide
  simp [State.injWrite, hi, hj, hv, injListed_target hl, htu, ht, hu, hw, hl]

end LogAndInjection

/-- Settles O22. The scrubber's standing is beside all that a report of its line's error does; a drain is a turn of the slice's buckets over the
slices that can take them. -/
theorem slicesScrubLogAndInjection : Obligations.SlicesScrubLogAndInjection := by
  unfold Obligations.SlicesScrubLogAndInjection
  refine ⟨?scrub, ?drain, ?drained, ?log, ?arm⟩
  case scrub =>
    intro s τ bad he ho hp hd
    refine ⟨_, exec_scrubRead he ho hp hd, ?_⟩
    simp only [State.scrubNext_spec, State.scrubbed_spec, State.at_memu, State.at_cnt, and_self]
  case drain =>
    intro s τ i n v hn ha hv h0 ho
    refine ⟨_, exec_drain hn ha, ?_⟩
    rw [hv, State.drainWrite_begins (by simpa using h0) (by simpa using ho)]
    refine ⟨State.setSliceSt_sliceSt .., ?_, fun ht k hk => State.moveBuckets_sliceOf ?_ hk⟩
    · simp only [State.rd, State.setSliceSt, State.setMem, State.moveBuckets_regs]
      exact State.rd_wr_bit rfl
    · rw [State.wr_drain_takers]
      obtain ⟨j, hj, hp⟩ := List.any_eq_true.1 ht
      exact List.ne_nil_of_mem (List.mem_filter.2 ⟨hj, by simpa using hp⟩)
  case drained =>
    intro s τ n hn h1
    exact ⟨_, exec_drainDone hn h1, State.setSliceSt_sliceSt .., State.rd_wr_bit rfl,
      fun e he => by simpa using State.flushSlices_lines (s := s.at τ) (p := (· == n)) e he⟩
  case log =>
    intro s τ i v d ha hv hd h256
    rw [exec_mem4LogRd ha, State.logRelease_unread (by simpa using hv) (by simpa using hd) h256, State.at_memu]
  case arm =>
    intro s τ i v hi hj hv hl
    obtain ⟨hut, htu, hat, hau⟩ := MEM4_INJ_keys
    refine ⟨_, congrArg Host.Outcome.next (State.injWrite_arms (by simpa using hi) (by simpa using hj) hv hl), State.rd_wr_bit rfl, ?_, ?_⟩
    · rw [State.rd_wr_ne _ _ _ _ _ _ hat, State.rd_wr_same _ _ _ _ (by decide)]
      exact Nat.mod_eq_of_lt (bits_lt ..)
    · rw [State.rd_wr_ne _ _ _ _ _ _ hau, State.rd_wr_ne _ _ _ _ _ _ htu, State.rd_wr_same _ _ _ _ (by decide)]
      exact Nat.mod_eq_of_lt (bits_lt ..)

end Sys2Proof.Machine
end

section
/-!
PROOFS. Every listed Tack instruction is issued with a cost of 1 at least, and what an issue does where the predicate is false or the work limit
is reached.
-/

namespace Sys2Proof.Machine

/-! ### Issued instructions -/

/-- A command of a Tack instruction issues an operation of that group and function, whose cost is 1 at least. -/
def TackCmd.IsIssue (f : TackCmd) (grp func : Nat) : Prop :=
  ∃ o : Nat → Op, (∀ s c pr body, exec (f c pr body) s = s.issue c pr body (o c)) ∧
    ∀ c, (o c).grp = grp ∧ (o c).func = func ∧ ∀ b t, 1 ≤ (o c).cost b t

theorem xferCost_pos (b : Nat) (t : Tile) : 1 ≤ xferCost b t := by
  unfold xferCost
  split <;> omega

theorem mmaCost_pos (fmt : Nat) : 1 ≤ mmaCost fmt := by
  unfold mmaCost
  repeat' split
  all_goals omega

/-- The tables of `tackRows` are issued. -/
theorem tables_isIssue : (∀ e ∈ scalarRows, TackCmd.IsIssue e.1 0 e.2.1) ∧ (∀ e ∈ scalarRows1, TackCmd.IsIssue e.1 0 e.2.1) ∧
    (∀ e ∈ immRows, TackCmd.IsIssue e.1 1 e.2.1) ∧ (∀ e ∈ shiftRows, TackCmd.IsIssue e.1 1 e.2.1) ∧
    (∀ e ∈ cmpRows, TackCmd.IsIssue e.1 2 e.2.2.1) ∧ (∀ e ∈ cmpRows, TackCmd.IsIssue e.2.1 2 (0x10 + e.2.2.1)) ∧
    (∀ e ∈ predRows, TackCmd.IsIssue e.1 2 e.2.1) ∧ (∀ e ∈ loadRows, TackCmd.IsIssue e.1 5 e.2.1) ∧
    (∀ e ∈ storeRows, TackCmd.IsIssue e.1 5 e.2.1) ∧ (∀ e ∈ laneRows, TackCmd.IsIssue e.1 8 e.2.1) ∧
    (∀ e ∈ bitLaneRows, TackCmd.IsIssue e.1 8 e.2.1) ∧ (∀ e ∈ funRows, TackCmd.IsIssue e.1 0xA e.2) ∧
    (∀ e ∈ gfRows, TackCmd.IsIssue e.1 0xB e.2.1) := by
  refine ⟨?_, ?_, ?_, ?_, ?_, ?_, ?_, ?_, ?_, ?_, ?_, ?_, ?_⟩
  all_goals
    repeat' refine List.forall_mem_cons.2 ⟨⟨fun _ => _, fun _ _ _ _ => rfl, fun _ => ⟨rfl, rfl, fun _ _ => Nat.succ_pos _⟩⟩, ?_⟩
    nofun

/-- So are the instructions that `tackRows` names one by one, here those of a fixed cost. -/
theorem singles_isIssue : ∀ e ∈ ([(.sel, 0, 0x14), (.li, 1, 0x20), (.lih, 1, 0x21), (.amov, 3, 1), (.aadd, 3, 2), (.aaddi, 3, 3), (.amovs, 3, 4),
    (.alocal, 3, 5), (.br, 4, 1), (.jr, 4, 2), (.call, 4, 3), (.ret, 4, 4), (.loop, 4, 5), (.vld, 5, 0x10), (.vst, 5, 0x11), (.nop, 7, 0),
    (.endTile, 7, 1), (.trap, 7, 2), (.wait, 7, 3), (.xpf, 7, 4), (.vcvt, 9, 1), (.vwid, 9, 2), (.vnar, 9, 3), (.vqsx, 9, 4), (.vbcast, 9, 5),
    (.vmovi, 9, 6), (.vperm, 9, 7), (.vgetf, 9, 8), (.vclrf, 9, 9), (.vredsum, 0xA, 1), (.vredmax, 0xA, 2), (.vredmin, 0xA, 3),
    (.vsqrt, 0xA, 0x14), (.vdiv, 0xA, 0x15), (.gfMulc, 0xB, 8), (.acczero, 0xD, 1), (.accst, 0xD, 2), (.accld, 0xD, 3), (.acc2v, 0xD, 4),
    (.v2acc, 0xD, 5)] : List (TackCmd × Nat × Nat)), TackCmd.IsIssue e.1 e.2.1 e.2.2 := by
  repeat' refine List.forall_mem_cons.2 ⟨⟨fun _ => _, fun _ _ _ _ => rfl, fun _ => ⟨rfl, rfl, fun _ _ => Nat.succ_pos _⟩⟩, ?_⟩
  nofun

/-- Here those whose cost depends on their operands. -/
theorem priced_isIssue : TackCmd.IsIssue .xld 6 1 ∧ TackCmd.IsIssue .xst 6 2 ∧ TackCmd.IsIssue .xcp 6 3 ∧ TackCmd.IsIssue .mma 0xC 1 :=
  ⟨⟨fun _ => _, fun _ _ _ _ => rfl, fun _ => ⟨rfl, rfl, xferCost_pos⟩⟩,
    ⟨fun _ => _, fun _ _ _ _ => rfl, fun _ => ⟨rfl, rfl, xferCost_pos⟩⟩,
    ⟨fun _ => _, fun _ _ _ _ => rfl, fun _ => ⟨rfl, rfl, xferCost_pos⟩⟩,
    ⟨fun _ => _, fun _ _ _ _ => rfl, fun _ => ⟨rfl, rfl, fun _ _ => mmaCost_pos _⟩⟩⟩

/-- Every listed instruction is issued. -/
theorem tackRows_isIssue : ∀ e ∈ tackRows, TackCmd.IsIssue e.1 e.2.1 e.2.2 := by
  obtain ⟨hscalar, hscalar1, himm, hshift, hcmp, hcmpi, hpred, hload, hstore, hlane, hbit, hfun, hgf⟩ := tables_isIssue
  obtain ⟨hxld, hxst, hxcp, hmma⟩ := priced_isIssue
  have hs := singles_isIssue
  simp only [List.forall_mem_cons] at hs
  unfold tackRows
  simp only [List.forall_mem_append, List.forall_mem_map, and_assoc]
  refine ⟨hscalar, hscalar1, ?_, himm, hshift, ?_, hcmp, hcmpi, hpred, ?_, hload, hstore, ?_, hlane, hbit, ?_, ?_, hfun, hgf, ?_⟩
  all_goals
    simp only [List.forall_mem_cons, hs, hxld, hxst, hxcp, hmma, List.not_mem_nil, false_implies, implies_true, and_true]

/-! ### Predicate and work limit (R219, R236) -/

section Issue
variable {s : State} {c : Nat} {t : Tile} {pr : BitVec 4} {body : BitVec 48} {o : Op}

/-- An instruction whose predicate is false goes on at the next index, with cost 1. -/
theorem State.issue_passes (ht : s.tileOf c = some t) (he : t.ended = false) (hw : s.codeWord c t = opWord o.grp o.func pr.toNat body.toNat)
    (hf : (s.fetchWord c t).2.1 = 0) (hp : t.executes pr.toNat = false) (hk : t.work + 1 ≤ 1600)
    (hl : Lands (s.issued c t 1).1 c t (t.pc + 1) = true) : s.issue c pr body o = .next (s.after c t 1 fun x => x) := by
  obtain ⟨hpc, hcode, hlen, hloops, hended, -⟩ := State.issued_control s c 1 t
  have hk' : ¬ workMax < t.work + 1 := by unfold workMax; omega
  rw [State.issue_at ht he hw, State.after, ← State.advance_lands (w := opWord o.grp o.func pr.toNat body.toNat) (hended.trans he)
    (Lands.congr hl hpc hloops hcode hlen)]
  simp only [State.issueOp, hp, hf, hk', State.issued, Bool.false_eq_true, if_false, ne_eq, not_true, Bool.not_false, if_true]

/-- At a work count of 1,600, every instruction that is fetched ends the tile. -/
theorem State.issue_limit (ht : s.tileOf c = some t) (he : t.ended = false) (hw : s.codeWord c t = opWord o.grp o.func pr.toNat body.toNat)
    (hf : (s.fetchWord c t).2.1 = 0) (hk : t.work = 1600) (hc : ∀ b t, 1 ≤ o.cost b t) : s.issue c pr body o =
      .next ((s.fetchWord c t).1.tileTrap c t (opWord o.grp o.func pr.toNat body.toNat) workLimit) := by
  have hcost : workMax < t.work + if t.executes pr.toNat = true then o.cost body.toNat t else 1 := by
    have h := hc body.toNat t
    unfold workMax
    split <;> omega
  rw [State.issue_at ht he hw]
  simp only [State.issueOp, hf, hcost, ne_eq, not_true, if_false, if_true]

end Issue

end Sys2Proof.Machine
end

section
/-!
PROOFS. What the fetch of an instruction leaves alone (R247), and where a tile is put back.
-/

namespace Sys2Proof.Machine

/-! ### Reads -/

section Reads
variable {s : State} {i u a c d n w : Nat} {t : Tile}

theorem bystanders_foldl {α : Type} {g : State → α → State} (h : ∀ s x, (g s x).bystanders = s.bystanders) (l : List α) :
    (l.foldl g s).bystanders = s.bystanders := foldl_keeps State.bystanders fun s x _ => h s x

theorem State.countRep_bystanders (r : LogRec) : (s.countRep r).bystanders = s.bystanders := by
  refine (State.bystanders_of_reportView (State.report_reportView r)).trans ?_
  split <;> rfl

theorem State.storeRep_bystanders (r : LogRec) : (s.storeRep r).bystanders = s.bystanders := State.countRep_bystanders _

theorem State.settleFound_bystanders : s.settleFound.bystanders = s.bystanders := bystanders_foldl (fun _ => State.storeRep_bystanders) _

theorem State.readUnit_bystanders : (s.readUnit i u).bystanders = s.bystanders := State.bystanders_of_reportView State.readUnit_reportView

theorem State.readWord_bystanders : (s.readWord i w).bystanders = s.bystanders := by
  unfold State.readWord
  dsimp only
  split
  · rfl
  · split <;> exact State.storeRep_bystanders _

theorem State.touch_bystanders (wr : Bool) : (s.touch u wr).bystanders = s.bystanders :=
  State.bystanders_of_reportView (State.touch_reportView u wr)

theorem State.demand_bystanders : (s.demand i u).bystanders = s.bystanders := by
  refine (State.touch_bystanders false).trans ?_
  split <;> rfl

theorem State.readUnits_bystanders : (s.readUnits i a n).bystanders = s.bystanders := by
  have h : ((dramUnits a n).foldl (fun s u => s.demand i u) ((unitsOf a n).foldl (fun s u => s.readUnit i u) s.settleFound)).bystanders =
      s.bystanders :=
    (bystanders_foldl (fun _ _ => State.demand_bystanders) _).trans
      ((bystanders_foldl (fun _ _ => State.readUnit_bystanders) _).trans State.settleFound_bystanders)
  unfold State.readUnits
  dsimp only
  split
  · exact h
  · exact (bystanders_foldl (fun _ _ => State.readWord_bystanders) _).trans h

theorem State.latchWake_bystanders (src : Nat) : (s.latchWake src).bystanders = s.bystanders := by
  unfold State.latchWake
  repeat' split
  all_goals rfl

theorem State.wake_bystanders (src : Nat) : (s.wake src).bystanders = s.bystanders := by
  unfold State.wake
  split
  · split
    · refine (State.bystanders_of_reportView (State.raise_reportView ..)).trans ?_
      exact (State.latchWake_bystanders (s := s.setPwr _) src)
    · rfl
  · dsimp only
    split
    · rfl
    · split <;> exact State.latchWake_bystanders (s := s) src

theorem State.wakeFor_bystanders (a : Nat) : (s.wakeFor a).bystanders = s.bystanders := by
  unfold State.wakeFor
  split
  · exact State.wake_bystanders 6
  · rfl

/-- A read that answers success has passed the check of its initiator. -/
theorem State.hwRead_state (h : (s.hwRead i a n).2.1 = 0) : (s.hwRead i a n).1 = (s.wakeFor a).readUnits i a n := by
  unfold State.hwRead at h ⊢
  dsimp only at h ⊢
  split at h
  · contradiction
  · split at h
    · cases h
    · rw [if_neg ‹_›, if_neg ‹_›]

/-- With no entry into a sleep state under way, an access to DRAM wakes the module without an event. -/
theorem State.wakeFor_memory (h : s.pwr.entry = none) : (s.wakeFor a).mem = s.mem ∧ (s.wakeFor a).errs = s.errs ∧
    (s.wakeFor a).poison = s.poison ∧ (s.wakeFor a).memu = s.memu := by
  have hl (src : Nat) : (s.latchWake src).mem = s.mem ∧ (s.latchWake src).errs = s.errs ∧ (s.latchWake src).poison = s.poison ∧
      (s.latchWake src).memu = s.memu := by
    unfold State.latchWake
    repeat' split
    all_goals exact ⟨rfl, rfl, rfl, rfl⟩
  unfold State.wakeFor State.wake
  rw [h]
  dsimp only
  repeat' split
  · exact ⟨rfl, rfl, rfl, rfl⟩
  · exact hl 6
  · exact hl 6
  · exact ⟨rfl, rfl, rfl, rfl⟩

/-- While no word of a cached line is bad, a line read on demand changes no byte and makes no word bad. -/
theorem State.demand_quiet (h : s.memu.word = []) : (s.demand i u).mem = s.mem ∧ (s.demand i u).memu.word = [] := by
  have hp (k : Nat) : (s.portRead k u).mem = s.mem ∧ (s.portRead k u).memu.word = [] := ⟨rfl, h⟩
  have ht {r : State} (hm : r.mem = s.mem ∧ r.memu.word = []) : (r.touch u false).mem = s.mem ∧ (r.touch u false).memu.word = [] := by
    obtain ⟨hmem, hword⟩ := hm
    simp [State.touch, hmem, hword]
  refine ht ?_
  split
  · exact hp _
  · exact ⟨rfl, h⟩

/-- A read of sound units with no report waiting and no bad word changes no byte. -/
theorem State.readUnits_mem (hs : s.UnitsSound (unitsOf a n)) (hf : s.memu.found = []) (hw : s.memu.word = []) :
    (s.readUnits i a n).mem = s.mem := by
  have hu : (unitsOf a n).foldl (fun s u => s.readUnit i u) s.settleFound = s := by
    rw [State.settleFound_nil hf]
    exact foldl_fixed fun u h => State.readUnit_sound (hs u h).1 (hs u h).2
  have hd (l : List Nat) : (l.foldl (fun s u => s.demand i u) s).mem = s.mem ∧ (l.foldl (fun s u => s.demand i u) s).memu.word = [] :=
    List.foldlRecOn l _ (motive := fun r : State => r.mem = s.mem ∧ r.memu.word = []) ⟨rfl, hw⟩
      fun r hr u _ => ⟨(State.demand_quiet hr.2).1.trans hr.1, (State.demand_quiet hr.2).2⟩
  unfold State.readUnits
  rw [hu]
  simp [hd]

end Reads

/-! ### The fetch -/

section Fetch
variable {s : State} {c d cost : Nat} {t : Tile}

theorem State.tileOf_of_clu {r : State} (h : r.clu = s.clu) (d : Nat) : r.tileOf d = s.tileOf d := by
  rw [State.tileOf, State.tileOf, State.cluX, State.cluX, h]

theorem State.setClu_cluX (h : d ≠ c) (x : Clu) : (s.setClu c x).cluX d = s.cluX d := Store.get_put_ne h.symm

theorem State.setClu_tileOf (h : d ≠ c) (x : Clu) : (s.setClu c x).tileOf d = s.tileOf d :=
  congrArg Clu.tile (State.setClu_cluX h x)

/-- A line taken into the instruction cache of a cluster. -/
theorem State.icTake_leaves (l : IcLine) : (s.icTake c l).mem = s.mem ∧ (s.icTake c l).pending = s.pending ∧ (s.icTake c l).now = s.now ∧
    ∀ d, d ≠ c → (s.icTake c l).tileOf d = s.tileOf d := by
  unfold State.icTake
  dsimp only
  split <;> exact ⟨rfl, rfl, rfl, fun d h => State.setClu_tileOf h _⟩

theorem State.addWork_leaves : (s.addWork c t cost).1.mem = s.mem ∧ (s.addWork c t cost).1.pending = s.pending ∧
    (s.addWork c t cost).1.now = s.now ∧ ∀ d, (s.addWork c t cost).1.tileOf d = s.tileOf d := by
  unfold State.addWork
  dsimp only
  split <;> exact ⟨rfl, rfl, rfl, fun _ => rfl⟩

/-- A fetch from the cache changes nothing. -/
theorem State.fetchWord_cached (h : (s.icLine c t).isSome = true) : (s.fetchWord c t).1 = s := by
  obtain ⟨l, hl⟩ := Option.isSome_iff_exists.1 h
  rw [State.fetchWord, hl]

/-- A fetch past the cache, without error, is a read and a line taken. -/
theorem State.fetchWord_refill (h : s.icLine c t = none) (hf : (s.fetchWord c t).2.1 = 0) : ∃ l, (s.fetchWord c t).1 =
    (((s.inc (bCLU c) CLU_CNT_IC_MISS).wakeFor (t.wordAt - t.wordAt % 64)).readUnits (iCLU c) (t.wordAt - t.wordAt % 64) 64).icTake c l := by
  rw [State.fetchWord, h] at hf ⊢
  dsimp only at hf ⊢
  rw [if_pos hf, State.hwRead_state hf]
  exact ⟨_, rfl⟩

/-- A fetch without error leaves the queue of commands, the time and the tiles of other clusters. -/
theorem State.fetchWord_leaves (hf : (s.fetchWord c t).2.1 = 0) : (s.fetchWord c t).1.pending = s.pending ∧ (s.fetchWord c t).1.now = s.now ∧
    ∀ d, d ≠ c → (s.fetchWord c t).1.tileOf d = s.tileOf d := by
  cases hi : s.icLine c t with
  | some l =>
    rw [State.fetchWord_cached (by rw [hi]; rfl)]
    exact ⟨rfl, rfl, fun _ _ => rfl⟩
  | none =>
    obtain ⟨l, hl⟩ := State.fetchWord_refill hi hf
    obtain ⟨-, hpending, hnow, htile⟩ := State.icTake_leaves (c := c) (s := ((s.inc (bCLU c) CLU_CNT_IC_MISS).wakeFor
      (t.wordAt - t.wordAt % 64)).readUnits (iCLU c) (t.wordAt - t.wordAt % 64) 64) l
    have hb := (State.readUnits_bystanders (i := iCLU c) (a := t.wordAt - t.wordAt % 64) (n := 64)).trans
      (State.wakeFor_bystanders (s := s.inc (bCLU c) CLU_CNT_IC_MISS) (t.wordAt - t.wordAt % 64))
    simp only [State.bystanders, Prod.mk.injEq] at hb
    obtain ⟨hnow', hpending', hclu, -, -⟩ := hb
    rw [hl]
    exact ⟨hpending.trans hpending', hnow.trans hnow', fun d hd => (htile d hd).trans (State.tileOf_of_clu hclu d)⟩

/-- A fetch from sound memory changes no byte. -/
theorem State.fetchWord_mem (hf : (s.fetchWord c t).2.1 = 0) (hs : s.UnitsSound (unitsOf (t.wordAt - t.wordAt % 64) 64))
    (hfound : s.memu.found = []) (hword : s.memu.word = []) (he : s.pwr.entry = none) : (s.fetchWord c t).1.mem = s.mem := by
  cases hi : s.icLine c t with
  | some l => rw [State.fetchWord_cached (by rw [hi]; rfl)]
  | none =>
    obtain ⟨l, hl⟩ := State.fetchWord_refill hi hf
    obtain ⟨hmem, herrs, hpoison, hmemu⟩ := State.wakeFor_memory (s := s.inc (bCLU c) CLU_CNT_IC_MISS) (a := t.wordAt - t.wordAt % 64) he
    rw [hl, (State.icTake_leaves l).1, State.readUnits_mem ?_ (by rw [hmemu]; exact hfound) (by rw [hmemu]; exact hword)]
    · exact hmem
    · rw [State.UnitsSound, herrs, hpoison]
      exact hs

/-- What fetching an instruction and adding its cost leaves. -/
theorem State.issued_leaves (hf : (s.fetchWord c t).2.1 = 0) : (s.issued c t cost).1.pending = s.pending ∧ (s.issued c t cost).1.now = s.now ∧
    ∀ d, d ≠ c → (s.issued c t cost).1.tileOf d = s.tileOf d := by
  obtain ⟨-, hpending, hnow, htile⟩ := State.addWork_leaves (s := (s.fetchWord c t).1) (c := c) (t := t) (cost := cost)
  obtain ⟨hpending', hnow', htile'⟩ := State.fetchWord_leaves hf
  exact ⟨hpending.trans hpending', hnow.trans hnow', fun d hd => (htile d).trans (htile' d hd)⟩

theorem State.issued_mem : (s.issued c t cost).1.mem = (s.fetchWord c t).1.mem := State.addWork_leaves.1

/-- Putting a tile back. -/
theorem State.placed_leaves (s : State) (c n : Nat) (t : Tile) : (s.placed c t n).tileOf c = some (t.stepLoop n) ∧
    (s.placed c t n).mem = s.mem ∧ (s.placed c t n).regs = s.regs ∧ (s.placed c t n).live = s.live ∧ (s.placed c t n).pending = s.pending ∧
    ∀ d, d ≠ c → (s.placed c t n).cluX d = s.cluX d :=
  ⟨by simp [State.placed, State.setTile, State.setClu, State.tileOf, State.cluX], rfl, rfl, rfl, rfl, fun _ hd => State.setClu_cluX hd _⟩

end Fetch

end Sys2Proof.Machine
end

section
/-!
PROOFS. The residue unit (R190, R282, R283): residues of elements, checks of struck results, and the statement about fetch, predicate and
work limit.
-/

namespace Sys2Proof.Machine

/-! ### Single bits -/

/-- A bit that turns over moves a number by its weight, up or down. -/
theorem xor_two_pow_moves (y i : Nat) : y ^^^ 2 ^ i = y + 2 ^ i ∨ (y ^^^ 2 ^ i) + 2 ^ i = y := by
  induction i generalizing y with
  | zero =>
    have h : (y ^^^ 1) % 2 = (y + 1) % 2 := Nat.xor_mod_two_eq
    have h2 : (y ^^^ 1) / 2 = y / 2 := by rw [Nat.xor_div_two]; simp
    rw [pow_zero]
    omega
  | succ i ih =>
    have h : (y ^^^ 2 ^ (i + 1)) % 2 = (y + 2 ^ (i + 1)) % 2 := Nat.xor_mod_two_eq
    have h2 : (y ^^^ 2 ^ (i + 1)) / 2 = y / 2 ^^^ 2 ^ i := by rw [Nat.xor_div_two, pow_succ, Nat.mul_div_cancel _ (by decide)]
    rw [pow_succ] at *
    rcases ih (y / 2) with hi | hi <;> omega

theorem two_pow_mod_fifteen (i : Nat) : 2 ^ i % 15 ≠ 0 := fun h =>
  absurd ((Nat.Coprime.pow_right i (by decide : Nat.Coprime 15 2)).eq_one_of_dvd (Nat.dvd_of_mod_eq_zero h)) (by decide)

/-- So it changes the number's residue. -/
theorem xor_two_pow_residue (y i : Nat) : (y ^^^ 2 ^ i) % 15 ≠ y % 15 := by
  have h := two_pow_mod_fifteen i
  rcases xor_two_pow_moves y i with hm | hm <;> omega

theorem two_pow_mod_two_pow {k n : Nat} (h : k < n) : 2 ^ k % 2 ^ n = 2 ^ k := Nat.mod_eq_of_lt (Nat.pow_lt_pow_right (by decide) h)

theorem mod_xor_mod (x y w : Nat) : (x % 2 ^ w ^^^ y % 2 ^ w) % 2 ^ w = x % 2 ^ w ^^^ y % 2 ^ w := by
  rw [Nat.xor_mod_two_pow, Nat.mod_mod, Nat.mod_mod]

theorem bits_xor (x y lo w : Nat) : bits (x ^^^ y) lo w = bits x lo w ^^^ bits y lo w := by
  simp only [bits, Nat.xor_div_two_pow, Nat.xor_mod_two_pow]

theorem bits_two_pow {k j : Nat} (h : k / 32 = j) : bits (2 ^ k) (32 * j) 32 = 2 ^ (k % 32) := by
  have hk : 2 ^ k = 2 ^ (k % 32) * 2 ^ (32 * j) := by rw [← pow_add, ← h, Nat.mod_add_div]
  rw [bits, hk, Nat.mul_div_cancel _ (Nat.two_pow_pos _), Nat.mod_eq_of_lt (Nat.pow_lt_pow_right (by decide) (Nat.mod_lt k (by decide)))]

/-! ### Residues (R282) -/

/-- The residue of an element is that of its value: 256 is 1 modulo 15. -/
theorem elemResidue_eq {v : Nat} : (v < 2 ^ 8 → elemResidue 8 v = v % 15) ∧ (v < 2 ^ 16 → elemResidue 16 v = v % 15) ∧
    (v < 2 ^ 32 → elemResidue 32 v = v % 15) := by
  have split16 (h : v < 2 ^ 16) : v = v % 256 + 256 * (v / 256 % 256) := by omega
  have split32 (h : v < 2 ^ 32) : v = v % 256 + 256 * (v / 256 % 256) + 65536 * (v / 65536 % 256) + 16777216 * (v / 16777216 % 256) := by
    omega
  have h8 : elemResidue 8 v = v % 256 % 15 := by simp [elemResidue, lanesOf, bits]
  have h16 : elemResidue 16 v = (v % 256 + v / 256 % 256) % 15 := by simp [elemResidue, lanesOf, bits, List.range_succ]
  have h32 : elemResidue 32 v = (v % 256 + (v / 256 % 256 % 15 + (v / 65536 % 256 % 15 + v / 16777216 % 256 % 15))) % 15 := by
    simp [elemResidue, lanesOf, bits, List.range_succ]
  refine ⟨fun h => ?_, fun h => ?_, fun h => ?_⟩
  · rw [h8, Nat.mod_eq_of_lt (b := 256) h]
  · have hv := split16 h
    rw [h16]
    generalize v % 256 = a, v / 256 % 256 = b at hv ⊢
    omega
  · have hv := split32 h
    rw [h32]
    generalize v % 256 = a, v / 256 % 256 = b, v / 65536 % 256 = d, v / 16777216 % 256 = e at hv ⊢
    omega

theorem signedResidue_eq {v w : Nat} (hw : w = 8 ∨ w = 16 ∨ w = 32) (hv : v < 2 ^ w) (he : elemResidue w v = v % 15) :
    signedResidue w v = residue (sext w v) := by
  have hbit : bit v (w - 1) = if 2 * v < 2 ^ w then 0 else 1 := by
    unfold bit
    rcases hw with rfl | rfl | rfl <;> split <;> omega
  rw [signedResidue, he, sext, Nat.mod_eq_of_lt hv, residue, hbit]
  split
  · omega
  · rcases hw with rfl | rfl | rfl <;> omega

/-- A field of a field. -/
theorem bits_bits {lo w k : Nat} (h : lo + w ≤ k) (n a : Nat) : bits (bits n a k) lo w = bits n (a + lo) w := by
  refine Nat.eq_of_testBit_eq fun i => ?_
  simp only [bits, Nat.testBit_mod_two_pow, Nat.testBit_div_two_pow]
  by_cases hi : i < w
  · have hk : i + lo < k := by omega
    have he : i + lo + a = i + (a + lo) := by omega
    simp [hi, hk, he]
  · simp [hi]

/-- The elements of packed lanes. -/
theorem bits_packLanes (w : Nat) (l : List Nat) (i : Nat) : bits (packLanes w l) (w * i) w = l.getD i 0 % 2 ^ w := by
  induction l generalizing i with
  | nil => simp [packLanes, bits]
  | cons x r ih =>
    cases i with
    | zero => simp [packLanes, bits]
    | succ i =>
      rw [List.getD_cons_succ, ← ih, bits, bits, packLanes, Nat.mul_succ, pow_add, Nat.mul_comm (2 ^ (w * i)), ← Nat.div_div_eq_div_mul,
        Nat.add_mul_div_left _ _ (Nat.two_pow_pos w), Nat.div_eq_of_lt (Nat.mod_lt _ (Nat.two_pow_pos w)), Nat.zero_add]

/-! ### Lanes and upsets -/

section Upset
variable {s : State} {t r x : Tile} {b c n j k m w v grp func : Nat} {legal : Nat → Option Trap} {run : CheckRun}
  {f : Nat → Tile → Nat × Nat} {pr : BitVec 4} {body : BitVec 48}

/-- In a tile whose residues are those of its data, a lane carries the residue of its value. -/
theorem Tile.lane_sound (h : t.off = []) (hn : n < 32) (j : Nat) :
    t.lane n j = (bits (t.vreg n) (32 * j) 32, bits (t.vreg n) (32 * j) 32 % 15) := by
  have hcell (k : Nat) : t.cellRes n (4 * j + k) = bits (t.vreg n) (32 * j + 8 * k) 8 % 15 := by
    have he : 8 * (4 * j + k) = 32 * j + 8 * k := by omega
    simp only [Tile.cellRes, Tile.offAt, h, Store.get, cellBits, hn, if_true, Tile.cell, Tile.row, he, Nat.add_zero]
    rw [elemResidue_eq.1 (bits_lt ..), Nat.mod_mod]
  rw [Tile.lane, ← elemResidue_eq.2.2 (bits_lt ..), elemResidue, lanesOf, List.map_map]
  congr 3
  refine List.map_congr_left fun k hk => ?_
  have hk4 : k < 4 := List.mem_range.1 hk
  rw [hcell, Function.comp, bits_bits (by omega)]

/-- Upsets that strike results alone leave the stored rows. -/
theorem Tile.struck_results (h : ∀ u ∈ t.ups, u.2.1 = 0) : t.struck = t := by
  have hd : t.ups.filter (fun u => decide (u.1 ≤ t.work) && u.2.1 != 0) = [] :=
    List.filter_eq_nil_iff.2 fun u hu => by simp [h u hu]
  have hk : t.ups.filter (fun u => !(decide (u.1 ≤ t.work) && u.2.1 != 0)) = t.ups :=
    List.filter_eq_self.2 fun u hu => by simp [h u hu]
  rw [Tile.struck, hd, hk]
  rfl

theorem vVD_lt (b : Nat) : vVD b < 32 := bits_lt ..

theorem Tile.setV_vreg (t : Tile) (n v : Nat) : (t.setV n v).vreg n = v % 2 ^ 2048 := Store.get_put_same

/-- Bits of a vector register turn over. -/
theorem Tile.flip_vreg (hn : n < 32) (m : Nat) : (t.flip n m).vreg n = (t.vreg n ^^^ m % 2 ^ 2048) % 2 ^ 2048 := by
  simp only [Tile.flip, hn, if_true, Tile.setV_vreg, Tile.row]
  rfl

/-- The result of an instruction that writes a vector, once its one due upset has struck it. -/
def Tile.upset (r : Tile) (b m : Nat) : Tile := ({ r with ups := [] } : Tile).flip (vVD b) m

/-- The check of an instruction that writes a vector, with one upset due in its result. -/
theorem vOp_checked (hr : r.ups = [(w, 0, m)]) (hw : w ≤ r.work) :
    (vOp grp func n legal run f).checked b s t r =
      ({ r.upset b m with mism := (r.upset b m).mism || (run b s t r (r.upset b m)).1 } : Tile).setOffs (run b s t r (r.upset b m)).2 := by
  simp [Op.checked, hr, hw, vOp, vCheck, Tile.upset]

/-- No check clears the mismatch flag. -/
theorem Op.checked_mism {o : Op} (h : r.mism = true) : (o.checked b s t r).mism = true := by
  have hflip (l : List (Nat × Nat)) (g : Nat × Nat → Nat) (x : Tile) : (l.foldl (fun x e => x.flip e.1 (g e)) x).mism = x.mism :=
    foldl_keeps Tile.mism fun x e _ => by rw [Tile.flip_parts]
  unfold Op.checked
  split
  · exact h
  · simp [Tile.setOffs, hflip, h]

theorem Tile.upset_control (r : Tile) (b m : Nat) : (r.upset b m).pc = r.pc ∧ (r.upset b m).loops = r.loops ∧ (r.upset b m).code = r.code ∧
    (r.upset b m).len = r.len ∧ (r.upset b m).ended = r.ended := by
  rw [Tile.upset, Tile.flip_parts]
  exact ⟨rfl, rfl, rfl, rfl, rfl⟩

theorem Tile.stepLoop_mism (t : Tile) (n : Nat) : (t.stepLoop n).mism = t.mism := by
  unfold Tile.stepLoop
  split
  · rfl
  · split
    · split <;> rfl
    · rfl

/-- The tile with the right result of an instruction that writes a vector with flags. -/
def Tile.result (t : Tile) (b : Nat) (p : Nat × Nat) : Tile := (t.setV (vVD b) p.1).flag p.2

theorem Tile.flag_vreg (t : Tile) (f n : Nat) : (t.flag f).vreg n = t.vreg n := rfl

theorem Tile.result_vreg (t : Tile) (b : Nat) (p : Nat × Nat) : (t.result b p).vreg (vVD b) = p.1 % 2 ^ 2048 := by
  rw [Tile.result, Tile.flag_vreg, Tile.setV_vreg]

/-- The result that an upset has struck differs by the bits turned over. -/
theorem Tile.upset_result (t : Tile) (b m : Nat) (p : Nat × Nat) :
    ((t.result b p).upset b m).vreg (vVD b) = (t.result b p).vreg (vVD b) ^^^ m % 2 ^ 2048 := by
  have hu : ({ t.result b p with ups := [] } : Tile).vreg (vVD b) = (t.result b p).vreg (vVD b) := rfl
  rw [Tile.upset, Tile.flip_vreg (vVD_lt b), hu, Tile.result_vreg, mod_xor_mod]

theorem vOp_eff (s : State) (t : Tile) (b : Nat) : (vOp grp func n legal run f).eff b s t = Eff.reg s (t.result b (f b t)) := rfl

/-- An instruction whose check fails on its struck result goes on with the mismatch flag set. -/
theorem State.issue_detects (h : Runs s c t grp func 1 pr body = true) (hl : legal body.toNat = none) (hu : t.ups = [(w, 0, m)])
    (hw : w ≤ t.work + 1)
    (hbad : ∀ (z : State) (u : Tile), u = { t with work := t.work + 1 } →
      (run body.toNat z u (u.result body.toNat (f body.toNat u)) ((u.result body.toNat (f body.toNat u)).upset body.toNat m)).1 = true) :
    ∃ z, s.issue c pr body (vOp grp func 1 legal run f) = .next z ∧ ∃ x, z.tileOf c = some x ∧ x.mism = true := by
  obtain ⟨hi, hland⟩ := Bool.and_eq_true_iff.1 h
  obtain ⟨-, hended, -⟩ := Issues.parts hi
  have hstruck : (s.issued c t 1).2 = { t with work := t.work + 1 } :=
    Tile.struck_results (t := { t with work := t.work + 1 }) (by simp [hu])
  rw [State.issue_effect (o := vOp grp func 1 legal run f) hi hl]
  have hk : (vOp grp func 1 legal run f).cost body.toNat t = 1 := rfl
  simp only [hk, vOp_eff, Eff.reg, Option.getD_none]
  generalize hz : (s.issued c t 1).1 = z at *
  generalize hv : (s.issued c t 1).2 = u at *
  have hb := hbad z u hstruck
  obtain ⟨hpc, hloops, hcode, hlen, hend⟩ := (u.result body.toNat (f body.toNat u)).upset_control body.toNat m
  have hr : (u.result body.toNat (f body.toNat u)).ups = [(w, 0, m)] := by rw [hstruck]; exact hu
  have hwork : w ≤ (u.result body.toNat (f body.toNat u)).work := by rw [hstruck]; exact hw
  rw [vOp_checked hr hwork, State.advance_lands]
  · refine ⟨_, rfl, _, (State.placed_leaves ..).1, ?_⟩
    rw [Tile.stepLoop_mism]
    simp [Tile.setOffs, hb]
  · exact hend.trans (by rw [hstruck]; exact hended)
  · exact Lands.congr hland (hpc.trans (by rw [hstruck]; rfl)) (hloops.trans (by rw [hstruck]; rfl)) (hcode.trans (by rw [hstruck]; rfl))
      (hlen.trans (by rw [hstruck]; rfl))

end Upset

/-! ### Legal operands -/

theorem vLegal_clean {use : List VF} {ts : List Nat} {body : BitVec 48} (hc : vClean use body = true) (ht : ts.contains (vT body.toNat) = true) :
    vLegal use ts body.toNat = none := by
  obtain ⟨hz, ha⟩ := Bool.and_eq_true_iff.1 hc
  have hn : (vfAll.filter fun f => !use.contains f).any (fun f => f.get body.toNat != 0) = false := by
    rw [List.any_eq_false]
    intro f hf
    simpa using List.all_eq_true.1 ha f hf
  have hz' : bits body.toNat 16 2 = 0 := by simpa using hz
  unfold vLegal
  rw [if_neg (by simp only [ht]; simp), if_neg (by rw [hz', hn]; simp)]

/-! ### Checks that find an upset (R283) -/

/-- A lane of the result of a lane operation. -/
theorem mapLanes_lane {j : Nat} (hj : j < 64) (g : Nat → Nat → Nat → Nat × Nat) (a b d : Nat) :
    bits ((mapLanes g a b d).1 % 2 ^ 2048) (32 * j) 32 = (g (bits a (32 * j) 32) (bits b (32 * j) 32) (bits d (32 * j) 32)).1 % 2 ^ 32 := by
  have h0 (v : Nat) : v % 2 ^ 2048 = bits v 0 2048 := by rw [bits, pow_zero, Nat.div_one]
  rw [h0, bits_bits (by omega), Nat.zero_add, mapLanes, joinLanes, bits_packLanes]
  simp [hj]

/-- The prediction of a sum fails on a result whose residue is not that of the sum's low bits. -/
theorem wrapBad_sum {x y r : Nat} (hr : r < 2 ^ 32) (h : r % 15 ≠ (x + y) % 2 ^ 32 % 15) :
    wrapBad (x % 15 + y % 15) r ((x + y) / 2 ^ 32) = true := by
  rw [wrapBad, elemResidue_eq.2.2 hr, bne_iff_ne]
  omega

section Detect
variable {s : State} {c w k m : Nat} {t : Tile} {pr : BitVec 4} {body : BitVec 48}

/-- One bit turned over in the result of an INT32 addition fails its check. -/
theorem chkAdd_upset {z : State} (ho : t.off = []) (hk : k < 2048) (b : Nat) :
    (chkAdd b z t (t.result b (mapLanes (fun x y _ => plain (x + y)) (t.vreg (vVA b)) (t.vreg (vVB b)) (t.vreg (vVC b))))
      ((t.result b (mapLanes (fun x y _ => plain (x + y)) (t.vreg (vVA b)) (t.vreg (vVB b)) (t.vreg (vVC b)))).upset b (2 ^ k))).1 = true := by
  have hj : k / 32 < 64 := by omega
  have hm : 2 ^ k % 2 ^ 2048 = 2 ^ k := two_pow_mod_two_pow hk
  refine List.any_eq_true.2 ⟨k / 32, List.mem_range.2 hj, ?_⟩
  rw [Tile.lane_sound ho (bits_lt ..), Tile.lane_sound ho (bits_lt ..), Tile.upset_result, hm, bits_xor, bits_two_pow rfl, Tile.result_vreg,
    mapLanes_lane hj]
  refine wrapBad_sum ?_ ?_
  · exact Nat.xor_lt_two_pow (Nat.mod_lt _ (Nat.two_pow_pos _)) (Nat.pow_lt_pow_right (by decide) (Nat.mod_lt _ (by decide)))
  · simpa [plain] using xor_two_pow_residue _ (k % 32)

/-- Any bits turned over in a result differ from its shadow lane's. -/
theorem chkShadow_upset {z : State} (hm : m % 2 ^ 2048 ≠ 0) (b : Nat) (p : Nat × Nat) :
    (chkShadow b z t (t.result b p) ((t.result b p).upset b m)).1 = true := by
  refine bne_iff_ne.2 fun he => hm ?_
  rw [Tile.upset_result] at he
  exact Nat.xor_right_injective (he.symm.trans (Nat.xor_zero _).symm)

theorem exec_vadd_detects (ho : t.off = []) (hu : t.ups = [(w, 0, 2 ^ k)]) (hw : w ≤ t.work + 1) (hk : k < 2048)
    (hc : vClean [.vd, .va, .t, .vb] body = true) (hT : vT body.toNat = 1) (h : Runs s c t 8 0x01 1 pr body = true) :
    Completes (.vadd c pr body) s (fun z => ∃ x, z.tileOf c = some x ∧ x.mism = true) := by
  refine State.issue_detects (run := chkByT (chkFp [vVA, vVB]) chkAdd) h (vLegal_clean hc (by rw [hT]; rfl)) hu hw fun z u hz => ?_
  simp only [chkByT, hT, one_ne_zero, if_false]
  exact chkAdd_upset (by rw [hz]; exact ho) hk _

/-- The bitwise operations that a shadow lane executes again. -/
theorem exec_bitwise_detects {f : TackCmd} {func : Nat} {int : Nat → Nat → Nat → Nat}
    (he : ∀ c pr body s, exec (f c pr body) s = s.issue c pr body (v8i func [.vb] chkShadow int)) (hu : t.ups = [(w, 0, m)]) (hw : w ≤ t.work + 1)
    (hm : m % 2 ^ 2048 ≠ 0) (hc : vClean [.vd, .va, .t, .vb] body = true) (hT : vT body.toNat = 1) (h : Runs s c t 8 func 1 pr body = true) :
    Completes (f c pr body) s (fun z => ∃ x, z.tileOf c = some x ∧ x.mism = true) := by
  rw [Completes, he]
  exact State.issue_detects (run := chkShadow) h (vLegal_clean hc (by rw [hT]; rfl)) hu hw fun z u _ => chkShadow_upset hm _ _

end Detect

/-- Settles O39. Every listed instruction is issued (`tackRows_isIssue`), so that what an issue does in each case holds for all of them; the
fetch is a read; a struck result differs from the right one by the bits turned over, whose weights have a residue. -/
theorem fetchPredicateAndWorkLimit : Obligations.FetchPredicateAndWorkLimit := by
  unfold Obligations.FetchPredicateAndWorkLimit
  refine ⟨?pass, ?limit, ?fetch, fun s c n t => State.placed_leaves s c n t, ?elsewhere, ?residue, ?check, ?vadd, ?bitwise⟩
  case pass =>
    intro e he s c t pr body ht hend hw hf hp
    obtain ⟨o, hx, ho⟩ := tackRows_isIssue e he
    obtain ⟨hg, hfn, hcost⟩ := ho c
    rw [← hg, ← hfn] at hw ⊢
    rw [hx]
    exact ⟨fun hk hl => State.issue_passes ht hend hw hf hp hk hl, fun hk => State.issue_limit ht hend hw hf hk hcost⟩
  case limit =>
    intro e he s c t pr body ht hend hw hf _ hk
    obtain ⟨o, hx, ho⟩ := tackRows_isIssue e he
    obtain ⟨hg, hfn, hcost⟩ := ho c
    rw [← hg, ← hfn] at hw ⊢
    rw [hx]
    exact State.issue_limit ht hend hw hf hk hcost
  case fetch =>
    intro s c cost t hf
    refine ⟨fun hs => Tile.struck_sound (t := { t with work := t.work + cost }) hs, fun hi => ?_, fun hs hfound hword he => ?_,
      State.issued_leaves hf⟩
    · rw [State.issued_mem, State.fetchWord_cached hi]
    · exact State.issued_mem.trans (State.fetchWord_mem hf hs hfound hword he)
  case elsewhere =>
    intro s c pr body e he ha
    obtain ⟨o, hx, ho⟩ := tackRows_isIssue e he
    obtain ⟨hg, hfn, -⟩ := ho c
    rw [← hg, ← hfn] at ha
    rw [hx, State.issue_elsewhere ha]
  case residue =>
    refine ⟨fun v hv => ?_, fun v hv => ?_, fun v hv => ?_⟩
    · exact ⟨elemResidue_eq.1 hv, signedResidue_eq (by simp) hv (elemResidue_eq.1 hv)⟩
    · exact ⟨elemResidue_eq.2.1 hv, signedResidue_eq (by simp) hv (elemResidue_eq.2.1 hv)⟩
    · exact ⟨elemResidue_eq.2.2 hv, signedResidue_eq (by simp) hv (elemResidue_eq.2.2 hv)⟩
  case check => exact fun o body s t r => ⟨Op.checked_sound, Op.checked_mism⟩
  case vadd => exact fun s c w k t pr body ho hu hw hk hc hT h => exec_vadd_detects ho hu hw hk hc hT h
  case bitwise =>
    simp only [bitLaneRows, List.take, List.forall_mem_cons]
    refine ⟨?_, ?_, ?_, nofun⟩
    all_goals
      intro s c w m t pr body _ hu hw hm hc hT h
      exact exec_bitwise_detects (fun _ _ _ _ => rfl) hu hw hm hc hT h

end Sys2Proof.Machine
end

section
/-!
PROOFS. The operations of Tack's scalar instructions on 64-bit words (R223 to R226): what the model computes on numbers is what the words give.
-/

namespace Sys2Proof.Machine

/-! ### Numbers as words -/

theorem sext_eq_toInt (w n : Nat) : sext w n = (BitVec.ofNat w n).toInt := by
  rw [BitVec.toInt_eq_toNat_cond, BitVec.toNat_ofNat, sext]

theorem toCode_eq_toNat (w : Nat) (i : Int) : toCode w i = (BitVec.ofInt w i).toNat := by
  rw [BitVec.toNat_ofInt, toCode]

theorem s64_toNat (x : BitVec 64) : s64 x.toNat = x.toInt := by
  rw [s64, sext_eq_toInt, BitVec.ofNat_toNat, BitVec.setWidth_eq]

theorem ofNat_low64 (i : Int) : BitVec.ofNat 64 (low64 i) = BitVec.ofInt 64 i := by
  rw [low64, toCode_eq_toNat, BitVec.ofNat_toNat, BitVec.setWidth_eq]

/-- The extended immediate as a word. -/
theorem imm64_eq (body : BitVec 48) : imm64 (fIMM body.toNat) = (immX body).toNat := by
  rw [imm64, toCode_eq_toNat, sext_eq_toInt, immX, BitVec.signExtend]

theorem toNat_mod_two_pow (x : BitVec 64) : x.toNat % 2 ^ 64 = x.toNat := Nat.mod_eq_of_lt x.isLt

theorem toNat_eq_zero_iff (x : BitVec 64) : x.toNat = 0 ↔ x = 0 := by simp [BitVec.toNat_eq]

/-! ### Operations of two words (R223, R224) -/

section Words
variable (x y : BitVec 64)

theorem ofNat_add_toNat : BitVec.ofNat 64 (x.toNat + y.toNat) = x + y := by
  simp [BitVec.ofNat_add]

theorem ofNat_mul_toNat : BitVec.ofNat 64 (x.toNat * y.toNat) = x * y := by
  simp [BitVec.ofNat_mul]

theorem ofNat_sub64 : BitVec.ofNat 64 (sub64 x.toNat y.toNat) = x - y := by
  rw [sub64, ofNat_low64, s64_toNat, s64_toNat, Int.sub_eq_add_neg, BitVec.ofInt_add, BitVec.ofInt_neg, BitVec.ofInt_toInt, BitVec.ofInt_toInt,
    BitVec.sub_eq_add_neg]

/-- The high half of a 128-bit code is the code of the quotient. -/
theorem ofInt_high_half (i : Int) : (BitVec.ofInt 128 i >>> 64).setWidth 64 = BitVec.ofInt 64 (i / 2 ^ 64) := by
  refine BitVec.eq_of_toNat_eq ?_
  rw [BitVec.toNat_setWidth, BitVec.toNat_ushiftRight, BitVec.toNat_ofInt, BitVec.toNat_ofInt, Nat.shiftRight_eq_div_pow]
  omega

theorem ofNat_mulhS : BitVec.ofNat 64 (mulhS x.toNat y.toNat) = hiHalf (x.signExtend 128) (y.signExtend 128) := by
  rw [mulhS, ofNat_low64, s64_toNat, s64_toNat, hiHalf, BitVec.signExtend, BitVec.signExtend, ← BitVec.ofInt_mul, ofInt_high_half]

theorem ofNat_mulhu : BitVec.ofNat 64 (x.toNat * y.toNat / 2 ^ 64) = hiHalf (x.setWidth 128) (y.setWidth 128) := by
  have hx : x.toNat % 2 ^ 128 = x.toNat := Nat.mod_eq_of_lt (by omega)
  have hy : y.toNat % 2 ^ 128 = y.toNat := Nat.mod_eq_of_lt (by omega)
  have hxy : x.toNat * y.toNat < 2 ^ 64 * 2 ^ 64 := Nat.mul_lt_mul'' x.isLt y.isLt
  refine BitVec.eq_of_toNat_eq ?_
  rw [hiHalf, BitVec.toNat_setWidth, BitVec.toNat_ushiftRight, BitVec.toNat_mul, BitVec.toNat_setWidth, BitVec.toNat_setWidth, hx, hy,
    BitVec.toNat_ofNat, Nat.shiftRight_eq_div_pow, Nat.mod_eq_of_lt (b := 2 ^ 128) (by omega)]

theorem ofNat_divS : BitVec.ofNat 64 (divS x.toNat y.toNat) = if y = 0 then BitVec.allOnes 64 else x.sdiv y := by
  simp only [divS, toNat_mod_two_pow, toNat_eq_zero_iff]
  split
  · rfl
  · rw [ofNat_low64, s64_toNat, s64_toNat]
    refine BitVec.eq_of_toInt_eq ?_
    rw [BitVec.toInt_ofInt, BitVec.toInt_sdiv]

theorem ofNat_divU : BitVec.ofNat 64 (divU x.toNat y.toNat) = if y = 0 then BitVec.allOnes 64 else x / y := by
  simp only [divU, toNat_mod_two_pow, toNat_eq_zero_iff]
  split
  · rfl
  · rw [← BitVec.toNat_udiv, BitVec.ofNat_toNat, BitVec.setWidth_eq]

theorem ofNat_remS : BitVec.ofNat 64 (remS x.toNat y.toNat) = if y = 0 then x else x.srem y := by
  simp only [remS, toNat_mod_two_pow, toNat_eq_zero_iff]
  split
  · rw [BitVec.ofNat_toNat, BitVec.setWidth_eq]
  · rw [ofNat_low64, s64_toNat, s64_toNat, ← BitVec.toInt_srem, BitVec.ofInt_toInt]

theorem ofNat_remU : BitVec.ofNat 64 (remU x.toNat y.toNat) = if y = 0 then x else x % y := by
  simp only [remU, toNat_mod_two_pow, toNat_eq_zero_iff]
  split
  · rw [BitVec.ofNat_toNat, BitVec.setWidth_eq]
  · rw [← BitVec.toNat_umod, BitVec.ofNat_toNat, BitVec.setWidth_eq]

theorem ofNat_land : BitVec.ofNat 64 (Nat.land x.toNat y.toNat) = x &&& y := by
  change BitVec.ofNat 64 (x.toNat &&& y.toNat) = _
  rw [← BitVec.toNat_and, BitVec.ofNat_toNat, BitVec.setWidth_eq]

theorem ofNat_lor : BitVec.ofNat 64 (Nat.lor x.toNat y.toNat) = x ||| y := by
  change BitVec.ofNat 64 (x.toNat ||| y.toNat) = _
  rw [← BitVec.toNat_or, BitVec.ofNat_toNat, BitVec.setWidth_eq]

theorem ofNat_xor : BitVec.ofNat 64 (Nat.xor x.toNat y.toNat) = x ^^^ y := by
  change BitVec.ofNat 64 (x.toNat ^^^ y.toNat) = _
  rw [← BitVec.toNat_xor, BitVec.ofNat_toNat, BitVec.setWidth_eq]

theorem ofNat_sll64 (n : Nat) : BitVec.ofNat 64 (sll64 x.toNat n) = x <<< (n % 64) := by
  refine BitVec.eq_of_toNat_eq ?_
  rw [sll64, BitVec.toNat_ofNat, BitVec.toNat_shiftLeft, Nat.shiftLeft_eq]

theorem ofNat_srl64 (n : Nat) : BitVec.ofNat 64 (srl64 x.toNat n) = x >>> (n % 64) := by
  rw [srl64, ← Nat.shiftRight_eq_div_pow, ← BitVec.toNat_ushiftRight, BitVec.ofNat_toNat, BitVec.setWidth_eq]

theorem ofNat_sraS (n : Nat) : BitVec.ofNat 64 (sraS x.toNat n) = x.sshiftRight (n % 64) := by
  rw [sraS, ofNat_low64, s64_toNat, ← BitVec.ofInt_toInt (x := x.sshiftRight (n % 64)), BitVec.toInt_sshiftRight, Int.shiftRight_eq_div_pow]
  norm_cast

/-- A choice between two numbers is a choice between their words. -/
theorem ofNat_choice {p q : Prop} [Decidable p] [Decidable q] (h : p ↔ q) :
    BitVec.ofNat 64 (if p then x.toNat else y.toNat) = if q then x else y := by
  simp only [h]
  split <;> rw [BitVec.ofNat_toNat, BitVec.setWidth_eq]

theorem s64_le_iff : s64 x.toNat ≤ s64 y.toNat ↔ x.sle y = true := by
  rw [s64_toNat, s64_toNat, BitVec.sle_iff_toInt_le]

theorem ofNat_minS : BitVec.ofNat 64 (minS x.toNat y.toNat) = if x.sle y then x else y := ofNat_choice x y (s64_le_iff x y)

theorem ofNat_maxS : BitVec.ofNat 64 (maxS x.toNat y.toNat) = if x.sle y then y else x := ofNat_choice y x (s64_le_iff x y)

theorem ofNat_minU : BitVec.ofNat 64 (min x.toNat y.toNat) = if x ≤ y then x else y := by
  rw [Nat.min_def]
  exact ofNat_choice x y BitVec.le_def.symm

theorem ofNat_maxU : BitVec.ofNat 64 (max x.toNat y.toNat) = if x ≤ y then y else x := by
  rw [Nat.max_def]
  exact ofNat_choice y x BitVec.le_def.symm

/-! ### Operations of one word (R223) -/

/-- The highest one of a word that is not 0 follows its leading zeros. -/
theorem ofNat_clz64 : BitVec.ofNat 64 (clz64 x.toNat) = x.clz := by
  simp only [clz64, toNat_mod_two_pow, toNat_eq_zero_iff]
  split
  next h => exact (BitVec.clz_eq_iff_eq_zero.2 h).symm
  next h =>
    have hclz : x.clz.toNat < 64 := BitVec.clz_lt_iff_ne_zero.2 h
    have hlow : 2 ^ (63 - x.clz.toNat) ≤ x.toNat := BitVec.two_pow_sub_clz_le_toNat_of_ne_zero (by decide) h
    have hhigh : x.toNat < 2 ^ (63 - x.clz.toNat + 1) := by
      have h1 := BitVec.toNat_lt_two_pow_sub_clz (x := x)
      rwa [show 64 - x.clz.toNat = 63 - x.clz.toNat + 1 by omega] at h1
    have hne : x.toNat ≠ 0 := fun e => h ((toNat_eq_zero_iff x).1 e)
    rw [(Nat.log2_eq_iff hne).2 ⟨hlow, hhigh⟩, show 63 - (63 - x.clz.toNat) = x.clz.toNat by omega, BitVec.ofNat_toNat, BitVec.setWidth_eq]

theorem popCount_eq_ones (w n : Nat) : popCount w n = ((List.range w).filter (fun k => n.testBit k)).length := by
  induction w generalizing n with
  | zero => rfl
  | succ w ih =>
    have hshift : ((fun k => n.testBit k) ∘ Nat.succ) = fun k => (n / 2).testBit k := by
      funext k
      exact Nat.testBit_succ ..
    rw [popCount, ih, List.range_succ_eq_map, List.filter_cons, List.filter_map, hshift, Nat.testBit_zero]
    rcases Nat.mod_two_eq_zero_or_one n with h | h <;> simp [h, Nat.add_comm]

theorem ofNat_popCount : BitVec.ofNat 64 (popCount 64 x.toNat) = onesOf x := by
  rw [popCount_eq_ones, onesOf]
  rfl

/-- An immediate above the low half of a word. -/
theorem highHalf_toNat (body : BitVec 48) (x : BitVec 64) :
    fIMM body.toNat * 2 ^ 32 + x.toNat % 2 ^ 32 = (BitVec.ofNat 32 (fIMM body.toNat) ++ x.setWidth 32).toNat := by
  have hi : fIMM body.toNat % 2 ^ 32 = fIMM body.toNat := Nat.mod_mod ..
  rw [BitVec.toNat_append, ← Nat.shiftLeft_add_eq_or_of_lt (BitVec.isLt _), Nat.shiftLeft_eq, BitVec.toNat_ofNat, hi, BitVec.toNat_setWidth]

/-! ### Comparisons (R225) and addresses (R226) -/

theorem ltS_toNat : ltS x.toNat y.toNat = x.slt y := by
  rw [ltS, s64_toNat, s64_toNat, Bool.eq_iff_iff, decide_eq_true_iff, BitVec.slt_iff_toInt_lt]

theorem geS_toNat : geS x.toNat y.toNat = y.sle x := by
  rw [geS, s64_toNat, s64_toNat, Bool.eq_iff_iff, decide_eq_true_iff, BitVec.sle_iff_toInt_le]

/-- The sum of two address values keeps bit 63 of the first beside a sum of 63 bits. -/
theorem addrAdd_toNat : addrAdd x.toNat y.toNat = (x.extractLsb' 63 1 ++ (x.setWidth 63 + y.setWidth 63)).toNat := by
  have hhigh : (x.extractLsb' 63 1).toNat = x.toNat / 2 ^ 63 := by
    rw [BitVec.extractLsb'_toNat, Nat.shiftRight_eq_div_pow]
    omega
  have hlow : (x.setWidth 63 + y.setWidth 63).toNat = (x.toNat + y.toNat) % 2 ^ 63 := by
    rw [BitVec.toNat_add, BitVec.toNat_setWidth, BitVec.toNat_setWidth, ← Nat.add_mod]
  rw [BitVec.toNat_append, ← Nat.shiftLeft_add_eq_or_of_lt (BitVec.isLt _), Nat.shiftLeft_eq, hhigh, hlow, addrAdd]

end Words

end Sys2Proof.Machine
end

section
/-!
PROOFS. How a Tack instruction that issues goes on, the range of the tiles' registers, and the scalar tables (R211, R223, R224).
-/

namespace Sys2Proof.Machine

/-- Settles O59: `Keeps`, which every command and so every step meets, holds the ranges of the tiles' registers (`step_keeps`). -/
theorem stepKeepsTilesInRange : Obligations.StepKeepsTilesInRange := fun _ _ hs h => (step_keeps h).tiles hs

/-! ### The issued tile -/

section Issued
variable {s : State} {c n k : Nat} {t : Tile}

/-- Issuing adds to the work count; upsets that are due strike stored rows and wait no more. -/
theorem State.issued_tile (s : State) (c n : Nat) (t : Tile) : (s.issued c t n).2 = { t with
    work := t.work + n, v := (s.issued c t n).2.v, acc := (s.issued c t n).2.acc, off := (s.issued c t n).2.off, ups := (s.issued c t n).2.ups } :=
  Tile.struck_parts { t with work := t.work + n }

@[simp] theorem State.issued_sreg : (s.issued c t n).2.sreg k = t.sreg k := by rw [State.issued_tile]; rfl
@[simp] theorem State.issued_areg : (s.issued c t n).2.areg k = t.areg k := by rw [State.issued_tile]; rfl
@[simp] theorem State.issued_preg : (s.issued c t n).2.preg k = t.preg k := by rw [State.issued_tile]; rfl
@[simp] theorem State.issued_pc : (s.issued c t n).2.pc = t.pc := by rw [State.issued_tile]
@[simp] theorem State.issued_len : (s.issued c t n).2.len = t.len := by rw [State.issued_tile]
@[simp] theorem State.issued_loops : (s.issued c t n).2.loops = t.loops := by rw [State.issued_tile]
@[simp] theorem State.issued_rets : (s.issued c t n).2.rets = t.rets := by rw [State.issued_tile]
@[simp] theorem State.issued_segs : (s.issued c t n).2.segs = t.segs := by rw [State.issued_tile]

/-- A tile's control state: where it stands, in which code, in which loops, and whether it has ended. -/
def Tile.control (t : Tile) : Nat × Nat × Nat × List (Nat × Nat × Nat) × Bool := (t.pc, t.code, t.len, t.loops, t.ended)

@[simp] theorem State.issued_control_eq : (s.issued c t n).2.control = t.control := by rw [State.issued_tile]; rfl

@[simp] theorem Tile.setS_control (t : Tile) (n v : Nat) : (t.setS n v).control = t.control := by
  unfold Tile.setS
  split <;> rfl

@[simp] theorem Tile.setP_control (t : Tile) (n : Nat) (v : Bool) : (t.setP n v).control = t.control := by
  unfold Tile.setP
  split <;> rfl

@[simp] theorem Tile.setA_control (t : Tile) (n v : Nat) : (t.setA n v).control = t.control := rfl

theorem Lands.of_control {u v : Tile} (h : Lands s c v n = true) (hc : u.control = v.control) : Lands s c u n = true := by
  simp only [Tile.control, Prod.mk.injEq] at hc
  obtain ⟨hpc, hcode, hlen, hloops, -⟩ := hc
  exact Lands.congr h hpc hloops hcode hlen

end Issued

/-! ### Going on -/

section Goes
variable {s : State} {c : Nat} {t v : Tile} {pr : BitVec 4} {body : BitVec 48} {o : Op} {e : Eff}

theorem checkFields_none {zeros : List Nat} {regs : List (Nat × Nat)} (hz : ∀ z ∈ zeros, z = 0) (hr : ∀ r ∈ regs, r.1 < r.2) :
    checkFields zeros regs = none := by
  have hz' : zeros.any (· != 0) = false := List.any_eq_false.2 fun z h => by simp [hz z h]
  have hr' : regs.any (fun r => decide (r.2 ≤ r.1)) = false := List.any_eq_false.2 fun r h => by simpa using hr r h
  simp [checkFields, hz', hr']

/-- A legal instruction that issues, has an effect without a trap and passes its residue check goes on where its effect says, if the index
there is in the code object and listed; where it goes depends on the control state alone. -/
theorem State.issue_lands (h : Issues s c t o.grp o.func (o.cost body.toNat t) pr body = true) (hl : o.legal body.toNat = none)
    (he : o.eff body.toNat (s.issued c t (o.cost body.toNat t)).1 (s.issued c t (o.cost body.toNat t)).2 = e) (ht : e.trap = none)
    (hk : o.checked body.toNat (s.issued c t (o.cost body.toNat t)).1 (s.issued c t (o.cost body.toNat t)).2 e.t = e.t)
    (hc : e.t.control = v.control) (hv : v.ended = t.ended) (hland : Lands e.s c v (e.jump.getD (t.pc + 1)) = true) :
    s.issue c pr body o = .next (e.s.placed c e.t (e.jump.getD (t.pc + 1))) := by
  have hend : e.t.ended = false := by
    simp only [Tile.control, Prod.mk.injEq] at hc
    rw [hc.2.2.2.2, hv, (Issues.parts h).2.1]
  rw [State.issue_effect h hl]
  simp only [he, ht, hk, State.advance_lands hend (Lands.of_control hland hc)]

/-- The same for an effect on the state and the tile alone, which goes on at the next index. -/
theorem State.issue_reg {r : State} {u : Tile} (h : Issues s c t o.grp o.func (o.cost body.toNat t) pr body = true)
    (hl : o.legal body.toNat = none)
    (he : o.eff body.toNat (s.issued c t (o.cost body.toNat t)).1 (s.issued c t (o.cost body.toNat t)).2 = Eff.reg r u)
    (hk : o.checked body.toNat (s.issued c t (o.cost body.toNat t)).1 (s.issued c t (o.cost body.toNat t)).2 u = u)
    (hc : u.control = t.control) (hland : Lands r c t (t.pc + 1) = true) : s.issue c pr body o = .next (r.placed c u (t.pc + 1)) :=
  State.issue_lands h hl he rfl hk hc rfl hland

/-- An instruction without a residue check that changes the tile by `g` alone, on its way to the next index. -/
theorem State.issue_writes {g : Tile → Tile} (h : Runs s c t o.grp o.func (o.cost body.toNat t) pr body = true) (hl : o.legal body.toNat = none)
    (he : o.eff body.toNat (s.issued c t (o.cost body.toNat t)).1 (s.issued c t (o.cost body.toNat t)).2 =
      Eff.reg (s.issued c t (o.cost body.toNat t)).1 (g (s.issued c t (o.cost body.toNat t)).2))
    (hg : ∀ u, (g u).control = u.control) (hk : o.chk = {}) : s.issue c pr body o = .next (s.after c t (o.cost body.toNat t) g) := by
  obtain ⟨hi, hland⟩ := Bool.and_eq_true_iff.1 h
  exact State.issue_reg hi hl he (Op.checked_default hk) ((hg _).trans State.issued_control_eq) hland

end Goes

/-! ### Registers as words -/

section Registers
variable {t : Tile} {n : Nat}

theorem Tile.sreg_eq (h : t.InRange) (n : Nat) : t.sreg n = (t.x n).toNat := by
  refine (Nat.mod_eq_of_lt ?_).symm
  unfold Tile.sreg
  split
  · decide
  · rcases (Store.get_mem : Store.get 0 t.s n = 0 ∨ _) with h0 | hm
    · rw [h0]; decide
    · exact h.1 _ hm

theorem Tile.areg_eq (h : t.InRange) (n : Nat) : t.areg n = (t.y n).toNat := by
  refine (Nat.mod_eq_of_lt ?_).symm
  rcases (Store.get_mem : Store.get 0 t.a n = 0 ∨ _) with h0 | hm
  · rw [Tile.areg, h0]; decide
  · exact h.2 _ hm

/-- A scalar register takes the low 64 bits of what is written. -/
theorem Tile.setS_word (t : Tile) (n v : Nat) : t.setS n v = t.setS n (BitVec.ofNat 64 v).toNat := by
  simp only [Tile.setS, BitVec.toNat_ofNat, Nat.mod_mod]

end Registers

/-! ### The scalar tables (R223, R224) -/

section Scalar
variable {s : State} {c func : Nat} {t : Tile} {pr : BitVec 4} {body : BitVec 48}

/-- A scalar function of two registers writes the word that its operation gives. -/
theorem State.issue_sRR {f : Nat → Nat → Nat} {op : BitVec 64 → BitVec 64 → BitVec 64} (hf : ∀ x y, BitVec.ofNat 64 (f x.toNat y.toNat) = op x y)
    (ht : t.InRange) (hc : fRC body.toNat = 0) (hz : bits body.toNat 0 28 = 0) (h : Runs s c t 0 func 1 pr body = true) :
    s.issue c pr body (sRR func f) = .next (s.after c t 1 fun u =>
      u.setS (fRD body.toNat) (op (t.x (fRA body.toNat)) (t.x (fRB body.toNat))).toNat) := by
  refine State.issue_writes h (checkFields_none (by simp [hc, hz]) (by simp)) ?_ (fun u => Tile.setS_control ..) rfl
  simp only [sRR, State.issued_sreg, Tile.sreg_eq ht]
  rw [Tile.setS_word, hf]

/-- A scalar function of one register writes the word that its operation gives. -/
theorem State.issue_sR1 {f : Nat → Nat} {op : BitVec 64 → BitVec 64} (hf : ∀ x, BitVec.ofNat 64 (f x.toNat) = op x)
    (ht : t.InRange) (hb : fRB body.toNat = 0) (hc : fRC body.toNat = 0) (hz : bits body.toNat 0 28 = 0)
    (h : Runs s c t 0 func 1 pr body = true) :
    s.issue c pr body (sR1 func f) = .next (s.after c t 1 fun u => u.setS (fRD body.toNat) (op (t.x (fRA body.toNat))).toNat) := by
  refine State.issue_writes h (checkFields_none (by simp [hb, hc, hz]) (by simp)) ?_ (fun u => Tile.setS_control ..) rfl
  simp only [sR1, State.issued_sreg, Tile.sreg_eq ht]
  rw [Tile.setS_word, hf]

/-- A scalar function of a register and the extended immediate writes the word that its operation gives. -/
theorem State.issue_sRI {f : Nat → Nat → Nat} {op : BitVec 64 → BitVec 64 → BitVec 64} (hf : ∀ x y, BitVec.ofNat 64 (f x.toNat y.toNat) = op x y)
    (ht : t.InRange) (hz : bits body.toNat 32 6 = 0) (h : Runs s c t 1 func 1 pr body = true) :
    s.issue c pr body (sRI func f) = .next (s.after c t 1 fun u =>
      u.setS (fRD body.toNat) (op (t.x (fRA body.toNat)) (immX body)).toNat) := by
  refine State.issue_writes h (checkFields_none (by simp [hz]) (by simp)) ?_ (fun u => Tile.setS_control ..) rfl
  simp only [sRI, State.issued_sreg, Tile.sreg_eq ht, imm64_eq]
  rw [Tile.setS_word, hf]

/-- A shift by an immediate below 64 writes the word that its operation gives. -/
theorem State.issue_sShI {f : Nat → Nat → Nat} {op : BitVec 64 → Nat → BitVec 64} (hf : ∀ x n, BitVec.ofNat 64 (f x.toNat n) = op x (n % 64))
    (ht : t.InRange) (hz : bits body.toNat 32 6 = 0) (hn : fIMM body.toNat < 64) (h : Runs s c t 1 func 1 pr body = true) :
    s.issue c pr body (sShI func f) = .next (s.after c t 1 fun u =>
      u.setS (fRD body.toNat) (op (t.x (fRA body.toNat)) (fIMM body.toNat)).toNat) := by
  have hhigh : bits body.toNat 6 26 = 0 := by
    unfold fIMM bits at hn
    unfold bits
    omega
  refine State.issue_writes h (checkFields_none (by simp [hz, hhigh]) (by simp)) ?_ (fun u => Tile.setS_control ..) rfl
  simp only [sShI, State.issued_sreg, Tile.sreg_eq ht]
  rw [Tile.setS_word, hf, Nat.mod_eq_of_lt hn]

/-- A command issues a scalar function of two registers that is the operation `op` on words. -/
def TackCmd.IsScalar (f : TackCmd) (func : Nat) (op : BitVec 64 → BitVec 64 → BitVec 64) : Prop :=
  ∃ g : Nat → Nat → Nat, (∀ s c pr body, exec (f c pr body) s = s.issue c pr body (sRR func g)) ∧
    ∀ x y, BitVec.ofNat 64 (g x.toNat y.toNat) = op x y

/-- Every row of the table of scalar operations issues its operation. -/
theorem scalarRows_isScalar : ∀ e ∈ scalarRows, TackCmd.IsScalar e.1 e.2.1 e.2.2 := by
  simp only [scalarRows, List.forall_mem_cons]
  exact ⟨⟨_, fun _ _ _ _ => rfl, ofNat_add_toNat⟩, ⟨_, fun _ _ _ _ => rfl, ofNat_sub64⟩, ⟨_, fun _ _ _ _ => rfl, ofNat_mul_toNat⟩,
    ⟨_, fun _ _ _ _ => rfl, ofNat_mulhS⟩, ⟨_, fun _ _ _ _ => rfl, ofNat_mulhu⟩, ⟨_, fun _ _ _ _ => rfl, ofNat_divS⟩,
    ⟨_, fun _ _ _ _ => rfl, ofNat_divU⟩, ⟨_, fun _ _ _ _ => rfl, ofNat_remS⟩, ⟨_, fun _ _ _ _ => rfl, ofNat_remU⟩,
    ⟨_, fun _ _ _ _ => rfl, ofNat_land⟩, ⟨_, fun _ _ _ _ => rfl, ofNat_lor⟩, ⟨_, fun _ _ _ _ => rfl, ofNat_xor⟩,
    ⟨_, fun _ _ _ _ => rfl, fun x y => ofNat_sll64 x y.toNat⟩, ⟨_, fun _ _ _ _ => rfl, fun x y => ofNat_srl64 x y.toNat⟩,
    ⟨_, fun _ _ _ _ => rfl, fun x y => ofNat_sraS x y.toNat⟩, ⟨_, fun _ _ _ _ => rfl, ofNat_minS⟩, ⟨_, fun _ _ _ _ => rfl, ofNat_maxS⟩,
    ⟨_, fun _ _ _ _ => rfl, ofNat_minU⟩, ⟨_, fun _ _ _ _ => rfl, ofNat_maxU⟩, nofun⟩

/-- Settles O24: a row of the tables issues a function of numbers that is its operation on words (`scalarRows_isScalar`). -/
theorem scalarRegisterOperations : Obligations.ScalarRegisterOperations := by
  refine ⟨fun e he s c t pr body ht hc hz h => ?two, ?one, fun s c t pr body hc hz h => ?sel⟩
  case two =>
    obtain ⟨g, hx, hg⟩ := scalarRows_isScalar e he
    rw [hx]
    exact State.issue_sRR hg ht hc hz h
  case one =>
    simp only [scalarRows1, List.forall_mem_cons]
    exact ⟨fun s c t pr body ht hb hc hz h => State.issue_sR1 ofNat_clz64 ht hb hc hz h,
      fun s c t pr body ht hb hc hz h => State.issue_sR1 ofNat_popCount ht hb hc hz h, nofun⟩
  case sel =>
    refine State.issue_writes (o := opSel) h (checkFields_none (by simp [hz]) (by simp [hc])) ?_ (fun u => Tile.setS_control ..) rfl
    simp only [opSel, State.issued_sreg, State.issued_preg]

/-- Settles O25: the rows of the divisions, at the edge cases of their operations. -/
theorem divisionNeverTraps : Obligations.DivisionNeverTraps := by
  refine ⟨fun s c t pr body ht hc hz hb => ⟨fun h => ?div0, fun h => ?divu0, fun h => ?rem0, fun h => ?remu0⟩,
    fun s c t pr body ht hc hz ha hb => ⟨fun h => ?div, fun h => ?rem⟩⟩
  case div0 => exact (State.issue_sRR ofNat_divS ht hc hz h).trans (by rw [hb]; rfl)
  case divu0 => exact (State.issue_sRR ofNat_divU ht hc hz h).trans (by rw [hb]; rfl)
  case rem0 => exact (State.issue_sRR ofNat_remS ht hc hz h).trans (by rw [hb, Tile.sreg_eq ht]; rfl)
  case remu0 => exact (State.issue_sRR ofNat_remU ht hc hz h).trans (by rw [hb, Tile.sreg_eq ht]; rfl)
  case div => exact (State.issue_sRR ofNat_divS ht hc hz h).trans (by rw [ha, hb]; rfl)
  case rem => exact (State.issue_sRR ofNat_remS ht hc hz h).trans (by rw [ha, hb]; rfl)

end Scalar
end Sys2Proof.Machine
end

section
/-!
PROOFS. Tack's instructions with an immediate, and its predicate and address instructions (R223, R225, R226).
-/

namespace Sys2Proof.Machine

/-! ### Immediates (R223) -/

/-- Settles O26: the rows issue functions of numbers that are their operations on words; `lih` joins two halves. -/
theorem scalarImmediateOperations : Obligations.ScalarImmediateOperations := by
  refine ⟨?imm, ?shift, fun s c t pr body hz ha => ⟨fun h => ?li, fun ht h => ?lih⟩⟩
  case imm =>
    simp only [immRows, List.forall_mem_cons]
    exact ⟨fun s c t pr body ht hz h => State.issue_sRI ofNat_add_toNat ht hz h, fun s c t pr body ht hz h => State.issue_sRI ofNat_land ht hz h,
      fun s c t pr body ht hz h => State.issue_sRI ofNat_lor ht hz h, fun s c t pr body ht hz h => State.issue_sRI ofNat_xor ht hz h,
      fun s c t pr body ht hz h => State.issue_sRI (op := fun a b => if a.sle b then a else b) ofNat_minS ht hz h,
      fun s c t pr body ht hz h => State.issue_sRI (op := fun a b => if a.sle b then b else a) ofNat_maxS ht hz h, nofun⟩
  case shift =>
    simp only [shiftRows, List.forall_mem_cons]
    exact ⟨fun s c t pr body ht hz hn h => State.issue_sShI ofNat_sll64 ht hz hn h,
      fun s c t pr body ht hz hn h => State.issue_sShI ofNat_srl64 ht hz hn h,
      fun s c t pr body ht hz hn h => State.issue_sShI ofNat_sraS ht hz hn h, nofun⟩
  case li =>
    refine State.issue_writes (o := opLi) h (checkFields_none (by simp [hz, ha]) (by simp)) ?_ (fun u => Tile.setS_control ..) rfl
    simp only [opLi, imm64_eq]
  case lih =>
    refine State.issue_writes (o := opLih) h (checkFields_none (by simp [hz, ha]) (by simp)) ?_ (fun u => Tile.setS_control ..) rfl
    simp only [opLih, State.issued_sreg, Tile.sreg_eq ht, highHalf_toNat]

/-! ### Predicates (R225) -/

section Predicates
variable {s : State} {c func : Nat} {t : Tile} {pr : BitVec 4} {body : BitVec 48}

/-- A comparison of two registers writes what its operation says of their words. -/
theorem State.issue_cmpRR {f : Nat → Nat → Bool} {op : BitVec 64 → BitVec 64 → Bool} (hf : ∀ x y, f x.toNat y.toNat = op x y)
    (ht : t.InRange) (hd : fRD body.toNat < 8) (hc : fRC body.toNat = 0) (hz : bits body.toNat 0 28 = 0)
    (h : Runs s c t 2 func 1 pr body = true) : s.issue c pr body (cmpRR func f) = .next (s.after c t 1 fun u =>
      u.setP (fRD body.toNat) (op (t.x (fRA body.toNat)) (t.x (fRB body.toNat)))) := by
  refine State.issue_writes h (checkFields_none (by simp [hc, hz]) (by simp [hd])) ?_ (fun u => Tile.setP_control ..) rfl
  simp only [cmpRR, State.issued_sreg, Tile.sreg_eq ht, hf]

/-- A comparison with the extended immediate writes what its operation says of the words. -/
theorem State.issue_cmpRI {f : Nat → Nat → Bool} {op : BitVec 64 → BitVec 64 → Bool} (hf : ∀ x y, f x.toNat y.toNat = op x y)
    (ht : t.InRange) (hd : fRD body.toNat < 8) (hz : bits body.toNat 32 6 = 0) (h : Runs s c t 2 func 1 pr body = true) :
    s.issue c pr body (cmpRI func f) = .next (s.after c t 1 fun u =>
      u.setP (fRD body.toNat) (op (t.x (fRA body.toNat)) (immX body))) := by
  refine State.issue_writes h (checkFields_none (by simp [hz]) (by simp [hd])) ?_ (fun u => Tile.setP_control ..) rfl
  simp only [cmpRI, State.issued_sreg, Tile.sreg_eq ht, imm64_eq, hf]

/-- An operation of two predicates writes its value. -/
theorem State.issue_predRR {f : Bool → Bool → Bool} (hd : fRD body.toNat < 8) (ha : fRA body.toNat < 8) (hb : fRB body.toNat < 8)
    (hc : fRC body.toNat = 0) (hz : bits body.toNat 0 28 = 0) (h : Runs s c t 2 func 1 pr body = true) :
    s.issue c pr body (predRR func f) = .next (s.after c t 1 fun u =>
      u.setP (fRD body.toNat) (f (t.preg (fRA body.toNat)) (t.preg (fRB body.toNat)))) := by
  refine State.issue_writes h (checkFields_none (by simp [hc, hz]) (by simp [hd, ha, hb])) ?_ (fun u => Tile.setP_control ..) rfl
  simp only [predRR, State.issued_preg]

/-- Two commands issue the comparison `op` of words, of two registers and of a register and the immediate. -/
def TackCmd.Compares (f g : TackCmd) (func : Nat) (op : BitVec 64 → BitVec 64 → Bool) : Prop :=
  ∃ k : Nat → Nat → Bool, (∀ s c pr body, exec (f c pr body) s = s.issue c pr body (cmpRR func k)) ∧
    (∀ s c pr body, exec (g c pr body) s = s.issue c pr body (cmpRI (0x10 + func) k)) ∧ ∀ x y, k x.toNat y.toNat = op x y

/-- Every row of the table of comparisons issues its comparison. -/
theorem cmpRows_compares : ∀ e ∈ cmpRows, TackCmd.Compares e.1 e.2.1 e.2.2.1 e.2.2.2 := by
  simp only [cmpRows, List.forall_mem_cons]
  refine ⟨⟨_, fun _ _ _ _ => rfl, fun _ _ _ _ => rfl, fun x y => ?eq⟩, ⟨_, fun _ _ _ _ => rfl, fun _ _ _ _ => rfl, fun x y => ?ne⟩,
    ⟨_, fun _ _ _ _ => rfl, fun _ _ _ _ => rfl, ltS_toNat⟩, ⟨_, fun _ _ _ _ => rfl, fun _ _ _ _ => rfl, fun x y => rfl⟩,
    ⟨_, fun _ _ _ _ => rfl, fun _ _ _ _ => rfl, geS_toNat⟩, ⟨_, fun _ _ _ _ => rfl, fun _ _ _ _ => rfl, fun x y => rfl⟩, nofun⟩
  case eq => simp only [BitVec.toNat_eq, beq_eq_decide]
  case ne => simp only [BitVec.toNat_eq, bne, beq_eq_decide, decide_not]

/-- Settles O27: a comparison of numbers is one of words (`cmpRows_compares`); `p0` is not stored. -/
theorem predicateOperations : Obligations.PredicateOperations := by
  refine ⟨fun e he s c t pr body ht hd => ?compare, ?combine, fun t b => ⟨rfl, rfl, fun n hn => ?reads⟩⟩
  case compare =>
    obtain ⟨k, hx, hi, hk⟩ := cmpRows_compares e he
    rw [hx, hi]
    exact ⟨fun hc hz h => State.issue_cmpRR hk ht hd hc hz h, fun hz h => State.issue_cmpRI hk ht hd hz h⟩
  case combine =>
    have hxor : xor = fun a b => a != b := by decide
    simp only [predRows, List.forall_mem_cons, ← hxor]
    exact ⟨fun s c t pr body hd ha hb hc hz h => State.issue_predRR hd ha hb hc hz h,
      fun s c t pr body hd ha hb hc hz h => State.issue_predRR hd ha hb hc hz h,
      fun s c t pr body hd ha hb hc hz h => State.issue_predRR hd ha hb hc hz h,
      fun s c t pr body hd ha hb hc hz h => State.issue_predRR hd ha hb hc hz h, nofun⟩
  case reads => simp [Tile.setP, Tile.preg, hn]

end Predicates

/-! ### Addresses (R226) -/

/-- Settles O28: a sum of address values is a sum of 63-bit words beside the space bit (`addrAdd_toNat`). -/
theorem addressOperations : Obligations.AddressOperations := by
  refine ⟨fun s c t pr body ht hd => ⟨fun ha hc hz h => ?amov, fun ha hc hz h => ?aadd, fun ha hz h => ?aaddi, fun ha hz h => ?alocal⟩,
    fun s c t pr body ht ha hb hc hz h => ?amovs⟩
  case amov =>
    refine State.issue_writes (o := opAmov) h (checkFields_none (by simp [hc, hz]) (by simp [hd, ha])) ?_ (fun u => Tile.setA_control ..) rfl
    simp only [opAmov, State.issued_sreg]
  case aadd =>
    refine State.issue_writes (o := opAadd) h (checkFields_none (by simp [hc, hz]) (by simp [hd, ha])) ?_ (fun u => Tile.setA_control ..) rfl
    simp only [opAadd, State.issued_sreg, State.issued_areg, Tile.sreg_eq ht, Tile.areg_eq ht, addrAdd_toNat]
  case aaddi =>
    refine State.issue_writes (o := opAaddi) h (checkFields_none (by simp [hz]) (by simp [hd, ha])) ?_ (fun u => Tile.setA_control ..) rfl
    simp only [opAaddi, State.issued_areg, Tile.areg_eq ht, imm64_eq, addrAdd_toNat]
  case alocal =>
    exact State.issue_writes (o := opAlocal) h (checkFields_none (by simp [hz, ha]) (by simp [hd])) rfl (fun u => Tile.setA_control ..) rfl
  case amovs =>
    refine State.issue_writes (o := opAmovs) h (checkFields_none (by simp [hb, hc, hz]) (by simp [ha])) ?_ (fun u => Tile.setS_control ..) rfl
    simp only [opAmovs, State.issued_areg, Tile.areg_eq ht]

end Sys2Proof.Machine
end

section
/-!
PROOFS. Tack's control transfers, hardware loops and system instructions (R227 to R229, R233, R234, R237).
-/

namespace Sys2Proof.Machine

/-! ### Control transfers (R227, R229) -/

section Transfers
variable {s : State} {c n : Nat} {t : Tile} {pr : BitVec 4} {body : BitVec 48} {x : Int}

/-- The control state of an issued tile in other loops. -/
theorem State.issued_loops_control (s : State) (c k : Nat) (t : Tile) (l : List (Nat × Nat × Nat)) :
    ({ (s.issued c t k).2 with loops := l } : Tile).control = ({ t with loops := l } : Tile).control := by
  rw [State.issued_tile]
  rfl

/-- A transfer to an index inside the code object. -/
theorem jumpTo_inside (hx : x = n) (hn : n < t.len) :
    jumpTo s t x = { s := s, t := { t with loops := loopsAt t.loops n }, jump := some n } := by
  have hi : 0 ≤ x ∧ x < t.len := by omega
  rw [jumpTo, if_pos hi, hx, Int.toNat_natCast]

/-- The same in an issued tile, which stands in the code object and the loops of the tile before. -/
theorem jumpTo_issued {r : State} (hx : x = n) (hn : n < t.len) : jumpTo r (s.issued c t 1).2 x =
    { s := r, t := { (s.issued c t 1).2 with loops := loopsAt t.loops n }, jump := some n } := by
  rw [jumpTo_inside hx (by simpa using hn), State.issued_loops]

theorem exec_br (hd : bits body.toNat 43 5 = 0) (hz : bits body.toNat 32 6 = 0) (ha : fRA body.toNat = 0)
    (hx : (t.pc : Int) + (BitVec.ofNat 32 (fIMM body.toNat)).toInt = n) (hn : n < t.len) (h : Issues s c t 4 1 1 pr body = true)
    (hland : Lands (s.issued c t 1).1 c { t with loops := loopsAt t.loops n } n = true) :
    exec (.br c pr body) s = .next ((s.issued c t 1).1.placed c { (s.issued c t 1).2 with loops := loopsAt t.loops n } n) := by
  refine State.issue_lands (o := opBr) h (checkFields_none (by simp [hd, ha, hz]) (by simp)) (jumpTo_issued ?_ hn) rfl (Op.checked_default rfl)
    (State.issued_loops_control ..) rfl hland
  rw [Tile.rel, sext_eq_toInt, State.issued_pc, hx]

theorem exec_call (hd : bits body.toNat 43 5 = 0) (hz : bits body.toNat 32 6 = 0) (ha : fRA body.toNat = 0)
    (hx : (t.pc : Int) + (BitVec.ofNat 32 (fIMM body.toNat)).toInt = n) (hn : n < t.len) (h : Issues s c t 4 3 1 pr body = true)
    (hr : t.rets.length < 8) (hland : Lands (s.issued c t 1).1 c { t with loops := loopsAt t.loops n } n = true) :
    exec (.call c pr body) s = .next ((s.issued c t 1).1.placed c
      { (s.issued c t 1).2 with loops := loopsAt t.loops n, rets := (t.pc + 1) :: t.rets } n) := by
  have hx' : (s.issued c t 1).2.rel body.toNat = n := by rw [Tile.rel, sext_eq_toInt, State.issued_pc, hx]
  have he : opCall.eff body.toNat (s.issued c t 1).1 (s.issued c t 1).2 =
      { s := (s.issued c t 1).1, t := { (s.issued c t 1).2 with loops := loopsAt t.loops n, rets := (t.pc + 1) :: t.rets }, jump := some n } := by
    simp [opCall, hr, jumpTo_issued hx' hn]
  exact State.issue_lands (o := opCall) h (checkFields_none (by simp [hd, ha, hz]) (by simp)) he rfl (Op.checked_default rfl)
    (State.issued_loops_control ..) rfl hland

theorem exec_jr (hd : bits body.toNat 43 5 = 0) (hz : bits body.toNat 32 6 = 0) (hi : fIMM body.toNat = 0) (hn : n < t.len)
    (h : Issues s c t 4 2 1 pr body = true) (hx : (t.x (fRA body.toNat)).toNat = n) (hlen : t.len < 2 ^ 63)
    (hland : Lands (s.issued c t 1).1 c { t with loops := loopsAt t.loops n } n = true) :
    exec (.jr c pr body) s = .next ((s.issued c t 1).1.placed c { (s.issued c t 1).2 with loops := loopsAt t.loops n } n) := by
  refine State.issue_lands (o := opJr) h (checkFields_none (by simp [hd, hi, hz]) (by simp)) (jumpTo_issued ?_ hn) rfl (Op.checked_default rfl)
    (State.issued_loops_control ..) rfl hland
  have hsmall : 2 * (t.x (fRA body.toNat)).toNat < 2 ^ 64 := by omega
  rw [State.issued_sreg, s64, sext_eq_toInt, ← Tile.x, BitVec.toInt_eq_toNat_cond, if_pos hsmall, hx]

theorem exec_ret {r : List Nat} (hd : bits body.toNat 43 5 = 0) (hz : bits body.toNat 32 6 = 0) (hi : fIMM body.toNat = 0) (hn : n < t.len)
    (h : Issues s c t 4 4 1 pr body = true) (ha : fRA body.toNat = 0) (hr : t.rets = n :: r)
    (hland : Lands (s.issued c t 1).1 c { t with loops := loopsAt t.loops n } n = true) :
    exec (.ret c pr body) s = .next ((s.issued c t 1).1.placed c
      { (s.issued c t 1).2 with loops := loopsAt t.loops n, rets := r } n) := by
  have he : opRet.eff body.toNat (s.issued c t 1).1 (s.issued c t 1).2 =
      { s := (s.issued c t 1).1, t := { (s.issued c t 1).2 with loops := loopsAt t.loops n, rets := r }, jump := some n } := by
    simp [opRet, hr, jumpTo_issued (s := s) (c := c) rfl hn]
  exact State.issue_lands (o := opRet) h (checkFields_none (by simp [hd, ha, hi, hz]) (by simp)) he rfl (Op.checked_default rfl)
    (State.issued_loops_control ..) rfl hland

/-! ### Hardware loops (R228) -/

/-- A loop with count 0 skips its body. -/
theorem exec_loop_skips (hd : bits body.toNat 43 5 = 0) (hz : bits body.toNat 32 6 = 0) (h : Issues s c t 4 5 1 pr body = true)
    (h1 : 1 ≤ fIMM body.toNat) (hm : fIMM body.toNat ≤ 4096) (hlen : t.pc + fIMM body.toNat < t.len) (hk : t.sreg (fRA body.toNat) = 0)
    (hland : Lands (s.issued c t 1).1 c t (t.pc + 1 + fIMM body.toNat) = true) :
    exec (.loop c pr body) s = .next ((s.issued c t 1).1.placed c (s.issued c t 1).2 (t.pc + 1 + fIMM body.toNat)) := by
  have hb : ¬ (fIMM body.toNat = 0 ∨ 4096 < fIMM body.toNat ∨ t.len ≤ t.pc + fIMM body.toNat) := by omega
  have he : opLoop.eff body.toNat (s.issued c t 1).1 (s.issued c t 1).2 =
      { s := (s.issued c t 1).1, t := (s.issued c t 1).2, jump := some (t.pc + 1 + fIMM body.toNat) } := by
    simp only [opLoop, State.issued_pc, State.issued_len, State.issued_sreg, if_neg hb, if_pos hk]
  exact State.issue_lands (o := opLoop) h (checkFields_none (by simp [hd, hz]) (by simp)) he rfl (Op.checked_default rfl)
    State.issued_control_eq rfl hland

/-- A loop with another count begins its body. -/
theorem exec_loop_begins (hd : bits body.toNat 43 5 = 0) (hz : bits body.toNat 32 6 = 0) (h : Issues s c t 4 5 1 pr body = true)
    (h1 : 1 ≤ fIMM body.toNat) (hm : fIMM body.toNat ≤ 4096) (hlen : t.pc + fIMM body.toNat < t.len) (hk : t.sreg (fRA body.toNat) ≠ 0)
    (hl : t.loops.length < 4) (hland : Lands (s.issued c t 1).1 c
      { t with loops := (t.pc + 1, t.pc + fIMM body.toNat, t.sreg (fRA body.toNat)) :: t.loops } (t.pc + 1) = true) :
    exec (.loop c pr body) s = .next ((s.issued c t 1).1.placed c { (s.issued c t 1).2 with
      loops := (t.pc + 1, t.pc + fIMM body.toNat, t.sreg (fRA body.toNat)) :: t.loops } (t.pc + 1)) := by
  have hb : ¬ (fIMM body.toNat = 0 ∨ 4096 < fIMM body.toNat ∨ t.len ≤ t.pc + fIMM body.toNat) := by omega
  have hl' : ¬ 4 ≤ t.loops.length := by omega
  have he : opLoop.eff body.toNat (s.issued c t 1).1 (s.issued c t 1).2 =
      { s := (s.issued c t 1).1
        t := { (s.issued c t 1).2 with loops := (t.pc + 1, t.pc + fIMM body.toNat, t.sreg (fRA body.toNat)) :: t.loops }
        jump := some (t.pc + 1) } := by
    simp only [opLoop, State.issued_pc, State.issued_len, State.issued_sreg, State.issued_loops, if_neg hb, if_neg hk, if_neg hl']
  exact State.issue_lands (o := opLoop) h (checkFields_none (by simp [hd, hz]) (by simp)) he rfl (Op.checked_default rfl)
    (State.issued_loops_control ..) rfl hland

/-- The end of an instruction, with the innermost loop tested at its end. -/
theorem Tile.stepLoop_cons {a b k next : Nat} {r : List (Nat × Nat × Nat)} (h : t.loops = (a, b, k) :: r) : t.stepLoop next =
    if b = t.pc then (if k ≤ 1 then { t with pc := next, loops := r } else { t with pc := a, loops := (a, b, k - 1) :: r })
    else { t with pc := next } := by
  rw [Tile.stepLoop, h]

/-- Settles O29: the four transfers, the two ways a loop begins, and the test at a loop's end. -/
theorem controlTransfers : Obligations.ControlTransfers := by
  refine ⟨fun s c t pr body hd hz => ⟨fun n ha hx hn => ⟨exec_br hd hz ha hx hn, exec_call hd hz ha hx hn⟩,
      fun n hi hn => ⟨exec_jr hd hz hi hn, fun r => exec_ret hd hz hi hn⟩⟩,
    fun s c t pr body hd hz h h1 hm hlen => ⟨exec_loop_skips hd hz h h1 hm hlen, exec_loop_begins hd hz h h1 hm hlen⟩,
    fun t a b k next r h => ⟨fun hb hk => ?again, fun hb hk => ?last, fun hb => ?inside⟩⟩
  case again => rw [Tile.stepLoop_cons h, if_pos hb.symm, if_neg (by omega)]
  case last => rw [Tile.stepLoop_cons h, if_pos hb.symm, if_pos (by omega)]
  case inside => rw [Tile.stepLoop_cons h, if_neg (Ne.symm hb)]

end Transfers

/-! ### System instructions (R233, R234, R237) -/

section System
variable {s : State} {c a n : Nat} {t u : Tile} {pr : BitVec 4} {body : BitVec 48} {o : Op} {x : Trap} {e : Eff}

/-- An instruction that issues with a trap ends its tile. -/
theorem State.issue_traps (h : Issues s c t o.grp o.func (o.cost body.toNat t) pr body = true) (hl : o.legal body.toNat = none)
    (he : o.eff body.toNat (s.issued c t (o.cost body.toNat t)).1 (s.issued c t (o.cost body.toNat t)).2 = e) (ht : e.trap = some x) :
    s.issue c pr body o = .next (e.s.tileTrap c e.t (opWord o.grp o.func pr.toNat body.toNat) x) := by
  rw [State.issue_effect h hl]
  simp only [he, ht]

/-- A tile that has ended goes nowhere. -/
theorem State.advance_ended {w next : Nat} (h : u.ended = true) : s.advance c u w next = s.setTile c (some u) := by
  rw [State.advance, if_pos h]

/-- Declaring a stream leaves the code. -/
theorem State.declare_codeWord (s : State) (d a n c : Nat) (t : Tile) : (s.declare d a n).codeWord c t = s.codeWord c t := by
  unfold State.declare
  dsimp only
  split <;> rfl

theorem Lands.of_declare {next : Nat} (d a n : Nat) (h : Lands s c t next = true) : Lands (s.declare d a n) c t next = true := by
  rwa [Lands, State.declare_codeWord]

theorem exec_idle {func : Nat} (hd : bits body.toNat 43 5 = 0) (hz : bits body.toNat 32 6 = 0) (ha : fRA body.toNat = 0) (hi : fIMM body.toNat = 0)
    (h : Runs s c t 7 func 1 pr body = true) : s.issue c pr body (opIdle func) = .next (s.after c t 1 fun x => x) :=
  State.issue_writes (o := opIdle func) (g := fun x => x) h (checkFields_none (by simp [hd, ha, hz, hi]) (by simp)) rfl (fun _ => rfl) rfl

/-- Settles O30: what each effect leaves of the control state; a declared stream leaves the code (`State.declare_codeWord`). -/
theorem systemInstructions : Obligations.SystemInstructions := by
  refine fun s c t pr body hd hz => ⟨fun ha hi => ⟨exec_idle hd hz ha hi, exec_idle hd hz ha hi, fun h => ?ends⟩, fun hx h => ?xpf,
    fun ha hi h => ?trap⟩
  case ends =>
    have hl : opEnd.legal body.toNat = none := checkFields_none (by simp [hd, ha, hz, hi]) (by simp)
    refine (State.issue_effect (o := opEnd) h hl).trans (congrArg Host.Outcome.next ?_)
    simp only [opEnd, Eff.reg]
    rw [Op.checked_default rfl, State.advance_ended rfl]
  case xpf =>
    obtain ⟨hi, hland⟩ := Bool.and_eq_true_iff.1 h
    have hl : (opXpf c).legal body.toNat = none := checkFields_none (by simp [hd, hz, hx]) (by simp)
    intro ea n open_
    have he : (opXpf c).eff body.toNat (s.issued c t 1).1 (s.issued c t 1).2 =
        Eff.reg (if open_ then (s.issued c t 1).1.declare c (addrOf ea) n else (s.issued c t 1).1) (s.issued c t 1).2 := by
      simp only [opXpf, State.issued_areg, State.issued_sreg, State.issued_segs, ea, n, open_]
    refine ⟨fun ho => ?_, fun ho => ?_⟩
    · rw [ho] at he
      exact State.issue_reg (o := opXpf c) hi hl he (Op.checked_default rfl) State.issued_control_eq hland
    · rw [ho] at he
      exact State.issue_reg (o := opXpf c) hi hl he (Op.checked_default rfl) State.issued_control_eq (Lands.of_declare _ _ _ hland)
  case trap =>
    have hhigh : bits body.toNat 16 16 = 0 := by
      unfold fIMM bits at hi
      unfold bits
      omega
    have hlow : bits body.toNat 0 16 = fIMM body.toNat := by
      unfold fIMM bits at *
      omega
    rw [← hlow]
    exact State.issue_traps (o := opTrap) h (checkFields_none (by simp [hd, ha, hz, hhigh]) (by simp)) rfl rfl

end System

end Sys2Proof.Machine
end

section
/-!
PROOFS. Reads of memory and of the scratchpad from sound units (R171, R213, R217).
-/

namespace Sys2Proof.Machine

section Reads
variable {s : State} {i c a n p k u w : Nat} {t : Tile}

/-- A read that answers success gives the bytes of the state it leaves. -/
theorem State.hwRead_bytes (h : (s.hwRead i a n).2.1 = 0) : (s.hwRead i a n).2.2 = (s.hwRead i a n).1.bytes a n := by
  unfold State.hwRead at h ⊢
  dsimp only at h ⊢
  split at h
  · contradiction
  · split at h
    · cases h
    · rw [if_neg ‹_›, if_neg ‹_›]

/-- A read of sound units, with no report waiting, no bad word of a cached line and no sleep entry under way, gives the bytes of memory. -/
theorem State.hwRead_sound (hs : s.UnitsSound (unitsOf a n)) (hf : s.memu.found = []) (hw : s.memu.word = []) (he : s.pwr.entry = none)
    (h : (s.hwRead i a n).2.1 = 0) : (s.hwRead i a n).2.2 = s.bytes a n := by
  obtain ⟨hmem, herrs, hpoison, hmemu⟩ := State.wakeFor_memory (s := s) (a := a) he
  rw [State.hwRead_bytes h, State.hwRead_state h, State.bytes_congr (State.readUnits_mem ?_ (by rw [hmemu, hf]) (by rw [hmemu, hw])),
    State.bytes_congr hmem]
  rw [State.UnitsSound, herrs, hpoison]
  exact hs

/-! ### Words of a scratchpad -/

/-- Above the DRAM a unit is an aligned word. -/
theorem mem_unitsOf_word (h : dramEnd ≤ a) : u ∈ unitsOf a n ↔ n ≠ 0 ∧ u % 8 = 0 ∧ a / 8 ≤ u / 8 ∧ u / 8 ≤ (a + n - 1) / 8 := by
  have hsize : unitSize a = 8 := if_neg (by omega)
  rw [unitsOf, unitOf, hsize]
  split
  case isTrue hn => simp [hn]
  case isFalse hn =>
    simp only [List.mem_map, List.mem_range]
    constructor
    · rintro ⟨j, hj, rfl⟩
      omega
    · rintro ⟨-, h8, hl, hr⟩
      exact ⟨u / 8 - a / 8, by omega, by omega⟩

/-- The units of a part of a range are units of the range. -/
theorem unitsOf_subset (h : dramEnd ≤ a) (hl : a ≤ p) (hr : k ≠ 0 → p + k ≤ a + n) : ∀ u ∈ unitsOf p k, u ∈ unitsOf a n := by
  intro u hu
  rw [mem_unitsOf_word (by omega)] at hu
  rw [mem_unitsOf_word h]
  omega

/-- A read above the DRAM of sound units, with no report waiting, changes nothing. -/
theorem State.readUnits_fixed (hs : s.UnitsSound (unitsOf a n)) (hf : s.memu.found = []) (h : dramEnd ≤ a) : s.readUnits i a n = s := by
  have hu : (unitsOf a n).foldl (fun s u => s.readUnit i u) s.settleFound = s := by
    rw [State.settleFound_nil hf]
    exact foldl_fixed fun u h => State.readUnit_sound (hs u h).1 (hs u h).2
  have hd : dramUnits a n = [] := if_neg (by omega)
  simp only [State.readUnits, hu, hd, List.foldl_nil, if_pos (Or.inr h : s.memu.word.isEmpty = true ∨ dramEnd ≤ a)]

/-! ### The lines of a range -/

/-- What a tile reads at an address of its scratchpad: the byte there of a line that it has written, else 0. -/
def State.spadByte (s : State) (c : Nat) (t : Tile) (x : Nat) : Nat :=
  if Store.get false t.lines (x / 64) then s.byte (spadBase c + x) else 0

/-- What a tile reads of one line of a range. -/
def State.spadPart (s : State) (c : Nat) (t : Tile) (a n k : Nat) : List Nat :=
  (List.range (linePart a n k).2).map (fun j => s.spadByte c t ((linePart a n k).1 + j))

theorem State.spadPart_eq (s : State) (c : Nat) (t : Tile) (a n k : Nat) : s.spadPart c t a n k =
    if Store.get false t.lines k then s.bytes (spadBase c + (linePart a n k).1) (linePart a n k).2
    else List.replicate (linePart a n k).2 0 := by
  have hline (j : Nat) (hj : j ∈ List.range (linePart a n k).2) : ((linePart a n k).1 + j) / 64 = k := by
    rw [List.mem_range] at hj
    unfold linePart at hj ⊢
    dsimp only at hj ⊢
    omega
  have hpart : s.spadPart c t a n k = (List.range (linePart a n k).2).map fun j =>
      if Store.get false t.lines k then s.byte (spadBase c + (linePart a n k).1 + j) else 0 :=
    List.map_congr_left fun j hj => by rw [State.spadByte, hline j hj, Nat.add_assoc]
  rw [hpart]
  split
  · rfl
  · simp

/-- The parts of the first lines of a range are its first bytes. -/
theorem State.spadParts_range (s : State) (c : Nat) (t : Tile) (a n m : Nat) :
    ((List.range m).map (fun k => a / 64 + k)).flatMap (s.spadPart c t a n) =
      (List.range (min (a + n) (64 * (a / 64 + m)) - a)).map (fun j => s.spadByte c t (a + j)) := by
  induction m with
  | zero =>
    have h0 : min (a + n) (64 * (a / 64 + 0)) - a = 0 := by omega
    rw [h0]
    rfl
  | succ m ih =>
    have hlen : min (a + n) (64 * (a / 64 + (m + 1))) - a =
        min (a + n) (64 * (a / 64 + m)) - a + (linePart a n (a / 64 + m)).2 := by
      unfold linePart
      dsimp only
      omega
    have hstart (j : Nat) (hj : j ∈ List.range (linePart a n (a / 64 + m)).2) :
        (linePart a n (a / 64 + m)).1 + j = a + (min (a + n) (64 * (a / 64 + m)) - a + j) := by
      rw [List.mem_range] at hj
      unfold linePart at hj ⊢
      dsimp only at hj ⊢
      omega
    rw [List.range_succ, List.map_append, List.flatMap_append, ih, hlen, List.range_add, List.map_append, List.map_map]
    congr 1
    rw [List.map_cons, List.map_nil, List.flatMap_cons, List.flatMap_nil, List.append_nil, State.spadPart]
    exact List.map_congr_left fun j hj => by rw [hstart j hj, Function.comp]

/-- The parts of its lines make up a range. -/
theorem State.spadParts_lines (s : State) (c : Nat) (t : Tile) (a n : Nat) :
    (linesOf a n).flatMap (s.spadPart c t a n) = (List.range n).map (fun j => s.spadByte c t (a + j)) := by
  unfold linesOf
  split
  case isTrue hn => rw [hn]; rfl
  case isFalse hn =>
    have hlen : min (a + n) (64 * (a / 64 + ((a + n - 1) / 64 - a / 64 + 1))) - a = n := by omega
    rw [State.spadParts_range, hlen]

/-- A tile reads one line of a range, with what it has read before it. -/
def State.readLine (c : Nat) (t : Tile) (a n : Nat) (r : State × Nat × List Nat) (k : Nat) : State × Nat × List Nat :=
  let e := linePart a n k
  if Store.get false t.lines k then
    let p := spadBase c + e.1
    let s := r.1.readUnits (iCLU c) p e.2
    (s, if s.poisoned p e.2 then 0x0304 else r.2.1, r.2.2 ++ s.bytes p e.2)
  else (r.1, r.2.1, r.2.2 ++ List.replicate e.2 0)

theorem State.spadRead_eq (s : State) (c : Nat) (t : Tile) (a n : Nat) :
    s.spadRead c t a n = (linesOf a n).foldl (State.readLine c t a n) (s, 0, []) := rfl

/-- A line of a sound range is read without a change. -/
theorem State.readLine_sound (hs : s.UnitsSound (unitsOf (spadBase c + a) n)) (hf : s.memu.found = []) (st : Nat) (bs : List Nat) :
    ∃ st', State.readLine c t a n (s, st, bs) k = (s, st', bs ++ s.spadPart c t a n k) := by
  have hd := dramEnd_le_spad c
  have hsub : ∀ u ∈ unitsOf (spadBase c + (linePart a n k).1) (linePart a n k).2, u ∈ unitsOf (spadBase c + a) n := by
    refine unitsOf_subset (hd a) ?_ ?_
    all_goals
      unfold linePart
      dsimp only
      omega
  have hfix : s.readUnits (iCLU c) (spadBase c + (linePart a n k).1) (linePart a n k).2 = s :=
    State.readUnits_fixed (fun u hu => hs u (hsub u hu)) hf (hd _)
  rw [State.spadPart_eq, State.readLine]
  dsimp only
  split
  · exact ⟨_, by rw [hfix]⟩
  · exact ⟨_, rfl⟩

theorem State.readLines_sound (hs : s.UnitsSound (unitsOf (spadBase c + a) n)) (hf : s.memu.found = []) (l : List Nat) (st : Nat) (bs : List Nat) :
    (l.foldl (State.readLine c t a n) (s, st, bs)).2.2 = bs ++ l.flatMap (s.spadPart c t a n) := by
  induction l generalizing st bs with
  | nil => simp
  | cons k r ih =>
    obtain ⟨st', h⟩ := State.readLine_sound (t := t) (k := k) hs hf st bs
    rw [List.foldl_cons, h, ih, List.flatMap_cons, List.append_assoc]

/-- A tile reads its own lines of sound units, and 0 elsewhere. -/
theorem State.spadRead_bytes (hs : s.UnitsSound (unitsOf (spadBase c + a) n)) (hf : s.memu.found = []) :
    (s.spadRead c t a n).2.2 = (List.range n).map (fun j => s.spadByte c t (a + j)) := by
  rw [State.spadRead_eq, State.readLines_sound hs hf, List.nil_append, State.spadParts_lines]

end Reads

end Sys2Proof.Machine
end

section
/-!
PROOFS. Tack's loads, stores and bulk transfers (R212, R216, R217, R226, R230 to R232, R236).
-/

namespace Sys2Proof.Machine

/-! ### What an access needs of the tile, and what it leaves -/

section Tiles
variable {s : State} {c n k b ea : Nat} {t : Tile} {wr vec : Bool}

@[simp] theorem State.issued_memAddr : (s.issued c t n).2.memAddr b = t.memAddr b := by simp [Tile.memAddr]
@[simp] theorem State.issued_shape : (s.issued c t n).2.shape b k = t.shape b k := by simp [Tile.shape]
@[simp] theorem State.issued_dstRow : (s.issued c t n).2.dstRow b k = t.dstRow b k := by simp [Tile.dstRow]
@[simp] theorem State.issued_accessTrap (x m : Nat) : accessTrap (s.issued c t n).2 wr x ea m = accessTrap t wr x ea m := by simp [accessTrap]
@[simp] theorem State.issued_memTrap (m al : Nat) : memTrap (s.issued c t n).2 wr vec b m al = memTrap t wr vec b m al := by simp [memTrap]

@[simp] theorem State.issued_xferTrap (p q : Bool) : xferTrap (s.issued c t n).2 b p q = xferTrap t b p q := by
  simp [xferTrap, Tile.shapeOk, Tile.srcRow]

/-- An aligned scalar access that reaches its bytes does not fault. -/
theorem memTrap_scalar {m al : Nat} (ha : addrOf (t.memAddr b) % al = 0) (hx : accessTrap t wr (t.areg (fAR b)) (t.memAddr b) m = none) :
    memTrap t wr false b m al = none := by
  simp [memTrap, ha, hx]

/-- Nor does an aligned vector access inside the scratchpad. -/
theorem memTrap_vector {m al : Nat} (ha : addrOf (t.memAddr b) % al = 0) (hl : isLocal (t.memAddr b) = true)
    (hf : addrForm (t.areg (fAR b)) = true) (hm : addrOf (t.memAddr b) + m ≤ spadSize) : memTrap t wr true b m al = none := by
  simp [memTrap, accessTrap, ha, hl, hf, hm]

@[simp] theorem Tile.postStep_control (t : Tile) (b : Nat) : (t.postStep b).control = t.control := by
  rw [Tile.postStep]
  split
  · exact Tile.setA_control ..
  · rfl

theorem Tile.setA_ups (t : Tile) (n v : Nat) : (t.setA n v).ups = t.ups := rfl

@[simp] theorem Tile.setV_control (t : Tile) (n v : Nat) : (t.setV n v).control = t.control := rfl
@[simp] theorem Tile.setV_ups (t : Tile) (n v : Nat) : (t.setV n v).ups = t.ups := rfl

@[simp] theorem Tile.postStep_ups (t : Tile) (b : Nat) : (t.postStep b).ups = t.ups := by
  rw [Tile.postStep]
  split
  · exact Tile.setA_ups ..
  · rfl

/-- A local store marks lines of its tile and changes nothing else of it. -/
theorem State.spadWrite_lines (s : State) (c : Nat) (t : Tile) (a : Nat) (bs : List Nat) :
    (s.spadWrite c t a bs).2 = { t with lines := (s.spadWrite c t a bs).2.lines } := by
  have h (l : List Nat) (s : State) (t : Tile) : (s.openLines c t l).2 = { t with lines := (s.openLines c t l).2.lines } := by
    induction l generalizing s t with
    | nil => rfl
    | cons k r ih =>
      rw [State.openLines_cons]
      split
      · exact ih ..
      · exact ih ..
  rw [State.spadWrite_eq]
  exact h ..

@[simp] theorem State.spadWrite_control (s : State) (c : Nat) (t : Tile) (a : Nat) (bs : List Nat) :
    (s.spadWrite c t a bs).2.control = t.control := by
  rw [State.spadWrite_lines]
  rfl

@[simp] theorem State.spadWrite_ups (s : State) (c : Nat) (t : Tile) (a : Nat) (bs : List Nat) : (s.spadWrite c t a bs).2.ups = t.ups := by
  rw [State.spadWrite_lines]

@[simp] theorem State.tileWrite_control (s : State) (c : Nat) (t : Tile) (ea : Nat) (bs : List Nat) :
    (s.tileWrite c t ea bs).2.1.control = t.control := by
  unfold State.tileWrite
  split
  · exact State.spadWrite_control ..
  · rfl

/-- Issuing adds to the work count of a tile that nothing has upset, and does nothing else to it. -/
theorem State.issued_undisturbed (h : t.Sound) : (s.issued c t n).2 = { t with work := t.work + n } :=
  Tile.struck_sound (t := { t with work := t.work + n }) h

theorem State.issued_sound (h : t.Sound) : (s.issued c t n).2.Sound := by
  rw [State.issued_undisturbed h]
  exact h

theorem State.issued_vreg (h : t.Sound) : (s.issued c t n).2.vreg k = t.vreg k := by
  rw [State.issued_undisturbed h]
  rfl

end Tiles

/-! ### Loads and stores (R230, R231) -/

section Access
variable {s r : State} {c func n al b : Nat} {t u : Tile} {pr : BitVec 4} {body : BitVec 48} {vec sg : Bool}

/-- What a load that reaches its bytes does. -/
theorem opLoad_eff {f : Tile → Nat → Nat → Tile} (hm : memTrap u false vec b n al = none) (hr : (r.tileRead c u (u.memAddr b) n).2.1 = 0) :
    (opLoad c func n al vec f).eff b r u = Eff.reg (r.tileRead c u (u.memAddr b) n).1
      (f (u.postStep b) (fRD b) (leNat (r.tileRead c u (u.memAddr b) n).2.2)) := by
  simp [opLoad, hm, hr]

/-- What a store that reaches its bytes does. -/
theorem opStore_eff {f : Tile → Nat → Nat} (hm : memTrap u true vec b n al = none)
    (hw : (r.tileWrite c u (u.memAddr b) (leBytes n (f u (fRD b)))).2.2 = 0) :
    (opStore c func n al vec f).eff b r u = Eff.reg (r.tileWrite c u (u.memAddr b) (leBytes n (f u (fRD b)))).1
      ((r.tileWrite c u (u.memAddr b) (leBytes n (f u (fRD b)))).2.1.postStep b) := by
  simp [opStore, hm, hw]

/-- A scalar load writes the bytes read, extended. -/
theorem State.issue_opLd (hz : bits body.toNat 32 6 = 0) (h : Runs s c t 5 func 1 pr body = true) (ha : addrOf (t.memAddr body.toNat) % n = 0)
    (hx : accessTrap t false (t.areg (fAR body.toNat)) (t.memAddr body.toNat) n = none)
    (hr : ((s.issued c t 1).1.tileRead c (s.issued c t 1).2 (t.memAddr body.toNat) n).2.1 = 0)
    (hland : Lands ((s.issued c t 1).1.tileRead c (s.issued c t 1).2 (t.memAddr body.toNat) n).1 c t (t.pc + 1) = true) :
    s.issue c pr body (opLd c func n sg) = .next (((s.issued c t 1).1.tileRead c (s.issued c t 1).2 (t.memAddr body.toNat) n).1.placed c
      (((s.issued c t 1).2.postStep body.toNat).setS (fRD body.toNat)
        (let v := leNat ((s.issued c t 1).1.tileRead c (s.issued c t 1).2 (t.memAddr body.toNat) n).2.2
         if sg then ((BitVec.ofNat (8 * n) v).signExtend 64).toNat else v)) (t.pc + 1)) := by
  have hm : memTrap (s.issued c t 1).2 false false body.toNat n n = none := by rw [State.issued_memTrap, memTrap_scalar ha hx]
  have he := opLoad_eff (func := func) (f := fun t rd v => t.setS rd (if sg then toCode 64 (sext (8 * n) v) else v)) hm
    (by rwa [State.issued_memAddr])
  simp only [State.issued_memAddr, toCode_eq_toNat, sext_eq_toInt] at he
  exact State.issue_reg (o := opLd c func n sg) (Bool.and_eq_true_iff.1 h).1 (checkFields_none (by simp [hz]) (by simp)) he
    (Op.checked_default rfl) (by simp) hland

/-- A scalar store writes the low bytes of its register. -/
theorem State.issue_opSt (hz : bits body.toNat 32 6 = 0) (h : Runs s c t 5 func 1 pr body = true) (ha : addrOf (t.memAddr body.toNat) % n = 0)
    (hx : accessTrap t true (t.areg (fAR body.toNat)) (t.memAddr body.toNat) n = none) :
    let w := (s.issued c t 1).1.tileWrite c (s.issued c t 1).2 (t.memAddr body.toNat) (leBytes n (t.sreg (fRD body.toNat)))
    w.2.2 = 0 → Lands w.1 c t (t.pc + 1) = true →
      s.issue c pr body (opSt c func n) = .next (w.1.placed c (w.2.1.postStep body.toNat) (t.pc + 1)) := by
  intro w hw hland
  have hm : memTrap (s.issued c t 1).2 true false body.toNat n n = none := by rw [State.issued_memTrap, memTrap_scalar ha hx]
  have he := opStore_eff (func := func) (c := c) (r := (s.issued c t 1).1) (f := fun t rd => t.sreg rd) hm
    (by rwa [State.issued_memAddr, State.issued_sreg])
  simp only [State.issued_memAddr, State.issued_sreg] at he
  exact State.issue_reg (o := opSt c func n) (Bool.and_eq_true_iff.1 h).1 (checkFields_none (by simp [hz]) (by simp)) he
    (Op.checked_default rfl) (by simp [w]) hland

/-- In a tile that nothing has upset, `vld` writes the 256 bytes read. -/
theorem exec_vld (ht : t.Sound) (hz : bits body.toNat 32 6 = 0) (ha : addrOf (t.memAddr body.toNat) % 64 = 0)
    (hl : isLocal (t.memAddr body.toNat) = true) (hf : addrForm (t.areg (fAR body.toNat)) = true)
    (hsize : addrOf (t.memAddr body.toNat) + 256 ≤ spadSize) (h : Runs s c t 5 0x10 1 pr body = true) :
    let r := (s.issued c t 1).1.spadRead c (s.issued c t 1).2 (addrOf (t.memAddr body.toNat)) 256
    r.2.1 = 0 → Lands r.1 c t (t.pc + 1) = true → exec (.vld c pr body) s =
      .next (r.1.placed c (((s.issued c t 1).2.postStep body.toNat).setV (fRD body.toNat) (leNat r.2.2)) (t.pc + 1)) := by
  intro r hr hland
  obtain ⟨hoff, hups⟩ := State.issued_sound (s := s) (c := c) (n := 1) ht
  have hread : (s.issued c t 1).1.tileRead c (s.issued c t 1).2 (t.memAddr body.toNat) 256 = r := if_pos hl
  have hm : memTrap (s.issued c t 1).2 false true body.toNat 256 64 = none := by rw [State.issued_memTrap, memTrap_vector ha hl hf hsize]
  have he := opLoad_eff (func := 0x10) (f := Tile.setV) hm (by rwa [State.issued_memAddr, hread])
  rw [State.issued_memAddr, hread] at he
  exact State.issue_reg (o := opLoad c 0x10 256 64 true Tile.setV) (Bool.and_eq_true_iff.1 h).1 (checkFields_none (by simp [hz]) (by simp)) he
    (Op.checked_sound hoff (by simp [hups])) (by simp) hland

/-- In a tile that nothing has upset, `vst` writes the 256 bytes of its register. -/
theorem exec_vst (ht : t.Sound) (hz : bits body.toNat 32 6 = 0) (ha : addrOf (t.memAddr body.toNat) % 64 = 0)
    (hl : isLocal (t.memAddr body.toNat) = true) (hf : addrForm (t.areg (fAR body.toNat)) = true)
    (hsize : addrOf (t.memAddr body.toNat) + 256 ≤ spadSize) (h : Runs s c t 5 0x11 1 pr body = true) :
    let w := (s.issued c t 1).1.spadWrite c (s.issued c t 1).2 (addrOf (t.memAddr body.toNat)) (leBytes 256 (t.vreg (fRD body.toNat)))
    Lands w.1 c t (t.pc + 1) = true → exec (.vst c pr body) s = .next (w.1.placed c (w.2.postStep body.toNat) (t.pc + 1)) := by
  intro w hland
  obtain ⟨hoff, hups⟩ := State.issued_sound (s := s) (c := c) (n := 1) ht
  have hv : (s.issued c t 1).2.vreg (fRD body.toNat) = t.vreg (fRD body.toNat) := State.issued_vreg ht
  have hwrite : (s.issued c t 1).1.tileWrite c (s.issued c t 1).2 (t.memAddr body.toNat) (leBytes 256 (t.vreg (fRD body.toNat))) =
      (w.1, w.2, 0) := if_pos hl
  have hm : memTrap (s.issued c t 1).2 true true body.toNat 256 64 = none := by rw [State.issued_memTrap, memTrap_vector ha hl hf hsize]
  have he := opStore_eff (func := 0x11) (c := c) (r := (s.issued c t 1).1) (f := Tile.vreg) hm (by rw [State.issued_memAddr, hv, hwrite])
  rw [State.issued_memAddr, hv, hwrite] at he
  exact State.issue_reg (o := opStore c 0x11 256 64 true Tile.vreg) (Bool.and_eq_true_iff.1 h).1 (checkFields_none (by simp [hz]) (by simp)) he
    (Op.checked_sound hoff (by simp [w, hups])) (by simp [w]) hland

/-- Every row of the table of loads issues a load of its bytes. -/
theorem loadRows_issue : ∀ e ∈ loadRows, ∀ s c pr body, exec (e.1 c pr body) s = s.issue c pr body (opLd c e.2.1 e.2.2.1 e.2.2.2) := by
  simp only [loadRows, List.forall_mem_cons]
  exact ⟨fun _ _ _ _ => rfl, fun _ _ _ _ => rfl, fun _ _ _ _ => rfl, fun _ _ _ _ => rfl, fun _ _ _ _ => rfl, fun _ _ _ _ => rfl,
    fun _ _ _ _ => rfl, nofun⟩

/-- Every row of the table of stores issues a store of its bytes. -/
theorem storeRows_issue : ∀ e ∈ storeRows, ∀ s c pr body, exec (e.1 c pr body) s = s.issue c pr body (opSt c e.2.1 e.2.2) := by
  simp only [storeRows, List.forall_mem_cons]
  exact ⟨fun _ _ _ _ => rfl, fun _ _ _ _ => rfl, fun _ _ _ _ => rfl, fun _ _ _ _ => rfl, nofun⟩

/-- Settles O31: an access that does not fault goes on with what its read or write leaves; sound units are read without a change. -/
theorem loadsAndStores : Obligations.LoadsAndStores := by
  refine ⟨fun e he s c t pr body hz h ha hx hr hland => ?load, fun e he s c t pr body hz h ha hx => ?store,
    fun s c t pr body ht hz ha hl hf hsize => ⟨exec_vld ht hz ha hl hf hsize, exec_vst ht hz ha hl hf hsize⟩,
    fun s c a n hs hfound hword hentry h => State.hwRead_sound hs hfound hword hentry h, fun s c t a n k hk hs hfound => ?scratchpad⟩
  case load =>
    rw [loadRows_issue e he]
    exact State.issue_opLd hz h ha hx hr hland
  case store =>
    rw [storeRows_issue e he]
    exact State.issue_opSt hz h ha hx
  case scratchpad => simp [State.spadRead_bytes hs hfound, hk, State.spadByte]

end Access

/-! ### Bulk transfers (R232, R236) -/

section Bulk
variable {s : State} {c func b k : Nat} {t : Tile} {pr : BitVec 4} {body : BitVec 48} {p q : Bool}

/-- An effect after a row's write with its status. -/
def Eff.wrote (e : Eff) (w : State × Tile × Nat) : Eff :=
  if w.2.2 ≠ 0 then { e with s := w.1, trap := some (accessEnd w.2.2) } else { e with s := w.1, t := w.2.1 }

/-- An effect after a row's read with its status, and a write that waits on it. -/
def Eff.copied (e : Eff) (rd : State × Nat × List Nat) (w : State × Tile × Nat) : Eff :=
  if rd.2.1 ≠ 0 then { e with s := rd.1, trap := some (accessEnd rd.2.1) } else e.wrote w

theorem moveRow_eq (c b : Nat) (e : Eff) (r : Nat) : moveRow c b e r = if e.trap.isSome then e else
    e.copied (e.s.tileRead c e.t (e.t.srcRow b r) (e.t.shape b 0)) ((e.s.tileRead c e.t (e.t.srcRow b r) (e.t.shape b 0)).1.tileWrite c e.t
      (e.t.dstRow b r) (e.s.tileRead c e.t (e.t.srcRow b r) (e.t.shape b 0)).2.2) := rfl

theorem Eff.copied_control {e : Eff} {rd : State × Nat × List Nat} {w : State × Tile × Nat} (h : w.2.1.control = e.t.control) :
    ((e.copied rd w).jump, (e.copied rd w).t.control) = (e.jump, e.t.control) := by
  unfold Eff.copied Eff.wrote
  split
  · rfl
  · split
    · rfl
    · exact congrArg _ h

/-- Moving a row transfers no control and leaves the control state. -/
theorem moveRow_control (c b : Nat) (e : Eff) (r : Nat) : ((moveRow c b e r).jump, (moveRow c b e r).t.control) = (e.jump, e.t.control) := by
  rw [moveRow_eq]
  split
  · rfl
  · exact Eff.copied_control (State.tileWrite_control ..)

theorem moveRows_control (c b : Nat) (e : Eff) (l : List Nat) :
    ((l.foldl (moveRow c b) e).jump, (l.foldl (moveRow c b) e).t.control) = (e.jump, e.t.control) :=
  foldl_keeps (fun e : Eff => (e.jump, e.t.control)) fun e r _ => moveRow_control c b e r

theorem xferCost_eq (h1 : 1 ≤ xRS b) (h28 : xRS b ≤ 28) (t : Tile) : xferCost b t = 1 + ceilDiv (t.shape b 0 * t.shape b 1) 64 :=
  if_pos ⟨h1, h28⟩

theorem opXfer_legal (hz : bits b 0 35 = 0) (h1 : 1 ≤ xRS b) (h28 : xRS b ≤ 28) : (opXfer c func p q).legal b = none := by
  have hr : ¬ (xRS b = 0 ∨ 28 < xRS b) := by omega
  simp only [opXfer, hz, ne_eq, not_true, if_false, if_neg hr]

/-- A transfer between the spaces moves its rows in order. -/
theorem State.issue_opXfer (hz : bits body.toNat 0 35 = 0) (h1 : 1 ≤ xRS body.toNat) (h28 : xRS body.toNat ≤ 28) (hpq : ¬ (p = true ∧ q = true))
    (h : Issues s c t 6 func (1 + ceilDiv (t.shape body.toNat 0 * t.shape body.toNat 1) 64) pr body = true)
    (hx : xferTrap t body.toNat p q = none) :
    let u := s.issued c t (1 + ceilDiv (t.shape body.toNat 0 * t.shape body.toNat 1) 64)
    let e := (List.range (t.shape body.toNat 1)).foldl (moveRow c body.toNat) (Eff.reg u.1 u.2)
    e.trap = none → Lands e.s c t (t.pc + 1) = true → s.issue c pr body (opXfer c func p q) = .next (e.s.placed c e.t (t.pc + 1)) := by
  rw [← xferCost_eq h1 h28] at h ⊢
  intro u e ht hland
  have hc : (e.jump, e.t.control) = (none, u.2.control) := moveRows_control ..
  obtain ⟨hjump, hcontrol⟩ := Prod.mk.inj hc
  have he : (opXfer c func p q).eff body.toNat u.1 u.2 = e := by
    simp only [opXfer, u, State.issued_xferTrap, hx, if_neg hpq, State.issued_shape, e]
  have hnext : e.jump.getD (t.pc + 1) = t.pc + 1 := by rw [hjump]; rfl
  rw [← hnext] at hland ⊢
  exact State.issue_lands (o := opXfer c func p q) h (opXfer_legal hz h1 h28) he ht (Op.checked_default rfl)
    (hcontrol.trans State.issued_control_eq) rfl hland

/-- A transfer within the scratchpad reads every row before it writes one. -/
theorem exec_xcp (hz : bits body.toNat 0 35 = 0) (h1 : 1 ≤ xRS body.toNat) (h28 : xRS body.toNat ≤ 28)
    (h : Issues s c t 6 3 (1 + ceilDiv (t.shape body.toNat 0 * t.shape body.toNat 1) 64) pr body = true)
    (hx : xferTrap t body.toNat true true = none) :
    let u := s.issued c t (1 + ceilDiv (t.shape body.toNat 0 * t.shape body.toNat 1) 64)
    let r := readRows c body.toNat u.1 u.2
    let w := r.2.2.zipIdx.foldl (fun (p : State × Tile) e => p.1.spadWrite c p.2 (addrOf (t.dstRow body.toNat e.2)) e.1) (r.1, u.2)
    r.2.1 = 0 → Lands w.1 c t (t.pc + 1) = true → exec (.xcp c pr body) s = .next (w.1.placed c w.2 (t.pc + 1)) := by
  rw [← xferCost_eq h1 h28] at h ⊢
  intro u r w hr hland
  have hcontrol : w.2.control = u.2.control := foldl_keeps (fun p : State × Tile => p.2.control) fun p e _ => State.spadWrite_control ..
  have he : (opXfer c 3 true true).eff body.toNat u.1 u.2 = Eff.reg w.1 w.2 := by
    have hr' : ¬ (readRows c body.toNat u.1 u.2).2.1 ≠ 0 := fun hn => hn hr
    simp only [opXfer, u, State.issued_xferTrap, hx, and_self, if_true, State.issued_dstRow, if_neg hr', w, r]
  exact State.issue_reg (o := opXfer c 3 true true) h (opXfer_legal hz h1 h28) he (Op.checked_default rfl)
    (hcontrol.trans State.issued_control_eq) hland

theorem addrAdd_zero (x : Nat) : addrAdd x 0 = x := by
  unfold addrAdd
  omega

/-- A first row that is read from sound memory stands in the scratchpad afterwards. -/
theorem moveRow_first (hs : s.UnitsSound (unitsOf (addrOf (t.areg (xAS b))) (t.shape b 0))) (hf : s.memu.found = []) (hw : s.memu.word = [])
    (he : s.pwr.entry = none) (hsrc : isLocal (t.areg (xAS b)) = false) (hdst : isLocal (t.areg (xAD b)) = true)
    (hr : (s.hwRead (iCLU c) (addrOf (t.areg (xAS b))) (t.shape b 0)).2.1 = 0) :
    (moveRow c b (Eff.reg s t) 0).trap = none ∧ ∀ k, k < t.shape b 0 →
      (moveRow c b (Eff.reg s t) 0).s.byte (spadBase c + addrOf (t.areg (xAD b)) + k) = s.byte (addrOf (t.areg (xAS b)) + k) := by
  have hread : s.tileRead c t (t.srcRow b 0) (t.shape b 0) = s.hwRead (iCLU c) (addrOf (t.areg (xAS b))) (t.shape b 0) := by
    simp [State.tileRead, Tile.srcRow, addrAdd_zero, hsrc]
  have hmove : moveRow c b (Eff.reg s t) 0 =
      let rd := s.hwRead (iCLU c) (addrOf (t.areg (xAS b))) (t.shape b 0)
      let w := rd.1.spadWrite c t (addrOf (t.areg (xAD b))) (s.bytes (addrOf (t.areg (xAS b))) (t.shape b 0))
      { s := w.1, t := w.2 } := by
    simp [moveRow, Eff.reg, hread, hr, State.hwRead_sound hs hf hw he hr, State.tileWrite, Tile.dstRow, addrAdd_zero, hdst]
  rw [hmove]
  refine ⟨rfl, fun k hk => ?_⟩
  have hlen : k < (s.bytes (addrOf (t.areg (xAS b))) (t.shape b 0)).length := by simpa [State.bytes] using hk
  dsimp only
  rw [State.spadWrite_eq]
  refine (State.mergeWrite_byte hlen).trans ?_
  have hbyte : s.byte (addrOf (t.areg (xAS b)) + k) < 256 := BitVec.isLt _
  simp [State.bytes, hk, Nat.mod_eq_of_lt hbyte]

/-- Settles O33: a transfer leaves the control state, so that it goes on; its first row is a read and a local store. -/
theorem bulkTransfers : Obligations.BulkTransfers := by
  refine ⟨fun s c t pr body hz h1 h28 => ⟨fun h hx => ?xld, fun h hx => ?xst, fun h hx => exec_xcp hz h1 h28 h hx⟩,
    fun s c b t hs hf hw he hsrc hdst _ _ hr => moveRow_first hs hf hw he hsrc hdst hr⟩
  case xld => exact State.issue_opXfer hz h1 h28 (by decide) h hx
  case xst => exact State.issue_opXfer hz h1 h28 (by decide) h hx

end Bulk

end Sys2Proof.Machine
end

section
/-!
PROOFS. Tack's vector instructions in a tile that nothing has upset: how one that writes `VD` goes on, and lane operations on words (R253, R260,
R262).
-/

namespace Sys2Proof.Machine

/-! ### Tiles that nothing has upset -/

section Undisturbed
variable {s : State} {c cost grp func : Nat} {t : Tile} {pr : BitVec 4} {body : BitVec 48} {o : Op} {legal : Nat → Option Trap} {run : CheckRun}
  {f : Nat → Tile → Nat × Nat}

@[simp] theorem Tile.flag_zero (t : Tile) : t.flag 0 = t := by
  have h : t.flags.lor 0 = t.flags := Nat.or_zero _
  rw [Tile.flag, h]

@[simp] theorem Tile.setWork_vreg (t : Tile) (n k : Nat) : ({ t with work := n } : Tile).vreg k = t.vreg k := rfl

@[simp] theorem Tile.flag_control (t : Tile) (k : Nat) : (t.flag k).control = t.control := rfl
@[simp] theorem Tile.flag_ups (t : Tile) (k : Nat) : (t.flag k).ups = t.ups := rfl

/-- In a tile that nothing has upset, an instruction that changes the tile by `g` alone goes on at the next index; issuing has added to its work
count alone. -/
theorem State.issue_undisturbed {g : Tile → Tile} (ht : t.Sound) (h : Runs s c t o.grp o.func (o.cost body.toNat t) pr body = true)
    (hl : o.legal body.toNat = none)
    (he : ∀ r : State, o.eff body.toNat r { t with work := t.work + o.cost body.toNat t } =
      Eff.reg r (g { t with work := t.work + o.cost body.toNat t }))
    (hg : ∀ u, (g u).control = u.control ∧ (g u).ups = u.ups) : s.issue c pr body o = .next (s.after c t (o.cost body.toNat t) g) := by
  obtain ⟨hi, hland⟩ := Bool.and_eq_true_iff.1 h
  obtain ⟨hoff, hups⟩ := State.issued_sound (s := s) (c := c) (n := o.cost body.toNat t) ht
  refine State.issue_reg hi hl ?_ (Op.checked_sound hoff ((hg _).2.trans hups)) ((hg _).1.trans State.issued_control_eq) hland
  rw [State.issued_undisturbed ht]
  exact he _

/-- There an instruction that writes `VD` with flags does that alone. -/
theorem State.issue_vOp {p : Nat × Nat} (ht : t.Sound) (h : Runs s c t grp func cost pr body = true) (hl : legal body.toNat = none)
    (hf : ∀ n, f body.toNat { t with work := n } = f body.toNat t) (hp : f body.toNat t = p) :
    s.issue c pr body (vOp grp func cost legal run f) = .next (s.after c t cost fun x => (x.setV (vVD body.toNat) p.1).flag p.2) := by
  refine State.issue_undisturbed (o := vOp grp func cost legal run f) ht h hl (fun r => ?_) (fun u => ⟨rfl, rfl⟩)
  rw [vOp_eff, hf, hp]
  rfl

/-- One that sets no flag writes `VD` alone. -/
theorem State.issue_vOp_plain {v : Nat} (ht : t.Sound) (h : Runs s c t grp func cost pr body = true) (hl : legal body.toNat = none)
    (hf : ∀ n, f body.toNat { t with work := n } = f body.toNat t) (hv : f body.toNat t = (v, 0)) :
    s.issue c pr body (vOp grp func cost legal run f) = .next (s.after c t cost fun x => x.setV (vVD body.toNat) v) := by
  rw [State.issue_vOp ht h hl hf hv]
  simp only [Tile.flag_zero]

end Undisturbed

/-! ### Lanes as words -/

section Lanes
variable {f g : Nat → Nat → Nat → Nat × Nat}

theorem packLanes_congr {w : Nat} {α : Type} {f g : α → Nat} {l : List α} (h : ∀ x ∈ l, f x % 2 ^ w = g x % 2 ^ w) :
    packLanes w (l.map f) = packLanes w (l.map g) := by
  induction l with
  | nil => rfl
  | cons x r ih =>
    obtain ⟨hx, hr⟩ := List.forall_mem_cons.1 h
    rw [List.map_cons, List.map_cons, packLanes, packLanes, hx, ih hr]

theorem joinLanes_plain (l : List Nat) : joinLanes (l.map fun x => (x, 0)) = (packLanes 32 l, 0) := by
  have h0 : (l.map fun x => (x, 0)).foldl (fun (k : Nat) (e : Nat × Nat) => k.lor e.2) 0 = 0 := by
    rw [List.foldl_map]
    exact foldl_fixed fun _ _ => Nat.zero_or 0
  rw [joinLanes, h0, List.map_map]
  exact congrArg (fun l => (packLanes 32 l, 0)) (List.map_id l)

/-- A lane operation is applied to codes of 32 bits alone. -/
theorem mapLanes_congr (h : ∀ x y z, x < 2 ^ 32 → y < 2 ^ 32 → z < 2 ^ 32 → f x y z = g x y z) (a b d : Nat) :
    mapLanes f a b d = mapLanes g a b d :=
  congrArg joinLanes (List.map_congr_left fun _ _ => h _ _ _ (bits_lt ..) (bits_lt ..) (bits_lt ..))

/-- A lane operation that is an operation on words writes their lanes and sets no flag. -/
theorem mapLanes_words {op : BitVec 32 → BitVec 32 → BitVec 32 → BitVec 32}
    (h : ∀ x y z : BitVec 32, f x.toNat y.toNat z.toNat = ((op x y z).toNat, 0)) (t : Tile) (a b d : Nat) :
    mapLanes f (t.vreg a) (t.vreg b) (t.vreg d) = (ofLanes fun i => op (t.laneBV a i) (t.laneBV b i) (t.laneBV d i), 0) := by
  have hlane (n i : Nat) : bits (t.vreg n) (32 * i) 32 = (t.laneBV n i).toNat := by
    rw [Tile.laneBV, BitVec.toNat_ofNat, Nat.mod_eq_of_lt (bits_lt ..)]
  simp only [mapLanes, hlane, h, ofLanes]
  rw [← joinLanes_plain, List.map_map]
  rfl

end Lanes

end Sys2Proof.Machine
end

section
/-!
PROOFS. The lane operations of group 8 (R255 to R257, R263, R264).
-/

namespace Sys2Proof.Machine

/-! ### Operations of 32-bit lanes as words -/

section Words
variable (x y z : BitVec 32)

theorem plain_toNat (n : Nat) : plain n = ((BitVec.ofNat 32 n).toNat, 0) := by rw [BitVec.toNat_ofNat, plain]

theorem s32_toNat : s32 x.toNat = x.toInt := by rw [s32, sext_eq_toInt, BitVec.ofNat_toNat, BitVec.setWidth_eq]

theorem plain_add : plain (x.toNat + y.toNat) = ((x + y).toNat, 0) := by rw [plain_toNat, BitVec.ofNat_add]; simp
theorem plain_mul : plain (x.toNat * y.toNat) = ((x * y).toNat, 0) := by rw [plain_toNat, BitVec.ofNat_mul]; simp
theorem plain_fma : plain (x.toNat * y.toNat + z.toNat) = ((x * y + z).toNat, 0) := by
  rw [plain_toNat, BitVec.ofNat_add, BitVec.ofNat_mul]; simp

theorem plain_sub : plain (x.toNat + 2 ^ 32 - y.toNat) = ((x - y).toNat, 0) := by
  have hy := y.isLt
  have h : x.toNat + 2 ^ 32 - y.toNat = 2 ^ 32 - y.toNat + x.toNat := by omega
  rw [plain, BitVec.toNat_sub, h]

theorem plain_neg : plain (2 ^ 32 - x.toNat) = ((-x).toNat, 0) := by rw [plain, BitVec.toNat_neg]

theorem plain_self : plain x.toNat = (x.toNat, 0) := by rw [plain, Nat.mod_eq_of_lt x.isLt]

/-- A choice between two words. -/
theorem plain_choice {p q : Prop} [Decidable p] [Decidable q] (h : p ↔ q) :
    plain (if p then x.toNat else y.toNat) = ((if q then x else y).toNat, 0) := by
  rw [if_congr h rfl rfl, ← plain_self (if q then x else y), apply_ite BitVec.toNat]

theorem s32_le_iff : s32 x.toNat ≤ s32 y.toNat ↔ x.sle y = true := by rw [s32_toNat, s32_toNat, BitVec.sle_iff_toInt_le]

theorem plain_abs : plain (s32 x.toNat).natAbs = ((if x.msb then -x else x).toNat, 0) := by
  have hx := x.isLt
  rw [s32_toNat, BitVec.toInt_eq_msb_cond, plain]
  split
  · rw [BitVec.toNat_neg]
    congr 2
    omega
  · rw [Int.natAbs_natCast, Nat.mod_eq_of_lt hx]

theorem plain_land : plain (x.toNat.land y.toNat) = ((x &&& y).toNat, 0) := plain_self (x &&& y)

theorem plain_lor : plain (x.toNat.lor y.toNat) = ((x ||| y).toNat, 0) := by
  rw [← plain_self (x ||| y), BitVec.toNat_or]; rfl

theorem plain_xor : plain (x.toNat.xor y.toNat) = ((x ^^^ y).toNat, 0) := by
  rw [← plain_self (x ^^^ y), BitVec.toNat_xor]; rfl

theorem plain_shl (n : Nat) : plain (x.toNat * 2 ^ n) = ((x <<< n).toNat, 0) := by rw [plain, BitVec.toNat_shiftLeft, Nat.shiftLeft_eq]

theorem plain_shr (n : Nat) : plain (x.toNat / 2 ^ n) = ((x >>> n).toNat, 0) := by
  rw [← plain_self (x >>> n), BitVec.toNat_ushiftRight, Nat.shiftRight_eq_div_pow]

theorem plain_sra (n : Nat) : plain (toCode 32 (s32 x.toNat / 2 ^ n)) = ((x.sshiftRight n).toNat, 0) := by
  have h : x.sshiftRight n = BitVec.ofInt 32 (x.toInt / 2 ^ n) := by
    rw [BitVec.sshiftRight_eq, Int.shiftRight_eq_div_pow]; simp
  rw [h, s32_toNat, toCode_eq_toNat, plain_self]

/-- A comparison gives the mask of its outcome. -/
theorem maskOf_eq (p : Bool) : maskOf p = ((maskBV p).toNat, 0) := by cases p <;> rfl

end Words

/-! ### The tables -/

/-- A command issues an instruction of group 8 whose FP32 form is `fp` on codes and whose INT32 form is `int` on words. -/
def TackCmd.IsLane (f : TackCmd) (func : Nat) (use : List VF) (fp : Nat → Nat → Nat → Nat × Nat)
    (int : BitVec 32 → BitVec 32 → BitVec 32 → BitVec 32) : Prop :=
  ∃ run g h, (∀ s c pr body, exec (f c pr body) s = s.issue c pr body (v8 func use run g h)) ∧
    (∀ x y z, x < 2 ^ 32 → g x y z = fp x y z) ∧ ∀ x y z : BitVec 32, h x.toNat y.toNat z.toNat = ((int x y z).toNat, 0)

/-- A comparison's two forms. -/
theorem TackCmd.isLane_cmp {f : TackCmd} {func : Nat} {fp : Fp → Fp → Bool} {int : Int → Int → Bool} {op : BitVec 32 → BitVec 32 → Bool}
    (hx : ∀ s c pr body, exec (f c pr body) s = s.issue c pr body (vCmp func fp int)) (hop : ∀ x y : BitVec 32, int x.toInt y.toInt = op x y) :
    f.IsLane func [.vb] (fun a b _ => ((maskBV (fp (fpDecode fp32 a) (fpDecode fp32 b))).toNat, 0)) (fun a b _ => maskBV (op a b)) :=
  ⟨_, _, _, hx, fun _ _ _ _ => maskOf_eq _, fun x y _ => by rw [s32_toNat, s32_toNat, hop, maskOf_eq]⟩

/-- The FP32 negation of a code of 32 bits turns its highest bit over. -/
theorem fpSign_neg {x : Nat} (hx : x < 2 ^ 32) :
    fpSign (fun x => x.xor (2 ^ 31)) x = (if isNan x then nan32 else (BitVec.ofNat 32 x ^^^ 0x80000000#32).toNat, 0) := by
  have h : x.xor (2 ^ 31) = (BitVec.ofNat 32 x ^^^ 0x80000000#32).toNat := by
    rw [BitVec.toNat_xor, BitVec.toNat_ofNat, Nat.mod_eq_of_lt hx]; rfl
  rw [fpSign, h]

theorem laneRows_isLane : ∀ e ∈ laneRows, TackCmd.IsLane e.1 e.2.1 e.2.2.1 e.2.2.2.1 e.2.2.2.2 := by
  simp only [laneRows, List.forall_mem_cons]
  exact ⟨⟨_, _, _, fun _ _ _ _ => rfl, fun _ _ _ _ => rfl, fun x y _ => plain_add x y⟩,
    ⟨_, _, _, fun _ _ _ _ => rfl, fun _ _ _ _ => rfl, fun x y _ => plain_sub x y⟩,
    ⟨_, _, _, fun _ _ _ _ => rfl, fun _ _ _ _ => rfl, fun x y _ => plain_mul x y⟩,
    ⟨_, _, _, fun _ _ _ _ => rfl, fun _ _ _ _ => rfl, plain_fma⟩,
    ⟨_, _, _, fun _ _ _ _ => rfl, fun _ _ _ _ => rfl, fun x y _ => plain_choice x y (s32_le_iff x y)⟩,
    ⟨_, _, _, fun _ _ _ _ => rfl, fun _ _ _ _ => rfl, fun x y _ => plain_choice y x (s32_le_iff x y)⟩,
    ⟨_, _, _, fun _ _ _ _ => rfl, fun _ _ _ _ => rfl, fun x _ _ => plain_abs x⟩,
    ⟨_, _, _, fun _ _ _ _ => rfl, fun _ _ _ => fpSign_neg, fun x _ _ => plain_neg x⟩,
    TackCmd.isLane_cmp (fun _ _ _ _ => rfl) fun x y => by simp [BitVec.toInt_inj, Bool.beq_eq_decide_eq],
    TackCmd.isLane_cmp (fun _ _ _ _ => rfl) fun x y => rfl,
    TackCmd.isLane_cmp (fp := fun a b => fpLt a b || fpEq a b) (op := fun x y => x.sle y) (fun _ _ _ _ => rfl) fun x y => rfl,
    TackCmd.isLane_cmp (fp := fun a b => !fpEq a b) (op := fun x y => x != y) (fun _ _ _ _ => rfl) fun x y => by
      simp [BitVec.toInt_inj, Bool.beq_eq_decide_eq, bne], nofun⟩

/-- A command issues an instruction of group 8 on 32-bit lanes alone, which is `int` on words. -/
def TackCmd.IsBitLane (f : TackCmd) (func : Nat) (use : List VF) (int : BitVec 32 → BitVec 32 → BitVec 32 → BitVec 32) : Prop :=
  ∃ run h, (∀ s c pr body, exec (f c pr body) s = s.issue c pr body (v8i func use run h)) ∧
    ∀ x y z : BitVec 32, plain (h x.toNat y.toNat z.toNat) = ((int x y z).toNat, 0)

theorem bitLaneRows_isBitLane : ∀ e ∈ bitLaneRows, TackCmd.IsBitLane e.1 e.2.1 e.2.2.1 e.2.2.2 := by
  simp only [bitLaneRows, List.forall_mem_cons]
  exact ⟨⟨_, _, fun _ _ _ _ => rfl, fun x y _ => plain_land x y⟩, ⟨_, _, fun _ _ _ _ => rfl, fun x y _ => plain_lor x y⟩,
    ⟨_, _, fun _ _ _ _ => rfl, fun x y _ => plain_xor x y⟩, ⟨_, _, fun _ _ _ _ => rfl, fun x y _ => plain_shl x (y.toNat % 32)⟩,
    ⟨_, _, fun _ _ _ _ => rfl, fun x y _ => plain_shr x (y.toNat % 32)⟩, ⟨_, _, fun _ _ _ _ => rfl, fun x y _ => plain_sra x (y.toNat % 32)⟩,
    ⟨_, _, fun _ _ _ _ => rfl, fun x y z => plain_choice y x (by simp [BitVec.toNat_eq])⟩, nofun⟩

/-- Settles O34: a row of the tables issues a lane operation that is its FP32 form on codes and its INT32 form on words. -/
theorem vectorLaneOperations : Obligations.VectorLaneOperations := by
  refine ⟨fun e he s c t pr body ht hc h => ⟨fun hT => ?fp, fun hT => ?int⟩, fun e he s c t pr body ht hc h hT => ?bit⟩
  case fp =>
    obtain ⟨run, g, k, hx, hg, -⟩ := laneRows_isLane e he
    rw [hx, v8]
    refine State.issue_vOp ht h (vLegal_clean hc (by rw [hT]; rfl)) (fun n => rfl) ?_
    rw [hT, if_pos rfl, mapLanes_congr fun x y z hx _ _ => hg x y z hx]
  case int =>
    obtain ⟨run, g, k, hx, -, hk⟩ := laneRows_isLane e he
    rw [hx, v8]
    refine State.issue_vOp_plain ht h (vLegal_clean hc (by rw [hT]; rfl)) (fun n => rfl) ?_
    rw [hT, if_neg one_ne_zero, mapLanes_words hk]
  case bit =>
    obtain ⟨run, k, hx, hk⟩ := bitLaneRows_isBitLane e he
    rw [hx, v8i]
    exact State.issue_vOp_plain ht h (vLegal_clean hc (by rw [hT]; rfl)) (fun n => rfl) (mapLanes_words hk ..)

end Sys2Proof.Machine
end

section
/-!
PROOFS. Fields of numbers, what rounding to a format can give, and the conversions and moves of group 9 (R252, R258 to R260, R265).
-/

namespace Sys2Proof.Machine

/-! ### Fields of a number -/

section Fields
variable {v x lo w k m i : Nat}

theorem bits_testBit (v lo w i : Nat) : (bits v lo w).testBit i = (decide (i < w) && v.testBit (i + lo)) := by
  simp only [bits, Nat.testBit_mod_two_pow, Nat.testBit_div_two_pow]

/-- A field above the bits dropped. -/
theorem bits_div (v k lo w : Nat) : bits (v / 2 ^ k) lo w = bits v (k + lo) w := by
  rw [bits, bits, Nat.div_div_eq_div_mul, pow_add]

/-- A number with a field replaced keeps the bits below and above it. -/
theorem putBits_testBit (v lo w x i : Nat) :
    (putBits v lo w x).testBit i = if i < lo then v.testBit i else if i < lo + w then x.testBit (i - lo) else v.testBit i := by
  have hv : v = 2 ^ lo * (2 ^ w * (v / 2 ^ lo / 2 ^ w) + bits v lo w) + v % 2 ^ lo := by rw [bits, Nat.div_add_mod, Nat.div_add_mod]
  have hput : putBits v lo w x = 2 ^ lo * (2 ^ w * (v / 2 ^ lo / 2 ^ w) + x % 2 ^ w) + v % 2 ^ lo := by
    have hsub : v - bits v lo w * 2 ^ lo = 2 ^ lo * (2 ^ w * (v / 2 ^ lo / 2 ^ w)) + v % 2 ^ lo := Nat.sub_eq_of_eq_add (hv.trans (by ring))
    rw [putBits, hsub]
    ring
  rw [hput, Nat.testBit_two_pow_mul_add _ (Nat.mod_lt _ (Nat.two_pow_pos lo)), Nat.testBit_two_pow_mul_add _ (Nat.mod_lt _ (Nat.two_pow_pos w))]
  simp only [Nat.testBit_mod_two_pow, Nat.testBit_div_two_pow]
  by_cases h1 : i < lo
  · simp [h1]
  · by_cases h2 : i < lo + w
    · have h3 : i - lo < w := by omega
      simp [h1, h2, h3]
    · have h3 : ¬ i - lo < w := by omega
      have h4 : i - lo - w + w + lo = i := by omega
      simp [h1, h2, h3, h4]

/-- A field inside the one replaced. -/
theorem bits_putBits_inside (h : k + m ≤ w) : bits (putBits v lo w x) (lo + k) m = bits x k m := by
  refine Nat.eq_of_testBit_eq fun i => ?_
  rw [bits_testBit, bits_testBit, putBits_testBit]
  by_cases hi : i < m
  · have h1 : ¬ i + (lo + k) < lo := by omega
    have h2 : i + (lo + k) < lo + w := by omega
    have h3 : i + (lo + k) - lo = i + k := by omega
    simp [hi, h1, h2, h3]
  · simp [hi]

/-- A field outside the one replaced. -/
theorem bits_putBits_outside (h : k + m ≤ lo ∨ lo + w ≤ k) : bits (putBits v lo w x) k m = bits v k m := by
  refine Nat.eq_of_testBit_eq fun i => ?_
  rw [bits_testBit, bits_testBit, putBits_testBit]
  by_cases hi : i < m
  · rcases h with h | h
    · have h1 : i + k < lo := by omega
      simp [h1]
    · have h1 : ¬ i + k < lo := by omega
      have h2 : ¬ i + k < lo + w := by omega
      simp [h1, h2]
  · simp [hi]

theorem packLanes_replicate {y : Nat} (n : Nat) (h : x % 2 ^ w = y % 2 ^ w) :
    packLanes w (List.replicate n x) = packLanes w (List.replicate n y) := by
  induction n with
  | zero => rfl
  | succ n ih => rw [List.replicate_succ, List.replicate_succ, packLanes, packLanes, h, ih]

/-- The same word in every lane. -/
theorem ofLanes_const (b : BitVec 32) : ofLanes (fun _ => b) = packLanes 32 (List.replicate 64 b.toNat) := by
  rw [ofLanes, List.map_const', List.length_range]

/-- Elements of a vector as lanes, each through a function that gives its word. -/
theorem packLanes_words {g : Nat → Nat} {op : Nat → BitVec 32} (h : ∀ i, g (bits v (w * i) w) % 2 ^ 32 = (op i).toNat) :
    packLanes 32 ((lanesOf w 64 v).map g) = ofLanes op := by
  rw [lanesOf, List.map_map, ofLanes]
  exact packLanes_congr fun i _ => by rw [Function.comp, h, Nat.mod_eq_of_lt (op i).isLt]

end Fields

/-! ### Codes that rounding gives -/

section Codes
variable {f : FpFmt}

/-- Rounding gives a finite code with its sign, or the code of an overflow. -/
theorem fpRoundRat_code (f : FpFmt) (sat neg : Bool) (num den : Nat) :
    (fpRoundRat f sat neg num den).1 = f.over sat neg ∨ ∃ c ≤ f.maxc, (fpRoundRat f sat neg num den).1 = f.signed neg c := by
  unfold fpRoundRat
  split
  · exact .inr ⟨0, Nat.zero_le _, rfl⟩
  · extract_lets emin lg e k a b q c sub
    split
    · exact .inl rfl
    · next hc => exact .inr ⟨_, Nat.le_of_not_lt hc, rfl⟩

/-- A format's codes fit under its sign bit. -/
def FpFmt.Fits (f : FpFmt) : Prop := f.maxc < f.sign ∧ f.infc.getD 0 < f.sign ∧ f.nanc < f.sign

theorem FpFmt.signed_lt {c : Nat} (h : c < f.sign) (neg : Bool) : f.signed neg c < 2 * f.sign := by
  unfold FpFmt.signed
  split <;> omega

theorem FpFmt.over_lt (h : f.Fits) (sat neg : Bool) : f.over sat neg < 2 * f.sign := by
  obtain ⟨hmax, hinf, hnan⟩ := h
  unfold FpFmt.over
  split
  · exact FpFmt.signed_lt hmax neg
  · split
    · next i hi => exact FpFmt.signed_lt (by simpa [hi] using hinf) neg
    · omega

theorem fpEncode_lt (h : f.Fits) (sat : Bool) (x : Fp) : (fpEncode f sat x).1 < 2 * f.sign := by
  have hround (neg : Bool) (num den : Nat) : (fpRoundRat f sat neg num den).1 < 2 * f.sign := by
    rcases fpRoundRat_code f sat neg num den with he | ⟨c, hc, he⟩
    · rw [he]; exact FpFmt.over_lt h sat neg
    · rw [he]; exact FpFmt.signed_lt (lt_of_le_of_lt hc h.1) neg
  cases x with
  | nan => exact lt_of_lt_of_le h.2.2 (Nat.le_mul_of_pos_left _ (by decide))
  | inf n => exact FpFmt.over_lt h sat n
  | fin n m e =>
    rw [fpEncode, fpRound]
    split
    · exact hround ..
    · exact hround ..

/-- A narrow element has the width of its format. -/
theorem narrow_lt {t : Nat} (ht : t ≤ 5) (sat : Bool) (a : Nat) : (narrow t sat a).1 < 2 ^ fmtBits t := by
  unfold narrow
  split
  · split
    · dsimp only
      rw [toCode_eq_toNat]
      exact BitVec.isLt _
    · exact Nat.mod_lt _ (Nat.two_pow_pos _)
  · next h1 =>
    have hfits : (fmtOf t).Fits ∧ 2 * (fmtOf t).sign = 2 ^ fmtBits t := by
      obtain rfl | rfl | rfl | rfl : t = 2 ∨ t = 3 ∨ t = 4 ∨ t = 5 := by omega
      all_goals exact ⟨⟨by decide, by decide, by decide⟩, by decide⟩
    rw [← hfits.2]
    exact fpEncode_lt hfits.1 sat _

theorem widen_mod (t a : Nat) : widen t a % 2 ^ 32 =
    (if t ≤ 1 then (BitVec.ofNat (fmtBits t) a).signExtend 32 else BitVec.ofNat 32 (fpEncode fp32 false (fpDecode (fmtOf t) a)).1).toNat := by
  unfold widen
  split
  · rw [toCode_eq_toNat, sext_eq_toInt, Nat.mod_eq_of_lt (BitVec.isLt _), BitVec.signExtend]
  · rw [BitVec.toNat_ofNat]

end Codes

/-! ### Legal operands -/

/-- An instruction of format V whose unused fields are 0 is legal when it names no type or one it lists. -/
theorem vLegal_none {use : List VF} {ts : List Nat} {body : BitVec 48} (hc : vClean use body = true)
    (ht : use.contains .t = true → ts.contains (vT body.toNat) = true) : vLegal use ts body.toNat = none := by
  by_cases hu : use.contains .t = true
  · exact vLegal_clean hc (ht hu)
  · have h0 := vLegal_clean (ts := [vT body.toNat]) hc (by simp)
    unfold vLegal at h0 ⊢
    rw [if_neg fun h => hu h.1] at h0 ⊢
    exact h0

theorem partLegal_clean {use : List VF} {ts : List Nat} {body : BitVec 48} (hc : vClean use body = true)
    (ht : ts.contains (vT body.toNat) = true) (hp : vPART body.toNat < partsOf (vT body.toNat)) : partLegal use ts body.toNat = none := by
  have hmem : vT body.toNat ∈ ts := by simpa using ht
  rw [partLegal, if_neg (by simp [hmem, hp]), vLegal_clean hc ht]

/-! ### The instructions of group 9 -/

section Rows
variable {s : State} {c : Nat} {t : Tile} {pr : BitVec 4} {body : BitVec 48}

theorem opVcvt_legal (hc : vClean [.vd, .va, .t, .rtz] body = true) (hT : vT body.toNat ≤ 1) (hr : vT body.toNat = 0 → vRTZ body.toNat = 0) :
    opVcvt.legal body.toNat = none := by
  have hl : vLegal [.vd, .va, .t, .rtz] [0, 1] body.toNat = none := vLegal_clean hc (by simp; omega)
  have h0 : ¬ (vT body.toNat = 0 ∧ vRTZ body.toNat = 1) := fun h => by have := hr h.1; omega
  simp only [opVcvt, vOp, hl, if_neg h0]

/-- The elements of the part of a vector that `vnar` writes, those of its other parts, and the flags. -/
theorem opVnar_parts (d a : Nat) {T p : Nat} (sat : Bool) (hT : T ≤ 5) :
    let w := fmtBits T
    let l := (lanes32 a).map (narrow T sat)
    let v := putBits d (64 * w * p) (64 * w) (packLanes w (l.map (·.1)))
    (∀ i, i < 64 → bits v (w * (64 * p + i)) w = (narrow T sat (bits a (32 * i) 32)).1) ∧
    (∀ j, j / 64 ≠ p → bits v (w * j) w = bits d (w * j) w) ∧
    l.foldl (fun f e => f.lor e.2) 0 = ((List.range 64).map (fun i => (narrow T sat (bits a (32 * i) 32)).2)).foldl Nat.lor 0 := by
  intro w l v
  refine ⟨fun i hi => ?_, fun j hj => ?_, ?_⟩
  · have hlo : w * (64 * p + i) = 64 * w * p + w * i := by ring
    have hfit : w * i + w ≤ 64 * w := by nlinarith
    rw [hlo, bits_putBits_inside hfit, bits_packLanes]
    simp only [l, lanes32, lanesOf, List.map_map, List.getD_eq_getElem?_getD, List.getElem?_map, List.getElem?_range hi, Option.map_some,
      Option.getD_some, Function.comp]
    exact Nat.mod_eq_of_lt (narrow_lt hT sat _)
  · refine bits_putBits_outside ?_
    rcases Nat.lt_or_gt_of_ne hj with h | h
    · left
      have hle : j + 1 ≤ 64 * p := by omega
      nlinarith
    · right
      have hle : 64 * (p + 1) ≤ j := by omega
      nlinarith
  · simp only [l, lanes32, lanesOf, List.map_map, List.foldl_map]
    rfl

/-- Settles O35: each instruction writes what its function of the operands gives, which is the lanes or the part named; a word that a conversion
gives is the sign extension or the code that rounding gives. -/
theorem conversionsAndMovement : Obligations.ConversionsAndMovement := by
  refine ⟨fun s c t pr body ht hc h => ⟨fun hT hr => ?ofInt, fun hT => ?toInt⟩, fun s c t pr body ht hc h hT hp => ?wid,
    fun s c t pr body ht hc h hT hp => ?nar, fun s c t pr body ht hc h hT hp hne => ?qsx,
    fun s c t pr body ht hc h => ⟨fun hT => ?bcast32, fun hT => ?bcast8⟩, fun s c t pr body ht hc h => ⟨fun hT => ?movi32, fun hT => ?movi16⟩,
    fun s c t pr body ht hc h hT => ?perm, fun s c t pr body => ⟨fun hc h => ?getf, fun hc h => ?clrf⟩⟩
  case ofInt =>
    refine State.issue_vOp ht h (opVcvt_legal hc (by omega) fun _ => hr) (fun n => rfl) ?_
    simp only [hT, if_true, s32, sext_eq_toInt]
  case toInt =>
    refine State.issue_vOp ht h (opVcvt_legal hc (by omega) (by omega)) (fun n => rfl) ?_
    simp only [hT, one_ne_zero, if_false]
  case wid =>
    refine State.issue_vOp_plain ht h (partLegal_clean hc (by simp; omega) hp) (fun n => rfl) ?_
    refine congrArg (fun v => (v, 0)) (packLanes_words fun i => ?_)
    have hlo : 64 * fmtBits (vT body.toNat) * vPART body.toNat + fmtBits (vT body.toNat) * i =
      fmtBits (vT body.toNat) * (64 * vPART body.toNat + i) := by ring
    rw [widen_mod, bits_div, hlo]
  case nar =>
    obtain ⟨hpart, hother, hflags⟩ := opVnar_parts (t.vreg (vVD body.toNat)) (t.vreg (vVA body.toNat)) (p := vPART body.toNat)
      (vSAT body.toNat == 1) hT
    exact ⟨_, _, State.issue_vOp ht h (partLegal_clean hc (by simp; omega) hp) (fun n => rfl) rfl, hpart, fun j _ => hother j, hflags⟩
  case qsx =>
    have hl : opVqsx.legal body.toNat = none := by
      simp only [opVqsx, partLegal_clean hc (ts := [6, 7]) (by simpa using hT) hp, if_neg hne]
    intro w q0 q1
    refine State.issue_undisturbed (o := opVqsx) ht h hl (fun r => ?_) fun u => ⟨by simp, by simp⟩
    simp only [opVqsx, Tile.setWork_vreg, w, q0, q1]
  case bcast32 =>
    refine State.issue_vOp_plain ht h (vLegal_clean hc (by rw [hT]; rfl)) (fun n => rfl) ?_
    refine congrArg (fun v => (v, 0)) ((if_pos hT).trans ?_)
    rw [ofLanes_const]
    exact packLanes_replicate 64 (by simp)
  case bcast8 =>
    refine State.issue_vOp_plain ht h (vLegal_clean hc (by rw [hT]; rfl)) (fun n => rfl) ?_
    exact congrArg (fun v => (v, 0)) ((if_neg (by omega)).trans (packLanes_replicate 256 (Nat.mod_mod ..).symm))
  case movi32 =>
    refine State.issue_vOp_plain ht h (vLegal_clean hc (by rw [hT]; rfl)) (fun n => rfl) ?_
    have himm : vIMM body.toNat < 2 ^ 16 := bits_lt ..
    rw [if_pos hT, ofLanes_const, BitVec.toNat_append, BitVec.toNat_ofNat, Nat.mod_eq_of_lt himm, Nat.shiftLeft_eq]
    simp
  case movi16 =>
    refine State.issue_vOp_plain ht h (vLegal_clean hc (by rw [hT]; rfl)) (fun n => rfl) ?_
    rw [if_neg (by omega), ofLanes_const, toCode_eq_toNat, sext_eq_toInt, BitVec.signExtend]
  case perm =>
    refine State.issue_vOp_plain ht h (vLegal_clean hc (by rw [hT]; rfl)) (fun n => rfl) ?_
    exact mapLanes_words (f := fun _ y _ => plain (bits (t.vreg (vVA body.toNat)) (32 * (y % 64)) 32))
      (op := fun _ y _ => t.laneBV (vVA body.toNat) (y.toNat % 64)) (fun _ y _ => plain_toNat _) t 0 (vVB body.toNat) 0
  case getf =>
    refine State.issue_writes (o := opVgetf) h (vLegal_none (ts := []) hc nofun) ?_ (fun u => Tile.setS_control ..) rfl
    rw [State.issued_tile]
    rfl
  case clrf => exact State.issue_writes (o := opVclrf) h (vLegal_none (ts := []) hc nofun) rfl (fun u => rfl) rfl

end Rows

end Sys2Proof.Machine
end

section
/-!
PROOFS. Reductions and functions of group A (R255 to R257, R264, R266 to R268).
-/

namespace Sys2Proof.Machine

/-! ### Trees (R267) -/

section Trees
variable {f : Nat → Nat → Nat × Nat} {g : BitVec 32 → BitVec 32 → BitVec 32} {R : BitVec 32 → BitVec 32 → Prop}

/-- One level of a pairwise tree of words. -/
def wordLevel (g : BitVec 32 → BitVec 32 → BitVec 32) : List (BitVec 32) → List (BitVec 32)
  | x :: y :: r => g x y :: wordLevel g r
  | [x] => [x]
  | [] => []

/-- A level of a tree whose operation is `g` on words is a level of words, and sets no flag. -/
theorem treeLevel_words (h : ∀ x y : BitVec 32, f x.toNat y.toNat = ((g x y).toNat, 0)) (l : List (BitVec 32)) :
    treeLevel f (l.map BitVec.toNat) = (wordLevel g l).map fun x => (x.toNat, 0) := by
  induction l using wordLevel.induct with
  | case1 x y r ih => simp only [List.map_cons, treeLevel, wordLevel, h, ih]
  | case2 x => rfl
  | case3 => rfl

theorem wordLevel_length (g : BitVec 32 → BitVec 32 → BitVec 32) (l : List (BitVec 32)) : (wordLevel g l).length = (l.length + 1) / 2 := by
  induction l using wordLevel.induct with
  | case1 x y r ih => simp only [wordLevel, List.length_cons, ih]; omega
  | case2 x => simp [wordLevel]
  | case3 => rfl

theorem treeOf_succ_words (h : ∀ x y : BitVec 32, f x.toNat y.toNat = ((g x y).toNat, 0)) (n : Nat) (l : List (BitVec 32)) :
    treeOf f (n + 1) (l.map BitVec.toNat) = treeOf f n ((wordLevel g l).map BitVec.toNat) := by
  have hflag (r : List (BitVec 32)) (k : Nat) : (r.map fun x => (x.toNat, 0)).foldl (fun (k : Nat) (e : Nat × Nat) => k.lor e.2) k = k := by
    rw [List.foldl_map]
    exact foldl_fixed fun _ _ => Nat.or_zero k
  simp only [treeOf, treeLevel_words h, List.map_map, hflag]
  rfl

/-- A tree leaves one word of up to `2 ^ n`; what each level keeps of the words holds of it. -/
theorem treeOf_words (h : ∀ x y : BitVec 32, f x.toNat y.toNat = ((g x y).toNat, 0)) {P : List (BitVec 32) → Prop}
    (hstep : ∀ l, P l → P (wordLevel g l)) (n : Nat) (l : List (BitVec 32)) (hl : l ≠ []) (hn : l.length ≤ 2 ^ n) (hp : P l) :
    ∃ m, P [m] ∧ treeOf f n (l.map BitVec.toNat) = (m.toNat, 0) := by
  have hpos := List.length_pos_iff.2 hl
  induction n generalizing l with
  | zero =>
    obtain ⟨m, rfl⟩ := List.length_eq_one_iff.1 (le_antisymm hn hpos)
    exact ⟨m, hp, rfl⟩
  | succ n ih =>
    have hlen := wordLevel_length g l
    rw [pow_succ] at hn
    rw [treeOf_succ_words h]
    exact ih _ (List.length_pos_iff.1 (by omega)) (by omega) (hstep l hp) (by omega)

theorem wordLevel_sum (l : List (BitVec 32)) : (wordLevel (· + ·) l).sum = l.sum := by
  induction l using wordLevel.induct with
  | case1 x y r ih => simp only [wordLevel, List.sum_cons, ih, BitVec.add_assoc]
  | case2 x => rfl
  | case3 => rfl

/-- A tree of sums gives the sum, modulo 2^32. -/
theorem treeOf_sum {n : Nat} {l : List (BitVec 32)} (hl : l ≠ []) (hn : l.length ≤ 2 ^ n) :
    treeOf (fun a b => plain (a + b)) n (l.map BitVec.toNat) = (l.sum.toNat, 0) := by
  obtain ⟨m, hm, ht⟩ := treeOf_words (f := fun a b => plain (a + b)) (P := fun r => r.sum = l.sum) plain_add
    (fun r hr => (wordLevel_sum r).trans hr) n l hl hn rfl
  rw [ht, ← hm, List.sum_singleton]

/-- A level of choices keeps words of its own and one above each. -/
theorem wordLevel_picks (hrefl : ∀ x, R x x) (hpick : ∀ x y, g x y = x ∨ g x y = y) (hleft : ∀ x y, R x (g x y)) (hright : ∀ x y, R y (g x y))
    (l : List (BitVec 32)) : (∀ m ∈ wordLevel g l, m ∈ l) ∧ ∀ x ∈ l, ∃ y ∈ wordLevel g l, R x y := by
  induction l using wordLevel.induct with
  | case1 x y r ih =>
    obtain ⟨hmem, habove⟩ := ih
    simp only [wordLevel, List.forall_mem_cons]
    refine ⟨⟨?_, fun m hm => by simp [hmem m hm]⟩, ⟨_, by simp, hleft x y⟩, ⟨_, by simp, hright x y⟩, fun z hz => ?_⟩
    · rcases hpick x y with h | h <;> simp [h]
    · obtain ⟨w, hw, hr⟩ := habove z hz
      exact ⟨w, by simp [hw], hr⟩
  | case2 x => simp [wordLevel, hrefl]
  | case3 => simp [wordLevel]

/-- The lanes of a vector as words. -/
theorem lanes32_words (t : Tile) (n : Nat) : lanes32 (t.vreg n) = ((List.range 64).map (t.laneBV n)).map BitVec.toNat := by
  rw [lanes32, lanesOf, List.map_map]
  refine List.map_congr_left fun i _ => ?_
  rw [Function.comp, Tile.laneBV, BitVec.toNat_ofNat, Nat.mod_eq_of_lt (bits_lt ..)]

/-- A tree of choices over the lanes of a vector gives a lane that lies above all of them. -/
theorem treeOf_picks (h : ∀ x y : BitVec 32, f x.toNat y.toNat = ((g x y).toNat, 0)) (hrefl : ∀ x, R x x)
    (htrans : ∀ x y z, R x y → R y z → R x z) (hpick : ∀ x y, g x y = x ∨ g x y = y) (hleft : ∀ x y, R x (g x y)) (hright : ∀ x y, R y (g x y))
    (t : Tile) (n : Nat) : ∃ m, (∃ i, i < 64 ∧ m = t.laneBV n i) ∧ (∀ i, i < 64 → R (t.laneBV n i) m) ∧
      treeOf f 6 (lanes32 (t.vreg n)) = (m.toNat, 0) := by
  have hstep (l : List (BitVec 32)) (hl : (∀ m ∈ l, ∃ i, i < 64 ∧ m = t.laneBV n i) ∧ ∀ i, i < 64 → ∃ y ∈ l, R (t.laneBV n i) y) :
      (∀ m ∈ wordLevel g l, ∃ i, i < 64 ∧ m = t.laneBV n i) ∧ ∀ i, i < 64 → ∃ y ∈ wordLevel g l, R (t.laneBV n i) y := by
    obtain ⟨hmem, habove⟩ := wordLevel_picks hrefl hpick hleft hright l
    refine ⟨fun m hm => hl.1 m (hmem m hm), fun i hi => ?_⟩
    obtain ⟨y, hy, hxy⟩ := hl.2 i hi
    obtain ⟨z, hz, hyz⟩ := habove y hy
    exact ⟨z, hz, htrans _ y z hxy hyz⟩
  have hlanes : (∀ m ∈ (List.range 64).map (t.laneBV n), ∃ i, i < 64 ∧ m = t.laneBV n i) ∧
      ∀ i, i < 64 → ∃ y ∈ (List.range 64).map (t.laneBV n), R (t.laneBV n i) y :=
    ⟨fun m hm => by simpa [eq_comm] using hm, fun i hi => ⟨_, List.mem_map_of_mem (List.mem_range.2 hi), hrefl _⟩⟩
  obtain ⟨m, hm, ht⟩ := treeOf_words h hstep 6 _ (by simp) (by simp) hlanes
  simp only [List.mem_singleton, exists_eq_left] at hm
  exact ⟨m, hm.1 m rfl, hm.2, by rw [lanes32_words, ht]⟩

theorem sle_refl (x : BitVec 32) : x.sle x = true := BitVec.sle_iff_toInt_le.2 le_rfl

theorem sle_trans {x y z : BitVec 32} (h1 : x.sle y = true) (h2 : y.sle z = true) : x.sle z = true :=
  BitVec.sle_iff_toInt_le.2 (le_trans (BitVec.sle_iff_toInt_le.1 h1) (BitVec.sle_iff_toInt_le.1 h2))

theorem sle_of_not {x y : BitVec 32} (h : ¬ x.sle y = true) : y.sle x = true :=
  BitVec.sle_iff_toInt_le.2 (le_of_not_ge fun h2 => h (BitVec.sle_iff_toInt_le.2 h2))

/-- The tree of INT32 maxima gives the greatest lane. -/
theorem treeOf_intMax (t : Tile) (n : Nat) : ∃ m : BitVec 32, (∃ i, i < 64 ∧ m = t.laneBV n i) ∧ (∀ i, i < 64 → (t.laneBV n i).sle m = true) ∧
    treeOf (fun a b => plain (intMax a b)) 6 (lanes32 (t.vreg n)) = (m.toNat, 0) := by
  refine treeOf_picks (f := fun a b => plain (intMax a b)) (R := fun x m => x.sle m = true) (fun x y => plain_choice y x (s32_le_iff x y)) sle_refl
    (fun x y z => sle_trans) (fun x y => ?_) (fun x y => ?_) (fun x y => ?_) t n
  all_goals by_cases h : x.sle y = true
  all_goals simp [h, sle_refl, sle_of_not]

/-- The tree of INT32 minima gives the least lane. -/
theorem treeOf_intMin (t : Tile) (n : Nat) : ∃ m : BitVec 32, (∃ i, i < 64 ∧ m = t.laneBV n i) ∧ (∀ i, i < 64 → m.sle (t.laneBV n i) = true) ∧
    treeOf (fun a b => plain (intMin a b)) 6 (lanes32 (t.vreg n)) = (m.toNat, 0) := by
  refine treeOf_picks (f := fun a b => plain (intMin a b)) (R := fun x m => m.sle x = true) (fun x y => plain_choice x y (s32_le_iff x y))
    sle_refl (fun x y z h1 h2 => sle_trans h2 h1) (fun x y => ?_) (fun x y => ?_) (fun x y => ?_) t n
  all_goals by_cases h : x.sle y = true
  all_goals simp [h, sle_refl, sle_of_not]

end Trees

/-! ### Codes that functions deliver (R256, R266, R268) -/

/-- No rounding to FP32 gives NaN. -/
theorem fpRoundRat_not_nan (neg : Bool) (num den : Nat) : isNan (fpRoundRat fp32 false neg num den).1 = false := by
  have hcode (c : Nat) (hc : c ≤ 0x7F800000) : isNan (fp32.signed neg c) = false := by
    unfold isNan FpFmt.signed
    have hsign : fp32.sign = 2 ^ 31 := rfl
    rw [hsign]
    split
    · exact decide_eq_false (by omega)
    · exact decide_eq_false (by omega)
  rcases fpRoundRat_code fp32 false neg num den with h | ⟨c, hc, h⟩
  · rw [h]
    exact hcode _ le_rfl
  · rw [h]
    exact hcode c (le_trans hc (by decide))

/-- The code delivered outside the special results keeps the accuracy, or is the exact value rounded. -/
theorem fnCode_cases (func a : Nat) :
    ((fnCode func a) % 2 ^ 31 ≤ 0x7F800000 ∧ fnNear func (fnCode func a) (fnExact func a) = true) ∨
    fnCode func a = (fpRoundRat fp32 false (fnExact func a).1 (fnExact func a).2.1 (fnExact func a).2.2).1 := by
  unfold fnCode
  extract_lets y v
  split
  · next h => exact .inl h
  · exact .inr rfl

theorem fnCode_not_nan (func a : Nat) : isNan (fnCode func a) = false := by
  rcases fnCode_cases func a with ⟨h, -⟩ | h
  · exact decide_eq_false (by omega)
  · rw [h]
    exact fpRoundRat_not_nan ..

/-- A function gives its special result, or the code delivered. -/
theorem fpFunction_cases (func a : Nat) :
    fpSpecial func a = some (fpFunction func a) ∨ fpSpecial func a = none ∧ (fpFunction func a).1 = fnCode func a := by
  unfold fpFunction
  split
  · next h => exact .inl h
  · next h =>
    refine .inr ⟨h, ?_⟩
    dsimp only
    repeat' split
    all_goals rfl

theorem fpSpecial_nan {func a : Nat} (h : isNan a = true) : fpSpecial func a = some (nan32, 0) := by
  rw [fpSpecial, if_pos h]

/-- A special result is NaN for a NaN, and for a number below 0 where the function has no value. -/
theorem fpSpecial_nan_cause {func a : Nat} {r : Nat × Nat} (ha : a < 2 ^ 32) (h : fpSpecial func a = some r) (hr : isNan r.1 = true) :
    isNan a = true ∨ (func = 0x11 ∨ func = 0x13) ∧ 2 ^ 31 < a := by
  by_cases hnan : isNan a = true
  · exact .inl hnan
  · right
    unfold fpSpecial at h
    have hinf : inf32 = 0x7F800000 := rfl
    have hone : one32 = 0x3F800000 := rfl
    have hbit : bit a 31 = a / 2 ^ 31 % 2 := rfl
    simp only [if_neg hnan, beq_iff_eq] at h
    unfold isNan at hr hnan
    simp only [decide_eq_true_eq] at hr hnan
    repeat' split at h
    all_goals cases h
    all_goals
      dsimp only at hr
      omega

theorem fpFunction_nan_cause {func a : Nat} (ha : a < 2 ^ 32) (hr : isNan (fpFunction func a).1 = true) :
    isNan a = true ∨ (func = 0x11 ∨ func = 0x13) ∧ 2 ^ 31 < a := by
  rcases fpFunction_cases func a with h | ⟨-, h⟩
  · exact fpSpecial_nan_cause ha h hr
  · rw [h, fnCode_not_nan] at hr
    cases hr

/-! ### The instructions of group A -/

/-- Fields that need not be 0 may be. -/
theorem vClean_mono {use use' : List VF} {body : BitVec 48} (h : ∀ f ∈ use, f ∈ use') (hc : vClean use body = true) : vClean use' body = true := by
  obtain ⟨hz, ha⟩ := Bool.and_eq_true_iff.1 hc
  refine Bool.and_eq_true_iff.2 ⟨hz, List.all_eq_true.2 fun f hf => List.all_eq_true.1 ha f ?_⟩
  obtain ⟨hall, hu⟩ := List.mem_filter.1 hf
  refine List.mem_filter.2 ⟨hall, ?_⟩
  simp only [List.contains_eq_mem, Bool.not_eq_true', decide_eq_false_iff_not] at hu ⊢
  exact fun hm => hu (h f hm)

theorem funRows_issue : ∀ e ∈ funRows, ∀ s c pr body, exec (e.1 c pr body) s = s.issue c pr body (vFun e.2) := by
  simp only [funRows, List.forall_mem_cons]
  exact ⟨fun _ _ _ _ => rfl, fun _ _ _ _ => rfl, fun _ _ _ _ => rfl, fun _ _ _ _ => rfl, fun _ _ _ _ => rfl, fun _ _ _ _ => rfl,
    fun _ _ _ _ => rfl, nofun⟩

/-- Settles O36: a tree of operations on words sets no flag, and keeps their sum, or a lane above all of them, at each level; a function's result
is special, or the code delivered, which is no NaN. -/
theorem reductionsAndFunctions : Obligations.ReductionsAndFunctions := by
  refine ⟨fun s c t pr body ht hc h => ⟨fun hT => ?sumFp, fun hT => ?sumInt⟩, fun s c t pr body ht hc h => ⟨fun hT => ?maxFp, fun hT => ?maxInt⟩,
    fun s c t pr body ht hc h => ⟨fun hT => ?minFp, fun hT => ?minInt⟩,
    fun s c t pr body ht hT => ⟨fun hc h => ?sqrt, fun hc h => ?div, fun e he hc h => ?function⟩,
    fun e he a ha => ⟨fun hn => ?nan, fpFunction_nan_cause ha, fun hs => ?accuracy⟩, by decide⟩
  case sumFp => exact State.issue_vOp ht h (vLegal_clean hc (by rw [hT]; rfl)) (fun n => rfl) (by rw [if_pos hT])
  case maxFp => exact State.issue_vOp ht h (vLegal_clean hc (by rw [hT]; rfl)) (fun n => rfl) (by rw [if_pos hT])
  case minFp => exact State.issue_vOp ht h (vLegal_clean hc (by rw [hT]; rfl)) (fun n => rfl) (by rw [if_pos hT])
  case sumInt =>
    refine State.issue_vOp_plain ht h (vLegal_clean hc (by rw [hT]; rfl)) (fun n => rfl) ?_
    rw [if_neg (by omega), lanes32_words, treeOf_sum (by simp) (by simp), List.sum_eq_foldl, List.foldl_map]
    rfl
  case maxInt =>
    obtain ⟨m, hm, ha, htree⟩ := treeOf_intMax t (vVA body.toNat)
    exact ⟨m, hm, ha, State.issue_vOp_plain ht h (vLegal_clean hc (by rw [hT]; rfl)) (fun n => rfl) (by rw [if_neg (by omega), htree])⟩
  case minInt =>
    obtain ⟨m, hm, ha, htree⟩ := treeOf_intMin t (vVA body.toNat)
    exact ⟨m, hm, ha, State.issue_vOp_plain ht h (vLegal_clean hc (by rw [hT]; rfl)) (fun n => rfl) (by rw [if_neg (by omega), htree])⟩
  case sqrt =>
    exact State.issue_vOp ht h (vLegal_clean (vClean_mono (by decide) hc) (by rw [hT]; rfl)) (fun n => rfl) rfl
  case div =>
    exact State.issue_vOp ht h (vLegal_clean (vClean_mono (by decide) hc) (by rw [hT]; rfl)) (fun n => rfl) rfl
  case function =>
    rw [funRows_issue e he]
    exact State.issue_vOp ht h (vLegal_clean (vClean_mono (by decide) hc) (by rw [hT]; rfl)) (fun n => rfl) rfl
  case nan =>
    have hspecial := fpFunction_cases e.2 a
    simpa [fpSpecial_nan hn, eq_comm] using hspecial
  case accuracy =>
    have hcode : (fpFunction e.2 a).1 = fnCode e.2 a := by
      rcases fpFunction_cases e.2 a with h | ⟨-, h⟩
      · rw [hs] at h; cases h
      · exact h
    rw [hcode]
    exact (fnCode_cases e.2 a).imp_left And.right

end Sys2Proof.Machine
end

section
/-!
PROOFS. The fields of GF(2^8) and the instructions of group B (R269, R270).
-/

namespace Sys2Proof.Machine

/-! ### Multiplication by x -/

section Field
variable {p a b d k n i : Nat}

/-- Multiplication by x keeps a byte, and 0 alone goes to 0. -/
theorem gfX_byte : ∀ p < 2, ∀ a < 2 ^ 8, gfX p a < 2 ^ 8 ∧ (gfX p a = 0 → a = 0) := by decide +kernel

/-- What a bit selects, for the sum of two bits. -/
theorem select_xor {u v : Nat} (hu : u < 2) (hv : v < 2) (q : Nat) :
    (if u ^^^ v = 1 then q else 0) = (if u = 1 then q else 0) ^^^ (if v = 1 then q else 0) := by
  interval_cases u <;> interval_cases v <;> simp

/-- A byte moves up by one bit, and its top bit brings in the polynomial. -/
theorem gfX_eq (ha : a < 2 ^ 8) : gfX p a = a <<< 1 ^^^ if a / 2 ^ 7 = 1 then (if p = 0 then 0x11D else 0x12D) else 0 := by
  have htop : a / 2 ^ 7 = 1 ↔ 128 ≤ a := by omega
  rw [gfX, if_congr htop rfl rfl, Nat.shiftLeft_eq, pow_one, Nat.mul_comm a]
  split
  · rfl
  · rw [Nat.xor_zero]

theorem gfX_xor (ha : a < 2 ^ 8) (hb : b < 2 ^ 8) : gfX p (a ^^^ b) = gfX p a ^^^ gfX p b := by
  rw [gfX_eq (Nat.xor_lt_two_pow ha hb), gfX_eq ha, gfX_eq hb, Nat.shiftLeft_xor_distrib, Nat.xor_div_two_pow,
    select_xor (by omega) (by omega)]
  ac_rfl

theorem gfX_iterate_lt (hp : p < 2) (ha : a < 2 ^ 8) (k : Nat) : (gfX p)^[k] a < 2 ^ 8 := by
  induction k generalizing a with
  | zero => exact ha
  | succ k ih => exact ih (gfX_byte p hp a ha).1

/-- The first powers of x. -/
theorem gfX_iterate_one (hi : i < 8) : (gfX p)^[i] 1 = 2 ^ i := by
  induction i with
  | zero => rfl
  | succ i ih =>
    have hlt : 2 ^ i < 128 := Nat.pow_lt_pow_right (by decide) (by omega : i < 7)
    rw [Function.iterate_succ_apply', ih (by omega), gfX, if_neg (by omega), pow_succ, Nat.mul_comm]

/-! ### Products (R269) -/

/-- What holds of 0 and of the powers of x and passes to sums holds of every byte. -/
theorem byte_induction {P : Nat → Prop} (h0 : P 0) (hpow : ∀ i < 8, P (2 ^ i)) (hsum : ∀ a < 2 ^ 8, ∀ b < 2 ^ 8, P a → P b → P (a ^^^ b)) :
    ∀ a < 2 ^ 8, P a := by
  have h : ∀ n ≤ 8, ∀ a < 2 ^ n, P a := by
    intro n
    induction n with
    | zero => exact fun _ a ha => by rwa [Nat.lt_one_iff.1 ha]
    | succ n ih =>
      intro hn a ha
      have hle : 2 ^ n ≤ 2 ^ 7 := Nat.pow_le_pow_right (by decide) (by omega)
      by_cases hlt : a < 2 ^ n
      · exact ih (by omega) a hlt
      · have hsplit : (a - 2 ^ n) ^^^ 2 ^ n = a := by
          rcases xor_two_pow_moves (a - 2 ^ n) n with h | h <;> omega
        rw [← hsplit]
        exact hsum _ (by omega) _ (by omega) (ih (by omega) _ (by omega)) (hpow n (by omega))
  exact h 8 le_rfl

theorem gfMulGo_succ (p n a b : Nat) :
    gfMulGo p (n + 1) a b = (if b % 2 = 1 then a else 0) ^^^ gfMulGo p n (gfX p a) (b / 2) := rfl

theorem gfMulGo_lt (hp : p < 2) (ha : a < 2 ^ 8) : gfMulGo p n a b < 2 ^ 8 := by
  induction n generalizing a b with
  | zero => exact Nat.two_pow_pos 8
  | succ n ih =>
    rw [gfMulGo_succ]
    refine Nat.xor_lt_two_pow ?_ (ih (gfX_byte p hp a ha).1)
    split
    · exact ha
    · decide

theorem gfMulGo_xor_right (p n a b d : Nat) : gfMulGo p n a (b ^^^ d) = gfMulGo p n a b ^^^ gfMulGo p n a d := by
  induction n generalizing a b d with
  | zero => exact (Nat.xor_self 0).symm
  | succ n ih =>
    have hmod : (b ^^^ d) % 2 = b % 2 ^^^ d % 2 := Nat.xor_mod_two_pow (n := 1)
    rw [gfMulGo_succ, gfMulGo_succ, gfMulGo_succ, hmod, Nat.xor_div_two, ih, select_xor (Nat.mod_lt _ (by decide)) (Nat.mod_lt _ (by decide))]
    ac_rfl

theorem gfMulGo_xor_left (hp : p < 2) (ha : a < 2 ^ 8) (hb : b < 2 ^ 8) :
    gfMulGo p n (a ^^^ b) d = gfMulGo p n a d ^^^ gfMulGo p n b d := by
  induction n generalizing a b d with
  | zero => exact (Nat.xor_self 0).symm
  | succ n ih =>
    rw [gfMulGo_succ, gfMulGo_succ, gfMulGo_succ, gfX_xor ha hb, ih (gfX_byte p hp a ha).1 (gfX_byte p hp b hb).1]
    split
    · ac_rfl
    · simp only [Nat.zero_xor]

theorem gfMulGo_zero_right (p n a : Nat) : gfMulGo p n a 0 = 0 := by simpa using gfMulGo_xor_right p n a 0 0

theorem gfMulGo_zero_left (hp : p < 2) (n b : Nat) : gfMulGo p n 0 b = 0 := by
  simpa using gfMulGo_xor_left (n := n) (d := b) hp (Nat.two_pow_pos 8) (Nat.two_pow_pos 8)

/-- A product by x on the left is the product times x. -/
theorem gfMulGo_gfX (hp : p < 2) (ha : a < 2 ^ 8) : gfMulGo p n (gfX p a) b = gfX p (gfMulGo p n a b) := by
  induction n generalizing a b with
  | zero => rfl
  | succ n ih =>
    have hx := (gfX_byte p hp a ha).1
    rw [gfMulGo_succ, gfMulGo_succ, gfX_xor (by split <;> omega) (gfMulGo_lt hp hx), ih hx]
    split
    · rfl
    · rfl

/-- A product by a power of x. -/
theorem gfMulGo_two_pow (p a : Nat) (hi : i < n) : gfMulGo p n a (2 ^ i) = (gfX p)^[i] a := by
  induction n generalizing a i with
  | zero => omega
  | succ n ih =>
    rw [gfMulGo_succ]
    cases i with
    | zero => simp [gfMulGo_zero_right]
    | succ i => rw [pow_succ, Nat.mul_mod_left, if_neg zero_ne_one, Nat.zero_xor, Nat.mul_div_cancel _ (by decide), ih _ (by omega)]; rfl

theorem gfMul_lt (hp : p < 2) (ha : a < 2 ^ 8) (b : Nat) : gfMul p a b < 2 ^ 8 := gfMulGo_lt hp ha

theorem gfMul_two_pow (p a : Nat) (hi : i < 8) : gfMul p a (2 ^ i) = (gfX p)^[i] a := gfMulGo_two_pow p a hi

theorem gfMul_gfX (hp : p < 2) (ha : a < 2 ^ 8) (k b : Nat) : gfMul p ((gfX p)^[k] a) b = (gfX p)^[k] (gfMul p a b) := by
  induction k generalizing a with
  | zero => rfl
  | succ k ih => rw [Function.iterate_succ_apply, ih (gfX_byte p hp a ha).1, gfMul, gfMulGo_gfX hp ha]; rfl

theorem gfMul_one_left (hp : p < 2) : ∀ b < 2 ^ 8, gfMul p 1 b = b := by
  refine byte_induction ?_ (fun i hi => ?_) fun a _ b _ ha hb => ?_
  · interval_cases p <;> rfl
  · rw [gfMul_two_pow p 1 hi, gfX_iterate_one hi]
  · rw [gfMul, gfMulGo_xor_right, ← gfMul, ← gfMul, ha, hb]

theorem gfMul_two (hp : p < 2) (hb : b < 2 ^ 8) : gfMul p 2 b = gfX p b := by
  have h := gfMul_gfX hp (by decide : 1 < 2 ^ 8) 1 b
  rwa [gfX_iterate_one (by decide), gfMul_one_left hp b hb] at h

theorem gfMul_comm (hp : p < 2) (ha : a < 2 ^ 8) : ∀ b < 2 ^ 8, gfMul p a b = gfMul p b a := by
  refine byte_induction ?_ (fun i hi => ?_) fun b hb d hd h1 h2 => ?_
  · rw [gfMul, gfMul, gfMulGo_zero_right, gfMulGo_zero_left hp]
  · rw [gfMul_two_pow p a hi, ← gfX_iterate_one hi, gfMul_gfX hp (by decide), gfMul_one_left hp a ha]
  · rw [gfMul, gfMul, gfMulGo_xor_right, gfMulGo_xor_left hp hb hd, ← gfMul, ← gfMul, h1, h2]; rfl

/-! ### Powers of x (R270) -/

theorem gfPow_two (hp : p < 2) (k : Nat) : gfPow p 2 k = (gfX p)^[k] 1 := by
  induction k with
  | zero => rfl
  | succ k ih => rw [gfPow, ih, gfMul_two hp (gfX_iterate_lt hp (by decide) k), Function.iterate_succ_apply']

/-- A power of a power of x. -/
theorem gfPow_iterate (hp : p < 2) (k n : Nat) : gfPow p ((gfX p)^[k] 1) n = (gfX p)^[k * n] 1 := by
  induction n with
  | zero => rfl
  | succ n ih =>
    rw [gfPow, ih, gfMul_gfX hp (by decide), gfMul_one_left hp _ (gfX_iterate_lt hp (by decide) _), ← Function.iterate_add_apply, Nat.mul_succ,
      Nat.add_comm]

/-- The powers of x come back to 1 after 255, and not after a part of 255. -/
theorem gfX_order : ∀ p < 2, (gfX p)^[255] 1 = 1 ∧ (gfX p)^[85] 1 ≠ 1 ∧ (gfX p)^[51] 1 ≠ 1 ∧ (gfX p)^[15] 1 ≠ 1 := by decide +kernel

theorem gfX_minimalPeriod (hp : p < 2) : Function.minimalPeriod (gfX p) 1 = 255 := by
  obtain ⟨h255, h85, h51, h15⟩ := gfX_order p hp
  have hdvd : Function.minimalPeriod (gfX p) 1 ∣ 255 := Function.IsPeriodicPt.minimalPeriod_dvd h255
  have hnot {n : Nat} (h : (gfX p)^[n] 1 ≠ 1) : ¬ Function.minimalPeriod (gfX p) 1 ∣ n := fun hd =>
    h (Function.isPeriodicPt_iff_minimalPeriod_dvd.2 hd)
  have hparts : ∀ m ∈ Nat.divisors 255, m ∣ 85 ∨ m ∣ 51 ∨ m ∣ 15 ∨ m = 255 := by decide +kernel
  have h := hparts _ (Nat.mem_divisors.2 ⟨hdvd, by decide⟩)
  simpa only [hnot h85, hnot h51, hnot h15, false_or] using h

theorem gfX_iterate_inj (hp : p < 2) {j k : Nat} (hj : j < 255) (hk : k < 255) (h : (gfX p)^[j] 1 = (gfX p)^[k] 1) : j = k :=
  Function.iterate_injOn_Iio_minimalPeriod (by rwa [Set.mem_Iio, gfX_minimalPeriod hp]) (by rwa [Set.mem_Iio, gfX_minimalPeriod hp]) h

theorem gfX_iterate_pos (hp : p < 2) (k : Nat) : 0 < (gfX p)^[k] 1 := by
  induction k with
  | zero => exact Nat.one_pos
  | succ k ih =>
    rw [Function.iterate_succ_apply']
    exact Nat.pos_of_ne_zero fun h => Nat.pos_iff_ne_zero.1 ih ((gfX_byte p hp _ (gfX_iterate_lt hp (by decide) k)).2 h)

/-- Every byte but 0 is a power of x. -/
theorem exists_gfX_iterate (hp : p < 2) (ha : a < 2 ^ 8) (h0 : a ≠ 0) : ∃ k < 255, (gfX p)^[k] 1 = a := by
  obtain ⟨k, hk, h⟩ := Finset.surj_on_of_inj_on_of_card_le (s := Finset.range 255) (t := Finset.Ioo 0 256) (fun k _ => (gfX p)^[k] 1)
    (fun k _ => Finset.mem_Ioo.2 ⟨gfX_iterate_pos hp k, gfX_iterate_lt hp (by decide) k⟩)
    (fun j k hj hk h => gfX_iterate_inj hp (Finset.mem_range.1 hj) (Finset.mem_range.1 hk) h) (by simp) a
    (Finset.mem_Ioo.2 ⟨Nat.pos_of_ne_zero h0, ha⟩)
  exact ⟨k, Finset.mem_range.1 hk, h.symm⟩

/-- A byte but 0 times its inverse is 1: its 255th power. -/
theorem gfMul_gfInv (hp : p < 2) (ha : a < 2 ^ 8) (h0 : a ≠ 0) : gfMul p a (gfInv p a) = 1 := by
  obtain ⟨k, -, rfl⟩ := exists_gfX_iterate hp ha h0
  have hpow : gfMul p ((gfX p)^[k] 1) (gfInv p ((gfX p)^[k] 1)) = gfPow p ((gfX p)^[k] 1) 255 := by rw [gfInv, if_neg h0]; rfl
  rw [hpow, gfPow_iterate hp, Nat.mul_comm, Function.iterate_mul]
  exact Function.iterate_fixed (gfX_order p hp).1 k

/-- The logarithm of a power of x. -/
theorem gfLog_gfX_iterate (hp : p < 2) (hk : k < 255) : gfLog p ((gfX p)^[k] 1) = k := by
  have hfind : (List.range 255).find? (fun j => gfPow p 2 j == (gfX p)^[k] 1) = some k := by
    refine List.find?_range_eq_some.2 ⟨by simp [gfPow_two hp], List.mem_range.2 hk, fun j hj => ?_⟩
    rw [gfPow_two hp]
    have hne : (gfX p)^[j] 1 ≠ (gfX p)^[k] 1 := fun h => absurd (gfX_iterate_inj hp (by omega) hk h) (by omega)
    simp [hne]
  rw [gfLog, if_neg (Nat.pos_iff_ne_zero.1 (gfX_iterate_pos hp k)), hfind, Option.getD_some]

theorem gfExp_gfLog (hp : p < 2) (ha : a < 2 ^ 8) : gfExp p (gfLog p a) = a := by
  by_cases h0 : a = 0
  · rw [h0]; rfl
  · obtain ⟨k, hk, rfl⟩ := exists_gfX_iterate hp ha h0
    rw [gfLog_gfX_iterate hp hk, gfExp, if_neg (by omega), gfPow_two hp]

theorem gfLog_gfExp (hp : p < 2) (ha : a < 2 ^ 8) : gfLog p (gfExp p a) = a := by
  rw [gfExp]
  split
  · next h => rw [h]; rfl
  · rw [gfPow_two hp, gfLog_gfX_iterate hp (by omega)]

end Field

/-! ### The instructions of group B (R270) -/

section Rows
variable {s : State} {c func cost : Nat} {t : Tile} {pr : BitVec 4} {body : BitVec 48} {use : List VF}

theorem vClean_field {f : VF} (hc : vClean use body = true) (hf : use.contains f = false) : f.get body.toNat = 0 := by
  obtain ⟨-, ha⟩ := Bool.and_eq_true_iff.1 hc
  have hall : f ∈ vfAll := by cases f <;> decide
  simpa using List.all_eq_true.1 ha f (List.mem_filter.2 ⟨hall, by rw [hf]; rfl⟩)

/-- A command issues an instruction of group B whose operation gives the low 8 bits of `op`. -/
def TackCmd.IsGf (f : TackCmd) (func cost : Nat) (use : List VF) (op : Nat → Nat → Nat → Nat → Nat) : Prop :=
  ∃ g, (∀ s c pr body, exec (f c pr body) s = s.issue c pr body (gfOp func cost use g)) ∧
    ∀ p d a b, g p d a b % 2 ^ 8 = op p d a b % 2 ^ 8

theorem xor_byte (x y : Nat) : x.xor y % 2 ^ 8 = (BitVec.ofNat 8 x ^^^ BitVec.ofNat 8 y).toNat % 2 ^ 8 := by
  rw [BitVec.toNat_xor, BitVec.toNat_ofNat, BitVec.toNat_ofNat, ← Nat.xor_mod_two_pow, Nat.mod_mod]
  rfl

theorem gfRows_isGf : ∀ e ∈ gfRows, TackCmd.IsGf e.1 e.2.1 e.2.2.1 e.2.2.2.1 e.2.2.2.2 := by
  simp only [gfRows, List.forall_mem_cons]
  exact ⟨⟨_, fun _ _ _ _ => rfl, fun _ _ a b => xor_byte a b⟩, ⟨_, fun _ _ _ _ => rfl, fun _ _ _ _ => rfl⟩,
    ⟨_, fun _ _ _ _ => rfl, fun p d a b => xor_byte d (gfMul p a b)⟩, ⟨_, fun _ _ _ _ => rfl, fun p d a b => xor_byte (gfMul p d a) b⟩,
    ⟨_, fun _ _ _ _ => rfl, fun _ _ _ _ => rfl⟩, ⟨_, fun _ _ _ _ => rfl, fun _ _ _ _ => rfl⟩, ⟨_, fun _ _ _ _ => rfl, fun _ _ _ _ => rfl⟩,
    nofun⟩

/-- Settles O37: a row issues its operation on every byte; a product is linear in both factors, so that what holds for the powers of x holds
for all bytes, and the powers of x are all the bytes but 0. -/
theorem galoisFieldOperations : Obligations.GaloisFieldOperations := by
  refine ⟨fun e he s c t pr body ht hc h => ?row, fun s c t pr body ht hc hi h => ?mulc, fun p a b d hp ha hb hd => ?field⟩
  case row =>
    obtain ⟨g, hx, hg⟩ := gfRows_isGf e he
    have htype : ∀ e ∈ gfRows, ([.vd, .va] ++ e.2.2.2.1 : List VF).contains .t = false := by decide
    have hT : vT body.toNat = 0 := vClean_field (f := .t) hc (htype e he)
    rw [hx, gfOp]
    refine State.issue_vOp_plain ht h ?_ (fun n => rfl) (congrArg (fun v => (v, 0)) (packLanes_congr fun i _ => hg ..))
    rw [if_neg (by omega)]
    exact vLegal_none hc (by rw [htype e he]; nofun)
  case mulc =>
    have hT : vT body.toNat = 0 := vClean_field (f := .t) hc rfl
    refine State.issue_vOp_plain ht h ?_ (fun n => rfl) ?_
    · rw [if_neg (by omega), if_neg (by omega)]
      exact vLegal_none hc nofun
    · rw [lanesOf, List.map_map]
      rfl
  case field =>
    refine ⟨gfMul_lt hp ha b, gfMul_comm hp ha b hb, gfMulGo_xor_right .., ?_, ?_, fun h => ?_, gfMul_gfInv hp ha, rfl, gfExp_gfLog hp ha,
      gfLog_gfExp hp ha, rfl⟩
    · rw [gfMul_comm hp ha 1 (by decide), gfMul_one_left hp a ha]
    · interval_cases p <;> rfl
    · rw [gfMul_two hp hb, gfX, if_neg (by omega)]

end Rows

end Sys2Proof.Machine
end

section
/-!
PROOFS. Tack's matrix instructions: lanes and rows of an accumulator after an `mma`, and whole accumulators (R271 to R278).
-/

namespace Sys2Proof.Machine

/-! ### Rows of an accumulator -/

section Rows
variable {t : Tile} {k m i j r n fmt : Nat} {z : Bool} {pa pb : List Nat}

@[simp] theorem Tile.setAccRow_control (t : Tile) (k r v : Nat) : (t.setAccRow k r v).control = t.control := rfl
@[simp] theorem Tile.setAccRow_ups (t : Tile) (k r v : Nat) : (t.setAccRow k r v).ups = t.ups := rfl
theorem Tile.setAccRow_flags (t : Tile) (k r v : Nat) : (t.setAccRow k r v).flags = t.flags := rfl
theorem Tile.flag_accRow (t : Tile) (f k r : Nat) : (t.flag f).accRow k r = t.accRow k r := rfl

theorem Tile.setAccRow_same (t : Tile) (k r v : Nat) : (t.setAccRow k r v).accRow k r = v % 2 ^ 2048 := Store.get_put_same

theorem Tile.setAccRow_ne (t : Tile) (v : Nat) (h : k * 64 + r ≠ m * 64 + i) : (t.setAccRow k r v).accRow m i = t.accRow m i :=
  Store.get_put_ne h

/-- The lanes of row `i` after an `mma`, with their flags, for the old row `old`. -/
def mmaRowOf (fmt : Nat) (z : Bool) (pa pb : List Nat) (old i : Nat) : Nat × Nat :=
  mmaRow fmt z old (panelRow fmt pa i) (panelExp fmt pa i) ((List.range 64).map fun j => (panelRow fmt pb j, panelExp fmt pb j))

/-- An `mma` writes one row. -/
def Tile.mmaStep (k fmt : Nat) (z : Bool) (pa pb : List Nat) (t : Tile) (i : Nat) : Tile :=
  (t.setAccRow k i (mmaRowOf fmt z pa pb (t.accRow k i) i).1).flag (mmaRowOf fmt z pa pb (t.accRow k i) i).2

theorem mmaTile_eq (t : Tile) (k fmt : Nat) (z : Bool) (pa pb : List Nat) :
    mmaTile t k fmt z pa pb = (List.range 64).foldl (Tile.mmaStep k fmt z pa pb) t := rfl

/-- What setting a row and flags does not change, an `mma` does not. -/
theorem mmaTile_keeps {α : Type} {f : Tile → α} (h : ∀ t i v g, i < 64 → f ((t.setAccRow k i v).flag g) = f t) :
    f (mmaTile t k fmt z pa pb) = f t :=
  foldl_keeps f fun t i hi => h t i _ _ (List.mem_range.1 hi)

/-- A row is written once, from its old contents. -/
theorem mmaTile_accRow (hi : i < 64) : (mmaTile t k fmt z pa pb).accRow k i = (mmaRowOf fmt z pa pb (t.accRow k i) i).1 % 2 ^ 2048 := by
  have h (n : Nat) : ((List.range n).foldl (Tile.mmaStep k fmt z pa pb) t).accRow k i =
      if i < n then (mmaRowOf fmt z pa pb (t.accRow k i) i).1 % 2 ^ 2048 else t.accRow k i := by
    induction n with
    | zero => rfl
    | succ n ih =>
      rw [List.range_succ, List.foldl_append, List.foldl_cons, List.foldl_nil, Tile.mmaStep, Tile.flag_accRow]
      by_cases hn : i = n
      · subst hn
        rw [Tile.setAccRow_same, ih, if_neg (lt_irrefl i), if_pos (Nat.lt_succ_self i)]
      · rw [Tile.setAccRow_ne _ _ (by omega), ih]
        exact if_congr (by omega) rfl rfl
  rw [mmaTile_eq, h, if_pos hi]

/-- A lane of a row after an `mma`. -/
theorem mmaRowOf_lane (hj : j < 64) (old i : Nat) : bits ((mmaRowOf fmt z pa pb old i).1 % 2 ^ 2048) (32 * j) 32 =
    (mmaLane fmt z (bits old (32 * j) 32) (panelRow fmt pa i) (panelRow fmt pb j) (panelExp fmt pa i) (panelExp fmt pb j)).1 % 2 ^ 32 := by
  have h0 (v : Nat) : v % 2 ^ 2048 = bits v 0 2048 := by rw [bits, pow_zero, Nat.div_one]
  rw [h0, bits_bits (by omega), Nat.zero_add, mmaRowOf, mmaRow, joinLanes, bits_packLanes]
  simp [hj]

@[simp] theorem mmaTile_control : (mmaTile t k fmt z pa pb).control = t.control := mmaTile_keeps (f := Tile.control) fun _ _ _ _ _ => rfl
@[simp] theorem mmaTile_ups : (mmaTile t k fmt z pa pb).ups = t.ups := mmaTile_keeps (f := Tile.ups) fun _ _ _ _ _ => rfl

theorem mmaTile_accRow_ne (h : m ≠ k) (hi : i < 64) : (mmaTile t k fmt z pa pb).accRow m i = t.accRow m i :=
  mmaTile_keeps (f := fun t => t.accRow m i) fun t r v _ hr => Tile.setAccRow_ne t v (by omega)

/-- An integer format sets no flag. -/
theorem mmaTile_flags (h : fmt ≤ 1) : (mmaTile t k fmt z pa pb).flags = t.flags := by
  refine foldl_keeps Tile.flags (f := Tile.mmaStep k fmt z pa pb) fun t i _ => ?_
  have hlane (old : Nat) (a b ea eb : List Nat) : (mmaLane fmt z old a b ea eb).2 = 0 := by rw [mmaLane, if_pos h]
  have hrow : (mmaRowOf fmt z pa pb (t.accRow k i) i).2 = 0 := by
    refine foldl_fixed fun e he => ?_
    obtain ⟨x, -, rfl⟩ := List.mem_map.1 he
    rw [hlane]
    exact Nat.zero_or 0
  rw [Tile.mmaStep, hrow, Tile.flag_zero, Tile.setAccRow_flags]

/-- The rows of two panels of an integer format have the sum of the products of their elements. -/
theorem intDot_panels (w : Nat) (i j : Nat) : intDot w (panelRow fmt pa i) (panelRow fmt pb j) = ((List.range (mmaK fmt)).map fun e =>
    sext w ((panelRow fmt pa i).getD e 0) * sext w ((panelRow fmt pb j).getD e 0)).sum := by
  rw [intDot, ← List.sum_eq_foldl, panelRow, panelRow, lanesOf, lanesOf, List.zipWith_map, List.zipWith_self]
  refine congrArg List.sum (List.map_congr_left fun e he => ?_)
  have hlt := List.mem_range.1 he
  simp [hlt]

/-- An integer lane is the old lane, unless `z`, and the sum of products, modulo 2^32. -/
theorem mmaLane_int (h : fmt ≤ 1) (old : Nat) (a b ea eb : List Nat) : BitVec.ofNat 32 ((mmaLane fmt z old a b ea eb).1 % 2 ^ 32) =
    (if z then 0#32 else BitVec.ofNat 32 old) + BitVec.ofInt 32 (intDot (mmaBits fmt) a b) := by
  have hcode (x : Int) : BitVec.ofNat 32 (toCode 32 x % 2 ^ 32) = BitVec.ofInt 32 x := by
    rw [toCode_eq_toNat, Nat.mod_eq_of_lt (BitVec.isLt _), BitVec.ofNat_toNat, BitVec.setWidth_eq]
  rw [mmaLane, if_pos h, hcode]
  cases z with
  | true => simp
  | false => simp [BitVec.ofInt_add, s32, sext_eq_toInt]

end Rows

/-! ### The instructions of groups C and D -/

section Issue
variable {s : State} {c : Nat} {t : Tile} {pr : BitVec 4} {body : BitVec 48}

theorem mmaCost_eq {fmt : Nat} (h : fmt ≤ 9) : mmaCost fmt = if fmt = 6 ∨ fmt = 7 then 128 else 64 := by
  rw [mmaCost]
  split
  · rfl
  · rfl

theorem areaTrap_aligned {x n : Nat} (h : areaTrap x n = none) : addrOf x % 64 = 0 := by
  by_contra hx
  rw [areaTrap, if_pos hx] at h
  cases h

/-- In a tile that nothing has upset, `mma` reads its two panels and goes on with every row written. -/
theorem exec_mma (ht : t.Sound) (hfmt : mFMT body.toNat ≤ 9) (h44 : bit body.toNat 44 = 0) (hz : bits body.toNat 0 31 = 0)
    (h : Runs s c t 12 1 (if mFMT body.toNat = 6 ∨ mFMT body.toNat = 7 then 128 else 64) pr body = true)
    (hx : areaTrap (t.areg (mAA body.toNat)) (panelBytes (mFMT body.toNat)) = none)
    (hy : areaTrap (t.areg (mAB body.toNat)) (panelBytes (mFMT body.toNat)) = none) :
    let u := s.issued c t (if mFMT body.toNat = 6 ∨ mFMT body.toNat = 7 then 128 else 64)
    let ra := u.1.spadRead c u.2 (addrOf (t.areg (mAA body.toNat))) (panelBytes (mFMT body.toNat))
    let rb := ra.1.spadRead c u.2 (addrOf (t.areg (mAB body.toNat))) (panelBytes (mFMT body.toNat))
    ra.2.1 = 0 → rb.2.1 = 0 → Lands rb.1 c t (t.pc + 1) = true → exec (.mma c pr body) s =
      .next (rb.1.placed c (mmaTile u.2 (mACC body.toNat) (mFMT body.toNat) (bit body.toNat 31 == 1) ra.2.2 rb.2.2) (t.pc + 1)) := by
  rw [← mmaCost_eq hfmt] at h ⊢
  intro u ra rb ha hb hland
  obtain ⟨hoff, hups⟩ := State.issued_sound (s := s) (c := c) (n := mmaCost (mFMT body.toNat)) ht
  have hl : (opMma c).legal body.toNat = none := (if_neg (by omega)).trans (checkFields_none (by simp [h44, hz]) (by simp))
  have he : (opMma c).eff body.toNat u.1 u.2 =
      Eff.reg rb.1 (mmaTile u.2 (mACC body.toNat) (mFMT body.toNat) (bit body.toNat 31 == 1) ra.2.2 rb.2.2) := by
    have hreads : ¬ (ra.2.1 ≠ 0 ∨ rb.2.1 ≠ 0) := by simp [ha, hb]
    simp only [opMma, u, State.issued_areg, areaTrap_aligned hx, areaTrap_aligned hy, hx, hy, ne_eq, not_true, if_false]
    exact if_neg hreads
  exact State.issue_reg (o := opMma c) (Bool.and_eq_true_iff.1 h).1 hl he (Op.checked_sound hoff (by rw [mmaTile_ups]; exact hups))
    (mmaTile_control.trans State.issued_control_eq) hland

theorem maLegal_none {b : Nat} {useAR useRow : Bool} (h44 : bit b 44 = 0) (hz : bits b 6 24 = 0) (ha : useAR = false → dAR b = 0)
    (hr : useRow = false → dV b = 0 ∧ dRS b = 0 ∧ bits b 0 6 = 0) : maLegal useAR useRow b = none := by
  refine checkFields_none ?_ (by simp)
  simp only [List.forall_mem_append]
  refine ⟨⟨by simp [h44, hz], ?_⟩, ?_⟩
  · cases useAR with
    | true => simp
    | false => simpa using ha rfl
  · cases useRow with
    | true => simp
    | false => simpa using hr rfl

/-- Rows set one after another leave the rest of the tile. -/
theorem foldl_setAccRow (f : Nat → Nat) (k : Nat) (t : Tile) : ((List.range 64).foldl (fun y i => y.setAccRow k i (f i)) t).control = t.control ∧
    ((List.range 64).foldl (fun y i => y.setAccRow k i (f i)) t).ups = t.ups :=
  ⟨foldl_keeps Tile.control fun _ _ _ => Tile.setAccRow_control .., foldl_keeps Tile.ups fun _ _ _ => Tile.setAccRow_ups ..⟩

theorem exec_accst (ht : t.Sound) (h44 : bit body.toNat 44 = 0) (hz : bits body.toNat 6 24 = 0) (hv : dV body.toNat = 0) (hs : dRS body.toNat = 0)
    (hr : bits body.toNat 0 6 = 0) (hx : areaTrap (t.areg (dAR body.toNat)) 16384 = none) (h : Runs s c t 13 2 64 pr body = true) :
    let u := s.issued c t 64
    let w := u.1.spadWrite c u.2 (addrOf (t.areg (dAR body.toNat))) ((List.range 64).flatMap (fun i => leBytes 256 (t.accRow (mACC body.toNat) i)))
    Lands w.1 c t (t.pc + 1) = true → exec (.accst c pr body) s = .next (w.1.placed c w.2 (t.pc + 1)) := by
  intro u w hland
  obtain ⟨hoff, hups⟩ := State.issued_sound (s := s) (c := c) (n := 64) ht
  have hrow (k i : Nat) : u.2.accRow k i = t.accRow k i := by
    simp only [u, State.issued_undisturbed ht]
    rfl
  have he : (opAccst c).eff body.toNat u.1 u.2 = Eff.reg w.1 w.2 := by
    simp only [opAccst, hrow, w]
    simp only [u, State.issued_areg, hx]
  exact State.issue_reg (o := opAccst c) (Bool.and_eq_true_iff.1 h).1 (maLegal_none h44 hz nofun fun _ => ⟨hv, hs, hr⟩) he
    (Op.checked_sound hoff (by simp [w, u, hups])) (by simp [w, u]) hland

theorem exec_accld (ht : t.Sound) (h44 : bit body.toNat 44 = 0) (hz : bits body.toNat 6 24 = 0) (hv : dV body.toNat = 0) (hs : dRS body.toNat = 0)
    (hr : bits body.toNat 0 6 = 0) (hx : areaTrap (t.areg (dAR body.toNat)) 16384 = none) (h : Runs s c t 13 3 64 pr body = true) :
    let u := s.issued c t 64
    let r := u.1.spadRead c u.2 (addrOf (t.areg (dAR body.toNat))) 16384
    r.2.1 = 0 → Lands r.1 c t (t.pc + 1) = true → exec (.accld c pr body) s = .next (r.1.placed c ((List.range 64).foldl (fun y i =>
      y.setAccRow (mACC body.toNat) i (leNat ((r.2.2.drop (256 * i)).take 256))) u.2) (t.pc + 1)) := by
  intro u r hread hland
  obtain ⟨hoff, hups⟩ := State.issued_sound (s := s) (c := c) (n := 64) ht
  obtain ⟨hcontrol, hsame⟩ := foldl_setAccRow (fun i => leNat ((r.2.2.drop (256 * i)).take 256)) (mACC body.toNat) u.2
  have he : (opAccld c).eff body.toNat u.1 u.2 =
      Eff.reg r.1 ((List.range 64).foldl (fun y i => y.setAccRow (mACC body.toNat) i (leNat ((r.2.2.drop (256 * i)).take 256))) u.2) := by
    have hok : ¬ r.2.1 ≠ 0 := fun hn => hn hread
    simp only [opAccld, u, State.issued_areg, hx]
    exact if_neg hok
  exact State.issue_reg (o := opAccld c) (Bool.and_eq_true_iff.1 h).1 (maLegal_none h44 hz nofun fun _ => ⟨hv, hs, hr⟩) he
    (Op.checked_sound hoff (hsame.trans hups)) (hcontrol.trans State.issued_control_eq) hland

/-- Settles O38: an `mma` writes every row once, from its old contents; whole accumulators move row by row. -/
theorem matrixOperations : Obligations.MatrixOperations := by
  refine ⟨fun s c t pr body ht hfmt h44 hz h hx hy => exec_mma ht hfmt h44 hz h hx hy,
    fun t k fmt i j z pa pb hk hfmt hi hj => ?int, fun t k fmt z pa pb hk hfmt => ?lanes,
    fun s c t pr body ht h44 hz => ⟨fun ha hv hs hr h => ?zero, fun ha h => ?acc2v, fun ha h => ?v2acc, fun hv hs hr hx =>
      ⟨fun h => exec_accst ht h44 hz hv hs hr hx h, fun h => exec_accld ht h44 hz hv hs hr hx h⟩⟩, by decide +kernel, by decide,
    by decide +kernel⟩
  case int => rw [mmaTile_accRow hi, mmaRowOf_lane hj, mmaLane_int hfmt, intDot_panels]
  case lanes =>
    exact ⟨fun i j hi hj => by rw [mmaTile_accRow hi, mmaRowOf_lane hj], fun m i hm _ hi => mmaTile_accRow_ne hm hi,
      mmaTile_keeps (f := Tile.v) fun _ _ _ _ _ => rfl, mmaTile_keeps (f := Tile.s) fun _ _ _ _ _ => rfl,
      mmaTile_keeps (f := Tile.a) fun _ _ _ _ _ => rfl, mmaTile_keeps (f := Tile.p) fun _ _ _ _ _ => rfl, mmaTile_flags⟩
  case zero =>
    exact State.issue_undisturbed (o := opAcczero) ht h (maLegal_none h44 hz (fun _ => ha) fun _ => ⟨hv, hs, hr⟩) (fun r => rfl)
      fun u => foldl_setAccRow (fun _ => 0) _ u
  case acc2v =>
    exact State.issue_undisturbed (o := opAcc2v) ht h (maLegal_none h44 hz (fun _ => ha) nofun) (fun r => rfl) fun u => ⟨rfl, rfl⟩
  case v2acc =>
    exact State.issue_undisturbed (o := opV2acc) ht h (maLegal_none h44 hz (fun _ => ha) nofun) (fun r => rfl) fun u => ⟨rfl, rfl⟩

end Issue

end Sys2Proof.Machine
end

section
/-!
PROOFS. How fused commands start: the reading of their blocks, the checks of R285, and the stripes of a group (R284 to R303).
-/

namespace Sys2Proof.Machine

/-! ### The start of a fused command -/

section Start
variable {s u : State} {q kind : Nat} {x : Cmd} {f : Fused} {params tensors : Bool} {start begun : State}
  {run : State → Fused → State}

theorem State.cmd?_ptr (h : s.cmd? q = some x) : x.ptr = q :=
  beq_iff_eq.1 (List.find?_some (p := fun c : Cmd => c.ptr == q) h)

/-- A command that can start is the one in flight that its pointer names. -/
theorem State.fusedReady_ptr (h : s.fusedReady q = some x) : x.ptr = q := by
  unfold State.fusedReady at h
  split at h
  next y hy =>
    obtain ⟨-, hyx⟩ := Option.ite_none_right_eq_some.1 h
    exact Option.some.inj hyx ▸ State.cmd?_ptr hy
  next => cases h

/-- Whether its blocks can be read or not, what was read is of the command it was read for. -/
theorem State.readFused_cmd (s : State) (x : Cmd) : (s.readFused x).2.2.x = x := by
  simp only [State.readFused, apply_ite Prod.snd, apply_ite Fused.x, ite_self]

theorem State.fusedCheck_param (h : params = false) : s.fusedCheck f params tensors start = s.refuseCmd f.x.ptr 0x0808 := by
  rw [State.fusedCheck, h]; rfl

theorem State.fusedCheck_address (hp : params = true) (ht : tensors = false) :
    s.fusedCheck f params tensors start = s.refuseCmd f.x.ptr 0x0802 := by
  rw [State.fusedCheck, hp, ht]; rfl

theorem State.fusedCheck_start (hp : params = true) (ht : tensors = true) : s.fusedCheck f params tensors start = start := by
  rw [State.fusedCheck, hp, ht]; rfl

section Read
variable (hx : s.fusedReady q = some x) (hu : s.readFused x = (u, 0, f))
include hx hu

/-- The command that the parameter block was read for is the one that `q` points to. -/
theorem State.readFused_ptr : f.x.ptr = q := by
  have hf : f.x = x := by simpa only [hu] using State.readFused_cmd s x
  exact hf ▸ State.fusedReady_ptr hx

/-- A command whose blocks are read, and whose parameter block names the kind, runs the start of that kind. -/
theorem State.startFused_run (hk : pf f.p 0 1 = kind) : s.startFused q kind run = run u f := by
  simp only [State.startFused, hx, hu, hk, ne_eq, not_true_eq_false, if_false, if_true]

/-- A start that is one check of the command (R285) begins it, or ends it by the rule that it breaks. -/
theorem State.startFused_check (hk : pf f.p 0 1 = kind) (hrun : run u f = u.fusedCheck f params tensors begun) :
    (params = true → tensors = true → s.startFused q kind run = begun) ∧
    (params = false → s.startFused q kind run = u.refuseCmd q 0x0808) ∧
    (params = true → tensors = false → s.startFused q kind run = u.refuseCmd q 0x0802) := by
  rw [State.startFused_run hx hu hk, hrun, ← State.readFused_ptr hx hu]
  exact ⟨State.fusedCheck_start, State.fusedCheck_param, State.fusedCheck_address⟩

end Read

end Start

/-! ### The commands -/

section Commands
variable {s u v : State} {τ q k : Nat} {x : Cmd} {f : Fused} {b : List Nat} {ls : List (List Nat)}

theorem exec_convolution : exec (.convolution τ q) s = .next ((s.at τ).startConv q) := rfl
theorem exec_pooling : exec (.pooling τ q) s = .next ((s.at τ).startPool q) := rfl
theorem exec_upSampling : exec (.upSampling τ q) s = .next ((s.at τ).startUp q) := rfl
theorem exec_partialReduction : exec (.partialReduction τ q) s = .next ((s.at τ).startReduce q) := rfl
theorem exec_stripeStart : exec (.stripeStart τ q k) s = execStripeStart τ q k s := rfl
theorem exec_stripeGroup : exec (.stripeGroup τ q) s = .next ((s.at τ).startStripes q) := rfl

/-- A reduction whose finish is not the output path names no convolution: its own fields alone are checked (R296). -/
theorem State.startReduce_plain (hx : s.fusedReady q = some x) (hu : s.readFused x = (u, 0, f)) (hk : pf f.p 0 1 = 4)
    (hn : (reduceOf f.p).finish ≠ 0) : s.startReduce q = u.fusedCheck f (reduceOk f.p) ((reduceOf f.p).tensorsOk (convOf []) f.segs)
      (u.beginFused f [[]] (reduceOf f.p).hp) := by
  rw [State.startReduce, State.startFused_run hx hu hk]
  simp [beq_false_of_ne hn]

/-- A reduction whose finish is the output path takes the convolution block that it names with it (R296). -/
theorem State.startReduce_named (hx : s.fusedReady q = some x) (hu : s.readFused x = (u, 0, f)) (hk : pf f.p 0 1 = 4)
    (hn : (reduceOf f.p).finish = 0) (ht : tensorOk f.segs false (reduceOf f.p).conv 128 = true)
    (hv : u.hwRead iSCH (reduceOf f.p).conv 128 = (v, 0, b)) :
    s.startReduce q = v.fusedCheck f (reduceOk f.p && convOk b) ((reduceOf f.p).tensorsOk (convOf b) f.segs)
      (v.beginFused f [b] (reduceOf f.p).hp) := by
  rw [State.startReduce, State.startFused_run hx hu hk]
  simp [hn, ht, hv]

theorem State.startStripes_refuses (hx : s.fusedReady q = some x) (hu : s.readFused x = (u, 0, f)) (hk : pf f.p 0 1 = 5)
    (hok : stripeOk f.p = false) : s.startStripes q = u.refuseCmd q 0x0808 := by
  rw [State.startStripes, State.startFused_run hx hu hk]
  simp [hok]

/-- A stripe group whose layers are read without error, keep R301 and lie in segments begins, and its stripes wait for their rows. -/
theorem State.startStripes_waits (hx : s.fusedReady q = some x) (hu : s.readFused x = (u, 0, f)) (hk : pf f.p 0 1 = 5)
    (hok : stripeOk f.p = true) (hv : u.readLayers f = (v, 0, ls)) (hl : layersOk (ls.map slayer) = true)
    (hpool : tensorOk f.segs true (pf f.p 0x10 8) (pf f.p 0x18 4) = true)
    (hmem : (numbered (ls.map slayer)).all (fun e => e.2.tensorsOk f.segs (e.1 == ls.length)) = true) :
    s.startStripes q = (v.modCmd q (fun y => { y with
      begun := true, segs := f.segs, par := f.p, lays := ls
      wait := [(0, (lastHo (ls.map slayer) + stripeHs f.p - 1) / stripeHs f.p)] })).settleCmd q := by
  rw [State.startStripes, State.startFused_run hx hu hk]
  simp only [hok, if_true, hv, ne_eq, not_true_eq_false, if_false, List.length_map]
  exact State.fusedCheck_start hl (Bool.and_eq_true_iff.2 ⟨hpool, hmem⟩)

/-- A stripe that waits, with its rows committed and the pool of its predecessor by the depth free, is given to dispatch (R303). -/
theorem exec_stripeStart_dispatches (hv : (s.at τ).stripesDue q = v) (hx : v.cmd? q = some x) (hbegun : x.begun = true) (hlays : x.lays ≠ [])
    (hkind : x.par.headD 0 = 5) (hready : v.cmdReady x = true) (hwait : inTodo x.wait k = true) (hshard : v.ownShard (k % x.shards) = true)
    (hpool : stripeD x.par ≤ k → v.holdsPool x (k - stripeD x.par) = false) (hon : v.isOn bSCH = true) (hfence : v.fencing bSCH = false)
    (hrows : v.stripeReady x k = true) :
    exec (.stripeStart τ q k) s = .next (v.modCmd q (fun y => { y with wait := todoTake y.wait k, todo := todoPut y.todo k })) := by
  have hstripes : (x.par.headD 0 == 5) = true := beq_iff_eq.2 hkind
  have hfree : (decide (stripeD x.par ≤ k) && v.holdsPool x (k - stripeD x.par)) = false := by simpa using hpool
  simp only [exec_stripeStart, execStripeStart, hv, hx, hbegun, List.isEmpty_eq_false_iff.2 hlays, hstripes, hready, hwait, hshard, hfree, hon,
    hfence, hrows, Bool.not_false, Bool.and_self, if_true]

/-- The output size of R287 counts the positions whose window lies inside the padded input: the last one does, and one more does not. -/
theorem outSize_spec {i p0 p1 d w st : Nat} (hst : 1 ≤ st) (hw : d * (w - 1) + 1 ≤ i + p0 + p1) :
    st * (outSize i p0 p1 d w st - 1) + d * (w - 1) + 1 ≤ i + p0 + p1 ∧
    i + p0 + p1 < st * outSize i p0 p1 d w st + d * (w - 1) + 1 := by
  rw [outSize, if_neg (Nat.not_lt.2 hw), Nat.add_sub_cancel, Nat.mul_succ]
  have hle := Nat.mul_div_le (i + p0 + p1 - d * (w - 1) - 1) st
  have hlt := Nat.lt_mul_div_succ (i + p0 + p1 - d * (w - 1) - 1) hst
  rw [Nat.mul_succ] at hlt
  omega

end Commands

/-- Settles O41: every command passes the checks of `startFused` and then its own, and begins or ends by the first rule that it breaks. That the
parameters are judged before the tensors is log entry 55, that pooling, up-sampling and reduction have a tile for each output row is entry 57, and
how stripes are numbered is entry 60. -/
theorem fusedCommandsRun : Obligations.FusedCommandsRun := by
  refine ⟨fun s u τ q x f hx hu hk => ?conv, fun s u τ q x f hx hu hk => ?pool, fun s u τ q x f hx hu hk => ?up,
    fun s u τ q x f hx hu hk hn => ?plain, fun s u τ q x f hx hu hk hn ht v b hv hok hcv hmem => ?named,
    fun s u τ q x f hx hu hk => ⟨fun hok => ?refused, fun v ls hok hv hl hpool hmem => ?stripes⟩,
    fun s τ q k x => exec_stripeStart_dispatches rfl, fun i p0 p1 d k st => outSize_spec⟩
  case conv =>
    simpa only [exec_convolution, State.startConv, Host.Outcome.next.injEq] using State.startFused_check hx hu hk rfl
  case pool =>
    simpa only [exec_pooling, State.startPool, Host.Outcome.next.injEq] using State.startFused_check hx hu hk rfl
  case up =>
    simpa only [exec_upSampling, State.startUp, Host.Outcome.next.injEq] using State.startFused_check hx hu hk rfl
  case plain =>
    rw [exec_partialReduction, State.startReduce_plain hx hu hk hn, ← State.readFused_ptr hx hu]
    exact ⟨fun hok hmem => congrArg _ (State.fusedCheck_start hok hmem), fun hok => congrArg _ (State.fusedCheck_param hok)⟩
  case named =>
    rw [exec_partialReduction, State.startReduce_named hx hu hk hn ht hv,
      State.fusedCheck_start (Bool.and_eq_true_iff.2 ⟨hok, hcv⟩) hmem]
  case refused => rw [exec_stripeGroup, State.startStripes_refuses hx hu hk hok]
  case stripes => rw [exec_stripeGroup, State.startStripes_waits hx hu hk hok hv hl hpool hmem]

end Sys2Proof.Machine
end

section
/-!
PROOFS. A statement about the key-value cache that breaks where the write of an operation's status meets an uncorrectable error.
-/

namespace Sys2Proof.Machine

/-! ### A status written over an uncorrectable error -/

/-- The operation that opens sequence 5 for part 7 on port 0, with one layer of one page (R326). -/
def openFive : List Nat := [1, 0, 5, 0, 0, 0, 0, 1, 1, 0, 0, 0] ++ leBytes 4 7 ++ List.replicate 16 0

/-- A sequence control command that has begun; its list holds that operation alone, at address 0x4000. -/
def openFiveCmd : Cmd :=
  { kind := 1, begun := true, par := [8, 0, 1, 0, 0, 0, 0, 0] ++ leBytes 8 0x4000 ++ List.replicate 112 0, lays := [openFive] }

/-- The command in flight while sequence 5 is open for part 7, whose slot on port 0 has no verdict yet. The fallback inspector is sound and holds
`GOOD` for the part. The line of the list has two bad symbols, past correction, and four `MEM_UE` events have come within the second, as many as
the option bytes allow. -/
def switchingStatus : State :=
  { ((((({} : State).setFsm bKVC fON).setFsm bSCH fON).setFsm (bSTP 0) fON).setFsm (bEJT 0) fON).wr bHLT HLT_STAT_FB_OK 1 with
    sch := { cmds := [openFiveCmd] }
    kvc := { seqs := [(5, { state := 1, layers := 1, pages := 1, part := 7 })] }
    errs := [(0x4000, 34)]
    ejt := [(0, { slots := [(0, some { part := 7 })] })]
    hlt := { rules := [(0, dramRule)], ueAt := [0, 0, 0, 0], results := [(0, 7, 0)] } }

/-- The operation is refused. The write of its status reports the error, which is one `MEM_UE` too many: Halter switches port 0 (R486, R487), the
fallback result commits part 7, and the commit closes the part's sequences (R330). -/
theorem switchingStatus_seqOpen : ∃ t, exec (.seqOpen 0 0) switchingStatus = .next t ∧ t.seq 5 = {} := ⟨_, rfl, by decide +kernel⟩

/-- Refutes O42: its clause on the refusal of a sequence that is not free takes every state. On `switchingStatus` the write of the refusal's status
leads to the commit of the sequence's part, and the open sequence that was to stay unchanged is closed. -/
theorem not_keyValueCacheCommands : ¬ Obligations.KeyValueCacheCommands := by
  intro h
  obtain ⟨-, refused, -⟩ := h
  obtain ⟨t, ht, -, hsame⟩ := refused switchingStatus 0 0 openFiveCmd openFive (by decide) rfl rfl rfl (by decide) rfl (by decide) (by decide)
  obtain ⟨u, hu, hclosed⟩ := switchingStatus_seqOpen
  cases ht.symm.trans hu
  have hseq : ({} : KvSeq) = switchingStatus.seq 5 := by rw [← hclosed, State.seq, State.seq, hsame]
  exact absurd hseq (by decide)

end Sys2Proof.Machine
end

section
/-!
PROOFS. A step and its front command, and two statements that a state outside them breaks.
-/

namespace Sys2Proof.Machine

/-- Settles O1: both are `step`'s own cases, and `State.at` writes the time and the time base alone (log entry 1). -/
theorem stepRunsTheFrontCommand : Obligations.StepRunsTheFrontCommand := by
  refine ⟨fun c r s => rfl, fun s h => ?_, fun s => ?_⟩
  · simp [step, h]
  · have hlater : ¬ s.now + 2 ≤ s.now := by omega
    simp [State.at, hlater]

/-- Cluster 0 is fenced while its self-test runs. -/
def fencedSelftest : State := ({ clu := [(0, { test := some 0 })] } : State).setFsm (bCLU 0) fFENCED

/-- Refutes O48: its clause on a failed self-test takes every state. On `fencedSelftest` the cluster stays FENCED (R14), for a fence is not left
by a failure. -/
theorem not_epochsAreAnnouncedVotedAndApplied : ¬ Obligations.EpochsAreAnnouncedVotedAndApplied := by
  intro h
  obtain ⟨-, -, -, -, -, -, -, -, -, -, -, -, -, -, -, -, -, -, -, -, -, -, failed⟩ := h
  obtain ⟨t, ht, -, hfault⟩ := failed fencedSelftest 0 0 0 (by decide) rfl
  rw [← Host.Outcome.next.inj ht] at hfault
  exact absurd hfault (by decide)

/-- The descriptor of channel 0 at 0x1000, all zero, breaks R567. Before its fetch an uncorrectable error waits for its report, Halter switches at
the first one, and it holds for the part of an open slot a result whose counter in ejection unit 0 (R439) is the channel's counter of
broken descriptors. -/
def strayDmaVerdict : State :=
  { (((((({} : State).setFsm (bDMA 0) fON).setFsm (bSTP 0) fON).setFsm (bEJT 0) fON).wr bHLT HLT_STAT_FB_OK 1).wr (bDMA 0) DMA_CUR_LO 0x1000) with
    dma := { ch := [(0, { armed := true })] }, memu := { found := [{ kind := 2 }] }, opt := { ueSwitch := 0 }
    ejt := [(0, { slots := [(0, some { part := 1 })] })], hlt := { rules := [(0, dramRule)], results := [(0, 1, 25690118)] } }

/-- The report before the fetch commits the part, and the broken descriptor is counted twice. -/
theorem strayDmaVerdict_descriptorFetch :
    ∃ t, exec (.descriptorFetch 0 0) strayDmaVerdict = .next t ∧ t.cnt (bDMA 0) DMA_CNT_PARAM = 2 := ⟨_, rfl, by decide +kernel⟩

/-- Refutes O56: its clause on a descriptor that breaks the rules takes every state. On `strayDmaVerdict` the commit of a fallback result that is no
verdict counts in the same place, so that the counter of broken descriptors moves by 2. -/
theorem not_dmaFetchesCopiesAndCompletes : ¬ Obligations.DmaFetchesCopiesAndCompletes := by
  intro h
  obtain ⟨-, -, -, -, -, broken, -⟩ := h
  have hread : ((strayDmaVerdict.at 0).hwRead (0x100 + 0) (strayDmaVerdict.dmaCur 0) 64).2 = (0, List.replicate 64 0) := by decide +kernel
  obtain ⟨t, ht, hcount, -⟩ := broken strayDmaVerdict 0 0 _ (by decide) (by decide +kernel) hread rfl (.inl (by decide +kernel))
  obtain ⟨u, hu, htwo⟩ := strayDmaVerdict_descriptorFetch
  have hnone : strayDmaVerdict.cnt (bDMA 0) DMA_CNT_PARAM = 0 := by decide
  rw [Host.Outcome.next.inj (ht.symm.trans hu), htwo, hnone] at hcount
  exact absurd hcount (by decide)

end Sys2Proof.Machine
end

section
/-!
PROOFS. A voltage request that goes unanswered while the need has moved on, and a lost lane whose count is struck by a stray verdict.
-/

namespace Sys2Proof.Machine

/-- Cluster 0, active, runs at OP5, and rail 0 has waited 2 ms for the voltage of OP3. -/
def lateRail : State :=
  { ((({} : State).setFsm (bCLU 0) fON).wr (bCLU 0) CLU_CTRL_ROLE 0).wr bCLK (CLK_CLU_OP_OP_CUR 0) 5 with
    now := 2000000, pwr := { rails := [(0, { req := some (3, 0) })] } }

/-- The timeout is followed by the next request (R523), for the voltage of OP5. -/
theorem lateRail_avsTimeout : ∃ t, exec (.avsTimeout 0 0) lateRail = .next t ∧ (t.rail 0).req = some (5, 2000000) := ⟨_, rfl, by decide⟩

/-- Refutes O54: its clause on an unanswered request leaves none outstanding. On `lateRail` what the clusters need has changed meanwhile, and the
timeout asks for it at once. -/
theorem not_clocksCapDroopAndThermalLimits : ¬ Obligations.ClocksCapDroopAndThermalLimits := by
  intro h
  obtain ⟨-, -, -, timeout, -⟩ := h
  obtain ⟨t, ht, -, hnone, -⟩ := timeout lateRail 0 0 (3, 0) (by decide) rfl (by decide)
  obtain ⟨u, hu, hasks⟩ := lateRail_avsTimeout
  rw [Host.Outcome.next.inj (ht.symm.trans hu), hasks] at hnone
  exact absurd hnone (by decide)

/-- An attention command over the batch at 0x4000, whose only segment names sequence 0 and waits. -/
def waitingAttention : Cmd :=
  { kind := 1, begun := true, par := [6] ++ List.replicate 15 0 ++ leBytes 8 0x4000, lays := [List.replicate 32 0], sts := [0xFFFF], wait := [(0, 1)] }

/-- The link of the endpoint is up on lane 44, and an attention command waits for a sequence that is free. An uncorrectable error waits for its
report, Halter switches at the first one, and it holds for the part of an open slot a result whose counter in ejection unit 0 (R439) is
the lane's counter of lost locks. -/
def strayLaneVerdict : State :=
  { ((((((({} : State).setPstate 59 2).setFsm (bSDS 44) fON).wr (bSDS 44) SDS_STAT_CDR_LOCK 1).wr bPCIE PCIE_STAT_LINK_UP 1).setFsm (bSTP 0) fON).setFsm
      (bEJT 0) fON).wr bHLT HLT_STAT_FB_OK 1 with
    sch := { cmds := [waitingAttention] }, memu := { found := [{ kind := 2 }] }, opt := { ueSwitch := 0 }
    ejt := [(0, { slots := [(0, some { part := 1 })] })], hlt := { rules := [(0, dramRule)], results := [(0, 1, 54001667)] } }

/-- With the lane the link is lost, the waiting segment ends, the write of its status reports the error, and the loss is counted twice. -/
theorem strayLaneVerdict_cdrLockLoss :
    ∃ t, exec (.cdrLockLoss 0 44 false) strayLaneVerdict = .next t ∧ t.cnt (bSDS 44) SDS_CNT_LOCK_LOSS = 2 := ⟨_, rfl, by decide +kernel⟩

/-- Refutes O55: its clause on a lost lock counts one loss. On `strayLaneVerdict` the loss leads to the commit of a fallback result that is no
verdict, which counts in the same place. -/
theorem not_lanesFramesAndHostRequests : ¬ Obligations.LanesFramesAndHostRequests := by
  intro h
  obtain ⟨-, lost, -⟩ := h
  obtain ⟨t, ht, -, -, -, hcount⟩ := lost strayLaneVerdict 0 44 false (by decide +kernel) (by decide)
  obtain ⟨u, hu, htwo⟩ := strayLaneVerdict_cdrLockLoss
  have hnone : strayLaneVerdict.cnt (bSDS 44) SDS_CNT_LOCK_LOSS = 0 := by decide
  rw [Host.Outcome.next.inj (ht.symm.trans hu), htwo, hnone] at hcount
  exact absurd hcount (by decide)

end Sys2Proof.Machine
end

section
/-!
PROOFS. What an event leaves alone, of the whole state.
-/

namespace Sys2Proof.Machine

/-! ### Beside an event

An event writes records to memory and moves the indices and counts of its queues. One lemma `…_evtView` for each operation on that way says that
all else stays: everything that is neither memory nor a queue, and the registers and counters outside the event unit and the DRAM
controller's. -/

/-- Whether a place in the register map lies outside the event unit (block 6) and the DRAM controller (block 12). -/
def offEvents (k : Nat) : Bool := decide (k / 33554432 ≠ bEVQ ∧ k / 33554432 ≠ bMEM4)

/-- A store of registers or counters outside both units. -/
def evtRegs (l : Store Word) (d : Word) (k : Nat) : Word := if offEvents k then Store.get d l k else 0

/-- The state without memory and event queues. -/
def State.evtCore (s : State) : State :=
  { s with regs := [], live := [], mem := [], memu := {}, poison := [], errs := [], evqSeq := [], free := 0 }

/-- All that an event leaves. -/
def State.evtView (s : State) : State × (Word → Nat → Word) × (Word → Nat → Word) := (s.evtCore, evtRegs s.regs, evtRegs s.live)

section EvtView
variable {s t : State} {b n : Nat} {f : Fld}

theorem evtRegs_put {d v : Word} {l : Store Word} {j : Nat} (h : offEvents j = false) : evtRegs (Store.put d l j v) = evtRegs l := by
  funext d' k
  unfold evtRegs
  split
  next hk => exact Store.get_put_ne fun e => absurd (hk.symm.trans (e ▸ h)) (by decide)
  · rfl

theorem State.rd_of_evtView (hf : offEvents (fkey b f) = true) (h : t.evtView = s.evtView) : t.rd b f = s.rd b f := by
  have hr := congrFun (congrFun (congrArg (fun v => v.2.1) h) (BitVec.ofNat 32 f.rst)) (fkey b f)
  simp only [State.evtView, evtRegs, if_pos hf] at hr
  exact congrArg BitVec.toNat hr

theorem State.cnt_of_evtView (hf : offEvents (fkey b f) = true) (h : t.evtView = s.evtView) : t.cnt b f = s.cnt b f := by
  have hl := congrFun (congrFun (congrArg (fun v => v.2.2) h) 0#32) (fkey b f)
  simp only [State.evtView, evtRegs, if_pos hf] at hl
  exact congrArg BitVec.toNat hl

theorem State.core_of_evtView {α : Type} (g : State → α) (h : t.evtView = s.evtView) : g t.evtCore = g s.evtCore := congrArg (fun v => g v.1) h

theorem offEvents_fkey (hb : b ≠ bEVQ ∧ b ≠ bMEM4) (hf : f.off < 1048576 ∧ f.lo < 32) : offEvents (fkey b f) = true := by
  have hk : fkey b f / 33554432 = b := by unfold fkey; omega
  rw [offEvents, hk]
  exact decide_eq_true hb

/-- A field of a block past the DRAM controller lies outside, wherever it is. -/
theorem offEvents_above (hb : bMEM4 < b) (f : Fld) : offEvents (fkey b f) = true := by
  refine decide_eq_true ?_
  simp only [fkey, bMEM4, bEVQ] at hb ⊢
  omega

theorem State.wr_evtView (h : offEvents (fkey b f) = false) : (s.wr b f n).evtView = s.evtView := by
  rw [State.evtView, State.wr_regs, evtRegs_put h]
  rfl

theorem State.inc_evtView (h : offEvents (fkey b f) = false) : (s.inc b f n).evtView = s.evtView :=
  congrArg (fun l => (s.evtCore, evtRegs s.regs, l)) (evtRegs_put h)

theorem evtView_foldl_mem {α : Type} {g : State → α → State} {l : List α} (h : ∀ s, ∀ x ∈ l, (g s x).evtView = s.evtView) :
    (l.foldl g s).evtView = s.evtView := foldl_keeps State.evtView h

theorem State.touch_evtView (u : Nat) (wr : Bool) : (s.touch u wr).evtView = s.evtView := by
  unfold State.touch
  dsimp only
  split
  · rfl
  · split <;> rfl

theorem State.inject_evtView (a n : Nat) : (s.inject a n).evtView = s.evtView := by
  have h : (s.wr bMEM4 MEM4_INJ_ARM 0).evtView = s.evtView := State.wr_evtView (by decide)
  unfold State.inject
  split
  · exact h
  · exact h
  · rfl

theorem State.write_evtView (a : Nat) (bs : List Nat) : (s.write a bs).evtView = s.evtView :=
  (State.inject_evtView _ _).trans (evtView_foldl_mem fun _ _ _ => State.touch_evtView _ _)

theorem State.mergeQuiet_evtView (u : Nat) : (s.mergeQuiet u).evtView = s.evtView := by
  unfold State.mergeQuiet
  split
  · rfl
  · dsimp only
    split <;> rfl

theorem State.writeQuiet_evtView (a : Nat) (bs : List Nat) : (s.writeQuiet a bs).evtView = s.evtView :=
  (State.write_evtView _ _).trans (evtView_foldl_mem fun _ _ _ => State.mergeQuiet_evtView _)

theorem State.writeEdge_evtView (q w first : Nat) (l : List (Nat × List Nat)) : (s.writeEdge q w first l).evtView = s.evtView :=
  evtView_foldl_mem fun _ _ _ => State.writeQuiet_evtView _ _

theorem State.offer_evtView {q : Nat} (h : q < 4) (code flags blk status : Nat) (args : List Nat) :
    (s.offer q code flags blk status args).evtView = s.evtView := by
  have lost (t : State) : (t.inc bEVQ (EVQ_CNT_LOST q)).evtView = t.evtView :=
    State.inc_evtView (decide_eq_false (by simp only [fkey, bEVQ, EVQ_CNT_LOST]; omega))
  have moved (t : State) (n : Nat) : (t.wr bEVQ (EVQ_Q_WR q) n).evtView = t.evtView :=
    State.wr_evtView (decide_eq_false (by simp only [fkey, bEVQ, EVQ_Q_WR]; omega))
  have queued (x : Store EvQueue) : ({ s with evqSeq := x } : State).evtView = s.evtView := rfl
  unfold State.offer
  split
  · dsimp only
    split
    · rw [lost, queued]
    · split
      · rw [lost, State.writeEdge_evtView, queued]
      · rw [moved, State.writeEdge_evtView, queued]
  · rfl

theorem State.raise_evtView (code blk a1 a2 a3 status : Nat) : (s.raise code blk a1 a2 a3 status).evtView = s.evtView := by
  unfold State.raise State.raiseRaw
  rw [evtView_foldl_mem fun _ _ hq => State.offer_evtView (List.mem_range.1 hq) .., State.inc_evtView (by decide)]

/-! ### What an event leaves, field by field -/

section Raise
variable (code blk a1 a2 a3 status : Nat)

theorem State.raise_rd (hf : offEvents (fkey b f) = true) : (s.raise code blk a1 a2 a3 status).rd b f = s.rd b f :=
  State.rd_of_evtView hf (State.raise_evtView ..)

theorem State.raise_cnt (hf : offEvents (fkey b f) = true) : (s.raise code blk a1 a2 a3 status).cnt b f = s.cnt b f :=
  State.cnt_of_evtView hf (State.raise_evtView ..)

/-- What an event leaves of the state beside its registers. -/
theorem State.raise_field {α : Type} (g : State → α) (hg : ∀ s : State, g s.evtCore = g s) : g (s.raise code blk a1 a2 a3 status) = g s := by
  rw [← hg, State.core_of_evtView g (State.raise_evtView ..), hg]

@[simp] theorem State.raise_now : (s.raise code blk a1 a2 a3 status).now = s.now := State.raise_field code blk a1 a2 a3 status State.now fun _ => rfl
@[simp] theorem State.raise_tb : (s.raise code blk a1 a2 a3 status).tb = s.tb := State.raise_field code blk a1 a2 a3 status State.tb fun _ => rfl
@[simp] theorem State.raise_stp : (s.raise code blk a1 a2 a3 status).stp = s.stp := State.raise_field code blk a1 a2 a3 status State.stp fun _ => rfl
@[simp] theorem State.raise_follow : (s.raise code blk a1 a2 a3 status).follow = s.follow :=
  State.raise_field code blk a1 a2 a3 status State.follow fun _ => rfl
@[simp] theorem State.raise_ejt : (s.raise code blk a1 a2 a3 status).ejt = s.ejt := State.raise_field code blk a1 a2 a3 status State.ejt fun _ => rfl
@[simp] theorem State.raise_fieldSide : (s.raise code blk a1 a2 a3 status).field = s.field :=
  State.raise_field code blk a1 a2 a3 status State.field fun _ => rfl
@[simp] theorem State.raise_hlt : (s.raise code blk a1 a2 a3 status).hlt = s.hlt := State.raise_field code blk a1 a2 a3 status State.hlt fun _ => rfl
@[simp] theorem State.raise_opt : (s.raise code blk a1 a2 a3 status).opt = s.opt := State.raise_field code blk a1 a2 a3 status State.opt fun _ => rfl
@[simp] theorem State.raise_out : (s.raise code blk a1 a2 a3 status).out = s.out := State.raise_field code blk a1 a2 a3 status State.out fun _ => rfl
@[simp] theorem State.raise_sys : (s.raise code blk a1 a2 a3 status).sys = s.sys := State.raise_field code blk a1 a2 a3 status State.sys fun _ => rfl
@[simp] theorem State.raise_pwr : (s.raise code blk a1 a2 a3 status).pwr = s.pwr := State.raise_field code blk a1 a2 a3 status State.pwr fun _ => rfl
@[simp] theorem State.raise_sch : (s.raise code blk a1 a2 a3 status).sch = s.sch := State.raise_field code blk a1 a2 a3 status State.sch fun _ => rfl
@[simp] theorem State.raise_lnk : (s.raise code blk a1 a2 a3 status).lnk = s.lnk := State.raise_field code blk a1 a2 a3 status State.lnk fun _ => rfl
@[simp] theorem State.raise_active : (s.raise code blk a1 a2 a3 status).active = s.active :=
  State.raise_field code blk a1 a2 a3 status State.active fun _ => rfl

end Raise

end EvtView

end Sys2Proof.Machine
end

section
/-!
PROOFS. Ports of Traif Link: joining, hops, replays and going down.
-/

namespace Sys2Proof.Machine

/-! ### The inside of a port -/

section Ports
variable {s : State} {a p q : Nat}

@[simp] theorem State.setLinkPort_linkPort_same (x : LinkPort) : (s.setLinkPort p x).linkPort p = x := Store.get_put_same

theorem State.setLinkPort_linkPort_ne (h : p ≠ q) (x : LinkPort) : (s.setLinkPort p x).linkPort q = s.linkPort q := Store.get_put_ne h

theorem State.linkPort_congr {t : State} (h : t.lnk = s.lnk) : t.linkPort p = s.linkPort p := by rw [State.linkPort, h, State.linkPort]

@[simp] theorem State.at_linkPort (τ : Nat) : (s.at τ).linkPort p = s.linkPort p := State.linkPort_congr (State.at_lnk ..)
@[simp] theorem State.inc_linkPort (b n : Nat) (f : Fld) : (s.inc b f n).linkPort p = s.linkPort p := rfl
@[simp] theorem State.wr_linkPort (b n : Nat) (f : Fld) : (s.wr b f n).linkPort p = s.linkPort p := rfl
@[simp] theorem State.setPortState_linkPort (n : Nat) : (s.setPortState q n).linkPort p = s.linkPort p := rfl
@[simp] theorem State.mark_linkPort (k : Nat) : (s.mark k).linkPort p = s.linkPort p := rfl
@[simp] theorem State.setLinkPort_rd (x : LinkPort) (b : Nat) (f : Fld) : (s.setLinkPort p x).rd b f = s.rd b f := rfl
@[simp] theorem State.setLinkPort_cnt (x : LinkPort) (b : Nat) (f : Fld) : (s.setLinkPort p x).cnt b f = s.cnt b f := rfl
@[simp] theorem State.setLinkPort_out (x : LinkPort) : (s.setLinkPort p x).out = s.out := rfl
@[simp] theorem State.setLinkPort_now (x : LinkPort) : (s.setLinkPort p x).now = s.now := rfl
@[simp] theorem State.setLinkPort_modulePos (x : LinkPort) : (s.setLinkPort p x).modulePos = s.modulePos := rfl
@[simp] theorem State.setLinkPort_portUp (x : LinkPort) : (s.setLinkPort p x).portUp q = s.portUp q := rfl
@[simp] theorem State.inc_portUp (b n : Nat) (f : Fld) : (s.inc b f n).portUp p = s.portUp p := rfl
@[simp] theorem State.inc_modulePos (b n : Nat) (f : Fld) : (s.inc b f n).modulePos = s.modulePos := rfl
@[simp] theorem State.mark_portUp (k : Nat) : (s.mark k).portUp p = s.portUp p := rfl
@[simp] theorem State.mark_routeTo (k d : Nat) : (s.mark k).routeTo d = s.routeTo d := rfl
@[simp] theorem State.mark_cnt (k b : Nat) (f : Fld) : (s.mark k).cnt b f = s.cnt b f := rfl

theorem State.portUp_lt (h : s.portUp p = true) : p < 2 := by
  unfold State.portUp at h
  simp only [Bool.and_eq_true, decide_eq_true_eq] at h
  exact h.1.2

theorem State.portUp_joined (h : s.portUp p = true) : s.rd bLNK (LNK_PORT_STAT_PSTATE p) = 3 := by
  unfold State.portUp at h
  simp only [Bool.and_eq_true, beq_iff_eq] at h
  exact h.2

theorem State.portUp_on (h : s.portUp p = true) : s.lnkOn = true := by
  unfold State.portUp at h
  simp only [Bool.and_eq_true] at h
  exact h.1.1

theorem State.portUp_congr {t : State} (h : ∀ f, t.rd bLNK f = s.rd bLNK f) : t.portUp p = s.portUp p := by
  simp only [State.portUp, State.lnkOn, State.isOn, State.fsm, State.fencing, h]

/-! ### One frame -/

section PutFrame
variable {seq : Nat} {good : Bool} {f : Frame}

@[simp] theorem State.takeInj_lnk (l : List Nat) : (s.takeInj l).2.lnk = s.lnk ∧ (s.takeInj l).2.now = s.now ∧ (s.takeInj l).2.out = s.out ∧
    (s.takeInj l).2.regs = s.regs ∧ (s.takeInj l).2.live = s.live := by
  unfold State.takeInj
  split <;> exact ⟨rfl, rfl, rfl, rfl, rfl⟩

/-- A frame that leaves on a port moves the time of the port's last one. -/
theorem State.putFrame_linkPort_same : (s.putFrame p seq good f).linkPort p = { s.linkPort p with txAt := s.now } := by
  obtain ⟨hl, -⟩ := State.takeInj_lnk (s := s) (traifLanes p)
  rw [← State.linkPort_congr hl]
  exact Store.get_put_same

theorem State.putFrame_linkPort_ne (h : p ≠ q) : (s.putFrame p seq good f).linkPort q = s.linkPort q := by
  obtain ⟨hl, -⟩ := State.takeInj_lnk (s := s) (traifLanes p)
  rw [← State.linkPort_congr hl]
  exact Store.get_put_ne h

/-- What is sent of a frame: it may end with an inverted CRC, and one that is to end so does. -/
theorem State.putFrame_out : ∃ ok, (s.putFrame p seq good f).out = .frame p seq ok f (f.bytes seq ok) :: s.out ∧ (good = false → ok = false) := by
  obtain ⟨-, -, ho, -⟩ := State.takeInj_lnk (s := s) (traifLanes p)
  refine ⟨good && !(s.takeInj (traifLanes p)).1, ?_, fun h => by simp [h]⟩
  exact congrArg (_ :: ·) ho

@[simp] theorem State.putFrame_rd (b : Nat) (g : Fld) : (s.putFrame p seq good f).rd b g = s.rd b g := by
  obtain ⟨_, _, _, h⟩ := s.putFrame_sent p seq good f
  rw [h]
  rfl

@[simp] theorem State.putFrame_cnt (b : Nat) (g : Fld) : (s.putFrame p seq good f).cnt b g = s.cnt b g := by
  obtain ⟨_, _, _, h⟩ := s.putFrame_sent p seq good f
  rw [h]
  rfl

@[simp] theorem State.putFrame_now : (s.putFrame p seq good f).now = s.now := by
  obtain ⟨_, _, _, h⟩ := s.putFrame_sent p seq good f
  rw [h]
  rfl

@[simp] theorem State.putFrame_modulePos : (s.putFrame p seq good f).modulePos = s.modulePos := by simp [State.modulePos]

theorem State.putFrame_replay : ((s.putFrame p seq good f).linkPort q).replay = (s.linkPort q).replay := by
  by_cases h : p = q
  · rw [← h, State.putFrame_linkPort_same]
  · rw [State.putFrame_linkPort_ne h]

theorem State.putFrame_rx : ((s.putFrame p seq good f).linkPort q).rx = (s.linkPort q).rx := by
  by_cases h : p = q
  · rw [← h, State.putFrame_linkPort_same]
  · rw [State.putFrame_linkPort_ne h]

/-- A numbered frame that finds room waits in the replay buffer for its acknowledgement. -/
theorem State.queueFrame_replay (hu : s.portUp p = true) (hr : (s.linkPort p).replay.length < 64) :
    ((s.queueFrame p f).linkPort p).replay = (s.linkPort p).replay ++ [((s.linkPort p).tx, 0, f)] := by
  unfold State.queueFrame
  rw [hu, if_neg (by decide)]
  dsimp only
  rw [if_neg (by omega), State.putFrame_replay, State.setLinkPort_linkPort_same]

theorem State.queueFrame_linkPort_ne (h : p ≠ q) : (s.queueFrame p f).linkPort q = s.linkPort q := by
  unfold State.queueFrame
  split
  · rfl
  · dsimp only
    split
    · exact State.setLinkPort_linkPort_ne h _
    · rw [State.putFrame_linkPort_ne h, State.setLinkPort_linkPort_ne h]

@[simp] theorem State.queueFrame_rd (b : Nat) (g : Fld) : (s.queueFrame p f).rd b g = s.rd b g := by
  obtain ⟨_, _, _, h⟩ := s.queueFrame_sent p f
  rw [h]
  rfl

@[simp] theorem State.queueFrame_cnt (b : Nat) (g : Fld) : (s.queueFrame p f).cnt b g = s.cnt b g := by
  obtain ⟨_, _, _, h⟩ := s.queueFrame_sent p f
  rw [h]
  rfl

/-- A frame of this module's own to another one takes the way that leads there. -/
theorem State.sendFrame_to (h : f.dest ≠ toAll) : s.sendFrame f = s.queueFrame (s.routeTo f.dest) f := if_neg h

end PutFrame

/-! ### Receiving, acknowledging and asking again -/

@[simp] theorem State.sendLack_replay : ((s.sendLack a).linkPort q).replay = (s.linkPort q).replay := State.putFrame_replay

theorem State.sendLack_linkPort_ne (h : a ≠ q) : (s.sendLack a).linkPort q = s.linkPort q := State.putFrame_linkPort_ne h

@[simp] theorem State.sendLack_rd (b : Nat) (g : Fld) : (s.sendLack a).rd b g = s.rd b g := State.putFrame_rd ..

@[simp] theorem State.sendLack_cnt (b : Nat) (g : Fld) : (s.sendLack a).cnt b g = s.cnt b g := State.putFrame_cnt ..

/-- `LNAK` names the number that is awaited. -/
theorem State.sendLnak_out : ∃ ok, let f : Frame := { type := 0x7F, src := s.modulePos, dest := 0xFF, arg := (s.linkPort a).rx }
    (s.sendLnak a).out = .frame a 0 ok f (f.bytes 0 ok) :: s.out := by
  obtain ⟨ok, h, -⟩ := State.putFrame_out (s := s) (p := a) (seq := 0) (good := true)
    (f := { type := frLNAK, src := s.modulePos, dest := toAll, arg := (s.linkPort a).rx })
  exact ⟨ok, h⟩

@[simp] theorem State.sendLnak_cnt (b : Nat) (g : Fld) : (s.sendLnak a).cnt b g = s.cnt b g := State.putFrame_cnt ..

@[simp] theorem State.sendLnak_rx : ((s.sendLnak a).linkPort q).rx = (s.linkPort q).rx := State.putFrame_rx

@[simp] theorem State.hears_linkPort : (s.hears a).linkPort a = { s.linkPort a with rxAt := s.now } := State.setLinkPort_linkPort_same _

/-- A frame to another module moves the awaited number of the port it came in on, and nothing of another port. -/
theorem State.rxFrame_passing {f : Frame} (hf : f.dest ≠ toAll) : ((s.rxFrame a f).linkPort a).rx = ((s.linkPort a).rx + 1) % 65536 ∧
    (∀ q, a ≠ q → (s.rxFrame a f).linkPort q = s.linkPort q) ∧
    ∀ b g, fkey b g ≠ fkey bLNK LNK_CNT_POISON_RX → (s.rxFrame a f).cnt b g = s.cnt b g := by
  unfold State.rxFrame
  extract_lets x noted link heard counted acked
  have hcounted : ∀ q, counted.linkPort q = noted.linkPort q := by
    intro q
    unfold counted
    split <;> rfl
  have hend : (if f.dest = toAll && acked.passesOn a f then acked.forward a f else acked) = acked := by simp [hf]
  rw [hend]
  refine ⟨?_, fun q hq => ?_, fun b g hg => ?_⟩
  · exact State.putFrame_rx.trans ((congrArg LinkPort.rx (hcounted a)).trans (congrArg LinkPort.rx (State.setLinkPort_linkPort_same _)))
  · exact (State.sendLack_linkPort_ne hq).trans ((hcounted q).trans (State.setLinkPort_linkPort_ne hq _))
  · refine (State.sendLack_cnt ..).trans ?_
    unfold counted
    split
    · exact State.cnt_inc_ne hg.symm
    · rfl

/-! ### A port going down -/

/-- Registers and counters of Traif Link while the unacknowledged frames take the other way. -/
theorem State.resent_rd (l : List Frame) (b : Nat) (g : Fld) : (l.foldl State.sendFrame s).rd b g = s.rd b g ∧
    (l.foldl State.sendFrame s).cnt b g = s.cnt b g := by
  induction l generalizing s with
  | nil => exact ⟨rfl, rfl⟩
  | cons f l ih =>
    obtain ⟨hr, hc⟩ := ih (s := s.sendFrame f)
    have hlive : (s.sendFrame f).cnt b g = s.cnt b g := by simp [State.cnt]
    exact ⟨hr.trans (State.sendFrame_rd ..), hc.trans hlive⟩

theorem PSTATE_ne_LANES_UP (p : Nat) : fkey bLNK (LNK_PORT_STAT_PSTATE p) ≠ fkey bLNK (LNK_PORT_STAT_LANES_UP p) := by
  simp only [fkey, LNK_PORT_STAT_PSTATE, LNK_PORT_STAT_LANES_UP]
  omega

@[simp] theorem State.sendHello_rd (b : Nat) (g : Fld) : (s.sendHello p).rd b g = s.rd b g := by simp [State.sendHello]
@[simp] theorem State.sendHello_cnt (b : Nat) (g : Fld) : (s.sendHello p).cnt b g = s.cnt b g := by simp [State.sendHello]
@[simp] theorem State.sendHello_now : (s.sendHello p).now = s.now := by simp [State.sendHello]

theorem State.linkUp_state : (s.linkUp p).rd bLNK (LNK_PORT_STAT_PSTATE p) = 2 :=
  (State.sendHello_rd ..).trans (State.rd_wr_same _ _ _ _ (show 3 ≤ 32 by decide))

theorem State.linkUp_cnt (b : Nat) (g : Fld) : (s.linkUp p).cnt b g = s.cnt b g := by
  rw [State.linkUp, State.sendHello_cnt]
  rfl

/-- A port that has joined goes down, is counted, and starts over where lanes live. -/
theorem State.portDown_down (h : s.rd bLNK (LNK_PORT_STAT_PSTATE p) = 3) :
    (s.portDown p).rd bLNK (LNK_PORT_STAT_PSTATE p) = (if s.rd bLNK (LNK_PORT_STAT_LANES_UP p) = 0 then 0 else 2) ∧
    (s.portDown p).cnt bLNK (LNK_CNT_DOWN p) = satInc (s.cnt bLNK (LNK_CNT_DOWN p)) 1 := by
  rw [State.portDown, if_pos h]
  extract_lets x down fs resent
  have hoff (f : Fld) : offEvents (fkey bLNK f) = true := offEvents_above (by decide) f
  have hrd (f : Fld) : resent.rd bLNK f = (s.setPortState p 0).rd bLNK f := by
    have hdown : down.rd bLNK f = (s.setPortState p 0).rd bLNK f := State.raise_rd _ _ _ _ _ _ (hoff f)
    unfold resent
    split
    · exact (State.resent_rd fs bLNK f).1.trans hdown
    · exact hdown
  have hcnt : resent.cnt bLNK (LNK_CNT_DOWN p) = satInc (s.cnt bLNK (LNK_CNT_DOWN p)) 1 := by
    have hdown : down.cnt bLNK (LNK_CNT_DOWN p) = satInc (s.cnt bLNK (LNK_CNT_DOWN p)) 1 := by
      unfold down
      rw [State.raise_cnt _ _ _ _ _ _ (hoff _), State.cnt_inc]
      rfl
    unfold resent
    split
    · exact (State.resent_rd fs bLNK _).2.trans hdown
    · exact hdown
  have hlanes : resent.rd bLNK (LNK_PORT_STAT_LANES_UP p) = s.rd bLNK (LNK_PORT_STAT_LANES_UP p) :=
    (hrd _).trans (State.rd_wr_ne _ _ _ _ _ _ (PSTATE_ne_LANES_UP p))
  have hstate : resent.rd bLNK (LNK_PORT_STAT_PSTATE p) = 0 := (hrd _).trans (State.rd_wr_same _ _ _ _ (show 3 ≤ 32 by decide))
  rw [hlanes]
  by_cases hz : s.rd bLNK (LNK_PORT_STAT_LANES_UP p) = 0
  · rw [if_neg (fun hn => hn hz), if_pos hz]
    exact ⟨hstate, hcnt⟩
  · rw [if_pos hz, if_neg hz]
    exact ⟨State.linkUp_state, (State.linkUp_cnt ..).trans hcnt⟩

end Ports

end Sys2Proof.Machine
end

section
/-!
PROOFS. The statement on ports, hops and resets by Traif Link.
-/

namespace Sys2Proof.Machine

section Hello
variable {s : State} {τ a : Nat}

theorem State.peerCause_lt (s : State) (p major sysid pos topo modules clk : Nat) : s.peerCause p major sysid pos topo modules clk < 8 := by
  unfold State.peerCause
  dsimp only
  split_ifs <;> decide

/-- What speaks against a peer rests on this module's identity, position and clock alone. -/
theorem State.peerCause_congr {t : State} (hid : t.lnk.sysid = s.lnk.sysid) (hn : t.lnk.modules = s.lnk.modules)
    (htopo : t.rd bLNK LNK_SYSCFG_TOPO = s.rd bLNK LNK_SYSCFG_TOPO) (hpos : t.modulePos = s.modulePos) (hclk : t.clkSel = s.clkSel) :
    t.peerCause = s.peerCause := by
  funext p major sysid pos topo modules clk
  unfold State.peerCause State.peerOk State.isRing
  rw [hid, hn, htopo, hpos, hclk]

/-- A module answers `HELLO` on a port that has joined, and keeps the peer's version and position. -/
def State.meets (s : State) (a major pos : Nat) : State :=
  ((if s.rd bLNK (LNK_PORT_STAT_PSTATE a) = 3 then s.sendHello a else s).wr bLNK (LNK_PORT_STAT_PEER_MAJOR a) major).wr bLNK
    (LNK_PORT_STAT_PEER_POS a) pos

/-- The versions agreed with a peer: the lower of both. -/
def agreed (major minor : Nat) : Nat × Nat :=
  if major < linkMajor then (major, minor) else if linkMajor < major then (linkMajor, linkMinor) else (linkMajor, min linkMinor minor)

theorem agreed_major (major minor : Nat) : (agreed major minor).1 = min major linkMajor := by
  unfold agreed
  split_ifs <;> simp only <;> omega

/-- A port joins: numbers, buffers and versions start over. -/
def State.joins (s : State) (a major minor : Nat) : State :=
  let l := agreed major minor
  (s.setLinkPort a { rxAt := s.now, txAt := (s.linkPort a).txAt, helloAt := (s.linkPort a).helloAt, major := l.1, minor := l.2 }).setPortState a 3

theorem exec_hello {major minor sysid pos topo modules clk : Nat} (ho : s.lnkOn = true) (ha : a < 2)
    (hl : s.rd bLNK (LNK_PORT_STAT_LANES_UP a) ≠ 0) : exec (.hello τ a major minor sysid pos topo modules clk) s = .next (
    let m := (s.at τ).meets a major pos
    let c := m.peerCause a major sysid pos topo modules clk
    let s := m.wr bLNK (LNK_PORT_STAT_CAUSE a) c
    if c ≠ 0 then s.setPortState a 4
    else
      let s := s.joins a major minor
      if s.joined s.modulePos then s else s.setLnk { s.lnk with heard := Store.put 0 s.lnk.heard 0 s.now }) :=
  congrArg Host.Outcome.next (if_pos (by simp [ho, ha, hl]))

theorem State.sendHello_lnk (p : Nat) : (s.sendHello p).lnk.sysid = s.lnk.sysid ∧ (s.sendHello p).lnk.modules = s.lnk.modules := by
  unfold State.sendHello State.setLinkPort State.setLnk
  dsimp only
  generalize hf : ({ type := frHELLO, src := s.modulePos, dest := toAll
                     data := [(linkMajor : Int), linkMinor, s.lnk.sysid, s.modulePos,
                              s.rd bLNK LNK_SYSCFG_TOPO, s.lnk.modules, s.clkSel] } : Frame) = f
  obtain ⟨_, _, _, h⟩ := s.putFrame_sent p 0 true f
  rw [h]
  exact ⟨rfl, rfl⟩

@[simp] theorem State.meets_rd {f : Fld} {b major pos : Nat} (hm : fkey bLNK (LNK_PORT_STAT_PEER_MAJOR a) ≠ fkey b f)
    (hp : fkey bLNK (LNK_PORT_STAT_PEER_POS a) ≠ fkey b f) : (s.meets a major pos).rd b f = s.rd b f := by
  unfold State.meets
  rw [State.rd_wr_ne _ _ _ _ _ _ hp, State.rd_wr_ne _ _ _ _ _ _ hm]
  split
  · exact State.sendHello_rd ..
  · rfl

theorem State.meets_peerCause (s : State) {major pos : Nat} (ha : a < 2) : (s.meets a major pos).peerCause = s.peerCause := by
  have hlnk : (s.meets a major pos).lnk.sysid = s.lnk.sysid ∧ (s.meets a major pos).lnk.modules = s.lnk.modules := by
    have hwr : (s.meets a major pos).lnk = (if s.rd bLNK (LNK_PORT_STAT_PSTATE a) = 3 then s.sendHello a else s).lnk := rfl
    rw [hwr]
    split
    · exact State.sendHello_lnk a
    · exact ⟨rfl, rfl⟩
  have hrd {b : Nat} {f : Fld} (h : fkey b f < fkey bLNK (LNK_PORT_STAT_CAUSE 0)) : (s.meets a major pos).rd b f = s.rd b f :=
    State.meets_rd (by simp only [fkey, LNK_PORT_STAT_CAUSE, LNK_PORT_STAT_PEER_MAJOR] at h ⊢; omega)
      (by simp only [fkey, LNK_PORT_STAT_CAUSE, LNK_PORT_STAT_PEER_POS] at h ⊢; omega)
  exact State.peerCause_congr hlnk.1 hlnk.2 (hrd (by decide)) (hrd (by decide)) (hrd (by decide))

theorem State.at_peerCause (s : State) (τ : Nat) : (s.at τ).peerCause = s.peerCause :=
  State.peerCause_congr (by simp) (by simp) (by simp) (by simp) (by simp)

/-- The fields of a port's status register lie apart. -/
theorem portFields_ne (p : Nat) : fkey bLNK (LNK_PORT_STAT_PSTATE p) ≠ fkey bLNK (LNK_PORT_STAT_CAUSE p) ∧
    fkey bLNK (LNK_PORT_STAT_PSTATE p) ≠ fkey bLNK (LNK_PORT_STAT_PEER_POS p) ∧
    fkey bLNK (LNK_PORT_STAT_CAUSE p) ≠ fkey bLNK (LNK_PORT_STAT_PEER_POS p) := by
  simp only [fkey, LNK_PORT_STAT_PSTATE, LNK_PORT_STAT_CAUSE, LNK_PORT_STAT_PEER_POS]
  omega

theorem State.meets_peerPos (s : State) (major pos : Nat) : (s.meets a major pos).rd bLNK (LNK_PORT_STAT_PEER_POS a) = pos % 16 :=
  State.rd_wr_same _ _ _ _ (show 4 ≤ 32 by decide)

theorem hello_joins {major minor sysid pos topo modules clk : Nat} (ho : s.lnkOn = true) (ha : a < 2)
    (hl : s.rd bLNK (LNK_PORT_STAT_LANES_UP a) ≠ 0) (hc : s.peerCause a major sysid pos topo modules clk = 0) :
    Completes (.hello τ a major minor sysid pos topo modules clk) s (fun t =>
      t.rd bLNK (LNK_PORT_STAT_PSTATE a) = 3 ∧ t.rd bLNK (LNK_PORT_STAT_CAUSE a) = 0 ∧ t.rd bLNK (LNK_PORT_STAT_PEER_POS a) = pos % 16 ∧
      (t.linkPort a).major = min major linkMajor ∧ (t.linkPort a).replay = [] ∧ (t.linkPort a).rxAt = t.now) := by
  refine ⟨_, exec_hello ho ha hl, ?_⟩
  extract_lets m c noted joined
  have hzero : c = 0 := (congrFun (congrFun (congrFun (congrFun (congrFun (congrFun (congrFun
    (((s.at τ).meets_peerCause ha).trans (s.at_peerCause τ)) a) major) sysid) pos) topo) modules) clk).trans hc
  rw [if_neg (fun h => h hzero)]
  obtain ⟨hsc, hsp, hcp⟩ := portFields_ne a
  have hstate : joined.rd bLNK (LNK_PORT_STAT_PSTATE a) = 3 := State.rd_wr_same _ _ _ _ (show 3 ≤ 32 by decide)
  have hcause : joined.rd bLNK (LNK_PORT_STAT_CAUSE a) = 0 := by
    refine (State.rd_wr_ne _ _ _ _ _ _ hsc).trans ((State.rd_wr_same _ _ _ _ (show 3 ≤ 32 by decide)).trans ?_)
    rw [hzero]
    rfl
  have hpos : joined.rd bLNK (LNK_PORT_STAT_PEER_POS a) = pos % 16 :=
    (State.rd_wr_ne _ _ _ _ _ _ hsp).trans ((State.rd_wr_ne _ _ _ _ _ _ hcp).trans (State.meets_peerPos ..))
  have hport : joined.linkPort a = { rxAt := noted.now, txAt := (noted.linkPort a).txAt, helloAt := (noted.linkPort a).helloAt
                                     major := (agreed major minor).1, minor := (agreed major minor).2 } :=
    State.setLinkPort_linkPort_same _
  have hend : (joined.linkPort a).major = min major linkMajor ∧ (joined.linkPort a).replay = [] ∧ (joined.linkPort a).rxAt = joined.now := by
    rw [hport]
    exact ⟨agreed_major .., rfl, rfl⟩
  split
  · exact ⟨hstate, hcause, hpos, hend⟩
  · exact ⟨hstate, hcause, hpos, hend⟩

theorem hello_rejects {major minor sysid pos topo modules clk : Nat} (ho : s.lnkOn = true) (ha : a < 2)
    (hl : s.rd bLNK (LNK_PORT_STAT_LANES_UP a) ≠ 0) (hc : s.peerCause a major sysid pos topo modules clk ≠ 0) :
    Completes (.hello τ a major minor sysid pos topo modules clk) s (fun t =>
      t.rd bLNK (LNK_PORT_STAT_PSTATE a) = 4 ∧
      t.rd bLNK (LNK_PORT_STAT_CAUSE a) = s.peerCause a major sysid pos topo modules clk) := by
  refine ⟨_, exec_hello ho ha hl, ?_⟩
  extract_lets m c noted joined
  have hsame : c = s.peerCause a major sysid pos topo modules clk := by
    unfold c m
    rw [State.meets_peerCause _ ha, State.at_peerCause]
  rw [if_pos (hsame ▸ hc)]
  obtain ⟨hsc, -, -⟩ := portFields_ne a
  refine ⟨State.rd_wr_same _ _ _ _ (show 3 ≤ 32 by decide), (State.rd_wr_ne _ _ _ _ _ _ hsc).trans
    ((State.rd_wr_same _ _ _ _ (show 3 ≤ 32 by decide)).trans ?_)⟩
  rw [hsame]
  exact Nat.mod_eq_of_lt (State.peerCause_lt ..)

end Hello

section Hops
variable {s : State} {τ a : Nat}

theorem State.at_routeTo (s : State) (τ d : Nat) : (s.at τ).routeTo d = s.routeTo d := by
  simp only [State.routeTo, State.at_modulePos, State.at_isRing, State.at_portUp, State.at_lnk]

theorem helloRetry_sends (ho : s.lnkOn = true) (ha : a < 2)
    (hst : s.rd bLNK (LNK_PORT_STAT_PSTATE a) = 4 ∨ s.rd bLNK (LNK_PORT_STAT_PSTATE a) = 2)
    (hdue : (s.linkPort a).helloAt + 100000000 ≤ (s.at τ).now) :
    Completes (.helloRetry τ a) s (fun t =>
      (t.linkPort a).helloAt = t.now ∧ ∃ g f, t.out = .frame a 0 g f (f.bytes 0 g) :: s.out ∧ f.type = 0x40) := by
  refine ⟨(s.at τ).sendHello a, congrArg Host.Outcome.next (if_pos (by simp [ho, ha, hst, hdue])), ?_, ?_⟩
  · rw [State.sendHello_now, State.sendHello, State.setLinkPort_linkPort_same]
    simp
  · obtain ⟨g, h, -⟩ := State.putFrame_out (s := s.at τ) (p := a) (seq := 0) (good := true)
      (f := { type := frHELLO, src := (s.at τ).modulePos, dest := toAll
              data := [(linkMajor : Int), linkMinor, (s.at τ).lnk.sysid, (s.at τ).modulePos,
                       (s.at τ).rd bLNK LNK_SYSCFG_TOPO, (s.at τ).lnk.modules, (s.at τ).clkSel] })
    exact ⟨g, _, h.trans (by rw [State.at_out]), rfl⟩

/-- Ports that have sent nothing for 10 µs acknowledge again; what waits for its own acknowledgement stays. -/
theorem State.sendLacks_replay (l : List Nat) (q : Nat) : ((l.foldl (fun s p =>
    if s.portUp p && decide ((s.linkPort p).txAt + 10000 ≤ s.now) then s.sendLack p else s) s).linkPort q).replay = (s.linkPort q).replay := by
  refine foldl_keeps (fun s : State => (s.linkPort q).replay) fun s p _ => ?_
  split
  · exact State.sendLack_replay
  · rfl

theorem heartbeatSend_queues (ho : s.lnkOn = true) (hm : s.modulePos ≠ 0) (hdue : (s.at τ).due perBeat 10000 = true)
    (hu : s.portUp (s.routeTo 0) = true) (hr : (s.linkPort (s.routeTo 0)).replay.length < 64) :
    Completes (.heartbeatSend τ) s (fun t =>
      (t.linkPort (s.routeTo 0)).replay = (s.linkPort (s.routeTo 0)).replay ++
        [((s.linkPort (s.routeTo 0)).tx, 0, { type := 0x41, src := s.modulePos, arg := s.modulePos })]) := by
  refine ⟨_, congrArg Host.Outcome.next (if_pos (by simp [ho])), ?_⟩
  dsimp only
  rw [State.sendLacks_replay, if_neg (by simp [hm, hdue]), State.sendFrame_to (show (0 : Nat) ≠ 255 by decide)]
  have hroute : ((s.at τ).mark perBeat).routeTo 0 = s.routeTo 0 := State.at_routeTo s τ 0
  have hframe : (s.at τ).frame frHEARTBEAT 0 (s.at τ).modulePos [] = { type := 0x41, src := s.modulePos, arg := s.modulePos } := by
    rw [State.frame, State.at_modulePos]
    rfl
  rw [hframe, hroute, State.queueFrame_replay (by simpa using hu) (by simpa using hr)]
  simp

/-! ### Acknowledgements -/

theorem lack_removes {n : Nat} (hu : s.portUp a = true) (hw : (s.linkPort a).wait = []) :
    Completes (.lack τ a n) s (fun t =>
      (t.linkPort a).replay = acked n (s.linkPort a).replay ∧ (t.linkPort a).tx = (s.linkPort a).tx ∧ t.out = s.out) := by
  refine ⟨_, congrArg Host.Outcome.next (if_pos ((s.at_portUp τ a).trans hu)), ?_⟩
  simp [State.flushPort, hw]
  exact State.at_out ..

/-- The frames from number `n` on, which `LNAK` asks for again. -/
def State.unacked (s : State) (a n : Nat) : List (Nat × Nat × Frame) := (s.linkPort a).replay.dropWhile (fun r => r.1 != n)

/-- Frames sent again leave the replay buffers and the counters as they are. -/
theorem State.putFrames_keeps (l : List (Nat × Nat × Frame)) (q b : Nat) (g : Fld) :
    ((l.foldl (fun s r => s.putFrame a r.1 true r.2.2) s).linkPort q).replay = (s.linkPort q).replay ∧
    (l.foldl (fun s r => s.putFrame a r.1 true r.2.2) s).cnt b g = s.cnt b g :=
  ⟨foldl_keeps (fun s : State => (s.linkPort q).replay) fun _ _ _ => State.putFrame_replay,
    foldl_keeps (fun s : State => s.cnt b g) fun _ _ _ => State.putFrame_cnt ..⟩

theorem lnak_replays {n : Nat} (hu : s.portUp a = true) (h9 : (s.unacked a n).any (fun r => decide (8 ≤ r.2.1)) = false) :
    Completes (.lnak τ a n) s (fun t =>
      (t.linkPort a).replay = (s.linkPort a).replay.takeWhile (fun r => r.1 != n) ++ (s.unacked a n).map (fun r => (r.1, r.2.1 + 1, r.2.2)) ∧
      t.cnt bLNK (LNK_CNT_REPLAY a) = satInc (s.cnt bLNK (LNK_CNT_REPLAY a)) (s.unacked a n).length) := by
  have hport : (((s.at τ).hears a).linkPort a).replay = (s.linkPort a).replay := by simp
  refine ⟨_, congrArg Host.Outcome.next (if_pos ((s.at_portUp τ a).trans hu)), ?_⟩
  dsimp only
  rw [hport, ← State.unacked, if_neg (by rw [h9]; decide)]
  refine ⟨?_, ?_⟩
  · rw [State.inc_linkPort, (State.putFrames_keeps _ a bLNK LNK_CNT_FWD).1, State.setLinkPort_linkPort_same]
  · rw [State.cnt_inc, (State.putFrames_keeps _ a _ _).2, State.setLinkPort_cnt]
    exact congrArg (satInc · _) (State.at_cnt ..)

/-- A frame would be sent a ninth time: the port goes down (R380). -/
theorem lnak_goesDown {n : Nat} (hu : s.portUp a = true) (h9 : (s.unacked a n).any (fun r => decide (8 ≤ r.2.1)) = true) :
    Completes (.lnak τ a n) s (fun t =>
      t.rd bLNK (LNK_PORT_STAT_PSTATE a) = (if s.rd bLNK (LNK_PORT_STAT_LANES_UP a) = 0 then 0 else 2) ∧
      t.cnt bLNK (LNK_CNT_DOWN a) = satInc (s.cnt bLNK (LNK_CNT_DOWN a)) 1) := by
  have hport : (((s.at τ).hears a).linkPort a).replay = (s.linkPort a).replay := by simp
  refine ⟨_, congrArg Host.Outcome.next (if_pos ((s.at_portUp τ a).trans hu)), ?_⟩
  dsimp only
  rw [hport, ← State.unacked, if_pos h9]
  have hdown := State.portDown_down (s := (s.at τ).hears a) (p := a) ((State.at_rd ..).trans (State.portUp_joined hu))
  have hrd (f : Fld) : ((s.at τ).hears a).rd bLNK f = s.rd bLNK f := State.at_rd ..
  have hcnt (f : Fld) : ((s.at τ).hears a).cnt bLNK f = s.cnt bLNK f := State.at_cnt ..
  rwa [hrd, hcnt] at hdown

theorem linkPortTimeout_goesDown (hu : s.portUp a = true) (hq : (s.linkPort a).rxAt + 30000 ≤ (s.at τ).now) :
    Completes (.linkPortTimeout τ a) s (fun t =>
      t.rd bLNK (LNK_PORT_STAT_PSTATE a) = (if s.rd bLNK (LNK_PORT_STAT_LANES_UP a) = 0 then 0 else 2) ∧
      t.cnt bLNK (LNK_CNT_DOWN a) = satInc (s.cnt bLNK (LNK_CNT_DOWN a)) 1) := by
  refine ⟨(s.at τ).portDown a, congrArg Host.Outcome.next (if_pos (by simp [hu, hq])), ?_⟩
  have hdown := State.portDown_down (s := s.at τ) (p := a) ((State.at_rd ..).trans (State.portUp_joined hu))
  rwa [State.at_rd, State.at_cnt] at hdown

theorem linkPortTimeout_waits (hq : (s.at τ).now < (s.linkPort a).rxAt + 30000) : exec (.linkPortTimeout τ a) s = .next (s.at τ) :=
  congrArg Host.Outcome.next (if_neg (by simp; omega))

/-! ### Frames that are bad, and frames on their way -/

/-- A frame of any port is followed by the `LNAK` of port `a`, with the number that is awaited there. -/
theorem State.sendLnak_answers (hrx : (s.linkPort a).rx = n) (hm : s.modulePos = m) : ∃ (g : Bool) (f : Frame),
    f = { type := 0x7F, src := m, dest := 0xFF, arg := n } ∧ (s.sendLnak a).out = .frame a 0 g f (f.bytes 0 g) :: s.out := by
  obtain ⟨g, h⟩ := State.sendLnak_out (s := s) (a := a)
  rw [hrx, hm] at h
  exact ⟨g, _, rfl, h⟩

theorem frameBadCrc_answers (gap : Bool) (hu : s.portUp a = true) :
    Completes (.frameBadCrc τ a gap) s (fun t =>
      t.cnt bLNK (LNK_CNT_CRC a) = (if gap then s.cnt bLNK (LNK_CNT_CRC a) else satInc (s.cnt bLNK (LNK_CNT_CRC a)) 1) ∧
      (t.linkPort a).rx = (s.linkPort a).rx ∧ ∃ (g : Bool) (f : Frame), f = { type := 0x7F, src := s.modulePos, dest := 0xFF, arg := (s.linkPort a).rx } ∧
        t.out = .frame a 0 g f (f.bytes 0 g) :: s.out) := by
  refine ⟨_, congrArg Host.Outcome.next (if_pos ((s.at_portUp τ a).trans hu)), ?_⟩
  cases gap with
  | true =>
    obtain ⟨g, f, hf, ho⟩ := State.sendLnak_answers (s := s.at τ) (a := a) (by rw [State.at_linkPort]) (State.at_modulePos ..)
    refine ⟨(State.sendLnak_cnt ..).trans (State.at_cnt ..), by simp, g, f, hf, ?_⟩
    rw [State.at_out] at ho
    exact ho
  | false =>
    obtain ⟨g, f, hf, ho⟩ := State.sendLnak_answers (s := (s.at τ).inc bLNK (LNK_CNT_CRC a)) (a := a) (n := (s.linkPort a).rx)
      (m := s.modulePos) (by simp) (by simp)
    refine ⟨(State.sendLnak_cnt ..).trans ((State.cnt_inc ..).trans (congrArg (satInc · 1) (State.at_cnt ..))), by simp, g, f, hf, ?_⟩
    rw [State.inc_out, State.at_out] at ho
    exact ho

theorem frameForward_forwards {type src dest arg tag : Nat} {poison : Bool} {data : List Int} (hu : s.portUp a = true)
    (hd : dest ≠ s.modulePos) (hall : dest ≠ 0xFF) (ho : s.portUp (1 - a) = true) (hr : (s.linkPort (1 - a)).replay.length < 64) :
    Completes (.frameForward τ a type src dest arg tag poison true data) s (fun t =>
      (t.linkPort (1 - a)).replay = (s.linkPort (1 - a)).replay ++ [((s.linkPort (1 - a)).tx, 0, { type := type, src := src, dest := dest, arg := arg, tag := tag, poison := poison, data := data })] ∧
      t.cnt bLNK LNK_CNT_FWD = satInc (s.cnt bLNK LNK_CNT_FWD) 1 ∧ (t.linkPort a).rx = ((s.linkPort a).rx + 1) % 65536) := by
  have hne : a ≠ 1 - a := by have := State.portUp_lt hu; omega
  generalize hf : ({ type := type, src := src, dest := dest, arg := arg, tag := tag, poison := poison, data := data } : Frame) = f
  have hdest : f.dest ≠ toAll := by rw [← hf]; exact hall
  have hexec : exec (.frameForward τ a type src dest arg tag poison true data) s = .next (((s.at τ).rxFrame a f).forward a f) := by
    rw [← hf]
    exact congrArg Host.Outcome.next ((if_pos ⟨(s.at_portUp τ a).trans hu, by rwa [State.at_modulePos], .inl hall⟩).trans (if_pos rfl))
  obtain ⟨hrx, hother, hcnt⟩ := State.rxFrame_passing (s := s.at τ) (a := a) hdest
  have hport := hother _ hne
  rw [State.at_linkPort] at hport hrx
  have hup : ((s.at τ).rxFrame a f).portUp (1 - a) = true := by
    rw [State.portUp_congr fun g => State.rxFrame_rd a f bLNK g, State.at_portUp, ho]
  refine ⟨_, hexec, ?_⟩
  dsimp only
  rw [State.forward, if_pos hup, State.inc_linkPort, State.inc_linkPort, State.queueFrame_replay hup (by rwa [hport]), hport,
    State.queueFrame_linkPort_ne hne.symm, State.cnt_inc, State.queueFrame_cnt, hcnt _ _ (by decide), State.at_cnt]
  exact ⟨rfl, rfl, hrx⟩

theorem frameForward_corrupt {type src dest arg tag : Nat} {poison : Bool} {data : List Int} {h : Frame} (hu : s.portUp a = true)
    (hd : dest ≠ s.modulePos) (hh : h = { type := type, src := src, dest := dest, arg := arg, tag := tag, poison := poison, data := data })
    (hall : dest = 0xFF → s.passesOn a h = true) (ho : s.portUp (1 - a) = true) :
    Completes (.frameForward τ a type src dest arg tag poison false data) s (fun t =>
      t.cnt bLNK (LNK_CNT_CRC a) = satInc (s.cnt bLNK (LNK_CNT_CRC a)) 1 ∧ (t.linkPort a).rx = (s.linkPort a).rx ∧
      ∃ (g : Bool) (f : Frame), f = { type := 0x7F, src := s.modulePos, dest := 0xFF, arg := (s.linkPort a).rx } ∧
        t.out = .frame a 0 g f (f.bytes 0 g) :: .frame (1 - a) (s.linkPort (1 - a)).tx false h (h.bytes (s.linkPort (1 - a)).tx false) :: s.out) := by
  have hne : 1 - a ≠ a := by have := State.portUp_lt hu; omega
  have hpass : (s.at τ).passesOn a h = s.passesOn a h := by simp only [State.passesOn, State.at_isRing, State.at_modulePos, State.at_lnk]
  have hexec : exec (.frameForward τ a type src dest arg tag poison false data) s =
      .next ((((s.at τ).putFrame (1 - a) ((s.at τ).linkPort (1 - a)).tx false h).inc bLNK (LNK_CNT_CRC a)).sendLnak a) := by
    rw [hh] at hpass hall ⊢
    refine congrArg Host.Outcome.next ((if_pos ⟨(s.at_portUp τ a).trans hu, by rwa [State.at_modulePos], ?way⟩).trans ?sent)
    case way =>
      by_cases hb : dest = 0xFF
      · exact .inr ⟨rfl, hpass.trans (hall hb)⟩
      · exact .inl hb
    case sent => rw [if_neg (by decide), if_pos ((s.at_portUp τ _).trans ho)]
  have hrx : (((s.at τ).putFrame (1 - a) ((s.at τ).linkPort (1 - a)).tx false h).linkPort a).rx = (s.linkPort a).rx := by
    rw [State.putFrame_rx, State.at_linkPort]
  obtain ⟨ok, hput, hbad⟩ := State.putFrame_out (s := s.at τ) (p := 1 - a) (seq := ((s.at τ).linkPort (1 - a)).tx) (good := false) (f := h)
  obtain ⟨g, f, hf, hout⟩ := State.sendLnak_answers
    (s := ((s.at τ).putFrame (1 - a) ((s.at τ).linkPort (1 - a)).tx false h).inc bLNK (LNK_CNT_CRC a)) (a := a) (n := (s.linkPort a).rx)
    (m := s.modulePos) hrx (by simp)
  refine ⟨_, hexec, ?_, ?_, g, f, hf, ?_⟩
  · rw [State.sendLnak_cnt, State.cnt_inc, State.putFrame_cnt, State.at_cnt]
  · rw [State.sendLnak_rx, State.inc_linkPort, hrx]
  · rw [hout, State.inc_out, hput, hbad rfl, State.at_linkPort, State.at_out]

/-! ### Keyed writes (R383) -/

theorem State.lnkKeyed_takes {i off v : Nat} {k : State → State} (hi : s.mgmtOrHost i = true) (hd : s.domOn bLNK = true)
    (hv : bits v 16 16 = 0xA5C3) : (s.at τ).lnkKeyed i off v k = k (s.at τ) := by
  rw [State.lnkKeyed, if_neg (by simp [hi]), if_neg (by simp [hd, hv])]

theorem State.lnkKeyed_denies {i off v : Nat} {k : State → State} (hi : s.mgmtOrHost i = false) :
    (s.at τ).lnkKeyed i off v k = (s.at τ).deny i true (regBase + bLNK * 0x100000 + off) := by
  rw [State.lnkKeyed, if_pos (by simp [hi])]

theorem State.lnkKeyed_ignores {i off v : Nat} {k : State → State} (hi : s.mgmtOrHost i = true) (hv : bits v 16 16 ≠ 0xA5C3) :
    (s.at τ).lnkKeyed i off v k = s.at τ := by
  rw [State.lnkKeyed, if_neg (by simp [hi]), if_pos (.inr hv)]

theorem exec_lnkResetreq (i v : Nat) : exec (.lnkResetreq τ i v) s = .next ((s.at τ).lnkKeyed i 0x1E0 v (fun s =>
    if bit v 8 = 1 ∧ s.lnkOn ∧ bits v 0 4 ≠ s.modulePos then s.sendFrame (s.frame frRESET_REQ (bits v 0 4) 0 []) else s)) := rfl

theorem exec_lnkAssign (i v : Nat) : exec (.lnkAssign τ i v) s = .next ((s.at τ).lnkKeyed i 0x104 v (fun s =>
    s.idEvent [(0x140, leBytes 8 (s.rd64 bLNK LNK_SYSID_LO LNK_SYSID_HI)), (0x148, [bits v 0 4, bit v 8])])) := rfl

theorem lnkResetreq_sends {i v : Nat} (hi : s.mgmtOrHost i = true) (hd : s.domOn bLNK = true) (hv : bits v 16 16 = 0xA5C3)
    (hb : bit v 8 = 1) (ho : s.lnkOn = true) (hm : bits v 0 4 ≠ s.modulePos) :
    exec (.lnkResetreq τ i v) s = .next ((s.at τ).sendFrame { type := 0x50, src := s.modulePos, dest := bits v 0 4 }) := by
  rw [exec_lnkResetreq, State.lnkKeyed_takes hi hd hv, if_pos ⟨hb, (s.at_lnkOn τ).trans ho, by rwa [State.at_modulePos]⟩, State.frame,
    State.at_modulePos]
  rfl

theorem lnkAssign_starts {i v : Nat} (hi : s.mgmtOrHost i = true) (hd : s.domOn bLNK = true) (hv : bits v 16 16 = 0xA5C3) :
    exec (.lnkAssign τ i v) s = .next ((s.at τ).idEvent
      [(0x140, leBytes 8 (s.rd64 bLNK LNK_SYSID_LO LNK_SYSID_HI)), (0x148, [bits v 0 4, bit v 8])]) := by
  rw [exec_lnkAssign, State.lnkKeyed_takes hi hd hv, State.at_rd64]

end Hops

/-- Settles O46. The `LNAK` frames go to the neighbour under the broadcast destination 0xFF (log entry 120, a design choice), and what is answered
with them follows log entry 82. -/
theorem portsJoinHopAndGoDown : Obligations.PortsJoinHopAndGoDown :=
  ⟨fun _ _ _ _ _ _ _ _ _ _ => hello_joins, fun _ _ _ _ _ _ _ _ _ _ => hello_rejects, fun _ _ _ => helloRetry_sends,
    fun _ _ => heartbeatSend_queues, fun _ _ _ _ => lack_removes, fun _ _ _ _ => lnak_replays, fun _ _ _ _ => lnak_goesDown,
    fun _ _ _ gap => frameBadCrc_answers gap, fun _ _ _ _ _ _ _ _ _ _ => frameForward_forwards,
    fun _ _ _ _ _ _ _ _ _ _ _ => frameForward_corrupt, fun _ _ _ => linkPortTimeout_goesDown, fun _ _ _ => linkPortTimeout_waits,
    fun _ _ _ _ => lnkResetreq_sends,
    fun _ _ i v hi => (exec_lnkResetreq i v).trans (congrArg Host.Outcome.next (State.lnkKeyed_denies hi)),
    fun _ _ _ _ => lnkAssign_starts,
    fun _ _ i v hi hv => (exec_lnkAssign i v).trans (congrArg Host.Outcome.next (State.lnkKeyed_ignores hi hv))⟩

end Sys2Proof.Machine
end

section
/-!
PROOFS. What the Halter's reactions, error reports and memory accesses leave alone, of the whole state.
-/

namespace Sys2Proof.Machine

/-! ### The part of the state that reactions leave

A memory access may find an error, its report may switch ports to the fallback inspector, a switch may commit parts, and a commit may free
sequences and contexts. `State.steady` is what all of them leave; there is one lemma `…_steady` for each operation on that way. -/

/-- The registers of the power sequencer, the Halter and the scheduler that reactions, refusals and wake events write. -/
def reactionFields : List Nat :=
  [fkey bPWR PWR_STAT_STATE, fkey bPWR PWR_STAT_ABANDONED, fkey bPWR PWR_STAT_STEP, fkey bPWR PWR_WAKE_CAUSE_SRC,
    fkey bPWR PWR_WAKE_CAUSE_READY, fkey bPWR PWR_WAKE_CAUSE_ACCESS, fkey bHLT HLT_STAT_LEVEL, fkey bHLT HLT_STAT_CAUSE,
    fkey bHLT HLT_STAT_SRC0, fkey bHLT HLT_STAT_SRC1, fkey bHLT HLT_HEALTHY_P0, fkey bHLT HLT_HEALTHY_P1,
    fkey bHLT HLT_FW_LAST_LO, fkey bHLT HLT_FW_LAST_HI, fkey bHLT HLT_FW_LAST_INFO_INIT, fkey bHLT HLT_FW_LAST_INFO_WR,
    fkey bSCH SCH_ACT_LO, fkey bSCH SCH_ACT_HI]

/-- Whether a register at a place in the register map is one that reactions leave. -/
def steadyReg (k : Nat) : Bool :=
  let b := k / 33554432
  decide (b ≠ bEVQ ∧ b ≠ bMEM4 ∧ b ≠ bKVC ∧ b ≠ bFIO ∧ k ∉ reactionFields ∧
    ¬ (30 ≤ b ∧ (k % 33554432 = fkey 0 EJT_SRC ∨ k % 33554432 = fkey 0 EJT_OPEN)) ∧
    ¬ (fkey bSCH (SCH_CTX_STATE_CSTATE 0) ≤ k ∧ k < fkey bSCH (SCH_CTX_STATE_CSTATE 64)))

/-- The counters outside the units above that reactions count. -/
def reactionCounts : List Nat :=
  [fkey bHLT HLT_CNT_SWITCH, fkey bHLT HLT_CNT_FB_COMMIT, fkey bHLT HLT_CNT_SUSPECT_SEEN, fkey bHLT HLT_CNT_FW_DENY,
    fkey bPWR PWR_CNT_ABANDON]

/-- Whether a counter at a place in the register map is one that reactions leave. -/
def steadyCnt (k : Nat) : Bool :=
  let b := k / 33554432
  decide (b ≠ bEVQ ∧ b ≠ bMEM4 ∧ b ≠ bKVC ∧ b < 30 ∧ k ∉ reactionCounts)

/-- The places of a store that a predicate selects. -/
def keptOf (keep : Nat → Bool) (l : Store Word) (d : Word) (k : Nat) : Word := if keep k then Store.get d l k else 0

/-- A slot without its verdict and its source. -/
def Slot.bare (x : Slot) : Slot := { x with srcFb := false, commit := none }

/-- The state without what reactions change. -/
def State.steadyCore (s : State) : State :=
  { s with
    regs := [], live := [], mem := [], memu := {}, poison := [], errs := [], evqSeq := [], free := 0, resp := {}, ejt := [], kvc := {}
    out := [], sds := []
    sch := { s.sch with ctx := [], reqs := [], bufs := [] }
    lnk := { s.lnk with mine := 0, reports := [], ports := [] }
    pwr := { s.pwr with entry := none, exit := none }
    field := { s.field with held := 0 }
    hlt := { s.hlt with resetDue := none, ueAt := [] } }

/-- Everything that reactions leave: the core, registers, counters, the slots' frames and the rest of the ejection ports. -/
structure Steady where
  core : State
  regs : Word → Nat → Word
  live : Word → Nat → Word
  slots : Nat → Nat → Option Slot
  ports : Nat → EjtUnit

def State.steady (s : State) : Steady :=
  { core := s.steadyCore, regs := keptOf steadyReg s.regs, live := keptOf steadyCnt s.live
    slots := fun p k => (s.slot p k).map Slot.bare, ports := fun p => { s.ejtU p with slots := [] } }

section Steady
variable {s t : State} {b n : Nat} {f : Fld}

theorem keptOf_put {keep : Nat → Bool} {d v : Word} {l : Store Word} {j : Nat} (h : keep j = false) :
    keptOf keep (Store.put d l j v) = keptOf keep l := by
  funext d' k
  unfold keptOf
  split
  next hk => exact Store.get_put_ne fun e => absurd (hk.symm.trans (e ▸ h)) (by decide)
  · rfl

theorem State.rd_of_steady (hf : steadyReg (fkey b f) = true) (h : t.steady = s.steady) : t.rd b f = s.rd b f := by
  have hr := congrFun (congrFun (congrArg Steady.regs h) (BitVec.ofNat 32 f.rst)) (fkey b f)
  simp only [State.steady, keptOf, if_pos hf] at hr
  exact congrArg BitVec.toNat hr

theorem State.cnt_of_steady (hf : steadyCnt (fkey b f) = true) (h : t.steady = s.steady) : t.cnt b f = s.cnt b f := by
  have hl := congrFun (congrFun (congrArg Steady.live h) 0#32) (fkey b f)
  simp only [State.steady, keptOf, if_pos hf] at hl
  exact congrArg BitVec.toNat hl

/-- A part of the state that reactions leave. -/
theorem State.part_of_steady {α : Type} (g : State → α) (hg : ∀ s : State, g s.steadyCore = g s) (h : t.steady = s.steady) : g t = g s := by
  have hc := congrArg (fun v => g v.core) h
  exact (hg t).symm.trans (hc.trans (hg s))

theorem State.slot_of_steady (h : t.steady = s.steady) (p k : Nat) : (t.slot p k).map Slot.bare = (s.slot p k).map Slot.bare :=
  congrFun (congrFun (congrArg Steady.slots h) p) k

theorem steady_foldl_mem {α : Type} {g : State → α → State} {l : List α} (h : ∀ s, ∀ x ∈ l, (g s x).steady = s.steady) :
    (l.foldl g s).steady = s.steady := foldl_keeps State.steady h

@[simp] theorem steady_foldl {α : Type} {g : State → α → State} (h : ∀ s x, (g s x).steady = s.steady) (l : List α) :
    (l.foldl g s).steady = s.steady := steady_foldl_mem fun s x _ => h s x

@[simp] theorem steady_ite {c : Prop} [Decidable c] {a b : State} :
    (if c then a else b).steady = if c then a.steady else b.steady := apply_ite State.steady _ _ _

@[simp] theorem State.wr_steady (h : steadyReg (fkey b f) = false) : (s.wr b f n).steady = s.steady := by
  unfold State.steady
  rw [State.wr_regs, keptOf_put h]
  rfl

@[simp] theorem State.inc_steady (h : steadyCnt (fkey b f) = false) : (s.inc b f n).steady = s.steady :=
  congrArg (fun l => ({ s.steady with live := l } : Steady)) (keptOf_put h)

@[simp] theorem State.wr64_steady {lo hi : Fld} (hl : steadyReg (fkey b lo) = false) (hh : steadyReg (fkey b hi) = false) :
    (s.wr64 b lo hi n).steady = s.steady := (State.wr_steady hh).trans (State.wr_steady hl)

/-! #### Which registers and counters are among them -/

theorem steadyReg_unit (h : (fkey b f / 33554432) ∈ [bEVQ, bMEM4, bKVC, bFIO]) : steadyReg (fkey b f) = false := by
  simp only [List.mem_cons, List.not_mem_nil, or_false] at h
  refine decide_eq_false ?_
  tauto

theorem steadyReg_reaction {k : Nat} (h : k ∈ reactionFields) : steadyReg k = false := decide_eq_false (by tauto)

theorem steadyReg_EJT_SRC (p : Nat) : steadyReg (fkey (bEJT p) EJT_SRC) = false := by
  refine decide_eq_false ?_
  simp only [fkey, bEJT, EJT_SRC]
  omega

theorem steadyReg_EJT_OPEN (p : Nat) : steadyReg (fkey (bEJT p) EJT_OPEN) = false := by
  refine decide_eq_false ?_
  simp only [fkey, bEJT, EJT_OPEN]
  omega

theorem steadyReg_CSTATE {k : Nat} (h : k < 64) : steadyReg (fkey bSCH (SCH_CTX_STATE_CSTATE k)) = false := by
  refine decide_eq_false ?_
  simp only [fkey, bSCH, SCH_CTX_STATE_CSTATE]
  omega

theorem steadyCnt_above (h : 30 ≤ b) (f : Fld) : steadyCnt (fkey b f) = false := by
  refine decide_eq_false ?_
  simp only [fkey]
  omega

theorem steadyReg_FIO_ON {n : Nat} (h : n < 8) : steadyReg (fkey bFIO (FIO_DO_CFG_ON n)) = false :=
  steadyReg_unit (by simp [fkey, bFIO, FIO_DO_CFG_ON, bEVQ, bMEM4, bKVC]; omega)

/-! #### Memory and events -/

@[simp] theorem State.touch_steady (u : Nat) (wr : Bool) : (s.touch u wr).steady = s.steady := by
  unfold State.touch
  dsimp only
  split
  · rfl
  · split <;> rfl

/-- What a write of memory and an event leave, reactions leave. -/
theorem steady_of_evtView (h : t.evtView = s.evtView) : t.steady = s.steady := by
  have hc : t.evtCore = s.evtCore := congrArg Prod.fst h
  have hr : ∀ d k, offEvents k = true → Store.get d t.regs k = Store.get d s.regs k := fun d k hk => by
    have := congrFun (congrFun (congrArg (fun v => v.2.1) h) d) k
    simpa only [State.evtView, evtRegs, if_pos hk] using this
  have hl : ∀ d k, offEvents k = true → Store.get d t.live k = Store.get d s.live k := fun d k hk => by
    have := congrFun (congrFun (congrArg (fun v => v.2.2) h) d) k
    simpa only [State.evtView, evtRegs, if_pos hk] using this
  have kept {keep : Nat → Bool} {a b : Store Word} (hk : ∀ k, keep k = true → offEvents k = true)
      (hab : ∀ d k, offEvents k = true → Store.get d a k = Store.get d b k) : keptOf keep a = keptOf keep b := by
    funext d k
    unfold keptOf
    split
    next h => exact hab d k (hk k h)
    · rfl
  have core : t.steadyCore = s.steadyCore := by exact (congrArg State.steadyCore hc : t.evtCore.steadyCore = s.evtCore.steadyCore)
  have ejt : t.ejt = s.ejt := by exact (congrArg State.ejt hc : t.evtCore.ejt = s.evtCore.ejt)
  have regs := kept (keep := steadyReg) (fun k hk => by
    have := of_decide_eq_true hk
    exact decide_eq_true ⟨this.1, this.2.1⟩) hr
  have live := kept (keep := steadyCnt) (fun k hk => by
    have := of_decide_eq_true hk
    exact decide_eq_true ⟨this.1, this.2.1⟩) hl
  simp only [State.steady, core, regs, live, State.slot, State.ejtU, ejt]

@[simp] theorem State.write_steady (a : Nat) (bs : List Nat) : (s.write a bs).steady = s.steady := steady_of_evtView (State.write_evtView ..)

@[simp] theorem State.raise_steady (code blk a1 a2 a3 status : Nat) : (s.raise code blk a1 a2 a3 status).steady = s.steady :=
  steady_of_evtView (State.raise_evtView ..)

@[simp] theorem State.sendFrame_steady (f : Frame) : (s.sendFrame f).steady = s.steady := by
  obtain ⟨_, _, _, h⟩ := s.sendFrame_sent f
  rw [h]
  rfl

@[simp] theorem State.answer_steady (status : Nat) (data : List Nat) : (s.answer status data).steady = s.steady := rfl
@[simp] theorem State.setErr_steady (u e : Nat) : (s.setErr u e).steady = s.steady := rfl
@[simp] theorem State.setPoison_steady (u : Nat) : (s.setPoison u).steady = s.steady := rfl
@[simp] theorem State.setMem_steady (m : MemUnit) : (s.setMem m).steady = s.steady := rfl
@[simp] theorem State.takeFree_steady : (s.takeFree).2.steady = s.steady := rfl

/-! #### Parts, contexts and slots -/

@[simp] theorem State.setPage_steady (i : Nat) (x : KvPage) : (s.setPage i x).steady = s.steady := rfl
@[simp] theorem State.setSeq_steady (q : Nat) (x : KvSeq) : (s.setSeq q x).steady = s.steady := rfl

@[simp] theorem State.updPage_steady (i : Nat) (f : KvPage → KvPage) : (s.updPage i f).steady = s.steady := by
  simp [State.updPage, State.inc_steady (show steadyCnt (fkey bKVC KVC_CNT_FREE) = false by decide)]

@[simp] theorem State.releaseList_steady (x : KvSeq) : (s.releaseList x).steady = s.steady := by
  refine steady_foldl (fun s e => ?_) _
  split
  · rfl
  · exact State.updPage_steady ..

@[simp] theorem State.closePart_steady (p part : Nat) : (s.closePart p part).steady = s.steady := by
  simp [State.closePart, State.closeSeq, State.showSlots,
    fun s n => State.wr_steady (s := s) (n := n) (show steadyReg (fkey bKVC KVC_SWAP_STAT_USED) = false by decide)]

theorem State.setCtxState_steady {k : Nat} (h : k < 64) (v : Nat) : (s.setCtxState k v).steady = s.steady :=
  (State.wr64_steady (by decide) (by decide)).trans (State.wr_steady (steadyReg_CSTATE h))

theorem State.emptyCtx_steady {k : Nat} (h : k < 64) : (s.emptyCtx k).steady = s.steady := State.setCtxState_steady (s := s) h 0

theorem State.settleCtx_steady {k : Nat} (h : k < 64) : (s.settleCtx k).steady = s.steady := by
  unfold State.settleCtx
  dsimp only
  split
  · rfl
  split
  · exact State.setCtxState_steady h 2
  split
  · exact State.emptyCtx_steady h
  · exact State.setCtxState_steady h 1

@[simp] theorem State.settleCtxs_steady : s.settleCtxs.steady = s.steady :=
  steady_foldl_mem fun _ _ hk => State.settleCtx_steady (List.mem_range.1 hk)

/-- A slot replaced by one that differs from it in verdict and source alone. -/
theorem State.setSlot_steady {p k : Nat} {x y : Slot} (hs : s.slot p k = some x) (hb : y.bare = x.bare) :
    (s.setSlot p k (some y)).steady = s.steady := by
  have hports : (fun q => { (s.setEjt p { s.ejtU p with slots := Store.put none (s.ejtU p).slots k (some y) }).ejtU q with slots := [] }) =
      fun q => { s.ejtU q with slots := [] } := by
    funext q
    simp only [State.ejtU, State.setEjt]
    by_cases hq : p = q
    · subst hq
      rw [Store.get_put_same]
    · rw [Store.get_put_ne hq]
  have hslots : (fun q j => ((s.setEjt p { s.ejtU p with slots := Store.put none (s.ejtU p).slots k (some y) }).slot q j).map Slot.bare) =
      fun q j => (s.slot q j).map Slot.bare := by
    funext q j
    simp only [State.slot, State.ejtU, State.setEjt]
    by_cases hq : p = q
    · subst hq
      rw [Store.get_put_same]
      by_cases hj : k = j
      · subst hj
        simp only [State.slot, State.ejtU] at hs
        rw [Store.get_put_same, hs, Option.map_some, Option.map_some, hb]
      · rw [Store.get_put_ne hj]
    · rw [Store.get_put_ne hq]
  refine (State.wr_steady (steadyReg_EJT_OPEN p)).trans ?_
  simp only [State.steady, hports, hslots]
  rfl

theorem State.slotCommit_steady (p k : Nat) (c : Commit) : (s.slotCommit p k c).steady = s.steady := by
  have counted (t : State) (f : Fld) : (t.inc (bEJT p) f).steady = t.steady := State.inc_steady (steadyCnt_above (by simp [bEJT]) f)
  unfold State.slotCommit
  split
  · rfl
  next x hx =>
    dsimp only
    split
    · rfl
    split
    · exact counted ..
    split
    · rfl
    simp only [State.settleCtxs_steady, steady_ite, State.closePart_steady, counted, ite_self]
    exact State.setSlot_steady hx rfl

theorem State.slotToFb_steady (p k : Nat) : (s.slotToFb p k).steady = s.steady := by
  unfold State.slotToFb
  split
  · rfl
  next x hx =>
    have moved : (s.setSlot p k (some { x with srcFb := true })).steady = s.steady := State.setSlot_steady hx rfl
    dsimp only
    split
    · split
      · rfl
      · exact moved
    split
    · exact (State.inc_steady (by decide)).trans ((State.slotCommit_steady ..).trans moved)
    · exact moved

/-! #### Reactions -/

@[simp] theorem State.refreshFio_steady : s.refreshFio.steady = s.steady := by
  have fio (t : State) (f : Fld) (n : Nat) (h : steadyReg (fkey bFIO f) = false) : (t.wr bFIO f n).steady = t.steady := State.wr_steady h
  have outs (t : State) : ((List.range 8).foldl (fun s n => s.wr bFIO (FIO_DO_CFG_ON n) (if s.outOn n then 1 else 0)) t).steady = t.steady :=
    steady_foldl_mem fun _ _ hn => State.wr_steady (steadyReg_FIO_ON (List.mem_range.1 hn))
  unfold State.refreshFio
  simp only [steady_ite, State.raise_steady, fio _ _ _ (show steadyReg (fkey bFIO FIO_STAT_FAULT) = false by decide),
    fio _ _ _ (show steadyReg (fkey bFIO FIO_STAT_DO_FAULT) = false by decide), outs, ite_self]

@[simp] theorem State.safeReaction_steady (cause stage port : Nat) : (s.safeReaction cause stage port).steady = s.steady := by
  have wrote (t : State) (f : Fld) (n : Nat) (h : steadyReg (fkey bHLT f) = false) : (t.wr bHLT f n).steady = t.steady := State.wr_steady h
  have safe (t : State) : (t.wr bFIO FIO_STAT_SAFE 1).steady = t.steady := State.wr_steady (by decide)
  have held (t : State) (n : Nat) : (t.setField { t.field with held := n }).steady = t.steady := rfl
  have due (t : State) (n : Option Nat) : (t.setHlt { t.hlt with resetDue := n }).steady = t.steady := rfl
  unfold State.safeReaction State.writeEscalation
  simp only [steady_ite, State.raise_steady, due, wrote _ _ _ (show steadyReg (fkey bHLT HLT_STAT_LEVEL) = false by decide),
    wrote _ _ _ (show steadyReg (fkey bHLT HLT_STAT_CAUSE) = false by decide), State.refreshFio_steady, safe, held, State.write_steady, ite_self]

@[simp] theorem State.upgReport_steady (ok : Bool) : (s.upgReport ok).steady = s.steady := by
  have told (t : State) (v : Nat) (r : Store Nat) : (t.setLnk { t.lnk with mine := v, reports := r }).steady = t.steady := rfl
  simp [State.upgReport, told]

@[simp] theorem State.switchPort_steady (cause stage p : Nat) : (s.switchPort cause stage p).steady = s.steady := by
  have healthy : steadyReg (fkey bHLT (hltHealthy p)) = false := by unfold hltHealthy; split <;> decide
  have source : steadyReg (fkey bHLT (hltSrc p)) = false := by unfold hltSrc; split <;> decide
  have wrote (t : State) (f : Fld) (n : Nat) (h : steadyReg (fkey bHLT f) = false) : (t.wr bHLT f n).steady = t.steady := State.wr_steady h
  have port (t : State) (n : Nat) : (t.wr (bEJT p) EJT_SRC n).steady = t.steady := State.wr_steady (steadyReg_EJT_SRC p)
  have counted (t : State) : (t.inc bHLT HLT_CNT_SWITCH).steady = t.steady := State.inc_steady (by decide)
  have moved (t : State) : ((List.range 64).foldl (fun s k => s.slotToFb p k) t).steady = t.steady :=
    steady_foldl (fun _ _ => State.slotToFb_steady ..) _
  unfold State.switchPort
  simp only [steady_ite, State.safeReaction_steady, moved, State.upgReport_steady, State.raise_steady, counted, port,
    wrote _ _ _ source, wrote _ _ _ healthy, wrote _ _ _ (show steadyReg (fkey bHLT HLT_STAT_LEVEL) = false by decide),
    wrote _ _ _ (show steadyReg (fkey bHLT HLT_STAT_CAUSE) = false by decide), ite_self]

/-! #### Error reports -/

@[simp] theorem State.logError_steady (r : LogRec) : (s.logError r).steady = s.steady := by
  have lost : (s.inc bMEM4 MEM4_LOG_LOST).steady = s.steady := State.inc_steady (by decide)
  unfold State.logError
  dsimp only
  split
  · rfl
  split
  · exact lost
  · rfl

@[simp] theorem State.correctedRate_steady (unit : Nat) : (s.correctedRate unit).steady = s.steady := by
  unfold State.correctedRate
  simp only [steady_ite, State.raise_steady, State.setMem_steady, ite_self]

@[simp] theorem State.haltUe_steady : s.haltUe.steady = s.steady := by
  have at_ (l : List Nat) : (s.setHlt { s.hlt with ueAt := l }).steady = s.steady := rfl
  unfold State.haltUe
  simp only [steady_ite, State.switchPort_steady, at_, ite_self]

@[simp] theorem State.report_steady (r : LogRec) : (s.report r).steady = s.steady := by
  have suspect (t : State) : (t.inc bHLT HLT_CNT_SUSPECT_SEEN).steady = t.steady := State.inc_steady (by decide)
  unfold State.report State.memUe
  simp only [steady_ite, State.correctedRate_steady, suspect, State.haltUe_steady, State.raise_steady, State.logError_steady, ite_self]

/-! #### Accesses to memory

The errors that an access finds are counted at places that the records of an arbitrary state name, so that counters are left out here. -/

/-- What reactions leave, without counters. -/
def State.steadyOf (s : State) : Steady := { s.steady with live := fun _ _ => 0 }

theorem State.steadyOf_congr (h : t.steady = s.steady) : t.steadyOf = s.steadyOf := congrArg (fun v => ({ v with live := fun _ _ => 0 } : Steady)) h

theorem State.rd_of_steadyOf (hf : steadyReg (fkey b f) = true) (h : t.steadyOf = s.steadyOf) : t.rd b f = s.rd b f := by
  have hr := congrFun (congrFun (congrArg Steady.regs h) (BitVec.ofNat 32 f.rst)) (fkey b f)
  simp only [State.steadyOf, State.steady, keptOf, if_pos hf] at hr
  exact congrArg BitVec.toNat hr

theorem State.part_of_steadyOf {α : Type} (g : State → α) (hg : ∀ s : State, g s.steadyCore = g s) (h : t.steadyOf = s.steadyOf) :
    g t = g s := by
  have hc := congrArg (fun v => g v.core) h
  exact (hg t).symm.trans (hc.trans (hg s))

theorem steadyOf_foldl {α : Type} {g : State → α → State} (h : ∀ s x, (g s x).steadyOf = s.steadyOf) (l : List α) :
    (l.foldl g s).steadyOf = s.steadyOf := foldl_keeps State.steadyOf fun s x _ => h s x

theorem State.storeRep_steadyOf (r : LogRec) : (s.storeRep r).steadyOf = s.steadyOf := by
  refine (State.steadyOf_congr (State.report_steady _)).trans ?_
  split <;> rfl

theorem State.settleFound_steadyOf : s.settleFound.steadyOf = s.steadyOf := steadyOf_foldl (fun _ _ => State.storeRep_steadyOf _) _

theorem State.readUnit_steadyOf (i u : Nat) : (s.readUnit i u).steadyOf = s.steadyOf := by
  unfold State.readUnit
  split
  · rfl
  · exact (State.storeRep_steadyOf _).trans (by split <;> rfl)

theorem State.demand_steadyOf (i u : Nat) : (s.demand i u).steadyOf = s.steadyOf :=
  (State.steadyOf_congr (State.touch_steady ..)).trans (by split <;> rfl)

theorem State.readWord_steadyOf (i w : Nat) : (s.readWord i w).steadyOf = s.steadyOf := by
  unfold State.readWord
  dsimp only
  split
  · rfl
  split
  · exact State.storeRep_steadyOf _
  · exact State.storeRep_steadyOf _

theorem State.readUnits_steadyOf (i a n : Nat) : (s.readUnits i a n).steadyOf = s.steadyOf := by
  have units : ((dramUnits a n).foldl (fun s u => s.demand i u) ((unitsOf a n).foldl (fun s u => s.readUnit i u) s.settleFound)).steadyOf =
      s.steadyOf :=
    (steadyOf_foldl (fun _ _ => State.demand_steadyOf ..) _).trans
      ((steadyOf_foldl (fun _ _ => State.readUnit_steadyOf ..) _).trans State.settleFound_steadyOf)
  unfold State.readUnits
  dsimp only
  split
  · exact units
  · exact (steadyOf_foldl (fun _ _ => State.readWord_steadyOf ..) _).trans units

theorem State.mergeUnit_steadyOf (i u : Nat) : (s.mergeUnit i u).steadyOf = s.steadyOf := by
  unfold State.mergeUnit
  dsimp only
  split
  · exact State.readUnit_steadyOf i u
  · exact State.readUnit_steadyOf i u

theorem State.mergeWrite_steadyOf (i a : Nat) (bs : List Nat) : (s.mergeWrite i a bs).steadyOf = s.steadyOf := by
  have units : ((partUnits a bs.length).foldl (fun s u => s.mergeUnit i u) s.settleFound).steadyOf = s.steadyOf :=
    (steadyOf_foldl (fun _ _ => State.mergeUnit_steadyOf ..) _).trans State.settleFound_steadyOf
  refine (State.steadyOf_congr (State.write_steady ..)).trans ?_
  split
  · exact units
  · exact (steadyOf_foldl (fun _ _ => State.readWord_steadyOf ..) _).trans units

@[simp] theorem State.deny_steady (i : Nat) (write : Bool) (a : Nat) : (s.deny i write a).steady = s.steady := by
  have info (t : State) (f : Fld) (n : Nat) (h : steadyReg (fkey bHLT f) = false) : (t.wr bHLT f n).steady = t.steady := State.wr_steady h
  have last (t : State) : (t.wr64 bHLT HLT_FW_LAST_LO HLT_FW_LAST_HI a).steady = t.steady := State.wr64_steady (by decide) (by decide)
  have counted (t : State) : (t.inc bHLT HLT_CNT_FW_DENY).steady = t.steady := State.inc_steady (by decide)
  unfold State.deny
  simp only [steady_ite, State.answer_steady, State.raise_steady, counted,
    info _ _ _ (show steadyReg (fkey bHLT HLT_FW_LAST_INFO_INIT) = false by decide),
    info _ _ _ (show steadyReg (fkey bHLT HLT_FW_LAST_INFO_WR) = false by decide), last, ite_self]

theorem State.checkStore_steady (i : Nat) (write : Bool) (a n : Nat) : (s.checkStore i write a n).1.steady = s.steady := by
  unfold State.checkStore
  split
  · rfl
  split
  · exact State.deny_steady ..
  · rfl

@[simp] theorem State.latchWake_steady (src : Nat) : (s.latchWake src).steady = s.steady := by
  unfold State.latchWake
  split
  · exact State.wr_steady (by decide)
  split
  · exact State.wr_steady (by decide)
  · exact State.wr_steady (by decide)

@[simp] theorem State.wake_steady (src : Nat) : (s.wake src).steady = s.steady := by
  have told (t : State) (f : Fld) (n : Nat) (h : steadyReg (fkey bPWR f) = false) : (t.wr bPWR f n).steady = t.steady := State.wr_steady h
  have counted (t : State) : (t.inc bPWR PWR_CNT_ABANDON).steady = t.steady := State.inc_steady (by decide)
  have entry (t : State) (x : Option Nat) : (t.setPwr { t.pwr with entry := x }).steady = t.steady := rfl
  have exit (t : State) (x : Option ExitRun) : (t.setPwr { t.pwr with exit := x }).steady = t.steady := rfl
  unfold State.wake
  split
  · simp only [steady_ite, State.raise_steady, counted, told _ _ _ (show steadyReg (fkey bPWR PWR_STAT_ABANDONED) = false by decide),
      State.latchWake_steady, entry, ite_self]
  · simp only [steady_ite, told _ _ _ (show steadyReg (fkey bPWR PWR_STAT_STATE) = false by decide),
      told _ _ _ (show steadyReg (fkey bPWR PWR_STAT_STEP) = false by decide), exit, State.latchWake_steady, ite_self]

@[simp] theorem State.wakeFor_steady (a : Nat) : (s.wakeFor a).steady = s.steady := by simp [State.wakeFor]

theorem State.hwRead_steadyOf (i a n : Nat) : (s.hwRead i a n).1.steadyOf = s.steadyOf := by
  have checked := State.steadyOf_congr (s.checkStore_steady i false a n)
  unfold State.hwRead
  dsimp only
  split
  · exact checked
  split
  · exact checked
  · exact (State.readUnits_steadyOf ..).trans (State.steadyOf_congr (State.wakeFor_steady a))

theorem State.hwWrite_steadyOf (i a : Nat) (bs : List Nat) : (s.hwWrite i a bs).1.steadyOf = s.steadyOf := by
  have checked := State.steadyOf_congr (s.checkStore_steady i true a bs.length)
  unfold State.hwWrite
  dsimp only
  split
  · exact checked
  · exact (State.mergeWrite_steadyOf ..).trans (State.steadyOf_congr (State.wakeFor_steady a))

theorem State.putAs_steadyOf (i a : Nat) (bs : List Nat) : (s.putAs i a bs).steadyOf = s.steadyOf := State.hwWrite_steadyOf i a bs

/-! #### Stage faults (R480) -/

/-- What a stage fault reacts with: the safe reaction for a late switch, otherwise the switch of its ports. -/
def State.react (s : State) (stage code kind : Nat) : State :=
  if stage = 6 then if s.opt.safeOnStage6 then s.safeReaction (causeOf stage kind) stage code else s
  else (portsOf code).foldl (fun s p => s.switchPort (causeOf stage kind) stage p) s

theorem State.react_steady (stage code kind : Nat) : (s.react stage code kind).steady = s.steady := by
  unfold State.react
  split
  · split
    · exact State.safeReaction_steady ..
    · rfl
  · exact steady_foldl (fun _ _ => State.switchPort_steady ..) _

/-- A stage fault up to its reaction: shown, announced and counted by its kind. -/
def State.faultTold (s : State) (stage code kind : Nat) : State :=
  let s := s.wr bHLT HLT_STAT_STG_FAULT ((s.rd bHLT HLT_STAT_STG_FAULT).lor (2 ^ stage))
  let s := s.raise 0x0804 bHLT stage code (if stage = 6 ∧ kind = 4 then Config.stage6Kind else kind)
  if kind = 1 then s.inc bHLT HLT_CNT_STG_EARLY else if kind = 2 then s.inc bHLT HLT_CNT_STG_LATE
  else if kind = 3 then s.inc bHLT HLT_CNT_STG_UNKNOWN else s

theorem State.stageFault_eq (stage code kind : Nat) : s.stageFault stage code kind =
    if bit s.opt.windows stage = 0 then s else (s.faultTold stage code kind).react stage code kind := rfl

section StageFault
variable {stage code kind : Nat}

theorem State.faultTold_rd (hf : steadyReg (fkey b f) = true) (hs : fkey bHLT HLT_STAT_STG_FAULT ≠ fkey b f) :
    (s.faultTold stage code kind).rd b f = s.rd b f := by
  have told : ((s.wr bHLT HLT_STAT_STG_FAULT ((s.rd bHLT HLT_STAT_STG_FAULT).lor (2 ^ stage))).raise 0x0804 bHLT stage code
      (if stage = 6 ∧ kind = 4 then Config.stage6Kind else kind)).rd b f = s.rd b f :=
    (State.rd_of_steady hf (State.raise_steady ..)).trans (State.rd_wr_ne _ _ _ _ _ _ hs)
  have counted (t : State) (g : Fld) : (t.inc bHLT g).rd b f = t.rd b f := rfl
  unfold State.faultTold
  dsimp only
  simp only [apply_ite (State.rd · b f), counted, told, ite_self]

theorem State.faultTold_cnt (hf : steadyCnt (fkey b f) = true)
    (hs : fkey b f ∉ [fkey bHLT HLT_CNT_STG_EARLY, fkey bHLT HLT_CNT_STG_LATE, fkey bHLT HLT_CNT_STG_UNKNOWN]) :
    (s.faultTold stage code kind).cnt b f = s.cnt b f := by
  simp only [List.mem_cons, List.not_mem_nil, or_false, not_or] at hs
  obtain ⟨he, hl, hu⟩ := hs
  have told : ((s.wr bHLT HLT_STAT_STG_FAULT ((s.rd bHLT HLT_STAT_STG_FAULT).lor (2 ^ stage))).raise 0x0804 bHLT stage code
      (if stage = 6 ∧ kind = 4 then Config.stage6Kind else kind)).cnt b f = s.cnt b f :=
    (State.cnt_of_steady hf (State.raise_steady ..)).trans rfl
  unfold State.faultTold
  dsimp only
  split
  · exact (State.cnt_inc_ne (Ne.symm he)).trans told
  split
  · exact (State.cnt_inc_ne (Ne.symm hl)).trans told
  split
  · exact (State.cnt_inc_ne (Ne.symm hu)).trans told
  · exact told

theorem State.faultTold_part {α : Type} (g : State → α) (hg : ∀ s : State, g s.steadyCore = g s) :
    g (s.faultTold stage code kind) = g s := by
  have counted (t : State) (f : Fld) : g (t.inc bHLT f) = g t := (hg (t.inc bHLT f)).symm.trans (hg t)
  have told : g ((s.wr bHLT HLT_STAT_STG_FAULT ((s.rd bHLT HLT_STAT_STG_FAULT).lor (2 ^ stage))).raise 0x0804 bHLT stage code
      (if stage = 6 ∧ kind = 4 then Config.stage6Kind else kind)) = g s :=
    (State.part_of_steady g hg (State.raise_steady ..)).trans ((hg (s.wr ..)).symm.trans (hg s))
  unfold State.faultTold
  simp only [apply_ite g, counted, told, ite_self]

/-- A stage fault shows itself, and leaves every other steady register. -/
theorem State.stageFault_rd (hf : steadyReg (fkey b f) = true) (hs : fkey bHLT HLT_STAT_STG_FAULT ≠ fkey b f) :
    (s.stageFault stage code kind).rd b f = s.rd b f := by
  rw [State.stageFault_eq]
  split
  · rfl
  · exact (State.rd_of_steady hf (State.react_steady ..)).trans (State.faultTold_rd hf hs)

theorem State.stageFault_cnt (hf : steadyCnt (fkey b f) = true)
    (hs : fkey b f ∉ [fkey bHLT HLT_CNT_STG_EARLY, fkey bHLT HLT_CNT_STG_LATE, fkey bHLT HLT_CNT_STG_UNKNOWN]) :
    (s.stageFault stage code kind).cnt b f = s.cnt b f := by
  rw [State.stageFault_eq]
  split
  · rfl
  · exact (State.cnt_of_steady hf (State.react_steady ..)).trans (State.faultTold_cnt hf hs)

theorem State.stageFault_part {α : Type} (g : State → α) (hg : ∀ s : State, g s.steadyCore = g s) :
    g (s.stageFault stage code kind) = g s := by
  rw [State.stageFault_eq]
  split
  · rfl
  · exact (State.part_of_steady g hg (State.react_steady ..)).trans (State.faultTold_part g hg)

end StageFault

/-! #### Stage 7 -/

@[simp] theorem State.markS7_regs (k : Nat) : (s.markS7 k).regs = s.regs ∧ (s.markS7 k).live = s.live ∧ (s.markS7 k).tb = s.tb ∧
    (s.markS7 k).stp = s.stp ∧ (s.markS7 k).field = s.field ∧ (s.markS7 k).opt = s.opt ∧ (s.markS7 k).now = s.now := by
  unfold State.markS7
  split <;> exact ⟨rfl, rfl, rfl, rfl, rfl, rfl, rfl⟩

theorem State.stage7_rd {code k : Nat} (hf : steadyReg (fkey b f) = true) (hs : fkey bHLT HLT_STAT_STG_FAULT ≠ fkey b f) :
    (s.stage7 code k).rd b f = s.rd b f := (State.stageFault_rd hf hs).trans (by simp [State.rd])

theorem State.stage7_cnt {code k : Nat} (hf : steadyCnt (fkey b f) = true)
    (hs : fkey b f ∉ [fkey bHLT HLT_CNT_STG_EARLY, fkey bHLT HLT_CNT_STG_LATE, fkey bHLT HLT_CNT_STG_UNKNOWN]) :
    (s.stage7 code k).cnt b f = s.cnt b f := (State.stageFault_cnt hf hs).trans (by simp [State.cnt])

end Steady

end Sys2Proof.Machine
end

section
/-!
PROOFS. The statement on the time base.
-/

namespace Sys2Proof.Machine

/-! ### The time base's operations (R455-R463) -/

section TimeBase
variable {s : State} {τ i v n k x : Nat} {f : Fld}

/-- The passing of time moves nothing of the time base but the time. -/
theorem State.at_tb (s : State) (τ : Nat) : ∃ n, (s.at τ).tb = { s.tb with time := n } := by
  unfold State.at
  split
  · exact ⟨_, rfl⟩
  · exact ⟨_, rfl⟩

@[simp] theorem State.at_tb_inc : (s.at τ).tb.inc = s.tb.inc := by
  obtain ⟨_, h⟩ := s.at_tb τ
  rw [h]

@[simp] theorem State.at_tb_caps : (s.at τ).tb.caps = s.tb.caps := by
  obtain ⟨_, h⟩ := s.at_tb τ
  rw [h]

@[simp] theorem State.at_tb_holdFrom : (s.at τ).tb.holdFrom = s.tb.holdFrom := by
  obtain ⟨_, h⟩ := s.at_tb τ
  rw [h]

@[simp] theorem State.at_ptpFifo (p : Nat) (rx : Bool) : (s.at τ).ptpFifo p rx = s.ptpFifo p rx := by
  obtain ⟨_, h⟩ := s.at_tb τ
  simp only [State.ptpFifo, h]

@[simp] theorem State.at_linkTime : (s.at τ).linkTime = s.linkTime := by simp [State.linkTime]
@[simp] theorem State.at_newInc : (s.at τ).newInc v = s.newInc v := by simp [State.newInc]

/-- A write of the time base that nothing bars: the gate of R462 and R475 is open. -/
theorem State.timGate_open {off : Nat} {ok : State → State} (hi : s.mgmtOrHost i = true) (hf : s.rd bTIM COM_FENCE_FENCE ≠ 1)
    (hl : s.linkTime = false) : s.timGate i off ok = ok s := by
  simp [State.timGate, hi, hf, hl]

/-- A write while Traif Link governs the time base is refused. -/
theorem State.timGate_link {off : Nat} {ok : State → State} (hi : s.mgmtOrHost i = true) (hf : s.rd bTIM COM_FENCE_FENCE ≠ 1)
    (hl : s.linkTime = true) : s.timGate i off ok = s.wr bTIM TIM_STAT_REFUSED 1 := by
  simp [State.timGate, hi, hf, hl]

theorem State.refused_rd : (s.wr bTIM TIM_STAT_REFUSED 1).rd bTIM TIM_STAT_REFUSED = 1 := State.rd_wr_same _ _ _ _ (by decide)

theorem State.restartHold_holdFrom : s.restartHold.tb.holdFrom = some s.restartHold.now := rfl
theorem State.restartHold_time : s.restartHold.tb.time = s.tb.time := rfl
theorem State.restartHold_inc : s.restartHold.tb.inc = s.tb.inc := rfl

theorem State.restartHold_rd (h : fkey bTIM TIM_STAT_HOLDOVER ≠ fkey bTIM f) : s.restartHold.rd bTIM f = s.rd bTIM f := State.rd_wr_ne _ _ _ _ _ _ h

theorem incOk_iff : incOk n = true ↔ 1998 * 4294967296 ≤ n * 1000 ∧ n * 1000 ≤ 2002 * 4294967296 := by
  simp only [incOk, Bool.and_eq_true, decide_eq_true_eq]
  rfl

/-- Of the three commands at most one is given. -/
theorem popCount_three_le_one (h : popCount 3 v ≤ 1) :
    (bit v 1 = 1 → bit v 0 ≠ 1) ∧ (bit v 2 = 1 → bit v 0 ≠ 1 ∧ bit v 1 ≠ 1) := by
  simp only [popCount, bit] at h ⊢
  omega

/-! #### Setting and stepping -/

theorem State.applyStep_time : (s.applyStep n).tb.time = n := by
  unfold State.applyStep
  rw [State.raise_tb]
  rfl

theorem State.applyStep_shows : (s.applyStep n).rd bTIM TIM_STAT_SOURCE = 1 ∧ (s.applyStep n).rd bTIM TIM_STAT_VALID = 1 := by
  unfold State.applyStep
  dsimp only
  rw [State.raise_rd _ _ _ _ _ _ (by decide), State.raise_rd _ _ _ _ _ _ (by decide), State.inc_rd, State.inc_rd]
  exact ⟨State.rd_wr_same _ _ _ _ (by decide), (State.rd_wr_ne _ _ _ _ _ _ (by decide)).trans (State.rd_wr_same _ _ _ _ (by decide))⟩

theorem State.applyStep_cnt : (s.applyStep n).cnt bTIM TIM_CNT_STEPS = satInc (s.cnt bTIM TIM_CNT_STEPS) 1 := by
  unfold State.applyStep
  dsimp only
  rw [State.raise_cnt _ _ _ _ _ _ (by decide)]
  exact State.cnt_inc ..

/-- A refused step shows itself, is counted, and leaves the time base. -/
theorem State.refuseStep_spec : s.refuseStep.rd bTIM TIM_STAT_REFUSED = 1 ∧ s.refuseStep.tb = s.tb ∧
    s.refuseStep.cnt bTIM TIM_CNT_STEP_REFUSED = satInc (s.cnt bTIM TIM_CNT_STEP_REFUSED) 1 :=
  ⟨State.refused_rd, rfl, State.cnt_inc ..⟩

theorem State.timSetOp_idle (h : s.jobRun = false) : s.timSetOp =
    s.applyStep (s.rd64 bTIM TIM_SET_SEC_LO TIM_SET_SEC_HI * tbSecUnit + s.rd bTIM TIM_SET_NS * tbNsUnit) := by simp [State.timSetOp, h]

theorem State.timSetOp_job (h : s.jobRun = true) : s.timSetOp = s.refuseStep := by simp [State.timSetOp, h]

theorem State.timStepOp_within (h : s.jobRun = false ∨ (sext 32 (s.rd bTIM TIM_ADJ)).natAbs ≤ s.rd bTIM TIM_CFG_STEP_LIMIT) :
    s.timStepOp = (s.applyStep (((s.tb.time : Int) + sext 32 (s.rd bTIM TIM_ADJ) * tbNsUnit) % tbWrap).toNat).restartHold := by
  refine if_neg ?_
  rcases h with h | h
  · simp [h]
  · simp [h]

theorem State.timStepOp_beyond (hj : s.jobRun = true) (h : s.rd bTIM TIM_CFG_STEP_LIMIT < (sext 32 (s.rd bTIM TIM_ADJ)).natAbs) :
    s.timStepOp = s.refuseStep := if_pos (by simp [hj, h])

/-- A write of `TIM_CMD` that the gate lets pass. -/
theorem State.timCmd_open (hi : s.mgmtOrHost i = true) (hf : s.rd bTIM COM_FENCE_FENCE ≠ 1) (hl : s.linkTime = false) :
    (s.at τ).timCmd i v = if 1 < popCount 3 v then (s.at τ).wr bTIM TIM_STAT_REFUSED 1
      else if bit v 0 = 1 then (s.at τ).timSetOp
      else if bit v 1 = 1 then (s.at τ).timStepOp
      else if bit v 2 = 1 then (s.at τ).servoMarkOp
      else s.at τ :=
  State.timGate_open (by simpa using hi) (by simpa using hf) (by simpa using hl)

section Commands
variable (hi : s.mgmtOrHost i = true) (hf : s.rd bTIM COM_FENCE_FENCE ≠ 1) (hl : s.linkTime = false)
include hi hf hl

theorem State.timCmd_set (hone : popCount 3 v ≤ 1) (hb : bit v 0 = 1) : (s.at τ).timCmd i v = (s.at τ).timSetOp := by
  rw [State.timCmd_open hi hf hl, if_neg (by omega), if_pos hb]

theorem State.timCmd_step (hone : popCount 3 v ≤ 1) (hb : bit v 1 = 1) : (s.at τ).timCmd i v = (s.at τ).timStepOp := by
  rw [State.timCmd_open hi hf hl, if_neg (by omega), if_neg ((popCount_three_le_one hone).1 hb), if_pos hb]

theorem State.timCmd_servo (hone : popCount 3 v ≤ 1) (hb : bit v 2 = 1) : (s.at τ).timCmd i v = (s.at τ).servoMarkOp := by
  obtain ⟨h0, h1⟩ := (popCount_three_le_one hone).2 hb
  rw [State.timCmd_open hi hf hl, if_neg (by omega), if_neg h0, if_neg h1, if_pos hb]

theorem State.timCmd_several (h : 1 < popCount 3 v) : (s.at τ).timCmd i v = (s.at τ).wr bTIM TIM_STAT_REFUSED 1 := by
  rw [State.timCmd_open hi hf hl, if_pos h]

theorem timSet_idle (hone : popCount 3 v ≤ 1) (hb : bit v 0 = 1) (hj : s.jobRun = false) : Completes (.timSet τ i v) s (fun t =>
    t.tb.time = s.rd64 bTIM TIM_SET_SEC_LO TIM_SET_SEC_HI * (1000000000 * 4294967296) + s.rd bTIM TIM_SET_NS * 4294967296 ∧
    t.rd bTIM TIM_STAT_SOURCE = 1 ∧ t.rd bTIM TIM_STAT_VALID = 1 ∧ t.cnt bTIM TIM_CNT_STEPS = satInc (s.cnt bTIM TIM_CNT_STEPS) 1) := by
  refine ⟨_, congrArg Host.Outcome.next ((State.timCmd_set hi hf hl hone hb).trans (State.timSetOp_idle (by simpa using hj))), ?_,
    State.applyStep_shows.1, State.applyStep_shows.2, ?_⟩
  · rw [State.applyStep_time, State.at_rd64, State.at_rd]
    rfl
  · rw [State.applyStep_cnt, State.at_cnt]

theorem timSet_job (hone : popCount 3 v ≤ 1) (hb : bit v 0 = 1) (hj : s.jobRun = true) : Completes (.timSet τ i v) s (fun t =>
    t.rd bTIM TIM_STAT_REFUSED = 1 ∧ t.tb = (s.at τ).tb ∧ t.cnt bTIM TIM_CNT_STEP_REFUSED = satInc (s.cnt bTIM TIM_CNT_STEP_REFUSED) 1) :=
  ⟨_, congrArg Host.Outcome.next ((State.timCmd_set hi hf hl hone hb).trans (State.timSetOp_job (by simpa using hj))),
    State.refuseStep_spec.1, State.refuseStep_spec.2.1, by rw [State.refuseStep_spec.2.2, State.at_cnt]⟩

theorem timSet_several (h : 1 < popCount 3 v) : Completes (.timSet τ i v) s (fun t =>
    t.rd bTIM TIM_STAT_REFUSED = 1 ∧ t.tb = (s.at τ).tb) :=
  ⟨_, congrArg Host.Outcome.next (State.timCmd_several hi hf hl h), State.refused_rd, rfl⟩

theorem timStep_within (hone : popCount 3 v ≤ 1) (hb : bit v 1 = 1)
    (hj : s.jobRun = false ∨ (sext 32 (s.rd bTIM TIM_ADJ)).natAbs ≤ s.rd bTIM TIM_CFG_STEP_LIMIT) : Completes (.timStep τ i v) s (fun t =>
    t.tb.time = (((s.at τ).tb.time + sext 32 (s.rd bTIM TIM_ADJ) * 4294967296) % (2 ^ 64 * (1000000000 * 4294967296) : Nat)).toNat ∧
    t.tb.holdFrom = some t.now ∧ t.rd bTIM TIM_STAT_VALID = 1 ∧ t.rd bTIM TIM_STAT_HOLDOVER = 0) := by
  refine ⟨_, congrArg Host.Outcome.next ((State.timCmd_step hi hf hl hone hb).trans (State.timStepOp_within (by simpa using hj))), ?_,
    State.restartHold_holdFrom, ?_, State.rd_wr_same _ _ _ _ (by decide)⟩
  · rw [State.restartHold_time, State.applyStep_time, State.at_rd]
    rfl
  · rw [State.restartHold_rd (by decide)]
    exact State.applyStep_shows.2

theorem timStep_beyond (hone : popCount 3 v ≤ 1) (hb : bit v 1 = 1) (hj : s.jobRun = true)
    (h : s.rd bTIM TIM_CFG_STEP_LIMIT < (sext 32 (s.rd bTIM TIM_ADJ)).natAbs) : Completes (.timStep τ i v) s (fun t =>
    t.rd bTIM TIM_STAT_REFUSED = 1 ∧ t.tb = (s.at τ).tb ∧ t.cnt bTIM TIM_CNT_STEP_REFUSED = satInc (s.cnt bTIM TIM_CNT_STEP_REFUSED) 1) :=
  ⟨_, congrArg Host.Outcome.next ((State.timCmd_step hi hf hl hone hb).trans
      (State.timStepOp_beyond (by simpa using hj) (by simpa using h))),
    State.refuseStep_spec.1, State.refuseStep_spec.2.1, by rw [State.refuseStep_spec.2.2, State.at_cnt]⟩

theorem servoMark_marks (hone : popCount 3 v ≤ 1) (hb : bit v 2 = 1) : Completes (.servoMark τ i v) s (fun t =>
    t.rd bTIM TIM_STAT_SOURCE = 2 ∧ t.tb.holdFrom = some t.now ∧ t.tb.time = (s.at τ).tb.time) :=
  ⟨_, congrArg Host.Outcome.next (State.timCmd_servo hi hf hl hone hb),
    (State.restartHold_rd (by decide)).trans (State.rd_wr_same _ _ _ _ (by decide)), rfl, rfl⟩

/-- An increment within 1.998 ns to 2.002 ns takes effect. -/
theorem timIncNs_within (hlo : 1998 * 4294967296 ≤ s.newInc v * 1000) (hhi : s.newInc v * 1000 ≤ 2002 * 4294967296) :
    Completes (.timIncNs τ i v) s (fun t => t.tb.inc = s.newInc v ∧ t.rd bTIM TIM_STAT_SOURCE = 2 ∧ t.rd bTIM TIM_INC_NS = bits v 0 2 ∧
      t.tb.time = (s.at τ).tb.time ∧ t.tb.holdFrom = some t.now) := by
  refine ⟨_, congrArg Host.Outcome.next ((State.timGate_open (by simpa using hi) (by simpa using hf) (by simpa using hl)).trans
    (if_pos (incOk_iff.2 (by simpa using ⟨hlo, hhi⟩)))), ?_, ?_, ?_, rfl, rfl⟩
  · rw [State.restartHold_inc]
    exact State.at_newInc
  · exact (State.restartHold_rd (by decide)).trans (State.rd_wr_same _ _ _ _ (by decide))
  · refine (State.restartHold_rd (by decide)).trans ((State.rd_wr_ne _ _ _ _ _ _ (by decide)).trans ((State.rd_wr_same _ _ _ _ (by decide)).trans ?_))
    exact Nat.mod_mod _ _

theorem timIncNs_beyond (h : 2002 * 4294967296 < s.newInc v * 1000 ∨ s.newInc v * 1000 < 1998 * 4294967296) :
    Completes (.timIncNs τ i v) s (fun t => t.rd bTIM TIM_STAT_REFUSED = 1 ∧ t.tb = (s.at τ).tb) := by
  refine ⟨_, congrArg Host.Outcome.next ((State.timGate_open (by simpa using hi) (by simpa using hf) (by simpa using hl)).trans
    (if_neg ?_)), State.refused_rd, rfl⟩
  rw [incOk_iff, State.at_newInc]
  omega

end Commands

theorem timIncNs_link (hi : s.mgmtOrHost i = true) (hf : s.rd bTIM COM_FENCE_FENCE ≠ 1) (hl : s.linkTime = true) :
    Completes (.timIncNs τ i v) s (fun t => t.rd bTIM TIM_STAT_REFUSED = 1 ∧ t.tb = (s.at τ).tb) :=
  ⟨_, congrArg Host.Outcome.next (State.timGate_link (by simpa using hi) (by simpa using hf) (by simpa using hl)), State.refused_rd, rfl⟩

theorem timNowNs_reads (h : s.regAllowed i false bTIM 0x110 = true) : Completes (.timNowNs τ i) s (fun t =>
    t.resp.status = 0 ∧ t.resp.data = [(s.at τ).tb.time / 4294967296 % 1000000000] ∧ Store.get 0 t.tb.latch i = (s.at τ).tb.time ∧
    t.tb.time = (s.at τ).tb.time) :=
  ⟨_, congrArg Host.Outcome.next (if_neg (by simp [h])), rfl, rfl, Store.get_put_same, rfl⟩

/-! ### The tick monitor and holdover (R459, R463) -/

theorem execTickMonitorWindow_due {ticks : Nat} (hp : s.rd bPWR PWR_STAT_STATE < 3) (hd : (s.at τ).due perTick 1000 = true) :
    exec (.tickMonitorWindow τ ticks) s = .next (if 499 ≤ ticks ∧ ticks ≤ 501 then (s.at τ).mark perTick
      else ((((s.at τ).mark perTick).wr bTIM TIM_STAT_TICK_FAULT 1).inc bTIM TIM_CNT_TICK_FAULT |>.raise 0x0701 bTIM).stage7 0xFF 9) := by
  refine congrArg Host.Outcome.next (if_neg ?_)
  rw [State.at_rd, hd]
  simp [hp]

theorem tickMonitorWindow_fault {ticks : Nat} (hp : s.rd bPWR PWR_STAT_STATE < 3) (hd : (s.at τ).due perTick 1000 = true)
    (h : ticks < 499 ∨ 501 < ticks) : Completes (.tickMonitorWindow τ ticks) s (fun t =>
      t.rd bTIM TIM_STAT_TICK_FAULT = 1 ∧ t.cnt bTIM TIM_CNT_TICK_FAULT = satInc (s.cnt bTIM TIM_CNT_TICK_FAULT) 1) := by
  refine ⟨_, (execTickMonitorWindow_due hp hd).trans (congrArg Host.Outcome.next (if_neg (by omega))), ?_, ?_⟩
  · rw [State.stage7_rd (by decide) (by decide), State.raise_rd _ _ _ _ _ _ (by decide), State.inc_rd]
    exact State.rd_wr_same _ _ _ _ (by decide)
  · rw [State.stage7_cnt (by decide) (by decide), State.raise_cnt _ _ _ _ _ _ (by decide), State.cnt_inc]
    exact congrArg (satInc · 1) (State.at_cnt ..)

theorem holdover_begins {h : Nat} (hf : s.tb.holdFrom = some h) (hh : s.rd bTIM TIM_STAT_HOLDOVER = 0)
    (hd : h + s.rd bTIM TIM_CFG_HOLD_MS * 1000000 ≤ (s.at τ).now) : Completes (.holdover τ) s (fun t =>
      t.rd bTIM TIM_STAT_HOLDOVER = 1 ∧ t.cnt bTIM TIM_CNT_HOLDOVER = satInc (s.cnt bTIM TIM_CNT_HOLDOVER) 1) := by
  have hx : exec (.holdover τ) s = .next ((((s.at τ).wr bTIM TIM_STAT_HOLDOVER 1).inc bTIM TIM_CNT_HOLDOVER).raise 0x0703 bTIM) := by
    refine congrArg Host.Outcome.next ?_
    rw [State.at_tb_holdFrom, hf]
    exact if_pos (by simpa using ⟨hh, hd⟩)
  refine ⟨_, hx, ?_, ?_⟩
  · rw [State.raise_rd _ _ _ _ _ _ (by decide), State.inc_rd]
    exact State.rd_wr_same _ _ _ _ (by decide)
  · rw [State.raise_cnt _ _ _ _ _ _ (by decide), State.cnt_inc]
    exact congrArg (satInc · 1) (State.at_cnt ..)

/-! ### Generators (R464-R467) -/

/-- What a generator's instant does that no step carried past. -/
def State.genActs (s : State) (k x : Nat) : State :=
  let s := if k < 4 ∧ s.act bTIM (TIM_GEN_CFG_STB k) = 1 then s.strobe k 2 else s
  let s := if s.act bTIM (TIM_GEN_CFG_TAN k) = 1 then s.forceCommits else s
  if s.act bTIM (TIM_GEN_CFG_EVT k) = 1 then s.genEvent k x else s

theorem exec_generatorInstant (hk : k < 8) (hd : (s.at τ).genDue k = some x) : exec (.generatorInstant τ k) s =
    .next (if ((s.at τ).setFired k x).steppedOver x then ((s.at τ).setFired k x).inc bTIM TIM_CNT_TRIG_SKIP
      else ((s.at τ).setFired k x).genActs k x) := by
  refine congrArg Host.Outcome.next ((if_pos hk).trans ?_)
  rw [hd]
  rfl

theorem State.strobe_keeps_time (b src : Nat) : (s.strobe b src).tb = s.tb ∧ (s.strobe b src).active = s.active ∧
    ((s.strobe b src).cnt bTIM TIM_CNT_TRIG_SKIP = s.cnt bTIM TIM_CNT_TRIG_SKIP) := by
  have missed : (s.inc bFIO (FIO_CNT_STB_MISS b)).cnt bTIM TIM_CNT_TRIG_SKIP = s.cnt bTIM TIM_CNT_TRIG_SKIP :=
    State.cnt_inc_ne (by simp only [fkey, bFIO, FIO_CNT_STB_MISS, bTIM, TIM_CNT_TRIG_SKIP]; omega)
  unfold State.strobe
  split
  · dsimp only
    split_ifs
    · exact ⟨rfl, rfl, missed⟩
    · exact ⟨rfl, rfl, rfl⟩
  · exact ⟨rfl, rfl, rfl⟩

theorem State.setTb_cnt (y : TimeBase) (b : Nat) (f : Fld) : (s.setTb y).cnt b f = s.cnt b f := rfl

theorem State.genEvent_time : (s.genEvent k x).tb = s.tb ∧ (s.genEvent k x).cnt bTIM TIM_CNT_TRIG_SKIP = s.cnt bTIM TIM_CNT_TRIG_SKIP := by
  unfold State.genEvent
  rw [State.setTb_tb, State.setTb_cnt, State.raise_cnt _ _ _ _ _ _ (by decide), State.setTb_cnt]
  exact ⟨rfl, rfl⟩

/-- A generator that commits nothing leaves the time base and the count of skipped instants. -/
theorem State.genActs_keeps (h : s.act bTIM (TIM_GEN_CFG_TAN k) = 0) : (s.genActs k x).tb = s.tb ∧
    (s.genActs k x).cnt bTIM TIM_CNT_TRIG_SKIP = s.cnt bTIM TIM_CNT_TRIG_SKIP := by
  obtain ⟨htb, hact, hcnt⟩ := s.strobe_keeps_time k 2
  have h' : (s.strobe k 2).act bTIM (TIM_GEN_CFG_TAN k) ≠ 1 := by
    rw [State.act, hact]
    exact fun e => absurd (h.symm.trans e) (by decide)
  have events (t : State) (ht : t.tb = s.tb ∧ t.cnt bTIM TIM_CNT_TRIG_SKIP = s.cnt bTIM TIM_CNT_TRIG_SKIP) :
      (if t.act bTIM (TIM_GEN_CFG_EVT k) = 1 then t.genEvent k x else t).tb = s.tb ∧
      (if t.act bTIM (TIM_GEN_CFG_EVT k) = 1 then t.genEvent k x else t).cnt bTIM TIM_CNT_TRIG_SKIP = s.cnt bTIM TIM_CNT_TRIG_SKIP := by
    split
    · exact ⟨State.genEvent_time.1.trans ht.1, State.genEvent_time.2.trans ht.2⟩
    · exact ht
  unfold State.genActs
  split
  · simp only [if_neg h']
    exact events _ ⟨htb, hcnt⟩
  · simp only [if_neg (show s.act bTIM (TIM_GEN_CFG_TAN k) ≠ 1 from fun e => absurd (h.symm.trans e) (by decide))]
    exact events _ ⟨rfl, rfl⟩

theorem generatorInstant_skipped (hk : k < 8) (hd : (s.at τ).genDue k = some x) (hs : (s.at τ).steppedOver x = true) :
    Completes (.generatorInstant τ k) s (fun t =>
      t.cnt bTIM TIM_CNT_TRIG_SKIP = satInc (s.cnt bTIM TIM_CNT_TRIG_SKIP) 1 ∧ Store.get 0 t.tb.genFired k = x ∧ t.field = s.field) :=
  ⟨_, (exec_generatorInstant hk hd).trans (congrArg Host.Outcome.next (if_pos hs)),
    (State.cnt_inc ..).trans (congrArg (satInc · 1) (State.at_cnt ..)), Store.get_put_same, State.at_field ..⟩

theorem generatorInstant_acts (hk : k < 8) (hd : (s.at τ).genDue k = some x) (hs : (s.at τ).steppedOver x = false)
    (ht : s.act bTIM (TIM_GEN_CFG_TAN k) = 0) : Completes (.generatorInstant τ k) s (fun t =>
      t.tb.time = (s.at τ).tb.time ∧ Store.get 0 t.tb.genFired k = x ∧ t.cnt bTIM TIM_CNT_TRIG_SKIP = s.cnt bTIM TIM_CNT_TRIG_SKIP) := by
  have hn : ¬ ((s.at τ).setFired k x).steppedOver x = true := fun h => absurd (hs.symm.trans h) (by decide)
  obtain ⟨htb, hcnt⟩ := State.genActs_keeps (s := (s.at τ).setFired k x) (x := x) ((State.at_act s τ _ _).trans ht)
  refine ⟨_, (exec_generatorInstant hk hd).trans (congrArg Host.Outcome.next (if_neg hn)), ?_, ?_, hcnt.trans (State.at_cnt ..)⟩
  · rw [htb]
    rfl
  · rw [htb]
    exact Store.get_put_same

theorem generatorInstant_none (hd : (s.at τ).genDue k = none) : exec (.generatorInstant τ k) s = .next (s.at τ) := by
  refine congrArg Host.Outcome.next ?_
  dsimp only
  rw [hd]
  exact ite_self _

/-! ### Captures and stamps (R468, R471) -/

section Capture
variable {c src ago : Nat} {rising : Bool}

theorem exec_captureEdge (hr : s.runs bTIM = true) (hs : s.rd bTIM (TIM_CAP_CFG_SRC c) = src)
    (he : edgeTaken (s.rd bTIM (TIM_CAP_CFG_EDGE c)) rising = true) : exec (.captureEdge τ c src rising ago) s = .next (
      let d := (s.at τ).tb.time - ago / 2 * s.tb.inc
      let r : CapRec := { rising := rising, sec := d / tbSecUnit % 4294967296, ns := d / tbNsUnit % 1000000000 }
      let l := Store.get [] s.tb.caps c
      if l.length < 16 then (s.at τ).setTb { (s.at τ).tb with caps := Store.put [] s.tb.caps c (l ++ [r]) }
      else (s.at τ).inc bTIM TIM_CNT_CAP_LOST) := by
  refine congrArg Host.Outcome.next ((if_pos (by simp [hr, hs, he])).trans ?_)
  simp only [State.at_tb_caps, State.at_tb_inc]

theorem captureEdge_idle (h : s.rd bTIM (TIM_CAP_CFG_SRC c) ≠ src ∨ edgeTaken (s.rd bTIM (TIM_CAP_CFG_EDGE c)) rising = false) :
    exec (.captureEdge τ c src rising ago) s = .next (s.at τ) := by
  refine congrArg Host.Outcome.next (if_neg ?_)
  rcases h with h | h
  · simp [h]
  · simp [h]

end Capture

theorem capWords_two (l : List CapRec) : nth 0 (capWords l) 2 = (l.head?.map (fun r => r.ns)).getD 0 := by
  cases l with
  | nil => rfl
  | cons r l => rfl

theorem ptpWords_three (l : List PtpRec) : nth 0 (ptpWords l) 3 = (l.head?.map (fun r => r.ns)).getD 0 := by
  cases l with
  | nil => rfl
  | cons r l => rfl

theorem timCapRecRead_takes {c : Nat} (h : s.regAllowed i false bTIM (0x30C + 0x20 * c) = true) : Completes (.timCapRecRead τ i c) s (fun t =>
    Store.get [] t.tb.caps c = (Store.get [] s.tb.caps c).tail ∧ t.resp.status = 0 ∧
    t.resp.data = [((Store.get [] s.tb.caps c).head?.map (fun r => r.ns)).getD 0]) := by
  refine ⟨_, congrArg Host.Outcome.next (if_neg (by simp [h])), ?_, rfl, ?_⟩
  · exact Store.get_put_same.trans (by rw [State.at_tb_caps])
  · exact congrArg (fun n => [n]) ((capWords_two _).trans (by rw [State.at_tb_caps]))

theorem State.setPtp_same (p : Nat) (rx : Bool) (l : List PtpRec) : (s.setPtp p rx l).ptpFifo p rx = l := by
  cases rx with
  | true => exact Store.get_put_same
  | false => exact Store.get_put_same

theorem State.setPtp_other (p : Nat) (rx : Bool) (l : List PtpRec) : (s.setPtp p rx l).ptpFifo p (!rx) = s.ptpFifo p (!rx) := by
  cases rx with
  | true => rfl
  | false => rfl

theorem timPtpRecRead_takes {p : Nat} {rx : Bool} (h : s.regAllowed i false bTIM ((if rx then 0x42C else 0x41C) + 0x40 * p) = true) :
    Completes (.timPtpRecRead τ i p rx) s (fun t => t.ptpFifo p rx = (s.ptpFifo p rx).tail ∧ t.ptpFifo p (!rx) = s.ptpFifo p (!rx) ∧
      t.resp.status = 0 ∧ t.resp.data = [((s.ptpFifo p rx).head?.map (fun r => r.ns)).getD 0]) := by
  refine ⟨_, congrArg Host.Outcome.next (if_neg (by simp [h])), ?_, ?_, rfl, ?_⟩
  · exact (State.setPtp_same ..).trans (by rw [State.at_ptpFifo])
  · exact (State.setPtp_other ..).trans (State.at_ptpFifo ..)
  · exact congrArg (fun n => [n]) ((ptpWords_three _).trans (by rw [State.at_ptpFifo]))

end TimeBase

/-- Settles O51, clause by clause. That STEP wraps modulo 2^64 seconds and that an instant inside a jump is skipped at its own command is log entry
77 (DEDUCED); the refusal while Traif Link governs the time is stated for the increment. -/
theorem timeIsSetSteeredAndRead : Obligations.TimeIsSetSteeredAndRead := by
  refine ⟨?_, ?_, ?_, ?_, ?_, ?_, ?_, ?_, ?_, ?_, ?_, ?_, ?_, ?_, ?_, ?_, ?_, ?_, ?_, ?_, ?_, ?_⟩
  · exact fun s τ i v hi hf hl hlo hhi => timIncNs_within hi hf hl hlo hhi
  · exact fun s τ i v hi hf hl h => timIncNs_beyond hi hf hl h
  · exact fun s τ i v hi hf hl => timIncNs_link hi hf hl
  · exact fun s τ i v hi hf hl hone hb hj => timSet_idle hi hf hl hone hb hj
  · exact fun s τ i v hi hf hl hone hb hj => timSet_job hi hf hl hone hb hj
  · exact fun s τ i v hi hf hl h => timSet_several hi hf hl h
  · exact fun s τ i v hi hf hl hone hb hj => timStep_within hi hf hl hone hb hj
  · exact fun s τ i v hi hf hl hone hb hj h => timStep_beyond hi hf hl hone hb hj h
  · exact fun s τ i v hi hf hl hone hb => servoMark_marks hi hf hl hone hb
  · exact fun s τ i h => timNowNs_reads h
  · exact fun s τ ticks hp hd h => tickMonitorWindow_fault hp hd h
  · exact fun s τ ticks hp hd hlo hhi => (execTickMonitorWindow_due hp hd).trans (congrArg Host.Outcome.next (if_pos ⟨hlo, hhi⟩))
  · intro s τ ticks h
    refine congrArg Host.Outcome.next (if_pos ?_)
    simpa using h
  · exact fun s τ h hf hh hd => holdover_begins hf hh hd
  · exact fun s τ k x hk hd hs => generatorInstant_skipped hk hd hs
  · exact fun s τ k x hk hd hs ht => generatorInstant_acts hk hd hs ht
  · exact fun s τ k hd => generatorInstant_none hd
  · intro s τ c src rising ago hr hs he hl
    exact ⟨_, (exec_captureEdge hr hs he).trans (congrArg Host.Outcome.next (if_pos hl)), Store.get_put_same⟩
  · intro s τ c src rising ago hr hs he hl
    exact ⟨_, (exec_captureEdge hr hs he).trans (congrArg Host.Outcome.next (if_neg (by omega))),
      (State.cnt_inc ..).trans (congrArg (satInc · 1) (State.at_cnt ..)), rfl⟩
  · exact fun s τ c src rising ago h => captureEdge_idle h
  · exact fun s τ i c h => timCapRecRead_takes h
  · exact fun s τ i p rx h => timPtpRecRead_takes h

end Sys2Proof.Machine
end

section
/-!
PROOFS. The statement on encoders, probes and the position read.
-/

namespace Sys2Proof.Machine

/-! ### Registers and counters that reactions leave, by block -/

section Blocks
variable {s t : State} {b p : Nat} {f : Fld}

/-- The blocks in which a reaction writes a register. -/
def reactionBlocks : List Nat := [bPWR, bHLT, bEVQ, bMEM4, bSCH, bKVC, bFIO]

theorem reactionFields_block : ∀ k ∈ reactionFields, k / 33554432 ∈ reactionBlocks := by decide
theorem reactionCounts_block : ∀ k ∈ reactionCounts, k / 33554432 ∈ reactionBlocks := by decide

/-- A register of a block in which no reaction writes. -/
theorem steadyReg_block (hb : b ∉ reactionBlocks ∧ b < 30) (hf : f.off < 1048576 ∧ f.lo < 32) : steadyReg (fkey b f) = true := by
  obtain ⟨hn, hb⟩ := hb
  have hk := fkey_block (b := b) hf.1 hf.2
  have hm : fkey b f ∉ reactionFields := fun h => hn (hk ▸ reactionFields_block _ h)
  simp only [reactionBlocks, List.mem_cons, List.not_mem_nil, or_false, not_or] at hn
  refine decide_eq_true ?_
  rw [hk]
  refine ⟨by tauto, by tauto, by tauto, by tauto, hm, by omega, ?_⟩
  have h16 : b ≠ 16 := by simp only [bSCH] at hn; tauto
  simp only [fkey, bSCH, SCH_CTX_STATE_CSTATE] at hk ⊢
  omega

/-- A counter of a block below the ejection ports in which no reaction writes a register. -/
theorem steadyCnt_block (hb : b ∉ reactionBlocks ∧ b < 30) (hf : f.off < 1048576 ∧ f.lo < 32) : steadyCnt (fkey b f) = true := by
  obtain ⟨hn, hb⟩ := hb
  have hk := fkey_block (b := b) hf.1 hf.2
  have hm : fkey b f ∉ reactionCounts := fun h => hn (hk ▸ reactionCounts_block _ h)
  simp only [reactionBlocks, List.mem_cons, List.not_mem_nil, or_false, not_or] at hn
  refine decide_eq_true ?_
  rw [hk]
  exact ⟨by tauto, by tauto, by tauto, hb, hm⟩

theorem bSTP_free (hp : p < 2) : bSTP p ∉ reactionBlocks ∧ bSTP p < 30 := by
  interval_cases p <;> decide

/-- Two fields of different blocks lie apart. -/
theorem fkey_ne_of_block {c : Nat} {g : Fld} (hbc : b ≠ c) (hf : f.off < 1048576 ∧ f.lo < 32) (hg : g.off < 1048576 ∧ g.lo < 32) :
    fkey b f ≠ fkey c g := fun h => hbc (by rw [← fkey_block (b := b) hf.1 hf.2, h, fkey_block hg.1 hg.2])

/-- Two fields of one block lie apart when their offsets or bits do. -/
theorem fkey_ne_of_place {g : Fld} (h : fkey 0 f ≠ fkey 0 g) : fkey b f ≠ fkey b g := fun e =>
  h (by simp only [fkey, Nat.add_assoc] at e ⊢; exact congrArg _ (Nat.add_left_cancel e))

end Blocks

/-! ### What an encoder fault leaves (R416, R417) -/

section EncFault
variable {s : State} {p q : Nat} {f : Fld}

@[simp] theorem State.stpP_setStp_same (x : StpPort) : (s.setStp p x).stpP p = x := Store.get_put_same

theorem State.rd_setSlot {b k : Nat} {x : Option Slot} (h : fkey (bEJT p) EJT_OPEN ≠ fkey b f) : (s.setSlot p k x).rd b f = s.rd b f :=
  State.rd_wr_ne _ _ _ _ _ _ h

/-- Marking the slots of a port as affected leaves everything but them. -/
theorem State.markAffected_rd {b : Nat} (h : fkey (bEJT p) EJT_OPEN ≠ fkey b f) : (s.markAffected p).rd b f = s.rd b f :=
  foldl_keeps (fun s : State => s.rd b f) fun _ _ _ => State.rd_setSlot h

theorem State.markAffected_cnt (b : Nat) (f : Fld) : (s.markAffected p).cnt b f = s.cnt b f :=
  foldl_keeps (fun s : State => s.cnt b f) fun _ _ _ => rfl

theorem State.markAffected_part {α : Type} (g : State → α) (hg : ∀ (s : State) k x, g (s.setSlot p k x) = g s) : g (s.markAffected p) = g s :=
  foldl_keeps g fun s _ _ => hg s ..

theorem bSTP_apart_EJT (hp : p < 2) (hq : q < 2) (hf : f.off < 1048576 ∧ f.lo < 32) : fkey (bEJT p) EJT_OPEN ≠ fkey (bSTP q) f :=
  fkey_ne_of_block (by simp only [bEJT, bSTP]; omega) (by decide) hf

theorem offEvents_bSTP (p : Nat) (f : Fld) : offEvents (fkey (bSTP p) f) = true := offEvents_above (by simp only [bSTP, bMEM4]; omega) f

theorem bSTP_apart_HLT (hf : f.off < 1048576 ∧ f.lo < 32) : fkey bHLT HLT_STAT_STG_FAULT ≠ fkey (bSTP q) f :=
  fkey_ne_of_block (by simp only [bHLT, bSTP]; omega) (by decide) hf

theorem bSTP_no_stage_count (hf : f.off < 1048576 ∧ f.lo < 32) :
    fkey (bSTP q) f ∉ [fkey bHLT HLT_CNT_STG_EARLY, fkey bHLT HLT_CNT_STG_LATE, fkey bHLT HLT_CNT_STG_UNKNOWN] := by
  have hb : bSTP q ≠ bHLT := by simp only [bHLT, bSTP]; omega
  have h (g : Fld) (hg : g.off < 1048576 ∧ g.lo < 32) : fkey (bSTP q) f ≠ fkey bHLT g := fkey_ne_of_block hb hf hg
  simp only [List.mem_cons, List.not_mem_nil, or_false, not_or]
  exact ⟨h _ (by decide), h _ (by decide), h _ (by decide)⟩

/-- An episode of encoder faults begins on port `p`. -/
def State.encEpisode (s : State) (p : Nat) : State :=
  ((((s.wr (bSTP p) STP_STAT_ENC_FAULT 1).wr (bSTP p) STP_STAT_FAULT_NOW 1).inc (bSTP p) STP_CNT_ENC_FAULT).raise 0x0601 (bSTP p) p).markAffected p

theorem State.encFault_eq : s.encFault p = (let s := s.setStp p { s.stpP p with lastBad := s.now }
    if s.rd (bSTP p) STP_STAT_FAULT_NOW = 1 then s else (s.encEpisode p).stage7 p (4 * p + 1)) := rfl

theorem State.encEpisode_rd (hp : p < 2) (hf : f.off < 1048576 ∧ f.lo < 32) : (s.encEpisode p).rd (bSTP p) f =
    ((s.wr (bSTP p) STP_STAT_ENC_FAULT 1).wr (bSTP p) STP_STAT_FAULT_NOW 1).rd (bSTP p) f := by
  unfold State.encEpisode
  rw [State.markAffected_rd (bSTP_apart_EJT hp hp hf), State.raise_rd _ _ _ _ _ _ (offEvents_bSTP p f), State.inc_rd]

theorem State.encEpisode_cnt (hn : fkey (bSTP p) STP_CNT_ENC_FAULT ≠ fkey (bSTP p) f) :
    (s.encEpisode p).cnt (bSTP p) f = s.cnt (bSTP p) f := by
  unfold State.encEpisode
  rw [State.markAffected_cnt, State.raise_cnt _ _ _ _ _ _ (offEvents_bSTP p f), State.cnt_inc_ne hn]
  rfl

section Within
variable (hp : p < 2)
include hp

/-- The registers of the port after an encoder fault: its bits are set, the others stay. -/
theorem State.encFault_rd (hf : f.off < 1048576 ∧ f.lo < 32) (hn : fkey (bSTP p) STP_STAT_ENC_FAULT ≠ fkey (bSTP p) f ∧
    fkey (bSTP p) STP_STAT_FAULT_NOW ≠ fkey (bSTP p) f) : (s.encFault p).rd (bSTP p) f = s.rd (bSTP p) f := by
  rw [State.encFault_eq]
  dsimp only
  split
  · rfl
  · rw [State.stage7_rd (steadyReg_block (bSTP_free hp) hf) (bSTP_apart_HLT hf), State.encEpisode_rd hp hf, State.rd_wr_ne _ _ _ _ _ _ hn.2,
      State.rd_wr_ne _ _ _ _ _ _ hn.1]
    rfl

theorem State.encFault_now : (s.encFault p).rd (bSTP p) STP_STAT_FAULT_NOW = 1 := by
  rw [State.encFault_eq]
  dsimp only
  split
  · assumption
  · rw [State.stage7_rd (steadyReg_block (bSTP_free hp) (by decide)) (bSTP_apart_HLT (by decide)), State.encEpisode_rd hp (by decide),
      State.rd_wr_same _ _ _ _ (by decide)]
    rfl

theorem State.encFault_cnt (hf : f.off < 1048576 ∧ f.lo < 32) (hn : fkey (bSTP p) STP_CNT_ENC_FAULT ≠ fkey (bSTP p) f) :
    (s.encFault p).cnt (bSTP p) f = s.cnt (bSTP p) f := by
  rw [State.encFault_eq]
  dsimp only
  split
  · rfl
  · rw [State.stage7_cnt (steadyCnt_block (bSTP_free hp) hf) (bSTP_no_stage_count hf), State.encEpisode_cnt hn]
    rfl

end Within

/-- What an encoder fault leaves of the state beside registers and slots. -/
theorem State.encFault_part {α : Type} (g : State → α) (hg : ∀ s : State, g s.steadyCore = g s)
    (hs : ∀ (s : State) k x, g (s.setSlot p k x) = g s) (hm : ∀ s k, g (State.markS7 s k) = g s) :
    g (s.encFault p) = g (s.setStp p { s.stpP p with lastBad := s.now }) := by
  have wrote (t : State) (b n : Nat) (f : Fld) : g (t.wr b f n) = g t := (hg (t.wr b f n)).symm.trans (hg t)
  have counted (t : State) (b : Nat) (f : Fld) : g (t.inc b f) = g t := (hg (t.inc b f)).symm.trans (hg t)
  rw [State.encFault_eq]
  dsimp only
  split
  · rfl
  · rw [State.stage7, State.stageFault_part g hg, hm, State.encEpisode, State.markAffected_part g hs,
      State.part_of_steady g hg (State.raise_steady ..), counted, wrote, wrote]

theorem State.encFault_stpP : (s.encFault p).stpP p = { s.stpP p with lastBad := s.now } := by
  have h : (s.encFault p).stp = (s.setStp p { s.stpP p with lastBad := s.now }).stp :=
    State.encFault_part State.stp (fun _ => rfl) (fun _ _ _ => rfl) fun s k => by simp
  rw [State.stpP, h]
  exact Store.get_put_same

theorem State.encFault_sys : (s.encFault p).sys = s.sys :=
  State.encFault_part State.sys (fun _ => rfl) (fun _ _ _ => rfl) fun s k => by unfold State.markS7; split <;> rfl

/-! #### Illegal events -/

/-- An illegal event as far as it is no encoder fault. -/
def State.illegalMark (s : State) (p : Nat) : State :=
  let x := s.stpP p
  (s.setStp p { x with illegal := s.now :: x.illegal.filter (fun y => s.now < y + 1000000), lastIllegal := s.now, lastBad := s.now }).wr
    (bSTP p) STP_STAT_UNCERTAIN 1

theorem State.illegalEvent_eq : s.illegalEvent p = if 4 < (s.now :: (s.stpP p).illegal.filter (fun y => s.now < y + 1000000)).length then
    (s.illegalMark p).encFault p else s.illegalMark p := rfl

theorem State.illegalEvent_uncertain (hp : p < 2) : (s.illegalEvent p).rd (bSTP p) STP_STAT_UNCERTAIN = 1 := by
  have marked : (s.illegalMark p).rd (bSTP p) STP_STAT_UNCERTAIN = 1 := State.rd_wr_same _ _ _ _ (by decide)
  rw [State.illegalEvent_eq]
  split
  · rw [State.encFault_rd hp (by decide) ⟨fkey_ne_of_place (by decide), fkey_ne_of_place (by decide)⟩, marked]
  · exact marked

theorem State.illegalEvent_cnt (hp : p < 2) (hf : f.off < 1048576 ∧ f.lo < 32) (hn : fkey (bSTP p) STP_CNT_ENC_FAULT ≠ fkey (bSTP p) f) :
    (s.illegalEvent p).cnt (bSTP p) f = s.cnt (bSTP p) f := by
  rw [State.illegalEvent_eq]
  split
  · exact State.encFault_cnt hp hf hn
  · rfl

theorem State.illegalEvent_sys : (s.illegalEvent p).sys = s.sys := by
  rw [State.illegalEvent_eq]
  split
  · exact State.encFault_sys
  · rfl

/-- An illegal event moves nothing of its port but its record of faults. -/
theorem State.illegalEvent_stpP : ∃ l i n, (s.illegalEvent p).stpP p = { s.stpP p with illegal := l, lastIllegal := i, lastBad := n } := by
  have marked : (s.illegalMark p).stpP p =
      { s.stpP p with illegal := s.now :: (s.stpP p).illegal.filter (fun y => s.now < y + 1000000), lastIllegal := s.now, lastBad := s.now } :=
    Store.get_put_same
  rw [State.illegalEvent_eq]
  split
  · rw [State.encFault_stpP, marked]
    exact ⟨_, _, _, rfl⟩
  · rw [marked]
    exact ⟨_, _, _, rfl⟩

end EncFault

end Sys2Proof.Machine
end

section
/-!
PROOFS. The statement on encoders, probes and the position read: its clauses.
-/

namespace Sys2Proof.Machine

section Encoder
variable {s : State} {τ p held : Nat} {a b : Bool} {f : Fld}

/-! ### Edges (R414-R416, R423-R427) -/

/-- What an edge changes of its port: the count moves, the levels and the last word stay. -/
def StpPort.Moved (x y : StpPort) (d : Int) : Prop := y.count = x.count + d ∧ y.a = x.a ∧ y.b = x.b ∧ y.ssiPrev = x.ssiPrev

theorem State.takeDir_side (back : Bool) : (s.takeDir p back).stp = s.stp ∧ (s.takeDir p back).sys = s.sys := by
  unfold State.takeDir
  dsimp only
  generalize (if back then 1 else 0) = d
  split
  · exact ⟨rfl, rfl⟩
  · exact ⟨rfl, rfl⟩

/-- A state whose port alone has been moved. -/
def State.PortMoved (s : State) (p : Nat) (d : Int) (t : State) : Prop := (∃ y, t.stp = Store.put {} s.stp p y ∧ (s.stpP p).Moved y d) ∧ t.sys = s.sys

theorem State.PortMoved.count {d : Int} {t : State} (h : s.PortMoved p d t) : (s.stpP p).Moved (t.stpP p) d := by
  obtain ⟨⟨y, hy, hm⟩, -⟩ := h
  rwa [State.stpP, State.stpP, hy, Store.get_put_same]

theorem State.PortMoved.congr {d : Int} {t u : State} (h : s.PortMoved p d t) (hs : u.stp = t.stp ∧ u.sys = t.sys) : s.PortMoved p d u := by
  obtain ⟨⟨y, hy, hm⟩, hsys⟩ := h
  exact ⟨⟨y, hs.1.trans hy, hm⟩, hs.2.trans hsys⟩

/-- An edge moves its port's count, and nothing of the module's identity and factory program. -/
theorem State.takeEdge_moves (te : Nat) (d : Int) : s.PortMoved p d (s.takeEdge p te d) := by
  have put (t : State) (ht : t.stp = s.stp ∧ t.sys = s.sys) (y : StpPort) (hy : (s.stpP p).Moved y d) : s.PortMoved p d (t.setStp p y) :=
    ⟨⟨y, by rw [State.setStp_stp, ht.1], hy⟩, ht.2⟩
  unfold State.takeEdge
  extract_lets _ x back win total x1 first still differs u pend run v u1 u2
  have hu : u.stp = s.stp ∧ u.sys = s.sys := by
    simp only [u]
    split
    · exact ⟨rfl, rfl⟩
    · exact ⟨rfl, rfl⟩
  split
  · exact put _ hu _ ⟨rfl, rfl, rfl, rfl⟩
  split
  · split
    · refine put (pend.takeDir p back) ⟨(State.takeDir_side back).1.trans hu.1, (State.takeDir_side back).2.trans hu.2⟩ _ ?_
      exact ⟨rfl, rfl, rfl, rfl⟩
    · exact put _ hu _ ⟨rfl, rfl, rfl, rfl⟩
  · have h1 : s.PortMoved p d u1 := put u hu _ ⟨rfl, rfl, rfl, rfl⟩
    have h2 : s.PortMoved p d u2 := by
      refine h1.congr ?_
      simp only [u2]
      split
      · exact ⟨rfl, rfl⟩
      · exact ⟨rfl, rfl⟩
    split
    · refine h2.congr ⟨(State.takeDir_side back).1.trans ?_, (State.takeDir_side back).2.trans ?_⟩
      · split <;> rfl
      · split <;> rfl
    · exact h2.congr ⟨(State.takeDir_side back).1, (State.takeDir_side back).2⟩

theorem State.motion_moves (te : Nat) (d : Int) : s.PortMoved p d (s.motion p te d) :=
  State.takeEdge_moves (s := s.noteReached p) te d

/-- Before the filter, a transition of a counting port that passes leaves the levels and may wake the module. -/
def State.levels (s : State) (p : Nat) (a b : Bool) : State :=
  let x := s.stpP p
  let s1 := s.setStp p { x with a := a, b := b }
  let ssi := if s.domOn (bSTP p) then s.rd (bSTP p) STP_MODE_MODE else bit s.pwr.ssi p
  if ssi = 0 ∧ (x.a ≠ a ∨ x.b ≠ b) then s1.wake p else s1

theorem State.levels_side : (s.levels p a b).stp = Store.put {} s.stp p { s.stpP p with a := a, b := b } ∧ (s.levels p a b).sys = s.sys := by
  unfold State.levels
  dsimp only
  generalize (if s.domOn (bSTP p) then s.rd (bSTP p) STP_MODE_MODE else bit s.pwr.ssi p) = ssi
  split
  · exact ⟨(State.part_of_steady State.stp (fun _ => rfl) (State.wake_steady p)).trans rfl,
      (State.part_of_steady State.sys (fun _ => rfl) (State.wake_steady p)).trans rfl⟩
  · exact ⟨rfl, rfl⟩

theorem State.levels_stpP : (s.levels p a b).stpP p = { s.stpP p with a := a, b := b } := by
  rw [State.stpP, State.levels_side.1, Store.get_put_same]

theorem State.levels_cnt (hp : p < 2) (hf : f.off < 1048576 ∧ f.lo < 32) : (s.levels p a b).cnt (bSTP p) f = s.cnt (bSTP p) f := by
  unfold State.levels
  dsimp only
  generalize (if s.domOn (bSTP p) then s.rd (bSTP p) STP_MODE_MODE else bit s.pwr.ssi p) = ssi
  split
  · exact (State.cnt_of_steady (steadyCnt_block (bSTP_free hp) hf) (State.wake_steady p)).trans rfl
  · rfl

/-- The factory program does nothing at an edge of a port that is not its own, or while it is off. -/
theorem factoryEdge_off {u : State} (hfac : p = 0 → s.sys.factory.on = false) (hu : u.sys = s.sys) :
    (if p = 0 then State.factoryEdge s u else u) = u := by
  split
  next h0 => exact if_pos (.inl (by rw [hu, hfac h0]; rfl))
  · rfl

section Counting
variable (hfac : p = 0 → s.sys.factory.on = false) (hon : s.isOn (bSTP p) = true) (hmode : s.rd (bSTP p) STP_MODE_MODE = 0)
include hfac hon hmode

/-- A transition that the filter of a counting port passes. -/
theorem exec_encoderEdge {u : State} (hheld : s.rd (bSTP p) STP_MODE_FILT + 1 ≤ held)
    (hu : u = (if (s.stpP p).a ≠ a ∧ (s.stpP p).b ≠ b then (((s.at τ).levels p a b).inc (bSTP p) STP_CNT_QUAD_ILLEGAL).illegalEvent p
      else
        let d := quadDelta (s.rd (bSTP p) STP_MODE_DECODE) (s.rd (bSTP p) STP_MODE_INVERT == 1) (s.stpP p).a (s.stpP p).b a b
        if d = 0 then (s.at τ).levels p a b else ((s.at τ).levels p a b).motion p ((s.at τ).levels p a b).now d))
    (hsys : u.sys = s.sys) : exec (.encoderEdge τ p a b held) s = .next u := by
  have hdo : doEncoderEdge τ p a b held s = u := by
    rw [hu]
    simp only [doEncoderEdge, State.stpPasses, State.at_stpP, State.at_rd, State.at_isOn, hon, hmode, hheld, decide_true, Bool.and_true,
      Bool.and_false, Bool.not_true, Bool.false_eq_true, if_false, Bool.or_self, beq_self_eq_true, State.levels]
  show Host.Outcome.next (if p = 0 then State.factoryEdge s (doEncoderEdge τ p a b held s) else doEncoderEdge τ p a b held s) = _
  rw [hdo, factoryEdge_off hfac hsys]

theorem encoderEdge_legal (hheld : s.rd (bSTP p) STP_MODE_FILT + 1 ≤ held) (hl : a = (s.stpP p).a ∨ b = (s.stpP p).b) :
    Completes (.encoderEdge τ p a b held) s (fun t =>
      (t.stpP p).count = (s.stpP p).count + quadDelta (s.rd (bSTP p) STP_MODE_DECODE) (s.rd (bSTP p) STP_MODE_INVERT == 1) (s.stpP p).a
        (s.stpP p).b a b ∧ (t.stpP p).a = a ∧ (t.stpP p).b = b) := by
  have hn : ¬ ((s.stpP p).a ≠ a ∧ (s.stpP p).b ≠ b) := by
    rintro ⟨ha, hb⟩
    rcases hl with h | h
    · exact ha h.symm
    · exact hb h.symm
  have hx := exec_encoderEdge (τ := τ) (a := a) (b := b) (u := _) hfac hon hmode hheld rfl
  rw [if_neg hn] at hx
  dsimp only at hx
  have hlev : ((s.at τ).levels p a b).stpP p = { s.stpP p with a := a, b := b } := by rw [State.levels_stpP, State.at_stpP]
  have hlsys : ((s.at τ).levels p a b).sys = s.sys := State.levels_side.2.trans (State.at_sys s τ)
  generalize quadDelta _ _ _ _ a b = d at hx ⊢
  by_cases hd : d = 0
  · rw [if_pos hd] at hx
    refine ⟨_, hx hlsys, ?_⟩
    dsimp only
    rw [hlev, hd]
    exact ⟨(Int.add_zero _).symm, rfl, rfl⟩
  · rw [if_neg hd] at hx
    have hm := State.motion_moves (s := (s.at τ).levels p a b) (p := p) ((s.at τ).levels p a b).now d
    refine ⟨_, hx (hm.2.trans hlsys), ?_⟩
    dsimp only
    obtain ⟨hc, ha, hb, -⟩ := hm.count
    rw [hc, ha, hb, hlev]
    exact ⟨rfl, rfl, rfl⟩

theorem encoderEdge_illegal (hp : p < 2) (hheld : s.rd (bSTP p) STP_MODE_FILT + 1 ≤ held) (ha : a ≠ (s.stpP p).a) (hb : b ≠ (s.stpP p).b) :
    Completes (.encoderEdge τ p a b held) s (fun t =>
      (t.stpP p).count = (s.stpP p).count ∧ (t.stpP p).a = a ∧ (t.stpP p).b = b ∧ t.rd (bSTP p) STP_STAT_UNCERTAIN = 1 ∧
      t.cnt (bSTP p) STP_CNT_QUAD_ILLEGAL = satInc (s.cnt (bSTP p) STP_CNT_QUAD_ILLEGAL) 1) := by
  have hx := exec_encoderEdge (τ := τ) (a := a) (b := b) (u := _) hfac hon hmode hheld rfl
  rw [if_pos ⟨ha.symm, hb.symm⟩] at hx
  refine ⟨_, hx (State.illegalEvent_sys.trans (State.levels_side.2.trans (State.at_sys s τ))), ?_⟩
  obtain ⟨l, i, n, hport⟩ := State.illegalEvent_stpP (s := ((s.at τ).levels p a b).inc (bSTP p) STP_CNT_QUAD_ILLEGAL) (p := p)
  have hlev : (((s.at τ).levels p a b).inc (bSTP p) STP_CNT_QUAD_ILLEGAL).stpP p = { s.stpP p with a := a, b := b } :=
    (State.levels_stpP (s := s.at τ)).trans (by rw [State.at_stpP])
  rw [hport, hlev]
  refine ⟨rfl, rfl, rfl, State.illegalEvent_uncertain hp, ?_⟩
  rw [State.illegalEvent_cnt hp (by decide) (fkey_ne_of_place (by decide)), State.cnt_inc, State.levels_cnt hp (by decide), State.at_cnt]

theorem encoderEdge_filtered (hp : p < 2) (hheld : held ≤ s.rd (bSTP p) STP_MODE_FILT) : Completes (.encoderEdge τ p a b held) s (fun t =>
    t.stpP p = s.stpP p ∧ t.cnt (bSTP p) STP_CNT_QUAD_ILLEGAL = s.cnt (bSTP p) STP_CNT_QUAD_ILLEGAL) := by
  have hdo : doEncoderEdge τ p a b held s = if (if s.domOn (bSTP p) then (0 : Nat) else bit s.pwr.ssi p) = 0 ∧ ((s.stpP p).a ≠ a ∨ (s.stpP p).b ≠ b)
      then (s.at τ).wake p else s.at τ := by
    have hn : ¬ s.rd (bSTP p) STP_MODE_FILT + 1 ≤ held := by omega
    simp only [doEncoderEdge, State.stpPasses, State.at_stpP, State.at_rd, State.at_isOn, hon, hmode, hn, decide_false, Bool.and_true,
      Bool.not_false, if_true, Bool.or_true, beq_self_eq_true, State.at_domOn, State.at_pwr]
  have side : (doEncoderEdge τ p a b held s).steady = (s.at τ).steady := by
    rw [hdo]
    generalize (if s.domOn (bSTP p) then (0 : Nat) else bit s.pwr.ssi p) = ssi
    split
    · exact State.wake_steady p
    · rfl
  have stp : (doEncoderEdge τ p a b held s).stp = s.stp := (State.part_of_steady State.stp (fun _ => rfl) side).trans (State.at_stp s τ)
  refine ⟨_, congrArg Host.Outcome.next (factoryEdge_off hfac ((State.part_of_steady State.sys (fun _ => rfl) side).trans (State.at_sys s τ))), ?_, ?_⟩
  · rw [State.stpP, stp, State.stpP]
  · rw [State.cnt_of_steady (steadyCnt_block (bSTP_free hp) (by decide)) side, State.at_cnt]

end Counting

/-! ### Wire breaks and the index (R418, R419) -/

theorem State.encFault_wire (hp : p < 2) : (s.encFault p).rd (bSTP p) STP_STAT_WIRE = s.rd (bSTP p) STP_STAT_WIRE :=
  State.encFault_rd hp (by decide) ⟨fkey_ne_of_place (by decide), fkey_ne_of_place (by decide)⟩

/-- Setting a clear bit of three stays within three bits. -/
theorem add_bit_lt_eight {n k : Nat} (hn : n < 8) (hk : k < 3) (hb : bit n k = 0) : n + 2 ^ k < 8 := by
  interval_cases k <;> simp only [bit] at hb <;> omega

theorem State.pairInUse_lt {pair : Nat} (h : s.pairInUse p pair = true) : pair < 3 := by
  unfold State.pairInUse at h
  split at h
  · simp only [beq_iff_eq] at h
    omega
  · simp only [Bool.or_eq_true, Bool.and_eq_true, beq_iff_eq] at h
    omega

theorem wireBreak_sets {pair : Nat} (hp : p < 2) (hon : s.isOn (bSTP p) = true) (hu : s.pairInUse p pair = true)
    (hb : bit (s.rd (bSTP p) STP_STAT_WIRE) pair = 0) (hw : s.rd (bSTP p) STP_STAT_WIRE < 8) : Completes (.wireBreak τ p pair) s (fun t =>
      t.rd (bSTP p) STP_STAT_WIRE = s.rd (bSTP p) STP_STAT_WIRE + 2 ^ pair ∧ t.rd (bSTP p) STP_STAT_FAULT_NOW = 1 ∧
      t.cnt (bSTP p) STP_CNT_WIRE = satInc (s.cnt (bSTP p) STP_CNT_WIRE) 1) := by
  have hu' : (s.at τ).pairInUse p pair = true := by simpa [State.pairInUse] using hu
  refine ⟨_, congrArg Host.Outcome.next (if_pos (by simp [hon, hu', hb])), ?_, State.encFault_now hp, ?_⟩
  · rw [State.encFault_wire hp, State.inc_rd, State.rd_wr_same _ _ _ _ (by decide), State.at_rd]
    exact Nat.mod_eq_of_lt (add_bit_lt_eight hw (State.pairInUse_lt hu) hb)
  · rw [State.encFault_cnt hp (by decide) (fkey_ne_of_place (by decide)), State.cnt_inc]
    exact congrArg (satInc · 1) (State.at_cnt ..)

theorem wireBreakEnd_clears {pair : Nat} (hb : bit (s.rd (bSTP p) STP_STAT_WIRE) pair = 1) (hw : s.rd (bSTP p) STP_STAT_WIRE < 8) :
    Completes (.wireBreakEnd τ p pair) s (fun t =>
      t.rd (bSTP p) STP_STAT_WIRE = s.rd (bSTP p) STP_STAT_WIRE - 2 ^ pair ∧ (t.stpP p).lastBad = t.now) := by
  refine ⟨_, congrArg Host.Outcome.next (if_pos (by simpa using hb)), ?_, by rw [State.stpP_setStp_same]; rfl⟩
  rw [State.setStp_rd, State.rd_wr_same _ _ _ _ (by decide), State.at_rd]
  exact Nat.mod_eq_of_lt ((Nat.sub_le _ _).trans_lt hw)

theorem State.rd64_wr64 {c n : Nat} {lo hi : Fld} (hl : lo.w = 32) (hh : hi.w = 32) (hne : fkey c hi ≠ fkey c lo) (hn : n < 2 ^ 64) :
    (s.wr64 c lo hi n).rd64 c lo hi = n := by
  rw [State.rd64, State.wr64, State.rd_wr_ne _ _ _ _ _ _ hne, State.rd_wr_same _ _ _ _ hl.le, State.rd_wr_same _ _ _ _ hh.le, hl, hh]
  omega

theorem State.rd64_wr_ne {c d n : Nat} {lo hi g : Fld} (hl : fkey d g ≠ fkey c lo) (hh : fkey d g ≠ fkey c hi) :
    (s.wr d g n).rd64 c lo hi = s.rd64 c lo hi := by
  rw [State.rd64, State.rd_wr_ne _ _ _ _ _ _ hl, State.rd_wr_ne _ _ _ _ _ _ hh, State.rd64]

/-- What an index edge shows: the position and its bits. -/
def State.indexed (s : State) (p : Nat) : State :=
  ((s.wr64 (bSTP p) STP_ZPOS_LO STP_ZPOS_HI (toCode 64 (s.portPos p))).wr (bSTP p) STP_STAT_Z_SEEN 1).inc (bSTP p) STP_CNT_Z

theorem State.inc_rd64 {c n : Nat} {lo hi g : Fld} {d : Nat} : (s.inc d g n).rd64 c lo hi = s.rd64 c lo hi := rfl

theorem State.indexed_rd64 : (s.indexed p).rd64 (bSTP p) STP_ZPOS_LO STP_ZPOS_HI = toCode 64 (s.portPos p) := by
  rw [State.indexed, State.inc_rd64, State.rd64_wr_ne (fkey_ne_of_place (by decide)) (fkey_ne_of_place (by decide)),
    State.rd64_wr64 rfl rfl (fkey_ne_of_place (by decide)) (toCode_lt ..)]

theorem State.indexed_seen : (s.indexed p).rd (bSTP p) STP_STAT_Z_SEEN = 1 := by
  rw [State.indexed, State.inc_rd, State.rd_wr_same _ _ _ _ (by decide)]
  rfl

theorem indexEdge_latches (hon : s.isOn (bSTP p) = true) (hm : s.rd (bSTP p) STP_MODE_MODE = 0)
    (hheld : s.rd (bSTP p) STP_MODE_FILT + 1 ≤ held) (hz : s.rd (bSTP p) STP_MODE_Z_MODE ≠ 0) : Completes (.indexEdge τ p held) s (fun t =>
      t.rd64 (bSTP p) STP_ZPOS_LO STP_ZPOS_HI = toCode 64 ((s.at τ).portPos p) ∧ t.rd (bSTP p) STP_STAT_Z_SEEN = 1 ∧
      t.cnt (bSTP p) STP_CNT_Z = satInc (s.cnt (bSTP p) STP_CNT_Z) 1 ∧
      (t.stpP p).count = (if s.rd (bSTP p) STP_MODE_Z_MODE = 2 then 0 else (s.stpP p).count)) := by
  have hx : exec (.indexEdge τ p held) s = .next (let u := (s.at τ).indexed p
      if s.rd (bSTP p) STP_MODE_Z_MODE = 2 then
        (((u.noteReached p).wr (bSTP p) STP_MODE_Z_MODE 1).setStp p { u.stpP p with count := 0, baseAt := u.now }).noteReached p
      else u) :=
    congrArg Host.Outcome.next ((if_pos (by simp [hon, hm, hz, State.stpPasses, hheld])).trans (by rw [State.at_rd]; rfl))
  have counted : ((s.at τ).indexed p).cnt (bSTP p) STP_CNT_Z = satInc (s.cnt (bSTP p) STP_CNT_Z) 1 :=
    (State.cnt_inc ..).trans (congrArg (satInc · 1) (State.at_cnt ..))
  by_cases h2 : s.rd (bSTP p) STP_MODE_Z_MODE = 2
  · refine ⟨_, hx, ?_⟩
    simp only [if_pos h2]
    have outer (t : State) (x : StpPort) : ((t.setStp p x).noteReached p).rd (bSTP p) = t.rd (bSTP p) := rfl
    have other {f : Fld} (h : fkey 0 STP_MODE_Z_MODE ≠ fkey 0 f) :
        ((((s.at τ).indexed p).noteReached p).wr (bSTP p) STP_MODE_Z_MODE 1).rd (bSTP p) f = ((s.at τ).indexed p).rd (bSTP p) f :=
      State.rd_wr_ne _ _ _ _ _ _ (fkey_ne_of_place h)
    have cnt (t : State) (f : Fld) (n : Nat) (x : StpPort) :
        ((((t.noteReached p).wr (bSTP p) f n).setStp p x).noteReached p).cnt (bSTP p) STP_CNT_Z = t.cnt (bSTP p) STP_CNT_Z := rfl
    refine ⟨?_, ?_, (cnt ..).trans counted, ?_⟩
    · rw [State.rd64, outer, other (by decide), other (by decide)]
      exact State.indexed_rd64
    · rw [outer, other (by decide)]
      exact State.indexed_seen
    · have port (t : State) (x : StpPort) : ((t.setStp p x).noteReached p).stpP p = x := Store.get_put_same
      rw [port]
  · refine ⟨_, hx, ?_⟩
    simp only [if_neg h2]
    exact ⟨State.indexed_rd64, State.indexed_seen, counted, congrArg StpPort.count (State.at_stpP ..)⟩

/-! ### SSI reads (R420-R422) -/

theorem State.ssiFail_spec {c : Fld} {jump : Bool} (hp : p < 2) (hc : c = (if jump then STP_CNT_SSI_JUMP else STP_CNT_SSI_FRAME)) :
    (s.ssiFail p jump).cnt (bSTP p) c = satInc (s.cnt (bSTP p) c) 1 ∧ (s.ssiFail p jump).rd (bSTP p) STP_STAT_UNCERTAIN = 1 := by
  refine ⟨?_, State.illegalEvent_uncertain hp⟩
  have hf : (c.off < 1048576 ∧ c.lo < 32) ∧ fkey 0 STP_CNT_ENC_FAULT ≠ fkey 0 c := by
    rw [hc]
    cases jump <;> decide
  rw [State.ssiFail, ← hc, State.illegalEvent_cnt hp hf.1 (fkey_ne_of_place hf.2), State.cnt_inc]

/-- A failed read moves nothing of its port but its record of faults. -/
theorem State.ssiFail_stpP (jump : Bool) : ∃ l i n, (s.ssiFail p jump).stpP p = { s.stpP p with illegal := l, lastIllegal := i, lastBad := n } :=
  State.illegalEvent_stpP

theorem State.ssiFail_sys (jump : Bool) : (s.ssiFail p jump).sys = s.sys := State.illegalEvent_sys

theorem exec_ssiReadStart {lineOne : Bool} (hon : s.isOn (bSTP p) = true) (hm : s.rd (bSTP p) STP_MODE_MODE = 1)
    (hs : (s.stpP p).ssiStart = none) (hd : (s.stpP p).ssiPeriod + s.rd (bSTP p) STP_SSI_READ_US * 1000 ≤ (s.at τ).now) :
    exec (.ssiReadStart τ p lineOne) s = .next (
      if lineOne then
        ((s.at τ).send (.ssiBurst p (s.rd (bSTP p) STP_SSI_BITS + 1) (1000000000 / s.ssiClock p))).setStp p
          { s.stpP p with ssiStart := some (s.at τ).now, ssiPeriod := (s.at τ).now }
      else if (s.stpP p).ssiPeriod + 2 * (s.rd (bSTP p) STP_SSI_READ_US * 1000) ≤ (s.at τ).now then
        ((s.at τ).setStp p { s.stpP p with ssiPeriod := (s.at τ).now }).ssiFail p false
      else s.at τ) := by
  refine congrArg Host.Outcome.next ((if_pos (by simp [hon, hm, hs, hd])).trans ?_)
  simp only [State.at_stpP, State.at_rd, State.ssiClock]

theorem ssiReadStart_bursts {lineOne : Bool} (hon : s.isOn (bSTP p) = true) (hm : s.rd (bSTP p) STP_MODE_MODE = 1)
    (hs : (s.stpP p).ssiStart = none) (hd : (s.stpP p).ssiPeriod + s.rd (bSTP p) STP_SSI_READ_US * 1000 ≤ (s.at τ).now)
    (hl : (s.at τ).now < (s.stpP p).ssiPeriod + 2 * (s.rd (bSTP p) STP_SSI_READ_US * 1000)) : Completes (.ssiReadStart τ p lineOne) s (fun t =>
      (t.stpP p).ssiStart = (if lineOne then some t.now else none) ∧ (t.stpP p).ssiPeriod = (if lineOne then t.now else (s.stpP p).ssiPeriod) ∧
      t.out = (if lineOne then [Out.ssiBurst p (s.rd (bSTP p) STP_SSI_BITS + 1) (1000000000 / s.ssiClock p)] else []) ++ s.out) := by
  have hx := exec_ssiReadStart (lineOne := lineOne) hon hm hs hd
  cases lineOne with
  | true =>
    refine ⟨_, hx, ?_⟩
    simp only [if_true, State.stpP_setStp_same]
    exact ⟨rfl, rfl, congrArg (_ :: ·) (State.at_out ..)⟩
  | false =>
    refine ⟨_, hx.trans (congrArg Host.Outcome.next ((if_neg (by decide)).trans (if_neg (by omega)))), ?_⟩
    beta_reduce
    rw [State.at_stpP]
    exact ⟨hs, rfl, State.at_out ..⟩

theorem ssiReadStart_fails (hp : p < 2) (hon : s.isOn (bSTP p) = true) (hm : s.rd (bSTP p) STP_MODE_MODE = 1)
    (hs : (s.stpP p).ssiStart = none) (hd : (s.stpP p).ssiPeriod + 2 * (s.rd (bSTP p) STP_SSI_READ_US * 1000) ≤ (s.at τ).now) :
    Completes (.ssiReadStart τ p false) s (fun t =>
      t.cnt (bSTP p) STP_CNT_SSI_FRAME = satInc (s.cnt (bSTP p) STP_CNT_SSI_FRAME) 1 ∧ t.rd (bSTP p) STP_STAT_UNCERTAIN = 1) := by
  obtain ⟨hcount, hunc⟩ := State.ssiFail_spec (s := (s.at τ).setStp p { s.stpP p with ssiPeriod := (s.at τ).now }) (jump := false) hp rfl
  exact ⟨_, (exec_ssiReadStart hon hm hs (by omega)).trans (congrArg Host.Outcome.next ((if_neg (by decide)).trans (if_pos hd))),
    hcount.trans (congrArg (satInc · 1) (State.at_cnt ..)), hunc⟩

section ReadDone
variable {startBit word k : Nat} {idleOk : Bool}

/-- The port once its read has ended. -/
def State.ssiEnded (s : State) (p : Nat) : State := s.setStp p { s.stpP p with ssiStart := none }

theorem State.ssiEnded_stpP : (s.ssiEnded p).stpP p = { s.stpP p with ssiStart := none } := Store.get_put_same

/-- The word of a read, in binary. -/
def State.ssiWord (s : State) (p word : Nat) : Nat :=
  if s.rd (bSTP p) STP_SSI_CODE = 1 then grayToBin (s.rd (bSTP p) STP_SSI_BITS) (word % 2 ^ s.rd (bSTP p) STP_SSI_BITS)
  else word % 2 ^ s.rd (bSTP p) STP_SSI_BITS

/-- A later word, by the wrapped difference to the one before. -/
theorem ssiAccept_later {q : Nat} (hcode : s.rd (bSTP p) STP_SSI_CODE = 0) (hprev : (s.stpP p).ssiPrev = some q) : ((s.at τ).ssiEnded p).ssiAccept p k (s.ssiWord p word) =
    (let w := word % 2 ^ s.rd (bSTP p) STP_SSI_BITS
    let d := sext (s.rd (bSTP p) STP_SSI_BITS) (w + 2 ^ s.rd (bSTP p) STP_SSI_BITS - q)
    let u := (s.at τ).ssiEnded p
    if s.rd (bSTP p) STP_JUMP < d.natAbs then u.ssiFail p true
    else
      let u := u.setStp p { u.stpP p with ssiPrev := some w }
      if d = 0 then u else u.motion p k (if s.rd (bSTP p) STP_MODE_INVERT = 1 then -d else d)) := by
  have hprev' : (((s.at τ).ssiEnded p).stpP p).ssiPrev = some q := by rw [State.ssiEnded_stpP, State.at_stpP, hprev]
  have hw : s.ssiWord p word = word % 2 ^ s.rd (bSTP p) STP_SSI_BITS := if_neg (by rw [hcode]; decide)
  have hrd (f : Fld) : ((s.at τ).ssiEnded p).rd (bSTP p) f = s.rd (bSTP p) f := State.at_rd ..
  have hset (x : StpPort) (f : Fld) : (((s.at τ).ssiEnded p).setStp p x).rd (bSTP p) f = s.rd (bSTP p) f := State.at_rd ..
  rw [State.ssiAccept, hprev', hw]
  simp only [hrd, hset]

section Ended
variable (hfac : p = 0 → s.sys.factory.on = false) (hon : s.isOn (bSTP p) = true) (hs : (s.stpP p).ssiStart = some k)
  (hd : k + s.ssiLast p ≤ (s.at τ).now)
include hfac hon hs hd

theorem exec_ssiReadDone {u : State} (hu : u = (if startBit ≠ 0 ∨ !idleOk then ((s.at τ).ssiEnded p).ssiFail p false
      else ((s.at τ).ssiEnded p).ssiAccept p k (s.ssiWord p word))) (hsys : u.sys = s.sys) :
    exec (.ssiReadDone τ p startBit word idleOk) s = .next u := by
  have hlast : ¬ (s.at τ).now < k + (s.at τ).ssiLast p := by
    simp only [State.ssiLast, State.ssiClock, State.at_rd] at hd ⊢
    omega
  have hdo : doSsiReadDone τ p startBit word idleOk s = u := by
    rw [hu]
    simp only [doSsiReadDone, State.at_stpP, State.at_rd, State.at_isOn, hon, hs, hlast, Bool.not_true, Bool.false_eq_true, if_false,
      State.ssiEnded, State.ssiWord]
  show Host.Outcome.next (if p = 0 then State.factoryEdge s (doSsiReadDone τ p startBit word idleOk s)
    else doSsiReadDone τ p startBit word idleOk s) = _
  rw [hdo, factoryEdge_off hfac hsys]

theorem ssiReadDone_fails (hp : p < 2) (hbad : startBit ≠ 0 ∨ idleOk = false) : Completes (.ssiReadDone τ p startBit word idleOk) s (fun t =>
    t.cnt (bSTP p) STP_CNT_SSI_FRAME = satInc (s.cnt (bSTP p) STP_CNT_SSI_FRAME) 1 ∧ t.rd (bSTP p) STP_STAT_UNCERTAIN = 1 ∧
    (t.stpP p).count = (s.stpP p).count ∧ (t.stpP p).ssiStart = none) := by
  have hx := exec_ssiReadDone (word := word) (startBit := startBit) (idleOk := idleOk) hfac hon hs hd rfl
  rw [if_pos (by simpa using hbad)] at hx
  obtain ⟨hcount, hunc⟩ := State.ssiFail_spec (s := (s.at τ).ssiEnded p) (jump := false) hp rfl
  obtain ⟨_, _, _, hport⟩ := State.ssiFail_stpP (s := (s.at τ).ssiEnded p) (p := p) false
  refine ⟨_, hx ((State.ssiFail_sys false).trans (State.at_sys s τ)), hcount.trans (congrArg (satInc · 1) (State.at_cnt ..)), hunc, ?_⟩
  exact ⟨by rw [hport, State.ssiEnded_stpP, State.at_stpP], by rw [hport, State.ssiEnded_stpP]⟩

/-- A read whose word is taken. -/
theorem exec_ssiReadDone_word {u : State} (hu : u = ((s.at τ).ssiEnded p).ssiAccept p k (s.ssiWord p word)) (hsys : u.sys = s.sys) :
    exec (.ssiReadDone τ p 0 word true) s = .next u :=
  exec_ssiReadDone hfac hon hs hd (hu.trans (if_neg (by simp)).symm) hsys

theorem ssiReadDone_first (hprev : (s.stpP p).ssiPrev = none) : Completes (.ssiReadDone τ p 0 word true) s (fun t =>
    (t.stpP p).count = (s.ssiWord p word : Int) ∧ (t.stpP p).baseAt = k) := by
  have hacc : ((s.at τ).ssiEnded p).ssiAccept p k (s.ssiWord p word) = (((s.at τ).ssiEnded p).setStp p { ((s.at τ).ssiEnded p).stpP p with
      ssiPrev := some (s.ssiWord p word), count := s.ssiWord p word, baseAt := k }).noteReached p := by
    rw [State.ssiAccept, State.ssiEnded_stpP, State.at_stpP, hprev]
  have hport (t : State) (x : StpPort) : ((t.setStp p x).noteReached p).stpP p = x := Store.get_put_same
  refine ⟨_, exec_ssiReadDone_word hfac hon hs hd hacc.symm (State.at_sys s τ), ?_⟩
  beta_reduce
  rw [hport]
  exact ⟨rfl, rfl⟩

section Later
variable {q : Nat} (hcode : s.rd (bSTP p) STP_SSI_CODE = 0) (hprev : (s.stpP p).ssiPrev = some q)
include hcode hprev

theorem ssiReadDone_moves (hj : (sext (s.rd (bSTP p) STP_SSI_BITS)
      (word % 2 ^ s.rd (bSTP p) STP_SSI_BITS + 2 ^ s.rd (bSTP p) STP_SSI_BITS - q)).natAbs ≤ s.rd (bSTP p) STP_JUMP) :
    Completes (.ssiReadDone τ p 0 word true) s (fun t =>
      (t.stpP p).count = (s.stpP p).count + (if s.rd (bSTP p) STP_MODE_INVERT = 1 then -1 else 1) *
        sext (s.rd (bSTP p) STP_SSI_BITS) (word % 2 ^ s.rd (bSTP p) STP_SSI_BITS + 2 ^ s.rd (bSTP p) STP_SSI_BITS - q) ∧
      (t.stpP p).ssiPrev = some (word % 2 ^ s.rd (bSTP p) STP_SSI_BITS)) := by
  have hacc := ssiAccept_later (τ := τ) (k := k) (word := word) hcode hprev
  dsimp only at hacc
  generalize word % 2 ^ s.rd (bSTP p) STP_SSI_BITS = w at hj hacc ⊢
  generalize sext _ (w + _ - q) = d at hj hacc ⊢
  rw [if_neg (by omega)] at hacc
  have hport : (((s.at τ).ssiEnded p).setStp p { ((s.at τ).ssiEnded p).stpP p with ssiPrev := some w }).stpP p =
      { s.stpP p with ssiStart := none, ssiPrev := some w } := by rw [State.stpP_setStp_same, State.ssiEnded_stpP, State.at_stpP]
  by_cases h0 : d = 0
  · rw [if_pos h0] at hacc
    refine ⟨_, exec_ssiReadDone_word hfac hon hs hd hacc.symm (State.at_sys s τ), ?_⟩
    beta_reduce
    rw [hport, h0]
    exact ⟨by simp, rfl⟩
  · rw [if_neg h0] at hacc
    have hm := State.motion_moves (s := ((s.at τ).ssiEnded p).setStp p { ((s.at τ).ssiEnded p).stpP p with ssiPrev := some w }) (p := p) k
      (if s.rd (bSTP p) STP_MODE_INVERT = 1 then -d else d)
    refine ⟨_, exec_ssiReadDone_word hfac hon hs hd hacc.symm (hm.2.trans (State.at_sys s τ)), ?_⟩
    obtain ⟨hc, -, -, hv⟩ := hm.count
    rw [hc, hv, hport]
    refine ⟨?_, rfl⟩
    split
    · simp
    · simp

theorem ssiReadDone_jumps (hp : p < 2) (hj : s.rd (bSTP p) STP_JUMP < (sext (s.rd (bSTP p) STP_SSI_BITS)
      (word % 2 ^ s.rd (bSTP p) STP_SSI_BITS + 2 ^ s.rd (bSTP p) STP_SSI_BITS - q)).natAbs) :
    Completes (.ssiReadDone τ p 0 word true) s (fun t =>
      t.cnt (bSTP p) STP_CNT_SSI_JUMP = satInc (s.cnt (bSTP p) STP_CNT_SSI_JUMP) 1 ∧ (t.stpP p).count = (s.stpP p).count ∧
      (t.stpP p).ssiPrev = some q) := by
  have hacc := (ssiAccept_later (τ := τ) (k := k) (word := word) hcode hprev).trans (if_pos hj)
  obtain ⟨hcount, -⟩ := State.ssiFail_spec (s := (s.at τ).ssiEnded p) (jump := true) hp rfl
  obtain ⟨_, _, _, hport⟩ := State.ssiFail_stpP (s := (s.at τ).ssiEnded p) (p := p) true
  refine ⟨_, exec_ssiReadDone_word hfac hon hs hd hacc.symm ((State.ssiFail_sys true).trans (State.at_sys s τ)),
    hcount.trans (congrArg (satInc · 1) (State.at_cnt ..)), ?_⟩
  exact ⟨by rw [hport, State.ssiEnded_stpP, State.at_stpP], by rw [hport, State.ssiEnded_stpP, State.at_stpP, hprev]⟩

end Later

end Ended

end ReadDone

/-! ### Standstill and the position read (R424, R428) -/

theorem standstill_counts {e : Nat} (he : (s.stpP p).lastEdge = some e) (hon : s.isOn (bSTP p) = true)
    (hs : s.rd (bSTP p) STP_STAT_STANDSTILL = 0) (hd : e + s.rd (bSTP p) STP_TIMING_STANDSTILL_MS * 1000000 ≤ (s.at τ).now) :
    Completes (.standstill τ p) s (fun t => t.rd (bSTP p) STP_STAT_STANDSTILL = 1 ∧
      t.cnt (bSTP p) STP_CNT_STANDSTILL = satInc (s.cnt (bSTP p) STP_CNT_STANDSTILL) 1 ∧ t.speedFrac p = (0, 1)) := by
  have hx : exec (.standstill τ p) s = .next ((((s.at τ).wr (bSTP p) STP_STAT_STANDSTILL 1).inc (bSTP p) STP_CNT_STANDSTILL).setStp p
      { (s.at τ).stpP p with vNum := 0, run := [] }) := by
    refine congrArg Host.Outcome.next ?_
    rw [State.at_stpP, he]
    exact if_pos (by simp [hon, hs, hd])
  have still (x : StpPort) : ((((s.at τ).wr (bSTP p) STP_STAT_STANDSTILL 1).inc (bSTP p) STP_CNT_STANDSTILL).setStp p x).rd (bSTP p)
      STP_STAT_STANDSTILL = 1 := by rw [State.setStp_rd, State.inc_rd, State.rd_wr_same _ _ _ _ (by decide)]; rfl
  have cnt (t : State) (x : StpPort) : (t.setStp p x).cnt (bSTP p) STP_CNT_STANDSTILL = t.cnt (bSTP p) STP_CNT_STANDSTILL := rfl
  refine ⟨_, hx, still _, ?_, if_pos (.inl (still _))⟩
  rw [cnt, State.cnt_inc]
  exact congrArg (satInc · 1) (State.at_cnt ..)

theorem stpPosLoRead_latches {i : Nat} (hr : s.regAllowed i false (bSTP p) 0x120 = true) (hon : s.domOn (bSTP p) = true) :
    Completes (.stpPosLoRead τ i p) s (fun t => t.rd64 (bSTP p) STP_POS_LO STP_POS_HI = toCode 64 ((s.at τ).portPos p) ∧
      t.resp.data = [toCode 64 ((s.at τ).portPos p) % 4294967296] ∧ t.resp.status = 0) := by
  have hx : exec (.stpPosLoRead τ i p) s = .next (let u := (s.at τ).wr64 (bSTP p) STP_POS_LO STP_POS_HI (toCode 64 ((s.at τ).portPos p))
      u.answer 0 [u.rd (bSTP p) STP_POS_LO]) :=
    congrArg Host.Outcome.next ((if_neg (by simp [hr])).trans (if_neg (by simp [hon])))
  have outer (t : State) (l : List Nat) : (t.answer 0 l).rd64 (bSTP p) STP_POS_LO STP_POS_HI = t.rd64 (bSTP p) STP_POS_LO STP_POS_HI := rfl
  refine ⟨_, hx, (outer ..).trans (State.rd64_wr64 rfl rfl (fkey_ne_of_place (by decide)) (toCode_lt ..)), ?_, rfl⟩
  refine congrArg (fun n => [n]) ?_
  rw [State.wr64, State.rd_wr_ne _ _ _ _ _ _ (fkey_ne_of_place (by decide)), State.rd_wr_same _ _ _ _ (by decide)]
  rfl

end Encoder

/-! ### Probes (R430, R431) -/

section Probe
variable {s t : State} {τ k p : Nat} {rising : Bool}

/-- What part starts leave of probe `k`: the records, and the count of its lost edges. -/
def State.prbView (s : State) (k : Nat) : Store (List PrbRec) × Nat := (s.field.prb, s.cnt bFIO (FIO_CNT_PRB_LOST k))

section Kept
variable (hk : k < 4)
include hk

theorem prbLost_steady : steadyCnt (fkey bFIO (FIO_CNT_PRB_LOST k)) = true := by
  interval_cases k <;> decide

theorem State.prbView_of_steady (h : t.steady = s.steady) : t.prbView k = s.prbView k :=
  congrArg₂ Prod.mk (State.part_of_steady (fun s => s.field.prb) (fun _ => rfl) h) (State.cnt_of_steady (prbLost_steady hk) h)

theorem State.prbView_inc (f : Fld) : (s.inc (bEJT p) f).prbView k = s.prbView k := by
  refine congrArg (Prod.mk s.field.prb) (State.cnt_inc_ne ?_)
  simp only [fkey, bEJT, bFIO, FIO_CNT_PRB_LOST]
  omega

theorem State.prbView_stageFault (stage code kind : Nat) : (s.stageFault stage code kind).prbView k = s.prbView k := by
  refine congrArg₂ Prod.mk (State.stageFault_part (fun s => s.field.prb) fun _ => rfl) (State.stageFault_cnt (prbLost_steady hk) ?_)
  interval_cases k <;> decide

theorem State.prbView_fbCommit (j verdict : Nat) : (s.fbCommit p j verdict).prbView k = s.prbView k :=
  State.prbView_of_steady hk ((State.inc_steady (by decide)).trans (State.slotCommit_steady ..))

theorem State.prbView_fbReady (part verdict : Nat) : (s.fbReady p part verdict).prbView k = s.prbView k := by
  unfold State.fbReady
  split
  · rfl
  · dsimp only
    split
    · exact State.prbView_fbCommit hk ..
    · rfl

/-- The opening of a part. -/
theorem State.prbView_openPart (part : Nat) (start : Int) : (s.openPart p part start).prbView k = s.prbView k := by
  unfold State.openPart
  split
  · rfl
  split
  · exact (State.prbView_stageFault hk ..).trans ((State.prbView_of_steady hk (State.raise_steady ..)).trans (State.prbView_inc hk _))
  · dsimp only
    split
    · exact (State.prbView_fbReady hk ..).trans (State.prbView_inc (s := s.setSlot p _ _) hk _)
    · exact State.prbView_inc (s := s.setSlot p _ _) hk _

theorem State.prbView_probeStart (j : Nat) : (s.probeStart p j).prbView k = s.prbView k := by
  unfold State.probeStart
  dsimp only
  split_ifs
  · exact State.prbView_inc hk _
  · exact State.prbView_openPart (s := ((s.setEjt p _).setEjt p _)) hk ..
  · rfl
  · rfl

end Kept

theorem exec_probeEdge (hon : s.isOn bFIO = true) (he : edgeTaken (s.rd bFIO (FIO_PRB_CFG_EDGE k)) rising = true) :
    exec (.probeEdge τ k rising) s = .next (
      let l := Store.get [] s.field.prb k
      let r : PrbRec :=
        { rising := rising, sec := (s.at τ).tbSec % 4294967296, ns := (s.at τ).tbNs,
          pos0 := (s.at τ).portPos 0, pos1 := (s.at τ).portPos 1 }
      let u := if l.length < 16 then (s.at τ).setField { s.field with prb := Store.put [] s.field.prb k (l ++ [r]) }
        else (s.at τ).inc bFIO (FIO_CNT_PRB_LOST k)
      (u.probeStart 0 k).probeStart 1 k) := by
  refine congrArg Host.Outcome.next ((if_pos (by simp [hon, he])).trans ?_)
  simp only [State.at_field]

theorem probeEdge_records (hk : k < 4) (hon : s.isOn bFIO = true) (he : edgeTaken (s.rd bFIO (FIO_PRB_CFG_EDGE k)) rising = true)
    (hl : (Store.get [] s.field.prb k).length < 16) : Completes (.probeEdge τ k rising) s (fun t =>
      Store.get [] t.field.prb k = Store.get [] s.field.prb k ++
        [{ rising := rising, sec := (s.at τ).tbSec % 4294967296, ns := (s.at τ).tbNs,
           pos0 := (s.at τ).portPos 0, pos1 := (s.at τ).portPos 1 }]) := by
  refine ⟨_, exec_probeEdge hon he, ?_⟩
  dsimp only
  rw [if_pos hl]
  have kept (u : State) : ((u.probeStart 0 k).probeStart 1 k).field.prb = u.field.prb :=
    congrArg Prod.fst ((State.prbView_probeStart hk k).trans (State.prbView_probeStart hk k))
  rw [kept]
  exact Store.get_put_same

theorem probeEdge_loses (hk : k < 4) (hon : s.isOn bFIO = true) (he : edgeTaken (s.rd bFIO (FIO_PRB_CFG_EDGE k)) rising = true)
    (hl : 16 ≤ (Store.get [] s.field.prb k).length) : Completes (.probeEdge τ k rising) s (fun t =>
      Store.get [] t.field.prb k = Store.get [] s.field.prb k ∧
      t.cnt bFIO (FIO_CNT_PRB_LOST k) = satInc (s.cnt bFIO (FIO_CNT_PRB_LOST k)) 1) := by
  refine ⟨_, exec_probeEdge hon he, ?_⟩
  dsimp only
  rw [if_neg (by omega)]
  have kept (u : State) : ((u.probeStart 0 k).probeStart 1 k).prbView k = u.prbView k :=
    (State.prbView_probeStart hk k).trans (State.prbView_probeStart hk k)
  refine ⟨congrArg (Store.get [] · k) ((congrArg Prod.fst (kept _)).trans (congrArg Field.prb (State.at_field s τ))), ?_⟩
  exact (congrArg Prod.snd (kept _)).trans ((State.cnt_inc ..).trans (congrArg (satInc · 1) (State.at_cnt ..)))

theorem probeEdge_unselected (he : edgeTaken (s.rd bFIO (FIO_PRB_CFG_EDGE k)) rising = false) :
    exec (.probeEdge τ k rising) s = .next (s.at τ) := congrArg Host.Outcome.next (if_neg (by simp [he]))

theorem fioPrbRecRead_takes {i : Nat} (hr : s.regAllowed i false bFIO (0x1D8 + 0x20 * k) = true) (hon : s.domOn bFIO = true) :
    Completes (.fioPrbRecRead τ i k) s (fun t => Store.get [] t.field.prb k = (Store.get [] s.field.prb k).tail ∧
      t.resp.data = [nth 0 (prbWords (Store.get [] s.field.prb k)) 6] ∧ t.resp.status = 0) := by
  refine ⟨_, congrArg Host.Outcome.next ((if_neg (by simp [hr])).trans (if_neg (by simp [hon]))), ?_, ?_, rfl⟩
  · exact Store.get_put_same.trans (by rw [State.at_field])
  · exact congrArg (fun l => [nth 0 (prbWords l) 6]) (congrArg (Store.get [] · k) (congrArg Field.prb (State.at_field s τ)))

end Probe

/-- Settles O49, clause by clause. That `INVERT` reverses the difference between two SSI words is log entry 113 (DESIGN CHOICE). -/
theorem encodersProbesAndPositions : Obligations.EncodersProbesAndPositions := by
  refine ⟨?_, ?_, ?_, ?_, ?_, ?_, ?_, ?_, ?_, ?_, ?_, ?_, ?_, ?_, ?_, ?_, ?_, ?_, ?_, ?_⟩
  · exact fun s τ p held a b _ hfac hon hm hheld hl => encoderEdge_legal hfac hon hm hheld hl
  · exact fun s τ p held a b hp hfac hon hm hheld ha hb => encoderEdge_illegal hfac hon hm hp hheld ha hb
  · exact fun s τ p held a b hp hfac hon hm hheld => encoderEdge_filtered hfac hon hm hp hheld
  · intro s τ p
    rw [← State.at_stpP s τ p]
    rfl
  · intro s τ p
    rw [← State.at_stpP s τ p, ← State.at_rd s τ (bSTP p) STP_STAT_WIRE]
    rfl
  · exact fun s τ p pair hp hon hu hb hw => wireBreak_sets hp hon hu hb hw
  · exact fun s τ p pair _ hb hw => wireBreakEnd_clears hb hw
  · exact fun s τ p held _ hon hm hheld hz => indexEdge_latches hon hm hheld hz
  · exact fun s τ p lineOne _ hon hm hs hd hl => ssiReadStart_bursts hon hm hs hd hl
  · exact fun s τ p hp hon hm hs hd => ssiReadStart_fails hp hon hm hs hd
  · exact fun s τ p startBit word k idleOk hp hfac hon hs hd hbad => ssiReadDone_fails hfac hon hs hd hp hbad
  · exact fun s τ p word k _ hfac hon hs hd hprev => ssiReadDone_first hfac hon hs hd hprev
  · exact fun s τ p word k q _ hfac hon hcode hs hd hprev hj => ssiReadDone_moves hfac hon hs hd hcode hprev hj
  · exact fun s τ p word k q hp hfac hon hcode hs hd hprev hj => ssiReadDone_jumps hfac hon hs hd hcode hprev hp hj
  · exact fun s τ p e _ he hon hs hd => standstill_counts he hon hs hd
  · exact fun s τ k rising hk hon he hl => probeEdge_records hk hon he hl
  · exact fun s τ k rising hk hon he hl => probeEdge_loses hk hon he hl
  · exact fun s τ k rising he => probeEdge_unselected he
  · exact fun s τ i k hr hon => fioPrbRecRead_takes hr hon
  · exact fun s τ i p hr hon _ => stpPosLoRead_latches hr hon

end Sys2Proof.Machine
end

section
/-!
PROOFS. The statement on parts, firing, inputs and outputs: bits, outputs and inputs.
-/

namespace Sys2Proof.Machine

/-! ### Bits -/

section Bits
variable {n j k : Nat}

theorem bit_eq_testBit (n k : Nat) : bit n k = (n.testBit k).toNat := by rw [Nat.toNat_testBit]; rfl

theorem bit_lor_two_pow (n j k : Nat) : bit (n.lor (2 ^ j)) k = if k = j then 1 else bit n k := by
  rw [bit_eq_testBit, bit_eq_testBit, show n.lor (2 ^ j) = n ||| 2 ^ j from rfl, Nat.testBit_or, Nat.testBit_two_pow]
  split
  next h => simp [h]
  next h => simp [Ne.symm h]

/-- Clearing a set bit leaves every other bit. -/
theorem bit_sub_two_pow_ne (h : bit n j = 1) (hk : k ≠ j) : bit (n - 2 ^ j) k = bit n k := by
  have hsub (m i d : Nat) : (m - 2 ^ i * d) / 2 ^ i = m / 2 ^ i - d := Nat.sub_mul_div m (2 ^ i) d
  have hle : 1 ≤ n / 2 ^ j := Nat.one_le_iff_ne_zero.2 fun e => by simp [bit, e] at h
  rcases Nat.lt_or_gt_of_ne hk with hlt | hgt
  · obtain ⟨d, rfl⟩ := Nat.exists_eq_add_of_lt hlt
    have hp : 2 ^ (k + d + 1) = 2 ^ k * (2 * 2 ^ d) := by rw [Nat.pow_succ, Nat.pow_add]; ring
    have hge : 2 * 2 ^ d ≤ n / 2 ^ k := by
      rw [Nat.le_div_iff_mul_le (Nat.two_pow_pos k), Nat.mul_comm, ← hp]
      have := Nat.div_mul_le_self n (2 ^ (k + d + 1))
      nlinarith [Nat.two_pow_pos (k + d + 1)]
    rw [bit, hp, hsub, bit]
    omega
  · obtain ⟨d, rfl⟩ := Nat.exists_eq_add_of_lt hgt
    have hp : 2 ^ (j + d + 1) = 2 ^ j * (2 * 2 ^ d) := by rw [Nat.pow_succ, Nat.pow_add]; ring
    have hodd : n / 2 ^ j % 2 = 1 := h
    have half (m : Nat) : m / (2 * 2 ^ d) = m / 2 / 2 ^ d := (Nat.div_div_eq_div_mul ..).symm
    have hs := hsub n j 1
    rw [Nat.mul_one] at hs
    rw [bit, bit, hp, ← Nat.div_div_eq_div_mul, ← Nat.div_div_eq_div_mul n, hs, half, half]
    congr 2
    omega

theorem bit_clear (n j k : Nat) : bit (n - n.land (2 ^ j)) k = if k = j then 0 else bit n k := by
  have hand : n.land (2 ^ j) = bit n j * 2 ^ j := by
    rw [show n.land (2 ^ j) = n &&& 2 ^ j from rfl, Nat.and_two_pow, bit_eq_testBit]
  have hj : bit n j = 0 ∨ bit n j = 1 := by unfold bit; omega
  rw [hand]
  rcases hj with h | h
  · rw [h, Nat.zero_mul, Nat.sub_zero]
    split
    next e => rw [e, h]
    · rfl
  · rw [h, Nat.one_mul]
    split
    next e =>
      have hw := bit_without n j
      rw [without, if_pos h] at hw
      rw [e, hw]
    next e => exact bit_sub_two_pow_ne h e

theorem bit_lt_two (n k : Nat) : bit n k < 2 := Nat.mod_lt _ (by decide)

end Bits

/-! ### The driven outputs (R444-R449) -/

section Outputs
variable {s : State} {τ n m : Nat}

/-- The fields of an output lie in its register, apart from its driven bit. -/
theorem doCfg_place (n : Nat) : ∀ f ∈ [FIO_DO_CFG_OVL n, FIO_DO_CFG_THERM n, FIO_DO_CFG_SRC n, FIO_DO_CFG_LEVEL n],
    f.off = 0x140 + 4 * n ∧ f.lo < 32 ∧ f.lo ≠ 9 := by
  simp [FIO_DO_CFG_OVL, FIO_DO_CFG_THERM, FIO_DO_CFG_SRC, FIO_DO_CFG_LEVEL]

/-- Showing one output moves nothing that another is driven by. -/
theorem State.outOn_wr (hm : m < 8) (v : Nat) : (s.wr bFIO (FIO_DO_CFG_ON m) v).outOn n = s.outOn n := by
  have hr {b : Nat} {f : Fld} (h : fkey bFIO (FIO_DO_CFG_ON m) ≠ fkey b f) : (s.wr bFIO (FIO_DO_CFG_ON m) v).rd b f = s.rd b f :=
    State.rd_wr_ne _ _ _ _ _ _ h
  have hf (f : Fld) (hm : f ∈ [FIO_DO_CFG_OVL n, FIO_DO_CFG_THERM n, FIO_DO_CFG_SRC n, FIO_DO_CFG_LEVEL n]) :
      (s.wr bFIO (FIO_DO_CFG_ON m) v).rd bFIO f = s.rd bFIO f := by
    have h := doCfg_place n f hm
    exact hr (by simp only [fkey, FIO_DO_CFG_ON]; omega)
  have hs (f : Fld) (h : f.off < 0x140 ∧ f.lo < 32) : (s.wr bFIO (FIO_DO_CFG_ON m) v).rd bFIO f = s.rd bFIO f :=
    hr (by simp only [fkey, FIO_DO_CFG_ON]; omega)
  have hp : (s.wr bFIO (FIO_DO_CFG_ON m) v).rd bPWR (PWR_PD_STAT_HELD 56) = s.rd bPWR (PWR_PD_STAT_HELD 56) :=
    hr (by simp only [fkey, FIO_DO_CFG_ON, bFIO, bPWR, PWR_PD_STAT_HELD]; omega)
  have hon : (s.wr bFIO (FIO_DO_CFG_ON m) v).isOn bFIO = s.isOn bFIO := congrArg (· == fON) (hs COM_STATE_FSM (by decide))
  have hl : (s.wr bFIO (FIO_DO_CFG_ON m) v).latched n = s.latched n := by
    rw [State.latched, hf _ (by simp), hf _ (by simp), State.latched]
  have hsafe : (s.wr bFIO (FIO_DO_CFG_ON m) v).safe = s.safe := congrArg (· == 1) (hs FIO_STAT_SAFE (by decide))
  have hw : (s.wr bFIO (FIO_DO_CFG_ON m) v).outWanted n = s.outWanted n := by
    rw [State.outWanted, hf _ (by simp), hf _ (by simp)]
    rfl
  rw [State.outOn, hon, hp, hs FIO_STAT_UV (by decide), hl, hsafe, hw]
  rfl

/-- The driven bit of an output, once it is shown. -/
theorem State.showDriven_on : ∀ (l : List Nat) (s : State), (∀ m ∈ l, m < 8) →
    (s.showDriven l).rd bFIO (FIO_DO_CFG_ON n) = if n ∈ l then (if s.outOn n then 1 else 0) else s.rd bFIO (FIO_DO_CFG_ON n) := by
  intro l
  induction l with
  | nil => exact fun _ _ => rfl
  | cons m l ih =>
    intro s hl
    have hm : m < 8 := hl m (List.mem_cons_self ..)
    have step : s.showDriven (m :: l) = (s.wr bFIO (FIO_DO_CFG_ON m) (if s.outOn m then 1 else 0)).showDriven l := rfl
    rw [step, ih _ fun x hx => hl x (List.mem_cons_of_mem _ hx)]
    rw [State.outOn_wr hm]
    by_cases hnm : n = m
    · subst hnm
      rw [State.rd_wr_same _ _ _ _ (by simp [FIO_DO_CFG_ON]), if_pos (List.mem_cons_self ..)]
      split
      · rfl
      · split <;> rfl
    · rw [State.rd_wr_ne _ _ _ _ _ _ (by simp only [fkey, FIO_DO_CFG_ON]; omega)]
      simp only [List.mem_cons, hnm, false_or]

/-- Refreshing shows what an output is driven to. -/
theorem State.refreshFio_on (hn : n < 8) : s.refreshFio.rd bFIO (FIO_DO_CFG_ON n) = if s.outOn n then 1 else 0 := by
  rw [State.rd_of_beside (by decide) s.refreshFio_beside, State.rd_wr_ne _ _ _ _ _ _ (by simp only [fkey, FIO_STAT_FAULT, FIO_DO_CFG_ON]; omega),
    State.showOutputs, State.rd_wr_ne _ _ _ _ _ _ (by simp only [fkey, FIO_STAT_DO_FAULT, FIO_DO_CFG_ON]; omega),
    State.showDriven_on _ s fun m hm => List.mem_range.1 hm, if_pos (List.mem_range.2 hn)]

/-- Beside the driven bits, refreshing leaves an output's register. -/
theorem State.refreshFio_cfg {f : Fld} (hf : f.off = 0x140 + 4 * n ∧ f.lo < 32 ∧ f.lo ≠ 9) : s.refreshFio.rd bFIO f = s.rd bFIO f := by
  rw [State.rd_of_beside (by decide) s.refreshFio_beside, State.rd_wr_ne _ _ _ _ _ _ (by simp only [fkey, FIO_STAT_FAULT]; omega),
    State.showOutputs, State.rd_wr_ne _ _ _ _ _ _ (by simp only [fkey, FIO_STAT_DO_FAULT]; omega)]
  exact foldl_keeps (fun s : State => s.rd bFIO f) fun s m _ => State.rd_wr_ne _ _ _ _ _ _ (by simp only [fkey, FIO_DO_CFG_ON]; omega)

theorem State.refreshFio_now : s.refreshFio.now = s.now := State.part_of_steady State.now (fun _ => rfl) State.refreshFio_steady

/-- An output with no pulse and an owner is off, while the safe reaction does not stand. -/
theorem State.outOn_off (hs : s.safe = false) (hp : Store.get none s.field.pulses n = none) (hsrc : s.rd bFIO (FIO_DO_CFG_SRC n) ≠ 0) :
    s.outOn n = false := by
  unfold State.outOn
  split
  · rfl
  · rw [if_neg (by simp [hs]), State.outWanted]
    simp [hsrc, hp]

theorem State.outOn_latched (h : s.latched n = true) : s.outOn n = false := if_pos (by simp [h])

@[simp] theorem State.endPulse_pulses : Store.get none (s.endPulse n).field.pulses n = none := by
  rw [State.endPulse]
  simp

theorem outputPulseEnd_ends {q : Pulse} (hn : n < 8) (hp : Store.get none s.field.pulses n = some q) (hd : q.until_ ≤ (s.at τ).now)
    (hsrc : s.rd bFIO (FIO_DO_CFG_SRC n) ≠ 0) (hs : s.safe = false) : Completes (.outputPulseEnd τ n) s (fun t =>
      Store.get none t.field.pulses n = none ∧ t.rd bFIO (FIO_DO_CFG_ON n) = 0) := by
  have hx : exec (.outputPulseEnd τ n) s = .next (((s.at τ).endPulse n).refreshFio) := by
    refine congrArg Host.Outcome.next ?_
    rw [State.at_field, hp]
    exact if_pos hd
  have hoff : ((s.at τ).endPulse n).outOn n = false :=
    State.outOn_off ((congrArg (· == 1) (State.at_rd ..)).trans hs) State.endPulse_pulses (fun h => hsrc ((State.at_rd ..).symm.trans h))
  refine ⟨_, hx, ?_, ?_⟩
  · rw [State.refreshFio_field, State.endPulse_pulses]
  · rw [State.refreshFio_on hn, hoff]
    rfl

theorem outputPulseEnd_runs {q : Pulse} (hp : Store.get none s.field.pulses n = some q) (hd : (s.at τ).now < q.until_) :
    exec (.outputPulseEnd τ n) s = .next (s.at τ) := by
  refine congrArg Host.Outcome.next ?_
  rw [State.at_field, hp]
  exact if_neg (by omega)

/-- The latch of an output and its counter, by what struck it. -/
def latchOf (thermal : Bool) (n : Nat) : Fld := if thermal then FIO_DO_CFG_THERM n else FIO_DO_CFG_OVL n
def latchCount (thermal : Bool) : Fld := if thermal then FIO_CNT_DO_THERM else FIO_CNT_DO_OVL

theorem outputOverload_latches {thermal : Bool} (hn : n < 8) (hon : s.domOn bFIO = true) : Completes (.outputOverload τ n thermal) s (fun t =>
    t.rd bFIO (latchOf thermal n) = 1 ∧ t.rd bFIO (FIO_DO_CFG_ON n) = 0 ∧ Store.get none t.field.pulses n = none ∧
    t.cnt bFIO (latchCount thermal) = satInc (s.cnt bFIO (latchCount thermal)) 1) := by
  have hx : exec (.outputOverload τ n thermal) s = .next
      (((((s.at τ).wr bFIO (latchOf thermal n) 1).inc bFIO (latchCount thermal)).endPulse n).refreshFio) := by
    refine congrArg Host.Outcome.next ((if_pos ⟨hn, by simpa using hon⟩).trans ?_)
    cases thermal <;> rfl
  have hplace : (latchOf thermal n).off = 0x140 + 4 * n ∧ (latchOf thermal n).lo < 32 ∧ (latchOf thermal n).lo ≠ 9 := by
    refine doCfg_place n _ ?_
    cases thermal <;> simp [latchOf]
  have hset : ((((s.at τ).wr bFIO (latchOf thermal n) 1).inc bFIO (latchCount thermal)).endPulse n).rd bFIO (latchOf thermal n) = 1 := by
    have hw : (latchOf thermal n).w = 1 := by cases thermal <;> rfl
    have hr := State.rd_wr_same (s.at τ) bFIO (latchOf thermal n) 1 (by rw [hw]; decide)
    rw [hw] at hr
    exact hr
  have hoff : ((((s.at τ).wr bFIO (latchOf thermal n) 1).inc bFIO (latchCount thermal)).endPulse n).outOn n = false := by
    refine State.outOn_latched ?_
    cases thermal with
    | false => exact Bool.or_eq_true_iff.2 (.inl (beq_iff_eq.2 hset))
    | true => exact Bool.or_eq_true_iff.2 (.inr (beq_iff_eq.2 hset))
  refine ⟨_, hx, ?_, ?_, ?_, ?_⟩
  · rw [State.refreshFio_cfg hplace, hset]
  · rw [State.refreshFio_on hn, hoff]
    rfl
  · rw [State.refreshFio_field, State.endPulse_pulses]
  · have outer (t : State) (f : Fld) : (t.endPulse n).cnt bFIO f = t.cnt bFIO f := rfl
    rw [State.refreshFio_cnt, outer, State.cnt_inc]
    exact congrArg (satInc · 1) (State.at_cnt ..)

theorem strobePulseEnd_ends {x : Nat × Nat} (hb : Store.get none s.field.stb n = some x) (hd : x.2 ≤ (s.at τ).now) :
    Completes (.strobePulseEnd τ n) s (fun t => Store.get none t.field.stb n = none ∧ Store.get 0 t.field.stbEnd n = x.2) := by
  have hx : exec (.strobePulseEnd τ n) s = .next (((s.at τ).setStb n none).setField { ((s.at τ).setStb n none).field with
      stbEnd := Store.put 0 (s.at τ).field.stbEnd n x.2 }) := by
    refine congrArg Host.Outcome.next ?_
    obtain ⟨a, e⟩ := x
    rw [State.at_field, hb]
    exact if_pos hd
  refine ⟨_, hx, ?_, ?_⟩
  · rw [State.setField_field, State.setStb]
    simp
  · rw [State.setField_field]
    exact Store.get_put_same

end Outputs

/-! ### The digital inputs (R442, R443) -/

section Inputs
variable {s : State} {τ levels j k lv : Nat}

/-- What the samples of other inputs leave of input `k`: the time, the filter times, its level, and since when it has differed. -/
def State.diView (s : State) (k : Nat) : Nat × Nat × Nat × Nat × Nat × Nat :=
  (s.now, s.rd bFIO FIO_DI_FILT_FILT_LO, s.rd bFIO FIO_DI_FILT_FILT_HI, bit (s.rd bFIO FIO_DI) k, Store.get 0 s.field.diSince k, s.field.diRaw)

theorem State.raiseAgo_diView (ago code blk a1 a2 : Nat) : (s.raiseAgo ago code blk a1 a2).diView k = s.diView k := by
  have hr (f : Fld) : (s.raiseAgo ago code blk a1 a2).rd bFIO f = s.rd bFIO f := by
    unfold State.raiseAgo
    rw [State.setTb_rd, State.raise_rd _ _ _ _ _ _ (offEvents_above (by decide) f), State.setTb_rd]
  have hn : (s.raiseAgo ago code blk a1 a2).now = s.now := by
    unfold State.raiseAgo
    rw [State.setTb_now, State.raise_now, State.setTb_now]
  have hf : (s.raiseAgo ago code blk a1 a2).field = s.field := by
    unfold State.raiseAgo
    rw [State.setTb_field, State.raise_fieldSide, State.setTb_field]
  simp only [State.diView, hr, hn, hf]

/-- An input takes a level: the register, and the time of a rise. -/
def State.diTaken (s : State) (j lv : Nat) : State :=
  let old := s.rd bFIO FIO_DI
  let s := s.wr bFIO FIO_DI (if lv = 1 then old.lor (2 ^ j) else old - old.land (2 ^ j))
  if lv = 1 then s.setField { s.field with diRise := Store.put 0 s.field.diRise j (s.now + 1) } else s

theorem State.diPass_eq (ago : Nat) : s.diPass j lv ago =
    if bit ((s.diTaken j lv).rd bFIO (if lv = 1 then FIO_DI_EVT_RISE else FIO_DI_EVT_FALL)) j = 1 then
      (s.diTaken j lv).raiseAgo ago 0x0604 bFIO j lv
    else s.diTaken j lv := rfl

theorem State.wr_DI_diView (v : Nat) : (s.wr bFIO FIO_DI v).diView k = (s.now, s.rd bFIO FIO_DI_FILT_FILT_LO,
    s.rd bFIO FIO_DI_FILT_FILT_HI, bit (v % 2 ^ 16) k, Store.get 0 s.field.diSince k, s.field.diRaw) := by
  rw [State.diView, State.rd_wr_ne _ _ _ _ _ _ (by decide), State.rd_wr_ne _ _ _ _ _ _ (by decide), State.rd_wr_same _ _ _ _ (by decide)]
  rfl

/-- A level that passes: the input takes it, with the others as they were. -/
theorem State.diTaken_diView (hk : k < 16) (hlv : lv < 2) : (s.diTaken j lv).diView k =
    (s.now, s.rd bFIO FIO_DI_FILT_FILT_LO, s.rd bFIO FIO_DI_FILT_FILT_HI, (if k = j then lv else bit (s.rd bFIO FIO_DI) k),
      Store.get 0 s.field.diSince k, s.field.diRaw) := by
  have risen (t : State) (l : Store Nat) : (t.setField { t.field with diRise := l }).diView k = t.diView k := rfl
  unfold State.diTaken
  dsimp only
  rcases (show lv = 0 ∨ lv = 1 by omega) with rfl | rfl
  · rw [if_neg (by decide), if_neg (by decide), State.wr_DI_diView, bit_mod_two_pow, if_pos hk, bit_clear]
  · rw [if_pos rfl, if_pos rfl, risen, State.wr_DI_diView, bit_mod_two_pow, if_pos hk, bit_lor_two_pow]

theorem State.diPass_diView (hk : k < 16) (ago : Nat) (hlv : lv < 2) : (s.diPass j lv ago).diView k =
    (s.now, s.rd bFIO FIO_DI_FILT_FILT_LO, s.rd bFIO FIO_DI_FILT_FILT_HI, (if k = j then lv else bit (s.rd bFIO FIO_DI) k),
      Store.get 0 s.field.diSince k, s.field.diRaw) := by
  rw [State.diPass_eq]
  by_cases h : bit ((s.diTaken j lv).rd bFIO (if lv = 1 then FIO_DI_EVT_RISE else FIO_DI_EVT_FALL)) j = 1
  · rw [if_pos h, State.raiseAgo_diView, State.diTaken_diView hk hlv]
  · rw [if_neg h, State.diTaken_diView hk hlv]

theorem State.setSince_diView (v : Nat) : (s.setSince j v).diView k = (s.now, s.rd bFIO FIO_DI_FILT_FILT_LO, s.rd bFIO FIO_DI_FILT_FILT_HI,
    bit (s.rd bFIO FIO_DI) k, (if j = k then v else Store.get 0 s.field.diSince k), s.field.diRaw) := by
  unfold State.diView State.setSince
  simp only [State.setField_rd, State.setField_now, State.setField_field, Store.get_put]

/-- A sample of one input leaves the others. -/
theorem State.diOne_other (hk : k < 16) (hlv : lv < 2) (hj : j ≠ k) : (s.diOne lv j).diView k = s.diView k := by
  have since (t : State) (v : Nat) : (t.setSince j v).diView k = t.diView k := by rw [State.setSince_diView, if_neg hj, State.diView]
  unfold State.diOne
  split
  · exact since ..
  dsimp only
  generalize (if Store.get 0 s.field.diSince j = 0 then s.now + 1 else Store.get 0 s.field.diSince j) = first
  split
  · rw [State.diPass_diView hk _ hlv, if_neg hj.symm]
    exact since s 0
  · exact since ..

/-- The samples of other inputs leave an input. -/
theorem diOnes_other {l : List Nat} {g : Nat → Nat} (hk : k < 16) (hg : ∀ j, g j < 2) (hl : k ∉ l) :
    (l.foldl (fun s j => s.diOne (g j) j) s).diView k = s.diView k :=
  foldl_keeps (fun s : State => s.diView k) fun _ j hj => State.diOne_other hk (hg j) fun e => hl (e ▸ hj)

/-- One sample of a list of inputs acts on an input as its own sample does. -/
theorem diOnes_diView {l : List Nat} {g : Nat → Nat} (hk : k < 16) (hg : ∀ j, g j < 2) (hl : k ∈ l) (hd : l.Nodup) :
    ∃ u : State, u.diView k = s.diView k ∧ (l.foldl (fun s j => s.diOne (g j) j) s).diView k = (u.diOne (g k) k).diView k := by
  obtain ⟨a, b, rfl⟩ := List.append_of_mem hl
  have ha : k ∉ a ∧ k ∉ b := by
    rw [List.nodup_append] at hd
    obtain ⟨-, hb, hab⟩ := hd
    exact ⟨fun h => hab k h k (List.mem_cons_self ..) rfl, (List.nodup_cons.1 hb).1⟩
  refine ⟨_, diOnes_other hk hg ha.1, ?_⟩
  rw [List.foldl_append, List.foldl_cons]
  exact diOnes_other hk hg ha.2

/-- The sampled state: the levels are taken down and may wake the module. -/
def State.diSampled (s : State) (new : Nat) : State :=
  let s1 := (s.mark perDi).setField { s.field with diRaw := new }
  if s.diWakes s.field.diRaw new then s1.wake 2 else s1

theorem State.diSampled_steady (new : Nat) : (s.diSampled new).steady = ((s.mark perDi).setField { s.field with diRaw := new }).steady := by
  unfold State.diSampled
  split
  · exact State.wake_steady 2
  · rfl

end Inputs

end Sys2Proof.Machine
end

section
/-!
PROOFS. The statement on parts, firing, inputs and outputs: its clauses.
-/

namespace Sys2Proof.Machine

/-! ### Samples of the digital inputs (R442) -/

section Samples
variable {s u : State} {τ levels k lv : Nat}

theorem State.latchWake_rd {b : Nat} (hb : bPWR < b) (src : Nat) (f : Fld) : (s.latchWake src).rd b f = s.rd b f := by
  have h (g : Fld) (n : Nat) (hg : g.off = 0x110 ∧ g.lo < 32) : (s.wr bPWR g n).rd b f = s.rd b f :=
    State.rd_wr_ne _ _ _ _ _ _ (by simp only [fkey, bPWR] at hb ⊢; omega)
  unfold State.latchWake
  split
  · exact h _ _ (by decide)
  split
  · exact h _ _ (by decide)
  · exact h _ _ (by decide)

/-- A wake event writes registers of the power sequencer and of the event unit alone. -/
theorem State.wake_rd {b : Nat} (hb : bMEM4 < b) (src : Nat) (f : Fld) : (s.wake src).rd b f = s.rd b f := by
  have hp : bPWR < b := lt_trans (by decide) hb
  have h (t : State) (g : Fld) (n : Nat) (hg : g.off = 0x104 ∧ g.lo < 32) : (t.wr bPWR g n).rd b f = t.rd b f :=
    State.rd_wr_ne _ _ _ _ _ _ (by simp only [fkey, bPWR] at hp ⊢; omega)
  unfold State.wake
  split
  · split
    · dsimp only
      rw [State.raise_rd _ _ _ _ _ _ (offEvents_above hb f), State.inc_rd, h _ _ _ (by decide), State.latchWake_rd hp]
      rfl
    · rfl
  · dsimp only
    split
    · rfl
    split
    · rw [h _ _ _ (by decide), State.latchWake_rd hp]
    · rw [h _ _ _ (by decide)]
      exact State.latchWake_rd hp src f

theorem State.diSampled_diView (new : Nat) : (s.diSampled new).diView k = (s.now, s.rd bFIO FIO_DI_FILT_FILT_LO, s.rd bFIO FIO_DI_FILT_FILT_HI,
    bit (s.rd bFIO FIO_DI) k, Store.get 0 s.field.diSince k, new) := by
  have hw (t : State) : (t.wake 2).diView k = t.diView k := by
    have hr (f : Fld) : (t.wake 2).rd bFIO f = t.rd bFIO f := State.wake_rd (by decide) 2 f
    have hf : (t.wake 2).field.diSince = t.field.diSince ∧ (t.wake 2).field.diRaw = t.field.diRaw :=
      State.part_of_steady (fun s => (s.field.diSince = t.field.diSince ∧ s.field.diRaw = t.field.diRaw)) (fun _ => rfl)
        (State.wake_steady (s := t) 2) ▸ ⟨rfl, rfl⟩
    have hn : (t.wake 2).now = t.now := State.part_of_steady State.now (fun _ => rfl) (State.wake_steady 2)
    simp only [State.diView, hr, hf.1, hf.2, hn]
  unfold State.diSampled
  split
  · exact (hw _).trans rfl
  · rfl

theorem State.diSampled_isOn (new : Nat) : (s.diSampled new).isOn bFIO = s.isOn bFIO := by
  refine congrArg (· == fON) ?_
  unfold State.diSampled
  split
  · exact State.wake_rd (by decide) 2 COM_STATE_FSM
  · rfl

theorem exec_diSample (hon : s.isOn bFIO = true) (hd : (s.at τ).due perDi (if 3 ≤ s.rd bPWR PWR_STAT_STATE then 30500 else 1000) = true) :
    exec (.diSample τ levels) s = .next ((List.range 16).foldl (fun t j => t.diOne (bit (levels % 65536) j) j) ((s.at τ).diSampled (levels % 65536))) := by
  have hx : exec (.diSample τ levels) s = if !(s.at τ).due perDi (if 3 ≤ (s.at τ).rd bPWR PWR_STAT_STATE then 30500 else 1000) then .next (s.at τ)
      else .next (if ((s.at τ).diSampled (levels % 65536)).isOn bFIO then
        (List.range 16).foldl (fun t j => t.diOne (bit (levels % 65536) j) j) ((s.at τ).diSampled (levels % 65536))
        else (s.at τ).diSampled (levels % 65536)) := rfl
  rw [hx, State.at_rd, hd, if_neg (by decide), State.diSampled_isOn, State.at_isOn, if_pos hon]

/-- An input after one sample of all: that of its own sample on a state that shows it as the sampled state does. -/
theorem diSample_own (hk : k < 16) (hon : s.isOn bFIO = true)
    (hd : (s.at τ).due perDi (if 3 ≤ s.rd bPWR PWR_STAT_STATE then 30500 else 1000) = true) :
    ∃ t u : State, exec (.diSample τ levels) s = .next t ∧ u.diView k = ((s.at τ).now, s.rd bFIO FIO_DI_FILT_FILT_LO, s.rd bFIO FIO_DI_FILT_FILT_HI,
      bit (s.rd bFIO FIO_DI) k, Store.get 0 s.field.diSince k, levels % 65536) ∧ t.diView k = (u.diOne (bit levels k) k).diView k := by
  have hlv : bit (levels % 65536) k = bit levels k := (bit_mod_two_pow levels k 16).trans (if_pos hk)
  obtain ⟨u, hu, ht⟩ := diOnes_diView (s := (s.at τ).diSampled (levels % 65536)) (g := bit (levels % 65536)) hk (fun _ => bit_lt_two _ _)
    (List.mem_range.2 hk) List.nodup_range
  refine ⟨_, u, exec_diSample hon hd, ?_, hlv ▸ ht⟩
  rw [hu, State.diSampled_diView]
  simp only [State.at_rd, State.at_field]

theorem State.diFilt_of_view {now lo hi b c r : Nat} (h : u.diView k = (now, lo, hi, b, c, r)) : u.diFilt k = (if k < 8 then lo else hi) * 1000 := by
  simp only [State.diView, Prod.mk.injEq] at h
  obtain ⟨-, hlo, hhi, -⟩ := h
  rw [State.diFilt, hlo, hhi]

/-- One sample of an input that shows another level: it passes after its filter time, else it waits. -/
theorem State.diOne_differs {now lo hi b c r : Nat} (hk : k < 16) (hlv : lv < 2) (h : u.diView k = (now, lo, hi, b, c, r)) (hb : b ≠ lv) :
    (u.diOne lv k).diView k = (let first := if c = 0 then now + 1 else c
      if first + (if k < 8 then lo else hi) * 1000 ≤ now + 1 then (now, lo, hi, lv, 0, r) else (now, lo, hi, b, first, r)) := by
  have hfilt := State.diFilt_of_view h
  simp only [State.diView, Prod.mk.injEq] at h
  obtain ⟨hn, hlo, hhi, hbit, hc, hr⟩ := h
  unfold State.diOne
  rw [if_neg (by rw [hbit]; exact hb), hfilt, hc, hn]
  dsimp only
  generalize (if c = 0 then now + 1 else c) = first
  generalize (if k < 8 then lo else hi) * 1000 = filt
  split
  · rw [State.diPass_diView hk _ hlv, if_pos rfl]
    have hset := u.setSince_diView (j := k) (k := k) 0
    rw [if_pos rfl] at hset
    simp only [State.diView, Prod.mk.injEq] at hset
    obtain ⟨h1, h2, h3, -, h5, h6⟩ := hset
    rw [h1, h2, h3, h5, h6, hn, hlo, hhi, hr]
  · rw [State.setSince_diView, if_pos rfl, hn, hlo, hhi, hbit, hr]

theorem diSample_passes (hk : k < 16) (hon : s.isOn bFIO = true)
    (hd : (s.at τ).due perDi (if 3 ≤ s.rd bPWR PWR_STAT_STATE then 30500 else 1000) = true)
    (hb : bit (s.rd bFIO FIO_DI) k ≠ bit levels k) (hc : Store.get 0 s.field.diSince k ≠ 0)
    (hp : Store.get 0 s.field.diSince k + s.diFilt k ≤ (s.at τ).now + 1) : Completes (.diSample τ levels) s (fun t =>
      bit (t.rd bFIO FIO_DI) k = bit levels k ∧ Store.get 0 t.field.diSince k = 0 ∧ t.field.diRaw = levels % 65536) := by
  obtain ⟨t, u, hx, hu, ht⟩ := diSample_own (levels := levels) hk hon hd
  rw [State.diOne_differs hk (bit_lt_two _ _) hu hb, if_neg hc] at ht
  dsimp only at ht
  rw [State.diFilt] at hp
  rw [if_pos hp] at ht
  simp only [State.diView, Prod.mk.injEq] at ht
  obtain ⟨-, -, -, hbit, hsince, hraw⟩ := ht
  exact ⟨t, hx, hbit, hsince, hraw⟩

theorem diSample_waits (hk : k < 16) (hon : s.isOn bFIO = true)
    (hd : (s.at τ).due perDi (if 3 ≤ s.rd bPWR PWR_STAT_STATE then 30500 else 1000) = true)
    (hb : bit (s.rd bFIO FIO_DI) k ≠ bit levels k)
    (hp : (s.at τ).now + 1 < (if Store.get 0 s.field.diSince k = 0 then (s.at τ).now + 1 else Store.get 0 s.field.diSince k) + s.diFilt k) :
    Completes (.diSample τ levels) s (fun t => bit (t.rd bFIO FIO_DI) k = bit (s.rd bFIO FIO_DI) k ∧
      Store.get 0 t.field.diSince k = (if Store.get 0 s.field.diSince k = 0 then (s.at τ).now + 1 else Store.get 0 s.field.diSince k)) := by
  obtain ⟨t, u, hx, hu, ht⟩ := diSample_own (levels := levels) hk hon hd
  rw [State.diOne_differs hk (bit_lt_two _ _) hu hb] at ht
  dsimp only at ht
  rw [if_neg (by unfold State.diFilt at hp; omega)] at ht
  simp only [State.diView, Prod.mk.injEq] at ht
  obtain ⟨-, -, -, hbit, hsince, -⟩ := ht
  exact ⟨t, hx, hbit, hsince⟩

end Samples

/-! ### Parts and slots (R431-R436) -/

section Slots
variable {s t : State} {τ p k : Nat}

@[simp] theorem State.at_ejtU (p : Nat) : (s.at τ).ejtU p = s.ejtU p := by simp [State.ejtU]
@[simp] theorem State.at_ejtLive (p : Nat) : (s.at τ).ejtLive p = s.ejtLive p := by simp [State.ejtLive]
@[simp] theorem State.at_startsFrom (p src : Nat) : (s.at τ).startsFrom p src = s.startsFrom p src := by simp [State.startsFrom]
@[simp] theorem State.at_epochBars (p : Nat) (x : Int) : (s.at τ).epochBars p x = s.epochBars p x := by simp [State.epochBars]
@[simp] theorem State.at_nextGrid (p : Nat) : (s.at τ).nextGrid p = s.nextGrid p := by simp [State.nextGrid, State.actS64]
@[simp] theorem State.at_freeSlot (p : Nat) : (s.at τ).freeSlot p = s.freeSlot p := by simp [State.freeSlot]

theorem State.slot_setSlot_same (x : Option Slot) : (s.setSlot p k x).slot p k = x := by
  have h : (s.setSlot p k x).slot p k = Store.get none (Store.get {} (Store.put {} s.ejt p { s.ejtU p with
    slots := Store.put none (s.ejtU p).slots k x }) p).slots k := rfl
  rw [h, Store.get_put_same]
  simp

theorem State.slot_congr (h : t.ejt = s.ejt) : t.slot p k = s.slot p k := by rw [State.slot, State.slot, State.ejtU, State.ejtU, h]

theorem State.newSlot_setEjt (q : Nat) (u : EjtUnit) : (s.setEjt q u).newSlot = s.newSlot := rfl

/-- What the settling of contexts leaves of the slots: all of them. -/
theorem State.setCtxState_ejt (j v : Nat) : (s.setCtxState j v).ejt = s.ejt := rfl

theorem State.settleCtx_ejt (j : Nat) : (s.settleCtx j).ejt = s.ejt := by
  unfold State.settleCtx
  dsimp only
  split
  · rfl
  split
  · rfl
  split
  · rfl
  · rfl

theorem State.settleCtxs_ejt : s.settleCtxs.ejt = s.ejt := foldl_keeps State.ejt fun _ _ _ => State.settleCtx_ejt _

theorem State.releaseList_ejt (x : KvSeq) : (s.releaseList x).ejt = s.ejt := by
  refine foldl_keeps State.ejt fun t e _ => ?_
  split
  · rfl
  · unfold State.updPage
    dsimp only
    split <;> rfl

theorem State.closePart_ejt (part : Nat) : (s.closePart p part).ejt = s.ejt :=
  foldl_keeps State.ejt fun _ _ _ => State.releaseList_ejt _

/-- The commit of a slot that waits for it from this source. -/
theorem State.slotCommit_slot {x : Slot} {c : Commit} (hs : s.slot p k = some x) (hl : s.ejtLive p = true) (hsrc : x.srcFb = c.fromFb)
    (hn : x.commit = none) : (s.slotCommit p k c).slot p k =
      some { x with commit := some { c with pos := s.pos p, sec := s.tbSec % 4294967296, ns := s.tbNs } } := by
  unfold State.slotCommit
  rw [hs]
  dsimp only
  rw [if_neg (by simp [hl]), if_neg (by simp [hsrc]), if_neg (by simp [hn]), State.slot_congr State.settleCtxs_ejt]
  have counted (t : State) (f g : Fld) : (if c.missed then (t.inc (bEJT p) f).inc (bEJT p) g else t.inc (bEJT p) f).ejt = t.ejt := by
    split <;> rfl
  split
  · exact (State.slot_congr (counted ..)).trans (State.slot_setSlot_same _)
  · exact (State.slot_congr ((State.closePart_ejt _).trans (counted ..))).trans (State.slot_setSlot_same _)

/-- Hardware's commit of a slot that waits: DOUBT, missed. -/
theorem State.hwDoubt_slot {x : Slot} {ov : Bool} (hs : s.slot p k = some x) (hl : s.ejtLive p = true) (hn : x.commit = none) :
    ∃ y c, (s.hwDoubt p k ov).slot p k = some y ∧ y.commit = some c ∧ c.verdict = 3 ∧ c.missed = true ∧ y.overspeed = ov := by
  unfold State.hwDoubt
  rw [hs]
  dsimp only
  rw [if_neg (by simp [hn, hl])]
  have live (m : Option Merge) (y : Option Slot) : ((s.setSlot p k y).setMerge p k m).ejtLive p = true := by
    have fsm (b : Nat) (hb : fkey (bEJT p) EJT_OPEN ≠ fkey b COM_STATE_FSM) : ((s.setSlot p k y).setMerge p k m).isOn b = s.isOn b :=
      congrArg (· == fON) (State.rd_setSlot hb)
    rw [State.ejtLive, fsm _ (by simp only [fkey, bEJT, bSTP, EJT_OPEN, COM_STATE_FSM]; omega),
      fsm _ (fkey_ne_of_place (by decide))]
    exact hl
  refine ⟨_, _, State.slotCommit_slot (x := { x with overspeed := ov }) ?_ (live _ _) rfl hn, rfl, rfl, rfl, rfl⟩
  exact State.slot_setSlot_same _

/-! #### A part start -/

theorem exec_partStart {part : Nat} {start : Int} (hg : s.nextGrid p = some (start, part)) :
    exec (.partStart τ p) s = .next (if s.startsFrom p 1 && decide (start ≤ (s.at τ).pos p) && !s.epochBars p start then
      (s.at τ).takeStart p part start else s.at τ) := by
  refine congrArg Host.Outcome.next ?_
  rw [State.at_nextGrid, hg]
  simp only [State.at_startsFrom, State.at_epochBars]

/-- What a result ready for a part leaves: the slots but for verdict and source, and the starts. -/
def State.slotView (s : State) (p k : Nat) : Option Slot × Option Int := ((s.slot p k).map Slot.bare, (s.ejtU p).hiStart)

theorem State.slotView_of_steady (h : t.steady = s.steady) (p k : Nat) : t.slotView p k = s.slotView p k :=
  congrArg₂ Prod.mk (State.slot_of_steady h p k) (congrArg (fun v => (v.ports p).hiStart) h)

theorem State.fbReady_slotView (part verdict : Nat) : (s.fbReady p part verdict).slotView p k = s.slotView p k := by
  have noted (h : Halter) : (s.setHlt h).slotView p k = s.slotView p k := by
    simp only [State.slotView, State.slot, State.ejtU, State.setHlt_ejt]
  have committed (t : State) (j n : Nat) : (t.fbCommit p j n).slotView p k = t.slotView p k :=
    State.slotView_of_steady ((State.inc_steady (by decide)).trans (State.slotCommit_steady ..)) p k
  unfold State.fbReady
  split
  · rfl
  · dsimp only
    split
    · rw [committed, noted]
    · exact noted _

theorem State.slotView_congr (h : t.ejt = s.ejt) : t.slotView p k = s.slotView p k := by
  rw [State.slotView, State.slotView, State.slot, State.slot, State.ejtU, h]
  rfl

theorem State.setSlot_slotView {x : Slot} : (s.setSlot p k (some x)).slotView p k = (some x.bare, (s.ejtU p).hiStart) := by
  have hu : (s.setSlot p k (some x)).ejtU p = { s.ejtU p with slots := Store.put none (s.ejtU p).slots k (some x) } := Store.get_put_same
  rw [State.slotView, State.slot_setSlot_same, hu]
  rfl

theorem State.openPart_slotView {part : Nat} {start : Int} (hl : s.ejtLive p = true) (hm : (s.ejtU p).mayOpen = true)
    (hf : s.freeSlot p = some k) : (s.openPart p part start).slotView p k =
      (some (s.newSlot p part start (start + s.act (bEJT p) EJT_TARGET) false).bare, (s.ejtU p).hiStart) := by
  have opened (x : Slot) (m : Option Merge) : (((s.setSlot p k (some x)).inc (bEJT p) EJT_CNT_OPENED).setMerge p k m).slotView p k =
      (some x.bare, (s.ejtU p).hiStart) :=
    (State.slotView_congr (s := s.setSlot p k (some x)) rfl).trans State.setSlot_slotView
  unfold State.openPart
  rw [if_neg (by simp [hl, hm]), hf]
  dsimp only
  split
  · exact (State.fbReady_slotView ..).trans (opened _ _)
  · exact opened _ _

theorem partStart_opens {part : Nat} {start : Int} (hg : s.nextGrid p = some (start, part)) (hs : s.startsFrom p 1 = true)
    (hp : start ≤ (s.at τ).pos p) (he : s.epochBars p start = false) (hm : (s.ejtU p).mayOpen = true) (hf : s.freeSlot p = some k) :
    Completes (.partStart τ p) s (fun t => (t.ejtU p).hiStart = some start ∧ ∃ y, t.slot p k = some y ∧ y.part = part ∧ y.start = start) := by
  have hl : s.ejtLive p = true := by
    simp only [State.startsFrom, Bool.and_eq_true] at hs
    exact hs.2
  have hu : ((s.at τ).setEjt p { (s.at τ).ejtU p with hiStart := some start }).ejtU p = { s.ejtU p with hiStart := some start } :=
    Store.get_put_same.trans (by rw [State.at_ejtU])
  have hslot (j : Nat) : ((s.at τ).setEjt p { (s.at τ).ejtU p with hiStart := some start }).slot p j = s.slot p j := by
    rw [State.slot, hu, State.slot]
  have hview := State.openPart_slotView (s := (s.at τ).setEjt p { (s.at τ).ejtU p with hiStart := some start }) (p := p) (k := k)
    (part := part) (start := start) ((State.at_ejtLive (s := s) (τ := τ) p).trans hl) (by rw [hu]; exact hm) (by
      rw [State.freeSlot]
      simp only [hslot]
      exact hf)
  rw [hu] at hview
  refine ⟨_, (exec_partStart hg).trans (congrArg Host.Outcome.next (if_pos (by simp [hs, hp, he]))), congrArg Prod.snd hview, ?_⟩
  obtain ⟨y, hy, hb⟩ := Option.map_eq_some_iff.1 (congrArg Prod.fst hview)
  exact ⟨y, hy, congrArg Slot.part hb, congrArg Slot.start hb⟩

/-! #### Firing (R434, R439) -/

theorem exec_slotFire {x : Slot} (hs : s.slot p k = some x) : exec (.slotFire τ p k) s = .next (
    if s.ejtLive p && x.commit.isSome && decide ((s.at τ).firingPos p x.cls x ≤ (s.at τ).pos p) then (s.at τ).fireSlot p k x else s.at τ) := by
  refine congrArg Host.Outcome.next ?_
  rw [State.at_slot, hs]
  simp only [State.at_ejtLive]

/-- A slot and its merge entry are empty. -/
def State.Freed (s : State) (p k : Nat) : Prop := s.slot p k = none ∧ s.mergeAt p k = none

theorem State.freed_of_steady (h : t.steady = s.steady) (hf : s.Freed p k) : t.Freed p k := by
  obtain ⟨hs, hm⟩ := hf
  refine ⟨?_, (congrArg (Store.get none · (mkey p k)) (State.part_of_steady State.merge (fun _ => rfl) h)).trans hm⟩
  have hmap := State.slot_of_steady h p k
  rw [hs] at hmap
  exact Option.map_eq_none_iff.1 hmap

theorem State.freed_of_eq (h : t.ejt = s.ejt ∧ t.merge = s.merge) (hf : s.Freed p k) : t.Freed p k := by
  simpa only [State.Freed, State.slot, State.ejtU, State.mergeAt, h.1, h.2] using hf

theorem State.faultTold_ejt (stage code kind : Nat) : (s.faultTold stage code kind).ejt = s.ejt := by
  have counted (t : State) (f : Fld) : (t.inc bHLT f).ejt = t.ejt := rfl
  unfold State.faultTold
  simp only [apply_ite State.ejt, counted, State.raise_ejt, State.wr_ejt, ite_self]

theorem State.freed_stageFault {stage code kind : Nat} (hf : s.Freed p k) : (s.stageFault stage code kind).Freed p k := by
  rw [State.stageFault_eq]
  split
  · exact hf
  · exact State.freed_of_steady (State.react_steady ..)
      (State.freed_of_eq ⟨State.faultTold_ejt .., State.faultTold_part State.merge fun _ => rfl⟩ hf)

theorem State.freed_inhibition {part : Nat} {only : Bool} (hf : s.Freed p k) : (s.inhibition p part only).Freed p k := by
  have told : ((s.inc (bEJT p) EJT_CNT_INHIBITED).raise 0x0603 (bEJT p) p part).Freed p k :=
    State.freed_of_steady (State.raise_steady ..) (State.freed_of_eq (s := s) ⟨rfl, rfl⟩ hf)
  unfold State.inhibition
  dsimp only
  split
  · exact told
  · exact State.freed_stageFault told

theorem State.freed_cleared : ((s.setSlot p k none).setMerge p k none).Freed p k := by
  refine ⟨State.slot_setSlot_same none, ?_⟩
  rw [State.mergeAt, State.setMerge]
  simp

theorem State.freed_fireSlot (x : Slot) : (s.fireSlot p k x).Freed p k := by
  unfold State.fireSlot
  extract_lets
  split
  · exact State.freed_inhibition State.freed_cleared
  · exact State.freed_cleared

theorem slotFire_frees {x : Slot} (hs : s.slot p k = some x) (hc : x.commit.isSome = true) (hl : s.ejtLive p = true)
    (hp : (s.at τ).firingPos p x.cls x ≤ (s.at τ).pos p) : Completes (.slotFire τ p k) s (fun t => t.slot p k = none ∧ t.mergeAt p k = none) :=
  ⟨_, (exec_slotFire hs).trans (congrArg Host.Outcome.next (if_pos (by simp [hl, hc, hp]))), State.freed_fireSlot x⟩

theorem slotFire_waits {x : Slot} (hs : s.slot p k = some x) (hc : x.commit = none ∨ (s.at τ).pos p < (s.at τ).firingPos p x.cls x) :
    exec (.slotFire τ p k) s = .next (s.at τ) := by
  refine (exec_slotFire hs).trans (congrArg Host.Outcome.next (if_neg ?_))
  rcases hc with h | h
  · simp [h]
  · simp [h]

theorem exec_earliestFiringDoubt {x : Slot} (hs : s.slot p k = some x) (hn : x.commit = none) (hl : s.ejtLive p = true)
    (he : (s.at τ).earliestPos p x ≤ (s.at τ).pos p) : exec (.earliestFiringDoubt τ p k) s = .next (if (s.at τ).pos p < x.deadline then
      (((s.at τ).hwDoubt p k true).inc (bEJT p) EJT_CNT_OVERSPEED).raise 0x0602 (bEJT p) p x.part else (s.at τ).verdictDue p k) := by
  refine congrArg Host.Outcome.next ?_
  rw [State.at_slot, hs]
  exact if_pos (by simp [hl, hn, he])

theorem earliestFiringDoubt_commits {x : Slot} (hs : s.slot p k = some x) (hn : x.commit = none) (hl : s.ejtLive p = true)
    (he : (s.at τ).earliestPos p x ≤ (s.at τ).pos p) (hd : (s.at τ).pos p < x.deadline) : Completes (.earliestFiringDoubt τ p k) s (fun t =>
      ∃ y c, t.slot p k = some y ∧ y.commit = some c ∧ c.verdict = 3 ∧ c.missed = true ∧ y.overspeed = true) := by
  have slot (t : State) : ((t.inc (bEJT p) EJT_CNT_OVERSPEED).raise 0x0602 (bEJT p) p x.part).slot p k = t.slot p k := by
    rw [State.slot, State.ejtU, State.raise_ejt]
    rfl
  refine ⟨_, (exec_earliestFiringDoubt hs hn hl he).trans (congrArg Host.Outcome.next (if_pos hd)), ?_⟩
  beta_reduce
  rw [slot]
  exact State.hwDoubt_slot (by simpa using hs) (by simpa using hl) hn

/-! #### Explicit slots and classes (R438) -/

section Written
variable {i v : Nat}

theorem ejtXopen_refused (hi : s.mgmtOrHost i = true) (hon : s.domOn (bEJT p) = true) (hv : bit v 0 = 1)
    (hsrc : s.act (bEJT p) EJT_PARTCFG_PS_SRC ≠ 3) : Completes (.ejtXopen τ i p v) s (fun t =>
      t.rd (bEJT p) EJT_XOPEN_XSTATUS = 0x0101 ∧ t.ejt = s.ejt) := by
  have hx : exec (.ejtXopen τ i p v) s = .next ((s.at τ).xstatus p 0x0101 0) :=
    congrArg Host.Outcome.next ((if_neg (by simp [hi])).trans ((if_neg (by simp [hon, hv])).trans (if_pos (by simp [hsrc]))))
  refine ⟨_, hx, ?_, State.at_ejt ..⟩
  rw [State.xstatus, State.rd_wr_ne _ _ _ _ _ _ (fkey_ne_of_place (by decide)), State.rd_wr_same _ _ _ _ (by decide)]
  rfl

/-- An explicit slot that opens is shown. -/
theorem State.opened_shows (hk : k < 64) (x : Slot) : (((s.setSlot p k (some x)).inc (bEJT p) EJT_CNT_OPENED).xstatus p 0 k).rd (bEJT p) EJT_XOPEN_XSTATUS = 0 ∧
    (((s.setSlot p k (some x)).inc (bEJT p) EJT_CNT_OPENED).xstatus p 0 k).rd (bEJT p) EJT_XOPEN_XSLOT = k ∧
    (((s.setSlot p k (some x)).inc (bEJT p) EJT_CNT_OPENED).xstatus p 0 k).slot p k = some x := by
  have hejt (t : State) : ((t.inc (bEJT p) EJT_CNT_OPENED).xstatus p 0 k).ejt = t.ejt := rfl
  refine ⟨?_, ?_, (State.slot_congr (hejt _)).trans (State.slot_setSlot_same _)⟩
  · rw [State.xstatus, State.rd_wr_ne _ _ _ _ _ _ (fkey_ne_of_place (by decide)), State.rd_wr_same _ _ _ _ (by decide)]
    rfl
  · rw [State.xstatus, State.rd_wr_same _ _ _ _ (by decide)]
    show k % 2 ^ 6 = k
    omega

theorem ejtXopen_opens (hi : s.mgmtOrHost i = true) (hon : s.domOn (bEJT p) = true) (hv : bit v 0 = 1)
    (hsrc : s.act (bEJT p) EJT_PARTCFG_PS_SRC = 3) (hl : s.ejtLive p = true) (hm : (s.ejtU p).mayOpen = true) (hf : s.freeSlot p = some k) :
    Completes (.ejtXopen τ i p v) s (fun t => t.rd (bEJT p) EJT_XOPEN_XSTATUS = 0 ∧ t.rd (bEJT p) EJT_XOPEN_XSLOT = k ∧
      t.slot p k = some ((s.at τ).newSlot p (s.ejtU p).opens (s.rdS64 (bEJT p) EJT_XTGT_LO EJT_XTGT_HI)
        (s.rdS64 (bEJT p) EJT_XTGT_LO EJT_XTGT_HI) true)) := by
  have hk : k < 64 := List.mem_range.1 (List.mem_of_find?_eq_some hf)
  have htgt : (s.at τ).rdS64 (bEJT p) EJT_XTGT_LO EJT_XTGT_HI = s.rdS64 (bEJT p) EJT_XTGT_LO EJT_XTGT_HI := by
    rw [State.rdS64, State.at_rd64, State.rdS64]
  have hx : exec (.ejtXopen τ i p v) s = .next (((((s.at τ).setEjt p { s.ejtU p with opens := ((s.ejtU p).opens + 1) % 4294967296 }).setSlot p k
      (some ((s.at τ).newSlot p (s.ejtU p).opens (s.rdS64 (bEJT p) EJT_XTGT_LO EJT_XTGT_HI) (s.rdS64 (bEJT p) EJT_XTGT_LO EJT_XTGT_HI) true))).inc
        (bEJT p) EJT_CNT_OPENED).xstatus p 0 k) := by
    refine congrArg Host.Outcome.next ((if_neg (by simp [hi])).trans ((if_neg (by simp [hon, hv])).trans ((if_neg (by simp [hsrc, hl, hm])).trans ?_)))
    rw [State.xopen, State.at_freeSlot, hf]
    dsimp only
    rw [State.at_ejtU, htgt, State.newSlot_setEjt]
  exact ⟨_, hx, State.opened_shows hk _⟩

theorem ejtCommit_commits {x : Slot} (hi : s.mgmtOrHost i = true) (hon : s.domOn (bEJT p) = true) (hs : s.slot p (bits v 0 6) = some x)
    (he : x.explicit = true) (hn : x.commit = none) (hsrc : x.srcFb = false) (hl : s.ejtLive p = true) : Completes (.ejtCommit τ i p v) s (fun t =>
      ∃ y c, t.slot p (bits v 0 6) = some y ∧ y.commit = some c ∧ c.verdict = bits v 8 2 ∧ c.missed = false) := by
  have hx : exec (.ejtCommit τ i p v) s = .next ((s.at τ).slotCommit p (bits v 0 6) { verdict := bits v 8 2 }) := by
    refine congrArg Host.Outcome.next ((if_neg (by simp [hi])).trans ((if_neg (by simp [hon])).trans ?_))
    rw [State.at_slot, hs]
    exact if_pos he
  exact ⟨_, hx, _, _, State.slotCommit_slot (x := x) (by simpa using hs) (by simpa using hl) hsrc hn, rfl, rfl, rfl⟩

theorem ejtFire_ignored (hi : s.mgmtOrHost i = true) (hv : bits v 0 2 = 3) : exec (.ejtFire τ i p v) s = .next (s.at τ) :=
  congrArg Host.Outcome.next ((if_neg (by simp [hi])).trans (if_pos (by simp [hv])))

@[simp] theorem State.at_inhibitedHard (p : Nat) : (s.at τ).inhibitedHard p = s.inhibitedHard p := by
  funext n
  simp [State.inhibitedHard, State.latched]

/-- Pulses started on a list of outputs, none of them inhibited. -/
theorem startPulses_get {ns n : Nat} {l : List Nat} (hl : l.any (s.inhibitedHard p) = false) (hn : n ∈ l) :
    Store.get none (l.foldl (fun t j => if t.inhibitedHard p j then t else t.startPulse p j ns) s).field.pulses n = some ⟨p, s.now + ns⟩ := by
  have free (t : State) (j : Nat) : (t.startPulse p j ns).inhibitedHard p = t.inhibitedHard p ∧ (t.startPulse p j ns).now = t.now := ⟨rfl, rfl⟩
  have got (t : State) (j : Nat) : Store.get none (t.startPulse p j ns).field.pulses n = if j = n then some ⟨p, t.now + ns⟩ else
      Store.get none t.field.pulses n := by
    rw [State.startPulse]
    simp [Store.get_put]
  have keep : ∀ (l : List Nat) (t : State), l.any (t.inhibitedHard p) = false →
      Store.get none (l.foldl (fun t j => if t.inhibitedHard p j then t else t.startPulse p j ns) t).field.pulses n =
        if n ∈ l then some ⟨p, t.now + ns⟩ else Store.get none t.field.pulses n := by
    intro l
    induction l with
    | nil => exact fun _ _ => rfl
    | cons j l ih =>
      intro t ht
      simp only [List.any_cons, Bool.or_eq_false_iff] at ht
      rw [List.foldl_cons, ht.1, if_neg (by decide), ih _ (by rw [(free t j).1]; exact ht.2), (free t j).2, got]
      by_cases hnl : n ∈ l
      · rw [if_pos hnl, if_pos (List.mem_cons_of_mem _ hnl)]
      · by_cases hnj : n = j
        · rw [if_neg hnl, if_pos hnj.symm, if_pos (hnj ▸ List.mem_cons_self ..)]
        · rw [if_neg hnl, if_neg (Ne.symm hnj), if_neg (by simp [hnj, hnl])]
  rw [keep l s hl, if_pos hn]

theorem ejtFire_pulses {n : Nat} (hi : s.mgmtOrHost i = true) (hon : s.domOn (bEJT p) = true) (hc : bits v 0 2 < 3)
    (he : s.isOn (bEJT p) = true) (hsafe : s.safe = false)
    (hh : (bitList 8 (s.act (bEJT p) (EJT_CLS_CFG_MASK (bits v 0 2)))).any (s.inhibitedHard p) = false) (hn : n < 8)
    (hb : bit (s.act (bEJT p) (EJT_CLS_CFG_MASK (bits v 0 2))) n = 1) : Completes (.ejtFire τ i p v) s (fun t =>
      Store.get none t.field.pulses n = some ⟨p, t.now + s.act (bEJT p) (EJT_CLS_CFG_PULSE (bits v 0 2)) * 100000⟩) := by
  generalize hcl : bits v 0 2 = c at hc hh hb ⊢
  have hmask : s.act (bEJT p) (EJT_CLS_CFG_MASK c) ≠ 0 := fun h => by
    rw [h] at hb
    simp [bit] at hb
  have hfire : ((s.at τ).fireClass p c).1 = ((bitList 8 (s.act (bEJT p) (EJT_CLS_CFG_MASK c))).foldl (fun t j =>
      if t.inhibitedHard p j then t else t.startPulse p j (s.act (bEJT p) (EJT_CLS_CFG_PULSE c) * 100000)) (s.at τ)).refreshFio ∧
      ((s.at τ).fireClass p c).2.1 = false := by
    have hs' : (s.at τ).safe = false := (congrArg (· == 1) (State.at_rd ..)).trans hsafe
    rw [State.fireClass, State.at_act, State.at_act, hs', State.at_inhibitedHard, hh]
    simp only [Bool.false_eq_true, if_false, Bool.false_or, Bool.false_and, and_self]
  have hx : exec (.ejtFire τ i p v) s = .next ((s.at τ).fireClass p c).1 := by
    refine congrArg Host.Outcome.next ((if_neg (by simp [hi])).trans ((if_neg (by simp [hon, hcl]; omega)).trans ?_))
    rw [hcl, State.fireNow, if_pos (by simp [he, hmask])]
    exact if_neg (by rw [hfire.2]; decide)
  refine ⟨_, hx, ?_⟩
  have hnow (l : List Nat) (ns : Nat) : (l.foldl (fun t j => if t.inhibitedHard p j then t else t.startPulse p j ns) (s.at τ)).now = (s.at τ).now :=
    foldl_keeps State.now fun t j _ => by split <;> rfl
  have hmem : n ∈ bitList 8 (s.act (bEJT p) (EJT_CLS_CFG_MASK c)) := List.mem_filter.2 ⟨List.mem_range.2 hn, by simpa using hb⟩
  beta_reduce
  rw [hfire.1, State.refreshFio_field, State.refreshFio_now, hnow]
  exact startPulses_get (s := s.at τ) (by rw [State.at_inhibitedHard]; exact hh) hmem

end Written

end Slots

/-- Settles O50, clause by clause. The `STATE_REFUSED` answer of `XOPEN` and the start of an explicit slot at its target are log entry 75, and
that the inputs are judged at their samples is entry 76 (DEDUCED). -/
theorem partsOpenFireAndOutputsFollow : Obligations.PartsOpenFireAndOutputsFollow := by
  refine ⟨?_, ?_, ?_, ?_, ?_, ?_, ?_, ?_, ?_, ?_, ?_, ?_, ?_, ?_, ?_, ?_, ?_, ?_⟩
  · exact fun s τ p part k start _ hg hs hp he hm hf => partStart_opens hg hs hp he hm hf
  · exact fun s τ p part start hg hp => (exec_partStart hg).trans (congrArg Host.Outcome.next (if_neg (by simp [hp])))
  · exact fun s τ p k x _ _ hs hc hl hp => slotFire_frees hs hc hl hp
  · exact fun s τ p k x hs hc => slotFire_waits hs hc
  · exact fun s τ p k x _ _ hs hn hl he hd => earliestFiringDoubt_commits hs hn hl he hd
  · exact fun s τ p k x hs hn hl he hd => (exec_earliestFiringDoubt hs hn hl he).trans (congrArg Host.Outcome.next (if_neg (by omega)))
  · exact fun s τ i p v k hi _ hon hv hsrc hl hm hf => ejtXopen_opens hi hon hv hsrc hl hm hf
  · exact fun s τ i p v hi hon hv hsrc => ejtXopen_refused hi hon hv hsrc
  · exact fun s τ i p v x hi _ hon hs he hn hsrc hl => ejtCommit_commits hi hon hs he hn hsrc hl
  · exact fun s τ i p v n hi _ hon hc he _ hsafe hh hn hb => ejtFire_pulses hi hon hc he hsafe hh hn hb
  · exact fun s τ i p v hi hv => ejtFire_ignored hi hv
  · exact fun s τ levels k hk hon hd hb hc hp => diSample_passes hk hon hd hb hc hp
  · exact fun s τ levels k hk hon hd _ hb hp => diSample_waits hk hon hd hb hp
  · intro s τ levels hd
    have hx : exec (.diSample τ levels) s = if !(s.at τ).due perDi (if 3 ≤ (s.at τ).rd bPWR PWR_STAT_STATE then 30500 else 1000) then
        .next (s.at τ) else _ := rfl
    rw [hx, State.at_rd, hd]
    rfl
  · exact fun s τ n q hn hp hd hsrc hs => outputPulseEnd_ends hn hp hd hsrc hs
  · exact fun s τ n q hp hd => outputPulseEnd_runs hp hd
  · exact fun s τ n thermal hn hon => outputOverload_latches hn hon
  · exact fun s τ b x hb hd => strobePulseEnd_ends hb hd

end Sys2Proof.Machine
end
section
/-!
PROOFS. The Halter (O52): stage windows, the safe reaction, self-faults, requests, the fallback table and the rule table.
-/

namespace Sys2Proof.Machine

section Halter
variable {s : State} {τ p k stage i v : Nat}

/-! ### Passing time -/

@[simp] theorem State.at_stageApplies (p k stage : Nat) : (s.at τ).stageApplies p k stage = s.stageApplies p k stage := by
  rw [State.stageApplies, State.at_slot, State.at_mergeAt]
  rfl

@[simp] theorem State.at_safe : (s.at τ).safe = s.safe := congrArg (· == 1) (State.at_rd ..)

@[simp] theorem State.at_poisoned (a n : Nat) : (s.at τ).poisoned a n = s.poisoned a n := by
  simp [State.poisoned]

@[simp] theorem State.at_bytes (a n : Nat) : (s.at τ).bytes a n = s.bytes a n := by
  simp [State.bytes]

@[simp] theorem State.at_ruleAt (a k : Nat) : (s.at τ).ruleAt a k = s.ruleAt a k := by
  simp [State.ruleAt, State.readLE]

@[simp] theorem State.at_fwReqStatus (a : Nat) : (s.at τ).fwReqStatus a = s.fwReqStatus a := by
  simp [State.fwReqStatus]

@[simp] theorem State.at_fbLoadResult (a n : Nat) : (s.at τ).fbLoadResult a n = s.fbLoadResult a n := by
  simp [State.fbLoadResult]

@[simp] theorem State.at_restoreOk (p : Nat) : (s.at τ).restoreOk p = s.restoreOk p := by
  simp [State.restoreOk]

@[simp] theorem State.at_fbResult (p part : Nat) : (s.at τ).fbResult p part = s.fbResult p part := by
  simp [State.fbResult]

@[simp] theorem State.at_fbJudge (t : FbTable) (p part : Nat) : (s.at τ).fbJudge t p part = s.fbJudge t p part := by
  simp [State.fbJudge, State.fbImage]

/-! ### Stage faults (R484, R486) -/

/-- A stage fault of a watched stage is latched. -/
theorem State.stageFault_shows {code kind : Nat} (hw : bit s.opt.windows stage = 1) (hs : stage < 8) :
    bit ((s.stageFault stage code kind).rd bHLT HLT_STAT_STG_FAULT) stage = 1 := by
  have counted (t : State) (g : Fld) : (t.inc bHLT g).rd bHLT HLT_STAT_STG_FAULT = t.rd bHLT HLT_STAT_STG_FAULT := rfl
  have told : (s.faultTold stage code kind).rd bHLT HLT_STAT_STG_FAULT = (s.rd bHLT HLT_STAT_STG_FAULT).lor (2 ^ stage) % 2 ^ 8 := by
    unfold State.faultTold
    dsimp only
    simp only [apply_ite (State.rd · bHLT HLT_STAT_STG_FAULT), counted, ite_self]
    exact (State.rd_of_steady (by decide) (State.raise_steady ..)).trans (State.rd_wr_same _ _ _ _ (by decide))
  rw [State.stageFault_eq, if_neg (by omega), State.rd_of_steady (by decide) (State.react_steady ..), told, bit_eq_testBit,
    Nat.testBit_mod_two_pow, decide_eq_true hs, Bool.true_and, ← bit_eq_testBit, bit_lor_two_pow, if_pos rfl]

/-- A late stage of a watched stage is counted. -/
theorem State.stageFault_late {code : Nat} (hw : bit s.opt.windows stage = 1) :
    (s.stageFault stage code 2).cnt bHLT HLT_CNT_STG_LATE = satInc (s.cnt bHLT HLT_CNT_STG_LATE) 1 := by
  have told (t : State) : (s.faultTold stage code 2).cnt bHLT HLT_CNT_STG_LATE = satInc (s.cnt bHLT HLT_CNT_STG_LATE) 1 := by
    refine (State.cnt_inc ..).trans (congrArg (satInc · 1) ?_)
    exact (State.cnt_of_steady (by decide) (State.raise_steady ..)).trans rfl
  rw [State.stageFault_eq, if_neg (by omega), State.cnt_of_steady (by decide) (State.react_steady ..), told s]

theorem State.stageFault_slot {code kind : Nat} : ((s.stageFault stage code kind).slot p k).map Slot.bare = (s.slot p k).map Slot.bare := by
  rw [State.stageFault_eq]
  split
  · rfl
  · exact (State.slot_of_steady (State.react_steady ..) p k).trans (congrArg _ (State.slot_congr (State.faultTold_ejt ..)))

theorem bit_add_two_pow {n j : Nat} (h : bit n j = 0) : bit (n + 2 ^ j) j = 1 := by
  unfold bit at h ⊢
  rw [Nat.add_div_right _ (Nat.two_pow_pos j)]
  omega

theorem stageDue_late {x : Slot} (hst : stage < 7) (hs : s.slot p k = some x) (ha : s.stageApplies p k stage = true)
    (hr : bit x.reported stage = 0) (hl : bit x.lateSeen stage = 0) (hw : bit s.opt.windows stage = 1)
    (hd : ((nth 0xFFFFFFFF x.due stage : Nat) : Int) ≤ (s.at τ).pos p - x.start) : Completes (.stageDue τ p k stage) s (fun t =>
      (∃ y, t.slot p k = some y ∧ bit y.lateSeen stage = 1) ∧ bit (t.rd bHLT HLT_STAT_STG_FAULT) stage = 1 ∧
        t.cnt bHLT HLT_CNT_STG_LATE = satInc (s.cnt bHLT HLT_CNT_STG_LATE) 1) := by
  have hw' : bit (s.at τ).opt.windows stage = 1 := by rw [State.at_opt, hw]
  have hx : exec (.stageDue τ p k stage) s = .next (((s.at τ).setSlot p k (some { x with
      lateSeen := x.lateSeen + 2 ^ stage, fault := x.fault || bit (s.at τ).opt.windows stage == 1 })).stageFault stage p 2) := by
    refine congrArg Host.Outcome.next ?_
    rw [State.at_slot, hs]
    refine if_pos ?_
    rw [State.at_stageApplies, ha, hr, hl, decide_eq_true hst, Bool.and_eq_true]
    exact ⟨rfl, decide_eq_true hd⟩
  have hcnt (y : Slot) : ((s.at τ).setSlot p k (some y)).cnt bHLT HLT_CNT_STG_LATE = s.cnt bHLT HLT_CNT_STG_LATE := State.at_cnt ..
  have hopt (y : Slot) : bit ((s.at τ).setSlot p k (some y)).opt.windows stage = 1 := hw'
  refine ⟨_, hx, ?_, State.stageFault_shows (hopt _) (by omega), (State.stageFault_late (hopt _)).trans (congrArg (satInc · 1) (hcnt _))⟩
  have hslot := State.stageFault_slot (s := (s.at τ).setSlot p k (some { x with
    lateSeen := x.lateSeen + 2 ^ stage, fault := x.fault || bit (s.at τ).opt.windows stage == 1 })) (p := p) (k := k) (stage := stage)
    (code := p) (kind := 2)
  rw [State.slot_setSlot_same] at hslot
  obtain ⟨y, hy, hb⟩ := Option.map_eq_some_iff.1 hslot
  refine ⟨y, hy, ?_⟩
  have hseen : y.lateSeen = x.lateSeen + 2 ^ stage := congrArg Slot.lateSeen hb
  rw [hseen, bit_add_two_pow hl]

theorem stageDue_waits {x : Slot} (hs : s.slot p k = some x) (hd : (s.at τ).pos p - x.start < ((nth 0xFFFFFFFF x.due stage : Nat) : Int)) :
    exec (.stageDue τ p k stage) s = .next (s.at τ) := by
  refine congrArg Host.Outcome.next ?_
  rw [State.at_slot, hs]
  refine if_neg ?_
  rw [Bool.and_eq_true, not_and]
  exact fun _ h => absurd (of_decide_eq_true h) (Int.not_le.2 hd)

/-! ### Stage 7 (R484, R489) -/

theorem State.markS7_heartbeat {k : Nat} (hk : k ≠ 9) : Store.get none (s.markS7 k).hlt.s7 k = some s.now := by
  rw [State.markS7, if_neg (fun h => hk h.1)]
  simp [State.setHlt]

/-- A missing heartbeat begins the fault of its source. -/
theorem State.stage7_begins {code k : Nat} (hk : k ≠ 9) : Store.get none (s.stage7 code k).hlt.s7 k = some (s.stage7 code k).now ∧
    (bit s.opt.windows 7 = 1 → bit ((s.stage7 code k).rd bHLT HLT_STAT_STG_FAULT) 7 = 1) := by
  have hopt : (s.markS7 k).opt = s.opt := by simp
  have hnow : (s.markS7 k).now = s.now := by simp
  have kept : (s.stage7 code k).hlt.s7 = (s.markS7 k).hlt.s7 ∧ (s.stage7 code k).now = (s.markS7 k).now :=
    ⟨State.stageFault_part (fun t => t.hlt.s7) fun _ => rfl, State.stageFault_part State.now fun _ => rfl⟩
  refine ⟨?_, fun hw => State.stageFault_shows (by rw [hopt, hw]) (by decide)⟩
  rw [kept.1, kept.2, hnow, State.markS7_heartbeat hk]

theorem stage7HeartbeatMissing_begins {src : Nat} (hs : src ≤ 2) (ho : src < 2 → s.isOn (bSTP src) = true) :
    Completes (.stage7HeartbeatMissing τ src) s (fun t => Store.get none t.hlt.s7 (4 * src) = some t.now ∧
      (bit s.opt.windows 7 = 1 → bit (t.rd bHLT HLT_STAT_STG_FAULT) 7 = 1)) := by
  by_cases h2 : src = 2
  · subst h2
    have hb := State.stage7_begins (s := s.at τ) (code := 0xFF) (k := 8) (by decide)
    rw [State.at_opt] at hb
    exact ⟨_, congrArg Host.Outcome.next (if_pos rfl), hb⟩
  · have hb := State.stage7_begins (s := s.at τ) (code := src) (k := 4 * src) (by omega)
    rw [State.at_opt] at hb
    refine ⟨_, congrArg Host.Outcome.next ((if_neg h2).trans (if_pos ⟨by omega, ?_⟩)), hb⟩
    rw [State.at_isOn]
    exact ho (by omega)

theorem stage7Persist_ends {missing : Bool} (hs : (s.at τ).s7Stands k missing = false) : Completes (.stage7Persist τ k missing) s (fun t =>
    Store.get none t.hlt.s7 k = none ∧ t.rd bHLT HLT_STAT_LEVEL = s.rd bHLT HLT_STAT_LEVEL) := by
  rcases h7 : Store.get none (s.at τ).hlt.s7 k with _ | a
  · refine ⟨s.at τ, congrArg Host.Outcome.next ?_, h7, State.at_rd ..⟩
    rw [h7]
  · refine ⟨(s.at τ).setHlt { (s.at τ).hlt with s7 := Store.put none (s.at τ).hlt.s7 k none }, congrArg Host.Outcome.next ?_, ?_, State.at_rd ..⟩
    · rw [h7, hs]
      rfl
    · simp [State.setHlt]

/-! ### The safe reaction and self-faults (R482, R489) -/

theorem State.refreshFio_safe : s.refreshFio.rd bFIO FIO_STAT_SAFE = s.rd bFIO FIO_STAT_SAFE := State.refreshFio_rd rfl (by decide) (by decide)

/-- The safe reaction shows itself with its cause. -/
theorem State.safeReaction_shows {cause port : Nat} (hl : s.rd bHLT HLT_STAT_LEVEL ≠ 2) (hc : cause < 16) :
    (s.safeReaction cause stage port).rd bHLT HLT_STAT_LEVEL = 2 ∧ (s.safeReaction cause stage port).rd bHLT HLT_STAT_CAUSE = cause ∧
      (s.safeReaction cause stage port).rd bFIO FIO_STAT_SAFE = 1 := by
  have due (t : State) (b : Nat) (f : Fld) (d : Option Nat) : (t.setHlt { t.hlt with resetDue := d }).rd b f = t.rd b f := rfl
  rw [State.safeReaction, if_neg hl]
  dsimp only
  simp only [State.raise_rd _ _ _ _ _ _ (show offEvents (fkey bHLT HLT_STAT_LEVEL) = true by decide),
    State.raise_rd _ _ _ _ _ _ (show offEvents (fkey bHLT HLT_STAT_CAUSE) = true by decide),
    State.raise_rd _ _ _ _ _ _ (show offEvents (fkey bFIO FIO_STAT_SAFE) = true by decide),
    apply_ite (State.rd · bHLT HLT_STAT_LEVEL), apply_ite (State.rd · bHLT HLT_STAT_CAUSE), apply_ite (State.rd · bFIO FIO_STAT_SAFE), due, ite_self]
  refine ⟨?_, ?_, ?_⟩
  · rw [State.rd_wr_ne _ _ _ _ _ _ (by decide), State.rd_wr_same _ _ _ _ (by decide)]
    rfl
  · rw [State.rd_wr_same _ _ _ _ (by decide)]
    exact Nat.mod_eq_of_lt hc
  · rw [State.rd_wr_ne _ _ _ _ _ _ (by decide), State.rd_wr_ne _ _ _ _ _ _ (by decide), State.refreshFio_safe, State.rd_wr_same _ _ _ _ (by decide)]
    rfl

theorem stage7Persist_reacts {a : Nat} {missing : Bool} (h7 : Store.get none s.hlt.s7 k = some a) (hs : (s.at τ).s7Stands k missing = true)
    (hd : a + s.opt.s7PersistMs * 1000000 ≤ (s.at τ).now) (hj : s.jobRun = true) (hw : bit s.opt.windows 7 = 1)
    (hl : s.rd bHLT HLT_STAT_LEVEL ≠ 2) : Completes (.stage7Persist τ k missing) s (fun t =>
      t.rd bHLT HLT_STAT_LEVEL = 2 ∧ t.rd bHLT HLT_STAT_CAUSE = 4 ∧ t.rd bFIO FIO_STAT_SAFE = 1) := by
  have hx : exec (.stage7Persist τ k missing) s = .next ((s.at τ).safeReaction 4 7 (if 8 ≤ k then 0xFF else k / 4)) := by
    refine congrArg Host.Outcome.next ?_
    rw [State.at_hlt, h7]
    refine (if_neg (by simp [hs])).trans (if_pos ⟨?_, ?_, ?_⟩)
    · rw [State.at_opt]
      exact hd
    · rw [State.at_jobRun, hj]
    · rw [State.at_opt, hw]
  exact ⟨_, hx, State.safeReaction_shows (by rw [State.at_rd]; exact hl) (by decide)⟩

/-- Level 2 with cause 6, the escalation record written and the reset due: a self-fault's state once the outputs are safe. -/
def State.selfShown (u : State) : State :=
  let w := ((u.wr bHLT HLT_STAT_LEVEL 2).wr bHLT HLT_STAT_CAUSE 6).writeEscalation 3 6 0xFF 0xFF
  w.setHlt { w.hlt with selfAt := some w.now }

theorem State.selfFault_eq (h : s.hlt.selfAt = none) : s.selfFault =
    (((s.setField { s.field with held := if s.safe then s.field.held else s.outMask }).wr bFIO FIO_STAT_SAFE 1).refreshFio).selfShown := by
  unfold State.selfFault State.selfShown
  rw [if_neg (by simp [h])]

theorem State.writeEscalation_evtView (level cause stage port : Nat) : (s.writeEscalation level cause stage port).evtView = s.evtView :=
  State.write_evtView ..

/-- Writing the record leaves the fields that show a self-fault. -/
theorem State.selfShown_rd (b : Nat) (f : Fld) (hf : offEvents (fkey b f) = true) : s.selfShown.rd b f =
    ((s.wr bHLT HLT_STAT_LEVEL 2).wr bHLT HLT_STAT_CAUSE 6).rd b f := by
  have hlt (t : State) (h : Halter) : (t.setHlt h).rd b f = t.rd b f := rfl
  rw [State.selfShown]
  dsimp only
  rw [hlt, State.rd_of_evtView hf (State.writeEscalation_evtView ..)]

/-- What a self-fault leaves: its beginning, level 2 with cause 6, and safe outputs. -/
theorem State.selfFault_shows (h : s.hlt.selfAt = none) : s.selfFault.hlt.selfAt = some s.selfFault.now ∧
    s.selfFault.rd bHLT HLT_STAT_LEVEL = 2 ∧ s.selfFault.rd bHLT HLT_STAT_CAUSE = 6 ∧ s.selfFault.rd bFIO FIO_STAT_SAFE = 1 := by
  have due (u : State) : u.selfShown.hlt.selfAt = some u.selfShown.now := by
    unfold State.selfShown
    dsimp only [State.setHlt]
  rw [State.selfFault_eq h]
  refine ⟨due _, ?_, ?_, ?_⟩
  · rw [State.selfShown_rd _ _ (by decide), State.rd_wr_ne _ _ _ _ _ _ (by decide), State.rd_wr_same _ _ _ _ (by decide)]
    rfl
  · rw [State.selfShown_rd _ _ (by decide), State.rd_wr_same _ _ _ _ (by decide)]
    rfl
  · rw [State.selfShown_rd _ _ (by decide), State.rd_wr_ne _ _ _ _ _ _ (by decide), State.rd_wr_ne _ _ _ _ _ _ (by decide),
      State.refreshFio_safe, State.rd_wr_same _ _ _ _ (by decide)]
    rfl

theorem State.selfFault_kick (h : s.hlt.selfAt = none) : s.selfFault.hlt.lastKick = s.hlt.lastKick ∧ s.selfFault.now = s.now := by
  have shown (u : State) : u.selfShown.hlt.lastKick = u.hlt.lastKick ∧ u.selfShown.now = u.now := by
    unfold State.selfShown
    dsimp only [State.setHlt]
    exact ⟨(State.core_of_evtView (fun t => t.hlt.lastKick) (State.writeEscalation_evtView ..)).trans rfl,
      (State.core_of_evtView State.now (State.writeEscalation_evtView ..)).trans rfl⟩
  have kept (u : State) : u.refreshFio.hlt.lastKick = u.hlt.lastKick :=
    State.part_of_steady (fun t => t.hlt.lastKick) (fun _ => rfl) State.refreshFio_steady
  rw [State.selfFault_eq h, (shown _).1, (shown _).2, kept, State.refreshFio_now]
  exact ⟨rfl, rfl⟩

/-- A command that is a self-fault. -/
theorem completes_selfFault {c : Instr} (hx : exec c s = .next ((s.at τ).selfFault)) (h : s.hlt.selfAt = none) : Completes c s (fun t =>
    t.hlt.selfAt = some t.now ∧ t.rd bHLT HLT_STAT_LEVEL = 2 ∧ t.rd bHLT HLT_STAT_CAUSE = 6 ∧ t.rd bFIO FIO_STAT_SAFE = 1) :=
  ⟨_, hx, State.selfFault_shows (by rw [State.at_hlt, h])⟩

@[simp] theorem State.at_hltPowered : (s.at τ).hltPowered = s.domOn bHLT := State.at_domOn ..

theorem halterKick_early {k : Nat} (h : s.hlt.selfAt = none) (hp : s.domOn bHLT = true) (hk : s.hlt.lastKick = some k)
    (hd : 4 * ((s.at τ).now - k) < s.opt.hwdUs * 1000) : Completes (.halterKick τ) s (fun t => t.hlt.lastKick = some t.now ∧
      t.hlt.selfAt = some t.now ∧ t.rd bHLT HLT_STAT_LEVEL = 2 ∧ t.rd bHLT HLT_STAT_CAUSE = 6 ∧ t.rd bFIO FIO_STAT_SAFE = 1) := by
  have hself : ((s.at τ).setHlt { (s.at τ).hlt with lastKick := some (s.at τ).now }).hlt.selfAt = none := by
    show (s.at τ).hlt.selfAt = none
    rw [State.at_hlt, h]
  have hx : exec (.halterKick τ) s = .next ((s.at τ).setHlt { (s.at τ).hlt with lastKick := some (s.at τ).now }).selfFault := by
    refine congrArg Host.Outcome.next ((if_pos (by simp [hp])).trans (if_pos ?_))
    rw [State.at_hlt, hk]
    simpa using hd
  refine ⟨_, hx, ?_, State.selfFault_shows hself⟩
  rw [(State.selfFault_kick hself).1, (State.selfFault_kick hself).2]
  rfl

theorem halterKick_kicks (hp : s.domOn bHLT = true) (hd : ∀ k, s.hlt.lastKick = some k → s.opt.hwdUs * 1000 ≤ 4 * ((s.at τ).now - k)) :
    Completes (.halterKick τ) s (fun t => t.hlt.lastKick = some t.now ∧ t.hlt.selfAt = s.hlt.selfAt ∧
      t.rd bHLT HLT_STAT_LEVEL = s.rd bHLT HLT_STAT_LEVEL) := by
  have hx : exec (.halterKick τ) s = .next ((s.at τ).setHlt { (s.at τ).hlt with lastKick := some (s.at τ).now }) := by
    refine congrArg Host.Outcome.next ((if_pos (by simp [hp])).trans (if_neg ?_))
    rw [State.at_hlt]
    rcases hk : s.hlt.lastKick with _ | k
    · simp
    · simpa using hd k hk
  refine ⟨_, hx, rfl, ?_, State.at_rd ..⟩
  show (s.at τ).hlt.selfAt = s.hlt.selfAt
  rw [State.at_hlt]

theorem exec_halterKickTimeout {k : Nat} (hp : s.domOn bHLT = true) (hk : s.hlt.lastKick.or s.hlt.started = some k)
    (hd : k + s.opt.hwdUs * 1000 ≤ (s.at τ).now) : exec (.halterKickTimeout τ) s = .next (s.at τ).selfFault := by
  refine congrArg Host.Outcome.next ?_
  rw [State.at_hlt, hk]
  exact if_pos ⟨by rw [State.at_opt]; exact hd, by simp [hp]⟩

/-! ### Output mismatches and resets (R486, R489, R482) -/

theorem outputMismatch_faults {n : Nat} (hsrc : s.rd bFIO (FIO_DO_CFG_SRC n) ≠ 0) (hs : s.safe = false)
    (hi : s.inhibitedHard (s.rd bFIO (FIO_DO_CFG_SRC n) - 1) n = false) : exec (.outputMismatch τ n) s =
      .next ((s.at τ).stageFault 6 (s.rd bFIO (FIO_DO_CFG_SRC n) - 1) 4) := by
  refine congrArg Host.Outcome.next ?_
  rw [State.at_rd, State.at_safe, State.at_inhibitedHard]
  exact if_pos ⟨hsrc, by simp [hs], by simp [hi]⟩

theorem exec_safeResetDelay {d : Nat} (h : s.hlt.resetDue = some d) : exec (.safeResetDelay τ) s = .next (if d ≤ (s.at τ).now then
    ((s.at τ).writeEscalation 2 (s.rd bHLT HLT_STAT_CAUSE) 0xFF 0xFF).systemReset RST_CAUSE_HLT_WDT else s.at τ) := by
  refine congrArg Host.Outcome.next ?_
  rw [State.at_hlt, h]
  dsimp only
  rw [State.haltReset, State.at_rd]

theorem exec_halterEscalationReset {a : Nat} (h : s.hlt.selfAt = some a) : exec (.halterEscalationReset τ) s =
    .next (if a + 1000000 ≤ (s.at τ).now then
      ((s.at τ).writeEscalation 3 (s.rd bHLT HLT_STAT_CAUSE) 0xFF 0xFF).systemReset RST_CAUSE_HLT_WDT else s.at τ) := by
  refine congrArg Host.Outcome.next ?_
  rw [State.at_hlt, h]
  dsimp only
  rw [State.haltReset, State.at_rd]

/-! ### The fallback inspector (R491, R493) -/

theorem State.fbReady_result {part : Nat} {x : Slot} (hs : s.slotOfPart p part = some (k, x)) : (s.fbReady p part v).fbResult p part = some v := by
  have head (t : State) (l : List (Nat × Nat × Nat)) : (t.setHlt { t.hlt with results := (p, part, v) :: l }).fbResult p part = some v := by
    simp [State.fbResult, State.setHlt]
  have told (t : State) : (t.fbCommit p k v).fbResult p part = t.fbResult p part :=
    congrArg (fun l => (l.find? (fun r : Nat × Nat × Nat => r.1 == p && r.2.1 == part)).map (fun r => r.2.2))
      (State.part_of_steady (fun t => t.hlt.results) (fun _ => rfl) (State.slotCommit_steady (s := t) ..))
  rw [State.fbReady, hs]
  dsimp only
  split
  · rw [told, head]
  · rw [head]

theorem fallbackResult_ready {part : Nat} {x : Slot} (hs : s.slotOfPart p part = some (k, x)) (ho : s.rd bHLT HLT_STAT_FB_OK ≠ 0)
    (hn : s.fbResult p part = none) (hj : s.fbJudge (Store.get {} s.hlt.tables x.fbGen) p part = some v) :
    Completes (.fallbackResult τ p part) s (fun t => t.fbResult p part = some v) := by
  have hx : exec (.fallbackResult τ p part) s = .next ((s.at τ).fbReady p part v) := by
    refine congrArg Host.Outcome.next ?_
    rw [State.at_slotOfPart, hs]
    refine (if_neg (by simp [ho, hn])).trans ?_
    rw [State.at_fbJudge, State.at_hlt, hj]
  exact ⟨_, hx, State.fbReady_result (by rw [State.at_slotOfPart]; exact hs)⟩

theorem fallbackFault_clears : Completes (.fallbackFault τ) s (fun t => t.rd bHLT HLT_STAT_FB_OK = 0 ∧ (s.rd bHLT HLT_STAT_LEVEL ≠ 2 →
    s.rd bHLT HLT_STAT_SRC0 = 1 ∨ s.rd bHLT HLT_STAT_SRC1 = 1 → t.rd bHLT HLT_STAT_LEVEL = 2 ∧ t.rd bHLT HLT_STAT_CAUSE = 5)) := by
  have cleared : ((s.at τ).wr bHLT HLT_STAT_FB_OK 0).rd bHLT HLT_STAT_FB_OK = 0 := by
    rw [State.rd_wr_same _ _ _ _ (by decide)]
    rfl
  refine ⟨_, rfl, ?_, fun hl ho => ?_⟩
  · split
    · exact (State.rd_of_steady (by decide) (State.safeReaction_steady ..)).trans cleared
    · exact cleared
  · have hl' : ((s.at τ).wr bHLT HLT_STAT_FB_OK 0).rd bHLT HLT_STAT_LEVEL ≠ 2 := by
      rw [State.rd_wr_ne _ _ _ _ _ _ (by decide), State.at_rd]
      exact hl
    obtain ⟨hlev, hcause, -⟩ := State.safeReaction_shows (stage := 0xFF) (cause := 5) (port := 0xFF) hl' (by decide)
    rw [if_pos (by simpa using ho)]
    exact ⟨hlev, hcause⟩

/-! ### Requests (R488, R501) -/

section Requests

theorem bit_of_bits_low (h : bits v 0 3 = 4) : bit v 0 = 0 ∧ bit v 1 = 0 ∧ bit v 2 = 1 := by
  simp only [bits, bit] at h ⊢
  omega

/-- A request with the key from a management group: its parts, then its status. -/
theorem State.hltReq_keyed (hi : s.mgmtOrHost i = true) (hk : bits v 16 16 = 0xA5C3) : s.hltReq i v =
    (((s.restoreReq v 0).1.restoreReq v 1).1.testReq v).1.wr bHLT HLT_REQ_STAT
      (if (s.restoreReq v 0).2 || ((s.restoreReq v 0).1.restoreReq v 1).2 || (((s.restoreReq v 0).1.restoreReq v 1).1.testReq v).2 then 0x0101
        else 0) :=
  (if_neg (by simp [hi])).trans (if_neg (by simp [hk]))

/-- The requests of one port only: its `RESTORE` is the whole answer. -/
theorem State.hltReq_restore (hi : s.mgmtOrHost i = true) (hk : bits v 16 16 = 0xA5C3) (hp : p < 2) (ho : bit v (1 - p) = 0) (ht : bit v 2 = 0) :
    s.hltReq i v = (s.restoreReq v p).1.wr bHLT HLT_REQ_STAT (if (s.restoreReq v p).2 then 0x0101 else 0) := by
  have idle (t : State) : t.testReq v = (t, false) := if_pos ht
  have other (t : State) : t.restoreReq v (1 - p) = (t, false) := if_pos ho
  rw [State.hltReq_keyed hi hk, idle]
  rcases (by omega : p = 0 ∨ p = 1) with rfl | rfl
  · rw [other]
    simp
  · rw [other]
    simp

/-- The state of a port returned to the pipeline, before `LEVEL` is judged. -/
def State.portBack (s : State) (p : Nat) : State := ((s.wr bHLT (hltSrc p) 0).wr (bEJT p) EJT_SRC 0).inc bHLT HLT_CNT_RESTORE

theorem State.restorePort_eq : s.restorePort p = if (s.portBack p).rd bHLT (hltSrc (1 - p)) = 1 then s.portBack p else
    (s.portBack p).wr bHLT HLT_STAT_LEVEL 0 := rfl

theorem State.portBack_rd (b : Nat) (f : Fld) : (s.portBack p).rd b f = ((s.wr bHLT (hltSrc p) 0).wr (bEJT p) EJT_SRC 0).rd b f := rfl

theorem State.portBack_cnt : (s.portBack p).cnt bHLT HLT_CNT_RESTORE = satInc (s.cnt bHLT HLT_CNT_RESTORE) 1 := by
  have wr (t : State) (b : Nat) (f : Fld) (n : Nat) : (t.wr b f n).cnt bHLT HLT_CNT_RESTORE = t.cnt bHLT HLT_CNT_RESTORE := rfl
  rw [State.portBack, State.cnt_inc, wr, wr]

theorem hltSrc_place (p : Nat) : (hltSrc p).off < 1048576 ∧ (hltSrc p).lo < 32 ∧ (hltSrc p).w = 1 := by unfold hltSrc; split <;> decide

theorem level_ne_hltSrc (p : Nat) : fkey bHLT HLT_STAT_LEVEL ≠ fkey bHLT (hltSrc p) := by unfold hltSrc; split <;> decide

theorem src_ne_HLT {f : Fld} (hp : p < 2) (hf : f.off < 1048576 ∧ f.lo < 32) : fkey (bEJT p) EJT_SRC ≠ fkey bHLT f :=
  fkey_ne_of_block (by simp only [bEJT, bHLT]; omega) (by decide) hf

theorem State.restorePort_shows (hp : p < 2) : (s.restorePort p).rd bHLT (hltSrc p) = 0 ∧ (s.restorePort p).rd (bEJT p) EJT_SRC = 0 ∧
    (s.restorePort p).cnt bHLT HLT_CNT_RESTORE = satInc (s.cnt bHLT HLT_CNT_RESTORE) 1 := by
  obtain ⟨ho, hl, hw⟩ := hltSrc_place p
  have base : (s.portBack p).rd bHLT (hltSrc p) = 0 := by
    rw [State.portBack_rd, State.rd_wr_ne _ _ _ _ _ _ (src_ne_HLT hp ⟨ho, hl⟩), State.rd_wr_same _ _ _ _ (by omega), Nat.zero_mod]
  have src : (s.portBack p).rd (bEJT p) EJT_SRC = 0 := by
    rw [State.portBack_rd, State.rd_wr_same _ _ _ _ (by decide), Nat.zero_mod]
  have wr (u : State) : (u.wr bHLT HLT_STAT_LEVEL 0).cnt bHLT HLT_CNT_RESTORE = u.cnt bHLT HLT_CNT_RESTORE := rfl
  rw [State.restorePort_eq]
  split
  · exact ⟨base, src, State.portBack_cnt⟩
  · rw [State.rd_wr_ne _ _ _ _ _ _ (level_ne_hltSrc p), State.rd_wr_ne _ _ _ _ _ _ (src_ne_HLT hp (by decide)).symm, wr]
    exact ⟨base, src, State.portBack_cnt⟩

theorem reqStat_ne_hltSrc (p : Nat) : fkey bHLT HLT_REQ_STAT ≠ fkey bHLT (hltSrc p) := by unfold hltSrc; split <;> decide

theorem restore_returns (hi : s.mgmtOrHost i = true) (hk : bits v 16 16 = 0xA5C3) (hp : p < 2) (hb : bit v p = 1) (ho : bit v (1 - p) = 0)
    (ht : bit v 2 = 0) (hr : s.restoreOk p = true) : Completes (.restore τ i v) s (fun t => t.rd bHLT (hltSrc p) = 0 ∧
      t.rd (bEJT p) EJT_SRC = 0 ∧ t.rd bHLT HLT_REQ_STAT = 0 ∧ t.cnt bHLT HLT_CNT_RESTORE = satInc (s.cnt bHLT HLT_CNT_RESTORE) 1) := by
  obtain ⟨hsrc, hejt, hcnt⟩ := State.restorePort_shows (s := s.at τ) hp
  have hreq : (s.at τ).restoreReq v p = ((s.at τ).restorePort p, false) := (if_neg (by omega)).trans (if_pos (by simp [hr]))
  have hx : exec (.restore τ i v) s = .next (((s.at τ).restorePort p).wr bHLT HLT_REQ_STAT 0) := by
    refine congrArg Host.Outcome.next ((State.hltReq_restore (by simp [hi]) hk hp ho ht).trans ?_)
    rw [hreq]
    rfl
  refine ⟨_, hx, (State.rd_wr_ne _ _ _ _ _ _ (reqStat_ne_hltSrc p)).trans hsrc, ?_, ?_, hcnt.trans (congrArg (satInc · 1) (State.at_cnt ..))⟩
  · exact (State.rd_wr_ne _ _ _ _ _ _ (src_ne_HLT hp (by decide)).symm).trans hejt
  · rw [State.rd_wr_same _ _ _ _ (by decide), Nat.zero_mod]

theorem restore_refused (hi : s.mgmtOrHost i = true) (hk : bits v 16 16 = 0xA5C3) (hp : p < 2) (hb : bit v p = 1) (ho : bit v (1 - p) = 0)
    (ht : bit v 2 = 0) (hr : s.restoreOk p = false) : Completes (.restore τ i v) s (fun t => t.rd bHLT (hltSrc p) = s.rd bHLT (hltSrc p) ∧
      t.rd bHLT HLT_REQ_STAT = 0x0101 ∧ t.cnt bHLT HLT_CNT_RESTORE = s.cnt bHLT HLT_CNT_RESTORE) := by
  have hreq : (s.at τ).restoreReq v p = (s.at τ, true) := (if_neg (by omega)).trans (if_neg (by simp [hr]))
  have hx : exec (.restore τ i v) s = .next ((s.at τ).wr bHLT HLT_REQ_STAT 0x0101) := by
    refine congrArg Host.Outcome.next ((State.hltReq_restore (by simp [hi]) hk hp ho ht).trans ?_)
    rw [hreq]
    rfl
  refine ⟨_, hx, (State.rd_wr_ne _ _ _ _ _ _ (reqStat_ne_hltSrc p)).trans (State.at_rd ..), ?_, State.at_cnt ..⟩
  rw [State.rd_wr_same _ _ _ _ (by decide)]
  rfl

/-- A `TEST` request alone. -/
theorem exec_test (hi : s.mgmtOrHost i = true) (hk : bits v 16 16 = 0xA5C3) (h : bits v 0 3 = 4) : exec (.test τ i v) s =
    .next (((s.at τ).testReq v).1.wr bHLT HLT_REQ_STAT (if ((s.at τ).testReq v).2 then 0x0101 else 0)) := by
  obtain ⟨h0, h1, -⟩ := bit_of_bits_low h
  have none0 (t : State) : t.restoreReq v 0 = (t, false) := if_pos h0
  have none1 (t : State) : t.restoreReq v 1 = (t, false) := if_pos h1
  refine congrArg Host.Outcome.next ((State.hltReq_keyed (by simp [hi]) hk).trans ?_)
  rw [none0, none1]
  rfl

theorem test_faults (hi : s.mgmtOrHost i = true) (hk : bits v 16 16 = 0xA5C3) (h : bits v 0 3 = 4) (hj : bits v 8 3 < 6 ∨ s.jobRun = false) :
    Completes (.test τ i v) s (fun t => t.rd bHLT HLT_REQ_STAT = 0 ∧ t.cnt bHLT HLT_CNT_TEST = satInc (s.cnt bHLT HLT_CNT_TEST) 1 ∧
      (bit s.opt.windows (bits v 8 3) = 1 → bit (t.rd bHLT HLT_STAT_STG_FAULT) (bits v 8 3) = 1)) := by
  have hreq : (s.at τ).testReq v = (((s.at τ).inc bHLT HLT_CNT_TEST).stageFault (bits v 8 3) 0xFF 5, false) := by
    refine (if_neg ?_).trans (if_neg ?_)
    · rw [(bit_of_bits_low h).2.2]
      decide
    · rw [State.at_jobRun]
      rcases hj with hj | hj
      · exact fun hc => absurd hc.1 (by omega)
      · simp [hj]
  have hcnt : (((s.at τ).inc bHLT HLT_CNT_TEST).stageFault (bits v 8 3) 0xFF 5).cnt bHLT HLT_CNT_TEST = satInc (s.cnt bHLT HLT_CNT_TEST) 1 := by
    rw [State.stageFault_cnt (by decide) (by decide), State.cnt_inc, State.at_cnt]
  have hopt : ((s.at τ).inc bHLT HLT_CNT_TEST).opt = s.opt := State.at_opt ..
  refine ⟨_, exec_test hi hk h, ?_, ?_, fun hw => ?_⟩
  · rw [hreq, State.rd_wr_same _ _ _ _ (by decide)]
    rfl
  · rw [hreq]
    exact hcnt
  · rw [hreq, State.rd_wr_ne _ _ _ _ _ _ (by decide)]
    exact State.stageFault_shows (by rw [hopt, hw]) (Nat.mod_lt _ (by decide))

theorem test_refused (hi : s.mgmtOrHost i = true) (hk : bits v 16 16 = 0xA5C3) (h : bits v 0 3 = 4) (hst : 6 ≤ bits v 8 3)
    (hj : s.jobRun = true) : exec (.test τ i v) s = .next ((s.at τ).wr bHLT HLT_REQ_STAT 0x0101) := by
  have hreq : (s.at τ).testReq v = (s.at τ, true) := by
    refine (if_neg ?_).trans (if_pos ⟨hst, by simp [hj]⟩)
    rw [(bit_of_bits_low h).2.2]
    decide
  rw [exec_test hi hk h, hreq]
  rfl

end Requests

/-! ### The fallback table and the rule table (R494, R497) -/

theorem hltFbLoad_starts (hr : s.regAllowed i true bHLT 0x30C = true) (hv : bit v 0 = 1) (hb : s.rd bHLT HLT_FB_LOAD_BUSY = 0) :
    Completes (.hltFbLoad τ i v) s (fun t => t.rd bHLT HLT_FB_LOAD_BUSY = 1 ∧
      t.hlt.loading = some (s.rd64 bHLT HLT_FB_TAB_LO HLT_FB_TAB_HI, s.rd bHLT HLT_FB_LEN)) := by
  refine ⟨_, congrArg Host.Outcome.next ((if_neg (by simp [hr])).trans (if_neg (by simp [hv, hb]))), ?_, ?_⟩
  · rw [State.rd_wr_same _ _ _ _ (by decide)]
    rfl
  · rw [State.at_rd64, State.at_rd]
    rfl

theorem State.fbLoadResult_lt (a n : Nat) : (s.fbLoadResult a n).1 < 2 ^ 16 := by
  unfold State.fbLoadResult
  split
  · decide
  split
  · decide
  split
  · decide
  split
  · exact Nat.two_pow_pos 16
  · decide

theorem fbLoadDone_ends {a : Nat × Nat} (h : s.hlt.loading = some a) : Completes (.fbLoadDone τ) s (fun t => t.rd bHLT HLT_FB_LOAD_BUSY = 0 ∧
    t.rd bHLT HLT_FB_LOAD_LOAD_STATUS = (s.fbLoadResult a.1 a.2).1 ∧ t.hlt.loading = none ∧
      t.hlt.shadow = ((s.fbLoadResult a.1 a.2).2).getD s.hlt.shadow) := by
  obtain ⟨u, hx⟩ : ∃ u : State, exec (.fbLoadDone τ) s = .next
      (((u.setHlt { u.hlt with
          loading := none
          shadow := ((s.fbLoadResult a.1 a.2).2).getD s.hlt.shadow }).wr bHLT HLT_FB_LOAD_BUSY 0).wr bHLT HLT_FB_LOAD_LOAD_STATUS
        (s.fbLoadResult a.1 a.2).1) := by
    refine ⟨if a.1 % 64 = 0 ∧ inDram a.1 a.2 then ((s.at τ).hwRead 0xA1 a.1 a.2).1 else s.at τ, congrArg Host.Outcome.next ?_⟩
    rw [State.at_hlt, h]
    dsimp only
    rw [State.at_fbLoadResult]
  refine ⟨_, hx, ?_, ?_, rfl, rfl⟩
  · rw [State.rd_wr_ne _ _ _ _ _ _ (by decide), State.rd_wr_same _ _ _ _ (by decide)]
    rfl
  · rw [State.rd_wr_same _ _ _ _ (by decide)]
    exact Nat.mod_eq_of_lt (State.fbLoadResult_lt ..)

theorem get_foldl_put {f : Nat → List Nat} (l : List Nat) (m : Store (List Nat)) (k : Nat) :
    Store.get [] (l.foldl (fun m j => Store.put [] m j (f j)) m) k = if k ∈ l then f k else Store.get [] m k := by
  induction l generalizing m with
  | nil => rfl
  | cons j l ih =>
    rw [List.foldl_cons, ih, Store.get_put]
    by_cases hj : j = k <;> by_cases hl : k ∈ l <;> simp [hj, hl, Ne.symm]

theorem exec_hltFwReqGo {a : Nat} (hr : s.regAllowed i true bHLT 0x418 = true) (hv : bit v 0 = 1) (ha : a = s.rd64 bHLT HLT_FW_REQ_LO HLT_FW_REQ_HI) :
    exec (.hltFwReqGo τ i v) s = .next ((if s.fwReqStatus a = 0 then ((s.at τ).fwRead a).setHlt { ((s.at τ).fwRead a).hlt with
      rules := (List.range 64).foldl (fun m k => Store.put [] m k (if bit (nth 0 (s.ruleAt a k) 4) 0 = 1 then s.ruleAt a k else [])) [] }
        else (s.at τ).fwRead a).wr bHLT HLT_REQ_STAT (s.fwReqStatus a)) := by
  subst ha
  refine congrArg Host.Outcome.next ((if_neg (by simp [hr])).trans ((if_neg (by simp [hv])).trans ?_))
  simp only [State.at_rd64, State.at_fwReqStatus, State.at_ruleAt]

theorem hltFwReqGo_installs {a : Nat} (hr : s.regAllowed i true bHLT 0x418 = true) (hv : bit v 0 = 1)
    (ha : a = s.rd64 bHLT HLT_FW_REQ_LO HLT_FW_REQ_HI) (h0 : s.fwReqStatus a = 0) : Completes (.hltFwReqGo τ i v) s (fun t =>
      t.rd bHLT HLT_REQ_STAT = 0 ∧
      (∀ k, k < 64 → Store.get [] t.hlt.rules k = (if bit (nth 0 (s.ruleAt a k) 4) 0 = 1 then s.ruleAt a k else []))) := by
  refine ⟨_, exec_hltFwReqGo hr hv ha, ?_, fun k hk => ?_⟩
  · rw [State.rd_wr_same _ _ _ _ (by decide), h0]
    rfl
  · rw [if_pos h0]
    exact (get_foldl_put ..).trans (if_pos (List.mem_range.2 hk))

end Halter

/-- Settles O52, clause by clause. That a fault of the fallback inspector clears `FB_OK` in every state, that a wrong key is ignored and that stage 7
is judged at its command are log entry 79; that a rule list is installed as a whole is entry 80 (DEDUCED). -/
theorem halterWatchesReactsAndResets : Obligations.HalterWatchesReactsAndResets := by
  refine ⟨?_, ?_, ?_, ?_, ?_, ?_, ?_, ?_, ?_, ?_, ?_, ?_, ?_, ?_, ?_, ?_, ?_, ?_, ?_, ?_, ?_, ?_, ?_, ?_, ?_⟩
  · exact fun s τ p k stage x _ _ hst hs ha hr hl hw hd => stageDue_late hst hs ha hr hl hw hd
  · exact fun s τ p k stage x hs hd => stageDue_waits hs hd
  · exact fun s τ src hs ho => stage7HeartbeatMissing_begins hs ho
  · exact fun s τ k missing hs => stage7Persist_ends hs
  · exact fun s τ k a missing h7 hs hd hj hw hl => stage7Persist_reacts h7 hs hd hj hw hl
  · exact fun s τ n hsrc hs hi => outputMismatch_faults hsrc hs hi
  · exact fun s τ d h => exec_safeResetDelay h
  · exact fun s τ a h => exec_halterEscalationReset h
  · exact fun s τ p part k v x hs ho hn hj => fallbackResult_ready hs ho hn hj
  · exact fun s τ => fallbackFault_clears
  · exact fun s τ i v p hi hk hp hb ho ht hr => restore_returns hi hk hp hb ho ht hr
  · exact fun s τ i v p hi hk hp hb ho ht hr => restore_refused hi hk hp hb ho ht hr
  · exact fun s τ i v hi hk => congrArg Host.Outcome.next ((if_neg (by simp [hi])).trans (if_pos hk))
  · exact fun s τ i v hi hk h hj => test_faults hi hk h hj
  · exact fun s τ i v hi hk h hst hj => test_refused hi hk h hst hj
  · exact fun s τ k h hp hk hd => halterKick_early h hp hk hd
  · exact fun s τ hp hd => halterKick_kicks hp hd
  · exact fun s τ k h hp hk hd => completes_selfFault (exec_halterKickTimeout hp hk hd) h
  · exact fun s τ h hl hp => completes_selfFault (congrArg Host.Outcome.next (if_pos (by simp [hl, hp]))) h
  · exact fun s τ h hp => completes_selfFault (congrArg Host.Outcome.next (if_pos (by simp [hp]))) h
  · exact fun s τ h hp => completes_selfFault (congrArg Host.Outcome.next (if_pos (by simp [hp]))) h
  · exact fun s τ i v hr hv hb => hltFbLoad_starts hr hv hb
  · exact fun s τ a h => fbLoadDone_ends h
  · exact fun s τ i v a hr hv ha h0 => hltFwReqGo_installs hr hv ha h0
  · exact fun s τ i v a hr hv ha h0 => (exec_hltFwReqGo hr hv ha).trans (by rw [if_neg h0])

end Sys2Proof.Machine
end
section
/-!
PROOFS. The statement on sleep states and power domains (O53) is refuted by its last clause.
-/

namespace Sys2Proof.Machine

/-- Refutes O53: the choice between the two registers in the last clause is not a premise. Its `else` branch takes in the arrow behind it, so that
for a write of the high register the clause claims, of every domain and every value, that the domain's bit is set: here of domain 0 and the
value 0, which management core 0 may write. -/
theorem not_sleepWakeAndPowerDomains : ¬ Obligations.SleepWakeAndPowerDomains := by
  rintro ⟨-, -, -, -, -, -, -, -, -, -, -, -, -, -, -, -, -, -, release⟩
  have managed : ({} : State).mgmtOrHost 1 = true := by decide
  have claimed := release {} 0 1 true 0 0 managed (by decide)
  rw [if_pos rfl] at claimed
  exact absurd claimed.1 (by decide)

end Sys2Proof.Machine
end
section
/-!
PROOFS. Command queues (O43): doorbells and queue states, the fetch of a descriptor, completion and retirement.
-/

namespace Sys2Proof.Machine

section Queues
variable {s : State} {τ i q v : Nat}

/-! ### Doorbells and queue states (R342, R343) -/

theorem exec_schQDb (ha : s.regAllowed i true bSCH (0x100C + 0x20 * q) = true) (hon : s.domOn bSCH = true) (hq : q < 64) :
    exec (.schQDb τ i q v) s = .next (if 2 ^ s.rd bSCH (SCH_Q_CFG_SIZE_LOG2 q) < ahead (v % 65536) (s.qDone q) then
      (s.at τ).wr bSCH (SCH_Q_CFG_DB_OVER q) 1
    else (s.at τ).setSch { s.sch with prod := Store.put 0 s.sch.prod q (v % 65536) }) := by
  have hv : bits v 0 16 = v % 65536 := by simp [bits]
  refine congrArg Host.Outcome.next ((if_neg (by simp [ha])).trans ((if_neg (by simp [hon, hq])).trans ?_))
  rw [State.doorbell, hv, State.at_rd, State.qDone, State.at_rd, State.at_sch]
  rfl

theorem schQDb_moves (ha : s.regAllowed i true bSCH (0x100C + 0x20 * q) = true) (hon : s.domOn bSCH = true) (hq : q < 64)
    (hd : ahead (v % 65536) (s.qDone q) ≤ 2 ^ s.rd bSCH (SCH_Q_CFG_SIZE_LOG2 q)) : Completes (.schQDb τ i q v) s (fun t =>
      t.qProd q = v % 65536) := by
  refine ⟨_, exec_schQDb ha hon hq, ?_⟩
  rw [if_neg (by omega)]
  exact Store.get_put_same

theorem schQDb_over (ha : s.regAllowed i true bSCH (0x100C + 0x20 * q) = true) (hon : s.domOn bSCH = true) (hq : q < 64)
    (hd : 2 ^ s.rd bSCH (SCH_Q_CFG_SIZE_LOG2 q) < ahead (v % 65536) (s.qDone q)) : Completes (.schQDb τ i q v) s (fun t =>
      t.rd bSCH (SCH_Q_CFG_DB_OVER q) = 1 ∧ t.qProd q = s.qProd q) := by
  refine ⟨_, exec_schQDb ha hon hq, ?_⟩
  rw [if_pos hd]
  refine ⟨(State.rd_wr_same _ _ _ _ (by simp [SCH_Q_CFG_DB_OVER])).trans rfl, ?_⟩
  rw [State.qProd, State.wr_sch, State.at_sch, State.qProd]

/-- The fields of a queue's configuration but its state lie apart from the state. -/
theorem State.qState_wr {f : Fld} (h : f.off = 0x1008 + 0x20 * q ∧ f.lo < 24) (n : Nat) : (s.wr bSCH f n).qState q = s.qState q :=
  State.rd_wr_ne _ _ _ _ _ _ (by simp only [fkey, SCH_Q_CFG_QSTATE]; omega)

theorem State.qState_set (n : Nat) : (s.wr bSCH (SCH_Q_CFG_QSTATE q) n).qState q = n % 8 := State.rd_wr_same _ _ _ _ (by simp [SCH_Q_CFG_QSTATE])

/-- A write of a queue's configuration ends in the request of `QEN`, with the queue's state and the commands as before. -/
theorem State.qCfgWrite_reaches (h : s.qState q ≠ fSTARTING) : ∃ u : State, s.qCfgWrite q v = u.qenReq q (bit v 0) ∧ u.qState q = s.qState q ∧
    u.sch = s.sch := by
  have start : s.settleStart q = s := if_neg fun c => h c.1
  have ite {c : Prop} [Decidable c] (u : State) {f : Fld} (hf : f.off = 0x1008 + 0x20 * q ∧ f.lo < 24) (n : Nat) (hu : u.qState q = s.qState q ∧
      u.sch = s.sch) : (if c then u.wr bSCH f n else u).qState q = s.qState q ∧ (if c then u.wr bSCH f n else u).sch = s.sch := by
    split
    · exact ⟨(State.qState_wr hf n).trans hu.1, hu.2⟩
    · exact hu
  have one (u : State) {f : Fld} (hf : f.off = 0x1008 + 0x20 * q ∧ f.lo < 24) (n : Nat) (hu : u.qState q = s.qState q ∧ u.sch = s.sch) :
      (u.wr bSCH f n).qState q = s.qState q ∧ (u.wr bSCH f n).sch = s.sch := ⟨(State.qState_wr hf n).trans hu.1, hu.2⟩
  unfold State.qCfgWrite
  rw [start]
  exact ⟨_, rfl, ite _ ⟨rfl, by simp [SCH_Q_CFG_DB_OVER]⟩ _ (one _ ⟨rfl, by simp [SCH_Q_CFG_CQ]⟩ _ (one _ ⟨rfl, by simp [SCH_Q_CFG_CLASS]⟩ _
    (ite _ ⟨rfl, by simp [SCH_Q_CFG_SIZE_LOG2]⟩ _ (ite _ ⟨rfl, by simp [SCH_Q_CFG_CTX]⟩ _ ⟨rfl, rfl⟩))))⟩

theorem exec_qen (ha : s.regAllowed i true bSCH (0x1008 + 0x20 * q) = true) (hon : s.domOn bSCH = true) (hq : q < 64)
    (h : s.qState q ≠ fSTARTING) : ∃ u : State, exec (.qen τ i q v) s = .next (u.qenReq q (v % 2)) ∧ u.qState q = s.qState q ∧ u.sch = s.sch := by
  have hat : (s.at τ).qState q = s.qState q := State.at_rd ..
  have hv : bit v 0 = v % 2 := by simp [bit]
  obtain ⟨u, hu, hst, hsch⟩ := State.qCfgWrite_reaches (s := s.at τ) (v := v) (by rw [hat]; exact h)
  refine ⟨u, congrArg Host.Outcome.next ((if_neg (by simp [ha])).trans ((if_neg (by simp [hon, hq])).trans ?_)), hst.trans hat,
    hsch.trans (State.at_sch ..)⟩
  rw [hu, hv]

theorem qen_starts (ha : s.regAllowed i true bSCH (0x1008 + 0x20 * q) = true) (hon : s.domOn bSCH = true) (hq : q < 64) (hv : v % 2 = 1)
    (h : s.qState q ≠ fSTARTING) : Completes (.qen τ i q v) s (fun t => t.qState q =
      (if s.qState q = fOFF then fSTARTING else if s.qState q = fSTOPPING then fPENDING else s.qState q)) := by
  obtain ⟨u, hx, hst, -⟩ := exec_qen (τ := τ) (v := v) ha hon hq h
  have hqen : (u.wr bSCH (SCH_Q_CFG_QEN q) 1).qState q = s.qState q := (State.qState_wr ⟨rfl, by simp [SCH_Q_CFG_QEN]⟩ 1).trans hst
  rw [hv] at hx
  refine ⟨_, hx, ?_⟩
  rw [State.qenReq]
  dsimp only
  rw [if_pos rfl, hst]
  split
  · exact State.qState_set fSTARTING
  split
  · exact State.qState_set fPENDING
  · exact hqen

theorem qen_stops (ha : s.regAllowed i true bSCH (0x1008 + 0x20 * q) = true) (hon : s.domOn bSCH = true) (hq : q < 64) (hv : v % 2 = 0)
    (h : s.qState q = fON ∨ s.qState q = fPENDING) : Completes (.qen τ i q v) s (fun t => t.qState q =
      (if s.sch.cmds.any (fun x => x.q == q) then fSTOPPING else fOFF)) := by
  have hne : s.qState q ≠ fSTARTING := by
    rcases h with h | h <;> rw [h] <;> decide
  obtain ⟨u, hx, hst, hsch⟩ := exec_qen (τ := τ) (v := v) ha hon hq hne
  rw [hv] at hx
  have hstop : ((u.wr bSCH (SCH_Q_CFG_QEN q) 0).wr bSCH (SCH_Q_CFG_QSTATE q) fSTOPPING).qState q = fSTOPPING := State.qState_set fSTOPPING
  have hcmds : ((u.wr bSCH (SCH_Q_CFG_QEN q) 0).wr bSCH (SCH_Q_CFG_QSTATE q) fSTOPPING).sch.cmds = s.sch.cmds := congrArg Sched.cmds hsch
  refine ⟨_, hx, ?_⟩
  rw [State.qenReq]
  dsimp only
  rw [if_neg (by decide), hst, if_pos (by tauto), State.settleQueue, hcmds, hstop, if_pos rfl]
  split
  · exact hstop
  · exact State.qState_set fOFF

/-! ### Commands by their pointers -/

section Find
variable {α : Type} {g : α → Nat} {l : List α} {a : α} {r : Nat}
/-- A map that keeps what is sought keeps the place found. -/
theorem find?_map_keep {f : α → α} (hf : ∀ c, g (f c) = g c) : (l.map f).find? (fun c => g c == r) = (l.find? (fun c => g c == r)).map f := by
  simp only [List.find?_map, Function.comp_def, hf]

theorem find?_append_new (h : l.find? (fun c => g c == g a) = none) : (l ++ [a]).find? (fun c => g c == g a) = some a := by
  rw [List.find?_append, h, Option.none_or, List.find?_cons, beq_self_eq_true]

end Find

theorem State.cmd?_modCmd {f : Cmd → Cmd} (hf : ∀ c, (f c).ptr = c.ptr) (p r : Nat) : (s.modCmd p f).cmd? r =
    (s.cmd? r).map (fun c => if c.ptr == p then f c else c) :=
  find?_map_keep (g := Cmd.ptr) fun c => by
    split
    · exact hf c
    · rfl

theorem State.cmd?_modCmd_same {f : Cmd → Cmd} {x : Cmd} (hf : ∀ c, (f c).ptr = c.ptr) {p : Nat} (h : s.cmd? p = some x) :
    (s.modCmd p f).cmd? p = some (f x) := by
  rw [State.cmd?_modCmd hf, h, Option.map_some, if_pos (by rw [State.cmd?_ptr h]; exact beq_self_eq_true p)]

/-! ### Fetching a descriptor (R344, R345) -/

section Fetch
variable {b : List Nat} {x : Cmd}

theorem steadyReg_FETCH (hq : q < 64) : steadyReg (fkey bSCH (SCH_Q_PTR_FETCH q)) = true := by
  refine decide_eq_true ?_
  simp only [fkey, SCH_Q_PTR_FETCH, bSCH, reactionFields, bEVQ, bMEM4, bKVC, bFIO, bPWR, bHLT, List.mem_cons, List.not_mem_nil, or_false,
    not_or, SCH_CTX_STATE_CSTATE, PWR_STAT_STATE, PWR_STAT_ABANDONED, PWR_STAT_STEP, PWR_WAKE_CAUSE_SRC, PWR_WAKE_CAUSE_READY,
    PWR_WAKE_CAUSE_ACCESS, HLT_STAT_LEVEL, HLT_STAT_CAUSE, HLT_STAT_SRC0, HLT_STAT_SRC1, HLT_HEALTHY_P0, HLT_HEALTHY_P1, HLT_FW_LAST_LO,
    HLT_FW_LAST_HI, HLT_FW_LAST_INFO_INIT, HLT_FW_LAST_INFO_WR, SCH_ACT_LO, SCH_ACT_HI]
  omega

/-- The state that has read the next descriptor of a queue. -/
def State.fetched (s : State) (q : Nat) : State :=
  let u := s.wr bSCH (SCH_Q_CFG_QSTATE q) fON
  (u.hwRead iSCH (u.rd64 bSCH (SCH_Q_BASE_LO q) (SCH_Q_BASE_HI q) + 64 * (u.qFetch q % 2 ^ u.rd bSCH (SCH_Q_CFG_SIZE_LOG2 q))) 64).1

theorem State.qFetch_wr (n : Nat) : (s.wr bSCH (SCH_Q_CFG_QSTATE q) n).qFetch q = s.qFetch q :=
  State.rd_wr_ne _ _ _ _ _ _ (by simp only [fkey, SCH_Q_CFG_QSTATE, SCH_Q_PTR_FETCH]; omega)

theorem State.fetched_cmds (q : Nat) : (s.fetched q).sch.cmds = s.sch.cmds :=
  (State.part_of_steadyOf (fun s => s.sch.cmds) (fun _ => rfl) (State.hwRead_steadyOf ..)).trans rfl

theorem State.fetched_fetch (hq : q < 64) : (s.fetched q).qFetch q = s.qFetch q :=
  (State.rd_of_steadyOf (steadyReg_FETCH hq) (State.hwRead_steadyOf ..)).trans (State.qFetch_wr fON)

/-- A descriptor that is read without an error becomes a command, sound or refused. -/
theorem exec_commandFetch (hc : (s.at τ).canFetch q = true)
    (hr : (((s.at τ).wr bSCH (SCH_Q_CFG_QSTATE q) fON).hwRead iSCH (s.rd64 bSCH (SCH_Q_BASE_LO q) (SCH_Q_BASE_HI q) +
      64 * (s.qFetch q % 2 ^ s.rd bSCH (SCH_Q_CFG_SIZE_LOG2 q))) 64).2 = (0, b)) : exec (.commandFetch τ q) s =
    .next (if !cmdOk (cmdOf q (s.qFetch q) b) b then ((s.at τ).fetched q).addCmd { cmdOf q (s.qFetch q) b with
        dlKind := min 3 (cmdOf q (s.qFetch q) b).dlKind
        check := if (cmdOf q (s.qFetch q) b).check < 19 then 0xFF else (cmdOf q (s.qFetch q) b).check
        final := some (0x0808, 0xFFFFFFFF) }
      else (((s.at τ).fetched q).addCmd { cmdOf q (s.qFetch q) b with
        key := ((s.at τ).fetched q).timeKey (cmdOf q (s.qFetch q) b)
        waits := (((s.at τ).fetched q).depsOf (bit (cmdOf q (s.qFetch q) b).flags 1 == 1)
          [leNat ((b.drop 32).take 4), leNat ((b.drop 36).take 4)]).1
        depBad := (((s.at τ).fetched q).depsOf (bit (cmdOf q (s.qFetch q) b).flags 1 == 1)
          [leNat ((b.drop 32).take 4), leNat ((b.drop 36).take 4)]).2 }).makeReady (cmdOf q (s.qFetch q) b).ptr) := by
  have size : ((s.at τ).wr bSCH (SCH_Q_CFG_QSTATE q) fON).rd bSCH (SCH_Q_CFG_SIZE_LOG2 q) = s.rd bSCH (SCH_Q_CFG_SIZE_LOG2 q) :=
    (State.rd_wr_ne _ _ _ _ _ _ (by simp only [fkey, SCH_Q_CFG_QSTATE, SCH_Q_CFG_SIZE_LOG2]; omega)).trans (State.at_rd ..)
  have base (f : Fld) (h : f.off < 0x1008 + 0x20 * q ∧ f.lo < 32) : ((s.at τ).wr bSCH (SCH_Q_CFG_QSTATE q) fON).rd bSCH f = s.rd bSCH f :=
    (State.rd_wr_ne _ _ _ _ _ _ (by simp only [fkey, SCH_Q_CFG_QSTATE]; omega)).trans (State.at_rd ..)
  have addr : ((s.at τ).wr bSCH (SCH_Q_CFG_QSTATE q) fON).rd64 bSCH (SCH_Q_BASE_LO q) (SCH_Q_BASE_HI q) =
      s.rd64 bSCH (SCH_Q_BASE_LO q) (SCH_Q_BASE_HI q) := by
    rw [State.rd64, base _ (by simp [SCH_Q_BASE_LO]), base _ (by simp [SCH_Q_BASE_HI]), State.rd64]
  have idx : ((s.at τ).wr bSCH (SCH_Q_CFG_QSTATE q) fON).qFetch q = s.qFetch q := (State.qFetch_wr fON).trans (State.at_rd ..)
  have read : (((s.at τ).wr bSCH (SCH_Q_CFG_QSTATE q) fON).hwRead iSCH (s.rd64 bSCH (SCH_Q_BASE_LO q) (SCH_Q_BASE_HI q) +
      64 * (s.qFetch q % 2 ^ s.rd bSCH (SCH_Q_CFG_SIZE_LOG2 q))) 64).1 = (s.at τ).fetched q := by
    rw [State.fetched, addr, idx, size]
  refine congrArg Host.Outcome.next ((if_neg (by simp [hc])).trans ?_)
  dsimp only
  rw [addr, idx, size, hr, read]
  exact if_neg (by simp)

theorem State.addCmd_shows (h : s.cmd? x.ptr = none) : (s.addCmd x).cmd? x.ptr = some x ∧ (s.addCmd x).qFetch x.q = (x.idx + 1) % 65536 := by
  have fetch (u : State) (k : Nat) : (u.wr bSCH (SCH_Q_PTR_FETCH x.q) k).qFetch x.q = k % 65536 := by
    rw [State.qFetch, State.rd_wr_same _ _ _ _ (by simp [SCH_Q_PTR_FETCH])]
    rfl
  exact ⟨find?_append_new (g := Cmd.ptr) h, fetch _ (x.idx + 1)⟩

/-- What the descriptor gives a command. -/
def Cmd.described (y : Cmd) : List Nat := [y.block, y.tiles, y.kind, y.deadline, y.part, y.vaddr, y.tag]

theorem State.makeReady_shows (hq : x.q < 64) (h : s.cmd? x.ptr = some x) : ((s.makeReady x.ptr).cmd? x.ptr).map Cmd.described = some x.described ∧
    (s.makeReady x.ptr).qFetch x.q = s.qFetch x.q := by
  have refuse (u : State) (st : Nat) (hu : u.cmd? x.ptr = some x) : ((u.refuseCmd x.ptr st).cmd? x.ptr).map Cmd.described = some x.described := by
    rw [State.refuseCmd, State.cmd?_modCmd_same (fun c => by split <;> rfl) hu, Option.map_some]
    split <;> rfl
  have woken (u : State) : ((u.wake 5).cmd? x.ptr = u.cmd? x.ptr) ∧ (u.wake 5).qFetch x.q = u.qFetch x.q :=
    ⟨State.part_of_steady (fun s => s.cmd? x.ptr) (fun _ => rfl) (State.wake_steady 5), State.rd_of_steady (steadyReg_FETCH hq) (State.wake_steady 5)⟩
  rw [State.makeReady, h]
  dsimp only
  split
  · exact ⟨by rw [h, Option.map_some], rfl⟩
  split
  · exact ⟨refuse _ _ h, rfl⟩
  split
  · exact ⟨by rw [h, Option.map_some], rfl⟩
  split
  · exact ⟨refuse _ _ h, rfl⟩
  · have readied := State.cmd?_modCmd_same (f := fun y => { y with
      ready := true
      shards := s.qShards y.q
      atStart := s.activeAtStart y }) (fun _ => rfl) h
    rw [(woken _).1, (woken _).2, readied]
    exact ⟨rfl, rfl⟩

theorem State.fetched_free {p : Nat} (h : s.cmd? p = none) : (s.fetched q).cmd? p = none := by
  rw [State.cmd?, State.fetched_cmds]
  exact h

theorem commandFetch_refuses (hc : (s.at τ).canFetch q = true) (hn : (s.at τ).cmd? (qptr q (s.qFetch q)) = none)
    (hr : (((s.at τ).wr bSCH (SCH_Q_CFG_QSTATE q) fON).hwRead iSCH (s.rd64 bSCH (SCH_Q_BASE_LO q) (SCH_Q_BASE_HI q) +
      64 * (s.qFetch q % 2 ^ s.rd bSCH (SCH_Q_CFG_SIZE_LOG2 q))) 64).2 = (0, b)) (hk : cmdOk (cmdOf q (s.qFetch q) b) b = false) :
    Completes (.commandFetch τ q) s (fun t =>
      (t.cmd? (qptr q (s.qFetch q))).map (fun y => y.final) = some (some (0x0808, 0xFFFFFFFF)) ∧ t.qFetch q = (s.qFetch q + 1) % 65536) := by
  have hx := exec_commandFetch hc hr
  rw [if_pos (by simp [hk])] at hx
  obtain ⟨hcmd, hfetch⟩ := State.addCmd_shows (s := (s.at τ).fetched q) (x := { cmdOf q (s.qFetch q) b with
    dlKind := min 3 (cmdOf q (s.qFetch q) b).dlKind
    check := if (cmdOf q (s.qFetch q) b).check < 19 then 0xFF else (cmdOf q (s.qFetch q) b).check
    final := some (0x0808, 0xFFFFFFFF) }) (State.fetched_free hn)
  exact ⟨_, hx, congrArg (Option.map fun y : Cmd => y.final) hcmd, hfetch⟩

theorem commandFetch_takes (hc : (s.at τ).canFetch q = true) (hn : (s.at τ).cmd? (qptr q (s.qFetch q)) = none) (hq : q < 64)
    (hr : (((s.at τ).wr bSCH (SCH_Q_CFG_QSTATE q) fON).hwRead iSCH (s.rd64 bSCH (SCH_Q_BASE_LO q) (SCH_Q_BASE_HI q) +
      64 * (s.qFetch q % 2 ^ s.rd bSCH (SCH_Q_CFG_SIZE_LOG2 q))) 64).2 = (0, b)) (hk : cmdOk (cmdOf q (s.qFetch q) b) b = true) :
    Completes (.commandFetch τ q) s (fun t => (t.cmd? (qptr q (s.qFetch q))).map Cmd.described = some (cmdOf q (s.qFetch q) b).described ∧
      t.qFetch q = (s.qFetch q + 1) % 65536) := by
  have hx := exec_commandFetch hc hr
  rw [if_neg (by simp [hk])] at hx
  obtain ⟨hcmd, hfetch⟩ := State.addCmd_shows (s := (s.at τ).fetched q) (x := { cmdOf q (s.qFetch q) b with
    key := ((s.at τ).fetched q).timeKey (cmdOf q (s.qFetch q) b)
    waits := (((s.at τ).fetched q).depsOf (bit (cmdOf q (s.qFetch q) b).flags 1 == 1)
      [leNat ((b.drop 32).take 4), leNat ((b.drop 36).take 4)]).1
    depBad := (((s.at τ).fetched q).depsOf (bit (cmdOf q (s.qFetch q) b).flags 1 == 1)
      [leNat ((b.drop 32).take 4), leNat ((b.drop 36).take 4)]).2 }) (State.fetched_free hn)
  obtain ⟨hshown, hkept⟩ := State.makeReady_shows hq hcmd
  exact ⟨_, hx, hshown, hkept.trans hfetch⟩

end Fetch

/-! ### Retiring the only command in flight (R354) -/

section Alone
variable {z x : Cmd} {d : Nat} {w : State}

/-- What retiring leaves when no batch is open: the memory, the counters and the completion queues' write indices. -/
def State.retireView (s : State) : List Host.Cell × Store Word × (Nat → Nat) := (s.mem, s.live, fun c => s.rd bSCH (SCH_CQ_WR c))

theorem State.retireView_eq {t : State} : t.retireView = s.retireView ↔
    t.mem = s.mem ∧ t.live = s.live ∧ ∀ c, t.rd bSCH (SCH_CQ_WR c) = s.rd bSCH (SCH_CQ_WR c) := by
  simp only [State.retireView, Prod.mk.injEq, funext_iff]

theorem State.retireView_wr {f : Fld} (h : f.off < 0x1800 ∧ f.lo < 32) (n : Nat) : (s.wr bSCH f n).retireView = s.retireView := by
  have wr (c : Nat) : (s.wr bSCH f n).rd bSCH (SCH_CQ_WR c) = s.rd bSCH (SCH_CQ_WR c) :=
    State.rd_wr_ne _ _ _ _ _ _ (by simp only [fkey, SCH_CQ_WR]; omega)
  simp only [State.retireView, wr]
  rfl

/-- No batch is open, and at most the command `z` is in flight, whose queue has retired up to index `d`. -/
def State.Alone (z : Cmd) (d : Nat) (s : State) : Prop := s.sch.bufs = [] ∧ (s.sch.cmds = [] ∨ s.sch.cmds = [z] ∧ s.qDone z.q = d)

theorem State.chainRetire_none (h : s.sch.bufs = []) (x : Nat) : s.chainRetire x = s := by
  rw [State.chainRetire, h]
  rfl

/-- The state that has retired a command of queue `q`. -/
def State.retired (s : State) (q : Nat) (z : Cmd) : State :=
  (s.setSch { s.sch with cmds := s.sch.cmds.filter (fun y => y.ptr != z.ptr) }).wr bSCH (SCH_Q_PTR_DONE q) (z.idx + 1)

/-- Retiring at queue `q` takes the command out, or leaves everything. -/
theorem State.retire_alone (hb : s.sch.bufs = []) (hc : s.sch.cmds = [z]) (q : Nat) : State.retire s.sch.cmds.length s q =
    if z.ptr = qptr q (s.qDone q) ∧ z.done ∧ z.record = none then s.retired q z else s := by
  have found : s.cmd? (qptr q (s.qDone q)) = if z.ptr = qptr q (s.qDone q) then some z else none := by
    rw [State.cmd?, hc, List.find?_singleton]
    simp only [beq_iff_eq]
  have chain : (s.retired q z).chainRetire z.ptr = s.retired q z := State.chainRetire_none (s := s.retired q z) hb _
  rw [hc, List.length_singleton, State.retire, found]
  by_cases hp : z.ptr = qptr q (s.qDone q)
  · rw [if_pos hp]
    by_cases hd : z.done = true ∧ z.record = none
    · rw [if_pos ⟨hp, hd⟩]
      dsimp only
      rw [if_pos hd]
      exact chain
    · rw [if_neg (fun h => hd h.2)]
      exact if_neg hd
  · rw [if_neg hp, if_neg (fun h => hp h.1)]

theorem State.retired_alone (hc : s.sch.cmds = [z]) (hb : s.sch.bufs = []) (q : Nat) : (s.retired q z).sch.cmds = [] ∧ (s.retired q z).sch.bufs = [] := by
  refine ⟨?_, hb⟩
  show s.sch.cmds.filter (fun y => y.ptr != z.ptr) = []
  rw [hc, List.filter_singleton, bne_self_eq_false]
  rfl

theorem State.retired_view (hq : q < 64) : (s.retired q z).retireView = s.retireView :=
  (State.retireView_wr (by simp only [SCH_Q_PTR_DONE]; omega) _).trans rfl

/-- Settling a queue leaves the commands, the batches and how far queues have retired. -/
theorem State.settleQueue_leaves (hq : q < 64) : (s.settleQueue q).sch.cmds = s.sch.cmds ∧ (s.settleQueue q).sch.bufs = s.sch.bufs ∧
    (∀ r, (s.settleQueue q).qDone r = s.qDone r) ∧ (s.settleQueue q).retireView = s.retireView := by
  have done (u : State) (n r : Nat) : (u.wr bSCH (SCH_Q_CFG_QSTATE q) n).qDone r = u.qDone r :=
    State.rd_wr_ne _ _ _ _ _ _ (by simp only [fkey, SCH_Q_CFG_QSTATE, SCH_Q_PTR_DONE]; omega)
  have view (u : State) (n : Nat) : (u.wr bSCH (SCH_Q_CFG_QSTATE q) n).retireView = u.retireView :=
    State.retireView_wr (by simp only [SCH_Q_CFG_QSTATE]; omega) n
  unfold State.settleQueue
  split
  · exact ⟨rfl, rfl, fun _ => rfl, rfl⟩
  split
  · exact ⟨rfl, rfl, done s _, view s _⟩
  split
  · exact ⟨rfl, rfl, fun r => (done _ _ r).trans rfl, (view _ _).trans rfl⟩
  · exact ⟨rfl, rfl, fun _ => rfl, rfl⟩

/-- One queue's turn. -/
theorem Alone.turn (h : s.Alone z d) (hq : q < 64) : ((State.retire s.sch.cmds.length s q).settleQueue q).Alone z d ∧
    ((State.retire s.sch.cmds.length s q).settleQueue q).retireView = s.retireView ∧
    (q = z.q → z.ptr = qptr q d → z.done = true → z.record = none → ((State.retire s.sch.cmds.length s q).settleQueue q).sch.cmds = []) := by
  obtain ⟨hb, hc | ⟨hc, hd⟩⟩ := h
  · have idle : State.retire s.sch.cmds.length s q = s := by rw [hc]; rfl
    obtain ⟨hcmds, hbufs, -, hview⟩ := State.settleQueue_leaves (s := s) hq
    rw [idle]
    exact ⟨⟨hbufs.trans hb, Or.inl (hcmds.trans hc)⟩, hview, fun _ _ _ _ => hcmds.trans hc⟩
  · rw [State.retire_alone hb hc]
    split
    · obtain ⟨hcmds, hbufs, -, hview⟩ := State.settleQueue_leaves (s := s.retired q z) hq
      obtain ⟨hc', hb'⟩ := State.retired_alone hc hb q
      exact ⟨⟨hbufs.trans hb', Or.inl (hcmds.trans hc')⟩, hview.trans (State.retired_view hq), fun _ _ _ _ => hcmds.trans hc'⟩
    next hno =>
      obtain ⟨hcmds, hbufs, hdone, hview⟩ := State.settleQueue_leaves (s := s) hq
      refine ⟨⟨hbufs.trans hb, Or.inr ⟨hcmds.trans hc, (hdone _).trans hd⟩⟩, hview, fun hqz hp hdn hr => absurd ⟨?_, hdn, hr⟩ hno⟩
      rw [hqz, hd, ← hqz]
      exact hp

/-- The turns of several queues: the command is gone once its own queue has had its turn. -/
theorem Alone.turns : ∀ (l : List Nat) (s : State), s.Alone z d → (∀ q ∈ l, q < 64) →
    (l.foldl (fun s q => (State.retire s.sch.cmds.length s q).settleQueue q) s).Alone z d ∧
    (l.foldl (fun s q => (State.retire s.sch.cmds.length s q).settleQueue q) s).retireView = s.retireView ∧
    (z.q ∈ l ∨ s.sch.cmds = [] → z.ptr = qptr z.q d → z.done = true → z.record = none →
      (l.foldl (fun s q => (State.retire s.sch.cmds.length s q).settleQueue q) s).sch.cmds = [])
  | [], s, h, _ => ⟨h, rfl, fun hc _ _ _ => hc.resolve_left (by simp)⟩
  | q :: l, s, h, hl => by
    obtain ⟨halone, hview, hgone⟩ := Alone.turn h (hl q (List.mem_cons_self ..))
    obtain ⟨hrest, hkept, hempty⟩ := Alone.turns l _ halone fun r hr => hl r (List.mem_cons_of_mem _ hr)
    refine ⟨hrest, hkept.trans hview, fun hc hp hdn hr => hempty ?_ hp hdn hr⟩
    rcases hc with hc | hc
    · rcases List.mem_cons.1 hc with hq | hq
      · exact Or.inr (hgone hq.symm (by rw [← hq]; exact hp) hdn hr)
      · exact Or.inl hq
    · refine Or.inr ?_
      have idle : State.retire s.sch.cmds.length s q = s := by rw [hc]; rfl
      rw [idle]
      exact (State.settleQueue_leaves (hl q (List.mem_cons_self ..))).1.trans hc

theorem State.settleCtxs_leaves : s.settleCtxs.sch.cmds = s.sch.cmds ∧ s.settleCtxs.retireView = s.retireView := by
  have set (u : State) (k v : Nat) (hk : k < 64) : (u.setCtxState k v).sch.cmds = u.sch.cmds ∧ (u.setCtxState k v).retireView = u.retireView := by
    unfold State.setCtxState
    dsimp only
    refine ⟨by simp only [State.wr64, State.wr_sch], ?_⟩
    rw [State.wr64, State.retireView_wr (by decide), State.retireView_wr (by decide),
      State.retireView_wr (by simp only [SCH_CTX_STATE_CSTATE]; omega)]
  have kept (w : State) (x : Sched) : (w.setSch x).retireView = w.retireView := rfl
  have one (u : State) (k : Nat) (hk : k < 64) : (u.settleCtx k).sch.cmds = u.sch.cmds ∧ (u.settleCtx k).retireView = u.retireView := by
    unfold State.settleCtx
    dsimp only
    split
    · exact ⟨rfl, rfl⟩
    split
    · exact set u k 2 hk
    split
    · rw [State.emptyCtx, kept, (set u k 0 hk).2, State.setSch_sch]
      exact ⟨rfl, rfl⟩
    · exact set u k 1 hk
  rw [State.settleCtxs]
  exact ⟨foldl_keeps (fun u : State => u.sch.cmds) fun u k hk => (one u k (List.mem_range.1 hk)).1,
    foldl_keeps State.retireView fun u k hk => (one u k (List.mem_range.1 hk)).2⟩

/-- The only command in flight retires when it is done and its queue has come to it; the rest stays. -/
theorem State.retireAll_alone (h : s.Alone z d) (hq : z.q < 64) : s.retireAll.retireView = s.retireView ∧
    (z.ptr = qptr z.q d → z.done = true → z.record = none → s.retireAll.sch.cmds = []) := by
  obtain ⟨-, hview, hgone⟩ := Alone.turns (List.range 64) s h fun _ hr => List.mem_range.1 hr
  rw [State.retireAll, State.settleCtxs_leaves.1, State.settleCtxs_leaves.2]
  exact ⟨hview, hgone (Or.inl (List.mem_range.2 hq))⟩

end Alone

/-! ### Completion (R346, R354) -/

section Completion
variable {x : Cmd} {f : Nat × Nat} {a : Nat}

/-- A completed command is counted, and one that missed its deadline a second time. -/
def State.counted (s : State) (x : Cmd) : State :=
  if x.missed && !x.aborted then (s.inc bSCH SCH_CNT_COMPLETED).inc bSCH SCH_CNT_DEADLINE else s.inc bSCH SCH_CNT_COMPLETED

theorem State.counted_leaves : (s.counted x).sch = s.sch ∧ (s.counted x).regs = s.regs ∧ (s.counted x).mem = s.mem ∧ (s.counted x).errs = s.errs ∧
    (s.counted x).poison = s.poison ∧ (s.counted x).memu = s.memu ∧ (s.counted x).pwr = s.pwr ∧ (s.counted x).hlt = s.hlt ∧
    (s.counted x).opt = s.opt ∧ (s.counted x).tb = s.tb := by
  unfold State.counted
  split <;> exact ⟨rfl, rfl, rfl, rfl, rfl, rfl, rfl, rfl, rfl, rfl⟩

theorem State.counted_cnt : (s.counted x).cnt bSCH SCH_CNT_COMPLETED = satInc (s.cnt bSCH SCH_CNT_COMPLETED) 1 := by
  unfold State.counted
  split
  · rw [State.cnt_inc_ne (by decide), State.cnt_inc]
  · rw [State.cnt_inc]

theorem State.chainStatus_none (h : s.sch.bufs = []) (q st : Nat) : s.chainStatus q st = s := by
  have same : ({ s.sch with bufs := [] } : Sched) = s.sch := by rw [← h]
  unfold State.chainStatus
  split
  · rfl
  · rw [h, List.map_nil, same]
    rfl

/-- The record of a command that reports no check. -/
def State.plainRecord (s : State) (x : Cmd) (f : Nat × Nat) : List Nat := (s.counted x).cqRecord x f.2 ⟨f.1, false, false, 0xFF⟩

/-- A command that is done: its status, and the record it still owes. -/
def Cmd.completedAs (s : State) (f : Nat × Nat) (y x : Cmd) : Cmd :=
  { y with done := true, final := some (f.1, f.2), record := if bit x.flags 0 == 1 && f.1 == 0 then none else some (s.plainRecord x f) }

/-- A command that reports no check completes with its own status. -/
theorem State.completeCmd_plain (h : s.cmd? q = some x) (hf : x.final = some f) (hd : x.done = false) (hk : x.check = 0xFF) (hb : s.sch.bufs = []) :
    s.completeCmd q = (((s.counted x).modCmd q (fun y => y.completedAs s f x)).wakeDeps q f.1).cqFlush.retireAll := by
  have report : s.reportCmd x f.1 = (s, ⟨f.1, false, false, 0xFF⟩) := by
    simp [State.reportCmd, State.reports, hk]
  have chain : (s.counted x).chainStatus q f.1 = s.counted x := State.chainStatus_none (by rw [State.counted_leaves.1, hb]) q f.1
  rw [State.completeCmd, h]
  dsimp only
  rw [hf]
  dsimp only
  rw [if_neg (by simp [hd]), report]
  have counted : (if x.missed && !x.aborted then (s.inc bSCH SCH_CNT_COMPLETED).inc bSCH SCH_CNT_DEADLINE else s.inc bSCH SCH_CNT_COMPLETED) =
    s.counted x := rfl
  dsimp only
  rw [counted, chain]
  rfl

theorem State.modCmd_alone {F : Cmd → Cmd} (hc : s.sch.cmds = [x]) (hp : x.ptr = q) : (s.modCmd q F).sch.cmds = [F x] := by
  show s.sch.cmds.map (fun c => if c.ptr == q then F c else c) = [F x]
  rw [hc, List.map_singleton, if_pos (by rw [hp]; exact beq_self_eq_true q)]

/-- A command that is final waits for nothing any more. -/
theorem State.wakeDeps_alone {y : Cmd} (hc : s.sch.cmds = [y]) (hf : y.final.isSome = true) (p st : Nat) : ∃ z : Cmd,
    s.wakeDeps p st = s.setSch { s.sch with cmds := [z] } ∧ z.ptr = y.ptr ∧ z.q = y.q ∧ z.done = y.done ∧ z.record = y.record := by
  have ready {z : Cmd} (hz : z.final.isSome = true) (l : List Nat) :
      l.foldl State.makeReady (s.setSch { s.sch with cmds := [z] }) = s.setSch { s.sch with cmds := [z] } := by
    refine foldl_fixed fun r _ => ?_
    rw [State.makeReady]
    split
    · rfl
    next w hw =>
      have hwz : w = z := List.mem_singleton.1 (List.mem_of_find?_eq_some hw)
      rw [hwz]
      exact if_pos (Or.inl hz)
  unfold State.wakeDeps
  dsimp only
  rw [hc, List.map_singleton]
  split
  · exact ⟨_, ready (z := { y with
      waits := y.waits.filter (· != p)
      depBad := y.depBad || (!soundStatus st && bit y.flags 1 == 0) }) hf _, rfl, rfl, rfl, rfl⟩
  · exact ⟨y, ready hf _, rfl, rfl, rfl, rfl⟩

/-- The only command in flight up to its record: the state is that before, counted, with the command done. -/
theorem State.completeCmd_alone (hc : s.sch.cmds = [x]) (hb : s.sch.bufs = []) (hp : x.ptr = q) (hf : x.final = some f) (hd : x.done = false)
    (hk : x.check = 0xFF) : ∃ (z : Cmd) (w : State), s.completeCmd q = w.cqFlush.retireAll ∧
      w = (s.counted x).setSch { s.sch with cmds := [z] } ∧ z.ptr = x.ptr ∧ z.q = x.q ∧ z.done = true ∧
      z.record = (x.completedAs s f x).record := by
  have hcmd : s.cmd? q = some x := by
    rw [State.cmd?, hc, List.find?_singleton, if_pos (by rw [hp]; exact beq_self_eq_true q)]
  have hsch : ((s.counted x).modCmd q (fun y => y.completedAs s f x)).sch.cmds = [x.completedAs s f x] :=
    State.modCmd_alone (by rw [State.counted_leaves.1, hc]) hp
  obtain ⟨z, hz, hptr, hq, hdone, hrec⟩ := State.wakeDeps_alone hsch rfl q f.1
  refine ⟨z, _, (State.completeCmd_plain hcmd hf hd hk hb).trans (by rw [hz]), ?_, hptr, hq, hdone, hrec⟩
  have kept (u : State) (g : Cmd → Cmd) (l : List Cmd) : (u.modCmd q g).setSch { (u.modCmd q g).sch with cmds := l } =
    u.setSch { u.sch with cmds := l } := rfl
  rw [kept, State.counted_leaves.1]

theorem commandComplete_retires {n : Nat} (hc : s.sch.cmds = [x]) (hb : s.sch.bufs = []) (hp : x.ptr = q) (hq : x.q < 64)
    (hf : x.final = some (0, n)) (hd : x.done = false) (hk : x.check = 0xFF) (hfl : bit x.flags 0 = 1) (hi : qptr x.q (s.qDone x.q) = q) :
    Completes (.commandComplete τ q) s (fun t => t.cmd? q = none ∧ t.cnt bSCH SCH_CNT_COMPLETED = satInc (s.cnt bSCH SCH_CNT_COMPLETED) 1) := by
  have hsch : (s.at τ).sch = s.sch := State.at_sch ..
  obtain ⟨z, w, hx, hw, hptr, hzq, hdone, hrec⟩ := State.completeCmd_alone (s := s.at τ) (by rw [hsch, hc]) (by rw [hsch, hb]) hp hf hd hk
  have norec : z.record = none := hrec.trans (if_pos (by simp [hfl]))
  have hcmds : w.sch.cmds = [z] := by rw [hw]; rfl
  have flush : w.cqFlush = w := by
    rw [State.cqFlush, hcmds, List.filter_singleton, norec]
    rfl
  have hdq : w.qDone z.q = s.qDone x.q := by
    rw [hw, hzq]
    show (((s.at τ).counted x).setSch _).rd bSCH _ = s.rd bSCH _
    rw [State.rd, State.setSch_regs, State.counted_leaves.2.1, State.at_regs, State.rd]
  have hbufs : w.sch.bufs = [] := by rw [hw]; exact (congrArg Sched.bufs hsch).trans hb
  obtain ⟨hview, hgone⟩ := State.retireAll_alone (s := w) (z := z) (d := s.qDone x.q) ⟨hbufs, Or.inr ⟨hcmds, hdq⟩⟩ (by rw [hzq]; exact hq)
  have empty : w.retireAll.sch.cmds = [] := hgone (by rw [hptr, hp, hzq, hi]) hdone norec
  obtain ⟨-, live, -⟩ := State.retireView_eq.1 hview
  refine ⟨_, congrArg Host.Outcome.next hx, ?_, ?_⟩
  · rw [flush, State.cmd?, empty]
    rfl
  · rw [flush, State.cnt, live, hw]
    exact State.counted_cnt.trans (by rw [State.at_cnt])

end Completion

section Record
variable {x z w : Cmd} {f : Nat × Nat} {a c : Nat} {bs : List Nat}

theorem bytes_take {n k : Nat} (h : k ≤ n) : s.bytes a k = (s.bytes a n).take k := by
  rw [State.bytes, State.bytes, ← List.map_take, List.take_range, Nat.min_eq_left h]

theorem leBytes_mod : ∀ n v : Nat, (leBytes n v).map (· % 256) = leBytes n v
  | 0, _ => rfl
  | n + 1, v => by rw [leBytes, List.map_cons, leBytes_mod, Nat.mod_mod]

/-- With no entry into a sleep state under way, an access wakes the module without touching the scheduler. -/
theorem State.wakeFor_sch (h : s.pwr.entry = none) : (s.wakeFor a).sch = s.sch := by
  unfold State.wakeFor State.wake State.latchWake
  rw [h]
  dsimp only
  repeat' split
  all_goals rfl

/-- A write to DRAM that the firewall allows is stored and wakes the module. -/
theorem State.putAs_allowed (hd : inDram a bs.length = true) (ha : s.memAllowed i true a bs.length = true) :
    s.putAs i a bs = (s.wakeFor a).mergeWrite i a bs := by
  have hin : inStore a bs.length = true := by simp [inStore, hd]
  have hopen : s.spadOpen a = true := by
    have hlt : ¬ 0x2000000000 ≤ a := by
      have := of_decide_eq_true hd
      simp only [dramEnd] at this
      omega
    simp [State.spadOpen, hlt]
  have hok : s.checkStore i true a bs.length = (s, 0) := by simp [State.checkStore, hin, hopen, ha]
  rw [State.putAs, State.hwWrite, hok]
  exact congrArg Prod.fst (if_neg (by simp))

/-- Where nothing waits to be reported and the units are sound, the write reaches nothing but the memory. -/
theorem State.putAs_sch (hd : inDram a bs.length = true) (ha : s.memAllowed i true a bs.length = true)
    (hu : s.UnitsSound (partUnits a bs.length)) (he : s.pwr.entry = none) (hw : s.memu.word = []) (hf : s.memu.found = []) :
    (s.putAs i a bs).sch = s.sch := by
  obtain ⟨-, errs, poison, memu⟩ := State.wakeFor_memory (a := a) he
  rw [State.putAs_allowed hd ha, State.mergeWrite_sound (by rwa [State.UnitsSound, errs, poison]) (by rw [memu, hf])
    (Or.inl (by rw [memu, hw])), State.write_sch, State.wakeFor_sch he]

theorem State.putAs_bytes (hd : inDram a bs.length = true) (ha : s.memAllowed i true a bs.length = true) :
    (s.putAs i a bs).bytes a bs.length = bs.map (· % 256) := by
  obtain ⟨u, hu⟩ := (s.wakeFor a).mergeWrite_write i a bs
  rw [State.putAs_allowed hd ha, hu, State.write_bytes]

theorem State.cqPut_room {b : List Nat} (h : s.cqIsFull c = false) (ha : a = s.rd64 bSCH (SCH_CQ_BASE_LO c) (SCH_CQ_BASE_HI c) +
    32 * (s.rd bSCH (SCH_CQ_WR c) % 2 ^ s.rd bSCH (SCH_CQ_CFG_SIZE_LOG2 c))) :
    s.cqPut c b = ((s.putAs iSCH a b).wr bSCH (SCH_CQ_WR c) (s.rd bSCH (SCH_CQ_WR c) + 1), true) := by
  rw [State.cqPut, if_neg (by simp [h]), ha]

theorem State.cqFlush_one {b : List Nat} (hc : s.sch.cmds = [z]) (hr : z.record = some b) :
    s.cqFlush = if (s.cqPut (s.rd bSCH (SCH_Q_CFG_CQ z.q)) b).2 then
      (s.cqPut (s.rd bSCH (SCH_Q_CFG_CQ z.q)) b).1.modCmd z.ptr (fun y => { y with record := none })
    else (s.cqPut (s.rd bSCH (SCH_Q_CFG_CQ z.q)) b).1 := by
  rw [State.cqFlush, hc, List.filter_singleton, hr]
  dsimp only [Option.isSome_some, cond_true, List.foldl_cons, List.foldl_nil]
  rw [hr]

/-- The first bytes of the record of a command that reports no check. -/
theorem State.plainRecord_head : (s.plainRecord x f).length = 32 ∧ ((s.plainRecord x f).map (· % 256)).take 24 =
    leBytes 4 x.ptr ++ leBytes 2 f.1 ++ [0, 0xFF] ++ leBytes 8 x.tag ++ leBytes 4 f.2 ++ [x.layer % 256, 0] ++ leBytes 2 x.failed := by
  have len : (s.plainRecord x f).length = 32 := by simp [State.plainRecord, State.cqRecord, leBytes_length]
  refine ⟨len, ?_⟩
  rw [State.plainRecord, State.cqRecord]
  simp only [List.map_append, leBytes_mod]
  rw [List.append_assoc (_ ++ _), List.take_left' (by simp [leBytes_length])]
  simp

/-- With room in its queue, the record of the only command in flight is written and the queue's write index moves. -/
theorem State.cqFlush_writes {b : List Nat} (hc : s.sch.cmds = [z]) (hb : s.sch.bufs = []) (hz : z.q < 64) (hr : z.record = some b)
    (hq : s.rd bSCH (SCH_Q_CFG_CQ z.q) = c) (hfull : s.cqIsFull c = false) (ha : a = s.rd64 bSCH (SCH_CQ_BASE_LO c) (SCH_CQ_BASE_HI c) +
      32 * (s.rd bSCH (SCH_CQ_WR c) % 2 ^ s.rd bSCH (SCH_CQ_CFG_SIZE_LOG2 c))) :
    (s.putAs iSCH a b).sch = s.sch → s.cqFlush.retireAll.mem = (s.putAs iSCH a b).mem ∧
    s.cqFlush.retireAll.rd bSCH (SCH_CQ_WR c) = (s.rd bSCH (SCH_CQ_WR c) + 1) % 65536 := by
  intro hsch
  have cmds : (s.putAs iSCH a b).sch.cmds = [z] := (congrArg Sched.cmds hsch).trans hc
  have bufs : (s.putAs iSCH a b).sch.bufs = [] := (congrArg Sched.bufs hsch).trans hb
  have index (u : State) (n : Nat) : (u.wr bSCH (SCH_CQ_WR c) n).rd bSCH (SCH_CQ_WR c) = n % 65536 :=
    State.rd_wr_same _ _ _ _ (by simp [SCH_CQ_WR])
  have view (u : State) (F : Cmd → Cmd) : (u.modCmd z.ptr F).retireView = u.retireView := rfl
  rw [State.cqFlush_one hc hr, hq, State.cqPut_room hfull ha, if_pos rfl]
  generalize s.rd bSCH (SCH_CQ_WR c) + 1 = n
  obtain ⟨kept, -⟩ := State.retireAll_alone (s := ((s.putAs iSCH a b).wr bSCH (SCH_CQ_WR c) n).modCmd z.ptr (fun y => { y with record := none }))
    (z := { z with record := none }) ⟨bufs, Or.inr ⟨State.modCmd_alone cmds rfl, rfl⟩⟩ hz
  obtain ⟨mem, -, wr⟩ := State.retireView_eq.1 (kept.trans (view _ _))
  exact ⟨mem, (wr c).trans (index _ n)⟩

theorem State.memAllowed_congr {t : State} (hr : t.regs = s.regs) (hh : t.hlt = s.hlt) (ho : t.opt = s.opt) (i n : Nat) (b : Bool) :
    t.memAllowed i b a n = s.memAllowed i b a n := by
  have rd (k : Nat) (g : Fld) : t.rd k g = s.rd k g := by rw [State.rd, State.rd, hr]
  simp only [State.memAllowed, State.groupNow, State.jtagOff, State.tableAllows, State.fwRule, State.hostSet, hh, ho, rd]
  rfl

theorem commandComplete_records (hc : s.sch.cmds = [x]) (hb : s.sch.bufs = []) (hp : x.ptr = q) (hq : x.q < 64) (hf : x.final = some f)
    (hd : x.done = false) (hk : x.check = 0xFF) (hfl : bit x.flags 0 = 0) (hcq : s.rd bSCH (SCH_Q_CFG_CQ x.q) = c)
    (hfull : s.cqIsFull c = false) (ha : a = s.rd64 bSCH (SCH_CQ_BASE_LO c) (SCH_CQ_BASE_HI c) +
      32 * (s.rd bSCH (SCH_CQ_WR c) % 2 ^ s.rd bSCH (SCH_CQ_CFG_SIZE_LOG2 c))) (hin : inDram a 32 = true)
    (hu : s.UnitsSound (partUnits a 32)) (he : s.pwr.entry = none) (hw : s.memu.word = []) (hm : s.memu.found = [])
    (hal : (s.at τ).memAllowed iSCH true a 32 = true) : Completes (.commandComplete τ q) s (fun t =>
      t.bytes a 24 = leBytes 4 q ++ leBytes 2 f.1 ++ [0, 0xFF] ++ leBytes 8 x.tag ++ leBytes 4 f.2 ++ [x.layer % 256, 0] ++ leBytes 2 x.failed ∧
      t.rd bSCH (SCH_CQ_WR c) = (s.rd bSCH (SCH_CQ_WR c) + 1) % 65536) := by
  have hsch : (s.at τ).sch = s.sch := State.at_sch ..
  obtain ⟨z, w, hx, hz, hptr, hzq, hdone, hrec⟩ := State.completeCmd_alone (s := s.at τ) (by rw [hsch, hc]) (by rw [hsch, hb]) hp hf hd hk
  obtain ⟨len, head⟩ := State.plainRecord_head (s := s.at τ) (x := x) (f := f)
  have owed : z.record = some ((s.at τ).plainRecord x f) := hrec.trans (if_neg (by simp [hfl]))
  obtain ⟨-, cregs, -, cerrs, cpoison, cmemu, cpwr, chlt, copt, -⟩ := State.counted_leaves (s := s.at τ) (x := x)
  have regs : w.regs = s.regs := by rw [hz, State.setSch_regs, cregs, State.at_regs]
  have rd (k : Nat) (g : Fld) : w.rd k g = s.rd k g := by rw [State.rd, State.rd, regs]
  have cmds : w.sch.cmds = [z] := by rw [hz, State.setSch_sch]
  have bufs : w.sch.bufs = [] := by rw [hz, State.setSch_sch]; exact (congrArg Sched.bufs hsch).trans hb
  have errs : w.errs = s.errs := by rw [hz]; exact cerrs.trans (State.at_errs ..)
  have poison : w.poison = s.poison := by rw [hz]; exact cpoison.trans (State.at_poison ..)
  have memu : w.memu = s.memu := by rw [hz]; exact cmemu.trans (State.at_memu ..)
  have pwr : w.pwr = s.pwr := by rw [hz]; exact cpwr.trans (State.at_pwr ..)
  have allowed : w.memAllowed iSCH true a 32 = true :=
    (State.memAllowed_congr (s := s.at τ) (by rw [regs, State.at_regs]) (by rw [hz]; exact chlt) (by rw [hz]; exact copt) ..).trans hal
  have index : w.rd bSCH (SCH_CQ_WR c) = s.rd bSCH (SCH_CQ_WR c) := rd ..
  obtain ⟨mem, wr⟩ := State.cqFlush_writes (s := w) cmds bufs (by rw [hzq]; exact hq) owed (by rw [hzq, rd, hcq])
    (by rw [State.cqIsFull, rd, rd, rd]; exact hfull) (a := a) (by rw [State.rd64, rd, rd, rd, rd]; exact ha)
    (State.putAs_sch (by rw [len]; exact hin) (by rw [len]; exact allowed) (by rw [len, State.UnitsSound, errs, poison]; exact hu)
      (by rw [pwr, he]) (by rw [memu, hw]) (by rw [memu, hm]))
  have stored : (w.putAs iSCH a ((s.at τ).plainRecord x f)).bytes a 32 = ((s.at τ).plainRecord x f).map (· % 256) := by
    have put := State.putAs_bytes (s := w) (i := iSCH) (a := a) (bs := (s.at τ).plainRecord x f) (by rw [len]; exact hin)
      (by rw [len]; exact allowed)
    rwa [len] at put
  refine ⟨_, congrArg Host.Outcome.next hx, ?_, wr.trans (by rw [index])⟩
  rw [bytes_take (n := 32) (by omega), State.bytes_congr mem, stored, head, hp]

end Record

/-! ### Keys, deadlines and read indices (R340, R348, R350) -/

theorem keyRecompute_keys (ho : s.isOn bSCH = true) (hf : s.fencing bSCH = false) : Completes (.keyRecompute τ) s (fun t =>
    t.sch.cmds = s.sch.cmds.map (fun x => { x with key := (s.at τ).timeKey x })) := by
  have on : (s.at τ).isOn bSCH = true := (State.at_isOn ..).trans ho
  have unfenced : (s.at τ).fencing bSCH = false := (State.at_fencing ..).trans hf
  refine ⟨_, congrArg Host.Outcome.next (if_pos (by simp [on, unfenced])), ?_⟩
  show (s.at τ).sch.cmds.map _ = s.sch.cmds.map _
  rw [State.at_sch]

theorem State.linkMissed_sch (x : Nat) (before : Option Cmd) : (s.linkMissed x before).sch = s.sch := by
  have miss (u : State) (n : Nat) : (u.missBarrier n).sch = u.sch := by
    unfold State.missBarrier
    dsimp only
    split <;> rfl
  unfold State.linkMissed
  dsimp only
  split
  · exact (miss _ _).trans rfl
  split
  · exact (miss _ _).trans rfl
  · rfl

/-- Settling a command may make it final; that it missed its deadline stays. -/
theorem State.settleCmd_missed {x : Cmd} (h : s.cmd? q = some x) : ((s.settleCmd q).cmd? q).map Cmd.missed = some x.missed := by
  rw [State.settleCmd, h]
  dsimp only
  split
  · rw [h, Option.map_some]
  split
  · exact congrArg (Option.map Cmd.missed) (State.cmd?_modCmd_same (f := fun y => { y with
      final := some y.outcome
      failed := s.segsFailed x }) (fun _ => rfl) h)
  · rw [h, Option.map_some]

theorem commandDeadlinePassed_misses {x : Cmd} (h : s.cmd? q = some x) (hf : x.final = none) (hs : x.stopped = false)
    (hd : (s.at τ).dlPassed x = true) : Completes (.commandDeadlinePassed τ q) s (fun t => (t.cmd? q).map (fun y => y.missed) = some true) := by
  have hat : (s.at τ).cmd? q = some x := by rw [State.cmd?, State.at_sch]; exact h
  have marked : ((s.at τ).modCmd q (fun c => { c with missed := true })).cmd? q = some { x with missed := true } :=
    State.cmd?_modCmd_same (f := fun c => { c with missed := true }) (fun _ => rfl) hat
  have forced (u : State) (l : List _) : (u.setSch { u.sch with forced := l }).cmd? q = u.cmd? q := rfl
  have run : exec (.commandDeadlinePassed τ q) s = .next ((((s.at τ).modCmd q (fun c => { c with missed := true })).dropForced q).linkMissed q (some x)) := by
    show execCommandDeadlinePassed τ q s = _
    rw [execCommandDeadlinePassed, hat]
    exact congrArg Host.Outcome.next (if_neg (by simp [hf, hs, hd]))
  refine ⟨_, run, ?_⟩
  beta_reduce
  rw [State.cmd?, State.linkMissed_sch]
  exact State.settleCmd_missed ((forced _ _).trans marked)

theorem EVQ_Q_RD_mapped (h : q < 4) : regMapped (regAt bEVQ (0x110 + 0x20 * q)) = true := by
  interval_cases q <;> decide

/-- The write of an event queue's read index. -/
theorem State.writeEvq_index (h : q < 4) : s.writeEvq (0x110 + 0x20 * q) v = some (s.ringRead bEVQ (EVQ_Q_WR q) (EVQ_Q_RD q) v) := by
  have hq : (0x110 + 0x20 * q - 0x100) / 0x20 = q := by omega
  have hr : (0x110 + 0x20 * q - 0x100) % 0x20 = 0x10 := by omega
  rw [State.writeEvq, hq, hr]
  exact (if_neg (by omega)).trans (if_pos rfl)

theorem State.ringRead_index {b : Nat} {wr rd : Fld} (hw : rd.w = 16) :
    (s.ringRead b wr rd v).rd b rd = if ringHeld (v % 65536) (s.rd b rd) ≤ ringHeld (s.rd b wr) (s.rd b rd) then v % 65536 else s.rd b rd := by
  rw [State.ringRead, ringRdOk]
  simp only [decide_eq_true_eq]
  split
  · rw [State.rd_wr_same _ _ _ _ (by omega), hw]
    rfl
  · rfl

theorem ringReadIndex_moves (h : q < 4) (ha : s.regAllowed i true bEVQ (0x110 + 0x20 * q) = true) (hon : s.domOn bEVQ = true) :
    Completes (.ringReadIndex τ i (regAt bEVQ (0x110 + 0x20 * q)) v) s (fun t => t.rd bEVQ (EVQ_Q_RD q) =
      if (v % 65536 + 65536 - s.rd bEVQ (EVQ_Q_RD q)) % 65536 ≤ (s.rd bEVQ (EVQ_Q_WR q) + 65536 - s.rd bEVQ (EVQ_Q_RD q)) % 65536 then v % 65536
      else s.rd bEVQ (EVQ_Q_RD q)) := by
  have write := State.busWrite_permitted (s := s.at τ) (v := v) (EVQ_Q_RD_mapped h) (by omega) (by rw [State.at_regAllowed]; exact ha)
    (fun hc => absurd hc (by simp [restricted, bEVQ, bPWR, bCLM])) (fun _ => (State.at_domOn ..).trans hon)
  have special (u : State) (n : Nat) : u.writeReg i bEVQ (0x110 + 0x20 * q) n = u.ringRead bEVQ (EVQ_Q_WR q) (EVQ_Q_RD q) n := by
    rw [State.writeReg, if_neg (by omega), show u.specialWrite i bEVQ (0x110 + 0x20 * q) n = u.writeEvq (0x110 + 0x20 * q) n from rfl,
      State.writeEvq_index h]
  have value : v % 4294967296 % 65536 = v % 65536 := by omega
  have kept (g : Fld) : ((s.at τ).answer 0 []).rd bEVQ g = s.rd bEVQ g := (show _ = (s.at τ).rd bEVQ g from rfl).trans (State.at_rd ..)
  refine ⟨_, congrArg Host.Outcome.next (write.trans (special _ _)), ?_⟩
  beta_reduce
  rw [State.ringRead_index rfl, value, kept, kept]
  rfl

end Queues

/-- Settles O43, rule by rule: what the doorbell, the queue's states, the fetch, the completion, the keys, the deadline and the read index do. -/
theorem queuesFetchCompleteAndRetire : Obligations.QueuesFetchCompleteAndRetire := by
  unfold Obligations.QueuesFetchCompleteAndRetire
  refine ⟨fun s τ i q v ha hon hq hd => schQDb_moves ha hon hq hd, fun s τ i q v ha hon hq hd => schQDb_over ha hon hq hd,
    fun s τ i q v ha hon hq hv h => qen_starts ha hon hq hv h, fun s τ i q v ha hon hq hv h => qen_stops ha hon hq hv h,
    fun s τ q b hc hn _ _ hr hk => commandFetch_refuses hc hn hr hk, fun s τ q b hc hn hq _ hr hk => ?takes,
    fun s τ q n x hc hb hp hq hf hd hk hfl hi => commandComplete_retires hc hb hp hq hf hd hk hfl hi,
    fun s τ q a x f hc hb hp hq hf hd hk hfl hfull ha hin hu he hw hm hal =>
      commandComplete_records hc hb hp hq hf hd hk hfl rfl hfull ha hin hu he hw hm hal,
    fun s τ ho hf => keyRecompute_keys ho hf, fun s τ q x h hf hs hd => commandDeadlinePassed_misses h hf hs hd,
    fun s τ i q v h ha hon _ _ => ringReadIndex_moves h ha hon⟩
  case takes => exact commandFetch_takes hc hn hq hr hk

end Sys2Proof.Machine
end
section
/-!
PROOFS. Exchanges and barriers (O45): segments, acknowledgements, arrivals and releases.
-/

namespace Sys2Proof.Machine

section Exchanges
variable {s u : State} {τ a q src tag num gen mask : Nat} {f : Frame} {x : Cmd}

/-! ### What receiving and sending a frame leaves -/

/-- A frame received leaves the commands, the time base, the exchanges and the barriers. -/
theorem State.rxFrame_waits (a : Nat) (f : Frame) : (s.rxFrame a f).sch = s.sch ∧ (s.rxFrame a f).tb = s.tb ∧
    (s.rxFrame a f).lnk.exch = s.lnk.exch ∧ (s.rxFrame a f).lnk.waits = s.lnk.waits ∧ (s.rxFrame a f).lnk.gens = s.lnk.gens ∧
    (s.rxFrame a f).lnk.arrived = s.lnk.arrived ∧ (s.rxFrame a f).lnk.least = s.lnk.least := by
  obtain ⟨_, _, _, _, _, h, _⟩ := s.rxFrame_received a f
  rw [h]
  exact ⟨rfl, rfl, rfl, rfl, rfl, rfl, rfl⟩

/-- A frame for one module leaves what the ports have sent. -/
theorem State.rxFrame_sends (hf : f.dest ≠ toAll) (p : Nat) : ((s.rxFrame a f).linkPort p).tx = (s.linkPort p).tx ∧
    ((s.rxFrame a f).linkPort p).replay = (s.linkPort p).replay := by
  have put (u : State) (g : Frame) : ((u.putFrame a 0 true g).linkPort p).tx = (u.linkPort p).tx ∧
      ((u.putFrame a 0 true g).linkPort p).replay = (u.linkPort p).replay := by
    refine ⟨?_, State.putFrame_replay⟩
    by_cases h : a = p
    · rw [← h, State.putFrame_linkPort_same]
    · rw [State.putFrame_linkPort_ne h]
  unfold State.rxFrame
  lift_lets
  intro x noted link heard counted acked
  have hnoted : (noted.linkPort p).tx = (s.linkPort p).tx ∧ (noted.linkPort p).replay = (s.linkPort p).replay := by
    by_cases h : a = p
    · rw [← h, State.setLinkPort_linkPort_same]
      exact ⟨rfl, rfl⟩
    · rw [State.setLinkPort_linkPort_ne h]
      exact ⟨rfl, rfl⟩
  have hcounted : counted.linkPort p = noted.linkPort p := by
    unfold counted
    split <;> rfl
  have hend : (if f.dest = toAll && acked.passesOn a f then acked.forward a f else acked) = acked := by simp [hf]
  obtain ⟨htx, hreplay⟩ := put counted { type := frLACK, src := counted.modulePos, dest := toAll, arg := ((counted.linkPort a).rx + 65535) % 65536 }
  rw [hend]
  exact ⟨(htx.trans (by rw [hcounted])).trans hnoted.1, (hreplay.trans (by rw [hcounted])).trans hnoted.2⟩

/-- A frame sent leaves the commands and the barriers. -/
theorem State.sendFrame_waits (f : Frame) : (s.sendFrame f).sch = s.sch ∧ (s.sendFrame f).mem = s.mem ∧ (s.sendFrame f).lnk.waits = s.lnk.waits ∧
    (s.sendFrame f).lnk.gens = s.lnk.gens := by
  obtain ⟨_, _, _, h⟩ := s.sendFrame_sent f
  rw [h]
  exact ⟨rfl, rfl, rfl, rfl⟩

theorem State.routeTo_congr {t : State} (h : ∀ g, t.rd bLNK g = s.rd bLNK g) (hm : t.lnk.modules = s.lnk.modules) (d : Nat) :
    t.routeTo d = s.routeTo d := by
  have pos : t.modulePos = s.modulePos := by rw [State.modulePos, h, State.modulePos]
  have ring : t.isRing = s.isRing := by rw [State.isRing, h, State.isRing]
  simp only [State.routeTo, pos, ring, hm, State.portUp_congr h]

theorem State.inWindow_congr {t : State} (h : ∀ g, t.rd bLNK g = s.rd bLNK g) (n m : Nat) : t.inWindow n m = s.inWindow n m := by
  simp only [State.inWindow, h]

/-! ### Segments written and acknowledged (R389, R390) -/

section Segments
variable {addr st : Nat} {poison : Bool} {data : List Nat}

theorem write_outside (hu : s.portUp a = true) (hm : s.modulePos < 16) (hs : src < 16) (hw : s.inWindow addr data.length = false)
    (hr : s.portUp (s.routeTo src) = true) (hl : (s.linkPort (s.routeTo src)).replay.length < 64) :
    Completes (.write τ a src addr tag poison data) s (fun t => t.mem = s.mem ∧ (t.linkPort (s.routeTo src)).replay =
      (s.linkPort (s.routeTo src)).replay ++ [((s.linkPort (s.routeTo src)).tx, 0,
        { type := 0x02, src := s.modulePos, dest := src, data := [0x0201], tag := tag })]) := by
  generalize hf : ({ (s.at τ).forMe frWRITE src addr (data.map Int.ofNat) with tag := tag, poison := poison } : Frame) = f
  have hdest : f.dest ≠ toAll := by
    rw [← hf]
    exact ne_of_eq_of_ne (State.at_modulePos ..) (by simp only [toAll]; omega)
  have rd (g : Fld) : ((s.at τ).rxFrame a f).rd bLNK g = s.rd bLNK g := (State.rxFrame_rd ..).trans (State.at_rd ..)
  have modules : ((s.at τ).rxFrame a f).lnk.modules = s.lnk.modules := by
    obtain ⟨-, -, -, -, -, -, -, -, -, h⟩ := State.rxFrame_frame (s.at τ) a f
    rw [h, State.at_lnk]
  have route := State.routeTo_congr rd modules src
  obtain ⟨htx, hreplay⟩ := State.rxFrame_sends (s := s.at τ) (a := a) hdest (s.routeTo src)
  have port : (s.at τ).linkPort (s.routeTo src) = s.linkPort (s.routeTo src) := State.linkPort_congr (State.at_lnk ..)
  have pos : ((s.at τ).rxFrame a f).modulePos = s.modulePos := (State.rxFrame_modulePos ..).trans (State.at_modulePos ..)
  have run : exec (.write τ a src addr tag poison data) s = .next (((s.at τ).rxFrame a f).sendFrame
      { type := 0x02, src := s.modulePos, dest := src, data := [0x0201], tag := tag }) := by
    show execWrite τ a src addr tag poison data s = _
    rw [execWrite]
    dsimp only
    rw [hf, State.onFrame_up hu, State.inWindow_congr rd, hw, ← pos]
    rfl
  refine ⟨_, run, ?_⟩
  obtain ⟨-, mem, -, -⟩ := State.sendFrame_waits (s := (s.at τ).rxFrame a f)
    { type := 0x02, src := s.modulePos, dest := src, data := [0x0201], tag := tag }
  refine ⟨mem.trans ((State.rxFrame_stores ..).1.trans (State.at_mem ..)), ?_⟩
  rw [State.sendFrame_to (by simp only [toAll]; omega), route, State.queueFrame_replay (by rw [State.portUp_congr rd]; exact hr)
    (by rw [hreplay, port]; exact hl), hreplay, htx, port]

theorem write_inside {v : State} (hu : s.portUp a = true) (hw : s.inWindow addr data.length = true)
    (hv : ((s.at τ).rxFrame a { type := 0x01, src := src, dest := s.modulePos, arg := addr, tag := tag, data := data.map Int.ofNat }).hwWrite
      (0x70 + a) addr data = (v, st)) : exec (.write τ a src addr tag false data) s =
    .next (v.sendFrame { type := 0x02, src := v.modulePos, dest := src, data := [(st : Int)], tag := tag }) := by
  have frame : ({ (s.at τ).forMe frWRITE src addr (data.map Int.ofNat) with tag := tag, poison := false } : Frame) =
      { type := 0x01, src := src, dest := s.modulePos, arg := addr, tag := tag, data := data.map Int.ofNat } := by
    rw [State.forMe, State.at_modulePos]
    rfl
  have rd (g : Fld) : ((s.at τ).rxFrame a { type := 0x01, src := src, dest := s.modulePos, arg := addr, tag := tag, data := data.map Int.ofNat }).rd
      bLNK g = s.rd bLNK g := (State.rxFrame_rd ..).trans (State.at_rd ..)
  show execWrite τ a src addr tag false data s = _
  rw [execWrite]
  dsimp only
  rw [frame, State.onFrame_up hu, State.inWindow_congr rd, hw]
  rw [if_neg (by decide), if_neg (by decide), show iLNK a = 0x70 + a from rfl, hv]
  rfl

theorem writeAck_settles {e : Exch} (hp : s.portUp a = true)
    (hu : u = (s.at τ).rxFrame a { type := 0x02, src := src, dest := s.modulePos, tag := tag, data := [(st : Int)] })
    (he : s.lnk.exch.find? (fun e => e.x == tag / 256) = some e) (hs : s.inService = true) :
    exec (.writeAck τ a src tag st) s = .next (u.settleExch (e.ack (tag % 256) src st)) := by
  have frame : ({ (s.at τ).forMe frWRITE_ACK src 0 [(st : Int)] with tag := tag } : Frame) =
      { type := 0x02, src := src, dest := s.modulePos, tag := tag, data := [(st : Int)] } := by
    rw [State.forMe, State.at_modulePos]
    rfl
  obtain ⟨-, -, exch, -⟩ := State.rxFrame_waits (s := s.at τ) a { type := 0x02, src := src, dest := s.modulePos, tag := tag, data := [(st : Int)] }
  have found : u.lnk.exch.find? (fun e => e.x == tag / 256) = some e := by rw [hu, exch, State.at_lnk, he]
  have serving : u.inService = true := by rw [hu, State.rxFrame_inService, State.at_inService, hs]
  show execWriteAck τ a src tag st s = _
  rw [execWriteAck]
  dsimp only
  rw [frame, State.onFrame_up hp, ← hu, found]
  exact congrArg Host.Outcome.next (if_pos serving)

end Segments

/-! ### Exchanges start and end (R388, R391) -/

section Exchange
variable {g : List (List Nat)} {p : List Nat}

theorem nth_map_range {β : Type} {d : β} {h : Nat → β} {n k : Nat} (hk : k < n) : nth d ((List.range n).map h) k = h k := by
  simp [nth, List.getD_eq_getElem?_getD, hk]

/-- A kind whose blocks are read runs its start on what was read. -/
theorem State.startFused_reads {kind : Nat} {run : State → Fused → State} (hx : s.fusedReady q = some x) (hu : (s.readFused x).1 = u)
    (h0 : (s.readFused x).2.1 = 0) (hg : (s.readFused x).2.2.segs = g) (hp : (s.readFused x).2.2.p = p) (hk : pf p 0 1 = kind) :
    s.startFused q kind run = run u ⟨x, g, p⟩ := by
  have parts : ∀ f : Fused, f.x = x → f.segs = g → f.p = p → f = ⟨x, g, p⟩ := by
    rintro ⟨⟩ rfl rfl rfl
    rfl
  have hf := parts _ (State.readFused_cmd s x) hg hp
  exact State.startFused_run (f := ⟨x, g, p⟩) hx (by rw [← hu, ← h0, ← hf]) hk

theorem State.startExch_sends {v : State} {d : List Nat} {y : State × Exch} (hon : u.lnkOn = true) (hs : u.inService = true)
    (h1 : pz p 1 1 = true) (h6 : pz p 6 2 = true) (h16 : pz p 0x10 112 = true) (hn : 1 ≤ pf p 4 2 ∧ pf p 4 2 ≤ 256) (ha : pf p 8 8 % 64 = 0)
    (hin : pf p 8 8 + 32 * pf p 4 2 ≤ dramEnd) (hr : u.hwRead (iLNK 0) (pf p 8 8) (32 * pf p 4 2) = (v, 0, d))
    (hok : ((List.range (pf p 4 2)).map (fun k => (d.drop (32 * k)).take 32)).all
      (fun b => exSegOk b && tensorOk g false (pf b 0 8) (pf b 16 4)) = true)
    (hy : (List.range (pf p 4 2)).foldl (fun (y : State × Exch) k => y.1.sendSeg y.2 ((modulesOf (pf p 2 2)).filter (· != v.modulePos)) k
      ((d.drop (32 * k)).take 32)) (v.modCmd x.ptr (fun c => { c with begun := true, todo := [], par := p }), { x := x.ptr, list := pf p 8 8 }) = y) :
    u.startExch ⟨x, g, p⟩ = y.1.settleExch y.2 := by
  have segs : ((List.range (pf p 4 2)).map (fun k => (d.drop (32 * k)).take 32)).all exSegOk = true ∧
      ((List.range (pf p 4 2)).map (fun k => (d.drop (32 * k)).take 32)).all (fun b => tensorOk g false (pf b 0 8) (pf b 16 4)) = true := by
    simp only [List.all_eq_true, Bool.and_eq_true] at hok ⊢
    exact ⟨fun b hb => (hok b hb).1, fun b hb => (hok b hb).2⟩
  rw [State.startExch, if_neg (by simp [hon]), if_neg (by simp [hs])]
  dsimp only
  rw [if_neg (by simp [h1, h6, h16, hn.1, hn.2, ha]), if_neg (by omega), hr]
  dsimp only
  rw [if_neg (by simp), segs.1, segs.2, if_neg (by decide), if_neg (by decide)]
  rw [List.foldl_ext (g := fun (y : State × Exch) k => y.1.sendSeg y.2 ((modulesOf (pf p 2 2)).filter (· != v.modulePos)) k
    ((d.drop (32 * k)).take 32)), hy]
  intro z k hk
  rw [nth_map_range (List.mem_range.1 hk)]
  rfl

theorem range_filter_none {sts : List Nat} (h : sts.all soundStatus = true) :
    (List.range sts.length).filter (fun k => !soundStatus (nth 0 sts k)) = [] := by
  rw [List.filter_eq_nil_iff]
  intro k hk
  have hlt : k < sts.length := List.mem_range.1 hk
  have hmem : nth 0 sts k ∈ sts := by
    rw [nth, List.getD_eq_getElem _ _ hlt]
    exact List.getElem_mem hlt
  simp [List.all_eq_true.1 h _ hmem]

theorem State.settleExch_done {e : Exch} (ho : e.owed = []) (hs : e.sts.all soundStatus = true) (hx : s.cmd? e.x = some x) :
    ((s.settleExch e).cmd? e.x).map (fun y => (y.failed, y.final)) = some (0, some (e.sts.foldl max 0, 0xFFFFFFFF)) := by
  have shown (P : Nat → Bool) (A : Nat → Nat) (B : Nat → List Nat) (l : List Nat) :
      (l.foldl (fun s k => if P k then s.putAs (iLNK 0) (A k) (B k) else s) s).sch.cmds = s.sch.cmds :=
    foldl_keeps (fun u : State => u.sch.cmds) fun u k _ => by
      split
      · exact State.part_of_steadyOf (fun s => s.sch.cmds) (fun _ => rfl) (State.putAs_steadyOf ..)
      · rfl
  have done : ((List.range e.sts.length).map (fun k => !e.owed.any (fun o => o.1 == k))).all id = true := by simp [ho]
  rw [State.settleExch]
  dsimp only
  rw [if_pos done, range_filter_none hs]
  generalize hw : (List.range e.sts.length).foldl _ s = w
  have cmds : w.sch.cmds = s.sch.cmds := hw ▸ shown ..
  have found : (w.setLnk { w.lnk with exch := w.lnk.exch.filter (fun y => y.x != e.x) }).cmd? e.x = some x := by
    rw [← hx, State.cmd?, State.cmd?, ← cmds]
    rfl
  exact congrArg (Option.map fun y : Cmd => (y.failed, y.final)) (State.cmd?_modCmd_same (f := fun c => { c with
    failed := 0
    final := some (e.sts.foldl max 0, 0xFFFFFFFF) }) (fun _ => rfl) found)

end Exchange

/-! ### Barriers (R392) -/

section Barriers
variable {g : List (List Nat)} {p : List Nat}

theorem startBarrier_outside (hon : u.lnkOn = true) (hn : pf p 1 1 < 64) (hz : pz p 4 124 = true) (hm : bit (pf p 2 2) u.modulePos = 0)
    (hx : u.cmd? x.ptr = some x) : ((u.startBarrier ⟨x, g, p⟩).cmd? x.ptr).map (fun y => y.final) = some (some (0, 0xFFFFFFFF)) := by
  rw [State.startBarrier]
  dsimp only
  rw [if_neg (by simp [hon]), if_neg (by simp [hn, hz]), if_pos hm]
  exact congrArg (Option.map fun y : Cmd => y.final) (State.cmd?_modCmd_same (f := fun c => { c with
    begun := true
    todo := []
    final := some (0, 0xFFFFFFFF) }) (fun _ => rfl) hx)

theorem startBarrier_waits (hon : u.lnkOn = true) (hn : pf p 1 1 < 64) (hz : pz p 4 124 = true) (hm : bit (pf p 2 2) u.modulePos = 1)
    (h0 : u.modulePos ≠ 0) (hs : u.inService = true) (hw : u.lnk.waits.any (fun w => w.2.1 == pf p 1 1) = false) (hx : u.cmd? x.ptr = some x)
    (hf : x.final = none) : (u.startBarrier ⟨x, g, p⟩).lnk.waits = u.lnk.waits ++ [(x.ptr, pf p 1 1, u.gen (pf p 1 1), pf p 2 2)] ∧
      ((u.startBarrier ⟨x, g, p⟩).cmd? x.ptr).map (fun y => y.begun && y.final.isNone) = some true := by
  have begun := State.cmd?_modCmd_same (f := fun c => { c with
    begun := true
    todo := []
    par := p }) (fun _ => rfl) hx
  have told (t : State) (g : Frame) : ((t.sendFrame g).lnk.waits = t.lnk.waits) ∧ (t.sendFrame g).cmd? x.ptr = t.cmd? x.ptr := by
    obtain ⟨hsch, -, hwaits, -⟩ := State.sendFrame_waits (s := t) g
    exact ⟨hwaits, by rw [State.cmd?, hsch, State.cmd?]⟩
  have pos (F : Cmd → Cmd) (y : Link) : ((u.modCmd x.ptr F).setLnk y).modulePos = u.modulePos := rfl
  rw [State.startBarrier]
  dsimp only
  rw [if_neg (by simp [hon]), if_neg (by simp [hn, hz]), if_neg (by omega), if_neg (by simp [hs, hw]), pos, if_neg h0, (told _ _).1, (told _ _).2]
  refine ⟨rfl, ?_⟩
  refine (congrArg (Option.map fun y : Cmd => y.begun && y.final.isNone) begun).trans ?_
  rw [Option.map_some, hf]
  rfl

/-! ### Arrivals at module 0 -/

theorem foldl_lor_bit {α : Type} {h : α → Nat} {j : Nat} : ∀ {l : List α} {n : Nat}, (bit n j = 1 ∨ ∃ y ∈ l, bit (h y) j = 1) →
    bit (l.foldl (fun n y => n.lor (h y)) n) j = 1
  | [], _, hn => hn.resolve_right (by simp)
  | y :: l, n, hn => by
    have lor (i k : Nat) : bit (i.lor k) j = 1 ↔ bit i j = 1 ∨ bit k j = 1 := by
      rw [bit_eq_testBit, bit_eq_testBit, bit_eq_testBit, show i.lor k = i ||| k from rfl, Nat.testBit_or]
      cases i.testBit j <;> cases k.testBit j <;> decide
    refine foldl_lor_bit (l := l) (n := n.lor (h y)) ?_
    rcases hn with hn | ⟨z, hz, hb⟩
    · exact Or.inl ((lor ..).2 (Or.inl hn))
    · rcases List.mem_cons.1 hz with rfl | hz
      · exact Or.inl ((lor ..).2 (Or.inr hb))
      · exact Or.inr ⟨z, hz, hb⟩

/-- While a member in service that a mask names has not arrived, the barrier is not decided. -/
theorem State.decideBarrier_open {m : Nat} (hm : m < 16) (hs : s.serves m = true) {w : Nat × Nat × Nat × Nat}
    (hw : w ∈ s.lnk.arrived.filter (fun w => w.1 == num)) (hb : bit w.2.2.2 m = 1)
    (hn : (s.lnk.arrived.filter (fun w => w.1 == num)).any (fun v => v.2.2.1 == m) = false) : s.decideBarrier num = s := by
  unfold State.decideBarrier
  dsimp only
  split
  · rfl
  next v r hl =>
    refine if_neg fun hall => ?_
    have named : m ∈ modulesOf ((s.lnk.arrived.filter (fun w => w.1 == num)).foldl (fun n y => n.lor y.2.2.2) 0) := by
      refine List.mem_filter.2 ⟨List.mem_range.2 hm, ?_⟩
      rw [foldl_lor_bit (Or.inr ⟨w, hw, hb⟩)]
      rfl
    have here := List.all_eq_true.1 hall m named
    rw [hn, hs] at here
    cases here

theorem State.arrive_holds {m : Nat} (hl : Store.get 0 s.lnk.least num ≤ gen) (hm : m < 16) (hb : bit mask m = 1) (hs : s.serves m = true)
    (hne : m ≠ src) (hn : s.lnk.arrived.any (fun w => w.1 == num && w.2.2.1 == m) = false) :
    (num, gen, src, mask) ∈ (s.arrive num gen src mask).lnk.arrived := by
  rw [State.arrive, if_neg (by omega)]
  dsimp only
  generalize hk : s.lnk.arrived.filter (fun w => w.1 != num || (w.2.1 == gen && w.2.2.1 != src)) = kept
  generalize hu : s.setLnk _ = u
  have arrived : u.lnk.arrived = kept ++ [(num, gen, src, mask)] := hu ▸ rfl
  have new : (num, gen, src, mask) ∈ u.lnk.arrived := by
    rw [arrived]
    exact List.mem_append_right _ (List.mem_singleton_self _)
  have absent : (u.lnk.arrived.filter (fun w => w.1 == num)).any (fun v => v.2.2.1 == m) = false := by
    rw [arrived, ← hk]
    simp only [List.any_eq_false, List.mem_filter, Bool.and_eq_true, beq_iff_eq, not_and] at hn ⊢
    rintro w ⟨hw, hnum⟩
    rcases List.mem_append.1 hw with hw | hw
    · exact hn w (List.mem_filter.1 hw).1 hnum
    · rw [List.mem_singleton.1 hw]
      exact hne.symm
  have serves : u.serves m = true := hu ▸ hs
  rw [State.decideBarrier_open hm serves (List.mem_filter.2 ⟨new, beq_self_eq_true num⟩) hb absent]
  exact new

/-- An arrival that module 0 receives. -/
theorem exec_arrive (hp : s.portUp a = true) (h0 : s.modulePos = 0) : ∃ u : State, exec (.arrive τ a src num gen mask) s =
    .next (u.arrive num gen src mask) ∧ u.lnk.arrived = s.lnk.arrived ∧ u.lnk.least = s.lnk.least ∧ ∀ m, u.serves m = s.serves m := by
  obtain ⟨-, -, -, -, -, arrived, least⟩ := State.rxFrame_waits (s := s.at τ) a ((s.at τ).forMe frARRIVE src num [(gen : Int), (mask : Int)])
  refine ⟨_, congrArg Host.Outcome.next ((State.onFrame_up hp).trans (if_pos ?_)), arrived.trans (by rw [State.at_lnk]),
    least.trans (by rw [State.at_lnk]), fun m => (State.rxFrame_serves ..).trans (State.at_serves ..)⟩
  rw [State.rxFrame_modulePos, State.at_modulePos, h0]

theorem arrive_waits {m : Nat} (hp : s.portUp a = true) (h0 : s.modulePos = 0) (hl : Store.get 0 s.lnk.least num ≤ gen) (hm : m < 16)
    (hb : bit mask m = 1) (hs : s.serves m = true) (hne : m ≠ src)
    (hn : s.lnk.arrived.any (fun w => w.1 == num && w.2.2.1 == m) = false) :
    Completes (.arrive τ a src num gen mask) s (fun t => (num, gen, src, mask) ∈ t.lnk.arrived) := by
  obtain ⟨u, hx, arrived, least, serves⟩ := exec_arrive (τ := τ) (src := src) (num := num) (gen := gen) (mask := mask) hp h0
  exact ⟨_, hx, State.arrive_holds (by rw [least]; exact hl) hm hb (by rw [serves]; exact hs) hne (by rw [arrived]; exact hn)⟩

theorem arrive_stale (hp : s.portUp a = true) (h0 : s.modulePos = 0) (hl : gen < Store.get 0 s.lnk.least num) :
    Completes (.arrive τ a src num gen mask) s (fun t => t.lnk.arrived = s.lnk.arrived ∧ t.lnk.least = s.lnk.least) := by
  obtain ⟨u, hx, arrived, least, -⟩ := exec_arrive (τ := τ) (src := src) (num := num) (gen := gen) (mask := mask) hp h0
  refine ⟨_, hx, ?_⟩
  beta_reduce
  rw [State.arrive, if_pos (by rw [least]; exact hl)]
  exact ⟨arrived, least⟩

/-! ### Releases -/

section Release
variable {time st : Nat} {bad : Bool} {w : Nat × Nat × Nat × Nat}

/-- The end of a barrier that a command waits at. -/
theorem State.endBarrier_ends (hw : s.lnk.waits.find? (fun v => v.2.1 == num && v.2.2.1 == gen) = some w) (hx : s.cmd? w.1 = some x)
    (hf : x.final = none) : (s.endBarrier num gen st).gen num = s.gen num + 1 ∧
    ((s.endBarrier num gen st).cmd? w.1).map (fun y => y.final) = some (some (st, 0xFFFFFFFF)) ∧
    (s.endBarrier num gen st).cnt bLNK LNK_CNT_BARRIERS = satInc (s.cnt bLNK LNK_CNT_BARRIERS) 1 ∧
    (∀ b g, fkey b g ≠ fkey bLNK LNK_CNT_BARRIERS → (s.endBarrier num gen st).cnt b g = s.cnt b g) ∧
    (s.endBarrier num gen st).lnk.waits.any (fun v => v.2.1 == num && v.2.2.1 == gen) = false := by
  have final (u : State) (hu : u.cmd? w.1 = some x) : ((u.modCmd w.1 (fun c => if c.final.isSome then c else { c with
      final := some (st, 0xFFFFFFFF) })).cmd? w.1).map (fun y => y.final) = some (some (st, 0xFFFFFFFF)) := by
    rw [State.cmd?_modCmd_same (fun c => by split <;> rfl) hu, Option.map_some, if_neg (by simp [hf])]
  have next (u : State) (F : Cmd → Cmd) : (((u.nextGen num).modCmd w.1 F).inc bLNK LNK_CNT_BARRIERS).gen num = u.gen num + 1 := by
    show Store.get 0 (Store.put 0 u.lnk.gens num (u.gen num + 1)) num = _
    exact Store.get_put_same
  rw [State.endBarrier, hw]
  dsimp only
  refine ⟨(next _ _).trans rfl, final _ hx, State.cnt_inc .., fun b g h => State.cnt_inc_ne h.symm, ?_⟩
  refine List.any_eq_false.2 fun v hv h => ?_
  obtain ⟨-, hno⟩ := List.mem_filter.1 hv
  rw [h] at hno
  cases hno

/-- A release that a module in service receives. -/
theorem exec_release (hp : s.portUp a = true) (hs : s.inService = true) : ∃ u : State, exec (.release τ a num gen time bad) s =
    .next (u.takeRelease num gen time bad) ∧ u.sch = s.sch ∧ u.tb = (s.at τ).tb ∧ u.lnk.waits = s.lnk.waits ∧ u.lnk.gens = s.lnk.gens ∧
    u.cnt bLNK LNK_CNT_BARRIER_LATE = s.cnt bLNK LNK_CNT_BARRIER_LATE := by
  generalize hf : bcast frRELEASE 0 num [(gen : Int), (time : Int), if bad then 1 else 0] = f
  obtain ⟨sch, tb, -, waits, gens, -, -⟩ := State.rxFrame_waits (s := s.at τ) a f
  refine ⟨(s.at τ).rxFrame a f, congrArg Host.Outcome.next ?_, sch.trans (State.at_sch ..), tb, waits.trans (by rw [State.at_lnk]),
    gens.trans (by rw [State.at_lnk]), (State.rxFrame_cnt (by rw [← hf]; rfl) (by decide)).trans (State.at_cnt ..)⟩
  rw [← hf]
  exact (State.onFrame_up hp).trans (if_pos (by rw [State.rxFrame_inService, State.at_inService, hs]))

theorem release_waits (hp : s.portUp a = true) (hs : s.inService = true)
    (hw : s.lnk.waits.any (fun w => w.2.1 == num && w.2.2.1 == gen) = true) (ht : (s.at τ).tb.time ≤ time) :
    Completes (.release τ a num gen time bad) s (fun t =>
      (num, gen, time, bad) ∈ t.lnk.rels ∧ t.lnk.waits = s.lnk.waits ∧ t.gen num = s.gen num) := by
  obtain ⟨u, hx, -, tb, waits, gens, -⟩ := exec_release (τ := τ) (num := num) (gen := gen) (time := time) (bad := bad) hp hs
  refine ⟨_, hx, ?_⟩
  beta_reduce
  rw [State.takeRelease, waits, if_pos hw, tb, if_neg (by omega)]
  refine ⟨List.mem_append_right _ (List.mem_singleton_self _), waits, ?_⟩
  rw [State.gen, State.gen, ← gens]
  rfl

theorem release_late (hp : s.portUp a = true) (hs : s.inService = true)
    (hw : s.lnk.waits.find? (fun v => v.2.1 == num && v.2.2.1 == gen) = some w) (hx : s.cmd? w.1 = some x) (hf : x.final = none)
    (ht : time < (s.at τ).tb.time) : Completes (.release τ a num gen time bad) s (fun t =>
      t.gen num = s.gen num + 1 ∧ t.cnt bLNK LNK_CNT_BARRIER_LATE = satInc (s.cnt bLNK LNK_CNT_BARRIER_LATE) 1 ∧
      (t.cmd? w.1).map (fun y => y.final) = some (some ((if bad then 0x0808 else 0), 0xFFFFFFFF)) ∧
      t.lnk.waits.any (fun v => v.2.1 == num && v.2.2.1 == gen) = false) := by
  obtain ⟨u, hrun, sch, tb, waits, gens, cnt⟩ := exec_release (τ := τ) (num := num) (gen := gen) (time := time) (bad := bad) hp hs
  obtain ⟨hgen, hfinal, -, hcnt, hgone⟩ := State.endBarrier_ends (s := u) (st := relStatus bad) (by rw [waits]; exact hw)
    (by rw [State.cmd?, sch]; exact hx) hf
  have any : s.lnk.waits.any (fun w => w.2.1 == num && w.2.2.1 == gen) = true := List.any_eq_true.2
    ⟨w, List.mem_of_find?_eq_some hw, List.find?_some (p := fun v : Nat × Nat × Nat × Nat => v.2.1 == num && v.2.2.1 == gen) hw⟩
  refine ⟨_, hrun, ?_⟩
  beta_reduce
  rw [State.takeRelease, waits, if_pos any, tb, if_pos ht]
  refine ⟨hgen.trans (by rw [State.gen, gens, State.gen]), (State.cnt_inc ..).trans ?_, hfinal, hgone⟩
  rw [hcnt _ _ (by decide), cnt]

theorem exec_barrierReleaseTime {r : Nat × Nat × Nat × Bool} (hr : s.lnk.rels.find? (fun r => r.1 == num) = some r) :
    exec (.barrierReleaseTime τ num) s =
      .next (if r.2.2.1 ≤ (s.at τ).tb.time then (s.at τ).endBarrier num r.2.1 (relStatus r.2.2.2) else s.at τ) := by
  show execBarrierReleaseTime τ num s = _
  rw [execBarrierReleaseTime, State.at_lnk, hr]

theorem barrierReleaseTime_ends {r : Nat × Nat × Nat × Bool} (hr : s.lnk.rels.find? (fun r => r.1 == num) = some r)
    (ht : r.2.2.1 ≤ (s.at τ).tb.time) (hw : s.lnk.waits.find? (fun v => v.2.1 == num && v.2.2.1 == r.2.1) = some w)
    (hx : s.cmd? w.1 = some x) (hf : x.final = none) : Completes (.barrierReleaseTime τ num) s (fun t => t.gen num = s.gen num + 1 ∧
      (t.cmd? w.1).map (fun y => y.final) = some (some ((if r.2.2.2 then 0x0808 else 0), 0xFFFFFFFF)) ∧
      t.cnt bLNK LNK_CNT_BARRIERS = satInc (s.cnt bLNK LNK_CNT_BARRIERS) 1) := by
  obtain ⟨hgen, hfinal, hcnt, -, -⟩ := State.endBarrier_ends (s := s.at τ) (st := relStatus r.2.2.2) (by rw [State.at_lnk]; exact hw)
    (by rw [State.cmd?, State.at_sch]; exact hx) hf
  refine ⟨_, (exec_barrierReleaseTime hr).trans (by rw [if_pos ht]), hgen.trans ?_, hfinal, hcnt.trans (by rw [State.at_cnt])⟩
  rw [State.gen, State.at_lnk, State.gen]

end Release

end Barriers

end Exchanges

/-- Settles O45. That a frame's tag is the command's pointer times 256 plus the segment and where it stands are log entries 86 and 120, that
module 0 discards generations below the highest seen is entry 87, and that the largest code is the highest status is entry 64. -/
theorem exchangesAndBarriers : Obligations.ExchangesAndBarriers := by
  unfold Obligations.ExchangesAndBarriers
  refine ⟨fun s τ q x u g p v d y hx hu h0 hg hp _ _ hk hon hs h1 h6 h16 hn ha hin hr hok hy => ?sends,
    fun s τ a src addr tag poison data hu hm hs hw hr hl => write_outside hu hm hs hw hr hl,
    fun s τ a src addr tag st data v hu hw hv => write_inside hu hw hv,
    fun s τ a src tag st u e hp hu he hs => writeAck_settles hp hu he hs,
    fun s τ q x u g p hx hu h0 hg hp hc _ hk hon hn hz hm => ⟨_, ?outside, startBarrier_outside (g := g) hon hn hz hm hc⟩,
    fun s τ q x u g p hx hu h0 hg hp hc hf hk hon hn hz hm hne hs hw =>
      ⟨_, ?waits, startBarrier_waits (g := g) hon hn hz hm hne hs hw hc hf⟩,
    fun s τ a src num gen mask m hp h0 _ hl hm hb hs hne hn => arrive_waits hp h0 hl hm hb hs hne hn,
    fun s τ a src num gen mask hp h0 hl => arrive_stale hp h0 hl,
    fun s τ a num gen time bad hp hs hw ht => release_waits hp hs hw ht,
    fun s τ a num gen time bad w x hp hs hw hx hf ht => release_late hp hs hw hx hf ht,
    fun s τ num r w x hr ht hw hx hf => barrierReleaseTime_ends hr ht hw hx hf,
    fun s τ num r hr ht => (exec_barrierReleaseTime hr).trans (by rw [if_neg (by omega)]),
    fun s e x ho hs hx => State.settleExch_done ho hs hx⟩
  case sends =>
    exact congrArg Host.Outcome.next ((State.startFused_reads hx hu h0 hg hp hk).trans
      (State.startExch_sends hon hs h1 h6 h16 hn ha hin hr hok hy))
  case outside => exact congrArg Host.Outcome.next (State.startFused_reads hx hu h0 hg hp hk)
  case waits => exact congrArg Host.Outcome.next (State.startFused_reads hx hu h0 hg hp hk)

end Sys2Proof.Machine
end
